-- ==== Sys2Proof/Word.lean ====
section
/-! DEFINITION. The word types of the module (R5, R6): what the manual treats as bits. -/

namespace Sys2Proof

/-- One byte of memory, of a frame or of a record (R5). -/
abbrev Byte := BitVec 8

/-- A register word (R283). -/
abbrev Word := BitVec 32

/-- A time in PTP nanoseconds, seconds × 10⁹ + nanoseconds (R302, R7). -/
abbrev Ns := Nat

/-- A build-plane position in units of 10 nm (R6). -/
abbrev Pos := Int

end Sys2Proof
end

