-- ==== Sys2Proof/Machine/Bits.lean ====
section
/-! DEFINITION. Byte order, bit fields, saturation and rounding (R5, R8, R9): the one place where each is decided. -/

namespace Sys2Proof.Machine

/-- The number that `bs` spells, least significant byte first (R5). -/
def leNat : List Byte → Nat
  | [] => 0
  | b :: bs => b.toNat + 256 * leNat bs

/-- The low `n` bytes of `v`, least significant first (R5). -/
def natLE : Nat → Nat → List Byte
  | 0, _ => []
  | n + 1, v => BitVec.ofNat 8 v :: natLE n (v / 256)

/-- The low `n` bytes of the two's complement of `v` (R5, R8). -/
def intLE (n : Nat) (v : Int) : List Byte :=
  natLE n (v % ((256 ^ n : Nat) : Int)).toNat

/-- Bytes `off` to `off + n - 1` of `bs` as an unsigned number; bytes past the end read 0. -/
def field (bs : List Byte) (off n : Nat) : Nat := leNat ((bs.drop off).take n)

/-- The two's complement reading of the low `w` bits of `v` (R8). -/
def signExt (w v : Nat) : Int :=
  let m := v % 2 ^ w
  if 2 ^ w ≤ 2 * m then (m : Int) - ((2 ^ w : Nat) : Int) else (m : Int)

/-- Bytes `off` to `off + n - 1` of `bs` as a two's complement number. -/
def fieldS (bs : List Byte) (off n : Nat) : Int := signExt (8 * n) (field bs off n)

/-- Bits `[lo + w - 1 : lo]` of `v`. -/
def bits (v lo w : Nat) : Nat := v / 2 ^ lo % 2 ^ w

/-- Bit `i` of `v`. -/
def bit (v i : Nat) : Bool := v.testBit i

/-- The bit of a flag. -/
def b1 (b : Bool) : Nat := if b then 1 else 0

/-- A register word put together from fields `(lo, width, value)`; bits of no field read 0 (R11). -/
def packFields : List (Nat × Nat × Nat) → Nat
  | [] => 0
  | (lo, w, v) :: fs => (v % 2 ^ w) * 2 ^ lo + packFields fs

/-- The register word of `fields`. -/
def regW (fs : List (Nat × Nat × Nat)) : Word := BitVec.ofNat 32 (packFields fs)

/-- The indices below `n` whose bit is set in `mask`, rising. -/
def bitsOf (n mask : Nat) : List Nat := (List.range n).filter fun i => bit mask i

/-- The number whose set bits are the indices of `l`. -/
def maskOf (l : List Nat) : Nat := l.foldl (fun m i => m ||| 2 ^ i) 0

/-- `l` is `n` zero bytes. -/
def allZero (bs : List Byte) : Bool := bs.all fun b => b == 0

/-- A counter that saturates at all ones. -/
def satInc {w : Nat} (x : BitVec w) : BitVec w := if x = BitVec.allOnes w then x else x + 1

/-- A saturating addition of `n` to a counter. -/
def satAdd {w : Nat} (x : BitVec w) (n : Nat) : BitVec w :=
  if x.toNat + n < 2 ^ w then BitVec.ofNat w (x.toNat + n) else BitVec.allOnes w

/-- The value of `n` in an unsigned field of `w` bits, saturating (R9). -/
def satU (w : Nat) (n : Int) : BitVec w :=
  if n < 0 then 0 else if n < ((2 ^ w : Nat) : Int) then BitVec.ofNat w n.toNat else BitVec.allOnes w

/-- The value of `n` between `lo` and `hi` (R9: a result outside its format saturates at the end of the range). -/
def clampI (lo hi n : Int) : Int := if n < lo then lo else if hi < n then hi else n

/-- The value of `n` in a signed format of `w` bits, saturating (R9). -/
def satS (w : Nat) (n : Int) : Int :=
  clampI (-((2 ^ (w - 1) : Nat) : Int)) (((2 ^ (w - 1) : Nat) : Int) - 1) n

/-- `n / d` rounded to the nearest integer, ties away from zero (R9). -/
def roundDiv (n : Int) (d : Nat) : Int :=
  let q := (2 * n.natAbs + d) / (2 * d)
  if n < 0 then -(q : Int) else (q : Int)

/-- `n / d` of naturals rounded to the nearest, ties up (R9). -/
def roundDivN (n d : Nat) : Nat := (2 * n + d) / (2 * d)

/-- `a + (b − a) × w / n`, rounded once (R9). -/
def lerp (a b : Int) (w : Int) (n : Nat) : Int := roundDiv (a * n + (b - a) * w) n

/-- The least multiple of `m` that is at least `n` (n itself for m = 0). -/
def alignUp (n m : Nat) : Nat := if m = 0 then n else (n + m - 1) / m * m

/-- Element `i` of a list of units; a unit that is not there reads as the given absent unit. -/
def unit {α : Type} (l : List α) (i : Nat) (absent : α) : α := l.getD i absent

/-- The list with unit `i` changed by `f`; a unit that is not there stays absent. -/
def modUnit {α : Type} (l : List α) (i : Nat) (f : α → α) : List α := l.modify i f

/-- The integer square root of `n`, by bisection on `fuel` bits from above. -/
def isqrtGo : Nat → Nat → Nat → Nat
  | 0, r, _ => r
  | k + 1, r, n => if (r + 2 ^ k) * (r + 2 ^ k) ≤ n then isqrtGo k (r + 2 ^ k) n else isqrtGo k r n

/-- The largest r with r² ≤ n. -/
def isqrt (n : Nat) : Nat := isqrtGo (Nat.log2 n / 2 + 1) 0 n

end Sys2Proof.Machine
end

