-- ==== Sys2Proof/Machine/Operands.lean ====
section
/-! DEFINITION. The operand forms that commands share: descriptor headers, management requests and the readings of
nodes and sensors that arrive from outside. -/

namespace Sys2Proof.Machine

/-- Where a descriptor stood and what its header holds (R299): the command ring, its position in it, how many descriptors had been fetched
from the ring before it, TAG and the flags IRQ and SILENT. The opcode is the constructor of `Instr`. -/
structure Hdr where
  ring : Nat
  index : Nat
  serial : Nat
  tag : BitVec 32
  irq : Bool
  silent : Bool
deriving DecidableEq, Repr

/-- How a unit names the descriptor it works for: its command ring and its number in the order of the ring's fetches (R301). -/
abbrev Ref := Nat × Nat

/-- The name of a descriptor. -/
def Hdr.ref (h : Hdr) : Ref := (h.ring, h.serial)

/-- A unit of the module as BLK_KIND and BLK_INDEX name it (R568), or with a kind of 16 and above as log 6 numbers the
units a BLOCK reset cannot name. -/
abbrev UnitId := Nat × Nat

/-- What the crossings of a unit lose when they resynchronise (R562, R563): transfers in flight, and the events that came to the PULSE
crossing while its handshake could not complete (R558). -/
structure XingLoss where
  transfers : Nat
  events : Nat
deriving DecidableEq, Repr

/-- An upstream control block with the fields of a LINKDN (R249, R275): its block type and its reason. -/
structure UpBlock where
  type : Nat
  reason : Nat
deriving DecidableEq, Repr

/-- A request datagram of the management channel (R286), less its KIND, which the constructor of `Instr` gives.
`src` is the sender's address and `crc` the checksum as received. -/
structure MgmtReq where
  src : Nat
  magic : Nat
  version : Nat
  retry : Bool
  seq : Nat
  address : Nat
  count : Nat
  data : List Byte
  crc : Nat
deriving DecidableEq, Repr

/-- What an Announce message says of its grandmaster and of its sender (R217): versionPTP and domainNumber of its header, the clock and
port number that sent it, the Ethernet port it came in on, and its body with currentUtcOffset, the flags of timePropertiesDS and timeSource. -/
structure Announce where
  version : Nat
  domain : Nat
  sender : Nat
  senderPort : Nat
  port : Nat
  utcOffset : Int
  timeFlags : Nat
  timeSource : Nat
  gmId : Nat
  priority1 : Nat
  clockClass : Nat
  accuracy : Nat
  variance : Nat
  priority2 : Nat
  stepsRemoved : Nat
deriving DecidableEq, Repr

/-- A Sync as it arrives at an Ethernet port (R217, R219, R221): versionPTP, the sending clock and the domain, the origin timestamp (of the
Follow_Up for a two-step master), the correctionField in units of 2⁻¹⁶ ns, and the receive timestamp at the SerDes. -/
structure PtpSync where
  version : Nat
  sender : Nat
  port : Nat
  domain : Nat
  origin : Nat
  correction : Int
  rx : Ns
deriving DecidableEq, Repr

/-- A delay message of R217, R220 and R221; receive timestamps are those at the SerDes. -/
inductive PtpDelay where
  /-- Delay_Req to a master: port and domain, sender, sequence number, receive timestamp and the correction in 2⁻¹⁶ ns -/
  | delayReq (port domain sender seq : Nat) (rx : Ns) (correction : Int)
  /-- Delay_Resp: its domain, the request's sequence number, t4 and the correction in 2⁻¹⁶ ns -/
  | delayResp (domain seq t4 : Nat) (correction : Int)
  /-- Pdelay_Req of a link partner on a port, with its receive timestamp -/
  | pdelayReq (port seq : Nat) (rx : Ns)
  /-- Pdelay_Resp on a port: sequence number, t2, t3, the receive timestamp t4 and the correction in 2⁻¹⁶ ns -/
  | pdelayResp (port seq t2 t3 t4 : Nat) (correction : Int)
deriving DecidableEq, Repr

/-- A PTP management message: GET of a data set, or a SET (R217). -/
inductive PtpMgmt where
  | getDefaultDS
  | getCurrentDS
  | getParentDS
  | getTimePropertiesDS
  | getOther
  | set
deriving DecidableEq, Repr

/-- A PTP frame in the switch (R220): messageType, its transport (0 Layer 2, 1 UDP over IPv4, 2 UDP over IPv6) with its UDP checksum,
ingress and egress port with their timestamps at the SerDes, sequence number and correctionField in 2⁻¹⁶ ns. -/
structure TcFrame where
  kind : Nat
  transport : Nat
  checksum : Nat
  inPort : Nat
  outPort : Nat
  ingress : Ns
  egress : Ns
  seq : Nat
  correction : Int
deriving DecidableEq, Repr

/-- What happens on the pairs of an encoder channel in QUADRATURE mode (R402, R405): a step of A or B in either sense, A and B
changing at one lane tick, or a rising Z. -/
inductive EncEdge where
  | up
  | down
  | illegal
  | index
deriving DecidableEq, Repr

/-- A HELLO frame (R348): the member and the module that sent it, its payload, and whether the header check of R201 holds. -/
structure Hello where
  member : Nat
  moduleId : Nat
  headerOk : Bool
  state : Nat
  prio : Nat
  leaderId : Nat
  machineId : Nat
  serial : Nat
  term : Nat
  jobState : Nat
  jobId : Nat
deriving DecidableEq, Repr

/-- A LEADER frame (R348): the member and the module that sent it, whether its MACHINE_ID and header check hold, TERM and MEMBERS. -/
structure LeaderMsg where
  member : Nat
  moduleId : Nat
  valid : Bool
  term : Nat
  mask : Nat
deriving DecidableEq, Repr

/-- One entry of a SYNC_REPORT (R202): SYNC_ID, LANE, the flags ARRIVED, GO and FAULTED, and B and RC in ns after
TOR. -/
structure SyncEntry where
  sync : Nat
  lane : Nat
  arrived : Bool
  go : Bool
  faulted : Bool
  bound : Nat
  rc : Nat
deriving DecidableEq, Repr

end Sys2Proof.Machine
end

