-- ==== Sys2Proof/Machine/Parts/Host.lean ====
section
/-! DEFINITION. State of the host path (chapter "Host rings, fences and coherent state"): rings, completions, events,
interrupt vectors, access errors, snapshots and the management channel. -/

namespace Sys2Proof.Machine

/-- A descriptor that has been fetched and has not completed (R22): its header, its opcode and the completion ring in
which its record is reserved (R300). -/
structure Ticket where
  hdr : Hdr
  opcode : Nat
  cq : Nat
deriving DecidableEq, Repr

/-- HOSTQ_CMD_r. HEAD is the next descriptor to fetch (R298, R300); `stall` is when the ring began to wait for
completion space (R300, the model's own timer), `held` the number of a FENCE that holds the ring (R307), and `fetched` numbers the ring's descriptors in the
order of their fetch, over every ENABLE. -/
structure CmdRing where
  base : BitVec 64
  sizeLog2 : BitVec 4
  cq : BitVec 4
  enable : Bool
  tail : BitVec 12
  head : BitVec 12
  stall : Option Ns
  held : Option Nat
  fetched : Nat
deriving DecidableEq, Repr

/-- HOSTQ_CQ_c. `since` counts the records written since the vector last fired and `first` is when the first of them
was written (R304). -/
structure ComplRing where
  base : BitVec 64
  sizeLog2 : BitVec 5
  enable : Bool
  head : BitVec 16
  tail : BitVec 16
  phase : Bool
  intCount : BitVec 8
  intTime : BitVec 16
  since : Nat
  first : Option Ns
deriving DecidableEq, Repr

/-- A finished completion in a context's holding slot (R302, R305). -/
structure Finished where
  tk : Ticket
  status : BitVec 8
  late : Bool
  time : Ns
  ctx : Nat
  detail : BitVec 32
  data : BitVec 64
deriving DecidableEq, Repr

/-- A FENCE that waits (R307): the descriptors it still waits for, by command ring and position, whether it holds its
ring, and how many of them ended with neither DONE nor DONE_NOTE (R308). -/
structure Fence where
  tk : Ticket
  waits : List Ref
  hold : Bool
  bad : BitVec 32
deriving DecidableEq, Repr

/-- One entry of the MSI-X table (R282; the layout is the PCI family's, PRESUMED, log 3). -/
structure MsixEntry where
  addrLo : Word
  addrHi : Word
  data : Word
  masked : Bool
deriving DecidableEq, Repr

/-- The host queues (HOSTQ, R298 to R308). -/
structure HostQ where
  cmd : List CmdRing
  cq : List ComplRing
  /-- the ring the fetch pointer is at, and how many descriptors this turn has taken from it (R300) -/
  rrRing : Nat
  rrTaken : Nat
  /-- fetched and not completed, oldest first (R22); parked ones apart (R23) -/
  outstanding : List Ticket
  parked : List Ticket
  /-- the 320 holding slots and the completions that wait for theirs (R305) -/
  slots : List (Option Finished)
  backlog : List Finished
  collect : Nat
  fences : List Fence
  msix : List MsixEntry
  pba : BitVec 64
  pcieUp : Bool
deriving DecidableEq, Repr

/-- One EVENT_ROUTE (R310). -/
structure Route where
  lo : BitVec 16
  hi : BitVec 16
  vec : Nat
deriving DecidableEq, Repr

/-- The event ring (R309). `lost` is GLOBAL_EVENT's EVENTS_LOST, `unreported` the number lost since the last
EVENT_OVERFLOW. `routes` is newest first. -/
structure EventRing where
  set : Bool
  base : BitVec 64
  size : Nat
  head : BitVec 16
  tail : BitVec 16
  phase : Bool
  lost : BitVec 32
  unreported : Nat
  seq : BitVec 32
  routes : List Route
deriving DecidableEq, Repr

/-- GLOBAL_ACCESS_ERR (R284). `armed` says that the next record raises ACCESS_REJECTED, `made` counts the records, by which an answer
of the management channel tells how its access ended (R286). -/
structure AccessErr where
  lastStatus : BitVec 8
  lastOffset : BitVec 26
  rejectedWrites : BitVec 16
  reservedWrites : BitVec 16
  badAccess : BitVec 16
  mgmtDropped : BitVec 16
  armed : Bool
  made : Nat
deriving DecidableEq, Repr

/-- An answer kept for a repeated request (R287, R341). -/
structure KeptAnswer where
  seq : Nat
  bytes : List Byte
deriving DecidableEq, Repr

/-- The management channel and the host group (R285 to R289), and the host-loss timer (R322). `fresh` says that a vector has fired since the
last NOTIFY. -/
structure Mgmt where
  attached : Option Nat
  kept : List KeptAnswer
  lastNotify : Option Ns
  notify : BitVec 64
  fresh : Bool
  win : BitVec 5
  hostLost : Bool
  lostAt : Ns
  timer : Option Ns
deriving DecidableEq, Repr

/-- A latched snapshot that waits for publication (R313, R316). -/
structure Latched where
  image : List Byte
  invalid : Nat
  joined : List Ref
deriving DecidableEq, Repr

/-- Still (R311 to R316). `demand` holds the requests that wait for the demand latch at `demandAt`, `joined` those that
wait for the next periodic latch at `nextTick`, `joinedNext` those that wait for the one after it, and `lastLatch` the latest latch tick (R311, R312). -/
structure Still where
  regionSet : Bool
  base : BitVec 64
  gen : BitVec 64
  periodUs : BitVec 32
  nextTick : Option Ns
  withInvalid : BitVec 16
  skipped : BitVec 16
  lastLatch : Option Ns
  demandAt : Option Ns
  demand : List Ref
  joined : List Ref
  joinedNext : List Ref
  latched : Option Latched
  genHiLatch : BitVec 32
deriving DecidableEq, Repr

/-- GLOBAL_OVERRIDE (R320, R321). -/
structure Override where
  gen : BitVec 32
  active : BitVec 8
deriving DecidableEq, Repr

def CmdRing.reset : CmdRing :=
  { base := 0, sizeLog2 := 0, cq := 0, enable := false, tail := 0, head := 0, stall := none, held := none, fetched := 0 }

def ComplRing.reset : ComplRing :=
  { base := 0, sizeLog2 := 0, enable := false, head := 0, tail := 0, phase := false, intCount := 0, intTime := 0,
    since := 0, first := none }

def MsixEntry.reset : MsixEntry := { addrLo := 0, addrHi := 0, data := 0, masked := true }

def HostQ.reset : HostQ :=
  { cmd := List.replicate 64 .reset, cq := List.replicate 16 .reset, rrRing := 0, rrTaken := 0, outstanding := [],
    parked := [], slots := List.replicate 320 none, backlog := [], collect := 0, fences := [],
    msix := List.replicate 64 .reset, pba := 0, pcieUp := false }

def EventRing.reset : EventRing :=
  { set := false, base := 0, size := 0, head := 0, tail := 0, phase := false, lost := 0, unreported := 0, seq := 0,
    routes := [] }

def AccessErr.reset : AccessErr :=
  { lastStatus := 0, lastOffset := 0, rejectedWrites := 0, reservedWrites := 0, badAccess := 0, mgmtDropped := 0,
    armed := true, made := 0 }

def Mgmt.reset : Mgmt :=
  { attached := none, kept := [], lastNotify := none, notify := 0, fresh := false, win := 0, hostLost := false, lostAt := 0,
    timer := none }

def Still.reset : Still :=
  { regionSet := false, base := 0, gen := 0, periodUs := 1000, nextTick := none, withInvalid := 0, skipped := 0,
    lastLatch := none, demandAt := none, demand := [], joined := [], joinedNext := [], latched := none, genHiLatch := 0 }

def Override.reset : Override := { gen := 0, active := 0 }

end Sys2Proof.Machine
end

