-- ==== Sys2Proof/Machine/Parts/Boot.lean ====
section
/-! DEFINITION. Identity, pins, start-up and machine membership (chapters "Scope and conventions", "The module and the
life of a layer" and "Start-up and firmware loading"). -/

namespace Sys2Proof.Machine

/-- The variants of the module (R1). -/
inductive Variant where
  | mfc128
  | mfc096
  | mfc048
deriving DecidableEq, Repr

/-- VARIANT's code (GLOBAL_ID). -/
def Variant.code : Variant → Nat
  | .mfc128 => 0
  | .mfc096 => 1
  | .mfc048 => 2

/-- Beam lanes of a variant (R1). -/
def Variant.lanes : Variant → Nat
  | .mfc128 => 128
  | .mfc096 => 96
  | .mfc048 => 48

/-- Tarns of a variant (R1). -/
def Variant.tarns : Variant → Nat
  | .mfc128 => 16
  | .mfc096 => 12
  | .mfc048 => 6

/-- Spring Link ports of a variant (R1). -/
def Variant.ports : Variant → Nat
  | .mfc128 => 32
  | .mfc096 => 24
  | .mfc048 => 12

/-- Camera ports of a variant (R1). -/
def Variant.cameras : Variant → Nat
  | .mfc128 => 8
  | .mfc096 => 8
  | .mfc048 => 4

/-- The one-time programmable memory (R338, R361, R547, R571): kept by every reset. -/
structure Otp where
  serial : BitVec 64
  mac : BitVec 48
  rollback : BitVec 7
  keysRevoked : BitVec 4
  builderKeyHash : Option (List Byte)
  ownerClearKey : Option (List Byte)
deriving DecidableEq, Repr

/-- The fused and strapped identity (R1, R16; GLOBAL_ID). -/
structure Ident where
  variant : Variant
  dieStep : BitVec 4
  moduleId : BitVec 10
  otp : Otp
deriving DecidableEq, Repr

/-- Levels of the lands that the model follows one by one. `modid` is what the lands MODID[9:0] are strapped to (R16). -/
structure Pins where
  modid : BitVec 10
  perstN : Bool
  resetN : Bool
  hibWake : Bool
  hibReqN : Bool
  faultN : Bool
  pcieWakeN : Bool
deriving DecidableEq, Repr

/-- Start-up (GLOBAL_BOOT, GLOBAL_BOOT_CTRL; R332 to R346). `session` is the Ethernet boot session's source and its last
request (R341), `kept` and `keptFor` the answers of the latest session and its source. `goLen` is the length at GO and `image` is (length, ROLLBACK, KEY_INDEX, COMMIT_ROLLBACK,
REVOKE_BELOW) of the image running or kept (R338). `sensorWait` says that the start waits for the sensors (R519). `startCalDone` says
that the start calibrations have been asked for (R345). -/
structure Boot where
  phase : BitVec 4
  path : Bool
  eth25g : Bool
  ethLock : Bool
  error : BitVec 8
  attempts : BitVec 8
  fwVersion : BitVec 32
  received : BitVec 26
  startMs : BitVec 32
  ctrlLen : BitVec 26
  trainTries : Nat
  trained : Bool
  session : Option (Nat × Ns)
  kept : List KeptAnswer
  keptFor : Option Nat
  goLen : Nat
  image : Option (Nat × Nat × Nat × Bool × Bool)
  sensorWait : Bool
  porAt : Ns
  coresAt : Ns
  alive : Bool
  aliveAt : Ns
  profileAt : Ns
  partnersDone : Bool
  startCalDone : Bool
  readyLocal : Bool
  readySynced : Bool
deriving DecidableEq, Repr

/-- One member of the machine as its frames show it (R348 to R352). -/
structure Member where
  last : Option Ns
  lost : Bool
  state : Nat
  prio : Nat
  moduleId : Nat
  serial : Nat
  leaderId : Nat
  term : Nat
  jobState : Nat
  jobId : Nat
  ack : Nat
  repCause : Nat
  repFlags : Nat
  repMode : Nat
  repLayer : Nat
deriving DecidableEq, Repr

/-- One entry of a STAGE_PLAN (R348): stage, layer and start in ns after TOR. -/
structure PlanEntry where
  stage : Nat
  layer : Nat
  start : Nat
deriving DecidableEq, Repr

/-- Membership (GLOBAL_MACHINE; R348 to R352). `keySince` is since when the own key has been the lowest (R350), `plan`
what the leader sends until every member has acknowledged it, `plans` the entries a member has received. `peerHold` says that the
machine holds (R79), `lossHold` that it holds after the stages that are planned (R351). -/
structure Members where
  list : List Member
  elected : Bool
  leaderMember : BitVec 3
  leaderId : BitVec 10
  term : Nat
  topTerm : Nat
  conflict : BitVec 8
  idConflict : Bool
  memberConflict : Bool
  foreign : BitVec 16
  keySince : Option Ns
  readSince : Ns
  planSeq : Nat
  plan : List PlanEntry
  ackSeq : Nat
  plans : List PlanEntry
  peerHold : Bool
  lossHold : Bool
deriving DecidableEq, Repr

def Otp.reset : Otp :=
  { serial := 0, mac := 0, rollback := 0, keysRevoked := 0, builderKeyHash := none, ownerClearKey := none }

def Ident.reset : Ident := { variant := .mfc128, dieStep := 0, moduleId := 0, otp := .reset }

def Pins.reset : Pins :=
  { modid := 0, perstN := true, resetN := true, hibWake := false, hibReqN := true, faultN := false, pcieWakeN := true }

def Boot.reset : Boot :=
  { phase := 0, path := false, eth25g := false, ethLock := false, error := 0, attempts := 0, fwVersion := 0,
    received := 0, startMs := 0, ctrlLen := 0, trainTries := 0, trained := false, session := none, kept := [], keptFor := none,
    goLen := 0, image := none, sensorWait := false, porAt := 0, coresAt := 0, alive := false, aliveAt := 0, profileAt := 0,
    partnersDone := false, startCalDone := false, readyLocal := false, readySynced := false }

def Member.reset : Member :=
  { last := none, lost := false, state := 0, prio := 0, moduleId := 0, serial := 0, leaderId := 0xFFFF, term := 0,
    jobState := 0, jobId := 0, ack := 0, repCause := 0, repFlags := 0, repMode := 0, repLayer := 0 }

def Members.reset : Members :=
  { list := List.replicate 8 .reset, elected := false, leaderMember := 0, leaderId := 0, term := 0, topTerm := 0,
    conflict := 0, idConflict := false, memberConflict := false, foreign := 0, keySince := none, readSince := 0,
    planSeq := 0, plan := [], ackSeq := 0, plans := [], peerHold := false, lossHold := false }

end Sys2Proof.Machine
end

