-- ==== Sys2Proof/Machine/Parts/Profile.lean ====
section
/-! DEFINITION. State of the Machine Profile (chapter "The Machine Profile"): the records in force (R366 to R379) and
the profile memory with its registers. -/

namespace Sys2Proof.Machine

/-- MACHINE (R367). -/
structure MachineRec where
  machineId : BitVec 32
  member : Nat
  members : BitVec 8
  leaderPrio : Nat
  memberWaitS : Nat
  partnerWaitS : Nat
deriving DecidableEq, Repr

/-- SYSTEM (R367): host-loss timeout in ms, snapshot period in µs, maximum calibration deferral in s. -/
structure SystemRec where
  hostLossMs : Nat
  snapPeriodUs : Nat
  calDeferS : Nat
deriving DecidableEq, Repr

/-- PLAN (R367): T_LEAD in ns, H_GUARD in µs, BLEND_MIN in ms, MAP_SLEW in head units per ms, stage durations in ms. -/
structure PlanRec where
  tLead : Nat
  hGuardUs : Nat
  blendMinMs : Nat
  mapSlew : Nat
  postImageMs : Nat
  recoatMs : Nat
  settleMs : Nat
  bedImageMs : Nat
  armMs : Nat
deriving DecidableEq, Repr

/-- LANE (R368). -/
structure LaneRec where
  mapped : Bool
  port : Nat
  hop : Nat
  beam : Nat
  fieldCx : Int
  fieldCy : Int
  fieldHalf : Nat
  focusScale : Int
  wPerLsb : Nat
  pdGainA : Nat
  pdGainB : Nat
  absorb : Nat
  tSp : Nat
  priority : Nat
  sepGroup : Nat
  feTime : Nat
  trackDelay : Nat
  feLimitMark : Nat
  feLimitJump : Nat
  gridSets : Nat
deriving DecidableEq, Repr

/-- A correction grid (R127, R370): N points per side, PITCH, the head temperature TEMP of the set and the N² points
in the order jj × N + i. -/
structure GridSet where
  n : Nat
  pitch : Nat
  temp : Int
  points : List (Int × Int × Int)
deriving DecidableEq, Repr

/-- NODE (R369). -/
structure NodeRec where
  cls : Nat
  beams : Nat
  matchSerial : Bool
  vendor : Nat
  product : Nat
  serial : Nat
  srcCount : Nat
  srcBeams : List Nat
deriving DecidableEq, Repr

/-- A loop reference curve (R145, R371): breakpoints (T, REF, FF). -/
structure Curve where
  sigMode : Nat
  wA : Nat
  wB : Nat
  pts : List (Nat × Nat × Nat)
  kp : Int
  ki : Int
  blankUs : Nat
  anomBand : Nat
  anomSamples : Nat
  spike : Nat
  satSamples : Nat
deriving DecidableEq, Repr

/-- LOOP (R372). -/
structure LoopRec where
  ffPeriodUs : Nat
  ffAheadUs : Nat
  staleLimitUs : Nat
  rawPre : Nat
  kern : List Nat
deriving DecidableEq, Repr

/-- MERE (R373). -/
structure MereRec where
  nx : Nat
  ny : Nat
  cell : Nat
  x0 : Int
  y0 : Int
  tU : Nat
  d : Nat
  r : Nat
  kDep : Nat
  tPlate : Nat
  tPowder : Nat
  layerBlend : Nat
  assimWeight : Nat
  assimMode : Nat
  assimCamera : Nat
  viewPeriodMs : Nat
deriving DecidableEq, Repr

/-- PROX (R374). -/
structure ProxRec where
  tAge : Nat
  tDead : Nat
  holdWarn : Nat
  peerVmax : Nat
  sepFloor : Nat
  lMax : Nat
  silentPeriods : Nat
  peerPcp : Nat
  peerVid : Nat
  peerEtype : Nat
  peerDa : Nat
deriving DecidableEq, Repr

/-- A rectangle of the build plane, corners included (R375, R376). -/
structure Rect where
  x0 : Int
  y0 : Int
  x1 : Int
  y1 : Int
deriving DecidableEq, Repr

/-- A plume rule (R375); `dirX`, `dirY` as held in the record (sQ1.14). -/
structure PlumeRec where
  region : Rect
  dirX : Int
  dirY : Int
  len : Nat
  half : Nat
deriving DecidableEq, Repr

/-- A zone (R375). -/
structure ZoneRec where
  members : BitVec 8
  enable : Bool
  holdoff : Nat
  verts : List (Int × Int)
deriving DecidableEq, Repr

/-- TIME (R218, R377). -/
structure TimeRec where
  source : Nat
  slaveOnly : Bool
  domain : Nat
  priority1 : Nat
  priority2 : Nat
  clockClass : Nat
  transport : Nat
  p2p : Bool
  twoStep : Bool
  logSync : Int
  logAnnounce : Int
  announceTimeout : Nat
  logDelayReq : Int
  logPdelay : Int
  syncLossN : Nat
  ptpPcp : Nat
  ptpVid : Nat
  tsErr : Nat
  ppsMode : Nat
  portTxLat : List Nat
  portRxLat : List Nat
  stepLimit : Nat
  slewMax : Nat
  holdBound : Nat
  hoFreqErr : Nat
  hoAging : Nat
  ppsErr : Nat
  ppsWidth : Nat
deriving DecidableEq, Repr

/-- NETWORK (R378). -/
structure NetworkRec where
  speed : List Nat
  ipv4 : Nat
  ipv4Mask : Nat
  ipv4Gw : Nat
  ipv6 : Nat
  mgmtPcp : Nat
  mgmtVid : Nat
  allow : List Nat
deriving DecidableEq, Repr

/-- One entry of a BLOCK_CFG record (R379), with the record's INSTANCE. -/
structure BlockCfg where
  inst : Nat
  offset : Nat
  mask : Nat
  value : Nat
deriving DecidableEq, Repr

/-- The records of a profile (R366). Lanes, curves, plume rules, zones and reach lists are by index; grids by
8 × lane + set and nodes by 16 × port + hop − 1. -/
structure Profile where
  machine : MachineRec
  system : SystemRec
  network : Option NetworkRec
  time : TimeRec
  lanes : List LaneRec
  grids : List (Nat × GridSet)
  nodes : List (Nat × NodeRec)
  curves : List (Option Curve)
  loop : LoopRec
  mere : MereRec
  prox : ProxRec
  sep : List Nat
  plumes : List (Option PlumeRec)
  zones : List (Option ZoneRec)
  reach : List (List Rect)
  plan : PlanRec
  blockCfg : List BlockCfg
deriving DecidableEq, Repr

def MachineRec.default : MachineRec :=
  { machineId := 0, member := 0, members := 1, leaderPrio := 128, memberWaitS := 10, partnerWaitS := 10 }

def SystemRec.default : SystemRec := { hostLossMs := 10000, snapPeriodUs := 1000, calDeferS := 600 }

/-- PLAN has no defaults (R367): the record is required, and these zeros stand only while no profile is in force. -/
def PlanRec.none : PlanRec :=
  { tLead := 0, hGuardUs := 0, blendMinMs := 0, mapSlew := 0, postImageMs := 0, recoatMs := 0, settleMs := 0,
    bedImageMs := 0, armMs := 0 }

/-- A lane that is not in the lane map (R368). -/
def LaneRec.unmapped : LaneRec :=
  { mapped := false, port := 0, hop := 0, beam := 0, fieldCx := 0, fieldCy := 0, fieldHalf := 0, focusScale := 0,
    wPerLsb := 0, pdGainA := 0, pdGainB := 0, absorb := 0, tSp := 0, priority := 0, sepGroup := 0, feTime := 0,
    trackDelay := 0, feLimitMark := 0, feLimitJump := 0, gridSets := 0 }

def LoopRec.default : LoopRec :=
  { ffPeriodUs := 10, ffAheadUs := 10, staleLimitUs := 2000, rawPre := 254,
    kern := [4096, 4096, 4096, 4096, 32768, 4096, 4096, 4096, 4096] }

/-- MERE is required (R366): these zeros stand only while no profile is in force. -/
def MereRec.none : MereRec :=
  { nx := 0, ny := 0, cell := 0, x0 := 0, y0 := 0, tU := 0, d := 0, r := 0, kDep := 0, tPlate := 0, tPowder := 0,
    layerBlend := 0, assimWeight := 0, assimMode := 0, assimCamera := 255, viewPeriodMs := 0 }

/-- R192's defaults. -/
def ProxRec.default : ProxRec :=
  { tAge := 500, tDead := 2000, holdWarn := 100, peerVmax := 0, sepFloor := 0, lMax := 10, silentPeriods := 3,
    peerPcp := 6, peerVid := 0, peerEtype := 0x88B5, peerDa := 0 }

/-- R218's defaults. -/
def TimeRec.default : TimeRec :=
  { source := 0, slaveOnly := true, domain := 0, priority1 := 128, priority2 := 128, clockClass := 248, transport := 0,
    p2p := false, twoStep := false, logSync := -4, logAnnounce := 0, announceTimeout := 3, logDelayReq := -4,
    logPdelay := 0, syncLossN := 3, ptpPcp := 7, ptpVid := 0, tsErr := 2, ppsMode := 1, portTxLat := [0, 0, 0, 0],
    portRxLat := [0, 0, 0, 0], stepLimit := 1000, slewMax := 100, holdBound := 20, hoFreqErr := 10, hoAging := 10,
    ppsErr := 10, ppsWidth := 100000 }

/-- R192: 4 mm for every pair. -/
def Profile.sepDefault : List Nat := List.replicate 256 400000

/-- What every record gives when it is absent (R366). -/
def Profile.none : Profile :=
  { machine := .default, system := .default, network := Option.none, time := .default,
    lanes := List.replicate 128 .unmapped, grids := [], nodes := [], curves := List.replicate 32 Option.none,
    loop := .default, mere := .none, prox := .default, sep := Profile.sepDefault,
    plumes := List.replicate 4 Option.none, zones := List.replicate 256 Option.none, reach := List.replicate 8 [],
    plan := .none, blockCfg := [] }

/-- GLOBAL_PROF_STAT, GLOBAL_PROF_CTRL, the profile memory and the profile in force. `memA` and `memB` are the bytes
programmed from the start of copy A and copy B; every other byte of the memory reads 0xFF (erased). `memBytes` is the
size of the device, 0 for a device that does not answer (R356, R357). `writing` is the WRITE in progress: its target
copy and the image taken. -/
structure ProfileBlk where
  inForce : BitVec 2
  startPending : Bool
  busy : Bool
  signed : Bool
  causeA : BitVec 4
  causeB : BitVec 4
  lastStatus : BitVec 8
  lastCmd : BitVec 8
  generation : BitVec 32
  badOffset : BitVec 32
  badType : BitVec 16
  badInstance : BitVec 16
  memMib : BitVec 9
  progress : BitVec 8
  ctrlAddr : BitVec 64
  ctrlLen : BitVec 28
  memBytes : Nat
  memA : List Byte
  memB : List Byte
  writing : Option (Nat × List Byte)
  records : Profile
deriving DecidableEq, Repr

def ProfileBlk.reset : ProfileBlk :=
  { inForce := 0, startPending := false, busy := false, signed := false, causeA := 0, causeB := 0, lastStatus := 0,
    lastCmd := 0, generation := 0, badOffset := 0, badType := 0, badInstance := 0, memMib := 0, progress := 0,
    ctrlAddr := 0, ctrlLen := 0, memBytes := 16777216, memA := [], memB := [], writing := none, records := .none }

end Sys2Proof.Machine
end

