-- ==== Sys2Proof/Machine/Parts/Prox.lean ====
section
/-! DEFINITION. State of the proximity arbiter and the peer exchange (chapter "Overlapping fields and beam
proximity"). -/

namespace Sys2Proof.Machine

/-- A lane entry of a peer summary (R201); times in µs after X. -/
structure PeerLane where
  lane : Nat
  box : Bool
  tentative : Bool
  sepGroup : Nat
  prio : Nat
  radius : Nat
  x0 : Int
  y0 : Int
  x1 : Int
  y1 : Int
  t0 : Nat
  t1 : Nat
deriving DecidableEq, Repr

/-- A zone entry of a peer summary (R201). -/
structure PeerZone where
  zone : Nat
  lane : Nat
  tentative : Bool
  prio : Nat
  first : Nat
  last : Nat
deriving DecidableEq, Repr

/-- A peer's summary, its frames put together (R201). -/
structure Summary where
  member : Nat
  moduleId : Nat
  locked : Bool
  x : Ns
  crc : Nat
  seq : Nat
  lanes : List PeerLane
  zones : List PeerZone
deriving DecidableEq, Repr

/-- A peer member (PROX_PEER, R203 to R207). `inbox` holds summaries that came since the last guard tick (R194), `last`
the latest one taken in, `dueAt` its due time, `onTime` the last on-time ones for R204, `lats` the latencies of the last 64. -/
structure Peer where
  present : Bool
  silent : Bool
  mismatch : Bool
  last : Option Summary
  dueAt : Ns
  inbox : List (Ns × Summary)
  onTime : List Summary
  lats : List Nat
  ageUs : BitVec 16
  late : BitVec 32
  lateEpisode : Bool
deriving DecidableEq, Repr

/-- PROX_STAT, PROX_RULES and PROX_COUNT, the rules in force with their overrides (R192, R210), and the cycles that the
arbiter watches (R197): lanes of the cycle and since when it has been there. -/
structure Prox where
  run : Bool
  unsafeNow : Bool
  rulesCrc : BitVec 32
  goVerdicts : BitVec 32
  holdVerdicts : BitVec 32
  deadlockBreaks : BitVec 16
  confirmLost : BitVec 16
  confirmLate : BitVec 16
  reqDeferred : BitVec 16
  summaryLate : BitVec 16
  silentEpisodes : BitVec 16
  overloadAt : Option Ns
  sep : List Nat
  plumes : List (Option PlumeRec)
  zones : List (Option ZoneRec)
  peers : List Peer
  seq : BitVec 32
  edges : List (Nat × Nat)
  /-- the wait-for cycles, each as its lanes in order from the lowest, and since when it has been there (R197) -/
  cycles : List (List Nat × Ns)
  /-- the latest guard tick that has been judged -/
  judgedAt : Option Ns
  /-- the EFF_PRIO of each lane in the summaries sent, by exchange time (R204) -/
  sentPrio : List (Ns × List (Nat × Nat))
deriving DecidableEq, Repr

def Peer.reset : Peer :=
  { present := false, silent := false, mismatch := false, last := none, dueAt := 0, inbox := [], onTime := [], lats := [],
    ageUs := 0, late := 0, lateEpisode := false }

def Prox.reset : Prox :=
  { run := false, unsafeNow := false, rulesCrc := 0, goVerdicts := 0, holdVerdicts := 0, deadlockBreaks := 0,
    confirmLost := 0, confirmLate := 0, reqDeferred := 0, summaryLate := 0, silentEpisodes := 0, overloadAt := none,
    sep := Profile.sepDefault, plumes := List.replicate 4 none, zones := List.replicate 256 none,
    peers := List.replicate 8 .reset, seq := 0, edges := [], cycles := [], judgedAt := none, sentPrio := [] }

end Sys2Proof.Machine
end

