-- ==== Sys2Proof/Syntax.lean ====
section
/-! DEFINITION. The commands of the module: one constructor for each row of the table of operations and events, with
what the row brings. A row of the rings carries its descriptor's header `h`; a row that time or a partner brings carries
the PTP time `t` at which it happens. -/

namespace Sys2Proof

open Machine

/-- One command, one constructor for each row of spec/opcode_table.json. -/
inductive Instr where
  /-- NOP (R294): General opcode that does nothing and completes with DONE. -/
  | nop (h : Hdr)
  /-- FENCE (R307): Waits for the preceding and scoped descriptors and their events, then completes, optionally holding its ring. -/
  | fence (h : Hdr) (scope : BitVec 64) (holdRing : Bool)
  /-- SNAPSHOT_NOW (R312): Asks Still for a demand latch, or joins a latch already scheduled. -/
  | snapshotNow (h : Hdr)
  /-- CFG_STAGE (R317): Checks a list of stageable descriptors and appends it to a staging set. -/
  | cfgStage (h : Hdr) (set count list : Nat)
  /-- CFG_COMMIT (R318): Posts one Ripple CFG_COMMIT action that applies the named staging sets at a launch tick. -/
  | cfgCommit (h : Hdr) (sets : BitVec 8) (refTor : Bool) (launch : Nat)
  /-- HEARTBEAT (R322): Restarts the host-loss timer and completes with DONE. -/
  | heartbeat (h : Hdr)
  /-- CFG_ABORT (R294): Empties the named staging sets unless a set is in a pending commit. -/
  | cfgAbort (h : Hdr) (sets : BitVec 8)
  /-- SNAPSHOT_CFG (R311): Sets the snapshot region base and/or overrides the snapshot period. -/
  | snapshotCfg (h : Hdr) (setBase setPeriod : Bool) (base period : Nat)
  /-- EVENT_RING (R309): Sets the event ring and resets its head and tail to 0. -/
  | eventRing (h : Hdr) (base size : Nat)
  /-- EVENT_ROUTE (R310): Adds or removes a route of an event-code range to a vector from 41 to 63. -/
  | eventRoute (h : Hdr) (lo hi : BitVec 16) (vec : Nat)
  /-- JOB_START (R38): Accepts a job header, fixes TOR when the job can start and enters WAIT_START. -/
  | jobStart (h : Hdr) (addr : Nat)
  /-- JOB_END (R67): Ends the job after the current layer (AFTER_LAYER) or at once with beams off (NOW). -/
  | jobEnd (h : Hdr) (mode : Nat)
  /-- LAYER_QUEUE (R35): Checks a layer descriptor, gives it an index and parks it for validation and exposure. -/
  | layerQueue (h : Hdr) (addr : Nat)
  /-- LAYER_CANCEL (R36): Removes every queued layer from FROM_INDEX upward, or refuses the whole request. -/
  | layerCancel (h : Hdr) (fromIndex : Nat)
  /-- JOB_HOLD (R73): Asks the job to enter HELD at the next boundary. -/
  | jobHold (h : Hdr)
  /-- JOB_RESUME (R74): Leaves HELD in the given resume mode if that mode suits the hold cause. -/
  | jobResume (h : Hdr) (mode : Nat)
  /-- LANE_REENABLE (R76): Removes lanes from the excluded set so that they rejoin later. -/
  | laneReenable (h : Hdr) (mask : BitVec 128)
  /-- MARK_QUEUE (R86): Checks a line-mode mark stream for a lane and assigns it to a product. -/
  | markQueue (h : Hdr) (lane product addr result count : Nat)
  /-- LANE_LIMITS (R111): Host override of lane limits, applied at once or latched while in a deceleration ramp. -/
  | laneLimits (h : Hdr) (mask : BitVec 128) (mark jump clear : Bool) (accel jerk speed : Nat)
  /-- LANE_TRIMS (R139): Sets new field-mapping trims that come into force by a blend. -/
  | laneTrims (h : Hdr) (mask : BitVec 128) (ofsX ofsY gainX gainY rot : Int)
  /-- LANE_GRID_LOAD (R139): Loads a correction-grid set for a lane from a GRID record image. -/
  | laneGridLoad (h : Hdr) (lane set addr : Nat)
  /-- MERE_SAVE_CFG (R178): Configures the Mere save slots. -/
  | mereSaveCfg (h : Hdr) (base size count : Nat)
  /-- MERE_SAVE_NOW (R178): Saves the current Mere field to the next save slot. -/
  | mereSaveNow (h : Hdr) (tag : Nat)
  /-- MERE_FIELD_SET (R602): Reads a uniform or loaded field and makes it the front buffer at the next grid point. -/
  | mereFieldSet (h : Hdr) (mode value addr : Nat)
  /-- MERE_COEFF (R178): Overrides or clears Mere coefficients from the next step on. -/
  | mereCoeff (h : Hdr) (mask d r kDep assimWeight layerBlend : Nat)
  /-- LOOP_CURVE_LOAD (R179): Loads a loop reference curve from a CURVE record image. -/
  | loopCurveLoad (h : Hdr) (curve addr : Nat)
  /-- PROX_SEP_SET (R210): Overrides the separation between two SEP groups at a launch tick. -/
  | proxSepSet (h : Hdr) (a b dist launch : Nat)
  /-- PROX_ZONE_CTRL (R210): Overrides the enable mask of a group of 32 zones at a launch tick. -/
  | proxZoneCtrl (h : Hdr) (group : Nat) (mask : BitVec 32) (launch : Nat)
  /-- PROX_PLUME_SET (R210): Overrides one plume rule at a launch tick. -/
  | proxPlumeSet (h : Hdr) (rule : Nat) (dirX dirY : Int) (len half launch : Nat)
  /-- TRIG_OUT_SET (R231): Posts a trigger-output schedule that replaces the old one at its first edge. -/
  | trigOutSet (h : Hdr) (out : Nat) (refPtp activeLow toggle : Bool) (fine period start width count : Nat)
  /-- TRIG_OUT_STOP (R232): Lets pulses in progress end and leaves the named outputs idle. -/
  | trigOutStop (h : Hdr) (mask : BitVec 16) (time : Nat)
  /-- TRIG_IN_CFG (R233): Sets edge, filter and encoder latch of a trigger input or PPS_IN. -/
  | trigInCfg (h : Hdr) (input edge filter enc : Nat)
  /-- TRIG_IN_RING (R234): Sets the host capture ring for trigger-input records. -/
  | trigInRing (h : Hdr) (base size : Nat)
  /-- TIME_SET (R226): Steps the TIME counter at the next lane tick, with PPS_IN or LOCAL and no job. -/
  | timeSet (h : Hdr) (frac ns sec : Nat)
  /-- PPS_OUT_CFG (R245): Overrides PPS_MODE and PPS_WIDTH from the next whole second. -/
  | ppsOutCfg (h : Hdr) (mode width : Nat)
  /-- AXIS_MOVE (R391): Plans a jerk-limited move to a target, started at LAUNCH or queued as the pending move. -/
  | axisMove (h : Hdr) (axis : Nat) (relative refPtp : Bool) (target : Int) (speed accel jerk launch : Nat)
  /-- AXIS_LIMITS (R393): Overrides axis limits, applied at once or latched during deceleration. -/
  | axisLimits (h : Hdr) (mask : BitVec 16) (clear : Bool) (speed accel jerk : Nat)
  /-- AXIS_STOP (R396): Brings the named axes to standstill, with emergency limits if asked. -/
  | axisStop (h : Hdr) (mask : BitVec 16) (emergency : Bool)
  /-- AXIS_ENABLE (R398): Sets the AXEN outputs of axes at standstill. -/
  | axisEnable (h : Hdr) (mask values : BitVec 16)
  /-- AXIS_HOME (R399): Runs an axis to a home edge and sets its position. -/
  | axisHome (h : Hdr) (axis : Nat) (down : Bool) (source chan speed : Nat) (pos : Int) (limit : Nat)
  /-- AXIS_SET_POS (R416): Sets the position counter of an idle or disabled axis. -/
  | axisSetPos (h : Hdr) (axis : Nat) (pos : Int)
  /-- ENC_PRESET (R416): Sets the extended count and position of encoder channels. -/
  | encPreset (h : Hdr) (mask : BitVec 16) (ext : Int)
  /-- CMP_SET (R412): Configures a compare unit with its value, pitch, direction and width. -/
  | cmpSet (h : Hdr) (cmp : Nat) (enable reverse : Bool) (enc pitch : Nat) (c : Int) (width : Nat)
  /-- ECHO_SET (R414): Configures an echo output with its channel and N/M ratio. -/
  | echoSet (h : Hdr) (out : Nat) (enable : Bool) (enc n m : Nat)
  /-- FAULT_CLEAR (R407): Clears latched axis, encoder and Hall faults whose conditions no longer hold. -/
  | faultClear (h : Hdr) (axisMask encMask : BitVec 16) (hallMask : BitVec 8)
  /-- CAM_STREAM (R454): Starts or stops capture on a camera port. -/
  | camStream (h : Hdr) (port : Nat) (run : Bool)
  /-- CAM_EXP_WRITE (R429): Fills the back exposure set of a camera port. -/
  | camExpWrite (h : Hdr) (port len start mode count addr : Nat)
  /-- CAM_EXP_COMMIT (R430): Copies the back set to a pending set with the next generation at its tick. -/
  | camExpCommit (h : Hdr) (port launch : Nat)
  /-- CAM_TRIGGER (R427): Fires XTRIG on host-mode camera ports at LAUNCH. -/
  | camTrigger (h : Hdr) (mask launch : Nat)
  /-- CAM_CCI (R422): Reads or writes one sensor register over the CCI master. -/
  | camCci (h : Hdr) (port : Nat) (write wide : Bool) (reg value : Nat)
  /-- CAM_RING (R441): Sets the frame ring of a camera port. -/
  | camRing (h : Hdr) (port base size slots : Nat)
  /-- LED_SET (R444): Sets I_SET and DUTY of LED channels from the first period start after LAUNCH. -/
  | ledSet (h : Hdr) (mask iSet duty launch : Nat)
  /-- LED_MATRIX_WRITE (R450): Queues a matrix frame that comes into force at a sync. -/
  | ledMatrixWrite (h : Hdr) (addr : Nat)
  /-- LED_FAULT_CLEAR (R446): Clears latched LED channel and segment faults. -/
  | ledFaultClear (h : Hdr) (mask : Nat) (segments : Bool)
  /-- COLOR_TARGET (R448): Sets the colour-feedback target of an LED channel. -/
  | colorTarget (h : Hdr) (channel target : Nat)
  /-- ZIP_ENCODE (R467): Codes a host buffer into an EPB stream on a compression channel. -/
  | zipEncode (h : Hdr) (channel kind format flags width addr len out size : Nat)
  /-- ZIP_OPEN (R468): Opens a streaming compression job on a channel. -/
  | zipOpen (h : Hdr) (channel kind format flags width out size : Nat)
  /-- ZIP_FEED (R468): Feeds input to an open job, optionally flushing or ending it. -/
  | zipFeed (h : Hdr) (channel flags addr len : Nat)
  /-- ZIP_FLUSH (R468): Closes the current block of an open job early. -/
  | zipFlush (h : Hdr) (channel : Nat)
  /-- ZIP_DECODE (R469): Decodes an EPB stream into a buffer under OUT_LIMIT. -/
  | zipDecode (h : Hdr) (channel flags addr len out limit : Nat)
  /-- COMPOSE_SCENE (R471): Loads a compositor scene record. -/
  | composeScene (h : Hdr) (scene addr : Nat)
  /-- COMPOSE_RUN (R476): Runs one composition of a ONCE scene at LAUNCH. -/
  | composeRun (h : Hdr) (scene launch : Nat)
  /-- COMPOSE_STOP (R484): Stops a scene once its composition in progress ends. -/
  | composeStop (h : Hdr) (scene : Nat)
  /-- COMPOSE_LAYER (R475): Changes one layer of a scene, rebuilding the static cache for a static layer. -/
  | composeLayer (h : Hdr) (scene layer visible alpha : Nat) (dstX dstY : Int) (addr : Nat)
  /-- DISPLAY_SET (R482): Binds a scene, or none, to eDP from the next frame start. -/
  | displaySet (h : Hdr) (scene : Nat)
  /-- BASIN_COPY (R508): Copies a Basin region on a copy channel. -/
  | basinCopy (h : Hdr) (chan src dst len : Nat)
  /-- BASIN_FILL (R508): Fills a Basin region with a pattern on a copy channel. -/
  | basinFill (h : Hdr) (chan pattern dst len : Nat)
  /-- BASIN_RETAIN (R503): Sets the segment mask kept in STANDBY. -/
  | basinRetain (h : Hdr) (mask : BitVec 8)
  /-- CAL_REQUEST (R531): Requests a calibration kind for units, run at once or deferred to a gap. -/
  | calRequest (h : Hdr) (kind : Nat) (immediate : Bool) (mask : BitVec 128)
  /-- CAL_CANCEL (R534): Removes waiting calibration requests. -/
  | calCancel (h : Hdr) (kind : Nat) (mask : BitVec 128)
  /-- HK_THROTTLE_FLOOR (R514): Sets the host throttle floor. -/
  | hkThrottleFloor (h : Hdr) (level : Nat)
  /-- REC_RECORD_NOW (R551): Makes the recorder write a DEMAND record. -/
  | recRecordNow (h : Hdr)
  /-- REC_CHALLENGE (R548): Draws a clear nonce valid for 60 s. -/
  | recChallenge (h : Hdr)
  /-- REC_CLEAR (R549): Checks the token and clears the recorder histograms, logging the clear. -/
  | recClear (h : Hdr) (token : List Byte)
  /-- REC_PROVISION (R547): Writes the owner clear key and builder key hash to OTP once. -/
  | recProvision (h : Hdr) (addr : Nat)
  /-- SPL_IO_WRITE (R278): Sends an IO_WRITE service request to a node. -/
  | splIoWrite (h : Hdr) (node : Nat) (entries : List (Nat × Nat)) (applyAt : Nat)
  /-- SPL_IO_READ (R278): Sends an IO_READ service request and stores the values. -/
  | splIoRead (h : Hdr) (node first count addr : Nat)
  /-- SPL_OBJ_READ (R278): Reads a node object over the service protocol. -/
  | splObjRead (h : Hdr) (node index offset count addr : Nat)
  /-- SPL_OBJ_WRITE (R278): Writes a node object over the service protocol. -/
  | splObjWrite (h : Hdr) (node index offset count addr : Nat)
  /-- SPL_RESCAN (R278): Enumerates the chains of the named ports again while no job exists. -/
  | splRescan (h : Hdr) (mask : Nat)
  /-- SPL_NODE_RESET (R278): Resets a node and completes when it is addressed again. -/
  | splNodeReset (h : Hdr) (node : Nat)
  /-- SPL_IO_RING (R279): Sets the ring for IO_EVENT records. -/
  | splIoRing (h : Hdr) (base size : Nat)
  /-- BOOT_GO (R337): CMD GO in GLOBAL_BOOT_CTRL starts the image checks in WAIT_IMAGE. -/
  | bootGo
  /-- BOOT_CLEAR (R339): CMD CLEAR sets RECEIVED to 0. -/
  | bootClear
  /-- PROFILE_WRITE (R382): CMD WRITE checks a profile image in Basin and erases and programs the copy not in force. -/
  | profileWrite
  /-- PROFILE_WRITE_DONE (R382): Read-back check of the programmed copy completes the WRITE. -/
  | profileWriteDone (t : Ns) (result : Nat)
  /-- PROFILE_RELOAD (R383): CMD RELOAD selects the newest valid copy and applies its RELOAD-class records. -/
  | profileReload
  /-- MODULE_RESET_CMD (R567): CMD MODULE runs a MODULE reset. -/
  | moduleResetCmd (key : BitVec 16)
  /-- FIRMWARE_RESET_CMD (R330): CMD FIRMWARE restarts the cores from the kept image after a digest check. -/
  | firmwareResetCmd (key : BitVec 16)
  /-- BLOCK_RESET_CMD (R568): CMD BLOCK resets the unit named by BLK_KIND and BLK_INDEX. -/
  | blockResetCmd (key : BitVec 16)
  /-- STANDBY_CMD (R575): CMD STANDBY runs the STANDBY entry. -/
  | standbyCmd (key : BitVec 16)
  /-- HIBERNATE_CMD (R575): CMD HIBERNATE runs the HIBERNATE entry. -/
  | hibernateCmd (key : BitVec 16)
  /-- DOORBELL (R300): A write to TAIL offers new descriptors of a command ring for fetch and restarts the host-loss timer. -/
  | doorbell (ring tail : Nat)
  /-- CMD_RING_ENABLE (R298): Setting or clearing ENABLE of a command ring resets its indices or stops fetch. -/
  | cmdRingEnable (ring : Nat) (value : Word)
  /-- CQ_ENABLE (R298): Setting or clearing ENABLE of a completion ring, checked against host memory and bound rings. -/
  | cqEnable (cq : Nat) (value : Word)
  /-- CQ_HEAD_WRITE (R303): The host frees completion records by writing HEAD. -/
  | cqHeadWrite (cq : Nat) (value : Word)
  /-- EVENT_HEAD_WRITE (R309): The host frees event records by writing EVENT_HEAD. -/
  | eventHeadWrite (value : Word)
  /-- NOTIFY_CLEAR (R289): W1C write to NOTIFY_LO or NOTIFY_HI clears notification bits. -/
  | notifyClear (hi : Bool) (value : Word)
  /-- REC_CURSOR_WRITE (R546): A write to GLOBAL_REC_CURSOR loads the named record window. -/
  | recCursorWrite (value : Word)
  /-- REC_WINDOW_READ (R546): A read of the window's last word with AUTO_INC advances the cursor. -/
  | recWindowRead (word : Nat)
  /-- READ_CLEAR (R10): A read of an RC field returns its value and clears it. -/
  | readClear (off len : Nat)
  /-- SPLIT_READ_LATCH (R213): A read of a low or NS word latches the upper words of a wide value. -/
  | splitReadLatch (off len : Nat)
  /-- REGISTER_WRITE (R291): A write to a register without a row of its own, discarded with REJECTED_OWNER for FW groups. -/
  | registerWrite (off len value : Nat)
  /-- BAR2_ACCESS (R285): A BAR2 read or write reaches Basin through the window, byte by byte. -/
  | bar2Access (off len : Nat) (data : Option (List Byte))
  /-- REG_READ (R286): Management request reading consecutive BAR0 registers. -/
  | regRead (q : MgmtReq)
  /-- REG_WRITE (R286): Management request writing consecutive BAR0 registers. -/
  | regWrite (q : MgmtReq)
  /-- MEM_READ (R286): Management request reading Basin. -/
  | memRead (q : MgmtReq)
  /-- MEM_WRITE (R286): Management request writing Basin. -/
  | memWrite (q : MgmtReq)
  /-- ATTACH (R287): Makes the sender the attached management host, or takes over from a lost host. -/
  | attach (q : MgmtReq)
  /-- DETACH (R288): Ends the attachment of the attached host. -/
  | detach (q : MgmtReq)
  /-- NOTIFY (R289): The module sends GLOBAL_NOTIFY to the attached host, paced at 10 µs and repeated every 100 ms. -/
  | notify (t : Ns)
  /-- BOOT_HELLO (R340): Boot request answered with identity and boot state. -/
  | bootHello (q : MgmtReq)
  /-- BOOT_DATA (R341): Boot request writing image bytes into the staging area within a session. -/
  | bootData (t : Ns) (q : MgmtReq)
  /-- BOOT_GO_FRAME (R340): Boot request starting the image checks over Ethernet. -/
  | bootGoFrame (t : Ns) (q : MgmtReq)
  /-- BOOT_STATUS (R340): Boot request answered with the boot state. -/
  | bootStatus (q : MgmtReq)
  /-- BOOT_SESSION_IDLE (R341): A boot session idle for 1 s releases its source binding. -/
  | bootSessionIdle (t : Ns)
  /-- DESCRIPTOR_FETCH (R300): The module fetches a descriptor round-robin when fewer than 512 are outstanding and a completion record is free. -/
  | descriptorFetch (t : Ns)
  /-- COMPLETION_COLLECT (R305): The collector takes finished completions from context slots and writes records. -/
  | completionCollect (t : Ns)
  /-- INT_TIME_EXPIRE (R304): INT_TIME passes after the first unsignalled record and the vector fires. -/
  | intTimeExpire (t : Ns) (cq : Nat)
  /-- CQ_STALLED (R300): A ring waits more than 100 ms for completion space. -/
  | cqStalled (t : Ns) (ring : Nat)
  /-- HOST_LOST (R322): The host-loss timer expires and HOST_LOST is set. -/
  | hostLost (t : Ns)
  /-- PCIE_LINK_DOWN (R323): The PCIe link goes down and vectors are held pending. -/
  | pcieLinkDown (t : Ns)
  /-- PCIE_LINK_UP (R323): The PCIe link returns and pending vectors are sent. -/
  | pcieLinkUp (t : Ns) (speed width : Nat)
  /-- PERST_LOW (R331): PERST_N low resets only the PCIe endpoint. -/
  | perstLow (t : Ns)
  /-- PERST_RISE (R331): PERST_N rises and the link comes up, or STANDBY is left. -/
  | perstRise (t : Ns)
  /-- SNAPSHOT_PUBLISH (R316): Still writes the generation into its buffer, sets STILL_GEN and fires vector 32. -/
  | snapshotPublish (t : Ns)
  /-- RIPPLE_FIRE (R239): At a launch tick the pending Ripple actions of that tick act in kind order. -/
  | rippleFire (t : Ns)
  /-- RIPPLE_CANCEL (R238): A target has not acknowledged by launch − 200 ns and the action fires or is cancelled by kind. -/
  | rippleCancel (t : Ns) (n : Nat) (miss : UnitId)
  /-- JOB_TOR (R63): TOR is reached and the job runs its start stages or enters LINE_RUN. -/
  | jobTor (t : Ns)
  /-- STAGE_END (R63): A stage's duration ends and the sequencer starts the next stage, holds or ends the job. -/
  | stageEnd (t : Ns)
  /-- LAYER_VALIDATION_DONE (R61): Validation of a queued layer finishes, passing or completing the layer at once. -/
  | layerValidationDone (t : Ns)
  /-- ARM_CHECK (R64): At L − T_lead − 1 ms lanes not ARMED postpone L or fault with ARM_LATE. -/
  | armCheck (t : Ns)
  /-- EXPOSE_END (R25): The last lane of the layer leaves RUNNING or HOLD and the exposure ends. -/
  | exposeEnd (t : Ns)
  /-- LAYER_COMPLETION (R31): Once all records are in Basin the status block and layer completion are written. -/
  | layerCompletion (t : Ns)
  /-- BEAM_PERMIT_LOW (R71): A BEAM_PERMIT input goes low and every lane goes beam-off with KILL ALL. -/
  | beamPermitLow (t : Ns) (inputB : Bool)
  /-- PERMIT_RESTORED (R589): Both permits high for 10 ms restore LASER_EN and a new L is set. -/
  | permitRestored (t : Ns)
  /-- PERMIT_DISAGREE (R589): The two permit inputs differ for 50 ms and DISAGREE sets. -/
  | permitDisagree (t : Ns) (a b : Bool)
  /-- STAGE_PLAN_RECEIVE (R78): A member accepts a leader's STAGE_PLAN with stage start times and L. -/
  | stagePlanReceive (t : Ns) (sender seq : Nat) (entries : List PlanEntry)
  /-- STAGE_REPORT_RECEIVE (R79): The leader takes a member report and holds or postpones the machine. -/
  | stageReportReceive (t : Ns) (sender ack state cause flags mode layer : Nat)
  /-- MEMBER_ARM_CHECK (R80): At L − T_lead − 3 ms a member reports ARM_LATE for lanes not ARMED. -/
  | memberArmCheck (t : Ns)
  /-- STAGE_PLAN_RESEND (R348): The leader resends an unacknowledged plan every 1 ms. -/
  | stagePlanResend (t : Ns)
  /-- HELLO_SEND (R348): A module sends HELLO every 100 ms. -/
  | helloSend (t : Ns)
  /-- HELLO_RECEIVE (R349): A HELLO from a member marks it heard and may reveal a conflict. -/
  | helloReceive (t : Ns) (q : Hello)
  /-- MEMBER_LOST (R349): No HELLO from a member for 500 ms. -/
  | memberLost (t : Ns) (member : Nat)
  /-- LEADER_ELECTION_TIMER (R350): A module with the lowest key for 1 s sends LEADER. -/
  | leaderElectionTimer (t : Ns)
  /-- LEADER_RECEIVE (R350): A module accepts the LEADER with the lowest key. -/
  | leaderReceive (t : Ns) (q : LeaderMsg)
  /-- MARK_START (R87): The count reaches S for a lane and its mark starts or is skipped. -/
  | markStart (t : Ns) (lane : Nat)
  /-- MARK_RECORD_WRITE (R92): When every lane has written or skipped product k, its mark record is written. -/
  | markRecordWrite (t : Ns)
  /-- FETCH_BURST (R98): A lane reads a 2 KiB burst of records when its buffer has room, checking each record. -/
  | fetchBurst (t : Ns) (lane : Nat)
  /-- PLANNING_PASS (R110): A record enters the planning window and unfrozen junctions are planned again. -/
  | planningPass (t : Ns) (lane : Nat)
  /-- VERDICT_REQUEST (R116): At t_b(k) − H_GUARD the lane freezes record k and asks the arbiter. -/
  | verdictRequest (t : Ns) (lane : Nat)
  /-- VERDICT_DEADLINE (R117): No GO by the deadline makes the lane follow the stopping branch as a HOLD. -/
  | verdictDeadline (t : Ns) (lane : Nat)
  /-- LANE_END (R97): The last set-point and off edge launch and the lane goes IDLE. -/
  | laneEnd (t : Ns) (lane : Nat)
  /-- RESULT_WRITE (R102): A result record is written through the write buffer, holding the lane when full. -/
  | resultWrite (t : Ns) (lane : Nat)
  /-- SYNC_TIMEOUT (R83): A SYNC participant has not arrived SYNC_TIMEOUT after the first arrival. -/
  | syncTimeout (t : Ns) (id : Nat)
  /-- FOLLOWING_ERROR (R135): Mirror error stays beyond its limit for FE_TIME and the lane faults. -/
  | followingError (t : Ns) (lane : Nat)
  /-- BLEND_COMPLETE (R130): A correction blend reaches beta 1 and the new grid or trims come into force. -/
  | blendComplete (t : Ns) (lane : Nat)
  /-- GUARD_TICK (R194): At every 5 µs the arbiter takes in peer frames, confirms and judges open requests. -/
  | guardTick (t : Ns)
  /-- DEADLOCK_BREAK (R197): A wait-for cycle persisting T_DEAD releases its lowest-index lane. -/
  | deadlockBreak (t : Ns)
  /-- PROX_LONG_HOLD (R196): A lane held longer than HOLD_WARN raises the event. -/
  | proxLongHold (t : Ns) (lane : Nat)
  /-- PEER_SUMMARY_SEND (R201): At each 20 µs exchange time the module sends its summary frames. -/
  | peerSummarySend (t : Ns)
  /-- PEER_SUMMARY_RECEIVE (R205): A peer summary is taken in, late or on time, checked for RULES_CRC. -/
  | peerSummaryReceive (t : Ns) (m : Summary)
  /-- SYNC_REPORT_RECEIVE (R202): A peer SYNC_REPORT for a cross-module SYNC is taken in. -/
  | syncReportReceive (t : Ns) (member : Nat) (x : Ns) (entries : List SyncEntry)
  /-- PEER_SILENT (R205): No summary from a member for SILENT_PERIODS × 20 µs makes it silent. -/
  | peerSilent (t : Ns) (member : Nat)
  /-- FF_READ (R168): Every FF_PERIOD a lane reads the 3 × 3 Mere cells ahead for T_pred. -/
  | ffRead (t : Ns) (lane : Nat)
  /-- DEP_REPORT (R165): A lane sends its accumulated energy and cell to Mere. -/
  | depReport (t : Ns) (lane : Nat)
  /-- MERE_STEP (R163): At each step grid point Mere swaps buffers and computes the next field. -/
  | mereStep (t : Ns)
  /-- MERE_SAVED (R174): Coding of a saved field ends and the save slot is written. -/
  | mereSaved (t : Ns)
  /-- MERE_VIEW_COPY (R176): Every VIEW_PERIOD the front buffer is copied into a view buffer. -/
  | mereViewCopy (t : Ns)
  /-- PTP_SYNC_RECEIVE (R221): A Sync gives an offset that steers, steps or changes the time state. -/
  | ptpSyncReceive (t : Ns) (m : PtpSync)
  /-- PTP_ANNOUNCE_RECEIVE (R217): An Announce feeds the best master clock algorithm. -/
  | ptpAnnounceReceive (t : Ns) (a : Announce)
  /-- PTP_DELAY_MESSAGE (R221): A Delay_Resp or Pdelay message updates the path delay. -/
  | ptpDelayMessage (t : Ns) (m : PtpDelay)
  /-- PTP_MANAGEMENT (R217): A management GET is answered, a SET refused. -/
  | ptpManagement (t : Ns) (port : Nat) (m : PtpMgmt)
  /-- PTP_SYNC_SEND (R217): As master the clock sends Sync at its interval. -/
  | ptpSyncSend (t : Ns)
  /-- TC_FRAME_FORWARD (R220): The transparent clock adds residence time to a passing event frame. -/
  | tcFrameForward (t : Ns) (f : TcFrame)
  /-- SOURCE_LOST (R222): No Sync for SYNC_LOSS_N intervals or no PPS edge for 1.1 s enters HOLDOVER or FREE. -/
  | sourceLost (t : Ns) (announce : Bool)
  /-- TIME_QUALITY_UPDATE (R223): Every 1 ms E_T is recomputed and bound events may be raised. -/
  | timeQualityUpdate (t : Ns)
  /-- PPS_IN_EDGE (R226): A PPS_IN edge is captured and steers the clock with TIME_SOURCE PPS_IN. -/
  | ppsInEdge (t : Ns) (width : Nat)
  /-- TRIG_IN_CAPTURE (R233): A trigger-input edge is captured with its encoder count and moved to the ring. -/
  | trigInCapture (t : Ns) (input : Nat) (rising : Bool) (width : Nat)
  /-- TRIG_OUT_EDGE (R230): A scheduled trigger edge is driven at its tick plus fine delay. -/
  | trigOutEdge (t : Ns) (out : Nat)
  /-- PPS_OUT_EDGE (R235): PPS_OUT drives a pulse at each whole second. -/
  | ppsOutEdge (t : Ns)
  /-- SPL_CYCLE (R250): At each 500 ns cycle start a port sends SOC, slots, QCHKs and service units. -/
  | splCycle (t : Ns) (port start : Nat)
  /-- FB_UNIT_RECEIVE (R255): An FB unit delivers a beam's photodiode samples, mirror position and status. -/
  | fbUnitReceive (t : Ns) (port src cycle crc pdA pdB : Nat) (mirrorX mirrorY : Int) (status : Nat)
  /-- NODE_UNIT_RECEIVE (R256): A NODE unit delivers a beamless node's status and digital inputs. -/
  | nodeUnitReceive (t : Ns) (port src cycle crc status inputs : Nat)
  /-- SERVICE_FRAME_RECEIVE (R266): A reassembled service frame is checked and handled. -/
  | serviceFrameReceive (t : Ns) (port hop : Nat) (bytes : List Byte)
  /-- SERVICE_RETRY (R267): No answer 5 ms after a request resends it. -/
  | serviceRetry (t : Ns) (seq : Nat)
  /-- SERVICE_TIMEOUT (R267): No answer after 10 ms completes the request with TIMEOUT. -/
  | serviceTimeout (t : Ns) (seq : Nat)
  /-- ECHO_RECEIVE (R263): An ECHO answers a MEASURE and gives a round trip. -/
  | echoReceive (t : Ns) (port hop seq crc rtt : Nat)
  /-- DELAY_MEASURE (R265): Every 100 ms the port measures each node's path and sends DELAY_SET. -/
  | delayMeasure (t : Ns) (port : Nat)
  /-- ENUMERATION (R272): The port addresses its chain hop by hop. -/
  | enumeration (t : Ns) (port : Nat)
  /-- SPL_LINK_UP (R271): A link gains block lock and 1,024 valid blocks. -/
  | splLinkUp (t : Ns) (port : Nat)
  /-- SPL_LINK_DOWN (R275): The port loses block lock on hop 1 and the chain is lost. -/
  | splLinkDown (t : Ns) (port : Nat)
  /-- LINKDN_RECEIVE (R275): A LINKDN marks the nodes beyond the sender lost. -/
  | linkdnReceive (t : Ns) (port hop : Nat) (reason : UpBlock)
  /-- NODE_SILENCE (R275): Missed units for 16 cycles, or three NODE units, lose a node. -/
  | nodeSilence (t : Ns) (port hop : Nat)
  /-- SPL_HI_BER (R274): 16 invalid sync headers in 125 µs enter HI_BER. -/
  | splHiBer (t : Ns) (port hop : Nat)
  /-- VIN_RISE (R327): VIN rising through 33 V runs soft start and POR. -/
  | vinRise (t : Ns)
  /-- VIN_FALL (R327): VIN below 31 V switches the module OFF. -/
  | vinFall (t : Ns) (below6 : Bool)
  /-- RESET_N_LOW (R328): RESET_N low for 10 µs holds a PIN reset until it rises. -/
  | resetNLow (t : Ns)
  /-- REFCLK_LOST (R555): Reference clock loss forces the safe state and a PIN-like restart. -/
  | refclkLost (t : Ns)
  /-- DRAM_TRAIN_DONE (R333): Basin training ends and Wellhead enters WAIT_IMAGE or retries. -/
  | dramTrainDone (t : Ns) (ok : Bool)
  /-- ETH_SPEED_TRY (R333): Every 200 ms the ROM switches port 0 between 25G and 10G until lock. -/
  | ethSpeedTry (t : Ns) (lock : Bool)
  /-- IMAGE_VERIFY_DONE (R337): The image checks end, starting the cores or returning to WAIT_IMAGE. -/
  | imageVerifyDone (t : Ns)
  /-- CORE_START_TIMEOUT (R337): The firmware does not report alive within 1 s of core start. -/
  | coreStartTimeout (t : Ns)
  /-- FIRMWARE_ALIVE (R342): The firmware reports alive and starts enumeration and the profile read. -/
  | firmwareAlive (t : Ns)
  /-- PROFILE_READ_DONE (R364): The profile selection ends and the profile comes into force or NO_PROFILE. -/
  | profileReadDone (t : Ns)
  /-- PARTNER_WAIT_END (R344): The partner wait ends when all nodes are present or PARTNER_WAIT expires. -/
  | partnerWaitEnd (t : Ns)
  /-- READY_LOCAL (R346): Start-up conditions are met and READY_LOCAL is reported. -/
  | readyLocal (t : Ns)
  /-- FW_WATCHDOG (R567): A missed alive report within 100 ms starts a FIRMWARE reset. -/
  | fwWatchdog (t : Ns)
  /-- WAKE_FRAME (R576): A wake frame on Ethernet port 0 leaves STANDBY. -/
  | wakeFrame (t : Ns)
  /-- HIB_WAKE (R577): HIB_WAKE high for 1 ms leaves STANDBY or HIBERNATE. -/
  | hibWake (t : Ns) (high : Bool)
  /-- INPUT_CYCLING (R577): VIN dipping below 31 V and back in HIBERNATE causes a WAKE. -/
  | inputCycling (t : Ns)
  /-- HIB_REQ_N (R575): HIB_REQ_N held low starts a HIBERNATE entry, ending a job after 1 s. -/
  | hibReqN (t : Ns) (lowMs : Nat)
  /-- POWER_ENTRY_DONE (R575): Axes reach standstill and the STANDBY or HIBERNATE entry stops the clocks. -/
  | powerEntryDone (t : Ns)
  /-- HK_ROUND (R513): Each 16 ms round evaluates warnings, throttle and shutdown thresholds. -/
  | hkRound (t : Ns) (reads : List (BitVec 16))
  /-- THROTTLE_TIMER (R514): The 2 s rise or 1 s fall timer changes the throttle level. -/
  | throttleTimer (t : Ns)
  /-- DIE_OFF (R518): Axes at standstill, or 2 s after shutdown, switch the die off. -/
  | dieOff (t : Ns)
  /-- CAL_RUN_DONE (R531): A calibration run ends and its result set is stored. -/
  | calRunDone (t : Ns) (kind : Nat) (results : List (Nat × Nat × Nat)) (pairs : List (Int × Int))
  /-- CAL_OVERDUE (R531): A request waiting longer than CAL_DEFER raises the event. -/
  | calOverdue (t : Ns) (kind unit : Nat)
  /-- DARK_GATHER_TIMEOUT (R526): A DARK gathering exceeding 1 s starts again. -/
  | darkGatherTimeout (t : Ns) (lane : Nat)
  /-- REFRESH_DUE (R497): A channel's refresh falls due and is issued or postponed. -/
  | refreshDue (t : Ns) (channel : Nat) (hot : Bool)
  /-- SELF_REFRESH_ENTRY (R500): No request for SR_IDLE starts a self-refresh entry. -/
  | selfRefreshEntry (t : Ns) (aborted : Bool)
  /-- PANIC_CHANGE (R496): A real-time port's buffer level enters or leaves panic. -/
  | panicChange (t : Ns) (port : Nat) (enter : Bool)
  /-- BASIN_PANIC_LONG (R499): A panic episode exceeds 1 ms. -/
  | basinPanicLong (t : Ns) (port : Nat)
  /-- SCRUB_PASS (R506): The scrub reads and corrects the memory once per SCRUB_PERIOD. -/
  | scrubPass (t : Ns) (ce ue : List Nat)
  /-- CAMERA_FS (R425): A frame start is admitted or dropped and takes the eligible exposure set. -/
  | cameraFs (t : Ns) (port vc : Nat)
  /-- CAMERA_LINE (R421): A long packet is taken as one line of the frame. -/
  | cameraLine (t : Ns) (port vc dt hdr : Nat) (crcBad lost : Bool) (pixels : List Nat)
  /-- CAMERA_FE (R424): A frame end closes the frame, filling missing lines. -/
  | cameraFe (t : Ns) (port vc : Nat)
  /-- LINE_TIMEOUT (R424): No FE within LINE_TIMEOUT after the last line ends the frame. -/
  | lineTimeout (t : Ns) (port : Nat)
  /-- CAM_NO_FRAME (R427): No FS within FRAME_TIMEOUT after XTRIG. -/
  | camNoFrame (t : Ns) (port : Nat)
  /-- CAPTURE_PLAN_TRIGGER (R433): The sequencer triggers the ports of a capture plan at its times. -/
  | capturePlanTrigger (t : Ns)
  /-- STATS_COMPLETE (R439): The statistics record of a frame is complete. -/
  | statsComplete (t : Ns) (port : Nat)
  /-- FRAME_PUBLISH (R442): Coding ends and the frame record is published. -/
  | framePublish (t : Ns) (port : Nat)
  /-- CCI_WRITE_DONE (R431): A committed set's CCI writes finish or fail. -/
  | cciWriteDone (t : Ns) (port : Nat) (ok : Bool) (entry value : Nat)
  /-- LED_PERIOD (R444): A PWM period starts and applies pending settings. -/
  | ledPeriod (t : Ns) (channel iMeas vMeas : Nat)
  /-- LED_FAULT_DETECT (R446): An open or short condition holding T_DET turns the channel off. -/
  | ledFaultDetect (t : Ns) (channel : Nat) (short : Bool) (row : Nat)
  /-- DIAG_PULSE (R447): A diagnostic pulse is sent once per DIAG_PERIOD outside exposure windows. -/
  | diagPulse (t : Ns) (channel : Nat)
  /-- COLOR_READ (R448): Every SENSOR_MS colour sensors are read and gains updated. -/
  | colorRead (t : Ns) (reads : List (List Byte))
  /-- MATRIX_SLOT (R449): A matrix row slot runs pre-charge, row select and column currents. -/
  | matrixSlot (t : Ns)
  /-- MATRIX_SYNC (R450): A sync swaps in the oldest queued matrix frame and restarts the scan. -/
  | matrixSync (t : Ns)
  /-- ZIP_BLOCK_DONE (R463): An engine finishes a block and takes the next waiting block. -/
  | zipBlockDone (t : Ns) (engine : Nat)
  /-- COMPOSE_START (R476): A periodic scene starts a composition or skips it as late. -/
  | composeStart (t : Ns) (scene : Nat)
  /-- COMPOSE_DONE (R477): A composition finishes and its output surface is published. -/
  | composeDone (t : Ns) (scene : Nat)
  /-- CACHE_REBUILD (R475): The static cache rebuild of a scene ends. -/
  | cacheRebuild (t : Ns) (scene : Nat)
  /-- EDP_HPD (R480): HPD high for 100 ms trains the link, a pulse interrupts, a long low unplugs. -/
  | edpHpd (t : Ns) (kind maxLanes maxRate : Nat) (trains : List (Nat × Nat)) (lost : Bool)
  /-- EDP_FRAME_START (R481): At each frame start scan-out takes the newest finished surface. -/
  | edpFrameStart (t : Ns)
  /-- AXIS_MOVE_START (R391): A move or pending move starts at its LAUNCH or standstill. -/
  | axisMoveStart (t : Ns) (axis : Nat)
  /-- AXIS_STEP (R389): A step timer expires and drives a STEP edge, ending the move at target. -/
  | axisStep (t : Ns) (axis : Nat)
  /-- AXIS_FOLLOWING_FAULT (R397): Feedback error beyond FB_LIMIT for 100 µs faults the axis. -/
  | axisFollowingFault (t : Ns) (axis : Nat)
  /-- SCRIPT_ENTRY_START (R400): A recoat script entry starts at START_MS or after entry AFTER. -/
  | scriptEntryStart (t : Ns) (entry : Nat)
  /-- ENC_EDGE (R402): A filtered encoder edge is counted and updates speed, compares and echoes. -/
  | encEdge (t : Ns) (chan : Nat) (edge : EncEdge)
  /-- ENC_WIRE_FAULT (R403): P and N lines equal for WIRE_TIME latch a wire fault. -/
  | encWireFault (t : Ns) (chan pair : Nat) (bad : Bool)
  /-- SSI_READ (R406): Every SSI_PERIOD an absolute position frame is read. -/
  | ssiRead (t : Ns) (chan raw : Nat) (lineLow : Bool)
  /-- ENC_STALL (R408): No edge for T_STALL sets speed 0 and STANDSTILL. -/
  | encStall (t : Ns) (chan : Nat)
  /-- ENC_WINDOW_END (R409): A speed window ends and the windowed speed is updated. -/
  | encWindowEnd (t : Ns) (chan : Nat)
  /-- HALL_CHANGE (R411): A filtered Hall code change updates the sector count. -/
  | hallChange (t : Ns) (group code : Nat)
  /-- REC_SECOND (R537): Each operating second samples histograms 0 to 7. -/
  | recSecond (t : Ns)
  /-- REC_MINUTE (R538): Each operating minute samples histograms 8 to 15 and may start an hourly record. -/
  | recMinute (t : Ns)
  /-- REC_WRITE_DONE (R541): A record write verifies and TOTALS are updated. -/
  | recWriteDone (t : Ns)
  /-- REC_WRITE_TIMEOUT (R541): A write not verified within 20 ms marks the slot bad and retries. -/
  | recWriteTimeout (t : Ns)
  /-- NONCE_EXPIRE (R548): A clear nonce expires after 60 s. -/
  | nonceExpire (t : Ns)
  /-- ACCESS_TIMEOUT (R561): An access to a stopped domain ends with DOMAIN_DOWN. -/
  | accessTimeout (t : Ns) (off : Nat) (read : Bool)
  /-- XING_RESYNC (R562): A crossing resynchronises after a reset release or clock resume. -/
  | xingResync (t : Ns) (unit : UnitId) (dropped : XingLoss)
  /-- RESET_N_RISE (R328): RESET_N rises after a PIN reset and start-up resumes at the POR-release step. -/
  | resetNRise (t : Ns)
  /-- REFCLK_RESTORED (R555): REFCLK_IN has stayed within tolerance for 10 ms after a loss and the module starts as after a PIN reset. -/
  | refclkRestored (t : Ns) (outUs : Nat)
  /-- WAKE_SOURCES_ARMED (R577): Wake sources are armed 10 ms after a STANDBY or HIBERNATE entry ends, and an earlier wake event acts then. -/
  | wakeSourcesArmed (t : Ns)
  /-- STAGE_REPORT_SEND (R348): A member sends its STAGE_REPORT to the leader every 1 ms during a MACHINE_JOB. -/
  | stageReportSend (t : Ns)
  /-- PTP_ANNOUNCE_SEND (R218): As master the clock sends Announce messages at its LOG_ANNOUNCE interval. -/
  | ptpAnnounceSend (t : Ns)
  /-- PTP_DELAY_REQ_SEND (R218): The clock sends Delay_Req, or Pdelay_Req on each switch port, at its LOG_DELAY_REQ or LOG_PDELAY interval. -/
  | ptpDelayReqSend (t : Ns)
  /-- EXPOSURE_WINDOW_EDGE (R445): An exposure window of a camera port starts or ends, switching strobed LED channels and ending the XTRIG pulse. -/
  | exposureWindowEdge (t : Ns) (port : Nat)
  /-- PIPELINE_THROTTLE_DEADLINE (R426): A throttle step ordered 50 ms earlier reaches the image pipeline even though a frame is in progress. -/
  | pipelineThrottleDeadline (t : Ns)
  /-- ARP_REQUEST (R333): An ARP request on Ethernet port 0 is answered with the module's address. -/
  | arpRequest (t : Ns) (ip : Nat)
deriving DecidableEq, Repr

end Sys2Proof
end

