-- ==== Sys2Proof/Decode.lean ====
section
/-! DEFINITION. Descriptors as they stand in a command ring (R299, R301) and the commands that words of the table spell: none, as no
row of the table has bits. -/

namespace Sys2Proof

open Machine

/-! ### Descriptors -/

/-- The operand bytes of a descriptor that the ranges (offset, length) do not cover are 0 (R301). -/
def onlyIn (used : List (Nat × Nat)) (o : List Byte) : Bool :=
  o.zipIdx.all fun x => x.1 == 0 || used.any fun u => decide (u.1 ≤ x.2) && decide (x.2 < u.1 + u.2)

/-- A command whose operands lie in the given ranges, with no reserved bit set. -/
def operands (used : List (Nat × Nat)) (ok : Bool) (o : List Byte) (i : Instr) : Option Instr :=
  if onlyIn used o && ok then some i else none

/-- The entries of SPL_IO_WRITE: point and value (R278). -/
def ioEntries (o : List Byte) : List (Nat × Nat) := (List.range (field o 4 1)).map fun i => (field o (16 + 6 * i) 2, field o (18 + 6 * i) 4)

/-- Opcodes 0x00 to 0x1F (R294, R34, R86). -/
def decodeGeneral (h : Hdr) (op : Nat) (o : List Byte) : Option Instr :=
  match op with
  | 0x00 => operands [] true o (.nop h)
  | 0x01 => operands [(0, 9)] (decide (field o 8 1 < 2)) o (.fence h (BitVec.ofNat 64 (field o 0 8)) (bit (field o 8 1) 0))
  | 0x02 => operands [] true o (.snapshotNow h)
  | 0x03 => operands [(0, 1), (4, 2), (8, 8)] true o (.cfgStage h (field o 0 1) (field o 4 2) (field o 8 8))
  | 0x04 => operands [(0, 2), (8, 8)] (decide (field o 1 1 < 2)) o
      (.cfgCommit h (BitVec.ofNat 8 (field o 0 1)) (bit (field o 1 1) 0) (field o 8 8))
  | 0x05 => operands [] true o (.heartbeat h)
  | 0x06 => operands [(0, 1)] true o (.cfgAbort h (BitVec.ofNat 8 (field o 0 1)))
  | 0x07 => operands [(0, 1), (8, 12)] (decide (field o 0 1 < 4)) o
      (.snapshotCfg h (bit (field o 0 1) 0) (bit (field o 0 1) 1) (field o 8 8) (field o 16 4))
  | 0x08 => operands [(0, 12)] true o (.eventRing h (field o 0 8) (field o 8 4))
  | 0x09 => operands [(0, 5)] true o (.eventRoute h (BitVec.ofNat 16 (field o 0 2)) (BitVec.ofNat 16 (field o 2 2)) (field o 4 1))
  | 0x10 => operands [(0, 8)] true o (.jobStart h (field o 0 8))
  | 0x11 => operands [(0, 1)] true o (.jobEnd h (field o 0 1))
  | 0x12 => operands [(0, 8)] true o (.layerQueue h (field o 0 8))
  | 0x13 => operands [(0, 4)] true o (.layerCancel h (field o 0 4))
  | 0x14 => operands [] true o (.jobHold h)
  | 0x15 => operands [(0, 1)] true o (.jobResume h (field o 0 1))
  | 0x16 => operands [(0, 16)] true o (.laneReenable h (BitVec.ofNat 128 (field o 0 16)))
  | 0x17 => operands [(0, 1), (4, 24)] true o
      (.markQueue h (field o 0 1) (field o 4 4) (field o 8 8) (field o 16 8) (field o 24 4))
  | _ => none

/-- Opcodes 0x20 to 0x4F (R139, R178, R210, R244). -/
def decodeLanes (h : Hdr) (op : Nat) (o : List Byte) : Option Instr :=
  match op with
  | 0x20 => operands [(0, 17), (20, 12)] (decide (field o 16 1 < 8)) o
      (.laneLimits h (BitVec.ofNat 128 (field o 0 16)) (bit (field o 16 1) 0) (bit (field o 16 1) 1) (bit (field o 16 1) 2)
        (field o 20 4) (field o 24 4) (field o 28 4))
  | 0x21 => operands [(0, 36)] true o
      (.laneTrims h (BitVec.ofNat 128 (field o 0 16)) (fieldS o 16 4) (fieldS o 20 4) (fieldS o 24 4) (fieldS o 28 4) (fieldS o 32 4))
  | 0x22 => operands [(0, 2), (8, 8)] true o (.laneGridLoad h (field o 0 1) (field o 1 1) (field o 8 8))
  | 0x30 => operands [(0, 14)] true o (.mereSaveCfg h (field o 0 8) (field o 8 4) (field o 12 2))
  | 0x31 => operands [(0, 4)] true o (.mereSaveNow h (field o 0 4))
  | 0x32 => operands [(0, 1), (2, 2), (8, 8)] true o (.mereFieldSet h (field o 0 1) (field o 2 2) (field o 8 8))
  | 0x33 => operands [(0, 1), (4, 16)] (decide (field o 0 1 < 64)) o
      (.mereCoeff h (field o 0 1) (field o 4 4) (field o 8 4) (field o 12 4) (field o 16 2) (field o 18 2))
  | 0x34 => operands [(0, 1), (8, 8)] true o (.loopCurveLoad h (field o 0 1) (field o 8 8))
  | 0x38 => operands [(0, 2), (4, 12)] true o (.proxSepSet h (field o 0 1) (field o 1 1) (field o 4 4) (field o 8 8))
  | 0x39 => operands [(0, 1), (4, 12)] true o (.proxZoneCtrl h (field o 0 1) (BitVec.ofNat 32 (field o 4 4)) (field o 8 8))
  | 0x3A => operands [(0, 1), (2, 4), (8, 16)] true o
      (.proxPlumeSet h (field o 0 1) (fieldS o 2 2) (fieldS o 4 2) (field o 8 4) (field o 12 4) (field o 16 8))
  | 0x40 => operands [(0, 3), (4, 20)] (decide (field o 1 1 < 8)) o
      (.trigOutSet h (field o 0 1) (bit (field o 1 1) 0) (bit (field o 1 1) 1) (bit (field o 1 1) 2) (field o 2 1) (field o 4 4)
        (field o 8 8) (field o 16 4) (field o 20 4))
  | 0x41 => operands [(0, 2), (8, 8)] true o (.trigOutStop h (BitVec.ofNat 16 (field o 0 2)) (field o 8 8))
  | 0x42 => operands [(0, 4)] true o (.trigInCfg h (field o 0 1) (field o 1 1) (field o 2 1) (field o 3 1))
  | 0x43 => operands [(0, 12)] true o (.trigInRing h (field o 0 8) (field o 8 4))
  | 0x44 => operands [(0, 12)] true o (.timeSet h (field o 0 2) (field o 2 4) (field o 6 6))
  | 0x45 => operands [(0, 1), (4, 4)] true o (.ppsOutCfg h (field o 0 1) (field o 4 4))
  | _ => none

/-- Opcodes 0x50 to 0x6F (R416, R454). -/
def decodeAxes (h : Hdr) (op : Nat) (o : List Byte) : Option Instr :=
  match op with
  | 0x50 => operands [(0, 2), (8, 20), (32, 8)] (decide (field o 1 1 < 4)) o
      (.axisMove h (field o 0 1) (bit (field o 1 1) 0) (bit (field o 1 1) 1) (fieldS o 8 8) (field o 16 4) (field o 20 4) (field o 24 4)
        (field o 32 8))
  | 0x51 => operands [(0, 3), (4, 12)] (decide (field o 2 1 < 2)) o
      (.axisLimits h (BitVec.ofNat 16 (field o 0 2)) (bit (field o 2 1) 0) (field o 4 4) (field o 8 4) (field o 12 4))
  | 0x52 => operands [(0, 3)] (decide (field o 2 1 < 2)) o (.axisStop h (BitVec.ofNat 16 (field o 0 2)) (bit (field o 2 1) 0))
  | 0x53 => operands [(0, 4)] true o (.axisEnable h (BitVec.ofNat 16 (field o 0 2)) (BitVec.ofNat 16 (field o 2 2)))
  | 0x54 => operands [(0, 3), (4, 16)] (decide (field o 1 1 < 8)) o
      (.axisHome h (field o 0 1) (bit (field o 1 1) 0) (bits (field o 1 1) 1 2) (field o 2 1) (field o 4 4) (fieldS o 8 8) (field o 16 4))
  | 0x55 => operands [(0, 1), (8, 8)] true o (.axisSetPos h (field o 0 1) (fieldS o 8 8))
  | 0x56 => operands [(0, 2), (8, 8)] true o (.encPreset h (BitVec.ofNat 16 (field o 0 2)) (fieldS o 8 8))
  | 0x57 => operands [(0, 3), (4, 14)] (decide (field o 1 1 < 4)) o
      (.cmpSet h (field o 0 1) (bit (field o 1 1) 0) (bit (field o 1 1) 1) (field o 2 1) (field o 4 4) (fieldS o 8 8) (field o 16 2))
  | 0x58 => operands [(0, 3), (4, 4)] (decide (field o 1 1 < 2)) o
      (.echoSet h (field o 0 1) (bit (field o 1 1) 0) (field o 2 1) (field o 4 2) (field o 6 2))
  | 0x59 => operands [(0, 5)] true o
      (.faultClear h (BitVec.ofNat 16 (field o 0 2)) (BitVec.ofNat 16 (field o 2 2)) (BitVec.ofNat 8 (field o 4 1)))
  | 0x60 => operands [(0, 2)] (decide (field o 1 1 < 2)) o (.camStream h (field o 0 1) (bit (field o 1 1) 0))
  | 0x61 => operands [(0, 1), (4, 10), (16, 8)] true o
      (.camExpWrite h (field o 0 1) (field o 4 4) (field o 8 4) (field o 12 1) (field o 13 1) (field o 16 8))
  | 0x62 => operands [(0, 1), (8, 8)] true o (.camExpCommit h (field o 0 1) (field o 8 8))
  | 0x63 => operands [(0, 1), (8, 8)] true o (.camTrigger h (field o 0 1) (field o 8 8))
  | 0x64 => operands [(0, 6)] (decide (field o 1 1 < 4)) o
      (.camCci h (field o 0 1) (bit (field o 1 1) 0) (bit (field o 1 1) 1) (field o 2 2) (field o 4 2))
  | 0x65 => operands [(0, 1), (8, 14)] true o (.camRing h (field o 0 1) (field o 8 8) (field o 16 4) (field o 20 2))
  | 0x66 => operands [(0, 2), (4, 12)] true o (.ledSet h (field o 0 2) (field o 4 2) (field o 6 2) (field o 8 8))
  | 0x67 => operands [(8, 8)] true o (.ledMatrixWrite h (field o 8 8))
  | 0x68 => operands [(0, 3)] (decide (field o 2 1 < 2)) o (.ledFaultClear h (field o 0 2) (bit (field o 2 1) 0))
  | 0x69 => operands [(0, 1), (2, 2)] true o (.colorTarget h (field o 0 1) (field o 2 2))
  | _ => none

/-- Opcodes 0x70 to 0x9F (R470, R482, R508, R534). -/
def decodeData (h : Hdr) (op : Nat) (o : List Byte) : Option Instr :=
  match op with
  | 0x70 => operands [(0, 6), (8, 12), (24, 12)] true o
      (.zipEncode h (field o 0 1) (field o 1 1) (field o 2 1) (field o 3 1) (field o 4 2) (field o 8 8) (field o 16 4) (field o 24 8)
        (field o 32 4))
  | 0x71 => operands [(0, 6), (24, 12)] true o
      (.zipOpen h (field o 0 1) (field o 1 1) (field o 2 1) (field o 3 1) (field o 4 2) (field o 24 8) (field o 32 4))
  | 0x72 => operands [(0, 2), (8, 12)] true o (.zipFeed h (field o 0 1) (field o 1 1) (field o 8 8) (field o 16 4))
  | 0x73 => operands [(0, 1)] true o (.zipFlush h (field o 0 1))
  | 0x74 => operands [(0, 1), (3, 1), (8, 12), (24, 12)] true o
      (.zipDecode h (field o 0 1) (field o 3 1) (field o 8 8) (field o 16 4) (field o 24 8) (field o 32 4))
  | 0x78 => operands [(0, 1), (8, 8)] true o (.composeScene h (field o 0 1) (field o 8 8))
  | 0x79 => operands [(0, 1), (8, 8)] true o (.composeRun h (field o 0 1) (field o 8 8))
  | 0x7A => operands [(0, 1)] true o (.composeStop h (field o 0 1))
  | 0x7B => operands [(0, 16)] true o
      (.composeLayer h (field o 0 1) (field o 1 1) (field o 2 1) (field o 3 1) (fieldS o 4 2) (fieldS o 6 2) (field o 8 8))
  | 0x7C => operands [(0, 1)] true o (.displaySet h (field o 0 1))
  | 0x80 => operands [(0, 1), (8, 20)] true o (.basinCopy h (field o 0 1) (field o 8 8) (field o 16 8) (field o 24 4))
  | 0x81 => operands [(0, 1), (4, 4), (16, 12)] true o (.basinFill h (field o 0 1) (field o 4 4) (field o 16 8) (field o 24 4))
  | 0x82 => operands [(0, 1)] true o (.basinRetain h (BitVec.ofNat 8 (field o 0 1)))
  | 0x90 => operands [(0, 2), (4, 16)] (decide (field o 1 1 < 2)) o
      (.calRequest h (field o 0 1) (bit (field o 1 1) 0) (BitVec.ofNat 128 (field o 4 16)))
  | 0x91 => operands [(0, 1), (4, 16)] true o (.calCancel h (field o 0 1) (BitVec.ofNat 128 (field o 4 16)))
  | 0x92 => operands [(0, 1)] true o (.hkThrottleFloor h (field o 0 1))
  | _ => none

/-- Opcodes 0xA0 to 0xBF (R551, R278). -/
def decodePartners (h : Hdr) (op : Nat) (o : List Byte) : Option Instr :=
  match op with
  | 0xA0 => operands [] true o (.recRecordNow h)
  | 0xA1 => operands [] true o (.recChallenge h)
  | 0xA2 => operands [(0, 8)] true o (.recClear h (o.take 8))
  | 0xA3 => operands [(8, 8)] true o (.recProvision h (field o 8 8))
  | 0xB0 => operands [(0, 5), (8, 8), (16, 6 * field o 4 1)] (decide (field o 4 1 ≤ 4)) o
      (.splIoWrite h (field o 0 4) (ioEntries o) (field o 8 8))
  | 0xB1 => operands [(0, 6), (8, 8)] true o (.splIoRead h (field o 0 4) (field o 4 1) (field o 5 1) (field o 8 8))
  | 0xB2 => operands [(0, 10), (16, 8)] true o (.splObjRead h (field o 0 4) (field o 4 2) (field o 6 2) (field o 8 2) (field o 16 8))
  | 0xB3 => operands [(0, 10), (16, 8)] true o (.splObjWrite h (field o 0 4) (field o 4 2) (field o 6 2) (field o 8 2) (field o 16 8))
  | 0xB4 => operands [(0, 4)] true o (.splRescan h (field o 0 4))
  | 0xB5 => operands [(0, 4)] true o (.splNodeReset h (field o 0 4))
  | 0xB6 => operands [(0, 12)] true o (.splIoRing h (field o 0 8) (field o 8 4))
  | _ => none

/-- The header of a descriptor of 64 bytes at a position of a ring (R299), `serial` descriptors of the ring having been fetched before it. -/
def descriptorHdr (ring index serial : Nat) (b : List Byte) : Hdr :=
  { ring := ring, index := index, serial := serial, tag := BitVec.ofNat 32 (field b 4 4), irq := bit (field b 1 1) 0, silent := bit (field b 1 1) 1 }

/-- The command that a descriptor of 64 bytes spells; none for a reserved opcode, a reserved bit or a reserved byte that is not 0
(R293, R299, R301). -/
def decodeDescriptor (ring index serial : Nat) (b : List Byte) : Option Instr :=
  let h := descriptorHdr ring index serial b
  let op := field b 0 1
  let o := (b.drop 16).take 48
  if 3 < field b 1 1 || field b 2 2 != 0 || field b 8 8 != 0 then none
  else if op < 0x20 then decodeGeneral h op o
  else if op < 0x50 then decodeLanes h op o
  else if op < 0x70 then decodeAxes h op o
  else if op < 0xA0 then decodeData h op o
  else decodePartners h op o

/-! ### The encoder -/

/-- The two's complement of a number in `n` bytes (R8). -/
def twos (n : Nat) (v : Int) : Nat := (v % ((256 ^ n : Nat) : Int)).toNat

/-- The fields of the entries of SPL_IO_WRITE (R278). -/
def ioFields (es : List (Nat × Nat)) : List (Nat × Nat × Nat) := es.zipIdx.flatMap fun x => [(16 + 6 * x.2, 2, x.1.1), (18 + 6 * x.2, 4, x.1.2)]

/-- The header, the opcode and the operand fields (offset, length, value) of a command that a descriptor carries; none for a command
that no ring carries (R301 and the operand tables of the opcodes). -/
def descriptorFields (i : Instr) : Option (Hdr × Nat × List (Nat × Nat × Nat)) :=
  match i with
  | .nop h => some (h, 0x00, [])
  | .fence h scope holdRing => some (h, 0x01, [(0, 8, scope.toNat), (8, 1, b1 holdRing)])
  | .snapshotNow h => some (h, 0x02, [])
  | .cfgStage h set count list => some (h, 0x03, [(0, 1, set), (4, 2, count), (8, 8, list)])
  | .cfgCommit h sets refTor launch => some (h, 0x04, [(0, 1, sets.toNat), (1, 1, b1 refTor), (8, 8, launch)])
  | .heartbeat h => some (h, 0x05, [])
  | .cfgAbort h sets => some (h, 0x06, [(0, 1, sets.toNat)])
  | .snapshotCfg h setBase setPeriod base period => some (h, 0x07, [(0, 1, b1 setBase + 2 * b1 setPeriod), (8, 8, base), (16, 4, period)])
  | .eventRing h base size => some (h, 0x08, [(0, 8, base), (8, 4, size)])
  | .eventRoute h lo hi vec => some (h, 0x09, [(0, 2, lo.toNat), (2, 2, hi.toNat), (4, 1, vec)])
  | .jobStart h addr => some (h, 0x10, [(0, 8, addr)])
  | .jobEnd h mode => some (h, 0x11, [(0, 1, mode)])
  | .layerQueue h addr => some (h, 0x12, [(0, 8, addr)])
  | .layerCancel h fromIndex => some (h, 0x13, [(0, 4, fromIndex)])
  | .jobHold h => some (h, 0x14, [])
  | .jobResume h mode => some (h, 0x15, [(0, 1, mode)])
  | .laneReenable h mask => some (h, 0x16, [(0, 16, mask.toNat)])
  | .markQueue h lane product addr result count =>
    some (h, 0x17, [(0, 1, lane), (4, 4, product), (8, 8, addr), (16, 8, result), (24, 4, count)])
  | .laneLimits h mask mark jump clear accel jerk speed =>
    some (h, 0x20, [(0, 16, mask.toNat), (16, 1, b1 mark + 2 * b1 jump + 4 * b1 clear), (20, 4, accel), (24, 4, jerk), (28, 4, speed)])
  | .laneTrims h mask ofsX ofsY gainX gainY rot =>
    some (h, 0x21, [(0, 16, mask.toNat), (16, 4, twos 4 ofsX), (20, 4, twos 4 ofsY), (24, 4, twos 4 gainX), (28, 4, twos 4 gainY), (32, 4, twos 4 rot)])
  | .laneGridLoad h lane set addr => some (h, 0x22, [(0, 1, lane), (1, 1, set), (8, 8, addr)])
  | .mereSaveCfg h base size count => some (h, 0x30, [(0, 8, base), (8, 4, size), (12, 2, count)])
  | .mereSaveNow h tag => some (h, 0x31, [(0, 4, tag)])
  | .mereFieldSet h mode value addr => some (h, 0x32, [(0, 1, mode), (2, 2, value), (8, 8, addr)])
  | .mereCoeff h mask d r kDep assimWeight layerBlend =>
    some (h, 0x33, [(0, 1, mask), (4, 4, d), (8, 4, r), (12, 4, kDep), (16, 2, assimWeight), (18, 2, layerBlend)])
  | .loopCurveLoad h curve addr => some (h, 0x34, [(0, 1, curve), (8, 8, addr)])
  | .proxSepSet h a b dist launch => some (h, 0x38, [(0, 1, a), (1, 1, b), (4, 4, dist), (8, 8, launch)])
  | .proxZoneCtrl h group mask launch => some (h, 0x39, [(0, 1, group), (4, 4, mask.toNat), (8, 8, launch)])
  | .proxPlumeSet h rule dirX dirY len half launch =>
    some (h, 0x3A, [(0, 1, rule), (2, 2, twos 2 dirX), (4, 2, twos 2 dirY), (8, 4, len), (12, 4, half), (16, 8, launch)])
  | .trigOutSet h out refPtp activeLow toggle fine period start width count =>
    some (h, 0x40, [(0, 1, out), (1, 1, b1 refPtp + 2 * b1 activeLow + 4 * b1 toggle), (2, 1, fine), (4, 4, period), (8, 8, start), (16, 4, width), (20, 4, count)])
  | .trigOutStop h mask time => some (h, 0x41, [(0, 2, mask.toNat), (8, 8, time)])
  | .trigInCfg h input edge filter enc => some (h, 0x42, [(0, 1, input), (1, 1, edge), (2, 1, filter), (3, 1, enc)])
  | .trigInRing h base size => some (h, 0x43, [(0, 8, base), (8, 4, size)])
  | .timeSet h frac ns sec => some (h, 0x44, [(0, 2, frac), (2, 4, ns), (6, 6, sec)])
  | .ppsOutCfg h mode width => some (h, 0x45, [(0, 1, mode), (4, 4, width)])
  | .axisMove h axis relative refPtp target speed accel jerk launch =>
    some (h, 0x50, [(0, 1, axis), (1, 1, b1 relative + 2 * b1 refPtp), (8, 8, twos 8 target), (16, 4, speed), (20, 4, accel), (24, 4, jerk), (32, 8, launch)])
  | .axisLimits h mask clear speed accel jerk =>
    some (h, 0x51, [(0, 2, mask.toNat), (2, 1, b1 clear), (4, 4, speed), (8, 4, accel), (12, 4, jerk)])
  | .axisStop h mask emergency => some (h, 0x52, [(0, 2, mask.toNat), (2, 1, b1 emergency)])
  | .axisEnable h mask values => some (h, 0x53, [(0, 2, mask.toNat), (2, 2, values.toNat)])
  | .axisHome h axis down source chan speed pos limit =>
    some (h, 0x54, [(0, 1, axis), (1, 1, b1 down + 2 * source), (2, 1, chan), (4, 4, speed), (8, 8, twos 8 pos), (16, 4, limit)])
  | .axisSetPos h axis pos => some (h, 0x55, [(0, 1, axis), (8, 8, twos 8 pos)])
  | .encPreset h mask ext => some (h, 0x56, [(0, 2, mask.toNat), (8, 8, twos 8 ext)])
  | .cmpSet h cmp enable reverse enc pitch c width =>
    some (h, 0x57, [(0, 1, cmp), (1, 1, b1 enable + 2 * b1 reverse), (2, 1, enc), (4, 4, pitch), (8, 8, twos 8 c), (16, 2, width)])
  | .echoSet h out enable enc n m => some (h, 0x58, [(0, 1, out), (1, 1, b1 enable), (2, 1, enc), (4, 2, n), (6, 2, m)])
  | .faultClear h axisMask encMask hallMask => some (h, 0x59, [(0, 2, axisMask.toNat), (2, 2, encMask.toNat), (4, 1, hallMask.toNat)])
  | .camStream h port run => some (h, 0x60, [(0, 1, port), (1, 1, b1 run)])
  | .camExpWrite h port len start mode count addr =>
    some (h, 0x61, [(0, 1, port), (4, 4, len), (8, 4, start), (12, 1, mode), (13, 1, count), (16, 8, addr)])
  | .camExpCommit h port launch => some (h, 0x62, [(0, 1, port), (8, 8, launch)])
  | .camTrigger h mask launch => some (h, 0x63, [(0, 1, mask), (8, 8, launch)])
  | .camCci h port write wide reg value => some (h, 0x64, [(0, 1, port), (1, 1, b1 write + 2 * b1 wide), (2, 2, reg), (4, 2, value)])
  | .camRing h port base size slots => some (h, 0x65, [(0, 1, port), (8, 8, base), (16, 4, size), (20, 2, slots)])
  | .ledSet h mask iSet duty launch => some (h, 0x66, [(0, 2, mask), (4, 2, iSet), (6, 2, duty), (8, 8, launch)])
  | .ledMatrixWrite h addr => some (h, 0x67, [(8, 8, addr)])
  | .ledFaultClear h mask segments => some (h, 0x68, [(0, 2, mask), (2, 1, b1 segments)])
  | .colorTarget h channel target => some (h, 0x69, [(0, 1, channel), (2, 2, target)])
  | .zipEncode h channel kind format flags width addr len out size =>
    some (h, 0x70, [(0, 1, channel), (1, 1, kind), (2, 1, format), (3, 1, flags), (4, 2, width), (8, 8, addr), (16, 4, len), (24, 8, out), (32, 4, size)])
  | .zipOpen h channel kind format flags width out size =>
    some (h, 0x71, [(0, 1, channel), (1, 1, kind), (2, 1, format), (3, 1, flags), (4, 2, width), (24, 8, out), (32, 4, size)])
  | .zipFeed h channel flags addr len => some (h, 0x72, [(0, 1, channel), (1, 1, flags), (8, 8, addr), (16, 4, len)])
  | .zipFlush h channel => some (h, 0x73, [(0, 1, channel)])
  | .zipDecode h channel flags addr len out limit =>
    some (h, 0x74, [(0, 1, channel), (3, 1, flags), (8, 8, addr), (16, 4, len), (24, 8, out), (32, 4, limit)])
  | .composeScene h scene addr => some (h, 0x78, [(0, 1, scene), (8, 8, addr)])
  | .composeRun h scene launch => some (h, 0x79, [(0, 1, scene), (8, 8, launch)])
  | .composeStop h scene => some (h, 0x7A, [(0, 1, scene)])
  | .composeLayer h scene layer visible alpha dstX dstY addr =>
    some (h, 0x7B, [(0, 1, scene), (1, 1, layer), (2, 1, visible), (3, 1, alpha), (4, 2, twos 2 dstX), (6, 2, twos 2 dstY), (8, 8, addr)])
  | .displaySet h scene => some (h, 0x7C, [(0, 1, scene)])
  | .basinCopy h chan src dst len => some (h, 0x80, [(0, 1, chan), (8, 8, src), (16, 8, dst), (24, 4, len)])
  | .basinFill h chan pattern dst len => some (h, 0x81, [(0, 1, chan), (4, 4, pattern), (16, 8, dst), (24, 4, len)])
  | .basinRetain h mask => some (h, 0x82, [(0, 1, mask.toNat)])
  | .calRequest h kind immediate mask => some (h, 0x90, [(0, 1, kind), (1, 1, b1 immediate), (4, 16, mask.toNat)])
  | .calCancel h kind mask => some (h, 0x91, [(0, 1, kind), (4, 16, mask.toNat)])
  | .hkThrottleFloor h level => some (h, 0x92, [(0, 1, level)])
  | .recRecordNow h => some (h, 0xA0, [])
  | .recChallenge h => some (h, 0xA1, [])
  | .recClear h token => some (h, 0xA2, [(0, 8, leNat token)])
  | .recProvision h addr => some (h, 0xA3, [(8, 8, addr)])
  | .splIoWrite h node entries applyAt => some (h, 0xB0, [(0, 4, node), (4, 1, entries.length), (8, 8, applyAt)] ++ ioFields entries)
  | .splIoRead h node first count addr => some (h, 0xB1, [(0, 4, node), (4, 1, first), (5, 1, count), (8, 8, addr)])
  | .splObjRead h node index offset count addr =>
    some (h, 0xB2, [(0, 4, node), (4, 2, index), (6, 2, offset), (8, 2, count), (16, 8, addr)])
  | .splObjWrite h node index offset count addr =>
    some (h, 0xB3, [(0, 4, node), (4, 2, index), (6, 2, offset), (8, 2, count), (16, 8, addr)])
  | .splRescan h mask => some (h, 0xB4, [(0, 4, mask)])
  | .splNodeReset h node => some (h, 0xB5, [(0, 4, node)])
  | .splIoRing h base size => some (h, 0xB6, [(0, 8, base), (8, 4, size)])
  | _ => none

/-- Byte k of a layout of fields; a byte of no field is 0 (R301). -/
def layoutByte (fs : List (Nat × Nat × Nat)) (k : Nat) : Byte :=
  match fs.find? fun f => decide (f.1 ≤ k) && decide (k < f.1 + f.2.1) with
  | some f => BitVec.ofNat 8 (f.2.2 / 256 ^ (k - f.1))
  | none => 0

/-- `n` bytes of a layout of fields. -/
def layout (n : Nat) (fs : List (Nat × Nat × Nat)) : List Byte := (List.range n).map (layoutByte fs)

/-- The 64 bytes of the descriptor of a command (R299, R301); none for a command that no ring carries. -/
def encodeDescriptor (i : Instr) : Option (List Byte) :=
  (descriptorFields i).map fun x =>
    layout 16 [(0, 1, x.2.1), (1, 1, b1 x.1.irq + 2 * b1 x.1.silent), (4, 4, x.1.tag.toNat)] ++ layout 48 x.2.2

/-! ### Words of the table -/

/-- The command that a word of the table spells. No row of the table gives bits, so no word spells one. -/
def decodeTableWord (_nbits _w : Nat) : Option Instr := none

end Sys2Proof
end

