-- ==== Sys2Proof/Machine/Crc.lean ====
section
/-! DEFINITION. The checks of R249: CRC-8, CRC-16 and CRC-32. -/

namespace Sys2Proof.Machine

/-- `k` bits of a most-significant-bit-first CRC of width `w` with polynomial `poly`. -/
def crcStep (w poly : Nat) : Nat → Nat → Nat
  | 0, c => c
  | k + 1, c => crcStep w poly k (if c.testBit (w - 1) then ((2 * c) ^^^ poly) % 2 ^ w else 2 * c % 2 ^ w)

/-- A most-significant-bit-first CRC over bytes. -/
def crcBytes (w poly init : Nat) (bs : List Byte) : Nat :=
  bs.foldl (fun c b => crcStep w poly 8 (c ^^^ (b.toNat * 2 ^ (w - 8)))) init

/-- CRC-8: x⁸ + x² + x + 1, initial value 0. -/
def crc8 (bs : List Byte) : Nat := crcBytes 8 0x07 0 bs

/-- CRC-16: x¹⁶ + x¹² + x⁵ + 1, initial value 0xFFFF. -/
def crc16 (bs : List Byte) : Nat := crcBytes 16 0x1021 0xFFFF bs

/-- `k` bits of the least-significant-bit-first CRC-32. -/
def crc32Step : Nat → Nat → Nat
  | 0, c => c
  | k + 1, c => crc32Step k (if c.testBit 0 then (c / 2) ^^^ 0xEDB88320 else c / 2)

/-- The CRC-32 register after a list of bytes. The match gives the next byte a number and no longer a term, which keeps the kernel's
evaluation of a long list flat. -/
def crc32Go : List Byte → Nat → Nat
  | [], c => c
  | b :: bs, c =>
    match crc32Step 8 (c ^^^ b.toNat) with
    | 0 => crc32Go bs 0
    | n + 1 => crc32Go bs (n + 1)

/-- CRC-32: the frame check sequence of IEEE 802.3. -/
def crc32 (bs : List Byte) : Nat := crc32Go bs 0xFFFFFFFF ^^^ 0xFFFFFFFF

end Sys2Proof.Machine
end

