-- ==== Sys2Proof/Machine/Bin64.lean ====
section
/-! DEFINITION. The arithmetic of the planner (R108): IEEE 754 binary64, round to nearest with ties to even, and sines
and cosines in fixed point. Overflow and underflow of binary64 lie outside every range that the planner meets
(log 20). -/

namespace Sys2Proof.Machine

/-- A binary64 number m × 2 ^ e. It is kept with |m| from 2 ^ 52 to 2 ^ 53 − 1, or as 0 × 2 ^ 0. -/
structure F64 where
  m : Int
  e : Int
deriving DecidableEq, Repr

/-- Bits of a natural number. -/
def bitLen (n : Nat) : Nat := if n = 0 then 0 else Nat.log2 n + 1

/-- `n` divided by 2 ^ k, rounded to nearest with ties to even; `sticky` says that `n` stands for slightly more. -/
def shiftEven (n k : Nat) (sticky : Bool) : Nat :=
  let q := n / 2 ^ k
  let r := n % 2 ^ k
  let half := 2 ^ k / 2
  if k = 0 then n
  else if half < r || (r == half && (sticky || q % 2 == 1)) then q + 1 else q

/-- The binary64 number nearest to ±n × 2 ^ e, `sticky` saying that the magnitude is slightly more than n. -/
def F64.round (neg : Bool) (n : Nat) (e : Int) (sticky : Bool) : F64 :=
  if n = 0 then { m := 0, e := 0 }
  else
    let len := bitLen n
    let k := len - 53
    let q := shiftEven n k sticky
    let q' := if q = 2 ^ 53 then 2 ^ 52 else q
    let e' := e + (k : Int) + (if q = 2 ^ 53 then 1 else 0)
    let up := 53 - bitLen q'
    let mag : Int := ((q' * 2 ^ up : Nat) : Int)
    { m := if neg then -mag else mag, e := e' - (up : Int) }

/-- An integer rounded to binary64. -/
def F64.ofInt (n : Int) : F64 := F64.round (decide (n < 0)) n.natAbs 0 false

/-- A natural number rounded to binary64. -/
def F64.ofNat (n : Nat) : F64 := F64.ofInt n

def F64.zero : F64 := { m := 0, e := 0 }

/-- Two numbers over one exponent: their scaled mantissas and the exponent. -/
def F64.align (x y : F64) : Int × Int × Int :=
  let e := min x.e y.e
  (x.m * ((2 ^ (x.e - e).toNat : Nat) : Int), y.m * ((2 ^ (y.e - e).toNat : Nat) : Int), e)

def F64.add (x y : F64) : F64 :=
  let (a, b, e) := F64.align x y
  F64.round (decide (a + b < 0)) (a + b).natAbs e false

def F64.neg (x : F64) : F64 := { x with m := -x.m }

def F64.sub (x y : F64) : F64 := x.add y.neg

def F64.mul (x y : F64) : F64 :=
  F64.round (decide (x.m * y.m < 0)) (x.m * y.m).natAbs (x.e + y.e) false

/-- x / y; a quotient by 0 is 0, which no caller uses. -/
def F64.div (x y : F64) : F64 :=
  if y.m = 0 then .zero
  else
    let n := x.m.natAbs * 2 ^ 64
    let d := y.m.natAbs
    F64.round (decide (x.m * y.m < 0)) (n / d) (x.e - y.e - 64) (n % d != 0)

/-- The square root of a number that is not negative. -/
def F64.sqrt (x : F64) : F64 :=
  if x.m ≤ 0 then .zero
  else
    let odd := x.e % 2 != 0
    let n := x.m.natAbs * (if odd then 2 else 1) * 2 ^ 64
    let e := (if odd then x.e - 1 else x.e) - 64
    let r := isqrt n
    F64.round false r (e / 2) (r * r != n)

def F64.lt (x y : F64) : Bool := let (a, b, _) := F64.align x y; decide (a < b)

def F64.le (x y : F64) : Bool := let (a, b, _) := F64.align x y; decide (a ≤ b)

/-- The largest integer at most x. -/
def F64.floor (x : F64) : Int :=
  if 0 ≤ x.e then x.m * ((2 ^ x.e.toNat : Nat) : Int) else x.m / ((2 ^ (-x.e).toNat : Nat) : Int)

/-- The smallest integer at least x. -/
def F64.ceil (x : F64) : Int := -(F64.floor x.neg)

/-- The nearest integer, ties away from zero (R9). -/
def F64.nearest (x : F64) : Int :=
  if 0 ≤ x.e then x.m * ((2 ^ x.e.toNat : Nat) : Int) else roundDiv x.m (2 ^ (-x.e).toNat)

/-! ### Angles -/

/-- One in the fixed point of angles and their sines: 2 ^ 64. -/
def fixOne : Int := ((2 ^ 64 : Nat) : Int)

/-- The terms of a power series in x², from `term` on: each is the one before it times −x² over k (k + 1). -/
def trigGo : Nat → Int → Int → Nat → Int → Int
  | 0, _, _, _, acc => acc
  | n + 1, x, term, k, acc =>
    let term' := -(term * x / fixOne * x / fixOne) / (((k * (k + 1)) : Nat) : Int)
    trigGo n x term' (k + 2) (acc + term')

/-- The sine of x radians, both in units of 2 ^ −64, for |x| up to 7. -/
def sinFix (x : Int) : Int := trigGo 32 x x 2 x

/-- The cosine of x radians, both in units of 2 ^ −64, for |x| up to 7. -/
def cosFix (x : Int) : Int := trigGo 32 x fixOne 1 fixOne

/-- An angle of `n` µrad in units of 2 ^ −64 rad. -/
def microRad (n : Int) : Int := n * fixOne / 1000000

/-- A binary64 number in units of 2 ^ −64. -/
def F64.toFix (x : F64) : Int :=
  let e := x.e + 64
  if 0 ≤ e then x.m * ((2 ^ e.toNat : Nat) : Int) else x.m / ((2 ^ (-e).toNat : Nat) : Int)

/-- (x, y) turned by `a` (2 ^ −64 rad) and rounded by R9. -/
def turn (a x y : Int) : Int × Int :=
  let c := cosFix a
  let s := sinFix a
  (roundDiv (c * x - s * y) (2 ^ 64), roundDiv (s * x + c * y) (2 ^ 64))

end Sys2Proof.Machine
end

