-- ==== Sys2Proof/Machine/Geometry.lean ====
section
/-! DEFINITION. Plane geometry of the proximity rules (R188 to R190) on whole position LSB: distances of segments and
convex polygons, and polygon membership. -/

namespace Sys2Proof.Machine

/-- A point or a vector of the build plane. -/
abbrev Pt := Int × Int

def Pt.sub (a b : Pt) : Pt := (a.1 - b.1, a.2 - b.2)

def Pt.add (a b : Pt) : Pt := (a.1 + b.1, a.2 + b.2)

def Pt.dot (a b : Pt) : Int := a.1 * b.1 + a.2 * b.2

def Pt.cross (a b : Pt) : Int := a.1 * b.2 - a.2 * b.1

/-- |a|². -/
def Pt.sq (a : Pt) : Int := Pt.dot a a

/-- Point p lies within `lim` of the segment a b. -/
def ptSegLe (p a b : Pt) (lim : Int) : Bool :=
  let ab := Pt.sub b a
  let t := Pt.dot (Pt.sub p a) ab
  let n := Pt.sq ab
  if t ≤ 0 then decide (Pt.sq (Pt.sub p a) ≤ lim * lim)
  else if n ≤ t then decide (Pt.sq (Pt.sub p b) ≤ lim * lim)
  else
    let c := Pt.cross ab (Pt.sub p a)
    decide (c * c ≤ lim * lim * n)

/-- The side of the line a b on which p lies. -/
def sideOf (a b p : Pt) : Int := (Pt.cross (Pt.sub b a) (Pt.sub p a)).sign

/-- Two segments cross each other properly. -/
def segCross (a b c d : Pt) : Bool :=
  decide (sideOf a b c * sideOf a b d < 0) && decide (sideOf c d a * sideOf c d b < 0)

/-- Two segments come within `lim`. -/
def segSegLe (a b c d : Pt) (lim : Int) : Bool :=
  segCross a b c d || ptSegLe a c d lim || ptSegLe b c d lim || ptSegLe c a b lim || ptSegLe d a b lim

/-- The edges of a polygon. -/
def edgesOf (ps : List Pt) : List (Pt × Pt) :=
  match ps with
  | [] => []
  | p :: rest => ps.zip (rest ++ [p])

/-- A point lies inside a simple polygon, by the crossings of the ray toward +X. -/
def inPoly (ps : List Pt) (p : Pt) : Bool :=
  ((edgesOf ps).countP fun e =>
    let (a, b) := e
    let lo := if a.2 ≤ b.2 then a else b
    let hi := if a.2 ≤ b.2 then b else a
    decide (lo.2 ≤ p.2) && decide (p.2 < hi.2) && decide (0 < Pt.cross (Pt.sub hi lo) (Pt.sub p lo))) % 2 == 1

/-- A segment meets a polygon, its boundary included, or comes within `lim` of it. -/
def segPolyLe (a b : Pt) (ps : List Pt) (lim : Int) : Bool :=
  inPoly ps a || inPoly ps b || (edgesOf ps).any fun e => segSegLe a b e.1 e.2 lim

/-- Two polygons come within `lim` of each other. -/
def polyPolyLe (ps qs : List Pt) (lim : Int) : Bool :=
  (match ps with | p :: _ => inPoly qs p | [] => false) || (match qs with | q :: _ => inPoly ps q | [] => false)
    || (edgesOf ps).any fun e => (edgesOf qs).any fun f => segSegLe e.1 e.2 f.1 f.2 lim

/-- The part of a convex polygon on the side w · d ≥ 0, its new corners rounded by R9. -/
def clipHalf (d : Pt) (ps : List Pt) : List Pt :=
  (edgesOf ps).flatMap fun e =>
    let (a, b) := e
    let va := Pt.dot a d
    let vb := Pt.dot b d
    let keep := if 0 ≤ va then [a] else []
    if (0 < va && vb < 0) || (va < 0 && 0 < vb) then
      let n := (va - vb).natAbs
      let t := if va < vb then -va else va
      keep ++ [(lerp a.1 b.1 t n, lerp a.2 b.2 t n)]
    else keep

/-- Points put in order of X, then Y. -/
def insertPt (p : Pt) : List Pt → List Pt
  | [] => [p]
  | q :: qs => if p.1 < q.1 || (p.1 = q.1 && p.2 ≤ q.2) then p :: q :: qs else q :: insertPt p qs

def sortPts (ps : List Pt) : List Pt := ps.foldr insertPt []

/-- One chain of a convex hull over points in order; the chain is kept newest first. -/
def hullGo : Nat → List Pt → List Pt → List Pt
  | 0, _, acc => acc
  | _ + 1, [], acc => acc
  | n + 1, p :: ps, b :: a :: acc =>
    if Pt.cross (Pt.sub b a) (Pt.sub p a) ≤ 0 then hullGo n (p :: ps) (a :: acc) else hullGo n ps (p :: b :: a :: acc)
  | n + 1, p :: ps, acc => hullGo n ps (p :: acc)

/-- The convex hull of a few points. -/
def hull (ps : List Pt) : List Pt :=
  let s := sortPts ps
  let n := 3 * ps.length + 3
  let lo := hullGo n s []
  let hi := hullGo n s.reverse []
  (lo.drop 1).reverse ++ (hi.drop 1).reverse

/-- The differences q − p of the points of two convex sets. -/
def minkowski (qs ps : List Pt) : List Pt := hull (qs.flatMap fun q => ps.map fun p => Pt.sub q p)

/-- The triangle of a plume wedge with its apex at 0 (R190): direction, length and half-angle in µrad. Its corners are
rounded by R9. -/
def wedgeTri (dirX dirY : Int) (len half : Nat) : List Pt :=
  let n : Nat := isqrt ((dirX * dirX + dirY * dirY).toNat * 2 ^ 64)
  let c := cosFix (microRad half)
  let sn := sinFix (microRad half)
  let far : Pt := (roundDiv (dirX * len * fixOne / 2 ^ 32) n, roundDiv (dirY * len * fixOne / 2 ^ 32) n)
  let t := if c = 0 then (0 : Int) else sn * fixOne / c
  let side : Pt := (roundDiv (-(far.2) * t) (2 ^ 64), roundDiv (far.1 * t) (2 ^ 64))
  [(0, 0), Pt.sub far side, Pt.add far side]

/-- Some q − p of `diff` lies in the wedge, with the tolerance of R189 and a widening (R190, R203). -/
def inWedge (dirX dirY : Int) (len half : Nat) (widen : Int) (diff : List Pt) : Bool :=
  let ahead := clipHalf (dirX, dirY) diff
  diff.any (fun w => decide (0 < Pt.dot w (dirX, dirY)))
    && polyPolyLe ahead (wedgeTri dirX dirY len half) (100 + widen)

/-- The part of a convex polygon on the side d of the point c. -/
def clipSide (d c : Pt) (ps : List Pt) : List Pt := (clipHalf d (ps.map fun p => Pt.sub p c)).map fun p => Pt.add p c

/-- The part of a convex polygon in a rectangle. -/
def inRect (x0 y0 x1 y1 : Int) (ps : List Pt) : List Pt :=
  clipSide (0, -1) (x1, y1) (clipSide (0, 1) (x0, y0) (clipSide (-1, 0) (x1, y1) (clipSide (1, 0) (x0, y0) ps)))

/-- The parts of a convex polygon outside a rectangle: left, right, below and above of it. -/
def outRect (x0 y0 x1 y1 : Int) (ps : List Pt) : List (List Pt) :=
  if x1 < x0 || y1 < y0 then [ps]
  else
    let mid := clipSide (-1, 0) (x1, y1) (clipSide (1, 0) (x0, y0) ps)
    [clipSide (-1, 0) (x0, y0) ps, clipSide (1, 0) (x1, y1) ps, clipSide (0, -1) (x0, y0) mid, clipSide (0, 1) (x1, y1) mid].filter
      fun q => !q.isEmpty

/-- A span of a segment's parameter, in units of 2 ^ −30. -/
abbrev Span := Int × Int

/-- The span of the segment a b that lies in an interval of one coordinate. -/
def clipAxis (a b lo hi : Int) (s : Span) : Option Span :=
  let one : Int := 1073741824
  if a = b then (if lo ≤ a && a ≤ hi then some s else none)
  else
    let n := (b - a).natAbs
    let t := fun v : Int => if a < b then (v - a) * one / n else (a - v) * one / n
    let u := min (t lo) (t hi)
    let v := max (t lo) (t hi)
    if max s.1 u ≤ min s.2 v then some (max s.1 u, min s.2 v) else none

/-- The span of a segment that lies in a rectangle, corners included. -/
def clipRect (a b : Pt) (x0 y0 x1 y1 : Int) (s : Span) : Option Span :=
  (clipAxis a.1 b.1 x0 x1 s).bind fun s => clipAxis a.2 b.2 y0 y1 s

/-- A span less another. -/
def Span.minus (s c : Span) : List Span :=
  (if s.1 < c.1 then [(s.1, min s.2 c.1)] else []) ++ (if c.2 < s.2 then [(max s.1 c.2, s.2)] else [])
    ++ (if s.1 = s.2 && (s.1 < c.1 || c.2 < s.1) then [s] else [])

/-- The point of a segment at a parameter. -/
def alongSeg (a b : Pt) (t : Int) : Pt :=
  (lerp a.1 b.1 t 1073741824, lerp a.2 b.2 t 1073741824)

end Sys2Proof.Machine
end

