-- ==== Sys2Proof/Machine/Parts/Stream.lean ====
section
/-! DEFINITION. What a vector stream holds (R44 to R56): vector records, parameter sets and the limits in force. -/

namespace Sys2Proof.Machine

/-- What a motion or beam-on record overrides (R45, R47): POWER, SPEED and CORNER_STOP. -/
structure VecOpt where
  power : Option Nat
  speed : Option Nat
  cornerStop : Bool
deriving DecidableEq, Repr

/-- One vector record (R45 to R54), less its VTAG. -/
inductive Vec where
  | jump (x y z : Int) (opt : VecOpt)
  | line (x y z : Int) (opt : VecOpt)
  | arc (cx cy z sweep : Int) (opt : VecOpt)
  | dwell (beamOff : Bool) (power : Option Nat) (duration : Nat) (z : Int)
  | select (set : Nat)
  | limits (mark jump : Bool) (accel jerk speed : Nat)
  | priority (p : Nat)
  | waitTime (relative : Bool) (target : Nat)
  | sync (failContinue : Bool) (id members : Nat) (lanes : BitVec 128)
  | tag (part feature : Nat)
  | track (on : Bool) (encoder : Nat) (scale dirX dirY : Int)
  | stop
deriving DecidableEq, Repr

/-- The limits of one class of motion (R104): mm/s², m/s³ and µm/s. -/
structure Limits where
  accel : Nat
  jerk : Nat
  speed : Nat
deriving DecidableEq, Repr

/-- A parameter set (R55). -/
structure PSet where
  power : Nat
  valid : Bool
  loopEn : Bool
  ffEn : Bool
  rawMode : Nat
  mark : Limits
  jump : Limits
  onDelay : Int
  offDelay : Int
  focusOfs : Int
  cornerTol : Nat
  curve : Nat
  trimLimit : Nat
deriving DecidableEq, Repr

/-- A set of a table that has never been loaded. -/
def PSet.none : PSet :=
  { power := 0, valid := false, loopEn := false, ffEn := false, rawMode := 0, mark := { accel := 0, jerk := 0, speed := 0 },
    jump := { accel := 0, jerk := 0, speed := 0 }, onDelay := 0, offDelay := 0, focusOfs := 0, cornerTol := 0, curve := 0,
    trimLimit := 0 }

/-- A change of limits of one class; 0 keeps a field (R48, R139). -/
structure LimitSet where
  accel : Nat
  jerk : Nat
  speed : Nat
deriving DecidableEq, Repr

def LimitSet.none : LimitSet := { accel := 0, jerk := 0, speed := 0 }

/-- What the stream has set so far (R48, R49): the selected set, SET LIMITS of both classes, the priority and the
tracking switch (R53) with its encoder, scale and direction. -/
structure Settings where
  set : Nat
  mark : LimitSet
  jump : LimitSet
  priority : Option Nat
  track : Option (Nat × Int × Int × Int)
deriving DecidableEq, Repr

/-- A layer or mark starts with set 0 and the profile's priority (R49). -/
def Settings.start : Settings := { set := 0, mark := .none, jump := .none, priority := none, track := none }

/-- A record as fetched: its index in the stream, its 32 bytes, and the code of a fault that it brings (R42, R100). -/
structure Fetched where
  index : Nat
  bytes : List Byte
  bad : Option Nat
deriving DecidableEq, Repr

end Sys2Proof.Machine
end

