-- ==== Sys2Proof/Machine/Parts/Lanes.lean ====
section
/-! DEFINITION. State of the lanes and tarns (chapters "Lanes: planning, field mapping and set-point issue", "Melt-pool
loop and the Mere heat field" and "Overlapping fields and beam proximity" for what belongs to one lane). -/

namespace Sys2Proof.Machine

/-- The lane states (R95). -/
inductive LaneState where
  | off
  | idle
  | armed
  | running
  | hold
  | fault
deriving DecidableEq, Repr

/-- The code of a lane state (R95). -/
def LaneState.code : LaneState → Nat
  | .off => 0
  | .idle => 1
  | .armed => 2
  | .running => 3
  | .hold => 4
  | .fault => 5

/-! ### The plan -/

/-- A phase of constant jerk of a record (R105): its start in ns after the record's start, its duration, the distance
(position LSB), speed (µm/s) and acceleration (µm/s per ns) there, and the jerk (µm/s per ns²). -/
structure Seg where
  t0 : F64
  dur : F64
  s0 : F64
  v0 : F64
  a0 : F64
  j : F64
deriving DecidableEq, Repr

/-- Where a record stands with the arbiter: no request yet, requested at a time, tentative since a guard tick with the
exchange X1 that confirms it (R204), GO, or held (R187). -/
inductive Verdict where
  | none
  | asked (t : Ns)
  | tentative (g x1 : Ns)
  | go
  | held
deriving DecidableEq, Repr

/-- The statistics of a beam-on record (R155, R156): samples, blanked ones, sums, extremes, the first window's start, and
the anomaly bits. -/
structure Melt where
  samples : Nat
  blanked : Nat
  sum : Nat
  min : Nat
  max : Nat
  trimSum : Int
  predSum : Nat
  first : Ns
  out : BitVec 16
  anomaly : BitVec 8
  rawWindow : Bool
  rawLost : Bool
deriving DecidableEq, Repr

/-- A record in the planning window, or one that is being issued or waits for its result record. `idx` is its index in the stream
plus one, `g` the settings in force at it, and `ghost` marks the move that a repair exposure begins with, which has no result record (R75). `start` is the launch
time of its first set-point and `frac` the part of a lane tick by which it starts later (R108). `fixed` says that it is
frozen (R116). `waitNs` is what R84, R101 and R102 book in it, `release` a SYNC's release. `first` is the
launch time of the first set-point sent at or after its start (R57), and `bad` the code of a fault that the lane meets at
it (R42, R100). -/
structure PRec where
  idx : Nat
  ghost : Bool
  vec : Vec
  vtag : Nat
  setIdx : Nat
  set : PSet
  prio : Nat
  g : Settings
  lim : Limits
  x0 : Int
  y0 : Int
  x1 : Int
  y1 : Int
  len : F64
  vIn : Nat
  vOut : Nat
  start : Ns
  frac : F64
  dur : F64
  segs : List Seg
  fixed : Bool
  verdict : Verdict
  deferred : Bool
  held : Bool
  holdNs : Nat
  waitNs : Nat
  waitLate : Bool
  /-- WAIT_LATE has been raised for this WAIT_TIME (R50) -/
  lateTold : Bool
  /-- the settings that the next motion record takes, where `g` are those in force at this one (R48, R75) -/
  staged : Settings
  release : Option Ns
  first : Option Ns
  bad : Option Nat
  melt : Melt
deriving DecidableEq, Repr

/-- A hold in progress (R187, R195): the held record, since when H counts, the start that its GO branch had planned,
when the lane stands at it, and whether PROX_LONG_HOLD has been raised (R196). -/
structure Hold where
  idx : Nat
  since : Ns
  planned : Ns
  stands : Ns
  warned : Bool
deriving DecidableEq, Repr

/-- A set-point sent to the head (R120), and whether it is an edge (R122). X, Y and Z are head units, `planX` and `planY` the planned
build-plane position, `cmd` is the power of R120 and `power` what the slot carries (R525). -/
structure SetPt where
  launch : Ns
  x : Int
  y : Int
  z : Int
  planX : Int
  planY : Int
  cmd : Nat
  power : Nat
  on : Bool
  edge : Bool
deriving DecidableEq, Repr

/-- What a lane's buffer serves (R40, R86): the layer index or product, the stream, the result region and the raw
region. `first` is the index its exposure starts at, above 0 only in a repair exposure (R75). -/
structure StreamRef where
  key : Nat
  addr : Nat
  count : Nat
  result : Nat
  raw : Nat
  rawKiB : Nat
  first : Nat
  checked : List (List Byte)
deriving DecidableEq, Repr

/-- The raw block that is being filled (R158, R159), oldest sample first: record, VTAG, sample time of the first sample,
the samples, the onset, CONTINUED, and window or full. A block that has no room in the region is `lost`: its `count` samples are not
stored (R160). -/
structure RawBlock where
  idx : Nat
  vtag : Nat
  first : Ns
  samples : List (Nat × Nat)
  onset : Option Nat
  continued : Bool
  full : Bool
  lost : Bool
  count : Nat
deriving DecidableEq, Repr

/-- Calibration trims of MAP (R125): positions, and GAIN and ROT in units of 2 ^ −23, with the cosine and sine of ROT in
units of 2 ^ −22, computed once per change. -/
structure Trims where
  ofsX : Int
  ofsY : Int
  gainX : Int
  gainY : Int
  rot : Int
  cosR : Int
  sinR : Int
deriving DecidableEq, Repr

/-- A working grid (R127) with the head temperature, the weight and the sets it was built from. -/
structure WorkGrid where
  grid : GridSet
  temp : Int
  weight : Nat
  low : Nat
  high : Nat
deriving DecidableEq, Repr

/-- A change of the correction (R129): new trims or a new working grid. -/
structure MapChange where
  trims : Option Trims
  grid : Option WorkGrid
deriving DecidableEq, Repr

/-- A blend in progress (R129): its start, T_BLEND in ns, and what it leads to. -/
structure Blend where
  start : Option Ns
  len : Nat
  change : MapChange
deriving DecidableEq, Repr

/-- MAP of a lane (TARN_LANE_MAP, R124 to R130). `gridSets` are the sets in force, those loaded by LANE_GRID_LOAD in
place of the profile's. -/
structure LaneMap where
  trims : Trims
  gridA : Option WorkGrid
  gridB : Option WorkGrid
  useB : Bool
  blend : Option Blend
  waiting : Option MapChange
  beta : Nat
  gridSets : List (Nat × GridSet)
deriving DecidableEq, Repr

/-- The melt-pool loop of a lane (TARN_LANE_LOOP, R142 to R160). `integ` is I in units of 2 ^ −23. `darkA`, `darkB` are in
use and move toward `darkToA`, `darkToB`; `darkAt` is when they last moved (R144). `acc` is the energy in units of
2 ^ −16 × 0.5 pJ carried to the next report (R165), `repStart` the start of the interval it covers, `repCell` its cell
where it lies in the grid, `lastReport` when the last report ended and `repOut` the reports that have not reached Mere.
`rawRun` is the on edge of the run of the last raw block in mode 2, `runKey` the on edge of the run of the last sample, `lastFb` the sample time of the last slot accounted for, and
`prevSpike` and `prevSat` say whether the last sample met SPIKE or SAT_PD. -/
structure Loop where
  tPred : Nat
  stale : Bool
  /-- the latest read of the field and whether it was stale (R147, R169) -/
  tRead : Nat
  readStale : Bool
  staleEpisode : Bool
  ref : Nat
  sig : Nat
  trim : Int
  integ : Int
  curve : Nat
  active : Bool
  blanking : Bool
  darkA : Nat
  darkB : Nat
  darkToA : Nat
  darkToB : Nat
  darkAt : Ns
  runHigh : Nat
  runLow : Nat
  runSat : Nat
  missing : Nat
  lastRead : Option Ns
  lastFb : Option Ns
  runKey : Option Ns
  rawRun : Option Ns
  prevSpike : Bool
  prevSat : Bool
  acc : Int
  repStart : Option Ns
  repCell : Option Nat
  lastReport : Ns
  repOut : List (Option Nat × Nat)
  raw : Option RawBlock
  ring : List (Ns × Nat × Nat × Nat × Nat)
  rawFull : Bool
deriving DecidableEq, Repr

/-- PROX_LANE (R189, R195, R197, R204), and a release of R197 that the next judgement takes. -/
structure ProxLane where
  effPrio : Nat
  inCycle : Bool
  rule : Nat
  remote : Bool
  blocker : Nat
  member : Nat
  released : Bool
  withdrawn : Bool
  /-- the hold of a request after a SYNC that is not released (R187, R195, R199) -/
  syncHold : Option Hold
  /-- the zones that the lane has used, each with the latest guard tick of a use and the first record of its run, for HOLDOFF and LAST
  (R189, R201) -/
  uses : List (Nat × Ns × Nat)
deriving DecidableEq, Repr

/-- A queued mark (R86): the descriptor, the product it is assigned to, the stream and its checked records. -/
structure Mark where
  ref : Ref
  product : Nat
  addr : Nat
  result : Nat
  count : Nat
  checked : List (List Byte)
deriving DecidableEq, Repr

/-- An emission interval (R123): its on edge, its off edge once that is sent, and the first and last record of its run. -/
structure Emit where
  on : Ns
  off : Option Ns
  first : Nat
  last : Nat
deriving DecidableEq, Repr

/-- One lane. `plan` holds the planning window and, before it, the records whose results are not written yet. `cur` are
the settings in force and `staged` those that the next motion record takes (R48). `planX`, `planY` is where the window
ends and `pos` the planned position of the last set-point issued (R601). `centreAt` is the launch time of the set-point of R601 that is not
sent yet, `gridNext` the next launch time of the set-point grid (R119). `runOn` is the on edge that was sent last while
its off edge is not, `runIdx` the first record of that run, or else the first record whose run has not been sent,
`prevOff` the last off edge, and `emits` the emission intervals that a sample may still lie in, newest first. `flight`
are the set-points sent, newest first, as far as a sample may still refer to them. `cut` says that the end of the plan is a stop of R101. `feSince` is since when the following error stands (R135),
`ended` when END was last reached and the record that a fault at that tick names (R138),
`headFault` the FAULT bit of the head as last reported, `mirX`, `mirY`, `pdA` and `pdB` the latest feedback (R314), and `curves` the curves that the stream was bound with (R179). `readUnderrun` to `readFe` are what reads have cleared of UNDERRUN,
VERDICT_LATE, DROPOUTS, ANOM_RECORDS and FE_PEAK, for the totals of R313. -/
structure Lane where
  state : LaneState
  slot : Bool
  excluded : Bool
  reenable : Bool
  deferMark : Option LimitSet
  deferJump : Option LimitSet
  /-- the record from which a latched change of limits applies, once it is known (R111) -/
  deferFrom : Option Nat
  ovrMark : Option LimitSet
  ovrJump : Option LimitSet
  code : Nat
  cause : Nat
  other : BitVec 16
  faultIndex : Nat
  faultTime : BitVec 64
  faultHiLatch : BitVec 32
  faultAt : Option Ns
  ended : Option (Ns × Nat)
  stream : Option StreamRef
  sets : List PSet
  fetchNext : Nat
  buf : List Fetched
  cur : Settings
  staged : Settings
  planX : Int
  planY : Int
  plan : List PRec
  cut : Bool
  stall : Option Nat
  pos : Option (Int × Int)
  gridNext : Ns
  centreAt : Option Ns
  runOn : Option Ns
  runIdx : Nat
  prevOff : Option Ns
  emits : List Emit
  clipped : Option Nat
  flight : List SetPt
  /-- beam-on records of a stream that has ended or was cut, with the address of their result: their last samples have not come (R155, R157) -/
  tail : List (PRec × Nat)
  /-- the beam-off of that stream -/
  tailEnd : Ns
  tailStream : Option StreamRef
  /-- the product whose mark is done once these records are written (R90) -/
  tailMark : Option Nat
  feSince : Option Ns
  headFault : Bool
  mirX : Int
  mirY : Int
  pdA : Nat
  pdB : Nat
  curves : List (Option Curve)
  hold : Option Hold
  holdNs : Nat
  records : Nat
  issueIndex : Nat
  underrun : BitVec 16
  resultStall : BitVec 16
  verdictLate : BitVec 16
  onDelayClipped : BitVec 16
  fePeak : BitVec 24
  setpoints : BitVec 32
  anomRecords : BitVec 16
  trimSatRecords : BitVec 16
  dropouts : BitVec 16
  pdSat : BitVec 16
  rawLost : BitVec 32
  rawBlocks : BitVec 32
  rawSeq : Nat
  map : LaneMap
  loop : Loop
  prox : ProxLane
  marks : List Mark
  marking : Option (Nat × Int)
  noData : Bool
  /-- counted since the start, for R208: requests judged at the latest guard tick -/
  judged : Nat
  readUnderrun : Nat
  readVerdictLate : Nat
  readDropouts : Nat
  readAnom : Nat
  readFe : Nat
deriving DecidableEq, Repr

/-- TARN_STAT and TARN_PANIC_COUNT (R99, R141): what is not in the Basin port of the tarn. -/
structure Tarn where
  panicCount : BitVec 32
deriving DecidableEq, Repr

def Trims.none : Trims := { ofsX := 0, ofsY := 0, gainX := 0, gainY := 0, rot := 0, cosR := 4194304, sinR := 0 }

def LaneMap.reset : LaneMap :=
  { trims := .none, gridA := none, gridB := none, useB := false, blend := none, waiting := none, beta := 0,
    gridSets := [] }

def Loop.reset : Loop :=
  { tPred := 0, stale := false, tRead := 0, readStale := false, staleEpisode := false, ref := 0, sig := 0, trim := 0, integ := 0, curve := 0,
    active := false, blanking := false, darkA := 0, darkB := 0, darkToA := 0, darkToB := 0, darkAt := 0, runHigh := 0,
    runLow := 0, runSat := 0, missing := 0, lastRead := none, lastFb := none, runKey := none, rawRun := none,
    prevSpike := false, prevSat := false, acc := 0, repStart := none, repCell := none, lastReport := 0, repOut := [],
    raw := none, ring := [], rawFull := false }

def ProxLane.reset : ProxLane :=
  { effPrio := 0, inCycle := false, rule := 0, remote := false, blocker := 0, member := 0, released := false,
    withdrawn := false, syncHold := none, uses := [] }

def Melt.none : Melt :=
  { samples := 0, blanked := 0, sum := 0, min := 0, max := 0, trimSum := 0, predSum := 0, first := 0, out := 0,
    anomaly := 0, rawWindow := false, rawLost := false }

def Lane.reset : Lane :=
  { state := .off, slot := false, excluded := false, reenable := false, deferMark := none, deferJump := none, deferFrom := none,
    ovrMark := none, ovrJump := none, code := 0, cause := 0, other := 0, faultIndex := 0, faultTime := 0,
    faultHiLatch := 0, faultAt := none, ended := none, stream := none, sets := [], fetchNext := 0, buf := [],
    cur := .start, staged := .start, planX := 0, planY := 0, plan := [], cut := false, stall := none, pos := none,
    gridNext := 0, centreAt := none, runOn := none, runIdx := 0, prevOff := none, emits := [], clipped := none, flight := [],
    tail := [], tailEnd := 0, tailStream := none, tailMark := none,
    feSince := none, headFault := false, mirX := 0, mirY := 0, pdA := 0, pdB := 0, curves := [], hold := none, holdNs := 0, records := 0, issueIndex := 0,
    underrun := 0, resultStall := 0, verdictLate := 0, onDelayClipped := 0, fePeak := 0, setpoints := 0,
    anomRecords := 0, trimSatRecords := 0, dropouts := 0, pdSat := 0, rawLost := 0, rawBlocks := 0, rawSeq := 0,
    map := .reset, loop := .reset, prox := .reset, marks := [], marking := none, noData := false, judged := 0,
    readUnderrun := 0, readVerdictLate := 0, readDropouts := 0, readAnom := 0, readFe := 0 }

def Tarn.reset : Tarn := { panicCount := 0 }

end Sys2Proof.Machine
end

