-- ==== Sys2Proof/Machine/Vectors.lean ====
section
/-! DEFINITION. Reading vector records and parameter sets (R44 to R56) and the codes of their errors (R58). -/

namespace Sys2Proof.Machine

/-! ### Fault codes (R58) -/

def fcType : Nat := 0x01
def fcReserved : Nat := 0x02
def fcField : Nat := 0x03
def fcPset : Nat := 0x04
def fcGeometry : Nat := 0x05
def fcSync : Nat := 0x06
def fcEnd : Nat := 0x07
def fcMode : Nat := 0x08
def fcEcc : Nat := 0x09
def fcNodeLost : Nat := 0x10
def fcEccRun : Nat := 0x11
def fcDataRun : Nat := 0x12
def fcPermit : Nat := 0x13
def fcSyncTimeout : Nat := 0x14
def fcSyncBroken : Nat := 0x15
def fcLane : Nat := 0x16
def fcArmLate : Nat := 0x17

/-- The type code of a record (R296). -/
def Vec.code : Vec → Nat
  | .jump _ _ _ _ => 0x01
  | .line _ _ _ _ => 0x02
  | .arc _ _ _ _ _ => 0x03
  | .dwell _ _ _ _ => 0x04
  | .select _ => 0x05
  | .limits _ _ _ _ _ => 0x05
  | .priority _ => 0x05
  | .waitTime _ _ => 0x06
  | .sync _ _ _ _ => 0x07
  | .tag _ _ => 0x08
  | .track _ _ _ _ _ => 0x09
  | .stop => 0x0F

/-- A motion record (R103). -/
def Vec.isMotion : Vec → Bool
  | .jump _ _ _ _ => true
  | .line _ _ _ _ => true
  | .arc _ _ _ _ _ => true
  | _ => false

/-- A standstill record (R103). -/
def Vec.isStandstill : Vec → Bool
  | .dwell _ _ _ _ => true
  | .waitTime _ _ => true
  | .sync _ _ _ _ => true
  | _ => false

/-- A waiting point (R84). -/
def Vec.isWait : Vec → Bool
  | .waitTime _ _ => true
  | .sync _ _ _ _ => true
  | _ => false

/-- The beam is on during LINE, ARC and DWELL with BEAM_OFF clear (R121). -/
def Vec.beamOn : Vec → Bool
  | .line _ _ _ _ => true
  | .arc _ _ _ _ _ => true
  | .dwell off _ _ _ => !off
  | _ => false

/-- POWER under POWER_OVR. -/
def Vec.power : Vec → Option Nat
  | .line _ _ _ o => o.power
  | .arc _ _ _ _ o => o.power
  | .dwell _ p _ _ => p
  | _ => none

/-- Z_OFS of a record (R45, R47). -/
def Vec.zOfs : Vec → Int
  | .jump _ _ z _ => z
  | .line _ _ z _ => z
  | .arc _ _ z _ _ => z
  | .dwell _ _ _ z => z
  | _ => 0

/-- SPEED and CORNER_STOP of a motion record. -/
def Vec.opt : Vec → VecOpt
  | .jump _ _ _ o => o
  | .line _ _ _ o => o
  | .arc _ _ _ _ o => o
  | _ => { power := none, speed := none, cornerStop := false }

/-- Bytes `lo` to `hi` are 0. -/
def zeroIn (b : List Byte) (lo hi : Nat) : Bool := allZero ((b.drop lo).take (hi + 1 - lo))

/-- The options of bytes 1 to 3 and 16 to 19 (R45). -/
def vecOpt (b : List Byte) : VecOpt :=
  let fl := field b 1 1
  { power := if bit fl 1 then some (field b 2 2) else none
    speed := if bit fl 0 then some (field b 16 4) else none
    cornerStop := bit fl 2 }

/-- What a LINE or an ARC must meet in its flags and speed (R44, R45). -/
def motionOk (b : List Byte) (mask : Nat) : Bool :=
  let fl := field b 1 1
  decide (fl &&& (255 - mask) = 0) && !(bit fl 0 && field b 16 4 == 0)

/-- A vector record from its 32 bytes, or the code of its error (R44 to R54, R58). Positions, geometry, SYNC rules and
parameter sets are checked apart. -/
def readVec (b : List Byte) : Except Nat Vec :=
  match field b 0 1 with
  | 0x01 =>
    if motionOk b 5 && zeroIn b 2 3 && zeroIn b 20 27 then
      .ok (.jump (fieldS b 4 4) (fieldS b 8 4) (fieldS b 12 4) (vecOpt b))
    else .error fcReserved
  | 0x02 =>
    if motionOk b 7 && zeroIn b 20 27 then
      .ok (.line (fieldS b 4 4) (fieldS b 8 4) (fieldS b 12 4) (vecOpt b))
    else .error fcReserved
  | 0x03 =>
    if motionOk b 7 && zeroIn b 24 27 then
      .ok (.arc (fieldS b 4 4) (fieldS b 8 4) (fieldS b 12 4) (fieldS b 20 4) (vecOpt b))
    else .error fcReserved
  | 0x04 =>
    let fl := field b 1 1
    if decide (fl < 4) && zeroIn b 8 11 && zeroIn b 16 27 && decide (5 ≤ field b 4 4) then
      .ok (.dwell (bit fl 0) (if bit fl 1 then some (field b 2 2) else none) (field b 4 4) (fieldS b 12 4))
    else .error fcReserved
  | 0x05 =>
    match field b 1 1 with
    | 0 =>
      if !zeroIn b 3 27 then .error fcReserved
      else if 63 < field b 2 1 then .error fcPset else .ok (.select (field b 2 1))
    | 1 =>
      let c := field b 2 1
      if zeroIn b 3 3 && zeroIn b 16 27 && decide (c < 4) && c != 0 then
        .ok (.limits (bit c 0) (bit c 1) (field b 4 4) (field b 8 4) (field b 12 4))
      else .error fcReserved
    | 2 =>
      if zeroIn b 3 27 && decide (field b 2 1 < 16) then .ok (.priority (field b 2 1)) else .error fcReserved
    | _ => .error fcReserved
  | 0x06 =>
    if decide (field b 1 1 < 2) && zeroIn b 2 3 && zeroIn b 12 27 then
      .ok (.waitTime (bit (field b 1 1) 0) (field b 4 8))
    else .error fcReserved
  | 0x07 =>
    if !(decide (field b 1 1 < 2) && zeroIn b 5 7 && zeroIn b 24 27) then .error fcReserved
    else if field b 2 2 = 0 then .error fcReserved
    else .ok (.sync (bit (field b 1 1) 0) (field b 2 2) (field b 4 1) (BitVec.ofNat 128 (field b 8 16)))
  | 0x08 =>
    if zeroIn b 1 1 && zeroIn b 24 27 then .ok (.tag (field b 4 4) (field b 8 4)) else .error fcReserved
  | 0x09 =>
    match field b 1 1 with
    | 0 => if zeroIn b 2 27 then .ok (.track false 0 0 0 0) else .error fcReserved
    | 1 =>
      if decide (field b 2 1 < 16) && zeroIn b 3 3 && zeroIn b 12 27 then
        .ok (.track true (field b 2 1) (fieldS b 4 4) (fieldS b 8 2) (fieldS b 10 2))
      else .error fcReserved
    | _ => .error fcReserved
  | 0x0F => if zeroIn b 1 31 then .ok .stop else .error fcReserved
  | _ => .error fcType

/-- VTAG (R44). -/
def vtagOf (b : List Byte) : Nat := field b 28 4

/-- A parameter set from its 64 bytes (R55). -/
def readPSet (b : List Byte) : PSet :=
  let fl := field b 2 2
  { power := field b 0 2, valid := bit fl 0, loopEn := bit fl 1, ffEn := bit fl 2, rawMode := bits fl 3 2
    mark := { accel := field b 12 4, jerk := field b 20 4, speed := field b 4 4 }
    jump := { accel := field b 16 4, jerk := field b 24 4, speed := field b 8 4 }
    onDelay := fieldS b 28 4, offDelay := fieldS b 32 4, focusOfs := fieldS b 36 4, cornerTol := field b 40 4
    curve := field b 44 1, trimLimit := field b 46 2 }

/-- Every field of a class is above 0 (R55). -/
def Limits.ok (l : Limits) : Bool := decide (0 < l.accel) && decide (0 < l.jerk) && decide (0 < l.speed)

/-- A set may be selected (code PSET of R58): VALID, in range, reserved bytes 0, TRIM_LIMIT up to 32,767 (R150), no
speed above PEER_VMAX in a machine of several members (R192), and a defined curve where it uses one (R371). -/
def psetOk (b : List Byte) (vmax : Option Nat) (curveDefined : Nat → Bool) : Bool :=
  let p := readPSet b
  let delayOk := fun d : Int => decide (-50000 ≤ d) && decide (d ≤ 50000)
  let vOk := fun v : Nat => match vmax with | some m => decide (v ≤ m) | none => true
  p.valid && decide (field b 2 2 < 32) && p.rawMode != 3 && zeroIn b 45 45 && zeroIn b 48 63 && p.mark.ok && p.jump.ok
    && delayOk p.onDelay && delayOk p.offDelay && decide (p.curve < 32) && decide (p.trimLimit ≤ 32767)
    && vOk p.mark.speed && vOk p.jump.speed && (!(p.loopEn || p.ffEn) || curveDefined p.curve)

/-- The settings after a record (R48, R49, R53). SELECT ends a LIMITS change. -/
def Settings.after (g : Settings) : Vec → Settings
  | .select k => { g with set := k, mark := .none, jump := .none }
  | .limits m j a jk v =>
    let upd := fun l : LimitSet =>
      { accel := if a = 0 then l.accel else a, jerk := if jk = 0 then l.jerk else jk,
        speed := if v = 0 then l.speed else v : LimitSet }
    { g with mark := if m then upd g.mark else g.mark, jump := if j then upd g.jump else g.jump }
  | .priority p => { g with priority := some p }
  | .track on e sc x y => { g with track := if on then some (e, sc, x, y) else none }
  | _ => g

/-- A limit lowered by a change; 0 keeps it and a larger value has no effect (R49, R104, R140). -/
def lower (v c : Nat) : Nat := if c = 0 then v else min v c

def Limits.lower (l : Limits) (c : LimitSet) : Limits :=
  { accel := Machine.lower l.accel c.accel, jerk := Machine.lower l.jerk c.jerk, speed := Machine.lower l.speed c.speed }

/-- The end of an arc (R46), rounded by R9. -/
def arcEnd (x y cx cy sweep : Int) : Int × Int :=
  let (dx, dy) := turn (microRad sweep) (x - cx) (y - cy)
  (cx + dx, cy + dy)

/-- A position lies inside the square field of a beam (R59, R368). -/
def inField (r : Int × Int × Nat) (x y : Int) : Bool :=
  decide ((x - r.1).natAbs ≤ r.2.2) && decide ((y - r.2.1).natAbs ≤ r.2.2)

/-- The quarter of the plane that holds the direction (x, y); each quarter holds the axis it begins at. -/
def quadrant (x y : Int) : Nat :=
  if 0 < x ∧ 0 ≤ y then 0 else if x ≤ 0 ∧ 0 < y then 1 else if x < 0 ∧ y ≤ 0 then 2 else 3

/-- The sweep from (dx, dy) by `sweep` µrad reaches the k-th axis direction that follows in the sense of the sweep, `k`
from 1 to 4. The start is turned back into the first quarter; there the first axis is +Y, and each further axis lies a
quarter turn on. -/
def passesAxis (dx dy sweep : Int) (k : Nat) : Bool :=
  let pos := decide (0 < sweep)
  let (ux, uy) := if pos then (dx, dy) else (dx, -dy)
  let q := quadrant ux uy
  -- the start in its own quadrant: (a, b) with a > 0 and b ≥ 0
  let (a, b) := match q with | 0 => (ux, uy) | 1 => (uy, -ux) | 2 => (-ux, -uy) | _ => (-uy, ux)
  -- the quarter turns already inside the sweep
  let s := sweep.natAbs
  let quarter : Nat := 1570796
  let rest : Int := (s : Int) - ((k - 1) * quarter : Nat)
  -- after `rest` µrad from (a, b) the direction has passed +Y when its X is at most 0
  decide (0 < rest) && (decide ((quarter : Int) ≤ rest) || decide ((turn (microRad rest) a b).1 ≤ 0))

/-- The extreme points in X and Y that an arc passes (R59), outward to a whole LSB: such a point lies outside a field exactly where the
arc's own extreme does. -/
def arcExtremes (x y cx cy sweep : Int) : List (Int × Int) :=
  let dx := x - cx
  let dy := y - cy
  let n := (dx * dx + dy * dy).toNat
  let r : Int := if isqrt n * isqrt n = n then (isqrt n : Int) else (isqrt n : Int) + 1
  let q := quadrant dx (if 0 < sweep then dy else -dy)
  ([1, 2, 3, 4].filter fun k => passesAxis dx dy sweep k).map fun k =>
    match (q + k) % 4 with
    | 0 => (cx + r, cy)
    | 1 => (cx, if 0 < sweep then cy + r else cy - r)
    | 2 => (cx - r, cy)
    | _ => (cx, if 0 < sweep then cy - r else cy + r)

/-- The error of an ARC from a known start (R58, R59). -/
def arcError (fld : Int × Int × Nat) (x y cx cy sweep : Int) : Option Nat :=
  let (ex, ey) := arcEnd x y cx cy sweep
  if (x - cx) * (x - cx) + (y - cy) * (y - cy) < 10000 then some fcGeometry
  else if !inField fld ex ey || (arcExtremes x y cx cy sweep).any (fun p => !inField fld p.1 p.2) then some fcField
  else none

/-- The error of a record against the beam's field and its start, where the start is known (R58, R59). -/
def geomError (fld : Int × Int × Nat) (start : Option (Int × Int)) : Vec → Option Nat
  | .jump x y _ _ => if !inField fld x y then some fcField else if start == some (x, y) then some fcGeometry else none
  | .line x y _ _ => if !inField fld x y then some fcField else if start == some (x, y) then some fcGeometry else none
  | .arc cx cy _ sw _ =>
    if sw = 0 || 6283185 < sw.natAbs then some fcGeometry
    else if !inField fld cx cy then some fcField
    else match start with
      | some (x, y) => arcError fld x y cx cy sw
      | none => none
  | _ => none

/-- The position after a record, where it is known. An arc has an end point once its start is known. -/
def endOf (start : Option (Int × Int)) : Vec → Option (Int × Int)
  | .jump x y _ _ => some (x, y)
  | .line x y _ _ => some (x, y)
  | .arc cx cy _ sw _ => start.map fun p => arcEnd p.1 p.2 cx cy sw
  | _ => start

end Sys2Proof.Machine
end

