-- ==== Sys2Proof/Machine/Planner.lean ====
section
/-! DEFINITION. The planner of a lane (R103 to R115) on a plain list of records: ramps, profiles, junction speeds,
stopping branches and the edges of beam-on runs. Speeds are whole µm/s, distances position LSB and times ns, so that a
phase that is a whole number of ticks comes out whole (log 21). -/

namespace Sys2Proof.Machine

/-- The largest n below 2 ^ bits with `p`, where `p` holds up to some point and not beyond it. -/
def maxSat (p : Nat → Bool) : Nat → Nat → Nat
  | 0, r => r
  | k + 1, r => if p (r + 2 ^ k) then maxSat p k (r + 2 ^ k) else maxSat p k r

/-! ### Ramps (R105) -/

/-- Phases tj and ta of a ramp over a speed change `dv` (µm/s) under limits a (mm/s²) and j (m/s³), in ns. -/
def rampTimes (dv : F64) (a j : Nat) : F64 × F64 :=
  let fa := F64.ofNat a
  let fj := F64.ofNat j
  if dv.m = 0 then (.zero, .zero)
  else if ((fa.mul fa).div fj).le dv then
    let tj := (F64.ofNat (a * 1000000)).div fj
    (tj, ((dv.mul (F64.ofNat 1000000)).div fa).sub tj)
  else (((dv.mul (F64.ofNat 1000000000000)).div fj).sqrt, .zero)

/-- 2 tj + ta. -/
def rampLen (p : F64 × F64) : F64 := (p.1.add p.1).add p.2

/-- (v0 + v1) / 2 × t in position LSB: µm/s × ns is 10⁻⁷ LSB. -/
def rampDistOf (v0 v1 t : F64) : F64 :=
  (((v0.add v1).div (F64.ofNat 2)).mul t).div (F64.ofNat 10000000)

/-- The distance of the ramp between two speeds. -/
def rampDist (v0 v1 : Nat) (l : Limits) : F64 :=
  rampDistOf (F64.ofNat v0) (F64.ofNat v1)
    (rampLen (rampTimes (F64.ofNat (if v0 < v1 then v1 - v0 else v0 - v1)) l.accel l.jerk))

/-- The largest speed up to `cap` that a ramp reaches from v0 within `len` (R107). -/
def reach (v0 : Nat) (len : F64) (l : Limits) (cap : Nat) : Nat :=
  if cap ≤ v0 then cap
  else v0 + maxSat (fun d => decide (v0 + d ≤ cap) && (rampDist v0 (v0 + d) l).le len) 33 0

/-! ### Profiles (R106, R108) -/

/-- Distance, speed and acceleration `t` ns into a phase. -/
def Seg.at (g : Seg) (t : F64) : F64 × F64 × F64 :=
  let two := F64.ofNat 2
  let tt := t.mul t
  let v := (g.v0.add (g.a0.mul t)).add ((g.j.mul tt).div two)
  let s := ((g.v0.mul t).add ((g.a0.mul tt).div two)).add ((g.j.mul (tt.mul t)).div (F64.ofNat 6))
  (g.s0.add (s.div (F64.ofNat 10000000)), v, g.a0.add (g.j.mul t))

/-- Phases one after another: each given by its duration, its acceleration at the start and its jerk. -/
def chain (t0 s0 v0 : F64) : List (F64 × F64 × F64) → List Seg
  | [] => []
  | (d, a, j) :: ps =>
    let g : Seg := { t0 := t0, dur := d, s0 := s0, v0 := v0, a0 := a, j := j }
    let e := g.at d
    g :: chain (t0.add d) e.1 e.2.1 ps

/-- The three phases of a ramp with its durations: the jerk is dv / (tj (tj + ta)) (R108). -/
def rampPhases (dv : F64) (p : F64 × F64) : List (F64 × F64 × F64) :=
  if p.1.m = 0 then []
  else
    let j := dv.div (p.1.mul (p.1.add p.2))
    let a := j.mul p.1
    [(p.1, .zero, j), (p.2, a, .zero), (p.1, a, j.neg)]

/-- The three phases of a ramp whose first phase ends on a tick that its start missed (R108): the acceleration between
the two jerk phases is dv / (j1 / 2 + a + j2 / 2). -/
def rampPhases3 (dv j1 a j2 : F64) : List (F64 × F64 × F64) :=
  if j1.m = 0 then []
  else
    let two := F64.ofNat 2
    let acc := dv.div (((j1.div two).add a).add (j2.div two))
    [(j1, .zero, acc.div j1), (a, acc, .zero), (j2, acc, (acc.div j2).neg)]

/-- The time that a unit of speed change of such a ramp counts for its distance: half its length where it is
symmetric. -/
def rampShare (j1 a j2 : F64) : F64 :=
  if j1.m = 0 then .zero
  else
    let two := F64.ofNat 2
    let n := ((j1.div two).add a).add (j2.div two)
    let d1 := (j1.mul j1).div (F64.ofNat 6)
    let d2 := ((j1.div two).mul a).add ((a.mul a).div two)
    let d3 := (((j1.div two).add a).mul j2).add ((j2.mul j2).div (F64.ofNat 3))
    ((d1.add d2).add d3).div n

/-- `d` ns rounded up to whole lane ticks (R108). -/
def upTick (d : F64) : F64 := F64.ofInt (((d.div (F64.ofNat 5)).ceil) * 5)

/-- Rounds the phases of a record up to whole ticks; the first of them that is not 0 ends on a tick, `frac` being where
in a tick it starts (R108). -/
def roundPhases (frac : F64) : List F64 → List F64
  | [] => []
  | d :: ds =>
    if d.m = 0 then d :: roundPhases frac ds
    else (upTick (frac.add d)).sub frac :: roundPhases .zero ds

/-- The peak speed (R106): the largest up to the limit for which both ramps fit. -/
def peakSpeed (len : F64) (vIn vOut : Nat) (l : Limits) : Nat :=
  let lo := max vIn vOut
  if l.speed ≤ lo then lo
  else lo + maxSat (fun d => decide (lo + d ≤ l.speed) &&
    ((rampDist vIn (lo + d) l).add (rampDist (lo + d) vOut l)).le len) 33 0

/-- The phases of a motion record that starts at distance 0 (R106, R108), with its duration. -/
def profile (len : F64) (vIn vOut : Nat) (l : Limits) (frac : F64) : List Seg × F64 :=
  if len.m = 0 then ([], .zero)
  else
    let vp := peakSpeed len vIn vOut l
    let fi := F64.ofNat vIn
    let fo := F64.ofNat vOut
    let fp := F64.ofNat vp
    let up := rampTimes (fp.sub fi) l.accel l.jerk
    let dn := rampTimes (fp.sub fo) l.accel l.jerk
    let rest := (len.sub (rampDistOf fi fp (rampLen up))).sub (rampDistOf fp fo (rampLen dn))
    let tc := if rest.m ≤ 0 || vp = 0 then F64.zero else (rest.mul (F64.ofNat 10000000)).div fp
    let whole := roundPhases frac [up.1, up.2, up.1, tc, dn.1, dn.2, dn.1]
    let free := chain .zero .zero fi (rampPhases (fp.sub fi) up ++ [(tc, .zero, .zero)] ++ rampPhases (fo.sub fp) dn)
    let freeDur := ((rampLen up).add tc).add (rampLen dn)
    match whole with
    | [j1, a1, j1', c, j2, a2, j2'] =>
      let two := F64.ofNat 2
      let full := len.mul (F64.ofNat 10000000)
      let vp' :=
        if frac.m = 0 then
          let ta := rampLen (j1, a1)
          let td := rampLen (j2, a2)
          ((full.sub ((fi.mul ta).div two)).sub ((fo.mul td).div two)).div (((ta.div two).add c).add (td.div two))
        else
          let t1 := (j1.add a1).add j1'
          let t2 := (j2.add a2).add j2'
          let w1 := rampShare j1 a1 j1'
          let w2 := rampShare j2 a2 j2'
          ((full.sub (fi.mul (t1.sub w1))).sub (fo.mul w2)).div ((w1.add c).add (t2.sub w2))
      if vp'.lt fi || vp'.lt fo then (free, freeDur)
      else
        (chain .zero .zero fi (rampPhases3 (vp'.sub fi) j1 a1 j1' ++ [(c, .zero, .zero)] ++ rampPhases3 (fo.sub vp') j2 a2 j2'),
          ((((((j1.add a1).add j1').add c).add j2).add a2).add j2'))
    | _ => (free, freeDur)

/-! ### Directions and junctions (R107) -/

/-- The direction in which a motion record begins. -/
def PRec.dirIn (r : PRec) : Int × Int :=
  match r.vec with
  | .arc cx cy _ sw _ =>
    let (dx, dy) := (r.x0 - cx, r.y0 - cy)
    if 0 < sw then (-dy, dx) else (dy, -dx)
  | _ => (r.x1 - r.x0, r.y1 - r.y0)

/-- The direction in which it ends: that of an arc is the tangent at its end, the start's radius turned by SWEEP. -/
def PRec.dirOut (r : PRec) : Int × Int :=
  match r.vec with
  | .arc cx cy _ sw _ =>
    let c := cosFix (microRad sw)
    let s := sinFix (microRad sw)
    let (dx, dy) := (c * (r.x0 - cx) - s * (r.y0 - cy), s * (r.x0 - cx) + c * (r.y0 - cy))
    if 0 < sw then (-dy, dx) else (dy, -dx)
  | _ => (r.x1 - r.x0, r.y1 - r.y0)

/-- The corner speed between two motion records in µm/s, none where the path goes straight on (R107). -/
def cornerSpeed (r n : PRec) : Option Nat :=
  let (ax, ay) := r.dirOut
  let (bx, b_y) := n.dirIn
  let dot := ax * bx + ay * b_y
  let cross := ax * b_y - ay * bx
  if r.vec.opt.cornerStop then some 0
  else if cross = 0 then (if 0 < dot then none else some 0)
  else
    let la := (F64.ofInt (ax * ax + ay * ay)).sqrt
    let lb := (F64.ofInt (bx * bx + b_y * b_y)).sqrt
    let one := F64.ofNat 1
    let c := (F64.ofInt dot).div (la.mul lb)
    let h := ((one.add c).div (F64.ofNat 2)).sqrt
    let k := F64.ofNat (10 * min r.lim.accel n.lim.accel * n.set.cornerTol)
    let v := (((k.mul h).div (one.sub h)).sqrt).floor.toNat
    if one.le h then none else some v

/-- The cap of the junction between two records: their speed limits and the corner (R107); 0 unless both are motion. -/
def junctionCap (r n : PRec) : Nat :=
  if r.vec.isMotion && n.vec.isMotion then
    let c := min r.lim.speed n.lim.speed
    match cornerSpeed r n with | some v => min c v | none => c
  else 0

/-- SET, TAG and TRACK take no time and no distance (R103). -/
def PRec.passes (r : PRec) : Bool := !r.vec.isMotion && !r.vec.isStandstill && r.vec != .stop

/-- The first record that takes part in motion. -/
def nextActive : List PRec → Option PRec
  | [] => none
  | r :: rs => if r.passes then nextActive rs else some r

/-- Backward pass (R107): for each record the largest speed at its end, and for the list the largest speed at its
start. A frozen junction keeps its speed (R116). `caps` bounds the entries of records that may not be raised (R115). -/
def backPass (caps : List (Nat × Nat)) : List PRec → List (PRec × Nat) × Nat
  | [] => ([], 0)
  | r :: rs =>
    let (out, vNext) := backPass caps rs
    if r.passes then ((r, vNext) :: out, vNext)
    else if r.vec.isMotion then
      let vOut := match nextActive rs with
        | some n => if n.fixed then n.vIn else min (junctionCap r n) vNext
        | none => 0
      let vin := reach vOut r.len r.lim r.lim.speed
      let vin := match caps.find? fun c => c.1 = r.idx with | some c => min vin c.2 | none => vin
      ((r, vOut) :: out, if r.fixed then r.vIn else vin)
    else ((r, 0) :: out, 0)

/-- Where a span of `d` ns ends that starts `frac` after `start`: the tick and the rest (R108). -/
def advance (start : Ns) (frac d : F64) : Ns × F64 :=
  let x := frac.add d
  let n := (x.div (F64.ofNat 5)).floor.toNat
  (start + 5 * n, x.sub (F64.ofNat (5 * n)))

/-- Where a record ends. -/
def PRec.endAt (r : PRec) : Ns × F64 := advance r.start r.frac r.dur

/-- The first tick at or after the end of a record. -/
def PRec.endTick (r : PRec) : Ns := let e := r.endAt; if e.2.m = 0 then e.1 else e.1 + 5

/-- The end of a waiting point's standstill: its target or release, once known; before that it is planned without a wait
(R50, R81, R82). `tor` and `l` turn a WAIT_TIME's target into PTP time. -/
def waitEnd (tor l : Ns) (r : PRec) (arr : Ns) : Ns :=
  match r.vec with
  | .waitTime rel t => alignUp (max arr ((if rel then l else tor) + t)) 5
  | .sync _ _ _ _ => match r.release with | some x => x | none => arr
  | _ => arr

/-- Forward pass and timing (R106 to R109): speeds, profiles and starts one after another from `start`. -/
def timeFrom (tor l : Ns) : Ns → F64 → Nat → List (PRec × Nat) → List PRec
  | _, _, _, [] => []
  | start, frac, v, (r, vMax) :: rs =>
    if r.vec.isMotion then
      let vOut := min vMax (reach v r.len r.lim r.lim.speed)
      let (segs, dur) := profile r.len v vOut r.lim frac
      let r' := { r with vIn := v, vOut := vOut, start := start, frac := frac, segs := segs, dur := dur }
      let e := r'.endAt
      r' :: timeFrom tor l e.1 e.2 vOut rs
    else if r.passes then
      { r with vIn := v, vOut := v, start := start, frac := frac, segs := [], dur := .zero } :: timeFrom tor l start frac v rs
    else
      let arr := if frac.m = 0 then start else start + 5
      let dur := match r.vec with
        | .dwell _ _ d _ => alignUp d 5
        | _ => waitEnd tor l r arr - arr
      { r with vIn := 0, vOut := 0, start := arr, frac := .zero, segs := [], dur := F64.ofNat dur,
               waitLate := (match r.vec with
                 | .waitTime rel t => decide ((if rel then l else tor) + t < arr)
                 | _ => false) }
        :: timeFrom tor l (arr + dur) .zero 0 rs

/-- The records planned again from `start` with entry speed `v`. -/
def replan (tor l : Ns) (caps : List (Nat × Nat)) (start : Ns) (frac : F64) (v : Nat) (rs : List PRec) : List PRec :=
  timeFrom tor l start frac v (backPass caps rs).1

/-- No cap on any record. -/
def noCap : List (Nat × Nat) := []

/-! ### Positions -/

/-- The phase in which a record is `t` ns after its start. -/
def segAt (t : F64) : List Seg → Option Seg
  | [] => none
  | g :: gs =>
    match gs with
    | [] => some g
    | h :: _ => if h.t0.le t then segAt t gs else some g

/-- Distance, speed and acceleration along a record `t` ns after its start. -/
def PRec.motionAt (r : PRec) (t : F64) : F64 × F64 × F64 :=
  match segAt t r.segs with
  | none => (r.len, .zero, .zero)
  | some g =>
    let dt := t.sub g.t0
    if g.dur.lt dt then
      let e := g.at g.dur
      (if r.len.lt e.1 then r.len else e.1, e.2.1, .zero)
    else
      let e := g.at (if dt.m < 0 then .zero else dt)
      (if r.len.lt e.1 then r.len else e.1, e.2.1, e.2.2)

/-- The planned position `s` along a record, rounded by R9. -/
def PRec.pointAt (r : PRec) (s : F64) : Int × Int :=
  if r.len.m = 0 then (r.x1, r.y1)
  else
    let w := (s.div r.len).toFix
    match r.vec with
    | .arc cx cy _ sw _ =>
      if r.len.le s then (r.x1, r.y1)
      else
        let (dx, dy) := turn (w * microRad sw / fixOne) (r.x0 - cx) (r.y0 - cy)
        (cx + dx, cy + dy)
    | _ => (lerp r.x0 r.x1 w (2 ^ 64), lerp r.y0 r.y1 w (2 ^ 64))

/-- ns from a record's start to time t. -/
def PRec.since (r : PRec) (t : Ns) : F64 := (F64.ofInt ((t : Int) - (r.start : Int))).sub r.frac

/-- The planned position of one record at time t. -/
def PRec.posAt (r : PRec) (t : Ns) : Int × Int :=
  if r.vec.isMotion then r.pointAt (r.motionAt (r.since t)).1 else (r.x1, r.y1)

/-- The record that covers time t: the last that starts at or before it, the first where none does. -/
def recAt (t : Ns) : List PRec → Option PRec
  | [] => none
  | r :: rs =>
    match rs with
    | [] => some r
    | n :: _ => if n.start < t || (n.start = t && n.frac.m = 0) then recAt t rs else some r

/-- The planned position at time t along a plan. -/
def planPos (ps : List PRec) (t : Ns) : Option (Int × Int) := (recAt t ps).map fun r => r.posAt t

/-! ### Stopping branches (R115) -/

/-- The distance that phases from speed v cover. -/
def phasesDist (v : F64) (ps : List (F64 × F64 × F64)) : F64 :=
  (chain .zero .zero v ps).foldl (fun s g => let e := g.at g.dur; if s.lt e.1 then e.1 else s) F64.zero

/-- The ramp from a speed down to `u`, its phases rounded up to whole ticks and rescaled to its speed change (R108). -/
def stopRamp (v u : F64) (l : Limits) : List (F64 × F64 × F64) :=
  if v.le u then []
  else
    let p := rampTimes (v.sub u) l.accel l.jerk
    rampPhases (u.sub v) (upTick p.1, upTick p.2)

/-- The phases of a deceleration to speed `u` from speed v and acceleration a0 under limits, and their distance, where `room` is left
of the record. One from a cruise goes on with the cruise for what the ramp leaves of the room; one from an accelerating
phase first takes its acceleration away; one from a decelerating phase goes on with the ramp that it lies in, which is
stretched over the room (log 21). -/
def stopPhases (v a0 u : F64) (l : Limits) (room : F64) : List (F64 × F64 × F64) × F64 :=
  let jl := (F64.ofNat l.jerk).div (F64.ofNat 1000000000000)
  let two := F64.ofNat 2
  let rest := fun (dist w : F64) =>
    if w.m ≤ 0 || room.le dist then F64.zero else ((room.sub dist).mul (F64.ofNat 10000000)).div w
  if a0.m < 0 then
    let tv := a0.neg.div jl
    let top := v.add ((a0.mul a0).div (jl.add jl))
    match rampPhases (u.sub top) (rampTimes (top.sub u) l.accel l.jerk) with
    | (d, _, j) :: ps =>
      let ps := (if tv.lt d then d.sub tv else .zero, a0, j) :: ps
      (ps, phasesDist v ps)
    | [] => ([], .zero)
  else if a0.m = 0 then
    let ramp := stopRamp v u l
    let dist := phasesDist v ramp
    ((rest dist v, .zero, .zero) :: ramp, dist)
  else
    let tv := upTick (a0.div jl)
    let top := v.add ((a0.mul tv).div two)
    let lead : F64 × F64 × F64 := (tv, a0, (a0.div tv).neg)
    let ramp := stopRamp top u l
    let dist := phasesDist v (lead :: ramp)
    (lead :: (rest dist top, .zero, .zero) :: ramp, dist)

/-- Phases whose distance is stretched to `room` (log 21). -/
def stretch (dist room : F64) (gs : List Seg) : List Seg :=
  if dist.m ≤ 0 then gs
  else
    let k := room.div dist
    gs.map fun g => { g with s0 := g.s0.mul k, v0 := g.v0.mul k, a0 := g.a0.mul k, j := g.j.mul k }

/-- The speeds at which the stopping branch leaves each of the records before the one where it stands, by the backward pass of R107 from
standstill with each record's own limits and never above the GO branch, and the speed at the start of the list (R115). -/
def stopSpeeds : List PRec → List (PRec × Nat) × Nat
  | [] => ([], 0)
  | r :: rs =>
    let (out, v) := stopSpeeds rs
    if r.passes then ((r, v) :: out, v)
    else if r.vec.isMotion then ((r, v) :: out, min r.vIn (reach v r.len r.lim r.lim.speed))
    else ((r, 0) :: out, 0)

/-- The first tick at or after the start of a record. -/
def PRec.firstTick (r : PRec) : Ns := if r.frac.m = 0 then r.start else r.start + 5

/-- What leaving the GO branch at time t of record r leads to: its phases to speed `u` at the end of r with their distance, what is left
of r, and the acceleration at t. -/
def leaveAt (r : PRec) (u : Nat) (t : Ns) : (List (F64 × F64 × F64) × F64) × F64 × F64 :=
  let m := r.motionAt (r.since t)
  let room := r.len.sub m.1
  (stopPhases m.2.1 m.2.2 (F64.ofNat u) r.lim room, room, m.2.2)

/-- The lane can still come down to speed `u` at the end of record r when it leaves the plan at time t. -/
def canLeave (r : PRec) (u : Nat) (t : Ns) : Bool :=
  let x := leaveAt r u t
  x.1.2.le x.2.1

/-- Where the stopping branch for record k leaves the GO branch (R115): the latest record in which it can, with the speed at its end,
and the latest tick of it. -/
def leavePoint (ps : List PRec) (k : Nat) : Option (PRec × Nat × Ns) :=
  let xs := (stopSpeeds (ps.filter fun r => decide (r.idx < k))).1.filter fun x => x.1.vec.isMotion
  (xs.reverse.find? fun x => decide (x.1.firstTick ≤ x.1.endAt.1) && canLeave x.1 x.2 x.1.firstTick).map fun x =>
    let t0 := x.1.firstTick
    (x.1, x.2, t0 + 5 * maxSat (fun n => decide (t0 + 5 * n ≤ x.1.endAt.1) && canLeave x.1 x.2 (t0 + 5 * n)) 40 0)

/-- t_b(k) (R115): the latest tick from which the lane stops at the start of record k. -/
def branchTime (ps : List PRec) (k : Nat) : Ns :=
  match ps.find? (fun r => r.idx = k), ps.head? with
  | some r, some h =>
    if r.vIn = 0 then r.start
    else match leavePoint ps k with
      | some x => x.2.2
      | none => h.start
  | _, _ => 0

/-- The stopping branch for record k (R115): the records before k with the ones from t_b on timed anew under R106 to R108, and when the
lane stands at the start of k. -/
def stoppingBranch (ps : List PRec) (k : Nat) : List PRec × Ns :=
  let before := ps.filter fun r => decide (r.idx < k)
  let startK := match ps.find? (fun r => r.idx = k) with | some r => r.firstTick | none => 0
  match ps.find? (fun r => r.idx = k) with
  | none => (before, startK)
  | some rk =>
    if rk.vIn = 0 then (before, startK)
    else
      match leavePoint ps k with
      | none => (before, startK)
      | some (rb, u, tb) =>
        let (stop, room, a) := leaveAt rb u tb
        let gs := (if a.m < 0 then stretch stop.2 room else id) (chain .zero .zero (rb.motionAt (rb.since tb)).2.1 stop.1)
        let total := stop.1.foldl (fun t p => t.add p.1) F64.zero
        let tau := rb.since tb
        let sb := rb.len.sub room
        let old := rb.segs.filter fun g => g.t0.lt tau
        let new := gs.map fun g => { g with t0 := g.t0.add tau, s0 := g.s0.add sb }
        let whole := if u = 0 then upTick total else total
        let rb' := { rb with segs := old ++ new, dur := tau.add whole, vOut := u }
        let e := advance tb .zero whole
        let later := timeFrom 0 0 e.1 e.2 u ((stopSpeeds before).1.filter fun x => decide (rb.idx < x.1.idx))
        let all := (before.filter fun r => decide (r.idx < rb.idx)) ++ [rb'] ++ later
        (all, match later.getLast? with | some r => r.endTick | none => if e.2.m = 0 then e.1 else e.1 + 5)

/-! ### Beam-on runs and their edges (R121 to R123) -/

/-- A beam-on run: its first and last record, its edges, and how many moves of R122 it took. An off edge is known once
the run is known to end. -/
structure Run where
  first : Nat
  last : Nat
  on : Ns
  off : Option Ns
  moves : Nat
  start : Ns
deriving DecidableEq, Repr

/-- The tick nearest to `frac` ns, below a tick, after t (R121). -/
def nearTick (t : Int) (frac : F64) : Ns :=
  (((F64.ofInt (t % 5)).add frac |>.div (F64.ofNat 5)).nearest * 5 + t / 5 * 5).toNat

/-- The start of the cycle in which a set-point with launch time t is sent (R131). -/
def cycleOf (tLead : Nat) (t : Ns) : Ns := ((t - tLead) - 1) / 500 * 500

/-- The moves of R122 of an on edge that follows the off edge `p`. -/
def moveOn (tLead : Nat) (p : Option Ns) (on : Ns) : Ns × Nat :=
  match p with
  | none => (on, 0)
  | some off =>
    let a := if on < off + 200 then (off + 200, 1) else (on, 0)
    if cycleOf tLead a.1 = cycleOf tLead off then (cycleOf tLead off + 500 + tLead + 5, a.2 + 1) else a

/-- The off edge of a run whose last record is `r`. -/
def offOf (r : PRec) : Ns := let e := r.endAt; nearTick ((e.1 : Int) + r.set.offDelay) e.2

/-- The runs of a plan in order; a motion record without length emits nothing (R59). `cur` is the run that is being put together, with the record it has reached; `open_`
gives the first record and the on edge of the run that emits now. -/
def runsGo (tLead : Nat) (prevOff : Option Ns) (cur : Option (Run × PRec)) : List PRec → List Run
  | [] => match cur with | some (c, _) => [c] | none => []
  | r :: rs =>
    if r.passes || (r.vec.isMotion && r.len.m = 0) then runsGo tLead prevOff cur rs
    else if r.vec.beamOn then
      match cur with
      | some (c, _) => runsGo tLead prevOff (some ({ c with last := r.idx }, r)) rs
      | none =>
        let on := moveOn tLead prevOff (nearTick ((r.start : Int) + r.set.onDelay) r.frac)
        runsGo tLead prevOff (some ({ first := r.idx, last := r.idx, on := on.1, off := none, moves := on.2,
                                      start := r.start }, r)) rs
    else
      match cur with
      | some (c, l) =>
        let off := offOf l
        { c with off := some off } :: runsGo tLead (some (if off ≤ c.on then (prevOff.getD 0) else off)) none rs
      | none => runsGo tLead prevOff none rs

/-- The runs of a lane's plan; the run that emits now keeps its on edge. -/
def runsOf (tLead : Nat) (prevOff : Option Ns) (emitting : Option (Nat × Ns)) (ps : List PRec) : List Run :=
  match emitting with
  | none => runsGo tLead prevOff none ps
  | some (idx, on) =>
    match ps.find? (fun r => !r.passes) with
    | some r =>
      if r.vec.beamOn then
        runsGo tLead prevOff (some ({ first := idx, last := r.idx, on := on, off := none, moves := 0, start := r.start }, r)) ps
      else runsGo tLead prevOff none ps
    | none => []

/-- A run emits nothing when its off edge falls at or before its on edge (R122). -/
def Run.empty (r : Run) : Bool := match r.off with | some f => decide (f ≤ r.on) | none => false

end Sys2Proof.Machine
end

