-- ==== Sys2Proof/Config.lean ====
section
/-! DEFINITION. What the spec leaves open, as constants without a body: no proof can see a value (log 1). -/

namespace Sys2Proof.Config

/-- The free value number `n` (log 1). -/
opaque freeNat : Nat → Nat

/-- The free value number `n` as a signed number (log 1). -/
opaque freeInt : Nat → Int

/-- The nominal voltage in mV of rail `k` below 15, which the spec does not state (log 40). -/
opaque railNominal : Nat → BitVec 16

/-- The ring-oscillator sensor nearest a Spring Link port (kind 3) or an Ethernet port (kind 4), modulo 24 (log 41). -/
opaque nearRos : Nat → Nat → Nat

/-- BIG_ENDIAN of a colour sensor, which no register of the spec holds (log 60). -/
opaque colourBigEndian : Nat → Bool

/-- Eohus public key `k` of the boot ROM, a point of P-384, which the spec does not state (R336; log 62). -/
opaque eohusKey : Nat → Nat × Nat

/-- The phase of a port's block boundaries in bit times, which the spec leaves to the link's training (R250; log 106). -/
opaque blockPhase : Nat → Nat

end Sys2Proof.Config
end

