-- ==== Sys2Proof/Machine/Parts/Axes.lean ====
section
/-! DEFINITION. State of axes, encoders, Hall groups, compares and echoes (chapter "Axes, encoders and Hall inputs"). The
fields with the reset "Profile value" are in the configuration registers (`State.cfg`). -/

namespace Sys2Proof.Machine

/-- The states of an axis (R387). -/
inductive AxisState where
  | disabled
  | idle
  | moving
  | stopping
  | fault
deriving DecidableEq, Repr

/-- The code of an axis state (R387). -/
def AxisState.code : AxisState → Nat
  | .disabled => 0
  | .idle => 1
  | .moving => 2
  | .stopping => 3
  | .fault => 4

/-- Limits of an axis in steps/s, steps/s² and steps/s³ (R386); 0 selects or keeps (R391, R416). -/
structure AxisLimits where
  speed : Nat
  accel : Nat
  jerk : Nat
deriving DecidableEq, Repr

/-- A phase of constant jerk of an axis profile, in s, steps, steps/s, steps/s² and steps/s³ (R388). -/
structure AxisSeg where
  t0 : F64
  dur : F64
  s0 : F64
  v0 : F64
  a0 : F64
  j : F64
deriving DecidableEq, Repr

/-- What an axis runs: a move to its target, a stop, or a homing run (R388, R396, R399). -/
inductive AxisRun where
  | move
  | stop
  | home
deriving DecidableEq, Repr

/-- The profile in progress: its start time and start position, its sense, its phases, the time at which its deceleration
phases begin, its end (none for a homing run, which goes on until its edge), the steps that it drives and those driven so far. -/
structure AxisPlan where
  run : AxisRun
  start : Ns
  origin : Int
  up : Bool
  segs : List AxisSeg
  decelAt : F64
  fin : Option F64
  total : Nat
  done : Nat
deriving DecidableEq, Repr

/-- A move (R391): its target, the descriptor's limits, when it starts, and the descriptor or script entry that waits for
it. -/
structure AxisMove where
  target : Int
  limits : AxisLimits
  launch : Ns
  ref : Option Ref
  script : Option Nat
deriving DecidableEq, Repr

/-- A homing run (R399): SOURCE, the channel or input, HOME_POS, HOME_MAX and the latched position. -/
structure Homing where
  trig : Bool
  chan : Nat
  pos : Int
  max : Nat
  latched : Option Int
  ref : Ref
deriving DecidableEq, Repr

/-- One axis (AXES_STAT). `latched` are limits of R393 with whether a CLEAR is among them, `ending` the status with which the move in progress
will complete where a stop has ended it, `dirAt` when DIR changed last, and `feSince` since when the following error has been beyond its limit. `toFault`
and `toReset` say that a fault or a BLOCK reset waits for standstill. -/
structure Axis where
  state : AxisState
  axen : Bool
  cause : BitVec 3
  pos : Int
  posHiLatch : BitVec 32
  target : Int
  steps : BitVec 32
  plan : Option AxisPlan
  lim : AxisLimits
  move : Option AxisMove
  pending : Option AxisMove
  homing : Option Homing
  ovr : Option AxisLimits
  latched : Option (Bool × AxisLimits)
  ending : Nat
  toFault : Bool
  toReset : Bool
  lastEdge : Option Ns
  dirUp : Bool
  dirAt : Option Ns
  xOrg : Int
  pOrg : Int
  feSince : Option Ns
deriving DecidableEq, Repr

/-- A recoat script entry of the RECOAT in progress (R400): not started, moving, or ended at a time; `skip` for a ONCE entry
of a repeated RECOAT. -/
inductive ScriptState where
  | waiting
  | moving
  | ended (t : Ns)
  | skip
deriving DecidableEq, Repr

/-- One encoder channel (ENC_STAT). `run` counts the counted edges in one direction since a standstill or reversal, up to
2; `edge` and `prev` are the times of the last two counted edges. `winEdge` is the time and count of the last edge of the latest window, `winPrev` that of the window
before it. `wireNow` are the pairs in disagreement; `zRef` the position of the first Z edge, `zArmed` that ENC_PRESET has armed
Z_MODE RESET. -/
structure Enc where
  valid : Bool
  standstill : Bool
  reverse : Bool
  window : Bool
  faults : BitVec 6
  position : Nat
  ext : Int
  extHiLatch : BitVec 32
  mag : Nat
  indexPos : Nat
  edgeFaults : BitVec 16
  illegal : BitVec 16
  indexMismatch : BitVec 16
  ssiErrors : BitVec 16
  wireEvents : BitVec 16
  wireNow : BitVec 3
  run : Nat
  edge : Option Ns
  prev : Option Ns
  winEdge : Option (Ns × Int)
  winPrev : Option (Ns × Int)
  zRef : Option Nat
  zArmed : Bool
  ssiPrev : Option Nat
  ssiReads : Nat
  ssiChange : Ns
deriving DecidableEq, Repr

/-- One Hall group (ENC_HALL_g); `code` is the code W:V:U as it stands. -/
structure Hall where
  sector : BitVec 3
  valid : Bool
  reverse : Bool
  standstill : Bool
  skip : Bool
  invalid : Bool
  count : Int
  countHiLatch : BitVec 32
  mag : Nat
  skips : BitVec 16
  code : BitVec 3
  known : Bool
  run : Nat
  edge : Option Ns
deriving DecidableEq, Repr

/-- One compare unit (ENC_CMP_k), but for its configuration; CMP_OUT is active until `active`. -/
structure Cmp where
  hitTime : BitVec 64
  hitCount : Int
  hits : BitVec 32
  merged : BitVec 16
  active : Ns
  hiLatch : BitVec 32
deriving DecidableEq, Repr

/-- One echo output (ENC_ECHO_k), but for its configuration. ECHO_A and ECHO_B follow OUT_COUNT mod 4. -/
structure Echo where
  outCount : Int
  xOrg : Int
deriving DecidableEq, Repr

/-- The axes block. `stops` are AXIS_STOP descriptors that wait for standstill; `script` holds the entries of the RECOAT in
progress, which began at `scriptStart`. -/
structure AxisBlk where
  axes : List Axis
  stops : List (Ref × BitVec 16)
  script : List ScriptState
  scriptStart : Option Ns
  stageLate : Bool
deriving DecidableEq, Repr

def AxisLimits.none : AxisLimits := { speed := 0, accel := 0, jerk := 0 }

def Axis.reset : Axis :=
  { state := .disabled, axen := false, cause := 0, pos := 0, posHiLatch := 0, target := 0, steps := 0, plan := none,
    lim := .none, move := none, pending := none, homing := none, ovr := none, latched := none, ending := 0, toFault := false,
    toReset := false, lastEdge := none, dirUp := true, dirAt := none, xOrg := 0, pOrg := 0, feSince := none }

def AxisBlk.reset : AxisBlk :=
  { axes := List.replicate 16 .reset, stops := [], script := List.replicate 16 .skip, scriptStart := none,
    stageLate := false }

def Enc.reset : Enc :=
  { valid := false, standstill := false, reverse := false, window := false, faults := 0, position := 0, ext := 0,
    extHiLatch := 0, mag := 0, indexPos := 0, edgeFaults := 0, illegal := 0, indexMismatch := 0, ssiErrors := 0,
    wireEvents := 0, wireNow := 0, run := 0, edge := none, prev := none, winEdge := none, winPrev := none, zRef := none,
    zArmed := false, ssiPrev := none, ssiReads := 0, ssiChange := 0 }

def Hall.reset : Hall :=
  { sector := 0, valid := false, reverse := false, standstill := false, skip := false, invalid := false, count := 0,
    countHiLatch := 0, mag := 0, skips := 0, code := 0, known := false, run := 0, edge := none }

def Cmp.reset : Cmp := { hitTime := 0, hitCount := 0, hits := 0, merged := 0, active := 0, hiLatch := 0 }

def Echo.reset : Echo := { outCount := 0, xOrg := 0 }

end Sys2Proof.Machine
end

