-- ==== Sys2Proof/Machine/Parts/Basin.lean ====
section
/-! DEFINITION. State of Basin (chapter "Basin memory"): contents, ECC, scheduling counters and real-time ports. -/

namespace Sys2Proof.Machine

/-- BASIN_RT_p. `misplaced` says that a misplaced episode has been reported, `panicSince` when the panic episode began
and `longRaised` that it has been reported as long (R492, R496, R499). -/
structure RtPort where
  order : BitVec 2
  panic : Bool
  panicCount : BitVec 32
  misplacedCount : BitVec 16
  panicMaxUs : BitVec 16
  misplaced : Bool
  panicSince : Ns
  longRaised : Bool
deriving DecidableEq, Repr

/-- Basin. `mem` lists the bytes that differ from 0, addresses strictly rising (log 2). `poisoned` lists the 8-byte
words whose check reads as uncorrectable (R504, R505). `ceSecond` is the second in which the
first correctable error was reported (R509), `ceHiLatch` and `ueHiLatch` the upper words that a read of LAST_CE_LO or LAST_UE_LO
holds, `lastReq` when the last request came (R500). -/
structure Basin where
  mem : List Host.Cell
  poisoned : List Nat
  eccEn : Bool
  segOrder : List (BitVec 2)
  srIdle : BitVec 17
  scrubPeriod : BitVec 8
  nrtWeight : List (BitVec 4)
  bankMask : List (BitVec 17)
  state : BitVec 2
  hot : Bool
  retain : BitVec 8
  postponed : List (BitVec 4)
  forcedEpisode : Bool
  forcedRefresh : BitVec 16
  panicLong : BitVec 16
  srEntries : BitVec 32
  srAbort : BitVec 16
  inorder : BitVec 16
  scrubPasses : BitVec 32
  ceCount : BitVec 32
  ueCount : BitVec 32
  lastCe : BitVec 64
  lastUe : BitVec 64
  ceSecond : Option Nat
  ceHiLatch : BitVec 32
  ueHiLatch : BitVec 32
  lastReq : Ns
  /-- the open row of each bank, 16 banks of channel 0 first (R493) -/
  openRows : List (Option Nat)
  rt : List RtPort
deriving DecidableEq, Repr

def RtPort.reset : RtPort :=
  { order := 3, panic := false, panicCount := 0, misplacedCount := 0, panicMaxUs := 0, misplaced := false,
    panicSince := 0, longRaised := false }

/-- R488: ECC on; R495: the default weights; the other profile values as log 5 names them. -/
def Basin.reset : Basin :=
  { mem := [], poisoned := [], eccEn := true, segOrder := List.replicate 8 0, srIdle := 1000, scrubPeriod := 0,
    nrtWeight := [4, 4, 2, 2, 4, 2, 2, 1], bankMask := List.replicate 4 0, state := 0, hot := false, retain := 0,
    postponed := List.replicate 4 0, forcedEpisode := false, forcedRefresh := 0, panicLong := 0, srEntries := 0,
    srAbort := 0, inorder := 0, scrubPasses := 0, ceCount := 0, ueCount := 0, lastCe := 0, lastUe := 0,
    ceSecond := none, ceHiLatch := 0, ueHiLatch := 0, lastReq := 0, openRows := List.replicate 64 none, rt := List.replicate 25 .reset }

end Sys2Proof.Machine
end

