-- ==== Sys2Proof/Machine/Parts/Cal.lean ====
section
/-! DEFINITION. State of housekeeping, throttling and calibration (chapter "Calibration, temperature and throttling"). -/

namespace Sys2Proof.Machine

/-- One result set of a calibration (R521): the watched temperature and its two values, PGAIN and POFS for POWER, DARK_A
and DARK_B for DARK, the equaliser setting and the eye width for an eye. -/
structure CalSet where
  temp : Int
  a : Int
  b : Int
deriving DecidableEq, Repr

/-- Samples gathered for a DARK run (R526): since when, how many, and the sums of both channels. -/
structure Gather where
  since : Ns
  n : Nat
  sumA : Nat
  sumB : Nat
deriving DecidableEq, Repr

/-- HK_LANE_CAL_l (R521 to R526). `pgain` and `pofs` are in force and move toward `pgainTo` and `pofsTo`, last at
`movedAt`; `powerTemp` and `darkTemp` are the temperatures of the last runs. -/
structure LaneCal where
  pgain : Nat
  pofs : Int
  pgainTo : Nat
  pofsTo : Int
  movedAt : Ns
  powerSets : List CalSet
  darkSets : List CalSet
  powerTemp : Option Int
  darkTemp : Option Int
  gather : Option Gather
  resid : BitVec 16
deriving DecidableEq, Repr

/-- The calibration of a port, an Ethernet port or a Basin channel: its result sets, the temperature of its last run, and
the equaliser setting in force with the one it moves to. -/
structure UnitCal where
  sets : List CalSet
  last : Option Int
  eq : Int
  eqTo : Int
  movedAt : Ns
deriving DecidableEq, Repr

/-- A calibration request that waits (R531): kind, unit, since when, whether CAL_OVERDUE has been raised, and whether it waits for the next
gap because its CAL_START was cancelled in this one (R238). -/
structure CalWait where
  kind : Nat
  unit : Nat
  since : Ns
  overdue : Bool
  skip : Bool
deriving DecidableEq, Repr

/-- A calibration that runs (R531): kind, unit and its start; for POWER, the (slot power, MONITOR value) pairs of each level,
newest first, and when the lane is back where it was (R524). -/
structure CalRun where
  kind : Nat
  unit : Nat
  since : Ns
  levels : List (List (Nat × Nat))
  fin : Ns
deriving DecidableEq, Repr

/-- A CAL_REQUEST that runs at once (R531): its descriptor, the units whose runs have not ended, the worst quality so far
and whether a result has been rejected (R525). -/
structure CalGroup where
  ref : Ref
  kind : Nat
  left : List Nat
  worst : Nat
  bad : Bool
deriving DecidableEq, Repr

/-- HK_CAL_k, less DT. -/
structure CalKind where
  quality : BitVec 16
  lastNs : BitVec 64
  lastHiLatch : BitVec 32
  runs : BitVec 32
  abandoned : BitVec 16
  rejected : BitVec 16
deriving DecidableEq, Repr

/-- Housekeeping. `reads` are the readings of the latest round and `before` those of the round before it, `beyond` which
throttle condition held in it. `levelSince` is when the level was entered, `relSince` since when the release condition
holds with the level as it is. `stalls` counts the refresh stalls of
each Basin channel modulo 512 (R528). -/
structure Hk where
  level : BitVec 2
  hostFloor : BitVec 2
  reads : List (BitVec 16)
  before : List (BitVec 16)
  rounds : Nat
  failed : List Bool
  warnJ : Bool
  warnMod : Bool
  warnDram : Bool
  warnVinLow : Bool
  warnVinHigh : Bool
  warnPower : Bool
  warnRail : List Bool
  tj : BitVec 16
  thrCond : Bool
  relCond : Bool
  levelSince : Ns
  relSince : Option Ns
  lowCount : Bool
  shutCause : BitVec 4
  shutSlot : BitVec 6
  shutValue : BitVec 16
  shutAt : Option Ns
  kinds : List CalKind
  lanes : List LaneCal
  spl : List UnitCal
  eth : List UnitCal
  dqs : List UnitCal
  rosTemp : Option Int
  waits : List CalWait
  runs : List CalRun
  groups : List CalGroup
  stalls : List Nat
deriving DecidableEq, Repr

def LaneCal.reset : LaneCal :=
  { pgain := 32768, pofs := 0, pgainTo := 32768, pofsTo := 0, movedAt := 0, powerSets := [], darkSets := [],
    powerTemp := none, darkTemp := none, gather := none, resid := 0 }

def UnitCal.reset : UnitCal := { sets := [], last := none, eq := 0, eqTo := 0, movedAt := 0 }

def CalKind.reset : CalKind := { quality := 0, lastNs := 0, lastHiLatch := 0, runs := 0, abandoned := 0, rejected := 0 }

def Hk.reset : Hk :=
  { level := 0, hostFloor := 0, reads := List.replicate 64 0, before := List.replicate 64 0, rounds := 0,
    failed := List.replicate 24 false, warnJ := false, warnMod := false, warnDram := false, warnVinLow := false,
    warnVinHigh := false, warnPower := false, warnRail := List.replicate 16 false, tj := 0, thrCond := false,
    relCond := false, levelSince := 0, relSince := none, lowCount := false, shutCause := 0, shutSlot := 0, shutValue := 0,
    shutAt := none, kinds := List.replicate 7 .reset, lanes := List.replicate 128 .reset,
    spl := List.replicate 32 .reset, eth := List.replicate 4 .reset, dqs := List.replicate 4 .reset, rosTemp := none,
    waits := [], runs := [], groups := [], stalls := [0, 0, 0, 0] }

end Sys2Proof.Machine
end

