-- ==== Sys2Proof/Machine/Parts/Cam.lean ====
section
/-! DEFINITION. State of the cameras, the image pipeline and the illumination (chapter "Bed imaging and illumination"). -/

namespace Sys2Proof.Machine

/-- A CCI write (R429): register, value and WIDE. -/
structure CciWrite where
  reg : Nat
  value : Nat
  wide : Bool
deriving DecidableEq, Repr

/-- An exposure set (R429, R430): its generation, the time of its commit, when its CCI writes had finished, how many frames
have had a T_F after the commit, and whether it has counted a CCI_LATE. -/
structure ExpSet where
  len : Nat
  start : Nat
  pulse : Bool
  cci : List CciWrite
  gen : BitVec 32
  at_ : Ns
  written : Option Ns
  frames : Nat
  late : Bool
deriving DecidableEq, Repr

/-- A trigger whose FS has not come (R427): T_F, the layer of a sequencer capture, whether T_F lies in POST_IMAGE, and PRODUCT
(R428). -/
structure XTrig where
  tF : Ns
  gen : BitVec 32
  seq : Option Nat
  post : Bool
  product : Nat
deriving DecidableEq, Repr

/-- What a port's CCI master has to do (R422, R431): the list of a committed set, by its generation, or a CAM_CCI. -/
inductive CciJob where
  | set (gen : BitVec 32)
  | host (ref : Ref) (write wide : Bool) (reg value : Nat)
deriving DecidableEq, Repr

/-- A frame (R423, R442). `rows` are the lines taken so far, first one first, `pads` the pixels filled or padded as (row, first
column), `lines` those received, `lastLine` when the last one came. `stats` says that the statistics are complete, `code` the
status and bytes of its coding once it has ended. -/
structure CamFrame where
  num : BitVec 32
  gen : BitVec 32
  tF : Ns
  fs : Ns
  fe : Ns
  product : Nat
  seq : Option Nat
  post : Bool
  truncated : Bool
  overlong : Bool
  fixed : Bool
  crc : Bool
  overrun : Bool
  reset : Bool
  lines : Nat
  fixes : Nat
  rows : List (List Nat)
  pads : List (Nat × Nat)
  lastLine : Ns
  slot : Option Nat
  coding : Bool
  code : Option (Nat × Nat)
  stats : Bool
deriving DecidableEq, Repr

/-- A camera port. `back` is the back set, `cur` the one in force and `pending` those committed, oldest first. `commits` and
`trigs` are the CAM_EXP_COMMITs and CAM_TRIGGERs that wait for their launch. `published` says that a frame has been published in the ring. `windows` are the exposure windows that have not ended. `frame` is
the frame in progress and `closing` those that have ended and are not published. `fsTimes` are the last two FS in mode 0, newest first, and
`readout` how long the latest frame took from FS to its end. -/
structure Cam where
  streaming : Bool
  stops : List Ref
  ringSet : Bool
  published : Bool
  base : BitVec 64
  slotSize : Nat
  slots : Nat
  frameNo : BitVec 32
  lastFrame : BitVec 32
  expGen : BitVec 32
  frames : BitVec 32
  back : ExpSet
  cur : ExpSet
  latestGen : BitVec 32
  pending : List ExpSet
  commits : List (Ns × Option Ref)
  waits : List XTrig
  lastTrig : Option Ns
  xtrig : Option Ns
  windows : List (Ns × Ns)
  inWindow : Bool
  cci : List CciJob
  frame : Option CamFrame
  closing : List CamFrame
  flagged : Bool
  fsTimes : List Ns
  readout : Nat
  truncated : BitVec 32
  overlong : BitVec 32
  dropped : BitVec 32
  lineFixes : BitVec 16
  excess : BitVec 16
  hdrErr : BitVec 16
  crcErr : BitVec 16
  otherPkt : BitVec 16
  trigIgnored : BitVec 16
  noFrame : BitVec 8
  cciLate : BitVec 8
  cciFail : BitVec 8
deriving DecidableEq, Repr

/-- A capture plan in progress (R433): the stage and its layer, the port mask, the triggers that are left, when the next is due,
and the period. -/
structure CapPlan where
  stage : Nat
  layer : Nat
  mask : Nat
  left : Nat
  due : Ns
  period : Nat
deriving DecidableEq, Repr

/-- The image pipeline: CAPACITY in force, a throttle step that has been ordered with its deadline (R426), the capacity
in force before the latest order with the time of that order (R453), the capture
plan, and the CAM_TRIGGERs that wait for their launch with their port masks. -/
structure Isp where
  capacity : Nat
  order : Option (Nat × Ns)
  before : Option (Nat × Ns)
  plan : Option CapPlan
  trigs : List (Ns × Nat × Option Ref)
deriving DecidableEq, Repr

/-- A LED_SET that waits for its period start (R444). -/
structure LedChange where
  launch : Ns
  iSet : Nat
  duty : Nat
  ref : Option Ref
deriving DecidableEq, Repr

/-- An LED channel (R443 to R448). `gain` is G, `gainNext` one that waits for a period start outside the windows; `lit` says that a
strobe has it on; `diag` is the diagnostic pulse in progress (start and end), `diagDone` when the last one completed. -/
structure Led where
  changes : List LedChange
  gain : BitVec 16
  gainNext : Option (BitVec 16)
  limitEpisode : Bool
  open_ : Bool
  short : Bool
  iMeas : BitVec 16
  vMeas : BitVec 16
  lit : Bool
  resumed : Bool
  diag : Option (Ns × Ns)
  diagLast : Option Ns
  diagDone : Option Ns
  diagAborted : BitVec 16
  diagStarved : BitVec 16
  starvedEpisode : Bool
deriving DecidableEq, Repr

/-- The matrix (R449 to R451): the frame in force and the queued ones with their contexts, the row whose slot runs, and whether the outputs have
resumed after a safe state. -/
structure Matrix where
  frame : List Nat
  queue : List (List Nat × Ref × Nat)
  row : Nat
  slotAt : Ns
  resumed : Bool
  syncEmpty : BitVec 16
  segOpen : BitVec 256
deriving DecidableEq, Repr

/-- The illumination: channels, matrix, and the reads that each colour sensor has failed in a row (R448). -/
structure Light where
  leds : List Led
  matrix : Matrix
  sensorFails : List Nat
deriving DecidableEq, Repr

def ExpSet.none : ExpSet :=
  { len := 0, start := 0, pulse := false, cci := [], gen := 0, at_ := 0, written := some 0, frames := 0, late := false }

def Cam.reset : Cam :=
  { streaming := false, stops := [], ringSet := false, published := false, base := 0, slotSize := 0, slots := 0, frameNo := 0,
    lastFrame := 0, expGen := 0, frames := 0, back := .none, cur := .none, latestGen := 0, pending := [], commits := [],
    waits := [], lastTrig := none, xtrig := none, windows := [], inWindow := false, cci := [], frame := none,
    closing := [], flagged := false, fsTimes := [], readout := 0, truncated := 0, overlong := 0, dropped := 0, lineFixes := 0, excess := 0,
    hdrErr := 0, crcErr := 0, otherPkt := 0, trigIgnored := 0, noFrame := 0, cciLate := 0, cciFail := 0 }

/-- CAPACITY is 4,800 Mpix/s (ISP_GLOBAL). -/
def Isp.reset : Isp := { capacity := 4800, order := none, before := none, plan := none, trigs := [] }

/-- GAIN is 0x8000, that is 1 (LED_CH). -/
def Led.reset : Led :=
  { changes := [], gain := 0x8000, gainNext := none, limitEpisode := false, open_ := false, short := false, iMeas := 0,
    vMeas := 0, lit := false, resumed := true, diag := none, diagLast := none, diagDone := none, diagAborted := 0, diagStarved := 0,
    starvedEpisode := false }

def Matrix.reset : Matrix :=
  { frame := List.replicate 256 0, queue := [], row := 0, slotAt := 0, resumed := true, syncEmpty := 0, segOpen := 0 }

def Light.reset : Light := { leds := List.replicate 16 .reset, matrix := .reset, sensorFails := [0, 0, 0, 0] }

end Sys2Proof.Machine
end

