-- ==== Sys2Proof/Machine/Parts/Defaults.lean ====
section
/-! DEFINITION. The defaults that the chapters name for configuration registers (R379): what a register with the reset "Profile
value" holds without an entry for it. Every register that is not listed holds 0 (log 5). -/

namespace Sys2Proof.Machine

/-- One register of each of `n` units `stride` apart. -/
def cfgRow (base stride n v : Nat) : List (Nat × Word) := (List.range n).map fun i => (base + stride * i, BitVec.ofNat 32 v)

/-- LINE_TIMEOUT 10 ms and FRAME_TIMEOUT 1 s of the cameras (R424, R427). -/
def camDefaults : List (Nat × Word) := cfgRow 0x700010 0x10000 8 (1000 + 1000 * 65536)

/-- T_DET 20 µs, DIAG_CURRENT 100 mA and DIAG_PERIOD 1 s of the LED channels (R446, R447). -/
def ledDefaults : List (Nat × Word) := cfgRow 0x86000C 0x100 16 (20 + 100 * 2 ^ 9 + 100 * 2 ^ 19)

/-- The thresholds of R512, DARK_GAP, POWER_RESID_MAX and EYE_WARN (R525 to R527), and DT of each calibration (R520). -/
def hkDefaults : List (Nat × Word) :=
  [(0xA00200, BitVec.ofNat 32 (6400 + 6016 * 65536)), (0xA00204, BitVec.ofNat 32 (6912 + 6528 * 65536)), (0xA00208, 7680),
   (0xA0020C, BitVec.ofNat 32 (6080 + 6720 * 65536)), (0xA00210, BitVec.ofNat 32 (6080 + 6720 * 65536)),
   (0xA00214, BitVec.ofNat 32 (3800 + 7500 * 65536)), (0xA00218, 11000), (0xA00300, BitVec.ofNat 32 (100 + 100 * 65536)),
   (0xA00308, BitVec.ofNat 32 (96 * 65536)), (0xA00400, 64), (0xA00420, 320), (0xA00440, 128), (0xA00460, 320), (0xA00480, 320),
   (0xA004C0, 640)]

/-- LOW, STEP and CODE_LO of the histograms, and REC_SPAN (R537, R538). -/
def recDefaults : List (Nat × Word) :=
  [(0xA40104, 256), (0xA4010C, 256), (0xA40114, 256), (0xA40118, 3000), (0xA4011C, 150), (0xA40124, 400), (0xA4012C, 1),
   (0xA40134, 128), (0xA4013C, 4), (0xA40144, 0x30200001), (0xA4014C, 0x40050001), (0xA40154, 0x60010001),
   (0xA4015C, 0x70010001), (0xA40164, 0x30600001), (0xA4016C, 0x50040001), (0xA40174, 0x20030001), (0xA4017C, 0xA0010001),
   (0xA401A8, 2), (0xA401AC, 1), (0xA401B0, 1)]

/-- ECC on (R488), SR_IDLE 1 ms (R500), the weights of R495 and the order RCB of the real-time ports (R492, log 5). -/
def basinDefaults : List (Nat × Word) :=
  [(0x900000, 1), (0x900004, 1000), (0x90000C, 0x12242244)] ++ cfgRow 0x900100 0x10 25 3

/-- The configuration registers with their defaults, rising offsets. TX_SWING 2 and TX_DEEMPH 3 are those of R280. -/
def cfgDefaults : List (Nat × Word) :=
  cfgRow 0x400008 0x8000 32 0x32 ++ cfgRow 0x64000C 0x100 16 10 ++ cfgRow 0x641000 0x40 8 (10 * 256) ++ camDefaults ++ ledDefaults ++ basinDefaults ++ hkDefaults ++ recDefaults

end Sys2Proof.Machine
end

