-- ==== Sys2Proof/Machine/Parts/Field.lean ====
section
/-! DEFINITION. State of the Mere engine (chapter "Melt-pool loop and the Mere heat field"). -/

namespace Sys2Proof.Machine

/-- A deposition report in Mere's queue (R165, R166): its lane, its cell, its energy in µJ and when it reached Mere. -/
structure DepReport where
  lane : Nat
  cell : Nat
  energy : Nat
  came : Ns
deriving DecidableEq, Repr

/-- The coefficients that MERE_COEFF can override (R178). -/
structure Coeffs where
  d : Nat
  r : Nat
  kDep : Nat
  assimWeight : Nat
  layerBlend : Nat
deriving DecidableEq, Repr

/-- A save (R174, R175): the layer index (0xFFFF_FFFF for MERE_SAVE_NOW), the slot, the TAG, the descriptor, and the field
once it has been copied, with its step number and S_k. `resume` is the end of the pause, `result` the status and the bytes of the
coding once it has ended. -/
structure Saving where
  layer : Nat
  slot : Nat
  tag : Nat
  ref : Option Ref
  due : Ns
  copied : Option (List Nat × Nat × Ns)
  resume : Ns
  result : Option (Nat × Nat)
deriving DecidableEq, Repr

/-- A field that MERE_FIELD_SET has read in and that waits for its grid point (R602): when it was read, and whether it had to wait for a
profile. -/
structure FieldSet where
  cells : List Nat
  ref : Ref
  readAt : Ns
  waited : Bool
deriving DecidableEq, Repr

/-- A view copy (R176, R478), held in the firmware region. -/
structure MereView where
  seq : Nat
  firstStep : Nat
  lastStep : Nat
  time : Ns
  nx : Nat
  ny : Nat
  cells : List Nat
deriving DecidableEq, Repr

/-- What a step has taken besides the front buffer (R163, R170, R171): the layer blend, the assimilation frame and the reports. -/
structure StepIn where
  blend : Bool
  frame : Option (List Nat)
  taken : List DepReport
deriving DecidableEq, Repr

/-- Mere. `due` says that it waits for S_0 (R173). `front` is the front buffer row by row and `step` its step number; `next` is the number of the step grid point
whose step has not been taken. `frontAt` is S_k of the field in the front buffer, `back` the result of the step in progress
with its number and `ins` what it was computed from, and `merges` counts since the last step. `periodUs` is the effective period. `settle` is when the last SETTLE that has not been
blended began, `frame` an assimilation frame that waits (R171). `readOverrun` and `readMerged` are what reads have cleared of
OVERRUN and DEP_MERGED (R313). -/
structure Mere where
  run : Bool
  due : Bool
  nx : Nat
  ny : Nat
  cell : Nat
  x0 : Int
  y0 : Int
  tU : Nat
  s0 : Ns
  next : Nat
  step : Nat
  frontAt : Ns
  front : List Nat
  back : Option (List Nat × Nat)
  ins : StepIn
  coeffs : Coeffs
  ovrMask : BitVec 5
  pendingCoeffs : List (Nat × Coeffs × Option Ref)
  coarse : Bool
  wantCoarse : Bool
  wantSince : Ns
  reports : List DepReport
  merges : Nat
  settle : Option Ns
  frame : Option (List Nat × Ns)
  sets : List FieldSet
  saves : List Saving
  slotBase : BitVec 64
  slotSize : BitVec 32
  slotCount : BitVec 16
  lastSlot : BitVec 16
  nowCount : Nat
  overrun : BitVec 16
  readOverrun : Nat
  readMerged : Nat
  depMerged : BitVec 16
  assim : BitVec 16
  assimSkipped : BitVec 16
  depReports : BitVec 32
  depOutside : BitVec 32
  stepHiLatch : BitVec 32
  viewPeriodMs : Nat
  viewCount : Nat
  views : List MereView
deriving DecidableEq, Repr

def Coeffs.none : Coeffs := { d := 0, r := 0, kDep := 0, assimWeight := 0, layerBlend := 0 }

def Mere.reset : Mere :=
  { run := false, due := false, nx := 0, ny := 0, cell := 0, x0 := 0, y0 := 0, tU := 0, s0 := 0, next := 0, step := 0, frontAt := 0, front := [], back := none, ins := { blend := false, frame := none, taken := [] },
    coeffs := .none, ovrMask := 0, pendingCoeffs := [], coarse := false, wantCoarse := false, wantSince := 0,
    reports := [], merges := 0, settle := none, frame := none, sets := [], saves := [], slotBase := 0,
    slotSize := 0, slotCount := 0, lastSlot := 0, nowCount := 0, overrun := 0, readOverrun := 0, readMerged := 0, depMerged := 0, assim := 0,
    assimSkipped := 0, depReports := 0, depOutside := 0, stepHiLatch := 0, viewPeriodMs := 0, viewCount := 0, views := [] }

end Sys2Proof.Machine
end

