-- ==== Sys2Proof/Machine/Parts/Jobs.lean ====
section
/-! DEFINITION. State of the layer sequencer and the job (chapter "Build jobs, layers and vector streams"). -/

namespace Sys2Proof.Machine

/-- What a layer descriptor says of one lane (R40), and what the layer has come to on it (R58): its end state, the
fault, the records written and the hold in ns. `checked` are the records as validated (R42). -/
structure LayerLane where
  streamAddr : Nat
  resultAddr : Nat
  rawAddr : Nat
  count : Nat
  rawKiB : Nat
  endState : Nat
  code : Nat
  index : Nat
  records : Nat
  holdNs : Nat
  checked : List (List Byte)
  /-- the settings in force at the record where the lane faulted, for R75 -/
  resumeAt : Option (Settings × Settings × Int × Int)
deriving DecidableEq, Repr

/-- A queued layer (R35). `ref` is its LAYER_QUEUE, `passed` that it is VALIDATED and `bound` that it is bound (R30). -/
structure Layer where
  index : Nat
  ref : Ref
  addr : Nat
  flags : Nat
  psetTable : Nat
  status : Nat
  mask : BitVec 128
  passed : Bool
  bound : Bool
  /-- fetch has begun (R30, R65) -/
  fetched : Bool
  lanes : List (Nat × LayerLane)
deriving DecidableEq, Repr

/-- A job header (R37). -/
structure JobHeader where
  line : Bool
  atTime : Option Ns
  jobId : Nat
  lanes : BitVec 128
  degraded : Bool
  repeatOnce : Bool
  initialRecoat : Bool
  machine : Bool
  first : Nat
  minLanes : Nat
  marginUs : Nat
  timeoutMs : Nat
  psetTable : Nat
  trigSource : Nat
  trigEncoder : Nat
  markWindow : Nat
  markAddr : Nat
  markCount : Nat
  delays : List Nat
deriving DecidableEq, Repr

/-- A product of a LINE job (R85, R92): its number, C_k, the trigger's time, the lanes that have settled it and how. -/
structure Product where
  k : Nat
  count : Int
  time : Ns
  held : Bool
  done : BitVec 128
  skipped : BitVec 128
  flags : Nat
deriving DecidableEq, Repr

/-- A lane's arrival at a SYNC (R81, R202): the lane, its bound B and the record's index. -/
structure Arrival where
  lane : Nat
  bound : Ns
  idx : Nat
deriving DecidableEq, Repr

/-- A report of another module on a SYNC (R202): the member, the exchange X it belongs to, when it came, and its
entries. -/
structure SyncReport where
  member : Nat
  x : Ns
  came : Ns
  entries : List SyncEntry
deriving DecidableEq, Repr

/-- A meeting point (R51, R81 to R83). `rc` is the release candidate, `failed` the code with which it has failed, and
`released` its release once fixed; `gone` are participants that FAIL_CONTINUE goes on without. `first` is when the first participant arrived. -/
structure SyncPoint where
  /-- the layer or the product whose streams hold the SYNC -/
  key : Nat
  id : Nat
  lanes : BitVec 128
  members : Nat
  failContinue : Bool
  arrivals : List Arrival
  first : Ns
  rc : Ns
  released : Option Ns
  failed : Option Nat
  gone : BitVec 128
  /-- the members of the machine that FAIL_CONTINUE goes on without -/
  goneMembers : Nat
  reports : List SyncReport
  /-- a Ripple place is set aside for the release (R240) -/
  place : Bool
deriving DecidableEq, Repr

/-- The job (GLOBAL_JOB_STAT to GLOBAL_JOB_COUNT, R33 to R93). `layers` are the queued ones in the order of their
LAYER_QUEUE, `checks` the indices whose validation is due, in order (R60, R61), `table` the parameter-set table of the
layers completed so far (R56), `done` the highest index completed and `failed` the indices that failed validation and have not been
queued again, with their NEW_PSET (R35). `stageEnd` is when the stage in progress ends, `l` the planned L of the coming or running
layer as PTP time, `final` that its layer start is posted, and `late` the postponement of this ARM in ms (R64). `exposed` is
the layer in ARM, EXPOSE or POST_IMAGE, or held, `unstarted` that a held layer never started, `exposeDone` that this module's
exposure has ended (R79) and `completing` the layer whose completion is due (R31). `holdAsked` are JOB_HOLDs that wait
(R73), `endAsked` a JOB_END AFTER_LAYER or the LAST layer, `holdAfter` the cause of the hold that follows, `repeated` that
RECOAT repeats, `bedDue` the frames of BED_IMAGE whose statistics are due (R440), `resumeState` where CONTINUE goes on and `resuming` that a resume
has been accepted by the whole machine. `torShown` is what the TOR register shows, which outlives the job (R93). -/
structure Jobs where
  state : BitVec 4
  cause : BitVec 4
  line : Bool
  machine : Bool
  jobId : BitVec 32
  layerIndex : BitVec 32
  tor : Option Ns
  nextL : Option Ns
  nextLHiLatch : BitVec 32
  excluded : BitVec 128
  starvedNs : Nat
  marksSkipped : BitVec 32
  lateMs : BitVec 32
  header : Option JobHeader
  startRef : Option Ref
  layers : List Layer
  done : Option Nat
  failed : List (Nat × Bool)
  checks : List Nat
  table : Nat
  exposed : Option Nat
  unstarted : Bool
  exposeDone : Bool
  completing : Option Nat
  stageEnd : Option Ns
  l : Ns
  final : Bool
  late : Nat
  holdAsked : List Ref
  endAsked : Bool
  endRefs : List Ref
  holdAfter : Nat
  repeated : Bool
  defect : Bool
  acceptBed : Bool
  repair : Bool
  starvedAt : Ns
  resumeState : Nat
  resumeRefs : List Ref
  resumeMode : Nat
  resumeOk : Bool
  resuming : Bool
  torShown : Ns
  bedDue : List (Nat × Nat)
  lineTrigger : Option (Nat × Nat)
  products : List Product
  nextProduct : Nat
  markWritten : Nat
  syncs : List SyncPoint
deriving DecidableEq, Repr

def Jobs.reset : Jobs :=
  { state := 0, cause := 0, line := false, machine := false, jobId := 0, layerIndex := 0, tor := none, nextL := none,
    nextLHiLatch := 0, excluded := 0, starvedNs := 0, marksSkipped := 0, lateMs := 0, header := none, startRef := none,
    layers := [], done := none, failed := [], checks := [], table := 0, exposed := none, unstarted := false, exposeDone := false, completing := none, stageEnd := none, l := 0, final := false, late := 0,
    holdAsked := [], endAsked := false, endRefs := [], holdAfter := 0, repeated := false, defect := false,
    acceptBed := false, repair := false, starvedAt := 0, resumeState := 0, resumeRefs := [], resumeMode := 0,
    resumeOk := false, resuming := false, torShown := 0, bedDue := [], lineTrigger := none, products := [], nextProduct := 0, markWritten := 0,
    syncs := [] }

end Sys2Proof.Machine
end

