-- ==== Sys2Proof/Machine/Parts/Link.lean ====
section
/-! DEFINITION. State of Spring Link (chapter "Spring Link and its partners"): ports, nodes, service requests and the
IO ring. -/

namespace Sys2Proof.Machine

/-- What a node's IDENT says (R268). -/
structure NodeIdent where
  cls : Nat
  beams : Nat
  vendor : Nat
  product : Nat
  serial : Nat
  hwRev : Nat
  fwRev : Nat
  fwdDn : Nat
  fwdUp : Nat
  turn : Nat
  pending : Nat
  points : Nat
deriving DecidableEq, Repr

/-- SPL_NODE_n (R268 to R276). `known` is the identity a lost node had, `lastUnit` when the last unit came, `rated` the
rated power of each beam in mW, `kinds` the KIND of each point of an IOX node, `inputs` the digital points as last seen,
`measured` the round trips of the measurement in progress, `cable0` c_h as it was at enumeration, `delaySet` the D_h
last written to the node and `monitored` when a SOURCE node sent MONITOR last. `fbMissing` is FB_MISSING before its saturation at 16 bits, and
`readMissing` what reads have cleared of it (R313). -/
structure Node where
  present : Bool
  lost : Bool
  ident : NodeIdent
  slotBase : Nat
  killLong : Bool
  quota : Nat
  div : Nat
  phase : Nat
  delay : BitVec 32
  cable : BitVec 32
  rttMin : BitVec 32
  cable0 : BitVec 32
  delaySet : Nat
  measured : List Nat
  fbMissing : BitVec 32
  readMissing : Nat
  spLost : BitVec 16
  status : BitVec 32
  temps : List Int
  lastUnit : Ns
  rated : List Nat
  sensors : List Nat
  kinds : List Nat
  inputs : BitVec 64
  power : Nat
  srcStatus : BitVec 32
  monitored : Option Ns
deriving DecidableEq, Repr

/-- A service request of the module that has no answer yet (R267): where it went, SEQ, TYPE, its payload, when it was
first sent, whether it has been sent again, and the descriptor that waits with the Basin address of its data. -/
structure SvcReq where
  port : Nat
  hop : Nat
  seq : Nat
  type : Nat
  payload : List Byte
  sent : Ns
  retried : Bool
  ref : Option Ref
  addr : Nat
deriving DecidableEq, Repr

/-- A 64b/66b block of 8 bytes before scrambling (R247). -/
structure Block66 where
  control : Bool
  bytes : List Byte
deriving DecidableEq, Repr

/-- Where the enumeration of a hop stands (R272): nothing under way, DISCOVER sent, ADDR_SET sent, 64 measurements under way,
DELAY_SET sent, NODE_STATUS being read. -/
inductive EnumPhase where
  | idle
  | discover
  | address
  | measure
  | delay
  | status
deriving DecidableEq, Repr

/-- A Spring Link port (SPL_PORT, R247 to R275). `enumHop` is the hop that is being enumerated.
`killsSent`, `nodeLosses` and `svcTimeouts` are the counters before their saturation at 16 bits, and `readBlockErr` to `readTimeouts` what
reads have cleared of BLOCK_ERR, KILLS_SENT, NODE_LOSSES and SVC_TIMEOUTS (R313). -/
structure Port where
  link : BitVec 2
  enumDone : Bool
  laserEn : Bool
  txSwing : BitVec 2
  txDeemph : BitVec 3
  swingNext : BitVec 2
  deemphNext : BitVec 3
  blockErr : BitVec 32
  hiBerEvents : BitVec 16
  lockLosses : BitVec 16
  fbCrcErr : BitVec 16
  svcCrcErr : BitVec 16
  killsSent : BitVec 32
  nodeLosses : BitVec 32
  unknownBlocks : BitVec 16
  svcTimeouts : BitVec 32
  killSeq : BitVec 8
  readBlockErr : Nat
  readKills : Nat
  readLosses : Nat
  readTimeouts : Nat
  nodes : List Node
  enumHop : Nat
  enumPhase : EnumPhase
  /-- the 58 bits sent last, the oldest in bit 0, with which the scrambler goes on (R247) -/
  scrambler : BitVec 58
  /-- the blocks last put onto the line: sync header and scrambled payload (R247) -/
  line : List (Nat × Nat)
  /-- service units that wait for a cycle (R250, R254) -/
  svcOut : List (List Block66)
deriving DecidableEq, Repr

/-- Spring Link. `seq` numbers the service frames of the module. -/
structure Link where
  ports : List Port
  reqs : List SvcReq
  seq : BitVec 16
  ringSet : Bool
  ringBase : BitVec 64
  ringSize : Nat
  ringNext : Nat
  ringSeq : BitVec 32
  ioDropped : Nat
  ioEpisode : Bool
  rescans : List (Ref × List Nat)
  nodeResets : List (Ref × Nat × Nat)
deriving DecidableEq, Repr

def NodeIdent.none : NodeIdent :=
  { cls := 0, beams := 0, vendor := 0, product := 0, serial := 0, hwRev := 0, fwRev := 0, fwdDn := 0, fwdUp := 0,
    turn := 0, pending := 0, points := 0 }

def Node.reset : Node :=
  { present := false, lost := false, ident := .none, slotBase := 0, killLong := false, quota := 0, div := 0, phase := 0,
    delay := 0, cable := 0, rttMin := 0, cable0 := 0, delaySet := 0, measured := [], fbMissing := 0, readMissing := 0, spLost := 0, status := 0,
    temps := [], lastUnit := 0, rated := [], sensors := [], kinds := [], inputs := 0, power := 0,
    srcStatus := 0, monitored := none }

/-- R280: swing 2 and de-emphasis 3 without a BLOCK_CFG record. -/
def Port.reset : Port :=
  { link := 0, enumDone := false, laserEn := false, txSwing := 2, txDeemph := 3, swingNext := 2,
    deemphNext := 3, blockErr := 0, hiBerEvents := 0, lockLosses := 0, fbCrcErr := 0, svcCrcErr := 0, killsSent := 0,
    nodeLosses := 0, unknownBlocks := 0, svcTimeouts := 0, killSeq := 0, readBlockErr := 0, readKills := 0, readLosses := 0, readTimeouts := 0, nodes := List.replicate 16 .reset,
    enumHop := 0, enumPhase := .idle, scrambler := BitVec.allOnes 58, line := [], svcOut := [] }

def Link.reset : Link :=
  { ports := List.replicate 32 .reset, reqs := [], seq := 0, ringSet := false, ringBase := 0, ringSize := 0,
    ringNext := 0, ringSeq := 0, ioDropped := 0, ioEpisode := false, rescans := [], nodeResets := [] }

end Sys2Proof.Machine
end

