-- ==== Sys2Proof/Machine/Parts/Power.lean ====
section
/-! DEFINITION. State of clocks, resets, crossings and power (chapter "Clocks, resets, crossings and power states"). -/

namespace Sys2Proof.Machine

/-- The reset kinds, with the STANDBY exit that acts much as a MODULE reset does (R565, R570). -/
inductive ResetKind where
  | por
  | wake
  | pin
  | module
  | firmware
  | standbyExit
deriving DecidableEq, Repr

/-- LAST_KIND's code of a restart (GLOBAL_RESET_STAT). -/
def ResetKind.code : ResetKind → Nat
  | .por => 0
  | .wake => 1
  | .pin => 2
  | .module => 3
  | .firmware => 4
  | .standbyExit => 5

/-- The power states (R572), with IDLE and RUN as `on` (the job state tells them apart) and the time a PIN reset or a
reference loss holds the module as `held`. -/
inductive PowerState where
  | off
  | hibernate
  | standby
  | held
  | on
deriving DecidableEq, Repr

/-- A PULSE crossing (R558): the count that its next handshake carries, saturating at 255, whether it carries the LOST flag, and
when XING_PULSE_LOST was last raised for it. -/
structure PulseXing where
  unit : UnitId
  count : BitVec 8
  lost : Bool
  told : Option Ns
deriving DecidableEq, Repr

/-- GLOBAL_RESET_STAT, GLOBAL_POWER_CTRL, XING_STAT and the power state. `blockReset` lists the units held in a BLOCK
reset or not yet resynchronised (R562, R568), `safe` that the safe state is forced, `armed` that the wake sources are armed and
`earlyWake` the cause of a wake that came before (R577), `reqArmed` that HIB_REQ_N has been high since the last wake (R575),
`clkLost` that REFCLK_IN is out of tolerance. `pulses` are the PULSE crossings that have carried a count (R558). `onAlive` are the events that wait for the firmware to be alive (R555, R567). -/
structure Power where
  state : PowerState
  entry : BitVec 2
  hibByPin : Bool
  lastKind : BitVec 3
  wakeCause : BitVec 3
  cause : BitVec 2
  moduleResets : BitVec 16
  firmwareResets : BitVec 16
  blkKind : BitVec 4
  blkIndex : BitVec 7
  accessTimeout : BitVec 14
  down : BitVec 16
  inReset : BitVec 16
  dropped : BitVec 32
  pulseLost : BitVec 16
  lastDown : BitVec 26
  downEpisode : Bool
  blockReset : List UnitId
  armed : Bool
  safe : Bool
  earlyWake : Option (BitVec 3)
  reqArmed : Bool
  clkLost : Bool
  onAlive : List (Nat × List Byte)
  pulses : List PulseXing
deriving DecidableEq, Repr

/-- The module right after POR: power on, start-up running (R327). -/
def Power.reset : Power :=
  { state := .on, entry := 0, hibByPin := false, lastKind := 0, wakeCause := 0, cause := 0, moduleResets := 0,
    firmwareResets := 0, blkKind := 0, blkIndex := 0, accessTimeout := 100, down := 0, inReset := 0,
    dropped := 0, pulseLost := 0, lastDown := 0, downEpisode := false, blockReset := [], armed := false, safe := false,
    earlyWake := none, reqArmed := true, clkLost := false, onAlive := [], pulses := [] }

/-- GLOBAL_PERMIT (R588, R589): the levels of BEAM_PERMIT_A and B after their filter, whether the permit is high (both
have been high for 10 ms). -/
structure Permit where
  a : Bool
  b : Bool
  high : Bool
  disagree : Bool
  lowEvents : BitVec 8
  disagreeEvents : BitVec 16
deriving DecidableEq, Repr

/-- An open input reads low (R585). -/
def Permit.reset : Permit :=
  { a := false, b := false, high := false, disagree := false, lowEvents := 0, disagreeEvents := 0 }

end Sys2Proof.Machine
end

