-- ==== Sys2Proof/Machine/Parts/Recorder.lean ====
section
/-! DEFINITION. State of the event recorder (chapter "Event recorder"). -/

namespace Sys2Proof.Machine

/-- An extreme (R539): its value, the operating minute and the tag. -/
structure Extreme where
  value : Int
  minute : Nat
  tag : Nat
deriving DecidableEq, Repr

/-- 16 histograms of 32 bins and 32 extremes (R540). -/
structure RecSet where
  bins : List (List Nat)
  ext : List (Option Extreme)
deriving DecidableEq, Repr

/-- A record that is due (R543): KIND, CAUSE, and the descriptors that complete with it. -/
structure RecDue where
  kind : Nat
  cause : Nat
  refs : List Ref
deriving DecidableEq, Repr

/-- A write in progress (R541, R549): what is written, the record's content and its bytes, the slot, since when, and how many attempts
have failed. `log` says that it goes into the clear log, `nonce` and `token` are those of a clear. -/
structure RecWrite where
  due : RecDue
  log : Bool
  content : RecSet
  bytes : List Byte
  slot : Nat
  since : Ns
  fails : Nat
  nonce : Nat
  token : List Byte
deriving DecidableEq, Repr

/-- The recorder. `main` lists the valid records of the main ring by slot, newest first, and `clearLog` those of the clear
log, oldest first. `codes` are the codes of the events raised in the operating minute, newest first, and `blockErr` the BLOCK_ERRs of
each port in it; `second` holds the largest reading of sources 0 to 7 in the operating second. `waits` are the records that
are due, `asked` the REC_CLEARs that wait for the end of a write, with their tokens. `nonce` holds the NONCE and when it was drawn,
`supplyAt` the minute of the latest SUPPLY record. -/
structure Recorder where
  activeB : Bool
  setA : RecSet
  setB : RecSet
  totals : RecSet
  minutes : BitVec 32
  cycles : BitVec 32
  seqNext : BitVec 32
  newest : Option Nat
  clears : BitVec 9
  badSlots : BitVec 11
  since : BitVec 32
  lastMinute : Nat
  merged : Bool
  writeFails : BitVec 16
  authFail : BitVec 8
  retries : BitVec 8
  main : List (Nat × List Byte)
  clearLog : List (Nat × List Byte)
  codes : List Nat
  blockErr : List Nat
  second : List (Option Int)
  write : Option RecWrite
  waits : List RecDue
  asked : List (Ref × List Byte)
  nonce : Option (BitVec 64 × Ns)
  supplyAt : Option Nat
  window : List Byte
  winReady : Bool
  region : BitVec 2
  slot : BitVec 11
  index : BitVec 4
  autoInc : Bool
deriving DecidableEq, Repr

def RecSet.empty : RecSet := { bins := List.replicate 16 (List.replicate 32 0), ext := List.replicate 32 none }

/-- A recorder whose history flash is empty. -/
def Recorder.reset : Recorder :=
  { activeB := false, setA := .empty, setB := .empty, totals := .empty, minutes := 0, cycles := 0, seqNext := 0, newest := none,
    clears := 0, badSlots := 0, since := 0, lastMinute := 0, merged := false, writeFails := 0, authFail := 0, retries := 0, main := [],
    clearLog := [], codes := [], blockErr := List.replicate 32 0, second := List.replicate 8 none, write := none, waits := [], asked := [],
    nonce := none, supplyAt := none, window := List.replicate 256 0, winReady := false, region := 0, slot := 0, index := 0,
    autoInc := false }

end Sys2Proof.Machine
end

