-- ==== Sys2Proof/Machine/Parts/Sent.lean ====
section
/-! DEFINITION. What the module puts on its links and lands, as the outside sees it: the model's own record of outputs
(log 4), newest first. No meaning reads it. -/

namespace Sys2Proof.Machine

/-- One thing that has left the module. -/
inductive Sent where
  /-- an MSI-X message of a vector (R304, R323) -/
  | msix (vec : Nat)
  /-- the data of a BAR0 read (R283) -/
  | readData (off : Nat) (value : Word)
  /-- the data of a BAR2 read, with the EP bit (R285) -/
  | bar2Data (bytes : List Byte) (poisoned : Bool)
  /-- a management datagram to a host (R286, R289, R340) -/
  | datagram (dst : Nat) (bytes : List Byte)
  /-- a frame on the peer address (R201, R348), by its KIND -/
  | peer (kind : Nat) (bytes : List Byte)
  /-- a PTP message by its messageType on an Ethernet port, with its sequence number and payload, and for an event message the egress
  queue it leaves on (R217, R220) -/
  | ptp (port kind seq : Nat) (queue : Option Nat) (body : List Byte)
  /-- an edge at a timed output: pin kind and index, asserted or not, the lane tick in PTP ns and the fine steps of
  5/64 ns (R230) -/
  | edge (pin index : Nat) (level : Bool) (tick : Ns) (k : Nat)
  /-- a Spring Link cycle (R250 to R253): port, CYCLE, the SOC flags, the slots of 16 bytes, and the QCHK checks -/
  | cycle (port cycle flags : Nat) (slots : List (List Byte)) (checks : List Nat)
  /-- a KILL (R260): port, MASK, ALL and KILL_SEQ -/
  | kill (port mask : Nat) (all : Bool) (seq : Nat)
  /-- a service frame (R266) to a hop of a port -/
  | service (port hop : Nat) (bytes : List Byte)
  /-- the MEASURE blocks of a node's measurement (R263) -/
  | measure (port hop : Nat)
  /-- an ARP answer with the module's address (R333) -/
  | arp (mac ip : Nat)
deriving DecidableEq, Repr

end Sys2Proof.Machine
end

