-- ==== Sys2Proof/Machine/Parts/Time.lean ====
section
/-! DEFINITION. State of the TIME block (chapter "Shared time, triggers and Ripple"): the clock and its servo, trigger
outputs and inputs, PPS and Ripple. -/

namespace Sys2Proof.Machine

/-- The time state (R222). -/
inductive TimeState where
  | free
  | acquiring
  | coarse
  | fine
  | holdover
  | master
deriving DecidableEq, Repr

/-- The code of a time state (R222). -/
def TimeState.code : TimeState → Nat
  | .free => 0
  | .acquiring => 1
  | .coarse => 2
  | .fine => 3
  | .holdover => 4
  | .master => 5

/-- A trigger schedule (R229): START as PTP ns, with the reference it was given in. -/
structure TrigSched where
  refPtp : Bool
  start : Ns
  fine : Nat
  period : Nat
  width : Nat
  count : Nat
  activeLow : Bool
  toggle : Bool
deriving DecidableEq, Repr

/-- TRIG_OUT_n. `next` is the next E_n, `level` whether the output is asserted and `fall` the trailing edge due; `repl` is
a schedule that a commit has brought and that replaces this one at its own first edge (R231, R319). -/
structure TrigOut where
  enable : Bool
  sched : TrigSched
  late : Bool
  remaining : BitVec 32
  next : Ns
  fired : BitVec 16
  skipped : BitVec 16
  level : Bool
  fall : Option Ns
  repl : Option TrigSched
  nextHiLatch : BitVec 32
deriving DecidableEq, Repr

/-- A capture in an input's FIFO (R234). -/
structure Capture where
  time : Ns
  rising : Bool
  encValid : Bool
  seq : BitVec 16
  count : Int
  torTime : Nat
deriving DecidableEq, Repr

/-- TRIG_IN_n, n = 8 for PPS_IN (R233 to R235). -/
structure TrigIn where
  edge : BitVec 2
  filter : BitVec 8
  enc : BitVec 8
  captures : BitVec 32
  glitch : BitVec 16
  overflow : BitVec 16
  fifo : List Capture
  last : Option Ns
  episode : Bool
deriving DecidableEq, Repr

/-- What a Ripple action does when it fires (R238). -/
inductive RippleWork where
  | snapshot (periodic demand : Bool)
  | cfgCommit (sets : BitVec 8)
  | proxSep (a b dist : Nat)
  | proxZone (group : Nat) (mask : BitVec 32)
  | proxPlume (rule : Nat) (dirX dirY : Int) (len half : Nat)
  | trigOut (out : Nat) (sched : TrigSched)
  | trigStop (mask : BitVec 16)
  | calStart (kind : Nat) (units : List Nat)
  | layerStart (layer : Nat)
  | syncRelease (id : Nat)
deriving DecidableEq, Repr

/-- A pending Ripple action (R236): its launch tick, whether the host posted it, the descriptor that waits for it, LATE,
and the targets that are missing, by unit kind and index (R238). -/
structure RippleAction where
  work : RippleWork
  launch : Ns
  host : Bool
  tk : Option Ref
  late : Bool
  missing : List UnitId
deriving DecidableEq, Repr

/-- Ripple (R236 to R242), oldest action first. -/
structure Ripple where
  actions : List RippleAction
  fired : BitVec 32
  cancelled : BitVec 16
  late : BitVec 16
  lastTick : BitVec 64
  lastTickHiLatch : BitVec 32
deriving DecidableEq, Repr

/-- The clock: TIME_STAT, TIME_NOW, TIME_QUALITY, TIME_PARENT, TIME_COUNT (R213 to R228). `now` is the TIME counter in
ns. `offsets` are the last 16 |offset|, newest first. `freqLog` lists the steered frequencies of the latest lock with how long
each lasted, newest first, and `freqSince` when the one that runs began (R224). `gmInfo` is the latest Announce of the parent. `masterDelta` is t2 − t1 less the correction of the latest Sync, `gmPending`
that BMCA has made the module grandmaster in HOLDOVER during a job (R223), `delayReq` the Delay_Req or Pdelay_Req sent
and not answered: port, sequence and time of sending. `foreign` are the Announce messages heard, newest of each sender. -/
structure Clock where
  now : Ns
  state : TimeState
  stepBlocked : Bool
  boundExceeded : Bool
  boundRaised : Bool
  ppsPresent : Bool
  parentPort : BitVec 2
  parent : Option Nat
  foreign : List (Ns × Announce)
  secLatch : BitVec 48
  etb : BitVec 32
  offset : Int
  freqAdj : Int
  holdSince : Ns
  e0 : Nat
  gmId : BitVec 64
  stepsRemoved : BitVec 16
  gmClass : BitVec 8
  pathDelay : BitVec 32
  syncRx : BitVec 32
  sourceLoss : BitVec 16
  steps : BitVec 16
  tcFrames : BitVec 32
  stepBlocks : BitVec 16
  offsets : List Nat
  freqLog : List (Nat × Int)
  freqSince : Ns
  gmInfo : Option Announce
  href : Int
  masterDelta : Int
  gmPending : Bool
  lastSync : Option Ns
  lastPps : Option Ns
  delayReq : List (Nat × Nat × Ns)
  linkDelay : List Nat
  seqSync : BitVec 16
  seqAnnounce : BitVec 16
  seqDelay : BitVec 16
deriving DecidableEq, Repr

/-- PPS_OUT and PPS_IN (R235, R243, R245). `fall` is the trailing edge due, `driven` the second values that have had their edge, as ranges
with the newest first, `pending` are the PPS_OUT_CFGs that wait for the next whole second; one without a descriptor came
by a commit. -/
structure Pps where
  mode : BitVec 2
  width : BitVec 24
  inOffset : Int
  level : Bool
  fall : Option Ns
  driven : List (Nat × Nat)
  pending : List (Nat × Nat × Option Ref)
deriving DecidableEq, Repr

/-- The TIME block. -/
structure TimeBlk where
  clock : Clock
  trigOut : List TrigOut
  trigIn : List TrigIn
  ringSet : Bool
  ringBase : BitVec 64
  ringSize : Nat
  ringNext : Nat
  /-- TRIG_OUT_STOP descriptors that wait for their outputs to be idle -/
  stops : List (Ref × BitVec 16)
  pps : Pps
  ripple : Ripple
deriving DecidableEq, Repr

def TrigSched.reset : TrigSched :=
  { refPtp := false, start := 0, fine := 0, period := 0, width := 0, count := 0, activeLow := false, toggle := false }

def TrigOut.reset : TrigOut :=
  { enable := false, sched := .reset, late := false, remaining := 0, next := 0, fired := 0, skipped := 0, level := false,
    fall := none, repl := none, nextHiLatch := 0 }

def TrigIn.reset : TrigIn :=
  { edge := 0, filter := 0, enc := 0xFF, captures := 0, glitch := 0, overflow := 0, fifo := [], last := none,
    episode := false }

/-- PPS_IN: rising edges, FILTER 4 (R235). -/
def TrigIn.resetPps : TrigIn := { TrigIn.reset with edge := 1, filter := 4 }

def Ripple.reset : Ripple :=
  { actions := [], fired := 0, cancelled := 0, late := 0, lastTick := 0, lastTickHiLatch := 0 }

def Clock.reset : Clock :=
  { now := 0, state := .free, stepBlocked := false, boundExceeded := false, boundRaised := false, ppsPresent := false, parentPort := 0,
    parent := none, foreign := [], secLatch := 0, etb := 0xFFFFFFFF, offset := 0, freqAdj := 0, holdSince := 0, e0 := 0,
    gmId := 0, stepsRemoved := 0, gmClass := 0, pathDelay := 0, syncRx := 0, sourceLoss := 0, steps := 0, tcFrames := 0,
    stepBlocks := 0, offsets := [], freqLog := [], freqSince := 0, gmInfo := none, href := 0, masterDelta := 0, gmPending := false, lastSync := none, lastPps := none, delayReq := [],
    linkDelay := [0, 0, 0, 0], seqSync := 0, seqAnnounce := 0, seqDelay := 0 }

def Pps.reset : Pps :=
  { mode := 1, width := 100000, inOffset := 0, level := false, fall := none, driven := [], pending := [] }

def TimeBlk.reset : TimeBlk :=
  { clock := .reset, trigOut := List.replicate 16 .reset, trigIn := List.replicate 8 .reset ++ [.resetPps],
    ringSet := false, ringBase := 0, ringSize := 0, ringNext := 0, stops := [], pps := .reset, ripple := .reset }

end Sys2Proof.Machine
end

