-- ==== Sys2Proof/Machine/Epb.lean ====
section
/-! DEFINITION. The Eohus Predictive Block format (R457 to R462): coding and decoding of one block. -/

namespace Sys2Proof.Machine

/-- What a stream's input is (R457): KIND (1 IMAGE2D, 2 SERIES1D), sample bytes, channels and WIDTH. -/
structure EpbForm where
  kind : Nat
  bytes : Nat
  channels : Nat
  width : Nat
deriving DecidableEq, Repr

/-- FORMAT and WIDTH as a form; none for a reserved value (R457, R458). -/
def readForm (kind format width : Nat) : Option EpbForm :=
  let size := bits format 0 2
  let ch := bits format 2 3 + 1
  let f : EpbForm := { kind := kind, bytes := size + 1, channels := ch, width := width }
  if 2 ≤ size || bits format 5 3 != 0 then none
  else if kind = 1 then (if ch = 1 && 1 ≤ width && width * (size + 1) ≤ 65536 then some f else none)
  else if kind = 2 then (if width = 0 then some f else none)
  else none

/-- The FORMAT byte. -/
def EpbForm.format (f : EpbForm) : Nat := f.bytes - 1 + 4 * (f.channels - 1)

/-- The bytes of a row or a sample group, of which a block holds a whole number (R458). -/
def EpbForm.unit (f : EpbForm) : Nat := if f.kind = 1 then f.width * f.bytes else f.channels * f.bytes

/-- The input of a full block (R458). -/
def EpbForm.full (f : EpbForm) : Nat := 65536 / f.unit * f.unit

/-! ### Prediction (R459) -/

/-- Samples of w bytes. -/
def samplesOf (w : Nat) : Nat → List Byte → List Nat
  | 0, _ => []
  | n + 1, bs => field bs 0 w :: samplesOf w n (bs.drop w)

/-- The prediction of sample i from the samples before it, newest first; none for one that is written as it is. -/
def predict (f : EpbForm) (i : Nat) (past : List Nat) : Option Nat :=
  if f.kind = 2 then (if i < f.channels then none else some (past.getD (f.channels - 1) 0))
  else if i = 0 then none
  else
    let a := past.getD 0 0
    let b := past.getD (f.width - 1) 0
    let c := past.getD f.width 0
    if i < f.width then some a
    else if i % f.width = 0 then some b
    else if max a b ≤ c then some (min a b)
    else if c ≤ min a b then some (max a b)
    else some (a + b - c)

/-- The residue mapped to a number without sign. -/
def mapResidue (w s p : Nat) : Nat :=
  let r := signExt w (s + 2 ^ w - p)
  if 0 ≤ r then (2 * r).toNat else (-2 * r - 1).toNat

/-- A sample from its prediction and its mapped residue. -/
def unmapResidue (w p m : Nat) : Nat :=
  let r : Int := if m % 2 = 0 then ((m / 2 : Nat) : Int) else -(((m + 1) / 2 : Nat) : Int)
  (((p : Int) + r) % ((2 ^ w : Nat) : Int)).toNat

/-! ### The adaptive code (R460) -/

/-- The state A, N. -/
abbrev Rice := Nat × Nat

/-- The smallest k with (N << k) ≥ A, or w. -/
def riceK (w : Nat) (st : Rice) : Nat := ((List.range w).find? fun k => decide (st.1 ≤ st.2 * 2 ^ k)).getD w

/-- The state after a value. -/
def riceNext (st : Rice) (m : Nat) : Rice :=
  let a := st.1 + m
  let n := st.2 + 1
  if n = 64 then (a / 2, 32) else (a, n)

/-- The low n bits of v, least significant first. -/
def bitsLE : Nat → Nat → List Bool
  | 0, _ => []
  | n + 1, v => bit v 0 :: bitsLE n (v / 2)

/-- The bits of one value. -/
def riceBits (w : Nat) (st : Rice) (m : Nat) : List Bool :=
  let k := riceK w st
  let q := m / 2 ^ k
  if q < 32 then List.replicate q true ++ false :: bitsLE k m
  else List.replicate 32 true ++ bitsLE w m

/-- The bits of all samples of a block. -/
def codeGo (f : EpbForm) : Nat → List Nat → Rice → List Nat → List Bool
  | _, [], _, _ => []
  | i, s :: rest, st, past =>
    let w := 8 * f.bytes
    match predict f i past with
    | none => bitsLE w s ++ codeGo f (i + 1) rest st (s :: past)
    | some p =>
      let m := mapResidue w s p
      riceBits w st m ++ codeGo f (i + 1) rest (riceNext st m) (s :: past)

/-- Bits as bytes, bit j in bit j mod 8 of byte j / 8. -/
def packBits : Nat → List Bool → List Byte
  | 0, _ => []
  | _ + 1, [] => []
  | n + 1, bs => BitVec.ofNat 8 ((bs.take 8).foldr (fun b v => b1 b + 2 * v) 0) :: packBits n (bs.drop 8)

/-- The coded payload of a block. -/
def codePayload (f : EpbForm) (input : List Byte) : List Byte :=
  let bs := codeGo f 0 (samplesOf f.bytes (input.length / f.bytes) input) (16, 1) []
  packBits (bs.length / 8 + 1) bs

/-- A block (R457, R461): STORED where coding does not make the input smaller. -/
def epbBlock (f : EpbForm) (input : List Byte) (first last flushed : Bool) : List Byte :=
  let coded := codePayload f input
  let stored := decide (input.length ≤ coded.length)
  let payload := if stored then input else coded
  let body := natLE 2 0x4250 ++ natLE 1 (if stored then 0 else f.kind) ++ natLE 1 (b1 last + 2 * b1 first + 4 * b1 flushed)
    ++ natLE 1 f.format ++ natLE 1 0 ++ natLE 2 f.width ++ natLE 4 input.length ++ natLE 4 payload.length ++ payload
  let body := body ++ List.replicate (alignUp payload.length 4 - payload.length) 0
  body ++ natLE 4 (crc32 body)

/-- A block was written as STORED. -/
def epbStored (block : List Byte) : Bool := field block 2 1 == 0

/-! ### Decoding (R462) -/

/-- Bytes as bits. -/
def unpackBits (bs : List Byte) : List Bool := bs.flatMap fun b => bitsLE 8 b.toNat

/-- The number that bits spell, least significant first. -/
def bitsNat (bs : List Bool) : Nat := bs.foldr (fun b v => b1 b + 2 * v) 0

/-- Leading one-bits, at most n. -/
def leadOnes : Nat → List Bool → Nat
  | 0, _ => 0
  | _ + 1, [] => 0
  | n + 1, b :: bs => if b then leadOnes n bs + 1 else 0

/-- One coded value and the bits after it; none where they end before it. -/
def riceRead (w : Nat) (st : Rice) (bs : List Bool) : Option (Nat × List Bool) :=
  let k := riceK w st
  let q := leadOnes 32 bs
  if q = 32 then
    (if bs.length < 32 + w then none else some (bitsNat ((bs.drop 32).take w), bs.drop (32 + w)))
  else if bs.length < q + 1 + k then none
  else some (q * 2 ^ k + bitsNat ((bs.drop (q + 1)).take k), bs.drop (q + 1 + k))

/-- The samples of a coded payload, oldest first, with the bits that are left. -/
def decodeGo (f : EpbForm) : Nat → Nat → Rice → List Nat → List Bool → Option (List Nat × List Bool)
  | 0, _, _, past, bs => some (past.reverse, bs)
  | n + 1, i, st, past, bs =>
    let w := 8 * f.bytes
    match predict f i past with
    | none =>
      if bs.length < w then none else decodeGo f n (i + 1) st (bitsNat (bs.take w) :: past) (bs.drop w)
    | some p =>
      match riceRead w st bs with
      | none => none
      | some (m, rest) => decodeGo f n (i + 1) (riceNext st m) (unmapResidue w p m :: past) rest

/-- A decoded block: its input, whether it has FIRST and LAST, and its length in the stream. -/
structure EpbOut where
  input : List Byte
  first : Bool
  last : Bool
  size : Nat
deriving DecidableEq, Repr

/-- The block at the start of `bs` (R462); none where it is not valid. -/
def epbDecode (bs : List Byte) : Option EpbOut :=
  let kind := field bs 2 1
  let flags := field bs 3 1
  let width := field bs 6 2
  let inSize := field bs 8 4
  let outSize := field bs 12 4
  let size := 16 + alignUp outSize 4 + 4
  let form := if width = 0 then readForm 2 (field bs 4 1) 0 else readForm 1 (field bs 4 1) width
  let body := bs.take (size - 4)
  let payload := (bs.drop 16).take outSize
  match form with
  | none => none
  | some f =>
    if field bs 0 2 != 0x4250 || 2 < kind || (kind != 0 && kind != f.kind) || bits flags 3 5 != 0 || field bs 5 1 != 0
      || inSize = 0 || 65536 < inSize || inSize % f.unit != 0 || outSize = 0 || inSize < outSize
      || (kind = 0 && outSize != inSize) || (kind != 0 && outSize = inSize) || bs.length < size
      || !allZero ((bs.drop (16 + outSize)).take (alignUp outSize 4 - outSize)) || field bs (size - 4) 4 != crc32 body then none
    else
      let out := fun i : List Byte => some ({ input := i, first := bit flags 1, last := bit flags 0, size := size } : EpbOut)
      if kind = 0 then out payload
      else
        match decodeGo f (inSize / f.bytes) 0 (16, 1) [] (unpackBits payload) with
        | none => none
        | some (ss, rest) =>
          if 8 ≤ rest.length || rest.any (fun b => b) then none else out (ss.flatMap fun s => natLE f.bytes s)

end Sys2Proof.Machine
end

