-- ==== Sys2Proof/Machine/Parts/Zip.lean ====
section
/-! DEFINITION. State of compression, composition and display (chapter "Compression, composition and display"). -/

namespace Sys2Proof.Machine

/-! ### Compression (R463 to R469) -/

/-- A ZIP_FEED or ZIP_FLUSH that waits: what is left of its input, FLUSH and END, and whether it is a ZIP_FLUSH, which
completes when its block is written. -/
structure ZipFeed where
  ref : Ref
  addr : Nat
  len : Nat
  flush : Bool
  fin : Bool
  only : Bool
deriving DecidableEq, Repr

/-- Where a job's input is: in Basin, with the bytes left and those that are there already; in the module's own staging
(Mere, R174); fed by the host; or, for a decode, pieces of Basin in order. -/
inductive ZipSrc where
  | mem (addr left avail : Nat)
  | own (bytes : List Byte)
  | feed
  | pieces (ps : List (Nat × Nat))
deriving DecidableEq, Repr

/-- A compression job. `user` is the STATE code 2 for a host job, 3 for a camera and 4 for Mere; `port` and `frame` name the camera
frame, or `frame` the step number of the saved field. `opened` says that ZIP_OPEN opened it. `bufs` are the output buffers (address, size), `used` what is written in each and `cur` the
one in use; `table` is the chain table. `buffer` is the channel's input buffer, `flushing` that a block is to close early, `flushRefs` the
ZIP_FLUSHs that wait for it, `ending` that END has been taken in and `endRef` its descriptor. `work` is the block that an engine
has: input bytes and LAST. `failed` keeps an outcome for the next descriptor (log 50). A decode writes to `out` under `limit` and
has read `inPos` bytes. -/
structure ZipJob where
  user : Nat
  port : Nat
  frame : Nat
  ref : Option Ref
  opened : Bool
  decode : Bool
  form : EpbForm
  keep : Bool
  table : Option Nat
  bufs : List (Nat × Nat)
  used : List Nat
  cur : Nat
  src : ZipSrc
  buffer : List Byte
  feeds : List ZipFeed
  flushing : Bool
  flushRefs : List Ref
  ending : Bool
  endRef : Option Ref
  consumed : Nat
  written : Nat
  blocks : Nat
  work : Option (Nat × Bool)
  failed : Option (Nat × Nat)
  out : Nat
  limit : Nat
  inPos : Nat
deriving DecidableEq, Repr

/-- ZIP_CH_c with its job and the internal jobs that wait for it. -/
structure ZipChan where
  job : Option ZipJob
  next : List ZipJob
  bytesIn : BitVec 32
  bytesOut : BitVec 32
  blocks : BitVec 32
  stored : BitVec 32
  noSpace : BitVec 16
  noGain : BitVec 16
  limit : BitVec 16
  dataErr : BitVec 16
deriving DecidableEq, Repr

/-- ZIP_ENG_e: the channel whose block it works on, since when, and when it will have finished (R464). `busyNs` is the time
busy in ns. -/
structure ZipEng where
  chan : Option Nat
  decode : Bool
  since : Ns
  due : Ns
  blocks : BitVec 32
  busyNs : Nat
deriving DecidableEq, Repr

/-- The compression engine; `ptr` is the rotating pointer of R463. -/
structure Zip where
  chans : List ZipChan
  engs : List ZipEng
  ptr : Nat
deriving DecidableEq, Repr

/-! ### Composition (R471 to R478) -/

/-- A layer record (R471). -/
structure CompLayer where
  source : Nat
  format : Nat
  isStatic : Bool
  visible : Bool
  alpha : Nat
  port : Nat
  addr : Nat
  aux : Nat
  stride : Nat
  srcX : Nat
  srcY : Nat
  srcW : Nat
  srcH : Nat
  dstX : Int
  dstY : Int
  dstW : Nat
  dstH : Nat
  fill : Nat
  exposure : Nat
deriving DecidableEq, Repr

/-- A scene record (R471). -/
structure SceneRec where
  outW : Nat
  outH : Nat
  periodic : Bool
  bg : Nat
  periodUs : Nat
  ring : Nat
  stride : Nat
  count : Nat
  layers : List CompLayer
deriving DecidableEq, Repr

/-- A composition in progress (R477): HEAD_FRAME, its buffer, its start and when it will have finished, the flags it started with,
the job layer, the scene as it was, the static cache it uses, and of each layer the camera slot with HEAD_FRAME as first read. `view` is the
COPY_SEQ, the LAST_STEP, NX and the cells of the Mere view, and `ref` the COMPOSE_RUN. -/
structure CompRun where
  head : Nat
  buf : Nat
  start : Ns
  due : Ns
  cacheOld : Bool
  throttled : Bool
  layerIndex : Nat
  scene : SceneRec
  cache : Option (List (Nat × Nat × Nat))
  slots : List (Option (Nat × Nat))
  view : Option (Nat × Nat × Nat × List Nat)
  ref : Option Ref
deriving DecidableEq, Repr

/-- A COMPOSE_LAYER that waits for the next composition (R475, R484). -/
structure LayerChange where
  layer : Nat
  visible : Bool
  alpha : Nat
  dstX : Int
  dstY : Int
  addr : Nat
  ref : Option Ref
deriving DecidableEq, Repr

/-- COMPOSE_SCENE_s. `heads` are the HEAD_FRAMEs finished in the buffers of the ring, 0 for none; `cache` is the static cache,
row by row, `rebuild` that a rebuild is due or under way, and `cacheIndex` the job layer it was asked for with. `runs` are the
COMPOSE_RUNs that wait, with their launch, `stops` the COMPOSE_STOPs, `loads` the COMPOSE_SCENEs that wait for the end of a composition,
and `cacheRefs` the COMPOSE_LAYERs of the static layers in the cache that no composition has used yet. -/
structure Scene where
  rec_ : Option SceneRec
  heads : List Nat
  lastFrame : BitVec 32
  number : BitVec 32
  late : BitVec 16
  torn : BitVec 16
  cacheBuilds : BitVec 32
  cache : Option (List (Nat × Nat × Nat))
  rebuild : Bool
  cacheIndex : Nat
  run : Option CompRun
  changes : List LayerChange
  runs : List (Ref × Ns)
  stops : List Ref
  stopped : Bool
  loads : List (SceneRec × Ref)
  cacheRefs : List Ref
  lateEpisode : Bool
  tornEpisode : Bool
deriving DecidableEq, Repr

/-- EDP_STAT and the display binding (R480 to R482). `shown` is the HEAD_FRAME and buffer that are scanned, `bind` a binding that
waits for the next frame start, with its descriptors. -/
structure Edp where
  hpd : Bool
  trained : Bool
  lanes : BitVec 3
  rate : BitVec 2
  frames : BitVec 32
  repeated : BitVec 32
  linkLoss : BitVec 16
  trainFail : BitVec 16
  scene : Option Nat
  bind : Option (Option Nat)
  bindRefs : List Ref
  shown : Option (Nat × Nat)
  repeats : Nat
  episode : Bool
deriving DecidableEq, Repr

def ZipChan.reset : ZipChan :=
  { job := none, next := [], bytesIn := 0, bytesOut := 0, blocks := 0, stored := 0, noSpace := 0, noGain := 0, limit := 0,
    dataErr := 0 }

def ZipEng.reset : ZipEng := { chan := none, decode := false, since := 0, due := 0, blocks := 0, busyNs := 0 }

def Zip.reset : Zip := { chans := List.replicate 8 .reset, engs := List.replicate 4 .reset, ptr := 0 }

def Scene.reset : Scene :=
  { rec_ := none, heads := [], lastFrame := 0, number := 0, late := 0, torn := 0, cacheBuilds := 0, cache := none,
    rebuild := false, cacheIndex := 0, run := none, changes := [], runs := [], stops := [], stopped := false, loads := [],
    cacheRefs := [],    lateEpisode := false, tornEpisode := false }

def Edp.reset : Edp :=
  { hpd := false, trained := false, lanes := 0, rate := 0, frames := 0, repeated := 0, linkLoss := 0, trainFail := 0,
    scene := none, bind := none, bindRefs := [], shown := none, repeats := 0, episode := false }

end Sys2Proof.Machine
end

