-- ==== Sys2Proof/Machine/State.lean ====
section
/-! DEFINITION. The whole state of the module as plain data, the reasons a step can stop, and the state after reset. -/

namespace Sys2Proof.Machine

/-- The faults of a step. There is none: the module reports every error in its own state (status codes, lane faults,
events), and no command stops the model with a fault. -/
inductive Fault where
deriving DecidableEq, Repr

/-- The refusals of a step. -/
inductive Refusal where
  /-- Raised by an arm of `exec` whose command has no meaning yet, with the row's mnemonic. Safe: the step stops. -/
  | notModelled (mnemonic : String)
deriving DecidableEq, Repr

/-- The module. -/
structure State where
  ident : Ident
  pins : Pins
  power : Power
  permit : Permit
  boot : Boot
  members : Members
  profile : ProfileBlk
  time : TimeBlk
  basin : Basin
  hostq : HostQ
  events : EventRing
  access : AccessErr
  mgmt : Mgmt
  still : Still
  override : Override
  /-- the staging sets 0 to 7 (R317) -/
  staging : List (List Instr)
  /-- fetched descriptors that wait for a profile in force (R343) -/
  waiting : List Instr
  jobs : Jobs
  /-- lanes 0 to 127 -/
  lanes : List Lane
  tarns : List Tarn
  /-- the reference curves in force (R145, R179) -/
  curves : List (Option Curve)
  mere : Mere
  prox : Prox
  link : Link
  /-- the configuration registers: BAR0 offset and word, rising offsets; a register that is not listed holds 0 (R379) -/
  cfg : List (Nat × Word)
  axes : AxisBlk
  enc : List Enc
  hall : List Hall
  cmp : List Cmp
  echo : List Echo
  hk : Hk
  /-- camera ports 0 to 7 -/
  cams : List Cam
  isp : Isp
  light : Light
  zip : Zip
  /-- scenes 0 to 3 -/
  scenes : List Scene
  edp : Edp
  recorder : Recorder
  /-- what has left the module, newest first (log 4) -/
  sent : List Sent
  /-- how many free values have been used (log 1) -/
  free : Nat
  /-- the commands that wait, first in, first out -/
  pending : List Instr
deriving DecidableEq, Repr

/-- The module right after POR: every field at the value the spec states for POR, or at the value that the assumption
log names. -/
def State.reset : State :=
  { ident := .reset, pins := .reset, power := .reset, permit := .reset, boot := .reset, members := .reset, profile := .reset,
    time := .reset, basin := .reset, hostq := .reset, events := .reset, access := .reset, mgmt := .reset,
    still := .reset, override := .reset, staging := List.replicate 8 [], waiting := [], jobs := .reset,
    lanes := List.replicate 128 .reset, tarns := List.replicate 16 .reset, curves := List.replicate 32 none,
    mere := .reset, prox := .reset, link := .reset, cfg := cfgDefaults, axes := .reset,
    enc := List.replicate 16 .reset, hall := List.replicate 8 .reset, cmp := List.replicate 16 .reset,
    echo := List.replicate 4 .reset, hk := .reset, cams := List.replicate 8 .reset, isp := .reset,
    light := .reset, zip := .reset, scenes := List.replicate 4 .reset, edp := .reset, recorder := .reset, sent := [],
    free := 0, pending := [] }

end Sys2Proof.Machine
end

