-- ==== Sys2Proof/Machine/Banks.lean ====
section
/-! DEFINITION. The address mapping of Basin and the order in which its banks serve requests (R488 to R491, R493). -/

namespace Sys2Proof.Machine

/-- The variant of the module (R1). -/
def State.variant (s : State) : Variant := s.ident.variant

/-- The end of usable Basin (R488). -/
def usableEnd (s : State) : Nat :=
  match s.variant, s.basin.eccEn with
  | .mfc048, true => 0x380000000
  | .mfc048, false => 0x400000000
  | _, true => 0x700000000
  | _, false => 0x800000000

/-! ### Address mapping (R489 to R491) -/

/-- The size S of a segment (R489). -/
def segSize (s : State) : Nat := usableEnd s / 8

/-- Rows of a segment in one bank (R489). -/
def segRows (s : State) : Nat := match s.variant with | .mfc048 => 8192 | _ => 16384

/-- The order of a segment; segment 0 is HASH (R490). -/
def segOrder (s : State) (k : Nat) : Nat := if k = 0 then 0 else (unit s.basin.segOrder k 0).toNat

/-- The first segment of the mapping region of segment `k`: consecutive segments of one order (R490). -/
def regionFirst (s : State) : Nat → Nat
  | 0 => 0
  | k + 1 => if segOrder s k = segOrder s (k + 1) then regionFirst s k else k + 1

/-- How many segments from `k` on share its order. -/
def regionCount (s : State) (k : Nat) : Nat :=
  ((List.range' k (8 - k)).takeWhile fun j => segOrder s j == segOrder s k).length

/-- The parity of a number's set bits. -/
def parity (n : Nat) : Nat := ((List.range 32).countP fun i => n.testBit i) % 2

/-- Where a byte of Basin lies (R491). -/
structure Place where
  channel : Nat
  bank : Nat
  row : Nat
  column : Nat
  byte : Nat
deriving DecidableEq, Repr

/-- The mapping of R491. -/
def basinPlace (s : State) (a : Nat) : Place :=
  let k := a / segSize s
  let k0 := regionFirst s k
  let a0 := k0 * segSize s
  let r0 := k0 * segRows s
  let nr := regionCount s k0 * segRows s
  let p := if s.basin.eccEn then 14 else 16
  let u := (a - a0) / 256
  let w := u / 4
  let row := r0 + w / (16 * p)
  let h := ((List.range 4).map fun i =>
    2 ^ i * parity (row &&& (unit s.basin.bankMask i 0).toNat)).foldl (· + ·) 0
  match segOrder s k with
  | 0 => { channel := u % 4, bank := (w / p % 16) ^^^ h, row := row, column := w % p, byte := (a - a0) % 256 }
  | 1 => { channel := u % 4, bank := w / p % 16, row := row, column := w % p, byte := (a - a0) % 256 }
  | 2 => { channel := u % 4, bank := w / (p * nr), row := r0 + w / p % nr, column := w % p, byte := (a - a0) % 256 }
  | _ => { channel := u % 4, bank := w % 16, row := row, column := w / 16 % p, byte := (a - a0) % 256 }

/-! ### Open rows (R493) -/

/-- The bank of a place among the 64 of the four channels. -/
def Place.bankIndex (p : Place) : Nat := 16 * p.channel + p.bank

/-- The rows of a bank's requests, oldest first, in the order in which they are served: those that hit the open row go ahead of older
ones that miss it (R493). -/
def serveRows : Nat → Option Nat → List Nat → List Nat
  | 0, _, _ => []
  | _ + 1, _, [] => []
  | n + 1, opened, r :: rs =>
    let row := match opened with | some o => if (r :: rs).contains o then o else r | none => r
    (r :: rs).filter (fun x => x = row) ++ serveRows n (some row) ((r :: rs).filter fun x => x != row)

/-- The rows that an access to `n` bytes at `a` leaves open, its requests in order of address (R493; log 105). -/
def openAfter (a n : Nat) (s : State) : List (Option Nat) :=
  let ps := (List.range' (a / 256) (if n = 0 then 0 else (a + n - 1) / 256 + 1 - a / 256)).map fun u => basinPlace s (256 * u)
  (ps.map Place.bankIndex).eraseDups.foldl (fun os b =>
    let rows := (ps.filter fun p => p.bankIndex = b).map fun p => p.row
    os.set b (serveRows rows.length (unit os b none) rows).getLast?) s.basin.openRows

/-- A refresh of a channel closes its rows (R493). -/
def closeRows (c : Nat) (os : List (Option Nat)) : List (Option Nat) := os.mapIdx fun b o => if b / 16 = c then none else o

end Sys2Proof.Machine
end

