-- ==== Sys2Proof/Machine/Ops.lean ====
section
/-! DEFINITION. The named operations that every command uses: time, Basin contents, interrupt vectors, events and the
checks on addresses and units. -/

namespace Sys2Proof.Machine

/-! ### Time -/

/-- The TIME counter in PTP ns (R213). -/
def State.now (s : State) : Ns := s.time.clock.now

/-- Time passes to `t`; it never goes back here (only a step moves it back, R225). -/
def passTo (t : Ns) (s : State) : State :=
  { s with time := { s.time with clock := { s.time.clock with now := max s.time.clock.now t } } }

/-- The first lane tick at or after `t` (R214). -/
def tickAt (t : Ns) : Ns := alignUp t 5

/-- A fresh free value's number (log 1): the step takes it from the state and counts on. -/
def takeFree (s : State) : Nat × State := (s.free, { s with free := s.free + 1 })

/-! ### Variant and profile -/

/-- A profile is in force (R364). -/
def profileInForce (s : State) : Bool := s.profile.inForce != 0

/-- The records in force (R366). -/
def State.prof (s : State) : Profile := s.profile.records

/-- The LANE record of a lane (R368). -/
def laneRec (s : State) (l : Nat) : LaneRec := unit s.prof.lanes l .unmapped

/-- Lane `l` exists on the variant and is in the lane map (R3, R95, R368). -/
def laneMapped (s : State) (l : Nat) : Bool := decide (l < s.variant.lanes) && (laneRec s l).mapped

/-- The job state (R62). -/
def jobState (s : State) : Nat := s.jobs.state.toNat

/-- The job state is not NONE (R62). -/
def jobExists (s : State) : Bool := s.jobs.state != 0

/-- The clock is in a state of READY_SYNCED (R227). -/
def timeSynced (s : State) : Bool :=
  match s.time.clock.state with
  | .coarse => true
  | .fine => true
  | .holdover => true
  | .master => true
  | .free => false
  | .acquiring => false

/-! ### Basin contents -/

/-- One byte of a memory; a byte that is not listed reads 0 (log 2). -/
def Mem.read : List Host.Cell → Nat → Byte
  | [], _ => 0
  | (k, v) :: m, a => if k = a then v else if a < k then 0 else Mem.read m a

/-- A memory with one byte written; a byte of 0 is not listed (log 2). -/
def Mem.write : List Host.Cell → Nat → Byte → List Host.Cell
  | [], a, b => if b = 0 then [] else [(a, b)]
  | (k, v) :: m, a, b =>
    if k < a then (k, v) :: Mem.write m a b
    else if k = a then (if b = 0 then m else (a, b) :: m)
    else if b = 0 then (k, v) :: m else (a, b) :: (k, v) :: m

/-- Consecutive bytes written from address `a` on. -/
def Mem.writeBytes : List Host.Cell → Nat → List Byte → List Host.Cell
  | m, _, [] => m
  | m, a, b :: bs => Mem.writeBytes (Mem.write m a b) (a + 1) bs

/-- Every listed address is above `lo` and above the one before it, and no listed byte is 0. -/
def Mem.above : Nat → List Host.Cell → Bool
  | _, [] => true
  | lo, (k, v) :: m => decide (lo ≤ k) && v != 0 && Mem.above (k + 1) m

/-- The canonical form: addresses strictly rising, no byte listed that reads as an unlisted one does. -/
def Mem.wf (m : List Host.Cell) : Bool := Mem.above 0 m

/-- `n` bytes of Basin from address `a`. -/
def memRead (a n : Nat) (s : State) : List Byte := (List.range n).map fun i => Mem.read s.basin.mem (a + i)

/-- A little-endian number of `n` bytes in Basin (R5). -/
def memNat (a n : Nat) (s : State) : Nat := leNat (memRead a n s)

/-- A region lies wholly in host memory (R600). -/
def hostMem (base size : Nat) (s : State) : Bool := decide (0x20000000 ≤ base) && decide (base + size ≤ usableEnd s)

/-- A request for `n` bytes at `a` reaches Basin: it is no longer idle, leaves self-refresh (R500, R501), and the banks serve it (R493). -/
def touchBasin (a n : Nat) (s : State) : State :=
  { s with basin := { s.basin with state := 0, lastReq := s.now, openRows := openAfter a n s } }

/-- Bytes put into Basin; a word written in full is no longer poisoned (R505). -/
def memPut (a : Nat) (bs : List Byte) (s : State) : State :=
  { s with basin :=
      { s.basin with
        mem := Mem.writeBytes s.basin.mem a bs
        state := 0
        lastReq := s.now
        openRows := openAfter a bs.length s
        poisoned := s.basin.poisoned.filter fun w => !(decide (a ≤ 8 * w) && decide (8 * w + 8 ≤ a + bs.length)) } }

/-- The first poisoned word that a read of `n` bytes at `a` meets, ECC being on (R504). -/
def poisonIn (a n : Nat) (s : State) : Option Nat :=
  if s.basin.eccEn then
    (s.basin.poisoned.find? fun w => decide (8 * w < a + n) && decide (a < 8 * w + 8)).map fun w => 8 * w
  else none

/-! ### Interrupt vectors -/

/-- The MSI-X table entry of a vector. -/
def msixOf (s : State) (v : Nat) : MsixEntry := unit s.hostq.msix v .reset

/-- Vector `v` fires: a message goes out, or the vector stays pending while it is masked or the PCIe link is down (R323);
an attached management host sees every vector that is not masked (R289). -/
def fireVector (v : Nat) (s : State) : State :=
  let masked := (msixOf s v).masked
  let s := if s.mgmt.attached.isSome && !masked then
      { s with mgmt := { s.mgmt with notify := s.mgmt.notify ||| BitVec.ofNat 64 (2 ^ v), fresh := true } } else s
  if masked || !s.hostq.pcieUp then { s with hostq := { s.hostq with pba := s.hostq.pba ||| BitVec.ofNat 64 (2 ^ v) } }
  else { s with sent := .msix v :: s.sent }

/-! ### Extremes of the recorder (R539) -/

/-- The active accumulation set changes (R540). -/
def setActive (f : RecSet → RecSet) (s : State) : State :=
  { s with recorder :=
      if s.recorder.activeB then { s.recorder with setB := f s.recorder.setB } else { s.recorder with setA := f s.recorder.setA } }

/-- Extremes 8 to 15 are smallest values, the others largest. -/
def beyond (i : Nat) (new old : Int) : Bool := if 8 ≤ i && i < 16 then decide (new < old) else decide (old < new)

/-- A value for extreme i: it replaces one that it is strictly beyond (R539). -/
def recExtreme (i : Nat) (value : Int) (tag : Nat) (s : State) : State :=
  setActive (fun r => { r with
    ext := r.ext.modify i fun x =>
      match x with
      | some e => if beyond i value e.value then some { value := value, minute := s.recorder.minutes.toNat, tag := tag } else some e
      | none => some { value := value, minute := s.recorder.minutes.toNat, tag := tag } }) s

/-! ### Events -/

/-- The vector of an event code (R295); tarn events of R295 name theirs through `raiseTarn`. -/
def eventVector (code : Nat) (s : State) : Nat :=
  match code / 4096 with
  | 1 => 37
  | 2 => 37
  | 4 => 34
  | 5 => 33
  | 6 => 38
  | 7 => 35
  | 8 => 36
  | 9 => 39
  | _ =>
    match s.events.routes.find? fun r => decide (r.lo.toNat ≤ code) && decide (code ≤ r.hi.toNat) with
    | some r => r.vec
    | none => 41

/-- Events that their chapters mark fatal: BASIN_ECC_FATAL (R509), CLOCK_LOST (R579), THERMAL_SHUTDOWN and RAIL_FAULT
(R535). -/
def eventFatal (code : Nat) : Bool := [0x6003, 0x1010, 0x2004, 0x1001].contains code

/-- The event ring has a place: HEAD equal to TAIL is an empty ring, so it holds one record less than its size
(log 8). -/
def eventRoom (s : State) : Bool :=
  s.events.set && (s.events.tail.toNat + 1) % s.events.size != s.events.head.toNat % s.events.size

/-- A list of bytes cut or padded with 0 to `n`. -/
def padTo (n : Nat) (bs : List Byte) : List Byte := (bs ++ List.replicate n 0).take n

/-- An event takes its SEQ and is written to the ring, or dropped and counted (R309). The recorder counts it in either case
(R538). -/
def putEvent (vec code : Nat) (data : List Byte) (s : State) : State :=
  let e := s.events
  let s := { s with events := { e with seq := e.seq + 1 }, recorder := { s.recorder with codes := code :: s.recorder.codes } }
  if eventRoom s then
    let recd := natLE 2 code ++ [BitVec.ofNat 8 vec, if e.phase then 1 else 0] ++ natLE 4 e.seq.toNat
      ++ natLE 8 s.now ++ padTo 16 data
    let wrap := decide (e.tail.toNat + 1 = e.size)
    let s := memPut (e.base.toNat + 32 * e.tail.toNat) recd s
    { s with events := { s.events with
        tail := if wrap then 0 else e.tail + 1
        phase := if wrap then !e.phase else e.phase } }
  else { s with events := { s.events with lost := satInc e.lost, unreported := e.unreported + 1 } }

/-- EVENT_OVERFLOW goes before the first record written after a drop (R309). -/
def putOverflow (s : State) : State :=
  if s.events.unreported = 0 || !eventRoom s then s
  else
    let n := s.events.unreported
    let vec := eventVector 0xA003 s
    let s := putEvent vec 0xA003 (natLE 4 n) { s with events := { s.events with unreported := 0 } }
    fireVector vec s

/-- An event with its vector given (R295, R309). Its vector fires also where the record is dropped. -/
def raiseOn (vec code : Nat) (data : List Byte) (s : State) : State :=
  let s := putEvent vec code data (putOverflow s)
  let s := fireVector vec s
  if eventFatal code then fireVector 40 s else s

/-- An event with the vector of R295. -/
def raise (code : Nat) (data : List Byte) (s : State) : State := raiseOn (eventVector code s) code data s

/-- An event of tarn `t`, codes 0x3020 to 0x3040 (R295). -/
def raiseTarn (t code : Nat) (data : List Byte) (s : State) : State := raiseOn (16 + t) code data s

/-! ### Access errors -/

/-- A BAR0 access that could not complete is recorded; the first record after each read of the group raises
ACCESS_REJECTED (R284). -/
def accessError (status off : Nat) (s : State) : State :=
  let a := s.access
  let s := { s with access := { a with
      lastStatus := BitVec.ofNat 8 status, lastOffset := BitVec.ofNat 26 off, armed := false, made := a.made + 1 } }
  if a.armed then raise 0xA004 (natLE 4 off ++ natLE 1 status) s else s

/-- BAD_ACCESS counts one (R283, R285). -/
def badAccess (s : State) : State := { s with access := { s.access with badAccess := satInc s.access.badAccess } }

/-- RESERVED_WRITES counts one (R284, R3). -/
def reservedWrite (s : State) : State :=
  { s with access := { s.access with reservedWrites := satInc s.access.reservedWrites } }

/-- A host write to a register of an FW group (R291). -/
def ownerReject (off : Nat) (s : State) : State :=
  accessError 0x14 off { s with access := { s.access with rejectedWrites := satInc s.access.rejectedWrites } }

/-! ### Uncorrectable errors (R504, R505) -/

/-- An uncorrectable word has been met by `port` at `a` (R504, R505): it is counted and reported. Below 0x2000_0000
BASIN_ECC_FATAL goes with it; the FIRMWARE reset that follows is the caller's. -/
def eccUe (port a : Nat) (s : State) : State :=
  let s := { s with basin :=
      { s.basin with ueCount := satInc s.basin.ueCount, lastUe := BitVec.ofNat 64 a } }
  let s := raise 0x6002 (natLE 8 a ++ natLE 1 port) s
  if a < 0x20000000 then raise 0x6003 (natLE 8 a) s else s

/-- The poisoned words that a write of `n` bytes at `a` fills only in part (R505). -/
def poisonPart (a n : Nat) (s : State) : List Nat :=
  if s.basin.eccEn then
    s.basin.poisoned.filter fun w =>
      decide (8 * w < a + n) && decide (a < 8 * w + 8) && !(decide (a ≤ 8 * w) && decide (8 * w + 8 ≤ a + n))
  else []

/-- A write to Basin by `port`: a word that is written in part and read back uncorrectable stays so and is counted
(R505). -/
def memWrite (port a : Nat) (bs : List Byte) (s : State) : State :=
  let hit := poisonPart a bs.length s
  (hit.foldl (fun s w => eccUe port (8 * w) s)) (memPut a bs s)

end Sys2Proof.Machine
end

