-- ==== Sys2Proof/Machine/HostQ.lean ====
section
/-! DEFINITION. Command and completion rings, completions and fences (R22, R23, R298 to R308). -/

namespace Sys2Proof.Machine

/-! ### Status codes (R292) -/

def stDone : Nat := 0x00
def stDoneNote : Nat := 0x01
def stDeferred : Nat := 0x02
def stBusy : Nat := 0x10
def stState : Nat := 0x11
def stParam : Nat := 0x12
def stAuth : Nat := 0x13
def stOwner : Nat := 0x14
def stNoSpace : Nat := 0x20
def stNoGain : Nat := 0x21
def stLimit : Nat := 0x22
def stData : Nat := 0x23
def stAbReset : Nat := 0x30
def stAbHost : Nat := 0x31
def stAbFault : Nat := 0x32
def stTimeout : Nat := 0x40
def stDown : Nat := 0x41
def stReset : Nat := 0x42
def stEcc : Nat := 0x50

/-! ### Rings -/

/-- A command ring. -/
def cmdRing (s : State) (r : Nat) : CmdRing := unit s.hostq.cmd r .reset

/-- A completion ring. -/
def complRing (s : State) (c : Nat) : ComplRing := unit s.hostq.cq c .reset

def setCmd (r : Nat) (f : CmdRing → CmdRing) (s : State) : State :=
  { s with hostq := { s.hostq with cmd := modUnit s.hostq.cmd r f } }

def setCq (c : Nat) (f : ComplRing → ComplRing) (s : State) : State :=
  { s with hostq := { s.hostq with cq := modUnit s.hostq.cq c f } }

/-- Descriptors of a command ring (R298). -/
def CmdRing.size (r : CmdRing) : Nat := 2 ^ r.sizeLog2.toNat

/-- Records of a completion ring (R302). -/
def ComplRing.size (c : ComplRing) : Nat := 2 ^ c.sizeLog2.toNat

/-- (TAIL − HEAD) mod size: what the ring holds for fetch (R300). -/
def CmdRing.waiting (r : CmdRing) : Nat := (r.tail.toNat + r.size - r.head.toNat % r.size) % r.size

/-- Records written and not freed (R303). -/
def ComplRing.unread (c : ComplRing) : Nat := (c.tail.toNat + c.size - c.head.toNat % c.size) % c.size

/-- Records reserved at fetch in completion ring `c` and not yet written (R300), those of parked descriptors with them
(R23). -/
def reserved (s : State) (c : Nat) : Nat :=
  (s.hostq.outstanding ++ s.hostq.parked).countP fun tk => tk.cq == c

/-- The ring has a free record that no outstanding descriptor has reserved (R300). HEAD equal to TAIL is an empty ring,
so a ring holds one record less than its size (log 8). -/
def cqFree (s : State) (c : Nat) : Bool :=
  let q := complRing s c
  q.enable && decide (q.unread + reserved s c + 1 < q.size)

/-- A ring that a fetch may take from, but for the limit of R22: enabled, not held by a FENCE (R307), with something to
fetch. -/
def ringReady (s : State) (r : Nat) : Bool :=
  let c := cmdRing s r
  c.enable && c.held.isNone && c.waiting != 0

/-- A ring waits for completion space (R300). -/
def ringStalled (s : State) (r : Nat) : Bool := ringReady s r && !cqFree s (cmdRing s r).cq.toNat

/-- The stall timers follow the rings (R300). -/
def trackStalls (s : State) : State :=
  { s with hostq := { s.hostq with cmd := s.hostq.cmd.mapIdx fun r c =>
      { c with stall := if ringStalled s r then (match c.stall with | some t => some t | none => some s.now) else none } } }

/-! ### Fetched descriptors -/

/-- A descriptor becomes outstanding (R22), its record reserved in the completion ring of its command ring (R300). -/
def accept (h : Hdr) (opcode : Nat) (s : State) : State :=
  { s with hostq := { s.hostq with
      outstanding := s.hostq.outstanding ++ [{ hdr := h, opcode := opcode, cq := (cmdRing s h.ring).cq.toNat }] } }

/-- The ticket of a descriptor that has not completed. -/
def ticket (s : State) (r : Ref) : Option Ticket :=
  (s.hostq.outstanding ++ s.hostq.parked).find? fun tk => tk.hdr.ref == r

/-- A descriptor is parked: it keeps its record and no longer counts toward the 512 (R23). -/
def park (r : Ref) (s : State) : State :=
  match s.hostq.outstanding.find? fun tk => tk.hdr.ref == r with
  | none => s
  | some tk => { s with hostq := { s.hostq with
      outstanding := s.hostq.outstanding.eraseP fun tk => tk.hdr.ref == r
      parked := s.hostq.parked ++ [tk] } }

/-- A descriptor has completed: it is no longer outstanding, and a ring that its FENCE held goes on (R307). -/
def dropTicket (r : Ref) (s : State) : State :=
  let p := fun tk : Ticket => tk.hdr.ref == r
  let s := { s with hostq := { s.hostq with
      outstanding := s.hostq.outstanding.eraseP p
      parked := if s.hostq.outstanding.any p then s.hostq.parked else s.hostq.parked.eraseP p } }
  setCmd r.1 (fun c => if c.held = some r.2 then { c with held := none } else c) s

/-- Neither DONE nor DONE_NOTE (R308). -/
def badStatus (st : BitVec 8) : Bool := st != 0 && st != 1

/-- Every FENCE that waited for a descriptor has one less to wait for (R307, R308). -/
def markFences (r : Ref) (st : BitVec 8) (s : State) : State :=
  let mark := fun f : Fence =>
    if f.waits.contains r then
      { f with waits := f.waits.erase r, bad := if badStatus st then satInc f.bad else f.bad }
    else f
  { s with hostq := { s.hostq with fences := s.hostq.fences.map mark } }

/-- The context of a completion whose chapter names none (R302). -/
def hostCtx (ring : Nat) : Nat := 304 + ring % 16

/-- A finished completion goes into its context's holding slot, or waits for it (R305). -/
def putFinished (f : Finished) (s : State) : State :=
  match unit s.hostq.slots f.ctx none with
  | none => { s with hostq := { s.hostq with slots := s.hostq.slots.set f.ctx (some f) } }
  | some _ => { s with hostq := { s.hostq with backlog := s.hostq.backlog ++ [f] } }

/-- Completes every FENCE that has nothing left to wait for; a SILENT one counts at once for those that wait for it
(R299, R307). -/
def settleFences : Nat → State → State
  | 0, s => s
  | n + 1, s =>
    match s.hostq.fences.find? fun f => f.waits.isEmpty with
    | none => s
    | some f =>
      let s := { s with hostq := { s.hostq with fences := s.hostq.fences.eraseP fun f => f.waits.isEmpty } }
      if f.tk.hdr.silent then
        settleFences n (markFences f.tk.hdr.ref 0 (dropTicket f.tk.hdr.ref s))
      else
        settleFences n (putFinished { tk := f.tk, status := 0, late := false, time := s.now, ctx := hostCtx f.tk.hdr.ring,
                                      detail := f.bad, data := 0 } s)

/-- The FENCEs settled. -/
def settle (s : State) : State := settleFences (s.hostq.fences.length + 1) s

/-- The descriptor's completion waits for the collector. -/
def finishedAlready (r : Ref) (s : State) : Bool :=
  s.hostq.slots.any (fun f => f.any fun f => f.tk.hdr.ref == r) || s.hostq.backlog.any fun f => f.tk.hdr.ref == r

/-- A descriptor finishes, once (R302, R305): SILENT with DONE writes no record (R299), everything else goes to the collector. -/
def finishAs (r : Ref) (ctx : Option Nat) (late : Bool) (st detail data : Nat) (s : State) : State :=
  match ticket s r with
  | none => s
  | some tk =>
    if finishedAlready r s then s
    else if tk.hdr.silent && st == 0 then settle (markFences r 0 (dropTicket r s))
    else putFinished { tk := tk, status := BitVec.ofNat 8 st, late := late, time := s.now,
                       ctx := ctx.getD (hostCtx r.1), detail := BitVec.ofNat 32 detail, data := BitVec.ofNat 64 data } s

/-- A descriptor finishes in the host sequence context. -/
def finish (r : Ref) (st detail data : Nat) (s : State) : State := finishAs r none false st detail data s

/-- A descriptor finishes in a unit's context. -/
def finishIn (ctx : Nat) (r : Ref) (st detail data : Nat) (s : State) : State := finishAs r (some ctx) false st detail data s

/-- A descriptor ends with a status and nothing else. -/
def endWith (r : Ref) (st : Nat) (s : State) : State := finish r st 0 0 s

/-- An opcode row: the descriptor, fetched, is outstanding and is started; before a profile is in force it waits, but
for JOB_START (R343). While 512 are outstanding none is fetched (R22). -/
def postDescriptor (i : Instr) (h : Hdr) (opcode : Nat) (start : State → State) (s : State) : State :=
  if 512 ≤ s.hostq.outstanding.length then s
  else
    let s := accept h opcode s
    if profileInForce s || opcode == 0x10 then start s else { s with waiting := s.waiting ++ [i] }

/-! ### Collection -/

/-- The 32 bytes of a completion record (R302). -/
def completionBytes (f : Finished) (phase : Bool) : List Byte :=
  natLE 4 f.tk.hdr.tag.toNat ++ [f.status, BitVec.ofNat 8 f.tk.hdr.ring,
    BitVec.ofNat 8 (b1 phase + 2 * b1 f.late), BitVec.ofNat 8 f.tk.opcode]
  ++ natLE 8 f.time ++ natLE 2 f.ctx ++ natLE 2 f.tk.hdr.index ++ natLE 4 f.detail.toNat ++ natLE 8 f.data.toNat

/-- Vector c fires and the counts of R304 start again. -/
def fireCq (c : Nat) (s : State) : State :=
  fireVector c (setCq c (fun q => { q with since := 0, first := none }) s)

/-- A record goes into its completion ring (R303), the vector fires as R304 states, and the descriptor has completed. -/
def writeCompletion (f : Finished) (s : State) : State :=
  let c := f.tk.cq
  let q := complRing s c
  let s :=
    if q.enable then
      let s := memPut (q.base.toNat + 32 * q.tail.toNat) (completionBytes f q.phase) s
      let wrap := decide (q.tail.toNat + 1 = q.size)
      let q' : ComplRing := { q with
        tail := if wrap then 0 else q.tail + 1
        phase := if wrap then !q.phase else q.phase
        since := q.since + 1
        first := match q.first with | some t => some t | none => some s.now }
      let s := setCq c (fun _ => q') s
      if f.tk.hdr.irq || (q.intCount != 0 && decide (q.intCount.toNat ≤ q'.since)) then fireCq c s else s
    else s
  settle (markFences f.tk.hdr.ref f.status (dropTicket f.tk.hdr.ref s))

/-- The completion that waits for a slot takes it (R305). -/
def refillSlot (ctx : Nat) (s : State) : State :=
  match s.hostq.backlog.find? fun f => f.ctx == ctx with
  | none => { s with hostq := { s.hostq with slots := s.hostq.slots.set ctx none } }
  | some f => { s with hostq := { s.hostq with
      slots := s.hostq.slots.set ctx (some f)
      backlog := s.hostq.backlog.eraseP fun f => f.ctx == ctx } }

/-- The occupied slot that the rotating pointer reaches first (R305). -/
def nextSlot (s : State) : Option (Nat × Finished) :=
  ((List.range 320).map fun k => (s.hostq.collect + k) % 320).findSome? fun i =>
    (unit s.hostq.slots i none).map fun f => (i, f)

/-- The collector takes one completion. -/
def collectOne (s : State) : State :=
  match nextSlot s with
  | none => s
  | some (i, f) =>
    let s := { s with hostq := { s.hostq with collect := (i + 1) % 320 } }
    writeCompletion f (refillSlot i s)

/-- COMPLETION_COLLECT (R305): four completions per FAB clock, round-robin over the slots. -/
def completionCollect (s : State) : State := trackStalls (collectOne (collectOne (collectOne (collectOne s))))

/-! ### Doorbells and ring registers -/

/-- The host-loss timer restarts; a doorbell after a loss brings the host back (R322). -/
def hostSeen (s : State) : State :=
  let back := s.mgmt.hostLost
  let lostMs := (s.now - s.mgmt.lostAt) / 1000000
  let s := { s with mgmt := { s.mgmt with hostLost := false, timer := some s.now } }
  if back then raise 0xA002 (natLE 8 lostMs) (recExtreme 28 lostMs 0 s) else s

/-- DOORBELL (R300): a write to TAIL. -/
def doorbell (ring tail : Nat) (s : State) : State :=
  trackStalls (hostSeen (setCmd ring (fun c => { c with tail := BitVec.ofNat 12 tail }) s))

/-- Nothing of the ring is outstanding (R301). -/
def ringIdle (s : State) (r : Nat) : Bool := !(s.hostq.outstanding.any fun tk => tk.hdr.ring == r)

/-- The offset of a register of HOSTQ_CMD_r. -/
def cmdOff (r k : Nat) : Nat := 0x20000 + 0x20 * r + k

/-- The offset of a register of HOSTQ_CQ_c. -/
def cqOff (c k : Nat) : Nat := 0x21000 + 0x20 * c + k

/-- BASE of a command ring, written only while ENABLE is clear and the ring is IDLE (R298); bits [5:0] must be 0 (R12). -/
def writeCmdBase (r : Nat) (hi : Bool) (v : Word) (s : State) : State :=
  let c := cmdRing s r
  if c.enable || !ringIdle s r then accessError stBusy (cmdOff r (if hi then 4 else 0)) s
  else if !hi && v.toNat % 64 != 0 then s
  else setCmd r (fun c => { c with base :=
    if hi then v ++ c.base.extractLsb' 0 32 else c.base.extractLsb' 32 32 ++ v }) s

/-- SIZE_LOG2, CQ and ENABLE of a command ring (R298, R301, R600). Setting ENABLE sets HEAD and TAIL to 0; clearing it
stops fetch and keeps TAIL (R325). -/
def writeCmdCtrl (r : Nat) (v : Word) (s : State) : State :=
  let c := cmdRing s r
  let size := v.toNat % 16
  let cq := v.toNat / 256 % 16
  let en := v.getLsbD 16
  let changes := size != c.sizeLog2.toNat || cq != c.cq.toNat
  if c.enable || !ringIdle s r then
    if changes || (en && !c.enable) then accessError stBusy (cmdOff r 8) s
    else if en then s
    else trackStalls (setCmd r (fun c => { c with enable := false }) s)
  else if en then
    if size < 4 || 12 < size then s
    else if !hostMem c.base.toNat (64 * 2 ^ size) s then accessError stParam (cmdOff r 8) s
    else trackStalls (setCmd r (fun c => { c with
      sizeLog2 := BitVec.ofNat 4 size, cq := BitVec.ofNat 4 cq, enable := true, head := 0, tail := 0, held := none,
      fetched := c.fetched + c.waiting }) s)
  else setCmd r (fun c => { c with sizeLog2 := BitVec.ofNat 4 size, cq := BitVec.ofNat 4 cq }) s

/-- BASE of a completion ring; bits [4:0] must be 0 (R12). It serves while ENABLE is clear, as SIZE_LOG2 does. -/
def writeCqBase (c : Nat) (hi : Bool) (v : Word) (s : State) : State :=
  let q := complRing s c
  if q.enable then accessError stBusy (cqOff c (if hi then 4 else 0)) s
  else if !hi && v.toNat % 32 != 0 then s
  else setCq c (fun q => { q with base :=
    if hi then v ++ q.base.extractLsb' 0 32 else q.base.extractLsb' 32 32 ++ v }) s

/-- SIZE_LOG2 and ENABLE of a completion ring: written while ENABLE is clear, ENABLE cleared only while no bound command
ring is enabled (HOSTQ_CQ_c), and set only over host memory (R600). PHASE starts at 1 (R303). -/
def writeCqCtrl (c : Nat) (v : Word) (s : State) : State :=
  let q := complRing s c
  let size := v.toNat % 32
  let en := v.getLsbD 16
  if q.enable then
    if en then (if size != q.sizeLog2.toNat then accessError stBusy (cqOff c 8) s else s)
    else if s.hostq.cmd.any (fun r => r.enable && r.cq.toNat == c) then s
    else trackStalls (setCq c (fun q => { q with enable := false }) s)
  else if en then
    if size < 6 || 16 < size then s
    else if !hostMem q.base.toNat (32 * 2 ^ size) s then accessError stParam (cqOff c 8) s
    else trackStalls (setCq c (fun q => { q with
      sizeLog2 := BitVec.ofNat 5 size, enable := true, head := 0, tail := 0, phase := true, since := 0,
      first := none }) s)
  else setCq c (fun q => { q with sizeLog2 := BitVec.ofNat 5 size }) s

/-- HEAD of a completion ring: the host frees records (R303). -/
def writeCqHead (c : Nat) (v : Word) (s : State) : State :=
  trackStalls (setCq c (fun q => { q with head := BitVec.ofNat 16 v.toNat }) s)

/-- INT_COUNT and INT_TIME of a completion ring (R304). -/
def writeCqInt (c : Nat) (v : Word) (s : State) : State :=
  setCq c (fun q => { q with intCount := BitVec.ofNat 8 v.toNat, intTime := BitVec.ofNat 16 (v.toNat / 65536) }) s

/-- An MSI-X table word; a pending vector that becomes unmasked is sent while the link is up (R282, R323; the layout is
the PCI family's, log 3). -/
def writeMsix (v word : Nat) (x : Word) (s : State) : State :=
  let s := { s with hostq := { s.hostq with msix := modUnit s.hostq.msix v fun e =>
    match word with
    | 0 => { e with addrLo := x }
    | 1 => { e with addrHi := x }
    | 2 => { e with data := x }
    | _ => { e with masked := x.getLsbD 0 } } }
  if s.hostq.pba.getLsbD v && !(msixOf s v).masked && s.hostq.pcieUp then
    { s with hostq := { s.hostq with pba := s.hostq.pba &&& ~~~(BitVec.ofNat 64 (2 ^ v)) }, sent := .msix v :: s.sent }
  else s

/-! ### The commands -/

/-- The module is on: only then does an access reach it. -/
def atHost (f : State → State) (s : State) : State := if s.power.state == .on then f s else s

/-- A doorbell of a command ring. -/
def execDoorbell (ring tail : Nat) (s : State) : Host.Outcome State Fault Refusal := .next (atHost (doorbell ring tail) s)

/-- CMD_RING_ENABLE: `value` is the word written at +0x08 of HOSTQ_CMD_r. -/
def execCmdRingEnable (ring : Nat) (value : Word) (s : State) : Host.Outcome State Fault Refusal :=
  .next (atHost (writeCmdCtrl ring value) s)

/-- CQ_ENABLE: `value` is the word written at +0x08 of HOSTQ_CQ_c. -/
def execCqEnable (cq : Nat) (value : Word) (s : State) : Host.Outcome State Fault Refusal :=
  .next (atHost (writeCqCtrl cq value) s)

/-- CQ_HEAD_WRITE (R303). -/
def execCqHeadWrite (cq : Nat) (value : Word) (s : State) : Host.Outcome State Fault Refusal :=
  .next (atHost (writeCqHead cq value) s)

/-- EVENT_HEAD (R309). -/
def writeEventHead (v : Word) (s : State) : State :=
  { s with events := { s.events with head := BitVec.ofNat 16 v.toNat } }

/-- EVENT_HEAD_WRITE: the host frees event records (R309). -/
def execEventHeadWrite (value : Word) (s : State) : Host.Outcome State Fault Refusal := .next (atHost (writeEventHead value) s)

/-- NOTIFY_LO and NOTIFY_HI: a 1 clears the bit (R10, R289). -/
def clearNotify (hi : Bool) (v : Word) (s : State) : State :=
  let m := BitVec.ofNat 64 (if hi then v.toNat * 2 ^ 32 else v.toNat)
  { s with mgmt := { s.mgmt with notify := s.mgmt.notify &&& ~~~m } }

/-- NOTIFY_CLEAR (R289). -/
def execNotifyClear (hi : Bool) (value : Word) (s : State) : Host.Outcome State Fault Refusal :=
  .next (atHost (clearNotify hi value) s)

/-- COMPLETION_COLLECT (R305). -/
def execCompletionCollect (t : Ns) (s : State) : Host.Outcome State Fault Refusal := .next (completionCollect (passTo t s))

/-- INT_TIME_EXPIRE (R304): INT_TIME µs after the first record since the vector last fired. -/
def intTimeExpire (c : Nat) (s : State) : State :=
  let q := complRing s c
  match q.first with
  | some f => if q.intTime != 0 && decide (f + 1000 * q.intTime.toNat ≤ s.now) then fireCq c s else s
  | none => s

def execIntTimeExpire (t : Ns) (cq : Nat) (s : State) : Host.Outcome State Fault Refusal :=
  .next (intTimeExpire cq (passTo t s))

/-- CQ_STALLED (R300): a ring that has waited more than 100 ms for completion space. -/
def cqStalled (r : Nat) (s : State) : State :=
  match (cmdRing s r).stall with
  | some t0 =>
    if ringStalled s r && decide (t0 + 100000000 < s.now) then
      raise 0xA009 (natLE 1 r ++ natLE 1 (cmdRing s r).cq.toNat) s
    else s
  | none => s

def execCqStalled (t : Ns) (ring : Nat) (s : State) : Host.Outcome State Fault Refusal :=
  .next (cqStalled ring (passTo t s))

/-- The attachment of the management host ends (R288): the answers kept for it are dropped and MGMT_DETACHED is raised, with the cause 0
DETACH, 1 takeover or 2 reset. -/
def endAttachment (cause : Nat) (s : State) : State :=
  match s.mgmt.attached with
  | none => s
  | some src => raise 0xA00A (natLE 8 src ++ natLE 1 cause) { s with mgmt := { s.mgmt with attached := none, kept := [], lastNotify := none } }

/-- HOST_LOST (R322): the host-loss timer expires; a timeout of 0 disables it. -/
def hostLost (s : State) : State :=
  let ms := s.prof.system.hostLossMs
  match s.mgmt.timer with
  | some t0 =>
    if ms != 0 && !s.mgmt.hostLost && decide (t0 + 1000000 * ms ≤ s.now) then
      raise 0xA001 (natLE 4 ms) { s with mgmt := { s.mgmt with hostLost := true, lostAt := s.now } }
    else s
  | none => s

def execHostLost (t : Ns) (s : State) : Host.Outcome State Fault Refusal := .next (hostLost (passTo t s))

/-- The PCIe link goes down (R323): vectors are held from then on. -/
def pcieDown (s : State) : State :=
  if s.hostq.pcieUp then raise 0xA006 [] { s with hostq := { s.hostq with pcieUp := false } } else s

/-- PCIE_LINK_DOWN (R323). -/
def execPcieLinkDown (t : Ns) (s : State) : Host.Outcome State Fault Refusal := .next (pcieDown (passTo t s))

/-- The pending vectors that are not masked are sent (R323). -/
def sendPending (s : State) : State :=
  let go := (List.range 64).filter fun v => s.hostq.pba.getLsbD v && !(msixOf s v).masked
  { s with hostq := { s.hostq with pba := s.hostq.pba &&& ~~~(BitVec.ofNat 64 (maskOf go)) },
           sent := go.reverse.map (fun v => Sent.msix v) ++ s.sent }

/-- The PCIe link comes up: PCIE_LINK_UP is raised and the pending vectors are sent (R323). PCIE_WAKE_N is released
(R576). -/
def pcieLinkUp (speed width : Nat) (s : State) : State :=
  if s.hostq.pcieUp then s
  else
    let s := { s with hostq := { s.hostq with pcieUp := true }, pins := { s.pins with pcieWakeN := true } }
    raise 0xA007 (natLE 1 speed ++ natLE 1 width) (sendPending s)

/-- PCIE_LINK_UP (R323), while PERST_N is high (R331). -/
def execPcieLinkUp (t : Ns) (speed width : Nat) (s : State) : Host.Outcome State Fault Refusal :=
  .next (let s := passTo t s; if s.pins.perstN then pcieLinkUp speed width s else s)

end Sys2Proof.Machine
end

