-- ==== Sys2Proof/Machine/Ripple.lean ====
section
/-! DEFINITION. Posting and withdrawing Ripple actions and the snapshot schedule (R236 to R242, R311, R312). -/

namespace Sys2Proof.Machine

/-- SNAPSHOT, LAYER_START and SYNC_RELEASE, for which 64 places are kept (R240). -/
def RippleWork.kept : RippleWork → Bool
  | .snapshot _ _ => true
  | .layerStart _ => true
  | .syncRelease _ => true
  | .cfgCommit _ => false
  | .proxSep _ _ _ => false
  | .proxZone _ _ => false
  | .proxPlume _ _ _ _ _ => false
  | .trigOut _ _ => false
  | .trigStop _ => false
  | .calStart _ _ => false

/-- The code of a kind (R238). -/
def RippleWork.code : RippleWork → Nat
  | .snapshot _ _ => 1
  | .cfgCommit _ => 2
  | .proxSep _ _ _ => 3
  | .proxZone _ _ => 3
  | .proxPlume _ _ _ _ _ => 3
  | .calStart _ _ => 4
  | .layerStart _ => 5
  | .syncRelease _ => 6
  | .trigOut _ _ => 7
  | .trigStop _ => 7

/-- The place of a kind in the order of one tick (R239). -/
def RippleWork.rank : RippleWork → Nat
  | .snapshot _ _ => 0
  | .cfgCommit _ => 1
  | .proxSep _ _ _ => 2
  | .proxZone _ _ => 2
  | .proxPlume _ _ _ _ _ => 2
  | .trigOut _ _ => 3
  | .trigStop _ => 3
  | .calStart _ _ => 4
  | .layerStart _ => 5
  | .syncRelease _ => 6

/-- The pending actions, oldest first. -/
def actions (s : State) : List RippleAction := s.time.ripple.actions

def setRipple (f : Ripple → Ripple) (s : State) : State :=
  { s with time := { s.time with ripple := f s.time.ripple } }

/-- The places set aside for releases of SYNCs across modules (R240). -/
def setAside (s : State) : Nat := s.jobs.syncs.countP fun p => p.place && p.released.isNone && p.failed.isNone

/-- A place is free for an action of this kind (R240): 256 in all, of which 64 are kept for the three kinds, which may
take any other place as well. -/
def ripplePlace (w : RippleWork) (s : State) : Bool :=
  let kept := (actions s).countP (fun a => a.work.kept) + setAside s
  let others := (actions s).countP fun a => !a.work.kept
  decide (others + kept < 256) && (w.kept || decide (others + (kept - 64) < 192))

/-- An action joins the pending ones. -/
def ripplePost (a : RippleAction) (s : State) : State := setRipple (fun r => { r with actions := r.actions ++ [a] }) s

/-- The earliest launch of a host-originated action: the first lane tick 1 µs after posting, which the TIME counter, a multiple of 5 ns,
dates (R213, R236). -/
def earliest (s : State) : Ns := s.now / 5 * 5 + 1000

/-- The launch tick of a host-originated action and whether it is late (R236). A launch of 0 asks for the earliest tick
and is not late; a launch between two lane ticks acts at the later one (log 9). -/
def hostLaunch (launch : Ns) (s : State) : Ns × Bool :=
  if launch = 0 then (earliest s, false)
  else if launch < earliest s then (if tickAt launch < earliest s then (earliest s, true) else (earliest s, false))
  else (tickAt launch, false)

/-- A host-originated action for the descriptor `r`, with a place (R236, R240). -/
def postHost (w : RippleWork) (r : Ref) (launch : Ns) (s : State) : State :=
  let (l, late) := hostLaunch launch s
  ripplePost { work := w, launch := l, host := true, tk := some r, late := late, missing := [] } s

/-- The module's own action. -/
def postOwn (w : RippleWork) (launch : Ns) (s : State) : State :=
  ripplePost { work := w, launch := launch, host := false, tk := none, late := false, missing := [] } s

/-- Withdraws the pending actions that `p` names, until 200 ns before their launch (R241). -/
def withdraw (p : RippleWork → Bool) (s : State) : State :=
  setRipple (fun r => { r with
    actions := r.actions.filter fun a => !(p a.work && decide (s.now + 200 ≤ a.launch)) }) s

/-- REF TOR or PTP: the PTP time of a launch (R215, R318). -/
def refTime (refTor : Bool) (t : Ns) (s : State) : Option Ns :=
  if refTor then s.jobs.tor.map fun tor => tor + t else some t

/-! ### Overrides (R320, R321) -/

/-- Bit `b` of ACTIVE says whether an override of its kind stands. -/
def markOverride (b : Nat) (active : Bool) (s : State) : State :=
  let o := s.override
  let bitv := BitVec.ofNat 8 (2 ^ b)
  { s with override := { o with active := if active then o.active ||| bitv else o.active &&& ~~~bitv } }

/-- OVERRIDE_GEN counts, never back to 0 (R321). -/
def countOverride (s : State) : State :=
  let o := s.override
  { s with override := { o with gen := if o.gen = BitVec.allOnes 32 then 1 else o.gen + 1 } }

/-- An accepted override descriptor: OVERRIDE_GEN counts. -/
def bumpOverride (b : Nat) (active : Bool) (s : State) : State := countOverride (markOverride b active s)

/-! ### The snapshot schedule (R311, R312) -/

/-- The period in ns. -/
def snapPeriod (s : State) : Nat := 1000 * s.still.periodUs.toNat

/-- SKIPPED counts one (R240). -/
def skipSnapshot (s : State) : State := { s with still := { s.still with skipped := satInc s.still.skipped } }

/-- The next periodic latch, at the first multiple of the period from `t` on, is posted, or skipped for want of a place
(R240, R311). -/
def schedulePeriodic (t : Ns) (s : State) : State :=
  if !s.still.regionSet || snapPeriod s = 0 then { s with still := { s.still with nextTick := none } }
  else
    let tick := alignUp t (snapPeriod s)
    let s := { s with still := { s.still with nextTick := some tick } }
    if ripplePlace (.snapshot true false) s then postOwn (.snapshot true false) tick s else skipSnapshot s

/-- The periodic latches are posted anew: after a new region or a new period (R311). -/
def rescheduleSnapshots (s : State) : State :=
  let keep := fun a : RippleAction => match a.work with | .snapshot true _ => false | _ => true
  schedulePeriodic (s.now + 1000) (setRipple (fun r => { r with actions := r.actions.filter keep }) s)

/-- The tick that R312 gives a request: the first lane tick at least 1 µs from now and 100 µs after a latch tick. -/
def demandTick (last : Option Ns) (s : State) : Ns :=
  tickAt (match last with | some l => max (s.now + 1000) (l + 100000) | none => s.now + 1000)

/-- SNAPSHOT_NOW (R312): the request joins a demand latch already scheduled, or the periodic latch that falls up to
100 µs after its own tick, or takes a latch of its own. Where the next periodic latch lies before the request's tick, it is the latch that the
tick keeps its distance from, and the periodic latch after it is the one to join. -/
def startSnapshotNow (r : Ref) (s : State) : State :=
  let st := s.still
  let d0 := demandTick st.lastLatch s
  let before := st.nextTick.any fun p => decide (p < d0)
  let d := if before then demandTick st.nextTick s else d0
  let next := if before then st.nextTick.map fun p => p + snapPeriod s else st.nextTick
  let joins := next.any fun p => decide (p ≤ d + 100000)
  if !st.regionSet then endWith r stState s
  else if st.demandAt.isSome then { s with still := { st with demand := st.demand ++ [r] } }
  else if joins && before then { s with still := { st with joinedNext := st.joinedNext ++ [r] } }
  else if joins then { s with still := { st with joined := st.joined ++ [r] } }
  else if ripplePlace (.snapshot false true) s then
    postOwn (.snapshot false true) d { s with still := { st with demandAt := some d, demand := [r] } }
  else skipSnapshot { s with still := { st with joined := st.joined ++ [r] } }

/-- SNAPSHOT_CFG (R294, R311): a period of 0 returns to the profile value; the period is an override (R320). -/
def startSnapshotCfg (r : Ref) (setBase setPeriod : Bool) (base period : Nat) (s : State) : State :=
  let baseOk := !setBase || base = 0 || (base % 4096 == 0 && hostMem base 0x6800 s)
  let perOk := !setPeriod || period = 0 || (decide (100 ≤ period) && decide (period ≤ 1000000) && period % 100 == 0)
  if !baseOk || !perOk then endWith r stParam s
  else
    let s := if setBase then
        { s with still := { s.still with regionSet := base != 0, base := BitVec.ofNat 64 base } } else s
    let s := if setPeriod then
        bumpOverride 6 (period != 0) { s with still := { s.still with
          periodUs := BitVec.ofNat 32 (if period = 0 then s.prof.system.snapPeriodUs else period) } }
      else s
    endWith r stDone (if setBase || setPeriod then rescheduleSnapshots s else s)

/-- SNAPSHOT_NOW (R312). -/
def execSnapshotNow (h : Hdr) (s : State) : Host.Outcome State Fault Refusal :=
  .next (postDescriptor (.snapshotNow h) h 0x02 (startSnapshotNow h.ref) s)

/-- SNAPSHOT_CFG (R311). -/
def execSnapshotCfg (h : Hdr) (setBase setPeriod : Bool) (base period : Nat) (s : State) :
    Host.Outcome State Fault Refusal :=
  .next (postDescriptor (.snapshotCfg h setBase setPeriod base period) h 0x07
    (startSnapshotCfg h.ref setBase setPeriod base period) s)

end Sys2Proof.Machine
end

