-- ==== Sys2Proof/Machine/SplLine.lean ====
section
/-! DEFINITION. The downstream line of a Spring Link port: 64b/66b blocks, the scrambler and the control blocks that the module sends
(R247, R249 to R251, R253, R254, R257, R260, R263). -/

namespace Sys2Proof.Machine

def portOf (s : State) (p : Nat) : Port := unit s.link.ports p .reset

def setPort (p : Nat) (f : Port → Port) (s : State) : State :=
  { s with link := { s.link with ports := modUnit s.link.ports p f } }

/-! ### Coding (R247) -/

/-- The sync header: 0b01 for a data block, 0b10 for a control block. -/
def Block66.sync (b : Block66) : Nat := if b.control then 2 else 1

/-- `k` bits, at most 39, through the scrambler x⁵⁸ + x³⁹ + 1. The 58 bits sent last are kept with the oldest in bit 0, and bit 0 of the
data goes first: the bits sent, and the bits to keep. -/
def scrambleBits (k d last : Nat) : Nat × Nat :=
  let out := (d ^^^ last ^^^ (last / 2 ^ 19)) % 2 ^ k
  (out, last / 2 ^ k + out * 2 ^ (58 - k))

/-- The 64 bits of a block as they go onto the line; sync headers are not scrambled. -/
def scrambleBlock (b : Block66) (last : Nat) : (Nat × Nat) × Nat :=
  let d := leNat b.bytes
  let lo := scrambleBits 32 (d % 2 ^ 32) last
  let hi := scrambleBits 32 (d / 2 ^ 32) lo.2
  ((b.sync, lo.1 + 2 ^ 32 * hi.1), hi.2)

/-- Blocks one after another. -/
def scrambleAll : List Block66 → Nat → List (Nat × Nat) × Nat
  | [], last => ([], last)
  | b :: bs, last =>
    let x := scrambleBlock b last
    let rest := scrambleAll bs x.2
    (x.1 :: rest.1, rest.2)

/-- A port puts blocks onto its line. -/
def putLine (p : Nat) (bs : List Block66) (s : State) : State :=
  setPort p (fun q =>
    let x := scrambleAll bs q.scrambler.toNat
    { q with line := x.1, scrambler := BitVec.ofNat 58 x.2 }) s

/-! ### Blocks (R249) -/

/-- A control block: its type, and its fields filled up with 0 to 7 bytes. -/
def ctlBlock (type : Nat) (fields : List Byte) : Block66 := { control := true, bytes := padTo 8 (natLE 1 type ++ fields) }

/-- 8 bytes of data. -/
def dataBlock (bs : List Byte) : Block66 := { control := false, bytes := padTo 8 bs }

/-- SOC (R251). -/
def socBlock (cycle ofs flags : Nat) : Block66 :=
  let b := natLE 1 0xA1 ++ natLE 4 cycle ++ natLE 1 ofs ++ natLE 1 flags
  { control := true, bytes := b ++ natLE 1 (crc8 b) }

/-- QCHK of a quad with its check (R253). -/
def qchkBlock (quad cycle check : Nat) : Block66 := ctlBlock 0xA2 (natLE 1 quad ++ natLE 1 cycle ++ natLE 2 check)

/-- KILL (R260). -/
def killBlock (mask : Nat) (all : Bool) (seq : Nat) : Block66 :=
  let b := natLE 1 0xA3 ++ natLE 2 mask ++ natLE 1 (b1 all) ++ natLE 1 seq
  { control := true, bytes := b ++ natLE 2 (crc16 b) ++ [0] }

/-- MEASURE (R263). -/
def measureBlock (hop seq : Nat) : Block66 :=
  let b := natLE 1 0xA4 ++ natLE 1 hop ++ natLE 1 seq
  ctlBlock 0xA4 (b.drop 1 ++ natLE 1 (crc8 b))

/-- IDLE. -/
def idleBlock : Block66 := ctlBlock 0x1E []

/-- The two blocks of each SVU unit of a service frame to a hop (R257, R266). -/
def svuUnits (hop : Nat) : Nat → Nat → List Byte → List (List Block66)
  | 0, _, _ => []
  | n + 1, i, bs =>
    let part := padTo 12 (bs.take 12)
    let last := (bs.drop 12).isEmpty
    let fl := b1 (i == 0) + 2 * b1 last
    [ctlBlock 0xC1 (natLE 1 hop ++ natLE 1 i ++ natLE 1 fl ++ part.take 4), dataBlock (part.drop 4)]
      :: (if last then [] else svuUnits hop n (i + 1) (bs.drop 12))

/-- A service frame waits for the service units of a port's cycles. -/
def queueService (p hop : Nat) (frame : List Byte) (s : State) : State :=
  setPort p (fun q => { q with svcOut := q.svcOut ++ svuUnits hop 64 0 frame }) s

/-! ### The cycle (R250, R254) -/

/-- Downstream blocks before service (R254). -/
def downFixed (beams : Nat) : Nat := 1 + 2 * beams + (beams + 3) / 4

/-- Bits from the start of cycle `c` to the first block boundary of a port (R250; log 106). -/
def socBits (p c : Nat) : Nat := (66 - (Config.blockPhase p + 3125 * c) % 66) % 66

/-- SOC_OFS in 1/16 ns (R251). -/
def socOfs (p c : Nat) : Nat := socBits p c * 256 / 100

/-- The block times from the SOC of cycle `c` to the next one: 47 or 48. -/
def cycleBlocks (p c : Nat) : Nat := (3125 + socBits p (c + 1) - socBits p c) / 66

/-- The blocks of the slots, two each, with a QCHK after every fourth and after the last (R250). -/
def slotBlocks (cycle : Nat) : Nat → Nat → List (List Byte) → List Nat → List Block66
  | 0, _, _, _ => []
  | _ + 1, _, _, [] => []
  | n + 1, quad, slots, c :: cs =>
    ((slots.take 4).flatMap fun b => [dataBlock (b.take 8), dataBlock (b.drop 8)])
      ++ qchkBlock quad cycle c :: slotBlocks cycle n (quad + 1) (slots.drop 4) cs

/-- What a port puts onto its line in a cycle (R250): SOC, slots and QCHKs, as many service units as fit into 44 blocks, and IDLE. -/
def putCycle (p c flags : Nat) (slots : List (List Byte)) (checks : List Nat) (s : State) : State :=
  let cycle := c % 2 ^ 32
  let n := (44 - downFixed slots.length) / 2
  let svc := ((portOf s p).svcOut.take n).flatten
  let fixed := socBlock cycle (socOfs p c) flags :: slotBlocks cycle 4 0 slots checks ++ svc
  setPort p (fun q => { q with svcOut := q.svcOut.drop n })
    (putLine p (fixed ++ List.replicate (cycleBlocks p c - fixed.length) idleBlock) s)

end Sys2Proof.Machine
end

