-- ==== Sys2Proof/Machine/LaneOps.lean ====
section
/-! DEFINITION. What every lane command uses: units of a lane, result records (R57, R155), faults and the fault policy
(R68, R69, R83, R137, R138). -/

namespace Sys2Proof.Machine

/-! ### Units -/

/-- Lane `l`; a lane that is not there reads as one in OFF. -/
def laneOf (s : State) (l : Nat) : Lane := unit s.lanes l .reset

def setLane (l : Nat) (f : Lane → Lane) (s : State) : State := { s with lanes := modUnit s.lanes l f }

def setJobs (f : Jobs → Jobs) (s : State) : State := { s with jobs := f s.jobs }

/-- T_lead in ns (R131). -/
def tLead (s : State) : Nat := s.prof.plan.tLead

/-- H_GUARD in ns, at least T_lead + 10 µs (R116). -/
def hGuard (s : State) : Nat := max (1000 * s.prof.plan.hGuardUs) (tLead s + 10000)

/-- T_SP of a lane in ns (R119). -/
def tSp (s : State) (l : Nat) : Nat := 5 * (laneRec s l).tSp

/-- TOR, 0 before it is fixed. -/
def torOf (s : State) : Ns := s.jobs.tor.getD 0

/-- A PTP time as ns after TOR. -/
def afterTor (s : State) (t : Ns) : Nat := t - torOf s

/-- The node of a lane's beam (R270, R368): present, SCAN, and with that beam (R369). -/
def beamNode (s : State) (l : Nat) : Option Node :=
  let r := laneRec s l
  if !laneMapped s l || r.hop = 0 then none
  else
    let n := unit (unit s.link.ports r.port .reset).nodes (r.hop - 1) .reset
    if n.present && n.ident.cls == 0 && decide (r.beam < n.ident.beams) then some n else none

/-- The port slot of a lane's beam (R270). -/
def laneSlot (s : State) (l : Nat) : Nat :=
  match beamNode s l with | some n => n.slotBase + (laneRec s l).beam | none => 0

/-- The job header in force. -/
def jobHeader (s : State) : Option JobHeader := s.jobs.header

/-- The queued layer with an index (R35). -/
def layerOf (s : State) (i : Nat) : Option Layer := s.jobs.layers.find? fun x => x.index = i

/-- The layer in ARM, EXPOSE or POST_IMAGE, or held. -/
def theLayer (s : State) : Option Layer := s.jobs.exposed.bind fun i => layerOf s i

def setLayer (i : Nat) (f : Layer → Layer) (s : State) : State :=
  setJobs (fun j => { j with layers := j.layers.map fun x => if x.index = i then f x else x }) s

/-- The layer's account of lane `l` is changed. -/
def setLayerLane (i l : Nat) (f : LayerLane → LayerLane) (s : State) : State :=
  setLayer i (fun x => { x with lanes := x.lanes.map fun p => if p.1 = l then (l, f p.2) else p }) s

/-- The layer's account of a lane. -/
def layerLane (x : Layer) (l : Nat) : Option LayerLane := (x.lanes.find? fun p => p.1 = l).map fun p => p.2

/-- A lane event goes to the vector of its tarn (R141). -/
def laneEvent (l code : Nat) (data : List Byte) (s : State) : State := raiseTarn (l / 8) code (natLE 1 l ++ data) s

/-- Lane `l` belongs to the running layer. -/
def inLayer (s : State) (l : Nat) : Bool := (theLayer s).any fun x => x.mask.getLsbD l

/-- A lane runs the layer or mark: ARMED, RUNNING or HOLD. -/
def LaneState.active : LaneState → Bool
  | .armed => true
  | .running => true
  | .hold => true
  | .off => false
  | .idle => false
  | .fault => false

/-- A fault cause touches a lane: it is active, or reached END at this very tick (R136, R138). -/
def Lane.faultable (ln : Lane) (now : Ns) : Bool :=
  ln.state.active || (ln.state = .idle && ln.ended.any fun e => e.1 = now)

/-! ### KILL (R260) -/

/-- A KILL leaves a port: it has a KILL_SEQ of its own, and its three copies in consecutive blocks count as one. -/
def sendKill (p mask : Nat) (all : Bool) (s : State) : State :=
  let q := portOf s p
  let s := putLine p (List.replicate 3 (killBlock mask all q.killSeq.toNat)) s
  let s := setPort p (fun q => { q with killsSent := satInc q.killsSent, killSeq := q.killSeq + 1 }) s
  { s with sent := .kill p mask all q.killSeq.toNat :: s.sent }

/-- A KILL with ALL on every port of the variant (R71, R260). -/
def killAll (s : State) : State :=
  (List.range s.variant.ports).foldl (fun s p => sendKill p 0 true s) s

/-- The KILL of one lane's beam (R137). -/
def killLane (l : Nat) (s : State) : State :=
  match beamNode s l with
  | some _ => sendKill (laneRec s l).port (2 ^ laneSlot s l) false s
  | none => s

/-! ### Result records -/

/-- The stream index that a planned record stands for; the first move of a repair exposure stands for the record that
follows it (R75). -/
def PRec.index (r : PRec) : Nat := if r.ghost then r.idx else r.idx - 1

/-- The bytes of a pass record (R57). -/
def passRecord (tor : Ns) (r : PRec) : List Byte :=
  let start := r.first.getD r.start
  let start := if r.vec.isStandstill then r.start else start
  let fl := b1 r.held + 2 * b1 r.waitLate + 4 * b1 r.deferred
  let extra := match r.vec with
    | .sync _ _ _ _ => natLE 8 (r.release.getD 0 - tor)
    | .tag p f => natLE 4 p ++ natLE 4 f
    | _ => natLE 8 0
  let dur := (if r.vec.isWait then 0 else r.endTick - start) + r.waitNs
  natLE 1 r.vec.code ++ natLE 1 fl ++ natLE 2 0 ++ natLE 8 (start - tor) ++ natLE 4 (satU 32 r.holdNs).toNat ++ extra
    ++ natLE 4 (satU 32 dur).toNat ++ natLE 4 r.vtag

/-- The bytes of a melt-pool record (R155). -/
def meltRecord (l : Ns) (r : PRec) : List Byte :=
  let m := r.melt
  let n := m.samples
  let mean := fun x : Int => if n = 0 then (0 : Int) else roundDiv x n
  let fl := b1 r.held + 2 * b1 r.deferred + 4 * b1 m.rawWindow + 8 * b1 m.rawLost
    + 16 * b1 (n != 0 && m.blanked == n)
  natLE 1 r.vec.code ++ [m.anomaly] ++ intLE 2 (mean m.sum) ++ natLE 2 (if n = 0 then 0 else m.min) ++ natLE 2 m.max
    ++ natLE 4 (satU 32 (roundDiv m.sum 2)).toNat ++ intLE 2 (mean m.trimSum) ++ intLE 2 (mean m.predSum) ++ natLE 4 n
    ++ natLE 4 (satU 32 (roundDivN (m.first - l) 500)).toNat ++ natLE 2 m.out.toNat ++ natLE 1 fl ++ natLE 1 r.setIdx ++ natLE 4 r.vtag

/-- A result record is written at an address (R57). Counters of R141 and of TARN_LANE_LOOPCNT follow. -/
def writeResultAt (l addr : Nat) (r : PRec) (s : State) : State :=
  let bytes := if r.vec.beamOn then meltRecord s.jobs.l r else passRecord (torOf s) r
  let s := memWrite (l / 8) addr bytes s
  let anom := r.vec.beamOn && (r.melt.anomaly &&& 0x0B) != 0
  let sat := r.vec.beamOn && (r.melt.anomaly &&& 0x04) != 0
  let s := setLane l (fun x => { x with
    records := x.records + 1
    anomRecords := if anom then satInc x.anomRecords else x.anomRecords
    trimSatRecords := if sat then satInc x.trimSatRecords else x.trimSatRecords }) s
  match s.jobs.exposed with
  | some i => if s.jobs.line then s else setLayerLane i l (fun e => { e with records := e.records + 1 }) s
  | none => s

/-- One result record is written (R57); END has none, nor has the move of a repair exposure. -/
def writeResult (l : Nat) (r : PRec) (s : State) : State :=
  match (laneOf s l).stream with
  | none => s
  | some st => if r.vec == .stop || r.ghost then s else writeResultAt l (st.result + 32 * r.index) r s

/-! ### The record at a time -/

/-- The last beam-on record that begins before time t. -/
def lastBeamOn (t : Ns) (ps : List PRec) : Option PRec :=
  (ps.filter fun r => r.vec.beamOn && decide (r.start < t)).getLast?

/-- The beam emits at time t. -/
def emittingAt (ln : Lane) (t : Ns) : Bool :=
  ln.emits.any fun e => decide (e.on < t) && (match e.off with | some f => decide (t ≤ f) | none => true)

/-- The runs of a lane that are not sent in full (R121). -/
def laneRuns (lead : Nat) (ln : Lane) (ps : List PRec) : List Run :=
  runsOf lead ln.prevOff (ln.runOn.map fun t => (ln.runIdx, t)) (ps.filter fun r => decide (ln.runIdx ≤ r.idx))

/-- The last record of a beam-on run that emits in its off delay at time t (R58, R154). -/
def tailRecord (ln : Lane) (t : Ns) : Option PRec :=
  (ln.emits.find? fun e => decide (e.on < t) && (match e.off with | some f => decide (t ≤ f) | none => true)).bind fun e =>
    match (ln.plan.filter fun r => r.vec.beamOn && decide (e.first ≤ r.idx) && (e.off.isNone || decide (r.idx ≤ e.last))
        && decide (r.start < t)).getLast? with
    | some r => if r.endTick < t then some r else none
    | none => none

/-- The record at which issue stops short: one that is held (R117) or that R102 keeps back. -/
def issueStop (ln : Lane) : Option Nat := match ln.hold with | some h => some h.idx | none => ln.stall

/-- A record that the lane stands before, or one after it: its planned times are not those at which it will run (R118). -/
def kept (ln : Lane) (r : PRec) : Bool := (issueStop ln).any fun k => decide (k ≤ r.idx)

/-- A waiting point whose end is not known. -/
def openWait (r : PRec) : Bool :=
  match r.vec with
  | .sync _ _ _ _ => r.release.isNone
  | _ => false

/-- Record k comes after a SYNC that is not released (R199). -/
def afterOpenSync (ps : List PRec) (k : Nat) : Bool := ps.any fun r => decide (r.idx < k) && openWait r

/-- The record that a fault at time t names (R58): the one in motion or emitting, the off delay counting as part of its
run's last record, the standstill record at which the lane stands, or else the first that has not started. -/
def faultIndexAt (ln : Lane) (t : Ns) : Nat :=
  let begun := ln.plan.filter fun r => !kept ln r
  let going := begun.find? fun r => !r.passes && decide (r.start < t) && decide (t ≤ r.endTick)
  let waiting := begun.find? fun r => r.vec.isWait && decide (r.start ≤ t) && r.release.isNone && decide (t ≤ r.endTick)
  let standing := begun.find? fun r => openWait r && decide (r.start ≤ t)
  if ln.state = .armed || ln.state = .idle then (match ln.plan with | r :: _ => r.index | [] => 0)
  else
  match tailRecord ln t with
  | some r => r.index
  | none =>
  match standing with
  | some r => r.index
  | none =>
  match ln.hold with
  | some h => if h.stands ≤ t then (h.idx - 1) else match going with | some r => r.index | none => (h.idx - 1)
  | none =>
      match waiting with
      | some r => r.index
      | none =>
        match going with
        | some r => r.index
        | none =>
          match (if emittingAt ln t then lastBeamOn t ln.plan else none) with
          | some r => r.index
          | none =>
            match ln.plan.find? (fun r => kept ln r || decide (t ≤ r.start)) with
            | some r => r.index
            | none => ln.fetchNext - ln.buf.length

/-- What the wait of the record after `r` adds to it (R84), as far as it has gone at a time. -/
def waitUntil (t : Ns) (ps : List PRec) (r : PRec) : PRec :=
  match (ps.filter fun x => decide (r.idx < x.idx)).head? with
  | some w => if w.vec.isWait && !r.vec.beamOn then { r with waitNs := r.waitNs + (min w.endTick t - w.start) } else r
  | none => r

/-- Every sample of a beam-on record has come or is known to be missing: those up to its end, or up to its run's off edge where it is the
last of its run (R154). -/
def samplesIn (ln : Lane) (r : PRec) : Bool :=
  let nextOn := ((ln.plan.filter fun x => decide (r.idx < x.idx) && !x.passes).head?).any fun x => x.vec.beamOn
  let need := if nextOn then r.endTick else ln.prevOff.getD r.endTick
  !r.vec.beamOn || ln.loop.lastFb.all fun t => decide (need / 500 * 500 ≤ t)

/-- What the wait of the record after `r` adds to it (R84). -/
def withWait (ps : List PRec) (r : PRec) : PRec :=
  match (ps.filter fun x => decide (r.idx < x.idx)).head? with
  | some w => waitUntil w.endTick ps r
  | none => r

/-- Records whose stream is over: those whose samples are in are written, the others wait for them behind the lane's plan (R155, R157). -/
def leaveRecords (l : Nat) (off : Ns) (rs : List PRec) (s : State) : State :=
  let ln := laneOf s l
  let rs := rs.filter fun r => r.vec != .stop && !r.ghost
  let s := (rs.takeWhile fun r => samplesIn ln r).foldl (fun s r => writeResult l r s) s
  match ln.stream, rs.dropWhile fun r => samplesIn ln r with
  | some st, r :: rest => setLane l (fun x => { x with
      tail := x.tail ++ (r :: rest).map fun r => (r, st.result + 32 * r.index)
      tailEnd := off, tailStream := some st }) s
  | _, _ => s

/-- What a stop or fault leaves (R137, R157, R58): the results of the records that ended before `idx`, and the melt-pool
record of the record `idx` where it was cut while emitting. -/
def flushCut (l idx : Nat) (s : State) : State :=
  let ln := laneOf s l
  let before := (ln.plan.filter fun r => decide (r.idx ≤ idx)).map fun r => waitUntil s.now ln.plan r
  let cut := if emittingAt ln s.now then
      (ln.plan.filter fun r => r.idx = idx + 1 && r.vec.beamOn).map fun r =>
        { r with melt := { r.melt with anomaly := r.melt.anomaly ||| 0x20 } }
    else []
  let off := match ln.prevOff with | some t => if ln.runOn.isSome then s.now else min t s.now | none => s.now
  let ready := setLane l (fun x => { x with prevOff := some off }) s
  setLane l (fun x => { x with prevOff := ln.prevOff }) (leaveRecords l off (before ++ cut) ready)

/-! ### Raw blocks (R158) -/

def setLoop (l : Nat) (f : Loop → Loop) (s : State) : State := setLane l (fun x => { x with loop := f x.loop }) s

/-- One stored sample. -/
def rawSample (pdA pdB : Nat) : List Byte := natLE 2 pdA ++ natLE 2 pdB

/-- The bytes of a block (R158). -/
def rawBytes (s : State) (seq : Nat) (b : RawBlock) : List Byte :=
  natLE 4 b.idx ++ natLE 4 b.vtag ++ natLE 8 (afterTor s b.first) ++ natLE 2 b.samples.length
    ++ natLE 1 (if b.full then 2 else 1) ++ natLE 1 (b1 b.continued) ++ natLE 2 (b.onset.getD 0xFFFF) ++ natLE 2 0
    ++ natLE 4 seq ++ natLE 4 0 ++ b.samples.flatMap fun p => rawSample p.1 p.2

/-- The stream whose samples a lane takes in: one that has ended while its last samples have not come. -/
def Lane.sampled (ln : Lane) : Option StreamRef := if ln.tail.isEmpty then ln.stream else ln.tailStream

/-- The block that is being filled is closed and written; a lost one only closes. -/
def closeRaw (l : Nat) (s : State) : State :=
  let ln := laneOf s l
  match ln.loop.raw, ln.sampled with
  | some b, some st =>
    let s := setLoop l (fun x => { x with raw := none }) s
    if b.lost || b.samples.isEmpty then s
    else
      let s := memWrite (l / 8) (st.raw + 4096 * ln.rawSeq) (rawBytes s ln.rawSeq b) s
      setLane l (fun x => { x with rawSeq := x.rawSeq + 1, rawBlocks := x.rawBlocks + 1 }) s
  | some _, none => setLoop l (fun x => { x with raw := none }) s
  | none, _ => s

/-! ### Beam-off -/

/-- The energy of the interval that a report covers, in µJ: `acc` is in units of 2 ^ −16 × 0.5 pJ (R165). -/
def reportEnergy (acc : Int) : Nat := (roundDiv acc 131072000000).toNat

/-- A report of a lane ends, at its beam-off or before; what rounding leaves goes into the next one (R165). -/
def Loop.closeReport (x : Loop) : Loop :=
  if x.repStart.isNone then x
  else
    let e := reportEnergy x.acc
    { x with repOut := x.repOut ++ [(x.repCell, e)], repStart := none, acc := x.acc - 131072000000 * (e : Int) }

/-- The records that waited for their last samples are written, the block and the report of their run end, and a mark that waited for
them is done (R90, R155, R158, R165). -/
def writeTail (l : Nat) (s : State) : State :=
  let ln := laneOf s l
  if ln.tail.isEmpty then s
  else
    let s := closeRaw l s
    let s := ln.tail.foldl (fun s r => writeResultAt l r.2 (match (laneOf s l).tail.find? fun x => x.2 = r.2 with
      | some x => x.1 | none => r.1) s) s
    setLane l (fun x => { x with tail := [], tailStream := none, loop := x.loop.closeReport }) s

/-- A lane goes beam-off and issues nothing further (R137, R150, R152): its plan, buffer and open requests are gone. -/
def stopLane (l : Nat) (st : LaneState) (s : State) : State :=
  let late := !(laneOf s l).tail.isEmpty
  let s := if late then s else closeRaw l s
  setLane l (fun x => { x with
    state := st, plan := [], buf := [], stream := none, hold := none, cut := false, stall := none
    runOn := none, runIdx := 0, clipped := none
    prevOff := if x.runOn.isSome then some s.now else x.prevOff.map fun t => min t s.now
    emits := (x.emits.filter fun e => decide (e.on < s.now)).map fun e =>
      { e with off := some (match e.off with | some f => min f s.now | none => s.now) }
    marking := none, deferFrom := none
    holdNs := match x.hold with | some h => x.holdNs + (s.now - h.planned) | none => x.holdNs
    prox := { x.prox with released := false, withdrawn := false, inCycle := false, syncHold := none }
    loop := { (if late then x.loop else x.loop.closeReport) with
      trim := 0, integ := 0, active := false, blanking := false, raw := if late then x.loop.raw else none } }) s

/-! ### Marks of a LINE job (R88, R90, R92) -/

/-- Why a lane skips a mark, by the bit of the mark record's FLAGS that shows it (R92): 1 FAULT, 2 LATE, 3 NO_DATA,
5 HELD. -/
abbrev SkipCause := Nat

/-- How a mark ends that is skipped (R90, R91). -/
def skipStatus (c : SkipCause) : Nat := if c = 1 then stAbFault else if c = 2 then stTimeout else stAbHost

/-- Lane `l` has settled product k: written, skipped for a cause, or left partial (R92). -/
def settleProduct (l k : Nat) (cause : Option SkipCause) (part : Bool) (s : State) : State :=
  let one := BitVec.ofNat 128 (2 ^ l)
  let upd := fun p : Product =>
    if p.k = k then
      { p with done := p.done ||| one, skipped := if cause.isSome || part then p.skipped ||| one else p.skipped
               flags := p.flags ||| (match cause with | some c => 2 ^ c | none => 0) ||| (if part then 16 else 0) }
    else p
  setJobs (fun j => { j with products := j.products.map upd }) s

/-- The mark that is assigned to product k on lane `l` ends with a status. -/
def endMark (l k st : Nat) (s : State) : State :=
  match (laneOf s l).marks.find? fun m => m.product = k with
  | none => s
  | some m => endWith m.ref st (setLane l (fun x => { x with marks := x.marks.filter fun m => m.product != k }) s)

/-- Lane `l` skips product k (R88). -/
def skipMark (l k : Nat) (c : SkipCause) (part : Bool) (s : State) : State :=
  let s := endMark l k (skipStatus c) (settleProduct l k (some c) part s)
  let s := setJobs (fun j => { j with marksSkipped := satInc j.marksSkipped }) s
  if c = 5 then s else raise 0x3010 (natLE 1 l ++ natLE 4 k ++ natLE 1 c) s

/-- A mark that a fault or a late record cuts off: it is skipped, and PARTIAL where something was written (R88). -/
def cutMark (l : Nat) (c : SkipCause) (s : State) : State :=
  match (laneOf s l).marking with
  | none => s
  | some (k, _) =>
    let part := (laneOf s l).plan.any (fun r => r.first.isSome) || 0 < (laneOf s l).records
    skipMark l k c part s

/-! ### Faults (R68, R69, R137, R138) -/

/-- The lanes of the job that are not excluded, with `l` counted out. -/
def lanesLeft (s : State) (l : Nat) : Nat :=
  match jobHeader s with
  | none => 0
  | some h => (List.range 128).countP fun k => h.lanes.getLsbD k && !s.jobs.excluded.getLsbD k && k != l

/-- A lane joins the excluded set (R68). -/
def excludeLane (l : Nat) (s : State) : State :=
  if s.jobs.excluded.getLsbD l then s
  else
    let s := setJobs (fun j => { j with excluded := j.excluded ||| BitVec.ofNat 128 (2 ^ l) }) s
    let s := setLane l (fun x => { x with excluded := true }) s
    raise 0x3007 [] s

/-- The fault policy of a BUILD job for a lane that has faulted (R64, R68, R69): the lane is excluded, or a hold follows
the layer. -/
def faultPolicy (l : Nat) (s : State) : State :=
  match jobHeader s with
  | none => s
  | some h =>
    if h.line then s
    else if h.degraded && !(h.minLanes != 0 && decide (lanesLeft s l < h.minLanes)) then excludeLane l s
    else if s.jobs.holdAfter = 0 || s.jobs.holdAfter = 5 then
      setJobs (fun j => { j with holdAfter := if h.degraded then 2 else 1 }) s
    else s

/-- The layer's account of a faulted lane (R58): END_STATE FAULT, the code and the index, with what a repair exposure
starts from (R75). -/
def noteFault (l code idx : Nat) (s : State) : State :=
  let ln := laneOf s l
  match s.jobs.exposed with
  | none => s
  | some i =>
    if s.jobs.line then s
    else
      let at_ := ln.plan.find? fun r => r.idx = idx + 1
      let resume := match at_ with
        | some r => some (r.g, if r.vec.isMotion then r.g else r.staged, r.x0, r.y0)
        | none => some (ln.cur, ln.staged, ln.planX, ln.planY)
      setLayerLane i l (fun e => { e with endState := 2, code := code, index := idx, resumeAt := resume }) s

/-- The SYNCs that lane `l` belongs to and that are not released or failed yet (R83). -/
def openSyncs (s : State) (l : Nat) : List SyncPoint :=
  s.jobs.syncs.filter fun p => p.lanes.getLsbD l && !p.gone.getLsbD l && p.released.isNone && p.failed.isNone

/-- SYNC_BROKEN (R83): a participant of an open SYNC has faulted. With FAIL_CONTINUE clear every waiting participant is
to fault; with it set the SYNC goes on without the one that faulted. -/
def breakSync (l : Nat) (s : State) : State × List Nat :=
  (openSyncs s l).foldl (fun acc p =>
    let s := raise 0x300C [] acc.1
    let upd := fun q : SyncPoint =>
      if q.key = p.key && q.id = p.id && q.lanes = p.lanes then
        (if p.failContinue then
          { q with gone := q.gone ||| BitVec.ofNat 128 (2 ^ l), arrivals := q.arrivals.filter fun a => a.lane != l }
        else { q with failed := some fcSyncBroken })
      else q
    let s := setJobs (fun j => { j with syncs := j.syncs.map upd }) s
    (s, if p.failContinue then acc.2
        else acc.2 ++ (p.arrivals.filter fun a => a.lane != l).map fun a => a.lane)) (s, [])

/-- A lane of the layer that fills its window in ARM: the faults of R64, R70 and R83 take it although it is IDLE. -/
def arming (s : State) (l code : Nat) : Bool :=
  let ln := laneOf s l
  [8, 9].contains s.jobs.state.toNat && ln.state = .idle && ln.stream.isSome && inLayer s l && !ln.excluded
    && code != fcLane && code != fcPermit

/-- One lane faults (R137). A second fault at the same tick is counted, and the lower code, or the lower cause, is kept
(R138). `idx` names the record where the caller knows it. -/
def faultOne (l code cause : Nat) (idx : Option Nat) (s : State) : State × List Nat :=
  let ln := laneOf s l
  if ln.faultable s.now || arming s l code then
    let i := idx.getD (match ln.ended with
      | some e => if ln.state = .idle && e.1 = s.now then e.2 else faultIndexAt ln s.now
      | none => faultIndexAt ln s.now)
    let s := if ln.state.active then flushCut l i s else s
    let s := cutMark l 1 (noteFault l code i s)
    let s := stopLane l .fault s
    let s := setLane l (fun x => { x with
      code := code, cause := if code = fcLane then cause else 0, other := 0, faultIndex := i
      faultTime := BitVec.ofNat 64 (afterTor s s.now), faultAt := some s.now }) s
    let s := killLane l s
    let s := laneEvent l 0x3020 (natLE 1 code ++ natLE 1 (if code = fcLane then cause else 0) ++ natLE 4 i) s
    breakSync l (if code = fcPermit then s else faultPolicy l s)
  else if ln.state = .fault && ln.faultAt == some s.now then
    let better := decide (code < ln.code) || (code == ln.code && code == fcLane && decide (cause < ln.cause))
    let s := setLane l (fun x => { x with
      other := satInc x.other
      code := if better then code else x.code
      cause := if better then (if code = fcLane then cause else 0) else x.cause }) s
    (if better then noteFault l code ln.faultIndex s else s, [])
  else (s, [])

/-- Faults one after another; a broken SYNC adds its waiting participants (R83). -/
def faultAll : Nat → List (Nat × Nat × Nat × Option Nat) → State → State
  | 0, _, s => s
  | _ + 1, [], s => s
  | n + 1, (l, code, cause, idx) :: rest, s =>
    let r := faultOne l code cause idx s
    faultAll n (rest ++ r.2.map fun k => (k, fcSyncBroken, 0, none)) r.1

/-- A lane faults with a code, and with a cause where the code is LANE. -/
def laneFault (l code cause : Nat) (s : State) : State := faultAll 512 [(l, code, cause, none)] s

/-- A lane faults at a record. -/
def laneFaultAt (l code idx : Nat) (s : State) : State := faultAll 512 [(l, code, 0, some idx)] s

/-- A fault recorded for a lane that stays OFF (R70, R96): its node is absent, or it is in a BLOCK reset. -/
def faultOff (l code cause idx : Nat) (s : State) : State :=
  let s := noteFault l code idx s
  let s := setLane l (fun x => { x with
    code := code, cause := cause, faultIndex := idx, faultTime := BitVec.ofNat 64 (afterTor s s.now),
    faultAt := some s.now }) s
  let s := laneEvent l 0x3020 (natLE 1 code ++ natLE 1 cause ++ natLE 4 idx) s
  let r := breakSync l (faultPolicy l s)
  faultAll 512 (r.2.map fun k => (k, fcSyncBroken, 0, none)) r.1

/-- A lane that is not ARMED in time faults from where it is, at its first record (R64). -/
def armLateFault (l : Nat) (s : State) : State :=
  let i := match (laneOf s l).plan with | r :: _ => r.index | [] => 0
  let s := noteFault l fcArmLate i s
  let s := stopLane l .fault s
  let s := setLane l (fun x => { x with
    code := fcArmLate, cause := 0, other := 0, faultIndex := i, faultTime := BitVec.ofNat 64 (afterTor s s.now),
    faultAt := some s.now }) s
  let s := killLane l s
  let s := laneEvent l 0x3020 (natLE 1 fcArmLate ++ natLE 1 0 ++ natLE 4 i) s
  let r := breakSync l (faultPolicy l s)
  faultAll 512 (r.2.map fun k => (k, fcSyncBroken, 0, none)) r.1

/-- OFF to IDLE (R96), with the set-point of R601: beam off, at the centre of the beam's field. -/
def laneToIdle (l : Nat) (s : State) : State :=
  let ln := laneOf s l
  if ln.state = .off && (beamNode s l).isSome && !s.power.blockReset.any (fun u => u == (0, l) || u == (1, l / 8)) then
    let r := laneRec s l
    setLane l (fun x => { x with
      state := .idle, pos := some (r.fieldCx, r.fieldCy), planX := r.fieldCx, planY := r.fieldCy
      centreAt := some (tickAt (s.now + tLead s)), headFault := false
      loop := { x.loop with missing := 0, lastFb := some (s.now / 500 * 500) } }) s
  else s

/-- FAULT to IDLE, or to OFF where the beam's node is absent (R96). -/
def leaveFault (l : Nat) (s : State) : State :=
  if (laneOf s l).state = .fault then
    setLane l (fun x => { x with state := if (beamNode s l).isSome then .idle else .off }) s
  else s

/-- Every lane of the variant. -/
def allLanes (s : State) : List Nat := List.range s.variant.lanes

end Sys2Proof.Machine
end

