-- ==== Sys2Proof/Machine/LaneRun.lean ====
section
/-! DEFINITION. Lanes at work: fetch, planning, verdict requests, SYNC arrivals, results and END (R95 to R118, R42, R50,
R81 to R84). -/

namespace Sys2Proof.Machine

/-! ### Settings and limits (R49, R104) -/

/-- The limits of one class for a lane: the set's, lowered by the stream and by a host override. -/
def classLimits (set : PSet) (mark : Bool) (g : Settings) (ovrMark ovrJump : Option LimitSet) : Limits :=
  if mark then (set.mark.lower g.mark).lower (ovrMark.getD .none)
  else (set.jump.lower g.jump).lower (ovrJump.getD .none)

/-- A record uses the mark limits (R104). -/
def Vec.isMark : Vec → Bool
  | .line _ _ _ _ => true
  | .arc _ _ _ _ _ => true
  | _ => false

/-- A latched change of a class as an override: one that CLEAR has emptied is none (R111, R140). -/
def latchedOvr (d old : Option LimitSet) : Option LimitSet :=
  match d with | some x => if x = .none then none else some x | none => old

/-- The lane's overrides as they apply to record `idx`: a latched change counts from its record on (R111). -/
def Lane.ovrAt (ln : Lane) (idx : Nat) : Lane :=
  if ln.deferFrom.any fun k => decide (k ≤ idx) then
    { ln with ovrMark := latchedOvr ln.deferMark ln.ovrMark, ovrJump := latchedOvr ln.deferJump ln.ovrJump }
  else ln

/-- The limits of a record (R104): those of its class, with SPEED, and the arc's own cap. -/
def recLimits (ln : Lane) (set : PSet) (g : Settings) (v : Vec) (x0 y0 : Int) : Limits :=
  let l := classLimits set v.isMark g ln.ovrMark ln.ovrJump
  let sp := match v.opt.speed with | some x => min l.speed x | none => l.speed
  let sp := match v with
    | .arc cx cy _ _ _ =>
      let r := (F64.ofInt ((x0 - cx) * (x0 - cx) + (y0 - cy) * (y0 - cy))).sqrt
      min sp ((((F64.ofNat (10 * l.accel)).mul r).sqrt).floor.toNat)
    | _ => sp
  { l with speed := max 1 sp }

/-- The length of a motion record (R106). -/
def recLen (v : Vec) (x0 y0 x1 y1 : Int) : F64 :=
  match v with
  | .arc cx cy _ sw _ =>
    (((F64.ofInt ((x0 - cx) * (x0 - cx) + (y0 - cy) * (y0 - cy))).sqrt).mul (F64.ofNat sw.natAbs)).div (F64.ofNat 1000000)
  | .jump _ _ _ _ => (F64.ofInt ((x1 - x0) * (x1 - x0) + (y1 - y0) * (y1 - y0))).sqrt
  | .line _ _ _ _ => (F64.ofInt ((x1 - x0) * (x1 - x0) + (y1 - y0) * (y1 - y0))).sqrt
  | _ => .zero

/-- The field of a lane's beam (R368). -/
def laneField (s : State) (l : Nat) : Int × Int × Nat :=
  let r := laneRec s l
  (r.fieldCx, r.fieldCy, r.fieldHalf)

/-! ### The start of a stream -/

/-- A lane's buffer passes to a stream (R98): its 64 sets are loaded (R56) and its window is empty. An uncorrectable error in
the sets faults the lane at the first record with ECC_RUN (R70, R504). -/
def beginStream (l : Nat) (st : StreamRef) (table : Nat) (cur staged : Settings) (s : State) : State :=
  let bad := poisonIn (table + 4096 * l) 4096 s
  let s := match bad with | some w => eccUe (l / 8) w s | none => s
  let first : List Fetched :=
    if bad.isSome then [{ index := st.first, bytes := List.replicate 32 0, bad := some fcEccRun }] else []
  let sets := (List.range 64).map fun k => readPSet (memRead (table + 4096 * l + 64 * k) 64 s)
  setLane l (fun x =>
    let p := x.pos.getD (x.planX, x.planY)
    { x with
      stream := some st, sets := sets, fetchNext := st.first + first.length, buf := first, plan := [], cur := cur, staged := staged
      planX := p.1, planY := p.2, cut := false, stall := none, hold := none, runOn := none, runIdx := 0
      clipped := none, deferFrom := none, curves := s.curves }) s

/-! ### Fetch (R98 to R100, R42) -/

/-- One record read again: uncorrectable, changed since its validation, or good. -/
def fetchOne (st : StreamRef) (i : Nat) (s : State) : Fetched :=
  let a := st.addr + 32 * i
  let b := memRead a 32 s
  let bad := if (poisonIn a 32 s).isSome then some fcEccRun
    else if st.checked.getD i [] == b then none else some fcDataRun
  { index := i, bytes := b, bad := bad }

/-- A burst of up to 64 records (R98), up to the first that brings a fault. -/
def fetchBurst (l : Nat) (s : State) : State :=
  let ln := laneOf s l
  match ln.stream with
  | none => s
  | some st =>
    let full := ln.buf.length + ln.plan.countP (fun r => r.first.isNone) + 64
    if 2048 < full || (ln.buf.any fun f => f.bad.isSome) || ln.state = .off || ln.state = .fault then s
    else
      let n := min 64 (st.count - ln.fetchNext)
      let got := (List.range n).map fun k => fetchOne st (ln.fetchNext + k) s
      let good := got.takeWhile fun f => f.bad.isNone
      let took := good ++ (got.drop good.length).take 1
      let s := touchBasin (st.addr + 32 * ln.fetchNext) (32 * took.length) s
      let s := match took.find? (fun f => f.bad == some fcEccRun) with
        | some f => (match poisonIn (st.addr + 32 * f.index) 32 s with | some w => eccUe (l / 8) w s | none => s)
        | none => s
      let s := if took.any (fun f => f.bad == some fcDataRun) then
          raise 0x300E [] s else s
      setLane l (fun x => { x with buf := x.buf ++ took, fetchNext := x.fetchNext + took.length }) s

def execFetchBurst (t : Ns) (lane : Nat) (s : State) : Host.Outcome State Fault Refusal :=
  .next (fetchBurst lane (passTo t s))

/-! ### Planning (R103 to R115) -/

/-- The limits of the records that are not frozen, after a change (R112). -/
def relimit (ln : Lane) (r : PRec) : PRec :=
  if r.vec.isMotion && !r.fixed then { r with lim := recLimits (ln.ovrAt r.idx) r.set r.g r.vec r.x0 r.y0 } else r

/-- Where planning takes up: the last frozen record, with its start; or the first one. -/
def pivot (ps : List PRec) (start : Ns) : Ns × F64 × Nat × Nat :=
  match (ps.filter fun r => r.fixed).getLast? with
  | some r => (r.start, r.frac, r.vIn, r.idx)
  | none => match ps with
    | r :: _ => (start, .zero, 0, r.idx)
    | [] => (start, .zero, 0, 0)

/-- A plan is timed anew from its last frozen record on. -/
def replanList (tor l : Ns) (cap : List (Nat × Nat)) (start : Ns) (ps : List PRec) : List PRec :=
  let p := pivot ps start
  (ps.filter fun r => decide (r.idx < p.2.2.2)) ++
    replan tor l cap p.1 p.2.1 p.2.2.1 (ps.filter fun r => decide (p.2.2.2 ≤ r.idx))

/-- The motion records that are not frozen and whose entry speed a new plan raises, with their old speeds. -/
def raisedIn (old new : List PRec) : List (Nat × Nat) :=
  new.filterMap fun k =>
    if k.vec.isMotion && !k.fixed then
      match old.find? fun r => r.idx = k.idx with
      | some o => if o.vIn < k.vIn then some (k.idx, o.vIn) else none
      | none => none
    else none

/-- A planning pass over a new list of records. A junction into a record that is not frozen is raised only so far that its
branch time lies at least H_GUARD ahead (R115). -/
def planPass (s : State) (old new : List PRec) (start : Ns) : List PRec :=
  let go := fun caps => replanList (torOf s) s.jobs.l caps start new
  let caps := (raisedIn old (go noCap)).foldl (fun (caps : List (Nat × Nat)) (k : Nat × Nat) =>
    let top := match (go caps).find? fun r => r.idx = k.1 with | some r => r.vIn | none => k.2
    let ok := fun v : Nat => decide (s.now + hGuard s ≤ branchTime (go ((k.1, v) :: caps)) k.1)
    if decide (top ≤ k.2) || ok top then caps
    else (k.1, k.2 + maxSat (fun d => decide (k.2 + d ≤ top) && ok (k.2 + d)) 33 0) :: caps) noCap
  go caps

/-- Where a lane's plan starts: at L, or where its first record already stands. -/
def planStart (s : State) (ln : Lane) : Ns :=
  match ln.plan with | r :: _ => r.start | [] => if s.jobs.line then ln.gridNext else s.jobs.l

/-- A lane's window is planned again. -/
def replanLane (l : Nat) (s : State) : State :=
  setLane l (fun x => { x with plan := planPass s x.plan x.plan (planStart s x) }) s

/-- A record as planned, before its timing: the settings of R48 come into force with a motion record. -/
def makeRec (s : State) (l : Nat) (ln : Lane) (f : Fetched) (v : Vec) (bad : Option Nat) : Lane × PRec :=
  let staged := ln.staged.after v
  let cur := if v.isMotion then staged else { ln.cur with track := staged.track }
  let set := unit ln.sets cur.set .none
  let start := (ln.planX, ln.planY)
  let fin := match endOf (some start) v with | some p => p | none => start
  let r : PRec :=
    { idx := f.index + 1, ghost := false, vec := v, vtag := vtagOf f.bytes, setIdx := cur.set, set := set
      prio := (cur.priority.getD (laneRec s l).priority), g := cur
      lim := recLimits (ln.ovrAt (f.index + 1)) set cur v start.1 start.2, x0 := start.1, y0 := start.2, x1 := fin.1, y1 := fin.2
      len := recLen v start.1 start.2 fin.1 fin.2, vIn := 0, vOut := 0, start := 0, frac := .zero, dur := .zero, segs := []
      fixed := false, verdict := .none, deferred := false, held := false, holdNs := 0, waitNs := 0, waitLate := false
      lateTold := false, staged := staged, release := none, first := none, bad := bad, melt := .none }
  ({ ln with cur := cur, staged := staged, planX := fin.1, planY := fin.2 }, r)

/-- The record that a fetched one becomes: an arc is checked at fetch where its start is known only then (R59). -/
def planRec (s : State) (l : Nat) (ln : Lane) (f : Fetched) : Lane × PRec :=
  match f.bad with
  | some c => makeRec s l ln f .stop (some c)
  | none =>
    match readVec f.bytes with
    | .error c => makeRec s l ln f .stop (some c)
    | .ok v =>
      match v with
      | .arc cx cy _ sw _ =>
        (match arcError (laneField s l) ln.planX ln.planY cx cy sw with
          | some c => makeRec s l ln f .stop (some c)
          | none => makeRec s l ln f v none)
      | _ => makeRec s l ln f v none

/-! ### SYNC arrivals (R81, R83) -/

/-- The margin M of R81 in ns. -/
def syncMargin (s : State) (members : Nat) : Nat :=
  if members = 2 ^ s.prof.machine.member then 1000
  else 1000 * (match jobHeader s with | some h => h.marginUs | none => 50)

/-- A participant that counts as faulted when the first one arrives (R83). -/
def notRunning (s : State) (l : Nat) : Bool :=
  let x := laneOf s l
  x.state = .fault || x.state = .off || x.excluded || x.stream.isNone

/-- A meeting point is changed: it is known by its stream's layer or product, its SYNC_ID and its lanes. -/
def setSync (p : SyncPoint) (f : SyncPoint → SyncPoint) (s : State) : State :=
  setJobs (fun j => { j with
    syncs := j.syncs.map fun q => if q.key = p.key && q.id = p.id && q.lanes = p.lanes then f q else q }) s

/-- A meeting point at its first arrival. -/
def newSync (key id : Nat) (lanes : BitVec 128) (members : Nat) (fc : Bool) (a : Arrival) (now : Ns) : SyncPoint :=
  { key := key, id := id, lanes := lanes, members := members, failContinue := fc, arrivals := [a], first := now,
    rc := alignUp a.bound 5, released := none, failed := none, gone := 0, goneMembers := 0, reports := [], place := false }

/-- A participant that meets no one: it is released alone (R83). -/
def soloSync (l key id : Nat) (a : Arrival) (fc : Bool) (s : State) : State :=
  setJobs (fun j => { j with
    syncs := j.syncs ++ [newSync key id (BitVec.ofNat 128 (2 ^ l)) (2 ^ s.prof.machine.member) fc a s.now] }) s

/-- A planner has reached a SYNC (R81): it reports its bound. A participant that can no longer arrive breaks the SYNC at
the first arrival; one that arrives after its SYNC has failed faults, or is released alone (R83). -/
def arriveSync (l : Nat) (r : PRec) (s : State) : State :=
  match r.vec with
  | .sync fc id members lanes =>
    let b := max r.start (s.now + tLead s + syncMargin s members)
    let a : Arrival := { lane := l, bound := b, idx := r.index }
    let key := match (laneOf s l).stream with | some st => st.key | none => 0
    let point := newSync key id lanes members fc a s.now
    match s.jobs.syncs.find? fun p => p.key = key && p.id = id && p.lanes = lanes with
    | none =>
      let s := setJobs (fun j => { j with syncs := j.syncs ++ [point] }) s
      let out := (allLanes s).filter fun k => lanes.getLsbD k && k != l && notRunning s k
      if out.isEmpty then s
      else
        let s := raise 0x300C [] s
        if fc then setSync point (fun p => { p with gone := BitVec.ofNat 128 (maskOf out) }) s
        else laneFault l fcSyncBroken 0 (setSync point (fun p => { p with failed := some fcSyncBroken }) s)
    | some p =>
      match p.failed with
      | some c => laneFault l c 0 s
      | none =>
        if p.gone.getLsbD l then soloSync l key id a fc s
        else setSync p (fun p => { p with arrivals := p.arrivals ++ [a], rc := max p.rc (alignUp b 5) }) s
  | _ => s

/-! ### Holds (R117, R118) -/

/-- The time from which a record only decelerates up to its end. -/
def decelFrom (gs : List Seg) : Option F64 :=
  ((gs.reverse.takeWhile fun g => decide (g.dur.m ≤ 0) || decide (g.a0.m < 0) || (g.a0.m = 0 && decide (g.j.m < 0))).getLast?).map
    fun g => g.t0

/-- A ramp that the record before has begun ends in standstill within these records. -/
def rampEnds : List PRec → Bool
  | [] => false
  | r :: rs =>
    if r.passes then rampEnds rs
    else r.vec.isMotion && decide ((r.motionAt .zero).2.2.m < 0) && (r.vOut = 0 || rampEnds rs)

/-- A lane is in a deceleration ramp that ends in a standstill (R111): the set-point that it is issuing belongs to one, the
first of the ramp among them (R138). -/
def inDecel (s : State) (ln : Lane) : Bool :=
  ln.state = .running &&
  match recAt (s.now + tLead s) ln.plan with
  | some r =>
    r.vec.isMotion && (decelFrom r.segs).any (fun t => t.le (r.since (s.now + tLead s)))
      && (r.vOut = 0 || rampEnds (ln.plan.filter fun x => decide (r.idx < x.idx)))
  | none => false

/-- Record k gets no GO (R117): the lane follows its stopping branch, and every request after k is withdrawn (R118). -/
def holdRecord (l k : Nat) (s : State) : State :=
  let ln := laneOf s l
  match ln.plan.find? fun r => r.idx = k with
  | none => s
  | some r =>
    let br := stoppingBranch ln.plan k
    let planned := if r.frac.m = 0 then r.start else r.start + 5
    let rk : PRec := { r with verdict := .held, fixed := true, vIn := 0, start := br.2, frac := .zero, held := true }
    let later := (ln.plan.filter fun x => decide (k < x.idx)).map fun x =>
      { x with verdict := .none, fixed := false }
    let plan := br.1.map (fun x => { x with fixed := x.fixed || x.vec.isMotion }) ++ rk :: later
    replanLane l (setLane l (fun x => { x with
      plan := plan, hold := some { idx := k, since := s.now, planned := planned, stands := br.2, warned := false } }) s)

/-- A held record gets its GO at guard tick `tgo` (R118): it launches at tgo + T_lead. -/
def goHeld (l : Nat) (tgo : Ns) (s : State) : State :=
  let ln := laneOf s l
  match ln.hold with
  | none => s
  | some h =>
    let start := alignUp (tgo + tLead s) 5
    let plan := ln.plan.map fun r =>
      if r.idx = h.idx then { r with verdict := .go, start := start, frac := .zero, holdNs := r.holdNs + (start - h.planned) }
      else r
    let s := setLane l (fun x => { x with
      state := if x.state = .hold then .running else x.state, plan := plan, hold := none, gridNext := start
      holdNs := x.holdNs + (start - h.planned) }) s
    let held := (ln.plan.find? fun r => r.idx = h.idx).map fun r => r.holdNs + (start - h.planned)
    let s := match held with | some n => recExtreme 26 (n / 1000 : Nat) l s | none => s
    replanLane l s

/-! ### What time brings about (R42, R96, R101) -/

/-- The last record of a plan that takes part in motion. -/
def lastActive (ps : List PRec) : Option PRec := (ps.filter fun r => !r.passes).getLast?

/-- WAIT_LATE is raised, once each, for the WAIT_TIMEs of a lane that are late and that `due` names (R50). -/
def tellLate (l : Nat) (due : PRec → Bool) (s : State) : State :=
  let late := fun r : PRec => r.waitLate && !r.lateTold && due r
  match (laneOf s l).plan.find? late with
  | none => s
  | some r => raise 0x300D [] (setLane l (fun x => { x with
      plan := x.plan.map fun y => if y.idx = r.idx then { y with lateTold := true } else y }) s)

/-- A lane at time now: it enters HOLD where it stands at a held record, faults at a record that brings a fault, and
stops at the end of a window that fetch has not kept filled (R101). -/
def settleLane (l : Nat) (s : State) : State :=
  let ln := laneOf s l
  if ln.state = .running || (ln.state = .hold && ln.hold.isNone) then
    match ln.hold with
    | some h => if h.stands ≤ s.now then setLane l (fun x => { x with state := .hold }) s else s
    | none =>
      match ln.plan.find? (fun r => r.bad.isSome && decide (r.start ≤ s.now) && !kept ln r && !afterOpenSync ln.plan r.idx) with
      | some r => laneFaultAt l (r.bad.getD 0) r.index s
      | none =>
        let s := tellLate l (fun r => decide (r.start ≤ s.now) && !kept ln r) s
        match lastActive ln.plan with
        | none => s
        | some r =>
          if r.vec != .stop && !ln.plan.any openWait && !kept ln r && decide (r.endTick ≤ s.now + hGuard s) && !ln.cut
              && ln.buf.isEmpty then
            laneEvent l 0x3021 (natLE 4 r.index) (setLane l (fun x => { x with
              cut := true, underrun := satInc x.underrun }) s)
          else s
  else s

/-- The wait before record `k` is booked in the record before it (R84, R101, R102). -/
def bookWait (k ns : Nat) (ps : List PRec) : List PRec :=
  ps.map fun r => if r.idx + 1 = k && !r.vec.beamOn then { r with waitNs := r.waitNs + ns } else r

/-- Lanes plan from ARM on, when L is known, and in a LINE job (R30, R64). -/
def planningTime (s : State) : Bool := [2, 8, 9, 11].contains (jobState s)

/-- IDLE to ARMED (R96): in ARM, a lane of the layer whose window holds 512 planned records or every record up to END. A
FAULT bit that already stands faults it then (R136). -/
def tryArm (l : Nat) (s : State) : State :=
  let ln := laneOf s l
  let filled := decide (512 ≤ ln.plan.length) || ln.plan.any fun r => r.vec == .stop
  if ln.state = .idle && filled && s.jobs.state == 8 && inLayer s l && !ln.excluded then
    let s := setLane l (fun x => { x with state := .armed }) s
    if ln.headFault then laneFault l fcLane 0x02 s else s
  else s

/-- The records that the window counts: those that are not issued. -/
def windowCount (ln : Lane) : Nat := ln.plan.countP fun r => r.first.isNone

/-- PLANNING_PASS (R110): the next record enters the window, the junctions that are not frozen are planned again, and a
lane whose window is filled in ARM is ARMED (R96). A window that fetch has cut goes on from standstill once 64 records
are in the buffer or END is (R101). -/
def planningPass (l : Nat) (s : State) : State :=
  let s := settleLane l s
  let ln := laneOf s l
  let endIn := ln.stream.any fun st => decide (st.count ≤ ln.fetchNext)
  match ln.buf with
  | [] => tryArm l s
  | f :: rest =>
    if !planningTime s || 512 ≤ windowCount ln || (ln.cut && decide (ln.buf.length < 64) && !endIn) then tryArm l s
    else
      let (ln', r) := planRec s l ln f
      let resumeAt := tickAt (s.now + hGuard s)
      let r := if ln.cut then { r with start := resumeAt, fixed := true } else r
      let wait := match lastActive ln.plan with | some x => resumeAt - x.endTick | none => 0
      let plan := if ln.cut then bookWait r.idx wait ln.plan else ln.plan
      -- a latched change applies from the first record of the next move (R111)
      let newMove := match lastActive plan with
        | some x => !x.vec.isMotion || junctionCap x r == 0
        | none => true
      let takes := ln.deferFrom.isNone && (ln.deferMark.isSome || ln.deferJump.isSome) && newMove && r.vec.isMotion
      let ln1 := { ln' with deferFrom := if takes then some r.idx else ln.deferFrom }
      let r := if takes then { r with lim := recLimits (ln1.ovrAt r.idx) r.set ln'.cur r.vec r.x0 r.y0 } else r
      let new := plan ++ [r]
      let s := setLane l (fun _ => { ln1 with
        buf := rest, plan := planPass s plan new (planStart s ln), cut := false,
        gridNext := if ln.cut then resumeAt else ln1.gridNext }) s
      -- an arc that fails its check at fetch (R42, R59)
      let s := if r.bad.any fun c => c = fcGeometry || c = fcField then raise 0x300E [] s else s
      let s := match r.vec with
        | .sync _ _ _ _ => (match ((laneOf s l).plan.find? fun x => x.idx = r.idx) with
            | some x => arriveSync l x s
            | none => s)
        | _ => s
      tryArm l s

def execPlanningPass (t : Ns) (lane : Nat) (s : State) : Host.Outcome State Fault Refusal :=
  .next (planningPass lane (passTo t s))

/-! ### Verdict requests and deadlines (R116, R117) -/

/-- A record that takes a verdict: motion, or a beam-on DWELL that stands first in its stream or after a waiting point
(R183). -/
def takesVerdict (ps : List PRec) (r : PRec) : Bool :=
  r.vec.isMotion ||
  (r.vec.beamOn && match (ps.filter fun x => decide (x.idx < r.idx) && !x.passes).getLast? with
    | some p => p.vec.isWait
    | none => r.first.isNone)

/-- The next record of a lane that asks for its verdict. -/
def nextRequest (ps : List PRec) : Option PRec := ps.find? fun r => r.verdict == .none && takesVerdict ps r

/-- Another record that takes a verdict stands between record k and an open SYNC: the start of k is not known before the release is
fixed (R199). -/
def behindSync (ps : List PRec) (k : Nat) : Bool :=
  ps.any fun r => decide (r.idx < k) && takesVerdict ps r && afterOpenSync ps r.idx

/-- The open meeting point at which lane l has arrived with the SYNC `w` of its plan. -/
def openPoint (s : State) (l : Nat) (w : PRec) : Option SyncPoint :=
  s.jobs.syncs.find? fun p => p.released.isNone && p.failed.isNone
    && (match w.vec with | .sync _ id _ _ => id = p.id | _ => false)
    && (laneOf s l).stream.any (fun st => st.key = p.key) && p.arrivals.any fun a => a.lane = l && a.idx = w.index

/-- The branch time of record k. Behind an open SYNC the record starts from standstill at the release candidate (R115, R199). -/
def branchAt (s : State) (l k : Nat) : Ns :=
  let ps := (laneOf s l).plan
  (ps.filter fun w => decide (w.idx < k) && openWait w).foldl (fun t w =>
    match openPoint s l w with | some p => max t p.rc | none => t) (branchTime ps k)

/-- VERDICT_REQUEST (R116), from t_b(k) − H_GUARD on: the record and every junction before it are frozen. No record is asked
for while the lane is held (R118), and of the records after an open SYNC only the first one, for the release candidate (R199). A WAIT_TIME
before it that its lane reaches too late is reported (R50). In a LINE job the first record of a mark is planned for the time that the
request implies, H_GUARD later, until its product fixes it (log 22). -/
def verdictRequest (l : Nat) (s : State) : State :=
  let s := settleLane l s
  let ln := laneOf s l
  if (issueStop ln).isSome || (!ln.state.active && !(s.jobs.line && ln.stream.isSome)) then s
  else
    match nextRequest ln.plan with
    | none => s
    | some k =>
      let waiting := s.jobs.line && ln.marking.isNone && (match ln.plan with | r :: _ => r.idx = k.idx | [] => false)
      if behindSync ln.plan k.idx || !waiting && decide (s.now + hGuard s < branchAt s l k.idx) then s
      else
      let s := tellLate l (fun w => decide (w.idx < k.idx)) s
      let s := if waiting then
          setLane l (fun x => { x with plan := replanList (torOf s) s.jobs.l noCap (s.now + hGuard s) x.plan }) s else s
      setLane l (fun x => { x with
        plan := x.plan.map fun r => if r.idx = k.idx then { r with verdict := .asked s.now, fixed := true }
          else if r.idx < k.idx && r.vec.isMotion then { r with fixed := true } else r }) s

def execVerdictRequest (t : Ns) (lane : Nat) (s : State) : Host.Outcome State Fault Refusal :=
  .next (verdictRequest lane (passTo t s))

/-- The verdict deadline of record k (R117). -/
def deadlineOf (s : State) (ps : List PRec) (k : Nat) : Ns := branchTime ps k - tLead s - 5000

/-- The deadline falls on a guard tick whose judgement has not been made: a verdict of that tick is on time (R138). -/
def guardFirst (s : State) (ps : List PRec) (k : Nat) : Bool :=
  s.now % 5000 == 0 && s.prox.judgedAt != some s.now && deadlineOf s ps k == s.now

/-- VERDICT_DEADLINE (R117): no GO for the first record that has asked. A confirmation that could not be carried out
counts CONFIRM_LATE instead of VERDICT_LATE (R204). -/
def verdictDeadline (l : Nat) (s : State) : State :=
  let ln := laneOf s l
  if !ln.state.active || (issueStop ln).isSome then s
  else
    match ln.plan.find? fun r => r.verdict != .none && r.verdict != .go with
    | none => s
    | some k =>
      if afterOpenSync ln.plan k.idx || decide (s.now < deadlineOf s ln.plan k.idx) || guardFirst s ln.plan k.idx then s
      else
        let s := match k.verdict with
          | .tentative _ _ => setLane l (fun x => { x with prox := { x.prox with rule := 6, remote := false } })
              { s with prox := { s.prox with confirmLate := satInc s.prox.confirmLate } }
          | _ => laneEvent l 0x3022 (natLE 4 k.index)
              (setLane l (fun x => { x with verdictLate := satInc x.verdictLate }) s)
        holdRecord l k.idx { s with prox := { s.prox with holdVerdicts := s.prox.holdVerdicts + 1 } }

def execVerdictDeadline (t : Ns) (lane : Nat) (s : State) : Host.Outcome State Fault Refusal :=
  .next (verdictDeadline lane (passTo t s))

/-! ### Results and END (R57, R97, R102) -/

/-- The result of a record can be written: it has run and ended, and no stop of R101 is still to be booked in it, its run's off edge has launched
where it is the last of its run, its samples are in, and a waiting point after it has its end. -/
def resultReady (now : Ns) (ln : Lane) (r : PRec) : Bool :=
  let next := (ln.plan.filter fun x => decide (r.idx < x.idx)).head?
  let nextOn := ((ln.plan.filter fun x => decide (r.idx < x.idx) && !x.passes).head?).any fun x => x.vec.beamOn
  let cut := ln.cut && (lastActive ln.plan).any fun x => decide (x.idx ≤ r.idx)
  decide (r.endTick ≤ now) && !kept ln r && !openWait r && !(next.any openWait) && !cut
    && !(r.vec.beamOn && !nextOn && (decide (ln.runIdx ≤ r.idx) || ln.prevOff.any fun t => decide (now < t))) && samplesIn ln r

/-- A lane that R102 has stopped at a record goes on with it from standstill. -/
def endStall (l : Nat) (s : State) : State :=
  let ln := laneOf s l
  match ln.stall with
  | none => s
  | some k =>
    let start := tickAt (s.now + tLead s)
    match ln.plan.find? fun r => r.idx = k with
    | none => setLane l (fun x => { x with stall := none }) s
    | some r =>
      let plan := (bookWait k (start - r.start) ln.plan).map fun x =>
        if x.idx = k then { x with start := start, frac := .zero, vIn := 0, fixed := true }
        else if k < x.idx then { x with fixed := false, verdict := .none } else x
      setLane l (fun x => { x with
        stall := none, gridNext := start, plan := replanList (torOf s) s.jobs.l noCap start plan }) s

/-- RESULT_WRITE (R57, R102): the oldest record whose result is due is written, and its place in the write buffer is
free. -/
def resultWrite (l : Nat) (s : State) : State :=
  let ln := laneOf s l
  match ln.plan with
  | [] => s
  | r :: rest =>
    if (ln.state = .running || ln.state = .hold) && r.vec != .stop && resultReady s.now ln r then
      endStall l (setLane l (fun x => { x with plan := rest }) (writeResult l (withWait ln.plan r) s))
    else s

def execResultWrite (t : Ns) (lane : Nat) (s : State) : Host.Outcome State Fault Refusal :=
  .next (resultWrite lane (settleLane lane (passTo t s)))

/-- All results of a plan are written, as soon as their samples are in (R31, R155). -/
def flushPlan (l : Nat) (s : State) : State :=
  let ln := laneOf s l
  leaveRecords l (ln.prevOff.getD s.now) (ln.plan.map fun r => withWait ln.plan r) s

/-- END is reached: every record before it has ended and the beam is off (R97). -/
def atEnd (now : Ns) (ln : Lane) : Bool :=
  ln.state = .running && ln.runOn.isNone && (issueStop ln).isNone && !(ln.prevOff.any fun t => decide (now < t))
    && (ln.plan.all fun r => decide (r.endTick ≤ now) && !openWait r)
    && (ln.plan.getLast?).any fun r => r.vec == .stop && r.bad.isNone

/-! ### Timing of a running lane -/

/-- The other members of the machine that a SYNC names and that have reported no arrival at it (R202). -/
def silentMembers (s : State) (p : SyncPoint) : List Nat :=
  (List.range 8).filter fun m => p.members.testBit m && m != s.prof.machine.member && !p.goneMembers.testBit m
    && !(p.reports.any fun r => r.member = m)

/-- SYNC_TIMEOUT (R83): a participant has not arrived SYNC_TIMEOUT after the first arrival. -/
def syncTimeout (id : Nat) (s : State) : State :=
  let ms := match jobHeader s with | some h => h.timeoutMs | none => 100
  match s.jobs.syncs.find? fun p => p.id = id && p.released.isNone && p.failed.isNone
      && decide (p.first + 1000000 * ms ≤ s.now) with
  | none => s
  | some p =>
    let missing := (allLanes s).filter fun l => p.lanes.getLsbD l && !p.gone.getLsbD l
      && !(p.arrivals.any fun a => a.lane = l)
    if missing.isEmpty && (silentMembers s p).isEmpty then s
    else
    let s := raise 0x300B [] s
    if p.failContinue then
      setSync p (fun q => { q with
        gone := q.gone ||| BitVec.ofNat 128 (maskOf missing), goneMembers := q.goneMembers ||| maskOf (silentMembers s p) }) s
    else
      let s := setSync p (fun q => { q with failed := some fcSyncTimeout }) s
      faultAll 512 (p.arrivals.map fun a => (a.lane, fcSyncTimeout, 0, none)) s

def execSyncTimeout (t : Ns) (id : Nat) (s : State) : Host.Outcome State Fault Refusal :=
  .next (syncTimeout id (passTo t s))

/-- FOLLOWING_ERROR (R135, R136): the error has stood beyond its limit for FE_TIME. -/
def followingError (l : Nat) (s : State) : State :=
  let ln := laneOf s l
  if ln.feSince.any fun t => decide (t + 5 * (laneRec s l).feTime < s.now) then laneFault l fcLane 0x01 s else s

def execFollowingError (t : Ns) (lane : Nat) (s : State) : Host.Outcome State Fault Refusal :=
  .next (followingError lane (settleLane lane (passTo t s)))

/-! ### LANE_LIMITS (R111, R112, R114, R139, R140) -/

/-- A later change replaces an earlier one field by field where it is not 0 (R114). -/
def LimitSet.over (new : LimitSet) (old : LimitSet) : LimitSet :=
  { accel := if new.accel = 0 then old.accel else new.accel, jerk := if new.jerk = 0 then old.jerk else new.jerk,
    speed := if new.speed = 0 then old.speed else new.speed }

/-- The records that are not frozen take the limits in force, and the window is planned again (R112). -/
def relimitLane (l : Nat) (s : State) : State :=
  replanLane l (setLane l (fun x => { x with plan := x.plan.map fun r => relimit x r }) s)

/-- A class's override after a change (R114, R139). -/
def changedOvr (clear : Bool) (v : LimitSet) (old : Option LimitSet) : Option LimitSet :=
  if clear then none else some (v.over (old.getD .none))

/-- A class's latched change after another (R111, R114); CLEAR latches the change that empties the override. -/
def changedLatch (clear : Bool) (v : LimitSet) (latched old : Option LimitSet) : Option LimitSet :=
  if clear then some .none else some (v.over (latched.getD (old.getD .none)))

/-- The first record of the next move in the window that is not frozen (R111). -/
def nextMove (now : Ns) (ps : List PRec) : Option Nat :=
  (ps.find? fun r => r.vec.isMotion && !r.fixed && r.vIn = 0 && decide (now < r.start)).map fun r => r.idx

/-- One lane takes a change of limits, or latches it in a deceleration ramp (R111); the record that it is issuing then is
issued with the change latched. -/
def laneLimits (mark jump clear : Bool) (v : LimitSet) (l : Nat) (s : State) : State :=
  let ln := laneOf s l
  if inDecel s ln then
    let here := (recAt (s.now + tLead s) ln.plan).map fun r => r.idx
    relimitLane l (setLane l (fun x => { x with
      deferMark := if mark then changedLatch clear v x.deferMark x.ovrMark else x.deferMark
      deferJump := if jump then changedLatch clear v x.deferJump x.ovrJump else x.deferJump
      deferFrom := match x.deferFrom with | some k => some k | none => nextMove (s.now + tLead s) x.plan
      plan := x.plan.map fun r => if here = some r.idx then { r with deferred := true } else r }) s)
  else
    relimitLane l (setLane l (fun x => { x with
      ovrMark := if mark then changedOvr clear v x.ovrMark else x.ovrMark
      ovrJump := if jump then changedOvr clear v x.ovrJump else x.ovrJump
      deferMark := if mark && clear then none else x.deferMark
      deferJump := if jump && clear then none else x.deferJump }) s)

/-- The lanes that a mask names. -/
def lanesIn (mask : BitVec 128) : List Nat := (List.range 128).filter fun l => mask.getLsbD l

/-- A mask names a fused-off lane (R3). -/
def namesFused (s : State) (mask : BitVec 128) : Bool := (lanesIn mask).any fun l => decide (s.variant.lanes ≤ l)

/-- What LANE_LIMITS must meet (R139). -/
def laneLimitsCheck (mask : BitVec 128) (mark jump : Bool) (s : State) : Nat :=
  if !jobExists s then stState else if namesFused s mask || !(mark || jump) then stParam else stDone

/-- LANE_LIMITS takes effect. -/
def applyLaneLimits (mask : BitVec 128) (mark jump clear : Bool) (v : LimitSet) (s : State) : State :=
  (lanesIn mask).foldl (fun s l => laneLimits mark jump clear v l s) s

def startLaneLimits (r : Ref) (mask : BitVec 128) (mark jump clear : Bool) (accel jerk speed : Nat) (s : State) : State :=
  let st := laneLimitsCheck mask mark jump s
  if st != stDone then endWith r st s
  else
    let latched := (lanesIn mask).any fun l => inDecel s (laneOf s l)
    endWith r (if latched then stDoneNote else stDone)
      (applyLaneLimits mask mark jump clear { accel := accel, jerk := jerk, speed := speed } s)

def execLaneLimits (h : Hdr) (mask : BitVec 128) (mark jump clear : Bool) (accel jerk speed : Nat) (s : State) :
    Host.Outcome State Fault Refusal :=
  .next (postDescriptor (.laneLimits h mask mark jump clear accel jerk speed) h 0x20
    (startLaneLimits h.ref mask mark jump clear accel jerk speed) s)

end Sys2Proof.Machine
end

