-- ==== Sys2Proof/Machine/Arbiter.lean ====
section
/-! DEFINITION. The proximity arbiter (R181 to R211): claims, rules, judgement at guard ticks, SYNC releases, deadlock and
the peer exchange. -/

namespace Sys2Proof.Machine

def setProx (f : Prox → Prox) (s : State) : State := { s with prox := f s.prox }

/-! ### What a lane claims or asks for (R183 to R187) -/

/-- A trajectory to be judged: planned positions, the emission intervals with the first and last record of each, and
the time from which and up to which its span counts (R183). -/
structure Traj where
  plan : List PRec
  emits : List (Ns × Ns × Nat × Nat)
  since : Ns
  fin : Ns
deriving DecidableEq, Repr

/-- The emission intervals of a list of records; a run that goes on past it counts to `fin`. -/
def emitsOf (s : State) (ln : Lane) (ps : List PRec) (fin : Ns) : List (Ns × Ns × Nat × Nat) :=
  (ln.emits.filterMap fun e => match e.off with
    | some f => if s.now < f then some (e.on, f, e.first, e.last) else none
    | none => none) ++
  ((laneRuns (tLead s) ln ps).filter fun r => !r.empty).map fun r => (r.on, r.off.getD fin, r.first, r.last)

/-- A lane that stops at the start of a record: what the emission intervals of a stopped plan end with. -/
def asStop (r : PRec) (t : Ns) : PRec :=
  { r with vec := .stop, start := t, frac := .zero, dur := .zero, segs := [], x1 := r.x0, y1 := r.y0 }

/-- The end of the last emission, at `t` at the earliest (R183). -/
def lastEmit (es : List (Ns × Ns × Nat × Nat)) (t : Ns) : Ns := es.foldl (fun m e => max m e.2.1) t

/-- The trajectory of the records before `n` on the GO branch (R185): the off delay of a run that ends there goes on along `n`. -/
def goTraj (s : State) (ln : Lane) (n : PRec) : Traj :=
  let before := ln.plan.filter fun r => decide (r.idx < n.idx)
  let es := emitsOf s ln (if n.vec.beamOn then before else before ++ [asStop n n.start]) n.start
  { plan := ln.plan, emits := es, since := 0, fin := lastEmit es n.start }

/-- The trajectory on the stopping branch before `n`, its run's off delay included. -/
def stopTraj (s : State) (ln : Lane) (n : PRec) : Traj :=
  let br := stoppingBranch ln.plan n.idx
  let es := emitsOf s ln (br.1 ++ [asStop n br.2]) br.2
  { plan := br.1, emits := es, since := 0, fin := lastEmit es br.2 }

/-- The open branches of the records before `n`, or of a whole plan (R185). -/
def branches (s : State) (ln : Lane) (n : Option PRec) : List Traj :=
  match n with
  | none =>
    let fin := match ln.plan.getLast? with | some r => r.endTick | none => 0
    let es := emitsOf s ln ln.plan fin
    [{ plan := ln.plan, emits := es, since := 0, fin := lastEmit es fin }]
  | some n => if n.held then [stopTraj s ln n] else [goTraj s ln n, stopTraj s ln n]

/-- A record that a verdict has committed (R185, R204). -/
def PRec.committed (r : PRec) : Bool :=
  match r.verdict with
  | .go => true
  | .tentative _ _ => true
  | _ => false

/-- The first record after `k` that takes a verdict of its own, which ends the span of `k` (R183). -/
def nextJudged (ps : List PRec) (k : Nat) : Option PRec := ps.find? fun r => takesVerdict ps r && decide (k < r.idx)

/-- The last committed record. -/
def lastCommitted (ps : List PRec) : Option PRec := (ps.filter fun r => r.committed).getLast?

/-- Claims or reservations of one lane, as a request meets them. -/
structure Claim where
  lane : Nat
  trajs : List Traj
  reservation : Bool
deriving DecidableEq, Repr

/-- A lane whose record k is planned from standstill at `start`: a held record's reservation (R187), or the first record
after a SYNC planned for its release candidate (R199). -/
def plannedAt (s : State) (ln : Lane) (k : Nat) (start : Ns) : Lane :=
  let ps := ln.plan.map fun r => if r.idx = k then { r with start := start, frac := .zero, vIn := 0, fixed := true }
    else if k < r.idx then { r with fixed := false } else r
  { ln with plan := replanList (torOf s) s.jobs.l noCap start ps }

/-- Lane l with the record after each open SYNC launched at its release candidate (R199). -/
def atRelease (s : State) (l : Nat) : Lane :=
  let ln := laneOf s l
  (ln.plan.filter openWait).foldl (fun ln w =>
    match openPoint s l w, ln.plan.find? fun r => decide (w.idx < r.idx) && !r.passes with
    | some p, some n => plannedAt s ln n.idx p.rc
    | _, _ => ln) ln

/-- The claim of a lane (R185), its records after an open SYNC launched at the release candidate (R199). A lane released from a SYNC wait
claims nothing past that SYNC (R197). -/
def claimOf (s : State) (l : Nat) : Claim :=
  let ln := atRelease s l
  let ps := if ln.prox.withdrawn then ln.plan.takeWhile (fun r => !openWait r) else ln.plan
  match lastCommitted ps with
  | none => { lane := l, trajs := [], reservation := false }
  | some m => { lane := l, trajs := branches s { ln with plan := ps } (nextJudged ps m.idx), reservation := false }

/-- The trajectories of a request for record k, with the time from which its span counts: the earliest of its start, its
on edge and its own open stopping branch (R183). -/
def requestTrajs (s : State) (ln : Lane) (k : Nat) : List Traj :=
  match ln.plan.find? fun r => r.idx = k with
  | none => []
  | some r =>
    let n := nextJudged ln.plan k
    let tb := match n with | some x => if x.vIn = 0 then r.start else branchTime ln.plan x.idx | none => r.start
    (branches s ln n).map fun t =>
      let on := (t.emits.filter fun e => decide (e.2.2.1 ≤ k) && decide (k ≤ e.2.2.2)).foldl (fun m e => min m e.1) r.start
      { t with since := min (min r.start on) tb }

/-- The lane with its held record planned from standstill at S = G + T_lead, G being the guard tick now, or before the lane stands the
first one at or after its arrival (R187). -/
def heldView (s : State) (ln : Lane) (h : Hold) : Lane :=
  plannedAt s ln h.idx (alignUp ((if h.stands ≤ s.now then s.now else alignUp h.stands 5000) + tLead s) 5)

/-! ### The rules (R188 to R190) -/

/-- The guard ticks whose interval an emission interval overlaps (R181). -/
def ticksOf (on off : Ns) : List Ns :=
  let g := on / 5000
  if off ≤ on then [] else (List.range ((off - 1) / 5000 + 1 - g)).map fun i => 5000 * (g + i)

/-- How far the path of the interval at G leaves its tick segment: the sagitta of its arcs, at most the square of the way along the arc
over 8 radii. -/
def chordDev (ps : List PRec) (g : Ns) : Int :=
  ps.foldl (fun m r => match r.vec with
    | .arc cx cy _ _ _ =>
      if r.start < g + 5000 && g < r.endTick then
        let rad : Int := (isqrt (Pt.sq (r.x0 - cx, r.y0 - cy)).toNat : Nat)
        let way := (((r.motionAt (r.since (min (g + 5000) r.endTick))).1).sub (r.motionAt (r.since (max g r.start))).1).ceil
        max m (if rad = 0 then 0 else min (way * way / (8 * rad) + 1) (2 * rad + 2))
      else m
    | _ => m) 0

/-- The straight segment between a trajectory's positions at the start and the end of the interval at G, with the chord deviation where
the path is an arc. -/
def posSeg (t : Traj) (g : Ns) : Option (Pt × Pt × Int) :=
  match planPos t.plan g, planPos t.plan (g + 5000) with
  | some a, some b => some (a, b, chordDev t.plan g)
  | _, _ => none

/-- The tick segment of a trajectory in the interval at G, where it emits there (R188). -/
def tickSeg (t : Traj) (g : Ns) : Option (Pt × Pt × Int) :=
  if t.emits.any fun e => decide (e.1 < g + 5000) && decide (g < e.2.1) then posSeg t g else none

/-- SEP of two lanes' groups. -/
def sepOf (s : State) (a b : Nat) : Nat := unit s.prox.sep (16 * a + b) 0

/-- The parts of a segment that lie in plume region r and in none of a lower number (R190). -/
def regionParts (s : State) (a b : Pt) (r : Nat) : List Span :=
  match unit s.prox.plumes r none with
  | none => []
  | some p =>
    match clipRect a b p.region.x0 p.region.y0 p.region.x1 p.region.y1 (0, 1073741824) with
    | none => []
    | some sp =>
      (List.range r).foldl (fun ss k =>
        match unit s.prox.plumes k none with
        | none => ss
        | some q =>
          ss.flatMap fun x => match clipRect a b q.region.x0 q.region.y0 q.region.x1 q.region.y1 x with
            | none => [x]
            | some c => Span.minus x c) [sp]

/-- A point of the convex set `qs` lies in the plume wedge of a point of the segment a b (R189, R190). -/
def plumeHits (s : State) (a b : Pt) (qs : List Pt) (widen : Int) : Bool :=
  (List.range 4).any fun r =>
    match unit s.prox.plumes r none with
    | none => false
    | some p => (regionParts s a b r).any fun sp =>
        inWedge p.dirX p.dirY p.len p.half widen (minkowski qs [alongSeg a b sp.1, alongSeg a b sp.2])

/-- A point of the segment lies in the wedge of a point of the convex set `qs` widened by `widen`: each point counts under the rule of the
lowest number whose region holds it (R189, R203; log 23). -/
def plumeOver (s : State) (a b : Pt) (qs : List Pt) (widen : Int) : Bool :=
  (List.range 4).any fun r =>
    match unit s.prox.plumes r none with
    | none => false
    | some p =>
      let own := inRect (p.region.x0 - widen) (p.region.y0 - widen) (p.region.x1 + widen) (p.region.y1 + widen) qs
      let parts := (List.range r).foldl (fun ps k =>
        match unit s.prox.plumes k none with
        | none => ps
        | some q => ps.flatMap fun x =>
            outRect (q.region.x0 + widen) (q.region.y0 + widen) (q.region.x1 - widen) (q.region.y1 - widen) x) [own]
      parts.any fun x => inWedge p.dirX p.dirY p.len p.half widen (minkowski [a, b] x)

/-- The zones that a trajectory uses, by guard tick (R189). -/
def zoneUses (s : State) (t : Traj) (fromT : Ns) : List (Ns × Nat) :=
  (t.emits.flatMap fun e => (ticksOf (max e.1 fromT) e.2.1)).flatMap fun g =>
    match tickSeg t g with
    | none => []
    | some (a, b, w) => ((List.range 256).filter fun z => match unit s.prox.zones z none with
        | some zr => zr.enable && segPolyLe a b zr.verts (100 + w)
        | none => false).map fun z => (g, z)

/-- HOLDOFF of a zone in ns. -/
def holdoffOf (s : State) (z : Nat) : Nat := match unit s.prox.zones z none with | some zr => 1000 * zr.holdoff | none => 0

/-- Two trajectories conflict under a rule: 1 SEPARATION, 2 PLUME, 3 SHARED_ZONE (R189). -/
def trajConflict (s : State) (ga gb : Nat) (x y : Traj) : Option Nat :=
  let ticks := (x.emits.flatMap fun e => ticksOf (max e.1 x.since) e.2.1)
  let sep := sepOf s ga gb
  let pair := ticks.findSome? fun g =>
    match tickSeg x g, tickSeg y g with
    | some (a, b, w), some (c, d, v) =>
      if sep != 0 && segSegLe a b c d ((sep : Int) + 100 + w + v) then some 1
      else if plumeHits s a b [c, d] (w + v) || plumeHits s c d [a, b] (w + v) then some 2
      else none
    | _, _ => none
  match pair with
  | some r => some r
  | none =>
    let ux := zoneUses s x x.since
    let uy := if ux.isEmpty then [] else zoneUses s y 0
    if ux.any fun p => uy.any fun q => p.2 = q.2 && decide (p.1 ≤ q.1 + holdoffOf s p.2)
        && decide (q.1 ≤ p.1 + holdoffOf s p.2)
    then some 3 else none

/-! ### SYNC participants are not judged against one another across their SYNC (R199) -/

/-- Where the SYNC `p` stands in lane l's stream. -/
def syncIdx (s : State) (p : SyncPoint) (l : Nat) : Option Nat :=
  match p.arrivals.find? fun a => a.lane = l with
  | some a => some (a.idx + 1)
  | none => ((laneOf s l).plan.find? fun r => match r.vec with | .sync _ id _ lanes => id = p.id && lanes = p.lanes | _ => false).map
      fun r => r.idx

/-- A record of lane a and a run of lane b lie on different sides of a SYNC that both take part in. -/
def acrossSync (s : State) (a k b first : Nat) : Bool :=
  s.jobs.syncs.any fun p =>
    p.lanes.getLsbD a && p.lanes.getLsbD b &&
    match syncIdx s p a, syncIdx s p b with
    | some ia, some ib => (decide (ia < k) && decide (first < ib)) || (decide (k < ia) && decide (ib < first))
    | some ia, none => decide (ia < k)
    | none, some ib => decide (ib < first)
    | none, none => false

/-! ### Peers (R203 to R207) -/

/-- The widening G_p for a member in whole LSB that cover it (R203). -/
def peerWiden (s : State) (x : Ns) : Int :=
  (((s.prof.prox.peerVmax * (s.now - x + 5000 + s.time.clock.etb.toNat) + 9999999) / 10000000 : Nat) : Int)

/-- Where a peer lane may be in the interval at G: corners of a convex set, and its widening. -/
def peerArea (e : PeerLane) (x g : Ns) (gp : Int) : Option (List Pt × Int) :=
  let lo := x + 1000 * e.t0
  let hi := if e.t1 = 0xFFFF then g + 5000 else x + 1000 * e.t1
  if g + 5000 ≤ lo || hi ≤ g then none
  else if e.box then some ([(e.x0, e.y0), (e.x1, e.y0), (e.x1, e.y1), (e.x0, e.y1)], gp)
  else
    let n := 1000 * (e.t1 - e.t0)
    let at_ := fun t : Ns =>
      let u := if t < lo then 0 else if hi < t then n else t - lo
      if n = 0 then (e.x0, e.y0)
      else (lerp e.x0 e.x1 u n, lerp e.y0 e.y1 u n)
    some ([at_ g, at_ (g + 5000)], gp + 1000 * (e.radius : Int))

/-- A request's trajectory conflicts with a peer lane entry (R203). -/
def peerConflict (s : State) (ga : Nat) (x : Traj) (e : PeerLane) (xp : Ns) : Bool :=
  let sep := sepOf s ga e.sepGroup
  (x.emits.flatMap fun i => ticksOf (max i.1 x.since) i.2.1).any fun g =>
    match tickSeg x g, peerArea e xp g (peerWiden s xp) with
    | some (a, b, w), some (qs, v) =>
      (sep != 0 && polyPolyLe [a, b] qs ((sep : Int) + 100 + w + v)) || plumeHits s a b qs (w + v)
        || plumeOver s a b qs (w + v)
    | _, _ => false

/-- A request's use of a zone conflicts with a peer's zone entry (R203). -/
def peerZoneConflict (s : State) (x : Traj) (e : PeerZone) (xp : Ns) : Bool :=
  let hold := holdoffOf s e.zone
  (zoneUses s x x.since).any fun u => u.2 = e.zone && decide (xp + 1000 * e.first ≤ u.1 + 5000 + hold)
    && (e.last = 0xFFFF || decide (u.1 ≤ xp + 1000 * e.last + hold))

/-- The other members of the machine (R201). -/
def otherMembers (s : State) : List Nat :=
  (List.range 8).filter fun m => s.prof.machine.members.getLsbD m && m != s.prof.machine.member

def peerOf (s : State) (m : Nat) : Peer := unit s.prox.peers m .reset

def setPeer (m : Nat) (f : Peer → Peer) (s : State) : State := setProx (fun p => { p with peers := modUnit p.peers m f }) s

/-- Member m is silent: by R205, never heard (R206), or with other rules. -/
def peerSilent (s : State) (m : Nat) : Bool :=
  let p := peerOf s m
  !p.present || p.silent || p.mismatch

/-- The rectangles of a member's PEER_REACH (R192, R376). -/
def reachOf (s : State) (m : Nat) : List (List Pt) :=
  (unit s.prof.reach m []).map fun r => [(r.x0, r.y0), (r.x1, r.y0), (r.x1, r.y1), (r.x0, r.y1)]

def sepMax (s : State) : Nat := s.prox.sep.foldl max 0

def lenMax (s : State) : Nat := s.prox.plumes.foldl (fun m p => match p with | some p => max m p.len | none => m) 0

/-- The guard ticks of a trajectory's span, emission or not (R183). -/
def spanTicks (x : Traj) : List Ns := ticksOf x.since (max x.fin (x.since + 1))

/-- A span comes within `d` of a member's reach. -/
def nearReach (s : State) (x : Traj) (m : Nat) (d : Nat) : Bool :=
  (spanTicks x).any fun g =>
    match posSeg x g with
    | some (a, b, w) => (reachOf s m).any fun ps => polyPolyLe [a, b] ps ((d : Int) + w)
    | none => false

/-- A span meets a plume wedge of a point of a member's reach. -/
def underReach (s : State) (x : Traj) (m : Nat) : Bool :=
  (spanTicks x).any fun g =>
    match posSeg x g with
    | some (a, b, w) => (reachOf s m).any fun ps => plumeOver s a b ps w
    | none => false

/-- A zone that names another member (PROX_ZONE). -/
def crossZone (s : State) (z : Nat) : Bool :=
  match unit s.prox.zones z none with
  | some zr => (otherMembers s).any fun m => zr.members.getLsbD m
  | none => false

/-- PEER_UNSAFE (R207): the own time error exceeds the holdover bound, or a member's latest summary is not LOCKED. -/
def peersUnsafe (s : State) : Bool :=
  s.time.clock.boundExceeded || (otherMembers s).any fun m => (peerOf s m).last.any fun x => !x.locked

/-- The hold of R205 or R207 that a trajectory meets: PEER_SILENT 5 or XZONE_HELD 7, with the member. -/
def peerHold (s : State) (x : Traj) : Option (Nat × Nat) :=
  let silent := (otherMembers s).filter fun m => peerSilent s m
  let uses := (zoneUses s x x.since).map fun u => u.2
  let byReach := silent.find? fun m => nearReach s x m (sepMax s) || underReach s x m
  let byZone := silent.find? fun m => uses.any fun z => match unit s.prox.zones z none with
    | some zr => zr.members.getLsbD m | none => false
  match byReach with
  | some m => some (5, m)
  | none =>
    match byZone with
    | some m => some (5, m)
    | none => if peersUnsafe s && uses.any (crossZone s) then some (7, s.prof.machine.member) else none

/-! ### Judgement (R194) -/

/-- The hold in progress of a lane: at a record where it stands or is to stand, or at the record after an open SYNC (R187, R199). -/
def holdOf (ln : Lane) : Option Hold := match ln.hold with | some h => some h | none => ln.prox.syncHold

/-- The effective priority of a lane (R195). -/
def effPrio (s : State) (l : Nat) : Nat :=
  let ln := laneOf s l
  let k := match holdOf ln with
    | some h => ln.plan.find? fun r : PRec => r.idx = h.idx
    | none => nextRequest (ln.plan.filter fun r : PRec => !r.committed)
  let p := match k with | some r => r.prio | none => (laneRec s l).priority
  match holdOf ln with
  | some h => min 31 (p + (s.now - h.since) / (1000 * max 1 s.prof.prox.tAge))
  | none => p

/-- What stands against a request: the rule, whether the blocker is remote, and its lane and member. -/
structure Block where
  rule : Nat
  remote : Bool
  lane : Nat
  member : Nat
deriving DecidableEq, Repr

/-- The claims of a lane after an unreleased SYNC (R197). -/
def pastSync (s : State) (b : Nat) (first : Nat) : Bool := afterOpenSync (laneOf s b).plan first

/-- The rule under which a request conflicts with the runs of a claim or reservation that `keep` names, those across a common SYNC left
out (R199). -/
def claimConflict (s : State) (l k : Nat) (ts : List Traj) (c : Claim) (keep : Nat → Bool) : Option Nat :=
  let ga := (laneRec s l).sepGroup
  let gb := (laneRec s c.lane).sepGroup
  ts.findSome? fun x => c.trajs.findSome? fun y =>
    trajConflict s ga gb x { y with emits := y.emits.filter fun e => !acrossSync s l k c.lane e.2.2.1 && keep e.2.2.1 }

/-- A request uses a zone within HOLDOFF of a use by lane b that is over (R189). -/
def pastUse (s : State) (l k : Nat) (ts : List Traj) (b : Nat) : Bool :=
  (laneOf s b).prox.uses.any fun u => !acrossSync s l k b u.2.2 &&
    ts.any fun x => (zoneUses s x x.since).any fun v => v.2 = u.1 && decide (v.1 ≤ u.2.1 + holdoffOf s u.1)

/-- The first conflict of a request with the claims and reservations that stand (R194). A released lane ignores what R197
says. -/
def localBlock (s : State) (l k : Nat) (ts : List Traj) (claims : List Claim) : Option Block :=
  let rel := (laneOf s l).prox.released
  claims.findSome? fun c =>
    if c.lane = l || (rel && c.reservation) then none
    else
      let hit := match claimConflict s l k ts c fun f => !(rel && pastSync s c.lane f) with
        | some r => some r
        | none => if !c.reservation && pastUse s l k ts c.lane then some 3 else none
      hit.map fun r => { rule := r, remote := false, lane := c.lane, member := s.prof.machine.member }

/-- The edges of a request that gets HOLD: to every lane whose reservation it conflicts with, or whose claim on a record after an
unreleased SYNC (R197). -/
def waitEdges (s : State) (l k : Nat) (ts : List Traj) (claims : List Claim) : List (Nat × Nat) :=
  claims.filterMap fun c =>
    if c.lane != l && (claimConflict s l k ts c fun f => c.reservation || pastSync s c.lane f).isSome then some (l, c.lane) else none

/-- The first conflict with what the peers have sent (R203). -/
def remoteBlock (s : State) (l : Nat) (ts : List Traj) : Option Block :=
  let ga := (laneRec s l).sepGroup
  (otherMembers s).findSome? fun m =>
    match (peerOf s m).last with
    | none => none
    | some sm =>
      let byLane := sm.lanes.find? fun e => ts.any fun x => peerConflict s ga x e sm.x
      let byZone := sm.zones.find? fun e => ts.any fun x => peerZoneConflict s x e sm.x
      match byLane, byZone with
      | some e, _ => some { rule := 4, remote := true, lane := e.lane, member := m }
      | none, some e => some { rule := 4, remote := true, lane := e.lane, member := m }
      | none, none => none

/-- The zones with other members that lane l uses or has used, while LAST of the use has not passed (R201). -/
def crossUses (s : State) (l : Nat) : List (Ns × Nat) :=
  ((laneOf s l).prox.uses.filterMap fun u =>
    if crossZone s u.1 && decide (s.now < u.2.1 + 5000 + holdoffOf s u.1) then some (u.2.1, u.1) else none) ++
  ((claimOf s l).trajs.flatMap fun t => (zoneUses s t (s.now / 5000 * 5000)).filter fun u => crossZone s u.2)

/-- A second use of a zone with other members before the first one's LAST has passed (R201). -/
def secondZone (s : State) (l : Nat) (ts : List Traj) : Bool :=
  let mine := crossUses s l
  !mine.isEmpty && ts.any fun x => (zoneUses s x x.since).any fun v => crossZone s v.2 && mine.any fun u => v.2 != u.2

/-- A request emits. -/
def emitsIn (ts : List Traj) : Bool := ts.any fun x => x.emits.any fun e => decide (x.since < e.2.1)

/-- The judgement of a request: none for GO. A span without emission always receives GO unless R205 applies (R184). -/
def judge (s : State) (l k : Nat) (ts : List Traj) (claims : List Claim) : Option Block :=
  let me := s.prof.machine.member
  match ts.findSome? fun x => peerHold s x with
  | some (r, m) => some { rule := r, remote := m != me, lane := 0, member := m }
  | none =>
    if !emitsIn ts then none
    else if secondZone s l ts then some { rule := 3, remote := false, lane := l, member := me }
    else
      match localBlock s l k ts claims with
      | some b => some b
      | none => remoteBlock s l ts

/-- The request emits, and its span reaches a region where peers must confirm it (R204). -/
def needsConfirm (s : State) (ts : List Traj) : Bool :=
  emitsIn ts && (otherMembers s).any fun m => ts.any fun x => nearReach s x m (sepMax s + lenMax s)

/-- An open request: its lane, its record, its effective priority, and whether the lane holds at it. -/
structure Request where
  lane : Nat
  idx : Nat
  prio : Nat
  held : Bool
deriving DecidableEq, Repr

/-- The order of R194: effective priority, highest first, then the lower lane, then stream order. -/
def Request.before (a b : Request) : Bool :=
  decide (b.prio < a.prio) || (a.prio == b.prio && (decide (a.lane < b.lane) || (a.lane == b.lane && decide (a.idx ≤ b.idx))))

def insertReq (r : Request) : List Request → List Request
  | [] => [r]
  | q :: qs => if r.before q then r :: q :: qs else q :: insertReq r qs

/-- Record `k` of a lane is tentative (R204). -/
def isTentative (ln : Lane) (k : Nat) : Bool :=
  ln.plan.any fun r => r.idx = k && match r.verdict with | .tentative _ _ => true | _ => false

/-- The open requests of a lane: the held record where it is not tentative, or those asked and not judged. A record held after an open
SYNC ages (R195). -/
def laneRequests (s : State) (l : Nat) : List Request :=
  let ln := laneOf s l
  match ln.hold with
  | some h => if isTentative ln h.idx then [] else [{ lane := l, idx := h.idx, prio := effPrio s l, held := true }]
  | none => (ln.plan.filter fun r => match r.verdict with | .asked _ => true | _ => false).map fun r =>
      { lane := l, idx := r.idx, held := false,
        prio := if ln.prox.syncHold.any fun h => h.idx = r.idx then effPrio s l else min 31 r.prio }

/-- A request of the list is still open when its turn comes: a HOLD before it may have withdrawn it (R118). -/
def Request.open_ (s : State) (q : Request) : Bool := (laneRequests s q.lane).any fun r => r.idx = q.idx

/-- All open requests in order, at most 16 of a lane (R194, R208). -/
def openRequests (s : State) : List Request :=
  ((allLanes s).flatMap fun l => (laneRequests s l).take 16).foldr insertReq []

/-- GO is given. A lane that is in HOLD since the layer start with no hold verdict goes on with it, its grid from t_go + T_lead (R27, R119,
log 192). -/
def giveGo (l k : Nat) (held : Bool) (s : State) : State :=
  let s := setProx (fun p => { p with goVerdicts := p.goVerdicts + 1 }) s
  let s := setLane l (fun x => { x with prox := { x.prox with
    inCycle := false, syncHold := x.prox.syncHold.filter fun h => h.idx != k } }) s
  if held then goHeld l s.now s
  else
    let waits := (laneOf s l).state = .hold && (laneOf s l).hold.isNone
    setLane l (fun x => { x with
      plan := x.plan.map fun r => if r.idx = k then { r with verdict := .go } else r
      state := if waits then .running else x.state
      gridNext := if waits then alignUp (s.now + tLead s) 5 else x.gridNext }) s

/-- The rule and the blocker of a hold (PROX_LANE). -/
def noteBlock (l : Nat) (b : Block) (s : State) : State :=
  setLane l (fun x => { x with prox := { x.prox with
    rule := b.rule, remote := b.remote, blocker := b.lane, member := b.member } }) s

/-- The exchange time at or after G (R201). -/
def nextExchange (g : Ns) : Ns := alignUp g 20000

/-- A held request that has passed the local checks at S = G + T_lead and needs the peers' confirmation (R204): it is tentative for
the start that follows from the guard tick of its confirmation (log 25), where that start passes too. -/
def holdTentative (l k : Nat) (claims : List Claim) (s : State) : State × Option Block :=
  let x1 := nextExchange s.now
  let at_ := plannedAt s (laneOf s l) k (alignUp (alignUp (x1 + 1000 * s.prof.prox.lMax) 5000 + tLead s) 5)
  match judge s l k (requestTrajs s at_ k) claims with
  | some b => (s, some b)
  | none => (setLane l (fun x => { x with plan := at_.plan.map fun r =>
      if r.idx = k then { r with verdict := .tentative s.now x1 } else r }) s, none)

/-- The hold of a request after an open SYNC begins (R187, R199). -/
def syncHeld (l k : Nat) (s : State) : State :=
  if (laneOf s l).prox.syncHold.any fun h => h.idx = k then s
  else
    setLane l (fun x => { x with prox := { x.prox with
        syncHold := some { idx := k, since := s.now, planned := s.now, stands := s.now, warned := false } } })
      (setProx (fun p => { p with holdVerdicts := p.holdVerdicts + 1 }) s)

/-- What stands against later requests and the edges of R197 while a tick is judged. -/
structure Tick where
  claims : List Claim
  edges : List (Nat × Nat)
deriving DecidableEq, Repr

/-- A request gets HOLD: its reservation and its edges join those of the tick (R187, R197). -/
def holdRequest (q : Request) (ts : List Traj) (b : Block) (s : State) (t : Tick) : State × Tick :=
  let ln := laneOf s q.lane
  let edges := t.edges ++ waitEdges s q.lane q.idx ts t.claims
  let s := noteBlock q.lane b s
  let reserve := fun ts : List Traj => ({ lane := q.lane, trajs := ts, reservation := true } : Claim)
  if q.held then (s, { claims := t.claims ++ [reserve ts], edges := edges })
  else if afterOpenSync ln.plan q.idx then
    (syncHeld q.lane q.idx s, { claims := t.claims ++ [reserve ts], edges := edges })
  else
    let s := holdRecord q.lane q.idx (setProx (fun p => { p with holdVerdicts := p.holdVerdicts + 1 }) s)
    let ln := laneOf s q.lane
    let ts := match ln.hold with | some h => requestTrajs s (heldView s ln h) q.idx | none => ts
    (s, { claims := (t.claims.filter fun c => c.lane != q.lane) ++ [claimOf s q.lane, reserve ts], edges := edges })

/-- A request gets GO, or is tentative until its peers have confirmed it (R204). -/
def passRequest (q : Request) (ts : List Traj) (s : State) (t : Tick) : State × Tick :=
  let own := fun s : State => { t with claims := (t.claims.filter fun c => c.lane != q.lane) ++ [claimOf s q.lane] }
  if !needsConfirm s ts then
    let s := giveGo q.lane q.idx q.held s
    (s, own s)
  else if q.held then
    match holdTentative q.lane q.idx t.claims s with
    | (s, none) => (s, own s)
    | (s, some b) => holdRequest q ts b s t
  else
    let s := setLane q.lane (fun x => { x with plan := x.plan.map fun r =>
      if r.idx = q.idx then { r with verdict := .tentative s.now (nextExchange s.now) } else r }) s
    (s, own s)

/-- One request is judged (R194). The first record after an open SYNC is judged for the release candidate (R199); that of a lane whose
claim is withdrawn waits for the other participants (R197). A held lane that has not come to standstill only places its reservation
(R187, R188). A release of R197 serves one judgement. -/
def judgeOne (acc : State × Tick) (q : Request) : State × Tick :=
  let (s, t) := acc
  let ln := laneOf s q.lane
  let sync := afterOpenSync ln.plan q.idx
  if !q.open_ s || (sync && ln.prox.withdrawn) then (s, t)
  else
    match (if q.held then ln.hold else none) with
    | some h =>
      let ts := requestTrajs s (heldView s ln h) q.idx
      if s.now < h.stands then
        (s, { claims := t.claims ++ [{ lane := q.lane, trajs := ts, reservation := true }],
              edges := t.edges ++ s.prox.edges.filter fun e => e.1 = q.lane })
      else
        let v := judge s q.lane q.idx ts t.claims
        let s := setLane q.lane (fun x => { x with prox := { x.prox with released := false } }) s
        (match v with
          | none => passRequest q ts s t
          | some b => holdRequest q ts b s t)
    | none =>
      let ts := requestTrajs s (if sync then atRelease s q.lane else ln) q.idx
      let v := judge s q.lane q.idx ts t.claims
      let s := setLane q.lane (fun x => { x with prox := { x.prox with released := false } }) s
      match v with
      | none => passRequest q ts s t
      | some b => holdRequest q ts b s t

/-! ### Confirmations (R204) -/

/-- The key of a tentative record. -/
def confirmKey (prio moduleId lane : Nat) : Nat × Nat := (prio, moduleId * 128 + lane)

/-- A key ranks higher: the larger priority, then the lower number. -/
def ranksAbove (a b : Nat × Nat) : Bool := decide (b.1 < a.1) || (a.1 == b.1 && decide (a.2 < b.2))

/-- The summary of exchange X1 of a member, where it was on time. -/
def summaryAt (s : State) (m : Nat) (x1 : Ns) : Option Summary := (peerOf s m).onTime.find? fun y => y.x = x1

/-- The X1 summaries of all present members that are not silent have arrived on time. -/
def allArrived (s : State) (x1 : Ns) : Bool :=
  (otherMembers s).all fun m => peerSilent s m || (summaryAt s m x1).isSome

/-- The EFF_PRIO of a lane in the module's own summary of X1. -/
def sentPrioOf (s : State) (l : Nat) (x1 : Ns) : Nat :=
  (((s.prox.sentPrio.find? fun p => p.1 = x1).bind fun p => p.2.find? fun q => q.1 = l).map fun q => q.2).getD (effPrio s l)

/-- A tentative record against the peers' summaries of X1: it is lost to a plain entry, or to a tentative one that ranks
higher. -/
def confirmBlock (s : State) (l : Nat) (x1 : Ns) (ts : List Traj) : Option Block :=
  let ga := (laneRec s l).sepGroup
  let mine := confirmKey (sentPrioOf s l x1) s.ident.moduleId.toNat l
  (otherMembers s).findSome? fun m =>
    match summaryAt s m x1 with
    | none => none
    | some sm =>
      let wins := fun tent prio lane => !tent || ranksAbove (confirmKey prio sm.moduleId lane) mine
      let byLane := sm.lanes.find? fun e => wins e.tentative e.prio e.lane && ts.any fun x => peerConflict s ga x e sm.x
      let byZone := sm.zones.find? fun e => wins e.tentative e.prio e.lane && ts.any fun x => peerZoneConflict s x e sm.x
      match byLane, byZone with
      | some e, _ => some { rule := 6, remote := true, lane := e.lane, member := m }
      | none, some e => some { rule := 6, remote := true, lane := e.lane, member := m }
      | none, none => none

/-- A tentative record gets no GO: it is held, or held again where its lane holds at it; after an open SYNC it is asked again (R199). -/
def refuse (l k : Nat) (s : State) : State :=
  if afterOpenSync (laneOf s l).plan k then
    syncHeld l k (setLane l (fun x => { x with plan := x.plan.map fun r =>
      if r.idx = k then { r with verdict := .asked s.now } else r }) s)
  else if (laneOf s l).hold.any fun h => h.idx = k then
    setLane l (fun x => { x with plan := x.plan.map fun r => if r.idx = k then { r with verdict := .held } else r }) s
  else holdRecord l k s

/-- One tentative record is confirmed where it is due (R204). A record in a shared zone is held when PEER_UNSAFE begins
(R209). A held record that cannot be confirmed at the guard tick it was planned for is judged again at that tick (log 25). -/
def confirmOne (s : State) (p : Nat × Nat) : State :=
  let (l, k) := p
  match (laneOf s l).plan.find? fun r => r.idx = k with
  | none => s
  | some r =>
    match r.verdict with
    | .tentative _ x1 =>
      let ts := requestTrajs s (atRelease s l) k
      let unsafeZone := ts.findSome? fun x => peerHold s x
      let lost := fun (b : Block) (s : State) =>
        let s := setProx (fun p => { p with confirmLost := satInc p.confirmLost
                                            holdVerdicts := if afterOpenSync (laneOf s l).plan k then p.holdVerdicts else p.holdVerdicts + 1 }) s
        refuse l k (noteBlock l b s)
      let held := (laneOf s l).hold.any fun h => h.idx = k
      match unsafeZone with
      | some (rule, m) =>
        setProx (fun p => { p with holdVerdicts := if afterOpenSync (laneOf s l).plan k then p.holdVerdicts else p.holdVerdicts + 1 })
          (refuse l k (noteBlock l { rule := rule, remote := true, lane := 0, member := m } s))
      | none =>
        if s.now < x1 + 1000 * s.prof.prox.lMax then s
        else if !allArrived s x1 then (if held then refuse l k s else s)
        else
          match confirmBlock s l x1 ts with
          | some b => lost b s
          | none => giveGo l k held s
    | _ => s

/-- The tentative records of all lanes. -/
def tentatives (s : State) : List (Nat × Nat) :=
  (allLanes s).flatMap fun l => ((laneOf s l).plan.filter fun r => match r.verdict with
    | .tentative _ _ => true | _ => false).map fun r => (l, r.idx)

/-! ### Summaries taken in (R194, R205) -/

/-- MISMATCH of a member follows the RULES_CRC of its latest summary and the module's own; while it differs the member counts as
silent (R205). -/
def renewMismatch (m : Nat) (s : State) : State :=
  let p := peerOf s m
  match p.last with
  | none => s
  | some sm =>
    let mism := sm.crc != s.prox.rulesCrc.toNat
    let s := setPeer m (fun p => { p with mismatch := mism, silent := p.silent || mism }) s
    if mism && !p.mismatch then raise 0x3065 (natLE 1 m ++ natLE 4 s.prox.rulesCrc.toNat ++ natLE 4 sm.crc) s else s

/-- A member's frames received before the tick are taken in. A summary after X + L_MAX is late; one whose RULES_CRC
differs makes the member count as silent; the first on-time one that agrees ends the silence, that of a member never heard among them
(R205, R206). -/
def takeSummary (m : Nat) (s : State) (x : Ns × Summary) : State :=
  let (came, sm) := x
  let late := decide (sm.x + 1000 * s.prof.prox.lMax < came)
  let ends := !late && sm.crc == s.prox.rulesCrc.toNat
  let p := peerOf s m
  let s := setPeer m (fun p => { p with
    present := true, last := some sm, silent := (p.silent || !p.present) && !ends
    dueAt := sm.x + 1000 * s.prof.prox.lMax
    onTime := if late then p.onTime else (sm :: p.onTime).take 64
    lats := ((came - sm.x) :: p.lats).take 64
    late := if late then satInc p.late else p.late
    lateEpisode := late }) s
  let s := if late then setProx (fun p => { p with summaryLate := satInc p.summaryLate }) s else s
  let s := if late && !p.lateEpisode then raise 0x3062 (natLE 1 m ++ natLE 4 (came - sm.x)) s else s
  let s := renewMismatch m s
  if ends && (p.silent || !p.present) then raise 0x3064 (natLE 1 m) s else s

/-- Everything that has come from the peers is taken in (R194). -/
def takePeers (s : State) : State :=
  let s := (otherMembers s).foldl (fun s m =>
    let box := (peerOf s m).inbox
    box.foldl (takeSummary m) (setPeer m (fun p => { p with inbox := [] }) s)) s
  let s := (otherMembers s).foldl (fun s m => setPeer m (fun p => { p with
    ageUs := match p.last with | some x => satU 16 ((s.now - x.x) / 1000) | none => p.ageUs }) s) s
  let now := peersUnsafe s
  if now && !s.prox.unsafeNow then
    let who := if s.time.clock.boundExceeded then 0xFF else
      ((otherMembers s).find? fun m => (peerOf s m).last.any fun x => !x.locked).getD 0xFF
    raise 0x3066 (natLE 1 who) (setProx (fun p => { p with unsafeNow := true }) s)
  else if !now && s.prox.unsafeNow then raise 0x3067 [] (setProx (fun p => { p with unsafeNow := false }) s)
  else s

/-! ### SYNC release (R82, R200) -/

/-- The lanes that still take part in a SYNC. -/
def syncLanes (s : State) (p : SyncPoint) : List Nat :=
  (allLanes s).filter fun l => p.lanes.getLsbD l && !p.gone.getLsbD l

/-- The first record after the SYNC holds GO, or there is none that takes a verdict. -/
def syncGo (s : State) (p : SyncPoint) (l : Nat) : Bool :=
  match syncIdx s p l with
  | none => false
  | some i =>
    let after := (laneOf s l).plan.filter fun r => decide (i < r.idx)
    match after.find? fun r => takesVerdict ((laneOf s l).plan) r with
    | some r => r.verdict == .go
    | none => after.any fun r => r.vec == .stop

/-- The verdicts of the records after a SYNC are withdrawn and asked again, as its candidate has moved (R199). -/
def withdrawSync (p : SyncPoint) (s : State) : State :=
  (syncLanes s p).foldl (fun s l => match syncIdx s p l with
    | none => s
    | some i => setLane l (fun x => { x with plan := x.plan.map fun r =>
        if i < r.idx && r.verdict != .none then { r with verdict := .asked s.now } else r }) s) s

/-- The release is fixed: every participant's next record launches at it, and its Ripple action is posted (R82), in the place set aside
for it where there is one (R240). -/
def fixRelease (p : SyncPoint) (s : State) : State :=
  let s := setSync p (fun q => { q with released := some p.rc, place := false }) s
  let s := (syncLanes s p).foldl (fun s l => match syncIdx s p l with
    | none => s
    | some i =>
      let ln := laneOf s l
      let plan := ln.plan.map fun r : PRec => if r.idx = i then { r with release := some p.rc } else r
      let next := plan.find? fun r : PRec => decide (i < r.idx) && !r.passes
      let plan := match next with
        | some n => plan.map fun r : PRec =>
            if r.idx = n.idx then { r with start := p.rc, frac := .zero, vIn := 0, fixed := true }
            else if n.idx < r.idx then { r with fixed := false } else r
        | none => plan
      let arr := match plan.find? (fun r : PRec => r.idx = i) with | some r => r.start | none => p.rc
      let plan := plan.map fun r : PRec => if r.idx = i then { r with dur := F64.ofNat (p.rc - arr) } else r
      let plan := (replanList (torOf s) s.jobs.l noCap (planStart s ln) plan).map fun r : PRec =>
        { r with fixed := r.fixed || r.verdict != .none }
      setLane l (fun x => { x with plan := plan, gridNext := p.rc,
                                   prox := { x.prox with withdrawn := false } }) s) s
  postOwn (.syncRelease p.id) (p.rc - tLead s) s

/-- RC moves, and the verdicts that were given for it are withdrawn (R199, R200). -/
def moveRc (p : SyncPoint) (rc : Ns) (s : State) : State :=
  if rc = p.rc then s else withdrawSync { p with rc := rc } (setSync p (fun q => { q with rc := rc }) s)

/-- A SYNC on one module at guard tick now (R200). Without a Ripple place RC moves on as after a HOLD (R240). -/
def localSync (p : SyncPoint) (s : State) : State :=
  let ls := syncLanes s p
  if ls.isEmpty || !(ls.all fun l => p.arrivals.any fun a => a.lane = l) then s
  else
    let go := ls.all fun l => syncGo s p l
    if go && decide (s.now + tLead s + 5000 ≤ p.rc) && ripplePlace (.syncRelease p.id) s then fixRelease p s
    else if go || (ls.any fun l => (laneOf s l).prox.syncHold.isSome) then
      moveRc p (alignUp (max p.rc (s.now + 10000 + tLead s)) 5) s
    else s

/-- The members whose reports a SYNC needs: this one and those named that it has not gone on without (R83, R200). -/
def syncPeers (s : State) (p : SyncPoint) : List Nat :=
  s.prof.machine.member :: (otherMembers s).filter fun m => p.members.testBit m && !p.goneMembers.testBit m

/-- A SYNC across modules (R200): the release is fixed where the reports of one exchange X from every module, its own among them, have
arrived by X + L_MAX, all arrived with GO for one RC, in time; otherwise RC moves. -/
def crossSync (p : SyncPoint) (s : State) : State :=
  let lm := 1000 * s.prof.prox.lMax
  let x := s.now / 20000 * 20000
  if s.now < x + lm || x + lm + 5000 ≤ s.now then s
  else
    let tor := torOf s
    let reps := (syncPeers s p).filterMap fun m => p.reports.find? fun r => r.member = m && r.x = x && decide (r.came ≤ x + lm)
    let allIn := decide (reps.length = (syncPeers s p).length)
    let agreed := reps.all fun r => r.entries.all fun e => e.arrived && e.go && decide (tor + e.rc = p.rc)
    let bmax := reps.foldl (fun b r => r.entries.foldl (fun b e => if e.arrived then max b (tor + e.bound) else b) b)
      (p.arrivals.foldl (fun b a => max b a.bound) 0)
    if allIn && agreed && decide (x + lm + 5000 + tLead s + 5000 ≤ p.rc) then fixRelease p s
    else moveRc p (alignUp (max (max p.rc bmax) (x + 40000 + lm + tLead s + 5000)) 5) s

/-- Every open SYNC at a guard tick. -/
def stepSyncs (s : State) : State :=
  (s.jobs.syncs.filter fun p => p.released.isNone && p.failed.isNone).foldl (fun s p =>
    if p.members = 2 ^ s.prof.machine.member then localSync p s else crossSync p s) s

/-! ### Deadlock (R197) -/

/-- The lanes that wait at a SYNC point to every local participant that has not arrived. -/
def syncEdges (s : State) : List (Nat × Nat) :=
  (s.jobs.syncs.filter fun p => p.released.isNone && p.failed.isNone).flatMap fun p =>
    let missing := (syncLanes s p).filter fun l => !(p.arrivals.any fun a => a.lane = l)
    p.arrivals.flatMap fun a => missing.map fun m => (a.lane, m)

/-- What lane `l` reaches in n steps of a graph. -/
def reachable (es : List (Nat × Nat)) : Nat → List Nat → List Nat
  | 0, acc => acc
  | n + 1, acc =>
    let more := (es.filter fun e => acc.contains e.1 && !acc.contains e.2).map fun e => e.2
    if more.isEmpty then acc else reachable es n (acc ++ more.eraseDups)

/-- The shortest cycle through `l` that goes on from the given paths and has `l` as its lowest lane; a path is kept newest first. -/
def findCycle (es : List (Nat × Nat)) (l : Nat) : Nat → List (List Nat) → List Nat → Option (List Nat)
  | 0, _, _ => none
  | n + 1, paths, seen =>
    match paths.find? fun p => es.contains (p.headD l, l) with
    | some p => some p.reverse
    | none =>
      let more := paths.flatMap fun p =>
        (es.filter fun e => e.1 = p.headD l && decide (l < e.2) && !seen.contains e.2).map fun e => e.2 :: p
      if more.isEmpty then none else findCycle es l n more (seen ++ more.map fun p => p.headD l)

/-- Every edge of a cycle stands. -/
def cycleStands (es : List (Nat × Nat)) (c : List Nat) : Bool :=
  match c with
  | [] => false
  | l :: rest => (c.zip (rest ++ [l])).all fun e => es.contains e

/-- The cycles that begin with an edge from their lowest lane, one for each such edge. -/
def newCycles (es : List (Nat × Nat)) (old : List (List Nat × Ns)) (now : Ns) : List (List Nat × Ns) :=
  (es.filter fun e => decide (e.1 < e.2) && !(old.any fun c => c.1.take 2 = [e.1, e.2])).filterMap fun e =>
    (findCycle es e.1 128 [[e.2, e.1]] [e.1, e.2]).map fun c => (c, now)

/-- The wait-for graph of a tick: each cycle is timed from when it is first there (R197). -/
def watchCycles (edges : List (Nat × Nat)) (s : State) : State :=
  let es := (edges ++ syncEdges s).eraseDups
  let old := s.prox.cycles.filter fun c => cycleStands es c.1
  let s := setProx (fun p => { p with edges := edges, cycles := old ++ newCycles es old s.now }) s
  { s with lanes := s.lanes.mapIdx fun i x => { x with prox := { x.prox with
      inCycle := (reachable es 128 ((es.filter fun e => e.1 = i).map fun e => e.2)).contains i } } }

/-- Lane l waits at an open SYNC for a local participant. -/
def waitsAt (s : State) (l : Nat) : Bool := (syncEdges s).any fun e => e.1 = l

/-- A lane is released (R197): its next judgement ignores what the rule says, and where it waits at a SYNC the verdicts for the record
after that SYNC are withdrawn until every participant has arrived. -/
def releaseLane (l : Nat) (s : State) : State :=
  let waits := waitsAt s l
  setLane l (fun x => { x with
    prox := { x.prox with released := true, withdrawn := waits }
    plan := if waits then x.plan.map fun r =>
        if afterOpenSync x.plan r.idx && r.verdict != .none then { r with verdict := .asked s.now } else r
      else x.plan }) s

/-- A lane that was released from a SYNC wait is judged again when every participant has arrived (R197). -/
def restoreWaits (s : State) : State :=
  (allLanes s).foldl (fun s l =>
    if (laneOf s l).prox.withdrawn && !waitsAt s l then setLane l (fun x => { x with prox := { x.prox with withdrawn := false } }) s
    else s) s

/-- One cycle is broken at its lowest lane. -/
def breakCycle (s : State) (c : List Nat × Ns) : State :=
  match c.1 with
  | [] => s
  | l :: _ =>
    if (laneOf s l).prox.released then s
    else
      let s := setProx (fun p => { p with
        deadlockBreaks := satInc p.deadlockBreaks
        cycles := p.cycles.map fun d => if d.1 = c.1 then (d.1, s.now) else d }) (releaseLane l s)
      raise 0x3061 (natLE 1 l ++ natLE 1 c.1.length) s

/-- DEADLOCK_BREAK (R197): each cycle that has persisted for T_DEAD releases its lowest lane. At a guard tick the judgement of that tick
comes first, and a cycle that it resolves is not broken (R209). -/
def deadlockBreak (s : State) : State :=
  if s.now % 5000 = 0 && s.prox.judgedAt != some s.now then s
  else (s.prox.cycles.filter fun c => decide (c.2 + 1000 * s.prof.prox.tDead ≤ s.now)).foldl breakCycle s

def execDeadlockBreak (t : Ns) (s : State) : Host.Outcome State Fault Refusal := .next (deadlockBreak (passTo t s))

/-! ### The guard tick (R194) -/

/-- A 17th request of a lane in one tick waits for the next (R208). -/
def deferRequests (s : State) : State :=
  (allLanes s).foldl (fun s l =>
    let n := (laneRequests s l).length - 16
    if n = 0 then s
    else
      let s := setProx (fun p => { p with reqDeferred := satAdd p.reqDeferred n }) s
      if s.prox.overloadAt.any fun t => decide (s.now < t + 1000000000) then s
      else raise 0x3068 (natLE 1 l ++ natLE 2 n) (setProx (fun p => { p with overloadAt := some s.now }) s)) s

/-- The zones that each lane has used since the last tick that was judged are noted, as long as HOLDOFF or LAST asks for them (R189,
R201). -/
def noteUses (s : State) : State :=
  let lo := match s.prox.judgedAt with | some t => max (t + 5000) (s.now - 10000000) | none => s.now
  if s.prox.zones.all Option.isNone then s
  else
    (allLanes s).foldl (fun s l =>
      let new := (claimOf s l).trajs.flatMap fun t => t.emits.flatMap fun e =>
        (zoneUses s { t with emits := [(e.1, min e.2.1 (s.now + 5000), e.2.2)] } lo).map fun u => (u.2, u.1, e.2.2.1)
      let old := (laneOf s l).prox.uses.filter fun u =>
        decide (s.now ≤ u.2.1 + 5000 + holdoffOf s u.1) && !(new.any fun v => v.1 = u.1 && v.2.2 = u.2.2)
      setLane l (fun x => { x with prox := { x.prox with uses := old ++ new } }) s) s

/-- The open requests of a tick are judged in the order of R194. -/
def judgeAll (s : State) : State × Tick :=
  (openRequests s).foldl judgeOne (s, { claims := (allLanes s).map fun l => claimOf s l, edges := [] })

/-- A guard tick (R194): peer frames, confirmations, then every open request in order; SYNC releases follow (R200), the wait-for graph is
renewed and cycles that have stood for T_DEAD are broken (R197). A request whose deadline has passed is not judged any more (R117). -/
def guardTick (s : State) : State :=
  if !s.prox.run then s
  else
    let s := (allLanes s).foldl (fun s l => settleLane l s) s
    let s := (allLanes s).foldl (fun s l => verdictDeadline l s) s
    let s := (tentatives (takePeers s)).foldl confirmOne (takePeers s)
    let s := restoreWaits (noteUses (deferRequests s))
    let r := judgeAll s
    let s := { r.1 with lanes := r.1.lanes.mapIdx fun i x => { x with prox := { x.prox with effPrio := effPrio r.1 i } } }
    let s := watchCycles r.2.edges (stepSyncs s)
    let s := setProx (fun p => { p with judgedAt := some s.now }) s
    (allLanes s).foldl (fun s l => verdictDeadline l s) (deadlockBreak s)

/-- PROX_LONG_HOLD (R196): once per hold. -/
def longHold (l : Nat) (s : State) : State :=
  let ln := laneOf s l
  let told := fun h : Option Hold => h.map fun h => { h with warned := true }
  match holdOf ln with
  | none => s
  | some h =>
    if !h.warned && decide (h.since + 1000000 * s.prof.prox.holdWarn < s.now) then
      raise 0x3060 (natLE 1 l ++ natLE 1 ln.prox.rule ++ natLE 1 ln.prox.blocker)
        (setLane l (fun x => { x with
          hold := told x.hold, prox := { x.prox with syncHold := if x.hold.isSome then x.prox.syncHold else told x.prox.syncHold } }) s)
    else s

def execProxLongHold (t : Ns) (lane : Nat) (s : State) : Host.Outcome State Fault Refusal :=
  .next (longHold lane (passTo t s))

end Sys2Proof.Machine
end

