-- ==== Sys2Proof/Machine/Cfg.lean ====
section
/-! DEFINITION. The configuration registers (R379): the fields with the reset "Profile value", at their BAR0 offsets. -/

namespace Sys2Proof.Machine

/-- The word of a list of configuration registers at an offset; one that is not listed holds 0. -/
def cfgGet : List (Nat × Word) → Nat → Word
  | [], _ => 0
  | (k, v) :: m, a => if k = a then v else if a < k then 0 else cfgGet m a

/-- The list with one word replaced; a word of 0 is not listed. -/
def cfgPut : List (Nat × Word) → Nat → Word → List (Nat × Word)
  | [], a, v => if v = 0 then [] else [(a, v)]
  | (k, x) :: m, a, v =>
    if k < a then (k, x) :: cfgPut m a v
    else if k = a then (if v = 0 then m else (a, v) :: m)
    else if v = 0 then (k, x) :: m else (a, v) :: (k, x) :: m

/-- The configuration register at an offset. -/
def cfgWord (s : State) (off : Nat) : Nat := (cfgGet s.cfg off).toNat

/-- Bits [lo + w − 1 : lo] of a configuration register. -/
def cfgF (s : State) (off lo w : Nat) : Nat := bits (cfgWord s off) lo w

/-- One bit of a configuration register. -/
def cfgB (s : State) (off i : Nat) : Bool := bit (cfgWord s off) i

/-- An s32 configuration register. -/
def cfgS (s : State) (off : Nat) : Int := signExt 32 (cfgWord s off)

/-- An s64 in two configuration registers, low word first. -/
def cfgS64 (s : State) (off : Nat) : Int := signExt 64 (cfgWord s off + 2 ^ 32 * cfgWord s (off + 4))

/-- A configuration register is written whole. -/
def setCfg (off v : Nat) (s : State) : State := { s with cfg := cfgPut s.cfg off (BitVec.ofNat 32 v) }

/-- Bits [lo + w − 1 : lo] of a configuration register are written (R379). -/
def setCfgF (off lo w v : Nat) (s : State) : State :=
  let x := cfgWord s off
  setCfg off (x - bits x lo w * 2 ^ lo + v % 2 ^ w * 2 ^ lo) s

/-- An s64 is written in two configuration registers. -/
def setCfgS64 (off : Nat) (v : Int) (s : State) : State :=
  let u := (v % ((2 ^ 64 : Nat) : Int)).toNat
  setCfg (off + 4) (u / 2 ^ 32) (setCfg off (u % 2 ^ 32) s)

end Sys2Proof.Machine
end

