-- ==== Sys2Proof/Machine/Cams.lean ====
section
/-! DEFINITION. The configuration of a camera port and the layout of a slot (R420, R441). -/

namespace Sys2Proof.Machine

def camOf (s : State) (p : Nat) : Cam := unit s.cams p .reset

def setCam (p : Nat) (f : Cam → Cam) (s : State) : State := { s with cams := modUnit s.cams p f }

/-- A field of CAM_CFG or CAM_SET0 of port p. -/
def camF (s : State) (p off lo w : Nat) : Nat := cfgF s (0x700000 + 0x10000 * p + off) lo w

def camWidth (s : State) (p : Nat) : Nat := camF s p 4 0 14
def camHeight (s : State) (p : Nat) : Nat := camF s p 4 16 14

/-- TRIG_MODE (R427). -/
def camMode (s : State) (p : Nat) : Nat := camF s p 0 14 3

/-- OUT_MV: 0 off, 1 RAW16, 2 LUMA8. -/
def outMv (s : State) (p : Nat) : Nat := camF s p 0 21 2
def outDisp (s : State) (p : Nat) : Bool := camF s p 0 23 1 != 0
def outCode (s : State) (p : Nat) : Bool := camF s p 0 24 1 != 0

/-- The side d of the blocks of the display image (DISP_DECIM). -/
def dispDecim (s : State) (p : Nat) : Nat := match camF s p 0 28 2 with | 0 => 1 | 1 => 2 | _ => 4

/-- The size of the display image (R435). -/
def dispW (s : State) (p : Nat) : Nat := camWidth s p / dispDecim s p
def dispH (s : State) (p : Nat) : Nat := camHeight s p / dispDecim s p

/-- The bytes of the machine-vision image. -/
def mvBytes (s : State) (p : Nat) : Nat :=
  match outMv s p with
  | 1 => 2 * camWidth s p * camHeight s p
  | 2 => camWidth s p * camHeight s p
  | _ => 0

/-- Offsets in a slot (R441): the display image, the raw area and the code area. -/
def dispOff (s : State) (p : Nat) : Nat := 0x1000 + alignUp (mvBytes s p) 4096
def rawOff (s : State) (p : Nat) : Nat :=
  dispOff s p + (if outDisp s p then alignUp (3 * dispW s p * dispH s p) 4096 else 0)
def codeOff (s : State) (p : Nat) : Nat :=
  rawOff s p + (if outCode s p then alignUp (2 * camWidth s p * camHeight s p) 4096 else 0)

/-- The address of the slot of frame f. -/
def slotOf (s : State) (p f : Nat) : Nat :=
  let c := camOf s p
  c.base.toNat + f % c.slots * c.slotSize

end Sys2Proof.Machine
end

