-- ==== Sys2Proof/Machine/CamTrig.lean ====
section
/-! DEFINITION. Triggers, exposure sets and exposure windows of the camera ports (R427 to R433), and the capacity of the image
pipeline (R426). -/

namespace Sys2Proof.Machine

def setIsp (f : Isp → Isp) (s : State) : State := { s with isp := f s.isp }

def ledOf (s : State) (c : Nat) : Led := unit s.light.leds c .reset

def setLed (c : Nat) (f : Led → Led) (s : State) : State :=
  { s with light := { s.light with leds := modUnit s.light.leds c f } }

/-- A field of LED_CH of channel c. -/
def ledF (s : State) (c off lo w : Nat) : Nat := cfgF s (0x860000 + 0x100 * c + off) lo w

/-! ### Exposure sets (R429 to R431) -/

/-- Entry i of a list of CCI writes in registers. -/
def set0Cci (s : State) (p i : Nat) : CciWrite :=
  { reg := camF s p (0x10C + 4 * i) 0 16, value := camF s p (0x10C + 4 * i) 16 16, wide := camF s p 0x14C i 1 == 1 }

/-- Set 0 of the profile, with generation 0. -/
def set0 (s : State) (p : Nat) : ExpSet :=
  { ExpSet.none with
    len := camF s p 0x100 0 32, start := camF s p 0x104 0 32, pulse := camF s p 0x108 0 1 == 1
    cci := (List.range (camF s p 0x108 8 5)).map fun i => set0Cci s p i }

/-- The set in force. -/
def setInForce (s : State) (p : Nat) : ExpSet := if (camOf s p).cur.gen = 0 then set0 s p else (camOf s p).cur

/-- What is left of eligibility when the CCI writes are set aside (R430). -/
def timeEligible (s : State) (p : Nat) (tF : Ns) (x : ExpSet) : Bool :=
  decide (x.at_ + 1000 * camF s p 0x0C 0 20 ≤ tF) && decide ((if camF s p 8 16 3 = 0 then 8 else camF s p 8 16 3) ≤ x.frames)

/-- Every CCI write of a set has finished before T_F. -/
def cciReady (tF : Ns) (x : ExpSet) : Bool := x.cci.isEmpty || x.written.any fun w => decide (w < tF)

/-- A frame with time T_F takes the newest eligible pending set; the older ones are gone. A set that misses it only for its CCI
writes counts CCI_LATE once (R430, R431). -/
def takeSet (p : Nat) (tF : Ns) (s : State) : State :=
  let pend := (camOf s p).pending.map fun x => { x with frames := x.frames + 1 }
  let misses := fun x : ExpSet => timeEligible s p tF x && !cciReady tF x && !x.late
  let n := pend.countP misses
  let pend := pend.map fun x => if misses x then { x with late := true } else x
  let ok := fun x : ExpSet => timeEligible s p tF x && cciReady tF x
  setCam p (fun c =>
    let c := { c with cciLate := satAdd c.cciLate n }
    match pend.reverse.find? ok with
    | none => { c with pending := pend }
    | some x => { c with cur := x, pending := (pend.reverse.takeWhile fun y => !ok y).reverse }) s

/-! ### CAM_EXP_COMMIT and CAM_TRIGGER at their ticks -/

/-- A commit at tick C: the back set becomes a pending one and its CCI writes are queued (R430, R431). -/
def commitSet (p : Nat) (c : Ns) (r : Option Ref) (s : State) : State :=
  let cam := camOf s p
  let g := cam.latestGen + 1
  let x : ExpSet := { cam.back with
    gen := g, at_ := c, written := if cam.back.cci.isEmpty then some c else none, frames := 0, late := false }
  let s := setCam p (fun cam => { cam with
    latestGen := g, pending := cam.pending ++ [x]
    cci := if x.cci.isEmpty then cam.cci else cam.cci ++ [.set g] }) s
  match r with
  | some r => finishIn (272 + p) r stDone 0 g.toNat (bumpOverride 7 true s)
  | none => s

/-- PRODUCT of a port's frames outside mode 3 (R428). -/
def noProduct : Nat := 0xFFFFFFFF

/-- A trigger that could not be foreseen ends the diagnostic pulses of the channels that exclude the port (R447). A pulse that is over
has completed. -/
def abortDiag (p : Nat) (s : State) : State :=
  (List.range 16).foldl (fun s c =>
    match (ledOf s c).diag with
    | none => s
    | some (_, e) =>
      if e ≤ s.now then setLed c (fun l => { l with diag := none, diagDone := some e, starvedEpisode := false }) s
      else if bit (ledF s c 4 0 8) p then
        setLed c (fun l => { l with diag := none, diagAborted := satInc l.diagAborted }) s
      else s) s

/-- XTRIG of a port fires at tick T_F (R427): the frame's set is taken, and its exposure window is fixed (R432). A port that is not
streaming drives XTRIG and waits for no frame. -/
def fireXtrig (p : Nat) (seq : Option Nat) (product : Nat) (s : State) : State :=
  let tF := tickAt s.now
  let c := camOf s p
  if c.lastTrig.any fun t => decide (tF < t + 10000 * camF s p 0x14 0 20) then
    setCam p (fun c => { c with trigIgnored := satInc c.trigIgnored }) s
  else
    let s := takeSet p tF s
    let x := setInForce s p
    let a := tF + 1000 * x.start
    let w : XTrig := { tF := tF, gen := x.gen, seq := seq, post := s.jobs.state == 3, product := product }
    setCam p (fun c => { c with
      lastTrig := some tF, xtrig := some (tF + (if x.pulse then 10000 else 1000 * x.len))
      windows := c.windows ++ [(a, a + 1000 * x.len)]
      waits := if c.streaming then c.waits ++ [w] else c.waits })
      { s with sent := .edge 3 p true tF 0 :: s.sent }

/-- Every port in `mode` whose TRIG_SRC is `src` is triggered: by a TRIG_OUT (2) or by a compare hit (3) (R427). -/
def camTrigs (mode src product : Nat) (s : State) : State :=
  (List.range 8).foldl (fun s p =>
    if camMode s p = mode && camF s p 0 17 4 = src then
      let s := if mode = 3 then abortDiag p s else s
      fireXtrig p none ((product + 2 ^ 32 - (if product = noProduct then 0 else camF s p 0x0C 24 8)) % 2 ^ 32) s
    else s) s

/-- CAM_TRIGGER at its tick. -/
def hostTrigger (mask : Nat) (r : Option Ref) (s : State) : State :=
  let ports := bitsOf 8 mask
  let s := ports.foldl (fun s p => fireXtrig p none noProduct (abortDiag p s)) s
  match r with
  | some r => finishIn (272 + ports.headD 0) r stDone 0 0 s
  | none => s

/-- Commits and triggers whose launch has come take place. -/
def camSettle (s : State) : State :=
  let s := (List.range 8).foldl (fun s p =>
    let due := (camOf s p).commits.filter fun x => decide (x.1 ≤ s.now)
    let s := setCam p (fun c => { c with commits := c.commits.filter fun x => !decide (x.1 ≤ s.now) }) s
    due.foldl (fun s x => commitSet p x.1 x.2 s) s) s
  let due := s.isp.trigs.filter fun x => decide (x.1 ≤ s.now)
  let s := setIsp (fun i => { i with trigs := i.trigs.filter fun x => !decide (x.1 ≤ s.now) }) s
  due.foldl (fun s x => hostTrigger x.2.1 x.2.2 s) s

/-- LAUNCH of a descriptor of the cameras and lights: ns after TOR, or 0 for the next lane tick (R454). -/
def lightLaunch (launch : Nat) (s : State) : Option Ns :=
  if launch = 0 then some (tickAt s.now) else (refTime true launch s).map tickAt

/-! ### Capture plans (R433) -/

/-- The plan of a stage: PLAN_POST (state 3) or PLAN_BED (state 7). -/
def planOff (stage : Nat) : Nat := if stage = 3 then 0x7C00A0 else 0x7C00A8

/-- A stage starts at `t` with its capture plan: its ports are started where they are not streaming, and `false` says that one of them
is not in mode SEQUENCER. -/
def camStageBegin (stage layer : Nat) (t : Ns) (s : State) : State × Bool :=
  let w := cfgWord s (planOff stage)
  let ports := bitsOf 8 (bits w 0 8)
  if ports.isEmpty then (setIsp (fun i => { i with plan := none }) s, true)
  else if ports.any fun p => camMode s p != 4 then (setIsp (fun i => { i with plan := none }) s, false)
  else
    let s := ports.foldl (fun s p => setCam p (fun c => { c with streaming := true }) s) s
    let plan : CapPlan :=
      { stage := stage, layer := layer, mask := bits w 0 8, left := bits w 8 4 + 1, due := t + 1000000 * bits w 16 16
        period := 1000000 * cfgF s (planOff stage + 4) 0 16 }
    (setIsp (fun i => { i with plan := some plan }) s, true)

/-- BED_CHECK names a port (R440). -/
def bedChecked (s : State) (p : Nat) : Bool := cfgB s 0x7C0090 p

/-- The sequencer's trigger of a port: a frame that BED_IMAGE judges is due from now on, or does not exist where the trigger is
ignored (R440). -/
def seqTrigger (plan : CapPlan) (p : Nat) (s : State) : State :=
  let ignored := (camOf s p).trigIgnored
  let n := (camOf s p).waits.length
  let s := fireXtrig p (some plan.layer) noProduct s
  if plan.stage != 7 || !bedChecked s p then s
  else if (camOf s p).waits.length = n || (camOf s p).trigIgnored != ignored then { s with jobs := { s.jobs with defect := true } }
  else { s with jobs := { s.jobs with bedDue := s.jobs.bedDue ++ [(p, tickAt s.now)] } }

/-- CAPTURE_PLAN_TRIGGER: the plan goes on as long as its stage. -/
def planTrigger (s : State) : State :=
  match s.isp.plan with
  | none => s
  | some plan =>
    if s.jobs.state.toNat != plan.stage then setIsp (fun i => { i with plan := none }) s
    else if s.now < plan.due then s
    else
      let s := (bitsOf 8 plan.mask).foldl (fun s p => seqTrigger plan p s) s
      let next : CapPlan := { plan with left := plan.left - 1, due := plan.due + plan.period }
      setIsp (fun i => { i with plan := if plan.left ≤ 1 then none else some next }) s

/-! ### Capacity (R425, R426) -/

/-- ADMITTED: the sum of PIX_RATE over the ports with a frame in progress. -/
def admitted (s : State) : Nat :=
  ((List.range 8).map fun p => if (camOf s p).frame.isSome then camF s p 8 0 11 else 0).foldl (· + ·) 0

/-- A throttle step that has been ordered reaches the pipeline when no admitted frame is in progress, or at its deadline. -/
def takeCapacity (s : State) : State :=
  match s.isp.order with
  | none => s
  | some (n, d) =>
    if s.cams.all (fun c => c.frame.isNone) || decide (d ≤ s.now) then setIsp (fun i => { i with capacity := n, order := none }) s
    else s

/-- The capacity that an FS is admitted by: at the tick of a throttle order the one in force before it (R425, R453). -/
def admitCapacity (s : State) : Nat :=
  match s.isp.before with
  | some (n, t) => if t / 5 = s.now / 5 then n else s.isp.capacity
  | none => s.isp.capacity

/-- A throttle step is ordered for the divisor of a level. -/
def orderCapacity (level : Nat) (s : State) : State :=
  takeCapacity (setIsp (fun i => { i with
    order := some (4800 / 2 ^ level, s.now + 50000000), before := some (admitCapacity s, s.now) }) s)

end Sys2Proof.Machine
end

