-- ==== Sys2Proof/Machine/AxisOps.lean ====
section
/-! DEFINITION. Step axes: profiles, step times, stops, faults and the axes of the layer sequencer (R386 to R401), and the
counts and speeds of encoders (R405, R408 to R410). -/

namespace Sys2Proof.Machine

/-! ### Units -/

def axisOf (s : State) (a : Nat) : Axis := unit s.axes.axes a .reset

def setAxis (a : Nat) (f : Axis → Axis) (s : State) : State :=
  { s with axes := { s.axes with axes := modUnit s.axes.axes a f } }

def encOf (s : State) (e : Nat) : Enc := unit s.enc e .reset

def setEnc (e : Nat) (f : Enc → Enc) (s : State) : State := { s with enc := modUnit s.enc e f }

/-- The offset of a register of axis `a`. -/
def axisOff (a k : Nat) : Nat := 0x600000 + 0x100 * a + k

/-- The offset of a register of encoder channel `e`. -/
def encOff (e k : Nat) : Nat := 0x640000 + 0x100 * e + k

/-- STEP_WIDTH in lane ticks. -/
def stepWidth (s : State) (a : Nat) : Nat := cfgF s (axisOff a 0) 0 10

/-- MIN_SPACE in ns (R390). -/
def minSpace (s : State) (a : Nat) : Nat := max 250 (10 * stepWidth s a)

/-- DIR_SETUP in ns. -/
def dirSetup (s : State) (a : Nat) : Nat := 5 * cfgF s (axisOff a 0) 10 8

def axisSeqOwned (s : State) (a : Nat) : Bool := cfgB s (axisOff a 0) 19
def axisFbEn (s : State) (a : Nat) : Bool := cfgB s (axisOff a 0) 20
def axisFbEnc (s : State) (a : Nat) : Nat := cfgF s (axisOff a 0) 21 4

/-- The profile's MAX values (AXES_CFG). -/
def axisMax (s : State) (a : Nat) : AxisLimits :=
  { speed := cfgWord s (axisOff a 4), accel := cfgWord s (axisOff a 8), jerk := cfgWord s (axisOff a 12) }

/-- EMG_ACCEL and EMG_JERK with the profile's speed (R396). -/
def axisEmg (s : State) (a : Nat) : AxisLimits :=
  { speed := cfgWord s (axisOff a 4), accel := cfgWord s (axisOff a 16), jerk := cfgWord s (axisOff a 20) }

def posMin (s : State) (a : Nat) : Int := cfgS64 s (axisOff a 0x18)
def posMax (s : State) (a : Nat) : Int := cfgS64 s (axisOff a 0x20)

/-- The smallest of a descriptor's value (0 selects the profile's), the profile's MAX and an override (R391, R395). -/
def leastLimit (d m o : Nat) : Nat :=
  let x := if d = 0 then m else min d m
  max 1 (if o = 0 then x else min x o)

/-- The effective limits of an axis (R391). -/
def effLimits (s : State) (a : Nat) (d : AxisLimits) : AxisLimits :=
  let m := axisMax s a
  let o := (axisOf s a).ovr.getD .none
  { speed := leastLimit d.speed m.speed o.speed, accel := leastLimit d.accel m.accel o.accel,
    jerk := leastLimit d.jerk m.jerk o.jerk }

/-! ### Profiles (R388, R105, R106) -/

/-- Distance, speed and acceleration `t` s into a phase. -/
def AxisSeg.at (g : AxisSeg) (t : F64) : F64 × F64 × F64 :=
  let two := F64.ofNat 2
  let tt := t.mul t
  (g.s0.add (((g.v0.mul t).add ((g.a0.mul tt).div two)).add ((g.j.mul (tt.mul t)).div (F64.ofNat 6))),
    (g.v0.add (g.a0.mul t)).add ((g.j.mul tt).div two), g.a0.add (g.j.mul t))

/-- Phases one after another: each given by its duration, its acceleration at the start and its jerk. -/
def axisChain (t0 s0 v0 : F64) : List (F64 × F64 × F64) → List AxisSeg
  | [] => []
  | (d, a, j) :: ps =>
    let g : AxisSeg := { t0 := t0, dur := d, s0 := s0, v0 := v0, a0 := a, j := j }
    let e := g.at d
    g :: axisChain (t0.add d) e.1 e.2.1 ps

/-- tj and ta in s of a ramp over `dv` steps/s (R105). -/
def axisRampTimes (dv : F64) (l : AxisLimits) : F64 × F64 :=
  let fa := F64.ofNat l.accel
  let fj := F64.ofNat l.jerk
  if dv.m = 0 then (.zero, .zero)
  else if ((fa.mul fa).div fj).le dv then (fa.div fj, (dv.div fa).sub (fa.div fj))
  else ((dv.div fj).sqrt, .zero)

/-- The phases of a ramp over the signed speed change `dv`. -/
def axisRamp (dv : F64) (l : AxisLimits) : List (F64 × F64 × F64) :=
  let mag := if dv.m < 0 then dv.neg else dv
  let (tj, ta) := axisRampTimes mag l
  if tj.m = 0 then []
  else
    let j := dv.div (tj.mul (tj.add ta))
    let a := j.mul tj
    [(tj, .zero, j), (ta, a, .zero), (tj, a, j.neg)]

/-- The phases that take an axis from speed v and acceleration a0 to speed vp (R394): acceleration is first brought within
its limit; then the axis joins the ramp to vp where that ramp passes a0, or lets a0 go to 0 and ramps from there. -/
def axisJoin (v a0 vp : F64) (l : AxisLimits) : List (F64 × F64 × F64) :=
  if a0.m = 0 then axisRamp (vp.sub v) l
  else
    let fj := F64.ofNat l.jerk
    let fa := F64.ofNat l.accel
    let neg := decide (a0.m < 0)
    let mag := if neg then a0.neg else a0
    let sgn := fun x : F64 => if neg then x.neg else x
    let cut := if fa.lt mag then (mag.sub fa).div fj else .zero
    let a1 := if fa.lt mag then fa else mag
    let v1 := v.add (sgn (((mag.add a1).div (F64.ofNat 2)).mul cut))
    let first := if cut.m = 0 then [] else [(cut, a0, sgn fj.neg)]
    let back := a1.div fj
    let dvHalf := ((a1.mul a1).div fj).div (F64.ofNat 2)
    -- the ramp that passes a1 at v1 begins at vs with acceleration 0
    let vs := v1.sub (sgn dvHalf)
    let need := sgn (vp.sub vs)
    if (dvHalf.add dvHalf).le need then
      let (tj, ta) := axisRampTimes need l
      let j := need.div (tj.mul (tj.add ta))
      let a := j.mul tj
      first ++ [(if back.lt tj then tj.sub back else .zero, sgn a1, sgn j), (ta, sgn a, .zero), (tj, sgn a, sgn j.neg)]
    else
      let v2 := v1.add (sgn dvHalf)
      first ++ [(back, sgn a1, sgn fj.neg)] ++ axisRamp (vp.sub v2) l

/-- The distance and the end of a list of phases. -/
def axisEnd (segs : List AxisSeg) : F64 × F64 :=
  match segs.getLast? with
  | some g => ((g.at g.dur).1, g.t0.add g.dur)
  | none => (.zero, .zero)

/-- Speeds are searched in units of 2 ^ −20 steps/s. -/
def speedUnit (n : Nat) : F64 := (F64.ofNat n).div (F64.ofNat 1048576)

/-- The distance that an axis at speed v and acceleration a0 covers on the way to standstill through the speed vp. -/
def axisDist (v a0 vp : F64) (l : AxisLimits) : F64 :=
  (axisEnd (axisChain .zero .zero v (axisJoin v a0 vp l ++ axisRamp vp.neg l))).1

/-- The peak speed (R106): the largest up to the limit from which the axis still stops within `len`; none where it cannot
stop at all. -/
def axisPeak (v a0 len : F64) (l : AxisLimits) : Option F64 :=
  if len.lt (axisDist v a0 .zero l) then none
  else some (speedUnit (maxSat (fun n => decide (n ≤ 1048576 * l.speed) && (axisDist v a0 (speedUnit n) l).le len) 53 0))

/-- Phases, end and beginning of the deceleration phases of a profile of `len` steps from speed v and acceleration a0. -/
def axisProfile (v a0 len : F64) (l : AxisLimits) : Option (List AxisSeg × F64 × F64) :=
  (axisPeak v a0 len l).map fun vp =>
    let up := axisJoin v a0 vp l
    let rest := len.sub (axisDist v a0 vp l)
    let tc := if rest.m ≤ 0 || vp.m = 0 then F64.zero else rest.div vp
    let before := axisEnd (axisChain .zero .zero v (up ++ [(tc, .zero, .zero)]))
    let segs := axisChain .zero .zero v (up ++ [(tc, .zero, .zero)] ++ axisRamp vp.neg l)
    (segs, (axisEnd segs).2, before.2)

/-- The phase in which a profile is at time t. -/
def axisSegAt (t : F64) : List AxisSeg → Option AxisSeg
  | [] => none
  | g :: gs =>
    match gs with
    | [] => some g
    | h :: _ => if h.t0.le t then axisSegAt t gs else some g

/-- Travel, speed and acceleration of a plan at time t after its start. -/
def AxisPlan.at (p : AxisPlan) (t : F64) : F64 × F64 × F64 :=
  match axisSegAt t p.segs with
  | none => (.zero, .zero, .zero)
  | some g =>
    let dt := t.sub g.t0
    if g.dur.lt dt && p.fin.isSome then ((g.at g.dur).1, .zero, .zero) else g.at (if dt.m < 0 then .zero else dt)

/-- ns after the start as s. -/
def nsToS (n : Nat) : F64 := (F64.ofNat n).div (F64.ofNat 1000000000)

/-- s as ns. -/
def sToNs (t : F64) : F64 := t.mul (F64.ofNat 1000000000)

/-- The lane ticks after the start at which step n is due (R389): the tick nearest to t_n, ties to the later one. The
last step of a move falls on its end. -/
def stepTick (p : AxisPlan) (n : Nat) : Nat :=
  match p.fin with
  | some e =>
    if n = p.total && p.run = .move then (((sToNs e).add ((F64.ofNat 5).div (F64.ofNat 2))).div (F64.ofNat 5)).floor.toNat
    else go
  | none => go
where
  go : Nat :=
    let late := fun k : Nat =>
      (p.at (((F64.ofNat (10 * k + 5)).div (F64.ofNat 2)).div (F64.ofNat 1000000000))).1.le (F64.ofNat n)
    if late 0 then maxSat late 48 0 + 1 else 0

/-- When the next step of an axis is driven: the tick of R389, at least MIN_SPACE after the previous edge and DIR_SETUP after a change of
DIR (R390). -/
def nextStep (s : State) (a : Nat) : Option Ns :=
  let x := axisOf s a
  x.plan.bind fun p =>
    if p.total ≤ p.done then none
    else
      let t := p.start + 5 * stepTick p (p.done + 1)
      let t := match x.dirAt with | some d => max t (d + dirSetup s a) | none => t
      some (match x.lastEdge with | some e => max t (e + minSpace s a) | none => t)

/-- The phase of an axis as AXES_STAT gives it: 0 standstill, 1 accelerating, 2 cruise, 3 deceleration phases. -/
def axisPhase (s : State) (a : Nat) : Nat :=
  match (axisOf s a).plan with
  | none => 0
  | some p =>
    let t := nsToS (s.now - p.start)
    if p.run = .stop || p.decelAt.le t && p.run = .move then 3
    else if (p.at t).2.2.m = 0 then 2 else 1

/-- The speed of an axis in steps/s with its sign (AXES_STAT). -/
def axisSpeed (s : State) (a : Nat) : Int :=
  match (axisOf s a).plan with
  | none => 0
  | some p =>
    let v := (p.at (nsToS (s.now - p.start))).2.1.nearest
    if p.up then v else -v

/-! ### Following error (R397) -/

/-- The following error in counts. -/
def axisFe (s : State) (a : Nat) : Int :=
  let x := axisOf s a
  (encOf s (axisFbEnc s a)).ext - x.xOrg - roundDiv ((x.pos - x.pOrg) * cfgS s (axisOff a 0x28)) 65536

/-- X_ORG and P_ORG are taken (R397). -/
def takeOrg (a : Nat) (s : State) : State :=
  setAxis a (fun x => { x with xOrg := (encOf s (axisFbEnc s a)).ext, pOrg := x.pos, feSince := none }) s

/-- Since when the following error is beyond FB_LIMIT. -/
def trackFe (a : Nat) (s : State) : State :=
  let beyond := axisFbEn s a && decide (cfgWord s (axisOff a 0x2C) < (axisFe s a).natAbs)
  setAxis a (fun x => { x with feSince := if beyond then (match x.feSince with | some t => some t | none => some s.now)
                                          else none }) s

/-- The step that is due is driven (R389). -/
def driveDue (a : Nat) (s : State) : State :=
  match nextStep s a with
  | some t =>
    if s.now < t then s
    else
      let s := setAxis a (fun x => { x with
        pos := if x.dirUp then x.pos + 1 else x.pos - 1, steps := x.steps + 1, lastEdge := some t
        plan := x.plan.map fun p => { p with done := p.done + 1 } }) s
      trackFe a s
  | none => s

/-! ### Starting, stopping and standing still -/

/-- The steps still missing to the target of the move in progress (R392). -/
def axisMissing (x : Axis) : Nat := match x.move with | some m => (m.target - x.pos).natAbs | none => 0

/-- Latched limits come into force at the start of a move (R393). -/
def applyLatched (a : Nat) (s : State) : State :=
  match (axisOf s a).latched with
  | none => s
  | some (clear, l) =>
    let old := if clear then AxisLimits.none else (axisOf s a).ovr.getD .none
    let new : AxisLimits :=
      { speed := if l.speed = 0 then old.speed else l.speed, accel := if l.accel = 0 then old.accel else l.accel,
        jerk := if l.jerk = 0 then old.jerk else l.jerk }
    raise 0x8002 (natLE 1 a) (setAxis a (fun x => { x with
      latched := none, ovr := if new = .none then none else some new }) s)

/-- The whole travel that a list of phases covers, in steps. -/
def wholeSteps (segs : List AxisSeg) : Nat := (axisEnd segs).1.floor.toNat

/-- DIR at the start of a motion at standstill, with the time at which it changes (R390). -/
def turnDir (up : Bool) (t : Ns) (x : Axis) : Axis := if x.dirUp = up then x else { x with dirUp := up, dirAt := some t }

/-- A move begins (R388, R391). -/
def beginMove (a : Nat) (m : AxisMove) (s : State) : State :=
  let s := applyLatched a s
  let x := axisOf s a
  let l := effLimits s a m.limits
  let up := decide (x.pos ≤ m.target)
  let len := (m.target - x.pos).natAbs
  let prof := (axisProfile .zero .zero (F64.ofNat len) l).getD ([], .zero, .zero)
  let plan : AxisPlan :=
    { run := .move, start := s.now, origin := x.pos, up := up, segs := prof.1, decelAt := prof.2.2,
      fin := some prof.2.1, total := len, done := 0 }
  setAxis a (fun x => { turnDir up s.now x with
    state := .moving, plan := some plan, move := some m, pending := none, lim := l, target := m.target, ending := 0 }) s

/-- A profile that brings an axis to standstill from where it is (R396); one in its deceleration phases keeps its ramp
where that ends sooner. -/
def stopPlan (s : State) (p : AxisPlan) (l : AxisLimits) : AxisPlan :=
  let t := nsToS (s.now - p.start)
  let (tr, v, acc) := p.at t
  let segs0 := axisChain .zero .zero v (axisJoin v acc .zero l)
  let fin := (axisEnd segs0).2
  let keeps := p.run = .move && p.decelAt.le t && (match p.fin with | some e => (e.sub t).le fin | none => false)
  if keeps then p
  else
    let frac := tr.sub (F64.ofNat p.done)
    let segs := segs0.map fun g => { g with s0 := g.s0.add frac }
    { run := .stop, start := s.now, origin := p.origin + (if p.up then (p.done : Int) else -(p.done : Int)), up := p.up,
      segs := segs, decelAt := .zero, fin := some fin, total := wholeSteps segs, done := 0 }

/-- A pending move ends with a status, DETAIL being the steps to its target (R392). -/
def dropPending (a st : Nat) (s : State) : State :=
  match (axisOf s a).pending with
  | none => s
  | some m =>
    let missing := (m.target - (axisOf s a).pos).natAbs
    let s := setAxis a (fun x => { x with pending := none }) s
    match m.ref with | some r => finishIn (256 + a) r st missing 0 s | none => s

/-- An axis begins to stop (R396, R398); what it was running will complete with `st`. -/
def beginStop (a : Nat) (l : AxisLimits) (st : Nat) (s : State) : State :=
  let x := axisOf s a
  match x.plan with
  | none => s
  | some p => setAxis a (fun x => { x with
      state := .stopping, plan := some (stopPlan s p l), ending := if x.ending = 0 then st else x.ending }) s

/-- The AXIS_STOPs whose axes all stand complete. -/
def settleAxisStops (s : State) : State :=
  let still := fun m : BitVec 16 => (List.range 16).all fun a => !m.getLsbD a || (axisOf s a).plan.isNone
  let done := s.axes.stops.filter fun x => still x.2
  let s := { s with axes := { s.axes with stops := s.axes.stops.filter fun x => !still x.2 } }
  done.foldl (fun s x => finish x.1 stDone 0 0 s) s

/-- The result of a stopped homing run (R399): the position is corrected, or the run has timed out. -/
def endHoming (a : Nat) (h : Homing) (s : State) : State :=
  let x := axisOf s a
  if x.ending = stTimeout || (x.ending = 0 && h.latched.isNone) then
    raise 0x8006 (natLE 1 a) (finishIn (256 + a) h.ref stTimeout 0 0 (takeOrg a s))
  else if x.ending != 0 then finishIn (256 + a) h.ref x.ending 0 0 (takeOrg a s)
  else
    let s := setAxis a (fun x => { x with pos := x.pos + h.pos - h.latched.getD 0 }) s
    finishIn (256 + a) h.ref stDone 0 0 (takeOrg a s)

/-- A script entry has come to standstill (R400). -/
def scriptEnded (i : Nat) (s : State) : State :=
  { s with axes := { s.axes with script := s.axes.script.set i (.ended s.now) } }

/-- The axis has come to standstill: its move, stop or homing run is over (R392, R396, R398). -/
def axisStands (a : Nat) (s : State) : State :=
  let x := axisOf s a
  let s := setAxis a (fun x => { x with
    plan := none, move := none, homing := none, ending := 0, toFault := false, toReset := false
    state := if x.toFault then .fault else if x.axen then .idle else .disabled }) s
  let s := match x.homing with | some h => endHoming a h { s with axes := { s.axes with
      axes := modUnit s.axes.axes a fun y => { y with ending := x.ending } } } | none => s
  let s := setAxis a (fun y => { y with ending := 0 }) s
  let s := match x.move with
    | some m =>
      let st := if x.ending = 0 then stDone else x.ending
      let s := match m.ref with | some r => finishIn (256 + a) r st (axisMissing x) 0 s | none => s
      (match m.script with | some i => if st = stDone then scriptEnded i s else s | none => s)
    | none => s
  let s := if x.toReset then setAxis a (fun y => { Axis.reset with axen := false, xOrg := y.xOrg }) s else s
  settleAxisStops s

/-- An axis whose plan has no step left and whose end has come stands. -/
def settleAxis (a : Nat) (s : State) : State :=
  match (axisOf s a).plan with
  | none => s
  | some p =>
    match p.fin with
    | none => s
    | some e =>
      let t := F64.ofNat (s.now - p.start)
      if p.total ≤ p.done && (p.run = .move || (sToNs e).le t) then axisStands a s else s

/-- An axis faults (R397, R398): it stops at its emergency limits and is in FAULT at standstill; a pending move does not
start (R415). -/
def axisFault (a cause : Nat) (s : State) : State :=
  let x := axisOf s a
  if x.state = .fault || x.toFault then s
  else
    let fe := axisFe s a
    let s := dropPending a stAbFault s
    let s := setAxis a (fun x => { x with cause := BitVec.ofNat 3 cause, toFault := true }) s
    let s := if x.plan.isSome then beginStop a (axisEmg s a) stAbFault s
      else setAxis a (fun x => { x with state := .fault, toFault := false }) s
    settleAxis a (raise 0x8001 (natLE 1 a ++ natLE 1 cause ++ intLE 4 fe) s)

/-- The safe state, thermal shutdown and a FIRMWARE reset (R398): every moving axis comes to standstill at its emergency
limits, without a fault, and pending moves are dropped. -/
def axesSafe (s : State) : State :=
  (List.range 16).foldl (fun s a =>
    let s := dropPending a stAbFault s
    settleAxis a (beginStop a (axisEmg s a) stAbFault s)) s

/-- Every axis stands. -/
def axesStand (s : State) : Bool := s.axes.axes.all fun x => x.plan.isNone

/-! ### The recoat script (R400, R401) -/

/-- The offset of a word of a script entry. -/
def scriptOff (i k : Nat) : Nat := 0x601000 + 0x10 * i + k

/-- KIND of a script entry. -/
def scriptKind (s : State) (i : Nat) : Nat := cfgF s (scriptOff i 0) 4 2

/-- RECOAT begins: every entry that is used waits, but for ONCE entries where it repeats. -/
def scriptBegin (repeats : Bool) (s : State) : State :=
  { s with axes := { s.axes with
      script := (List.range 16).map fun i =>
        if scriptKind s i = 0 || (repeats && cfgB s (scriptOff i 0) 6) then .skip else .waiting
      scriptStart := some s.now } }

/-- Every script move has completed. -/
def scriptDone (s : State) : Bool :=
  s.axes.script.all fun x => match x with | .waiting => false | .moving => false | .ended _ => true | .skip => true

/-- The last entry to end, with its time. -/
def scriptLast (s : State) : Nat × Ns :=
  (s.axes.script.zipIdx).foldl (fun m x => match x.1 with
    | .ended t => if m.2 ≤ t then (x.2, t) else m
    | .waiting => m
    | .moving => m
    | .skip => m) (0, 0)

/-- RECOAT is over: what of the script still moves stops at its effective limits (R401). -/
def scriptStop (s : State) : State :=
  let s := (List.range 16).foldl (fun s a =>
    match (axisOf s a).move with
    | some m => if m.script.isSome then settleAxis a (beginStop a (axisOf s a).lim stAbHost s) else s
    | none => s) s
  { s with axes := { s.axes with script := List.replicate 16 .skip, scriptStart := none } }

/-! ### Encoder counts and speeds (R405, R408 to R410) -/

/-- CPR of a channel; 2 ^ SSI_BITS in SSI mode (R406). -/
def encCpr (s : State) (e : Nat) : Nat :=
  if cfgF s (encOff e 0) 0 2 = 2 then 2 ^ cfgF s (encOff e 0x14) 0 6 else max 1 (cfgWord s (encOff e 8))

/-- T_STALL in ns; its default is 10 ms. -/
def encStallNs (s : State) (e : Nat) : Nat :=
  let t := cfgF s (encOff e 0x0C) 0 16
  1000000 * (if t = 0 then 10 else t)

/-- The reported magnitude at time t (R409): between edges of a slowing input, 1 ÷ the time since the last edge. -/
def magAt (mag : Nat) (window : Bool) (edge : Option Ns) (t : Ns) : Nat :=
  match edge with
  | some te => if window || t ≤ te then mag else min mag (roundDivN 1000000000 (t - te))
  | none => mag

/-- The reported speed of a channel in counts/s, with its sign (R408, R409). -/
def encSpeed (s : State) (e : Nat) : Int :=
  let x := encOf s e
  let ssi := cfgF s (encOff e 0) 0 2 = 2
  let m := if x.valid then (if ssi then x.mag else magAt x.mag x.window x.edge s.now) else 0
  if x.reverse then -(m : Int) else (m : Int)

/-- The predicted count at time t in units of 2 ^ −16 counts (R410). -/
def encPredict (s : State) (e : Nat) (t : Ns) : Int :=
  let x := encOf s e
  if !x.valid then 65536 * x.ext
  else
    match x.edge with
    | some te => 65536 * x.ext + roundDiv (encSpeed s e * 65536 * ((t : Int) - (te : Int))) 1000000000
    | none => 65536 * x.ext

end Sys2Proof.Machine
end

