-- ==== Sys2Proof/Machine/FieldMap.lean ====
section
/-! DEFINITION. MAP of a lane (R124 to R130): working grids, trims, blends, and the opcodes that change them. -/

namespace Sys2Proof.Machine

def setMap (l : Nat) (f : LaneMap → LaneMap) (s : State) : State := setLane l (fun x => { x with map := f x.map }) s

/-! ### Working grids (R127) -/

/-- The head temperature of a lane's beam, from sensor 0 of its node, in units of 1/64 °C; the temperature of its lowest set where the node has
not reported one (log 30). -/
def headTemp (s : State) (l : Nat) (low : Int) : Int :=
  match beamNode s l with | some n => n.temps.headD low | none => low

/-- The correction sets of a lane in order: those loaded in place of the profile's, and the profile's. -/
def setsOf (s : State) (l : Nat) : List GridSet :=
  (List.range (laneRec s l).gridSets).filterMap fun k =>
    match (laneOf s l).map.gridSets.find? fun g => g.1 = k with
    | some g => some g.2
    | none => (s.prof.grids.find? fun g => g.1 = 8 * l + k).map fun g => g.2

/-- V_a + wt × (V_b − V_a) with wt in uQ0.16, rounded by R9. -/
def mixOf (a b : Int) (wt : Nat) : Int := lerp a b wt 65536

/-- The points between two sets of one shape. -/
def mixPts (a b : List (Int × Int × Int)) (wt : Nat) : List (Int × Int × Int) :=
  List.zipWith (fun p q => (mixOf p.1 q.1 wt, mixOf p.2.1 q.2.1 wt, mixOf p.2.2 q.2.2 wt)) a b

/-- A grid with values that the spec does not state: two sets of different shape lie around the temperature (log 31). -/
def openGrid (free : Nat) (g : GridSet) : GridSet :=
  { g with points := (List.range (g.n * g.n)).map fun i =>
      let v := fun k => clampI (-8388608) 8388607 (Config.freeInt (free + 3 * i + k))
      (v 0, v 1, v 2) }

/-- The working grid for a head temperature (R127), with the number of free values it took. -/
def buildGrid (free : Nat) (sets : List GridSet) (temp : Int) : Option WorkGrid × Nat :=
  let below := (List.range sets.length).filter fun k => (sets[k]?).any fun g => decide (g.temp ≤ temp)
  match sets with
  | [] => (none, 0)
  | first :: _ =>
    match below.getLast? with
    | none => (some { grid := first, temp := temp, weight := 0, low := 0, high := 0 }, 0)
    | some k =>
      match sets[k]?, sets[k + 1]? with
      | some a, some b =>
        let wt := min 65535 (roundDiv ((temp - a.temp) * 65536) (b.temp - a.temp).toNat).toNat
        if a.n = b.n && a.pitch = b.pitch then
          (some { grid := { a with temp := temp, points := mixPts a.points b.points wt }, temp := temp, weight := wt, low := k, high := k + 1 }, 0)
        else
          (some { grid := openGrid free { a with temp := temp }, temp := temp, weight := wt, low := k, high := k + 1 }, 3 * a.n * a.n)
      | some a, none => (some { grid := a, temp := temp, weight := 0, low := k, high := k }, 0)
      | none, _ => (none, 0)

/-- The working grid that a lane's sets give now, with the state after the free values it took. -/
def gridNow (l : Nat) (s : State) : Option WorkGrid × State :=
  let sets := setsOf s l
  let low := match sets with | g :: _ => g.temp | [] => 0
  let b := buildGrid s.free sets (headTemp s l low)
  (b.1, { s with free := s.free + b.2 })

/-- The working grid in force. -/
def LaneMap.grid (m : LaneMap) : Option WorkGrid := if m.useB then m.gridB else m.gridA

/-- The first working grid is built when a lane needs it (log 30). -/
def needGrid (l : Nat) (s : State) : State :=
  let m := (laneOf s l).map
  if m.grid.isSome then s
  else
    let (g, s) := gridNow l s
    setMap l (fun m => if m.useB then { m with gridB := g } else { m with gridA := g }) s

/-! ### One position (R124, R126) -/

/-- Steps 2 and 3: x' and y' in units of 2 ^ −45 LSB. -/
def trimmed (t : Trims) (dx dy : Int) : Int × Int :=
  ((8388608 + t.gainX) * (t.cosR * dx - t.sinR * dy) + t.ofsX * 35184372088832,
   (8388608 + t.gainY) * (t.sinR * dx + t.cosR * dy) + t.ofsY * 35184372088832)

/-- Step 4: u or w as uQ8.16. -/
def gridPos (g : GridSet) (x : Int) : Int :=
  if g.pitch = 0 then 0
  else roundDiv ((2 * x + ((g.n : Int) - 1) * g.pitch * 35184372088832) * 65536) (2 * g.pitch * 35184372088832)

/-- A point of a grid. -/
def GridSet.point (g : GridSet) (i j : Nat) : Int × Int × Int := g.points.getD (j * g.n + i) (0, 0, 0)

/-- Step 5: the interpolated values at (u, w), in units of 2 ^ −32. -/
def interpolate (g : GridSet) (u w : Nat) : Int × Int × Int :=
  let i := min (u / 65536) (g.n - 2)
  let j := min (w / 65536) (g.n - 2)
  let fx : Int := ((u - 65536 * i : Nat) : Int)
  let fy : Int := ((w - 65536 * j : Nat) : Int)
  let a := g.point i j
  let b := g.point (i + 1) j
  let c := g.point i (j + 1)
  let d := g.point (i + 1) (j + 1)
  let mix := fun p q r t : Int => (65536 - fx) * (65536 - fy) * p + fx * (65536 - fy) * q + (65536 - fx) * fy * r + fx * fy * t
  (mix a.1 b.1 c.1 d.1, mix a.2.1 b.2.1 c.2.1 d.2.1, mix a.2.2 b.2.2 c.2.2 d.2.2)

/-- Steps 2 to 5 for a position; none where it falls outside the grid (R126). -/
def mapOne (t : Trims) (g : GridSet) (cx cy : Int) (p : Int × Int) : Option (Int × Int × Int) :=
  let (x, y) := trimmed t (p.1 - cx) (p.2 - cy)
  let u := gridPos g x
  let w := gridPos g y
  let top := 65536 * ((g.n : Int) - 1)
  if g.n < 2 || u < 0 || w < 0 || top < u || top < w then none
  else some (interpolate g u.toNat w.toNat)

/-- Steps 2 to 5 with a position outside the grid taken at its edge, for D_MAX of R129 (log 32). -/
def mapClamped (t : Trims) (g : GridSet) (cx cy : Int) (p : Int × Int) : Int × Int × Int :=
  let (x, y) := trimmed t (p.1 - cx) (p.2 - cy)
  let top := 65536 * ((g.n : Int) - 1)
  interpolate g (clampI 0 top (gridPos g x)).toNat (clampI 0 top (gridPos g y)).toNat

/-- Step 8: rounded to 24 bits; none where it saturates. -/
def outCommand (v : Int) : Option Int :=
  let r := roundDiv v 281474976710656
  if r < -8388608 || 8388607 < r then none else some r

/-- What a blend leads to, over what is in force. -/
def blendTarget (m : LaneMap) (c : MapChange) : Trims × Option WorkGrid :=
  (c.trims.getD m.trims, match c.grid with | some g => some g | none => m.grid)

/-- MAP of a lane at a position, with a focus offset FOCUS_OFS + Z_OFS and a blend factor from 0 to 65,536: the three
commands, or none for MAP_RANGE. -/
def mapPoint (s : State) (l : Nat) (beta : Nat) (p : Int × Int) (focus : Int) : Option (Int × Int × Int) :=
  let r := laneRec s l
  let m := (laneOf s l).map
  let z := r.focusScale * focus * 65536
  let old := m.grid.bind fun g => mapOne m.trims g.grid r.fieldCx r.fieldCy p
  let new := match m.blend with
    | none => old
    | some b =>
      let t := blendTarget m b.change
      t.2.bind fun g => mapOne t.1 g.grid r.fieldCx r.fieldCy p
  let b := if m.blend.isSome then beta else 0
  match old, new with
  | some o, some n =>
    let mix := fun x y : Int => x * 65536 + (b : Int) * (y - x)
    (outCommand (mix o.1 n.1)).bind fun x => (outCommand (mix o.2.1 n.2.1)).bind fun y =>
      (outCommand (mix (o.2.2 + z) (n.2.2 + z))).map fun z => (x, y, z)
  | _, _ => none

/-! ### Blends (R129, R130) -/

/-- The largest of three absolute differences. -/
def maxDiff (a b : Int × Int × Int) : Nat :=
  max (a.1 - b.1).natAbs (max (a.2.1 - b.2.1).natAbs (a.2.2 - b.2.2).natAbs)

/-- The place of a grid point, from the field centre. -/
def gridPlace (g : GridSet) (i : Nat) : Int × Int :=
  let at_ := fun k : Nat => (2 * (k : Int) - ((g.n : Int) - 1)) * g.pitch / 2
  (at_ (i % g.n), at_ (i / g.n))

/-- D_MAX in units of 2 ^ −32 head units (R129). -/
def dMax (s : State) (l : Nat) (c : MapChange) : Nat :=
  let r := laneRec s l
  let m := (laneOf s l).map
  let t := blendTarget m c
  match m.grid, t.2 with
  | some o, some n =>
    let grid := if c.grid.isNone then 0
      else if o.grid.n = n.grid.n && o.grid.pitch = n.grid.pitch then
        4294967296 * (List.zipWith maxDiff o.grid.points n.grid.points).foldl max 0
      else (List.range (n.grid.n * n.grid.n)).foldl (fun d i =>
        let p := gridPlace n.grid i
        max d (maxDiff (mapClamped .none o.grid 0 0 p) (mapClamped .none n.grid 0 0 p))) 0
    let h : Int := r.fieldHalf
    let corners := [(r.fieldCx - h, r.fieldCy - h), (r.fieldCx + h, r.fieldCy - h), (r.fieldCx - h, r.fieldCy + h),
      (r.fieldCx + h, r.fieldCy + h)]
    let trim := if c.trims.isNone then 0 else corners.foldl (fun d p =>
      max d (maxDiff (mapClamped m.trims o.grid r.fieldCx r.fieldCy p) (mapClamped t.1 n.grid r.fieldCx r.fieldCy p))) 0
    max grid trim
  | _, _ => 0

/-- T_BLEND in ns, to the nearest (R129, R9). -/
def tBlend (s : State) (l : Nat) (c : MapChange) : Nat :=
  let slew := s.prof.plan.mapSlew * 4294967296
  max (1000000 * s.prof.plan.blendMinMs) (if slew = 0 then 0 else roundDivN (dMax s l c * 1000000) slew)

/-- A change is ready: its blend waits for the next set-point, or it waits itself while a blend runs; the latest that
waits replaces the others (R130). -/
def changeMap (l : Nat) (c : MapChange) (s : State) : State :=
  let s := needGrid l s
  match (laneOf s l).map.blend with
  | some b =>
    if b.start.isNone then setMap l (fun m => { m with blend := some { start := none, len := tBlend s l c, change := c } }) s
    else setMap l (fun m => { m with waiting := some c }) s
  | none => setMap l (fun m => { m with blend := some { start := none, len := tBlend s l c, change := c } }) s

/-- A blend starts with a set-point that launches at `t` (R129). -/
def startBlend (l : Nat) (t : Ns) (s : State) : State :=
  match (laneOf s l).map.blend with
  | none => s
  | some b =>
    if b.start.isSome then s
    else
      let s := setMap l (fun m => { m with blend := some { b with start := some t }, beta := 0 }) s
      if b.change.grid.isSome then laneEvent l 0x3024 (natLE 4 ((b.len + 500000) / 1000000)) s else s

/-- The blend factor at time t, from 0 to 65,536, to the nearest (R129, R9). -/
def betaAt (m : LaneMap) (t : Ns) : Nat :=
  match m.blend with
  | none => 0
  | some b => match b.start with
    | none => 0
    | some t0 => if b.len ≤ t - t0 then 65536 else roundDivN ((t - t0) * 65536) b.len

/-- BLEND_COMPLETE (R130): beta has reached 1; a change that waits starts its own blend with the next set-point. -/
def blendComplete (l : Nat) (s : State) : State :=
  let m := (laneOf s l).map
  match m.blend with
  | none => s
  | some b =>
    match b.start with
    | none => s
    | some t0 =>
      if s.now < t0 + b.len then s
      else
        let s := setMap l (fun m =>
          let t := b.change.trims.getD m.trims
          let m := { m with trims := t, blend := none, beta := 0, waiting := none }
          match b.change.grid with
          | none => m
          | some g => if m.useB then { m with gridA := some g, gridB := none, useB := false }
                      else { m with gridB := some g, gridA := none, useB := true }) s
        match m.waiting with
        | some c => changeMap l c s
        | none => s

def execBlendComplete (t : Ns) (lane : Nat) (s : State) : Host.Outcome State Fault Refusal :=
  .next (blendComplete lane (passTo t s))

/-! ### LANE_TRIMS (R125, R139, R140) -/

/-- New trims with the cosine and sine of ROT as sQ1.22 (R125). -/
def makeTrims (ofsX ofsY gainX gainY rot : Int) : Trims :=
  { ofsX := ofsX, ofsY := ofsY, gainX := gainX, gainY := gainY, rot := rot,
    cosR := roundDiv (cosFix (rot * 2 ^ 41)) (2 ^ 42), sinR := roundDiv (sinFix (rot * 2 ^ 41)) (2 ^ 42) }

/-- What LANE_TRIMS must meet (R139). -/
def laneTrimsCheck (mask : BitVec 128) (s : State) : Nat := if namesFused s mask then stParam else stDone

/-- LANE_TRIMS takes effect on every lane that it names. -/
def applyLaneTrims (mask : BitVec 128) (ofsX ofsY gainX gainY rot : Int) (s : State) : State :=
  let c : MapChange := { trims := some (makeTrims ofsX ofsY gainX gainY rot), grid := none }
  (lanesIn mask).foldl (fun s l => changeMap l c s) s

def startLaneTrims (r : Ref) (mask : BitVec 128) (ofsX ofsY gainX gainY rot : Int) (s : State) : State :=
  let st := laneTrimsCheck mask s
  if st != stDone then endWith r st s
  else endWith r stDone (bumpOverride 0 true (applyLaneTrims mask ofsX ofsY gainX gainY rot s))

def execLaneTrims (h : Hdr) (mask : BitVec 128) (ofsX ofsY gainX gainY rot : Int) (s : State) :
    Host.Outcome State Fault Refusal :=
  .next (postDescriptor (.laneTrims h mask ofsX ofsY gainX gainY rot) h 0x21
    (startLaneTrims h.ref mask ofsX ofsY gainX gainY rot) s)

/-! ### LANE_GRID_LOAD (R139, R370) -/

/-- The payload of a record image (R360), with its type and instance; none where its length or CRC does not fit. -/
def recordImage (a maxLen : Nat) (s : State) : Option (Nat × Nat × List Byte) :=
  let len := memNat (a + 4) 4 s
  if maxLen < len || len % 4 != 0 then none
  else
    let bs := memRead a (8 + len) s
    if memNat (a + 8 + len) 4 s = crc32 bs then some (field bs 0 2, field bs 2 2, bs.drop 8) else none

/-- The points of a grid record. -/
def gridPoints : Nat → List Byte → List (Int × Int × Int)
  | 0, _ => []
  | n + 1, bs => (fieldS bs 0 3, fieldS bs 3 3, fieldS bs 6 3) :: gridPoints n (bs.drop 9)

/-- A grid set from the payload of a GRID record (R370), with every check on it alone. -/
def readGrid (p : List Byte) : Option GridSet :=
  let n := field p 0 2
  let pitch := field p 4 4
  let size := 16 + 9 * (n * n)
  if n < 2 || 129 < n || pitch = 0 || p.length != alignUp size 4 || !allZero ((p.drop 2).take 2)
    || !allZero ((p.drop 10).take 6) || !allZero (p.drop size) then none
  else some { n := n, pitch := pitch, temp := fieldS p 8 2, points := gridPoints (n * n) (p.drop 16) }

/-- The temperatures of a lane's sets rise strictly (R370). -/
def tempsRise : List GridSet → Bool
  | a :: b :: rest => decide (a.temp < b.temp) && tempsRise (b :: rest)
  | _ => true

/-- Both working grids are in use: a grid is coming into force or waits to (R139). -/
def gridsBusy (m : LaneMap) : Bool :=
  (m.blend.any fun b => b.change.grid.isSome) || m.waiting.any fun c => c.grid.isSome

def startLaneGridLoad (r : Ref) (lane set addr : Nat) (s : State) : State :=
  if s.variant.lanes ≤ lane || (laneRec s lane).gridSets ≤ set || !(laneRec s lane).mapped then endWith r stParam s
  else if addr % 4 != 0 || !hostMem addr 12 s || !hostMem addr (12 + memNat (addr + 4) 4 s) s then endWith r stParam s
  else if gridsBusy (laneOf s lane).map then endWith r stBusy s
  else
    match recordImage addr 149808 s with
    | none => endWith r stParam s
    | some (ty, ins, p) =>
      match readGrid p with
      | none => endWith r stParam s
      | some g =>
        let s' := setMap lane (fun m => { m with gridSets := (set, g) :: m.gridSets.filter fun x => x.1 != set }) s
        if ty != 0x0011 || ins != 8 * lane + set || !tempsRise (setsOf s' lane) then endWith r stParam s
        else
          let s := needGrid lane s
          let s := setMap lane (fun m => { m with gridSets := (set, g) :: m.gridSets.filter fun x => x.1 != set }) s
          let (w, s) := gridNow lane s
          endWith r stDone (bumpOverride 1 true (changeMap lane { trims := none, grid := w } s))

def execLaneGridLoad (h : Hdr) (lane set addr : Nat) (s : State) : Host.Outcome State Fault Refusal :=
  .next (postDescriptor (.laneGridLoad h lane set addr) h 0x22 (startLaneGridLoad h.ref lane set addr) s)

end Sys2Proof.Machine
end

