-- ==== Sys2Proof/Machine/LaneCal.lean ====
section
/-! DEFINITION. What calibrations do to a lane at work: the power correction (R522, R525) and the samples that a DARK run
gathers (R526). -/

namespace Sys2Proof.Machine

def setHk (f : Hk → Hk) (s : State) : State := { s with hk := f s.hk }

def laneCal (s : State) (l : Nat) : LaneCal := unit s.hk.lanes l .reset

def setLaneCal (l : Nat) (f : LaneCal → LaneCal) (s : State) : State :=
  setHk (fun h => { h with lanes := modUnit h.lanes l f }) s

/-- A value moves toward its target by at most n. -/
def stepTo (n : Nat) (now to_ : Int) : Int := if now < to_ then min to_ (now + n) else max to_ (now - n)

/-- PGAIN and POFS move by at most 1 LSB per 100 µs each (R522). -/
def slewPower (now : Ns) (x : LaneCal) : LaneCal :=
  let n := (now - x.movedAt) / 100000
  let g := stepTo n x.pgain x.pgainTo
  let o := stepTo n x.pofs x.pofsTo
  { x with pgain := g.toNat, pofs := o
           movedAt := if g = x.pgainTo && o = x.pofsTo then now else x.movedAt + 100000 * n }

/-- The dark offsets move toward their new values by at most 1 LSB in 10 µs (R144). -/
def slewDark (t : Ns) (x : Loop) : Loop :=
  let n := (t - x.darkAt) / 10000
  let move := fun now to_ : Nat => if now < to_ then min to_ (now + n) else max to_ (now - n)
  let a := move x.darkA x.darkToA
  let b := move x.darkB x.darkToB
  { x with darkA := a, darkB := b, darkAt := if a = x.darkToA && b = x.darkToB then t else x.darkAt + 10000 * n }

/-- P_slot of a commanded power (R525). -/
def slotPower (x : LaneCal) (p : Nat) : Nat :=
  (clampI 0 65535 (roundDiv ((p * x.pgain : Nat) : Int) 32768 + x.pofs)).toNat

/-- A calibration of a kind runs for a unit. -/
def calRunning (s : State) (kind u : Nat) : Bool := s.hk.runs.any fun r => r.kind = kind && r.unit = u

/-- A calibration of a kind waits for a unit. -/
def calWaiting (s : State) (kind u : Nat) : Bool := s.hk.waits.any fun w => w.kind = kind && w.unit = u

/-- The gap class RECOAT (R530): the RECOAT stage, STARVED, HELD and NONE. -/
def recoatGap (s : State) : Bool := [0, 4, 5, 10].contains (jobState s)

/-- A sample's window lies in a jump gap of the frozen plan that is long enough (R526). -/
def inJumpGap (s : State) (l : Nat) (t : Ns) : Bool :=
  let ln := laneOf s l
  match ln.state, ln.runOn, ln.prevOff with
  | .running, none, some off =>
    (match ((laneRuns (tLead s) ln ln.plan).filter fun r => !r.empty).head? with
    | some r =>
      decide (off + 1000 * cfgF s 0xA00300 0 16 ≤ r.on) && decide (off + 20000 + 500 ≤ t) && decide (t + 5000 ≤ r.on)
        && (ln.plan.any fun p => p.idx = r.first && p.fixed)
    | none => false)
  | _, _, _ => false

/-- A valid sample of a lane may serve a DARK calibration that has been asked for (R526). -/
def darkSample (l : Nat) (t : Ns) (pdA pdB : Nat) (s : State) : State :=
  if !calWaiting s 2 l || emittingAt (laneOf s l) t then s
  else if !(recoatGap s || inJumpGap s l t) then s
  else
    setLaneCal l (fun x =>
      let g := x.gather.getD { since := s.now, n := 0, sumA := 0, sumB := 0 }
      if 1024 ≤ g.n then x
      else { x with gather := some { g with n := g.n + 1, sumA := g.sumA + pdA, sumB := g.sumB + pdB } }) s

/-! ### POWER at work (R524, R532) -/

def setRun (kind u : Nat) (f : CalRun → CalRun) (s : State) : State :=
  setHk (fun h => { h with runs := h.runs.map fun r => if r.kind = kind && r.unit = u then f r else r }) s

def dropRun (kind u : Nat) (s : State) : State :=
  setHk (fun h => { h with runs := h.runs.filter fun r => !(r.kind = kind && r.unit = u) }) s

/-- A request for a kind and unit; one that already waits is joined (R531). -/
def calWait (kind u : Nat) (s : State) : State :=
  if calWaiting s kind u then s
  else setHk (fun h => { h with waits := h.waits ++ [{ kind := kind, unit := u, since := s.now, overdue := false, skip := false }] }) s

def setKind (k : Nat) (f : CalKind → CalKind) (s : State) : State := setHk (fun h => { h with kinds := modUnit h.kinds k f }) s

/-- A CAL_REQUEST that has been running waits from now on: it completes with DEFERRED (R531). -/
def deferGroups (kind u : Nat) (s : State) : State :=
  let hit := fun g : CalGroup => g.kind = kind && g.left.contains u
  (s.hk.groups.filter hit).foldl (fun s g => endWith g.ref stDeferred s)
    (setHk (fun h => { h with groups := h.groups.filter fun g => !hit g }) s)

/-- A lane leaves a POWER run where it is: beam off, nothing planned; a stream that is being fetched is not touched. -/
def powerStop (l : Nat) (s : State) : State :=
  setLane l (fun x =>
    let p := x.pos.getD (x.planX, x.planY)
    { x with
      plan := [], planX := p.1, planY := p.2, runOn := none, runIdx := 0, clipped := none, feSince := none
      prevOff := if x.runOn.isSome then some s.now else x.prevOff.map fun t => min t s.now
      emits := (x.emits.filter fun e => decide (e.on < s.now)).map fun e =>
        { e with off := some (match e.off with | some f => min f s.now | none => s.now) }
      loop := { x.loop with trim := 0, integ := 0, active := false, blanking := false, raw := none, ring := [], runKey := none } }) s

/-- A run is abandoned and its request waits again (R532). Causes: 1 the end of its stage, 2 JOB_END, 3 a permit, 4 a set-point that
cannot be sent in time (log 42). A POWER run sends KILL for the lane. -/
def abandonRun (kind u cause : Nat) (s : State) : State :=
  if !calRunning s kind u then s
  else
    let s := calWait kind u (dropRun kind u s)
    let s := if kind = 1 then powerStop u (killLane u s) else s
    let s := setKind kind (fun k => { k with abandoned := satInc k.abandoned }) s
    raise 0x2013 (natLE 1 kind ++ natLE 1 u ++ natLE 1 cause) (deferGroups kind u s)

/-- A lane emits for a POWER run (R524). -/
def powerRunning (s : State) (l : Nat) : Bool := calRunning s 1 l

end Sys2Proof.Machine
end

