-- ==== Sys2Proof/Machine/CalOps.lean ====
section
/-! DEFINITION. Calibrations: when they are asked for, when they start and what their results bring about (R520 to R532), and the
throttle level (R514). -/

namespace Sys2Proof.Machine

/-! ### Watched temperatures and ΔT (R520) -/

/-- ΔT of a kind in 1/64 °C. -/
def calDt (s : State) (kind : Nat) : Nat := cfgF s (0xA00400 + 0x20 * kind) 0 16

/-- A housekeeping reading in 1/64 °C (R510). -/
def hkTemp (s : State) (slot : Nat) : Int := signExt 16 (unit s.hk.reads slot 0).toNat

/-- The head temperature that a lane's calibrations watch: that of grid set 0 before the head has sent one (R520). -/
def laneTemp (s : State) (l : Nat) : Int :=
  headTemp s l (match setsOf s l with | g :: _ => g.temp | [] => 0)

/-- The watched temperature of a unit. -/
def watched (s : State) (kind u : Nat) : Int :=
  if kind ≤ 2 then laneTemp s u
  else if kind = 3 || kind = 4 then hkTemp s (18 + Config.nearRos kind u % 24)
  else hkTemp s 42

/-- The temperature for which the newest working grid of a lane was built (R523). -/
def gridTempOf (m : LaneMap) : Option Int :=
  let of_ := fun c : Option MapChange => c.bind fun c => c.grid.map fun g => g.temp
  match of_ m.waiting with
  | some t => some t
  | none => match of_ (m.blend.map fun b => b.change) with
    | some t => some t
    | none => m.grid.map fun g => g.temp

/-- The temperature at the last run of a kind for a unit. -/
def lastTemp (s : State) (kind u : Nat) : Option Int :=
  match kind with
  | 0 => gridTempOf (laneOf s u).map
  | 1 => (laneCal s u).powerTemp
  | 2 => (laneCal s u).darkTemp
  | 3 => (unit s.hk.spl u .reset).last
  | 4 => (unit s.hk.eth u .reset).last
  | 6 => s.hk.rosTemp
  | _ => none

/-- A unit's watched temperature has moved by more than ΔT since its last run (R520). -/
def calMoved (s : State) (kind u : Nat) : Bool :=
  match lastTemp s kind u with
  | some t => decide (calDt s kind < (watched s kind u - t).natAbs)
  | none => false

/-! ### What POWER needs (R524) -/

/-- The dump position of a lane. -/
def dumpOf (s : State) (l : Nat) : Int × Int := (cfgS s (0xA01000 + 8 * l), cfgS s (0xA01004 + 8 * l))

/-- DUMP_EN of a lane. -/
def dumpEn (s : State) (l : Nat) : Bool := cfgB s (0xA0030C + 4 * (l / 32)) (l % 32)

/-- The hop of the SOURCE node whose SRC_BEAMS name a lane's slot. -/
def sourceHop (s : State) (l : Nat) : Option Nat :=
  let p := (laneRec s l).port
  (((List.range 16).find? fun k =>
    let n := unit (portOf s p).nodes k .reset
    n.present && n.ident.cls = 1 && (s.prof.nodes.any fun x =>
      x.1 = 16 * p + k && ((x.2.srcBeams.take x.2.srcCount).contains (laneSlot s l))))).map fun k => k + 1

/-- POWER has what it needs for a lane: a dump in its field, a SOURCE node and MONITOR frames of it. -/
def powerReady (s : State) (l : Nat) : Bool :=
  let r := laneRec s l
  let d := dumpOf s l
  dumpEn s l && (beamNode s l).isSome
    && decide ((d.1 - r.fieldCx).natAbs ≤ r.fieldHalf) && decide ((d.2 - r.fieldCy).natAbs ≤ r.fieldHalf)
    && (match sourceHop s l with
      | some h => (unit (portOf s r.port).nodes (h - 1) .reset).monitored.isSome
      | none => false)

/-- Two lanes share a SOURCE node. -/
def sameSource (s : State) (a b : Nat) : Bool :=
  (laneRec s a).port = (laneRec s b).port && sourceHop s a == sourceHop s b

/-- Parameter set 0 as a POWER run uses it: that of the job's table, or the one the lane holds; loop, feed-forward and raw capture
are off (R524, log 43). -/
def powerSet (s : State) (l : Nat) : PSet :=
  let p := if jobExists s && s.jobs.table != 0 then readPSet (memRead (s.jobs.table + 4096 * l) 64 s)
    else unit (laneOf s l).sets 0 .none
  { p with loopEn := false, ffEn := false, rawMode := 0, trimLimit := 0 }

/-- The three power levels. -/
def powerLevels (s : State) : List Nat := [cfgF s 0xA00304 0 16, cfgF s 0xA00304 16 16, cfgF s 0xA00308 0 16]

/-- The records of a POWER run: to the dump, three levels of 30 ms, and back. -/
def powerVecs (s : State) (l : Nat) (at_ : Int × Int) : List Vec :=
  let d := dumpOf s l
  let go := fun p : Int × Int => Vec.jump p.1 p.2 0 { power := none, speed := none, cornerStop := true }
  go d :: ((powerLevels s).map fun p => Vec.dwell false (some p) 30000000 0) ++ [go at_, .stop]

/-- The plan of a POWER run that starts at `start`. -/
def powerPlan (s : State) (l : Nat) (start : Ns) : List PRec :=
  let ln := laneOf s l
  let at_ := ln.pos.getD (ln.planX, ln.planY)
  let ln0 := { ln with sets := [powerSet s l], cur := .start, staged := .start, planX := at_.1, planY := at_.2 }
  let mk := fun (acc : Lane × List PRec) (v : Vec) =>
    let r := makeRec s l acc.1 { index := acc.2.length, bytes := [], bad := none } v none
    (r.1, acc.2 ++ [{ r.2 with verdict := .go }])
  let rs := ((powerVecs s l at_).foldl mk (ln0, [])).2
  (replan 0 start noCap start .zero 0 rs).map fun r => { r with fixed := true }

/-- The end of a plan. -/
def planEnd (ps : List PRec) (start : Ns) : Ns := match ps.getLast? with | some r => r.endTick | none => start

/-- The duration of a lane's POWER run, both jumps with it. -/
def powerNs (s : State) (l : Nat) : Nat := planEnd (powerPlan s l 0) 0

/-! ### Gaps (R530) -/

/-- A calibration of a kind that lasts `dur` may start now. -/
def gapOpen (kind dur : Nat) (s : State) : Bool :=
  let room := match s.jobs.stageEnd with | some e => decide (s.now + dur + 10000000 ≤ e) | none => false
  if kind = 1 then s.permit.high && !s.power.safe && (!jobExists s || (s.jobs.state == 5 && room))
  else recoatGap s && (s.jobs.state != 5 || room)

/-- A unit that waits for a RECOAT gap can start in the gap that is open. -/
def canStart (kind u : Nat) (s : State) : Bool :=
  if kind = 1 then
    let l := powerSet s u
    powerReady s u && (laneOf s u).state = .idle && l.jump.ok && gapOpen 1 (powerNs s u) s
      && !(s.hk.runs.any fun r => r.kind = 1 && sameSource s r.unit u)
  else gapOpen kind 40000000 s

/-- The units of a kind that a pending CAL_START names. -/
def calPosted (s : State) (kind : Nat) : List Nat :=
  (actions s).flatMap fun a => match a.work with | .calStart k us => if k = kind then us else [] | _ => []

/-- Of lanes that share a SOURCE node only the first is kept. -/
def onePerSource (s : State) (ls : List Nat) : List Nat :=
  ls.foldl (fun acc l => if acc.any fun a => sameSource s a l then acc else acc ++ [l]) []

/-- A CAL_START is posted for what waits and can start (R530). -/
def calPost (kind : Nat) (s : State) : State :=
  let posted := calPosted s kind
  let us := ((s.hk.waits.filter fun w => w.kind = kind && !w.skip).map fun w => w.unit).filter fun u =>
    !posted.contains u && !(kind = 1 && posted.any fun p => sameSource s p u) && canStart kind u s
  let us := if kind = 1 then onePerSource s us else us
  if us.isEmpty || !ripplePlace (.calStart kind us) s then s
  else postOwn (.calStart kind us) (tickAt (s.now + 1000000)) s

/-- Every kind that needs a RECOAT gap. -/
def calPump (s : State) : State := calPost 4 (calPost 3 (calPost 1 s))

/-- A waiting request is taken out. -/
def dropWait (kind u : Nat) (s : State) : State :=
  setHk (fun h => { h with waits := h.waits.filter fun w => !(w.kind = kind && w.unit = u) }) s

/-- A run starts. -/
def beginRun (kind u : Nat) (s : State) : State :=
  let r : CalRun := { kind := kind, unit := u, since := s.now, levels := [[], [], []], fin := 0 }
  if kind != 1 then setHk (fun h => { h with runs := h.runs ++ [r] }) s
  else
    let start := tickAt (s.now + hGuard s)
    let ps := powerPlan s u start
    let s := setLane u (fun x => { x with
      plan := ps, runOn := none, runIdx := 0, clipped := none, gridNext := start, hold := none, stall := none, cut := false }) s
    setHk (fun h => { h with runs := h.runs ++ [{ r with fin := planEnd ps start }] }) s

/-- CAL_START (R530): the calibration of every unit that still waits and can still start. -/
def calStarts (kind : Nat) (us : List Nat) (s : State) : State :=
  us.foldl (fun s u => if calWaiting s kind u && canStart kind u s && !(kind = 3 && s.power.blockReset.contains (2, u)) then beginRun kind u (dropWait kind u s) else s) s

/-- A pending CAL_START is withdrawn; what it names waits on (R530). -/
def calWithdraw (s : State) : State := withdraw (fun w => match w with | .calStart _ _ => true | _ => false) s

/-- What waits for a gap while none is open has DEFERRED as its answer (R531). -/
def deferWaiting (kinds : List Nat) (s : State) : State :=
  let hit := fun g : CalGroup => kinds.contains g.kind
  (s.hk.groups.filter hit).foldl (fun s g => endWith g.ref stDeferred s)
    (setHk (fun h => { h with groups := h.groups.filter fun g => !hit g }) s)

/-- Runs of the given kinds are abandoned (R532). -/
def abandonAll (kinds : List Nat) (cause : Nat) (s : State) : State :=
  (s.hk.runs.filter fun r => kinds.contains r.kind).foldl (fun s r => abandonRun r.kind r.unit cause s) s

/-- JOB_END arrives: no gap goes on over it (R532). -/
def calJobEnd (s : State) : State := deferWaiting [1, 2, 3, 4] (calWithdraw (abandonAll [1, 3, 4] 2 s))

/-- A permit goes low: POWER runs are abandoned (R532). -/
def calPermitLow (s : State) : State := deferWaiting [1] (abandonAll [1] 3 s)

/-- The job state has changed: runs whose gap has ended are abandoned, and a gap that opens is used (R530, R532). -/
def calStage (s : State) : State :=
  let power := !jobExists s || s.jobs.state == 5
  let s := setHk (fun h => { h with waits := h.waits.map fun w =>
    if (w.kind = 1 && power) || (w.kind != 1 && recoatGap s) then w else { w with skip := false } }) s
  let s := if power then s else deferWaiting [1] (abandonAll [1] 1 s)
  if recoatGap s then calPump s else deferWaiting [2, 3, 4] (calWithdraw (abandonAll [3, 4] 1 s))

/-! ### Result sets (R521) -/

/-- The set that a new result replaces: one within ΔT / 2, or the nearest once four exist. -/
def replacedSet (dt : Nat) (t : Int) (sets : List CalSet) : Option Nat :=
  let d := fun i => ((unit sets i { temp := 0, a := 0, b := 0 }).temp - t).natAbs
  let near := (List.range sets.length).foldl (fun (m : Option Nat) i =>
    match m with | none => some i | some j => if d i < d j then some i else m) none
  near.bind fun i => if 2 * d i ≤ dt || 4 ≤ sets.length then some i else none

/-- The sets with a new result, temperatures rising. -/
def putSet (dt : Nat) (x : CalSet) (sets : List CalSet) : List CalSet :=
  let rest := match replacedSet dt x.temp sets with | some i => sets.eraseIdx i | none => sets
  (rest.filter fun y => decide (y.temp ≤ x.temp)) ++ x :: rest.filter fun y => decide (x.temp < y.temp)

/-- The value in force at a temperature: interpolated between the sets around it, the end sets outside them (R521). -/
def setValue (t : Int) : List CalSet → Option (Int × Int)
  | [] => none
  | [x] => some (x.a, x.b)
  | x :: y :: rest =>
    if t ≤ x.temp then some (x.a, x.b)
    else if t < y.temp then
      let wt := min 65535 (roundDiv ((t - x.temp) * 65536) (y.temp - x.temp).toNat).toNat
      some (mixOf x.a y.a wt, mixOf x.b y.b wt)
    else setValue t (y :: rest)

/-- The set nearest in temperature (R521). -/
def nearestSet (t : Int) (sets : List CalSet) : Option CalSet :=
  sets.foldl (fun (m : Option CalSet) x => match m with
    | none => some x
    | some y => if (x.temp - t).natAbs < (y.temp - t).natAbs then some x else m) none

/-- The values in force of a lane are computed again (R521, R522). -/
def renewLane (l : Nat) (s : State) : State :=
  let c := laneCal s l
  let t := laneTemp s l
  let s := match setValue t c.powerSets with
    | some v => setLaneCal l (fun x => let x := slewPower s.now x; { x with pgainTo := v.1.toNat, pofsTo := v.2 }) s
    | none => s
  match setValue t c.darkSets with
  | some v => setLoop l (fun x => let x := slewDark s.now x; { x with darkToA := v.1.toNat, darkToB := v.2.toNat }) s
  | none => s

/-- One equaliser step per 1 ms (R522). -/
def slewEq (now : Ns) (x : UnitCal) : UnitCal :=
  let n := (now - x.movedAt) / 1000000
  let e := stepTo n x.eq x.eqTo
  { x with eq := e, movedAt := if e = x.eqTo then now else x.movedAt + 1000000 * n }

/-- The setting in force of a receiver follows the set nearest in temperature. -/
def renewUnit (now : Ns) (t : Int) (x : UnitCal) : UnitCal :=
  let x := slewEq now x
  match nearestSet t x.sets with
  | some v => { x with eqTo := v.a }
  | none => x

def setEye (kind u : Nat) (f : UnitCal → UnitCal) (s : State) : State :=
  if kind = 3 then setHk (fun h => { h with spl := modUnit h.spl u f }) s
  else if kind = 4 then setHk (fun h => { h with eth := modUnit h.eth u f }) s
  else setHk (fun h => { h with dqs := modUnit h.dqs u f }) s

/-- The receivers' settings are computed again. -/
def renewEyes (s : State) : State :=
  let go := fun kind n (s : State) => (List.range n).foldl (fun s u => setEye kind u (renewUnit s.now (watched s kind u)) s) s
  go 4 4 (go 3 s.variant.ports s)

/-! ### The triggers of R520 -/

/-- GRID runs when it is asked for (R530). -/
def askGrid (l : Nat) (s : State) : State :=
  if calRunning s 0 l || (laneRec s l).gridSets = 0 then s else beginRun 0 l (needGrid l s)

/-- A temperature has moved: the calibration is asked for, where it has not been. POWER only where it can run (R524). -/
def calTrigger (kind u : Nat) (s : State) : State :=
  if !calMoved s kind u || calRunning s kind u then s
  else if kind = 0 then askGrid u s
  else if kind = 6 then beginRun 6 0 s
  else if kind = 1 && !powerReady s u then s
  else calPump (calWait kind u s)

/-- A head's temperature has come: its lanes' values are computed again, and their calibrations asked for (R520, R521). -/
def tempArrived (p h : Nat) (s : State) : State :=
  ((allLanes s).filter fun l => (laneRec s l).mapped && (laneRec s l).port = p && (laneRec s l).hop = h).foldl (fun s l =>
    calTrigger 2 l (calTrigger 1 l (calTrigger 0 l (renewLane l s)))) s

/-- A node enumerated later brings GRID and DARK for its lanes (R532). -/
def calNodeFound (ls : List Nat) (s : State) : State := ls.foldl (fun s l => calWait 2 l (askGrid l s)) s

/-- The start of R345: every calibration is asked for. -/
def calAtStart (s : State) : State :=
  let ls := (allLanes s).filter fun l => (laneRec s l).mapped && (beamNode s l).isSome
  let s := ls.foldl (fun s l => calWait 2 l (askGrid l s)) s
  let s := (ls.filter fun l => powerReady s l).foldl (fun s l => calWait 1 l s) s
  let s := ((List.range s.variant.ports).filter fun p => (portOf s p).link == 2 || (portOf s p).link == 3).foldl (fun s p => calWait 3 p s) s
  let s := (List.range 4).foldl (fun s p => calWait 4 p s) s
  calPump (if calRunning s 6 0 then s else beginRun 6 0 s)

/-! ### The end of a run (R525 to R529, R531) -/

/-- The worse of two quality figures: the larger residual, the smaller eye. -/
def worse (kind a b : Nat) : Nat := if kind = 1 then max a b else min a b

/-- What no quality figure is worse than. -/
def bestQuality (kind : Nat) : Nat := if kind = 1 then 0 else 65535

/-- A unit's run has ended: the requests that run at once have one unit less to wait for (R531). -/
def groupsDone (kind u quality : Nat) (bad : Bool) (s : State) : State :=
  let upd := fun g : CalGroup =>
    if g.kind = kind && g.left.contains u then
      { g with left := g.left.erase u, worst := worse kind g.worst quality, bad := g.bad || bad }
    else g
  let s := setHk (fun h => { h with groups := h.groups.map upd }) s
  let done := s.hk.groups.filter fun g => g.left.isEmpty
  done.foldl (fun s g => finish g.ref (if g.bad then stData else stDone) 0 (if kind = 1 || (3 ≤ kind && kind ≤ 5) then g.worst else 0) s)
    (setHk (fun h => { h with groups := h.groups.filter fun g => !g.left.isEmpty }) s)

/-- What POWER has measured at one level: how many values count, the sum of the slot powers and of the measured powers. -/
def levelSums (xs : List (Nat × Nat)) : Nat × Nat × Nat :=
  let ys := xs.take 20
  (ys.length, (ys.map fun p => p.1).foldl (· + ·) 0, (ys.map fun p => p.2).foldl (· + ·) 0)

/-- √(n / d), rounded by R9. -/
def roundSqrt (n d : Nat) : Nat := let r := isqrt (n / d); if (2 * r + 1) * (2 * r + 1) * d ≤ 4 * n then r + 1 else r

/-- The fit of R525 over the three levels, as numerator and denominator of g, PGAIN, POFS and the squared RMS residual in units of
0.01 % of rated power with its denominator; none where a level lacks its 20 values or the levels do not differ. -/
def powerFit (levels : List (List (Nat × Nat))) : Option (Int × Int × Nat × Int × Nat × Nat) :=
  let ls := levels.map levelSums
  if ls.length != 3 || ls.any (fun x => x.1 != 20) then none
  else
    let c := ls.map fun x => (x.2.1 : Int)
    let m := ls.map fun x => (x.2.2 : Int)
    let sum := fun xs : List Int => xs.foldl (· + ·) 0
    let num := 3 * sum (List.zipWith (· * ·) c m) - sum c * sum m
    let den := 3 * sum (List.zipWith (· * ·) c c) - sum c * sum c
    if den ≤ 0 || num ≤ 0 then none
    else
      let base := sum m * den - num * sum c
      let ts := List.zipWith (fun ci mi => 3 * (mi * den - num * ci) - base) c m
      let sq := sum (ts.map fun t => t * t)
      some (num, den, (clampI 0 65535 (roundDiv (32768 * den) num.toNat)).toNat,
        satS 16 (roundDiv (-base) (60 * num.toNat)), (sq * 100000000).toNat, (46385646796800 * den * den).toNat)

/-- One unit's result (R521, R525 to R527), with its quality and whether it is rejected. -/
def takeResult (kind u quality setting : Nat) (s : State) : State × Nat × Bool :=
  let t := watched s kind u
  let dt := calDt s kind
  match kind with
  | 0 =>
    let (g, s) := gridNow u s
    (changeMap u { trims := none, grid := g } s, 0, false)
  | 1 =>
    let r := s.hk.runs.find? fun r => r.kind = 1 && r.unit = u
    let s := powerStop u s
    let s := setLaneCal u (fun x => { x with powerTemp := some t }) s
    (match r.bind fun r => powerFit r.levels with
    | none => (s, 65535, true)
    | some (num, den, gain, ofs, sq, sd) =>
      let q := min 65535 (roundSqrt sq sd)
      let lim := cfgF s 0xA00300 16 16
      let bad := decide (5 * num < 4 * den) || decide (5 * den < 4 * num) || decide (lim * lim * sd < sq)
      let s := setLaneCal u (fun x => { x with resid := BitVec.ofNat 16 q }) s
      let s := if bad then s else setLaneCal u (fun x => { x with powerSets := putSet dt { temp := t, a := gain, b := ofs } x.powerSets }) s
      (renewLane u s, q, bad))
  | 2 =>
    (match (laneCal s u).gather with
    | none => (s, 0, false)
    | some g =>
      let mean := fun n => roundDiv ((n : Nat) : Int) g.n
      let s := setLaneCal u (fun x => { x with
        gather := none, darkTemp := some t, darkSets := putSet dt { temp := t, a := mean g.sumA, b := mean g.sumB } x.darkSets }) s
      (renewLane u s, 0, false))
  | 6 => (setHk (fun h => { h with rosTemp := some t }) s, 0, false)
  | _ =>
    let s := setEye kind u (fun x => renewUnit s.now t { x with
      sets := if kind = 5 then x.sets else putSet dt { temp := t, a := setting, b := quality } x.sets, last := some t }) s
    let s := if (kind = 3 || kind = 4) && quality < cfgF s 0xA00308 16 8 then
        raise 0x2012 (natLE 1 kind ++ natLE 1 u ++ natLE 2 quality) s else s
    (s, quality, false)

/-- The unit may end a run now: it runs; DARK has gathered its samples, and POWER is back from the dump. -/
def mayEnd (kind u : Nat) (s : State) : Bool :=
  match kind with
  | 1 => s.hk.runs.any fun r => r.kind = 1 && r.unit = u && decide (r.fin ≤ s.now)
  | 2 => calWaiting s 2 u && ((laneCal s u).gather.any fun g => decide (1024 ≤ g.n))
  | _ => calRunning s kind u

/-- One unit of an ending run. -/
def endUnit (kind : Nat) (acc : State × Option (Nat × Nat) × Bool) (x : Nat × Nat × Nat) : State × Option (Nat × Nat) × Bool :=
  let (s, w, b) := acc
  let u := x.1
  if !mayEnd kind u s then acc
  else
    let (s, q, bad) := takeResult kind u x.2.1 x.2.2 s
    let s := if kind = 2 then dropWait 2 u s else dropRun kind u s
    let s := setKind kind (fun k => { k with rejected := if bad then satInc k.rejected else k.rejected }) s
    let s := groupsDone kind u q bad s
    let w' := match w with
      | none => (u, q)
      | some v => if worse kind v.2 q = v.2 then v else (u, q)
    (s, some w', b || bad)

/-- A run of a kind ends (R531): the results of its units are stored, CAL_DONE names the worst, and what waits may start. -/
def endRun (kind : Nat) (results : List (Nat × Nat × Nat)) (s : State) : State :=
  let (s, w, bad) := results.foldl (endUnit kind) (s, none, false)
  match w with
  | none => s
  | some (u, q) =>
    let s := setKind kind (fun k => { k with
      quality := BitVec.ofNat 16 q, lastNs := BitVec.ofNat 64 s.now, runs := k.runs + 1 }) s
    calPump (raise 0x2010 (natLE 1 kind ++ natLE 1 u ++ natLE 1 (if bad then stData else stDone) ++ natLE 2 q) s)

/-! ### The throttle level (R514, R529) -/

/-- Valid ring-oscillator sensors (R511). -/
def validRos (s : State) : List Nat := (List.range 24).filter fun i => !(s.hk.failed.getD i false)

/-- The sensor floor (R529). -/
def sensorFloor (s : State) : Nat := if (validRos s).length < 12 then 2 else 0

/-- The floor in force (R514). -/
def hkFloor (s : State) : Nat := max s.hk.hostFloor.toNat (sensorFloor s)

/-- The level changes: THROTTLE_LEVEL is raised, Mere takes it up at its next point, and the step is ordered for the image pipeline
(R172, R426, R514). -/
def setLevel (v : Nat) (s : State) : State :=
  let old := s.hk.level.toNat
  if old = v then s
  else
    let s := setHk (fun h => { h with
      level := BitVec.ofNat 2 v, levelSince := s.now, relSince := if h.relCond then some s.now else none }) s
    let s := if (old = 0) != (v = 0) then
        { s with mere := { s.mere with wantCoarse := v != 0, wantSince := s.now } } else s
    raise 0x2003 (natLE 1 old ++ natLE 1 v ++ natLE 2 s.hk.tj.toNat) (orderCapacity v s)

/-- The level is kept at the floor at least (R514). -/
def keepFloor (s : State) : State := if s.hk.level.toNat < hkFloor s then setLevel (hkFloor s) s else s

/-- A sensor whose two temperatures differ by more than 3 °C fails (R529). -/
def rosCheck (pairs : List (Int × Int)) (s : State) : State :=
  let had := (validRos s).length
  let s := (List.range 24).foldl (fun s i =>
    match pairs[i]? with
    | some p =>
      if 192 < (p.1 - p.2).natAbs && !(s.hk.failed.getD i false) then
        raise 0x2005 (natLE 1 i) (setHk (fun h => { h with failed := h.failed.set i true }) s)
      else s
    | none => s) s
  let n := (validRos s).length
  let s := if n < 12 && 12 ≤ had then raise 0x2006 (natLE 1 n) (setHk (fun h => { h with lowCount := true }) s) else s
  keepFloor s

end Sys2Proof.Machine
end

