-- ==== Sys2Proof/Machine/Time.lean ====
section
/-! DEFINITION. The clock, its servo and time states, PTP messages, triggers and PPS (R213 to R235, R243, R244). -/

namespace Sys2Proof.Machine

def setClock (f : Clock → Clock) (s : State) : State := { s with time := { s.time with clock := f s.time.clock } }

/-! ### The time error bound (R223) -/

/-- n / d rounded up. -/
def ceilDiv (n d : Nat) : Nat := (n + d - 1) / d

/-- The largest |offset| of the last 16. -/
def worstOffset (s : State) : Nat := s.time.clock.offsets.foldl max 0

/-- E_T in ns, rounded up and saturated at 0xFFFF_FFFF (R223). -/
def errorBound (s : State) : Nat :=
  let p := s.prof.time
  let c := s.time.clock
  let v := match c.state with
    | .free => 0xFFFFFFFF
    | .acquiring => 0xFFFFFFFF
    | .coarse => worstOffset s + (if p.source = 1 then p.ppsErr else p.tsErr)
    | .fine => worstOffset s + (if p.source = 1 then p.ppsErr else p.tsErr)
    | .holdover =>
      let h := c.now - c.holdSince
      ceilDiv (c.e0 * (200 * 10 ^ 18) + p.hoFreqErr * h * (200 * 10 ^ 9) + p.hoAging * h * h) (200 * 10 ^ 18)
    | .master => 0
  min v 0xFFFFFFFF

/-- READY_SYNCED is reported and withdrawn with the time state (R346). -/
def updateSynced (s : State) : State :=
  let want := s.boot.readyLocal && timeSynced s
  if want = s.boot.readySynced then s
  else if want then
    raise 0xA011 (natLE 4 (errorBound s)) { s with boot := { s.boot with readySynced := true, phase := 9 } }
  else
    raise 0xA012 (natLE 1 s.time.clock.state.code)
      { s with boot := { s.boot with readySynced := false, phase := if s.boot.readyLocal then 8 else s.boot.phase } }

/-- The clock is locked: COARSE or FINE (R222). -/
def locked (s : State) : Bool := s.time.clock.state = .coarse || s.time.clock.state = .fine

/-- The steered frequencies of the latest lock with the time each lasted, newest first (R224). -/
def lockLog (s : State) : List (Nat × Int) :=
  let c := s.time.clock
  if locked s then (c.now - c.freqSince, c.freqAdj) :: c.freqLog else c.freqLog

/-- Of the newest `left` ns of a log: the sum of frequency times duration, and the time summed. -/
def freqSum : Nat → List (Nat × Int) → Int × Nat
  | _, [] => (0, 0)
  | left, (d, f) :: rest =>
    let n := min d left
    let r := freqSum (left - n) rest
    (f * (n : Int) + r.1, n + r.2)

/-- The holdover reference frequency: the mean steered frequency over the last 64 s in COARSE or FINE, or over the whole lock (R224). -/
def holdoverRef (s : State) : Int :=
  let r := freqSum 64000000000 (lockLog s)
  if r.2 = 0 then s.time.clock.freqAdj else roundDiv r.1 r.2

/-- The time state changes, with its event (R222, R246). -/
def setTimeState (n : TimeState) (s : State) : State :=
  let old := s.time.clock.state
  if old = n then s
  else
    let log := lockLog s
    let s := match n with
      | .holdover =>
        let e0 := errorBound s
        let h := holdoverRef s
        setClock (fun c => { c with e0 := e0, holdSince := c.now, href := h, freqLog := log, freqAdj := h }) s
      | .coarse =>
        if old = .acquiring then setClock (fun c => { c with freqLog := [], freqSince := c.now }) s else s
      | .acquiring =>
        setClock (fun c => { c with freqLog := log, offsets := if old = .coarse then c.offsets else [] }) s
      | _ => s
    let s := setClock (fun c => { c with state := n, gmPending := false }) s
    let s := match n with
      | .free => raise 0x5006 [] s
      | .acquiring => raise 0x5001 (natLE 1 old.code) s
      | .coarse => raise 0x5002 (natLE 4 (errorBound s)) s
      | .fine => raise 0x5003 (natLE 4 (errorBound s)) s
      | .holdover => raise 0x5004 (natLE 4 s.time.clock.e0) s
      | .master => raise 0x5005 [] s
    updateSynced s

/-- TIME_QUALITY_UPDATE (R223, R228): E_T is recomputed every 1 ms. TIME_BOUND_EXCEEDED is raised when it first exceeds
HOLD_BOUND after being within it, and TIME_BOUND_OK when it returns. -/
def qualityUpdate (s : State) : State :=
  let e := errorBound s
  let bound := s.prof.time.holdBound
  let above := decide (bound < e)
  let exceeds := above && decide (s.time.clock.etb.toNat ≤ bound)
  let returns := !above && s.time.clock.boundRaised
  let holdMs := if s.time.clock.state = .holdover then (s.now - s.time.clock.holdSince) / 1000000 else 0
  let s := setClock (fun c => { c with
    etb := BitVec.ofNat 32 e, boundExceeded := above, boundRaised := above && (exceeds || c.boundRaised) }) s
  if exceeds then raise 0x5007 (natLE 4 e ++ natLE 4 holdMs) s
  else if returns then raise 0x5008 (natLE 4 e) s
  else s

def execTimeQualityUpdate (t : Ns) (s : State) : Host.Outcome State Fault Refusal := .next (qualityUpdate (passTo t s))

/-! ### Trigger outputs (R229 to R232) -/

def trigOut (s : State) (n : Nat) : TrigOut := unit s.time.trigOut n .reset

def setTrig (n : Nat) (f : TrigOut → TrigOut) (s : State) : State :=
  { s with time := { s.time with trigOut := modUnit s.time.trigOut n f } }

/-- The lane tick and the fine steps at which an edge due at `e` is driven (R230). -/
def edgePlace (e : Ns) (fine : Nat) : Ns × Nat :=
  let k := roundDivN (64 * (e % 5)) 5 + fine
  (e / 5 * 5 + 5 * (k / 64), k % 64)

/-- The output goes to a level, as an edge at the land. -/
def driveTrig (n : Nat) (level : Bool) (e : Ns) (s : State) : State :=
  let o := trigOut s n
  let (tick, k) := edgePlace e o.sched.fine
  let s := setTrig n (fun o => { o with level := level }) s
  { s with sent := .edge 0 n (level != o.sched.activeLow) tick k :: s.sent }

/-- An output that is asserted is made idle at once. -/
def idleTrig (n : Nat) (s : State) : State :=
  let o := trigOut s n
  let s := setTrig n (fun o => { o with enable := false, fall := none, repl := none }) s
  if o.level then driveTrig n false s.now s else s

/-- After the leading edge at `next`: the next one, or the end of the schedule (R229). -/
def advanceTrig (n : Nat) (s : State) : State :=
  setTrig n (fun o =>
    let last := o.sched.period = 0 || o.remaining = 1
    { o with enable := !last, next := o.next + o.sched.period,
             remaining := if o.remaining = 0 then 0 else o.remaining - 1, fired := o.fired + 1 }) s

/-- An output across a step from `old` to `new` (R232). -/
def stepTrig (old new : Ns) (n : Nat) (s : State) : State :=
  let o := trigOut s n
  if !o.enable || new ≤ old || new < o.next then s
  else if o.sched.period = 0 then
    let s := driveTrig n (if o.sched.toggle then !o.level else true) new s
    let s := if o.sched.toggle then s else setTrig n (fun o => { o with fall := some (new + o.sched.width) }) s
    setTrig n (fun o => { o with late := true }) (advanceTrig n s)
  else
    let k := (new - o.next) / o.sched.period + 1
    setTrig n (fun o => { o with skipped := satAdd o.skipped k, next := o.next + k * o.sched.period }) s

/-- A schedule comes into force: an old pulse ends at the new first edge time, and old edges at or after it are not fired (R231). Edges of
the schedule that a step has jumped over while it was pending are treated as R232 says (R243). -/
def installSched (n : Nat) (d : TrigSched) (s : State) : State :=
  let o := trigOut s n
  let place := edgePlace d.start d.fine
  let s := if o.level then
      { setTrig n (fun o => { o with level := false }) s with
        sent := .edge 0 n o.sched.activeLow place.1 place.2 :: s.sent }
    else s
  let s := setTrig n (fun o => { o with
    enable := true, sched := d, late := false, remaining := BitVec.ofNat 32 (if d.period = 0 then 0 else d.count),
    next := d.start, fall := none, repl := none }) s
  if d.start < s.now / 5 * 5 then stepTrig 0 (s.now / 5 * 5) n s else s

/-- The TRIG_OUT_STOP descriptors whose outputs are all idle and whose actions have fired are done (R244). -/
def settleStops (s : State) : State :=
  let isDone := fun (x : Ref × BitVec 16) =>
    !((actions s).any fun a => a.tk == some x.1) &&
      (List.range 16).all fun n => !x.2.getLsbD n || (!(trigOut s n).enable && !(trigOut s n).level)
  let fin := s.time.stops.filter isDone
  let s := { s with time := { s.time with stops := s.time.stops.filter fun x => !isDone x } }
  fin.foldl (fun s x => endWith x.1 stDone s) s

/-- TRIG_OUT_STOP acts: a pulse in progress ends at its trailing edge, a level of TOGGLE at once (R232). -/
def stopTrig (n : Nat) (s : State) : State :=
  let o := trigOut s n
  if o.fall.isSome then setTrig n (fun o => { o with enable := false, repl := none }) s else idleTrig n s

/-- The safe state forces every output idle and clears ENABLE (R232). -/
def trigSafe (s : State) : State := settleStops ((List.range 16).foldl (fun s n => idleTrig n s) s)

/-- A pending TRIG_SCHED with REF TOR. -/
def torSched (w : RippleWork) : Bool := match w with | .trigOut _ d => !d.refPtp | _ => false

/-- Schedules with REF TOR stop and go idle when the job state returns to NONE (R232); one that still waits for its first edge is dropped,
and its descriptor ends (log 102). -/
def trigJobEnd (s : State) : State :=
  let gone := (actions s).filter fun a => torSched a.work
  let s := setRipple (fun r => { r with actions := r.actions.filter fun a => !torSched a.work }) s
  let s := gone.foldl (fun s a => match a.tk with | some r => endWith r stAbHost s | none => s) s
  settleStops ((List.range 16).foldl (fun s n =>
    let o := trigOut s n
    let s := if o.repl.any fun d => !d.refPtp then setTrig n (fun o => { o with repl := none }) s else s
    if (o.enable || o.level) && !o.sched.refPtp then idleTrig n s else s) s)

/-- TRIG_OUT_EDGE (R229, R230): the output's edge that is due is driven, a trailing edge before a leading one. A leading edge
triggers the camera ports that follow it (R427). -/
def trigEdge (n : Nat) (s : State) : State :=
  let s := match (trigOut s n).repl with
    | some d => if d.start / 5 * 5 ≤ s.now then installSched n d s else s
    | none => s
  let o := trigOut s n
  match o.fall with
  | some e =>
    if e / 5 * 5 ≤ s.now then settleStops (driveTrig n false e (setTrig n (fun o => { o with fall := none }) s)) else s
  | none =>
    if o.enable && decide (o.next / 5 * 5 ≤ s.now) then
      let s := driveTrig n (if o.sched.toggle then !o.level else true) o.next s
      let s := if o.sched.toggle then s else setTrig n (fun o => { o with fall := some (o.next + o.sched.width) }) s
      camTrigs 2 n noProduct (advanceTrig n s)
    else s

def execTrigOutEdge (t : Ns) (out : Nat) (s : State) : Host.Outcome State Fault Refusal := .next (trigEdge out (passTo t s))

/-- The range checks of R229 and R231; `start` is PTP time. The schedule that results begins at the first E_n that lies
at least 1 µs ahead. -/
def trigCheck (out fine period start width count : Nat) (refPtp activeLow toggle : Bool) (s : State) :
    Option TrigSched :=
  let okWidth := toggle || (decide (5 ≤ width) && (period = 0 || decide (width + 5 ≤ period)))
  if 16 ≤ out || 64 ≤ fine || (period != 0 && decide (period < 10)) || !okWidth then none
  else if start < earliest s then
    if period = 0 then none
    else some { refPtp := refPtp, start := start + ceilDiv (earliest s - start) period * period, fine := fine,
                period := period, width := width, count := count, activeLow := activeLow, toggle := toggle }
  else some { refPtp := refPtp, start := start, fine := fine, period := period, width := width, count := count,
              activeLow := activeLow, toggle := toggle }

/-- TRIG_OUT_SET (R229, R231, R244): posted to Ripple for its first edge. -/
def startTrigOutSet (r : Ref) (out : Nat) (refPtp activeLow toggle : Bool) (fine period start width count : Nat)
    (s : State) : State :=
  match refTime (!refPtp) start s with
  | none => endWith r stState s
  | some st =>
    match trigCheck out fine period st width count refPtp activeLow toggle s with
    | none => endWith r stParam s
    | some d =>
      if ripplePlace (.trigOut out d) s then postHost (.trigOut out d) r (d.start / 5 * 5) s else endWith r stBusy s

def execTrigOutSet (h : Hdr) (out : Nat) (refPtp activeLow toggle : Bool) (fine period start width count : Nat)
    (s : State) : Host.Outcome State Fault Refusal :=
  .next (postDescriptor (.trigOutSet h out refPtp activeLow toggle fine period start width count) h 0x40
    (startTrigOutSet h.ref out refPtp activeLow toggle fine period start width count) s)

/-- TRIG_OUT_STOP (R232, R244): the time is in the reference of each output, so outputs of the two references are
stopped by two actions. -/
def startTrigOutStop (r : Ref) (mask : BitVec 16) (time : Nat) (s : State) : State :=
  let named := (List.range 16).filter fun n => mask.getLsbD n
  let torOnes := named.filter fun n => !(trigOut s n).sched.refPtp
  let ptpOnes := named.filter fun n => (trigOut s n).sched.refPtp
  let now := time = 0
  let groups : List (List Nat × Option Ns) :=
    if now then [(named, some 0)] else [(torOnes, refTime true time s), (ptpOnes, some time)]
  let groups := groups.filter fun g => !g.1.isEmpty
  if groups.any fun g => g.2.isNone then endWith r stState s
  else
    let posted := groups.foldl (fun (s : Option State) g => s.bind fun s =>
      let w := RippleWork.trigStop (BitVec.ofNat 16 (maskOf g.1))
      if ripplePlace w s then some (postHost w r (g.2.getD 0) s) else none) (some s)
    match posted with
    | none => endWith r stBusy s
    | some s => settleStops { s with time := { s.time with stops := s.time.stops ++ [(r, mask)] } }

def execTrigOutStop (h : Hdr) (mask : BitVec 16) (time : Nat) (s : State) : Host.Outcome State Fault Refusal :=
  .next (postDescriptor (.trigOutStop h mask time) h 0x41 (startTrigOutStop h.ref mask time) s)

/-! ### Steps of the counter (R216, R225, R232, R243) -/

/-- An action whose tick a forward step jumped over fires at the first lane tick after the step, a host-originated one
with LATE (R243). -/
def stepActions (new : Ns) (s : State) : State :=
  let first := (new / 5 + 1) * 5
  setRipple (fun r => { r with actions := r.actions.map fun a =>
    if a.launch < first then { a with launch := first, late := a.late || a.host } else a }) s

/-- A time that a step from `old` to `new` leaves as long ago as it was. -/
def moved (old new t : Ns) : Ns := t + new - old

/-- The times from which the clock and the trigger inputs count a duration move with a step, so that no duration jumps (R222 to R224,
R233, R235). -/
def moveTimes (old new : Ns) (s : State) : State :=
  let m := moved old new
  let s := setClock (fun c => { c with
    holdSince := m c.holdSince, freqSince := m c.freqSince, lastSync := c.lastSync.map m, lastPps := c.lastPps.map m
    foreign := c.foreign.map fun x => (m x.1, x.2) }) s
  { s with time := { s.time with
    trigIn := s.time.trigIn.map fun i => { i with last := i.last.map m }
    pps := { s.time.pps with fall := s.time.pps.fall.map m } } }

/-- The TIME counter steps to `new`: STEPS counts, TIME_STEPPED is raised with the step, triggers and Ripple follow
(R225, R226). -/
def stepTime (new : Ns) (s : State) : State :=
  let old := s.now
  let s := moveTimes old new (setClock (fun c => { c with now := new, steps := satInc c.steps, offsets := [] }) s)
  let s := (List.range 16).foldl (fun s n => stepTrig old new n s) s
  let s := if old < new then stepActions new s else s
  raise 0x5009 (intLE 8 ((new : Int) - (old : Int))) s

/-! ### Steering (R221 to R226) -/

/-- FREQ_ADJ after an offset: the servo's law is its own (log 11), within ±200 ppm, and within SLEW_MAX of the holdover
reference frequency while a job exists (R221). -/
def steer (s : State) : State :=
  let (n, s) := takeFree s
  let v := clampI (-20000000) 20000000 (Config.freeInt n)
  let v := if jobExists s then
      let h := holdoverRef s
      let w := ((10000 * s.prof.time.slewMax : Nat) : Int)
      clampI (h - w) (h + w) v
    else v
  let log := lockLog s
  setClock (fun c => { c with freqAdj := v, freqLog := log, freqSince := c.now }) s

/-- The last `n` offsets, all of which satisfy `p`. -/
def lastOffsets (n : Nat) (p : Nat → Bool) (s : State) : Bool :=
  decide (n ≤ s.time.clock.offsets.length) && (s.time.clock.offsets.take n).all p

/-- The state after one more offset (R222). -/
def judgeOffset (s : State) : State :=
  match s.time.clock.state with
  | .acquiring => if lastOffsets 16 (fun o => decide (o ≤ 50)) s then setTimeState .coarse s else s
  | .coarse =>
    if lastOffsets 4 (fun o => decide (100 < o)) s then setTimeState .acquiring s
    else if lastOffsets 16 (fun o => decide (o ≤ 5)) s then setTimeState .fine s else s
  | .fine => if lastOffsets 4 (fun o => decide (10 < o)) s then setTimeState .coarse s else s
  | .free => s
  | .holdover => s
  | .master => s

/-- One offset of the source, in ns: the state, a step or a blocked step, or steering (R221, R222, R225). -/
def takeOffset (off : Int) (s : State) : State :=
  let s := setClock (fun c => { c with offset := satS 32 off }) s
  let s := match s.time.clock.state with
    | .free => setTimeState .acquiring s
    | .holdover => setTimeState .acquiring s
    | _ => s
  let s := setClock (fun c => { c with offsets := (off.natAbs :: c.offsets).take 16 }) s
  if s.prof.time.stepLimit < off.natAbs then
    if jobExists s then
      let first := !s.time.clock.stepBlocked
      let s := setTimeState .acquiring s
      let s := if first then
          raise 0x500A (intLE 8 off)
            (setClock (fun c => { c with stepBlocked := true, stepBlocks := satInc c.stepBlocks }) s)
        else s
      if off.natAbs ≤ 100000000 then steer s else s
    else
      let d := 5 * roundDiv off 5
      setTimeState .acquiring (stepTime ((s.now : Int) - d).toNat s)
  else judgeOffset (steer s)

/-- A receive timestamp at the land: PORT_RX_LAT, in ps, is subtracted, and the result has 1 ns resolution (R219). -/
def rxStamp (s : State) (port : Nat) (t : Ns) : Ns :=
  (roundDiv (1000 * (t : Int) - ((unit s.prof.time.portRxLat port 0 : Nat) : Int)) 1000).toNat

/-- A transmit timestamp at the land: PORT_TX_LAT, in ps, is added, and the result has 1 ns resolution (R219). -/
def txStamp (s : State) (port : Nat) (t : Ns) : Ns := roundDivN (1000 * t + unit s.prof.time.portTxLat port 0) 1000

/-- A message is one of versionPTP 2 and of the ordinary clock's domain (R217). -/
def ownDomain (s : State) (version domain : Nat) : Bool := version == 2 && domain == s.prof.time.domain

/-- A Sync arrives (R221, R222): only one of the domain and from the parent is used. -/
def ptpSync (m : PtpSync) (s : State) : State :=
  if s.prof.time.source != 0 || !ownDomain s m.version m.domain || s.time.clock.parent != some m.sender then s
  else
    let c := s.time.clock
    let delta := roundDiv (65536 * ((rxStamp s m.port m.rx : Int) - (m.origin : Int)) - m.correction) 65536
    let delay : Int := if s.prof.time.p2p then ((unit c.linkDelay m.port 0 : Nat) : Int) else (c.pathDelay.toNat : Int)
    let s := setClock (fun c => { c with
      syncRx := c.syncRx + 1, lastSync := some c.now, masterDelta := delta,
      parentPort := BitVec.ofNat 2 m.port,
      pathDelay := if s.prof.time.p2p then BitVec.ofNat 32 (unit c.linkDelay m.port 0) else c.pathDelay }) s
    takeOffset (delta - delay) s

/-! ### Best master clock (R217, R222, R223; the data-set comparison is IEEE 1588's, log 12) -/

/-- The key by which IEEE 1588 orders grandmasters: lower is better. -/
def Announce.key (a : Announce) : List Nat :=
  [a.priority1, a.clockClass, a.accuracy, a.variance, a.priority2, a.gmId, a.stepsRemoved, a.sender]

/-- Lexicographic order of keys. -/
def keyLt : List Nat → List Nat → Bool
  | a :: as, b :: bs => decide (a < b) || (a == b && keyLt as bs)
  | _, _ => false

/-- The module's clockIdentity, formed from its MAC address as IEEE 1588 does with an EUI-64 (log 12). -/
def ownClockId (s : State) : Nat :=
  let m := s.ident.otp.mac.toNat
  m / 2 ^ 24 * 2 ^ 40 + 0xFFFE * 2 ^ 24 + m % 2 ^ 24

/-- What the module would announce of itself: clockAccuracy and variance are unknown (log 12). -/
def ownAnnounce (s : State) : Announce :=
  let p := s.prof.time
  { version := 2, domain := p.domain, sender := ownClockId s, senderPort := 1, port := 0, utcOffset := 0, timeFlags := 0, timeSource := 0xA0
    gmId := ownClockId s, priority1 := p.priority1,
    clockClass := if p.slaveOnly then 255 else p.clockClass, accuracy := 0xFE, variance := 0xFFFF,
    priority2 := p.priority2, stepsRemoved := 0 }

/-- 2 ^ `log` seconds in ns, for `log` from −7 to 7. -/
def logPeriod (log : Int) : Nat :=
  if log < 0 then 1000000000 / 2 ^ (-log).toNat else 1000000000 * 2 ^ log.toNat

/-- The Announce timeout in ns (R218). -/
def announceTimeout (s : State) : Nat := s.prof.time.announceTimeout * logPeriod s.prof.time.logAnnounce

/-- The foreign masters that have not timed out. -/
def liveForeign (s : State) : List Announce :=
  (s.time.clock.foreign.filter fun x => decide (s.now ≤ x.1 + announceTimeout s)).map fun x => x.2

/-- The best of a list of announces. -/
def bestOf : List Announce → Option Announce
  | [] => none
  | a :: as =>
    match bestOf as with
    | none => some a
    | some b => some (if keyLt b.key a.key then b else a)

/-- BMCA names the module grandmaster: MASTER, but in HOLDOVER during a job only when the job ends (R222, R223); where the module was not the
grandmaster before, GM_CHANGED is raised (R246). -/
def becomeMaster (s : State) : State :=
  let own := ownAnnounce s
  let changed := s.time.clock.gmId.toNat != own.gmId
  let s := setClock (fun c => { c with
    gmId := BitVec.ofNat 64 own.gmId, stepsRemoved := 0, gmClass := BitVec.ofNat 8 own.clockClass, gmInfo := some own }) s
  let s := if changed then raise 0x500B (natLE 8 own.gmId) s else s
  if s.time.clock.state = .holdover && jobExists s then
    setClock (fun c => { c with parent := none, gmPending := true }) s
  else setTimeState .master (setClock (fun c => { c with parent := none }) s)

/-- A grandmaster is taken over into TIME_PARENT; a new identity raises GM_CHANGED (R246). -/
def takeParent (a : Announce) (s : State) : State :=
  let changed := s.time.clock.gmId.toNat != a.gmId
  let s := setClock (fun c => { c with
    parent := some a.sender, parentPort := BitVec.ofNat 2 a.port, gmId := BitVec.ofNat 64 a.gmId,
    stepsRemoved := BitVec.ofNat 16 a.stepsRemoved, gmClass := BitVec.ofNat 8 a.clockClass, gmInfo := some a, gmPending := false }) s
  let s := if changed then raise 0x500B (natLE 8 a.gmId) s else s
  if s.time.clock.state = .master then setTimeState .acquiring s else s

/-- The best master clock algorithm's decision. -/
def bmca (s : State) : State :=
  match bestOf (liveForeign s) with
  | none => s
  | some a =>
    if !s.prof.time.slaveOnly && keyLt (ownAnnounce s).key a.key then becomeMaster s else takeParent a s

/-- An Announce arrives (R217, R222): one of another version or domain is ignored. -/
def ptpAnnounce (a : Announce) (s : State) : State :=
  if s.prof.time.source != 0 || !ownDomain s a.version a.domain then s
  else
    bmca (setClock (fun c => { c with
      foreign := (c.now, a) :: c.foreign.filter fun x => x.2.sender != a.sender }) s)

/-- The source is lost: HOLDOVER from COARSE or FINE, FREE from ACQUIRING (R222). -/
def loseSource (s : State) : State :=
  let count := setClock (fun c => { c with sourceLoss := satInc c.sourceLoss })
  match s.time.clock.state with
  | .coarse => setTimeState .holdover (count s)
  | .fine => setTimeState .holdover (count s)
  | .acquiring => setTimeState .free (count s)
  | .free => s
  | .holdover => s
  | .master => s

/-- SOURCE_LOST (R222): no Sync for SYNC_LOSS_N intervals, no PPS edge for 1.1 s, or, with `announce`, the Announce
timeout, after which BMCA may select another master or the module itself. -/
def sourceLost (announce : Bool) (s : State) : State :=
  let c := s.time.clock
  let ppsGone := match c.lastPps with | some e => decide (e + 1100000000 ≤ s.now) | none => false
  let s := if c.ppsPresent && ppsGone then raise 0x500E [] (setClock (fun c => { c with ppsPresent := false }) s) else s
  match s.prof.time.source with
  | 0 =>
    if announce then
      let live := liveForeign s
      let s := setClock (fun c => { c with
        foreign := c.foreign.filter fun x => decide (c.now ≤ x.1 + announceTimeout s) }) s
      if live.isEmpty then
        if s.prof.time.slaveOnly then setClock (fun c => { c with parent := none }) (loseSource s) else becomeMaster s
      else bmca s
    else
      match c.lastSync with
      | some e =>
        if e + s.prof.time.syncLossN * logPeriod s.prof.time.logSync ≤ s.now then loseSource s else s
      | none => s
  | 1 => if ppsGone then loseSource s else s
  | _ => s

/-- The job state has become NONE: STEP_BLOCKED clears, a grandmaster in HOLDOVER enters MASTER (R223, R225), schedules
with REF TOR stop (R232). -/
def timeJobEnd (s : State) : State :=
  let s := setClock (fun c => { c with stepBlocked := false }) s
  let s := if s.time.clock.gmPending && s.time.clock.state = .holdover then setTimeState .master s else s
  trigJobEnd s

/-! ### Other PTP messages (R217, R220, R221) -/

/-- A 12-byte timestamp (R7). -/
def stamp12 (t : Ns) : List Byte := natLE 2 0 ++ natLE 4 (t % 1000000000) ++ natLE 6 (t / 1000000000)

/-- A PTP message leaves on a port; an event message (messageType below 4) on the egress queue of PTP_PCP (R220). -/
def sendPtp (port kind seq : Nat) (body : List Byte) (s : State) : State :=
  { s with sent := .ptp port kind seq (if kind < 4 then some s.prof.time.ptpPcp else none) body :: s.sent }

/-- PTP_DELAY_MESSAGE (R220, R221): the mean path delay from t1 to t4, or the link delay of a port. A Pdelay_Req of a
link partner is answered, and as master a Delay_Req with a Delay_Resp (messageType 9) that holds t4, the request's correction and its
sender (R217). -/
def ptpDelay (m : PtpDelay) (s : State) : State :=
  match m with
  | .delayReq port domain sender seq rx corr =>
    if s.time.clock.state = .master && !s.prof.time.p2p && domain == s.prof.time.domain then
      sendPtp port 9 seq (stamp12 (rxStamp s port rx) ++ intLE 8 corr ++ natLE 8 sender) s
    else s
  | .delayResp domain seq t4 corr =>
    if domain != s.prof.time.domain then s
    else match s.time.clock.delayReq.find? fun x => x.1 == 0 && x.2.1 == seq with
    | none => s
    | some (_, _, t3) =>
      let back := roundDiv (65536 * ((t4 : Int) - (t3 : Int)) - corr) 65536
      let d := roundDiv (s.time.clock.masterDelta + back) 2
      setClock (fun c => { c with
        pathDelay := satU 32 d, delayReq := c.delayReq.filter fun x => !(x.1 == 0 && x.2.1 == seq) }) s
  | .pdelayReq port seq rx =>
    if s.prof.time.p2p then sendPtp port 3 seq (stamp12 (rxStamp s port rx) ++ stamp12 (txStamp s port s.now)) s else s
  | .pdelayResp port seq t2 t3 t4 corr =>
    match s.time.clock.delayReq.find? fun x => x.1 == port + 1 && x.2.1 == seq with
    | none => s
    | some (_, _, t1) =>
      let d := roundDiv (65536 * ((rxStamp s port t4 : Int) - (t1 : Int) - ((t3 : Int) - (t2 : Int))) - corr) 131072
      setClock (fun c => { c with
        linkDelay := modUnit c.linkDelay port fun _ => (clampI 0 0xFFFFFFFF d).toNat,
        delayReq := c.delayReq.filter fun x => !(x.1 == port + 1 && x.2.1 == seq) }) s

def execPtpDelayMessage (t : Ns) (m : PtpDelay) (s : State) : Host.Outcome State Fault Refusal :=
  .next (ptpDelay m (passTo t s))

/-- PTP_DELAY_REQ_SEND (R218): Delay_Req (messageType 1), or Pdelay_Req (2) on each switch port. -/
def delayReqSend (s : State) : State :=
  let c := s.time.clock
  let seq := c.seqDelay.toNat
  if s.prof.time.p2p then
    let s := setClock (fun c => { c with
      seqDelay := c.seqDelay + 1, delayReq := (List.range 4).map (fun p => (p + 1, seq, txStamp s p c.now)) ++ c.delayReq.take 12 }) s
    (List.range 4).foldl (fun s p => sendPtp p 2 seq (stamp12 0) s) s
  else if c.parent.isSome then
    let t3 := txStamp s c.parentPort.toNat c.now
    sendPtp c.parentPort.toNat 1 seq (stamp12 t3) (setClock (fun c => { c with
      seqDelay := c.seqDelay + 1, delayReq := (0, seq, t3) :: c.delayReq.take 15 }) s)
  else s

def execPtpDelayReqSend (t : Ns) (s : State) : Host.Outcome State Fault Refusal := .next (delayReqSend (passTo t s))

/-- PTP_SYNC_SEND (R217): as master on each Ethernet port, one-step, or two-step with a Follow_Up (messageType 8). -/
def syncSend (s : State) : State :=
  if s.time.clock.state != .master then s
  else
    let seq := s.time.clock.seqSync.toNat
    let s := setClock (fun c => { c with seqSync := c.seqSync + 1 }) s
    (List.range 4).foldl (fun s p =>
      if s.prof.time.twoStep then sendPtp p 8 seq (stamp12 (txStamp s p s.now)) (sendPtp p 0 seq (stamp12 0) s)
      else sendPtp p 0 seq (stamp12 (txStamp s p s.now)) s) s

def execPtpSyncSend (t : Ns) (s : State) : Host.Outcome State Fault Refusal := .next (syncSend (passTo t s))

/-- The fields of an Announce in the order of IEEE 1588, one byte or more each (R217; log 12). -/
def Announce.bytes (a : Announce) : List Byte :=
  intLE 2 a.utcOffset ++ natLE 1 a.priority1 ++ natLE 1 a.clockClass ++ natLE 1 a.accuracy ++ natLE 2 a.variance
    ++ natLE 1 a.priority2 ++ natLE 8 a.gmId ++ natLE 2 a.stepsRemoved ++ natLE 1 a.timeSource

/-- defaultDS: TWO_STEP and slave-only, the number of ports, and the clock's own quality, identity and domain (R217; log 12). -/
def defaultDS (s : State) : List Byte :=
  let a := ownAnnounce s
  natLE 1 (b1 s.prof.time.twoStep + 2 * b1 s.prof.time.slaveOnly) ++ natLE 2 1 ++ natLE 1 a.priority1 ++ natLE 1 a.clockClass
    ++ natLE 1 a.accuracy ++ natLE 2 a.variance ++ natLE 1 a.priority2 ++ natLE 8 a.gmId ++ natLE 1 a.domain

/-- currentDS: stepsRemoved, offsetFromMaster and the mean delay, both in 2⁻¹⁶ ns (R217; log 12). -/
def currentDS (s : State) : List Byte :=
  let c := s.time.clock
  natLE 2 c.stepsRemoved.toNat ++ intLE 8 (65536 * c.offset) ++ natLE 8 (65536 * c.pathDelay.toNat)

/-- parentDS: the parent's port identity, no statistics, and the grandmaster's priorities, quality and identity; without a parent the
module's own (R217; log 12). -/
def parentDS (s : State) : List Byte :=
  let a := s.time.clock.gmInfo.getD (ownAnnounce s)
  natLE 8 a.sender ++ natLE 2 (if s.time.clock.parent.isSome then a.senderPort else 0) ++ natLE 1 0 ++ natLE 2 0xFFFF ++ natLE 4 0x7FFFFFFF
    ++ natLE 1 a.priority1 ++ natLE 1 a.clockClass ++ natLE 1 a.accuracy ++ natLE 2 a.variance ++ natLE 1 a.priority2 ++ natLE 8 a.gmId

/-- timePropertiesDS: currentUtcOffset, its flags and timeSource, as the grandmaster announces them (R217; log 12). -/
def timePropertiesDS (s : State) : List Byte :=
  let a := s.time.clock.gmInfo.getD (ownAnnounce s)
  intLE 2 a.utcOffset ++ natLE 1 a.timeFlags ++ natLE 1 a.timeSource

/-- PTP_ANNOUNCE_SEND (R218): as master on each Ethernet port (messageType 11). -/
def announceSend (s : State) : State :=
  if s.time.clock.state != .master then s
  else
    let seq := s.time.clock.seqAnnounce.toNat
    (List.range 4).foldl (fun s p => sendPtp p 11 seq (ownAnnounce s).bytes s)
      (setClock (fun c => { c with seqAnnounce := c.seqAnnounce + 1 }) s)

def execPtpAnnounceSend (t : Ns) (s : State) : Host.Outcome State Fault Refusal := .next (announceSend (passTo t s))

/-- PTP_MANAGEMENT (R217): a GET of one of the four data sets is answered with its members, any SET with the management
error NOT_SUPPORTED, here the body 0xFF. -/
def ptpManagement (port : Nat) (m : PtpMgmt) (s : State) : State :=
  match m with
  | .getDefaultDS => sendPtp port 13 0 (defaultDS s) s
  | .getCurrentDS => sendPtp port 13 0 (currentDS s) s
  | .getParentDS => sendPtp port 13 0 (parentDS s) s
  | .getTimePropertiesDS => sendPtp port 13 0 (timePropertiesDS s) s
  | .getOther => sendPtp port 13 0 [0xFF] s
  | .set => sendPtp port 13 0 [0xFF] s

def execPtpManagement (t : Ns) (port : Nat) (m : PtpMgmt) (s : State) : Host.Outcome State Fault Refusal :=
  .next (ptpManagement port m (passTo t s))

/-- The one's complement sum of 16-bit words, carries folded back: the arithmetic of a UDP checksum. -/
def onesAdd (a b : Nat) : Nat := if a + b < 65536 then a + b else a + b - 65535

/-- The four 16-bit words of a correctionField, highest first. -/
def corrWords (v : Int) : List Nat :=
  let n := (v % ((2 ^ 64 : Nat) : Int)).toNat
  (List.range 4).map fun i => bits n (48 - 16 * i) 16

/-- A UDP checksum updated in flight for a correctionField that changes from `old` to `new` (R220). -/
def updateChecksum (sum : Nat) (old new : Int) : Nat :=
  let acc := (corrWords old).foldl (fun a w => onesAdd a (65535 - w)) (65535 - sum % 65536)
  let v := 65535 - (corrWords new).foldl onesAdd acc
  if v = 0 then 65535 else v

/-- The UDP checksum with which a frame leaves: unchanged where the frame is, 0 over IPv4, updated over IPv6 (R220). -/
def tcChecksum (f : TcFrame) (corr : Int) : Nat :=
  if corr = f.correction then f.checksum
  else match f.transport with
    | 0 => f.checksum
    | 1 => 0
    | _ => updateChecksum f.checksum f.correction corr

/-- TC_FRAME_FORWARD (R220): residence time goes into the correctionField of Sync (0) and, with E2E, Delay_Req (1); with
P2P the ingress port's link delay goes into a Sync as well, and Pdelay messages (2, 3 and 10) end at the port. Other frames pass
unchanged. A frame over UDP carries its checksum behind the correctionField. -/
def tcForward (f : TcFrame) (s : State) : State :=
  let p2p := s.prof.time.p2p
  if p2p && (f.kind = 2 || f.kind = 3 || f.kind = 10) then s
  else
    let corrects := f.kind = 0 || (f.kind = 1 && !p2p)
    let add := 65536 * ((txStamp s f.outPort f.egress : Int) - (rxStamp s f.inPort f.ingress : Int))
      + (if p2p && f.kind = 0 then 65536 * ((unit s.time.clock.linkDelay f.inPort 0 : Nat) : Int) else 0)
    let corr := if corrects then f.correction + add else f.correction
    let s := if corrects then setClock (fun c => { c with tcFrames := c.tcFrames + 1 }) s else s
    let sum := if f.transport = 0 then [] else natLE 2 (tcChecksum f corr)
    sendPtp f.outPort f.kind f.seq (intLE 8 corr ++ sum) s

def execTcFrameForward (t : Ns) (f : TcFrame) (s : State) : Host.Outcome State Fault Refusal :=
  .next (tcForward f (passTo t s))

/-! ### TIME_SET (R226) -/

/-- TIME_SET (R226, R244): a step at the next lane tick, with TIME_SOURCE PPS_IN or LOCAL and no job. The fractional part of the time
given has no effect, as the module's own fraction is always 0 (R213; log 107). -/
def startTimeSet (r : Ref) (ns sec : Nat) (s : State) : State :=
  if s.prof.time.source = 0 || jobExists s then endWith r stState s
  else if 1000000000 ≤ ns || ns % 5 != 0 then endWith r stParam s
  else endWith r stDone (stepTime (sec * 1000000000 + ns) s)

def execTimeSet (h : Hdr) (frac ns sec : Nat) (s : State) : Host.Outcome State Fault Refusal :=
  .next (postDescriptor (.timeSet h frac ns sec) h 0x44 (startTimeSet h.ref ns sec) s)

/-! ### PPS_OUT (R235, R245) -/

/-- What PPS_OUT_CFG must meet. -/
def ppsOutCfgCheck (mode width : Nat) : Nat := if mode != 0xFF && (2 < mode || width < 1 || 500000 < width) then stParam else stDone

/-- A change of PPS_OUT waits for the next whole second (R244). -/
def applyPpsOutCfg (r : Option Ref) (mode width : Nat) (s : State) : State :=
  { s with time := { s.time with pps := { s.time.pps with pending := s.time.pps.pending ++ [(mode, width, r)] } } }

/-- PPS_OUT_CFG (R244, R245). -/
def startPpsOutCfg (r : Ref) (mode width : Nat) (s : State) : State :=
  let st := ppsOutCfgCheck mode width
  if st != stDone then endWith r st s else applyPpsOutCfg (some r) mode width s

def execPpsOutCfg (h : Hdr) (mode width : Nat) (s : State) : Host.Outcome State Fault Refusal :=
  .next (postDescriptor (.ppsOutCfg h mode width) h 0x45 (startPpsOutCfg h.ref mode width) s)

/-- PPS_MODE and PPS_WIDTH of an override, or the profile's again (R245). -/
def setPpsMode (mode width : Nat) (s : State) : State :=
  let (m, w) := if mode = 0xFF then (s.prof.time.ppsMode, s.prof.time.ppsWidth) else (mode, width)
  { s with time := { s.time with pps := { s.time.pps with mode := BitVec.ofNat 2 m, width := BitVec.ofNat 24 w } } }

/-- The waiting PPS_OUT_CFG descriptors apply at a whole second, in order (R244). -/
def applyPpsCfg (s : State) : State :=
  let ps := s.time.pps.pending
  let s := { s with time := { s.time with pps := { s.time.pps with pending := [] } } }
  ps.foldl (fun s x =>
    let s := setPpsMode x.1 x.2.1 s
    match x.2.2 with
    | some r => endWith r stDone (bumpOverride 5 (x.1 != 0xFF) s)
    | none => markOverride 5 (x.1 != 0xFF) s) s

def drivePps (level : Bool) (t : Ns) (s : State) : State :=
  { s with time := { s.time with pps := { s.time.pps with level := level } },
           sent := .edge 1 0 level (edgePlace t 0).1 (edgePlace t 0).2 :: s.sent }

/-- A second value joins those that have had their edge: it prolongs the newest range or begins one. -/
def noteSecond (sec : Nat) : List (Nat × Nat) → List (Nat × Nat)
  | (a, b) :: rest => if b + 1 = sec then (a, sec) :: rest else (sec, sec) :: (a, b) :: rest
  | [] => [(sec, sec)]

/-- A second value has had its edge (R243). -/
def secondDriven (s : State) (sec : Nat) : Bool := s.time.pps.driven.any fun r => decide (r.1 ≤ sec) && decide (sec ≤ r.2)

def setPps (f : Pps → Pps) (s : State) : State := { s with time := { s.time with pps := f s.time.pps } }

/-- PPS_OUT_EDGE (R235): a leading edge at a whole second, once per second value (R243), where PPS_MODE lets it run, and
the trailing edge PPS_WIDTH later. -/
def ppsEdge (s : State) : State :=
  let sec := s.now / 1000000000
  if s.time.pps.fall.any fun t => decide (t ≤ s.now) then drivePps false s.now (setPps (fun p => { p with fall := none }) s)
  else if s.now % 1000000000 = 0 && !secondDriven s sec then
    let s := setPps (fun p => { p with driven := noteSecond sec p.driven }) (applyPpsCfg s)
    let m := s.time.pps.mode
    if m = 1 || (m = 2 && s.boot.readySynced) then
      drivePps true s.now (setPps (fun p => { p with fall := some (s.now + 1000 * p.width.toNat) }) s)
    else s
  else s

def execPpsOutEdge (t : Ns) (s : State) : Host.Outcome State Fault Refusal := .next (ppsEdge (passTo t s))

/-! ### Trigger inputs (R233 to R235) -/

def trigIn (s : State) (n : Nat) : TrigIn := unit s.time.trigIn n .reset

def setTrigIn (n : Nat) (f : TrigIn → TrigIn) (s : State) : State :=
  { s with time := { s.time with trigIn := modUnit s.time.trigIn n f } }

/-- The 32 bytes of a capture record (R234). -/
def Capture.bytes (c : Capture) (input : Nat) : List Byte :=
  stamp12 c.time ++ [BitVec.ofNat 8 input, BitVec.ofNat 8 (b1 c.rising + 2 * b1 c.encValid)] ++ natLE 2 c.seq.toNat
    ++ intLE 8 c.count ++ natLE 8 c.torTime

/-- Captures of an input go to the host's ring, in order, overwriting it (R234). -/
def drainInput (n : Nat) (s : State) : State :=
  if s.time.ringSet then
    let s := (trigIn s n).fifo.foldl (fun s c =>
      let s := memPut (s.time.ringBase.toNat + 32 * (s.time.ringNext % s.time.ringSize)) (c.bytes n) s
      { s with time := { s.time with ringNext := s.time.ringNext + 1 } }) s
    setTrigIn n (fun i => { i with fifo := [], episode := false }) s
  else s

/-- The encoder channel that an input latches: TRIG_ENCODER while a LINE job uses the input, else ENC (R233). -/
def latchChannel (n : Nat) (s : State) : Option Nat :=
  match s.jobs.lineTrigger with
  | some (src, e) => if src = n then some e else if (trigIn s n).enc.toNat < 16 then some (trigIn s n).enc.toNat else none
  | none => if (trigIn s n).enc.toNat < 16 then some (trigIn s n).enc.toNat else none

/-- An edge at an input whose level then holds for `width` lane ticks (R233, R234). -/
def captureEdge (n : Nat) (rising : Bool) (width : Nat) (s : State) : State :=
  let i := trigIn s n
  let glitch := setTrigIn n (fun i => { i with glitch := satInc i.glitch }) s
  let wants := if rising then i.edge.getLsbD 0 else i.edge.getLsbD 1
  if width < i.filter.toNat then glitch
  else if !wants then s
  else
    match i.last with
    | some e => if s.now < e + 20 then glitch else captureAt n rising i s
    | none => captureAt n rising i s
where
  captureAt (n : Nat) (rising : Bool) (i : TrigIn) (s : State) : State :=
    let ch := latchChannel n s
    let c : Capture :=
      { time := s.now, rising := rising, encValid := ch.isSome, seq := BitVec.ofNat 16 i.captures.toNat,
        count := match ch with | some e => (unit s.enc e .reset).ext | none => 0,
        torTime := match s.jobs.tor with | some t => s.now - t | none => 0 }
    let full := decide (32 ≤ i.fifo.length)
    let s := setTrigIn n (fun i => { i with last := some s.now }) s
    if full then
      let s := setTrigIn n (fun i => { i with overflow := satInc i.overflow, episode := true }) s
      if i.episode then s else raise 0x500C (natLE 1 n) s
    else drainInput n (setTrigIn n (fun i => { i with captures := i.captures + 1, fifo := i.fifo ++ [c] }) s)

/-- TRIG_IN_CFG (R233, R244). -/
def startTrigInCfg (r : Ref) (input edge filter enc : Nat) (s : State) : State :=
  if 8 < input || 3 < edge || 255 < filter || (15 < enc && enc != 0xFF) then endWith r stParam s
  else if s.jobs.lineTrigger.any fun x => x.1 == input then endWith r stState s
  else endWith r stDone (setTrigIn input (fun i => { i with
    edge := BitVec.ofNat 2 edge, filter := BitVec.ofNat 8 filter, enc := BitVec.ofNat 8 enc }) s)

def execTrigInCfg (h : Hdr) (input edge filter enc : Nat) (s : State) : Host.Outcome State Fault Refusal :=
  .next (postDescriptor (.trigInCfg h input edge filter enc) h 0x42 (startTrigInCfg h.ref input edge filter enc) s)

/-- `n` is a power of two of at least 64 and at most 65,536 (R234, R309). -/
def ringSizeOk (n : Nat) : Bool := (List.range' 6 11).any fun k => n == 2 ^ k

/-- The input whose FIFO holds the oldest capture, the lower one among equals. -/
def oldestInput (s : State) : Option Nat :=
  ((List.range 9).foldl (fun (best : Option (Nat × Ns)) n =>
    match (trigIn s n).fifo with
    | [] => best
    | c :: _ => match best with
      | none => some (n, c.time)
      | some b => if c.time < b.2 then some (n, c.time) else best) none).map fun x => x.1

/-- What the FIFOs hold moves into the ring in capture order (R234). -/
def drainAll : Nat → State → State
  | 0, s => s
  | k + 1, s =>
    match oldestInput s with
    | none => s
    | some n =>
      match (trigIn s n).fifo with
      | [] => s
      | c :: rest =>
        let s := memPut (s.time.ringBase.toNat + 32 * (s.time.ringNext % s.time.ringSize)) (c.bytes n) s
        drainAll k (setTrigIn n (fun i => { i with fifo := rest, episode := false })
          { s with time := { s.time with ringNext := s.time.ringNext + 1 } })

/-- TRIG_IN_RING (R234, R244): what the FIFOs hold moves into the new ring. -/
def startTrigInRing (r : Ref) (base size : Nat) (s : State) : State :=
  if base % 32 != 0 || !ringSizeOk size || !hostMem base (32 * size) s then endWith r stParam s
  else
    let s := { s with time := { s.time with
      ringSet := true, ringBase := BitVec.ofNat 64 base, ringSize := size, ringNext := 0 } }
    endWith r stDone (drainAll 288 s)

def execTrigInRing (h : Hdr) (base size : Nat) (s : State) : Host.Outcome State Fault Refusal :=
  .next (postDescriptor (.trigInRing h base size) h 0x43 (startTrigInRing h.ref base size) s)

end Sys2Proof.Machine
end

