-- ==== Sys2Proof/Machine/Peers.lean ====
section
/-! DEFINITION. The rules of the arbiter under host overrides (R192, R193, R210, R211) and the peer exchange (R200 to
R206). -/

namespace Sys2Proof.Machine

/-! ### RULES_CRC (R193) -/

/-- The bytes of a plume rule as RULES_CRC takes them. -/
def plumeBytes : Option PlumeRec → List Byte
  | none => List.replicate 28 0
  | some p => intLE 4 p.region.x0 ++ intLE 4 p.region.y0 ++ intLE 4 p.region.x1 ++ intLE 4 p.region.y1
      ++ intLE 2 p.dirX ++ intLE 2 p.dirY ++ natLE 4 p.len ++ natLE 4 p.half

/-- The bytes of a zone as RULES_CRC takes them. -/
def zoneBytes : Option ZoneRec → List Byte
  | none => List.replicate 136 0
  | some z => padTo 136 ([BitVec.ofNat 8 z.verts.length, z.members, BitVec.ofNat 8 (b1 z.enable), 0] ++ natLE 2 z.holdoff
      ++ [0, 0] ++ z.verts.flatMap fun v => intLE 4 v.1 ++ intLE 4 v.2)

/-- RULES_CRC over the rules in force (R193). -/
def rulesCrcOf (s : State) : BitVec 32 :=
  let lanes := (List.range 128).flatMap fun l =>
    let r := unit s.prof.lanes l .unmapped
    if r.mapped then [BitVec.ofNat 8 r.priority, BitVec.ofNat 8 r.sepGroup] else [0, 0]
  let floorB := natLE 4 s.prof.prox.sepFloor
  let sep := (List.range 256).flatMap fun i => natLE 4 (unit s.prox.sep i 0)
  let plumes := (List.range 4).flatMap fun i => plumeBytes (unit s.prox.plumes i none)
  let zones := (List.range 256).flatMap fun i => zoneBytes (unit s.prox.zones i none)
  BitVec.ofNat 32 (crc32 (lanes ++ floorB ++ sep ++ plumes ++ zones))

/-- RULES_CRC is computed anew, and with it which members' rules differ (R193, R205). -/
def renewCrc (s : State) : State :=
  let s := setProx (fun p => { p with rulesCrc := rulesCrcOf s }) s
  (otherMembers s).foldl (fun s m => renewMismatch m s) s

/-- The profile's rules come into force, without overrides (R192, R320). -/
def loadRules (s : State) : State :=
  renewCrc (setProx (fun p => { p with
    sep := s.prof.sep, plumes := s.prof.plumes, zones := s.prof.zones }) s)

/-! ### Overrides (R210, R211) -/

/-- What PROX_SEP_SET must meet. -/
def proxSepCheck (a b dist : Nat) (s : State) : Nat :=
  if 15 < a || 15 < b || 10000000 < dist || dist < s.prof.prox.sepFloor then stParam else stDone

/-- SEP of two groups is replaced, in both orders. -/
def applyProxSep (a b dist : Nat) (s : State) : State :=
  renewCrc (setProx (fun p => { p with sep := (p.sep.set (16 * a + b) dist).set (16 * b + a) dist }) s)

/-- What PROX_ZONE_CTRL must meet. -/
def proxZoneCheck (g : Nat) (mask : BitVec 32) (s : State) : Nat :=
  if 7 < g || ((List.range 32).any fun i => mask.getLsbD i && (unit s.prox.zones (32 * g + i) none).isNone) then stParam
  else stDone

/-- The enables of a group of zones are replaced. -/
def applyProxZone (g : Nat) (mask : BitVec 32) (s : State) : State :=
  let upd := fun (i : Nat) (z : Option ZoneRec) =>
    if i / 32 = g then z.map (fun z => { z with enable := mask.getLsbD (i % 32) }) else z
  renewCrc (setProx (fun p => { p with zones := p.zones.mapIdx upd }) s)

/-- What PROX_PLUME_SET must meet: a rule of the profile, a direction, LEN up to 500 mm and HALF up to 60° (R192). -/
def proxPlumeCheck (rule : Nat) (dirX dirY : Int) (len half : Nat) (s : State) : Nat :=
  if 3 < rule || (unit s.prox.plumes rule none).isNone || (dirX = 0 && dirY = 0) || 50000000 < len || 1047198 < half
  then stParam else stDone

/-- A plume rule is replaced; its region stays. -/
def applyProxPlume (rule : Nat) (dirX dirY : Int) (len half : Nat) (s : State) : State :=
  let upd := fun r : Option PlumeRec => r.map (fun r => { r with dirX := dirX, dirY := dirY, len := len, half := half })
  renewCrc (setProx (fun p => { p with plumes := modUnit p.plumes rule upd }) s)

/-- The launch of a rule change: the next guard tick, or the guard tick at or after its LAUNCH (R210; log 24). -/
def proxLaunch (launch : Nat) (s : State) : Option Ns :=
  if launch = 0 then some (alignUp (earliest s) 5000) else (refTime true launch s).map fun t => alignUp t 5000

/-- A rule change is posted as a Ripple action, or completes with its rejection (R210, R236, R240). One that is late acts at the next guard
tick. -/
def startProx (r : Ref) (st launch : Nat) (w : RippleWork) (s : State) : State :=
  if st != stDone then endWith r st s
  else
    match proxLaunch launch s with
    | none => endWith r stState s
    | some t =>
      if ripplePlace w s then
        let late := decide (t < earliest s)
        ripplePost { work := w, launch := if late then alignUp (earliest s) 5000 else t, host := true, tk := some r, late := late,
                     missing := [] } s
      else endWith r stBusy s

def execProxSepSet (h : Hdr) (a b dist launch : Nat) (s : State) : Host.Outcome State Fault Refusal :=
  .next (postDescriptor (.proxSepSet h a b dist launch) h 0x38
    (fun s => startProx h.ref (proxSepCheck a b dist s) launch (.proxSep a b dist) s) s)

def execProxZoneCtrl (h : Hdr) (group : Nat) (mask : BitVec 32) (launch : Nat) (s : State) :
    Host.Outcome State Fault Refusal :=
  .next (postDescriptor (.proxZoneCtrl h group mask launch) h 0x39
    (fun s => startProx h.ref (proxZoneCheck group mask s) launch (.proxZone group mask) s) s)

def execProxPlumeSet (h : Hdr) (rule : Nat) (dirX dirY : Int) (len half launch : Nat) (s : State) :
    Host.Outcome State Fault Refusal :=
  .next (postDescriptor (.proxPlumeSet h rule dirX dirY len half launch) h 0x3A
    (fun s => startProx h.ref (proxPlumeCheck rule dirX dirY len half s) launch (.proxPlume rule dirX dirY len half) s) s)

/-! ### The summary that the module sends (R201) -/

/-- µs after X, rounded down or up, 0xFFFF being later than 65.534 ms. -/
def usDown (x t : Ns) : Nat := min 0xFFFF ((t - x) / 1000)
def usUp (x t : Ns) : Nat := let u := (t - x + 999) / 1000; if 65534 < u then 0xFFFF else u

/-- The least distance n with n × n at least `sq`. -/
def ceilSqrt (sq : Int) : Nat := let r := isqrt sq.toNat; if ((r * r : Nat) : Int) = sq then r else r + 1

/-- The points of emission of a claim at tick boundaries with their times and chord deviations, from X on. -/
def claimPoints (ts : List Traj) (x : Ns) : List (Ns × Pt × Int) :=
  ts.flatMap fun t => (t.emits.flatMap fun e => ticksOf (max e.1 (x / 5000 * 5000)) e.2.1).flatMap fun g =>
    match tickSeg t g with
    | some (a, b, w) => [(g, a, w), (g + 5000, b, w)]
    | none => []

/-- The lane entry of a claim: a line from its position at T0 to that at T1 where every open branch stays within 2.55 mm
of it, else the box of its emission (R201; log 23). -/
def laneEntry (s : State) (x : Ns) (l : Nat) : Option PeerLane :=
  let ts := (claimOf s l).trajs
  let near := (otherMembers s).any fun m => ts.any fun t => nearReach s { t with since := x } m (sepMax s + lenMax s)
  let pts := claimPoints ts x
  match near, pts with
  | true, p :: rest =>
    let all := p :: rest
    let ons := (ts.flatMap fun t => t.emits.filter fun e => decide (x < e.2.1)).map fun e => max x e.1
    let on := ons.foldl min (ons.headD p.1)
    let off := (ts.flatMap fun t => t.emits).foldl (fun m e => max m e.2.1) x
    let t0 := usDown x on
    let t1 := usUp x off
    let lo := x + 1000 * t0
    let n := 1000 * (t1 - t0)
    let first := match ts with | t :: _ => (planPos t.plan lo).getD p.2.1 | [] => p.2.1
    let last := match ts with | t :: _ => (planPos t.plan (lo + n)).getD p.2.1 | [] => p.2.1
    let dev := all.foldl (fun d q =>
      let u : Int := ((if q.1 < lo then 0 else min n (q.1 - lo) : Nat) : Int)
      let at_ : Pt := if n = 0 then first else
        (lerp first.1 last.1 u n, lerp first.2 last.2 u n)
      max d (ceilSqrt (Pt.sq (Pt.sub q.2.1 at_)) + q.2.2.toNat)) 0
    let radius := (dev + 999) / 1000
    let box := decide (255 < radius) || t1 == 0xFFFF
    let w := all.foldl (fun m q => max m q.2.2) 0
    let bx0 := all.foldl (fun m q => min m q.2.1.1) p.2.1.1 - w
    let by0 := all.foldl (fun m q => min m q.2.1.2) p.2.1.2 - w
    let bx1 := all.foldl (fun m q => max m q.2.1.1) p.2.1.1 + w
    let by1 := all.foldl (fun m q => max m q.2.1.2) p.2.1.2 + w
    some { lane := l, box := box, tentative := (laneOf s l).plan.any fun r => match r.verdict with
             | .tentative _ _ => true | _ => false,
           sepGroup := (laneRec s l).sepGroup, prio := effPrio s l, radius := if box then 0 else radius,
           x0 := if box then bx0 else first.1, y0 := if box then by0 else first.2, x1 := if box then bx1 else last.1,
           y1 := if box then by1 else last.2, t0 := t0, t1 := t1 }
  | _, _ => none

/-- The zone entry of a claim: the earliest use of a zone with other members whose LAST has not passed. -/
def zoneEntry (s : State) (x : Ns) (l : Nat) : Option PeerZone :=
  let uses := crossUses s l
  match uses with
  | [] => none
  | u :: rest =>
    let f := rest.foldl (fun m v => if v.1 < m.1 then v else m) u
    let last := (uses.filter fun v => v.2 = f.2).foldl (fun m v => max m (v.1 + 5000)) x
    let hold := holdoffOf s f.2
    some { zone := f.2, lane := l, tentative := (laneOf s l).plan.any fun r => match r.verdict with
             | .tentative _ _ => true | _ => false,
           prio := effPrio s l, first := usDown x f.1, last := usUp x (last + hold) }

/-- The 24 bytes of a lane entry. -/
def PeerLane.bytes (e : PeerLane) : List Byte :=
  natLE 1 e.lane ++ natLE 1 (b1 e.box + 2 * b1 e.tentative + 16 * e.sepGroup) ++ natLE 1 e.prio ++ natLE 1 e.radius
    ++ intLE 4 e.x0 ++ intLE 4 e.y0 ++ intLE 4 e.x1 ++ intLE 4 e.y1 ++ natLE 2 e.t0 ++ natLE 2 e.t1

/-- The 8 bytes of a zone entry. -/
def PeerZone.bytes (e : PeerZone) : List Byte :=
  natLE 1 e.zone ++ natLE 1 e.lane ++ natLE 1 (b1 e.tentative) ++ natLE 1 e.prio ++ natLE 2 e.first ++ natLE 2 e.last

/-- The header of R201. -/
def peerHeader (kind frame frames lanes zones : Nat) (x : Ns) (s : State) : List Byte :=
  let locked := timeSynced s && !s.time.clock.boundExceeded
  natLE 1 kind ++ natLE 1 s.prof.machine.member ++ natLE 1 frame ++ natLE 1 frames
    ++ natLE 2 s.ident.moduleId.toNat ++ natLE 1 (b1 locked) ++ [0] ++ natLE 8 x
    ++ natLE 4 s.prox.rulesCrc.toNat ++ natLE 2 lanes ++ natLE 2 zones ++ natLE 4 s.prox.seq.toNat ++ natLE 4 0

/-- Entries put into frames of up to 1,440 bytes of entries, lane entries first: the lane and zone entries of each. -/
def packFrames : Nat → List PeerLane → List PeerZone → List (List PeerLane × List PeerZone)
  | 0, _, _ => []
  | n + 1, ls, zs =>
    let l := ls.take 60
    let z := zs.take ((1440 - 24 * l.length) / 8)
    if (ls.drop 60).isEmpty && (zs.drop z.length).isEmpty then [(l, z)]
    else (l, z) :: packFrames n (ls.drop 60) (zs.drop z.length)

/-- A frame leaves on the peer address. -/
def sendPeer (kind : Nat) (bytes : List Byte) (s : State) : State := { s with sent := .peer kind bytes :: s.sent }

/-- The open SYNCs that name other members. -/
def crossSyncs (s : State) : List SyncPoint :=
  s.jobs.syncs.filter fun p => p.released.isNone && p.members != 2 ^ s.prof.machine.member

/-- A Ripple place is set aside for each release for which a lane of the module holds GO, or given back where none does (R240). -/
def keepPlaces (s : State) : State :=
  (crossSyncs s).foldl (fun s p =>
    let go := (syncLanes s p).any fun l => syncGo s p l
    setSync p (fun q => { q with place := go && (p.place || ripplePlace (.syncRelease p.id) s) }) s) s

/-- What the module reports of a participant (R202). GO stands only while the module holds a place set aside for the release (R240). -/
def syncEntry (s : State) (p : SyncPoint) (l : Nat) : SyncEntry :=
  let a := p.arrivals.find? fun a => a.lane = l
  { sync := p.id, lane := l, arrived := a.isSome, go := syncGo s p l && p.place
    faulted := p.gone.getLsbD l || p.failed.isSome || (laneOf s l).state == .fault
    bound := match a with | some a => a.bound - torOf s | none => 0
    rc := p.rc - torOf s }

/-- The 24 bytes of an entry. -/
def SyncEntry.bytes (e : SyncEntry) : List Byte :=
  natLE 2 e.sync ++ natLE 1 e.lane ++ natLE 1 (b1 e.arrived + 2 * b1 e.go + 4 * b1 e.faulted) ++ natLE 4 0
    ++ natLE 8 e.bound ++ natLE 8 e.rc

/-- The entries of one SYNC. -/
def syncEntries (s : State) (p : SyncPoint) : List SyncEntry :=
  ((allLanes s).filter fun l => p.lanes.getLsbD l).map fun l => syncEntry s p l

/-- The module's own reports of exchange X stand beside those of the others (R200). -/
def ownReports (x : Ns) (s : State) : State :=
  (crossSyncs s).foldl (fun s p =>
    let r : SyncReport := { member := s.prof.machine.member, x := x, came := s.now,
                            entries := (syncEntries s p).filter fun e => !e.faulted }
    setSync p (fun q => { q with reports := r :: q.reports.filter fun y => y.member != r.member }) s) s

/-- PEER_SUMMARY_SEND (R201, R202): at an exchange time X, the summary in 1 to 8 frames, and the SYNC_REPORT. -/
def summarySend (s : State) : State :=
  if s.now % 20000 != 0 || !s.prox.run || s.members.idConflict || s.members.memberConflict || (otherMembers s).isEmpty then s
  else
    let x := s.now
    let s := ownReports x (keepPlaces s)
    let ls := (allLanes s).filterMap fun l => laneEntry s x l
    let zs := (allLanes s).filterMap fun l => zoneEntry s x l
    let frames := packFrames 8 ls zs
    let s0 := s
    let s := (frames.zipIdx).foldl (fun s f =>
      sendPeer 1 (peerHeader 1 f.2 frames.length f.1.1.length f.1.2.length x s0 ++ f.1.1.flatMap PeerLane.bytes
        ++ f.1.2.flatMap PeerZone.bytes) s) s
    let rep := (crossSyncs s).flatMap fun p => syncEntries s p
    let s := if rep.isEmpty then s else sendPeer 2 (peerHeader 2 0 1 rep.length 0 x s0 ++ rep.flatMap SyncEntry.bytes) s
    setProx (fun p => { p with seq := p.seq + 1, sentPrio := ((x, ls.map fun e => (e.lane, e.prio)) :: p.sentPrio).take 64 }) s

def execPeerSummarySend (t : Ns) (s : State) : Host.Outcome State Fault Refusal := .next (summarySend (passTo t s))

/-! ### What the peers send (R194, R202, R205) -/

/-- PEER_SUMMARY_RECEIVE: a summary waits for the next guard tick (R194); a member outside the profile's machine is no
peer (R206), and one that conflicts is silent (R352). -/
def summaryReceive (m : Summary) (s : State) : State :=
  if (otherMembers s).contains m.member && !s.members.conflict.getLsbD m.member then setPeer m.member (fun p => { p with inbox := p.inbox ++ [(s.now, m)] }) s
  else s

def execPeerSummaryReceive (t : Ns) (m : Summary) (s : State) : Host.Outcome State Fault Refusal :=
  .next (summaryReceive m (passTo t s))

/-- One SYNC of a report (R200, R202): its entries are kept for the exchange; a participant of another module that has
faulted breaks the SYNC (R83), and with FAIL_CONTINUE its entry counts no longer. -/
def takeReport (member : Nat) (x : Ns) (entries : List SyncEntry) (id : Nat)
    (s : State) : State :=
  match s.jobs.syncs.find? fun p => p.id = id && p.released.isNone && p.failed.isNone && p.members.testBit member with
  | none => s
  | some p =>
    let mine := entries.filter fun e => e.sync = id
    let broken := mine.any fun e => e.faulted
    let keep := mine.filter fun e => !e.faulted
    let s := setSync p (fun q => { q with
      reports := { member := member, x := x, came := s.now, entries := keep } :: q.reports.filter fun r =>
        r.member != member }) s
    if broken && !p.failContinue then
      let s := raise 0x300C [] (setSync p (fun q => { q with failed := some fcSyncBroken }) s)
      faultAll 512 (p.arrivals.map fun a => (a.lane, fcSyncBroken, 0, none)) s
    else if broken && (p.reports.all fun r => r.member != member || r.entries.length = mine.length) then
      raise 0x300C [] s
    else s

/-- SYNC_REPORT_RECEIVE (R202). -/
def syncReportReceive (member : Nat) (x : Ns) (entries : List SyncEntry)
    (s : State) : State :=
  if (otherMembers s).contains member then
    (entries.map fun e => e.sync).eraseDups.foldl (fun s id => takeReport member x entries id s) s
  else s

def execSyncReportReceive (t : Ns) (member : Nat) (x : Ns) (entries : List SyncEntry) (s : State) :
    Host.Outcome State Fault Refusal :=
  .next (syncReportReceive member x entries (passTo t s))

/-- PEER_SILENT (R205): nothing has come for SILENT_PERIODS × 20 µs after the latest summary was due. -/
def peerSilentNow (m : Nat) (s : State) : State :=
  let p := peerOf s m
  if p.present && !p.silent && p.inbox.isEmpty && decide (p.dueAt + 20000 * s.prof.prox.silentPeriods ≤ s.now) then
    let s := setPeer m (fun p => { p with silent := true }) s
    raise 0x3063 (natLE 1 m) (setProx (fun p => { p with silentEpisodes := satInc p.silentEpisodes }) s)
  else s

def execPeerSilent (t : Ns) (member : Nat) (s : State) : Host.Outcome State Fault Refusal :=
  .next (peerSilentNow member (passTo t s))

end Sys2Proof.Machine
end

