-- ==== Sys2Proof/Machine/Validate.lean ====
section
/-! DEFINITION. Validation of layers and marks (R59 to R61) and the layer status block (R58). -/

namespace Sys2Proof.Machine

/-! ### One stream -/

/-- A SYNC record as validation meets it. -/
structure SyncRec where
  lane : Nat
  idx : Nat
  id : Nat
  lanes : BitVec 128
  members : Nat
  fc : Bool
deriving DecidableEq, Repr

/-- What a scan of a stream has come to: the first error with its index, and the SYNC records. -/
structure Scan where
  error : Option (Nat × Nat)
  syncs : List SyncRec
  start : Option (Int × Int)
deriving DecidableEq, Repr

/-- Where a scan takes place: the lane, whether the job is a LINE job, the parameter-set table, the lanes that a SYNC may
name and the length of the stream. -/
structure ScanCtx where
  lane : Nat
  line : Bool
  table : Nat
  mask : BitVec 128
  addr : Nat
  count : Nat
deriving DecidableEq, Repr

/-- The address of set k of a lane in a table (R56). -/
def psetAddr (table l k : Nat) : Nat := table + 4096 * l + 64 * k

/-- The error of a parameter set that a stream can select (R59): read error, or code PSET. -/
def psetError (s : State) (table l k : Nat) : Option Nat :=
  let a := psetAddr table l k
  if (poisonIn a 64 s).isSome then some fcEcc
  else
    let vmax := if (otherMembers s).isEmpty then none else some s.prof.prox.peerVmax
    if psetOk (memRead a 64 s) vmax (fun c => (unit s.curves c none).isSome) then none else some fcPset

/-- The error of one record by itself and from its start (R59). -/
def recordError (s : State) (c : ScanCtx) (start : Option (Int × Int)) (syncs : List SyncRec) (i : Nat) (v : Vec) :
    Option Nat :=
  match v with
  | .stop => if i + 1 = c.count then none else some fcEnd
  | .select k => psetError s c.table c.lane k
  | .track on _ _ _ _ => if !c.line then some fcMode else if i = 0 && !on then some fcMode else none
  | .sync _ id members lanes =>
    let own := lanes.getLsbD c.lane && members.testBit s.prof.machine.member
    let inside := decide (lanes &&& ~~~c.mask = 0)
    if own && inside && !(syncs.any fun y => y.id = id) then none else some fcSync
  | _ => geomError ((laneRec s c.lane).fieldCx, (laneRec s c.lane).fieldCy, (laneRec s c.lane).fieldHalf) start v

/-- One record of a stream: its error, or what the rest of the scan starts from. -/
def scanOne (s : State) (c : ScanCtx) (acc : Scan) (i : Nat) (b : List Byte) : Scan :=
  if acc.error.isSome then acc
  else if (poisonIn (c.addr + 32 * i) 32 s).isSome then { acc with error := some (fcEcc, i) }
  else
    match readVec b with
    | .error e => { acc with error := some (e, i) }
    | .ok v =>
      let first := c.line && i = 0 && (match v with | .track true _ _ _ _ => false | _ => true)
      let last := i + 1 = c.count && v != .stop
      match recordError s c acc.start acc.syncs i v with
      | some e => { acc with error := some (e, i) }
      | none =>
        if first then { acc with error := some (fcMode, i) }
        else if last then { acc with error := some (fcEnd, i) }
        else
          let syncs := match v with
            | .sync fc id m ls => acc.syncs ++ [{ lane := c.lane, idx := i, id := id, lanes := ls, members := m, fc := fc }]
            | _ => acc.syncs
          { acc with syncs := syncs, start := endOf acc.start v }

/-- The records of a stream in Basin. -/
def streamBytes (s : State) (addr count : Nat) : List (List Byte) := (List.range count).map fun i => memRead (addr + 32 * i) 32 s

/-- A stream is scanned; set 0 is always one that it can select (R49, R59). -/
def scanStream (s : State) (c : ScanCtx) (recs : List (List Byte)) : Scan :=
  let e0 := (psetError s c.table c.lane 0).map fun e => (e, 0)
  recs.zipIdx.foldl (fun acc x => scanOne s c acc x.2 x.1) { error := e0, syncs := [], start := none }

/-- The poisoned words of a region are counted and reported as validation meets them (R504). -/
def readPoison (a n : Nat) (s : State) : State :=
  match poisonIn a n s with
  | some w => eccUe 34 w s
  | none => s

/-! ### The layer descriptor -/

def layerMagic : Nat := 0x52594C43

/-- The head of a layer descriptor names: LAYER_INDEX, FLAGS, PSET_TABLE, STATUS_ADDR and LANE_MASK (R40). -/
structure LayerHead where
  index : Nat
  flags : Nat
  table : Nat
  status : Nat
  mask : BitVec 128
deriving DecidableEq, Repr

def readHead (b : List Byte) : LayerHead :=
  { index := field b 4 4, flags := field b 8 4, table := field b 16 8, status := field b 24 8,
    mask := BitVec.ofNat 128 (field b 32 16) }

/-- NEW_PSET, LAST and SAVE_MERE of a layer. -/
def Layer.newPset (x : Layer) : Bool := bit x.flags 1
def Layer.last (x : Layer) : Bool := bit x.flags 0
def Layer.saveMere (x : Layer) : Bool := bit x.flags 2

/-- The lanes that a layer uses. -/
def Layer.laneList (x : Layer) : List Nat := (List.range 128).filter fun l => x.mask.getLsbD l

/-- The parameter-set table that serves layer `i` (R56): that of the latest layer with NEW_PSET at or before it. -/
def tableFor (s : State) (i : Nat) : Nat :=
  let ls := s.jobs.layers.filter fun x => x.newPset && decide (x.index ≤ i)
  (ls.foldl (fun (m : Nat × Nat) x => if m.1 ≤ x.index + 1 then (x.index + 1, x.psetTable) else m) (0, s.jobs.table)).2

/-- A lane entry of a layer descriptor (R40). -/
def readEntry (b : List Byte) : LayerLane :=
  { streamAddr := field b 0 8, resultAddr := field b 8 8, rawAddr := field b 16 8, count := field b 24 4,
    rawKiB := field b 28 4, endState := 0, code := 0, index := 0, records := 0, holdNs := 0, checked := [],
    resumeAt := none }

/-- A lane entry meets its encodings and R600. -/
def entryOk (s : State) (e : LayerLane) : Bool :=
  decide (1 ≤ e.count) && decide (e.count ≤ 16777215)
    && e.streamAddr % 32 == 0 && hostMem e.streamAddr (32 * e.count) s
    && e.resultAddr % 32 == 0 && (e.count == 1 || hostMem e.resultAddr (32 * (e.count - 1)) s)
    && (e.rawAddr == 0 || (e.rawAddr % 4096 == 0 && hostMem e.rawAddr (1024 * e.rawKiB) s))

/-- Two regions overlap. -/
def overlap (a b : Nat × Nat) : Bool := decide (a.1 < b.1 + b.2) && decide (b.1 < a.1 + a.2) && a.2 != 0 && b.2 != 0

/-- No region of the list overlaps another of it, or one of the second list. -/
def disjoint : List (Nat × Nat) → List (Nat × Nat) → Bool
  | [], _ => true
  | r :: rs, os => !(rs.any (overlap r)) && !(os.any (overlap r)) && disjoint rs os

/-- The descriptor of a queued layer meets R35, R40 and R600 in full. -/
def descriptorOk (s : State) (x : Layer) (head : List Byte) (es : List (Nat × LayerLane)) : Bool :=
  let jobMask := match jobHeader s with | some h => h.lanes | none => 0
  let used := es.filter fun e => x.mask.getLsbD e.1
  let streams := used.flatMap fun e => [(e.2.streamAddr, 32 * e.2.count), (e.2.resultAddr, 32 * (e.2.count - 1))]
  let others := (used.map fun e => (e.2.rawAddr, if e.2.rawAddr = 0 then 0 else 1024 * e.2.rawKiB))
    ++ [(x.addr, 4160), (x.status, 2048), (tableFor s x.index, 524288)]
  decide (x.flags < 8) && zeroIn head 12 15 && zeroIn head 48 63
    && decide (x.mask &&& ~~~jobMask = 0)
    && (!x.newPset || (x.psetTable % 4096 == 0 && hostMem x.psetTable 524288 s))
    && (es.all fun e => x.mask.getLsbD e.1 || allZero (memRead (x.addr + 64 + 32 * e.1) 32 s))
    && (used.all fun e => entryOk s e.2)
    && disjoint streams others

/-- Two SYNC records of one SYNC_ID disagree where one names the other's lane (R59). -/
def SyncRec.differs (y z : SyncRec) : Bool :=
  z.id = y.id && (y.lanes.getLsbD z.lane || z.lanes.getLsbD y.lane)
    && !(z.lanes = y.lanes && z.members = y.members && z.fc = y.fc)

/-- SYNC records of a layer that do not agree with that of another lane with their SYNC_ID (R59): each of the two is in error. -/
def syncErrors (ys : List SyncRec) : List (Nat × Nat × Nat) :=
  (ys.filter fun y => ys.any fun z => z.lane != y.lane && y.differs z).map fun y => (y.lane, fcSync, y.idx)

/-- The first error of a lane among those found. -/
def firstError (l : Nat) (es : List (Nat × Nat × Nat)) : Option (Nat × Nat) :=
  (es.filter fun e => e.1 = l).foldl (fun m e => match m with
    | none => some (e.2.1, e.2.2)
    | some x => if e.2.2 < x.2 then some (e.2.1, e.2.2) else m) none

/-- What validation of a layer finds: its status, the errors of its lanes (lane, code, index), and the layer with what
has been read. -/
structure Checked where
  status : Nat
  errors : List (Nat × Nat × Nat)
  layer : Layer
  crossSync : Bool
deriving DecidableEq, Repr

/-- Validation of a layer (R59). Where errors of several kinds stand, the descriptor's go first, then read errors. -/
def checkLayer (s : State) (x : Layer) : Checked :=
  let head := memRead x.addr 64 s
  let es := (List.range 128).map fun l => (l, readEntry (memRead (x.addr + 64 + 32 * l) 32 s))
  let used := es.filter fun e => x.mask.getLsbD e.1
  if (poisonIn x.addr 4160 s).isSome then
    { status := stEcc, errors := [], layer := x, crossSync := false }
  else if !descriptorOk s x head es then { status := stParam, errors := [], layer := x, crossSync := false }
  else
    let table := tableFor s x.index
    let scans := used.map fun e =>
      let recs := streamBytes s e.2.streamAddr e.2.count
      (e, recs, scanStream s { lane := e.1, line := false, table := table, mask := x.mask, addr := e.2.streamAddr,
                               count := e.2.count } recs)
    let own := scans.filterMap fun y => y.2.2.error.map fun e => (y.1.1, e.1, e.2)
    let syncs := scans.flatMap fun y => y.2.2.syncs
    let all := own ++ syncErrors syncs
    let errs := x.laneList.filterMap fun l => (firstError l all).map fun e => (l, e.1, e.2)
    let st := if errs.isEmpty then stDone else if errs.any fun e => e.2.1 = fcEcc then stEcc else stData
    { status := st, errors := errs,
      layer := { x with lanes := scans.map fun y => (y.1.1, { y.1.2 with checked := y.2.1 }) },
      crossSync := syncs.any fun y => y.members != 2 ^ s.prof.machine.member }

/-! ### The status block (R58) -/

/-- The 16 bytes of a lane's entry. -/
def statusEntry (e : LayerLane) : List Byte :=
  [BitVec.ofNat 8 e.endState, BitVec.ofNat 8 e.code, 0, 0] ++ natLE 4 e.records ++ natLE 4 e.index
    ++ natLE 4 (satU 32 ((e.holdNs / 1000 : Nat) : Int)).toNat

/-- The layer status block of 128 entries is written. -/
def writeStatus (x : Layer) (s : State) : State :=
  memWrite 32 x.status ((List.range 128).flatMap fun l => match layerLane x l with
    | some e => statusEntry e
    | none => List.replicate 16 0) s

/-- The account of a failed layer: FAULT with its first error for each bad lane, 0 for every other (R61). -/
def failedLanes (errs : List (Nat × Nat × Nat)) : List (Nat × LayerLane) :=
  errs.map fun e => (e.1, { readEntry (List.replicate 32 0) with endState := 2, code := e.2.1, index := e.2.2 })

/-- The account of a layer that ends without being exposed in full (R58): EXCLUDED for the lanes that do not take part,
STOPPED for every other lane of its mask that neither reached END nor faulted. -/
def stoppedLanes (s : State) (x : Layer) : Layer :=
  { x with lanes := x.laneList.map fun l =>
      let st := if (laneOf s l).excluded then 3 else 4
      match layerLane x l with
      | some e => (l, if e.endState = 0 then { e with endState := st } else e)
      | none => (l, { readEntry (List.replicate 32 0) with endState := st }) }

end Sys2Proof.Machine
end

