-- ==== Sys2Proof/Machine/Sequencer.lean ====
section
/-! DEFINITION. The layer sequencer (R24 to R31, R62 to R80): stages, binding, ARM, the end of an exposure, holds, the end
of a job, the permits, and the stages of a machine job. -/

namespace Sys2Proof.Machine

/-! ### The job states (R62) -/

def jsNone : Nat := 0
def jsWait : Nat := 1
def jsExpose : Nat := 2
def jsPost : Nat := 3
def jsStarved : Nat := 4
def jsRecoat : Nat := 5
def jsSettle : Nat := 6
def jsBed : Nat := 7
def jsArm : Nat := 8
def jsPermit : Nat := 9
def jsHeld : Nat := 10
def jsLine : Nat := 11
def jsEnding : Nat := 12

def setJobState (st : Nat) (s : State) : State := setJobs (fun j => { j with state := BitVec.ofNat 4 st }) s

/-- Both permits are high (R71, R589). -/
def permitOk (s : State) : Bool := s.permit.high

/-- The index of the layer that runs next (R35): one above the highest completed, or FIRST_LAYER_INDEX. -/
def nextIndex (s : State) : Nat :=
  match s.jobs.done with
  | some d => d + 1
  | none => match jobHeader s with | some h => h.first | none => 0

/-- The next layer, where it is queued. -/
def nextLayer (s : State) : Option Layer := layerOf s (nextIndex s)

/-- The next layer is queued and has passed validation (R26). -/
def nextReady (s : State) : Bool := (nextLayer s).any fun x => x.passed

/-! ### Frames of a machine job (R78, R79, R348) -/

/-- The job is a MACHINE_JOB. -/
def machineJob (s : State) : Bool := s.jobs.machine

/-- This module is the leader of the machine (R350). -/
def isLeader (s : State) : Bool := s.members.elected && s.members.leaderMember.toNat == s.prof.machine.member

/-- A peer control frame (R348). -/
def sendControl (kind : Nat) (payload : List Byte) (s : State) : State :=
  sendPeer kind (peerHeader kind 0 1 0 0 s.now s ++ payload) s

/-- The module is STARVED for want of a validated next layer of its own, and not only with the machine (R79). -/
def ownStarved (s : State) : Bool := s.jobs.state == 4 && !nextReady s

/-- The next layer has failed validation and has not been queued again (R61, R79). -/
def nextFailed (s : State) : Bool := s.jobs.failed.any fun f => f.1 = nextIndex s

/-- STAGE_REPORT of this module (R348). -/
def reportBytes (s : State) (armLate failedVal : Bool) : List Byte :=
  natLE 4 s.members.ackSeq ++ natLE 1 (jobState s) ++ natLE 1 s.jobs.cause.toNat
    ++ natLE 1 (b1 s.jobs.exposeDone + 2 * b1 (ownStarved s) + 4 * b1 (failedVal || nextFailed s) + 8 * b1 s.jobs.resumeOk
      + 16 * b1 armLate)
    ++ natLE 1 s.jobs.resumeMode ++ natLE 4 s.jobs.layerIndex.toNat

/-- A member reports a change to the leader (R79, R80). -/
def report (armLate failedVal : Bool) (s : State) : State :=
  if machineJob s && !isLeader s then sendControl 6 (reportBytes s armLate failedVal) s else s

/-- The plan entry of a stage of a layer. -/
def plannedStart (s : State) (stage layer : Nat) : Option Ns :=
  (s.members.plans.find? fun e => e.stage = stage && e.layer = layer).map fun e => torOf s + e.start

/-- STAGE_PLAN (R348). -/
def sendPlan (s : State) : State :=
  let es := s.members.plan
  sendControl 5 (natLE 4 s.members.planSeq ++ natLE 1 es.length ++ natLE 3 0
    ++ es.flatMap fun e => natLE 1 e.stage ++ natLE 3 0 ++ natLE 4 e.layer ++ natLE 8 e.start) s

/-- A plan entry replaces an earlier one for the same stage and layer (R80); at most 8 are kept. -/
def addEntry (e : PlanEntry) (es : List PlanEntry) : List PlanEntry :=
  (e :: es.filter fun x => !(x.stage = e.stage && x.layer = e.layer)).take 8

/-- The leader sends a plan of one or more stages to every member (R78). -/
def planStages (es : List (Nat × Nat × Ns)) (s : State) : State :=
  let es : List PlanEntry := es.map fun e => { stage := e.1, layer := e.2.1, start := e.2.2 - torOf s }
  sendPlan { s with members := { s.members with
    planSeq := s.members.planSeq + 1, plan := es, plans := es.foldl (fun ps e => addEntry e ps) s.members.plans } }

/-- The leader plans a stage, and sends the plan to every member (R78). -/
def planStage (stage layer : Nat) (start : Ns) (s : State) : State := planStages [(stage, layer, start)] s

/-- A planned start is taken: a stage that runs again for its layer needs a plan of its own. -/
def dropPlan (stage layer : Nat) (s : State) : State :=
  { s with members := { s.members with plans := s.members.plans.filter fun e => !(e.stage = stage && e.layer = layer) } }

def memberOf (s : State) (m : Nat) : Member := unit s.members.list m .reset

/-- A flag stands in the latest report of every other member. -/
def allReport (s : State) (bitNo : Nat) : Bool := (otherMembers s).all fun m => bit (memberOf s m).repFlags bitNo

/-- A flag stands in the latest report of some other member. -/
def someReport (s : State) (bitNo : Nat) : Bool := (otherMembers s).any fun m => bit (memberOf s m).repFlags bitNo

/-- The profile's duration of a stage in ns. -/
def stageNs (s : State) (stage : Nat) : Nat :=
  let p := s.prof.plan
  1000000 * (match stage with
    | 3 => p.postImageMs
    | 5 => p.recoatMs
    | 6 => p.settleMs
    | 7 => p.bedImageMs
    | 8 => p.armMs
    | _ => 0)

/-- The leader plans a stage for 2 ms ahead; with ARM it sends L, the end of ARM (R63, R78). -/
def leaderPlan (stage layer : Nat) (s : State) : State :=
  let start := tickAt (s.now + 2000000)
  planStages ((stage, layer, start) :: (if stage = 8 then [(2, layer, tickAt (start + stageNs s 8))] else [])) s

/-- A stage begins: at once in a job of one module; in a MACHINE_JOB at the start that the leader's plan gives it, which
the leader makes once `ready` holds (R78). -/
def atPlan (stage layer : Nat) (ready : State → Bool) (act : Ns → State → State) (s : State) : State :=
  if !machineJob s then act s.now s
  else
    match plannedStart s stage layer with
    | some t => if t ≤ s.now then act t (dropPlan stage layer s) else s
    | none => if isLeader s && ready s && !s.members.peerHold && !s.members.lossHold then leaderPlan stage layer s else s

/-! ### Ending a layer (R31, R58, R66) -/

/-- A queued layer ends with ABORTED_HOST or another status, its status block first (R58, R61). -/
def abortLayer (st : Nat) (x : Layer) (s : State) : State :=
  let x := stoppedLanes s x
  let x := if s.jobs.exposed == some x.index then { x with lanes := x.lanes.map fun e =>
    (e.1, { e.2 with holdNs := (laneOf s e.1).holdNs }) } else x
  let s := writeStatus x s
  let s := setJobs (fun j => { j with
    layers := j.layers.filter fun y => y.index != x.index, checks := j.checks.filter fun i => i != x.index }) s
  endWith x.ref st s

/-- The layer in question completes (R31): its status block is written, then its LAYER_QUEUE completes. -/
def completeLayer (i st : Nat) (s : State) : State :=
  match layerOf s i with
  | none => s
  | some x =>
    let x := stoppedLanes s x
    let x := { x with lanes := x.lanes.map fun e =>
      (e.1, { e.2 with holdNs := if e.2.endState = 3 then 0 else (laneOf s e.1).holdNs }) }
    let s := writeStatus x s
    let s := setJobs (fun j => { j with
      layers := j.layers.filter fun y => y.index != i, done := some i, exposed := none, completing := none,
      unstarted := false, repair := false, syncs := [], table := if x.newPset then x.psetTable else j.table }) s
    endWith x.ref st s

/-- Every lane of a layer has reached END. -/
def allEnded (x : Layer) : Bool := x.laneList.all fun l => (layerLane x l).any fun e => e.endState == 1

/-- LAYER_COMPLETION (R31): once the exposure has ended and every record is in Basin. -/
def layerCompletion (s : State) : State :=
  match s.jobs.completing with
  | none => s
  | some i =>
    match layerOf s i with
    | none => s
    | some x => completeLayer i (if allEnded x then stDone else stDoneNote) s

/-- Results of a layer still wait for their last samples (R155). -/
def tailsOpen (s : State) : Bool := s.lanes.any fun x => !x.tail.isEmpty

/-- A layer that the job policy holds completes as its resume gives (R31, R68, R69). -/
def policyHold (s : State) : Bool := [1, 2, 3].contains s.jobs.holdAfter

/-- In POST_IMAGE the completion of the layer is due once every record of the layer is in Basin. -/
def completionDue (s : State) : State :=
  if s.jobs.state == 3 && s.jobs.completing.isNone && !policyHold s && !tailsOpen s then
    setJobs (fun j => { j with completing := j.exposed }) s
  else s

/-- A layer in POST_IMAGE completes now, with what its last records hold. -/
def layerSettle (s : State) : State :=
  layerCompletion (completionDue ((allLanes s).foldl (fun s l => writeTail l s) s))

def execLayerCompletion (t : Ns) (s : State) : Host.Outcome State Fault Refusal := .next (layerCompletion (passTo t s))

/-! ### Lanes of a layer -/

/-- A lane of the job goes to IDLE with its beam off (R66, R67, R96). -/
def laneToRest (l : Nat) (s : State) : State :=
  let ln := laneOf s l
  if ln.state.active then stopLane l .idle (flushCut l (faultIndexAt ln s.now) s)
  else if ln.state = .fault then leaveFault l s
  else stopLane l ln.state s

/-- A lane that LANE_REENABLE has taken out of the excluded set takes part from the layer that is bound now, where its node
is present (R76). -/
def takeBack (l : Nat) (s : State) : State :=
  if !s.jobs.excluded.getLsbD l && (beamNode s l).isSome then setLane l (fun x => { x with excluded := false }) s else s

/-- A layer is bound to the free slot of each lane (R30, R65). -/
def bindLayer (i : Nat) (s : State) : State :=
  match layerOf s i with
  | none => s
  | some x =>
    if x.bound || !x.passed then s
    else setLayer i (fun x => { x with bound := true }) (x.laneList.foldl (fun s l => takeBack l s) s)

/-- The stream of a layer on a lane. -/
def streamRef (i : Nat) (e : LayerLane) (first : Nat) : StreamRef :=
  { key := i, addr := e.streamAddr, count := e.count, result := e.resultAddr, raw := e.rawAddr, rawKiB := e.rawKiB,
    first := first, checked := e.checked }

/-- Fetch of a bound layer begins (R30, R65, R98), once: each lane loads its sets (R56). -/
def beginFetch (i : Nat) (s : State) : State :=
  match layerOf s i with
  | none => s
  | some x =>
    if x.fetched then s
    else
      let table := tableFor s i
      setLayer i (fun x => { x with fetched := true }) (x.laneList.foldl (fun s l =>
        match layerLane x l with
        | some e => if (laneOf s l).excluded then s else beginStream l (streamRef i e 0) table .start .start s
        | none => s) s)

/-- The record number of the ghost move of a repair exposure: none has index 0. -/
def ghostVec (x y : Int) : Vec := .jump x y 0 { power := none, speed := none, cornerStop := true }

/-- A lane begins its part of a repair exposure (R75): a beam-off move to the start of its FAULT_INDEX vector, under the
settings in force there, and then the rest of its stream. -/
def beginRepair (i l : Nat) (e : LayerLane) (s : State) : State :=
  match e.resumeAt with
  | none => beginStream l (streamRef i e 0) (tableFor s i) .start .start s
  | some (cur, staged, x, y) =>
    let s := beginStream l (streamRef i e e.index) (tableFor s i) cur staged s
    let ln := laneOf s l
    if (ln.planX, ln.planY) = (x, y) then s
    else
      let r := (makeRec s l { ln with cur := cur, staged := cur } { index := 0, bytes := List.replicate 32 0, bad := none }
        (ghostVec x y) none).2
      setLane l (fun n => { n with
        plan := [{ r with ghost := true, idx := e.index }], planX := x, planY := y }) s

/-! ### Holds (R68, R73, R74) -/

/-- The time in STARVED is counted as the job leaves it (R93). -/
def leaveStarved (s : State) : State :=
  if s.jobs.state == 4 then
    recExtreme 29 ((s.now - s.jobs.starvedAt) / 1000000 : Nat) (nextIndex s % 65536)
      (setJobs (fun j => { j with starvedNs := j.starvedNs + (s.now - j.starvedAt) }) s)
  else s

/-- The job enters HELD (R62). `resume` is where CONTINUE goes on: a stage, 16 for a hold as POST_IMAGE begins (R433), or 17
for a recoat that is to be repeated (R72, R73). A policy hold that is still due is kept (R68). -/
def enterHeld (cause resume : Nat) (s : State) : State :=
  let s := leaveStarved s
  let refs := s.jobs.holdAsked
  let s := setJobs (fun j => { j with
    state := 10, cause := BitVec.ofNat 4 cause, stageEnd := none, resumeState := resume, holdAsked := []
    holdAfter := if cause = j.holdAfter || j.holdAfter = 5 then 0 else j.holdAfter
    resumeOk := false, final := false }) s
  let s := calStage (withdraw (fun w => match w with | .layerStart _ => true | _ => false) s)
  let s := raise 0x3004 (natLE 1 cause) s
  let s := refs.foldl (fun s r => endWith r stDone s) s
  report false false s

/-- The job leaves HELD, where it is there: JOB_RESUMED is raised and JOB_RESUME completes (R74). -/
def leaveHeld (s : State) : State :=
  if s.jobs.state != 10 then s
  else
    let refs := s.jobs.resumeRefs
    let s := setJobs (fun j => { j with cause := 0, resumeRefs := [], resumeOk := false, resuming := false }) s
    let s := raise 0x3005 [] { s with members := { s.members with peerHold := false, lossHold := false } }
    refs.foldl (fun s r => endWith r stDone s) s

/-- A hold asked by the host or forced by a peer (R73, R79). -/
def holdWanted (s : State) : Option Nat :=
  if !s.jobs.holdAsked.isEmpty then some 5 else if machineJob s && s.members.peerHold then some 6 else none

/-- What holds the job before a stage of a layer: a hold, or, after the loss of the leader or of a member, that no plan for the stage has been
received (R351). -/
def holdAt (stage layer : Nat) (s : State) : Option Nat :=
  match holdWanted s with
  | some c => some c
  | none => if machineJob s && s.members.lossHold && (plannedStart s stage layer).isNone then some 6 else none

/-! ### The end of a job (R66, R67) -/

/-- Everything that the job still holds ends; `heldSt` is the status of a layer held by the job policy. -/
def endJob (s : State) : State :=
  let heldBy := s.jobs.state == 10 && [1, 2, 3].contains s.jobs.cause.toNat
  let s := leaveStarved s
  let s := layerSettle s
  let held := s.jobs.exposed
  let s := withdraw (fun w => match w with | .layerStart _ => true | .syncRelease _ => true | _ => false) s
  let running := (allLanes s).any fun l => (laneOf s l).state.active
  let s := if running then killAll s else s
  let s := (allLanes s).foldl (fun s l => writeTail l (laneToRest l s)) s
  let s := s.jobs.layers.foldl (fun s x =>
    abortLayer (if heldBy && held == some x.index then stAbFault else stAbHost) x s) s
  let s := (allLanes s).foldl (fun s l => (laneOf s l).marks.foldl (fun s m => endWith m.ref stAbHost s) s) s
  let s := leaveHeld s
  let j := s.jobs
  let clear := fun x : Lane => { x with
    marks := [], excluded := false, reenable := false, ovrMark := none, ovrJump := none, deferMark := none,
    deferJump := none, deferFrom := none, noData := false, tailMark := none }
  let s := { s with lanes := s.lanes.map clear }
  let s := { s with members := { s.members with plan := [], plans := [], peerHold := false, lossHold := false } }
  let s := scriptStop (calJobEnd s)
  -- nodes lost during the job wait for no rejoining any more
  let s := { s with link := { s.link with ports := s.link.ports.map fun q => { q with
    nodes := q.nodes.map fun n : Node => { n with lost := false } } } }
  let s := setJobs (fun j => { j with
    state := 0, cause := 0, header := none, startRef := none, layers := [], checks := [], failed := [], exposed := none,
    unstarted := false, exposeDone := false, completing := none, stageEnd := none, final := false, holdAsked := [],
    endAsked := false, endRefs := [], holdAfter := 0, repeated := false, defect := false, acceptBed := false,
    repair := false, resumeRefs := [], resumeOk := false, resuming := false, bedDue := [], lineTrigger := none, products := [], syncs := [],
    tor := none }) s
  let s := calStage s
  let s := raise 0x3006 [] (timeJobEnd s)
  let s := match j.startRef with | some r => endWith r stAbHost s | none => s
  let s := j.holdAsked.foldl (fun s r => endWith r stAbHost s) s
  let s := j.resumeRefs.foldl (fun s r => endWith r stAbHost s) s
  j.endRefs.foldl (fun s r => endWith r stDone s) s

/-! ### Stages (R24, R63) -/

/-- A stage begins at `t` and lasts the profile's duration. -/
def setStage (stage layer : Nat) (t : Ns) (s : State) : State :=
  let s := leaveHeld s
  report false false (calStage (setJobs (fun j => { j with
    state := BitVec.ofNat 4 stage, stageEnd := some (t + stageNs s stage), layerIndex := BitVec.ofNat 32 layer }) s))

/-- SETTLE begins: Mere is to blend at its next step (R170). -/
def settleBegins (t : Ns) (s : State) : State :=
  { setStage jsSettle (nextIndex s) t s with mere := { s.mere with settle := some t } }

/-- BED_IMAGE begins with its capture plan (R433); a port in another mode is a recoat defect. -/
def bedBegins (t : Ns) (s : State) : State :=
  let s := setStage jsBed (nextIndex s) t (setJobs (fun j => { j with defect := false, bedDue := [] }) s)
  let (s, ok) := camStageBegin jsBed (nextIndex s) t s
  if ok then s else enterHeld 4 jsSettle s

/-- L is planned anew for every lane of the layer: its verdicts are asked again. -/
def replanAll (s : State) : State :=
  (allLanes s).foldl (fun s l =>
    let ln := laneOf s l
    if ln.plan.isEmpty || !inLayer s l then s
    else
      let ps := ln.plan.map fun r => { r with fixed := false, verdict := .none }
      setLane l (fun x => { x with
        plan := replanList (torOf s) s.jobs.l noCap s.jobs.l ps, gridNext := s.jobs.l, hold := none }) s) s

/-- L is set (R63, R64). -/
def setL (l : Ns) (s : State) : State :=
  replanAll (setJobs (fun j => { j with l := l, nextL := some (l - j.tor.getD 0), stageEnd := some l }) s)

/-- The lanes of the layer that are to run: not excluded and not at an end already. -/
def runLanes (s : State) : List Nat :=
  match theLayer s with
  | none => []
  | some x => x.laneList.filter fun l => !(laneOf s l).excluded && (layerLane x l).any fun e => e.endState == 0

/-- The layer is not started (R64, R70): the job enters HELD straight from ARM; faulted lanes leave FAULT. -/
def armHold (s : State) : State :=
  let cause := s.jobs.holdAfter
  let s := (allLanes s).foldl (fun s l => leaveFault l s) s
  enterHeld cause jsArm (setJobs (fun j => { j with unstarted := true }) s)

/-- A lane of the layer whose node is absent when ARM starts stays OFF, with NODE_LOST at index 0 (R70); a lane that is
excluded has END_STATE EXCLUDED. -/
def armLane (l : Nat) (s : State) : State :=
  match s.jobs.exposed with
  | none => s
  | some i =>
    if (laneOf s l).excluded then setLayerLane i l (fun e => if e.endState = 0 then { e with endState := 3 } else e) s
    else if (beamNode s l).isNone then faultOff l fcNodeLost 0 0 s
    else s

/-- ARM begins (R63): L is the end of ARM, and the lanes fill their windows. -/
def armBegins (i : Nat) (t : Ns) (s : State) : State :=
  let s := setStage jsArm i t (setJobs (fun j => { j with
    exposed := some i, final := false, late := 0, exposeDone := false }) s)
  let l := tickAt (match plannedStart s jsExpose i with | some x => x | none => t + stageNs s jsArm)
  let s := setL l s
  let lanes := match layerOf s i with | some x => x.laneList | none => []
  let s := if s.jobs.repair then s else lanes.foldl (fun s l => armLane l s) s
  if policyHold s then armHold s else (allLanes s).foldl (fun s l => tryArm l s) s

/-- RECOAT begins (R26, R30, R400): fetch of the bound layer begins with it, once. -/
def recoatBegins (repeats : Bool) (t : Ns) (s : State) : State :=
  let i := nextIndex s
  let s := setStage jsRecoat i t (setJobs (fun j => { j with repeated := repeats }) s)
  let s := beginFetch i (bindLayer i s)
  scriptBegin repeats s

/-- STARVED (R26, R65); with cause PEER where only the machine waits for another module's layer (R79). -/
def starve (t : Ns) (s : State) : State :=
  let s := leaveHeld s
  let cause : BitVec 4 := if nextReady s then 6 else 0
  raise 0x3001 [] (report false false (calStage (setJobs (fun j => { j with
    state := 4, stageEnd := none, starvedAt := t, cause := cause }) s)))

/-- The start stages of a BUILD job (R63): RECOAT only where INITIAL_RECOAT is set, else BED_IMAGE, with which the fetch
of the first layer begins. -/
def startStages (t : Ns) (s : State) : State :=
  let i := nextIndex s
  if (jobHeader s).any fun h => h.initialRecoat then recoatBegins false t s
  else bedBegins t (beginFetch i (bindLayer i s))

/-- What follows POST_IMAGE, or a layer that has been completed from HELD: the end of the job, RECOAT or STARVED (R26,
R66). -/
def goOn (s : State) : State :=
  let n := nextIndex s
  let others := someReport s 1 || someReport s 2
  if s.jobs.endAsked then endJob (leaveHeld s)
  else if nextReady s then
    if machineJob s && s.jobs.state != 4 && ((isLeader s && others) || (plannedStart s jsStarved n).isSome) then
      atPlan jsStarved n (fun _ => true) starve s
    else
      atPlan jsRecoat n (fun s => !(someReport s 1 || someReport s 2))
        (fun t s =>
          let s := setJobs (fun j => { j with cause := 0 }) (leaveStarved s)
          if s.jobs.done.isNone then startStages t s else recoatBegins false t s) s
  else if s.jobs.state == 4 then s
  else
    -- a module that starves says so at once; the leader then puts the others into STARVED (R79)
    let s := starve s.now s
    if machineJob s && isLeader s then planStage jsStarved n (tickAt (s.now + 2000000)) s else s

/-- POST_IMAGE has ended (R66, R68, R73). -/
def postEnds (s : State) : State :=
  if policyHold s then enterHeld s.jobs.holdAfter jsRecoat s
  else
    let s := layerSettle s
    match (if (plannedStart s jsStarved (nextIndex s)).isSome then holdWanted s else holdAt jsRecoat (nextIndex s) s) with
    | some c => if s.jobs.endAsked then endJob s else enterHeld c jsRecoat s
    | none => goOn s

/-- RECOAT has ended: it lasts until every script move has completed (R401). -/
def recoatEnds (e : Ns) (s : State) : State :=
  if !scriptDone s then s
  else
    let (k, t) := scriptLast s
    let s := if e < t then raise 0x8003 (natLE 1 k ++ natLE 4 ((t - e) / 1000000)) s else s
    let s := scriptStop s
    match holdAt jsSettle (nextIndex s) s with
    | some c => enterHeld c jsSettle s
    | none => atPlan jsSettle (nextIndex s) (fun _ => true) settleBegins s

/-- A recoat defect (R72, R401): `mayRepeat` for one that BED_IMAGE shows. -/
def recoatDefect (mayRepeat : Bool) (s : State) : State :=
  let s := raise 0x3008 [] s
  let once := match jobHeader s with | some h => h.repeatOnce | none => false
  if mayRepeat && once && !s.jobs.repeated then
    match holdWanted s with
    | some c => enterHeld c 17 s
    | none => atPlan jsRecoat (nextIndex s) (fun _ => true) (fun t s => recoatBegins true t s) s
  else enterHeld 4 jsSettle s

/-- A script move has ended in anything but DONE, or cannot start (R401). -/
def scriptDefect (s : State) : State :=
  if s.jobs.state == 5 then recoatDefect false (scriptStop s) else s

/-- BED_IMAGE has ended and is judged once the statistics of every due frame are there (R440, R72). -/
def bedEnds (s : State) : State :=
  if !s.jobs.bedDue.isEmpty then s
  else if s.jobs.defect && !s.jobs.acceptBed then recoatDefect true s
  else
    let s := setJobs (fun j => { j with acceptBed := false, repeated := false }) s
    match holdAt jsArm (nextIndex s) s with
    | some c => enterHeld c jsArm s
    | none => atPlan jsArm (nextIndex s) (fun _ => true) (fun t s => armBegins (nextIndex s) t s) s

/-- EXPOSE begins at L (R25, R30): the next layer is bound where it has passed validation. -/
def exposeBegins (s : State) : State :=
  let i := s.jobs.exposed.getD 0
  let s := dropPlan jsExpose i (setJobs (fun j => { j with state := 2, stageEnd := none, layerIndex := BitVec.ofNat 32 i }) s)
  report false false (bindLayer (i + 1) s)

/-- ARM has ended (R63, R71, R73): EXPOSE where the layer start is scheduled, PERMIT_WAIT while a permit is low, HELD. -/
def armEnds (s : State) : State :=
  if s.jobs.final then exposeBegins s
  else if policyHold s then armHold s
  else
    match holdWanted s with
    | some c => enterHeld c jsArm s
    | none =>
      if !permitOk s then
        raise 0x300A [] (report false false (calStage (setJobs (fun j => { j with state := 9, stageEnd := none }) s)))
      else s

/-- STAGE_END (R63): the duration of the stage in progress has ended. -/
def stageEnd (s : State) : State :=
  match s.jobs.stageEnd with
  | none => if s.jobs.state == 4 then goOn s else s
  | some e =>
    if s.now < e then s
    else
      match jobState s with
      | 3 => postEnds s
      | 5 => recoatEnds e s
      | 6 =>
        (match holdAt jsBed (nextIndex s) s with
          | some c => enterHeld c jsBed s
          | none => atPlan jsBed (nextIndex s) (fun _ => true) bedBegins s)
      | 7 => bedEnds s
      | 8 => armEnds s
      | _ => s

/-! ### ARM (R64, R80) -/

/-- L moves 1 ms later (R64). -/
def postpone (s : State) : State :=
  let s := setJobs (fun j => { j with late := j.late + 1, lateMs := satInc j.lateMs }) s
  raise 0x3003 [] (setL (s.jobs.l + 1000000) s)

/-- The leader moves L 1 ms later for every member (R80). -/
def leaderPostpone (s : State) : State := postpone (planStage jsExpose (s.jobs.exposed.getD 0) (s.jobs.l + 1000000) s)

/-- The Ripple layer start is scheduled at L − T_lead (R27); with no place free L moves on, in a MACHINE_JOB by its leader (R240). -/
def postLayerStart (s : State) : State :=
  let i := s.jobs.exposed.getD 0
  if ripplePlace (.layerStart i) s then
    setJobs (fun j => { j with final := true }) (postOwn (.layerStart i) (s.jobs.l - tLead s) s)
  else if !machineJob s then postpone s
  else if isLeader s then leaderPostpone s
  else report true false s

/-- The lanes of the layer that are not ARMED. -/
def notArmed (s : State) : List Nat := (runLanes s).filter fun l => (laneOf s l).state != .armed

/-- ARM_CHECK (R64), at L − T_lead − 1 ms. -/
def armCheck (s : State) : State :=
  let j := s.jobs
  if j.state != 8 || j.final || s.now + tLead s + 1000000 < j.l then s
  else if policyHold s then armHold s
  else if (holdWanted s).isSome || !permitOk s then s
  else if (notArmed s).isEmpty then postLayerStart s
  else if machineJob s then s
  else if j.late < 1000 then postpone s
  else
    let s := (notArmed s).foldl (fun s l => armLateFault l s) s
    if policyHold s then armHold s else postLayerStart s

def execArmCheck (t : Ns) (s : State) : Host.Outcome State Fault Refusal := .next (armCheck (passTo t s))

/-- MEMBER_ARM_CHECK (R80), at L − T_lead − 3 ms: a member reports lanes that are not ARMED, the leader moves L, and after
1 s of postponement a lane faults. -/
def memberArmCheck (s : State) : State :=
  let j := s.jobs
  if !j.machine || j.state != 8 || j.final || s.now + tLead s + 3000000 < j.l || (notArmed s).isEmpty then s
  else if 1000 ≤ j.late then
    let s := (notArmed s).foldl (fun s l => armLateFault l s) s
    if policyHold s then armHold s else report false false s
  else if isLeader s then leaderPostpone s
  else report true false s

def execMemberArmCheck (t : Ns) (s : State) : Host.Outcome State Fault Refusal := .next (memberArmCheck (passTo t s))

/-! ### The layer start (R27) -/

/-- A lane's stream has a motion record that its window does not hold yet. -/
def motionBeyond (ln : Lane) : Bool :=
  ln.stream.any fun st => (st.checked.drop (st.first + ln.plan.length)).any fun b =>
    match readVec b with | .ok v => v.isMotion | .error _ => false

/-- A lane at the Ripple layer start: RUNNING where its first motion record holds GO or its stream has none, else HOLD. Standstill
records before that record pass in HOLD, and the record asks for its verdict at its own time (log 192). -/
def startLane (l : Nat) (s : State) : State :=
  let ln := laneOf s l
  if ln.state != .armed then s
  else
    let first := (ln.plan.filter fun r => !r.passes).find? fun r => takesVerdict ln.plan r
    let whole := !s.jobs.repair
    let s := setLane l (fun x => { x with
      holdNs := if whole then 0 else x.holdNs, fePeak := if whole then 0 else x.fePeak, readFe := if whole then 0 else x.readFe
      feSince := none, gridNext := s.jobs.l, rawBlocks := if whole then 0 else x.rawBlocks
      rawSeq := if whole then 0 else x.rawSeq
      loop := if whole then { x.loop with rawFull := false } else x.loop }) s
    match first with
    | none =>
      setLane l (fun x => { x with state := if motionBeyond ln then .hold else .running }) s
    | some r =>
      if r.verdict == .go then setLane l (fun x => { x with state := .running }) s
      else if (ln.plan.filter fun x => !x.passes).head?.any fun x => x.idx != r.idx then
        setLane l (fun x => { x with state := .hold }) s
      else
        let planned := r.start
        setLane l (fun x => { x with
          state := .hold
          hold := some { idx := r.idx, since := s.now, planned := planned, stands := s.now, warned := false }
          plan := x.plan.map fun y => if y.idx = r.idx then { y with verdict := .held, held := true, fixed := true } else y }) s

/-- LAYER_START (R27): every lane of the layer starts. -/
def layerStart (i : Nat) (s : State) : State :=
  match layerOf s i with
  | none => s
  | some x =>
    let first := match jobHeader s with | some h => h.first | none => 0
    x.laneList.foldl (fun s l =>
      startLane l (setLane l (fun n => { n with slot := decide ((i - first) % 2 = 1) }) s)) s

/-! ### The end of the exposure (R25) -/

/-- The mask of a LAST layer, or a JOB_END, is noted, and POST_IMAGE begins (R63, R96): faulted lanes leave FAULT, the
closing field is to be saved (R174), the layer cameras run (R433). The layer completes once its last records are written. -/
def postBegins (t : Ns) (s : State) : State :=
  match s.jobs.exposed with
  | none => s
  | some i =>
    let x := layerOf s i
    let s := setStage jsPost i t s
    let s := (allLanes s).foldl (fun s l => leaveFault l s) s
    let s := setJobs (fun j => { j with
      endAsked := j.endAsked || x.any Layer.last, completing := if policyHold s || tailsOpen s then none else some i }) s
    let s := if x.any Layer.saveMere then
        let sv : Saving := { layer := i, slot := 0, tag := 0, ref := none, due := t, copied := none, resume := 0, result := none }
        { s with mere := { s.mere with saves := s.mere.saves ++ [sv] } } else s
    let (s, ok) := camStageBegin jsPost i t s
    if ok then s else enterHeld 4 16 (layerSettle s)

/-- EXPOSE_END (R25): the last lane of the layer has left RUNNING and HOLD. In a MACHINE_JOB EXPOSE ends when the
exposures of all modules have ended (R79). -/
def exposeEnd (s : State) : State :=
  match theLayer s with
  | none => s
  | some x =>
    let going := x.laneList.any fun l => (laneOf s l).state.active
    if s.jobs.state != 2 || going then s
    else
      let s := if s.jobs.exposeDone then s else report false false (setJobs (fun j => { j with exposeDone := true }) s)
      if s.members.lossHold && (plannedStart s jsPost x.index).isNone then enterHeld 6 jsPost s
      else atPlan jsPost x.index (fun s => allReport s 0) postBegins s

def execExposeEnd (t : Ns) (s : State) : Host.Outcome State Fault Refusal := .next (exposeEnd (passTo t s))

/-! ### BEAM_PERMIT (R71, R588, R589) -/

/-- The lanes that are emitting or may emit fault with PERMIT; PERMIT_LOST is raised in EXPOSE also where the lanes of this
module have ended (R79), and the hold follows the layer whatever FAULT_POLICY
says (R71). -/
def permitFaults (s : State) : State :=
  let ls := (allLanes s).filter fun l =>
    let x := laneOf s l
    (x.faultable s.now && x.state != .armed) || (x.state = .fault && x.faultAt == some s.now)
  if ls.isEmpty && s.jobs.state != 2 then s
  else
    let s := faultAll 512 (ls.map fun l => (l, fcPermit, 0, none)) s
    let s := raise 0x3009 [] s
    if s.jobs.line then s else setJobs (fun j => { j with holdAfter := 3 }) s

/-- BEAM_PERMIT_LOW: input A or B has gone low (R71, R588). -/
def permitLow (inputB : Bool) (s : State) : State :=
  let was := if inputB then s.permit.b else s.permit.a
  let s := { s with permit := { s.permit with
    a := if inputB then s.permit.a else false, b := if inputB then false else s.permit.b, high := false,
    lowEvents := if was then satInc s.permit.lowEvents else s.permit.lowEvents
    disagree := s.permit.disagree && ((if inputB then s.permit.a else false) != (if inputB then false else s.permit.b)) } }
  let s := calPermitLow (if was then killAll s else s)
  let running := (allLanes s).any fun l => let x := laneOf s l; x.faultable s.now && x.state != .armed
  if running || s.jobs.state == 2 then permitFaults s
  else if s.jobs.state == 8 && s.jobs.final then
    -- the layer start is withdrawn, and ARM ends in PERMIT_WAIT
    setJobs (fun j => { j with final := false }) (withdraw (fun w => match w with | .layerStart _ => true | _ => false) s)
  else s

def execBeamPermitLow (t : Ns) (inputB : Bool) (s : State) : Host.Outcome State Fault Refusal :=
  .next (permitLow inputB (passTo t s))

/-- PERMIT_RESTORED (R589): both inputs have been high for 10 ms; LASER_EN is set in the next SOC, and a job in
PERMIT_WAIT takes a new L 10 ms later (R71). -/
def permitRestored (s : State) : State :=
  let s := { s with permit := { s.permit with a := true, b := true, high := true, disagree := false } }
  if s.jobs.state == 9 then
    let s := setJobs (fun j => { j with state := 8, final := false, late := 0 }) s
    let s := (allLanes s).foldl (fun s l => tryArm l s) s
    if machineJob s then
      (if isLeader s then setL (tickAt (s.now + 10000000))
        (planStage jsExpose (s.jobs.exposed.getD 0) (tickAt (s.now + 10000000)) s) else setL (tickAt (s.now + 10000000)) s)
    else setL (tickAt (s.now + 10000000)) s
  else s

def execPermitRestored (t : Ns) (s : State) : Host.Outcome State Fault Refusal := .next (permitRestored (passTo t s))

/-- PERMIT_DISAGREE (R589): the inputs have differed for 50 ms; `a` and `b` are their levels. -/
def permitDisagree (a b : Bool) (s : State) : State :=
  if a = b then s
  else { s with permit := { s.permit with
    a := a, b := b, high := false, disagree := true,
    disagreeEvents := if s.permit.disagree then s.permit.disagreeEvents else satInc s.permit.disagreeEvents } }

def execPermitDisagree (t : Ns) (a b : Bool) (s : State) : Host.Outcome State Fault Refusal :=
  .next (permitDisagree a b (passTo t s))

end Sys2Proof.Machine
end

