-- ==== Sys2Proof/Machine/Line.lean ====
section
/-! DEFINITION. LINE jobs (R85 to R92): products, marks and their records, and the end of a lane's stream (R97). -/

namespace Sys2Proof.Machine

/-- LANE_DELAY of a lane. -/
def laneDelay (s : State) (l : Nat) : Nat := match jobHeader s with | some h => unit h.delays l 0 | none => 0

/-- The encoder channel of a LINE job. -/
def trigEncoder (s : State) : Nat := match jobHeader s with | some h => h.trigEncoder | none => 0

/-- S of a product on a lane (R87). -/
def markCount (s : State) (l : Nat) (p : Product) : Int := p.count + (laneDelay s l : Int)

/-- The count has reached S of a product on a lane. -/
def reached (s : State) (l : Nat) (p : Product) : Bool :=
  decide (65536 * markCount s l p ≤ encPredict s (trigEncoder s) s.now)

/-- Product k, while its mark record has not been written. -/
def productOf (s : State) (k : Nat) : Option Product := s.jobs.products.find? fun p => p.k = k

/-- A lane has settled product k, or its S has been reached (R86). -/
def settled (s : State) (l k : Nat) : Bool :=
  decide (k < s.jobs.markWritten) || (productOf s k).any fun p => p.done.getLsbD l || reached s l p

/-- The lanes of the job. -/
def jobLanes (s : State) : List Nat :=
  match jobHeader s with | some h => (List.range 128).filter fun l => h.lanes.getLsbD l | none => []

/-- The mark of the lowest product waits in the lane's buffer, fetched and planned ahead of its S. -/
def stageMark (l : Nat) (s : State) : State :=
  let ln := laneOf s l
  if s.jobs.state != 11 || ln.state != .idle || ln.marking.isSome then s
  else
    match ln.marks.foldl (fun (m : Option Mark) x => match m with
      | none => some x
      | some y => if x.product < y.product then some x else m) none with
    | none => s
    | some m =>
      if ln.stream.any fun st => st.key = m.product then s
      else
        let st : StreamRef := { key := m.product, addr := m.addr, count := m.count, result := m.result, raw := 0,
                                rawKiB := 0, first := 0, checked := m.checked }
        let table := match jobHeader s with | some h => h.psetTable | none => 0
        setLane l (fun x => { x with records := 0 }) (beginStream l st table .start .start s)

/-- A trigger defines a product (R85); while the job is HELD every lane skips it (R91). -/
def newProduct (count : Int) (s : State) : State :=
  if !s.jobs.line || !(s.jobs.state == 11 || s.jobs.state == 10) then s
  else
    let k := s.jobs.nextProduct
    let held := s.jobs.state == 10
    let p : Product := { k := k, count := count, time := s.now, held := held, done := 0, skipped := 0, flags := 0 }
    let s := setJobs (fun j => { j with
      products := j.products ++ [p], nextProduct := k + 1, layerIndex := BitVec.ofNat 32 k }) s
    if held then
      raise 0x3010 (natLE 1 0xFF ++ natLE 4 k ++ natLE 1 5) ((jobLanes s).foldl (fun s l => skipMark l k 5 false s) s)
    else s

/-- A trigger of the LINE job's source at this moment (R85). -/
def lineTrigger (source : Nat) (s : State) : State :=
  match jobHeader s with
  | some h => if s.jobs.line && h.trigSource = source then newProduct (encOf s h.trigEncoder).ext s else s
  | none => s

/-- The product number of the latest trigger of a LINE job that runs; all ones where there is none (R428). -/
def latestProduct (s : State) : Nat :=
  match jobHeader s with
  | some h => if s.jobs.line && decide (h.first < s.jobs.nextProduct) then s.jobs.nextProduct - 1 else noProduct
  | none => noProduct

/-- A mark begins (R87): its first set-point launches at the crossing time plus T_lead. -/
def beginMark (l : Nat) (k : Nat) (target : Int) (s : State) : State :=
  let start := tickAt (s.now + tLead s)
  let ln := laneOf s l
  let ps := ln.plan.map fun r => { r with fixed := false }
  let plan := (replanList (torOf s) s.jobs.l noCap start ps).map fun r => { r with fixed := r.verdict != .none }
  let s := setLane l (fun x => { x with
    plan := plan, marking := some (k, target), gridNext := start, holdNs := 0, fePeak := 0, readFe := 0, feSince := none
    noData := false }) s
  let first := (plan.filter fun r => !r.passes).find? fun r => takesVerdict plan r
  match first with
  | none => setLane l (fun x => { x with state := .running }) s
  | some r =>
    -- standstill records before it pass first, and it asks for its verdict at its own time (R116)
    if r.verdict == .go || (plan.filter fun x => !x.passes).head?.any fun x => x.idx != r.idx then
      setLane l (fun x => { x with state := .running }) s
    else setLane l (fun x => { x with
        state := .hold
        hold := some { idx := r.idx, since := s.now, planned := r.start, stands := s.now, warned := false }
        plan := x.plan.map fun y => if y.idx = r.idx then { y with verdict := .held, held := true, fixed := true } else y }) s

/-- The lowest product that a lane has not settled and is not writing and whose S has been reached. -/
def dueProduct (s : State) (l : Nat) : Option Product :=
  s.jobs.products.find? fun p => !p.done.getLsbD l && !((laneOf s l).marking.any fun m => m.1 = p.k) && (laneOf s l).tailMark != some p.k && reached s l p

/-- MARK_START (R87, R88): the count reaches S of the lane's next product. -/
def markStart (l : Nat) (s : State) : State :=
  if s.jobs.state != 11 || !s.jobs.holdAsked.isEmpty || !((jobLanes s).contains l) then s
  else
    match dueProduct s l with
    | none => s
    | some p =>
      let back := (laneOf s l).reenable && (laneOf s l).state == .fault
      let s := setLane l (fun x => { x with reenable := false }) (if back then leaveFault l s else s)
      let s := stageMark l s
      let ln := laneOf s l
      if ln.state = .fault || ln.state = .off || (beamNode s l).isNone then skipMark l p.k 1 false s
      else if ln.marking.isSome || ln.state.active then skipMark l p.k 2 false s
      else if !(ln.marks.any fun m => m.product = p.k) then
        let s := if ln.noData then s else raise 0x3011 [] (setLane l (fun x => { x with noData := true }) s)
        skipMark l p.k 3 false s
      else beginMark l p.k (markCount s l p) s

/-- The mark record of R92. -/
def markRecord (tor : Ns) (p : Product) : List Byte :=
  let all := decide (p.skipped = 0) && !bit p.flags 4
  natLE 4 p.k ++ natLE 4 (p.flags + b1 all) ++ natLE 8 (p.time - tor) ++ natLE 16 p.skipped.toNat

/-- MARK_RECORD_WRITE (R92): the next product in order, once every lane of the job has written or skipped its mark. -/
def markRecordWrite (s : State) : State :=
  match jobHeader s, s.jobs.products with
  | some h, p :: rest =>
    if h.line && decide (p.k = s.jobs.markWritten) && ((jobLanes s).all fun l => p.done.getLsbD l) then
      let s := memWrite 32 (h.markAddr + 32 * (p.k % max 1 h.markCount)) (markRecord (torOf s) p) s
      setJobs (fun j => { j with
        products := rest, markWritten := p.k + 1, syncs := j.syncs.filter fun q => q.key != p.k }) s
    else s
  | _, _ => s

/-- The mark records that are complete are written. -/
def flushMarks (s : State) : State := s.jobs.products.foldl (fun s _ => markRecordWrite s) s

/-- Products that triggered before a hold and that a lane has not settled are skipped as those of the hold are, for lanes
write again only from the first product whose trigger follows the resume (R91). -/
def skipPending (s : State) : State :=
  s.jobs.products.foldl (fun s p =>
    let ls := (jobLanes s).filter fun l => !p.done.getLsbD l
    if ls.isEmpty then s
    else raise 0x3010 (natLE 1 0xFF ++ natLE 4 p.k ++ natLE 1 5) (ls.foldl (fun s l => skipMark l p.k 5 false s) s)) s

/-- LINE_RUN comes to its hold or its end once no lane writes a mark (R91). -/
def lineSettle (s : State) : State :=
  let busy := (allLanes s).any fun l => (laneOf s l).marking.isSome || (laneOf s l).state.active || (laneOf s l).tailMark.isSome
  if !s.jobs.line || busy then s
  else if s.jobs.state == 12 then endJob (flushMarks s)
  else if s.jobs.state == 11 && !s.jobs.holdAsked.isEmpty then enterHeld 5 jsLine (skipPending s)
  else s

/-- The records that waited for their last samples are written; the mark of a lane that has reached END is done then (R90), and a layer in
POST_IMAGE may complete (R31). -/
def closeTail (l : Nat) (s : State) : State :=
  let mark := (laneOf s l).tailMark
  let s := setLane l (fun x => { x with tailMark := none }) (writeTail l s)
  match mark with
  | some k => lineSettle (endMark l k stDone (settleProduct l k none false s))
  | none => completionDue s

def execMarkStart (t : Ns) (lane : Nat) (s : State) : Host.Outcome State Fault Refusal :=
  .next (lineSettle (markStart lane (passTo t s)))

def execMarkRecordWrite (t : Ns) (s : State) : Host.Outcome State Fault Refusal :=
  .next (lineSettle (markRecordWrite (passTo t s)))

/-! ### The end of a stream (R97) -/

/-- LANE_END (R97): the lane has reached END; its results are written, as soon as their samples are in (R31, R155). A mark completes with
DONE then (R90). -/
def laneEnd (l : Nat) (s : State) : State :=
  let s := settleLane l s
  if atEnd s.now (laneOf s l) then
    let mark := (laneOf s l).marking
    let i := faultIndexAt (laneOf s l) s.now
    let s := flushPlan l s
    let s := match s.jobs.exposed with
      | some i => if s.jobs.line then s else
          setLayerLane i l (fun e => { e with endState := 1, code := 0, index := 0 }) s
      | none => s
    let s := setLane l (fun x => { x with
      state := .idle, plan := [], buf := [], stream := none, hold := none, cut := false, stall := none, marking := none
      ended := some (s.now, i)
      loop := { x.loop with trim := 0, integ := 0, active := false } }) s
    let s := setLane l (fun x => { x with tailMark := mark.map fun m => m.1 }) s
    let s := if (laneOf s l).tail.isEmpty then closeTail l s else s
    if s.jobs.line then lineSettle (stageMark l s) else s
  else s

def execLaneEnd (t : Ns) (lane : Nat) (s : State) : Host.Outcome State Fault Refusal := .next (laneEnd lane (passTo t s))

/-! ### MARK_QUEUE (R86) -/

/-- The lowest product number that has no mark on the lane and whose S has not been reached there. -/
def nextUnassigned (s : State) (l : Nat) : Nat :=
  let n := s.jobs.markWritten
  let ks := (List.range (s.jobs.products.length + 66)).map fun i => n + i
  (ks.find? fun k => !settled s l k && !((laneOf s l).marks.any fun m => m.product = k)).getD n

/-- A mark stream that fails its checks (R86); in WAIT_START the first product's mark decides whether the job's marks can
be used at all (JOB_START of R34). -/
def badMark (r : Ref) (k : Nat) (s : State) : State :=
  let first := match jobHeader s with | some h => h.first | none => 0
  let s := endWith r stData s
  match s.jobs.startRef with
  | some sr => if k = first then endJob (endWith sr stData s) else s
  | none => s

/-- The SYNC records of the marks that other lanes hold for product k (R59, R86). -/
def markSyncs (s : State) (k l : Nat) : List SyncRec :=
  ((allLanes s).filter fun x => x != l).flatMap fun x =>
    ((laneOf s x).marks.filter fun m => m.product = k).flatMap fun m =>
      m.checked.zipIdx.filterMap fun b => match readVec b.1 with
        | .ok (.sync fc id ms ls) => some { lane := x, idx := b.2, id := id, lanes := ls, members := ms, fc := fc }
        | _ => none

/-- A mark with a SYNC of another module makes a JOB_START fail that waits without AT_TIME (R39). -/
def crossMark (cross : Bool) (s : State) : State :=
  match s.jobs.startRef, jobHeader s with
  | some sr, some h => if cross && h.atTime.isNone then endJob (endWith sr stParam s) else s
  | _, _ => s

/-- MARK_QUEUE (R86). -/
def startMarkQueue (r : Ref) (l product addr result count : Nat) (s : State) : State :=
  match jobHeader s with
  | none => endWith r stState s
  | some h =>
    let regionsOk := addr % 32 == 0 && decide (1 ≤ count) && decide (count ≤ 16777215) && hostMem addr (32 * count) s
      && result % 32 == 0 && (count == 1 || hostMem result (32 * (count - 1)) s)
      && !overlap (addr, 32 * count) (result, 32 * (count - 1))
    if !h.line || s.jobs.state == 12 then endWith r stState s
    else if s.variant.lanes ≤ l || !h.lanes.getLsbD l || !regionsOk then endWith r stParam s
    else if 64 ≤ (laneOf s l).marks.length then endWith r stBusy s
    else
      let any := decide (product = 0xFFFFFFFF)
      let k := if any then nextUnassigned s l else product
      if (laneOf s l).marks.any fun m => m.product = k then endWith r stParam s
      else if !any && k < h.first then endWith r stTimeout s
      else if !any && settled s l k then endWith r stTimeout s
      else
        let s := readPoison addr (32 * count) s
        let recs := streamBytes s addr count
        let sc := scanStream s { lane := l, line := true, table := h.psetTable, mask := h.lanes, addr := addr, count := count } recs
        let disagrees := sc.syncs.any fun y => (markSyncs s k l).any fun z => y.differs z
        if sc.error.isSome || disagrees then badMark r k s
        else
          let cross := sc.syncs.any fun y => y.members != 2 ^ s.prof.machine.member
          let s := crossMark cross s
          let m : Mark := { ref := r, product := k, addr := addr, result := result, count := count, checked := recs }
          stageMark l (park r (setLane l (fun x => { x with marks := x.marks ++ [m] }) s))

def execMarkQueue (h : Hdr) (lane product addr result count : Nat) (s : State) : Host.Outcome State Fault Refusal :=
  .next (postDescriptor (.markQueue h lane product addr result count) h 0x17
    (startMarkQueue h.ref lane product addr result count) s)

end Sys2Proof.Machine
end

