-- ==== Sys2Proof/Machine/JobCmds.lean ====
section
/-! DEFINITION. The job opcodes (R33 to R39, R67, R73 to R76, R91), validation's end (R60, R61) and the stage frames of a
machine job (R78 to R80, R348, R351). -/

namespace Sys2Proof.Machine

/-! ### The job header (R37) -/

def jobMagic : Nat := 0x424F4A43

/-- START_TIME as PTP time (R7). -/
def stampNs (b : List Byte) (off : Nat) : Ns := field b (off + 6) 6 * 1000000000 + field b (off + 2) 4

/-- The fields of a header. -/
def readJobHeader (b : List Byte) : JobHeader :=
  { line := field b 6 1 = 1, atTime := if field b 7 1 = 1 then some (stampNs b 12) else none, jobId := field b 8 4
    lanes := BitVec.ofNat 128 (field b 24 16), degraded := field b 40 1 = 1, repeatOnce := field b 41 1 = 1
    initialRecoat := bit (field b 42 1) 0, machine := bit (field b 42 1) 1, first := field b 44 4
    minLanes := field b 48 2, marginUs := if field b 50 2 = 0 then 50 else field b 50 2
    timeoutMs := if field b 52 4 = 0 then 100 else field b 52 4, psetTable := field b 56 8
    trigSource := field b 64 1, trigEncoder := field b 65 1, markWindow := field b 68 4, markAddr := field b 72 8
    markCount := field b 80 4, delays := (List.range 128).map fun l => field b (128 + 4 * l) 4 }

/-- START_TIME is a time that a job can start at: nanoseconds below 10⁹, and with AT_TIME a lane tick (R7, R215). -/
def startTimeOk (b : List Byte) : Bool :=
  decide (field b 14 4 < 1000000000) && (field b 7 1 != 1 || (field b 12 2 = 0 && field b 14 4 % 5 = 0))

/-- The fields of a LINE job (R37). -/
def lineFieldsOk (b : List Byte) (s : State) : Bool :=
  let h := readJobHeader b
  decide (h.trigSource ≤ 0x17) && decide (h.trigEncoder ≤ 15) && zeroIn b 66 67 && zeroIn b 84 127
    && decide (1 ≤ h.markWindow) && decide (h.markWindow < 2147483648)
    && (List.range' 6 15).any (fun k => h.markCount == 2 ^ k)
    && h.markAddr % 32 == 0 && hostMem h.markAddr (32 * h.markCount) s

/-- The header meets R37, R39, R215 and R600; no lane of it is fused off (R3). -/
def headerOk (b : List Byte) (s : State) : Bool :=
  let h := readJobHeader b
  field b 0 4 == jobMagic && field b 4 2 == 1 && decide (field b 6 1 ≤ 1) && decide (field b 7 1 ≤ 1)
    && startTimeOk b && !namesFused s h.lanes && decide (field b 40 1 ≤ 1) && decide (field b 41 1 ≤ 1)
    && decide (field b 42 1 < 4) && zeroIn b 43 43 && decide (h.minLanes ≤ 128)
    && decide (h.marginUs ≤ 1000) && decide (h.timeoutMs ≤ 10000)
    && h.psetTable % 4096 == 0 && hostMem h.psetTable 524288 s
    && (if h.line then lineFieldsOk b s else zeroIn b 64 639)
    && (!h.machine || h.atTime.isSome)

/-! ### When a job can start (R32, R38) -/

/-- A layer that has passed holds a SYNC with another module (R39). -/
def layerCross (s : State) (x : Layer) : Bool :=
  x.passed && x.lanes.any fun e => e.2.checked.any fun b =>
    match readVec b with
    | .ok (.sync _ _ m _) => m != 2 ^ s.prof.machine.member
    | _ => false

/-- A zone in force is shared with another module (R32). -/
def crossZones (s : State) : Bool :=
  s.prox.zones.any fun z => z.any fun z => z.enable && z.members.getLsbD s.prof.machine.member
    && z.members != BitVec.ofNat 8 (2 ^ s.prof.machine.member)

/-- Every module of the machine reports READY_SYNCED (R32, R349). -/
def allSynced (s : State) : Bool :=
  s.boot.readySynced && (otherMembers s).all fun m =>
    let x := memberOf s m
    x.state == 2 && x.last.any fun t => decide (s.now ≤ t + 300000000)

/-- R32 is met. -/
def syncMet (s : State) : Bool := !(crossZones s || s.jobs.layers.any (layerCross s)) || allSynced s

/-- The job's start is tried (R38): where it can start, JOB_START completes and TOR is set. -/
def tryStart (s : State) : State :=
  match s.jobs.startRef, jobHeader s with
  | some r, some h =>
    if !(syncMet s && (h.line || nextReady s)) then s
    else
      match h.atTime with
      | some t =>
        if t < s.now + 10000000 then endJob (endWith r stParam s)
        else endWith r stDone (setJobs (fun j => { j with startRef := none }) s)
      | none =>
        let tor := alignUp (s.now + 1000000) 1000000
        endWith r stDone (setJobs (fun j => { j with startRef := none, tor := some tor, torShown := tor }) s)
  | _, _ => s

/-- A member of the machine runs a job of another JOB_ID, which its HELLO says (R39). START_TIME and FIRST_LAYER_INDEX
travel in no frame, so that no module can compare them (log 101). -/
def foreignJob (s : State) (h : JobHeader) : Bool :=
  h.machine && (otherMembers s).any fun m =>
    let x := memberOf s m
    x.jobState != 0 && x.jobId != h.jobId && x.last.any fun t => decide (s.now ≤ t + 300000000)

/-- JOB_START is turned away before its header is looked at: a job exists, the module is not READY_LOCAL (R343), an ID
conflict stands (R352), or an entry to STANDBY or HIBERNATE has begun. -/
def startBarred (s : State) : Bool :=
  jobExists s || !s.boot.readyLocal || s.members.idConflict || s.members.memberConflict || s.power.entry != 0

/-- JOB_START (R33, R34, R93). -/
def startJobStart (r : Ref) (addr : Nat) (s : State) : State :=
  if startBarred s then endWith r stState s
  else if addr % 64 != 0 || !hostMem addr 640 s then endWith r stParam s
  else
    match poisonIn addr 640 s with
    | some w => endWith r stEcc (eccUe 34 w s)
    | none =>
      let b := memRead addr 640 s
      if !headerOk b s then endWith r stParam s
      else
        let h := readJobHeader b
        if foreignJob s h then endWith r stParam s
        else
        let input := if h.line && 16 ≤ h.trigSource then some (h.trigSource - 16, h.trigEncoder) else none
        tryStart (calStage { s with jobs := { Jobs.reset with
          state := 1, line := h.line, machine := h.machine, jobId := BitVec.ofNat 32 h.jobId, header := some h
          startRef := some r, tor := h.atTime, torShown := h.atTime.getD 0, table := h.psetTable
          lineTrigger := input } })

def execJobStart (h : Hdr) (addr : Nat) (s : State) : Host.Outcome State Fault Refusal :=
  .next (postDescriptor (.jobStart h addr) h 0x10 (startJobStart h.ref addr) s)

/-- LINE_RUN is entered, or entered again (R85, R91). -/
def lineBegins (s : State) : State :=
  let s := setJobState jsLine (leaveHeld s)
  (allLanes s).foldl (fun s l => stageMark l s) s

/-- The job's first stage (R38, R63, R85); a BUILD job whose first layer has been cancelled meanwhile is STARVED. -/
def firstStage (t : Ns) (s : State) : State :=
  match jobHeader s with
  | none => s
  | some h =>
    if h.line then
      lineBegins (if s.jobs.state == 10 then s else setJobs (fun j => { j with
        l := torOf s, nextProduct := h.first, markWritten := h.first }) s)
    else if nextReady s then startStages t s
    else starve t s

/-- JOB_TOR (R38, R91): the first stage starts at TOR, or the job is held there. -/
def jobTor (s : State) : State :=
  match s.jobs.tor with
  | some t =>
    if s.jobs.state != 1 || s.jobs.startRef.isSome || s.now < t then s
    else
      match holdWanted s with
      | some c => enterHeld c jsWait (match jobHeader s with
          | some h => if h.line then setJobs (fun j => { j with l := t, nextProduct := h.first, markWritten := h.first }) s
                      else s
          | none => s)
      | none => firstStage t s
  | none => s

def execJobTor (t : Ns) (s : State) : Host.Outcome State Fault Refusal := .next (jobTor (passTo t s))

/-! ### LAYER_QUEUE (R35, R61) -/

/-- The index that the next new layer must have (R35). -/
def queueIndex (s : State) : Nat := s.jobs.layers.foldl (fun m x => max m (x.index + 1)) (nextIndex s)

/-- R35 takes an index. -/
def indexOk (s : State) (i : Nat) : Bool := i == queueIndex s || s.jobs.failed.any fun f => f.1 == i

/-- A LAYER_QUEUE that takes no index (R35). -/
def refuseLayer (r : Ref) (st index : Nat) (s : State) : State := raise 0x3002 (natLE 4 index) (endWith r st s)

/-- Layers above a layer queued again whose parameter-set table may have changed (R61). -/
def retableLayers (s : State) (i : Nat) : List Nat :=
  (s.jobs.layers.filter fun m => decide (i < m.index) &&
    !(s.jobs.layers.any fun y => y.newPset && decide (i < y.index) && decide (y.index ≤ m.index))).map fun m => m.index

/-- A layer joins the queue, and its validation is due after those before it (R35, R60). -/
def takeLayer (r : Ref) (addr : Nat) (h : LayerHead) (s : State) : State :=
  let again := s.jobs.failed.find? fun f => f.1 == h.index
  let x : Layer :=
    { index := h.index, ref := r, addr := addr, flags := h.flags, psetTable := h.table, status := h.status
      mask := h.mask, passed := false, bound := false, fetched := false, lanes := [] }
  let s := setJobs (fun j => { j with
    layers := j.layers ++ [x], failed := j.failed.filter fun f => f.1 != h.index
    checks := j.checks ++ [h.index] }) s
  let redo := match again with
    | some f => if f.2 || x.newPset then retableLayers s h.index else []
    | none => []
  park r (setJobs (fun j => { j with
    layers := j.layers.map fun y => if redo.contains y.index then { y with passed := false } else y
    checks := (j.checks.filter fun c => !redo.contains c) ++ redo }) s)

/-- LAYER_QUEUE (R33, R35). -/
def startLayerQueue (r : Ref) (addr : Nat) (s : State) : State :=
  if !jobExists s || s.jobs.line then endWith r stState s
  else if 64 ≤ s.jobs.layers.length then endWith r stBusy s
  else if addr % 64 != 0 || !hostMem addr 4160 s then refuseLayer r stParam 0xFFFFFFFF s
  else
    match poisonIn addr 64 s with
    | some w => refuseLayer r stEcc 0xFFFFFFFF (eccUe 34 w s)
    | none =>
      let b := memRead addr 64 s
      let h := readHead b
      if field b 0 4 != layerMagic || !indexOk s h.index || h.status % 64 != 0 || !hostMem h.status 2048 s then
        refuseLayer r stParam h.index s
      else takeLayer r addr h s

def execLayerQueue (h : Hdr) (addr : Nat) (s : State) : Host.Outcome State Fault Refusal :=
  .next (postDescriptor (.layerQueue h addr) h 0x12 (startLayerQueue h.ref addr) s)

/-! ### The end of a validation (R60, R61, R65) -/

/-- A layer fails validation (R61). -/
def layerFails (x : Layer) (st : Nat) (errs : List (Nat × Nat × Nat)) (s : State) : State :=
  let s := writeStatus { x with lanes := failedLanes errs } s
  let s := setJobs (fun j => { j with
    layers := j.layers.filter fun y => y.index != x.index, failed := j.failed ++ [(x.index, x.newPset)] }) s
  let s := raise 0x3002 (natLE 4 x.index) (endWith x.ref st s)
  report false true s

/-- The EXPOSE of the layer before layer `i` has started (R65). -/
def turnHasCome (s : State) (i : Nat) : Bool :=
  match s.jobs.exposed with
  | some e => i == e + 1 && ([2, 3].contains (jobState s) || (s.jobs.state == 10 && !s.jobs.unstarted && s.jobs.resumeState != 8))
  | none => i == nextIndex s && s.jobs.done.isSome

/-- A layer passes (R38, R65): the job may start, the layer is bound where its turn has come, and a starved job starts its
fetch at once and goes on. -/
def layerPasses (c : Checked) (s : State) : State :=
  let i := c.layer.index
  let s := setLayer i (fun y => { y with passed := true, lanes := if y.bound then y.lanes else c.layer.lanes }) s
  let s := tryStart s
  let s := if turnHasCome s i then bindLayer i s else s
  if s.jobs.state == 4 && i == nextIndex s then report false false (goOn (beginFetch i (bindLayer i s))) else s

/-- Poisoned words that the reads of a validation meet (R504). -/
def checkPoison (x : Layer) (s : State) : State :=
  let s := readPoison x.addr 4160 s
  x.laneList.foldl (fun s l =>
    let e := readEntry (memRead (x.addr + 64 + 32 * l) 32 s)
    readPoison (tableFor s x.index + 4096 * l) 4096 (readPoison e.streamAddr (32 * e.count) s)) s

/-- LAYER_VALIDATION_DONE (R60): the oldest validation that is due ends. A cross-module SYNC in a job that has not
started and lacks AT_TIME makes its JOB_START fail (R39). -/
def validationDone (s : State) : State :=
  match s.jobs.checks with
  | [] => s
  | i :: rest =>
    let s := setJobs (fun j => { j with checks := rest }) s
    match layerOf s i with
    | none => s
    | some x =>
      let c := checkLayer s x
      let s := if c.status = stEcc then checkPoison x s else s
      if c.status != stDone then layerFails x c.status c.errors s
      else
        match s.jobs.startRef, jobHeader s with
        | some r, some h => if c.crossSync && h.atTime.isNone then endJob (endWith r stParam s) else layerPasses c s
        | _, _ => layerPasses c s

def execLayerValidationDone (t : Ns) (s : State) : Host.Outcome State Fault Refusal := .next (validationDone (passTo t s))

/-! ### LAYER_CANCEL (R36) -/

/-- The RECOAT of the bound layer has started, or its first stage where none is run. -/
def recoatStarted (s : State) : Bool :=
  [5, 6, 7, 8, 9].contains (jobState s) || (s.jobs.state == 10 && [6, 7, 8, 17].contains s.jobs.resumeState)

/-- R36 refuses a range that begins at `i`. -/
def cancelBarred (s : State) (i : Nat) : Bool :=
  s.jobs.done.any (fun d => decide (i ≤ d)) || s.jobs.exposed.any (fun e => decide (i ≤ e))
    || (recoatStarted s && decide (i ≤ nextIndex s) && (nextLayer s).isSome)

def startLayerCancel (r : Ref) (i : Nat) (s : State) : State :=
  if !jobExists s || s.jobs.line || cancelBarred s i then endWith r stState s
  else
    let xs := s.jobs.layers.filter fun x => decide (i ≤ x.index)
    finish r stDone 0 xs.length (xs.foldl (fun s x =>
      abortLayer stAbHost x (if x.fetched then x.laneList.foldl (fun s l => laneToRest l s) s else s)) s)

def execLayerCancel (h : Hdr) (fromIndex : Nat) (s : State) : Host.Outcome State Fault Refusal :=
  .next (postDescriptor (.layerCancel h fromIndex) h 0x13 (startLayerCancel h.ref fromIndex) s)

/-! ### JOB_END (R67, R91) -/

/-- Marks that are being written are cut, their products PARTIAL (R91). -/
def cutMarks (s : State) : State :=
  (allLanes s).foldl (fun s l =>
    match (laneOf s l).marking with
    | some (k, _) => settleProduct l k none true (flushCut l (faultIndexAt (laneOf s l) s.now) s)
    | none => s) s

def startJobEnd (r : Ref) (mode : Nat) (s : State) : State :=
  if !jobExists s then endWith r stState s
  else if 1 < mode then endWith r stParam s
  else
    let s := setJobs (fun j => { j with endRefs := j.endRefs ++ [r] }) s
    if mode = 1 then endJob (if s.jobs.line then flushMarks (cutMarks s) else s)
    else
      match jobState s with
      | 2 => setJobs (fun j => { j with endAsked := true }) s
      | 3 => setJobs (fun j => { j with endAsked := true }) s
      | 11 => lineSettle (setJobState jsEnding s)
      | 12 => s
      | _ => endJob (if s.jobs.line then flushMarks s else s)

def execJobEnd (h : Hdr) (mode : Nat) (s : State) : Host.Outcome State Fault Refusal :=
  .next (postDescriptor (.jobEnd h mode) h 0x11 (startJobEnd h.ref mode) s)

/-! ### JOB_HOLD (R73, R79, R91) -/

/-- A hold that has been asked for takes hold where no stage has to end first; a layer start that can still be withdrawn
is withdrawn. -/
def settleHold (s : State) : State :=
  match jobState s with
  | 2 => if s.members.lossHold && s.jobs.exposeDone then exposeEnd s else s
  | 4 => (match holdAt jsRecoat (nextIndex s) s with | some c => enterHeld c jsRecoat s | none => s)
  | 9 => (match holdAt jsArm (nextIndex s) s with | some c => enterHeld c jsArm s | none => s)
  | 8 =>
    if (holdWanted s).isNone then s
    else
      let s := withdraw (fun w => match w with | .layerStart _ => true | _ => false) s
      let still := (actions s).any fun a => match a.work with | .layerStart _ => true | _ => false
      setJobs (fun j => { j with final := j.final && still }) s
  | 11 => if (holdWanted s).isNone then s else lineSettle s
  | _ => if (holdWanted s).isSome || s.members.lossHold then stageEnd s else s

def startJobHold (r : Ref) (s : State) : State :=
  if !jobExists s then endWith r stState s
  else if s.jobs.state == 10 then endWith r stDone s
  else settleHold (setJobs (fun j => { j with holdAsked := j.holdAsked ++ [r] }) s)

def execJobHold (h : Hdr) (s : State) : Host.Outcome State Fault Refusal :=
  .next (postDescriptor (.jobHold h) h 0x14 (startJobHold h.ref) s)

/-! ### JOB_RESUME (R64, R74 to R76, R79) -/

/-- A mode suits a hold cause (R74). -/
def modeSuits (cause mode : Nat) : Bool :=
  match mode with
  | 0 => [4, 5, 6].contains cause
  | 1 => [1, 2, 3].contains cause
  | 2 => [1, 2, 3].contains cause
  | 3 => cause == 4
  | _ => false

/-- What follows a hold as POST_IMAGE began (R433): a policy hold that is still due (R68), or the way to RECOAT (R26). -/
def afterPostHold (s : State) : State :=
  if policyHold s then enterHeld s.jobs.holdAfter jsRecoat (leaveHeld s) else goOn s

/-- CONTINUE (R74): on from where the job stopped. -/
def resumeContinue (s : State) : State :=
  let i := nextIndex s
  match s.jobs.resumeState with
  | 1 => firstStage s.now s
  | 3 => atPlan jsPost (s.jobs.exposed.getD 0) (fun _ => true) postBegins s
  | 16 =>
    if policyHold s || s.jobs.endAsked || !nextReady s then afterPostHold s
    else atPlan jsSettle i (fun _ => true) (fun t s => settleBegins t (beginFetch i (bindLayer i s))) s
  | 17 => atPlan jsRecoat i (fun _ => true) (fun t s => recoatBegins true t s) s
  | 6 => atPlan jsSettle i (fun _ => true) settleBegins
      (setJobs (fun j => { j with acceptBed := j.acceptBed || j.cause == 4 }) s)
  | 7 => atPlan jsBed i (fun _ => true) bedBegins s
  | 8 => atPlan jsArm i (fun _ => true) (fun t s => armBegins (s.jobs.exposed.getD (nextIndex s)) t s) s
  | 11 => lineBegins s
  | _ => goOn s

/-- The lanes of the held layer that run again (R64, R75): those that faulted in it, or, where it was not started, all
that can run. -/
def rerunLanes (s : State) (x : Layer) : List Nat :=
  x.laneList.filter fun l =>
    let e := (layerLane x l).map fun e => e.endState
    !(laneOf s l).excluded && (beamNode s l).isSome
      && (e == some 2 || (s.jobs.unstarted && (e == some 0 || e == some 3)))

/-- REEXPOSE_REST (R64, R75). -/
def reexpose (t : Ns) (s : State) : State :=
  match theLayer s with
  | none => s
  | some x =>
    let s := (rerunLanes s x).foldl (fun s l =>
      match layerLane x l with
      | some e =>
        let s := setLayerLane x.index l (fun e => { e with endState := 0, code := 0 }) s
        beginRepair x.index l e (laneToIdle l s)
      | none => s) (setJobs (fun j => { j with syncs := [] }) s)
    let started := !s.jobs.unstarted
    armBegins x.index t (setJobs (fun j => { j with repair := started, unstarted := false, holdAfter := 0 }) s)

/-- NEXT_LAYER (R76): the held layer completes with DONE_NOTE, and the job goes on to RECOAT. -/
def nextLayerMode (s : State) : State :=
  match theLayer s with
  | none => goOn s
  | some x =>
    let s := x.laneList.foldl (fun s l => laneToRest l s) s
    let s := completeLayer x.index stDoneNote (setJobs (fun j => { j with endAsked := j.endAsked || x.last, holdAfter := 0 }) s)
    goOn (bindLayer (nextIndex s) s)

/-- The resume is carried out (R74). -/
def resumeGo (s : State) : State :=
  match s.jobs.resumeMode with
  | 0 => resumeContinue s
  | 1 => atPlan jsArm (s.jobs.exposed.getD 0) (fun _ => true) reexpose s
  | 2 => nextLayerMode s
  | _ =>
    if s.jobs.resumeState = 16 then afterPostHold s
    else atPlan jsRecoat (nextIndex s) (fun _ => true) (fun t s => recoatBegins true t s) s

/-- In a MACHINE_JOB the leader resumes once every module has accepted JOB_RESUME (R79); a member resumes with the
leader's plan. -/
def machineResume (s : State) : State :=
  if s.jobs.state != 10 || !s.jobs.resumeOk then s
  else if isLeader s then
    (if allReport s 3 then
      resumeGo { (setJobs (fun j => { j with resuming := true }) s) with members := { s.members with peerHold := false, lossHold := false } }
    else s)
  else resumeGo (setJobs (fun j => { j with resuming := true }) s)

def startJobResume (r : Ref) (mode : Nat) (s : State) : State :=
  if s.jobs.state != 10 then endWith r stState s
  else if !modeSuits s.jobs.cause.toNat mode then endWith r stParam s
  else
    let s := setJobs (fun j => { j with resumeRefs := j.resumeRefs ++ [r], resumeMode := mode, resumeOk := true }) s
    if machineJob s then
      let s := report false false s
      if isLeader s then machineResume s else s
    else resumeGo s

def execJobResume (h : Hdr) (mode : Nat) (s : State) : Host.Outcome State Fault Refusal :=
  .next (postDescriptor (.jobResume h mode) h 0x15 (startJobResume h.ref mode) s)

/-- STAGE_END (R63): the stage in progress has ended, or a resume goes on at the time that the leader has planned. -/
def stageEndAny (s : State) : State :=
  if s.jobs.state == 10 then (if s.jobs.resuming then resumeGo s else s) else stageEnd s

def execStageEnd (t : Ns) (s : State) : Host.Outcome State Fault Refusal := .next (stageEndAny (passTo t s))

/-! ### LANE_REENABLE (R76, R89) -/

/-- LANE_REENABLE: in a BUILD job the lanes leave the excluded set and take part from the next layer that is bound; in a LINE
job it takes effect at each lane's next S. -/
def startLaneReenable (r : Ref) (mask : BitVec 128) (s : State) : State :=
  if !jobExists s then endWith r stState s
  else if namesFused s mask then endWith r stParam s
  else if s.jobs.line && (lanesIn mask).any (fun l => (beamNode s l).isNone) then endWith r stState s
  else if s.jobs.line then
    endWith r stDone ((lanesIn mask).foldl (fun s l => setLane l (fun x => { x with reenable := true }) s) s)
  else endWith r stDone (setJobs (fun j => { j with excluded := j.excluded &&& ~~~mask }) s)

def execLaneReenable (h : Hdr) (mask : BitVec 128) (s : State) : Host.Outcome State Fault Refusal :=
  .next (postDescriptor (.laneReenable h mask) h 0x16 (startLaneReenable h.ref mask) s)

/-! ### Stage frames of a machine job (R78 to R80, R348, R351) -/

def setMember (m : Nat) (f : Member → Member) (s : State) : State :=
  { s with members := { s.members with list := modUnit s.members.list m f } }

/-- The L that a new plan gives the layer in ARM (R80). -/
def planMovesL (s : State) : State :=
  match s.jobs.exposed with
  | some i =>
    (match plannedStart s jsExpose i with
      | some l =>
        if s.jobs.state == 8 && !s.jobs.final && l != s.jobs.l then
          let moved := decide (s.jobs.l < l)
          let s := setL l s
          if moved then raise 0x3003 [] (setJobs (fun j => { j with late := j.late + 1, lateMs := satInc j.lateMs }) s)
          else s
        else s
      | none => s)
  | none => s

/-- STAGE_PLAN_RECEIVE (R78, R80, R348): a plan that has been accepted already is only acknowledged again. -/
def stagePlan (sender seq : Nat) (entries : List PlanEntry) (s : State) : State :=
  if !machineJob s || isLeader s || !s.members.elected || s.members.leaderMember.toNat != sender then s
  else
    let s := { s with members := { s.members with
      ackSeq := seq
      plans := if seq = s.members.ackSeq then s.members.plans else entries.foldl (fun es e => addEntry e es) s.members.plans } }
    machineResume (report false false (planMovesL s))

def execStagePlanReceive (t : Ns) (sender seq : Nat) (entries : List PlanEntry) (s : State) :
    Host.Outcome State Fault Refusal := .next (stagePlan sender seq entries (passTo t s))

/-- Every other member has acknowledged the plan. -/
def planAcked (s : State) : Bool := (otherMembers s).all fun m => (memberOf s m).ack = s.members.planSeq

/-- STAGE_PLAN_RESEND (R348): a plan goes out again until every member has acknowledged it. -/
def planResend (s : State) : State :=
  if machineJob s && isLeader s && !s.members.plan.isEmpty && !planAcked s then sendPlan s else s

def execStagePlanResend (t : Ns) (s : State) : Host.Outcome State Fault Refusal := .next (planResend (passTo t s))

/-- STAGE_REPORT_SEND (R348). -/
def execStageReportSend (t : Ns) (s : State) : Host.Outcome State Fault Refusal :=
  .next (report false false (passTo t s))

/-- A member's report reaches the leader (R79, R80): a hold holds the machine, a lane that is not ARMED moves L, and the
machine resumes once every module has accepted. -/
def stageReport (sender ack state cause flags mode layer : Nat) (s : State) : State :=
  if !machineJob s || !isLeader s || !((otherMembers s).contains sender) then s
  else
    let s := setMember sender (fun m => { m with
      ack := ack, jobState := state, repCause := cause, repFlags := flags, repMode := mode, repLayer := layer }) s
    let s := if planAcked s then { s with members := { s.members with plan := [] } } else s
    let s := if state = 10 && cause != 6 && !s.jobs.resuming && !bit flags 3 then
        settleHold { s with members := { s.members with peerHold := true } } else s
    let due := s.jobs.state == 8 && !s.jobs.final && decide (s.jobs.l ≤ s.now + tLead s + 3000000)
    let s := if bit flags 4 && due && s.jobs.late < 1000 then
        postpone (planStage jsExpose (s.jobs.exposed.getD 0) (s.jobs.l + 1000000) s) else s
    machineResume s

def execStageReportReceive (t : Ns) (sender ack state cause flags mode layer : Nat) (s : State) :
    Host.Outcome State Fault Refusal := .next (stageReport sender ack state cause flags mode layer (passTo t s))

end Sys2Proof.Machine
end

