-- ==== Sys2Proof/Machine/AxisCmds.lean ====
section
/-! DEFINITION. The axis opcodes and what axes do in time (R386 to R401, R415 to R417). -/

namespace Sys2Proof.Machine

/-- The axes that a mask names. -/
def axesIn (mask : BitVec 16) : List Nat := (List.range 16).filter fun a => mask.getLsbD a

/-- A script move that has ended in anything but DONE is a recoat defect (R401). -/
def checkScript (s : State) : State :=
  let lost := (s.axes.script.zipIdx).any fun x =>
    match x.1 with
    | .moving => !((List.range 16).any fun a =>
        let y := axisOf s a
        (y.move.any fun m => m.script == some x.2) || (y.pending.any fun m => m.script == some x.2))
    | .waiting => false
    | .ended _ => false
    | .skip => false
  if lost then scriptDefect s else s

/-! ### AXIS_MOVE (R391) -/

/-- The launch of a move (R391): at the first lane tick 2 µs after posting at the earliest. -/
def moveLaunch (refPtp : Bool) (launch : Nat) (s : State) : Option Ns :=
  let soon := tickAt (s.now + 2000)
  if launch = 0 then some soon
  else if refPtp then some (max soon (tickAt launch))
  else if jobExists s then s.jobs.tor.map fun tor => max soon (tickAt (tor + launch)) else none

/-- An axis belongs to the layer sequencer now (R400). -/
def seqHolds (s : State) (a : Nat) : Bool := axisSeqOwned s a && jobExists s

/-- Limits by which an axis can run (R386, R390). -/
def limitsOk (s : State) (a : Nat) (l : AxisLimits) : Bool :=
  decide (0 < l.speed) && decide (l.speed ≤ 4000000) && decide (0 < l.accel) && decide (0 < l.jerk)
    && decide (l.speed * minSpace s a ≤ 1000000000)

/-- The target in steps: relative to the target of the move in progress, or to the position. -/
def moveTarget (s : State) (a : Nat) (relative : Bool) (target : Int) : Int :=
  let x := axisOf s a
  if relative then (if x.state = .moving && x.homing.isNone then x.target else x.pos) + target else target

def startAxisMove (r : Ref) (a : Nat) (relative refPtp : Bool) (target : Int) (l : AxisLimits) (launch : Nat)
    (s : State) : State :=
  let x := axisOf s a
  if 16 ≤ a then endWith r stParam s
  else if seqHolds s a || !(x.state = .idle || x.state = .moving) then finishIn (256 + a) r stState 0 0 s
  else if s.power.safe then finishIn (256 + a) r stAbFault 0 0 s
  else
    match moveLaunch refPtp launch s with
    | none => finishIn (256 + a) r stState 0 0 s
    | some t =>
      let goal := moveTarget s a relative target
      if goal < posMin s a || posMax s a < goal || !limitsOk s a (effLimits s a l) then finishIn (256 + a) r stParam 0 0 s
      else if x.pending.isSome then finishIn (256 + a) r stBusy 0 0 s
      else setAxis a (fun x => { x with
        pending := some { target := goal, limits := l, launch := t, ref := some r, script := none } }) s

def execAxisMove (h : Hdr) (axis : Nat) (relative refPtp : Bool) (target : Int) (speed accel jerk launch : Nat)
    (s : State) : Host.Outcome State Fault Refusal :=
  .next (postDescriptor (.axisMove h axis relative refPtp target speed accel jerk launch) h 0x50
    (startAxisMove h.ref axis relative refPtp target { speed := speed, accel := accel, jerk := jerk } launch) s)

/-- AXIS_MOVE_START (R391): a waiting move starts at its launch, once the axis stands. -/
def axisMoveStart (a : Nat) (s : State) : State :=
  let x := axisOf s a
  match x.pending with
  | some m =>
    if x.plan.isNone && x.state = .idle && decide (m.launch ≤ s.now) then checkScript (settleAxis a (beginMove a m s)) else s
  | none => s

def execAxisMoveStart (t : Ns) (axis : Nat) (s : State) : Host.Outcome State Fault Refusal :=
  .next (axisMoveStart axis (passTo t s))

/-! ### AXIS_LIMITS (R393 to R395) -/

/-- A later non-zero field replaces an earlier one. -/
def AxisLimits.over (new old : AxisLimits) : AxisLimits :=
  { speed := if new.speed = 0 then old.speed else new.speed, accel := if new.accel = 0 then old.accel else new.accel,
    jerk := if new.jerk = 0 then old.jerk else new.jerk }

/-- The override that a change leads to. -/
def newOverride (x : Axis) (clear : Bool) (l : AxisLimits) : Option AxisLimits :=
  if clear then none
  else
    let n := l.over (x.ovr.getD .none)
    if n = .none then none else some n

/-- A change is latched (R393, R395). -/
def latchLimits (a : Nat) (clear : Bool) (l : AxisLimits) (s : State) : State :=
  setAxis a (fun x => { x with latched := some (match x.latched with
    | some (c, o) => if clear then (true, .none) else (c, l.over o)
    | none => (clear, if clear then .none else l)) }) s

/-- The plan of a moving axis from its present position, speed and acceleration (R394); none where it can no longer stop
at its target. -/
def replanAxis (s : State) (p : AxisPlan) (l : AxisLimits) : Option AxisPlan :=
  let t0 := max s.now p.start
  let (tr, v, acc) := p.at (nsToS (t0 - p.start))
  let frac := tr.sub (F64.ofNat p.done)
  let shift := fun segs : List AxisSeg => segs.map fun g => { g with s0 := g.s0.add frac }
  let here : AxisPlan := { p with
    start := t0, origin := p.origin + (if p.up then (p.done : Int) else -(p.done : Int)), total := p.total - p.done
    done := 0 }
  match p.run with
  | .move =>
    (axisProfile v acc ((F64.ofNat p.total).sub tr) l).map fun q =>
      { here with segs := shift q.1, fin := some q.2.1, decelAt := q.2.2 }
  | .home => some { here with segs := shift (axisChain .zero .zero v (axisJoin v acc (F64.ofNat l.speed) l)) }
  | .stop => some p

/-- The limits of what an axis runs, under an override. -/
def runLimits (s : State) (a : Nat) (x : Axis) : AxisLimits :=
  effLimits { s with axes := { s.axes with axes := modUnit s.axes.axes a fun _ => x } } a
    (match x.move with | some m => m.limits | none => { AxisLimits.none with speed := if x.homing.isSome then x.lim.speed else 0 })

/-- A latched change once a later one has come into force at once: the later one's fields count (R395). -/
def afterChange (x : Axis) (clear : Bool) (l : AxisLimits) : Option (Bool × AxisLimits) :=
  if clear then none
  else
    x.latched.bind fun (c, o) =>
      let keep : AxisLimits := { speed := if l.speed = 0 then o.speed else 0, accel := if l.accel = 0 then o.accel else 0,
                                 jerk := if l.jerk = 0 then o.jerk else 0 }
      if c then some (true, l.over o) else if keep = .none then none else some (false, keep)

/-- One axis takes a change of limits (R393, R394); one that stands with a latched change keeps both for its next move (R395). -/
def axisLimits (a : Nat) (clear : Bool) (l : AxisLimits) (s : State) : State :=
  let x := axisOf s a
  match x.plan with
  | none =>
    if x.latched.isSome then latchLimits a clear l s else setAxis a (fun x => { x with ovr := newOverride x clear l }) s
  | some p =>
    if p.run = .move && axisPhase s a = 3 then latchLimits a clear l s
    else
      let y := { x with ovr := newOverride x clear l, latched := afterChange x clear l }
      let lim := runLimits s a y
      match replanAxis s p lim with
      | some q => setAxis a (fun _ => { y with plan := some q, lim := lim }) s
      | none =>
        let v := { x with ovr := newOverride x clear { AxisLimits.none with speed := l.speed } }
        let lim := runLimits s a v
        let s := setAxis a (fun _ => match replanAxis s p lim with
          | some q => { v with plan := some q, lim := lim }
          | none => v) s
        latchLimits a clear { l with speed := 0 } s

/-- AXIS_LIMITS takes effect. -/
def applyAxisLimits (mask : BitVec 16) (clear : Bool) (l : AxisLimits) (s : State) : State :=
  (axesIn mask).foldl (fun s a => axisLimits a clear l s) s

/-- AXIS_LIMITS (R393, R416): DONE_NOTE where an axis has latched the change. -/
def startAxisLimits (r : Ref) (mask : BitVec 16) (clear : Bool) (l : AxisLimits) (s : State) : State :=
  let was := fun a => (axisOf s a).latched
  let t := applyAxisLimits mask clear l s
  let latched := (axesIn mask).any fun a => (axisOf t a).latched.isSome && ((axisOf t a).latched != was a || (axisOf s a).plan.isNone
    || ((axisOf s a).plan.any fun p => p.run = .move && axisPhase s a = 3))
  endWith r (if latched then stDoneNote else stDone) t

def execAxisLimits (h : Hdr) (mask : BitVec 16) (clear : Bool) (speed accel jerk : Nat) (s : State) :
    Host.Outcome State Fault Refusal :=
  .next (postDescriptor (.axisLimits h mask clear speed accel jerk) h 0x51
    (startAxisLimits h.ref mask clear { speed := speed, accel := accel, jerk := jerk }) s)

/-! ### AXIS_STOP, AXIS_ENABLE, AXIS_SET_POS (R396, R398, R416) -/

/-- AXIS_STOP (R396): DONE once every named axis stands. A step due at its tick is driven before it (R415). -/
def startAxisStop (r : Ref) (mask : BitVec 16) (emergency : Bool) (s : State) : State :=
  let s := { s with axes := { s.axes with stops := s.axes.stops ++ [(r, mask)] } }
  let s := (axesIn mask).foldl (fun s a =>
    let s := dropPending a stAbHost (settleAxis a (driveDue a s))
    settleAxis a (beginStop a (if emergency then axisEmg s a else (axisOf s a).lim) stAbHost s)) s
  checkScript (settleAxisStops s)

def execAxisStop (h : Hdr) (mask : BitVec 16) (emergency : Bool) (s : State) : Host.Outcome State Fault Refusal :=
  .next (postDescriptor (.axisStop h mask emergency) h 0x52 (startAxisStop h.ref mask emergency) s)

/-- AXEN of one axis at standstill. -/
def enableAxis (a : Nat) (on : Bool) (s : State) : State :=
  let s := if on then s else dropPending a stAbHost s
  setAxis a (fun x => { x with
    axen := on, state := if x.state = .fault then .fault else if on then .idle else .disabled }) s

/-- AXIS_ENABLE (R398): refused whole where it would deassert the AXEN of an axis that is not at standstill. -/
def startAxisEnable (r : Ref) (mask values : BitVec 16) (s : State) : State :=
  if (axesIn mask).any (fun a => (axisOf s a).plan.isSome && !values.getLsbD a) then endWith r stState s
  else
    endWith r stDone (checkScript ((axesIn mask).foldl (fun s a =>
      if (axisOf s a).plan.isSome then s else enableAxis a (values.getLsbD a) s) s))

def execAxisEnable (h : Hdr) (mask values : BitVec 16) (s : State) : Host.Outcome State Fault Refusal :=
  .next (postDescriptor (.axisEnable h mask values) h 0x53 (startAxisEnable h.ref mask values) s)

/-- AXIS_SET_POS (R397, R400, R416). -/
def startAxisSetPos (r : Ref) (a : Nat) (pos : Int) (s : State) : State :=
  let x := axisOf s a
  if 16 ≤ a then endWith r stParam s
  else if seqHolds s a || !(x.state = .idle || x.state = .disabled) then endWith r stState s
  else endWith r stDone (takeOrg a (setAxis a (fun x => { x with pos := pos }) s))

def execAxisSetPos (h : Hdr) (axis : Nat) (pos : Int) (s : State) : Host.Outcome State Fault Refusal :=
  .next (postDescriptor (.axisSetPos h axis pos) h 0x55 (startAxisSetPos h.ref axis pos) s)

/-! ### AXIS_HOME (R399) -/

/-- AXIS_HOME: a run at HOME_SPEED that goes on until its edge; `down` is DIR. -/
def startAxisHome (r : Ref) (a : Nat) (down : Bool) (source chan speed : Nat) (pos : Int) (limit : Nat) (s : State) :
    State :=
  let x := axisOf s a
  let l := effLimits s a { AxisLimits.none with speed := speed }
  if 16 ≤ a || 1 < source || (if source = 0 then 15 else 7) < chan || speed = 0 then endWith r stParam s
  else if seqHolds s a || x.state != .idle || x.pending.isSome then finishIn (256 + a) r stState 0 0 s
  else if s.power.safe then finishIn (256 + a) r stAbFault 0 0 s
  else if !limitsOk s a l then finishIn (256 + a) r stParam 0 0 s
  else
    let s := applyLatched a s
    let h : Homing := { trig := source = 1, chan := chan, pos := pos, max := limit, latched := none, ref := r }
    let plan : AxisPlan :=
      { run := .home, start := tickAt s.now, origin := x.pos, up := !down,
        segs := axisChain .zero .zero .zero (axisRamp (F64.ofNat l.speed) l), decelAt := .zero, fin := none,
        total := limit, done := 0 }
    setAxis a (fun x => { turnDir (!down) (tickAt s.now) x with
      state := .moving, plan := some plan, homing := some h, lim := l, ending := 0 }) s

def execAxisHome (h : Hdr) (axis : Nat) (down : Bool) (source chan speed : Nat) (pos : Int) (limit : Nat) (s : State) :
    Host.Outcome State Fault Refusal :=
  .next (postDescriptor (.axisHome h axis down source chan speed pos limit) h 0x54
    (startAxisHome h.ref axis down source chan speed pos limit) s)

/-- The home edge of an axis (R399): the position at the edge is latched and the axis stops at its effective limits. -/
def homeEdge (trig : Bool) (chan : Nat) (s : State) : State :=
  (List.range 16).foldl (fun s a =>
    let x := axisOf s a
    match x.homing with
    | some h =>
      let here := setAxis a (fun x => { x with homing := some { h with latched := some x.pos }, ending := 0 }) s
      if !(h.trig = trig && h.chan = chan && h.latched.isNone) then s
      else if x.ending = 0 && x.plan.any (fun p => p.run = .home) then settleAxis a (beginStop a x.lim 0 here)
      -- the edge wins over the HOME_MAX step of its tick
      else if x.ending = stTimeout && x.lastEdge.any (fun t => t / 5 = s.now / 5) then here
      else s
    | none => s) s

/-! ### Steps (R389, R390) -/

/-- AXIS_STEP (R389): the step that is due is driven; the last one ends the move, and the last of HOME_MAX steps without an
edge stops a homing run (R399). -/
def axisStep (a : Nat) (s : State) : State :=
  let s := driveDue a s
  let full := (axisOf s a).plan.any fun p => p.run = .home && decide (p.total ≤ p.done)
  let s := if full then beginStop a (axisOf s a).lim stTimeout s else s
  checkScript (settleAxis a s)

def execAxisStep (t : Ns) (axis : Nat) (s : State) : Host.Outcome State Fault Refusal :=
  .next (axisStep axis (passTo t s))

/-- AXIS_FOLLOWING_FAULT (R397): the error has been beyond FB_LIMIT for longer than 100 µs. -/
def followingFault (a : Nat) (s : State) : State :=
  if (axisOf s a).feSince.any fun t => decide (t + 100000 < s.now) then checkScript (axisFault a 1 s) else s

def execAxisFollowingFault (t : Ns) (axis : Nat) (s : State) : Host.Outcome State Fault Refusal :=
  .next (followingFault axis (passTo t s))

/-! ### The recoat script (R400, R401) -/

/-- AFTER of a script entry has ended, or is not asked for. -/
def afterEnded (s : State) (i : Nat) : Bool :=
  let k := cfgF s (scriptOff i 0) 8 8
  if k = 0xFF then true
  else match unit s.axes.script k .skip with
    | .ended t => decide (t ≤ s.now)
    | .skip => true
    | .waiting => false
    | .moving => false

/-- The move of a script entry. -/
def scriptMove (s : State) (i : Nat) : Nat × AxisMove :=
  let a := cfgF s (scriptOff i 0) 0 4
  let d := cfgS s (scriptOff i 4)
  (a, { target := if scriptKind s i = 1 then (axisOf s a).pos + d else d,
        limits := { AxisLimits.none with speed := cfgWord s (scriptOff i 8) }, launch := s.now, ref := none, script := some i })

/-- SCRIPT_ENTRY_START (R400): at START_MS, or at the standstill that ends entry AFTER. An axis that cannot start is a recoat
defect (R401). -/
def scriptEntryStart (i : Nat) (s : State) : State :=
  match s.axes.scriptStart with
  | none => s
  | some t0 =>
    let due := decide (t0 + 1000000 * cfgF s (scriptOff i 0) 16 16 ≤ s.now) && afterEnded s i
    if s.jobs.state != 5 || unit s.axes.script i .skip != .waiting || !due then s
    else
      let (a, m) := scriptMove s i
      let x := axisOf s a
      let ok := decide (posMin s a ≤ m.target) && decide (m.target ≤ posMax s a) && limitsOk s a (effLimits s a m.limits)
        && x.state != .fault && x.state != .disabled && x.pending.isNone && !s.power.safe
      if !ok then scriptDefect s
      else
        let s := { s with axes := { s.axes with script := s.axes.script.set i .moving } }
        axisMoveStart a (setAxis a (fun x => { x with pending := some m }) s)

def execScriptEntryStart (t : Ns) (entry : Nat) (s : State) : Host.Outcome State Fault Refusal :=
  .next (scriptEntryStart entry (passTo t s))

end Sys2Proof.Machine
end

