-- ==== Sys2Proof/Machine/Basin.lean ====
section
/-! DEFINITION. Basin: copies and fills, panic, refresh and self-refresh (R492 to R508). -/

namespace Sys2Proof.Machine

/-! ### Real-time ports (R492, R496 to R499) -/

def rtPort (s : State) (p : Nat) : RtPort := unit s.basin.rt p .reset

def setRt (p : Nat) (f : RtPort → RtPort) (s : State) : State :=
  { s with basin := { s.basin with rt := modUnit s.basin.rt p f } }

/-- An access of real-time port `p` at `a`: in a region of another order it counts as misplaced, reported once per
episode (R492). -/
def rtAccess (p a : Nat) (s : State) : State :=
  let s := touchBasin a 64 s
  if segOrder s (a / segSize s) = (rtPort s p).order.toNat then setRt p (fun r => { r with misplaced := false }) s
  else
    let first := !(rtPort s p).misplaced
    let s := setRt p (fun r => { r with misplacedCount := satInc r.misplacedCount, misplaced := true }) s
    if first then raise 0x6005 (natLE 1 p ++ natLE 8 a) s else s

/-- A real-time port is in panic (R496). -/
def anyPanic (s : State) : Bool := s.basin.rt.any fun r => r.panic

/-- Refresh stalls of a channel; DQS tracking runs in every 512th (R528). -/
def refreshStall (c : Nat) : Nat → State → State
  | 0, s => s
  | k + 1, s =>
    let n := (unit s.hk.stalls c 0 + 1) % 512
    let running := s.hk.runs.any fun r => r.kind = 5 && r.unit = c
    let s := { s with basin := { s.basin with openRows := closeRows c s.basin.openRows } }
    let s := { s with hk := { s.hk with
        stalls := s.hk.stalls.set c n
        runs := if n = 0 && !running then s.hk.runs ++ [{ kind := 5, unit := c, since := s.now, levels := [], fin := 0 }]
          else s.hk.runs } }
    refreshStall c k s

/-- The refreshes that channels have postponed. -/
def issuePostponed (s : State) : State :=
  let s := (List.range 4).foldl (fun s c => refreshStall c (unit s.basin.postponed c 0).toNat s) s
  { s with basin := { s.basin with postponed := List.replicate 4 0, forcedEpisode := false } }

/-- A tarn's port is to be in panic: a lane of the tarn in ARMED or RUNNING has fewer than 1,024 unconsumed records (R99). -/
def tarnPanic (s : State) (t : Nat) : Bool :=
  (List.range 8).any fun i =>
    let x := unit s.lanes (8 * t + i) .reset
    (x.state = .armed || x.state = .running) && decide (x.buf.length + x.plan.countP (fun r => r.first.isNone) < 1024)

/-- PANIC_CHANGE (R496): the port's buffer level enters or leaves panic. When no port is left in panic the postponed
refreshes are issued (R498). Ports 0 to 15 are those of the tarns, whose lanes decide it (R99) and which count their own entries
(TARN_PANIC_COUNT); the buffer level of another port comes with the command. -/
def panicChange (p : Nat) (enter : Bool) (s : State) : State :=
  if (rtPort s p).panic = enter || (decide (p < 16) && tarnPanic s p != enter) then s
  else if enter then
    let s := if p < 16 then
        { s with tarns := modUnit s.tarns p fun x => { x with panicCount := satInc x.panicCount } } else s
    setRt p (fun r => { r with panic := true, panicCount := satInc r.panicCount, panicSince := s.now,
                               longRaised := false }) s
  else
    let us := (s.now - (rtPort s p).panicSince) / 1000
    let s := setRt p (fun r => { r with
      panic := false, panicMaxUs := satU 16 (max r.panicMaxUs.toNat us) }) (recExtreme 25 us p s)
    if anyPanic s then s
    else issuePostponed s

def execPanicChange (t : Ns) (port : Nat) (enter : Bool) (s : State) : Host.Outcome State Fault Refusal :=
  .next (panicChange port enter (passTo t s))

/-- BASIN_PANIC_LONG (R499): a panic episode longer than 1 ms, once per episode. -/
def panicLong (p : Nat) (s : State) : State :=
  let r := rtPort s p
  if r.panic && !r.longRaised && decide (r.panicSince + 1000000 < s.now) then
    let s := setRt p (fun r => { r with longRaised := true }) s
    let s := { s with basin := { s.basin with panicLong := satInc s.basin.panicLong } }
    raise 0x6006 (natLE 1 p ++ natLE 4 ((s.now - r.panicSince) / 1000)) s
  else s

def execBasinPanicLong (t : Ns) (port : Nat) (s : State) : Host.Outcome State Fault Refusal :=
  .next (panicLong port (passTo t s))

/-- REFRESH_DUE (R497, R498): issued, or postponed while a real-time port is in panic; a ninth is forced. `hot` is
whether the devices report above 85 °C. -/
def refreshDue (c : Nat) (hot : Bool) (s : State) : State :=
  let s := { s with basin := { s.basin with hot := hot } }
  if anyPanic s then
    if (unit s.basin.postponed c 0).toNat < 8 then
      { s with basin := { s.basin with postponed := modUnit s.basin.postponed c fun n => n + 1 } }
    else
      let first := !s.basin.forcedEpisode
      let s := refreshStall c 1 s
      let s := { s with basin :=
          { s.basin with forcedRefresh := satInc s.basin.forcedRefresh, forcedEpisode := true } }
      if first then raise 0x6004 (natLE 1 c) s else s
  else
    let s := refreshStall c ((unit s.basin.postponed c 0).toNat + 1) s
    { s with basin := { s.basin with postponed := modUnit s.basin.postponed c fun _ => 0 } }

def execRefreshDue (t : Ns) (channel : Nat) (hot : Bool) (s : State) : Host.Outcome State Fault Refusal :=
  .next (refreshDue channel hot (passTo t s))

/-- A tarn lane is ARMED or RUNNING (R500). -/
def laneActive (s : State) : Bool := s.lanes.any fun l => l.state == .armed || l.state == .running

/-- SELF_REFRESH_ENTRY (R500, R501): no request for SR_IDLE starts an entry, never while a lane is ARMED or RUNNING or a
port is in panic; a request before the commit point aborts it. The refresh closes every row. -/
def selfRefreshEntry (aborted : Bool) (s : State) : State :=
  if s.basin.state != 0 || laneActive s || anyPanic s
      || decide (s.now < s.basin.lastReq + 1000 * s.basin.srIdle.toNat) then s
  else if aborted then
    { s with basin := { s.basin with srAbort := satInc s.basin.srAbort, lastReq := s.now } }
  else { s with basin := { s.basin with state := 1, srEntries := s.basin.srEntries + 1, openRows := List.replicate 64 none } }

def execSelfRefreshEntry (t : Ns) (aborted : Bool) (s : State) : Host.Outcome State Fault Refusal :=
  .next (selfRefreshEntry aborted (passTo t s))

/-! ### Copies and fills (R508) -/

/-- Operand checks of a copy or fill: channel, alignment, length and host memory (R508). -/
def copyOk (chan dst len : Nat) (s : State) : Bool :=
  decide (chan < 8) && dst % 4 == 0 && len % 4 == 0 && decide (4 ≤ len) && decide (len ≤ 4294967292) && hostMem dst len s

/-- BASIN_COPY (R508): up to the first uncorrectable word of the source (R504). -/
def startBasinCopy (r : Ref) (chan src dst len : Nat) (s : State) : State :=
  if !copyOk chan dst len s || src % 4 != 0 || !hostMem src len s || (decide (src < dst + len) && decide (dst < src + len))
  then endWith r stParam s
  else
    match poisonIn src len s with
    | none => finishIn (296 + chan) r stDone 0 len (memWrite 38 dst (memRead src len s) s)
    | some a =>
      let n := a - src
      finishIn (296 + chan) r stEcc 0 n (eccUe 38 a (memWrite 38 dst (memRead src n s) s))

def execBasinCopy (h : Hdr) (chan src dst len : Nat) (s : State) : Host.Outcome State Fault Refusal :=
  .next (postDescriptor (.basinCopy h chan src dst len) h 0x80 (startBasinCopy h.ref chan src dst len) s)

/-- BASIN_FILL (R508). -/
def startBasinFill (r : Ref) (chan pattern dst len : Nat) (s : State) : State :=
  if !copyOk chan dst len s then endWith r stParam s
  else finishIn (296 + chan) r stDone 0 len
    (memWrite 38 dst ((List.replicate (len / 4) (natLE 4 pattern)).flatten) s)

def execBasinFill (h : Hdr) (chan pattern dst len : Nat) (s : State) : Host.Outcome State Fault Refusal :=
  .next (postDescriptor (.basinFill h chan pattern dst len) h 0x81 (startBasinFill h.ref chan pattern dst len) s)

/-- BASIN_RETAIN (R503, R508): bit 0 is reserved. -/
def startBasinRetain (r : Ref) (mask : BitVec 8) (s : State) : State :=
  if mask.getLsbD 0 then endWith r stParam s
  else endWith r stDone { s with basin := { s.basin with retain := mask } }

def execBasinRetain (h : Hdr) (mask : BitVec 8) (s : State) : Host.Outcome State Fault Refusal :=
  .next (postDescriptor (.basinRetain h mask) h 0x82 (startBasinRetain h.ref mask) s)

end Sys2Proof.Machine
end

