-- ==== Sys2Proof/Machine/CalCmds.lean ====
section
/-! DEFINITION. The calibration commands (R526, R531, R534). -/

namespace Sys2Proof.Machine

/-- The units that a mask names for a kind, and whether one of them is absent (R534). -/
def calUnits (s : State) (kind mask : Nat) : List Nat × Bool :=
  if kind ≤ 2 then let us := bitsOf 128 mask; (us, us.any fun l => !laneMapped s l)
  else if kind = 3 then (bitsOf 32 mask, (bitsOf 128 mask).any fun p => decide (s.variant.ports ≤ p))
  else if kind = 6 then ([0], false)
  else (bitsOf 4 mask, (bitsOf 128 mask).any fun p => decide (4 ≤ p))

/-- A mask names a fused-off lane or port (R3). -/
def calFused (s : State) (kind mask : Nat) : Bool :=
  if kind ≤ 2 then (bitsOf 128 mask).any fun l => decide (s.variant.lanes ≤ l)
  else if kind = 3 then (bitsOf 128 mask).any fun p => decide (s.variant.ports ≤ p)
  else false

/-- Every named unit is idle (R531). -/
def calIdle (s : State) (kind : Nat) (us : List Nat) : Bool :=
  let quiet := [0, 4, 10].contains (jobState s)
  if kind ≤ 2 then quiet && us.all fun l => let st := (laneOf s l).state; st = .idle || st = .fault
  else if kind = 5 || kind = 6 then true else quiet

/-- A request of a kind for these units can run at once. -/
def runsNow (s : State) (kind : Nat) (us : List Nat) : Bool :=
  match kind with
  | 1 => us.all fun l => (laneOf s l).state = .idle && (powerSet s l).jump.ok && gapOpen 1 (powerNs s l) s
  | 2 => recoatGap s
  | 3 => gapOpen 3 40000000 s
  | 4 => gapOpen 4 40000000 s
  | _ => true

/-- CAL_REQUEST (R531). -/
def startCalRequest (r : Ref) (kind : Nat) (immediate : Bool) (mask : BitVec 128) (s : State) : State :=
  let (us, absent) := calUnits s kind mask.toNat
  if 6 < kind || absent || (kind = 1 && us.any fun l => !powerReady s l) then endWith r stParam s
  else if immediate && !calIdle s kind us then endWith r stBusy s
  else
    let now := runsNow s kind us
    let s := us.foldl (fun s u =>
      if kind = 0 then askGrid u s
      else if kind = 5 then s
      else if kind = 6 then (if calRunning s 6 0 then s else beginRun 6 0 s)
      else calWait kind u s) s
    let us := if kind = 0 then us.filter fun l => calRunning s 0 l else us
    if us.isEmpty then endWith r stDone s
    else if now then
      calPump (setHk (fun h => { h with groups := h.groups ++
        [{ ref := r, kind := kind, left := us, worst := bestQuality kind, bad := false }] }) s)
    else calPump (endWith r stDeferred s)

def execCalRequest (h : Hdr) (kind : Nat) (immediate : Bool) (mask : BitVec 128) (s : State) :
    Host.Outcome State Fault Refusal :=
  .next (postDescriptor (.calRequest h kind immediate mask) h 0x90 (startCalRequest h.ref kind immediate mask) s)

/-- A unit's CAL_START is too near to be withdrawn (R241, R533). -/
def calCommitted (s : State) (kind u : Nat) : Bool :=
  (actions s).any fun a => match a.work with
    | .calStart k us => k = kind && us.contains u && decide (a.launch < s.now + 200)
    | _ => false

/-- CAL_CANCEL (R534): a CAL_REQUEST whose unit no longer waits ends with ABORTED_HOST (log 44). -/
def startCalCancel (r : Ref) (kind : Nat) (mask : BitVec 128) (s : State) : State :=
  if 6 < kind || calFused s kind mask.toNat then endWith r stParam s
  else
    let us := ((calUnits s kind mask.toNat).1).filter fun u => calWaiting s kind u && !calCommitted s kind u
    let s := us.foldl (fun s u => dropWait kind u s) s
    let hit := fun g : CalGroup => g.kind = kind && g.left.any fun u => us.contains u
    let s := (s.hk.groups.filter hit).foldl (fun s g => endWith g.ref stAbHost s)
      (setHk (fun h => { h with groups := h.groups.filter fun g => !hit g }) s)
    endWith r stDone s

def execCalCancel (h : Hdr) (kind : Nat) (mask : BitVec 128) (s : State) : Host.Outcome State Fault Refusal :=
  .next (postDescriptor (.calCancel h kind mask) h 0x91 (startCalCancel h.ref kind mask) s)

/-- HK_THROTTLE_FLOOR (R514, R534). -/
def startHkThrottleFloor (r : Ref) (level : Nat) (s : State) : State :=
  if 2 < level then endWith r stParam s
  else endWith r stDone (keepFloor (setHk (fun h => { h with hostFloor := BitVec.ofNat 2 level }) s))

def execHkThrottleFloor (h : Hdr) (level : Nat) (s : State) : Host.Outcome State Fault Refusal :=
  .next (postDescriptor (.hkThrottleFloor h level) h 0x92 (startHkThrottleFloor h.ref level) s)

/-- CAL_RUN_DONE (R531): the run of a kind ends. `results` gives each unit's quality and equaliser setting as the eye monitor found
them, and `pairs` the two temperatures of each sensor in a self-check (R529). -/
def calRunDone (kind : Nat) (results : List (Nat × Nat × Nat)) (pairs : List (Int × Int)) (s : State) : State :=
  if 6 < kind then s
  else endRun kind results (if kind = 6 && calRunning s 6 0 then rosCheck pairs s else s)

def execCalRunDone (t : Ns) (kind : Nat) (results : List (Nat × Nat × Nat)) (pairs : List (Int × Int)) (s : State) :
    Host.Outcome State Fault Refusal :=
  .next (calRunDone kind results pairs (passTo t s))

/-- CAL_OVERDUE (R531): a request has waited longer than CAL_DEFER. -/
def calOverdue (kind u : Nat) (s : State) : State :=
  match s.hk.waits.find? fun w => w.kind = kind && w.unit = u with
  | none => s
  | some w =>
    if w.overdue || s.now ≤ w.since + 1000000000 * s.prof.system.calDeferS then s
    else
      let s := setHk (fun h => { h with
        waits := h.waits.map fun x => if x.kind = kind && x.unit = u then { x with overdue := true } else x }) s
      raise 0x2011 (natLE 1 kind ++ natLE 1 u ++ natLE 4 ((s.now - w.since) / 1000000000)) s

def execCalOverdue (t : Ns) (kind unit : Nat) (s : State) : Host.Outcome State Fault Refusal :=
  .next (calOverdue kind unit (passTo t s))

/-- DARK_GATHER_TIMEOUT (R526): a gathering that has taken longer than 1 s starts again. -/
def darkTimeout (l : Nat) (s : State) : State :=
  match (laneCal s l).gather with
  | none => s
  | some g => if g.n < 1024 && decide (g.since + 1000000000 < s.now) then setLaneCal l (fun x => { x with gather := none }) s else s

def execDarkGatherTimeout (t : Ns) (lane : Nat) (s : State) : Host.Outcome State Fault Refusal :=
  .next (darkTimeout lane (passTo t s))

end Sys2Proof.Machine
end

