-- ==== Sys2Proof/Machine/ImagePipe.lean ====
section
/-! DEFINITION. The image pipeline: correction, outputs, the Mere branch, statistics and the judgement of the bed (R434 to R440). -/

namespace Sys2Proof.Machine

/-- A frame as rows of u16 values. -/
abbrev Image := List (List Nat)

/-- Pixel (x, y). -/
def pix (im : Image) (x y : Nat) : Nat := (im.getD y []).getD x 0

/-- The image of size w × h with pixel `f x y`. -/
def mkImage (w h : Nat) (f : Nat → Nat → Nat) : Image := (List.range h).map fun y => (List.range w).map fun x => f x y

/-- The 16-bit register at byte `off` of ISP_PORT of port p. -/
def ispHalf (s : State) (p off : Nat) : Nat := cfgF s (0x780000 + 0x8000 * p + off / 4 * 4) (8 * (off % 4)) 16

/-- CFA of a port: 0 RGGB, 1 GRBG, 2 GBRG, 3 BGGR, 4 MONO (R420). -/
def cfaOf (s : State) (p : Nat) : Nat := camF s p 0 11 3

/-- The CFA channel of a pixel: its place in the 2 × 2 cell of the pattern, in reading order; 0 for MONO. -/
def cfaChannel (cfa x y : Nat) : Nat := if 4 ≤ cfa then 0 else x % 2 + 2 * (y % 2)

/-- The colour of a CFA channel: 0 R, 1 G, 2 B. -/
def cfaColour (cfa channel : Nat) : Nat :=
  match cfa with
  | 0 => [0, 1, 1, 2].getD channel 0
  | 1 => [1, 0, 2, 1].getD channel 0
  | 2 => [1, 2, 0, 1].getD channel 0
  | _ => [2, 1, 1, 0].getD channel 0

/-- BLACK of the channel of a pixel. -/
def blackAt (s : State) (p x y : Nat) : Nat := ispHalf s p (2 * cfaChannel (cfaOf s p) x y)

/-- The mean of a list, rounded (R9). -/
def meanOf (l : List Nat) : Nat := if l.isEmpty then 0 else roundDivN (l.foldl (· + ·) 0) l.length

/-- Steps 1 to 3 of R434. -/
def blackStep (s : State) (p : Nat) (im : Image) : Image :=
  im.mapIdx fun y row => row.mapIdx fun x v => v - blackAt s p x y

/-- The pixels of the port's defect list. -/
def defects (s : State) (p : Nat) : List (Nat × Nat) :=
  (List.range (min 4096 (cfgF s (0x780000 + 0x8000 * p + 0x30) 0 13))).map fun i =>
    (cfgF s (0x780000 + 0x8000 * p + 0x1000 + 4 * i) 0 13, cfgF s (0x780000 + 0x8000 * p + 0x1000 + 4 * i) 16 13)

/-- A defect pixel takes the mean of its nearest same-colour neighbours in its line. -/
def defectStep (s : State) (p : Nat) (im : Image) : Image :=
  let d := if 4 ≤ cfaOf s p then 1 else 2
  (defects s p).foldl (fun out (x, y) =>
    let row := im.getD y []
    let left := if d ≤ x then [row.getD (x - d) 0] else []
    let right := if x + d < row.length then [row.getD (x + d) 0] else []
    if x < row.length then out.modify y fun r => r.set x (meanOf (left ++ right)) else out) im

/-- SHADE of a node. -/
def shade (s : State) (p c row col : Nat) : Nat := ispHalf s p (0x5000 + 2 * (289 * c + 17 * row + col))

/-- The lens-shading step for one pixel: bilinear in the grid, rounded at the end. -/
def shadePixel (s : State) (p w h x y v : Nat) : Nat :=
  let c := cfaChannel (cfaOf s p) x y
  let i := min 15 (16 * x / (w - 1))
  let j := min 15 (16 * y / (h - 1))
  let fx := 16 * x - i * (w - 1)
  let fy := 16 * y - j * (h - 1)
  let g := (shade s p c j i * (w - 1 - fx) + shade s p c j (i + 1) * fx) * (h - 1 - fy)
    + (shade s p c (j + 1) i * (w - 1 - fx) + shade s p c (j + 1) (i + 1) * fx) * fy
  min 65535 (roundDivN (v * g) (16384 * (w - 1) * (h - 1)))

/-- The corrected mosaic: the result of steps 1 to 3. -/
def mosaic (s : State) (p : Nat) (raw : Image) : Image :=
  let im := defectStep s p (blackStep s p raw)
  im.mapIdx fun y row => row.mapIdx fun x v => shadePixel s p (camWidth s p) (camHeight s p) x y v

/-- Demosaic: colour c at (x, y), the mean of the pixels of that colour in the 3 × 3 neighbourhood, border pixels replicated. -/
def demosaic (cfa w h : Nat) (im : Image) (c x y : Nat) : Nat :=
  if 4 ≤ cfa || cfaColour cfa (cfaChannel cfa x y) = c then pix im x y
  else
    let near := fun (k n : Nat) => [k - 1, k, min (k + 1) (n - 1)]
    meanOf ((near y h).flatMap fun yy => (near x w).filterMap fun xx =>
      if cfaColour cfa (cfaChannel cfa xx yy) = c then some (pix im xx yy) else none)

/-- Step 5: row k of CCM and OFS. -/
def colourCorrect (s : State) (p k r g b : Nat) : Nat :=
  let m := fun i => signExt 16 (ispHalf s p (0x10 + 2 * (3 * k + i)))
  let ofs := signExt 16 (ispHalf s p (0x22 + 2 * k))
  (clampI 0 65535 (roundDiv (m 0 * r + m 1 * g + m 2 * b + ofs * 4096) 4096)).toNat

/-- R, G and B of step 5 at a pixel. -/
def rgbAt (s : State) (p : Nat) (im : Image) (x y : Nat) : Nat × Nat × Nat :=
  let one := fun c => demosaic (cfaOf s p) (camWidth s p) (camHeight s p) im c x y
  let r := one 0
  let g := one 1
  let b := one 2
  (colourCorrect s p 0 r g b, colourCorrect s p 1 r g b, colourCorrect s p 2 r g b)

/-! ### Outputs (R435) -/

/-- The sRGB encoding of v / 65,535 in 8 bits, exactly: the result reaches k where the encoded value reaches k − ½. -/
def srgb8 (v : Nat) : Nat :=
  if v ≤ 205 then roundDivN (v * 1292 * 255) (100 * 65535)
  else (List.range 255).countP fun k =>
    decide ((2000 * (k + 1) + 27050) ^ 12 * 65535 ^ 5 ≤ v ^ 5 * 538050 ^ 12)

/-- The display image: sRGB, then the mean of each d × d block. -/
def displayBytes (s : State) (p : Nat) (im : Image) : List Byte :=
  let d := dispDecim s p
  (List.range (dispH s p)).flatMap fun y => (List.range (dispW s p)).flatMap fun x =>
    let block := (List.range d).flatMap fun j => (List.range d).map fun i => rgbAt s p im (d * x + i) (d * y + j)
    [BitVec.ofNat 8 (meanOf (block.map fun q => srgb8 q.1)), BitVec.ofNat 8 (meanOf (block.map fun q => srgb8 q.2.1)),
     BitVec.ofNat 8 (meanOf (block.map fun q => srgb8 q.2.2))]

/-- The machine-vision image: the corrected mosaic, or 8-bit luma. -/
def visionBytes (s : State) (p : Nat) (im : Image) : List Byte :=
  match outMv s p with
  | 1 => im.flatMap fun row => row.flatMap fun v => natLE 2 v
  | 2 => (List.range (camHeight s p)).flatMap fun y => (List.range (camWidth s p)).flatMap fun x =>
    let (r, g, b) := rgbAt s p im x y
    natLE 1 (min 255 (roundDivN (77 * r + 150 * g + 29 * b) 65536))
  | _ => []

/-! ### Statistics (R438, R439) -/

/-- The zone column of x for a width, or the zone row of y for a height. -/
def zoneIndex (n x : Nat) : Nat := if n / 32 = 0 then 15 else min 15 (x / (n / 32 * 2))

/-- Zone 16 × row + column of a pixel. -/
def zoneOf (w h x y : Nat) : Nat := 16 * zoneIndex h y + zoneIndex w x

/-- A frame's statistics. -/
structure Stats where
  hist : List Nat
  means : List Nat
  invalid : List Bool
  min : Nat
  max : Nat
  focus : Nat
deriving DecidableEq, Repr

/-- The zones that hold a filled or padded pixel (`pads` gives rows with their first such column), and those that hold no pixel. -/
def invalidZones (w h : Nat) (pads : List (Nat × Nat)) : List Bool :=
  let hit := pads.flatMap fun (y, x) => (List.range (w - x)).map fun i => zoneOf w h (x + i) y
  let some_ := fun n => (List.range n).map fun x => zoneIndex n x
  (List.range 256).map fun z => hit.contains z || !((some_ w).contains (z % 16)) || !((some_ h).contains (z / 16))

/-- The statistics over the corrected mosaic. -/
def statsOf (w h : Nat) (mono : Bool) (pads : List (Nat × Nat)) (im : Image) : Stats :=
  let all := im.flatten
  let d := if mono then 1 else 2
  let diffs := im.flatMap fun row => (List.range (row.length - d)).map fun x =>
    ((row.getD x 0 : Int) - (row.getD (x + d) 0 : Nat)).natAbs
  let invalid := invalidZones w h pads
  { hist := (List.range 256).map fun b => all.countP fun v => v / 256 = b
    means := (List.range 256).map fun z =>
      if invalid.getD z true then 0
      else meanOf (im.mapIdx (fun y row => (row.mapIdx fun x v => (x, v)).filterMap fun (x, v) =>
        if zoneOf w h x y = z then some v else none)).flatten
    invalid := invalid
    min := all.foldl min 65535, max := all.foldl max 0, focus := meanOf diffs }

/-- The statistics record (R439). -/
def statsRecord (num gen flags pixels : Nat) (t : Stats) : List Byte :=
  padTo 2048 (natLE 4 num ++ natLE 4 gen ++ natLE 2 flags ++ natLE 2 t.min ++ natLE 2 t.max ++ natLE 2 0 ++ natLE 4 t.focus
    ++ natLE 4 pixels ++ natLE 32 (maskOf ((List.range 256).filter fun z => t.invalid.getD z false)) ++ natLE 8 0
    ++ (t.hist.flatMap fun n => natLE 4 n) ++ (t.means.flatMap fun n => natLE 2 n))

/-- Insertion into a rising list. -/
def insertUp (n : Nat) : List Nat → List Nat
  | [] => [n]
  | m :: ms => if n ≤ m then n :: m :: ms else m :: insertUp n ms

/-- A rising list. -/
def sortUp (l : List Nat) : List Nat := l.foldl (fun acc n => insertUp n acc) []

/-- The statistics of a bed image show a defect (R440). -/
def bedDefect (s : State) (t : Stats) : Bool :=
  let bad := t.invalid.countP fun b => b
  let valid := (List.zip t.invalid t.means).filterMap fun (i, m) => if i then none else some m
  let sorted := sortUp valid
  let median := sorted.getD ((sorted.length - 1) / 2) 0
  let dev := cfgF s 0x7C0098 0 16
  decide (cfgF s 0x7C0090 8 8 < bad) || valid.isEmpty
  || valid.any (fun m => decide (m < cfgF s 0x7C0094 0 16) || decide (cfgF s 0x7C0094 16 16 < m))
  || decide (cfgF s 0x7C0090 16 9 ≤ valid.countP fun m => decide (dev < ((m : Int) - (median : Nat)).natAbs))

/-! ### The Mere branch (R437) -/

/-- A binary64 value from its bits; an infinity or a NaN reads as 0 (log 20). -/
def F64.ofBits (b : Nat) : F64 :=
  let e := bits b 52 11
  let m := if e = 0 then bits b 0 52 else bits b 0 52 + 2 ^ 52
  if e = 2047 then F64.zero
  else F64.round (bit b 63) m (((max e 1 : Nat) : Int) - 1075) false

/-- MB_M[i]. -/
def mbM (s : State) (i : Nat) : F64 := F64.ofBits (cfgWord s (0x7C0008 + 8 * i) + 2 ^ 32 * cfgWord s (0x7C000C + 8 * i))

/-- Breakpoint k of the curve: V and T. -/
def mbCurve (s : State) (k : Nat) : Nat × Nat := (cfgF s (0x7C0044 + 4 * k) 0 16, cfgF s (0x7C0044 + 4 * k) 16 16)

/-- The curve at a value, interpolated as in R146 and clamped to 1 to 65,535. -/
def mbConvert (s : State) (v : Nat) : Nat :=
  let n := cfgF s 0x7C0040 0 5
  let t : Int :=
    if v < (mbCurve s 0).1 then (mbCurve s 0).2
    else match (List.range (n - 1)).find? fun k => decide ((mbCurve s k).1 ≤ v) && decide (v < (mbCurve s (k + 1)).1) with
      | none => (mbCurve s (n - 1)).2
      | some k =>
        let (v0, t0) := mbCurve s k
        let (v1, t1) := mbCurve s (k + 1)
        let w := roundDivN ((v - v0) * 65536) (v1 - v0)
        lerp t0 t1 w 65536
  (clampI 1 65535 t).toNat

/-- One cell of the assimilation frame. -/
def mbCell (s : State) (p : Nat) (im : Image) (invalid : List Bool) (i : Nat) : Nat :=
  let m := s.mere
  let half := F64.ofBits 0x3FE0000000000000
  let at_ := fun (o : Int) (k : Nat) => (F64.ofInt (2 * o + (2 * k + 1) * m.cell)).mul half
  let x := at_ m.x0 (i % m.nx)
  let y := at_ m.y0 (i / m.nx)
  let map_ := fun a => (((mbM s a).mul x).add ((mbM s (a + 1)).mul y)).add (mbM s (a + 2))
  let n := cfgF s 0x7C0004 0 4
  let u := (map_ 0).floor - ((n - 1) / 2 : Nat)
  let v := (map_ 3).floor - ((n - 1) / 2 : Nat)
  let w := camWidth s p
  let h := camHeight s p
  if n = 0 || u < 0 || v < 0 || decide ((w : Int) < u + n) || decide ((h : Int) < v + n) then 0
  else
    let box := (List.range n).flatMap fun j => (List.range n).map fun k => (u.toNat + k, v.toNat + j)
    let values := box.map fun q => pix im q.1 q.2
    if box.any (fun q => invalid.getD (zoneOf w h q.1 q.2) true) || values.any fun z => decide (cfgF s 0x7C0004 16 16 ≤ z) then 0
    else mbConvert s (meanOf values)

/-- The assimilation frame of a camera frame. -/
def mereFrame (s : State) (p : Nat) (im : Image) (pads : List (Nat × Nat)) : List Nat :=
  let invalid := invalidZones (camWidth s p) (camHeight s p) pads
  (List.range (s.mere.nx * s.mere.ny)).map fun i => mbCell s p im invalid i

end Sys2Proof.Machine
end

