-- ==== Sys2Proof/Machine/Zip.lean ====
section
/-! DEFINITION. Compression channels and engines (R463 to R470). -/

namespace Sys2Proof.Machine

def zipChan (s : State) (c : Nat) : ZipChan := unit s.zip.chans c .reset

def setZip (c : Nat) (f : ZipChan → ZipChan) (s : State) : State :=
  { s with zip := { s.zip with chans := modUnit s.zip.chans c f } }

/-- The job of a channel changes. -/
def setZipJob (c : Nat) (f : ZipJob → ZipJob) (s : State) : State := setZip c (fun z => { z with job := z.job.map f }) s

/-- A Mere channel is assigned (MERE_CH_EN, MERE_CH). -/
def mereChan (s : State) : Option Nat := if cfgB s 0x840000 3 then some (cfgF s 0x840000 0 3) else none

/-- OUT_CODE and CODE_CH of a camera port. -/
def codeChan (s : State) (p : Nat) : Option Nat :=
  if cfgB s (0x700000 + 0x10000 * p) 24 then some (cfgF s (0x700000 + 0x10000 * p) 25 3) else none

/-- A channel belongs to a camera or to Mere (R465). -/
def zipInternal (s : State) (c : Nat) : Bool :=
  mereChan s == some c || (List.range 8).any fun p => codeChan s p == some c

/-- The throttle divisor (R514). -/
def throttleDiv (s : State) : Nat := 2 ^ s.hk.level.toNat

/-! ### Blocks that are ready (R463, R468) -/

/-- Pieces of Basin less their first `k` bytes. -/
def dropPieces : List (Nat × Nat) → Nat → List (Nat × Nat)
  | [], _ => []
  | (a, n) :: ps, k => if n ≤ k then dropPieces ps (k - n) else (a + k, n - k) :: ps

/-- The first `k` bytes of pieces. -/
def takePieces : List (Nat × Nat) → Nat → List (Nat × Nat)
  | [], _ => []
  | (a, n) :: ps, k => if k = 0 then [] else (a, min n k) :: takePieces ps (k - n)

/-- The bytes of pieces. -/
def readPieces (ps : List (Nat × Nat)) (s : State) : List Byte := ps.flatMap fun p => memRead p.1 p.2 s

/-- The first uncorrectable word of pieces. -/
def poisonPieces (ps : List (Nat × Nat)) (s : State) : Option Nat := ps.findSome? fun p => poisonIn p.1 p.2 s

/-- The largest EPB block. -/
def epbMost : Nat := 65536 + 20

/-- The block of a decode that comes next, as it stands in the stream. -/
def nextPieces (j : ZipJob) (ps : List (Nat × Nat)) : List (Nat × Nat) := takePieces (dropPieces ps j.inPos) epbMost

/-- The block that an engine could take: its input bytes (for a decode its output bytes) and LAST (R458, R468). -/
def zipReady (j : ZipJob) (s : State) : Option (Nat × Bool) :=
  if j.work.isSome || j.failed.isSome then none
  else match j.src with
    | .mem _ left avail =>
      let n := min j.form.full left
      if left = 0 || avail < n then none else some (n, n = left)
    | .own bs =>
      let n := min j.form.full bs.length
      if n = 0 then none else some (n, n = bs.length)
    | .feed =>
      let b := j.buffer.length
      if j.ending && decide (b ≤ j.form.full) then (if b = 0 then none else some (b, true))
      else if j.form.full ≤ b then some (j.form.full, false)
      else if j.flushing && decide (j.form.unit ≤ b) then some (b / j.form.unit * j.form.unit, false)
      else none
    | .pieces ps => some (min 65536 (field (readPieces (takePieces (dropPieces ps j.inPos) 16) s) 8 4), false)

/-- The class of a channel (PRIO). -/
def zipPrio (s : State) (c : Nat) : Bool := cfgB s 0x840000 (8 + c)

/-- The channels in the order in which an engine looks at them (R463). -/
def zipOrder (s : State) : List Nat :=
  let ring := (List.range 8).map fun k => (s.zip.ptr + k) % 8
  ring.filter (fun c => zipPrio s c) ++ ring.filter fun c => !zipPrio s c

/-- The first channel with a block that is ready. -/
def zipPick (s : State) : Option (Nat × ZipJob × (Nat × Bool)) :=
  (zipOrder s).findSome? fun c => (zipChan s c).job.bind fun j => (zipReady j s).map fun w => (c, j, w)

/-- An idle engine takes a block: 2 bytes in a ns at full clock, at the rate of its start (R463, R464). -/
def engineTake (e : Nat) (s : State) : State :=
  match unit s.zip.engs e .reset, zipPick s with
  | eng, some (c, j, w) =>
    if eng.chan.isSome then s
    else
      let due := s.now + (w.1 * throttleDiv s + 1) / 2
      let s := setZipJob c (fun j => { j with work := some w }) s
      { s with zip := { s.zip with
          ptr := (c + 1) % 8
          engs := s.zip.engs.set e { eng with chan := some c, decode := j.decode, since := s.now, due := due } } }
  | _, none => s

/-- Every idle engine takes a block that is ready. -/
def zipDispatch (s : State) : State := (List.range 4).foldl (fun s e => engineTake e s) s

/-! ### Ends of a job (R465, R467) -/

/-- USED of every entry of a chain table (R466). -/
def writeUsed (j : ZipJob) (s : State) : State :=
  match j.table with
  | some t => (List.range j.used.length).foldl (fun s i => memWrite 36 (t + 16 * i + 12) (natLE 4 (j.used.getD i 0)) s) s
  | none => s

/-- The coding of a camera frame has ended. -/
def frameCoded (port frame st bytes : Nat) (s : State) : State :=
  let f := fun x : CamFrame => if x.num.toNat = frame && x.coding then { x with code := some (st, bytes) } else x
  { s with cams := modUnit s.cams port fun c => { c with frame := c.frame.map f, closing := c.closing.map f } }

/-- The coding of the field of step `k` has ended. -/
def saveCoded (k st bytes : Nat) (saves : List Saving) : List Saving :=
  saves.map fun v => if v.copied.any fun f => f.2.1 = k then { v with result := some (st, bytes) } else v

/-- The engines leave a channel whose job has ended. -/
def engineLeave (c : Nat) (s : State) : State :=
  { s with zip := { s.zip with engs := s.zip.engs.map fun e => if e.chan = some c then { e with chan := none } else e } }

/-- A job's outcome reaches its user: the host's descriptors, the camera frame or the saved field. A streaming job with no descriptor
left keeps it for the next one (log 50). -/
def zipEnd (c : Nat) (j : ZipJob) (st detail data : Nat) (s : State) : State :=
  let s := writeUsed j s
  let s := setZip c (fun z => { z with
    noSpace := if st = stNoSpace then satInc z.noSpace else z.noSpace
    noGain := if st = stNoGain then satInc z.noGain else z.noGain
    limit := if st = stLimit then satInc z.limit else z.limit
    dataErr := if st = stData then satInc z.dataErr else z.dataErr }) s
  let refs := j.flushRefs ++ j.feeds.map (fun f => f.ref) ++ j.endRef.toList ++ j.ref.toList
  let keep := j.opened && refs.isEmpty
  let next := (zipChan s c).next
  let s := if keep then setZipJob c (fun j => { j with failed := some (st, data), work := none }) s
    else setZip c (fun z => { z with job := next.head?, next := next.drop 1 }) s
  let s := engineLeave c s
  if j.user = 3 then frameCoded j.port j.frame st data s
  else if j.user = 4 then { s with mere := { s.mere with saves := saveCoded j.frame st data s.mere.saves } }
  else refs.foldl (fun s r => finishIn (280 + c) r st detail data s) s

/-- The stream of a job is whole (R467). -/
def zipWhole (c : Nat) (j : ZipJob) (s : State) : State :=
  if !j.keep && decide (j.consumed ≤ j.written) then zipEnd c j stNoGain 0 j.written s
  else zipEnd c j stDone j.blocks j.written s

/-- An uncorrectable word in the input (R467). -/
def zipEcc (c : Nat) (j : ZipJob) (a : Nat) (s : State) : State := zipEnd c j stEcc 0 0 (eccUe 36 a s)

/-! ### Feeding (R468) -/

/-- A flush with no whole row or group buffered writes no block (R468). -/
def flushEmpty (c : Nat) (s : State) : State :=
  match (zipChan s c).job with
  | none => s
  | some j =>
    if j.flushing && !j.ending && j.work.isNone && decide (j.buffer.length < j.form.unit) then
      j.flushRefs.foldl (fun s r => finishIn (280 + c) r stDone 0 j.written s)
        (setZipJob c (fun j => { j with flushing := false, flushRefs := [] }) s)
    else s

/-- A FEED has been read in whole. -/
def feedTaken (c : Nat) (f : ZipFeed) (j : ZipJob) (s : State) : State :=
  if f.only then flushEmpty c (setZipJob c (fun j => { j with flushing := true, flushRefs := j.flushRefs ++ [f.ref] }) s)
  else if f.fin then
    if j.buffer.length % j.form.unit != 0 || (j.buffer.isEmpty && j.work.isNone) then
      zipEnd c { j with endRef := some f.ref } stData 0 0 s
    else setZipJob c (fun j => { j with ending := true, flushing := f.flush, endRef := some f.ref }) s
  else
    let s := finishIn (280 + c) f.ref stDone 0 0 s
    flushEmpty c (setZipJob c (fun j => { j with flushing := f.flush }) s)

/-- Input goes into the buffer of 64 KiB as far as it fits, FEEDs in their order; after a flush the next FEED waits for its
block (R468). -/
def zipFill : Nat → Nat → State → State
  | 0, _, s => s
  | k + 1, c, s =>
    match (zipChan s c).job with
    | none => s
    | some j =>
      match j.feeds with
      | [] => s
      | f :: rest =>
        let n := min f.len (65536 - j.buffer.length)
        if j.flushing || j.ending || (n = 0 && f.len != 0) then s
        else
          match poisonIn f.addr n s with
          | some a => zipEcc c j a s
          | none =>
            let j' := { j with buffer := j.buffer ++ memRead f.addr n s, feeds := rest }
            if n = f.len then zipFill k c (feedTaken c f j' (setZipJob c (fun _ => j') s))
            else setZipJob c (fun _ => { j' with feeds := { f with addr := f.addr + n, len := f.len - n } :: rest }) s

/-- The buffer is filled and the engines take what is ready. -/
def zipGo (c : Nat) (s : State) : State :=
  let n := match (zipChan s c).job with | some j => j.feeds.length + 1 | none => 0
  zipDispatch (zipFill n c s)

/-! ### ZIP_BLOCK_DONE (R463) -/

/-- The input of the block in progress, with the first uncorrectable word met. -/
def zipInput (j : ZipJob) (n : Nat) (s : State) : List Byte × Option Nat :=
  match j.src with
  | .mem a _ _ => (memRead a n s, poisonIn a n s)
  | .own bs => (bs.take n, none)
  | .feed => (j.buffer.take n, none)
  | .pieces _ => ([], none)

/-- The input less the block's. -/
def ZipSrc.drop (n : Nat) : ZipSrc → ZipSrc
  | .mem a left avail => .mem (a + n) (left - n) (avail - n)
  | .own bs => .own (bs.drop n)
  | .feed => .feed
  | .pieces ps => .pieces ps

/-- The buffer that a block of `n` bytes goes to: the one in use, or the next of a chain (R466). -/
def zipPlace (j : ZipJob) (n : Nat) : Option Nat :=
  [j.cur, j.cur + 1].find? fun i => match j.bufs.getD i (0, 0) with | (_, size) => decide (j.used.getD i 0 + n ≤ size)

/-- What a channel counts for a block. -/
def countBlock (c i o : Nat) (stored : Bool) (s : State) : State :=
  setZip c (fun z => { z with
    bytesIn := z.bytesIn + BitVec.ofNat 32 i, bytesOut := z.bytesOut + BitVec.ofNat 32 o, blocks := z.blocks + 1
    stored := if stored then z.stored + 1 else z.stored }) s

/-- The block of an encoding is written (R457, R466, R467). LAST and FLUSHED of a streaming job are decided now, so that an END or a
flush that came while the block was coded still marks it (R483). -/
def encodeDone (c : Nat) (j : ZipJob) (w : Nat × Bool) (s : State) : State :=
  match zipInput j w.1 s with
  | (_, some a) => zipEcc c j a s
  | (input, none) =>
    let isFeed := match j.src with | .feed => true | _ => false
    let rest := j.buffer.length - w.1
    let last := if isFeed then j.ending && rest == 0 else w.2
    let flushed := isFeed && j.flushing && (last || (!j.ending && decide (rest < j.form.unit)))
    let block := epbBlock j.form input (j.blocks == 0) last flushed
    match zipPlace j block.length with
    | none => zipEnd c j stNoSpace 0 j.consumed s
    | some i =>
      let s := memWrite 36 ((j.bufs.getD i (0, 0)).1 + j.used.getD i 0) block s
      let s := countBlock c w.1 block.length (epbStored block) s
      let j : ZipJob := { j with
        used := j.used.modify i fun u => u + block.length
        cur := i
        src := j.src.drop w.1
        buffer := if isFeed then j.buffer.drop w.1 else j.buffer
        consumed := j.consumed + w.1
        written := j.written + block.length
        blocks := j.blocks + 1
        work := none
        flushing := j.flushing && !flushed
        flushRefs := if flushed && !last then [] else j.flushRefs }
      let refs := if flushed && !last then ((zipChan s c).job.map fun x => x.flushRefs).getD [] else []
      let s := refs.foldl (fun s r => finishIn (280 + c) r stDone 0 j.written s) (setZipJob c (fun _ => j) s)
      if last then zipWhole c j s else s

/-- The block of a decode is written (R462, R469). -/
def decodeDone (c : Nat) (j : ZipJob) (s : State) : State :=
  match j.src with
  | .pieces ps =>
    let here := nextPieces j ps
    match poisonPieces here s with
    | some a => zipEcc c j a s
    | none =>
      match epbDecode (readPieces here s) with
      | none => zipEnd c j stData j.blocks j.written s
      | some o =>
        if o.first != (j.blocks == 0) then zipEnd c j stData j.blocks j.written s
        else if j.limit < j.written + o.input.length then zipEnd c j stLimit 0 j.written s
        else
          let s := memWrite 36 (j.out + j.written) o.input s
          let s := countBlock c o.size o.input.length (field (readPieces here s) 2 1 == 0) s
          let j : ZipJob := { j with
            inPos := j.inPos + o.size, consumed := j.consumed + o.size, written := j.written + o.input.length, blocks := j.blocks + 1
            work := none }
          let s := setZipJob c (fun _ => j) s
          if o.last then zipEnd c j stDone j.blocks j.written s else s
  | _ => s

/-- ZIP_BLOCK_DONE: an engine finishes its block and takes the next. -/
def zipBlockDone (e : Nat) (s : State) : State :=
  let eng := unit s.zip.engs e .reset
  match eng.chan with
  | none => s
  | some c =>
    if s.now < eng.due then s
    else
      let done : ZipEng := { eng with chan := none, blocks := eng.blocks + 1, busyNs := eng.busyNs + (s.now - eng.since) }
      let s := { s with zip := { s.zip with engs := s.zip.engs.set e done } }
      match (zipChan s c).job with
      | none => zipDispatch s
      | some j =>
        match j.work with
        | none => zipDispatch s
        | some w => zipGo c (if j.decode then decodeDone c j s else encodeDone c j w s)

def execZipBlockDone (t : Ns) (engine : Nat) (s : State) : Host.Outcome State Fault Refusal :=
  .next (zipBlockDone engine (passTo t s))

/-! ### Jobs of the module (R465) -/

/-- A job with nothing done. -/
def ZipJob.fresh (user : Nat) (form : EpbForm) (src : ZipSrc) : ZipJob :=
  { user := user, port := 0, frame := 0, ref := none, opened := false, decode := false, form := form, keep := true, table := none,
    bufs := [], used := [], cur := 0, src := src, buffer := [], feeds := [], flushing := false, flushRefs := [], ending := false,
    endRef := none, consumed := 0, written := 0, blocks := 0, work := none, failed := none, out := 0, limit := 0, inPos := 0 }

/-- An internal job starts, or waits for its channel. -/
def zipPost (c : Nat) (j : ZipJob) (s : State) : State :=
  zipGo c (setZip c (fun z => if z.job.isNone then { z with job := some j } else { z with next := z.next ++ [j] }) s)

/-- A job ends with ABORTED_RESET (R465, R467). -/
def zipAbort (c : Nat) (s : State) : State :=
  match (zipChan s c).job with
  | none => s
  | some j => zipEnd c j stAbReset 0 0 s

/-- The host's jobs end (R485). -/
def zipAbortHost (s : State) : State :=
  let s := (List.range 8).foldl (fun s c =>
    match (zipChan s c).job with
    | some j => if j.user = 2 then setZip c (fun z => { z with job := if z.job.any (fun j => j.opened) then z.next.head? else z.job
                                                               next := if z.job.any (fun j => j.opened) then z.next.drop 1 else z.next })
        (zipAbort c s) else s
    | none => s) s
  zipDispatch s

/-! ### Opcodes (R466 to R470) -/

/-- The entries of a chain table (R466): address and size. -/
def readTable (a n : Nat) (s : State) : List (Nat × Nat) :=
  (List.range n).map fun i => (memNat (a + 16 * i) 8 s, memNat (a + 16 * i + 8) 4 s)

/-- The output of a job: its buffers and its chain table, or the status that refuses it (R466, R470). -/
def zipOutput (chained : Bool) (a n : Nat) (s : State) : Except Nat (List (Nat × Nat) × Option Nat) :=
  if chained then
    if n = 0 || 256 < n || !hostMem a (16 * n) s then .error stParam
    else if (poisonIn a (16 * n) s).isSome then .error stEcc
    else
      let t := readTable a n s
      if t.all fun e => e.1 % 4 == 0 && e.2 % 4 == 0 && decide (67584 ≤ e.2) && hostMem e.1 e.2 s then .ok (t, some a) else .error stParam
  else if n < 64 || !hostMem a n s then .error stParam
  else .ok ([(a, n)], none)

/-- What every descriptor for a channel meets first (R465, R470). -/
def zipFree (c : Nat) (s : State) : Nat :=
  if 8 ≤ c then stParam else if zipInternal s c then stState else if (zipChan s c).job.isSome then stBusy else stDone

/-- A host job is opened or started. -/
def zipStart (r : Ref) (c : Nat) (opened : Bool) (form : EpbForm) (src : ZipSrc) (keep chained : Bool) (a n : Nat) (s : State) :
    State :=
  match zipOutput chained a n s with
  | .error st => finishIn (280 + c) r st 0 0 (if st = stEcc then (match poisonIn a (16 * n) s with | some w => eccUe 36 w s | none => s) else s)
  | .ok (bufs, table) =>
    let j : ZipJob := { ZipJob.fresh 2 form src with
      ref := if opened then none else some r, opened := opened, keep := keep, table := table, bufs := bufs
      used := List.replicate bufs.length 0 }
    let s := zipPost c j s
    if opened then finishIn (280 + c) r stDone 0 0 s else s

/-- ZIP_ENCODE (R467, R470). -/
def startZipEncode (r : Ref) (channel kind format flags width addr len out size : Nat) (s : State) : State :=
  let st := zipFree channel s
  if st != stDone then finishIn (280 + channel % 8) r st 0 0 s
  else match readForm kind format width with
    | none => finishIn (280 + channel) r stParam 0 0 s
    | some f =>
      if 4 ≤ flags || len = 0 || len % f.unit != 0 || !hostMem addr len s then finishIn (280 + channel) r stParam 0 0 s
      else zipStart r channel false f (.mem addr len len) (bit flags 1) (bit flags 0) out size s

def execZipEncode (h : Hdr) (channel kind format flags width addr len out size : Nat) (s : State) :
    Host.Outcome State Fault Refusal :=
  .next (postDescriptor (.zipEncode h channel kind format flags width addr len out size) h 0x70
    (startZipEncode h.ref channel kind format flags width addr len out size) s)

/-- ZIP_OPEN (R468, R470). -/
def startZipOpen (r : Ref) (channel kind format flags width out size : Nat) (s : State) : State :=
  let st := zipFree channel s
  if st != stDone then finishIn (280 + channel % 8) r st 0 0 s
  else match readForm kind format width with
    | none => finishIn (280 + channel) r stParam 0 0 s
    | some f =>
      if 4 ≤ flags then finishIn (280 + channel) r stParam 0 0 s
      else zipStart r channel true f .feed (bit flags 1) (bit flags 0) out size s

def execZipOpen (h : Hdr) (channel kind format flags width out size : Nat) (s : State) : Host.Outcome State Fault Refusal :=
  .next (postDescriptor (.zipOpen h channel kind format flags width out size) h 0x71
    (startZipOpen h.ref channel kind format flags width out size) s)

/-- A ZIP_FEED or ZIP_FLUSH joins the ones that wait; after END a ZIP_FLUSH shares the last block (R483), and a kept outcome ends
it and the job (log 50). -/
def zipQueue (c : Nat) (f : ZipFeed) (s : State) : State :=
  match if zipInternal s c then none else (zipChan s c).job with
  | none => finishIn (280 + c % 8) f.ref stState 0 0 s
  | some j =>
    if !j.opened then finishIn (280 + c) f.ref stState 0 0 s
    else match j.failed with
      | some (st, data) =>
        zipDispatch (finishIn (280 + c) f.ref st 0 data (setZip c (fun z => { z with job := z.next.head?, next := z.next.drop 1 }) s))
      | none =>
        if j.ending && f.only then setZipJob c (fun j => { j with flushing := true, flushRefs := j.flushRefs ++ [f.ref] }) s
        else if j.ending then finishIn (280 + c) f.ref stState 0 0 s
        else zipGo c (setZipJob c (fun j => { j with feeds := j.feeds ++ [f] }) s)

/-- ZIP_FEED (R468). -/
def startZipFeed (r : Ref) (channel flags addr len : Nat) (s : State) : State :=
  if 8 ≤ channel || 4 ≤ flags || (len != 0 && !hostMem addr len s) then finishIn (280 + channel % 8) r stParam 0 0 s
  else zipQueue channel { ref := r, addr := addr, len := len, flush := bit flags 0, fin := bit flags 1, only := false } s

def execZipFeed (h : Hdr) (channel flags addr len : Nat) (s : State) : Host.Outcome State Fault Refusal :=
  .next (postDescriptor (.zipFeed h channel flags addr len) h 0x72 (startZipFeed h.ref channel flags addr len) s)

/-- ZIP_FLUSH (R468). -/
def startZipFlush (r : Ref) (channel : Nat) (s : State) : State :=
  if 8 ≤ channel then endWith r stParam s
  else zipQueue channel { ref := r, addr := 0, len := 0, flush := true, fin := false, only := true } s

def execZipFlush (h : Hdr) (channel : Nat) (s : State) : Host.Outcome State Fault Refusal :=
  .next (postDescriptor (.zipFlush h channel) h 0x73 (startZipFlush h.ref channel) s)

/-- The input of a decode: one piece, or USED bytes of each entry (R470). -/
def decodePieces (chained : Bool) (a n : Nat) (s : State) : Option (List (Nat × Nat)) :=
  if chained then
    if n = 0 || 256 < n || !hostMem a (16 * n) s then none
    else
      let ps := (List.range n).map fun i => (memNat (a + 16 * i) 8 s, memNat (a + 16 * i + 12) 4 s)
      if ps.all fun e => e.2 == 0 || hostMem e.1 e.2 s then some ps else none
  else if hostMem a n s then some [(a, n)] else none

/-- ZIP_DECODE (R469). -/
def startZipDecode (r : Ref) (channel flags addr len out limit : Nat) (s : State) : State :=
  let st := zipFree channel s
  if st != stDone then finishIn (280 + channel % 8) r st 0 0 s
  else match if 2 ≤ flags || !hostMem out limit s then none else decodePieces (bit flags 0) addr len s with
    | none => finishIn (280 + channel) r stParam 0 0 s
    | some ps =>
      let form : EpbForm := { kind := 2, bytes := 1, channels := 1, width := 0 }
      zipPost channel { ZipJob.fresh 2 form (.pieces ps) with ref := some r, decode := true, out := out, limit := limit } s

def execZipDecode (h : Hdr) (channel flags addr len out limit : Nat) (s : State) : Host.Outcome State Fault Refusal :=
  .next (postDescriptor (.zipDecode h channel flags addr len out limit) h 0x74
    (startZipDecode h.ref channel flags addr len out limit) s)

end Sys2Proof.Machine
end

