-- ==== Sys2Proof/Machine/CamCmds.lean ====
section
/-! DEFINITION. Camera frames, exposure windows, LED strobes and matrix syncs, and the camera opcodes (R421 to R454). -/

namespace Sys2Proof.Machine

/-! ### The frame in progress (R423 to R425) -/

/-- The bits that a data type has per pixel, and 0 for one that is not supported (R419). -/
def dtBits (dt : Nat) : Nat :=
  match dt with
  | 0x2A => 8
  | 0x2B => 10
  | 0x2C => 12
  | 0x2D => 14
  | 0x2E => 16
  | _ => 0

/-- The frame in progress changes. -/
def setFrame (p : Nat) (f : CamFrame → CamFrame) (s : State) : State :=
  setCam p (fun c => { c with frame := c.frame.map f }) s

/-- FLAGS of a frame (R442). -/
def CamFrame.flags (f : CamFrame) : Nat :=
  b1 f.truncated + 2 * b1 f.overlong + 4 * b1 f.fixed + 8 * b1 f.crc + 16 * b1 f.overrun + 32 * b1 f.seq.isSome + 64 * b1 f.reset

/-- The frame of a port whose T_F is `tF` no longer is waited for; `bad` makes it a recoat defect (R440). -/
def judged (p : Nat) (tF : Ns) (bad : Bool) (s : State) : State :=
  if s.jobs.bedDue.contains (p, tF) then
    { s with jobs := { s.jobs with bedDue := s.jobs.bedDue.erase (p, tF), defect := s.jobs.defect || bad } }
  else s

/-- BED_IMAGE that has lasted its duration goes on when its last verdict is there (R440). -/
def afterJudging (s : State) : State := if s.jobs.state == 7 && s.jobs.bedDue.isEmpty then stageEnd s else s

/-- The triggers that a port waits on have no frame any more: where BED_IMAGE judges them, that is a defect (R427, R440). -/
def dropWaits (p : Nat) (s : State) : State :=
  afterJudging ((camOf s p).waits.foldl (fun s w => judged p w.tF true s) (setCam p (fun c => { c with waits := [] }) s))

/-- The bytes of a raw row. -/
def rowBytes (row : List Nat) : List Byte := row.flatMap fun v => natLE 2 v

/-- The coding job of a frame is posted with nothing in its raw area yet (R436, R465). -/
def postCoding (p : Nat) (f : CamFrame) (s : State) : State :=
  match f.slot, codeChan s p with
  | some a, some ch =>
    let form : EpbForm := { kind := 1, bytes := 2, channels := 1, width := camWidth s p }
    let total := 2 * camWidth s p * camHeight s p
    let j := ZipJob.fresh 3 form (.mem (a + rawOff s p) total 0)
    zipPost ch { j with
      port := p, frame := f.num.toNat, bufs := [(a + codeOff s p, (camOf s p).slotSize - codeOff s p)], used := [0] }
      (setFrame p (fun f => { f with coding := true }) s)
  | _, _ => s

/-- The raw area of a frame holds `n` bytes more (R465). -/
def rawGrown (p : Nat) (num : BitVec 32) (n : Nat) (s : State) : State :=
  let grow := fun j : ZipJob =>
    match j.src with
    | .mem a left avail =>
      if j.user = 3 && j.port = p && j.frame = num.toNat then { j with src := .mem a left (avail + n) } else j
    | _ => j
  match codeChan s p with
  | some ch => zipGo ch (setZip ch (fun z => { z with job := z.job.map grow, next := z.next.map grow }) s)
  | none => s

/-- Rows are put into the raw area from row `y` on. -/
def storeRows (p : Nat) (f : CamFrame) (y : Nat) (rows : List (List Nat)) (s : State) : State :=
  match f.slot with
  | some a =>
    if outCode s p then
      let bs := rows.flatMap rowBytes
      rawGrown p f.num bs.length (memWrite (16 + p) (a + rawOff s p + 2 * camWidth s p * y) bs s)
    else s
  | none => s

/-- An assimilation frame reaches Mere; of two before one step only the later is used (R171, R437). -/
def toMere (cells : List Nat) (s : State) : State :=
  { s with mere := { s.mere with
      frame := some (cells, s.now)
      assimSkipped := if s.mere.frame.isSome then satInc s.mere.assimSkipped else s.mere.assimSkipped } }

/-- The Mere branch serves a frame (R171, R437). -/
def mereServes (s : State) (p : Nat) (f : CamFrame) : Bool :=
  s.mere.run && s.prof.mere.assimCamera = p && (s.prof.mere.assimMode = 2 || (s.prof.mere.assimMode = 1 && f.post))

/-- The frame in progress ends (R424): missing lines are filled, the images are written, and the frame waits for its statistics and
its coding. -/
def endFrame (p : Nat) (byReset : Bool) (s : State) : State :=
  match (camOf s p).frame with
  | none => s
  | some f =>
    let w := camWidth s p
    let h := camHeight s p
    let n := f.rows.length
    let fill := (List.range (h - n)).map fun i => (List.range w).map fun x => blackAt s p x (n + i)
    let s := if f.lines = 0 && !f.coding then postCoding p f s else s
    let s := storeRows p f n fill s
    let f := ((camOf s p).frame).getD f
    let f : CamFrame := { f with
      rows := f.rows ++ fill, pads := f.pads ++ (List.range (h - n)).map (fun i => (n + i, 0)), fe := s.now
      truncated := f.truncated || decide (n < h), reset := f.reset || byReset }
    let im := mosaic s p f.rows
    let s := match f.slot with
      | some a =>
        let s := if outMv s p = 0 then s else memWrite (16 + p) (a + 0x1000) (visionBytes s p im) s
        if outDisp s p then memWrite (16 + p) (a + dispOff s p) (displayBytes s p im) s else s
      | none => s
    let s := if mereServes s p f then toMere (mereFrame s p im f.pads) s else s
    let bad := f.flags - 32 * b1 f.seq.isSome != 0
    let first := bad && !(camOf s p).flagged
    let stops := (camOf s p).stops
    let s := setCam p (fun c => { c with
      frame := none, closing := c.closing ++ [f], readout := s.now - f.fs, flagged := bad, stops := []
      truncated := if f.truncated then c.truncated + 1 else c.truncated
      overlong := if f.overlong then c.overlong + 1 else c.overlong }) s
    let s := if first then raise 0x7003 (natLE 1 p ++ natLE 4 f.num.toNat ++ natLE 2 f.flags) s else s
    takeCapacity (stops.foldl (fun s r => finishIn (272 + p) r stDone 0 0 s) s)

/-- The trigger that a frame start answers: the oldest that waits; T_F is the FS in mode 0, and where no trigger waits. -/
def answeredTrig (p : Nat) (s : State) : XTrig × State :=
  match (camOf s p).waits with
  | w :: rest => (w, setCam p (fun c => { c with waits := rest }) s)
  | [] =>
    let s := if camMode s p = 0 then takeSet p s.now s else s
    ({ tF := s.now, gen := (setInForce s p).gen, seq := none, post := s.jobs.state == 3, product := noProduct }, s)

/-- CAMERA_FS (R423 to R425): an FS of another virtual channel is counted, and one while a frame is in progress ends that frame. -/
def cameraFs (p vc : Nat) (s : State) : State :=
  if !(camOf s p).streaming then s
  else if vc != camF s p 0 3 2 then setCam p (fun c => { c with otherPkt := satInc c.otherPkt }) s
  else
    let s := endFrame p false s
    let (w, s) := answeredTrig p s
    let c := camOf s p
    let num := c.frameNo + 1
    let s := setCam p (fun c => { c with
      frameNo := num, fsTimes := if camMode s p = 0 then (s.now :: c.fsTimes).take 2 else c.fsTimes }) s
    let total := admitted s + camF s p 8 0 11
    if admitCapacity s < total then
      let s := setCam p (fun c => { c with dropped := c.dropped + 1 }) s
      afterJudging (judged p w.tF true (raise 0x7001 (natLE 1 p ++ natLE 4 num.toNat ++ natLE 2 (admitted s)) s))
    else
      let slot := if c.ringSet then some (slotOf s p num.toNat) else none
      let f : CamFrame :=
        { num := num, gen := w.gen, tF := w.tF, fs := s.now, fe := 0, product := w.product, seq := w.seq, post := w.post
          truncated := false, overlong := false, fixed := false, crc := false, overrun := false, reset := false, lines := 0, fixes := 0
          rows := [], pads := [], lastLine := s.now, slot := slot, coding := false, code := none, stats := false }
      let s := setCam p (fun c => { c with frame := some f, expGen := w.gen }) s
      match slot with
      | some a => memWrite (16 + p) a (natLE 4 num.toNat) (rtAccess (16 + p) a s)
      | none => s

def execCameraFs (t : Ns) (port vc : Nat) (s : State) : Host.Outcome State Fault Refusal :=
  .next (cameraFs port vc (camSettle (passTo t s)))

/-- A line of the frame in progress (R424): padded or cut to WIDTH, or discarded beyond HEIGHT. -/
def takeLine (p dt : Nat) (crcBad : Bool) (pixels : List Nat) (s : State) : State :=
  match (camOf s p).frame with
  | none => s
  | some f =>
    let w := camWidth s p
    let y := f.rows.length
    let s := if crcBad then
        setFrame p (fun f => { f with crc := true }) (setCam p (fun c => { c with crcErr := satInc c.crcErr }) s)
      else s
    if camHeight s p ≤ y then
      setFrame p (fun f => { f with lines := f.lines + 1, overlong := true, lastLine := s.now })
        (setCam p (fun c => { c with excess := satInc c.excess }) s)
    else
      let row := (pixels.map fun v => v % 2 ^ dtBits dt * 2 ^ (16 - dtBits dt)).take w
      let n := row.length
      let full := row ++ (List.range (w - n)).map fun i => blackAt s p (n + i) y
      let fix := pixels.length != w
      let s := if fix then setCam p (fun c => { c with lineFixes := satInc c.lineFixes }) s else s
      let s := if f.coding then s else postCoding p f s
      let s := setFrame p (fun f => { f with
        lines := f.lines + 1, rows := f.rows ++ [full], lastLine := s.now, fixed := f.fixed || fix
        fixes := if fix then f.fixes + 1 else f.fixes, pads := if n < w then f.pads ++ [(y, n)] else f.pads }) s
      storeRows p f y [full] s

/-- CAMERA_LINE: `hdr` is 0 for a good header, 1 for a corrected one and 2 for one that discards its packet; `lost` is a line that the input
buffer has lost (R421, R426). -/
def cameraLine (p vc dt hdr : Nat) (crcBad lost : Bool) (pixels : List Nat) (s : State) : State :=
  if !(camOf s p).streaming && (camOf s p).frame.isNone then s
  else if 2 ≤ hdr then setCam p (fun c => { c with hdrErr := satInc c.hdrErr }) s
  else if vc != camF s p 0 3 2 || dt != camF s p 0 5 6 || dtBits dt = 0 then
    setCam p (fun c => { c with otherPkt := satInc c.otherPkt }) s
  else if lost then setFrame p (fun f => { f with overrun := true }) s
  else takeLine p dt crcBad pixels s

def execCameraLine (t : Ns) (port vc dt hdr : Nat) (crcBad lost : Bool) (pixels : List Nat) (s : State) :
    Host.Outcome State Fault Refusal :=
  .next (cameraLine port vc dt hdr crcBad lost pixels (camSettle (passTo t s)))

/-- CAMERA_FE. -/
def cameraFe (p vc : Nat) (s : State) : State :=
  if vc != camF s p 0 3 2 then
    (if (camOf s p).streaming then setCam p (fun c => { c with otherPkt := satInc c.otherPkt }) s else s)
  else endFrame p false s

def execCameraFe (t : Ns) (port vc : Nat) (s : State) : Host.Outcome State Fault Refusal :=
  .next (cameraFe port vc (camSettle (passTo t s)))

/-- LINE_TIMEOUT after the last line, or after the FS of a frame without one (R424). -/
def lineTimeout (p : Nat) (s : State) : State :=
  match (camOf s p).frame with
  | some f => if f.lastLine + 10000 * camF s p 0x10 0 16 ≤ s.now then endFrame p false s else s
  | none => s

def execLineTimeout (t : Ns) (port : Nat) (s : State) : Host.Outcome State Fault Refusal :=
  .next (lineTimeout port (camSettle (passTo t s)))

/-- CAM_NO_FRAME (R427): no FS within FRAME_TIMEOUT of the oldest trigger that waits. -/
def camNoFrame (p : Nat) (s : State) : State :=
  match (camOf s p).waits with
  | [] => s
  | w :: rest =>
    if s.now < w.tF + 1000000 * camF s p 0x10 16 16 then s
    else
      let s := setCam p (fun c => { c with waits := rest, noFrame := satInc c.noFrame }) s
      afterJudging (judged p w.tF true (raise 0x7002 (natLE 1 p ++ natLE 8 w.tF) s))

def execCamNoFrame (t : Ns) (port : Nat) (s : State) : Host.Outcome State Fault Refusal :=
  .next (camNoFrame port (camSettle (passTo t s)))

/-- CAPTURE_PLAN_TRIGGER (R433). -/
def execCapturePlanTrigger (t : Ns) (s : State) : Host.Outcome State Fault Refusal :=
  .next (afterJudging (planTrigger (camSettle (passTo t s))))

/-! ### The end of a frame (R439, R440, R442) -/

/-- A frame that has ended changes. -/
def setClosing (p : Nat) (num : BitVec 32) (f : CamFrame → CamFrame) (s : State) : State :=
  setCam p (fun c => { c with closing := c.closing.map fun x => if x.num = num then f x else x }) s

/-- STATS_COMPLETE: the record of the oldest frame without one is written, and the bed is judged by it. -/
def statsComplete (p : Nat) (s : State) : State :=
  match (camOf s p).closing.find? fun f => !f.stats with
  | none => s
  | some f =>
    let w := camWidth s p
    let h := camHeight s p
    let t := statsOf w h (decide (4 ≤ cfaOf s p)) f.pads (mosaic s p f.rows)
    let s := match f.slot with
      | some a => memWrite (16 + p) (a + 0x800) (statsRecord f.num.toNat f.gen.toNat f.flags (w * h) t) s
      | none => s
    let s := setClosing p f.num (fun x => { x with stats := true }) s
    afterJudging (judged p f.tF (bedDefect s t) s)

def execStatsComplete (t : Ns) (port : Nat) (s : State) : Host.Outcome State Fault Refusal :=
  .next (statsComplete port (camSettle (passTo t s)))

/-- Bytes 4 to 59 of the frame record. -/
def frameRecord (p : Nat) (f : CamFrame) : List Byte :=
  natLE 4 f.gen.toNat ++ natLE 2 f.flags ++ natLE 1 p ++ natLE 1 (match f.code with | some (st, _) => st | none => 0xFF)
    ++ natLE 8 f.tF ++ natLE 8 f.fe ++ natLE 4 f.product ++ natLE 4 f.lines ++ natLE 4 f.fixes
    ++ natLE 4 (match f.code with | some (_, n) => n | none => 0) ++ natLE 4 (f.seq.getD 0xFFFFFFFF) ++ List.replicate 12 0

/-- FRAME_PUBLISH: the oldest frame with its statistics whose coding has ended (R442). -/
def framePublish (p : Nat) (s : State) : State :=
  match (camOf s p).closing with
  | [] => s
  | f :: rest =>
    if !f.stats || (f.coding && f.code.isNone) then s
    else
      let s := match f.slot with
        | some a => memWrite (16 + p) (a + 60) (natLE 4 f.num.toNat) (memWrite (16 + p) (a + 4) (frameRecord p f) s)
        | none => s
      setCam p (fun c => { c with
        closing := rest, lastFrame := f.num, frames := c.frames + 1, published := c.published || f.slot.isSome }) s

def execFramePublish (t : Ns) (port : Nat) (s : State) : Host.Outcome State Fault Refusal :=
  .next (framePublish port (camSettle (passTo t s)))

/-- CCI_WRITE_DONE (R422, R431): the transfer at the head of the port's list has been made, or has failed; `entry` is the entry of a
set and `value` what a CAM_CCI has read. -/
def cciDone (p : Nat) (ok : Bool) (entry value : Nat) (s : State) : State :=
  match (camOf s p).cci with
  | [] => s
  | .host r write _ _ _ :: rest =>
    let s := setCam p (fun c => { c with cci := rest }) s
    if ok then finishIn (272 + p) r stDone 0 (if write then 0 else value) s else finishIn (272 + p) r stTimeout 0 0 s
  | .set g :: rest =>
    let n := match (camOf s p).pending.find? fun x => x.gen = g with | some x => x.cci.length | none => 0
    if !ok then
      let s := setCam p (fun c => { c with
        cci := rest, pending := c.pending.filter fun x => x.gen != g, cciFail := satInc c.cciFail }) s
      raise 0x7004 (natLE 1 p ++ natLE 4 g.toNat ++ natLE 1 entry) s
    else if entry + 1 < n then s
    else setCam p (fun c => { c with
      cci := rest, pending := c.pending.map fun x => if x.gen = g then { x with written := some s.now } else x }) s

def execCciWriteDone (t : Ns) (port : Nat) (ok : Bool) (entry value : Nat) (s : State) : Host.Outcome State Fault Refusal :=
  .next (cciDone port ok entry value (camSettle (passTo t s)))

/-- PIPELINE_THROTTLE_DEADLINE (R426). -/
def execPipelineThrottleDeadline (t : Ns) (s : State) : Host.Outcome State Fault Refusal :=
  .next (takeCapacity (camSettle (passTo t s)))

/-- A BLOCK reset of a port (R453): the frame ends flagged TRUNCATED and RESET, and the port no longer streams. -/
def camBlockReset (p : Nat) (s : State) : State :=
  let s := setFrame p (fun f => { f with truncated := true }) s
  let s := endFrame p true s
  dropWaits p (setCam p (fun c => { c with streaming := false, pending := [] }) s)

/-! ### Camera opcodes (R454) -/

/-- The camera port is fused off or does not exist (R3). -/
def camFused (s : State) (port : Nat) : Bool := decide (s.variant.cameras ≤ port)

/-- CAM_STREAM: capture starts at once. -/
def startCamStream (r : Ref) (port : Nat) (run : Bool) (s : State) : State :=
  let s := camSettle s
  if camFused s port then endWith r stParam s
  else if run then
    if !(camOf s port).ringSet then finishIn (272 + port) r stState 0 0 s
    else finishIn (272 + port) r stDone 0 0 (setCam port (fun c => { c with streaming := true }) s)
  else
    if (camOf s port).frame.isSome then
      dropWaits port (setCam port (fun c => { c with streaming := false, stops := c.stops ++ [r] }) s)
    else finishIn (272 + port) r stDone 0 0 (dropWaits port (setCam port (fun c => { c with streaming := false }) s))

def execCamStream (h : Hdr) (port : Nat) (run : Bool) (s : State) : Host.Outcome State Fault Refusal :=
  .next (postDescriptor (.camStream h port run) h 0x60 (startCamStream h.ref port run) s)

/-- The CCI entries of CAM_EXP_WRITE: register, value and flags, then three reserved bytes (R454). -/
def readCci (a n : Nat) (s : State) : List CciWrite :=
  (List.range n).map fun i => { reg := memNat (a + 8 * i) 2 s, value := memNat (a + 8 * i + 2) 2 s, wide := bit (memNat (a + 8 * i + 4) 1 s) 0 }

/-- CAM_EXP_WRITE fills the back set (R429, R430). -/
def startCamExpWrite (r : Ref) (port len start mode count addr : Nat) (s : State) : State :=
  let s := camSettle s
  let bad := camFused s port || len = 0 || 1000000 < len || 100000 < start || 2 ≤ mode || 16 < count
    || (count != 0 && !hostMem addr (8 * count) s)
  if bad then endWith r stParam s
  else match if count = 0 then none else poisonIn addr (8 * count) s with
    | some w => finishIn (272 + port) r stEcc 0 0 (eccUe 32 w s)
    | none =>
      if (List.range count).any fun i => 1 < memNat (addr + 8 * i + 4) 4 s then finishIn (272 + port) r stParam 0 0 s
      else
        let x : ExpSet := { ExpSet.none with len := len, start := start, pulse := mode == 1, cci := readCci addr count s }
        finishIn (272 + port) r stDone 0 0 (setCam port (fun c => { c with back := x }) s)

def execCamExpWrite (h : Hdr) (port len start mode count addr : Nat) (s : State) : Host.Outcome State Fault Refusal :=
  .next (postDescriptor (.camExpWrite h port len start mode count addr) h 0x61
    (startCamExpWrite h.ref port len start mode count addr) s)

/-- What CAM_EXP_COMMIT must meet: at most 4 sets are pending, those that wait for their launch counted. -/
def camCommitCheck (port : Nat) (s : State) : Nat :=
  if camFused s port then stParam
  else if 4 ≤ (camOf s port).pending.length + (camOf s port).commits.length then stBusy else stDone

/-- The commit takes place at tick `t`. -/
def applyCamCommit (r : Option Ref) (port : Nat) (t : Ns) (s : State) : State :=
  if t ≤ s.now then commitSet port t r s
  else setCam port (fun c => { c with commits := c.commits ++ [(t, r)] }) s

/-- CAM_EXP_COMMIT (R430). -/
def startCamExpCommit (r : Ref) (port launch : Nat) (s : State) : State :=
  let s := camSettle s
  let st := camCommitCheck port s
  if st = stParam then endWith r st s
  else if st != stDone then finishIn (272 + port) r st 0 0 s
  else match lightLaunch launch s with
    | none => finishIn (272 + port) r stState 0 0 s
    | some t => applyCamCommit (some r) port t s

def execCamExpCommit (h : Hdr) (port launch : Nat) (s : State) : Host.Outcome State Fault Refusal :=
  .next (postDescriptor (.camExpCommit h port launch) h 0x62 (startCamExpCommit h.ref port launch) s)

/-- What CAM_TRIGGER must meet. -/
def camTriggerCheck (mask : Nat) (s : State) : Nat :=
  if 2 ^ s.variant.cameras ≤ mask then stParam else if (bitsOf 8 mask).all fun p => camMode s p = 1 then stDone else stState

/-- The trigger fires at tick `t`. -/
def applyCamTrigger (r : Option Ref) (mask : Nat) (t : Ns) (s : State) : State :=
  if t ≤ s.now then hostTrigger mask r s else setIsp (fun i => { i with trigs := i.trigs ++ [(t, mask, r)] }) s

/-- CAM_TRIGGER (R427). -/
def startCamTrigger (r : Ref) (mask launch : Nat) (s : State) : State :=
  let s := camSettle s
  let st := camTriggerCheck mask s
  if st != stDone then endWith r st s
  else match lightLaunch launch s with
    | none => endWith r stState s
    | some t => applyCamTrigger (some r) mask t s

def execCamTrigger (h : Hdr) (mask launch : Nat) (s : State) : Host.Outcome State Fault Refusal :=
  .next (postDescriptor (.camTrigger h mask launch) h 0x63 (startCamTrigger h.ref mask launch) s)

/-- CAM_CCI: the transfer waits for those before it (R422, R431). -/
def startCamCci (r : Ref) (port : Nat) (write wide : Bool) (reg value : Nat) (s : State) : State :=
  let s := camSettle s
  if camFused s port then endWith r stParam s else setCam port (fun c => { c with cci := c.cci ++ [.host r write wide reg value] }) s

def execCamCci (h : Hdr) (port : Nat) (write wide : Bool) (reg value : Nat) (s : State) : Host.Outcome State Fault Refusal :=
  .next (postDescriptor (.camCci h port write wide reg value) h 0x64 (startCamCci h.ref port write wide reg value) s)

/-- CAM_RING (R441). -/
def startCamRing (r : Ref) (port base size slots : Nat) (s : State) : State :=
  let s := camSettle s
  if camFused s port then endWith r stParam s
  else if (camOf s port).streaming then finishIn (272 + port) r stState 0 0 s
  else if base % 4096 != 0 || size % 4096 != 0 || slots < 2 || 256 < slots
      || size < codeOff s port + (if outCode s port then 65536 else 0) || size < 0x1000 || !hostMem base (size * slots) s then
    finishIn (272 + port) r stParam 0 0 s
  else finishIn (272 + port) r stDone 0 0 (setCam port (fun c => { c with
    ringSet := true, published := false, base := BitVec.ofNat 64 base, slotSize := size, slots := slots }) s)

def execCamRing (h : Hdr) (port base size slots : Nat) (s : State) : Host.Outcome State Fault Refusal :=
  .next (postDescriptor (.camRing h port base size slots) h 0x65 (startCamRing h.ref port base size slots) s)

end Sys2Proof.Machine
end

