-- ==== Sys2Proof/Machine/Compose.lean ====
section
/-! DEFINITION. The compositor (R471 to R478, R484). -/

namespace Sys2Proof.Machine

def sceneOf (s : State) (k : Nat) : Scene := unit s.scenes k .reset

def setScene (k : Nat) (f : Scene → Scene) (s : State) : State := { s with scenes := modUnit s.scenes k f }

/-- A pixel: R, G, B and A. -/
structure Rgba where
  r : Nat
  g : Nat
  b : Nat
  a : Nat
deriving DecidableEq, Repr

/-! ### Scene records (R471) -/

/-- A layer record. -/
def readLayer (bs : List Byte) : CompLayer :=
  { source := field bs 0 1, format := field bs 1 1, isStatic := bit (field bs 2 1) 0, visible := bit (field bs 2 1) 1, alpha := field bs 3 1
    port := field bs 4 1, addr := field bs 8 8, aux := field bs 16 8, stride := field bs 24 4, srcX := field bs 28 2
    srcY := field bs 30 2, srcW := field bs 32 2, srcH := field bs 34 2, dstX := fieldS bs 36 2, dstY := fieldS bs 38 2
    dstW := field bs 40 2, dstH := field bs 42 2, fill := field bs 44 4, exposure := field bs 48 2 }

/-- A scene record. -/
def readScene (bs : List Byte) : SceneRec :=
  { outW := field bs 0 2, outH := field bs 2 2, periodic := field bs 4 1 == 1, bg := field bs 8 4, periodUs := field bs 12 4
    ring := field bs 16 8, stride := field bs 24 4, count := field bs 28 1
    layers := (List.range (field bs 5 1)).map fun i => readLayer (bs.drop (64 + 64 * i)) }

/-- BUF, the size of an output surface (R471). -/
def SceneRec.buf (r : SceneRec) : Nat := alignUp (4096 + r.stride * r.outH) 4096

/-- The bytes of a pixel of a SURFACE. -/
def surfaceBytes (format : Nat) : Nat :=
  match format with
  | 0 => 4
  | 1 => 3
  | 2 => 1
  | 3 => 6
  | _ => 2

/-- The step of a direction (R472). -/
def stepOf (src dst : Nat) : Nat := roundDivN (65536 * src) dst

/-- A step that the line buffers take (R474). -/
def stepOk (src dst : Nat) : Bool := decide (4096 ≤ stepOf src dst) && decide (stepOf src dst ≤ 524288)

/-- The bytes of Basin that a SURFACE covers: its first pixel and how far its last one reaches. -/
def surfaceSpan (l : CompLayer) : Nat × Nat :=
  let w := surfaceBytes l.format
  (l.addr + l.srcY * l.stride + l.srcX * w, (l.srcH - 1) * l.stride + l.srcW * w)

/-- The table at AUX that a layer needs: a palette, a tone curve, or none. -/
def auxBytes (l : CompLayer) : Nat :=
  match l.source, l.format with
  | 3, _ => 1024
  | 1, 2 => 1024
  | 1, 3 => 33
  | 1, 4 => 33
  | _, _ => 0

/-- What a layer must meet (R471, R474, R475, R600). The rectangle of a CAMERA or MERE layer lies in its source. -/
def layerOk (l : CompLayer) (bs : List Byte) (s : State) : Bool :=
  let dst := decide (1 ≤ l.dstW) && decide (l.dstW ≤ 4096) && decide (1 ≤ l.dstH) && decide (l.dstH ≤ 4096)
  let scaled := dst && stepOk l.srcW l.dstW && stepOk l.srcH l.dstH
  let aux := auxBytes l = 0 || hostMem l.aux (auxBytes l) s
  let inside := fun w h => decide (l.srcX + l.srcW ≤ w) && decide (l.srcY + l.srcH ≤ h)
  decide (field bs 2 1 < 4) && field bs 5 3 == 0 && allZero ((bs.drop 50).take 14) && (!l.isStatic || l.source == 1 || l.source == 4)
  && match l.source with
    | 0 => true
    | 1 => decide (l.format ≤ 4) && scaled && hostMem (surfaceSpan l).1 (surfaceSpan l).2 s && aux
    | 2 => decide (l.port < s.variant.cameras) && scaled && outDisp s l.port && inside (dispW s l.port) (dispH s l.port)
    | 3 => scaled && aux && decide (l.fill % 65536 < l.fill / 65536) && inside s.mere.nx s.mere.ny
    | 4 => dst
    | _ => false

/-- STATIC layers are layers 0 to s − 1 for some s (R475). -/
def staticsFirst (ls : List CompLayer) : Bool := (ls.dropWhile fun l => l.isStatic).all fun l => !l.isStatic

/-- What a scene must meet. -/
def sceneOk (bs : List Byte) (s : State) : Bool :=
  let r := readScene bs
  decide (16 ≤ r.outW) && decide (r.outW ≤ 4096) && decide (16 ≤ r.outH) && decide (r.outH ≤ 4096) && decide (field bs 4 1 ≤ 1)
  && decide (1 ≤ field bs 5 1) && decide (field bs 5 1 ≤ 8) && field bs 6 2 == 0 && allZero ((bs.drop 29).take 35)
  && (!r.periodic || r.periodUs = 0 || (decide (1000 ≤ r.periodUs) && decide (r.periodUs ≤ 10000000)))
  && r.ring % 4096 == 0 && r.stride % 64 == 0 && decide (4 * r.outW ≤ r.stride) && decide (2 ≤ r.count) && decide (r.count ≤ 8)
  && hostMem r.ring (r.count * r.buf) s && staticsFirst r.layers
  && (List.range r.layers.length).all fun i => layerOk (readLayer (bs.drop (64 + 64 * i))) ((bs.drop (64 + 64 * i)).take 64) s

/-! ### Pixels (R472, R473) -/

/-- A colour word, bytes R, G, B, A. -/
def colour (v : Nat) : Rgba := { r := v % 256, g := v / 256 % 256, b := v / 65536 % 256, a := v / 16777216 % 256 }

/-- The tone curve (R473). -/
def toneMap (curve : List Byte) (exposure v : Nat) : Nat :=
  let x := min 65535 (roundDivN (v * exposure) 256)
  let k := x / 2048
  let f := x % 2048
  roundDivN (field curve k 1 * (2048 - f) + field curve (k + 1) 1 * f) 2048

/-- Entry i of a palette. -/
def paletteAt (pal : List Byte) (i : Nat) : Rgba := colour (field pal (4 * i) 4)

/-- The palette index of a Mere cell (R472). -/
def heatIndex (lo hi t : Nat) : Nat := (clampI 0 255 (roundDiv (255 * ((t : Int) - lo)) (hi - lo))).toNat

/-- A pixel of a SURFACE, converted. -/
def surfacePixel (l : CompLayer) (aux : List Byte) (x y : Nat) (s : State) : Rgba :=
  let w := surfaceBytes l.format
  let px := memRead (l.addr + (l.srcY + y) * l.stride + (l.srcX + x) * w) w s
  let tone := fun v => toneMap aux l.exposure v
  match l.format with
  | 0 => colour (field px 0 4)
  | 1 => { r := field px 0 1, g := field px 1 1, b := field px 2 1, a := 255 }
  | 2 => paletteAt aux (field px 0 1)
  | 3 => { r := tone (field px 0 2), g := tone (field px 2 2), b := tone (field px 4 2), a := 255 }
  | _ => let v := tone (field px 0 2); { r := v, g := v, b := v, a := 255 }

/-- A source pixel of a layer, converted: `slot` is the camera slot, `view` NX and the cells of the Mere view. -/
def sourcePixel (l : CompLayer) (aux : List Byte) (slot : Nat) (view : Nat × List Nat) (x y : Nat) (s : State) : Rgba :=
  match l.source with
  | 1 => surfacePixel l aux x y s
  | 2 =>
    let a := slot + dispOff s l.port + 3 * ((l.srcY + y) * dispW s l.port + l.srcX + x)
    { r := memNat a 1 s, g := memNat (a + 1) 1 s, b := memNat (a + 2) 1 s, a := 255 }
  | 3 => paletteAt aux (heatIndex (l.fill % 65536) (l.fill / 65536) (view.2.getD ((l.srcY + y) * view.1 + l.srcX + x) 0))
  | _ => colour l.fill

/-- Output i of a line of `n` samples (R472): the area mean for a step of 65,536 or more, else between two samples. -/
def scaleAt (f : Nat → Nat) (n step i : Nat) : Nat :=
  if 65536 ≤ step then
    let lo := i * step
    let hi := min ((i + 1) * step) (65536 * n)
    let first := lo / 65536
    let last := (hi - 1) / 65536
    let sum := ((List.range (last + 1 - first)).map fun k =>
      f (first + k) * (min hi (65536 * (first + k + 1)) - max lo (65536 * (first + k)))).foldl (· + ·) 0
    roundDivN sum (hi - lo)
  else
    let p := min ((2 * i + 1) * step - 65536) (131072 * (n - 1))
    let k := p / 131072
    let q := p % 131072
    roundDivN (f k * (131072 - q) + f (min (k + 1) (n - 1)) * q) 131072

/-- A pixel of the scaled layer: horizontally, then vertically, each result rounded. -/
def scaledPixel (l : CompLayer) (src : Nat → Nat → Rgba) (x y : Nat) : Rgba :=
  if l.source = 4 then src 0 0
  else
    let one := fun c : Rgba → Nat =>
      scaleAt (fun j => scaleAt (fun i => c (src i j)) l.srcW (stepOf l.srcW l.dstW) x) l.srcH (stepOf l.srcH l.dstH) y
    { r := one (fun p => p.r), g := one (fun p => p.g), b := one (fun p => p.b), a := one (fun p => p.a) }

/-- Blending over what lies below (R472). -/
def blend (alpha : Nat) (p : Rgba) (below : Nat × Nat × Nat) : Nat × Nat × Nat :=
  let a := roundDivN (p.a * alpha) 255
  let mix := fun s d => roundDivN (a * s + (255 - a) * d) 255
  (mix p.r below.1, mix p.g below.2.1, mix p.b below.2.2)

/-- A layer over the pixel at (x, y). -/
def layerOver (l : CompLayer) (src : Nat → Nat → Rgba) (x y : Nat) (below : Nat × Nat × Nat) : Nat × Nat × Nat :=
  let dx := (x : Int) - l.dstX
  let dy := (y : Int) - l.dstY
  if 0 ≤ dx && decide (dx < (l.dstW : Int)) && decide (0 ≤ dy) && decide (dy < (l.dstH : Int)) then
    blend l.alpha (scaledPixel l src dx.toNat dy.toNat) below
  else below

/-- A layer is shown. -/
def CompLayer.shown (l : CompLayer) : Bool := l.visible && l.source != 0

/-- The AUX table of a layer. -/
def auxOf (l : CompLayer) (s : State) : List Byte := memRead l.aux (auxBytes l) s

/-- The static cache (R475): BG and the static layers, row by row. -/
def flatten (r : SceneRec) (s : State) : List (Nat × Nat × Nat) :=
  let bg := colour r.bg
  let ls := (r.layers.filter fun l => l.isStatic && l.shown).map fun l => (l, auxOf l s)
  (List.range (r.outW * r.outH)).map fun i =>
    ls.foldl (fun below p => layerOver p.1 (fun x y => sourcePixel p.1 p.2 0 (0, []) x y s) (i % r.outW) (i / r.outW) below)
      (bg.r, bg.g, bg.b)

/-- The pixels of a destination rectangle that lie in the output. -/
def clippedPixels (r : SceneRec) (l : CompLayer) : Nat :=
  let cut := fun (at_ : Int) (n w : Nat) => (min (at_ + n) (w : Int) - max at_ 0).toNat
  cut l.dstX l.dstW r.outW * cut l.dstY l.dstH r.outH

/-- COST (R476). -/
def costOf (r : SceneRec) : Nat :=
  r.outW * r.outH + ((r.layers.filter fun l => l.shown && !l.isStatic).map fun l => clippedPixels r l).foldl (· + ·) 0

/-! ### COMPOSE_START (R476, R477) -/

/-- LAYER_INDEX of the job, or all ones with no job. -/
def jobLayer (s : State) : Nat := if jobExists s then s.jobs.layerIndex.toNat else 0xFFFFFFFF

/-- The static cache is out of date (R475). -/
def cacheDue (k : Nat) (s : State) : Bool :=
  (sceneOf s k).rebuild || (sceneOf s k).cacheIndex != jobLayer s

/-- The newest finished surface of a scene: its HEAD_FRAME and its buffer. -/
def newestSurface (k : Nat) (s : State) : Option (Nat × Nat) :=
  let sc := sceneOf s k
  let best := sc.heads.foldl max 0
  if best = 0 then none else some (best, sc.heads.idxOf best)

/-- The buffer that the display scans in a scene. -/
def scanned (k : Nat) (s : State) : Option Nat := if s.edp.scene = some k then s.edp.shown.map fun x => x.2 else none

/-- The buffer of the next composition: the oldest that is neither scanned nor the newest finished (R477). -/
def nextBuffer (k : Nat) (s : State) : Nat :=
  let sc := sceneOf s k
  let free := (List.range sc.heads.length).filter fun b =>
    some b != scanned k s && some b != (newestSurface k s).map fun x => x.2
  match free with
  | [] => 0
  | b :: bs => bs.foldl (fun best b => if sc.heads.getD b 0 < sc.heads.getD best 0 then b else best) b

/-- The address of a buffer. -/
def SceneRec.bufAddr (r : SceneRec) (b : Nat) : Nat := r.ring + b * r.buf

/-- COMPOSE_LAYERs that wait change their layers, those of static layers apart. -/
def LayerChange.applyTo (c : LayerChange) (ls : List CompLayer) : List CompLayer :=
  ls.modify c.layer fun l => { l with
    visible := c.visible, alpha := c.alpha, dstX := c.dstX, dstY := c.dstY, addr := if c.addr = 0 then l.addr else c.addr }

/-- A change names a static layer. -/
def changesStatic (r : SceneRec) (c : LayerChange) : Bool := (r.layers.getD c.layer (readLayer [])).isStatic

/-- The changes that `p` picks are applied to the record; they leave the list. -/
def takeChanges (k : Nat) (static : Bool) (s : State) : List Ref × State :=
  match (sceneOf s k).rec_ with
  | none => ([], s)
  | some r =>
    let mine := (sceneOf s k).changes.filter fun c => changesStatic r c == static
    let ls := mine.foldl (fun ls c => c.applyTo ls) r.layers
    (mine.filterMap fun c => c.ref,
     setScene k (fun x => { x with
       rec_ := some { r with layers := ls }, changes := x.changes.filter fun c => changesStatic r c != static }) s)

/-- A composition starts (R476, R477, R483): the changes so far apply, HEAD_FRAME is written, and its sources are fixed. -/
def composeBegin (k : Nat) (ref : Option Ref) (s : State) : State :=
  let due := cacheDue k s
  let (refs, s) := takeChanges k false s
  match (sceneOf s k).rec_ with
  | none => s
  | some r =>
    let sc := sceneOf s k
    let head := (sc.number + 1).toNat
    let b := nextBuffer k s
    let s := memWrite 37 (r.bufAddr b) (natLE 4 head) s
    let cam := fun l : CompLayer =>
      if l.source = 2 && l.visible && (camOf s l.port).published then
        let a := slotOf s l.port (camOf s l.port).lastFrame.toNat
        some (a, memNat a 4 s)
      else none
    let view := s.mere.views.head?.map fun v => (v.seq, v.lastStep, v.nx, v.cells)
    let run : CompRun :=
      { head := head, buf := b, start := s.now, due := s.now + (costOf r * throttleDiv s * 10 + 47) / 48, cacheOld := due
        throttled := s.hk.level != 0, layerIndex := jobLayer s, scene := r
        cache := sc.cache, slots := r.layers.map cam, view := view, ref := ref }
    let s := setScene k (fun x => { x with
      number := x.number + 1, run := some run, heads := x.heads.set b 0, lateEpisode := false, cacheRefs := [] }) s
    (refs ++ sc.cacheRefs).foldl (fun s r => finishIn (288 + k) r stDone 0 0 s) s

/-- A start of a periodic scene, skipped as LATE while the composition before it has not ended (R476). -/
def composeStart (k : Nat) (s : State) : State :=
  let sc := sceneOf s k
  match sc.rec_ with
  | none => s
  | some r =>
    if sc.stopped || !r.periodic then s
    else if sc.run.isSome then
      let first := !sc.lateEpisode
      let s := setScene k (fun x => { x with late := satInc x.late, lateEpisode := true }) s
      if first then raise 0x7024 (natLE 1 k ++ natLE 4 (costOf r)) s else s
    else composeBegin k none s

/-- The COMPOSE_RUN whose launch has come. -/
def runDue (k : Nat) (s : State) : State :=
  match (sceneOf s k).runs with
  | [] => s
  | (r, t) :: rest =>
    if (sceneOf s k).run.isSome || decide (s.now < t) then s
    else composeBegin k (some r) (setScene k (fun x => { x with runs := rest }) s)

/-- COMPOSE_START. -/
def composeTick (k : Nat) (s : State) : State :=
  match (sceneOf s k).rec_ with
  | none => s
  | some r =>
    if !r.periodic then runDue k s
    else if r.periodUs != 0 && s.now % (1000 * r.periodUs) == 0 then composeStart k s
    else s

def execComposeStart (t : Ns) (scene : Nat) (s : State) : Host.Outcome State Fault Refusal :=
  .next (composeTick scene (passTo t s))

/-! ### COMPOSE_DONE (R477) -/

/-- The layers of a composition that are drawn over the cache, with their number, AUX table and camera slot. -/
def drawn (u : CompRun) (s : State) : List (CompLayer × List Byte × Nat) :=
  ((List.range u.scene.layers.length).map fun i => (u.scene.layers.getD i (readLayer []), u.slots.getD i none)).filterMap fun p =>
    let (l, slot) := p
    if !l.shown || l.isStatic || (l.source = 2 && slot.isNone) || (l.source = 3 && u.view.isNone) then none
    else some (l, auxOf l s, (slot.map fun x => x.1).getD 0)

/-- A row of the output. -/
def outputRow (u : CompRun) (ls : List (CompLayer × List Byte × Nat)) (y : Nat) (s : State) : List Byte :=
  let bg := colour u.scene.bg
  let view := match u.view with | some (_, _, nx, cells) => (nx, cells) | none => (0, [])
  (List.range u.scene.outW).flatMap fun x =>
    let base := match u.cache with
      | some c => c.getD (y * u.scene.outW + x) (bg.r, bg.g, bg.b)
      | none => (bg.r, bg.g, bg.b)
    let p := ls.foldl (fun below l => layerOver l.1 (fun i j => sourcePixel l.1 l.2.1 l.2.2 view i j s) x y below) base
    [BitVec.ofNat 8 p.1, BitVec.ofNat 8 p.2.1, BitVec.ofNat 8 p.2.2, 255]

/-- The layers whose source changed while it was read: a camera slot's HEAD_FRAME, or a view that is gone. -/
def tornMask (u : CompRun) (s : State) : Nat :=
  maskOf ((List.range u.scene.layers.length).filter fun i =>
    let l := u.scene.layers.getD i (readLayer [])
    match l.source, u.slots.getD i none, u.view with
    | 2, some (a, head), _ => memNat a 4 s != head
    | 3, _, some (seq, _) => l.visible && !(s.mere.views.any fun v => v.seq == seq)
    | _, _, _ => false)

/-- The layers that had no source. -/
def staleMask (u : CompRun) : Nat :=
  maskOf ((List.range u.scene.layers.length).filter fun i =>
    let l := u.scene.layers.getD i (readLayer [])
    l.visible && ((l.source = 2 && (u.slots.getD i none).isNone) || (l.source = 3 && u.view.isNone)))

/-- Bytes 4 to 59 of the output header. -/
def surfaceHeader (k : Nat) (u : CompRun) (torn : Nat) (s : State) : List Byte :=
  let mere := u.scene.layers.any fun l => l.source = 3 && l.visible
  let step := match u.view with | some (_, last, _) => if mere then last else 0 | none => 0
  let frame := (u.slots.findSome? fun x => x.map fun p => p.2).getD 0xFFFFFFFF
  natLE 2 u.scene.outW ++ natLE 2 u.scene.outH ++ natLE 1 k ++ natLE 1 (b1 u.cacheOld + 2 * b1 u.throttled) ++ natLE 1 torn
    ++ natLE 1 (staleMask u) ++ natLE 4 u.layerIndex ++ natLE 8 u.start ++ natLE 8 s.now ++ natLE 8 step ++ natLE 4 frame
    ++ List.replicate 16 0

/-- The first uncorrectable word that a composition's sources hold (R504). -/
def sourcesPoison (u : CompRun) (s : State) : Option Nat :=
  (drawn u s).findSome? fun p =>
    let l := p.1
    let aux := poisonIn l.aux (auxBytes l) s
    if aux.isSome then aux
    else match l.source with
      | 1 => poisonIn (surfaceSpan l).1 (surfaceSpan l).2 s
      | 2 => poisonIn (p.2.2 + dispOff s l.port) (3 * dispW s l.port * dispH s l.port) s
      | _ => none

/-- A scene is put in place (R471, R475): its cache is due, and its composition numbers start at 1. -/
def loadScene (k : Nat) (r : SceneRec) (ref : Ref) (s : State) : State :=
  let old := sceneOf s k
  let s := old.runs.foldl (fun s p => finishIn (288 + k) p.1 stAbHost 0 0 s) s
  let s := (old.changes.filterMap fun c => c.ref).foldl (fun s r => finishIn (288 + k) r stAbHost 0 0 s) s
  let s := setScene k (fun x => { x with
    rec_ := some r, heads := List.replicate r.count 0, lastFrame := 0, number := 0, cache := none, rebuild := true
    cacheIndex := jobLayer s, changes := [], runs := [], stopped := false
    lateEpisode := false, tornEpisode := false }) s
  finishIn (288 + k) ref stDone 0 0 s

/-- What waited for the end of a composition: COMPOSE_STOP, and COMPOSE_SCENE. -/
def afterRun (k : Nat) (s : State) : State :=
  let sc := sceneOf s k
  let s := sc.stops.foldl (fun s r => finishIn (288 + k) r stDone 0 0 s) (setScene k (fun x => { x with stops := [], loads := [] }) s)
  sc.loads.foldl (fun s p => loadScene k p.1 p.2 s) s

/-- COMPOSE_DONE: pixels, then the other fields, then TAIL_FRAME (R477). -/
def composeDone (k : Nat) (s : State) : State :=
  match (sceneOf s k).run with
  | none => s
  | some u =>
    if s.now < u.due then s
    else
      let bad := sourcesPoison u s
      let s := match bad with | some a => eccUe 37 a s | none => s
      let ls := drawn u s
      let a := u.scene.bufAddr u.buf
      let rows := (List.range u.scene.outH).map fun y => outputRow u ls y s
      let torn := tornMask u s
      let s := (List.range u.scene.outH).foldl (fun s y => memWrite 37 (a + 0x1000 + y * u.scene.stride) (rows.getD y []) s) s
      let s := memWrite 37 (a + 4) (surfaceHeader k u torn s) s
      let s := memWrite 37 (a + 60) (natLE 4 u.head) s
      let first := torn != 0 && !(sceneOf s k).tornEpisode
      let s := setScene k (fun x => { x with
        run := none, heads := x.heads.set u.buf u.head, lastFrame := BitVec.ofNat 32 u.head
        torn := if torn = 0 then x.torn else satInc x.torn, tornEpisode := torn != 0 }) s
      let s := if first then raise 0x7025 (natLE 1 k ++ natLE 1 torn) s else s
      let s := match u.ref with
        | some r => finishIn (288 + k) r (if bad.isSome then stEcc else stDone) 0 u.head s
        | none => s
      runDue k (afterRun k s)

def execComposeDone (t : Ns) (scene : Nat) (s : State) : Host.Outcome State Fault Refusal :=
  .next (composeDone scene (passTo t s))

/-- CACHE_REBUILD (R475): between compositions, the static changes apply and the cache is built. -/
def cacheRebuild (k : Nat) (s : State) : State :=
  if (sceneOf s k).run.isSome || !cacheDue k s then s
  else
    let (refs, s) := takeChanges k true s
    match (sceneOf s k).rec_ with
    | none => s
    | some r =>
      setScene k (fun x => { x with
        cache := some (flatten r s), rebuild := false, cacheIndex := jobLayer s
        cacheBuilds := x.cacheBuilds + 1, cacheRefs := x.cacheRefs ++ refs }) s

def execCacheRebuild (t : Ns) (scene : Nat) (s : State) : Host.Outcome State Fault Refusal :=
  .next (cacheRebuild scene (passTo t s))

/-! ### Opcodes (R484) -/

/-- The scene is bound to eDP, or will be from the next frame on. -/
def isDisplay (k : Nat) (s : State) : Bool := (match s.edp.bind with | some b => b | none => s.edp.scene) == some k

/-- COMPOSE_SCENE: the scene is in place when the composition in progress has ended. -/
def startComposeScene (r : Ref) (scene addr : Nat) (s : State) : State :=
  if 4 ≤ scene || !hostMem addr 576 s then endWith r stParam s
  else match poisonIn addr 576 s with
    | some w => finishIn (288 + scene) r stEcc 0 0 (eccUe 37 w s)
    | none =>
      let bs := memRead addr 576 s
      if !sceneOk bs s then finishIn (288 + scene) r stParam 0 0 s
      else if isDisplay scene s && !(readScene bs).periodic then finishIn (288 + scene) r stState 0 0 s
      else if (sceneOf s scene).run.isSome then setScene scene (fun x => { x with loads := x.loads ++ [(readScene bs, r)] }) s
      else loadScene scene (readScene bs) r s

def execComposeScene (h : Hdr) (scene addr : Nat) (s : State) : Host.Outcome State Fault Refusal :=
  .next (postDescriptor (.composeScene h scene addr) h 0x78 (startComposeScene h.ref scene addr) s)

/-- COMPOSE_RUN: LAUNCH is in ns after TOR, or 0 for the next lane tick. -/
def startComposeRun (r : Ref) (scene launch : Nat) (s : State) : State :=
  match (sceneOf s scene).rec_, (if launch = 0 then some (s.now + 1) else refTime true launch s) with
  | some x, some t =>
    if x.periodic then finishIn (288 + scene) r stState 0 0 s
    else setScene scene (fun x => { x with runs := x.runs ++ [(r, tickAt t)], stopped := false }) s
  | _, _ => if 4 ≤ scene then endWith r stParam s else finishIn (288 + scene) r stState 0 0 s

def execComposeRun (h : Hdr) (scene launch : Nat) (s : State) : Host.Outcome State Fault Refusal :=
  .next (postDescriptor (.composeRun h scene launch) h 0x79 (startComposeRun h.ref scene launch) s)

/-- COMPOSE_STOP: COMPOSE_RUNs that have not started end with ABORTED_HOST. -/
def startComposeStop (r : Ref) (scene : Nat) (s : State) : State :=
  if 4 ≤ scene then endWith r stParam s
  else if isDisplay scene s then finishIn (288 + scene) r stState 0 0 s
  else
    let s := (sceneOf s scene).runs.foldl (fun s p => finishIn (288 + scene) p.1 stAbHost 0 0 s) s
    let s := setScene scene (fun x => { x with stopped := true, runs := [] }) s
    if (sceneOf s scene).run.isSome then setScene scene (fun x => { x with stops := x.stops ++ [r] }) s
    else finishIn (288 + scene) r stDone 0 0 s

def execComposeStop (h : Hdr) (scene : Nat) (s : State) : Host.Outcome State Fault Refusal :=
  .next (postDescriptor (.composeStop h scene) h 0x7A (startComposeStop h.ref scene) s)

/-- What COMPOSE_LAYER must meet. -/
def composeLayerCheck (scene layer visible addr : Nat) (s : State) : Nat :=
  if 4 ≤ scene || 8 ≤ layer || 2 ≤ visible then stParam
  else match (sceneOf s scene).rec_ with
    | none => stState
    | some r =>
      match r.layers[layer]? with
      | none => stParam
      | some l =>
        let l := { l with addr := if addr = 0 then l.addr else addr }
        if l.source = 1 && !hostMem (surfaceSpan l).1 (surfaceSpan l).2 s then stParam else stDone

/-- COMPOSE_LAYER waits for the next composition; for a static layer the cache is due (R475). -/
def applyComposeLayer (r : Option Ref) (scene layer visible alpha : Nat) (dstX dstY : Int) (addr : Nat) (s : State) : State :=
  let c : LayerChange := { layer := layer, visible := visible == 1, alpha := alpha, dstX := dstX, dstY := dstY, addr := addr, ref := r }
  setScene scene (fun x => { x with
    changes := x.changes ++ [c], rebuild := x.rebuild || (x.rec_.any fun y => changesStatic y c) }) s

def startComposeLayer (r : Ref) (scene layer visible alpha : Nat) (dstX dstY : Int) (addr : Nat) (s : State) : State :=
  let st := composeLayerCheck scene layer visible addr s
  if st != stDone then finishIn (288 + scene % 4) r st 0 0 s
  else applyComposeLayer (some r) scene layer visible alpha dstX dstY addr s

def execComposeLayer (h : Hdr) (scene layer visible alpha : Nat) (dstX dstY : Int) (addr : Nat) (s : State) :
    Host.Outcome State Fault Refusal :=
  .next (postDescriptor (.composeLayer h scene layer visible alpha dstX dstY addr) h 0x7B
    (startComposeLayer h.ref scene layer visible alpha dstX dstY addr) s)

end Sys2Proof.Machine
end

