-- ==== Sys2Proof/Machine/Issue.lean ====
section
/-! DEFINITION. Set-point issue (R119 to R123, R131 to R134) and the downstream cycle (R250 to R254). -/

namespace Sys2Proof.Machine

/-! ### The plan as it is issued -/

/-- The plan up to where the lane stops, closed by a stop there so that its last off edge is known. -/
def issuePlan (ln : Lane) : List PRec :=
  match issueStop ln with
  | some k => match ln.plan.find? fun r => r.idx = k with
    | some r => (ln.plan.filter fun x => decide (x.idx < k)) ++ [asStop r (if r.frac.m = 0 then r.start else r.start + 5)]
    | none => ln.plan
  | none =>
    if ln.cut then match lastActive ln.plan with | some r => ln.plan ++ [{ asStop r r.endTick with x1 := r.x1, y1 := r.y1 }] | none => ln.plan
    else ln.plan

/-- A record's start as a launch time. -/
def PRec.startTick (r : PRec) : Ns := if r.frac.m = 0 then r.start else r.start + 5

/-- The beam-on records of a run. -/
def runRecords (ps : List PRec) (a b : Nat) : List PRec := ps.filter fun r => r.vec.beamOn && decide (a ≤ r.idx) && decide (r.idx ≤ b)

/-- The beam-on record that a sample time in an emission interval from record `a` to record `b` belongs to: a time at a record boundary
belongs to the earlier record (R154). -/
def recordOf (ps : List PRec) (a b : Nat) (t : Ns) : Option PRec :=
  let rs := runRecords ps a b
  match (rs.filter fun r => decide (r.start < t)).getLast? with
  | some r => some r
  | none => rs.head?

/-- The power of a beam-on record (R120): POWER of its set, or its own under POWER_OVR. -/
def PRec.power (r : PRec) : Nat :=
  let own := match r.vec with | .dwell _ p _ _ => p | v => v.opt.power
  own.getD r.set.power

/-- Z_OFS of the record that covers a time (R124). -/
def Vec.focus : Vec → Int
  | .jump _ _ z _ => z
  | .line _ _ z _ => z
  | .arc _ _ z _ _ => z
  | .dwell _ _ _ z => z
  | _ => 0

/-- The focus offset at a launch time (R124): FOCUS_OFS + Z_OFS of the record that covers it, END and a stop taking those of the record
that ends there. -/
def focusAt (t : Ns) (ps : List PRec) : Int :=
  match recAt t (ps.filter fun r => r.vec != .stop), recAt t ps with
  | some r, _ => r.set.focusOfs + r.vec.focus
  | none, some r => r.set.focusOfs
  | none, none => 0

/-- The tracking offset at a launch time (R87). -/
def trackOffset (s : State) (ln : Lane) (g : Settings) (t : Ns) : Int × Int :=
  match ln.marking, g.track with
  | some (_, target), some (e, scale, dx, dy) =>
    let n := encPredict s e t - 65536 * target
    (roundDiv (n * scale * dx) (2 ^ 46), roundDiv (n * scale * dy) (2 ^ 46))
  | _, _ => (0, 0)

/-! ### Which set-point leaves in a cycle -/

/-- What a cycle takes from a lane: nothing, a set-point at a launch time (an edge or not), or a set-point that can no
longer be sent (R134). -/
inductive Due where
  | idle
  | point (t : Ns) (edge : Bool)
  | late
deriving DecidableEq, Repr

/-- The next launch time of the grid (R119): it runs on through standstills, waits at a SYNC or WAIT_TIME among them, up to the first
set-point of the record after a wait, which launches at the end of that wait (R109) in place of a grid point of its cycle; none at a held
record or after END. -/
def gridPoint (lead : Nat) (ln : Lane) (ps : List PRec) (offMax : Ns) : Option Ns :=
  let stops := ps.filter fun r => r.vec.isWait || r.vec == .stop
  let pend := stops.find? fun w =>
    match nextActive (ps.filter fun x => decide (w.idx < x.idx)) with
    | some n => n.first.isNone
    | none => true
  match pend with
  | none => some ln.gridNext
  | some w =>
    if w.vec == .stop then (if ln.gridNext ≤ max w.startTick offMax then some ln.gridNext else none)
    else
      match (if openWait w then none else nextActive (ps.filter fun x => decide (w.idx < x.idx))) with
      | some n => if decide (ln.gridNext < n.startTick) && cycleOf lead ln.gridNext != cycleOf lead n.startTick then some ln.gridNext
                  else some n.startTick
      | none => some ln.gridNext

/-- The runs of a lane that the cycle may meet, less those that are empty. -/
def liveRuns (s : State) (ln : Lane) (ps : List PRec) : List Run := (laneRuns (tLead s) ln ps).filter fun r => !r.empty

/-- The last off edge that is planned before or at a time. -/
def lastOff (ln : Lane) (rs : List Run) : Ns :=
  rs.foldl (fun m r => match r.off with | some f => max m f | none => m) (ln.prevOff.getD 0)

/-- The edges that are not sent yet, in order, of the runs whose first record is cleared to go (R115). -/
def openEdges (ln : Lane) (rs : List Run) : List Ns :=
  rs.flatMap fun r => (if ln.runOn.isSome && ln.runIdx = r.first then [] else [r.on]) ++ r.off.toList

/-- What leaves for a lane in the cycle whose launch times lie from `lo` to `hi` (R131, R132). -/
def dueIn (s : State) (ln : Lane) (ps : List PRec) (lo hi : Ns) : Due :=
  let rs := liveRuns s ln ps
  let es := (openEdges ln rs).filter fun e => decide (e ≤ hi)
  let grid := match gridPoint (tLead s) ln ps (lastOff ln (rs.filter fun r => r.on ≤ hi)) with
    | some g => if g ≤ hi then some g else none
    | none => none
  match es with
  | e :: rest => if e < lo || !rest.isEmpty || grid.any (fun g => decide (g < lo)) then .late else .point e true
  | [] => match grid with
    | some g => if g < lo then .late else .point g false
    | none => .idle

/-! ### Before and after a set-point -/

/-- A run that emits nothing counts one, once (R122). -/
def countEmpty (l : Nat) (hi : Ns) (s : State) : State :=
  let ln := laneOf s l
  match (laneRuns (tLead s) ln (issuePlan ln)).find? fun r => r.empty && decide (r.start ≤ hi) with
  | none => s
  | some r =>
    if ln.clipped.any fun k => decide (r.first ≤ k) then s
    else setLane l (fun x => { x with
      clipped := some r.first, onDelayClipped := satAdd x.onDelayClipped (r.moves + 1)
      runIdx := if x.runOn.isNone && decide (x.runIdx ≤ r.first) && (liveRuns s ln (issuePlan ln)).all (fun q => decide (r.first < q.first))
        then r.last + 1 else x.runIdx }) s

/-- What an edge does to a lane's runs: an on edge opens an emission interval, an off edge closes it (R123). -/
def takeEdge (l : Nat) (rs : List Run) (t : Ns) (s : State) : State :=
  let ln := laneOf s l
  match rs.find? fun r => r.on = t && !(ln.runOn.isSome && ln.runIdx = r.first) with
  | some r => setLane l (fun x => { x with
      runOn := some t, runIdx := r.first, onDelayClipped := satAdd x.onDelayClipped r.moves
      emits := { on := t, off := none, first := r.first, last := r.last } :: x.emits }) s
  | none =>
    match rs.find? fun r => r.off = some t with
    | some r => setLane l (fun x => { x with
        runOn := none, runIdx := r.last + 1, prevOff := some t
        emits := x.emits.map fun e => if e.off.isNone then { e with off := some t, last := r.last } else e }) s
    | none => s

/-- The beam-on record at a launch time, where the beam is on then: an on edge counts, an off edge does not (R121). At the start of a
record its own values are taken (R120). -/
def beamRecord (rs : List Run) (ps : List PRec) (t : Ns) : Option PRec :=
  (rs.find? fun r => decide (r.on ≤ t) && (match r.off with | some f => decide (t < f) | none => true)).bind
    fun r => match ((runRecords ps r.first r.last).filter fun x => decide (x.startTick ≤ t)).getLast? with
      | some x => some x
      | none => (runRecords ps r.first r.last).head?

/-- A latched change of limits applies: record `i` is the first that is issued with it (R111). -/
def latchApplies (l i : Nat) (s : State) : State :=
  laneEvent l 0x3025 (natLE 4 i) (setLane l (fun x => { x with
    ovrMark := latchedOvr x.deferMark x.ovrMark, ovrJump := latchedOvr x.deferJump x.ovrJump
    deferMark := none, deferJump := none, deferFrom := none }) s)

/-- The launch time that is the first at or after the start of records is theirs (R57). A change of limits that is latched marks those
that it does not apply to, and applies with the first record of its move (R111). -/
def markFirst (l : Nat) (t : Ns) (s : State) : State :=
  let ln := laneOf s l
  let latched := ln.deferMark.isSome || ln.deferJump.isSome
  let begins := fun r : PRec => r.first.isNone && decide (r.startTick ≤ t) && !(issueStop ln).any (fun k => decide (k ≤ r.idx))
  let taken := fun r : PRec => ln.deferFrom.any fun k => decide (k ≤ r.idx)
  let s := setLane l (fun x => { x with
    plan := x.plan.map fun r =>
      if begins r then { r with first := some t, deferred := r.deferred || (latched && !taken r) } else r }) s
  match ln.plan.find? fun r => begins r && taken r with
  | some r => if latched then latchApplies l r.index s else s
  | none => s

/-- A set-point leaves (R120): its bytes, or none for MAP_RANGE. -/
def sendPoint (l : Nat) (p : SetPt) (s : State) : State :=
  let keep := fun x : SetPt => decide (s.now ≤ x.launch + 600000)
  setLane l (fun x => { x with
    setpoints := x.setpoints + 1
    flight := p :: (x.flight.takeWhile keep ++ (x.flight.dropWhile keep).take 1)
    emits := x.emits.filter fun e => match e.off with | some f => decide (s.now ≤ f + 1000000) | none => true
    map := { x.map with beta := min 65535 (betaAt x.map p.launch) } }) s

/-- The slot of a beam (R252). -/
def slotBytes (p : Option SetPt) (trim : Int) (trimValid : Bool) (cycleStart : Ns) : List Byte :=
  match p with
  | some p => intLE 3 p.x ++ intLE 3 p.y ++ intLE 3 p.z ++ natLE 2 p.power ++ intLE 2 trim
      ++ natLE 1 (1 + 2 * b1 trimValid + 4 * b1 p.on + 8 * b1 p.edge) ++ natLE 2 ((p.launch - cycleStart) / 5)
  | none => List.replicate 11 0 ++ intLE 2 (if trimValid then trim else 0) ++ natLE 1 (2 * b1 trimValid) ++ natLE 2 0

/-- The trim that a lane's slot carries in a cycle (R152): 0 from the cycle on in which the beam goes off. -/
def slotTrim (ln : Lane) (start : Ns) : Int :=
  if ln.emits.any fun e => decide (e.on < start + 500) && (match e.off with | some f => decide (start + 500 ≤ f) | none => true)
  then ln.loop.trim else 0

/-- The set-point of R601: beam off at the centre of the field, once, when the lane becomes IDLE. -/
def centrePoint (l : Nat) (lo hi : Ns) (s : State) : Option SetPt × State :=
  let ln := laneOf s l
  match ln.centreAt with
  | none => (none, s)
  | some c =>
    if hi < c then (none, s)
    else
      let t := max c lo
      let r := laneRec s l
      let s := startBlend l t (needGrid l s)
      let s := setLane l (fun x => { x with centreAt := none }) s
      match mapPoint s l (betaAt (laneOf s l).map t) (r.fieldCx, r.fieldCy) 0 with
      | none => (none, s)
      | some (x, y, z) =>
        let p : SetPt := { launch := t, x := x, y := y, z := z, planX := r.fieldCx, planY := r.fieldCy, cmd := 0, power := 0
                           on := false, edge := false }
        (some p, sendPoint l p s)

/-! ### A lane's cycle -/

/-- The lane has 512 results that are not written, and its next record starts (R102). -/
def resultStall (l : Nat) (hi : Ns) (s : State) : State :=
  let ln := laneOf s l
  let waiting := ln.plan.countP fun r => r.first.isSome && decide (r.endTick ≤ s.now) && !kept ln r && r.vec != .stop && !r.ghost
  if waiting < 512 || ln.stall.isSome || ln.hold.isSome then s
  else
    match ln.plan.find? fun r => r.first.isNone && decide (r.startTick ≤ hi) && !r.passes && r.vec != .stop with
    | none => s
    | some r => laneEvent l 0x3023 (natLE 4 r.index) (setLane l (fun x => { x with
        stall := some r.idx, resultStall := satInc x.resultStall }) s)

/-- A record whose set-points are due holds no GO: the deadline has passed (R117). -/
def overdue (l : Nat) (hi : Ns) (s : State) : State :=
  let ln := laneOf s l
  if (issueStop ln).isSome then s
  else
    match ln.plan.find? fun r => r.verdict != .go && takesVerdict ln.plan r && r.first.isNone with
    | none => s
    | some r =>
      if hi < r.startTick || afterOpenSync ln.plan r.idx then s
      else
        let s := laneEvent l 0x3022 (natLE 4 r.index) (setLane l (fun x => { x with verdictLate := satInc x.verdictLate }) s)
        holdRecord l r.idx (setProx (fun p => { p with holdVerdicts := p.holdVerdicts + 1 }) s)

/-- A mark that has fallen too far behind is abandoned at a record start (R88): its lane goes beam-off there. -/
def markTooLate (l : Nat) (hi : Ns) (s : State) : State :=
  let ln := laneOf s l
  match ln.marking, jobHeader s with
  | some (_, target), some h =>
    match ln.plan.find? fun r => r.first.isNone && decide (r.startTick ≤ hi) && !r.passes && r.vec != .stop with
    | none => s
    | some r =>
      if encPredict s h.trigEncoder r.startTick ≤ 65536 * (target + h.markWindow) then s
      else
        let s := cutMark l 2 s
        setLane l (fun x => { x with
          marking := none, hold := none, stall := none, cut := false, buf := []
          fetchNext := match x.stream with | some st => st.count | none => x.fetchNext
          plan := (x.plan.filter fun y => decide (y.idx < r.idx)) ++ [{ asStop r r.startTick with verdict := .go }] }) s
  | _, _ => s

/-- One set-point of a running lane. -/
def issueAt (l : Nat) (ps : List PRec) (rs : List Run) (t : Ns) (edge : Bool) (s : State) : Option SetPt × State :=
  let s := startBlend l t (needGrid l s)
  let ln := laneOf s l
  let cover := recAt t ps
  let p := (planPos ps t).getD (ln.planX, ln.planY)
  let focus := focusAt t ps
  let off := match cover with | some r => trackOffset s ln r.g t | none => (0, 0)
  let beam := beamRecord rs ps t
  match mapPoint s l (betaAt ln.map t) (p.1 + off.1, p.2 + off.2) focus with
  | none => (none, laneFault l fcLane 0x04 s)
  | some (x, y, z) =>
    let s := setLaneCal l (slewPower s.now) s
    let cmd := match beam with | some r => r.power | none => 0
    let sp : SetPt := { launch := t, x := x, y := y, z := z, planX := p.1, planY := p.2, cmd := cmd
                        power := if beam.isSome then slotPower (laneCal s l) cmd else 0, on := beam.isSome, edge := edge }
    let s := if edge then takeEdge l rs t s else s
    let s := setLane l (fun x => { x with
      pos := some p
      issueIndex := match cover with | some r => r.index | none => x.issueIndex }) s
    (some sp, sendPoint l sp (markFirst l t s))

/-- The grid moves on past a launch time; an edge set-point replaces the grid set-point of its cycle (R122). -/
def stepGrid (l : Nat) (g : Option Ns) (hi : Ns) (s : State) : State :=
  match g with
  | some g => if g ≤ hi then setLane l (fun x => { x with gridNext := g + tSp s l }) s else s
  | none => s

/-- What a lane in a POWER run puts into a cycle (R524); a set-point that can no longer be sent ends the run. -/
def powerCycle (l lo hi : Nat) (s : State) : Option SetPt × State :=
  let ln := laneOf s l
  let rs := liveRuns s ln ln.plan
  let g := gridPoint (tLead s) ln ln.plan (lastOff ln (rs.filter fun r => r.on ≤ hi))
  match dueIn s ln ln.plan lo hi with
  | .idle => (none, s)
  | .late => (none, abandonRun 1 l 4 s)
  | .point t edge =>
    let r := issueAt l ln.plan rs t edge s
    (r.1, if r.1.isSome then stepGrid l g hi r.2 else abandonRun 1 l 4 r.2)

/-- A lane that is in HOLD since the layer start issues nothing (R27). -/
def silentHold (s : State) (l : Nat) : Bool :=
  let ln := laneOf s l
  ln.state = .hold && (ln.hold.isNone || (!s.jobs.line && ln.gridNext = s.jobs.l))

/-- What a lane puts into the cycle that starts at `start`. -/
def laneCycle (l start : Nat) (s : State) : Option SetPt × State :=
  let lo := start + tLead s + 5
  let hi := start + tLead s + 500
  let s := settleLane l s
  if silentHold s l then (none, s)
  else if (laneOf s l).state != .running && (laneOf s l).state != .hold then
    if powerRunning s l then powerCycle l lo hi s else centrePoint l lo hi s
  else
    let s := countEmpty l hi (resultStall l hi (overdue l hi (markTooLate l hi s)))
    let ln := laneOf s l
    let ps := issuePlan ln
    let rs := liveRuns s ln ps
    let g := gridPoint (tLead s) ln ps (lastOff ln (rs.filter fun r => r.on ≤ hi))
    match dueIn s ln ps lo hi with
    | .idle => (none, s)
    | .late => (none, laneFault l fcLane 0x05 s)
    | .point t edge =>
      let r := issueAt l ps rs t edge s
      (r.1, if r.1.isSome then stepGrid l g hi r.2 else r.2)

end Sys2Proof.Machine
end

