-- ==== Sys2Proof/Machine/MereField.lean ====
section
/-! DEFINITION. The field of Mere and its step (R161 to R163, R170 to R173), on the engine's own state. -/

namespace Sys2Proof.Machine

def setMere (f : Mere → Mere) (s : State) : State := { s with mere := f s.mere }

/-- The start of step grid point k (R162). -/
def mereS (m : Mere) (k : Nat) : Ns := m.s0 + 1000 * m.tU * k

/-- The first step grid point at or after a time (R173); in coarse steps a multiple of two (R172). -/
def mereGrid (m : Mere) (t : Ns) : Nat :=
  let k := if t ≤ m.s0 || m.tU = 0 then 0 else (t - m.s0 + 1000 * m.tU - 1) / (1000 * m.tU)
  if m.coarse then alignUp k 2 else k

/-! ### One step (R163, R170, R171) -/

/-- The neighbour of a cell, or the cell itself at the edge. -/
def neighbour (nx ny : Nat) (f : List Nat) (i : Nat) (t : Nat) : Int :=
  let c := i % nx
  let r := i / nx
  let at_ := fun (ok : Bool) (j : Nat) => if ok then ((f.getD j t : Nat) : Int) else (t : Int)
  at_ (decide (r + 1 < ny)) (i + nx) + at_ (decide (0 < r)) (i - nx) + at_ (decide (c + 1 < nx)) (i + 1)
    + at_ (decide (0 < c)) (i - 1)

/-- The new value of a cell (R163). -/
def mereCellStep (nx ny : Nat) (f : List Nat) (d r kDep tPlate k energy i t : Nat) : Nat :=
  let lap := neighbour nx ny f i t - 4 * t
  let inc : Int := d * lap * 256 - r * ((t : Int) - tPlate) + ((energy * kDep * 256 : Nat) : Int)
  let h : Int := ((i * 40503 + k * 9973) % 65536 : Nat)
  (clampI 0 65535 ((t : Int) + (inc + h * 256) / 16777216)).toNat

/-- The energy that the reports of a step bring to a cell. -/
def cellEnergy (rs : List DepReport) (i : Nat) : Nat := rs.foldl (fun e r => if r.cell = i then e + r.energy else e) 0

/-- The layer blend of a cell (R170). -/
def layerBlend (w tPowder t : Nat) : Nat := ((t : Int) + roundDiv (w * ((tPowder : Int) - t)) 65536).toNat

/-- The assimilation of a cell (R171); a value of 0 marks it invalid. -/
def assimilate (w t cam : Nat) : Nat := if cam = 0 then t else ((t : Int) + roundDiv (w * ((cam : Int) - t)) 65536).toNat

/-- The coefficients of a step: twice D, at most 16,384, and twice R in coarse steps (R172). -/
def stepCoeffs (m : Mere) : Nat × Nat :=
  if m.coarse then (min 16384 (2 * m.coeffs.d), 2 * m.coeffs.r) else (m.coeffs.d, m.coeffs.r)

/-- The coefficients that a MERE_COEFF mask leads to. -/
def Coeffs.merge (mask : Nat) (new old : Coeffs) : Coeffs :=
  { d := if bit mask 0 then new.d else old.d, r := if bit mask 1 then new.r else old.r
    kDep := if bit mask 2 then new.kDep else old.kDep
    assimWeight := if bit mask 3 then new.assimWeight else old.assimWeight
    layerBlend := if bit mask 4 then new.layerBlend else old.layerBlend }

/-- The result of step k (R163): the front buffer after the layer blend and the assimilation that the step takes, stepped with the reports
that it takes. -/
def Mere.stepField (m : Mere) (tPlate tPowder k : Nat) : List Nat :=
  let f := if m.ins.blend then m.front.map fun t => layerBlend m.coeffs.layerBlend tPowder t else m.front
  let f := match m.ins.frame with
    | some cells => List.zipWith (fun t c => assimilate m.coeffs.assimWeight t c) f cells
    | none => f
  let (d, r) := stepCoeffs m
  f.mapIdx fun i t => mereCellStep m.nx m.ny f d r m.coeffs.kDep tPlate k (cellEnergy m.ins.taken i) i t

/-- A step that began at this very tick, by its number: what reaches Mere at its start belongs to it (R177). -/
def Mere.beginning (m : Mere) (now : Ns) : Option Nat :=
  match m.back with
  | some (_, k) => if mereS m k = now then some k else none
  | none => none

/-- The step that began at this tick is computed anew from what it has taken. -/
def Mere.redo (m : Mere) (now : Ns) (tPlate tPowder : Nat) : Mere :=
  match m.beginning now with
  | some k => { m with back := some (m.stepField tPlate tPowder k, k) }
  | none => m

/-- The reports of the step that a report reaching Mere now belongs to (R165, R177). -/
def Mere.queueAt (m : Mere) (now : Ns) : List DepReport := if (m.beginning now).isSome then m.ins.taken else m.reports

/-- Those reports change. -/
def Mere.setQueue (m : Mere) (now : Ns) (rs : List DepReport) (tPlate tPowder : Nat) : Mere :=
  if (m.beginning now).isSome then Mere.redo { m with ins := { m.ins with taken := rs } } now tPlate tPowder else { m with reports := rs }

/-- The field sets that apply at grid point k: a point after their values were read in, and after S_0 for one that had to wait for a
profile (R602). -/
def Mere.setsAt (m : Mere) (k : Nat) : List FieldSet :=
  m.sets.filter fun f => decide (f.readAt < mereS m k) && (decide (0 < k) || !f.waited)

/-- A save of a layer waits for its step (R174). -/
def Mere.saveWaits (m : Mere) : Bool := m.saves.any fun v => v.copied.isNone && v.ref.isNone

/-- Mere as a read at a time sees it: at the tick of a swap, the new front buffer (R177), or the values that a field set puts in its place
(R602). -/
def Mere.seenAt (m : Mere) (now : Ns) : Mere :=
  match m.back with
  | some (b, k) =>
    if mereS m m.next != now then m
    else
      match (if m.saveWaits then none else (m.setsAt m.next).getLast?) with
      | some f => { m with front := f.cells, step := m.next - 1, frontAt := now - 1000 * m.tU }
      | none => { m with front := b, step := k, frontAt := mereS m k }
  | none => m

end Sys2Proof.Machine
end

