-- ==== Sys2Proof/Machine/Loop.lean ====
section
/-! DEFINITION. The melt-pool loop of a lane (R142 to R160), what it reports to Mere and reads from it (R165 to R169). -/

namespace Sys2Proof.Machine

/-- The records that a lane's samples belong to: those of a stream that has ended while its last samples have not come. -/
def Lane.sampledPlan (ln : Lane) : List PRec := if ln.tail.isEmpty then ln.plan else ln.tail.map fun x => x.1

/-- Record `idx` of those that a lane's samples belong to is changed. -/
def setRec (l idx : Nat) (f : PRec → PRec) (s : State) : State :=
  setLane l (fun x =>
    if x.tail.isEmpty then { x with plan := x.plan.map fun r => if r.idx = idx then f r else r }
    else { x with tail := x.tail.map fun r => if r.1.idx = idx then (f r.1, r.2) else r }) s

def setMelt (l idx : Nat) (f : Melt → Melt) (s : State) : State := setRec l idx (fun r => { r with melt := f r.melt }) s

/-! ### Reference curves (R145, R146, R371) -/

/-- REF and FF at a temperature (R146). -/
def curveAt (c : Curve) (t : Nat) : Nat × Nat :=
  match c.pts with
  | [] => (0, 32768)
  | p :: _ =>
    if t < p.1 then p.2
    else
      let below := c.pts.filter fun q => decide (q.1 ≤ t)
      match below.getLast?, (c.pts.drop below.length).head? with
      | some a, some b =>
        let w := roundDivN ((t - a.1) * 65536) (b.1 - a.1)
        let mix := fun x y : Nat => (lerp x y w 65536).toNat
        (mix a.2.1 b.2.1, mix a.2.2 b.2.2)
      | some a, none => a.2
      | none, _ => p.2

/-- The breakpoint temperatures rise strictly. -/
def ptsRise : List (Nat × Nat × Nat) → Bool
  | a :: b :: rest => decide (a.1 < b.1) && ptsRise (b :: rest)
  | _ => true

/-- A curve from the payload of a CURVE record (R371), where every field lies in its range (R145, R380). -/
def readCurve (p : List Byte) : Option Curve :=
  let n := field p 1 1
  let pt := fun k => (field p (24 + 6 * k) 2, field p (26 + 6 * k) 2, field p (28 + 6 * k) 2)
  let pts := (List.range n).map pt
  let ki := fieldS p 16 4
  if p.length != 120 || 2 < field p 0 1 || n < 2 || 16 < n || 100 < field p 2 1 || field p 3 1 = 0 || field p 4 1 = 0
    || !allZero ((p.drop 5).take 3) || !allZero ((p.drop 22).take 2) || !allZero (p.drop (24 + 6 * n))
    || ki < -8388608 || 8388607 < ki || !ptsRise pts then none
  else some {
    sigMode := field p 0 1, wA := field p 8 2, wB := field p 10 2, pts := pts, kp := fieldS p 12 2, ki := ki,
    blankUs := field p 2 1, anomBand := field p 14 2, anomSamples := field p 3 1, spike := field p 20 2,
    satSamples := field p 4 1 }

/-- LOOP_CURVE_LOAD (R178, R179): the curve serves the streams that are bound from now on. -/
def startLoopCurveLoad (r : Ref) (curve addr : Nat) (s : State) : State :=
  if 32 ≤ curve || addr % 4 != 0 || !hostMem addr 132 s then endWith r stParam s
  else
    match recordImage addr 120 s with
    | none => endWith r stParam s
    | some (ty, ins, p) =>
      match readCurve p with
      | none => endWith r stParam s
      | some c =>
        if ty != 0x0020 || ins != curve then endWith r stParam s
        else endWith r stDone (bumpOverride 3 true { s with curves := s.curves.set curve (some c) })

def execLoopCurveLoad (h : Hdr) (curve addr : Nat) (s : State) : Host.Outcome State Fault Refusal :=
  .next (postDescriptor (.loopCurveLoad h curve addr) h 0x34 (startLoopCurveLoad h.ref curve addr) s)

/-! ### The signal (R143, R144) -/

/-- S of a sample (R143); without a curve it is formed with SIG_MODE 0 (R145). -/
def signalOf (s : State) (l : Nat) (c : Option Curve) (pdA pdB : Nat) : Nat :=
  let x := (laneOf s l).loop
  let r := laneRec s l
  let a : Int := (((pdA - x.darkA) * r.pdGainA : Nat) : Int)
  let b : Int := (((pdB - x.darkB) * r.pdGainB : Nat) : Int)
  let v := match c with
    | none => roundDiv a 32768
    | some c => if c.sigMode = 0 then roundDiv a 32768 else if c.sigMode = 1 then roundDiv b 32768
        else roundDiv (c.wA * a + c.wB * b) 2147483648
  (clampI 0 65535 v).toNat

/-- A channel that SIG_MODE uses reads 0xFFFF (R151). -/
def satChannel (c : Option Curve) (pdA pdB : Nat) : Bool :=
  let m := match c with | none => 0 | some c => c.sigMode
  (m != 1 && pdA == 0xFFFF) || (m != 0 && pdB == 0xFFFF)

/-! ### The trim law (R148) -/

/-- One evaluation: the trim and the new I, in units of 2 ^ −23. -/
def trimLaw (c : Curve) (pCmd ff : Nat) (ref s : Nat) (lim : Nat) (blank : Bool) (i : Int) : Int × Int :=
  let e : Int := (ref : Int) - s
  let ffterm : Int := pCmd * ((ff : Int) - 32768) * 256
  let limQ : Int := (lim : Int) * 8388608
  let fin := fun u : Int => clampI (-(lim : Int)) lim (roundDiv u 8388608)
  if blank then (fin ffterm, 0)
  else
    let kpe := c.kp * e * 32768
    let iTry := i + c.ki * e
    let uTry := ffterm + kpe + iTry
    let keep := decide ((limQ.natAbs) < uTry.natAbs) && decide (e.sign = uTry.sign)
    let i' := if keep then i else clampI (-limQ) limQ iTry
    (fin (ffterm + kpe + i'), i')

/-! ### Raw capture (R158 to R160) -/

/-- The next block lies in the region (R160). -/
def rawRoom (ln : Lane) : Bool :=
  ln.sampled.any fun st => st.raw != 0 && decide (4 * (ln.rawSeq + 1) ≤ st.rawKiB)

/-- Samples that are due and not stored (R160). -/
def rawLose (l n : Nat) (idxs : List Nat) (s : State) : State :=
  let s := setLane l (fun x => { x with rawLost := satAdd x.rawLost n }) s
  let s := idxs.foldl (fun s i => setMelt l (i + 1) (fun m => { m with rawLost := true }) s) s
  if (laneOf s l).loop.rawFull then s
  else laneEvent l 0x3040 (natLE 4 (idxs.headD 0)) (setLoop l (fun x => { x with rawFull := true }) s)

/-- A sample goes into the block that is being filled. -/
def rawPut (l : Nat) (t : Ns) (r : PRec) (pdA pdB : Nat) (s : State) : State :=
  match (laneOf s l).loop.raw with
  | none => s
  | some b =>
    if b.lost then
      let s := rawLose l 1 [r.index] (setLoop l (fun x => { x with raw := some { b with count := b.count + 1 } }) s)
      if 1016 ≤ b.count + 1 then closeRaw l s else s
    else
      let b' := { b with
        idx := if b.samples.isEmpty then r.index else b.idx, vtag := if b.samples.isEmpty then r.vtag else b.vtag
        first := if b.samples.isEmpty then t else b.first, samples := b.samples ++ [(pdA, pdB)], count := b.count + 1 }
      let s := setMelt l r.idx (fun m => { m with rawWindow := true }) (setLoop l (fun x => { x with raw := some b' }) s)
      if 1016 ≤ b'.count then closeRaw l s else s

/-- A new block, with the ring's samples before it in a window (R159). -/
def rawOpen (l : Nat) (full continued : Bool) (before : List (Ns × Nat × Nat × Nat × Nat)) (s : State) : State :=
  let room := rawRoom (laneOf s l)
  let before := before.take 1016
  let b : RawBlock :=
    { idx := match before with | x :: _ => x.2.2.2.1 | [] => 0, vtag := match before with | x :: _ => x.2.2.2.2 | [] => 0
      first := match before with | x :: _ => x.1 | [] => 0, samples := if room then before.map fun x => (x.2.1, x.2.2.1) else []
      onset := if full || 1016 ≤ before.length then none else some before.length
      continued := continued, full := full, lost := !room, count := before.length }
  let s := setLoop l (fun x => { x with raw := some b }) s
  let idxs := (before.map fun x => x.2.2.2.1).eraseDups
  if room then
    let s := idxs.foldl (fun s i => setMelt l (i + 1) (fun m => { m with rawWindow := true }) s) s
    if 1016 ≤ before.length then closeRaw l s else s
  else if before.isEmpty then s else rawLose l before.length idxs s

/-- What a sample does to raw capture, by RAW_MODE of the set in force; `onset` says that an anomaly begins with it. -/
def rawSampleIn (l : Nat) (t : Ns) (r : PRec) (pdA pdB : Nat) (onset sameRun : Bool) (s : State) : State :=
  let ln := laneOf s l
  let open_ := ln.loop.raw
  let window := open_.any fun b => !b.full
  if window then rawPut l t r pdA pdB s
  else if r.set.rawMode = 2 then
    let s := if open_.isSome then s else rawOpen l true sameRun [] s
    rawPut l t r pdA pdB s
  else
    let s := if open_.isSome then closeRaw l s else s
    if r.set.rawMode = 1 && onset then
      let ring := (laneOf s l).loop.ring
      rawPut l t r pdA pdB (rawOpen l false false ring s)
    else s

/-- The ring of the current run (R159), oldest first. -/
def ringPut (l : Nat) (t : Ns) (r : PRec) (pdA pdB : Nat) (s : State) : State :=
  let n := s.prof.loop.rawPre
  setLoop l (fun x =>
    let g := x.ring ++ [(t, pdA, pdB, r.index, r.vtag)]
    { x with ring := g.drop (g.length - n) }) s

/-! ### The Mere grid (R161, R168) -/

/-- Column and row of a position (R161). -/
def mereCell (m : Mere) (p : Int × Int) : Int × Int :=
  if m.cell = 0 then (0, 0) else ((p.1 - m.x0) / (m.cell : Int), (p.2 - m.y0) / (m.cell : Int))

/-- The cell index of a position; none outside the grid. -/
def mereIndex (m : Mere) (p : Int × Int) : Option Nat :=
  let (c, r) := mereCell m p
  if 0 ≤ c && 0 ≤ r && c < m.nx && r < m.ny then some (r.toNat * m.nx + c.toNat) else none

/-- A cell of the front buffer. -/
def Mere.at (m : Mere) (c r : Int) : Nat :=
  let c := (clampI 0 ((m.nx : Int) - 1) c).toNat
  let r := (clampI 0 ((m.ny : Int) - 1) r).toNat
  m.front.getD (r * m.nx + c) 0

/-- T_pred at a position (R168): the nine cells weighted by KERN; cells outside are the nearest inside. -/
def mereRead (s : State) (p : Int × Int) : Nat :=
  let m := s.mere
  let (c, r) := mereCell m p
  let c := clampI 0 ((m.nx : Int) - 1) c
  let r := clampI 0 ((m.ny : Int) - 1) r
  let sum := (List.range 9).foldl (fun a k =>
    a + unit s.prof.loop.kern k 0 * m.at (c + ((k % 3 : Nat) : Int) - 1) (r + ((k / 3 : Nat) : Int) - 1)) 0
  roundDivN sum 65536

/-- FF_EN has effect: not in a LINE job (R167). -/
def ffOn (s : State) (set : PSet) : Bool := set.ffEn && !s.jobs.line

/-- FF_READ (R168, R169): a running lane reads the field ahead of its spot. -/
def ffRead (l : Nat) (s : State) : State :=
  let ln := laneOf s l
  let lp := s.prof.loop
  let due := ln.loop.lastRead.all fun t => decide (t + 1000 * lp.ffPeriodUs ≤ s.now)
  match recAt s.now ln.plan with
  | none => s
  | some r =>
    if ln.state != .running || !ffOn s r.set || !due then s
    else
      let m := s.mere.seenAt s.now
      let age := s.now - m.frontAt
      let stale := !m.run || decide (1000 * lp.staleLimitUs < age)
      let p := (planPos ln.plan (s.now + 1000 * lp.ffAheadUs)).getD (ln.planX, ln.planY)
      let t := if m.run then mereRead { s with mere := m } p else s.prof.mere.tPowder
      let first := stale && !ln.loop.staleEpisode
      let s := setLoop l (fun x => { x with
        tPred := t, stale := stale, tRead := t, readStale := stale, staleEpisode := stale, lastRead := some s.now }) s
      if first then raise 0x3042 (natLE 1 l ++ natLE 4 (satU 32 (roundDivN age 1000)).toNat) s else s

def execFfRead (t : Ns) (lane : Nat) (s : State) : Host.Outcome State Fault Refusal :=
  .next (ffRead lane (settleLane lane (passTo t s)))

/-- T_pred in use for a set, and whether it is stale (R147, R169). -/
def predOf (s : State) (l : Nat) (set : PSet) : Nat × Bool :=
  if !ffOn s set then (s.prof.mere.tPowder, false)
  else if !s.mere.run then (s.prof.mere.tPowder, true)
  else ((laneOf s l).loop.tRead, (laneOf s l).loop.readStale)

/-! ### Energy reports (R165, R166) -/

/-- The report that covers the time up to `t` is closed; its remainder is carried on. -/
def sendReport (l : Nat) (t : Ns) (s : State) : State :=
  setLoop l (fun x => if x.repStart.isNone then x else { x.closeReport with lastReport := t }) s

/-- The energy of the 0.5 µs that end at a sample time, at the applied power; a report is due when the position has left
the cell and 2 µs have passed, after 10 µs, and at the off edge. -/
def addEnergy (l : Nat) (t : Ns) (e : Emit) (applied : Nat) (s : State) : State :=
  let ln := laneOf s l
  let r := laneRec s l
  let cellAt := fun t : Ns => mereIndex s.mere ((planPos ln.sampledPlan t).getD (ln.planX, ln.planY))
  let s := setLoop l (fun x => { x with
    acc := x.acc + ((applied * r.wPerLsb * r.absorb : Nat) : Int)
    repStart := match x.repStart with | some a => some a | none => some (t - 500)
    repCell := if x.repStart.isSome then x.repCell else cellAt (t - 500)
    lastReport := max x.lastReport e.on }) s
  let x := (laneOf s l).loop
  let ends := match e.off with | some f => decide (f < t + 500) | none => false
  let left := cellAt t != x.repCell
  if ends || decide (x.lastReport + 10000 ≤ t) || (left && decide (x.lastReport + 2000 ≤ t)) then sendReport l t s else s

/-- The last queued report of a lane takes the energy of a new one (R166). -/
def mergeReport (l energy : Nat) : List DepReport → Option (List DepReport)
  | [] => none
  | r :: rs =>
    match mergeReport l energy rs with
    | some rs' => some (r :: rs')
    | none => if r.lane = l then some ({ r with energy := r.energy + energy } :: rs) else none

/-- DEP_REPORT (R165, R166): the oldest report of a lane reaches Mere. -/
def depReport (l : Nat) (s : State) : State :=
  match (laneOf s l).loop.repOut with
  | [] => s
  | (cell, energy) :: rest =>
    let s := setLoop l (fun x => { x with repOut := rest }) s
    if !s.mere.run then s
    else
      let s := setMere (fun m => { m with depReports := m.depReports + 1 }) s
      match cell with
      | none => setMere (fun m => { m with depOutside := satInc m.depOutside }) s
      | some c =>
        let queue := s.mere.queueAt s.now
        if queue.length < 65536 then
          setMere (fun m => m.setQueue s.now (queue ++ [{ lane := l, cell := c, energy := energy, came := s.now }])
            s.prof.mere.tPlate s.prof.mere.tPowder) s
        else
          let s := setMere (fun m => { m with depMerged := satInc m.depMerged, merges := m.merges + 1 }) s
          let s := if s.mere.merges = 1 then raise 0x3045 (natLE 8 s.mere.next ++ natLE 4 1) s else s
          match mergeReport l energy queue with
          | some rs => setMere (fun m => m.setQueue s.now rs s.prof.mere.tPlate s.prof.mere.tPowder) s
          | none => setLoop l (fun x => { x with acc := x.acc + 131072000000 * (energy : Int) }) s

def execDepReport (t : Ns) (lane : Nat) (s : State) : Host.Outcome State Fault Refusal := .next (depReport lane (passTo t s))

/-! ### One sample (R148 to R156) -/

/-- The emission interval that a sample time lies in (R154). -/
def emitOf (ln : Lane) (t : Ns) : Option Emit :=
  ln.emits.find? fun e => decide (e.on < t) && (match e.off with | some f => decide (t ≤ f) | none => true)

/-- The set-point in force at the head at a time. -/
def flightAt (ln : Lane) (t : Ns) : Option SetPt := ln.flight.find? fun p => decide (p.launch ≤ t)

/-- The commanded power in force at a time. -/
def powerAt (ln : Lane) (t : Ns) : Nat := match flightAt ln t with | some p => p.power | none => 0

/-- The applied power of the head (R148). -/
def appliedPower (pCmd : Nat) (trim : Int) : Nat := (clampI 0 65535 ((pCmd : Int) + trim)).toNat

/-- A lane at the start of a run of emission: I and the runs of R156 start anew, and so does the ring of R159. -/
def enterRun (l : Nat) (e : Emit) (s : State) : State :=
  if (laneOf s l).loop.runKey = some e.on then s
  else
    let s := closeRaw l s
    setLoop l (fun x => { x with
      runKey := some e.on, integ := 0, runHigh := 0, runLow := 0, runSat := 0, ring := [], prevSpike := false, prevSat := false }) s

/-- The statistics of one sample (R155, R156). -/
def meltSample (m : Melt) (t : Ns) (sig : Nat) (trim : Int) (pred : Nat) (blank out stale : Bool) (bits_ : Nat) : Melt :=
  { m with
    samples := m.samples + 1, blanked := m.blanked + b1 blank, sum := m.sum + sig
    min := if m.samples = 0 then sig else min m.min sig, max := max m.max sig
    trimSum := m.trimSum + trim, predSum := m.predSum + pred, first := if m.samples = 0 then t - 500 else m.first
    out := if out then satInc m.out else m.out
    anomaly := m.anomaly ||| BitVec.ofNat 8 (bits_ + 64 * b1 stale) }

/-- A sample in an emission interval. -/
def emitSample (l : Nat) (t : Ns) (e : Emit) (r : PRec) (pdA pdB : Nat) (s : State) : State :=
  let s := enterRun l e s
  let ln := laneOf s l
  let curve := unit ln.curves r.set.curve none
  let sig := signalOf s l curve pdA pdB
  let (pred, stale) := predOf s l r.set
  let blankUs := match curve with | some c => c.blankUs | none => 0
  let blank := decide (t - 500 < e.on + 1000 * blankUs)
  let x := ln.loop
  let i0 := if x.curve = r.set.curve then x.integ else 0
  let on := r.set.loopEn && ln.state == .running
  let pCmd := powerAt ln t
  let refFf := match curve with | some c => curveAt c pred | none => (0, 32768)
  let ff := if ffOn s r.set then refFf.2 else 32768
  let (trim, i) := match curve with
    | some c => if on then trimLaw c pCmd ff refFf.1 sig r.set.trimLimit blank i0 else ((0 : Int), (0 : Int))
    | none => (0, 0)
  let band := match curve with | some c => c.anomBand | none => 0
  let live := curve.isSome && !blank
  let high := live && decide (refFf.1 + band < sig)
  let low := live && decide (sig + band < refFf.1)
  let sat := live && on && decide (trim.natAbs = r.set.trimLimit)
  let nHigh := if high then x.runHigh + 1 else 0
  let nLow := if low then x.runLow + 1 else 0
  let nSat := if sat then x.runSat + 1 else 0
  let spike := match curve with | some c => live && c.spike != 0 && decide (c.spike ≤ sig) | none => false
  let pdSat := satChannel curve pdA pdB
  let an := match curve with | some c => c.anomSamples | none => 1
  let sn := match curve with | some c => c.satSamples | none => 1
  let bits_ := b1 (high && decide (an ≤ nHigh)) + 2 * b1 (low && decide (an ≤ nLow)) + 4 * b1 (sat && decide (sn ≤ nSat))
    + 8 * b1 spike + 128 * b1 pdSat
  let onset := (high && nHigh = an) || (low && nLow = an) || (spike && !x.prevSpike) || (pdSat && !x.prevSat)
  let s := setLoop l (fun x => { x with
    sig := sig, ref := refFf.1, trim := trim, integ := i, curve := r.set.curve, active := on, blanking := blank
    tPred := pred, stale := stale, runHigh := nHigh, runLow := nLow, runSat := nSat, prevSpike := spike, prevSat := pdSat }) s
  let s := if pdSat then setLane l (fun x => { x with pdSat := satInc x.pdSat }) s else s
  let s := setMelt l r.idx (fun m => meltSample m t sig trim pred blank (high || low) stale bits_) s
  let s := rawSampleIn l t r pdA pdB onset (x.rawRun == some e.on) s
  let s := if r.set.rawMode = 2 then setLoop l (fun x => { x with rawRun := some e.on }) s else s
  let s := ringPut l t r pdA pdB s
  let ends := match e.off with | some f => decide (f < t + 500) | none => false
  let s := if ends then closeRaw l s else s
  if r.g.track.isSome || powerRunning s l then s else addEnergy l t e (appliedPower pCmd trim) s

/-- REF at a temperature (R146); 0 without a curve. -/
def refAt (c : Option Curve) (t : Nat) : Nat := match c with | some c => (curveAt c t).1 | none => 0

/-- A sample outside every emission interval (R150): no trim. -/
def idleSample (l : Nat) (t : Ns) (pdA pdB : Nat) (s : State) : State :=
  let ln := laneOf s l
  let set := match recAt t ln.plan with | some r => some r.set | none => none
  let curve := match set with | some p => unit ln.curves p.curve none | none => none
  let s := closeRaw l s
  let sig := signalOf s l curve pdA pdB
  setLoop l (fun x => { x with
    sig := sig, trim := 0, integ := 0, active := false, blanking := false, runKey := none, ring := []
    curve := match set with | some p => p.curve | none => x.curve
    ref := refAt (if set.isSome then curve else unit ln.curves x.curve none) x.tPred }) s

/-- The sample of a time has been accounted for: where no later one belongs to a stream that has ended, its last records are written, and
a mark that waited for them is done (R90, R155, R157). -/
def endTail (l : Nat) (t : Ns) (s : State) : State :=
  if t + 500 ≤ (laneOf s l).tailEnd then s else closeTail l s

/-- A slot that is missing or not valid (R151). -/
def missSlot (l : Nat) (t : Ns) (s : State) : State :=
  let ln := laneOf s l
  let s := setLane l (fun x => { x with
    dropouts := satInc x.dropouts, loop := { x.loop with missing := x.loop.missing + 1, lastFb := some t } }) s
  let s := match emitOf ln t with
    | some e => (match recordOf ln.sampledPlan e.first e.last t with
        | some r =>
          -- the samples of a block are consecutive (R158)
          let s := setLoop l (fun x => { x with ring := [] }) (closeRaw l s)
          let s := setMelt l r.idx (fun m => { m with anomaly := m.anomaly ||| 0x10 }) s
          if r.g.track.isSome || powerRunning s l then s else addEnergy l t e (appliedPower (powerAt ln t) ln.loop.trim) s
        | none => s)
    | none => s
  let s := endTail l t s
  if 8 ≤ (laneOf s l).loop.missing then laneFault l fcLane 0x03 s else s

/-- The node of a lane counts missing units. -/
def setLaneNode (l : Nat) (f : Node → Node) (s : State) : State :=
  let r := laneRec s l
  setPort r.port (fun p => { p with nodes := modUnit p.nodes (r.hop - 1) f }) s

/-- Every slot up to (not with) sample time `t` that has not come is missing. -/
def missUpTo (l : Nat) (t : Ns) (s : State) : State :=
  match (laneOf s l).loop.lastFb with
  | none => s
  | some t0 =>
    let n := (t - t0 - 500) / 500
    if t < t0 + 1000 then s
    else
      let s := setLaneNode l (fun x => { x with fbMissing := satAdd x.fbMissing n }) s
      let s := (List.range (min n 16)).foldl (fun s k => missSlot l (t0 + 500 * (k + 1)) s) s
      endTail l (t0 + 500 * n) (setLane l (fun x => { x with
        dropouts := satAdd x.dropouts (n - 16)
        loop := { x.loop with lastFb := some (t0 + 500 * n), missing := x.loop.missing + (n - min n 16) } }) s)

/-! ### The mirror (R135) -/

/-- The following error of a sample: how far the mirror is from the set-point of TRACK_DELAY earlier, by axis. -/
def followSample (l : Nat) (t : Ns) (mx my : Int) (s : State) : State :=
  let ln := laneOf s l
  let r := laneRec s l
  match flightAt ln (t - 5 * r.trackDelay), ln.state.active with
  | some p, true =>
    let e := max (mx - p.x).natAbs (my - p.y).natAbs
    let on := (flightAt ln t).any fun q => q.on
    let lim := if on then r.feLimitMark else r.feLimitJump
    let s := setLane l (fun x => { x with
      fePeak := if x.fePeak.toNat < e then satU 24 e else x.fePeak
      feSince := if lim < e then (match x.feSince with | some a => some a | none => some t) else none }) s
    recExtreme 24 (satU 24 e).toNat l s
  | _, _ => s

/-! ### FB_UNIT_RECEIVE (R255) -/

/-- The lane of a beam of a node. -/
def laneOfBeam (s : State) (port hop beam : Nat) : Option Nat :=
  (allLanes s).find? fun l =>
    let r := laneRec s l
    r.port = port && r.hop = hop && r.beam = beam && (beamNode s l).isSome

/-- The bytes that the CRC-8 of an FB unit covers. -/
def fbBytes (src cycle pdA pdB : Nat) (mx my : Int) (status : Nat) : List Byte :=
  natLE 1 0xB1 ++ natLE 1 src ++ natLE 1 cycle ++ natLE 2 pdA ++ natLE 2 pdB ++ intLE 3 mx ++ intLE 3 my ++ natLE 2 status

/-- The start of the latest cycle whose number ends in CYCLE[7:0]. -/
def cycleTime (now : Ns) (cycle : Nat) : Ns :=
  let n := now / 500
  500 * (n - (n + 256 - cycle % 256) % 256)

/-- The status bits of a feedback unit (R255): a head fault or a late set-point faults the lane (R134, R136), and set-points
that were discarded are counted. -/
def fbStatus (l status : Nat) (s : State) : State :=
  let s := if bit status 5 then setLaneNode l (fun x => { x with spLost := satInc x.spLost }) s else s
  let s := setLane l (fun x => { x with headFault := bit status 3 }) s
  let fs := (if bit status 3 then [(l, fcLane, 0x02, (none : Option Nat))] else [])
    ++ (if bit status 4 then [(l, fcLane, 0x06, (none : Option Nat))] else [])
  faultAll 512 fs s

/-- FB_UNIT_RECEIVE: a unit of two blocks arrives at a port. -/
def fbUnit (port src cycle crc pdA pdB : Nat) (mx my : Int) (status : Nat) (s : State) : State :=
  let hop := src % 16 + 1
  let beam := bits src 4 2
  let t := cycleTime s.now cycle
  let node := unit (portOf s port).nodes (hop - 1) .reset
  let good := decide (crc = crc8 (fbBytes src cycle pdA pdB mx my status))
  if s.variant.ports ≤ port || !node.present then s
  else
    let s := setPort port (fun p => { p with
      fbCrcErr := if good then p.fbCrcErr else satInc p.fbCrcErr
      nodes := modUnit p.nodes (hop - 1) fun x => { x with lastUnit := s.now } }) s
    match laneOfBeam s port hop beam with
    | none => s
    | some l =>
      if (laneOf s l).loop.lastFb.any fun t0 => decide (t ≤ t0) then s
      else
        let s := settleLane l (missUpTo l t s)
        if !good || !bit status 0 then
          let s := setLaneNode l (fun x => if good then x else { x with fbMissing := satInc x.fbMissing }) s
          let s := missSlot l t s
          if good then fbStatus l status s else s
        else
          let s := setLoop l (fun x => slewDark t { x with missing := 0, lastFb := some t }) s
          let s := setLane l (fun x => { x with mirX := mx, mirY := my, pdA := pdA, pdB := pdB }) s
          let ln := laneOf s l
          let s := match emitOf ln t with
            | some e => (match recordOf ln.sampledPlan e.first e.last t with
                | some r => emitSample l t e r pdA pdB s
                | none => idleSample l t pdA pdB s)
            | none => idleSample l t pdA pdB s
          fbStatus l status (endTail l t (followSample l t mx my (darkSample l t pdA pdB s)))

def execFbUnitReceive (t : Ns) (port src cycle crc pdA pdB : Nat) (mirrorX mirrorY : Int) (status : Nat) (s : State) :
    Host.Outcome State Fault Refusal :=
  .next (fbUnit port src cycle crc pdA pdB mirrorX mirrorY status (passTo t s))

end Sys2Proof.Machine
end

