-- ==== Sys2Proof/Machine/Cycle.lean ====
section
/-! DEFINITION. The downstream cycle of a Spring Link port (R250 to R254). -/

namespace Sys2Proof.Machine

/-! ### The cycle of a port (R250 to R254) -/

/-- The lane of a beam of a port slot, where the lane map has one. -/
def laneOfSlot (s : State) (port slot : Nat) : Option Nat :=
  (allLanes s).find? fun l => (laneRec s l).port = port && (beamNode s l).isSome && laneSlot s l = slot

/-- Beams of a port: those of its addressed nodes. -/
def portBeams (s : State) (p : Nat) : Nat :=
  (portOf s p).nodes.foldl (fun n x => if x.present then n + x.ident.beams else n) 0

/-- Feedback slots of a lane that should have arrived by now, by the bounds of R153, and have not (R151). -/
def lateSlots (l : Nat) (s : State) : State :=
  let wait := 401 + 120 * (laneRec s l).hop
  if (laneOf s l).state = .off then s else missUpTo l ((s.now - wait) / 500 * 500 + 500) s

/-- The slots of a port, one after another. -/
def slotsGo (port start : Nat) : Nat → Nat → State → List (List Byte) × State
  | 0, _, s => ([], s)
  | n + 1, k, s =>
    let (bytes, s) := match laneOfSlot s port k with
      | none => (slotBytes none 0 false start, s)
      | some l =>
        let s := lateSlots l s
        let (p, s) := if s.power.safe then (none, s) else laneCycle l start s
        let ln := laneOf s l
        (slotBytes p (slotTrim ln start) (ln.state == .running) start, s)
    let (rest, s) := slotsGo port start n (k + 1) s
    (bytes :: rest, s)

/-- The checks of the slots, four at a time (R253). -/
def quadChecks : Nat → List (List Byte) → List Nat
  | 0, _ => []
  | _ + 1, [] => []
  | n + 1, ss => crc16 (ss.take 4).flatten :: quadChecks n (ss.drop 4)

/-- LASER_EN of SOC (R251). -/
def laserEnable (s : State) : Bool := s.permit.high && !s.power.safe

/-- OPEN of SOC (R272, R276): a hop is being enumerated, or no job exists. -/
def portOpen (s : State) (q : Port) : Bool := (q.link == 2 || q.link == 3) && (q.enumHop != 0 || !jobExists s)

/-- SPL_CYCLE (R250): what a port puts out in the cycle that starts at `start`, by the end of that cycle (log 33). -/
def splCycle (port start : Nat) (s : State) : State :=
  if s.variant.ports ≤ port || start % 500 != 0 || s.now < start || start + 500 < s.now
    || !((portOf s port).link == 2 || (portOf s port).link == 3) then s
  else
    let (slots, s) := slotsGo port start (min 16 (portBeams s port)) 0 s
    let en := laserEnable s
    let q := portOf s port
    let flags := b1 en + 2 * b1 (portOpen s q)
    let s := putCycle port (start / 500) flags slots (quadChecks 4 slots) (setPort port (fun q => { q with laserEn := en }) s)
    { s with sent := .cycle port (start / 500 % 2 ^ 32) flags slots (quadChecks 4 slots) :: s.sent }

def execSplCycle (t : Ns) (port start : Nat) (s : State) : Host.Outcome State Fault Refusal :=
  .next (splCycle port start (passTo t s))

end Sys2Proof.Machine
end

