-- ==== Sys2Proof/Machine/Edp.lean ====
section
/-! DEFINITION. The eDP output (R479 to R482). -/

namespace Sys2Proof.Machine

def setEdp (f : Edp → Edp) (s : State) : State := { s with edp := f s.edp }

/-! ### Link training (R480) -/

/-- The payload of a lane in kb/s at a rate: RBR, HBR and HBR2 with the 8b/10b coding. -/
def edpPayload (rate : Nat) : Nat :=
  match rate with
  | 0 => 1296000
  | 1 => 2160000
  | _ => 4320000

/-- The link carries PCLK × 24 bits. -/
def edpCarries (s : State) (lanes rate : Nat) : Bool :=
  decide (cfgF s 0x820014 0 20 * 24 ≤ lanes * edpPayload rate)

/-- The settings in the order in which training tries them: the profile's lanes with falling rates, then half the lanes. -/
def edpSettings (s : State) : List (Nat × Nat) :=
  let lanes := cfgF s 0x820000 0 3
  let rates := (List.range (min 2 (cfgF s 0x820000 3 2) + 1)).reverse
  let widths := [lanes, lanes / 2, lanes / 4].filter fun n => n != 0
  (widths.flatMap fun n => rates.map fun r => (n, r)).filter fun p => edpCarries s p.1 p.2

/-- The link is trained: `trains` are the settings at which it would train, `maxLanes` and `maxRate` what the sink's DPCD gives. -/
def edpTrain (maxLanes maxRate : Nat) (trains : List (Nat × Nat)) (s : State) : State :=
  match (edpSettings s).find? fun p => trains.contains p with
  | some (n, r) =>
    raise 0x7020 (natLE 1 n ++ natLE 1 r) (setEdp (fun e => { e with
      trained := true, lanes := BitVec.ofNat 3 n, rate := BitVec.ofNat 2 r }) s)
  | none =>
    raise 0x7022 (natLE 1 maxLanes ++ natLE 1 maxRate) (setEdp (fun e => { e with
      trained := false, lanes := 0, rate := 0, trainFail := satInc e.trainFail }) s)

/-- EDP_HPD: high for 100 ms (0), an interrupt pulse (1) with what the link status says, or low for more than 2 ms (2). -/
def edpHpd (kind maxLanes maxRate : Nat) (trains : List (Nat × Nat)) (lost : Bool) (s : State) : State :=
  match kind with
  | 0 => if s.edp.hpd then s else edpTrain maxLanes maxRate trains (setEdp (fun e => { e with hpd := true }) s)
  | 1 =>
    if s.edp.trained && lost then edpTrain maxLanes maxRate trains (setEdp (fun e => { e with linkLoss := satInc e.linkLoss }) s)
    else s
  | _ =>
    if s.edp.hpd then
      raise 0x7021 [] (setEdp (fun e => { e with
        hpd := false, trained := false, lanes := 0, rate := 0, linkLoss := satInc e.linkLoss }) s)
    else s

def execEdpHpd (t : Ns) (kind maxLanes maxRate : Nat) (trains : List (Nat × Nat)) (lost : Bool) (s : State) :
    Host.Outcome State Fault Refusal :=
  .next (edpHpd kind maxLanes maxRate trains lost (passTo t s))

/-! ### Scan-out (R481, R482) -/

/-- A DISPLAY_SET applies at the frame start. -/
def takeBinding (s : State) : State :=
  match s.edp.bind with
  | none => s
  | some b =>
    let refs := s.edp.bindRefs
    let s := setEdp (fun e => { e with scene := b, bind := none, bindRefs := [], shown := none, episode := false, repeats := 0 }) s
    refs.foldl (fun s r => endWith r stDone s) s

/-- The surface of the frame that starts: the newest finished one, or the previous one again (R481). -/
def takeSurface (k : Nat) (s : State) : State :=
  match newestSurface k s with
  | none => setEdp (fun e => { e with shown := none }) s
  | some (h, b) =>
    let s := match (sceneOf s k).rec_ with | some r => rtAccess 24 (r.bufAddr b) s | none => s
    if s.edp.shown = some (h, b) then
      let first := !s.edp.episode
      let s := setEdp (fun e => { e with repeated := e.repeated + 1, repeats := e.repeats + 1, episode := true }) s
      if first then raise 0x7023 (natLE 1 k ++ natLE 4 s.edp.repeats) s else s
    else setEdp (fun e => { e with shown := some (h, b), repeats := 0, episode := false }) s

/-- EDP_FRAME_START: a frame starts while a stream is sent. -/
def edpFrame (s : State) : State :=
  if !s.edp.trained then s
  else
    let s := takeBinding (setEdp (fun e => { e with frames := e.frames + 1 }) s)
    match s.edp.scene with
    | none => s
    | some k =>
      let s := takeSurface k s
      if ((sceneOf s k).rec_.any fun r => r.periodUs = 0) then composeStart k s else s

def execEdpFrameStart (t : Ns) (s : State) : Host.Outcome State Fault Refusal := .next (edpFrame (passTo t s))

/-- What DISPLAY_SET must meet (R482). -/
def displaySetCheck (scene : Nat) (s : State) : Nat :=
  if scene = 0xFF then stDone
  else match (sceneOf s scene).rec_ with
    | none => stParam
    | some r =>
      if r.outW = cfgF s 0x820004 0 13 && r.outH = cfgF s 0x820008 0 13 && r.periodic && decide (3 ≤ r.count) then stDone else stParam

/-- The binding waits for the next frame start. -/
def applyDisplaySet (r : Option Ref) (scene : Nat) (s : State) : State :=
  setEdp (fun e => { e with bind := some (if scene = 0xFF then none else some scene), bindRefs := e.bindRefs ++ r.toList }) s

/-- DISPLAY_SET. -/
def startDisplaySet (r : Ref) (scene : Nat) (s : State) : State :=
  let st := displaySetCheck scene s
  if st != stDone then endWith r st s else applyDisplaySet (some r) scene s

def execDisplaySet (h : Hdr) (scene : Nat) (s : State) : Host.Outcome State Fault Refusal :=
  .next (postDescriptor (.displaySet h scene) h 0x7C (startDisplaySet h.ref scene) s)

end Sys2Proof.Machine
end

