-- ==== Sys2Proof/Machine/Encoders.lean ====
section
/-! DEFINITION. Encoders, Hall groups, compare units and echo outputs (R402 to R417). -/

namespace Sys2Proof.Machine

/-! ### Units -/

def hallOf (s : State) (g : Nat) : Hall := unit s.hall g .reset
def setHall (g : Nat) (f : Hall → Hall) (s : State) : State := { s with hall := modUnit s.hall g f }
def cmpOf (s : State) (k : Nat) : Cmp := unit s.cmp k .reset
def setCmp (k : Nat) (f : Cmp → Cmp) (s : State) : State := { s with cmp := modUnit s.cmp k f }
def echoOf (s : State) (k : Nat) : Echo := unit s.echo k .reset
def setEcho (k : Nat) (f : Echo → Echo) (s : State) : State := { s with echo := modUnit s.echo k f }

/-- The offsets of a word of a Hall group, a compare unit and an echo output. -/
def hallOff (g k : Nat) : Nat := 0x641000 + 0x40 * g + k
def cmpOff (c k : Nat) : Nat := 0x642000 + 0x40 * c + k
def echoOff (c k : Nat) : Nat := 0x643000 + 0x40 * c + k

/-- MODE of a channel: 1 QUADRATURE, 2 SSI (channels 0 to 7). -/
def encMode (s : State) (e : Nat) : Nat :=
  let m := cfgF s (encOff e 0) 0 2
  if m = 2 && 7 < e then 0 else m

/-! ### Faults (R403, R404, R407) -/

/-- Latched faults of a channel: ENC_FAULT is raised at the first latch of a bit, and an axis whose feedback the channel is
faults (R397). -/
def latchEnc (e : Nat) (new : BitVec 6) (s : State) : State :=
  let x := encOf s e
  if new &&& ~~~x.faults = 0 then s
  else
    let f := x.faults ||| new
    let s := raise 0x8004 (natLE 1 e ++ natLE 1 f.toNat) (setEnc e (fun x => { x with faults := f }) s)
    (List.range 16).foldl (fun s a =>
      if axisFbEn s a && axisFbEnc s a = e then checkScript (axisFault a 2 s) else s) s

/-! ### Compare units and echoes (R412 to R414) -/

/-- The count that a hit is recorded at and the number of hits of unit k while the count goes from `old` to `new`, one
for each step of an incremental channel. -/
def cmpHits (s : State) (k : Nat) (old new : Int) : Nat :=
  let c := cfgS64 s (cmpOff k 8)
  let p := max 1 (cfgWord s (cmpOff k 4))
  if cfgB s (cmpOff k 0) 1 then
    if new ≤ c && decide (c < old) then (c - new).toNat / p + 1 else 0
  else if old < c && decide (c ≤ new) then (new - c).toNat / p + 1 else 0

/-- One hit (R413): the pulse, the record, the line trigger and the camera ports that follow it (R427, R428). In the safe state the output stays idle. -/
def cmpHit (k : Nat) (s : State) : State :=
  let c := cfgS64 s (cmpOff k 8)
  let p : Int := cfgWord s (cmpOff k 4)
  let s := setCfgS64 (cmpOff k 8) (if cfgB s (cmpOff k 0) 1 then c - p else c + p) s
  let on := decide (s.now < (cmpOf s k).active)
  let time := match s.jobs.tor with | some t => s.now - t | none => s.now
  let s := setCmp k (fun x => { x with
    hits := x.hits + 1, hitTime := BitVec.ofNat 64 time, hitCount := c
    merged := if on then satInc x.merged else x.merged }) s
  let s :=
    if s.power.safe then s
    else
      let s := if on then s else { s with sent := .edge 2 k true (tickAt s.now) 0 :: s.sent }
      setCmp k (fun x => { x with active := s.now + 5 * cfgF s (cmpOff k 0) 16 16 }) s
  let s := lineTrigger k s
  camTrigs 3 k (latestProduct s) s

/-- E of an echo output (R414). -/
def echoCount (s : State) (k : Nat) : Int :=
  ((encOf s (cfgF s (echoOff k 0) 4 4)).ext - (echoOf s k).xOrg) * cfgF s (echoOff k 4) 0 16
    / (max 1 (cfgF s (echoOff k 4) 16 16) : Nat)

/-- What follows a change of a channel's extended count from `old`: compares, echoes and the axes' feedback. -/
def countMoved (e : Nat) (old : Int) (s : State) : State :=
  let new := (encOf s e).ext
  let s := (List.range 16).foldl (fun s k =>
    if cfgB s (cmpOff k 0) 0 && cfgF s (cmpOff k 0) 4 4 = e then
      (List.range (cmpHits s k old new)).foldl (fun s _ => cmpHit k s) s
    else s) s
  let s := (List.range 4).foldl (fun s k =>
    if cfgB s (echoOff k 0) 0 && cfgF s (echoOff k 0) 4 4 = e then
      setEcho k (fun x => { x with outCount := echoCount s k }) s
    else s) s
  (List.range 16).foldl (fun s a => if axisFbEnc s a = e then trackFe a s else s) s

/-! ### Incremental channels (R402 to R405, R408, R409) -/

/-- What a counted edge does to the speed (R408, R409). -/
def edgeSpeed (now : Ns) (up : Bool) (x : Enc) : Enc :=
  let fresh := x.edge.isNone || x.standstill || x.reverse == up
  if fresh then
    { x with
      standstill := false, valid := false, reverse := !up, run := 1, mag := 0, window := false, winEdge := none
      winPrev := none, prev := none, edge := some now }
  else
    let dt := match x.edge with | some t => now - t | none => 0
    let m := roundDivN 1000000000 (max 1 dt)
    { x with valid := true, run := 2, mag := if x.window then x.mag else m, prev := x.edge, edge := some now }

/-- A counted edge of A or B. -/
def countEdge (e : Nat) (sense : Bool) (s : State) : State :=
  let x := encOf s e
  let up := sense != cfgB s (encOff e 0) 20
  let cpr := encCpr s e
  let minNs := 5 * cfgF s (encOff e 4) 0 16
  let short := match x.edge with | some t => decide (s.now < t + minNs) | none => false
  let s := setEnc e (fun x => edgeSpeed s.now up { x with
    ext := if up then x.ext + 1 else x.ext - 1
    position := if up then (if cpr ≤ x.position + 1 then 0 else x.position + 1)
      else (if x.position = 0 then cpr - 1 else x.position - 1)
    edgeFaults := if short then satInc x.edgeFaults else x.edgeFaults }) s
  let s := if short then latchEnc e 8 s else s
  countMoved e x.ext s

/-- A Z edge falls within Z_TOL of the first one (R405). -/
def indexNear (a b cpr tol : Nat) : Bool :=
  let d := if a ≤ b then b - a else a - b
  decide (d ≤ tol) || decide (cpr - d ≤ tol)

/-- A rising edge of Z (R405, R399). -/
def indexEdge (e : Nat) (s : State) : State :=
  let x := encOf s e
  let s := match cfgF s (encOff e 0) 18 2 with
    | 1 => setEnc e (fun x => { x with indexPos := x.position }) s
    | 2 =>
      let s := setEnc e (fun x => { x with indexPos := x.position }) s
      (match x.zRef with
        | none => setEnc e (fun x => { x with zRef := some x.position }) s
        | some z =>
          if indexNear z x.position (encCpr s e) (cfgF s (encOff e 0) 24 8) then s
          else latchEnc e 16 (setEnc e (fun x => { x with indexMismatch := satInc x.indexMismatch }) s))
    | 3 => if x.zArmed then setEnc e (fun x => { x with position := 0, zArmed := false }) s else s
    | _ => s
  checkScript (homeEdge false e s)

/-- ENC_EDGE (R402). -/
def encEdge (e : Nat) (k : EncEdge) (s : State) : State :=
  if 16 ≤ e || encMode s e != 1 then s
  else match k with
    | .up => countEdge e true s
    | .down => countEdge e false s
    | .illegal => latchEnc e 8 (setEnc e (fun x => { x with illegal := satInc x.illegal }) s)
    | .index => indexEdge e s

def execEncEdge (t : Ns) (chan : Nat) (edge : EncEdge) (s : State) : Host.Outcome State Fault Refusal :=
  .next (encEdge chan edge (passTo t s))

/-- ENC_WIRE_FAULT (R403): a pair comes into disagreement, or leaves it. In SSI mode only the data pair A is watched
(R406). -/
def encWire (e pair : Nat) (bad : Bool) (s : State) : State :=
  let m := encMode s e
  if 16 ≤ e || 2 < pair || !(m = 1 || (m = 2 && pair = 0)) then s
  else
    let one := BitVec.ofNat 3 (2 ^ pair)
    let x := encOf s e
    if bad then
      let s := setEnc e (fun x => { x with
        wireNow := x.wireNow ||| one
        wireEvents := if x.wireNow &&& one = 0 then satInc x.wireEvents else x.wireEvents }) s
      latchEnc e (BitVec.ofNat 6 (2 ^ pair)) s
    else setEnc e (fun _ => { x with wireNow := x.wireNow &&& ~~~one }) s

def execEncWireFault (t : Ns) (chan pair : Nat) (bad : Bool) (s : State) : Host.Outcome State Fault Refusal :=
  .next (encWire chan pair bad (passTo t s))

/-- A channel stands still once no edge has been counted for T_STALL (R408). -/
def encStall (e : Nat) (s : State) : State :=
  let x := encOf s e
  let due := match x.edge with | some t => decide (t + encStallNs s e ≤ s.now) | none => decide (encStallNs s e ≤ s.now)
  if encMode s e != 1 || !due then s
  else setEnc e (fun x => { x with
    standstill := true, valid := true, mag := 0, window := false, run := 0, winEdge := none, winPrev := none }) s

/-- T_STALL of a Hall group in ns; its default is that of the channels. -/
def hallStallNs (s : State) (g : Nat) : Nat :=
  let t := cfgF s (hallOff g 0) 8 16
  1000000 * (if t = 0 then 10 else t)

/-- The same of a Hall group (R411). -/
def hallStall (g : Nat) (s : State) : State :=
  let x := hallOf s g
  let due := match x.edge with | some t => decide (t + hallStallNs s g ≤ s.now) | none => decide (hallStallNs s g ≤ s.now)
  if due then setHall g (fun x => { x with standstill := true, valid := true, mag := 0, run := 0 }) s else s

/-- ENC_STALL (R408, R411): channels 0 to 15, and Hall group g as 16 + g. -/
def execEncStall (t : Ns) (chan : Nat) (s : State) : Host.Outcome State Fault Refusal :=
  .next (let s := passTo t s; if chan < 16 then encStall chan s else hallStall (chan - 16) s)

/-- ENC_WINDOW_END (R409): at or above CROSSOVER the magnitude is that between the last edges of two consecutive windows,
until it falls below 7/8 of it. -/
def windowEnd (e : Nat) (s : State) : State :=
  let x := encOf s e
  let len := 1000 * cfgF s (encOff e 0x0C) 16 16
  let cross := cfgWord s (encOff e 0x10)
  let cur := match x.edge with
    | some t => if s.now < t + len then some (t, x.ext) else none
    | none => none
  let m := match cur, x.winEdge with
    | some (t, c), some (t0, c0) => if t0 < t then some (roundDivN ((c - c0).natAbs * 1000000000) (t - t0)) else none
    | _, _ => none
  let keep := fun m : Nat => if x.window then decide (7 * cross ≤ 8 * m) else decide (cross ≤ x.mag)
  let y := { x with winPrev := x.winEdge, winEdge := cur }
  let period := match x.edge, x.prev with
    | some t, some p => roundDivN 1000000000 (max 1 (t - p))
    | _, _ => x.mag
  let y := match m with
    | some m => if x.valid && !x.standstill && keep m then { y with window := true, mag := m }
                else { y with window := false, mag := if x.window then period else x.mag }
    | none => { y with window := false, mag := if x.window then period else x.mag }
  if encMode s e = 1 then setEnc e (fun _ => y) s else s

def execEncWindowEnd (t : Ns) (chan : Nat) (s : State) : Host.Outcome State Fault Refusal :=
  .next (windowEnd chan (passTo t s))

/-! ### SSI (R406, R410) -/

/-- The binary value of a Gray code of n bits. -/
def unGray (n v : Nat) : Nat := (List.range n).foldl (fun a k => a ^^^ (v >>> k)) 0

/-- SSI_READ (R406): a frame of SSI_BITS bits as clocked in, and whether the data line was low before the first clock. -/
def ssiRead (e raw : Nat) (lineLow : Bool) (s : State) : State :=
  if 16 ≤ e || encMode s e != 2 then s
  else
    let n := cfgF s (encOff e 0x14) 0 6
    let cpr := encCpr s e
    let v := (if cfgB s (encOff e 0x14) 6 then unGray n (raw % 2 ^ n) else raw) % 2 ^ n
    let bad := latchEnc e 32 (setEnc e (fun x => { x with ssiErrors := satInc x.ssiErrors }) s)
    let x := encOf s e
    if lineLow then bad
    else
      match x.ssiPrev with
      | none => setEnc e (fun x => { x with
          position := v, ssiPrev := some v, ssiReads := 1, ssiChange := s.now, edge := some s.now }) s
      | some p =>
        let up := (v + cpr - p) % cpr
        let d : Int := if 2 * up < cpr then (up : Int) else (up : Int) - (cpr : Int)
        if cpr < 4 * d.natAbs then bad
        else
          let per := 10000 * max 1 (cfgF s (encOff e 0x14) 18 14)
          let change := if d = 0 then x.ssiChange else s.now
          let still := decide (change + encStallNs s e ≤ s.now)
          countMoved e x.ext (setEnc e (fun x => { x with
            position := v, ssiPrev := some v, ssiReads := 2, ext := x.ext + d, ssiChange := change
            reverse := if d = 0 then x.reverse else decide (d < 0), valid := true, standstill := still
            mag := if still then 0 else roundDivN (d.natAbs * 1000000000) per, prev := x.edge, edge := some s.now }) s)

def execSsiRead (t : Ns) (chan raw : Nat) (lineLow : Bool) (s : State) : Host.Outcome State Fault Refusal :=
  .next (ssiRead chan raw lineLow (passTo t s))

/-! ### Hall groups (R411) -/

/-- The sector of a code W:V:U. -/
def hallSector (code : Nat) : Option Nat :=
  match code with
  | 5 => some 0
  | 1 => some 1
  | 3 => some 2
  | 2 => some 3
  | 6 => some 4
  | 4 => some 5
  | _ => none

/-- The signed speed of a group in sectors/s. -/
def hallSpeed (s : State) (g : Nat) : Int :=
  let x := hallOf s g
  let m := if x.valid then magAt x.mag false x.edge s.now else 0
  if x.reverse then -(m : Int) else (m : Int)

/-- A change to the neighbouring sector, with its speed as R408 and R409 give it. -/
def hallEdge (now : Ns) (up : Bool) (sector : Nat) (x : Hall) : Hall :=
  let fresh := x.edge.isNone || x.standstill || x.reverse == up
  let dt := match x.edge with | some t => now - t | none => 0
  { x with
    sector := BitVec.ofNat 3 sector, count := if up then x.count + 1 else x.count - 1, standstill := false
    valid := !fresh, reverse := !up, run := if fresh then 1 else 2
    mag := if fresh then 0 else roundDivN 1000000000 (max 1 dt), edge := some now }

/-- HALL_CHANGE (R411): a filtered change of a group's code. -/
def hallChange (g code : Nat) (s : State) : State :=
  let c := code % 8
  let x := hallOf s g
  let event := raise 0x8005 (natLE 1 g ++ natLE 1 c)
  if 8 ≤ g then s
  else
    match hallSector c with
    | none =>
      let s := setHall g (fun x => { x with invalid := true, code := BitVec.ofNat 3 c }) s
      if x.invalid then s else event s
    | some n =>
      let s := setHall g (fun x => { x with code := BitVec.ofNat 3 c, known := true }) s
      if !x.known then setHall g (fun x => { x with sector := BitVec.ofNat 3 n }) s
      else
        match (n + 6 - x.sector.toNat) % 6 with
        | 0 => s
        | 1 => setHall g (hallEdge s.now true n) s
        | 5 => setHall g (hallEdge s.now false n) s
        | _ =>
          let s := setHall g (fun x => { x with sector := BitVec.ofNat 3 n, skip := true, skips := satInc x.skips }) s
          if x.skip then s else event s

def execHallChange (t : Ns) (group code : Nat) (s : State) : Host.Outcome State Fault Refusal :=
  .next (hallChange group code (passTo t s))

/-! ### ENC_PRESET, CMP_SET, ECHO_SET, FAULT_CLEAR (R405, R407, R412, R414, R416) -/

/-- ENC_PRESET: the position becomes the count mod CPR; the first Z edge after it resets the position in Z_MODE RESET. -/
def startEncPreset (r : Ref) (mask : BitVec 16) (ext : Int) (s : State) : State :=
  endWith r stDone ((axesIn mask).foldl (fun s e =>
    let d := ext - (encOf s e).ext
    setEnc e (fun x => { x with
      ext := ext, position := (ext % (encCpr s e : Int)).toNat, zArmed := true
      winEdge := x.winEdge.map fun w => (w.1, w.2 + d), winPrev := x.winPrev.map fun w => (w.1, w.2 + d) }) s) s)

def execEncPreset (h : Hdr) (mask : BitVec 16) (ext : Int) (s : State) : Host.Outcome State Fault Refusal :=
  .next (postDescriptor (.encPreset h mask ext) h 0x56 (startEncPreset h.ref mask ext) s)

/-- What CMP_SET must meet (R412, R413, R416). -/
def cmpSetCheck (k enc pitch width : Nat) (s : State) : Nat :=
  if 16 ≤ k || 16 ≤ enc || pitch = 0 || 2147483647 < pitch || width = 0 || 65535 < width then stParam
  else if s.jobs.line && (jobHeader s).any (fun h => h.trigSource = k) then stState
  else stDone

/-- CMP_SET takes effect; the compare value serves the next edge (R415). -/
def applyCmpSet (k : Nat) (enable reverse : Bool) (enc pitch : Nat) (c : Int) (width : Nat) (s : State) : State :=
  setCfgS64 (cmpOff k 8) c (setCfg (cmpOff k 4) pitch
    (setCfg (cmpOff k 0) (b1 enable + 2 * b1 reverse + 16 * enc + 65536 * width) s))

def startCmpSet (r : Ref) (k : Nat) (enable reverse : Bool) (enc pitch : Nat) (c : Int) (width : Nat) (s : State) : State :=
  let st := cmpSetCheck k enc pitch width s
  if st != stDone then endWith r st s
  else endWith r stDone (bumpOverride 7 true (applyCmpSet k enable reverse enc pitch c width s))

def execCmpSet (h : Hdr) (cmp : Nat) (enable reverse : Bool) (enc pitch : Nat) (c : Int) (width : Nat) (s : State) :
    Host.Outcome State Fault Refusal :=
  .next (postDescriptor (.cmpSet h cmp enable reverse enc pitch c width) h 0x57
    (startCmpSet h.ref cmp enable reverse enc pitch c width) s)

/-- What ECHO_SET must meet (R414, R416). -/
def echoSetCheck (k enc n m : Nat) : Nat :=
  if 4 ≤ k || 16 ≤ enc || n = 0 || 65535 < n || 65535 < m || m < n then stParam else stDone

/-- ECHO_SET takes effect: X_ORG is X when ENABLE is set. -/
def applyEchoSet (k : Nat) (enable : Bool) (enc n m : Nat) (s : State) : State :=
  let s := setCfg (echoOff k 4) (n + 65536 * m) (setCfg (echoOff k 0) (b1 enable + 16 * enc) s)
  if enable then setEcho k (fun _ => { outCount := 0, xOrg := (encOf s enc).ext }) s else s

def startEchoSet (r : Ref) (k : Nat) (enable : Bool) (enc n m : Nat) (s : State) : State :=
  let st := echoSetCheck k enc n m
  if st != stDone then endWith r st s else endWith r stDone (bumpOverride 7 true (applyEchoSet k enable enc n m s))

def execEchoSet (h : Hdr) (out : Nat) (enable : Bool) (enc n m : Nat) (s : State) : Host.Outcome State Fault Refusal :=
  .next (postDescriptor (.echoSet h out enable enc n m) h 0x58 (startEchoSet h.ref out enable enc n m) s)

/-- The latched faults of a channel are cleared; one whose condition still holds is latched again (R407). -/
def clearEnc (e : Nat) (s : State) : State :=
  let again : BitVec 6 := (encOf s e).wireNow.setWidth 6
  latchEnc e again (setEnc e (fun x => { x with faults := 0 }) s)

/-- The condition of an axis fault still holds (R416). -/
def axisBad (s : State) (a : Nat) : Bool :=
  match (axisOf s a).cause.toNat with
  | 1 => axisFbEn s a && decide (cfgWord s (axisOff a 0x2C) < (axisFe s a).natAbs)
  | 2 => axisFbEn s a && (encOf s (axisFbEnc s a)).faults != 0
  | _ => false

/-- FAULT leaves an axis at standstill. -/
def clearAxis (a : Nat) (s : State) : State :=
  if (axisOf s a).state = .fault && !axisBad s a then
    setAxis a (fun x => { x with state := if x.axen then .idle else .disabled, cause := 0, feSince := none }) s
  else s

/-- The latched faults of a Hall group. -/
def clearHall (g : Nat) (s : State) : State :=
  let bad := (hallOf s g).known && (hallSector (hallOf s g).code.toNat).isNone
  let s := setHall g (fun x => { x with skip := false, invalid := bad }) s
  if bad then raise 0x8005 (natLE 1 g ++ natLE 1 (hallOf s g).code.toNat) s else s

def startFaultClear (r : Ref) (axisMask encMask : BitVec 16) (hallMask : BitVec 8) (s : State) : State :=
  let s := (axesIn encMask).foldl (fun s e => clearEnc e s) s
  let s := (axesIn axisMask).foldl (fun s a => clearAxis a s) s
  endWith r stDone (((List.range 8).filter fun g => hallMask.getLsbD g).foldl (fun s g => clearHall g s) s)

def execFaultClear (h : Hdr) (axisMask encMask : BitVec 16) (hallMask : BitVec 8) (s : State) :
    Host.Outcome State Fault Refusal :=
  .next (postDescriptor (.faultClear h axisMask encMask hallMask) h 0x59
    (startFaultClear h.ref axisMask encMask hallMask) s)

end Sys2Proof.Machine
end

