-- ==== Sys2Proof/Machine/Sha.lean ====
section
/-! DEFINITION. The cryptographic functions that the manual names: SHA-256 and SHA-384 (FIPS 180-4), HMAC-SHA-256 (FIPS 198-1) and
the verification of an ECDSA P-384 signature (FIPS 186-5). PRESUMED: their definitions are those standards' (log 61). -/

namespace Sys2Proof.Machine

/-- The number that an octet string spells, most significant octet first (R336). -/
def beNat (bs : List Byte) : Nat := bs.foldl (fun n b => 256 * n + b.toNat) 0

/-- The low `n` bytes of `v`, most significant first. -/
def natBE (n v : Nat) : List Byte := (natLE n v).reverse

/-! ### SHA-2 -/

/-- `n` has no divisor from 2 to its root. -/
def isPrime (n : Nat) : Bool := decide (2 ≤ n) && (List.range' 2 (isqrt n - 1)).all fun d => n % d != 0

/-- The first primes, as many as the rounds of SHA-512 need. -/
def primes : List Nat := (List.range 410).filter isPrime

/-- The integer cube root, by bisection on `fuel` bits from above. -/
def icbrtGo : Nat → Nat → Nat → Nat
  | 0, r, _ => r
  | k + 1, r, n => if (r + 2 ^ k) ^ 3 ≤ n then icbrtGo k (r + 2 ^ k) n else icbrtGo k r n

/-- The first `w` bits of the fractional part of the cube root of `n`. -/
def cubeFrac (w n : Nat) : Nat := icbrtGo (w + 4) 0 (n * 2 ^ (3 * w)) % 2 ^ w

/-- The first `w` bits of the fractional part of the square root of `n`. -/
def rootFrac (w n : Nat) : Nat := isqrt (n * 2 ^ (2 * w)) % 2 ^ w

/-- What tells SHA-256 from SHA-384: the word length, the rounds and their constants, the initial value, the amounts of the
four functions (rotations, and the shift last), and the octets of the digest. -/
structure ShaKind where
  w : Nat
  rounds : Nat
  k : List Nat
  h : List Nat
  bigA : Nat × Nat × Nat
  bigE : Nat × Nat × Nat
  small0 : Nat × Nat × Nat
  small1 : Nat × Nat × Nat
  out : Nat

def sha256Kind : ShaKind :=
  { w := 32, rounds := 64, k := (primes.take 64).map (cubeFrac 32), h := (primes.take 8).map (rootFrac 32)
    bigA := (2, 13, 22), bigE := (6, 11, 25), small0 := (7, 18, 3), small1 := (17, 19, 10), out := 32 }

def sha384Kind : ShaKind :=
  { w := 64, rounds := 80, k := (primes.take 80).map (cubeFrac 64), h := ((primes.drop 8).take 8).map (rootFrac 64)
    bigA := (28, 34, 39), bigE := (14, 18, 41), small0 := (1, 8, 7), small1 := (19, 61, 6), out := 48 }

/-- A word of w bits rotated right. -/
def rotr (w n x : Nat) : Nat := x / 2 ^ n + x % 2 ^ n * 2 ^ (w - n)

/-- The functions Σ: three rotations. -/
def bigSigma (w : Nat) (r : Nat × Nat × Nat) (x : Nat) : Nat := rotr w r.1 x ^^^ rotr w r.2.1 x ^^^ rotr w r.2.2 x

/-- The functions σ: two rotations and a shift. -/
def smallSigma (w : Nat) (r : Nat × Nat × Nat) (x : Nat) : Nat := rotr w r.1 x ^^^ rotr w r.2.1 x ^^^ (x / 2 ^ r.2.2)

/-- The message schedule, newest word first. -/
def schedule (c : ShaKind) : Nat → List Nat → List Nat
  | 0, ws => ws
  | n + 1, ws =>
    let x := (smallSigma c.w c.small1 (ws.getD 1 0) + ws.getD 6 0 + smallSigma c.w c.small0 (ws.getD 14 0) + ws.getD 15 0) % 2 ^ c.w
    schedule c n (x :: ws)

/-- One round on the eight working variables. -/
def shaRound (c : ShaKind) (v : List Nat) (kw : Nat) : List Nat :=
  match v with
  | [a, b, d, e0, e, f, g, h] =>
    let ch := (e &&& f) ^^^ ((2 ^ c.w - 1 - e) &&& g)
    let maj := (a &&& b) ^^^ (a &&& d) ^^^ (b &&& d)
    let t1 := h + bigSigma c.w c.bigE e + ch + kw
    let t2 := bigSigma c.w c.bigA a + maj
    [(t1 + t2) % 2 ^ c.w, a, b, d, (e0 + t1) % 2 ^ c.w, e, f, g]
  | _ => v

/-- One block of 16 words. -/
def shaBlock (c : ShaKind) (h ws : List Nat) : List Nat :=
  let ws := (schedule c (c.rounds - 16) ws.reverse).reverse
  let v := (List.zipWith (· + ·) c.k ws).foldl (shaRound c) h
  List.zipWith (fun x y => (x + y) % 2 ^ c.w) h v

/-- Octets as big-endian words of `n` octets. -/
def wordsOf (n : Nat) : Nat → List Byte → List Nat
  | 0, _ => []
  | k + 1, bs => beNat (bs.take n) :: wordsOf n k (bs.drop n)

/-- The blocks of a padded message. -/
def shaBlocks (c : ShaKind) : Nat → List Byte → List Nat → List Nat
  | 0, _, h => h
  | k + 1, bs, h => shaBlocks c k (bs.drop (2 * c.w)) (shaBlock c h (wordsOf (c.w / 8) 16 bs))

/-- A digest. -/
def sha (c : ShaKind) (bs : List Byte) : List Byte :=
  let size := 2 * c.w
  let tail := c.w / 4
  let zeros := (size - (bs.length + 1 + tail) % size) % size
  let msg := bs ++ [0x80] ++ List.replicate zeros 0 ++ natBE tail (8 * bs.length)
  ((shaBlocks c (msg.length / size) msg c.h).flatMap (natBE (c.w / 8))).take c.out

def sha256 (bs : List Byte) : List Byte := sha sha256Kind bs

def sha384 (bs : List Byte) : List Byte := sha sha384Kind bs

/-- HMAC-SHA-256 for a key of at most 64 octets. -/
def hmac256 (key bs : List Byte) : List Byte :=
  let k := key ++ List.replicate (64 - key.length) 0
  sha256 (k.map (fun b => b ^^^ 0x5C) ++ sha256 (k.map (fun b => b ^^^ 0x36) ++ bs))

/-! ### ECDSA on P-256 and P-384 (FIPS 186-5) -/

/-- A curve y² = x³ − 3x + b modulo p with a base point (gx, gy) of order n; numbers have `w` bits. -/
structure EcCurve where
  w : Nat
  p : Nat
  n : Nat
  b : Nat
  gx : Nat
  gy : Nat

def p256 : EcCurve :=
  { w := 256
    p := 2 ^ 256 - 2 ^ 224 + 2 ^ 192 + 2 ^ 96 - 1
    n := 0xffffffff00000000ffffffffffffffffbce6faada7179e84f3b9cac2fc632551
    b := 0x5ac635d8aa3a93e7b3ebbd55769886bc651d06b0cc53b0f63bce3c3e27d2604b
    gx := 0x6b17d1f2e12c4247f8bce6e563a440f277037d812deb33a0f4a13945d898c296
    gy := 0x4fe342e2fe1a7f9b8ee7eb4a7c0f9e162bce33576b315ececbb6406837bf51f5 }

def p384 : EcCurve :=
  { w := 384
    p := 2 ^ 384 - 2 ^ 128 - 2 ^ 96 + 2 ^ 32 - 1
    n := 0xffffffffffffffffffffffffffffffffffffffffffffffffc7634d81f4372ddf581a0db248b0a77aecec196accc52973
    b := 0xb3312fa7e23ee7e4988e056be3f82d19181d9c6efe8141120314088f5013875ac656398d8a2ed19d2a85c8edd3ec2aef
    gx := 0xaa87ca22be8b05378eb1c71ef320ad746e1d3b628ba79b9859f741e082542a385502f25dbf55296c3a545e3872760ab7
    gy := 0x3617de4a96262c6f5d9e98bf9292dc29f8f41dbd289a147ce9da3113b5f0b8c00a60b1ce1d7e819d7a431d7c90ea0e5f }

/-- A point; none is the point at infinity. -/
abbrev Point := Option (Nat × Nat)

/-- x to the power `e` modulo m, e taken as `k` bits. -/
def powMod : Nat → Nat → Nat → Nat → Nat
  | 0, _, _, m => 1 % m
  | k + 1, x, e, m =>
    let r := powMod k (x * x % m) (e / 2) m
    if e % 2 = 1 then r * x % m else r

/-- The inverse modulo a prime. -/
def invMod (x m : Nat) : Nat := powMod 384 (x % m) (m - 2) m

/-- The sum of two points. -/
def pointAdd (c : EcCurve) : Point → Point → Point
  | none, q => q
  | q, none => q
  | some (x1, y1), some (x2, y2) =>
    if x1 = x2 && (y1 + y2) % c.p = 0 then none
    else
      let l := if x1 = x2 then (3 * x1 * x1 + (c.p - 3)) * invMod (2 * y1) c.p % c.p
        else (y2 + c.p - y1) * invMod (x2 + c.p - x1) c.p % c.p
      let x3 := (l * l + 2 * c.p - x1 - x2) % c.p
      some (x3, (l * (x1 + c.p - x3) + c.p - y1) % c.p)

/-- k times a point, k taken as `fuel` bits. -/
def pointMul (c : EcCurve) : Nat → Nat → Point → Point
  | 0, _, _ => none
  | f + 1, k, q =>
    if k % 2 = 1 then pointAdd c q (pointMul c f (k / 2) (pointAdd c q q)) else pointMul c f (k / 2) (pointAdd c q q)

/-- A point of the curve. -/
def onCurve (c : EcCurve) (x y : Nat) : Bool :=
  decide (x < c.p) && decide (y < c.p) && y * y % c.p == (x * x * x + (c.p - 3) * x + c.b) % c.p

/-- The verification of (r, s) over a digest of the curve's width with the public key (x, y). -/
def ecdsaVerify (c : EcCurve) (x y : Nat) (digest : List Byte) (r s : Nat) : Bool :=
  let w := invMod s c.n
  let e := beNat (digest.take (c.w / 8))
  let q := pointAdd c (pointMul c c.w (e * w % c.n) (some (c.gx, c.gy))) (pointMul c c.w (r * w % c.n) (some (x, y)))
  onCurve c x y && decide (0 < r) && decide (r < c.n) && decide (0 < s) && decide (s < c.n)
  && match q with
    | some (qx, _) => qx % c.n == r
    | none => false

end Sys2Proof.Machine
end

