-- ==== Sys2Proof/Machine/Recorder.lean ====
section
/-! DEFINITION. The event recorder: samples, records, the flash, reading and clearing (R536 to R551). -/

namespace Sys2Proof.Machine

def setRecorder (f : Recorder → Recorder) (s : State) : State := { s with recorder := f s.recorder }

/-! ### Samples (R536 to R539) -/

/-- LOW, STEP, CODE_LO and the span of histogram h. -/
def histLow (s : State) (h : Nat) : Int := cfgS s (0xA40100 + 8 * h)
def histStep (s : State) (h : Nat) : Nat := cfgF s (0xA40104 + 8 * h) 0 16
def codeLo (s : State) (h : Nat) : Nat := cfgF s (0xA40104 + 8 * h) 16 16
def codeSpan (s : State) (h : Nat) : Nat := cfgF s (0xA40180 + 4 * h) 0 16

/-- The bin of a sample (R536). -/
def histBin (s : State) (h : Nat) (v : Int) : Nat := (clampI 0 31 ((v - histLow s h) / (max 1 (histStep s h) : Nat))).toNat

/-- A sample of a histogram. -/
def histSample (h : Nat) (v : Int) (s : State) : State :=
  setActive (fun r => { r with
    bins := r.bins.modify h fun row => row.modify (histBin s h v) fun n => min 0xFFFFFFFF (n + 1) }) s

/-- A reading of source i (0 to 7) in a housekeeping round (R537, R539). -/
def recReading (i : Nat) (v : Int) (tag : Nat) (s : State) : State :=
  let s := recExtreme (8 + i) v tag (recExtreme i v tag s)
  setRecorder (fun r => { r with second := r.second.modify i fun x => match x with | some m => some (max m v) | none => some v }) s

/-- REC_SECOND (R537). -/
def recSecond (s : State) : State :=
  if s.power.state != .on then s
  else
    let s := (List.range 8).foldl (fun s h =>
      match s.recorder.second.getD h none with
      | some v => histSample h v s
      | none => s) s
    setRecorder (fun r => { r with second := List.replicate 8 none }) s

def execRecSecond (t : Ns) (s : State) : Host.Outcome State Fault Refusal := .next (recSecond (passTo t s))

/-! ### Records (R540 to R545) -/

/-- Two extremes of index i (R539): the one beyond, on a tie the earlier. -/
def mergeExt (i : Nat) : Option Extreme → Option Extreme → Option Extreme
  | some a, some b => if beyond i b.value a.value || (b.value = a.value && decide (b.minute < a.minute)) then some b else some a
  | none, b => b
  | a, none => a

/-- Two sets merged (R541). -/
def mergeSets (a b : RecSet) : RecSet :=
  { bins := List.zipWith (fun x y => List.zipWith (fun m n => min 0xFFFFFFFF (m + n)) x y) a.bins b.bins
    ext := (List.zip a.ext b.ext).mapIdx fun i p => mergeExt i p.1 p.2 }

/-- The bytes of an extreme. -/
def extBytes : Option Extreme → List Byte
  | some e => intLE 4 (clampI (-2147483648) 2147483647 e.value) ++ natLE 4 e.minute ++ natLE 2 e.tag ++ natLE 2 1
  | none => List.replicate 12 0

/-- A record (R545). -/
def recordBytes (kind cause nonce : Nat) (token : List Byte) (content : RecSet) (s : State) : List Byte :=
  let r := s.recorder
  let body := padTo 2556 (natLE 4 0x52434552 ++ natLE 1 kind ++ natLE 1 (b1 r.merged) ++ natLE 2 1 ++ natLE 4 r.seqNext.toNat
    ++ natLE 4 r.minutes.toNat ++ natLE 4 r.cycles.toNat ++ natLE 4 r.since.toNat ++ natLE 4 r.clears.toNat
    ++ natLE 4 s.boot.fwVersion.toNat ++ natLE 8 s.ident.otp.serial.toNat ++ natLE 4 cause
    ++ natLE 4 (r.minutes.toNat - r.lastMinute) ++ natLE 8 nonce ++ padTo 8 token
    ++ (content.bins.flatMap fun row => row.flatMap fun n => natLE 4 n) ++ content.ext.flatMap extBytes)
  body ++ natLE 4 (crc32 body)

/-- The active set and the other one. -/
def activeSet (r : Recorder) : RecSet := if r.activeB then r.setB else r.setA
def otherSet (r : Recorder) : RecSet := if r.activeB then r.setA else r.setB

/-- The set that is not active changes. -/
def setOther (x : RecSet) (r : Recorder) : Recorder := if r.activeB then { r with setA := x } else { r with setB := x }

/-- The main-ring slot after the newest. -/
def nextMain (r : Recorder) : Nat := match r.newest with | some n => (n + 1) % 1792 | none => 0

/-- A write starts (R541): the active set is frozen, and the other becomes active. -/
def recBegin (d : RecDue) (s : State) : State :=
  let content := mergeSets s.recorder.totals (activeSet s.recorder)
  let s := setRecorder (fun r => { r with activeB := !r.activeB }) s
  let w : RecWrite :=
    { due := d, log := false, content := content, bytes := recordBytes d.kind d.cause 0 [] content s, slot := nextMain s.recorder
      since := s.now, fails := 0, nonce := 0, token := [] }
  setRecorder (fun r => { r with write := some w }) s

/-- The first step of a clear (R549): the CLEAR record for the clear log. -/
def clearBegin (ref : Ref) (nonce : Nat) (token : List Byte) (s : State) : State :=
  let r := s.recorder
  let content := mergeSets (mergeSets r.totals r.setA) r.setB
  let w : RecWrite :=
    { due := { kind := 8, cause := 0, refs := [ref] }, log := true, content := content
      bytes := recordBytes 8 0 nonce token content s, slot := r.clears.toNat, since := s.now, fails := 0, nonce := nonce, token := token }
  setRecorder (fun r => { r with write := some w }) s

/-- What the token of REC_CLEAR must be (R548). -/
def clearToken (key : List Byte) (nonce : Nat) (s : State) : List Byte :=
  (hmac256 key (natLE 8 nonce ++ natLE 8 s.ident.otp.serial.toNat ++ natLE 4 s.recorder.clears.toNat)).take 8

/-- A clear that is denied (R549). -/
def clearDenied (ref : Ref) (s : State) : State :=
  let s := setRecorder (fun r => { r with nonce := none, authFail := satInc r.authFail }) s
  endWith ref stAuth (raise 0x9003 (natLE 1 s.recorder.authFail.toNat) s)

/-- A REC_CLEAR is judged and starts (R549). -/
def clearAsked (ref : Ref) (token : List Byte) (s : State) : State :=
  if 256 ≤ s.recorder.clears.toNat then endWith ref stState s
  else match s.ident.otp.ownerClearKey, s.recorder.nonce with
    | some key, some (n, at_) =>
      if s.now < at_ + 60000000000 && clearToken key n.toNat s == token then
        clearBegin ref n.toNat token (setRecorder (fun r => { r with nonce := none }) s)
      else clearDenied ref s
    | _, _ => clearDenied ref s

/-- With no write in progress the next record that is due is written, then the next clear is judged (R550). -/
def recNext (s : State) : State :=
  if s.recorder.write.isSome then s
  else match s.recorder.waits, s.recorder.asked with
    | d :: ds, _ => recBegin d (setRecorder (fun r => { r with waits := ds }) s)
    | [], (ref, token) :: rest => clearAsked ref token (setRecorder (fun r => { r with asked := rest }) s)
    | [], [] => s

/-- Records due together: HOURLY and DEMAND make one record of KIND DEMAND (R550). -/
def joinDue (d : RecDue) : List RecDue → List RecDue
  | [] => [d]
  | x :: xs =>
    if (x.kind = 1 || x.kind = 7) && (d.kind = 1 || d.kind = 7) then
      { kind := max x.kind d.kind, cause := 0, refs := x.refs ++ d.refs } :: xs
    else x :: joinDue d xs

/-- A record is due (R543). -/
def recDue (kind cause : Nat) (refs : List Ref) (s : State) : State :=
  recNext (setRecorder (fun r => { r with waits := joinDue { kind := kind, cause := cause, refs := refs } r.waits }) s)

/-- A write has been verified (R541): TOTALS takes the record's content, and what was frozen is empty. -/
def recWritten (w : RecWrite) (s : State) : State :=
  let seq := s.recorder.seqNext.toNat
  let s := setRecorder (fun r => setOther .empty { r with
    totals := w.content, seqNext := r.seqNext + 1, newest := some w.slot, lastMinute := r.minutes.toNat, merged := false
    main := (w.slot, w.bytes) :: r.main.filter (fun x => x.1 != w.slot), write := none }) s
  let s := if w.due.kind = 8 then raise 0x9002 (natLE 4 seq ++ natLE 2 s.recorder.clears.toNat) s else s
  let s := w.due.refs.foldl (fun s r => finish r stDone 0 (if w.due.kind = 8 then 0 else seq) s) s
  recNext s

/-- The clear log has taken the CLEAR record (R549): everything is emptied, and a CLEAR record goes into the main ring. -/
def clearLogged (w : RecWrite) (s : State) : State :=
  let s := setRecorder (fun r => { r with
    totals := .empty, setA := .empty, setB := .empty, clears := r.clears + 1, since := r.minutes, seqNext := r.seqNext + 1
    clearLog := r.clearLog ++ [(w.slot, w.bytes)] }) s
  let w' : RecWrite :=
    { w with log := false, content := .empty, bytes := recordBytes 8 0 w.nonce w.token .empty s, slot := nextMain s.recorder, since := s.now
             fails := 0 }
  setRecorder (fun r => { r with write := some w' }) s

/-- REC_WRITE_DONE. -/
def recWriteDone (s : State) : State :=
  match s.recorder.write with
  | none => s
  | some w => if w.log then clearLogged w s else recWritten w s

def execRecWriteDone (t : Ns) (s : State) : Host.Outcome State Fault Refusal := .next (recWriteDone (passTo t s))

/-- The third retry has failed (R541): the frozen set is folded into the active one. -/
def recFailed (w : RecWrite) (s : State) : State :=
  let s := setRecorder (fun r =>
    let sum := mergeSets (otherSet r) (activeSet r)
    let r := setOther .empty r
    let r := if r.activeB then { r with setB := sum } else { r with setA := sum }
    { r with merged := true, writeFails := satInc r.writeFails, write := none }) s
  let s := raise 0x9001 (natLE 1 w.due.kind ++ natLE 1 4) s
  let s := if w.due.kind = 8 then raise 0x9002 (natLE 4 s.recorder.seqNext.toNat ++ natLE 2 s.recorder.clears.toNat) s else s
  recNext (w.due.refs.foldl (fun s r => endWith r (if w.due.kind = 8 then stDone else stAbFault) s) s)

/-- REC_WRITE_TIMEOUT: 20 ms without a verified write. The slot is bad and the next one is tried, three times; in the clear log the
clear has not happened (R541, R549). -/
def recWriteTimeout (s : State) : State :=
  match s.recorder.write with
  | none => s
  | some w =>
    if s.now < w.since + 20000000 then s
    else if w.log then
      recNext (w.due.refs.foldl (fun s r => endWith r stAbFault s) (setRecorder (fun r => { r with write := none }) s))
    else
      let s := setRecorder (fun r => { r with
        badSlots := satInc r.badSlots, main := r.main.filter fun x => x.1 != w.slot }) s
      if 3 ≤ w.fails then recFailed w s
      else setRecorder (fun r => { r with
        retries := satInc r.retries
        write := some { w with slot := (w.slot + 1) % 1792, since := s.now, fails := w.fails + 1 } }) s

def execRecWriteTimeout (t : Ns) (s : State) : Host.Outcome State Fault Refusal := .next (recWriteTimeout (passTo t s))

/-- A write in progress is broken off by a reset that keeps the accumulation sets: nothing sampled is lost. -/
def recBreak (s : State) : State :=
  match s.recorder.write with
  | none => s
  | some w =>
    setRecorder (fun r =>
      let r := { r with write := none, waits := [], asked := [] }
      if w.log then r
      else
        let sum := mergeSets (otherSet r) (activeSet r)
        let r := setOther .empty r
        if r.activeB then { r with setB := sum } else { r with setA := sum }) s

/-- The events of the minute whose codes lie in the range of a histogram (R538). -/
def minuteCount (s : State) (h : Nat) : Nat :=
  s.recorder.codes.countP fun c => decide (codeLo s h ≤ c) && decide (c ≤ codeLo s h + codeSpan s h)

/-- REC_MINUTE (R538, R542, R543): the minute's samples, then MINUTES, and an HOURLY record at every 60. In STANDBY only MINUTES
counts. -/
def recMinute (s : State) : State :=
  match s.power.state with
  | .standby => setRecorder (fun r => { r with minutes := r.minutes + 1 }) s
  | .on =>
    let s := (List.range 8).foldl (fun s k =>
      let n := minuteCount s (8 + k)
      recExtreme (16 + k) n 0 (histSample (8 + k) n s)) s
    let s := (List.range 32).foldl (fun s p =>
      let n := s.recorder.blockErr.getD p 0
      if n = 0 then s else recExtreme 31 n p s) s
    let s := setRecorder (fun r => { r with minutes := r.minutes + 1, codes := [], blockErr := List.replicate 32 0 }) s
    if s.recorder.minutes.toNat % 60 = 0 then recDue 1 0 [] s else s
  | _ => s

def execRecMinute (t : Ns) (s : State) : Host.Outcome State Fault Refusal := .next (recMinute (passTo t s))

/-- The SUPPLY record of a VIN_LOW, at most once per 10 minutes (R543). -/
def recSupply (s : State) : State :=
  let m := s.recorder.minutes.toNat
  if s.recorder.supplyAt.any fun t => decide (m < t + 10) then s
  else recDue 4 0 [] (setRecorder (fun r => { r with supplyAt := some m }) s)

/-! ### The start (R544) -/

/-- An extreme from its 12 bytes. -/
def readExt (bs : List Byte) : Option Extreme :=
  if bit (field bs 10 2) 0 then some { value := fieldS bs 0 4, minute := field bs 4 4, tag := field bs 8 2 } else none

/-- The histograms and extremes of a record. -/
def readContent (bs : List Byte) : RecSet :=
  { bins := (List.range 16).map fun h => (List.range 32).map fun i => field bs (64 + 128 * h + 4 * i) 4
    ext := (List.range 32).map fun k => readExt (bs.drop (2112 + 12 * k)) }

/-- The recorder of a POR, WAKE or PIN start takes up the record with the highest SEQ; the accumulation sets are lost. -/
def recRestart (r : Recorder) : Recorder :=
  let empty : Recorder := { Recorder.reset with
    clears := BitVec.ofNat 9 r.clearLog.length, badSlots := r.badSlots, main := r.main, clearLog := r.clearLog, cycles := r.cycles }
  match r.main with
  | [] => empty
  | (slot, bs) :: _ =>
    let log := ((r.clearLog.getLast?.map fun x => field x.2 8 4).getD 0)
    { empty with
      totals := readContent bs, minutes := BitVec.ofNat 32 (field bs 12 4), since := BitVec.ofNat 32 (field bs 20 4)
      seqNext := BitVec.ofNat 32 (max (field bs 8 4) log + 1), newest := some slot, lastMinute := field bs 12 4 }

/-! ### Reading (R546) -/

/-- The record in a slot of a region; none for an empty or bad one. LIVE is what would be written now, with KIND 0. -/
def recordAt (region slot : Nat) (s : State) : Option (List Byte) :=
  let r := s.recorder
  match region with
  | 0 => (r.main.find? fun x => x.1 = slot).map fun x => x.2
  | 1 => (r.clearLog.find? fun x => x.1 = slot).map fun x => x.2
  | _ => some (recordBytes 0 0 0 [] (mergeSets (mergeSets r.totals r.setA) r.setB) s)

/-- The window is loaded from the cursor. -/
def loadWindow (s : State) : State :=
  let r := s.recorder
  let w := match recordAt r.region.toNat r.slot.toNat s with
    | some bs => (bs.drop (256 * r.index.toNat)).take 256
    | none => List.replicate 256 0xFF
  setRecorder (fun r => { r with window := w, winReady := true }) s

/-- A write to GLOBAL_REC_CURSOR; one with a value out of range is discarded (R12). -/
def writeCursor (v : Word) (s : State) : State :=
  let region := bits v.toNat 0 2
  let slot := bits v.toNat 2 11
  let index := bits v.toNat 13 4
  if region = 3 || 9 < index || 1791 < slot || (region = 1 && 255 < slot) then s
  else loadWindow (setRecorder (fun r => { r with
    region := BitVec.ofNat 2 region, slot := BitVec.ofNat 11 slot, index := BitVec.ofNat 4 index, autoInc := v.getLsbD 17 }) s)

/-- REC_CURSOR_WRITE. -/
def execRecCursorWrite (value : Word) (s : State) : Host.Outcome State Fault Refusal := .next (atHost (writeCursor value) s)

/-- After a read of the window's last word with AUTO_INC the cursor moves on (R546). -/
def advanceCursor (s : State) : State :=
  let r := s.recorder
  if !r.autoInc then s
  else
    let slots := if r.region = 1 then 256 else 1792
    let last := r.index = 9
    loadWindow (setRecorder (fun r => { r with
      index := if last then 0 else r.index + 1
      slot := if last then BitVec.ofNat 11 ((r.slot.toNat + 1) % slots) else r.slot }) s)

/-- A read of WORD[i]. -/
def readWindow (i : Nat) (s : State) : Word × State :=
  let v := BitVec.ofNat 32 (field s.recorder.window (4 * i) 4)
  (v, if i = 63 then advanceCursor s else s)

/-- A host read of WORD[word]: its data goes to the host. -/
def windowRead (word : Nat) (s : State) : State :=
  if 64 ≤ word then s
  else let (v, s) := readWindow word s; { s with sent := .readData (0xA41000 + 4 * word) v :: s.sent }

/-- REC_WINDOW_READ. -/
def execRecWindowRead (word : Nat) (s : State) : Host.Outcome State Fault Refusal :=
  .next (atHost (windowRead word) s)

/-! ### Opcodes (R547 to R551) -/

/-- REC_RECORD_NOW. -/
def startRecRecordNow (r : Ref) (s : State) : State := recDue 7 0 [r] s

def execRecRecordNow (h : Hdr) (s : State) : Host.Outcome State Fault Refusal :=
  .next (postDescriptor (.recRecordNow h) h 0xA0 (startRecRecordNow h.ref) s)

/-- LOCKED: 8 failures since the start (R549). -/
def recLocked (s : State) : Bool := decide (8 ≤ s.recorder.authFail.toNat)

/-- REC_CHALLENGE: the NONCE is a free value (R548, log 1). -/
def startRecChallenge (r : Ref) (s : State) : State :=
  if recLocked s then endWith r stState s
  else
    let (n, s) := takeFree s
    let nonce := BitVec.ofNat 64 (Config.freeNat n)
    finish r stDone 0 nonce.toNat (setRecorder (fun x => { x with nonce := some (nonce, s.now) }) s)

def execRecChallenge (h : Hdr) (s : State) : Host.Outcome State Fault Refusal :=
  .next (postDescriptor (.recChallenge h) h 0xA1 (startRecChallenge h.ref) s)

/-- REC_CLEAR: it waits for the end of a write (R549, R550). -/
def startRecClear (r : Ref) (token : List Byte) (s : State) : State :=
  if jobExists s then endWith r stState s
  else recNext (setRecorder (fun x => { x with asked := x.asked ++ [(r, padTo 8 token)] }) s)

def execRecClear (h : Hdr) (token : List Byte) (s : State) : Host.Outcome State Fault Refusal :=
  .next (postDescriptor (.recClear h token) h 0xA2 (startRecClear h.ref token) s)

/-- REC_PROVISION (R547). -/
def startRecProvision (r : Ref) (addr : Nat) (s : State) : State :=
  if s.ident.otp.ownerClearKey.isSome || jobExists s then endWith r stState s
  else if !hostMem addr 64 s then endWith r stParam s
  else match poisonIn addr 64 s with
    | some w => endWith r stEcc (eccUe 32 w s)
    | none =>
      let bs := memRead addr 64 s
      if !allZero (bs.drop 48) then endWith r stParam s
      else
        let hash := (bs.drop 16).take 32
        let key := if allZero hash then none else some hash
        let s := { s with ident := { s.ident with otp := { s.ident.otp with ownerClearKey := some (bs.take 16), builderKeyHash := key } } }
        endWith r stDone (raise 0x9004 (natLE 1 (b1 key.isSome)) s)

def execRecProvision (h : Hdr) (addr : Nat) (s : State) : Host.Outcome State Fault Refusal :=
  .next (postDescriptor (.recProvision h addr) h 0xA3 (startRecProvision h.ref addr) s)

/-- NONCE_EXPIRE (R548). -/
def nonceExpire (s : State) : State :=
  if s.recorder.nonce.any fun x => decide (x.2 + 60000000000 ≤ s.now) then setRecorder (fun r => { r with nonce := none }) s else s

def execNonceExpire (t : Ns) (s : State) : Host.Outcome State Fault Refusal := .next (nonceExpire (passTo t s))

end Sys2Proof.Machine
end

