-- ==== Sys2Proof/Machine/Light.lean ====
section
/-! DEFINITION. Illumination: LED channels, diagnostic pulses, colour feedback and the matrix (R443 to R452, R454). -/

namespace Sys2Proof.Machine

/-! ### Channels (R443 to R445) -/

/-- MATRIX_EN. -/
def matrixOn (s : State) : Bool := cfgB s 0x862000 0

/-- PWM_PERIOD in ns. -/
def pwmPeriod (s : State) (c : Nat) : Nat := ledF s c 4 8 24

/-- T_DET in µs. -/
def tDet (s : State) (c : Nat) : Nat := ledF s c 0x0C 0 9

/-- The on-time of a period, rounded to 20 ns (R444). -/
def pwmOn (s : State) (c : Nat) : Nat := roundDivN (roundDivN (ledF s c 0x10 16 16 * pwmPeriod s c) 65536) 20 * 20

/-- STROBE of a channel. -/
def strobeOn (s : State) (c : Nat) : Bool := ledF s c 0 21 1 == 1

/-- The outputs of a channel may be on: no safe state, no latched fault, and resumed after the safe state (R446, R452). -/
def ledFree (s : State) (c : Nat) : Bool :=
  let l := ledOf s c
  !s.power.safe && !l.open_ && !l.short && l.resumed

/-- The applied current: I_SET, or I_SET × G rounded to 1 mA with colour feedback on (R444, R448). -/
def ledCurrent (s : State) (c : Nat) : Nat :=
  if ledF s c 0x14 0 1 = 1 then roundDivN (ledF s c 0x10 0 11 * (ledOf s c).gain.toNat) 32768 else ledF s c 0x10 0 11

/-- How long the normal pulses of a channel are: its duty, or for a strobe the window of its port (R444, R445); 0 while it is off. -/
def pulseNs (s : State) (c : Nat) : Nat :=
  if !ledFree s c || ledCurrent s c = 0 then 0
  else if strobeOn s c then 1000 * (setInForce s (ledF s c 0 22 3)).len
  else pwmOn s c

/-- The channel is on: a strobe inside a window, another one with a duty that is not 0. -/
def ledLit (s : State) (c : Nat) : Bool := pulseNs s c != 0 && (!strobeOn s c || (ledOf s c).lit)

/-- A channel whose safe state has ended and whose period starts goes on (R452). -/
def resumeLed (c : Nat) (s : State) : State :=
  if s.power.safe then setLed c (fun l => { l with resumed := false, lit := false }) s
  else setLed c (fun l => { l with resumed := true }) s

/-! ### Exposure windows -/

/-- A port is in an exposure window in [a, b], as far as the module knows it: windows fixed by triggers, TRIG_OUT schedules, capture
plans, and in mode 0 the frames that the last two FS foretell (R447). -/
def windowIn (s : State) (p : Nat) (a b : Ns) : Bool :=
  let x := setInForce s p
  let from_ := 1000 * x.start
  let over_ := fun lo hi : Nat => decide (lo < b) && decide (a < hi)
  let at_ := fun t : Ns => over_ (t + from_) (t + from_ + 1000 * x.len)
  (camOf s p).windows.any (fun w => over_ w.1 w.2) ||
  match camMode s p with
  | 0 =>
    (match (camOf s p).fsTimes with
      | f1 :: f0 :: _ =>
        let next := f1 + (f1 - f0)
        over_ (next - 1000 * x.len - 20000) (next + (camOf s p).readout)
      | _ => false) || (camOf s p).frame.isSome
  | 2 =>
    let o := unit s.time.trigOut (camF s p 0 17 4) .reset
    if !o.enable then false
    else if o.sched.period = 0 then at_ o.next
    else
      let lo := a - (from_ + 1000 * x.len)
      let k := if lo ≤ o.next then 0 else (lo - o.next + o.sched.period - 1) / o.sched.period
      let inCount := fun k => o.remaining = 0 || decide (k < o.remaining.toNat)
      (inCount k && at_ (o.next + k * o.sched.period)) || (inCount (k + 1) && at_ (o.next + (k + 1) * o.sched.period))
  | 4 =>
    (match s.isp.plan with
      | some plan => bit plan.mask p && (List.range plan.left).any fun k => at_ (plan.due + k * plan.period)
      | none => false)
  | _ => false

/-- A window of a port that the channel excludes meets [a, b]. -/
def exclIn (s : State) (c : Nat) (a b : Ns) : Bool := (bitsOf 8 (ledF s c 4 0 8)).any fun p => windowIn s p a b

/-! ### LED_SET, LED_PERIOD (R444, R448) -/

/-- A diagnostic pulse that is over has completed (R447). -/
def settleDiag (c : Nat) (s : State) : State :=
  match (ledOf s c).diag with
  | some (_, e) =>
    if e ≤ s.now then setLed c (fun l => { l with diag := none, diagDone := some e, starvedEpisode := false }) s else s
  | none => s

/-- LED_SETs that wait on no channel any more have been applied. -/
def settleLedSets (refs : List Ref) (s : State) : State :=
  refs.foldl (fun s r =>
    if s.light.leds.any fun l => l.changes.any fun x => x.ref = some r then s else endWith r stDone (bumpOverride 7 true s)) s

/-- LED_PERIOD: a period starts at a multiple of PWM_PERIOD. Settings whose launch has come apply, a gain that waits applies outside
the excluded windows, and the outputs resume. `iMeas` and `vMeas` are what the channel has measured. -/
def ledPeriod (c iMeas vMeas : Nat) (s : State) : State :=
  if 16 ≤ c || pwmPeriod s c = 0 || s.now % pwmPeriod s c != 0 then s
  else
    let s := settleDiag c s
    let due := (ledOf s c).changes.filter fun x => decide (x.launch ≤ s.now)
    let s := setLed c (fun l => { l with
      changes := l.changes.filter (fun x => !decide (x.launch ≤ s.now)), iMeas := BitVec.ofNat 16 iMeas, vMeas := BitVec.ofNat 16 vMeas }) s
    let s := due.foldl (fun s x =>
      setCfgF (0x860010 + 0x100 * c) 0 11 x.iSet (setCfgF (0x860010 + 0x100 * c) 16 16 x.duty s)) s
    let s := match (ledOf s c).gainNext with
      | some g => if exclIn s c s.now (s.now + 1) then s else setLed c (fun l => { l with gain := g, gainNext := none }) s
      | none => s
    let s := resumeLed c s
    let s := if 1000 * tDet s c ≤ pulseNs s c then setLed c (fun l => { l with diagDone := some s.now, starvedEpisode := false }) s else s
    settleLedSets (due.filterMap fun x => x.ref) s

def execLedPeriod (t : Ns) (channel iMeas vMeas : Nat) (s : State) : Host.Outcome State Fault Refusal :=
  .next (ledPeriod channel iMeas vMeas (passTo t s))

/-- What LED_SET must meet: no channel above its I_MAX. -/
def ledSetCheck (mask iSet : Nat) (s : State) : Nat :=
  if (bitsOf 16 mask).any fun c => decide (ledF s c 0 0 11 < iSet) then stParam else stDone

/-- LED_SET waits on its channels for a period start at or after tick `t`. -/
def applyLedSet (r : Option Ref) (mask iSet duty : Nat) (t : Ns) (s : State) : State :=
  let x : LedChange := { launch := t, iSet := iSet, duty := duty, ref := r }
  let s := (bitsOf 16 mask).foldl (fun s c => setLed c (fun l => { l with changes := l.changes ++ [x] }) s) s
  settleLedSets r.toList s

/-- LED_SET (R444). -/
def startLedSet (r : Ref) (mask iSet duty launch : Nat) (s : State) : State :=
  let st := ledSetCheck mask iSet s
  if st != stDone then endWith r st s
  else match lightLaunch launch s with
    | none => endWith r stState s
    | some t => applyLedSet (some r) mask iSet duty t s

def execLedSet (h : Hdr) (mask iSet duty launch : Nat) (s : State) : Host.Outcome State Fault Refusal :=
  .next (postDescriptor (.ledSet h mask iSet duty launch) h 0x66 (startLedSet h.ref mask iSet duty launch) s)

/-! ### The matrix (R449 to R451) -/

def setMatrix (f : Matrix → Matrix) (s : State) : State := { s with light := { s.light with matrix := f s.light.matrix } }

/-- ROW_US in ns and PRE_NS. -/
def rowNs (s : State) : Nat := 1000 * cfgF s 0x862004 0 10
def preNs (s : State) : Nat := cfgF s 0x862004 16 14

/-- ROWS. -/
def matrixRows (s : State) : Nat := cfgF s 0x862000 1 5

/-- How long column c runs in the slot of row r (R449): 0 for a segment that has latched open, and for a channel that is off. -/
def segmentNs (s : State) (r c : Nat) : Nat :=
  if s.light.matrix.segOpen.getLsbD (16 * r + c) || s.power.safe || (ledOf s c).short || !s.light.matrix.resumed then 0
  else s.light.matrix.frame.getD (16 * r + c) 0 * (rowNs s - preNs s) / 65536

/-- A sync (R450): the oldest queued frame comes into force, and the scan restarts at row 0. In the safe state frames stay
queued (R452). -/
def matrixSync (s : State) : State :=
  if !matrixOn s || s.power.safe then s
  else
    match s.light.matrix.queue with
    | (f, r, ctx) :: rest =>
      finishIn ctx r stDone 0 0 (setMatrix (fun m => { m with frame := f, queue := rest, row := 0, slotAt := s.now, resumed := true }) s)
    | [] => setMatrix (fun m => { m with row := 0, slotAt := s.now, resumed := true, syncEmpty := satInc m.syncEmpty }) s

/-- MATRIX_SYNC: a rising edge on LED_SYNC_IN. -/
def execMatrixSync (t : Ns) (s : State) : Host.Outcome State Fault Refusal :=
  .next (let s := passTo t s; if cfgF s 0x862000 6 2 = 1 then matrixSync s else s)

/-- MATRIX_SLOT: the row slot has lasted ROW_US, and the next begins; the end of a scan is a sync with SYNC_SRC 0. -/
def matrixSlot (s : State) : State :=
  let m := s.light.matrix
  if !matrixOn s || s.now < m.slotAt + rowNs s then s
  else
    let s := if s.power.safe then setMatrix (fun m => { m with resumed := false }) s else s
    if m.row + 1 < matrixRows s then setMatrix (fun m => { m with row := m.row + 1, slotAt := s.now }) s
    else if cfgF s 0x862000 6 2 = 0 && !s.power.safe then matrixSync s
    else setMatrix (fun m => { m with row := 0, slotAt := s.now }) s

def execMatrixSlot (t : Ns) (s : State) : Host.Outcome State Fault Refusal := .next (matrixSlot (passTo t s))

/-- The contexts 292 to 295 that no queued frame has. -/
def matrixCtx (s : State) : Nat :=
  ([292, 293, 294, 295].find? fun c => !(s.light.matrix.queue.any fun q => q.2.2 = c)).getD 292

/-- LED_MATRIX_WRITE (R450). -/
def startLedMatrixWrite (r : Ref) (addr : Nat) (s : State) : State :=
  if !matrixOn s then endWith r stState s
  else if 4 ≤ s.light.matrix.queue.length then endWith r stBusy s
  else if !hostMem addr 512 s then endWith r stParam s
  else match poisonIn addr 512 s with
    | some w => endWith r stEcc (eccUe 32 w s)
    | none =>
      let f := (List.range 256).map fun i => memNat (addr + 2 * i) 2 s
      setMatrix (fun m => { m with queue := m.queue ++ [(f, r, matrixCtx s)] }) s

def execLedMatrixWrite (h : Hdr) (addr : Nat) (s : State) : Host.Outcome State Fault Refusal :=
  .next (postDescriptor (.ledMatrixWrite h addr) h 0x67 (startLedMatrixWrite h.ref addr) s)

/-! ### Faults and diagnostic pulses (R446, R447, R451) -/

/-- The length of a diagnostic pulse: T_DET + 10 µs. -/
def diagNs (s : State) (c : Nat) : Nat := 1000 * (tDet s c + 10)

/-- A pulse of the channel is long enough to check it: a normal one or the diagnostic one. -/
def checksNow (s : State) (c : Nat) : Bool :=
  !s.power.safe && ((ledLit s c && decide (1000 * tDet s c ≤ pulseNs s c)) || (ledOf s c).diag.isSome)

/-- LED_FAULT_DETECT: the condition has held T_DET. In matrix mode `row` names the slot. -/
def ledFault (c : Nat) (short : Bool) (row : Nat) (s : State) : State :=
  if 16 ≤ c then s
  else if matrixOn s then
    if segmentNs s row c = 0 || segmentNs s row c < 1000 * tDet s c || 16 ≤ row then s
    else if short then
      (if (ledOf s c).short then s else raise 0x7011 (natLE 1 c) (setLed c (fun l => { l with short := true }) s))
    else raise 0x7013 (natLE 1 row ++ natLE 1 c)
      (setMatrix (fun m => { m with segOpen := m.segOpen ||| BitVec.ofNat 256 (2 ^ (16 * row + c)) }) s)
  else if !checksNow s c || (ledOf s c).open_ || (ledOf s c).short then s
  else
    let s := setLed c (fun l => { l with open_ := !short, short := short, lit := false, diag := none }) s
    raise (if short then 0x7011 else 0x7010) (natLE 1 c) s

def execLedFaultDetect (t : Ns) (channel : Nat) (short : Bool) (row : Nat) (s : State) : Host.Outcome State Fault Refusal :=
  .next (ledFault channel short row (passTo t s))

/-- LED_FAULT_CLEAR (R446, R451). -/
def startLedFaultClear (r : Ref) (mask : Nat) (segments : Bool) (s : State) : State :=
  let s := (bitsOf 16 mask).foldl (fun s c => setLed c (fun l => { l with open_ := false, short := false }) s) s
  endWith r stDone (if segments then setMatrix (fun m => { m with segOpen := 0 }) s else s)

def execLedFaultClear (h : Hdr) (mask : Nat) (segments : Bool) (s : State) : Host.Outcome State Fault Refusal :=
  .next (postDescriptor (.ledFaultClear h mask segments) h 0x68 (startLedFaultClear h.ref mask segments) s)

/-- DIAG_PERIOD in ns. -/
def diagPeriod (s : State) (c : Nat) : Nat := 10000000 * ledF s c 0x0C 19 13

/-- A channel that has completed no diagnostic pulse within 4 × DIAG_PERIOD (R447). -/
def diagStarved (c : Nat) (s : State) : State :=
  match (ledOf s c).diagDone with
  | none => setLed c (fun l => { l with diagDone := some s.now }) s
  | some d =>
    if d + 4 * diagPeriod s c < s.now && !(ledOf s c).starvedEpisode then
      raise 0x7012 (natLE 1 c) (setLed c (fun l => { l with diagStarved := satInc l.diagStarved, starvedEpisode := true }) s)
    else s

/-- DIAG_PULSE: once per DIAG_PERIOD a channel that its own pulses do not check gets a pulse, unless an excluded window is near
(R447). -/
def diagPulse (c : Nat) (s : State) : State :=
  if 16 ≤ c || matrixOn s then s
  else
    let s := settleDiag c s
    let l := ledOf s c
    if 1000 * tDet s c ≤ pulseNs s c || s.power.safe || l.open_ || l.short || l.diag.isSome then s
    else
      let s := diagStarved c s
      let due := match l.diagLast with | some t => decide (t + diagPeriod s c ≤ s.now) | none => true
      if !due || exclIn s c (s.now - 20000) (s.now + diagNs s c + 20000) then s
      else setLed c (fun l => { l with diag := some (s.now, s.now + diagNs s c), diagLast := some s.now }) s

def execDiagPulse (t : Ns) (channel : Nat) (s : State) : Host.Outcome State Fault Refusal := .next (diagPulse channel (passTo t s))

/-! ### Colour feedback (R448) -/

/-- COLOR_TARGET. -/
def startColorTarget (r : Ref) (channel target : Nat) (s : State) : State :=
  if 16 ≤ channel then endWith r stParam s
  else endWith r stDone (bumpOverride 7 true (setCfgF (0x860014 + 0x100 * channel) 16 16 target s))

def execColorTarget (h : Hdr) (channel target : Nat) (s : State) : Host.Outcome State Fault Refusal :=
  .next (postDescriptor (.colorTarget h channel target) h 0x69 (startColorTarget h.ref channel target) s)

/-- A value that a sensor has sent, in the byte order of its BIG_ENDIAN. -/
def colourValue (sensor index : Nat) (bs : List Byte) : Nat :=
  if Config.colourBigEndian sensor then 256 * field bs (2 * index) 1 + field bs (2 * index + 1) 1 else field bs (2 * index) 2

/-- The new gain of a channel in units of 2⁻¹⁶ before the clamp; with a TARGET of 0 it is a free value (log 1). -/
def gainRaw (c m : Nat) (s : State) : Int × Nat × State :=
  let g := match (ledOf s c).gainNext with | some g => g.toNat | none => (ledOf s c).gain.toNat
  let target := ledF s c 0x14 16 16
  if target = 0 then
    let (n, s) := takeFree s
    (Config.freeInt n, 1, s)
  else (2 * g * target + ledF s c 0x18 0 16 * ((target : Int) - m), target, s)

/-- The gain of a channel after a read of `m`. -/
def updateGain (c m : Nat) (s : State) : State :=
  let (num, den, s) := gainRaw c m s
  let lim : Int := ledF s c 0x18 16 16
  let lo := (65536 - lim) * den
  let hi := (65536 + lim) * den
  let n := clampI lo hi num
  let g := min 65535 (roundDiv n (2 * den)).toNat
  let limited := decide (num < lo) || decide (hi < num)
  let first := limited && !(ledOf s c).limitEpisode
  let s := setLed c (fun l => { l with gainNext := some (BitVec.ofNat 16 g), limitEpisode := limited }) s
  if first then raise 0x7014 (natLE 1 c ++ natLE 2 g) s else s

/-- COLOR_READ: what the four sensors have sent, 6 bytes each, or nothing where the read has failed. -/
def colorRead (reads : List (List Byte)) (s : State) : State :=
  if matrixOn s then s
  else
    (List.range 4).foldl (fun s k =>
      let bs := reads.getD k []
      if bs.length != 6 then
        let n := s.light.sensorFails.getD k 0 + 1
        let s := { s with light := { s.light with sensorFails := s.light.sensorFails.set k n } }
        if n = 3 then raise 0x7015 (natLE 1 k) s else s
      else
        let s := { s with light := { s.light with sensorFails := s.light.sensorFails.set k 0 } }
        (List.range 16).foldl (fun s c =>
          let index := ledF s c 0x14 3 2
          if ledF s c 0x14 0 1 = 1 && ledF s c 0x14 1 2 = k && decide (index < 3) && ledLit s c then
            updateGain c (colourValue k index bs) s
          else s) s) s

def execColorRead (t : Ns) (reads : List (List Byte)) (s : State) : Host.Outcome State Fault Refusal :=
  .next (colorRead reads (passTo t s))

/-! ### EXPOSURE_WINDOW_EDGE (R432, R445, R450) -/

/-- A port is in an exposure window now. In mode 0 the window begins before the FS that the last two foretell, and ends with the
frame. -/
def inWindowNow (s : State) (p : Nat) : Bool :=
  if camMode s p = 0 then windowIn s p s.now (s.now + 1)
  else (camOf s p).windows.any fun w => decide (w.1 ≤ s.now) && decide (s.now < w.2)

/-- A window starts or ends: the channels with STROBE on the port switch, its start is the camera strobe that can sync the matrix,
and the pulse on XTRIG ends with its width. -/
def windowEdge (p : Nat) (s : State) : State :=
  let s := match (camOf s p).xtrig with
    | some e =>
      if e ≤ s.now then
        setCam p (fun c => { c with xtrig := none }) { s with sent := .edge 3 p false e 0 :: s.sent }
      else s
    | none => s
  let on := inWindowNow s p
  if (camOf s p).inWindow = on then s
  else
    let s := setCam p (fun c => { c with
      inWindow := on, windows := c.windows.filter fun w => decide (s.now < w.2) }) s
    let s := (List.range 16).foldl (fun s c =>
      if strobeOn s c && ledF s c 0 22 3 = p then setLed c (fun l => { l with lit := on && !s.power.safe }) s else s) s
    if on && cfgF s 0x862000 6 2 = 2 && cfgF s 0x862000 8 3 = p then matrixSync s else s

def execExposureWindowEdge (t : Ns) (port : Nat) (s : State) : Host.Outcome State Fault Refusal :=
  .next (windowEdge port (camSettle (passTo t s)))

end Sys2Proof.Machine
end

