-- ==== Sys2Proof/Machine/LinkOps.lean ====
section
/-! DEFINITION. What Spring Link commands share: service requests (R266, R267), the loss of nodes (R275), enumeration
(R272, R273, R276) and delay measurement (R263 to R265). -/

namespace Sys2Proof.Machine

def setLink (f : Link → Link) (s : State) : State := { s with link := f s.link }

/-- The node at a hop of a port; hops count from 1. -/
def nodeOf (s : State) (p h : Nat) : Node := if h = 0 then .reset else unit (portOf s p).nodes (h - 1) .reset

def setNode (p h : Nat) (f : Node → Node) (s : State) : State :=
  setPort p (fun q => { q with nodes := modUnit q.nodes (h - 1) f }) s

/-- A port is in use: UP or HI_BER. -/
def linkUp (s : State) (p : Nat) : Bool := (portOf s p).link == 2 || (portOf s p).link == 3

/-- Addressed nodes of a port. -/
def nodeCount (s : State) (p : Nat) : Nat := (portOf s p).nodes.countP fun n => n.present

/-- The global node identifier (R18). -/
def globalNode (s : State) (p h : Nat) : Nat := s.ident.moduleId.toNat * 512 + p * 16 + (h - 1)

/-- The port and hop of a global node identifier, where its node is present (R278). -/
def nodeAt (s : State) (id : Nat) : Option (Nat × Nat) :=
  let p := bits id 4 5
  let h := bits id 0 4 + 1
  if id / 512 = s.ident.moduleId.toNat && p < s.variant.ports && (nodeOf s p h).present then some (p, h) else none

/-! ### Service requests -/

/-- The bytes of a service frame (R266). -/
def svcFrame (dst src type flags seq : Nat) (payload : List Byte) : List Byte :=
  let b := natLE 1 dst ++ natLE 1 src ++ natLE 1 type ++ natLE 1 flags ++ natLE 2 payload.length ++ natLE 2 seq ++ payload
  b ++ natLE 4 (crc32 b)

/-- A service frame leaves, in the service units of the port's next cycles. -/
def sendFrame (p hop : Nat) (frame : List Byte) (s : State) : State :=
  let s := queueService p hop frame s
  { s with sent := .service p hop frame :: s.sent }

/-- A request goes to a hop of a port, or to 0x1E (R267). -/
def sendReq (p hop type : Nat) (payload : List Byte) (ref : Option Ref) (addr : Nat) (s : State) : State :=
  let q := s.link.seq.toNat
  let r : SvcReq := { port := p, hop := hop, seq := q, type := type, payload := payload, sent := s.now, retried := false,
                      ref := ref, addr := addr }
  let s := setLink (fun l => { l with reqs := l.reqs ++ [r], seq := l.seq + 1 }) s
  sendFrame p hop (svcFrame hop 0 type 0 q payload) s

/-- A request is taken out. -/
def dropReq (r : SvcReq) (s : State) : State := setLink (fun l => { l with reqs := l.reqs.filter fun x => x != r }) s

/-! ### Loss (R275) -/

/-- Requests to a node end with ABORTED_FAULT (R277). -/
def abortReqs (p h : Nat) (s : State) : State :=
  (s.link.reqs.filter fun r => r.port = p && r.hop = h).foldl (fun s r =>
    match r.ref with | some f => endWith f stAbFault (dropReq r s) | none => dropReq r s) s

/-- The lanes of a node's beams. -/
def nodeLanes (s : State) (p h : Nat) : List Nat :=
  (allLanes s).filter fun l => (laneRec s l).mapped && (laneRec s l).port = p && (laneRec s l).hop = h

/-- The code and cause with which lanes fault as their node is lost: NODE_LOST, or LANE with BLOCK_RESET where a BLOCK reset of
the port (cause 6) takes it (R136, R277). -/
def lossCode (cause : Nat) : Nat × Nat := if cause = 6 then (fcLane, 7) else (fcNodeLost, 0)

/-- One node is lost: its lanes fault, or go to OFF outside a job (R70, R96). -/
def loseOne (p cause : Nat) (s : State) (h : Nat) : State :=
  if !(nodeOf s p h).present then s
  else
    let ls := nodeLanes s p h
    let s := if jobExists s then
        faultAll 512 (ls.map fun l => (l, (lossCode cause).1, (lossCode cause).2, (none : Option Nat))) s
      else ls.foldl (fun s l => setLane l (fun x => { x with state := .off, centreAt := none }) s) s
    -- no sample comes any more for records that wait for their last ones
    let s := ls.foldl (fun s l => closeTail l s) s
    let s := setNode p h (fun n => { n with present := false, lost := jobExists s, measured := [] }) s
    let s := setPort p (fun q => { q with nodeLosses := satInc q.nodeLosses }) s
    raise 0x4005 (natLE 1 p ++ natLE 1 h ++ natLE 1 cause) (abortReqs p h s)

/-- An enumeration has ended: what was asked of a node not yet addressed goes, and SPL_RESCANs that waited for this port alone
complete. -/
def endEnum (p : Nat) (s : State) : State :=
  let s := setPort p (fun q => { q with enumHop := 0, enumPhase := .idle, enumDone := true }) s
  let s := setLink (fun l => { l with
    reqs := l.reqs.filter fun r => r.port != p || r.hop != 0x1E, rescans := l.rescans.map fun r => (r.1, r.2.filter fun x => x != p) }) s
  let done := s.link.rescans.filter fun r => r.2.isEmpty
  done.foldl (fun s r => endWith r.1 stDone s) (setLink (fun l => { l with rescans := l.rescans.filter fun r => !r.2.isEmpty }) s)

/-- A node is lost, and every node beyond it with it; an enumeration that had come as far ends. -/
def loseFrom (p h cause : Nat) (s : State) : State :=
  let s := ((List.range 16).map fun i => i + 1).foldl (fun s k => if h ≤ k then loseOne p cause s k else s) s
  let at_ := (portOf s p).enumHop
  if at_ != 0 && decide (h ≤ at_) then endEnum p s else s

/-! ### Loads (R254, R259) -/

/-- Upstream blocks in a cycle (R258, R259): FB and NODE units, and the service units allowed. -/
def upLoad (nodes : List Node) (c : Nat) : Nat × Nat :=
  nodes.foldl (fun (a : Nat × Nat) n =>
    if !n.present then a
    else
      let own := if n.ident.beams = 0 then (if c % 8 = n.phase % 8 then 2 else 0) else 2 * n.ident.beams
      let svc := if n.div != 0 && c % n.div = n.phase % n.div then n.quota else 0
      (a.1 + own, a.2 + svc)) (0, 0)

/-- The largest total of a cycle. -/
def upMax (nodes : List Node) : Nat :=
  (List.range 16).foldl (fun m c => let l := upLoad nodes c; max m (l.1 + 2 * l.2)) 0

/-- The slot of a new node's service units (R259): one unit, in every cycle where the load allows it, or else in one of
2, 4, 8 or 16; none where the load allows none (log 37). -/
def pickSlot (nodes : List Node) (n : Node) (h : Nat) : Option (Nat × Nat) :=
  let tries := [1, 2, 4, 8, 16].flatMap fun d => (List.range d).map fun k => (d, (h - 1 + k) % d)
  tries.find? fun t => decide (upMax ((nodes.set (h - 1) { n with present := true, quota := 1, div := t.1, phase := t.2 })) ≤ 44)

/-- The nodes of a port with one service unit in 16 cycles for each, at the phase of its hop (R259, R273). -/
def spreadNodes (nodes : List Node) : List Node :=
  nodes.zipIdx.map fun x => if x.1.present then { x.1 with quota := 1, div := 16, phase := x.2 } else x.1

/-! ### Enumeration (R272, R273, R276) -/

/-- The module may ask for a node beyond the last one of a port now (R276): no job exists, or it is outside EXPOSE and ARM. -/
def mayEnumerate (s : State) (p h : Nat) : Bool :=
  s.boot.alive && linkUp s p && h ≤ 16 && (!jobExists s || !([2, 8].contains (jobState s)))

/-- The next hop is asked for (R272), or the enumeration ends. -/
def discoverNext (p : Nat) (s : State) : State :=
  let h := nodeCount s p + 1
  if mayEnumerate s p h then
    sendReq p 0x1E 0x01 [] none 0 (setPort p (fun q => { q with enumHop := h, enumPhase := .discover, enumDone := false }) s)
  else endEnum p s

/-- ENUMERATION: a port that is not at it already begins with its next hop. -/
def enumeration (p : Nat) (s : State) : State :=
  if s.variant.ports ≤ p || (portOf s p).enumPhase != .idle || !mayEnumerate s p (nodeCount s p + 1) then s
  else discoverNext p s

/-- The IDENT payload (R268). -/
def readIdent (b : List Byte) : NodeIdent :=
  { cls := field b 0 1, beams := field b 1 1, vendor := field b 2 4, product := field b 6 4, serial := field b 10 8
    hwRev := field b 18 2, fwRev := field b 20 2, fwdDn := field b 22 2, fwdUp := field b 24 2, turn := field b 26 2
    pending := field b 28 2, points := field b 30 2 }

/-- An IDENT agrees with the profile's NODE record (R369). -/
def matchesRec (s : State) (p h : Nat) (i : NodeIdent) : Bool :=
  match s.prof.nodes.find? fun n => n.1 = 16 * p + h - 1 with
  | none => true
  | some (_, r) => i.cls = r.cls && i.beams = r.beams && (r.vendor = 0 || i.vendor = r.vendor)
      && (r.product = 0 || i.product = r.product) && (!r.matchSerial || i.serial = r.serial)

/-- A node is rejected and the enumeration of its port stops there (R273, R276). -/
def rejectNode (p h reason : Nat) (s : State) : State := endEnum p (raise 0x400A (natLE 1 p ++ natLE 1 h ++ natLE 1 reason) s)

/-- The payload of ADDR_SET with one service unit (R268). -/
def addrSet (h base div phase : Nat) : List Byte :=
  natLE 1 h ++ natLE 1 base ++ natLE 1 1 ++ natLE 1 div ++ natLE 1 phase

/-- An addressed node takes another slot for its service units. -/
def assignSlot (p h div phase : Nat) (s : State) : State :=
  if !(nodeOf s p h).present then s
  else
    sendReq p h 0x03 (addrSet h (nodeOf s p h).slotBase div phase) none 0
      (setNode p h (fun n => { n with quota := 1, div := div, phase := phase }) s)

/-- A node has answered DISCOVER (R272, R273, R276): it is rejected, or it is given its address. Reasons: 1 CLASS, 2 the NODE record,
3 a node that may not be addressed during the job (log 36). -/
def identified (p : Nat) (i : NodeIdent) (s : State) : State :=
  let h := (portOf s p).enumHop
  let old := nodeOf s p h
  let q := portOf s p
  let same := i.vendor = old.ident.vendor && i.product = old.ident.product && i.serial = old.ident.serial
  let base := portBeams s p
  let n : Node := { Node.reset with fbMissing := old.fbMissing, readMissing := old.readMissing, spLost := old.spLost }
  let n : Node := { n with ident := i, slotBase := base, lost := old.lost }
  let spread := spreadNodes (q.nodes.set (h - 1) { n with present := true })
  if 2 < i.cls then rejectNode p h 1 s
  else if !matchesRec s p h i then rejectNode p h 2 s
  else if jobExists s && (s.jobs.line || !old.lost || !same) then rejectNode p h 3 s
  else if 16 < base + i.beams || 4 < i.beams || 44 < upMax spread then endEnum p (raise 0x4007 (natLE 1 p ++ natLE 1 h) s)
  else
    let pick := pickSlot q.nodes n h
    -- no room is left: the nodes before it give up units
    let s := if pick.isSome then s else (List.range (h - 1)).foldl (fun s k => assignSlot p (k + 1) 16 k s) s
    let slot := pick.getD (16, h - 1)
    let s := setNode p h (fun _ => { n with quota := 1, div := slot.1, phase := slot.2 }) s
    sendReq p 0x1E 0x03 (addrSet h base slot.1 slot.2) none 0 (setPort p (fun q => { q with enumPhase := .address }) s)

/-- 64 MEASURE blocks go to a node (R263). -/
def startMeasure (p h : Nat) (s : State) : State :=
  let s := setNode p h (fun n => { n with measured := [] }) s
  let s := putLine p ((List.range 64).map fun i => measureBlock h i) s
  { s with sent := .measure p h :: s.sent }

/-- D_h and c_h in 1/16 ns (R263). -/
def delaysOf (s : State) (p h rtt : Nat) : Nat × Int :=
  let n := nodeOf s p h
  let before := (List.range (h - 1)).map fun i => nodeOf s p (i + 1)
  let sum : Int := before.foldl (fun a m => a + ((m.ident.fwdDn : Int) - m.ident.fwdUp)) 0
  let prev := match before.getLast? with | some m => (m.rttMin.toNat, m.ident) | none => (0, NodeIdent.none)
  let d := roundDiv ((rtt : Int) - n.ident.turn + sum) 2
  let c := roundDiv ((rtt : Int) - prev.1 - prev.2.fwdDn - prev.2.fwdUp - n.ident.turn + prev.2.turn) 2
  (d.toNat, c)

/-- DELAY_SET is sent to a node (R264). -/
def sendDelay (p h : Nat) (s : State) : State :=
  let d := (nodeOf s p h).delay.toNat
  sendReq p h 0x04 (natLE 4 d) none 0 (setNode p h (fun n => { n with delaySet := d }) s)

/-- A node's parameters are fetched (R272): the objects of its beams, its point table, or SRC_BEAMS written to it. -/
def fetchObjects (p h : Nat) (s : State) : State :=
  let n := nodeOf s p h
  let read := fun idx count (s : State) => sendReq p h 0x06 (natLE 2 idx ++ natLE 2 0 ++ natLE 2 count) none 0 s
  if n.ident.cls = 0 then (List.range n.ident.beams).foldl (fun s b => read (0x10 + b) 5 s) s
  else if n.ident.cls = 2 then read 0x0100 500 (sendReq p h 0x06 (natLE 2 0x0100 ++ natLE 2 500 ++ natLE 2 500) none 0
    (sendReq p h 0x06 (natLE 2 0x0100 ++ natLE 2 1000 ++ natLE 2 24) none 0 s))
  else
    match s.prof.nodes.find? fun x => x.1 = 16 * p + h - 1 with
    | some (_, r) => sendReq p h 0x07 (natLE 2 0x20 ++ natLE 2 0 ++ natLE 2 16
        ++ padTo 16 ((r.srcBeams.take r.srcCount).map fun x => BitVec.ofNat 8 x)) none 0 s
    | none => s

/-- A hop is enumerated: NODE_STATUS has been read. Its node is present, lanes of its beams leave OFF, and the next hop
follows where DOWN_LINK is set (R272). -/
def nodeFound (p h : Nat) (status : Nat) (s : State) : State :=
  let back := (nodeOf s p h).lost
  let s := setNode p h (fun n => { n with
    present := true, lost := false, status := BitVec.ofNat 32 status, lastUnit := s.now
    killLong := decide (11024 < n.delay.toNat) }) s
  let n := nodeOf s p h
  let s := raise 0x4004 (natLE 1 p ++ natLE 1 h ++ natLE 1 n.ident.cls ++ natLE 1 n.ident.beams ++ natLE 1 (b1 back)) s
  let s := if n.killLong then raise 0x4008 (natLE 1 p ++ natLE 1 h ++ natLE 4 n.delay.toNat) s else s
  let s := (nodeLanes s p h).foldl (fun s l => laneToIdle l s) s
  let s := if s.boot.startCalDone then calNodeFound (nodeLanes s p h) s else s
  let s := fetchObjects p h s
  let done := s.link.nodeResets.filter fun r => r.2 = (p, h)
  let s := done.foldl (fun s r => endWith r.1 stDone s)
    (setLink (fun l => { l with nodeResets := l.nodeResets.filter fun r => r.2 != (p, h) }) s)
  if bit status 1 then discoverNext p s else endEnum p s

/-- 64 echoes of a node have come: its delay and cable follow from the smallest round trip (R263, R265). -/
def measured (p h : Nat) (s : State) : State :=
  let n := nodeOf s p h
  let rtt := n.measured.foldl min (n.measured.headD 0)
  let (d, c) := delaysOf s p h rtt
  let cable := (c % 4294967296).toNat
  let enum := (portOf s p).enumHop = h && (portOf s p).enumPhase == .measure
  let s := setNode p h (fun n => { n with
    measured := [], rttMin := BitVec.ofNat 32 rtt, delay := BitVec.ofNat 32 d, cable := BitVec.ofNat 32 cable
    cable0 := if enum then BitVec.ofNat 32 cable else n.cable0 }) s
  if enum then sendDelay p h (setPort p (fun q => { q with enumPhase := .delay }) s)
  else
    let far := fun x : BitVec 32 => decide (32 < (x.toInt - n.cable0.toInt).natAbs)
    let s := if far (BitVec.ofNat 32 cable) && !far n.cable then
        raise 0x4009 (natLE 1 p ++ natLE 1 h ++ natLE 4 n.cable0.toNat ++ natLE 4 cable) s else s
    if 4 ≤ ((d : Int) - n.delaySet).natAbs then sendDelay p h s else s

/-! ### The IO ring (R279) -/

/-- One input event goes into the IO ring, or is counted and dropped while none is set. -/
def putIo (p h point : Nat) (value time : Nat) (s : State) : State :=
  let id := globalNode s p h
  if s.link.ringSet then
    let k := s.link.ringNext
    let kind := (nodeOf s p h).kinds.getD point 0
    let recd := natLE 4 id ++ natLE 1 point ++ natLE 1 kind ++ natLE 2 0 ++ natLE 8 time ++ natLE 4 value
      ++ natLE 4 s.link.ringSeq.toNat ++ natLE 8 0
    let s := memWrite 34 (s.link.ringBase.toNat + 32 * k) recd s
    setLink (fun l => { l with ringNext := (k + 1) % l.ringSize, ringSeq := l.ringSeq + 1 }) s
  else
    let first := !s.link.ioEpisode
    let s := setLink (fun l => { l with ioDropped := l.ioDropped + 1, ioEpisode := true }) s
    if first then raise 0x400B (natLE 4 id) s else s

end Sys2Proof.Machine
end

