-- ==== Sys2Proof/Machine/LinkCmds.lean ====
section
/-! DEFINITION. Spring Link: what arrives at a port, what time brings about there, and the opcodes (R255 to R279). -/

namespace Sys2Proof.Machine

/-! ### NODE units (R256) -/

/-- A node's status as it comes: a change of FAULT raises NODE_FAULT (R281). -/
def nodeStatus (p h status : Nat) (s : State) : State :=
  let was := bit (nodeOf s p h).status.toNat 0
  let s := setNode p h (fun n => { n with status := BitVec.ofNat 32 status }) s
  if was != bit status 0 then raise 0x4006 (natLE 1 p ++ natLE 1 h ++ natLE 4 status) s else s

/-- NODE_UNIT_RECEIVE (R256): a heartbeat unit whose CRC-8 fails is discarded. -/
def nodeUnit (p src cycle crc status inputs : Nat) (s : State) : State :=
  let h := src % 16 + 1
  let bytes := natLE 1 0xB4 ++ natLE 1 src ++ natLE 1 cycle ++ natLE 4 status ++ natLE 8 inputs
  let n := nodeOf s p h
  if s.variant.ports ≤ p || !n.present || n.ident.beams != 0 || crc != crc8 bytes then s
  else
    let iox := n.ident.cls = 2
    nodeStatus p h status (setNode p h (fun n => { n with
      lastUnit := s.now, inputs := if iox then BitVec.ofNat 64 inputs else n.inputs }) s)

def execNodeUnitReceive (t : Ns) (port src cycle crc status inputs : Nat) (s : State) : Host.Outcome State Fault Refusal :=
  .next (nodeUnit port src cycle crc status inputs (passTo t s))

/-! ### Service frames (R266 to R269) -/

/-- What an answer to the module's own OBJ_READ of a node brings (R268). -/
def objectRead (p h index offset : Nat) (d : List Byte) (s : State) : State :=
  if 0x10 ≤ index && index < 0x14 then
    let b := index - 0x10
    let put := fun (xs : List Nat) v => (xs ++ List.replicate (b + 1 - xs.length) 0).set b v
    setNode p h (fun n => { n with rated := put n.rated (field d 0 4), sensors := put n.sensors (field d 4 1) }) s
  else if index = 0x100 then
    let ks := (List.range (d.length / 4)).map fun i => field d (4 * i) 1
    let base := offset / 4
    setNode p h (fun n => { n with kinds := (List.range 256).map fun i =>
      if base ≤ i && i < base + ks.length then ks.getD (i - base) 0 else n.kinds.getD i 0 }) s
  else s

/-- An answer to a request of a descriptor: the data it asked for is stored, and it completes with the node's status (R278). -/
def answerHost (q : SvcReq) (r : Ref) (st : Nat) (d : List Byte) (s : State) : State :=
  if st = 0 && (q.type = 6 || q.type = 0x0B) then
    let n := if q.type = 6 then field q.payload 4 2 else 4 * field q.payload 1 1
    endWith r st (memWrite 34 q.addr (padTo n d) s)
  else if st = 0 && q.type = 5 then
    loseFrom q.port q.hop 5 (setLink (fun l => { l with nodeResets := l.nodeResets ++ [(r, q.port, q.hop)] }) s)
  else endWith r st s

/-- An answer has come to a request of the module (R267, R272). -/
def answered (q : SvcReq) (pl : List Byte) (s : State) : State :=
  let s := dropReq q s
  let st := field pl 0 1
  let d := pl.drop 1
  let p := q.port
  let x := portOf s p
  match q.ref with
  | some r => answerHost q r st d s
  | none =>
    if q.type = 1 && x.enumPhase == .discover then (if st = 0 then identified p (readIdent d) s else endEnum p s)
    else if q.type = 3 && x.enumPhase == .address && q.hop = 0x1E then
      if st = 0 then startMeasure p x.enumHop (setPort p (fun y => { y with enumPhase := .measure }) s) else endEnum p s
    else if st != 0 && (q.type = 4 && x.enumPhase == .delay || q.type = 6 && x.enumPhase == .status) && q.hop = x.enumHop then endEnum p s
    else if q.type = 4 && x.enumPhase == .delay && q.hop = x.enumHop then
      sendReq p q.hop 6 (natLE 2 1 ++ natLE 2 0 ++ natLE 2 4) none 0 (setPort p (fun y => { y with enumPhase := .status }) s)
    else if q.type = 6 && st = 0 then
      let index := field q.payload 0 2
      if index = 1 && x.enumPhase == .status && q.hop = x.enumHop then nodeFound p q.hop (field d 0 4) s
      else objectRead p q.hop index (field q.payload 2 2) d s
    else s

/-- A SOURCE node's MONITOR (R268): a POWER run of one of its beams takes the measured power with the power in its slot (R524). -/
def monitorFrame (p h power status : Nat) (s : State) : State :=
  let s := setNode p h (fun n => { n with power := power, srcStatus := BitVec.ofNat 32 status, monitored := some s.now }) s
  (s.hk.runs.filter fun r => r.kind = 1 && (laneRec s r.unit).port = p && sourceHop s r.unit == some h).foldl (fun s r =>
    let ln := laneOf s r.unit
    match recAt s.now ln.plan with
    | some x =>
      if x.vec.beamOn && emittingAt ln s.now then
        let c := match flightAt ln s.now with | some q => q.power | none => 0
        setRun 1 r.unit (fun y => { y with levels := modUnit y.levels (x.idx - 2) fun l => ((c, power) :: l).take 20 }) s
      else s
    | none => s) s

/-- The entries of an IO_EVENT, one after another (R279). -/
def ioEntries (p h : Nat) : Nat → List Byte → State → State
  | 0, _, s => s
  | n + 1, b, s =>
    if b.length < 13 then s
    else
      let point := field b 0 1
      let value := field b 1 4
      let s := if point < 64 then setNode p h (fun x => { x with
          inputs := BitVec.ofNat 64 (if value % 2 = 1 then x.inputs.toNat ||| 2 ^ point
            else x.inputs.toNat - (if bit x.inputs.toNat point then 2 ^ point else 0)) }) s else s
      ioEntries p h n (b.drop 13) (putIo p h point value (field b 5 8) s)

/-- A frame that a node sends of itself (R268). -/
def nodeFrame (p h type : Nat) (pl : List Byte) (s : State) : State :=
  let n := nodeOf s p h
  if !n.present then s
  else if type = 8 && n.ident.cls = 0 then
    let ts := (List.range (min 4 (pl.length / 2))).map fun i => fieldS pl (2 * i) 2
    if ts.isEmpty then s else tempArrived p h (setNode p h (fun n => { n with temps := ts }) s)
  else if type = 9 && n.ident.cls = 1 then monitorFrame p h (field pl 0 2) (field pl 2 4) s
  else if type = 0x0C && n.ident.cls = 2 then ioEntries p h 32 pl s
  else if type = 0x0D then nodeStatus p h (field pl 0 4) s
  else s

/-- A service frame's length and CRC-32 are good (R266). -/
def frameGood (b : List Byte) : Bool :=
  let n := field b 4 2
  decide (n ≤ 512) && b.length = n + 12 && field b (n + 8) 4 = crc32 (b.take (n + 8))

/-- SERVICE_FRAME_RECEIVE (R266): a frame from a source hop, 0x1E for a node that is not addressed yet. -/
def serviceFrame (p h : Nat) (b : List Byte) (s : State) : State :=
  if s.variant.ports ≤ p then s
  else if !frameGood b then setPort p (fun q => { q with svcCrcErr := satInc q.svcCrcErr }) s
  else
    let pl := (b.drop 8).take (field b 4 2)
    let seq := field b 6 2
    let n := nodeOf s p h
    let s := if n.present && n.ident.beams != 0 && h != 0x1E then setNode p h (fun n => { n with lastUnit := s.now }) s else s
    if bit (field b 3 1) 0 then
      match s.link.reqs.find? fun q => q.port = p && q.seq = seq && (q.hop = h || q.hop = 0x1E) with
      | some q => answered q pl s
      | none => s
    else nodeFrame p h (field b 2 1) pl s

def execServiceFrameReceive (t : Ns) (port hop : Nat) (bytes : List Byte) (s : State) : Host.Outcome State Fault Refusal :=
  .next (serviceFrame port hop bytes (passTo t s))

/-- SERVICE_RETRY (R267): 5 ms without an answer, the request goes out again with its SEQ, once. -/
def serviceRetry (seq : Nat) (s : State) : State :=
  match s.link.reqs.find? fun q => q.seq = seq && !q.retried && decide (q.sent + 5000000 ≤ s.now) with
  | none => s
  | some q =>
    let s := setLink (fun l => { l with reqs := l.reqs.map fun x => if x = q then { x with retried := true } else x }) s
    sendFrame q.port q.hop (svcFrame q.hop 0 q.type 0 q.seq q.payload) s

def execServiceRetry (t : Ns) (seq : Nat) (s : State) : Host.Outcome State Fault Refusal :=
  .next (serviceRetry seq (passTo t s))

/-- SERVICE_TIMEOUT (R267): 10 ms without an answer. An enumeration whose request this was ends (R272). -/
def serviceTimeout (seq : Nat) (s : State) : State :=
  match s.link.reqs.find? fun q => q.seq = seq && decide (q.sent + 10000000 ≤ s.now) with
  | none => s
  | some q =>
    let s := setPort q.port (fun x => { x with svcTimeouts := satInc x.svcTimeouts }) (dropReq q s)
    match q.ref with
    | some r => endWith r stTimeout s
    | none =>
      let x := portOf s q.port
      let own := q.type = 1 && x.enumPhase == .discover || q.type = 3 && x.enumPhase == .address && q.hop = 0x1E
        || q.type = 4 && x.enumPhase == .delay && q.hop = x.enumHop || q.type = 6 && x.enumPhase == .status && q.hop = x.enumHop
      if own then endEnum q.port s else s

def execServiceTimeout (t : Ns) (seq : Nat) (s : State) : Host.Outcome State Fault Refusal :=
  .next (serviceTimeout seq (passTo t s))

/-! ### Delay measurement (R263, R265) -/

/-- A node of a port that is measured: an addressed one, or the one that the enumeration is at. -/
def measuring (s : State) (p h : Nat) : Bool :=
  (nodeOf s p h).present || (h != 0 && (portOf s p).enumHop = h && (portOf s p).enumPhase == .measure)

/-- ECHO_RECEIVE (R263): the round trip of one MEASURE, in 1/16 ns; after 64 the node's delay is known. -/
def echoReceive (p h seq crc rtt : Nat) (s : State) : State :=
  if s.variant.ports ≤ p || !measuring s p h || crc != crc8 (natLE 1 0xB2 ++ natLE 1 h ++ natLE 1 seq) then s
  else
    let s := setNode p h (fun n => { n with measured := n.measured ++ [rtt] }) s
    if 64 ≤ (nodeOf s p h).measured.length then measured p h s else s

def execEchoReceive (t : Ns) (port hop seq crc rtt : Nat) (s : State) : Host.Outcome State Fault Refusal :=
  .next (echoReceive port hop seq crc rtt (passTo t s))

/-- DELAY_MEASURE (R265): every node of a port is measured. -/
def delayMeasure (p : Nat) (s : State) : State :=
  if s.variant.ports ≤ p || !linkUp s p then s
  else (List.range 16).foldl (fun s k => if (nodeOf s p (k + 1)).present then startMeasure p (k + 1) s else s) s

def execDelayMeasure (t : Ns) (port : Nat) (s : State) : Host.Outcome State Fault Refusal :=
  .next (delayMeasure port (passTo t s))

/-- ENUMERATION (R272). -/
def execEnumeration (t : Ns) (port : Nat) (s : State) : Host.Outcome State Fault Refusal :=
  .next (enumeration port (passTo t s))

/-! ### Links and nodes come and go (R271, R274, R275) -/

/-- SPL_LINK_UP (R271): the transmitter's values are those of this training (R280), and the chain is enumerated. -/
def linkComesUp (p : Nat) (s : State) : State :=
  if s.variant.ports ≤ p || linkUp s p || s.power.blockReset.any (fun u => u == (2, p)) then s
  else
    let s := setPort p (fun q => { q with
      link := 2, txSwing := q.swingNext, txDeemph := q.deemphNext, enumDone := false, enumHop := 0, enumPhase := .idle }) s
    let s := raise 0x4001 (natLE 1 p) s
    if mayEnumerate s p (nodeCount s p + 1) then discoverNext p s else s

def execSplLinkUp (t : Ns) (port : Nat) (s : State) : Host.Outcome State Fault Refusal :=
  .next (linkComesUp port (passTo t s))

/-- SPL_LINK_DOWN (R275): the port has lost block lock on hop 1, and with it the whole chain. -/
def linkGoesDown (p : Nat) (s : State) : State :=
  if s.variant.ports ≤ p || !linkUp s p then s
  else
    let s := setPort p (fun q => { q with link := 0, lockLosses := satInc q.lockLosses, svcOut := [] }) s
    loseFrom p 1 1 (raise 0x4002 (natLE 1 p) s)

def execSplLinkDown (t : Ns) (port : Nat) (s : State) : Host.Outcome State Fault Refusal :=
  .next (linkGoesDown port (passTo t s))

/-- LINKDN_RECEIVE (R275): the nodes beyond the sender are lost. -/
def linkdn (p h reason : Nat) (s : State) : State :=
  if s.variant.ports ≤ p || !(nodeOf s p h).present || reason != 1 then s
  else loseFrom p (h + 1) 2 (setNode p h (fun n => { n with lastUnit := s.now }) s)

/-- The block types of R249. -/
def blockTypes : List Nat := [0x1E, 0xA1, 0xA2, 0xA3, 0xA4, 0xB1, 0xB2, 0xB3, 0xB4, 0xC1]

/-- A control block with the fields of a LINKDN reaches a port: a LINKDN is handled, and a block of a type that R249 does not list is
discarded and counted. -/
def linkdnBlock (p type h reason : Nat) (s : State) : State :=
  if type = 0xB3 then linkdn p h reason s
  else if s.variant.ports ≤ p || !linkUp s p || blockTypes.contains type then s
  else setPort p (fun q => { q with unknownBlocks := satInc q.unknownBlocks }) s

def execLinkdnReceive (t : Ns) (port hop : Nat) (reason : UpBlock) (s : State) : Host.Outcome State Fault Refusal :=
  .next (linkdnBlock port reason.type hop reason.reason (passTo t s))

/-- When a node that stays silent is lost (R275): 16 cycles after its last unit while it has beams, and else once the third NODE unit due
since (R258) has not come by the bound of R153 (log 183). -/
def silentAt (n : Node) (h : Nat) : Ns :=
  if n.ident.beams = 0 then
    let c := n.lastUnit / 500 + 1
    500 * (c + (n.phase + 8 - c % 8) % 8 + 16) + 401 + 120 * h
  else n.lastUnit + 8000

/-- NODE_SILENCE (R275). -/
def nodeSilence (p h : Nat) (s : State) : State :=
  let n := nodeOf s p h
  if s.variant.ports ≤ p || !n.present || s.now < silentAt n h then s
  else loseFrom p h 3 s

def execNodeSilence (t : Ns) (port hop : Nat) (s : State) : Host.Outcome State Fault Refusal :=
  .next (nodeSilence port hop (passTo t s))

/-- SPL_HI_BER (R274): 16 invalid sync headers in 125 µs; the link keeps running. The port counts those of its own link, that
of hop 1. -/
def hiBer (p h : Nat) (s : State) : State :=
  if s.variant.ports ≤ p || !linkUp s p then s
  else
    let s := if h = 1 then setPort p (fun q => { q with
        link := 3, hiBerEvents := satInc q.hiBerEvents, blockErr := satAdd q.blockErr 16 })
        { s with recorder := { s.recorder with blockErr := s.recorder.blockErr.modify p fun n => n + 16 } } else s
    raise 0x4003 (natLE 1 p ++ natLE 1 h) s

def execSplHiBer (t : Ns) (port hop : Nat) (s : State) : Host.Outcome State Fault Refusal :=
  .next (hiBer port hop (passTo t s))

/-! ### Opcodes (R278) -/

/-- A request of a descriptor goes to the node it names. -/
def requestNode (r : Ref) (node type : Nat) (payload : List Byte) (addr : Nat) (s : State) : State :=
  match nodeAt s node with
  | none => endWith r stParam s
  | some (p, h) => sendReq p h type payload (some r) addr s

/-- SPL_IO_WRITE: up to four points. -/
def startSplIoWrite (r : Ref) (node : Nat) (entries : List (Nat × Nat)) (applyAt : Nat) (s : State) : State :=
  if entries.isEmpty || 4 < entries.length || entries.any (fun e => decide (255 < e.1)) then endWith r stParam s
  else requestNode r node 0x0A (natLE 8 applyAt ++ entries.flatMap fun e => natLE 1 e.1 ++ natLE 4 e.2) 0 s

def execSplIoWrite (h : Hdr) (node : Nat) (entries : List (Nat × Nat)) (applyAt : Nat) (s : State) :
    Host.Outcome State Fault Refusal :=
  .next (postDescriptor (.splIoWrite h node entries applyAt) h 0xB0 (startSplIoWrite h.ref node entries applyAt) s)

/-- SPL_IO_READ. -/
def startSplIoRead (r : Ref) (node first count addr : Nat) (s : State) : State :=
  if count = 0 || 64 < count || 255 < first || addr % 4 != 0 || !hostMem addr (4 * count) s then endWith r stParam s
  else requestNode r node 0x0B (natLE 1 first ++ natLE 1 count) addr s

def execSplIoRead (h : Hdr) (node first count addr : Nat) (s : State) : Host.Outcome State Fault Refusal :=
  .next (postDescriptor (.splIoRead h node first count addr) h 0xB1 (startSplIoRead h.ref node first count addr) s)

/-- SPL_OBJ_READ. -/
def startSplObjRead (r : Ref) (node index offset count addr : Nat) (s : State) : State :=
  if addr % 4 != 0 || (nodeAt s node).isNone then endWith r stParam s
  else if 500 < count then endWith r stLimit s
  else if !hostMem addr count s then endWith r stParam s
  else requestNode r node 6 (natLE 2 index ++ natLE 2 offset ++ natLE 2 count) addr s

def execSplObjRead (h : Hdr) (node index offset count addr : Nat) (s : State) : Host.Outcome State Fault Refusal :=
  .next (postDescriptor (.splObjRead h node index offset count addr) h 0xB2 (startSplObjRead h.ref node index offset count addr) s)

/-- SPL_OBJ_WRITE. -/
def startSplObjWrite (r : Ref) (node index offset count addr : Nat) (s : State) : State :=
  if addr % 4 != 0 || index < 0x100 || (nodeAt s node).isNone then endWith r stParam s
  else if 500 < count then endWith r stLimit s
  else if !hostMem addr count s then endWith r stParam s
  else
    match poisonIn addr count s with
    | some w => endWith r stEcc (eccUe 34 w s)
    | none =>
      requestNode r node 7 (natLE 2 index ++ natLE 2 offset ++ natLE 2 count ++ memRead addr count s) 0 s

def execSplObjWrite (h : Hdr) (node index offset count addr : Nat) (s : State) : Host.Outcome State Fault Refusal :=
  .next (postDescriptor (.splObjWrite h node index offset count addr) h 0xB3
    (startSplObjWrite h.ref node index offset count addr) s)

/-- SPL_RESCAN: the named ports go on with their enumeration; it is done when the last of them has ended. -/
def startSplRescan (r : Ref) (mask : Nat) (s : State) : State :=
  if jobExists s then endWith r stState s
  else
    let ps := bitsOf 32 mask
    if ps.any fun p => decide (s.variant.ports ≤ p) then endWith r stParam s
    else
      let up := ps.filter fun p => linkUp s p
      if up.isEmpty then endWith r stDone s
      else
        let s := setLink (fun l => { l with rescans := l.rescans ++ [(r, up)] }) s
        up.foldl (fun s p => if (portOf s p).enumPhase == .idle then discoverNext p s else s) s

def execSplRescan (h : Hdr) (mask : Nat) (s : State) : Host.Outcome State Fault Refusal :=
  .next (postDescriptor (.splRescan h mask) h 0xB4 (startSplRescan h.ref mask) s)

/-- SPL_NODE_RESET. -/
def startSplNodeReset (r : Ref) (node : Nat) (s : State) : State :=
  if jobExists s then endWith r stState s else requestNode r node 5 [] 0 s

def execSplNodeReset (h : Hdr) (node : Nat) (s : State) : Host.Outcome State Fault Refusal :=
  .next (postDescriptor (.splNodeReset h node) h 0xB5 (startSplNodeReset h.ref node) s)

/-- SPL_IO_RING: the ring starts anew with record 0. -/
def startSplIoRing (r : Ref) (base size : Nat) (s : State) : State :=
  if base % 32 != 0 || size < 64 || 65536 < size || 2 ^ Nat.log2 size != size || !hostMem base (32 * size) s then
    endWith r stParam s
  else
    endWith r stDone (setLink (fun l => { l with
      ringSet := true, ringBase := BitVec.ofNat 64 base, ringSize := size, ringNext := 0, ringSeq := 0, ioEpisode := false }) s)

def execSplIoRing (h : Hdr) (base size : Nat) (s : State) : Host.Outcome State Fault Refusal :=
  .next (postDescriptor (.splIoRing h base size) h 0xB6 (startSplIoRing h.ref base size) s)

end Sys2Proof.Machine
end

