-- ==== Sys2Proof/Machine/Safe.lean ====
section
/-! DEFINITION. The safe state and what ends with the cores: outstanding descriptors, the job, the lanes (R77, R232, R260, R324, R398,
R452, R518). -/

namespace Sys2Proof.Machine

/-! ### The safe state -/

/-- A light output off, to resume at its own next period or sync (R452). -/
def Led.dark (l : Led) : Led := { l with lit := false, resumed := false, diag := none }

/-- Beams, trigger and compare outputs and lights go off at once (R232, R251, R260, R413, R452); a POWER run is over with its beam (R532). -/
def beamsOff (s : State) : State :=
  let s := killAll { s with power := { s.power with safe := true } }
  let s := calPermitLow (trigSafe s)
  let m := s.light.matrix
  { s with
      light := { s.light with leds := s.light.leds.map Led.dark, matrix := { m with resumed := false } }
      cmp := s.cmp.map fun c : Cmp => { c with active := min c.active s.now } }

/-- The safe state with the axes' emergency stops (R398). -/
def forceSafe (s : State) : State := axesSafe (beamsOff s)

/-- An entry to STANDBY or HIBERNATE brings the axes to standstill at their effective limits (R396, R575). -/
def axesToRest (s : State) : State :=
  (List.range 16).foldl (fun s a => settleAxis a (beginStop a (axisOf s a).lim stAbHost (dropPending a stAbHost s))) s

/-! ### Outstanding descriptors -/

/-- The position of the first element with a property. -/
def posOf {α : Type} (p : α → Bool) (l : List α) : Option Nat := ((List.range l.length).zip l).findSome? fun x => if p x.2 then some x.1 else none

/-- A descriptor is one of an axis. -/
def Axis.holds (r : Ref) (x : Axis) : Bool :=
  (x.move.any fun m => m.ref == some r) || (x.pending.any fun m => m.ref == some r) || x.homing.any fun h => h.ref == r

/-- A descriptor is one of a compression channel. -/
def ZipChan.holds (r : Ref) (x : ZipChan) : Bool :=
  x.job.any fun j => j.ref == some r || j.endRef == some r || j.flushRefs.contains r || j.feeds.any fun f => f.ref == r

/-- A descriptor is one of a camera port. -/
def Cam.holds (r : Ref) (x : Cam) : Bool :=
  x.stops.contains r || (x.commits.any fun c => c.2 == some r)
  || x.cci.any fun j => match j with | .host q _ _ _ _ => q == r | .set _ => false

/-- A descriptor is one of a scene. -/
def Scene.holds (r : Ref) (x : Scene) : Bool :=
  (x.run.any fun u => u.ref == some r) || (x.changes.any fun c => c.ref == some r) || (x.runs.any fun q => q.1 == r)
  || x.stops.contains r || (x.loads.any fun l => l.2 == r) || x.cacheRefs.contains r

/-- The context of the unit that a descriptor waits for (R302). -/
def refCtx (r : Ref) (s : State) : Option Nat :=
  match posOf (Axis.holds r) s.axes.axes, posOf (Cam.holds r) s.cams, posOf (ZipChan.holds r) s.zip.chans, posOf (Scene.holds r) s.scenes with
  | some a, _, _, _ => some (256 + a)
  | _, some p, _, _ => some (272 + p)
  | _, _, some c, _ => some (280 + c)
  | _, _, _, some k => some (288 + k)
  | _, _, _, _ => (s.light.matrix.queue.find? fun q => q.2.1 == r).map fun q => q.2.2

/-- Every descriptor that has not finished ends with a status (R324, R575). -/
def endAll (st : Nat) (s : State) : State :=
  let ctxs := (s.hostq.outstanding ++ s.hostq.parked).map fun tk => (tk.hdr.ref, refCtx tk.hdr.ref s)
  let s := { s with hostq := { s.hostq with fences := [] }, waiting := [] }
  ctxs.foldl (fun s x => finishAs x.1 x.2 false st 0 0 s) s

/-- The axes without what waited for them. -/
def Axis.unowned (x : Axis) : Axis := { x with move := x.move.map (fun m => { m with ref := none }), pending := none, homing := none }

/-- A camera port without what waited for it. -/
def Cam.unowned (x : Cam) : Cam :=
  { x with
      stops := []
      commits := x.commits.filter fun c => c.2.isNone
      cci := x.cci.filter fun j => match j with | .host _ _ _ _ _ => false | .set _ => true }

/-- A scene without what waited for it. -/
def Scene.unowned (x : Scene) : Scene :=
  { x with run := x.run.map (fun u => { u with ref := none }), changes := [], runs := [], stops := [], loads := [], cacheRefs := [] }

/-- Mere without what waited for it. -/
def Mere.unowned (x : Mere) : Mere :=
  { x with
      pendingCoeffs := x.pendingCoeffs.filter fun c => c.2.2.isNone
      sets := []
      saves := x.saves.map fun v => { v with ref := none } }

/-- No unit waits to complete a descriptor any more: what such a descriptor had asked for and had not begun is dropped. -/
def dropOwners (s : State) : State :=
  let s := { s with
      still := { s.still with demand := [], joined := [], joinedNext := [], latched := s.still.latched.map fun l : Latched => { l with joined := [] } }
      axes := { s.axes with axes := s.axes.axes.map Axis.unowned, stops := [] }
      mere := s.mere.unowned
      hk := { s.hk with groups := [] }
      cams := s.cams.map Cam.unowned
      scenes := s.scenes.map Scene.unowned }
  let s := { s with
      edp := { s.edp with bind := none, bindRefs := [] }
      isp := { s.isp with trigs := s.isp.trigs.filter fun x => x.2.2.isNone }
      recorder := { s.recorder with
        asked := []
        waits := s.recorder.waits.map (fun d : RecDue => { d with refs := [] })
        write := s.recorder.write.map fun w : RecWrite => let d := { w.due with refs := [] }; { w with due := d } } }
  let s := { s with
      light := { s.light with
        leds := s.light.leds.map (fun l : Led => { l with changes := l.changes.filter fun c => c.ref.isNone })
        matrix := { s.light.matrix with queue := [] } } }
  let s := { s with
      link := { s.link with
        rescans := []
        nodeResets := []
        reqs := s.link.reqs.map fun q : SvcReq => { q with ref := none } } }
  let pps := { s.time.pps with pending := [] }
  { s with time := { s.time with stops := [], pps := pps } }

/-- A reset that keeps the rings cancels every pending action but snapshots (R242). -/
def cancelActions (s : State) : State :=
  setRipple (fun r => { r with actions := r.actions.filter fun a => a.work.code = 1 }) s

/-! ### The job and the lanes -/

/-- The job ends with the beams off and without an outcome (R77). -/
def jobReset (s : State) : State :=
  let s := (allLanes s).foldl (fun s l => stopLane l (if (laneOf s l).state = .off then .off else .idle) s) s
  let s := { s with lanes := s.lanes.map fun x : Lane => { x with
    marks := [], excluded := false, reenable := false, ovrMark := none, ovrJump := none, noData := false
    tail := [], tailStream := none, tailMark := none } }
  let s := { s with members := { s.members with plan := [], plans := [], peerHold := false, lossHold := false } }
  let s := scriptStop (calWithdraw (deferWaiting [1, 2, 3, 4] (abandonAll [1, 3, 4] 2 s)))
  let s := withdraw (fun w => match w with | .layerStart _ => true | .syncRelease _ => true | _ => false) s
  let s := { s with
    isp := { s.isp with plan := none }
    link := { s.link with ports := s.link.ports.map fun q : Port => { q with nodes := q.nodes.map fun n : Node => { n with lost := false } } } }
  timeJobEnd (setJobs (fun _ => Jobs.reset) s)

/-- MAP across a reset that keeps the overrides: a change that was coming into force is in force, and the working grid is built anew
when it is needed. -/
def LaneMap.kept (m : LaneMap) : LaneMap :=
  let t := ((m.waiting.bind fun c => c.trims).orElse fun _ => m.blend.bind fun b => b.change.trims).getD m.trims
  { LaneMap.reset with trims := t, gridSets := m.gridSets }

/-- The loop across such a reset: the dark values stay. -/
def Loop.kept (x : Loop) : Loop :=
  { Loop.reset with darkA := x.darkA, darkB := x.darkB, darkToA := x.darkToA, darkToB := x.darkToB, darkAt := x.darkAt }

/-- A lane after a BLOCK reset (TARN_LANE_STAT to TARN_LANE_MAP). -/
def Lane.blockReset (x : Lane) : Lane :=
  { Lane.reset with
      excluded := x.excluded
      reenable := x.reenable
      map := x.map.kept
      loop := x.loop.kept
      marks := x.marks }

/-- A lane after a FIRMWARE reset: its counters are kept. -/
def Lane.fwReset (x : Lane) : Lane :=
  { Lane.reset with
      map := x.map.kept
      loop := x.loop.kept
      underrun := x.underrun, resultStall := x.resultStall, verdictLate := x.verdictLate, onDelayClipped := x.onDelayClipped
      fePeak := x.fePeak, setpoints := x.setpoints, anomRecords := x.anomRecords, trimSatRecords := x.trimSatRecords
      dropouts := x.dropouts, pdSat := x.pdSat, rawLost := x.rawLost, readUnderrun := x.readUnderrun
      readVerdictLate := x.readVerdictLate, readDropouts := x.readDropouts, readAnom := x.readAnom, readFe := x.readFe }

end Sys2Proof.Machine
end

