-- ==== Sys2Proof/Machine/Restart.lean ====
section
/-! DEFINITION. What each kind of restart keeps (R329, R565, R570, R571), and the FIRMWARE reset (R330, R567). -/

namespace Sys2Proof.Machine

/-! ### Contents of Basin (R503, R571) -/

/-- An address lies in a segment that is retained. -/
def retained (s : State) (a : Nat) : Bool := s.basin.retain.getLsbD (a / segSize s)

/-- The contents of Basin after a restart, with the words that read as uncorrectable. -/
def basinAfter (k : ResetKind) (s : State) : List Host.Cell × List Nat :=
  match k with
  | .module => (s.basin.mem, s.basin.poisoned)
  | .firmware => (s.basin.mem, s.basin.poisoned)
  | .standbyExit => (s.basin.mem.filter fun c => retained s c.1, s.basin.poisoned.filter fun w => retained s (8 * w))
  | .por => ([], [])
  | .wake => ([], [])
  | .pin => ([], [])

/-! ### The restart of the whole module -/

/-- The restart keeps the module's identity and the failed-sensor marks (R571). -/
def ResetKind.keepsIdent : ResetKind → Bool
  | .module => true
  | .standbyExit => true
  | .firmware => true
  | .por => false
  | .wake => false
  | .pin => false

/-- The TIME block across a MODULE reset: the counter and the clock state go on, schedules and rings do not (R565, R571). -/
def TimeBlk.kept (t : TimeBlk) : TimeBlk :=
  { TimeBlk.reset with
      clock := t.clock
      pps := { Pps.reset with inOffset := t.pps.inOffset } }

/-- Set A becomes the active set: what both sets hold stays (REC_STAT ACTIVE_SET at a MODULE reset). -/
def recSetA (r : Recorder) : Recorder :=
  if r.activeB then { r with activeB := false, setA := r.setB, setB := r.setA } else r

/-- The recorder across a restart (R540, R571): a MODULE reset keeps the accumulation sets, the others take up the record with the
highest SEQ. -/
def recorderAfter (k : ResetKind) (s : State) : Recorder :=
  let r := (recBreak s).recorder
  let fresh := recRestart s.recorder
  match k with
  | .module =>
    { recSetA r with
        waits := [], asked := [], nonce := none, window := Recorder.reset.window, winReady := false, region := 0, slot := 0, index := 0
        autoInc := false }
  | .por => { fresh with cycles := fresh.cycles + 1 }
  | .wake => { fresh with cycles := fresh.cycles + 1 }
  | .standbyExit => { fresh with minutes := r.minutes, lastMinute := r.minutes.toNat, writeFails := r.writeFails, retries := r.retries, authFail := r.authFail }
  | .pin => fresh
  | .firmware => fresh

/-- AON across a restart (R571; GLOBAL_RESET_STAT): LAST_KIND, WAKE_CAUSE and CAUSE are those of this restart, and the counts begin
anew only at POR. -/
def powerAfter (k : ResetKind) (cause wake : Nat) (s : State) : Power :=
  let p := s.power
  { Power.reset with
      lastKind := BitVec.ofNat 3 k.code, cause := BitVec.ofNat 2 cause, wakeCause := BitVec.ofNat 3 wake
      moduleResets := if k = .por then 0 else if k = .module then satInc p.moduleResets else p.moduleResets
      firmwareResets := if k = .por then 0 else p.firmwareResets
      safe := k.keepsIdent
      reqArmed := if k = .wake then s.pins.hibReqN else true
      clkLost := p.clkLost
      onAlive := p.onAlive }

/-- HK across a restart: HK_SHUTDOWN is kept except at POR, a latched shutdown ends at POR and PIN (R519), and failed-sensor marks are
kept where R571 says so. -/
def hkAfter (k : ResetKind) (s : State) : Hk :=
  let h := s.hk
  let kept := if k = .por then Hk.reset else { Hk.reset with shutCause := h.shutCause, shutSlot := h.shutSlot, shutValue := h.shutValue }
  { kept with
      failed := if k.keepsIdent then h.failed else Hk.reset.failed
      lowCount := k.keepsIdent && h.lowCount
      shutAt := if k = .por || k = .pin then none else h.shutAt }

/-- Start-up begins (R332, R519): after a shutdown it waits for the sensors. -/
def bootAfter (k : ResetKind) (now : Ns) (s : State) : Boot :=
  let wait := s.boot.sensorWait || ((k = .por || k = .pin) && s.hk.shutAt.isSome)
  { Boot.reset with phase := if wait then 0 else 1, sensorWait := wait, porAt := now }

/-- The restart of the whole module (R329, R571): every field at its reset value but for what the kind keeps. PCIE_WAKE_N
is as it was, and FAULT_N goes low but at a MODULE reset (R353, R584). -/
def restart (k : ResetKind) (cause wake : Nat) (s : State) : State :=
  let s := endAttachment 2 s
  let r := State.reset
  let m := basinAfter k s
  let time := if k = .module then s.time.kept else TimeBlk.reset
  let basin := { Basin.reset with mem := m.1, poisoned := m.2 }
  let profile := { ProfileBlk.reset with memBytes := s.profile.memBytes, memA := s.profile.memA, memB := s.profile.memB }
  let p := s.permit
  { r with
      ident := { s.ident with moduleId := if k.keepsIdent then s.ident.moduleId else s.pins.modid }
      pins := { s.pins with faultN := k = .module && s.pins.faultN }
      power := powerAfter k cause wake s
      permit := { Permit.reset with a := p.a, b := p.b, high := p.high }
      boot := bootAfter k time.clock.now s
      time := time
      basin := { basin with lastReq := time.clock.now }
      hostq := { HostQ.reset with pcieUp := k = .module && s.hostq.pcieUp }
      hk := hkAfter k s
      profile := profile
      recorder := recorderAfter k s
      sent := s.sent, free := s.free, pending := s.pending }

/-- FAULT_N with the units off or held: released in OFF and HIBERNATE, low in a held reset, and as it was in STANDBY (R584). -/
def heldFaultN (st : PowerState) (s : State) : Bool :=
  match st with
  | .off => true
  | .hibernate => true
  | .standby => s.pins.faultN
  | .held => false
  | .on => false

/-- The module with its units off or held: as a restart leaves it, in a power state and with PHASE 0 (R332, R572). -/
def hold (k : ResetKind) (cause : Nat) (st : PowerState) (s : State) : State :=
  let fault := heldFaultN st s
  let s := restart k cause 0 s
  let boot := { s.boot with phase := 0 }
  { s with power := { s.power with state := st }, boot := boot, pins := { s.pins with faultN := fault } }

/-- The module comes out of a held reset: training begins, or the wait for the sensors (R332, R519). -/
def release (s : State) : State :=
  let boot := { s.boot with phase := if s.boot.sensorWait then 0 else 1, porAt := s.now }
  { s with power := { s.power with state := .on }, boot := boot }

/-! ### The FIRMWARE reset (R330, R571) -/

/-- The image in the firmware region still has its digest: no word of the firmware region reads as uncorrectable. The region's contents cannot
be written otherwise, BAR2 being closed below 0x2000_0000 (R334). -/
def imageIntact (s : State) : Bool := s.boot.image.isSome && (poisonIn 0 0x20000000 s).isNone

/-- Wellhead runs a FIRMWARE reset (R330, R567): the safe state, the job and the descriptors end, the cores stop; they restart from the kept
image, or Wellhead waits for a new one. `cause` is GLOBAL_RESET_STAT's. -/
def firmwareReset (cause : Nat) (s : State) : State :=
  let s := dropOwners (endAll stAbReset (zipAbortHost (beamsOff s)))
  let s := cancelActions (jobReset (axesSafe s))
  let s := { s with lanes := s.lanes.map Lane.fwReset }
  let p := s.power
  let power := { p with
    lastKind := BitVec.ofNat 3 ResetKind.firmware.code, wakeCause := 0, cause := BitVec.ofNat 2 cause, entry := 0
    firmwareResets := satInc p.firmwareResets }
  let b := s.boot
  let boot := { b with alive := false, readyLocal := false, readySynced := false, coresAt := s.now }
  let pr := s.profile
  let pr := if pr.busy then { pr with busy := false, writing := none, lastStatus := BitVec.ofNat 8 stAbReset, lastCmd := 1 } else pr
  let s := { s with power := power, boot := boot, profile := pr }
  let s := { s with time := { s.time with trigOut := s.time.trigOut.map fun o => { o with enable := false, fall := none, repl := none } } }
  if imageIntact s || s.boot.phase = 0 || s.boot.phase = 1 || s.boot.phase = 3 || s.boot.phase = 11 then s
  else
    let boot := { s.boot with phase := 2, error := 4, image := none }
    fireVector 39 { s with boot := boot }

/-- BASIN_ECC_FATAL (R504): the FIRMWARE reset that follows an uncorrectable error below 0x2000_0000. -/
def eccFatal (a : Nat) (s : State) : State := if a < 0x20000000 && s.boot.alive then firmwareReset 2 s else s

end Sys2Proof.Machine
end

