-- ==== Sys2Proof/Machine/General.lean ====
section
/-! DEFINITION. The general opcodes (R294) but for staged configuration. -/

namespace Sys2Proof.Machine

/-- NOP. -/
def startNop (r : Ref) (s : State) : State := endWith r stDone s

def execNop (h : Hdr) (s : State) : Host.Outcome State Fault Refusal :=
  .next (postDescriptor (.nop h) h 0x00 (startNop h.ref) s)

/-- HEARTBEAT: the host-loss timer starts again (R322). -/
def startHeartbeat (r : Ref) (s : State) : State :=
  endWith r stDone { s with mgmt := { s.mgmt with timer := some s.now } }

def execHeartbeat (h : Hdr) (s : State) : Host.Outcome State Fault Refusal :=
  .next (postDescriptor (.heartbeat h) h 0x05 (startHeartbeat h.ref) s)

/-- The descriptors of ring `r` that a FENCE waits for: those fetched and not completed, parked ones with them (R23,
R307, log 10), and, for another ring, those between HEAD and TAIL. -/
def fenceWaits (own : Ref) (r : Nat) (s : State) : List Ref :=
  let live := ((s.hostq.outstanding ++ s.hostq.parked).filter fun tk => tk.hdr.ring == r && tk.hdr.ref != own).map
    fun tk => tk.hdr.ref
  if r = own.1 then live
  else
    let c := cmdRing s r
    live ++ (if c.enable then (List.range c.waiting).map fun k => (r, c.fetched + k) else [])

/-- FENCE (R307): it waits for every descriptor before it in its ring and for those of the rings in SCOPE. -/
def startFence (r : Ref) (scope : BitVec 64) (holdRing : Bool) (s : State) : State :=
  match ticket s r with
  | none => s
  | some tk =>
    let others := (List.range 64).filter fun k => scope.getLsbD k && k != r.1
    let waits := fenceWaits r r.1 s ++ others.flatMap fun k => fenceWaits r k s
    let s := if holdRing then setCmd r.1 (fun c => { c with held := some r.2 }) s else s
    settle { s with hostq := { s.hostq with
      fences := s.hostq.fences ++ [{ tk := tk, waits := waits, hold := holdRing, bad := 0 }] } }

def execFence (h : Hdr) (scope : BitVec 64) (holdRing : Bool) (s : State) : Host.Outcome State Fault Refusal :=
  .next (postDescriptor (.fence h scope holdRing) h 0x01 (startFence h.ref scope holdRing) s)

/-- `n` is a power of two from 2 ^ lo to 2 ^ hi. -/
def powerIn (lo hi n : Nat) : Bool := (List.range (hi + 1)).any fun k => decide (lo ≤ k) && n == 2 ^ k

/-- EVENT_RING (R309): head and tail start at 0 and PHASE at 1. -/
def startEventRing (r : Ref) (base size : Nat) (s : State) : State :=
  if base % 32 != 0 || !powerIn 6 16 size || !hostMem base (32 * size) s then endWith r stParam s
  else endWith r stDone { s with events := { s.events with
    set := true, base := BitVec.ofNat 64 base, size := size, head := 0, tail := 0, phase := true } }

def execEventRing (h : Hdr) (base size : Nat) (s : State) : Host.Outcome State Fault Refusal :=
  .next (postDescriptor (.eventRing h base size) h 0x08 (startEventRing h.ref base size) s)

/-- EVENT_ROUTE (R295, R310): vector 0xFF removes every route of the same range; at most 32 routes exist. -/
def startEventRoute (r : Ref) (lo hi : BitVec 16) (vec : Nat) (s : State) : State :=
  if hi.toNat < lo.toNat then endWith r stParam s
  else if vec = 0xFF then
    endWith r stDone { s with events := { s.events with
      routes := s.events.routes.filter fun x => !(x.lo == lo && x.hi == hi) } }
  else if vec < 41 || 63 < vec then endWith r stParam s
  else if 32 ≤ s.events.routes.length then endWith r stBusy s
  else endWith r stDone { s with events := { s.events with
    routes := { lo := lo, hi := hi, vec := vec } :: s.events.routes } }

def execEventRoute (h : Hdr) (lo hi : BitVec 16) (vec : Nat) (s : State) : Host.Outcome State Fault Refusal :=
  .next (postDescriptor (.eventRoute h lo hi vec) h 0x09 (startEventRoute h.ref lo hi vec) s)

/-- The staging sets that a pending commit names (R318). -/
def setsInCommit (s : State) : BitVec 8 :=
  (actions s).foldl (fun m a => match a.work with | .cfgCommit k => m ||| k | _ => m) 0

/-- CFG_ABORT (R294): the named sets are emptied, unless one is in a pending commit. -/
def startCfgAbort (r : Ref) (sets : BitVec 8) (s : State) : State :=
  if setsInCommit s &&& sets != 0 then endWith r stBusy s
  else endWith r stDone { s with
    staging := s.staging.mapIdx fun k l => if sets.getLsbD k then [] else l }

def execCfgAbort (h : Hdr) (sets : BitVec 8) (s : State) : Host.Outcome State Fault Refusal :=
  .next (postDescriptor (.cfgAbort h sets) h 0x06 (startCfgAbort h.ref sets) s)

end Sys2Proof.Machine
end

