-- ==== Sys2Proof/Machine/Mere.lean ====
section
/-! DEFINITION. The Mere engine (R161 to R178, R602). -/

namespace Sys2Proof.Machine

/-- Mere starts with a profile (R173): S_0 is the first 1 ms boundary strictly after now, and every cell is T_PLATE. -/
def mereStart (s : State) : State :=
  let r := s.prof.mere
  let s0 := (s.now / 1000000 + 1) * 1000000
  setMere (fun m => { m with
    run := false, due := true, nx := r.nx, ny := r.ny, cell := r.cell, x0 := r.x0, y0 := r.y0, tU := r.tU, s0 := s0, next := 0, step := 0
    frontAt := s0 - 1000 * r.tU, front := List.replicate (r.nx * r.ny) r.tPlate, back := none
    coeffs := { d := r.d, r := r.r, kDep := r.kDep, assimWeight := r.assimWeight, layerBlend := r.layerBlend }
    reports := [], merges := 0, settle := none, frame := none, viewPeriodMs := r.viewPeriodMs }) s

/-- MERE_COEFFs that wait take effect with the step that starts (R177, R178). -/
def takeCoeffs (s : State) : State :=
  s.mere.pendingCoeffs.foldl (fun s p =>
    let clear := bit p.1 5
    let m5 := p.1 % 32
    let s := setMere (fun m => { m with
      coeffs := p.2.1.merge m5 m.coeffs
      ovrMask := if clear then m.ovrMask &&& ~~~(BitVec.ofNat 5 m5) else m.ovrMask ||| BitVec.ofNat 5 m5 }) s
    match p.2.2 with
    | some r => endWith r stDone (bumpOverride 2 (s.mere.ovrMask != 0) s)
    | none => markOverride 2 (s.mere.ovrMask != 0) s) (setMere (fun m => { m with pendingCoeffs := [] }) s)

/-- The actions of R170 and R171 that a step starting now takes: a blend whose SETTLE has begun, and a frame that has arrived. -/
def takeActions (s : State) : State :=
  let m := s.mere
  let blend := m.settle.any fun t => decide (t ≤ s.now)
  let frame := match m.frame with | some (cells, came) => if s.now < came then none else some cells | none => none
  setMere (fun m => { m with
    settle := if blend then none else m.settle, frame := if frame.isSome then none else m.frame
    assim := if frame.isSome then satInc m.assim else m.assim, ins := { blend := blend, frame := frame, taken := [] } }) s

/-- Fields that MERE_FIELD_SET has read in take the place of the front buffer (R602). -/
def takeSets (k : Nat) (s : State) : State :=
  (s.mere.setsAt k).foldl (fun s f =>
    endWith f.ref stDone (setMere (fun m => { m with front := f.cells, step := k - 1, frontAt := mereS m k - 1000 * m.tU }) s))
    (setMere (fun m => { m with sets := m.sets.filter fun f => !(m.setsAt k).contains f }) s)

/-- Step k starts: it computes the back buffer, and takes the reports that have reached Mere by S_k (R165). -/
def startStep (k : Nat) (s : State) : State :=
  let s := takeCoeffs s
  let s := if s.mere.saveWaits then s else takeSets k s
  let s := takeActions s
  let mine := s.mere.reports.filter fun r => decide (r.came ≤ s.now)
  setMere (fun m =>
    let m := { m with
      ins := { m.ins with taken := mine }, reports := m.reports.filter fun r => !decide (r.came ≤ s.now), merges := 0
      next := if m.coarse then k + 2 else k + 1 }
    { m with back := some (m.stepField s.prof.mere.tPlate s.prof.mere.tPowder k, k) }) s

/-! ### Saving (R174, R175) -/

/-- Save slots are configured and a compression channel is assigned to Mere (R175). -/
def canSave (s : State) : Bool := s.mere.slotCount != 0 && (mereChan s).isSome

/-- A pause of Mere: at most NX × NY × 2 B / 8 GB/s + 50 µs; how long it lasts is a free value (log 34). -/
def pauseLen (s : State) : Nat × State :=
  let top := s.mere.nx * s.mere.ny / 4 + 50000
  let (n, s) := takeFree s
  (Config.freeNat n % (top + 1), s)

/-- The address of a save slot. -/
def slotAddr (s : State) (slot : Nat) : Nat := s.mere.slotBase.toNat + slot * s.mere.slotSize.toNat

/-- The save that takes the front buffer of step k: the closing field is the first whose step began at or after the
exposure end; one that cannot be saved fails at once (R174, R175). -/
def takeSave (k : Nat) (s : State) : State :=
  match s.mere.saves.find? fun v => v.copied.isNone && (v.ref.isSome || decide (v.due ≤ mereS s.mere k)) with
  | none => s
  | some v =>
    if !canSave s then
      let s := setMere (fun m => { m with saves := m.saves.filter fun x => x != v }) s
      let s := raise 0x3043 (natLE 4 v.layer ++ natLE 1 stState) s
      match v.ref with | some r => endWith r stState s | none => s
    else
      let (pause, s) := pauseLen s
      let slot := (if v.ref.isSome then v.slot else v.layer) % s.mere.slotCount.toNat
      let s := setMere (fun m => { m with
        next := mereGrid m (s.now + pause)
        saves := m.saves.map fun x => if x = v then { x with slot := slot, copied := some (m.front, m.step, m.frontAt), resume := s.now + pause } else x }) s
      let m := s.mere
      let form : EpbForm := { kind := 1, bytes := 2, channels := 1, width := m.nx }
      let j := ZipJob.fresh 4 form (.own (m.front.flatMap fun t => natLE 2 t))
      zipPost ((mereChan s).getD 0) { j with
        frame := m.step, bufs := [(slotAddr s slot + 64, m.slotSize.toNat - 64)], used := [0] } s

/-! ### MERE_STEP (R162, R173) -/

/-- The change of throttling that applies from a step grid point (R172). -/
def takeCoarse (k : Nat) (s : State) : State :=
  if s.mere.coarse != s.mere.wantCoarse && k % 2 = 0 && decide (s.mere.wantSince < s.now) then
    setMere (fun m => { m with coarse := m.wantCoarse }) s
  else s

/-- MERE_STEP: the step in progress has finished and the buffers swap; on a step grid point the next one starts. A step
that finishes late counts an overrun (R173). -/
def mereStep (s : State) : State :=
  let m := s.mere
  let due := mereS m m.next
  if !(m.run || m.due) || s.now < due then s
  else
    let s := setMere (fun m => { m with run := true, due := false }) s
    let late := m.back.isSome && decide (due < s.now)
    let s := match m.back with
      | some (b, k) =>
        let s := setMere (fun m => { m with front := b, step := k, frontAt := mereS m k, back := none }) s
        takeSave k (recExtreme 30 (b.foldl max 0 : Nat) 0 s)
      | none => s
    let s := if late then raise 0x3041 (natLE 8 s.mere.step) (setMere (fun m => { m with overrun := satInc m.overrun }) s) else s
    let s := setMere (fun m => { m with next := max m.next (mereGrid m s.now) }) s
    if mereS s.mere s.mere.next = s.now then startStep s.mere.next (takeCoarse s.mere.next s) else s

def execMereStep (t : Ns) (s : State) : Host.Outcome State Fault Refusal := .next (mereStep (passTo t s))

/-- The header of a save slot (R175). FIELD_TIME counts from the TOR that the register shows. -/
def slotHeader (v : Saving) (st bytes : Nat) (s : State) : List Byte :=
  let m := s.mere
  let (step, at_) := match v.copied with | some (_, k, t) => (k, t) | none => (0, 0)
  natLE 4 0x4653434D ++ natLE 4 v.layer ++ natLE 2 m.nx ++ natLE 2 m.ny ++ natLE 4 m.cell ++ intLE 4 m.x0 ++ intLE 4 m.y0
    ++ natLE 2 s.prof.mere.tPlate ++ natLE 2 s.prof.mere.tPowder ++ natLE 8 step ++ intLE 8 ((at_ : Int) - (s.jobs.torShown : Nat))
    ++ natLE 4 st ++ natLE 4 (if st = stDone then bytes else 0) ++ natLE 4 v.tag ++ natLE 8 0

/-- A save slot is written: its coding has ended (R174, R175). -/
def mereSaved (s : State) : State :=
  match s.mere.saves.find? fun v => v.result.isSome with
  | none => s
  | some v =>
    let (st, bytes) := v.result.getD (0, 0)
    let s := memWrite 35 (slotAddr s v.slot) (slotHeader v st bytes s) s
    let s := setMere (fun m => { m with saves := m.saves.filter fun x => x != v, lastSlot := BitVec.ofNat 16 v.slot }) s
    let s := if st = stDone then raise 0x3044 (natLE 4 v.layer ++ natLE 2 v.slot ++ natLE 4 bytes) s
      else raise 0x3043 (natLE 4 v.layer ++ natLE 1 st) s
    match v.ref with | some r => endWith r st s | none => s

/-- MERE_SAVED. -/
def execMereSaved (t : Ns) (s : State) : Host.Outcome State Fault Refusal := .next (mereSaved (passTo t s))

/-- The latest view of two (R478). -/
def viewCopy (s : State) : State :=
  let m := s.mere.seenAt s.now
  let v : MereView := { seq := m.viewCount + 1, firstStep := m.step, lastStep := m.step, time := s.now, nx := m.nx, ny := m.ny,
                        cells := m.front }
  if !m.run || m.viewPeriodMs = 0 then s
  else setMere (fun m => { m with viewCount := m.viewCount + 1, views := (v :: m.views).take 2 }) s

/-- MERE_VIEW_COPY (R176): the front buffer goes into the older of the two view buffers. -/
def execMereViewCopy (t : Ns) (s : State) : Host.Outcome State Fault Refusal := .next (viewCopy (passTo t s))

/-! ### Opcodes (R178, R179, R602) -/

/-- MERE_SAVE_CFG. -/
def startMereSaveCfg (r : Ref) (base size count : Nat) (s : State) : State :=
  if !s.mere.saves.isEmpty then endWith r stState s
  else if base % 4096 != 0 || size % 4096 != 0 || size < 8192 || count = 0 || 65535 < count
    || !hostMem base (size * count) s then endWith r stParam s
  else endWith r stDone (setMere (fun m => { m with
    slotBase := BitVec.ofNat 64 base, slotSize := BitVec.ofNat 32 size, slotCount := BitVec.ofNat 16 count }) s)

def execMereSaveCfg (h : Hdr) (base size count : Nat) (s : State) : Host.Outcome State Fault Refusal :=
  .next (postDescriptor (.mereSaveCfg h base size count) h 0x30 (startMereSaveCfg h.ref base size count) s)

/-- MERE_SAVE_NOW: the field of the next swap goes to the next slot (log 35). -/
def startMereSaveNow (r : Ref) (tag : Nat) (s : State) : State :=
  if [2, 8].contains (jobState s) || !canSave s then endWith r stState s
  else
    let v : Saving := { layer := 0xFFFFFFFF, slot := s.mere.nowCount % s.mere.slotCount.toNat, tag := tag, ref := some r
                        due := s.now, copied := none, resume := 0, result := none }
    setMere (fun m => { m with saves := m.saves ++ [v], nowCount := m.nowCount + 1 }) s

def execMereSaveNow (h : Hdr) (tag : Nat) (s : State) : Host.Outcome State Fault Refusal :=
  .next (postDescriptor (.mereSaveNow h tag) h 0x31 (startMereSaveNow h.ref tag) s)

/-- The cells of MODE 1, row by row. -/
def readCells (a n : Nat) (s : State) : List Nat := (List.range n).map fun i => memNat (a + 2 * i) 2 s

/-- MERE_FIELD_SET (R602): the values are read in, and apply at the first step grid point after that. -/
def startMereFieldSet (r : Ref) (mode value addr : Nat) (s : State) : State :=
  let n := s.mere.nx * s.mere.ny
  if !([0, 4, 10].contains (jobState s)) then endWith r stState s
  else if 1 < mode || (mode = 1 && (addr % 2 != 0 || !hostMem addr (2 * n) s)) then endWith r stParam s
  else if mode = 1 && (poisonIn addr (2 * n) s).isSome then
    endWith r stEcc (match poisonIn addr (2 * n) s with | some w => eccUe 32 w s | none => s)
  else
    let cells := if mode = 0 then List.replicate n value else readCells addr n s
    setMere (fun m => { m with sets := m.sets ++ [{ cells := cells, ref := r, readAt := s.now, waited := m.due && s.boot.profileAt == s.now }] }) s

def execMereFieldSet (h : Hdr) (mode value addr : Nat) (s : State) : Host.Outcome State Fault Refusal :=
  .next (postDescriptor (.mereFieldSet h mode value addr) h 0x32 (startMereFieldSet h.ref mode value addr) s)

/-- What MERE_COEFF must meet (R178). -/
def mereCoeffCheck (mask d : Nat) : Nat :=
  if 64 ≤ mask || (bit mask 0 && !bit mask 5 && decide (16384 < d)) then stParam else stDone

/-- MERE_COEFF waits for the step that applies it; with CLEAR the named fields take the profile values (R179). -/
def applyMereCoeff (r : Option Ref) (mask : Nat) (c : Coeffs) (s : State) : State :=
  let p := s.prof.mere
  let c := if bit mask 5 then
      { d := p.d, r := p.r, kDep := p.kDep, assimWeight := p.assimWeight, layerBlend := p.layerBlend } else c
  let s := setMere (fun m => { m with pendingCoeffs := m.pendingCoeffs ++ [(mask, c, r)] }) s
  -- a step that starts at this tick takes them (R177)
  if (s.mere.beginning s.now).isSome then
    setMere (fun m => m.redo s.now s.prof.mere.tPlate s.prof.mere.tPowder) (takeCoeffs s)
  else s

def startMereCoeff (r : Ref) (mask d rr kDep assimWeight layerBlend : Nat) (s : State) : State :=
  let st := mereCoeffCheck mask d
  if st != stDone then endWith r st s
  else applyMereCoeff (some r) mask
    { d := d, r := rr, kDep := kDep, assimWeight := assimWeight, layerBlend := layerBlend } s

def execMereCoeff (h : Hdr) (mask d r kDep assimWeight layerBlend : Nat) (s : State) : Host.Outcome State Fault Refusal :=
  .next (postDescriptor (.mereCoeff h mask d r kDep assimWeight layerBlend) h 0x33
    (startMereCoeff h.ref mask d r kDep assimWeight layerBlend) s)

end Sys2Proof.Machine
end

