-- ==== Sys2Proof/Machine/Triggers.lean ====
section
/-! DEFINITION. Edges at the trigger inputs (R233 to R235), which also serve as line triggers (R85) and home edges
(R399). -/

namespace Sys2Proof.Machine

/-- An edge is one that the input captures: as long as FILTER asks, selected by EDGE, and 20 ns after the one before it (R233). -/
def edgeTaken (n : Nat) (rising : Bool) (width : Nat) (s : State) : Bool :=
  let i := trigIn s n
  decide (i.filter.toNat ≤ width) && (if rising then i.edge.getLsbD 0 else i.edge.getLsbD 1)
    && i.last.all fun e => decide (e + 20 ≤ s.now)

/-- An edge at an input: the capture, and where it is captured the line trigger and the home edge it stands for. -/
def inputEdge (n : Nat) (rising : Bool) (width : Nat) (s : State) : State :=
  let t := captureEdge n rising width s
  if !edgeTaken n rising width s then t
  else
    let t := if rising then checkScript (homeEdge true n t) else t
    lineTrigger (16 + n) t

/-- TRIG_IN_CAPTURE (R233): an edge at an input; a falling edge of PPS_IN is one of input 8 (R235). -/
def execTrigInCapture (t : Ns) (input : Nat) (rising : Bool) (width : Nat) (s : State) :
    Host.Outcome State Fault Refusal :=
  .next (let s := passTo t s
         if input < 8 then inputEdge input rising width s
         else if input = 8 && !rising then captureEdge 8 false width s else s)

/-- PPS_IN_EDGE (R226, R235): a pulse that FILTER drops is no edge. Otherwise its offset from the nearest whole second, its capture as
input 8, and the servo with TIME_SOURCE PPS_IN. -/
def ppsIn (width : Nat) (s : State) : State :=
  if width < (trigIn s 8).filter.toNat then captureEdge 8 true width s
  else
    let r := s.now % 1000000000
    let off : Int := if r < 500000000 then (r : Int) else (r : Int) - 1000000000
    let s := setPps (fun p => { p with inOffset := off }) s
    let s := setClock (fun c => { c with ppsPresent := true, lastPps := some c.now }) s
    let s := captureEdge 8 true width s
    if s.prof.time.source = 1 then takeOffset off s else s

end Sys2Proof.Machine
end

