-- ==== Sys2Proof/Machine/Staging.lean ====
section
/-! DEFINITION. Staged configuration (R317 to R319). -/

namespace Sys2Proof.Machine

/-! ### Entries -/

/-- The state as it will be at a time, for a check that depends on it. -/
def asAt (t : Ns) (s : State) : State :=
  { s with time := { s.time with clock := { s.time.clock with now := t } } }

/-- The schedule of a staged TRIG_OUT_SET for a commit at `t`: its first edge lies at or after the tick. -/
def stagedSched (t : Ns) (out : Nat) (refPtp activeLow toggle : Bool) (fine period start width count : Nat) (s : State) :
    Except Nat TrigSched :=
  match refTime (!refPtp) start s with
  | none => .error stState
  | some st =>
    match trigCheck out fine period st width count refPtp activeLow toggle (asAt t s) with
    | none => .error stParam
    | some d => .ok d

/-- The check of a staged entry, `t` + 1 µs being the first instant at which it may act. An opcode that is not stageable and an
operand LAUNCH other than 0 are bad (R317, R417, R455, R484). -/
def stageCheck (t : Ns) (i : Instr) (s : State) : Nat :=
  match i with
  | .laneLimits _ mask mark jump _ _ _ _ => laneLimitsCheck mask mark jump s
  | .laneTrims _ mask _ _ _ _ _ => laneTrimsCheck mask s
  | .mereCoeff _ mask d _ _ _ _ => mereCoeffCheck mask d
  | .proxSepSet _ a b dist launch => if launch = 0 then proxSepCheck a b dist s else stParam
  | .proxZoneCtrl _ g mask launch => if launch = 0 then proxZoneCheck g mask s else stParam
  | .proxPlumeSet _ rule x y len half launch => if launch = 0 then proxPlumeCheck rule x y len half s else stParam
  | .trigOutSet _ out refPtp low toggle fine period start width count =>
    match stagedSched t out refPtp low toggle fine period start width count s with
    | .error e => e
    | .ok _ => stDone
  | .trigOutStop _ mask time =>
    let torOnes := (List.range 16).filter fun n => mask.getLsbD n && !(trigOut s n).sched.refPtp
    if time != 0 && !torOnes.isEmpty && s.jobs.tor.isNone then stState else stDone
  | .ppsOutCfg _ mode width => ppsOutCfgCheck mode width
  | .axisLimits _ _ _ _ _ _ => stDone
  | .cmpSet _ k _ _ enc pitch _ width => cmpSetCheck k enc pitch width s
  | .echoSet _ k _ enc n m => echoSetCheck k enc n m
  | .composeLayer _ scene layer visible _ _ _ addr => composeLayerCheck scene layer visible addr s
  | .displaySet _ scene => displaySetCheck scene s
  | .camExpCommit _ port launch => if launch = 0 then camCommitCheck port (camSettle s) else stParam
  | .camTrigger _ mask launch => if launch = 0 then camTriggerCheck mask (camSettle s) else stParam
  | .ledSet _ mask iSet _ launch => if launch = 0 then ledSetCheck mask iSet s else stParam
  | _ => stParam

/-- A staged TRIG_OUT_SET at the tick: an enabled output keeps its old edges until the new schedule's first (R231). -/
def applyTrigOutSet (n : Nat) (d : TrigSched) (s : State) : State :=
  if (trigOut s n).enable then setTrig n (fun o => { o with repl := some d }) s else installSched n d s

/-- A staged TRIG_OUT_STOP at the tick: at once, or at its own time, as one of the module's actions. -/
def applyTrigOutStop (mask : BitVec 16) (time : Nat) (s : State) : State :=
  (bitsOf 16 mask.toNat).foldl (fun s n =>
    let at_ := if time = 0 then some s.now else refTime (!(trigOut s n).sched.refPtp) time s
    match at_ with
    | none => s
    | some t =>
      let w := RippleWork.trigStop (BitVec.ofNat 16 (2 ^ n))
      if t ≤ s.now then stopTrig n s else if ripplePlace w s then postOwn w (tickAt t) s else s) s

/-- A staged entry takes effect at the commit tick, under its unit's rules (R319). -/
def stageApply (i : Instr) (s : State) : State :=
  match i with
  | .laneLimits _ mask mark jump clear a j v => applyLaneLimits mask mark jump clear { accel := a, jerk := j, speed := v } s
  | .laneTrims _ mask ox oy gx gy rot => markOverride 0 true (applyLaneTrims mask ox oy gx gy rot s)
  | .mereCoeff _ mask d r k w b => applyMereCoeff none mask { d := d, r := r, kDep := k, assimWeight := w, layerBlend := b } s
  | .proxSepSet _ a b dist _ => markOverride 4 true (applyProxSep a b dist s)
  | .proxZoneCtrl _ g mask _ => markOverride 4 true (applyProxZone g mask s)
  | .proxPlumeSet _ rule x y len half _ => markOverride 4 true (applyProxPlume rule x y len half s)
  | .trigOutSet _ out refPtp low toggle fine period start width count =>
    match stagedSched (s.now - 1000) out refPtp low toggle fine period start width count s with
    | .error _ => s
    | .ok d => applyTrigOutSet out d s
  | .trigOutStop _ mask time => applyTrigOutStop mask time s
  | .ppsOutCfg _ mode width => applyPpsOutCfg none mode width s
  | .axisLimits _ mask clear v a j => applyAxisLimits mask clear { speed := v, accel := a, jerk := j } s
  | .cmpSet _ k enable reverse enc pitch c width => markOverride 7 true (applyCmpSet k enable reverse enc pitch c width s)
  | .echoSet _ k enable enc n m => markOverride 7 true (applyEchoSet k enable enc n m s)
  | .composeLayer _ scene layer visible alpha x y addr => applyComposeLayer none scene layer visible alpha x y addr s
  | .displaySet _ scene => applyDisplaySet none scene s
  | .camExpCommit _ port _ => markOverride 7 true (applyCamCommit none port s.now s)
  | .camTrigger _ mask _ => applyCamTrigger none mask s.now s
  | .ledSet _ mask iSet duty _ => markOverride 7 true (applyLedSet none mask iSet duty s.now s)
  | _ => s

/-- The entry is an override (R320, R321, R417, R455). -/
def isOverride : Instr → Bool
  | .laneTrims _ _ _ _ _ _ _ => true
  | .mereCoeff _ _ _ _ _ _ _ => true
  | .proxSepSet _ _ _ _ _ => true
  | .proxZoneCtrl _ _ _ _ => true
  | .proxPlumeSet _ _ _ _ _ _ _ => true
  | .ppsOutCfg _ _ _ => true
  | .cmpSet _ _ _ _ _ _ _ _ => true
  | .echoSet _ _ _ _ _ _ => true
  | .camExpCommit _ _ _ => true
  | .ledSet _ _ _ _ _ => true
  | _ => false

/-- The units that an entry names (R318; log 6). -/
def entryTargets : Instr → List UnitId
  | .laneLimits _ mask _ _ _ _ _ _ => (lanesIn mask).map fun l => (0, l)
  | .laneTrims _ mask _ _ _ _ _ => (lanesIn mask).map fun l => (0, l)
  | .mereCoeff _ _ _ _ _ _ _ => [(17, 0)]
  | .proxSepSet _ _ _ _ _ => [(16, 0)]
  | .proxZoneCtrl _ _ _ _ => [(16, 0)]
  | .proxPlumeSet _ _ _ _ _ _ _ => [(16, 0)]
  | .trigOutSet _ _ _ _ _ _ _ _ _ _ => [(18, 0)]
  | .trigOutStop _ _ _ => [(18, 0)]
  | .ppsOutCfg _ _ _ => [(18, 0)]
  | .axisLimits _ mask _ _ _ _ => (axesIn mask).map fun a => (6, a)
  | .cmpSet _ _ _ _ enc _ _ _ => [(19, enc)]
  | .echoSet _ _ _ enc _ _ => [(19, enc)]
  | .composeLayer _ scene _ _ _ _ _ _ => [(21, scene)]
  | .displaySet _ _ => [(22, 0)]
  | .camExpCommit _ port _ => [(3, port)]
  | .camTrigger _ mask _ => (bitsOf 8 mask).map fun p => (3, p)
  | .ledSet _ mask _ _ _ => (bitsOf 16 mask).map fun c => (20, c)
  | _ => []

/-! ### CFG_STAGE (R317) -/

/-- The entries of a list of descriptors in Basin; the index of the first that is bad otherwise. -/
def readEntries (addr : Nat) (s : State) : Nat → Nat → Except Nat (List Instr)
  | 0, _ => .ok []
  | n + 1, k =>
    match decodeDescriptor 0 k k (memRead (addr + 64 * k) 64 s) with
    | none => .error k
    | some i =>
      if stageCheck s.now i s != stDone then .error k
      else match readEntries addr s n (k + 1) with
        | .error e => .error e
        | .ok is => .ok (i :: is)

/-- CFG_STAGE: the descriptors are appended, or the set is left as it is. -/
def startCfgStage (r : Ref) (set count list : Nat) (s : State) : State :=
  if 7 < set || count = 0 || 64 < count || list % 64 != 0 || !hostMem list (64 * count) s then endWith r stParam s
  else if (setsInCommit s).getLsbD set || decide (64 < (unit s.staging set []).length + count) then endWith r stBusy s
  else
    match poisonIn list (64 * count) s with
    | some a => endWith r stEcc (eccUe 33 a s)
    | none =>
      match readEntries list s count 0 with
      | .error k => finish r stParam k 0 s
      | .ok is => endWith r stDone { s with staging := modUnit s.staging set fun l => l ++ is }

def execCfgStage (h : Hdr) (set count list : Nat) (s : State) : Host.Outcome State Fault Refusal :=
  .next (postDescriptor (.cfgStage h set count list) h 0x03 (startCfgStage h.ref set count list) s)

/-! ### CFG_COMMIT (R318) -/

/-- The entries of the named sets in set order, and within a set in list order. -/
def commitEntries (sets : BitVec 8) (s : State) : List Instr := (bitsOf 8 sets.toNat).flatMap fun k => unit s.staging k []

/-- The first entry that is refused at posting, with its status. -/
def refusedEntry (t : Ns) (is : List Instr) (s : State) : Option (Nat × Nat) :=
  is.zipIdx.findSome? fun x => let st := stageCheck t x.1 s; if st = stDone then none else some (x.2, st)

/-- CFG_COMMIT: one Ripple action. -/
def startCfgCommit (r : Ref) (sets : BitVec 8) (refTor : Bool) (launch : Nat) (s : State) : State :=
  let named := bitsOf 8 sets.toNat
  if named.isEmpty || named.any fun k => (unit s.staging k []).isEmpty then endWith r stParam s
  else if setsInCommit s &&& sets != 0 then endWith r stBusy s
  else
    match if launch = 0 then some 0 else refTime refTor launch s with
    | none => endWith r stState s
    | some t =>
      let tick := (hostLaunch t s).1
      match refusedEntry (tick - 1000) (commitEntries sets s) s with
      | some (k, st) => finish r stState 0 (k + 2 ^ 32 * st) s
      | none => if ripplePlace (.cfgCommit sets) s then postHost (.cfgCommit sets) r t s else endWith r stBusy s

def execCfgCommit (h : Hdr) (sets : BitVec 8) (refTor : Bool) (launch : Nat) (s : State) : Host.Outcome State Fault Refusal :=
  .next (postDescriptor (.cfgCommit h sets refTor launch) h 0x04 (startCfgCommit h.ref sets refTor launch) s)

/-- The lanes of a mask that no BLOCK reset holds, by themselves, with their tarn or with their port (R568). -/
def liveLanes (s : State) (mask : BitVec 128) : BitVec 128 :=
  BitVec.ofNat 128 (maskOf ((lanesIn mask).filter fun l =>
    !(s.power.blockReset.contains (0, l) || s.power.blockReset.contains (1, l / 8) || s.power.blockReset.contains (2, (laneRec s l).port))))

/-- A target that acknowledged and then entered a BLOCK reset does not act (R238): what is left of an entry. -/
def liveEntry (s : State) (i : Instr) : Option Instr :=
  match i with
  | .laneLimits h mask mark jump clear a j v => some (.laneLimits h (liveLanes s mask) mark jump clear a j v)
  | .laneTrims h mask ox oy gx gy rot => some (.laneTrims h (liveLanes s mask) ox oy gx gy rot)
  | .axisLimits h mask clear v a j =>
    some (.axisLimits h (BitVec.ofNat 16 (maskOf ((axesIn mask).filter fun x => !s.power.blockReset.contains (6, x)))) clear v a j)
  | .camExpCommit h port launch => if s.power.blockReset.contains (3, port) then none else some (.camExpCommit h port launch)
  | .camTrigger h mask launch =>
    some (.camTrigger h (maskOf ((bitsOf 8 mask).filter fun p => !s.power.blockReset.contains (3, p))) launch)
  | i => some i

/-- The commit tick: every entry applies, the sets are emptied, and OVERRIDE_GEN counts once where an override is among them (R318,
R321). The number of entries comes with the state. -/
def commitActs (sets : BitVec 8) (s : State) : Nat × State :=
  let is := commitEntries sets s
  let live := is.filterMap (liveEntry s)
  let s := live.foldl (fun s i => stageApply i s) s
  let s := if live.any isOverride then countOverride s else s
  (is.length, { s with staging := s.staging.mapIdx fun k l => if sets.getLsbD k then [] else l })

end Sys2Proof.Machine
end

