-- ==== Sys2Proof/Machine/Views.lean ====
section
/-! DEFINITION. What registers and snapshots show of the units beyond the fields of State (R314 and the register tables). -/

namespace Sys2Proof.Machine

/-! ### Units -/

/-- A unit is held in reset or has not been resynchronised (R238, R562, R568): itself, or the tarn or the image pipeline that it belongs
to. -/
def unitDown (s : State) (u : UnitId) : Bool :=
  s.power.blockReset.any fun r => r == u || (u.1 == 0 && r == (1, u.2 / 8)) || (u.1 == 3 && r.1 == 4)

/-! ### Lanes (R58, R95, R111, R195) -/

/-- A change of limits waits (R111). -/
def Lane.limitDeferred (x : Lane) : Bool := x.deferMark.isSome || x.deferJump.isSome

/-- A LANE_LIMITS override is in force (TARN_LANE_STAT). -/
def Lane.limitOverride (x : Lane) : Bool := x.ovrMark.isSome || x.ovrJump.isSome

/-- The hold time of the layer so far in ns, that of the open hold with it. -/
def holdSoFar (now : Ns) (x : Lane) : Nat := x.holdNs + match x.hold with | some h => now - h.planned | none => 0

/-- A blend is in progress (R130). -/
def Lane.blending (x : Lane) : Bool := x.map.blend.any fun b => b.start.isSome

/-- The beam-on flag of the set-point at the head. -/
def beamOnAt (x : Lane) (t : Ns) : Bool := (flightAt x t).any fun p => p.on

/-- The integer part of I (R148). -/
def Loop.integPart (x : Loop) : Int := x.integ / 8388608

/-- The effective limits of a class (R104) at the record that the lane is issuing, or where it is issuing none as its stream stands. -/
def laneLimitsNow (x : Lane) (mark : Bool) : Limits :=
  match x.plan.find? fun r => r.index = x.issueIndex with
  | some r => classLimits r.set mark r.g (x.ovrAt r.idx).ovrMark (x.ovrAt r.idx).ovrJump
  | none => classLimits (x.sets.getD x.cur.set .none) mark x.cur x.ovrMark x.ovrJump

/-- A lane is in the lane map with its node enumerated (TARN_STAT). -/
def lanePresent (s : State) (l : Nat) : Bool := laneMapped s l && (beamNode s l).isSome

/-! ### Mere (MERE_STATS) -/

/-- The smallest, largest and mean cell of the front buffer and the lowest index of the largest. -/
structure FieldStats where
  min : Nat
  max : Nat
  mean : Nat
  hot : Nat
deriving DecidableEq, Repr

/-- The statistics of the front buffer; a Mere that has not started has none. -/
def mereStats (m : Mere) : FieldStats :=
  match m.front with
  | [] => { min := 0, max := 0, mean := 0, hot := 0 }
  | c :: cs =>
    let big := cs.foldl max c
    { min := cs.foldl min c, max := big, mean := roundDivN (cs.foldl (· + ·) c) m.front.length
      hot := m.front.findIdx fun x => x == big }

/-- MERE_STATS reads 0 until Mere runs. -/
def mereShown (s : State) : FieldStats := mereStats s.mere

/-- The effective step period in µs (R172). -/
def merePeriod (m : Mere) : Nat := if m.coarse then 2 * m.tU else m.tU

/-! ### Ports (R254, R272) -/

/-- Upstream FB and NODE blocks of the busiest cycle. -/
def upFixed (nodes : List Node) : Nat := (List.range 32).foldl (fun m c => max m (upLoad nodes c).1) 0

/-- The sum of FB_MISSING over the nodes, what reads have cleared with it. -/
def missingSum (q : Port) : Nat := q.nodes.foldl (fun n x => n + x.fbMissing.toNat + x.readMissing) 0

/-! ### Axes and encoders -/

/-- An axis has a latched change of limits (R393). -/
def Axis.limitDeferred (x : Axis) : Bool := x.latched.isSome

/-- An axis moves (AXES_STAT). -/
def Axis.moves (x : Axis) : Bool := x.state == .moving || x.state == .stopping

end Sys2Proof.Machine
end

