-- ==== Sys2Proof/Machine/Snapshot.lean ====
section
/-! DEFINITION. Snapshots: what a latch takes, and the publication (R313 to R316). -/

namespace Sys2Proof.Machine

/-! ### The entries (R314) -/

/-- The entry of a lane at a tick. -/
def laneSnap (s : State) (tick : Ns) (l : Nat) : List Byte :=
  let x := laneOf s l
  let p := flightAt x tick
  let flags := 1 + 2 * b1 x.slot + 4 * b1 (s.jobs.excluded.getLsbD l) + 8 * b1 x.limitDeferred + 16 * b1 (beamOnAt x tick) + 32 * b1 x.hold.isSome
    + 64 * b1 x.loop.stale + 128 * b1 x.blending
  natLE 1 x.state.code ++ natLE 1 flags ++ natLE 1 (effPrio s l) ++ natLE 1 x.code ++ natLE 4 x.issueIndex
  ++ (match p with | some p => intLE 4 p.planX ++ intLE 4 p.planY ++ natLE 2 p.cmd | none => List.replicate 10 0)
  ++ intLE 2 x.loop.trim ++ natLE 2 x.loop.sig ++ natLE 2 x.loop.tPred ++ intLE 4 x.loop.integPart
  ++ natLE 4 (satU 32 ((holdSoFar tick x / 1000 : Nat) : Int)).toNat ++ natLE 4 x.setpoints.toNat ++ intLE 4 x.mirX ++ intLE 4 x.mirY
  ++ natLE 2 x.pdA ++ natLE 2 x.pdB ++ natLE 4 (max x.fePeak.toNat x.readFe)
  ++ natLE 2 (min 65535 (x.underrun.toNat + x.readUnderrun)) ++ natLE 2 (min 65535 (x.verdictLate.toNat + x.readVerdictLate))
  ++ natLE 2 (min 65535 (x.dropouts.toNat + x.readDropouts)) ++ natLE 2 (min 65535 (x.anomRecords.toNat + x.readAnom)) ++ natLE 4 0

/-- The entry of an axis. -/
def axisSnap (s : State) (a : Nat) : List Byte :=
  let x := axisOf s a
  natLE 1 (1 + 2 * b1 x.moves + 4 * b1 x.limitDeferred + 8 * b1 (x.state == .fault)) ++ natLE 3 0 ++ intLE 8 x.pos ++ intLE 4 (axisSpeed s a)

/-- The entry of an encoder channel. -/
def encSnap (s : State) (e : Nat) : List Byte :=
  let x := encOf s e
  natLE 1 (1 + 2 * b1 x.valid + 4 * b1 x.reverse + 8 * b1 (x.faults != 0)) ++ natLE 3 0 ++ intLE 8 x.ext ++ intLE 4 (encSpeed s e)

/-- The entry of a Spring Link port. -/
def portSnap (s : State) (p : Nat) : List Byte :=
  let q := portOf s p
  natLE 1 1 ++ natLE 1 q.link.toNat ++ natLE 1 (nodeCount s p) ++ natLE 1 0
  ++ natLE 4 (min 0xFFFFFFFF (q.blockErr.toNat + q.readBlockErr)) ++ natLE 4 (min 0xFFFFFFFF (missingSum q))
  ++ natLE 4 (min 0xFFFFFFFF (q.killsSent.toNat + q.readKills)) ++ natLE 4 (min 0xFFFFFFFF (q.nodeLosses.toNat + q.readLosses))
  ++ natLE 4 (min 0xFFFFFFFF (q.svcTimeouts.toNat + q.readTimeouts)) ++ natLE 8 0

/-- The entry of a camera port. -/
def camSnap (s : State) (p : Nat) : List Byte :=
  let x := camOf s p
  natLE 1 1 ++ natLE 3 0 ++ natLE 4 x.frames.toNat ++ natLE 4 x.lastFrame.toNat ++ natLE 4 x.expGen.toNat ++ natLE 4 x.truncated.toNat
  ++ natLE 4 x.overlong.toNat ++ natLE 4 x.dropped.toNat ++ natLE 4 0

/-- The Mere section. -/
def mereSnap (s : State) : List Byte :=
  let m := s.mere
  let f := mereShown s
  natLE 1 (1 + 2 * b1 m.coarse) ++ natLE 7 0 ++ natLE 8 m.step ++ natLE 2 f.min ++ natLE 2 f.max ++ natLE 2 f.mean ++ natLE 2 0
  ++ natLE 4 f.hot ++ natLE 4 m.depReports.toNat ++ natLE 2 (min 65535 (m.overrun.toNat + m.readOverrun))
  ++ natLE 2 (min 65535 (m.depMerged.toNat + m.readMerged)) ++ natLE 28 0

/-- The Time section. -/
def timeSnap (s : State) : List Byte :=
  let c := s.time.clock
  natLE 1 1 ++ natLE 1 c.state.code ++ natLE 2 0 ++ natLE 4 c.etb.toNat ++ intLE 4 (satS 32 c.offset) ++ intLE 4 c.freqAdj ++ natLE 16 0

/-! ### The latch (R312, R313, R315) -/

/-- The entries of a section, in unit order: the kind of its units (log 6), how many entries, how many of them are present on the variant,
the size of an entry, and what an entry holds. -/
structure Section where
  kind : Nat
  count : Nat
  present : Nat
  size : Nat
  entry : Nat → List Byte

/-- The sections after the header. -/
def snapSections (s : State) (tick : Ns) : List Section :=
  [{ kind := 0, count := 128, present := s.variant.lanes, size := 64, entry := laneSnap s tick },
   { kind := 6, count := 16, present := 16, size := 16, entry := axisSnap s },
   { kind := 19, count := 16, present := 16, size := 16, entry := encSnap s },
   { kind := 2, count := 32, present := s.variant.ports, size := 32, entry := portSnap s },
   { kind := 3, count := 8, present := s.variant.cameras, size := 32, entry := camSnap s },
   { kind := 17, count := 1, present := 1, size := 64, entry := fun _ => mereSnap s },
   { kind := 18, count := 1, present := 1, size := 32, entry := fun _ => timeSnap s }]

/-- A unit of a section whose entry is not valid: missing at the tick (R315). -/
def snapMissing (missing : List UnitId) (s : State) (u : UnitId) : Bool := missing.contains u || unitDown s u

/-- The bytes of a section. -/
def Section.bytes (missing : List UnitId) (s : State) (c : Section) : List Byte :=
  (List.range c.count).flatMap fun i =>
    if i < c.present && !snapMissing missing s (c.kind, i) then padTo c.size (c.entry i) else List.replicate c.size 0

/-- The entries of present units that are not valid. -/
def Section.invalid (missing : List UnitId) (s : State) (c : Section) : Nat :=
  (List.range c.present).countP fun i => snapMissing missing s (c.kind, i)

/-- LATCH_TOR of a snapshot. -/
def latchTor (s : State) (tick : Ns) : List Byte :=
  match s.jobs.tor with | some tor => intLE 8 ((tick : Int) - (tor : Int)) | none => List.replicate 8 0xFF

/-- The header after HEAD_GEN. -/
def snapHeader (s : State) (tick kind invalid : Nat) : List Byte :=
  natLE 8 tick ++ latchTor s tick ++ natLE 4 s.jobs.jobId.toNat ++ natLE 4 s.jobs.layerIndex.toNat ++ natLE 1 s.jobs.state.toNat
  ++ natLE 1 kind ++ natLE 2 invalid ++ natLE 4 s.override.gen.toNat ++ natLE 4 s.still.periodUs.toNat ++ natLE 2 1 ++ natLE 18 0

/-- The image of a snapshot between HEAD_GEN and TAIL_GEN, with INVALID. -/
def snapImage (s : State) (tick kind : Nat) (missing : List UnitId) : List Byte × Nat :=
  let cs := snapSections s tick
  let invalid := (cs.map fun c => c.invalid missing s).foldl (· + ·) 0
  (snapHeader s tick kind invalid ++ (cs.flatMap fun c => c.bytes missing s) ++ List.replicate 88 0, invalid)

/-! ### SNAPSHOT_PUBLISH (R316) -/

/-- The latched snapshot goes into its buffer under the next generation, STILL_GEN takes it and vector 32 fires; the requests that joined it
complete with it (R312). -/
def publishSnapshot (s : State) : State :=
  match s.still.latched with
  | none => s
  | some x =>
    let g := s.still.gen.toNat + 1
    let s := memWrite 33 (s.still.base.toNat + 0x4000 * (g % 2)) (natLE 8 g ++ x.image ++ natLE 8 g) s
    let st := s.still
    let st := { st with
      gen := BitVec.ofNat 64 g, latched := none, withInvalid := if x.invalid = 0 then st.withInvalid else satInc st.withInvalid }
    x.joined.foldl (fun s r => finish r stDone 0 g s) (fireVector 32 { s with still := st })

def execSnapshotPublish (t : Ns) (s : State) : Host.Outcome State Fault Refusal := .next (publishSnapshot (passTo t s))

/-- A latch at `tick`: the periodic one, or the demand latch (R311, R312). A region that has been taken away has no
snapshot: its requests end with REJECTED_STATE. -/
def latchSnapshot (tick : Ns) (periodic : Bool) (missing : List UnitId) (s : State) : State :=
  let s := publishSnapshot s
  let refs := if periodic then s.still.joined else s.still.demand
  let st := s.still
  let st := if periodic then { st with joined := st.joinedNext, joinedNext := [] } else { st with demand := [], demandAt := none }
  let s := { s with still := st }
  if !s.still.regionSet then refs.foldl (fun s r => endWith r stState s) s
  else
    let kind := b1 periodic + 2 * b1 (!periodic || !refs.isEmpty)
    let (image, invalid) := snapImage s tick kind missing
    let latched : Latched := { image := image, invalid := invalid, joined := refs }
    let st := s.still
    let s := { s with still := { st with latched := some latched, lastLatch := some tick } }
    if periodic then schedulePeriodic (tick + 1) s else s

end Sys2Proof.Machine
end

