-- ==== Sys2Proof/Machine/RippleFire.lean ====
section
/-! DEFINITION. Ripple actions fire, or are cancelled for a missing target (R236 to R241). -/

namespace Sys2Proof.Machine

/-! ### Firing (R239) -/

/-- An action goes before another: the earlier launch, then the order of the kinds. -/
def RippleAction.before (a b : RippleAction) : Bool :=
  decide (a.launch < b.launch) || (a.launch == b.launch && decide (a.work.rank < b.work.rank))

/-- The place of the action that is due first; among equals the one posted earlier. -/
def firstDue (now : Ns) (as : List RippleAction) : Option (Nat × RippleAction) :=
  as.zipIdx.foldl (fun best x =>
    if now < x.1.launch then best
    else match best with
      | none => some (x.2, x.1)
      | some b => if x.1.before b.2 then some (x.2, x.1) else best) none

/-- The descriptor of an action completes, with LATE where it fired late (R236, R318). -/
def actionDone (a : RippleAction) (detail data : Nat) (s : State) : State :=
  match a.tk with
  | some r => finishAs r none a.late (if a.late then stDoneNote else stDone) detail data s
  | none => s

/-- A rule change is DONE at the guard tick that applies it, late or not (R210). -/
def ruleDone (a : RippleAction) (s : State) : State :=
  match a.tk with
  | some r => finishAs r none a.late stDone 0 0 s
  | none => s

/-- What an action does at its tick. -/
def fireWork (a : RippleAction) (s : State) : State :=
  match a.work with
  | .snapshot periodic _ => latchSnapshot a.launch periodic a.missing s
  | .cfgCommit sets => let r := commitActs sets s; actionDone a r.1 a.launch r.2
  | .proxSep x y d => ruleDone a (bumpOverride 4 true (applyProxSep x y d s))
  | .proxZone g m => ruleDone a (bumpOverride 4 true (applyProxZone g m s))
  | .proxPlume r x y len half => ruleDone a (bumpOverride 4 true (applyProxPlume r x y len half s))
  | .trigOut n d => actionDone a 0 0 (setTrig n (fun o => { o with late := a.late }) (installSched n d s))
  | .trigStop mask => settleStops ((bitsOf 16 mask.toNat).foldl (fun s n => stopTrig n s) s)
  | .calStart kind us => calStarts kind us s
  | .layerStart i => layerStart i s
  | .syncRelease _ => s

/-- One action leaves Ripple and acts. -/
def fireOne (i : Nat) (a : RippleAction) (s : State) : State :=
  let s := setRipple (fun r => { r with
    actions := r.actions.eraseIdx i, fired := r.fired + 1, lastTick := BitVec.ofNat 64 a.launch
    late := if a.late then satInc r.late else r.late }) s
  fireWork a s

/-- The actions that are due act, one after another. -/
def fireDue : Nat → State → State
  | 0, s => s
  | n + 1, s => match firstDue s.now (actions s) with
    | none => s
    | some (i, a) => fireDue n (fireOne i a s)

/-- A periodic latch that was skipped is followed by the next one (R240, R311). -/
def renewPeriodic (s : State) : State :=
  let posted := (actions s).any fun a => match a.work with | .snapshot true _ => true | _ => false
  if s.still.regionSet && !posted && (s.still.nextTick.any fun t => decide (t ≤ s.now)) then schedulePeriodic (s.now + 1000) s else s

/-- RIPPLE_FIRE: at the tick the pending actions of that tick act in kind order. A job that waits for R32 is looked at anew, since a zone
rule may have changed (R38). -/
def rippleFire (s : State) : State := tryStart (renewPeriodic (fireDue (actions s).length s))

def execRippleFire (t : Ns) (s : State) : Host.Outcome State Fault Refusal := .next (rippleFire (passTo t s))

/-! ### Missing targets (R238) -/

/-- The unit of a calibration (R520; log 6). -/
def calUnitId (kind u : Nat) : UnitId :=
  match kind with
  | 0 => (0, u)
  | 1 => (0, u)
  | 2 => (0, u)
  | 3 => (2, u)
  | 4 => (23, u)
  | 5 => (24, u)
  | _ => (18, 0)

/-- The units that an action names. -/
def actionNames (s : State) (u : UnitId) : RippleWork → Bool
  | .snapshot _ _ => (snapSections s s.now).any fun c => c.kind == u.1 && decide (u.2 < c.present)
  | .cfgCommit sets => (commitEntries sets s).any fun i => (entryTargets i).contains u
  | .proxSep _ _ _ => u == (16, 0)
  | .proxZone _ _ => u == (16, 0)
  | .proxPlume _ _ _ _ _ => u == (16, 0)
  | .trigOut _ _ => u == (18, 0)
  | .trigStop _ => u == (18, 0)
  | .calStart kind us => us.any fun x => calUnitId kind x == u
  | .layerStart i => u.1 == 0 && (layerOf s i).any fun x => x.mask.getLsbD u.2
  | .syncRelease id => u.1 == 0 && s.jobs.syncs.any fun p => p.id == id && p.lanes.getLsbD u.2

/-- The kind fires although a target is missing. -/
def RippleWork.firesAnyway : RippleWork → Bool
  | .snapshot _ _ => true
  | .layerStart _ => true
  | .syncRelease _ => true
  | _ => false

/-- The descriptor of a cancelled action ends with DOMAIN_RESET. -/
def cancelDone (a : RippleAction) (s : State) : State :=
  match a.tk with
  | none => s
  | some r =>
    let s := { s with time := { s.time with stops := s.time.stops.filter fun x => x.1 != r } }
    endWith r stReset s

/-- The calibrations of a cancelled CAL_START wait for the next gap (R238). -/
def skipGap (kind : Nat) (us : List Nat) (s : State) : State :=
  setHk (fun h => { h with
    waits := h.waits.map fun w => if w.kind = kind && us.contains w.unit then { w with skip := true } else w }) s

/-- RIPPLE_CANCEL: target `miss` of the n-th pending action has not acknowledged by launch − 200 ns. The action is cancelled everywhere
and RIPPLE_CANCELLED names it, unless its kind fires without the target. -/
def rippleCancel (n : Nat) (miss : UnitId) (s : State) : State :=
  match (actions s)[n]? with
  | none => s
  | some a =>
    if !actionNames s miss a.work || decide (s.now + 200 < a.launch) then s
    else if a.work.firesAnyway then
      setRipple (fun r => { r with actions := r.actions.modify n fun a => { a with missing := a.missing ++ [miss] } }) s
    else
      let s := setRipple (fun r => { r with actions := r.actions.eraseIdx n, cancelled := satInc r.cancelled }) s
      let s := cancelDone a s
      let s := match a.work with
        | .calStart kind us => skipGap kind us s
        | _ => s
      raise 0x500D (natLE 1 a.work.code ++ natLE 8 a.launch ++ natLE 1 miss.1 ++ natLE 1 miss.2) s

def execRippleCancel (t : Ns) (n : Nat) (miss : UnitId) (s : State) : Host.Outcome State Fault Refusal :=
  .next (rippleCancel n miss (passTo t s))

end Sys2Proof.Machine
end

