-- ==== Sys2Proof/Machine/Fetch.lean ====
section
/-! DEFINITION. The fetch of descriptors from the command rings (R22, R298 to R301, R343). -/

namespace Sys2Proof.Machine

/-- What starting an accepted descriptor does; a command of no ring does nothing here. -/
def startDescriptor (i : Instr) (s : State) : State :=
  match i with
  | .nop h => startNop h.ref s
  | .fence h scope holdRing => startFence h.ref scope holdRing s
  | .snapshotNow h => startSnapshotNow h.ref s
  | .cfgStage h set count list => startCfgStage h.ref set count list s
  | .cfgCommit h sets refTor launch => startCfgCommit h.ref sets refTor launch s
  | .heartbeat h => startHeartbeat h.ref s
  | .cfgAbort h sets => startCfgAbort h.ref sets s
  | .snapshotCfg h setBase setPeriod base period => startSnapshotCfg h.ref setBase setPeriod base period s
  | .eventRing h base size => startEventRing h.ref base size s
  | .eventRoute h lo hi vec => startEventRoute h.ref lo hi vec s
  | .jobStart h addr => startJobStart h.ref addr s
  | .jobEnd h mode => startJobEnd h.ref mode s
  | .layerQueue h addr => startLayerQueue h.ref addr s
  | .layerCancel h fromIndex => startLayerCancel h.ref fromIndex s
  | .jobHold h => startJobHold h.ref s
  | .jobResume h mode => startJobResume h.ref mode s
  | .laneReenable h mask => startLaneReenable h.ref mask s
  | .markQueue h lane product addr result count => startMarkQueue h.ref lane product addr result count s
  | .laneLimits h mask mark jump clear accel jerk speed => startLaneLimits h.ref mask mark jump clear accel jerk speed s
  | .laneTrims h mask ofsX ofsY gainX gainY rot => startLaneTrims h.ref mask ofsX ofsY gainX gainY rot s
  | .laneGridLoad h lane set addr => startLaneGridLoad h.ref lane set addr s
  | .mereSaveCfg h base size count => startMereSaveCfg h.ref base size count s
  | .mereSaveNow h tag => startMereSaveNow h.ref tag s
  | .mereFieldSet h mode value addr => startMereFieldSet h.ref mode value addr s
  | .mereCoeff h mask d r kDep assimWeight layerBlend => startMereCoeff h.ref mask d r kDep assimWeight layerBlend s
  | .loopCurveLoad h curve addr => startLoopCurveLoad h.ref curve addr s
  | .proxSepSet h a b dist launch => startProx h.ref (proxSepCheck a b dist s) launch (.proxSep a b dist) s
  | .proxZoneCtrl h group mask launch => startProx h.ref (proxZoneCheck group mask s) launch (.proxZone group mask) s
  | .proxPlumeSet h rule dirX dirY len half launch =>
    startProx h.ref (proxPlumeCheck rule dirX dirY len half s) launch (.proxPlume rule dirX dirY len half) s
  | .trigOutSet h out refPtp activeLow toggle fine period start width count =>
    startTrigOutSet h.ref out refPtp activeLow toggle fine period start width count s
  | .trigOutStop h mask time => startTrigOutStop h.ref mask time s
  | .trigInCfg h input edge filter enc => startTrigInCfg h.ref input edge filter enc s
  | .trigInRing h base size => startTrigInRing h.ref base size s
  | .timeSet h _ ns sec => startTimeSet h.ref ns sec s
  | .ppsOutCfg h mode width => startPpsOutCfg h.ref mode width s
  | .axisMove h axis relative refPtp target speed accel jerk launch =>
    startAxisMove h.ref axis relative refPtp target { speed := speed, accel := accel, jerk := jerk } launch s
  | .axisLimits h mask clear speed accel jerk => startAxisLimits h.ref mask clear { speed := speed, accel := accel, jerk := jerk } s
  | .axisStop h mask emergency => startAxisStop h.ref mask emergency s
  | .axisEnable h mask values => startAxisEnable h.ref mask values s
  | .axisHome h axis down source chan speed pos limit => startAxisHome h.ref axis down source chan speed pos limit s
  | .axisSetPos h axis pos => startAxisSetPos h.ref axis pos s
  | .encPreset h mask ext => startEncPreset h.ref mask ext s
  | .cmpSet h cmp enable reverse enc pitch c width => startCmpSet h.ref cmp enable reverse enc pitch c width s
  | .echoSet h out enable enc n m => startEchoSet h.ref out enable enc n m s
  | .faultClear h axisMask encMask hallMask => startFaultClear h.ref axisMask encMask hallMask s
  | .camStream h port run => startCamStream h.ref port run s
  | .camExpWrite h port len start mode count addr => startCamExpWrite h.ref port len start mode count addr s
  | .camExpCommit h port launch => startCamExpCommit h.ref port launch s
  | .camTrigger h mask launch => startCamTrigger h.ref mask launch s
  | .camCci h port write wide reg value => startCamCci h.ref port write wide reg value s
  | .camRing h port base size slots => startCamRing h.ref port base size slots s
  | .ledSet h mask iSet duty launch => startLedSet h.ref mask iSet duty launch s
  | .ledMatrixWrite h addr => startLedMatrixWrite h.ref addr s
  | .ledFaultClear h mask segments => startLedFaultClear h.ref mask segments s
  | .colorTarget h channel target => startColorTarget h.ref channel target s
  | .zipEncode h channel kind format flags width addr len out size =>
    startZipEncode h.ref channel kind format flags width addr len out size s
  | .zipOpen h channel kind format flags width out size => startZipOpen h.ref channel kind format flags width out size s
  | .zipFeed h channel flags addr len => startZipFeed h.ref channel flags addr len s
  | .zipFlush h channel => startZipFlush h.ref channel s
  | .zipDecode h channel flags addr len out limit => startZipDecode h.ref channel flags addr len out limit s
  | .composeScene h scene addr => startComposeScene h.ref scene addr s
  | .composeRun h scene launch => startComposeRun h.ref scene launch s
  | .composeStop h scene => startComposeStop h.ref scene s
  | .composeLayer h scene layer visible alpha dstX dstY addr => startComposeLayer h.ref scene layer visible alpha dstX dstY addr s
  | .displaySet h scene => startDisplaySet h.ref scene s
  | .basinCopy h chan src dst len => startBasinCopy h.ref chan src dst len s
  | .basinFill h chan pattern dst len => startBasinFill h.ref chan pattern dst len s
  | .basinRetain h mask => startBasinRetain h.ref mask s
  | .calRequest h kind immediate mask => startCalRequest h.ref kind immediate mask s
  | .calCancel h kind mask => startCalCancel h.ref kind mask s
  | .hkThrottleFloor h level => startHkThrottleFloor h.ref level s
  | .recRecordNow h => startRecRecordNow h.ref s
  | .recChallenge h => startRecChallenge h.ref s
  | .recClear h token => startRecClear h.ref token s
  | .recProvision h addr => startRecProvision h.ref addr s
  | .splIoWrite h node entries applyAt => startSplIoWrite h.ref node entries applyAt s
  | .splIoRead h node first count addr => startSplIoRead h.ref node first count addr s
  | .splObjRead h node index offset count addr => startSplObjRead h.ref node index offset count addr s
  | .splObjWrite h node index offset count addr => startSplObjWrite h.ref node index offset count addr s
  | .splRescan h mask => startSplRescan h.ref mask s
  | .splNodeReset h node => startSplNodeReset h.ref node s
  | .splIoRing h base size => startSplIoRing h.ref base size s
  | _ => s

/-- The descriptors that waited for a profile start, in the order of their fetch (R343). -/
def startWaiting (s : State) : State := s.waiting.foldl (fun s i => startDescriptor i s) { s with waiting := [] }

/-- Every condition of a fetch from ring r holds (R300, R307); an entry to STANDBY or HIBERNATE stops fetch (R575). -/
def mayFetch (s : State) (r : Nat) : Bool :=
  s.power.state == .on && s.power.entry == 0 && ringReady s r && cqFree s (cmdRing s r).cq.toNat

/-- The ring to fetch from: the one in turn for at most four descriptors, then the next round-robin (R300). -/
def fetchRing (s : State) : Option (Nat × Nat) :=
  let q := s.hostq
  if q.rrTaken < 4 && mayFetch s q.rrRing then some (q.rrRing, q.rrTaken + 1)
  else (((List.range 64).map fun k => (q.rrRing + 1 + k) % 64).find? fun r => mayFetch s r).map fun r => (r, 1)

/-- One descriptor of ring r is read once and started, or ends at once with REJECTED_PARAM or ECC_UNCORRECTABLE (R301, R504). -/
def fetchFrom (r : Nat) (s : State) : State :=
  let c := cmdRing s r
  let k := c.head.toNat % c.size
  let a := c.base.toNat + 64 * k
  let b := memRead a 64 s
  let h := descriptorHdr r k c.fetched b
  let op := field b 0 1
  let s := setCmd r (fun c => { c with head := BitVec.ofNat 12 ((k + 1) % c.size), fetched := c.fetched + 1 }) (touchBasin a 64 s)
  match poisonIn a 64 s with
  | some e => endWith h.ref stEcc (eccUe 33 e (accept h op s))
  | none =>
    match decodeDescriptor r k c.fetched b with
    | none => endWith h.ref stParam (accept h op s)
    | some i => postDescriptor i h op (startDescriptor i) s

/-- DESCRIPTOR_FETCH: one descriptor is fetched where one may be (R22, R300). -/
def descriptorFetch (s : State) : State :=
  if 512 ≤ s.hostq.outstanding.length then trackStalls s
  else
    match fetchRing s with
    | none => trackStalls s
    | some (r, n) => trackStalls (fetchFrom r { s with hostq := { s.hostq with rrRing := r, rrTaken := n } })

def execDescriptorFetch (t : Ns) (s : State) : Host.Outcome State Fault Refusal := .next (descriptorFetch (passTo t s))

end Sys2Proof.Machine
end

