-- ==== Sys2Proof/Machine/GuardTick.lean ====
section
/-! DEFINITION. GUARD_TICK: the guard tick with what falls on the same instant before it (R209, R214, R243). -/

namespace Sys2Proof.Machine

/-- Rule changes that launch at a guard tick serve its judgement, with every action that goes before them (R209, R239). -/
def rulesFirst (s : State) : State :=
  if (actions s).any fun a => a.work.code == 3 && decide (a.launch ≤ s.now) then rippleFire s else s

/-- E_T is renewed every 1 ms, and a new one serves the judgement of its instant (R223, R243). -/
def boundFirst (s : State) : State := if s.now % 1000000 = 0 then qualityUpdate s else s

/-- GUARD_TICK: at a whole multiple of 5 µs the arbiter judges (R181, R214). -/
def guardAt (s : State) : State := if s.now % 5000 = 0 then guardTick (boundFirst (rulesFirst s)) else s

def execGuardTick (t : Ns) (s : State) : Host.Outcome State Fault Refusal := .next (guardAt (passTo t s))

end Sys2Proof.Machine
end

