-- ==== Sys2Proof/Machine/CfgTable.lean ====
section
/-! DEFINITION. Which fields of which registers a BLOCK_CFG record may name, and what they accept (R379, R380). -/

namespace Sys2Proof.Machine

/-- A field of one register of each of `n` units `stride` apart: its lowest bit, its width and the values it accepts. -/
structure CfgField where
  base : Nat
  stride : Nat
  n : Nat
  lo : Nat
  w : Nat
  min : Nat
  max : Nat
deriving DecidableEq, Repr

/-- A field that accepts every value. -/
def anyField (base stride n lo w : Nat) : CfgField := { base := base, stride := stride, n := n, lo := lo, w := w, min := 0, max := 2 ^ w - 1 }

/-- A field with a range. -/
def rangeField (base stride n lo w min max : Nat) : CfgField :=
  { base := base, stride := stride, n := n, lo := lo, w := w, min := min, max := max }

/-- `k` whole registers in a row, of each of n units. -/
def wordFields (base k stride n : Nat) : List CfgField := (List.range k).map fun i => anyField (base + 4 * i) stride n 0 32

/-- SPL_PORT_TX (R280). -/
def splFields : List CfgField := [anyField 0x400008 0x8000 32 0 2, rangeField 0x400008 0x8000 32 4 3 0 6]

/-- AXES_CFG and AXES_SCRIPT (R386, R400). -/
def axesFields : List CfgField :=
  [rangeField 0x600000 0x100 16 0 10 1 1000, rangeField 0x600000 0x100 16 10 8 1 255, anyField 0x600000 0x100 16 18 1,
   anyField 0x600000 0x100 16 19 1, anyField 0x600000 0x100 16 20 1, anyField 0x600000 0x100 16 21 4,
   rangeField 0x600004 0x100 16 0 32 1 4000000, rangeField 0x600008 0x100 16 0 32 1 0xFFFFFFFF,
   rangeField 0x60000C 0x100 16 0 32 1 0xFFFFFFFF, rangeField 0x600010 0x100 16 0 32 1 0xFFFFFFFF,
   rangeField 0x600014 0x100 16 0 32 1 0xFFFFFFFF]
  ++ wordFields 0x600018 6 0x100 16
  ++ [anyField 0x601000 0x10 16 0 4, rangeField 0x601000 0x10 16 4 2 0 2, anyField 0x601000 0x10 16 6 1,
      anyField 0x601000 0x10 16 8 8, anyField 0x601000 0x10 16 16 16, anyField 0x601004 0x10 16 0 32,
      rangeField 0x601008 0x10 16 0 32 0 4000000]

/-- ENC_CFG, ENC_HALL, ENC_CMP and ENC_ECHO (R402 to R414). SSI is for channels 0 to 7 (R406). -/
def encFields : List CfgField :=
  [rangeField 0x640000 0x100 8 0 2 0 2, rangeField 0x640800 0x100 8 0 2 0 1, anyField 0x640000 0x100 16 2 8,
   rangeField 0x640000 0x100 16 10 8 1 255, anyField 0x640000 0x100 16 18 2, anyField 0x640000 0x100 16 20 1,
   anyField 0x640000 0x100 16 24 8, anyField 0x640004 0x100 16 0 16, rangeField 0x640008 0x100 16 0 32 1 0x80000000,
   rangeField 0x64000C 0x100 16 0 16 1 1000, rangeField 0x64000C 0x100 16 16 16 100 10000, anyField 0x640010 0x100 16 0 32,
   rangeField 0x640014 0x100 16 0 6 10 32, anyField 0x640014 0x100 16 6 1, rangeField 0x640014 0x100 16 8 10 10 200,
   rangeField 0x640014 0x100 16 18 14 1 1000, anyField 0x641000 0x40 8 0 8, rangeField 0x641000 0x40 8 8 16 1 1000,
   anyField 0x642000 0x40 16 0 1, anyField 0x642000 0x40 16 1 1, anyField 0x642000 0x40 16 4 4,
   rangeField 0x642000 0x40 16 16 16 1 65535, rangeField 0x642004 0x40 16 0 31 1 0x7FFFFFFF]
  ++ wordFields 0x642008 2 0x40 16
  ++ [anyField 0x643000 0x40 4 0 1, anyField 0x643000 0x40 4 4 4, rangeField 0x643004 0x40 4 0 16 1 65535,
      rangeField 0x643004 0x40 4 16 16 1 65535]

/-- CAM_CFG and CAM_SET0 (R419 to R431). LAT_FRAMES is 1 to 8 in three bits, so it accepts every code (log 70). -/
def camFields : List CfgField :=
  [rangeField 0x700000 0x10000 8 0 3 1 4, anyField 0x700000 0x10000 8 3 2, rangeField 0x700000 0x10000 8 5 6 0x2A 0x2E,
   rangeField 0x700000 0x10000 8 11 3 0 4, rangeField 0x700000 0x10000 8 14 3 0 4, anyField 0x700000 0x10000 8 17 4,
   rangeField 0x700000 0x10000 8 21 2 0 2, anyField 0x700000 0x10000 8 23 1, anyField 0x700000 0x10000 8 24 1,
   anyField 0x700000 0x10000 8 25 3, rangeField 0x700000 0x10000 8 28 2 0 2, anyField 0x700000 0x10000 8 30 1,
   rangeField 0x700004 0x10000 8 0 14 16 8192, rangeField 0x700004 0x10000 8 16 14 2 8192,
   rangeField 0x700008 0x10000 8 0 11 1 1800, anyField 0x700008 0x10000 8 16 3, anyField 0x700008 0x10000 8 24 7,
   rangeField 0x70000C 0x10000 8 0 20 0 1000000, anyField 0x70000C 0x10000 8 24 8, rangeField 0x700010 0x10000 8 0 16 1 65535,
   rangeField 0x700010 0x10000 8 16 16 1 10000, rangeField 0x700014 0x10000 8 0 20 1 100000,
   rangeField 0x700100 0x10000 8 0 32 1 1000000, rangeField 0x700104 0x10000 8 0 32 0 100000,
   anyField 0x700108 0x10000 8 0 1, rangeField 0x700108 0x10000 8 8 5 0 16]
  ++ wordFields 0x70010C 16 0x10000 8 ++ [anyField 0x70014C 0x10000 8 0 16]

/-- ISP_PORT and ISP_GLOBAL (R433 to R440). The tables of a port are given as units a word apart. -/
def ispFields : List CfgField :=
  wordFields 0x780000 2 0x8000 8 ++ wordFields 0x780010 6 0x8000 8 ++ [rangeField 0x780030 0x8000 8 0 13 0 4096]
  ++ (List.range 8).flatMap (fun p =>
      [anyField (0x781000 + 0x8000 * p) 4 4096 0 13, anyField (0x781000 + 0x8000 * p) 4 4096 16 13,
       anyField (0x785000 + 0x8000 * p) 4 578 0 32])
  ++ [rangeField 0x7C0004 4 1 0 4 1 8, anyField 0x7C0004 4 1 16 16, anyField 0x7C0008 4 12 0 32, rangeField 0x7C0040 4 1 0 5 2 16,
      anyField 0x7C0044 4 16 0 32, anyField 0x7C0090 4 1 0 8, anyField 0x7C0090 4 1 8 8, rangeField 0x7C0090 4 1 16 9 1 256,
      anyField 0x7C0094 4 1 0 32, anyField 0x7C0098 4 1 0 16, anyField 0x7C00A0 8 2 0 8, anyField 0x7C00A0 8 2 8 4,
      anyField 0x7C00A0 8 2 16 16, anyField 0x7C00A4 8 2 0 32]

/-- EDP_CFG (R479); LANES also excludes 3 (`cfgValueOk`). -/
def composeFields : List CfgField :=
  [rangeField 0x820000 4 1 0 3 1 4, rangeField 0x820000 4 1 3 2 0 2, anyField 0x820000 4 1 5 1, anyField 0x820000 4 1 6 1,
   anyField 0x820004 4 4 0 13, anyField 0x820004 4 4 16 13, rangeField 0x820014 4 1 0 20 25000 600000]

/-- ZIP_CFG (R463, R465). -/
def zipFields : List CfgField := [anyField 0x840000 4 1 0 3, anyField 0x840000 4 1 3 1, anyField 0x840000 4 1 8 8]

/-- LED_CH and LED_MATRIX (R443 to R450). -/
def ledFields : List CfgField :=
  [rangeField 0x860000 0x100 16 0 11 0 2000, rangeField 0x860000 0x100 16 11 10 250 1000, anyField 0x860000 0x100 16 21 1,
   anyField 0x860000 0x100 16 22 3, anyField 0x860004 0x100 16 0 8, rangeField 0x860004 0x100 16 8 24 10000 10000000,
   anyField 0x860008 0x100 16 0 16, anyField 0x860008 0x100 16 16 16, rangeField 0x86000C 0x100 16 0 9 5 500,
   rangeField 0x86000C 0x100 16 9 10 10 500, rangeField 0x86000C 0x100 16 19 13 1 1000, rangeField 0x860010 0x100 16 0 11 0 2000,
   anyField 0x860010 0x100 16 16 16, anyField 0x860014 0x100 16 0 1, anyField 0x860014 0x100 16 1 2,
   anyField 0x860014 0x100 16 3 2, anyField 0x860014 0x100 16 16 16, anyField 0x860018 0x100 16 0 32,
   anyField 0x862000 4 1 0 1, rangeField 0x862000 4 1 1 5 1 16, rangeField 0x862000 4 1 6 2 0 2, anyField 0x862000 4 1 8 3,
   rangeField 0x862004 4 1 0 10 10 1000, rangeField 0x862004 4 1 16 14 100 10000]

/-- BASIN_CFG, BASIN_NRT, BASIN_HASH and BASIN_RT (R488 to R506). Segment 0 has no order of its own (R490). -/
def basinFields : List CfgField :=
  [anyField 0x900000 4 1 0 1, anyField 0x900000 4 1 4 14, rangeField 0x900004 4 1 0 17 10 100000,
   rangeField 0x900008 4 1 0 8 0 168, anyField 0x900010 4 4 0 17, rangeField 0x900100 0x10 25 0 2 1 3]
  ++ (List.range 8).map fun g => rangeField 0x90000C 4 1 (4 * g) 4 1 15

/-- HK_THRESH, HK_CAL_CFG, HK_CAL and HK_DUMP (R512, R520 to R527): a threshold lies from 40 °C, or 40 % for the supply
rows, below its default up to its default. -/
def hkFields : List CfgField :=
  [rangeField 0xA00200 4 1 0 16 3840 6400, rangeField 0xA00200 4 1 16 16 3456 6016, rangeField 0xA00204 4 1 0 16 4352 6912,
   rangeField 0xA00204 4 1 16 16 3968 6528, rangeField 0xA00208 4 1 0 16 5120 7680, rangeField 0xA0020C 4 2 0 16 3520 6080,
   rangeField 0xA0020C 4 2 16 16 4160 6720, rangeField 0xA00214 4 1 0 16 2280 3800, rangeField 0xA00214 4 1 16 16 4500 7500,
   rangeField 0xA00218 4 1 0 16 6600 11000, rangeField 0xA00300 4 1 0 16 60 10000, anyField 0xA00300 4 1 16 16,
   anyField 0xA00304 4 1 0 16, anyField 0xA00304 4 1 16 16, anyField 0xA00308 4 1 0 16, anyField 0xA00308 4 1 16 8,
   anyField 0xA0030C 4 4 0 32, anyField 0xA00400 0x20 7 0 16, anyField 0xA01000 4 256 0 32]

/-- REC_HIST (R536 to R538). -/
def recFields : List CfgField :=
  [anyField 0xA40100 8 16 0 32, rangeField 0xA40104 8 16 0 16 1 65535, anyField 0xA40104 8 16 16 16,
   rangeField 0xA40180 4 16 0 16 0 0x0FFF]

/-- The offsets and the fields of the block that an INSTANCE names (R290, R379). ETH has no field with the reset "Profile value". -/
def cfgBlock (inst : Nat) : Option (Nat × Nat × List CfgField) :=
  if inst = 0x0050 then some (0x500000, 0x580000, [])
  else if inst = 0x0040 then some (0x400000, 0x500000, splFields)
  else if inst = 0x0060 then some (0x600000, 0x640000, axesFields)
  else if inst = 0x0064 then some (0x640000, 0x680000, encFields)
  else if 0x0070 ≤ inst && inst ≤ 0x0077 then some (inst * 65536, (inst + 1) * 65536, camFields)
  else if inst = 0x0078 then some (0x780000, 0x800000, ispFields)
  else if inst = 0x0080 then some (0x800000, 0x840000, composeFields)
  else if inst = 0x0084 then some (0x840000, 0x860000, zipFields)
  else if inst = 0x0086 then some (0x860000, 0x880000, ledFields)
  else if inst = 0x0090 then some (0x900000, 0x980000, basinFields)
  else if inst = 0x00A0 then some (0xA00000, 0xA40000, hkFields)
  else if inst = 0x00A4 then some (0xA40000, 0xA50000, recFields)
  else none

/-- The field is one of the register at this offset. -/
def CfgField.isAt (f : CfgField) (off : Nat) : Bool :=
  decide (f.base ≤ off) && f.stride != 0 && (off - f.base) % f.stride == 0 && decide ((off - f.base) / f.stride < f.n)

/-- The bits of a field. -/
def CfgField.mask (f : CfgField) : Nat := (2 ^ f.w - 1) * 2 ^ f.lo

/-- A register word of the block holds a value that each named field accepts: it lies in the field's range, and a frame size is even
(R420), eDP has no 3 lanes (R479). -/
def cfgValueOk (f : CfgField) (w : Nat) : Bool :=
  let v := bits w f.lo f.w
  decide (f.min ≤ v) && decide (v ≤ f.max) && !((f.base == 0x700004) && v % 2 != 0) && !(f.base == 0x820000 && f.lo == 0 && v == 3)

/-- A register word with a masked change (R379). -/
def cfgMasked (old mask value : Nat) : Nat := (old &&& (0xFFFFFFFF ^^^ mask)) ||| (value &&& mask)

/-- One entry is allowed (R379): it lies in the block, names only configuration fields, and each of them accepts what the
register comes to. -/
def cfgEntryOk (inst off mask value : Nat) (cfg : List (Nat × Word)) : Bool :=
  match cfgBlock inst with
  | none => false
  | some (lo, hi, fs) =>
    let here := fs.filter fun f => f.isAt off
    let all := here.foldl (fun m f => m ||| f.mask) 0
    let w := cfgMasked (cfgGet cfg off).toNat mask value
    decide (lo ≤ off) && decide (off < hi) && off % 4 == 0 && (mask &&& (0xFFFFFFFF ^^^ all)) == 0
    && here.all fun f => mask &&& f.mask == 0 || cfgValueOk f w

/-- An entry takes effect (R379). -/
def cfgEntryApply (cfg : List (Nat × Word)) (e : BlockCfg) : List (Nat × Word) :=
  cfgPut cfg e.offset (BitVec.ofNat 32 (cfgMasked (cfgGet cfg e.offset).toNat e.mask e.value))

/-- What must hold among the fields of all records: a clear or release value at least 2 °C below its set value (R512), an echo ratio of at
most 1 (R414), and breakpoints of the Mere branch that rise strictly (R437). -/
def cfgCrossOk (cfg : List (Nat × Word)) : Bool :=
  let f := fun off lo w => bits (cfgGet cfg off).toNat lo w
  let rises := (List.range (f 0x7C0040 0 5 - 1)).all fun k => decide (f (0x7C0044 + 4 * k) 0 16 < f (0x7C0048 + 4 * k) 0 16)
  decide (f 0xA00200 16 16 + 128 ≤ f 0xA00200 0 16) && decide (f 0xA00204 16 16 + 128 ≤ f 0xA00204 0 16)
  && (List.range 4).all (fun k => decide (f (0x643004 + 0x40 * k) 0 16 ≤ f (0x643004 + 0x40 * k) 16 16)) && rises

end Sys2Proof.Machine
end

