-- ==== Sys2Proof/Machine/ProfileImage.lean ====
section
/-! DEFINITION. Profile images: layout, checks and records (R359 to R381). -/

namespace Sys2Proof.Machine

/-! ### Header and framing (R359, R360) -/

/-- A record: TYPE, INSTANCE, its offset in the image and its payload. -/
structure ProfRec where
  typ : Nat
  inst : Nat
  off : Nat
  payload : List Byte
deriving DecidableEq, Repr

/-- What a check of an image has come to: the cause of R363 (0 for none), the record it failed at, and what the image
holds. -/
structure ProfCheck where
  cause : Nat
  bad : Nat × Nat × Nat
  generation : Nat
  signed : Bool
  records : Profile
  cfg : List (Nat × Word)
deriving DecidableEq, Repr

/-- A check that fails before any record is met. -/
def profFails (cause : Nat) : ProfCheck :=
  { cause := cause, bad := (0, 0, 0), generation := 0, signed := false, records := .none, cfg := [] }

/-- IMAGE_SIZE of a header. -/
def profSize (hd : List Byte) : Nat := field hd 8 4

/-- GENERATION of a header. -/
def profGen (hd : List Byte) : Nat := field hd 12 4

/-- SIGNED of a header. -/
def profSigned (hd : List Byte) : Bool := bit (field hd 18 2) 0

/-- The check HEADER (R359, R363): `limit` is what the copy may use. -/
def profHeaderOk (hd : List Byte) (limit : Nat) : Bool :=
  field hd 0 4 == 0x46525043 && field hd 4 2 == 1 && field hd 6 2 == 256 && decide (256 ≤ profSize hd)
  && decide (profSize hd ≤ limit) && profSize hd % 4 == 0 && decide (1 ≤ profGen hd) && decide (profGen hd ≤ 0xFFFFFFFE)
  && decide (field hd 18 2 ≤ 1) && decide (field hd 20 4 ≤ 7) && allZero ((hd.drop 48).take 208)

/-- The check BINDING (R363). -/
def profBindingOk (hd : List Byte) (s : State) : Bool :=
  bit (field hd 20 4) s.variant.code && (field hd 16 2 == 0xFFFF || field hd 16 2 == s.ident.moduleId.toNat)
  && decide (field hd 24 4 ≤ s.boot.fwVersion.toNat)

/-- (TYPE, INSTANCE) rises. -/
def recAfter (prev : Option (Nat × Nat)) (typ inst : Nat) : Bool :=
  match prev with
  | none => true
  | some (t, i) => decide (t < typ) || (t == typ && decide (i < inst))

/-- The records of an image from `off` on, `bs` being what is left of it: the records before END and the offset after END, or the record at
which the framing fails (R360). -/
def profFrame : Nat → List Byte → Nat → Option (Nat × Nat) → List ProfRec → Except (Nat × Nat × Nat) (List ProfRec × Nat)
  | 0, _, off, _, _ => .error (off, 0, 0)
  | n + 1, bs, off, prev, acc =>
    let typ := field bs 0 2
    let inst := field bs 2 2
    let len := field bs 4 4
    if bs.length < 12 || 16777216 < len || len % 4 != 0 || bs.length < 12 + len || !recAfter prev typ inst
      || field bs (8 + len) 4 != crc32 (bs.take (8 + len)) then .error (off, typ, inst)
    else if typ = 0xFFFF then
      if inst = 0 && len = 0 then .ok (acc.reverse, off + 12) else .error (off, typ, inst)
    else
      profFrame n (bs.drop (12 + len)) (off + 12 + len) (some (typ, inst))
        ({ typ := typ, inst := inst, off := off, payload := (bs.drop 8).take len } :: acc)

/-! ### Records (R367 to R379) -/

/-- A value within a range. -/
def within (lo hi v : Nat) : Bool := decide (lo ≤ v) && decide (v ≤ hi)

/-- Bytes that are reserved. -/
def zeroAt (bs : List Byte) (off n : Nat) : Bool := allZero ((bs.drop off).take n)

/-- MACHINE (R367). -/
def readMachine (b : List Byte) : Option MachineRec :=
  if b.length = 16 && decide (field b 4 1 ≤ 7) && bit (field b 5 1) (field b 4 1) && zeroAt b 7 1 && within 1 600 (field b 8 4)
    && decide (field b 12 4 ≤ 600) then
    some { machineId := BitVec.ofNat 32 (field b 0 4), member := field b 4 1, members := BitVec.ofNat 8 (field b 5 1)
           leaderPrio := field b 6 1, memberWaitS := field b 8 4, partnerWaitS := field b 12 4 }
  else none

/-- SYSTEM (R367). -/
def readSystem (b : List Byte) : Option SystemRec :=
  if b.length = 16 && (field b 0 4 == 0 || within 100 600000 (field b 0 4)) && within 100 1000000 (field b 4 4)
    && field b 4 4 % 100 == 0 && within 1 86400 (field b 8 4) && zeroAt b 12 4 then
    some { hostLossMs := field b 0 4, snapPeriodUs := field b 4 4, calDeferS := field b 8 4 }
  else none

/-- PLAN (R367). -/
def readPlan (b : List Byte) : Option PlanRec :=
  let stage := fun k => field b (16 + 4 * k) 4
  if b.length = 36 && within 10000 200000 (field b 0 4) && field b 0 4 % 5 == 0 && within 200 1000 (field b 4 4)
    && within 1 10000 (field b 8 4) && within 1 8388607 (field b 12 4) && (List.range 5).all (fun k => decide (stage k ≤ 600000)) then
    some { tLead := field b 0 4, hGuardUs := field b 4 4, blendMinMs := field b 8 4, mapSlew := field b 12 4
           postImageMs := stage 0, recoatMs := stage 1, settleMs := stage 2, bedImageMs := stage 3, armMs := stage 4 }
  else none

/-- LANE (R368): lane `l` exists and its port exists where it is mapped (R381). -/
def readLane (v : Variant) (l : Nat) (b : List Byte) : Option LaneRec :=
  let mapped := bit (field b 3 1) 0
  if b.length != 64 || 127 < l || 1 < field b 3 1 then none
  else if !mapped then (if zeroAt b 4 60 then some .unmapped else none)
  else if decide (l < v.lanes) && decide (field b 0 1 < v.ports) && within 1 16 (field b 1 1) && decide (field b 2 1 ≤ 3)
    && within 100 4000 (field b 30 2) && decide (field b 32 1 ≤ 15) && decide (field b 33 1 ≤ 15) && within 1 20000 (field b 34 2)
    && decide (field b 36 4 ≤ 100000) && within 1 8 (field b 48 1) && zeroAt b 49 15 then
    some { mapped := true, port := field b 0 1, hop := field b 1 1, beam := field b 2 1, fieldCx := fieldS b 4 4
           fieldCy := fieldS b 8 4, fieldHalf := field b 12 4, focusScale := fieldS b 16 4, wPerLsb := field b 20 4
           pdGainA := field b 24 2, pdGainB := field b 26 2, absorb := field b 28 2, tSp := field b 30 2
           priority := field b 32 1, sepGroup := field b 33 1, feTime := field b 34 2, trackDelay := field b 36 4
           feLimitMark := field b 40 4, feLimitJump := field b 44 4, gridSets := field b 48 1 }
  else none

/-- NODE (R369). -/
def readNode (b : List Byte) : Option NodeRec :=
  if b.length = 40 && decide (field b 0 1 ≤ 2) && decide (field b 1 1 ≤ 4) && decide (field b 2 1 ≤ 1) && zeroAt b 3 1
    && decide (field b 20 1 ≤ 16) && (field b 0 1 == 1 || field b 20 1 == 0) && zeroAt b 21 3 then
    some { cls := field b 0 1, beams := field b 1 1, matchSerial := bit (field b 2 1) 0, vendor := field b 4 4
           product := field b 8 4, serial := field b 12 8, srcCount := field b 20 1
           srcBeams := (List.range 16).map fun k => field b (24 + k) 1 }
  else none

/-- LOOP (R372). The weights sum to 65,536 (R381). -/
def readLoop (b : List Byte) : Option LoopRec :=
  let kern := (List.range 9).map fun k => field b (12 + 2 * k) 2
  if b.length = 32 && within 10 1000 (field b 0 2) && decide (field b 2 2 ≤ 100) && within 500 100000 (field b 4 4)
    && decide (field b 8 2 ≤ 1016) && zeroAt b 10 2 && zeroAt b 30 2 && kern.foldl (· + ·) 0 == 65536 then
    some { ffPeriodUs := field b 0 2, ffAheadUs := field b 2 2, staleLimitUs := field b 4 4, rawPre := field b 8 2, kern := kern }
  else none

/-- T_MIN in µs (R162). -/
def mereTMin (nx ny : Nat) : Nat := 10 * ((12 * nx * ny + 2559999) / 2560000)

/-- MERE (R161 to R163, R373). R is uQ0.24 and K_DEP uQ8.16. -/
def readMere (v : Variant) (b : List Byte) : Option MereRec :=
  let nx := field b 0 2
  let ny := field b 2 2
  let tU := field b 16 4
  if b.length = 48 && within 16 2048 nx && within 16 2048 ny && within 10000 200000 (field b 4 4) && tU % 10 == 0
    && within 20 5000 tU && decide (mereTMin nx ny ≤ tU) && decide (field b 20 4 ≤ 16384) && decide (field b 24 4 < 2 ^ 24)
    && decide (field b 28 4 < 2 ^ 24) && decide (field b 40 1 ≤ 2) && (field b 41 1 == 255 || decide (field b 41 1 < v.cameras))
    && (field b 42 2 == 0 || within 10 1000 (field b 42 2)) && zeroAt b 44 4 then
    some { nx := nx, ny := ny, cell := field b 4 4, x0 := fieldS b 8 4, y0 := fieldS b 12 4, tU := tU, d := field b 20 4
           r := field b 24 4, kDep := field b 28 4, tPlate := field b 32 2, tPowder := field b 34 2
           layerBlend := field b 36 2, assimWeight := field b 38 2, assimMode := field b 40 1, assimCamera := field b 41 1
           viewPeriodMs := field b 42 2 }
  else none

/-- PROX (R192, R374). -/
def readProx (b : List Byte) : Option ProxRec :=
  if b.length = 36 && within 50 50000 (field b 0 4) && within 100 100000 (field b 4 4) && within 1 60000 (field b 8 4)
    && (field b 12 4 == 0 || within 10000 100000000 (field b 12 4)) && decide (field b 16 4 ≤ 10000000) && within 2 15 (field b 20 1)
    && within 2 16 (field b 21 1) && decide (field b 22 1 ≤ 7) && zeroAt b 23 1 && decide (field b 24 2 ≤ 4094) && zeroAt b 34 2 then
    some { tAge := field b 0 4, tDead := field b 4 4, holdWarn := field b 8 4, peerVmax := field b 12 4, sepFloor := field b 16 4
           lMax := field b 20 1, silentPeriods := field b 21 1, peerPcp := field b 22 1, peerVid := field b 24 2
           peerEtype := field b 26 2, peerDa := field b 28 6 }
  else none

/-- SEP (R192, R375): symmetric (R381). -/
def readSep (b : List Byte) : Option (List Nat) :=
  let v := (List.range 256).map fun i => field b (4 * i) 4
  if b.length = 1024 && v.all (fun x => decide (x ≤ 10000000))
    && (List.range 256).all (fun i => v.getD i 0 == v.getD (16 * (i % 16) + i / 16) 0) then some v
  else none

/-- A rectangle of four s32. -/
def readRect (b : List Byte) (off : Nat) : Rect :=
  { x0 := fieldS b off 4, y0 := fieldS b (off + 4) 4, x1 := fieldS b (off + 8) 4, y1 := fieldS b (off + 12) 4 }

/-- PLUME (R192, R375). -/
def readPlume (b : List Byte) : Option PlumeRec :=
  let r := readRect b 0
  if b.length = 28 && decide (r.x0 < r.x1) && decide (r.y0 < r.y1) && field b 16 4 != 0 && decide (field b 20 4 ≤ 50000000)
    && decide (field b 24 4 ≤ 1047198) then
    some { region := r, dirX := fieldS b 16 2, dirY := fieldS b 18 2, len := field b 20 4, half := field b 24 4 }
  else none

/-- A polygon is simple: no edge is a point, neighbouring edges do not fold back, and no others meet. -/
def simplePolygon (ps : List Pt) : Bool :=
  let es := edgesOf ps
  let n := es.length
  let e := fun i => es.getD (i % n) ((0, 0), (0, 0))
  (List.range n).all fun i =>
    let (a, b) := e i
    let (_, c) := e (i + 1)
    let back := Pt.cross (Pt.sub b a) (Pt.sub c b) == 0 && decide (Pt.dot (Pt.sub b a) (Pt.sub c b) < 0)
    a != b && !back && (List.range n).all fun j =>
      j == i || (i + 1) % n == j || (j + 1) % n == i || !segSegLe a b (e j).1 (e j).2 0

/-- ZONE (R192, R375). -/
def readZone (b : List Byte) : Option ZoneRec :=
  let v := field b 0 1
  let verts := (List.range v).map fun k => (fieldS b (8 + 8 * k) 4, fieldS b (12 + 8 * k) 4)
  if within 3 16 v && b.length = 8 + 8 * v && decide (field b 2 1 ≤ 1) && zeroAt b 3 1 && decide (field b 4 2 ≤ 10000)
    && zeroAt b 6 2 && simplePolygon verts then
    some { members := BitVec.ofNat 8 (field b 1 1), enable := bit (field b 2 1) 0, holdoff := field b 4 2, verts := verts }
  else none

/-- REACH (R376). -/
def readReach (b : List Byte) : Option (List Rect) :=
  let k := field b 0 1
  if within 1 4 k && b.length = 4 + 16 * k && zeroAt b 1 3 then some ((List.range k).map fun i => readRect b (4 + 16 * i)) else none

/-- A signed value within a range. -/
def withinS (lo hi v : Int) : Bool := decide (lo ≤ v) && decide (v ≤ hi)

/-- TIME (R218, R377). -/
def readTime (b : List Byte) : Option TimeRec :=
  let u := fun k => field b k 1
  let lat := fun off => (List.range 4).map fun k => field b (off + 2 * k) 2
  if b.length = 56 && decide (u 0 ≤ 2) && decide (u 1 ≤ 1) && decide (u 2 ≤ 127) && (within 6 248 (u 5) || (u 5 == 255 && u 1 == 1))
    && decide (u 6 ≤ 2) && decide (u 7 ≤ 1) && decide (u 8 ≤ 1) && withinS (-7) 0 (fieldS b 9 1) && withinS (-3) 3 (fieldS b 10 1)
    && within 2 10 (u 11) && withinS (-7) 5 (fieldS b 12 1) && withinS (-7) 5 (fieldS b 13 1) && within 2 16 (u 14)
    && decide (u 15 ≤ 7) && decide (field b 16 2 ≤ 4094) && decide (u 19 ≤ 2) && within 100 1000000000 (field b 36 4)
    && within 1 2000 (field b 40 2) && within 5 10000 (field b 42 2) && decide (field b 44 2 ≤ 10000) && decide (field b 46 2 ≤ 10000)
    && decide (field b 48 2 ≤ 1000) && zeroAt b 50 2 && within 1 500000 (field b 52 4) then
    some { source := u 0, slaveOnly := u 1 == 1, domain := u 2, priority1 := u 3, priority2 := u 4, clockClass := u 5
           transport := u 6, p2p := u 7 == 1, twoStep := u 8 == 1, logSync := fieldS b 9 1, logAnnounce := fieldS b 10 1
           announceTimeout := u 11, logDelayReq := fieldS b 12 1, logPdelay := fieldS b 13 1, syncLossN := u 14, ptpPcp := u 15
           ptpVid := field b 16 2, tsErr := u 18, ppsMode := u 19, portTxLat := lat 20, portRxLat := lat 28
           stepLimit := field b 36 4, slewMax := field b 40 2, holdBound := field b 42 2, hoFreqErr := field b 44 2
           hoAging := field b 46 2, ppsErr := field b 48 2, ppsWidth := field b 52 4 }
  else none

/-- NETWORK (R378). -/
def readNetwork (b : List Byte) : Option NetworkRec :=
  let speed := (List.range 4).map fun k => field b k 1
  if b.length = 168 && speed.all (fun v => decide (v ≤ 2)) && decide (field b 32 1 ≤ 7) && decide (field b 33 1 ≤ 8)
    && decide (field b 34 2 ≤ 4094) && zeroAt b 36 4 then
    some { speed := speed, ipv4 := field b 4 4, ipv4Mask := field b 8 4, ipv4Gw := field b 12 4, ipv6 := field b 16 16
           mgmtPcp := field b 32 1, mgmtVid := field b 34 2
           allow := (List.range (field b 33 1)).map fun k => field b (40 + 16 * k) 16 }
  else none

/-- The entries of a BLOCK_CFG record (R379), with the registers as they come to be. -/
def readBlockCfg (inst : Nat) : Nat → List Byte → List (Nat × Word) → List BlockCfg → Option (List BlockCfg × List (Nat × Word))
  | 0, b, cfg, acc => if b.isEmpty then some (acc.reverse, cfg) else none
  | n + 1, b, cfg, acc =>
    if b.isEmpty then some (acc.reverse, cfg)
    else
      let e : BlockCfg := { inst := inst, offset := field b 0 4, mask := field b 4 4, value := field b 8 4 }
      if b.length < 12 || !cfgEntryOk inst e.offset e.mask e.value cfg then none
      else readBlockCfg inst n (b.drop 12) (cfgEntryApply cfg e) (e :: acc)

/-- What the records read so far give, with the registers and which required records have been met. -/
structure ProfAcc where
  prof : Profile
  cfg : List (Nat × Word)
  mere : Bool
  plan : Bool
deriving DecidableEq, Repr

/-- One record is taken in; none where it fails CONTENT by itself (R366 to R380). -/
def takeRecord (v : Variant) (a : ProfAcc) (r : ProfRec) : Option ProfAcc :=
  let p := a.prof
  let put := fun (ok : Bool) (q : Option Profile) => if ok then q.map fun q => { a with prof := q } else none
  let one := r.inst == 0
  match r.typ with
  | 0x0001 => put one ((readMachine r.payload).map fun x => { p with machine := x })
  | 0x0002 => put one ((readSystem r.payload).map fun x => { p with system := x })
  | 0x0003 => put one ((readNetwork r.payload).map fun x => { p with network := some x })
  | 0x0004 => put one ((readTime r.payload).map fun x => { p with time := x })
  | 0x0010 => put true ((readLane v r.inst r.payload).map fun x => { p with lanes := p.lanes.set r.inst x })
  | 0x0011 => put (decide (r.inst < 1024)) ((readGrid r.payload).map fun x => { p with grids := p.grids ++ [(r.inst, x)] })
  | 0x0012 => put (decide (r.inst < 512)) ((readNode r.payload).map fun x => { p with nodes := p.nodes ++ [(r.inst, x)] })
  | 0x0020 => put (decide (r.inst < 32)) ((readCurve r.payload).map fun x => { p with curves := p.curves.set r.inst (some x) })
  | 0x0021 => put one ((readLoop r.payload).map fun x => { p with loop := x })
  | 0x0022 => if one then (readMere v r.payload).map fun x => { a with prof := { p with mere := x }, mere := true } else none
  | 0x0030 => put one ((readProx r.payload).map fun x => { p with prox := x })
  | 0x0031 => put one ((readSep r.payload).map fun x => { p with sep := x })
  | 0x0032 => put (decide (r.inst < 4)) ((readPlume r.payload).map fun x => { p with plumes := p.plumes.set r.inst (some x) })
  | 0x0033 => put (decide (r.inst < 256)) ((readZone r.payload).map fun x => { p with zones := p.zones.set r.inst (some x) })
  | 0x0034 => put (decide (r.inst < 8)) ((readReach r.payload).map fun x => { p with reach := p.reach.set r.inst x })
  | 0x0040 => if one then (readPlan r.payload).map fun x => { a with prof := { p with plan := x }, plan := true } else none
  | 0x0050 =>
    (readBlockCfg r.inst (r.payload.length / 12 + 1) r.payload a.cfg []).map fun (es, cfg) =>
      { a with prof := { p with blockCfg := p.blockCfg ++ es }, cfg := cfg }
  | t => if 0x8000 ≤ t then some a else none

/-- The records in order, or the first one that fails. -/
def takeRecords (v : Variant) : ProfAcc → List ProfRec → Except ProfRec ProfAcc
  | a, [] => .ok a
  | a, r :: rs => match takeRecord v a r with | none => .error r | some a => takeRecords v a rs

/-! ### Cross-record rules (R370, R376, R381) -/

/-- The mapped lanes with their numbers. -/
def mappedLanes (p : Profile) : List (Nat × LaneRec) :=
  ((List.range 128).map fun l => (l, unit p.lanes l .unmapped)).filter fun x => x.2.mapped

/-- The grid sets that a profile gives a lane, rising. -/
def profGrids (p : Profile) (l : Nat) : List (Nat × GridSet) := p.grids.filter fun g => g.1 / 8 == l

/-- The NODE record of a lane's node. -/
def laneNodeRec (p : Profile) (r : LaneRec) : Option NodeRec :=
  (p.nodes.find? fun n => n.1 == 16 * r.port + (r.hop - 1)).map fun n => n.2

/-- The rules of R381, with those of R370 and R376. -/
def profCrossOk (p : Profile) (cfg : List (Nat × Word)) : Bool :=
  let ms := mappedLanes p
  let place := fun (r : LaneRec) => (r.port, r.hop, r.beam)
  let others := (List.range 8).filter fun m => m != p.machine.member && p.machine.members.getLsbD m
  let lanesOk := ms.all fun (l, r) =>
    (ms.all fun (k, q) => k == l || place q != place r)
    && decide ((ms.countP fun x => x.2.port == r.port) ≤ 16)
    && ((laneNodeRec p r).all fun n => n.cls == 0 && decide (r.beam < n.beams))
    && (profGrids p l).map (fun g => g.1 % 8) == List.range r.gridSets && tempsRise ((profGrids p l).map fun g => g.2)
  let gridsOk := p.grids.all fun g => (unit p.lanes (g.1 / 8) .unmapped).mapped
  let peersOk := others.isEmpty
    || (p.prox.peerVmax != 0 && p.prox.peerDa != 0 && others.all (fun m => !(unit p.reach m []).isEmpty)
        && decide (p.plan.tLead + 40000 + 1000 * p.prox.lMax ≤ 1000 * p.plan.hGuardUs))
  lanesOk && gridsOk && peersOk && p.sep.all (fun v => decide (p.prox.sepFloor ≤ v)) && cfgCrossOk cfg

/-! ### The whole check (R361, R363) -/

/-- The signature block after the digest (R361): its MAGIC and key hash, and the signature itself. -/
def profKeyOk (hd sig : List Byte) (s : State) : Bool :=
  match profSigned hd, s.ident.otp.builderKeyHash with
  | false, none => true
  | false, some _ => false
  | true, kh => field sig 0 4 == 0x47535043 && (kh.all fun k => k == sha256 ((sig.drop 16).take 64))

/-- An image of IMAGE_SIZE bytes is checked by FRAMING to CONTENT (R363), HEADER and BINDING having passed. -/
def profBody (bs : List Byte) (s : State) : ProfCheck :=
  let hd := bs.take 256
  let signed := profSigned hd
  let size := profSize hd
  let ok := { profFails 0 with generation := profGen hd, signed := signed }
  match profFrame (size / 12 + 1) (bs.drop 256) 256 none [] with
  | .error b => { profFails 4 with bad := b }
  | .ok (rs, fin) =>
    let atEnd := (fin - 12, 0xFFFF, 0)
    let dig := (bs.drop fin).take 32
    let sig := (bs.drop (fin + 32)).take 144
    if rs.length != field hd 28 4 || fin + 32 + (if signed then 144 else 0) != size then { profFails 4 with bad := atEnd }
    else if dig.reverse != sha256 (bs.take fin) then { profFails 5 with bad := atEnd }
    else if !profKeyOk hd sig s then { profFails 6 with bad := atEnd }
    else if signed && !ecdsaVerify p256 (field sig 16 32) (field sig 48 32) dig.reverse (field sig 80 32) (field sig 112 32) then
      { profFails 7 with bad := atEnd }
    else
      match takeRecords s.variant { prof := .none, cfg := cfgDefaults, mere := false, plan := false } rs with
      | .error r => { profFails 8 with bad := (r.off, r.typ, r.inst) }
      | .ok a =>
        if !a.mere || !a.plan || !profCrossOk a.prof a.cfg || (signed && !zeroAt sig 4 12) then { profFails 8 with bad := atEnd }
        else { ok with records := a.prof, cfg := a.cfg }

/-- A whole image: HEADER within `limit`, BINDING, and the rest. -/
def profCheck (bs : List Byte) (limit : Nat) (s : State) : ProfCheck :=
  let hd := bs.take 256
  if !profHeaderOk hd limit then profFails 2
  else if !profBindingOk hd s then profFails 3
  else profBody (bs.take (profSize hd)) s

/-! ### The copies in the profile memory (R356 to R358, R364) -/

/-- The first `n` bytes of a copy: what has been programmed, and 0xFF beyond it. -/
def copyBytes (s : State) (b : Bool) (n : Nat) : List Byte :=
  let m := if b then s.profile.memB else s.profile.memA
  (m ++ List.replicate (n - m.length) 0xFF).take n

/-- The check of a copy; a device that does not answer, or is of a size that R356 does not allow, fails it with READ (R357). -/
def copyCheck (s : State) (b : Bool) : ProfCheck :=
  let hd := copyBytes s b 256
  let half := s.profile.memBytes / 2
  if !((List.range 5).any fun k => s.profile.memBytes == 2 ^ (24 + k)) then profFails 1
  else if !profHeaderOk hd half then profFails 2
  else if !profBindingOk hd s then profFails 3
  else profBody (copyBytes s b (profSize hd)) s

/-- The selection of R364: the copy used (0 for none, 1 for A, 2 for B), the causes of both (15 for one not checked), the check of the
last copy checked, and whether the first candidate failed and the second is used. -/
structure Selection where
  use : Nat
  causeA : Nat
  causeB : Nat
  last : ProfCheck
  fallback : Bool
deriving DecidableEq, Repr

/-- A copy is a candidate: HEADER and BINDING pass. -/
def isCandidate (c : ProfCheck) : Bool := c.cause == 0 || decide (4 ≤ c.cause)

/-- The selection of the newest valid copy (R364). -/
def selectCopy (s : State) : Selection :=
  let a := copyCheck s false
  let b := copyCheck s true
  let genA := profGen (copyBytes s false 256)
  let genB := profGen (copyBytes s true 256)
  match isCandidate a, isCandidate b with
  | false, false => { use := 0, causeA := a.cause, causeB := b.cause, last := b, fallback := false }
  | true, false => { use := if a.cause = 0 then 1 else 0, causeA := a.cause, causeB := b.cause, last := a, fallback := false }
  | false, true => { use := if b.cause = 0 then 2 else 0, causeA := a.cause, causeB := b.cause, last := b, fallback := false }
  | true, true =>
    if genB ≤ genA then
      if a.cause = 0 then { use := 1, causeA := 0, causeB := 15, last := a, fallback := false }
      else if b.cause = 0 then { use := 2, causeA := a.cause, causeB := 0, last := b, fallback := true }
      else { use := 0, causeA := a.cause, causeB := b.cause, last := b, fallback := false }
    else
      if b.cause = 0 then { use := 2, causeA := 15, causeB := 0, last := b, fallback := false }
      else if a.cause = 0 then { use := 1, causeA := 0, causeB := b.cause, last := a, fallback := true }
      else { use := 0, causeA := a.cause, causeB := b.cause, last := a, fallback := false }

end Sys2Proof.Machine
end

