-- ==== Sys2Proof/Machine/ProfileApply.lean ====
section
/-! DEFINITION. A profile comes into force: at a start and at a reload (R320, R321, R342, R366, R383). -/

namespace Sys2Proof.Machine

/-! ### What the records set -/

/-- The BASIN fields from the configuration registers, taken at a start only (R488, R490, R492, R495, R500, R506). -/
def takeBasin (s : State) : State :=
  { s with basin :=
      { s.basin with
        eccEn := cfgB s 0x900000 0
        segOrder := (List.range 8).map fun k => BitVec.ofNat 2 (cfgF s 0x900000 (2 * k + 2) 2)
        srIdle := BitVec.ofNat 17 (cfgF s 0x900004 0 17)
        scrubPeriod := BitVec.ofNat 8 (cfgF s 0x900008 0 8)
        nrtWeight := (List.range 8).map fun g => BitVec.ofNat 4 (cfgF s 0x90000C (4 * g) 4)
        bankMask := (List.range 4).map fun i => BitVec.ofNat 17 (cfgF s (0x900010 + 4 * i) 0 17)
        rt := s.basin.rt.mapIdx fun p r => { r with order := BitVec.ofNat 2 (cfgF s (0x900100 + 0x10 * p) 0 2) } } }

/-- The transmitters' values for the next training (R280). -/
def takeTx (s : State) : State :=
  setLink (fun l => { l with ports := l.ports.mapIdx fun p q =>
    let w := cfgWord s (0x400008 + 0x8000 * p)
    { q with swingNext := BitVec.ofNat 2 (bits w 0 2), deemphNext := BitVec.ofNat 3 (bits w 4 3) } }) s

/-- What takes the records of a profile in force at a start and at a reload alike: rules and their CRC, curves, the snapshot period,
the transmitters. -/
def takeCommon (s : State) : State :=
  let s := takeTx (loadRules { s with curves := s.prof.curves })
  let s := setProx (fun p => { p with run := true }) s
  rescheduleSnapshots { s with still := { s.still with periodUs := BitVec.ofNat 32 s.prof.system.snapPeriodUs } }

/-- SRC_BEAMS go to the SOURCE nodes that are present (R268, R369). -/
def writeSources (s : State) : State :=
  (List.range s.variant.ports).foldl (fun s p => (List.range 16).foldl (fun s i =>
    let n := nodeOf s p (i + 1)
    if n.present && n.ident.cls = 1 then fetchObjects p (i + 1) s else s) s) s

/-- Lanes of the lane map whose node is there come into IDLE (R96). -/
def wakeLanes (s : State) : State := (allLanes s).foldl (fun s l => laneToIdle l s) s

/-- PPS_OUT as the TIME record gives it (R245). -/
def takePps (s : State) : State :=
  let r := s.prof.time
  let pps := { s.time.pps with mode := BitVec.ofNat 2 r.ppsMode, width := BitVec.ofNat 24 r.ppsWidth }
  { s with time := { s.time with pps := pps } }

/-! ### A START -/

/-- Every record applies, and start-up goes on from the partner wait (R342 to R344, R383): the descriptors that waited are handed back, to
be started by the caller. -/
def applyStart (use : Nat) (c : ProfCheck) (s : State) : State :=
  let p := s.profile
  let p := { p with inForce := BitVec.ofNat 2 use, signed := c.signed, generation := BitVec.ofNat 32 c.generation,
                    startPending := false, records := c.records }
  let s := { s with profile := p, cfg := c.cfg }
  let s := if s.prof.time.source = 2 then setTimeState .free (setClock (fun c => { c with freqAdj := 0, parent := none }) s) else s
  let s := takePps (takeCommon (takeBasin s))
  let s := wakeLanes (writeSources (mereStart s))
  let b := s.boot
  let b := { b with phase := 6, error := if b.error = 10 then 0 else b.error, profileAt := s.now, partnersDone := false }
  let m := s.members
  { s with boot := b, members := { m with readSince := s.now, keySince := none } }

/-! ### A RELOAD (R383) -/

/-- A BLOCK_CFG entry of class START. -/
def startEntry (e : BlockCfg) : Bool := e.inst == 0x0050 || e.inst == 0x0090

/-- The records of class START of two profiles differ. -/
def startDiffers (a b : Profile) : Bool :=
  a.network != b.network || a.time != b.time || a.blockCfg.filter startEntry != b.blockCfg.filter startEntry

/-- The records in force after a reload: those of class START stay. -/
def reloadedRecords (old new : Profile) : Profile :=
  { new with
      network := old.network
      time := old.time
      blockCfg := old.blockCfg.filter startEntry ++ new.blockCfg.filter fun e => !startEntry e }

/-- The nodes whose lanes a reload takes to OFF: lanes with another LANE record or another NODE record of their node. -/
def laneChanged (old new : Profile) (l : Nat) : Bool :=
  let a := unit old.lanes l .unmapped
  let b := unit new.lanes l .unmapped
  a != b || laneNodeRec old a != laneNodeRec new b

/-- New grids and no trims: the correction of the new profile comes into force by a blend where the lane had a grid (R129, R383). -/
def regridLane (l : Nat) (s : State) : State :=
  let m := (laneOf s l).map
  let s := setMap l (fun m => { m with gridSets := [] }) s
  if !(laneRec s l).mapped || m.grid.isNone then setMap l (fun _ => LaneMap.reset) s
  else
    let (g, s) := gridNow l s
    changeMap l { trims := some .none, grid := g } s

/-- MERE after a reload: another geometry or period restarts it, else the new coefficients serve from the next step on (R173, R383). -/
def reloadMere (s : State) : State :=
  let r := s.prof.mere
  let m := s.mere
  let s := setMere (fun m => { m with ovrMask := 0, pendingCoeffs := [] }) s
  if !(m.run || m.due) || m.nx != r.nx || m.ny != r.ny || m.cell != r.cell || m.x0 != r.x0 || m.y0 != r.y0 || m.tU != r.tU then mereStart s
  else setMere (fun m => { m with
    viewPeriodMs := r.viewPeriodMs
    coeffs := { d := r.d, r := r.r, kDep := r.kDep, assimWeight := r.assimWeight, layerBlend := r.layerBlend } }) s

/-- The waiting MERE_COEFFs, whose fields the reload has taken over, complete. -/
def settleCoeffs (s : State) : State := (s.mere.pendingCoeffs.filterMap fun c => c.2.2).foldl (fun s r => endWith r stDone s) s

/-- MACHINE has changed: a member conflict is over, and the election runs again (R352, R383). -/
def endMemberConflict (s : State) : State :=
  let m := s.members
  let m := { m with
    memberConflict := false, conflict := if m.idConflict then m.conflict else 0, elected := false
    keySince := if s.boot.readyLocal then some s.now else none }
  let b := s.boot
  let b := if b.phase = 10 && !m.idConflict then { b with phase := 7, error := 0 } else b
  { s with members := m, boot := b }

/-- FB_EN set by a reload takes X_ORG and P_ORG, and ENABLE of an echo output set by it takes X_ORG anew (R397, R414). -/
def takeOrigins (before : State) (s : State) : State :=
  let s := (List.range 16).foldl (fun s a => if axisFbEn s a && !axisFbEn before a then takeOrg a s else s) s
  (List.range 4).foldl (fun s k =>
    if cfgB s (echoOff k 0) 0 && !cfgB before (echoOff k 0) 0 then
      setEcho k (fun _ => { outCount := 0, xOrg := (encOf s (cfgF s (echoOff k 0) 4 4)).ext }) s
    else s) s

/-- I_SET and DUTY that a reload changes apply at the channel's next period start; a channel without a PWM_PERIOD has none (R444). -/
def reloadLeds (before : State) (s : State) : State :=
  (List.range 16).foldl (fun s c =>
    let i := ledF before c 0x10 0 11
    let d := ledF before c 0x10 16 16
    let x : LedChange := { launch := s.now, iSet := ledF s c 0x10 0 11, duty := ledF s c 0x10 16 16, ref := none }
    if (x.iSet = i && x.duty = d) || pwmPeriod s c = 0 then s
    else setLed c (fun l => { l with changes := l.changes ++ [x] })
      (setCfgF (0x860010 + 0x100 * c) 0 11 i (setCfgF (0x860010 + 0x100 * c) 16 16 d s))) s

/-- The exposures of every camera port are those of set 0 again; the generations go on (R455). -/
def dropExposures (s : State) : State :=
  { s with cams := s.cams.map fun c : Cam => { c with cur := .none, pending := [] } }

/-- A reload (R320, R321, R383): RELOAD-class records apply, overrides return to the profile's values, and the election runs again. -/
def applyReload (use : Nat) (c : ProfCheck) (s : State) : State :=
  let old := s.prof
  let before := s
  let pending := startDiffers old c.records
  let recs := reloadedRecords old c.records
  let changed := (List.range 128).filter fun l => laneChanged old recs l
  let s := settleCoeffs s
  let p := s.profile
  let p := { p with inForce := BitVec.ofNat 2 use, signed := c.signed, generation := BitVec.ofNat 32 c.generation,
                    startPending := pending, records := recs }
  let s := { s with profile := p, cfg := recs.blockCfg.foldl cfgEntryApply cfgDefaults }
  let s := reloadLeds before (takeOrigins before s)
  let off := fun (s : State) l => setLane l (fun x => { x with state := .off, centreAt := none, pos := none }) s
  let s := changed.foldl off s
  let s := (List.range 128).foldl (fun s l => regridLane l s) s
  let s := wakeLanes (writeSources (reloadMere (takePps (takeCommon (dropExposures s)))))
  let s := if old.machine = recs.machine then s else endMemberConflict s
  let s := { s with override := { gen := 0, active := 0 } }
  raise 0xA005 [] s

end Sys2Proof.Machine
end

