-- ==== Sys2Proof/Machine/ProfileCmds.lean ====
section
/-! DEFINITION. Writing and reloading the profile memory (R382 to R384) and the read at a start (R342, R353, R364). -/

namespace Sys2Proof.Machine

def setProfile (f : ProfileBlk → ProfileBlk) (s : State) : State := { s with profile := f s.profile }

/-! ### The read (R357, R364) -/

/-- BAD_OFFSET, BAD_TYPE and BAD_INSTANCE of the last check. -/
def noteBad (c : ProfCheck) (s : State) : State :=
  setProfile (fun p => { p with
    badOffset := BitVec.ofNat 32 c.bad.1, badType := BitVec.ofNat 16 c.bad.2.1, badInstance := BitVec.ofNat 16 c.bad.2.2 }) s

/-- What a selection leaves in GLOBAL_PROF_STAT, and PROFILE_FALLBACK (R364). -/
def noteSelection (x : Selection) (s : State) : State :=
  let s := noteBad x.last s
  let s := setProfile (fun p => { p with
    causeA := BitVec.ofNat 4 x.causeA, causeB := BitVec.ofNat 4 x.causeB, memMib := BitVec.ofNat 9 (p.memBytes / 1048576) }) s
  if x.fallback then raise 0xA020 (natLE 1 x.use ++ natLE 1 (if x.use = 1 then x.causeB else x.causeA)) s else s

/-- A profile comes into force where none was: every record applies and the waiting descriptors start (R342, R343). -/
def takeProfile (use : Nat) (c : ProfCheck) (s : State) : State := startWaiting (applyStart use c s)

/-! ### WRITE (R382) -/

/-- LAST_STATUS and LAST_CMD of a command that has completed. -/
def profileDone (cmd st : Nat) (s : State) : State :=
  setProfile (fun p => { p with lastStatus := BitVec.ofNat 8 st, lastCmd := BitVec.ofNat 8 cmd }) s

/-- A WRITE completes (R385). -/
def writeDone (st target gen : Nat) (s : State) : State :=
  raise 0xA021 (natLE 1 st ++ natLE 1 target ++ natLE 4 gen) (profileDone 1 st s)

/-- The target of a WRITE: the copy not in force, or copy A (R382). -/
def writeTarget (s : State) : Nat := if s.profile.inForce = 1 then 2 else 1

/-- The contents of a copy from its start on. -/
def setCopy (target : Nat) (bs : List Byte) (s : State) : State :=
  setProfile (fun p => if target = 2 then { p with memB := bs } else { p with memA := bs }) s

/-- The cause field of a copy. -/
def setCause (target cause : Nat) (s : State) : State :=
  setProfile (fun p => if target = 2 then { p with causeB := BitVec.ofNat 4 cause } else { p with causeA := BitVec.ofNat 4 cause }) s

/-- The image of a WRITE in Basin, as R363 judges it; LEN must be IMAGE_SIZE. -/
def imageCheck (s : State) (img : List Byte) : ProfCheck :=
  let c := profCheck img img.length s
  if c.cause != 2 && profSize (img.take 256) != img.length then profFails 2 else c

/-- PROFILE_WRITE with the firmware alive. -/
def profileWrite (s : State) : State :=
  let p := s.profile
  let addr := p.ctrlAddr.toNat
  let len := p.ctrlLen.toNat
  let target := writeTarget s
  if p.busy then writeDone stBusy target 0 s
  else if addr % 4096 != 0 || len < 256 || !hostMem addr len s then writeDone stParam target 0 s
  else
    match poisonIn addr len s with
    | some e => writeDone stParam target 0 (setCause target 1 (eccUe 33 e s))
    | none =>
      let s := touchBasin addr len s
      let img := memRead addr len s
      let c := imageCheck s img
      let s := if c.cause = 0 then setCause target 0 s else noteBad c (setCause target c.cause s)
      let gen := profGen (img.take 256)
      if c.cause != 0 || decide (gen ≤ p.generation.toNat) || decide (p.memBytes / 2 < len) then writeDone stParam target gen s
      else
        setCopy target (img.take 256) (setProfile (fun p => { p with busy := true, progress := 0, writing := some (target, img) }) s)

/-- PROFILE_WRITE: 0x01 is written to CMD of GLOBAL_PROF_CTRL. The firmware carries it out. -/
def execProfileWrite (s : State) : Host.Outcome State Fault Refusal := .next (if s.boot.alive then profileWrite s else s)

/-- Bytes that a failed WRITE leaves (log 1). -/
def freeBytes (n : Nat) (s : State) : List Byte × State :=
  let (k, s) := takeFree s
  ((List.range n).map fun i => BitVec.ofNat 8 (Config.freeNat k / 256 ^ i), s)

/-- PROFILE_WRITE_DONE: the target holds the image, or reads back otherwise (1), or a step has taken too long (2). -/
def profileWriteDone (result : Nat) (s : State) : State :=
  match s.profile.writing with
  | none => s
  | some (target, img) =>
    let gen := profGen (img.take 256)
    let s := setProfile (fun p => { p with busy := false, progress := 100, writing := none }) s
    if result = 0 then writeDone stDone target gen (setCopy target img s)
    else
      let (bs, s) := freeBytes img.length s
      writeDone (if result = 1 then stData else stTimeout) target gen (setCopy target bs s)

def execProfileWriteDone (t : Ns) (result : Nat) (s : State) : Host.Outcome State Fault Refusal :=
  .next (profileWriteDone result (passTo t s))

/-! ### RELOAD (R383) -/

/-- A RELOAD completes (R385). -/
def reloadDone (st : Nat) (s : State) : State :=
  let s := profileDone 2 st s
  raise 0xA022 (natLE 1 st ++ natLE 4 s.profile.generation.toNat ++ natLE 1 (b1 s.profile.startPending)) s

/-- PROFILE_RELOAD with the firmware alive. -/
def profileReload (s : State) : State :=
  if s.profile.busy then reloadDone stBusy s
  else if jobExists s then reloadDone stState s
  else if setsInCommit s != 0 then reloadDone stBusy s
  else
    let x := selectCopy s
    let s := noteSelection x s
    if x.use = 0 then reloadDone stData s
    else if profileInForce s then
      let s := applyReload x.use x.last s
      reloadDone (if s.profile.startPending then stDoneNote else stDone) s
    else reloadDone stDone (takeProfile x.use x.last s)

/-- PROFILE_RELOAD: 0x02 is written to CMD of GLOBAL_PROF_CTRL. -/
def execProfileReload (s : State) : Host.Outcome State Fault Refusal := .next (if s.boot.alive then profileReload s else s)

end Sys2Proof.Machine
end

