-- ==== Sys2Proof/Machine/Startup.lean ====
section
/-! DEFINITION. Start-up from the boot ROM to READY (R332 to R346, R353), and the events that start, hold or stop the whole module
(R327, R328, R555). -/

namespace Sys2Proof.Machine

def setBoot (f : Boot → Boot) (s : State) : State := { s with boot := f s.boot }

/-- PHASE changes; vector 39 fires as it becomes WAIT_IMAGE, CORES_START or FAILED (R332, R339), and FAILED drives FAULT_N low (R353). -/
def enterPhase (ph : Nat) (s : State) : State :=
  let s := setBoot (fun b => { b with phase := BitVec.ofNat 4 ph }) s
  let s := if ph = 11 then { s with pins := { s.pins with faultN := false } } else s
  if ph = 2 || ph = 4 || ph = 11 then fireVector 39 s else s

/-- ERROR (R353). -/
def setError (e : Nat) (s : State) : State := setBoot (fun b => { b with error := BitVec.ofNat 8 e }) s

/-! ### Power and pins (R327, R328, R555) -/

/-- VIN_RISE: VIN rises through 33 V with the module OFF (R327). With RESET_N low the module stays in reset (R328). -/
def vinRise (s : State) : State :=
  if s.power.state != .off then s
  else if s.pins.resetN then restart .por 0 0 s
  else hold .por 0 .held s

def execVinRise (t : Ns) (s : State) : Host.Outcome State Fault Refusal := .next (vinRise (passTo t s))

/-- VIN_FALL: VIN falls below 31 V, or below 6 V, which alone takes a module in HIBERNATE to OFF (R327, R572). -/
def vinFall (below6 : Bool) (s : State) : State :=
  match s.power.state with
  | .off => s
  | .hibernate => if below6 then hold .pin 0 .off s else s
  | .standby => hold .pin 0 .off s
  | .held => hold .pin 0 .off s
  | .on => hold .pin 0 .off s

def execVinFall (t : Ns) (below6 : Bool) (s : State) : Host.Outcome State Fault Refusal := .next (vinFall below6 (passTo t s))

/-- Power is there for a PIN reset. -/
def powered (s : State) : Bool := s.power.state != .off && s.power.state != .hibernate

/-- RESET_N_LOW: RESET_N has been low for 10 µs (R328). -/
def resetNLow (s : State) : State :=
  let s := { s with pins := { s.pins with resetN := false } }
  if powered s then hold .pin 0 .held s else s

def execResetNLow (t : Ns) (s : State) : Host.Outcome State Fault Refusal := .next (resetNLow (passTo t s))

/-- A held module starts, where neither RESET_N, the clock nor a latched shutdown holds it any longer (R328, R519, R555). -/
def tryRelease (s : State) : State :=
  if s.power.state == .held && s.pins.resetN && !s.power.clkLost && s.hk.shutAt.isNone then release s else s

/-- RESET_N_RISE: start-up resumes at the POR-release step (R328). -/
def resetNRise (s : State) : State := tryRelease { s with pins := { s.pins with resetN := true } }

def execResetNRise (t : Ns) (s : State) : Host.Outcome State Fault Refusal := .next (resetNRise (passTo t s))

/-- REFCLK_LOST: the safe state at once, then a hold as in a PIN reset with cause CLOCK (R555). -/
def refclkLost (s : State) : State :=
  if (s.power.state != .on && s.power.state != .held) || (s.power.state == .held && s.hk.shutAt.isSome) then s
  else
    let s := hold .pin 1 .held (beamsOff s)
    { s with power := { s.power with clkLost := true } }

def execRefclkLost (t : Ns) (s : State) : Host.Outcome State Fault Refusal := .next (refclkLost (passTo t s))

/-- REFCLK_RESTORED: REFCLK_IN, out of tolerance for `outUs`, has been within it for 10 ms; CLOCK_LOST waits for the firmware (R555). -/
def refclkRestored (outUs : Nat) (s : State) : State :=
  if !s.power.clkLost then s
  else
    let p := s.power
    tryRelease { s with power := { p with clkLost := false, onAlive := p.onAlive ++ [(0x1010, natLE 4 outUs)] } }

def execRefclkRestored (t : Ns) (outUs : Nat) (s : State) : Host.Outcome State Fault Refusal := .next (refclkRestored outUs (passTo t s))

/-! ### The boot ROM (R333) -/

/-- DRAM_TRAIN_DONE: training ends; the third failure is FAILED (R333, R353). -/
def dramTrainDone (ok : Bool) (s : State) : State :=
  let b := s.boot
  if s.power.state != .on || b.sensorWait || b.trained || decide (1 < b.phase.toNat) then s
  else if ok then enterPhase 2 (setBoot (fun b => { b with trained := true }) s)
  else if b.trainTries < 2 then setBoot (fun b => { b with phase := 1, trainTries := b.trainTries + 1 }) s
  else enterPhase 11 (setError 1 (setBoot (fun b => { b with trainTries := b.trainTries + 1 }) s))

def execDramTrainDone (t : Ns) (ok : Bool) (s : State) : Host.Outcome State Fault Refusal := .next (dramTrainDone ok (passTo t s))

/-- ETH_SPEED_TRY: 200 ms at one speed have ended, with block lock or without (R333). -/
def ethSpeedTry (lock : Bool) (s : State) : State :=
  if s.power.state != .on || s.boot.alive || s.boot.ethLock then s
  else if lock then setBoot (fun b => { b with ethLock := true }) s
  else setBoot (fun b => { b with eth25g := !b.eth25g }) s

def execEthSpeedTry (t : Ns) (lock : Bool) (s : State) : Host.Outcome State Fault Refusal := .next (ethSpeedTry lock (passTo t s))

/-- GO is taken: the checks of R337 begin on `len` bytes. -/
def goNow (len : Nat) (path : Bool) (s : State) : State :=
  setBoot (fun b => { b with phase := 3, goLen := len, path := path, session := none }) s

/-- BOOT_GO: 0x01 is written to CMD of GLOBAL_BOOT_CTRL (R339). -/
def bootGo (s : State) : State :=
  let len := s.boot.ctrlLen.toNat
  if s.boot.phase != 2 then accessError stState 0x1104 s
  else if len < 4096 || 50331648 < len then accessError stParam 0x1104 s
  else goNow len false s

def execBootGo (s : State) : Host.Outcome State Fault Refusal := .next (atHost bootGo s)

/-- BOOT_CLEAR (R339). -/
def bootClear (s : State) : State := setBoot (fun b => { b with received := 0 }) s

def execBootClear (s : State) : Host.Outcome State Fault Refusal := .next (atHost bootClear s)

/-! ### The image (R335 to R337) -/

/-- A segment of an image. -/
structure ImageSeg where
  offset : Nat
  size : Nat
  load : Nat
  loadSize : Nat
  kind : Nat
deriving DecidableEq, Repr

/-- Entry `i` of the segment table. -/
def readSeg (hd : List Byte) (i : Nat) : ImageSeg :=
  let o := 64 + 24 * i
  { offset := field hd o 4, size := field hd (o + 4) 4, load := field hd (o + 8) 8, loadSize := field hd (o + 16) 4, kind := field hd (o + 20) 1 }

/-- A used entry of the segment table is as R335 states, in an image of `len` bytes. -/
def segOk (len : Nat) (hd : List Byte) (i : Nat) : Bool :=
  let g := readSeg hd i
  g.offset % 64 == 0 && decide (512 ≤ g.offset) && decide (g.offset + g.size ≤ len - 160)
    && decide (1 ≤ g.kind) && decide (g.kind ≤ 3) && (g.kind != 3 || g.size == 0)
    && decide (0x03000000 ≤ g.load) && decide (g.load ≤ 0x1FFFFFFF) && decide (g.load + g.loadSize ≤ 0x20000000)
    && decide (g.size ≤ g.loadSize) && zeroAt hd (64 + 24 * i + 21) 3

/-- Two load ranges do not overlap. -/
def apart (a b : ImageSeg) : Bool := decide (a.load + a.loadSize ≤ b.load) || decide (b.load + b.loadSize ≤ a.load)

/-- The segments of an image. -/
def segsOf (hd : List Byte) : List ImageSeg := (List.range (field hd 28 4)).map (readSeg hd)

/-- No two segments of a list overlap. -/
def allApart : List ImageSeg → Bool
  | [] => true
  | g :: gs => gs.all (apart g) && allApart gs

/-- ENTRY lies in a CODE segment. -/
def imageEntryOk (hd : List Byte) : Bool :=
  let e := field hd 32 8
  (segsOf hd).any fun g => g.kind == 1 && decide (g.load ≤ e) && decide (e < g.load + g.loadSize)

/-- Check 1: the format of an image of `len` bytes, from its header and its signature block. -/
def imageFormatOk (len : Nat) (hd sig : List Byte) : Bool :=
  let n := field hd 28 4
  field hd 0 4 == 0x57464345 && field hd 4 2 == 1 && field hd 6 2 == 512 && field hd 8 4 == len && len % 4 == 0
    && decide (field hd 16 2 ≤ 64) && decide (field hd 18 2 < 4) && decide (field hd 20 4 < 8)
    && decide (1 ≤ n) && decide (n ≤ 16) && (List.range n).all (segOk len hd)
    && zeroAt hd (64 + 24 * n) (384 - 24 * n) && zeroAt hd 40 24 && zeroAt hd 448 64
    && allApart (segsOf hd) && imageEntryOk hd
    && field sig 0 4 == 0x47495345 && zeroAt sig 5 11

/-- The checks of R337 on the staged image: 0, or ERROR of the first that fails. A word that reads as uncorrectable fails the check that
reads it: the header and the signature block are read by the first, the rest by the fourth. -/
def imageChecks (len : Nat) (s : State) : Nat :=
  let hd := memRead 0 512 s
  let sig := memRead (len - 160) 160 s
  let key := field sig 4 1
  let pub := Config.eohusKey key
  if (poisonIn 0 512 s).isSome || (poisonIn (len - 160) 160 s).isSome then 8
  else if !imageFormatOk len hd sig then 2
  else if !(field hd 20 4).testBit s.variant.code || decide (s.ident.dieStep.toNat < field hd 24 4) then 3
  else if decide (3 < key) || s.ident.otp.keysRevoked.getLsbD key then 6
  else if (poisonIn 0 len s).isSome then 8
  else if sha384 (memRead 0 (len - 160) s) != (sig.drop 16).take 48 then 4
  else if !ecdsaVerify p384 pub.1 pub.2 ((sig.drop 16).take 48) (beNat ((sig.drop 64).take 48)) (beNat ((sig.drop 112).take 48)) then 5
  else if field hd 16 2 < s.ident.otp.rollback.toNat then 7
  else 0

/-- A segment is copied to LOAD and the rest of its range filled with 0 (R337). -/
def loadSeg (img : State) (g : ImageSeg) (s : State) : State :=
  memPut g.load (memRead g.offset g.size img ++ List.replicate (g.loadSize - g.size) 0) s

/-- IMAGE_VERIFY_DONE: the checks end (R337). -/
def imageVerifyDone (s : State) : State :=
  if s.boot.phase != 3 then s
  else
    let len := s.boot.goLen
    let e := imageChecks len s
    if e != 0 then
      let s := if e = 8 then (poisonIn 0 len s).elim s fun a => eccUe 32 a s else s
      enterPhase 2 (setError e (setBoot (fun b => { b with attempts := satInc b.attempts }) s))
    else
      let hd := memRead 0 512 s
      let key := field (memRead (len - 160) 160 s) 4 1
      let img := (len, field hd 16 2, key, bit (field hd 18 2) 0, bit (field hd 18 2) 1)
      let s := (segsOf hd).foldl (fun t g => loadSeg s g t) s
      enterPhase 4 (setBoot (fun b => { b with fwVersion := BitVec.ofNat 32 (field hd 12 4), image := some img, coresAt := s.now }) s)

def execImageVerifyDone (t : Ns) (s : State) : Host.Outcome State Fault Refusal := .next (imageVerifyDone (passTo t s))

/-- CORE_START_TIMEOUT: no alive report within 1 s (R337). -/
def coreStartTimeout (s : State) : State :=
  if s.boot.phase != 4 || decide (s.now < s.boot.coresAt + 1000000000) then s else enterPhase 2 (setError 9 s)

def execCoreStartTimeout (t : Ns) (s : State) : Host.Outcome State Fault Refusal := .next (coreStartTimeout (passTo t s))

/-! ### The firmware (R342, R567) -/

/-- The cores run and have not reported alive yet: after a load, or after a FIRMWARE reset that kept its image (R330). -/
def coresWait (s : State) : Bool :=
  s.power.state == .on && !s.boot.alive && (s.boot.phase == 4 || (s.boot.image.isSome && decide (5 ≤ s.boot.phase.toNat) && s.boot.phase != 11))

/-- PHASE as the firmware finds it: PROFILE after a load, or, where a profile is in force already, the place where start-up stood. -/
def alivePhase (s : State) : BitVec 4 :=
  if s.boot.phase != 4 then s.boot.phase
  else if !profileInForce s then 5
  else if s.boot.partnersDone then 7 else 6

/-- FIRMWARE_ALIVE: FAULT_N is released (R353), RESTARTED and what else has waited is raised (R355, R579), the START record is due (R543)
and every port that is up is enumerated (R342). -/
def firmwareAlive (s : State) : State :=
  if !coresWait s then s
  else
    let first := s.boot.phase == 4
    let ph := alivePhase s
    let s := setBoot (fun b => { b with alive := true, aliveAt := s.now, phase := ph }) s
    let p := s.power
    let s := { s with power := { p with safe := false, onAlive := [] }, pins := { s.pins with faultN := true } }
    let s := raise 0x1013 (natLE 1 p.lastKind.toNat ++ natLE 1 p.wakeCause.toNat ++ natLE 1 p.cause.toNat) s
    let s := p.onAlive.foldl (fun s e => raise e.1 e.2 s) s
    let s := if first && decide (p.lastKind.toNat ≤ 1) then recDue 2 0 [] s else s
    let s := (List.range s.variant.ports).foldl (fun s q => enumeration q s) s
    wakeLanes s

def execFirmwareAlive (t : Ns) (s : State) : Host.Outcome State Fault Refusal := .next (firmwareAlive (passTo t s))

/-- PROFILE_READ_DONE: the selection of R364 ends with a profile in force or NO_PROFILE (R342, R353). -/
def profileReadDone (s : State) : State :=
  if !s.boot.alive || s.boot.phase != 5 || profileInForce s then s
  else
    let x := selectCopy s
    let s := noteSelection x s
    if x.use = 0 then raise 0xA019 [] (enterPhase 12 (setError 10 s)) else takeProfile x.use x.last s

def execProfileReadDone (t : Ns) (s : State) : Host.Outcome State Fault Refusal := .next (profileReadDone (passTo t s))

/-- FW_WATCHDOG: the firmware misses its alive report (R567). -/
def fwWatchdog (s : State) : State :=
  if !s.boot.alive then s
  else
    let p := s.power
    firmwareReset 3 { s with power := { p with onAlive := p.onAlive ++ [(0x1014, [])] } }

def execFwWatchdog (t : Ns) (s : State) : Host.Outcome State Fault Refusal := .next (fwWatchdog (passTo t s))

/-! ### Partners and READY (R344 to R346, R338) -/

/-- The (port, node) pairs that the lane map and the node records name (R344). -/
def partnerNodes (s : State) : List (Nat × Nat) :=
  let ls := (List.range s.variant.lanes).filterMap fun l => let r := laneRec s l; if r.mapped then some (r.port, r.hop) else none
  let ns := s.prof.nodes.map fun n => (n.1 / 16, n.1 % 16 + 1)
  (ls ++ ns.filter fun n => decide (n.1 < s.variant.ports)).eraseDups

/-- How many of them are absent. -/
def partnersAbsent (s : State) : Nat := ((partnerNodes s).filter fun n => !(nodeOf s n.1 n.2).present).length

/-- PARTNER_WAIT_END: every node is present, or PARTNER_WAIT is over (R344); the start calibrations follow (R345). -/
def partnerWaitEnd (s : State) : State :=
  let n := partnersAbsent s
  if s.boot.phase != 6 || !profileInForce s || !s.boot.alive then s
  else if n != 0 && decide (s.now < s.boot.profileAt + 1000000000 * s.prof.machine.partnerWaitS) then s
  else
    let s := setBoot (fun b => { b with phase := 7, partnersDone := true, startCalDone := true }) s
    let s := if n = 0 then s else raise 0x400C (natLE 2 n) s
    calAtStart s

def execPartnerWaitEnd (t : Ns) (s : State) : Host.Outcome State Fault Refusal := .next (partnerWaitEnd (passTo t s))

/-- No start calibration without emission waits or runs (R345). -/
def startCalOver (s : State) : Bool := (s.hk.waits.all fun w => w.kind == 1) && s.hk.runs.all fun r => r.kind == 1

/-- The fuses that READY_LOCAL blows for an image (R338). -/
def commitRollback (s : State) : State :=
  match s.boot.image with
  | some (_, rb, key, commit, revoke) =>
    let o := s.ident.otp
    let old := o.rollback.toNat
    if commit && decide (old < rb) then
      let gone := if revoke then BitVec.ofNat 4 (2 ^ key - 1) else 0
      let o := { o with rollback := BitVec.ofNat 7 rb, keysRevoked := o.keysRevoked ||| gone }
      raise 0xA018 (natLE 1 old ++ natLE 1 rb ++ natLE 1 gone.toNat) { s with ident := { s.ident with otp := o } }
    else s
  | none => s

/-- What READY_LOCAL needs (R346). -/
def readyNow (s : State) : Bool :=
  s.boot.alive && profileInForce s && s.boot.partnersDone && startCalOver s && !s.members.idConflict && !s.members.memberConflict

/-- READY_LOCAL (R346): START_MS is of the first time since the reset. -/
def readyLocal (s : State) : State :=
  if s.boot.readyLocal || !readyNow s then s
  else
    let ms := if s.boot.startMs = 0 then BitVec.ofNat 32 (min 0xFFFFFFFF ((s.now - s.boot.porAt) / 1000000)) else s.boot.startMs
    let s := setBoot (fun b => { b with readyLocal := true, phase := 8, startMs := ms }) s
    let s := raise 0xA010 (natLE 4 ms.toNat ++ natLE 2 (partnersAbsent s)) { s with members := { s.members with keySince := some s.now } }
    updateSynced (commitRollback s)

def execReadyLocal (t : Ns) (s : State) : Host.Outcome State Fault Refusal := .next (readyLocal (passTo t s))

/-! ### PERST_N and ARP (R331, R333) -/

/-- PERST_LOW: the PCIe endpoint alone is in reset, its link down (R331). -/
def perstLow (s : State) : State := pcieDown { s with pins := { s.pins with perstN := false } }

def execPerstLow (t : Ns) (s : State) : Host.Outcome State Fault Refusal := .next (perstLow (passTo t s))

/-- The IPv4 address of the ROM (R333). -/
def romIp (s : State) : Nat :=
  let m := s.ident.moduleId.toNat
  169 * 2 ^ 24 + 254 * 2 ^ 16 + (1 + m / 250) * 256 + (1 + m % 250)

/-- The IPv4 address at which the module answers: the ROM's until a profile is in force and where it has no NETWORK record, then the
record's, if it gives one and leaves port 0 on (R333, R341, R378). -/
def ownIp (s : State) : Option Nat :=
  if !profileInForce s then some (romIp s)
  else
    match s.prof.network with
    | none => some (romIp s)
    | some n => if n.ipv4 = 0 || unit n.speed 0 0 = 0 then none else some n.ipv4

/-- ARP_REQUEST: a request for the module's own address is answered with its MAC address (R333). -/
def arpRequest (ip : Nat) (s : State) : State :=
  if s.power.state == .on && ownIp s == some ip then { s with sent := .arp s.ident.otp.mac.toNat ip :: s.sent } else s

def execArpRequest (t : Ns) (ip : Nat) (s : State) : Host.Outcome State Fault Refusal := .next (arpRequest ip (passTo t s))

end Sys2Proof.Machine
end

