-- ==== Sys2Proof/Machine/PowerCmds.lean ====
section
/-! DEFINITION. Reset commands, power states and crossings (R561 to R578). -/

namespace Sys2Proof.Machine

def setPower (f : Power → Power) (s : State) : State := { s with power := f s.power }

/-! ### CMD of GLOBAL_POWER_CTRL (R569) -/

/-- KEY. -/
def powerKey : BitVec 16 := 0x5253

/-- A reset or an entry is under way (R569): a FIRMWARE reset until the firmware is alive again, a BLOCK reset until its unit is released. -/
def resetUnderWay (s : State) : Bool :=
  s.power.entry != 0 || s.power.state != .on || !s.power.blockReset.isEmpty || (s.axes.axes.any fun x => x.toReset)
    || (coresWait s && s.boot.phase != 4)

/-- A command of GLOBAL_POWER_CTRL: `bad` is what makes it REJECTED_PARAM beside the KEY, `barred` what makes it REJECTED_STATE. -/
def powerCommand (key : BitVec 16) (bad barred : Bool) (run : State → State) (s : State) : State :=
  if key != powerKey || bad then accessError stParam 0x1400 s
  else if barred then accessError stState 0x1400 s
  else if resetUnderWay s then accessError stBusy 0x1400 s
  else run s

/-! ### MODULE and FIRMWARE (R330, R567) -/

/-- The MODULE reset: the safe state, and the restart of every reached block. A module whose training has FAILED stays so (R353). -/
def moduleReset (s : State) : State :=
  let failed := s.boot.phase == 11
  let s := restart .module 0 0 (forceSafe s)
  if failed then setBoot (fun b => { b with phase := 11, error := 1 }) s else s

def execModuleResetCmd (key : BitVec 16) (s : State) : Host.Outcome State Fault Refusal := .next (atHost (powerCommand key false false moduleReset) s)

def execFirmwareResetCmd (key : BitVec 16) (s : State) : Host.Outcome State Fault Refusal :=
  .next (atHost (powerCommand key false false (firmwareReset 0)) s)

/-! ### BLOCK (R568) -/

/-- A lane goes to OFF; during a job its fault is recorded with code LANE and cause BLOCK_RESET, and the fault policy applies (R96, R136). -/
def laneBlockReset (l : Nat) (s : State) : State :=
  let ln := laneOf s l
  let inJob := jobExists s && (jobHeader s).any fun h => h.lanes.getLsbD l
  let i := faultIndexAt ln s.now
  let s := if inJob then cutMark l 1 (noteFault l fcLane i (writeTail l (if ln.state.active then flushCut l i s else s))) else s
  let s := stopLane l .off (killLane l s)
  let s := setLane l Lane.blockReset s
  if !inJob then s
  else
    let s := setLane l (fun x => { x with
      code := fcLane, cause := 7, faultIndex := i, faultTime := BitVec.ofNat 64 (afterTor s s.now), faultAt := some s.now }) s
    let s := laneEvent l 0x3020 (natLE 1 fcLane ++ natLE 1 7 ++ natLE 4 i) s
    let r := breakSync l (faultPolicy l s)
    faultAll 512 (r.2.map fun k => (k, fcSyncBroken, 0, none)) r.1

/-- A tarn: its lanes, and its real-time port's panic. -/
def tarnBlockReset (t : Nat) (s : State) : State :=
  let s := (List.range 8).foldl (fun s i => laneBlockReset (8 * t + i) s) s
  let s := { s with tarns := modUnit s.tarns t fun x => { x with panicCount := 0 } }
  { s with basin := { s.basin with rt := modUnit s.basin.rt t fun r => { r with panic := false } } }

/-- A Spring Link port: its nodes and their beams go, the lanes fault, and the link is down until it trains again (R277). What a later
enumeration of R276 needs is kept. -/
def portBlockReset (p : Nat) (s : State) : State :=
  let s := loseFrom p 1 6 s
  setPort p (fun q => { Port.reset with
    txSwing := q.txSwing, txDeemph := q.txDeemph, swingNext := q.swingNext, deemphNext := q.deemphNext, killSeq := q.killSeq
    nodes := q.nodes.map fun n : Node => { Node.reset with lost := n.lost, ident := n.ident } }) s

/-- The image pipeline: every frame in progress ends flagged TRUNCATED and RESET (R453). -/
def pipeBlockReset (s : State) : State :=
  (List.range 8).foldl (fun s p => endFrame p true (setFrame p (fun f => { f with truncated := true }) s)) (camSettle s)

/-- A compression channel: its job ends with ABORTED_RESET, and its counters begin anew. -/
def zipBlockReset (c : Nat) (s : State) : State :=
  setZip c (fun z => { z with bytesIn := 0, bytesOut := 0, blocks := 0, stored := 0, noSpace := 0, noGain := 0, limit := 0, dataErr := 0 })
    (zipAbort c s)

/-- An axis: an emergency stop, then the reset (R415). -/
def axisBlockReset (a : Nat) (s : State) : State :=
  let s := dropPending a stAbReset s
  if (axisOf s a).plan.isNone then
    let s := match (axisOf s a).homing with | some h => finishIn (256 + a) h.ref stAbReset 0 0 s | none => s
    setAxis a (fun y => { Axis.reset with axen := false, xOrg := y.xOrg }) s
  else
    let s := beginStop a (axisEmg s a) stAbReset s
    settleAxis a (setAxis a (fun x => { x with toReset := true }) s)

/-- A BLK_KIND and a BLK_INDEX that name a unit of the variant. -/
def blockUnitOk (kind i : Nat) (s : State) : Bool :=
  match kind with
  | 0 => decide (i < s.variant.lanes)
  | 1 => decide (i < s.variant.tarns)
  | 2 => decide (i < s.variant.ports)
  | 3 => decide (i < s.variant.cameras)
  | 4 => true
  | 5 => decide (i < 8)
  | 6 => decide (i < 16)
  | _ => false

/-- The BLOCK reset: the unit is held from now until XING_RESYNC releases it. -/
def blockReset (s : State) : State :=
  let kind := s.power.blkKind.toNat
  let i := s.power.blkIndex.toNat
  let s := setPower (fun p => { p with blockReset := (kind, if kind = 4 then 0 else i) :: p.blockReset }) s
  match kind with
  | 0 => laneBlockReset i s
  | 1 => tarnBlockReset i s
  | 2 => portBlockReset i s
  | 3 => camBlockReset i (camSettle s)
  | 4 => pipeBlockReset s
  | 5 => zipBlockReset i s
  | 6 => axisBlockReset i s
  | _ => s

def execBlockResetCmd (key : BitVec 16) (s : State) : Host.Outcome State Fault Refusal :=
  .next (atHost (powerCommand key (!blockUnitOk s.power.blkKind.toNat s.power.blkIndex.toNat s) false blockReset) s)

/-! ### PULSE crossings (R558) -/

/-- The PULSE crossing of a unit. -/
def pulseOf (s : State) (u : UnitId) : PulseXing :=
  (s.power.pulses.find? fun x => x.unit == u).getD { unit := u, count := 0, lost := false, told := none }

/-- The crossing of its unit is replaced. -/
def putPulse (x : PulseXing) (s : State) : State :=
  setPower (fun p => { p with pulses := x :: p.pulses.filter fun y => y.unit != x.unit }) s

/-- `n` events arrive while a handshake is in flight: the counter saturates at 255, and events beyond it set LOST. -/
def pulseArrive (u : UnitId) (n : Nat) (s : State) : State :=
  let x := pulseOf s u
  if n = 0 then s
  else putPulse { x with count := satAdd x.count n, lost := x.lost || decide (255 < x.count.toNat + n) } s

/-- A handshake carries the LOST flag: PULSE_LOST counts, and XING_PULSE_LOST is raised, once per crossing per second at most. The
counter starts again from 0. -/
def pulseHandshake (u : UnitId) (s : State) : State :=
  let x := pulseOf s u
  if !x.lost then (if x.count = 0 then s else putPulse { x with count := 0 } s)
  else
    let first := match x.told with | some t => decide (t + 1000000000 ≤ s.now) | none => true
    let s := setPower (fun p => { p with pulseLost := satInc p.pulseLost })
      (putPulse { x with count := 0, lost := false, told := if first then some s.now else x.told } s)
    if first then raise 0x1015 (natLE 1 u.1 ++ natLE 1 u.2) s else s

/-- The counts of a crossing toward a unit in reset are dropped with their flag (R562). -/
def pulseDrop (u : UnitId) (s : State) : State :=
  let x := pulseOf s u
  if x.count = 0 && !x.lost then s else putPulse { x with count := 0, lost := false } s

/-- XING_RESYNC: a unit's crossings are resynchronised after a release or a stopped clock, `dropped` transfers having been lost and
`events` having come to its PULSE crossing while a handshake could not complete; their count is dropped as well, and after a stopped
clock the next handshake carries LOST (log 108). An episode of DOMAIN_DOWN is over (R558, R561, R562, R563). -/
def xingResync (u : UnitId) (dropped events : Nat) (s : State) : State :=
  let was := s.power.blockReset.contains u
  let s := pulseArrive u events s
  let n := (pulseOf s u).count.toNat
  let s := setPower (fun p => { p with
    blockReset := p.blockReset.filter fun x => x != u
    dropped := satAdd p.dropped (dropped + n)
    downEpisode := false }) s
  let s := if was then pulseDrop u s else pulseHandshake u s
  if !was then s
  else if u.1 = 0 then laneToIdle u.2 s
  else if u.1 = 1 then (List.range 8).foldl (fun s i => laneToIdle (8 * u.2 + i) s) s
  else s

def execXingResync (t : Ns) (unit : UnitId) (dropped : XingLoss) (s : State) : Host.Outcome State Fault Refusal :=
  .next (xingResync unit dropped.transfers dropped.events (passTo t s))

/-- An access ends with DOMAIN_DOWN (R284, R561); a read of BAR0 then returns all ones. -/
def accessTimeout (off : Nat) (read : Bool) (s : State) : State :=
  let first := !s.power.downEpisode
  let s := setPower (fun p => { p with down := satInc p.down, lastDown := BitVec.ofNat 26 off, downEpisode := true }) s
  let s := accessError stDown off s
  let s := if first then raise 0x1016 (natLE 4 off) s else s
  if read then { s with sent := .readData off 0xFFFFFFFF :: s.sent } else s

def execAccessTimeout (t : Ns) (off : Nat) (read : Bool) (s : State) : Host.Outcome State Fault Refusal :=
  .next (accessTimeout off read (passTo t s))

/-! ### Entry to STANDBY and HIBERNATE (R575) -/

/-- An entry begins: descriptors end, the safe state is forced, axes come to rest, and the recorder writes its record. `kind` is ENTRY. -/
def beginEntry (kind : Nat) (byPin : Bool) (s : State) : State :=
  let s := setPower (fun p => { p with entry := BitVec.ofNat 2 kind, hibByPin := byPin, earlyWake := none, armed := false }) s
  let s := dropOwners (endAll stAbHost s)
  let s := if kind = 1 then raise 0x1011 (natLE 1 s.basin.retain.toNat) s else raise 0x1012 (natLE 1 (b1 byPin)) s
  let s := axesToRest (beamsOff s)
  recDue (if kind = 1 then 6 else 5) 0 [] s

/-- What bars CMD STANDBY and CMD HIBERNATE (R569). -/
def entryBarred (s : State) : Bool := jobExists s || s.profile.busy

def execStandbyCmd (key : BitVec 16) (s : State) : Host.Outcome State Fault Refusal :=
  .next (atHost (powerCommand key false (entryBarred s) (beginEntry 1 false)) s)

def execHibernateCmd (key : BitVec 16) (s : State) : Host.Outcome State Fault Refusal :=
  .next (atHost (powerCommand key false (entryBarred s) (beginEntry 2 false)) s)

/-- POWER_ENTRY_DONE: the clocks stop. In STANDBY the retained segments of Basin are kept (R503); what came meanwhile to wake the module is
remembered (R577). -/
def powerEntryDone (s : State) : State :=
  let early := s.power.earlyWake
  if s.power.entry = 1 then setPower (fun p => { p with earlyWake := early }) (hold .standbyExit 0 .standby s)
  else if s.power.entry = 2 then setPower (fun p => { p with earlyWake := early }) (hold .pin 0 .hibernate s)
  else s

def execPowerEntryDone (t : Ns) (s : State) : Host.Outcome State Fault Refusal := .next (powerEntryDone (passTo t s))

/-! ### Leaving them (R576, R577) -/

/-- WAKE_CAUSE codes in the order in which one is recorded where several come at once (R577). -/
def wakeRank (c : BitVec 3) : Nat := if c = 1 then 0 else if c = 4 then 1 else if c = 3 then 2 else 3

/-- A wake source that counts in the state that is, or is being, entered. -/
def wakeCounts (c : BitVec 3) (s : State) : Bool :=
  if s.power.state == .standby || s.power.entry == 1 then c == 1 || c == 3 || c == 4
  else if s.power.state == .hibernate || s.power.entry == 2 then c == 1 || c == 2
  else false

/-- The module is held in reset where RESET_N is low as it starts (R328). -/
def heldIfReset (s : State) : State :=
  if s.pins.resetN then s
  else
    let boot := { s.boot with phase := 0 }
    { s with boot := boot, power := { s.power with state := .held } }

/-- STANDBY is left: start-up follows the STANDBY exit row of R329, and PCIE_WAKE_N goes low after a wake frame or HIB_WAKE. -/
def leaveStandby (c : BitVec 3) (s : State) : State :=
  let s := release s
  let s := setPower (fun p => { p with
    wakeCause := c, armed := false, earlyWake := none, reqArmed := s.pins.hibReqN
    lastKind := BitVec.ofNat 3 ResetKind.standbyExit.code }) s
  heldIfReset (if c = 4 then s else { s with pins := { s.pins with pcieWakeN := false } })

/-- The module wakes for a cause. -/
def wakeNow (c : BitVec 3) (s : State) : State :=
  if s.power.state == .standby then leaveStandby c s
  else if s.power.state == .hibernate then heldIfReset (restart .wake 0 c.toNat s)
  else s

/-- A wake event: before the sources are armed it waits (R577). -/
def wakeEvent (c : BitVec 3) (s : State) : State :=
  if !wakeCounts c s then s
  else if s.power.armed then wakeNow c s
  else
    let best := match s.power.earlyWake with | some d => if wakeRank c < wakeRank d then c else d | none => c
    setPower (fun p => { p with earlyWake := some best }) s

/-- WAKE_SOURCES_ARMED: an event that came before acts now, as does HIB_WAKE where it is high (R577). -/
def wakeSourcesArmed (s : State) : State :=
  if (s.power.state == .standby || s.power.state == .hibernate) && !s.power.armed then
    let c := if s.pins.hibWake then some 1 else s.power.earlyWake
    let s := setPower (fun p => { p with armed := true, earlyWake := none }) s
    match c with | some c => wakeNow c s | none => s
  else s

def execWakeSourcesArmed (t : Ns) (s : State) : Host.Outcome State Fault Refusal := .next (wakeSourcesArmed (passTo t s))

/-- PERST_RISE: PERST_N rises after at least 100 µs low (R331, R576). -/
def perstRise (s : State) : State := wakeEvent 4 { s with pins := { s.pins with perstN := true } }

def execPerstRise (t : Ns) (s : State) : Host.Outcome State Fault Refusal := .next (perstRise (passTo t s))

def execWakeFrame (t : Ns) (s : State) : Host.Outcome State Fault Refusal := .next (wakeEvent 3 (passTo t s))

/-- HIB_WAKE: it has been high for 1 ms, or has fallen (R576, R577). -/
def hibWake (high : Bool) (s : State) : State :=
  let s := { s with pins := { s.pins with hibWake := high } }
  if high then wakeEvent 1 s else s

def execHibWake (t : Ns) (high : Bool) (s : State) : Host.Outcome State Fault Refusal := .next (hibWake high (passTo t s))

def execInputCycling (t : Ns) (s : State) : Host.Outcome State Fault Refusal := .next (wakeEvent 2 (passTo t s))

/-- HIB_REQ_N: it has been low for `lowMs`, or has risen (0). It starts a HIBERNATE entry in IDLE after 10 ms; in RUN it first ends the job
after 1 s, and the entry follows at once (R575). -/
def hibReqN (lowMs : Nat) (s : State) : State :=
  if lowMs = 0 then setPower (fun p => { p with reqArmed := true }) { s with pins := { s.pins with hibReqN := true } }
  else
    let s := { s with pins := { s.pins with hibReqN := false } }
    if lowMs < 10 || s.pins.hibWake || !s.power.reqArmed || s.power.state != .on || s.power.entry != 0 || !s.boot.alive then s
    else if jobExists s && decide (lowMs < 1000) then s
    else
      let s := if jobExists s then endJob (if s.jobs.line then flushMarks (cutMarks s) else s) else s
      beginEntry 2 true (setPower (fun p => { p with reqArmed := false }) s)

def execHibReqN (t : Ns) (lowMs : Nat) (s : State) : Host.Outcome State Fault Refusal := .next (hibReqN lowMs (passTo t s))

end Sys2Proof.Machine
end

