-- ==== Sys2Proof/Machine/Housekeeping.lean ====
section
/-! DEFINITION. The housekeeping round, throttling and shutdown (R510 to R519). -/

namespace Sys2Proof.Machine

/-! ### Readings (R510, R511) -/

/-- A slot's reading in the latest round, and in the one before. -/
def slotNow (s : State) (i : Nat) : BitVec 16 := unit s.hk.reads i 0
def slotBefore (s : State) (i : Nat) : BitVec 16 := unit s.hk.before i 0

/-- Input power in 10 mW, to the nearest: VIN in 10 mV times IIN in mA (R510, R9). -/
def inputPower (s : State) : Nat := roundDivN ((slotNow s 0).toNat * (slotNow s 1).toNat) 1000

/-- The slots of the valid ring-oscillator sensors, of the module sensors and of the DRAM sensors. -/
def rosSlots (s : State) : List Nat := (validRos s).map fun i => 18 + i
def modSlots : List Nat := [42, 43]
def dramSlots : List Nat := [44, 45]

/-- The slot of a list with the largest reading, and the reading. -/
def hottest (s : State) (slots : List Nat) : Option (Nat × Int) :=
  slots.foldl (fun (m : Option (Nat × Int)) i =>
    let v := (slotNow s i).toInt
    match m with
    | some x => if x.2 < v then some (i, v) else m
    | none => some (i, v)) none

/-- A threshold of HK_THRESH, signed. -/
def thresh (s : State) (off lo : Nat) : Int := (BitVec.ofNat 16 (cfgF s off lo 16)).toInt

/-! ### The rules of R513 -/

/-- The sensor by which a throttle or shutdown condition of R513 holds for a group: one beyond the value in two rounds, or the first of
two beyond it in one. -/
def twiceBeyond (s : State) (now before : Nat → Bool) (slots : List Nat) : Option Nat :=
  let hit := slots.filter now
  match (if 2 ≤ s.hk.rounds then hit.find? before else none) with
  | some i => some i
  | none => if 2 ≤ hit.length then hit.head? else none

/-- A sensor group is beyond a value by R513. -/
def hotGroup (s : State) (slots : List Nat) (v : Int) : Option Nat :=
  twiceBeyond s (fun i => decide (v < (slotNow s i).toInt)) (fun i => decide (v < (slotBefore s i).toInt)) slots

/-- Every valid sensor of a group is on the safe side of a value. -/
def coolGroup (s : State) (slots : List Nat) (v : Int) : Bool := slots.all fun i => decide ((slotNow s i).toInt < v)

/-! ### Temperature warnings -/

/-- A temperature warning sets or clears: group 0 junction, 1 module, 2 DRAM. -/
def tempWarn (group : Nat) (slots : List Nat) (set clear : Int) (was : Bool) (put : Bool → Hk → Hk) (s : State) : State :=
  match hottest s slots with
  | none => s
  | some (i, v) =>
    if !was && decide (set < v) then raise 0x2001 (natLE 1 group ++ natLE 1 i ++ intLE 2 v) (setHk (put true) s)
    else if was && coolGroup s slots clear then raise 0x2002 (natLE 1 group) (setHk (put false) s)
    else s

def tempWarns (s : State) : State :=
  let s := tempWarn 0 (rosSlots s) (thresh s 0xA00200 0) (thresh s 0xA00200 16) s.hk.warnJ (fun b h => { h with warnJ := b }) s
  let m := thresh s 0xA0020C 0
  let s := tempWarn 1 modSlots m (m - 320) s.hk.warnMod (fun b h => { h with warnMod := b }) s
  let d := thresh s 0xA00210 0
  tempWarn 2 dramSlots d (d - 320) s.hk.warnDram (fun b h => { h with warnDram := b }) s

/-! ### Supply warnings -/

/-- A supply warning sets, or clears with SUPPLY_CLEAR, whose DATA names it: 1 VIN_LOW, 2 VIN_HIGH, 3 POWER_HIGH, 4 RAIL_WARN. -/
def supplyWarn (which : Nat) (beyond safe was : Bool) (data : List Byte) (put : Bool → Hk → Hk) (s : State) : State :=
  if !was && beyond then
    let s := raise (0x1000 + which) data (setHk (put true) s)
    if which = 1 then recSupply s else s
  else if was && safe then raise 0x1006 (natLE 1 which) (setHk (put false) s)
  else s

/-- A rail's nominal voltage in mV; rail 15 is VAUX3V3 (R583). -/
def railNominal (k : Nat) : Nat := if k = 15 then 3300 else (Config.railNominal k).toNat

/-- By how much a rail is off its nominal, in mV. -/
def railOff (v : BitVec 16) (k : Nat) : Nat := ((v.toNat : Int) - (railNominal k : Int)).natAbs

/-- The warnings of the rails: beyond 5 % and within 4 %. -/
def railWarn (s : State) (k : Nat) : State :=
  let v := slotNow s (2 + k)
  let n := railNominal k
  supplyWarn 4 (decide (5 * n < 100 * railOff v k)) (decide (100 * railOff v k < 4 * n)) (unit s.hk.warnRail k false)
    (natLE 1 k ++ natLE 2 v.toNat) (fun b h => { h with warnRail := h.warnRail.set k b }) s

def supplyWarns (s : State) : State :=
  let vin := (slotNow s 0).toNat
  let lo := cfgF s 0xA00214 0 16
  let hi := cfgF s 0xA00214 16 16
  let pw := inputPower s
  let max' := cfgF s 0xA00218 0 16
  let s := supplyWarn 1 (decide (vin < lo)) (decide (lo + 100 < vin)) s.hk.warnVinLow (natLE 2 vin) (fun b h => { h with warnVinLow := b }) s
  let s := supplyWarn 2 (decide (hi < vin)) (decide (vin + 100 < hi)) s.hk.warnVinHigh (natLE 2 vin) (fun b h => { h with warnVinHigh := b }) s
  let s := supplyWarn 3 (decide (max' < pw)) (decide (pw + 1000 < max')) s.hk.warnPower (natLE 4 pw) (fun b h => { h with warnPower := b }) s
  (List.range 16).foldl railWarn s

/-! ### Throttling (R514) -/

/-- The level falls by one, to the floor at least. -/
def levelFalls (s : State) : State :=
  let l := s.hk.level.toNat
  if hkFloor s < l then setLevel (l - 1) s else s

/-- A second that a level has stood with the release condition, and 2 s with the throttle condition, change it. -/
def throttleTimer (s : State) : State :=
  let h := s.hk
  if h.level = 1 && h.thrCond && decide (h.levelSince + 2000000000 ≤ s.now) then setLevel 2 s
  else if h.relCond && h.relSince.any fun t => decide (t + 1000000000 ≤ s.now) then
    levelFalls (setHk (fun h => { h with relSince := some s.now }) s)
  else s

def execThrottleTimer (t : Ns) (s : State) : Host.Outcome State Fault Refusal := .next (throttleTimer (passTo t s))

/-- The throttle condition of a round and what the level makes of it. -/
def throttleRound (s : State) : State :=
  let thr := thresh s 0xA00204 0
  let sets := (hotGroup s (rosSlots s) thr).isSome
  let rel := coolGroup s (rosSlots s) (thresh s 0xA00204 16)
  let first := rel && !s.hk.relCond
  let s := setHk (fun h => { h with
    thrCond := sets || (h.thrCond && !rel), relCond := rel
    relSince := if !rel then none else if first then some s.now else h.relSince }) s
  if sets && s.hk.level = 0 then setLevel 1 s
  else if s.hk.level = 1 && !coolGroup s (rosSlots s) (thr + 384) then setLevel 2 s
  else if first then levelFalls s
  else throttleTimer s

/-! ### Shutdown (R518) -/

/-- What makes a shutdown: cause, slot. -/
def shutdownDue (s : State) : Option (Nat × Nat) :=
  let rail := fun (v : Nat → BitVec 16) i => decide (10 * railNominal (i - 2) < 100 * railOff (v i) (i - 2))
  let rails := (List.range 16).map fun k => 2 + k
  match hotGroup s (rosSlots s) (thresh s 0xA00208 0), hotGroup s modSlots (thresh s 0xA0020C 16), hotGroup s dramSlots (thresh s 0xA00210 16),
    twiceBeyond s (rail (slotNow s)) (rail (slotBefore s)) rails with
  | some i, _, _, _ => some (1, i)
  | none, some i, _, _ => some (2, i)
  | none, none, some i, _ => some (3, i)
  | none, none, none, some i => some (4, i)
  | none, none, none, none => none

/-- The word of HK_SHUTDOWN. -/
def shutWord (h : Hk) : Nat := h.shutCause.toNat + 16 * h.shutSlot.toNat + 65536 * h.shutValue.toNat

/-- The shutdown: the safe state, the end of the job, the record; the die goes off by DIE_OFF. -/
def shutdown (cause slot : Nat) (s : State) : State :=
  let v := slotNow s slot
  let s := setHk (fun h => { h with
    shutCause := BitVec.ofNat 4 cause, shutSlot := BitVec.ofNat 6 slot, shutValue := v, shutAt := some s.now }) s
  let s := if cause = 4 then raise 0x1005 (natLE 1 (slot - 2) ++ natLE 2 v.toNat) s
    else raise 0x2004 (natLE 1 cause ++ natLE 1 slot ++ natLE 2 v.toNat) s
  let s := jobReset (forceSafe (setPower (fun p => { p with entry := 0 }) s))
  recDue 3 (shutWord s.hk) [] s

/-- DIE_OFF: every axis stands, or 2 s have gone (R518). Only a POR or a PIN reset starts the module again (R519). -/
def dieOff (s : State) : State :=
  match s.hk.shutAt with
  | none => s
  | some t =>
    if s.power.state == .on && (axesStand s || decide (t + 2000000000 ≤ s.now)) then
      setHk (fun h => { h with shutAt := some t }) (hold .pin 0 .held s)
    else s

def execDieOff (t : Ns) (s : State) : Host.Outcome State Fault Refusal := .next (dieOff (passTo t s))

/-! ### The round (R510) -/

/-- The readings of a round as the recorder takes them (R537, R539), and E_T while READY_SYNCED. -/
def recTaken (s : State) : State :=
  let take := fun (k : Nat) (x : Option (Nat × Int)) (s : State) => match x with | some (i, v) => recReading k v i s | none => s
  let heads := ((allLanes s).filter fun l => (beamNode s l).isSome).map fun l => laneTemp s l
  let run := (allLanes s).countP fun l => (laneOf s l).state == .running
  let s := take 2 (hottest s dramSlots) (take 1 (hottest s modSlots) (take 0 (hottest s (rosSlots s)) s))
  let s := recReading 5 s.hk.level.toNat 0 (recReading 4 (inputPower s : Nat) 1 (recReading 3 (slotNow s 0).toNat 0 s))
  let s := match heads with | [] => s | h :: hs => recReading 6 (hs.foldl max h) 0 s
  let s := recReading 7 (run : Nat) run s
  if s.boot.readySynced then recExtreme 27 (errorBound s : Nat) 0 s else s

/-- The recorder takes the readings of a round; nothing but the recorder changes. -/
def recRound (s : State) : State := { s with recorder := (recTaken s).recorder }

/-- What follows the temperatures of a round: values in force and triggers (R520, R521). -/
def calRound (s : State) : State :=
  let s := renewEyes ((allLanes s).foldl (fun s l => renewLane l s) s)
  let s := (List.range s.variant.ports).foldl (fun s p => calTrigger 3 p s) s
  let s := (List.range 4).foldl (fun s p => calTrigger 4 p s) s
  calTrigger 6 0 s

/-- The sensors let a start begin after a shutdown (R519). -/
def sensorsCool (s : State) : Bool :=
  coolGroup s ((List.range 24).map fun i => 18 + i) (thresh s 0xA00200 16) && coolGroup s modSlots (thresh s 0xA0020C 0 - 320)
    && coolGroup s dramSlots (thresh s 0xA00210 0 - 320)

/-- HK_ROUND: the 64 readings of a round have been taken; reserved slots read 0. -/
def hkRound (reads : List (BitVec 16)) (s : State) : State :=
  if s.power.state != .on then s
  else
    let s := setHk (fun h => { h with
      before := h.reads, reads := (List.range 64).map (fun i => if i < 46 then unit reads i 0 else 0), rounds := h.rounds + 1 }) s
    let s := match hottest s (rosSlots s) with | some (_, v) => setHk (fun h => { h with tj := BitVec.ofInt 16 v }) s | none => s
    if s.boot.sensorWait then
      (if sensorsCool s then setBoot (fun b => { b with sensorWait := false, phase := 1 }) s else s)
    else if s.hk.shutAt.isSome then s
    else
      let s := recRound s
      match shutdownDue s with
      | some (c, i) => shutdown c i (supplyWarns (tempWarns s))
      | none =>
        let s := throttleRound (supplyWarns (tempWarns s))
        if s.boot.alive && profileInForce s then calRound s else s

def execHkRound (t : Ns) (reads : List (BitVec 16)) (s : State) : Host.Outcome State Fault Refusal := .next (hkRound reads (passTo t s))

end Sys2Proof.Machine
end

