-- ==== Sys2Proof/Machine/Membership.lean ====
section
/-! DEFINITION. The modules of one machine: HELLO, the choice of a leader, and conflicts (R348 to R352). -/

namespace Sys2Proof.Machine

def setMembers (f : Members → Members) (s : State) : State := { s with members := f s.members }

/-- The module is in conflict (R352). -/
def inConflict (s : State) : Bool := s.members.idConflict || s.members.memberConflict

/-- A member is heard (R349). -/
def heard (s : State) (m : Nat) : Bool := (memberOf s m).last.any fun t => decide (s.now ≤ t + 300000000)

/-- A member's latest HELLO says READY_LOCAL or READY_SYNCED. -/
def saysReady (s : State) (m : Nat) : Bool := (memberOf s m).state == 1 || (memberOf s m).state == 2

/-- The election key of a member (R350). -/
def memberKey (s : State) (m : Nat) : Nat := (memberOf s m).prio * 65536 + (memberOf s m).moduleId

/-- The module's own election key. -/
def ownKey (s : State) : Nat := s.prof.machine.leaderPrio * 65536 + s.ident.moduleId.toNat

/-! ### HELLO (R348, R349) -/

/-- STATE of the module's HELLO. -/
def helloState (s : State) : Nat := if inConflict s then 3 else if s.boot.readySynced then 2 else if s.boot.readyLocal then 1 else 0

/-- The payload of HELLO. -/
def helloBytes (s : State) : List Byte :=
  natLE 1 (helloState s) ++ natLE 1 s.prof.machine.leaderPrio
    ++ natLE 2 (if s.members.elected then s.members.leaderId.toNat else 0xFFFF)
    ++ natLE 4 s.prof.machine.machineId.toNat ++ natLE 8 s.ident.otp.serial.toNat ++ natLE 4 (if s.members.elected then s.members.term else 0)
    ++ natLE 1 (jobState s) ++ natLE 3 0 ++ natLE 4 (if jobExists s then s.jobs.jobId.toNat else 0) ++ natLE 4 0

/-- HELLO_SEND: every 100 ms once the profile is in force. -/
def helloSend (s : State) : State :=
  if profileInForce s && s.boot.alive && s.power.state == .on then sendControl 3 (helloBytes s) s else s

def execHelloSend (t : Ns) (s : State) : Host.Outcome State Fault Refusal := .next (helloSend (passTo t s))

/-! ### Conflicts (R352) -/

/-- A module without a job enters CONFLICT: it is READY no longer. -/
def enterConflict (byId : Bool) (s : State) : State :=
  let s := setMembers (fun m => if byId then { m with idConflict := true } else { m with memberConflict := true }) s
  setBoot (fun b => { b with
    phase := 10, error := if byId then 0x0B else 0x0C, readyLocal := false, readySynced := false }) s

/-- A conflicting HELLO: with a job the sender is silent from now on (R205). -/
def conflictFrom (q : Hello) (byId : Bool) (s : State) : State :=
  let own := s.prof.machine.member
  let known := if byId then s.members.idConflict else s.members.memberConflict
  let seen := known || s.members.conflict.getLsbD q.member
  let s := setMembers (fun m => { m with conflict := m.conflict ||| BitVec.ofNat 8 (2 ^ q.member) ||| BitVec.ofNat 8 (2 ^ own) }) s
  let s := if seen then s
    else if byId then raise 0xA016 (natLE 8 q.serial) s
    else raise 0xA017 (natLE 2 q.moduleId) s
  if jobExists s then setPeer q.member (fun p => { p with silent := true }) s
  else if known then s
  else enterConflict byId s

/-! ### The leader (R350) -/

/-- A LEADER is accepted. -/
def acceptLeader (member moduleId term : Nat) (s : State) : State :=
  let s := setMembers (fun m => { m with
    elected := true, leaderMember := BitVec.ofNat 3 member, leaderId := BitVec.ofNat 10 moduleId, term := term
    topTerm := max m.topTerm term, plan := [], ackSeq := 0 }) s
  raise 0xA013 (natLE 1 member ++ natLE 2 moduleId ++ natLE 4 term) s

/-- The accepted leader's key. -/
def leaderKey (s : State) : Nat := if isLeader s then ownKey s else memberKey s s.members.leaderMember.toNat

/-- A LEADER frame counts: none is accepted, or it is of a later term outside a job, or of the same term with a lower key (R350, R354). -/
def leaderCounts (member term : Nat) (s : State) : Bool :=
  if !s.members.elected then true
  else if machineJob s then false
  else decide (s.members.term < term) || (s.members.term == term && decide (memberKey s member < leaderKey s))

/-- LEADER_RECEIVE. -/
def leaderReceive (q : LeaderMsg) (s : State) : State :=
  if !profileInForce s then s
  else if !q.valid then setMembers (fun m => { m with foreign := satInc m.foreign }) s
  else if !(otherMembers s).contains q.member || inConflict s then s
  else
    let counts := leaderCounts q.member q.term s
    let s := setMembers (fun m => { m with topTerm := max m.topTerm q.term }) s
    if counts then acceptLeader q.member q.moduleId q.term s else s

def execLeaderReceive (t : Ns) (q : LeaderMsg) (s : State) : Host.Outcome State Fault Refusal := .next (leaderReceive q (passTo t s))

/-- Since when the own key has been the lowest of the candidates: a member with a lower key that said it was READY counts until 300 ms after
its latest HELLO. -/
def lowestSince (s : State) : Option Ns :=
  s.members.keySince.map fun k =>
    ((otherMembers s).filter fun m => saysReady s m && decide (memberKey s m < ownKey s)).foldl
      (fun k m => match (memberOf s m).last with | some t => max k (t + 300000000) | none => k) k

/-- Every other member is heard as READY, or is unheard with MEMBER_WAIT gone since the profile was read (R350). -/
def membersSettled (s : State) : Bool :=
  (otherMembers s).all fun m =>
    if heard s m then saysReady s m else decide (s.members.readSince + 1000000000 * s.prof.machine.memberWaitS ≤ s.now)

/-- The members that an election counts. -/
def candidates (s : State) : List Nat := s.prof.machine.member :: (otherMembers s).filter fun m => heard s m && saysReady s m

/-- LEADER_ELECTION_TIMER: the lowest key for 1 s (R350). -/
def leaderElection (s : State) : State :=
  let due := match lowestSince s with | some k => decide (k + 1000000000 ≤ s.now) | none => false
  let free := !s.members.elected || (!isLeader s && !jobExists s)
  if !s.boot.readyLocal || inConflict s || (otherMembers s).isEmpty || !due || !free || !membersSettled s then s
  else
    let term := s.members.topTerm + 1
    let payload := natLE 4 term ++ natLE 1 (maskOf (candidates s)) ++ natLE 3 0
    sendControl 4 payload (acceptLeader s.prof.machine.member s.ident.moduleId.toNat term s)

def execLeaderElectionTimer (t : Ns) (s : State) : Host.Outcome State Fault Refusal := .next (leaderElection (passTo t s))

/-! ### HELLO_RECEIVE and MEMBER_LOST (R349, R351) -/

/-- What a HELLO of another member brings: it is heard; a leader that it names as itself is accepted where none is; a leader that is HELD
holds the machine (R79); and a job that waits for READY_SYNCED members may start (R32). -/
def helloFrom (q : Hello) (s : State) : State :=
  let was := saysReady s q.member && decide (memberKey s q.member < ownKey s)
  let s := setMember q.member (fun m => { m with
    last := some s.now, lost := false, state := q.state, prio := q.prio, moduleId := q.moduleId, serial := q.serial
    leaderId := q.leaderId, term := q.term, jobState := q.jobState, jobId := q.jobId }) s
  let now := saysReady s q.member && decide (memberKey s q.member < ownKey s)
  let s := setMembers (fun m => { m with
    topTerm := max m.topTerm q.term, keySince := if was && !now then m.keySince.map (fun _ => s.now) else m.keySince }) s
  let s := if !s.members.elected && !inConflict s && q.leaderId == q.moduleId then acceptLeader q.member q.moduleId q.term s else s
  let s :=
    if machineJob s && s.members.elected && s.members.leaderMember.toNat == q.member && q.jobState == 10 && s.jobs.state != 10 then
      settleHold (setMembers (fun m => { m with peerHold := true }) s)
    else s
  tryStart s

/-- HELLO_RECEIVE. -/
def helloReceive (q : Hello) (s : State) : State :=
  if !profileInForce s then s
  else if !q.headerOk || q.machineId != s.prof.machine.machineId.toNat then setMembers (fun m => { m with foreign := satInc m.foreign }) s
  else if q.moduleId = s.ident.moduleId.toNat then
    (if q.serial = s.ident.otp.serial.toNat then s else conflictFrom q true s)
  else if q.member = s.prof.machine.member then conflictFrom q false s
  else if (otherMembers s).contains q.member then helloFrom q s
  else s

def execHelloReceive (t : Ns) (q : Hello) (s : State) : Host.Outcome State Fault Refusal := .next (helloReceive q (passTo t s))

/-- The machine's job goes on to the end of the planned stages and then holds (R351). -/
def holdForLoss (s : State) : State := settleHold (setMembers (fun m => { m with lossHold := true, plan := [] }) s)

/-- MEMBER_LOST: no HELLO for 500 ms; the loss of the leader, or of a member to the leader, holds a MACHINE_JOB (R349, R351). -/
def memberLost (m : Nat) (s : State) : State :=
  let x := memberOf s m
  let due := x.last.any fun t => decide (t + 500000000 ≤ s.now)
  if !due || x.lost || !(otherMembers s).contains m then s
  else
    let s := setMember m (fun x => { x with lost := true }) s
    let s := raise 0xA015 (natLE 1 m ++ natLE 2 x.moduleId) s
    if s.members.elected && s.members.leaderMember.toNat == m then
      let s := setMembers (fun m => { m with elected := false }) s
      if machineJob s then holdForLoss (raise 0xA014 (natLE 1 m ++ natLE 2 x.moduleId) s) else s
    else if machineJob s && isLeader s then holdForLoss s
    else s

def execMemberLost (t : Ns) (member : Nat) (s : State) : Host.Outcome State Fault Refusal := .next (memberLost member (passTo t s))

end Sys2Proof.Machine
end

