-- ==== Sys2Proof/Machine/RegRead.lean ====
section
/-! DEFINITION. What a read of each BAR0 register returns, and what it changes: RC fields are cleared, and the low word of a wide value
holds the upper ones (R10, R290, and the register tables of the chapters). -/

namespace Sys2Proof.Machine

/-- The value of a read and the state after it. -/
abbrev ReadOf := Nat × State

/-- The low and the high word of a value. -/
def loW (n : Nat) : Nat := n % 2 ^ 32
def hiW (n : Nat) : Nat := n / 2 ^ 32 % 2 ^ 32

/-- The two's complement of a value in 32 or 64 bits. -/
def s32 (n : Int) : Nat := (n % ((2 ^ 32 : Nat) : Int)).toNat
def s64 (n : Int) : Nat := (n % ((2 ^ 64 : Nat) : Int)).toNat

/-- The value of an s16 in 16 bits, saturating. -/
def s16 (n : Int) : Nat := (satS 16 n % 65536).toNat

/-- 32 flags as a word, flag i of `f` in bit i. -/
def flagWord (f : Nat → Bool) : Nat := maskOf ((List.range 32).filter f)

/-! ### GLOBAL -/

/-- GLOBAL_ACCESS_ERR: its fields are cleared as they are read; a read of the group arms ACCESS_REJECTED again (R284). -/
def regAccess (o : Nat) (s : State) : ReadOf :=
  let a := s.access
  let put := fun (a : AccessErr) => { s with access := { a with armed := true } }
  match o with
  | 0x20 => (a.lastStatus.toNat, put { a with lastStatus := 0 })
  | 0x24 => (a.lastOffset.toNat, put a)
  | 0x28 => (packFields [(0, 16, a.rejectedWrites.toNat), (16, 16, a.reservedWrites.toNat)],
      put { a with rejectedWrites := 0, reservedWrites := 0 })
  | _ => (packFields [(0, 16, a.badAccess.toNat), (16, 16, a.mgmtDropped.toNat)], put { a with badAccess := 0, mgmtDropped := 0 })

/-- GLOBAL_MACHINE: members heard, those heard as ready, and those in conflict (R349, R352). -/
def regMachine (o : Nat) (s : State) : ReadOf :=
  let m := s.members
  let on := profileInForce s
  let mask := fun (p : Nat → Bool) => maskOf ((otherMembers s).filter fun i => heard s i && p i)
  match o with
  | 0x120 => (packFields [(0, 3, if on then s.prof.machine.member else 0), (3, 1, b1 (on && !(otherMembers s).isEmpty)), (4, 1, b1 m.elected),
      (5, 1, b1 (isLeader s)), (6, 3, m.leaderMember.toNat), (16, 10, m.leaderId.toNat)], s)
  | 0x124 => (packFields [(0, 8, mask fun _ => true), (8, 8, mask (saysReady s)), (16, 8, mask fun i => (memberOf s i).state == 2),
      (24, 8, m.conflict.toNat ||| mask fun i => (memberOf s i).state == 3)], s)
  | _ => (packFields [(0, 16, if m.elected then m.term else 0), (16, 16, m.foreign.toNat)], setMembers (fun m => { m with foreign := 0 }) s)

/-- GLOBAL_BOOT (R332, R338). -/
def regBoot (o : Nat) (s : State) : Nat :=
  let b := s.boot
  match o with
  | 0x100 => packFields [(0, 4, b.phase.toNat), (4, 1, b1 b.path), (5, 1, b1 b.eth25g), (6, 1, b1 s.hostq.pcieUp), (8, 8, b.error.toNat),
      (16, 8, b.attempts.toNat)]
  | 0x104 => b.fwVersion.toNat
  | 0x108 => packFields [(0, 7, s.ident.otp.rollback.toNat), (8, 4, s.ident.otp.keysRevoked.toNat)]
  | 0x10C => b.received.toNat
  | _ => b.startMs.toNat

/-- GLOBAL_PROF_STAT (R363). -/
def regProf (o : Nat) (s : State) : Nat :=
  let p := s.profile
  match o with
  | 0x140 => packFields [(0, 2, p.inForce.toNat), (2, 1, b1 p.startPending), (3, 1, b1 p.busy), (4, 1, b1 p.signed),
      (5, 1, b1 s.ident.otp.builderKeyHash.isSome), (8, 4, p.causeA.toNat), (12, 4, p.causeB.toNat), (16, 8, p.lastStatus.toNat),
      (24, 8, p.lastCmd.toNat)]
  | 0x144 => p.generation.toNat
  | 0x148 => p.badOffset.toNat
  | 0x14C => packFields [(0, 16, p.badType.toNat), (16, 16, p.badInstance.toNat)]
  | _ => packFields [(0, 9, p.memMib.toNat), (16, 8, p.progress.toNat)]

/-- GLOBAL_RESET_STAT (R566). -/
def regReset (o : Nat) (s : State) : Nat :=
  let p := s.power
  match o with
  | 0x180 => packFields [(0, 3, p.lastKind.toNat), (3, 3, p.wakeCause.toNat), (6, 2, p.cause.toNat)]
  | 0x184 => packFields [(0, 16, p.moduleResets.toNat), (16, 16, p.firmwareResets.toNat)]
  | _ => p.entry.toNat

/-- GLOBAL_PERMIT (R588, R589). -/
def regPermit (s : State) : ReadOf :=
  let p := s.permit
  (packFields [(0, 1, b1 p.a), (1, 1, b1 p.b), (2, 1, b1 p.disagree), (8, 8, p.lowEvents.toNat), (16, 16, p.disagreeEvents.toNat)],
    { s with permit := { p with lowEvents := 0, disagreeEvents := 0 } })

/-- The job registers (R93). -/
def regJob (o : Nat) (s : State) : ReadOf :=
  let j := s.jobs
  match o with
  | 0x2000 => (packFields [(0, 4, j.state.toNat), (4, 4, j.cause.toNat), (8, 1, b1 j.line), (9, 1, b1 j.machine),
      (10, 1, b1 (s.permit.a && s.permit.b))], s)
  | 0x2004 => (j.jobId.toNat, s)
  | 0x2008 => (j.layerIndex.toNat, s)
  | 0x200C => (packFields [(0, 7, j.layers.length), (8, 7, j.layers.countP fun x => x.passed)], s)
  | 0x2010 => (field (stamp12 j.torShown) 0 4, s)
  | 0x2014 => (field (stamp12 j.torShown) 4 4, s)
  | 0x2018 => (field (stamp12 j.torShown) 8 4, s)
  | 0x2020 =>
    let l := j.nextL.getD 0
    (loW l, setJobs (fun j => { j with nextLHiLatch := BitVec.ofNat 32 (hiW l) }) s)
  | 0x2024 => (j.nextLHiLatch.toNat, s)
  | 0x2030 => (field (natLE 16 j.excluded.toNat) 0 4, s)
  | 0x2034 => (field (natLE 16 j.excluded.toNat) 4 4, s)
  | 0x2038 => (field (natLE 16 j.excluded.toNat) 8 4, s)
  | 0x203C => (field (natLE 16 j.excluded.toNat) 12 4, s)
  -- the time in STARVED, that of a starvation in progress with it
  | 0x2040 => (min 0xFFFFFFFF ((j.starvedNs + if j.state == 4 then s.now - j.starvedAt else 0) / 1000000), s)
  | 0x2044 => (j.marksSkipped.toNat, s)
  | 0x2048 => (j.lateMs.toNat, s)
  | _ => (0, s)

/-- The GLOBAL block with its host group. -/
def regGlobal (o : Nat) (s : State) : ReadOf :=
  match o with
  | 0x0 => (packFields [(0, 4, s.variant.code), (4, 4, s.ident.dieStep.toNat), (8, 10, s.ident.moduleId.toNat)], s)
  | 0x4 => (packFields [(0, 8, s.variant.lanes), (8, 6, s.variant.ports), (14, 4, s.variant.cameras)], s)
  | 0x10 => (packFields [(0, 1, b1 s.mgmt.hostLost), (1, 1, b1 s.mgmt.attached.isSome), (2, 1, b1 s.hostq.pcieUp),
      (3, 1, b1 (setsInCommit s != 0)), (8, 8, maskOf ((List.range 8).filter fun k => !(s.staging.getD k []).isEmpty))], s)
  | 0x30 => (s.override.gen.toNat, s)
  | 0x34 => (s.override.active.toNat, s)
  | 0x40 => (packFields [(0, 16, s.events.tail.toNat), (16, 1, b1 s.events.phase)], s)
  | 0x44 => (s.events.lost.toNat, { s with events := { s.events with lost := 0 } })
  | 0x48 => (s.events.seq.toNat, s)
  | 0x1000 => (s.mgmt.win.toNat, s)
  | 0x1004 => (s.events.head.toNat, s)
  | 0x1008 => (loW s.mgmt.notify.toNat, s)
  | 0x100C => (hiW s.mgmt.notify.toNat, s)
  | 0x1100 => (s.boot.ctrlLen.toNat, s)
  | 0x1200 => (loW s.profile.ctrlAddr.toNat, s)
  | 0x1204 => (hiW s.profile.ctrlAddr.toNat, s)
  | 0x1208 => (s.profile.ctrlLen.toNat, s)
  | 0x1300 => (packFields [(0, 2, s.recorder.region.toNat), (2, 11, s.recorder.slot.toNat), (13, 4, s.recorder.index.toNat),
      (17, 1, b1 s.recorder.autoInc)], s)
  | 0x1404 => (packFields [(0, 4, s.power.blkKind.toNat), (8, 7, s.power.blkIndex.toNat)], s)
  | 0x1408 => (s.power.accessTimeout.toNat, s)
  | _ =>
    if 0x20 ≤ o && o ≤ 0x2C then regAccess o s
    else if 0x100 ≤ o && o ≤ 0x110 then (regBoot o s, s)
    else if 0x120 ≤ o && o ≤ 0x128 then regMachine o s
    else if 0x140 ≤ o && o ≤ 0x150 then (regProf o s, s)
    else if 0x180 ≤ o && o ≤ 0x188 then (regReset o s, s)
    else if o = 0x1A0 then regPermit s
    else if 0x2000 ≤ o then regJob o s
    else (0, s)

/-! ### HOSTQ and STILL -/

/-- HOSTQ_CMD_r. -/
def regCmdRing (r k : Nat) (s : State) : Nat :=
  let c := cmdRing s r
  let own := s.hostq.outstanding.countP fun t => t.hdr.ring == r
  match k with
  | 0x00 => loW c.base.toNat
  | 0x04 => hiW c.base.toNat
  | 0x08 => packFields [(0, 4, c.sizeLog2.toNat), (8, 4, c.cq.toNat), (16, 1, b1 c.enable)]
  | 0x0C => c.tail.toNat
  | 0x10 => c.head.toNat
  | 0x14 => packFields [(0, 10, own), (16, 1, b1 (own == 0)), (17, 1, b1 (ringStalled s r))]
  | _ => 0

/-- HOSTQ_CQ_c. -/
def regComplRing (c k : Nat) (s : State) : Nat :=
  let q := complRing s c
  match k with
  | 0x00 => loW q.base.toNat
  | 0x04 => hiW q.base.toNat
  | 0x08 => packFields [(0, 5, q.sizeLog2.toNat), (16, 1, b1 q.enable)]
  | 0x0C => q.head.toNat
  | 0x10 => packFields [(0, 16, q.tail.toNat), (16, 1, b1 q.phase)]
  | 0x14 => packFields [(0, 8, q.intCount.toNat), (16, 16, q.intTime.toNat)]
  | 0x18 => packFields [(0, 10, min 1023 (reserved s c))]
  | _ => 0

/-- HOSTQ with the MSI-X table and the pending bits (R282, log 3). `o` counts from 0x0002_0000. -/
def regHostq (o : Nat) (s : State) : Nat :=
  if o < 0x800 then regCmdRing (o / 0x20) (o % 0x20) s
  else if 0x1000 ≤ o && o < 0x1200 then regComplRing ((o - 0x1000) / 0x20) (o % 0x20) s
  else if o = 0x2000 then
    let n := s.hostq.outstanding.length
    packFields [(0, 10, n), (16, 1, b1 (n == 512)), (18, 14, s.hostq.parked.length)]
  else if 0x1F000 ≤ o && o < 0x1F400 then
    let e := msixOf s ((o - 0x1F000) / 16)
    match o % 16 with
    | 0 => e.addrLo.toNat
    | 4 => e.addrHi.toNat
    | 8 => e.data.toNat
    | _ => b1 e.masked
  else if o = 0x1F800 then loW s.hostq.pba.toNat
  else if o = 0x1F804 then hiW s.hostq.pba.toNat
  else 0

/-- STILL_STAT. -/
def regStill (o : Nat) (s : State) : ReadOf :=
  let x := s.still
  match o with
  | 0x00 => (packFields [(0, 1, b1 x.regionSet), (1, 1, b1 x.latched.isSome)], s)
  | 0x04 => (loW x.gen.toNat, { s with still := { x with genHiLatch := BitVec.ofNat 32 (hiW x.gen.toNat) } })
  | 0x08 => (x.genHiLatch.toNat, s)
  | 0x0C => (x.periodUs.toNat, s)
  | 0x10 => (loW x.base.toNat, s)
  | 0x14 => (hiW x.base.toNat, s)
  | 0x18 => (packFields [(0, 16, x.withInvalid.toNat), (16, 16, x.skipped.toNat)], { s with still := { x with withInvalid := 0, skipped := 0 } })
  | _ => (0, s)

/-! ### TARN -/

/-- A lane is in a deceleration ramp (TARN_LANE_STAT): the path speed of the record in progress falls. -/
def laneDecel (s : State) (l : Nat) : Bool :=
  match recAt s.now (laneOf s l).plan with
  | none => false
  | some r =>
    match segAt (r.since s.now) r.segs with
    | none => false
    | some g => decide (g.a0.m < 0) || (g.a0.m == 0 && decide (g.j.m < 0))

/-- A record is being sent or the lane is in a layer: ISSUE_INDEX and the layer's figures are those that the state holds. -/
def regLane (l o : Nat) (s : State) : ReadOf :=
  let x := laneOf s l
  let put := fun (f : Lane → Lane) => setLane l f s
  let lim := fun (mark : Bool) => laneLimitsNow x mark
  match o with
  | 0x00 => (packFields [(0, 3, x.state.code), (3, 1, b1 x.slot), (4, 1, b1 (s.jobs.excluded.getLsbD l)), (5, 1, b1 x.limitDeferred),
      (6, 1, b1 x.limitOverride), (7, 1, b1 (laneDecel s l))], s)
  | 0x04 => (packFields [(0, 24, x.issueIndex)], s)
  | 0x08 => (packFields [(0, 8, x.code), (8, 8, x.cause), (16, 16, x.other.toNat)], s)
  | 0x0C => (packFields [(0, 24, x.faultIndex)], s)
  | 0x10 => (loW x.faultTime.toNat, put fun y => { y with faultHiLatch := BitVec.ofNat 32 (hiW y.faultTime.toNat) })
  | 0x14 => (x.faultHiLatch.toNat, s)
  | 0x20 => (loW (lim true).accel, s)
  | 0x24 => (loW (lim true).jerk, s)
  | 0x28 => (loW (lim true).speed, s)
  | 0x2C => (loW (lim false).accel, s)
  | 0x30 => (loW (lim false).jerk, s)
  | 0x34 => (loW (lim false).speed, s)
  | 0x40 => (packFields [(0, 16, x.underrun.toNat), (16, 16, x.resultStall.toNat)],
      put fun y => { y with underrun := 0, resultStall := 0, readUnderrun := y.readUnderrun + y.underrun.toNat })
  | 0x44 => (packFields [(0, 16, x.verdictLate.toNat), (16, 16, x.onDelayClipped.toNat)],
      put fun y => { y with verdictLate := 0, onDelayClipped := 0, readVerdictLate := y.readVerdictLate + y.verdictLate.toNat })
  | 0x48 => (x.fePeak.toNat, put fun y => { y with fePeak := 0, readFe := max y.readFe y.fePeak.toNat })
  | 0x4C => (x.setpoints.toNat, s)
  | 0x50 => (min 0xFFFFFFFF (holdSoFar s.now x / 1000), s)
  | 0x60 => (packFields [(0, 1, b1 x.blending), (1, 1, b1 x.map.waiting.isSome), (2, 1, b1 x.map.useB), (16, 16, x.map.beta)], s)
  | 0x64 =>
    match if x.map.useB then x.map.gridB else x.map.gridA with
    | some g => (packFields [(0, 16, g.weight), (16, 3, g.low), (19, 3, g.high)], s)
    | none => (0, s)
  | 0x80 => (packFields [(0, 16, x.loop.tPred), (16, 16, x.loop.ref)], s)
  | 0x84 => (packFields [(0, 16, x.loop.sig), (16, 16, s16 x.loop.trim)], s)
  | 0x88 => (packFields [(0, 16, s16 x.loop.integPart), (16, 5, x.loop.curve), (21, 1, b1 x.loop.active), (22, 1, b1 x.loop.blanking),
      (23, 1, b1 x.loop.stale)], s)
  | 0x90 => (packFields [(0, 16, x.anomRecords.toNat), (16, 16, x.trimSatRecords.toNat)],
      put fun y => { y with anomRecords := 0, trimSatRecords := 0, readAnom := y.readAnom + y.anomRecords.toNat })
  | 0x94 => (packFields [(0, 16, x.dropouts.toNat), (16, 16, x.pdSat.toNat)],
      put fun y => { y with dropouts := 0, pdSat := 0, readDropouts := y.readDropouts + y.dropouts.toNat })
  | 0x98 => (x.rawLost.toNat, put fun y => { y with rawLost := 0 })
  | 0x9C => (x.rawBlocks.toNat, s)
  | _ => (0, s)

/-- Tarn t with its lanes. `o` counts from the tarn base. -/
def regTarn (t o : Nat) (s : State) : ReadOf :=
  if 0x1000 ≤ o && o < 0x1800 then regLane (8 * t + (o - 0x1000) / 0x100) (o % 0x100) s
  else
    match o with
    | 0 => (packFields [(0, 8, maskOf ((List.range 8).filter fun i => lanePresent s (8 * t + i))), (8, 1, b1 (rtPort s t).panic)], s)
    | 4 => ((unit s.tarns t .reset).panicCount.toNat, { s with tarns := modUnit s.tarns t fun x => { x with panicCount := 0 } })
    | _ => (0, s)

/-! ### MERE and PROX -/

/-- The MERE registers. -/
def regMere (o : Nat) (s : State) : ReadOf :=
  let m := s.mere
  let f := mereShown s
  match o with
  | 0x00 => (packFields [(0, 1, b1 m.run), (1, 2, s.prof.mere.assimMode), (3, 1, b1 m.coarse),
      (4, 1, b1 (m.saves.any fun v => v.copied.isSome && decide (s.now < v.resume))), (5, 1, b1 (m.viewPeriodMs != 0)), (6, 1, b1 (m.ovrMask != 0))], s)
  | 0x04 => (packFields [(0, 11, m.nx - 1), (16, 11, m.ny - 1)], s)
  | 0x08 => (loW m.cell, s)
  | 0x0C => (packFields [(0, 16, merePeriod m)], s)
  | 0x10 => (loW m.step, setMere (fun m => { m with stepHiLatch := BitVec.ofNat 32 (hiW m.step) }) s)
  | 0x14 => (m.stepHiLatch.toNat, s)
  | 0x20 => (packFields [(0, 16, f.min), (16, 16, f.max)], s)
  | 0x24 => (packFields [(0, 16, f.mean)], s)
  | 0x28 => (packFields [(0, 22, f.hot)], s)
  | 0x30 => (packFields [(0, 16, m.overrun.toNat), (16, 16, m.depMerged.toNat)],
      setMere (fun m => { m with overrun := 0, depMerged := 0, readOverrun := m.readOverrun + m.overrun.toNat,
                                 readMerged := m.readMerged + m.depMerged.toNat }) s)
  | 0x34 => (packFields [(0, 16, m.assim.toNat), (16, 16, m.assimSkipped.toNat)], setMere (fun m => { m with assim := 0, assimSkipped := 0 }) s)
  | 0x38 => (m.depReports.toNat, s)
  | 0x3C => (m.depOutside.toNat, setMere (fun m => { m with depOutside := 0 }) s)
  | 0x40 => (loW m.slotBase.toNat, s)
  | 0x44 => (hiW m.slotBase.toNat, s)
  | 0x48 => (m.slotSize.toNat, s)
  | 0x4C => (packFields [(0, 16, m.slotCount.toNat), (16, 16, m.lastSlot.toNat)], s)
  | _ => (0, s)

/-- A zone is held under R205 or R207: it names a silent member, or another member while the module is PEER_UNSAFE. -/
def zoneHeld (s : State) (z : Nat) : Bool :=
  match unit s.prox.zones z none with
  | none => false
  | some zr => (otherMembers s).any fun m => zr.members.getLsbD m && (peerSilent s m || s.prox.unsafeNow)

/-- The local claim that uses a zone at the latest guard tick. -/
def zoneUser (s : State) (z : Nat) : Option Nat :=
  let g := s.now / 5000 * 5000
  (allLanes s).find? fun l => (claimOf s l).trajs.any fun t => (zoneUses s t g).any fun u => u.1 == g && u.2 == z

/-- The peer's zone entry that covers the present moment (R201). -/
def peerUser (s : State) (z : Nat) : Option (Nat × Nat) :=
  (otherMembers s).findSome? fun m =>
    match (peerOf s m).last with
    | none => none
    | some x => (x.zones.find? fun e => e.zone = z && decide (x.x + 1000 * e.first ≤ s.now)
        && (e.last = 0xFFFF || decide (s.now ≤ x.x + 1000 * e.last))).map fun e => (m, e.lane)

/-- PROX_ZONE. -/
def regZone (z : Nat) (s : State) : Nat :=
  match unit s.prox.zones z none with
  | none => if s.prox.run then packFields [(4, 8, 0xFF)] else 0
  | some zr =>
    let user := match zoneUser s z with | some l => some (s.prof.machine.member, l) | none => peerUser s z
    packFields [(0, 1, b1 zr.enable), (1, 1, b1 (crossZone s z)), (2, 1, b1 (zoneHeld s z)), (3, 1, b1 user.isSome),
      (4, 8, match user with | some u => u.2 | none => 0xFF), (12, 3, match user with | some u => u.1 | none => 0)]

/-- PROX_LANE. -/
def regProxLane (l : Nat) (s : State) : Nat :=
  let x := laneOf s l
  let p := x.prox
  packFields [(0, 1, b1 (holdOf x).isSome), (1, 5, effPrio s l), (6, 1, b1 p.inCycle),
    (7, 1, b1 (x.plan.any fun r => match r.verdict with | .tentative _ _ => true | _ => false)), (8, 3, p.rule), (11, 1, b1 p.remote),
    (12, 7, p.blocker), (19, 3, p.member)]

/-- PROX_PEER. -/
def regPeer (m k : Nat) (s : State) : ReadOf :=
  let p := peerOf s m
  match p.last, k with
  | some x, 0x00 => (packFields [(0, 10, x.moduleId), (16, 1, b1 x.locked)], s)
  | _, 0x04 => (packFields [(0, 16, p.ageUs.toNat), (16, 16, min 0xFFFF (p.lats.foldl max 0))], s)
  | some x, 0x08 => (packFields [(0, 16, x.lanes.length), (16, 16, x.zones.length)], s)
  | some x, 0x0C => (loW x.seq, s)
  | _, 0x10 => (p.late.toNat, setPeer m (fun p => { p with late := 0 }) s)
  | _, _ => (0, s)

/-- The PROX registers. -/
def regProx (o : Nat) (s : State) : ReadOf :=
  let p := s.prox
  if 0x1000 ≤ o && o < 0x1200 then (if (o - 0x1000) / 4 < s.variant.lanes then regProxLane ((o - 0x1000) / 4) s else 0, s)
  else if 0x2000 ≤ o && o < 0x2400 then (regZone ((o - 0x2000) / 4) s, s)
  else if 0x100 ≤ o && o < 0x200 then regPeer ((o - 0x100) / 0x20) (o % 0x20) s
  else
    let mask := fun (q : Nat → Bool) => maskOf ((otherMembers s).filter q)
    match o with
    | 0x00 => (packFields [(0, 1, b1 p.run), (1, 1, b1 !(otherMembers s).isEmpty), (2, 1, b1 p.unsafeNow),
        (3, 1, b1 ((List.range 256).any (zoneHeld s))), (4, 8, mask fun m => (peerOf s m).present),
        (12, 8, mask fun m => !(peerOf s m).present || (peerOf s m).silent), (20, 8, mask fun m => (peerOf s m).mismatch),
        (28, 3, s.prof.machine.member)], s)
    | 0x04 => (p.rulesCrc.toNat, s)
    | 0x10 => (p.goVerdicts.toNat, s)
    | 0x14 => (p.holdVerdicts.toNat, s)
    | 0x18 => (packFields [(0, 16, p.deadlockBreaks.toNat), (16, 16, p.confirmLost.toNat)],
        setProx (fun p => { p with deadlockBreaks := 0, confirmLost := 0 }) s)
    | 0x1C => (packFields [(0, 16, p.confirmLate.toNat), (16, 16, p.reqDeferred.toNat)],
        setProx (fun p => { p with confirmLate := 0, reqDeferred := 0 }) s)
    | 0x20 => (packFields [(0, 16, p.summaryLate.toNat), (16, 16, p.silentEpisodes.toNat)],
        setProx (fun p => { p with summaryLate := 0, silentEpisodes := 0 }) s)
    | _ => (0, s)

/-! ### TIME -/

/-- TIME_STAT to TIME_COUNT. -/
def regClock (o : Nat) (s : State) : ReadOf :=
  let c := s.time.clock
  let sec := s.now / 1000000000
  match o with
  | 0x00 => (packFields [(0, 3, c.state.code), (3, 2, s.prof.time.source), (5, 1, b1 (timeSynced s)),
      (6, 1, b1 (timeSynced s && !c.boundExceeded)), (7, 1, b1 c.stepBlocked), (8, 1, b1 c.boundExceeded),
      (9, 1, b1 (c.lastPps.any fun t => decide (s.now ≤ t + 1100000000))), (10, 2, c.parentPort.toNat)], s)
  | 0x04 => (s.now / 5 * 5 % 1000000000, setClock (fun c => { c with secLatch := BitVec.ofNat 48 sec }) s)
  | 0x08 => (loW c.secLatch.toNat, s)
  | 0x0C => (hiW c.secLatch.toNat, s)
  | 0x10 => (c.etb.toNat, s)
  | 0x14 => (s32 (satS 32 c.offset), s)
  | 0x18 => (s32 (satS 32 c.freqAdj), s)
  | 0x1C => (if c.state = .holdover then min 0xFFFFFFFF ((s.now - c.holdSince) / 1000000) else 0, s)
  | 0x20 => (loW c.gmId.toNat, s)
  | 0x24 => (hiW c.gmId.toNat, s)
  | 0x28 => (packFields [(0, 16, c.stepsRemoved.toNat), (16, 8, c.gmClass.toNat)], s)
  | 0x2C => (c.pathDelay.toNat, s)
  | 0x30 => (c.syncRx.toNat, s)
  | 0x34 => (packFields [(0, 16, c.sourceLoss.toNat), (16, 16, c.steps.toNat)], setClock (fun c => { c with sourceLoss := 0, steps := 0 }) s)
  | 0x38 => (c.tcFrames.toNat, s)
  | 0x3C => (c.stepBlocks.toNat, setClock (fun c => { c with stepBlocks := 0 }) s)
  | _ => (0, s)

/-- TRIG_OUT_n. -/
def regTrigOut (n k : Nat) (s : State) : ReadOf :=
  let x := trigOut s n
  match k with
  | 0x00 => (packFields [(0, 1, b1 x.enable), (1, 1, b1 x.sched.refPtp), (2, 1, b1 x.sched.activeLow), (3, 1, b1 x.sched.toggle),
      (4, 6, x.sched.fine), (10, 1, b1 x.late)], s)
  | 0x04 => (loW x.sched.period, s)
  | 0x08 => (loW x.sched.width, s)
  | 0x0C => (x.remaining.toNat, s)
  | 0x10 => (loW x.next, setTrig n (fun x => { x with nextHiLatch := BitVec.ofNat 32 (hiW x.next) }) s)
  | 0x14 => (x.nextHiLatch.toNat, s)
  | 0x18 => (packFields [(0, 16, x.fired.toNat), (16, 16, x.skipped.toNat)], setTrig n (fun x => { x with skipped := 0 }) s)
  | _ => (0, s)

/-- TRIG_IN_n. -/
def regTrigIn (n k : Nat) (s : State) : ReadOf :=
  let x := trigIn s n
  match k with
  | 0x0 => (packFields [(0, 2, x.edge.toNat), (4, 8, x.filter.toNat), (16, 8, x.enc.toNat)], s)
  | 0x4 => (x.captures.toNat, s)
  | 0x8 => (packFields [(0, 16, x.glitch.toNat), (16, 16, x.overflow.toNat)], setTrigIn n (fun x => { x with glitch := 0, overflow := 0 }) s)
  | _ => (packFields [(0, 6, x.fifo.length)], s)

/-- The TIME registers. -/
def regTime (o : Nat) (s : State) : ReadOf :=
  let r := s.time.ripple
  if o < 0x40 then regClock o s
  else if 0x1000 ≤ o && o < 0x1200 then regTrigOut ((o - 0x1000) / 0x20) (o % 0x20) s
  else if 0x2000 ≤ o && o < 0x2090 then regTrigIn ((o - 0x2000) / 0x10) (o % 0x10) s
  else
    match o with
    | 0x3000 => (packFields [(0, 2, s.time.pps.mode.toNat), (8, 24, s.time.pps.width.toNat)], s)
    | 0x3004 => (s32 (satS 32 s.time.pps.inOffset), s)
    | 0x4000 => (packFields [(0, 9, r.actions.length), (16, 9, r.actions.countP fun a => a.host)], s)
    | 0x4004 => (r.fired.toNat, s)
    | 0x4008 => (packFields [(0, 16, r.cancelled.toNat), (16, 16, r.late.toNat)], setRipple (fun r => { r with cancelled := 0, late := 0 }) s)
    | 0x4010 => (loW r.lastTick.toNat, setRipple (fun r => { r with lastTickHiLatch := BitVec.ofNat 32 (hiW r.lastTick.toNat) }) s)
    | 0x4014 => (r.lastTickHiLatch.toNat, s)
    | _ => (0, s)

/-! ### SPL -/

/-- SPL_NODE_n of hop h. -/
def regNode (p h k : Nat) (s : State) : ReadOf :=
  let n := nodeOf s p h
  let i := n.ident
  match k with
  | 0x00 => (packFields [(0, 1, b1 n.present), (1, 2, i.cls), (3, 3, i.beams), (6, 4, n.slotBase), (10, 1, b1 n.killLong), (11, 1, b1 n.lost),
      (12, 3, n.quota), (15, 5, n.div), (20, 4, n.phase)], s)
  | 0x04 => (loW i.vendor, s)
  | 0x08 => (loW i.product, s)
  | 0x0C => (loW i.serial, s)
  | 0x10 => (hiW i.serial, s)
  | 0x14 => (n.delay.toNat, s)
  | 0x18 => (n.cable.toNat, s)
  | 0x1C => (n.rttMin.toNat, s)
  | 0x20 => (packFields [(0, 16, min 65535 n.fbMissing.toNat), (16, 16, n.spLost.toNat)],
      setNode p h (fun n => { n with fbMissing := 0, spLost := 0, readMissing := n.readMissing + n.fbMissing.toNat }) s)
  | 0x24 => (n.status.toNat, s)
  | 0x28 => (packFields [(0, 16, s16 (n.temps.getD 0 0))], s)
  | _ => (0, s)

/-- The largest number of upstream service units that one cycle may carry (R259). -/
def upSvc (nodes : List Node) : Nat := (List.range 16).foldl (fun m c => max m (upLoad nodes c).2) 0

/-- SPL_PORT_LOAD (R254, R259): the figures of a link in use. Service units beyond what the field holds read as its largest value (R9). -/
def portLoad (p : Nat) (s : State) : Nat :=
  let fixed := downFixed (portBeams s p)
  let nodes := (portOf s p).nodes
  if linkUp s p then packFields [(0, 6, fixed), (8, 6, upFixed nodes), (16, 4, min 15 ((44 - fixed) / 2)), (24, 4, min 15 (upSvc nodes))] else 0

/-- The registers of a Spring Link port. `o` counts from the port's base. -/
def regPort (p o : Nat) (s : State) : ReadOf :=
  let q := portOf s p
  let base := 0x400000 + 0x8000 * p
  if 0x100 ≤ o && o < 0x500 then regNode p ((o - 0x100) / 0x40 + 1) (o % 0x40) s
  else
    match o with
    | 0x00 => (packFields [(0, 2, q.link.toNat), (2, 5, nodeCount s p), (7, 1, b1 q.enumDone), (8, 1, b1 (portOpen s q)),
        (9, 1, b1 q.laserEn), (16, 5, portBeams s p)], s)
    | 0x04 => (portLoad p s, s)
    | 0x08 => (packFields [(0, 2, cfgF s (base + 8) 0 2), (4, 3, cfgF s (base + 8) 4 3)], s)
    | 0x10 => (q.blockErr.toNat, setPort p (fun q => { q with blockErr := 0, readBlockErr := q.readBlockErr + q.blockErr.toNat }) s)
    | 0x14 => (packFields [(0, 16, q.hiBerEvents.toNat), (16, 16, q.lockLosses.toNat)],
        setPort p (fun q => { q with hiBerEvents := 0, lockLosses := 0 }) s)
    | 0x18 => (packFields [(0, 16, q.fbCrcErr.toNat), (16, 16, q.svcCrcErr.toNat)],
        setPort p (fun q => { q with fbCrcErr := 0, svcCrcErr := 0 }) s)
    | 0x1C => (packFields [(0, 16, min 65535 q.killsSent.toNat), (16, 16, min 65535 q.nodeLosses.toNat)],
        setPort p (fun q => { q with killsSent := 0, nodeLosses := 0, readKills := q.readKills + q.killsSent.toNat,
                                     readLosses := q.readLosses + q.nodeLosses.toNat }) s)
    | 0x20 => (packFields [(0, 16, q.unknownBlocks.toNat), (16, 16, min 65535 q.svcTimeouts.toNat)],
        setPort p (fun q => { q with unknownBlocks := 0, svcTimeouts := 0, readTimeouts := q.readTimeouts + q.svcTimeouts.toNat }) s)
    | _ => (0, s)

/-! ### AXES and ENC -/

/-- The registers of axis a. `o` counts from the axis base. -/
def regAxis (a o : Nat) (s : State) : ReadOf :=
  let x := axisOf s a
  let target := s64 (match x.move with | some m => m.target | none => x.target)
  if o < 0x40 then (cfgWord s (axisOff a o), s)
  else
    match o with
    | 0x40 => (packFields [(0, 3, x.state.code), (3, 2, axisPhase s a), (5, 1, b1 x.limitDeferred), (6, 1, b1 x.pending.isSome),
        (7, 1, b1 x.ovr.isSome), (8, 1, b1 x.axen), (9, 3, x.cause.toNat)], s)
    | 0x48 => (loW (s64 x.pos), setAxis a (fun x => { x with posHiLatch := BitVec.ofNat 32 (hiW (s64 x.pos)) }) s)
    | 0x4C => (x.posHiLatch.toNat, s)
    | 0x50 => (s32 (axisSpeed s a), s)
    | 0x58 => (loW target, s)
    | 0x5C => (hiW target, s)
    | 0x60 => (s32 (satS 32 (axisFe s a)), s)
    | 0x64 => (x.steps.toNat, s)
    | _ => (0, s)

/-- The AXES registers with AXES_SCRIPT_i. -/
def regAxes (o : Nat) (s : State) : ReadOf :=
  if o < 0x1000 then regAxis (o / 0x100) (o % 0x100) s else (cfgWord s (0x600000 + o), s)

/-- The registers of encoder channel e. -/
def regEnc (e o : Nat) (s : State) : ReadOf :=
  let x := encOf s e
  let put := fun (f : Enc → Enc) => setEnc e f s
  if o < 0x40 then (cfgWord s (encOff e o), s)
  else
    match o with
    | 0x40 => (packFields [(0, 1, b1 x.valid), (1, 1, b1 x.standstill), (2, 1, b1 x.reverse), (3, 1, b1 x.window), (4, 6, x.faults.toNat)], s)
    | 0x44 => (packFields [(0, 31, x.position)], s)
    | 0x48 => (loW (s64 x.ext), put fun x => { x with extHiLatch := BitVec.ofNat 32 (hiW (s64 x.ext)) })
    | 0x4C => (x.extHiLatch.toNat, s)
    | 0x50 => (s32 (encSpeed s e), s)
    | 0x54 => (packFields [(0, 31, x.indexPos)], s)
    | 0x58 => (packFields [(0, 16, x.edgeFaults.toNat), (16, 16, x.illegal.toNat)], put fun x => { x with edgeFaults := 0, illegal := 0 })
    | 0x5C => (packFields [(0, 16, x.indexMismatch.toNat), (16, 16, x.ssiErrors.toNat)], put fun x => { x with indexMismatch := 0, ssiErrors := 0 })
    | 0x60 => (x.wireEvents.toNat, put fun x => { x with wireEvents := 0 })
    | _ => (0, s)

/-- ENC_HALL_g. -/
def regHall (g k : Nat) (s : State) : ReadOf :=
  let x := hallOf s g
  match k with
  | 0x00 => (cfgWord s (hallOff g 0), s)
  | 0x04 => (packFields [(0, 3, x.sector.toNat), (3, 1, b1 x.valid), (4, 1, b1 x.reverse), (5, 1, b1 x.skip), (6, 1, b1 x.invalid)], s)
  | 0x08 => (loW (s64 x.count), setHall g (fun x => { x with countHiLatch := BitVec.ofNat 32 (hiW (s64 x.count)) }) s)
  | 0x0C => (x.countHiLatch.toNat, s)
  | 0x10 => (s32 (hallSpeed s g), s)
  | 0x14 => (x.skips.toNat, setHall g (fun x => { x with skips := 0 }) s)
  | _ => (0, s)

/-- ENC_CMP_k. The next compare value is the one in its configuration registers (R413). -/
def regCmp (k o : Nat) (s : State) : ReadOf :=
  let x := cmpOf s k
  match o with
  | 0x00 => (cfgWord s (cmpOff k 0), s)
  | 0x04 => (cfgWord s (cmpOff k 4), s)
  | 0x08 => (cfgWord s (cmpOff k 8), setCmp k (fun x => { x with hiLatch := BitVec.ofNat 32 (cfgWord s (cmpOff k 0x0C)) }) s)
  | 0x0C => (x.hiLatch.toNat, s)
  | 0x10 => (loW x.hitTime.toNat, s)
  | 0x14 => (hiW x.hitTime.toNat, s)
  | 0x18 => (loW (s64 x.hitCount), s)
  | 0x1C => (hiW (s64 x.hitCount), s)
  | 0x20 => (x.hits.toNat, s)
  | 0x24 => (x.merged.toNat, setCmp k (fun x => { x with merged := 0 }) s)
  | _ => (0, s)

/-- ENC_ECHO_k. -/
def regEcho (k o : Nat) (s : State) : ReadOf :=
  let e := s64 (echoOf s k).outCount
  match o with
  | 0x00 => (cfgWord s (echoOff k 0), s)
  | 0x04 => (cfgWord s (echoOff k 4), s)
  | 0x08 => (loW e, s)
  | 0x0C => (hiW e, s)
  | _ => (0, s)

/-- The ENC registers. -/
def regEncs (o : Nat) (s : State) : ReadOf :=
  if o < 0x1000 then regEnc (o / 0x100) (o % 0x100) s
  else if o < 0x1200 then regHall ((o - 0x1000) / 0x40) (o % 0x40) s
  else if 0x2000 ≤ o && o < 0x2400 then regCmp ((o - 0x2000) / 0x40) (o % 0x40) s
  else if 0x3000 ≤ o && o < 0x3100 then regEcho ((o - 0x3000) / 0x40) (o % 0x40) s
  else (0, s)

/-! ### CAM, ISP and LED -/

/-- The CAM registers of a port. `o` counts from the port's base. -/
def regCam (p o : Nat) (s : State) : ReadOf :=
  let x := camOf s p
  let put := fun (f : Cam → Cam) => setCam p f s
  if o < 0x20 || 0x100 ≤ o then (cfgWord s (0x700000 + 0x10000 * p + o), s)
  else
    match o with
    | 0x20 => (packFields [(0, 1, b1 x.streaming), (1, 1, b1 x.frame.isSome), (2, 3, x.pending.length)], s)
    | 0x24 => (x.lastFrame.toNat, s)
    | 0x28 => (x.expGen.toNat, s)
    | 0x2C => (x.frames.toNat, s)
    | 0x30 => (x.truncated.toNat, s)
    | 0x34 => (x.overlong.toNat, s)
    | 0x38 => (x.dropped.toNat, s)
    | 0x3C => (packFields [(0, 16, x.lineFixes.toNat), (16, 16, x.excess.toNat)], put fun x => { x with lineFixes := 0, excess := 0 })
    | 0x40 => (packFields [(0, 16, x.hdrErr.toNat), (16, 16, x.crcErr.toNat)], put fun x => { x with hdrErr := 0, crcErr := 0 })
    | 0x44 => (packFields [(0, 16, x.otherPkt.toNat), (16, 16, x.trigIgnored.toNat)], put fun x => { x with otherPkt := 0, trigIgnored := 0 })
    | 0x48 => (packFields [(0, 8, x.noFrame.toNat), (8, 8, x.cciLate.toNat), (16, 8, x.cciFail.toNat)],
        put fun x => { x with noFrame := 0, cciLate := 0, cciFail := 0 })
    | _ => (0, s)

/-- The ISP registers. -/
def regIsp (o : Nat) (s : State) : ReadOf :=
  if o = 0x40000 then (packFields [(0, 13, s.isp.capacity), (16, 13, admitted s)], s) else (cfgWord s (0x780000 + o), s)

/-- LED_CH of a channel. I_SET, DUTY and TARGET show the values in force, an override included. -/
def regLed (c o : Nat) (s : State) : ReadOf :=
  let x := ledOf s c
  match o with
  | 0x20 => (packFields [(0, 16, x.gain.toNat), (16, 1, b1 x.open_), (17, 1, b1 x.short)], s)
  | 0x24 => (packFields [(0, 16, x.iMeas.toNat), (16, 16, x.vMeas.toNat)], s)
  | 0x28 => (packFields [(0, 16, x.diagAborted.toNat), (16, 16, x.diagStarved.toNat)],
      { s with light := { s.light with leds := modUnit s.light.leds c fun x => { x with diagAborted := 0, diagStarved := 0 } } })
  | _ => if o < 0x20 then (cfgWord s (0x860000 + 0x100 * c + o), s) else (0, s)

/-- The LED registers with LED_MATRIX. -/
def regLeds (o : Nat) (s : State) : ReadOf :=
  let m := s.light.matrix
  if o < 0x2000 then (if o < 0x1000 then regLed (o / 0x100) (o % 0x100) s else (0, s))
  else if o = 0x2008 then
    (packFields [(0, 3, m.queue.length), (16, 16, m.syncEmpty.toNat)], setMatrix (fun m => { m with syncEmpty := 0 }) s)
  else if 0x2010 ≤ o && o < 0x2030 then (field (natLE 32 m.segOpen.toNat) (o - 0x2010) 4, s)
  else (cfgWord s (0x860000 + o), s)

/-! ### COMPOSE, eDP and ZIP -/

/-- COMPOSE_SCENE_s. -/
def regScene (k o : Nat) (s : State) : ReadOf :=
  let x := sceneOf s k
  let running := x.run.isSome || !x.runs.isEmpty || (x.rec_.any fun r => r.periodic && !x.stopped)
  match o with
  | 0x00 => (packFields [(0, 2, if x.rec_.isNone then 0 else if running then 2 else 1), (2, 1, b1 (s.edp.scene == some k)),
      (3, 1, b1 (x.rec_.isSome && x.cache.isNone))], s)
  | 0x04 => (x.lastFrame.toNat, s)
  | 0x08 => (match x.rec_ with | some r => loW (costOf r) | none => 0, s)
  | 0x0C => (packFields [(0, 16, x.late.toNat), (16, 16, x.torn.toNat)], setScene k (fun x => { x with late := 0, torn := 0 }) s)
  | 0x10 => (x.cacheBuilds.toNat, s)
  | _ => (0, s)

/-- EDP_CFG and EDP_STAT. `o` counts from 0x0082_0000. -/
def regEdp (o : Nat) (s : State) : ReadOf :=
  let x := s.edp
  match o with
  | 0x20 => (packFields [(0, 1, b1 x.hpd), (1, 1, b1 x.trained), (2, 3, x.lanes.toNat), (5, 2, x.rate.toNat)], s)
  | 0x24 => (x.frames.toNat, s)
  | 0x28 => (x.repeated.toNat, s)
  | 0x2C => (packFields [(0, 16, x.linkLoss.toNat), (16, 16, x.trainFail.toNat)], { s with edp := { x with linkLoss := 0, trainFail := 0 } })
  | _ => (cfgWord s (0x820000 + o), s)

/-- COMPOSE and the display. -/
def regCompose (o : Nat) (s : State) : ReadOf :=
  if o < 0x400 then regScene (o / 0x100) (o % 0x100) s
  else if 0x20000 ≤ o then regEdp (o - 0x20000) s
  else (0, s)

/-- STATE of a compression channel (ZIP_CH_c). -/
def zipState (j : Option ZipJob) : Nat :=
  match j with
  | none => 0
  | some j => if j.user = 1 then 3 else if j.user = 2 then 4 else if j.opened then 1 else 2

/-- Input that a channel has buffered and not coded, in units of 128 bytes. -/
def zipBuffered (j : Option ZipJob) : Nat := match j with | some j => min 512 ((j.buffer.length + 127) / 128) | none => 0

/-- ZIP_CH_c. -/
def regZipChan (c k : Nat) (s : State) : ReadOf :=
  let x := zipChan s c
  match k with
  | 0x00 => (packFields [(0, 3, zipState x.job), (3, 4, match x.job with | some j => (if j.user = 1 then j.port else 0) | none => 0),
      (8, 10, zipBuffered x.job)], s)
  | 0x04 => (x.bytesIn.toNat, s)
  | 0x08 => (x.bytesOut.toNat, s)
  | 0x0C => (x.blocks.toNat, s)
  | 0x10 => (x.stored.toNat, s)
  | 0x14 => (packFields [(0, 16, x.noSpace.toNat), (16, 16, x.noGain.toNat)], setZip c (fun x => { x with noSpace := 0, noGain := 0 }) s)
  | 0x18 => (packFields [(0, 16, x.limit.toNat), (16, 16, x.dataErr.toNat)], setZip c (fun x => { x with limit := 0, dataErr := 0 }) s)
  | _ => (0, s)

/-- ZIP_ENG_e. BUSY_US counts the block in progress too. -/
def regZipEng (e k : Nat) (s : State) : Nat :=
  match s.zip.engs[e]? with
  | none => 0
  | some x =>
    match k with
    | 0x00 => packFields [(0, 1, b1 x.chan.isSome), (1, 3, x.chan.getD 0), (4, 1, b1 (x.chan.isSome && x.decode))]
    | 0x04 => x.blocks.toNat
    | 0x08 => loW ((x.busyNs + if x.chan.isSome then s.now - x.since else 0) / 1000)
    | _ => 0

/-- The ZIP registers. -/
def regZip (o : Nat) (s : State) : ReadOf :=
  if o = 0 then (cfgWord s 0x840000, s)
  else if 0x100 ≤ o && o < 0x300 then regZipChan ((o - 0x100) / 0x40) (o % 0x40) s
  else if 0x1000 ≤ o && o < 0x1080 then (regZipEng ((o - 0x1000) / 0x20) (o % 0x20) s, s)
  else (0, s)

/-! ### BASIN -/

/-- BASIN_RT_p. -/
def regRt (p k : Nat) (s : State) : ReadOf :=
  let x := rtPort s p
  match k with
  | 0x0 => (packFields [(0, 2, x.order.toNat), (8, 1, b1 x.panic)], s)
  | 0x4 => (x.panicCount.toNat, setRt p (fun x => { x with panicCount := 0 }) s)
  | 0x8 => (packFields [(0, 16, x.misplacedCount.toNat), (16, 16, x.panicMaxUs.toNat)],
      setRt p (fun x => { x with misplacedCount := 0, panicMaxUs := 0 }) s)
  | _ => (0, s)

/-- A list of fields of one width, the first lowest. -/
def packRow (w : Nat) (xs : List Nat) : Nat := packFields (xs.mapIdx fun i v => (w * i, w, v))

/-- The BASIN registers. -/
def regBasin (o : Nat) (s : State) : ReadOf :=
  let b := s.basin
  let put := fun (b : Basin) => { s with basin := b }
  if 0x100 ≤ o && o < 0x290 then regRt ((o - 0x100) / 0x10) (o % 0x10) s
  else
    match o with
    | 0x00 => (packFields [(0, 1, b1 b.eccEn), (2, 16, packRow 2 ((List.range 8).map (segOrder s)))], s)
    | 0x04 => (b.srIdle.toNat, s)
    | 0x08 => (b.scrubPeriod.toNat, s)
    | 0x0C => (packRow 4 (b.nrtWeight.map fun x => x.toNat), s)
    | 0x10 => ((unit b.bankMask 0 0).toNat, s)
    | 0x14 => ((unit b.bankMask 1 0).toNat, s)
    | 0x18 => ((unit b.bankMask 2 0).toNat, s)
    | 0x1C => ((unit b.bankMask 3 0).toNat, s)
    | 0x20 => (packFields [(0, 2, b.state.toNat), (2, 1, b1 (anyPanic s)), (3, 1, b1 b.hot), (8, 8, b.retain.toNat)], s)
    | 0x24 => (packFields [(0, 16, packRow 4 (b.postponed.map fun x => x.toNat)), (16, 8, usableEnd s / 0x40000000)], s)
    | 0x30 => (packFields [(0, 16, b.forcedRefresh.toNat), (16, 16, b.panicLong.toNat)], put { b with forcedRefresh := 0, panicLong := 0 })
    | 0x34 => (b.srEntries.toNat, s)
    | 0x38 => (packFields [(0, 16, b.srAbort.toNat), (16, 16, b.inorder.toNat)], put { b with srAbort := 0, inorder := 0 })
    | 0x3C => (b.scrubPasses.toNat, s)
    | 0x40 => (b.ceCount.toNat, put { b with ceCount := 0 })
    | 0x44 => (b.ueCount.toNat, put { b with ueCount := 0 })
    | 0x48 => (loW b.lastCe.toNat, put { b with ceHiLatch := BitVec.ofNat 32 (hiW b.lastCe.toNat) })
    | 0x4C => (b.ceHiLatch.toNat, s)
    | 0x50 => (loW b.lastUe.toNat, put { b with ueHiLatch := BitVec.ofNat 32 (hiW b.lastUe.toNat) })
    | 0x54 => (b.ueHiLatch.toNat, s)
    | _ => (0, s)

/-! ### HK and RECORDER -/

/-- HK_CAL_k. -/
def regHkCal (k o : Nat) (s : State) : ReadOf :=
  let x := unit s.hk.kinds k .reset
  let waits := s.hk.waits.filter fun w => w.kind == k
  match o with
  | 0x00 => (cfgWord s (0xA00400 + 0x20 * k), s)
  | 0x04 => (packFields [(0, 9, waits.length), (9, 1, b1 (waits.any fun w => w.overdue)), (16, 16, x.quality.toNat)], s)
  | 0x08 => (loW x.lastNs.toNat, setKind k (fun x => { x with lastHiLatch := BitVec.ofNat 32 (hiW x.lastNs.toNat) }) s)
  | 0x0C => (x.lastHiLatch.toNat, s)
  | 0x10 => (x.runs.toNat, s)
  | 0x14 => (packFields [(0, 16, x.abandoned.toNat), (16, 16, x.rejected.toNat)], setKind k (fun x => { x with abandoned := 0, rejected := 0 }) s)
  | _ => (0, s)

/-- HK_LANE_CAL_l. -/
def regLaneCal (l o : Nat) (s : State) : Nat :=
  let x := laneCal s l
  if s.variant.lanes ≤ l then 0
  else
  match o with
  | 0x0 => packFields [(0, 16, x.pgain), (16, 16, s16 x.pofs)]
  | 0x4 => packFields [(0, 16, (laneOf s l).loop.darkA), (16, 16, (laneOf s l).loop.darkB)]
  | 0x8 => packFields [(0, 16, x.resid.toNat), (16, 4, x.powerSets.length), (20, 4, x.darkSets.length)]
  | _ => 0

/-- HK_STAT (R511 to R514, R529). -/
def hkStat (s : State) : Nat :=
  let h := s.hk
  packFields [(0, 2, h.level.toNat), (2, 2, hkFloor s), (4, 1, b1 h.warnJ), (5, 1, b1 h.warnMod), (6, 1, b1 h.warnDram), (7, 1, b1 h.warnVinLow),
    (8, 1, b1 h.warnVinHigh), (9, 1, b1 h.warnPower), (10, 1, b1 (h.warnRail.any id)), (11, 5, (validRos s).length), (16, 16, h.tj.toNat)]

/-- The HK registers. -/
def regHk (o : Nat) (s : State) : ReadOf :=
  let h := s.hk
  if o = 0 then (hkStat s, s)
  else if o = 4 then (packFields [(0, 4, h.shutCause.toNat), (4, 6, h.shutSlot.toNat), (16, 16, h.shutValue.toNat)], s)
  else if 0x100 ≤ o && o < 0x200 then
    let i := (o - 0x100) / 4
    (packFields [(0, 16, (unit h.reads i 0).toNat), (16, 1, b1 (h.failed.getD i false))], s)
  else if 0x400 ≤ o && o < 0x4E0 then regHkCal ((o - 0x400) / 0x20) (o % 0x20) s
  else if 0x2000 ≤ o && o < 0x2800 then (regLaneCal ((o - 0x2000) / 0x10) (o % 0x10) s, s)
  else (cfgWord s (0xA00000 + o), s)

/-- STATE of REC_STAT (R541, R549). -/
def recState (s : State) : Nat :=
  match s.recorder.write with
  | none => 0
  | some w => if w.due.kind = 8 then 3 else if 0 < w.fails then 2 else 1

/-- The RECORDER registers. -/
def regRecorder (o : Nat) (s : State) : ReadOf :=
  let r := s.recorder
  if 0x1000 ≤ o && o < 0x1100 then (let x := readWindow ((o - 0x1000) / 4) s; (x.1.toNat, x.2))
  else
    match o with
    | 0x00 => (packFields [(0, 2, recState s), (2, 1, b1 r.activeB), (3, 1, b1 s.ident.otp.ownerClearKey.isSome), (4, 1, b1 (recLocked s)),
        (5, 1, b1 r.winReady)], s)
    | 0x04 => (r.minutes.toNat, s)
    | 0x08 => (r.cycles.toNat, s)
    | 0x0C => (r.seqNext.toNat, s)
    | 0x10 => (packFields [(0, 11, r.newest.getD 0), (12, 9, r.clears.toNat), (21, 11, r.badSlots.toNat)], s)
    | 0x20 => (packFields [(0, 16, r.writeFails.toNat), (16, 8, r.authFail.toNat), (24, 8, r.retries.toNat)],
        setRecorder (fun r => { r with writeFails := 0, retries := 0 }) s)
    | _ => (cfgWord s (0xA40000 + o), s)

/-! ### XING -/

/-- DOMAIN_UP (XING_STAT): the domains whose clock runs, from CD0 on (R552, log 72). -/
def domainUp (s : State) : Nat :=
  if s.boot.phase = 0 then 0
  else
    let spl := s.link.ports.any fun p => p.link != 0
    let cam := s.cams.any fun c => c.streaming
    0xFF + 256 * b1 spl + 512 * b1 s.boot.ethLock + 1024 * b1 s.hostq.pcieUp + 2048 * b1 cam

/-- XING_STAT. -/
def regXing (o : Nat) (s : State) : ReadOf :=
  let p := s.power
  match o with
  | 0x00 => (domainUp s, s)
  | 0x10 => (packFields [(0, 16, p.down.toNat), (16, 16, p.inReset.toNat)], setPower (fun p => { p with down := 0, inReset := 0 }) s)
  | 0x14 => (p.dropped.toNat, setPower (fun p => { p with dropped := 0 }) s)
  | 0x18 => (p.pulseLost.toNat, setPower (fun p => { p with pulseLost := 0 }) s)
  | 0x1C => (p.lastDown.toNat, s)
  | _ => (0, s)

/-! ### The map (R3, R290) -/

/-- An offset lies in a block of the map, and in the register group of a unit that the variant has. -/
def offsetMapped (off : Nat) (s : State) : Bool :=
  if off < 0x70000 then true
  else if 0x100000 ≤ off && off < 0x200000 then decide ((off - 0x100000) / 0x10000 < s.variant.tarns)
  else if 0x400000 ≤ off && off < 0x500000 then decide ((off - 0x400000) / 0x8000 < s.variant.ports)
  else if 0x700000 ≤ off && off < 0x780000 then decide ((off - 0x700000) / 0x10000 < s.variant.cameras)
  else if 0x780000 ≤ off && off < 0x7C0000 then decide ((off - 0x780000) / 0x8000 < s.variant.cameras)
  else
    (0x200000 ≤ off && off < 0x250000) || (0x300000 ≤ off && off < 0x340000) || (0x500000 ≤ off && off < 0x580000)
    || (0x600000 ≤ off && off < 0x680000) || (0x7C0000 ≤ off && off < 0x880000) || (0x900000 ≤ off && off < 0x980000)
    || (0xA00000 ≤ off && off < 0xA50000) || (0xB00000 ≤ off && off < 0xB10000)

/-- The unit that a register belongs to, by the kinds of BLK_KIND (R568). -/
def offsetUnit (off : Nat) : Option UnitId :=
  if 0x100000 ≤ off && off < 0x200000 then
    let o := off % 0x10000
    let t := (off - 0x100000) / 0x10000
    if 0x1000 ≤ o && o < 0x1800 then some (0, 8 * t + (o - 0x1000) / 0x100) else some (1, t)
  else if 0x400000 ≤ off && off < 0x500000 then some (2, (off - 0x400000) / 0x8000)
  else if 0x600000 ≤ off && off < 0x601000 then some (6, (off - 0x600000) / 0x100)
  else if 0x700000 ≤ off && off < 0x780000 then some (3, (off - 0x700000) / 0x10000)
  else if 0x780000 ≤ off && off < 0x800000 then some (4, 0)
  else if 0x840100 ≤ off && off < 0x840300 then some (5, (off - 0x840100) / 0x40)
  else none

/-- The register at an offset; one that no table lists reads 0 (R11, R290). -/
def regRead (off : Nat) (s : State) : ReadOf :=
  if !offsetMapped off s then (0, s)
  else if off < 0x10000 then regGlobal off s
  else if off < 0x20000 then (0, s)
  else if off < 0x60000 then (regHostq (off - 0x20000) s, s)
  else if off < 0x70000 then regStill (off - 0x60000) s
  else if off < 0x200000 then regTarn ((off - 0x100000) / 0x10000) (off % 0x10000) s
  else if off < 0x240000 then regMere (off - 0x200000) s
  else if off < 0x250000 then regProx (off - 0x240000) s
  else if off < 0x340000 then regTime (off - 0x300000) s
  else if off < 0x500000 then regPort ((off - 0x400000) / 0x8000) (off % 0x8000) s
  else if off < 0x580000 then (0, s)
  else if off < 0x640000 then regAxes (off - 0x600000) s
  else if off < 0x680000 then regEncs (off - 0x640000) s
  else if off < 0x780000 then regCam ((off - 0x700000) / 0x10000) (off % 0x10000) s
  else if off < 0x800000 then regIsp (off - 0x780000) s
  else if off < 0x840000 then regCompose (off - 0x800000) s
  else if off < 0x860000 then regZip (off - 0x840000) s
  else if off < 0x880000 then regLeds (off - 0x860000) s
  else if off < 0x980000 then regBasin (off - 0x900000) s
  else if off < 0xA40000 then regHk (off - 0xA00000) s
  else if off < 0xA50000 then regRecorder (off - 0xA40000) s
  else regXing (off - 0xB00000) s

/-- One 32-bit read (R283, R284, R562): its status, its data and the state after it. A unit that is held in reset ends it with
DOMAIN_RESET and all ones. -/
def readWord (off : Nat) (s : State) : Nat × Word × State :=
  match offsetUnit off with
  | some u =>
    if offsetMapped off s && unitDown s u then
      (stReset, 0xFFFFFFFF, accessError stReset off (setPower (fun p => { p with inReset := satInc p.inReset }) s))
    else let x := regRead off s; (stDone, BitVec.ofNat 32 x.1, x.2)
  | none => let x := regRead off s; (stDone, BitVec.ofNat 32 x.1, x.2)

end Sys2Proof.Machine
end

