-- ==== Sys2Proof/Machine/Registers.lean ====
section
/-! DEFINITION. Host accesses to BAR0 and BAR2 (R282 to R285, R291), and the scrub of Basin (R506). -/

namespace Sys2Proof.Machine

/-! ### Writes to the HOST groups -/

/-- A CMD of GLOBAL_POWER_CTRL with the KEY of the same write (R569). -/
def writePowerCmd (v : Word) (s : State) : State :=
  let key := BitVec.ofNat 16 (v.toNat / 65536)
  match v.toNat % 256 with
  | 0x01 => powerCommand key false false moduleReset s
  | 0x02 => powerCommand key false false (firmwareReset 0) s
  | 0x03 => powerCommand key (!blockUnitOk s.power.blkKind.toNat s.power.blkIndex.toNat s) false blockReset s
  | 0x10 => powerCommand key false (entryBarred s) (beginEntry 1 false) s
  | 0x11 => powerCommand key false (entryBarred s) (beginEntry 2 false) s
  | _ => powerCommand key true false id s

/-- A CMD of GLOBAL_BOOT_CTRL; a reserved value is discarded (R12, R339). -/
def writeBootCmd (v : Word) (s : State) : State :=
  match v.toNat % 256 with
  | 1 => bootGo s
  | 2 => bootClear s
  | _ => s

/-- A CMD of GLOBAL_PROF_CTRL; a reserved value is discarded (R12). -/
def writeProfCmd (v : Word) (s : State) : State :=
  if !s.boot.alive then s
  else
    match v.toNat % 256 with
    | 1 => profileWrite s
    | 2 => profileReload s
    | _ => s

/-- A write to the GLOBAL host group. -/
def writeGlobalHost (off : Nat) (v : Word) (s : State) : State :=
  match off with
  | 0x1000 => { s with mgmt := { s.mgmt with win := BitVec.ofNat 5 v.toNat } }
  | 0x1004 => writeEventHead v s
  | 0x1008 => clearNotify false v s
  | 0x100C => clearNotify true v s
  | 0x1100 => setBoot (fun b => { b with ctrlLen := BitVec.ofNat 26 v.toNat }) s
  | 0x1104 => writeBootCmd v s
  | 0x1200 => setProfile (fun p => { p with ctrlAddr := BitVec.ofNat 64 (hiW p.ctrlAddr.toNat * 2 ^ 32 + v.toNat) }) s
  | 0x1204 => setProfile (fun p => { p with ctrlAddr := BitVec.ofNat 64 (v.toNat * 2 ^ 32 + loW p.ctrlAddr.toNat) }) s
  | 0x1208 => setProfile (fun p => { p with ctrlLen := BitVec.ofNat 28 v.toNat }) s
  | 0x120C => writeProfCmd v s
  | 0x1300 => writeCursor v s
  | 0x1400 => writePowerCmd v s
  | 0x1404 => setPower (fun p => { p with blkKind := BitVec.ofNat 4 v.toNat, blkIndex := BitVec.ofNat 7 (v.toNat / 256) }) s
  | 0x1408 =>
    let us := bits v.toNat 0 14
    if us < 1 || 10000 < us then s else setPower (fun p => { p with accessTimeout := BitVec.ofNat 14 us }) s
  | _ => reservedWrite s

/-- A write to HOSTQ_CMD_r. -/
def writeCmdRing (r k : Nat) (v : Word) (s : State) : State :=
  match k with
  | 0x00 => writeCmdBase r false v s
  | 0x04 => writeCmdBase r true v s
  | 0x08 => writeCmdCtrl r v s
  | 0x0C => doorbell r v.toNat s
  | 0x10 => s
  | 0x14 => s
  | _ => reservedWrite s

/-- A write to HOSTQ_CQ_c. -/
def writeComplRing (c k : Nat) (v : Word) (s : State) : State :=
  match k with
  | 0x00 => writeCqBase c false v s
  | 0x04 => writeCqBase c true v s
  | 0x08 => writeCqCtrl c v s
  | 0x0C => writeCqHead c v s
  | 0x10 => s
  | 0x14 => writeCqInt c v s
  | 0x18 => s
  | _ => reservedWrite s

/-- A write to HOSTQ; HOSTQ_STAT and the pending bits are read-only (R10). `o` counts from 0x0002_0000. -/
def writeHostq (o : Nat) (v : Word) (s : State) : State :=
  if o < 0x800 then writeCmdRing (o / 0x20) (o % 0x20) v s
  else if 0x1000 ≤ o && o < 0x1200 then writeComplRing ((o - 0x1000) / 0x20) (o % 0x20) v s
  else if 0x1F000 ≤ o && o < 0x1F400 then writeMsix ((o - 0x1F000) / 16) (o % 16 / 4) v s
  else if o = 0x2000 || o = 0x1F800 || o = 0x1F804 then s
  else reservedWrite s

/-- A write of one register (R10 to R12, R284, R291). -/
def regWrite (off : Nat) (v : Word) (s : State) : State :=
  if !offsetMapped off s then reservedWrite s
  else if 0x1000 ≤ off && off < 0x2000 then writeGlobalHost off v s
  else if 0x20000 ≤ off && off < 0x60000 then writeHostq (off - 0x20000) v s
  else ownerReject off s

/-- One 32-bit write (R283, R284, R562), with the status with which it ends. -/
def writeWord (off : Nat) (v : Word) (s : State) : Nat × State :=
  match offsetUnit off with
  | some u =>
    if offsetMapped off s && unitDown s u then
      (stReset, accessError stReset off (setPower (fun p => { p with inReset := satInc p.inReset }) s))
    else
      let t := regWrite off v s
      (if t.access.made = s.access.made then stDone else t.access.lastStatus.toNat, t)
  | none =>
    let t := regWrite off v s
    (if t.access.made = s.access.made then stDone else t.access.lastStatus.toNat, t)

/-! ### Accesses of the host (R283) -/

/-- The data of a read goes to the host. -/
def answerRead (off : Nat) (v : Word) (s : State) : State := { s with sent := .readData off v :: s.sent }

/-- A read of a register whose data goes to the host. -/
def readOut (off : Nat) (s : State) : State := let x := readWord off s; answerRead off x.2.1 x.2.2

/-- A BAR0 read of `len` bytes: aligned 32 bits, or aligned 64 bits as two reads, the lower address first. Any other reads 0 and is counted. -/
def hostRead (off len : Nat) (s : State) : State :=
  if len = 4 && off % 4 = 0 then readOut off s
  else if len = 8 && off % 8 = 0 then readOut (off + 4) (readOut off s)
  else answerRead off 0 (badAccess s)

/-- A BAR0 write of `len` bytes. -/
def hostWrite (off len value : Nat) (s : State) : State :=
  if len = 4 && off % 4 = 0 then (writeWord off (BitVec.ofNat 32 value) s).2
  else if len = 8 && off % 8 = 0 then
    (writeWord (off + 4) (BitVec.ofNat 32 (value / 2 ^ 32)) (writeWord off (BitVec.ofNat 32 value) s).2).2
  else badAccess s

/-- READ_CLEAR: a read of BAR0, by which RC fields are cleared (R10). -/
def execReadClear (off len : Nat) (s : State) : Host.Outcome State Fault Refusal := .next (atHost (hostRead off len) s)

/-- SPLIT_READ_LATCH: a read of BAR0, by which the word that names a wide value holds its upper words (R213 and the register tables). -/
def execSplitReadLatch (off len : Nat) (s : State) : Host.Outcome State Fault Refusal := .next (atHost (fun s => hostRead off len s) s)

/-- REGISTER_WRITE: a write to BAR0 (R291). -/
def execRegisterWrite (off len value : Nat) (s : State) : Host.Outcome State Fault Refusal := .next (atHost (hostWrite off len value) s)

/-! ### BAR2 (R285, R334) -/

/-- Addresses below 0x2000_0000 are closed to BAR2 from GO on; in WAIT_IMAGE and before, and where no GO has come, they are open (R334). -/
def lowClosed (s : State) : Bool := !([0, 1, 2].contains s.boot.phase.toNat || (s.boot.phase == 11 && s.boot.goLen == 0))

/-- The bytes of a request that BAR2 serves: the first address and how many. -/
def bar2Open (a len : Nat) (s : State) : Nat × Nat :=
  let lo := max a (if lowClosed s then 0x20000000 else 0)
  (lo, min (a + len) (usableEnd s) - lo)

/-- A request with a byte that BAR2 does not serve counts once. -/
def bar2Count (a len : Nat) (s : State) : State := if (bar2Open a len s).2 = len then s else badAccess s

/-- Uncorrectable words of a range. -/
def poisonedIn (a n : Nat) (s : State) : List Nat :=
  if s.basin.eccEn then (s.basin.poisoned.filter fun w => decide (8 * w < a + n) && decide (a < 8 * w + 8)).map fun w => 8 * w else []

/-- A BAR2 read. -/
def bar2Read (a len : Nat) (s : State) : State :=
  let (lo, n) := bar2Open a len s
  let bs := List.replicate (min len (lo - a)) 0 ++ memRead lo n s
  let bad := if n = 0 then [] else poisonedIn lo n s
  let s := touchBasin lo n (bar2Count a len s)
  let s := bad.foldl (fun s w => eccFatal w (eccUe 33 w s)) s
  { s with sent := .bar2Data (padTo len bs) (!bad.isEmpty) :: s.sent }

/-- RECEIVED follows the highest byte that has been staged in WAIT_IMAGE (R334, GLOBAL_BOOT). -/
def noteStaged (a n : Nat) (s : State) : State :=
  if s.boot.phase == 2 && n != 0 && a < 0x3000000 then
    setBoot (fun b => { b with received := BitVec.ofNat 26 (max b.received.toNat (min (a + n) 0x3000000)) }) s
  else s

/-- A BAR2 write. -/
def bar2Write (a : Nat) (bs : List Byte) (s : State) : State :=
  let (lo, n) := bar2Open a bs.length s
  let s := bar2Count a bs.length s
  if n = 0 then s else noteStaged lo n (memWrite 33 lo ((bs.drop (lo - a)).take n) s)

/-- BAR2_ACCESS: a read of `len` bytes, or a write of `data`, at offset `off` of the window. -/
def bar2Access (off len : Nat) (data : Option (List Byte)) (s : State) : State :=
  let a := s.mgmt.win.toNat * 0x40000000 + off
  match data with
  | none => if 0x100000000 < off + len then s else bar2Read a len s
  | some bs => if 0x100000000 < off + bs.length then s else bar2Write a bs s

def execBar2Access (off len : Nat) (data : Option (List Byte)) (s : State) : Host.Outcome State Fault Refusal :=
  .next (atHost (bar2Access off len data) s)

/-! ### The scrub (R504, R506, R509) -/

/-- A single-bit error has been corrected at `a`; the first of a second is reported. -/
def eccCe (s : State) (a : Nat) : State :=
  let sec := s.now / 1000000000
  let first := s.basin.ceSecond != some sec
  let s := { s with basin :=
      { s.basin with ceCount := satInc s.basin.ceCount, lastCe := BitVec.ofNat 64 a, ceSecond := some sec } }
  if first then raise 0x6001 (natLE 8 a ++ natLE 4 1) s else s

/-- SCRUB_PASS: every usable word has been read. `ce` are the words that were corrected, `ue` those found uncorrectable, beside the ones that
have been so before. The refreshes that fall into the pass close every row. -/
def scrubPass (ce ue : List Nat) (s : State) : State :=
  if !s.basin.eccEn || s.basin.scrubPeriod = 0 || s.power.state != .on then s
  else
    let new := (ue.map fun a => a / 8).filter fun w => decide (8 * w < usableEnd s) && !s.basin.poisoned.contains w
    let s := touchBasin 0 0 s
    let s := { s with basin := { s.basin with
      poisoned := s.basin.poisoned ++ new.eraseDups, scrubPasses := s.basin.scrubPasses + 1, openRows := List.replicate 64 none } }
    let s := (ce.filter fun a => decide (a < usableEnd s)).foldl eccCe s
    let bad := s.basin.poisoned
    let s := bad.foldl (fun s w => eccUe 39 (8 * w) s) s
    match bad.find? fun w => decide (8 * w < 0x20000000) with
    | some w => eccFatal (8 * w) s
    | none => s

def execScrubPass (t : Ns) (ce ue : List Nat) (s : State) : Host.Outcome State Fault Refusal := .next (scrubPass ce ue (passTo t s))

end Sys2Proof.Machine
end

