-- ==== Sys2Proof/Machine/Mgmt.lean ====
section
/-! DEFINITION. The Ethernet management channel (R286 to R289) and the boot frames (R340, R341). -/

namespace Sys2Proof.Machine

def setMgmt (f : Mgmt → Mgmt) (s : State) : State := { s with mgmt := f s.mgmt }

/-! ### Datagrams -/

/-- The bytes of a datagram of the channel. -/
def mgmtBytes (magic version kind flags status seq address count : Nat) (data : List Byte) : List Byte :=
  let b := natLE 2 magic ++ natLE 1 version ++ natLE 1 kind ++ natLE 1 flags ++ natLE 1 status ++ natLE 2 seq ++ natLE 8 address
    ++ natLE 2 count ++ natLE 2 0 ++ data
  b ++ natLE 4 (crc32 b)

/-- A request has the CRC of its bytes, the MAGIC and the VERSION. -/
def mgmtFormOk (kind : Nat) (q : MgmtReq) : Bool :=
  q.magic == 0x4D48 && q.version == 1
    && natLE 4 q.crc == (mgmtBytes q.magic q.version kind (2 * b1 q.retry) 0 q.seq q.address q.count q.data).drop (20 + q.data.length)

/-- The source may use the channel: anyone before a profile is in force and without a list (R378). -/
def mgmtAllowed (q : MgmtReq) (s : State) : Bool :=
  match if profileInForce s then s.prof.network else none with
  | none => true
  | some n => n.allow.isEmpty || n.allow.contains q.src

/-- A datagram is dropped and counted. -/
def mgmtDrop (s : State) : State := { s with access := { s.access with mgmtDropped := satInc s.access.mgmtDropped } }

/-- COUNT is a multiple of 4 from 4 to 1,024. -/
def countOk (q : MgmtReq) : Bool := q.count % 4 == 0 && decide (4 ≤ q.count) && decide (q.count ≤ 1024)

/-- The answer to a request: FLAGS has RESPONSE, and COUNT is the length of its data. -/
def answerBytes (kind st : Nat) (q : MgmtReq) (data : List Byte) : List Byte :=
  mgmtBytes 0x4D48 1 kind 1 st q.seq q.address data.length data

def sendDatagram (dst : Nat) (bs : List Byte) (s : State) : State := { s with sent := .datagram dst bs :: s.sent }

/-- The newest answers, `n` of them at most, one for each SEQ. -/
def keepAnswer (n seq : Nat) (bs : List Byte) (l : List KeptAnswer) : List KeptAnswer :=
  ({ seq := seq, bytes := bs } :: l.filter fun a => a.seq != seq).take n

/-- An answer is sent; the last 32 to the attached host are kept (R287). -/
def answerMgmt (kind st : Nat) (q : MgmtReq) (data : List Byte) (s : State) : State :=
  let bs := answerBytes kind st q data
  let s := if s.mgmt.attached == some q.src then setMgmt (fun m => { m with kept := keepAnswer 32 q.seq bs m.kept }) s else s
  sendDatagram q.src bs s

/-- The kept answer that a repeated request of the attached host gets. -/
def keptMgmt (q : MgmtReq) (s : State) : Option KeptAnswer :=
  if q.retry && s.mgmt.attached == some q.src then s.mgmt.kept.find? fun a => a.seq == q.seq else none

/-- A request reaches the channel while the module is on and past its reset. -/
def mgmtRequest (kind : Nat) (run : State → State) (q : MgmtReq) (s : State) : State :=
  if s.power.state != .on || s.boot.phase == 0 then s
  else if !mgmtFormOk kind q || !mgmtAllowed q s then mgmtDrop s
  else
    match keptMgmt q s with
    | some a => sendDatagram q.src a.bytes s
    | none => run s

/-- Kinds that only the attached host may use (R287). -/
def attachedOnly (kind : Nat) (run : State → State) (q : MgmtReq) (s : State) : State :=
  mgmtRequest kind (fun s => if s.mgmt.attached == some q.src then run s else answerMgmt kind stAuth q [] s) q s

/-! ### Registers (R286) -/

/-- `n` reads from an offset on; the first that does not end with DONE is the last. -/
def readRegs : Nat → Nat → State → Nat × List Byte × State
  | 0, _, s => (stDone, [], s)
  | n + 1, off, s =>
    if off % 4 != 0 then
      let (st, bs, s) := readRegs n (off + 4) (badAccess s)
      (st, natLE 4 0 ++ bs, s)
    else
      let (st, v, s) := readWord off s
      if st != stDone then (st, natLE 4 v.toNat, s)
      else
        let (st, bs, s) := readRegs n (off + 4) s
        (st, natLE 4 v.toNat ++ bs, s)

/-- Writes from an offset on. -/
def writeRegs : Nat → Nat → List Byte → State → Nat × State
  | 0, _, _, s => (stDone, s)
  | n + 1, off, bs, s =>
    if off % 4 != 0 then writeRegs n (off + 4) (bs.drop 4) (badAccess s)
    else
      let (st, s) := writeWord off (BitVec.ofNat 32 (field bs 0 4)) s
      if st != stDone then (st, s) else writeRegs n (off + 4) (bs.drop 4) s

/-- REG_READ. Data that was not read is 0. -/
def mgmtRegRead (q : MgmtReq) (s : State) : State :=
  if !countOk q then answerMgmt 1 stParam q [] s
  else
    let (st, bs, s) := readRegs (q.count / 4) q.address s
    answerMgmt 1 st q (padTo q.count bs) s

def execRegRead (q : MgmtReq) (s : State) : Host.Outcome State Fault Refusal := .next (attachedOnly 1 (mgmtRegRead q) q s)

/-- REG_WRITE. -/
def mgmtRegWrite (q : MgmtReq) (s : State) : State :=
  if !countOk q || q.data.length != q.count then answerMgmt 2 stParam q [] s
  else
    let (st, s) := writeRegs (q.count / 4) q.address q.data s
    answerMgmt 2 st q [] s

def execRegWrite (q : MgmtReq) (s : State) : Host.Outcome State Fault Refusal := .next (attachedOnly 2 (mgmtRegWrite q) q s)

/-! ### Basin (R286, R600) -/

/-- MEM_READ of host memory. -/
def mgmtMemRead (q : MgmtReq) (s : State) : State :=
  if !countOk q || !hostMem q.address q.count s then answerMgmt 3 stParam q [] s
  else
    let bs := memRead q.address q.count s
    match poisonedIn q.address q.count s with
    | [] => answerMgmt 3 stDone q bs (touchBasin q.address q.count s)
    | bad => answerMgmt 3 stEcc q [] (bad.foldl (fun s w => eccUe 33 w s) (touchBasin q.address q.count s))

def execMemRead (q : MgmtReq) (s : State) : Host.Outcome State Fault Refusal := .next (attachedOnly 3 (mgmtMemRead q) q s)

/-- MEM_WRITE of host memory. -/
def mgmtMemWrite (q : MgmtReq) (s : State) : State :=
  if !countOk q || q.data.length != q.count || !hostMem q.address q.count s then answerMgmt 4 stParam q [] s
  else answerMgmt 4 stDone q [] (memWrite 33 q.address q.data s)

def execMemWrite (q : MgmtReq) (s : State) : Host.Outcome State Fault Refusal := .next (attachedOnly 4 (mgmtMemWrite q) q s)

/-! ### Attachment (R287, R288) -/

/-- ATTACH: refused while another source is attached and not lost. -/
def mgmtAttach (q : MgmtReq) (s : State) : State :=
  let other := s.mgmt.attached.any fun a => a != q.src
  if other && !s.mgmt.hostLost then answerMgmt 5 stBusy q [] s
  else
    let s := if other then endAttachment 1 s else s
    answerMgmt 5 stDone q [] (raise 0xA008 (natLE 16 q.src) (setMgmt (fun m => { m with attached := some q.src }) s))

def execAttach (q : MgmtReq) (s : State) : Host.Outcome State Fault Refusal := .next (mgmtRequest 5 (mgmtAttach q) q s)

/-- DETACH. -/
def execDetach (q : MgmtReq) (s : State) : Host.Outcome State Fault Refusal :=
  .next (attachedOnly 6 (fun s => answerMgmt 6 stDone q [] (endAttachment 0 s)) q s)

/-- NOTIFY (R289): sent when a vector has fired, at most once per 10 µs, and again every 100 ms while any bit is set. -/
def mgmtNotify (s : State) : State :=
  let m := s.mgmt
  let due := match m.lastNotify with
    | none => true
    | some t => (m.fresh && decide (t + 10000 ≤ s.now)) || decide (t + 100000000 ≤ s.now)
  match m.attached with
  | none => s
  | some dst =>
    if m.notify = 0 || !due || s.power.state != .on then s
    else sendDatagram dst (mgmtBytes 0x4D48 1 7 0 0 0 0 8 (natLE 8 m.notify.toNat))
      (setMgmt (fun m => { m with lastNotify := some s.now, fresh := false }) s)

def execNotify (t : Ns) (s : State) : Host.Outcome State Fault Refusal := .next (mgmtNotify (passTo t s))

/-! ### Boot frames (R340, R341) -/

/-- The data of BOOT_HELLO and BOOT_STATUS. -/
def bootInfo (s : State) : List Byte :=
  let o := s.ident.otp
  natLE 2 s.ident.moduleId.toNat ++ natLE 1 s.variant.code ++ natLE 1 s.ident.dieStep.toNat ++ natLE 1 s.boot.phase.toNat
    ++ natLE 1 s.boot.error.toNat ++ natLE 1 o.rollback.toNat ++ natLE 1 0 ++ natLE 8 o.serial.toNat ++ natLE 4 s.boot.fwVersion.toNat
    ++ natLE 4 s.boot.received.toNat ++ natLE 8 0

/-- An answer to a boot frame: the last 64 to the session are kept. -/
def answerBoot (kind st : Nat) (q : MgmtReq) (data : List Byte) (s : State) : State :=
  let bs := answerBytes kind st q data
  let s := if s.boot.keptFor == some q.src then setBoot (fun b => { b with kept := keepAnswer 64 q.seq bs b.kept }) s else s
  sendDatagram q.src bs s

/-- The kept answer that a repeated boot request gets. -/
def keptBoot (q : MgmtReq) (s : State) : Option KeptAnswer :=
  if q.retry && s.boot.keptFor == some q.src then s.boot.kept.find? fun a => a.seq == q.seq else none

/-- A boot request. -/
def bootRequest (kind : Nat) (run : State → State) (q : MgmtReq) (s : State) : State :=
  if s.power.state != .on || s.boot.phase == 0 then s
  else if !mgmtFormOk kind q || !mgmtAllowed q s then mgmtDrop s
  else
    match keptBoot q s with
    | some a => sendDatagram q.src a.bytes s
    | none => run s

def execBootHello (q : MgmtReq) (s : State) : Host.Outcome State Fault Refusal :=
  .next (bootRequest 16 (fun s => answerBoot 16 stDone q (bootInfo s) s) q s)

def execBootStatus (q : MgmtReq) (s : State) : Host.Outcome State Fault Refusal :=
  .next (bootRequest 19 (fun s => answerBoot 19 stDone q (bootInfo s) s) q s)

/-- Another source holds the boot session. -/
def otherSession (q : MgmtReq) (s : State) : Bool :=
  match s.boot.session with
  | some (src, t) => src != q.src && decide (s.now < t + 1000000000)
  | none => false

/-- A request of the session, which opens it. -/
def takeSession (q : MgmtReq) (s : State) : State :=
  setBoot (fun b => { b with
    session := some (q.src, s.now)
    kept := if b.keptFor = some q.src then b.kept else []
    keptFor := some q.src }) s

/-- BOOT_DATA. -/
def bootData (q : MgmtReq) (s : State) : State :=
  if s.boot.alive || s.boot.phase != 2 then answerBoot 17 stState q [] s
  else if otherSession q s then answerBoot 17 stBusy q [] s
  else
    let s := takeSession q s
    if !countOk q || q.data.length != q.count || q.address % 4 != 0 || 50331648 < q.address + q.count then answerBoot 17 stParam q [] s
    else answerBoot 17 stDone q [] (noteStaged q.address q.count (memWrite 32 q.address q.data s))

def execBootData (t : Ns) (q : MgmtReq) (s : State) : Host.Outcome State Fault Refusal := .next (bootRequest 17 (bootData q) q (passTo t s))

/-- BOOT_GO: the checks begin. -/
def bootGoFrame (q : MgmtReq) (s : State) : State :=
  let len := field q.data 0 8
  if s.boot.alive then answerBoot 18 stState q [] s
  else if s.boot.phase == 3 || s.boot.phase == 4 || otherSession q s then answerBoot 18 stBusy q [] s
  else if s.boot.phase != 2 then answerBoot 18 stState q [] s
  else if q.count != 8 || q.data.length != 8 || len < 4096 || 50331648 < len then answerBoot 18 stParam q [] s
  else answerBoot 18 stDone q [] (goNow len true s)

def execBootGoFrame (t : Ns) (q : MgmtReq) (s : State) : Host.Outcome State Fault Refusal :=
  .next (bootRequest 18 (bootGoFrame q) q (passTo t s))

/-- BOOT_SESSION_IDLE: a session idle for 1 s releases its source. -/
def bootSessionIdle (s : State) : State :=
  match s.boot.session with
  | some (_, t) => if t + 1000000000 ≤ s.now then setBoot (fun b => { b with session := none }) s else s
  | none => s

def execBootSessionIdle (t : Ns) (s : State) : Host.Outcome State Fault Refusal := .next (bootSessionIdle (passTo t s))

end Sys2Proof.Machine
end

