-- ==== Sys2Proof/Machine/TimeCmds.lean ====
section
/-! DEFINITION. What the outside world does to the clock (R217, R221, R222, R226). Where it gains READY_SYNCED, a job that waits for R32
starts (R38). -/

namespace Sys2Proof.Machine

/-- PTP_SYNC_RECEIVE (R221). -/
def execPtpSyncReceive (t : Ns) (m : PtpSync) (s : State) : Host.Outcome State Fault Refusal := .next (tryStart (ptpSync m (passTo t s)))

/-- PTP_ANNOUNCE_RECEIVE (R217). -/
def execPtpAnnounceReceive (t : Ns) (a : Announce) (s : State) : Host.Outcome State Fault Refusal :=
  .next (tryStart (ptpAnnounce a (passTo t s)))

/-- SOURCE_LOST (R222). -/
def execSourceLost (t : Ns) (announce : Bool) (s : State) : Host.Outcome State Fault Refusal :=
  .next (tryStart (sourceLost announce (passTo t s)))

/-- PPS_IN_EDGE (R226, R235). -/
def execPpsInEdge (t : Ns) (width : Nat) (s : State) : Host.Outcome State Fault Refusal := .next (tryStart (ppsIn width (passTo t s)))

end Sys2Proof.Machine
end

