-- ==== Sys2Proof/Machine/Dispatch.lean ====
section
/-! DEFINITION. The meaning of each command: one arm for each constructor of `Instr`. -/

namespace Sys2Proof.Machine

def exec (i : Instr) (s : State) : Host.Outcome State Fault Refusal :=
  match i with
  | .nop h => Sys2Proof.Machine.execNop h s
  | .fence h scope holdRing => Sys2Proof.Machine.execFence h scope holdRing s
  | .snapshotNow h => Sys2Proof.Machine.execSnapshotNow h s
  | .cfgStage h set count list => Sys2Proof.Machine.execCfgStage h set count list s
  | .cfgCommit h sets refTor launch => Sys2Proof.Machine.execCfgCommit h sets refTor launch s
  | .heartbeat h => Sys2Proof.Machine.execHeartbeat h s
  | .cfgAbort h sets => Sys2Proof.Machine.execCfgAbort h sets s
  | .snapshotCfg h setBase setPeriod base period => Sys2Proof.Machine.execSnapshotCfg h setBase setPeriod base period s
  | .eventRing h base size => Sys2Proof.Machine.execEventRing h base size s
  | .eventRoute h lo hi vec => Sys2Proof.Machine.execEventRoute h lo hi vec s
  | .jobStart h addr => Sys2Proof.Machine.execJobStart h addr s
  | .jobEnd h mode => Sys2Proof.Machine.execJobEnd h mode s
  | .layerQueue h addr => Sys2Proof.Machine.execLayerQueue h addr s
  | .layerCancel h fromIndex => Sys2Proof.Machine.execLayerCancel h fromIndex s
  | .jobHold h => Sys2Proof.Machine.execJobHold h s
  | .jobResume h mode => Sys2Proof.Machine.execJobResume h mode s
  | .laneReenable h mask => Sys2Proof.Machine.execLaneReenable h mask s
  | .markQueue h lane product addr result count => Sys2Proof.Machine.execMarkQueue h lane product addr result count s
  | .laneLimits h mask mark jump clear accel jerk speed => Sys2Proof.Machine.execLaneLimits h mask mark jump clear accel jerk speed s
  | .laneTrims h mask ofsX ofsY gainX gainY rot => Sys2Proof.Machine.execLaneTrims h mask ofsX ofsY gainX gainY rot s
  | .laneGridLoad h lane set addr => Sys2Proof.Machine.execLaneGridLoad h lane set addr s
  | .mereSaveCfg h base size count => Sys2Proof.Machine.execMereSaveCfg h base size count s
  | .mereSaveNow h tag => Sys2Proof.Machine.execMereSaveNow h tag s
  | .mereFieldSet h mode value addr => Sys2Proof.Machine.execMereFieldSet h mode value addr s
  | .mereCoeff h mask d r kDep assimWeight layerBlend => Sys2Proof.Machine.execMereCoeff h mask d r kDep assimWeight layerBlend s
  | .loopCurveLoad h curve addr => Sys2Proof.Machine.execLoopCurveLoad h curve addr s
  | .proxSepSet h a b dist launch => Sys2Proof.Machine.execProxSepSet h a b dist launch s
  | .proxZoneCtrl h group mask launch => Sys2Proof.Machine.execProxZoneCtrl h group mask launch s
  | .proxPlumeSet h rule dirX dirY len half launch => Sys2Proof.Machine.execProxPlumeSet h rule dirX dirY len half launch s
  | .trigOutSet h out refPtp activeLow toggle fine period start width count => Sys2Proof.Machine.execTrigOutSet h out refPtp activeLow toggle fine period start width count s
  | .trigOutStop h mask time => Sys2Proof.Machine.execTrigOutStop h mask time s
  | .trigInCfg h input edge filter enc => Sys2Proof.Machine.execTrigInCfg h input edge filter enc s
  | .trigInRing h base size => Sys2Proof.Machine.execTrigInRing h base size s
  | .timeSet h frac ns sec => Sys2Proof.Machine.execTimeSet h frac ns sec s
  | .ppsOutCfg h mode width => Sys2Proof.Machine.execPpsOutCfg h mode width s
  | .axisMove h axis relative refPtp target speed accel jerk launch => Sys2Proof.Machine.execAxisMove h axis relative refPtp target speed accel jerk launch s
  | .axisLimits h mask clear speed accel jerk => Sys2Proof.Machine.execAxisLimits h mask clear speed accel jerk s
  | .axisStop h mask emergency => Sys2Proof.Machine.execAxisStop h mask emergency s
  | .axisEnable h mask values => Sys2Proof.Machine.execAxisEnable h mask values s
  | .axisHome h axis down source chan speed pos limit => Sys2Proof.Machine.execAxisHome h axis down source chan speed pos limit s
  | .axisSetPos h axis pos => Sys2Proof.Machine.execAxisSetPos h axis pos s
  | .encPreset h mask ext => Sys2Proof.Machine.execEncPreset h mask ext s
  | .cmpSet h cmp enable reverse enc pitch c width => Sys2Proof.Machine.execCmpSet h cmp enable reverse enc pitch c width s
  | .echoSet h out enable enc n m => Sys2Proof.Machine.execEchoSet h out enable enc n m s
  | .faultClear h axisMask encMask hallMask => Sys2Proof.Machine.execFaultClear h axisMask encMask hallMask s
  | .camStream h port run => Sys2Proof.Machine.execCamStream h port run s
  | .camExpWrite h port len start mode count addr => Sys2Proof.Machine.execCamExpWrite h port len start mode count addr s
  | .camExpCommit h port launch => Sys2Proof.Machine.execCamExpCommit h port launch s
  | .camTrigger h mask launch => Sys2Proof.Machine.execCamTrigger h mask launch s
  | .camCci h port write wide reg value => Sys2Proof.Machine.execCamCci h port write wide reg value s
  | .camRing h port base size slots => Sys2Proof.Machine.execCamRing h port base size slots s
  | .ledSet h mask iSet duty launch => Sys2Proof.Machine.execLedSet h mask iSet duty launch s
  | .ledMatrixWrite h addr => Sys2Proof.Machine.execLedMatrixWrite h addr s
  | .ledFaultClear h mask segments => Sys2Proof.Machine.execLedFaultClear h mask segments s
  | .colorTarget h channel target => Sys2Proof.Machine.execColorTarget h channel target s
  | .zipEncode h channel kind format flags width addr len out size => Sys2Proof.Machine.execZipEncode h channel kind format flags width addr len out size s
  | .zipOpen h channel kind format flags width out size => Sys2Proof.Machine.execZipOpen h channel kind format flags width out size s
  | .zipFeed h channel flags addr len => Sys2Proof.Machine.execZipFeed h channel flags addr len s
  | .zipFlush h channel => Sys2Proof.Machine.execZipFlush h channel s
  | .zipDecode h channel flags addr len out limit => Sys2Proof.Machine.execZipDecode h channel flags addr len out limit s
  | .composeScene h scene addr => Sys2Proof.Machine.execComposeScene h scene addr s
  | .composeRun h scene launch => Sys2Proof.Machine.execComposeRun h scene launch s
  | .composeStop h scene => Sys2Proof.Machine.execComposeStop h scene s
  | .composeLayer h scene layer visible alpha dstX dstY addr => Sys2Proof.Machine.execComposeLayer h scene layer visible alpha dstX dstY addr s
  | .displaySet h scene => Sys2Proof.Machine.execDisplaySet h scene s
  | .basinCopy h chan src dst len => Sys2Proof.Machine.execBasinCopy h chan src dst len s
  | .basinFill h chan pattern dst len => Sys2Proof.Machine.execBasinFill h chan pattern dst len s
  | .basinRetain h mask => Sys2Proof.Machine.execBasinRetain h mask s
  | .calRequest h kind immediate mask => Sys2Proof.Machine.execCalRequest h kind immediate mask s
  | .calCancel h kind mask => Sys2Proof.Machine.execCalCancel h kind mask s
  | .hkThrottleFloor h level => Sys2Proof.Machine.execHkThrottleFloor h level s
  | .recRecordNow h => Sys2Proof.Machine.execRecRecordNow h s
  | .recChallenge h => Sys2Proof.Machine.execRecChallenge h s
  | .recClear h token => Sys2Proof.Machine.execRecClear h token s
  | .recProvision h addr => Sys2Proof.Machine.execRecProvision h addr s
  | .splIoWrite h node entries applyAt => Sys2Proof.Machine.execSplIoWrite h node entries applyAt s
  | .splIoRead h node first count addr => Sys2Proof.Machine.execSplIoRead h node first count addr s
  | .splObjRead h node index offset count addr => Sys2Proof.Machine.execSplObjRead h node index offset count addr s
  | .splObjWrite h node index offset count addr => Sys2Proof.Machine.execSplObjWrite h node index offset count addr s
  | .splRescan h mask => Sys2Proof.Machine.execSplRescan h mask s
  | .splNodeReset h node => Sys2Proof.Machine.execSplNodeReset h node s
  | .splIoRing h base size => Sys2Proof.Machine.execSplIoRing h base size s
  | .bootGo => Sys2Proof.Machine.execBootGo s
  | .bootClear => Sys2Proof.Machine.execBootClear s
  | .profileWrite => Sys2Proof.Machine.execProfileWrite s
  | .profileWriteDone t result => Sys2Proof.Machine.execProfileWriteDone t result s
  | .profileReload => Sys2Proof.Machine.execProfileReload s
  | .moduleResetCmd key => Sys2Proof.Machine.execModuleResetCmd key s
  | .firmwareResetCmd key => Sys2Proof.Machine.execFirmwareResetCmd key s
  | .blockResetCmd key => Sys2Proof.Machine.execBlockResetCmd key s
  | .standbyCmd key => Sys2Proof.Machine.execStandbyCmd key s
  | .hibernateCmd key => Sys2Proof.Machine.execHibernateCmd key s
  | .doorbell ring tail => Sys2Proof.Machine.execDoorbell ring tail s
  | .cmdRingEnable ring value => Sys2Proof.Machine.execCmdRingEnable ring value s
  | .cqEnable cq value => Sys2Proof.Machine.execCqEnable cq value s
  | .cqHeadWrite cq value => Sys2Proof.Machine.execCqHeadWrite cq value s
  | .eventHeadWrite value => Sys2Proof.Machine.execEventHeadWrite value s
  | .notifyClear hi value => Sys2Proof.Machine.execNotifyClear hi value s
  | .recCursorWrite value => Sys2Proof.Machine.execRecCursorWrite value s
  | .recWindowRead word => Sys2Proof.Machine.execRecWindowRead word s
  | .readClear off len => Sys2Proof.Machine.execReadClear off len s
  | .splitReadLatch off len => Sys2Proof.Machine.execSplitReadLatch off len s
  | .registerWrite off len value => Sys2Proof.Machine.execRegisterWrite off len value s
  | .bar2Access off len data => Sys2Proof.Machine.execBar2Access off len data s
  | .regRead q => Sys2Proof.Machine.execRegRead q s
  | .regWrite q => Sys2Proof.Machine.execRegWrite q s
  | .memRead q => Sys2Proof.Machine.execMemRead q s
  | .memWrite q => Sys2Proof.Machine.execMemWrite q s
  | .attach q => Sys2Proof.Machine.execAttach q s
  | .detach q => Sys2Proof.Machine.execDetach q s
  | .notify t => Sys2Proof.Machine.execNotify t s
  | .bootHello q => Sys2Proof.Machine.execBootHello q s
  | .bootData t q => Sys2Proof.Machine.execBootData t q s
  | .bootGoFrame t q => Sys2Proof.Machine.execBootGoFrame t q s
  | .bootStatus q => Sys2Proof.Machine.execBootStatus q s
  | .bootSessionIdle t => Sys2Proof.Machine.execBootSessionIdle t s
  | .descriptorFetch t => Sys2Proof.Machine.execDescriptorFetch t s
  | .completionCollect t => Sys2Proof.Machine.execCompletionCollect t s
  | .intTimeExpire t cq => Sys2Proof.Machine.execIntTimeExpire t cq s
  | .cqStalled t ring => Sys2Proof.Machine.execCqStalled t ring s
  | .hostLost t => Sys2Proof.Machine.execHostLost t s
  | .pcieLinkDown t => Sys2Proof.Machine.execPcieLinkDown t s
  | .pcieLinkUp t speed width => Sys2Proof.Machine.execPcieLinkUp t speed width s
  | .perstLow t => Sys2Proof.Machine.execPerstLow t s
  | .perstRise t => Sys2Proof.Machine.execPerstRise t s
  | .snapshotPublish t => Sys2Proof.Machine.execSnapshotPublish t s
  | .rippleFire t => Sys2Proof.Machine.execRippleFire t s
  | .rippleCancel t n miss => Sys2Proof.Machine.execRippleCancel t n miss s
  | .jobTor t => Sys2Proof.Machine.execJobTor t s
  | .stageEnd t => Sys2Proof.Machine.execStageEnd t s
  | .layerValidationDone t => Sys2Proof.Machine.execLayerValidationDone t s
  | .armCheck t => Sys2Proof.Machine.execArmCheck t s
  | .exposeEnd t => Sys2Proof.Machine.execExposeEnd t s
  | .layerCompletion t => Sys2Proof.Machine.execLayerCompletion t s
  | .beamPermitLow t inputB => Sys2Proof.Machine.execBeamPermitLow t inputB s
  | .permitRestored t => Sys2Proof.Machine.execPermitRestored t s
  | .permitDisagree t a b => Sys2Proof.Machine.execPermitDisagree t a b s
  | .stagePlanReceive t sender seq entries => Sys2Proof.Machine.execStagePlanReceive t sender seq entries s
  | .stageReportReceive t sender ack state cause flags mode layer => Sys2Proof.Machine.execStageReportReceive t sender ack state cause flags mode layer s
  | .memberArmCheck t => Sys2Proof.Machine.execMemberArmCheck t s
  | .stagePlanResend t => Sys2Proof.Machine.execStagePlanResend t s
  | .helloSend t => Sys2Proof.Machine.execHelloSend t s
  | .helloReceive t q => Sys2Proof.Machine.execHelloReceive t q s
  | .memberLost t member => Sys2Proof.Machine.execMemberLost t member s
  | .leaderElectionTimer t => Sys2Proof.Machine.execLeaderElectionTimer t s
  | .leaderReceive t q => Sys2Proof.Machine.execLeaderReceive t q s
  | .markStart t lane => Sys2Proof.Machine.execMarkStart t lane s
  | .markRecordWrite t => Sys2Proof.Machine.execMarkRecordWrite t s
  | .fetchBurst t lane => Sys2Proof.Machine.execFetchBurst t lane s
  | .planningPass t lane => Sys2Proof.Machine.execPlanningPass t lane s
  | .verdictRequest t lane => Sys2Proof.Machine.execVerdictRequest t lane s
  | .verdictDeadline t lane => Sys2Proof.Machine.execVerdictDeadline t lane s
  | .laneEnd t lane => Sys2Proof.Machine.execLaneEnd t lane s
  | .resultWrite t lane => Sys2Proof.Machine.execResultWrite t lane s
  | .syncTimeout t id => Sys2Proof.Machine.execSyncTimeout t id s
  | .followingError t lane => Sys2Proof.Machine.execFollowingError t lane s
  | .blendComplete t lane => Sys2Proof.Machine.execBlendComplete t lane s
  | .guardTick t => Sys2Proof.Machine.execGuardTick t s
  | .deadlockBreak t => Sys2Proof.Machine.execDeadlockBreak t s
  | .proxLongHold t lane => Sys2Proof.Machine.execProxLongHold t lane s
  | .peerSummarySend t => Sys2Proof.Machine.execPeerSummarySend t s
  | .peerSummaryReceive t m => Sys2Proof.Machine.execPeerSummaryReceive t m s
  | .syncReportReceive t member x entries => Sys2Proof.Machine.execSyncReportReceive t member x entries s
  | .peerSilent t member => Sys2Proof.Machine.execPeerSilent t member s
  | .ffRead t lane => Sys2Proof.Machine.execFfRead t lane s
  | .depReport t lane => Sys2Proof.Machine.execDepReport t lane s
  | .mereStep t => Sys2Proof.Machine.execMereStep t s
  | .mereSaved t => Sys2Proof.Machine.execMereSaved t s
  | .mereViewCopy t => Sys2Proof.Machine.execMereViewCopy t s
  | .ptpSyncReceive t m => Sys2Proof.Machine.execPtpSyncReceive t m s
  | .ptpAnnounceReceive t a => Sys2Proof.Machine.execPtpAnnounceReceive t a s
  | .ptpDelayMessage t m => Sys2Proof.Machine.execPtpDelayMessage t m s
  | .ptpManagement t port m => Sys2Proof.Machine.execPtpManagement t port m s
  | .ptpSyncSend t => Sys2Proof.Machine.execPtpSyncSend t s
  | .tcFrameForward t f => Sys2Proof.Machine.execTcFrameForward t f s
  | .sourceLost t announce => Sys2Proof.Machine.execSourceLost t announce s
  | .timeQualityUpdate t => Sys2Proof.Machine.execTimeQualityUpdate t s
  | .ppsInEdge t width => Sys2Proof.Machine.execPpsInEdge t width s
  | .trigInCapture t input rising width => Sys2Proof.Machine.execTrigInCapture t input rising width s
  | .trigOutEdge t out => Sys2Proof.Machine.execTrigOutEdge t out s
  | .ppsOutEdge t => Sys2Proof.Machine.execPpsOutEdge t s
  | .splCycle t port start => Sys2Proof.Machine.execSplCycle t port start s
  | .fbUnitReceive t port src cycle crc pdA pdB mirrorX mirrorY status => Sys2Proof.Machine.execFbUnitReceive t port src cycle crc pdA pdB mirrorX mirrorY status s
  | .nodeUnitReceive t port src cycle crc status inputs => Sys2Proof.Machine.execNodeUnitReceive t port src cycle crc status inputs s
  | .serviceFrameReceive t port hop bytes => Sys2Proof.Machine.execServiceFrameReceive t port hop bytes s
  | .serviceRetry t seq => Sys2Proof.Machine.execServiceRetry t seq s
  | .serviceTimeout t seq => Sys2Proof.Machine.execServiceTimeout t seq s
  | .echoReceive t port hop seq crc rtt => Sys2Proof.Machine.execEchoReceive t port hop seq crc rtt s
  | .delayMeasure t port => Sys2Proof.Machine.execDelayMeasure t port s
  | .enumeration t port => Sys2Proof.Machine.execEnumeration t port s
  | .splLinkUp t port => Sys2Proof.Machine.execSplLinkUp t port s
  | .splLinkDown t port => Sys2Proof.Machine.execSplLinkDown t port s
  | .linkdnReceive t port hop reason => Sys2Proof.Machine.execLinkdnReceive t port hop reason s
  | .nodeSilence t port hop => Sys2Proof.Machine.execNodeSilence t port hop s
  | .splHiBer t port hop => Sys2Proof.Machine.execSplHiBer t port hop s
  | .vinRise t => Sys2Proof.Machine.execVinRise t s
  | .vinFall t below6 => Sys2Proof.Machine.execVinFall t below6 s
  | .resetNLow t => Sys2Proof.Machine.execResetNLow t s
  | .refclkLost t => Sys2Proof.Machine.execRefclkLost t s
  | .dramTrainDone t ok => Sys2Proof.Machine.execDramTrainDone t ok s
  | .ethSpeedTry t lock => Sys2Proof.Machine.execEthSpeedTry t lock s
  | .imageVerifyDone t => Sys2Proof.Machine.execImageVerifyDone t s
  | .coreStartTimeout t => Sys2Proof.Machine.execCoreStartTimeout t s
  | .firmwareAlive t => Sys2Proof.Machine.execFirmwareAlive t s
  | .profileReadDone t => Sys2Proof.Machine.execProfileReadDone t s
  | .partnerWaitEnd t => Sys2Proof.Machine.execPartnerWaitEnd t s
  | .readyLocal t => Sys2Proof.Machine.execReadyLocal t s
  | .fwWatchdog t => Sys2Proof.Machine.execFwWatchdog t s
  | .wakeFrame t => Sys2Proof.Machine.execWakeFrame t s
  | .hibWake t high => Sys2Proof.Machine.execHibWake t high s
  | .inputCycling t => Sys2Proof.Machine.execInputCycling t s
  | .hibReqN t lowMs => Sys2Proof.Machine.execHibReqN t lowMs s
  | .powerEntryDone t => Sys2Proof.Machine.execPowerEntryDone t s
  | .hkRound t reads => Sys2Proof.Machine.execHkRound t reads s
  | .throttleTimer t => Sys2Proof.Machine.execThrottleTimer t s
  | .dieOff t => Sys2Proof.Machine.execDieOff t s
  | .calRunDone t kind results pairs => Sys2Proof.Machine.execCalRunDone t kind results pairs s
  | .calOverdue t kind unit => Sys2Proof.Machine.execCalOverdue t kind unit s
  | .darkGatherTimeout t lane => Sys2Proof.Machine.execDarkGatherTimeout t lane s
  | .refreshDue t channel hot => Sys2Proof.Machine.execRefreshDue t channel hot s
  | .selfRefreshEntry t aborted => Sys2Proof.Machine.execSelfRefreshEntry t aborted s
  | .panicChange t port enter => Sys2Proof.Machine.execPanicChange t port enter s
  | .basinPanicLong t port => Sys2Proof.Machine.execBasinPanicLong t port s
  | .scrubPass t ce ue => Sys2Proof.Machine.execScrubPass t ce ue s
  | .cameraFs t port vc => Sys2Proof.Machine.execCameraFs t port vc s
  | .cameraLine t port vc dt hdr crcBad lost pixels => Sys2Proof.Machine.execCameraLine t port vc dt hdr crcBad lost pixels s
  | .cameraFe t port vc => Sys2Proof.Machine.execCameraFe t port vc s
  | .lineTimeout t port => Sys2Proof.Machine.execLineTimeout t port s
  | .camNoFrame t port => Sys2Proof.Machine.execCamNoFrame t port s
  | .capturePlanTrigger t => Sys2Proof.Machine.execCapturePlanTrigger t s
  | .statsComplete t port => Sys2Proof.Machine.execStatsComplete t port s
  | .framePublish t port => Sys2Proof.Machine.execFramePublish t port s
  | .cciWriteDone t port ok entry value => Sys2Proof.Machine.execCciWriteDone t port ok entry value s
  | .ledPeriod t channel iMeas vMeas => Sys2Proof.Machine.execLedPeriod t channel iMeas vMeas s
  | .ledFaultDetect t channel short row => Sys2Proof.Machine.execLedFaultDetect t channel short row s
  | .diagPulse t channel => Sys2Proof.Machine.execDiagPulse t channel s
  | .colorRead t reads => Sys2Proof.Machine.execColorRead t reads s
  | .matrixSlot t => Sys2Proof.Machine.execMatrixSlot t s
  | .matrixSync t => Sys2Proof.Machine.execMatrixSync t s
  | .zipBlockDone t engine => Sys2Proof.Machine.execZipBlockDone t engine s
  | .composeStart t scene => Sys2Proof.Machine.execComposeStart t scene s
  | .composeDone t scene => Sys2Proof.Machine.execComposeDone t scene s
  | .cacheRebuild t scene => Sys2Proof.Machine.execCacheRebuild t scene s
  | .edpHpd t kind maxLanes maxRate trains lost => Sys2Proof.Machine.execEdpHpd t kind maxLanes maxRate trains lost s
  | .edpFrameStart t => Sys2Proof.Machine.execEdpFrameStart t s
  | .axisMoveStart t axis => Sys2Proof.Machine.execAxisMoveStart t axis s
  | .axisStep t axis => Sys2Proof.Machine.execAxisStep t axis s
  | .axisFollowingFault t axis => Sys2Proof.Machine.execAxisFollowingFault t axis s
  | .scriptEntryStart t entry => Sys2Proof.Machine.execScriptEntryStart t entry s
  | .encEdge t chan edge => Sys2Proof.Machine.execEncEdge t chan edge s
  | .encWireFault t chan pair bad => Sys2Proof.Machine.execEncWireFault t chan pair bad s
  | .ssiRead t chan raw lineLow => Sys2Proof.Machine.execSsiRead t chan raw lineLow s
  | .encStall t chan => Sys2Proof.Machine.execEncStall t chan s
  | .encWindowEnd t chan => Sys2Proof.Machine.execEncWindowEnd t chan s
  | .hallChange t group code => Sys2Proof.Machine.execHallChange t group code s
  | .recSecond t => Sys2Proof.Machine.execRecSecond t s
  | .recMinute t => Sys2Proof.Machine.execRecMinute t s
  | .recWriteDone t => Sys2Proof.Machine.execRecWriteDone t s
  | .recWriteTimeout t => Sys2Proof.Machine.execRecWriteTimeout t s
  | .nonceExpire t => Sys2Proof.Machine.execNonceExpire t s
  | .accessTimeout t off read => Sys2Proof.Machine.execAccessTimeout t off read s
  | .xingResync t unit dropped => Sys2Proof.Machine.execXingResync t unit dropped s
  | .resetNRise t => Sys2Proof.Machine.execResetNRise t s
  | .refclkRestored t outUs => Sys2Proof.Machine.execRefclkRestored t outUs s
  | .wakeSourcesArmed t => Sys2Proof.Machine.execWakeSourcesArmed t s
  | .stageReportSend t => Sys2Proof.Machine.execStageReportSend t s
  | .ptpAnnounceSend t => Sys2Proof.Machine.execPtpAnnounceSend t s
  | .ptpDelayReqSend t => Sys2Proof.Machine.execPtpDelayReqSend t s
  | .exposureWindowEdge t port => Sys2Proof.Machine.execExposureWindowEdge t port s
  | .pipelineThrottleDeadline t => Sys2Proof.Machine.execPipelineThrottleDeadline t s
  | .arpRequest t ip => Sys2Proof.Machine.execArpRequest t ip s

end Sys2Proof.Machine
end

