-- ==== Sys2Proof/Safety.lean ====
section
/-! DEFINITION. The terms in which the statements speak of states: when a descriptor may start, the record it ends with, and the
invariants. -/

namespace Sys2Proof.Machine

/-- A descriptor may start at once: fewer than 512 are outstanding (R22), a profile is in force (R343), and no descriptor bears its
name. -/
structure Ready (h : Hdr) (s : State) : Prop where
  room : s.hostq.outstanding.length < 512
  inForce : profileInForce s = true
  fresh : ticket s h.ref = none

/-- The completion record of a descriptor whose chapter names no context, that ends now (R302, R306). -/
def endRecord (tk : Ticket) (st detail data : Nat) (s : State) : Finished :=
  { tk := tk, status := BitVec.ofNat 8 st, late := false, time := s.now, ctx := hostCtx tk.hdr.ring
    detail := BitVec.ofNat 32 detail, data := BitVec.ofNat 64 data }

end Sys2Proof.Machine
end

