-- ==== Sys2Proof/WellFormed.lean ====
section
/-! DEFINITION. Well-formed commands: every operand lies in the field that carries it, and every unit number names a place of the
module's map. A number beyond the variant's units is well formed: the rules say what happens to it (R3). -/

namespace Sys2Proof

open Machine

/-- A number fits an unsigned field of `n` bytes. -/
def fitsU (n v : Nat) : Bool := decide (v < 2 ^ (8 * n))

/-- A number fits a two's complement field of `n` bytes. -/
def fitsS (n : Nat) (v : Int) : Bool := decide (-((2 ^ (8 * n - 1) : Nat) : Int) ≤ v) && decide (v < ((2 ^ (8 * n - 1) : Nat) : Int))

/-- A descriptor stands in one of the 64 command rings, at a position of at most 4,096 (R298). -/
def Machine.Hdr.wf (h : Hdr) : Bool := decide (h.ring < 64) && decide (h.index < 4096)

/-- A management request whose fields fit (R286). -/
def Machine.MgmtReq.wf (q : MgmtReq) : Bool :=
  fitsU 16 q.src && fitsU 2 q.magic && fitsU 1 q.version && fitsU 2 q.seq && fitsU 8 q.address && fitsU 2 q.count && fitsU 4 q.crc

/-- A HELLO whose fields fit (R348). -/
def Machine.Hello.wf (q : Hello) : Bool :=
  decide (q.member < 8) && decide (q.moduleId < 1024) && fitsU 1 q.state && fitsU 1 q.prio && fitsU 2 q.leaderId && fitsU 4 q.machineId
    && fitsU 8 q.serial && fitsU 4 q.term && fitsU 1 q.jobState && fitsU 4 q.jobId

/-- A LEADER whose fields fit (R348). -/
def Machine.LeaderMsg.wf (q : LeaderMsg) : Bool :=
  decide (q.member < 8) && decide (q.moduleId < 1024) && fitsU 4 q.term && fitsU 1 q.mask

/-- The entries of SPL_IO_WRITE: at most 4, each a point and a value (R278). -/
def ioWf (es : List (Nat × Nat)) : Bool := decide (es.length ≤ 4) && es.all fun e => fitsU 2 e.1 && fitsU 4 e.2

/-- A well-formed command. -/
def Instr.wf (i : Instr) : Bool :=
  match i with
  | .nop h => h.wf
  | .fence h _ _ => h.wf
  | .snapshotNow h => h.wf
  | .cfgStage h set count list => h.wf && fitsU 1 set && fitsU 2 count && fitsU 8 list
  | .cfgCommit h _ _ launch => h.wf && fitsU 8 launch
  | .heartbeat h => h.wf
  | .cfgAbort h _ => h.wf
  | .snapshotCfg h _ _ base period => h.wf && fitsU 8 base && fitsU 4 period
  | .eventRing h base size => h.wf && fitsU 8 base && fitsU 4 size
  | .eventRoute h _ _ vec => h.wf && fitsU 1 vec
  | .jobStart h addr => h.wf && fitsU 8 addr
  | .jobEnd h mode => h.wf && fitsU 1 mode
  | .layerQueue h addr => h.wf && fitsU 8 addr
  | .layerCancel h fromIndex => h.wf && fitsU 4 fromIndex
  | .jobHold h => h.wf
  | .jobResume h mode => h.wf && fitsU 1 mode
  | .laneReenable h _ => h.wf
  | .markQueue h lane product addr result count => h.wf && fitsU 1 lane && fitsU 4 product && fitsU 8 addr && fitsU 8 result && fitsU 4 count
  | .laneLimits h _ _ _ _ accel jerk speed => h.wf && fitsU 4 accel && fitsU 4 jerk && fitsU 4 speed
  | .laneTrims h _ ofsX ofsY gainX gainY rot => h.wf && fitsS 4 ofsX && fitsS 4 ofsY && fitsS 4 gainX && fitsS 4 gainY && fitsS 4 rot
  | .laneGridLoad h lane set addr => h.wf && fitsU 1 lane && fitsU 1 set && fitsU 8 addr
  | .mereSaveCfg h base size count => h.wf && fitsU 8 base && fitsU 4 size && fitsU 2 count
  | .mereSaveNow h tag => h.wf && fitsU 4 tag
  | .mereFieldSet h mode value addr => h.wf && fitsU 1 mode && fitsU 2 value && fitsU 8 addr
  | .mereCoeff h mask d r kDep assimWeight layerBlend => h.wf && decide (mask < 64) && fitsU 4 d && fitsU 4 r && fitsU 4 kDep && fitsU 2 assimWeight && fitsU 2 layerBlend
  | .loopCurveLoad h curve addr => h.wf && fitsU 1 curve && fitsU 8 addr
  | .proxSepSet h a b dist launch => h.wf && fitsU 1 a && fitsU 1 b && fitsU 4 dist && fitsU 8 launch
  | .proxZoneCtrl h group _ launch => h.wf && fitsU 1 group && fitsU 8 launch
  | .proxPlumeSet h rule dirX dirY len half launch => h.wf && fitsU 1 rule && fitsS 2 dirX && fitsS 2 dirY && fitsU 4 len && fitsU 4 half && fitsU 8 launch
  | .trigOutSet h out _ _ _ fine period start width count => h.wf && fitsU 1 out && fitsU 1 fine && fitsU 4 period && fitsU 8 start && fitsU 4 width && fitsU 4 count
  | .trigOutStop h _ time => h.wf && fitsU 8 time
  | .trigInCfg h input edge filter enc => h.wf && fitsU 1 input && fitsU 1 edge && fitsU 1 filter && fitsU 1 enc
  | .trigInRing h base size => h.wf && fitsU 8 base && fitsU 4 size
  | .timeSet h frac ns sec => h.wf && fitsU 2 frac && fitsU 4 ns && fitsU 6 sec
  | .ppsOutCfg h mode width => h.wf && fitsU 1 mode && fitsU 4 width
  | .axisMove h axis _ _ target speed accel jerk launch => h.wf && fitsU 1 axis && fitsS 8 target && fitsU 4 speed && fitsU 4 accel && fitsU 4 jerk && fitsU 8 launch
  | .axisLimits h _ _ speed accel jerk => h.wf && fitsU 4 speed && fitsU 4 accel && fitsU 4 jerk
  | .axisStop h _ _ => h.wf
  | .axisEnable h _ _ => h.wf
  | .axisHome h axis _ source chan speed pos limit => h.wf && fitsU 1 axis && decide (source < 4) && fitsU 1 chan && fitsU 4 speed && fitsS 8 pos && fitsU 4 limit
  | .axisSetPos h axis pos => h.wf && fitsU 1 axis && fitsS 8 pos
  | .encPreset h _ ext => h.wf && fitsS 8 ext
  | .cmpSet h cmp _ _ enc pitch c width => h.wf && fitsU 1 cmp && fitsU 1 enc && fitsU 4 pitch && fitsS 8 c && fitsU 2 width
  | .echoSet h out _ enc n m => h.wf && fitsU 1 out && fitsU 1 enc && fitsU 2 n && fitsU 2 m
  | .faultClear h _ _ _ => h.wf
  | .camStream h port _ => h.wf && fitsU 1 port
  | .camExpWrite h port len start mode count addr => h.wf && fitsU 1 port && fitsU 4 len && fitsU 4 start && fitsU 1 mode && fitsU 1 count && fitsU 8 addr
  | .camExpCommit h port launch => h.wf && fitsU 1 port && fitsU 8 launch
  | .camTrigger h mask launch => h.wf && fitsU 1 mask && fitsU 8 launch
  | .camCci h port _ _ reg value => h.wf && fitsU 1 port && fitsU 2 reg && fitsU 2 value
  | .camRing h port base size slots => h.wf && fitsU 1 port && fitsU 8 base && fitsU 4 size && fitsU 2 slots
  | .ledSet h mask iSet duty launch => h.wf && fitsU 2 mask && fitsU 2 iSet && fitsU 2 duty && fitsU 8 launch
  | .ledMatrixWrite h addr => h.wf && fitsU 8 addr
  | .ledFaultClear h mask _ => h.wf && fitsU 2 mask
  | .colorTarget h channel target => h.wf && fitsU 1 channel && fitsU 2 target
  | .zipEncode h channel kind format flags width addr len out size => h.wf && fitsU 1 channel && fitsU 1 kind && fitsU 1 format && fitsU 1 flags && fitsU 2 width && fitsU 8 addr && fitsU 4 len && fitsU 8 out && fitsU 4 size
  | .zipOpen h channel kind format flags width out size => h.wf && fitsU 1 channel && fitsU 1 kind && fitsU 1 format && fitsU 1 flags && fitsU 2 width && fitsU 8 out && fitsU 4 size
  | .zipFeed h channel flags addr len => h.wf && fitsU 1 channel && fitsU 1 flags && fitsU 8 addr && fitsU 4 len
  | .zipFlush h channel => h.wf && fitsU 1 channel
  | .zipDecode h channel flags addr len out limit => h.wf && fitsU 1 channel && fitsU 1 flags && fitsU 8 addr && fitsU 4 len && fitsU 8 out && fitsU 4 limit
  | .composeScene h scene addr => h.wf && fitsU 1 scene && fitsU 8 addr
  | .composeRun h scene launch => h.wf && fitsU 1 scene && fitsU 8 launch
  | .composeStop h scene => h.wf && fitsU 1 scene
  | .composeLayer h scene layer visible alpha dstX dstY addr => h.wf && fitsU 1 scene && fitsU 1 layer && fitsU 1 visible && fitsU 1 alpha && fitsS 2 dstX && fitsS 2 dstY && fitsU 8 addr
  | .displaySet h scene => h.wf && fitsU 1 scene
  | .basinCopy h chan src dst len => h.wf && fitsU 1 chan && fitsU 8 src && fitsU 8 dst && fitsU 4 len
  | .basinFill h chan pattern dst len => h.wf && fitsU 1 chan && fitsU 4 pattern && fitsU 8 dst && fitsU 4 len
  | .basinRetain h _ => h.wf
  | .calRequest h kind _ _ => h.wf && fitsU 1 kind
  | .calCancel h kind _ => h.wf && fitsU 1 kind
  | .hkThrottleFloor h level => h.wf && fitsU 1 level
  | .recRecordNow h => h.wf
  | .recChallenge h => h.wf
  | .recClear h token => h.wf && token.length == 8
  | .recProvision h addr => h.wf && fitsU 8 addr
  | .splIoWrite h node entries applyAt => h.wf && fitsU 4 node && ioWf entries && fitsU 8 applyAt
  | .splIoRead h node first count addr => h.wf && fitsU 4 node && fitsU 1 first && fitsU 1 count && fitsU 8 addr
  | .splObjRead h node index offset count addr => h.wf && fitsU 4 node && fitsU 2 index && fitsU 2 offset && fitsU 2 count && fitsU 8 addr
  | .splObjWrite h node index offset count addr => h.wf && fitsU 4 node && fitsU 2 index && fitsU 2 offset && fitsU 2 count && fitsU 8 addr
  | .splRescan h mask => h.wf && fitsU 4 mask
  | .splNodeReset h node => h.wf && fitsU 4 node
  | .splIoRing h base size => h.wf && fitsU 8 base && fitsU 4 size
  | .bootGo => true
  | .bootClear => true
  | .profileWrite => true
  | .profileWriteDone _ _ => true
  | .profileReload => true
  | .moduleResetCmd _ => true
  | .firmwareResetCmd _ => true
  | .blockResetCmd _ => true
  | .standbyCmd _ => true
  | .hibernateCmd _ => true
  | .doorbell ring tail => decide (ring < 64) && decide (tail < 4096)
  | .cmdRingEnable ring _ => decide (ring < 64)
  | .cqEnable cq _ => decide (cq < 16)
  | .cqHeadWrite cq _ => decide (cq < 16)
  | .eventHeadWrite _ => true
  | .notifyClear _ _ => true
  | .recCursorWrite _ => true
  | .recWindowRead word => decide (word < 64)
  | .readClear off _ => decide (off < 67108864)
  | .splitReadLatch off _ => decide (off < 67108864)
  | .registerWrite off len value => decide (off < 67108864) && decide (value < 2 ^ (8 * len))
  | .bar2Access off _ _ => decide (off < 4294967296)
  | .regRead q => q.wf
  | .regWrite q => q.wf
  | .memRead q => q.wf
  | .memWrite q => q.wf
  | .attach q => q.wf
  | .detach q => q.wf
  | .notify _ => true
  | .bootHello q => q.wf
  | .bootData _ q => q.wf
  | .bootGoFrame _ q => q.wf
  | .bootStatus q => q.wf
  | .bootSessionIdle _ => true
  | .descriptorFetch _ => true
  | .completionCollect _ => true
  | .intTimeExpire _ cq => decide (cq < 16)
  | .cqStalled _ ring => decide (ring < 64)
  | .hostLost _ => true
  | .pcieLinkDown _ => true
  | .pcieLinkUp _ _ _ => true
  | .perstLow _ => true
  | .perstRise _ => true
  | .snapshotPublish _ => true
  | .rippleFire _ => true
  | .rippleCancel _ _ _ => true
  | .jobTor _ => true
  | .stageEnd _ => true
  | .layerValidationDone _ => true
  | .armCheck _ => true
  | .exposeEnd _ => true
  | .layerCompletion _ => true
  | .beamPermitLow _ _ => true
  | .permitRestored _ => true
  | .permitDisagree _ _ _ => true
  | .stagePlanReceive _ sender _ _ => decide (sender < 8)
  | .stageReportReceive _ sender _ state _ _ _ _ => decide (sender < 8) && decide (state < 16)
  | .memberArmCheck _ => true
  | .stagePlanResend _ => true
  | .helloSend _ => true
  | .helloReceive _ q => q.wf
  | .memberLost _ member => decide (member < 8)
  | .leaderElectionTimer _ => true
  | .leaderReceive _ q => q.wf
  | .markStart _ lane => decide (lane < 128)
  | .markRecordWrite _ => true
  | .fetchBurst _ lane => decide (lane < 128)
  | .planningPass _ lane => decide (lane < 128)
  | .verdictRequest _ lane => decide (lane < 128)
  | .verdictDeadline _ lane => decide (lane < 128)
  | .laneEnd _ lane => decide (lane < 128)
  | .resultWrite _ lane => decide (lane < 128)
  | .syncTimeout _ id => fitsU 2 id
  | .followingError _ lane => decide (lane < 128)
  | .blendComplete _ lane => decide (lane < 128)
  | .guardTick _ => true
  | .deadlockBreak _ => true
  | .proxLongHold _ lane => decide (lane < 128)
  | .peerSummarySend _ => true
  | .peerSummaryReceive _ _ => true
  | .syncReportReceive _ member _ _ => decide (member < 8)
  | .peerSilent _ member => decide (member < 8)
  | .ffRead _ lane => decide (lane < 128)
  | .depReport _ lane => decide (lane < 128)
  | .mereStep _ => true
  | .mereSaved _ => true
  | .mereViewCopy _ => true
  | .ptpSyncReceive _ _ => true
  | .ptpAnnounceReceive _ _ => true
  | .ptpDelayMessage _ _ => true
  | .ptpManagement _ port _ => decide (port < 4)
  | .ptpSyncSend _ => true
  | .tcFrameForward _ _ => true
  | .sourceLost _ _ => true
  | .timeQualityUpdate _ => true
  | .ppsInEdge _ _ => true
  | .trigInCapture _ input _ _ => decide (input < 9)
  | .trigOutEdge _ out => decide (out < 16)
  | .ppsOutEdge _ => true
  | .splCycle _ port _ => decide (port < 32)
  | .fbUnitReceive _ port src cycle crc pdA pdB mirrorX mirrorY status => decide (port < 32) && fitsU 1 src && fitsU 1 cycle && fitsU 1 crc && fitsU 2 pdA && fitsU 2 pdB && fitsS 3 mirrorX && fitsS 3 mirrorY && fitsU 2 status
  | .nodeUnitReceive _ port src cycle crc status inputs => decide (port < 32) && fitsU 1 src && fitsU 1 cycle && fitsU 1 crc && fitsU 4 status && fitsU 8 inputs
  | .serviceFrameReceive _ port hop _ => decide (port < 32) && decide (hop ≤ 16)
  | .serviceRetry _ _ => true
  | .serviceTimeout _ _ => true
  | .echoReceive _ port hop seq crc _ => decide (port < 32) && decide (1 ≤ hop) && decide (hop ≤ 16) && fitsU 1 seq && fitsU 1 crc
  | .delayMeasure _ port => decide (port < 32)
  | .enumeration _ port => decide (port < 32)
  | .splLinkUp _ port => decide (port < 32)
  | .splLinkDown _ port => decide (port < 32)
  | .linkdnReceive _ port hop reason => decide (port < 32) && fitsU 1 reason.type && decide (1 ≤ hop) && decide (hop ≤ 16)
  | .nodeSilence _ port hop => decide (port < 32) && decide (1 ≤ hop) && decide (hop ≤ 16)
  | .splHiBer _ port hop => decide (port < 32) && decide (1 ≤ hop) && decide (hop ≤ 16)
  | .vinRise _ => true
  | .vinFall _ _ => true
  | .resetNLow _ => true
  | .refclkLost _ => true
  | .dramTrainDone _ _ => true
  | .ethSpeedTry _ _ => true
  | .imageVerifyDone _ => true
  | .coreStartTimeout _ => true
  | .firmwareAlive _ => true
  | .profileReadDone _ => true
  | .partnerWaitEnd _ => true
  | .readyLocal _ => true
  | .fwWatchdog _ => true
  | .wakeFrame _ => true
  | .hibWake _ _ => true
  | .inputCycling _ => true
  | .hibReqN _ _ => true
  | .powerEntryDone _ => true
  | .hkRound _ reads => decide (46 ≤ reads.length)
  | .throttleTimer _ => true
  | .dieOff _ => true
  | .calRunDone _ kind _ _ => decide (kind < 7)
  | .calOverdue _ kind _ => decide (kind < 7)
  | .darkGatherTimeout _ lane => decide (lane < 128)
  | .refreshDue _ channel _ => decide (channel < 4)
  | .selfRefreshEntry _ _ => true
  | .panicChange _ port _ => decide (port < 25)
  | .basinPanicLong _ port => decide (port < 25)
  | .scrubPass _ _ _ => true
  | .cameraFs _ port vc => decide (port < 8) && decide (vc < 4)
  | .cameraLine _ port vc dt _ _ _ pixels => decide (port < 8) && decide (vc < 4) && decide (dt < 64) && (pixels.all fun p => decide (p < 65536))
  | .cameraFe _ port vc => decide (port < 8) && decide (vc < 4)
  | .lineTimeout _ port => decide (port < 8)
  | .camNoFrame _ port => decide (port < 8)
  | .capturePlanTrigger _ => true
  | .statsComplete _ port => decide (port < 8)
  | .framePublish _ port => decide (port < 8)
  | .cciWriteDone _ port _ entry value => decide (port < 8) && decide (entry < 16) && fitsU 2 value
  | .ledPeriod _ channel _ _ => decide (channel < 16)
  | .ledFaultDetect _ channel _ _ => decide (channel < 16)
  | .diagPulse _ channel => decide (channel < 16)
  | .colorRead _ _ => true
  | .matrixSlot _ => true
  | .matrixSync _ => true
  | .zipBlockDone _ engine => decide (engine < 4)
  | .composeStart _ scene => decide (scene < 4)
  | .composeDone _ scene => decide (scene < 4)
  | .cacheRebuild _ scene => decide (scene < 4)
  | .edpHpd _ _ _ _ _ _ => true
  | .edpFrameStart _ => true
  | .axisMoveStart _ axis => decide (axis < 16)
  | .axisStep _ axis => decide (axis < 16)
  | .axisFollowingFault _ axis => decide (axis < 16)
  | .scriptEntryStart _ entry => decide (entry < 16)
  | .encEdge _ chan _ => decide (chan < 16)
  | .encWireFault _ chan pair _ => decide (chan < 16) && decide (pair < 3)
  | .ssiRead _ chan _ _ => decide (chan < 16)
  | .encStall _ chan => decide (chan < 16)
  | .encWindowEnd _ chan => decide (chan < 16)
  | .hallChange _ group code => decide (group < 8) && decide (code < 8)
  | .recSecond _ => true
  | .recMinute _ => true
  | .recWriteDone _ => true
  | .recWriteTimeout _ => true
  | .nonceExpire _ => true
  | .accessTimeout _ off _ => decide (off < 67108864)
  | .xingResync _ _ _ => true
  | .resetNRise _ => true
  | .refclkRestored _ _ => true
  | .wakeSourcesArmed _ => true
  | .stageReportSend _ => true
  | .ptpAnnounceSend _ => true
  | .ptpDelayReqSend _ => true
  | .exposureWindowEdge _ port => decide (port < 8)
  | .pipelineThrottleDeadline _ => true
  | .arpRequest _ ip => fitsU 4 ip

end Sys2Proof
end

