-- ==== Sys2Proof/Certificates/Slice0/Obligations.lean ====
section
/-! DEFINITION. The statements about the module. -/

open Sys2Proof Sys2Proof.Machine

/-- For a descriptor that may start. With no job, JOB_END, JOB_HOLD, LAYER_QUEUE, LAYER_CANCEL, LANE_REENABLE and MARK_QUEUE end with
REJECTED_STATE and do nothing, as does JOB_RESUME outside HELD. JOB_START with a valid header that nothing bars gives the job registers the
new job's values and sets every other field of the job anew (the job state becomes WAIT_START); a BUILD job then waits for its first layer,
and an IMMEDIATE LINE job without shared zones gets TOR at the next whole ms at least 1 ms ahead and ends with DONE. With a job it is
REJECTED_STATE. JOB_HOLD while HELD is DONE (log 110); in EXPOSE, or in a stage whose end is ahead, it is noted; in STARVED it enters HELD;
in every state it takes hold where nothing has to end first. JOB_END AFTER_LAYER in EXPOSE or POST_IMAGE is noted for the end of the layer,
in LINE_RUN it enters ENDING, and in ENDING it waits too; in every other state, and NOW always, it ends the job. LAYER_CANCEL ends every
queued layer from its index on with ABORTED_HOST and then ends with DONE and their number in DATA; a range that R36 bars is REJECTED_STATE.
JOB_RESUME with a mode that suits the hold cause is carried out, in a MACHINE_JOB with the machine, and one that does not suit is
REJECTED_PARAM. LANE_REENABLE of lanes of the variant takes them out of the excluded set in a BUILD job, and in a LINE job marks those whose
nodes are present for their next S. (R33, R34, R35, R36, R67, R73, R74, R76, R93) -/
def Obligations.JobDescriptors : Prop :=
  ∀ (h : Hdr) (s : State), Ready h s →
    (s.jobs.state = 0 →
      (∀ m, exec (.jobEnd h m) s = .next (endWith h.ref stState (accept h 0x11 s))) ∧
      (∀ a, exec (.layerQueue h a) s = .next (endWith h.ref stState (accept h 0x12 s))) ∧
      (∀ i, exec (.layerCancel h i) s = .next (endWith h.ref stState (accept h 0x13 s))) ∧
      exec (.jobHold h) s = .next (endWith h.ref stState (accept h 0x14 s)) ∧
      (∀ m, exec (.laneReenable h m) s = .next (endWith h.ref stState (accept h 0x16 s))) ∧
      (s.jobs.header = none →
        ∀ l p a r c, exec (.markQueue h l p a r c) s = .next (endWith h.ref stState (accept h 0x17 s)))) ∧
    (s.jobs.state ≠ 10 → ∀ m, exec (.jobResume h m) s = .next (endWith h.ref stState (accept h 0x15 s))) ∧
    (s.jobs.state ≠ 0 → ∀ a, exec (.jobStart h a) s = .next (endWith h.ref stState (accept h 0x10 s))) ∧
    (∀ (a : Nat), startBarred s = false → a % 64 = 0 → hostMem a 640 s = true → poisonIn a 640 s = none →
      headerOk (memRead a 640 s) s = true →
      let b := readJobHeader (memRead a 640 s)
      foreignJob s b = false →
      let u := calStage { accept h 0x10 s with jobs := { Jobs.reset with
        state := 1, line := b.line, machine := b.machine, jobId := BitVec.ofNat 32 b.jobId, header := some b
        startRef := some h.ref, tor := b.atTime, torShown := b.atTime.getD 0, table := b.psetTable
        lineTrigger := if b.line && 16 ≤ b.trigSource then some (b.trigSource - 16, b.trigEncoder) else none } }
      exec (.jobStart h a) s = .next (tryStart u) ∧
      (b.line = false → exec (.jobStart h a) s = .next u) ∧
      (b.line = true → b.atTime = none → crossZones s = false → exec (.jobStart h a) s =
        .next (endWith h.ref stDone (setJobs (fun j => { j with
          startRef := none, tor := some (alignUp (s.now + 1000000) 1000000), torShown := alignUp (s.now + 1000000) 1000000 }) u)))) ∧
    (s.jobs.state = 10 → exec (.jobHold h) s = .next (endWith h.ref stDone (accept h 0x14 s))) ∧
    (let u : State := { accept h 0x11 s with jobs := { s.jobs with endRefs := s.jobs.endRefs ++ [h.ref] } };
      (∀ m, s.jobs.state ≠ 0 → 1 < m → exec (.jobEnd h m) s = .next (endWith h.ref stParam (accept h 0x11 s))) ∧
      ((s.jobs.state = 2 ∨ s.jobs.state = 3) → exec (.jobEnd h 0) s = .next { u with jobs := { u.jobs with endAsked := true } }) ∧
      (s.jobs.state = 11 → exec (.jobEnd h 0) s = .next (lineSettle { u with jobs := { u.jobs with state := 12 } })) ∧
      (s.jobs.state = 12 → exec (.jobEnd h 0) s = .next u) ∧
      (s.jobs.state ∉ ([0, 2, 3, 11, 12] : List (BitVec 4)) →
        exec (.jobEnd h 0) s = .next (endJob (if s.jobs.line then flushMarks u else u))) ∧
      (s.jobs.state ≠ 0 → exec (.jobEnd h 1) s = .next (endJob (if s.jobs.line then flushMarks (cutMarks u) else u)))) ∧
    (∀ i, s.jobs.state ≠ 0 → s.jobs.line = false →
      (cancelBarred s i = true → exec (.layerCancel h i) s = .next (endWith h.ref stState (accept h 0x13 s))) ∧
      (cancelBarred s i = false →
        let xs := s.jobs.layers.filter fun x => decide (i ≤ x.index)
        exec (.layerCancel h i) s = .next (finish h.ref stDone 0 xs.length (xs.foldl (fun s x =>
          abortLayer stAbHost x (if x.fetched then x.laneList.foldl (fun s l => laneToRest l s) s else s)) (accept h 0x13 s))) ∧
        ((∀ x ∈ s.jobs.layers, x.index < i) → exec (.layerCancel h i) s = .next (finish h.ref stDone 0 0 (accept h 0x13 s))))) ∧
    (∀ m, s.jobs.state = 10 → modeSuits s.jobs.cause.toNat m = false →
      exec (.jobResume h m) s = .next (endWith h.ref stParam (accept h 0x15 s))) ∧
    (∀ m, s.jobs.state = 10 → modeSuits s.jobs.cause.toNat m = true → s.jobs.machine = false →
      exec (.jobResume h m) s = .next (resumeGo { accept h 0x15 s with jobs := { s.jobs with
        resumeRefs := s.jobs.resumeRefs ++ [h.ref], resumeMode := m, resumeOk := true } })) ∧
    (∀ m, s.jobs.state = 10 → modeSuits s.jobs.cause.toNat m = true → s.jobs.machine = true →
      let u : State := { accept h 0x15 s with jobs := { s.jobs with
        resumeRefs := s.jobs.resumeRefs ++ [h.ref], resumeMode := m, resumeOk := true } }
      exec (.jobResume h m) s = .next (if isLeader s then machineResume u else report false false u)) ∧
    (let u : State := { accept h 0x14 s with jobs := { s.jobs with holdAsked := s.jobs.holdAsked ++ [h.ref] } };
      (s.jobs.state ≠ 0 → s.jobs.state ≠ 10 → exec (.jobHold h) s = .next (settleHold u)) ∧
      (s.jobs.state = 2 → s.members.lossHold = false → exec (.jobHold h) s = .next u) ∧
      (∀ e, s.jobs.state ∈ ([3, 5, 6, 7] : List (BitVec 4)) → s.jobs.stageEnd = some e → s.now < e → exec (.jobHold h) s = .next u) ∧
      (s.jobs.state = 4 → exec (.jobHold h) s = .next (enterHeld 5 jsRecoat u))) ∧
    (∀ m, s.jobs.state ≠ 0 → namesFused s m = false →
      (s.jobs.line = false → exec (.laneReenable h m) s = .next (endWith h.ref stDone
        (setJobs (fun j => { j with excluded := j.excluded &&& ~~~m }) (accept h 0x16 s)))) ∧
      (s.jobs.line = true → (∀ l ∈ lanesIn m, (beamNode s l).isSome = true) → exec (.laneReenable h m) s = .next (endWith h.ref stDone
        ((lanesIn m).foldl (fun s l => setLane l (fun x => { x with reenable := true }) s) (accept h 0x16 s)))))

/-- A LAYER_QUEUE in a BUILD job with fewer than 64 queued layers, whose head reads without error in host memory with a valid MAGIC, an
index that R35 takes and a STATUS_ADDR in host memory is taken: with the next new index, no index having failed, it adds its layer at the
end of the queue, not validated and not bound, with its validation due last, and is parked: it keeps its place among the descriptors but no
longer counts as outstanding. A MARK_QUEUE for a product, or for the next unassigned one, whose stream passes its checks adds its mark to
the lane and is parked; a 65th mark of a lane is REJECTED_BUSY. LAYER_VALIDATION_DONE ends the validation that is due first: the layer
passes or fails as its check says. MARK_START of a lane whose next product's count is reached begins the mark that waits in its buffer, or,
with no mark queued, skips it as NO_DATA. With no validation due, or outside LINE_RUN, they change nothing but the time. (R23, R35, R60,
R86, R87) -/
def Obligations.LayersAndMarksAreParked : Prop :=
  ∀ (h : Hdr) (s : State), Ready h s →
    (∀ (a : Nat), s.jobs.state ≠ 0 → s.jobs.line = false → s.jobs.layers.length < 64 → a % 64 = 0 → hostMem a 4160 s = true →
      poisonIn a 64 s = none → s.jobs.failed = [] →
      let x := readHead (memRead a 64 s)
      field (memRead a 64 s) 0 4 = layerMagic → x.index = queueIndex s → x.status % 64 = 0 → hostMem x.status 2048 s = true →
      let y : Layer :=
        { index := x.index, ref := h.ref, addr := a, flags := x.flags, psetTable := x.table, status := x.status, mask := x.mask,
          passed := false, bound := false, fetched := false, lanes := [] }
      ∃ t, exec (.layerQueue h a) s = .next t ∧ t.jobs.layers = s.jobs.layers ++ [y] ∧
        t.jobs.checks = s.jobs.checks ++ [x.index] ∧
        t.hostq.outstanding = s.hostq.outstanding ∧
        t.hostq.parked = s.hostq.parked ++ [{ hdr := h, opcode := 0x12, cq := (cmdRing s h.ring).cq.toNat }] ∧
        t = { s with jobs := t.jobs, hostq := t.hostq }) ∧
    (∀ (a : Nat), s.jobs.state ≠ 0 → s.jobs.line = false → s.jobs.layers.length < 64 → a % 64 = 0 → hostMem a 4160 s = true →
      poisonIn a 64 s = none →
      let x := readHead (memRead a 64 s)
      field (memRead a 64 s) 0 4 = layerMagic → indexOk s x.index = true → x.status % 64 = 0 → hostMem x.status 2048 s = true →
      exec (.layerQueue h a) s = .next (takeLayer h.ref a x (accept h 0x12 s))) ∧
    (∀ (l p a r c : Nat) (j : JobHeader), s.jobs.header = some j → j.line = true → s.jobs.state ≠ 12 → l < s.variant.lanes →
      j.lanes.getLsbD l = true → a % 32 = 0 → 1 ≤ c → c ≤ 16777215 → hostMem a (32 * c) s = true → r % 32 = 0 →
      (c = 1 ∨ hostMem r (32 * (c - 1)) s = true) → overlap (a, 32 * c) (r, 32 * (c - 1)) = false →
      let k := if p = 0xFFFFFFFF then nextUnassigned s l else p
      let sc := scanStream (accept h 0x17 s) { lane := l, line := true, table := j.psetTable, mask := j.lanes, addr := a, count := c }
        (streamBytes s a c)
      (64 ≤ (laneOf s l).marks.length → exec (.markQueue h l p a r c) s = .next (endWith h.ref stBusy (accept h 0x17 s))) ∧
      ((laneOf s l).marks.length < 64 → ((laneOf s l).marks.any fun m => m.product = k) = false →
        (p = 0xFFFFFFFF ∨ (j.first ≤ p ∧ settled s l p = false)) → readPoison a (32 * c) (accept h 0x17 s) = accept h 0x17 s →
        sc.error = none → (∀ y ∈ sc.syncs, ∀ z ∈ markSyncs s k l, y.differs z = false) →
        (s.jobs.startRef = none ∨ j.atTime.isSome ∨ ∀ y ∈ sc.syncs, y.members = 2 ^ s.prof.machine.member) →
        let m : Mark := { ref := h.ref, product := k, addr := a, result := r, count := c, checked := streamBytes s a c }
        exec (.markQueue h l p a r c) s = .next (stageMark l (park h.ref (setLane l (fun x => { x with marks := x.marks ++ [m] })
          (accept h 0x17 s)))))) ∧
    (∀ t, s.jobs.checks = [] → exec (.layerValidationDone t) s = .next (passTo t s)) ∧
    (∀ t i rest x, s.jobs.checks = i :: rest → layerOf s i = some x → s.jobs.startRef = none →
      let u : State := { passTo t s with jobs := { s.jobs with checks := rest } }
      let c := checkLayer u x
      (c.status = stDone → exec (.layerValidationDone t) s = .next (layerPasses c u)) ∧
      (c.status ≠ stDone → exec (.layerValidationDone t) s =
        .next (layerFails x c.status c.errors (if c.status = stEcc then checkPoison x u else u)))) ∧
    (∀ t l p, s.jobs.state = 11 → s.jobs.holdAsked = [] → (jobLanes s).contains l = true → dueProduct (passTo t s) l = some p →
      (laneOf s l).reenable = false → (laneOf s l).state = .idle → (laneOf s l).marking = none → (laneOf s l).marks = [] →
      (beamNode s l).isSome → (laneOf s l).noData = true →
      exec (.markStart t l) s = .next (lineSettle (skipMark l p.k 3 false (passTo t s)))) ∧
    (∀ t l p m, s.jobs.state = 11 → s.jobs.holdAsked = [] → (jobLanes s).contains l = true → dueProduct (passTo t s) l = some p →
      (laneOf s l).reenable = false → (laneOf s l).state = .idle → (laneOf s l).marking = none → (laneOf s l).marks = [m] →
      m.product = p.k → (beamNode s l).isSome → ((laneOf s l).stream.any fun st => st.key = m.product) = true →
      exec (.markStart t l) s = .next (lineSettle (beginMark l p.k (markCount (passTo t s) l p) (passTo t s)))) ∧
    (∀ t l, s.jobs.state ≠ 11 → s.jobs.line = false → exec (.markStart t l) s = .next (passTo t s))

/-- JOB_TOR starts nothing before TOR, and at TOR of a job that is not to be held enters LINE_RUN, or begins the start stages of a BUILD job
whose first layer is ready. STAGE_END of POST_IMAGE, RECOAT, BED_IMAGE or ARM does what follows that stage; before the end of a stage it
changes nothing but the time; the end of SETTLE begins BED_IMAGE in a job of one module with no hold asked; the end of POST_IMAGE of a held
policy enters HELD with its cause before RECOAT. ARM_CHECK at L − T_lead − 1 ms with every lane ARMED and both permits high posts the layer
start, and with a lane that is not ARMED moves L 1 ms later, LAYER_LATE being raised. EXPOSE_END while a lane of the layer is RUNNING or in
HOLD changes nothing. LAYER_COMPLETION completes the layer with DONE where every lane reached END and with DONE_NOTE otherwise. The layer
start itself is posted as the module's own Ripple action at L − T_lead. Completing a queued layer: its 2 KiB status block is written with
STOPPED for the lanes that neither ended, faulted nor were excluded and with each lane's hold, the layer is no longer queued, its index
becomes the highest completed, the parameter-set table goes on to the layer's own where it has NEW_PSET, and its LAYER_QUEUE ends with the
status given, after the block is in Basin. (R25, R26, R27, R31, R63, R64, R71, R72, R35, R56, R58) -/
def Obligations.SequencerStagesAndLayerCompletion : Prop :=
  (∀ (t : Ns) (s : State),
    (∀ tor, s.jobs.tor = some tor → max s.now t < tor → exec (.jobTor t) s = .next (passTo t s)) ∧
    (∀ tor h, s.jobs.tor = some tor → tor ≤ max s.now t → s.jobs.state = 1 → s.jobs.startRef = none → s.jobs.holdAsked = [] →
      s.jobs.machine = false → s.jobs.header = some h → h.line = true →
      exec (.jobTor t) s = .next (lineBegins { passTo t s with jobs := { s.jobs with
        l := tor, nextProduct := h.first, markWritten := h.first } })) ∧
    (∀ tor h, s.jobs.tor = some tor → tor ≤ max s.now t → s.jobs.state = 1 → s.jobs.startRef = none → s.jobs.holdAsked = [] →
      s.jobs.machine = false → s.jobs.header = some h → h.line = false → nextReady s = true →
      exec (.jobTor t) s = .next (startStages (max s.now t) (passTo t s))) ∧
    (∀ e, s.jobs.stageEnd = some e → e ≤ max s.now t →
      (s.jobs.state = 3 → exec (.stageEnd t) s = .next (postEnds (passTo t s))) ∧
      (s.jobs.state = 5 → exec (.stageEnd t) s = .next (recoatEnds e (passTo t s))) ∧
      (s.jobs.state = 7 → exec (.stageEnd t) s = .next (bedEnds (passTo t s))) ∧
      (s.jobs.state = 8 → exec (.stageEnd t) s = .next (armEnds (passTo t s)))) ∧
    (∀ e, s.jobs.state ≠ 10 → s.jobs.stageEnd = some e → max s.now t < e → exec (.stageEnd t) s = .next (passTo t s)) ∧
    (∀ e, s.jobs.state = 6 → s.jobs.stageEnd = some e → e ≤ max s.now t → s.jobs.holdAsked = [] → s.jobs.machine = false →
      exec (.stageEnd t) s = .next (bedBegins (max s.now t) (passTo t s))) ∧
    (∀ e, s.jobs.state = 3 → s.jobs.stageEnd = some e → e ≤ max s.now t → [1, 2, 3].contains s.jobs.holdAfter = true →
      exec (.stageEnd t) s = .next (enterHeld s.jobs.holdAfter jsRecoat (passTo t s))) ∧
    (s.jobs.state = 8 → s.jobs.final = false → s.jobs.l ≤ max s.now t + tLead s + 1000000 → policyHold s = false →
      s.jobs.holdAsked = [] → s.jobs.machine = false → s.permit.high = true →
      (notArmed s = [] → ripplePlace (.layerStart (s.jobs.exposed.getD 0)) s = true →
        exec (.armCheck t) s = .next (setJobs (fun j => { j with final := true })
          (postOwn (.layerStart (s.jobs.exposed.getD 0)) (s.jobs.l - tLead s) (passTo t s)))) ∧
      (notArmed s ≠ [] → s.jobs.late < 1000 →
        exec (.armCheck t) s = .next (raise 0x3003 [] (setL (s.jobs.l + 1000000) { passTo t s with
          jobs := { s.jobs with late := s.jobs.late + 1, lateMs := satInc s.jobs.lateMs } })))) ∧
    (∀ x, theLayer s = some x → (∃ l ∈ x.laneList, (laneOf s l).state.active = true) →
      exec (.exposeEnd t) s = .next (passTo t s)) ∧
    (∀ x i, theLayer s = some x → (∀ l ∈ x.laneList, (laneOf s l).state.active = false) → s.jobs.state = 2 →
      s.jobs.exposeDone = true → s.members.lossHold = false → s.jobs.machine = false → s.jobs.exposed = some i →
      exec (.exposeEnd t) s = .next (postBegins (max s.now t) (passTo t s))) ∧
    (∀ i x, s.jobs.completing = some i → layerOf s i = some x →
      (allEnded x = true → exec (.layerCompletion t) s = .next (completeLayer i stDone (passTo t s))) ∧
      (allEnded x = false → exec (.layerCompletion t) s = .next (completeLayer i stDoneNote (passTo t s))))) ∧
  (∀ (i st : Nat) (s : State) (x : Layer), layerOf s i = some x →
    ∃ y u, y.index = (stoppedLanes s x).index ∧ y.status = x.status ∧ y.ref = x.ref ∧ u = writeStatus y s ∧
      completeLayer i st s = endWith x.ref st { u with jobs := { u.jobs with
        layers := u.jobs.layers.filter fun z => z.index != i
        done := some i, exposed := none, completing := none, unstarted := false, repair := false, syncs := []
        table := if x.newPset then x.psetTable else u.jobs.table } })

/-- In EXPOSE BEAM_PERMIT_LOW of an input that was high, besides what follows, faults every lane that is emitting or may emit and raises
PERMIT_LOST. With no lane RUNNING or in HOLD (nor at its END at that very tick), outside EXPOSE and ARM and with the input high before: the
input goes low, the permits are not both high, LOW_EVENTS counts, and a KILL of every beam goes out on every port; with no calibration
running nothing else changes. An input that was low already changes no count. PERMIT_RESTORED sets both inputs high and clears the
disagreement; outside PERMIT_WAIT nothing else changes, and there a job of one module is in ARM again with L 10 ms later. PERMIT_DISAGREE
with equal inputs changes nothing but the time, and with different inputs it takes their levels, sets DISAGREE and counts one where it was
clear. (R71, R588, R589) -/
def Obligations.PermitsAndHolds : Prop :=
  ∀ (t : Ns) (s : State),
    (s.jobs.state = 2 → s.hk.runs = [] → s.hk.groups = [] →
      (s.permit.a = true → exec (.beamPermitLow t false) s = .next (permitFaults (killAll { passTo t s with permit := { s.permit with
        a := false, high := false, lowEvents := satInc s.permit.lowEvents, disagree := s.permit.disagree && s.permit.b } }))) ∧
      (s.permit.b = true → exec (.beamPermitLow t true) s = .next (permitFaults (killAll { passTo t s with permit := { s.permit with
        b := false, high := false, lowEvents := satInc s.permit.lowEvents, disagree := s.permit.disagree && s.permit.a } })))) ∧
    (s.jobs.state = 9 → s.jobs.machine = false →
      let u : State := { passTo t s with
        permit := { s.permit with a := true, b := true, high := true, disagree := false }
        jobs := { s.jobs with state := 8, final := false, late := 0 } }
      exec (.permitRestored t) s = .next (setL (tickAt (max s.now t + 10000000)) ((allLanes s).foldl (fun s l => tryArm l s) u))) ∧
    ((∀ l ∈ allLanes s, (laneOf s l).faultable (max s.now t) = false ∨ (laneOf s l).state = .armed) →
      s.jobs.state ≠ 2 → s.jobs.state ≠ 8 →
      s.hk.runs = [] → s.hk.groups = [] →
      (s.permit.a = false → exec (.beamPermitLow t false) s = .next { passTo t s with
        permit := { s.permit with a := false, high := false, disagree := s.permit.disagree && s.permit.b } }) ∧
      (s.permit.b = true → exec (.beamPermitLow t true) s = .next (killAll { passTo t s with permit := { s.permit with
        b := false, high := false, lowEvents := satInc s.permit.lowEvents, disagree := s.permit.disagree && s.permit.a } }))) ∧
    (s.jobs.state ≠ 9 → exec (.permitRestored t) s = .next { passTo t s with
      permit := { s.permit with a := true, b := true, high := true, disagree := false } }) ∧
    (∀ a, exec (.permitDisagree t a a) s = .next (passTo t s)) ∧
    (∀ a, exec (.permitDisagree t a (!a)) s = .next { passTo t s with permit := { s.permit with
      a := a, b := !a, high := false, disagree := true
      disagreeEvents := if s.permit.disagree then s.permit.disagreeEvents else satInc s.permit.disagreeEvents } })

/-- Outside a MACHINE_JOB, STAGE_PLAN_RECEIVE, STAGE_REPORT_RECEIVE, MEMBER_ARM_CHECK, STAGE_PLAN_RESEND and STAGE_REPORT_SEND change
nothing but the time. In one: a member sends its STAGE_REPORT and the leader sends none; a leader whose plan is not acknowledged by every
member sends it again; a plan from a module that is not the leader changes nothing; MEMBER_ARM_CHECK of a member with a lane that is not
ARMED at L − T_lead − 3 ms reports ARM_LATE, and that of the leader plans and takes an L 1 ms later; a report from a module that is no other
member of the machine changes nothing; a plan that the leader sends reaches a member as the acknowledged sequence number and, unless that
number was acknowledged already, the new entries, and is answered with a report; in ARM it may move L, and in HELD the job resumes with it.
(R78, R79, R80, R348, R351) -/
def Obligations.MachineJobFrames : Prop :=
  ∀ (t : Ns) (s : State),
    (s.jobs.machine = false →
      (∀ a b c, exec (.stagePlanReceive t a b c) s = .next (passTo t s)) ∧
      (∀ a b c d e f g, exec (.stageReportReceive t a b c d e f g) s = .next (passTo t s)) ∧
      exec (.memberArmCheck t) s = .next (passTo t s) ∧
      exec (.stagePlanResend t) s = .next (passTo t s) ∧
      exec (.stageReportSend t) s = .next (passTo t s)) ∧
    (s.jobs.machine = true → isLeader s = false →
      exec (.stageReportSend t) s = .next (sendControl 6 (reportBytes s false false) (passTo t s)) ∧
      (∀ b c, ∀ a ≠ s.members.leaderMember.toNat, exec (.stagePlanReceive t a b c) s = .next (passTo t s)) ∧
      (∀ (b : Nat) (c : List PlanEntry), s.members.elected = true → s.jobs.state ≠ 8 → s.jobs.state ≠ 10 →
        exec (.stagePlanReceive t s.members.leaderMember.toNat b c) s =
          .next (report false false { passTo t s with members := { s.members with
            ackSeq := b
            plans := if b = s.members.ackSeq then s.members.plans else c.foldl (fun es e => addEntry e es) s.members.plans } })) ∧
      (∀ (b : Nat) (c : List PlanEntry), s.members.elected = true →
        exec (.stagePlanReceive t s.members.leaderMember.toNat b c) s =
          .next (machineResume (report false false (planMovesL { passTo t s with members := { s.members with
            ackSeq := b
            plans := if b = s.members.ackSeq then s.members.plans else c.foldl (fun es e => addEntry e es) s.members.plans } })))) ∧
      (s.jobs.state = 8 → s.jobs.final = false → s.jobs.l ≤ max s.now t + tLead s + 3000000 → notArmed s ≠ [] → s.jobs.late < 1000 →
        exec (.memberArmCheck t) s = .next (sendControl 6 (reportBytes s true false) (passTo t s)))) ∧
    (s.jobs.machine = true → isLeader s = true →
      exec (.stageReportSend t) s = .next (passTo t s) ∧
      (s.members.plan ≠ [] → planAcked s = false → exec (.stagePlanResend t) s = .next (sendPlan (passTo t s))) ∧
      (s.jobs.state = 8 → s.jobs.final = false → s.jobs.l ≤ max s.now t + tLead s + 3000000 → notArmed s ≠ [] → s.jobs.late < 1000 →
        exec (.memberArmCheck t) s = .next (postpone (planStage jsExpose (s.jobs.exposed.getD 0) (s.jobs.l + 1000000) (passTo t s)))) ∧
      (∀ b c d e f g, ∀ a, (otherMembers s).contains a = false →
        exec (.stageReportReceive t a b c d e f g) s = .next (passTo t s)) ∧
      (∀ b c f g, ∀ a, (otherMembers s).contains a = true → s.members.plan = [] → c ≠ 10 → s.jobs.state ≠ 8 → s.jobs.state ≠ 10 →
        exec (.stageReportReceive t a b c 0 f 0 g) s = .next (setMember a (fun m => { m with
          ack := b, jobState := c, repCause := 0, repFlags := f, repMode := 0, repLayer := g }) (passTo t s))))

/-- A trigger in LINE_RUN defines the next product with its count and time, none of its lanes settled, and LAYER_INDEX shows its number;
while the job is not LINE_RUN or HELD a trigger defines none. MARK_RECORD_WRITE with the oldest product settled on every lane of the job
writes its 32-byte record (number, flags with ALL_DONE where no lane skipped it and it is not partial, trigger time after TOR, SKIP_MASK) at
MARK_RECORD_ADDR + 32 × (k mod MARK_RECORD_COUNT) and goes on to the next product; a product that a lane has not settled writes nothing.
(R85, R88, R91, R92) -/
def Obligations.LineProducts : Prop :=
  ∀ (t : Ns) (s : State) (h : JobHeader), s.jobs.header = some h →
    (∀ count, s.jobs.line = true → s.jobs.state = 11 → newProduct count s = { s with jobs := { s.jobs with
      products := s.jobs.products ++
        [{ k := s.jobs.nextProduct, count := count, time := s.now, held := false, done := 0, skipped := 0, flags := 0 }]
      nextProduct := s.jobs.nextProduct + 1, layerIndex := BitVec.ofNat 32 s.jobs.nextProduct } }) ∧
    (∀ count, s.jobs.state ≠ 11 → s.jobs.state ≠ 10 → newProduct count s = s) ∧
    (∀ p rest, s.jobs.products = p :: rest → h.line = true → p.k = s.jobs.markWritten → 0 < h.markCount →
      (∀ l ∈ jobLanes s, p.done.getLsbD l = true) → (∀ l ∈ allLanes s, (laneOf s l).marking = none ∧ (laneOf s l).state.active = false) →
      s.jobs.state = 11 → s.jobs.holdAsked = [] → poisonPart (h.markAddr + 32 * (p.k % h.markCount)) 32 s = [] →
      exec (.markRecordWrite t) s = .next (setJobs (fun j => { j with
        products := rest, markWritten := p.k + 1, syncs := j.syncs.filter fun q => q.key != p.k }) (memPut (h.markAddr + 32 * (p.k % h.markCount)) (markRecord (torOf s) p) (passTo t s)))) ∧
    (∀ p rest l, s.jobs.products = p :: rest → l ∈ jobLanes s → p.done.getLsbD l = false → s.jobs.line = false →
      exec (.markRecordWrite t) s = .next (passTo t s))

/-- For a LANE_LIMITS that may start. With no job it ends REJECTED_STATE; with a mask that names a fused-off lane, or with neither MARK nor
JUMP, REJECTED_PARAM. Otherwise every lane of the mask takes the change, and it ends DONE, or DONE_NOTE where some lane of it is in a
deceleration ramp to standstill. A lane outside such a ramp takes the operand's values that are not 0 into the override of each class it
names, or with CLEAR has that override and any latched change of the class taken away, and its records that are not frozen are planned
again. A lane in such a ramp only changes the latched change of each named class, field by field over the earlier one, or with CLEAR latches
an empty override; the record that it is issuing is marked, and the records of the next move that are in the window already take the change.
No other field of State changes. (R3, R104, R111, R112, R114, R138, R139, R140) -/
def Obligations.LaneLimitChanges : Prop :=
  ∀ (h : Hdr) (s : State) (accel jerk speed : Nat),
    let v : LimitSet := { accel := accel, jerk := jerk, speed := speed }
    (Ready h s →
      (s.jobs.state = 0 → ∀ m a b c, exec (.laneLimits h m a b c accel jerk speed) s =
        .next (endWith h.ref stState (accept h 0x20 s))) ∧
      (s.jobs.state ≠ 0 →
        (∀ m a b c, namesFused s m = true → exec (.laneLimits h m a b c accel jerk speed) s =
          .next (endWith h.ref stParam (accept h 0x20 s))) ∧
        (∀ m c, exec (.laneLimits h m false false c accel jerk speed) s = .next (endWith h.ref stParam (accept h 0x20 s))) ∧
        (∀ m a b c, namesFused s m = false → (a || b) = true → exec (.laneLimits h m a b c accel jerk speed) s =
          .next (endWith h.ref (if (lanesIn m).any fun l => inDecel s (laneOf s l) then stDoneNote else stDone)
            ((lanesIn m).foldl (fun u l => laneLimits a b c v l u) (accept h 0x20 s)))))) ∧
    (∀ (l : Nat) (a b c : Bool), inDecel s (laneOf s l) = false → laneLimits a b c v l s =
      relimitLane l (setLane l (fun x => { x with
        ovrMark := if a then (if c then none else some (v.over (x.ovrMark.getD .none))) else x.ovrMark
        ovrJump := if b then (if c then none else some (v.over (x.ovrJump.getD .none))) else x.ovrJump
        deferMark := if a && c then none else x.deferMark
        deferJump := if b && c then none else x.deferJump }) s)) ∧
    (∀ (l : Nat) (a b c : Bool) (k : PRec), inDecel s (laneOf s l) = true → recAt (s.now + tLead s) (laneOf s l).plan = some k →
      laneLimits a b c v l s = relimitLane l (setLane l (fun x => { x with
        deferMark := if a then some (if c then .none else v.over (x.deferMark.getD (x.ovrMark.getD .none))) else x.deferMark
        deferJump := if b then some (if c then .none else v.over (x.deferJump.getD (x.ovrJump.getD .none))) else x.deferJump
        deferFrom := match x.deferFrom with | some i => some i | none => nextMove (s.now + tLead s) x.plan
        plan := x.plan.map fun r => if k.idx = r.idx then { r with deferred := true } else r }) s))

/-- For a descriptor that may start. LANE_TRIMS with a mask that names a fused-off lane is REJECTED_PARAM; otherwise its new trims are a
change of the MAP of each lane of the mask, the override of trims is noted, and it ends DONE. LANE_GRID_LOAD is REJECTED_PARAM for a set the
lane does not have, and REJECTED_BUSY while a grid comes into force or waits to; a good one puts its set in the place of the old one, and
the working grid built from the sets is a change of that MAP. A change of a lane whose blend runs waits, in place of any that waits already,
and otherwise its blend of T_BLEND starts with the next set-point. BLEND_COMPLETE before T_BLEND is over changes nothing but the time;
afterwards the new trims are in force, no blend runs and beta is 0, a new grid takes the place of the working grid that was not in force,
and with a change that waits its blend follows. (R3, R125, R129, R130, R139, R140) -/
def Obligations.CorrectionChanges : Prop :=
  ∀ (h : Hdr) (s : State), Ready h s →
    (∀ m a b c d e, namesFused s m = true → exec (.laneTrims h m a b c d e) s = .next (endWith h.ref stParam (accept h 0x21 s))) ∧
    (∀ m a b c d e, namesFused s m = false → exec (.laneTrims h m a b c d e) s =
      .next (endWith h.ref stDone (bumpOverride 0 true ((lanesIn m).foldl (fun u l =>
        changeMap l { trims := some (makeTrims a b c d e), grid := none } u) (accept h 0x21 s))))) ∧
    (∀ l k a, (laneRec s l).gridSets ≤ k → exec (.laneGridLoad h l k a) s = .next (endWith h.ref stParam (accept h 0x22 s))) ∧
    (∀ l k a, l < s.variant.lanes → (laneRec s l).mapped = true → k < (laneRec s l).gridSets → a % 4 = 0 →
      hostMem a 12 s = true → hostMem a (12 + memNat (a + 4) 4 s) s = true → gridsBusy (laneOf s l).map = true →
      exec (.laneGridLoad h l k a) s = .next (endWith h.ref stBusy (accept h 0x22 s))) ∧
    (∀ (l k a : Nat) p g, l < s.variant.lanes → (laneRec s l).mapped = true → k < (laneRec s l).gridSets → a % 4 = 0 →
      hostMem a 12 s = true → hostMem a (12 + memNat (a + 4) 4 s) s = true → gridsBusy (laneOf s l).map = false →
      recordImage a 149808 s = some (0x0011, 8 * l + k, p) → readGrid p = some g →
      let put := fun u : State => setMap l (fun m => { m with gridSets := (k, g) :: m.gridSets.filter fun x => x.1 != k }) u
      let v := put (needGrid l (accept h 0x22 s))
      tempsRise (setsOf (put (accept h 0x22 s)) l) = true → exec (.laneGridLoad h l k a) s = .next (endWith h.ref stDone (bumpOverride 1 true
        (changeMap l { trims := none, grid := (gridNow l v).1 } (gridNow l v).2)))) ∧
    (∀ l c, (laneOf s l).map.grid.isSome →
      (∀ b t0, (laneOf s l).map.blend = some b → b.start = some t0 →
        changeMap l c s = setMap l (fun m => { m with waiting := some c }) s) ∧
      ((laneOf s l).map.blend = none →
        changeMap l c s = setMap l (fun m => { m with blend := some { start := none, len := tBlend s l c, change := c } }) s)) ∧
    (∀ t l b t0, (laneOf s l).map.blend = some b → b.start = some t0 →
      (max s.now t < t0 + b.len → exec (.blendComplete t l) s = .next (passTo t s)) ∧
      (t0 + b.len ≤ max s.now t →
        let done := setMap l (fun m =>
          let m := { m with trims := b.change.trims.getD m.trims, blend := none, beta := 0, waiting := none }
          match b.change.grid with
          | none => m
          | some g => if m.useB then { m with gridA := some g, gridB := none, useB := false }
                      else { m with gridB := some g, gridA := none, useB := true }) (passTo t s)
        ((laneOf s l).map.waiting = none → exec (.blendComplete t l) s = .next done) ∧
        (∀ c, (laneOf s l).map.waiting = some c → exec (.blendComplete t l) s = .next (changeMap l c done))))

/-- For a lane whose state does not change with the time alone. FETCH_BURST of a lane with a stream whose buffer has room reads the next 64
records, or those that remain, where all are as validated, in stream order to the end of its buffer. PLANNING_PASS with an empty buffer or a
full window plans nothing, but arms a lane of the layer in ARM whose window holds 512 records or END; otherwise, with no latched change, the
next record leaves the buffer, joins the window and the window is planned anew. VERDICT_REQUEST before H_GUARD ahead of the branch time of
the next record that asks changes nothing, and from then on, unless another asking record follows the same open SYNC before it, it freezes
that record and the motion records before it, and marks it as asked now. VERDICT_DEADLINE before the deadline changes nothing, and from then
on with no GO for the first record that has asked counts VERDICT_LATE and a hold, raises VERDICT_LATE and holds that record; with nothing
asked it changes nothing. RESULT_WRITE of a held lane whose oldest record is due writes its result and frees its place. LANE_END of a lane
that has reached END in a BUILD layer writes every result left, notes END in the layer, and puts the lane to IDLE with nothing planned;
before END it changes nothing. (R96, R97, R98, R100, R110, R116, R117, R57, R102) -/
def Obligations.LanesFetchPlanAndEnd : Prop :=
  ∀ (t : Ns) (l : Nat) (s : State), settleLane l (passTo t s) = passTo t s →
    (∀ st, (laneOf s l).stream = some st → (laneOf s l).state ≠ .off → (laneOf s l).state ≠ .fault →
      (laneOf s l).buf.length + (laneOf s l).plan.countP (fun r => r.first.isNone) + 64 ≤ 2048 →
      (∀ f ∈ (laneOf s l).buf, f.bad = none) →
      let n := min 64 (st.count - (laneOf s l).fetchNext)
      (∀ k < n, poisonIn (st.addr + 32 * ((laneOf s l).fetchNext + k)) 32 s = none ∧
        st.checked.getD ((laneOf s l).fetchNext + k) [] = memRead (st.addr + 32 * ((laneOf s l).fetchNext + k)) 32 s) →
      exec (.fetchBurst t l) s = .next (setLane l (fun x => { x with
        buf := x.buf ++ (List.range n).map fun k =>
          let i := (laneOf s l).fetchNext + k
          { index := i, bytes := memRead (st.addr + 32 * i) 32 s, bad := none }
        fetchNext := x.fetchNext + n }) (touchBasin (st.addr + 32 * (laneOf s l).fetchNext) (32 * n) (passTo t s)))) ∧
    ((laneOf s l).buf = [] → exec (.planningPass t l) s = .next (tryArm l (passTo t s))) ∧
    (512 ≤ windowCount (laneOf s l) → exec (.planningPass t l) s = .next (tryArm l (passTo t s))) ∧
    ((laneOf s l).state = .idle → s.jobs.state = 8 → inLayer s l = true → (laneOf s l).excluded = false → (laneOf s l).headFault = false →
      ((512 ≤ (laneOf s l).plan.length ∨ ∃ r ∈ (laneOf s l).plan, r.vec = .stop) →
        tryArm l s = setLane l (fun x => { x with state := .armed }) s) ∧
      ((laneOf s l).plan.length < 512 → (∀ r ∈ (laneOf s l).plan, r.vec ≠ .stop) → tryArm l s = s)) ∧
    (∀ f rest x r, l < s.lanes.length → [2, 9, 11].contains (jobState s) = true → (laneOf s l).cut = false →
      (laneOf s l).deferMark = none → (laneOf s l).deferJump = none → (laneOf s l).buf = f :: rest →
      windowCount (laneOf s l) < 512 → planRec (passTo t s) l (laneOf s l) f = (x, r) →
      (∀ a b c d, r.vec ≠ .sync a b c d) → ∃ u, exec (.planningPass t l) s = .next u ∧ (laneOf u l).buf = rest ∧
        (laneOf u l).plan = planPass (passTo t s) (laneOf s l).plan ((laneOf s l).plan ++ [r]) (planStart (passTo t s) (laneOf s l)) ∧
        (laneOf u l).planX = x.planX ∧ (laneOf u l).planY = x.planY ∧ (laneOf u l).state = x.state ∧
        (∀ k, k ≠ l → laneOf u k = laneOf s k)) ∧
    (∀ k, (laneOf s l).hold = none → s.jobs.line = false → nextRequest (laneOf s l).plan = some k →
      max s.now t + hGuard s < branchAt s l k.idx → exec (.verdictRequest t l) s = .next (passTo t s)) ∧
    (∀ k, (laneOf s l).state.active = true → issueStop (laneOf s l) = none → s.jobs.line = false → nextRequest (laneOf s l).plan = some k →
      behindSync (laneOf s l).plan k.idx = false → branchAt s l k.idx ≤ max s.now t + hGuard s →
      (∀ w ∈ (laneOf s l).plan, w.waitLate = false) →
      exec (.verdictRequest t l) s = .next (setLane l (fun x => { x with
        plan := x.plan.map fun r => if r.idx = k.idx then { r with verdict := .asked (max s.now t), fixed := true }
          else if r.idx < k.idx && r.vec.isMotion then { r with fixed := true } else r }) (passTo t s))) ∧
    ((∀ r ∈ (laneOf s l).plan, r.verdict = .none ∨ r.verdict = .go) → exec (.verdictDeadline t l) s = .next (passTo t s)) ∧
    (∀ k a, (laneOf s l).state.active = true → issueStop (laneOf s l) = none →
      ((laneOf s l).plan.find? fun r => r.verdict != .none && r.verdict != .go) = some k → k.verdict = .asked a →
      afterOpenSync (laneOf s l).plan k.idx = false →
      (max s.now t < deadlineOf s (laneOf s l).plan k.idx → exec (.verdictDeadline t l) s = .next (passTo t s)) ∧
      (deadlineOf s (laneOf s l).plan k.idx ≤ max s.now t → guardFirst (passTo t s) (laneOf s l).plan k.idx = false →
      let u := laneEvent l 0x3022 (natLE 4 k.index) (setLane l (fun x => { x with verdictLate := satInc x.verdictLate }) (passTo t s))
      exec (.verdictDeadline t l) s = .next (holdRecord l k.idx
        { u with prox := { u.prox with holdVerdicts := u.prox.holdVerdicts + 1 } }))) ∧
    (∀ r rest, ((laneOf s l).state = .hold ∨ (laneOf s l).state = .running) → (laneOf s l).plan = r :: rest → r.vec ≠ .stop →
      resultReady (max s.now t) (laneOf s l) r = true → (laneOf s l).stall = none →
      exec (.resultWrite t l) s = .next (setLane l (fun x => { x with plan := rest })
        (writeResult l (withWait (r :: rest) r) (passTo t s)))) ∧
    (atEnd (max s.now t) (laneOf s l) = false → exec (.laneEnd t l) s = .next (passTo t s)) ∧
    (∀ i, atEnd (max s.now t) (laneOf s l) = true → s.jobs.line = false → s.jobs.exposed = some i → (laneOf s l).marking = none →
      exec (.laneEnd t l) s = .next (setLane l (fun x => { x with
          state := .idle, plan := [], buf := [], stream := none, hold := none, cut := false, stall := none, marking := none
          tailMark := none, ended := some (max s.now t, faultIndexAt (laneOf s l) (max s.now t))
          loop := { x.loop with trim := 0, integ := 0, active := false } })
        (setLayerLane i l (fun e => { e with endState := 1, code := 0, index := 0 }) (flushPlan l (passTo t s)))))

/-- A fault of a running lane outside any job: its open raw block and cut record are written, the lane is in FAULT with nothing planned or
buffered, its trim is 0, TARN_LANE_FAULT holds the code, the cause where the code is LANE, the record index and the time, a KILL of its beam
goes out and LANE_FAULT is raised. A lane that neither is ARMED, RUNNING or in HOLD, nor fills its window in ARM, nor reached END or faulted
at this very tick, does not fault. FOLLOWING_ERROR faults a lane with code LANE and cause FOLLOWING where its error has stood for longer
than FE_TIME, and otherwise changes nothing. SYNC_TIMEOUT of a SYNC for which lanes or modules are missing with FAIL_CONTINUE lets the SYNC
go on without them and raises SYNC_TIMEOUT; without it the SYNC has failed and every lane that waits in it faults; before SYNC_TIMEOUT is
over it changes nothing. (R58, R68, R83, R135, R136, R137, R138) -/
def Obligations.LaneFaultsFollowThePolicy : Prop :=
  ∀ (t : Ns) (l : Nat) (s : State),
    (∀ code cause, (laneOf s l).state.active = true → s.jobs.header = none → s.jobs.syncs = [] → (laneOf s l).marking = none →
      (laneOf s l).ended = none →
      let i := faultIndexAt (laneOf s l) s.now
      let c := if code = fcLane then cause else 0
      laneFault l code cause s = laneEvent l 0x3020 (natLE 1 code ++ natLE 1 c ++ natLE 4 i) (killLane l
        (setLane l (fun x => { x with
          code := code, cause := c, other := 0, faultIndex := i, faultTime := BitVec.ofNat 64 (afterTor s s.now)
          faultAt := some s.now })
        (stopLane l .fault (noteFault l code i (flushCut l i s)))))) ∧
    (∀ code cause, (laneOf s l).faultable s.now = false → arming s l code = false → (laneOf s l).faultAt ≠ some s.now → laneFault l code cause s = s) ∧
    (settleLane l (passTo t s) = passTo t s →
      (∀ a, (laneOf s l).feSince = some a → a + 5 * (laneRec s l).feTime < max s.now t →
        exec (.followingError t l) s = .next (laneFault l fcLane 0x01 (passTo t s))) ∧
      ((laneOf s l).feSince = none → exec (.followingError t l) s = .next (passTo t s))) ∧
    (∀ (id : Nat) (h : JobHeader) (p : SyncPoint), s.jobs.header = some h → s.jobs.syncs = [p] → p.id = id →
      p.released = none → p.failed = none →
      (max s.now t < p.first + 1000000 * h.timeoutMs → exec (.syncTimeout t id) s = .next (passTo t s)) ∧
      (p.first + 1000000 * h.timeoutMs ≤ max s.now t →
        let missing := (allLanes s).filter fun k => p.lanes.getLsbD k && !p.gone.getLsbD k && !(p.arrivals.any fun a => a.lane = k)
        let u := raise 0x300B [] (passTo t s)
        (missing = [] → silentMembers s p = [] → exec (.syncTimeout t id) s = .next (passTo t s)) ∧
        ((missing ≠ [] ∨ silentMembers s p ≠ []) →
        (p.failContinue = true → exec (.syncTimeout t id) s = .next { u with jobs := { u.jobs with
          syncs := [{ p with
            gone := p.gone ||| BitVec.ofNat 128 (maskOf missing), goneMembers := p.goneMembers ||| maskOf (silentMembers s p) }] } }) ∧
        (p.failContinue = false → exec (.syncTimeout t id) s = .next (faultAll 512
          (p.arrivals.map fun a => (a.lane, fcSyncTimeout, 0, none))
          { u with jobs := { u.jobs with syncs := [{ p with failed := some fcSyncTimeout }] } })))))

/-- MERE_STEP before the next step grid point, or with Mere not running, changes nothing but the time. At that point, with a step in
progress and nothing else waiting for it, the computed field becomes the front buffer with its step number and time (its hottest cell going
to the recorder), the next step takes the reports that have reached Mere and computes every cell from the new front buffer, and the number
of the next grid point goes up by one, or by two in coarse steps. DEP_REPORT with no report of the lane changes nothing; one while Mere does
not run is only taken off; one outside the grid is counted, and one inside joins the queue while it holds fewer than 65,536. MERE_VIEW_COPY
keeps the latest two copies of the front buffer. FF_READ of a running lane that is due takes T_pred from Mere at the planned position
FF_AHEAD later, from the buffer that a read at that time sees; with FF_EN clear it changes nothing. MERE_SAVED with no coding ended changes
nothing. (R162, R163, R165, R166, R168, R169, R173, R174, R176) -/
def Obligations.MereStepsAndReports : Prop :=
  ∀ (t : Ns) (s : State),
    ((s.mere.run = false ∧ s.mere.due = false) ∨ max s.now t < mereS s.mere s.mere.next → exec (.mereStep t) s = .next (passTo t s)) ∧
    (∀ b k, (s.mere.run = true ∨ s.mere.due = true) → max s.now t = mereS s.mere s.mere.next → mereGrid s.mere (max s.now t) = s.mere.next →
      s.mere.back = some (b, k) → s.mere.saves = [] → s.mere.pendingCoeffs = [] → s.mere.sets = [] → s.mere.settle = none →
      s.mere.frame = none → s.mere.coarse = s.mere.wantCoarse →
      let mine := s.mere.reports.filter fun r => decide (r.came ≤ max s.now t)
      let n := s.mere.next
      let c := stepCoeffs s.mere
      exec (.mereStep t) s = .next (setMere (fun m => { m with
        run := true, due := false, front := b, step := k, frontAt := mereS s.mere k
        ins := { blend := false, frame := none, taken := mine }
        back := some (b.mapIdx fun i x => mereCellStep m.nx m.ny b c.1 c.2 m.coeffs.kDep s.prof.mere.tPlate n (cellEnergy mine i) i x, n)
        reports := m.reports.filter fun r => !decide (r.came ≤ max s.now t), merges := 0
        next := if m.coarse then n + 2 else n + 1 }) (recExtreme 30 (b.foldl max 0 : Nat) 0 (passTo t s)))) ∧
    (∀ l, (laneOf s l).loop.repOut = [] → exec (.depReport t l) s = .next (passTo t s)) ∧
    (∀ l e rest, s.mere.run = true → (laneOf s l).loop.repOut = (none, e) :: rest → exec (.depReport t l) s =
      .next (setMere (fun m => { m with depReports := m.depReports + 1, depOutside := satInc m.depOutside })
        (setLoop l (fun x => { x with repOut := rest }) (passTo t s)))) ∧
    (∀ l r rest, s.mere.run = false → (laneOf s l).loop.repOut = r :: rest → exec (.depReport t l) s =
      .next (setLoop l (fun x => { x with repOut := rest }) (passTo t s))) ∧
    (∀ l c e rest, s.mere.run = true → (laneOf s l).loop.repOut = (some c, e) :: rest →
      s.mere.beginning (max s.now t) = none → s.mere.reports.length < 65536 →
      exec (.depReport t l) s = .next (setMere (fun m => { m with
        depReports := m.depReports + 1
        reports := m.reports ++ [{ lane := l, cell := c, energy := e, came := max s.now t }] })
        (setLoop l (fun x => { x with repOut := rest }) (passTo t s)))) ∧
    (s.mere.run = true → s.mere.viewPeriodMs ≠ 0 →
      let f := s.mere.seenAt (max s.now t)
      let v : MereView :=
        { seq := s.mere.viewCount + 1, firstStep := f.step, lastStep := f.step, time := max s.now t
          nx := s.mere.nx, ny := s.mere.ny, cells := f.front }
      exec (.mereViewCopy t) s = .next (setMere (fun m => { m with viewCount := m.viewCount + 1, views := (v :: m.views).take 2 })
        (passTo t s))) ∧
    (∀ l r, settleLane l (passTo t s) = passTo t s → recAt (max s.now t) (laneOf s l).plan = some r →
      (ffOn s r.set = false → exec (.ffRead t l) s = .next (passTo t s)) ∧
      (∀ p, (laneOf s l).state = .running → ffOn s r.set = true → (laneOf s l).loop.lastRead = none → s.mere.run = true →
        let m := s.mere.seenAt (max s.now t)
        max s.now t - m.frontAt ≤ 1000 * s.prof.loop.staleLimitUs →
        planPos (laneOf s l).plan (max s.now t + 1000 * s.prof.loop.ffAheadUs) = some p →
        exec (.ffRead t l) s = .next (setLoop l (fun x => { x with
          tPred := mereRead { s with mere := m } p, stale := false, tRead := mereRead { s with mere := m } p, readStale := false
          staleEpisode := false, lastRead := some (max s.now t) }) (passTo t s)))) ∧
    ((∀ v ∈ s.mere.saves, v.result = none) → exec (.mereSaved t) s = .next (passTo t s)) ∧
    (∀ v n, s.mere.saves = [v] → v.result = some (stDone, n) → v.ref = none →
      let u := setMere (fun m => { m with saves := [], lastSlot := BitVec.ofNat 16 v.slot })
        (memWrite 35 (slotAddr s v.slot) (slotHeader v stDone n s) (passTo t s))
      exec (.mereSaved t) s = .next (raise 0x3044 (natLE 4 v.layer ++ natLE 2 v.slot ++ natLE 4 n) u))

/-- For a descriptor that may start. MERE_SAVE_CFG with no save open sets the slots from a 4 KiB-aligned region of host memory and ends
DONE, a bad region is REJECTED_PARAM, and with a save open it is REJECTED_STATE. MERE_SAVE_NOW outside ARM and EXPOSE queues a save of the
next field into the next slot, and is REJECTED_STATE in them or where nothing can be saved. MERE_FIELD_SET with no job, in STARVED or in
HELD queues a field of one value (MODE 0) or the values read from host memory (MODE 1), and is REJECTED_STATE in EXPOSE. MERE_COEFF with D
above 16,384 is REJECTED_PARAM, and otherwise, where no step begins at that very tick, waits for the step that applies it, with CLEAR as the
profile's values. LOOP_CURVE_LOAD of a good CURVE record puts it into the table for the streams bound from then on, notes the override and
ends DONE, and a curve number of 32 or more is REJECTED_PARAM. (R145, R163, R174, R175, R178, R179, R602) -/
def Obligations.MereOpcodes : Prop :=
  ∀ (h : Hdr) (s : State), Ready h s →
    (∀ b z n, s.mere.saves ≠ [] → exec (.mereSaveCfg h b z n) s = .next (endWith h.ref stState (accept h 0x30 s))) ∧
    (∀ b z n, s.mere.saves = [] → b % 4096 = 0 → z % 4096 = 0 → 8192 ≤ z → 1 ≤ n → n ≤ 65535 → hostMem b (z * n) s = true →
      exec (.mereSaveCfg h b z n) s = .next (endWith h.ref stDone (setMere (fun m => { m with
        slotBase := BitVec.ofNat 64 b, slotSize := BitVec.ofNat 32 z, slotCount := BitVec.ofNat 16 n }) (accept h 0x30 s)))) ∧
    (∀ b z n, s.mere.saves = [] → (b % 4096 ≠ 0 ∨ z % 4096 ≠ 0 ∨ z < 8192 ∨ n = 0 ∨ 65535 < n) →
      exec (.mereSaveCfg h b z n) s = .next (endWith h.ref stParam (accept h 0x30 s))) ∧
    (∀ tag, (s.jobs.state = 2 ∨ s.jobs.state = 8 ∨ s.mere.slotCount = 0) →
      exec (.mereSaveNow h tag) s = .next (endWith h.ref stState (accept h 0x31 s))) ∧
    (∀ tag, s.jobs.state ≠ 2 → s.jobs.state ≠ 8 → s.mere.slotCount ≠ 0 → (mereChan s).isSome →
      let v : Saving :=
        { layer := 0xFFFFFFFF, slot := s.mere.nowCount % s.mere.slotCount.toNat, tag := tag, ref := some h.ref, due := s.now
          copied := none, resume := 0, result := none }
      exec (.mereSaveNow h tag) s = .next (setMere (fun m => { m with saves := m.saves ++ [v], nowCount := m.nowCount + 1 })
        (accept h 0x31 s))) ∧
    (∀ m v a, s.jobs.state = 2 → exec (.mereFieldSet h m v a) s = .next (endWith h.ref stState (accept h 0x32 s))) ∧
    (∀ m v a, s.jobs.state = 0 → 1 < m → exec (.mereFieldSet h m v a) s = .next (endWith h.ref stParam (accept h 0x32 s))) ∧
    (∀ v a, (s.jobs.state = 0 ∨ s.jobs.state = 4 ∨ s.jobs.state = 10) →
      let y : FieldSet :=
        { cells := List.replicate (s.mere.nx * s.mere.ny) v, ref := h.ref, readAt := s.now
          waited := s.mere.due && decide (s.boot.profileAt = s.now) }
      exec (.mereFieldSet h 0 v a) s = .next (setMere (fun m => { m with sets := m.sets ++ [y] }) (accept h 0x32 s))) ∧
    (∀ v a, (s.jobs.state = 0 ∨ s.jobs.state = 4 ∨ s.jobs.state = 10) → a % 2 = 0 → hostMem a (2 * (s.mere.nx * s.mere.ny)) s = true →
      poisonIn a (2 * (s.mere.nx * s.mere.ny)) s = none →
      let y : FieldSet :=
        { cells := (List.range (s.mere.nx * s.mere.ny)).map fun i => memNat (a + 2 * i) 2 s, ref := h.ref, readAt := s.now
          waited := s.mere.due && decide (s.boot.profileAt = s.now) }
      exec (.mereFieldSet h 1 v a) s = .next (setMere (fun m => { m with sets := m.sets ++ [y] }) (accept h 0x32 s))) ∧
    (∀ mask d r k w b, bit mask 0 = true → bit mask 5 = false → 16384 < d →
      exec (.mereCoeff h mask d r k w b) s = .next (endWith h.ref stParam (accept h 0x33 s))) ∧
    (∀ mask d r k w b, mask < 32 → (bit mask 0 = true → d ≤ 16384) → s.mere.beginning s.now = none → exec (.mereCoeff h mask d r k w b) s = .next (setMere (fun m => { m with
      pendingCoeffs := m.pendingCoeffs ++
        [(mask, { d := d, r := r, kDep := k, assimWeight := w, layerBlend := b }, some h.ref)] }) (accept h 0x33 s))) ∧
    (∀ mask d r k w b, 32 ≤ mask → mask < 64 → s.mere.beginning s.now = none → exec (.mereCoeff h mask d r k w b) s = .next (setMere (fun m => { m with
      pendingCoeffs := m.pendingCoeffs ++ [(mask, { d := s.prof.mere.d, r := s.prof.mere.r, kDep := s.prof.mere.kDep
                                                    assimWeight := s.prof.mere.assimWeight
                                                    layerBlend := s.prof.mere.layerBlend }, some h.ref)] }) (accept h 0x33 s))) ∧
    (∀ c a, 32 ≤ c → exec (.loopCurveLoad h c a) s = .next (endWith h.ref stParam (accept h 0x34 s))) ∧
    (∀ c a p v, c < 32 → a % 4 = 0 → hostMem a 132 s = true → recordImage a 120 s = some (0x0020, c, p) → readCurve p = some v →
      exec (.loopCurveLoad h c a) s = .next (endWith h.ref stDone (bumpOverride 3 true
        { accept h 0x34 s with curves := s.curves.set c (some v) })))

/-- For every cell of a grid with its field in row order, the new value of step k is clamp(t + floor(inc + h / 65536), 0, 65535), where inc
is D times the sum of the four neighbours less 4 t over 2^16, less R times (t − T_PLATE) over 2^24, plus the deposited energy times K_DEP
over 2^16, exact, and h is (i × 40503 + k × 9973) mod 65536; a neighbour outside the grid counts as t. A MERE record of a profile with a
larger D than 16,384 is refused, and a MERE_COEFF that sets one completes with REJECTED_PARAM. (R163) -/
def Obligations.MereCellStepFormula : Prop :=
  (∀ (nx ny d r kDep tPlate k e row col : Nat) (f : List Nat), f.length = nx * ny → row < ny → col < nx →
    let i := row * nx + col
    let t : Nat := f.getD i 0
    let up : Nat := if row + 1 < ny then f.getD (i + nx) 0 else t
    let down : Nat := if 0 < row then f.getD (i - nx) 0 else t
    let right : Nat := if col + 1 < nx then f.getD (i + 1) 0 else t
    let left : Nat := if 0 < col then f.getD (i - 1) 0 else t
    let lap : ℚ := up + down + right + left - 4 * t
    let inc : ℚ := d * lap / 2 ^ 16 - r * ((t : ℚ) - tPlate) / 2 ^ 24 + e * kDep / 2 ^ 16
    let h : ℚ := ((i * 40503 + k * 9973) % 65536 : Nat)
    (mereCellStep nx ny f d r kDep tPlate k e i t : Int) = max 0 (min 65535 ((t : Int) + ⌊inc + h / 65536⌋))) ∧
  (∀ v b, 16384 < field b 20 4 → readMere v b = none) ∧
  (∀ (h : Hdr) (s : State) (mask d r k w b : Nat), Ready h s → bit mask 0 = true → bit mask 5 = false → 16384 < d →
    exec (.mereCoeff h mask d r k w b) s = .next (endWith h.ref stParam (accept h 0x33 s)))

/-- PROX_LONG_HOLD of a lane whose hold has lasted longer than HOLD_WARN and has not been reported raises the event with the lane, the rule
and the blocker, and notes in the hold that it has been reported; of a lane with no hold, with a hold no longer than HOLD_WARN, or with one
reported already, it changes nothing but the time. A hold that begins has not been reported. (R196) -/
def Obligations.LongHoldIsReportedOnce : Prop :=
  ∀ (t : Ns) (l : Nat) (s : State),
    ((laneOf s l).hold = none → (laneOf s l).prox.syncHold = none → exec (.proxLongHold t l) s = .next (passTo t s)) ∧
    (∀ h, (laneOf s l).hold = none → (laneOf s l).prox.syncHold = some h → h.warned = false →
      h.since + 1000000 * s.prof.prox.holdWarn < max s.now t → exec (.proxLongHold t l) s =
        .next (raise 0x3060 (natLE 1 l ++ natLE 1 (laneOf s l).prox.rule ++ natLE 1 (laneOf s l).prox.blocker)
          (setLane l (fun x => { x with prox := { x.prox with syncHold := some { h with warned := true } } }) (passTo t s)))) ∧
    (∀ h, (laneOf s l).hold = some h →
      (h.warned = true ∨ max s.now t ≤ h.since + 1000000 * s.prof.prox.holdWarn → exec (.proxLongHold t l) s = .next (passTo t s)) ∧
      (h.warned = false → h.since + 1000000 * s.prof.prox.holdWarn < max s.now t → exec (.proxLongHold t l) s =
        .next (raise 0x3060 (natLE 1 l ++ natLE 1 (laneOf s l).prox.rule ++ natLE 1 (laneOf s l).prox.blocker)
          (setLane l (fun x => { x with hold := some { h with warned := true } }) (passTo t s))))) ∧
    (∀ k r, l < s.lanes.length → ((laneOf s l).plan.find? fun r => r.idx = k) = some r →
      ∃ h, (laneOf (holdRecord l k s) l).hold = some h ∧ h.idx = k ∧ h.since = s.now ∧ h.warned = false)

/-- GUARD_TICK away from the multiples of 5 µs changes nothing but the time; at one the rule changes and the bound of that instant come
first and then the guard tick. A guard tick of an arbiter that is not judging changes nothing; with every lane IDLE or OFF and nothing
asked, held or waiting, in a machine of one module without shared zones, it only renews the effective priorities, finds no cycle and notes
that it has judged. A request that is still open, whose lane does not hold and waits at no open SYNC, takes the release of R197 away with
its judgement and: judged free and away from the other members it gets GO; near them it becomes tentative with the exchange that confirms
it, and is not GO; with a conflict it is held, the rule and the blocker are noted and HOLD_VERDICTS counts one, and its lane's claim and its
reservation, planned from its standstill, stand against the requests judged after it. A request that is not open any more is not judged. The
effective priority is min(31, P + floor(H / T_AGE)), H counting from the hold. Between guard ticks DEADLOCK_BREAK of a cycle younger than
T_DEAD changes nothing; one that has persisted releases its lowest lane, counts and raises PROX_DEADLOCK. (R181, R184, R186, R187, R194,
R195, R197, R204, R209, R214) -/
def Obligations.ArbiterJudgesRequests : Prop :=
  ∀ (t : Ns) (s : State),
    (max s.now t % 5000 ≠ 0 → exec (.guardTick t) s = .next (passTo t s)) ∧
    (max s.now t % 5000 = 0 → exec (.guardTick t) s = .next (guardTick (boundFirst (rulesFirst (passTo t s))))) ∧
    (s.prox.run = false → guardTick s = s) ∧
    (s.prox.run = true → otherMembers s = [] → s.jobs.syncs = [] → s.time.clock.boundExceeded = false → s.prox.unsafeNow = false →
      (∀ z ∈ s.prox.zones, z = none) →
      (∀ l ∈ allLanes s, (laneOf s l).hold = none ∧ (laneOf s l).plan = [] ∧ (laneOf s l).state ≠ .running ∧
        (laneOf s l).prox.withdrawn = false) →
      guardTick s = { s with
        lanes := s.lanes.mapIdx fun i x => { x with prox := { x.prox with effPrio := effPrio s i, inCycle := false } }
        prox := { s.prox with edges := [], cycles := [], judgedAt := some s.now } }) ∧
    (∀ (q : Request) (k : Tick), q.open_ s = false → judgeOne (s, k) q = (s, k)) ∧
    (∀ (q : Request) (k : Tick), q.held = false → q.open_ s = true → (∀ r ∈ (laneOf s q.lane).plan, openWait r = false) →
      let ts := requestTrajs s (laneOf s q.lane) q.idx
      let rest := k.claims.filter fun c => c.lane != q.lane
      let w := setLane q.lane (fun x => { x with prox := { x.prox with released := false } }) s
      (judge s q.lane q.idx ts k.claims = none → needsConfirm w ts = false →
        judgeOne (s, k) q = (giveGo q.lane q.idx false w, { k with claims := rest ++ [claimOf (giveGo q.lane q.idx false w) q.lane] })) ∧
      (judge s q.lane q.idx ts k.claims = none → needsConfirm w ts = true →
        let u := setLane q.lane (fun x => { x with plan := x.plan.map fun r =>
          if r.idx = q.idx then { r with verdict := .tentative s.now (nextExchange s.now) } else r }) w
        judgeOne (s, k) q = (u, { k with claims := rest ++ [claimOf u q.lane] })) ∧
      (∀ b, judge s q.lane q.idx ts k.claims = some b →
        let v := noteBlock q.lane b w
        let u := holdRecord q.lane q.idx { v with prox := { v.prox with holdVerdicts := v.prox.holdVerdicts + 1 } }
        ∃ e r, judgeOne (s, k) q = (u, {
            claims := rest ++ [claimOf u q.lane, { lane := q.lane, trajs := r, reservation := true }], edges := k.edges ++ e }) ∧
          ∀ h, (laneOf u q.lane).hold = some h → r = requestTrajs u (heldView u (laneOf u q.lane) h) q.idx)) ∧
    (∀ l h r, (laneOf s l).hold = some h → ((laneOf s l).plan.find? fun x => x.idx = h.idx) = some r → 0 < s.prof.prox.tAge →
      effPrio s l = min 31 (r.prio + (s.now - h.since) / (1000 * s.prof.prox.tAge))) ∧
    (∀ l rest t0, s.prox.cycles = [(l :: rest, t0)] → max s.now t % 5000 ≠ 0 →
      (max s.now t < t0 + 1000 * s.prof.prox.tDead → exec (.deadlockBreak t) s = .next (passTo t s)) ∧
      (t0 + 1000 * s.prof.prox.tDead ≤ max s.now t → s.jobs.syncs = [] → (laneOf s l).prox.released = false →
        let u := setLane l (fun x => { x with prox := { x.prox with released := true, withdrawn := false } }) (passTo t s)
        exec (.deadlockBreak t) s = .next (raise 0x3061 (natLE 1 l ++ natLE 1 (rest.length + 1)) { u with
          prox := { u.prox with deadlockBreaks := satInc u.prox.deadlockBreaks, cycles := [(l :: rest, max s.now t)] } })))

/-- A summary or a SYNC_REPORT from a member outside the machine changes nothing but the time. A summary from another member waits with its
arrival time for the next guard tick. PEER_SUMMARY_SEND of a judging arbiter with other members and no entry to send puts out one empty
summary frame for the exchange time and counts SEQ; with no other member it does nothing. A report for a SYNC that is open keeps that
member's entries. PEER_SILENT of a member that is present and not silent, of which nothing has come for SILENT_PERIODS × 20 µs since its
summary was due, makes it silent, counts the episode and raises PEER_SILENT; before that it changes nothing. PROX_SEP_SET, PROX_ZONE_CTRL
and PROX_PLUME_SET are REJECTED_PARAM for an operand out of range and REJECTED_STATE for a LAUNCH other than 0 with no job; otherwise, with
a Ripple place, the change is posted for a guard tick, and as it applies the rule is replaced and RULES_CRC computed anew. (R192, R193,
R194, R201, R202, R205, R206, R210, R211) -/
def Obligations.PeersAndRules : Prop :=
  ∀ (t : Ns) (s : State),
    (∀ m : Summary, (otherMembers s).contains m.member = false → exec (.peerSummaryReceive t m) s = .next (passTo t s)) ∧
    (∀ m : Summary, (otherMembers s).contains m.member = true → s.members.conflict.getLsbD m.member = false →
      exec (.peerSummaryReceive t m) s = .next (setPeer m.member (fun p => { p with inbox := p.inbox ++ [(max s.now t, m)] }) (passTo t s))) ∧
    (otherMembers s = [] → exec (.peerSummarySend t) s = .next (passTo t s)) ∧
    (max s.now t % 20000 ≠ 0 → exec (.peerSummarySend t) s = .next (passTo t s)) ∧
    (s.prox.run = true → s.members.idConflict = false → s.members.memberConflict = false → otherMembers s ≠ [] → s.jobs.syncs = [] →
      max s.now t % 20000 = 0 →
      let x := max s.now t
      (∀ l ∈ allLanes s, laneEntry (passTo t s) x l = none ∧ zoneEntry (passTo t s) x l = none) →
      exec (.peerSummarySend t) s = .next { passTo t s with
        sent := .peer 1 (peerHeader 1 0 1 0 0 x s) :: s.sent, prox := { s.prox with
          seq := s.prox.seq + 1, sentPrio := ((x, []) :: s.prox.sentPrio).take 64 } }) ∧
    (∀ m x es, (otherMembers s).contains m = false → exec (.syncReportReceive t m x es) s = .next (passTo t s)) ∧
    (∀ m x (e : SyncEntry) (p : SyncPoint), (otherMembers s).contains m = true → s.jobs.syncs = [p] → p.id = e.sync → p.released = none →
      p.failed = none → p.members.testBit m = true → e.faulted = false →
      exec (.syncReportReceive t m x [e]) s = .next { passTo t s with jobs := { s.jobs with syncs := [{ p with
        reports := { member := m, x := x, came := max s.now t, entries := [e] } :: p.reports.filter fun r => r.member != m }] } }) ∧
    (∀ m, (peerOf s m).present = false ∨ (peerOf s m).silent = true ∨ (peerOf s m).inbox ≠ [] ∨
        max s.now t < (peerOf s m).dueAt + 20000 * s.prof.prox.silentPeriods →
      exec (.peerSilent t m) s = .next (passTo t s)) ∧
    (∀ m, (peerOf s m).present = true → (peerOf s m).silent = false → (peerOf s m).inbox = [] →
      (peerOf s m).dueAt + 20000 * s.prof.prox.silentPeriods ≤ max s.now t →
      let u := setPeer m (fun p => { p with silent := true }) (passTo t s)
      exec (.peerSilent t m) s = .next (raise 0x3063 (natLE 1 m)
        { u with prox := { u.prox with silentEpisodes := satInc u.prox.silentEpisodes } })) ∧
    (∀ h : Hdr, Ready h s →
      (∀ a b d l, (15 < a ∨ 15 < b ∨ 10000000 < d ∨ d < s.prof.prox.sepFloor) →
        exec (.proxSepSet h a b d l) s = .next (endWith h.ref stParam (accept h 0x38 s))) ∧
      (∀ g m l, 7 < g → exec (.proxZoneCtrl h g m l) s = .next (endWith h.ref stParam (accept h 0x39 s))) ∧
      (∀ r x y n w l, (3 < r ∨ (x = 0 ∧ y = 0) ∨ 50000000 < n ∨ 1047198 < w) →
        exec (.proxPlumeSet h r x y n w l) s = .next (endWith h.ref stParam (accept h 0x3A s))) ∧
      (∀ a b d l, a ≤ 15 → b ≤ 15 → d ≤ 10000000 → s.prof.prox.sepFloor ≤ d → l ≠ 0 → s.jobs.tor = none →
        exec (.proxSepSet h a b d l) s = .next (endWith h.ref stState (accept h 0x38 s))) ∧
      (∀ a b d, a ≤ 15 → b ≤ 15 → d ≤ 10000000 → s.prof.prox.sepFloor ≤ d → ripplePlace (.proxSep a b d) s = true →
        exec (.proxSepSet h a b d 0) s = .next (ripplePost { work := .proxSep a b d, launch := alignUp (earliest s) 5000, host := true
                                                             tk := some h.ref, late := false, missing := [] } (accept h 0x38 s))) ∧
      (∀ g m, proxZoneCheck g m s = stDone → ripplePlace (.proxZone g m) s = true →
        exec (.proxZoneCtrl h g m 0) s = .next (ripplePost { work := .proxZone g m, launch := alignUp (earliest s) 5000, host := true
                                                             tk := some h.ref, late := false, missing := [] } (accept h 0x39 s))) ∧
      (∀ r x y n w, proxPlumeCheck r x y n w s = stDone → ripplePlace (.proxPlume r x y n w) s = true →
        exec (.proxPlumeSet h r x y n w 0) s = .next (ripplePost
          { work := .proxPlume r x y n w, launch := alignUp (earliest s) 5000, host := true, tk := some h.ref, late := false, missing := [] }
          (accept h 0x3A s)))) ∧
    (∀ a b d, a ≤ 15 → b ≤ 15 → s.prox.sep.length = 256 →
      let u := applyProxSep a b d s
      sepOf u a b = d ∧ sepOf u b a = d ∧ u.prox.rulesCrc = rulesCrcOf u ∧
        (∀ i j, i ≤ 15 → j ≤ 15 → ¬(i = a ∧ j = b) → ¬(i = b ∧ j = a) → sepOf u i j = sepOf s i j))

/-- TIME_QUALITY_UPDATE sets TIME_QUALITY to E_T and, where E_T stays on its side of HOLD_BOUND, raises nothing; where it first exceeds
HOLD_BOUND it raises TIME_BOUND_EXCEEDED. E_T is unbounded in FREE and ACQUIRING, the largest of the last 16 offsets plus TS_ERR or PPS_ERR
in COARSE and FINE, and 0 in MASTER. PTP_SYNC_RECEIVE from another sender than the parent, in another domain or with another time source,
and PTP_ANNOUNCE_RECEIVE with another time source, change nothing but the time; a Sync from the parent counts and hands its offset to the
servo. An offset above STEP_LIMIT steps the counter by it, rounded to a lane tick, where no job exists, and with a job it never steps: the
state becomes ACQUIRING and TIME_STEP_BLOCKED is raised once. SOURCE_LOST in FINE after SYNC_LOSS_N Sync intervals counts one loss and leads
to HOLDOVER. PPS_IN_EDGE keeps its offset from the nearest whole second and, with TIME_SOURCE PPS_IN, hands it to the servo. TIME_SET is
REJECTED_STATE with TIME_SOURCE PTP or while a job exists, and otherwise steps the counter to the time given. (R216, R221, R222, R223, R225,
R226, R228, R246) -/
def Obligations.TimeStatesAndSteps : Prop :=
  ∀ (t : Ns) (s : State),
    (let u := passTo t s
     let e := errorBound u
     (e ≤ s.prof.time.holdBound → s.time.clock.boundRaised = false → exec (.timeQualityUpdate t) s =
       .next (setClock (fun c => { c with etb := BitVec.ofNat 32 e, boundExceeded := false, boundRaised := false }) u)) ∧
     (s.prof.time.holdBound < e → s.prof.time.holdBound < s.time.clock.etb.toNat → exec (.timeQualityUpdate t) s =
       .next (setClock (fun c => { c with etb := BitVec.ofNat 32 e, boundExceeded := true }) u)) ∧
     (s.prof.time.holdBound < e → s.time.clock.etb.toNat ≤ s.prof.time.holdBound → s.time.clock.state ≠ .holdover →
       exec (.timeQualityUpdate t) s = .next (raise 0x5007 (natLE 4 e ++ natLE 4 0)
         (setClock (fun c => { c with etb := BitVec.ofNat 32 e, boundExceeded := true, boundRaised := true }) u)))) ∧
    (errorBound (passTo t s) ≤ s.prof.time.holdBound → s.time.clock.boundRaised = true → exec (.timeQualityUpdate t) s =
      .next (raise 0x5008 (natLE 4 (errorBound (passTo t s))) (setClock (fun c => { c with
        etb := BitVec.ofNat 32 (errorBound (passTo t s)), boundExceeded := false, boundRaised := false }) (passTo t s)))) ∧
    ((s.time.clock.state = .free ∨ s.time.clock.state = .acquiring) → errorBound s = 0xFFFFFFFF) ∧
    ((s.time.clock.state = .coarse ∨ s.time.clock.state = .fine) → errorBound s =
      min (s.time.clock.offsets.foldl max 0 + if s.prof.time.source = 1 then s.prof.time.ppsErr else s.prof.time.tsErr) 0xFFFFFFFF) ∧
    (s.time.clock.state = .master → errorBound s = 0) ∧
    (s.jobs.startRef = none →
      (∀ m : PtpSync, (s.prof.time.source ≠ 0 ∨ ownDomain s m.version m.domain = false ∨ s.time.clock.parent ≠ some m.sender) →
        exec (.ptpSyncReceive t m) s = .next (passTo t s)) ∧
      (∀ a : Announce, (s.prof.time.source ≠ 0 ∨ ownDomain s a.version a.domain = false) →
        exec (.ptpAnnounceReceive t a) s = .next (passTo t s))) ∧
    (∀ m : PtpSync, s.prof.time.source = 0 → ownDomain s m.version m.domain = true → s.time.clock.parent = some m.sender →
      let delta := roundDiv (65536 * ((rxStamp s m.port m.rx : Int) - m.origin) - m.correction) 65536
      let link := unit s.time.clock.linkDelay m.port 0
      let delay := if s.prof.time.p2p then link else s.time.clock.pathDelay.toNat
      exec (.ptpSyncReceive t m) s = .next (tryStart (takeOffset (delta - delay)
        (setClock (fun c => { c with
          syncRx := c.syncRx + 1, lastSync := some c.now, masterDelta := delta, parentPort := BitVec.ofNat 2 m.port
          pathDelay := if s.prof.time.p2p then BitVec.ofNat 32 link else c.pathDelay }) (passTo t s))))) ∧
    (∀ a : Announce, s.prof.time.source = 0 → ownDomain s a.version a.domain = true → exec (.ptpAnnounceReceive t a) s =
      .next (tryStart (bmca (setClock (fun c => { c with
        foreign := (c.now, a) :: c.foreign.filter fun x => x.2.sender != a.sender }) (passTo t s))))) ∧
    (∀ off : Int, s.time.clock.state = .fine → s.prof.time.stepLimit < off.natAbs →
      (s.jobs.state = 0 → takeOffset off s = setTimeState .acquiring (stepTime ((s.now : Int) - 5 * roundDiv off 5).toNat
        (setClock (fun c => { c with offset := satS 32 off }) s))) ∧
      (s.jobs.state ≠ 0 → (takeOffset off s).now = s.now ∧ (takeOffset off s).time.clock.steps = s.time.clock.steps ∧
        (takeOffset off s).time.clock.state = .acquiring ∧ (takeOffset off s).time.clock.stepBlocked = true)) ∧
    (∀ e, s.prof.time.source = 0 → s.time.clock.ppsPresent = false → s.time.clock.state = .fine → s.time.clock.lastSync = some e →
      e + s.prof.time.syncLossN * logPeriod s.prof.time.logSync ≤ max s.now t →
      exec (.sourceLost t false) s = .next (tryStart (setTimeState .holdover
        (setClock (fun c => { c with sourceLoss := satInc c.sourceLoss }) (passTo t s))))) ∧
    (∀ e a, s.prof.time.source = 1 → s.time.clock.ppsPresent = true → s.time.clock.state = .fine → s.time.clock.lastPps = some e →
      e + 1100000000 ≤ max s.now t →
      exec (.sourceLost t a) s = .next (tryStart (setTimeState .holdover (setClock (fun c => { c with sourceLoss := satInc c.sourceLoss })
        (raise 0x500E [] (setClock (fun c => { c with ppsPresent := false }) (passTo t s))))))) ∧
    (s.prof.time.source = 0 → s.time.clock.ppsPresent = false → s.prof.time.slaveOnly = false → liveForeign (passTo t s) = [] →
      exec (.sourceLost t true) s = .next (tryStart (becomeMaster (setClock (fun c => { c with foreign := [] }) (passTo t s))))) ∧
    (∀ w, w < (trigIn s 8).filter.toNat → exec (.ppsInEdge t w) s =
      .next (tryStart (setTrigIn 8 (fun i => { i with glitch := satInc i.glitch }) (passTo t s)))) ∧
    (∀ w, (trigIn s 8).filter.toNat ≤ w →
      let r := max s.now t % 1000000000
      let off : Int := if r < 500000000 then (r : Int) else (r : Int) - 1000000000
      let v := captureEdge 8 true w (setClock (fun c => { c with ppsPresent := true, lastPps := some c.now })
        (setPps (fun p => { p with inOffset := off }) (passTo t s)))
      (s.prof.time.source = 1 → exec (.ppsInEdge t w) s = .next (tryStart (takeOffset off v))) ∧
      (s.prof.time.source ≠ 1 → exec (.ppsInEdge t w) s = .next (tryStart v))) ∧
    (∀ (h : Hdr), Ready h s →
      ((s.prof.time.source = 0 ∨ s.jobs.state ≠ 0) → ∀ f n c, exec (.timeSet h f n c) s =
        .next (endWith h.ref stState (accept h 0x44 s))) ∧
      (s.prof.time.source ≠ 0 → s.jobs.state = 0 → ∀ f n c, 1000000000 ≤ n ∨ n % 5 ≠ 0 → exec (.timeSet h f n c) s =
        .next (endWith h.ref stParam (accept h 0x44 s))) ∧
      (s.prof.time.source ≠ 0 → s.jobs.state = 0 → ∀ f n c, n < 1000000000 → n % 5 = 0 → exec (.timeSet h f n c) s =
        .next (endWith h.ref stDone (stepTime (c * 1000000000 + n) (accept h 0x44 s)))))

/-- A module that is not MASTER sends neither Sync nor Announce. As MASTER it sends on each of its four ports a Sync with its time, with two
steps an empty one and a Follow_Up with it, and counts its sequence number, and an Announce of its own data. With E2E and a parent it sends
a Delay_Req and remembers when; with no parent it sends none; with P2P it sends a Pdelay_Req on each port. A Delay_Resp to no request or of
another domain changes nothing but the time; one that answers a request sets the mean path delay to half the sum of both directions, its
correctionField taken off. A master with E2E answers a Delay_Req, and with P2P a Pdelay_Req is answered and a Pdelay_Resp sets the link
delay of its port. A management GET is answered with its data set and any SET with the error NOT_SUPPORTED. A Sync passing the switch has
its residence time, and with P2P the ingress port's link delay, added to the correctionField, with E2E so has a Delay_Req; with P2P Pdelay
messages end at the port, and other frames pass unchanged; a UDP checksum follows the correctionField. (R217, R218, R220, R221) -/
def Obligations.PtpMessages : Prop :=
  ∀ (t : Ns) (s : State),
    (s.time.clock.state ≠ .master → exec (.ptpSyncSend t) s = .next (passTo t s) ∧
      exec (.ptpAnnounceSend t) s = .next (passTo t s)) ∧
    (s.time.clock.state = .master →
      let ticked := setClock (fun c => { c with seqSync := c.seqSync + 1 }) (passTo t s)
      let stampOf := fun p : Nat => stamp12 (txStamp s p (max s.now t))
      (s.prof.time.twoStep = false → exec (.ptpSyncSend t) s = .next ((List.range 4).foldl (fun u p =>
        sendPtp p 0 s.time.clock.seqSync.toNat (stampOf p) u) ticked)) ∧
      (s.prof.time.twoStep = true → exec (.ptpSyncSend t) s = .next ((List.range 4).foldl (fun u p =>
        sendPtp p 8 s.time.clock.seqSync.toNat (stampOf p) (sendPtp p 0 s.time.clock.seqSync.toNat (stamp12 0) u)) ticked)) ∧
      exec (.ptpAnnounceSend t) s = .next ((List.range 4).foldl (fun u p =>
        sendPtp p 11 s.time.clock.seqAnnounce.toNat (ownAnnounce s).bytes u)
        (setClock (fun c => { c with seqAnnounce := c.seqAnnounce + 1 }) (passTo t s)))) ∧
    (s.prof.time.p2p = false →
      (s.time.clock.parent = none → exec (.ptpDelayReqSend t) s = .next (passTo t s)) ∧
      (s.time.clock.parent ≠ none →
        let t3 := txStamp s s.time.clock.parentPort.toNat (max s.now t)
        exec (.ptpDelayReqSend t) s =
          .next (sendPtp s.time.clock.parentPort.toNat 1 s.time.clock.seqDelay.toNat (stamp12 t3) (setClock (fun c => { c with
            seqDelay := c.seqDelay + 1, delayReq := (0, s.time.clock.seqDelay.toNat, t3) :: c.delayReq.take 15 }) (passTo t s))))) ∧
    (s.prof.time.p2p = true → exec (.ptpDelayReqSend t) s = .next ((List.range 4).foldl (fun u p =>
      sendPtp p 2 s.time.clock.seqDelay.toNat (stamp12 0) u) (setClock (fun c => { c with
        seqDelay := c.seqDelay + 1
        delayReq := (List.range 4).map (fun p => (p + 1, s.time.clock.seqDelay.toNat, txStamp s p (max s.now t))) ++ c.delayReq.take 12 })
        (passTo t s)))) ∧
    (∀ d q t4 k, d ≠ s.prof.time.domain ∨ (∀ x ∈ s.time.clock.delayReq, ¬(x.1 = 0 ∧ x.2.1 = q)) →
      exec (.ptpDelayMessage t (.delayResp d q t4 k)) s = .next (passTo t s)) ∧
    (∀ (q : Nat) (t3 t4 : Ns) (k : Int), s.time.clock.delayReq = [(0, q, t3)] →
      exec (.ptpDelayMessage t (.delayResp s.prof.time.domain q t4 k)) s = .next (setClock (fun c => { c with
        pathDelay := satU 32 (roundDiv (s.time.clock.masterDelta + roundDiv (65536 * ((t4 : Int) - (t3 : Int)) - k) 65536) 2)
        delayReq := [] }) (passTo t s))) ∧
    (∀ p sender q rx k, s.time.clock.state = .master → s.prof.time.p2p = false →
      exec (.ptpDelayMessage t (.delayReq p s.prof.time.domain sender q rx k)) s =
        .next (sendPtp p 9 q (stamp12 (rxStamp s p rx) ++ intLE 8 k ++ natLE 8 sender) (passTo t s))) ∧
    (∀ p q rx, s.prof.time.p2p = true → exec (.ptpDelayMessage t (.pdelayReq p q rx)) s =
      .next (sendPtp p 3 q (stamp12 (rxStamp s p rx) ++ stamp12 (txStamp s p (max s.now t))) (passTo t s))) ∧
    (∀ (p q : Nat) (t1 t2 t3 t4 : Ns) (k : Int), s.time.clock.delayReq = [(p + 1, q, t1)] →
      exec (.ptpDelayMessage t (.pdelayResp p q t2 t3 t4 k)) s = .next (setClock (fun c => { c with
        linkDelay := modUnit c.linkDelay p fun _ => (clampI 0 0xFFFFFFFF
          (roundDiv (65536 * ((rxStamp s p t4 : Int) - (t1 : Int) - ((t3 : Int) - (t2 : Int))) - k) 131072)).toNat
        delayReq := [] }) (passTo t s))) ∧
    (∀ p, exec (.ptpManagement t p .set) s = .next (sendPtp p 13 0 [0xFF] (passTo t s)) ∧
      exec (.ptpManagement t p .getOther) s = .next (sendPtp p 13 0 [0xFF] (passTo t s)) ∧
      exec (.ptpManagement t p .getDefaultDS) s = .next (sendPtp p 13 0 (defaultDS s) (passTo t s)) ∧
      exec (.ptpManagement t p .getCurrentDS) s = .next (sendPtp p 13 0 (currentDS s) (passTo t s)) ∧
      exec (.ptpManagement t p .getParentDS) s = .next (sendPtp p 13 0 (parentDS s) (passTo t s)) ∧
      exec (.ptpManagement t p .getTimePropertiesDS) s = .next (sendPtp p 13 0 (timePropertiesDS s) (passTo t s))) ∧
    (∀ f : TcFrame,
      let stay : Int := (txStamp s f.outPort f.egress : Int) - (rxStamp s f.inPort f.ingress : Int)
      let link : Int := if s.prof.time.p2p then (unit s.time.clock.linkDelay f.inPort 0 : Nat) else 0
      let sum := fun corr : Int => if f.transport = 0 then [] else natLE 2 (tcChecksum f corr)
      (f.kind = 0 ∨ (f.kind = 1 ∧ s.prof.time.p2p = false) →
        let corr := f.correction + 65536 * stay + 65536 * link
        exec (.tcFrameForward t f) s = .next (sendPtp f.outPort f.kind f.seq (intLE 8 corr ++ sum corr)
          (setClock (fun c => { c with tcFrames := c.tcFrames + 1 }) (passTo t s)))) ∧
      (s.prof.time.p2p = true → (f.kind = 2 ∨ f.kind = 3 ∨ f.kind = 10) → exec (.tcFrameForward t f) s = .next (passTo t s)) ∧
      (f.kind ≠ 0 → (f.kind ≠ 1 ∨ s.prof.time.p2p = true) → (s.prof.time.p2p = false ∨ f.kind ∉ [2, 3, 10]) →
        exec (.tcFrameForward t f) s = .next (sendPtp f.outPort f.kind f.seq (intLE 8 f.correction ++ sum f.correction) (passTo t s))))

/-- For a descriptor that may start, TRIG_OUT_SET with an output above 15, a FINE above 63, or a width of 0 on a pulse that fires once is
REJECTED_PARAM, one with REF TOR and no job REJECTED_STATE, and one that passes is posted with a Ripple place for the lane tick of its first
edge, as a once-only pulse at least 1 µs ahead for that of its start, and REJECTED_BUSY without one. TRIG_OUT_STOP, at once or at a time in
the one reference of its outputs, with a place is posted and waits until its outputs are idle. TRIG_IN_CFG sets the edge selection, filter
and encoder of an input that no LINE job uses; TRIG_IN_RING with a bad base or size is REJECTED_PARAM; PPS_OUT_CFG with a mode of 3 is
REJECTED_PARAM and a good one waits for the next whole second. An edge due at E is driven at the lane tick at or before E plus k steps of
5/64 ns. TRIG_OUT_EDGE of an output that is not enabled and has no trailing edge changes nothing but the time; at its time it drives the
leading edge, or with TOGGLE the other level, and a trailing edge that is due. An input's pulse shorter than FILTER counts in GLITCH and an
edge that EDGE does not select is not captured. A falling edge that EDGE selects, of an input that no LINE job uses, is captured with its
time and number; a rising one is captured, and is a home edge and a line trigger too; a falling edge of PPS_IN is one of input 8.
PPS_OUT_EDGE drives the leading edge at a whole second in mode 1, and away from one with the output low changes nothing. (R229, R230, R231,
R232, R233, R234, R235, R244, R245) -/
def Obligations.TriggersAndPps : Prop :=
  ∀ (t : Ns) (s : State),
    (∀ (h : Hdr), Ready h s →
      (∀ n r a g f p st w c, (r = true ∨ s.jobs.tor.isSome) → (15 < n ∨ 63 < f ∨ (g = false ∧ p = 0 ∧ w = 0)) →
        exec (.trigOutSet h n r a g f p st w c) s = .next (endWith h.ref stParam (accept h 0x40 s))) ∧
      (∀ n a g f p st w c, s.jobs.tor = none → exec (.trigOutSet h n false a g f p st w c) s =
        .next (endWith h.ref stState (accept h 0x40 s))) ∧
      (∀ n a f st w c, n ≤ 15 → f ≤ 63 → 5 ≤ w → s.now + 2000 ≤ st →
        let d : TrigSched :=
          { refPtp := true, start := st, fine := f, period := 0, width := w, count := c, activeLow := a, toggle := false }
        ripplePlace (.trigOut n d) s = true → exec (.trigOutSet h n true a false f 0 st w c) s =
          .next (ripplePost { work := .trigOut n d, launch := st / 5 * 5, host := true, tk := some h.ref, late := false, missing := [] }
            (accept h 0x40 s))) ∧
      (∀ n r a g f p st w c x, refTime (!r) st s = some x →
        (trigCheck n f p x w c r a g s = none → exec (.trigOutSet h n r a g f p st w c) s =
          .next (endWith h.ref stParam (accept h 0x40 s))) ∧
        (∀ d, trigCheck n f p x w c r a g s = some d →
          (ripplePlace (.trigOut n d) s = true → exec (.trigOutSet h n r a g f p st w c) s =
            .next (postHost (.trigOut n d) h.ref (d.start / 5 * 5) (accept h 0x40 s))) ∧
          (ripplePlace (.trigOut n d) s = false → exec (.trigOutSet h n r a g f p st w c) s =
            .next (endWith h.ref stBusy (accept h 0x40 s))))) ∧
      (∀ (m : BitVec 16) (l : Nat), m ≠ 0 → ripplePlace (.trigStop m) s = true →
        (l = 0 ∨ ∀ n : Nat, n ≤ 15 → m.getLsbD n = true → (trigOut s n).sched.refPtp = true) → exec (.trigOutStop h m l) s =
          .next (let u := postHost (.trigStop m) h.ref l (accept h 0x41 s)
                 settleStops { u with time := { u.time with stops := u.time.stops ++ [(h.ref, m)] } })) ∧
      (∀ (m : BitVec 16) (l tor : Nat), m ≠ 0 → ripplePlace (.trigStop m) s = true → l ≠ 0 → s.jobs.tor = some tor →
        (∀ n : Nat, n ≤ 15 → m.getLsbD n = true → (trigOut s n).sched.refPtp = false) → exec (.trigOutStop h m l) s =
          .next (let u := postHost (.trigStop m) h.ref (tor + l) (accept h 0x41 s)
                 settleStops { u with time := { u.time with stops := u.time.stops ++ [(h.ref, m)] } })) ∧
      (∀ n : Nat, n ≤ 15 → (trigOut s n).enable = true → s.time.stops = [] →
        ripplePlace (.trigStop (BitVec.ofNat 16 (2 ^ n))) s = true → exec (.trigOutStop h (BitVec.ofNat 16 (2 ^ n)) 0) s =
          .next (let u := postHost (.trigStop (BitVec.ofNat 16 (2 ^ n))) h.ref 0 (accept h 0x41 s)
                 { u with time := { u.time with stops := [(h.ref, BitVec.ofNat 16 (2 ^ n))] } })) ∧
      (∀ n e f k, n ≤ 8 → e ≤ 3 → f ≤ 255 → (k ≤ 15 ∨ k = 0xFF) → (∀ x, s.jobs.lineTrigger = some x → x.1 ≠ n) →
        exec (.trigInCfg h n e f k) s = .next (endWith h.ref stDone (setTrigIn n (fun i => { i with
          edge := BitVec.ofNat 2 e, filter := BitVec.ofNat 8 f, enc := BitVec.ofNat 8 k }) (accept h 0x42 s)))) ∧
      (∀ n e f k, (8 < n ∨ 3 < e ∨ 255 < f ∨ (15 < k ∧ k ≠ 0xFF)) →
        exec (.trigInCfg h n e f k) s = .next (endWith h.ref stParam (accept h 0x42 s))) ∧
      (∀ b n, (b % 32 ≠ 0 ∨ n < 64 ∨ 65536 < n) → exec (.trigInRing h b n) s = .next (endWith h.ref stParam (accept h 0x43 s))) ∧
      (∀ b k, b % 32 = 0 → 6 ≤ k → k ≤ 16 → hostMem b (32 * 2 ^ k) s = true →
        let u := accept h 0x43 s
        exec (.trigInRing h b (2 ^ k)) s = .next (endWith h.ref stDone (drainAll 288 { u with time := { u.time with
          ringSet := true, ringBase := BitVec.ofNat 64 b, ringSize := 2 ^ k, ringNext := 0 } }))) ∧
      (∀ w, exec (.ppsOutCfg h 3 w) s = .next (endWith h.ref stParam (accept h 0x45 s))) ∧
      (∀ m w, m = 0xFF ∨ (m ≤ 2 ∧ 1 ≤ w ∧ w ≤ 500000) → exec (.ppsOutCfg h m w) s = .next (let u := accept h 0x45 s
        { u with time := { u.time with pps := { u.time.pps with pending := u.time.pps.pending ++ [(m, w, some h.ref)] } } }))) ∧
    (∀ e fine, (edgePlace e fine).2 < 64 ∧
      64 * (edgePlace e fine).1 + 5 * (edgePlace e fine).2 = 64 * (e / 5 * 5) + 5 * ((128 * (e % 5) + 5) / 10 + fine)) ∧
    (∀ n, (trigOut s n).repl = none → (trigOut s n).fall = none → (trigOut s n).enable = false →
      exec (.trigOutEdge t n) s = .next (passTo t s)) ∧
    (∀ n, (trigOut s n).repl = none → (trigOut s n).fall = none → (trigOut s n).enable = true → (trigOut s n).sched.toggle = false →
      (trigOut s n).next / 5 * 5 ≤ max s.now t → exec (.trigOutEdge t n) s = .next (camTrigs 2 n noProduct (advanceTrig n
        (setTrig n (fun o => { o with fall := some ((trigOut s n).next + (trigOut s n).sched.width) })
          (driveTrig n true (trigOut s n).next (passTo t s)))))) ∧
    (∀ n e, (trigOut s n).repl = none → (trigOut s n).fall = some e → e / 5 * 5 ≤ max s.now t → exec (.trigOutEdge t n) s =
      .next (settleStops (driveTrig n false e (setTrig n (fun o => { o with fall := none }) (passTo t s))))) ∧
    (∀ n, (trigOut s n).repl = none → (trigOut s n).fall = none → (trigOut s n).enable = true → (trigOut s n).sched.toggle = true →
      (trigOut s n).next / 5 * 5 ≤ max s.now t → exec (.trigOutEdge t n) s = .next (camTrigs 2 n noProduct (advanceTrig n
        (driveTrig n (!(trigOut s n).level) (trigOut s n).next (passTo t s))))) ∧
    (∀ w, exec (.trigInCapture t 8 false w) s = .next (captureEdge 8 false w (passTo t s))) ∧
    (∀ n w, n < 8 → (trigIn s n).filter.toNat ≤ w → (trigIn s n).edge.getLsbD 0 = true →
      (∀ e, (trigIn s n).last = some e → e + 20 ≤ max s.now t) → n < s.time.trigIn.length →
      exec (.trigInCapture t n true w) s =
        .next (lineTrigger (16 + n) (checkScript (homeEdge true n (captureEdge n true w (passTo t s)))))) ∧
    (∀ n w, n < 8 → w < (trigIn s n).filter.toNat → n < s.time.trigIn.length → exec (.trigInCapture t n true w) s =
      .next (setTrigIn n (fun i => { i with glitch := satInc i.glitch }) (passTo t s))) ∧
    (∀ n w, n < 8 → (trigIn s n).filter.toNat ≤ w → (trigIn s n).edge.getLsbD 0 = false →
      exec (.trigInCapture t n true w) s = .next (passTo t s)) ∧
    (∀ n w, n < 8 → (trigIn s n).filter.toNat ≤ w → (trigIn s n).edge.getLsbD 1 = true → (trigIn s n).last = none →
      (trigIn s n).fifo.length < 32 → n < s.time.trigIn.length → s.time.ringSet = false → s.jobs.lineTrigger = none →
      ∃ u c, exec (.trigInCapture t n false w) s = .next u ∧ u = { passTo t s with time := u.time } ∧
        (trigIn u n).captures = (trigIn s n).captures + 1 ∧ (trigIn u n).fifo = (trigIn s n).fifo ++ [c] ∧
        c.time = max s.now t ∧ c.rising = false ∧ c.seq = BitVec.ofNat 16 (trigIn s n).captures.toNat) ∧
    ((∀ f, s.time.pps.fall = some f → max s.now t < f) → max s.now t % 1000000000 = 0 →
      secondDriven s (max s.now t / 1000000000) = false → s.time.pps.pending = [] → s.time.pps.mode = 1 →
      exec (.ppsOutEdge t) s = .next (drivePps true (max s.now t) (setPps (fun p => { p with
        driven := noteSecond (max s.now t / 1000000000) p.driven, fall := some (max s.now t + 1000 * p.width.toNat) }) (passTo t s)))) ∧
    (∀ f, s.time.pps.fall = some f → f ≤ max s.now t → exec (.ppsOutEdge t) s =
      .next (drivePps false (max s.now t) (setPps (fun p => { p with fall := none }) (passTo t s)))) ∧
    ((∀ f, s.time.pps.fall = some f → max s.now t < f) → max s.now t % 1000000000 ≠ 0 →
      exec (.ppsOutEdge t) s = .next (passTo t s))

/-- RIPPLE_FIRE before every pending launch changes nothing but the time where no periodic latch is owed. With one pending action that is
due, the action leaves Ripple, FIRED counts and LAST_TICK is its launch tick; a LAYER_START starts the layer's lanes, a TRIG_SCHED comes
into force and its descriptor ends, and a separation rule is replaced, which ends DONE. RIPPLE_CANCEL of an action that does not name the
unit, or more than 200 ns before its launch, changes nothing; a LAYER_START or SYNC_RELEASE keeps its place with the unit noted as missing;
a host's TRIG_SCHED is removed, its descriptor ends with DOMAIN_RESET and RIPPLE_CANCELLED names the kind, the tick and the unit. (R236,
R238, R239, R240) -/
def Obligations.RippleActionsFireAndCancel : Prop :=
  ∀ (t : Ns) (s : State),
    ((∀ a ∈ actions s, max s.now t < a.launch) → s.still.regionSet = false → s.jobs.startRef = none → exec (.rippleFire t) s = .next (passTo t s)) ∧
    (∀ a, s.time.ripple.actions = [a] → a.launch ≤ max s.now t → s.still.regionSet = false → s.jobs.startRef = none →
      let v := setRipple (fun r => { r with
        actions := [], fired := r.fired + 1, lastTick := BitVec.ofNat 64 a.launch
        late := if a.late then satInc r.late else r.late }) (passTo t s)
      (∀ id, a.work = .syncRelease id → exec (.rippleFire t) s = .next v) ∧
      (∀ i, a.work = .layerStart i → exec (.rippleFire t) s = .next (layerStart i v)) ∧
      (∀ n d, a.work = .trigOut n d → exec (.rippleFire t) s =
        .next (actionDone a 0 0 (setTrig n (fun o => { o with late := a.late }) (installSched n d v)))) ∧
      (∀ x y d, a.work = .proxSep x y d → exec (.rippleFire t) s = .next (ruleDone a (bumpOverride 4 true (applyProxSep x y d v))))) ∧
    (∀ n u a, (actions s)[n]? = some a →
      (actionNames (passTo t s) u a.work = false ∨ max s.now t + 200 < a.launch → exec (.rippleCancel t n u) s = .next (passTo t s)) ∧
      (actionNames (passTo t s) u a.work = true → a.launch ≤ max s.now t + 200 →
        (a.work.firesAnyway = true → exec (.rippleCancel t n u) s = .next (setRipple (fun r => { r with
          actions := r.actions.modify n fun a => { a with missing := a.missing ++ [u] } }) (passTo t s))) ∧
        (∀ r k d, a.tk = some r → a.work = .trigOut k d → s.time.stops = [] → exec (.rippleCancel t n u) s =
          .next (raise 0x500D (natLE 1 7 ++ natLE 8 a.launch ++ natLE 1 u.1 ++ natLE 1 u.2) (endWith r stReset
            (setRipple (fun r => { r with actions := r.actions.eraseIdx n, cancelled := satInc r.cancelled }) (passTo t s)))))))

/-- SPL_LINK_UP of a port that is down brings it to UP with the transmitter values written for its next training, raises SPL_LINK_UP and
starts the enumeration where that is allowed, which it is not with a job in EXPOSE. SPL_LINK_DOWN of a port in use counts a lock loss,
raises the event and loses every node of the port; of a port that is not up it does nothing. SPL_HI_BER of hop 1 puts the port in HI_BER and
counts. LINKDN_RECEIVE for reason 1 loses the nodes beyond its sender, and a block of a type that R249 does not list counts as unknown and
does nothing else. NODE_SILENCE loses a node with beams after 8 µs without a unit, one without beams after three of its units have not come,
and does nothing before. ENUMERATION of an idle port that may enumerate sends DISCOVER to 0x1E, and of a port already at it does nothing.
DELAY_MEASURE of a port asks every node that is present for 64 echoes. ECHO_RECEIVE keeps one round trip while fewer than 64 have come, the
64th gives the delay, and drops an echo with a bad CRC. NODE_UNIT_RECEIVE with a bad CRC changes nothing, a good one of a node without beams
brings its status and inputs. A good frame of a node is taken in, and a good answer to a request reaches who asked, a descriptor's its
descriptor. A service frame of a bad CRC counts in SVC_CRC_ERR. SERVICE_RETRY sends a request again once after 5 ms; SERVICE_TIMEOUT after
10 ms ends a descriptor's request with TIMEOUT. (R249, R256, R263, R265, R267, R271, R272, R274, R275, R276) -/
def Obligations.PortsAndNodesComeAndGo : Prop :=
  ∀ (t : Ns) (p : Nat) (s : State), p < s.variant.ports →
    ((portOf s p).link = 0 → s.power.blockReset = [] → s.jobs.state = 2 → exec (.splLinkUp t p) s = .next (raise 0x4001 (natLE 1 p)
      (setPort p (fun q => { q with
        link := 2, txSwing := q.swingNext, txDeemph := q.deemphNext, enumDone := false, enumHop := 0, enumPhase := .idle })
        (passTo t s)))) ∧
    (linkUp s p = false → (∀ u ∈ s.power.blockReset, u ≠ (2, p)) →
      let v := raise 0x4001 (natLE 1 p) (setPort p (fun q => { q with
        link := 2, txSwing := q.swingNext, txDeemph := q.deemphNext, enumDone := false, enumHop := 0, enumPhase := .idle }) (passTo t s))
      exec (.splLinkUp t p) s = .next (if mayEnumerate v p (nodeCount v p + 1) then discoverNext p v else v)) ∧
    (linkUp s p = true → exec (.splLinkUp t p) s = .next (passTo t s) ∧
      exec (.splLinkDown t p) s = .next (loseFrom p 1 1 (raise 0x4002 (natLE 1 p)
        (setPort p (fun q => { q with link := 0, lockLosses := satInc q.lockLosses, svcOut := [] }) (passTo t s)))) ∧
      (∀ h, h ≠ 1 → exec (.splHiBer t p h) s = .next (raise 0x4003 (natLE 1 p ++ natLE 1 h) (passTo t s))) ∧
      exec (.splHiBer t p 1) s = .next (raise 0x4003 (natLE 1 p ++ natLE 1 1)
        (setPort p (fun q => { q with link := 3, hiBerEvents := satInc q.hiBerEvents, blockErr := satAdd q.blockErr 16 })
          { passTo t s with recorder := { s.recorder with blockErr := s.recorder.blockErr.modify p fun n => n + 16 } }))) ∧
    ((portOf s p).link = 0 → exec (.splLinkDown t p) s = .next (passTo t s) ∧ exec (.splHiBer t p 1) s = .next (passTo t s)) ∧
    (∀ h, (nodeOf s p h).present = true → exec (.linkdnReceive t p h ⟨0xB3, 1⟩) s =
      .next (loseFrom p (h + 1) 2 (setNode p h (fun n => { n with lastUnit := max s.now t }) (passTo t s))) ∧
      ∀ r, r ≠ 1 → exec (.linkdnReceive t p h ⟨0xB3, r⟩) s = .next (passTo t s)) ∧
    (∀ b h r : Nat, linkUp s p = true → blockTypes.contains b = false → exec (.linkdnReceive t p h ⟨b, r⟩) s =
      .next (setPort p (fun q => { q with unknownBlocks := satInc q.unknownBlocks }) (passTo t s))) ∧
    (∀ h, (nodeOf s p h).present = true → (nodeOf s p h).ident.beams = 0 →
      (silentAt (nodeOf s p h) h ≤ max s.now t → exec (.nodeSilence t p h) s = .next (loseFrom p h 3 (passTo t s))) ∧
      (max s.now t < silentAt (nodeOf s p h) h → exec (.nodeSilence t p h) s = .next (passTo t s))) ∧
    (∀ h, (nodeOf s p h).present = true → 0 < (nodeOf s p h).ident.beams →
      ((nodeOf s p h).lastUnit + 8000 ≤ max s.now t → exec (.nodeSilence t p h) s = .next (loseFrom p h 3 (passTo t s))) ∧
      (max s.now t < (nodeOf s p h).lastUnit + 8000 → exec (.nodeSilence t p h) s = .next (passTo t s))) ∧
    ((portOf s p).enumPhase ≠ .idle → exec (.enumeration t p) s = .next (passTo t s)) ∧
    ((portOf s p).enumPhase = .idle → mayEnumerate s p (nodeCount s p + 1) = true → exec (.enumeration t p) s =
      .next (sendReq p 0x1E 0x01 [] none 0 (setPort p (fun q => { q with
        enumHop := nodeCount s p + 1, enumPhase := .discover, enumDone := false }) (passTo t s)))) ∧
    (linkUp s p = true → exec (.delayMeasure t p) s = .next ((List.range 16).foldl (fun u k =>
      if (nodeOf u p (k + 1)).present then startMeasure p (k + 1) u else u) (passTo t s))) ∧
    (linkUp s p = true → (nodeOf s p 1).present = true → (∀ h, 2 ≤ h → (nodeOf s p h).present = false) →
      exec (.delayMeasure t p) s = .next (startMeasure p 1 (passTo t s))) ∧
    (∀ h q r, 1 ≤ h → h ≤ 16 → measuring s p h = true → (nodeOf s p h).measured.length < 63 → p < s.link.ports.length →
      exec (.echoReceive t p h q (crc8 (natLE 1 0xB2 ++ natLE 1 h ++ natLE 1 q)) r) s =
        .next (setNode p h (fun n => { n with measured := n.measured ++ [r] }) (passTo t s))) ∧
    (∀ h q r, 1 ≤ h → h ≤ 16 → measuring s p h = true → (nodeOf s p h).measured.length = 63 → p < s.link.ports.length → (portOf s p).nodes.length = 16 →
      exec (.echoReceive t p h q (crc8 (natLE 1 0xB2 ++ natLE 1 h ++ natLE 1 q)) r) s =
        .next (measured p h (setNode p h (fun n => { n with measured := n.measured ++ [r] }) (passTo t s)))) ∧
    (∀ h q c r, c ≠ crc8 (natLE 1 0xB2 ++ natLE 1 h ++ natLE 1 q) → exec (.echoReceive t p h q c r) s = .next (passTo t s)) ∧
    (∀ src cy crc st i, crc ≠ crc8 (natLE 1 0xB4 ++ natLE 1 src ++ natLE 1 cy ++ natLE 4 st ++ natLE 8 i) →
      exec (.nodeUnitReceive t p src cy crc st i) s = .next (passTo t s)) ∧
    (∀ src cy st i, let h := src % 16 + 1
      (nodeOf s p h).present = true → (nodeOf s p h).ident.beams = 0 → bit (nodeOf s p h).status.toNat 0 = bit st 0 →
      exec (.nodeUnitReceive t p src cy (crc8 (natLE 1 0xB4 ++ natLE 1 src ++ natLE 1 cy ++ natLE 4 st ++ natLE 8 i)) st i) s =
        .next (setNode p h (fun n => { n with
          lastUnit := max s.now t, status := BitVec.ofNat 32 st
          inputs := if (nodeOf s p h).ident.cls = 2 then BitVec.ofNat 64 i else n.inputs }) (passTo t s))) ∧
    (∀ src cy st i, let h := src % 16 + 1
      (nodeOf s p h).present = true → (nodeOf s p h).ident.beams = 0 →
      exec (.nodeUnitReceive t p src cy (crc8 (natLE 1 0xB4 ++ natLE 1 src ++ natLE 1 cy ++ natLE 4 st ++ natLE 8 i)) st i) s =
        .next (nodeStatus p h st (setNode p h (fun n => { n with
          lastUnit := max s.now t, inputs := if (nodeOf s p h).ident.cls = 2 then BitVec.ofNat 64 i else n.inputs })
          (passTo t s)))) ∧
    (∀ (h : Nat) b, frameGood b = true → h ≠ 0x1E → (nodeOf s p h).present = true →
      let pl := (b.drop 8).take (field b 4 2)
      let v := (if (nodeOf s p h).ident.beams = 0 then passTo t s
        else setNode p h (fun n => { n with lastUnit := max s.now t }) (passTo t s))
      (bit (field b 3 1) 0 = false → exec (.serviceFrameReceive t p h b) s = .next (nodeFrame p h (field b 2 1) pl v)) ∧
      (∀ q, s.link.reqs = [q] → q.port = p → q.hop = h → q.seq = field b 6 2 → bit (field b 3 1) 0 = true →
        exec (.serviceFrameReceive t p h b) s = .next (answered q pl v))) ∧
    (∀ (h : Nat) b q r, frameGood b = true → h ≠ 0x1E → (nodeOf s p h).present = true → bit (field b 3 1) 0 = true → s.link.reqs = [q] →
      q.port = p → q.hop = h → q.seq = field b 6 2 → q.ref = some r →
      let pl := (b.drop 8).take (field b 4 2)
      exec (.serviceFrameReceive t p h b) s = .next (answerHost q r (field pl 0 1) (pl.drop 1) (dropReq q
        (if (nodeOf s p h).ident.beams = 0 then passTo t s
          else setNode p h (fun n => { n with lastUnit := max s.now t }) (passTo t s))))) ∧
    (∀ h b, frameGood b = false → exec (.serviceFrameReceive t p h b) s =
      .next (setPort p (fun q => { q with svcCrcErr := satInc q.svcCrcErr }) (passTo t s))) ∧
    (∀ r : SvcReq, s.link.reqs = [r] →
      (r.sent + 5000000 ≤ max s.now t → r.retried = false → exec (.serviceRetry t r.seq) s =
        .next (sendFrame r.port r.hop (svcFrame r.hop 0 r.type 0 r.seq r.payload)
          (setLink (fun k => { k with reqs := [{ r with retried := true }] }) (passTo t s)))) ∧
      (r.retried = true → exec (.serviceRetry t r.seq) s = .next (passTo t s)) ∧
      (max s.now t < r.sent + 10000000 → exec (.serviceTimeout t r.seq) s = .next (passTo t s)) ∧
      (∀ f, r.ref = some f → r.sent + 10000000 ≤ max s.now t → exec (.serviceTimeout t r.seq) s =
        .next (endWith f stTimeout (setPort r.port (fun x => { x with svcTimeouts := satInc x.svcTimeouts })
          { passTo t s with link := { s.link with reqs := [] } }))))

/-- SPL_CYCLE of a port whose link is down, or of a time that is no cycle start or does not lie in the cycle, changes nothing but the time.
In its cycle a port that is in use puts a frame on its line with the cycle number, LASER_EN (both permits high and no safe state) and OPEN,
and one slot for each of its beams, none where it has none. A good unit of a beam whose lane does not emit brings its mirror and detector
values to the lane, and its sample and status. FB_UNIT_RECEIVE of an absent node changes nothing; a unit of a beam that no lane has only
shows that its node is there; one with a bad CRC counts in FB_CRC_ERR. A unit whose FAULT bit stands faults a running lane with cause
HEAD_STATUS, and one with LATE with HEAD_LATE. A slot without a set-point and without a trim that counts carries 16 bytes of 0. (R134, R151,
R250, R251, R252, R255, R274) -/
def Obligations.CyclesAndFeedback : Prop :=
  ∀ (t : Ns) (p : Nat) (s : State),
    (∀ c, (portOf s p).link = 0 ∨ c % 500 ≠ 0 ∨ max s.now t < c ∨ c + 500 < max s.now t →
      exec (.splCycle t p c) s = .next (passTo t s)) ∧
    (∀ c, p < s.variant.ports → linkUp s p = true → c % 500 = 0 → c ≤ max s.now t → max s.now t ≤ c + 500 →
      (let r := slotsGo p c (min 16 (portBeams s p)) 0 (passTo t s);
       let f := b1 (laserEnable r.2) + 2 * b1 (portOpen r.2 (portOf r.2 p));
       let v := putCycle p (c / 500) f r.1 (quadChecks 4 r.1) (setPort p (fun q => { q with laserEn := laserEnable r.2 }) r.2);
       exec (.splCycle t p c) s = .next { v with sent := .cycle p (c / 500 % 4294967296) f r.1 (quadChecks 4 r.1) :: v.sent }) ∧
      ((∀ n ∈ (portOf s p).nodes, n.present = false) →
        let f := b1 (s.permit.high && !s.power.safe) + 2 * b1 (portOpen s (portOf s p))
        let v := putCycle p (c / 500) f [] (quadChecks 4 [])
          (setPort p (fun q => { q with laserEn := s.permit.high && !s.power.safe }) (passTo t s))
        exec (.splCycle t p c) s = .next { v with sent := .cycle p (c / 500 % 4294967296) f [] (quadChecks 4 []) :: v.sent })) ∧
    (∀ (src cy a b st l : Nat) (x y : Int), p < s.variant.ports → (nodeOf s p (src % 16 + 1)).present = true →
      laneOfBeam s p (src % 16 + 1) (bits src 4 2) = some l → bit st 0 = true →
      let c := cycleTime (max s.now t) cy
      let w := setPort p (fun q => { q with
        nodes := modUnit q.nodes (src % 16) fun n => { n with lastUnit := max s.now t } }) (passTo t s)
      let v := setLane l (fun k => { k with mirX := x, mirY := y, pdA := a, pdB := b })
        (setLoop l (fun k => slewDark c { k with missing := 0, lastFb := some c }) (settleLane l (missUpTo l c w)))
      (∀ c0, (laneOf s l).loop.lastFb = some c0 → c0 < c) → emitOf (laneOf v l) c = none →
      exec (.fbUnitReceive t p src cy (crc8 (fbBytes src cy a b x y st)) a b x y st) s = .next
        (fbStatus l st (endTail l c (followSample l c x y (darkSample l c a b (idleSample l c a b v)))))) ∧
    (∀ src cy crc a b x y st, (nodeOf s p (src % 16 + 1)).present = false →
      exec (.fbUnitReceive t p src cy crc a b x y st) s = .next (passTo t s)) ∧
    (∀ src cy crc a b x y st, p < s.variant.ports → (nodeOf s p (src % 16 + 1)).present = true →
      (∀ l ∈ allLanes s, ¬((laneRec s l).port = p ∧ (laneRec s l).hop = src % 16 + 1 ∧ (laneRec s l).beam = bits src 4 2)) →
      exec (.fbUnitReceive t p src cy crc a b x y st) s = .next (setPort p (fun q => { q with
        fbCrcErr := if crc = crc8 (fbBytes src cy a b x y st) then q.fbCrcErr else satInc q.fbCrcErr
        nodes := modUnit q.nodes (src % 16) fun n => { n with lastUnit := max s.now t } }) (passTo t s))) ∧
    (∀ l, (laneOf s l).state = .running → l < s.lanes.length →
      fbStatus l 0x08 s = faultAll 512 [(l, fcLane, 0x02, none)] (setLane l (fun x => { x with headFault := true }) s) ∧
      fbStatus l 0x10 s = faultAll 512 [(l, fcLane, 0x06, none)] (setLane l (fun x => { x with headFault := false }) s)) ∧
    (∀ c, slotBytes none 0 false c = List.replicate 16 0)

/-- For a descriptor that may start. A request that names a present node of the module goes to its port and hop as a service frame with the
next SEQ, and its descriptor stays open: IO_WRITE of one to four points as type 0x0A with APPLY_AT, IO_READ of up to 64 points to aligned
host memory as 0x0B, OBJ_READ of up to 500 bytes as 0x06, OBJ_WRITE of readable data from INDEX 0x0100 on as 0x07, and, with no job,
NODE_RESET as 0x05. An identifier of another module is REJECTED_PARAM, an INDEX below 0x0100 is REJECTED_PARAM for a write, a COUNT above
500 is FAILED_LIMIT, and SPL_RESCAN and SPL_NODE_RESET while a job exists are REJECTED_STATE. SPL_RESCAN of ports that are down is DONE, and
otherwise it starts the discovery of every named idle port that is up. SPL_IO_RING sets the ring, starting with record 0, and refuses a base
that is not aligned. An answer to a descriptor's request of another kind than a read ends it with the node's status. (R18, R266, R267, R268,
R278, R279) -/
def Obligations.SpringLinkOpcodes : Prop :=
  ∀ (h : Hdr) (s : State), Ready h s →
    (∀ node p k, nodeAt s node = some (p, k) →
      (∀ es a, es ≠ [] → es.length ≤ 4 → (∀ e ∈ es, e.1 ≤ 255) → exec (.splIoWrite h node es a) s =
        .next (sendReq p k 0x0A (natLE 8 a ++ es.flatMap fun e => natLE 1 e.1 ++ natLE 4 e.2) (some h.ref) 0 (accept h 0xB0 s))) ∧
      (∀ f c a, 1 ≤ c → c ≤ 64 → f ≤ 255 → a % 4 = 0 → hostMem a (4 * c) s = true → exec (.splIoRead h node f c a) s =
        .next (sendReq p k 0x0B (natLE 1 f ++ natLE 1 c) (some h.ref) a (accept h 0xB1 s))) ∧
      (∀ i o c a, a % 4 = 0 → c ≤ 500 → hostMem a c s = true → exec (.splObjRead h node i o c a) s =
        .next (sendReq p k 0x06 (natLE 2 i ++ natLE 2 o ++ natLE 2 c) (some h.ref) a (accept h 0xB2 s))) ∧
      (∀ i o c a, a % 4 = 0 → 500 < c → exec (.splObjRead h node i o c a) s = .next (endWith h.ref stLimit (accept h 0xB2 s))) ∧
      (∀ i o c a, a % 4 = 0 → 0x100 ≤ i → c ≤ 500 → hostMem a c s = true → poisonIn a c s = none →
        exec (.splObjWrite h node i o c a) s =
          .next (sendReq p k 0x07 (natLE 2 i ++ natLE 2 o ++ natLE 2 c ++ memRead a c s) (some h.ref) 0 (accept h 0xB3 s))) ∧
      (∀ i o c a, i < 0x100 → exec (.splObjWrite h node i o c a) s = .next (endWith h.ref stParam (accept h 0xB3 s))) ∧
      (s.jobs.state = 0 → exec (.splNodeReset h node) s = .next (sendReq p k 0x05 [] (some h.ref) 0 (accept h 0xB5 s)))) ∧
    (∀ node, node / 512 ≠ s.ident.moduleId.toNat → s.jobs.state = 0 →
      exec (.splNodeReset h node) s = .next (endWith h.ref stParam (accept h 0xB5 s)) ∧
      (∀ f c a, exec (.splIoRead h node f c a) s = .next (endWith h.ref stParam (accept h 0xB1 s))) ∧
      (∀ es a, exec (.splIoWrite h node es a) s = .next (endWith h.ref stParam (accept h 0xB0 s))) ∧
      (∀ i o c a, exec (.splObjRead h node i o c a) s = .next (endWith h.ref stParam (accept h 0xB2 s)) ∧
        exec (.splObjWrite h node i o c a) s = .next (endWith h.ref stParam (accept h 0xB3 s)))) ∧
    (s.jobs.state ≠ 0 → (∀ m, exec (.splRescan h m) s = .next (endWith h.ref stState (accept h 0xB4 s))) ∧
      (∀ n, exec (.splNodeReset h n) s = .next (endWith h.ref stState (accept h 0xB5 s)))) ∧
    (∀ m, s.jobs.state = 0 → m < 2 ^ s.variant.ports → (∀ p, linkUp s p = false) →
      exec (.splRescan h m) s = .next (endWith h.ref stDone (accept h 0xB4 s))) ∧
    (∀ m, s.jobs.state = 0 → m < 2 ^ s.variant.ports →
      let up := (bitsOf 32 m).filter fun p => linkUp s p
      up ≠ [] → exec (.splRescan h m) s = .next (up.foldl (fun u p => if (portOf u p).enumPhase == .idle then discoverNext p u else u)
        (setLink (fun l => { l with rescans := l.rescans ++ [(h.ref, up)] }) (accept h 0xB4 s)))) ∧
    (∀ p, s.jobs.state = 0 → p < s.variant.ports → linkUp s p = true → (portOf s p).enumPhase = .idle →
      let v := setLink (fun l => { l with rescans := l.rescans ++ [(h.ref, [p])] }) (accept h 0xB4 s)
      mayEnumerate v p (nodeCount v p + 1) = true → exec (.splRescan h (2 ^ p)) s = .next (sendReq p 0x1E 0x01 [] none 0
        (setPort p (fun q => { q with enumHop := nodeCount v p + 1, enumPhase := .discover, enumDone := false }) v))) ∧
    (∀ b k, b % 32 = 0 → 6 ≤ k → k ≤ 16 → hostMem b (32 * 2 ^ k) s = true → exec (.splIoRing h b (2 ^ k)) s =
      .next (endWith h.ref stDone (setLink (fun l => { l with
        ringSet := true, ringBase := BitVec.ofNat 64 b, ringSize := 2 ^ k, ringNext := 0, ringSeq := 0, ioEpisode := false })
        (accept h 0xB6 s)))) ∧
    (∀ b n, b % 32 ≠ 0 → exec (.splIoRing h b n) s = .next (endWith h.ref stParam (accept h 0xB6 s))) ∧
    (∀ (q : SvcReq) r st d, q.type = 7 → answerHost q r st d s = endWith r st s)

/-- For every command c, queue q and state s, a step of s with c in front of q is exec of c on s with the queue q, every other field of s
being as it was. On an empty queue the step answers the state itself (the model's choice, log 71). (Host rings and fences and coherent
state) -/
def Obligations.StepTakesFrontCommand : Prop :=
  (∀ (c : Instr) (q : List Instr) (s : State), step { s with pending := c :: q } = exec c { s with pending := q }) ∧
  (∀ s : State, s.pending = [] → step s = .next s)

/-- For every command and every state exec answers a next state: the module reports every error in its own state (status codes of R292,
events, lane faults) and goes on. What each command does is stated per command elsewhere. (R292, R301) -/
def Obligations.EveryCommandAnswersANextState : Prop :=
  ∀ (c : Instr) (s : State), ∃ t, exec c s = .next t

/-- A descriptor that is outstanding or parked under a name that no other bears, and that has no completion yet, ends with a status. Unless
SILENT is set and the status is DONE, a completion with its TAG, ring, opcode, status, the time now, the context 304 + RING mod 16 where the
chapter names none, DETAIL and DATA waits for the collector, in its context's holding slot if that is empty and behind it otherwise; the
descriptor stays outstanding until the record is written. With SILENT and DONE no record is made and the descriptor is no longer
outstanding. Nothing outside the host queues changes, and a second end of the same descriptor changes nothing. (R299, R302, R305, R306) -/
def Obligations.DescriptorEndsOnce : Prop :=
  ∀ (s : State) (tk : Ticket) (st detail data : Nat),
    s.hostq.slots.length = 320 →
    (s.hostq.outstanding ++ s.hostq.parked).countP (fun x => x.hdr.ref == tk.hdr.ref) = 1 →
    ticket s tk.hdr.ref = some tk →
    finishedAlready tk.hdr.ref s = false →
    let t := finish tk.hdr.ref st detail data s
    let f := endRecord tk st detail data s
    t = { s with hostq := t.hostq } ∧
    (¬(tk.hdr.silent = true ∧ st = 0) →
      t.hostq.outstanding = s.hostq.outstanding ∧ t.hostq.parked = s.hostq.parked ∧
      (unit s.hostq.slots f.ctx none = none →
        t.hostq.slots = s.hostq.slots.set f.ctx (some f) ∧ t.hostq.backlog = s.hostq.backlog) ∧
      (unit s.hostq.slots f.ctx none ≠ none →
        t.hostq.slots = s.hostq.slots ∧ t.hostq.backlog = s.hostq.backlog ++ [f]) ∧
      finish tk.hdr.ref st detail data t = t) ∧
    (tk.hdr.silent = true → st = 0 → s.hostq.fences = [] →
      ticket t tk.hdr.ref = none ∧ t.hostq.slots = s.hostq.slots ∧ t.hostq.backlog = s.hostq.backlog)

/-- For a descriptor that may start, every form of the five opcodes: NOP changes nothing and ends with DONE. HEARTBEAT restarts the host-
loss timer. EVENT_RING with a 32-byte aligned base in host memory and a power of two from 64 to 65,536 sets the ring with head and tail 0
and PHASE 1 (PHASE 1 is the model's choice, by the rule for completion rings), and any other is REJECTED_PARAM. EVENT_ROUTE with a vector 41
to 63 and fewer than 32 routes adds its route in front, vector 0xFF removes every route of the same range, a 33rd route is REJECTED_BUSY,
another vector or a range that runs backwards is REJECTED_PARAM. CFG_ABORT empties the named sets, or is REJECTED_BUSY where one is in a
pending commit. Every other field keeps its value, but for the descriptor's own place among the outstanding ones and its end. (R294, R309,
R310, R322, R600) -/
def Obligations.GeneralDescriptors : Prop :=
  ∀ (h : Hdr) (s : State), Ready h s →
    exec (.nop h) s = .next (endWith h.ref stDone (accept h 0x00 s)) ∧
    exec (.heartbeat h) s = .next (endWith h.ref stDone { accept h 0x05 s with mgmt := { s.mgmt with timer := some s.now } }) ∧
    (∀ base size : Nat,
      ((base % 32 = 0 ∧ (∃ k, 6 ≤ k ∧ k ≤ 16 ∧ size = 2 ^ k) ∧ 0x20000000 ≤ base ∧ base + 32 * size ≤ usableEnd s) →
        exec (.eventRing h base size) s = .next (endWith h.ref stDone { accept h 0x08 s with
          events := { s.events with
            set := true, base := BitVec.ofNat 64 base, size := size, head := 0, tail := 0, phase := true } })) ∧
      (¬(base % 32 = 0 ∧ (∃ k, 6 ≤ k ∧ k ≤ 16 ∧ size = 2 ^ k) ∧ 0x20000000 ≤ base ∧ base + 32 * size ≤ usableEnd s) →
        exec (.eventRing h base size) s = .next (endWith h.ref stParam (accept h 0x08 s)))) ∧
    (∀ (lo hi : BitVec 16) (vec : Nat),
      (lo ≤ hi → 41 ≤ vec → vec ≤ 63 → s.events.routes.length < 32 →
        exec (.eventRoute h lo hi vec) s = .next (endWith h.ref stDone { accept h 0x09 s with
          events := { s.events with routes := { lo := lo, hi := hi, vec := vec } :: s.events.routes } })) ∧
      (lo ≤ hi → 41 ≤ vec → vec ≤ 63 → 32 ≤ s.events.routes.length →
        exec (.eventRoute h lo hi vec) s = .next (endWith h.ref stBusy (accept h 0x09 s))) ∧
      (lo ≤ hi → vec = 0xFF →
        exec (.eventRoute h lo hi vec) s = .next (endWith h.ref stDone { accept h 0x09 s with
          events := { s.events with routes := s.events.routes.filter fun x => !(x.lo == lo && x.hi == hi) } })) ∧
      ((hi < lo ∨ (vec ≠ 0xFF ∧ (vec < 41 ∨ 63 < vec))) →
        exec (.eventRoute h lo hi vec) s = .next (endWith h.ref stParam (accept h 0x09 s)))) ∧
    (∀ sets : BitVec 8,
      (setsInCommit s &&& sets = 0 →
        exec (.cfgAbort h sets) s = .next (endWith h.ref stDone { accept h 0x06 s with
          staging := s.staging.mapIdx fun k l => if sets.getLsbD k then [] else l })) ∧
      (setsInCommit s &&& sets ≠ 0 →
        exec (.cfgAbort h sets) s = .next (endWith h.ref stBusy (accept h 0x06 s))))

/-- For a descriptor that may start: SNAPSHOT_NOW with no region is REJECTED_STATE; with a demand latch scheduled it joins it; else it joins
the periodic latch that falls up to 100 µs after its own tick, or posts a latch at the first lane tick at least 1 µs from now and 100 µs
after the latch before. SNAPSHOT_CFG sets the region base (0 for none) and the period as its two flags ask, a new period counting as an
override, and posts the periodic latch anew; a base that is not 4 KiB aligned in host memory or a period outside 100 µs to 1 s in steps of
100 µs is REJECTED_PARAM (a period of 0 returns to the profile's). CFG_STAGE of a readable list in host memory, aligned to 64 bytes, appends
its entries to a set that has room and is in no pending commit. CFG_COMMIT of non-empty sets in no pending commit, whose entries are all
accepted, posts one Ripple action at its launch. FENCE waits for everything before it in its own ring and between HEAD and TAIL of every
ring in SCOPE, and completes at once with DETAIL 0 where there is nothing to wait for. (R294, R307, R311, R312, R317, R318, R320) -/
def Obligations.SnapshotsStagingAndFences : Prop :=
  ∀ (h : Hdr) (s : State), Ready h s →
    (s.still.regionSet = false → exec (.snapshotNow h) s = .next (endWith h.ref stState (accept h 0x02 s))) ∧
    (s.still.regionSet = true → s.still.demandAt.isSome →
      exec (.snapshotNow h) s =
        .next { accept h 0x02 s with still := { s.still with demand := s.still.demand ++ [h.ref] } }) ∧
    (∀ d last : Nat, s.still.regionSet = true → s.still.demandAt = none →
      ((s.still.lastLatch = none ∧ last = 0) ∨ s.still.lastLatch = some (last - 100000) ∧ 100000 ≤ last) →
      d = tickAt (max (s.now + 1000) last) →
      ((∀ p, s.still.nextTick = some p → d + 100000 < p) →
        (ripplePlace (.snapshot false true) s = true → exec (.snapshotNow h) s = .next (postOwn (.snapshot false true) d
          { accept h 0x02 s with still := { s.still with demandAt := some d, demand := [h.ref] } })) ∧
        (ripplePlace (.snapshot false true) s = false → exec (.snapshotNow h) s =
          .next { accept h 0x02 s with still := { s.still with joined := s.still.joined ++ [h.ref], skipped := satInc s.still.skipped } })) ∧
      (∀ p, s.still.nextTick = some p → d ≤ p → p ≤ d + 100000 → exec (.snapshotNow h) s =
        .next { accept h 0x02 s with still := { s.still with joined := s.still.joined ++ [h.ref] } }) ∧
      (∀ p, s.still.nextTick = some p → p < d →
        let e := tickAt (max (s.now + 1000) (p + 100000))
        (p + 1000 * s.still.periodUs.toNat ≤ e + 100000 → exec (.snapshotNow h) s =
          .next { accept h 0x02 s with still := { s.still with joinedNext := s.still.joinedNext ++ [h.ref] } }) ∧
        (e + 100000 < p + 1000 * s.still.periodUs.toNat → ripplePlace (.snapshot false true) s = true →
          exec (.snapshotNow h) s = .next (postOwn (.snapshot false true) e
            { accept h 0x02 s with still := { s.still with demandAt := some e, demand := [h.ref] } })))) ∧
    (∀ (b p : Bool) (base period : Nat),
      (b = true → base = 0 ∨ (base % 4096 = 0 ∧ hostMem base 0x6800 s = true)) →
      (p = true → period = 0 ∨ (100 ≤ period ∧ period ≤ 1000000 ∧ period % 100 = 0)) →
      let s1 := if b then { accept h 0x07 s with still := { s.still with
        regionSet := base != 0, base := BitVec.ofNat 64 base } } else accept h 0x07 s
      let us := if period = 0 then s.prof.system.snapPeriodUs else period
      let s2 := if p then countOverride (markOverride 6 (period != 0)
        { s1 with still := { s1.still with periodUs := BitVec.ofNat 32 us } }) else s1
      exec (.snapshotCfg h b p base period) s = .next (endWith h.ref stDone (if b || p then rescheduleSnapshots s2 else s2))) ∧
    (∀ base : Nat, (base = 0 ∨ (base % 4096 = 0 ∧ hostMem base 0x6800 s = true)) →
      exec (.snapshotCfg h true false base 0) s = .next (endWith h.ref stDone (rescheduleSnapshots { accept h 0x07 s with
        still := { s.still with regionSet := base != 0, base := BitVec.ofNat 64 base } }))) ∧
    (∀ period : Nat, 100 ≤ period → period ≤ 1000000 → period % 100 = 0 →
      exec (.snapshotCfg h false true 0 period) s = .next (endWith h.ref stDone (rescheduleSnapshots (countOverride
        (markOverride 6 true { accept h 0x07 s with still := { s.still with periodUs := BitVec.ofNat 32 period } }))))) ∧
    (∀ (b : Bool) (base period : Nat), 0 < period → (period < 100 ∨ 1000000 < period ∨ period % 100 ≠ 0) →
      exec (.snapshotCfg h b true base period) s = .next (endWith h.ref stParam (accept h 0x07 s))) ∧
    (∀ (set count list : Nat) (is : List Instr), set ≤ 7 → 0 < count → count ≤ 64 → list % 64 = 0 →
      hostMem list (64 * count) s = true → (setsInCommit s).getLsbD set = false →
      (unit s.staging set []).length + count ≤ 64 → poisonIn list (64 * count) s = none →
      readEntries list (accept h 0x03 s) count 0 = .ok is →
      exec (.cfgStage h set count list) s = .next (endWith h.ref stDone { accept h 0x03 s with
        staging := modUnit s.staging set fun l => l ++ is })) ∧
    (∀ (sets : BitVec 8) (refTor : Bool) (launch at_ : Nat), sets ≠ 0 → (∀ k < 8, sets.getLsbD k = true → unit s.staging k [] ≠ []) →
      setsInCommit s &&& sets = 0 →
      ((launch = 0 ∧ at_ = 0) ∨ (launch ≠ 0 ∧ refTor = false ∧ at_ = launch) ∨
        (launch ≠ 0 ∧ refTor = true ∧ refTime true launch s = some at_)) →
      refusedEntry ((hostLaunch at_ s).1 - 1000) (commitEntries sets s) (accept h 0x04 s) = none →
      (ripplePlace (.cfgCommit sets) s = true →
        exec (.cfgCommit h sets refTor launch) s = .next (ripplePost
          { work := .cfgCommit sets, launch := (hostLaunch at_ s).1, host := true, tk := some h.ref,
            late := (hostLaunch at_ s).2, missing := [] } (accept h 0x04 s))) ∧
      (ripplePlace (.cfgCommit sets) s = false →
        exec (.cfgCommit h sets refTor launch) s = .next (endWith h.ref stBusy (accept h 0x04 s)))) ∧
    (∀ (sets : BitVec 8) (launch : Nat), sets ≠ 0 → (∀ k < 8, sets.getLsbD k = true → unit s.staging k [] ≠ []) →
      setsInCommit s &&& sets = 0 → launch ≠ 0 → refTime true launch s = none →
      exec (.cfgCommit h sets true launch) s = .next (endWith h.ref stState (accept h 0x04 s))) ∧
    (∀ (scope : BitVec 64) (hold : Bool) (tk : Ticket) (w : List Ref),
      ticket (accept h 0x01 s) h.ref = some tk →
      (let u := if hold then setCmd h.ring (fun c => { c with held := some h.ref.2 }) (accept h 0x01 s) else accept h 0x01 s;
       let w' := fenceWaits h.ref h.ring (accept h 0x01 s) ++
        ((List.range 64).filter fun k => scope.getLsbD k && k != h.ring).flatMap (fun k => fenceWaits h.ref k (accept h 0x01 s));
       exec (.fence h scope hold) s = .next (settle { u with hostq := { u.hostq with
         fences := u.hostq.fences ++ [{ tk := tk, waits := w', hold := hold, bad := 0 }] } })) ∧
      (w = fenceWaits h.ref h.ring (accept h 0x01 s) ++
        ((List.range 64).filter fun k => scope.getLsbD k && k != h.ring).flatMap (fun k => fenceWaits h.ref k (accept h 0x01 s)) →
      (∀ f ∈ s.hostq.fences, f.waits ≠ []) →
      (w ≠ [] → ∃ t, exec (.fence h scope hold) s = .next t ∧
        t.hostq.fences = s.hostq.fences ++ [{ tk := tk, waits := w, hold := hold, bad := 0 }] ∧
        t.hostq.slots = s.hostq.slots ∧ t.hostq.backlog = s.hostq.backlog ∧
        t = { accept h 0x01 s with hostq := { (accept h 0x01 s).hostq with cmd := t.hostq.cmd, fences := t.hostq.fences } }) ∧
      (w = [] → hold = false → h.silent = false →
        exec (.fence h scope hold) s = .next (putFinished (endRecord tk 0 0 0 s) (accept h 0x01 s)))))

/-- With the module on: DOORBELL sets TAIL, restarts the host-loss timer (and brings a lost host back) and, where the host is not lost,
changes nothing but that and the stall timers. CMD_RING_ENABLE on an idle ring that is not enabled, with ENABLE set, a size from 16 to 4,096
and every descriptor in host memory, takes SIZE_LOG2 and CQ and sets HEAD and TAIL to 0; partly outside host memory it is discarded with
REJECTED_PARAM; a change of SIZE_LOG2 or CQ, or a new ENABLE, while the ring is enabled or not idle is discarded with REJECTED_BUSY;
clearing ENABLE keeps TAIL and HEAD. CQ_ENABLE likewise starts a completion ring with head and tail 0 and PHASE 1, and stops one that no
enabled command ring names. CQ_HEAD_WRITE and EVENT_HEAD_WRITE set the head, and NOTIFY_CLEAR clears the bits written as 1. (R298, R300,
R301, R303, R289, R309, R322, R600) -/
def Obligations.RingRegisterWrites : Prop :=
  ∀ s : State, s.power.state = .on →
    (∀ ring tail : Nat, exec (.doorbell ring tail) s =
      .next (trackStalls (hostSeen (setCmd ring (fun c => { c with tail := BitVec.ofNat 12 tail }) s)))) ∧
    (∀ ring tail : Nat, s.mgmt.hostLost = false →
      exec (.doorbell ring tail) s = .next (trackStalls { setCmd ring (fun c => { c with tail := BitVec.ofNat 12 tail }) s with
        mgmt := { s.mgmt with hostLost := false, timer := some s.now } })) ∧
    (∀ (r : Nat) (v : Word), (cmdRing s r).enable = false → ringIdle s r = true → v.getLsbD 16 = true →
      4 ≤ v.toNat % 16 → v.toNat % 16 ≤ 12 →
      (hostMem (cmdRing s r).base.toNat (64 * 2 ^ (v.toNat % 16)) s = true →
        ∃ t, exec (.cmdRingEnable r v) s = .next t ∧ t = { s with hostq := { s.hostq with cmd := t.hostq.cmd } } ∧
          t.hostq.cmd.length = s.hostq.cmd.length ∧
          (r < s.hostq.cmd.length →
            (cmdRing t r).enable = true ∧ (cmdRing t r).head = 0 ∧ (cmdRing t r).tail = 0 ∧
            (cmdRing t r).sizeLog2.toNat = v.toNat % 16 ∧ (cmdRing t r).cq.toNat = v.toNat / 256 % 16 ∧
            (cmdRing t r).base = (cmdRing s r).base)) ∧
      (hostMem (cmdRing s r).base.toNat (64 * 2 ^ (v.toNat % 16)) s = false →
        exec (.cmdRingEnable r v) s = .next (accessError stParam (0x20008 + 0x20 * r) s))) ∧
    (∀ (r : Nat) (v : Word), (cmdRing s r).enable = true ∨ ringIdle s r = false →
      (v.toNat % 16 ≠ (cmdRing s r).sizeLog2.toNat ∨ v.toNat / 256 % 16 ≠ (cmdRing s r).cq.toNat ∨
        (v.getLsbD 16 = true ∧ (cmdRing s r).enable = false)) →
      exec (.cmdRingEnable r v) s = .next (accessError stBusy (0x20008 + 0x20 * r) s)) ∧
    (∀ (r : Nat) (v : Word), (cmdRing s r).enable = true → v.getLsbD 16 = false →
      v.toNat % 16 = (cmdRing s r).sizeLog2.toNat → v.toNat / 256 % 16 = (cmdRing s r).cq.toNat →
      exec (.cmdRingEnable r v) s = .next (trackStalls (setCmd r (fun c => { c with enable := false }) s))) ∧
    (∀ (c : Nat) (v : Word), (complRing s c).enable = false → v.getLsbD 16 = true → 6 ≤ v.toNat % 32 → v.toNat % 32 ≤ 16 →
      hostMem (complRing s c).base.toNat (32 * 2 ^ (v.toNat % 32)) s = true →
      exec (.cqEnable c v) s = .next (trackStalls (setCq c (fun q => { q with
        sizeLog2 := BitVec.ofNat 5 (v.toNat % 32), enable := true, head := 0, tail := 0, phase := true, since := 0,
        first := none }) s))) ∧
    (∀ (c : Nat) (v : Word), (complRing s c).enable = true → v.getLsbD 16 = false →
      ((∃ r ∈ s.hostq.cmd, r.enable = true ∧ r.cq.toNat = c) → exec (.cqEnable c v) s = .next s) ∧
      ((∀ r ∈ s.hostq.cmd, r.enable = true → r.cq.toNat ≠ c) →
        exec (.cqEnable c v) s = .next (trackStalls (setCq c (fun q => { q with enable := false }) s)))) ∧
    (∀ (c : Nat) (v : Word), exec (.cqHeadWrite c v) s =
      .next (trackStalls (setCq c (fun q => { q with head := BitVec.ofNat 16 v.toNat }) s))) ∧
    (∀ v : Word, exec (.eventHeadWrite v) s =
      .next { s with events := { s.events with head := BitVec.ofNat 16 v.toNat } }) ∧
    (∀ v : Word, exec (.notifyClear false v) s =
      .next { s with mgmt := { s.mgmt with notify := s.mgmt.notify &&& ~~~(v.zeroExtend 64) } }) ∧
    (∀ v : Word, exec (.notifyClear true v) s =
      .next { s with mgmt := { s.mgmt with notify := s.mgmt.notify &&& ~~~(v ++ (0 : BitVec 32)) } })

/-- With the module on: a read of BAR0 that is neither an aligned 32-bit nor an aligned 64-bit access answers 0 and counts in BAD_ACCESS,
and such a write counts there and does nothing else. An aligned 32-bit read answers the register's word, and a 64-bit access is two 32-bit
accesses, the lower address first. A 32-bit write to a mapped register of a group that the host does not own is discarded with
REJECTED_OWNER and counted, and one to an unmapped offset is counted in RESERVED_WRITES. A read of GLOBAL_ID answers it and changes nothing;
a read of 0x002C answers BAD_ACCESS and MGMT_DROPPED, clears both and arms ACCESS_REJECTED again; a read of STILL_GEN_LO answers it and
latches the upper word for STILL_GEN_HI. BAR2 serves the bytes of a write that lie in usable Basin and, from GO on, not below 0x2000_0000; a
write that lies wholly in served addresses at or above 0x2000_0000 is one memory write, and a read there without an uncorrectable word
answers its bytes. (R283, R284, R285, R290, R291, R334) -/
def Obligations.RegisterAccesses : Prop :=
  ∀ s : State, s.power.state = .on →
    (∀ off len : Nat, ¬(len = 4 ∧ off % 4 = 0) → ¬(len = 8 ∧ off % 8 = 0) →
      exec (.readClear off len) s = .next { badAccess s with sent := .readData off 0 :: s.sent } ∧
      exec (.splitReadLatch off len) s = .next { badAccess s with sent := .readData off 0 :: s.sent } ∧
      ∀ v, exec (.registerWrite off len v) s = .next (badAccess s)) ∧
    (∀ off v : Nat, off % 4 = 0 → exec (.registerWrite off 4 v) s = .next (writeWord off (BitVec.ofNat 32 v) s).2) ∧
    (∀ off v : Nat, off % 8 = 0 → exec (.registerWrite off 8 v) s =
      .next (writeWord (off + 4) (BitVec.ofNat 32 (v / 2 ^ 32)) (writeWord off (BitVec.ofNat 32 v) s).2).2) ∧
    (∀ off v : Nat, off % 4 = 0 → offsetMapped off s = true → (∀ w, offsetUnit off = some w → unitDown s w = false) →
      ¬(0x1000 ≤ off ∧ off < 0x2000) → ¬(0x20000 ≤ off ∧ off < 0x60000) →
      exec (.registerWrite off 4 v) s = .next (ownerReject off s)) ∧
    (∀ off v : Nat, off % 4 = 0 → offsetMapped off s = false → exec (.registerWrite off 4 v) s = .next (reservedWrite s)) ∧
    (∀ off : Nat, off % 4 = 0 →
      exec (.readClear off 4) s = .next { (readWord off s).2.2 with
        sent := .readData off (readWord off s).2.1 :: (readWord off s).2.2.sent } ∧
      exec (.splitReadLatch off 4) s = exec (.readClear off 4) s) ∧
    (∀ off : Nat, off % 8 = 0 →
      (let u : State := { (readWord off s).2.2 with sent := .readData off (readWord off s).2.1 :: (readWord off s).2.2.sent };
       exec (.readClear off 8) s = .next { (readWord (off + 4) u).2.2 with
         sent := .readData (off + 4) (readWord (off + 4) u).2.1 :: (readWord (off + 4) u).2.2.sent }) ∧
      exec (.splitReadLatch off 8) s = exec (.readClear off 8) s) ∧
    (∃ v, exec (.readClear 0 4) s = .next { s with sent := .readData 0 v :: s.sent } ∧
      v.toNat % 16 = s.variant.code ∧ v.toNat / 256 % 1024 = s.ident.moduleId.toNat) ∧
    (∃ v, exec (.readClear 0x2C 4) s = .next { s with
        access := { s.access with badAccess := 0, mgmtDropped := 0, armed := true }, sent := .readData 0x2C v :: s.sent } ∧
      v = s.access.mgmtDropped ++ s.access.badAccess) ∧
    exec (.splitReadLatch 0x60004 4) s = .next { s with
      still := { s.still with genHiLatch := s.still.gen.extractLsb' 32 32 },
      sent := .readData 0x60004 (s.still.gen.extractLsb' 0 32) :: s.sent } ∧
    (∀ (off : Nat) (bs : List Byte), 0x20000000 ≤ s.mgmt.win.toNat * 0x40000000 + off →
      s.mgmt.win.toNat * 0x40000000 + off + bs.length ≤ usableEnd s → off + bs.length ≤ 0x100000000 → bs ≠ [] →
      exec (.bar2Access off 0 (some bs)) s = .next (memWrite 33 (s.mgmt.win.toNat * 0x40000000 + off) bs s)) ∧
    (∀ off len : Nat, 0x20000000 ≤ s.mgmt.win.toNat * 0x40000000 + off → 0 < len →
      s.mgmt.win.toNat * 0x40000000 + off + len ≤ usableEnd s → off + len ≤ 0x100000000 →
      poisonedIn (s.mgmt.win.toNat * 0x40000000 + off) len s = [] →
      exec (.bar2Access off len none) s =
        .next { touchBasin (s.mgmt.win.toNat * 0x40000000 + off) len s with
          sent := .bar2Data (memRead (s.mgmt.win.toNat * 0x40000000 + off) len s) false :: s.sent })

/-- While the module is on and past its reset: a request with a bad CRC, MAGIC or VERSION, or from a source that is not allowed, changes
nothing but MGMT_DROPPED. A good request that is no repeat of a kept answer acts: a register or memory kind or DETACH from a source that is
not attached is answered with REJECTED_AUTH; from the attached host, REG_READ answers the registers read one after the other, REG_WRITE
writes them, MEM_READ of readable host memory answers its bytes, MEM_WRITE to host memory is one memory write, and DETACH ends the
attachment. ATTACH makes the sender the attached host where no other is attached or the attached one is lost, and is REJECTED_BUSY
otherwise. NOTIFY sends GLOBAL_NOTIFY to the attached host where a bit is set and, since the last, a vector has fired and 10 µs have passed,
or 100 ms have passed. (R286, R287, R288, R289, R600) -/
def Obligations.ManagementRequests : Prop :=
  ∀ (q : MgmtReq) (s : State), s.power.state = .on → s.boot.phase ≠ 0 →
    ((mgmtFormOk 3 q = false ∨ mgmtAllowed q s = false) → exec (.memRead q) s = .next (mgmtDrop s)) ∧
    (mgmtAllowed q s = true → keptMgmt q s = none →
      (s.mgmt.attached ≠ some q.src →
        (mgmtFormOk 1 q = true → exec (.regRead q) s = .next (answerMgmt 1 stAuth q [] s)) ∧
        (mgmtFormOk 2 q = true → exec (.regWrite q) s = .next (answerMgmt 2 stAuth q [] s)) ∧
        (mgmtFormOk 3 q = true → exec (.memRead q) s = .next (answerMgmt 3 stAuth q [] s)) ∧
        (mgmtFormOk 4 q = true → exec (.memWrite q) s = .next (answerMgmt 4 stAuth q [] s)) ∧
        (mgmtFormOk 6 q = true → exec (.detach q) s = .next (answerMgmt 6 stAuth q [] s))) ∧
      (s.mgmt.attached = some q.src →
        (mgmtFormOk 6 q = true → exec (.detach q) s = .next (answerMgmt 6 stDone q [] (raise 0xA00A (natLE 8 q.src ++ natLE 1 0)
          { s with mgmt := { s.mgmt with attached := none, kept := [], lastNotify := none } }))) ∧
        (q.count % 4 = 0 → 4 ≤ q.count → q.count ≤ 1024 →
          (mgmtFormOk 1 q = true → exec (.regRead q) s = .next (answerMgmt 1 (readRegs (q.count / 4) q.address s).1 q
            (padTo q.count (readRegs (q.count / 4) q.address s).2.1) (readRegs (q.count / 4) q.address s).2.2)) ∧
          (mgmtFormOk 2 q = true → q.data.length = q.count → exec (.regWrite q) s = .next (answerMgmt 2
            (writeRegs (q.count / 4) q.address q.data s).1 q [] (writeRegs (q.count / 4) q.address q.data s).2)) ∧
          (0x20000000 ≤ q.address → q.address + q.count ≤ usableEnd s →
            (mgmtFormOk 3 q = true → poisonedIn q.address q.count s = [] →
              exec (.memRead q) s = .next (answerMgmt 3 stDone q (memRead q.address q.count s) (touchBasin q.address q.count s))) ∧
            (mgmtFormOk 4 q = true → q.data.length = q.count →
              exec (.memWrite q) s = .next (answerMgmt 4 stDone q [] (memWrite 33 q.address q.data s)))))) ∧
      (mgmtFormOk 5 q = true →
        (s.mgmt.attached = none ∨ s.mgmt.attached = some q.src → exec (.attach q) s = .next (answerMgmt 5 stDone q []
          (raise 0xA008 (natLE 16 q.src) { s with mgmt := { s.mgmt with attached := some q.src } }))) ∧
        (∀ o, s.mgmt.attached = some o → o ≠ q.src →
          (s.mgmt.hostLost = false → exec (.attach q) s = .next (answerMgmt 5 stBusy q [] s)) ∧
          (s.mgmt.hostLost = true → exec (.attach q) s = .next (answerMgmt 5 stDone q []
            (raise 0xA008 (natLE 16 q.src) (setMgmt (fun m => { m with attached := some q.src })
              (raise 0xA00A (natLE 8 o ++ natLE 1 1)
                { s with mgmt := { s.mgmt with attached := none, kept := [], lastNotify := none } })))))))) ∧
    (∀ (t dst : Nat), s.mgmt.attached = some dst → s.mgmt.notify ≠ 0 →
      (∀ last, s.mgmt.lastNotify = some last → (s.mgmt.fresh = true ∧ last + 10000 ≤ max s.now t) ∨ last + 100000000 ≤ max s.now t) →
      exec (.notify t) s = .next { passTo t s with
        mgmt := { s.mgmt with lastNotify := some (max s.now t), fresh := false }
        sent := .datagram dst (mgmtBytes 0x4D48 1 7 0 0 0 0 8 (natLE 8 s.mgmt.notify.toNat)) :: s.sent })

/-- DESCRIPTOR_FETCH with 512 descriptors outstanding, or with no ring that may be fetched from, takes none. From the ring in turn, where it
has taken fewer than four and may be fetched from, else from the next that may, one descriptor is read at HEAD and HEAD goes on by one mod
size; with no uncorrectable word and a well-formed descriptor, it is started as its opcode says, and a descriptor with a reserved opcode,
bit or byte ends with REJECTED_PARAM. COMPLETION_COLLECT with nothing waiting changes only the stall timers; otherwise up to four
completions go out, each from the next slot with one after the rotating pointer. A record goes to base + 32 × TAIL of its completion ring,
TAIL goes on by one and PHASE changes at the wrap. INT_TIME_EXPIRE fires the vector INT_TIME µs after the first record since it last fired,
and CQ_STALLED is raised for a ring that has waited more than 100 ms for completion space. (R22, R300, R301, R303, R304, R305) -/
def Obligations.FetchCollectAndStall : Prop :=
  ∀ (t : Ns) (s : State),
    (512 ≤ s.hostq.outstanding.length → exec (.descriptorFetch t) s = .next (trackStalls (passTo t s))) ∧
    (s.hostq.outstanding.length < 512 → fetchRing (passTo t s) = none →
      exec (.descriptorFetch t) s = .next (trackStalls (passTo t s))) ∧
    (∀ r n : Nat, s.hostq.outstanding.length < 512 →
      ((r = s.hostq.rrRing ∧ n = s.hostq.rrTaken + 1 ∧ s.hostq.rrTaken < 4 ∧ mayFetch s r = true) ∨
        (n = 1 ∧ (4 ≤ s.hostq.rrTaken ∨ mayFetch s s.hostq.rrRing = false) ∧
          ((List.range 64).map fun k => (s.hostq.rrRing + 1 + k) % 64).find? (fun r => mayFetch s r) = some r)) →
      let c := cmdRing s r
      let k := c.head.toNat % c.size
      let b := memRead (c.base.toNat + 64 * k) 64 s
      let u := setCmd r (fun c => { c with head := BitVec.ofNat 12 ((k + 1) % c.size), fetched := c.fetched + 1 })
        (touchBasin (c.base.toNat + 64 * k) 64 { passTo t s with hostq := { s.hostq with rrRing := r, rrTaken := n } })
      poisonIn (c.base.toNat + 64 * k) 64 s = none →
      (∀ i, decodeDescriptor r k c.fetched b = some i → profileInForce s = true →
        exec (.descriptorFetch t) s = .next (trackStalls (startDescriptor i (accept (descriptorHdr r k c.fetched b) (field b 0 1) u)))) ∧
      (decodeDescriptor r k c.fetched b = none →
        exec (.descriptorFetch t) s = .next (trackStalls (endWith (descriptorHdr r k c.fetched b).ref stParam
          (accept (descriptorHdr r k c.fetched b) (field b 0 1) u))))) ∧
    (s.hostq.slots = List.replicate 320 none → exec (.completionCollect t) s = .next (trackStalls (passTo t s))) ∧
    exec (.completionCollect t) s = .next (trackStalls (collectOne (collectOne (collectOne (collectOne (passTo t s)))))) ∧
    (nextSlot s = none → collectOne s = s) ∧
    (∀ (i : Nat) (f : Finished), nextSlot s = some (i, f) →
      collectOne s = writeCompletion f (refillSlot i { s with hostq := { s.hostq with collect := (i + 1) % 320 } })) ∧
    (∀ f : Finished, (complRing s f.tk.cq).enable = true → f.tk.hdr.irq = false → (complRing s f.tk.cq).intCount = 0 →
      let q := complRing s f.tk.cq
      writeCompletion f s = settle (markFences f.tk.hdr.ref f.status (dropTicket f.tk.hdr.ref
        (setCq f.tk.cq (fun _ => { q with
            tail := if q.tail.toNat + 1 = q.size then 0 else q.tail + 1
            phase := if q.tail.toNat + 1 = q.size then !q.phase else q.phase
            since := q.since + 1
            first := if q.first.isSome then q.first else some s.now })
          (memPut (q.base.toNat + 32 * q.tail.toNat) (completionBytes f q.phase) s))))) ∧
    (∀ (c f : Nat), (complRing s c).first = some f → (complRing s c).intTime ≠ 0 →
      f + 1000 * (complRing s c).intTime.toNat ≤ max s.now t →
      exec (.intTimeExpire t c) s = .next (fireVector c (setCq c (fun q => { q with since := 0, first := none }) (passTo t s)))) ∧
    (∀ (r t0 : Nat), (cmdRing s r).stall = some t0 → ringStalled s r = true → t0 + 100000000 < max s.now t →
      exec (.cqStalled t r) s = .next (raise 0xA009 (natLE 1 r ++ natLE 1 (cmdRing s r).cq.toNat) (passTo t s)))

/-- HOST_LOST: when the host-loss timer has run for the profile's timeout, HOST_LOST is set and raised with the timeout in ms; a timeout of
0 or a host already lost changes nothing. PCIE_LINK_DOWN and PCIE_LINK_UP raise their events, vectors are held while the link is down and
the pending ones that are not masked are sent when it comes up, and PCIE_WAKE_N is released. SNAPSHOT_PUBLISH writes the latched image with
HEAD_GEN and TAIL_GEN of the next generation at base + 0x4000 × (generation mod 2), sets STILL_GEN to it, fires vector 32, and completes
every request that joined with the generation as DATA. Raising an event whose ring has a place and with nothing dropped before it, of a code
that is not fatal: it takes the next SEQ, its 32-byte record (code, vector, PHASE, SEQ, the time now, data) is put at base + 32 × TAIL, TAIL
goes on by one with PHASE changing at the wrap, the recorder notes its code, and its vector fires. With no ring or a full one the event
still takes its SEQ, counts in EVENTS_LOST and its vector fires. A vector that fires is sent while the PCIe link is up and it is not masked,
stays pending otherwise, and is noted for the attached host while it is not masked. (R316, R322, R323, R576, R295, R309, R538) -/
def Obligations.HostLossPublicationAndEvents : Prop :=
  (∀ (t : Ns) (s : State),
    (∀ t0, s.mgmt.timer = some t0 → s.prof.system.hostLossMs ≠ 0 → s.mgmt.hostLost = false →
      t0 + 1000000 * s.prof.system.hostLossMs ≤ max s.now t →
      exec (.hostLost t) s = .next (raise 0xA001 (natLE 4 s.prof.system.hostLossMs)
        { passTo t s with mgmt := { s.mgmt with hostLost := true, lostAt := max s.now t } })) ∧
    ((s.prof.system.hostLossMs = 0 ∨ s.mgmt.hostLost = true) → exec (.hostLost t) s = .next (passTo t s)) ∧
    (s.hostq.pcieUp = true →
      exec (.pcieLinkDown t) s = .next (raise 0xA006 [] { passTo t s with hostq := { s.hostq with pcieUp := false } })) ∧
    (∀ speed width : Nat, s.hostq.pcieUp = false → s.pins.perstN = true →
      exec (.pcieLinkUp t speed width) s = .next (raise 0xA007 (natLE 1 speed ++ natLE 1 width) (sendPending
        { passTo t s with hostq := { s.hostq with pcieUp := true }, pins := { s.pins with pcieWakeN := true } }))) ∧
    (∀ x : Latched, s.still.latched = some x →
      let g := s.still.gen.toNat + 1
      let u := memWrite 33 (s.still.base.toNat + 0x4000 * (g % 2)) (natLE 8 g ++ x.image ++ natLE 8 g) (passTo t s)
      exec (.snapshotPublish t) s = .next (x.joined.foldl (fun v r => finish r stDone 0 g v)
        (fireVector 32 { u with still := { u.still with
          gen := BitVec.ofNat 64 g, latched := none
          withInvalid := if x.invalid = 0 then u.still.withInvalid else satInc u.still.withInvalid } })))) ∧
  (∀ (vec code : Nat) (data : List Byte) (s : State), eventFatal code = false →
    (eventRoom s = true → s.events.unreported = 0 →
      let e := s.events
      let wrap := e.tail.toNat + 1 = e.size
      let u := memPut (e.base.toNat + 32 * e.tail.toNat) (natLE 2 code ++ [BitVec.ofNat 8 vec, if e.phase then 1 else 0]
        ++ natLE 4 e.seq.toNat ++ natLE 8 s.now ++ padTo 16 data) s
      raiseOn vec code data s = fireVector vec { u with
        events := { e with seq := e.seq + 1, tail := if wrap then 0 else e.tail + 1, phase := if wrap then !e.phase else e.phase }
        recorder := { s.recorder with codes := code :: s.recorder.codes } }) ∧
    (eventRoom s = false →
      raiseOn vec code data s = fireVector vec { s with
        events := { s.events with
          seq := s.events.seq + 1, lost := satInc s.events.lost, unreported := s.events.unreported + 1 }
        recorder := { s.recorder with codes := code :: s.recorder.codes } }) ∧
    ((msixOf s vec).masked = false → s.hostq.pcieUp = true → s.mgmt.attached = none →
      fireVector vec s = { s with sent := .msix vec :: s.sent }) ∧
    ((msixOf s vec).masked = true →
      fireVector vec s = { s with hostq := { s.hostq with pba := s.hostq.pba ||| BitVec.ofNat 64 (2 ^ vec) } }) ∧
    ((msixOf s vec).masked = false → s.hostq.pcieUp = false → ∀ h, s.mgmt.attached = some h →
      fireVector vec s = { s with
        hostq := { s.hostq with pba := s.hostq.pba ||| BitVec.ofNat 64 (2 ^ vec) }
        mgmt := { s.mgmt with notify := s.mgmt.notify ||| BitVec.ofNat 64 (2 ^ vec), fresh := true } }))

/-- Bytes put at an address read back from it, every other byte reads as before, the memory keeps its canonical form, the words written in
full are no longer poisoned, and of the rest of the state only Basin's idle state, its last request and the rows its banks hold open change.
Little-endian numbers of n bytes read back as they were written. (R5, R493, R505, R600) -/
def Obligations.BasinBytes : Prop :=
  ∀ (a : Nat) (bs : List Byte) (s : State), Mem.wf s.basin.mem = true →
    let t := memPut a bs s
    Mem.wf t.basin.mem = true ∧
    memRead a bs.length t = bs ∧
    (∀ x, (x < a ∨ a + bs.length ≤ x) → Mem.read t.basin.mem x = Mem.read s.basin.mem x) ∧
    t = { s with basin := { s.basin with
      mem := t.basin.mem, state := 0, lastReq := s.now, openRows := openAfter a bs.length s, poisoned := t.basin.poisoned } } ∧
    (∀ w ∈ t.basin.poisoned, w ∈ s.basin.poisoned ∧ ¬(a ≤ 8 * w ∧ 8 * w + 8 ≤ a + bs.length)) ∧
    (∀ n v : Nat, v < 256 ^ n → leNat (natLE n v) = v)

/-- VIN rising through 33 V restarts an OFF module as a POR with cause 0, or holds it where RESET_N is low, and changes nothing else in any
other power state. VIN below 31 V takes a module that is on, held or in STANDBY to OFF, VIN below 6 V also one in HIBERNATE, and nothing
else. RESET_N low is recorded in every state and holds a powered module; its rise releases a held module that neither a lost clock nor a
latched shutdown holds. A lost REFCLK_IN puts a module that is on, or held without a shutdown, into the safe state and then holds it with
cause CLOCK; its return releases it where nothing else holds it. PERST_N low takes only the PCIe link down. (R327, R328, R331, R519, R555)
-/
def Obligations.PowerAndResetPins : Prop :=
  ∀ (t : Ns) (s : State),
    (s.power.state = .off → s.pins.resetN = true → exec (.vinRise t) s = .next (restart .por 0 0 (passTo t s))) ∧
    (s.power.state = .off → s.pins.resetN = false → exec (.vinRise t) s = .next (hold .por 0 .held (passTo t s))) ∧
    (s.power.state ≠ .off → exec (.vinRise t) s = .next (passTo t s)) ∧
    (∀ b, s.power.state ≠ .off → (s.power.state = .hibernate → b = true) →
      exec (.vinFall t b) s = .next (hold .pin 0 .off (passTo t s))) ∧
    (∀ b, s.power.state = .off ∨ (s.power.state = .hibernate ∧ b = false) → exec (.vinFall t b) s = .next (passTo t s)) ∧
    (s.power.state ≠ .off → s.power.state ≠ .hibernate →
      exec (.resetNLow t) s = .next (hold .pin 0 .held { passTo t s with pins := { s.pins with resetN := false } })) ∧
    (s.power.state = .off ∨ s.power.state = .hibernate →
      exec (.resetNLow t) s = .next { passTo t s with pins := { s.pins with resetN := false } }) ∧
    (s.power.state = .held → s.power.clkLost = false → s.hk.shutAt = none →
      exec (.resetNRise t) s = .next (release { passTo t s with pins := { s.pins with resetN := true } })) ∧
    (s.power.state ≠ .held ∨ s.power.clkLost = true ∨ s.hk.shutAt ≠ none →
      exec (.resetNRise t) s = .next { passTo t s with pins := { s.pins with resetN := true } }) ∧
    (s.power.state = .on ∨ (s.power.state = .held ∧ s.hk.shutAt = none) →
      ∃ u, exec (.refclkLost t) s = .next u ∧ u.power.clkLost = true ∧
      u = { hold .pin 1 .held (beamsOff (passTo t s)) with power := u.power } ∧
      u.power = { (hold .pin 1 .held (beamsOff (passTo t s))).power with clkLost := true }) ∧
    (s.power.state = .off ∨ s.power.state = .hibernate ∨ s.power.state = .standby → exec (.refclkLost t) s = .next (passTo t s)) ∧
    (∀ us, s.power.clkLost = true → s.power.state = .held → s.pins.resetN = true → s.hk.shutAt = none →
      exec (.refclkRestored t us) s = .next (release { passTo t s with
        power := { s.power with clkLost := false, onAlive := s.power.onAlive ++ [(0x1010, natLE 4 us)] } })) ∧
    (∀ us, s.power.clkLost = true → s.power.state = .held → s.pins.resetN = false ∨ s.hk.shutAt ≠ none →
      exec (.refclkRestored t us) s = .next { passTo t s with
        power := { s.power with clkLost := false, onAlive := s.power.onAlive ++ [(0x1010, natLE 4 us)] } }) ∧
    exec (.perstLow t) s = .next (pcieDown { passTo t s with pins := { s.pins with perstN := false } })

/-- After a restart of the module: PHASE is DRAM_TRAIN, or RESET while the start waits for the sensors after a shutdown; the firmware is not
alive, no profile is in force, no descriptor is outstanding, no job exists, and GLOBAL_RESET_STAT holds the kind, the cause and the wake
cause. OTP and the variant never change. MODULE_ID is read from MODID but at a MODULE reset and at the STANDBY exit. A MODULE reset keeps
the clock of TIME and all of Basin; POR, WAKE and PIN lose the contents of Basin; the STANDBY exit keeps the bytes of retained segments
only, and TIME is reset at every one of these but MODULE. The profile memory keeps its bytes. (R329, R503, R519, R565, R570, R571) -/
def Obligations.RestartKeepsWhatItMust : Prop :=
  ∀ (k : ResetKind) (cause wake : Nat) (s : State), k ≠ .firmware →
    let u := restart k cause wake s
    (u.boot.phase = if u.boot.sensorWait then 0 else 1) ∧ u.boot.alive = false ∧ u.hostq.outstanding = [] ∧ u.hostq.parked = [] ∧
    profileInForce u = false ∧ jobExists u = false ∧
    u.power.lastKind = BitVec.ofNat 3 k.code ∧ u.power.cause = BitVec.ofNat 2 cause ∧ u.power.wakeCause = BitVec.ofNat 3 wake ∧
    u.ident.otp = s.ident.otp ∧ u.variant = s.variant ∧ u.pending = s.pending ∧
    (k = .module ∨ k = .standbyExit → u.ident.moduleId = s.ident.moduleId) ∧
    (k = .por ∨ k = .wake ∨ k = .pin → u.ident.moduleId = s.pins.modid) ∧
    (k = .module → u.time.clock = s.time.clock ∧ u.basin.mem = s.basin.mem ∧ u.basin.poisoned = s.basin.poisoned) ∧
    (k ≠ .module → u.time = TimeBlk.reset) ∧
    (k = .por ∨ k = .wake ∨ k = .pin → u.basin.mem = [] ∧ u.basin.poisoned = []) ∧
    (k = .standbyExit → ∀ c, c ∈ u.basin.mem ↔ c ∈ s.basin.mem ∧ s.basin.retain.getLsbD (c.1 / segSize s) = true) ∧
    u.profile.memA = s.profile.memA ∧ u.profile.memB = s.profile.memB

/-- With the module on: training that succeeds makes PHASE WAIT_IMAGE and fires vector 39; a failed one is tried again twice, and the third
makes PHASE FAILED with ERROR DRAM_TRAIN, drives FAULT_N low and fires vector 39. A try of a speed of Ethernet port 0 ends with block lock
or with the other speed. GO in WAIT_IMAGE with LEN from 4,096 to 50,331,648 starts the checks (VERIFY); with another LEN it is ignored with
REJECTED_PARAM, outside WAIT_IMAGE with REJECTED_STATE. CLEAR sets RECEIVED to 0. Checks that fail set ERROR, count one attempt and return
to WAIT_IMAGE; checks that pass load every segment, fill the rest of each load range with 0 and start the cores (CORES_START). Cores that do
not report within 1 s lead back to WAIT_IMAGE with ERROR CORE_START. (R332, R333, R337, R339, R353) -/
def Obligations.BootRomSteps : Prop :=
  ∀ (t : Ns) (s : State), s.power.state = .on →
    (s.boot.phase = 1 → s.boot.trained = false → s.boot.sensorWait = false →
      exec (.dramTrainDone t true) s = .next (fireVector 39 { passTo t s with boot := { s.boot with trained := true, phase := 2 } }) ∧
      (s.boot.trainTries < 2 → exec (.dramTrainDone t false) s =
        .next { passTo t s with boot := { s.boot with phase := 1, trainTries := s.boot.trainTries + 1 } }) ∧
      (2 ≤ s.boot.trainTries → exec (.dramTrainDone t false) s = .next (fireVector 39 { passTo t s with
        boot := { s.boot with phase := 11, error := 1, trainTries := s.boot.trainTries + 1 }
        pins := { s.pins with faultN := false } }))) ∧
    (s.boot.alive = false → s.boot.ethLock = false →
      exec (.ethSpeedTry t true) s = .next { passTo t s with boot := { s.boot with ethLock := true } } ∧
      exec (.ethSpeedTry t false) s = .next { passTo t s with boot := { s.boot with eth25g := !s.boot.eth25g } }) ∧
    (s.boot.phase = 2 → 4096 ≤ s.boot.ctrlLen.toNat → s.boot.ctrlLen.toNat ≤ 50331648 → exec .bootGo s = .next { s with
      boot := { s.boot with phase := 3, goLen := s.boot.ctrlLen.toNat, path := false, session := none } }) ∧
    (s.boot.phase = 2 → (s.boot.ctrlLen.toNat < 4096 ∨ 50331648 < s.boot.ctrlLen.toNat) →
      exec .bootGo s = .next (accessError stParam 0x1104 s)) ∧
    (s.boot.phase ≠ 2 → exec .bootGo s = .next (accessError stState 0x1104 s)) ∧
    exec .bootClear s = .next { s with boot := { s.boot with received := 0 } } ∧
    (s.boot.phase = 3 → imageChecks s.boot.goLen (passTo t s) ≠ 0 → imageChecks s.boot.goLen (passTo t s) ≠ 8 →
      exec (.imageVerifyDone t) s = .next (fireVector 39 { passTo t s with boot := { s.boot with
        phase := 2, error := BitVec.ofNat 8 (imageChecks s.boot.goLen (passTo t s)), attempts := satInc s.boot.attempts } })) ∧
    (s.boot.phase = 3 → imageChecks s.boot.goLen (passTo t s) = 0 →
      ∃ u, exec (.imageVerifyDone t) s = .next (fireVector 39 u) ∧ u.boot.phase = 4 ∧ u.boot.alive = s.boot.alive ∧
        u.boot.coresAt = max s.now t ∧
        u.boot.fwVersion = BitVec.ofNat 32 (field (memRead 0 512 s) 12 4) ∧
        u.basin = ((segsOf (memRead 0 512 s)).foldl (fun x g => memPut g.load
          (memRead g.offset g.size s ++ List.replicate (g.loadSize - g.size) 0) x) (passTo t s)).basin) ∧
    (s.boot.phase = 4 → s.boot.coresAt + 1000000000 ≤ max s.now t →
      exec (.coreStartTimeout t) s = .next (fireVector 39 { passTo t s with boot := { s.boot with phase := 2, error := 9 } })) ∧
    (s.boot.phase ≠ 4 → exec (.coreStartTimeout t) s = .next (passTo t s))

/-- For an image whose words are all readable: checks answer 0x02 exactly where the format fails; otherwise 0x03 where VARIANT_MASK does not
name the variant or MIN_DIE_STEP is above DIE_STEP; otherwise 0x06 where KEY_INDEX is above 3 or its key is revoked; otherwise 0x04 where
the SHA-384 of the image without its last 160 bytes is not DIGEST; otherwise 0x05 where the ECDSA P-384 signature does not verify; otherwise
0x07 where ROLLBACK is below the OTP counter; and 0 where nothing fails. An image with an uncorrectable word in its header or signature
block answers 0x08. (R335, R336, R337, R338) -/
def Obligations.FirstImageCheckThatFails : Prop :=
  ∀ (len : Nat) (s : State),
    let hd := memRead 0 512 s
    let sig := memRead (len - 160) 160 s
    let bad3 := (field hd 20 4).testBit s.variant.code = false ∨ s.ident.dieStep.toNat < field hd 24 4
    let bad6 := 3 < field sig 4 1 ∨ s.ident.otp.keysRevoked.getLsbD (field sig 4 1) = true
    let bad4 := sha384 (memRead 0 (len - 160) s) ≠ (sig.drop 16).take 48
    let bad5 := ecdsaVerify p384 (Config.eohusKey (field sig 4 1)).1 (Config.eohusKey (field sig 4 1)).2 ((sig.drop 16).take 48)
      (beNat ((sig.drop 64).take 48)) (beNat ((sig.drop 112).take 48)) = false
    let bad7 := field hd 16 2 < s.ident.otp.rollback.toNat
    ((poisonIn 0 512 s).isSome ∨ (poisonIn (len - 160) 160 s).isSome → imageChecks len s = 8) ∧
    (poisonIn 0 512 s = none → poisonIn (len - 160) 160 s = none → poisonIn 0 len s = none →
      (imageFormatOk len hd sig = false → imageChecks len s = 2) ∧
      (imageFormatOk len hd sig = true →
        (bad3 → imageChecks len s = 3) ∧
        (¬bad3 → bad6 → imageChecks len s = 6) ∧
        (¬bad3 → ¬bad6 → bad4 → imageChecks len s = 4) ∧
        (¬bad3 → ¬bad6 → ¬bad4 → bad5 → imageChecks len s = 5) ∧
        (¬bad3 → ¬bad6 → ¬bad4 → ¬bad5 → bad7 → imageChecks len s = 7) ∧
        (¬bad3 → ¬bad6 → ¬bad4 → ¬bad5 → ¬bad7 → imageChecks len s = 0)))

/-- While the module is on and past its reset, a boot request with a good form that is no repeat of a kept answer acts, and one with a bad
form only counts in MGMT_DROPPED. BOOT_HELLO and BOOT_STATUS are answered with DONE and the boot information. In WAIT_IMAGE with the cores
not alive, BOOT_DATA from the source of the session, or with no session open or its source silent for 1 s, binds the session to its source
and writes its bytes to the staging area, raising RECEIVED; from another source within 1 s it is answered with REJECTED_BUSY; one that
reaches beyond 50,331,648 with REJECTED_PARAM. BOOT_GO with a length in range starts the checks by the Ethernet path. Once the firmware is
alive both are answered with REJECTED_STATE. A session idle for 1 s ends. (R286, R287, R289, R340, R341) -/
def Obligations.BootFrames : Prop :=
  ∀ (t : Ns) (q : MgmtReq) (s : State), s.power.state = .on → s.boot.phase ≠ 0 →
    (mgmtAllowed q s = true → keptBoot q s = none →
      (mgmtFormOk 16 q = true → exec (.bootHello q) s = .next (answerBoot 16 stDone q (bootInfo s) s)) ∧
      (mgmtFormOk 19 q = true → exec (.bootStatus q) s = .next (answerBoot 19 stDone q (bootInfo s) s)) ∧
      (s.boot.alive = true → mgmtAllowed q (passTo t s) = true →
        (mgmtFormOk 17 q = true → exec (.bootData t q) s = .next (answerBoot 17 stState q [] (passTo t s))) ∧
        (mgmtFormOk 18 q = true → exec (.bootGoFrame t q) s = .next (answerBoot 18 stState q [] (passTo t s)))) ∧
      (s.boot.alive = false → s.boot.phase = 2 → mgmtAllowed q (passTo t s) = true →
        (∀ src t0, s.boot.session = some (src, t0) → src ≠ q.src → max s.now t < t0 + 1000000000 →
          (mgmtFormOk 17 q = true → exec (.bootData t q) s = .next (answerBoot 17 stBusy q [] (passTo t s))) ∧
          (mgmtFormOk 18 q = true → exec (.bootGoFrame t q) s = .next (answerBoot 18 stBusy q [] (passTo t s)))) ∧
        ((s.boot.session = none ∨ ∃ src t0, s.boot.session = some (src, t0) ∧ (src = q.src ∨ t0 + 1000000000 ≤ max s.now t)) →
          let v := { passTo t s with boot := { s.boot with
            session := some (q.src, max s.now t)
            kept := if s.boot.keptFor = some q.src then s.boot.kept else []
            keptFor := some q.src } }
          (mgmtFormOk 17 q = true → q.count % 4 = 0 → 4 ≤ q.count → q.count ≤ 1024 → q.data.length = q.count → q.address % 4 = 0 →
            (q.address + q.count ≤ 50331648 → exec (.bootData t q) s =
              .next (answerBoot 17 stDone q [] (noteStaged q.address q.count (memWrite 32 q.address q.data v)))) ∧
            (50331648 < q.address + q.count → exec (.bootData t q) s = .next (answerBoot 17 stParam q [] v))) ∧
          (mgmtFormOk 18 q = true → q.count = 8 → q.data.length = 8 →
            (4096 ≤ field q.data 0 8 → field q.data 0 8 ≤ 50331648 → exec (.bootGoFrame t q) s =
              .next (answerBoot 18 stDone q [] { passTo t s with boot := { s.boot with
                phase := 3, goLen := field q.data 0 8, path := true, session := none } })) ∧
            (field q.data 0 8 < 4096 ∨ 50331648 < field q.data 0 8 →
              exec (.bootGoFrame t q) s = .next (answerBoot 18 stParam q [] (passTo t s))))))) ∧
    (mgmtFormOk 16 q = false → exec (.bootHello q) s = .next (mgmtDrop s)) ∧
    (mgmtFormOk 19 q = false → exec (.bootStatus q) s = .next (mgmtDrop s)) ∧
    (∀ src t0, s.boot.session = some (src, t0) → t0 + 1000000000 ≤ max s.now t →
      exec (.bootSessionIdle t) s = .next { passTo t s with boot := { s.boot with session := none } })

/-- Cores that were loaded, or run again after a firmware reset, and report alive release FAULT_N, make PHASE PROFILE where no profile is in
force, raise RESTARTED with kind, wake cause and cause and then the events that waited, and every port is enumerated. The profile read ends
with the copy that the selection gives in force, or with NO_PROFILE where it gives none. The partner wait ends, with no node absent or
PARTNER_WAIT gone, in PHASE START_CAL with the start calibrations requested, NODES_MISSING being raised where nodes are absent. READY_LOCAL
is reported once, when all that R346 names holds, with START_MS of the first time. A missed alive report is a FIRMWARE reset with cause 3
after which FW_WATCHDOG waits. An ARP request for the module's own address is answered with its MAC address, and any other is not. (R338,
R342, R344, R346, R353, R355, R543, R567, R579) -/
def Obligations.FromTheCoresToReady : Prop :=
  ∀ (t : Ns) (s : State), s.power.state = .on →
    (s.boot.alive = false → s.boot.phase = 4 → profileInForce s = false →
      let p := s.power
      let a := raise 0x1013 (natLE 1 p.lastKind.toNat ++ natLE 1 p.wakeCause.toNat ++ natLE 1 p.cause.toNat)
        { passTo t s with
            boot := { s.boot with alive := true, aliveAt := max s.now t, phase := 5 }
            power := { p with safe := false, onAlive := [] }
            pins := { s.pins with faultN := true } }
      let b := p.onAlive.foldl (fun s e => raise e.1 e.2 s) a
      (1 < p.lastKind.toNat → exec (.firmwareAlive t) s =
        .next (wakeLanes ((List.range s.variant.ports).foldl (fun s q => enumeration q s) b))) ∧
      (p.lastKind.toNat ≤ 1 → exec (.firmwareAlive t) s =
        .next (wakeLanes ((List.range s.variant.ports).foldl (fun s q => enumeration q s) (recDue 2 0 [] b))))) ∧
    (s.boot.alive = false → 4 ≤ s.boot.phase.toNat → s.boot.phase ≠ 11 → coresWait (passTo t s) = true →
      let p := s.power
      let a := raise 0x1013 (natLE 1 p.lastKind.toNat ++ natLE 1 p.wakeCause.toNat ++ natLE 1 p.cause.toNat)
        { passTo t s with
            boot := { s.boot with alive := true, aliveAt := max s.now t, phase := alivePhase (passTo t s) }
            power := { p with safe := false, onAlive := [] }
            pins := { s.pins with faultN := true } }
      let b := p.onAlive.foldl (fun s e => raise e.1 e.2 s) a
      let c := if s.boot.phase = 4 ∧ p.lastKind.toNat ≤ 1 then recDue 2 0 [] b else b
      exec (.firmwareAlive t) s = .next (wakeLanes ((List.range s.variant.ports).foldl (fun s q => enumeration q s) c))) ∧
    (s.boot.alive = true → s.boot.phase = 5 → profileInForce s = false →
      let x := selectCopy (passTo t s)
      let v := noteSelection x (passTo t s)
      (x.use ≠ 0 → exec (.profileReadDone t) s = .next (takeProfile x.use x.last v)) ∧
      (x.use = 0 → exec (.profileReadDone t) s =
        .next (raise 0xA019 [] { v with boot := { v.boot with phase := 12, error := 10 } }))) ∧
    (s.boot.alive = true → s.boot.phase = 6 → profileInForce s = true →
      let v := { passTo t s with boot := { s.boot with phase := 7, partnersDone := true, startCalDone := true } }
      (partnersAbsent s = 0 → exec (.partnerWaitEnd t) s = .next (calAtStart v)) ∧
      (0 < partnersAbsent s → s.boot.profileAt + 1000000000 * s.prof.machine.partnerWaitS ≤ max s.now t →
        exec (.partnerWaitEnd t) s = .next (calAtStart (raise 0x400C (natLE 2 (partnersAbsent s)) v))) ∧
      (0 < partnersAbsent s → max s.now t < s.boot.profileAt + 1000000000 * s.prof.machine.partnerWaitS →
        exec (.partnerWaitEnd t) s = .next (passTo t s))) ∧
    (∀ ms : Word, s.boot.readyLocal = false → readyNow (passTo t s) = true →
      ((s.boot.startMs ≠ 0 ∧ ms = s.boot.startMs) ∨
        (s.boot.startMs = 0 ∧ ms.toNat = min 0xFFFFFFFF ((max s.now t - s.boot.porAt) / 1000000))) →
      exec (.readyLocal t) s = .next (updateSynced (commitRollback (raise 0xA010
        (natLE 4 ms.toNat ++ natLE 2 (partnersAbsent s))
        { passTo t s with
            boot := { s.boot with readyLocal := true, phase := 8, startMs := ms }
            members := { s.members with keySince := some (max s.now t) } })))) ∧
    (s.boot.readyLocal = true ∨ readyNow (passTo t s) = false → exec (.readyLocal t) s = .next (passTo t s)) ∧
    (s.boot.alive = true → exec (.fwWatchdog t) s = .next (firmwareReset 3 { passTo t s with
      power := { s.power with onAlive := s.power.onAlive ++ [(0x1014, [])] } })) ∧
    (∀ ip, ownIp s = some ip → exec (.arpRequest t ip) s =
      .next { passTo t s with sent := .arp s.ident.otp.mac.toNat ip :: s.sent }) ∧
    (∀ ip, ownIp s ≠ some ip → exec (.arpRequest t ip) s = .next (passTo t s))

/-- With the module on: a MODULE, FIRMWARE or BLOCK command whose KEY is not 0x5253 is ignored with REJECTED_PARAM, as is BLOCK for a unit
the variant lacks; with the right KEY it is REJECTED_BUSY while a reset or an entry is under way, and otherwise it acts: MODULE is a restart
from the safe state (FAILED stays FAILED, the model's choice), FIRMWARE a firmware reset with cause 0, BLOCK the reset of the unit named.
STANDBY and HIBERNATE are REJECTED_STATE during a job or a profile write. XING_RESYNC adds its lost transfers to DROPPED, ends an episode of
DOMAIN_DOWN and releases its unit; the events that came to its PULSE crossing meanwhile are dropped as well, and more than 255 of them after
a stopped clock count in PULSE_LOST and raise XING_PULSE_LOST (that this LOST outlives the drop is the model's choice, log 108). An access
that times out counts, is recorded with DOMAIN_DOWN, raises its event once per episode, and a read answers all ones. (R330, R558, R561,
R562, R563, R567, R568, R569) -/
def Obligations.ResetCommandsAndCrossings : Prop :=
  ∀ (t : Ns) (key : BitVec 16) (s : State), s.power.state = .on →
    (key ≠ 0x5253 →
      exec (.moduleResetCmd key) s = .next (accessError stParam 0x1400 s) ∧
      exec (.firmwareResetCmd key) s = .next (accessError stParam 0x1400 s) ∧
      exec (.blockResetCmd key) s = .next (accessError stParam 0x1400 s) ∧
      exec (.standbyCmd key) s = .next (accessError stParam 0x1400 s) ∧
      exec (.hibernateCmd key) s = .next (accessError stParam 0x1400 s)) ∧
    (blockUnitOk s.power.blkKind.toNat s.power.blkIndex.toNat s = false →
      exec (.blockResetCmd key) s = .next (accessError stParam 0x1400 s)) ∧
    (resetUnderWay s = true →
      exec (.moduleResetCmd 0x5253) s = .next (accessError stBusy 0x1400 s) ∧
      exec (.firmwareResetCmd 0x5253) s = .next (accessError stBusy 0x1400 s) ∧
      (blockUnitOk s.power.blkKind.toNat s.power.blkIndex.toNat s = true →
        exec (.blockResetCmd 0x5253) s = .next (accessError stBusy 0x1400 s))) ∧
    (jobExists s = true ∨ s.profile.busy = true →
      exec (.standbyCmd 0x5253) s = .next (accessError stState 0x1400 s) ∧
      exec (.hibernateCmd 0x5253) s = .next (accessError stState 0x1400 s)) ∧
    (resetUnderWay s = false →
      (s.boot.phase ≠ 11 → exec (.moduleResetCmd 0x5253) s = .next (restart .module 0 0 (forceSafe s))) ∧
      (s.boot.phase = 11 → exec (.moduleResetCmd 0x5253) s = .next (setBoot (fun b => { b with phase := 11, error := 1 })
        (restart .module 0 0 (forceSafe s)))) ∧
      exec (.firmwareResetCmd 0x5253) s = .next (firmwareReset 0 s) ∧
      (blockUnitOk s.power.blkKind.toNat s.power.blkIndex.toNat s = true →
        exec (.blockResetCmd 0x5253) s = .next (blockReset s)) ∧
      (jobExists s = false → s.profile.busy = false →
        exec (.standbyCmd 0x5253) s = .next (beginEntry 1 false s) ∧
        exec (.hibernateCmd 0x5253) s = .next (beginEntry 2 false s))) ∧
    (∀ u d, s.power.blockReset.contains u = false ∨ 2 ≤ u.1 → (s.power.pulses.find? fun x => x.unit == u) = none →
      exec (.xingResync t u ⟨d, 0⟩) s = .next { passTo t s with
        power := { s.power with
          dropped := satAdd s.power.dropped d, downEpisode := false, blockReset := s.power.blockReset.filter fun x => x != u } }) ∧
    (∀ (u : UnitId) (d n : Nat), s.power.blockReset.contains u = false → (s.power.pulses.find? fun x => x.unit == u) = none →
      (0 < n → n ≤ 255 → exec (.xingResync t u ⟨d, n⟩) s = .next { passTo t s with
        power := { s.power with
          dropped := satAdd s.power.dropped (d + n), downEpisode := false, blockReset := s.power.blockReset.filter fun x => x != u
          pulses := { unit := u, count := 0, lost := false, told := none } :: s.power.pulses.filter fun x => x.unit != u } }) ∧
      (255 < n → exec (.xingResync t u ⟨d, n⟩) s = .next (raise 0x1015 (natLE 1 u.1 ++ natLE 1 u.2) { passTo t s with
        power := { s.power with
          dropped := satAdd s.power.dropped (d + 255), downEpisode := false, blockReset := s.power.blockReset.filter fun x => x != u
          pulseLost := satInc s.power.pulseLost
          pulses := { unit := u, count := 0, lost := false, told := some (max s.now t) } ::
            s.power.pulses.filter fun x => x.unit != u } }))) ∧
    (∀ off, s.power.downEpisode = true →
      let v := accessError stDown off { passTo t s with power := { s.power with
        down := satInc s.power.down, lastDown := BitVec.ofNat 26 off, downEpisode := true } }
      exec (.accessTimeout t off false) s = .next v ∧
      exec (.accessTimeout t off true) s = .next { v with sent := .readData off 0xFFFFFFFF :: v.sent }) ∧
    (∀ off, s.power.downEpisode = false → exec (.accessTimeout t off false) s =
      .next (raise 0x1016 (natLE 4 off) (accessError stDown off { passTo t s with power := { s.power with
        down := satInc s.power.down, lastDown := BitVec.ofNat 26 off, downEpisode := true } })))

/-- An entry ends by stopping the clocks: STANDBY keeps what a STANDBY exit keeps, HIBERNATE resets the module as PIN does; with no entry
under way nothing happens. In STANDBY HIB_WAKE, a wake frame and PERST_N rising wake the module, in HIBERNATE HIB_WAKE and input cycling;
before the wake sources are armed the first in R577's order is remembered and acts at the arming, where HIB_WAKE being high also acts. In
any other state none of them has an effect on the power state. HIB_REQ_N low for 10 ms with the firmware alive, armed and no job starts a
HIBERNATE entry; during a job nothing happens before 1 s, and then the job ends and the entry starts; its rise arms it again. (R503, R572,
R575, R576, R577) -/
def Obligations.PowerStatesAndWaking : Prop :=
  ∀ (t : Ns) (s : State),
    (s.power.entry = 1 → ∃ u, exec (.powerEntryDone t) s = .next u ∧ u.power.state = .standby ∧ u.boot.phase = 0 ∧
      u.power.earlyWake = s.power.earlyWake ∧
      u = { hold .standbyExit 0 .standby (passTo t s) with power := u.power }) ∧
    (s.power.entry = 2 → ∃ u, exec (.powerEntryDone t) s = .next u ∧ u.power.state = .hibernate ∧ u.boot.phase = 0 ∧
      u.basin.mem = [] ∧ u.power.earlyWake = s.power.earlyWake ∧
      u = { hold .pin 0 .hibernate (passTo t s) with power := u.power }) ∧
    (s.power.entry ≠ 1 → s.power.entry ≠ 2 → exec (.powerEntryDone t) s = .next (passTo t s)) ∧
    (s.power.state = .standby → s.power.armed = true →
      exec (.wakeFrame t) s = .next (leaveStandby 3 (passTo t s)) ∧
      exec (.hibWake t true) s = .next (leaveStandby 1 { passTo t s with pins := { s.pins with hibWake := true } }) ∧
      exec (.perstRise t) s = .next (leaveStandby 4 { passTo t s with pins := { s.pins with perstN := true } }) ∧
      exec (.inputCycling t) s = .next (passTo t s)) ∧
    (s.power.state = .hibernate → s.power.entry = 0 → s.power.armed = true →
      exec (.inputCycling t) s = .next (heldIfReset (restart .wake 0 2 (passTo t s))) ∧
      exec (.hibWake t true) s = .next (heldIfReset (restart .wake 0 1 { passTo t s with pins := { s.pins with hibWake := true } })) ∧
      exec (.wakeFrame t) s = .next (passTo t s)) ∧
    (s.power.state = .standby → s.power.armed = false → s.power.earlyWake = none →
      exec (.wakeFrame t) s = .next { passTo t s with power := { s.power with earlyWake := some 3 } }) ∧
    (∀ c, s.power.state = .standby → s.power.armed = false → s.pins.hibWake = false → s.power.earlyWake = some c →
      exec (.wakeSourcesArmed t) s = .next (leaveStandby c { passTo t s with
        power := { s.power with armed := true, earlyWake := none } })) ∧
    (s.power.state = .standby → s.power.armed = false → s.pins.hibWake = false → s.power.earlyWake = none →
      exec (.wakeSourcesArmed t) s = .next { passTo t s with power := { s.power with armed := true } }) ∧
    (s.power.state = .on → s.power.entry = 0 →
      exec (.wakeFrame t) s = .next (passTo t s) ∧ exec (.inputCycling t) s = .next (passTo t s) ∧
      exec (.perstRise t) s = .next { passTo t s with pins := { s.pins with perstN := true } } ∧
      (∀ b, exec (.hibWake t b) s = .next { passTo t s with pins := { s.pins with hibWake := b } }) ∧
      (∀ ms, 10 ≤ ms → s.boot.alive = true → s.pins.hibWake = false → s.power.reqArmed = true →
        let v := { passTo t s with pins := { s.pins with hibReqN := false } }
        (jobExists s = false → exec (.hibReqN t ms) s =
          .next (beginEntry 2 true { v with power := { s.power with reqArmed := false } })) ∧
        (jobExists s = true → ms < 1000 → exec (.hibReqN t ms) s = .next v) ∧
        (jobExists s = true → 1000 ≤ ms → s.jobs.line = false → exec (.hibReqN t ms) s =
          .next (beginEntry 2 true (setPower (fun p => { p with reqArmed := false }) (endJob v)))) ∧
        (jobExists s = true → 1000 ≤ ms → s.jobs.line = true → exec (.hibReqN t ms) s =
          .next (beginEntry 2 true (setPower (fun p => { p with reqArmed := false }) (endJob (flushMarks (cutMarks v)))))))) ∧
    (∀ b, (s.power.state = .standby ∨ s.power.state = .hibernate) → s.power.armed = false → s.pins.hibWake = b →
      (b = true ∨ s.power.earlyWake ≠ none) →
      exec (.wakeSourcesArmed t) s = .next (wakeNow (if b then 1 else s.power.earlyWake.getD 0) { passTo t s with
        power := { s.power with armed := true, earlyWake := none } })) ∧
    (s.power.state = .hibernate → s.power.armed = false → s.pins.hibWake = false → s.power.earlyWake = none →
      exec (.wakeSourcesArmed t) s = .next { passTo t s with power := { s.power with armed := true } }) ∧
    exec (.hibReqN t 0) s = .next { passTo t s with
      power := { s.power with reqArmed := true }, pins := { s.pins with hibReqN := true } }

/-- With the profile in force: HELLO is sent while the firmware is alive. A HELLO with a bad header or another MACHINE_ID counts in
PEER_FOREIGN. One with the own MODULE_ID and another SERIAL, or with the own member index and another MODULE_ID, is a conflict: without a
job the module enters CONFLICT, with READY_LOCAL and READY_SYNCED withdrawn and its event raised once; with a job the sender is silent from
then on. A member unheard for 500 ms after it was heard is lost, once, with MEMBER_LOST; a MACHINE_JOB then holds where it was the leader
(LEADER_LOST) or this module leads. A LEADER of a later term, or of the same term with a lower key, is accepted with LEADER_ELECTED where no
machine job exists, and any is where none has been accepted. A module that has been READY_LOCAL with the lowest key for 1 s, every member
settled and no leader accepted, sends LEADER with the next term and names itself. (R205, R348, R349, R350, R351, R352) -/
def Obligations.MachineMembers : Prop :=
  ∀ (t : Ns) (s : State), profileInForce s = true →
    (s.boot.alive = true → s.power.state = .on → exec (.helloSend t) s = .next (sendControl 3 (helloBytes s) (passTo t s))) ∧
    (∀ q : Hello, q.headerOk = false ∨ q.machineId ≠ s.prof.machine.machineId.toNat → exec (.helloReceive t q) s =
      .next { passTo t s with members := { s.members with foreign := satInc s.members.foreign } }) ∧
    (∀ q : Hello, q.headerOk = true → q.machineId = s.prof.machine.machineId.toNat →
      (q.moduleId = s.ident.moduleId.toNat → q.serial ≠ s.ident.otp.serial.toNat →
        exec (.helloReceive t q) s = .next (conflictFrom q true (passTo t s))) ∧
      (q.moduleId ≠ s.ident.moduleId.toNat → q.member = s.prof.machine.member →
        exec (.helloReceive t q) s = .next (conflictFrom q false (passTo t s))) ∧
      (q.moduleId ≠ s.ident.moduleId.toNat → q.member ≠ s.prof.machine.member → (otherMembers s).contains q.member = true →
        exec (.helloReceive t q) s = .next (helloFrom q (passTo t s))) ∧
      (q.moduleId = s.ident.moduleId.toNat → q.serial ≠ s.ident.otp.serial.toNat → jobExists s = false → s.members.idConflict = false →
        ∃ u, exec (.helloReceive t q) s = .next u ∧ u.boot.phase = 10 ∧ u.boot.error = 0x0B ∧ u.boot.readyLocal = false ∧
          u.boot.readySynced = false ∧ u.members.idConflict = true)) ∧
    (∀ m t0, (memberOf s m).last = some t0 → (memberOf s m).lost = false → (otherMembers s).contains m = true →
      (max s.now t < t0 + 500000000 → exec (.memberLost t m) s = .next (passTo t s)) ∧
      (t0 + 500000000 ≤ max s.now t →
        let d := natLE 1 m ++ natLE 2 (memberOf s m).moduleId
        let u := raise 0xA015 d (setMember m (fun x => { x with lost := true }) (passTo t s))
        let v := { u with members := { u.members with elected := false } }
        ((u.members.elected = false ∨ u.members.leaderMember.toNat ≠ m) → (machineJob u = false ∨ isLeader u = false) →
          exec (.memberLost t m) s = .next u) ∧
        ((u.members.elected = false ∨ u.members.leaderMember.toNat ≠ m) → machineJob u = true → isLeader u = true →
          exec (.memberLost t m) s = .next (holdForLoss u)) ∧
        (u.members.elected = true → u.members.leaderMember.toNat = m →
          (machineJob v = false → exec (.memberLost t m) s = .next v) ∧
          (machineJob v = true → exec (.memberLost t m) s = .next (holdForLoss (raise 0xA014 d v)))))) ∧
    (∀ q : LeaderMsg, q.valid = true → (otherMembers s).contains q.member = true → inConflict s = false →
      (leaderCounts q.member q.term s = true → exec (.leaderReceive t q) s = .next (acceptLeader q.member q.moduleId q.term
        { passTo t s with members := { s.members with topTerm := max s.members.topTerm q.term } })) ∧
      (s.members.elected = false → leaderCounts q.member q.term s = true) ∧
      (s.members.elected = true → machineJob s = true → leaderCounts q.member q.term s = false) ∧
      (s.members.elected = true → machineJob s = false → (leaderCounts q.member q.term s = true ↔
        (s.members.term < q.term ∨ (s.members.term = q.term ∧ memberKey s q.member < leaderKey s))))) ∧
    (∀ k, s.boot.readyLocal = true → inConflict s = false → otherMembers s ≠ [] → lowestSince s = some k → k + 1000000000 ≤ max s.now t →
      s.members.elected = false → membersSettled (passTo t s) = true →
      exec (.leaderElectionTimer t) s = .next (sendControl 4
        (natLE 4 (s.members.topTerm + 1) ++ natLE 1 (maskOf (candidates (passTo t s))) ++ natLE 3 0)
        (acceptLeader s.prof.machine.member s.ident.moduleId.toNat (s.members.topTerm + 1) (passTo t s))))

/-- With the firmware not alive neither command does anything. WRITE is REJECTED_BUSY while one is in progress and REJECTED_PARAM for an
address that is not 4 KiB aligned, a length below 256 or a region outside host memory; an image with no uncorrectable word that passes every
check, has a GENERATION above that in force and fits in half the memory is taken: BUSY is set, and the target is the copy not in force (A
where none is). The end of a WRITE clears BUSY, sets LAST_CMD and LAST_STATUS, raises its event, and on success makes the target hold
exactly the image. RELOAD is REJECTED_BUSY during a WRITE or a commit, REJECTED_STATE during a job, and FAILED_DATA, with the profile in
force unchanged, where no copy is valid; otherwise the selected copy comes into force, wholly where no profile was, and else as a reload,
answered with DONE, or with DONE_NOTE where records of class START differ. (R364, R382, R383, R384, R385) -/
def Obligations.ProfileWriteAndReload : Prop :=
  ∀ (t : Ns) (s : State),
    (s.boot.alive = false → exec .profileWrite s = .next s ∧ exec .profileReload s = .next s) ∧
    (s.boot.alive = true →
      let p := s.profile
      let a := p.ctrlAddr.toNat
      let n := p.ctrlLen.toNat
      let target := if p.inForce = 1 then 2 else 1
      (p.busy = true → exec .profileWrite s = .next (writeDone stBusy target 0 s)) ∧
      (p.busy = false → (a % 4096 ≠ 0 ∨ n < 256 ∨ hostMem a n s = false) →
        exec .profileWrite s = .next (writeDone stParam target 0 s)) ∧
      (p.busy = false → a % 4096 = 0 → 256 ≤ n → hostMem a n s = true → poisonIn a n s = none →
        (imageCheck (touchBasin a n s) (memRead a n s)).cause = 0 →
        p.generation.toNat < profGen ((memRead a n s).take 256) → n ≤ p.memBytes / 2 →
        ∃ u, exec .profileWrite s = .next u ∧ u.profile.busy = true ∧ u.profile.writing = some (target, memRead a n s) ∧
          u.profile.inForce = p.inForce ∧ u.profile.generation = p.generation ∧ u = { s with profile := u.profile, basin := u.basin } ∧
          u.basin = (touchBasin a n s).basin) ∧
      (p.busy = true → exec .profileReload s = .next (reloadDone stBusy s)) ∧
      (p.busy = false → jobExists s = true → exec .profileReload s = .next (reloadDone stState s)) ∧
      (p.busy = false → jobExists s = false → setsInCommit s ≠ 0 → exec .profileReload s = .next (reloadDone stBusy s)) ∧
      (p.busy = false → jobExists s = false → setsInCommit s = 0 →
        let x := selectCopy s
        let v := noteSelection x s
        (x.use = 0 → exec .profileReload s = .next (reloadDone stData v)) ∧
        (x.use ≠ 0 → profileInForce v = false → exec .profileReload s = .next (reloadDone stDone (takeProfile x.use x.last v))) ∧
        (x.use ≠ 0 → profileInForce v = true → startDiffers v.prof x.last.records = false →
          exec .profileReload s = .next (reloadDone stDone (applyReload x.use x.last v))) ∧
        (x.use ≠ 0 → profileInForce v = true → startDiffers v.prof x.last.records = true →
          exec .profileReload s = .next (reloadDone stDoneNote (applyReload x.use x.last v))))) ∧
    (∀ target img, s.profile.writing = some (target, img) →
      let u := { passTo t s with profile := { s.profile with
        busy := false, progress := 100, writing := none, lastStatus := 0, lastCmd := 1 } }
      (target = 1 → exec (.profileWriteDone t 0) s = .next (raise 0xA021 (natLE 1 0 ++ natLE 1 1 ++ natLE 4 (profGen (img.take 256)))
        { u with profile := { u.profile with memA := img } })) ∧
      (target = 2 → exec (.profileWriteDone t 0) s = .next (raise 0xA021 (natLE 1 0 ++ natLE 1 2 ++ natLE 4 (profGen (img.take 256)))
        { u with profile := { u.profile with memB := img } }))) ∧
    (s.profile.writing = none → ∀ r, exec (.profileWriteDone t r) s = .next (passTo t s))

/-- For a descriptor that may start and an axis 0 to 15 that the sequencer does not hold, in no safe state: AXIS_MOVE of an IDLE or MOVING
axis with a target in range, limits it can run by and no pending move puts the move as the axis's pending move with its launch (LAUNCH 0:
the first lane tick 2 µs after posting) and changes no other axis; with a pending move it is REJECTED_BUSY, with a target outside the range
REJECTED_PARAM, on a DISABLED, STOPPING or FAULT axis REJECTED_STATE, and a move relative to TOR with no job REJECTED_STATE. AXIS_HOME of an
IDLE axis starts a run in its direction with its limit in steps. AXIS_ENABLE sets AXEN and the state of axes at standstill and is
REJECTED_STATE whole for one that moves and would lose AXEN. AXIS_SET_POS sets the position of an IDLE or DISABLED axis and takes X_ORG and
P_ORG. For a descriptor that may start, where every axis stands and none has a latched change: AXIS_LIMITS of one axis sets its override
field by field (a field of 0 keeps the value, CLEAR removes the override), changes nothing else and completes with DONE; an AXIS_STOP of an
axis without a pending move completes with DONE at once and leaves its position and its state; AXIS_ENABLE of one axis sets AXEN and makes
it IDLE or, without AXEN, DISABLED, unless it is in FAULT, which stays. For every mask and state: AXIS_STOP drives a step that is due, drops
the pending moves of its axes, starts their ramps at their own or emergency limits, and ends when all stand; AXIS_ENABLE acts on all its
axes or none; AXIS_LIMITS replans a moving axis without a latched change, and is latched with DONE_NOTE by one in its deceleration. (R391,
R392, R398, R399, R400, R416, R393, R395, R396) -/
def Obligations.AxisOpcodes : Prop :=
  (∀ (h : Hdr) (s : State), Ready h s → s.power.safe = false → s.axes.axes.length = 16 → ∀ a < 16,
    let x := axisOf s a
    (seqHolds s a = false → (x.state = .idle ∨ x.state = .moving) → x.pending = none →
      (∀ (rel ptp : Bool) (target : Int) (v ac j launch at_ : Nat),
        let soon := tickAt (s.now + 2000)
        let goal := (if rel then (if x.state = .moving ∧ x.homing = none then x.target else x.pos) else 0) + target
        ((launch = 0 ∧ at_ = soon) ∨ (launch ≠ 0 ∧ ptp = true ∧ at_ = max soon (tickAt launch)) ∨
          (launch ≠ 0 ∧ ptp = false ∧ jobExists s = true ∧ ∃ tor, s.jobs.tor = some tor ∧ at_ = max soon (tickAt (tor + launch)))) →
        posMin s a ≤ goal → goal ≤ posMax s a → limitsOk s a (effLimits s a { speed := v, accel := ac, jerk := j }) = true →
        exec (.axisMove h a rel ptp target v ac j launch) s = .next (setAxis a (fun x => { x with
          pending := some { target := goal, limits := { speed := v, accel := ac, jerk := j },
                            launch := at_, ref := some h.ref, script := none } }) (accept h 0x50 s))) ∧
      (∀ (target : Int) (v ac j : Nat), target < posMin s a ∨ posMax s a < target →
        exec (.axisMove h a false false target v ac j 0) s = .next (finishIn (256 + a) h.ref stParam 0 0 (accept h 0x50 s))) ∧
      (∀ (rel : Bool) (target : Int) (v ac j launch : Nat), 0 < launch → jobExists s = false →
        exec (.axisMove h a rel false target v ac j launch) s = .next (finishIn (256 + a) h.ref stState 0 0 (accept h 0x50 s)))) ∧
    (seqHolds s a = false → (x.state = .idle ∨ x.state = .moving) → x.pending ≠ none →
      ∀ (target : Int) (v ac j : Nat), posMin s a ≤ target → target ≤ posMax s a →
        limitsOk s a (effLimits s a { speed := v, accel := ac, jerk := j }) = true →
        exec (.axisMove h a false false target v ac j 0) s = .next (finishIn (256 + a) h.ref stBusy 0 0 (accept h 0x50 s))) ∧
    (seqHolds s a = true ∨ (x.state ≠ .idle ∧ x.state ≠ .moving) → ∀ (rel ptp : Bool) (target : Int) (v ac j launch : Nat),
      exec (.axisMove h a rel ptp target v ac j launch) s = .next (finishIn (256 + a) h.ref stState 0 0 (accept h 0x50 s))) ∧
    (seqHolds s a = false → x.state = .idle → x.pending = none → x.latched = none →
      ∀ (down : Bool) (source chan v limit : Nat) (pos : Int),
      ((source = 0 ∧ chan ≤ 15) ∨ (source = 1 ∧ chan ≤ 7)) → 0 < v → limitsOk s a (effLimits s a { speed := v, accel := 0, jerk := 0 }) = true →
      ∃ u, exec (.axisHome h a down source chan v pos limit) s = .next u ∧ u = { accept h 0x54 s with axes := u.axes } ∧
        (axisOf u a).state = .moving ∧ (axisOf u a).pos = x.pos ∧ (axisOf u a).dirUp = !down ∧
        (axisOf u a).homing = some { trig := decide (source = 1), chan := chan, pos := pos, max := limit, latched := none, ref := h.ref } ∧
        (∀ b, b ≠ a → axisOf u b = axisOf s b) ∧
        ∀ p, (axisOf u a).plan = some p → p.run = .home ∧ p.total = limit ∧ p.done = 0 ∧ p.fin = none) ∧
    (seqHolds s a = true ∨ x.state ≠ .idle → ∀ (down : Bool) (chan v limit : Nat) (pos : Int), chan ≤ 7 → 0 < v →
      exec (.axisHome h a down 1 chan v pos limit) s = .next (finishIn (256 + a) h.ref stState 0 0 (accept h 0x54 s))) ∧
    (∀ v : BitVec 16, x.plan.isSome = true → v.getLsbD a = false →
      exec (.axisEnable h (BitVec.ofNat 16 (2 ^ a)) v) s = .next (endWith h.ref stState (accept h 0x53 s))) ∧
    (seqHolds s a = false → (x.state = .idle ∨ x.state = .disabled) → ∀ pos : Int,
      exec (.axisSetPos h a pos) s = .next (endWith h.ref stDone (setAxis a (fun y => { y with
        pos := pos, xOrg := (encOf s (axisFbEnc s a)).ext, pOrg := pos, feSince := none }) (accept h 0x55 s))) ∧
      exec (.axisSetPos h 16 pos) s = .next (endWith h.ref stParam (accept h 0x55 s)))) ∧
  (∀ (h : Hdr) (s : State), Ready h s → s.axes.axes.length = 16 → (∀ x ∈ s.axes.axes, x.plan = none ∧ x.pending = none ∧ x.latched = none) →
    (∀ x ∈ s.axes.script, x = .skip) → s.axes.stops = [] → ∀ a < 16,
    let m := BitVec.ofNat 16 (2 ^ a)
    (∀ v ac j : Nat,
      exec (.axisLimits h m false v ac j) s = .next (endWith h.ref stDone (setAxis a (fun x => { x with
        ovr :=
          let o := x.ovr.getD .none
          let n : AxisLimits := { speed := if v = 0 then o.speed else v, accel := if ac = 0 then o.accel else ac,
                                  jerk := if j = 0 then o.jerk else j }
          if n = .none then none else some n }) (accept h 0x51 s))) ∧
      exec (.axisLimits h m true v ac j) s = .next (endWith h.ref stDone (setAxis a (fun x => { x with ovr := none }) (accept h 0x51 s)))) ∧
    (∀ e : Bool, exec (.axisStop h m e) s = .next (finish h.ref stDone 0 0 (accept h 0x52 s))) ∧
    (∀ v : BitVec 16, exec (.axisEnable h m v) s = .next (endWith h.ref stDone (setAxis a (fun x => { x with
      axen := v.getLsbD a
      state := if x.state = .fault then .fault else if v.getLsbD a = true then .idle else .disabled }) (accept h 0x53 s))))) ∧
  (∀ (h : Hdr) (s : State), Ready h s → ∀ m : BitVec 16,
    (∀ e : Bool,
      let one := fun (u : State) (a : Nat) =>
        let u := dropPending a stAbHost (settleAxis a (driveDue a u))
        settleAxis a (beginStop a (if e then axisEmg u a else (axisOf u a).lim) stAbHost u)
      let u := { accept h 0x52 s with axes := { s.axes with stops := s.axes.stops ++ [(h.ref, m)] } }
      exec (.axisStop h m e) s = .next (checkScript (settleAxisStops ((axesIn m).foldl one u)))) ∧
    (∀ (a : Nat) (l : AxisLimits) (st : Nat) (p : AxisPlan), a < 16 → s.axes.axes.length = 16 → (axisOf s a).plan = some p →
      let u := beginStop a l st s
      (axisOf u a).state = .stopping ∧ (axisOf u a).plan = some (stopPlan s p l) ∧ (axisOf u a).pos = (axisOf s a).pos ∧
        ∀ b, b ≠ a → axisOf u b = axisOf s b) ∧
    (∀ v : BitVec 16,
      ((∀ a ∈ axesIn m, (axisOf s a).plan ≠ none → v.getLsbD a = true) →
        exec (.axisEnable h m v) s = .next (endWith h.ref stDone (checkScript ((axesIn m).foldl (fun u a =>
          if (axisOf u a).plan.isSome then u else enableAxis a (v.getLsbD a) u) (accept h 0x53 s))))) ∧
      ((∃ a ∈ axesIn m, (axisOf s a).plan ≠ none ∧ v.getLsbD a = false) →
        exec (.axisEnable h m v) s = .next (endWith h.ref stState (accept h 0x53 s)))) ∧
    (∀ (clear : Bool) (v ac j : Nat),
      let l : AxisLimits := { speed := v, accel := ac, jerk := j }
      ((∀ a < 16, m.getLsbD a = true → (axisOf s a).plan = none ∧ (axisOf s a).latched = none) → s.axes.axes.length = 16 →
        exec (.axisLimits h m clear v ac j) s = .next (endWith h.ref stDone ((axesIn m).foldl (fun u a =>
          setAxis a (fun x => { x with ovr := newOverride x clear l }) u) (accept h 0x51 s)))) ∧
      (∀ (a : Nat) (p : AxisPlan), a < 16 → s.axes.axes.length = 16 → m = BitVec.ofNat 16 (2 ^ a) → (axisOf s a).plan = some p →
        let w := accept h 0x51 s
        (p.run = .move → axisPhase s a = 3 → exec (.axisLimits h m clear v ac j) s =
          .next (endWith h.ref stDoneNote (latchLimits a clear l w))) ∧
        (¬(p.run = .move ∧ axisPhase s a = 3) → (axisOf s a).latched = none →
          let y := { axisOf s a with ovr := newOverride (axisOf s a) clear l }
          ∀ q, replanAxis w p (runLimits w a y) = some q → exec (.axisLimits h m clear v ac j) s =
            .next (endWith h.ref stDone (setAxis a (fun _ => { y with plan := some q, lim := runLimits w a y }) w))))))

/-- A pending move of an IDLE axis at standstill begins at its launch and not before: the axis is MOVING toward the target with a plan of
|target − position| steps, the pending place is empty, and no other axis changes. No step is driven before it is due; a step that is due
moves the position by one in the sense of DIR, counts in STEPS and records its time. Two leading edges are never closer than MIN_SPACE. A
following error that has lasted longer than 100 µs is a fault with cause FOLLOWING, and a shorter one is not. A script entry starts nothing
outside RECOAT, before its time, or when it has begun already, one whose axis is in FAULT or DISABLED is a recoat defect, and one whose axis
is IDLE starts its move. (R389, R390, R391, R392, R397, R400, R401) -/
def Obligations.AxisStepsAndFaults : Prop :=
  ∀ (t : Ns) (s : State) (a : Nat), a < 16 → s.axes.axes.length = 16 →
    let x := axisOf s a
    (∀ m, x.pending = some m → x.plan = none → x.state = .idle → x.latched = none → m.script = none → m.target ≠ x.pos →
      (max s.now t < m.launch → exec (.axisMoveStart t a) s = .next (passTo t s)) ∧
      (m.launch ≤ max s.now t → ∀ segs fin dec,
        axisProfile .zero .zero (F64.ofNat (m.target - x.pos).natAbs) (effLimits s a m.limits) = some (segs, fin, dec) →
        (∀ y ∈ s.axes.script, y ≠ .moving) →
        ∃ u, exec (.axisMoveStart t a) s = .next u ∧ u = { passTo t s with axes := u.axes } ∧
          (axisOf u a).state = .moving ∧ (axisOf u a).target = m.target ∧ (axisOf u a).pos = x.pos ∧ (axisOf u a).pending = none ∧
          (∃ p, (axisOf u a).plan = some p ∧ p.total = (m.target - x.pos).natAbs ∧ p.done = 0 ∧ p.segs = segs ∧ p.fin = some fin) ∧
          ∀ b, b ≠ a → axisOf u b = axisOf s b)) ∧
    (x.pending = none → exec (.axisMoveStart t a) s = .next (passTo t s)) ∧
    (∀ m, x.pending = some m → x.plan = none → x.state = .idle → m.launch ≤ max s.now t →
      exec (.axisMoveStart t a) s = .next (checkScript (settleAxis a (beginMove a m (passTo t s))))) ∧
    (∀ n p, nextStep s a = some n → x.plan = some p → n ≤ max s.now t →
      let u := trackFe a (setAxis a (fun x => { x with
        pos := (if x.dirUp then x.pos + 1 else x.pos - 1), steps := x.steps + 1, lastEdge := some n
        plan := some { p with done := p.done + 1 } }) (passTo t s))
      (p.run ≠ .home ∨ p.done + 1 < p.total → exec (.axisStep t a) s = .next (checkScript (settleAxis a u))) ∧
      (p.run = .home → p.total ≤ p.done + 1 →
        exec (.axisStep t a) s = .next (checkScript (settleAxis a (beginStop a (axisOf u a).lim stTimeout u))))) ∧
    (∀ e n, x.lastEdge = some e → nextStep s a = some n → e + max 250 (10 * stepWidth s a) ≤ n) ∧
    (∀ n p, nextStep s a = some n → x.plan = some p → p.run = .move → p.done + 1 < p.total → n ≤ max s.now t →
      (∀ y ∈ s.axes.script, y ≠ .moving) → axisFbEn s a = false →
      ∃ u, exec (.axisStep t a) s = .next u ∧ u = { passTo t s with axes := u.axes } ∧
        (axisOf u a).pos = (if x.dirUp then x.pos + 1 else x.pos - 1) ∧ (axisOf u a).steps = x.steps + 1 ∧
        (axisOf u a).lastEdge = some n ∧ (axisOf u a).state = x.state ∧ (∀ b, b ≠ a → axisOf u b = axisOf s b) ∧
        ∃ q, (axisOf u a).plan = some q ∧ q.done = p.done + 1 ∧ q.total = p.total) ∧
    (∀ t0, x.feSince = some t0 →
      (max s.now t ≤ t0 + 100000 → exec (.axisFollowingFault t a) s = .next (passTo t s)) ∧
      (t0 + 100000 < max s.now t → exec (.axisFollowingFault t a) s = .next (checkScript (axisFault a 1 (passTo t s))))) ∧
    (x.feSince = none → exec (.axisFollowingFault t a) s = .next (passTo t s)) ∧
    (∀ i, s.jobs.state ≠ 5 ∨ s.axes.scriptStart = none ∨ unit s.axes.script i .skip ≠ .waiting →
      exec (.scriptEntryStart t i) s = .next (passTo t s)) ∧
    (∀ i t0, s.jobs.state = 5 → s.axes.scriptStart = some t0 → unit s.axes.script i .skip = .waiting →
      t0 + 1000000 * cfgF s (scriptOff i 0) 16 16 ≤ max s.now t → afterEnded (passTo t s) i = true → cfgF s (scriptOff i 0) 0 4 = a →
      x.state = .fault ∨ x.state = .disabled → exec (.scriptEntryStart t i) s = .next (scriptDefect (passTo t s))) ∧
    (∀ i t0, s.jobs.state = 5 → s.axes.scriptStart = some t0 → unit s.axes.script i .skip = .waiting →
      t0 + 1000000 * cfgF s (scriptOff i 0) 16 16 ≤ max s.now t → afterEnded (passTo t s) i = true → cfgF s (scriptOff i 0) 0 4 = a →
      x.state = .idle → x.pending = none → s.power.safe = false →
      let m : AxisMove :=
        { target := if scriptKind s i = 1 then x.pos + cfgS s (scriptOff i 4) else cfgS s (scriptOff i 4),
          limits := { AxisLimits.none with speed := cfgWord s (scriptOff i 8) }, launch := max s.now t, ref := none, script := some i }
      posMin s a ≤ m.target → m.target ≤ posMax s a → limitsOk s a (effLimits s a m.limits) = true →
      exec (.scriptEntryStart t i) s = .next (axisMoveStart a (setAxis a (fun y => { y with pending := some m })
        (let u := passTo t s
         { u with axes := { u.axes with script := u.axes.script.set i .moving } }))))

/-- For a descriptor that may start: ENC_PRESET sets the extended count of its channels and makes their position the count mod CPR, the next
Z edge being the first after it. CMP_SET with a unit and a channel 0 to 15, a pitch from 1 to 2^31 − 1 and a width from 1 to 65,535 sets the
unit's registers, counts as an override and completes with DONE; for the TRIG_SOURCE of a LINE job it is REJECTED_STATE, and with a value
out of range REJECTED_PARAM. ECHO_SET with N from 1 to M and M at most 65,535 sets the output's registers and, enabling it, takes X_ORG; N
above M is REJECTED_PARAM. FAULT_CLEAR acts on every channel, axis and Hall group named: of a channel whose wires agree clears its latched
faults, and of an axis in FAULT whose condition no longer holds returns it to IDLE or DISABLED by AXEN. (R405, R407, R412, R414, R415, R416,
R417) -/
def Obligations.EncoderOpcodes : Prop :=
  ∀ (h : Hdr) (s : State), Ready h s →
    (∀ (e : Nat) (ext : Int), e < 16 → exec (.encPreset h (BitVec.ofNat 16 (2 ^ e)) ext) s = .next (endWith h.ref stDone
      (setEnc e (fun x => { x with
        ext := ext, position := (ext % (encCpr s e : Int)).toNat, zArmed := true
        winEdge := x.winEdge.map fun w => (w.1, w.2 + (ext - (encOf s e).ext))
        winPrev := x.winPrev.map fun w => (w.1, w.2 + (ext - (encOf s e).ext)) }) (accept h 0x56 s)))) ∧
    (∀ (m : BitVec 16) (ext : Int), exec (.encPreset h m ext) s = .next (endWith h.ref stDone
      ((axesIn m).foldl (fun u e => setEnc e (fun x => { x with
        ext := ext, position := (ext % (encCpr u e : Int)).toNat, zArmed := true
        winEdge := x.winEdge.map fun w => (w.1, w.2 + (ext - x.ext))
        winPrev := x.winPrev.map fun w => (w.1, w.2 + (ext - x.ext)) }) u) (accept h 0x56 s)))) ∧
    (∀ (am em : BitVec 16) (hm : BitVec 8), exec (.faultClear h am em hm) s = .next (endWith h.ref stDone
      (((List.range 8).filter fun g => hm.getLsbD g).foldl (fun u g => clearHall g u)
        ((axesIn am).foldl (fun u a => clearAxis a u) ((axesIn em).foldl (fun u e => clearEnc e u) (accept h 0x59 s)))))) ∧
    (∀ (k enc pitch width : Nat) (en rev : Bool) (c : Int), k < 16 → enc < 16 → 0 < pitch → pitch ≤ 2147483647 → 0 < width → width ≤ 65535 →
      (s.jobs.line = false ∨ (∀ hd, jobHeader s = some hd → hd.trigSource ≠ k) → exec (.cmpSet h k en rev enc pitch c width) s = .next (endWith h.ref stDone (bumpOverride 7 true
        (setCfgS64 (0x642008 + 0x40 * k) c (setCfg (0x642004 + 0x40 * k) pitch (setCfg (0x642000 + 0x40 * k)
          (b1 en + 2 * b1 rev + 16 * enc + 65536 * width) (accept h 0x57 s))))))) ∧
      (∀ hd, s.jobs.line = true → jobHeader s = some hd → hd.trigSource = k →
        exec (.cmpSet h k en rev enc pitch c width) s = .next (endWith h.ref stState (accept h 0x57 s)))) ∧
    (∀ (k enc pitch width : Nat) (en rev : Bool) (c : Int), 16 ≤ k ∨ 16 ≤ enc ∨ pitch = 0 ∨ 2147483647 < pitch ∨ width = 0 ∨ 65535 < width →
      exec (.cmpSet h k en rev enc pitch c width) s = .next (endWith h.ref stParam (accept h 0x57 s))) ∧
    (∀ (k enc n m : Nat) (en : Bool), k < 4 → enc < 16 → 0 < n → n ≤ m → m ≤ 65535 →
      let v := setCfg (0x643004 + 0x40 * k) (n + 65536 * m) (setCfg (0x643000 + 0x40 * k) (b1 en + 16 * enc) (accept h 0x58 s))
      (en = false → exec (.echoSet h k en enc n m) s = .next (endWith h.ref stDone (bumpOverride 7 true v))) ∧
      (en = true → exec (.echoSet h k en enc n m) s = .next (endWith h.ref stDone (bumpOverride 7 true
        (setEcho k (fun _ => { outCount := 0, xOrg := (encOf s enc).ext }) v))))) ∧
    (∀ (k enc n m : Nat) (en : Bool), m < n → exec (.echoSet h k en enc n m) s = .next (endWith h.ref stParam (accept h 0x58 s))) ∧
    (∀ e : Nat, e < 16 → (encOf s e).wireNow = 0 → exec (.faultClear h 0 (BitVec.ofNat 16 (2 ^ e)) 0) s =
      .next (endWith h.ref stDone (setEnc e (fun x => { x with faults := 0 }) (accept h 0x59 s)))) ∧
    (∀ a : Nat, a < 16 → (axisOf s a).state = .fault → axisBad s a = false →
      exec (.faultClear h (BitVec.ofNat 16 (2 ^ a)) 0 0) s = .next (endWith h.ref stDone (setAxis a (fun x => { x with
        state := if x.axen then .idle else .disabled, cause := 0, feSince := none }) (accept h 0x59 s))))

/-- A counted edge of a QUADRATURE channel moves the extended count by one in its sense, inverted with DIR_INVERT, and the position with it,
wrapping at CPR; an illegal transition counts in ILLEGAL and latches EDGE and moves no count. In any other mode no edge counts. A wire that
disagrees counts once in WIRE_EVENTS and latches its fault. An SSI read with the line low counts in SSI_ERRORS, latches SSI and keeps the
count; the first good one sets the position, and a later one moves the count by the step that it shows. At the end of a window above
CROSSOVER the speed is that between the last edges of two windows. No edge for T_STALL makes the speed 0 with SPEED_VALID and STANDSTILL
set. A Hall change to the next sector adds 1 to the count, one to the previous subtracts 1, one of two or three sectors leaves the count,
counts in HALL_SKIPS and latches SKIP, and an invalid code keeps the sector and latches INVALID. (R402, R403, R404, R405, R406, R408, R411,
R412, R413) -/
def Obligations.EncodersAndHallInTime : Prop :=
  ∀ (t : Ns) (s : State),
    (∀ e < 16, s.enc.length = 16 → encMode s e = 1 → cfgF s (encOff e 4) 0 16 = 0 →
      (∀ k < 16, cfgF s (cmpOff k 0) 4 4 ≠ e) → (∀ k < 4, cfgF s (echoOff k 0) 4 4 ≠ e) → (∀ a < 16, axisFbEnc s a ≠ e) →
      (∀ t0, (encOf s e).edge = some t0 → t0 ≤ max s.now t) →
      let x := encOf s e
      (cfgB s (encOff e 0) 20 = false →
        (∃ u, exec (.encEdge t e .up) s = .next u ∧ u = { passTo t s with enc := u.enc } ∧ (encOf u e).ext = x.ext + 1 ∧
          (encOf u e).position = (if encCpr s e ≤ x.position + 1 then 0 else x.position + 1) ∧ (encOf u e).faults = x.faults ∧
          ∀ f, f ≠ e → encOf u f = encOf s f) ∧
        (∃ u, exec (.encEdge t e .down) s = .next u ∧ u = { passTo t s with enc := u.enc } ∧ (encOf u e).ext = x.ext - 1 ∧
          (encOf u e).position = (if x.position = 0 then encCpr s e - 1 else x.position - 1))) ∧
      (cfgB s (encOff e 0) 20 = true →
        ∃ u, exec (.encEdge t e .up) s = .next u ∧ u = { passTo t s with enc := u.enc } ∧ (encOf u e).ext = x.ext - 1) ∧
      exec (.encEdge t e .illegal) s = .next (latchEnc e 8 (setEnc e (fun x => { x with illegal := satInc x.illegal }) (passTo t s)))) ∧
    (∀ e k, encMode s e ≠ 1 → exec (.encEdge t e k) s = .next (passTo t s)) ∧
    (∀ e, e < 16 → encMode s e = 1 →
      exec (.encEdge t e .up) s = .next (countEdge e true (passTo t s)) ∧
      exec (.encEdge t e .down) s = .next (countEdge e false (passTo t s)) ∧
      exec (.encEdge t e .index) s = .next (indexEdge e (passTo t s)) ∧
      exec (.encEdge t e .illegal) s = .next (latchEnc e 8 (setEnc e (fun x => { x with illegal := satInc x.illegal }) (passTo t s)))) ∧
    (∀ e sense, e < 16 → s.enc.length = 16 →
      let x := encOf s e
      let up := sense != cfgB s (encOff e 0) 20
      let short := x.edge.any fun t0 => decide (max s.now t < t0 + 5 * cfgF s (encOff e 4) 0 16)
      let y := edgeSpeed (max s.now t) up { x with
        ext := if up then x.ext + 1 else x.ext - 1
        position := if up then (if encCpr s e ≤ x.position + 1 then 0 else x.position + 1)
          else (if x.position = 0 then encCpr s e - 1 else x.position - 1)
        edgeFaults := if short then satInc x.edgeFaults else x.edgeFaults }
      let v := setEnc e (fun _ => y) (passTo t s)
      countEdge e sense (passTo t s) = countMoved e x.ext (if short then latchEnc e 8 v else v)) ∧
    (∀ e p, e < 16 → p ≤ 2 → (encMode s e = 1 ∨ (encMode s e = 2 ∧ p = 0)) → exec (.encWireFault t e p false) s =
      .next (setEnc e (fun x => { x with wireNow := x.wireNow &&& ~~~(BitVec.ofNat 3 (2 ^ p)) }) (passTo t s))) ∧
    (∀ e p, e < 16 → p ≤ 2 → (encMode s e = 1 ∨ (encMode s e = 2 ∧ p = 0)) → exec (.encWireFault t e p true) s =
      .next (latchEnc e (BitVec.ofNat 6 (2 ^ p)) (setEnc e (fun x => { x with
        wireNow := x.wireNow ||| BitVec.ofNat 3 (2 ^ p)
        wireEvents := if x.wireNow &&& BitVec.ofNat 3 (2 ^ p) = 0 then satInc x.wireEvents else x.wireEvents }) (passTo t s)))) ∧
    (∀ e, e < 16 → exec (.encWindowEnd t e) s = .next (windowEnd e (passTo t s))) ∧
    (∀ g t0, (hallOf s g).edge = some t0 → t0 + hallStallNs s g ≤ max s.now t → exec (.encStall t (16 + g)) s =
      .next (setHall g (fun x => { x with standstill := true, valid := true, mag := 0, run := 0 }) (passTo t s))) ∧
    (∀ e p, e < 16 → p ≤ 2 → encMode s e = 1 → (encOf s e).wireNow.getLsbD p = false → ∃ u, exec (.encWireFault t e p true) s =
      .next (latchEnc e (BitVec.ofNat 6 (2 ^ p)) u) ∧ u = { passTo t s with enc := u.enc } ∧
        (s.enc.length = 16 → (encOf u e).wireEvents = satInc (encOf s e).wireEvents ∧ (encOf u e).ext = (encOf s e).ext)) ∧
    (∀ e raw, e < 8 → encMode s e = 2 → exec (.ssiRead t e raw true) s =
      .next (latchEnc e 32 (setEnc e (fun x => { x with ssiErrors := satInc x.ssiErrors }) (passTo t s)))) ∧
    (∀ e raw, e < 8 → s.enc.length = 16 → encMode s e = 2 →
      let n := cfgF s (encOff e 0x14) 0 6
      let v := (if cfgB s (encOff e 0x14) 6 then unGray n (raw % 2 ^ n) else raw) % 2 ^ n
      let up := (v + encCpr s e - (encOf s e).ssiPrev.getD 0) % encCpr s e
      ((encOf s e).ssiPrev = none → exec (.ssiRead t e raw false) s = .next (setEnc e (fun x => { x with
        position := v, ssiPrev := some v, ssiReads := 1, ssiChange := max s.now t, edge := some (max s.now t) }) (passTo t s))) ∧
      ((encOf s e).ssiPrev.isSome → 4 * up ≤ encCpr s e → 0 < encCpr s e → ∃ u, exec (.ssiRead t e raw false) s =
        .next (countMoved e (encOf s e).ext u) ∧ u = { passTo t s with enc := u.enc } ∧ (encOf u e).position = v ∧
          (encOf u e).ext = (encOf s e).ext + up ∧ (encOf u e).ssiPrev = some v) ∧
      ((encOf s e).ssiPrev.isSome → 3 * encCpr s e ≤ 4 * up → 0 < encCpr s e → ∃ u, exec (.ssiRead t e raw false) s =
        .next (countMoved e (encOf s e).ext u) ∧ u = { passTo t s with enc := u.enc } ∧ (encOf u e).position = v ∧
          (encOf u e).ext = (encOf s e).ext + up - encCpr s e ∧ (encOf u e).ssiPrev = some v) ∧
      ((encOf s e).ssiPrev.isSome → encCpr s e < 4 * up → 4 * up < 3 * encCpr s e → exec (.ssiRead t e raw false) s =
        .next (latchEnc e 32 (setEnc e (fun x => { x with ssiErrors := satInc x.ssiErrors }) (passTo t s))))) ∧
    (∀ e t0, e < 16 → encMode s e = 1 → (encOf s e).edge = some t0 → t0 + encStallNs s e ≤ max s.now t →
      exec (.encStall t e) s = .next (setEnc e (fun x => { x with
        standstill := true, valid := true, mag := 0, window := false, run := 0, winEdge := none, winPrev := none }) (passTo t s))) ∧
    (∀ e, encMode s e ≠ 1 → exec (.encWindowEnd t e) s = .next (passTo t s)) ∧
    (∀ e t0 t1 c0, e < 16 → encMode s e = 1 → (encOf s e).edge = some t1 → max s.now t < t1 + 1000 * cfgF s (encOff e 0x0C) 16 16 →
      (encOf s e).winEdge = some (t0, c0) → t0 < t1 → (encOf s e).valid = true → (encOf s e).standstill = false →
      (encOf s e).window = false → cfgWord s (encOff e 0x10) ≤ (encOf s e).mag →
      exec (.encWindowEnd t e) s = .next (setEnc e (fun x => { x with
        winPrev := some (t0, c0), winEdge := some (t1, x.ext), window := true
        mag := roundDivN ((x.ext - c0).natAbs * 1000000000) (t1 - t0) }) (passTo t s))) ∧
    (∀ e, e < 16 → s.enc.length = 16 → encMode s e = 1 → (encOf s e).winEdge = none → (encOf s e).window = false →
      ∃ u, exec (.encWindowEnd t e) s = .next u ∧ u = { passTo t s with enc := u.enc } ∧ (encOf u e).window = false ∧
        (encOf u e).mag = (encOf s e).mag ∧ (encOf u e).ext = (encOf s e).ext) ∧
    (∀ g code n, g < 8 → s.hall.length = 8 → (hallOf s g).known = true → hallSector (code % 8) = some n →
      ((n + 6 - (hallOf s g).sector.toNat) % 6 = 1 → ∃ u, exec (.hallChange t g code) s = .next u ∧
        u = { passTo t s with hall := u.hall } ∧ (hallOf u g).count = (hallOf s g).count + 1 ∧ (hallOf u g).sector = BitVec.ofNat 3 n) ∧
      ((n + 6 - (hallOf s g).sector.toNat) % 6 = 5 → ∃ u, exec (.hallChange t g code) s = .next u ∧
        u = { passTo t s with hall := u.hall } ∧ (hallOf u g).count = (hallOf s g).count - 1 ∧ (hallOf u g).sector = BitVec.ofNat 3 n) ∧
      ((n + 6 - (hallOf s g).sector.toNat) % 6 ∈ [2, 3, 4] → ∃ u, exec (.hallChange t g code) s = .next u ∧
        (hallOf u g).count = (hallOf s g).count ∧ (hallOf u g).skips = satInc (hallOf s g).skips ∧ (hallOf u g).skip = true)) ∧
    (∀ g code n, g < 8 → hallSector (code % 8) = some n → (hallOf s g).known = false → exec (.hallChange t g code) s =
      .next (setHall g (fun x => { x with code := BitVec.ofNat 3 (code % 8), known := true, sector := BitVec.ofNat 3 n }) (passTo t s))) ∧
    (∀ g code n, g < 8 → hallSector (code % 8) = some n → (hallOf s g).known = true → (n + 6 - (hallOf s g).sector.toNat) % 6 = 0 →
      exec (.hallChange t g code) s =
        .next (setHall g (fun x => { x with code := BitVec.ofNat 3 (code % 8), known := true }) (passTo t s))) ∧
    (∀ g code, g < 8 → s.hall.length = 8 → (code % 8 = 0 ∨ code % 8 = 7) → ∃ u, exec (.hallChange t g code) s = .next u ∧
      (hallOf u g).invalid = true ∧ (hallOf u g).sector = (hallOf s g).sector ∧ (hallOf u g).count = (hallOf s g).count)

/-- For a descriptor that may start, after what has become due at the cameras: a port that the variant lacks is REJECTED_PARAM for all six.
CAM_STREAM RUN of a port with a ring streams at once, without one it is REJECTED_STATE; STOP stops the port, at once or, with a frame in
progress, at that frame's end, and its waiting triggers get no frame. CAM_EXP_WRITE with values in range fills the back set, its CCI entries
read from the list; a length outside 1 to 1,000,000 µs or a start above 100,000 µs is REJECTED_PARAM. CAM_EXP_COMMIT is REJECTED_BUSY with
four sets pending, waits for its launch where that lies ahead, and at its tick makes the back set the newest pending one with the next
generation, which DATA gives, its CCI writes queued; a launch relative to TOR with no TOR is REJECTED_STATE. CAM_TRIGGER of a port not in
HOST mode is REJECTED_STATE; otherwise it fires XTRIG of its ports at its launch. CAM_CCI queues its transfer behind those before it.
CAM_RING of a streaming port is REJECTED_STATE, with less than two slots REJECTED_PARAM, and otherwise sets the ring. (R422, R427, R429,
R430, R441, R454, R600) -/
def Obligations.CameraOpcodes : Prop :=
  ∀ (h : Hdr) (s : State), Ready h s →
    let v := fun n : Nat => camSettle (accept h n s)
    (∀ port, s.variant.cameras ≤ port →
      (∀ run, exec (.camStream h port run) s = .next (endWith h.ref stParam (v 0x60))) ∧
      (∀ len start mode count addr : Nat, exec (.camExpWrite h port len start mode count addr) s = .next (endWith h.ref stParam (v 0x61))) ∧
      (∀ launch, exec (.camExpCommit h port launch) s = .next (endWith h.ref stParam (v 0x62))) ∧
      (∀ launch mask, mask.testBit port = true → exec (.camTrigger h mask launch) s = .next (endWith h.ref stParam (v 0x63))) ∧
      (∀ (write wide : Bool) (reg value : Nat), exec (.camCci h port write wide reg value) s = .next (endWith h.ref stParam (v 0x64))) ∧
      (∀ base size slots : Nat, exec (.camRing h port base size slots) s = .next (endWith h.ref stParam (v 0x65)))) ∧
    (∀ mask launch at_, mask < 2 ^ s.variant.cameras → (∀ p < 8, mask.testBit p = true → camMode (v 0x63) p = 1) →
      lightLaunch launch (v 0x63) = some at_ →
      (at_ ≤ (v 0x63).now → exec (.camTrigger h mask launch) s = .next (finishIn (272 + (bitsOf 8 mask).headD 0) h.ref stDone 0 0
        ((bitsOf 8 mask).foldl (fun u p => fireXtrig p none noProduct (abortDiag p u)) (v 0x63)))) ∧
      ((v 0x63).now < at_ → exec (.camTrigger h mask launch) s =
        .next (setIsp (fun i => { i with trigs := i.trigs ++ [(at_, mask, some h.ref)] }) (v 0x63)))) ∧
    (∀ mask launch, mask < 2 ^ s.variant.cameras → (∀ p < 8, mask.testBit p = true → camMode (v 0x63) p = 1) →
      lightLaunch launch (v 0x63) = none → exec (.camTrigger h mask launch) s = .next (endWith h.ref stState (v 0x63))) ∧
    (∀ mask launch, mask < 2 ^ s.variant.cameras → (∃ p < 8, mask.testBit p = true ∧ camMode (v 0x63) p ≠ 1) →
      exec (.camTrigger h mask launch) s = .next (endWith h.ref stState (v 0x63))) ∧
    ∀ port < s.variant.cameras,
    ((camOf (v 0x60) port).ringSet = true → exec (.camStream h port true) s =
      .next (finishIn (272 + port) h.ref stDone 0 0 (setCam port (fun c => { c with streaming := true }) (v 0x60)))) ∧
    ((camOf (v 0x60) port).ringSet = false → exec (.camStream h port true) s = .next (finishIn (272 + port) h.ref stState 0 0 (v 0x60))) ∧
    ((camOf (v 0x60) port).frame = none → exec (.camStream h port false) s = .next (finishIn (272 + port) h.ref stDone 0 0
      (dropWaits port (setCam port (fun c => { c with streaming := false }) (v 0x60))))) ∧
    (∀ f, (camOf (v 0x60) port).frame = some f → exec (.camStream h port false) s = .next
      (dropWaits port (setCam port (fun c => { c with streaming := false, stops := c.stops ++ [h.ref] }) (v 0x60)))) ∧
    (∀ len start mode : Nat, 0 < len → len ≤ 1000000 → start ≤ 100000 → mode ≤ 1 → exec (.camExpWrite h port len start mode 0 0) s =
      .next (finishIn (272 + port) h.ref stDone 0 0 (setCam port (fun c => { c with
        back := { ExpSet.none with len := len, start := start, pulse := mode == 1, cci := [] } }) (v 0x61)))) ∧
    (∀ len start mode count addr : Nat, 0 < len → len ≤ 1000000 → start ≤ 100000 → mode ≤ 1 → 0 < count → count ≤ 16 →
      hostMem addr (8 * count) (v 0x61) = true → poisonIn addr (8 * count) (v 0x61) = none →
      ((∀ i < count, memNat (addr + 8 * i + 4) 4 (v 0x61) ≤ 1) → exec (.camExpWrite h port len start mode count addr) s =
        .next (finishIn (272 + port) h.ref stDone 0 0 (setCam port (fun c => { c with
          back := { ExpSet.none with
            len := len, start := start, pulse := mode == 1
            cci := (List.range count).map fun i =>
              { reg := memNat (addr + 8 * i) 2 (v 0x61), value := memNat (addr + 8 * i + 2) 2 (v 0x61),
                wide := (memNat (addr + 8 * i + 4) 1 (v 0x61)).testBit 0 } } }) (v 0x61)))) ∧
      ((∃ i < count, 1 < memNat (addr + 8 * i + 4) 4 (v 0x61)) → exec (.camExpWrite h port len start mode count addr) s =
        .next (finishIn (272 + port) h.ref stParam 0 0 (v 0x61)))) ∧
    (∀ len start mode count addr : Nat, len = 0 ∨ 1000000 < len ∨ 100000 < start ∨ 2 ≤ mode ∨ 16 < count →
      exec (.camExpWrite h port len start mode count addr) s = .next (endWith h.ref stParam (v 0x61))) ∧
    (∀ launch, 4 ≤ (camOf (v 0x62) port).pending.length + (camOf (v 0x62) port).commits.length →
      exec (.camExpCommit h port launch) s = .next (finishIn (272 + port) h.ref stBusy 0 0 (v 0x62))) ∧
    ((camOf (v 0x62) port).pending.length + (camOf (v 0x62) port).commits.length < 4 → ∀ launch : Nat,
      (lightLaunch launch (v 0x62) = none → exec (.camExpCommit h port launch) s = .next (finishIn (272 + port) h.ref stState 0 0 (v 0x62))) ∧
      (∀ at_, lightLaunch launch (v 0x62) = some at_ →
        ((v 0x62).now < at_ → exec (.camExpCommit h port launch) s =
          .next (setCam port (fun c => { c with commits := c.commits ++ [(at_, some h.ref)] }) (v 0x62))) ∧
        (at_ ≤ (v 0x62).now →
          let c := camOf (v 0x62) port
          let g := c.latestGen + 1
          let x : ExpSet := { c.back with
            gen := g, at_ := at_, written := if c.back.cci.isEmpty then some at_ else none, frames := 0, late := false }
          exec (.camExpCommit h port launch) s = .next (finishIn (272 + port) h.ref stDone 0 g.toNat (bumpOverride 7 true
            (setCam port (fun c => { c with
              latestGen := g, pending := c.pending ++ [x], cci := if x.cci.isEmpty then c.cci else c.cci ++ [.set g] }) (v 0x62))))))) ∧
    ((v 0x63).now % 5 = 0 → camMode (v 0x63) port = 1 → exec (.camTrigger h (2 ^ port) 0) s =
      .next (finishIn (272 + port) h.ref stDone 0 0 (fireXtrig port none 0xFFFFFFFF (abortDiag port (v 0x63))))) ∧
    (∀ (write wide : Bool) (reg value : Nat), exec (.camCci h port write wide reg value) s =
      .next (setCam port (fun c => { c with cci := c.cci ++ [.host h.ref write wide reg value] }) (v 0x64))) ∧
    (∀ base size slots : Nat, (camOf (v 0x65) port).streaming = true →
      exec (.camRing h port base size slots) s = .next (finishIn (272 + port) h.ref stState 0 0 (v 0x65))) ∧
    (∀ base size slots : Nat, (camOf (v 0x65) port).streaming = false → slots < 2 →
      exec (.camRing h port base size slots) s = .next (finishIn (272 + port) h.ref stParam 0 0 (v 0x65))) ∧
    (∀ base size slots : Nat, (camOf (v 0x65) port).streaming = false → base % 4096 = 0 → size % 4096 = 0 → 2 ≤ slots → slots ≤ 256 →
      codeOff (v 0x65) port + (if outCode (v 0x65) port then 65536 else 0) ≤ size → 0x1000 ≤ size → hostMem base (size * slots) (v 0x65) = true →
      exec (.camRing h port base size slots) s = .next (finishIn (272 + port) h.ref stDone 0 0 (setCam port (fun c => { c with
        ringSet := true, published := false, base := BitVec.ofNat 64 base, slotSize := size, slots := slots }) (v 0x65))))

/-- After what has become due at the cameras: an FS on a port that does not stream does nothing; one of another virtual channel only counts
in OTHER_PKT; one that answers a trigger with capacity left makes the frame in progress with the next number, the trigger's T_F, generation
and product, and takes the trigger from those waiting; without capacity the frame is dropped, counted and reported. A line with a bad header
counts in HDR_ERR, one of another data type or channel in OTHER_PKT, and a good one of WIDTH pixels is the frame's next row, scaled to 16
bits. A row that is not WIDTH pixels long is padded or cut and counted, one beyond HEIGHT only counted, one lost marks the frame OVERRUN.
FE, a LINE_TIMEOUT that is due, and nothing before it, end the frame: it waits for its statistics, TRUNCATED where lines are missing. No FS
within FRAME_TIMEOUT counts in NO_FRAME. A frame is published when its statistics are there and its coding has ended: FRAMES counts and
LAST_FRAME is its number. (R421, R423, R424, R425, R427, R442) -/
def Obligations.CameraFramesAndLines : Prop :=
  ∀ (t : Ns) (s : State) (p : Nat), p < 8 → (camSettle (passTo t s)).cams.length = 8 →
    let v := camSettle (passTo t s)
    let c := camOf v p
    (∀ vc, c.streaming = false → exec (.cameraFs t p vc) s = .next v) ∧
    (∀ vc, c.streaming = true → vc ≠ camF v p 0 3 2 →
      exec (.cameraFs t p vc) s = .next (setCam p (fun c => { c with otherPkt := satInc c.otherPkt }) v)) ∧
    (∀ w rest, c.streaming = true → c.frame = none → c.waits = w :: rest → c.ringSet = false → camMode v p ≠ 0 →
      (admitted v + camF v p 8 0 11 ≤ admitCapacity v →
        ∃ u, exec (.cameraFs t p (camF v p 0 3 2)) s = .next u ∧ u = { v with cams := u.cams } ∧ (camOf u p).frameNo = c.frameNo + 1 ∧
          (camOf u p).waits = rest ∧ (∀ q, q ≠ p → camOf u q = camOf v q) ∧ ∃ f, (camOf u p).frame = some f ∧ f.num = c.frameNo + 1 ∧
            f.gen = w.gen ∧ f.tF = w.tF ∧ f.product = w.product ∧ f.fs = v.now ∧ f.rows = [] ∧ f.truncated = false) ∧
      (admitCapacity v < admitted v + camF v p 8 0 11 →
        ∃ u, exec (.cameraFs t p (camF v p 0 3 2)) s = .next (afterJudging (judged p w.tF true
          (raise 0x7001 (natLE 1 p ++ natLE 4 (c.frameNo + 1).toNat ++ natLE 2 (admitted v)) u))) ∧
          u = { v with cams := u.cams } ∧ (camOf u p).dropped = c.dropped + 1 ∧ (camOf u p).frame = none)) ∧
    (c.streaming = true →
      let a := answeredTrig p (endFrame p false v)
      let d := camOf a.2 p
      let n := d.frameNo + 1
      let u := setCam p (fun c => { c with
        frameNo := n, fsTimes := if camMode a.2 p = 0 then (a.2.now :: c.fsTimes).take 2 else c.fsTimes }) a.2
      (admitCapacity u < admitted u + camF u p 8 0 11 → exec (.cameraFs t p (camF v p 0 3 2)) s = .next (afterJudging (judged p a.1.tF true
        (raise 0x7001 (natLE 1 p ++ natLE 4 n.toNat ++ natLE 2 (admitted (setCam p (fun c => { c with dropped := c.dropped + 1 }) u)))
          (setCam p (fun c => { c with dropped := c.dropped + 1 }) u))))) ∧
      (admitted u + camF u p 8 0 11 ≤ admitCapacity u →
        let f : CamFrame :=
          { num := n, gen := a.1.gen, tF := a.1.tF, fs := u.now, fe := 0, product := a.1.product, seq := a.1.seq, post := a.1.post
            truncated := false, overlong := false, fixed := false, crc := false, overrun := false, reset := false, lines := 0, fixes := 0
            rows := [], pads := [], lastLine := u.now, slot := if d.ringSet then some (slotOf u p n.toNat) else none, coding := false
            code := none, stats := false }
        let w := setCam p (fun c => { c with frame := some f, expGen := a.1.gen }) u
        (d.ringSet = false → exec (.cameraFs t p (camF v p 0 3 2)) s = .next w) ∧
        (d.ringSet = true → exec (.cameraFs t p (camF v p 0 3 2)) s = .next
          (memWrite (16 + p) (slotOf u p n.toNat) (natLE 4 n.toNat) (rtAccess (16 + p) (slotOf u p n.toNat) w))))) ∧
    (∀ hdr bad px, (c.streaming = true ∨ c.frame ≠ none) → hdr < 2 → dtBits (camF v p 0 5 6) ≠ 0 →
      exec (.cameraLine t p (camF v p 0 3 2) (camF v p 0 5 6) hdr bad false px) s = .next (takeLine p (camF v p 0 5 6) bad px v) ∧
      exec (.cameraLine t p (camF v p 0 3 2) (camF v p 0 5 6) hdr bad true px) s =
        .next (setCam p (fun c => { c with frame := c.frame.map fun f => { f with overrun := true } }) v)) ∧
    (∀ f dt px, c.frame = some f → f.rows.length < camHeight v p → f.slot = none →
      let u := takeLine p dt false px v
      u = { v with cams := u.cams } ∧
        (camOf u p).lineFixes = (if px.length = camWidth v p then c.lineFixes else satInc c.lineFixes) ∧
        ∃ g row, (camOf u p).frame = some g ∧ g.rows = f.rows ++ [row] ∧
          row.take px.length = (px.map fun x => x % 2 ^ dtBits dt * 2 ^ (16 - dtBits dt)).take (camWidth v p) ∧
          (camWidth v p = 0 ∨ row.length = camWidth v p) ∧
          g.fixed = (f.fixed || decide (px.length ≠ camWidth v p))) ∧
    (∀ f dt px, c.frame = some f → camHeight v p ≤ f.rows.length → takeLine p dt false px v = setCam p (fun c => { c with
      excess := satInc c.excess, frame := some { f with lines := f.lines + 1, overlong := true, lastLine := v.now } }) v) ∧
    exec (.cameraFe t p (camF v p 0 3 2)) s = .next (endFrame p false v) ∧
    (∀ vc dt hdr bad lost px, c.streaming = true → 2 ≤ hdr → exec (.cameraLine t p vc dt hdr bad lost px) s =
      .next (setCam p (fun c => { c with hdrErr := satInc c.hdrErr }) v)) ∧
    (∀ vc dt hdr bad lost px, c.streaming = true → hdr < 2 → (vc ≠ camF v p 0 3 2 ∨ dt ≠ camF v p 0 5 6) →
      exec (.cameraLine t p vc dt hdr bad lost px) s = .next (setCam p (fun c => { c with otherPkt := satInc c.otherPkt }) v)) ∧
    (∀ f hdr px, c.frame = some f → f.slot = none → hdr < 2 → dtBits (camF v p 0 5 6) = 10 → f.rows.length < camHeight v p →
      px.length = camWidth v p → ∃ u, exec (.cameraLine t p (camF v p 0 3 2) (camF v p 0 5 6) hdr false false px) s = .next u ∧
        u = { v with cams := u.cams } ∧ (camOf u p).lineFixes = c.lineFixes ∧ ∃ g, (camOf u p).frame = some g ∧
          g.rows = f.rows ++ [px.map fun x => x % 1024 * 64] ∧ g.lines = f.lines + 1 ∧ g.fixed = f.fixed ∧ g.num = f.num) ∧
    (∀ vc, c.frame = none → c.streaming = false → exec (.cameraFe t p vc) s = .next v) ∧
    (∀ f, c.frame = some f → f.slot = none → mereServes v p f = false → f.rows.length ≤ camHeight v p →
      ∃ u, exec (.cameraFe t p (camF v p 0 3 2)) s = .next u ∧ (camOf u p).frame = none ∧
        (∃ g, (camOf u p).closing = c.closing ++ [g] ∧ g.num = f.num ∧ g.fe = v.now ∧ g.rows.length = camHeight v p ∧
          g.truncated = (f.truncated || decide (f.rows.length < camHeight v p))) ∧
        (f.lastLine + 10000 * camF v p 0x10 0 16 ≤ v.now → exec (.lineTimeout t p) s = .next u)) ∧
    (∀ f, c.frame = some f → v.now < f.lastLine + 10000 * camF v p 0x10 0 16 → exec (.lineTimeout t p) s = .next v) ∧
    (∀ w rest, c.waits = w :: rest →
      (v.now < w.tF + 1000000 * camF v p 0x10 16 16 → exec (.camNoFrame t p) s = .next v) ∧
      (w.tF + 1000000 * camF v p 0x10 16 16 ≤ v.now → exec (.camNoFrame t p) s = .next (afterJudging (judged p w.tF true
        (raise 0x7002 (natLE 1 p ++ natLE 8 w.tF) (setCam p (fun c => { c with waits := rest, noFrame := satInc c.noFrame }) v)))))) ∧
    (∀ f rest, c.closing = f :: rest →
      (f.stats = false → f.slot = none → exec (.statsComplete t p) s = .next (afterJudging (judged p f.tF (bedDefect v
          (statsOf (camWidth v p) (camHeight v p) (decide (4 ≤ cfaOf v p)) f.pads (mosaic v p f.rows)))
        (setClosing p f.num (fun x => { x with stats := true }) v)))) ∧
      (f.stats = false → exec (.framePublish t p) s = .next v) ∧
      (f.stats = true → f.slot = none → f.coding = false → exec (.framePublish t p) s = .next (setCam p (fun c => { c with
        closing := rest, lastFrame := f.num, frames := c.frames + 1, published := c.published || false }) v)) ∧
      (∀ a, f.stats = true → f.slot = some a → (f.coding = false ∨ f.code ≠ none) → exec (.framePublish t p) s = .next (setCam p (fun c => { c with
        closing := rest, lastFrame := f.num, frames := c.frames + 1, published := c.published || true })
          (memWrite (16 + p) (a + 60) (natLE 4 f.num.toNat) (memWrite (16 + p) (a + 4) (frameRecord p f) v))))) ∧
    (∀ f, c.closing.find? (fun f => !f.stats) = some f →
      let r := statsOf (camWidth v p) (camHeight v p) (decide (4 ≤ cfaOf v p)) f.pads (mosaic v p f.rows)
      let u := match f.slot with
        | some a => memWrite (16 + p) (a + 0x800)
            (statsRecord f.num.toNat f.gen.toNat f.flags (camWidth v p * camHeight v p) r) v
        | none => v
      let w := setClosing p f.num (fun x => { x with stats := true }) u
      exec (.statsComplete t p) s = .next (afterJudging (judged p f.tF (bedDefect w r) w))) ∧
    (c.closing.find? (fun f => !f.stats) = none → exec (.statsComplete t p) s = .next v)

/-- A trigger at a port fires XTRIG at the next lane tick, takes the newest eligible set and fixes the exposure window from its start and
length; one less than the port's minimum interval after the last is ignored and counted. A CCI transfer that ends completes its CAM_CCI with
DONE and the value read, or TIMEOUT; a set whose transfer fails is dropped, counted and reported. A capture plan does nothing outside its
stage or before its time; when its time has come it triggers its port and counts on. A throttle step that was ordered reaches the pipeline
at its deadline at the latest. A set's last transfer that ends marks it written. At the edge of an exposure window the port's window state
changes, its strobes follow it and its start can sync the matrix, and where it does not, with no XTRIG pulse to end, nothing else does; a
pulse whose end has come ends. (R422, R426, R427, R430, R431, R432, R433) -/
def Obligations.TriggersSetsAndWindows : Prop :=
  ∀ (t : Ns) (s : State) (p : Nat), p < 8 → (camSettle (passTo t s)).cams.length = 8 →
    let v := camSettle (passTo t s)
    let c := camOf v p
    (∀ (seq : Option Nat) (product last : Nat), c.lastTrig = some last → tickAt v.now < last + 10000 * camF v p 0x14 0 20 →
      fireXtrig p seq product v = setCam p (fun c => { c with trigIgnored := satInc c.trigIgnored }) v) ∧
    (∀ (seq : Option Nat) (product : Nat), c.lastTrig = none → c.streaming = true → c.pending = [] →
      let x := setInForce v p
      let tF := tickAt v.now
      let u := fireXtrig p seq product v
      u = { v with cams := u.cams, sent := .edge 3 p true tF 0 :: v.sent } ∧
        (camOf u p).windows = c.windows ++ [(tF + 1000 * x.start, tF + 1000 * x.start + 1000 * x.len)] ∧
        (camOf u p).xtrig = some (tF + (if x.pulse then 10000 else 1000 * x.len)) ∧ (camOf u p).lastTrig = some tF ∧
        (camOf u p).waits = c.waits ++ [{ tF := tF, gen := x.gen, seq := seq, post := v.jobs.state == 3, product := product }]) ∧
    (c.cci = [] → ∀ ok e x, exec (.cciWriteDone t p ok e x) s = .next v) ∧
    (∀ r wr wide reg val rest e x, c.cci = .host r wr wide reg val :: rest →
      exec (.cciWriteDone t p true e x) s =
        .next (finishIn (272 + p) r stDone 0 (if wr then 0 else x) (setCam p (fun c => { c with cci := rest }) v)) ∧
      exec (.cciWriteDone t p false e x) s = .next (finishIn (272 + p) r stTimeout 0 0 (setCam p (fun c => { c with cci := rest }) v))) ∧
    (∀ g rest e x, c.cci = .set g :: rest → exec (.cciWriteDone t p false e x) s =
      .next (raise 0x7004 (natLE 1 p ++ natLE 4 g.toNat ++ natLE 1 e) (setCam p (fun c => { c with
        cci := rest, pending := c.pending.filter fun x => x.gen != g, cciFail := satInc c.cciFail }) v))) ∧
    (∀ g rest e x, c.cci = .set g :: rest →
      let n := ((c.pending.find? fun x => x.gen = g).map fun x => x.cci.length).getD 0
      (e + 1 < n → exec (.cciWriteDone t p true e x) s = .next v) ∧
      (n ≤ e + 1 → exec (.cciWriteDone t p true e x) s = .next (setCam p (fun c => { c with
        cci := rest, pending := c.pending.map fun x => if x.gen = g then { x with written := some v.now } else x }) v))) ∧
    (∀ plan, v.isp.plan = some plan → v.jobs.state.toNat = plan.stage → plan.due ≤ v.now →
      exec (.capturePlanTrigger t) s = .next (afterJudging (setIsp (fun i => { i with
        plan := if plan.left ≤ 1 then none else some { plan with left := plan.left - 1, due := plan.due + plan.period } })
        ((bitsOf 8 plan.mask).foldl (fun u q => seqTrigger plan q u) v)))) ∧
    (∀ n d, v.isp.order = some (n, d) → (∀ c ∈ v.cams, c.frame = none) → exec (.pipelineThrottleDeadline t) s =
      .next (setIsp (fun i => { i with capacity := n, order := none }) v)) ∧
    (let u := match c.xtrig with
      | some e => if e ≤ v.now then setCam p (fun c => { c with xtrig := none }) { v with sent := .edge 3 p false e 0 :: v.sent } else v
      | none => v;
     (c.inWindow = inWindowNow u p → exec (.exposureWindowEdge t p) s = .next u) ∧
     (c.inWindow ≠ inWindowNow u p →
      let on := inWindowNow u p
      let w := (List.range 16).foldl (fun w k =>
        if strobeOn w k && ledF w k 0 22 3 = p then setLed k (fun l => { l with lit := on && !w.power.safe }) w else w)
        (setCam p (fun c => { c with inWindow := on, windows := c.windows.filter fun x => decide (u.now < x.2) }) u)
      exec (.exposureWindowEdge t p) s =
        .next (if on && cfgF w 0x862000 6 2 = 2 && cfgF w 0x862000 8 3 = p then matrixSync w else w))) ∧
    (v.isp.plan = none → exec (.capturePlanTrigger t) s = .next (afterJudging v)) ∧
    (∀ plan, v.isp.plan = some plan → v.jobs.state.toNat ≠ plan.stage →
      exec (.capturePlanTrigger t) s = .next (afterJudging (setIsp (fun i => { i with plan := none }) v))) ∧
    (∀ plan, v.isp.plan = some plan → v.jobs.state.toNat = plan.stage → v.now < plan.due →
      exec (.capturePlanTrigger t) s = .next (afterJudging v)) ∧
    (∀ plan, v.isp.plan = some plan → v.jobs.state.toNat = plan.stage → plan.stage ≠ 7 → plan.due ≤ v.now → plan.mask = 2 ^ p →
      exec (.capturePlanTrigger t) s = .next (afterJudging (setIsp (fun i => { i with
        plan := if plan.left ≤ 1 then none else some { plan with left := plan.left - 1, due := plan.due + plan.period } })
        (fireXtrig p (some plan.layer) noProduct v)))) ∧
    (v.isp.order = none → exec (.pipelineThrottleDeadline t) s = .next v) ∧
    (∀ n d, v.isp.order = some (n, d) → d ≤ v.now → exec (.pipelineThrottleDeadline t) s =
      .next (setIsp (fun i => { i with capacity := n, order := none }) v)) ∧
    (∀ n d q, v.isp.order = some (n, d) → v.now < d → q < 8 → (camOf v q).frame ≠ none →
      exec (.pipelineThrottleDeadline t) s = .next v) ∧
    (c.xtrig = none → c.inWindow = inWindowNow v p → exec (.exposureWindowEdge t p) s = .next v) ∧
    (c.xtrig = none → c.inWindow ≠ inWindowNow v p →
      ∃ u, exec (.exposureWindowEdge t p) s = .next u ∧ (camOf u p).inWindow = inWindowNow v p) ∧
    (∀ e, c.xtrig = some e → e ≤ v.now → (∃ u, exec (.exposureWindowEdge t p) s = .next u ∧ (camOf u p).xtrig = none))

/-- For a descriptor that may start: LED_SET at or below the I_MAX of its channels waits there for a period start at its launch, and above
an I_MAX it is REJECTED_PARAM. LED_MATRIX_WRITE is REJECTED_STATE with the matrix off, REJECTED_BUSY with four frames queued, REJECTED_PARAM
outside host memory, and otherwise queues the 256 values behind the others. LED_FAULT_CLEAR clears the latched faults of the channels it
names and, where asked, of every segment. COLOR_TARGET sets TARGET of its channel, and counts as an override; a channel above 15 is
REJECTED_PARAM. A settings change applies only at a period start, a multiple of PWM_PERIOD: at any other time LED_PERIOD does nothing, and
at one with nothing waiting it takes what was measured; one whose launch has come applies there. A short or an open that is detected while a
pulse is long enough latches, turns the channel off and raises its event once. No diagnostic pulse is given in the safe state, in matrix
mode, or on a channel with a latched fault; a channel that its own pulses do not check gets one away from excluded windows. A colour read
moves the gain of the channel that it serves by R448. A colour sensor that does not answer counts its failures, and only the third in a row
raises COLOR_SENSOR_FAULT. A matrix slot ends after ROW_US and not before, and the next row follows; a sync puts the oldest queued frame in
force at row 0 and completes it, one with nothing queued counts in SYNC_EMPTY, and in the safe state nothing happens. (R444, R446, R448,
R450, R451, R454, R447, R449, R452) -/
def Obligations.Lights : Prop :=
  (∀ (h : Hdr) (s : State), Ready h s → s.light.leds.length = 16 →
    (∀ (c i d : Nat), c < 16 → i ≤ ledF s c 0 0 11 → exec (.ledSet h (2 ^ c) i d 0) s =
      .next (setLed c (fun l => { l with changes := l.changes ++ [{ launch := tickAt s.now, iSet := i, duty := d, ref := some h.ref }] })
        (accept h 0x66 s))) ∧
    (∀ (m i d launch at_ : Nat), m ≠ 0 → m < 65536 → (∀ c < 16, m.testBit c = true → i ≤ ledF s c 0 0 11) →
      ((launch = 0 ∧ at_ = tickAt s.now) ∨ (launch ≠ 0 ∧ ∃ tor, refTime true launch s = some tor ∧ at_ = tickAt tor)) →
      exec (.ledSet h m i d launch) s = .next ((bitsOf 16 m).foldl (fun u c => setLed c (fun l => { l with
        changes := l.changes ++ [{ launch := at_, iSet := i, duty := d, ref := some h.ref }] }) u) (accept h 0x66 s))) ∧
    (∀ (m c i d launch : Nat), c < 16 → m.testBit c = true → ledF s c 0 0 11 < i →
      exec (.ledSet h m i d launch) s = .next (endWith h.ref stParam (accept h 0x66 s))) ∧
    (∀ (m i d launch : Nat), 0 < launch → s.jobs.tor = none → (∀ c < 16, m.testBit c = true → i ≤ ledF s c 0 0 11) →
      exec (.ledSet h m i d launch) s = .next (endWith h.ref stState (accept h 0x66 s))) ∧
    (∀ a : Nat,
      (matrixOn s = false → exec (.ledMatrixWrite h a) s = .next (endWith h.ref stState (accept h 0x67 s))) ∧
      (matrixOn s = true → 4 ≤ s.light.matrix.queue.length →
        exec (.ledMatrixWrite h a) s = .next (endWith h.ref stBusy (accept h 0x67 s))) ∧
      (matrixOn s = true → s.light.matrix.queue.length < 4 → hostMem a 512 s = false →
        exec (.ledMatrixWrite h a) s = .next (endWith h.ref stParam (accept h 0x67 s))) ∧
      (matrixOn s = true → s.light.matrix.queue.length < 4 → hostMem a 512 s = true → poisonIn a 512 s = none →
        ∃ ctx, exec (.ledMatrixWrite h a) s = .next (setMatrix (fun m => { m with
          queue := m.queue ++ [((List.range 256).map fun i => memNat (a + 2 * i) 2 s, h.ref, ctx)] }) (accept h 0x67 s)) ∧
          292 ≤ ctx ∧ ctx ≤ 295 ∧ ∀ q ∈ s.light.matrix.queue, q.2.2 ≠ ctx)) ∧
    (∀ c, c < 16 → exec (.ledFaultClear h (2 ^ c) false) s =
        .next (endWith h.ref stDone (setLed c (fun l => { l with open_ := false, short := false }) (accept h 0x68 s))) ∧
      exec (.ledFaultClear h 0 true) s = .next (endWith h.ref stDone (setMatrix (fun m => { m with segOpen := 0 }) (accept h 0x68 s)))) ∧
    (∀ (m : Nat) (seg : Bool),
      let u := (bitsOf 16 m).foldl (fun u c => setLed c (fun l => { l with open_ := false, short := false }) u) (accept h 0x68 s)
      exec (.ledFaultClear h m seg) s =
        .next (endWith h.ref stDone (if seg then setMatrix (fun m => { m with segOpen := 0 }) u else u))) ∧
    (∀ c target, c < 16 → exec (.colorTarget h c target) s =
      .next (endWith h.ref stDone (bumpOverride 7 true (setCfgF (0x860014 + 0x100 * c) 16 16 target (accept h 0x69 s))))) ∧
    (∀ c target, 16 ≤ c → exec (.colorTarget h c target) s = .next (endWith h.ref stParam (accept h 0x69 s)))) ∧
  (∀ (t : Ns) (s : State),
    (∀ c i v, 16 ≤ c ∨ pwmPeriod s c = 0 ∨ max s.now t % pwmPeriod s c ≠ 0 → exec (.ledPeriod t c i v) s = .next (passTo t s)) ∧
    (∀ c i v, c < 16 → s.light.leds.length = 16 → 0 < pwmPeriod s c → max s.now t % pwmPeriod s c = 0 → (ledOf s c).changes = [] →
      (ledOf s c).gainNext = none → ∃ u, exec (.ledPeriod t c i v) s = .next u ∧ u = { passTo t s with light := u.light } ∧
        (ledOf u c).iMeas = BitVec.ofNat 16 i ∧ (ledOf u c).vMeas = BitVec.ofNat 16 v ∧ (ledOf u c).gain = (ledOf s c).gain ∧
        (ledOf u c).resumed = !s.power.safe ∧ ∀ d, d ≠ c → ledOf u d = ledOf s d) ∧
    (∀ c i v x, c < 16 → s.light.leds.length = 16 → 0 < pwmPeriod s c → max s.now t % pwmPeriod s c = 0 → (ledOf s c).changes = [x] →
      x.launch ≤ max s.now t → (ledOf s c).gainNext = none → ∃ u, exec (.ledPeriod t c i v) s = .next (settleLedSets x.ref.toList u) ∧
        u.cfg = (setCfgF (0x860010 + 0x100 * c) 0 11 x.iSet (setCfgF (0x860010 + 0x100 * c) 16 16 x.duty s)).cfg ∧
        (ledOf u c).changes = []) ∧
    (∀ c i v, c < 16 → 0 < pwmPeriod s c → max s.now t % pwmPeriod s c = 0 →
      let u := settleDiag c (passTo t s)
      let due := (ledOf u c).changes.filter fun x => decide (x.launch ≤ u.now)
      let a := setLed c (fun l => { l with
        changes := l.changes.filter (fun x => !decide (x.launch ≤ u.now)), iMeas := BitVec.ofNat 16 i, vMeas := BitVec.ofNat 16 v }) u
      let b := due.foldl (fun w x =>
        setCfgF (0x860010 + 0x100 * c) 0 11 x.iSet (setCfgF (0x860010 + 0x100 * c) 16 16 x.duty w)) a
      let d := match (ledOf b c).gainNext with
        | some g => if exclIn b c b.now (b.now + 1) then b else setLed c (fun l => { l with gain := g, gainNext := none }) b
        | none => b
      let e := resumeLed c d
      let f := if 1000 * tDet e c ≤ pulseNs e c then setLed c (fun l => { l with diagDone := some e.now, starvedEpisode := false }) e else e
      exec (.ledPeriod t c i v) s = .next (settleLedSets (due.filterMap fun x => x.ref) f)) ∧
    (∀ c row, c < 16 → row < 16 → matrixOn s = true → 0 < segmentNs (passTo t s) row c →
      1000 * tDet s c ≤ segmentNs (passTo t s) row c →
      ((ledOf s c).short = false → exec (.ledFaultDetect t c true row) s =
        .next (raise 0x7011 (natLE 1 c) (setLed c (fun l => { l with short := true }) (passTo t s)))) ∧
      exec (.ledFaultDetect t c false row) s = .next (raise 0x7013 (natLE 1 row ++ natLE 1 c)
        (setMatrix (fun m => { m with segOpen := m.segOpen ||| BitVec.ofNat 256 (2 ^ (16 * row + c)) }) (passTo t s)))) ∧
    (∀ c, c < 16 → matrixOn s = false →
      let u := settleDiag c (passTo t s)
      let l := ledOf u c
      let v := diagStarved c u
      pulseNs u c < 1000 * tDet u c → s.power.safe = false → l.open_ = false → l.short = false → l.diag = none →
      (∀ last, l.diagLast = some last → last + diagPeriod v c ≤ v.now) →
      (exclIn v c (v.now - 20000) (v.now + diagNs v c + 20000) = false → exec (.diagPulse t c) s = .next (setLed c (fun l => { l with
        diag := some (v.now, v.now + diagNs v c), diagLast := some v.now }) v)) ∧
      (exclIn v c (v.now - 20000) (v.now + diagNs v c + 20000) = true → exec (.diagPulse t c) s = .next v)) ∧
    (∀ reads : List (List Byte), matrixOn s = false →
      let fail := fun (k : Nat) (u : State) =>
        let n := u.light.sensorFails.getD k 0 + 1
        let w := { u with light := { u.light with sensorFails := u.light.sensorFails.set k n } }
        if n = 3 then raise 0x7015 (natLE 1 k) w else w
      let good := fun (k : Nat) (u : State) =>
        (List.range 16).foldl (fun w c =>
          if ledF w c 0x14 0 1 = 1 && ledF w c 0x14 1 2 = k && decide (ledF w c 0x14 3 2 < 3) && ledLit w c then
            updateGain c (colourValue k (ledF w c 0x14 3 2) (reads.getD k [])) w
          else w) { u with light := { u.light with sensorFails := u.light.sensorFails.set k 0 } }
      exec (.colorRead t reads) s =
        .next ((List.range 4).foldl (fun u k => if (reads.getD k []).length ≠ 6 then fail k u else good k u) (passTo t s))) ∧
    (matrixOn s = true → s.light.matrix.slotAt + rowNs s ≤ max s.now t →
      let u := if s.power.safe then setMatrix (fun m => { m with resumed := false }) (passTo t s) else passTo t s
      (s.light.matrix.row + 1 < matrixRows s → exec (.matrixSlot t) s =
        .next (setMatrix (fun m => { m with row := s.light.matrix.row + 1, slotAt := max s.now t }) u)) ∧
      (matrixRows s ≤ s.light.matrix.row + 1 →
        (cfgF s 0x862000 6 2 = 0 → s.power.safe = false → exec (.matrixSlot t) s = .next (matrixSync u)) ∧
        (cfgF s 0x862000 6 2 ≠ 0 ∨ s.power.safe = true → exec (.matrixSlot t) s =
          .next (setMatrix (fun m => { m with row := 0, slotAt := max s.now t }) u)))) ∧
    (∀ c row, c < 16 → matrixOn s = false → checksNow (passTo t s) c = true → (ledOf s c).open_ = false → (ledOf s c).short = false →
      exec (.ledFaultDetect t c true row) s = .next (raise 0x7011 (natLE 1 c) (setLed c (fun l => { l with
        open_ := false, short := true, lit := false, diag := none }) (passTo t s))) ∧
      exec (.ledFaultDetect t c false row) s = .next (raise 0x7010 (natLE 1 c) (setLed c (fun l => { l with
        open_ := true, short := false, lit := false, diag := none }) (passTo t s)))) ∧
    (∀ c sh row, matrixOn s = false → (checksNow (passTo t s) c = false ∨ (ledOf s c).open_ = true ∨ (ledOf s c).short = true) →
      exec (.ledFaultDetect t c sh row) s = .next (passTo t s)) ∧
    (∀ c, 16 ≤ c ∨ matrixOn s = true → exec (.diagPulse t c) s = .next (passTo t s)) ∧
    (∀ c, c < 16 → matrixOn s = false → s.light.leds.length = 16 →
      s.power.safe = true ∨ (ledOf s c).open_ = true ∨ (ledOf s c).short = true → (ledOf s c).diag = none →
      exec (.diagPulse t c) s = .next (passTo t s)) ∧
    (∀ c, c < 16 → matrixOn s = false → s.power.safe = false → pulseNs (passTo t s) c < 1000 * tDet s c → (ledOf s c).open_ = false →
      (ledOf s c).short = false → (ledOf s c).diag = none → (ledOf s c).diagLast = none →
      (∃ d, (ledOf s c).diagDone = some d ∧ max s.now t ≤ d + 4 * diagPeriod s c) →
      exclIn (passTo t s) c (max s.now t - 20000) (max s.now t + diagNs s c + 20000) = false →
      exec (.diagPulse t c) s = .next (setLed c (fun l => { l with
        diag := some (max s.now t, max s.now t + diagNs s c), diagLast := some (max s.now t) }) (passTo t s))) ∧
    (matrixOn s = true → ∀ reads, exec (.colorRead t reads) s = .next (passTo t s)) ∧
    (∀ (c : Nat) (bs : List Byte), c < 16 → matrixOn s = false → s.light.leds.length = 16 → s.light.sensorFails = [0, 0, 0, 0] →
      bs.length = 6 → (∀ d, d < 16 → d ≠ c → ledF s d 0x14 0 1 = 0) → ledF s c 0x14 0 1 = 1 → ledF s c 0x14 1 2 = 0 →
      ledF s c 0x14 3 2 < 3 → ledLit (passTo t s) c = true → ledF s c 0x14 16 16 ≠ 0 →
      let target := ledF s c 0x14 16 16
      let lim : Int := ledF s c 0x18 16 16
      let g := match (ledOf s c).gainNext with | some g => g.toNat | none => (ledOf s c).gain.toNat
      let num : Int := 2 * g * target + ledF s c 0x18 0 16 * ((target : Int) - colourValue 0 (ledF s c 0x14 3 2) bs)
      ∃ u, exec (.colorRead t [bs]) s = .next u ∧ (ledOf u c).gainNext = some (BitVec.ofNat 16 (min 65535
        (roundDiv (clampI ((65536 - lim) * target) ((65536 + lim) * target) num) (2 * target)).toNat))) ∧
    (matrixOn s = false → s.light.sensorFails = [0, 0, 0, 0] → ∃ u, exec (.colorRead t []) s = .next u ∧
      u = { passTo t s with light := u.light } ∧ u.light.sensorFails = [1, 1, 1, 1] ∧ u.light.leds = s.light.leds) ∧
    (matrixOn s = true → max s.now t < s.light.matrix.slotAt + rowNs s → exec (.matrixSlot t) s = .next (passTo t s)) ∧
    (matrixOn s = true → s.light.matrix.slotAt + rowNs s ≤ max s.now t → s.power.safe = false → s.light.matrix.row + 1 < matrixRows s →
      exec (.matrixSlot t) s = .next (setMatrix (fun m => { m with row := m.row + 1, slotAt := max s.now t }) (passTo t s))) ∧
    (matrixOn s = true → s.power.safe = false → cfgF s 0x862000 6 2 = 1 →
      (s.light.matrix.queue = [] → exec (.matrixSync t) s = .next (setMatrix (fun m => { m with
        row := 0, slotAt := max s.now t, resumed := true, syncEmpty := satInc m.syncEmpty }) (passTo t s))) ∧
      (∀ f r ctx rest, s.light.matrix.queue = (f, r, ctx) :: rest → exec (.matrixSync t) s = .next (finishIn ctx r stDone 0 0
        (setMatrix (fun m => { m with frame := f, queue := rest, row := 0, slotAt := max s.now t, resumed := true }) (passTo t s))))) ∧
    (matrixOn s = false ∨ s.power.safe = true ∨ cfgF s 0x862000 6 2 ≠ 1 → exec (.matrixSync t) s = .next (passTo t s)))

/-- For a descriptor that may start: a channel above 7 is REJECTED_PARAM, one of a camera or of Mere REJECTED_STATE, and one with a job
REJECTED_BUSY; input that is empty or no multiple of the unit is REJECTED_PARAM; a good ZIP_ENCODE or ZIP_DECODE puts its job on the channel
with all its input and the engines take what is ready; a good ZIP_OPEN does so with an empty buffer and completes at once. ZIP_FEED and
ZIP_FLUSH with no open job are REJECTED_STATE; a FEED of an open job joins those that wait. An engine with no channel, or not yet due, does
nothing. A block that is coded goes where the buffer stands, its bytes count, and the last one ends the job with DONE, DETAIL the blocks and
DATA the bytes; output that no longer fits ends it with FAILED_NO_SPACE, a decode of a damaged block with FAILED_DATA. A decoded block goes
behind those before it, one that no longer fits the limit ends the job, and the last ends it with DONE. (R458, R463, R465, R466, R467, R468,
R469, R470, R483) -/
def Obligations.ZipChannels : Prop :=
  ∀ (h : Hdr) (t : Ns) (s : State), Ready h s →
    (∀ (c kind fmt flags w a n o z : Nat), (zipFree c s ≠ stDone →
        exec (.zipEncode h c kind fmt flags w a n o z) s = .next (finishIn (280 + c % 8) h.ref (zipFree c s) 0 0 (accept h 0x70 s)) ∧
        exec (.zipOpen h c kind fmt flags w o z) s = .next (finishIn (280 + c % 8) h.ref (zipFree c s) 0 0 (accept h 0x71 s)) ∧
        exec (.zipDecode h c flags a n o z) s = .next (finishIn (280 + c % 8) h.ref (zipFree c s) 0 0 (accept h 0x74 s))) ∧
      (8 ≤ c → zipFree c s = stParam) ∧ (c < 8 → zipInternal s c = true → zipFree c s = stState) ∧
      (c < 8 → zipInternal s c = false → (zipChan s c).job ≠ none → zipFree c s = stBusy) ∧
      (c < 8 → zipInternal s c = false → (zipChan s c).job = none → zipFree c s = stDone)) ∧
    (∀ (c kind fmt w : Nat) (f : EpbForm), c < 8 → zipInternal s c = false → (zipChan s c).job = none → readForm kind fmt w = some f →
      (∀ a n o z : Nat, (n = 0 ∨ n % f.unit ≠ 0 ∨ hostMem a n s = false) →
        exec (.zipEncode h c kind fmt 2 w a n o z) s = .next (finishIn (280 + c) h.ref stParam 0 0 (accept h 0x70 s))) ∧
      (∀ a n o z : Nat, 0 < n → n % f.unit = 0 → hostMem a n s = true → 64 ≤ z → hostMem o z s = true →
        exec (.zipEncode h c kind fmt 2 w a n o z) s = .next (zipPost c { ZipJob.fresh 2 f (.mem a n n) with
          ref := some h.ref, opened := false, keep := true, table := none, bufs := [(o, z)], used := [0] } (accept h 0x70 s))) ∧
      (∀ o z : Nat, 64 ≤ z → hostMem o z s = true →
        exec (.zipOpen h c kind fmt 2 w o z) s = .next (finishIn (280 + c) h.ref stDone 0 0 (zipPost c { ZipJob.fresh 2 f .feed with
          ref := none, opened := true, keep := true, table := none, bufs := [(o, z)], used := [0] } (accept h 0x71 s))))) ∧
    (∀ c a n o z : Nat, c < 8 → zipInternal s c = false → (zipChan s c).job = none → hostMem a n s = true → hostMem o z s = true →
      exec (.zipDecode h c 0 a n o z) s = .next (zipPost c { ZipJob.fresh 2 { kind := 2, bytes := 1, channels := 1, width := 0 }
        (.pieces [(a, n)]) with ref := some h.ref, decode := true, out := o, limit := z } (accept h 0x74 s))) ∧
    (∀ (c kind fmt w flags o z : Nat) (fm : EpbForm), c < 8 → zipInternal s c = false → (zipChan s c).job = none →
      readForm kind fmt w = some fm → flags < 4 → ∀ bufs table, zipOutput (flags.testBit 0) o z s = .ok (bufs, table) →
      (∀ a n : Nat, 0 < n → n % fm.unit = 0 → hostMem a n s = true →
        exec (.zipEncode h c kind fmt flags w a n o z) s = .next (zipPost c { ZipJob.fresh 2 fm (.mem a n n) with
          ref := some h.ref, opened := false, keep := flags.testBit 1, table := table, bufs := bufs
          used := List.replicate bufs.length 0 } (accept h 0x70 s))) ∧
      exec (.zipOpen h c kind fmt flags w o z) s = .next (finishIn (280 + c) h.ref stDone 0 0 (zipPost c { ZipJob.fresh 2 fm .feed with
        ref := none, opened := true, keep := flags.testBit 1, table := table, bufs := bufs
        used := List.replicate bufs.length 0 } (accept h 0x71 s)))) ∧
    (∀ c flags a n o z : Nat, c < 8 → zipInternal s c = false → (zipChan s c).job = none → flags < 2 → hostMem o z s = true →
      (decodePieces (flags.testBit 0) a n s = none →
        exec (.zipDecode h c flags a n o z) s = .next (finishIn (280 + c) h.ref stParam 0 0 (accept h 0x74 s))) ∧
      (∀ ps, decodePieces (flags.testBit 0) a n s = some ps →
        exec (.zipDecode h c flags a n o z) s = .next (zipPost c { ZipJob.fresh 2 { kind := 2, bytes := 1, channels := 1, width := 0 }
          (.pieces ps) with ref := some h.ref, decode := true, out := o, limit := z } (accept h 0x74 s)))) ∧
    (∀ c j, c < 8 → zipInternal s c = false → (zipChan s c).job = some j → j.opened = true → j.failed = none → j.ending = true →
      exec (.zipFlush h c) s = .next (setZipJob c (fun j => { j with flushing := true, flushRefs := j.flushRefs ++ [h.ref] }) (accept h 0x73 s))) ∧
    (∀ c flags a n : Nat, c < 8 → flags < 4 → (n = 0 ∨ hostMem a n s = true) → zipInternal s c = false →
      ((zipChan s c).job = none → exec (.zipFeed h c flags a n) s = .next (finishIn (280 + c) h.ref stState 0 0 (accept h 0x72 s)) ∧
        exec (.zipFlush h c) s = .next (finishIn (280 + c) h.ref stState 0 0 (accept h 0x73 s))) ∧
      (∀ j, (zipChan s c).job = some j → j.opened = true → j.failed = none → j.ending = false →
        exec (.zipFeed h c flags a n) s = .next (zipGo c (setZipJob c (fun j => { j with feeds := j.feeds ++
          [{ ref := h.ref, addr := a, len := n, flush := bit flags 0, fin := bit flags 1, only := false }] }) (accept h 0x72 s))) ∧
        exec (.zipFlush h c) s = .next (zipGo c (setZipJob c (fun j => { j with feeds := j.feeds ++
          [{ ref := h.ref, addr := 0, len := 0, flush := true, fin := false, only := true }] }) (accept h 0x73 s))))) ∧
    (∀ e, (unit s.zip.engs e .reset).chan = none ∨ max s.now t < (unit s.zip.engs e .reset).due →
      exec (.zipBlockDone t e) s = .next (passTo t s)) ∧
    (∀ e c j n last, s.zip.chans.length = 8 → (unit s.zip.engs e .reset).chan = some c → (unit s.zip.engs e .reset).due ≤ max s.now t →
      (zipChan s c).job = some j → j.decode = false → j.work = some (n, last) →
      ∃ u, u = { passTo t s with zip := u.zip } ∧ u.zip.chans = s.zip.chans ∧
        exec (.zipBlockDone t e) s = .next (zipGo c (encodeDone c j (n, last) u)) ∧
        (∀ a left avail, j.src = .mem a left avail → poisonIn a n s = none →
          let block := epbBlock j.form (memRead a n s) (j.blocks == 0) last false
          (zipPlace j block.length = none → encodeDone c j (n, last) u = zipEnd c j stNoSpace 0 j.consumed u) ∧
          (∀ i, zipPlace j block.length = some i → last = true → j.keep = true →
            ∃ j', encodeDone c j (n, last) u = zipEnd c j' stDone (j.blocks + 1) (j.written + block.length)
              (setZipJob c (fun _ => j') (countBlock c n block.length (epbStored block)
                (memWrite 36 ((j.bufs.getD i (0, 0)).1 + j.used.getD i 0) block u))) ∧ j'.blocks = j.blocks + 1 ∧
              j'.written = j.written + block.length ∧ j'.consumed = j.consumed + n ∧ j'.ref = j.ref))) ∧
    (∀ e c j w, (unit s.zip.engs e .reset).chan = some c → (unit s.zip.engs e .reset).due ≤ max s.now t →
      (zipChan s c).job = some j → j.decode = true → j.work = some w →
      ∃ u, u = { passTo t s with zip := u.zip } ∧ u.zip.chans = s.zip.chans ∧
        exec (.zipBlockDone t e) s = .next (zipGo c (decodeDone c j u)) ∧
        (∀ ps b, j.src = .pieces ps → poisonPieces (nextPieces j ps) s = none → epbDecode (readPieces (nextPieces j ps) s) = some b →
          b.first = (j.blocks == 0) →
          (j.limit < j.written + b.input.length → decodeDone c j u = zipEnd c j stLimit 0 j.written u) ∧
          (j.written + b.input.length ≤ j.limit →
            let y : ZipJob := { j with
              inPos := j.inPos + b.size, consumed := j.consumed + b.size, written := j.written + b.input.length
              blocks := j.blocks + 1, work := none }
            let v := setZipJob c (fun _ => y) (countBlock c b.size b.input.length (field (readPieces (nextPieces j ps) s) 2 1 == 0)
              (memWrite 36 (j.out + j.written) b.input u))
            decodeDone c j u = if b.last then zipEnd c y stDone y.blocks y.written v else v))) ∧
    (∀ e c j w ps, (unit s.zip.engs e .reset).chan = some c → (unit s.zip.engs e .reset).due ≤ max s.now t →
      (zipChan s c).job = some j → j.decode = true → j.work = some w → j.src = .pieces ps → poisonPieces (nextPieces j ps) s = none →
      epbDecode (readPieces (nextPieces j ps) s) = none → ∃ u, u = { passTo t s with zip := u.zip } ∧ u.zip.chans = s.zip.chans ∧
        exec (.zipBlockDone t e) s = .next (zipGo c (zipEnd c j stData j.blocks j.written u)))

/-- For a descriptor that may start: COMPOSE_SCENE outside scenes 0 to 3 or host memory is REJECTED_PARAM, and so is a record that breaks
R471; a good record is in place at once, or when the composition in progress has ended. COMPOSE_RUN of a periodic or unloaded scene is
REJECTED_STATE, and of a loaded one waits for its launch; COMPOSE_STOP stops the scene, once the composition in progress has ended, and ends
the runs that wait with ABORTED_HOST; the scene bound to eDP is REJECTED_STATE. COMPOSE_LAYER of a layer the scene lacks is REJECTED_PARAM
and otherwise waits for the next composition. DISPLAY_SET of a scene that does not fit is REJECTED_PARAM, and otherwise waits for the next
frame start. A start while the composition before it has not ended is skipped as LATE and reported once; COMPOSE_DONE before the end does
nothing, and at the end writes the rows, the header and last TAIL_FRAME. A cache that is out of date is built from the record, one that is
not is not rebuilt. HPD high trains the link at the first setting that trains, and lowers TRAINED when it falls; an eDP frame without a
trained link is none, and one with it counts, takes a waiting binding, and shows the newest finished surface. (R471, R475, R476, R477, R480,
R481, R482, R484) -/
def Obligations.ScenesAndDisplay : Prop :=
  ∀ (h : Hdr) (t : Ns) (s : State), Ready h s → s.scenes.length = 4 →
    (∀ k a, (4 ≤ k ∨ hostMem a 576 s = false) → exec (.composeScene h k a) s = .next (endWith h.ref stParam (accept h 0x78 s))) ∧
    (∀ k a, k < 4 → hostMem a 576 s = true → poisonIn a 576 s = none →
      (sceneOk (memRead a 576 s) s = false → exec (.composeScene h k a) s = .next (finishIn (288 + k) h.ref stParam 0 0 (accept h 0x78 s))) ∧
      (sceneOk (memRead a 576 s) s = true → (isDisplay k s = false ∨ (readScene (memRead a 576 s)).periodic = true) →
        ((sceneOf s k).run = none → exec (.composeScene h k a) s =
          .next (loadScene k (readScene (memRead a 576 s)) h.ref (accept h 0x78 s))) ∧
        ((sceneOf s k).run ≠ none → exec (.composeScene h k a) s =
          .next (setScene k (fun x => { x with loads := x.loads ++ [(readScene (memRead a 576 s), h.ref)] }) (accept h 0x78 s))))) ∧
    (∀ k r launch tor, k < 4 → (sceneOf s k).rec_ = some r → r.periodic = false → launch ≠ 0 → refTime true launch s = some tor →
      exec (.composeRun h k launch) s = .next (setScene k (fun x => { x with
        runs := x.runs ++ [(h.ref, tickAt tor)], stopped := false }) (accept h 0x79 s))) ∧
    (∀ k launch, k < 4 → launch ≠ 0 → refTime true launch s = none →
      exec (.composeRun h k launch) s = .next (finishIn (288 + k) h.ref stState 0 0 (accept h 0x79 s))) ∧
    (∀ k, k < 4 → isDisplay k s = false →
      let u := setScene k (fun x => { x with stopped := true, runs := [] })
        ((sceneOf s k).runs.foldl (fun u p => finishIn (288 + k) p.1 stAbHost 0 0 u) (accept h 0x7A s))
      ((sceneOf s k).run = none → exec (.composeStop h k) s = .next (finishIn (288 + k) h.ref stDone 0 0 u)) ∧
      ((sceneOf s k).run ≠ none → exec (.composeStop h k) s = .next (setScene k (fun x => { x with stops := x.stops ++ [h.ref] }) u))) ∧
    (∀ (k l v al a : Nat) (x z : Int) (r : SceneRec) (q : CompLayer), k < 4 → l < 8 → v < 2 → (sceneOf s k).rec_ = some r →
      r.layers[l]? = some q →
      (q.source = 1 → let q' := { q with addr := if a = 0 then q.addr else a }
        hostMem (surfaceSpan q').1 (surfaceSpan q').2 s = true) →
      exec (.composeLayer h k l v al x z a) s = .next (setScene k (fun sc => { sc with
        changes := sc.changes ++ [{ layer := l, visible := v == 1, alpha := al, dstX := x, dstY := z, addr := a, ref := some h.ref }]
        rebuild := sc.rebuild || (sc.rec_.any fun y => changesStatic y
          { layer := l, visible := v == 1, alpha := al, dstX := x, dstY := z, addr := a, ref := some h.ref }) }) (accept h 0x7B s))) ∧
    (∀ k r, k < 4 → (sceneOf s k).rec_ = some r → r.outW = cfgF s 0x820004 0 13 → r.outH = cfgF s 0x820008 0 13 → r.periodic = true →
      3 ≤ r.count → exec (.displaySet h k) s =
        .next (setEdp (fun e => { e with bind := some (some k), bindRefs := e.bindRefs ++ [h.ref] }) (accept h 0x7C s))) ∧
    (∀ k r, k < 4 → (sceneOf s k).rec_ = some r → r.periodic = false →
      (∀ x at_ rest, (sceneOf s k).runs = (x, at_) :: rest → (sceneOf s k).run = none → at_ ≤ max s.now t →
        exec (.composeStart t k) s = .next (composeBegin k (some x) (setScene k (fun x => { x with runs := rest }) (passTo t s)))) ∧
      ((sceneOf s k).runs = [] ∨ (sceneOf s k).run ≠ none → exec (.composeStart t k) s = .next (passTo t s))) ∧
    (∀ k u, k < 4 → (sceneOf s k).run = some u → u.due ≤ max s.now t → sourcesPoison u (passTo t s) = none →
      let v := passTo t s
      let a := u.scene.bufAddr u.buf
      let ls := drawn u v
      let torn := tornMask u v
      let rows := (List.range u.scene.outH).map fun y => outputRow u ls y v
      let w := setScene k (fun x => { x with
        run := none, heads := x.heads.set u.buf u.head, lastFrame := BitVec.ofNat 32 u.head
        torn := if torn = 0 then x.torn else satInc x.torn, tornEpisode := torn != 0 })
        (memWrite 37 (a + 60) (natLE 4 u.head) (memWrite 37 (a + 4) (surfaceHeader k u torn
          ((List.range u.scene.outH).foldl (fun s y => memWrite 37 (a + 0x1000 + y * u.scene.stride) (rows.getD y []) s) v))
          ((List.range u.scene.outH).foldl (fun s y => memWrite 37 (a + 0x1000 + y * u.scene.stride) (rows.getD y []) s) v)))
      let x := if torn ≠ 0 ∧ (sceneOf s k).tornEpisode = false then raise 0x7025 (natLE 1 k ++ natLE 1 torn) w else w
      let y := match u.ref with | some r => finishIn (288 + k) r stDone 0 u.head x | none => x
      exec (.composeDone t k) s = .next (runDue k (afterRun k y))) ∧
    (∀ k r, (sceneOf s k).run = none → cacheDue k s = true →
      let u := takeChanges k true (passTo t s)
      (sceneOf u.2 k).rec_ = some r → exec (.cacheRebuild t k) s = .next (setScene k (fun x => { x with
        cache := some (flatten r u.2), rebuild := false, cacheIndex := jobLayer u.2, cacheBuilds := x.cacheBuilds + 1
        cacheRefs := x.cacheRefs ++ u.1 }) u.2)) ∧
    (∀ (ml mr : Nat) (tr : List (Nat × Nat)),
      (s.edp.trained = true → exec (.edpHpd t 1 ml mr tr true) s =
        .next (edpTrain ml mr tr (setEdp (fun e => { e with linkLoss := satInc e.linkLoss }) (passTo t s)))) ∧
      (s.edp.trained = true → exec (.edpHpd t 1 ml mr tr false) s = .next (passTo t s)) ∧
      (∀ b, s.edp.hpd = false → (edpSettings s).find? (fun p => tr.contains p) = none → exec (.edpHpd t 0 ml mr tr b) s =
        .next (raise 0x7022 (natLE 1 ml ++ natLE 1 mr) (setEdp (fun e => { e with
          hpd := true, trained := false, lanes := 0, rate := 0, trainFail := satInc e.trainFail }) (passTo t s))))) ∧
    (s.edp.trained = true →
      let u := takeBinding (setEdp (fun e => { e with frames := e.frames + 1 }) (passTo t s))
      (u.edp.scene = none → exec (.edpFrameStart t) s = .next u) ∧
      (∀ k, u.edp.scene = some k →
        let v := takeSurface k u
        ((∀ r, (sceneOf v k).rec_ = some r → r.periodUs ≠ 0) → exec (.edpFrameStart t) s = .next v) ∧
        (∀ r, (sceneOf v k).rec_ = some r → r.periodUs = 0 → exec (.edpFrameStart t) s = .next (composeStart k v)))) ∧
    (∀ k, k < 4 → (sceneOf s k).rec_ = none → exec (.composeRun h k 0) s = .next (finishIn (288 + k) h.ref stState 0 0 (accept h 0x79 s))) ∧
    (∀ k r, k < 4 → (sceneOf s k).rec_ = some r →
      (r.periodic = true → exec (.composeRun h k 0) s = .next (finishIn (288 + k) h.ref stState 0 0 (accept h 0x79 s))) ∧
      (r.periodic = false → exec (.composeRun h k 0) s = .next (setScene k (fun x => { x with
        runs := x.runs ++ [(h.ref, tickAt (s.now + 1))], stopped := false }) (accept h 0x79 s)))) ∧
    (∀ k, k < 4 →
      (isDisplay k s = true → exec (.composeStop h k) s = .next (finishIn (288 + k) h.ref stState 0 0 (accept h 0x7A s))) ∧
      (isDisplay k s = false → (sceneOf s k).runs = [] → (sceneOf s k).run = none → exec (.composeStop h k) s =
        .next (finishIn (288 + k) h.ref stDone 0 0 (setScene k (fun x => { x with stopped := true, runs := [] }) (accept h 0x7A s))))) ∧
    (∀ (k l v al a : Nat) (x z : Int), k < 4 → l < 8 → v < 2 →
      ((sceneOf s k).rec_ = none → exec (.composeLayer h k l v al x z a) s = .next (finishIn (288 + k) h.ref stState 0 0 (accept h 0x7B s))) ∧
      (∀ r, (sceneOf s k).rec_ = some r →
        (r.layers.length ≤ l → exec (.composeLayer h k l v al x z a) s = .next (finishIn (288 + k) h.ref stParam 0 0 (accept h 0x7B s))) ∧
        (∀ q, r.layers[l]? = some q → q.source = 2 → q.isStatic = false → exec (.composeLayer h k l v al x z a) s =
          .next (setScene k (fun sc => { sc with
            changes := sc.changes ++ [{ layer := l, visible := v == 1, alpha := al, dstX := x, dstY := z, addr := a, ref := some h.ref }]
            rebuild := sc.rebuild || (sc.rec_.any fun y => changesStatic y
              { layer := l, visible := v == 1, alpha := al, dstX := x, dstY := z, addr := a, ref := some h.ref }) }) (accept h 0x7B s))))) ∧
    (∀ k, displaySetCheck k s ≠ stDone → exec (.displaySet h k) s = .next (endWith h.ref (displaySetCheck k s) (accept h 0x7C s))) ∧
    (exec (.displaySet h 0xFF) s = .next (setEdp (fun e => { e with bind := some none, bindRefs := e.bindRefs ++ [h.ref] }) (accept h 0x7C s))) ∧
    (∀ k r, k < 4 → (sceneOf s k).rec_ = some r → r.periodic = true → r.periodUs ≠ 0 →
      (max s.now t % (1000 * r.periodUs) ≠ 0 → exec (.composeStart t k) s = .next (passTo t s)) ∧
      (max s.now t % (1000 * r.periodUs) = 0 → (sceneOf s k).stopped = false → (sceneOf s k).run ≠ none →
        ((sceneOf s k).lateEpisode = true → exec (.composeStart t k) s =
          .next (setScene k (fun x => { x with late := satInc x.late, lateEpisode := true }) (passTo t s))) ∧
        ((sceneOf s k).lateEpisode = false → exec (.composeStart t k) s = .next (raise 0x7024 (natLE 1 k ++ natLE 4 (costOf r))
          (setScene k (fun x => { x with late := satInc x.late, lateEpisode := true }) (passTo t s))))) ∧
      (max s.now t % (1000 * r.periodUs) = 0 → (sceneOf s k).stopped = false → (sceneOf s k).run = none →
        exec (.composeStart t k) s = .next (composeBegin k none (passTo t s)))) ∧
    (∀ k, (sceneOf s k).run = none → exec (.composeDone t k) s = .next (passTo t s)) ∧
    (∀ k u, (sceneOf s k).run = some u → max s.now t < u.due → exec (.composeDone t k) s = .next (passTo t s)) ∧
    (∀ k u, k < 4 → (sceneOf s k).run = some u → u.due ≤ max s.now t → u.ref = none → sourcesPoison u (passTo t s) = none →
      tornMask u (passTo t s) = 0 → (sceneOf s k).stops = [] → (sceneOf s k).loads = [] → (sceneOf s k).runs = [] →
      let v := passTo t s
      let a := u.scene.bufAddr u.buf
      let ls := drawn u v
      let rows := (List.range u.scene.outH).map fun y => outputRow u ls y v
      exec (.composeDone t k) s = .next (setScene k (fun x => { x with
        run := none, heads := x.heads.set u.buf u.head, lastFrame := BitVec.ofNat 32 u.head, tornEpisode := false })
        (memWrite 37 (a + 60) (natLE 4 u.head) (memWrite 37 (a + 4) (surfaceHeader k u 0 v)
          ((List.range u.scene.outH).foldl (fun s y => memWrite 37 (a + 0x1000 + y * u.scene.stride) (rows.getD y []) s) v))))) ∧
    (∀ k r, k < 4 → (sceneOf s k).run = none → cacheDue k s = true → (sceneOf s k).rec_ = some r → (sceneOf s k).changes = [] →
      ∃ u, exec (.cacheRebuild t k) s = .next u ∧ (sceneOf u k).cache = some (flatten r (passTo t s)) ∧ (sceneOf u k).rebuild = false ∧
        (sceneOf u k).cacheIndex = jobLayer s ∧ (sceneOf u k).cacheBuilds = (sceneOf s k).cacheBuilds + 1) ∧
    (∀ k, (sceneOf s k).run ≠ none ∨ cacheDue k s = false → exec (.cacheRebuild t k) s = .next (passTo t s)) ∧
    (∀ (ml mr : Nat) (tr : List (Nat × Nat)) (b : Bool),
      (s.edp.hpd = true → exec (.edpHpd t 0 ml mr tr b) s = .next (passTo t s) ∧
        exec (.edpHpd t 2 ml mr tr b) s = .next (raise 0x7021 [] (setEdp (fun e => { e with
          hpd := false, trained := false, lanes := 0, rate := 0, linkLoss := satInc e.linkLoss }) (passTo t s)))) ∧
      (∀ n r, s.edp.hpd = false → (edpSettings s).find? (fun p => tr.contains p) = some (n, r) → exec (.edpHpd t 0 ml mr tr b) s =
        .next (raise 0x7020 (natLE 1 n ++ natLE 1 r) (setEdp (fun e => { e with
          hpd := true, trained := true, lanes := BitVec.ofNat 3 n, rate := BitVec.ofNat 2 r }) (passTo t s))))) ∧
    (s.edp.trained = false → exec (.edpFrameStart t) s = .next (passTo t s)) ∧
    (s.edp.trained = true → s.edp.bind = none → s.edp.scene = none →
      exec (.edpFrameStart t) s = .next (setEdp (fun e => { e with frames := e.frames + 1 }) (passTo t s)))

/-- For a descriptor that may start: BASIN_COPY of readable words between two regions of host memory that do not overlap is one memory write
of the source's bytes and completes with DONE and DATA the length, up to the first uncorrectable word with FAILED_ECC and DATA the bytes
before it; BASIN_FILL writes its pattern over and over; a channel above 7, an unaligned address or length, a region outside host memory or
an overlap is REJECTED_PARAM. BASIN_RETAIN sets the mask, bit 0 being REJECTED_PARAM. A tarn's port is in panic while a lane of it in ARMED
or RUNNING has fewer than 1,024 unconsumed records. A panic that is entered counts for its port; one that is left goes to PANIC_MAX, and
when no port is left in panic the postponed refreshes are issued. A refresh due is issued, or while a port is in panic postponed up to 8,
and the ninth is forced. Self-refresh is entered only after SR_IDLE with no active lane and no panic. A scrub with ECC off or SCRUB_PERIOD 0
does nothing; one that runs counts, reports every corrected and every uncorrectable word and closes every row. (R496, R497, R498, R499,
R500, R501, R503, R504, R506, R508) -/
def Obligations.BasinCommands : Prop :=
  ∀ (h : Hdr) (t : Ns) (s : State), Ready h s →
    (∀ c src dst n : Nat, c < 8 → dst % 4 = 0 → src % 4 = 0 → n % 4 = 0 → 4 ≤ n → n ≤ 4294967292 → hostMem dst n s = true →
      hostMem src n s = true → (dst + n ≤ src ∨ src + n ≤ dst) →
      (poisonIn src n s = none → exec (.basinCopy h c src dst n) s =
        .next (finishIn (296 + c) h.ref stDone 0 n (memWrite 38 dst (memRead src n s) (accept h 0x80 s)))) ∧
      (∀ a, poisonIn src n s = some a → exec (.basinCopy h c src dst n) s = .next (finishIn (296 + c) h.ref stEcc 0 (a - src)
        (eccUe 38 a (memWrite 38 dst (memRead src (a - src) s) (accept h 0x80 s)))))) ∧
    (∀ c src dst n : Nat, 8 ≤ c ∨ dst % 4 ≠ 0 ∨ src % 4 ≠ 0 ∨ n % 4 ≠ 0 ∨ n < 4 ∨ hostMem dst n s = false ∨ hostMem src n s = false ∨
        (src < dst + n ∧ dst < src + n) → exec (.basinCopy h c src dst n) s = .next (endWith h.ref stParam (accept h 0x80 s))) ∧
    (∀ c pat dst n : Nat, c < 8 → dst % 4 = 0 → n % 4 = 0 → 4 ≤ n → n ≤ 4294967292 → hostMem dst n s = true →
      exec (.basinFill h c pat dst n) s = .next (finishIn (296 + c) h.ref stDone 0 n
        (memWrite 38 dst ((List.replicate (n / 4) (natLE 4 pat)).flatten) (accept h 0x81 s)))) ∧
    (∀ c pat dst n : Nat, 8 ≤ c ∨ dst % 4 ≠ 0 ∨ n % 4 ≠ 0 ∨ n < 4 ∨ hostMem dst n s = false →
      exec (.basinFill h c pat dst n) s = .next (endWith h.ref stParam (accept h 0x81 s))) ∧
    (∀ m : BitVec 8, (m.getLsbD 0 = false →
        exec (.basinRetain h m) s = .next (endWith h.ref stDone { accept h 0x82 s with basin := { s.basin with retain := m } })) ∧
      (m.getLsbD 0 = true → exec (.basinRetain h m) s = .next (endWith h.ref stParam (accept h 0x82 s)))) ∧
    (∀ p e, (rtPort s p).panic = e → exec (.panicChange t p e) s = .next (passTo t s)) ∧
    (∀ p, 16 ≤ p → (rtPort s p).panic = false → exec (.panicChange t p true) s = .next (setRt p (fun r => { r with
      panic := true, panicCount := satInc r.panicCount, panicSince := max s.now t, longRaised := false }) (passTo t s))) ∧
    (∀ p, p < 16 → (rtPort s p).panic = false → tarnPanic s p = true → exec (.panicChange t p true) s = .next (setRt p (fun r => { r with
      panic := true, panicCount := satInc r.panicCount, panicSince := max s.now t, longRaised := false })
      { passTo t s with tarns := modUnit s.tarns p fun x => { x with panicCount := satInc x.panicCount } })) ∧
    (∀ p e, p < 16 → tarnPanic s p ≠ e → exec (.panicChange t p e) s = .next (passTo t s)) ∧
    (∀ p, s.basin.rt.length = 25 → p < 25 → (16 ≤ p ∨ tarnPanic s p = false) → (rtPort s p).panic = true →
      ∃ u, exec (.panicChange t p false) s = .next u ∧
      (rtPort u p).panic = false ∧ (rtPort u p).panicMaxUs =
        satU 16 (max (rtPort s p).panicMaxUs.toNat ((max s.now t - (rtPort s p).panicSince) / 1000) : Nat) ∧
      ((∀ q, q ≠ p → (rtPort s q).panic = false) → u.basin.postponed = List.replicate 4 0)) ∧
    (∀ c hot, anyPanic s = false → c < s.hk.stalls.length → c < s.basin.postponed.length → ∃ u,
      exec (.refreshDue t c hot) s = .next u ∧ u.basin.hot = hot ∧ unit u.basin.postponed c 0 = 0 ∧
      unit u.hk.stalls c 0 = (unit s.hk.stalls c 0 + (unit s.basin.postponed c 0).toNat + 1) % 512) ∧
    (∀ c hot, anyPanic s = true → ((unit s.basin.postponed c 0).toNat < 8 → exec (.refreshDue t c hot) s = .next { passTo t s with
      basin := { s.basin with hot := hot, postponed := modUnit s.basin.postponed c fun n => n + 1 } })) ∧
    (∀ c hot, anyPanic s = true → 8 ≤ (unit s.basin.postponed c 0).toNat → ∃ u, exec (.refreshDue t c hot) s = .next u ∧
      u.basin.forcedRefresh = satInc s.basin.forcedRefresh ∧ u.basin.postponed = s.basin.postponed) ∧
    (∀ p, (rtPort s p).panic = false ∨ (rtPort s p).longRaised = true ∨ max s.now t ≤ (rtPort s p).panicSince + 1000000 →
      exec (.basinPanicLong t p) s = .next (passTo t s)) ∧
    (∀ p, s.basin.rt.length = 25 → p < 25 → (rtPort s p).panic = true → (rtPort s p).longRaised = false →
      (rtPort s p).panicSince + 1000000 < max s.now t → ∃ u, exec (.basinPanicLong t p) s = .next u ∧
        (rtPort u p).longRaised = true ∧ u.basin.panicLong = satInc s.basin.panicLong) ∧
    (∀ ab, s.basin.state ≠ 0 ∨ laneActive s = true ∨ anyPanic s = true ∨ max s.now t < s.basin.lastReq + 1000 * s.basin.srIdle.toNat →
      exec (.selfRefreshEntry t ab) s = .next (passTo t s)) ∧
    (s.basin.state = 0 → laneActive s = false → anyPanic s = false → s.basin.lastReq + 1000 * s.basin.srIdle.toNat ≤ max s.now t →
      exec (.selfRefreshEntry t false) s = .next { passTo t s with
        basin := { s.basin with state := 1, srEntries := s.basin.srEntries + 1, openRows := List.replicate 64 none } } ∧
      exec (.selfRefreshEntry t true) s = .next { passTo t s with
        basin := { s.basin with srAbort := satInc s.basin.srAbort, lastReq := max s.now t } }) ∧
    (∀ ce ue, s.basin.eccEn = false ∨ s.basin.scrubPeriod = 0 ∨ s.power.state ≠ .on → exec (.scrubPass t ce ue) s = .next (passTo t s)) ∧
    (s.basin.eccEn = true → s.basin.scrubPeriod ≠ 0 → s.power.state = .on → s.basin.poisoned = [] →
      exec (.scrubPass t [] []) s = .next { passTo t s with
        basin := { s.basin with
          state := 0, lastReq := max s.now t, scrubPasses := s.basin.scrubPasses + 1, openRows := List.replicate 64 none } }) ∧
    (∀ ce ue : List Nat, s.basin.eccEn = true → s.basin.scrubPeriod ≠ 0 → s.power.state = .on →
      let new := ((ue.map fun a => a / 8).filter fun w => decide (8 * w < usableEnd s) && !s.basin.poisoned.contains w).eraseDups
      let bad := s.basin.poisoned ++ new
      let u : State := { passTo t s with basin := { s.basin with
        state := 0, lastReq := max s.now t, poisoned := bad, scrubPasses := s.basin.scrubPasses + 1, openRows := List.replicate 64 none } }
      ∃ v, v = bad.foldl (fun w a => eccUe 39 (8 * a) w) ((ce.filter fun a => decide (a < usableEnd s)).foldl eccCe u) ∧
        ((∀ w ∈ bad, 0x20000000 ≤ 8 * w) → v.basin.poisoned = bad → exec (.scrubPass t ce ue) s = .next v)) ∧
    (∀ c hot, anyPanic s = false → exec (.refreshDue t c hot) s = .next (
      let u := refreshStall c ((unit s.basin.postponed c 0).toNat + 1) { passTo t s with basin := { s.basin with hot := hot } };
      { u with basin := { u.basin with postponed := modUnit u.basin.postponed c fun _ => 0 } }))

/-- For a descriptor that may start: CAL_REQUEST of a kind above 6, or for a unit that is absent, is REJECTED_PARAM; with IMMEDIATE and a
unit that is not idle it is REJECTED_BUSY; else its units wait for their gap, and it waits for their end where they can run at once and is
DEFERRED where not; of the self-check it starts the run, where it does not run, and waits for its end; CAL_CANCEL withdraws what waits of
the units named and is not committed, their requests ending with ABORTED_HOST, a fused-off unit being REJECTED_PARAM; HK_THROTTLE_FLOOR
above 2 is REJECTED_PARAM, and otherwise sets the host's floor. A run of a kind above 6 is none; the end of a self-check counts its run and
raises CAL_DONE. A request that has waited longer than CAL_DEFER is reported once. A dark gathering that has taken longer than 1 s starts
again. A housekeeping round does nothing while the module is not on; while it waits for the sensors it only takes the readings, and once
they are cool training begins. otherwise a round takes the readings, the hottest sensor, the recorder's samples, and shuts down or warns,
throttles and calibrates as they ask. A throttle level 1 with its condition for 2 s becomes 2, and one whose release condition has held 1 s
falls. The die goes off when every axis stands after a shutdown, and never without one. (R510, R514, R518, R519, R526, R531, R533, R534) -/
def Obligations.CalibrationsAndHousekeeping : Prop :=
  ∀ (h : Hdr) (t : Ns) (s : State), Ready h s →
    (∀ k im m, 6 < k → exec (.calRequest h k im m) s = .next (endWith h.ref stParam (accept h 0x90 s))) ∧
    (∀ im m, exec (.calRequest h 6 im m) s = .next (calPump (setHk (fun x => { x with
      groups := x.groups ++ [{ ref := h.ref, kind := 6, left := [0], worst := bestQuality 6, bad := false }] })
      (if calRunning s 6 0 then accept h 0x90 s else beginRun 6 0 (accept h 0x90 s))))) ∧
    (∀ k m, 6 < k → exec (.calCancel h k m) s = .next (endWith h.ref stParam (accept h 0x91 s))) ∧
    (∀ k im (m : BitVec 128), 1 ≤ k → k ≤ 4 → (calUnits s k m.toNat).2 = false →
      (k = 1 → ∀ l ∈ (calUnits s k m.toNat).1, powerReady s l = true) → (im = true → calIdle s k (calUnits s k m.toNat).1 = true) →
      let us := (calUnits s k m.toNat).1
      let v := us.foldl (fun u x => calWait k x u) (accept h 0x90 s)
      (us = [] → exec (.calRequest h k im m) s = .next (endWith h.ref stDone v)) ∧
      (us ≠ [] → runsNow (accept h 0x90 s) k us = true → exec (.calRequest h k im m) s = .next (calPump (setHk (fun x => { x with
        groups := x.groups ++ [{ ref := h.ref, kind := k, left := us, worst := bestQuality k, bad := false }] }) v))) ∧
      (us ≠ [] → runsNow (accept h 0x90 s) k us = false →
        exec (.calRequest h k im m) s = .next (calPump (endWith h.ref stDeferred v)))) ∧
    (∀ im (m : BitVec 128), (calUnits s 0 m.toNat).2 = false → (im = true → calIdle s 0 (calUnits s 0 m.toNat).1 = true) →
      let v := (calUnits s 0 m.toNat).1.foldl (fun u l => askGrid l u) (accept h 0x90 s)
      let us := (calUnits s 0 m.toNat).1.filter fun l => calRunning v 0 l
      (us = [] → exec (.calRequest h 0 im m) s = .next (endWith h.ref stDone v)) ∧
      (us ≠ [] → exec (.calRequest h 0 im m) s = .next (calPump (setHk (fun x => { x with
        groups := x.groups ++ [{ ref := h.ref, kind := 0, left := us, worst := bestQuality 0, bad := false }] }) v)))) ∧
    (∀ im (m : BitVec 128), (calUnits s 5 m.toNat).2 = false → (calUnits s 5 m.toNat).1 ≠ [] →
      exec (.calRequest h 5 im m) s = .next (calPump (setHk (fun x => { x with
        groups := x.groups ++ [{ ref := h.ref, kind := 5, left := (calUnits s 5 m.toNat).1, worst := bestQuality 5, bad := false }] })
        (accept h 0x90 s)))) ∧
    (∀ k im (m : BitVec 128), k ≤ 6 → (calUnits s k m.toNat).2 = true →
      exec (.calRequest h k im m) s = .next (endWith h.ref stParam (accept h 0x90 s))) ∧
    (∀ k (m : BitVec 128), k ≤ 4 → (calUnits s k m.toNat).2 = false → (k = 1 → ∀ l ∈ (calUnits s k m.toNat).1, powerReady s l = true) →
      calIdle s k (calUnits s k m.toNat).1 = false → exec (.calRequest h k true m) s = .next (endWith h.ref stBusy (accept h 0x90 s))) ∧
    (∀ k (m : BitVec 128), k ≤ 6 →
      (calFused s k m.toNat = true → exec (.calCancel h k m) s = .next (endWith h.ref stParam (accept h 0x91 s))) ∧
      (calFused s k m.toNat = false →
        let us := (calUnits s k m.toNat).1.filter fun u => calWaiting s k u && !calCommitted s k u
        let v := us.foldl (fun x u => dropWait k u x) (accept h 0x91 s)
        let hit := fun g : CalGroup => g.kind = k && g.left.any fun u => us.contains u
        exec (.calCancel h k m) s = .next (endWith h.ref stDone ((v.hk.groups.filter hit).foldl (fun x g => endWith g.ref stAbHost x)
          (setHk (fun x => { x with groups := x.groups.filter fun g => !hit g }) v))))) ∧
    (∀ k m, k ≤ 6 → calFused s k m.toNat = false → s.hk.waits = [] → exec (.calCancel h k m) s = .next (endWith h.ref stDone (accept h 0x91 s))) ∧
    (∀ u w, u < 32 → u < s.variant.ports → s.hk.waits = [w] → w.kind = 3 → w.unit = u → calCommitted s 3 u = false → s.hk.groups = [] →
      exec (.calCancel h 3 (BitVec.ofNat 128 (2 ^ u))) s =
        .next (endWith h.ref stDone (setHk (fun x => { x with waits := [] }) (accept h 0x91 s)))) ∧
    (∀ l, (2 < l → exec (.hkThrottleFloor h l) s = .next (endWith h.ref stParam (accept h 0x92 s))) ∧
      (l ≤ 2 → exec (.hkThrottleFloor h l) s = .next (endWith h.ref stDone (keepFloor (setHk (fun x => { x with
        hostFloor := BitVec.ofNat 2 l }) (accept h 0x92 s)))))) ∧
    (∀ k rs ps, 6 < k → exec (.calRunDone t k rs ps) s = .next (passTo t s)) ∧
    (∀ k, k ≤ 6 → k ≠ 6 → exec (.calRunDone t k [] []) s = .next (passTo t s)) ∧
    (∀ k rs ps, k < 6 → exec (.calRunDone t k rs ps) s = .next (endRun k rs (passTo t s))) ∧
    (∀ rs ps, exec (.calRunDone t 6 rs ps) s =
      .next (endRun 6 rs (if calRunning s 6 0 then rosCheck ps (passTo t s) else passTo t s))) ∧
    (∀ q e, calRunning s 6 0 = true → s.hk.groups = [] → hkFloor s ≤ s.hk.level.toNat → s.hk.kinds.length = 7 → ∃ u,
      exec (.calRunDone t 6 [(0, q, e)] []) s =
        .next (calPump (raise 0x2010 (natLE 1 6 ++ natLE 1 0 ++ natLE 1 stDone ++ natLE 2 0) u)) ∧ u = { passTo t s with hk := u.hk } ∧
      calRunning u 6 0 = false ∧ (unit u.hk.kinds 6 .reset).runs = (unit s.hk.kinds 6 .reset).runs + 1) ∧
    (∀ k u w, (s.hk.waits.find? fun w => w.kind = k && w.unit = u) = some w →
      (w.overdue = true ∨ max s.now t ≤ w.since + 1000000000 * s.prof.system.calDeferS →
        exec (.calOverdue t k u) s = .next (passTo t s)) ∧
      (w.overdue = false → w.since + 1000000000 * s.prof.system.calDeferS < max s.now t → exec (.calOverdue t k u) s =
        .next (raise 0x2011 (natLE 1 k ++ natLE 1 u ++ natLE 4 ((max s.now t - w.since) / 1000000000)) (setHk (fun x => { x with
          waits := x.waits.map fun y => if y.kind = k && y.unit = u then { y with overdue := true } else y }) (passTo t s))))) ∧
    (∀ l, (laneCal s l).gather = none → exec (.darkGatherTimeout t l) s = .next (passTo t s)) ∧
    (∀ l g, (laneCal s l).gather = some g → g.n < 1024 →
      (g.since + 1000000000 < max s.now t → exec (.darkGatherTimeout t l) s =
        .next (setLaneCal l (fun x => { x with gather := none }) (passTo t s))) ∧
      (max s.now t ≤ g.since + 1000000000 → exec (.darkGatherTimeout t l) s = .next (passTo t s))) ∧
    (∀ reads, s.power.state ≠ .on → exec (.hkRound t reads) s = .next (passTo t s)) ∧
    (∀ reads, s.power.state = .on → s.boot.sensorWait = true → ∃ u, exec (.hkRound t reads) s = .next u ∧
      u = { passTo t s with hk := u.hk, boot := u.boot } ∧ u.hk.before = s.hk.reads ∧ u.hk.rounds = s.hk.rounds + 1 ∧
      (∀ i < 46, unit u.hk.reads i 0 = unit reads i 0) ∧
      ((u.boot = s.boot ∧ sensorsCool u = false) ∨ (u.boot = { s.boot with sensorWait := false, phase := 1 } ∧ sensorsCool u = true))) ∧
    (s.hk.level = 1 → s.hk.thrCond = true → s.hk.levelSince + 2000000000 ≤ max s.now t →
      exec (.throttleTimer t) s = .next (setLevel 2 (passTo t s))) ∧
    (∀ t0, (s.hk.level ≠ 1 ∨ s.hk.thrCond = false ∨ max s.now t < s.hk.levelSince + 2000000000) → s.hk.relCond = true →
      s.hk.relSince = some t0 → t0 + 1000000000 ≤ max s.now t →
      exec (.throttleTimer t) s = .next (levelFalls (setHk (fun x => { x with relSince := some (max s.now t) }) (passTo t s)))) ∧
    (∀ reads, s.power.state = .on → s.boot.sensorWait = false →
      let u := setHk (fun x => { x with
        before := x.reads, reads := (List.range 64).map (fun i => if i < 46 then unit reads i 0 else 0), rounds := x.rounds + 1 }) (passTo t s)
      let v := match hottest u (rosSlots u) with | some (_, y) => setHk (fun x => { x with tj := BitVec.ofInt 16 y }) u | none => u
      let w := recRound v
      (s.hk.shutAt ≠ none → exec (.hkRound t reads) s = .next v) ∧
      (s.hk.shutAt = none →
        (∀ c i, shutdownDue w = some (c, i) → exec (.hkRound t reads) s = .next (shutdown c i (supplyWarns (tempWarns w)))) ∧
        (shutdownDue w = none →
          let x := throttleRound (supplyWarns (tempWarns w))
          exec (.hkRound t reads) s = .next (if x.boot.alive && profileInForce x then calRound x else x)))) ∧
    (s.hk.thrCond = false → s.hk.relCond = false → exec (.throttleTimer t) s = .next (passTo t s)) ∧
    (s.hk.shutAt = none → exec (.dieOff t) s = .next (passTo t s)) ∧
    (∀ t0, s.hk.shutAt = some t0 → s.power.state = .on → axesStand s = true ∨ t0 + 2000000000 ≤ max s.now t →
      exec (.dieOff t) s = .next (setHk (fun x => { x with shutAt := some t0 }) (hold .pin 0 .held (passTo t s)))) ∧
    (∀ t0, s.hk.shutAt = some t0 → axesStand s = false → max s.now t < t0 + 2000000000 → exec (.dieOff t) s = .next (passTo t s))

/-- For a descriptor that may start: REC_RECORD_NOW makes a record due that is written at once where no write is in progress, and joins
those due where one is; REC_CHALLENGE is REJECTED_STATE when locked and otherwise gives a new NONCE (a free value); REC_CLEAR during a job
is REJECTED_STATE, with no NONCE it is denied, and with the token of the NONCE the clear starts; REC_PROVISION is REJECTED_STATE once a key
is there or during a job, REJECTED_PARAM outside host memory or with reserved bytes, and otherwise burns the keys into OTP. A write that is
verified makes TOTALS its content, the newest slot its own and empties the frozen set; one that takes 20 ms marks its slot bad and tries the
next, three times. A NONCE ends after 60 s and not before. A minute in STANDBY only counts, and one while the module is on takes the counts
of its events and block errors, with an HOURLY record at every 60; a second puts its largest reading of a source into the histogram of that
source. With the module on a cursor in range loads its window, one out of range is discarded, and a read of a window word that is not the
last changes nothing in the recorder, while that of the last moves the cursor on with AUTO_INC. (R537, R538, R540, R541, R542, R543, R546,
R547, R548, R549, R550) -/
def Obligations.RecorderRecordsAndClears : Prop :=
  ∀ (h : Hdr) (t : Ns) (s : State), Ready h s →
    (s.recorder.write = none → s.recorder.waits = [] → exec (.recRecordNow h) s =
      .next (recBegin { kind := 7, cause := 0, refs := [h.ref] } (accept h 0xA0 s))) ∧
    (s.recorder.write ≠ none → exec (.recRecordNow h) s = .next (setRecorder (fun r => { r with
      waits := joinDue { kind := 7, cause := 0, refs := [h.ref] } r.waits }) (accept h 0xA0 s))) ∧
    (∀ tok, jobExists s = false → (s.recorder.write ≠ none → exec (.recClear h tok) s =
        .next (setRecorder (fun r => { r with asked := r.asked ++ [(h.ref, padTo 8 tok)] }) (accept h 0xA2 s))) ∧
      exec (.recClear h tok) s =
        .next (recNext (setRecorder (fun r => { r with asked := r.asked ++ [(h.ref, padTo 8 tok)] }) (accept h 0xA2 s)))) ∧
    (∀ a, s.ident.otp.ownerClearKey = none → jobExists s = false → hostMem a 64 s = true → poisonIn a 64 s = none →
      (allZero ((memRead a 64 s).drop 48) = false → exec (.recProvision h a) s = .next (endWith h.ref stParam (accept h 0xA3 s))) ∧
      (allZero ((memRead a 64 s).drop 48) = true →
        let hash := ((memRead a 64 s).drop 16).take 32
        let key := if allZero hash then none else some hash
        exec (.recProvision h a) s = .next (endWith h.ref stDone (raise 0x9004 (natLE 1 (b1 key.isSome))
          { accept h 0xA3 s with ident := { s.ident with otp := { s.ident.otp with
              ownerClearKey := some ((memRead a 64 s).take 16), builderKeyHash := key } } })))) ∧
    (∀ w, s.recorder.write = some w →
      (w.log = false → exec (.recWriteDone t) s = .next (recWritten w (passTo t s))) ∧
      (w.log = true → exec (.recWriteDone t) s = .next (clearLogged w (passTo t s)))) ∧
    (∀ w, s.recorder.write = some w → w.since + 20000000 ≤ max s.now t →
      (w.log = true → exec (.recWriteTimeout t) s = .next (recNext (w.due.refs.foldl (fun u r => endWith r stAbFault u)
        (setRecorder (fun r => { r with write := none }) (passTo t s))))) ∧
      (w.log = false → 3 ≤ w.fails → exec (.recWriteTimeout t) s = .next (recFailed w (setRecorder (fun r => { r with
        badSlots := satInc r.badSlots, main := r.main.filter fun x => x.1 != w.slot }) (passTo t s))))) ∧
    (s.power.state = .on →
      exec (.recSecond t) s = .next (setRecorder (fun r => { r with second := List.replicate 8 none })
        ((List.range 8).foldl (fun u k => match u.recorder.second.getD k none with | some v => histSample k v u | none => u) (passTo t s))) ∧
      (let a := (List.range 8).foldl (fun u k => recExtreme (16 + k) (minuteCount u (8 + k)) 0 (histSample (8 + k) (minuteCount u (8 + k)) u))
         (passTo t s);
       let b := (List.range 32).foldl (fun u p =>
         if u.recorder.blockErr.getD p 0 = 0 then u else recExtreme 31 (u.recorder.blockErr.getD p 0) p u) a;
       let c := setRecorder (fun r => { r with minutes := r.minutes + 1, codes := [], blockErr := List.replicate 32 0 }) b;
       exec (.recMinute t) s = .next (if c.recorder.minutes.toNat % 60 = 0 then recDue 1 0 [] c else c))) ∧
    (8 ≤ s.recorder.authFail.toNat → exec (.recChallenge h) s = .next (endWith h.ref stState (accept h 0xA1 s))) ∧
    (s.recorder.authFail.toNat < 8 → exec (.recChallenge h) s =
      .next (finish h.ref stDone 0 (BitVec.ofNat 64 (Config.freeNat s.free)).toNat { accept h 0xA1 s with
        free := s.free + 1, recorder := { s.recorder with nonce := some (BitVec.ofNat 64 (Config.freeNat s.free), s.now) } })) ∧
    (∀ tok, jobExists s = true → exec (.recClear h tok) s = .next (endWith h.ref stState (accept h 0xA2 s))) ∧
    (∀ tok, jobExists s = false → s.recorder.write = none → s.recorder.waits = [] → s.recorder.asked = [] →
      s.recorder.nonce = none → s.recorder.clears.toNat < 256 →
      exec (.recClear h tok) s = .next (clearDenied h.ref (accept h 0xA2 s))) ∧
    (∀ tok key n a, jobExists s = false → s.recorder.write = none → s.recorder.waits = [] → s.recorder.asked = [] →
      s.recorder.clears.toNat < 256 → s.ident.otp.ownerClearKey = some key → s.recorder.nonce = some (n, a) → s.now < a + 60000000000 →
      clearToken key n.toNat s = padTo 8 tok → exec (.recClear h tok) s =
        .next (clearBegin h.ref n.toNat (padTo 8 tok) (setRecorder (fun r => { r with nonce := none }) (accept h 0xA2 s)))) ∧
    (∀ a, s.ident.otp.ownerClearKey ≠ none ∨ jobExists s = true →
      exec (.recProvision h a) s = .next (endWith h.ref stState (accept h 0xA3 s))) ∧
    (∀ a, s.ident.otp.ownerClearKey = none → jobExists s = false → hostMem a 64 s = false →
      exec (.recProvision h a) s = .next (endWith h.ref stParam (accept h 0xA3 s))) ∧
    (∀ a, s.ident.otp.ownerClearKey = none → jobExists s = false → hostMem a 64 s = true → poisonIn a 64 s = none →
      allZero ((memRead a 64 s).drop 16) = true → exec (.recProvision h a) s = .next (endWith h.ref stDone (raise 0x9004 (natLE 1 0)
        { accept h 0xA3 s with ident := { s.ident with otp := { s.ident.otp with
            ownerClearKey := some ((memRead a 64 s).take 16), builderKeyHash := none } } }))) ∧
    (s.recorder.write = none → exec (.recWriteDone t) s = .next (passTo t s) ∧ exec (.recWriteTimeout t) s = .next (passTo t s)) ∧
    (∀ w, s.recorder.write = some w → w.log = false → w.due.kind ≠ 8 → w.due.refs = [] → s.recorder.waits = [] → s.recorder.asked = [] →
      ∃ u, exec (.recWriteDone t) s = .next u ∧ u = { passTo t s with recorder := u.recorder } ∧ u.recorder.totals = w.content ∧
        u.recorder.newest = some w.slot ∧ u.recorder.seqNext = s.recorder.seqNext + 1 ∧ u.recorder.write = none ∧
        otherSet u.recorder = .empty ∧ activeSet u.recorder = activeSet s.recorder ∧ recordAt 0 w.slot u = some w.bytes) ∧
    (∀ w, s.recorder.write = some w →
      (max s.now t < w.since + 20000000 → exec (.recWriteTimeout t) s = .next (passTo t s)) ∧
      (w.since + 20000000 ≤ max s.now t → w.log = false → w.fails < 3 → ∃ u, exec (.recWriteTimeout t) s = .next u ∧
        u = { passTo t s with recorder := u.recorder } ∧ u.recorder.badSlots = satInc s.recorder.badSlots ∧
        u.recorder.retries = satInc s.recorder.retries ∧
        u.recorder.write = some { w with slot := (w.slot + 1) % 1792, since := max s.now t, fails := w.fails + 1 })) ∧
    (∀ n t0, s.recorder.nonce = some (n, t0) →
      (t0 + 60000000000 ≤ max s.now t → exec (.nonceExpire t) s = .next (setRecorder (fun r => { r with nonce := none }) (passTo t s))) ∧
      (max s.now t < t0 + 60000000000 → exec (.nonceExpire t) s = .next (passTo t s))) ∧
    (s.power.state = .standby → exec (.recMinute t) s = .next (setRecorder (fun r => { r with minutes := r.minutes + 1 }) (passTo t s)) ∧
      exec (.recSecond t) s = .next (passTo t s)) ∧
    (∀ i v, s.power.state = .on → i < 8 → s.recorder.second = (List.replicate 8 none).set i (some v) → exec (.recSecond t) s =
      .next (setRecorder (fun r => { r with second := List.replicate 8 none }) (histSample i v (passTo t s)))) ∧
    (s.power.state = .on → s.recorder.second = List.replicate 8 none → exec (.recSecond t) s = .next (passTo t s)) ∧
    (s.power.state = .on →
      (∀ v : Word, v.toNat % 4 = 3 ∨ 9 < v.toNat / 8192 % 16 → exec (.recCursorWrite v) s = .next s) ∧
      (∀ v : Word, v.toNat % 4 < 3 → v.toNat / 4 % 2048 ≤ (if v.toNat % 4 = 1 then 255 else 1791) → v.toNat / 8192 % 16 ≤ 9 → ∃ u, exec (.recCursorWrite v) s = .next u ∧
        u = { s with recorder := u.recorder } ∧ u.recorder.region.toNat = v.toNat % 4 ∧ u.recorder.slot.toNat = v.toNat / 4 % 2048 ∧
        u.recorder.index.toNat = v.toNat / 8192 % 16 ∧ u.recorder.winReady = true ∧ u.recorder.window.length ≤ 256) ∧
      (∀ i, i < 63 → exec (.recWindowRead i) s = .next { s with
        sent := .readData (0xA41000 + 4 * i) (BitVec.ofNat 32 (field s.recorder.window (4 * i) 4)) :: s.sent }) ∧
      exec (.recWindowRead 63) s = .next { advanceCursor s with
        sent := .readData (0xA41000 + 252) (BitVec.ofNat 32 (field s.recorder.window 252 4)) :: (advanceCursor s).sent })

/-- For every well-formed command that a command ring carries (82 opcodes), with every operand at every value its field admits, the encoder
gives 64 bytes whose first byte is the opcode, and the decoder reads those bytes, at the command's ring, position and number, as exactly
that command. (R293, R299, R301) -/
def Obligations.DescriptorsDecodeToWhatTheyEncode : Prop :=
    ∀ (i : Instr) (h : Hdr) (op : Nat) (fs : List (Nat × Nat × Nat)), i.wf = true → descriptorFields i = some (h, op, fs) →
      ∃ b, encodeDescriptor i = some b ∧ b.length = 64 ∧ field b 0 1 = op ∧ decodeDescriptor h.ring h.index h.serial b = some i

/-- State.reset's Basin contents list nothing, so they are in the model's canonical form, and every address reads as a byte that nothing has
written. What such a byte reads is the model's own choice (log entry 2). (14_basin_memory.md, 17_clocks_resets_power_states.md) -/
def Obligations.ResetBasinIsCanonical : Prop :=
    State.reset.basin.mem = [] ∧ Mem.wf State.reset.basin.mem = true

/-- For every state whose Basin contents are in canonical form (addresses strictly rising, no entry equal to what an unlisted address reads
as) and every command at the front of its queue, the state after the step has its Basin contents in canonical form too. The canonical form
is the model's own (log entry 2). (14_basin_memory.md) -/
def Obligations.BasinStaysCanonical : Prop :=
    ∀ s s' : State, Mem.wf s.basin.mem = true → step s = .next s' → Mem.wf s'.basin.mem = true
end

