-- ==== Sys2Proof/Laws/Codec.lean ====
section
/-! SUPPORT. Reading a field back from a layout of fields: what the descriptor encoder writes, the decoder reads. -/

namespace Sys2Proof

open Machine

theorem leNat_append_one (bs : List Byte) (b : Byte) : leNat (bs ++ [b]) = leNat bs + 256 ^ bs.length * b.toNat := by
  induction bs with
  | nil => simp [leNat]
  | cons x xs ih => simp only [List.cons_append, leNat, ih, List.length_cons, Nat.pow_succ]; ring

/-- The bytes of v by place spell v. -/
theorem leNat_bytes (v n : Nat) : leNat ((List.range n).map fun k => (BitVec.ofNat 8 (v / 256 ^ k) : Byte)) = v % 256 ^ n := by
  induction n with
  | zero => simp [leNat, Nat.mod_one]
  | succ n ih =>
    rw [List.range_succ, List.map_append, List.map_cons, List.map_nil, leNat_append_one, ih]
    simp only [List.length_map, List.length_range, BitVec.toNat_ofNat]
    rw [Nat.pow_succ 256 n, Nat.mod_mul]

theorem field_layout {N off n v : Nat} {fs : List (Nat × Nat × Nat)} (hN : off + n ≤ N)
    (h : ∀ k < n, layoutByte fs (off + k) = BitVec.ofNat 8 (v / 256 ^ k)) : field (layout N fs) off n = v % 256 ^ n := by
  rw [← leNat_bytes v n]
  unfold field layout
  congr 1
  apply List.ext_getElem
  · simp; omega
  · intro k h1 h2
    simp at h1 h2
    simp [h k h2]

theorem layout_length (N : Nat) (fs : List (Nat × Nat × Nat)) : (layout N fs).length = N := by simp [layout]

/-- A byte of no field of a layout is 0. -/
theorem onlyIn_layout {N : Nat} {used : List (Nat × Nat)} {fs : List (Nat × Nat × Nat)}
    (h : ∀ k < N, (fs.any fun f => decide (f.1 ≤ k) && decide (k < f.1 + f.2.1)) = true →
      (used.any fun u => decide (u.1 ≤ k) && decide (k < u.1 + u.2)) = true) : onlyIn used (layout N fs) = true := by
  unfold onlyIn
  rw [List.all_eq_true]
  rintro ⟨b, k⟩ hx
  obtain ⟨hk, hb⟩ := List.mem_zipIdx' hx
  rw [layout_length] at hk
  simp only [layout, List.getElem_map, List.getElem_range] at hb
  simp only [Bool.or_eq_true]
  by_cases hc : (fs.any fun f => decide (f.1 ≤ k) && decide (k < f.1 + f.2.1)) = true
  · exact .inr (h k hk hc)
  · left
    rw [hb]
    unfold layoutByte
    have : (fs.find? fun f => decide (f.1 ≤ k) && decide (k < f.1 + f.2.1)) = none := by
      rw [List.find?_eq_none]
      intro f hf hcf
      exact hc (List.any_eq_true.2 ⟨f, hf, hcf⟩)
    rw [this]
    rfl

/-- A field of the header of a descriptor's bytes. -/
theorem field_append_left {a b : List Byte} {off n : Nat} (h : off + n ≤ a.length) : field (a ++ b) off n = field a off n := by
  unfold field
  rw [List.drop_append_of_le_length (by omega), List.take_append_of_le_length (by simp; omega)]

/-- The parts of a descriptor's bytes: the header's layout and the operands' layout. -/
theorem descriptor_split (a fs) (c : List Byte) (hc : c = layout 16 a ++ layout 48 fs) :
    (∀ off n, off + n ≤ 16 → field c off n = field (layout 16 a) off n) ∧ (c.drop 16).take 48 = layout 48 fs ∧ c.length = 64 := by
  subst hc
  refine ⟨fun off n h => field_append_left (by simpa [layout_length] using h), ?_, by simp [layout_length]⟩
  rw [List.drop_append_of_le_length (by simp [layout_length])]
  rw [List.drop_of_length_le (by simp [layout_length])]
  simp [layout_length]

/-- What the decoder reads of the header of an encoded descriptor. -/
theorem descriptor_head (h : Hdr) (op : Nat) (hop : op < 256) (fs) (b : List Byte)
    (hb : b = layout 16 [(0, 1, op), (1, 1, b1 h.irq + 2 * b1 h.silent), (4, 4, h.tag.toNat)] ++ layout 48 fs) :
    field b 0 1 = op ∧ field b 1 1 = b1 h.irq + 2 * b1 h.silent ∧ field b 2 2 = 0 ∧ field b 8 8 = 0 ∧
      descriptorHdr h.ring h.index h.serial b = h ∧ (b.drop 16).take 48 = layout 48 fs := by
  obtain ⟨h1, h2, h3⟩ := descriptor_split _ _ _ hb
  have hf : b1 h.irq + 2 * b1 h.silent < 256 := by cases h.irq <;> cases h.silent <;> simp [b1]
  have e0 : field b 0 1 = op := by
    rw [h1 _ _ (by omega), field_layout (v := op) (by omega)]
    · omega
    · intro k hk; interval_cases k; simp [layoutByte]
  have e1 : field b 1 1 = b1 h.irq + 2 * b1 h.silent := by
    rw [h1 _ _ (by omega), field_layout (v := b1 h.irq + 2 * b1 h.silent) (by omega)]
    · omega
    · intro k hk; interval_cases k; simp [layoutByte]
  have e4 : field b 4 4 = h.tag.toNat := by
    rw [h1 _ _ (by omega), field_layout (v := h.tag.toNat) (by omega)]
    · have := h.tag.isLt; omega
    · intro k hk; interval_cases k <;> simp [layoutByte]
  refine ⟨e0, e1, ?_, ?_, ?_, h2⟩
  · rw [h1 _ _ (by omega), field_layout (v := 0) (by omega)]
    · omega
    · intro k hk; interval_cases k <;> simp [layoutByte]
  · rw [h1 _ _ (by omega), field_layout (v := 0) (by omega)]
    · omega
    · intro k hk; interval_cases k <;> simp [layoutByte]
  · obtain ⟨_, _, _, tag, irq, silent⟩ := h
    simp only [descriptorHdr, e1, e4]
    cases irq <;> cases silent <;> simp [b1, bit, Nat.testBit]

/-- A number that fits its field is read back from the layout. -/
theorem field_layout_fits {off n v : Nat} {fs} (hN : off + n ≤ 48) (hv : v < 256 ^ n)
    (h : ∀ k < n, layoutByte fs (off + k) = BitVec.ofNat 8 (v / 256 ^ k)) : field (layout 48 fs) off n = v := by
  rw [field_layout hN h, Nat.mod_eq_of_lt hv]

end Sys2Proof
end

