-- ==== Sys2Proof/Laws/Mem.lean ====
section
/-! SUPPORT. The contents of Basin: every operation on them keeps the canonical form, a read after a write gives the byte written, and
every other byte reads as before. -/

namespace Sys2Proof.Machine

theorem Mem.above_mono {lo lo' : Nat} (h : lo' ≤ lo) {m : List Host.Cell} (hm : Mem.above lo m = true) : Mem.above lo' m = true := by
  cases m with
  | nil => rfl
  | cons c m =>
    obtain ⟨k, v⟩ := c
    simp only [Mem.above, Bool.and_eq_true, decide_eq_true_eq] at hm ⊢
    exact ⟨⟨by omega, hm.1.2⟩, hm.2⟩

theorem Mem.above_write {lo a : Nat} (b : Byte) (ha : lo ≤ a) :
    ∀ {m : List Host.Cell}, Mem.above lo m = true → Mem.above lo (Mem.write m a b) = true := by
  intro m
  induction m generalizing lo with
  | nil =>
    intro _
    by_cases hb : b = 0#8 <;> simp [Mem.write, Mem.above, hb, ha]
  | cons c m ih =>
    obtain ⟨k, v⟩ := c
    intro hm
    simp only [Mem.above, Bool.and_eq_true, decide_eq_true_eq] at hm
    obtain ⟨⟨hk, hv⟩, hm⟩ := hm
    simp only [Mem.write]
    split
    · next h =>
      simp only [Mem.above, Bool.and_eq_true, decide_eq_true_eq]
      exact ⟨⟨hk, hv⟩, ih (by omega) hm⟩
    · split
      · next h1 h =>
        subst h
        split
        · exact Mem.above_mono (by omega) hm
        · next hb =>
          have hb : ¬b = 0#8 := hb
          simp [Mem.above, hb, hm, ha]
      · split
        · simp only [Mem.above, Bool.and_eq_true, decide_eq_true_eq]
          exact ⟨⟨hk, hv⟩, hm⟩
        · next hb =>
          simp only [Mem.above, Bool.and_eq_true, decide_eq_true_eq]
          exact ⟨⟨ha, by simpa using hb⟩, ⟨by omega, hv⟩, hm⟩

/-- A write of one byte keeps the canonical form. -/
theorem Mem.write_wf {m : List Host.Cell} (a : Nat) (b : Byte) (h : Mem.wf m = true) : Mem.wf (Mem.write m a b) = true :=
  Mem.above_write b (Nat.zero_le a) h

/-- A write of bytes keeps the canonical form. -/
theorem Mem.writeBytes_wf (bs : List Byte) : ∀ {m : List Host.Cell} (a : Nat), Mem.wf m = true → Mem.wf (Mem.writeBytes m a bs) = true := by
  induction bs with
  | nil => exact fun _ h => h
  | cons b bs ih => exact fun a h => ih (a + 1) (Mem.write_wf a b h)

theorem Mem.above_filter (p : Host.Cell → Bool) : ∀ {m : List Host.Cell} {lo : Nat}, Mem.above lo m = true → Mem.above lo (m.filter p) = true := by
  intro m
  induction m with
  | nil => exact fun h => h
  | cons c m ih =>
    obtain ⟨k, v⟩ := c
    intro lo hm
    simp only [Mem.above, Bool.and_eq_true, decide_eq_true_eq] at hm
    simp only [List.filter]
    split
    · simp only [Mem.above, Bool.and_eq_true, decide_eq_true_eq]
      exact ⟨hm.1, ih hm.2⟩
    · exact Mem.above_mono (by omega) (ih hm.2)

/-- Part of a canonical memory is canonical. -/
theorem Mem.filter_wf (p : Host.Cell → Bool) {m : List Host.Cell} (h : Mem.wf m = true) : Mem.wf (m.filter p) = true :=
  Mem.above_filter p h

theorem Mem.read_above {m : List Host.Cell} {lo a : Nat} (h : Mem.above lo m = true) (ha : a < lo) : Mem.read m a = 0 := by
  cases m with
  | nil => rfl
  | cons c m =>
    obtain ⟨k, v⟩ := c
    simp only [Mem.above, Bool.and_eq_true, decide_eq_true_eq] at h
    simp only [Mem.read]
    rw [if_neg (by omega), if_pos (by omega)]

theorem Mem.read_write_above {lo a : Nat} (b : Byte) (a' : Nat) :
    ∀ {m : List Host.Cell}, Mem.above lo m = true → Mem.read (Mem.write m a b) a' = if a' = a then b else Mem.read m a' := by
  intro m
  induction m generalizing lo with
  | nil =>
    intro _
    by_cases hb : b = 0#8
    · simp [Mem.write, Mem.read, hb]
    · by_cases h : a = a'
      · simp [Mem.write, Mem.read, hb, h]
      · simp [Mem.write, Mem.read, hb, h, show ¬a' = a from fun e => h e.symm]
  | cons c m ih =>
    obtain ⟨k, v⟩ := c
    intro hm
    simp only [Mem.above, Bool.and_eq_true, decide_eq_true_eq] at hm
    obtain ⟨⟨hk, hv⟩, hm⟩ := hm
    simp only [Mem.write]
    split
    · next h =>
      simp only [Mem.read, ih hm]
      by_cases h1 : k = a'
      · simp [h1, show ¬a' = a by omega]
      · by_cases h2 : a' < k
        · simp [h1, h2, show ¬a' = a by omega]
        · simp [h1, h2]
    · next hka =>
      split
      · next h =>
        subst h
        split
        · next hb =>
          have hb : b = 0#8 := hb
          by_cases h1 : a' = k
          · subst h1; simp [hb, Mem.read_above hm (Nat.lt_succ_self a')]
          · by_cases h2 : a' < k
            · rw [Mem.read_above hm (by omega)]; simp [Mem.read, h1, h2, show ¬k = a' from fun e => h1 e.symm]
            · simp [Mem.read, h1, h2, show ¬k = a' from fun e => h1 e.symm]
        · by_cases h1 : k = a'
          · simp [Mem.read, h1]
          · simp [Mem.read, h1, show ¬a' = k from fun e => h1 e.symm]
      · next hne =>
        split
        · next hb =>
          have hb : b = 0#8 := hb
          by_cases h1 : a' = a
          · subst h1; simp [Mem.read, hb, hne, show a' < k by omega]
          · simp [h1]
        · by_cases h1 : a' = a
          · subst h1; simp [Mem.read]
          · by_cases h2 : a' < a
            · simp [Mem.read, h1, h2, show ¬a = a' from fun e => h1 e.symm, show ¬k = a' by omega, show a' < k by omega]
            · simp [Mem.read, h1, h2, show ¬a = a' from fun e => h1 e.symm]

/-- A read after a write: the byte written at its address, and what stood there anywhere else. -/
theorem Mem.read_write {m : List Host.Cell} (a a' : Nat) (b : Byte) (h : Mem.wf m = true) :
    Mem.read (Mem.write m a b) a' = if a' = a then b else Mem.read m a' :=
  Mem.read_write_above b a' h

/-- A read after a write of bytes. -/
theorem Mem.read_writeBytes (bs : List Byte) : ∀ {m : List Host.Cell} (a a' : Nat), Mem.wf m = true →
    Mem.read (Mem.writeBytes m a bs) a' = if a ≤ a' ∧ a' < a + bs.length then unit bs (a' - a) 0 else Mem.read m a' := by
  induction bs with
  | nil => intro m a a' _; simp [Mem.writeBytes]
  | cons b bs ih =>
    intro m a a' h
    rw [Mem.writeBytes, ih (a + 1) a' (Mem.write_wf a b h), Mem.read_write a a' b h]
    by_cases h1 : a' = a
    · subst h1; simp [unit]
    · by_cases h2 : a + 1 ≤ a' ∧ a' < a + 1 + bs.length
      · have e : a' - a = (a' - (a + 1)) + 1 := by omega
        rw [if_pos h2, if_pos (by simp only [List.length_cons]; omega), e]
        simp [unit]
      · rw [if_neg h2, if_neg h1, if_neg (by simp only [List.length_cons]; omega)]

end Sys2Proof.Machine
end

