-- ==== Sys2Proof/Laws/State.lean ====
section
/-! SUPPORT. The fields of State after each of its updates: one lemma per field per update, so that no proof unfolds a record update. -/

namespace Sys2Proof.Machine

variable (s : State)

@[simp] theorem passTo_time (t : Ns) : (passTo t s).time =
    { s.time with clock := { s.time.clock with now := max s.time.clock.now t } } := rfl
@[simp] theorem passTo_ident (t : Ns) : (passTo t s).ident = s.ident := rfl
@[simp] theorem passTo_pins (t : Ns) : (passTo t s).pins = s.pins := rfl
@[simp] theorem passTo_power (t : Ns) : (passTo t s).power = s.power := rfl
@[simp] theorem passTo_permit (t : Ns) : (passTo t s).permit = s.permit := rfl
@[simp] theorem passTo_boot (t : Ns) : (passTo t s).boot = s.boot := rfl
@[simp] theorem passTo_members (t : Ns) : (passTo t s).members = s.members := rfl
@[simp] theorem passTo_profile (t : Ns) : (passTo t s).profile = s.profile := rfl
@[simp] theorem passTo_basin (t : Ns) : (passTo t s).basin = s.basin := rfl
@[simp] theorem passTo_hostq (t : Ns) : (passTo t s).hostq = s.hostq := rfl
@[simp] theorem passTo_events (t : Ns) : (passTo t s).events = s.events := rfl
@[simp] theorem passTo_access (t : Ns) : (passTo t s).access = s.access := rfl
@[simp] theorem passTo_mgmt (t : Ns) : (passTo t s).mgmt = s.mgmt := rfl
@[simp] theorem passTo_still (t : Ns) : (passTo t s).still = s.still := rfl
@[simp] theorem passTo_override (t : Ns) : (passTo t s).override = s.override := rfl
@[simp] theorem passTo_staging (t : Ns) : (passTo t s).staging = s.staging := rfl
@[simp] theorem passTo_waiting (t : Ns) : (passTo t s).waiting = s.waiting := rfl
@[simp] theorem passTo_jobs (t : Ns) : (passTo t s).jobs = s.jobs := rfl
@[simp] theorem passTo_lanes (t : Ns) : (passTo t s).lanes = s.lanes := rfl
@[simp] theorem passTo_tarns (t : Ns) : (passTo t s).tarns = s.tarns := rfl
@[simp] theorem passTo_curves (t : Ns) : (passTo t s).curves = s.curves := rfl
@[simp] theorem passTo_mere (t : Ns) : (passTo t s).mere = s.mere := rfl
@[simp] theorem passTo_prox (t : Ns) : (passTo t s).prox = s.prox := rfl
@[simp] theorem passTo_link (t : Ns) : (passTo t s).link = s.link := rfl
@[simp] theorem passTo_cfg (t : Ns) : (passTo t s).cfg = s.cfg := rfl
@[simp] theorem passTo_axes (t : Ns) : (passTo t s).axes = s.axes := rfl
@[simp] theorem passTo_enc (t : Ns) : (passTo t s).enc = s.enc := rfl
@[simp] theorem passTo_hall (t : Ns) : (passTo t s).hall = s.hall := rfl
@[simp] theorem passTo_cmp (t : Ns) : (passTo t s).cmp = s.cmp := rfl
@[simp] theorem passTo_echo (t : Ns) : (passTo t s).echo = s.echo := rfl
@[simp] theorem passTo_hk (t : Ns) : (passTo t s).hk = s.hk := rfl
@[simp] theorem passTo_cams (t : Ns) : (passTo t s).cams = s.cams := rfl
@[simp] theorem passTo_isp (t : Ns) : (passTo t s).isp = s.isp := rfl
@[simp] theorem passTo_light (t : Ns) : (passTo t s).light = s.light := rfl
@[simp] theorem passTo_zip (t : Ns) : (passTo t s).zip = s.zip := rfl
@[simp] theorem passTo_scenes (t : Ns) : (passTo t s).scenes = s.scenes := rfl
@[simp] theorem passTo_edp (t : Ns) : (passTo t s).edp = s.edp := rfl
@[simp] theorem passTo_recorder (t : Ns) : (passTo t s).recorder = s.recorder := rfl
@[simp] theorem passTo_sent (t : Ns) : (passTo t s).sent = s.sent := rfl
@[simp] theorem passTo_free (t : Ns) : (passTo t s).free = s.free := rfl
@[simp] theorem passTo_pending (t : Ns) : (passTo t s).pending = s.pending := rfl

@[simp] theorem accept_hostq (h : Hdr) (n : Nat) : (accept h n s).hostq =
    { s.hostq with
      outstanding := s.hostq.outstanding ++ [{ hdr := h, opcode := n, cq := (cmdRing s h.ring).cq.toNat }] } := rfl
@[simp] theorem accept_ident (h : Hdr) (n : Nat) : (accept h n s).ident = s.ident := rfl
@[simp] theorem accept_pins (h : Hdr) (n : Nat) : (accept h n s).pins = s.pins := rfl
@[simp] theorem accept_power (h : Hdr) (n : Nat) : (accept h n s).power = s.power := rfl
@[simp] theorem accept_permit (h : Hdr) (n : Nat) : (accept h n s).permit = s.permit := rfl
@[simp] theorem accept_boot (h : Hdr) (n : Nat) : (accept h n s).boot = s.boot := rfl
@[simp] theorem accept_members (h : Hdr) (n : Nat) : (accept h n s).members = s.members := rfl
@[simp] theorem accept_profile (h : Hdr) (n : Nat) : (accept h n s).profile = s.profile := rfl
@[simp] theorem accept_time (h : Hdr) (n : Nat) : (accept h n s).time = s.time := rfl
@[simp] theorem accept_basin (h : Hdr) (n : Nat) : (accept h n s).basin = s.basin := rfl
@[simp] theorem accept_events (h : Hdr) (n : Nat) : (accept h n s).events = s.events := rfl
@[simp] theorem accept_access (h : Hdr) (n : Nat) : (accept h n s).access = s.access := rfl
@[simp] theorem accept_mgmt (h : Hdr) (n : Nat) : (accept h n s).mgmt = s.mgmt := rfl
@[simp] theorem accept_still (h : Hdr) (n : Nat) : (accept h n s).still = s.still := rfl
@[simp] theorem accept_override (h : Hdr) (n : Nat) : (accept h n s).override = s.override := rfl
@[simp] theorem accept_staging (h : Hdr) (n : Nat) : (accept h n s).staging = s.staging := rfl
@[simp] theorem accept_waiting (h : Hdr) (n : Nat) : (accept h n s).waiting = s.waiting := rfl
@[simp] theorem accept_jobs (h : Hdr) (n : Nat) : (accept h n s).jobs = s.jobs := rfl
@[simp] theorem accept_lanes (h : Hdr) (n : Nat) : (accept h n s).lanes = s.lanes := rfl
@[simp] theorem accept_tarns (h : Hdr) (n : Nat) : (accept h n s).tarns = s.tarns := rfl
@[simp] theorem accept_curves (h : Hdr) (n : Nat) : (accept h n s).curves = s.curves := rfl
@[simp] theorem accept_mere (h : Hdr) (n : Nat) : (accept h n s).mere = s.mere := rfl
@[simp] theorem accept_prox (h : Hdr) (n : Nat) : (accept h n s).prox = s.prox := rfl
@[simp] theorem accept_link (h : Hdr) (n : Nat) : (accept h n s).link = s.link := rfl
@[simp] theorem accept_cfg (h : Hdr) (n : Nat) : (accept h n s).cfg = s.cfg := rfl
@[simp] theorem accept_axes (h : Hdr) (n : Nat) : (accept h n s).axes = s.axes := rfl
@[simp] theorem accept_enc (h : Hdr) (n : Nat) : (accept h n s).enc = s.enc := rfl
@[simp] theorem accept_hall (h : Hdr) (n : Nat) : (accept h n s).hall = s.hall := rfl
@[simp] theorem accept_cmp (h : Hdr) (n : Nat) : (accept h n s).cmp = s.cmp := rfl
@[simp] theorem accept_echo (h : Hdr) (n : Nat) : (accept h n s).echo = s.echo := rfl
@[simp] theorem accept_hk (h : Hdr) (n : Nat) : (accept h n s).hk = s.hk := rfl
@[simp] theorem accept_cams (h : Hdr) (n : Nat) : (accept h n s).cams = s.cams := rfl
@[simp] theorem accept_isp (h : Hdr) (n : Nat) : (accept h n s).isp = s.isp := rfl
@[simp] theorem accept_light (h : Hdr) (n : Nat) : (accept h n s).light = s.light := rfl
@[simp] theorem accept_zip (h : Hdr) (n : Nat) : (accept h n s).zip = s.zip := rfl
@[simp] theorem accept_scenes (h : Hdr) (n : Nat) : (accept h n s).scenes = s.scenes := rfl
@[simp] theorem accept_edp (h : Hdr) (n : Nat) : (accept h n s).edp = s.edp := rfl
@[simp] theorem accept_recorder (h : Hdr) (n : Nat) : (accept h n s).recorder = s.recorder := rfl
@[simp] theorem accept_sent (h : Hdr) (n : Nat) : (accept h n s).sent = s.sent := rfl
@[simp] theorem accept_free (h : Hdr) (n : Nat) : (accept h n s).free = s.free := rfl
@[simp] theorem accept_pending (h : Hdr) (n : Nat) : (accept h n s).pending = s.pending := rfl
@[simp] theorem accept_now (h : Hdr) (n : Nat) : (accept h n s).now = s.now := rfl

@[simp] theorem touchBasin_basin (a n : Nat) : (touchBasin a n s).basin =
    { s.basin with state := 0, lastReq := s.now, openRows := openAfter a n s } := rfl
@[simp] theorem touchBasin_ident (a n : Nat) : (touchBasin a n s).ident = s.ident := rfl
@[simp] theorem touchBasin_pins (a n : Nat) : (touchBasin a n s).pins = s.pins := rfl
@[simp] theorem touchBasin_power (a n : Nat) : (touchBasin a n s).power = s.power := rfl
@[simp] theorem touchBasin_permit (a n : Nat) : (touchBasin a n s).permit = s.permit := rfl
@[simp] theorem touchBasin_boot (a n : Nat) : (touchBasin a n s).boot = s.boot := rfl
@[simp] theorem touchBasin_members (a n : Nat) : (touchBasin a n s).members = s.members := rfl
@[simp] theorem touchBasin_profile (a n : Nat) : (touchBasin a n s).profile = s.profile := rfl
@[simp] theorem touchBasin_time (a n : Nat) : (touchBasin a n s).time = s.time := rfl
@[simp] theorem touchBasin_hostq (a n : Nat) : (touchBasin a n s).hostq = s.hostq := rfl
@[simp] theorem touchBasin_events (a n : Nat) : (touchBasin a n s).events = s.events := rfl
@[simp] theorem touchBasin_access (a n : Nat) : (touchBasin a n s).access = s.access := rfl
@[simp] theorem touchBasin_mgmt (a n : Nat) : (touchBasin a n s).mgmt = s.mgmt := rfl
@[simp] theorem touchBasin_still (a n : Nat) : (touchBasin a n s).still = s.still := rfl
@[simp] theorem touchBasin_override (a n : Nat) : (touchBasin a n s).override = s.override := rfl
@[simp] theorem touchBasin_staging (a n : Nat) : (touchBasin a n s).staging = s.staging := rfl
@[simp] theorem touchBasin_waiting (a n : Nat) : (touchBasin a n s).waiting = s.waiting := rfl
@[simp] theorem touchBasin_jobs (a n : Nat) : (touchBasin a n s).jobs = s.jobs := rfl
@[simp] theorem touchBasin_lanes (a n : Nat) : (touchBasin a n s).lanes = s.lanes := rfl
@[simp] theorem touchBasin_tarns (a n : Nat) : (touchBasin a n s).tarns = s.tarns := rfl
@[simp] theorem touchBasin_curves (a n : Nat) : (touchBasin a n s).curves = s.curves := rfl
@[simp] theorem touchBasin_mere (a n : Nat) : (touchBasin a n s).mere = s.mere := rfl
@[simp] theorem touchBasin_prox (a n : Nat) : (touchBasin a n s).prox = s.prox := rfl
@[simp] theorem touchBasin_link (a n : Nat) : (touchBasin a n s).link = s.link := rfl
@[simp] theorem touchBasin_cfg (a n : Nat) : (touchBasin a n s).cfg = s.cfg := rfl
@[simp] theorem touchBasin_axes (a n : Nat) : (touchBasin a n s).axes = s.axes := rfl
@[simp] theorem touchBasin_enc (a n : Nat) : (touchBasin a n s).enc = s.enc := rfl
@[simp] theorem touchBasin_hall (a n : Nat) : (touchBasin a n s).hall = s.hall := rfl
@[simp] theorem touchBasin_cmp (a n : Nat) : (touchBasin a n s).cmp = s.cmp := rfl
@[simp] theorem touchBasin_echo (a n : Nat) : (touchBasin a n s).echo = s.echo := rfl
@[simp] theorem touchBasin_hk (a n : Nat) : (touchBasin a n s).hk = s.hk := rfl
@[simp] theorem touchBasin_cams (a n : Nat) : (touchBasin a n s).cams = s.cams := rfl
@[simp] theorem touchBasin_isp (a n : Nat) : (touchBasin a n s).isp = s.isp := rfl
@[simp] theorem touchBasin_light (a n : Nat) : (touchBasin a n s).light = s.light := rfl
@[simp] theorem touchBasin_zip (a n : Nat) : (touchBasin a n s).zip = s.zip := rfl
@[simp] theorem touchBasin_scenes (a n : Nat) : (touchBasin a n s).scenes = s.scenes := rfl
@[simp] theorem touchBasin_edp (a n : Nat) : (touchBasin a n s).edp = s.edp := rfl
@[simp] theorem touchBasin_recorder (a n : Nat) : (touchBasin a n s).recorder = s.recorder := rfl
@[simp] theorem touchBasin_sent (a n : Nat) : (touchBasin a n s).sent = s.sent := rfl
@[simp] theorem touchBasin_free (a n : Nat) : (touchBasin a n s).free = s.free := rfl
@[simp] theorem touchBasin_pending (a n : Nat) : (touchBasin a n s).pending = s.pending := rfl
@[simp] theorem touchBasin_now (a n : Nat) : (touchBasin a n s).now = s.now := rfl

@[simp] theorem badAccess_access : (badAccess s).access =
    { s.access with badAccess := satInc s.access.badAccess } := rfl
@[simp] theorem badAccess_ident : (badAccess s).ident = s.ident := rfl
@[simp] theorem badAccess_pins : (badAccess s).pins = s.pins := rfl
@[simp] theorem badAccess_power : (badAccess s).power = s.power := rfl
@[simp] theorem badAccess_permit : (badAccess s).permit = s.permit := rfl
@[simp] theorem badAccess_boot : (badAccess s).boot = s.boot := rfl
@[simp] theorem badAccess_members : (badAccess s).members = s.members := rfl
@[simp] theorem badAccess_profile : (badAccess s).profile = s.profile := rfl
@[simp] theorem badAccess_time : (badAccess s).time = s.time := rfl
@[simp] theorem badAccess_basin : (badAccess s).basin = s.basin := rfl
@[simp] theorem badAccess_hostq : (badAccess s).hostq = s.hostq := rfl
@[simp] theorem badAccess_events : (badAccess s).events = s.events := rfl
@[simp] theorem badAccess_mgmt : (badAccess s).mgmt = s.mgmt := rfl
@[simp] theorem badAccess_still : (badAccess s).still = s.still := rfl
@[simp] theorem badAccess_override : (badAccess s).override = s.override := rfl
@[simp] theorem badAccess_staging : (badAccess s).staging = s.staging := rfl
@[simp] theorem badAccess_waiting : (badAccess s).waiting = s.waiting := rfl
@[simp] theorem badAccess_jobs : (badAccess s).jobs = s.jobs := rfl
@[simp] theorem badAccess_lanes : (badAccess s).lanes = s.lanes := rfl
@[simp] theorem badAccess_tarns : (badAccess s).tarns = s.tarns := rfl
@[simp] theorem badAccess_curves : (badAccess s).curves = s.curves := rfl
@[simp] theorem badAccess_mere : (badAccess s).mere = s.mere := rfl
@[simp] theorem badAccess_prox : (badAccess s).prox = s.prox := rfl
@[simp] theorem badAccess_link : (badAccess s).link = s.link := rfl
@[simp] theorem badAccess_cfg : (badAccess s).cfg = s.cfg := rfl
@[simp] theorem badAccess_axes : (badAccess s).axes = s.axes := rfl
@[simp] theorem badAccess_enc : (badAccess s).enc = s.enc := rfl
@[simp] theorem badAccess_hall : (badAccess s).hall = s.hall := rfl
@[simp] theorem badAccess_cmp : (badAccess s).cmp = s.cmp := rfl
@[simp] theorem badAccess_echo : (badAccess s).echo = s.echo := rfl
@[simp] theorem badAccess_hk : (badAccess s).hk = s.hk := rfl
@[simp] theorem badAccess_cams : (badAccess s).cams = s.cams := rfl
@[simp] theorem badAccess_isp : (badAccess s).isp = s.isp := rfl
@[simp] theorem badAccess_light : (badAccess s).light = s.light := rfl
@[simp] theorem badAccess_zip : (badAccess s).zip = s.zip := rfl
@[simp] theorem badAccess_scenes : (badAccess s).scenes = s.scenes := rfl
@[simp] theorem badAccess_edp : (badAccess s).edp = s.edp := rfl
@[simp] theorem badAccess_recorder : (badAccess s).recorder = s.recorder := rfl
@[simp] theorem badAccess_sent : (badAccess s).sent = s.sent := rfl
@[simp] theorem badAccess_free : (badAccess s).free = s.free := rfl
@[simp] theorem badAccess_pending : (badAccess s).pending = s.pending := rfl
@[simp] theorem badAccess_now : (badAccess s).now = s.now := rfl

@[simp] theorem reservedWrite_access : (reservedWrite s).access =
    { s.access with reservedWrites := satInc s.access.reservedWrites } := rfl
@[simp] theorem reservedWrite_ident : (reservedWrite s).ident = s.ident := rfl
@[simp] theorem reservedWrite_pins : (reservedWrite s).pins = s.pins := rfl
@[simp] theorem reservedWrite_power : (reservedWrite s).power = s.power := rfl
@[simp] theorem reservedWrite_permit : (reservedWrite s).permit = s.permit := rfl
@[simp] theorem reservedWrite_boot : (reservedWrite s).boot = s.boot := rfl
@[simp] theorem reservedWrite_members : (reservedWrite s).members = s.members := rfl
@[simp] theorem reservedWrite_profile : (reservedWrite s).profile = s.profile := rfl
@[simp] theorem reservedWrite_time : (reservedWrite s).time = s.time := rfl
@[simp] theorem reservedWrite_basin : (reservedWrite s).basin = s.basin := rfl
@[simp] theorem reservedWrite_hostq : (reservedWrite s).hostq = s.hostq := rfl
@[simp] theorem reservedWrite_events : (reservedWrite s).events = s.events := rfl
@[simp] theorem reservedWrite_mgmt : (reservedWrite s).mgmt = s.mgmt := rfl
@[simp] theorem reservedWrite_still : (reservedWrite s).still = s.still := rfl
@[simp] theorem reservedWrite_override : (reservedWrite s).override = s.override := rfl
@[simp] theorem reservedWrite_staging : (reservedWrite s).staging = s.staging := rfl
@[simp] theorem reservedWrite_waiting : (reservedWrite s).waiting = s.waiting := rfl
@[simp] theorem reservedWrite_jobs : (reservedWrite s).jobs = s.jobs := rfl
@[simp] theorem reservedWrite_lanes : (reservedWrite s).lanes = s.lanes := rfl
@[simp] theorem reservedWrite_tarns : (reservedWrite s).tarns = s.tarns := rfl
@[simp] theorem reservedWrite_curves : (reservedWrite s).curves = s.curves := rfl
@[simp] theorem reservedWrite_mere : (reservedWrite s).mere = s.mere := rfl
@[simp] theorem reservedWrite_prox : (reservedWrite s).prox = s.prox := rfl
@[simp] theorem reservedWrite_link : (reservedWrite s).link = s.link := rfl
@[simp] theorem reservedWrite_cfg : (reservedWrite s).cfg = s.cfg := rfl
@[simp] theorem reservedWrite_axes : (reservedWrite s).axes = s.axes := rfl
@[simp] theorem reservedWrite_enc : (reservedWrite s).enc = s.enc := rfl
@[simp] theorem reservedWrite_hall : (reservedWrite s).hall = s.hall := rfl
@[simp] theorem reservedWrite_cmp : (reservedWrite s).cmp = s.cmp := rfl
@[simp] theorem reservedWrite_echo : (reservedWrite s).echo = s.echo := rfl
@[simp] theorem reservedWrite_hk : (reservedWrite s).hk = s.hk := rfl
@[simp] theorem reservedWrite_cams : (reservedWrite s).cams = s.cams := rfl
@[simp] theorem reservedWrite_isp : (reservedWrite s).isp = s.isp := rfl
@[simp] theorem reservedWrite_light : (reservedWrite s).light = s.light := rfl
@[simp] theorem reservedWrite_zip : (reservedWrite s).zip = s.zip := rfl
@[simp] theorem reservedWrite_scenes : (reservedWrite s).scenes = s.scenes := rfl
@[simp] theorem reservedWrite_edp : (reservedWrite s).edp = s.edp := rfl
@[simp] theorem reservedWrite_recorder : (reservedWrite s).recorder = s.recorder := rfl
@[simp] theorem reservedWrite_sent : (reservedWrite s).sent = s.sent := rfl
@[simp] theorem reservedWrite_free : (reservedWrite s).free = s.free := rfl
@[simp] theorem reservedWrite_pending : (reservedWrite s).pending = s.pending := rfl
@[simp] theorem reservedWrite_now : (reservedWrite s).now = s.now := rfl

@[simp] theorem setCmd_hostq (r : Nat) (f : CmdRing → CmdRing) : (setCmd r f s).hostq =
    { s.hostq with cmd := modUnit s.hostq.cmd r f } := rfl
@[simp] theorem setCmd_ident (r : Nat) (f : CmdRing → CmdRing) : (setCmd r f s).ident = s.ident := rfl
@[simp] theorem setCmd_pins (r : Nat) (f : CmdRing → CmdRing) : (setCmd r f s).pins = s.pins := rfl
@[simp] theorem setCmd_power (r : Nat) (f : CmdRing → CmdRing) : (setCmd r f s).power = s.power := rfl
@[simp] theorem setCmd_permit (r : Nat) (f : CmdRing → CmdRing) : (setCmd r f s).permit = s.permit := rfl
@[simp] theorem setCmd_boot (r : Nat) (f : CmdRing → CmdRing) : (setCmd r f s).boot = s.boot := rfl
@[simp] theorem setCmd_members (r : Nat) (f : CmdRing → CmdRing) : (setCmd r f s).members = s.members := rfl
@[simp] theorem setCmd_profile (r : Nat) (f : CmdRing → CmdRing) : (setCmd r f s).profile = s.profile := rfl
@[simp] theorem setCmd_time (r : Nat) (f : CmdRing → CmdRing) : (setCmd r f s).time = s.time := rfl
@[simp] theorem setCmd_basin (r : Nat) (f : CmdRing → CmdRing) : (setCmd r f s).basin = s.basin := rfl
@[simp] theorem setCmd_events (r : Nat) (f : CmdRing → CmdRing) : (setCmd r f s).events = s.events := rfl
@[simp] theorem setCmd_access (r : Nat) (f : CmdRing → CmdRing) : (setCmd r f s).access = s.access := rfl
@[simp] theorem setCmd_mgmt (r : Nat) (f : CmdRing → CmdRing) : (setCmd r f s).mgmt = s.mgmt := rfl
@[simp] theorem setCmd_still (r : Nat) (f : CmdRing → CmdRing) : (setCmd r f s).still = s.still := rfl
@[simp] theorem setCmd_override (r : Nat) (f : CmdRing → CmdRing) : (setCmd r f s).override = s.override := rfl
@[simp] theorem setCmd_staging (r : Nat) (f : CmdRing → CmdRing) : (setCmd r f s).staging = s.staging := rfl
@[simp] theorem setCmd_waiting (r : Nat) (f : CmdRing → CmdRing) : (setCmd r f s).waiting = s.waiting := rfl
@[simp] theorem setCmd_jobs (r : Nat) (f : CmdRing → CmdRing) : (setCmd r f s).jobs = s.jobs := rfl
@[simp] theorem setCmd_lanes (r : Nat) (f : CmdRing → CmdRing) : (setCmd r f s).lanes = s.lanes := rfl
@[simp] theorem setCmd_tarns (r : Nat) (f : CmdRing → CmdRing) : (setCmd r f s).tarns = s.tarns := rfl
@[simp] theorem setCmd_curves (r : Nat) (f : CmdRing → CmdRing) : (setCmd r f s).curves = s.curves := rfl
@[simp] theorem setCmd_mere (r : Nat) (f : CmdRing → CmdRing) : (setCmd r f s).mere = s.mere := rfl
@[simp] theorem setCmd_prox (r : Nat) (f : CmdRing → CmdRing) : (setCmd r f s).prox = s.prox := rfl
@[simp] theorem setCmd_link (r : Nat) (f : CmdRing → CmdRing) : (setCmd r f s).link = s.link := rfl
@[simp] theorem setCmd_cfg (r : Nat) (f : CmdRing → CmdRing) : (setCmd r f s).cfg = s.cfg := rfl
@[simp] theorem setCmd_axes (r : Nat) (f : CmdRing → CmdRing) : (setCmd r f s).axes = s.axes := rfl
@[simp] theorem setCmd_enc (r : Nat) (f : CmdRing → CmdRing) : (setCmd r f s).enc = s.enc := rfl
@[simp] theorem setCmd_hall (r : Nat) (f : CmdRing → CmdRing) : (setCmd r f s).hall = s.hall := rfl
@[simp] theorem setCmd_cmp (r : Nat) (f : CmdRing → CmdRing) : (setCmd r f s).cmp = s.cmp := rfl
@[simp] theorem setCmd_echo (r : Nat) (f : CmdRing → CmdRing) : (setCmd r f s).echo = s.echo := rfl
@[simp] theorem setCmd_hk (r : Nat) (f : CmdRing → CmdRing) : (setCmd r f s).hk = s.hk := rfl
@[simp] theorem setCmd_cams (r : Nat) (f : CmdRing → CmdRing) : (setCmd r f s).cams = s.cams := rfl
@[simp] theorem setCmd_isp (r : Nat) (f : CmdRing → CmdRing) : (setCmd r f s).isp = s.isp := rfl
@[simp] theorem setCmd_light (r : Nat) (f : CmdRing → CmdRing) : (setCmd r f s).light = s.light := rfl
@[simp] theorem setCmd_zip (r : Nat) (f : CmdRing → CmdRing) : (setCmd r f s).zip = s.zip := rfl
@[simp] theorem setCmd_scenes (r : Nat) (f : CmdRing → CmdRing) : (setCmd r f s).scenes = s.scenes := rfl
@[simp] theorem setCmd_edp (r : Nat) (f : CmdRing → CmdRing) : (setCmd r f s).edp = s.edp := rfl
@[simp] theorem setCmd_recorder (r : Nat) (f : CmdRing → CmdRing) : (setCmd r f s).recorder = s.recorder := rfl
@[simp] theorem setCmd_sent (r : Nat) (f : CmdRing → CmdRing) : (setCmd r f s).sent = s.sent := rfl
@[simp] theorem setCmd_free (r : Nat) (f : CmdRing → CmdRing) : (setCmd r f s).free = s.free := rfl
@[simp] theorem setCmd_pending (r : Nat) (f : CmdRing → CmdRing) : (setCmd r f s).pending = s.pending := rfl
@[simp] theorem setCmd_now (r : Nat) (f : CmdRing → CmdRing) : (setCmd r f s).now = s.now := rfl

@[simp] theorem setCq_hostq (c : Nat) (f : ComplRing → ComplRing) : (setCq c f s).hostq =
    { s.hostq with cq := modUnit s.hostq.cq c f } := rfl
@[simp] theorem setCq_ident (c : Nat) (f : ComplRing → ComplRing) : (setCq c f s).ident = s.ident := rfl
@[simp] theorem setCq_pins (c : Nat) (f : ComplRing → ComplRing) : (setCq c f s).pins = s.pins := rfl
@[simp] theorem setCq_power (c : Nat) (f : ComplRing → ComplRing) : (setCq c f s).power = s.power := rfl
@[simp] theorem setCq_permit (c : Nat) (f : ComplRing → ComplRing) : (setCq c f s).permit = s.permit := rfl
@[simp] theorem setCq_boot (c : Nat) (f : ComplRing → ComplRing) : (setCq c f s).boot = s.boot := rfl
@[simp] theorem setCq_members (c : Nat) (f : ComplRing → ComplRing) : (setCq c f s).members = s.members := rfl
@[simp] theorem setCq_profile (c : Nat) (f : ComplRing → ComplRing) : (setCq c f s).profile = s.profile := rfl
@[simp] theorem setCq_time (c : Nat) (f : ComplRing → ComplRing) : (setCq c f s).time = s.time := rfl
@[simp] theorem setCq_basin (c : Nat) (f : ComplRing → ComplRing) : (setCq c f s).basin = s.basin := rfl
@[simp] theorem setCq_events (c : Nat) (f : ComplRing → ComplRing) : (setCq c f s).events = s.events := rfl
@[simp] theorem setCq_access (c : Nat) (f : ComplRing → ComplRing) : (setCq c f s).access = s.access := rfl
@[simp] theorem setCq_mgmt (c : Nat) (f : ComplRing → ComplRing) : (setCq c f s).mgmt = s.mgmt := rfl
@[simp] theorem setCq_still (c : Nat) (f : ComplRing → ComplRing) : (setCq c f s).still = s.still := rfl
@[simp] theorem setCq_override (c : Nat) (f : ComplRing → ComplRing) : (setCq c f s).override = s.override := rfl
@[simp] theorem setCq_staging (c : Nat) (f : ComplRing → ComplRing) : (setCq c f s).staging = s.staging := rfl
@[simp] theorem setCq_waiting (c : Nat) (f : ComplRing → ComplRing) : (setCq c f s).waiting = s.waiting := rfl
@[simp] theorem setCq_jobs (c : Nat) (f : ComplRing → ComplRing) : (setCq c f s).jobs = s.jobs := rfl
@[simp] theorem setCq_lanes (c : Nat) (f : ComplRing → ComplRing) : (setCq c f s).lanes = s.lanes := rfl
@[simp] theorem setCq_tarns (c : Nat) (f : ComplRing → ComplRing) : (setCq c f s).tarns = s.tarns := rfl
@[simp] theorem setCq_curves (c : Nat) (f : ComplRing → ComplRing) : (setCq c f s).curves = s.curves := rfl
@[simp] theorem setCq_mere (c : Nat) (f : ComplRing → ComplRing) : (setCq c f s).mere = s.mere := rfl
@[simp] theorem setCq_prox (c : Nat) (f : ComplRing → ComplRing) : (setCq c f s).prox = s.prox := rfl
@[simp] theorem setCq_link (c : Nat) (f : ComplRing → ComplRing) : (setCq c f s).link = s.link := rfl
@[simp] theorem setCq_cfg (c : Nat) (f : ComplRing → ComplRing) : (setCq c f s).cfg = s.cfg := rfl
@[simp] theorem setCq_axes (c : Nat) (f : ComplRing → ComplRing) : (setCq c f s).axes = s.axes := rfl
@[simp] theorem setCq_enc (c : Nat) (f : ComplRing → ComplRing) : (setCq c f s).enc = s.enc := rfl
@[simp] theorem setCq_hall (c : Nat) (f : ComplRing → ComplRing) : (setCq c f s).hall = s.hall := rfl
@[simp] theorem setCq_cmp (c : Nat) (f : ComplRing → ComplRing) : (setCq c f s).cmp = s.cmp := rfl
@[simp] theorem setCq_echo (c : Nat) (f : ComplRing → ComplRing) : (setCq c f s).echo = s.echo := rfl
@[simp] theorem setCq_hk (c : Nat) (f : ComplRing → ComplRing) : (setCq c f s).hk = s.hk := rfl
@[simp] theorem setCq_cams (c : Nat) (f : ComplRing → ComplRing) : (setCq c f s).cams = s.cams := rfl
@[simp] theorem setCq_isp (c : Nat) (f : ComplRing → ComplRing) : (setCq c f s).isp = s.isp := rfl
@[simp] theorem setCq_light (c : Nat) (f : ComplRing → ComplRing) : (setCq c f s).light = s.light := rfl
@[simp] theorem setCq_zip (c : Nat) (f : ComplRing → ComplRing) : (setCq c f s).zip = s.zip := rfl
@[simp] theorem setCq_scenes (c : Nat) (f : ComplRing → ComplRing) : (setCq c f s).scenes = s.scenes := rfl
@[simp] theorem setCq_edp (c : Nat) (f : ComplRing → ComplRing) : (setCq c f s).edp = s.edp := rfl
@[simp] theorem setCq_recorder (c : Nat) (f : ComplRing → ComplRing) : (setCq c f s).recorder = s.recorder := rfl
@[simp] theorem setCq_sent (c : Nat) (f : ComplRing → ComplRing) : (setCq c f s).sent = s.sent := rfl
@[simp] theorem setCq_free (c : Nat) (f : ComplRing → ComplRing) : (setCq c f s).free = s.free := rfl
@[simp] theorem setCq_pending (c : Nat) (f : ComplRing → ComplRing) : (setCq c f s).pending = s.pending := rfl
@[simp] theorem setCq_now (c : Nat) (f : ComplRing → ComplRing) : (setCq c f s).now = s.now := rfl

@[simp] theorem setClock_time (f : Clock → Clock) : (setClock f s).time =
    { s.time with clock := f s.time.clock } := rfl
@[simp] theorem setClock_ident (f : Clock → Clock) : (setClock f s).ident = s.ident := rfl
@[simp] theorem setClock_pins (f : Clock → Clock) : (setClock f s).pins = s.pins := rfl
@[simp] theorem setClock_power (f : Clock → Clock) : (setClock f s).power = s.power := rfl
@[simp] theorem setClock_permit (f : Clock → Clock) : (setClock f s).permit = s.permit := rfl
@[simp] theorem setClock_boot (f : Clock → Clock) : (setClock f s).boot = s.boot := rfl
@[simp] theorem setClock_members (f : Clock → Clock) : (setClock f s).members = s.members := rfl
@[simp] theorem setClock_profile (f : Clock → Clock) : (setClock f s).profile = s.profile := rfl
@[simp] theorem setClock_basin (f : Clock → Clock) : (setClock f s).basin = s.basin := rfl
@[simp] theorem setClock_hostq (f : Clock → Clock) : (setClock f s).hostq = s.hostq := rfl
@[simp] theorem setClock_events (f : Clock → Clock) : (setClock f s).events = s.events := rfl
@[simp] theorem setClock_access (f : Clock → Clock) : (setClock f s).access = s.access := rfl
@[simp] theorem setClock_mgmt (f : Clock → Clock) : (setClock f s).mgmt = s.mgmt := rfl
@[simp] theorem setClock_still (f : Clock → Clock) : (setClock f s).still = s.still := rfl
@[simp] theorem setClock_override (f : Clock → Clock) : (setClock f s).override = s.override := rfl
@[simp] theorem setClock_staging (f : Clock → Clock) : (setClock f s).staging = s.staging := rfl
@[simp] theorem setClock_waiting (f : Clock → Clock) : (setClock f s).waiting = s.waiting := rfl
@[simp] theorem setClock_jobs (f : Clock → Clock) : (setClock f s).jobs = s.jobs := rfl
@[simp] theorem setClock_lanes (f : Clock → Clock) : (setClock f s).lanes = s.lanes := rfl
@[simp] theorem setClock_tarns (f : Clock → Clock) : (setClock f s).tarns = s.tarns := rfl
@[simp] theorem setClock_curves (f : Clock → Clock) : (setClock f s).curves = s.curves := rfl
@[simp] theorem setClock_mere (f : Clock → Clock) : (setClock f s).mere = s.mere := rfl
@[simp] theorem setClock_prox (f : Clock → Clock) : (setClock f s).prox = s.prox := rfl
@[simp] theorem setClock_link (f : Clock → Clock) : (setClock f s).link = s.link := rfl
@[simp] theorem setClock_cfg (f : Clock → Clock) : (setClock f s).cfg = s.cfg := rfl
@[simp] theorem setClock_axes (f : Clock → Clock) : (setClock f s).axes = s.axes := rfl
@[simp] theorem setClock_enc (f : Clock → Clock) : (setClock f s).enc = s.enc := rfl
@[simp] theorem setClock_hall (f : Clock → Clock) : (setClock f s).hall = s.hall := rfl
@[simp] theorem setClock_cmp (f : Clock → Clock) : (setClock f s).cmp = s.cmp := rfl
@[simp] theorem setClock_echo (f : Clock → Clock) : (setClock f s).echo = s.echo := rfl
@[simp] theorem setClock_hk (f : Clock → Clock) : (setClock f s).hk = s.hk := rfl
@[simp] theorem setClock_cams (f : Clock → Clock) : (setClock f s).cams = s.cams := rfl
@[simp] theorem setClock_isp (f : Clock → Clock) : (setClock f s).isp = s.isp := rfl
@[simp] theorem setClock_light (f : Clock → Clock) : (setClock f s).light = s.light := rfl
@[simp] theorem setClock_zip (f : Clock → Clock) : (setClock f s).zip = s.zip := rfl
@[simp] theorem setClock_scenes (f : Clock → Clock) : (setClock f s).scenes = s.scenes := rfl
@[simp] theorem setClock_edp (f : Clock → Clock) : (setClock f s).edp = s.edp := rfl
@[simp] theorem setClock_recorder (f : Clock → Clock) : (setClock f s).recorder = s.recorder := rfl
@[simp] theorem setClock_sent (f : Clock → Clock) : (setClock f s).sent = s.sent := rfl
@[simp] theorem setClock_free (f : Clock → Clock) : (setClock f s).free = s.free := rfl
@[simp] theorem setClock_pending (f : Clock → Clock) : (setClock f s).pending = s.pending := rfl

@[simp] theorem setTrig_time (n : Nat) (f : TrigOut → TrigOut) : (setTrig n f s).time =
    { s.time with trigOut := modUnit s.time.trigOut n f } := rfl
@[simp] theorem setTrig_ident (n : Nat) (f : TrigOut → TrigOut) : (setTrig n f s).ident = s.ident := rfl
@[simp] theorem setTrig_pins (n : Nat) (f : TrigOut → TrigOut) : (setTrig n f s).pins = s.pins := rfl
@[simp] theorem setTrig_power (n : Nat) (f : TrigOut → TrigOut) : (setTrig n f s).power = s.power := rfl
@[simp] theorem setTrig_permit (n : Nat) (f : TrigOut → TrigOut) : (setTrig n f s).permit = s.permit := rfl
@[simp] theorem setTrig_boot (n : Nat) (f : TrigOut → TrigOut) : (setTrig n f s).boot = s.boot := rfl
@[simp] theorem setTrig_members (n : Nat) (f : TrigOut → TrigOut) : (setTrig n f s).members = s.members := rfl
@[simp] theorem setTrig_profile (n : Nat) (f : TrigOut → TrigOut) : (setTrig n f s).profile = s.profile := rfl
@[simp] theorem setTrig_basin (n : Nat) (f : TrigOut → TrigOut) : (setTrig n f s).basin = s.basin := rfl
@[simp] theorem setTrig_hostq (n : Nat) (f : TrigOut → TrigOut) : (setTrig n f s).hostq = s.hostq := rfl
@[simp] theorem setTrig_events (n : Nat) (f : TrigOut → TrigOut) : (setTrig n f s).events = s.events := rfl
@[simp] theorem setTrig_access (n : Nat) (f : TrigOut → TrigOut) : (setTrig n f s).access = s.access := rfl
@[simp] theorem setTrig_mgmt (n : Nat) (f : TrigOut → TrigOut) : (setTrig n f s).mgmt = s.mgmt := rfl
@[simp] theorem setTrig_still (n : Nat) (f : TrigOut → TrigOut) : (setTrig n f s).still = s.still := rfl
@[simp] theorem setTrig_override (n : Nat) (f : TrigOut → TrigOut) : (setTrig n f s).override = s.override := rfl
@[simp] theorem setTrig_staging (n : Nat) (f : TrigOut → TrigOut) : (setTrig n f s).staging = s.staging := rfl
@[simp] theorem setTrig_waiting (n : Nat) (f : TrigOut → TrigOut) : (setTrig n f s).waiting = s.waiting := rfl
@[simp] theorem setTrig_jobs (n : Nat) (f : TrigOut → TrigOut) : (setTrig n f s).jobs = s.jobs := rfl
@[simp] theorem setTrig_lanes (n : Nat) (f : TrigOut → TrigOut) : (setTrig n f s).lanes = s.lanes := rfl
@[simp] theorem setTrig_tarns (n : Nat) (f : TrigOut → TrigOut) : (setTrig n f s).tarns = s.tarns := rfl
@[simp] theorem setTrig_curves (n : Nat) (f : TrigOut → TrigOut) : (setTrig n f s).curves = s.curves := rfl
@[simp] theorem setTrig_mere (n : Nat) (f : TrigOut → TrigOut) : (setTrig n f s).mere = s.mere := rfl
@[simp] theorem setTrig_prox (n : Nat) (f : TrigOut → TrigOut) : (setTrig n f s).prox = s.prox := rfl
@[simp] theorem setTrig_link (n : Nat) (f : TrigOut → TrigOut) : (setTrig n f s).link = s.link := rfl
@[simp] theorem setTrig_cfg (n : Nat) (f : TrigOut → TrigOut) : (setTrig n f s).cfg = s.cfg := rfl
@[simp] theorem setTrig_axes (n : Nat) (f : TrigOut → TrigOut) : (setTrig n f s).axes = s.axes := rfl
@[simp] theorem setTrig_enc (n : Nat) (f : TrigOut → TrigOut) : (setTrig n f s).enc = s.enc := rfl
@[simp] theorem setTrig_hall (n : Nat) (f : TrigOut → TrigOut) : (setTrig n f s).hall = s.hall := rfl
@[simp] theorem setTrig_cmp (n : Nat) (f : TrigOut → TrigOut) : (setTrig n f s).cmp = s.cmp := rfl
@[simp] theorem setTrig_echo (n : Nat) (f : TrigOut → TrigOut) : (setTrig n f s).echo = s.echo := rfl
@[simp] theorem setTrig_hk (n : Nat) (f : TrigOut → TrigOut) : (setTrig n f s).hk = s.hk := rfl
@[simp] theorem setTrig_cams (n : Nat) (f : TrigOut → TrigOut) : (setTrig n f s).cams = s.cams := rfl
@[simp] theorem setTrig_isp (n : Nat) (f : TrigOut → TrigOut) : (setTrig n f s).isp = s.isp := rfl
@[simp] theorem setTrig_light (n : Nat) (f : TrigOut → TrigOut) : (setTrig n f s).light = s.light := rfl
@[simp] theorem setTrig_zip (n : Nat) (f : TrigOut → TrigOut) : (setTrig n f s).zip = s.zip := rfl
@[simp] theorem setTrig_scenes (n : Nat) (f : TrigOut → TrigOut) : (setTrig n f s).scenes = s.scenes := rfl
@[simp] theorem setTrig_edp (n : Nat) (f : TrigOut → TrigOut) : (setTrig n f s).edp = s.edp := rfl
@[simp] theorem setTrig_recorder (n : Nat) (f : TrigOut → TrigOut) : (setTrig n f s).recorder = s.recorder := rfl
@[simp] theorem setTrig_sent (n : Nat) (f : TrigOut → TrigOut) : (setTrig n f s).sent = s.sent := rfl
@[simp] theorem setTrig_free (n : Nat) (f : TrigOut → TrigOut) : (setTrig n f s).free = s.free := rfl
@[simp] theorem setTrig_pending (n : Nat) (f : TrigOut → TrigOut) : (setTrig n f s).pending = s.pending := rfl

@[simp] theorem setTrigIn_time (n : Nat) (f : TrigIn → TrigIn) : (setTrigIn n f s).time =
    { s.time with trigIn := modUnit s.time.trigIn n f } := rfl
@[simp] theorem setTrigIn_ident (n : Nat) (f : TrigIn → TrigIn) : (setTrigIn n f s).ident = s.ident := rfl
@[simp] theorem setTrigIn_pins (n : Nat) (f : TrigIn → TrigIn) : (setTrigIn n f s).pins = s.pins := rfl
@[simp] theorem setTrigIn_power (n : Nat) (f : TrigIn → TrigIn) : (setTrigIn n f s).power = s.power := rfl
@[simp] theorem setTrigIn_permit (n : Nat) (f : TrigIn → TrigIn) : (setTrigIn n f s).permit = s.permit := rfl
@[simp] theorem setTrigIn_boot (n : Nat) (f : TrigIn → TrigIn) : (setTrigIn n f s).boot = s.boot := rfl
@[simp] theorem setTrigIn_members (n : Nat) (f : TrigIn → TrigIn) : (setTrigIn n f s).members = s.members := rfl
@[simp] theorem setTrigIn_profile (n : Nat) (f : TrigIn → TrigIn) : (setTrigIn n f s).profile = s.profile := rfl
@[simp] theorem setTrigIn_basin (n : Nat) (f : TrigIn → TrigIn) : (setTrigIn n f s).basin = s.basin := rfl
@[simp] theorem setTrigIn_hostq (n : Nat) (f : TrigIn → TrigIn) : (setTrigIn n f s).hostq = s.hostq := rfl
@[simp] theorem setTrigIn_events (n : Nat) (f : TrigIn → TrigIn) : (setTrigIn n f s).events = s.events := rfl
@[simp] theorem setTrigIn_access (n : Nat) (f : TrigIn → TrigIn) : (setTrigIn n f s).access = s.access := rfl
@[simp] theorem setTrigIn_mgmt (n : Nat) (f : TrigIn → TrigIn) : (setTrigIn n f s).mgmt = s.mgmt := rfl
@[simp] theorem setTrigIn_still (n : Nat) (f : TrigIn → TrigIn) : (setTrigIn n f s).still = s.still := rfl
@[simp] theorem setTrigIn_override (n : Nat) (f : TrigIn → TrigIn) : (setTrigIn n f s).override = s.override := rfl
@[simp] theorem setTrigIn_staging (n : Nat) (f : TrigIn → TrigIn) : (setTrigIn n f s).staging = s.staging := rfl
@[simp] theorem setTrigIn_waiting (n : Nat) (f : TrigIn → TrigIn) : (setTrigIn n f s).waiting = s.waiting := rfl
@[simp] theorem setTrigIn_jobs (n : Nat) (f : TrigIn → TrigIn) : (setTrigIn n f s).jobs = s.jobs := rfl
@[simp] theorem setTrigIn_lanes (n : Nat) (f : TrigIn → TrigIn) : (setTrigIn n f s).lanes = s.lanes := rfl
@[simp] theorem setTrigIn_tarns (n : Nat) (f : TrigIn → TrigIn) : (setTrigIn n f s).tarns = s.tarns := rfl
@[simp] theorem setTrigIn_curves (n : Nat) (f : TrigIn → TrigIn) : (setTrigIn n f s).curves = s.curves := rfl
@[simp] theorem setTrigIn_mere (n : Nat) (f : TrigIn → TrigIn) : (setTrigIn n f s).mere = s.mere := rfl
@[simp] theorem setTrigIn_prox (n : Nat) (f : TrigIn → TrigIn) : (setTrigIn n f s).prox = s.prox := rfl
@[simp] theorem setTrigIn_link (n : Nat) (f : TrigIn → TrigIn) : (setTrigIn n f s).link = s.link := rfl
@[simp] theorem setTrigIn_cfg (n : Nat) (f : TrigIn → TrigIn) : (setTrigIn n f s).cfg = s.cfg := rfl
@[simp] theorem setTrigIn_axes (n : Nat) (f : TrigIn → TrigIn) : (setTrigIn n f s).axes = s.axes := rfl
@[simp] theorem setTrigIn_enc (n : Nat) (f : TrigIn → TrigIn) : (setTrigIn n f s).enc = s.enc := rfl
@[simp] theorem setTrigIn_hall (n : Nat) (f : TrigIn → TrigIn) : (setTrigIn n f s).hall = s.hall := rfl
@[simp] theorem setTrigIn_cmp (n : Nat) (f : TrigIn → TrigIn) : (setTrigIn n f s).cmp = s.cmp := rfl
@[simp] theorem setTrigIn_echo (n : Nat) (f : TrigIn → TrigIn) : (setTrigIn n f s).echo = s.echo := rfl
@[simp] theorem setTrigIn_hk (n : Nat) (f : TrigIn → TrigIn) : (setTrigIn n f s).hk = s.hk := rfl
@[simp] theorem setTrigIn_cams (n : Nat) (f : TrigIn → TrigIn) : (setTrigIn n f s).cams = s.cams := rfl
@[simp] theorem setTrigIn_isp (n : Nat) (f : TrigIn → TrigIn) : (setTrigIn n f s).isp = s.isp := rfl
@[simp] theorem setTrigIn_light (n : Nat) (f : TrigIn → TrigIn) : (setTrigIn n f s).light = s.light := rfl
@[simp] theorem setTrigIn_zip (n : Nat) (f : TrigIn → TrigIn) : (setTrigIn n f s).zip = s.zip := rfl
@[simp] theorem setTrigIn_scenes (n : Nat) (f : TrigIn → TrigIn) : (setTrigIn n f s).scenes = s.scenes := rfl
@[simp] theorem setTrigIn_edp (n : Nat) (f : TrigIn → TrigIn) : (setTrigIn n f s).edp = s.edp := rfl
@[simp] theorem setTrigIn_recorder (n : Nat) (f : TrigIn → TrigIn) : (setTrigIn n f s).recorder = s.recorder := rfl
@[simp] theorem setTrigIn_sent (n : Nat) (f : TrigIn → TrigIn) : (setTrigIn n f s).sent = s.sent := rfl
@[simp] theorem setTrigIn_free (n : Nat) (f : TrigIn → TrigIn) : (setTrigIn n f s).free = s.free := rfl
@[simp] theorem setTrigIn_pending (n : Nat) (f : TrigIn → TrigIn) : (setTrigIn n f s).pending = s.pending := rfl

@[simp] theorem setRipple_time (f : Ripple → Ripple) : (setRipple f s).time =
    { s.time with ripple := f s.time.ripple } := rfl
@[simp] theorem setRipple_ident (f : Ripple → Ripple) : (setRipple f s).ident = s.ident := rfl
@[simp] theorem setRipple_pins (f : Ripple → Ripple) : (setRipple f s).pins = s.pins := rfl
@[simp] theorem setRipple_power (f : Ripple → Ripple) : (setRipple f s).power = s.power := rfl
@[simp] theorem setRipple_permit (f : Ripple → Ripple) : (setRipple f s).permit = s.permit := rfl
@[simp] theorem setRipple_boot (f : Ripple → Ripple) : (setRipple f s).boot = s.boot := rfl
@[simp] theorem setRipple_members (f : Ripple → Ripple) : (setRipple f s).members = s.members := rfl
@[simp] theorem setRipple_profile (f : Ripple → Ripple) : (setRipple f s).profile = s.profile := rfl
@[simp] theorem setRipple_basin (f : Ripple → Ripple) : (setRipple f s).basin = s.basin := rfl
@[simp] theorem setRipple_hostq (f : Ripple → Ripple) : (setRipple f s).hostq = s.hostq := rfl
@[simp] theorem setRipple_events (f : Ripple → Ripple) : (setRipple f s).events = s.events := rfl
@[simp] theorem setRipple_access (f : Ripple → Ripple) : (setRipple f s).access = s.access := rfl
@[simp] theorem setRipple_mgmt (f : Ripple → Ripple) : (setRipple f s).mgmt = s.mgmt := rfl
@[simp] theorem setRipple_still (f : Ripple → Ripple) : (setRipple f s).still = s.still := rfl
@[simp] theorem setRipple_override (f : Ripple → Ripple) : (setRipple f s).override = s.override := rfl
@[simp] theorem setRipple_staging (f : Ripple → Ripple) : (setRipple f s).staging = s.staging := rfl
@[simp] theorem setRipple_waiting (f : Ripple → Ripple) : (setRipple f s).waiting = s.waiting := rfl
@[simp] theorem setRipple_jobs (f : Ripple → Ripple) : (setRipple f s).jobs = s.jobs := rfl
@[simp] theorem setRipple_lanes (f : Ripple → Ripple) : (setRipple f s).lanes = s.lanes := rfl
@[simp] theorem setRipple_tarns (f : Ripple → Ripple) : (setRipple f s).tarns = s.tarns := rfl
@[simp] theorem setRipple_curves (f : Ripple → Ripple) : (setRipple f s).curves = s.curves := rfl
@[simp] theorem setRipple_mere (f : Ripple → Ripple) : (setRipple f s).mere = s.mere := rfl
@[simp] theorem setRipple_prox (f : Ripple → Ripple) : (setRipple f s).prox = s.prox := rfl
@[simp] theorem setRipple_link (f : Ripple → Ripple) : (setRipple f s).link = s.link := rfl
@[simp] theorem setRipple_cfg (f : Ripple → Ripple) : (setRipple f s).cfg = s.cfg := rfl
@[simp] theorem setRipple_axes (f : Ripple → Ripple) : (setRipple f s).axes = s.axes := rfl
@[simp] theorem setRipple_enc (f : Ripple → Ripple) : (setRipple f s).enc = s.enc := rfl
@[simp] theorem setRipple_hall (f : Ripple → Ripple) : (setRipple f s).hall = s.hall := rfl
@[simp] theorem setRipple_cmp (f : Ripple → Ripple) : (setRipple f s).cmp = s.cmp := rfl
@[simp] theorem setRipple_echo (f : Ripple → Ripple) : (setRipple f s).echo = s.echo := rfl
@[simp] theorem setRipple_hk (f : Ripple → Ripple) : (setRipple f s).hk = s.hk := rfl
@[simp] theorem setRipple_cams (f : Ripple → Ripple) : (setRipple f s).cams = s.cams := rfl
@[simp] theorem setRipple_isp (f : Ripple → Ripple) : (setRipple f s).isp = s.isp := rfl
@[simp] theorem setRipple_light (f : Ripple → Ripple) : (setRipple f s).light = s.light := rfl
@[simp] theorem setRipple_zip (f : Ripple → Ripple) : (setRipple f s).zip = s.zip := rfl
@[simp] theorem setRipple_scenes (f : Ripple → Ripple) : (setRipple f s).scenes = s.scenes := rfl
@[simp] theorem setRipple_edp (f : Ripple → Ripple) : (setRipple f s).edp = s.edp := rfl
@[simp] theorem setRipple_recorder (f : Ripple → Ripple) : (setRipple f s).recorder = s.recorder := rfl
@[simp] theorem setRipple_sent (f : Ripple → Ripple) : (setRipple f s).sent = s.sent := rfl
@[simp] theorem setRipple_free (f : Ripple → Ripple) : (setRipple f s).free = s.free := rfl
@[simp] theorem setRipple_pending (f : Ripple → Ripple) : (setRipple f s).pending = s.pending := rfl

@[simp] theorem setRt_basin (p : Nat) (f : RtPort → RtPort) : (setRt p f s).basin =
    { s.basin with rt := modUnit s.basin.rt p f } := rfl
@[simp] theorem setRt_ident (p : Nat) (f : RtPort → RtPort) : (setRt p f s).ident = s.ident := rfl
@[simp] theorem setRt_pins (p : Nat) (f : RtPort → RtPort) : (setRt p f s).pins = s.pins := rfl
@[simp] theorem setRt_power (p : Nat) (f : RtPort → RtPort) : (setRt p f s).power = s.power := rfl
@[simp] theorem setRt_permit (p : Nat) (f : RtPort → RtPort) : (setRt p f s).permit = s.permit := rfl
@[simp] theorem setRt_boot (p : Nat) (f : RtPort → RtPort) : (setRt p f s).boot = s.boot := rfl
@[simp] theorem setRt_members (p : Nat) (f : RtPort → RtPort) : (setRt p f s).members = s.members := rfl
@[simp] theorem setRt_profile (p : Nat) (f : RtPort → RtPort) : (setRt p f s).profile = s.profile := rfl
@[simp] theorem setRt_time (p : Nat) (f : RtPort → RtPort) : (setRt p f s).time = s.time := rfl
@[simp] theorem setRt_hostq (p : Nat) (f : RtPort → RtPort) : (setRt p f s).hostq = s.hostq := rfl
@[simp] theorem setRt_events (p : Nat) (f : RtPort → RtPort) : (setRt p f s).events = s.events := rfl
@[simp] theorem setRt_access (p : Nat) (f : RtPort → RtPort) : (setRt p f s).access = s.access := rfl
@[simp] theorem setRt_mgmt (p : Nat) (f : RtPort → RtPort) : (setRt p f s).mgmt = s.mgmt := rfl
@[simp] theorem setRt_still (p : Nat) (f : RtPort → RtPort) : (setRt p f s).still = s.still := rfl
@[simp] theorem setRt_override (p : Nat) (f : RtPort → RtPort) : (setRt p f s).override = s.override := rfl
@[simp] theorem setRt_staging (p : Nat) (f : RtPort → RtPort) : (setRt p f s).staging = s.staging := rfl
@[simp] theorem setRt_waiting (p : Nat) (f : RtPort → RtPort) : (setRt p f s).waiting = s.waiting := rfl
@[simp] theorem setRt_jobs (p : Nat) (f : RtPort → RtPort) : (setRt p f s).jobs = s.jobs := rfl
@[simp] theorem setRt_lanes (p : Nat) (f : RtPort → RtPort) : (setRt p f s).lanes = s.lanes := rfl
@[simp] theorem setRt_tarns (p : Nat) (f : RtPort → RtPort) : (setRt p f s).tarns = s.tarns := rfl
@[simp] theorem setRt_curves (p : Nat) (f : RtPort → RtPort) : (setRt p f s).curves = s.curves := rfl
@[simp] theorem setRt_mere (p : Nat) (f : RtPort → RtPort) : (setRt p f s).mere = s.mere := rfl
@[simp] theorem setRt_prox (p : Nat) (f : RtPort → RtPort) : (setRt p f s).prox = s.prox := rfl
@[simp] theorem setRt_link (p : Nat) (f : RtPort → RtPort) : (setRt p f s).link = s.link := rfl
@[simp] theorem setRt_cfg (p : Nat) (f : RtPort → RtPort) : (setRt p f s).cfg = s.cfg := rfl
@[simp] theorem setRt_axes (p : Nat) (f : RtPort → RtPort) : (setRt p f s).axes = s.axes := rfl
@[simp] theorem setRt_enc (p : Nat) (f : RtPort → RtPort) : (setRt p f s).enc = s.enc := rfl
@[simp] theorem setRt_hall (p : Nat) (f : RtPort → RtPort) : (setRt p f s).hall = s.hall := rfl
@[simp] theorem setRt_cmp (p : Nat) (f : RtPort → RtPort) : (setRt p f s).cmp = s.cmp := rfl
@[simp] theorem setRt_echo (p : Nat) (f : RtPort → RtPort) : (setRt p f s).echo = s.echo := rfl
@[simp] theorem setRt_hk (p : Nat) (f : RtPort → RtPort) : (setRt p f s).hk = s.hk := rfl
@[simp] theorem setRt_cams (p : Nat) (f : RtPort → RtPort) : (setRt p f s).cams = s.cams := rfl
@[simp] theorem setRt_isp (p : Nat) (f : RtPort → RtPort) : (setRt p f s).isp = s.isp := rfl
@[simp] theorem setRt_light (p : Nat) (f : RtPort → RtPort) : (setRt p f s).light = s.light := rfl
@[simp] theorem setRt_zip (p : Nat) (f : RtPort → RtPort) : (setRt p f s).zip = s.zip := rfl
@[simp] theorem setRt_scenes (p : Nat) (f : RtPort → RtPort) : (setRt p f s).scenes = s.scenes := rfl
@[simp] theorem setRt_edp (p : Nat) (f : RtPort → RtPort) : (setRt p f s).edp = s.edp := rfl
@[simp] theorem setRt_recorder (p : Nat) (f : RtPort → RtPort) : (setRt p f s).recorder = s.recorder := rfl
@[simp] theorem setRt_sent (p : Nat) (f : RtPort → RtPort) : (setRt p f s).sent = s.sent := rfl
@[simp] theorem setRt_free (p : Nat) (f : RtPort → RtPort) : (setRt p f s).free = s.free := rfl
@[simp] theorem setRt_pending (p : Nat) (f : RtPort → RtPort) : (setRt p f s).pending = s.pending := rfl
@[simp] theorem setRt_now (p : Nat) (f : RtPort → RtPort) : (setRt p f s).now = s.now := rfl

@[simp] theorem setLane_lanes (l : Nat) (f : Lane → Lane) : (setLane l f s).lanes =
    modUnit s.lanes l f := rfl
@[simp] theorem setLane_ident (l : Nat) (f : Lane → Lane) : (setLane l f s).ident = s.ident := rfl
@[simp] theorem setLane_pins (l : Nat) (f : Lane → Lane) : (setLane l f s).pins = s.pins := rfl
@[simp] theorem setLane_power (l : Nat) (f : Lane → Lane) : (setLane l f s).power = s.power := rfl
@[simp] theorem setLane_permit (l : Nat) (f : Lane → Lane) : (setLane l f s).permit = s.permit := rfl
@[simp] theorem setLane_boot (l : Nat) (f : Lane → Lane) : (setLane l f s).boot = s.boot := rfl
@[simp] theorem setLane_members (l : Nat) (f : Lane → Lane) : (setLane l f s).members = s.members := rfl
@[simp] theorem setLane_profile (l : Nat) (f : Lane → Lane) : (setLane l f s).profile = s.profile := rfl
@[simp] theorem setLane_time (l : Nat) (f : Lane → Lane) : (setLane l f s).time = s.time := rfl
@[simp] theorem setLane_basin (l : Nat) (f : Lane → Lane) : (setLane l f s).basin = s.basin := rfl
@[simp] theorem setLane_hostq (l : Nat) (f : Lane → Lane) : (setLane l f s).hostq = s.hostq := rfl
@[simp] theorem setLane_events (l : Nat) (f : Lane → Lane) : (setLane l f s).events = s.events := rfl
@[simp] theorem setLane_access (l : Nat) (f : Lane → Lane) : (setLane l f s).access = s.access := rfl
@[simp] theorem setLane_mgmt (l : Nat) (f : Lane → Lane) : (setLane l f s).mgmt = s.mgmt := rfl
@[simp] theorem setLane_still (l : Nat) (f : Lane → Lane) : (setLane l f s).still = s.still := rfl
@[simp] theorem setLane_override (l : Nat) (f : Lane → Lane) : (setLane l f s).override = s.override := rfl
@[simp] theorem setLane_staging (l : Nat) (f : Lane → Lane) : (setLane l f s).staging = s.staging := rfl
@[simp] theorem setLane_waiting (l : Nat) (f : Lane → Lane) : (setLane l f s).waiting = s.waiting := rfl
@[simp] theorem setLane_jobs (l : Nat) (f : Lane → Lane) : (setLane l f s).jobs = s.jobs := rfl
@[simp] theorem setLane_tarns (l : Nat) (f : Lane → Lane) : (setLane l f s).tarns = s.tarns := rfl
@[simp] theorem setLane_curves (l : Nat) (f : Lane → Lane) : (setLane l f s).curves = s.curves := rfl
@[simp] theorem setLane_mere (l : Nat) (f : Lane → Lane) : (setLane l f s).mere = s.mere := rfl
@[simp] theorem setLane_prox (l : Nat) (f : Lane → Lane) : (setLane l f s).prox = s.prox := rfl
@[simp] theorem setLane_link (l : Nat) (f : Lane → Lane) : (setLane l f s).link = s.link := rfl
@[simp] theorem setLane_cfg (l : Nat) (f : Lane → Lane) : (setLane l f s).cfg = s.cfg := rfl
@[simp] theorem setLane_axes (l : Nat) (f : Lane → Lane) : (setLane l f s).axes = s.axes := rfl
@[simp] theorem setLane_enc (l : Nat) (f : Lane → Lane) : (setLane l f s).enc = s.enc := rfl
@[simp] theorem setLane_hall (l : Nat) (f : Lane → Lane) : (setLane l f s).hall = s.hall := rfl
@[simp] theorem setLane_cmp (l : Nat) (f : Lane → Lane) : (setLane l f s).cmp = s.cmp := rfl
@[simp] theorem setLane_echo (l : Nat) (f : Lane → Lane) : (setLane l f s).echo = s.echo := rfl
@[simp] theorem setLane_hk (l : Nat) (f : Lane → Lane) : (setLane l f s).hk = s.hk := rfl
@[simp] theorem setLane_cams (l : Nat) (f : Lane → Lane) : (setLane l f s).cams = s.cams := rfl
@[simp] theorem setLane_isp (l : Nat) (f : Lane → Lane) : (setLane l f s).isp = s.isp := rfl
@[simp] theorem setLane_light (l : Nat) (f : Lane → Lane) : (setLane l f s).light = s.light := rfl
@[simp] theorem setLane_zip (l : Nat) (f : Lane → Lane) : (setLane l f s).zip = s.zip := rfl
@[simp] theorem setLane_scenes (l : Nat) (f : Lane → Lane) : (setLane l f s).scenes = s.scenes := rfl
@[simp] theorem setLane_edp (l : Nat) (f : Lane → Lane) : (setLane l f s).edp = s.edp := rfl
@[simp] theorem setLane_recorder (l : Nat) (f : Lane → Lane) : (setLane l f s).recorder = s.recorder := rfl
@[simp] theorem setLane_sent (l : Nat) (f : Lane → Lane) : (setLane l f s).sent = s.sent := rfl
@[simp] theorem setLane_free (l : Nat) (f : Lane → Lane) : (setLane l f s).free = s.free := rfl
@[simp] theorem setLane_pending (l : Nat) (f : Lane → Lane) : (setLane l f s).pending = s.pending := rfl
@[simp] theorem setLane_now (l : Nat) (f : Lane → Lane) : (setLane l f s).now = s.now := rfl

@[simp] theorem setLoop_lanes (l : Nat) (f : Loop → Loop) : (setLoop l f s).lanes =
    modUnit s.lanes l fun x => { x with loop := f x.loop } := rfl
@[simp] theorem setLoop_ident (l : Nat) (f : Loop → Loop) : (setLoop l f s).ident = s.ident := rfl
@[simp] theorem setLoop_pins (l : Nat) (f : Loop → Loop) : (setLoop l f s).pins = s.pins := rfl
@[simp] theorem setLoop_power (l : Nat) (f : Loop → Loop) : (setLoop l f s).power = s.power := rfl
@[simp] theorem setLoop_permit (l : Nat) (f : Loop → Loop) : (setLoop l f s).permit = s.permit := rfl
@[simp] theorem setLoop_boot (l : Nat) (f : Loop → Loop) : (setLoop l f s).boot = s.boot := rfl
@[simp] theorem setLoop_members (l : Nat) (f : Loop → Loop) : (setLoop l f s).members = s.members := rfl
@[simp] theorem setLoop_profile (l : Nat) (f : Loop → Loop) : (setLoop l f s).profile = s.profile := rfl
@[simp] theorem setLoop_time (l : Nat) (f : Loop → Loop) : (setLoop l f s).time = s.time := rfl
@[simp] theorem setLoop_basin (l : Nat) (f : Loop → Loop) : (setLoop l f s).basin = s.basin := rfl
@[simp] theorem setLoop_hostq (l : Nat) (f : Loop → Loop) : (setLoop l f s).hostq = s.hostq := rfl
@[simp] theorem setLoop_events (l : Nat) (f : Loop → Loop) : (setLoop l f s).events = s.events := rfl
@[simp] theorem setLoop_access (l : Nat) (f : Loop → Loop) : (setLoop l f s).access = s.access := rfl
@[simp] theorem setLoop_mgmt (l : Nat) (f : Loop → Loop) : (setLoop l f s).mgmt = s.mgmt := rfl
@[simp] theorem setLoop_still (l : Nat) (f : Loop → Loop) : (setLoop l f s).still = s.still := rfl
@[simp] theorem setLoop_override (l : Nat) (f : Loop → Loop) : (setLoop l f s).override = s.override := rfl
@[simp] theorem setLoop_staging (l : Nat) (f : Loop → Loop) : (setLoop l f s).staging = s.staging := rfl
@[simp] theorem setLoop_waiting (l : Nat) (f : Loop → Loop) : (setLoop l f s).waiting = s.waiting := rfl
@[simp] theorem setLoop_jobs (l : Nat) (f : Loop → Loop) : (setLoop l f s).jobs = s.jobs := rfl
@[simp] theorem setLoop_tarns (l : Nat) (f : Loop → Loop) : (setLoop l f s).tarns = s.tarns := rfl
@[simp] theorem setLoop_curves (l : Nat) (f : Loop → Loop) : (setLoop l f s).curves = s.curves := rfl
@[simp] theorem setLoop_mere (l : Nat) (f : Loop → Loop) : (setLoop l f s).mere = s.mere := rfl
@[simp] theorem setLoop_prox (l : Nat) (f : Loop → Loop) : (setLoop l f s).prox = s.prox := rfl
@[simp] theorem setLoop_link (l : Nat) (f : Loop → Loop) : (setLoop l f s).link = s.link := rfl
@[simp] theorem setLoop_cfg (l : Nat) (f : Loop → Loop) : (setLoop l f s).cfg = s.cfg := rfl
@[simp] theorem setLoop_axes (l : Nat) (f : Loop → Loop) : (setLoop l f s).axes = s.axes := rfl
@[simp] theorem setLoop_enc (l : Nat) (f : Loop → Loop) : (setLoop l f s).enc = s.enc := rfl
@[simp] theorem setLoop_hall (l : Nat) (f : Loop → Loop) : (setLoop l f s).hall = s.hall := rfl
@[simp] theorem setLoop_cmp (l : Nat) (f : Loop → Loop) : (setLoop l f s).cmp = s.cmp := rfl
@[simp] theorem setLoop_echo (l : Nat) (f : Loop → Loop) : (setLoop l f s).echo = s.echo := rfl
@[simp] theorem setLoop_hk (l : Nat) (f : Loop → Loop) : (setLoop l f s).hk = s.hk := rfl
@[simp] theorem setLoop_cams (l : Nat) (f : Loop → Loop) : (setLoop l f s).cams = s.cams := rfl
@[simp] theorem setLoop_isp (l : Nat) (f : Loop → Loop) : (setLoop l f s).isp = s.isp := rfl
@[simp] theorem setLoop_light (l : Nat) (f : Loop → Loop) : (setLoop l f s).light = s.light := rfl
@[simp] theorem setLoop_zip (l : Nat) (f : Loop → Loop) : (setLoop l f s).zip = s.zip := rfl
@[simp] theorem setLoop_scenes (l : Nat) (f : Loop → Loop) : (setLoop l f s).scenes = s.scenes := rfl
@[simp] theorem setLoop_edp (l : Nat) (f : Loop → Loop) : (setLoop l f s).edp = s.edp := rfl
@[simp] theorem setLoop_recorder (l : Nat) (f : Loop → Loop) : (setLoop l f s).recorder = s.recorder := rfl
@[simp] theorem setLoop_sent (l : Nat) (f : Loop → Loop) : (setLoop l f s).sent = s.sent := rfl
@[simp] theorem setLoop_free (l : Nat) (f : Loop → Loop) : (setLoop l f s).free = s.free := rfl
@[simp] theorem setLoop_pending (l : Nat) (f : Loop → Loop) : (setLoop l f s).pending = s.pending := rfl
@[simp] theorem setLoop_now (l : Nat) (f : Loop → Loop) : (setLoop l f s).now = s.now := rfl

@[simp] theorem setMap_lanes (l : Nat) (f : LaneMap → LaneMap) : (setMap l f s).lanes =
    modUnit s.lanes l fun x => { x with map := f x.map } := rfl
@[simp] theorem setMap_ident (l : Nat) (f : LaneMap → LaneMap) : (setMap l f s).ident = s.ident := rfl
@[simp] theorem setMap_pins (l : Nat) (f : LaneMap → LaneMap) : (setMap l f s).pins = s.pins := rfl
@[simp] theorem setMap_power (l : Nat) (f : LaneMap → LaneMap) : (setMap l f s).power = s.power := rfl
@[simp] theorem setMap_permit (l : Nat) (f : LaneMap → LaneMap) : (setMap l f s).permit = s.permit := rfl
@[simp] theorem setMap_boot (l : Nat) (f : LaneMap → LaneMap) : (setMap l f s).boot = s.boot := rfl
@[simp] theorem setMap_members (l : Nat) (f : LaneMap → LaneMap) : (setMap l f s).members = s.members := rfl
@[simp] theorem setMap_profile (l : Nat) (f : LaneMap → LaneMap) : (setMap l f s).profile = s.profile := rfl
@[simp] theorem setMap_time (l : Nat) (f : LaneMap → LaneMap) : (setMap l f s).time = s.time := rfl
@[simp] theorem setMap_basin (l : Nat) (f : LaneMap → LaneMap) : (setMap l f s).basin = s.basin := rfl
@[simp] theorem setMap_hostq (l : Nat) (f : LaneMap → LaneMap) : (setMap l f s).hostq = s.hostq := rfl
@[simp] theorem setMap_events (l : Nat) (f : LaneMap → LaneMap) : (setMap l f s).events = s.events := rfl
@[simp] theorem setMap_access (l : Nat) (f : LaneMap → LaneMap) : (setMap l f s).access = s.access := rfl
@[simp] theorem setMap_mgmt (l : Nat) (f : LaneMap → LaneMap) : (setMap l f s).mgmt = s.mgmt := rfl
@[simp] theorem setMap_still (l : Nat) (f : LaneMap → LaneMap) : (setMap l f s).still = s.still := rfl
@[simp] theorem setMap_override (l : Nat) (f : LaneMap → LaneMap) : (setMap l f s).override = s.override := rfl
@[simp] theorem setMap_staging (l : Nat) (f : LaneMap → LaneMap) : (setMap l f s).staging = s.staging := rfl
@[simp] theorem setMap_waiting (l : Nat) (f : LaneMap → LaneMap) : (setMap l f s).waiting = s.waiting := rfl
@[simp] theorem setMap_jobs (l : Nat) (f : LaneMap → LaneMap) : (setMap l f s).jobs = s.jobs := rfl
@[simp] theorem setMap_tarns (l : Nat) (f : LaneMap → LaneMap) : (setMap l f s).tarns = s.tarns := rfl
@[simp] theorem setMap_curves (l : Nat) (f : LaneMap → LaneMap) : (setMap l f s).curves = s.curves := rfl
@[simp] theorem setMap_mere (l : Nat) (f : LaneMap → LaneMap) : (setMap l f s).mere = s.mere := rfl
@[simp] theorem setMap_prox (l : Nat) (f : LaneMap → LaneMap) : (setMap l f s).prox = s.prox := rfl
@[simp] theorem setMap_link (l : Nat) (f : LaneMap → LaneMap) : (setMap l f s).link = s.link := rfl
@[simp] theorem setMap_cfg (l : Nat) (f : LaneMap → LaneMap) : (setMap l f s).cfg = s.cfg := rfl
@[simp] theorem setMap_axes (l : Nat) (f : LaneMap → LaneMap) : (setMap l f s).axes = s.axes := rfl
@[simp] theorem setMap_enc (l : Nat) (f : LaneMap → LaneMap) : (setMap l f s).enc = s.enc := rfl
@[simp] theorem setMap_hall (l : Nat) (f : LaneMap → LaneMap) : (setMap l f s).hall = s.hall := rfl
@[simp] theorem setMap_cmp (l : Nat) (f : LaneMap → LaneMap) : (setMap l f s).cmp = s.cmp := rfl
@[simp] theorem setMap_echo (l : Nat) (f : LaneMap → LaneMap) : (setMap l f s).echo = s.echo := rfl
@[simp] theorem setMap_hk (l : Nat) (f : LaneMap → LaneMap) : (setMap l f s).hk = s.hk := rfl
@[simp] theorem setMap_cams (l : Nat) (f : LaneMap → LaneMap) : (setMap l f s).cams = s.cams := rfl
@[simp] theorem setMap_isp (l : Nat) (f : LaneMap → LaneMap) : (setMap l f s).isp = s.isp := rfl
@[simp] theorem setMap_light (l : Nat) (f : LaneMap → LaneMap) : (setMap l f s).light = s.light := rfl
@[simp] theorem setMap_zip (l : Nat) (f : LaneMap → LaneMap) : (setMap l f s).zip = s.zip := rfl
@[simp] theorem setMap_scenes (l : Nat) (f : LaneMap → LaneMap) : (setMap l f s).scenes = s.scenes := rfl
@[simp] theorem setMap_edp (l : Nat) (f : LaneMap → LaneMap) : (setMap l f s).edp = s.edp := rfl
@[simp] theorem setMap_recorder (l : Nat) (f : LaneMap → LaneMap) : (setMap l f s).recorder = s.recorder := rfl
@[simp] theorem setMap_sent (l : Nat) (f : LaneMap → LaneMap) : (setMap l f s).sent = s.sent := rfl
@[simp] theorem setMap_free (l : Nat) (f : LaneMap → LaneMap) : (setMap l f s).free = s.free := rfl
@[simp] theorem setMap_pending (l : Nat) (f : LaneMap → LaneMap) : (setMap l f s).pending = s.pending := rfl
@[simp] theorem setMap_now (l : Nat) (f : LaneMap → LaneMap) : (setMap l f s).now = s.now := rfl

@[simp] theorem setJobs_jobs (f : Jobs → Jobs) : (setJobs f s).jobs =
    f s.jobs := rfl
@[simp] theorem setJobs_ident (f : Jobs → Jobs) : (setJobs f s).ident = s.ident := rfl
@[simp] theorem setJobs_pins (f : Jobs → Jobs) : (setJobs f s).pins = s.pins := rfl
@[simp] theorem setJobs_power (f : Jobs → Jobs) : (setJobs f s).power = s.power := rfl
@[simp] theorem setJobs_permit (f : Jobs → Jobs) : (setJobs f s).permit = s.permit := rfl
@[simp] theorem setJobs_boot (f : Jobs → Jobs) : (setJobs f s).boot = s.boot := rfl
@[simp] theorem setJobs_members (f : Jobs → Jobs) : (setJobs f s).members = s.members := rfl
@[simp] theorem setJobs_profile (f : Jobs → Jobs) : (setJobs f s).profile = s.profile := rfl
@[simp] theorem setJobs_time (f : Jobs → Jobs) : (setJobs f s).time = s.time := rfl
@[simp] theorem setJobs_basin (f : Jobs → Jobs) : (setJobs f s).basin = s.basin := rfl
@[simp] theorem setJobs_hostq (f : Jobs → Jobs) : (setJobs f s).hostq = s.hostq := rfl
@[simp] theorem setJobs_events (f : Jobs → Jobs) : (setJobs f s).events = s.events := rfl
@[simp] theorem setJobs_access (f : Jobs → Jobs) : (setJobs f s).access = s.access := rfl
@[simp] theorem setJobs_mgmt (f : Jobs → Jobs) : (setJobs f s).mgmt = s.mgmt := rfl
@[simp] theorem setJobs_still (f : Jobs → Jobs) : (setJobs f s).still = s.still := rfl
@[simp] theorem setJobs_override (f : Jobs → Jobs) : (setJobs f s).override = s.override := rfl
@[simp] theorem setJobs_staging (f : Jobs → Jobs) : (setJobs f s).staging = s.staging := rfl
@[simp] theorem setJobs_waiting (f : Jobs → Jobs) : (setJobs f s).waiting = s.waiting := rfl
@[simp] theorem setJobs_lanes (f : Jobs → Jobs) : (setJobs f s).lanes = s.lanes := rfl
@[simp] theorem setJobs_tarns (f : Jobs → Jobs) : (setJobs f s).tarns = s.tarns := rfl
@[simp] theorem setJobs_curves (f : Jobs → Jobs) : (setJobs f s).curves = s.curves := rfl
@[simp] theorem setJobs_mere (f : Jobs → Jobs) : (setJobs f s).mere = s.mere := rfl
@[simp] theorem setJobs_prox (f : Jobs → Jobs) : (setJobs f s).prox = s.prox := rfl
@[simp] theorem setJobs_link (f : Jobs → Jobs) : (setJobs f s).link = s.link := rfl
@[simp] theorem setJobs_cfg (f : Jobs → Jobs) : (setJobs f s).cfg = s.cfg := rfl
@[simp] theorem setJobs_axes (f : Jobs → Jobs) : (setJobs f s).axes = s.axes := rfl
@[simp] theorem setJobs_enc (f : Jobs → Jobs) : (setJobs f s).enc = s.enc := rfl
@[simp] theorem setJobs_hall (f : Jobs → Jobs) : (setJobs f s).hall = s.hall := rfl
@[simp] theorem setJobs_cmp (f : Jobs → Jobs) : (setJobs f s).cmp = s.cmp := rfl
@[simp] theorem setJobs_echo (f : Jobs → Jobs) : (setJobs f s).echo = s.echo := rfl
@[simp] theorem setJobs_hk (f : Jobs → Jobs) : (setJobs f s).hk = s.hk := rfl
@[simp] theorem setJobs_cams (f : Jobs → Jobs) : (setJobs f s).cams = s.cams := rfl
@[simp] theorem setJobs_isp (f : Jobs → Jobs) : (setJobs f s).isp = s.isp := rfl
@[simp] theorem setJobs_light (f : Jobs → Jobs) : (setJobs f s).light = s.light := rfl
@[simp] theorem setJobs_zip (f : Jobs → Jobs) : (setJobs f s).zip = s.zip := rfl
@[simp] theorem setJobs_scenes (f : Jobs → Jobs) : (setJobs f s).scenes = s.scenes := rfl
@[simp] theorem setJobs_edp (f : Jobs → Jobs) : (setJobs f s).edp = s.edp := rfl
@[simp] theorem setJobs_recorder (f : Jobs → Jobs) : (setJobs f s).recorder = s.recorder := rfl
@[simp] theorem setJobs_sent (f : Jobs → Jobs) : (setJobs f s).sent = s.sent := rfl
@[simp] theorem setJobs_free (f : Jobs → Jobs) : (setJobs f s).free = s.free := rfl
@[simp] theorem setJobs_pending (f : Jobs → Jobs) : (setJobs f s).pending = s.pending := rfl
@[simp] theorem setJobs_now (f : Jobs → Jobs) : (setJobs f s).now = s.now := rfl

@[simp] theorem setLayer_jobs (i : Nat) (f : Layer → Layer) : (setLayer i f s).jobs =
    { s.jobs with layers := s.jobs.layers.map fun x => if x.index = i then f x else x } := rfl
@[simp] theorem setLayer_ident (i : Nat) (f : Layer → Layer) : (setLayer i f s).ident = s.ident := rfl
@[simp] theorem setLayer_pins (i : Nat) (f : Layer → Layer) : (setLayer i f s).pins = s.pins := rfl
@[simp] theorem setLayer_power (i : Nat) (f : Layer → Layer) : (setLayer i f s).power = s.power := rfl
@[simp] theorem setLayer_permit (i : Nat) (f : Layer → Layer) : (setLayer i f s).permit = s.permit := rfl
@[simp] theorem setLayer_boot (i : Nat) (f : Layer → Layer) : (setLayer i f s).boot = s.boot := rfl
@[simp] theorem setLayer_members (i : Nat) (f : Layer → Layer) : (setLayer i f s).members = s.members := rfl
@[simp] theorem setLayer_profile (i : Nat) (f : Layer → Layer) : (setLayer i f s).profile = s.profile := rfl
@[simp] theorem setLayer_time (i : Nat) (f : Layer → Layer) : (setLayer i f s).time = s.time := rfl
@[simp] theorem setLayer_basin (i : Nat) (f : Layer → Layer) : (setLayer i f s).basin = s.basin := rfl
@[simp] theorem setLayer_hostq (i : Nat) (f : Layer → Layer) : (setLayer i f s).hostq = s.hostq := rfl
@[simp] theorem setLayer_events (i : Nat) (f : Layer → Layer) : (setLayer i f s).events = s.events := rfl
@[simp] theorem setLayer_access (i : Nat) (f : Layer → Layer) : (setLayer i f s).access = s.access := rfl
@[simp] theorem setLayer_mgmt (i : Nat) (f : Layer → Layer) : (setLayer i f s).mgmt = s.mgmt := rfl
@[simp] theorem setLayer_still (i : Nat) (f : Layer → Layer) : (setLayer i f s).still = s.still := rfl
@[simp] theorem setLayer_override (i : Nat) (f : Layer → Layer) : (setLayer i f s).override = s.override := rfl
@[simp] theorem setLayer_staging (i : Nat) (f : Layer → Layer) : (setLayer i f s).staging = s.staging := rfl
@[simp] theorem setLayer_waiting (i : Nat) (f : Layer → Layer) : (setLayer i f s).waiting = s.waiting := rfl
@[simp] theorem setLayer_lanes (i : Nat) (f : Layer → Layer) : (setLayer i f s).lanes = s.lanes := rfl
@[simp] theorem setLayer_tarns (i : Nat) (f : Layer → Layer) : (setLayer i f s).tarns = s.tarns := rfl
@[simp] theorem setLayer_curves (i : Nat) (f : Layer → Layer) : (setLayer i f s).curves = s.curves := rfl
@[simp] theorem setLayer_mere (i : Nat) (f : Layer → Layer) : (setLayer i f s).mere = s.mere := rfl
@[simp] theorem setLayer_prox (i : Nat) (f : Layer → Layer) : (setLayer i f s).prox = s.prox := rfl
@[simp] theorem setLayer_link (i : Nat) (f : Layer → Layer) : (setLayer i f s).link = s.link := rfl
@[simp] theorem setLayer_cfg (i : Nat) (f : Layer → Layer) : (setLayer i f s).cfg = s.cfg := rfl
@[simp] theorem setLayer_axes (i : Nat) (f : Layer → Layer) : (setLayer i f s).axes = s.axes := rfl
@[simp] theorem setLayer_enc (i : Nat) (f : Layer → Layer) : (setLayer i f s).enc = s.enc := rfl
@[simp] theorem setLayer_hall (i : Nat) (f : Layer → Layer) : (setLayer i f s).hall = s.hall := rfl
@[simp] theorem setLayer_cmp (i : Nat) (f : Layer → Layer) : (setLayer i f s).cmp = s.cmp := rfl
@[simp] theorem setLayer_echo (i : Nat) (f : Layer → Layer) : (setLayer i f s).echo = s.echo := rfl
@[simp] theorem setLayer_hk (i : Nat) (f : Layer → Layer) : (setLayer i f s).hk = s.hk := rfl
@[simp] theorem setLayer_cams (i : Nat) (f : Layer → Layer) : (setLayer i f s).cams = s.cams := rfl
@[simp] theorem setLayer_isp (i : Nat) (f : Layer → Layer) : (setLayer i f s).isp = s.isp := rfl
@[simp] theorem setLayer_light (i : Nat) (f : Layer → Layer) : (setLayer i f s).light = s.light := rfl
@[simp] theorem setLayer_zip (i : Nat) (f : Layer → Layer) : (setLayer i f s).zip = s.zip := rfl
@[simp] theorem setLayer_scenes (i : Nat) (f : Layer → Layer) : (setLayer i f s).scenes = s.scenes := rfl
@[simp] theorem setLayer_edp (i : Nat) (f : Layer → Layer) : (setLayer i f s).edp = s.edp := rfl
@[simp] theorem setLayer_recorder (i : Nat) (f : Layer → Layer) : (setLayer i f s).recorder = s.recorder := rfl
@[simp] theorem setLayer_sent (i : Nat) (f : Layer → Layer) : (setLayer i f s).sent = s.sent := rfl
@[simp] theorem setLayer_free (i : Nat) (f : Layer → Layer) : (setLayer i f s).free = s.free := rfl
@[simp] theorem setLayer_pending (i : Nat) (f : Layer → Layer) : (setLayer i f s).pending = s.pending := rfl
@[simp] theorem setLayer_now (i : Nat) (f : Layer → Layer) : (setLayer i f s).now = s.now := rfl

@[simp] theorem setPort_link (p : Nat) (f : Port → Port) : (setPort p f s).link =
    { s.link with ports := modUnit s.link.ports p f } := rfl
@[simp] theorem setPort_ident (p : Nat) (f : Port → Port) : (setPort p f s).ident = s.ident := rfl
@[simp] theorem setPort_pins (p : Nat) (f : Port → Port) : (setPort p f s).pins = s.pins := rfl
@[simp] theorem setPort_power (p : Nat) (f : Port → Port) : (setPort p f s).power = s.power := rfl
@[simp] theorem setPort_permit (p : Nat) (f : Port → Port) : (setPort p f s).permit = s.permit := rfl
@[simp] theorem setPort_boot (p : Nat) (f : Port → Port) : (setPort p f s).boot = s.boot := rfl
@[simp] theorem setPort_members (p : Nat) (f : Port → Port) : (setPort p f s).members = s.members := rfl
@[simp] theorem setPort_profile (p : Nat) (f : Port → Port) : (setPort p f s).profile = s.profile := rfl
@[simp] theorem setPort_time (p : Nat) (f : Port → Port) : (setPort p f s).time = s.time := rfl
@[simp] theorem setPort_basin (p : Nat) (f : Port → Port) : (setPort p f s).basin = s.basin := rfl
@[simp] theorem setPort_hostq (p : Nat) (f : Port → Port) : (setPort p f s).hostq = s.hostq := rfl
@[simp] theorem setPort_events (p : Nat) (f : Port → Port) : (setPort p f s).events = s.events := rfl
@[simp] theorem setPort_access (p : Nat) (f : Port → Port) : (setPort p f s).access = s.access := rfl
@[simp] theorem setPort_mgmt (p : Nat) (f : Port → Port) : (setPort p f s).mgmt = s.mgmt := rfl
@[simp] theorem setPort_still (p : Nat) (f : Port → Port) : (setPort p f s).still = s.still := rfl
@[simp] theorem setPort_override (p : Nat) (f : Port → Port) : (setPort p f s).override = s.override := rfl
@[simp] theorem setPort_staging (p : Nat) (f : Port → Port) : (setPort p f s).staging = s.staging := rfl
@[simp] theorem setPort_waiting (p : Nat) (f : Port → Port) : (setPort p f s).waiting = s.waiting := rfl
@[simp] theorem setPort_jobs (p : Nat) (f : Port → Port) : (setPort p f s).jobs = s.jobs := rfl
@[simp] theorem setPort_lanes (p : Nat) (f : Port → Port) : (setPort p f s).lanes = s.lanes := rfl
@[simp] theorem setPort_tarns (p : Nat) (f : Port → Port) : (setPort p f s).tarns = s.tarns := rfl
@[simp] theorem setPort_curves (p : Nat) (f : Port → Port) : (setPort p f s).curves = s.curves := rfl
@[simp] theorem setPort_mere (p : Nat) (f : Port → Port) : (setPort p f s).mere = s.mere := rfl
@[simp] theorem setPort_prox (p : Nat) (f : Port → Port) : (setPort p f s).prox = s.prox := rfl
@[simp] theorem setPort_cfg (p : Nat) (f : Port → Port) : (setPort p f s).cfg = s.cfg := rfl
@[simp] theorem setPort_axes (p : Nat) (f : Port → Port) : (setPort p f s).axes = s.axes := rfl
@[simp] theorem setPort_enc (p : Nat) (f : Port → Port) : (setPort p f s).enc = s.enc := rfl
@[simp] theorem setPort_hall (p : Nat) (f : Port → Port) : (setPort p f s).hall = s.hall := rfl
@[simp] theorem setPort_cmp (p : Nat) (f : Port → Port) : (setPort p f s).cmp = s.cmp := rfl
@[simp] theorem setPort_echo (p : Nat) (f : Port → Port) : (setPort p f s).echo = s.echo := rfl
@[simp] theorem setPort_hk (p : Nat) (f : Port → Port) : (setPort p f s).hk = s.hk := rfl
@[simp] theorem setPort_cams (p : Nat) (f : Port → Port) : (setPort p f s).cams = s.cams := rfl
@[simp] theorem setPort_isp (p : Nat) (f : Port → Port) : (setPort p f s).isp = s.isp := rfl
@[simp] theorem setPort_light (p : Nat) (f : Port → Port) : (setPort p f s).light = s.light := rfl
@[simp] theorem setPort_zip (p : Nat) (f : Port → Port) : (setPort p f s).zip = s.zip := rfl
@[simp] theorem setPort_scenes (p : Nat) (f : Port → Port) : (setPort p f s).scenes = s.scenes := rfl
@[simp] theorem setPort_edp (p : Nat) (f : Port → Port) : (setPort p f s).edp = s.edp := rfl
@[simp] theorem setPort_recorder (p : Nat) (f : Port → Port) : (setPort p f s).recorder = s.recorder := rfl
@[simp] theorem setPort_sent (p : Nat) (f : Port → Port) : (setPort p f s).sent = s.sent := rfl
@[simp] theorem setPort_free (p : Nat) (f : Port → Port) : (setPort p f s).free = s.free := rfl
@[simp] theorem setPort_pending (p : Nat) (f : Port → Port) : (setPort p f s).pending = s.pending := rfl
@[simp] theorem setPort_now (p : Nat) (f : Port → Port) : (setPort p f s).now = s.now := rfl

@[simp] theorem setNode_link (p h : Nat) (f : Node → Node) : (setNode p h f s).link =
    { s.link with ports := modUnit s.link.ports p fun q => { q with nodes := modUnit q.nodes (h - 1) f } } := rfl
@[simp] theorem setNode_ident (p h : Nat) (f : Node → Node) : (setNode p h f s).ident = s.ident := rfl
@[simp] theorem setNode_pins (p h : Nat) (f : Node → Node) : (setNode p h f s).pins = s.pins := rfl
@[simp] theorem setNode_power (p h : Nat) (f : Node → Node) : (setNode p h f s).power = s.power := rfl
@[simp] theorem setNode_permit (p h : Nat) (f : Node → Node) : (setNode p h f s).permit = s.permit := rfl
@[simp] theorem setNode_boot (p h : Nat) (f : Node → Node) : (setNode p h f s).boot = s.boot := rfl
@[simp] theorem setNode_members (p h : Nat) (f : Node → Node) : (setNode p h f s).members = s.members := rfl
@[simp] theorem setNode_profile (p h : Nat) (f : Node → Node) : (setNode p h f s).profile = s.profile := rfl
@[simp] theorem setNode_time (p h : Nat) (f : Node → Node) : (setNode p h f s).time = s.time := rfl
@[simp] theorem setNode_basin (p h : Nat) (f : Node → Node) : (setNode p h f s).basin = s.basin := rfl
@[simp] theorem setNode_hostq (p h : Nat) (f : Node → Node) : (setNode p h f s).hostq = s.hostq := rfl
@[simp] theorem setNode_events (p h : Nat) (f : Node → Node) : (setNode p h f s).events = s.events := rfl
@[simp] theorem setNode_access (p h : Nat) (f : Node → Node) : (setNode p h f s).access = s.access := rfl
@[simp] theorem setNode_mgmt (p h : Nat) (f : Node → Node) : (setNode p h f s).mgmt = s.mgmt := rfl
@[simp] theorem setNode_still (p h : Nat) (f : Node → Node) : (setNode p h f s).still = s.still := rfl
@[simp] theorem setNode_override (p h : Nat) (f : Node → Node) : (setNode p h f s).override = s.override := rfl
@[simp] theorem setNode_staging (p h : Nat) (f : Node → Node) : (setNode p h f s).staging = s.staging := rfl
@[simp] theorem setNode_waiting (p h : Nat) (f : Node → Node) : (setNode p h f s).waiting = s.waiting := rfl
@[simp] theorem setNode_jobs (p h : Nat) (f : Node → Node) : (setNode p h f s).jobs = s.jobs := rfl
@[simp] theorem setNode_lanes (p h : Nat) (f : Node → Node) : (setNode p h f s).lanes = s.lanes := rfl
@[simp] theorem setNode_tarns (p h : Nat) (f : Node → Node) : (setNode p h f s).tarns = s.tarns := rfl
@[simp] theorem setNode_curves (p h : Nat) (f : Node → Node) : (setNode p h f s).curves = s.curves := rfl
@[simp] theorem setNode_mere (p h : Nat) (f : Node → Node) : (setNode p h f s).mere = s.mere := rfl
@[simp] theorem setNode_prox (p h : Nat) (f : Node → Node) : (setNode p h f s).prox = s.prox := rfl
@[simp] theorem setNode_cfg (p h : Nat) (f : Node → Node) : (setNode p h f s).cfg = s.cfg := rfl
@[simp] theorem setNode_axes (p h : Nat) (f : Node → Node) : (setNode p h f s).axes = s.axes := rfl
@[simp] theorem setNode_enc (p h : Nat) (f : Node → Node) : (setNode p h f s).enc = s.enc := rfl
@[simp] theorem setNode_hall (p h : Nat) (f : Node → Node) : (setNode p h f s).hall = s.hall := rfl
@[simp] theorem setNode_cmp (p h : Nat) (f : Node → Node) : (setNode p h f s).cmp = s.cmp := rfl
@[simp] theorem setNode_echo (p h : Nat) (f : Node → Node) : (setNode p h f s).echo = s.echo := rfl
@[simp] theorem setNode_hk (p h : Nat) (f : Node → Node) : (setNode p h f s).hk = s.hk := rfl
@[simp] theorem setNode_cams (p h : Nat) (f : Node → Node) : (setNode p h f s).cams = s.cams := rfl
@[simp] theorem setNode_isp (p h : Nat) (f : Node → Node) : (setNode p h f s).isp = s.isp := rfl
@[simp] theorem setNode_light (p h : Nat) (f : Node → Node) : (setNode p h f s).light = s.light := rfl
@[simp] theorem setNode_zip (p h : Nat) (f : Node → Node) : (setNode p h f s).zip = s.zip := rfl
@[simp] theorem setNode_scenes (p h : Nat) (f : Node → Node) : (setNode p h f s).scenes = s.scenes := rfl
@[simp] theorem setNode_edp (p h : Nat) (f : Node → Node) : (setNode p h f s).edp = s.edp := rfl
@[simp] theorem setNode_recorder (p h : Nat) (f : Node → Node) : (setNode p h f s).recorder = s.recorder := rfl
@[simp] theorem setNode_sent (p h : Nat) (f : Node → Node) : (setNode p h f s).sent = s.sent := rfl
@[simp] theorem setNode_free (p h : Nat) (f : Node → Node) : (setNode p h f s).free = s.free := rfl
@[simp] theorem setNode_pending (p h : Nat) (f : Node → Node) : (setNode p h f s).pending = s.pending := rfl
@[simp] theorem setNode_now (p h : Nat) (f : Node → Node) : (setNode p h f s).now = s.now := rfl

@[simp] theorem setLink_link (f : Link → Link) : (setLink f s).link =
    f s.link := rfl
@[simp] theorem setLink_ident (f : Link → Link) : (setLink f s).ident = s.ident := rfl
@[simp] theorem setLink_pins (f : Link → Link) : (setLink f s).pins = s.pins := rfl
@[simp] theorem setLink_power (f : Link → Link) : (setLink f s).power = s.power := rfl
@[simp] theorem setLink_permit (f : Link → Link) : (setLink f s).permit = s.permit := rfl
@[simp] theorem setLink_boot (f : Link → Link) : (setLink f s).boot = s.boot := rfl
@[simp] theorem setLink_members (f : Link → Link) : (setLink f s).members = s.members := rfl
@[simp] theorem setLink_profile (f : Link → Link) : (setLink f s).profile = s.profile := rfl
@[simp] theorem setLink_time (f : Link → Link) : (setLink f s).time = s.time := rfl
@[simp] theorem setLink_basin (f : Link → Link) : (setLink f s).basin = s.basin := rfl
@[simp] theorem setLink_hostq (f : Link → Link) : (setLink f s).hostq = s.hostq := rfl
@[simp] theorem setLink_events (f : Link → Link) : (setLink f s).events = s.events := rfl
@[simp] theorem setLink_access (f : Link → Link) : (setLink f s).access = s.access := rfl
@[simp] theorem setLink_mgmt (f : Link → Link) : (setLink f s).mgmt = s.mgmt := rfl
@[simp] theorem setLink_still (f : Link → Link) : (setLink f s).still = s.still := rfl
@[simp] theorem setLink_override (f : Link → Link) : (setLink f s).override = s.override := rfl
@[simp] theorem setLink_staging (f : Link → Link) : (setLink f s).staging = s.staging := rfl
@[simp] theorem setLink_waiting (f : Link → Link) : (setLink f s).waiting = s.waiting := rfl
@[simp] theorem setLink_jobs (f : Link → Link) : (setLink f s).jobs = s.jobs := rfl
@[simp] theorem setLink_lanes (f : Link → Link) : (setLink f s).lanes = s.lanes := rfl
@[simp] theorem setLink_tarns (f : Link → Link) : (setLink f s).tarns = s.tarns := rfl
@[simp] theorem setLink_curves (f : Link → Link) : (setLink f s).curves = s.curves := rfl
@[simp] theorem setLink_mere (f : Link → Link) : (setLink f s).mere = s.mere := rfl
@[simp] theorem setLink_prox (f : Link → Link) : (setLink f s).prox = s.prox := rfl
@[simp] theorem setLink_cfg (f : Link → Link) : (setLink f s).cfg = s.cfg := rfl
@[simp] theorem setLink_axes (f : Link → Link) : (setLink f s).axes = s.axes := rfl
@[simp] theorem setLink_enc (f : Link → Link) : (setLink f s).enc = s.enc := rfl
@[simp] theorem setLink_hall (f : Link → Link) : (setLink f s).hall = s.hall := rfl
@[simp] theorem setLink_cmp (f : Link → Link) : (setLink f s).cmp = s.cmp := rfl
@[simp] theorem setLink_echo (f : Link → Link) : (setLink f s).echo = s.echo := rfl
@[simp] theorem setLink_hk (f : Link → Link) : (setLink f s).hk = s.hk := rfl
@[simp] theorem setLink_cams (f : Link → Link) : (setLink f s).cams = s.cams := rfl
@[simp] theorem setLink_isp (f : Link → Link) : (setLink f s).isp = s.isp := rfl
@[simp] theorem setLink_light (f : Link → Link) : (setLink f s).light = s.light := rfl
@[simp] theorem setLink_zip (f : Link → Link) : (setLink f s).zip = s.zip := rfl
@[simp] theorem setLink_scenes (f : Link → Link) : (setLink f s).scenes = s.scenes := rfl
@[simp] theorem setLink_edp (f : Link → Link) : (setLink f s).edp = s.edp := rfl
@[simp] theorem setLink_recorder (f : Link → Link) : (setLink f s).recorder = s.recorder := rfl
@[simp] theorem setLink_sent (f : Link → Link) : (setLink f s).sent = s.sent := rfl
@[simp] theorem setLink_free (f : Link → Link) : (setLink f s).free = s.free := rfl
@[simp] theorem setLink_pending (f : Link → Link) : (setLink f s).pending = s.pending := rfl
@[simp] theorem setLink_now (f : Link → Link) : (setLink f s).now = s.now := rfl

@[simp] theorem setMere_mere (f : Mere → Mere) : (setMere f s).mere =
    f s.mere := rfl
@[simp] theorem setMere_ident (f : Mere → Mere) : (setMere f s).ident = s.ident := rfl
@[simp] theorem setMere_pins (f : Mere → Mere) : (setMere f s).pins = s.pins := rfl
@[simp] theorem setMere_power (f : Mere → Mere) : (setMere f s).power = s.power := rfl
@[simp] theorem setMere_permit (f : Mere → Mere) : (setMere f s).permit = s.permit := rfl
@[simp] theorem setMere_boot (f : Mere → Mere) : (setMere f s).boot = s.boot := rfl
@[simp] theorem setMere_members (f : Mere → Mere) : (setMere f s).members = s.members := rfl
@[simp] theorem setMere_profile (f : Mere → Mere) : (setMere f s).profile = s.profile := rfl
@[simp] theorem setMere_time (f : Mere → Mere) : (setMere f s).time = s.time := rfl
@[simp] theorem setMere_basin (f : Mere → Mere) : (setMere f s).basin = s.basin := rfl
@[simp] theorem setMere_hostq (f : Mere → Mere) : (setMere f s).hostq = s.hostq := rfl
@[simp] theorem setMere_events (f : Mere → Mere) : (setMere f s).events = s.events := rfl
@[simp] theorem setMere_access (f : Mere → Mere) : (setMere f s).access = s.access := rfl
@[simp] theorem setMere_mgmt (f : Mere → Mere) : (setMere f s).mgmt = s.mgmt := rfl
@[simp] theorem setMere_still (f : Mere → Mere) : (setMere f s).still = s.still := rfl
@[simp] theorem setMere_override (f : Mere → Mere) : (setMere f s).override = s.override := rfl
@[simp] theorem setMere_staging (f : Mere → Mere) : (setMere f s).staging = s.staging := rfl
@[simp] theorem setMere_waiting (f : Mere → Mere) : (setMere f s).waiting = s.waiting := rfl
@[simp] theorem setMere_jobs (f : Mere → Mere) : (setMere f s).jobs = s.jobs := rfl
@[simp] theorem setMere_lanes (f : Mere → Mere) : (setMere f s).lanes = s.lanes := rfl
@[simp] theorem setMere_tarns (f : Mere → Mere) : (setMere f s).tarns = s.tarns := rfl
@[simp] theorem setMere_curves (f : Mere → Mere) : (setMere f s).curves = s.curves := rfl
@[simp] theorem setMere_prox (f : Mere → Mere) : (setMere f s).prox = s.prox := rfl
@[simp] theorem setMere_link (f : Mere → Mere) : (setMere f s).link = s.link := rfl
@[simp] theorem setMere_cfg (f : Mere → Mere) : (setMere f s).cfg = s.cfg := rfl
@[simp] theorem setMere_axes (f : Mere → Mere) : (setMere f s).axes = s.axes := rfl
@[simp] theorem setMere_enc (f : Mere → Mere) : (setMere f s).enc = s.enc := rfl
@[simp] theorem setMere_hall (f : Mere → Mere) : (setMere f s).hall = s.hall := rfl
@[simp] theorem setMere_cmp (f : Mere → Mere) : (setMere f s).cmp = s.cmp := rfl
@[simp] theorem setMere_echo (f : Mere → Mere) : (setMere f s).echo = s.echo := rfl
@[simp] theorem setMere_hk (f : Mere → Mere) : (setMere f s).hk = s.hk := rfl
@[simp] theorem setMere_cams (f : Mere → Mere) : (setMere f s).cams = s.cams := rfl
@[simp] theorem setMere_isp (f : Mere → Mere) : (setMere f s).isp = s.isp := rfl
@[simp] theorem setMere_light (f : Mere → Mere) : (setMere f s).light = s.light := rfl
@[simp] theorem setMere_zip (f : Mere → Mere) : (setMere f s).zip = s.zip := rfl
@[simp] theorem setMere_scenes (f : Mere → Mere) : (setMere f s).scenes = s.scenes := rfl
@[simp] theorem setMere_edp (f : Mere → Mere) : (setMere f s).edp = s.edp := rfl
@[simp] theorem setMere_recorder (f : Mere → Mere) : (setMere f s).recorder = s.recorder := rfl
@[simp] theorem setMere_sent (f : Mere → Mere) : (setMere f s).sent = s.sent := rfl
@[simp] theorem setMere_free (f : Mere → Mere) : (setMere f s).free = s.free := rfl
@[simp] theorem setMere_pending (f : Mere → Mere) : (setMere f s).pending = s.pending := rfl
@[simp] theorem setMere_now (f : Mere → Mere) : (setMere f s).now = s.now := rfl

@[simp] theorem setProx_prox (f : Prox → Prox) : (setProx f s).prox =
    f s.prox := rfl
@[simp] theorem setProx_ident (f : Prox → Prox) : (setProx f s).ident = s.ident := rfl
@[simp] theorem setProx_pins (f : Prox → Prox) : (setProx f s).pins = s.pins := rfl
@[simp] theorem setProx_power (f : Prox → Prox) : (setProx f s).power = s.power := rfl
@[simp] theorem setProx_permit (f : Prox → Prox) : (setProx f s).permit = s.permit := rfl
@[simp] theorem setProx_boot (f : Prox → Prox) : (setProx f s).boot = s.boot := rfl
@[simp] theorem setProx_members (f : Prox → Prox) : (setProx f s).members = s.members := rfl
@[simp] theorem setProx_profile (f : Prox → Prox) : (setProx f s).profile = s.profile := rfl
@[simp] theorem setProx_time (f : Prox → Prox) : (setProx f s).time = s.time := rfl
@[simp] theorem setProx_basin (f : Prox → Prox) : (setProx f s).basin = s.basin := rfl
@[simp] theorem setProx_hostq (f : Prox → Prox) : (setProx f s).hostq = s.hostq := rfl
@[simp] theorem setProx_events (f : Prox → Prox) : (setProx f s).events = s.events := rfl
@[simp] theorem setProx_access (f : Prox → Prox) : (setProx f s).access = s.access := rfl
@[simp] theorem setProx_mgmt (f : Prox → Prox) : (setProx f s).mgmt = s.mgmt := rfl
@[simp] theorem setProx_still (f : Prox → Prox) : (setProx f s).still = s.still := rfl
@[simp] theorem setProx_override (f : Prox → Prox) : (setProx f s).override = s.override := rfl
@[simp] theorem setProx_staging (f : Prox → Prox) : (setProx f s).staging = s.staging := rfl
@[simp] theorem setProx_waiting (f : Prox → Prox) : (setProx f s).waiting = s.waiting := rfl
@[simp] theorem setProx_jobs (f : Prox → Prox) : (setProx f s).jobs = s.jobs := rfl
@[simp] theorem setProx_lanes (f : Prox → Prox) : (setProx f s).lanes = s.lanes := rfl
@[simp] theorem setProx_tarns (f : Prox → Prox) : (setProx f s).tarns = s.tarns := rfl
@[simp] theorem setProx_curves (f : Prox → Prox) : (setProx f s).curves = s.curves := rfl
@[simp] theorem setProx_mere (f : Prox → Prox) : (setProx f s).mere = s.mere := rfl
@[simp] theorem setProx_link (f : Prox → Prox) : (setProx f s).link = s.link := rfl
@[simp] theorem setProx_cfg (f : Prox → Prox) : (setProx f s).cfg = s.cfg := rfl
@[simp] theorem setProx_axes (f : Prox → Prox) : (setProx f s).axes = s.axes := rfl
@[simp] theorem setProx_enc (f : Prox → Prox) : (setProx f s).enc = s.enc := rfl
@[simp] theorem setProx_hall (f : Prox → Prox) : (setProx f s).hall = s.hall := rfl
@[simp] theorem setProx_cmp (f : Prox → Prox) : (setProx f s).cmp = s.cmp := rfl
@[simp] theorem setProx_echo (f : Prox → Prox) : (setProx f s).echo = s.echo := rfl
@[simp] theorem setProx_hk (f : Prox → Prox) : (setProx f s).hk = s.hk := rfl
@[simp] theorem setProx_cams (f : Prox → Prox) : (setProx f s).cams = s.cams := rfl
@[simp] theorem setProx_isp (f : Prox → Prox) : (setProx f s).isp = s.isp := rfl
@[simp] theorem setProx_light (f : Prox → Prox) : (setProx f s).light = s.light := rfl
@[simp] theorem setProx_zip (f : Prox → Prox) : (setProx f s).zip = s.zip := rfl
@[simp] theorem setProx_scenes (f : Prox → Prox) : (setProx f s).scenes = s.scenes := rfl
@[simp] theorem setProx_edp (f : Prox → Prox) : (setProx f s).edp = s.edp := rfl
@[simp] theorem setProx_recorder (f : Prox → Prox) : (setProx f s).recorder = s.recorder := rfl
@[simp] theorem setProx_sent (f : Prox → Prox) : (setProx f s).sent = s.sent := rfl
@[simp] theorem setProx_free (f : Prox → Prox) : (setProx f s).free = s.free := rfl
@[simp] theorem setProx_pending (f : Prox → Prox) : (setProx f s).pending = s.pending := rfl
@[simp] theorem setProx_now (f : Prox → Prox) : (setProx f s).now = s.now := rfl

@[simp] theorem setPeer_prox (m : Nat) (f : Peer → Peer) : (setPeer m f s).prox =
    { s.prox with peers := modUnit s.prox.peers m f } := rfl
@[simp] theorem setPeer_ident (m : Nat) (f : Peer → Peer) : (setPeer m f s).ident = s.ident := rfl
@[simp] theorem setPeer_pins (m : Nat) (f : Peer → Peer) : (setPeer m f s).pins = s.pins := rfl
@[simp] theorem setPeer_power (m : Nat) (f : Peer → Peer) : (setPeer m f s).power = s.power := rfl
@[simp] theorem setPeer_permit (m : Nat) (f : Peer → Peer) : (setPeer m f s).permit = s.permit := rfl
@[simp] theorem setPeer_boot (m : Nat) (f : Peer → Peer) : (setPeer m f s).boot = s.boot := rfl
@[simp] theorem setPeer_members (m : Nat) (f : Peer → Peer) : (setPeer m f s).members = s.members := rfl
@[simp] theorem setPeer_profile (m : Nat) (f : Peer → Peer) : (setPeer m f s).profile = s.profile := rfl
@[simp] theorem setPeer_time (m : Nat) (f : Peer → Peer) : (setPeer m f s).time = s.time := rfl
@[simp] theorem setPeer_basin (m : Nat) (f : Peer → Peer) : (setPeer m f s).basin = s.basin := rfl
@[simp] theorem setPeer_hostq (m : Nat) (f : Peer → Peer) : (setPeer m f s).hostq = s.hostq := rfl
@[simp] theorem setPeer_events (m : Nat) (f : Peer → Peer) : (setPeer m f s).events = s.events := rfl
@[simp] theorem setPeer_access (m : Nat) (f : Peer → Peer) : (setPeer m f s).access = s.access := rfl
@[simp] theorem setPeer_mgmt (m : Nat) (f : Peer → Peer) : (setPeer m f s).mgmt = s.mgmt := rfl
@[simp] theorem setPeer_still (m : Nat) (f : Peer → Peer) : (setPeer m f s).still = s.still := rfl
@[simp] theorem setPeer_override (m : Nat) (f : Peer → Peer) : (setPeer m f s).override = s.override := rfl
@[simp] theorem setPeer_staging (m : Nat) (f : Peer → Peer) : (setPeer m f s).staging = s.staging := rfl
@[simp] theorem setPeer_waiting (m : Nat) (f : Peer → Peer) : (setPeer m f s).waiting = s.waiting := rfl
@[simp] theorem setPeer_jobs (m : Nat) (f : Peer → Peer) : (setPeer m f s).jobs = s.jobs := rfl
@[simp] theorem setPeer_lanes (m : Nat) (f : Peer → Peer) : (setPeer m f s).lanes = s.lanes := rfl
@[simp] theorem setPeer_tarns (m : Nat) (f : Peer → Peer) : (setPeer m f s).tarns = s.tarns := rfl
@[simp] theorem setPeer_curves (m : Nat) (f : Peer → Peer) : (setPeer m f s).curves = s.curves := rfl
@[simp] theorem setPeer_mere (m : Nat) (f : Peer → Peer) : (setPeer m f s).mere = s.mere := rfl
@[simp] theorem setPeer_link (m : Nat) (f : Peer → Peer) : (setPeer m f s).link = s.link := rfl
@[simp] theorem setPeer_cfg (m : Nat) (f : Peer → Peer) : (setPeer m f s).cfg = s.cfg := rfl
@[simp] theorem setPeer_axes (m : Nat) (f : Peer → Peer) : (setPeer m f s).axes = s.axes := rfl
@[simp] theorem setPeer_enc (m : Nat) (f : Peer → Peer) : (setPeer m f s).enc = s.enc := rfl
@[simp] theorem setPeer_hall (m : Nat) (f : Peer → Peer) : (setPeer m f s).hall = s.hall := rfl
@[simp] theorem setPeer_cmp (m : Nat) (f : Peer → Peer) : (setPeer m f s).cmp = s.cmp := rfl
@[simp] theorem setPeer_echo (m : Nat) (f : Peer → Peer) : (setPeer m f s).echo = s.echo := rfl
@[simp] theorem setPeer_hk (m : Nat) (f : Peer → Peer) : (setPeer m f s).hk = s.hk := rfl
@[simp] theorem setPeer_cams (m : Nat) (f : Peer → Peer) : (setPeer m f s).cams = s.cams := rfl
@[simp] theorem setPeer_isp (m : Nat) (f : Peer → Peer) : (setPeer m f s).isp = s.isp := rfl
@[simp] theorem setPeer_light (m : Nat) (f : Peer → Peer) : (setPeer m f s).light = s.light := rfl
@[simp] theorem setPeer_zip (m : Nat) (f : Peer → Peer) : (setPeer m f s).zip = s.zip := rfl
@[simp] theorem setPeer_scenes (m : Nat) (f : Peer → Peer) : (setPeer m f s).scenes = s.scenes := rfl
@[simp] theorem setPeer_edp (m : Nat) (f : Peer → Peer) : (setPeer m f s).edp = s.edp := rfl
@[simp] theorem setPeer_recorder (m : Nat) (f : Peer → Peer) : (setPeer m f s).recorder = s.recorder := rfl
@[simp] theorem setPeer_sent (m : Nat) (f : Peer → Peer) : (setPeer m f s).sent = s.sent := rfl
@[simp] theorem setPeer_free (m : Nat) (f : Peer → Peer) : (setPeer m f s).free = s.free := rfl
@[simp] theorem setPeer_pending (m : Nat) (f : Peer → Peer) : (setPeer m f s).pending = s.pending := rfl
@[simp] theorem setPeer_now (m : Nat) (f : Peer → Peer) : (setPeer m f s).now = s.now := rfl

@[simp] theorem setMember_members (m : Nat) (f : Member → Member) : (setMember m f s).members =
    { s.members with list := modUnit s.members.list m f } := rfl
@[simp] theorem setMember_ident (m : Nat) (f : Member → Member) : (setMember m f s).ident = s.ident := rfl
@[simp] theorem setMember_pins (m : Nat) (f : Member → Member) : (setMember m f s).pins = s.pins := rfl
@[simp] theorem setMember_power (m : Nat) (f : Member → Member) : (setMember m f s).power = s.power := rfl
@[simp] theorem setMember_permit (m : Nat) (f : Member → Member) : (setMember m f s).permit = s.permit := rfl
@[simp] theorem setMember_boot (m : Nat) (f : Member → Member) : (setMember m f s).boot = s.boot := rfl
@[simp] theorem setMember_profile (m : Nat) (f : Member → Member) : (setMember m f s).profile = s.profile := rfl
@[simp] theorem setMember_time (m : Nat) (f : Member → Member) : (setMember m f s).time = s.time := rfl
@[simp] theorem setMember_basin (m : Nat) (f : Member → Member) : (setMember m f s).basin = s.basin := rfl
@[simp] theorem setMember_hostq (m : Nat) (f : Member → Member) : (setMember m f s).hostq = s.hostq := rfl
@[simp] theorem setMember_events (m : Nat) (f : Member → Member) : (setMember m f s).events = s.events := rfl
@[simp] theorem setMember_access (m : Nat) (f : Member → Member) : (setMember m f s).access = s.access := rfl
@[simp] theorem setMember_mgmt (m : Nat) (f : Member → Member) : (setMember m f s).mgmt = s.mgmt := rfl
@[simp] theorem setMember_still (m : Nat) (f : Member → Member) : (setMember m f s).still = s.still := rfl
@[simp] theorem setMember_override (m : Nat) (f : Member → Member) : (setMember m f s).override = s.override := rfl
@[simp] theorem setMember_staging (m : Nat) (f : Member → Member) : (setMember m f s).staging = s.staging := rfl
@[simp] theorem setMember_waiting (m : Nat) (f : Member → Member) : (setMember m f s).waiting = s.waiting := rfl
@[simp] theorem setMember_jobs (m : Nat) (f : Member → Member) : (setMember m f s).jobs = s.jobs := rfl
@[simp] theorem setMember_lanes (m : Nat) (f : Member → Member) : (setMember m f s).lanes = s.lanes := rfl
@[simp] theorem setMember_tarns (m : Nat) (f : Member → Member) : (setMember m f s).tarns = s.tarns := rfl
@[simp] theorem setMember_curves (m : Nat) (f : Member → Member) : (setMember m f s).curves = s.curves := rfl
@[simp] theorem setMember_mere (m : Nat) (f : Member → Member) : (setMember m f s).mere = s.mere := rfl
@[simp] theorem setMember_prox (m : Nat) (f : Member → Member) : (setMember m f s).prox = s.prox := rfl
@[simp] theorem setMember_link (m : Nat) (f : Member → Member) : (setMember m f s).link = s.link := rfl
@[simp] theorem setMember_cfg (m : Nat) (f : Member → Member) : (setMember m f s).cfg = s.cfg := rfl
@[simp] theorem setMember_axes (m : Nat) (f : Member → Member) : (setMember m f s).axes = s.axes := rfl
@[simp] theorem setMember_enc (m : Nat) (f : Member → Member) : (setMember m f s).enc = s.enc := rfl
@[simp] theorem setMember_hall (m : Nat) (f : Member → Member) : (setMember m f s).hall = s.hall := rfl
@[simp] theorem setMember_cmp (m : Nat) (f : Member → Member) : (setMember m f s).cmp = s.cmp := rfl
@[simp] theorem setMember_echo (m : Nat) (f : Member → Member) : (setMember m f s).echo = s.echo := rfl
@[simp] theorem setMember_hk (m : Nat) (f : Member → Member) : (setMember m f s).hk = s.hk := rfl
@[simp] theorem setMember_cams (m : Nat) (f : Member → Member) : (setMember m f s).cams = s.cams := rfl
@[simp] theorem setMember_isp (m : Nat) (f : Member → Member) : (setMember m f s).isp = s.isp := rfl
@[simp] theorem setMember_light (m : Nat) (f : Member → Member) : (setMember m f s).light = s.light := rfl
@[simp] theorem setMember_zip (m : Nat) (f : Member → Member) : (setMember m f s).zip = s.zip := rfl
@[simp] theorem setMember_scenes (m : Nat) (f : Member → Member) : (setMember m f s).scenes = s.scenes := rfl
@[simp] theorem setMember_edp (m : Nat) (f : Member → Member) : (setMember m f s).edp = s.edp := rfl
@[simp] theorem setMember_recorder (m : Nat) (f : Member → Member) : (setMember m f s).recorder = s.recorder := rfl
@[simp] theorem setMember_sent (m : Nat) (f : Member → Member) : (setMember m f s).sent = s.sent := rfl
@[simp] theorem setMember_free (m : Nat) (f : Member → Member) : (setMember m f s).free = s.free := rfl
@[simp] theorem setMember_pending (m : Nat) (f : Member → Member) : (setMember m f s).pending = s.pending := rfl
@[simp] theorem setMember_now (m : Nat) (f : Member → Member) : (setMember m f s).now = s.now := rfl

@[simp] theorem setMembers_members (f : Members → Members) : (setMembers f s).members =
    f s.members := rfl
@[simp] theorem setMembers_ident (f : Members → Members) : (setMembers f s).ident = s.ident := rfl
@[simp] theorem setMembers_pins (f : Members → Members) : (setMembers f s).pins = s.pins := rfl
@[simp] theorem setMembers_power (f : Members → Members) : (setMembers f s).power = s.power := rfl
@[simp] theorem setMembers_permit (f : Members → Members) : (setMembers f s).permit = s.permit := rfl
@[simp] theorem setMembers_boot (f : Members → Members) : (setMembers f s).boot = s.boot := rfl
@[simp] theorem setMembers_profile (f : Members → Members) : (setMembers f s).profile = s.profile := rfl
@[simp] theorem setMembers_time (f : Members → Members) : (setMembers f s).time = s.time := rfl
@[simp] theorem setMembers_basin (f : Members → Members) : (setMembers f s).basin = s.basin := rfl
@[simp] theorem setMembers_hostq (f : Members → Members) : (setMembers f s).hostq = s.hostq := rfl
@[simp] theorem setMembers_events (f : Members → Members) : (setMembers f s).events = s.events := rfl
@[simp] theorem setMembers_access (f : Members → Members) : (setMembers f s).access = s.access := rfl
@[simp] theorem setMembers_mgmt (f : Members → Members) : (setMembers f s).mgmt = s.mgmt := rfl
@[simp] theorem setMembers_still (f : Members → Members) : (setMembers f s).still = s.still := rfl
@[simp] theorem setMembers_override (f : Members → Members) : (setMembers f s).override = s.override := rfl
@[simp] theorem setMembers_staging (f : Members → Members) : (setMembers f s).staging = s.staging := rfl
@[simp] theorem setMembers_waiting (f : Members → Members) : (setMembers f s).waiting = s.waiting := rfl
@[simp] theorem setMembers_jobs (f : Members → Members) : (setMembers f s).jobs = s.jobs := rfl
@[simp] theorem setMembers_lanes (f : Members → Members) : (setMembers f s).lanes = s.lanes := rfl
@[simp] theorem setMembers_tarns (f : Members → Members) : (setMembers f s).tarns = s.tarns := rfl
@[simp] theorem setMembers_curves (f : Members → Members) : (setMembers f s).curves = s.curves := rfl
@[simp] theorem setMembers_mere (f : Members → Members) : (setMembers f s).mere = s.mere := rfl
@[simp] theorem setMembers_prox (f : Members → Members) : (setMembers f s).prox = s.prox := rfl
@[simp] theorem setMembers_link (f : Members → Members) : (setMembers f s).link = s.link := rfl
@[simp] theorem setMembers_cfg (f : Members → Members) : (setMembers f s).cfg = s.cfg := rfl
@[simp] theorem setMembers_axes (f : Members → Members) : (setMembers f s).axes = s.axes := rfl
@[simp] theorem setMembers_enc (f : Members → Members) : (setMembers f s).enc = s.enc := rfl
@[simp] theorem setMembers_hall (f : Members → Members) : (setMembers f s).hall = s.hall := rfl
@[simp] theorem setMembers_cmp (f : Members → Members) : (setMembers f s).cmp = s.cmp := rfl
@[simp] theorem setMembers_echo (f : Members → Members) : (setMembers f s).echo = s.echo := rfl
@[simp] theorem setMembers_hk (f : Members → Members) : (setMembers f s).hk = s.hk := rfl
@[simp] theorem setMembers_cams (f : Members → Members) : (setMembers f s).cams = s.cams := rfl
@[simp] theorem setMembers_isp (f : Members → Members) : (setMembers f s).isp = s.isp := rfl
@[simp] theorem setMembers_light (f : Members → Members) : (setMembers f s).light = s.light := rfl
@[simp] theorem setMembers_zip (f : Members → Members) : (setMembers f s).zip = s.zip := rfl
@[simp] theorem setMembers_scenes (f : Members → Members) : (setMembers f s).scenes = s.scenes := rfl
@[simp] theorem setMembers_edp (f : Members → Members) : (setMembers f s).edp = s.edp := rfl
@[simp] theorem setMembers_recorder (f : Members → Members) : (setMembers f s).recorder = s.recorder := rfl
@[simp] theorem setMembers_sent (f : Members → Members) : (setMembers f s).sent = s.sent := rfl
@[simp] theorem setMembers_free (f : Members → Members) : (setMembers f s).free = s.free := rfl
@[simp] theorem setMembers_pending (f : Members → Members) : (setMembers f s).pending = s.pending := rfl
@[simp] theorem setMembers_now (f : Members → Members) : (setMembers f s).now = s.now := rfl

@[simp] theorem setBoot_boot (f : Boot → Boot) : (setBoot f s).boot =
    f s.boot := rfl
@[simp] theorem setBoot_ident (f : Boot → Boot) : (setBoot f s).ident = s.ident := rfl
@[simp] theorem setBoot_pins (f : Boot → Boot) : (setBoot f s).pins = s.pins := rfl
@[simp] theorem setBoot_power (f : Boot → Boot) : (setBoot f s).power = s.power := rfl
@[simp] theorem setBoot_permit (f : Boot → Boot) : (setBoot f s).permit = s.permit := rfl
@[simp] theorem setBoot_members (f : Boot → Boot) : (setBoot f s).members = s.members := rfl
@[simp] theorem setBoot_profile (f : Boot → Boot) : (setBoot f s).profile = s.profile := rfl
@[simp] theorem setBoot_time (f : Boot → Boot) : (setBoot f s).time = s.time := rfl
@[simp] theorem setBoot_basin (f : Boot → Boot) : (setBoot f s).basin = s.basin := rfl
@[simp] theorem setBoot_hostq (f : Boot → Boot) : (setBoot f s).hostq = s.hostq := rfl
@[simp] theorem setBoot_events (f : Boot → Boot) : (setBoot f s).events = s.events := rfl
@[simp] theorem setBoot_access (f : Boot → Boot) : (setBoot f s).access = s.access := rfl
@[simp] theorem setBoot_mgmt (f : Boot → Boot) : (setBoot f s).mgmt = s.mgmt := rfl
@[simp] theorem setBoot_still (f : Boot → Boot) : (setBoot f s).still = s.still := rfl
@[simp] theorem setBoot_override (f : Boot → Boot) : (setBoot f s).override = s.override := rfl
@[simp] theorem setBoot_staging (f : Boot → Boot) : (setBoot f s).staging = s.staging := rfl
@[simp] theorem setBoot_waiting (f : Boot → Boot) : (setBoot f s).waiting = s.waiting := rfl
@[simp] theorem setBoot_jobs (f : Boot → Boot) : (setBoot f s).jobs = s.jobs := rfl
@[simp] theorem setBoot_lanes (f : Boot → Boot) : (setBoot f s).lanes = s.lanes := rfl
@[simp] theorem setBoot_tarns (f : Boot → Boot) : (setBoot f s).tarns = s.tarns := rfl
@[simp] theorem setBoot_curves (f : Boot → Boot) : (setBoot f s).curves = s.curves := rfl
@[simp] theorem setBoot_mere (f : Boot → Boot) : (setBoot f s).mere = s.mere := rfl
@[simp] theorem setBoot_prox (f : Boot → Boot) : (setBoot f s).prox = s.prox := rfl
@[simp] theorem setBoot_link (f : Boot → Boot) : (setBoot f s).link = s.link := rfl
@[simp] theorem setBoot_cfg (f : Boot → Boot) : (setBoot f s).cfg = s.cfg := rfl
@[simp] theorem setBoot_axes (f : Boot → Boot) : (setBoot f s).axes = s.axes := rfl
@[simp] theorem setBoot_enc (f : Boot → Boot) : (setBoot f s).enc = s.enc := rfl
@[simp] theorem setBoot_hall (f : Boot → Boot) : (setBoot f s).hall = s.hall := rfl
@[simp] theorem setBoot_cmp (f : Boot → Boot) : (setBoot f s).cmp = s.cmp := rfl
@[simp] theorem setBoot_echo (f : Boot → Boot) : (setBoot f s).echo = s.echo := rfl
@[simp] theorem setBoot_hk (f : Boot → Boot) : (setBoot f s).hk = s.hk := rfl
@[simp] theorem setBoot_cams (f : Boot → Boot) : (setBoot f s).cams = s.cams := rfl
@[simp] theorem setBoot_isp (f : Boot → Boot) : (setBoot f s).isp = s.isp := rfl
@[simp] theorem setBoot_light (f : Boot → Boot) : (setBoot f s).light = s.light := rfl
@[simp] theorem setBoot_zip (f : Boot → Boot) : (setBoot f s).zip = s.zip := rfl
@[simp] theorem setBoot_scenes (f : Boot → Boot) : (setBoot f s).scenes = s.scenes := rfl
@[simp] theorem setBoot_edp (f : Boot → Boot) : (setBoot f s).edp = s.edp := rfl
@[simp] theorem setBoot_recorder (f : Boot → Boot) : (setBoot f s).recorder = s.recorder := rfl
@[simp] theorem setBoot_sent (f : Boot → Boot) : (setBoot f s).sent = s.sent := rfl
@[simp] theorem setBoot_free (f : Boot → Boot) : (setBoot f s).free = s.free := rfl
@[simp] theorem setBoot_pending (f : Boot → Boot) : (setBoot f s).pending = s.pending := rfl
@[simp] theorem setBoot_now (f : Boot → Boot) : (setBoot f s).now = s.now := rfl

@[simp] theorem setPower_power (f : Power → Power) : (setPower f s).power =
    f s.power := rfl
@[simp] theorem setPower_ident (f : Power → Power) : (setPower f s).ident = s.ident := rfl
@[simp] theorem setPower_pins (f : Power → Power) : (setPower f s).pins = s.pins := rfl
@[simp] theorem setPower_permit (f : Power → Power) : (setPower f s).permit = s.permit := rfl
@[simp] theorem setPower_boot (f : Power → Power) : (setPower f s).boot = s.boot := rfl
@[simp] theorem setPower_members (f : Power → Power) : (setPower f s).members = s.members := rfl
@[simp] theorem setPower_profile (f : Power → Power) : (setPower f s).profile = s.profile := rfl
@[simp] theorem setPower_time (f : Power → Power) : (setPower f s).time = s.time := rfl
@[simp] theorem setPower_basin (f : Power → Power) : (setPower f s).basin = s.basin := rfl
@[simp] theorem setPower_hostq (f : Power → Power) : (setPower f s).hostq = s.hostq := rfl
@[simp] theorem setPower_events (f : Power → Power) : (setPower f s).events = s.events := rfl
@[simp] theorem setPower_access (f : Power → Power) : (setPower f s).access = s.access := rfl
@[simp] theorem setPower_mgmt (f : Power → Power) : (setPower f s).mgmt = s.mgmt := rfl
@[simp] theorem setPower_still (f : Power → Power) : (setPower f s).still = s.still := rfl
@[simp] theorem setPower_override (f : Power → Power) : (setPower f s).override = s.override := rfl
@[simp] theorem setPower_staging (f : Power → Power) : (setPower f s).staging = s.staging := rfl
@[simp] theorem setPower_waiting (f : Power → Power) : (setPower f s).waiting = s.waiting := rfl
@[simp] theorem setPower_jobs (f : Power → Power) : (setPower f s).jobs = s.jobs := rfl
@[simp] theorem setPower_lanes (f : Power → Power) : (setPower f s).lanes = s.lanes := rfl
@[simp] theorem setPower_tarns (f : Power → Power) : (setPower f s).tarns = s.tarns := rfl
@[simp] theorem setPower_curves (f : Power → Power) : (setPower f s).curves = s.curves := rfl
@[simp] theorem setPower_mere (f : Power → Power) : (setPower f s).mere = s.mere := rfl
@[simp] theorem setPower_prox (f : Power → Power) : (setPower f s).prox = s.prox := rfl
@[simp] theorem setPower_link (f : Power → Power) : (setPower f s).link = s.link := rfl
@[simp] theorem setPower_cfg (f : Power → Power) : (setPower f s).cfg = s.cfg := rfl
@[simp] theorem setPower_axes (f : Power → Power) : (setPower f s).axes = s.axes := rfl
@[simp] theorem setPower_enc (f : Power → Power) : (setPower f s).enc = s.enc := rfl
@[simp] theorem setPower_hall (f : Power → Power) : (setPower f s).hall = s.hall := rfl
@[simp] theorem setPower_cmp (f : Power → Power) : (setPower f s).cmp = s.cmp := rfl
@[simp] theorem setPower_echo (f : Power → Power) : (setPower f s).echo = s.echo := rfl
@[simp] theorem setPower_hk (f : Power → Power) : (setPower f s).hk = s.hk := rfl
@[simp] theorem setPower_cams (f : Power → Power) : (setPower f s).cams = s.cams := rfl
@[simp] theorem setPower_isp (f : Power → Power) : (setPower f s).isp = s.isp := rfl
@[simp] theorem setPower_light (f : Power → Power) : (setPower f s).light = s.light := rfl
@[simp] theorem setPower_zip (f : Power → Power) : (setPower f s).zip = s.zip := rfl
@[simp] theorem setPower_scenes (f : Power → Power) : (setPower f s).scenes = s.scenes := rfl
@[simp] theorem setPower_edp (f : Power → Power) : (setPower f s).edp = s.edp := rfl
@[simp] theorem setPower_recorder (f : Power → Power) : (setPower f s).recorder = s.recorder := rfl
@[simp] theorem setPower_sent (f : Power → Power) : (setPower f s).sent = s.sent := rfl
@[simp] theorem setPower_free (f : Power → Power) : (setPower f s).free = s.free := rfl
@[simp] theorem setPower_pending (f : Power → Power) : (setPower f s).pending = s.pending := rfl
@[simp] theorem setPower_now (f : Power → Power) : (setPower f s).now = s.now := rfl

@[simp] theorem setMgmt_mgmt (f : Mgmt → Mgmt) : (setMgmt f s).mgmt =
    f s.mgmt := rfl
@[simp] theorem setMgmt_ident (f : Mgmt → Mgmt) : (setMgmt f s).ident = s.ident := rfl
@[simp] theorem setMgmt_pins (f : Mgmt → Mgmt) : (setMgmt f s).pins = s.pins := rfl
@[simp] theorem setMgmt_power (f : Mgmt → Mgmt) : (setMgmt f s).power = s.power := rfl
@[simp] theorem setMgmt_permit (f : Mgmt → Mgmt) : (setMgmt f s).permit = s.permit := rfl
@[simp] theorem setMgmt_boot (f : Mgmt → Mgmt) : (setMgmt f s).boot = s.boot := rfl
@[simp] theorem setMgmt_members (f : Mgmt → Mgmt) : (setMgmt f s).members = s.members := rfl
@[simp] theorem setMgmt_profile (f : Mgmt → Mgmt) : (setMgmt f s).profile = s.profile := rfl
@[simp] theorem setMgmt_time (f : Mgmt → Mgmt) : (setMgmt f s).time = s.time := rfl
@[simp] theorem setMgmt_basin (f : Mgmt → Mgmt) : (setMgmt f s).basin = s.basin := rfl
@[simp] theorem setMgmt_hostq (f : Mgmt → Mgmt) : (setMgmt f s).hostq = s.hostq := rfl
@[simp] theorem setMgmt_events (f : Mgmt → Mgmt) : (setMgmt f s).events = s.events := rfl
@[simp] theorem setMgmt_access (f : Mgmt → Mgmt) : (setMgmt f s).access = s.access := rfl
@[simp] theorem setMgmt_still (f : Mgmt → Mgmt) : (setMgmt f s).still = s.still := rfl
@[simp] theorem setMgmt_override (f : Mgmt → Mgmt) : (setMgmt f s).override = s.override := rfl
@[simp] theorem setMgmt_staging (f : Mgmt → Mgmt) : (setMgmt f s).staging = s.staging := rfl
@[simp] theorem setMgmt_waiting (f : Mgmt → Mgmt) : (setMgmt f s).waiting = s.waiting := rfl
@[simp] theorem setMgmt_jobs (f : Mgmt → Mgmt) : (setMgmt f s).jobs = s.jobs := rfl
@[simp] theorem setMgmt_lanes (f : Mgmt → Mgmt) : (setMgmt f s).lanes = s.lanes := rfl
@[simp] theorem setMgmt_tarns (f : Mgmt → Mgmt) : (setMgmt f s).tarns = s.tarns := rfl
@[simp] theorem setMgmt_curves (f : Mgmt → Mgmt) : (setMgmt f s).curves = s.curves := rfl
@[simp] theorem setMgmt_mere (f : Mgmt → Mgmt) : (setMgmt f s).mere = s.mere := rfl
@[simp] theorem setMgmt_prox (f : Mgmt → Mgmt) : (setMgmt f s).prox = s.prox := rfl
@[simp] theorem setMgmt_link (f : Mgmt → Mgmt) : (setMgmt f s).link = s.link := rfl
@[simp] theorem setMgmt_cfg (f : Mgmt → Mgmt) : (setMgmt f s).cfg = s.cfg := rfl
@[simp] theorem setMgmt_axes (f : Mgmt → Mgmt) : (setMgmt f s).axes = s.axes := rfl
@[simp] theorem setMgmt_enc (f : Mgmt → Mgmt) : (setMgmt f s).enc = s.enc := rfl
@[simp] theorem setMgmt_hall (f : Mgmt → Mgmt) : (setMgmt f s).hall = s.hall := rfl
@[simp] theorem setMgmt_cmp (f : Mgmt → Mgmt) : (setMgmt f s).cmp = s.cmp := rfl
@[simp] theorem setMgmt_echo (f : Mgmt → Mgmt) : (setMgmt f s).echo = s.echo := rfl
@[simp] theorem setMgmt_hk (f : Mgmt → Mgmt) : (setMgmt f s).hk = s.hk := rfl
@[simp] theorem setMgmt_cams (f : Mgmt → Mgmt) : (setMgmt f s).cams = s.cams := rfl
@[simp] theorem setMgmt_isp (f : Mgmt → Mgmt) : (setMgmt f s).isp = s.isp := rfl
@[simp] theorem setMgmt_light (f : Mgmt → Mgmt) : (setMgmt f s).light = s.light := rfl
@[simp] theorem setMgmt_zip (f : Mgmt → Mgmt) : (setMgmt f s).zip = s.zip := rfl
@[simp] theorem setMgmt_scenes (f : Mgmt → Mgmt) : (setMgmt f s).scenes = s.scenes := rfl
@[simp] theorem setMgmt_edp (f : Mgmt → Mgmt) : (setMgmt f s).edp = s.edp := rfl
@[simp] theorem setMgmt_recorder (f : Mgmt → Mgmt) : (setMgmt f s).recorder = s.recorder := rfl
@[simp] theorem setMgmt_sent (f : Mgmt → Mgmt) : (setMgmt f s).sent = s.sent := rfl
@[simp] theorem setMgmt_free (f : Mgmt → Mgmt) : (setMgmt f s).free = s.free := rfl
@[simp] theorem setMgmt_pending (f : Mgmt → Mgmt) : (setMgmt f s).pending = s.pending := rfl
@[simp] theorem setMgmt_now (f : Mgmt → Mgmt) : (setMgmt f s).now = s.now := rfl

@[simp] theorem setProfile_profile (f : ProfileBlk → ProfileBlk) : (setProfile f s).profile =
    f s.profile := rfl
@[simp] theorem setProfile_ident (f : ProfileBlk → ProfileBlk) : (setProfile f s).ident = s.ident := rfl
@[simp] theorem setProfile_pins (f : ProfileBlk → ProfileBlk) : (setProfile f s).pins = s.pins := rfl
@[simp] theorem setProfile_power (f : ProfileBlk → ProfileBlk) : (setProfile f s).power = s.power := rfl
@[simp] theorem setProfile_permit (f : ProfileBlk → ProfileBlk) : (setProfile f s).permit = s.permit := rfl
@[simp] theorem setProfile_boot (f : ProfileBlk → ProfileBlk) : (setProfile f s).boot = s.boot := rfl
@[simp] theorem setProfile_members (f : ProfileBlk → ProfileBlk) : (setProfile f s).members = s.members := rfl
@[simp] theorem setProfile_time (f : ProfileBlk → ProfileBlk) : (setProfile f s).time = s.time := rfl
@[simp] theorem setProfile_basin (f : ProfileBlk → ProfileBlk) : (setProfile f s).basin = s.basin := rfl
@[simp] theorem setProfile_hostq (f : ProfileBlk → ProfileBlk) : (setProfile f s).hostq = s.hostq := rfl
@[simp] theorem setProfile_events (f : ProfileBlk → ProfileBlk) : (setProfile f s).events = s.events := rfl
@[simp] theorem setProfile_access (f : ProfileBlk → ProfileBlk) : (setProfile f s).access = s.access := rfl
@[simp] theorem setProfile_mgmt (f : ProfileBlk → ProfileBlk) : (setProfile f s).mgmt = s.mgmt := rfl
@[simp] theorem setProfile_still (f : ProfileBlk → ProfileBlk) : (setProfile f s).still = s.still := rfl
@[simp] theorem setProfile_override (f : ProfileBlk → ProfileBlk) : (setProfile f s).override = s.override := rfl
@[simp] theorem setProfile_staging (f : ProfileBlk → ProfileBlk) : (setProfile f s).staging = s.staging := rfl
@[simp] theorem setProfile_waiting (f : ProfileBlk → ProfileBlk) : (setProfile f s).waiting = s.waiting := rfl
@[simp] theorem setProfile_jobs (f : ProfileBlk → ProfileBlk) : (setProfile f s).jobs = s.jobs := rfl
@[simp] theorem setProfile_lanes (f : ProfileBlk → ProfileBlk) : (setProfile f s).lanes = s.lanes := rfl
@[simp] theorem setProfile_tarns (f : ProfileBlk → ProfileBlk) : (setProfile f s).tarns = s.tarns := rfl
@[simp] theorem setProfile_curves (f : ProfileBlk → ProfileBlk) : (setProfile f s).curves = s.curves := rfl
@[simp] theorem setProfile_mere (f : ProfileBlk → ProfileBlk) : (setProfile f s).mere = s.mere := rfl
@[simp] theorem setProfile_prox (f : ProfileBlk → ProfileBlk) : (setProfile f s).prox = s.prox := rfl
@[simp] theorem setProfile_link (f : ProfileBlk → ProfileBlk) : (setProfile f s).link = s.link := rfl
@[simp] theorem setProfile_cfg (f : ProfileBlk → ProfileBlk) : (setProfile f s).cfg = s.cfg := rfl
@[simp] theorem setProfile_axes (f : ProfileBlk → ProfileBlk) : (setProfile f s).axes = s.axes := rfl
@[simp] theorem setProfile_enc (f : ProfileBlk → ProfileBlk) : (setProfile f s).enc = s.enc := rfl
@[simp] theorem setProfile_hall (f : ProfileBlk → ProfileBlk) : (setProfile f s).hall = s.hall := rfl
@[simp] theorem setProfile_cmp (f : ProfileBlk → ProfileBlk) : (setProfile f s).cmp = s.cmp := rfl
@[simp] theorem setProfile_echo (f : ProfileBlk → ProfileBlk) : (setProfile f s).echo = s.echo := rfl
@[simp] theorem setProfile_hk (f : ProfileBlk → ProfileBlk) : (setProfile f s).hk = s.hk := rfl
@[simp] theorem setProfile_cams (f : ProfileBlk → ProfileBlk) : (setProfile f s).cams = s.cams := rfl
@[simp] theorem setProfile_isp (f : ProfileBlk → ProfileBlk) : (setProfile f s).isp = s.isp := rfl
@[simp] theorem setProfile_light (f : ProfileBlk → ProfileBlk) : (setProfile f s).light = s.light := rfl
@[simp] theorem setProfile_zip (f : ProfileBlk → ProfileBlk) : (setProfile f s).zip = s.zip := rfl
@[simp] theorem setProfile_scenes (f : ProfileBlk → ProfileBlk) : (setProfile f s).scenes = s.scenes := rfl
@[simp] theorem setProfile_edp (f : ProfileBlk → ProfileBlk) : (setProfile f s).edp = s.edp := rfl
@[simp] theorem setProfile_recorder (f : ProfileBlk → ProfileBlk) : (setProfile f s).recorder = s.recorder := rfl
@[simp] theorem setProfile_sent (f : ProfileBlk → ProfileBlk) : (setProfile f s).sent = s.sent := rfl
@[simp] theorem setProfile_free (f : ProfileBlk → ProfileBlk) : (setProfile f s).free = s.free := rfl
@[simp] theorem setProfile_pending (f : ProfileBlk → ProfileBlk) : (setProfile f s).pending = s.pending := rfl
@[simp] theorem setProfile_now (f : ProfileBlk → ProfileBlk) : (setProfile f s).now = s.now := rfl

@[simp] theorem setAxis_axes (a : Nat) (f : Axis → Axis) : (setAxis a f s).axes =
    { s.axes with axes := modUnit s.axes.axes a f } := rfl
@[simp] theorem setAxis_ident (a : Nat) (f : Axis → Axis) : (setAxis a f s).ident = s.ident := rfl
@[simp] theorem setAxis_pins (a : Nat) (f : Axis → Axis) : (setAxis a f s).pins = s.pins := rfl
@[simp] theorem setAxis_power (a : Nat) (f : Axis → Axis) : (setAxis a f s).power = s.power := rfl
@[simp] theorem setAxis_permit (a : Nat) (f : Axis → Axis) : (setAxis a f s).permit = s.permit := rfl
@[simp] theorem setAxis_boot (a : Nat) (f : Axis → Axis) : (setAxis a f s).boot = s.boot := rfl
@[simp] theorem setAxis_members (a : Nat) (f : Axis → Axis) : (setAxis a f s).members = s.members := rfl
@[simp] theorem setAxis_profile (a : Nat) (f : Axis → Axis) : (setAxis a f s).profile = s.profile := rfl
@[simp] theorem setAxis_time (a : Nat) (f : Axis → Axis) : (setAxis a f s).time = s.time := rfl
@[simp] theorem setAxis_basin (a : Nat) (f : Axis → Axis) : (setAxis a f s).basin = s.basin := rfl
@[simp] theorem setAxis_hostq (a : Nat) (f : Axis → Axis) : (setAxis a f s).hostq = s.hostq := rfl
@[simp] theorem setAxis_events (a : Nat) (f : Axis → Axis) : (setAxis a f s).events = s.events := rfl
@[simp] theorem setAxis_access (a : Nat) (f : Axis → Axis) : (setAxis a f s).access = s.access := rfl
@[simp] theorem setAxis_mgmt (a : Nat) (f : Axis → Axis) : (setAxis a f s).mgmt = s.mgmt := rfl
@[simp] theorem setAxis_still (a : Nat) (f : Axis → Axis) : (setAxis a f s).still = s.still := rfl
@[simp] theorem setAxis_override (a : Nat) (f : Axis → Axis) : (setAxis a f s).override = s.override := rfl
@[simp] theorem setAxis_staging (a : Nat) (f : Axis → Axis) : (setAxis a f s).staging = s.staging := rfl
@[simp] theorem setAxis_waiting (a : Nat) (f : Axis → Axis) : (setAxis a f s).waiting = s.waiting := rfl
@[simp] theorem setAxis_jobs (a : Nat) (f : Axis → Axis) : (setAxis a f s).jobs = s.jobs := rfl
@[simp] theorem setAxis_lanes (a : Nat) (f : Axis → Axis) : (setAxis a f s).lanes = s.lanes := rfl
@[simp] theorem setAxis_tarns (a : Nat) (f : Axis → Axis) : (setAxis a f s).tarns = s.tarns := rfl
@[simp] theorem setAxis_curves (a : Nat) (f : Axis → Axis) : (setAxis a f s).curves = s.curves := rfl
@[simp] theorem setAxis_mere (a : Nat) (f : Axis → Axis) : (setAxis a f s).mere = s.mere := rfl
@[simp] theorem setAxis_prox (a : Nat) (f : Axis → Axis) : (setAxis a f s).prox = s.prox := rfl
@[simp] theorem setAxis_link (a : Nat) (f : Axis → Axis) : (setAxis a f s).link = s.link := rfl
@[simp] theorem setAxis_cfg (a : Nat) (f : Axis → Axis) : (setAxis a f s).cfg = s.cfg := rfl
@[simp] theorem setAxis_enc (a : Nat) (f : Axis → Axis) : (setAxis a f s).enc = s.enc := rfl
@[simp] theorem setAxis_hall (a : Nat) (f : Axis → Axis) : (setAxis a f s).hall = s.hall := rfl
@[simp] theorem setAxis_cmp (a : Nat) (f : Axis → Axis) : (setAxis a f s).cmp = s.cmp := rfl
@[simp] theorem setAxis_echo (a : Nat) (f : Axis → Axis) : (setAxis a f s).echo = s.echo := rfl
@[simp] theorem setAxis_hk (a : Nat) (f : Axis → Axis) : (setAxis a f s).hk = s.hk := rfl
@[simp] theorem setAxis_cams (a : Nat) (f : Axis → Axis) : (setAxis a f s).cams = s.cams := rfl
@[simp] theorem setAxis_isp (a : Nat) (f : Axis → Axis) : (setAxis a f s).isp = s.isp := rfl
@[simp] theorem setAxis_light (a : Nat) (f : Axis → Axis) : (setAxis a f s).light = s.light := rfl
@[simp] theorem setAxis_zip (a : Nat) (f : Axis → Axis) : (setAxis a f s).zip = s.zip := rfl
@[simp] theorem setAxis_scenes (a : Nat) (f : Axis → Axis) : (setAxis a f s).scenes = s.scenes := rfl
@[simp] theorem setAxis_edp (a : Nat) (f : Axis → Axis) : (setAxis a f s).edp = s.edp := rfl
@[simp] theorem setAxis_recorder (a : Nat) (f : Axis → Axis) : (setAxis a f s).recorder = s.recorder := rfl
@[simp] theorem setAxis_sent (a : Nat) (f : Axis → Axis) : (setAxis a f s).sent = s.sent := rfl
@[simp] theorem setAxis_free (a : Nat) (f : Axis → Axis) : (setAxis a f s).free = s.free := rfl
@[simp] theorem setAxis_pending (a : Nat) (f : Axis → Axis) : (setAxis a f s).pending = s.pending := rfl
@[simp] theorem setAxis_now (a : Nat) (f : Axis → Axis) : (setAxis a f s).now = s.now := rfl

@[simp] theorem setEnc_enc (e : Nat) (f : Enc → Enc) : (setEnc e f s).enc =
    modUnit s.enc e f := rfl
@[simp] theorem setEnc_ident (e : Nat) (f : Enc → Enc) : (setEnc e f s).ident = s.ident := rfl
@[simp] theorem setEnc_pins (e : Nat) (f : Enc → Enc) : (setEnc e f s).pins = s.pins := rfl
@[simp] theorem setEnc_power (e : Nat) (f : Enc → Enc) : (setEnc e f s).power = s.power := rfl
@[simp] theorem setEnc_permit (e : Nat) (f : Enc → Enc) : (setEnc e f s).permit = s.permit := rfl
@[simp] theorem setEnc_boot (e : Nat) (f : Enc → Enc) : (setEnc e f s).boot = s.boot := rfl
@[simp] theorem setEnc_members (e : Nat) (f : Enc → Enc) : (setEnc e f s).members = s.members := rfl
@[simp] theorem setEnc_profile (e : Nat) (f : Enc → Enc) : (setEnc e f s).profile = s.profile := rfl
@[simp] theorem setEnc_time (e : Nat) (f : Enc → Enc) : (setEnc e f s).time = s.time := rfl
@[simp] theorem setEnc_basin (e : Nat) (f : Enc → Enc) : (setEnc e f s).basin = s.basin := rfl
@[simp] theorem setEnc_hostq (e : Nat) (f : Enc → Enc) : (setEnc e f s).hostq = s.hostq := rfl
@[simp] theorem setEnc_events (e : Nat) (f : Enc → Enc) : (setEnc e f s).events = s.events := rfl
@[simp] theorem setEnc_access (e : Nat) (f : Enc → Enc) : (setEnc e f s).access = s.access := rfl
@[simp] theorem setEnc_mgmt (e : Nat) (f : Enc → Enc) : (setEnc e f s).mgmt = s.mgmt := rfl
@[simp] theorem setEnc_still (e : Nat) (f : Enc → Enc) : (setEnc e f s).still = s.still := rfl
@[simp] theorem setEnc_override (e : Nat) (f : Enc → Enc) : (setEnc e f s).override = s.override := rfl
@[simp] theorem setEnc_staging (e : Nat) (f : Enc → Enc) : (setEnc e f s).staging = s.staging := rfl
@[simp] theorem setEnc_waiting (e : Nat) (f : Enc → Enc) : (setEnc e f s).waiting = s.waiting := rfl
@[simp] theorem setEnc_jobs (e : Nat) (f : Enc → Enc) : (setEnc e f s).jobs = s.jobs := rfl
@[simp] theorem setEnc_lanes (e : Nat) (f : Enc → Enc) : (setEnc e f s).lanes = s.lanes := rfl
@[simp] theorem setEnc_tarns (e : Nat) (f : Enc → Enc) : (setEnc e f s).tarns = s.tarns := rfl
@[simp] theorem setEnc_curves (e : Nat) (f : Enc → Enc) : (setEnc e f s).curves = s.curves := rfl
@[simp] theorem setEnc_mere (e : Nat) (f : Enc → Enc) : (setEnc e f s).mere = s.mere := rfl
@[simp] theorem setEnc_prox (e : Nat) (f : Enc → Enc) : (setEnc e f s).prox = s.prox := rfl
@[simp] theorem setEnc_link (e : Nat) (f : Enc → Enc) : (setEnc e f s).link = s.link := rfl
@[simp] theorem setEnc_cfg (e : Nat) (f : Enc → Enc) : (setEnc e f s).cfg = s.cfg := rfl
@[simp] theorem setEnc_axes (e : Nat) (f : Enc → Enc) : (setEnc e f s).axes = s.axes := rfl
@[simp] theorem setEnc_hall (e : Nat) (f : Enc → Enc) : (setEnc e f s).hall = s.hall := rfl
@[simp] theorem setEnc_cmp (e : Nat) (f : Enc → Enc) : (setEnc e f s).cmp = s.cmp := rfl
@[simp] theorem setEnc_echo (e : Nat) (f : Enc → Enc) : (setEnc e f s).echo = s.echo := rfl
@[simp] theorem setEnc_hk (e : Nat) (f : Enc → Enc) : (setEnc e f s).hk = s.hk := rfl
@[simp] theorem setEnc_cams (e : Nat) (f : Enc → Enc) : (setEnc e f s).cams = s.cams := rfl
@[simp] theorem setEnc_isp (e : Nat) (f : Enc → Enc) : (setEnc e f s).isp = s.isp := rfl
@[simp] theorem setEnc_light (e : Nat) (f : Enc → Enc) : (setEnc e f s).light = s.light := rfl
@[simp] theorem setEnc_zip (e : Nat) (f : Enc → Enc) : (setEnc e f s).zip = s.zip := rfl
@[simp] theorem setEnc_scenes (e : Nat) (f : Enc → Enc) : (setEnc e f s).scenes = s.scenes := rfl
@[simp] theorem setEnc_edp (e : Nat) (f : Enc → Enc) : (setEnc e f s).edp = s.edp := rfl
@[simp] theorem setEnc_recorder (e : Nat) (f : Enc → Enc) : (setEnc e f s).recorder = s.recorder := rfl
@[simp] theorem setEnc_sent (e : Nat) (f : Enc → Enc) : (setEnc e f s).sent = s.sent := rfl
@[simp] theorem setEnc_free (e : Nat) (f : Enc → Enc) : (setEnc e f s).free = s.free := rfl
@[simp] theorem setEnc_pending (e : Nat) (f : Enc → Enc) : (setEnc e f s).pending = s.pending := rfl
@[simp] theorem setEnc_now (e : Nat) (f : Enc → Enc) : (setEnc e f s).now = s.now := rfl

@[simp] theorem setHall_hall (g : Nat) (f : Hall → Hall) : (setHall g f s).hall =
    modUnit s.hall g f := rfl
@[simp] theorem setHall_ident (g : Nat) (f : Hall → Hall) : (setHall g f s).ident = s.ident := rfl
@[simp] theorem setHall_pins (g : Nat) (f : Hall → Hall) : (setHall g f s).pins = s.pins := rfl
@[simp] theorem setHall_power (g : Nat) (f : Hall → Hall) : (setHall g f s).power = s.power := rfl
@[simp] theorem setHall_permit (g : Nat) (f : Hall → Hall) : (setHall g f s).permit = s.permit := rfl
@[simp] theorem setHall_boot (g : Nat) (f : Hall → Hall) : (setHall g f s).boot = s.boot := rfl
@[simp] theorem setHall_members (g : Nat) (f : Hall → Hall) : (setHall g f s).members = s.members := rfl
@[simp] theorem setHall_profile (g : Nat) (f : Hall → Hall) : (setHall g f s).profile = s.profile := rfl
@[simp] theorem setHall_time (g : Nat) (f : Hall → Hall) : (setHall g f s).time = s.time := rfl
@[simp] theorem setHall_basin (g : Nat) (f : Hall → Hall) : (setHall g f s).basin = s.basin := rfl
@[simp] theorem setHall_hostq (g : Nat) (f : Hall → Hall) : (setHall g f s).hostq = s.hostq := rfl
@[simp] theorem setHall_events (g : Nat) (f : Hall → Hall) : (setHall g f s).events = s.events := rfl
@[simp] theorem setHall_access (g : Nat) (f : Hall → Hall) : (setHall g f s).access = s.access := rfl
@[simp] theorem setHall_mgmt (g : Nat) (f : Hall → Hall) : (setHall g f s).mgmt = s.mgmt := rfl
@[simp] theorem setHall_still (g : Nat) (f : Hall → Hall) : (setHall g f s).still = s.still := rfl
@[simp] theorem setHall_override (g : Nat) (f : Hall → Hall) : (setHall g f s).override = s.override := rfl
@[simp] theorem setHall_staging (g : Nat) (f : Hall → Hall) : (setHall g f s).staging = s.staging := rfl
@[simp] theorem setHall_waiting (g : Nat) (f : Hall → Hall) : (setHall g f s).waiting = s.waiting := rfl
@[simp] theorem setHall_jobs (g : Nat) (f : Hall → Hall) : (setHall g f s).jobs = s.jobs := rfl
@[simp] theorem setHall_lanes (g : Nat) (f : Hall → Hall) : (setHall g f s).lanes = s.lanes := rfl
@[simp] theorem setHall_tarns (g : Nat) (f : Hall → Hall) : (setHall g f s).tarns = s.tarns := rfl
@[simp] theorem setHall_curves (g : Nat) (f : Hall → Hall) : (setHall g f s).curves = s.curves := rfl
@[simp] theorem setHall_mere (g : Nat) (f : Hall → Hall) : (setHall g f s).mere = s.mere := rfl
@[simp] theorem setHall_prox (g : Nat) (f : Hall → Hall) : (setHall g f s).prox = s.prox := rfl
@[simp] theorem setHall_link (g : Nat) (f : Hall → Hall) : (setHall g f s).link = s.link := rfl
@[simp] theorem setHall_cfg (g : Nat) (f : Hall → Hall) : (setHall g f s).cfg = s.cfg := rfl
@[simp] theorem setHall_axes (g : Nat) (f : Hall → Hall) : (setHall g f s).axes = s.axes := rfl
@[simp] theorem setHall_enc (g : Nat) (f : Hall → Hall) : (setHall g f s).enc = s.enc := rfl
@[simp] theorem setHall_cmp (g : Nat) (f : Hall → Hall) : (setHall g f s).cmp = s.cmp := rfl
@[simp] theorem setHall_echo (g : Nat) (f : Hall → Hall) : (setHall g f s).echo = s.echo := rfl
@[simp] theorem setHall_hk (g : Nat) (f : Hall → Hall) : (setHall g f s).hk = s.hk := rfl
@[simp] theorem setHall_cams (g : Nat) (f : Hall → Hall) : (setHall g f s).cams = s.cams := rfl
@[simp] theorem setHall_isp (g : Nat) (f : Hall → Hall) : (setHall g f s).isp = s.isp := rfl
@[simp] theorem setHall_light (g : Nat) (f : Hall → Hall) : (setHall g f s).light = s.light := rfl
@[simp] theorem setHall_zip (g : Nat) (f : Hall → Hall) : (setHall g f s).zip = s.zip := rfl
@[simp] theorem setHall_scenes (g : Nat) (f : Hall → Hall) : (setHall g f s).scenes = s.scenes := rfl
@[simp] theorem setHall_edp (g : Nat) (f : Hall → Hall) : (setHall g f s).edp = s.edp := rfl
@[simp] theorem setHall_recorder (g : Nat) (f : Hall → Hall) : (setHall g f s).recorder = s.recorder := rfl
@[simp] theorem setHall_sent (g : Nat) (f : Hall → Hall) : (setHall g f s).sent = s.sent := rfl
@[simp] theorem setHall_free (g : Nat) (f : Hall → Hall) : (setHall g f s).free = s.free := rfl
@[simp] theorem setHall_pending (g : Nat) (f : Hall → Hall) : (setHall g f s).pending = s.pending := rfl
@[simp] theorem setHall_now (g : Nat) (f : Hall → Hall) : (setHall g f s).now = s.now := rfl

@[simp] theorem setCmp_cmp (k : Nat) (f : Cmp → Cmp) : (setCmp k f s).cmp =
    modUnit s.cmp k f := rfl
@[simp] theorem setCmp_ident (k : Nat) (f : Cmp → Cmp) : (setCmp k f s).ident = s.ident := rfl
@[simp] theorem setCmp_pins (k : Nat) (f : Cmp → Cmp) : (setCmp k f s).pins = s.pins := rfl
@[simp] theorem setCmp_power (k : Nat) (f : Cmp → Cmp) : (setCmp k f s).power = s.power := rfl
@[simp] theorem setCmp_permit (k : Nat) (f : Cmp → Cmp) : (setCmp k f s).permit = s.permit := rfl
@[simp] theorem setCmp_boot (k : Nat) (f : Cmp → Cmp) : (setCmp k f s).boot = s.boot := rfl
@[simp] theorem setCmp_members (k : Nat) (f : Cmp → Cmp) : (setCmp k f s).members = s.members := rfl
@[simp] theorem setCmp_profile (k : Nat) (f : Cmp → Cmp) : (setCmp k f s).profile = s.profile := rfl
@[simp] theorem setCmp_time (k : Nat) (f : Cmp → Cmp) : (setCmp k f s).time = s.time := rfl
@[simp] theorem setCmp_basin (k : Nat) (f : Cmp → Cmp) : (setCmp k f s).basin = s.basin := rfl
@[simp] theorem setCmp_hostq (k : Nat) (f : Cmp → Cmp) : (setCmp k f s).hostq = s.hostq := rfl
@[simp] theorem setCmp_events (k : Nat) (f : Cmp → Cmp) : (setCmp k f s).events = s.events := rfl
@[simp] theorem setCmp_access (k : Nat) (f : Cmp → Cmp) : (setCmp k f s).access = s.access := rfl
@[simp] theorem setCmp_mgmt (k : Nat) (f : Cmp → Cmp) : (setCmp k f s).mgmt = s.mgmt := rfl
@[simp] theorem setCmp_still (k : Nat) (f : Cmp → Cmp) : (setCmp k f s).still = s.still := rfl
@[simp] theorem setCmp_override (k : Nat) (f : Cmp → Cmp) : (setCmp k f s).override = s.override := rfl
@[simp] theorem setCmp_staging (k : Nat) (f : Cmp → Cmp) : (setCmp k f s).staging = s.staging := rfl
@[simp] theorem setCmp_waiting (k : Nat) (f : Cmp → Cmp) : (setCmp k f s).waiting = s.waiting := rfl
@[simp] theorem setCmp_jobs (k : Nat) (f : Cmp → Cmp) : (setCmp k f s).jobs = s.jobs := rfl
@[simp] theorem setCmp_lanes (k : Nat) (f : Cmp → Cmp) : (setCmp k f s).lanes = s.lanes := rfl
@[simp] theorem setCmp_tarns (k : Nat) (f : Cmp → Cmp) : (setCmp k f s).tarns = s.tarns := rfl
@[simp] theorem setCmp_curves (k : Nat) (f : Cmp → Cmp) : (setCmp k f s).curves = s.curves := rfl
@[simp] theorem setCmp_mere (k : Nat) (f : Cmp → Cmp) : (setCmp k f s).mere = s.mere := rfl
@[simp] theorem setCmp_prox (k : Nat) (f : Cmp → Cmp) : (setCmp k f s).prox = s.prox := rfl
@[simp] theorem setCmp_link (k : Nat) (f : Cmp → Cmp) : (setCmp k f s).link = s.link := rfl
@[simp] theorem setCmp_cfg (k : Nat) (f : Cmp → Cmp) : (setCmp k f s).cfg = s.cfg := rfl
@[simp] theorem setCmp_axes (k : Nat) (f : Cmp → Cmp) : (setCmp k f s).axes = s.axes := rfl
@[simp] theorem setCmp_enc (k : Nat) (f : Cmp → Cmp) : (setCmp k f s).enc = s.enc := rfl
@[simp] theorem setCmp_hall (k : Nat) (f : Cmp → Cmp) : (setCmp k f s).hall = s.hall := rfl
@[simp] theorem setCmp_echo (k : Nat) (f : Cmp → Cmp) : (setCmp k f s).echo = s.echo := rfl
@[simp] theorem setCmp_hk (k : Nat) (f : Cmp → Cmp) : (setCmp k f s).hk = s.hk := rfl
@[simp] theorem setCmp_cams (k : Nat) (f : Cmp → Cmp) : (setCmp k f s).cams = s.cams := rfl
@[simp] theorem setCmp_isp (k : Nat) (f : Cmp → Cmp) : (setCmp k f s).isp = s.isp := rfl
@[simp] theorem setCmp_light (k : Nat) (f : Cmp → Cmp) : (setCmp k f s).light = s.light := rfl
@[simp] theorem setCmp_zip (k : Nat) (f : Cmp → Cmp) : (setCmp k f s).zip = s.zip := rfl
@[simp] theorem setCmp_scenes (k : Nat) (f : Cmp → Cmp) : (setCmp k f s).scenes = s.scenes := rfl
@[simp] theorem setCmp_edp (k : Nat) (f : Cmp → Cmp) : (setCmp k f s).edp = s.edp := rfl
@[simp] theorem setCmp_recorder (k : Nat) (f : Cmp → Cmp) : (setCmp k f s).recorder = s.recorder := rfl
@[simp] theorem setCmp_sent (k : Nat) (f : Cmp → Cmp) : (setCmp k f s).sent = s.sent := rfl
@[simp] theorem setCmp_free (k : Nat) (f : Cmp → Cmp) : (setCmp k f s).free = s.free := rfl
@[simp] theorem setCmp_pending (k : Nat) (f : Cmp → Cmp) : (setCmp k f s).pending = s.pending := rfl
@[simp] theorem setCmp_now (k : Nat) (f : Cmp → Cmp) : (setCmp k f s).now = s.now := rfl

@[simp] theorem setEcho_echo (k : Nat) (f : Echo → Echo) : (setEcho k f s).echo =
    modUnit s.echo k f := rfl
@[simp] theorem setEcho_ident (k : Nat) (f : Echo → Echo) : (setEcho k f s).ident = s.ident := rfl
@[simp] theorem setEcho_pins (k : Nat) (f : Echo → Echo) : (setEcho k f s).pins = s.pins := rfl
@[simp] theorem setEcho_power (k : Nat) (f : Echo → Echo) : (setEcho k f s).power = s.power := rfl
@[simp] theorem setEcho_permit (k : Nat) (f : Echo → Echo) : (setEcho k f s).permit = s.permit := rfl
@[simp] theorem setEcho_boot (k : Nat) (f : Echo → Echo) : (setEcho k f s).boot = s.boot := rfl
@[simp] theorem setEcho_members (k : Nat) (f : Echo → Echo) : (setEcho k f s).members = s.members := rfl
@[simp] theorem setEcho_profile (k : Nat) (f : Echo → Echo) : (setEcho k f s).profile = s.profile := rfl
@[simp] theorem setEcho_time (k : Nat) (f : Echo → Echo) : (setEcho k f s).time = s.time := rfl
@[simp] theorem setEcho_basin (k : Nat) (f : Echo → Echo) : (setEcho k f s).basin = s.basin := rfl
@[simp] theorem setEcho_hostq (k : Nat) (f : Echo → Echo) : (setEcho k f s).hostq = s.hostq := rfl
@[simp] theorem setEcho_events (k : Nat) (f : Echo → Echo) : (setEcho k f s).events = s.events := rfl
@[simp] theorem setEcho_access (k : Nat) (f : Echo → Echo) : (setEcho k f s).access = s.access := rfl
@[simp] theorem setEcho_mgmt (k : Nat) (f : Echo → Echo) : (setEcho k f s).mgmt = s.mgmt := rfl
@[simp] theorem setEcho_still (k : Nat) (f : Echo → Echo) : (setEcho k f s).still = s.still := rfl
@[simp] theorem setEcho_override (k : Nat) (f : Echo → Echo) : (setEcho k f s).override = s.override := rfl
@[simp] theorem setEcho_staging (k : Nat) (f : Echo → Echo) : (setEcho k f s).staging = s.staging := rfl
@[simp] theorem setEcho_waiting (k : Nat) (f : Echo → Echo) : (setEcho k f s).waiting = s.waiting := rfl
@[simp] theorem setEcho_jobs (k : Nat) (f : Echo → Echo) : (setEcho k f s).jobs = s.jobs := rfl
@[simp] theorem setEcho_lanes (k : Nat) (f : Echo → Echo) : (setEcho k f s).lanes = s.lanes := rfl
@[simp] theorem setEcho_tarns (k : Nat) (f : Echo → Echo) : (setEcho k f s).tarns = s.tarns := rfl
@[simp] theorem setEcho_curves (k : Nat) (f : Echo → Echo) : (setEcho k f s).curves = s.curves := rfl
@[simp] theorem setEcho_mere (k : Nat) (f : Echo → Echo) : (setEcho k f s).mere = s.mere := rfl
@[simp] theorem setEcho_prox (k : Nat) (f : Echo → Echo) : (setEcho k f s).prox = s.prox := rfl
@[simp] theorem setEcho_link (k : Nat) (f : Echo → Echo) : (setEcho k f s).link = s.link := rfl
@[simp] theorem setEcho_cfg (k : Nat) (f : Echo → Echo) : (setEcho k f s).cfg = s.cfg := rfl
@[simp] theorem setEcho_axes (k : Nat) (f : Echo → Echo) : (setEcho k f s).axes = s.axes := rfl
@[simp] theorem setEcho_enc (k : Nat) (f : Echo → Echo) : (setEcho k f s).enc = s.enc := rfl
@[simp] theorem setEcho_hall (k : Nat) (f : Echo → Echo) : (setEcho k f s).hall = s.hall := rfl
@[simp] theorem setEcho_cmp (k : Nat) (f : Echo → Echo) : (setEcho k f s).cmp = s.cmp := rfl
@[simp] theorem setEcho_hk (k : Nat) (f : Echo → Echo) : (setEcho k f s).hk = s.hk := rfl
@[simp] theorem setEcho_cams (k : Nat) (f : Echo → Echo) : (setEcho k f s).cams = s.cams := rfl
@[simp] theorem setEcho_isp (k : Nat) (f : Echo → Echo) : (setEcho k f s).isp = s.isp := rfl
@[simp] theorem setEcho_light (k : Nat) (f : Echo → Echo) : (setEcho k f s).light = s.light := rfl
@[simp] theorem setEcho_zip (k : Nat) (f : Echo → Echo) : (setEcho k f s).zip = s.zip := rfl
@[simp] theorem setEcho_scenes (k : Nat) (f : Echo → Echo) : (setEcho k f s).scenes = s.scenes := rfl
@[simp] theorem setEcho_edp (k : Nat) (f : Echo → Echo) : (setEcho k f s).edp = s.edp := rfl
@[simp] theorem setEcho_recorder (k : Nat) (f : Echo → Echo) : (setEcho k f s).recorder = s.recorder := rfl
@[simp] theorem setEcho_sent (k : Nat) (f : Echo → Echo) : (setEcho k f s).sent = s.sent := rfl
@[simp] theorem setEcho_free (k : Nat) (f : Echo → Echo) : (setEcho k f s).free = s.free := rfl
@[simp] theorem setEcho_pending (k : Nat) (f : Echo → Echo) : (setEcho k f s).pending = s.pending := rfl
@[simp] theorem setEcho_now (k : Nat) (f : Echo → Echo) : (setEcho k f s).now = s.now := rfl

@[simp] theorem setHk_hk (f : Hk → Hk) : (setHk f s).hk =
    f s.hk := rfl
@[simp] theorem setHk_ident (f : Hk → Hk) : (setHk f s).ident = s.ident := rfl
@[simp] theorem setHk_pins (f : Hk → Hk) : (setHk f s).pins = s.pins := rfl
@[simp] theorem setHk_power (f : Hk → Hk) : (setHk f s).power = s.power := rfl
@[simp] theorem setHk_permit (f : Hk → Hk) : (setHk f s).permit = s.permit := rfl
@[simp] theorem setHk_boot (f : Hk → Hk) : (setHk f s).boot = s.boot := rfl
@[simp] theorem setHk_members (f : Hk → Hk) : (setHk f s).members = s.members := rfl
@[simp] theorem setHk_profile (f : Hk → Hk) : (setHk f s).profile = s.profile := rfl
@[simp] theorem setHk_time (f : Hk → Hk) : (setHk f s).time = s.time := rfl
@[simp] theorem setHk_basin (f : Hk → Hk) : (setHk f s).basin = s.basin := rfl
@[simp] theorem setHk_hostq (f : Hk → Hk) : (setHk f s).hostq = s.hostq := rfl
@[simp] theorem setHk_events (f : Hk → Hk) : (setHk f s).events = s.events := rfl
@[simp] theorem setHk_access (f : Hk → Hk) : (setHk f s).access = s.access := rfl
@[simp] theorem setHk_mgmt (f : Hk → Hk) : (setHk f s).mgmt = s.mgmt := rfl
@[simp] theorem setHk_still (f : Hk → Hk) : (setHk f s).still = s.still := rfl
@[simp] theorem setHk_override (f : Hk → Hk) : (setHk f s).override = s.override := rfl
@[simp] theorem setHk_staging (f : Hk → Hk) : (setHk f s).staging = s.staging := rfl
@[simp] theorem setHk_waiting (f : Hk → Hk) : (setHk f s).waiting = s.waiting := rfl
@[simp] theorem setHk_jobs (f : Hk → Hk) : (setHk f s).jobs = s.jobs := rfl
@[simp] theorem setHk_lanes (f : Hk → Hk) : (setHk f s).lanes = s.lanes := rfl
@[simp] theorem setHk_tarns (f : Hk → Hk) : (setHk f s).tarns = s.tarns := rfl
@[simp] theorem setHk_curves (f : Hk → Hk) : (setHk f s).curves = s.curves := rfl
@[simp] theorem setHk_mere (f : Hk → Hk) : (setHk f s).mere = s.mere := rfl
@[simp] theorem setHk_prox (f : Hk → Hk) : (setHk f s).prox = s.prox := rfl
@[simp] theorem setHk_link (f : Hk → Hk) : (setHk f s).link = s.link := rfl
@[simp] theorem setHk_cfg (f : Hk → Hk) : (setHk f s).cfg = s.cfg := rfl
@[simp] theorem setHk_axes (f : Hk → Hk) : (setHk f s).axes = s.axes := rfl
@[simp] theorem setHk_enc (f : Hk → Hk) : (setHk f s).enc = s.enc := rfl
@[simp] theorem setHk_hall (f : Hk → Hk) : (setHk f s).hall = s.hall := rfl
@[simp] theorem setHk_cmp (f : Hk → Hk) : (setHk f s).cmp = s.cmp := rfl
@[simp] theorem setHk_echo (f : Hk → Hk) : (setHk f s).echo = s.echo := rfl
@[simp] theorem setHk_cams (f : Hk → Hk) : (setHk f s).cams = s.cams := rfl
@[simp] theorem setHk_isp (f : Hk → Hk) : (setHk f s).isp = s.isp := rfl
@[simp] theorem setHk_light (f : Hk → Hk) : (setHk f s).light = s.light := rfl
@[simp] theorem setHk_zip (f : Hk → Hk) : (setHk f s).zip = s.zip := rfl
@[simp] theorem setHk_scenes (f : Hk → Hk) : (setHk f s).scenes = s.scenes := rfl
@[simp] theorem setHk_edp (f : Hk → Hk) : (setHk f s).edp = s.edp := rfl
@[simp] theorem setHk_recorder (f : Hk → Hk) : (setHk f s).recorder = s.recorder := rfl
@[simp] theorem setHk_sent (f : Hk → Hk) : (setHk f s).sent = s.sent := rfl
@[simp] theorem setHk_free (f : Hk → Hk) : (setHk f s).free = s.free := rfl
@[simp] theorem setHk_pending (f : Hk → Hk) : (setHk f s).pending = s.pending := rfl
@[simp] theorem setHk_now (f : Hk → Hk) : (setHk f s).now = s.now := rfl

@[simp] theorem setLaneCal_hk (l : Nat) (f : LaneCal → LaneCal) : (setLaneCal l f s).hk =
    { s.hk with lanes := modUnit s.hk.lanes l f } := rfl
@[simp] theorem setLaneCal_ident (l : Nat) (f : LaneCal → LaneCal) : (setLaneCal l f s).ident = s.ident := rfl
@[simp] theorem setLaneCal_pins (l : Nat) (f : LaneCal → LaneCal) : (setLaneCal l f s).pins = s.pins := rfl
@[simp] theorem setLaneCal_power (l : Nat) (f : LaneCal → LaneCal) : (setLaneCal l f s).power = s.power := rfl
@[simp] theorem setLaneCal_permit (l : Nat) (f : LaneCal → LaneCal) : (setLaneCal l f s).permit = s.permit := rfl
@[simp] theorem setLaneCal_boot (l : Nat) (f : LaneCal → LaneCal) : (setLaneCal l f s).boot = s.boot := rfl
@[simp] theorem setLaneCal_members (l : Nat) (f : LaneCal → LaneCal) : (setLaneCal l f s).members = s.members := rfl
@[simp] theorem setLaneCal_profile (l : Nat) (f : LaneCal → LaneCal) : (setLaneCal l f s).profile = s.profile := rfl
@[simp] theorem setLaneCal_time (l : Nat) (f : LaneCal → LaneCal) : (setLaneCal l f s).time = s.time := rfl
@[simp] theorem setLaneCal_basin (l : Nat) (f : LaneCal → LaneCal) : (setLaneCal l f s).basin = s.basin := rfl
@[simp] theorem setLaneCal_hostq (l : Nat) (f : LaneCal → LaneCal) : (setLaneCal l f s).hostq = s.hostq := rfl
@[simp] theorem setLaneCal_events (l : Nat) (f : LaneCal → LaneCal) : (setLaneCal l f s).events = s.events := rfl
@[simp] theorem setLaneCal_access (l : Nat) (f : LaneCal → LaneCal) : (setLaneCal l f s).access = s.access := rfl
@[simp] theorem setLaneCal_mgmt (l : Nat) (f : LaneCal → LaneCal) : (setLaneCal l f s).mgmt = s.mgmt := rfl
@[simp] theorem setLaneCal_still (l : Nat) (f : LaneCal → LaneCal) : (setLaneCal l f s).still = s.still := rfl
@[simp] theorem setLaneCal_override (l : Nat) (f : LaneCal → LaneCal) : (setLaneCal l f s).override = s.override := rfl
@[simp] theorem setLaneCal_staging (l : Nat) (f : LaneCal → LaneCal) : (setLaneCal l f s).staging = s.staging := rfl
@[simp] theorem setLaneCal_waiting (l : Nat) (f : LaneCal → LaneCal) : (setLaneCal l f s).waiting = s.waiting := rfl
@[simp] theorem setLaneCal_jobs (l : Nat) (f : LaneCal → LaneCal) : (setLaneCal l f s).jobs = s.jobs := rfl
@[simp] theorem setLaneCal_lanes (l : Nat) (f : LaneCal → LaneCal) : (setLaneCal l f s).lanes = s.lanes := rfl
@[simp] theorem setLaneCal_tarns (l : Nat) (f : LaneCal → LaneCal) : (setLaneCal l f s).tarns = s.tarns := rfl
@[simp] theorem setLaneCal_curves (l : Nat) (f : LaneCal → LaneCal) : (setLaneCal l f s).curves = s.curves := rfl
@[simp] theorem setLaneCal_mere (l : Nat) (f : LaneCal → LaneCal) : (setLaneCal l f s).mere = s.mere := rfl
@[simp] theorem setLaneCal_prox (l : Nat) (f : LaneCal → LaneCal) : (setLaneCal l f s).prox = s.prox := rfl
@[simp] theorem setLaneCal_link (l : Nat) (f : LaneCal → LaneCal) : (setLaneCal l f s).link = s.link := rfl
@[simp] theorem setLaneCal_cfg (l : Nat) (f : LaneCal → LaneCal) : (setLaneCal l f s).cfg = s.cfg := rfl
@[simp] theorem setLaneCal_axes (l : Nat) (f : LaneCal → LaneCal) : (setLaneCal l f s).axes = s.axes := rfl
@[simp] theorem setLaneCal_enc (l : Nat) (f : LaneCal → LaneCal) : (setLaneCal l f s).enc = s.enc := rfl
@[simp] theorem setLaneCal_hall (l : Nat) (f : LaneCal → LaneCal) : (setLaneCal l f s).hall = s.hall := rfl
@[simp] theorem setLaneCal_cmp (l : Nat) (f : LaneCal → LaneCal) : (setLaneCal l f s).cmp = s.cmp := rfl
@[simp] theorem setLaneCal_echo (l : Nat) (f : LaneCal → LaneCal) : (setLaneCal l f s).echo = s.echo := rfl
@[simp] theorem setLaneCal_cams (l : Nat) (f : LaneCal → LaneCal) : (setLaneCal l f s).cams = s.cams := rfl
@[simp] theorem setLaneCal_isp (l : Nat) (f : LaneCal → LaneCal) : (setLaneCal l f s).isp = s.isp := rfl
@[simp] theorem setLaneCal_light (l : Nat) (f : LaneCal → LaneCal) : (setLaneCal l f s).light = s.light := rfl
@[simp] theorem setLaneCal_zip (l : Nat) (f : LaneCal → LaneCal) : (setLaneCal l f s).zip = s.zip := rfl
@[simp] theorem setLaneCal_scenes (l : Nat) (f : LaneCal → LaneCal) : (setLaneCal l f s).scenes = s.scenes := rfl
@[simp] theorem setLaneCal_edp (l : Nat) (f : LaneCal → LaneCal) : (setLaneCal l f s).edp = s.edp := rfl
@[simp] theorem setLaneCal_recorder (l : Nat) (f : LaneCal → LaneCal) : (setLaneCal l f s).recorder = s.recorder := rfl
@[simp] theorem setLaneCal_sent (l : Nat) (f : LaneCal → LaneCal) : (setLaneCal l f s).sent = s.sent := rfl
@[simp] theorem setLaneCal_free (l : Nat) (f : LaneCal → LaneCal) : (setLaneCal l f s).free = s.free := rfl
@[simp] theorem setLaneCal_pending (l : Nat) (f : LaneCal → LaneCal) : (setLaneCal l f s).pending = s.pending := rfl
@[simp] theorem setLaneCal_now (l : Nat) (f : LaneCal → LaneCal) : (setLaneCal l f s).now = s.now := rfl

@[simp] theorem setKind_hk (k : Nat) (f : CalKind → CalKind) : (setKind k f s).hk =
    { s.hk with kinds := modUnit s.hk.kinds k f } := rfl
@[simp] theorem setKind_ident (k : Nat) (f : CalKind → CalKind) : (setKind k f s).ident = s.ident := rfl
@[simp] theorem setKind_pins (k : Nat) (f : CalKind → CalKind) : (setKind k f s).pins = s.pins := rfl
@[simp] theorem setKind_power (k : Nat) (f : CalKind → CalKind) : (setKind k f s).power = s.power := rfl
@[simp] theorem setKind_permit (k : Nat) (f : CalKind → CalKind) : (setKind k f s).permit = s.permit := rfl
@[simp] theorem setKind_boot (k : Nat) (f : CalKind → CalKind) : (setKind k f s).boot = s.boot := rfl
@[simp] theorem setKind_members (k : Nat) (f : CalKind → CalKind) : (setKind k f s).members = s.members := rfl
@[simp] theorem setKind_profile (k : Nat) (f : CalKind → CalKind) : (setKind k f s).profile = s.profile := rfl
@[simp] theorem setKind_time (k : Nat) (f : CalKind → CalKind) : (setKind k f s).time = s.time := rfl
@[simp] theorem setKind_basin (k : Nat) (f : CalKind → CalKind) : (setKind k f s).basin = s.basin := rfl
@[simp] theorem setKind_hostq (k : Nat) (f : CalKind → CalKind) : (setKind k f s).hostq = s.hostq := rfl
@[simp] theorem setKind_events (k : Nat) (f : CalKind → CalKind) : (setKind k f s).events = s.events := rfl
@[simp] theorem setKind_access (k : Nat) (f : CalKind → CalKind) : (setKind k f s).access = s.access := rfl
@[simp] theorem setKind_mgmt (k : Nat) (f : CalKind → CalKind) : (setKind k f s).mgmt = s.mgmt := rfl
@[simp] theorem setKind_still (k : Nat) (f : CalKind → CalKind) : (setKind k f s).still = s.still := rfl
@[simp] theorem setKind_override (k : Nat) (f : CalKind → CalKind) : (setKind k f s).override = s.override := rfl
@[simp] theorem setKind_staging (k : Nat) (f : CalKind → CalKind) : (setKind k f s).staging = s.staging := rfl
@[simp] theorem setKind_waiting (k : Nat) (f : CalKind → CalKind) : (setKind k f s).waiting = s.waiting := rfl
@[simp] theorem setKind_jobs (k : Nat) (f : CalKind → CalKind) : (setKind k f s).jobs = s.jobs := rfl
@[simp] theorem setKind_lanes (k : Nat) (f : CalKind → CalKind) : (setKind k f s).lanes = s.lanes := rfl
@[simp] theorem setKind_tarns (k : Nat) (f : CalKind → CalKind) : (setKind k f s).tarns = s.tarns := rfl
@[simp] theorem setKind_curves (k : Nat) (f : CalKind → CalKind) : (setKind k f s).curves = s.curves := rfl
@[simp] theorem setKind_mere (k : Nat) (f : CalKind → CalKind) : (setKind k f s).mere = s.mere := rfl
@[simp] theorem setKind_prox (k : Nat) (f : CalKind → CalKind) : (setKind k f s).prox = s.prox := rfl
@[simp] theorem setKind_link (k : Nat) (f : CalKind → CalKind) : (setKind k f s).link = s.link := rfl
@[simp] theorem setKind_cfg (k : Nat) (f : CalKind → CalKind) : (setKind k f s).cfg = s.cfg := rfl
@[simp] theorem setKind_axes (k : Nat) (f : CalKind → CalKind) : (setKind k f s).axes = s.axes := rfl
@[simp] theorem setKind_enc (k : Nat) (f : CalKind → CalKind) : (setKind k f s).enc = s.enc := rfl
@[simp] theorem setKind_hall (k : Nat) (f : CalKind → CalKind) : (setKind k f s).hall = s.hall := rfl
@[simp] theorem setKind_cmp (k : Nat) (f : CalKind → CalKind) : (setKind k f s).cmp = s.cmp := rfl
@[simp] theorem setKind_echo (k : Nat) (f : CalKind → CalKind) : (setKind k f s).echo = s.echo := rfl
@[simp] theorem setKind_cams (k : Nat) (f : CalKind → CalKind) : (setKind k f s).cams = s.cams := rfl
@[simp] theorem setKind_isp (k : Nat) (f : CalKind → CalKind) : (setKind k f s).isp = s.isp := rfl
@[simp] theorem setKind_light (k : Nat) (f : CalKind → CalKind) : (setKind k f s).light = s.light := rfl
@[simp] theorem setKind_zip (k : Nat) (f : CalKind → CalKind) : (setKind k f s).zip = s.zip := rfl
@[simp] theorem setKind_scenes (k : Nat) (f : CalKind → CalKind) : (setKind k f s).scenes = s.scenes := rfl
@[simp] theorem setKind_edp (k : Nat) (f : CalKind → CalKind) : (setKind k f s).edp = s.edp := rfl
@[simp] theorem setKind_recorder (k : Nat) (f : CalKind → CalKind) : (setKind k f s).recorder = s.recorder := rfl
@[simp] theorem setKind_sent (k : Nat) (f : CalKind → CalKind) : (setKind k f s).sent = s.sent := rfl
@[simp] theorem setKind_free (k : Nat) (f : CalKind → CalKind) : (setKind k f s).free = s.free := rfl
@[simp] theorem setKind_pending (k : Nat) (f : CalKind → CalKind) : (setKind k f s).pending = s.pending := rfl
@[simp] theorem setKind_now (k : Nat) (f : CalKind → CalKind) : (setKind k f s).now = s.now := rfl

@[simp] theorem setCam_cams (p : Nat) (f : Cam → Cam) : (setCam p f s).cams =
    modUnit s.cams p f := rfl
@[simp] theorem setCam_ident (p : Nat) (f : Cam → Cam) : (setCam p f s).ident = s.ident := rfl
@[simp] theorem setCam_pins (p : Nat) (f : Cam → Cam) : (setCam p f s).pins = s.pins := rfl
@[simp] theorem setCam_power (p : Nat) (f : Cam → Cam) : (setCam p f s).power = s.power := rfl
@[simp] theorem setCam_permit (p : Nat) (f : Cam → Cam) : (setCam p f s).permit = s.permit := rfl
@[simp] theorem setCam_boot (p : Nat) (f : Cam → Cam) : (setCam p f s).boot = s.boot := rfl
@[simp] theorem setCam_members (p : Nat) (f : Cam → Cam) : (setCam p f s).members = s.members := rfl
@[simp] theorem setCam_profile (p : Nat) (f : Cam → Cam) : (setCam p f s).profile = s.profile := rfl
@[simp] theorem setCam_time (p : Nat) (f : Cam → Cam) : (setCam p f s).time = s.time := rfl
@[simp] theorem setCam_basin (p : Nat) (f : Cam → Cam) : (setCam p f s).basin = s.basin := rfl
@[simp] theorem setCam_hostq (p : Nat) (f : Cam → Cam) : (setCam p f s).hostq = s.hostq := rfl
@[simp] theorem setCam_events (p : Nat) (f : Cam → Cam) : (setCam p f s).events = s.events := rfl
@[simp] theorem setCam_access (p : Nat) (f : Cam → Cam) : (setCam p f s).access = s.access := rfl
@[simp] theorem setCam_mgmt (p : Nat) (f : Cam → Cam) : (setCam p f s).mgmt = s.mgmt := rfl
@[simp] theorem setCam_still (p : Nat) (f : Cam → Cam) : (setCam p f s).still = s.still := rfl
@[simp] theorem setCam_override (p : Nat) (f : Cam → Cam) : (setCam p f s).override = s.override := rfl
@[simp] theorem setCam_staging (p : Nat) (f : Cam → Cam) : (setCam p f s).staging = s.staging := rfl
@[simp] theorem setCam_waiting (p : Nat) (f : Cam → Cam) : (setCam p f s).waiting = s.waiting := rfl
@[simp] theorem setCam_jobs (p : Nat) (f : Cam → Cam) : (setCam p f s).jobs = s.jobs := rfl
@[simp] theorem setCam_lanes (p : Nat) (f : Cam → Cam) : (setCam p f s).lanes = s.lanes := rfl
@[simp] theorem setCam_tarns (p : Nat) (f : Cam → Cam) : (setCam p f s).tarns = s.tarns := rfl
@[simp] theorem setCam_curves (p : Nat) (f : Cam → Cam) : (setCam p f s).curves = s.curves := rfl
@[simp] theorem setCam_mere (p : Nat) (f : Cam → Cam) : (setCam p f s).mere = s.mere := rfl
@[simp] theorem setCam_prox (p : Nat) (f : Cam → Cam) : (setCam p f s).prox = s.prox := rfl
@[simp] theorem setCam_link (p : Nat) (f : Cam → Cam) : (setCam p f s).link = s.link := rfl
@[simp] theorem setCam_cfg (p : Nat) (f : Cam → Cam) : (setCam p f s).cfg = s.cfg := rfl
@[simp] theorem setCam_axes (p : Nat) (f : Cam → Cam) : (setCam p f s).axes = s.axes := rfl
@[simp] theorem setCam_enc (p : Nat) (f : Cam → Cam) : (setCam p f s).enc = s.enc := rfl
@[simp] theorem setCam_hall (p : Nat) (f : Cam → Cam) : (setCam p f s).hall = s.hall := rfl
@[simp] theorem setCam_cmp (p : Nat) (f : Cam → Cam) : (setCam p f s).cmp = s.cmp := rfl
@[simp] theorem setCam_echo (p : Nat) (f : Cam → Cam) : (setCam p f s).echo = s.echo := rfl
@[simp] theorem setCam_hk (p : Nat) (f : Cam → Cam) : (setCam p f s).hk = s.hk := rfl
@[simp] theorem setCam_isp (p : Nat) (f : Cam → Cam) : (setCam p f s).isp = s.isp := rfl
@[simp] theorem setCam_light (p : Nat) (f : Cam → Cam) : (setCam p f s).light = s.light := rfl
@[simp] theorem setCam_zip (p : Nat) (f : Cam → Cam) : (setCam p f s).zip = s.zip := rfl
@[simp] theorem setCam_scenes (p : Nat) (f : Cam → Cam) : (setCam p f s).scenes = s.scenes := rfl
@[simp] theorem setCam_edp (p : Nat) (f : Cam → Cam) : (setCam p f s).edp = s.edp := rfl
@[simp] theorem setCam_recorder (p : Nat) (f : Cam → Cam) : (setCam p f s).recorder = s.recorder := rfl
@[simp] theorem setCam_sent (p : Nat) (f : Cam → Cam) : (setCam p f s).sent = s.sent := rfl
@[simp] theorem setCam_free (p : Nat) (f : Cam → Cam) : (setCam p f s).free = s.free := rfl
@[simp] theorem setCam_pending (p : Nat) (f : Cam → Cam) : (setCam p f s).pending = s.pending := rfl
@[simp] theorem setCam_now (p : Nat) (f : Cam → Cam) : (setCam p f s).now = s.now := rfl

@[simp] theorem setIsp_isp (f : Isp → Isp) : (setIsp f s).isp =
    f s.isp := rfl
@[simp] theorem setIsp_ident (f : Isp → Isp) : (setIsp f s).ident = s.ident := rfl
@[simp] theorem setIsp_pins (f : Isp → Isp) : (setIsp f s).pins = s.pins := rfl
@[simp] theorem setIsp_power (f : Isp → Isp) : (setIsp f s).power = s.power := rfl
@[simp] theorem setIsp_permit (f : Isp → Isp) : (setIsp f s).permit = s.permit := rfl
@[simp] theorem setIsp_boot (f : Isp → Isp) : (setIsp f s).boot = s.boot := rfl
@[simp] theorem setIsp_members (f : Isp → Isp) : (setIsp f s).members = s.members := rfl
@[simp] theorem setIsp_profile (f : Isp → Isp) : (setIsp f s).profile = s.profile := rfl
@[simp] theorem setIsp_time (f : Isp → Isp) : (setIsp f s).time = s.time := rfl
@[simp] theorem setIsp_basin (f : Isp → Isp) : (setIsp f s).basin = s.basin := rfl
@[simp] theorem setIsp_hostq (f : Isp → Isp) : (setIsp f s).hostq = s.hostq := rfl
@[simp] theorem setIsp_events (f : Isp → Isp) : (setIsp f s).events = s.events := rfl
@[simp] theorem setIsp_access (f : Isp → Isp) : (setIsp f s).access = s.access := rfl
@[simp] theorem setIsp_mgmt (f : Isp → Isp) : (setIsp f s).mgmt = s.mgmt := rfl
@[simp] theorem setIsp_still (f : Isp → Isp) : (setIsp f s).still = s.still := rfl
@[simp] theorem setIsp_override (f : Isp → Isp) : (setIsp f s).override = s.override := rfl
@[simp] theorem setIsp_staging (f : Isp → Isp) : (setIsp f s).staging = s.staging := rfl
@[simp] theorem setIsp_waiting (f : Isp → Isp) : (setIsp f s).waiting = s.waiting := rfl
@[simp] theorem setIsp_jobs (f : Isp → Isp) : (setIsp f s).jobs = s.jobs := rfl
@[simp] theorem setIsp_lanes (f : Isp → Isp) : (setIsp f s).lanes = s.lanes := rfl
@[simp] theorem setIsp_tarns (f : Isp → Isp) : (setIsp f s).tarns = s.tarns := rfl
@[simp] theorem setIsp_curves (f : Isp → Isp) : (setIsp f s).curves = s.curves := rfl
@[simp] theorem setIsp_mere (f : Isp → Isp) : (setIsp f s).mere = s.mere := rfl
@[simp] theorem setIsp_prox (f : Isp → Isp) : (setIsp f s).prox = s.prox := rfl
@[simp] theorem setIsp_link (f : Isp → Isp) : (setIsp f s).link = s.link := rfl
@[simp] theorem setIsp_cfg (f : Isp → Isp) : (setIsp f s).cfg = s.cfg := rfl
@[simp] theorem setIsp_axes (f : Isp → Isp) : (setIsp f s).axes = s.axes := rfl
@[simp] theorem setIsp_enc (f : Isp → Isp) : (setIsp f s).enc = s.enc := rfl
@[simp] theorem setIsp_hall (f : Isp → Isp) : (setIsp f s).hall = s.hall := rfl
@[simp] theorem setIsp_cmp (f : Isp → Isp) : (setIsp f s).cmp = s.cmp := rfl
@[simp] theorem setIsp_echo (f : Isp → Isp) : (setIsp f s).echo = s.echo := rfl
@[simp] theorem setIsp_hk (f : Isp → Isp) : (setIsp f s).hk = s.hk := rfl
@[simp] theorem setIsp_cams (f : Isp → Isp) : (setIsp f s).cams = s.cams := rfl
@[simp] theorem setIsp_light (f : Isp → Isp) : (setIsp f s).light = s.light := rfl
@[simp] theorem setIsp_zip (f : Isp → Isp) : (setIsp f s).zip = s.zip := rfl
@[simp] theorem setIsp_scenes (f : Isp → Isp) : (setIsp f s).scenes = s.scenes := rfl
@[simp] theorem setIsp_edp (f : Isp → Isp) : (setIsp f s).edp = s.edp := rfl
@[simp] theorem setIsp_recorder (f : Isp → Isp) : (setIsp f s).recorder = s.recorder := rfl
@[simp] theorem setIsp_sent (f : Isp → Isp) : (setIsp f s).sent = s.sent := rfl
@[simp] theorem setIsp_free (f : Isp → Isp) : (setIsp f s).free = s.free := rfl
@[simp] theorem setIsp_pending (f : Isp → Isp) : (setIsp f s).pending = s.pending := rfl
@[simp] theorem setIsp_now (f : Isp → Isp) : (setIsp f s).now = s.now := rfl

@[simp] theorem setLed_light (c : Nat) (f : Led → Led) : (setLed c f s).light =
    { s.light with leds := modUnit s.light.leds c f } := rfl
@[simp] theorem setLed_ident (c : Nat) (f : Led → Led) : (setLed c f s).ident = s.ident := rfl
@[simp] theorem setLed_pins (c : Nat) (f : Led → Led) : (setLed c f s).pins = s.pins := rfl
@[simp] theorem setLed_power (c : Nat) (f : Led → Led) : (setLed c f s).power = s.power := rfl
@[simp] theorem setLed_permit (c : Nat) (f : Led → Led) : (setLed c f s).permit = s.permit := rfl
@[simp] theorem setLed_boot (c : Nat) (f : Led → Led) : (setLed c f s).boot = s.boot := rfl
@[simp] theorem setLed_members (c : Nat) (f : Led → Led) : (setLed c f s).members = s.members := rfl
@[simp] theorem setLed_profile (c : Nat) (f : Led → Led) : (setLed c f s).profile = s.profile := rfl
@[simp] theorem setLed_time (c : Nat) (f : Led → Led) : (setLed c f s).time = s.time := rfl
@[simp] theorem setLed_basin (c : Nat) (f : Led → Led) : (setLed c f s).basin = s.basin := rfl
@[simp] theorem setLed_hostq (c : Nat) (f : Led → Led) : (setLed c f s).hostq = s.hostq := rfl
@[simp] theorem setLed_events (c : Nat) (f : Led → Led) : (setLed c f s).events = s.events := rfl
@[simp] theorem setLed_access (c : Nat) (f : Led → Led) : (setLed c f s).access = s.access := rfl
@[simp] theorem setLed_mgmt (c : Nat) (f : Led → Led) : (setLed c f s).mgmt = s.mgmt := rfl
@[simp] theorem setLed_still (c : Nat) (f : Led → Led) : (setLed c f s).still = s.still := rfl
@[simp] theorem setLed_override (c : Nat) (f : Led → Led) : (setLed c f s).override = s.override := rfl
@[simp] theorem setLed_staging (c : Nat) (f : Led → Led) : (setLed c f s).staging = s.staging := rfl
@[simp] theorem setLed_waiting (c : Nat) (f : Led → Led) : (setLed c f s).waiting = s.waiting := rfl
@[simp] theorem setLed_jobs (c : Nat) (f : Led → Led) : (setLed c f s).jobs = s.jobs := rfl
@[simp] theorem setLed_lanes (c : Nat) (f : Led → Led) : (setLed c f s).lanes = s.lanes := rfl
@[simp] theorem setLed_tarns (c : Nat) (f : Led → Led) : (setLed c f s).tarns = s.tarns := rfl
@[simp] theorem setLed_curves (c : Nat) (f : Led → Led) : (setLed c f s).curves = s.curves := rfl
@[simp] theorem setLed_mere (c : Nat) (f : Led → Led) : (setLed c f s).mere = s.mere := rfl
@[simp] theorem setLed_prox (c : Nat) (f : Led → Led) : (setLed c f s).prox = s.prox := rfl
@[simp] theorem setLed_link (c : Nat) (f : Led → Led) : (setLed c f s).link = s.link := rfl
@[simp] theorem setLed_cfg (c : Nat) (f : Led → Led) : (setLed c f s).cfg = s.cfg := rfl
@[simp] theorem setLed_axes (c : Nat) (f : Led → Led) : (setLed c f s).axes = s.axes := rfl
@[simp] theorem setLed_enc (c : Nat) (f : Led → Led) : (setLed c f s).enc = s.enc := rfl
@[simp] theorem setLed_hall (c : Nat) (f : Led → Led) : (setLed c f s).hall = s.hall := rfl
@[simp] theorem setLed_cmp (c : Nat) (f : Led → Led) : (setLed c f s).cmp = s.cmp := rfl
@[simp] theorem setLed_echo (c : Nat) (f : Led → Led) : (setLed c f s).echo = s.echo := rfl
@[simp] theorem setLed_hk (c : Nat) (f : Led → Led) : (setLed c f s).hk = s.hk := rfl
@[simp] theorem setLed_cams (c : Nat) (f : Led → Led) : (setLed c f s).cams = s.cams := rfl
@[simp] theorem setLed_isp (c : Nat) (f : Led → Led) : (setLed c f s).isp = s.isp := rfl
@[simp] theorem setLed_zip (c : Nat) (f : Led → Led) : (setLed c f s).zip = s.zip := rfl
@[simp] theorem setLed_scenes (c : Nat) (f : Led → Led) : (setLed c f s).scenes = s.scenes := rfl
@[simp] theorem setLed_edp (c : Nat) (f : Led → Led) : (setLed c f s).edp = s.edp := rfl
@[simp] theorem setLed_recorder (c : Nat) (f : Led → Led) : (setLed c f s).recorder = s.recorder := rfl
@[simp] theorem setLed_sent (c : Nat) (f : Led → Led) : (setLed c f s).sent = s.sent := rfl
@[simp] theorem setLed_free (c : Nat) (f : Led → Led) : (setLed c f s).free = s.free := rfl
@[simp] theorem setLed_pending (c : Nat) (f : Led → Led) : (setLed c f s).pending = s.pending := rfl
@[simp] theorem setLed_now (c : Nat) (f : Led → Led) : (setLed c f s).now = s.now := rfl

@[simp] theorem setMatrix_light (f : Matrix → Matrix) : (setMatrix f s).light =
    { s.light with matrix := f s.light.matrix } := rfl
@[simp] theorem setMatrix_ident (f : Matrix → Matrix) : (setMatrix f s).ident = s.ident := rfl
@[simp] theorem setMatrix_pins (f : Matrix → Matrix) : (setMatrix f s).pins = s.pins := rfl
@[simp] theorem setMatrix_power (f : Matrix → Matrix) : (setMatrix f s).power = s.power := rfl
@[simp] theorem setMatrix_permit (f : Matrix → Matrix) : (setMatrix f s).permit = s.permit := rfl
@[simp] theorem setMatrix_boot (f : Matrix → Matrix) : (setMatrix f s).boot = s.boot := rfl
@[simp] theorem setMatrix_members (f : Matrix → Matrix) : (setMatrix f s).members = s.members := rfl
@[simp] theorem setMatrix_profile (f : Matrix → Matrix) : (setMatrix f s).profile = s.profile := rfl
@[simp] theorem setMatrix_time (f : Matrix → Matrix) : (setMatrix f s).time = s.time := rfl
@[simp] theorem setMatrix_basin (f : Matrix → Matrix) : (setMatrix f s).basin = s.basin := rfl
@[simp] theorem setMatrix_hostq (f : Matrix → Matrix) : (setMatrix f s).hostq = s.hostq := rfl
@[simp] theorem setMatrix_events (f : Matrix → Matrix) : (setMatrix f s).events = s.events := rfl
@[simp] theorem setMatrix_access (f : Matrix → Matrix) : (setMatrix f s).access = s.access := rfl
@[simp] theorem setMatrix_mgmt (f : Matrix → Matrix) : (setMatrix f s).mgmt = s.mgmt := rfl
@[simp] theorem setMatrix_still (f : Matrix → Matrix) : (setMatrix f s).still = s.still := rfl
@[simp] theorem setMatrix_override (f : Matrix → Matrix) : (setMatrix f s).override = s.override := rfl
@[simp] theorem setMatrix_staging (f : Matrix → Matrix) : (setMatrix f s).staging = s.staging := rfl
@[simp] theorem setMatrix_waiting (f : Matrix → Matrix) : (setMatrix f s).waiting = s.waiting := rfl
@[simp] theorem setMatrix_jobs (f : Matrix → Matrix) : (setMatrix f s).jobs = s.jobs := rfl
@[simp] theorem setMatrix_lanes (f : Matrix → Matrix) : (setMatrix f s).lanes = s.lanes := rfl
@[simp] theorem setMatrix_tarns (f : Matrix → Matrix) : (setMatrix f s).tarns = s.tarns := rfl
@[simp] theorem setMatrix_curves (f : Matrix → Matrix) : (setMatrix f s).curves = s.curves := rfl
@[simp] theorem setMatrix_mere (f : Matrix → Matrix) : (setMatrix f s).mere = s.mere := rfl
@[simp] theorem setMatrix_prox (f : Matrix → Matrix) : (setMatrix f s).prox = s.prox := rfl
@[simp] theorem setMatrix_link (f : Matrix → Matrix) : (setMatrix f s).link = s.link := rfl
@[simp] theorem setMatrix_cfg (f : Matrix → Matrix) : (setMatrix f s).cfg = s.cfg := rfl
@[simp] theorem setMatrix_axes (f : Matrix → Matrix) : (setMatrix f s).axes = s.axes := rfl
@[simp] theorem setMatrix_enc (f : Matrix → Matrix) : (setMatrix f s).enc = s.enc := rfl
@[simp] theorem setMatrix_hall (f : Matrix → Matrix) : (setMatrix f s).hall = s.hall := rfl
@[simp] theorem setMatrix_cmp (f : Matrix → Matrix) : (setMatrix f s).cmp = s.cmp := rfl
@[simp] theorem setMatrix_echo (f : Matrix → Matrix) : (setMatrix f s).echo = s.echo := rfl
@[simp] theorem setMatrix_hk (f : Matrix → Matrix) : (setMatrix f s).hk = s.hk := rfl
@[simp] theorem setMatrix_cams (f : Matrix → Matrix) : (setMatrix f s).cams = s.cams := rfl
@[simp] theorem setMatrix_isp (f : Matrix → Matrix) : (setMatrix f s).isp = s.isp := rfl
@[simp] theorem setMatrix_zip (f : Matrix → Matrix) : (setMatrix f s).zip = s.zip := rfl
@[simp] theorem setMatrix_scenes (f : Matrix → Matrix) : (setMatrix f s).scenes = s.scenes := rfl
@[simp] theorem setMatrix_edp (f : Matrix → Matrix) : (setMatrix f s).edp = s.edp := rfl
@[simp] theorem setMatrix_recorder (f : Matrix → Matrix) : (setMatrix f s).recorder = s.recorder := rfl
@[simp] theorem setMatrix_sent (f : Matrix → Matrix) : (setMatrix f s).sent = s.sent := rfl
@[simp] theorem setMatrix_free (f : Matrix → Matrix) : (setMatrix f s).free = s.free := rfl
@[simp] theorem setMatrix_pending (f : Matrix → Matrix) : (setMatrix f s).pending = s.pending := rfl
@[simp] theorem setMatrix_now (f : Matrix → Matrix) : (setMatrix f s).now = s.now := rfl

@[simp] theorem setZip_zip (c : Nat) (f : ZipChan → ZipChan) : (setZip c f s).zip =
    { s.zip with chans := modUnit s.zip.chans c f } := rfl
@[simp] theorem setZip_ident (c : Nat) (f : ZipChan → ZipChan) : (setZip c f s).ident = s.ident := rfl
@[simp] theorem setZip_pins (c : Nat) (f : ZipChan → ZipChan) : (setZip c f s).pins = s.pins := rfl
@[simp] theorem setZip_power (c : Nat) (f : ZipChan → ZipChan) : (setZip c f s).power = s.power := rfl
@[simp] theorem setZip_permit (c : Nat) (f : ZipChan → ZipChan) : (setZip c f s).permit = s.permit := rfl
@[simp] theorem setZip_boot (c : Nat) (f : ZipChan → ZipChan) : (setZip c f s).boot = s.boot := rfl
@[simp] theorem setZip_members (c : Nat) (f : ZipChan → ZipChan) : (setZip c f s).members = s.members := rfl
@[simp] theorem setZip_profile (c : Nat) (f : ZipChan → ZipChan) : (setZip c f s).profile = s.profile := rfl
@[simp] theorem setZip_time (c : Nat) (f : ZipChan → ZipChan) : (setZip c f s).time = s.time := rfl
@[simp] theorem setZip_basin (c : Nat) (f : ZipChan → ZipChan) : (setZip c f s).basin = s.basin := rfl
@[simp] theorem setZip_hostq (c : Nat) (f : ZipChan → ZipChan) : (setZip c f s).hostq = s.hostq := rfl
@[simp] theorem setZip_events (c : Nat) (f : ZipChan → ZipChan) : (setZip c f s).events = s.events := rfl
@[simp] theorem setZip_access (c : Nat) (f : ZipChan → ZipChan) : (setZip c f s).access = s.access := rfl
@[simp] theorem setZip_mgmt (c : Nat) (f : ZipChan → ZipChan) : (setZip c f s).mgmt = s.mgmt := rfl
@[simp] theorem setZip_still (c : Nat) (f : ZipChan → ZipChan) : (setZip c f s).still = s.still := rfl
@[simp] theorem setZip_override (c : Nat) (f : ZipChan → ZipChan) : (setZip c f s).override = s.override := rfl
@[simp] theorem setZip_staging (c : Nat) (f : ZipChan → ZipChan) : (setZip c f s).staging = s.staging := rfl
@[simp] theorem setZip_waiting (c : Nat) (f : ZipChan → ZipChan) : (setZip c f s).waiting = s.waiting := rfl
@[simp] theorem setZip_jobs (c : Nat) (f : ZipChan → ZipChan) : (setZip c f s).jobs = s.jobs := rfl
@[simp] theorem setZip_lanes (c : Nat) (f : ZipChan → ZipChan) : (setZip c f s).lanes = s.lanes := rfl
@[simp] theorem setZip_tarns (c : Nat) (f : ZipChan → ZipChan) : (setZip c f s).tarns = s.tarns := rfl
@[simp] theorem setZip_curves (c : Nat) (f : ZipChan → ZipChan) : (setZip c f s).curves = s.curves := rfl
@[simp] theorem setZip_mere (c : Nat) (f : ZipChan → ZipChan) : (setZip c f s).mere = s.mere := rfl
@[simp] theorem setZip_prox (c : Nat) (f : ZipChan → ZipChan) : (setZip c f s).prox = s.prox := rfl
@[simp] theorem setZip_link (c : Nat) (f : ZipChan → ZipChan) : (setZip c f s).link = s.link := rfl
@[simp] theorem setZip_cfg (c : Nat) (f : ZipChan → ZipChan) : (setZip c f s).cfg = s.cfg := rfl
@[simp] theorem setZip_axes (c : Nat) (f : ZipChan → ZipChan) : (setZip c f s).axes = s.axes := rfl
@[simp] theorem setZip_enc (c : Nat) (f : ZipChan → ZipChan) : (setZip c f s).enc = s.enc := rfl
@[simp] theorem setZip_hall (c : Nat) (f : ZipChan → ZipChan) : (setZip c f s).hall = s.hall := rfl
@[simp] theorem setZip_cmp (c : Nat) (f : ZipChan → ZipChan) : (setZip c f s).cmp = s.cmp := rfl
@[simp] theorem setZip_echo (c : Nat) (f : ZipChan → ZipChan) : (setZip c f s).echo = s.echo := rfl
@[simp] theorem setZip_hk (c : Nat) (f : ZipChan → ZipChan) : (setZip c f s).hk = s.hk := rfl
@[simp] theorem setZip_cams (c : Nat) (f : ZipChan → ZipChan) : (setZip c f s).cams = s.cams := rfl
@[simp] theorem setZip_isp (c : Nat) (f : ZipChan → ZipChan) : (setZip c f s).isp = s.isp := rfl
@[simp] theorem setZip_light (c : Nat) (f : ZipChan → ZipChan) : (setZip c f s).light = s.light := rfl
@[simp] theorem setZip_scenes (c : Nat) (f : ZipChan → ZipChan) : (setZip c f s).scenes = s.scenes := rfl
@[simp] theorem setZip_edp (c : Nat) (f : ZipChan → ZipChan) : (setZip c f s).edp = s.edp := rfl
@[simp] theorem setZip_recorder (c : Nat) (f : ZipChan → ZipChan) : (setZip c f s).recorder = s.recorder := rfl
@[simp] theorem setZip_sent (c : Nat) (f : ZipChan → ZipChan) : (setZip c f s).sent = s.sent := rfl
@[simp] theorem setZip_free (c : Nat) (f : ZipChan → ZipChan) : (setZip c f s).free = s.free := rfl
@[simp] theorem setZip_pending (c : Nat) (f : ZipChan → ZipChan) : (setZip c f s).pending = s.pending := rfl
@[simp] theorem setZip_now (c : Nat) (f : ZipChan → ZipChan) : (setZip c f s).now = s.now := rfl

@[simp] theorem setScene_scenes (k : Nat) (f : Scene → Scene) : (setScene k f s).scenes =
    modUnit s.scenes k f := rfl
@[simp] theorem setScene_ident (k : Nat) (f : Scene → Scene) : (setScene k f s).ident = s.ident := rfl
@[simp] theorem setScene_pins (k : Nat) (f : Scene → Scene) : (setScene k f s).pins = s.pins := rfl
@[simp] theorem setScene_power (k : Nat) (f : Scene → Scene) : (setScene k f s).power = s.power := rfl
@[simp] theorem setScene_permit (k : Nat) (f : Scene → Scene) : (setScene k f s).permit = s.permit := rfl
@[simp] theorem setScene_boot (k : Nat) (f : Scene → Scene) : (setScene k f s).boot = s.boot := rfl
@[simp] theorem setScene_members (k : Nat) (f : Scene → Scene) : (setScene k f s).members = s.members := rfl
@[simp] theorem setScene_profile (k : Nat) (f : Scene → Scene) : (setScene k f s).profile = s.profile := rfl
@[simp] theorem setScene_time (k : Nat) (f : Scene → Scene) : (setScene k f s).time = s.time := rfl
@[simp] theorem setScene_basin (k : Nat) (f : Scene → Scene) : (setScene k f s).basin = s.basin := rfl
@[simp] theorem setScene_hostq (k : Nat) (f : Scene → Scene) : (setScene k f s).hostq = s.hostq := rfl
@[simp] theorem setScene_events (k : Nat) (f : Scene → Scene) : (setScene k f s).events = s.events := rfl
@[simp] theorem setScene_access (k : Nat) (f : Scene → Scene) : (setScene k f s).access = s.access := rfl
@[simp] theorem setScene_mgmt (k : Nat) (f : Scene → Scene) : (setScene k f s).mgmt = s.mgmt := rfl
@[simp] theorem setScene_still (k : Nat) (f : Scene → Scene) : (setScene k f s).still = s.still := rfl
@[simp] theorem setScene_override (k : Nat) (f : Scene → Scene) : (setScene k f s).override = s.override := rfl
@[simp] theorem setScene_staging (k : Nat) (f : Scene → Scene) : (setScene k f s).staging = s.staging := rfl
@[simp] theorem setScene_waiting (k : Nat) (f : Scene → Scene) : (setScene k f s).waiting = s.waiting := rfl
@[simp] theorem setScene_jobs (k : Nat) (f : Scene → Scene) : (setScene k f s).jobs = s.jobs := rfl
@[simp] theorem setScene_lanes (k : Nat) (f : Scene → Scene) : (setScene k f s).lanes = s.lanes := rfl
@[simp] theorem setScene_tarns (k : Nat) (f : Scene → Scene) : (setScene k f s).tarns = s.tarns := rfl
@[simp] theorem setScene_curves (k : Nat) (f : Scene → Scene) : (setScene k f s).curves = s.curves := rfl
@[simp] theorem setScene_mere (k : Nat) (f : Scene → Scene) : (setScene k f s).mere = s.mere := rfl
@[simp] theorem setScene_prox (k : Nat) (f : Scene → Scene) : (setScene k f s).prox = s.prox := rfl
@[simp] theorem setScene_link (k : Nat) (f : Scene → Scene) : (setScene k f s).link = s.link := rfl
@[simp] theorem setScene_cfg (k : Nat) (f : Scene → Scene) : (setScene k f s).cfg = s.cfg := rfl
@[simp] theorem setScene_axes (k : Nat) (f : Scene → Scene) : (setScene k f s).axes = s.axes := rfl
@[simp] theorem setScene_enc (k : Nat) (f : Scene → Scene) : (setScene k f s).enc = s.enc := rfl
@[simp] theorem setScene_hall (k : Nat) (f : Scene → Scene) : (setScene k f s).hall = s.hall := rfl
@[simp] theorem setScene_cmp (k : Nat) (f : Scene → Scene) : (setScene k f s).cmp = s.cmp := rfl
@[simp] theorem setScene_echo (k : Nat) (f : Scene → Scene) : (setScene k f s).echo = s.echo := rfl
@[simp] theorem setScene_hk (k : Nat) (f : Scene → Scene) : (setScene k f s).hk = s.hk := rfl
@[simp] theorem setScene_cams (k : Nat) (f : Scene → Scene) : (setScene k f s).cams = s.cams := rfl
@[simp] theorem setScene_isp (k : Nat) (f : Scene → Scene) : (setScene k f s).isp = s.isp := rfl
@[simp] theorem setScene_light (k : Nat) (f : Scene → Scene) : (setScene k f s).light = s.light := rfl
@[simp] theorem setScene_zip (k : Nat) (f : Scene → Scene) : (setScene k f s).zip = s.zip := rfl
@[simp] theorem setScene_edp (k : Nat) (f : Scene → Scene) : (setScene k f s).edp = s.edp := rfl
@[simp] theorem setScene_recorder (k : Nat) (f : Scene → Scene) : (setScene k f s).recorder = s.recorder := rfl
@[simp] theorem setScene_sent (k : Nat) (f : Scene → Scene) : (setScene k f s).sent = s.sent := rfl
@[simp] theorem setScene_free (k : Nat) (f : Scene → Scene) : (setScene k f s).free = s.free := rfl
@[simp] theorem setScene_pending (k : Nat) (f : Scene → Scene) : (setScene k f s).pending = s.pending := rfl
@[simp] theorem setScene_now (k : Nat) (f : Scene → Scene) : (setScene k f s).now = s.now := rfl

@[simp] theorem setEdp_edp (f : Edp → Edp) : (setEdp f s).edp =
    f s.edp := rfl
@[simp] theorem setEdp_ident (f : Edp → Edp) : (setEdp f s).ident = s.ident := rfl
@[simp] theorem setEdp_pins (f : Edp → Edp) : (setEdp f s).pins = s.pins := rfl
@[simp] theorem setEdp_power (f : Edp → Edp) : (setEdp f s).power = s.power := rfl
@[simp] theorem setEdp_permit (f : Edp → Edp) : (setEdp f s).permit = s.permit := rfl
@[simp] theorem setEdp_boot (f : Edp → Edp) : (setEdp f s).boot = s.boot := rfl
@[simp] theorem setEdp_members (f : Edp → Edp) : (setEdp f s).members = s.members := rfl
@[simp] theorem setEdp_profile (f : Edp → Edp) : (setEdp f s).profile = s.profile := rfl
@[simp] theorem setEdp_time (f : Edp → Edp) : (setEdp f s).time = s.time := rfl
@[simp] theorem setEdp_basin (f : Edp → Edp) : (setEdp f s).basin = s.basin := rfl
@[simp] theorem setEdp_hostq (f : Edp → Edp) : (setEdp f s).hostq = s.hostq := rfl
@[simp] theorem setEdp_events (f : Edp → Edp) : (setEdp f s).events = s.events := rfl
@[simp] theorem setEdp_access (f : Edp → Edp) : (setEdp f s).access = s.access := rfl
@[simp] theorem setEdp_mgmt (f : Edp → Edp) : (setEdp f s).mgmt = s.mgmt := rfl
@[simp] theorem setEdp_still (f : Edp → Edp) : (setEdp f s).still = s.still := rfl
@[simp] theorem setEdp_override (f : Edp → Edp) : (setEdp f s).override = s.override := rfl
@[simp] theorem setEdp_staging (f : Edp → Edp) : (setEdp f s).staging = s.staging := rfl
@[simp] theorem setEdp_waiting (f : Edp → Edp) : (setEdp f s).waiting = s.waiting := rfl
@[simp] theorem setEdp_jobs (f : Edp → Edp) : (setEdp f s).jobs = s.jobs := rfl
@[simp] theorem setEdp_lanes (f : Edp → Edp) : (setEdp f s).lanes = s.lanes := rfl
@[simp] theorem setEdp_tarns (f : Edp → Edp) : (setEdp f s).tarns = s.tarns := rfl
@[simp] theorem setEdp_curves (f : Edp → Edp) : (setEdp f s).curves = s.curves := rfl
@[simp] theorem setEdp_mere (f : Edp → Edp) : (setEdp f s).mere = s.mere := rfl
@[simp] theorem setEdp_prox (f : Edp → Edp) : (setEdp f s).prox = s.prox := rfl
@[simp] theorem setEdp_link (f : Edp → Edp) : (setEdp f s).link = s.link := rfl
@[simp] theorem setEdp_cfg (f : Edp → Edp) : (setEdp f s).cfg = s.cfg := rfl
@[simp] theorem setEdp_axes (f : Edp → Edp) : (setEdp f s).axes = s.axes := rfl
@[simp] theorem setEdp_enc (f : Edp → Edp) : (setEdp f s).enc = s.enc := rfl
@[simp] theorem setEdp_hall (f : Edp → Edp) : (setEdp f s).hall = s.hall := rfl
@[simp] theorem setEdp_cmp (f : Edp → Edp) : (setEdp f s).cmp = s.cmp := rfl
@[simp] theorem setEdp_echo (f : Edp → Edp) : (setEdp f s).echo = s.echo := rfl
@[simp] theorem setEdp_hk (f : Edp → Edp) : (setEdp f s).hk = s.hk := rfl
@[simp] theorem setEdp_cams (f : Edp → Edp) : (setEdp f s).cams = s.cams := rfl
@[simp] theorem setEdp_isp (f : Edp → Edp) : (setEdp f s).isp = s.isp := rfl
@[simp] theorem setEdp_light (f : Edp → Edp) : (setEdp f s).light = s.light := rfl
@[simp] theorem setEdp_zip (f : Edp → Edp) : (setEdp f s).zip = s.zip := rfl
@[simp] theorem setEdp_scenes (f : Edp → Edp) : (setEdp f s).scenes = s.scenes := rfl
@[simp] theorem setEdp_recorder (f : Edp → Edp) : (setEdp f s).recorder = s.recorder := rfl
@[simp] theorem setEdp_sent (f : Edp → Edp) : (setEdp f s).sent = s.sent := rfl
@[simp] theorem setEdp_free (f : Edp → Edp) : (setEdp f s).free = s.free := rfl
@[simp] theorem setEdp_pending (f : Edp → Edp) : (setEdp f s).pending = s.pending := rfl
@[simp] theorem setEdp_now (f : Edp → Edp) : (setEdp f s).now = s.now := rfl

@[simp] theorem setRecorder_recorder (f : Recorder → Recorder) : (setRecorder f s).recorder =
    f s.recorder := rfl
@[simp] theorem setRecorder_ident (f : Recorder → Recorder) : (setRecorder f s).ident = s.ident := rfl
@[simp] theorem setRecorder_pins (f : Recorder → Recorder) : (setRecorder f s).pins = s.pins := rfl
@[simp] theorem setRecorder_power (f : Recorder → Recorder) : (setRecorder f s).power = s.power := rfl
@[simp] theorem setRecorder_permit (f : Recorder → Recorder) : (setRecorder f s).permit = s.permit := rfl
@[simp] theorem setRecorder_boot (f : Recorder → Recorder) : (setRecorder f s).boot = s.boot := rfl
@[simp] theorem setRecorder_members (f : Recorder → Recorder) : (setRecorder f s).members = s.members := rfl
@[simp] theorem setRecorder_profile (f : Recorder → Recorder) : (setRecorder f s).profile = s.profile := rfl
@[simp] theorem setRecorder_time (f : Recorder → Recorder) : (setRecorder f s).time = s.time := rfl
@[simp] theorem setRecorder_basin (f : Recorder → Recorder) : (setRecorder f s).basin = s.basin := rfl
@[simp] theorem setRecorder_hostq (f : Recorder → Recorder) : (setRecorder f s).hostq = s.hostq := rfl
@[simp] theorem setRecorder_events (f : Recorder → Recorder) : (setRecorder f s).events = s.events := rfl
@[simp] theorem setRecorder_access (f : Recorder → Recorder) : (setRecorder f s).access = s.access := rfl
@[simp] theorem setRecorder_mgmt (f : Recorder → Recorder) : (setRecorder f s).mgmt = s.mgmt := rfl
@[simp] theorem setRecorder_still (f : Recorder → Recorder) : (setRecorder f s).still = s.still := rfl
@[simp] theorem setRecorder_override (f : Recorder → Recorder) : (setRecorder f s).override = s.override := rfl
@[simp] theorem setRecorder_staging (f : Recorder → Recorder) : (setRecorder f s).staging = s.staging := rfl
@[simp] theorem setRecorder_waiting (f : Recorder → Recorder) : (setRecorder f s).waiting = s.waiting := rfl
@[simp] theorem setRecorder_jobs (f : Recorder → Recorder) : (setRecorder f s).jobs = s.jobs := rfl
@[simp] theorem setRecorder_lanes (f : Recorder → Recorder) : (setRecorder f s).lanes = s.lanes := rfl
@[simp] theorem setRecorder_tarns (f : Recorder → Recorder) : (setRecorder f s).tarns = s.tarns := rfl
@[simp] theorem setRecorder_curves (f : Recorder → Recorder) : (setRecorder f s).curves = s.curves := rfl
@[simp] theorem setRecorder_mere (f : Recorder → Recorder) : (setRecorder f s).mere = s.mere := rfl
@[simp] theorem setRecorder_prox (f : Recorder → Recorder) : (setRecorder f s).prox = s.prox := rfl
@[simp] theorem setRecorder_link (f : Recorder → Recorder) : (setRecorder f s).link = s.link := rfl
@[simp] theorem setRecorder_cfg (f : Recorder → Recorder) : (setRecorder f s).cfg = s.cfg := rfl
@[simp] theorem setRecorder_axes (f : Recorder → Recorder) : (setRecorder f s).axes = s.axes := rfl
@[simp] theorem setRecorder_enc (f : Recorder → Recorder) : (setRecorder f s).enc = s.enc := rfl
@[simp] theorem setRecorder_hall (f : Recorder → Recorder) : (setRecorder f s).hall = s.hall := rfl
@[simp] theorem setRecorder_cmp (f : Recorder → Recorder) : (setRecorder f s).cmp = s.cmp := rfl
@[simp] theorem setRecorder_echo (f : Recorder → Recorder) : (setRecorder f s).echo = s.echo := rfl
@[simp] theorem setRecorder_hk (f : Recorder → Recorder) : (setRecorder f s).hk = s.hk := rfl
@[simp] theorem setRecorder_cams (f : Recorder → Recorder) : (setRecorder f s).cams = s.cams := rfl
@[simp] theorem setRecorder_isp (f : Recorder → Recorder) : (setRecorder f s).isp = s.isp := rfl
@[simp] theorem setRecorder_light (f : Recorder → Recorder) : (setRecorder f s).light = s.light := rfl
@[simp] theorem setRecorder_zip (f : Recorder → Recorder) : (setRecorder f s).zip = s.zip := rfl
@[simp] theorem setRecorder_scenes (f : Recorder → Recorder) : (setRecorder f s).scenes = s.scenes := rfl
@[simp] theorem setRecorder_edp (f : Recorder → Recorder) : (setRecorder f s).edp = s.edp := rfl
@[simp] theorem setRecorder_sent (f : Recorder → Recorder) : (setRecorder f s).sent = s.sent := rfl
@[simp] theorem setRecorder_free (f : Recorder → Recorder) : (setRecorder f s).free = s.free := rfl
@[simp] theorem setRecorder_pending (f : Recorder → Recorder) : (setRecorder f s).pending = s.pending := rfl
@[simp] theorem setRecorder_now (f : Recorder → Recorder) : (setRecorder f s).now = s.now := rfl

@[simp] theorem setCfg_cfg (off v : Nat) : (setCfg off v s).cfg =
    cfgPut s.cfg off (BitVec.ofNat 32 v) := rfl
@[simp] theorem setCfg_ident (off v : Nat) : (setCfg off v s).ident = s.ident := rfl
@[simp] theorem setCfg_pins (off v : Nat) : (setCfg off v s).pins = s.pins := rfl
@[simp] theorem setCfg_power (off v : Nat) : (setCfg off v s).power = s.power := rfl
@[simp] theorem setCfg_permit (off v : Nat) : (setCfg off v s).permit = s.permit := rfl
@[simp] theorem setCfg_boot (off v : Nat) : (setCfg off v s).boot = s.boot := rfl
@[simp] theorem setCfg_members (off v : Nat) : (setCfg off v s).members = s.members := rfl
@[simp] theorem setCfg_profile (off v : Nat) : (setCfg off v s).profile = s.profile := rfl
@[simp] theorem setCfg_time (off v : Nat) : (setCfg off v s).time = s.time := rfl
@[simp] theorem setCfg_basin (off v : Nat) : (setCfg off v s).basin = s.basin := rfl
@[simp] theorem setCfg_hostq (off v : Nat) : (setCfg off v s).hostq = s.hostq := rfl
@[simp] theorem setCfg_events (off v : Nat) : (setCfg off v s).events = s.events := rfl
@[simp] theorem setCfg_access (off v : Nat) : (setCfg off v s).access = s.access := rfl
@[simp] theorem setCfg_mgmt (off v : Nat) : (setCfg off v s).mgmt = s.mgmt := rfl
@[simp] theorem setCfg_still (off v : Nat) : (setCfg off v s).still = s.still := rfl
@[simp] theorem setCfg_override (off v : Nat) : (setCfg off v s).override = s.override := rfl
@[simp] theorem setCfg_staging (off v : Nat) : (setCfg off v s).staging = s.staging := rfl
@[simp] theorem setCfg_waiting (off v : Nat) : (setCfg off v s).waiting = s.waiting := rfl
@[simp] theorem setCfg_jobs (off v : Nat) : (setCfg off v s).jobs = s.jobs := rfl
@[simp] theorem setCfg_lanes (off v : Nat) : (setCfg off v s).lanes = s.lanes := rfl
@[simp] theorem setCfg_tarns (off v : Nat) : (setCfg off v s).tarns = s.tarns := rfl
@[simp] theorem setCfg_curves (off v : Nat) : (setCfg off v s).curves = s.curves := rfl
@[simp] theorem setCfg_mere (off v : Nat) : (setCfg off v s).mere = s.mere := rfl
@[simp] theorem setCfg_prox (off v : Nat) : (setCfg off v s).prox = s.prox := rfl
@[simp] theorem setCfg_link (off v : Nat) : (setCfg off v s).link = s.link := rfl
@[simp] theorem setCfg_axes (off v : Nat) : (setCfg off v s).axes = s.axes := rfl
@[simp] theorem setCfg_enc (off v : Nat) : (setCfg off v s).enc = s.enc := rfl
@[simp] theorem setCfg_hall (off v : Nat) : (setCfg off v s).hall = s.hall := rfl
@[simp] theorem setCfg_cmp (off v : Nat) : (setCfg off v s).cmp = s.cmp := rfl
@[simp] theorem setCfg_echo (off v : Nat) : (setCfg off v s).echo = s.echo := rfl
@[simp] theorem setCfg_hk (off v : Nat) : (setCfg off v s).hk = s.hk := rfl
@[simp] theorem setCfg_cams (off v : Nat) : (setCfg off v s).cams = s.cams := rfl
@[simp] theorem setCfg_isp (off v : Nat) : (setCfg off v s).isp = s.isp := rfl
@[simp] theorem setCfg_light (off v : Nat) : (setCfg off v s).light = s.light := rfl
@[simp] theorem setCfg_zip (off v : Nat) : (setCfg off v s).zip = s.zip := rfl
@[simp] theorem setCfg_scenes (off v : Nat) : (setCfg off v s).scenes = s.scenes := rfl
@[simp] theorem setCfg_edp (off v : Nat) : (setCfg off v s).edp = s.edp := rfl
@[simp] theorem setCfg_recorder (off v : Nat) : (setCfg off v s).recorder = s.recorder := rfl
@[simp] theorem setCfg_sent (off v : Nat) : (setCfg off v s).sent = s.sent := rfl
@[simp] theorem setCfg_free (off v : Nat) : (setCfg off v s).free = s.free := rfl
@[simp] theorem setCfg_pending (off v : Nat) : (setCfg off v s).pending = s.pending := rfl
@[simp] theorem setCfg_now (off v : Nat) : (setCfg off v s).now = s.now := rfl

@[simp] theorem passTo_now (t : Ns) : (passTo t s).now = max s.now t := rfl

end Sys2Proof.Machine
end

