-- ==== Sys2Proof/Laws/Ops.lean ====
section
/-! SUPPORT. What the shared operations can do: an event, a vector, a write to Basin, the end of a descriptor. Each lemma says once what
an operation leaves as it was, so that no proof unfolds it. -/

namespace Sys2Proof.Machine

/-- Everything but the fields that an event can touch is the same. -/
structure EventFrame (s t : State) : Prop where
  ident : t.ident = s.ident
  pins : t.pins = s.pins
  power : t.power = s.power
  permit : t.permit = s.permit
  boot : t.boot = s.boot
  members : t.members = s.members
  profile : t.profile = s.profile
  time : t.time = s.time
  access : t.access = s.access
  still : t.still = s.still
  override : t.override = s.override
  staging : t.staging = s.staging
  waiting : t.waiting = s.waiting
  jobs : t.jobs = s.jobs
  lanes : t.lanes = s.lanes
  tarns : t.tarns = s.tarns
  curves : t.curves = s.curves
  mere : t.mere = s.mere
  prox : t.prox = s.prox
  link : t.link = s.link
  cfg : t.cfg = s.cfg
  axes : t.axes = s.axes
  enc : t.enc = s.enc
  hall : t.hall = s.hall
  cmp : t.cmp = s.cmp
  echo : t.echo = s.echo
  hk : t.hk = s.hk
  cams : t.cams = s.cams
  isp : t.isp = s.isp
  light : t.light = s.light
  zip : t.zip = s.zip
  scenes : t.scenes = s.scenes
  edp : t.edp = s.edp
  free : t.free = s.free
  pending : t.pending = s.pending

theorem EventFrame.refl (s : State) : EventFrame s s := ⟨rfl, rfl, rfl, rfl, rfl, rfl, rfl, rfl, rfl, rfl, rfl, rfl, rfl, rfl, rfl, rfl, rfl, rfl, rfl, rfl, rfl, rfl, rfl, rfl, rfl, rfl, rfl, rfl, rfl, rfl, rfl, rfl, rfl, rfl, rfl⟩

theorem EventFrame.trans {s t u : State} (h : EventFrame s t) (k : EventFrame t u) : EventFrame s u :=
  ⟨k.ident.trans h.ident,
    k.pins.trans h.pins,
    k.power.trans h.power,
    k.permit.trans h.permit,
    k.boot.trans h.boot,
    k.members.trans h.members,
    k.profile.trans h.profile,
    k.time.trans h.time,
    k.access.trans h.access,
    k.still.trans h.still,
    k.override.trans h.override,
    k.staging.trans h.staging,
    k.waiting.trans h.waiting,
    k.jobs.trans h.jobs,
    k.lanes.trans h.lanes,
    k.tarns.trans h.tarns,
    k.curves.trans h.curves,
    k.mere.trans h.mere,
    k.prox.trans h.prox,
    k.link.trans h.link,
    k.cfg.trans h.cfg,
    k.axes.trans h.axes,
    k.enc.trans h.enc,
    k.hall.trans h.hall,
    k.cmp.trans h.cmp,
    k.echo.trans h.echo,
    k.hk.trans h.hk,
    k.cams.trans h.cams,
    k.isp.trans h.isp,
    k.light.trans h.light,
    k.zip.trans h.zip,
    k.scenes.trans h.scenes,
    k.edp.trans h.edp,
    k.free.trans h.free,
    k.pending.trans h.pending⟩

theorem fireVector_frame (v : Nat) (s : State) : EventFrame s (fireVector v s) := by
  unfold fireVector
  dsimp only
  split <;> split <;> exact ⟨rfl, rfl, rfl, rfl, rfl, rfl, rfl, rfl, rfl, rfl, rfl, rfl, rfl, rfl, rfl, rfl, rfl, rfl, rfl, rfl, rfl, rfl, rfl, rfl, rfl, rfl, rfl, rfl, rfl, rfl, rfl, rfl, rfl, rfl, rfl⟩

theorem memPut_frame (a : Nat) (bs : List Byte) (s : State) : EventFrame s (memPut a bs s) := ⟨rfl, rfl, rfl, rfl, rfl, rfl, rfl, rfl, rfl, rfl, rfl, rfl, rfl, rfl, rfl, rfl, rfl, rfl, rfl, rfl, rfl, rfl, rfl, rfl, rfl, rfl, rfl, rfl, rfl, rfl, rfl, rfl, rfl, rfl, rfl⟩

theorem putEvent_frame (v c : Nat) (d : List Byte) (s : State) : EventFrame s (putEvent v c d s) := by
  unfold putEvent
  dsimp only
  split <;> exact ⟨rfl, rfl, rfl, rfl, rfl, rfl, rfl, rfl, rfl, rfl, rfl, rfl, rfl, rfl, rfl, rfl, rfl, rfl, rfl, rfl, rfl, rfl, rfl, rfl, rfl, rfl, rfl, rfl, rfl, rfl, rfl, rfl, rfl, rfl, rfl⟩

theorem events_frame (s : State) (e : EventRing) : EventFrame s { s with events := e } := ⟨rfl, rfl, rfl, rfl, rfl, rfl, rfl, rfl, rfl, rfl, rfl, rfl, rfl, rfl, rfl, rfl, rfl, rfl, rfl, rfl, rfl, rfl, rfl, rfl, rfl, rfl, rfl, rfl, rfl, rfl, rfl, rfl, rfl, rfl, rfl⟩

theorem putOverflow_frame (s : State) : EventFrame s (putOverflow s) := by
  unfold putOverflow
  split
  · exact EventFrame.refl s
  · dsimp only
    exact ((events_frame s _).trans (putEvent_frame _ _ _ _)).trans (fireVector_frame _ _)

theorem raiseOn_frame (v c : Nat) (d : List Byte) (s : State) : EventFrame s (raiseOn v c d s) := by
  unfold raiseOn
  have h := ((putOverflow_frame s).trans (putEvent_frame v c d _)).trans (fireVector_frame v _)
  dsimp only
  split
  · exact h.trans (fireVector_frame 40 _)
  · exact h

/-- An event changes only the event ring, Basin, the vectors, the recorder's count and what is sent. -/
theorem raise_frame (c : Nat) (d : List Byte) (s : State) : EventFrame s (raise c d s) := raiseOn_frame _ c d s

theorem raiseTarn_frame (t c : Nat) (d : List Byte) (s : State) : EventFrame s (raiseTarn t c d s) := raiseOn_frame _ c d s

@[simp] theorem raise_ident (c : Nat) (d : List Byte) (s : State) : (raise c d s).ident = s.ident := (raise_frame c d s).ident
@[simp] theorem raise_pins (c : Nat) (d : List Byte) (s : State) : (raise c d s).pins = s.pins := (raise_frame c d s).pins
@[simp] theorem raise_power (c : Nat) (d : List Byte) (s : State) : (raise c d s).power = s.power := (raise_frame c d s).power
@[simp] theorem raise_permit (c : Nat) (d : List Byte) (s : State) : (raise c d s).permit = s.permit := (raise_frame c d s).permit
@[simp] theorem raise_boot (c : Nat) (d : List Byte) (s : State) : (raise c d s).boot = s.boot := (raise_frame c d s).boot
@[simp] theorem raise_members (c : Nat) (d : List Byte) (s : State) : (raise c d s).members = s.members := (raise_frame c d s).members
@[simp] theorem raise_profile (c : Nat) (d : List Byte) (s : State) : (raise c d s).profile = s.profile := (raise_frame c d s).profile
@[simp] theorem raise_time (c : Nat) (d : List Byte) (s : State) : (raise c d s).time = s.time := (raise_frame c d s).time
@[simp] theorem raise_access (c : Nat) (d : List Byte) (s : State) : (raise c d s).access = s.access := (raise_frame c d s).access
@[simp] theorem raise_still (c : Nat) (d : List Byte) (s : State) : (raise c d s).still = s.still := (raise_frame c d s).still
@[simp] theorem raise_override (c : Nat) (d : List Byte) (s : State) : (raise c d s).override = s.override := (raise_frame c d s).override
@[simp] theorem raise_staging (c : Nat) (d : List Byte) (s : State) : (raise c d s).staging = s.staging := (raise_frame c d s).staging
@[simp] theorem raise_waiting (c : Nat) (d : List Byte) (s : State) : (raise c d s).waiting = s.waiting := (raise_frame c d s).waiting
@[simp] theorem raise_jobs (c : Nat) (d : List Byte) (s : State) : (raise c d s).jobs = s.jobs := (raise_frame c d s).jobs
@[simp] theorem raise_lanes (c : Nat) (d : List Byte) (s : State) : (raise c d s).lanes = s.lanes := (raise_frame c d s).lanes
@[simp] theorem raise_tarns (c : Nat) (d : List Byte) (s : State) : (raise c d s).tarns = s.tarns := (raise_frame c d s).tarns
@[simp] theorem raise_curves (c : Nat) (d : List Byte) (s : State) : (raise c d s).curves = s.curves := (raise_frame c d s).curves
@[simp] theorem raise_mere (c : Nat) (d : List Byte) (s : State) : (raise c d s).mere = s.mere := (raise_frame c d s).mere
@[simp] theorem raise_prox (c : Nat) (d : List Byte) (s : State) : (raise c d s).prox = s.prox := (raise_frame c d s).prox
@[simp] theorem raise_link (c : Nat) (d : List Byte) (s : State) : (raise c d s).link = s.link := (raise_frame c d s).link
@[simp] theorem raise_cfg (c : Nat) (d : List Byte) (s : State) : (raise c d s).cfg = s.cfg := (raise_frame c d s).cfg
@[simp] theorem raise_axes (c : Nat) (d : List Byte) (s : State) : (raise c d s).axes = s.axes := (raise_frame c d s).axes
@[simp] theorem raise_enc (c : Nat) (d : List Byte) (s : State) : (raise c d s).enc = s.enc := (raise_frame c d s).enc
@[simp] theorem raise_hall (c : Nat) (d : List Byte) (s : State) : (raise c d s).hall = s.hall := (raise_frame c d s).hall
@[simp] theorem raise_cmp (c : Nat) (d : List Byte) (s : State) : (raise c d s).cmp = s.cmp := (raise_frame c d s).cmp
@[simp] theorem raise_echo (c : Nat) (d : List Byte) (s : State) : (raise c d s).echo = s.echo := (raise_frame c d s).echo
@[simp] theorem raise_hk (c : Nat) (d : List Byte) (s : State) : (raise c d s).hk = s.hk := (raise_frame c d s).hk
@[simp] theorem raise_cams (c : Nat) (d : List Byte) (s : State) : (raise c d s).cams = s.cams := (raise_frame c d s).cams
@[simp] theorem raise_isp (c : Nat) (d : List Byte) (s : State) : (raise c d s).isp = s.isp := (raise_frame c d s).isp
@[simp] theorem raise_light (c : Nat) (d : List Byte) (s : State) : (raise c d s).light = s.light := (raise_frame c d s).light
@[simp] theorem raise_zip (c : Nat) (d : List Byte) (s : State) : (raise c d s).zip = s.zip := (raise_frame c d s).zip
@[simp] theorem raise_scenes (c : Nat) (d : List Byte) (s : State) : (raise c d s).scenes = s.scenes := (raise_frame c d s).scenes
@[simp] theorem raise_edp (c : Nat) (d : List Byte) (s : State) : (raise c d s).edp = s.edp := (raise_frame c d s).edp
@[simp] theorem raise_free (c : Nat) (d : List Byte) (s : State) : (raise c d s).free = s.free := (raise_frame c d s).free
@[simp] theorem raise_pending (c : Nat) (d : List Byte) (s : State) : (raise c d s).pending = s.pending := (raise_frame c d s).pending
@[simp] theorem raise_now (c : Nat) (d : List Byte) (s : State) : (raise c d s).now = s.now := congrArg (·.clock.now) (raise_frame c d s).time

@[simp] theorem raiseTarn_ident (t c : Nat) (d : List Byte) (s : State) : (raiseTarn t c d s).ident = s.ident := (raiseTarn_frame t c d s).ident
@[simp] theorem raiseTarn_pins (t c : Nat) (d : List Byte) (s : State) : (raiseTarn t c d s).pins = s.pins := (raiseTarn_frame t c d s).pins
@[simp] theorem raiseTarn_power (t c : Nat) (d : List Byte) (s : State) : (raiseTarn t c d s).power = s.power := (raiseTarn_frame t c d s).power
@[simp] theorem raiseTarn_permit (t c : Nat) (d : List Byte) (s : State) : (raiseTarn t c d s).permit = s.permit := (raiseTarn_frame t c d s).permit
@[simp] theorem raiseTarn_boot (t c : Nat) (d : List Byte) (s : State) : (raiseTarn t c d s).boot = s.boot := (raiseTarn_frame t c d s).boot
@[simp] theorem raiseTarn_members (t c : Nat) (d : List Byte) (s : State) : (raiseTarn t c d s).members = s.members := (raiseTarn_frame t c d s).members
@[simp] theorem raiseTarn_profile (t c : Nat) (d : List Byte) (s : State) : (raiseTarn t c d s).profile = s.profile := (raiseTarn_frame t c d s).profile
@[simp] theorem raiseTarn_time (t c : Nat) (d : List Byte) (s : State) : (raiseTarn t c d s).time = s.time := (raiseTarn_frame t c d s).time
@[simp] theorem raiseTarn_access (t c : Nat) (d : List Byte) (s : State) : (raiseTarn t c d s).access = s.access := (raiseTarn_frame t c d s).access
@[simp] theorem raiseTarn_still (t c : Nat) (d : List Byte) (s : State) : (raiseTarn t c d s).still = s.still := (raiseTarn_frame t c d s).still
@[simp] theorem raiseTarn_override (t c : Nat) (d : List Byte) (s : State) : (raiseTarn t c d s).override = s.override := (raiseTarn_frame t c d s).override
@[simp] theorem raiseTarn_staging (t c : Nat) (d : List Byte) (s : State) : (raiseTarn t c d s).staging = s.staging := (raiseTarn_frame t c d s).staging
@[simp] theorem raiseTarn_waiting (t c : Nat) (d : List Byte) (s : State) : (raiseTarn t c d s).waiting = s.waiting := (raiseTarn_frame t c d s).waiting
@[simp] theorem raiseTarn_jobs (t c : Nat) (d : List Byte) (s : State) : (raiseTarn t c d s).jobs = s.jobs := (raiseTarn_frame t c d s).jobs
@[simp] theorem raiseTarn_lanes (t c : Nat) (d : List Byte) (s : State) : (raiseTarn t c d s).lanes = s.lanes := (raiseTarn_frame t c d s).lanes
@[simp] theorem raiseTarn_tarns (t c : Nat) (d : List Byte) (s : State) : (raiseTarn t c d s).tarns = s.tarns := (raiseTarn_frame t c d s).tarns
@[simp] theorem raiseTarn_curves (t c : Nat) (d : List Byte) (s : State) : (raiseTarn t c d s).curves = s.curves := (raiseTarn_frame t c d s).curves
@[simp] theorem raiseTarn_mere (t c : Nat) (d : List Byte) (s : State) : (raiseTarn t c d s).mere = s.mere := (raiseTarn_frame t c d s).mere
@[simp] theorem raiseTarn_prox (t c : Nat) (d : List Byte) (s : State) : (raiseTarn t c d s).prox = s.prox := (raiseTarn_frame t c d s).prox
@[simp] theorem raiseTarn_link (t c : Nat) (d : List Byte) (s : State) : (raiseTarn t c d s).link = s.link := (raiseTarn_frame t c d s).link
@[simp] theorem raiseTarn_cfg (t c : Nat) (d : List Byte) (s : State) : (raiseTarn t c d s).cfg = s.cfg := (raiseTarn_frame t c d s).cfg
@[simp] theorem raiseTarn_axes (t c : Nat) (d : List Byte) (s : State) : (raiseTarn t c d s).axes = s.axes := (raiseTarn_frame t c d s).axes
@[simp] theorem raiseTarn_enc (t c : Nat) (d : List Byte) (s : State) : (raiseTarn t c d s).enc = s.enc := (raiseTarn_frame t c d s).enc
@[simp] theorem raiseTarn_hall (t c : Nat) (d : List Byte) (s : State) : (raiseTarn t c d s).hall = s.hall := (raiseTarn_frame t c d s).hall
@[simp] theorem raiseTarn_cmp (t c : Nat) (d : List Byte) (s : State) : (raiseTarn t c d s).cmp = s.cmp := (raiseTarn_frame t c d s).cmp
@[simp] theorem raiseTarn_echo (t c : Nat) (d : List Byte) (s : State) : (raiseTarn t c d s).echo = s.echo := (raiseTarn_frame t c d s).echo
@[simp] theorem raiseTarn_hk (t c : Nat) (d : List Byte) (s : State) : (raiseTarn t c d s).hk = s.hk := (raiseTarn_frame t c d s).hk
@[simp] theorem raiseTarn_cams (t c : Nat) (d : List Byte) (s : State) : (raiseTarn t c d s).cams = s.cams := (raiseTarn_frame t c d s).cams
@[simp] theorem raiseTarn_isp (t c : Nat) (d : List Byte) (s : State) : (raiseTarn t c d s).isp = s.isp := (raiseTarn_frame t c d s).isp
@[simp] theorem raiseTarn_light (t c : Nat) (d : List Byte) (s : State) : (raiseTarn t c d s).light = s.light := (raiseTarn_frame t c d s).light
@[simp] theorem raiseTarn_zip (t c : Nat) (d : List Byte) (s : State) : (raiseTarn t c d s).zip = s.zip := (raiseTarn_frame t c d s).zip
@[simp] theorem raiseTarn_scenes (t c : Nat) (d : List Byte) (s : State) : (raiseTarn t c d s).scenes = s.scenes := (raiseTarn_frame t c d s).scenes
@[simp] theorem raiseTarn_edp (t c : Nat) (d : List Byte) (s : State) : (raiseTarn t c d s).edp = s.edp := (raiseTarn_frame t c d s).edp
@[simp] theorem raiseTarn_free (t c : Nat) (d : List Byte) (s : State) : (raiseTarn t c d s).free = s.free := (raiseTarn_frame t c d s).free
@[simp] theorem raiseTarn_pending (t c : Nat) (d : List Byte) (s : State) : (raiseTarn t c d s).pending = s.pending := (raiseTarn_frame t c d s).pending
@[simp] theorem raiseTarn_now (t c : Nat) (d : List Byte) (s : State) : (raiseTarn t c d s).now = s.now := congrArg (·.clock.now) (raiseTarn_frame t c d s).time

@[simp] theorem fireVector_ident (v : Nat) (s : State) : (fireVector v s).ident = s.ident := (fireVector_frame v s).ident
@[simp] theorem fireVector_pins (v : Nat) (s : State) : (fireVector v s).pins = s.pins := (fireVector_frame v s).pins
@[simp] theorem fireVector_power (v : Nat) (s : State) : (fireVector v s).power = s.power := (fireVector_frame v s).power
@[simp] theorem fireVector_permit (v : Nat) (s : State) : (fireVector v s).permit = s.permit := (fireVector_frame v s).permit
@[simp] theorem fireVector_boot (v : Nat) (s : State) : (fireVector v s).boot = s.boot := (fireVector_frame v s).boot
@[simp] theorem fireVector_members (v : Nat) (s : State) : (fireVector v s).members = s.members := (fireVector_frame v s).members
@[simp] theorem fireVector_profile (v : Nat) (s : State) : (fireVector v s).profile = s.profile := (fireVector_frame v s).profile
@[simp] theorem fireVector_time (v : Nat) (s : State) : (fireVector v s).time = s.time := (fireVector_frame v s).time
@[simp] theorem fireVector_access (v : Nat) (s : State) : (fireVector v s).access = s.access := (fireVector_frame v s).access
@[simp] theorem fireVector_still (v : Nat) (s : State) : (fireVector v s).still = s.still := (fireVector_frame v s).still
@[simp] theorem fireVector_override (v : Nat) (s : State) : (fireVector v s).override = s.override := (fireVector_frame v s).override
@[simp] theorem fireVector_staging (v : Nat) (s : State) : (fireVector v s).staging = s.staging := (fireVector_frame v s).staging
@[simp] theorem fireVector_waiting (v : Nat) (s : State) : (fireVector v s).waiting = s.waiting := (fireVector_frame v s).waiting
@[simp] theorem fireVector_jobs (v : Nat) (s : State) : (fireVector v s).jobs = s.jobs := (fireVector_frame v s).jobs
@[simp] theorem fireVector_lanes (v : Nat) (s : State) : (fireVector v s).lanes = s.lanes := (fireVector_frame v s).lanes
@[simp] theorem fireVector_tarns (v : Nat) (s : State) : (fireVector v s).tarns = s.tarns := (fireVector_frame v s).tarns
@[simp] theorem fireVector_curves (v : Nat) (s : State) : (fireVector v s).curves = s.curves := (fireVector_frame v s).curves
@[simp] theorem fireVector_mere (v : Nat) (s : State) : (fireVector v s).mere = s.mere := (fireVector_frame v s).mere
@[simp] theorem fireVector_prox (v : Nat) (s : State) : (fireVector v s).prox = s.prox := (fireVector_frame v s).prox
@[simp] theorem fireVector_link (v : Nat) (s : State) : (fireVector v s).link = s.link := (fireVector_frame v s).link
@[simp] theorem fireVector_cfg (v : Nat) (s : State) : (fireVector v s).cfg = s.cfg := (fireVector_frame v s).cfg
@[simp] theorem fireVector_axes (v : Nat) (s : State) : (fireVector v s).axes = s.axes := (fireVector_frame v s).axes
@[simp] theorem fireVector_enc (v : Nat) (s : State) : (fireVector v s).enc = s.enc := (fireVector_frame v s).enc
@[simp] theorem fireVector_hall (v : Nat) (s : State) : (fireVector v s).hall = s.hall := (fireVector_frame v s).hall
@[simp] theorem fireVector_cmp (v : Nat) (s : State) : (fireVector v s).cmp = s.cmp := (fireVector_frame v s).cmp
@[simp] theorem fireVector_echo (v : Nat) (s : State) : (fireVector v s).echo = s.echo := (fireVector_frame v s).echo
@[simp] theorem fireVector_hk (v : Nat) (s : State) : (fireVector v s).hk = s.hk := (fireVector_frame v s).hk
@[simp] theorem fireVector_cams (v : Nat) (s : State) : (fireVector v s).cams = s.cams := (fireVector_frame v s).cams
@[simp] theorem fireVector_isp (v : Nat) (s : State) : (fireVector v s).isp = s.isp := (fireVector_frame v s).isp
@[simp] theorem fireVector_light (v : Nat) (s : State) : (fireVector v s).light = s.light := (fireVector_frame v s).light
@[simp] theorem fireVector_zip (v : Nat) (s : State) : (fireVector v s).zip = s.zip := (fireVector_frame v s).zip
@[simp] theorem fireVector_scenes (v : Nat) (s : State) : (fireVector v s).scenes = s.scenes := (fireVector_frame v s).scenes
@[simp] theorem fireVector_edp (v : Nat) (s : State) : (fireVector v s).edp = s.edp := (fireVector_frame v s).edp
@[simp] theorem fireVector_free (v : Nat) (s : State) : (fireVector v s).free = s.free := (fireVector_frame v s).free
@[simp] theorem fireVector_pending (v : Nat) (s : State) : (fireVector v s).pending = s.pending := (fireVector_frame v s).pending
@[simp] theorem fireVector_now (v : Nat) (s : State) : (fireVector v s).now = s.now := congrArg (·.clock.now) (fireVector_frame v s).time

@[simp] theorem memPut_ident (a : Nat) (bs : List Byte) (s : State) : (memPut a bs s).ident = s.ident := rfl
@[simp] theorem memPut_pins (a : Nat) (bs : List Byte) (s : State) : (memPut a bs s).pins = s.pins := rfl
@[simp] theorem memPut_power (a : Nat) (bs : List Byte) (s : State) : (memPut a bs s).power = s.power := rfl
@[simp] theorem memPut_permit (a : Nat) (bs : List Byte) (s : State) : (memPut a bs s).permit = s.permit := rfl
@[simp] theorem memPut_boot (a : Nat) (bs : List Byte) (s : State) : (memPut a bs s).boot = s.boot := rfl
@[simp] theorem memPut_members (a : Nat) (bs : List Byte) (s : State) : (memPut a bs s).members = s.members := rfl
@[simp] theorem memPut_profile (a : Nat) (bs : List Byte) (s : State) : (memPut a bs s).profile = s.profile := rfl
@[simp] theorem memPut_time (a : Nat) (bs : List Byte) (s : State) : (memPut a bs s).time = s.time := rfl
@[simp] theorem memPut_hostq (a : Nat) (bs : List Byte) (s : State) : (memPut a bs s).hostq = s.hostq := rfl
@[simp] theorem memPut_events (a : Nat) (bs : List Byte) (s : State) : (memPut a bs s).events = s.events := rfl
@[simp] theorem memPut_access (a : Nat) (bs : List Byte) (s : State) : (memPut a bs s).access = s.access := rfl
@[simp] theorem memPut_mgmt (a : Nat) (bs : List Byte) (s : State) : (memPut a bs s).mgmt = s.mgmt := rfl
@[simp] theorem memPut_still (a : Nat) (bs : List Byte) (s : State) : (memPut a bs s).still = s.still := rfl
@[simp] theorem memPut_override (a : Nat) (bs : List Byte) (s : State) : (memPut a bs s).override = s.override := rfl
@[simp] theorem memPut_staging (a : Nat) (bs : List Byte) (s : State) : (memPut a bs s).staging = s.staging := rfl
@[simp] theorem memPut_waiting (a : Nat) (bs : List Byte) (s : State) : (memPut a bs s).waiting = s.waiting := rfl
@[simp] theorem memPut_jobs (a : Nat) (bs : List Byte) (s : State) : (memPut a bs s).jobs = s.jobs := rfl
@[simp] theorem memPut_lanes (a : Nat) (bs : List Byte) (s : State) : (memPut a bs s).lanes = s.lanes := rfl
@[simp] theorem memPut_tarns (a : Nat) (bs : List Byte) (s : State) : (memPut a bs s).tarns = s.tarns := rfl
@[simp] theorem memPut_curves (a : Nat) (bs : List Byte) (s : State) : (memPut a bs s).curves = s.curves := rfl
@[simp] theorem memPut_mere (a : Nat) (bs : List Byte) (s : State) : (memPut a bs s).mere = s.mere := rfl
@[simp] theorem memPut_prox (a : Nat) (bs : List Byte) (s : State) : (memPut a bs s).prox = s.prox := rfl
@[simp] theorem memPut_link (a : Nat) (bs : List Byte) (s : State) : (memPut a bs s).link = s.link := rfl
@[simp] theorem memPut_cfg (a : Nat) (bs : List Byte) (s : State) : (memPut a bs s).cfg = s.cfg := rfl
@[simp] theorem memPut_axes (a : Nat) (bs : List Byte) (s : State) : (memPut a bs s).axes = s.axes := rfl
@[simp] theorem memPut_enc (a : Nat) (bs : List Byte) (s : State) : (memPut a bs s).enc = s.enc := rfl
@[simp] theorem memPut_hall (a : Nat) (bs : List Byte) (s : State) : (memPut a bs s).hall = s.hall := rfl
@[simp] theorem memPut_cmp (a : Nat) (bs : List Byte) (s : State) : (memPut a bs s).cmp = s.cmp := rfl
@[simp] theorem memPut_echo (a : Nat) (bs : List Byte) (s : State) : (memPut a bs s).echo = s.echo := rfl
@[simp] theorem memPut_hk (a : Nat) (bs : List Byte) (s : State) : (memPut a bs s).hk = s.hk := rfl
@[simp] theorem memPut_cams (a : Nat) (bs : List Byte) (s : State) : (memPut a bs s).cams = s.cams := rfl
@[simp] theorem memPut_isp (a : Nat) (bs : List Byte) (s : State) : (memPut a bs s).isp = s.isp := rfl
@[simp] theorem memPut_light (a : Nat) (bs : List Byte) (s : State) : (memPut a bs s).light = s.light := rfl
@[simp] theorem memPut_zip (a : Nat) (bs : List Byte) (s : State) : (memPut a bs s).zip = s.zip := rfl
@[simp] theorem memPut_scenes (a : Nat) (bs : List Byte) (s : State) : (memPut a bs s).scenes = s.scenes := rfl
@[simp] theorem memPut_edp (a : Nat) (bs : List Byte) (s : State) : (memPut a bs s).edp = s.edp := rfl
@[simp] theorem memPut_recorder (a : Nat) (bs : List Byte) (s : State) : (memPut a bs s).recorder = s.recorder := rfl
@[simp] theorem memPut_sent (a : Nat) (bs : List Byte) (s : State) : (memPut a bs s).sent = s.sent := rfl
@[simp] theorem memPut_free (a : Nat) (bs : List Byte) (s : State) : (memPut a bs s).free = s.free := rfl
@[simp] theorem memPut_pending (a : Nat) (bs : List Byte) (s : State) : (memPut a bs s).pending = s.pending := rfl
@[simp] theorem memPut_now (a : Nat) (bs : List Byte) (s : State) : (memPut a bs s).now = s.now := rfl

/-- The contents of Basin are in canonical form. -/
def BasinWf (s : State) : Prop := Mem.wf s.basin.mem = true

theorem memPut_wf {s : State} (a : Nat) (bs : List Byte) (h : BasinWf s) : BasinWf (memPut a bs s) := Mem.writeBytes_wf bs a h

/-- A byte of Basin after bytes have been put there. -/
theorem memPut_read {s : State} (a a' : Nat) (bs : List Byte) (h : BasinWf s) :
    Mem.read (memPut a bs s).basin.mem a' = if a ≤ a' ∧ a' < a + bs.length then unit bs (a' - a) 0 else Mem.read s.basin.mem a' :=
  Mem.read_writeBytes bs a a' h

/-- Only the host's queues differ. -/
def HostqOnly (s t : State) : Prop := t = { s with hostq := t.hostq }

theorem HostqOnly.refl (s : State) : HostqOnly s s := rfl

theorem HostqOnly.trans {s t u : State} (h : HostqOnly s t) (k : HostqOnly t u) : HostqOnly s u := by
  unfold HostqOnly at *
  rw [k, h]

theorem hostq_only (s : State) (q : HostQ) : HostqOnly s { s with hostq := q } := rfl

theorem putFinished_hostq (f : Finished) (s : State) : HostqOnly s (putFinished f s) := by
  unfold putFinished
  split <;> rfl

theorem dropTicket_hostq (r : Ref) (s : State) : HostqOnly s (dropTicket r s) := rfl

theorem markFences_hostq (r : Ref) (st : BitVec 8) (s : State) : HostqOnly s (markFences r st s) := rfl

theorem settleFences_hostq : ∀ (n : Nat) (s : State), HostqOnly s (settleFences n s)
  | 0, s => HostqOnly.refl s
  | n + 1, s => by
    unfold settleFences
    split
    · exact HostqOnly.refl s
    · dsimp only
      split
      · exact ((hostq_only s _).trans ((dropTicket_hostq _ _).trans (markFences_hostq _ _ _))).trans (settleFences_hostq n _)
      · exact ((hostq_only s _).trans (putFinished_hostq _ _)).trans (settleFences_hostq n _)

/-- The end of a descriptor changes only the host's queues. -/
theorem finishAs_hostq (r : Ref) (ctx : Option Nat) (late : Bool) (st detail data : Nat) (s : State) :
    HostqOnly s (finishAs r ctx late st detail data s) := by
  unfold finishAs
  split
  · exact HostqOnly.refl s
  · split
    · exact HostqOnly.refl s
    · split
      · exact ((dropTicket_hostq _ _).trans (markFences_hostq _ _ _)).trans (settleFences_hostq _ _)
      · exact putFinished_hostq _ _

@[simp] theorem finish_ident (r : Ref) (st e d : Nat) (s : State) : (finish r st e d s).ident = s.ident := by rw [finish, finishAs_hostq]
@[simp] theorem endWith_ident (r : Ref) (st : Nat) (s : State) : (endWith r st s).ident = s.ident := by rw [endWith, finish, finishAs_hostq]
@[simp] theorem finish_pins (r : Ref) (st e d : Nat) (s : State) : (finish r st e d s).pins = s.pins := by rw [finish, finishAs_hostq]
@[simp] theorem endWith_pins (r : Ref) (st : Nat) (s : State) : (endWith r st s).pins = s.pins := by rw [endWith, finish, finishAs_hostq]
@[simp] theorem finish_power (r : Ref) (st e d : Nat) (s : State) : (finish r st e d s).power = s.power := by rw [finish, finishAs_hostq]
@[simp] theorem endWith_power (r : Ref) (st : Nat) (s : State) : (endWith r st s).power = s.power := by rw [endWith, finish, finishAs_hostq]
@[simp] theorem finish_permit (r : Ref) (st e d : Nat) (s : State) : (finish r st e d s).permit = s.permit := by rw [finish, finishAs_hostq]
@[simp] theorem endWith_permit (r : Ref) (st : Nat) (s : State) : (endWith r st s).permit = s.permit := by rw [endWith, finish, finishAs_hostq]
@[simp] theorem finish_boot (r : Ref) (st e d : Nat) (s : State) : (finish r st e d s).boot = s.boot := by rw [finish, finishAs_hostq]
@[simp] theorem endWith_boot (r : Ref) (st : Nat) (s : State) : (endWith r st s).boot = s.boot := by rw [endWith, finish, finishAs_hostq]
@[simp] theorem finish_members (r : Ref) (st e d : Nat) (s : State) : (finish r st e d s).members = s.members := by rw [finish, finishAs_hostq]
@[simp] theorem endWith_members (r : Ref) (st : Nat) (s : State) : (endWith r st s).members = s.members := by rw [endWith, finish, finishAs_hostq]
@[simp] theorem finish_profile (r : Ref) (st e d : Nat) (s : State) : (finish r st e d s).profile = s.profile := by rw [finish, finishAs_hostq]
@[simp] theorem endWith_profile (r : Ref) (st : Nat) (s : State) : (endWith r st s).profile = s.profile := by rw [endWith, finish, finishAs_hostq]
@[simp] theorem finish_time (r : Ref) (st e d : Nat) (s : State) : (finish r st e d s).time = s.time := by rw [finish, finishAs_hostq]
@[simp] theorem endWith_time (r : Ref) (st : Nat) (s : State) : (endWith r st s).time = s.time := by rw [endWith, finish, finishAs_hostq]
@[simp] theorem finish_basin (r : Ref) (st e d : Nat) (s : State) : (finish r st e d s).basin = s.basin := by rw [finish, finishAs_hostq]
@[simp] theorem endWith_basin (r : Ref) (st : Nat) (s : State) : (endWith r st s).basin = s.basin := by rw [endWith, finish, finishAs_hostq]
@[simp] theorem finish_events (r : Ref) (st e d : Nat) (s : State) : (finish r st e d s).events = s.events := by rw [finish, finishAs_hostq]
@[simp] theorem endWith_events (r : Ref) (st : Nat) (s : State) : (endWith r st s).events = s.events := by rw [endWith, finish, finishAs_hostq]
@[simp] theorem finish_access (r : Ref) (st e d : Nat) (s : State) : (finish r st e d s).access = s.access := by rw [finish, finishAs_hostq]
@[simp] theorem endWith_access (r : Ref) (st : Nat) (s : State) : (endWith r st s).access = s.access := by rw [endWith, finish, finishAs_hostq]
@[simp] theorem finish_mgmt (r : Ref) (st e d : Nat) (s : State) : (finish r st e d s).mgmt = s.mgmt := by rw [finish, finishAs_hostq]
@[simp] theorem endWith_mgmt (r : Ref) (st : Nat) (s : State) : (endWith r st s).mgmt = s.mgmt := by rw [endWith, finish, finishAs_hostq]
@[simp] theorem finish_still (r : Ref) (st e d : Nat) (s : State) : (finish r st e d s).still = s.still := by rw [finish, finishAs_hostq]
@[simp] theorem endWith_still (r : Ref) (st : Nat) (s : State) : (endWith r st s).still = s.still := by rw [endWith, finish, finishAs_hostq]
@[simp] theorem finish_override (r : Ref) (st e d : Nat) (s : State) : (finish r st e d s).override = s.override := by rw [finish, finishAs_hostq]
@[simp] theorem endWith_override (r : Ref) (st : Nat) (s : State) : (endWith r st s).override = s.override := by rw [endWith, finish, finishAs_hostq]
@[simp] theorem finish_staging (r : Ref) (st e d : Nat) (s : State) : (finish r st e d s).staging = s.staging := by rw [finish, finishAs_hostq]
@[simp] theorem endWith_staging (r : Ref) (st : Nat) (s : State) : (endWith r st s).staging = s.staging := by rw [endWith, finish, finishAs_hostq]
@[simp] theorem finish_waiting (r : Ref) (st e d : Nat) (s : State) : (finish r st e d s).waiting = s.waiting := by rw [finish, finishAs_hostq]
@[simp] theorem endWith_waiting (r : Ref) (st : Nat) (s : State) : (endWith r st s).waiting = s.waiting := by rw [endWith, finish, finishAs_hostq]
@[simp] theorem finish_jobs (r : Ref) (st e d : Nat) (s : State) : (finish r st e d s).jobs = s.jobs := by rw [finish, finishAs_hostq]
@[simp] theorem endWith_jobs (r : Ref) (st : Nat) (s : State) : (endWith r st s).jobs = s.jobs := by rw [endWith, finish, finishAs_hostq]
@[simp] theorem finish_lanes (r : Ref) (st e d : Nat) (s : State) : (finish r st e d s).lanes = s.lanes := by rw [finish, finishAs_hostq]
@[simp] theorem endWith_lanes (r : Ref) (st : Nat) (s : State) : (endWith r st s).lanes = s.lanes := by rw [endWith, finish, finishAs_hostq]
@[simp] theorem finish_tarns (r : Ref) (st e d : Nat) (s : State) : (finish r st e d s).tarns = s.tarns := by rw [finish, finishAs_hostq]
@[simp] theorem endWith_tarns (r : Ref) (st : Nat) (s : State) : (endWith r st s).tarns = s.tarns := by rw [endWith, finish, finishAs_hostq]
@[simp] theorem finish_curves (r : Ref) (st e d : Nat) (s : State) : (finish r st e d s).curves = s.curves := by rw [finish, finishAs_hostq]
@[simp] theorem endWith_curves (r : Ref) (st : Nat) (s : State) : (endWith r st s).curves = s.curves := by rw [endWith, finish, finishAs_hostq]
@[simp] theorem finish_mere (r : Ref) (st e d : Nat) (s : State) : (finish r st e d s).mere = s.mere := by rw [finish, finishAs_hostq]
@[simp] theorem endWith_mere (r : Ref) (st : Nat) (s : State) : (endWith r st s).mere = s.mere := by rw [endWith, finish, finishAs_hostq]
@[simp] theorem finish_prox (r : Ref) (st e d : Nat) (s : State) : (finish r st e d s).prox = s.prox := by rw [finish, finishAs_hostq]
@[simp] theorem endWith_prox (r : Ref) (st : Nat) (s : State) : (endWith r st s).prox = s.prox := by rw [endWith, finish, finishAs_hostq]
@[simp] theorem finish_link (r : Ref) (st e d : Nat) (s : State) : (finish r st e d s).link = s.link := by rw [finish, finishAs_hostq]
@[simp] theorem endWith_link (r : Ref) (st : Nat) (s : State) : (endWith r st s).link = s.link := by rw [endWith, finish, finishAs_hostq]
@[simp] theorem finish_cfg (r : Ref) (st e d : Nat) (s : State) : (finish r st e d s).cfg = s.cfg := by rw [finish, finishAs_hostq]
@[simp] theorem endWith_cfg (r : Ref) (st : Nat) (s : State) : (endWith r st s).cfg = s.cfg := by rw [endWith, finish, finishAs_hostq]
@[simp] theorem finish_axes (r : Ref) (st e d : Nat) (s : State) : (finish r st e d s).axes = s.axes := by rw [finish, finishAs_hostq]
@[simp] theorem endWith_axes (r : Ref) (st : Nat) (s : State) : (endWith r st s).axes = s.axes := by rw [endWith, finish, finishAs_hostq]
@[simp] theorem finish_enc (r : Ref) (st e d : Nat) (s : State) : (finish r st e d s).enc = s.enc := by rw [finish, finishAs_hostq]
@[simp] theorem endWith_enc (r : Ref) (st : Nat) (s : State) : (endWith r st s).enc = s.enc := by rw [endWith, finish, finishAs_hostq]
@[simp] theorem finish_hall (r : Ref) (st e d : Nat) (s : State) : (finish r st e d s).hall = s.hall := by rw [finish, finishAs_hostq]
@[simp] theorem endWith_hall (r : Ref) (st : Nat) (s : State) : (endWith r st s).hall = s.hall := by rw [endWith, finish, finishAs_hostq]
@[simp] theorem finish_cmp (r : Ref) (st e d : Nat) (s : State) : (finish r st e d s).cmp = s.cmp := by rw [finish, finishAs_hostq]
@[simp] theorem endWith_cmp (r : Ref) (st : Nat) (s : State) : (endWith r st s).cmp = s.cmp := by rw [endWith, finish, finishAs_hostq]
@[simp] theorem finish_echo (r : Ref) (st e d : Nat) (s : State) : (finish r st e d s).echo = s.echo := by rw [finish, finishAs_hostq]
@[simp] theorem endWith_echo (r : Ref) (st : Nat) (s : State) : (endWith r st s).echo = s.echo := by rw [endWith, finish, finishAs_hostq]
@[simp] theorem finish_hk (r : Ref) (st e d : Nat) (s : State) : (finish r st e d s).hk = s.hk := by rw [finish, finishAs_hostq]
@[simp] theorem endWith_hk (r : Ref) (st : Nat) (s : State) : (endWith r st s).hk = s.hk := by rw [endWith, finish, finishAs_hostq]
@[simp] theorem finish_cams (r : Ref) (st e d : Nat) (s : State) : (finish r st e d s).cams = s.cams := by rw [finish, finishAs_hostq]
@[simp] theorem endWith_cams (r : Ref) (st : Nat) (s : State) : (endWith r st s).cams = s.cams := by rw [endWith, finish, finishAs_hostq]
@[simp] theorem finish_isp (r : Ref) (st e d : Nat) (s : State) : (finish r st e d s).isp = s.isp := by rw [finish, finishAs_hostq]
@[simp] theorem endWith_isp (r : Ref) (st : Nat) (s : State) : (endWith r st s).isp = s.isp := by rw [endWith, finish, finishAs_hostq]
@[simp] theorem finish_light (r : Ref) (st e d : Nat) (s : State) : (finish r st e d s).light = s.light := by rw [finish, finishAs_hostq]
@[simp] theorem endWith_light (r : Ref) (st : Nat) (s : State) : (endWith r st s).light = s.light := by rw [endWith, finish, finishAs_hostq]
@[simp] theorem finish_zip (r : Ref) (st e d : Nat) (s : State) : (finish r st e d s).zip = s.zip := by rw [finish, finishAs_hostq]
@[simp] theorem endWith_zip (r : Ref) (st : Nat) (s : State) : (endWith r st s).zip = s.zip := by rw [endWith, finish, finishAs_hostq]
@[simp] theorem finish_scenes (r : Ref) (st e d : Nat) (s : State) : (finish r st e d s).scenes = s.scenes := by rw [finish, finishAs_hostq]
@[simp] theorem endWith_scenes (r : Ref) (st : Nat) (s : State) : (endWith r st s).scenes = s.scenes := by rw [endWith, finish, finishAs_hostq]
@[simp] theorem finish_edp (r : Ref) (st e d : Nat) (s : State) : (finish r st e d s).edp = s.edp := by rw [finish, finishAs_hostq]
@[simp] theorem endWith_edp (r : Ref) (st : Nat) (s : State) : (endWith r st s).edp = s.edp := by rw [endWith, finish, finishAs_hostq]
@[simp] theorem finish_recorder (r : Ref) (st e d : Nat) (s : State) : (finish r st e d s).recorder = s.recorder := by rw [finish, finishAs_hostq]
@[simp] theorem endWith_recorder (r : Ref) (st : Nat) (s : State) : (endWith r st s).recorder = s.recorder := by rw [endWith, finish, finishAs_hostq]
@[simp] theorem finish_sent (r : Ref) (st e d : Nat) (s : State) : (finish r st e d s).sent = s.sent := by rw [finish, finishAs_hostq]
@[simp] theorem endWith_sent (r : Ref) (st : Nat) (s : State) : (endWith r st s).sent = s.sent := by rw [endWith, finish, finishAs_hostq]
@[simp] theorem finish_free (r : Ref) (st e d : Nat) (s : State) : (finish r st e d s).free = s.free := by rw [finish, finishAs_hostq]
@[simp] theorem endWith_free (r : Ref) (st : Nat) (s : State) : (endWith r st s).free = s.free := by rw [endWith, finish, finishAs_hostq]
@[simp] theorem finish_pending (r : Ref) (st e d : Nat) (s : State) : (finish r st e d s).pending = s.pending := by rw [finish, finishAs_hostq]
@[simp] theorem endWith_pending (r : Ref) (st : Nat) (s : State) : (endWith r st s).pending = s.pending := by rw [endWith, finish, finishAs_hostq]

/-- A descriptor that may start starts at once. -/
theorem post_ready {h : Hdr} {s : State} (hr : Ready h s) (i : Instr) (op : Nat) (f : State → State) :
    postDescriptor i h op f s = f (accept h op s) := by
  have h1 := hr.room
  have h2 : profileInForce (accept h op s) = true := hr.inForce
  unfold postDescriptor
  rw [if_neg (by omega)]
  simp [h2]

end Sys2Proof.Machine
end

