-- ==== Sys2Proof/Laws/Reload.lean ====
section
/-! SUPPORT. What a reload of the Machine Profile makes of the profile's own block. -/

namespace Sys2Proof.Machine

/-- Operations that keep a value keep it over a list. -/
theorem foldl_keeps {α β : Type} (f : State → α → State) (g : State → β) (h : ∀ s a, g (f s a) = g s) (l : List α) (s : State) :
    g (l.foldl f s) = g s := by
  induction l generalizing s with
  | nil => rfl
  | cons a l ih => rw [List.foldl_cons, ih, h]

theorem settleCoeffs_profile (s : State) : (settleCoeffs s).profile = s.profile :=
  foldl_keeps _ (·.profile) (fun s r => by simp) _ s

theorem needGrid_profile (l : Nat) (s : State) : (needGrid l s).profile = s.profile := by
  simp only [needGrid]
  split <;> rfl

theorem changeMap_profile (l : Nat) (c : MapChange) (s : State) : (changeMap l c s).profile = s.profile := by
  rw [← needGrid_profile l s]
  simp only [changeMap]
  split <;> (try split) <;> rfl

theorem regridLane_profile (l : Nat) (s : State) : (regridLane l s).profile = s.profile := by
  simp only [regridLane]
  split
  · rfl
  · rw [changeMap_profile]; rfl

theorem sendReq_profile (p h ty : Nat) (bs : List Byte) (r : Option Ref) (a : Nat) (s : State) :
    (sendReq p h ty bs r a s).profile = s.profile := rfl

theorem fetchObjects_profile (p h : Nat) (s : State) : (fetchObjects p h s).profile = s.profile := by
  unfold fetchObjects
  dsimp only
  split
  · exact foldl_keeps (fun s b => sendReq p h 6 (natLE 2 (16 + b) ++ natLE 2 0 ++ natLE 2 5) none 0 s) (·.profile)
      (fun s b => sendReq_profile _ _ _ _ _ _ s) _ s
  · split
    · simp only [sendReq_profile]
    · split
      · simp only [sendReq_profile]
      · rfl

theorem writeSources_profile (s : State) : (writeSources s).profile = s.profile :=
  foldl_keeps _ (·.profile) (fun s p => foldl_keeps _ (·.profile) (fun s i => by
    dsimp only
    split
    · exact fetchObjects_profile _ _ _
    · rfl) _ s) _ s

theorem laneToIdle_profile (l : Nat) (s : State) : (laneToIdle l s).profile = s.profile := by
  simp only [laneToIdle]
  split <;> rfl

theorem wakeLanes_profile (s : State) : (wakeLanes s).profile = s.profile :=
  foldl_keeps _ (·.profile) (fun s l => laneToIdle_profile l s) _ s

theorem schedulePeriodic_profile (t : Ns) (s : State) : (schedulePeriodic t s).profile = s.profile := by
  simp only [schedulePeriodic]
  split
  · rfl
  · split
    · rfl
    · simp [skipSnapshot]

theorem renewMismatch_profile (m : Nat) (s : State) : (renewMismatch m s).profile = s.profile := by
  unfold renewMismatch
  dsimp only
  split
  · rfl
  · split
    · rw [raise_profile]; rfl
    · rfl

theorem renewCrc_profile (s : State) : (renewCrc s).profile = s.profile :=
  foldl_keeps _ (·.profile) (fun s m => renewMismatch_profile m s) _ _

theorem takeCommon_profile (s : State) : (takeCommon s).profile = s.profile := by
  unfold takeCommon rescheduleSnapshots
  dsimp only
  rw [schedulePeriodic_profile]
  simp only [setRipple, setProx, takeTx, setLink, loadRules, renewCrc_profile]

theorem reloadMere_profile (s : State) : (reloadMere s).profile = s.profile := by
  simp only [reloadMere]
  split <;> rfl

theorem takeOrigins_profile (b s : State) : (takeOrigins b s).profile = s.profile := by
  unfold takeOrigins
  refine (foldl_keeps _ (·.profile) (fun s k => ?_) _ _).trans (foldl_keeps _ (·.profile) (fun s a => ?_) _ _)
  · split <;> rfl
  · split <;> rfl

theorem reloadLeds_profile (b s : State) : (reloadLeds b s).profile = s.profile := by
  unfold reloadLeds
  refine foldl_keeps _ (·.profile) (fun s c => ?_) _ _
  dsimp only
  split <;> rfl

/-- A reload takes the checked image's records into force, those of class START apart, and START_PENDING says that one of these
differs (R383). -/
theorem applyReload_profile (use : Nat) (c : ProfCheck) (s : State) : (applyReload use c s).profile = { s.profile with
    inForce := BitVec.ofNat 2 use, signed := c.signed, generation := BitVec.ofNat 32 c.generation
    startPending := startDiffers s.prof c.records, records := reloadedRecords s.prof c.records } := by
  have off : ∀ (s : State) (l : Nat),
      (setLane l (fun x => { x with state := .off, centreAt := none, pos := none }) s).profile = s.profile := fun _ _ => rfl
  simp only [applyReload, raise_profile]
  split <;> simp only [endMemberConflict, wakeLanes_profile, writeSources_profile, reloadMere_profile, takePps, takeCommon_profile,
    dropExposures, foldl_keeps _ (·.profile) (fun s l => regridLane_profile l s), foldl_keeps _ (·.profile) off, settleCoeffs_profile, reloadLeds_profile, takeOrigins_profile]

end Sys2Proof.Machine
end

