-- ==== Sys2Proof/Tests/Slice0.lean ====
section
/-! SUPPORT. The model's own tests: states and operands that meet the hypotheses of the obligations, ill-formed commands that the
checks refuse, descriptors written out from chapter 8, and worked examples of the spec. -/

open Sys2Proof.Machine

namespace Sys2Proof.Tests

set_option Elab.async false

/-! ### States of the tests -/

/-- A descriptor of command ring 63. -/
def h0 : Hdr := { ring := 63, index := 5, serial := 7, tag := 0xA5, irq := true, silent := false }

/-- A SOURCE node with two beams at hop 1. -/
def node0 : Node := { Node.reset with
  present := true, ident := { NodeIdent.none with cls := 0, beams := 2, vendor := 7 }, slotBase := 0, rated := [500000, 500000] }

/-- Lanes 0 and 1 on the beams of that node. -/
def lane0 : LaneRec := { LaneRec.unmapped with
  mapped := true, port := 0, hop := 1, beam := 0, fieldHalf := 11000000, focusScale := 4096, wPerLsb := 8000, absorb := 30000
  tSp := 2000, priority := 8, feTime := 100, gridSets := 1 }

/-- The profile of the tests. -/
def prof0 : Profile := { Profile.none with
  lanes := [lane0, { lane0 with beam := 1, fieldCx := 1000000 }] ++ List.replicate 126 .unmapped
  mere := { MereRec.none with nx := 4, ny := 4, cell := 100, tU := 8000, tPlate := 1000, tPowder := 500 }
  plan := { tLead := 50000, hGuardUs := 200, blendMinMs := 1, mapSlew := 100, postImageMs := 10, recoatMs := 100, settleMs := 10,
            bedImageMs := 10, armMs := 10 } }

/-- The module with that profile in force, ready, its first port open. -/
def r0 : State := { State.reset with
  profile := { ProfileBlk.reset with inForce := 1, records := prof0 }
  boot := { Boot.reset with phase := 11, alive := true, readyLocal := true, readySynced := true }
  link := { Link.reset with
    ports := { Port.reset with link := 2, enumDone := true, nodes := node0 :: List.replicate 15 .reset }
      :: List.replicate 31 .reset } }

/-- That module with a job. -/
def withJob (j : Jobs) : State := { r0 with jobs := j }

/-- A job header. -/
def job0 : JobHeader :=
  { line := false, atTime := none, jobId := 9, lanes := 3, degraded := false, repeatOnce := false, initialRecoat := false
    machine := false, first := 0, minLanes := 0, marginUs := 50, timeoutMs := 100, psetTable := 0x30000000, trigSource := 0x10
    trigEncoder := 0, markWindow := 100, markAddr := 0x31000000, markCount := 64, delays := [] }

/-- A build job in a state. -/
def build (st : BitVec 4) : Jobs := { Jobs.reset with state := st, header := some job0, table := 0x30000000 }

/-- A line job in a state. -/
def line (st : BitVec 4) : Jobs :=
  { Jobs.reset with state := st, line := true, header := some { job0 with line := true }, table := 0x30000000 }

/-- A lane replaced. -/
def setL0 (x : Lane) (s : State) : State := { s with lanes := x :: s.lanes.drop 1 }

/-- A layer of lane 0 alone. -/
def layer0 : Layer :=
  { index := 0, ref := (1, 4), addr := 0x20000000, flags := 2, psetTable := 0x30080000, status := 0x32000000, mask := 1
    passed := true, bound := true, fetched := true
    lanes := [(0, { readEntry (List.replicate 32 0) with streamAddr := 0x33000000, resultAddr := 0x34000000, count := 2, endState := 1 })] }

/-- A planned record: a LINE of 1 mm from the origin, 1,000 ns long. -/
def rec0 : PRec :=
  { idx := 1, ghost := false, vec := .line 100000 0 0 { power := none, speed := none, cornerStop := false }, vtag := 0, setIdx := 0
    set := .none, prio := 8, g := .start, lim := { accel := 1, jerk := 1, speed := 1 }, x0 := 0, y0 := 0, x1 := 100000, y1 := 0
    len := .ofNat 100000, vIn := 0, vOut := 0, start := 0, frac := .zero, dur := .ofNat 100000000
    segs := [{ t0 := .zero, dur := .ofNat 100000000, s0 := .zero, v0 := .zero, a0 := .ofInt (-3), j := .zero }]
    fixed := false, verdict := .none, deferred := false, held := false, holdNs := 0, waitNs := 0, waitLate := false, lateTold := false, staged := .start
    release := none, first := none, bad := none, melt := .none }

/-- A record that has ended. -/
def recEnd : PRec := { rec0 with vec := .stop, dur := .zero, segs := [] }

/-- The stream of lane 0. -/
def sref0 : StreamRef :=
  { key := 0, addr := 0x33000000, count := 2, result := 0x34000000, raw := 0, rawKiB := 0, first := 0, checked := [] }


def jobHdr : List Byte := layout 640 [(0, 4, jobMagic), (4, 2, 1), (8, 4, 77), (24, 16, 3), (56, 8, 0x30000000)]
def mJob : State := memPut 0x20000000 jobHdr r0
def lineHdr : List Byte := layout 640 [(0, 4, jobMagic), (4, 2, 1), (6, 1, 1), (8, 4, 77), (24, 16, 3), (56, 8, 0x30000000), (64, 1, 0x10),
  (68, 4, 100), (72, 8, 0x31000000), (80, 4, 64)]
def mLine : State := memPut 0x20000000 lineHdr r0
def w02_1 := (withJob {build 5 with layers := [layer0]})
def w02_2 := (setL0 {Lane.reset with state := .running, stream := some sref0, plan := [rec0]} (withJob {build 2 with layers := [layer0], exposed := some 0}))
def w02_3 := (withJob {build 2 with layers := [layer0], exposed := some 0})
def w02_4 := (withJob {build 2 with layers := [layer0, {layer0 with index := 1}], exposed := some 0})
def w02_5 := (withJob {build 2 with layers := [layer0]})
def w02_6 := (withJob {build 10 with cause := 6})
def w02_7 := (withJob {build 10 with cause := 1})
def w02_8 := (withJob {build 10 with cause := 1, machine := true})
def w02_9 := (withJob {build 7 with stageEnd := some 5})
def w02_10 := (withJob {build 2 with excluded := 3})
def headL : List Byte := layout 64 [(0, 4, layerMagic), (4, 4, 0), (16, 8, 0x30000000), (24, 8, 0x32000000), (32, 16, 1)]
def w02_11 := (memPut 0x20000000 headL (withJob {build 1 with failed := [0]}))
def mkRecs : List Byte := layout 64 [(0,1,9),(1,1,1),(4,4,1000),(8,2,16384),(32,1,0x0F)]
def goodSet : List Byte := layout 64 [(2,2,1),(4,4,1000000),(8,4,5000000),(12,4,1000),(16,4,1000),(20,4,1000),(24,4,1000)]
def mMark : State := memPut 0x30001000 goodSet (memPut 0x33000000 mkRecs (withJob (line 1)))
def w02_12 := ({mMark with lanes := {Lane.reset with marks := List.replicate 64 {ref := (0,0), product := 1, addr := 0, result := 0, count := 0, checked := []}} :: List.replicate 127 .reset})
def w02_13 := (({ job0 with line := true }))
def w02_14 := (withJob {build 1 with layers := [{layer0 with addr := 0x20000000, mask := 0, flags := 0}], checks := [0]})
def w02_15 := ({layer0 with addr := 0x20000000, mask := 0, flags := 0})
/-- A layer header of 4,160 bytes: lane 0 with one record. -/
def putHead (s : State) : State :=
  memPut 0x20000058 [1] (memPut 0x20000040 (natLE 8 0x33000000 ++ natLE 8 0x34000000)
    (memPut 0x20000000 (layout 64 [(0, 4, layerMagic), (4, 4, 0), (24, 8, 0x32000000), (32, 16, 1)]) s))
def mLayer : State := memPut 0x30000000 goodSet (memPut 0x33000000 (layout 32 [(0,1,0x0F)]) (putHead (withJob {build 1 with layers := [{layer0 with flags := 0, psetTable := 0,passed := false, bound := false, fetched := false, lanes := []}], checks := [0]})))
def w02_16 := ({layer0 with flags := 0, psetTable := 0,passed := false, bound := false, fetched := false, lanes := []})
def w02_17 := (withJob {build 1 with layers := [{layer0 with flags := 0,passed := false, bound := false, fetched := false, lanes := []}], checks := [0]})
def w02_18 := ({layer0 with flags := 0,passed := false, bound := false, fetched := false, lanes := []})
def prod0 : Product := { k := 0, count := 0, time := 3, held := false, done := 0, skipped := 0, flags := 0 }
def w02_19 := (setL0 {Lane.reset with state := .idle, noData := true} (withJob {line 11 with products := [prod0], nextProduct := 1}))
def mark0 : Mark := {ref := (0,1), product := 0, addr := 0x33000000, result := 0x34000000, count := 2, checked := []}
def w02_20 := (setL0 {Lane.reset with state := .idle, stream := some sref0, marks := [mark0]} (withJob {line 11 with products := [prod0], nextProduct := 1}))

def w02_21 := (withJob {line 1 with tor := some 9})
def w02_22 := ({ job0 with line := true })
def w02_23 := (withJob {build 1 with tor := some 9, layers := [layer0]})
def w02_24 := (withJob {build 3 with stageEnd := some 10})
def w02_25 := (withJob {build 5 with stageEnd := some 10})
def w02_26 := (withJob {build 7 with stageEnd := some 10})
def w02_27 := (withJob {build 8 with stageEnd := some 10})
def w02_28 := (withJob {build 6 with stageEnd := some 10})
def w02_29 := (withJob {build 3 with stageEnd := some 10, holdAfter := 3})
def layerA : Layer := {layer0 with lanes := [(0, { readEntry (List.replicate 32 0) with endState := 0})]}
def armed0 : State := setL0 {Lane.reset with state := .armed} { withJob {build 8 with layers := [layerA], exposed := some 0, l := 2000000} with permit := {Permit.reset with a := true, b := true, high := true} }
def w02_30 := (setL0 {Lane.reset with state := .idle} {armed0 with jobs := {armed0.jobs with late := 999}})
def w02_31 := (setL0 {Lane.reset with state := .hold} (withJob {build 2 with layers := [layer0], exposed := some 0}))
def w02_32 := (setL0 {Lane.reset with state := .idle} (withJob {build 2 with layers := [layer0], exposed := some 0, exposeDone := true}))
def w02_33 := (withJob {build 3 with layers := [layer0], completing := some 0})
def layerS : Layer := {layer0 with lanes := [(0, { readEntry (List.replicate 32 0) with endState := 2})]}
def w02_34 := (withJob {build 3 with layers := [layerS], completing := some 0})
def w02_35 := (withJob {build 3 with layers := [layerS]})
def w02_36 := ({withJob (build 2) with permit := {Permit.reset with a := true, b := true, high := true}})
def w02_37 := (withJob {build 9 with layers := [layer0], exposed := some 0})
def w02_38 := ({r0 with permit := {Permit.reset with a := true, b := true, high := true, lowEvents := 255}})
def mach (l : Bool) (st : BitVec 4) : State := { withJob {build st with machine := true, l := 4000000, exposed := some 0, layers := [layerA]} with
  members := {Members.reset with elected := true, leaderMember := if l then 0 else 1, plan := [{stage := 2, layer := 0, start := 5}], planSeq := 1}
  profile := {r0.profile with records := {prof0 with machine := {prof0.machine with members := 3}}} }
def w02_39 := ([{stage := 2, layer := 0, start := 5}] : List PlanEntry)
def w02_40 := ({mach true 2 with members := {(mach true 2).members with plan := []}})
def w02_41 := (withJob {line 11 with products := [{prod0 with done := 3}]})
def w02_42 := ({prod0 with done := 3})
def w02_43 := (withJob {build 11 with products := [{prod0 with done := 1}]})
def w02_44 := ({prod0 with done := 1})
def b2 : State := withJob (build 2)
def w03_1 := ({b2 with ident := {Ident.reset with variant := .mfc048}})
def set0 : GridSet := {n := 2, pitch := 100, temp := 5, points := [(0,0,0),(0,0,0),(0,0,0),(0,0,0)]}
def wg0 : WorkGrid := {grid := set0, temp := 5, weight := 0, low := 0, high := 0}
def w03_2 := (memPut 0x20000000 (layout 12 [(4,4,8)]) (setL0 {Lane.reset with map := {LaneMap.reset with waiting := some {trims := none, grid := some wg0}}} b2))
def gpay : List Byte := layout 52 [(0,2,2),(4,4,100),(8,2,5),(16,3,7)]
def grecN : List Byte := layout 8 [(0,2,0x11),(2,2,0),(4,4,52)] ++ gpay
def gridRec : List Byte := grecN ++ natLE 4 (crc32 grecN)
def mGrid : State := memPut 0x20000000 gridRec (setL0 {Lane.reset with map := {LaneMap.reset with gridA := some wg0}} b2)
def w03_3 := (({n := 2, pitch := 100, temp := 5, points := [(7,0,0),(0,0,0),(0,0,0),(0,0,0)]} : GridSet))
def blend0 : Blend := {start := some 100, len := 50, change := {trims := some .none, grid := some wg0}}
def mBlend : State := setL0 {Lane.reset with map := {LaneMap.reset with gridA := some wg0, blend := some blend0}} b2
def w03_4 := (setL0 {Lane.reset with map := {LaneMap.reset with gridA := some wg0, blend := some blend0, waiting := some blend0.change}} b2)
def mFetch : State := setL0 {Lane.reset with state := .idle, stream := some {sref0 with checked := List.replicate 2 (List.replicate 32 0)}} b2
def f0 : Fetched := {index := 0, bytes := layout 32 [(0,1,2),(4,4,100000)], bad := none}
def mPlan : State := setL0 {Lane.reset with state := .idle, buf := [f0], stream := some sref0} b2
def mRun (r : PRec) : State := setL0 {Lane.reset with state := .running, plan := [r], stream := some sref0} b2
def recA : PRec := {rec0 with verdict := .asked 1}
def recD : PRec := {rec0 with dur := .zero, vec := .tag 1 2}
def mRunN : State := setL0 {Lane.reset with state := .running, plan := [rec0], stream := some sref0} r0
def sp0 : SyncPoint := {key := 0, id := 3, lanes := 3, members := 1, failContinue := true, arrivals := [{lane := 0, bound := 0, idx := 1}], first := 10, rc := 0, released := none, failed := none, gone := 0, goneMembers := 0, place := false, reports := []}
def v0 : LimitSet := {accel := 1, jerk := 0, speed := 3}
def b48 : State := {b2 with ident := {Ident.reset with variant := .mfc048}}
def w03_5 := (setL0 {Lane.reset with state := .running, plan := [rec0]} b2)
def w03_6 := (setL0 {Lane.reset with ovrJump := some .none} b2)
def recDec : PRec := {rec0 with dur := .ofNat 100000000, segs := [{ t0 := .zero, dur := .ofNat 100000000, s0 := .zero, v0 := .ofInt 3, a0 := .ofInt (-3), j := .zero }]}
def mDec : State := setL0 {Lane.reset with state := .running, plan := [recDec]} b2
def w03_7 := ({sref0 with checked := List.replicate 2 (List.replicate 32 0)})
def w03_8 := (setL0 {Lane.reset with state := .idle, buf := [{index := 0, bytes := [], bad := none}], plan := List.replicate 512 rec0} b2)
def mArm (p : List PRec) : State := setL0 {Lane.reset with state := .idle, plan := p, stream := some sref0} (withJob {build 8 with exposed := some 0, layers := [layer0]})
def rec2 : PRec := {rec0 with idx := 2, start := 100000, x0 := 100000, x1 := 200000, vec := .line 200000 0 0 { power := some 9, speed := none, cornerStop := false }, staged := .start}
def mAsk : State := setL0 {Lane.reset with state := .running, plan := [{rec0 with start := 1000000, verdict := .go}, {rec2 with start := 2000000}], stream := some sref0} b2
def w03_9 := ({rec2 with start := 2000000})
def recA2 : PRec := {rec2 with verdict := .asked 1}
def mRun2 : State := setL0 {Lane.reset with state := .running, plan := [{rec0 with verdict := .go}, recA2], stream := some sref0} b2
def w03_10 := (setL0 {Lane.reset with state := .hold, plan := [recD], stream := some sref0} b2)
def w03_11 := (setL0 {Lane.reset with state := .running, plan := [recEnd], stream := some sref0} (withJob {build 2 with exposed := some 0, layers := [layer0]}))
def w03_12 := (setL0 {Lane.reset with state := .running, plan := [rec0], feSince := some 5} r0)
def sp1 : SyncPoint := {sp0 with lanes := 1}
def w03_13 := (withJob {build 2 with syncs := [sp0]})
def w03_14 := (withJob {build 2 with syncs := [sp1]})
def w03_15 := (setL0 {Lane.reset with state := .running, plan := [rec0]} (withJob {build 2 with syncs := [{sp0 with failContinue := false}]}))
def w03_16 := ({sp0 with failContinue := false})
def mere0 : Mere := {Mere.reset with run := true, nx := 2, ny := 1, cell := 100, tU := 8000, s0 := 1000, next := 2, step := 1, front := [5, 6], back := some ([7, 8], 1)}
def mMere : State := {r0 with mere := mere0}
def w04_1 := ({mMere with mere := {mere0 with reports := [{lane := 0, cell := 1, energy := 1236, came := 4}]}})
def mRep (o : Option Nat) : State := setL0 {Lane.reset with loop := {Loop.reset with repOut := [(o, 55)]}} mMere
def w04_2 := ({mRep (some 1) with mere := .reset})
def w04_3 := ({mRep (some 1) with mere := {Mere.reset with due := true}})
def w04_4 := ({mMere with mere := {mere0 with viewPeriodMs := 1}})
def recF : PRec := {rec0 with set := {PSet.none with ffEn := true}}
def w04_5 := ({mRun recF with mere := {mere0 with front := List.replicate 16 9, nx := 4, ny := 4}})
def sav0 : Saving := {layer := 3, slot := 1, tag := 0, ref := none, due := 0, copied := some ([7,8], 1, 5), resume := 0, result := some (0, 64)}
def w04_6 := ({mMere with mere := {mere0 with saves := [sav0], slotBase := 0x20000000, slotSize := 8192, slotCount := 2}})
def mSave : State := {r0 with mere := {mere0 with saves := [sav0], slotBase := 0x20000000, slotSize := 8192, slotCount := 2}}
def w04_7 := ({mSave with cfg := [(0x840000, 8)]})
def w04_8 := ({withJob (build 4) with mere := mere0})
def w04_9 := ({withJob (build 10) with mere := mere0})
def cpay : List Byte := layout 120 [(1,1,2),(3,1,1),(4,1,1),(24,2,0),(30,2,100)]
def crecN : List Byte := layout 8 [(0,2,0x20),(2,2,31),(4,4,120)] ++ cpay
def mCurve : State := memPut 0x20000000 (crecN ++ natLE 4 (crc32 crecN)) r0
def w04_10 := ((readCurve cpay).getD {sigMode := 0, wA := 0, wB := 0, pts := [], kp := 0, ki := 0, blankUs := 0, anomBand := 0, anomSamples := 0, spike := 0, satSamples := 0})
def hold0 : Hold := {idx := 1, since := 10, planned := 5, stands := 20, warned := false}
def mHold (h : Hold) : State := setL0 {Lane.reset with state := .hold, plan := [rec0], hold := some h} r0
def mSHold (h : Hold) : State := setL0 {Lane.reset with state := .hold, plan := [rec0], prox := {ProxLane.reset with syncHold := some h}} r0
def w05_1 := (mHold {hold0 with warned := true})
def w05_2 := ({hold0 with warned := true})
def pRun : Prox := {Prox.reset with run := true}
def w05_3 := ({r0 with prox := pRun})
def q0 : Request := {lane := 0, idx := 1, prio := 8, held := false}
def mJudge : State := {mRun recA with prox := pRun}
def k0 : Tick := {claims := [], edges := []}
def mJudge2 : State := {mJudge with prox := {pRun with peers := List.replicate 8 {Peer.reset with present := true}}, profile := {r0.profile with records := {prof0 with machine := {prof0.machine with members := 3}, reach := List.replicate 8 [{x0 := 0, y0 := 0, x1 := 10, y1 := 10}]}}}
def clm1 : Claim := {lane := 1, trajs := [{plan := [rec0], emits := [(0, 100000000, 1, 1)], since := 0, fin := 100000000}], reservation := false}
def k1 : Tick := {claims := [clm1], edges := []}
def w05_4 := ((judge mJudge 0 1 (requestTrajs mJudge (laneOf mJudge 0) 1) [clm1]).getD {rule := 0, remote := false, lane := 0, member := 0})
def w05_5 := ({r0 with prox := {pRun with cycles := [([0, 1], 10)]}})
def mMach : State := {r0 with profile := {r0.profile with records := {prof0 with machine := {prof0.machine with members := 3}}}, prox := pRun}
def sum0 (m : Nat) : Summary := {member := m, moduleId := 3, locked := true, x := 0, crc := 0, seq := 0, lanes := [], zones := []}
def se0 : SyncEntry := {sync := 3, lane := 0, arrived := true, go := false, faulted := false, bound := 5, rc := 6}
def spM : SyncPoint := {sp0 with members := 2}
def w05_6 := ({mMach with jobs := {build 2 with syncs := [spM]}})
def mSil : State := {mMach with prox := {pRun with peers := List.replicate 8 {Peer.reset with present := true, dueAt := 10}}}
def plume0 : PlumeRec := {region := {x0 := 0, y0 := 0, x1 := 1, y1 := 1}, dirX := 1, dirY := 0, len := 5, half := 6}
def w05_7 := ({r0 with prox := {pRun with plumes := [none,none,none,some plume0]}})

def mSep : State := {r0 with prox := {pRun with sep := List.replicate 256 3}}
def clk (f : Clock → Clock) (s : State) : State := { s with time := { s.time with clock := f s.time.clock } }
def tim (f : TimeRec → TimeRec) (s : State) : State := { s with profile := { s.profile with records := { s.prof with time := f s.prof.time } } }
def src (n : Nat) (s : State) : State := tim (fun x => {x with source := n}) s
def cFine (s : State) : State := clk (fun c => {c with state := .fine, offsets := [10, 8], etb := 5}) s
def w06_1 := (clk (fun c => {c with etb := 20000}) (tim (fun x => {x with holdBound := 10}) r0))
def w06_2 := (clk (fun c => {c with etb := 0}) (tim (fun x => {x with holdBound := 10}) r0))
def w06_3 := (clk (fun c => {c with boundRaised := true}) (cFine (tim (fun x => {x with holdBound := 1000}) r0)))
def w06_4 := (clk (fun c => {c with state := .master}) r0)
def sync0 : PtpSync := {version := 2, sender := 9, port := 2, domain := 0, origin := 1000, correction := 0, rx := 3000}
def ann0 : Announce := {version := 2, domain := 0, sender := 9, senderPort := 1, port := 1, utcOffset := 37, timeFlags := 0, timeSource := 0x20, gmId := 9, priority1 := 1, clockClass := 6, accuracy := 0x20, variance := 0, priority2 := 1, stepsRemoved := 0}
def w06_5 := (clk (fun c => {c with parent := some 9}) r0)
def w06_6 := ({sync0 with domain := 1})
def w06_7 := ({sync0 with version := 1})
def w06_8 := ({ann0 with domain := 3})
def w06_9 := (clk (fun c => {c with parent := some 9}) (tim (fun x => {x with p2p := true}) r0))
def w06_10 := (cFine (clk (fun c => {c with now := 5000}) r0))
def w06_11 := (cFine (clk (fun c => {c with lastSync := some 100}) r0))
def w06_12 := (cFine (clk (fun c => {c with lastPps := some 100, ppsPresent := true}) (src 1 r0)))
def w06_13 := (tim (fun x => {x with slaveOnly := false}) r0)
def pin4 (s : State) : State := {s with time := {s.time with trigIn := List.replicate 9 {TrigIn.reset with edge := 2, filter := 4}}}
def cMaster (s : State) : State := clk (fun c => {c with state := .master, parent := some 9, delayReq := [(0, 4, 500)], masterDelta := 1000}) s
def w06_14 := (cMaster (tim (fun x => {x with twoStep := true}) r0))
def p2p (s : State) : State := tim (fun x => {x with p2p := true}) s
def w06_15 := (clk (fun c => {c with delayReq := [(4, 7, 100)]}) (p2p r0))
def tcf (k : Nat) : TcFrame := {kind := k, transport := 1, checksum := 0x1234, inPort := 0, outPort := 1, ingress := 5, egress := 500, seq := 7, correction := -5}
def w06_16 := ({tcf 1 with transport := 0})
def tor5 : State := {b2 with jobs := {b2.jobs with tor := some 3000}}
def full (s : State) : State := {s with time := {s.time with ripple := {s.time.ripple with actions := List.replicate 192 { work := .trigStop 1, launch := 100000, host := true, tk := some (62, 7), late := false, missing := [] }}}}
def w06_17 := ((trigCheck 15 63 1000 5000 10 0 true true false r0).getD .reset)
def w06_18 := ((trigCheck 15 63 1000 8000 10 0 false true true tor5).getD .reset)
def trgOn : State := {r0 with time := {r0.time with trigOut := List.replicate 16 {TrigOut.reset with enable := true, next := 7, sched := {TrigSched.reset with width := 5, period := 100}, remaining := 2}}}
def w06_19 := ({r0 with time := {r0.time with trigOut := List.replicate 16 {TrigOut.reset with sched := {TrigSched.reset with refPtp := true}}}})
def w06_20 := ({tor5 with time := {r0.time with trigOut := List.replicate 16 {TrigOut.reset with sched := {TrigSched.reset with refPtp := false}}}})
def w06_21 := ({r0 with time := {r0.time with trigOut := List.replicate 16 {TrigOut.reset with enable := true, fall := some 9, level := true}}})
def w06_22 := ({r0 with time := {r0.time with trigOut := List.replicate 16 {TrigOut.reset with enable := true, next := 7, sched := {TrigSched.reset with toggle := true, period := 100}, remaining := 2}}})
def inOn (e : BitVec 2) : State := {r0 with time := {r0.time with trigIn := List.replicate 9 {TrigIn.reset with edge := e, filter := 4}}}
def w06_23 := ({r0 with time := {r0.time with pps := {r0.time.pps with mode := 1, width := 3}}})
def w06_24 := ({r0 with time := {r0.time with pps := {r0.time.pps with fall := some 2000000003, level := true}}})
def actT : RippleAction := { work := .trigOut 2 .reset, launch := 1000, host := true, tk := some (63, 7), late := false, missing := [] }
def rip (a : RippleAction) : State := {r0 with time := {r0.time with ripple := {Ripple.reset with actions := [a]}}}
def act0 : RippleAction := { work := .syncRelease 3, launch := 1000, host := false, tk := none, late := false, missing := [] }
def act1 (w : RippleWork) : RippleAction := { work := w, launch := 1000, host := true, tk := some (63, 7), late := true, missing := [] }
def w06_25 := (rip (act1 (.trigOut 15 {TrigSched.reset with width := 5, period := 100, start := 1000})))
def w06_26 := (act1 (.trigOut 15 {TrigSched.reset with width := 5, period := 100, start := 1000}))
def w06_27 := ({TrigSched.reset with width := 5, period := 100, start := 1000})
def w06_28 := ({rip act0 with jobs := {build 2 with syncs := [sp0]}})
def onPort (f : Port → Port) (s : State) : State := { s with link := { s.link with ports := modUnit s.link.ports 0 f } }
def onNode (f : Node → Node) (s : State) : State := onPort (fun q => {q with nodes := modUnit q.nodes 0 f}) s
def beams2 : State := onNode (fun n => {n with ident := {n.ident with beams := 2}}) r0
def noPort : State := onPort (fun q => {q with link := 0}) r0
def iox0 (s : State) : State := onNode (fun n => {n with ident := {n.ident with cls := 2, beams := 0}}) s
def w07_1 := (onPort (fun q => {q with enumPhase := .discover}) r0)
def w07_2 := (onNode (fun n => {n with measured := List.replicate 62 3}) r0)
def w07_3 := (onNode (fun n => {n with measured := List.replicate 63 300}) r0)
def req0 : SvcReq := {port := 0, hop := 1, seq := 9, type := 0x0A, payload := [1], sent := 100, retried := false, ref := some (63, 7), addr := 0}
def withReq (r : SvcReq) : State := {r0 with link := {r0.link with reqs := [r]}}
def w07_4 := (withReq {req0 with retried := true})
def w07_5 := ({req0 with retried := true})
def w07_6 := ({r0 with link := {r0.link with ports := List.replicate 32 {Port.reset with link := 2}}})
def w07_7 := ({r0 with link := .reset})
def w07_8 := (withReq {req0 with type := 7})
def w07_9 := ({req0 with type := 7})
def tk0 : Ticket := {hdr := h0, opcode := 0, cq := 3}
def out0 (s : State) : State := {s with hostq := {s.hostq with outstanding := [tk0]}}
def tkS : Ticket := {tk0 with hdr := {h0 with silent := true}}
def outS : State := {r0 with hostq := {r0.hostq with outstanding := [tkS]}}
def slotFull : State := {out0 r0 with hostq := {(out0 r0).hostq with slots := List.replicate 320 (some (endRecord tk0 0 0 0 r0))}}

def otherIn : State := {out0 r0 with hostq := {(out0 r0).hostq with slots := List.replicate 320 (some (endRecord {tk0 with hdr := {h0 with serial := 9}} 0 0 0 r0))}}
def w08_1 := ({r0 with events := {EventRing.reset with routes := List.replicate 32 {lo := 1, hi := 2, vec := 41}}})
def commit1 : RippleAction := {work := .cfgCommit 1, launch := 1000, host := true, tk := some (1, 1), late := false, missing := []}
def still0 : State := {r0 with still := {Still.reset with regionSet := true, base := 0x20000000, lastLatch := some 0}}
def stillP (p : Nat) : State := {still0 with still := {still0.still with nextTick := some p, periodUs := 100}}
def stillQ (p : Nat) : State := {still0 with still := {still0.still with nextTick := some p, periodUs := 1000}}
def kept256 (s : State) : State := {s with time := {s.time with ripple := {s.time.ripple with actions := List.replicate 256 { work := .layerStart 0, launch := 100000, host := false, tk := none, late := false, missing := [] }}}}
def w08_2 := ({still0 with still := {still0.still with demandAt := some 50}})
def w08_3 := (memPut 0x20000000 ((encodeDescriptor (.proxSepSet h0 0 0 5 0)).getD []) r0)
def w08_4 := ((match readEntries 0x20000000 (accept h0 3 (memPut 0x20000000 ((encodeDescriptor (.proxSepSet h0 0 0 5 0)).getD []) r0)) 1 0 with | .ok l => l | .error _ => []))
def staged8 : State := {r0 with staging := List.replicate 8 [.proxSepSet h0 0 0 5 0]}
def stagedT : State := {staged8 with jobs := {build 2 with tor := some 3000}}
def tkN (n : Nat) : Ticket := {hdr := {h0 with serial := n}, opcode := 0, cq := 0}
def fr : State := {r0 with hostq := {r0.hostq with outstanding := [tkN 3]}}
def tkF : Ticket := {hdr := h0, opcode := 1, cq := 0}
def ringMem (s : State) : State := {s with hostq := {s.hostq with cmd := List.replicate 64 {CmdRing.reset with base := 0x20000000}, cq := List.replicate 16 {ComplRing.reset with base := 0x20000000}}}
def ringOn : State := {r0 with hostq := {r0.hostq with cmd := List.replicate 64 {CmdRing.reset with base := 0x20000000, enable := true, sizeLog2 := 4, cq := 2}, cq := List.replicate 16 {ComplRing.reset with base := 0x20000000, enable := true, sizeLog2 := 6, phase := true}}}

def mq (k count addr : Nat) (data : List Byte) : MgmtReq :=
  let q : MgmtReq := {src := 1, magic := 0x4D48, version := 1, retry := false, seq := 3, address := addr, count := count, data := data, crc := 0}
  { q with crc := leNat ((mgmtBytes 0x4D48 1 k 0 0 3 addr count data).drop (20 + data.length)) }
def qBad : MgmtReq := {mq 3 4 0x20000000 [] with crc := 1}
def att (s : State) : State := {s with mgmt := {s.mgmt with attached := some 1}}
def ipList (s : State) : State := {s with profile := {s.profile with records := {s.prof with network := some {speed := [], ipv4 := 0, ipv4Mask := 0, ipv4Gw := 0, ipv6 := 0, mgmtPcp := 0, mgmtVid := 0, allow := [2]}}}}
def w08_5 := ({r0 with mgmt := {r0.mgmt with attached := some 2}})
def w08_6 := ({r0 with mgmt := {r0.mgmt with attached := some 2, hostLost := true}})
def w08_7 := ({r0 with mgmt := {r0.mgmt with attached := some 2, notify := 8, fresh := true, lastNotify := some 5}})
def w08_8 := ({r0 with mgmt := {r0.mgmt with attached := some 2, notify := 8, fresh := false, lastNotify := some 5}})
def w08_9 := ({r0 with hostq := {r0.hostq with outstanding := List.replicate 512 tk0}})
def fetchSt : State := memPut 0x20000100 ((encodeDescriptor (.nop {h0 with tag := 0xDEADBEEF})).getD []) {r0 with hostq := {r0.hostq with rrRing := 63, rrTaken := 3, cmd := List.replicate 64 {CmdRing.reset with base := 0x20000000, enable := true, sizeLog2 := 4, cq := 2, head := 4, tail := 5, fetched := 20}, cq := List.replicate 16 {ComplRing.reset with base := 0x28000000, enable := true, sizeLog2 := 6, phase := true}}}
def w08_10 := ((decodeDescriptor 63 4 20 (memRead 0x20000100 64 fetchSt)).getD (.nop h0))
def fetchSt2 : State := {fetchSt with hostq := {fetchSt.hostq with rrTaken := 4, cmd := fetchSt.hostq.cmd.take 2 ++ List.replicate 62 .reset}}
def w08_11 := ((decodeDescriptor 0 4 20 (memRead 0x20000100 64 fetchSt)).getD (.nop h0))
def w08_12 := ({endRecord tk0 0 0 0 r0 with tk := {tk0 with hdr := {h0 with irq := false}}})
def cqT : State := {r0 with hostq := {r0.hostq with cq := List.replicate 16 {ComplRing.reset with first := some 5, intTime := 10, since := 2}}}
def cqFull : State := {fetchSt with hostq := {fetchSt.hostq with cmd := List.replicate 64 {CmdRing.reset with base := 0x20000000, enable := true, sizeLog2 := 4, cq := 2, head := 4, tail := 5, fetched := 20, stall := some 5}, cq := List.replicate 16 .reset}}
def w08_13 := ({r0 with mgmt := {r0.mgmt with timer := some 5}})
def w08_14 := ({r0 with mgmt := {r0.mgmt with hostLost := true}})
def w08_15 := ({r0 with hostq := {r0.hostq with pcieUp := true}})
def w08_16 := ({r0 with hostq := {r0.hostq with pba := 5}})
def w08_17 := ({still0 with still := {still0.still with latched := some {image := [1,2,3], invalid := 2, joined := []}}})
def w08_18 := ({image := [1,2,3], invalid := 2, joined := []} : Latched)
def evRing : State := {r0 with events := {EventRing.reset with set := true, base := 0x20000000, size := 64, tail := 63, head := 5, phase := true}}
def msx (m : Bool) (s : State) : State := {s with hostq := {s.hostq with msix := List.replicate 64 {MsixEntry.reset with masked := m}}}
def w08_19 := ({msx false r0 with hostq := {(msx false r0).hostq with pcieUp := true}})

def pois : State := {r0 with basin := {r0.basin with poisoned := [0x4000000, 0x4000001, 0x4000002]}}
def profImg : List Byte := layout 408 [(0, 4, 0x46525043), (4, 2, 1), (6, 2, 256), (8, 4, 408), (12, 4, 5), (16, 2, 65535), (20, 4, 7), (28, 4, 2), (256, 2, 34), (260, 4, 48), (264, 2, 16), (266, 2, 16), (268, 4, 10000), (280, 4, 20), (305, 1, 255), (312, 4, 0xde3073d1), (316, 2, 64), (320, 4, 36), (324, 4, 50000), (328, 4, 200), (332, 4, 1), (336, 4, 100), (360, 4, 0x88156204), (364, 2, 65535), (372, 4, 0xd15f93bf), (376, 32, 0x3536b2a81380ca2f291ce9e4beccff89ba666ad41866416117f3ae2806e07998)]
def fwImg : List Byte := layout 736 [(0, 4, 0x57464345), (4, 2, 1), (6, 2, 512), (8, 4, 736), (12, 4, 0x1000001), (16, 2, 3), (18, 2, 0), (20, 4, 7), (24, 4, 0), (28, 4, 1), (32, 8, 0x3000000), (64, 4, 512), (68, 4, 4), (72, 8, 0x3000000), (80, 4, 8), (84, 1, 1), (512, 4, 0xdeadbeef), (576, 4, 0x47495345), (592, 48, 0x442b188ca028f6db61fc0de0c5cbab5304a29ab246ba5f7ab522c9247905685e590249d52a4778d2fbcdb27ffd9ec005), (640, 48, 0x442b188ca028f6db61fc0de0c5cbab5304a29ab246ba5f7ab522c9247905685e590249d52a4778d2fbcdb27ffd9ec005), (688, 48, 0x442b188ca028f6db61fc0de0c5cbab5304a29ab246ba5f7ab522c9247905685e590249d52a4778d2fbcdb27ffd9ec005)]
def fwKey : Nat × Nat := (0xb1e396da6d3deadd75bd892d0026ea02e9d24bd14ab5fd54f09b06f4d5a7ba1b80bda6c65f1c8e6a85f4e8c5a627cf75, 0xc5ab2820d50673e9e3b9075e282bc6aee49827edde1c0733fea2b380181474fb505abeccfa74fa2a2e4157a414201300)
def pw (f : Power → Power) (s : State) : State := { s with power := f s.power }
def pn (f : Pins → Pins) (s : State) : State := { s with pins := f s.pins }
def bt (f : Boot → Boot) (s : State) : State := { s with boot := f s.boot }
def off0 : State := pw (fun p => {p with state := .off}) r0
def held0 : State := pw (fun p => {p with state := .held}) r0
def hib0 : State := pw (fun p => {p with state := .hibernate}) r0
def sby0 : State := pw (fun p => {p with state := .standby}) r0
def ret0 : State := {memPut 0x20000000 [1,2,3] r0 with basin := {(memPut 0x20000000 [1,2,3] r0).basin with retain := 0xFF}}
def train (n : Nat) : State := bt (fun _ => {Boot.reset with phase := 1, trainTries := n}) State.reset
def waitImg (n : BitVec 26) : State := bt (fun _ => {Boot.reset with phase := 2, ctrlLen := n}) State.reset
def verify0 : State := bt (fun _ => {Boot.reset with phase := 3, goLen := 736}) State.reset
def fwMem : State := memPut 0 fwImg State.reset
def verify1 : State := bt (fun _ => {Boot.reset with phase := 3, goLen := 736}) fwMem
def bq (k count addr : Nat) (data : List Byte) : MgmtReq := mq k count addr data
def boot0 : State := bt (fun _ => {Boot.reset with phase := 2, keptFor := some 1}) State.reset
def boot2 : State := bt (fun b => {b with session := some (2, 5)}) boot0
def fl : State := bt (fun _ => {Boot.reset with phase := 5, alive := true}) State.reset
def part0 : State := bt (fun _ => {Boot.reset with phase := 6, alive := true, profileAt := 5}) {r0 with profile := {r0.profile with records := {prof0 with nodes := [(0, {cls := 0, beams := 2, matchSerial := false, vendor := 0, product := 0, serial := 0, srcCount := 0, srcBeams := []}), (1, {cls := 0, beams := 2, matchSerial := false, vendor := 0, product := 0, serial := 0, srcCount := 0, srcBeams := []})]}}}
def sbyA : State := pw (fun p => {p with armed := true}) sby0
def hel : Hello := {member := 1, moduleId := 3, headerOk := true, state := 2, prio := 128, leaderId := 0xFFFF, machineId := 0, serial := 9, term := 0, jobState := 0, jobId := 0}
def heardM (s : State) : State := {s with members := {s.members with list := List.replicate 8 {Member.reset with last := some 5, state := 2, moduleId := 3}}}
def led : LeaderMsg := {member := 1, moduleId := 3, valid := true, term := 4, mask := 3}
def electd (s : State) : State := {s with members := {s.members with elected := true, term := 4}}
def lowKey : State := {heardM mMach with members := {(heardM mMach).members with keySince := some 5}}
def fl6 : State := bt (fun _ => {Boot.reset with image := some (1, 2, 3, true, true), phase := 8, partnersDone := true, startCalDone := true, profileAt := 3}) r0
def hibA : State := pw (fun p => {p with armed := true}) hib0
def heldH : State := pn (fun p => {p with hibWake := true}) hib0
def keep10 : List Nat := [1]
def leadN (s : State) : State := {s with members := {s.members with leaderMember := 1}}
def leadM (m : BitVec 3) : State := (fun s => {s with members := {s.members with leaderMember := m}}) (electd (heardM {mMach with jobs := {build 2 with machine := true}}))
def w09_1 := (pn (fun p => {p with resetN := false}) off0)
def w09_2 := (pw (fun p => {p with clkLost := true}) held0)
def w09_3 := (pn (fun p => {p with resetN := false}) (pw (fun p => {p with clkLost := true}) held0))
def w09_4 := (bt (fun _ => {Boot.reset with phase := 4, coresAt := 5}) State.reset)
def w09_5 := ({State.reset with basin := {State.reset.basin with poisoned := [0]}})
def w09_6 := ({memPut 20 [0] fwMem with pending := []})
def w09_7 := (bt (fun _ => {Boot.reset with phase := 4}) {State.reset with power := {Power.reset with lastKind := 2}})
def w09_8 := (bt (fun _ => {Boot.reset with phase := 4}) {State.reset with power := {Power.reset with onAlive := [(0x1014, [])]}})
def w09_9 := ({fl with profile := {ProfileBlk.reset with memA := profImg}})
def w09_10 := (bt (fun _ => {Boot.reset with phase := 6, alive := true, profileAt := 5}) r0)
def w09_11 := (bt (fun _ => {Boot.reset with phase := 7, alive := true, partnersDone := true, startCalDone := true, startMs := 9}) r0)
def w09_12 := (bt (fun _ => {Boot.reset with phase := 7, alive := true, partnersDone := true, startCalDone := true, startMs := 0}) r0)
def w09_13 := (pw (fun p => {p with blkKind := 0, blkIndex := 48}) {r0 with ident := {r0.ident with variant := .mfc048}})
def w09_14 := (pw (fun p => {p with blockReset := [(3,0)]}) r0)
def w09_15 := (bt (fun b => {b with phase := 8}) r0)
def w09_16 := (bt (fun b => {b with phase := 11}) r0)
def w09_17 := (pw (fun p => {p with blkIndex := 127}) (bt (fun b => {b with phase := 8}) r0))
def w09_18 := (pw (fun p => {p with blockReset := [(4,0)]}) r0)
def w09_19 := (pw (fun p => {p with pulses := [{ unit := (3, 0), count := 0, lost := false, told := none }]}) r0)
def w09_20 := (pw (fun p => {p with downEpisode := true}) r0)
def w09_21 := (pw (fun p => {p with entry := 1}) r0)
def w09_22 := (pw (fun p => {p with entry := 2}) r0)
def w09_23 := (pw (fun p => {p with earlyWake := some 3}) sby0)
def w09_24 := (pw (fun p => {p with reqArmed := true}) r0)
def w09_25 := (pw (fun p => {p with reqArmed := true}) b2)
def w09_26 := (pw (fun p => {p with reqArmed := true}) (withJob (line 11)))
def w09_27 := ({hel with machineId := 1})
def w09_28 := ({hel with moduleId := 0})
def w09_29 := ({hel with member := 0})
def w09_30 := (electd (heardM {mMach with jobs := {build 2 with machine := true}}))
def w09_31 := ({lowKey with members := {lowKey.members with list := List.replicate 8 {Member.reset with last := some 1300000000, state := 2, moduleId := 3, prio := 255}}})
def w10_1 := ({r0 with profile := {r0.profile with busy := true}})
def w10_2 := ({r0 with profile := {r0.profile with ctrlAddr := 0x20000000, ctrlLen := 255}})
def pIn : State := memPut 0x20000000 profImg {r0 with profile := {r0.profile with ctrlAddr := 0x20000000, ctrlLen := 408, generation := 4}}
def w10_3 := ({r0 with profile := {ProfileBlk.reset with memA := profImg}})
def w10_4 := ({r0 with profile := {r0.profile with memB := profImg}})
def profTime : State := {r0 with profile := {r0.profile with memA := profImg, records := {prof0 with time := {prof0.time with source := 1}}}}
def w10_5 := ({r0 with profile := {r0.profile with busy := true, writing := some (1, profImg)}})
def w10_6 := ({r0 with profile := {r0.profile with busy := true, writing := some (2, profImg)}})
def axc (a : Nat) (s : State) : State := setCfgS64 (axisOff a 0x18) (-1000) (setCfgS64 (axisOff a 0x20) 1000 (setCfg (axisOff a 4) 10000 (setCfg (axisOff a 8) 100000 (setCfg (axisOff a 12) 10000000 (setCfg (axisOff a 16) 100000 (setCfg (axisOff a 20) 10000000 s))))))
def axs (x : Axis) (s : State) : State := {s with axes := {s.axes with axes := List.replicate 16 x}}
def idle0 : Axis := {Axis.reset with state := .idle, axen := true}
def ax15 (x : Axis) : State := axc 15 (axs x r0)
def mv0 : AxisMove := {target := 7, limits := .none, launch := 100, ref := none, script := none}
def plan0 : AxisPlan := {run := .move, start := 0, origin := 0, up := true, segs := [{t0 := .zero, dur := .ofNat 1, s0 := .zero, v0 := .ofNat 100000, a0 := .zero, j := .zero}], decelAt := .ofNat 1, fin := some (.ofNat 1), total := 5, done := 0}
def noScript (s : State) : State := {s with axes := {s.axes with script := List.replicate 16 .skip}}
def mvS : State := ax15 {idle0 with pending := some mv0}
def mvProf : Option (List AxisSeg × F64 × F64) :=
  axisProfile .zero .zero (F64.ofNat (mv0.target - (axisOf mvS 15).pos).natAbs) (effLimits mvS 15 mv0.limits)
def mov0 : Axis := {idle0 with state := .moving, plan := some plan0, lastEdge := some 0}
def scr (x : Axis) (v : Nat) : State := setCfg (scriptOff 3 4) 500 (setCfg (scriptOff 3 0) (15 + 16 * v + 255 * 256 + 2 * 65536) {ax15 x with jobs := build 5, axes := {(ax15 x).axes with scriptStart := some 5, script := List.replicate 16 .waiting}})
def encq (x : Enc) (inv : Nat) : State := setCfg (encOff 5 8) 1000 (setCfg (encOff 5 0) (1 + inv) {r0 with enc := List.replicate 16 x})
def encs (x : Enc) : State := setCfg (encOff 5 0x14) 10 (setCfg (encOff 5 0) 2 {r0 with enc := List.replicate 16 x})
def encw : State := setCfg (encOff 5 0x10) 500 (setCfg (encOff 5 0x0C) (100 * 65536) (encq {Enc.reset with edge := some 5000, prev := some 4000, winEdge := some (1000, 3), ext := 9, valid := true, mag := 500} 0))
def hal (n : BitVec 3) : State := {r0 with hall := List.replicate 8 {Hall.reset with known := true, sector := n, code := 5}}
def ax15m : State := ax15 {idle0 with state := .moving, plan := some plan0}
def jobTor : State := {ax15 idle0 with jobs := {build 2 with tor := some 90000}}
def hal0 : State := {r0 with hall := List.replicate 8 {Hall.reset with edge := some 5}}
def w11_1 := (ax15 {idle0 with pending := some mv0})
def w11_2 := (ax15 {idle0 with state := .fault})
def w11_3 := (ax15 {idle0 with ovr := some .none})
def slow0 : AxisLimits := {speed := 10000, accel := 100000, jerk := 10000000}
def w11_4 := (ax15 {idle0 with state := .moving, plan := some {plan0 with decelAt := .zero}})
def w11_5 := ({plan0 with decelAt := .zero})
def mvGo : State := checkScript (settleAxis 15 (beginMove 15 mv0 (passTo 100 mvS)))
def mvPlan : AxisPlan := (axisOf mvGo 15).plan.getD plan0
def lim15 : State := accept h0 0x51 mvGo
def new15 : Axis := {axisOf lim15 15 with ovr := newOverride (axisOf lim15 15) false {speed := 5000, accel := 0, jerk := 0}}
def w11_6 := ((replanAxis lim15 mvPlan (runLimits lim15 15 new15)).getD plan0)
def movS : State := ax15 mov0
def homS : State := ax15 {mov0 with plan := some {plan0 with run := .home, total := 1}, homing := some { trig := true, chan := 1, pos := 5, max := 1, latched := none, ref := (63, 7) }}
def w11_7 := ({plan0 with run := .home, total := 1})
def w11_8 := (ax15 {idle0 with feSince := some 5})
def w11_9 := (scr {idle0 with state := .fault} 1)
def w11_10 := (withJob {line 1 with header := some {job0 with line := true, trigSource := 15}})
def w11_11 := ({job0 with line := true, trigSource := 15})
def w11_12 := (encq {Enc.reset with position := 999, ext := 999} 0)
def encf : State := setCfg (encOff 5 4) 20 (encq {Enc.reset with edge := some 10, position := 999} 0)
def w11_13 := (encq {Enc.reset with wireNow := 5} 0)
def w11_14 := (encs {Enc.reset with ssiPrev := some 1000})
def w11_15 := (encs {Enc.reset with ssiPrev := some 232})
def w11_16 := (encs {Enc.reset with ssiPrev := some 0})
def w11_17 := (encq {Enc.reset with edge := some 50} 0)
def cam7 (c : Cam) (s : State) : State := {s with cams := List.replicate 7 .reset ++ [c]}
/-- WIDTH 4, HEIGHT 2, DATA_TYPE 0x2B, VC 1, PIX_RATE 4,800, FRAME_TIMEOUT 5, LINE_TIMEOUT 2, minimum interval 3 on port 7. -/
def cfg7 (mode : Nat) (s : State) : State :=
  setCfg 0x770000 (1 * 8 + 0x2B * 32 + mode * 16384) (setCfg 0x770004 (4 + 65536 * 2) (setCfg 0x770008 1200 (setCfg 0x770010 (2 + 5 * 65536) (setCfg 0x770014 3 s))))
def c7 (mode : Nat) (c : Cam) : State := cam7 c (cfg7 mode r0)
def strm : Cam := {Cam.reset with streaming := true}
def frm0 : CamFrame := {num := 9, gen := 3, tF := 5, fs := 7, fe := 0, product := 0xFFFFFFFF, seq := none, post := false, truncated := false, overlong := false, fixed := false, crc := false, overrun := false, reset := false, lines := 1, fixes := 0, rows := [[1, 2, 3, 4]], pads := [], lastLine := 60, slot := none, coding := false, code := none, stats := false}
def trg0 : XTrig := {tF := 5, gen := 3, seq := some 8, post := false, product := 77}
def w12_1 := (c7 1 {Cam.reset with ringSet := true})
def w12_2 := (c7 1 {Cam.reset with ringSet := true, streaming := true})
def w12_3 := (c7 1 {strm with frame := some frm0})
def w12_4 := (c7 1 {Cam.reset with pending := List.replicate 4 .none})
def m48 : State := {r0 with ident := {Ident.reset with variant := .mfc048}}
def torC (s : State) : State := {s with jobs := {build 2 with tor := some 90000}}
def cNext : Cam := {Cam.reset with latestGen := 0xFFFFFFFE, pending := List.replicate 3 .none, back := {ExpSet.none with len := 5}}
def w12_5 := (c7 1 {strm with cci := [.set 4]})
def w12_6 := (c7 1 {strm with waits := [trg0, trg0], frameNo := 0xFFFFFFFF})
def w12_7 := ({c7 1 {strm with waits := [trg0]} with isp := {Isp.reset with capacity := 1199}})
def full7 (w : Cam) : State := {c7 1 w with isp := {Isp.reset with capacity := 1199}}
def ring7 : Cam := {strm with ringSet := true, base := 0x20000000, slotSize := 0x100000, slots := 2}
def w12_8 := (full7 {strm with waits := [trg0], frame := some frm0})
def w12_9 := (c7 1 {strm with waits := [trg0], frame := some frm0})
def w12_10 := (c7 1 {strm with frame := some {frm0 with rows := [[1,2,3,4],[1,2,3,4]]}})
def w12_11 := ({frm0 with rows := [[1,2,3,4],[1,2,3,4]]})
def w12_12 := (c7 1 {strm with waits := [trg0]})
def w12_13 := (c7 1 {strm with closing := [frm0]})
def w12_14 := (c7 1 {strm with closing := [{frm0 with stats := true}]})
def w12_15 := ({frm0 with stats := true})
def w12_16 := (c7 1 {ring7 with closing := [{frm0 with stats := true, slot := some 0x20000000}]})
def w12_17 := ({frm0 with stats := true, slot := some 0x20000000})
def w12_18 := (c7 1 {ring7 with closing := [{frm0 with slot := some 0x20000000}]})
def w12_19 := ({frm0 with slot := some 0x20000000})
def w12_20 := (c7 1 {strm with lastTrig := some 101})
def w12_21 := (c7 1 {strm with cci := [.host (5, 4) false true 1 0]})
def w12_22 := (c7 1 {strm with cci := [.set 6], pending := [{ExpSet.none with gen := 6}, {ExpSet.none with gen := 7}]})
def w12_23 := (c7 1 {strm with cci := [.set 6], pending := [{ExpSet.none with gen := 6, cci := [{reg := 1, value := 2, wide := true}, {reg := 3, value := 4, wide := false}]}]})
def plan7 (left : Nat) : CapPlan := {stage := 3, layer := 4, mask := 128, left := left, due := 100, period := 50}
def pl7 (left : Nat) (j : BitVec 4) : State := {c7 4 strm with isp := {Isp.reset with plan := some (plan7 left)}, jobs := build j}
def w12_24 := ({c7 1 strm with isp := {Isp.reset with order := some (2400, 100)}})
def w12_25 := (c7 1 {strm with xtrig := some 60})
def w12_26 := (c7 1 {strm with xtrig := some 60, windows := [(90, 101)]})
def w12_27 := ({c7 1 {strm with frame := some frm0} with isp := {Isp.reset with order := some (2400, 100)}})
def w12_28 := (c7 1 {strm with windows := [(100, 101)]})
def w12_29 := (c7 1 {strm with inWindow := true, windows := [(100, 101)]})
def w12_30 := (c7 1 {strm with xtrig := some 100})
def led15 (l : Led) (s : State) : State := {s with light := {s.light with leds := List.replicate 15 .reset ++ [l]}}
/-- I_MAX 1,000, PWM_PERIOD 2,000, EXCL 0x80, T_DET 4, DIAG_PERIOD 1 (10 ms) and DUTY 0 on LED channel 15. -/
def lcfg (duty : Nat) (s : State) : State :=
  setCfg 0x860F00 1000 (setCfg 0x860F04 (0x80 + 2000 * 256) (setCfg 0x860F0C (1 + 524288) (setCfg 0x860F10 (700 + duty * 65536) s)))
def ll (l : Led) : State := led15 l (lcfg 0 r0)
def mtx (b : Nat) (m : Matrix) : State := setCfg 0x862000 b (setCfg 0x862004 (10 + 65536 * 1000) {r0 with light := {r0.light with matrix := m}})
def mxq (n : Nat) : List (List Nat × Ref × Nat) := (List.range n).map fun i => ([], (1, 100 + i), 292 + i)
def w12_31 := (mtx 5 {Matrix.reset with queue := mxq 4})
def w12_32 := (mtx 5 {Matrix.reset with queue := mxq 3})
def w12_33 := (ll {Led.reset with open_ := true})
def w12_34 := (mtx 5 {Matrix.reset with segOpen := 7})
def w12_35 := (ll {Led.reset with resumed := false})
def chg0 : LedChange := {launch := 2000, iSet := 900, duty := 100, ref := none}
def w12_36 := (ll {Led.reset with changes := [chg0]})
def w12_37 := (ll {Led.reset with short := true})
def w12_38 := (ll {Led.reset with diagDone := some 10000})
def colS : State := led15 .reset (lcfg 65535 (setCfg 0x860F14 (1 + 2 * 8 + 65536 * 1000) (setCfg 0x860F18 (32768 + 65536 * 6554) r0)))
def w12_39 := (mtx 5 {Matrix.reset with slotAt := 100})
def w12_40 := (mtx (1 + 64) {Matrix.reset with queue := mxq 1})
def w12_41 := ({mtx (1 + 64) {Matrix.reset with queue := mxq 1} with power := {r0.power with safe := true}})
def w12_42 := (ll {Led.reset with changes := [chg0], gainNext := some 5, diagLast := some 3})
def mxl : State := setCfg 0x862000 5 (setCfg 0x862004 (10 + 65536 * 1000) {lcfg 0 r0 with light := {r0.light with matrix := {Matrix.reset with frame := List.replicate 256 65535, resumed := true}}})
def exclS : State := cam7 {strm with windows := [(1000, 90000)]} (cfg7 1 (ll {Led.reset with diagDone := some 10000}))
def w12_43 := (cam7 {strm with windows := [(1000, 90000000)]} (cfg7 1 (ll {Led.reset with diagDone := some 10000})))
def w12_44 := (mtx 5 {Matrix.reset with slotAt := 100, row := 15, queue := mxq 1})
def w12_45 := ({mtx 5 {Matrix.reset with slotAt := 100, row := 15} with power := {r0.power with safe := true}})
def zch (z : ZipChan) (s : State) : State := {s with zip := {s.zip with chans := List.replicate 7 .reset ++ [z]}}
def zen (e : ZipEng) (s : State) : State := {s with zip := {s.zip with engs := List.replicate 3 .reset ++ [e]}}
def zj (j : ZipJob) : State := zch {ZipChan.reset with job := some j} r0
def form0 : EpbForm := {kind := 2, bytes := 1, channels := 1, width := 0}
def zopen : ZipJob := {ZipJob.fresh 2 form0 .feed with opened := true, bufs := [(0x21000000, 1024)], used := [0]}
def zenc (n o : Nat) : ZipJob := {ZipJob.fresh 2 form0 (.mem 0x20000000 n n) with ref := some (63, 9), bufs := [(0x21000000, o)], used := [0], work := some (n, true)}
def w13_1 := (zen {ZipEng.reset with chan := some 7, due := 6} r0)
def w13_2 := (zen {ZipEng.reset with chan := some 7, due := 5} (zj (zenc 4 64)))
def w13_3 := (zen {ZipEng.reset with chan := some 7, due := 5} (zj (zenc 4 10)))
def zdec : ZipJob := {ZipJob.fresh 2 form0 (.pieces [(0x20000000, 20)]) with ref := some (63, 9), decode := true, out := 0x21000000, limit := 64, work := some (0, false)}
def w13_4 := (zen {ZipEng.reset with chan := some 7, due := 5, decode := true} (zj zdec))
def lay0 (src flags w h : Nat) : List Byte := natLE 1 src ++ natLE 1 0 ++ natLE 1 flags ++ natLE 1 255 ++ List.replicate 24 0 ++ natLE 4 0 ++ natLE 4 0 ++ natLE 4 0 ++ natLE 2 w ++ natLE 2 h ++ natLE 4 0xFF0000FF ++ List.replicate 16 0
def scn (periodic period : Nat) : List Byte := natLE 2 16 ++ natLE 2 16 ++ natLE 1 periodic ++ natLE 1 1 ++ natLE 2 0 ++ natLE 4 0xFF112233 ++ natLE 4 period ++ natLE 8 0x20001000 ++ natLE 4 64 ++ natLE 1 2 ++ List.replicate 35 0 ++ lay0 4 2 4 4
def sc3 (x : Scene) (s : State) : State := {s with scenes := List.replicate 3 .reset ++ [x]}
def recS (periodic period : Nat) : SceneRec := readScene (scn periodic period)
def run0 : CompRun := {head := 7, buf := 1, start := 3, due := 5, cacheOld := false, throttled := false, layerIndex := 0xFFFFFFFF, scene := recS 0 0, cache := none, slots := [none], view := none, ref := none}
def w13_5 := (sc3 {Scene.reset with rec_ := some (recS 1 1000)} r0)
def w13_6 := (sc3 {Scene.reset with rec_ := some (recS 0 0)} r0)
def w13_7 := ({r0 with edp := {Edp.reset with scene := some 3}})
def recCam : SceneRec := {recS 0 0 with layers := List.replicate 8 {readLayer (lay0 4 2 4 4) with source := 2}}
def w13_8 := (sc3 {Scene.reset with rec_ := some recCam} r0)
def w13_9 := ({readLayer (lay0 4 2 4 4) with source := 2})
def w13_10 := (sc3 {Scene.reset with rec_ := some (recS 1 1000), run := some run0, lateEpisode := true} r0)
def w13_11 := (sc3 {Scene.reset with rec_ := some (recS 1 1000), run := some run0} r0)
def w13_12 := (sc3 {Scene.reset with rec_ := some (recS 1 1000), heads := [0, 0]} r0)
def w13_13 := (sc3 {Scene.reset with rec_ := some (recS 0 0), run := some run0} r0)
def w13_14 := (sc3 {Scene.reset with rec_ := some (recS 0 0), heads := [6, 0], run := some run0} r0)
def w13_15 := (sc3 {Scene.reset with rec_ := some (recS 0 0), rebuild := true} r0)
def w13_16 := (sc3 {Scene.reset with cacheIndex := 0xFFFFFFFF} r0)
def w13_17 := ({r0 with edp := {Edp.reset with hpd := true, trained := true}})
def w13_18 := (zj {zopen with ending := true})
def w13_19 := ({zopen with ending := true})
def zblk : List Byte := epbBlock form0 [1, 2, 3, 4, 5, 6, 7, 8] true true false
def zdec2 (n : Nat) : ZipJob := {ZipJob.fresh 2 form0 (.pieces [(0x20000000, 60)]) with ref := some (63, 9), decode := true, out := 0x21000000, limit := n, work := some (0, false)}
def zdst (n : Nat) : State := zen {ZipEng.reset with chan := some 7, due := 5, decode := true} (memPut 0x20000000 zblk (zj (zdec2 n)))
def withTor (s : State) : State := {s with jobs := {s.jobs with tor := some 1000}}
def scw (p : Nat) (x : Scene) : State := sc3 {x with rec_ := some (recS p (1000 * p))} r0
def w13_20 := (memPut 0x20000000 (scn 1 1000) (sc3 {Scene.reset with run := some run0} r0))
def w13_21 := (sc3 {Scene.reset with runs := [((63, 9), 10)]} r0)
def w13_22 := (sc3 {Scene.reset with runs := [((63, 9), 10)], run := some run0} r0)
def recSur : SceneRec := {recS 0 0 with layers := [{readLayer (lay0 1 2 4 4) with addr := 0x20002000, stride := 64}]}
def w13_23 := (sc3 {Scene.reset with rec_ := some recSur} r0)
def w13_24 := ({readLayer (lay0 1 2 4 4) with addr := 0x20002000, stride := 64})
def w13_25 := (sc3 {Scene.reset with rec_ := some {recS 1 1000 with outW := 0, outH := 0, count := 3}} r0)
def w13_26 := ({recS 1 1000 with outW := 0, outH := 0, count := 3})
def w13_27 := (scw 0 {Scene.reset with runs := [((63, 9), 5)], heads := [0, 0]})
def w13_28 := (scw 0 {Scene.reset with runs := [((63, 9), 5)], run := some run0})
def runR : CompRun := {run0 with ref := some (63, 9)}
def w13_29 := (scw 0 {Scene.reset with heads := [6, 0], run := some runR, stops := [(63, 8)]})
def w13_30 := (scw 0 {Scene.reset with rebuild := true, changes := [{ layer := 0, visible := true, alpha := 255, dstX := 0, dstY := 0, addr := 0, ref := some (63, 9) }]})
def w13_31 := ({r0 with edp := {Edp.reset with hpd := true, trained := true, bind := some none}})
def edpB : Edp := {Edp.reset with hpd := true, trained := true, bind := some (some 3), bindRefs := [(63, 9)]}
def w13_32 := ({scw 1 {Scene.reset with heads := [6, 7]} with edp := edpB})
def w13_33 := ({sc3 {Scene.reset with rec_ := some (recS 1 0), heads := [6, 7]} r0 with edp := edpB})
def rtp (x : RtPort) : State := {r0 with basin := {r0.basin with rt := x :: List.replicate 23 .reset ++ [x]}}
def rt24 (x : RtPort) : State := {r0 with basin := {r0.basin with rt := List.replicate 24 .reset ++ [x]}}
def poisW (s : State) : State := {s with basin := {s.basin with poisoned := [0x4000001]}}
def w14_1 := (rt24 {RtPort.reset with panic := true, panicSince := 5})
def w14_2 := ({r0 with basin := {r0.basin with postponed := [0, 0, 0, 8]}})
def w14_3 := ({rt24 {RtPort.reset with panic := true} with basin := {(rt24 {RtPort.reset with panic := true}).basin with postponed := [0, 0, 0, 7]}})
def w14_4 := ({rt24 {RtPort.reset with panic := true} with basin := {(rt24 {RtPort.reset with panic := true}).basin with postponed := [0, 0, 0, 8]}})
def w14_5 := ({r0 with basin := {r0.basin with scrubPeriod := 1}})
def hks (f : Hk) : State := {r0 with hk := f}
def wt3 : CalWait := {kind := 3, unit := 31, since := 5, overdue := false, skip := false}
def w14_6 := (hks {Hk.reset with waits := [wt3]})
def w14_7 := (hks {Hk.reset with runs := [{kind := 6, unit := 0, since := 1, levels := [], fin := 0}]})
def profD : State := {r0 with profile := {r0.profile with records := {prof0 with system := {prof0.system with calDeferS := 1}}}, hk := {Hk.reset with waits := [wt3]}}
def gth : Gather := {since := 5, n := 1023, sumA := 0, sumB := 0}
def gat : State := hks {Hk.reset with lanes := List.replicate 127 .reset ++ [{LaneCal.reset with gather := some gth}]}
def w14_8 := ({r0 with power := {r0.power with state := .standby}})
def coolReads : List (BitVec 16) := List.replicate 46 7
def w14_9 := ({r0 with boot := {r0.boot with sensorWait := true}})
def w14_10 := (hks {Hk.reset with level := 1, thrCond := true, levelSince := 5})
def axMove (s : State) : State := {s with axes := {s.axes with axes := List.replicate 15 .reset ++ [mov0]}}
def w14_11 := (hks {Hk.reset with shutAt := some 5})
def w14_12 := (axMove (hks {Hk.reset with shutAt := some 5}))
def recs (f : Recorder) : State := {r0 with recorder := f}
def okey : List Byte := [1, 2, 3, 4, 5, 6, 7, 8, 9, 10, 11, 12, 13, 14, 15, 16]
def keyed (s : State) : State := {s with ident := {s.ident with otp := {s.ident.otp with ownerClearKey := some okey}}}
def noKey (s : State) : State := {s with ident := {s.ident with otp := {s.ident.otp with ownerClearKey := none}}}
def nonced : State := keyed (recs {Recorder.reset with nonce := some (77, 5)})
def wr0 (kind : Nat) : RecWrite := {due := {kind := kind, cause := 0, refs := []}, log := false, content := .empty, bytes := [1, 2, 3], slot := 1791, since := 5, fails := 2, nonce := 0, token := []}
def w14_13 := (recs {Recorder.reset with authFail := 8})
def w14_14 := (recs {Recorder.reset with authFail := 7})
def w14_15 := (recs {Recorder.reset with write := some (wr0 1), setA := {RecSet.empty with ext := []}})
def w14_16 := (recs {Recorder.reset with write := some (wr0 1)})
def w14_17 := (recs {Recorder.reset with second := (List.replicate 8 none).set 7 (some (-5))})
def armed (s : State) : State := { s with lanes := List.replicate 127 .reset ++ [{ Lane.reset with state := .armed }] }
def w14_18 := (withJob {build 2 with state := 2})
def calLane : State := {r0 with profile := {r0.profile with records := prof0}}
def w14_19 := (hks {Hk.reset with waits := [wt3], groups := [{ref := (63, 9), kind := 3, left := [31], worst := 0, bad := false}]})
def run3 : CalRun := {kind := 5, unit := 3, since := 1, levels := [], fin := 0}
def w14_20 := (hks {Hk.reset with runs := [run3]})
def w14_21 := (hks {Hk.reset with level := 1, relCond := true, relSince := some 5})
def railReads : List (BitVec 16) := (List.range 46).map fun i => if 2 ≤ i ∧ i < 17 then Config.railNominal (i - 2) else if i = 17 then 3300 else 0
def hotReads : List (BitVec 16) := ((List.replicate 46 0).set 18 9000).set 19 9001
def wrL : RecWrite := {wr0 8 with log := true, slot := 255, due := {kind := 8, cause := 0, refs := [(63, 9)]}}
def w14_22 := (recs {Recorder.reset with write := some wrL})
def w14_23 := (recs {Recorder.reset with write := some {wr0 1 with fails := 3}})
def w14_24 := ({wr0 1 with fails := 3})
def w14_25 := (recs {Recorder.reset with second := (List.replicate 8 none).set 7 (some 5)})
def w14_26 := (recs {Recorder.reset with minutes := 59, blockErr := (List.replicate 32 0).set 31 9})
def w15_1 := (((descriptorFields (Instr.basinFill h0 7 0xDEADBEEF 0x20000000 4)).getD (h0, 0, [])).2.2)
def v02_14 : LayerHead :=
  readHead (memRead 536870912 64 (memPut 536870912 headL (withJob (build (1 : BitVec 4)))))
def v02_18 : Nat :=
  if 4294967294 = 4294967295 then nextUnassigned mMark 1 else 4294967294
def v02_19 : Scan :=
  scanStream (accept h0 23 mMark)
    { lane := 1, line := true, table := w02_13.psetTable, mask := w02_13.lanes, addr := 855638016, count := 2 } (streamBytes mMark
    855638016 2)
def v02_21 : State :=
  { passTo 5 w02_14 with jobs := { w02_14.jobs with checks := [] } }
def v02_22 : State :=
  { passTo 5 mLayer with jobs := { mLayer.jobs with checks := [] } }
def v02_23 : State :=
  { passTo 5 w02_17 with jobs := { w02_17.jobs with checks := [] } }
def v03_1 : State → State :=
  fun u => setMap 0 (fun m => { m with gridSets := (0, w03_3) :: List.filter (fun x => x.1 != 0) m.gridSets }) u
def v03_5 : List Nat :=
  List.filter (fun k => sp1.lanes.getLsbD k && !sp1.gone.getLsbD k && !sp1.arrivals.any fun a => decide (a.lane = k)) (allLanes w03_14)
def v03_6 : List Nat :=
  List.filter (fun k => sp0.lanes.getLsbD k && !sp0.gone.getLsbD k && !sp0.arrivals.any fun a => decide (a.lane = k)) (allLanes w03_13)
def v03_7 : List Nat :=
  List.filter (fun k => w03_16.lanes.getLsbD k && !w03_16.gone.getLsbD k && !w03_16.arrivals.any fun a => decide (a.lane = k)) (allLanes
    w03_15)
def v05_1 : State :=
  setLane q0.lane (fun x => { x with prox := { x.prox with released := false } }) mJudge
def v05_2 : State :=
  setLane q0.lane (fun x => { x with prox := { x.prox with released := false } }) mJudge2
def v06_32 : TrigSched :=
  { refPtp := true, start := 2001, fine := 63, period := 0, width := 5, count := 1, activeLow := true, toggle := false }
def v07_12 : State :=
  setPort 0 (fun q => { q with nodes := modUnit q.nodes (0 % 16) fun n => { n with lastUnit := max mRunN.now 1000 } }) (passTo 1000
    mRunN)
def v07_13 : State :=
  setLane 0 (fun k => { k with mirX := (7 : Int), mirY := (8 : Int), pdA := 4, pdB := 5 }) (setLoop 0 (fun k => slewDark (cycleTime (max
    mRunN.now 1000) 1) { k with missing := 0, lastFb := some (cycleTime (max mRunN.now 1000) 1) }) (settleLane 0 (missUpTo 0 (cycleTime
    (max mRunN.now 1000) 1) v07_12)))
def v07_14 : State :=
  setLink (fun l => { l with rescans := l.rescans ++ [(h0.ref, [0])] }) (accept h0 180 r0)
def v08_1 : Ns :=
  tickAt (max ((stillP 99995).now + 1000) (99995 + 100000))
def v08_2 : Ns :=
  tickAt (max ((stillQ 99995).now + 1000) (99995 + 100000))
def v08_12 : Nat :=
  (cmdRing fetchSt 63).head.toNat % (cmdRing fetchSt 63).size
def v08_13 : List Byte :=
  memRead ((cmdRing fetchSt 63).base.toNat + 64 * v08_12) 64 fetchSt
def v08_15 : Nat :=
  (cmdRing (memPut 536871171 [(1 : Byte)] fetchSt) 63).head.toNat % (cmdRing (memPut 536871171 [(1 : Byte)] fetchSt) 63).size
def v08_16 : List Byte :=
  memRead ((cmdRing (memPut 536871171 [(1 : Byte)] fetchSt) 63).base.toNat + 64 * v08_15) 64 (memPut 536871171 [(1 : Byte)] fetchSt)
def v08_18 : Nat :=
  (cmdRing fetchSt2 0).head.toNat % (cmdRing fetchSt2 0).size
def v08_19 : List Byte :=
  memRead ((cmdRing fetchSt2 0).base.toNat + 64 * v08_18) 64 fetchSt2
def v08_23 : State :=
  memPut 536870913 [(1 : Byte), 0, 3, 4, 5, 6, 7, 8, 9, 0, 1, 2, 3, 4, 5] pois
def v09_1 : List Byte :=
  memRead (736 - 160) 160 (memPut 580 [(4 : Byte)] fwMem)
def v09_2 : List Byte :=
  memRead (736 - 160) 160 (memPut 530 [(9 : Byte)] fwMem)
def v09_3 : List Byte :=
  memRead 0 512 (memPut 640 (List.replicate 48 (0 : Byte)) fwMem)
def v09_4 : List Byte :=
  memRead (736 - 160) 160 (memPut 640 (List.replicate 48 (0 : Byte)) fwMem)
def v09_21 : List Byte :=
  natLE 1 1 ++ natLE 2 (memberOf (heardM mMach) 1).moduleId
def v09_22 : State :=
  raise 40981 v09_21 (setMember 1 (fun x => { x with lost := true }) (passTo 500000005 (heardM mMach)))
def v09_24 : List Byte :=
  natLE 1 1 ++ natLE 2 (memberOf (leadM (0 : BitVec 3)) 1).moduleId
def v09_25 : State :=
  raise 40981 v09_24 (setMember 1 (fun x => { x with lost := true }) (passTo 500000005 (leadM (0 : BitVec 3))))
def v09_27 : List Byte :=
  natLE 1 1 ++ natLE 2 (memberOf (electd (leadN (heardM mMach))) 1).moduleId
def v09_28 : State :=
  raise 40981 v09_27 (setMember 1 (fun x => { x with lost := true }) (passTo 500000005 (electd (leadN (heardM mMach)))))
def v09_29 : State :=
  { v09_28 with members := { v09_28.members with elected := false } }
def v09_30 : List Byte :=
  natLE 1 1 ++ natLE 2 (memberOf (leadM (1 : BitVec 3)) 1).moduleId
def v09_31 : State :=
  raise 40981 v09_30 (setMember 1 (fun x => { x with lost := true }) (passTo 500000005 (leadM (1 : BitVec 3))))
def v09_32 : State :=
  { v09_31 with members := { v09_31.members with elected := false } }
def v11_1 : Int :=
  (if false = true then if (axisOf (ax15 idle0) 15).state = AxisState.moving ∧ (axisOf (ax15 idle0) 15).homing = none then (axisOf (ax15
    idle0) 15).target else (axisOf (ax15 idle0) 15).pos else (0 : Int)) + (1000 : Int)
def v11_2 : Int :=
  (if true = true then if (axisOf (ax15 idle0) 15).state = AxisState.moving ∧ (axisOf (ax15 idle0) 15).homing = none then (axisOf (ax15
    idle0) 15).target else (axisOf (ax15 idle0) 15).pos else (0 : Int)) + (-1000 : Int)
def v11_3 : Int :=
  (if true = true then if (axisOf jobTor 15).state = AxisState.moving ∧ (axisOf jobTor 15).homing = none then (axisOf jobTor 15).target
    else (axisOf jobTor 15).pos else (0 : Int)) + (-1000 : Int)
def v11_7 : Axis :=
  { axisOf mvGo 15 with ovr := newOverride (axisOf mvGo 15) false { speed := 5000, accel := 0, jerk := 0 } }
def v11_10 : Axis :=
  axisOf (setCfg (scriptOff 3 8) 1000 (scr idle0 1)) 15
def v11_11 : AxisMove :=
  {
      target := if scriptKind (setCfg (scriptOff 3 8) 1000 (scr idle0 1)) 3 = 1 then v11_10.pos + cfgS (setCfg (scriptOff 3 8) 1000 (scr
        idle0 1)) (scriptOff 3 4) else cfgS (setCfg (scriptOff 3 8) 1000 (scr idle0 1)) (scriptOff 3 4), limits :=
        { AxisLimits.none with speed := cfgWord (setCfg (scriptOff 3 8) 1000 (scr idle0 1)) (scriptOff 3 8) }, launch := max (setCfg
        (scriptOff 3 8) 1000 (scr idle0 1)).now 2000005, ref := none, script := some 3 }
def v11_18 : Nat :=
  (if cfgB w11_14 (encOff 5 20) 6 = true then unGray (cfgF w11_14 (encOff 5 20) 0 6) (232 % 2 ^ cfgF w11_14 (encOff 5 20) 0 6) else 232)
    % 2 ^ cfgF w11_14 (encOff 5 20) 0 6
def v11_19 : Nat :=
  (v11_18 + encCpr w11_14 5 - (encOf w11_14 5).ssiPrev.getD 0) % encCpr w11_14 5
def v11_20 : Nat :=
  (if cfgB w11_15 (encOff 5 20) 6 = true then unGray (cfgF w11_15 (encOff 5 20) 0 6) (1000 % 2 ^ cfgF w11_15 (encOff 5 20) 0 6) else
    1000) % 2 ^ cfgF w11_15 (encOff 5 20) 0 6
def v11_21 : Nat :=
  (v11_20 + encCpr w11_15 5 - (encOf w11_15 5).ssiPrev.getD 0) % encCpr w11_15 5
def v11_22 : Nat :=
  (if cfgB w11_16 (encOff 5 20) 6 = true then unGray (cfgF w11_16 (encOff 5 20) 0 6) (512 % 2 ^ cfgF w11_16 (encOff 5 20) 0 6) else 512)
    % 2 ^ cfgF w11_16 (encOff 5 20) 0 6
def v11_23 : Nat :=
  (v11_22 + encCpr w11_16 5 - (encOf w11_16 5).ssiPrev.getD 0) % encCpr w11_16 5
def v12_1 : Nat → State :=
  fun n => camSettle (accept h0 n (memPut 536870912 [(1 : Byte), 2, 3, 4, 1] (c7 1 Cam.reset)))
def v12_2 : Nat → State :=
  fun n => camSettle (accept h0 n (memPut 536870912 [(1 : Byte), 2, 3, 4, 2] (c7 1 Cam.reset)))
def v12_5 : XTrig × State :=
  answeredTrig 7 (endFrame 7 false (camSettle (passTo 100 w12_8)))
def v12_6 : State :=
  setCam 7 (fun c => {
      c with
        frameNo := (camOf v12_5.2 7).frameNo + (1 : BitVec 32), fsTimes := if camMode v12_5.2 7 = 0 then List.take 2 (v12_5.2.now ::
        c.fsTimes) else c.fsTimes }) v12_5.2
def v12_7 : XTrig × State :=
  answeredTrig 7 (endFrame 7 false (camSettle (passTo 100 w12_9)))
def v12_8 : State :=
  setCam 7 (fun c => {
      c with
        frameNo := (camOf v12_7.2 7).frameNo + (1 : BitVec 32), fsTimes := if camMode v12_7.2 7 = 0 then List.take 2 (v12_7.2.now ::
        c.fsTimes) else c.fsTimes }) v12_7.2
def v12_11 : XTrig × State :=
  answeredTrig 7 (endFrame 7 false (camSettle (passTo 100 (c7 1 ring7))))
def v12_12 : State :=
  setCam 7 (fun c => {
      c with
        frameNo := (camOf v12_11.2 7).frameNo + (1 : BitVec 32), fsTimes := if camMode v12_11.2 7 = 0 then List.take 2 (v12_11.2.now ::
        c.fsTimes) else c.fsTimes }) v12_11.2
def v12_20 : Nat :=
  (Option.map (fun x => x.cci.length) (List.find? (fun x => decide (x.gen = (6 : BitVec 32))) (camOf (camSettle (passTo 100 w12_23))
    7).pending)).getD 0
def v12_22 : State :=
  match (camOf (camSettle (passTo 50 w12_25)) 7).xtrig with
  | some e => if e ≤ (camSettle (passTo 50 w12_25)).now then setCam 7 (fun c => { c with xtrig := none })
      { (camSettle (passTo 50 w12_25)) with sent := Sent.edge 3 7 false e 0 :: (camSettle (passTo 50 w12_25)).sent } else camSettle
      (passTo 50 w12_25)
  | none => camSettle (passTo 50 w12_25)
def v12_23 : State :=
  match (camOf (camSettle (passTo 100 w12_26)) 7).xtrig with
  | some e => if e ≤ (camSettle (passTo 100 w12_26)).now then setCam 7 (fun c => { c with xtrig := none })
      { (camSettle (passTo 100 w12_26)) with sent := Sent.edge 3 7 false e 0 :: (camSettle (passTo 100 w12_26)).sent } else camSettle
      (passTo 100 w12_26)
  | none => camSettle (passTo 100 w12_26)
def v12_36 : State :=
  diagStarved 15 (settleDiag 15 (passTo 2000 w12_38))
def v12_37 : State :=
  diagStarved 15 (settleDiag 15 (passTo 40010000 w12_43))
def v13_8 : State :=
  takeBinding (setEdp (fun e => { e with frames := e.frames + (1 : BitVec 32) }) (passTo 5 w13_31))
def v13_9 : State :=
  takeBinding (setEdp (fun e => { e with frames := e.frames + (1 : BitVec 32) }) (passTo 5 w13_32))
def v13_10 : State :=
  takeBinding (setEdp (fun e => { e with frames := e.frames + (1 : BitVec 32) }) (passTo 5 w13_33))
def v14_6 : State :=
  List.foldl (fun u l => askGrid l u) (accept h0 144 r0) (calUnits r0 0 (BitVec.toNat (0 : BitVec 128))).1
def v14_7 : List Nat :=
  List.filter (fun l => calRunning v14_6 0 l) (calUnits r0 0 (BitVec.toNat (0 : BitVec 128))).1
def v14_8 : State :=
  List.foldl (fun u l => askGrid l u) (accept h0 144 calLane) (calUnits calLane 0 (BitVec.toNat (1 : BitVec 128))).1
def v14_9 : List Nat :=
  List.filter (fun l => calRunning v14_8 0 l) (calUnits calLane 0 (BitVec.toNat (1 : BitVec 128))).1
def v14_15 : State :=
  setHk (fun x => {
      x with
        reads := List.map (fun i => if i < 46 then unit railReads i (0 : BitVec 16) else (0 : BitVec 16)) (List.range 64), before :=
        x.reads, rounds := x.rounds + 1 }) (passTo 5 r0)
def v14_16 : State :=
  match hottest v14_15 (rosSlots v14_15) with
  | some (_, y) => setHk (fun x => { x with tj := BitVec.ofInt 16 y }) v14_15
  | none => v14_15
def v14_17 : State :=
  setHk (fun x => {
      x with
        reads := List.map (fun i => if i < 46 then unit hotReads i (0 : BitVec 16) else (0 : BitVec 16)) (List.range 64), before :=
        x.reads, rounds := x.rounds + 1 }) (passTo 5 r0)
def v14_18 : State :=
  match hottest v14_17 (rosSlots v14_17) with
  | some (_, y) => setHk (fun x => { x with tj := BitVec.ofInt 16 y }) v14_17
  | none => v14_17

/-! ### Lemmas of the witnesses -/

/-- The three conditions of `Ready` as a test. -/
def readyB (h : Hdr) (s : State) : Bool :=
  decide (s.hostq.outstanding.length < 512) && profileInForce s && (ticket s h.ref).isNone

theorem ready_of {h : Hdr} {s : State} (e : readyB h s = true) : Ready h s := by
  simp only [readyB, Bool.and_eq_true, decide_eq_true_eq, Option.isNone_iff_eq_none] at e
  exact ⟨e.1.1, e.1.2, e.2⟩

/-- The entry is a SYNC. -/
def isSync : Vec → Bool
  | .sync .. => true
  | _ => false

theorem not_sync {v : Vec} (e : isSync v = false) : ∀ (a : Bool) (b c : Nat) (d : BitVec 128), v ≠ .sync a b c d := by
  rintro a b c d rfl
  simp [isSync] at e

theorem no_triggers : ∀ n : Nat, (trigIn r0 n).fifo = [] := by
  intro n
  show (unit (List.replicate 8 TrigIn.reset ++ [.resetPps]) n TrigIn.reset).fifo = []
  simp only [unit, List.getD_eq_getElem?_getD, List.getElem?_append, List.getElem?_replicate, List.getElem?_singleton]
  split <;> split <;> rfl

theorem no_far_nodes : ∀ h : Nat, 2 ≤ h → (nodeOf r0 0 h).present = false := by
  intro h le
  obtain ⟨k, rfl⟩ : ∃ k, h = k + 2 := ⟨h - 2, by omega⟩
  show (unit (List.replicate 15 Node.reset) k Node.reset).present = false
  simp only [unit, List.getD_eq_getElem?_getD, List.getElem?_replicate]
  split <;> rfl

theorem no_link_up : ∀ p : Nat, linkUp w07_7 p = false := by
  intro p
  have e : portOf w07_7 p = Port.reset := by
    show unit (List.replicate 32 Port.reset) p Port.reset = _
    simp only [unit, List.getD_eq_getElem?_getD, List.getElem?_replicate]
    split <;> rfl
  simp only [linkUp, e]
  rfl

theorem ecdsa_zero {c : EcCurve} {x y r k : Nat} {d : List Byte} (h : r = 0) : ecdsaVerify c x y d r k = false := by
  subst h
  simp [ecdsaVerify]

/-- The image in Basin with the OTP counter of the rollback protection at `n`. -/
def fwAt (n : BitVec 7) : State := { fwMem with ident := { fwMem.ident with otp := { fwMem.ident.otp with rollback := n } } }

theorem key_of {b : List Byte} (hk : Config.eohusKey 0 = fwKey) (e : field b 4 1 = 0) : Config.eohusKey (field b 4 1) = fwKey := by
  rw [e, hk]

/-- The last two clauses of FirstImageCheckThatFails: where key 0 of the boot ROM, which the model leaves open, is the image's, the
image passes every check. -/
theorem witness_image_that_passes (hk : Config.eohusKey 0 = fwKey) : imageChecks 736 (fwAt 3) = 0 := by
  have e := key_of (b := memRead (736 - 160) 160 (fwAt 3)) hk (by decide +kernel)
  unfold imageChecks
  simp only
  rw [e]
  decide +kernel

/-- With the OTP counter one higher only its ROLLBACK fails. -/
theorem witness_image_rolled_back (hk : Config.eohusKey 0 = fwKey) : imageChecks 736 (fwAt 4) = 7 := by
  have e := key_of (b := memRead (736 - 160) 160 (fwAt 4)) hk (by decide +kernel)
  unfold imageChecks
  simp only
  rw [e]
  decide +kernel

/-- The GO of BootRomSteps. -/
theorem witness_image_that_starts (hk : Config.eohusKey 0 = fwKey) :
    verify1.boot.phase = 3 ∧ imageChecks verify1.boot.goLen (passTo 5 verify1) = 0 := by
  refine ⟨by decide +kernel, ?_⟩
  have e := key_of (b := memRead (verify1.boot.goLen - 160) 160 (passTo 5 verify1)) hk (by decide +kernel)
  unfold imageChecks
  simp only
  rw [e]
  decide +kernel

theorem some_parts {α β γ : Type} {o : Option (α × β × γ)} {d : α × β × γ} (h : o.isSome = true) :
    o = some ((o.getD d).1, (o.getD d).2.1, (o.getD d).2.2) := by
  obtain ⟨x, rfl⟩ := Option.isSome_iff_exists.mp h
  rfl


/-- No shutdown where no sensor is hot and every rail is at its nominal, whatever that is. -/
theorem no_shutdown {s : State} (h : ∀ k < 16, (slotNow s (2 + k)).toNat = railNominal k)
    (h1 : hotGroup s (rosSlots s) (thresh s 0xA00208 0) = none) (h2 : hotGroup s modSlots (thresh s 0xA0020C 16) = none)
    (h3 : hotGroup s dramSlots (thresh s 0xA00210 16) = none) : shutdownDue s = none := by
  have e : ∀ b : Nat → Bool, twiceBeyond s (fun i => decide (10 * railNominal (i - 2) < 100 * railOff (slotNow s i) (i - 2))) b
      ((List.range 16).map fun k => 2 + k) = none := by
    intro b
    have f : ((List.range 16).map fun k => 2 + k).filter
        (fun i => decide (10 * railNominal (i - 2) < 100 * railOff (slotNow s i) (i - 2))) = [] := by
      simp only [List.filter_eq_nil_iff, List.mem_map, List.mem_range, decide_eq_true_eq]
      rintro _ ⟨k, hk, rfl⟩
      simp [railOff, h k hk]
    simp only [twiceBeyond, f]
    simp
  simp only [shutdownDue, h1, h2, h3, e]

theorem rails_at_nominal : shutdownDue (recRound v14_16) = none := by
  have r : v14_16.hk.reads = (List.range 64).map (fun i => if i < 46 then unit railReads i 0 else 0) := by
    unfold v14_16
    split <;> rfl
  refine no_shutdown (fun k hk => ?_) (by decide +kernel) (by decide +kernel) (by decide +kernel)
  simp only [slotNow, show (recRound v14_16).hk = v14_16.hk from rfl, r]
  interval_cases k <;> simp [unit, railReads, railNominal]

/-! ### Witnesses -/

theorem witness_JobDescriptors :
    (Ready h0 r0 ∧ r0.jobs.state = (0 : BitVec 4)) ∧
    (Ready h0 r0 ∧ r0.jobs.state = (0 : BitVec 4) ∧ r0.jobs.header = none) ∧
    (Ready h0 (withJob (build (9 : BitVec 4))) ∧ (withJob (build (9 : BitVec 4))).jobs.state ≠ (10 : BitVec 4)) ∧
    (Ready h0 (withJob (build (1 : BitVec 4))) ∧ (withJob (build (1 : BitVec 4))).jobs.state ≠ (0 : BitVec 4)) ∧
    (Ready h0 mJob ∧ startBarred mJob = false ∧ 536870912 % 64 = 0 ∧ hostMem 536870912 640 mJob = true ∧ poisonIn 536870912 640 mJob =
      none ∧ headerOk (memRead 536870912 640 mJob) mJob = true ∧ foreignJob mJob (readJobHeader (memRead 536870912 640 mJob)) = false) ∧
    (Ready h0 mJob ∧ startBarred mJob = false ∧ 536870912 % 64 = 0 ∧ hostMem 536870912 640 mJob = true ∧ poisonIn 536870912 640 mJob =
      none ∧ headerOk (memRead 536870912 640 mJob) mJob = true ∧ foreignJob mJob (readJobHeader (memRead 536870912 640 mJob)) = false ∧
      (readJobHeader (memRead 536870912 640 mJob)).line = false) ∧
    (Ready h0 mLine ∧ startBarred mLine = false ∧ 536870912 % 64 = 0 ∧ hostMem 536870912 640 mLine = true ∧ poisonIn 536870912 640 mLine
      = none ∧ headerOk (memRead 536870912 640 mLine) mLine = true ∧ foreignJob mLine (readJobHeader (memRead 536870912 640 mLine)) =
      false ∧ (readJobHeader (memRead 536870912 640 mLine)).line = true ∧ (readJobHeader (memRead 536870912 640 mLine)).atTime = none ∧
      crossZones mLine = false) ∧
    (Ready h0 (withJob (build (10 : BitVec 4))) ∧ (withJob (build (10 : BitVec 4))).jobs.state = (10 : BitVec 4)) ∧
    (Ready h0 (withJob (build (2 : BitVec 4))) ∧ (withJob (build (2 : BitVec 4))).jobs.state ≠ (0 : BitVec 4) ∧ 1 < 2) ∧
    (Ready h0 (withJob (build (2 : BitVec 4))) ∧ ((withJob (build (2 : BitVec 4))).jobs.state = (2 : BitVec 4) ∨ (withJob (build (2 :
      BitVec 4))).jobs.state = (3 : BitVec 4))) ∧
    (Ready h0 (withJob (build (3 : BitVec 4))) ∧ ((withJob (build (3 : BitVec 4))).jobs.state = (2 : BitVec 4) ∨ (withJob (build (3 :
      BitVec 4))).jobs.state = (3 : BitVec 4))) ∧
    (Ready h0 (withJob (line (11 : BitVec 4))) ∧ (withJob (line (11 : BitVec 4))).jobs.state = (11 : BitVec 4)) ∧
    (Ready h0 (withJob (line (12 : BitVec 4))) ∧ (withJob (line (12 : BitVec 4))).jobs.state = (12 : BitVec 4)) ∧
    (Ready h0 w02_1 ∧ w02_1.jobs.state ∉ [(0 : BitVec 4), (2 : BitVec 4), (3 : BitVec 4), (11 : BitVec 4), (12 : BitVec 4)]) ∧
    (Ready h0 w02_2 ∧ w02_2.jobs.state ≠ (0 : BitVec 4)) ∧
    (Ready h0 w02_3 ∧ w02_3.jobs.state ≠ (0 : BitVec 4) ∧ w02_3.jobs.line = false ∧ cancelBarred w02_3 0 = true) ∧
    (Ready h0 w02_4 ∧ w02_4.jobs.state ≠ (0 : BitVec 4) ∧ w02_4.jobs.line = false ∧ cancelBarred w02_4 1 = false) ∧
    (Ready h0 w02_5 ∧ w02_5.jobs.state ≠ (0 : BitVec 4) ∧ w02_5.jobs.line = false ∧ cancelBarred w02_5 1 = false ∧ (∀ x ∈
      w02_5.jobs.layers, x.index < 1)) ∧
    (Ready h0 w02_6 ∧ w02_6.jobs.state = (10 : BitVec 4) ∧ modeSuits w02_6.jobs.cause.toNat 2 = false) ∧
    (Ready h0 w02_7 ∧ w02_7.jobs.state = (10 : BitVec 4) ∧ modeSuits w02_7.jobs.cause.toNat 1 = true ∧ w02_7.jobs.machine = false) ∧
    (Ready h0 w02_8 ∧ w02_8.jobs.state = (10 : BitVec 4) ∧ modeSuits w02_8.jobs.cause.toNat 1 = true ∧ w02_8.jobs.machine = true) ∧
    (Ready h0 (withJob (build (6 : BitVec 4))) ∧ (withJob (build (6 : BitVec 4))).jobs.state ≠ (0 : BitVec 4) ∧ (withJob (build (6 :
      BitVec 4))).jobs.state ≠ (10 : BitVec 4)) ∧
    (Ready h0 (withJob (build (2 : BitVec 4))) ∧ (withJob (build (2 : BitVec 4))).jobs.state = (2 : BitVec 4) ∧ (withJob (build (2 :
      BitVec 4))).members.lossHold = false) ∧
    (Ready h0 w02_9 ∧ w02_9.jobs.state ∈ [(3 : BitVec 4), (5 : BitVec 4), (6 : BitVec 4), (7 : BitVec 4)] ∧ w02_9.jobs.stageEnd = some 5
      ∧ w02_9.now < 5) ∧
    (Ready h0 (withJob (build (4 : BitVec 4))) ∧ (withJob (build (4 : BitVec 4))).jobs.state = (4 : BitVec 4)) ∧
    (Ready h0 w02_10 ∧ w02_10.jobs.state ≠ (0 : BitVec 4) ∧ namesFused w02_10 (1 : BitVec 128) = false ∧ w02_10.jobs.line = false) ∧
    (Ready h0 (withJob (line (11 : BitVec 4))) ∧ (withJob (line (11 : BitVec 4))).jobs.state ≠ (0 : BitVec 4) ∧ namesFused (withJob
      (line (11 : BitVec 4))) (3 : BitVec 128) = false ∧ (withJob (line (11 : BitVec 4))).jobs.line = true ∧ (∀ l ∈ lanesIn (3 : BitVec
      128), (beamNode (withJob (line (11 : BitVec 4))) l).isSome = true)) :=
  ⟨⟨ready_of (by decide +kernel), by decide +kernel⟩,
   ⟨ready_of (by decide +kernel), by decide +kernel⟩,
   ⟨ready_of (by decide +kernel), by decide +kernel⟩,
   ⟨ready_of (by decide +kernel), by decide +kernel⟩,
   ⟨ready_of (by decide +kernel), by decide +kernel⟩,
   ⟨ready_of (by decide +kernel), by decide +kernel⟩,
   ⟨ready_of (by decide +kernel), by decide +kernel⟩,
   ⟨ready_of (by decide +kernel), by decide +kernel⟩,
   ⟨ready_of (by decide +kernel), by decide +kernel⟩,
   ⟨ready_of (by decide +kernel), by decide +kernel⟩,
   ⟨ready_of (by decide +kernel), by decide +kernel⟩,
   ⟨ready_of (by decide +kernel), by decide +kernel⟩,
   ⟨ready_of (by decide +kernel), by decide +kernel⟩,
   ⟨ready_of (by decide +kernel), by decide +kernel⟩,
   ⟨ready_of (by decide +kernel), by decide +kernel⟩,
   ⟨ready_of (by decide +kernel), by decide +kernel⟩,
   ⟨ready_of (by decide +kernel), by decide +kernel⟩,
   ⟨ready_of (by decide +kernel), by decide +kernel⟩,
   ⟨ready_of (by decide +kernel), by decide +kernel⟩,
   ⟨ready_of (by decide +kernel), by decide +kernel⟩,
   ⟨ready_of (by decide +kernel), by decide +kernel⟩,
   ⟨ready_of (by decide +kernel), by decide +kernel⟩,
   ⟨ready_of (by decide +kernel), by decide +kernel⟩,
   ⟨ready_of (by decide +kernel), by decide +kernel⟩,
   ⟨ready_of (by decide +kernel), by decide +kernel⟩,
   ⟨ready_of (by decide +kernel), by decide +kernel⟩,
   ⟨ready_of (by decide +kernel), by decide +kernel⟩⟩

theorem witness_LayersAndMarksAreParked :
    (Ready h0 (memPut 536870912 headL (withJob (build (1 : BitVec 4)))) ∧ (memPut 536870912 headL (withJob (build (1 : BitVec
      4)))).jobs.state ≠ (0 : BitVec 4) ∧ (memPut 536870912 headL (withJob (build (1 : BitVec 4)))).jobs.line = false ∧ (memPut
      536870912 headL (withJob (build (1 : BitVec 4)))).jobs.layers.length < 64 ∧ 536870912 % 64 = 0 ∧ hostMem 536870912 4160 (memPut
      536870912 headL (withJob (build (1 : BitVec 4)))) = true ∧ poisonIn 536870912 64 (memPut 536870912 headL (withJob (build (1 :
      BitVec 4)))) = none ∧ (memPut 536870912 headL (withJob (build (1 : BitVec 4)))).jobs.failed = [] ∧ field (memRead 536870912 64
      (memPut 536870912 headL (withJob (build (1 : BitVec 4))))) 0 4 = layerMagic ∧ v02_14.index = queueIndex (memPut 536870912 headL
      (withJob (build (1 : BitVec 4)))) ∧ v02_14.status % 64 = 0 ∧ hostMem v02_14.status 2048 (memPut 536870912 headL (withJob (build (1
      : BitVec 4)))) = true) ∧
    (Ready h0 w02_11 ∧ w02_11.jobs.state ≠ (0 : BitVec 4) ∧ w02_11.jobs.line = false ∧ w02_11.jobs.layers.length < 64 ∧ 536870912 % 64 =
      0 ∧ hostMem 536870912 4160 w02_11 = true ∧ poisonIn 536870912 64 w02_11 = none ∧ field (memRead 536870912 64 w02_11) 0 4 =
      layerMagic ∧ indexOk w02_11 (readHead (memRead 536870912 64 w02_11)).index = true ∧ (readHead (memRead 536870912 64
      w02_11)).status % 64 = 0 ∧ hostMem (readHead (memRead 536870912 64 w02_11)).status 2048 w02_11 = true) ∧
    (Ready h0 w02_12 ∧ w02_12.jobs.header = some w02_13 ∧ w02_13.line = true ∧ w02_12.jobs.state ≠ (12 : BitVec 4) ∧ 0 <
      w02_12.variant.lanes ∧ w02_13.lanes.getLsbD 0 = true ∧ 855638016 % 32 = 0 ∧ 1 ≤ 2 ∧ 2 ≤ 16777215 ∧ hostMem 855638016 (32 * 2)
      w02_12 = true ∧ 872415232 % 32 = 0 ∧ (2 = 1 ∨ hostMem 872415232 (32 * (2 - 1)) w02_12 = true) ∧ overlap (855638016, 32 * 2)
      (872415232, 32 * (2 - 1)) = false ∧ 64 ≤ (laneOf w02_12 0).marks.length) ∧
    (Ready h0 mMark ∧ mMark.jobs.header = some w02_13 ∧ w02_13.line = true ∧ mMark.jobs.state ≠ (12 : BitVec 4) ∧ 1 <
      mMark.variant.lanes ∧ w02_13.lanes.getLsbD 1 = true ∧ 855638016 % 32 = 0 ∧ 1 ≤ 2 ∧ 2 ≤ 16777215 ∧ hostMem 855638016 (32 * 2) mMark
      = true ∧ 872415232 % 32 = 0 ∧ (2 = 1 ∨ hostMem 872415232 (32 * (2 - 1)) mMark = true) ∧ overlap (855638016, 32 * 2) (872415232, 32
      * (2 - 1)) = false ∧ (laneOf mMark 1).marks.length < 64 ∧ ((laneOf mMark 1).marks.any fun m => decide (m.product = v02_18)) =
      false ∧ (4294967294 = 4294967295 ∨ w02_13.first ≤ 4294967294 ∧ settled mMark 1 4294967294 = false) ∧ readPoison 855638016 (32 * 2)
      (accept h0 23 mMark) = accept h0 23 mMark ∧ v02_19.error = none ∧ (∀ y ∈ v02_19.syncs, ∀ z ∈ markSyncs mMark v02_18 1, y.differs z
      = false) ∧ (mMark.jobs.startRef = none ∨ w02_13.atTime.isSome = true ∨ ∀ y ∈ v02_19.syncs, y.members = 2 ^
      mMark.prof.machine.member)) ∧
    (Ready h0 r0 ∧ r0.jobs.checks = []) ∧
    (Ready h0 w02_14 ∧ w02_14.jobs.checks = [0] ∧ layerOf w02_14 0 = some w02_15 ∧ w02_14.jobs.startRef = none ∧ (checkLayer v02_21
      w02_15).status = stDone) ∧
    (Ready h0 mLayer ∧ mLayer.jobs.checks = [0] ∧ layerOf mLayer 0 = some w02_16 ∧ mLayer.jobs.startRef = none ∧ (checkLayer v02_22
      w02_16).status = stDone) ∧
    (Ready h0 w02_17 ∧ w02_17.jobs.checks = [0] ∧ layerOf w02_17 0 = some w02_18 ∧ w02_17.jobs.startRef = none ∧ (checkLayer v02_23
      w02_18).status ≠ stDone) ∧
    (Ready h0 w02_19 ∧ w02_19.jobs.state = (11 : BitVec 4) ∧ w02_19.jobs.holdAsked = [] ∧ (jobLanes w02_19).contains 0 = true ∧
      dueProduct (passTo 9 w02_19) 0 = some prod0 ∧ (laneOf w02_19 0).reenable = false ∧ (laneOf w02_19 0).state = LaneState.idle ∧
      (laneOf w02_19 0).marking = none ∧ (laneOf w02_19 0).marks = [] ∧ (beamNode w02_19 0).isSome = true ∧ (laneOf w02_19 0).noData =
      true) ∧
    (Ready h0 w02_20 ∧ w02_20.jobs.state = (11 : BitVec 4) ∧ w02_20.jobs.holdAsked = [] ∧ (jobLanes w02_20).contains 0 = true ∧
      dueProduct (passTo 9 w02_20) 0 = some prod0 ∧ (laneOf w02_20 0).reenable = false ∧ (laneOf w02_20 0).state = LaneState.idle ∧
      (laneOf w02_20 0).marking = none ∧ (laneOf w02_20 0).marks = [mark0] ∧ mark0.product = prod0.k ∧ (beamNode w02_20 0).isSome = true
      ∧ Option.any (fun st => decide (st.key = mark0.product)) (laneOf w02_20 0).stream = true) ∧
    (Ready h0 r0 ∧ r0.jobs.state ≠ (11 : BitVec 4) ∧ r0.jobs.line = false) :=
  ⟨⟨ready_of (by decide +kernel), by decide +kernel⟩,
   ⟨ready_of (by decide +kernel), by decide +kernel⟩,
   ⟨ready_of (by decide +kernel), by decide +kernel⟩,
   ⟨ready_of (by decide +kernel), by decide +kernel⟩,
   ⟨ready_of (by decide +kernel), by decide +kernel⟩,
   ⟨ready_of (by decide +kernel), by decide +kernel⟩,
   ⟨ready_of (by decide +kernel), by decide +kernel⟩,
   ⟨ready_of (by decide +kernel), by decide +kernel⟩,
   ⟨ready_of (by decide +kernel), by decide +kernel⟩,
   ⟨ready_of (by decide +kernel), by decide +kernel⟩,
   ⟨ready_of (by decide +kernel), by decide +kernel⟩⟩

theorem witness_SequencerStagesAndLayerCompletion :
    (w02_21.jobs.tor = some 9 ∧ max w02_21.now 8 < 9) ∧
    (w02_21.jobs.tor = some 9 ∧ 9 ≤ max w02_21.now 9 ∧ w02_21.jobs.state = (1 : BitVec 4) ∧ w02_21.jobs.startRef = none ∧
      w02_21.jobs.holdAsked = [] ∧ w02_21.jobs.machine = false ∧ w02_21.jobs.header = some w02_22 ∧ w02_22.line = true) ∧
    (w02_23.jobs.tor = some 9 ∧ 9 ≤ max w02_23.now 9 ∧ w02_23.jobs.state = (1 : BitVec 4) ∧ w02_23.jobs.startRef = none ∧
      w02_23.jobs.holdAsked = [] ∧ w02_23.jobs.machine = false ∧ w02_23.jobs.header = some job0 ∧ job0.line = false ∧ nextReady w02_23 =
      true) ∧
    (w02_24.jobs.stageEnd = some 10 ∧ 10 ≤ max w02_24.now 10 ∧ w02_24.jobs.state = (3 : BitVec 4)) ∧
    (w02_25.jobs.stageEnd = some 10 ∧ 10 ≤ max w02_25.now 10 ∧ w02_25.jobs.state = (5 : BitVec 4)) ∧
    (w02_26.jobs.stageEnd = some 10 ∧ 10 ≤ max w02_26.now 10 ∧ w02_26.jobs.state = (7 : BitVec 4)) ∧
    (w02_27.jobs.stageEnd = some 10 ∧ 10 ≤ max w02_27.now 10 ∧ w02_27.jobs.state = (8 : BitVec 4)) ∧
    (w02_28.jobs.state ≠ (10 : BitVec 4) ∧ w02_28.jobs.stageEnd = some 10 ∧ max w02_28.now 9 < 10) ∧
    (w02_28.jobs.state = (6 : BitVec 4) ∧ w02_28.jobs.stageEnd = some 10 ∧ 10 ≤ max w02_28.now 10 ∧ w02_28.jobs.holdAsked = [] ∧
      w02_28.jobs.machine = false) ∧
    (w02_29.jobs.state = (3 : BitVec 4) ∧ w02_29.jobs.stageEnd = some 10 ∧ 10 ≤ max w02_29.now 10 ∧ [1, 2, 3].contains
      w02_29.jobs.holdAfter = true) ∧
    (armed0.jobs.state = (8 : BitVec 4) ∧ armed0.jobs.final = false ∧ armed0.jobs.l ≤ max armed0.now 950000 + tLead armed0 + 1000000 ∧
      policyHold armed0 = false ∧ armed0.jobs.holdAsked = [] ∧ armed0.jobs.machine = false ∧ armed0.permit.high = true ∧ notArmed armed0
      = [] ∧ ripplePlace (RippleWork.layerStart (armed0.jobs.exposed.getD 0)) armed0 = true) ∧
    (w02_30.jobs.state = (8 : BitVec 4) ∧ w02_30.jobs.final = false ∧ w02_30.jobs.l ≤ max w02_30.now 950000 + tLead w02_30 + 1000000 ∧
      policyHold w02_30 = false ∧ w02_30.jobs.holdAsked = [] ∧ w02_30.jobs.machine = false ∧ w02_30.permit.high = true ∧ notArmed w02_30
      ≠ [] ∧ w02_30.jobs.late < 1000) ∧
    (theLayer w02_31 = some layer0 ∧ (∃ l ∈ layer0.laneList, (laneOf w02_31 l).state.active = true)) ∧
    (theLayer w02_32 = some layer0 ∧ (∀ l ∈ layer0.laneList, (laneOf w02_32 l).state.active = false) ∧ w02_32.jobs.state = (2 : BitVec
      4) ∧ w02_32.jobs.exposeDone = true ∧ w02_32.members.lossHold = false ∧ w02_32.jobs.machine = false ∧ w02_32.jobs.exposed = some 0) ∧
    (w02_33.jobs.completing = some 0 ∧ layerOf w02_33 0 = some layer0 ∧ allEnded layer0 = true) ∧
    (w02_34.jobs.completing = some 0 ∧ layerOf w02_34 0 = some layerS ∧ allEnded layerS = false) ∧
    (layerOf w02_35 0 = some layerS) :=
  ⟨by decide +kernel,
   by decide +kernel,
   by decide +kernel,
   by decide +kernel,
   by decide +kernel,
   by decide +kernel,
   by decide +kernel,
   by decide +kernel,
   by decide +kernel,
   by decide +kernel,
   by decide +kernel,
   by decide +kernel,
   by decide +kernel,
   by decide +kernel,
   by decide +kernel,
   by decide +kernel,
   by decide +kernel⟩

theorem witness_PermitsAndHolds :
    (w02_36.jobs.state = (2 : BitVec 4) ∧ w02_36.hk.runs = [] ∧ w02_36.hk.groups = [] ∧ w02_36.permit.a = true) ∧
    (w02_36.jobs.state = (2 : BitVec 4) ∧ w02_36.hk.runs = [] ∧ w02_36.hk.groups = [] ∧ w02_36.permit.b = true) ∧
    (w02_37.jobs.state = (9 : BitVec 4) ∧ w02_37.jobs.machine = false) ∧
    ((∀ l ∈ allLanes r0, (laneOf r0 l).faultable (max r0.now 7) = false ∨ (laneOf r0 l).state = LaneState.armed) ∧ r0.jobs.state ≠ (2 :
      BitVec 4) ∧ r0.jobs.state ≠ (8 : BitVec 4) ∧ r0.hk.runs = [] ∧ r0.hk.groups = [] ∧ r0.permit.a = false) ∧
    ((∀ l ∈ allLanes w02_38, (laneOf w02_38 l).faultable (max w02_38.now 7) = false ∨ (laneOf w02_38 l).state = LaneState.armed) ∧
      w02_38.jobs.state ≠ (2 : BitVec 4) ∧ w02_38.jobs.state ≠ (8 : BitVec 4) ∧ w02_38.hk.runs = [] ∧ w02_38.hk.groups = [] ∧
      w02_38.permit.b = true) ∧
    (r0.jobs.state ≠ (9 : BitVec 4)) :=
  ⟨by decide +kernel,
   by decide +kernel,
   by decide +kernel,
   by decide +kernel,
   by decide +kernel,
   by decide +kernel⟩

theorem witness_MachineJobFrames :
    (r0.jobs.machine = false) ∧
    ((mach false (2 : BitVec 4)).jobs.machine = true ∧ isLeader (mach false (2 : BitVec 4)) = false) ∧
    ((mach false (2 : BitVec 4)).jobs.machine = true ∧ isLeader (mach false (2 : BitVec 4)) = false ∧ 2 ≠ (mach false (2 : BitVec
      4)).members.leaderMember.toNat) ∧
    ((mach false (2 : BitVec 4)).jobs.machine = true ∧ isLeader (mach false (2 : BitVec 4)) = false ∧ (mach false (2 : BitVec
      4)).members.elected = true ∧ (mach false (2 : BitVec 4)).jobs.state ≠ (8 : BitVec 4) ∧ (mach false (2 : BitVec 4)).jobs.state ≠
      (10 : BitVec 4)) ∧
    ((mach false (8 : BitVec 4)).jobs.machine = true ∧ isLeader (mach false (8 : BitVec 4)) = false ∧ (mach false (8 : BitVec
      4)).jobs.state = (8 : BitVec 4) ∧ (mach false (8 : BitVec 4)).jobs.final = false ∧ (mach false (8 : BitVec 4)).jobs.l ≤ max (mach
      false (8 : BitVec 4)).now 950000 + tLead (mach false (8 : BitVec 4)) + 3000000 ∧ notArmed (mach false (8 : BitVec 4)) ≠ [] ∧ (mach
      false (8 : BitVec 4)).jobs.late < 1000) ∧
    ((mach true (2 : BitVec 4)).jobs.machine = true ∧ isLeader (mach true (2 : BitVec 4)) = true) ∧
    ((mach true (2 : BitVec 4)).jobs.machine = true ∧ isLeader (mach true (2 : BitVec 4)) = true ∧ (mach true (2 : BitVec
      4)).members.plan ≠ [] ∧ planAcked (mach true (2 : BitVec 4)) = false) ∧
    ((mach true (8 : BitVec 4)).jobs.machine = true ∧ isLeader (mach true (8 : BitVec 4)) = true ∧ (mach true (8 : BitVec 4)).jobs.state
      = (8 : BitVec 4) ∧ (mach true (8 : BitVec 4)).jobs.final = false ∧ (mach true (8 : BitVec 4)).jobs.l ≤ max (mach true (8 : BitVec
      4)).now 950000 + tLead (mach true (8 : BitVec 4)) + 3000000 ∧ notArmed (mach true (8 : BitVec 4)) ≠ [] ∧ (mach true (8 : BitVec
      4)).jobs.late < 1000) ∧
    ((mach true (8 : BitVec 4)).jobs.machine = true ∧ isLeader (mach true (8 : BitVec 4)) = true ∧ (otherMembers (mach true (8 : BitVec
      4))).contains 2 = false) ∧
    (w02_40.jobs.machine = true ∧ isLeader w02_40 = true ∧ (otherMembers w02_40).contains 1 = true ∧ w02_40.members.plan = [] ∧ 2 ≠ 10 ∧
      w02_40.jobs.state ≠ (8 : BitVec 4) ∧ w02_40.jobs.state ≠ (10 : BitVec 4)) :=
  ⟨by decide +kernel,
   by decide +kernel,
   by decide +kernel,
   by decide +kernel,
   by decide +kernel,
   by decide +kernel,
   by decide +kernel,
   by decide +kernel,
   by decide +kernel,
   by decide +kernel⟩

theorem witness_LineProducts :
    ((withJob (line (11 : BitVec 4))).jobs.header = some w02_22 ∧ (withJob (line (11 : BitVec 4))).jobs.line = true ∧ (withJob (line (11
      : BitVec 4))).jobs.state = (11 : BitVec 4)) ∧
    ((withJob (line (12 : BitVec 4))).jobs.header = some w02_22 ∧ (withJob (line (12 : BitVec 4))).jobs.state ≠ (11 : BitVec 4) ∧
      (withJob (line (12 : BitVec 4))).jobs.state ≠ (10 : BitVec 4)) ∧
    (w02_41.jobs.header = some w02_22 ∧ w02_41.jobs.products = [w02_42] ∧ w02_22.line = true ∧ w02_42.k = w02_41.jobs.markWritten ∧ 0 <
      w02_22.markCount ∧ (∀ l ∈ jobLanes w02_41, w02_42.done.getLsbD l = true) ∧ (∀ l ∈ allLanes w02_41, (laneOf w02_41 l).marking =
      none ∧ (laneOf w02_41 l).state.active = false) ∧ w02_41.jobs.state = (11 : BitVec 4) ∧ w02_41.jobs.holdAsked = [] ∧ poisonPart
      (w02_22.markAddr + 32 * (w02_42.k % w02_22.markCount)) 32 w02_41 = []) ∧
    (w02_43.jobs.header = some job0 ∧ w02_43.jobs.products = [w02_44] ∧ 1 ∈ jobLanes w02_43 ∧ w02_44.done.getLsbD 1 = false ∧
      w02_43.jobs.line = false) :=
  ⟨by decide +kernel,
   by decide +kernel,
   by decide +kernel,
   by decide +kernel⟩

theorem witness_CorrectionChanges :
    (Ready h0 w03_1 ∧ namesFused w03_1 (BitVec.ofNat 128 1 <<< 48) = true) ∧
    (Ready h0 b2 ∧ namesFused b2 (127 : BitVec 128) = false) ∧
    (Ready h0 b2 ∧ (laneRec b2 0).gridSets ≤ 1) ∧
    (Ready h0 w03_2 ∧ 0 < w03_2.variant.lanes ∧ (laneRec w03_2 0).mapped = true ∧ 0 < (laneRec w03_2 0).gridSets ∧ 536870912 % 4 = 0 ∧
      hostMem 536870912 12 w03_2 = true ∧ hostMem 536870912 (12 + memNat (536870912 + 4) 4 w03_2) w03_2 = true ∧ gridsBusy (laneOf w03_2
      0).map = true) ∧
    (Ready h0 mGrid ∧ 0 < mGrid.variant.lanes ∧ (laneRec mGrid 0).mapped = true ∧ 0 < (laneRec mGrid 0).gridSets ∧ 536870912 % 4 = 0 ∧
      hostMem 536870912 12 mGrid = true ∧ hostMem 536870912 (12 + memNat (536870912 + 4) 4 mGrid) mGrid = true ∧ gridsBusy (laneOf mGrid
      0).map = false ∧ recordImage 536870912 149808 mGrid = some (17, 8 * 0 + 0, gpay) ∧ readGrid gpay = some w03_3 ∧ tempsRise (setsOf
      (v03_1 (accept h0 34 mGrid)) 0) = true) ∧
    (Ready h0 mBlend ∧ (laneOf mBlend 0).map.grid.isSome = true ∧ (laneOf mBlend 0).map.blend = some blend0 ∧ blend0.start = some 100) ∧
    (Ready h0 mGrid ∧ (laneOf mGrid 0).map.grid.isSome = true ∧ (laneOf mGrid 0).map.blend = none) ∧
    (Ready h0 mBlend ∧ (laneOf mBlend 0).map.blend = some blend0 ∧ blend0.start = some 100 ∧ max mBlend.now 149 < 100 + blend0.len) ∧
    (Ready h0 mBlend ∧ (laneOf mBlend 0).map.blend = some blend0 ∧ blend0.start = some 100 ∧ 100 + blend0.len ≤ max mBlend.now 150 ∧
      (laneOf mBlend 0).map.waiting = none) ∧
    (Ready h0 w03_4 ∧ (laneOf w03_4 0).map.blend = some blend0 ∧ blend0.start = some 100 ∧ 100 + blend0.len ≤ max w03_4.now 150 ∧
      (laneOf w03_4 0).map.waiting = some blend0.change) :=
  ⟨⟨ready_of (by decide +kernel), by decide +kernel⟩,
   ⟨ready_of (by decide +kernel), by decide +kernel⟩,
   ⟨ready_of (by decide +kernel), by decide +kernel⟩,
   ⟨ready_of (by decide +kernel), by decide +kernel⟩,
   ⟨ready_of (by decide +kernel), by decide +kernel⟩,
   ⟨ready_of (by decide +kernel), by decide +kernel⟩,
   ⟨ready_of (by decide +kernel), by decide +kernel⟩,
   ⟨ready_of (by decide +kernel), by decide +kernel⟩,
   ⟨ready_of (by decide +kernel), by decide +kernel⟩,
   ⟨ready_of (by decide +kernel), by decide +kernel⟩⟩

theorem witness_LaneLimitChanges :
    (Ready h0 r0 ∧ r0.jobs.state = (0 : BitVec 4)) ∧
    (Ready h0 b48 ∧ b48.jobs.state ≠ (0 : BitVec 4) ∧ namesFused b48 (BitVec.ofNat 128 1 <<< 48) = true) ∧
    (Ready h0 b2 ∧ b2.jobs.state ≠ (0 : BitVec 4)) ∧
    (Ready h0 w03_5 ∧ w03_5.jobs.state ≠ (0 : BitVec 4) ∧ namesFused w03_5 (3 : BitVec 128) = false ∧ (true || true) = true) ∧
    (inDecel b2 (laneOf b2 127) = false) ∧
    (inDecel w03_6 (laneOf w03_6 0) = false) ∧
    (inDecel mDec (laneOf mDec 0) = true ∧ recAt (mDec.now + tLead mDec) (laneOf mDec 0).plan = some recDec) ∧
    (Ready h0 mDec ∧ mDec.jobs.state ≠ (0 : BitVec 4) ∧ namesFused mDec (1 : BitVec 128) = false ∧ (true || true) = true) :=
  ⟨⟨ready_of (by decide +kernel), by decide +kernel⟩,
   ⟨ready_of (by decide +kernel), by decide +kernel⟩,
   ⟨ready_of (by decide +kernel), by decide +kernel⟩,
   ⟨ready_of (by decide +kernel), by decide +kernel⟩,
   by decide +kernel,
   by decide +kernel,
   by decide +kernel,
   ⟨ready_of (by decide +kernel), by decide +kernel⟩⟩

theorem witness_LanesFetchPlanAndEnd :
    (settleLane 0 (passTo 5 mFetch) = passTo 5 mFetch ∧ (laneOf mFetch 0).stream = some w03_7 ∧ (laneOf mFetch 0).state ≠ LaneState.off
      ∧ (laneOf mFetch 0).state ≠ LaneState.fault ∧ (laneOf mFetch 0).buf.length + List.countP (fun r => r.first.isNone) (laneOf mFetch
      0).plan + 64 ≤ 2048 ∧ (∀ f ∈ (laneOf mFetch 0).buf, f.bad = none) ∧ (∀ k < min 64 (w03_7.count - (laneOf mFetch 0).fetchNext),
      poisonIn (w03_7.addr + 32 * ((laneOf mFetch 0).fetchNext + k)) 32 mFetch = none ∧ w03_7.checked.getD ((laneOf mFetch 0).fetchNext
      + k) [] = memRead (w03_7.addr + 32 * ((laneOf mFetch 0).fetchNext + k)) 32 mFetch)) ∧
    (settleLane 0 (passTo 5 mFetch) = passTo 5 mFetch ∧ (laneOf mFetch 0).buf = []) ∧
    (settleLane 0 (passTo 5 w03_8) = passTo 5 w03_8 ∧ 512 ≤ windowCount (laneOf w03_8 0)) ∧
    (settleLane 0 (passTo 5 (mArm (List.replicate 512 rec0))) = passTo 5 (mArm (List.replicate 512 rec0)) ∧ (laneOf (mArm
      (List.replicate 512 rec0)) 0).state = LaneState.idle ∧ (mArm (List.replicate 512 rec0)).jobs.state = (8 : BitVec 4) ∧ inLayer
      (mArm (List.replicate 512 rec0)) 0 = true ∧ (laneOf (mArm (List.replicate 512 rec0)) 0).excluded = false ∧ (laneOf (mArm
      (List.replicate 512 rec0)) 0).headFault = false ∧ (512 ≤ (laneOf (mArm (List.replicate 512 rec0)) 0).plan.length ∨ ∃ r ∈ (laneOf
      (mArm (List.replicate 512 rec0)) 0).plan, r.vec = Vec.stop)) ∧
    (settleLane 0 (passTo 5 (mArm [rec0, recEnd])) = passTo 5 (mArm [rec0, recEnd]) ∧ (laneOf (mArm [rec0, recEnd]) 0).state =
      LaneState.idle ∧ (mArm [rec0, recEnd]).jobs.state = (8 : BitVec 4) ∧ inLayer (mArm [rec0, recEnd]) 0 = true ∧ (laneOf (mArm [rec0,
      recEnd]) 0).excluded = false ∧ (laneOf (mArm [rec0, recEnd]) 0).headFault = false ∧ (512 ≤ (laneOf (mArm [rec0, recEnd])
      0).plan.length ∨ ∃ r ∈ (laneOf (mArm [rec0, recEnd]) 0).plan, r.vec = Vec.stop)) ∧
    (settleLane 0 (passTo 5 (mArm [rec0])) = passTo 5 (mArm [rec0]) ∧ (laneOf (mArm [rec0]) 0).state = LaneState.idle ∧ (mArm
      [rec0]).jobs.state = (8 : BitVec 4) ∧ inLayer (mArm [rec0]) 0 = true ∧ (laneOf (mArm [rec0]) 0).excluded = false ∧ (laneOf (mArm
      [rec0]) 0).headFault = false ∧ (laneOf (mArm [rec0]) 0).plan.length < 512 ∧ (∀ r ∈ (laneOf (mArm [rec0]) 0).plan, r.vec ≠
      Vec.stop)) ∧
    ((∀ (a : Bool) (b c : Nat) (d : BitVec 128), (planRec (passTo 5 mPlan) 0 (laneOf mPlan 0) f0).2.vec ≠ Vec.sync a b c d) ∧ settleLane
      0 (passTo 5 mPlan) = passTo 5 mPlan ∧ 0 < mPlan.lanes.length ∧ [2, 9, 11].contains (jobState mPlan) = true ∧ (laneOf mPlan 0).cut
      = false ∧ (laneOf mPlan 0).deferMark = none ∧ (laneOf mPlan 0).deferJump = none ∧ (laneOf mPlan 0).buf = [f0] ∧ windowCount
      (laneOf mPlan 0) < 512 ∧ planRec (passTo 5 mPlan) 0 (laneOf mPlan 0) f0 = ((planRec (passTo 5 mPlan) 0 (laneOf mPlan 0) f0).1,
      (planRec (passTo 5 mPlan) 0 (laneOf mPlan 0) f0).2)) ∧
    (settleLane 0 (passTo 5 mAsk) = passTo 5 mAsk ∧ (laneOf mAsk 0).hold = none ∧ mAsk.jobs.line = false ∧ nextRequest (laneOf mAsk
      0).plan = some w03_9 ∧ max mAsk.now 5 + hGuard mAsk < branchAt mAsk 0 w03_9.idx) ∧
    (settleLane 0 (passTo 1800000 mAsk) = passTo 1800000 mAsk ∧ (laneOf mAsk 0).state.active = true ∧ issueStop (laneOf mAsk 0) = none ∧
      mAsk.jobs.line = false ∧ nextRequest (laneOf mAsk 0).plan = some w03_9 ∧ behindSync (laneOf mAsk 0).plan w03_9.idx = false ∧
      branchAt mAsk 0 w03_9.idx ≤ max mAsk.now 1800000 + hGuard mAsk ∧ (∀ w ∈ (laneOf mAsk 0).plan, w.waitLate = false)) ∧
    (settleLane 0 (passTo 5 (mRun rec0)) = passTo 5 (mRun rec0) ∧ (∀ r ∈ (laneOf (mRun rec0) 0).plan, r.verdict = Verdict.none ∨
      r.verdict = Verdict.go)) ∧
    (settleLane 0 (passTo 5 mRun2) = passTo 5 mRun2 ∧ (laneOf mRun2 0).state.active = true ∧ issueStop (laneOf mRun2 0) = none ∧
      List.find? (fun r => r.verdict != Verdict.none && r.verdict != Verdict.go) (laneOf mRun2 0).plan = some recA2 ∧ recA2.verdict =
      Verdict.asked 1 ∧ afterOpenSync (laneOf mRun2 0).plan recA2.idx = false ∧ max mRun2.now 5 < deadlineOf mRun2 (laneOf mRun2 0).plan
      recA2.idx) ∧
    (settleLane 0 (passTo 99999 mRun2) = passTo 99999 mRun2 ∧ (laneOf mRun2 0).state.active = true ∧ issueStop (laneOf mRun2 0) = none ∧
      List.find? (fun r => r.verdict != Verdict.none && r.verdict != Verdict.go) (laneOf mRun2 0).plan = some recA2 ∧ recA2.verdict =
      Verdict.asked 1 ∧ afterOpenSync (laneOf mRun2 0).plan recA2.idx = false ∧ deadlineOf mRun2 (laneOf mRun2 0).plan recA2.idx ≤ max
      mRun2.now 99999 ∧ guardFirst (passTo 99999 mRun2) (laneOf mRun2 0).plan recA2.idx = false) ∧
    (settleLane 0 (passTo 5 w03_10) = passTo 5 w03_10 ∧ ((laneOf w03_10 0).state = LaneState.hold ∨ (laneOf w03_10 0).state =
      LaneState.running) ∧ (laneOf w03_10 0).plan = [recD] ∧ recD.vec ≠ Vec.stop ∧ resultReady (max w03_10.now 5) (laneOf w03_10 0) recD
      = true ∧ (laneOf w03_10 0).stall = none) ∧
    (settleLane 0 (passTo 5 (mRun rec0)) = passTo 5 (mRun rec0) ∧ atEnd (max (mRun rec0).now 5) (laneOf (mRun rec0) 0) = false) ∧
    (settleLane 0 (passTo 5 w03_11) = passTo 5 w03_11 ∧ atEnd (max w03_11.now 5) (laneOf w03_11 0) = true ∧ w03_11.jobs.line = false ∧
      w03_11.jobs.exposed = some 0 ∧ (laneOf w03_11 0).marking = none) :=
  ⟨by decide +kernel,
   by decide +kernel,
   by decide +kernel,
   by decide +kernel,
   by decide +kernel,
   by decide +kernel,
   ⟨not_sync (by decide +kernel), by decide +kernel⟩,
   by decide +kernel,
   by decide +kernel,
   by decide +kernel,
   by decide +kernel,
   by decide +kernel,
   by decide +kernel,
   by decide +kernel,
   by decide +kernel⟩

theorem witness_LaneFaultsFollowThePolicy :
    ((laneOf mRunN 0).state.active = true ∧ mRunN.jobs.header = none ∧ mRunN.jobs.syncs = [] ∧ (laneOf mRunN 0).marking = none ∧ (laneOf
      mRunN 0).ended = none) ∧
    ((laneOf r0 0).faultable r0.now = false ∧ arming r0 0 22 = false ∧ (laneOf r0 0).faultAt ≠ some r0.now) ∧
    (settleLane 0 (passTo 506 w03_12) = passTo 506 w03_12 ∧ (laneOf w03_12 0).feSince = some 5 ∧ 5 + 5 * (laneRec w03_12 0).feTime < max
      w03_12.now 506) ∧
    (settleLane 0 (passTo 506 mRunN) = passTo 506 mRunN ∧ (laneOf mRunN 0).feSince = none) ∧
    (w03_13.jobs.header = some job0 ∧ w03_13.jobs.syncs = [sp0] ∧ sp0.id = 3 ∧ sp0.released = none ∧ sp0.failed = none ∧ max w03_13.now
      100000009 < sp0.first + 1000000 * job0.timeoutMs) ∧
    (w03_14.jobs.header = some job0 ∧ w03_14.jobs.syncs = [sp1] ∧ sp1.id = 3 ∧ sp1.released = none ∧ sp1.failed = none ∧ sp1.first +
      1000000 * job0.timeoutMs ≤ max w03_14.now 100000010 ∧ v03_5 = [] ∧ silentMembers w03_14 sp1 = []) ∧
    (w03_13.jobs.header = some job0 ∧ w03_13.jobs.syncs = [sp0] ∧ sp0.id = 3 ∧ sp0.released = none ∧ sp0.failed = none ∧ sp0.first +
      1000000 * job0.timeoutMs ≤ max w03_13.now 100000010 ∧ (v03_6 ≠ [] ∨ silentMembers w03_13 sp0 ≠ []) ∧ sp0.failContinue = true) ∧
    (w03_15.jobs.header = some job0 ∧ w03_15.jobs.syncs = [w03_16] ∧ w03_16.id = 3 ∧ w03_16.released = none ∧ w03_16.failed = none ∧
      w03_16.first + 1000000 * job0.timeoutMs ≤ max w03_15.now 100000010 ∧ (v03_7 ≠ [] ∨ silentMembers w03_15 w03_16 ≠ []) ∧
      w03_16.failContinue = false) :=
  ⟨by decide +kernel,
   by decide +kernel,
   by decide +kernel,
   by decide +kernel,
   by decide +kernel,
   by decide +kernel,
   by decide +kernel,
   by decide +kernel⟩

theorem witness_MereStepsAndReports :
    ((r0.mere.run = false ∧ r0.mere.due = false ∨ max r0.now 5 < mereS r0.mere r0.mere.next)) ∧
    ((w04_1.mere.run = true ∨ w04_1.mere.due = true) ∧ max w04_1.now (mereS mere0 2) = mereS w04_1.mere w04_1.mere.next ∧ mereGrid
      w04_1.mere (max w04_1.now (mereS mere0 2)) = w04_1.mere.next ∧ w04_1.mere.back = some ([7, 8], 1) ∧ w04_1.mere.saves = [] ∧
      w04_1.mere.pendingCoeffs = [] ∧ w04_1.mere.sets = [] ∧ w04_1.mere.settle = none ∧ w04_1.mere.frame = none ∧ w04_1.mere.coarse =
      w04_1.mere.wantCoarse) ∧
    ((laneOf r0 127).loop.repOut = []) ∧
    ((mRep none).mere.run = true ∧ (laneOf (mRep none) 0).loop.repOut = [(none, 55)]) ∧
    ((mRep (some 1)).mere.run = true ∧ (laneOf (mRep (some 1)) 0).loop.repOut = [(some 1, 55)] ∧ (mRep (some 1)).mere.beginning (max
      (mRep (some 1)).now 5) = none ∧ (mRep (some 1)).mere.reports.length < 65536) ∧
    (w04_2.mere.run = false ∧ (laneOf w04_2 0).loop.repOut = [(some 1, 55)]) ∧
    (w04_3.mere.run = false ∧ (laneOf w04_3 0).loop.repOut = [(some 1, 55)]) ∧
    (w04_4.mere.run = true ∧ w04_4.mere.viewPeriodMs ≠ 0) ∧
    (settleLane 0 (passTo 5 (mRun rec0)) = passTo 5 (mRun rec0) ∧ recAt (max (mRun rec0).now 5) (laneOf (mRun rec0) 0).plan = some rec0
      ∧ ffOn (mRun rec0) rec0.set = false) ∧
    (settleLane 0 (passTo 5 w04_5) = passTo 5 w04_5 ∧ recAt (max w04_5.now 5) (laneOf w04_5 0).plan = some recF ∧ (laneOf w04_5 0).state
      = LaneState.running ∧ ffOn w04_5 recF.set = true ∧ (laneOf w04_5 0).loop.lastRead = none ∧ w04_5.mere.run = true ∧ max w04_5.now 5
      - (w04_5.mere.seenAt (max w04_5.now 5)).frontAt ≤ 1000 * w04_5.prof.loop.staleLimitUs ∧ planPos (laneOf w04_5 0).plan (max
      w04_5.now 5 + 1000 * w04_5.prof.loop.ffAheadUs) = some ((planPos [recF] 10005).getD ((0 : Int), (0 : Int)))) ∧
    ((∀ v ∈ mMere.mere.saves, v.result = none)) ∧
    (w04_6.mere.saves = [sav0] ∧ sav0.result = some (stDone, 64) ∧ sav0.ref = none) :=
  ⟨by decide +kernel,
   by decide +kernel,
   by decide +kernel,
   by decide +kernel,
   by decide +kernel,
   by decide +kernel,
   by decide +kernel,
   by decide +kernel,
   by decide +kernel,
   by decide +kernel,
   by decide +kernel,
   by decide +kernel⟩

theorem witness_MereOpcodes :
    (Ready h0 mSave ∧ mSave.mere.saves ≠ []) ∧
    (Ready h0 mMere ∧ mMere.mere.saves = [] ∧ 536870912 % 4096 = 0 ∧ 8192 % 4096 = 0 ∧ 8192 ≤ 8192 ∧ 1 ≤ 65535 ∧ 65535 ≤ 65535 ∧ hostMem
      536870912 (8192 * 65535) mMere = true) ∧
    (Ready h0 mMere ∧ mMere.mere.saves = [] ∧ (536870912 % 4096 ≠ 0 ∨ 4096 % 4096 ≠ 0 ∨ 4096 < 8192 ∨ 1 = 0 ∨ 65535 < 1)) ∧
    (Ready h0 mMere ∧ (mMere.jobs.state = (2 : BitVec 4) ∨ mMere.jobs.state = (8 : BitVec 4) ∨ mMere.mere.slotCount = (0 : BitVec 16))) ∧
    (Ready h0 w04_7 ∧ w04_7.jobs.state ≠ (2 : BitVec 4) ∧ w04_7.jobs.state ≠ (8 : BitVec 4) ∧ w04_7.mere.slotCount ≠ (0 : BitVec 16) ∧
      (mereChan w04_7).isSome = true) ∧
    (Ready h0 b2 ∧ b2.jobs.state = (2 : BitVec 4)) ∧
    (Ready h0 mMere ∧ mMere.jobs.state = (0 : BitVec 4) ∧ 1 < 2) ∧
    (Ready h0 mMere ∧ (mMere.jobs.state = (0 : BitVec 4) ∨ mMere.jobs.state = (4 : BitVec 4) ∨ mMere.jobs.state = (10 : BitVec 4))) ∧
    (Ready h0 w04_8 ∧ (w04_8.jobs.state = (0 : BitVec 4) ∨ w04_8.jobs.state = (4 : BitVec 4) ∨ w04_8.jobs.state = (10 : BitVec 4))) ∧
    (Ready h0 w04_9 ∧ (w04_9.jobs.state = (0 : BitVec 4) ∨ w04_9.jobs.state = (4 : BitVec 4) ∨ w04_9.jobs.state = (10 : BitVec 4)) ∧
      536870912 % 2 = 0 ∧ hostMem 536870912 (2 * (w04_9.mere.nx * w04_9.mere.ny)) w04_9 = true ∧ poisonIn 536870912 (2 * (w04_9.mere.nx
      * w04_9.mere.ny)) w04_9 = none) ∧
    (Ready h0 mMere ∧ bit 1 0 = true ∧ bit 1 5 = false ∧ 16384 < 16385) ∧
    (Ready h0 mMere ∧ 31 < 32 ∧ (bit 31 0 = true → 16384 ≤ 16384) ∧ mMere.mere.beginning mMere.now = none) ∧
    (Ready h0 mMere ∧ 32 ≤ 63 ∧ 63 < 64 ∧ mMere.mere.beginning mMere.now = none) ∧
    (Ready h0 mMere ∧ 32 ≤ 32) ∧
    (Ready h0 mCurve ∧ 31 < 32 ∧ 536870912 % 4 = 0 ∧ hostMem 536870912 132 mCurve = true ∧ recordImage 536870912 120 mCurve = some (32,
      31, cpay) ∧ readCurve cpay = some w04_10) :=
  ⟨⟨ready_of (by decide +kernel), by decide +kernel⟩,
   ⟨ready_of (by decide +kernel), by decide +kernel⟩,
   ⟨ready_of (by decide +kernel), by decide +kernel⟩,
   ⟨ready_of (by decide +kernel), by decide +kernel⟩,
   ⟨ready_of (by decide +kernel), by decide +kernel⟩,
   ⟨ready_of (by decide +kernel), by decide +kernel⟩,
   ⟨ready_of (by decide +kernel), by decide +kernel⟩,
   ⟨ready_of (by decide +kernel), by decide +kernel⟩,
   ⟨ready_of (by decide +kernel), by decide +kernel⟩,
   ⟨ready_of (by decide +kernel), by decide +kernel⟩,
   ⟨ready_of (by decide +kernel), by decide +kernel⟩,
   ⟨ready_of (by decide +kernel), by decide +kernel⟩,
   ⟨ready_of (by decide +kernel), by decide +kernel⟩,
   ⟨ready_of (by decide +kernel), by decide +kernel⟩,
   ⟨ready_of (by decide +kernel), by decide +kernel⟩⟩

theorem witness_MereCellStepFormula :
    ([65535, 0, 1, 2, 3, 40000].length = 3 * 2 ∧ 1 < 2 ∧ 2 < 3) ∧
    ([65535, 0, 1, 2, 3, 40000].length = 3 * 2 ∧ 0 < 2 ∧ 1 < 3) ∧
    (16384 < field (layout 64 [(20, 4, 16385)]) 20 4) ∧
    (Ready h0 r0 ∧ bit 1 0 = true ∧ bit 1 5 = false ∧ 16384 < 16385) :=
  ⟨by decide +kernel,
   by decide +kernel,
   by decide +kernel,
   ⟨ready_of (by decide +kernel), by decide +kernel⟩⟩

theorem witness_LongHoldIsReportedOnce :
    ((laneOf r0 0).hold = none ∧ (laneOf r0 0).prox.syncHold = none) ∧
    ((laneOf (mSHold hold0) 0).hold = none ∧ (laneOf (mSHold hold0) 0).prox.syncHold = some hold0 ∧ hold0.warned = false ∧ hold0.since +
      1000000 * (mSHold hold0).prof.prox.holdWarn < max (mSHold hold0).now 100000011) ∧
    ((laneOf (mHold hold0) 0).hold = some hold0 ∧ (hold0.warned = true ∨ max (mHold hold0).now 100000010 ≤ hold0.since + 1000000 *
      (mHold hold0).prof.prox.holdWarn)) ∧
    ((laneOf w05_1 0).hold = some w05_2 ∧ (w05_2.warned = true ∨ max w05_1.now 100000011 ≤ w05_2.since + 1000000 *
      w05_1.prof.prox.holdWarn)) ∧
    ((laneOf (mHold hold0) 0).hold = some hold0 ∧ hold0.warned = false ∧ hold0.since + 1000000 * (mHold hold0).prof.prox.holdWarn < max
      (mHold hold0).now 100000011) ∧
    (0 < (mRun rec0).lanes.length ∧ List.find? (fun r => decide (r.idx = 1)) (laneOf (mRun rec0) 0).plan = some rec0) :=
  ⟨by decide +kernel,
   by decide +kernel,
   by decide +kernel,
   by decide +kernel,
   by decide +kernel,
   by decide +kernel⟩

theorem witness_ArbiterJudgesRequests :
    (max r0.now 4999 % 5000 ≠ 0) ∧
    (max w05_3.now 5000 % 5000 = 0) ∧
    (max (mRun recA).now 5000 % 5000 = 0) ∧
    (r0.prox.run = false) ∧
    (w05_3.prox.run = true ∧ otherMembers w05_3 = [] ∧ w05_3.jobs.syncs = [] ∧ w05_3.time.clock.boundExceeded = false ∧
      w05_3.prox.unsafeNow = false ∧ (∀ z ∈ w05_3.prox.zones, z = none) ∧ (∀ l ∈ allLanes w05_3, (laneOf w05_3 l).hold = none ∧ (laneOf
      w05_3 l).plan = [] ∧ (laneOf w05_3 l).state ≠ LaneState.running ∧ (laneOf w05_3 l).prox.withdrawn = false)) ∧
    (Request.open_ w05_3 q0 = false) ∧
    (q0.held = false ∧ Request.open_ mJudge q0 = true ∧ (∀ r ∈ (laneOf mJudge q0.lane).plan, openWait r = false) ∧ judge mJudge q0.lane
      q0.idx (requestTrajs mJudge (laneOf mJudge q0.lane) q0.idx) k0.claims = none ∧ needsConfirm v05_1 (requestTrajs mJudge (laneOf
      mJudge q0.lane) q0.idx) = false) ∧
    (q0.held = false ∧ Request.open_ mJudge2 q0 = true ∧ (∀ r ∈ (laneOf mJudge2 q0.lane).plan, openWait r = false) ∧ judge mJudge2
      q0.lane q0.idx (requestTrajs mJudge2 (laneOf mJudge2 q0.lane) q0.idx) k0.claims = none ∧ needsConfirm v05_2 (requestTrajs mJudge2
      (laneOf mJudge2 q0.lane) q0.idx) = true) ∧
    (q0.held = false ∧ Request.open_ mJudge q0 = true ∧ (∀ r ∈ (laneOf mJudge q0.lane).plan, openWait r = false) ∧ judge mJudge q0.lane
      q0.idx (requestTrajs mJudge (laneOf mJudge q0.lane) q0.idx) k1.claims = some w05_4) ∧
    ((laneOf (mHold hold0) 0).hold = some hold0 ∧ List.find? (fun x => decide (x.idx = hold0.idx)) (laneOf (mHold hold0) 0).plan = some
      rec0 ∧ 0 < (mHold hold0).prof.prox.tAge) ∧
    (w05_5.prox.cycles = [([0, 1], 10)] ∧ max w05_5.now 2000009 % 5000 ≠ 0 ∧ max w05_5.now 2000009 < 10 + 1000 * w05_5.prof.prox.tDead) ∧
    (w05_5.prox.cycles = [([0, 1], 10)] ∧ max w05_5.now 2000010 % 5000 ≠ 0 ∧ 10 + 1000 * w05_5.prof.prox.tDead ≤ max w05_5.now 2000010 ∧
      w05_5.jobs.syncs = [] ∧ (laneOf w05_5 0).prox.released = false) :=
  ⟨by decide +kernel,
   by decide +kernel,
   by decide +kernel,
   by decide +kernel,
   by decide +kernel,
   by decide +kernel,
   by decide +kernel,
   by decide +kernel,
   by decide +kernel,
   by decide +kernel,
   by decide +kernel,
   by decide +kernel⟩

theorem witness_PeersAndRules :
    ((otherMembers mMach).contains (sum0 0).member = false) ∧
    ((otherMembers mMach).contains (sum0 1).member = true ∧ mMach.members.conflict.getLsbD (sum0 1).member = false) ∧
    (otherMembers r0 = []) ∧
    (max mMach.now 20005 % 20000 ≠ 0) ∧
    (mMach.prox.run = true ∧ mMach.members.idConflict = false ∧ mMach.members.memberConflict = false ∧ otherMembers mMach ≠ [] ∧
      mMach.jobs.syncs = [] ∧ max mMach.now 20000 % 20000 = 0 ∧ (∀ l ∈ allLanes mMach, laneEntry (passTo 20000 mMach) (max mMach.now
      20000) l = none ∧ zoneEntry (passTo 20000 mMach) (max mMach.now 20000) l = none)) ∧
    ((otherMembers mMach).contains 2 = false) ∧
    ((otherMembers w05_6).contains 1 = true ∧ w05_6.jobs.syncs = [spM] ∧ spM.id = se0.sync ∧ spM.released = none ∧ spM.failed = none ∧
      spM.members.testBit 1 = true ∧ se0.faulted = false) ∧
    (((peerOf mMach 1).present = false ∨ (peerOf mMach 1).silent = true ∨ (peerOf mMach 1).inbox ≠ [] ∨ max mMach.now 5 < (peerOf mMach
      1).dueAt + 20000 * mMach.prof.prox.silentPeriods)) ∧
    (((peerOf mSil 1).present = false ∨ (peerOf mSil 1).silent = true ∨ (peerOf mSil 1).inbox ≠ [] ∨ max mSil.now 60009 < (peerOf mSil
      1).dueAt + 20000 * mSil.prof.prox.silentPeriods)) ∧
    ((peerOf mSil 1).present = true ∧ (peerOf mSil 1).silent = false ∧ (peerOf mSil 1).inbox = [] ∧ (peerOf mSil 1).dueAt + 20000 *
      mSil.prof.prox.silentPeriods ≤ max mSil.now 60010) ∧
    (Ready h0 r0 ∧ (15 < 16 ∨ 15 < 0 ∨ 10000000 < 0 ∨ 0 < r0.prof.prox.sepFloor)) ∧
    (Ready h0 r0 ∧ (15 < 0 ∨ 15 < 0 ∨ 10000000 < 10000001 ∨ 10000001 < r0.prof.prox.sepFloor)) ∧
    (Ready h0 r0 ∧ 7 < 8) ∧
    (Ready h0 r0 ∧ (3 < 0 ∨ (0 : Int) = (0 : Int) ∧ (0 : Int) = (0 : Int) ∨ 50000000 < 0 ∨ 1047198 < 0)) ∧
    (Ready h0 r0 ∧ 15 ≤ 15 ∧ 0 ≤ 15 ∧ 10000000 ≤ 10000000 ∧ r0.prof.prox.sepFloor ≤ 10000000 ∧ 1 ≠ 0 ∧ r0.jobs.tor = none) ∧
    (Ready h0 r0 ∧ 15 ≤ 15 ∧ 0 ≤ 15 ∧ 10000000 ≤ 10000000 ∧ r0.prof.prox.sepFloor ≤ 10000000 ∧ ripplePlace (RippleWork.proxSep 15 0
      10000000) r0 = true) ∧
    (Ready h0 r0 ∧ proxZoneCheck 7 (0 : BitVec 32) r0 = stDone ∧ ripplePlace (RippleWork.proxZone 7 (0 : BitVec 32)) r0 = true) ∧
    (Ready h0 w05_7 ∧ proxPlumeCheck 3 (0 : Int) (-16384 : Int) 50000000 1047198 w05_7 = stDone ∧ ripplePlace (RippleWork.proxPlume 3 (0
      : Int) (-16384 : Int) 50000000 1047198) w05_7 = true) ∧
    (15 ≤ 15 ∧ 0 ≤ 15 ∧ mSep.prox.sep.length = 256) ∧
    (15 ≤ 15 ∧ 0 ≤ 15 ∧ mSep.prox.sep.length = 256 ∧ 15 ≤ 15 ∧ 15 ≤ 15 ∧ (¬(15 = 15 ∧ 15 = 0)) ∧ (¬(15 = 0 ∧ 15 = 15))) ∧
    (15 ≤ 15 ∧ 0 ≤ 15 ∧ mSep.prox.sep.length = 256 ∧ 0 ≤ 15 ∧ 0 ≤ 15 ∧ (¬(0 = 15 ∧ 0 = 0)) ∧ (¬(0 = 0 ∧ 0 = 15))) :=
  ⟨by decide +kernel,
   by decide +kernel,
   by decide +kernel,
   by decide +kernel,
   by decide +kernel,
   by decide +kernel,
   by decide +kernel,
   by decide +kernel,
   by decide +kernel,
   by decide +kernel,
   ⟨ready_of (by decide +kernel), by decide +kernel⟩,
   ⟨ready_of (by decide +kernel), by decide +kernel⟩,
   ⟨ready_of (by decide +kernel), by decide +kernel⟩,
   ⟨ready_of (by decide +kernel), by decide +kernel⟩,
   ⟨ready_of (by decide +kernel), by decide +kernel⟩,
   ⟨ready_of (by decide +kernel), by decide +kernel⟩,
   ⟨ready_of (by decide +kernel), by decide +kernel⟩,
   ⟨ready_of (by decide +kernel), by decide +kernel⟩,
   by decide +kernel,
   by decide +kernel,
   by decide +kernel⟩

theorem witness_TimeStatesAndSteps :
    (errorBound (passTo 5 (cFine r0)) ≤ (cFine r0).prof.time.holdBound ∧ (cFine r0).time.clock.boundRaised = false) ∧
    (w06_1.prof.time.holdBound < errorBound (passTo 5 w06_1) ∧ w06_1.prof.time.holdBound < w06_1.time.clock.etb.toNat) ∧
    (w06_2.prof.time.holdBound < errorBound (passTo 5 w06_2) ∧ w06_2.time.clock.etb.toNat ≤ w06_2.prof.time.holdBound ∧
      w06_2.time.clock.state ≠ TimeState.holdover) ∧
    (errorBound (passTo 5 w06_3) ≤ w06_3.prof.time.holdBound ∧ w06_3.time.clock.boundRaised = true) ∧
    ((r0.time.clock.state = TimeState.free ∨ r0.time.clock.state = TimeState.acquiring)) ∧
    (((cFine r0).time.clock.state = TimeState.coarse ∨ (cFine r0).time.clock.state = TimeState.fine)) ∧
    (((cFine (src 1 r0)).time.clock.state = TimeState.coarse ∨ (cFine (src 1 r0)).time.clock.state = TimeState.fine)) ∧
    (w06_4.time.clock.state = TimeState.master) ∧
    (r0.jobs.startRef = none ∧ (r0.prof.time.source ≠ 0 ∨ ownDomain r0 sync0.version sync0.domain = false ∨ r0.time.clock.parent ≠ some
      sync0.sender)) ∧
    (w06_5.jobs.startRef = none ∧ (w06_5.prof.time.source ≠ 0 ∨ ownDomain w06_5 w06_6.version w06_6.domain = false ∨
      w06_5.time.clock.parent ≠ some w06_6.sender)) ∧
    (w06_5.jobs.startRef = none ∧ (w06_5.prof.time.source ≠ 0 ∨ ownDomain w06_5 w06_7.version w06_7.domain = false ∨
      w06_5.time.clock.parent ≠ some w06_7.sender)) ∧
    ((src 1 r0).jobs.startRef = none ∧ ((src 1 r0).prof.time.source ≠ 0 ∨ ownDomain (src 1 r0) ann0.version ann0.domain = false)) ∧
    (r0.jobs.startRef = none ∧ (r0.prof.time.source ≠ 0 ∨ ownDomain r0 w06_8.version w06_8.domain = false)) ∧
    (w06_5.prof.time.source = 0 ∧ ownDomain w06_5 sync0.version sync0.domain = true ∧ w06_5.time.clock.parent = some sync0.sender) ∧
    (w06_9.prof.time.source = 0 ∧ ownDomain w06_9 sync0.version sync0.domain = true ∧ w06_9.time.clock.parent = some sync0.sender) ∧
    (r0.prof.time.source = 0 ∧ ownDomain r0 ann0.version ann0.domain = true) ∧
    (w06_10.time.clock.state = TimeState.fine ∧ w06_10.prof.time.stepLimit < (-1001 : Int).natAbs ∧ w06_10.jobs.state = (0 : BitVec 4)) ∧
    (w06_10.time.clock.state = TimeState.fine ∧ w06_10.prof.time.stepLimit < Int.natAbs (1001 : Int) ∧ w06_10.jobs.state = (0 : BitVec
      4)) ∧
    ((cFine (withJob (build (1 : BitVec 4)))).time.clock.state = TimeState.fine ∧ (cFine (withJob (build (1 : BitVec
      4)))).prof.time.stepLimit < Int.natAbs (1001 : Int) ∧ (cFine (withJob (build (1 : BitVec 4)))).jobs.state ≠ (0 : BitVec 4)) ∧
    ((cFine (withJob (build (1 : BitVec 4)))).time.clock.state = TimeState.fine ∧ (cFine (withJob (build (1 : BitVec
      4)))).prof.time.stepLimit < (-1001 : Int).natAbs ∧ (cFine (withJob (build (1 : BitVec 4)))).jobs.state ≠ (0 : BitVec 4)) ∧
    (w06_11.prof.time.source = 0 ∧ w06_11.time.clock.ppsPresent = false ∧ w06_11.time.clock.state = TimeState.fine ∧
      w06_11.time.clock.lastSync = some 100 ∧ 100 + w06_11.prof.time.syncLossN * logPeriod w06_11.prof.time.logSync ≤ max w06_11.now
      187500100) ∧
    (w06_12.prof.time.source = 1 ∧ w06_12.time.clock.ppsPresent = true ∧ w06_12.time.clock.state = TimeState.fine ∧
      w06_12.time.clock.lastPps = some 100 ∧ 100 + 1100000000 ≤ max w06_12.now 1100000100) ∧
    (w06_13.prof.time.source = 0 ∧ w06_13.time.clock.ppsPresent = false ∧ w06_13.prof.time.slaveOnly = false ∧ liveForeign (passTo
      9000000000 w06_13) = []) ∧
    (3 < (trigIn (pin4 r0) 8).filter.toNat) ∧
    ((trigIn (pin4 (src 1 r0)) 8).filter.toNat ≤ 4 ∧ (pin4 (src 1 r0)).prof.time.source = 1) ∧
    ((trigIn (src 1 r0) 8).filter.toNat ≤ 255 ∧ (src 1 r0).prof.time.source = 1) ∧
    ((trigIn r0 8).filter.toNat ≤ 255 ∧ r0.prof.time.source ≠ 1) ∧
    (Ready h0 r0 ∧ (r0.prof.time.source = 0 ∨ r0.jobs.state ≠ (0 : BitVec 4))) ∧
    (Ready h0 (src 2 b2) ∧ ((src 2 b2).prof.time.source = 0 ∨ (src 2 b2).jobs.state ≠ (0 : BitVec 4))) ∧
    (Ready h0 (src 2 r0) ∧ (src 2 r0).prof.time.source ≠ 0 ∧ (src 2 r0).jobs.state = (0 : BitVec 4) ∧ (1000000000 ≤ 1000000000 ∨
      1000000000 % 5 ≠ 0)) ∧
    (Ready h0 (src 2 r0) ∧ (src 2 r0).prof.time.source ≠ 0 ∧ (src 2 r0).jobs.state = (0 : BitVec 4) ∧ (1000000000 ≤ 3 ∨ 3 % 5 ≠ 0)) ∧
    (Ready h0 (src 2 r0) ∧ (src 2 r0).prof.time.source ≠ 0 ∧ (src 2 r0).jobs.state = (0 : BitVec 4) ∧ 999999995 < 1000000000 ∧ 999999995
      % 5 = 0) :=
  ⟨by decide +kernel,
   by decide +kernel,
   by decide +kernel,
   by decide +kernel,
   by decide +kernel,
   by decide +kernel,
   by decide +kernel,
   by decide +kernel,
   by decide +kernel,
   by decide +kernel,
   by decide +kernel,
   by decide +kernel,
   by decide +kernel,
   by decide +kernel,
   by decide +kernel,
   by decide +kernel,
   by decide +kernel,
   by decide +kernel,
   by decide +kernel,
   by decide +kernel,
   by decide +kernel,
   by decide +kernel,
   by decide +kernel,
   by decide +kernel,
   by decide +kernel,
   by decide +kernel,
   by decide +kernel,
   ⟨ready_of (by decide +kernel), by decide +kernel⟩,
   ⟨ready_of (by decide +kernel), by decide +kernel⟩,
   ⟨ready_of (by decide +kernel), by decide +kernel⟩,
   ⟨ready_of (by decide +kernel), by decide +kernel⟩,
   ⟨ready_of (by decide +kernel), by decide +kernel⟩⟩

theorem witness_PtpMessages :
    (r0.time.clock.state ≠ TimeState.master) ∧
    ((cMaster r0).time.clock.state = TimeState.master ∧ (cMaster r0).prof.time.twoStep = false) ∧
    (w06_14.time.clock.state = TimeState.master ∧ w06_14.prof.time.twoStep = true) ∧
    ((cMaster r0).time.clock.state = TimeState.master) ∧
    (r0.prof.time.p2p = false ∧ r0.time.clock.parent = none) ∧
    ((cMaster r0).prof.time.p2p = false ∧ (cMaster r0).time.clock.parent ≠ none) ∧
    ((p2p r0).prof.time.p2p = true) ∧
    ((0 ≠ (cMaster r0).prof.time.domain ∨ ∀ x ∈ (cMaster r0).time.clock.delayReq, ¬(x.1 = 0 ∧ x.2.1 = 5))) ∧
    ((1 ≠ (cMaster r0).prof.time.domain ∨ ∀ x ∈ (cMaster r0).time.clock.delayReq, ¬(x.1 = 0 ∧ x.2.1 = 4))) ∧
    ((cMaster r0).time.clock.delayReq = [(0, 4, 500)]) ∧
    ((cMaster r0).time.clock.state = TimeState.master ∧ (cMaster r0).prof.time.p2p = false) ∧
    (w06_15.time.clock.delayReq = [(3 + 1, 7, 100)]) ∧
    (((tcf 1).kind = 0 ∨ (tcf 1).kind = 1 ∧ r0.prof.time.p2p = false)) ∧
    (((tcf 0).kind = 0 ∨ (tcf 0).kind = 1 ∧ (p2p r0).prof.time.p2p = false)) ∧
    ((p2p r0).prof.time.p2p = true ∧ ((tcf 10).kind = 2 ∨ (tcf 10).kind = 3 ∨ (tcf 10).kind = 10)) ∧
    (w06_16.kind ≠ 0 ∧ (w06_16.kind ≠ 1 ∨ (p2p r0).prof.time.p2p = true) ∧ ((p2p r0).prof.time.p2p = false ∨ w06_16.kind ∉ [2, 3, 10])) ∧
    ((tcf 8).kind ≠ 0 ∧ ((tcf 8).kind ≠ 1 ∨ r0.prof.time.p2p = true) ∧ (r0.prof.time.p2p = false ∨ (tcf 8).kind ∉ [2, 3, 10])) :=
  ⟨by decide +kernel,
   by decide +kernel,
   by decide +kernel,
   by decide +kernel,
   by decide +kernel,
   by decide +kernel,
   by decide +kernel,
   by decide +kernel,
   by decide +kernel,
   by decide +kernel,
   by decide +kernel,
   by decide +kernel,
   by decide +kernel,
   by decide +kernel,
   by decide +kernel,
   by decide +kernel,
   by decide +kernel⟩

theorem witness_TriggersAndPps :
    (Ready h0 r0 ∧ (true = true ∨ r0.jobs.tor.isSome = true) ∧ (15 < 16 ∨ 63 < 0 ∨ false = false ∧ 0 = 0 ∧ 0 = 0)) ∧
    (Ready h0 r0 ∧ (true = true ∨ r0.jobs.tor.isSome = true) ∧ (15 < 0 ∨ 63 < 64 ∨ false = false ∧ 0 = 0 ∧ 0 = 0)) ∧
    (Ready h0 r0 ∧ (true = true ∨ r0.jobs.tor.isSome = true) ∧ (15 < 0 ∨ 63 < 0 ∨ false = false ∧ 0 = 0 ∧ 0 = 0)) ∧
    (Ready h0 r0 ∧ r0.jobs.tor = none) ∧
    (Ready h0 r0 ∧ 15 ≤ 15 ∧ 63 ≤ 63 ∧ 5 ≤ 5 ∧ r0.now + 2000 ≤ 2001 ∧ ripplePlace (RippleWork.trigOut 15 v06_32) r0 = true) ∧
    (Ready h0 r0 ∧ refTime (!true) 5000 r0 = some 5000 ∧ trigCheck 15 63 9 5000 10 0 true true false r0 = none) ∧
    (Ready h0 r0 ∧ refTime (!true) 5000 r0 = some 5000 ∧ trigCheck 15 63 1000 5000 10 0 true true false r0 = some w06_17 ∧ ripplePlace
      (RippleWork.trigOut 15 w06_17) r0 = true) ∧
    (Ready h0 (full r0) ∧ refTime (!true) 5000 (full r0) = some 5000 ∧ trigCheck 15 63 1000 5000 10 0 true true false (full r0) = some
      w06_17 ∧ ripplePlace (RippleWork.trigOut 15 w06_17) (full r0) = false) ∧
    (Ready h0 tor5 ∧ refTime (!false) 5000 tor5 = some 8000 ∧ trigCheck 15 63 1000 8000 10 0 false true true tor5 = some w06_18 ∧
      ripplePlace (RippleWork.trigOut 15 w06_18) tor5 = true) ∧
    (Ready h0 r0 ∧ (65535 : BitVec 16) ≠ (0 : BitVec 16) ∧ ripplePlace (RippleWork.trigStop (65535 : BitVec 16)) r0 = true ∧ (0 = 0 ∨ ∀
      n ≤ 15, BitVec.getLsbD (65535 : BitVec 16) n = true → (trigOut r0 n).sched.refPtp = true)) ∧
    (Ready h0 w06_19 ∧ (32769 : BitVec 16) ≠ (0 : BitVec 16) ∧ ripplePlace (RippleWork.trigStop (32769 : BitVec 16)) w06_19 = true ∧
      (9000 = 0 ∨ ∀ n ≤ 15, BitVec.getLsbD (32769 : BitVec 16) n = true → (trigOut w06_19 n).sched.refPtp = true)) ∧
    (Ready h0 w06_20 ∧ (32769 : BitVec 16) ≠ (0 : BitVec 16) ∧ ripplePlace (RippleWork.trigStop (32769 : BitVec 16)) w06_20 = true ∧
      9000 ≠ 0 ∧ w06_20.jobs.tor = some 3000 ∧ (∀ n ≤ 15, BitVec.getLsbD (32769 : BitVec 16) n = true → (trigOut w06_20 n).sched.refPtp
      = false)) ∧
    (Ready h0 trgOn ∧ 15 ≤ 15 ∧ (trigOut trgOn 15).enable = true ∧ trgOn.time.stops = [] ∧ ripplePlace (RippleWork.trigStop
      (BitVec.ofNat 16 (2 ^ 15))) trgOn = true) ∧
    (Ready h0 r0 ∧ 8 ≤ 8 ∧ 3 ≤ 3 ∧ 255 ≤ 255 ∧ (255 ≤ 15 ∨ 255 = 255) ∧ (∀ (x : Nat × Nat), r0.jobs.lineTrigger = some x → x.1 ≠ 8)) ∧
    (Ready h0 r0 ∧ (8 < 9 ∨ 3 < 3 ∨ 255 < 255 ∨ 15 < 255 ∧ 255 ≠ 255)) ∧
    (Ready h0 r0 ∧ (8 < 0 ∨ 3 < 0 ∨ 255 < 0 ∨ 15 < 16 ∧ 16 ≠ 255)) ∧
    (Ready h0 r0 ∧ (0 % 32 ≠ 0 ∨ 63 < 64 ∨ 65536 < 63)) ∧
    (Ready h0 r0 ∧ 536870912 % 32 = 0 ∧ 6 ≤ 16 ∧ 16 ≤ 16 ∧ hostMem 536870912 (32 * 2 ^ 16) r0 = true) ∧
    (Ready h0 r0) ∧
    (Ready h0 r0 ∧ (2 = 255 ∨ 2 ≤ 2 ∧ 1 ≤ 500000 ∧ 500000 ≤ 500000)) ∧
    ((trigOut r0 3).repl = none ∧ (trigOut r0 3).fall = none ∧ (trigOut r0 3).enable = false) ∧
    ((trigOut trgOn 15).repl = none ∧ (trigOut trgOn 15).fall = none ∧ (trigOut trgOn 15).enable = true ∧ (trigOut trgOn
      15).sched.toggle = false ∧ (trigOut trgOn 15).next / 5 * 5 ≤ max trgOn.now 7) ∧
    ((trigOut w06_21 15).repl = none ∧ (trigOut w06_21 15).fall = some 9 ∧ (9 / 5 : Ns) * 5 ≤ max w06_21.now 7) ∧
    ((trigOut w06_22 15).repl = none ∧ (trigOut w06_22 15).fall = none ∧ (trigOut w06_22 15).enable = true ∧ (trigOut w06_22
      15).sched.toggle = true ∧ (trigOut w06_22 15).next / 5 * 5 ≤ max w06_22.now 7) ∧
    (7 < 8 ∧ (trigIn (inOn (1 : BitVec 2)) 7).filter.toNat ≤ 4 ∧ (trigIn (inOn (1 : BitVec 2)) 7).edge.getLsbD 0 = true ∧ (∀ (e : Ns),
      (trigIn (inOn (1 : BitVec 2)) 7).last = some e → e + 20 ≤ max (inOn (1 : BitVec 2)).now 7) ∧ 7 < (inOn (1 : BitVec
      2)).time.trigIn.length) ∧
    (7 < 8 ∧ 3 < (trigIn (inOn (3 : BitVec 2)) 7).filter.toNat ∧ 7 < (inOn (3 : BitVec 2)).time.trigIn.length) ∧
    (7 < 8 ∧ (trigIn (inOn (2 : BitVec 2)) 7).filter.toNat ≤ 4 ∧ (trigIn (inOn (2 : BitVec 2)) 7).edge.getLsbD 0 = false) ∧
    (7 < 8 ∧ (trigIn (inOn (2 : BitVec 2)) 7).filter.toNat ≤ 4 ∧ (trigIn (inOn (2 : BitVec 2)) 7).edge.getLsbD 1 = true ∧ (trigIn (inOn
      (2 : BitVec 2)) 7).last = none ∧ (trigIn (inOn (2 : BitVec 2)) 7).fifo.length < 32 ∧ 7 < (inOn (2 : BitVec 2)).time.trigIn.length
      ∧ (inOn (2 : BitVec 2)).time.ringSet = false ∧ (inOn (2 : BitVec 2)).jobs.lineTrigger = none) ∧
    ((∀ (f : Ns), w06_23.time.pps.fall = some f → max w06_23.now 2000000000 < f) ∧ max w06_23.now 2000000000 % 1000000000 = 0 ∧
      secondDriven w06_23 (max w06_23.now 2000000000 / 1000000000) = false ∧ w06_23.time.pps.pending = [] ∧ w06_23.time.pps.mode = (1 :
      BitVec 2)) ∧
    (w06_24.time.pps.fall = some 2000000003 ∧ 2000000003 ≤ max w06_24.now 2000000005) ∧
    ((∀ (f : Ns), r0.time.pps.fall = some f → max r0.now 2000000005 < f) ∧ max r0.now 2000000005 % 1000000000 ≠ 0) :=
  ⟨⟨ready_of (by decide +kernel), by decide +kernel⟩,
   ⟨ready_of (by decide +kernel), by decide +kernel⟩,
   ⟨ready_of (by decide +kernel), by decide +kernel⟩,
   ⟨ready_of (by decide +kernel), by decide +kernel⟩,
   ⟨ready_of (by decide +kernel), by decide +kernel⟩,
   ⟨ready_of (by decide +kernel), by decide +kernel⟩,
   ⟨ready_of (by decide +kernel), by decide +kernel⟩,
   ⟨ready_of (by decide +kernel), by decide +kernel⟩,
   ⟨ready_of (by decide +kernel), by decide +kernel⟩,
   ⟨ready_of (by decide +kernel), by decide +kernel⟩,
   ⟨ready_of (by decide +kernel), by decide +kernel⟩,
   ⟨ready_of (by decide +kernel), by decide +kernel⟩,
   ⟨ready_of (by decide +kernel), by decide +kernel⟩,
   ⟨ready_of (by decide +kernel), by decide +kernel⟩,
   ⟨ready_of (by decide +kernel), by decide +kernel⟩,
   ⟨ready_of (by decide +kernel), by decide +kernel⟩,
   ⟨ready_of (by decide +kernel), by decide +kernel⟩,
   ⟨ready_of (by decide +kernel), by decide +kernel⟩,
   ready_of (by decide +kernel),
   ⟨ready_of (by decide +kernel), by decide +kernel⟩,
   by decide +kernel,
   by decide +kernel,
   by decide +kernel,
   by decide +kernel,
   by decide +kernel,
   by decide +kernel,
   by decide +kernel,
   by decide +kernel,
   by decide +kernel,
   by decide +kernel,
   by decide +kernel⟩

theorem witness_RippleActionsFireAndCancel :
    ((∀ a ∈ actions (rip act0), max (rip act0).now 995 < a.launch) ∧ (rip act0).still.regionSet = false ∧ (rip act0).jobs.startRef =
      none) ∧
    ((rip act0).time.ripple.actions = [act0] ∧ act0.launch ≤ max (rip act0).now 1000 ∧ (rip act0).still.regionSet = false ∧ (rip
      act0).jobs.startRef = none ∧ act0.work = RippleWork.syncRelease 3) ∧
    ((rip (act1 (RippleWork.layerStart 0))).time.ripple.actions = [act1 (RippleWork.layerStart 0)] ∧ (act1 (RippleWork.layerStart
      0)).launch ≤ max (rip (act1 (RippleWork.layerStart 0))).now 1000 ∧ (rip (act1 (RippleWork.layerStart 0))).still.regionSet = false
      ∧ (rip (act1 (RippleWork.layerStart 0))).jobs.startRef = none ∧ (act1 (RippleWork.layerStart 0)).work = RippleWork.layerStart 0) ∧
    (w06_25.time.ripple.actions = [w06_26] ∧ w06_26.launch ≤ max w06_25.now 1000 ∧ w06_25.still.regionSet = false ∧ w06_25.jobs.startRef
      = none ∧ w06_26.work = RippleWork.trigOut 15 w06_27) ∧
    ((rip (act1 (RippleWork.proxSep 15 0 7))).time.ripple.actions = [act1 (RippleWork.proxSep 15 0 7)] ∧ (act1 (RippleWork.proxSep 15 0
      7)).launch ≤ max (rip (act1 (RippleWork.proxSep 15 0 7))).now 1000 ∧ (rip (act1 (RippleWork.proxSep 15 0 7))).still.regionSet =
      false ∧ (rip (act1 (RippleWork.proxSep 15 0 7))).jobs.startRef = none ∧ (act1 (RippleWork.proxSep 15 0 7)).work =
      RippleWork.proxSep 15 0 7) ∧
    ((actions (rip actT))[0]? = some actT ∧ (actionNames (passTo 799 (rip actT)) (18, 0) actT.work = false ∨ max (rip actT).now 799 +
      200 < actT.launch)) ∧
    ((actions (rip actT))[0]? = some actT ∧ (actionNames (passTo 995 (rip actT)) (0, 0) actT.work = false ∨ max (rip actT).now 995 + 200
      < actT.launch)) ∧
    ((actions (rip act0))[0]? = some act0 ∧ (actionNames (passTo 799 (rip act0)) (0, 0) act0.work = false ∨ max (rip act0).now 799 + 200
      < act0.launch)) ∧
    ((actions w06_28)[0]? = some act0 ∧ actionNames (passTo 800 w06_28) (0, 1) act0.work = true ∧ act0.launch ≤ max w06_28.now 800 + 200
      ∧ act0.work.firesAnyway = true) ∧
    ((actions (rip actT))[0]? = some actT ∧ actionNames (passTo 800 (rip actT)) (18, 0) actT.work = true ∧ actT.launch ≤ max (rip
      actT).now 800 + 200 ∧ actT.tk = some (63, 7) ∧ actT.work = RippleWork.trigOut 2 TrigSched.reset ∧ (rip actT).time.stops = []) :=
  ⟨by decide +kernel,
   by decide +kernel,
   by decide +kernel,
   by decide +kernel,
   by decide +kernel,
   by decide +kernel,
   by decide +kernel,
   by decide +kernel,
   by decide +kernel,
   by decide +kernel⟩

theorem witness_PortsAndNodesComeAndGo :
    (31 < b2.variant.ports ∧ (portOf b2 31).link = (0 : BitVec 2) ∧ b2.power.blockReset = [] ∧ b2.jobs.state = (2 : BitVec 4)) ∧
    (31 < r0.variant.ports ∧ linkUp r0 31 = false ∧ (∀ u ∈ r0.power.blockReset, u ≠ (2, 31))) ∧
    (0 < noPort.variant.ports ∧ linkUp noPort 0 = false ∧ (∀ u ∈ noPort.power.blockReset, u ≠ (2, 0))) ∧
    (0 < r0.variant.ports ∧ linkUp r0 0 = true) ∧
    (0 < r0.variant.ports ∧ linkUp r0 0 = true ∧ 17 ≠ 1) ∧
    (31 < r0.variant.ports ∧ (portOf r0 31).link = (0 : BitVec 2)) ∧
    (0 < r0.variant.ports ∧ (nodeOf r0 0 1).present = true) ∧
    (0 < r0.variant.ports ∧ (nodeOf r0 0 1).present = true ∧ 2 ≠ 1) ∧
    (0 < r0.variant.ports ∧ linkUp r0 0 = true ∧ blockTypes.contains 119 = false) ∧
    (0 < (iox0 r0).variant.ports ∧ (nodeOf (iox0 r0) 0 1).present = true ∧ (nodeOf (iox0 r0) 0 1).ident.beams = 0 ∧ silentAt (nodeOf
      (iox0 r0) 0 1) 1 ≤ max (iox0 r0).now 12521) ∧
    (0 < (iox0 r0).variant.ports ∧ (nodeOf (iox0 r0) 0 1).present = true ∧ (nodeOf (iox0 r0) 0 1).ident.beams = 0 ∧ max (iox0 r0).now
      12520 < silentAt (nodeOf (iox0 r0) 0 1) 1) ∧
    (0 < beams2.variant.ports ∧ (nodeOf beams2 0 1).present = true ∧ 0 < (nodeOf beams2 0 1).ident.beams ∧ (nodeOf beams2 0 1).lastUnit
      + 8000 ≤ max beams2.now 8000) ∧
    (0 < beams2.variant.ports ∧ (nodeOf beams2 0 1).present = true ∧ 0 < (nodeOf beams2 0 1).ident.beams ∧ max beams2.now 7999 < (nodeOf
      beams2 0 1).lastUnit + 8000) ∧
    (0 < w07_1.variant.ports ∧ (portOf w07_1 0).enumPhase ≠ EnumPhase.idle) ∧
    (0 < r0.variant.ports ∧ (portOf r0 0).enumPhase = EnumPhase.idle ∧ mayEnumerate r0 0 (nodeCount r0 0 + 1) = true) ∧
    ((∀ (h : Nat), 2 ≤ h → (nodeOf r0 0 h).present = false) ∧ 0 < r0.variant.ports ∧ linkUp r0 0 = true ∧ (nodeOf r0 0 1).present =
      true) ∧
    (0 < w07_2.variant.ports ∧ 1 ≤ 1 ∧ 1 ≤ 16 ∧ measuring w07_2 0 1 = true ∧ (nodeOf w07_2 0 1).measured.length < 63 ∧ 0 <
      w07_2.link.ports.length) ∧
    (0 < w07_3.variant.ports ∧ 1 ≤ 1 ∧ 1 ≤ 16 ∧ measuring w07_3 0 1 = true ∧ (nodeOf w07_3 0 1).measured.length = 63 ∧ 0 <
      w07_3.link.ports.length ∧ (portOf w07_3 0).nodes.length = 16) ∧
    (0 < r0.variant.ports ∧ 0 ≠ crc8 (natLE 1 178 ++ natLE 1 1 ++ natLE 1 63)) ∧
    (0 < r0.variant.ports ∧ 0 ≠ crc8 (natLE 1 180 ++ natLE 1 0 ++ natLE 1 7 ++ natLE 4 0 ++ natLE 8 0)) ∧
    (0 < (iox0 r0).variant.ports ∧ (nodeOf (iox0 r0) 0 (0 % 16 + 1)).present = true ∧ (nodeOf (iox0 r0) 0 (0 % 16 + 1)).ident.beams = 0
      ∧ bit (nodeOf (iox0 r0) 0 (0 % 16 + 1)).status.toNat 0 = bit 4294967294 0) ∧
    (0 < (iox0 r0).variant.ports ∧ (nodeOf (iox0 r0) 0 (0 % 16 + 1)).present = true ∧ (nodeOf (iox0 r0) 0 (0 % 16 + 1)).ident.beams = 0) ∧
    (0 < r0.variant.ports ∧ frameGood (svcFrame 0 1 32 0 9 [(0 : Byte)]) = true ∧ 1 ≠ 30 ∧ (nodeOf r0 0 1).present = true ∧ bit (field
      (svcFrame 0 1 32 0 9 [(0 : Byte)]) 3 1) 0 = false) ∧
    (0 < (withReq req0).variant.ports ∧ frameGood (svcFrame 0 1 10 1 9 [(0 : Byte)]) = true ∧ 1 ≠ 30 ∧ (nodeOf (withReq req0) 0
      1).present = true ∧ (withReq req0).link.reqs = [req0] ∧ req0.port = 0 ∧ req0.hop = 1 ∧ req0.seq = field (svcFrame 0 1 10 1 9 [(0 :
      Byte)]) 6 2 ∧ bit (field (svcFrame 0 1 10 1 9 [(0 : Byte)]) 3 1) 0 = true) ∧
    (0 < (withReq req0).variant.ports ∧ frameGood (svcFrame 0 1 10 1 9 [(0 : Byte)]) = true ∧ 1 ≠ 30 ∧ (nodeOf (withReq req0) 0
      1).present = true ∧ bit (field (svcFrame 0 1 10 1 9 [(0 : Byte)]) 3 1) 0 = true ∧ (withReq req0).link.reqs = [req0] ∧ req0.port =
      0 ∧ req0.hop = 1 ∧ req0.seq = field (svcFrame 0 1 10 1 9 [(0 : Byte)]) 6 2 ∧ req0.ref = some (63, 7)) ∧
    (0 < (withReq req0).variant.ports ∧ frameGood [(1 : Byte), 2, 3] = false) ∧
    (0 < (withReq req0).variant.ports ∧ (withReq req0).link.reqs = [req0] ∧ req0.sent + 5000000 ≤ max (withReq req0).now 5000100 ∧
      req0.retried = false) ∧
    (0 < w07_4.variant.ports ∧ w07_4.link.reqs = [w07_5] ∧ w07_5.retried = true) ∧
    (0 < (withReq req0).variant.ports ∧ (withReq req0).link.reqs = [req0] ∧ max (withReq req0).now 10000099 < req0.sent + 10000000) ∧
    (0 < (withReq req0).variant.ports ∧ (withReq req0).link.reqs = [req0] ∧ req0.ref = some (63, 7) ∧ req0.sent + 10000000 ≤ max
      (withReq req0).now 10000100) :=
  ⟨by decide +kernel,
   by decide +kernel,
   by decide +kernel,
   by decide +kernel,
   by decide +kernel,
   by decide +kernel,
   by decide +kernel,
   by decide +kernel,
   by decide +kernel,
   by decide +kernel,
   by decide +kernel,
   by decide +kernel,
   by decide +kernel,
   by decide +kernel,
   by decide +kernel,
   ⟨no_far_nodes, by decide +kernel⟩,
   by decide +kernel,
   by decide +kernel,
   by decide +kernel,
   by decide +kernel,
   by decide +kernel,
   by decide +kernel,
   by decide +kernel,
   by decide +kernel,
   by decide +kernel,
   by decide +kernel,
   by decide +kernel,
   by decide +kernel,
   by decide +kernel,
   by decide +kernel⟩

theorem witness_CyclesAndFeedback :
    (((portOf r0 0).link = (0 : BitVec 2) ∨ 1001 % 500 ≠ 0 ∨ max r0.now 1000 < 1001 ∨ 1001 + 500 < max r0.now 1000)) ∧
    (((portOf r0 31).link = (0 : BitVec 2) ∨ 1000 % 500 ≠ 0 ∨ max r0.now 1000 < 1000 ∨ 1000 + 500 < max r0.now 1000)) ∧
    (((portOf r0 0).link = (0 : BitVec 2) ∨ 0 % 500 ≠ 0 ∨ max r0.now 1000 < 0 ∨ 0 + 500 < max r0.now 1000)) ∧
    (0 < beams2.variant.ports ∧ linkUp beams2 0 = true ∧ 1000 % 500 = 0 ∧ 1000 ≤ max beams2.now 1500 ∧ max beams2.now 1500 ≤ 1000 + 500) ∧
    (31 < w07_6.variant.ports ∧ linkUp w07_6 31 = true ∧ 1000 % 500 = 0 ∧ 1000 ≤ max w07_6.now 1500 ∧ max w07_6.now 1500 ≤ 1000 + 500 ∧
      (∀ n ∈ (portOf w07_6 31).nodes, n.present = false)) ∧
    (0 < mRunN.variant.ports ∧ (nodeOf mRunN 0 (0 % 16 + 1)).present = true ∧ laneOfBeam mRunN 0 (0 % 16 + 1) (bits 0 4 2) = some 0 ∧
      bit 1 0 = true ∧ (∀ (c0 : Ns), (laneOf mRunN 0).loop.lastFb = some c0 → c0 < cycleTime (max mRunN.now 1000) 1) ∧ emitOf (laneOf
      v07_13 0) (cycleTime (max mRunN.now 1000) 1) = none) ∧
    ((nodeOf r0 31 (0 % 16 + 1)).present = false) ∧
    (0 < r0.variant.ports ∧ (nodeOf r0 0 (32 % 16 + 1)).present = true ∧ (∀ l ∈ allLanes r0, ¬((laneRec r0 l).port = 0 ∧ (laneRec r0
      l).hop = 32 % 16 + 1 ∧ (laneRec r0 l).beam = bits 32 4 2))) ∧
    ((laneOf mRunN 0).state = LaneState.running ∧ 0 < mRunN.lanes.length) :=
  ⟨by decide +kernel,
   by decide +kernel,
   by decide +kernel,
   by decide +kernel,
   by decide +kernel,
   by decide +kernel,
   by decide +kernel,
   by decide +kernel,
   by decide +kernel⟩

theorem witness_SpringLinkOpcodes :
    (Ready h0 r0 ∧ nodeAt r0 0 = some (0, 1) ∧ [(255, 7)] ≠ [] ∧ [(255, 7)].length ≤ 4 ∧ (∀ e ∈ [(255, 7)], e.1 ≤ 255)) ∧
    (Ready h0 r0 ∧ nodeAt r0 0 = some (0, 1) ∧ 1 ≤ 64 ∧ 64 ≤ 64 ∧ 255 ≤ 255 ∧ 536870912 % 4 = 0 ∧ hostMem 536870912 (4 * 64) r0 = true) ∧
    (Ready h0 r0 ∧ nodeAt r0 0 = some (0, 1) ∧ 536870912 % 4 = 0 ∧ 500 ≤ 500 ∧ hostMem 536870912 500 r0 = true) ∧
    (Ready h0 r0 ∧ nodeAt r0 0 = some (0, 1) ∧ 536870912 % 4 = 0 ∧ 500 < 501) ∧
    (Ready h0 r0 ∧ nodeAt r0 0 = some (0, 1) ∧ 536870912 % 4 = 0 ∧ 256 ≤ 256 ∧ 500 ≤ 500 ∧ hostMem 536870912 500 r0 = true ∧ poisonIn
      536870912 500 r0 = none) ∧
    (Ready h0 r0 ∧ nodeAt r0 0 = some (0, 1) ∧ 255 < 256) ∧
    (Ready h0 r0 ∧ nodeAt r0 0 = some (0, 1) ∧ r0.jobs.state = (0 : BitVec 4)) ∧
    (Ready h0 r0 ∧ (512 / 512 : Nat) ≠ r0.ident.moduleId.toNat ∧ r0.jobs.state = (0 : BitVec 4)) ∧
    (Ready h0 b2 ∧ b2.jobs.state ≠ (0 : BitVec 4)) ∧
    (Ready h0 w07_7 ∧ (∀ (p : Nat), linkUp w07_7 p = false) ∧ w07_7.jobs.state = (0 : BitVec 4) ∧ 4294967295 < 2 ^ w07_7.variant.ports) ∧
    (Ready h0 r0 ∧ r0.jobs.state = (0 : BitVec 4) ∧ 3 < 2 ^ r0.variant.ports ∧ List.filter (fun p => linkUp r0 p) (bitsOf 32 3) ≠ []) ∧
    (Ready h0 r0 ∧ r0.jobs.state = (0 : BitVec 4) ∧ 0 < r0.variant.ports ∧ linkUp r0 0 = true ∧ (portOf r0 0).enumPhase = EnumPhase.idle
      ∧ mayEnumerate v07_14 0 (nodeCount v07_14 0 + 1) = true) ∧
    (Ready h0 r0 ∧ 536870912 % 32 = 0 ∧ 6 ≤ 16 ∧ 16 ≤ 16 ∧ hostMem 536870912 (32 * 2 ^ 16) r0 = true) ∧
    (Ready h0 r0 ∧ 536870913 % 32 ≠ 0) ∧
    (Ready h0 w07_8 ∧ w07_9.type = 7) :=
  ⟨⟨ready_of (by decide +kernel), by decide +kernel⟩,
   ⟨ready_of (by decide +kernel), by decide +kernel⟩,
   ⟨ready_of (by decide +kernel), by decide +kernel⟩,
   ⟨ready_of (by decide +kernel), by decide +kernel⟩,
   ⟨ready_of (by decide +kernel), by decide +kernel⟩,
   ⟨ready_of (by decide +kernel), by decide +kernel⟩,
   ⟨ready_of (by decide +kernel), by decide +kernel⟩,
   ⟨ready_of (by decide +kernel), by decide +kernel⟩,
   ⟨ready_of (by decide +kernel), by decide +kernel⟩,
   ⟨ready_of (by decide +kernel), no_link_up, by decide +kernel⟩,
   ⟨ready_of (by decide +kernel), by decide +kernel⟩,
   ⟨ready_of (by decide +kernel), by decide +kernel⟩,
   ⟨ready_of (by decide +kernel), by decide +kernel⟩,
   ⟨ready_of (by decide +kernel), by decide +kernel⟩,
   ⟨ready_of (by decide +kernel), by decide +kernel⟩⟩

theorem witness_DescriptorEndsOnce :
    ((out0 r0).hostq.slots.length = 320 ∧ List.countP (fun x => x.hdr.ref == tk0.hdr.ref) ((out0 r0).hostq.outstanding ++ (out0
      r0).hostq.parked) = 1 ∧ ticket (out0 r0) tk0.hdr.ref = some tk0 ∧ finishedAlready tk0.hdr.ref (out0 r0) = false) ∧
    ((out0 r0).hostq.slots.length = 320 ∧ List.countP (fun x => x.hdr.ref == tk0.hdr.ref) ((out0 r0).hostq.outstanding ++ (out0
      r0).hostq.parked) = 1 ∧ ticket (out0 r0) tk0.hdr.ref = some tk0 ∧ finishedAlready tk0.hdr.ref (out0 r0) = false ∧
      (¬(tk0.hdr.silent = true ∧ 18 = 0))) ∧
    ((out0 r0).hostq.slots.length = 320 ∧ List.countP (fun x => x.hdr.ref == tk0.hdr.ref) ((out0 r0).hostq.outstanding ++ (out0
      r0).hostq.parked) = 1 ∧ ticket (out0 r0) tk0.hdr.ref = some tk0 ∧ finishedAlready tk0.hdr.ref (out0 r0) = false ∧
      (¬(tk0.hdr.silent = true ∧ 18 = 0)) ∧ unit (out0 r0).hostq.slots (endRecord tk0 18 5 6 (out0 r0)).ctx none = none) ∧
    (otherIn.hostq.slots.length = 320 ∧ List.countP (fun x => x.hdr.ref == tk0.hdr.ref) (otherIn.hostq.outstanding ++
      otherIn.hostq.parked) = 1 ∧ ticket otherIn tk0.hdr.ref = some tk0 ∧ finishedAlready tk0.hdr.ref otherIn = false ∧
      (¬(tk0.hdr.silent = true ∧ 0 = 0)) ∧ unit otherIn.hostq.slots (endRecord tk0 0 5 6 otherIn).ctx none ≠ none) ∧
    ((out0 r0).hostq.slots.length = 320 ∧ List.countP (fun x => x.hdr.ref == tk0.hdr.ref) ((out0 r0).hostq.outstanding ++ (out0
      r0).hostq.parked) = 1 ∧ ticket (out0 r0) tk0.hdr.ref = some tk0 ∧ finishedAlready tk0.hdr.ref (out0 r0) = false ∧
      (¬(tk0.hdr.silent = true ∧ 0 = 0))) ∧
    (outS.hostq.slots.length = 320 ∧ List.countP (fun x => x.hdr.ref == tkS.hdr.ref) (outS.hostq.outstanding ++ outS.hostq.parked) = 1 ∧
      ticket outS tkS.hdr.ref = some tkS ∧ finishedAlready tkS.hdr.ref outS = false ∧ tkS.hdr.silent = true ∧ 0 = 0 ∧ outS.hostq.fences
      = []) :=
  ⟨by decide +kernel,
   by decide +kernel,
   by decide +kernel,
   by decide +kernel,
   by decide +kernel,
   by decide +kernel⟩

theorem witness_GeneralDescriptors :
    (Ready h0 r0) ∧
    (Ready h0 r0 ∧ (536870912 % 32 = 0 ∧ (∃ k, 6 ≤ k ∧ k ≤ 16 ∧ 65536 = 2 ^ k) ∧ 536870912 ≤ 536870912 ∧ 536870912 + 32 * 65536 ≤
      usableEnd r0)) ∧
    (Ready h0 r0 ∧ (¬(536870928 % 32 = 0 ∧ (∃ k, 6 ≤ k ∧ k ≤ 16 ∧ 65536 = 2 ^ k) ∧ 536870912 ≤ 536870928 ∧ 536870928 + 32 * 65536 ≤
      usableEnd r0))) ∧
    (Ready h0 r0 ∧ (5 : BitVec 16) ≤ (5 : BitVec 16) ∧ 41 ≤ 63 ∧ 63 ≤ 63 ∧ r0.events.routes.length < 32) ∧
    (Ready h0 w08_1 ∧ (5 : BitVec 16) ≤ (5 : BitVec 16) ∧ 41 ≤ 41 ∧ 41 ≤ 63 ∧ 32 ≤ w08_1.events.routes.length) ∧
    (Ready h0 w08_1 ∧ (1 : BitVec 16) ≤ (2 : BitVec 16) ∧ 255 = 255) ∧
    (Ready h0 r0 ∧ ((4 : BitVec 16) < (5 : BitVec 16) ∨ 41 ≠ 255 ∧ (41 < 41 ∨ 63 < 41))) ∧
    (Ready h0 r0 ∧ ((5 : BitVec 16) < (5 : BitVec 16) ∨ 64 ≠ 255 ∧ (64 < 41 ∨ 63 < 64))) ∧
    (Ready h0 (rip commit1) ∧ setsInCommit (rip commit1) &&& (254 : BitVec 8) = (0 : BitVec 8)) ∧
    (Ready h0 (rip commit1) ∧ setsInCommit (rip commit1) &&& (1 : BitVec 8) ≠ (0 : BitVec 8)) :=
  ⟨ready_of (by decide +kernel),
   ⟨ready_of (by decide +kernel), ⟨by decide, ⟨16, by decide⟩, by decide, by decide +kernel⟩⟩,
   ⟨ready_of (by decide +kernel), fun h => absurd h.1 (by decide)⟩,
   ⟨ready_of (by decide +kernel), by decide +kernel⟩,
   ⟨ready_of (by decide +kernel), by decide +kernel⟩,
   ⟨ready_of (by decide +kernel), by decide +kernel⟩,
   ⟨ready_of (by decide +kernel), by decide +kernel⟩,
   ⟨ready_of (by decide +kernel), by decide +kernel⟩,
   ⟨ready_of (by decide +kernel), by decide +kernel⟩,
   ⟨ready_of (by decide +kernel), by decide +kernel⟩⟩

theorem witness_SnapshotsStagingAndFences :
    (Ready h0 r0 ∧ r0.still.regionSet = false) ∧
    (Ready h0 w08_2 ∧ w08_2.still.regionSet = true ∧ w08_2.still.demandAt.isSome = true) ∧
    (Ready h0 still0 ∧ still0.still.regionSet = true ∧ still0.still.demandAt = none ∧ (still0.still.lastLatch = none ∧ 100000 = 0 ∨
      still0.still.lastLatch = some (100000 - 100000) ∧ 100000 ≤ 100000) ∧ 100000 = tickAt (max (still0.now + 1000) 100000) ∧ (∀ (p :
      Ns), still0.still.nextTick = some p → 100000 + 100000 < p) ∧ ripplePlace (RippleWork.snapshot false true) still0 = true) ∧
    (Ready h0 (stillP 200005) ∧ (stillP 200005).still.regionSet = true ∧ (stillP 200005).still.demandAt = none ∧ ((stillP
      200005).still.lastLatch = none ∧ 100000 = 0 ∨ (stillP 200005).still.lastLatch = some (100000 - 100000) ∧ 100000 ≤ 100000) ∧ 100000
      = tickAt (max ((stillP 200005).now + 1000) 100000) ∧ (∀ (p : Ns), (stillP 200005).still.nextTick = some p → 100000 + 100000 < p) ∧
      ripplePlace (RippleWork.snapshot false true) (stillP 200005) = true) ∧
    (Ready h0 (kept256 still0) ∧ (kept256 still0).still.regionSet = true ∧ (kept256 still0).still.demandAt = none ∧ ((kept256
      still0).still.lastLatch = none ∧ 100000 = 0 ∨ (kept256 still0).still.lastLatch = some (100000 - 100000) ∧ 100000 ≤ 100000) ∧
      100000 = tickAt (max ((kept256 still0).now + 1000) 100000) ∧ (∀ (p : Ns), (kept256 still0).still.nextTick = some p → 100000 +
      100000 < p) ∧ ripplePlace (RippleWork.snapshot false true) (kept256 still0) = false) ∧
    (Ready h0 (stillP 200000) ∧ (stillP 200000).still.regionSet = true ∧ (stillP 200000).still.demandAt = none ∧ ((stillP
      200000).still.lastLatch = none ∧ 100000 = 0 ∨ (stillP 200000).still.lastLatch = some (100000 - 100000) ∧ 100000 ≤ 100000) ∧ 100000
      = tickAt (max ((stillP 200000).now + 1000) 100000) ∧ (stillP 200000).still.nextTick = some 200000 ∧ 100000 ≤ 200000 ∧ 200000 ≤
      100000 + 100000) ∧
    (Ready h0 (stillP 100000) ∧ (stillP 100000).still.regionSet = true ∧ (stillP 100000).still.demandAt = none ∧ ((stillP
      100000).still.lastLatch = none ∧ 100000 = 0 ∨ (stillP 100000).still.lastLatch = some (100000 - 100000) ∧ 100000 ≤ 100000) ∧ 100000
      = tickAt (max ((stillP 100000).now + 1000) 100000) ∧ (stillP 100000).still.nextTick = some 100000 ∧ 100000 ≤ 100000 ∧ 100000 ≤
      100000 + 100000) ∧
    (Ready h0 (stillP 99995) ∧ (stillP 99995).still.regionSet = true ∧ (stillP 99995).still.demandAt = none ∧ ((stillP
      99995).still.lastLatch = none ∧ 100000 = 0 ∨ (stillP 99995).still.lastLatch = some (100000 - 100000) ∧ 100000 ≤ 100000) ∧ 100000 =
      tickAt (max ((stillP 99995).now + 1000) 100000) ∧ (stillP 99995).still.nextTick = some 99995 ∧ 99995 < 100000 ∧ 99995 + 1000 *
      (stillP 99995).still.periodUs.toNat ≤ v08_1 + 100000) ∧
    (Ready h0 (stillQ 99995) ∧ (stillQ 99995).still.regionSet = true ∧ (stillQ 99995).still.demandAt = none ∧ ((stillQ
      99995).still.lastLatch = none ∧ 100000 = 0 ∨ (stillQ 99995).still.lastLatch = some (100000 - 100000) ∧ 100000 ≤ 100000) ∧ 100000 =
      tickAt (max ((stillQ 99995).now + 1000) 100000) ∧ (stillQ 99995).still.nextTick = some 99995 ∧ 99995 < 100000 ∧ v08_2 + 100000 <
      99995 + 1000 * (stillQ 99995).still.periodUs.toNat ∧ ripplePlace (RippleWork.snapshot false true) (stillQ 99995) = true) ∧
    (Ready h0 still0 ∧ (true = true → 536875008 = 0 ∨ 536875008 % 4096 = 0 ∧ hostMem 536875008 26624 still0 = true) ∧ (true = true → 0 =
      0 ∨ 100 ≤ 0 ∧ 0 ≤ 1000000 ∧ 0 % 100 = 0)) ∧
    (Ready h0 still0 ∧ (false = true → 5 = 0 ∨ 5 % 4096 = 0 ∧ hostMem 5 26624 still0 = true) ∧ (false = true → 7 = 0 ∨ 100 ≤ 7 ∧ 7 ≤
      1000000 ∧ 7 % 100 = 0)) ∧
    (Ready h0 still0 ∧ (0 = 0 ∨ 0 % 4096 = 0 ∧ hostMem 0 26624 still0 = true)) ∧
    (Ready h0 still0 ∧ (536875008 = 0 ∨ 536875008 % 4096 = 0 ∧ hostMem 536875008 26624 still0 = true)) ∧
    (Ready h0 still0 ∧ 100 ≤ 100 ∧ 100 ≤ 1000000 ∧ 100 % 100 = 0) ∧
    (Ready h0 still0 ∧ 100 ≤ 1000000 ∧ 1000000 ≤ 1000000 ∧ 1000000 % 100 = 0) ∧
    (Ready h0 still0 ∧ 0 < 1000100 ∧ (1000100 < 100 ∨ 1000000 < 1000100 ∨ 1000100 % 100 ≠ 0)) ∧
    (Ready h0 w08_3 ∧ 7 ≤ 7 ∧ 0 < 1 ∧ 1 ≤ 64 ∧ 536870912 % 64 = 0 ∧ hostMem 536870912 (64 * 1) w08_3 = true ∧ (setsInCommit
      w08_3).getLsbD 7 = false ∧ (unit w08_3.staging 7 []).length + 1 ≤ 64 ∧ poisonIn 536870912 (64 * 1) w08_3 = none ∧ readEntries
      536870912 (accept h0 3 w08_3) 1 0 = Except.ok w08_4) ∧
    (Ready h0 staged8 ∧ (255 : BitVec 8) ≠ (0 : BitVec 8) ∧ (∀ k < 8, BitVec.getLsbD (255 : BitVec 8) k = true → unit staged8.staging k
      [] ≠ []) ∧ setsInCommit staged8 &&& (255 : BitVec 8) = (0 : BitVec 8) ∧ (0 = 0 ∧ 0 = 0 ∨ 0 ≠ 0 ∧ false = false ∧ 0 = 0 ∨ 0 ≠ 0 ∧
      false = true ∧ refTime true 0 staged8 = some 0) ∧ refusedEntry ((hostLaunch 0 staged8).1 - 1000) (commitEntries (255 : BitVec 8)
      staged8) (accept h0 4 staged8) = none ∧ ripplePlace (RippleWork.cfgCommit (255 : BitVec 8)) staged8 = true) ∧
    (Ready h0 staged8 ∧ (1 : BitVec 8) ≠ (0 : BitVec 8) ∧ (∀ k < 8, BitVec.getLsbD (1 : BitVec 8) k = true → unit staged8.staging k [] ≠
      []) ∧ setsInCommit staged8 &&& (1 : BitVec 8) = (0 : BitVec 8) ∧ (90000 = 0 ∧ 90000 = 0 ∨ 90000 ≠ 0 ∧ false = false ∧ 90000 =
      90000 ∨ 90000 ≠ 0 ∧ false = true ∧ refTime true 90000 staged8 = some 90000) ∧ refusedEntry ((hostLaunch 90000 staged8).1 - 1000)
      (commitEntries (1 : BitVec 8) staged8) (accept h0 4 staged8) = none ∧ ripplePlace (RippleWork.cfgCommit (1 : BitVec 8)) staged8 =
      true) ∧
    (Ready h0 stagedT ∧ (1 : BitVec 8) ≠ (0 : BitVec 8) ∧ (∀ k < 8, BitVec.getLsbD (1 : BitVec 8) k = true → unit stagedT.staging k [] ≠
      []) ∧ setsInCommit stagedT &&& (1 : BitVec 8) = (0 : BitVec 8) ∧ (90000 = 0 ∧ 93000 = 0 ∨ 90000 ≠ 0 ∧ true = false ∧ 93000 = 90000
      ∨ 90000 ≠ 0 ∧ true = true ∧ refTime true 90000 stagedT = some 93000) ∧ refusedEntry ((hostLaunch 93000 stagedT).1 - 1000)
      (commitEntries (1 : BitVec 8) stagedT) (accept h0 4 stagedT) = none ∧ ripplePlace (RippleWork.cfgCommit (1 : BitVec 8)) stagedT =
      true) ∧
    (Ready h0 (kept256 staged8) ∧ (1 : BitVec 8) ≠ (0 : BitVec 8) ∧ (∀ k < 8, BitVec.getLsbD (1 : BitVec 8) k = true → unit (kept256
      staged8).staging k [] ≠ []) ∧ setsInCommit (kept256 staged8) &&& (1 : BitVec 8) = (0 : BitVec 8) ∧ (90000 = 0 ∧ 90000 = 0 ∨ 90000
      ≠ 0 ∧ false = false ∧ 90000 = 90000 ∨ 90000 ≠ 0 ∧ false = true ∧ refTime true 90000 (kept256 staged8) = some 90000) ∧ refusedEntry
      ((hostLaunch 90000 (kept256 staged8)).1 - 1000) (commitEntries (1 : BitVec 8) (kept256 staged8)) (accept h0 4 (kept256 staged8)) =
      none ∧ ripplePlace (RippleWork.cfgCommit (1 : BitVec 8)) (kept256 staged8) = false) ∧
    (Ready h0 staged8 ∧ (1 : BitVec 8) ≠ (0 : BitVec 8) ∧ (∀ k < 8, BitVec.getLsbD (1 : BitVec 8) k = true → unit staged8.staging k [] ≠
      []) ∧ setsInCommit staged8 &&& (1 : BitVec 8) = (0 : BitVec 8) ∧ 90000 ≠ 0 ∧ refTime true 90000 staged8 = none) ∧
    (Ready h0 fr ∧ ticket (accept h0 1 fr) h0.ref = some tkF) ∧
    (Ready h0 fr ∧ ticket (accept h0 1 fr) h0.ref = some tkF ∧ [(63, 3)] = fenceWaits h0.ref h0.ring (accept h0 1 fr) ++ List.flatMap
      (fun k => fenceWaits h0.ref k (accept h0 1 fr)) (List.filter (fun k => BitVec.getLsbD (0 : BitVec 64) k && k != h0.ring)
      (List.range 64)) ∧ (∀ f ∈ fr.hostq.fences, f.waits ≠ []) ∧ [(63, 3)] ≠ []) ∧
    (Ready h0 r0 ∧ ticket (accept h0 1 r0) h0.ref = some tkF ∧ [] = fenceWaits h0.ref h0.ring (accept h0 1 r0) ++ List.flatMap (fun k =>
      fenceWaits h0.ref k (accept h0 1 r0)) (List.filter (fun k => BitVec.getLsbD (0 : BitVec 64) k && k != h0.ring) (List.range 64)) ∧
      (∀ f ∈ r0.hostq.fences, f.waits ≠ []) ∧ false = false ∧ h0.silent = false) :=
  ⟨⟨ready_of (by decide +kernel), by decide +kernel⟩,
   ⟨ready_of (by decide +kernel), by decide +kernel⟩,
   ⟨ready_of (by decide +kernel), by decide +kernel⟩,
   ⟨ready_of (by decide +kernel), by decide +kernel⟩,
   ⟨ready_of (by decide +kernel), by decide +kernel⟩,
   ⟨ready_of (by decide +kernel), by decide +kernel⟩,
   ⟨ready_of (by decide +kernel), by decide +kernel⟩,
   ⟨ready_of (by decide +kernel), by decide +kernel⟩,
   ⟨ready_of (by decide +kernel), by decide +kernel⟩,
   ⟨ready_of (by decide +kernel), by decide +kernel⟩,
   ⟨ready_of (by decide +kernel), by decide +kernel⟩,
   ⟨ready_of (by decide +kernel), by decide +kernel⟩,
   ⟨ready_of (by decide +kernel), by decide +kernel⟩,
   ⟨ready_of (by decide +kernel), by decide +kernel⟩,
   ⟨ready_of (by decide +kernel), by decide +kernel⟩,
   ⟨ready_of (by decide +kernel), by decide +kernel⟩,
   ⟨ready_of (by decide +kernel), by decide +kernel⟩,
   ⟨ready_of (by decide +kernel), by decide +kernel⟩,
   ⟨ready_of (by decide +kernel), by decide +kernel⟩,
   ⟨ready_of (by decide +kernel), by decide +kernel⟩,
   ⟨ready_of (by decide +kernel), by decide +kernel⟩,
   ⟨ready_of (by decide +kernel), by decide +kernel⟩,
   ⟨ready_of (by decide +kernel), by decide +kernel⟩,
   ⟨ready_of (by decide +kernel), by decide +kernel⟩,
   ⟨ready_of (by decide +kernel), by decide +kernel⟩⟩

theorem witness_RingRegisterWrites :
    (r0.power.state = PowerState.on) ∧
    (r0.power.state = PowerState.on ∧ r0.mgmt.hostLost = false) ∧
    ((ringMem r0).power.state = PowerState.on ∧ (cmdRing (ringMem r0) 63).enable = false ∧ ringIdle (ringMem r0) 63 = true ∧
      BitVec.getLsbD (65548 : Word) 16 = true ∧ 4 ≤ BitVec.toNat (65548 : Word) % 16 ∧ BitVec.toNat (65548 : Word) % 16 ≤ 12 ∧ hostMem
      (cmdRing (ringMem r0) 63).base.toNat (64 * 2 ^ (BitVec.toNat (65548 : Word) % 16)) (ringMem r0) = true) ∧
    (r0.power.state = PowerState.on ∧ (cmdRing r0 63).enable = false ∧ ringIdle r0 63 = true ∧ BitVec.getLsbD (65540 : Word) 16 = true ∧
      4 ≤ BitVec.toNat (65540 : Word) % 16 ∧ BitVec.toNat (65540 : Word) % 16 ≤ 12 ∧ hostMem (cmdRing r0 63).base.toNat (64 * 2 ^
      (BitVec.toNat (65540 : Word) % 16)) r0 = false) ∧
    (ringOn.power.state = PowerState.on ∧ ((cmdRing ringOn 63).enable = true ∨ ringIdle ringOn 63 = false) ∧ (BitVec.toNat (65541 :
      Word) % 16 ≠ (cmdRing ringOn 63).sizeLog2.toNat ∨ BitVec.toNat (65541 : Word) / 256 % 16 ≠ (cmdRing ringOn 63).cq.toNat ∨
      BitVec.getLsbD (65541 : Word) 16 = true ∧ (cmdRing ringOn 63).enable = false)) ∧
    (ringOn.power.state = PowerState.on ∧ (cmdRing ringOn 63).enable = true ∧ BitVec.getLsbD (516 : Word) 16 = false ∧ BitVec.toNat (516
      : Word) % 16 = (cmdRing ringOn 63).sizeLog2.toNat ∧ BitVec.toNat (516 : Word) / 256 % 16 = (cmdRing ringOn 63).cq.toNat) ∧
    ((ringMem r0).power.state = PowerState.on ∧ (complRing (ringMem r0) 15).enable = false ∧ BitVec.getLsbD (65552 : Word) 16 = true ∧ 6
      ≤ BitVec.toNat (65552 : Word) % 32 ∧ BitVec.toNat (65552 : Word) % 32 ≤ 16 ∧ hostMem (complRing (ringMem r0) 15).base.toNat (32 *
      2 ^ (BitVec.toNat (65552 : Word) % 32)) (ringMem r0) = true) ∧
    (ringOn.power.state = PowerState.on ∧ (complRing ringOn 2).enable = true ∧ BitVec.getLsbD (6 : Word) 16 = false ∧ (∃ r ∈
      ringOn.hostq.cmd, r.enable = true ∧ r.cq.toNat = 2)) ∧
    (ringOn.power.state = PowerState.on ∧ (complRing ringOn 3).enable = true ∧ BitVec.getLsbD (6 : Word) 16 = false ∧ (∀ r ∈
      ringOn.hostq.cmd, r.enable = true → r.cq.toNat ≠ 3)) ∧
    (ringOn.power.state = PowerState.on) :=
  ⟨by decide +kernel,
   by decide +kernel,
   by decide +kernel,
   by decide +kernel,
   by decide +kernel,
   by decide +kernel,
   by decide +kernel,
   by decide +kernel,
   by decide +kernel,
   by decide +kernel⟩

theorem witness_RegisterAccesses :
    (r0.power.state = PowerState.on ∧ (¬(4 = 4 ∧ 2 % 4 = 0)) ∧ (¬(4 = 8 ∧ 2 % 8 = 0))) ∧
    (r0.power.state = PowerState.on ∧ (¬(8 = 4 ∧ 4 % 4 = 0)) ∧ (¬(8 = 8 ∧ 4 % 8 = 0))) ∧
    (r0.power.state = PowerState.on ∧ (¬(2 = 4 ∧ 0 % 4 = 0)) ∧ (¬(2 = 8 ∧ 0 % 8 = 0))) ∧
    (r0.power.state = PowerState.on ∧ 131072 % 4 = 0) ∧
    (r0.power.state = PowerState.on ∧ 131072 % 8 = 0) ∧
    (r0.power.state = PowerState.on ∧ 0 % 4 = 0 ∧ offsetMapped 0 r0 = true ∧ (∀ (w : UnitId), offsetUnit 0 = some w → unitDown r0 w =
      false) ∧ (¬(4096 ≤ 0 ∧ 0 < 8192)) ∧ (¬(131072 ≤ 0 ∧ 0 < 393216))) ∧
    (r0.power.state = PowerState.on ∧ 67108860 % 4 = 0 ∧ offsetMapped 67108860 r0 = false) ∧
    (r0.power.state = PowerState.on ∧ 44 % 4 = 0) ∧
    (r0.power.state = PowerState.on ∧ 393216 % 8 = 0) ∧
    (r0.power.state = PowerState.on) ∧
    (r0.power.state = PowerState.on ∧ 536870912 ≤ r0.mgmt.win.toNat * 1073741824 + 536870912 ∧ r0.mgmt.win.toNat * 1073741824 +
      536870912 + [(1 : Byte), 2, 3].length ≤ usableEnd r0 ∧ 536870912 + [(1 : Byte), 2, 3].length ≤ 4294967296 ∧ [(1 : Byte), 2, 3] ≠
      []) ∧
    (r0.power.state = PowerState.on ∧ 536870912 ≤ r0.mgmt.win.toNat * 1073741824 + 536870912 ∧ 0 < 3 ∧ r0.mgmt.win.toNat * 1073741824 +
      536870912 + 3 ≤ usableEnd r0 ∧ 536870912 + 3 ≤ 4294967296 ∧ poisonedIn (r0.mgmt.win.toNat * 1073741824 + 536870912) 3 r0 = []) :=
  ⟨by decide +kernel,
   by decide +kernel,
   by decide +kernel,
   by decide +kernel,
   by decide +kernel,
   by decide +kernel,
   by decide +kernel,
   by decide +kernel,
   by decide +kernel,
   by decide +kernel,
   by decide +kernel,
   by decide +kernel⟩

theorem witness_ManagementRequests :
    (r0.power.state = PowerState.on ∧ r0.boot.phase ≠ (0 : BitVec 4) ∧ (mgmtFormOk 3 qBad = false ∨ mgmtAllowed qBad r0 = false)) ∧
    ((ipList r0).power.state = PowerState.on ∧ (ipList r0).boot.phase ≠ (0 : BitVec 4) ∧ (mgmtFormOk 3 (mq 3 4 536870912 []) = false ∨
      mgmtAllowed (mq 3 4 536870912 []) (ipList r0) = false)) ∧
    (r0.power.state = PowerState.on ∧ r0.boot.phase ≠ (0 : BitVec 4) ∧ mgmtAllowed (mq 1 4 0 []) r0 = true ∧ keptMgmt (mq 1 4 0 []) r0 =
      none ∧ r0.mgmt.attached ≠ some (mq 1 4 0 []).src ∧ mgmtFormOk 1 (mq 1 4 0 []) = true) ∧
    (r0.power.state = PowerState.on ∧ r0.boot.phase ≠ (0 : BitVec 4) ∧ mgmtAllowed (mq 2 4 0 [(1 : Byte), 2, 3, 4]) r0 = true ∧ keptMgmt
      (mq 2 4 0 [(1 : Byte), 2, 3, 4]) r0 = none ∧ r0.mgmt.attached ≠ some (mq 2 4 0 [(1 : Byte), 2, 3, 4]).src ∧ mgmtFormOk 2 (mq 2 4 0
      [(1 : Byte), 2, 3, 4]) = true) ∧
    (r0.power.state = PowerState.on ∧ r0.boot.phase ≠ (0 : BitVec 4) ∧ mgmtAllowed (mq 3 4 536870912 []) r0 = true ∧ keptMgmt (mq 3 4
      536870912 []) r0 = none ∧ r0.mgmt.attached ≠ some (mq 3 4 536870912 []).src ∧ mgmtFormOk 3 (mq 3 4 536870912 []) = true) ∧
    (r0.power.state = PowerState.on ∧ r0.boot.phase ≠ (0 : BitVec 4) ∧ mgmtAllowed (mq 4 4 536870912 [(1 : Byte), 2, 3, 4]) r0 = true ∧
      keptMgmt (mq 4 4 536870912 [(1 : Byte), 2, 3, 4]) r0 = none ∧ r0.mgmt.attached ≠ some (mq 4 4 536870912 [(1 : Byte), 2, 3, 4]).src
      ∧ mgmtFormOk 4 (mq 4 4 536870912 [(1 : Byte), 2, 3, 4]) = true) ∧
    (r0.power.state = PowerState.on ∧ r0.boot.phase ≠ (0 : BitVec 4) ∧ mgmtAllowed (mq 6 0 0 []) r0 = true ∧ keptMgmt (mq 6 0 0 []) r0 =
      none ∧ r0.mgmt.attached ≠ some (mq 6 0 0 []).src ∧ mgmtFormOk 6 (mq 6 0 0 []) = true) ∧
    ((att r0).power.state = PowerState.on ∧ (att r0).boot.phase ≠ (0 : BitVec 4) ∧ mgmtAllowed (mq 6 0 0 []) (att r0) = true ∧ keptMgmt
      (mq 6 0 0 []) (att r0) = none ∧ (att r0).mgmt.attached = some (mq 6 0 0 []).src ∧ mgmtFormOk 6 (mq 6 0 0 []) = true) ∧
    ((att r0).power.state = PowerState.on ∧ (att r0).boot.phase ≠ (0 : BitVec 4) ∧ mgmtAllowed (mq 1 8 44 []) (att r0) = true ∧ keptMgmt
      (mq 1 8 44 []) (att r0) = none ∧ (att r0).mgmt.attached = some (mq 1 8 44 []).src ∧ (mq 1 8 44 []).count % 4 = 0 ∧ 4 ≤ (mq 1 8 44
      []).count ∧ (mq 1 8 44 []).count ≤ 1024 ∧ mgmtFormOk 1 (mq 1 8 44 []) = true) ∧
    ((att r0).power.state = PowerState.on ∧ (att r0).boot.phase ≠ (0 : BitVec 4) ∧ mgmtAllowed (mq 1 1024 44 []) (att r0) = true ∧
      keptMgmt (mq 1 1024 44 []) (att r0) = none ∧ (att r0).mgmt.attached = some (mq 1 1024 44 []).src ∧ (mq 1 1024 44 []).count % 4 = 0
      ∧ 4 ≤ (mq 1 1024 44 []).count ∧ (mq 1 1024 44 []).count ≤ 1024 ∧ mgmtFormOk 1 (mq 1 1024 44 []) = true) ∧
    ((att r0).power.state = PowerState.on ∧ (att r0).boot.phase ≠ (0 : BitVec 4) ∧ mgmtAllowed (mq 2 4 131072 [(1 : Byte), 2, 3, 4])
      (att r0) = true ∧ keptMgmt (mq 2 4 131072 [(1 : Byte), 2, 3, 4]) (att r0) = none ∧ (att r0).mgmt.attached = some (mq 2 4 131072
      [(1 : Byte), 2, 3, 4]).src ∧ (mq 2 4 131072 [(1 : Byte), 2, 3, 4]).count % 4 = 0 ∧ 4 ≤ (mq 2 4 131072 [(1 : Byte), 2, 3, 4]).count
      ∧ (mq 2 4 131072 [(1 : Byte), 2, 3, 4]).count ≤ 1024 ∧ mgmtFormOk 2 (mq 2 4 131072 [(1 : Byte), 2, 3, 4]) = true ∧ (mq 2 4 131072
      [(1 : Byte), 2, 3, 4]).data.length = (mq 2 4 131072 [(1 : Byte), 2, 3, 4]).count) ∧
    ((att r0).power.state = PowerState.on ∧ (att r0).boot.phase ≠ (0 : BitVec 4) ∧ mgmtAllowed (mq 3 1024 536870912 []) (att r0) = true
      ∧ keptMgmt (mq 3 1024 536870912 []) (att r0) = none ∧ (att r0).mgmt.attached = some (mq 3 1024 536870912 []).src ∧ (mq 3 1024
      536870912 []).count % 4 = 0 ∧ 4 ≤ (mq 3 1024 536870912 []).count ∧ (mq 3 1024 536870912 []).count ≤ 1024 ∧ 536870912 ≤ (mq 3 1024
      536870912 []).address ∧ (mq 3 1024 536870912 []).address + (mq 3 1024 536870912 []).count ≤ usableEnd (att r0) ∧ mgmtFormOk 3 (mq
      3 1024 536870912 []) = true ∧ poisonedIn (mq 3 1024 536870912 []).address (mq 3 1024 536870912 []).count (att r0) = []) ∧
    ((att r0).power.state = PowerState.on ∧ (att r0).boot.phase ≠ (0 : BitVec 4) ∧ mgmtAllowed (mq 4 4 536870912 [(1 : Byte), 2, 3, 4])
      (att r0) = true ∧ keptMgmt (mq 4 4 536870912 [(1 : Byte), 2, 3, 4]) (att r0) = none ∧ (att r0).mgmt.attached = some (mq 4 4
      536870912 [(1 : Byte), 2, 3, 4]).src ∧ (mq 4 4 536870912 [(1 : Byte), 2, 3, 4]).count % 4 = 0 ∧ 4 ≤ (mq 4 4 536870912 [(1 : Byte),
      2, 3, 4]).count ∧ (mq 4 4 536870912 [(1 : Byte), 2, 3, 4]).count ≤ 1024 ∧ 536870912 ≤ (mq 4 4 536870912 [(1 : Byte), 2, 3,
      4]).address ∧ (mq 4 4 536870912 [(1 : Byte), 2, 3, 4]).address + (mq 4 4 536870912 [(1 : Byte), 2, 3, 4]).count ≤ usableEnd (att
      r0) ∧ mgmtFormOk 4 (mq 4 4 536870912 [(1 : Byte), 2, 3, 4]) = true ∧ (mq 4 4 536870912 [(1 : Byte), 2, 3, 4]).data.length = (mq 4
      4 536870912 [(1 : Byte), 2, 3, 4]).count) ∧
    (r0.power.state = PowerState.on ∧ r0.boot.phase ≠ (0 : BitVec 4) ∧ mgmtAllowed (mq 5 0 0 []) r0 = true ∧ keptMgmt (mq 5 0 0 []) r0 =
      none ∧ mgmtFormOk 5 (mq 5 0 0 []) = true ∧ (r0.mgmt.attached = none ∨ r0.mgmt.attached = some (mq 5 0 0 []).src)) ∧
    (w08_5.power.state = PowerState.on ∧ w08_5.boot.phase ≠ (0 : BitVec 4) ∧ mgmtAllowed (mq 5 0 0 []) w08_5 = true ∧ keptMgmt (mq 5 0 0
      []) w08_5 = none ∧ mgmtFormOk 5 (mq 5 0 0 []) = true ∧ w08_5.mgmt.attached = some 2 ∧ 2 ≠ (mq 5 0 0 []).src ∧ w08_5.mgmt.hostLost
      = false) ∧
    (w08_6.power.state = PowerState.on ∧ w08_6.boot.phase ≠ (0 : BitVec 4) ∧ mgmtAllowed (mq 5 0 0 []) w08_6 = true ∧ keptMgmt (mq 5 0 0
      []) w08_6 = none ∧ mgmtFormOk 5 (mq 5 0 0 []) = true ∧ w08_6.mgmt.attached = some 2 ∧ 2 ≠ (mq 5 0 0 []).src ∧ w08_6.mgmt.hostLost
      = true) ∧
    (w08_7.power.state = PowerState.on ∧ w08_7.boot.phase ≠ (0 : BitVec 4) ∧ w08_7.mgmt.attached = some 2 ∧ w08_7.mgmt.notify ≠ (0 :
      BitVec 64) ∧ (∀ (last : Ns), w08_7.mgmt.lastNotify = some last → w08_7.mgmt.fresh = true ∧ last + 10000 ≤ max w08_7.now 10005 ∨
      last + 100000000 ≤ max w08_7.now 10005)) ∧
    (w08_8.power.state = PowerState.on ∧ w08_8.boot.phase ≠ (0 : BitVec 4) ∧ w08_8.mgmt.attached = some 2 ∧ w08_8.mgmt.notify ≠ (0 :
      BitVec 64) ∧ (∀ (last : Ns), w08_8.mgmt.lastNotify = some last → w08_8.mgmt.fresh = true ∧ last + 10000 ≤ max w08_8.now 100000005
      ∨ last + 100000000 ≤ max w08_8.now 100000005)) :=
  ⟨by decide +kernel,
   by decide +kernel,
   by decide +kernel,
   by decide +kernel,
   by decide +kernel,
   by decide +kernel,
   by decide +kernel,
   by decide +kernel,
   by decide +kernel,
   by decide +kernel,
   by decide +kernel,
   by decide +kernel,
   by decide +kernel,
   by decide +kernel,
   by decide +kernel,
   by decide +kernel,
   by decide +kernel,
   by decide +kernel⟩

theorem witness_FetchCollectAndStall :
    (512 ≤ w08_9.hostq.outstanding.length) ∧
    (r0.hostq.outstanding.length < 512 ∧ fetchRing (passTo 5 r0) = none) ∧
    (fetchSt.hostq.outstanding.length < 512 ∧ (63 = fetchSt.hostq.rrRing ∧ 4 = fetchSt.hostq.rrTaken + 1 ∧ fetchSt.hostq.rrTaken < 4 ∧
      mayFetch fetchSt 63 = true ∨ 4 = 1 ∧ (4 ≤ fetchSt.hostq.rrTaken ∨ mayFetch fetchSt fetchSt.hostq.rrRing = false) ∧ List.find? (fun
      r => mayFetch fetchSt r) (List.map (fun k => (fetchSt.hostq.rrRing + 1 + k) % 64) (List.range 64)) = some 63) ∧ poisonIn ((cmdRing
      fetchSt 63).base.toNat + 64 * v08_12) 64 fetchSt = none ∧ decodeDescriptor 63 v08_12 (cmdRing fetchSt 63).fetched v08_13 = some
      w08_10 ∧ profileInForce fetchSt = true) ∧
    ((memPut 536871171 [(1 : Byte)] fetchSt).hostq.outstanding.length < 512 ∧ (63 = (memPut 536871171 [(1 : Byte)] fetchSt).hostq.rrRing
      ∧ 4 = (memPut 536871171 [(1 : Byte)] fetchSt).hostq.rrTaken + 1 ∧ (memPut 536871171 [(1 : Byte)] fetchSt).hostq.rrTaken < 4 ∧
      mayFetch (memPut 536871171 [(1 : Byte)] fetchSt) 63 = true ∨ 4 = 1 ∧ (4 ≤ (memPut 536871171 [(1 : Byte)] fetchSt).hostq.rrTaken ∨
      mayFetch (memPut 536871171 [(1 : Byte)] fetchSt) (memPut 536871171 [(1 : Byte)] fetchSt).hostq.rrRing = false) ∧ List.find? (fun r
      => mayFetch (memPut 536871171 [(1 : Byte)] fetchSt) r) (List.map (fun k => ((memPut 536871171 [(1 : Byte)] fetchSt).hostq.rrRing +
      1 + k) % 64) (List.range 64)) = some 63) ∧ poisonIn ((cmdRing (memPut 536871171 [(1 : Byte)] fetchSt) 63).base.toNat + 64 *
      v08_15) 64 (memPut 536871171 [(1 : Byte)] fetchSt) = none ∧ decodeDescriptor 63 v08_15 (cmdRing (memPut 536871171 [(1 : Byte)]
      fetchSt) 63).fetched v08_16 = none) ∧
    (fetchSt2.hostq.outstanding.length < 512 ∧ (0 = fetchSt2.hostq.rrRing ∧ 1 = fetchSt2.hostq.rrTaken + 1 ∧ fetchSt2.hostq.rrTaken < 4
      ∧ mayFetch fetchSt2 0 = true ∨ 1 = 1 ∧ (4 ≤ fetchSt2.hostq.rrTaken ∨ mayFetch fetchSt2 fetchSt2.hostq.rrRing = false) ∧ List.find?
      (fun r => mayFetch fetchSt2 r) (List.map (fun k => (fetchSt2.hostq.rrRing + 1 + k) % 64) (List.range 64)) = some 0) ∧ poisonIn
      ((cmdRing fetchSt2 0).base.toNat + 64 * v08_18) 64 fetchSt2 = none ∧ decodeDescriptor 0 v08_18 (cmdRing fetchSt2 0).fetched v08_19
      = some w08_11 ∧ profileInForce fetchSt2 = true) ∧
    (r0.hostq.slots = List.replicate 320 none) ∧
    (nextSlot r0 = none) ∧
    (nextSlot slotFull = some (0, endRecord tk0 0 0 0 r0)) ∧
    ((complRing fetchSt w08_12.tk.cq).enable = true ∧ w08_12.tk.hdr.irq = false ∧ (complRing fetchSt w08_12.tk.cq).intCount = (0 :
      BitVec 8)) ∧
    ((complRing cqT 15).first = some 5 ∧ (complRing cqT 15).intTime ≠ (0 : BitVec 16) ∧ 5 + 1000 * (complRing cqT 15).intTime.toNat ≤
      max cqT.now 10005) ∧
    ((cmdRing cqFull 63).stall = some 5 ∧ ringStalled cqFull 63 = true ∧ 5 + 100000000 < max cqFull.now 100000006) :=
  ⟨by decide +kernel,
   by decide +kernel,
   by decide +kernel,
   by decide +kernel,
   by decide +kernel,
   by decide +kernel,
   by decide +kernel,
   by decide +kernel,
   by decide +kernel,
   by decide +kernel,
   by decide +kernel⟩

theorem witness_HostLossPublicationAndEvents :
    (w08_13.mgmt.timer = some 5 ∧ w08_13.prof.system.hostLossMs ≠ 0 ∧ w08_13.mgmt.hostLost = false ∧ 5 + 1000000 *
      w08_13.prof.system.hostLossMs ≤ max w08_13.now 10000000005) ∧
    ((w08_14.prof.system.hostLossMs = 0 ∨ w08_14.mgmt.hostLost = true)) ∧
    (w08_15.hostq.pcieUp = true) ∧
    (w08_16.hostq.pcieUp = false ∧ w08_16.pins.perstN = true) ∧
    (w08_17.still.latched = some w08_18) ∧
    (eventFatal 40961 = false ∧ eventRoom evRing = true ∧ evRing.events.unreported = 0) ∧
    (eventFatal 40961 = false ∧ eventRoom r0 = false) ∧
    (eventFatal 0 = false ∧ (msixOf w08_19 63).masked = false ∧ w08_19.hostq.pcieUp = true ∧ w08_19.mgmt.attached = none) ∧
    (eventFatal 0 = false ∧ (msixOf (msx true r0) 63).masked = true) ∧
    (eventFatal 0 = false ∧ (msixOf (att (msx false r0)) 63).masked = false ∧ (att (msx false r0)).hostq.pcieUp = false ∧ (att (msx
      false r0)).mgmt.attached = some 1) :=
  ⟨by decide +kernel,
   by decide +kernel,
   by decide +kernel,
   by decide +kernel,
   by decide +kernel,
   by decide +kernel,
   by decide +kernel,
   by decide +kernel,
   by decide +kernel,
   by decide +kernel⟩

theorem witness_BasinBytes :
    (Mem.wf pois.basin.mem = true) ∧
    (Mem.wf pois.basin.mem = true ∧ (536870928 < 536870913 ∨ 536870913 + [(1 : Byte), 0, 3, 4, 5, 6, 7, 8, 9, 0, 1, 2, 3, 4, 5].length ≤
      536870928)) ∧
    (Mem.wf pois.basin.mem = true ∧ 67108864 ∈ v08_23.basin.poisoned) ∧
    (Mem.wf pois.basin.mem = true ∧ 67108866 ∈ v08_23.basin.poisoned) ∧
    (Mem.wf pois.basin.mem = true ∧ 65535 < 256 ^ 2) :=
  ⟨by decide +kernel,
   by decide +kernel,
   by decide +kernel,
   by decide +kernel,
   by decide +kernel⟩

theorem witness_PowerAndResetPins :
    (off0.power.state = PowerState.off ∧ off0.pins.resetN = true) ∧
    (w09_1.power.state = PowerState.off ∧ w09_1.pins.resetN = false) ∧
    (r0.power.state ≠ PowerState.off) ∧
    (hib0.power.state ≠ PowerState.off ∧ (hib0.power.state = PowerState.hibernate → true = true)) ∧
    (r0.power.state ≠ PowerState.off ∧ (r0.power.state = PowerState.hibernate → false = true)) ∧
    ((hib0.power.state = PowerState.off ∨ hib0.power.state = PowerState.hibernate ∧ false = false)) ∧
    (sby0.power.state ≠ PowerState.off ∧ sby0.power.state ≠ PowerState.hibernate) ∧
    ((hib0.power.state = PowerState.off ∨ hib0.power.state = PowerState.hibernate)) ∧
    (held0.power.state = PowerState.held ∧ held0.power.clkLost = false ∧ held0.hk.shutAt = none) ∧
    ((r0.power.state ≠ PowerState.held ∨ r0.power.clkLost = true ∨ r0.hk.shutAt ≠ none)) ∧
    ((r0.power.state = PowerState.on ∨ r0.power.state = PowerState.held ∧ r0.hk.shutAt = none)) ∧
    ((held0.power.state = PowerState.on ∨ held0.power.state = PowerState.held ∧ held0.hk.shutAt = none)) ∧
    ((sby0.power.state = PowerState.off ∨ sby0.power.state = PowerState.hibernate ∨ sby0.power.state = PowerState.standby)) ∧
    (w09_2.power.clkLost = true ∧ w09_2.power.state = PowerState.held ∧ w09_2.pins.resetN = true ∧ w09_2.hk.shutAt = none) ∧
    (w09_3.power.clkLost = true ∧ w09_3.power.state = PowerState.held ∧ (w09_3.pins.resetN = false ∨ w09_3.hk.shutAt ≠ none)) :=
  ⟨by decide +kernel,
   by decide +kernel,
   by decide +kernel,
   by decide +kernel,
   by decide +kernel,
   by decide +kernel,
   by decide +kernel,
   by decide +kernel,
   by decide +kernel,
   by decide +kernel,
   by decide +kernel,
   by decide +kernel,
   by decide +kernel,
   by decide +kernel,
   by decide +kernel⟩

theorem witness_RestartKeepsWhatItMust :
    (ResetKind.por ≠ ResetKind.firmware) ∧
    (ResetKind.standbyExit ≠ ResetKind.firmware ∧ (ResetKind.standbyExit = ResetKind.module ∨ ResetKind.standbyExit =
      ResetKind.standbyExit)) ∧
    (ResetKind.module ≠ ResetKind.firmware ∧ (ResetKind.module = ResetKind.module ∨ ResetKind.module = ResetKind.standbyExit)) ∧
    (ResetKind.wake ≠ ResetKind.firmware ∧ (ResetKind.wake = ResetKind.por ∨ ResetKind.wake = ResetKind.wake ∨ ResetKind.wake =
      ResetKind.pin)) ∧
    (ResetKind.pin ≠ ResetKind.firmware ∧ (ResetKind.pin = ResetKind.por ∨ ResetKind.pin = ResetKind.wake ∨ ResetKind.pin =
      ResetKind.pin)) ∧
    (ResetKind.module ≠ ResetKind.firmware ∧ ResetKind.module = ResetKind.module) ∧
    (ResetKind.standbyExit ≠ ResetKind.firmware ∧ ResetKind.standbyExit ≠ ResetKind.module) ∧
    (ResetKind.standbyExit ≠ ResetKind.firmware ∧ ResetKind.standbyExit = ResetKind.standbyExit) ∧
    (ResetKind.pin ≠ ResetKind.firmware) :=
  ⟨by decide +kernel,
   by decide +kernel,
   by decide +kernel,
   by decide +kernel,
   by decide +kernel,
   by decide +kernel,
   by decide +kernel,
   by decide +kernel,
   by decide +kernel⟩

theorem witness_BootRomSteps :
    ((train 1).power.state = PowerState.on ∧ (train 1).boot.phase = (1 : BitVec 4) ∧ (train 1).boot.trained = false ∧ (train
      1).boot.sensorWait = false) ∧
    ((train 1).power.state = PowerState.on ∧ (train 1).boot.phase = (1 : BitVec 4) ∧ (train 1).boot.trained = false ∧ (train
      1).boot.sensorWait = false ∧ (train 1).boot.trainTries < 2) ∧
    ((train 2).power.state = PowerState.on ∧ (train 2).boot.phase = (1 : BitVec 4) ∧ (train 2).boot.trained = false ∧ (train
      2).boot.sensorWait = false ∧ 2 ≤ (train 2).boot.trainTries) ∧
    ((train 2).power.state = PowerState.on ∧ (train 2).boot.alive = false ∧ (train 2).boot.ethLock = false) ∧
    ((waitImg (4096 : BitVec 26)).power.state = PowerState.on ∧ (waitImg (4096 : BitVec 26)).boot.phase = (2 : BitVec 4) ∧ 4096 ≤
      (waitImg (4096 : BitVec 26)).boot.ctrlLen.toNat ∧ (waitImg (4096 : BitVec 26)).boot.ctrlLen.toNat ≤ 50331648) ∧
    ((waitImg (50331648 : BitVec 26)).power.state = PowerState.on ∧ (waitImg (50331648 : BitVec 26)).boot.phase = (2 : BitVec 4) ∧ 4096
      ≤ (waitImg (50331648 : BitVec 26)).boot.ctrlLen.toNat ∧ (waitImg (50331648 : BitVec 26)).boot.ctrlLen.toNat ≤ 50331648) ∧
    ((waitImg (4095 : BitVec 26)).power.state = PowerState.on ∧ (waitImg (4095 : BitVec 26)).boot.phase = (2 : BitVec 4) ∧ ((waitImg
      (4095 : BitVec 26)).boot.ctrlLen.toNat < 4096 ∨ 50331648 < (waitImg (4095 : BitVec 26)).boot.ctrlLen.toNat)) ∧
    ((waitImg (50331649 : BitVec 26)).power.state = PowerState.on ∧ (waitImg (50331649 : BitVec 26)).boot.phase = (2 : BitVec 4) ∧
      ((waitImg (50331649 : BitVec 26)).boot.ctrlLen.toNat < 4096 ∨ 50331648 < (waitImg (50331649 : BitVec 26)).boot.ctrlLen.toNat)) ∧
    (r0.power.state = PowerState.on ∧ r0.boot.phase ≠ (2 : BitVec 4)) ∧
    (r0.power.state = PowerState.on) ∧
    (verify0.power.state = PowerState.on ∧ verify0.boot.phase = (3 : BitVec 4) ∧ imageChecks verify0.boot.goLen (passTo 5 verify0) ≠ 0 ∧
      imageChecks verify0.boot.goLen (passTo 5 verify0) ≠ 8) ∧
    (w09_4.power.state = PowerState.on ∧ w09_4.boot.phase = (4 : BitVec 4) ∧ w09_4.boot.coresAt + 1000000000 ≤ max w09_4.now 1000000005) ∧
    (r0.power.state = PowerState.on ∧ r0.boot.phase ≠ (4 : BitVec 4)) :=
  ⟨by decide +kernel,
   by decide +kernel,
   by decide +kernel,
   by decide +kernel,
   by decide +kernel,
   by decide +kernel,
   by decide +kernel,
   by decide +kernel,
   by decide +kernel,
   by decide +kernel,
   by decide +kernel,
   by decide +kernel,
   by decide +kernel⟩

theorem witness_FirstImageCheckThatFails :
    (((poisonIn 0 512 w09_5).isSome = true ∨ (poisonIn (736 - 160) 160 w09_5).isSome = true)) ∧
    (poisonIn 0 512 State.reset = none ∧ poisonIn (736 - 160) 160 State.reset = none ∧ poisonIn 0 736 State.reset = none ∧ imageFormatOk
      736 (memRead 0 512 State.reset) (memRead (736 - 160) 160 State.reset) = false) ∧
    (poisonIn 0 512 w09_6 = none ∧ poisonIn (736 - 160) 160 w09_6 = none ∧ poisonIn 0 736 w09_6 = none ∧ imageFormatOk 736 (memRead 0
      512 w09_6) (memRead (736 - 160) 160 w09_6) = true ∧ ((field (memRead 0 512 w09_6) 20 4).testBit w09_6.variant.code = false ∨
      w09_6.ident.dieStep.toNat < field (memRead 0 512 w09_6) 24 4)) ∧
    (poisonIn 0 512 (memPut 580 [(4 : Byte)] fwMem) = none ∧ poisonIn (736 - 160) 160 (memPut 580 [(4 : Byte)] fwMem) = none ∧ poisonIn
      0 736 (memPut 580 [(4 : Byte)] fwMem) = none ∧ imageFormatOk 736 (memRead 0 512 (memPut 580 [(4 : Byte)] fwMem)) v09_1 = true ∧
      (¬((field (memRead 0 512 (memPut 580 [(4 : Byte)] fwMem)) 20 4).testBit (memPut 580 [(4 : Byte)] fwMem).variant.code = false ∨
      (memPut 580 [(4 : Byte)] fwMem).ident.dieStep.toNat < field (memRead 0 512 (memPut 580 [(4 : Byte)] fwMem)) 24 4)) ∧ (3 < field
      v09_1 4 1 ∨ (memPut 580 [(4 : Byte)] fwMem).ident.otp.keysRevoked.getLsbD (field v09_1 4 1) = true)) ∧
    (poisonIn 0 512 (memPut 530 [(9 : Byte)] fwMem) = none ∧ poisonIn (736 - 160) 160 (memPut 530 [(9 : Byte)] fwMem) = none ∧ poisonIn
      0 736 (memPut 530 [(9 : Byte)] fwMem) = none ∧ imageFormatOk 736 (memRead 0 512 (memPut 530 [(9 : Byte)] fwMem)) v09_2 = true ∧
      (¬((field (memRead 0 512 (memPut 530 [(9 : Byte)] fwMem)) 20 4).testBit (memPut 530 [(9 : Byte)] fwMem).variant.code = false ∨
      (memPut 530 [(9 : Byte)] fwMem).ident.dieStep.toNat < field (memRead 0 512 (memPut 530 [(9 : Byte)] fwMem)) 24 4)) ∧ (¬(3 < field
      v09_2 4 1 ∨ (memPut 530 [(9 : Byte)] fwMem).ident.otp.keysRevoked.getLsbD (field v09_2 4 1) = true)) ∧ sha384 (memRead 0 (736 -
      160) (memPut 530 [(9 : Byte)] fwMem)) ≠ List.take 48 (List.drop 16 v09_2)) ∧
    ((ecdsaVerify p384 (Config.eohusKey (field v09_4 4 1)).1 (Config.eohusKey (field v09_4 4 1)).2 (List.take 48 (List.drop 16 v09_4))
      (beNat (List.take 48 (List.drop 64 v09_4))) (beNat (List.take 48 (List.drop 112 v09_4))) = false) ∧ poisonIn 0 512 (memPut 640
      (List.replicate 48 (0 : Byte)) fwMem) = none ∧ poisonIn (736 - 160) 160 (memPut 640 (List.replicate 48 (0 : Byte)) fwMem) = none ∧
      poisonIn 0 736 (memPut 640 (List.replicate 48 (0 : Byte)) fwMem) = none ∧ imageFormatOk 736 v09_3 v09_4 = true ∧ (¬((field v09_3
      20 4).testBit (memPut 640 (List.replicate 48 (0 : Byte)) fwMem).variant.code = false ∨ (memPut 640 (List.replicate 48 (0 : Byte))
      fwMem).ident.dieStep.toNat < field v09_3 24 4)) ∧ (¬(3 < field v09_4 4 1 ∨ (memPut 640 (List.replicate 48 (0 : Byte))
      fwMem).ident.otp.keysRevoked.getLsbD (field v09_4 4 1) = true)) ∧ (¬sha384 (memRead 0 (736 - 160) (memPut 640 (List.replicate 48
      (0 : Byte)) fwMem)) ≠ List.take 48 (List.drop 16 v09_4))) :=
  ⟨by decide +kernel,
   by decide +kernel,
   by decide +kernel,
   by decide +kernel,
   by decide +kernel,
   ⟨ecdsa_zero (by decide +kernel), by decide +kernel⟩⟩

theorem witness_BootFrames :
    (boot0.power.state = PowerState.on ∧ boot0.boot.phase ≠ (0 : BitVec 4) ∧ mgmtAllowed (bq 16 0 0 []) boot0 = true ∧ keptBoot (bq 16 0
      0 []) boot0 = none ∧ mgmtFormOk 16 (bq 16 0 0 []) = true) ∧
    (boot0.power.state = PowerState.on ∧ boot0.boot.phase ≠ (0 : BitVec 4) ∧ mgmtAllowed (bq 19 0 0 []) boot0 = true ∧ keptBoot (bq 19 0
      0 []) boot0 = none ∧ mgmtFormOk 19 (bq 19 0 0 []) = true) ∧
    (r0.power.state = PowerState.on ∧ r0.boot.phase ≠ (0 : BitVec 4) ∧ mgmtAllowed (bq 17 4 0 [(1 : Byte), 2, 3, 4]) r0 = true ∧
      keptBoot (bq 17 4 0 [(1 : Byte), 2, 3, 4]) r0 = none ∧ r0.boot.alive = true ∧ mgmtAllowed (bq 17 4 0 [(1 : Byte), 2, 3, 4])
      (passTo 5 r0) = true ∧ mgmtFormOk 17 (bq 17 4 0 [(1 : Byte), 2, 3, 4]) = true) ∧
    (r0.power.state = PowerState.on ∧ r0.boot.phase ≠ (0 : BitVec 4) ∧ mgmtAllowed (bq 18 8 0 (natLE 8 4096)) r0 = true ∧ keptBoot (bq
      18 8 0 (natLE 8 4096)) r0 = none ∧ r0.boot.alive = true ∧ mgmtAllowed (bq 18 8 0 (natLE 8 4096)) (passTo 5 r0) = true ∧ mgmtFormOk
      18 (bq 18 8 0 (natLE 8 4096)) = true) ∧
    (boot2.power.state = PowerState.on ∧ boot2.boot.phase ≠ (0 : BitVec 4) ∧ mgmtAllowed (bq 17 4 0 [(1 : Byte), 2, 3, 4]) boot2 = true
      ∧ keptBoot (bq 17 4 0 [(1 : Byte), 2, 3, 4]) boot2 = none ∧ boot2.boot.alive = false ∧ boot2.boot.phase = (2 : BitVec 4) ∧
      mgmtAllowed (bq 17 4 0 [(1 : Byte), 2, 3, 4]) (passTo 1000000004 boot2) = true ∧ boot2.boot.session = some (2, 5) ∧ 2 ≠ (bq 17 4 0
      [(1 : Byte), 2, 3, 4]).src ∧ max boot2.now 1000000004 < 5 + 1000000000 ∧ mgmtFormOk 17 (bq 17 4 0 [(1 : Byte), 2, 3, 4]) = true) ∧
    (boot2.power.state = PowerState.on ∧ boot2.boot.phase ≠ (0 : BitVec 4) ∧ mgmtAllowed (bq 18 8 0 (natLE 8 4096)) boot2 = true ∧
      keptBoot (bq 18 8 0 (natLE 8 4096)) boot2 = none ∧ boot2.boot.alive = false ∧ boot2.boot.phase = (2 : BitVec 4) ∧ mgmtAllowed (bq
      18 8 0 (natLE 8 4096)) (passTo 1000000004 boot2) = true ∧ boot2.boot.session = some (2, 5) ∧ 2 ≠ (bq 18 8 0 (natLE 8 4096)).src ∧
      max boot2.now 1000000004 < 5 + 1000000000 ∧ mgmtFormOk 18 (bq 18 8 0 (natLE 8 4096)) = true) ∧
    ((boot0.boot.session = none ∨ ∃ src t0, boot0.boot.session = some (src, t0) ∧ (src = (bq 17 4 50331644 [(1 : Byte), 2, 3, 4]).src ∨
      t0 + 1000000000 ≤ max boot0.now 5)) ∧ boot0.power.state = PowerState.on ∧ boot0.boot.phase ≠ (0 : BitVec 4) ∧ mgmtAllowed (bq 17 4
      50331644 [(1 : Byte), 2, 3, 4]) boot0 = true ∧ keptBoot (bq 17 4 50331644 [(1 : Byte), 2, 3, 4]) boot0 = none ∧ boot0.boot.alive =
      false ∧ boot0.boot.phase = (2 : BitVec 4) ∧ mgmtAllowed (bq 17 4 50331644 [(1 : Byte), 2, 3, 4]) (passTo 5 boot0) = true ∧
      mgmtFormOk 17 (bq 17 4 50331644 [(1 : Byte), 2, 3, 4]) = true ∧ (bq 17 4 50331644 [(1 : Byte), 2, 3, 4]).count % 4 = 0 ∧ 4 ≤ (bq
      17 4 50331644 [(1 : Byte), 2, 3, 4]).count ∧ (bq 17 4 50331644 [(1 : Byte), 2, 3, 4]).count ≤ 1024 ∧ (bq 17 4 50331644 [(1 :
      Byte), 2, 3, 4]).data.length = (bq 17 4 50331644 [(1 : Byte), 2, 3, 4]).count ∧ (bq 17 4 50331644 [(1 : Byte), 2, 3, 4]).address %
      4 = 0 ∧ (bq 17 4 50331644 [(1 : Byte), 2, 3, 4]).address + (bq 17 4 50331644 [(1 : Byte), 2, 3, 4]).count ≤ 50331648) ∧
    ((boot0.boot.session = none ∨ ∃ src t0, boot0.boot.session = some (src, t0) ∧ (src = (bq 17 4 50331648 [(1 : Byte), 2, 3, 4]).src ∨
      t0 + 1000000000 ≤ max boot0.now 5)) ∧ boot0.power.state = PowerState.on ∧ boot0.boot.phase ≠ (0 : BitVec 4) ∧ mgmtAllowed (bq 17 4
      50331648 [(1 : Byte), 2, 3, 4]) boot0 = true ∧ keptBoot (bq 17 4 50331648 [(1 : Byte), 2, 3, 4]) boot0 = none ∧ boot0.boot.alive =
      false ∧ boot0.boot.phase = (2 : BitVec 4) ∧ mgmtAllowed (bq 17 4 50331648 [(1 : Byte), 2, 3, 4]) (passTo 5 boot0) = true ∧
      mgmtFormOk 17 (bq 17 4 50331648 [(1 : Byte), 2, 3, 4]) = true ∧ (bq 17 4 50331648 [(1 : Byte), 2, 3, 4]).count % 4 = 0 ∧ 4 ≤ (bq
      17 4 50331648 [(1 : Byte), 2, 3, 4]).count ∧ (bq 17 4 50331648 [(1 : Byte), 2, 3, 4]).count ≤ 1024 ∧ (bq 17 4 50331648 [(1 :
      Byte), 2, 3, 4]).data.length = (bq 17 4 50331648 [(1 : Byte), 2, 3, 4]).count ∧ (bq 17 4 50331648 [(1 : Byte), 2, 3, 4]).address %
      4 = 0 ∧ 50331648 < (bq 17 4 50331648 [(1 : Byte), 2, 3, 4]).address + (bq 17 4 50331648 [(1 : Byte), 2, 3, 4]).count) ∧
    ((boot0.boot.session = none ∨ ∃ src t0, boot0.boot.session = some (src, t0) ∧ (src = (bq 18 8 0 (natLE 8 4096)).src ∨ t0 +
      1000000000 ≤ max boot0.now 5)) ∧ boot0.power.state = PowerState.on ∧ boot0.boot.phase ≠ (0 : BitVec 4) ∧ mgmtAllowed (bq 18 8 0
      (natLE 8 4096)) boot0 = true ∧ keptBoot (bq 18 8 0 (natLE 8 4096)) boot0 = none ∧ boot0.boot.alive = false ∧ boot0.boot.phase = (2
      : BitVec 4) ∧ mgmtAllowed (bq 18 8 0 (natLE 8 4096)) (passTo 5 boot0) = true ∧ mgmtFormOk 18 (bq 18 8 0 (natLE 8 4096)) = true ∧
      (bq 18 8 0 (natLE 8 4096)).count = 8 ∧ (bq 18 8 0 (natLE 8 4096)).data.length = 8 ∧ 4096 ≤ field (bq 18 8 0 (natLE 8 4096)).data 0
      8 ∧ field (bq 18 8 0 (natLE 8 4096)).data 0 8 ≤ 50331648) ∧
    ((boot0.boot.session = none ∨ ∃ src t0, boot0.boot.session = some (src, t0) ∧ (src = (bq 18 8 0 (natLE 8 50331649)).src ∨ t0 +
      1000000000 ≤ max boot0.now 5)) ∧ boot0.power.state = PowerState.on ∧ boot0.boot.phase ≠ (0 : BitVec 4) ∧ mgmtAllowed (bq 18 8 0
      (natLE 8 50331649)) boot0 = true ∧ keptBoot (bq 18 8 0 (natLE 8 50331649)) boot0 = none ∧ boot0.boot.alive = false ∧
      boot0.boot.phase = (2 : BitVec 4) ∧ mgmtAllowed (bq 18 8 0 (natLE 8 50331649)) (passTo 5 boot0) = true ∧ mgmtFormOk 18 (bq 18 8 0
      (natLE 8 50331649)) = true ∧ (bq 18 8 0 (natLE 8 50331649)).count = 8 ∧ (bq 18 8 0 (natLE 8 50331649)).data.length = 8 ∧ (field
      (bq 18 8 0 (natLE 8 50331649)).data 0 8 < 4096 ∨ 50331648 < field (bq 18 8 0 (natLE 8 50331649)).data 0 8)) ∧
    (boot0.power.state = PowerState.on ∧ boot0.boot.phase ≠ (0 : BitVec 4) ∧ mgmtFormOk 16 (bq 1 8 0 (natLE 8 50331649)) = false) ∧
    (boot0.power.state = PowerState.on ∧ boot0.boot.phase ≠ (0 : BitVec 4) ∧ mgmtFormOk 19 (bq 1 8 0 (natLE 8 50331649)) = false) ∧
    (boot2.power.state = PowerState.on ∧ boot2.boot.phase ≠ (0 : BitVec 4) ∧ boot2.boot.session = some (2, 5) ∧ 5 + 1000000000 ≤ max
      boot2.now 1000000005) :=
  ⟨by decide +kernel,
   by decide +kernel,
   by decide +kernel,
   by decide +kernel,
   by decide +kernel,
   by decide +kernel,
   ⟨.inl (by decide +kernel), by decide +kernel⟩,
   ⟨.inl (by decide +kernel), by decide +kernel⟩,
   ⟨.inl (by decide +kernel), by decide +kernel⟩,
   ⟨.inl (by decide +kernel), by decide +kernel⟩,
   by decide +kernel,
   by decide +kernel,
   by decide +kernel⟩

theorem witness_FromTheCoresToReady :
    (w09_7.power.state = PowerState.on ∧ w09_7.boot.alive = false ∧ w09_7.boot.phase = (4 : BitVec 4) ∧ profileInForce w09_7 = false ∧ 1
      < w09_7.power.lastKind.toNat) ∧
    (w09_8.power.state = PowerState.on ∧ w09_8.boot.alive = false ∧ w09_8.boot.phase = (4 : BitVec 4) ∧ profileInForce w09_8 = false ∧
      w09_8.power.lastKind.toNat ≤ 1) ∧
    (fl6.power.state = PowerState.on ∧ fl6.boot.alive = false ∧ 4 ≤ fl6.boot.phase.toNat ∧ fl6.boot.phase ≠ (11 : BitVec 4) ∧ coresWait
      (passTo 5 fl6) = true) ∧
    (w09_9.power.state = PowerState.on ∧ w09_9.boot.alive = true ∧ w09_9.boot.phase = (5 : BitVec 4) ∧ profileInForce w09_9 = false ∧
      (selectCopy (passTo 5 w09_9)).use ≠ 0) ∧
    (fl.power.state = PowerState.on ∧ fl.boot.alive = true ∧ fl.boot.phase = (5 : BitVec 4) ∧ profileInForce fl = false ∧ (selectCopy
      (passTo 5 fl)).use = 0) ∧
    (w09_10.power.state = PowerState.on ∧ w09_10.boot.alive = true ∧ w09_10.boot.phase = (6 : BitVec 4) ∧ profileInForce w09_10 = true ∧
      partnersAbsent w09_10 = 0) ∧
    (part0.power.state = PowerState.on ∧ part0.boot.alive = true ∧ part0.boot.phase = (6 : BitVec 4) ∧ profileInForce part0 = true ∧ 0 <
      partnersAbsent part0 ∧ part0.boot.profileAt + 1000000000 * part0.prof.machine.partnerWaitS ≤ max part0.now 10000000005) ∧
    (part0.power.state = PowerState.on ∧ part0.boot.alive = true ∧ part0.boot.phase = (6 : BitVec 4) ∧ profileInForce part0 = true ∧ 0 <
      partnersAbsent part0 ∧ max part0.now 10000000004 < part0.boot.profileAt + 1000000000 * part0.prof.machine.partnerWaitS) ∧
    (w09_11.power.state = PowerState.on ∧ w09_11.boot.readyLocal = false ∧ readyNow (passTo 5 w09_11) = true ∧ (w09_11.boot.startMs ≠ (0
      : BitVec 32) ∧ (9 : Word) = w09_11.boot.startMs ∨ w09_11.boot.startMs = (0 : BitVec 32) ∧ BitVec.toNat (9 : Word) = min 4294967295
      ((max w09_11.now 5 - w09_11.boot.porAt) / 1000000))) ∧
    (w09_12.power.state = PowerState.on ∧ w09_12.boot.readyLocal = false ∧ readyNow (passTo 5000000 w09_12) = true ∧
      (w09_12.boot.startMs ≠ (0 : BitVec 32) ∧ (5 : Word) = w09_12.boot.startMs ∨ w09_12.boot.startMs = (0 : BitVec 32) ∧ BitVec.toNat
      (5 : Word) = min 4294967295 ((max w09_12.now 5000000 - w09_12.boot.porAt) / 1000000))) ∧
    (r0.power.state = PowerState.on ∧ (r0.boot.readyLocal = true ∨ readyNow (passTo 5 r0) = false)) ∧
    (r0.power.state = PowerState.on ∧ r0.boot.alive = true) ∧
    (r0.power.state = PowerState.on ∧ ownIp r0 = some ((ownIp r0).getD 0)) ∧
    (r0.power.state = PowerState.on ∧ ownIp r0 ≠ some 0) :=
  ⟨by decide +kernel,
   by decide +kernel,
   by decide +kernel,
   by decide +kernel,
   by decide +kernel,
   by decide +kernel,
   by decide +kernel,
   by decide +kernel,
   by decide +kernel,
   by decide +kernel,
   by decide +kernel,
   by decide +kernel,
   by decide +kernel,
   by decide +kernel⟩

theorem witness_ResetCommandsAndCrossings :
    (r0.power.state = PowerState.on ∧ (21074 : BitVec 16) ≠ (21075 : BitVec 16)) ∧
    (w09_13.power.state = PowerState.on ∧ blockUnitOk w09_13.power.blkKind.toNat w09_13.power.blkIndex.toNat w09_13 = false) ∧
    (w09_14.power.state = PowerState.on ∧ resetUnderWay w09_14 = true) ∧
    (w09_14.power.state = PowerState.on ∧ resetUnderWay w09_14 = true ∧ blockUnitOk w09_14.power.blkKind.toNat
      w09_14.power.blkIndex.toNat w09_14 = true) ∧
    (b2.power.state = PowerState.on ∧ (jobExists b2 = true ∨ b2.profile.busy = true)) ∧
    (w09_15.power.state = PowerState.on ∧ resetUnderWay w09_15 = false ∧ w09_15.boot.phase ≠ (11 : BitVec 4)) ∧
    (w09_16.power.state = PowerState.on ∧ resetUnderWay w09_16 = false ∧ w09_16.boot.phase = (11 : BitVec 4)) ∧
    (w09_15.power.state = PowerState.on ∧ resetUnderWay w09_15 = false) ∧
    (w09_17.power.state = PowerState.on ∧ resetUnderWay w09_17 = false ∧ blockUnitOk w09_17.power.blkKind.toNat
      w09_17.power.blkIndex.toNat w09_17 = true) ∧
    (w09_15.power.state = PowerState.on ∧ resetUnderWay w09_15 = false ∧ jobExists w09_15 = false ∧ w09_15.profile.busy = false) ∧
    (r0.power.state = PowerState.on ∧ (r0.power.blockReset.contains (3, 0) = false ∨ 2 ≤ 3) ∧ List.find? (fun x => x.unit == (3, 0))
      r0.power.pulses = none) ∧
    (w09_18.power.state = PowerState.on ∧ (w09_18.power.blockReset.contains (4, 0) = false ∨ 2 ≤ 4) ∧ List.find? (fun x => x.unit == (4,
      0)) w09_18.power.pulses = none) ∧
    (r0.power.state = PowerState.on ∧ r0.power.blockReset.contains (0, 127) = false ∧ List.find? (fun x => x.unit == (0, 127))
      r0.power.pulses = none ∧ 0 < 255 ∧ 255 ≤ 255) ∧
    (w09_19.power.state = PowerState.on ∧ w09_19.power.blockReset.contains (0, 127) = false ∧ List.find? (fun x => x.unit == (0, 127))
      w09_19.power.pulses = none ∧ 255 < 256) ∧
    (w09_20.power.state = PowerState.on ∧ w09_20.power.downEpisode = true) ∧
    (r0.power.state = PowerState.on ∧ r0.power.downEpisode = false) :=
  ⟨by decide +kernel,
   by decide +kernel,
   by decide +kernel,
   by decide +kernel,
   by decide +kernel,
   by decide +kernel,
   by decide +kernel,
   by decide +kernel,
   by decide +kernel,
   by decide +kernel,
   by decide +kernel,
   by decide +kernel,
   by decide +kernel,
   by decide +kernel,
   by decide +kernel,
   by decide +kernel⟩

theorem witness_PowerStatesAndWaking :
    (w09_21.power.entry = (1 : BitVec 2)) ∧
    (w09_22.power.entry = (2 : BitVec 2)) ∧
    (r0.power.entry ≠ (1 : BitVec 2) ∧ r0.power.entry ≠ (2 : BitVec 2)) ∧
    (sbyA.power.state = PowerState.standby ∧ sbyA.power.armed = true) ∧
    (hibA.power.state = PowerState.hibernate ∧ hibA.power.entry = (0 : BitVec 2) ∧ hibA.power.armed = true) ∧
    (sby0.power.state = PowerState.standby ∧ sby0.power.armed = false ∧ sby0.power.earlyWake = none) ∧
    (w09_23.power.state = PowerState.standby ∧ w09_23.power.armed = false ∧ w09_23.pins.hibWake = false ∧ w09_23.power.earlyWake = some
      (3 : BitVec 3)) ∧
    (sby0.power.state = PowerState.standby ∧ sby0.power.armed = false ∧ sby0.pins.hibWake = false ∧ sby0.power.earlyWake = none) ∧
    (r0.power.state = PowerState.on ∧ r0.power.entry = (0 : BitVec 2)) ∧
    (w09_24.power.state = PowerState.on ∧ w09_24.power.entry = (0 : BitVec 2) ∧ 10 ≤ 10 ∧ w09_24.boot.alive = true ∧ w09_24.pins.hibWake
      = false ∧ w09_24.power.reqArmed = true ∧ jobExists w09_24 = false) ∧
    (w09_25.power.state = PowerState.on ∧ w09_25.power.entry = (0 : BitVec 2) ∧ 10 ≤ 999 ∧ w09_25.boot.alive = true ∧
      w09_25.pins.hibWake = false ∧ w09_25.power.reqArmed = true ∧ jobExists w09_25 = true ∧ 999 < 1000) ∧
    (w09_25.power.state = PowerState.on ∧ w09_25.power.entry = (0 : BitVec 2) ∧ 10 ≤ 1000 ∧ w09_25.boot.alive = true ∧
      w09_25.pins.hibWake = false ∧ w09_25.power.reqArmed = true ∧ jobExists w09_25 = true ∧ 1000 ≤ 1000 ∧ w09_25.jobs.line = false) ∧
    (w09_26.power.state = PowerState.on ∧ w09_26.power.entry = (0 : BitVec 2) ∧ 10 ≤ 1000 ∧ w09_26.boot.alive = true ∧
      w09_26.pins.hibWake = false ∧ w09_26.power.reqArmed = true ∧ jobExists w09_26 = true ∧ 1000 ≤ 1000 ∧ w09_26.jobs.line = true) ∧
    ((heldH.power.state = PowerState.standby ∨ heldH.power.state = PowerState.hibernate) ∧ heldH.power.armed = false ∧
      heldH.pins.hibWake = true ∧ (true = true ∨ heldH.power.earlyWake ≠ none)) ∧
    (hib0.power.state = PowerState.hibernate ∧ hib0.power.armed = false ∧ hib0.pins.hibWake = false ∧ hib0.power.earlyWake = none) :=
  ⟨by decide +kernel,
   by decide +kernel,
   by decide +kernel,
   by decide +kernel,
   by decide +kernel,
   by decide +kernel,
   by decide +kernel,
   by decide +kernel,
   by decide +kernel,
   by decide +kernel,
   by decide +kernel,
   by decide +kernel,
   by decide +kernel,
   by decide +kernel,
   by decide +kernel⟩

theorem witness_MachineMembers :
    (profileInForce r0 = true ∧ r0.boot.alive = true ∧ r0.power.state = PowerState.on) ∧
    (profileInForce mMach = true ∧ (w09_27.headerOk = false ∨ w09_27.machineId ≠ mMach.prof.machine.machineId.toNat)) ∧
    (profileInForce mMach = true ∧ w09_28.headerOk = true ∧ w09_28.machineId = mMach.prof.machine.machineId.toNat ∧ w09_28.moduleId =
      mMach.ident.moduleId.toNat ∧ w09_28.serial ≠ mMach.ident.otp.serial.toNat) ∧
    (profileInForce mMach = true ∧ w09_29.headerOk = true ∧ w09_29.machineId = mMach.prof.machine.machineId.toNat ∧ w09_29.moduleId ≠
      mMach.ident.moduleId.toNat ∧ w09_29.member = mMach.prof.machine.member) ∧
    (profileInForce mMach = true ∧ hel.headerOk = true ∧ hel.machineId = mMach.prof.machine.machineId.toNat ∧ hel.moduleId ≠
      mMach.ident.moduleId.toNat ∧ hel.member ≠ mMach.prof.machine.member ∧ (otherMembers mMach).contains hel.member = true) ∧
    (profileInForce mMach = true ∧ w09_28.headerOk = true ∧ w09_28.machineId = mMach.prof.machine.machineId.toNat ∧ w09_28.moduleId =
      mMach.ident.moduleId.toNat ∧ w09_28.serial ≠ mMach.ident.otp.serial.toNat ∧ jobExists mMach = false ∧ mMach.members.idConflict =
      false) ∧
    (profileInForce (heardM mMach) = true ∧ (memberOf (heardM mMach) 1).last = some 5 ∧ (memberOf (heardM mMach) 1).lost = false ∧
      (otherMembers (heardM mMach)).contains 1 = true ∧ max (heardM mMach).now 500000004 < 5 + 500000000) ∧
    (profileInForce (heardM mMach) = true ∧ (memberOf (heardM mMach) 1).last = some 5 ∧ (memberOf (heardM mMach) 1).lost = false ∧
      (otherMembers (heardM mMach)).contains 1 = true ∧ 5 + 500000000 ≤ max (heardM mMach).now 500000005 ∧ (v09_22.members.elected =
      false ∨ v09_22.members.leaderMember.toNat ≠ 1) ∧ (machineJob v09_22 = false ∨ isLeader v09_22 = false)) ∧
    (profileInForce (leadM (0 : BitVec 3)) = true ∧ (memberOf (leadM (0 : BitVec 3)) 1).last = some 5 ∧ (memberOf (leadM (0 : BitVec 3))
      1).lost = false ∧ (otherMembers (leadM (0 : BitVec 3))).contains 1 = true ∧ 5 + 500000000 ≤ max (leadM (0 : BitVec 3)).now
      500000005 ∧ (v09_25.members.elected = false ∨ v09_25.members.leaderMember.toNat ≠ 1) ∧ machineJob v09_25 = true ∧ isLeader v09_25
      = true) ∧
    (profileInForce (electd (leadN (heardM mMach))) = true ∧ (memberOf (electd (leadN (heardM mMach))) 1).last = some 5 ∧ (memberOf
      (electd (leadN (heardM mMach))) 1).lost = false ∧ (otherMembers (electd (leadN (heardM mMach)))).contains 1 = true ∧ 5 + 500000000
      ≤ max (electd (leadN (heardM mMach))).now 500000005 ∧ v09_28.members.elected = true ∧ v09_28.members.leaderMember.toNat = 1 ∧
      machineJob v09_29 = false) ∧
    (profileInForce (leadM (1 : BitVec 3)) = true ∧ (memberOf (leadM (1 : BitVec 3)) 1).last = some 5 ∧ (memberOf (leadM (1 : BitVec 3))
      1).lost = false ∧ (otherMembers (leadM (1 : BitVec 3))).contains 1 = true ∧ 5 + 500000000 ≤ max (leadM (1 : BitVec 3)).now
      500000005 ∧ v09_31.members.elected = true ∧ v09_31.members.leaderMember.toNat = 1 ∧ machineJob v09_32 = true) ∧
    (profileInForce (heardM mMach) = true ∧ led.valid = true ∧ (otherMembers (heardM mMach)).contains led.member = true ∧ inConflict
      (heardM mMach) = false ∧ leaderCounts led.member led.term (heardM mMach) = true) ∧
    (profileInForce (heardM mMach) = true ∧ led.valid = true ∧ (otherMembers (heardM mMach)).contains led.member = true ∧ inConflict
      (heardM mMach) = false ∧ (heardM mMach).members.elected = false) ∧
    (profileInForce w09_30 = true ∧ led.valid = true ∧ (otherMembers w09_30).contains led.member = true ∧ inConflict w09_30 = false ∧
      w09_30.members.elected = true ∧ machineJob w09_30 = true) ∧
    (profileInForce (electd (heardM mMach)) = true ∧ led.valid = true ∧ (otherMembers (electd (heardM mMach))).contains led.member =
      true ∧ inConflict (electd (heardM mMach)) = false ∧ (electd (heardM mMach)).members.elected = true ∧ machineJob (electd (heardM
      mMach)) = false) ∧
    (profileInForce w09_31 = true ∧ w09_31.boot.readyLocal = true ∧ inConflict w09_31 = false ∧ otherMembers w09_31 ≠ [] ∧ lowestSince
      w09_31 = some 5 ∧ 5 + 1000000000 ≤ max w09_31.now 1300000005 ∧ w09_31.members.elected = false ∧ membersSettled (passTo 1300000005
      w09_31) = true) :=
  ⟨by decide +kernel,
   by decide +kernel,
   by decide +kernel,
   by decide +kernel,
   by decide +kernel,
   by decide +kernel,
   by decide +kernel,
   by decide +kernel,
   by decide +kernel,
   by decide +kernel,
   by decide +kernel,
   by decide +kernel,
   by decide +kernel,
   by decide +kernel,
   by decide +kernel,
   by decide +kernel⟩

theorem witness_ProfileWriteAndReload :
    (State.reset.boot.alive = false) ∧
    (w10_1.boot.alive = true ∧ w10_1.profile.busy = true) ∧
    (w10_2.boot.alive = true ∧ w10_2.profile.busy = false ∧ (w10_2.profile.ctrlAddr.toNat % 4096 ≠ 0 ∨ w10_2.profile.ctrlLen.toNat < 256
      ∨ hostMem w10_2.profile.ctrlAddr.toNat w10_2.profile.ctrlLen.toNat w10_2 = false)) ∧
    (pIn.boot.alive = true ∧ pIn.profile.busy = false ∧ pIn.profile.ctrlAddr.toNat % 4096 = 0 ∧ 256 ≤ pIn.profile.ctrlLen.toNat ∧
      hostMem pIn.profile.ctrlAddr.toNat pIn.profile.ctrlLen.toNat pIn = true ∧ poisonIn pIn.profile.ctrlAddr.toNat
      pIn.profile.ctrlLen.toNat pIn = none ∧ (imageCheck (touchBasin pIn.profile.ctrlAddr.toNat pIn.profile.ctrlLen.toNat pIn) (memRead
      pIn.profile.ctrlAddr.toNat pIn.profile.ctrlLen.toNat pIn)).cause = 0 ∧ pIn.profile.generation.toNat < profGen (List.take 256
      (memRead pIn.profile.ctrlAddr.toNat pIn.profile.ctrlLen.toNat pIn)) ∧ pIn.profile.ctrlLen.toNat ≤ pIn.profile.memBytes / 2) ∧
    (b2.boot.alive = true ∧ b2.profile.busy = false ∧ jobExists b2 = true) ∧
    ((rip commit1).boot.alive = true ∧ (rip commit1).profile.busy = false ∧ jobExists (rip commit1) = false ∧ setsInCommit (rip commit1)
      ≠ (0 : BitVec 8)) ∧
    (r0.boot.alive = true ∧ r0.profile.busy = false ∧ jobExists r0 = false ∧ setsInCommit r0 = (0 : BitVec 8) ∧ (selectCopy r0).use = 0) ∧
    (w10_3.boot.alive = true ∧ w10_3.profile.busy = false ∧ jobExists w10_3 = false ∧ setsInCommit w10_3 = (0 : BitVec 8) ∧ (selectCopy
      w10_3).use ≠ 0 ∧ profileInForce (noteSelection (selectCopy w10_3) w10_3) = false) ∧
    (w10_4.boot.alive = true ∧ w10_4.profile.busy = false ∧ jobExists w10_4 = false ∧ setsInCommit w10_4 = (0 : BitVec 8) ∧ (selectCopy
      w10_4).use ≠ 0 ∧ profileInForce (noteSelection (selectCopy w10_4) w10_4) = true ∧ startDiffers (noteSelection (selectCopy w10_4)
      w10_4).prof (selectCopy w10_4).last.records = false) ∧
    (profTime.boot.alive = true ∧ profTime.profile.busy = false ∧ jobExists profTime = false ∧ setsInCommit profTime = (0 : BitVec 8) ∧
      (selectCopy profTime).use ≠ 0 ∧ profileInForce (noteSelection (selectCopy profTime) profTime) = true ∧ startDiffers (noteSelection
      (selectCopy profTime) profTime).prof (selectCopy profTime).last.records = true) ∧
    (w10_5.profile.writing = some (1, profImg) ∧ 1 = 1) ∧
    (w10_6.profile.writing = some (2, profImg) ∧ 2 = 2) ∧
    (r0.profile.writing = none) :=
  ⟨by decide +kernel,
   by decide +kernel,
   by decide +kernel,
   by decide +kernel,
   by decide +kernel,
   by decide +kernel,
   by decide +kernel,
   by decide +kernel,
   by decide +kernel,
   by decide +kernel,
   by decide +kernel,
   by decide +kernel,
   by decide +kernel⟩

theorem witness_AxisOpcodes :
    (Ready h0 (ax15 idle0) ∧ (ax15 idle0).power.safe = false ∧ (ax15 idle0).axes.axes.length = 16 ∧ 15 < 16 ∧ seqHolds (ax15 idle0) 15 =
      false ∧ ((axisOf (ax15 idle0) 15).state = AxisState.idle ∨ (axisOf (ax15 idle0) 15).state = AxisState.moving) ∧ (axisOf (ax15
      idle0) 15).pending = none ∧ (0 = 0 ∧ 2000 = tickAt ((ax15 idle0).now + 2000) ∨ 0 ≠ 0 ∧ false = true ∧ 2000 = max (tickAt ((ax15
      idle0).now + 2000)) (tickAt 0) ∨ 0 ≠ 0 ∧ false = false ∧ jobExists (ax15 idle0) = true ∧ ∃ tor, (ax15 idle0).jobs.tor = some tor ∧
      2000 = max (tickAt ((ax15 idle0).now + 2000)) (tickAt (tor + 0))) ∧ posMin (ax15 idle0) 15 ≤ v11_1 ∧ v11_1 ≤ posMax (ax15 idle0)
      15 ∧ limitsOk (ax15 idle0) 15 (effLimits (ax15 idle0) 15 { speed := 0, accel := 0, jerk := 0 }) = true) ∧
    (Ready h0 (ax15 idle0) ∧ (ax15 idle0).power.safe = false ∧ (ax15 idle0).axes.axes.length = 16 ∧ 15 < 16 ∧ seqHolds (ax15 idle0) 15 =
      false ∧ ((axisOf (ax15 idle0) 15).state = AxisState.idle ∨ (axisOf (ax15 idle0) 15).state = AxisState.moving) ∧ (axisOf (ax15
      idle0) 15).pending = none ∧ (90001 = 0 ∧ 90005 = tickAt ((ax15 idle0).now + 2000) ∨ 90001 ≠ 0 ∧ true = true ∧ 90005 = max (tickAt
      ((ax15 idle0).now + 2000)) (tickAt 90001) ∨ 90001 ≠ 0 ∧ true = false ∧ jobExists (ax15 idle0) = true ∧ ∃ tor, (ax15
      idle0).jobs.tor = some tor ∧ 90005 = max (tickAt ((ax15 idle0).now + 2000)) (tickAt (tor + 90001))) ∧ posMin (ax15 idle0) 15 ≤
      v11_2 ∧ v11_2 ≤ posMax (ax15 idle0) 15 ∧ limitsOk (ax15 idle0) 15 (effLimits (ax15 idle0) 15
      { speed := 10000, accel := 0, jerk := 0 }) = true) ∧
    (Ready h0 jobTor ∧ jobTor.power.safe = false ∧ jobTor.axes.axes.length = 16 ∧ 15 < 16 ∧ seqHolds jobTor 15 = false ∧ ((axisOf jobTor
      15).state = AxisState.idle ∨ (axisOf jobTor 15).state = AxisState.moving) ∧ (axisOf jobTor 15).pending = none ∧ (10000 = 0 ∧
      100000 = tickAt (jobTor.now + 2000) ∨ 10000 ≠ 0 ∧ false = true ∧ 100000 = max (tickAt (jobTor.now + 2000)) (tickAt 10000) ∨ 10000
      ≠ 0 ∧ false = false ∧ jobExists jobTor = true ∧ ∃ tor, jobTor.jobs.tor = some tor ∧ 100000 = max (tickAt (jobTor.now + 2000))
      (tickAt (tor + 10000))) ∧ posMin jobTor 15 ≤ v11_3 ∧ v11_3 ≤ posMax jobTor 15 ∧ limitsOk jobTor 15 (effLimits jobTor 15
      { speed := 10000, accel := 0, jerk := 0 }) = true) ∧
    (Ready h0 (ax15 idle0) ∧ (ax15 idle0).power.safe = false ∧ (ax15 idle0).axes.axes.length = 16 ∧ 15 < 16 ∧ seqHolds (ax15 idle0) 15 =
      false ∧ ((axisOf (ax15 idle0) 15).state = AxisState.idle ∨ (axisOf (ax15 idle0) 15).state = AxisState.moving) ∧ (axisOf (ax15
      idle0) 15).pending = none ∧ ((1001 : Int) < posMin (ax15 idle0) 15 ∨ posMax (ax15 idle0) 15 < (1001 : Int))) ∧
    (Ready h0 (ax15 idle0) ∧ (ax15 idle0).power.safe = false ∧ (ax15 idle0).axes.axes.length = 16 ∧ 15 < 16 ∧ seqHolds (ax15 idle0) 15 =
      false ∧ ((axisOf (ax15 idle0) 15).state = AxisState.idle ∨ (axisOf (ax15 idle0) 15).state = AxisState.moving) ∧ (axisOf (ax15
      idle0) 15).pending = none ∧ 0 < 1 ∧ jobExists (ax15 idle0) = false) ∧
    (Ready h0 w11_1 ∧ w11_1.power.safe = false ∧ w11_1.axes.axes.length = 16 ∧ 15 < 16 ∧ seqHolds w11_1 15 = false ∧ ((axisOf w11_1
      15).state = AxisState.idle ∨ (axisOf w11_1 15).state = AxisState.moving) ∧ (axisOf w11_1 15).pending ≠ none ∧ posMin w11_1 15 ≤ (0
      : Int) ∧ (0 : Int) ≤ posMax w11_1 15 ∧ limitsOk w11_1 15 (effLimits w11_1 15 { speed := 0, accel := 0, jerk := 0 }) = true) ∧
    (Ready h0 w11_2 ∧ w11_2.power.safe = false ∧ w11_2.axes.axes.length = 16 ∧ 15 < 16 ∧ (seqHolds w11_2 15 = true ∨ (axisOf w11_2
      15).state ≠ AxisState.idle ∧ (axisOf w11_2 15).state ≠ AxisState.moving)) ∧
    (Ready h0 (ax15 idle0) ∧ (ax15 idle0).power.safe = false ∧ (ax15 idle0).axes.axes.length = 16 ∧ 15 < 16 ∧ seqHolds (ax15 idle0) 15 =
      false ∧ (axisOf (ax15 idle0) 15).state = AxisState.idle ∧ (axisOf (ax15 idle0) 15).pending = none ∧ (axisOf (ax15 idle0)
      15).latched = none ∧ (0 = 0 ∧ 15 ≤ 15 ∨ 0 = 1 ∧ 15 ≤ 7) ∧ 0 < 10000 ∧ limitsOk (ax15 idle0) 15 (effLimits (ax15 idle0) 15
      { speed := 10000, accel := 0, jerk := 0 }) = true) ∧
    (Ready h0 (ax15 idle0) ∧ (ax15 idle0).power.safe = false ∧ (ax15 idle0).axes.axes.length = 16 ∧ 15 < 16 ∧ seqHolds (ax15 idle0) 15 =
      false ∧ (axisOf (ax15 idle0) 15).state = AxisState.idle ∧ (axisOf (ax15 idle0) 15).pending = none ∧ (axisOf (ax15 idle0)
      15).latched = none ∧ (1 = 0 ∧ 7 ≤ 15 ∨ 1 = 1 ∧ 7 ≤ 7) ∧ 0 < 10000 ∧ limitsOk (ax15 idle0) 15 (effLimits (ax15 idle0) 15
      { speed := 10000, accel := 0, jerk := 0 }) = true) ∧
    (Ready h0 w11_2 ∧ w11_2.power.safe = false ∧ w11_2.axes.axes.length = 16 ∧ 15 < 16 ∧ (seqHolds w11_2 15 = true ∨ (axisOf w11_2
      15).state ≠ AxisState.idle) ∧ 7 ≤ 7 ∧ 0 < 10000) ∧
    (Ready h0 ax15m ∧ ax15m.power.safe = false ∧ ax15m.axes.axes.length = 16 ∧ 15 < 16 ∧ (axisOf ax15m 15).plan.isSome = true ∧
      BitVec.getLsbD (0 : BitVec 16) 15 = false) ∧
    (Ready h0 (ax15 idle0) ∧ (ax15 idle0).power.safe = false ∧ (ax15 idle0).axes.axes.length = 16 ∧ 15 < 16 ∧ seqHolds (ax15 idle0) 15 =
      false ∧ ((axisOf (ax15 idle0) 15).state = AxisState.idle ∨ (axisOf (ax15 idle0) 15).state = AxisState.disabled)) ∧
    (Ready h0 (ax15 idle0) ∧ (ax15 idle0).axes.axes.length = 16 ∧ (∀ x ∈ (ax15 idle0).axes.axes, x.plan = none ∧ x.pending = none ∧
      x.latched = none) ∧ (∀ x ∈ (ax15 idle0).axes.script, x = ScriptState.skip) ∧ (ax15 idle0).axes.stops = [] ∧ 15 < 16) ∧
    (Ready h0 w11_3 ∧ w11_3.axes.axes.length = 16 ∧ (∀ x ∈ w11_3.axes.axes, x.plan = none ∧ x.pending = none ∧ x.latched = none) ∧ (∀ x
      ∈ w11_3.axes.script, x = ScriptState.skip) ∧ w11_3.axes.stops = [] ∧ 15 < 16) ∧
    (Ready h0 ax15m) ∧
    (Ready h0 ax15m ∧ 15 < 16 ∧ ax15m.axes.axes.length = 16 ∧ (axisOf ax15m 15).plan = some plan0) ∧
    (Ready h0 ax15m ∧ 15 < 16 ∧ ax15m.axes.axes.length = 16 ∧ (axisOf ax15m 15).plan = some plan0 ∧ 0 ≠ 15) ∧
    (Ready h0 ax15m ∧ (∀ a ∈ axesIn (32769 : BitVec 16), (axisOf ax15m a).plan ≠ none → BitVec.getLsbD (65535 : BitVec 16) a = true)) ∧
    (Ready h0 ax15m ∧ (∃ a ∈ axesIn (32769 : BitVec 16), (axisOf ax15m a).plan ≠ none ∧ BitVec.getLsbD (1 : BitVec 16) a = false)) ∧
    (Ready h0 (ax15 idle0) ∧ (∀ a < 16, BitVec.getLsbD (32769 : BitVec 16) a = true → (axisOf (ax15 idle0) a).plan = none ∧ (axisOf
      (ax15 idle0) a).latched = none) ∧ (ax15 idle0).axes.axes.length = 16) ∧
    (Ready h0 w11_4 ∧ 15 < 16 ∧ w11_4.axes.axes.length = 16 ∧ (32768 : BitVec 16) = BitVec.ofNat 16 (2 ^ 15) ∧ (axisOf w11_4 15).plan =
      some w11_5 ∧ w11_5.run = AxisRun.move ∧ axisPhase w11_4 15 = 3) ∧
    (Ready h0 mvGo ∧ 15 < 16 ∧ mvGo.axes.axes.length = 16 ∧ (32768 : BitVec 16) = BitVec.ofNat 16 (2 ^ 15) ∧ (axisOf mvGo 15).plan =
      some mvPlan ∧ (¬(mvPlan.run = AxisRun.move ∧ axisPhase mvGo 15 = 3)) ∧ (axisOf mvGo 15).latched = none ∧ replanAxis (accept h0 81
      mvGo) mvPlan (runLimits (accept h0 81 mvGo) 15 v11_7) = some w11_6) :=
  ⟨⟨ready_of (by decide +kernel), by decide +kernel⟩,
   ⟨ready_of (by decide +kernel), by decide +kernel⟩,
   ⟨ready_of (by decide +kernel), by decide +kernel⟩,
   ⟨ready_of (by decide +kernel), by decide +kernel⟩,
   ⟨ready_of (by decide +kernel), by decide +kernel⟩,
   ⟨ready_of (by decide +kernel), by decide +kernel⟩,
   ⟨ready_of (by decide +kernel), by decide +kernel⟩,
   ⟨ready_of (by decide +kernel), by decide +kernel⟩,
   ⟨ready_of (by decide +kernel), by decide +kernel⟩,
   ⟨ready_of (by decide +kernel), by decide +kernel⟩,
   ⟨ready_of (by decide +kernel), by decide +kernel⟩,
   ⟨ready_of (by decide +kernel), by decide +kernel⟩,
   ⟨ready_of (by decide +kernel), by decide +kernel⟩,
   ⟨ready_of (by decide +kernel), by decide +kernel⟩,
   ready_of (by decide +kernel),
   ⟨ready_of (by decide +kernel), by decide +kernel⟩,
   ⟨ready_of (by decide +kernel), by decide +kernel⟩,
   ⟨ready_of (by decide +kernel), by decide +kernel⟩,
   ⟨ready_of (by decide +kernel), by decide +kernel⟩,
   ⟨ready_of (by decide +kernel), by decide +kernel⟩,
   ⟨ready_of (by decide +kernel), by decide +kernel⟩,
   ⟨ready_of (by decide +kernel), by decide +kernel⟩⟩

theorem witness_AxisStepsAndFaults :
    (15 < 16 ∧ mvS.axes.axes.length = 16 ∧ (axisOf mvS 15).pending = some mv0 ∧ (axisOf mvS 15).plan = none ∧ (axisOf mvS 15).state =
      AxisState.idle ∧ (axisOf mvS 15).latched = none ∧ mv0.script = none ∧ mv0.target ≠ (axisOf mvS 15).pos ∧ max mvS.now 99 <
      mv0.launch) ∧
    ((axisProfile F64.zero F64.zero (F64.ofNat (mv0.target - (axisOf mvS 15).pos).natAbs) (effLimits mvS 15 mv0.limits) = some
      ((mvProf.getD ([], F64.zero, F64.zero)).1, (mvProf.getD ([], F64.zero, F64.zero)).2.1, (mvProf.getD ([], F64.zero,
      F64.zero)).2.2)) ∧ 15 < 16 ∧ mvS.axes.axes.length = 16 ∧ (axisOf mvS 15).pending = some mv0 ∧ (axisOf mvS 15).plan = none ∧
      (axisOf mvS 15).state = AxisState.idle ∧ (axisOf mvS 15).latched = none ∧ mv0.script = none ∧ mv0.target ≠ (axisOf mvS 15).pos ∧
      mv0.launch ≤ max mvS.now 100 ∧ (∀ y ∈ mvS.axes.script, y ≠ ScriptState.moving)) ∧
    (15 < 16 ∧ r0.axes.axes.length = 16 ∧ (axisOf r0 15).pending = none) ∧
    (15 < 16 ∧ mvS.axes.axes.length = 16 ∧ (axisOf mvS 15).pending = some mv0 ∧ (axisOf mvS 15).plan = none ∧ (axisOf mvS 15).state =
      AxisState.idle ∧ mv0.launch ≤ max mvS.now 100) ∧
    (15 < 16 ∧ movS.axes.axes.length = 16 ∧ nextStep movS 15 = some ((nextStep movS 15).getD 0) ∧ (axisOf movS 15).plan = some plan0 ∧
      (nextStep movS 15).getD 0 ≤ max movS.now 1000000 ∧ (plan0.run ≠ AxisRun.home ∨ plan0.done + 1 < plan0.total)) ∧
    (15 < 16 ∧ homS.axes.axes.length = 16 ∧ nextStep homS 15 = some ((nextStep homS 15).getD 0) ∧ (axisOf homS 15).plan = some w11_7 ∧
      (nextStep homS 15).getD 0 ≤ max homS.now 1000000 ∧ w11_7.run = AxisRun.home ∧ w11_7.total ≤ w11_7.done + 1) ∧
    (15 < 16 ∧ movS.axes.axes.length = 16 ∧ (axisOf movS 15).lastEdge = some 0 ∧ nextStep movS 15 = some ((nextStep movS 15).getD 0)) ∧
    (15 < 16 ∧ movS.axes.axes.length = 16 ∧ nextStep movS 15 = some ((nextStep movS 15).getD 0) ∧ (axisOf movS 15).plan = some plan0 ∧
      plan0.run = AxisRun.move ∧ plan0.done + 1 < plan0.total ∧ (nextStep movS 15).getD 0 ≤ max movS.now 1000000 ∧ (∀ y ∈
      movS.axes.script, y ≠ ScriptState.moving) ∧ axisFbEn movS 15 = false) ∧
    (15 < 16 ∧ w11_8.axes.axes.length = 16 ∧ (axisOf w11_8 15).feSince = some 5 ∧ max w11_8.now 100005 ≤ 5 + 100000) ∧
    (15 < 16 ∧ w11_8.axes.axes.length = 16 ∧ (axisOf w11_8 15).feSince = some 5 ∧ 5 + 100000 < max w11_8.now 100006) ∧
    (15 < 16 ∧ r0.axes.axes.length = 16 ∧ (axisOf r0 15).feSince = none) ∧
    (15 < 16 ∧ r0.axes.axes.length = 16 ∧ (r0.jobs.state ≠ (5 : BitVec 4) ∨ r0.axes.scriptStart = none ∨ unit r0.axes.script 3
      ScriptState.skip ≠ ScriptState.waiting)) ∧
    (15 < 16 ∧ w11_9.axes.axes.length = 16 ∧ w11_9.jobs.state = (5 : BitVec 4) ∧ w11_9.axes.scriptStart = some 5 ∧ unit
      w11_9.axes.script 3 ScriptState.skip = ScriptState.waiting ∧ 5 + 1000000 * cfgF w11_9 (scriptOff 3 0) 16 16 ≤ max w11_9.now
      2000005 ∧ afterEnded (passTo 2000005 w11_9) 3 = true ∧ cfgF w11_9 (scriptOff 3 0) 0 4 = 15 ∧ ((axisOf w11_9 15).state =
      AxisState.fault ∨ (axisOf w11_9 15).state = AxisState.disabled)) ∧
    (15 < 16 ∧ (setCfg (scriptOff 3 8) 1000 (scr idle0 1)).axes.axes.length = 16 ∧ (setCfg (scriptOff 3 8) 1000 (scr idle0
      1)).jobs.state = (5 : BitVec 4) ∧ (setCfg (scriptOff 3 8) 1000 (scr idle0 1)).axes.scriptStart = some 5 ∧ unit (setCfg (scriptOff
      3 8) 1000 (scr idle0 1)).axes.script 3 ScriptState.skip = ScriptState.waiting ∧ 5 + 1000000 * cfgF (setCfg (scriptOff 3 8) 1000
      (scr idle0 1)) (scriptOff 3 0) 16 16 ≤ max (setCfg (scriptOff 3 8) 1000 (scr idle0 1)).now 2000005 ∧ afterEnded (passTo 2000005
      (setCfg (scriptOff 3 8) 1000 (scr idle0 1))) 3 = true ∧ cfgF (setCfg (scriptOff 3 8) 1000 (scr idle0 1)) (scriptOff 3 0) 0 4 = 15
      ∧ v11_10.state = AxisState.idle ∧ v11_10.pending = none ∧ (setCfg (scriptOff 3 8) 1000 (scr idle0 1)).power.safe = false ∧ posMin
      (setCfg (scriptOff 3 8) 1000 (scr idle0 1)) 15 ≤ v11_11.target ∧ v11_11.target ≤ posMax (setCfg (scriptOff 3 8) 1000 (scr idle0
      1)) 15 ∧ limitsOk (setCfg (scriptOff 3 8) 1000 (scr idle0 1)) 15 (effLimits (setCfg (scriptOff 3 8) 1000 (scr idle0 1)) 15
      v11_11.limits) = true) :=
  ⟨by decide +kernel,
   ⟨some_parts (o := mvProf) (by decide +kernel), by decide +kernel⟩,
   by decide +kernel,
   by decide +kernel,
   by decide +kernel,
   by decide +kernel,
   by decide +kernel,
   by decide +kernel,
   by decide +kernel,
   by decide +kernel,
   by decide +kernel,
   by decide +kernel,
   by decide +kernel,
   by decide +kernel⟩

theorem witness_EncoderOpcodes :
    (Ready h0 r0 ∧ 15 < 16) ∧
    (Ready h0 r0) ∧
    (Ready h0 w11_2) ∧
    (Ready h0 r0 ∧ 15 < 16 ∧ 15 < 16 ∧ 0 < 2147483647 ∧ 2147483647 ≤ 2147483647 ∧ 0 < 65535 ∧ 65535 ≤ 65535 ∧ (r0.jobs.line = false ∨ ∀
      (hd : JobHeader), jobHeader r0 = some hd → hd.trigSource ≠ 15)) ∧
    (Ready h0 w11_10 ∧ 15 < 16 ∧ 15 < 16 ∧ 0 < 2147483647 ∧ 2147483647 ≤ 2147483647 ∧ 0 < 65535 ∧ 65535 ≤ 65535 ∧ w11_10.jobs.line =
      true ∧ jobHeader w11_10 = some w11_11 ∧ w11_11.trigSource = 15) ∧
    (Ready h0 r0 ∧ (16 ≤ 15 ∨ 16 ≤ 15 ∨ 2147483648 = 0 ∨ 2147483647 < 2147483648 ∨ 65535 = 0 ∨ 65535 < 65535)) ∧
    (Ready h0 r0 ∧ 3 < 4 ∧ 15 < 16 ∧ 0 < 65535 ∧ 65535 ≤ 65535 ∧ 65535 ≤ 65535 ∧ false = false) ∧
    (Ready h0 r0 ∧ 3 < 4 ∧ 15 < 16 ∧ 0 < 1 ∧ 1 ≤ 1 ∧ 1 ≤ 65535 ∧ true = true) ∧
    (Ready h0 r0 ∧ 1 < 2) ∧
    (Ready h0 r0 ∧ 15 < 16 ∧ (encOf r0 15).wireNow = (0 : BitVec 3)) ∧
    (Ready h0 w11_2 ∧ 15 < 16 ∧ (axisOf w11_2 15).state = AxisState.fault ∧ axisBad w11_2 15 = false) :=
  ⟨⟨ready_of (by decide +kernel), by decide +kernel⟩,
   ready_of (by decide +kernel),
   ready_of (by decide +kernel),
   ⟨ready_of (by decide +kernel), by decide +kernel⟩,
   ⟨ready_of (by decide +kernel), by decide +kernel⟩,
   ⟨ready_of (by decide +kernel), by decide +kernel⟩,
   ⟨ready_of (by decide +kernel), by decide +kernel⟩,
   ⟨ready_of (by decide +kernel), by decide +kernel⟩,
   ⟨ready_of (by decide +kernel), by decide +kernel⟩,
   ⟨ready_of (by decide +kernel), by decide +kernel⟩,
   ⟨ready_of (by decide +kernel), by decide +kernel⟩⟩

theorem witness_EncodersAndHallInTime :
    (5 < 16 ∧ w11_12.enc.length = 16 ∧ encMode w11_12 5 = 1 ∧ cfgF w11_12 (encOff 5 4) 0 16 = 0 ∧ (∀ k < 16, cfgF w11_12 (cmpOff k 0) 4
      4 ≠ 5) ∧ (∀ k < 4, cfgF w11_12 (echoOff k 0) 4 4 ≠ 5) ∧ (∀ a < 16, axisFbEnc w11_12 a ≠ 5) ∧ (∀ (t0 : Ns), (encOf w11_12 5).edge =
      some t0 → t0 ≤ max w11_12.now 50) ∧ cfgB w11_12 (encOff 5 0) 20 = false) ∧
    (5 < 16 ∧ (encq Enc.reset 0).enc.length = 16 ∧ encMode (encq Enc.reset 0) 5 = 1 ∧ cfgF (encq Enc.reset 0) (encOff 5 4) 0 16 = 0 ∧ (∀
      k < 16, cfgF (encq Enc.reset 0) (cmpOff k 0) 4 4 ≠ 5) ∧ (∀ k < 4, cfgF (encq Enc.reset 0) (echoOff k 0) 4 4 ≠ 5) ∧ (∀ a < 16,
      axisFbEnc (encq Enc.reset 0) a ≠ 5) ∧ (∀ (t0 : Ns), (encOf (encq Enc.reset 0) 5).edge = some t0 → t0 ≤ max (encq Enc.reset 0).now
      50) ∧ cfgB (encq Enc.reset 0) (encOff 5 0) 20 = false) ∧
    (5 < 16 ∧ (encq Enc.reset (2 ^ 20)).enc.length = 16 ∧ encMode (encq Enc.reset (2 ^ 20)) 5 = 1 ∧ cfgF (encq Enc.reset (2 ^ 20))
      (encOff 5 4) 0 16 = 0 ∧ (∀ k < 16, cfgF (encq Enc.reset (2 ^ 20)) (cmpOff k 0) 4 4 ≠ 5) ∧ (∀ k < 4, cfgF (encq Enc.reset (2 ^ 20))
      (echoOff k 0) 4 4 ≠ 5) ∧ (∀ a < 16, axisFbEnc (encq Enc.reset (2 ^ 20)) a ≠ 5) ∧ (∀ (t0 : Ns), (encOf (encq Enc.reset (2 ^ 20))
      5).edge = some t0 → t0 ≤ max (encq Enc.reset (2 ^ 20)).now 50) ∧ cfgB (encq Enc.reset (2 ^ 20)) (encOff 5 0) 20 = true) ∧
    (5 < 16 ∧ (encq Enc.reset 0).enc.length = 16 ∧ encMode (encq Enc.reset 0) 5 = 1 ∧ cfgF (encq Enc.reset 0) (encOff 5 4) 0 16 = 0 ∧ (∀
      k < 16, cfgF (encq Enc.reset 0) (cmpOff k 0) 4 4 ≠ 5) ∧ (∀ k < 4, cfgF (encq Enc.reset 0) (echoOff k 0) 4 4 ≠ 5) ∧ (∀ a < 16,
      axisFbEnc (encq Enc.reset 0) a ≠ 5) ∧ (∀ (t0 : Ns), (encOf (encq Enc.reset 0) 5).edge = some t0 → t0 ≤ max (encq Enc.reset 0).now
      50)) ∧
    (encMode r0 5 ≠ 1) ∧
    (5 < 16 ∧ encMode encf 5 = 1) ∧
    (5 < 16 ∧ encf.enc.length = 16) ∧
    (5 < 16 ∧ 2 ≤ 2 ∧ (encMode w11_13 5 = 1 ∨ encMode w11_13 5 = 2 ∧ 2 = 0)) ∧
    (5 < 16 ∧ 1 ≤ 2 ∧ (encMode w11_13 5 = 1 ∨ encMode w11_13 5 = 2 ∧ 1 = 0)) ∧
    (5 < 16 ∧ 0 ≤ 2 ∧ (encMode (encs Enc.reset) 5 = 1 ∨ encMode (encs Enc.reset) 5 = 2 ∧ 0 = 0)) ∧
    (5 < 16) ∧
    ((hallOf hal0 7).edge = some 5 ∧ 5 + hallStallNs hal0 7 ≤ max hal0.now 20000000000) ∧
    (5 < 16 ∧ 2 ≤ 2 ∧ encMode (encq Enc.reset 0) 5 = 1 ∧ (encOf (encq Enc.reset 0) 5).wireNow.getLsbD 2 = false) ∧
    (5 < 8 ∧ encMode (encs Enc.reset) 5 = 2) ∧
    (5 < 8 ∧ (encs Enc.reset).enc.length = 16 ∧ encMode (encs Enc.reset) 5 = 2 ∧ (encOf (encs Enc.reset) 5).ssiPrev = none) ∧
    (5 < 8 ∧ w11_14.enc.length = 16 ∧ encMode w11_14 5 = 2 ∧ (encOf w11_14 5).ssiPrev.isSome = true ∧ 4 * v11_19 ≤ encCpr w11_14 5 ∧ 0 <
      encCpr w11_14 5) ∧
    (5 < 8 ∧ w11_15.enc.length = 16 ∧ encMode w11_15 5 = 2 ∧ (encOf w11_15 5).ssiPrev.isSome = true ∧ 3 * encCpr w11_15 5 ≤ 4 * v11_21 ∧
      0 < encCpr w11_15 5) ∧
    (5 < 8 ∧ w11_16.enc.length = 16 ∧ encMode w11_16 5 = 2 ∧ (encOf w11_16 5).ssiPrev.isSome = true ∧ encCpr w11_16 5 < 4 * v11_23 ∧ 4 *
      v11_23 < 3 * encCpr w11_16 5) ∧
    (5 < 16 ∧ encMode w11_17 5 = 1 ∧ (encOf w11_17 5).edge = some 50 ∧ 50 + encStallNs w11_17 5 ≤ max w11_17.now 10000050) ∧
    (5 < 16 ∧ encMode encw 5 = 1 ∧ (encOf encw 5).edge = some 5000 ∧ max encw.now 104999 < 5000 + 1000 * cfgF encw (encOff 5 12) 16 16 ∧
      (encOf encw 5).winEdge = some (1000, (3 : Int)) ∧ 1000 < 5000 ∧ (encOf encw 5).valid = true ∧ (encOf encw 5).standstill = false ∧
      (encOf encw 5).window = false ∧ cfgWord encw (encOff 5 16) ≤ (encOf encw 5).mag) ∧
    (5 < 16 ∧ (encq Enc.reset 0).enc.length = 16 ∧ encMode (encq Enc.reset 0) 5 = 1 ∧ (encOf (encq Enc.reset 0) 5).winEdge = none ∧
      (encOf (encq Enc.reset 0) 5).window = false) ∧
    (7 < 8 ∧ (hal (5 : BitVec 3)).hall.length = 8 ∧ (hallOf (hal (5 : BitVec 3)) 7).known = true ∧ hallSector (5 % 8) = some 0 ∧ (0 + 6
      - (hallOf (hal (5 : BitVec 3)) 7).sector.toNat) % 6 = 1) ∧
    (7 < 8 ∧ (hal (1 : BitVec 3)).hall.length = 8 ∧ (hallOf (hal (1 : BitVec 3)) 7).known = true ∧ hallSector (5 % 8) = some 0 ∧ (0 + 6
      - (hallOf (hal (1 : BitVec 3)) 7).sector.toNat) % 6 = 5) ∧
    (7 < 8 ∧ (hal (3 : BitVec 3)).hall.length = 8 ∧ (hallOf (hal (3 : BitVec 3)) 7).known = true ∧ hallSector (5 % 8) = some 0 ∧ (0 + 6
      - (hallOf (hal (3 : BitVec 3)) 7).sector.toNat) % 6 ∈ [2, 3, 4]) ∧
    (7 < 8 ∧ hallSector (5 % 8) = some 0 ∧ (hallOf r0 7).known = false) ∧
    (7 < 8 ∧ hallSector (5 % 8) = some 0 ∧ (hallOf (hal (0 : BitVec 3)) 7).known = true ∧ (0 + 6 - (hallOf (hal (0 : BitVec 3))
      7).sector.toNat) % 6 = 0) ∧
    (7 < 8 ∧ (hal (3 : BitVec 3)).hall.length = 8 ∧ (7 % 8 = 0 ∨ 7 % 8 = 7)) :=
  ⟨by decide +kernel,
   by decide +kernel,
   by decide +kernel,
   by decide +kernel,
   by decide +kernel,
   by decide +kernel,
   by decide +kernel,
   by decide +kernel,
   by decide +kernel,
   by decide +kernel,
   by decide +kernel,
   by decide +kernel,
   by decide +kernel,
   by decide +kernel,
   by decide +kernel,
   by decide +kernel,
   by decide +kernel,
   by decide +kernel,
   by decide +kernel,
   by decide +kernel,
   by decide +kernel,
   by decide +kernel,
   by decide +kernel,
   by decide +kernel,
   by decide +kernel,
   by decide +kernel,
   by decide +kernel⟩

theorem witness_CameraOpcodes :
    (Ready h0 w12_1 ∧ 7 < w12_1.variant.cameras ∧ (camOf (camSettle (accept h0 96 w12_1)) 7).ringSet = true) ∧
    (Ready h0 (c7 1 Cam.reset) ∧ 7 < (c7 1 Cam.reset).variant.cameras ∧ (camOf (camSettle (accept h0 96 (c7 1 Cam.reset))) 7).ringSet =
      false) ∧
    (Ready h0 w12_2 ∧ 7 < w12_2.variant.cameras ∧ (camOf (camSettle (accept h0 96 w12_2)) 7).frame = none) ∧
    (Ready h0 w12_3 ∧ 7 < w12_3.variant.cameras ∧ (camOf (camSettle (accept h0 96 w12_3)) 7).frame = some frm0) ∧
    (Ready h0 (c7 1 Cam.reset) ∧ 7 < (c7 1 Cam.reset).variant.cameras ∧ 0 < 1000000 ∧ 1000000 ≤ 1000000 ∧ 100000 ≤ 100000 ∧ 1 ≤ 1) ∧
    (Ready h0 (c7 1 Cam.reset) ∧ 7 < (c7 1 Cam.reset).variant.cameras ∧ (1000001 = 0 ∨ 1000000 < 1000001 ∨ 100000 < 100000 ∨ 2 ≤ 1 ∨ 16
      < 0)) ∧
    (Ready h0 w12_4 ∧ 7 < w12_4.variant.cameras ∧ 4 ≤ (camOf (camSettle (accept h0 98 w12_4)) 7).pending.length + (camOf (camSettle
      (accept h0 98 w12_4)) 7).commits.length) ∧
    (Ready h0 m48 ∧ m48.variant.cameras ≤ 4) ∧
    (Ready h0 m48 ∧ m48.variant.cameras ≤ 7) ∧
    (Ready h0 m48 ∧ m48.variant.cameras ≤ 4 ∧ Nat.testBit 16 4 = true) ∧
    (Ready h0 r0 ∧ r0.variant.cameras ≤ 8) ∧
    (Ready h0 (c7 1 strm) ∧ 128 < 2 ^ (c7 1 strm).variant.cameras ∧ (∀ p < 8, Nat.testBit 128 p = true → camMode (camSettle (accept h0
      99 (c7 1 strm))) p = 1) ∧ lightLaunch 0 (camSettle (accept h0 99 (c7 1 strm))) = some 0 ∧ 0 ≤ (camSettle (accept h0 99 (c7 1
      strm))).now) ∧
    (Ready h0 (torC (c7 1 strm)) ∧ 128 < 2 ^ (torC (c7 1 strm)).variant.cameras ∧ (∀ p < 8, Nat.testBit 128 p = true → camMode
      (camSettle (accept h0 99 (torC (c7 1 strm)))) p = 1) ∧ lightLaunch 10 (camSettle (accept h0 99 (torC (c7 1 strm)))) = some 90010 ∧
      (camSettle (accept h0 99 (torC (c7 1 strm)))).now < 90010) ∧
    (Ready h0 (c7 1 strm) ∧ 128 < 2 ^ (c7 1 strm).variant.cameras ∧ (∀ p < 8, Nat.testBit 128 p = true → camMode (camSettle (accept h0
      99 (c7 1 strm))) p = 1) ∧ lightLaunch 10 (camSettle (accept h0 99 (c7 1 strm))) = none) ∧
    (Ready h0 (c7 0 strm) ∧ 128 < 2 ^ (c7 0 strm).variant.cameras ∧ (∃ p < 8, Nat.testBit 128 p = true ∧ camMode (camSettle (accept h0
      99 (c7 0 strm))) p ≠ 1)) ∧
    (Ready h0 (memPut 536870912 [(1 : Byte), 2, 3, 4, 1] (c7 1 Cam.reset)) ∧ 7 < (memPut 536870912 [(1 : Byte), 2, 3, 4, 1] (c7 1
      Cam.reset)).variant.cameras ∧ 0 < 1000000 ∧ 1000000 ≤ 1000000 ∧ 100000 ≤ 100000 ∧ 1 ≤ 1 ∧ 0 < 1 ∧ 1 ≤ 16 ∧ hostMem 536870912 (8 *
      1) (v12_1 97) = true ∧ poisonIn 536870912 (8 * 1) (v12_1 97) = none ∧ (∀ i < 1, memNat (536870912 + 8 * i + 4) 4 (v12_1 97) ≤ 1)) ∧
    (Ready h0 (memPut 536870912 [(1 : Byte), 2, 3, 4, 2] (c7 1 Cam.reset)) ∧ 7 < (memPut 536870912 [(1 : Byte), 2, 3, 4, 2] (c7 1
      Cam.reset)).variant.cameras ∧ 0 < 1000000 ∧ 1000000 ≤ 1000000 ∧ 100000 ≤ 100000 ∧ 1 ≤ 1 ∧ 0 < 1 ∧ 1 ≤ 16 ∧ hostMem 536870912 (8 *
      1) (v12_2 97) = true ∧ poisonIn 536870912 (8 * 1) (v12_2 97) = none ∧ (∃ i < 1, 1 < memNat (536870912 + 8 * i + 4) 4 (v12_2 97))) ∧
    (Ready h0 (c7 1 cNext) ∧ 7 < (c7 1 cNext).variant.cameras ∧ (camOf (camSettle (accept h0 98 (c7 1 cNext))) 7).pending.length +
      (camOf (camSettle (accept h0 98 (c7 1 cNext))) 7).commits.length < 4 ∧ lightLaunch 10 (camSettle (accept h0 98 (c7 1 cNext))) =
      none) ∧
    (Ready h0 (torC (c7 1 cNext)) ∧ 7 < (torC (c7 1 cNext)).variant.cameras ∧ (camOf (camSettle (accept h0 98 (torC (c7 1 cNext))))
      7).pending.length + (camOf (camSettle (accept h0 98 (torC (c7 1 cNext)))) 7).commits.length < 4 ∧ lightLaunch 10 (camSettle
      (accept h0 98 (torC (c7 1 cNext)))) = some 90010 ∧ (camSettle (accept h0 98 (torC (c7 1 cNext)))).now < 90010) ∧
    (Ready h0 (c7 1 cNext) ∧ 7 < (c7 1 cNext).variant.cameras ∧ (camOf (camSettle (accept h0 98 (c7 1 cNext))) 7).pending.length +
      (camOf (camSettle (accept h0 98 (c7 1 cNext))) 7).commits.length < 4 ∧ lightLaunch 0 (camSettle (accept h0 98 (c7 1 cNext))) =
      some 0 ∧ 0 ≤ (camSettle (accept h0 98 (c7 1 cNext))).now) ∧
    (Ready h0 (c7 1 strm) ∧ 7 < (c7 1 strm).variant.cameras ∧ (camSettle (accept h0 99 (c7 1 strm))).now % 5 = 0 ∧ camMode (camSettle
      (accept h0 99 (c7 1 strm))) 7 = 1) ∧
    (Ready h0 w12_5 ∧ 7 < w12_5.variant.cameras) ∧
    (Ready h0 (c7 1 strm) ∧ 7 < (c7 1 strm).variant.cameras ∧ (camOf (camSettle (accept h0 101 (c7 1 strm))) 7).streaming = true) ∧
    (Ready h0 (c7 1 Cam.reset) ∧ 7 < (c7 1 Cam.reset).variant.cameras ∧ (camOf (camSettle (accept h0 101 (c7 1 Cam.reset))) 7).streaming
      = false ∧ 1 < 2) ∧
    (Ready h0 (c7 1 Cam.reset) ∧ 7 < (c7 1 Cam.reset).variant.cameras ∧ (camOf (camSettle (accept h0 101 (c7 1 Cam.reset))) 7).streaming
      = false ∧ 536870912 % 4096 = 0 ∧ 73728 % 4096 = 0 ∧ 2 ≤ 256 ∧ 256 ≤ 256 ∧ ((codeOff (camSettle (accept h0 101 (c7 1 Cam.reset))) 7
      + if outCode (camSettle (accept h0 101 (c7 1 Cam.reset))) 7 = true then 65536 else 0) ≤ 73728) ∧ 4096 ≤ 73728 ∧ hostMem 536870912
      (73728 * 256) (camSettle (accept h0 101 (c7 1 Cam.reset))) = true) :=
  ⟨⟨ready_of (by decide +kernel), by decide +kernel⟩,
   ⟨ready_of (by decide +kernel), by decide +kernel⟩,
   ⟨ready_of (by decide +kernel), by decide +kernel⟩,
   ⟨ready_of (by decide +kernel), by decide +kernel⟩,
   ⟨ready_of (by decide +kernel), by decide +kernel⟩,
   ⟨ready_of (by decide +kernel), by decide +kernel⟩,
   ⟨ready_of (by decide +kernel), by decide +kernel⟩,
   ⟨ready_of (by decide +kernel), by decide +kernel⟩,
   ⟨ready_of (by decide +kernel), by decide +kernel⟩,
   ⟨ready_of (by decide +kernel), by decide +kernel⟩,
   ⟨ready_of (by decide +kernel), by decide +kernel⟩,
   ⟨ready_of (by decide +kernel), by decide +kernel⟩,
   ⟨ready_of (by decide +kernel), by decide +kernel⟩,
   ⟨ready_of (by decide +kernel), by decide +kernel⟩,
   ⟨ready_of (by decide +kernel), by decide +kernel⟩,
   ⟨ready_of (by decide +kernel), by decide +kernel⟩,
   ⟨ready_of (by decide +kernel), by decide +kernel⟩,
   ⟨ready_of (by decide +kernel), by decide +kernel⟩,
   ⟨ready_of (by decide +kernel), by decide +kernel⟩,
   ⟨ready_of (by decide +kernel), by decide +kernel⟩,
   ⟨ready_of (by decide +kernel), by decide +kernel⟩,
   ⟨ready_of (by decide +kernel), by decide +kernel⟩,
   ⟨ready_of (by decide +kernel), by decide +kernel⟩,
   ⟨ready_of (by decide +kernel), by decide +kernel⟩,
   ⟨ready_of (by decide +kernel), by decide +kernel⟩⟩

theorem witness_CameraFramesAndLines :
    (7 < 8 ∧ (camSettle (passTo 100 (c7 1 Cam.reset))).cams.length = 8 ∧ (camOf (camSettle (passTo 100 (c7 1 Cam.reset))) 7).streaming =
      false) ∧
    (7 < 8 ∧ (camSettle (passTo 100 (c7 1 strm))).cams.length = 8 ∧ (camOf (camSettle (passTo 100 (c7 1 strm))) 7).streaming = true ∧ 0
      ≠ camF (camSettle (passTo 100 (c7 1 strm))) 7 0 3 2) ∧
    (7 < 8 ∧ (camSettle (passTo 100 w12_6)).cams.length = 8 ∧ (camOf (camSettle (passTo 100 w12_6)) 7).streaming = true ∧ (camOf
      (camSettle (passTo 100 w12_6)) 7).frame = none ∧ (camOf (camSettle (passTo 100 w12_6)) 7).waits = [trg0, trg0] ∧ (camOf (camSettle
      (passTo 100 w12_6)) 7).ringSet = false ∧ camMode (camSettle (passTo 100 w12_6)) 7 ≠ 0 ∧ admitted (camSettle (passTo 100 w12_6)) +
      camF (camSettle (passTo 100 w12_6)) 7 8 0 11 ≤ admitCapacity (camSettle (passTo 100 w12_6))) ∧
    (7 < 8 ∧ (camSettle (passTo 100 w12_7)).cams.length = 8 ∧ (camOf (camSettle (passTo 100 w12_7)) 7).streaming = true ∧ (camOf
      (camSettle (passTo 100 w12_7)) 7).frame = none ∧ (camOf (camSettle (passTo 100 w12_7)) 7).waits = [trg0] ∧ (camOf (camSettle
      (passTo 100 w12_7)) 7).ringSet = false ∧ camMode (camSettle (passTo 100 w12_7)) 7 ≠ 0 ∧ admitCapacity (camSettle (passTo 100
      w12_7)) < admitted (camSettle (passTo 100 w12_7)) + camF (camSettle (passTo 100 w12_7)) 7 8 0 11) ∧
    (7 < 8 ∧ (camSettle (passTo 100 w12_8)).cams.length = 8 ∧ (camOf (camSettle (passTo 100 w12_8)) 7).streaming = true ∧ admitCapacity
      v12_6 < admitted v12_6 + camF v12_6 7 8 0 11) ∧
    (7 < 8 ∧ (camSettle (passTo 100 w12_9)).cams.length = 8 ∧ (camOf (camSettle (passTo 100 w12_9)) 7).streaming = true ∧ admitted v12_8
      + camF v12_8 7 8 0 11 ≤ admitCapacity v12_8 ∧ (camOf v12_7.2 7).ringSet = false) ∧
    (7 < 8 ∧ (camSettle (passTo 100 (c7 1 ring7))).cams.length = 8 ∧ (camOf (camSettle (passTo 100 (c7 1 ring7))) 7).streaming = true ∧
      admitted v12_12 + camF v12_12 7 8 0 11 ≤ admitCapacity v12_12 ∧ (camOf v12_11.2 7).ringSet = true) ∧
    (7 < 8 ∧ (camSettle (passTo 100 w12_3)).cams.length = 8 ∧ ((camOf (camSettle (passTo 100 w12_3)) 7).streaming = true ∨ (camOf
      (camSettle (passTo 100 w12_3)) 7).frame ≠ none) ∧ 1 < 2 ∧ dtBits (camF (camSettle (passTo 100 w12_3)) 7 0 5 6) ≠ 0) ∧
    (7 < 8 ∧ (camSettle (passTo 100 w12_3)).cams.length = 8 ∧ (camOf (camSettle (passTo 100 w12_3)) 7).frame = some frm0 ∧
      frm0.rows.length < camHeight (camSettle (passTo 100 w12_3)) 7 ∧ frm0.slot = none) ∧
    (7 < 8 ∧ (camSettle (passTo 100 w12_10)).cams.length = 8 ∧ (camOf (camSettle (passTo 100 w12_10)) 7).frame = some w12_11 ∧ camHeight
      (camSettle (passTo 100 w12_10)) 7 ≤ w12_11.rows.length) ∧
    (7 < 8 ∧ (camSettle (passTo 100 w12_3)).cams.length = 8) ∧
    (7 < 8 ∧ (camSettle (passTo 100 (c7 1 strm))).cams.length = 8 ∧ (camOf (camSettle (passTo 100 (c7 1 strm))) 7).streaming = true ∧ 2
      ≤ 2) ∧
    (7 < 8 ∧ (camSettle (passTo 100 (c7 1 strm))).cams.length = 8 ∧ (camOf (camSettle (passTo 100 (c7 1 strm))) 7).streaming = true ∧ 0
      < 2 ∧ (1 ≠ camF (camSettle (passTo 100 (c7 1 strm))) 7 0 3 2 ∨ 42 ≠ camF (camSettle (passTo 100 (c7 1 strm))) 7 0 5 6)) ∧
    (7 < 8 ∧ (camSettle (passTo 100 w12_3)).cams.length = 8 ∧ (camOf (camSettle (passTo 100 w12_3)) 7).frame = some frm0 ∧ frm0.slot =
      none ∧ 1 < 2 ∧ dtBits (camF (camSettle (passTo 100 w12_3)) 7 0 5 6) = 10 ∧ frm0.rows.length < camHeight (camSettle (passTo 100
      w12_3)) 7 ∧ [1, 2, 3, 1027].length = camWidth (camSettle (passTo 100 w12_3)) 7) ∧
    (7 < 8 ∧ (camSettle (passTo 100 (c7 1 Cam.reset))).cams.length = 8 ∧ (camOf (camSettle (passTo 100 (c7 1 Cam.reset))) 7).frame =
      none ∧ (camOf (camSettle (passTo 100 (c7 1 Cam.reset))) 7).streaming = false) ∧
    (7 < 8 ∧ (camSettle (passTo 20060 w12_3)).cams.length = 8 ∧ (camOf (camSettle (passTo 20060 w12_3)) 7).frame = some frm0 ∧ frm0.slot
      = none ∧ mereServes (camSettle (passTo 20060 w12_3)) 7 frm0 = false ∧ frm0.rows.length ≤ camHeight (camSettle (passTo 20060
      w12_3)) 7) ∧
    (7 < 8 ∧ (camSettle (passTo 20059 w12_3)).cams.length = 8 ∧ (camOf (camSettle (passTo 20059 w12_3)) 7).frame = some frm0 ∧
      (camSettle (passTo 20059 w12_3)).now < frm0.lastLine + 10000 * camF (camSettle (passTo 20059 w12_3)) 7 16 0 16) ∧
    (7 < 8 ∧ (camSettle (passTo 5000004 w12_12)).cams.length = 8 ∧ (camOf (camSettle (passTo 5000004 w12_12)) 7).waits = [trg0] ∧
      (camSettle (passTo 5000004 w12_12)).now < trg0.tF + 1000000 * camF (camSettle (passTo 5000004 w12_12)) 7 16 16 16) ∧
    (7 < 8 ∧ (camSettle (passTo 5000005 w12_12)).cams.length = 8 ∧ (camOf (camSettle (passTo 5000005 w12_12)) 7).waits = [trg0] ∧
      trg0.tF + 1000000 * camF (camSettle (passTo 5000005 w12_12)) 7 16 16 16 ≤ (camSettle (passTo 5000005 w12_12)).now) ∧
    (7 < 8 ∧ (camSettle (passTo 100 w12_13)).cams.length = 8 ∧ (camOf (camSettle (passTo 100 w12_13)) 7).closing = [frm0] ∧ frm0.stats =
      false ∧ frm0.slot = none) ∧
    (7 < 8 ∧ (camSettle (passTo 100 w12_13)).cams.length = 8 ∧ (camOf (camSettle (passTo 100 w12_13)) 7).closing = [frm0] ∧ frm0.stats =
      false) ∧
    (7 < 8 ∧ (camSettle (passTo 100 w12_14)).cams.length = 8 ∧ (camOf (camSettle (passTo 100 w12_14)) 7).closing = [w12_15] ∧
      w12_15.stats = true ∧ w12_15.slot = none ∧ w12_15.coding = false) ∧
    (7 < 8 ∧ (camSettle (passTo 100 w12_16)).cams.length = 8 ∧ (camOf (camSettle (passTo 100 w12_16)) 7).closing = [w12_17] ∧
      w12_17.stats = true ∧ w12_17.slot = some 536870912 ∧ (w12_17.coding = false ∨ w12_17.code ≠ none)) ∧
    (7 < 8 ∧ (camSettle (passTo 100 w12_18)).cams.length = 8 ∧ List.find? (fun f => !f.stats) (camOf (camSettle (passTo 100 w12_18))
      7).closing = some w12_19) ∧
    (7 < 8 ∧ (camSettle (passTo 100 (c7 1 strm))).cams.length = 8 ∧ List.find? (fun f => !f.stats) (camOf (camSettle (passTo 100 (c7 1
      strm))) 7).closing = none) :=
  ⟨by decide +kernel,
   by decide +kernel,
   by decide +kernel,
   by decide +kernel,
   by decide +kernel,
   by decide +kernel,
   by decide +kernel,
   by decide +kernel,
   by decide +kernel,
   by decide +kernel,
   by decide +kernel,
   by decide +kernel,
   by decide +kernel,
   by decide +kernel,
   by decide +kernel,
   by decide +kernel,
   by decide +kernel,
   by decide +kernel,
   by decide +kernel,
   by decide +kernel,
   by decide +kernel,
   by decide +kernel,
   by decide +kernel,
   by decide +kernel,
   by decide +kernel⟩

theorem witness_TriggersSetsAndWindows :
    (7 < 8 ∧ (camSettle (passTo 30099 w12_20)).cams.length = 8 ∧ (camOf (camSettle (passTo 30099 w12_20)) 7).lastTrig = some 101 ∧
      tickAt (camSettle (passTo 30099 w12_20)).now < 101 + 10000 * camF (camSettle (passTo 30099 w12_20)) 7 20 0 20) ∧
    (7 < 8 ∧ (camSettle (passTo 100 (c7 1 strm))).cams.length = 8 ∧ (camOf (camSettle (passTo 100 (c7 1 strm))) 7).lastTrig = none ∧
      (camOf (camSettle (passTo 100 (c7 1 strm))) 7).streaming = true ∧ (camOf (camSettle (passTo 100 (c7 1 strm))) 7).pending = []) ∧
    (7 < 8 ∧ (camSettle (passTo 100 (c7 1 strm))).cams.length = 8 ∧ (camOf (camSettle (passTo 100 (c7 1 strm))) 7).cci = []) ∧
    (7 < 8 ∧ (camSettle (passTo 100 w12_21)).cams.length = 8 ∧ (camOf (camSettle (passTo 100 w12_21)) 7).cci = [CciJob.host (5, 4) false
      true 1 0]) ∧
    (7 < 8 ∧ (camSettle (passTo 100 w12_22)).cams.length = 8 ∧ (camOf (camSettle (passTo 100 w12_22)) 7).cci = [CciJob.set (6 : BitVec
      32)]) ∧
    (7 < 8 ∧ (camSettle (passTo 100 (c7 1 strm))).cams.length = 8 ∧ (camSettle (passTo 100 (c7 1 strm))).isp.plan = none) ∧
    (7 < 8 ∧ (camSettle (passTo 100 w12_23)).cams.length = 8 ∧ (camOf (camSettle (passTo 100 w12_23)) 7).cci = [CciJob.set (6 : BitVec
      32)] ∧ 0 + 1 < v12_20) ∧
    (7 < 8 ∧ (camSettle (passTo 100 w12_23)).cams.length = 8 ∧ (camOf (camSettle (passTo 100 w12_23)) 7).cci = [CciJob.set (6 : BitVec
      32)] ∧ v12_20 ≤ 1 + 1) ∧
    (7 < 8 ∧ (camSettle (passTo 100 (pl7 2 (3 : BitVec 4)))).cams.length = 8 ∧ (camSettle (passTo 100 (pl7 2 (3 : BitVec 4)))).isp.plan
      = some (plan7 2) ∧ (camSettle (passTo 100 (pl7 2 (3 : BitVec 4)))).jobs.state.toNat = (plan7 2).stage ∧ (plan7 2).due ≤ (camSettle
      (passTo 100 (pl7 2 (3 : BitVec 4)))).now) ∧
    (7 < 8 ∧ (camSettle (passTo 99 w12_24)).cams.length = 8 ∧ (camSettle (passTo 99 w12_24)).isp.order = some (2400, 100) ∧ (∀ c ∈
      (camSettle (passTo 99 w12_24)).cams, c.frame = none)) ∧
    (7 < 8 ∧ (camSettle (passTo 50 w12_25)).cams.length = 8 ∧ (camOf (camSettle (passTo 50 w12_25)) 7).inWindow = inWindowNow v12_22 7) ∧
    (7 < 8 ∧ (camSettle (passTo 100 w12_26)).cams.length = 8 ∧ (camOf (camSettle (passTo 100 w12_26)) 7).inWindow ≠ inWindowNow v12_23
      7) ∧
    (7 < 8 ∧ (camSettle (passTo 100 (pl7 2 (7 : BitVec 4)))).cams.length = 8 ∧ (camSettle (passTo 100 (pl7 2 (7 : BitVec 4)))).isp.plan
      = some (plan7 2) ∧ (camSettle (passTo 100 (pl7 2 (7 : BitVec 4)))).jobs.state.toNat ≠ (plan7 2).stage) ∧
    (7 < 8 ∧ (camSettle (passTo 99 (pl7 2 (3 : BitVec 4)))).cams.length = 8 ∧ (camSettle (passTo 99 (pl7 2 (3 : BitVec 4)))).isp.plan =
      some (plan7 2) ∧ (camSettle (passTo 99 (pl7 2 (3 : BitVec 4)))).jobs.state.toNat = (plan7 2).stage ∧ (camSettle (passTo 99 (pl7 2
      (3 : BitVec 4)))).now < (plan7 2).due) ∧
    (7 < 8 ∧ (camSettle (passTo 100 (pl7 2 (3 : BitVec 4)))).cams.length = 8 ∧ (camSettle (passTo 100 (pl7 2 (3 : BitVec 4)))).isp.plan
      = some (plan7 2) ∧ (camSettle (passTo 100 (pl7 2 (3 : BitVec 4)))).jobs.state.toNat = (plan7 2).stage ∧ (plan7 2).stage ≠ 7 ∧
      (plan7 2).due ≤ (camSettle (passTo 100 (pl7 2 (3 : BitVec 4)))).now ∧ (plan7 2).mask = 2 ^ 7) ∧
    (7 < 8 ∧ (camSettle (passTo 100 (pl7 1 (3 : BitVec 4)))).cams.length = 8 ∧ (camSettle (passTo 100 (pl7 1 (3 : BitVec 4)))).isp.plan
      = some (plan7 1) ∧ (camSettle (passTo 100 (pl7 1 (3 : BitVec 4)))).jobs.state.toNat = (plan7 1).stage ∧ (plan7 1).stage ≠ 7 ∧
      (plan7 1).due ≤ (camSettle (passTo 100 (pl7 1 (3 : BitVec 4)))).now ∧ (plan7 1).mask = 2 ^ 7) ∧
    (7 < 8 ∧ (camSettle (passTo 100 r0)).cams.length = 8 ∧ (camSettle (passTo 100 r0)).isp.order = none) ∧
    (7 < 8 ∧ (camSettle (passTo 100 w12_27)).cams.length = 8 ∧ (camSettle (passTo 100 w12_27)).isp.order = some (2400, 100) ∧ 100 ≤
      (camSettle (passTo 100 w12_27)).now) ∧
    (7 < 8 ∧ (camSettle (passTo 99 w12_27)).cams.length = 8 ∧ (camSettle (passTo 99 w12_27)).isp.order = some (2400, 100) ∧ (camSettle
      (passTo 99 w12_27)).now < 100 ∧ 7 < 8 ∧ (camOf (camSettle (passTo 99 w12_27)) 7).frame ≠ none) ∧
    (7 < 8 ∧ (camSettle (passTo 100 (c7 1 strm))).cams.length = 8 ∧ (camOf (camSettle (passTo 100 (c7 1 strm))) 7).xtrig = none ∧ (camOf
      (camSettle (passTo 100 (c7 1 strm))) 7).inWindow = inWindowNow (camSettle (passTo 100 (c7 1 strm))) 7) ∧
    (7 < 8 ∧ (camSettle (passTo 100 w12_28)).cams.length = 8 ∧ (camOf (camSettle (passTo 100 w12_28)) 7).xtrig = none ∧ (camOf
      (camSettle (passTo 100 w12_28)) 7).inWindow ≠ inWindowNow (camSettle (passTo 100 w12_28)) 7) ∧
    (7 < 8 ∧ (camSettle (passTo 101 w12_29)).cams.length = 8 ∧ (camOf (camSettle (passTo 101 w12_29)) 7).xtrig = none ∧ (camOf
      (camSettle (passTo 101 w12_29)) 7).inWindow ≠ inWindowNow (camSettle (passTo 101 w12_29)) 7) ∧
    (7 < 8 ∧ (camSettle (passTo 100 w12_30)).cams.length = 8 ∧ (camOf (camSettle (passTo 100 w12_30)) 7).xtrig = some 100 ∧ 100 ≤
      (camSettle (passTo 100 w12_30)).now) :=
  ⟨by decide +kernel,
   by decide +kernel,
   by decide +kernel,
   by decide +kernel,
   by decide +kernel,
   by decide +kernel,
   by decide +kernel,
   by decide +kernel,
   by decide +kernel,
   by decide +kernel,
   by decide +kernel,
   by decide +kernel,
   by decide +kernel,
   by decide +kernel,
   by decide +kernel,
   by decide +kernel,
   by decide +kernel,
   by decide +kernel,
   by decide +kernel,
   by decide +kernel,
   by decide +kernel,
   by decide +kernel,
   by decide +kernel⟩

theorem witness_Lights :
    (Ready h0 (ll Led.reset) ∧ (ll Led.reset).light.leds.length = 16 ∧ 15 < 16 ∧ 1000 ≤ ledF (ll Led.reset) 15 0 0 11) ∧
    (Ready h0 (ll Led.reset) ∧ (ll Led.reset).light.leds.length = 16 ∧ 15 < 16 ∧ Nat.testBit 32768 15 = true ∧ ledF (ll Led.reset) 15 0
      0 11 < 1001) ∧
    (Ready h0 (ll Led.reset) ∧ (ll Led.reset).light.leds.length = 16 ∧ 0 < 7 ∧ (ll Led.reset).jobs.tor = none ∧ (∀ c < 16, Nat.testBit
      32768 c = true → 1000 ≤ ledF (ll Led.reset) c 0 0 11)) ∧
    (Ready h0 r0 ∧ r0.light.leds.length = 16 ∧ matrixOn r0 = false) ∧
    (Ready h0 w12_31 ∧ w12_31.light.leds.length = 16 ∧ matrixOn w12_31 = true ∧ 4 ≤ w12_31.light.matrix.queue.length) ∧
    (Ready h0 w12_32 ∧ w12_32.light.leds.length = 16 ∧ matrixOn w12_32 = true ∧ w12_32.light.matrix.queue.length < 4 ∧ hostMem 536870911
      512 w12_32 = false) ∧
    (Ready h0 w12_32 ∧ w12_32.light.leds.length = 16 ∧ matrixOn w12_32 = true ∧ w12_32.light.matrix.queue.length < 4 ∧ hostMem 536870912
      512 w12_32 = true ∧ poisonIn 536870912 512 w12_32 = none) ∧
    (Ready h0 w12_33 ∧ w12_33.light.leds.length = 16 ∧ 15 < 16) ∧
    (Ready h0 w12_34 ∧ w12_34.light.leds.length = 16 ∧ 15 < 16) ∧
    (Ready h0 (ll Led.reset) ∧ (ll Led.reset).light.leds.length = 16 ∧ 15 < 16) ∧
    (Ready h0 (ll Led.reset) ∧ (ll Led.reset).light.leds.length = 16 ∧ 16 ≤ 16) ∧
    ((16 ≤ 15 ∨ pwmPeriod (ll Led.reset) 15 = 0 ∨ max (ll Led.reset).now 1999 % pwmPeriod (ll Led.reset) 15 ≠ 0)) ∧
    (15 < 16 ∧ w12_35.light.leds.length = 16 ∧ 0 < pwmPeriod w12_35 15 ∧ max w12_35.now 2000 % pwmPeriod w12_35 15 = 0 ∧ (ledOf w12_35
      15).changes = [] ∧ (ledOf w12_35 15).gainNext = none) ∧
    (15 < 16 ∧ w12_36.light.leds.length = 16 ∧ 0 < pwmPeriod w12_36 15 ∧ max w12_36.now 2000 % pwmPeriod w12_36 15 = 0 ∧ (ledOf w12_36
      15).changes = [chg0] ∧ chg0.launch ≤ max w12_36.now 2000 ∧ (ledOf w12_36 15).gainNext = none) ∧
    (15 < 16 ∧ matrixOn (led15 Led.reset (lcfg 65535 r0)) = false ∧ checksNow (passTo 2000 (led15 Led.reset (lcfg 65535 r0))) 15 = true
      ∧ (ledOf (led15 Led.reset (lcfg 65535 r0)) 15).open_ = false ∧ (ledOf (led15 Led.reset (lcfg 65535 r0)) 15).short = false) ∧
    (matrixOn (ll Led.reset) = false ∧ (checksNow (passTo 2000 (ll Led.reset)) 15 = false ∨ (ledOf (ll Led.reset) 15).open_ = true ∨
      (ledOf (ll Led.reset) 15).short = true)) ∧
    ((16 ≤ 16 ∨ matrixOn r0 = true)) ∧
    (15 < 16 ∧ matrixOn w12_37 = false ∧ w12_37.light.leds.length = 16 ∧ (w12_37.power.safe = true ∨ (ledOf w12_37 15).open_ = true ∨
      (ledOf w12_37 15).short = true) ∧ (ledOf w12_37 15).diag = none) ∧
    (15 < 16 ∧ matrixOn w12_38 = false ∧ w12_38.power.safe = false ∧ pulseNs (passTo 40010000 w12_38) 15 < 1000 * tDet w12_38 15 ∧
      (ledOf w12_38 15).open_ = false ∧ (ledOf w12_38 15).short = false ∧ (ledOf w12_38 15).diag = none ∧ (ledOf w12_38 15).diagLast =
      none ∧ (∃ d, (ledOf w12_38 15).diagDone = some d ∧ max w12_38.now 40010000 ≤ d + 4 * diagPeriod w12_38 15) ∧ exclIn (passTo
      40010000 w12_38) 15 (max w12_38.now 40010000 - 20000) (max w12_38.now 40010000 + diagNs w12_38 15 + 20000) = false) ∧
    (matrixOn (mtx 5 Matrix.reset) = true) ∧
    (15 < 16 ∧ matrixOn colS = false ∧ colS.light.leds.length = 16 ∧ colS.light.sensorFails = [0, 0, 0, 0] ∧ [(1 : Byte), 0, 2, 0, 4,
      1].length = 6 ∧ (∀ d < 16, d ≠ 15 → ledF colS d 20 0 1 = 0) ∧ ledF colS 15 20 0 1 = 1 ∧ ledF colS 15 20 1 2 = 0 ∧ ledF colS 15 20
      3 2 < 3 ∧ ledLit (passTo 2000 colS) 15 = true ∧ ledF colS 15 20 16 16 ≠ 0) ∧
    (matrixOn (ll Led.reset) = false ∧ (ll Led.reset).light.sensorFails = [0, 0, 0, 0]) ∧
    (matrixOn w12_39 = true ∧ max w12_39.now 10099 < w12_39.light.matrix.slotAt + rowNs w12_39) ∧
    (matrixOn w12_39 = true ∧ w12_39.light.matrix.slotAt + rowNs w12_39 ≤ max w12_39.now 10100 ∧ w12_39.power.safe = false ∧
      w12_39.light.matrix.row + 1 < matrixRows w12_39) ∧
    (matrixOn (mtx (1 + 64) Matrix.reset) = true ∧ (mtx (1 + 64) Matrix.reset).power.safe = false ∧ cfgF (mtx (1 + 64) Matrix.reset)
      8790016 6 2 = 1 ∧ (mtx (1 + 64) Matrix.reset).light.matrix.queue = []) ∧
    (matrixOn w12_40 = true ∧ w12_40.power.safe = false ∧ cfgF w12_40 8790016 6 2 = 1 ∧ w12_40.light.matrix.queue = [([], (1, 100),
      292)]) ∧
    ((matrixOn w12_41 = false ∨ w12_41.power.safe = true ∨ cfgF w12_41 8790016 6 2 ≠ 1)) ∧
    (Ready h0 (ll Led.reset) ∧ (ll Led.reset).light.leds.length = 16 ∧ 32768 ≠ 0 ∧ 32768 < 65536 ∧ (∀ c < 16, Nat.testBit 32768 c = true
      → 1000 ≤ ledF (ll Led.reset) c 0 0 11) ∧ (0 = 0 ∧ 0 = tickAt (ll Led.reset).now ∨ 0 ≠ 0 ∧ ∃ tor, refTime true 0 (ll Led.reset) =
      some tor ∧ 0 = tickAt tor)) ∧
    (Ready h0 (torC (ll Led.reset)) ∧ (torC (ll Led.reset)).light.leds.length = 16 ∧ 32768 ≠ 0 ∧ 32768 < 65536 ∧ (∀ c < 16, Nat.testBit
      32768 c = true → 1000 ≤ ledF (torC (ll Led.reset)) c 0 0 11) ∧ (10 = 0 ∧ 90010 = tickAt (torC (ll Led.reset)).now ∨ 10 ≠ 0 ∧ ∃
      tor, refTime true 10 (torC (ll Led.reset)) = some tor ∧ 90010 = tickAt tor)) ∧
    (Ready h0 w12_33 ∧ w12_33.light.leds.length = 16) ∧
    (15 < 16 ∧ 0 < pwmPeriod w12_42 15 ∧ max w12_42.now 2000 % pwmPeriod w12_42 15 = 0) ∧
    (15 < 16 ∧ 1 < 16 ∧ matrixOn mxl = true ∧ 0 < segmentNs (passTo 2000 mxl) 1 15 ∧ 1000 * tDet mxl 15 ≤ segmentNs (passTo 2000 mxl) 1
      15 ∧ (ledOf mxl 15).short = false) ∧
    (15 < 16 ∧ 1 < 16 ∧ matrixOn mxl = true ∧ 0 < segmentNs (passTo 2000 mxl) 1 15 ∧ 1000 * tDet mxl 15 ≤ segmentNs (passTo 2000 mxl) 1
      15) ∧
    (15 < 16 ∧ matrixOn w12_38 = false ∧ pulseNs (settleDiag 15 (passTo 2000 w12_38)) 15 < 1000 * tDet (settleDiag 15 (passTo 2000
      w12_38)) 15 ∧ w12_38.power.safe = false ∧ (ledOf (settleDiag 15 (passTo 2000 w12_38)) 15).open_ = false ∧ (ledOf (settleDiag 15
      (passTo 2000 w12_38)) 15).short = false ∧ (ledOf (settleDiag 15 (passTo 2000 w12_38)) 15).diag = none ∧ (∀ (last : Ns), (ledOf
      (settleDiag 15 (passTo 2000 w12_38)) 15).diagLast = some last → last + diagPeriod v12_36 15 ≤ v12_36.now) ∧ exclIn v12_36 15
      (v12_36.now - 20000) (v12_36.now + diagNs v12_36 15 + 20000) = false) ∧
    (15 < 16 ∧ matrixOn w12_43 = false ∧ pulseNs (settleDiag 15 (passTo 40010000 w12_43)) 15 < 1000 * tDet (settleDiag 15 (passTo
      40010000 w12_43)) 15 ∧ w12_43.power.safe = false ∧ (ledOf (settleDiag 15 (passTo 40010000 w12_43)) 15).open_ = false ∧ (ledOf
      (settleDiag 15 (passTo 40010000 w12_43)) 15).short = false ∧ (ledOf (settleDiag 15 (passTo 40010000 w12_43)) 15).diag = none ∧ (∀
      (last : Ns), (ledOf (settleDiag 15 (passTo 40010000 w12_43)) 15).diagLast = some last → last + diagPeriod v12_37 15 ≤ v12_37.now)
      ∧ exclIn v12_37 15 (v12_37.now - 20000) (v12_37.now + diagNs v12_37 15 + 20000) = true) ∧
    (matrixOn colS = false) ∧
    (matrixOn w12_39 = true ∧ w12_39.light.matrix.slotAt + rowNs w12_39 ≤ max w12_39.now 10100 ∧ w12_39.light.matrix.row + 1 <
      matrixRows w12_39) ∧
    (matrixOn w12_44 = true ∧ w12_44.light.matrix.slotAt + rowNs w12_44 ≤ max w12_44.now 10100 ∧ matrixRows w12_44 ≤
      w12_44.light.matrix.row + 1 ∧ cfgF w12_44 8790016 6 2 = 0 ∧ w12_44.power.safe = false) ∧
    (matrixOn w12_45 = true ∧ w12_45.light.matrix.slotAt + rowNs w12_45 ≤ max w12_45.now 10100 ∧ matrixRows w12_45 ≤
      w12_45.light.matrix.row + 1 ∧ (cfgF w12_45 8790016 6 2 ≠ 0 ∨ w12_45.power.safe = true)) :=
  ⟨⟨ready_of (by decide +kernel), by decide +kernel⟩,
   ⟨ready_of (by decide +kernel), by decide +kernel⟩,
   ⟨ready_of (by decide +kernel), by decide +kernel⟩,
   ⟨ready_of (by decide +kernel), by decide +kernel⟩,
   ⟨ready_of (by decide +kernel), by decide +kernel⟩,
   ⟨ready_of (by decide +kernel), by decide +kernel⟩,
   ⟨ready_of (by decide +kernel), by decide +kernel⟩,
   ⟨ready_of (by decide +kernel), by decide +kernel⟩,
   ⟨ready_of (by decide +kernel), by decide +kernel⟩,
   ⟨ready_of (by decide +kernel), by decide +kernel⟩,
   ⟨ready_of (by decide +kernel), by decide +kernel⟩,
   by decide +kernel,
   by decide +kernel,
   by decide +kernel,
   by decide +kernel,
   by decide +kernel,
   by decide +kernel,
   by decide +kernel,
   by decide +kernel,
   by decide +kernel,
   by decide +kernel,
   by decide +kernel,
   by decide +kernel,
   by decide +kernel,
   by decide +kernel,
   by decide +kernel,
   by decide +kernel,
   ⟨ready_of (by decide +kernel), by decide +kernel⟩,
   ⟨ready_of (by decide +kernel), by decide +kernel⟩,
   ⟨ready_of (by decide +kernel), by decide +kernel⟩,
   by decide +kernel,
   by decide +kernel,
   by decide +kernel,
   by decide +kernel,
   by decide +kernel,
   by decide +kernel,
   by decide +kernel,
   by decide +kernel,
   by decide +kernel⟩

theorem witness_ZipChannels :
    (Ready h0 r0 ∧ zipFree 8 r0 ≠ stDone) ∧
    (Ready h0 r0 ∧ 8 ≤ 8) ∧
    (Ready h0 (setCfg 8650752 (7 + 8) r0) ∧ 7 < 8 ∧ zipInternal (setCfg 8650752 (7 + 8) r0) 7 = true) ∧
    (Ready h0 (zj zopen) ∧ 7 < 8 ∧ zipInternal (zj zopen) 7 = false ∧ (zipChan (zj zopen) 7).job ≠ none) ∧
    (Ready h0 r0 ∧ 7 < 8 ∧ zipInternal r0 7 = false ∧ (zipChan r0 7).job = none) ∧
    (Ready h0 r0 ∧ 7 < 8 ∧ zipInternal r0 7 = false ∧ (zipChan r0 7).job = none ∧ readForm 2 0 0 = some form0 ∧ (0 = 0 ∨ 0 % form0.unit
      ≠ 0 ∨ hostMem 536870912 0 r0 = false)) ∧
    (Ready h0 r0 ∧ 7 < 8 ∧ zipInternal r0 7 = false ∧ (zipChan r0 7).job = none ∧ readForm 2 0 0 = some form0 ∧ 0 < 1 ∧ 1 % form0.unit =
      0 ∧ hostMem 536870912 1 r0 = true ∧ 64 ≤ 64 ∧ hostMem 553648128 64 r0 = true) ∧
    (Ready h0 r0 ∧ 7 < 8 ∧ zipInternal r0 7 = false ∧ (zipChan r0 7).job = none ∧ readForm 2 0 0 = some form0 ∧ 64 ≤ 64 ∧ hostMem
      553648128 64 r0 = true) ∧
    (Ready h0 r0 ∧ 7 < 8 ∧ zipInternal r0 7 = false ∧ (zipChan r0 7).job = none ∧ hostMem 536870912 20 r0 = true ∧ hostMem 553648128 64
      r0 = true) ∧
    (Ready h0 r0 ∧ 7 < 8 ∧ 3 < 4 ∧ (20 = 0 ∨ hostMem 536870912 20 r0 = true) ∧ zipInternal r0 7 = false ∧ (zipChan r0 7).job = none) ∧
    (Ready h0 (zj zopen) ∧ 7 < 8 ∧ 3 < 4 ∧ (20 = 0 ∨ hostMem 536870912 20 (zj zopen) = true) ∧ zipInternal (zj zopen) 7 = false ∧
      (zipChan (zj zopen) 7).job = some zopen ∧ zopen.opened = true ∧ zopen.failed = none ∧ zopen.ending = false) ∧
    (Ready h0 w13_1 ∧ ((unit w13_1.zip.engs 3 ZipEng.reset).chan = none ∨ max w13_1.now 5 < (unit w13_1.zip.engs 3 ZipEng.reset).due)) ∧
    (Ready h0 w13_2 ∧ w13_2.zip.chans.length = 8 ∧ (unit w13_2.zip.engs 3 ZipEng.reset).chan = some 7 ∧ (unit w13_2.zip.engs 3
      ZipEng.reset).due ≤ max w13_2.now 5 ∧ (zipChan w13_2 7).job = some (zenc 4 64) ∧ (zenc 4 64).decode = false ∧ (zenc 4 64).work =
      some (4, true)) ∧
    (Ready h0 w13_3 ∧ w13_3.zip.chans.length = 8 ∧ (unit w13_3.zip.engs 3 ZipEng.reset).chan = some 7 ∧ (unit w13_3.zip.engs 3
      ZipEng.reset).due ≤ max w13_3.now 5 ∧ (zipChan w13_3 7).job = some (zenc 4 10) ∧ (zenc 4 10).decode = false ∧ (zenc 4 10).work =
      some (4, true)) ∧
    (Ready h0 w13_4 ∧ (unit w13_4.zip.engs 3 ZipEng.reset).chan = some 7 ∧ (unit w13_4.zip.engs 3 ZipEng.reset).due ≤ max w13_4.now 5 ∧
      (zipChan w13_4 7).job = some zdec ∧ zdec.decode = true ∧ zdec.work = some (0, false) ∧ zdec.src = ZipSrc.pieces [(536870912, 20)]
      ∧ poisonPieces (nextPieces zdec [(536870912, 20)]) w13_4 = none ∧ epbDecode (readPieces (nextPieces zdec [(536870912, 20)]) w13_4)
      = none) ∧
    (Ready h0 r0 ∧ 7 < 8 ∧ zipInternal r0 7 = false ∧ (zipChan r0 7).job = none ∧ readForm 2 0 0 = some form0 ∧ 2 < 4 ∧ zipOutput
      (Nat.testBit 2 0) 553648128 64 r0 = Except.ok ([(553648128, 64)], none) ∧ 0 < 1 ∧ 1 % form0.unit = 0 ∧ hostMem 536870912 1 r0 =
      true) ∧
    (Ready h0 r0 ∧ 7 < 8 ∧ zipInternal r0 7 = false ∧ (zipChan r0 7).job = none ∧ readForm 2 0 0 = some form0 ∧ 0 < 4 ∧ zipOutput
      (Nat.testBit 0 0) 553648128 64 r0 = Except.ok ([(553648128, 64)], none)) ∧
    (Ready h0 r0 ∧ 7 < 8 ∧ zipInternal r0 7 = false ∧ (zipChan r0 7).job = none ∧ 0 < 2 ∧ hostMem 553648128 64 r0 = true ∧ decodePieces
      (Nat.testBit 0 0) 536870911 64 r0 = none) ∧
    (Ready h0 r0 ∧ 7 < 8 ∧ zipInternal r0 7 = false ∧ (zipChan r0 7).job = none ∧ 0 < 2 ∧ hostMem 553648128 64 r0 = true ∧ decodePieces
      (Nat.testBit 0 0) 536870912 64 r0 = some [(536870912, 64)]) ∧
    (Ready h0 w13_18 ∧ 7 < 8 ∧ zipInternal w13_18 7 = false ∧ (zipChan w13_18 7).job = some w13_19 ∧ w13_19.opened = true ∧
      w13_19.failed = none ∧ w13_19.ending = true) ∧
    (Ready h0 (zdst 8) ∧ (unit (zdst 8).zip.engs 3 ZipEng.reset).chan = some 7 ∧ (unit (zdst 8).zip.engs 3 ZipEng.reset).due ≤ max (zdst
      8).now 5 ∧ (zipChan (zdst 8) 7).job = some (zdec2 8) ∧ (zdec2 8).decode = true ∧ (zdec2 8).work = some (0, false)) ∧
    (Ready h0 (zdst 7) ∧ (unit (zdst 7).zip.engs 3 ZipEng.reset).chan = some 7 ∧ (unit (zdst 7).zip.engs 3 ZipEng.reset).due ≤ max (zdst
      7).now 5 ∧ (zipChan (zdst 7) 7).job = some (zdec2 7) ∧ (zdec2 7).decode = true ∧ (zdec2 7).work = some (0, false)) :=
  ⟨⟨ready_of (by decide +kernel), by decide +kernel⟩,
   ⟨ready_of (by decide +kernel), by decide +kernel⟩,
   ⟨ready_of (by decide +kernel), by decide +kernel⟩,
   ⟨ready_of (by decide +kernel), by decide +kernel⟩,
   ⟨ready_of (by decide +kernel), by decide +kernel⟩,
   ⟨ready_of (by decide +kernel), by decide +kernel⟩,
   ⟨ready_of (by decide +kernel), by decide +kernel⟩,
   ⟨ready_of (by decide +kernel), by decide +kernel⟩,
   ⟨ready_of (by decide +kernel), by decide +kernel⟩,
   ⟨ready_of (by decide +kernel), by decide +kernel⟩,
   ⟨ready_of (by decide +kernel), by decide +kernel⟩,
   ⟨ready_of (by decide +kernel), by decide +kernel⟩,
   ⟨ready_of (by decide +kernel), by decide +kernel⟩,
   ⟨ready_of (by decide +kernel), by decide +kernel⟩,
   ⟨ready_of (by decide +kernel), by decide +kernel⟩,
   ⟨ready_of (by decide +kernel), by decide +kernel⟩,
   ⟨ready_of (by decide +kernel), by decide +kernel⟩,
   ⟨ready_of (by decide +kernel), by decide +kernel⟩,
   ⟨ready_of (by decide +kernel), by decide +kernel⟩,
   ⟨ready_of (by decide +kernel), by decide +kernel⟩,
   ⟨ready_of (by decide +kernel), by decide +kernel⟩,
   ⟨ready_of (by decide +kernel), by decide +kernel⟩⟩

theorem witness_ScenesAndDisplay :
    (Ready h0 r0 ∧ r0.scenes.length = 4 ∧ (4 ≤ 4 ∨ hostMem 536870912 576 r0 = false)) ∧
    (Ready h0 r0 ∧ r0.scenes.length = 4 ∧ (4 ≤ 3 ∨ hostMem 536870911 576 r0 = false)) ∧
    (Ready h0 r0 ∧ r0.scenes.length = 4 ∧ 3 < 4 ∧ hostMem 536870912 576 r0 = true ∧ poisonIn 536870912 576 r0 = none ∧ sceneOk (memRead
      536870912 576 r0) r0 = false) ∧
    (Ready h0 (memPut 536870912 (scn 1 1000) r0) ∧ (memPut 536870912 (scn 1 1000) r0).scenes.length = 4 ∧ 3 < 4 ∧ hostMem 536870912 576
      (memPut 536870912 (scn 1 1000) r0) = true ∧ poisonIn 536870912 576 (memPut 536870912 (scn 1 1000) r0) = none ∧ sceneOk (memRead
      536870912 576 (memPut 536870912 (scn 1 1000) r0)) (memPut 536870912 (scn 1 1000) r0) = true ∧ (isDisplay 3 (memPut 536870912 (scn
      1 1000) r0) = false ∨ (readScene (memRead 536870912 576 (memPut 536870912 (scn 1 1000) r0))).periodic = true) ∧ (sceneOf (memPut
      536870912 (scn 1 1000) r0) 3).run = none) ∧
    (Ready h0 r0 ∧ r0.scenes.length = 4 ∧ 3 < 4 ∧ (sceneOf r0 3).rec_ = none) ∧
    (Ready h0 w13_5 ∧ w13_5.scenes.length = 4 ∧ 3 < 4 ∧ (sceneOf w13_5 3).rec_ = some (recS 1 1000) ∧ (recS 1 1000).periodic = true) ∧
    (Ready h0 w13_6 ∧ w13_6.scenes.length = 4 ∧ 3 < 4 ∧ (sceneOf w13_6 3).rec_ = some (recS 0 0) ∧ (recS 0 0).periodic = false) ∧
    (Ready h0 w13_7 ∧ w13_7.scenes.length = 4 ∧ 3 < 4 ∧ isDisplay 3 w13_7 = true) ∧
    (Ready h0 r0 ∧ r0.scenes.length = 4 ∧ 3 < 4 ∧ isDisplay 3 r0 = false ∧ (sceneOf r0 3).runs = [] ∧ (sceneOf r0 3).run = none) ∧
    (Ready h0 r0 ∧ r0.scenes.length = 4 ∧ 3 < 4 ∧ 7 < 8 ∧ 1 < 2 ∧ (sceneOf r0 3).rec_ = none) ∧
    (Ready h0 w13_6 ∧ w13_6.scenes.length = 4 ∧ 3 < 4 ∧ 7 < 8 ∧ 1 < 2 ∧ (sceneOf w13_6 3).rec_ = some (recS 0 0) ∧ (recS 0
      0).layers.length ≤ 7) ∧
    (Ready h0 w13_8 ∧ w13_8.scenes.length = 4 ∧ 3 < 4 ∧ 7 < 8 ∧ 1 < 2 ∧ (sceneOf w13_8 3).rec_ = some recCam ∧ recCam.layers[7]? = some
      w13_9 ∧ w13_9.source = 2 ∧ w13_9.isStatic = false) ∧
    (Ready h0 r0 ∧ r0.scenes.length = 4 ∧ displaySetCheck 3 r0 ≠ stDone) ∧
    (Ready h0 r0 ∧ r0.scenes.length = 4) ∧
    (Ready h0 w13_5 ∧ w13_5.scenes.length = 4 ∧ 3 < 4 ∧ (sceneOf w13_5 3).rec_ = some (recS 1 1000) ∧ (recS 1 1000).periodic = true ∧
      (recS 1 1000).periodUs ≠ 0 ∧ max w13_5.now 5 % (1000 * (recS 1 1000).periodUs) ≠ 0) ∧
    (Ready h0 w13_10 ∧ w13_10.scenes.length = 4 ∧ 3 < 4 ∧ (sceneOf w13_10 3).rec_ = some (recS 1 1000) ∧ (recS 1 1000).periodic = true ∧
      (recS 1 1000).periodUs ≠ 0 ∧ max w13_10.now 1000000 % (1000 * (recS 1 1000).periodUs) = 0 ∧ (sceneOf w13_10 3).stopped = false ∧
      (sceneOf w13_10 3).run ≠ none ∧ (sceneOf w13_10 3).lateEpisode = true) ∧
    (Ready h0 w13_11 ∧ w13_11.scenes.length = 4 ∧ 3 < 4 ∧ (sceneOf w13_11 3).rec_ = some (recS 1 1000) ∧ (recS 1 1000).periodic = true ∧
      (recS 1 1000).periodUs ≠ 0 ∧ max w13_11.now 1000000 % (1000 * (recS 1 1000).periodUs) = 0 ∧ (sceneOf w13_11 3).stopped = false ∧
      (sceneOf w13_11 3).run ≠ none ∧ (sceneOf w13_11 3).lateEpisode = false) ∧
    (Ready h0 w13_12 ∧ w13_12.scenes.length = 4 ∧ 3 < 4 ∧ (sceneOf w13_12 3).rec_ = some (recS 1 1000) ∧ (recS 1 1000).periodic = true ∧
      (recS 1 1000).periodUs ≠ 0 ∧ max w13_12.now 1000000 % (1000 * (recS 1 1000).periodUs) = 0 ∧ (sceneOf w13_12 3).stopped = false ∧
      (sceneOf w13_12 3).run = none) ∧
    (Ready h0 r0 ∧ r0.scenes.length = 4 ∧ (sceneOf r0 3).run = none) ∧
    (Ready h0 w13_13 ∧ w13_13.scenes.length = 4 ∧ (sceneOf w13_13 3).run = some run0 ∧ max w13_13.now 4 < run0.due) ∧
    (Ready h0 w13_14 ∧ w13_14.scenes.length = 4 ∧ 3 < 4 ∧ (sceneOf w13_14 3).run = some run0 ∧ run0.due ≤ max w13_14.now 5 ∧ run0.ref =
      none ∧ sourcesPoison run0 (passTo 5 w13_14) = none ∧ tornMask run0 (passTo 5 w13_14) = 0 ∧ (sceneOf w13_14 3).stops = [] ∧
      (sceneOf w13_14 3).loads = [] ∧ (sceneOf w13_14 3).runs = []) ∧
    (Ready h0 w13_15 ∧ w13_15.scenes.length = 4 ∧ 3 < 4 ∧ (sceneOf w13_15 3).run = none ∧ cacheDue 3 w13_15 = true ∧ (sceneOf w13_15
      3).rec_ = some (recS 0 0) ∧ (sceneOf w13_15 3).changes = []) ∧
    (Ready h0 w13_16 ∧ w13_16.scenes.length = 4 ∧ ((sceneOf w13_16 3).run ≠ none ∨ cacheDue 3 w13_16 = false)) ∧
    (Ready h0 w13_17 ∧ w13_17.scenes.length = 4 ∧ w13_17.edp.hpd = true) ∧
    (Ready h0 (setCfg 8519680 (4 + 16) r0) ∧ (setCfg 8519680 (4 + 16) r0).scenes.length = 4 ∧ (setCfg 8519680 (4 + 16) r0).edp.hpd =
      false ∧ List.find? (fun p => [(2, 1)].contains p) (edpSettings (setCfg 8519680 (4 + 16) r0)) = some (2, 1)) ∧
    (Ready h0 r0 ∧ r0.scenes.length = 4 ∧ r0.edp.trained = false) ∧
    (Ready h0 w13_17 ∧ w13_17.scenes.length = 4 ∧ w13_17.edp.trained = true ∧ w13_17.edp.bind = none ∧ w13_17.edp.scene = none) ∧
    (Ready h0 w13_20 ∧ w13_20.scenes.length = 4 ∧ 3 < 4 ∧ hostMem 536870912 576 w13_20 = true ∧ poisonIn 536870912 576 w13_20 = none ∧
      sceneOk (memRead 536870912 576 w13_20) w13_20 = true ∧ (isDisplay 3 w13_20 = false ∨ (readScene (memRead 536870912 576
      w13_20)).periodic = true) ∧ (sceneOf w13_20 3).run ≠ none) ∧
    (Ready h0 (withTor (scw 0 Scene.reset)) ∧ (withTor (scw 0 Scene.reset)).scenes.length = 4 ∧ 3 < 4 ∧ (sceneOf (withTor (scw 0
      Scene.reset)) 3).rec_ = some (recS 0 0) ∧ (recS 0 0).periodic = false ∧ 7 ≠ 0 ∧ refTime true 7 (withTor (scw 0 Scene.reset)) =
      some 1007) ∧
    (Ready h0 r0 ∧ r0.scenes.length = 4 ∧ 3 < 4 ∧ 7 ≠ 0 ∧ refTime true 7 r0 = none) ∧
    (Ready h0 w13_21 ∧ w13_21.scenes.length = 4 ∧ 3 < 4 ∧ isDisplay 3 w13_21 = false ∧ (sceneOf w13_21 3).run = none) ∧
    (Ready h0 w13_22 ∧ w13_22.scenes.length = 4 ∧ 3 < 4 ∧ isDisplay 3 w13_22 = false ∧ (sceneOf w13_22 3).run ≠ none) ∧
    (Ready h0 w13_23 ∧ w13_23.scenes.length = 4 ∧ 3 < 4 ∧ 0 < 8 ∧ 1 < 2 ∧ (sceneOf w13_23 3).rec_ = some recSur ∧ recSur.layers[0]? =
      some w13_24 ∧ (w13_24.source = 1 → have q' := { w13_24 with addr := if 536887296 = 0 then w13_24.addr else 536887296 }; hostMem
      (surfaceSpan q').1 (surfaceSpan q').2 w13_23 = true)) ∧
    (Ready h0 w13_25 ∧ w13_25.scenes.length = 4 ∧ 3 < 4 ∧ (sceneOf w13_25 3).rec_ = some w13_26 ∧ w13_26.outW = cfgF w13_25 8519684 0 13
      ∧ w13_26.outH = cfgF w13_25 8519688 0 13 ∧ w13_26.periodic = true ∧ 3 ≤ w13_26.count) ∧
    (Ready h0 w13_27 ∧ w13_27.scenes.length = 4 ∧ 3 < 4 ∧ (sceneOf w13_27 3).rec_ = some (recS 0 0) ∧ (recS 0 0).periodic = false ∧
      (sceneOf w13_27 3).runs = [((63, 9), 5)] ∧ (sceneOf w13_27 3).run = none ∧ 5 ≤ max w13_27.now 5) ∧
    (Ready h0 w13_28 ∧ w13_28.scenes.length = 4 ∧ 3 < 4 ∧ (sceneOf w13_28 3).rec_ = some (recS 0 0) ∧ (recS 0 0).periodic = false ∧
      ((sceneOf w13_28 3).runs = [] ∨ (sceneOf w13_28 3).run ≠ none)) ∧
    (Ready h0 w13_29 ∧ w13_29.scenes.length = 4 ∧ 3 < 4 ∧ (sceneOf w13_29 3).run = some runR ∧ runR.due ≤ max w13_29.now 5 ∧
      sourcesPoison runR (passTo 5 w13_29) = none) ∧
    (Ready h0 w13_30 ∧ w13_30.scenes.length = 4 ∧ (sceneOf w13_30 3).run = none ∧ cacheDue 3 w13_30 = true ∧ (sceneOf (takeChanges 3
      true (passTo 5 w13_30)).2 3).rec_ = some (recS 0 0)) ∧
    (Ready h0 w13_17 ∧ w13_17.scenes.length = 4 ∧ w13_17.edp.trained = true) ∧
    (Ready h0 (setCfg 8519680 (4 + 16) r0) ∧ (setCfg 8519680 (4 + 16) r0).scenes.length = 4 ∧ (setCfg 8519680 (4 + 16) r0).edp.hpd =
      false ∧ List.find? (fun p => [].contains p) (edpSettings (setCfg 8519680 (4 + 16) r0)) = none) ∧
    (Ready h0 w13_31 ∧ w13_31.scenes.length = 4 ∧ w13_31.edp.trained = true ∧ v13_8.edp.scene = none) ∧
    (Ready h0 w13_32 ∧ w13_32.scenes.length = 4 ∧ w13_32.edp.trained = true ∧ v13_9.edp.scene = some 3 ∧ (∀ (r : SceneRec), (sceneOf
      (takeSurface 3 v13_9) 3).rec_ = some r → r.periodUs ≠ 0)) ∧
    (Ready h0 w13_33 ∧ w13_33.scenes.length = 4 ∧ w13_33.edp.trained = true ∧ v13_10.edp.scene = some 3 ∧ (sceneOf (takeSurface 3
      v13_10) 3).rec_ = some (recS 1 0) ∧ (recS 1 0).periodUs = 0) :=
  ⟨⟨ready_of (by decide +kernel), by decide +kernel⟩,
   ⟨ready_of (by decide +kernel), by decide +kernel⟩,
   ⟨ready_of (by decide +kernel), by decide +kernel⟩,
   ⟨ready_of (by decide +kernel), by decide +kernel⟩,
   ⟨ready_of (by decide +kernel), by decide +kernel⟩,
   ⟨ready_of (by decide +kernel), by decide +kernel⟩,
   ⟨ready_of (by decide +kernel), by decide +kernel⟩,
   ⟨ready_of (by decide +kernel), by decide +kernel⟩,
   ⟨ready_of (by decide +kernel), by decide +kernel⟩,
   ⟨ready_of (by decide +kernel), by decide +kernel⟩,
   ⟨ready_of (by decide +kernel), by decide +kernel⟩,
   ⟨ready_of (by decide +kernel), by decide +kernel⟩,
   ⟨ready_of (by decide +kernel), by decide +kernel⟩,
   ⟨ready_of (by decide +kernel), by decide +kernel⟩,
   ⟨ready_of (by decide +kernel), by decide +kernel⟩,
   ⟨ready_of (by decide +kernel), by decide +kernel⟩,
   ⟨ready_of (by decide +kernel), by decide +kernel⟩,
   ⟨ready_of (by decide +kernel), by decide +kernel⟩,
   ⟨ready_of (by decide +kernel), by decide +kernel⟩,
   ⟨ready_of (by decide +kernel), by decide +kernel⟩,
   ⟨ready_of (by decide +kernel), by decide +kernel⟩,
   ⟨ready_of (by decide +kernel), by decide +kernel⟩,
   ⟨ready_of (by decide +kernel), by decide +kernel⟩,
   ⟨ready_of (by decide +kernel), by decide +kernel⟩,
   ⟨ready_of (by decide +kernel), by decide +kernel⟩,
   ⟨ready_of (by decide +kernel), by decide +kernel⟩,
   ⟨ready_of (by decide +kernel), by decide +kernel⟩,
   ⟨ready_of (by decide +kernel), by decide +kernel⟩,
   ⟨ready_of (by decide +kernel), by decide +kernel⟩,
   ⟨ready_of (by decide +kernel), by decide +kernel⟩,
   ⟨ready_of (by decide +kernel), by decide +kernel⟩,
   ⟨ready_of (by decide +kernel), by decide +kernel⟩,
   ⟨ready_of (by decide +kernel), by decide +kernel⟩,
   ⟨ready_of (by decide +kernel), by decide +kernel⟩,
   ⟨ready_of (by decide +kernel), by decide +kernel⟩,
   ⟨ready_of (by decide +kernel), by decide +kernel⟩,
   ⟨ready_of (by decide +kernel), by decide +kernel⟩,
   ⟨ready_of (by decide +kernel), by decide +kernel⟩,
   ⟨ready_of (by decide +kernel), by decide +kernel⟩,
   ⟨ready_of (by decide +kernel), by decide +kernel⟩,
   ⟨ready_of (by decide +kernel), by decide +kernel⟩,
   ⟨ready_of (by decide +kernel), by decide +kernel⟩,
   ⟨ready_of (by decide +kernel), by decide +kernel⟩⟩

theorem witness_BasinCommands :
    (Ready h0 r0 ∧ 7 < 8 ∧ 536870928 % 4 = 0 ∧ 536870912 % 4 = 0 ∧ 16 % 4 = 0 ∧ 4 ≤ 16 ∧ 16 ≤ 4294967292 ∧ hostMem 536870928 16 r0 =
      true ∧ hostMem 536870912 16 r0 = true ∧ (536870928 + 16 ≤ 536870912 ∨ 536870912 + 16 ≤ 536870928) ∧ poisonIn 536870912 16 r0 =
      none) ∧
    (Ready h0 (poisW r0) ∧ 7 < 8 ∧ 536870928 % 4 = 0 ∧ 536870912 % 4 = 0 ∧ 16 % 4 = 0 ∧ 4 ≤ 16 ∧ 16 ≤ 4294967292 ∧ hostMem 536870928 16
      (poisW r0) = true ∧ hostMem 536870912 16 (poisW r0) = true ∧ (536870928 + 16 ≤ 536870912 ∨ 536870912 + 16 ≤ 536870928) ∧ poisonIn
      536870912 16 (poisW r0) = some 536870920) ∧
    (Ready h0 r0 ∧ (8 ≤ 7 ∨ 536870924 % 4 ≠ 0 ∨ 536870912 % 4 ≠ 0 ∨ 16 % 4 ≠ 0 ∨ 16 < 4 ∨ hostMem 536870924 16 r0 = false ∨ hostMem
      536870912 16 r0 = false ∨ 536870912 < 536870924 + 16 ∧ 536870924 < 536870912 + 16)) ∧
    (Ready h0 r0 ∧ 7 < 8 ∧ 536870912 % 4 = 0 ∧ 4 % 4 = 0 ∧ 4 ≤ 4 ∧ 4 ≤ 4294967292 ∧ hostMem 536870912 4 r0 = true) ∧
    (Ready h0 r0 ∧ (8 ≤ 8 ∨ 536870912 % 4 ≠ 0 ∨ 4 % 4 ≠ 0 ∨ 4 < 4 ∨ hostMem 536870912 4 r0 = false)) ∧
    (Ready h0 r0 ∧ BitVec.getLsbD (254 : BitVec 8) 0 = false) ∧
    (Ready h0 r0 ∧ BitVec.getLsbD (1 : BitVec 8) 0 = true) ∧
    (Ready h0 r0 ∧ (rtPort r0 24).panic = false) ∧
    (Ready h0 r0 ∧ 16 ≤ 24 ∧ (rtPort r0 24).panic = false) ∧
    (Ready h0 w14_1 ∧ w14_1.basin.rt.length = 25 ∧ 24 < 25 ∧ (16 ≤ 24 ∨ tarnPanic w14_1 24 = false) ∧ (rtPort w14_1 24).panic = true) ∧
    (Ready h0 w14_2 ∧ anyPanic w14_2 = false ∧ 3 < w14_2.hk.stalls.length ∧ 3 < w14_2.basin.postponed.length) ∧
    (Ready h0 w14_3 ∧ anyPanic w14_3 = true ∧ (unit w14_3.basin.postponed 3 (0 : BitVec 4)).toNat < 8) ∧
    (Ready h0 w14_4 ∧ anyPanic w14_4 = true ∧ 8 ≤ (unit w14_4.basin.postponed 3 (0 : BitVec 4)).toNat) ∧
    (Ready h0 w14_1 ∧ ((rtPort w14_1 24).panic = false ∨ (rtPort w14_1 24).longRaised = true ∨ max w14_1.now 1000005 ≤ (rtPort w14_1
      24).panicSince + 1000000)) ∧
    (Ready h0 w14_1 ∧ w14_1.basin.rt.length = 25 ∧ 24 < 25 ∧ (rtPort w14_1 24).panic = true ∧ (rtPort w14_1 24).longRaised = false ∧
      (rtPort w14_1 24).panicSince + 1000000 < max w14_1.now 1000006) ∧
    (Ready h0 r0 ∧ (r0.basin.state ≠ (0 : BitVec 2) ∨ laneActive r0 = true ∨ anyPanic r0 = true ∨ max r0.now 999999 < r0.basin.lastReq +
      1000 * r0.basin.srIdle.toNat)) ∧
    (Ready h0 r0 ∧ r0.basin.state = (0 : BitVec 2) ∧ laneActive r0 = false ∧ anyPanic r0 = false ∧ r0.basin.lastReq + 1000 *
      r0.basin.srIdle.toNat ≤ max r0.now 1000000) ∧
    (Ready h0 r0 ∧ (r0.basin.eccEn = false ∨ r0.basin.scrubPeriod = (0 : BitVec 8) ∨ r0.power.state ≠ PowerState.on)) ∧
    (Ready h0 w14_5 ∧ w14_5.basin.eccEn = true ∧ w14_5.basin.scrubPeriod ≠ (0 : BitVec 8) ∧ w14_5.power.state = PowerState.on ∧
      w14_5.basin.poisoned = []) ∧
    (Ready h0 (armed r0) ∧ 15 < 16 ∧ (rtPort (armed r0) 15).panic = false ∧ tarnPanic (armed r0) 15 = true) ∧
    (Ready h0 r0 ∧ 15 < 16 ∧ tarnPanic r0 15 ≠ true) ∧
    (Ready h0 w14_5 ∧ w14_5.basin.eccEn = true ∧ w14_5.basin.scrubPeriod ≠ (0 : BitVec 8) ∧ w14_5.power.state = PowerState.on) ∧
    (Ready h0 w14_2 ∧ anyPanic w14_2 = false) :=
  ⟨⟨ready_of (by decide +kernel), by decide +kernel⟩,
   ⟨ready_of (by decide +kernel), by decide +kernel⟩,
   ⟨ready_of (by decide +kernel), by decide +kernel⟩,
   ⟨ready_of (by decide +kernel), by decide +kernel⟩,
   ⟨ready_of (by decide +kernel), by decide +kernel⟩,
   ⟨ready_of (by decide +kernel), by decide +kernel⟩,
   ⟨ready_of (by decide +kernel), by decide +kernel⟩,
   ⟨ready_of (by decide +kernel), by decide +kernel⟩,
   ⟨ready_of (by decide +kernel), by decide +kernel⟩,
   ⟨ready_of (by decide +kernel), by decide +kernel⟩,
   ⟨ready_of (by decide +kernel), by decide +kernel⟩,
   ⟨ready_of (by decide +kernel), by decide +kernel⟩,
   ⟨ready_of (by decide +kernel), by decide +kernel⟩,
   ⟨ready_of (by decide +kernel), by decide +kernel⟩,
   ⟨ready_of (by decide +kernel), by decide +kernel⟩,
   ⟨ready_of (by decide +kernel), by decide +kernel⟩,
   ⟨ready_of (by decide +kernel), by decide +kernel⟩,
   ⟨ready_of (by decide +kernel), by decide +kernel⟩,
   ⟨ready_of (by decide +kernel), by decide +kernel⟩,
   ⟨ready_of (by decide +kernel), by decide +kernel⟩,
   ⟨ready_of (by decide +kernel), by decide +kernel⟩,
   ⟨ready_of (by decide +kernel), by decide +kernel⟩,
   ⟨ready_of (by decide +kernel), by decide +kernel⟩⟩

theorem witness_CalibrationsAndHousekeeping :
    (Ready h0 r0 ∧ 6 < 7) ∧
    (Ready h0 r0) ∧
    (Ready h0 r0 ∧ 6 ≤ 6 ∧ calFused r0 6 (BitVec.toNat (1 : BitVec 128)) = false ∧ r0.hk.waits = []) ∧
    (Ready h0 w14_6 ∧ 31 < 32 ∧ 31 < w14_6.variant.ports ∧ w14_6.hk.waits = [wt3] ∧ wt3.kind = 3 ∧ wt3.unit = 31 ∧ calCommitted w14_6 3
      31 = false ∧ w14_6.hk.groups = []) ∧
    (Ready h0 r0 ∧ 2 < 3) ∧
    (Ready h0 r0 ∧ 2 ≤ 2) ∧
    (Ready h0 r0 ∧ 3 ≤ 6 ∧ 3 ≠ 6) ∧
    (Ready h0 w14_7 ∧ calRunning w14_7 6 0 = true ∧ w14_7.hk.groups = [] ∧ hkFloor w14_7 ≤ w14_7.hk.level.toNat ∧ w14_7.hk.kinds.length
      = 7) ∧
    (Ready h0 profD ∧ List.find? (fun w => decide (w.kind = 3) && decide (w.unit = 31)) profD.hk.waits = some wt3 ∧ (wt3.overdue = true
      ∨ max profD.now 1000000005 ≤ wt3.since + 1000000000 * profD.prof.system.calDeferS)) ∧
    (Ready h0 profD ∧ List.find? (fun w => decide (w.kind = 3) && decide (w.unit = 31)) profD.hk.waits = some wt3 ∧ wt3.overdue = false
      ∧ wt3.since + 1000000000 * profD.prof.system.calDeferS < max profD.now 1000000006) ∧
    (Ready h0 r0 ∧ (laneCal r0 127).gather = none) ∧
    (Ready h0 gat ∧ (laneCal gat 127).gather = some gth ∧ gth.n < 1024 ∧ gth.since + 1000000000 < max gat.now 1000000006) ∧
    (Ready h0 gat ∧ (laneCal gat 127).gather = some gth ∧ gth.n < 1024 ∧ max gat.now 1000000005 ≤ gth.since + 1000000000) ∧
    (Ready h0 w14_8 ∧ w14_8.power.state ≠ PowerState.on) ∧
    (Ready h0 w14_9 ∧ w14_9.power.state = PowerState.on ∧ w14_9.boot.sensorWait = true) ∧
    (Ready h0 w14_10 ∧ w14_10.hk.level = (1 : BitVec 2) ∧ w14_10.hk.thrCond = true ∧ w14_10.hk.levelSince + 2000000000 ≤ max w14_10.now
      2000000005) ∧
    (Ready h0 r0 ∧ r0.hk.thrCond = false ∧ r0.hk.relCond = false) ∧
    (Ready h0 r0 ∧ r0.hk.shutAt = none) ∧
    (Ready h0 w14_11 ∧ w14_11.hk.shutAt = some 5 ∧ w14_11.power.state = PowerState.on ∧ (axesStand w14_11 = true ∨ 5 + 2000000000 ≤ max
      w14_11.now 5)) ∧
    (Ready h0 w14_12 ∧ w14_12.hk.shutAt = some 5 ∧ w14_12.power.state = PowerState.on ∧ (axesStand w14_12 = true ∨ 5 + 2000000000 ≤ max
      w14_12.now 2000000005)) ∧
    (Ready h0 w14_12 ∧ w14_12.hk.shutAt = some 5 ∧ axesStand w14_12 = false ∧ max w14_12.now 2000000004 < 5 + 2000000000) ∧
    (Ready h0 r0 ∧ 1 ≤ 4 ∧ 4 ≤ 4 ∧ (calUnits r0 4 (BitVec.toNat (0 : BitVec 128))).2 = false ∧ (4 = 1 → ∀ l ∈ (calUnits r0 4
      (BitVec.toNat (0 : BitVec 128))).1, powerReady r0 l = true) ∧ (true = true → calIdle r0 4 (calUnits r0 4 (BitVec.toNat (0 : BitVec
      128))).1 = true) ∧ (calUnits r0 4 (BitVec.toNat (0 : BitVec 128))).1 = []) ∧
    (Ready h0 r0 ∧ 1 ≤ 3 ∧ 3 ≤ 4 ∧ (calUnits r0 3 (BitVec.toNat (1 : BitVec 128))).2 = false ∧ (3 = 1 → ∀ l ∈ (calUnits r0 3
      (BitVec.toNat (1 : BitVec 128))).1, powerReady r0 l = true) ∧ (true = true → calIdle r0 3 (calUnits r0 3 (BitVec.toNat (1 : BitVec
      128))).1 = true) ∧ (calUnits r0 3 (BitVec.toNat (1 : BitVec 128))).1 ≠ [] ∧ runsNow (accept h0 144 r0) 3 (calUnits r0 3
      (BitVec.toNat (1 : BitVec 128))).1 = true) ∧
    (Ready h0 w14_18 ∧ 1 ≤ 3 ∧ 3 ≤ 4 ∧ (calUnits w14_18 3 (BitVec.toNat (1 : BitVec 128))).2 = false ∧ (3 = 1 → ∀ l ∈ (calUnits w14_18 3
      (BitVec.toNat (1 : BitVec 128))).1, powerReady w14_18 l = true) ∧ (false = true → calIdle w14_18 3 (calUnits w14_18 3
      (BitVec.toNat (1 : BitVec 128))).1 = true) ∧ (calUnits w14_18 3 (BitVec.toNat (1 : BitVec 128))).1 ≠ [] ∧ runsNow (accept h0 144
      w14_18) 3 (calUnits w14_18 3 (BitVec.toNat (1 : BitVec 128))).1 = false) ∧
    (Ready h0 r0 ∧ (calUnits r0 0 (BitVec.toNat (0 : BitVec 128))).2 = false ∧ (true = true → calIdle r0 0 (calUnits r0 0 (BitVec.toNat
      (0 : BitVec 128))).1 = true) ∧ v14_7 = []) ∧
    (Ready h0 calLane ∧ (calUnits calLane 0 (BitVec.toNat (1 : BitVec 128))).2 = false ∧ (false = true → calIdle calLane 0 (calUnits
      calLane 0 (BitVec.toNat (1 : BitVec 128))).1 = true) ∧ v14_9 ≠ []) ∧
    (Ready h0 r0 ∧ (calUnits r0 5 (BitVec.toNat (8 : BitVec 128))).2 = false ∧ (calUnits r0 5 (BitVec.toNat (8 : BitVec 128))).1 ≠ []) ∧
    (Ready h0 r0 ∧ 4 ≤ 6 ∧ (calUnits r0 4 (BitVec.toNat (16 : BitVec 128))).2 = true) ∧
    (Ready h0 w14_18 ∧ 3 ≤ 4 ∧ (calUnits w14_18 3 (BitVec.toNat (1 : BitVec 128))).2 = false ∧ (3 = 1 → ∀ l ∈ (calUnits w14_18 3
      (BitVec.toNat (1 : BitVec 128))).1, powerReady w14_18 l = true) ∧ calIdle w14_18 3 (calUnits w14_18 3 (BitVec.toNat (1 : BitVec
      128))).1 = false) ∧
    (Ready h0 r0 ∧ 3 ≤ 6 ∧ calFused r0 3 (BitVec.ofNat 128 (2 ^ 127)).toNat = true) ∧
    (Ready h0 w14_19 ∧ 3 ≤ 6 ∧ calFused w14_19 3 (BitVec.ofNat 128 (2 ^ 31)).toNat = false) ∧
    (Ready h0 w14_20 ∧ 5 < 6) ∧
    (Ready h0 w14_7) ∧
    (Ready h0 w14_21 ∧ (w14_21.hk.level ≠ (1 : BitVec 2) ∨ w14_21.hk.thrCond = false ∨ max w14_21.now 1000000005 < w14_21.hk.levelSince
      + 2000000000) ∧ w14_21.hk.relCond = true ∧ w14_21.hk.relSince = some 5 ∧ 5 + 1000000000 ≤ max w14_21.now 1000000005) ∧
    (Ready h0 w14_11 ∧ w14_11.power.state = PowerState.on ∧ w14_11.boot.sensorWait = false ∧ w14_11.hk.shutAt ≠ none) ∧
    (Ready h0 r0 ∧ (shutdownDue (recRound v14_16) = none) ∧ r0.power.state = PowerState.on ∧ r0.boot.sensorWait = false ∧ r0.hk.shutAt =
      none) ∧
    (Ready h0 r0 ∧ r0.power.state = PowerState.on ∧ r0.boot.sensorWait = false ∧ r0.hk.shutAt = none ∧ shutdownDue (recRound v14_18) =
      some (1, 18)) :=
  ⟨⟨ready_of (by decide +kernel), by decide +kernel⟩,
   ready_of (by decide +kernel),
   ⟨ready_of (by decide +kernel), by decide +kernel⟩,
   ⟨ready_of (by decide +kernel), by decide +kernel⟩,
   ⟨ready_of (by decide +kernel), by decide +kernel⟩,
   ⟨ready_of (by decide +kernel), by decide +kernel⟩,
   ⟨ready_of (by decide +kernel), by decide +kernel⟩,
   ⟨ready_of (by decide +kernel), by decide +kernel⟩,
   ⟨ready_of (by decide +kernel), by decide +kernel⟩,
   ⟨ready_of (by decide +kernel), by decide +kernel⟩,
   ⟨ready_of (by decide +kernel), by decide +kernel⟩,
   ⟨ready_of (by decide +kernel), by decide +kernel⟩,
   ⟨ready_of (by decide +kernel), by decide +kernel⟩,
   ⟨ready_of (by decide +kernel), by decide +kernel⟩,
   ⟨ready_of (by decide +kernel), by decide +kernel⟩,
   ⟨ready_of (by decide +kernel), by decide +kernel⟩,
   ⟨ready_of (by decide +kernel), by decide +kernel⟩,
   ⟨ready_of (by decide +kernel), by decide +kernel⟩,
   ⟨ready_of (by decide +kernel), by decide +kernel⟩,
   ⟨ready_of (by decide +kernel), by decide +kernel⟩,
   ⟨ready_of (by decide +kernel), by decide +kernel⟩,
   ⟨ready_of (by decide +kernel), by decide +kernel⟩,
   ⟨ready_of (by decide +kernel), by decide +kernel⟩,
   ⟨ready_of (by decide +kernel), by decide +kernel⟩,
   ⟨ready_of (by decide +kernel), by decide +kernel⟩,
   ⟨ready_of (by decide +kernel), by decide +kernel⟩,
   ⟨ready_of (by decide +kernel), by decide +kernel⟩,
   ⟨ready_of (by decide +kernel), by decide +kernel⟩,
   ⟨ready_of (by decide +kernel), by decide +kernel⟩,
   ⟨ready_of (by decide +kernel), by decide +kernel⟩,
   ⟨ready_of (by decide +kernel), by decide +kernel⟩,
   ⟨ready_of (by decide +kernel), by decide +kernel⟩,
   ready_of (by decide +kernel),
   ⟨ready_of (by decide +kernel), by decide +kernel⟩,
   ⟨ready_of (by decide +kernel), by decide +kernel⟩,
   ⟨ready_of (by decide +kernel), rails_at_nominal, by decide +kernel⟩,
   ⟨ready_of (by decide +kernel), by decide +kernel⟩⟩

theorem witness_RecorderRecordsAndClears :
    (Ready h0 r0 ∧ r0.recorder.write = none ∧ r0.recorder.waits = []) ∧
    (Ready h0 w14_13 ∧ 8 ≤ w14_13.recorder.authFail.toNat) ∧
    (Ready h0 w14_14 ∧ w14_14.recorder.authFail.toNat < 8) ∧
    (Ready h0 (withJob (build (5 : BitVec 4))) ∧ jobExists (withJob (build (5 : BitVec 4))) = true) ∧
    (Ready h0 r0 ∧ jobExists r0 = false ∧ r0.recorder.write = none ∧ r0.recorder.waits = [] ∧ r0.recorder.asked = [] ∧ r0.recorder.nonce
      = none ∧ r0.recorder.clears.toNat < 256) ∧
    (Ready h0 nonced ∧ jobExists nonced = false ∧ nonced.recorder.write = none ∧ nonced.recorder.waits = [] ∧ nonced.recorder.asked = []
      ∧ nonced.recorder.clears.toNat < 256 ∧ nonced.ident.otp.ownerClearKey = some okey ∧ nonced.recorder.nonce = some ((77 : BitVec
      64), 5) ∧ nonced.now < 5 + 60000000000 ∧ clearToken okey (BitVec.toNat (77 : BitVec 64)) nonced = padTo 8 (clearToken okey 77
      nonced)) ∧
    (Ready h0 (keyed r0) ∧ ((keyed r0).ident.otp.ownerClearKey ≠ none ∨ jobExists (keyed r0) = true)) ∧
    (Ready h0 (noKey r0) ∧ (noKey r0).ident.otp.ownerClearKey = none ∧ jobExists (noKey r0) = false ∧ hostMem 536870911 64 (noKey r0) =
      false) ∧
    (Ready h0 (noKey r0) ∧ (noKey r0).ident.otp.ownerClearKey = none ∧ jobExists (noKey r0) = false ∧ hostMem 536870912 64 (noKey r0) =
      true ∧ poisonIn 536870912 64 (noKey r0) = none ∧ allZero (List.drop 16 (memRead 536870912 64 (noKey r0))) = true) ∧
    (Ready h0 r0 ∧ r0.recorder.write = none) ∧
    (Ready h0 w14_15 ∧ w14_15.recorder.write = some (wr0 1) ∧ (wr0 1).log = false ∧ (wr0 1).due.kind ≠ 8 ∧ (wr0 1).due.refs = [] ∧
      w14_15.recorder.waits = [] ∧ w14_15.recorder.asked = []) ∧
    (Ready h0 w14_16 ∧ w14_16.recorder.write = some (wr0 1) ∧ max w14_16.now 20000004 < (wr0 1).since + 20000000) ∧
    (Ready h0 w14_16 ∧ w14_16.recorder.write = some (wr0 1) ∧ (wr0 1).since + 20000000 ≤ max w14_16.now 20000005 ∧ (wr0 1).log = false ∧
      (wr0 1).fails < 3) ∧
    (Ready h0 nonced ∧ nonced.recorder.nonce = some ((77 : BitVec 64), 5) ∧ 5 + 60000000000 ≤ max nonced.now 60000000005) ∧
    (Ready h0 nonced ∧ nonced.recorder.nonce = some ((77 : BitVec 64), 5) ∧ max nonced.now 60000000004 < 5 + 60000000000) ∧
    (Ready h0 w14_8 ∧ w14_8.power.state = PowerState.standby) ∧
    (Ready h0 w14_17 ∧ w14_17.power.state = PowerState.on ∧ 7 < 8 ∧ w14_17.recorder.second = (List.replicate 8 none).set 7 (some (-5 :
      Int))) ∧
    (Ready h0 r0 ∧ r0.power.state = PowerState.on ∧ r0.recorder.second = List.replicate 8 none) ∧
    (Ready h0 r0 ∧ r0.power.state = PowerState.on ∧ ((BitVec.ofNat 32 (10 * 8192)).toNat % 4 = 3 ∨ 9 < (BitVec.ofNat 32 (10 *
      8192)).toNat / 8192 % 16)) ∧
    (Ready h0 r0 ∧ r0.power.state = PowerState.on ∧ (BitVec.ofNat 32 (9 * 8192 + 255 * 4 + 1)).toNat % 4 < 3 ∧ ((BitVec.ofNat 32 (9 *
      8192 + 255 * 4 + 1)).toNat / 4 % 2048 ≤ if (BitVec.ofNat 32 (9 * 8192 + 255 * 4 + 1)).toNat % 4 = 1 then 255 else 1791) ∧
      (BitVec.ofNat 32 (9 * 8192 + 255 * 4 + 1)).toNat / 8192 % 16 ≤ 9) ∧
    (Ready h0 r0 ∧ r0.power.state = PowerState.on ∧ 62 < 63) ∧
    (Ready h0 w14_16 ∧ w14_16.recorder.write ≠ none) ∧
    (Ready h0 w14_16 ∧ jobExists w14_16 = false ∧ w14_16.recorder.write ≠ none) ∧
    (Ready h0 r0 ∧ jobExists r0 = false) ∧
    (Ready h0 (memPut 536870960 [(1 : Byte)] (noKey r0)) ∧ (memPut 536870960 [(1 : Byte)] (noKey r0)).ident.otp.ownerClearKey = none ∧
      jobExists (memPut 536870960 [(1 : Byte)] (noKey r0)) = false ∧ hostMem 536870912 64 (memPut 536870960 [(1 : Byte)] (noKey r0)) =
      true ∧ poisonIn 536870912 64 (memPut 536870960 [(1 : Byte)] (noKey r0)) = none ∧ allZero (List.drop 48 (memRead 536870912 64
      (memPut 536870960 [(1 : Byte)] (noKey r0)))) = false) ∧
    (Ready h0 (memPut 536870928 [(1 : Byte)] (noKey r0)) ∧ (memPut 536870928 [(1 : Byte)] (noKey r0)).ident.otp.ownerClearKey = none ∧
      jobExists (memPut 536870928 [(1 : Byte)] (noKey r0)) = false ∧ hostMem 536870912 64 (memPut 536870928 [(1 : Byte)] (noKey r0)) =
      true ∧ poisonIn 536870912 64 (memPut 536870928 [(1 : Byte)] (noKey r0)) = none ∧ allZero (List.drop 48 (memRead 536870912 64
      (memPut 536870928 [(1 : Byte)] (noKey r0)))) = true) ∧
    (Ready h0 w14_16 ∧ w14_16.recorder.write = some (wr0 1) ∧ (wr0 1).log = false) ∧
    (Ready h0 w14_22 ∧ w14_22.recorder.write = some wrL ∧ wrL.log = true) ∧
    (Ready h0 w14_22 ∧ w14_22.recorder.write = some wrL ∧ wrL.since + 20000000 ≤ max w14_22.now 20000005 ∧ wrL.log = true) ∧
    (Ready h0 w14_23 ∧ w14_23.recorder.write = some w14_24 ∧ w14_24.since + 20000000 ≤ max w14_23.now 20000005 ∧ w14_24.log = false ∧ 3
      ≤ w14_24.fails) ∧
    (Ready h0 w14_25 ∧ w14_25.power.state = PowerState.on) ∧
    (Ready h0 w14_26 ∧ w14_26.power.state = PowerState.on) :=
  ⟨⟨ready_of (by decide +kernel), by decide +kernel⟩,
   ⟨ready_of (by decide +kernel), by decide +kernel⟩,
   ⟨ready_of (by decide +kernel), by decide +kernel⟩,
   ⟨ready_of (by decide +kernel), by decide +kernel⟩,
   ⟨ready_of (by decide +kernel), by decide +kernel⟩,
   ⟨ready_of (by decide +kernel), by decide +kernel⟩,
   ⟨ready_of (by decide +kernel), by decide +kernel⟩,
   ⟨ready_of (by decide +kernel), by decide +kernel⟩,
   ⟨ready_of (by decide +kernel), by decide +kernel⟩,
   ⟨ready_of (by decide +kernel), by decide +kernel⟩,
   ⟨ready_of (by decide +kernel), by decide +kernel⟩,
   ⟨ready_of (by decide +kernel), by decide +kernel⟩,
   ⟨ready_of (by decide +kernel), by decide +kernel⟩,
   ⟨ready_of (by decide +kernel), by decide +kernel⟩,
   ⟨ready_of (by decide +kernel), by decide +kernel⟩,
   ⟨ready_of (by decide +kernel), by decide +kernel⟩,
   ⟨ready_of (by decide +kernel), by decide +kernel⟩,
   ⟨ready_of (by decide +kernel), by decide +kernel⟩,
   ⟨ready_of (by decide +kernel), by decide +kernel⟩,
   ⟨ready_of (by decide +kernel), by decide +kernel⟩,
   ⟨ready_of (by decide +kernel), by decide +kernel⟩,
   ⟨ready_of (by decide +kernel), by decide +kernel⟩,
   ⟨ready_of (by decide +kernel), by decide +kernel⟩,
   ⟨ready_of (by decide +kernel), by decide +kernel⟩,
   ⟨ready_of (by decide +kernel), by decide +kernel⟩,
   ⟨ready_of (by decide +kernel), by decide +kernel⟩,
   ⟨ready_of (by decide +kernel), by decide +kernel⟩,
   ⟨ready_of (by decide +kernel), by decide +kernel⟩,
   ⟨ready_of (by decide +kernel), by decide +kernel⟩,
   ⟨ready_of (by decide +kernel), by decide +kernel⟩,
   ⟨ready_of (by decide +kernel), by decide +kernel⟩,
   ⟨ready_of (by decide +kernel), by decide +kernel⟩⟩

theorem witness_DescriptorsDecodeToWhatTheyEncode :
    ((Instr.basinFill h0 7 3735928559 536870912 4).wf = true ∧ descriptorFields (Instr.basinFill h0 7 3735928559 536870912 4) = some
      (h0, 129, w15_1)) :=
  by decide +kernel
/-! ### Ill-formed commands (one for each check of WellFormed) -/

def hRing : Hdr := { h0 with ring := 64 }

def qOk : MgmtReq := mq 3 4 0x20000000 []

def qSrc : MgmtReq := { qOk with src := 2 ^ 128 }

def helloOk : Hello :=
  { member := 1, moduleId := 1, headerOk := true, state := 0, prio := 0, leaderId := 0, machineId := 0, serial := 0, term := 0
    jobState := 0, jobId := 0 }

def helloWide : Hello := { helloOk with member := 8 }

def leadOk : LeaderMsg := { member := 1, moduleId := 1, valid := true, term := 0, mask := 0 }

def leadWide : LeaderMsg := { leadOk with mask := 256 }

/-- A command is well formed, and those beside it are not. -/
def refuses (i : Instr) (bad : List Instr) : Bool := i.wf && bad.all fun j => !j.wf

theorem test_headers_and_frames_refused :
    ([h0.wf, !hRing.wf, !Hdr.wf { h0 with index := 4096 }, qOk.wf, !qSrc.wf,
     !MgmtReq.wf { qOk with magic := 65536 }, !MgmtReq.wf { qOk with version := 256 }, !MgmtReq.wf { qOk with seq := 65536 },
     !MgmtReq.wf { qOk with address := 2 ^ 64 }, !MgmtReq.wf { qOk with count := 65536 }, !MgmtReq.wf { qOk with crc := 2 ^ 32 },
     helloOk.wf, !helloWide.wf, !Hello.wf { helloOk with moduleId := 1024 }, !Hello.wf { helloOk with state := 256 },
     !Hello.wf { helloOk with prio := 256 }, !Hello.wf { helloOk with leaderId := 65536 },
     !Hello.wf { helloOk with machineId := 2 ^ 32 }, !Hello.wf { helloOk with serial := 2 ^ 64 },
     !Hello.wf { helloOk with term := 2 ^ 32 }, !Hello.wf { helloOk with jobState := 256 }, !Hello.wf { helloOk with jobId := 2 ^ 32 },
     leadOk.wf, !leadWide.wf, !LeaderMsg.wf { leadOk with member := 8 }, !LeaderMsg.wf { leadOk with moduleId := 1024 },
     !LeaderMsg.wf { leadOk with term := 2 ^ 32 }] : List Bool).all id = true := by
  decide +kernel

theorem test_illformed_refused_1 :
    ([refuses (.nop h0) [.nop hRing],
     refuses (.fence h0 0 false) [.fence hRing 0 false],
     refuses (.snapshotNow h0) [.snapshotNow hRing],
     refuses (.cfgStage h0 0 0 0) [.cfgStage hRing 0 0 0, .cfgStage h0 256 0 0, .cfgStage h0 0 65536 0, .cfgStage h0 0 0
       18446744073709551616],
     refuses (.cfgCommit h0 0 false 0) [.cfgCommit hRing 0 false 0, .cfgCommit h0 0 false 18446744073709551616],
     refuses (.heartbeat h0) [.heartbeat hRing],
     refuses (.cfgAbort h0 0) [.cfgAbort hRing 0],
     refuses (.snapshotCfg h0 false false 0 0) [.snapshotCfg hRing false false 0 0, .snapshotCfg h0 false false 18446744073709551616 0,
       .snapshotCfg h0 false false 0 4294967296],
     refuses (.eventRing h0 0 0) [.eventRing hRing 0 0, .eventRing h0 18446744073709551616 0, .eventRing h0 0 4294967296],
     refuses (.eventRoute h0 0 0 0) [.eventRoute hRing 0 0 0, .eventRoute h0 0 0 256],
     refuses (.jobStart h0 0) [.jobStart hRing 0, .jobStart h0 18446744073709551616],
     refuses (.jobEnd h0 0) [.jobEnd hRing 0, .jobEnd h0 256],
     refuses (.layerQueue h0 0) [.layerQueue hRing 0, .layerQueue h0 18446744073709551616],
     refuses (.layerCancel h0 0) [.layerCancel hRing 0, .layerCancel h0 4294967296],
     refuses (.jobHold h0) [.jobHold hRing],
     refuses (.jobResume h0 0) [.jobResume hRing 0, .jobResume h0 256],
     refuses (.laneReenable h0 0) [.laneReenable hRing 0],
     refuses (.markQueue h0 0 0 0 0 0) [.markQueue hRing 0 0 0 0 0, .markQueue h0 256 0 0 0 0, .markQueue h0 0 4294967296 0 0 0,
       .markQueue h0 0 0 18446744073709551616 0 0, .markQueue h0 0 0 0 18446744073709551616 0, .markQueue h0 0 0 0 0 4294967296],
     refuses (.laneLimits h0 0 false false false 0 0 0) [.laneLimits hRing 0 false false false 0 0 0, .laneLimits h0 0 false false false
       4294967296 0 0, .laneLimits h0 0 false false false 0 4294967296 0, .laneLimits h0 0 false false false 0 0 4294967296],
     refuses (.laneTrims h0 0 0 0 0 0 0) [.laneTrims hRing 0 0 0 0 0 0, .laneTrims h0 0 2147483648 0 0 0 0, .laneTrims h0 0 0 2147483648
       0 0 0, .laneTrims h0 0 0 0 2147483648 0 0, .laneTrims h0 0 0 0 0 2147483648 0, .laneTrims h0 0 0 0 0 0 2147483648],
     refuses (.laneGridLoad h0 0 0 0) [.laneGridLoad hRing 0 0 0, .laneGridLoad h0 256 0 0, .laneGridLoad h0 0 256 0, .laneGridLoad h0 0
       0 18446744073709551616],
     refuses (.mereSaveCfg h0 0 0 0) [.mereSaveCfg hRing 0 0 0, .mereSaveCfg h0 18446744073709551616 0 0, .mereSaveCfg h0 0 4294967296
       0, .mereSaveCfg h0 0 0 65536],
     refuses (.mereSaveNow h0 0) [.mereSaveNow hRing 0, .mereSaveNow h0 4294967296],
     refuses (.mereFieldSet h0 0 0 0) [.mereFieldSet hRing 0 0 0, .mereFieldSet h0 256 0 0, .mereFieldSet h0 0 65536 0, .mereFieldSet h0
       0 0 18446744073709551616],
     refuses (.mereCoeff h0 0 0 0 0 0 0) [.mereCoeff hRing 0 0 0 0 0 0, .mereCoeff h0 64 0 0 0 0 0, .mereCoeff h0 0 4294967296 0 0 0 0,
       .mereCoeff h0 0 0 4294967296 0 0 0, .mereCoeff h0 0 0 0 4294967296 0 0, .mereCoeff h0 0 0 0 0 65536 0, .mereCoeff h0 0 0 0 0 0
       65536],
     refuses (.loopCurveLoad h0 0 0) [.loopCurveLoad hRing 0 0, .loopCurveLoad h0 256 0, .loopCurveLoad h0 0 18446744073709551616],
     refuses (.proxSepSet h0 0 0 0 0) [.proxSepSet hRing 0 0 0 0, .proxSepSet h0 256 0 0 0, .proxSepSet h0 0 256 0 0, .proxSepSet h0 0 0
       4294967296 0, .proxSepSet h0 0 0 0 18446744073709551616],
     refuses (.proxZoneCtrl h0 0 0 0) [.proxZoneCtrl hRing 0 0 0, .proxZoneCtrl h0 256 0 0, .proxZoneCtrl h0 0 0 18446744073709551616],
     refuses (.proxPlumeSet h0 0 0 0 0 0 0) [.proxPlumeSet hRing 0 0 0 0 0 0, .proxPlumeSet h0 256 0 0 0 0 0, .proxPlumeSet h0 0 32768 0
       0 0 0, .proxPlumeSet h0 0 0 32768 0 0 0, .proxPlumeSet h0 0 0 0 4294967296 0 0, .proxPlumeSet h0 0 0 0 0 4294967296 0,
       .proxPlumeSet h0 0 0 0 0 0 18446744073709551616],
     refuses (.trigOutSet h0 0 false false false 0 0 0 0 0) [.trigOutSet hRing 0 false false false 0 0 0 0 0, .trigOutSet h0 256 false
       false false 0 0 0 0 0, .trigOutSet h0 0 false false false 256 0 0 0 0, .trigOutSet h0 0 false false false 0 4294967296 0 0 0,
       .trigOutSet h0 0 false false false 0 0 18446744073709551616 0 0, .trigOutSet h0 0 false false false 0 0 0 4294967296 0,
       .trigOutSet h0 0 false false false 0 0 0 0 4294967296],
     refuses (.trigOutStop h0 0 0) [.trigOutStop hRing 0 0, .trigOutStop h0 0 18446744073709551616],
     refuses (.trigInCfg h0 0 0 0 0) [.trigInCfg hRing 0 0 0 0, .trigInCfg h0 256 0 0 0, .trigInCfg h0 0 256 0 0, .trigInCfg h0 0 0 256
       0, .trigInCfg h0 0 0 0 256],
     refuses (.trigInRing h0 0 0) [.trigInRing hRing 0 0, .trigInRing h0 18446744073709551616 0, .trigInRing h0 0 4294967296],
     refuses (.timeSet h0 0 0 0) [.timeSet hRing 0 0 0, .timeSet h0 65536 0 0, .timeSet h0 0 4294967296 0, .timeSet h0 0 0
       281474976710656],
     refuses (.ppsOutCfg h0 0 0) [.ppsOutCfg hRing 0 0, .ppsOutCfg h0 256 0, .ppsOutCfg h0 0 4294967296],
     refuses (.axisMove h0 0 false false 0 0 0 0 0) [.axisMove hRing 0 false false 0 0 0 0 0, .axisMove h0 256 false false 0 0 0 0 0,
       .axisMove h0 0 false false 9223372036854775808 0 0 0 0, .axisMove h0 0 false false 0 4294967296 0 0 0, .axisMove h0 0 false false
       0 0 4294967296 0 0, .axisMove h0 0 false false 0 0 0 4294967296 0, .axisMove h0 0 false false 0 0 0 0 18446744073709551616],
     refuses (.axisLimits h0 0 false 0 0 0) [.axisLimits hRing 0 false 0 0 0, .axisLimits h0 0 false 4294967296 0 0, .axisLimits h0 0
       false 0 4294967296 0, .axisLimits h0 0 false 0 0 4294967296],
     refuses (.axisStop h0 0 false) [.axisStop hRing 0 false],
     refuses (.axisEnable h0 0 0) [.axisEnable hRing 0 0],
     refuses (.axisHome h0 0 false 0 0 0 0 0) [.axisHome hRing 0 false 0 0 0 0 0, .axisHome h0 256 false 0 0 0 0 0, .axisHome h0 0 false
       4 0 0 0 0, .axisHome h0 0 false 0 256 0 0 0, .axisHome h0 0 false 0 0 4294967296 0 0, .axisHome h0 0 false 0 0 0
       9223372036854775808 0, .axisHome h0 0 false 0 0 0 0 4294967296]] : List Bool).all id = true := by
  decide +kernel

theorem test_illformed_refused_2 :
    ([refuses (.axisSetPos h0 0 0) [.axisSetPos hRing 0 0, .axisSetPos h0 256 0, .axisSetPos h0 0 9223372036854775808],
     refuses (.encPreset h0 0 0) [.encPreset hRing 0 0, .encPreset h0 0 9223372036854775808],
     refuses (.cmpSet h0 0 false false 0 0 0 0) [.cmpSet hRing 0 false false 0 0 0 0, .cmpSet h0 256 false false 0 0 0 0, .cmpSet h0 0
       false false 256 0 0 0, .cmpSet h0 0 false false 0 4294967296 0 0, .cmpSet h0 0 false false 0 0 9223372036854775808 0, .cmpSet h0
       0 false false 0 0 0 65536],
     refuses (.echoSet h0 0 false 0 0 0) [.echoSet hRing 0 false 0 0 0, .echoSet h0 256 false 0 0 0, .echoSet h0 0 false 256 0 0,
       .echoSet h0 0 false 0 65536 0, .echoSet h0 0 false 0 0 65536],
     refuses (.faultClear h0 0 0 0) [.faultClear hRing 0 0 0],
     refuses (.camStream h0 0 false) [.camStream hRing 0 false, .camStream h0 256 false],
     refuses (.camExpWrite h0 0 0 0 0 0 0) [.camExpWrite hRing 0 0 0 0 0 0, .camExpWrite h0 256 0 0 0 0 0, .camExpWrite h0 0 4294967296
       0 0 0 0, .camExpWrite h0 0 0 4294967296 0 0 0, .camExpWrite h0 0 0 0 256 0 0, .camExpWrite h0 0 0 0 0 256 0, .camExpWrite h0 0 0
       0 0 0 18446744073709551616],
     refuses (.camExpCommit h0 0 0) [.camExpCommit hRing 0 0, .camExpCommit h0 256 0, .camExpCommit h0 0 18446744073709551616],
     refuses (.camTrigger h0 0 0) [.camTrigger hRing 0 0, .camTrigger h0 256 0, .camTrigger h0 0 18446744073709551616],
     refuses (.camCci h0 0 false false 0 0) [.camCci hRing 0 false false 0 0, .camCci h0 256 false false 0 0, .camCci h0 0 false false
       65536 0, .camCci h0 0 false false 0 65536],
     refuses (.camRing h0 0 0 0 0) [.camRing hRing 0 0 0 0, .camRing h0 256 0 0 0, .camRing h0 0 18446744073709551616 0 0, .camRing h0 0
       0 4294967296 0, .camRing h0 0 0 0 65536],
     refuses (.ledSet h0 0 0 0 0) [.ledSet hRing 0 0 0 0, .ledSet h0 65536 0 0 0, .ledSet h0 0 65536 0 0, .ledSet h0 0 0 65536 0,
       .ledSet h0 0 0 0 18446744073709551616],
     refuses (.ledMatrixWrite h0 0) [.ledMatrixWrite hRing 0, .ledMatrixWrite h0 18446744073709551616],
     refuses (.ledFaultClear h0 0 false) [.ledFaultClear hRing 0 false, .ledFaultClear h0 65536 false],
     refuses (.colorTarget h0 0 0) [.colorTarget hRing 0 0, .colorTarget h0 256 0, .colorTarget h0 0 65536],
     refuses (.zipEncode h0 0 0 0 0 0 0 0 0 0) [.zipEncode hRing 0 0 0 0 0 0 0 0 0, .zipEncode h0 256 0 0 0 0 0 0 0 0, .zipEncode h0 0
       256 0 0 0 0 0 0 0, .zipEncode h0 0 0 256 0 0 0 0 0 0, .zipEncode h0 0 0 0 256 0 0 0 0 0, .zipEncode h0 0 0 0 0 65536 0 0 0 0,
       .zipEncode h0 0 0 0 0 0 18446744073709551616 0 0 0, .zipEncode h0 0 0 0 0 0 0 4294967296 0 0, .zipEncode h0 0 0 0 0 0 0 0
       18446744073709551616 0, .zipEncode h0 0 0 0 0 0 0 0 0 4294967296],
     refuses (.zipOpen h0 0 0 0 0 0 0 0) [.zipOpen hRing 0 0 0 0 0 0 0, .zipOpen h0 256 0 0 0 0 0 0, .zipOpen h0 0 256 0 0 0 0 0,
       .zipOpen h0 0 0 256 0 0 0 0, .zipOpen h0 0 0 0 256 0 0 0, .zipOpen h0 0 0 0 0 65536 0 0, .zipOpen h0 0 0 0 0 0
       18446744073709551616 0, .zipOpen h0 0 0 0 0 0 0 4294967296],
     refuses (.zipFeed h0 0 0 0 0) [.zipFeed hRing 0 0 0 0, .zipFeed h0 256 0 0 0, .zipFeed h0 0 256 0 0, .zipFeed h0 0 0
       18446744073709551616 0, .zipFeed h0 0 0 0 4294967296],
     refuses (.zipFlush h0 0) [.zipFlush hRing 0, .zipFlush h0 256],
     refuses (.zipDecode h0 0 0 0 0 0 0) [.zipDecode hRing 0 0 0 0 0 0, .zipDecode h0 256 0 0 0 0 0, .zipDecode h0 0 256 0 0 0 0,
       .zipDecode h0 0 0 18446744073709551616 0 0 0, .zipDecode h0 0 0 0 4294967296 0 0, .zipDecode h0 0 0 0 0 18446744073709551616 0,
       .zipDecode h0 0 0 0 0 0 4294967296],
     refuses (.composeScene h0 0 0) [.composeScene hRing 0 0, .composeScene h0 256 0, .composeScene h0 0 18446744073709551616],
     refuses (.composeRun h0 0 0) [.composeRun hRing 0 0, .composeRun h0 256 0, .composeRun h0 0 18446744073709551616],
     refuses (.composeStop h0 0) [.composeStop hRing 0, .composeStop h0 256],
     refuses (.composeLayer h0 0 0 0 0 0 0 0) [.composeLayer hRing 0 0 0 0 0 0 0, .composeLayer h0 256 0 0 0 0 0 0, .composeLayer h0 0
       256 0 0 0 0 0, .composeLayer h0 0 0 256 0 0 0 0, .composeLayer h0 0 0 0 256 0 0 0, .composeLayer h0 0 0 0 0 32768 0 0,
       .composeLayer h0 0 0 0 0 0 32768 0, .composeLayer h0 0 0 0 0 0 0 18446744073709551616],
     refuses (.displaySet h0 0) [.displaySet hRing 0, .displaySet h0 256],
     refuses (.basinCopy h0 0 0 0 0) [.basinCopy hRing 0 0 0 0, .basinCopy h0 256 0 0 0, .basinCopy h0 0 18446744073709551616 0 0,
       .basinCopy h0 0 0 18446744073709551616 0, .basinCopy h0 0 0 0 4294967296],
     refuses (.basinFill h0 0 0 0 0) [.basinFill hRing 0 0 0 0, .basinFill h0 256 0 0 0, .basinFill h0 0 4294967296 0 0, .basinFill h0 0
       0 18446744073709551616 0, .basinFill h0 0 0 0 4294967296],
     refuses (.basinRetain h0 0) [.basinRetain hRing 0],
     refuses (.calRequest h0 0 false 0) [.calRequest hRing 0 false 0, .calRequest h0 256 false 0],
     refuses (.calCancel h0 0 0) [.calCancel hRing 0 0, .calCancel h0 256 0],
     refuses (.hkThrottleFloor h0 0) [.hkThrottleFloor hRing 0, .hkThrottleFloor h0 256],
     refuses (.recRecordNow h0) [.recRecordNow hRing],
     refuses (.recChallenge h0) [.recChallenge hRing],
     refuses (.recClear h0 (List.replicate 8 0)) [.recClear hRing (List.replicate 8 0), .recClear h0 (List.replicate 7 0)],
     refuses (.recProvision h0 0) [.recProvision hRing 0, .recProvision h0 18446744073709551616],
     refuses (.splIoWrite h0 0 [] 0) [.splIoWrite hRing 0 [] 0, .splIoWrite h0 4294967296 [] 0, .splIoWrite h0 0 ([(0, 4294967296)]) 0,
       .splIoWrite h0 0 ([(65536, 0)]) 0, .splIoWrite h0 0 (List.replicate 5 (0, 0)) 0, .splIoWrite h0 0 [] 18446744073709551616],
     refuses (.splIoRead h0 0 0 0 0) [.splIoRead hRing 0 0 0 0, .splIoRead h0 4294967296 0 0 0, .splIoRead h0 0 256 0 0, .splIoRead h0 0
       0 256 0, .splIoRead h0 0 0 0 18446744073709551616],
     refuses (.splObjRead h0 0 0 0 0 0) [.splObjRead hRing 0 0 0 0 0, .splObjRead h0 4294967296 0 0 0 0, .splObjRead h0 0 65536 0 0 0,
       .splObjRead h0 0 0 65536 0 0, .splObjRead h0 0 0 0 65536 0, .splObjRead h0 0 0 0 0 18446744073709551616],
     refuses (.splObjWrite h0 0 0 0 0 0) [.splObjWrite hRing 0 0 0 0 0, .splObjWrite h0 4294967296 0 0 0 0, .splObjWrite h0 0 65536 0 0
       0, .splObjWrite h0 0 0 65536 0 0, .splObjWrite h0 0 0 0 65536 0, .splObjWrite h0 0 0 0 0 18446744073709551616],
     refuses (.splRescan h0 0) [.splRescan hRing 0, .splRescan h0 4294967296]] : List Bool).all id = true := by
  decide +kernel

theorem test_illformed_refused_3 :
    ([refuses (.splNodeReset h0 0) [.splNodeReset hRing 0, .splNodeReset h0 4294967296],
     refuses (.splIoRing h0 0 0) [.splIoRing hRing 0 0, .splIoRing h0 18446744073709551616 0, .splIoRing h0 0 4294967296],
     refuses (.doorbell 0 0) [.doorbell 64 0, .doorbell 0 4096],
     refuses (.cmdRingEnable 0 0) [.cmdRingEnable 64 0],
     refuses (.cqEnable 0 0) [.cqEnable 16 0],
     refuses (.cqHeadWrite 0 0) [.cqHeadWrite 16 0],
     refuses (.recWindowRead 0) [.recWindowRead 64],
     refuses (.readClear 0 0) [.readClear 67108864 0],
     refuses (.splitReadLatch 0 0) [.splitReadLatch 67108864 0],
     refuses (.registerWrite 0 0 0) [.registerWrite 67108864 0 0, .registerWrite 0 0 1],
     refuses (.bar2Access 0 0 none) [.bar2Access 4294967296 0 none],
     refuses (.regRead qOk) [.regRead qSrc],
     refuses (.regWrite qOk) [.regWrite qSrc],
     refuses (.memRead qOk) [.memRead qSrc],
     refuses (.memWrite qOk) [.memWrite qSrc],
     refuses (.attach qOk) [.attach qSrc],
     refuses (.detach qOk) [.detach qSrc],
     refuses (.bootHello qOk) [.bootHello qSrc],
     refuses (.bootData 5 qOk) [.bootData 5 qSrc],
     refuses (.bootGoFrame 5 qOk) [.bootGoFrame 5 qSrc],
     refuses (.bootStatus qOk) [.bootStatus qSrc],
     refuses (.intTimeExpire 5 0) [.intTimeExpire 5 16],
     refuses (.cqStalled 5 0) [.cqStalled 5 64],
     refuses (.stagePlanReceive 5 0 0 []) [.stagePlanReceive 5 8 0 []],
     refuses (.stageReportReceive 5 0 0 0 0 0 0 0) [.stageReportReceive 5 8 0 0 0 0 0 0, .stageReportReceive 5 0 0 16 0 0 0 0],
     refuses (.helloReceive 5 helloOk) [.helloReceive 5 helloWide],
     refuses (.memberLost 5 0) [.memberLost 5 8],
     refuses (.leaderReceive 5 leadOk) [.leaderReceive 5 leadWide],
     refuses (.markStart 5 0) [.markStart 5 128],
     refuses (.fetchBurst 5 0) [.fetchBurst 5 128],
     refuses (.planningPass 5 0) [.planningPass 5 128],
     refuses (.verdictRequest 5 0) [.verdictRequest 5 128],
     refuses (.verdictDeadline 5 0) [.verdictDeadline 5 128],
     refuses (.laneEnd 5 0) [.laneEnd 5 128],
     refuses (.resultWrite 5 0) [.resultWrite 5 128],
     refuses (.syncTimeout 5 0) [.syncTimeout 5 65536],
     refuses (.followingError 5 0) [.followingError 5 128],
     refuses (.blendComplete 5 0) [.blendComplete 5 128],
     refuses (.proxLongHold 5 0) [.proxLongHold 5 128],
     refuses (.syncReportReceive 5 0 5 []) [.syncReportReceive 5 8 5 []]] : List Bool).all id = true := by
  decide +kernel

theorem test_illformed_refused_4 :
    ([refuses (.peerSilent 5 0) [.peerSilent 5 8],
     refuses (.ffRead 5 0) [.ffRead 5 128],
     refuses (.depReport 5 0) [.depReport 5 128],
     refuses (.ptpManagement 5 0 .getOther) [.ptpManagement 5 4 .getOther],
     refuses (.trigInCapture 5 0 false 0) [.trigInCapture 5 9 false 0],
     refuses (.trigOutEdge 5 0) [.trigOutEdge 5 16],
     refuses (.splCycle 5 0 0) [.splCycle 5 32 0],
     refuses (.fbUnitReceive 5 0 0 0 0 0 0 0 0 0) [.fbUnitReceive 5 32 0 0 0 0 0 0 0 0, .fbUnitReceive 5 0 256 0 0 0 0 0 0 0,
       .fbUnitReceive 5 0 0 256 0 0 0 0 0 0, .fbUnitReceive 5 0 0 0 256 0 0 0 0 0, .fbUnitReceive 5 0 0 0 0 65536 0 0 0 0,
       .fbUnitReceive 5 0 0 0 0 0 65536 0 0 0, .fbUnitReceive 5 0 0 0 0 0 0 8388608 0 0, .fbUnitReceive 5 0 0 0 0 0 0 0 8388608 0,
       .fbUnitReceive 5 0 0 0 0 0 0 0 0 65536],
     refuses (.nodeUnitReceive 5 0 0 0 0 0 0) [.nodeUnitReceive 5 32 0 0 0 0 0, .nodeUnitReceive 5 0 256 0 0 0 0, .nodeUnitReceive 5 0 0
       256 0 0 0, .nodeUnitReceive 5 0 0 0 256 0 0, .nodeUnitReceive 5 0 0 0 0 4294967296 0, .nodeUnitReceive 5 0 0 0 0 0
       18446744073709551616],
     refuses (.serviceFrameReceive 5 0 0 []) [.serviceFrameReceive 5 32 0 [], .serviceFrameReceive 5 0 17 []],
     refuses (.echoReceive 5 0 1 0 0 0) [.echoReceive 5 32 1 0 0 0, .echoReceive 5 0 0 0 0 0, .echoReceive 5 0 17 0 0 0, .echoReceive 5
       0 1 256 0 0, .echoReceive 5 0 1 0 256 0],
     refuses (.delayMeasure 5 0) [.delayMeasure 5 32],
     refuses (.enumeration 5 0) [.enumeration 5 32],
     refuses (.splLinkUp 5 0) [.splLinkUp 5 32],
     refuses (.splLinkDown 5 0) [.splLinkDown 5 32],
     refuses (.linkdnReceive 5 0 1 ⟨0xB3, 0⟩) [.linkdnReceive 5 32 1 ⟨0xB3, 0⟩, .linkdnReceive 5 0 1 ⟨256, 0⟩, .linkdnReceive 5 0 0 ⟨0xB3, 0⟩,
       .linkdnReceive 5 0 17 ⟨0xB3, 0⟩],
     refuses (.nodeSilence 5 0 1) [.nodeSilence 5 32 1, .nodeSilence 5 0 0, .nodeSilence 5 0 17],
     refuses (.splHiBer 5 0 1) [.splHiBer 5 32 1, .splHiBer 5 0 0, .splHiBer 5 0 17],
     refuses (.hkRound 5 (List.replicate 46 0)) [.hkRound 5 (List.replicate 45 0)],
     refuses (.calRunDone 5 0 [] []) [.calRunDone 5 7 [] []],
     refuses (.calOverdue 5 0 0) [.calOverdue 5 7 0],
     refuses (.darkGatherTimeout 5 0) [.darkGatherTimeout 5 128],
     refuses (.refreshDue 5 0 false) [.refreshDue 5 4 false],
     refuses (.panicChange 5 0 false) [.panicChange 5 25 false],
     refuses (.basinPanicLong 5 0) [.basinPanicLong 5 25],
     refuses (.cameraFs 5 0 0) [.cameraFs 5 8 0, .cameraFs 5 0 4],
     refuses (.cameraLine 5 0 0 0 0 false false []) [.cameraLine 5 8 0 0 0 false false [], .cameraLine 5 0 4 0 0 false false [],
       .cameraLine 5 0 0 64 0 false false [], .cameraLine 5 0 0 0 0 false false [65536]],
     refuses (.cameraFe 5 0 0) [.cameraFe 5 8 0, .cameraFe 5 0 4],
     refuses (.lineTimeout 5 0) [.lineTimeout 5 8],
     refuses (.camNoFrame 5 0) [.camNoFrame 5 8],
     refuses (.statsComplete 5 0) [.statsComplete 5 8],
     refuses (.framePublish 5 0) [.framePublish 5 8],
     refuses (.cciWriteDone 5 0 false 0 0) [.cciWriteDone 5 8 false 0 0, .cciWriteDone 5 0 false 16 0, .cciWriteDone 5 0 false 0 65536],
     refuses (.ledPeriod 5 0 0 0) [.ledPeriod 5 16 0 0],
     refuses (.ledFaultDetect 5 0 false 0) [.ledFaultDetect 5 16 false 0],
     refuses (.diagPulse 5 0) [.diagPulse 5 16],
     refuses (.zipBlockDone 5 0) [.zipBlockDone 5 4],
     refuses (.composeStart 5 0) [.composeStart 5 4],
     refuses (.composeDone 5 0) [.composeDone 5 4],
     refuses (.cacheRebuild 5 0) [.cacheRebuild 5 4]] : List Bool).all id = true := by
  decide +kernel

theorem test_illformed_refused_5 :
    ([refuses (.axisMoveStart 5 0) [.axisMoveStart 5 16],
     refuses (.axisStep 5 0) [.axisStep 5 16],
     refuses (.axisFollowingFault 5 0) [.axisFollowingFault 5 16],
     refuses (.scriptEntryStart 5 0) [.scriptEntryStart 5 16],
     refuses (.encEdge 5 0 .up) [.encEdge 5 16 .up],
     refuses (.encWireFault 5 0 0 false) [.encWireFault 5 16 0 false, .encWireFault 5 0 3 false],
     refuses (.ssiRead 5 0 0 false) [.ssiRead 5 16 0 false],
     refuses (.encStall 5 0) [.encStall 5 16],
     refuses (.encWindowEnd 5 0) [.encWindowEnd 5 16],
     refuses (.hallChange 5 0 0) [.hallChange 5 8 0, .hallChange 5 0 8],
     refuses (.accessTimeout 5 0 false) [.accessTimeout 5 67108864 false],
     refuses (.exposureWindowEdge 5 0) [.exposureWindowEdge 5 8],
     refuses (.arpRequest 5 0) [.arpRequest 5 4294967296]] : List Bool).all id = true := by
  decide +kernel

/-! ### The descriptor that its context's slot makes wait, and Basin's canonical form -/

/-- Another record in the slot of context 304 + 15. -/
def slotTaken : State :=
  let t := accept h0 0x00 r0
  match ticket t h0.ref with
  | some tk => { t with hostq := { t.hostq with slots := t.hostq.slots.set 319 (some (endRecord tk 0 0 0 t)) } }
  | none => t

theorem witness_DescriptorEndsOnce_slot_taken :
    (slotTaken.hostq.slots.length = 320 ∧
     (slotTaken.hostq.outstanding ++ slotTaken.hostq.parked).countP (fun x => x.hdr.ref == h0.ref) = 1 ∧
     (match ticket slotTaken h0.ref with | some tk => decide (tk.hdr.ref = h0.ref) | none => false) = true ∧
     unit slotTaken.hostq.slots 319 none ≠ none) := by
  decide +kernel

theorem witness_BasinStaysCanonical :
    Mem.wf State.reset.basin.mem = true ∧ step State.reset = .next State.reset := ⟨rfl, rfl⟩

/-! ### Descriptors written out byte by byte (R299 and the tables of each chapter) -/

/-- A descriptor: OPCODE, FLAGS IRQ, TAG 0xA5, the operand bytes, then zeros to 64 bytes. -/
def desc (op : Byte) (o : List Byte) : List Byte :=
  [op, 1, 0, 0, 0xA5, 0, 0, 0, 0, 0, 0, 0, 0, 0, 0, 0] ++ o ++ List.replicate (48 - o.length) 0

/-- The command of a descriptor at index 5 of ring 63. -/
def readDesc (op : Byte) (o : List Byte) : Option Instr := decodeDescriptor 63 5 7 (desc op o)

theorem test_decode_general :
    readDesc 0x00 [] = some (.nop h0) ∧
    readDesc 0x01 [0x02, 0, 0, 0, 0, 0, 0, 0x80, 1] = some (.fence h0 (2 ^ 63 + 2) true) ∧
    decodeDescriptor 63 5 7 ([0x00, 4] ++ List.replicate 62 0) = none ∧
    decodeDescriptor 63 5 7 ([0x00, 0, 1] ++ List.replicate 61 0) = none ∧
    readDesc 0x00 [1] = none ∧ readDesc 0x0F [] = none := by
  decide +kernel

theorem test_decode_job_start : readDesc 0x10 [0, 0, 0, 0x30, 1, 0, 0, 0] = some (.jobStart h0 0x130000000) := by
  decide +kernel

theorem test_decode_lane_trims :
    readDesc 0x21 [0, 0, 0x10, 0, 0, 0, 0, 0, 0, 0, 0, 0, 0, 0, 0, 0, 0xFF, 0xFF, 0xFF, 0xFF, 2, 0, 0, 0, 3, 0, 0, 0, 4, 0, 0, 0, 5, 0, 0, 0]
      = some (.laneTrims h0 (2 ^ 20) (-1) 2 3 4 5) := by
  decide +kernel

theorem test_decode_mere_save_cfg :
    readDesc 0x30 [0, 0x10, 0, 0, 1, 0, 0, 0, 0, 0x20, 0, 0, 8, 1] = some (.mereSaveCfg h0 0x100001000 0x2000 0x108) := by
  decide +kernel

theorem test_decode_axis_move :
    readDesc 0x50 [1, 2, 0, 0, 0, 0, 0, 0, 0x00, 0x8F, 0xFD, 0xFF, 0xFF, 0xFF, 0xFF, 0xFF, 0xA0, 0x86, 1, 0, 0, 0, 2, 0, 0, 0, 0, 3,
      0, 0, 0, 0, 7, 0, 0, 0, 0, 0, 0, 0] = some (.axisMove h0 1 false true (-160000) 100000 0x20000 0x3000000 7) := by
  decide +kernel

theorem test_decode_led_set :
    readDesc 0x66 [3, 0, 0, 0, 0x10, 0x27, 0, 0x80, 9, 0, 0, 0, 0, 0, 0, 0] = some (.ledSet h0 3 10000 0x8000 9) := by
  decide +kernel

theorem test_decode_zip_feed :
    readDesc 0x72 [7, 3, 0, 0, 0, 0, 0, 0, 0, 0, 0, 0x20, 0, 0, 0, 0, 8, 0, 0, 0] = some (.zipFeed h0 7 3 0x20000000 8) := by
  decide +kernel

theorem test_decode_basin_copy :
    readDesc 0x80 [2, 0, 0, 0, 0, 0, 0, 0, 0, 0, 0, 0x20, 0, 0, 0, 0, 0, 0, 0, 0x30, 0, 0, 0, 0, 0, 4, 0, 0]
      = some (.basinCopy h0 2 0x20000000 0x30000000 1024) := by
  decide +kernel

theorem test_decode_cal_request :
    readDesc 0x90 [4, 1, 0, 0, 2] = some (.calRequest h0 4 true 2) := by
  decide +kernel

theorem test_decode_rec_clear :
    readDesc 0xA2 [1, 2, 3, 4, 5, 6, 7, 8] = some (.recClear h0 [1, 2, 3, 4, 5, 6, 7, 8]) := by
  decide +kernel

theorem test_decode_spl_io_write :
    readDesc 0xB0 [0x11, 6, 0, 0, 2, 0, 0, 0, 9, 0, 0, 0, 0, 0, 0, 0, 1, 0, 0x78, 0x56, 0x34, 0x12, 2, 1, 4, 0, 0, 0]
      = some (.splIoWrite h0 0x611 [(1, 0x12345678), (0x102, 4)] 9) := by
  decide +kernel

/-! ### Worked examples of the spec -/

/-- Chapter 2, "a short stream", record 2. -/
theorem test_short_stream_record_2 :
    let b : List Byte := [2, 0, 0, 0, 0x80, 0xA8, 0x12, 1, 0, 0xCA, 0x91, 0xFE, 0, 0, 0, 0, 0, 0, 0, 0, 0, 0, 0, 0, 0, 0, 0, 0, 0xD2, 4, 0, 0]
    (match readVec b with | .ok (.line x y z _) => decide (x = 18000000 ∧ y = -24000000 ∧ z = 0) | _ => false) = true ∧ vtagOf b = 1234 := by
  decide +kernel

/-- Curve 2 of chapter 4's loop example. -/
def curve2 : Curve :=
  { sigMode := 0, wA := 0, wB := 0, pts := [(9600, 20000, 32768), (19200, 17000, 29491), (28800, 14000, 26214)], kp := 128, ki := 83886
    blankUs := 20, anomBand := 0, anomSamples := 1, spike := 0, satSamples := 1 }

/-- Chapter 4, "one loop sample on lane 20". -/
theorem test_loop_sample :
    curveAt curve2 14400 = (18500, 31130) ∧ (trimLaw curve2 49152 31130 18500 19300 6554 false 0).1 = -2865 ∧
    appliedPower 49152 (-2865) = 46287 := by
  decide +kernel

/-- Chapter 4, "one cell step", on a grid 1 cell wide and 3 cells high, whose cell 1 has the neighbours above and below it only: the two
cells beside it are itself (R163). By hand: lap = 15,800 + 15,900 − 2 × 16,000 = −300, the increment is −1.19934 − 0.46998, and h of cell 1
at step 131,072 is (40,503 + 131,072 × 9,973) mod 65,536 = 40,503, which is 0.61803. -/
theorem test_cell_step : mereCellStep 1 3 [15800, 16000, 15900] 262 1678 4194 11301 131072 0 1 16000 = 15998 := by
  decide +kernel

/-- Chapter 6, "flash trigger at 30 Hz": the driven ticks and steps, and edge 0 with FINE 20. -/
theorem test_trigger_edges :
    edgePlace 12345678902 0 = (12345678900, 26) ∧ edgePlace 12379012235 0 = (12379012235, 0) ∧
    edgePlace 12412345568 0 = (12412345565, 38) ∧ edgePlace 12445678901 0 = (12445678900, 13) ∧
    edgePlace 12345678902 20 = (12345678900, 46) := by
  decide +kernel

/-- The reference machine's segments of chapter 14: 1 to 3 in RCB order, 4 in RBC, 5 to 7 in HASH. -/
def refSegments (s : State) : State :=
  { s with basin := { s.basin with segOrder := [0, 3, 3, 3, 2, 0, 0, 0] } }

/-- Chapter 14, "a vector fetch on the reference machine". -/
theorem test_vector_fetch_place :
    basinPlace (refSegments State.reset) 0x123456700 = { channel := 3, bank := 9, row := 21304, column := 5, byte := 0 } := by
  decide +kernel

/-- Chapter 13, "one short series block": the header and the payload. -/
theorem test_short_series_block :
    ((epbBlock { kind := 2, bytes := 2, channels := 1, width := 0 } [0xE8, 3, 0xEB, 3, 0xE9, 3, 0xE9, 3] true true false).take 20
      = [0x50, 0x42, 2, 3, 1, 0, 0, 0, 8, 0, 0, 0, 4, 0, 0, 0, 0xE8, 3, 0xCC, 0]) ∧
    (epbBlock { kind := 2, bytes := 2, channels := 1, width := 0 } [0xE8, 3, 0xEB, 3, 0xE9, 3, 0xE9, 3] true true false).length = 24 := by
  decide +kernel

/-- Chapter 3, "corner speed" and "timing of one hatch": the ramp from 0 to 1 m/s has phases of 50 µs and 150 µs. -/
theorem test_hatch_ramp :
    (rampTimes (F64.ofNat 1000000) 5000000 100000000).1.floor = 50000 ∧ (rampTimes (F64.ofNat 1000000) 5000000 100000000).2.floor = 150000 ∧
    (rampDist 0 1000000 { accel := 5000000, jerk := 100000000, speed := 1000000 }).floor = 12500 := by
  decide +kernel

/-- The corner-speed example's records: a LINE of 1 mm along X, then one along Y. -/
def corner (x0 y0 x1 y1 : Int) : PRec :=
  { rec0 with set := { PSet.none with cornerTol := 1000 }, lim := { accel := 5000000, jerk := 100000000, speed := 1000000 }
              x0 := x0, y0 := y0, x1 := x1, y1 := y1 }

theorem test_corner_speed :
    (match cornerSpeed (corner 0 0 100000 0) (corner 100000 0 100000 100000) with
     | some v => decide (347000 ≤ v ∧ v < 348000) | none => false) = true := by
  decide +kernel
end Sys2Proof.Tests
end

section
/-! SUPPORT. What LANE_LIMITS, LANE_TRIMS, LANE_GRID_LOAD and BLEND_COMPLETE answer and change, and what a write to Basin leaves. -/

namespace Sys2Proof.Machine

/-! ### Little-endian numbers and bytes put into Basin (R5, R505) -/

/-- The low `n` bytes of a number spell it modulo 256 ^ n. -/
theorem leNat_natLE (n v : Nat) : leNat (natLE n v) = v % 256 ^ n := by
  induction n generalizing v with
  | zero => simp [natLE, leNat, Nat.mod_one]
  | succ n ih =>
    rw [natLE, leNat, ih, Nat.pow_succ', Nat.mod_mul (a := 256)]
    rfl

/-- Bytes put at an address read back from it. -/
theorem memRead_memPut_same {s : State} (a : Nat) (bs : List Byte) (h : BasinWf s) : memRead a bs.length (memPut a bs s) = bs := by
  apply List.ext_getElem
  · simp [memRead]
  · intro i _ hi
    simp [memRead, memPut_read a (a + i) bs h, hi, unit]

/-- A byte outside the bytes put reads as before. -/
theorem read_memPut_outside {s : State} {a x : Nat} {bs : List Byte} (h : BasinWf s) (hx : x < a ∨ a + bs.length ≤ x) :
    Mem.read (memPut a bs s).basin.mem x = Mem.read s.basin.mem x := by
  rw [memPut_read a x bs h, if_neg (by omega)]

/-- A word is poisoned after bytes are put if it was before and they do not cover it. -/
theorem mem_poisoned_memPut (a : Nat) (bs : List Byte) (s : State) (w : Nat) :
    w ∈ (memPut a bs s).basin.poisoned ↔ w ∈ s.basin.poisoned ∧ ¬(a ≤ 8 * w ∧ 8 * w + 8 ≤ a + bs.length) := by
  simp only [memPut, List.mem_filter, Bool.not_eq_true', Bool.and_eq_false_iff, decide_eq_false_iff_not, Classical.not_and_iff_not_or_not]

/-- Settles O34: a read of each byte decides what a write did, and the rest of the state is the update's own. -/
theorem basinBytes : Obligations.BasinBytes := by
  intro a bs s h
  refine ⟨memPut_wf a bs h, memRead_memPut_same a bs h, fun x hx => read_memPut_outside h hx, rfl,
    fun w hw => (mem_poisoned_memPut a bs s w).1 hw, fun n v hv => ?_⟩
  rw [leNat_natLE, Nat.mod_eq_of_lt hv]

/-! ### LANE_LIMITS (R111, R112, R114, R139, R140) -/

theorem jobExists_iff (s : State) : jobExists s = true ↔ s.jobs.state ≠ 0 := by simp [jobExists]

/-- LANE_LIMITS that may start acts on the state in which it is outstanding. -/
theorem exec_laneLimits {h : Hdr} {s : State} (hr : Ready h s) (m : BitVec 128) (a b c : Bool) (accel jerk speed : Nat) :
    exec (.laneLimits h m a b c accel jerk speed) s =
      .next (startLaneLimits h.ref m a b c accel jerk speed (accept h 0x20 s)) :=
  congrArg Host.Outcome.next (post_ready hr _ _ _)

theorem laneLimitsCheck_noJob {s : State} (hj : jobExists s = false) (m : BitVec 128) (a b : Bool) : laneLimitsCheck m a b s = stState := by
  simp [laneLimitsCheck, hj]

theorem laneLimitsCheck_fused {s : State} {m : BitVec 128} (hj : jobExists s = true) (hm : namesFused s m = true) (a b : Bool) :
    laneLimitsCheck m a b s = stParam := by
  simp [laneLimitsCheck, hj, hm]

theorem laneLimitsCheck_noClass {s : State} (hj : jobExists s = true) (m : BitVec 128) : laneLimitsCheck m false false s = stParam := by
  simp [laneLimitsCheck, hj]

theorem laneLimitsCheck_good {s : State} {m : BitVec 128} {a b : Bool} (hj : jobExists s = true) (hm : namesFused s m = false)
    (hab : (a || b) = true) : laneLimitsCheck m a b s = stDone := by
  simp [laneLimitsCheck, hj, hm, hab]

/-- A rejected LANE_LIMITS ends with the status of its check and does nothing else. -/
theorem startLaneLimits_rejected {s : State} {m : BitVec 128} {a b : Bool} {st : Nat} (hc : laneLimitsCheck m a b s = st)
    (hst : st ≠ stDone) (r : Ref) (c : Bool) (accel jerk speed : Nat) :
    startLaneLimits r m a b c accel jerk speed s = endWith r st s := by
  simp [startLaneLimits, hc, hst]

/-- A good LANE_LIMITS changes every lane of its mask. -/
theorem startLaneLimits_good {s : State} {m : BitVec 128} {a b : Bool} (hc : laneLimitsCheck m a b s = stDone) (r : Ref) (c : Bool)
    (accel jerk speed : Nat) : startLaneLimits r m a b c accel jerk speed s =
      endWith r (if (lanesIn m).any fun l => inDecel s (laneOf s l) then stDoneNote else stDone)
        ((lanesIn m).foldl (fun u l => laneLimits a b c { accel := accel, jerk := jerk, speed := speed } l u) s) := by
  simp [startLaneLimits, hc, applyLaneLimits]

/-- A lane outside a deceleration ramp takes the change into its overrides. -/
theorem laneLimits_outside_ramp {s : State} {l : Nat} (hd : inDecel s (laneOf s l) = false) (a b c : Bool) (v : LimitSet) :
    laneLimits a b c v l s = relimitLane l (setLane l (fun x => { x with
      ovrMark := if a then changedOvr c v x.ovrMark else x.ovrMark
      ovrJump := if b then changedOvr c v x.ovrJump else x.ovrJump
      deferMark := if a && c then none else x.deferMark
      deferJump := if b && c then none else x.deferJump }) s) := by
  simp [laneLimits, hd]

theorem changedLatch_eq (c : Bool) (v : LimitSet) (latched old : Option LimitSet) :
    changedLatch c v latched old = some (if c then .none else v.over (latched.getD (old.getD .none))) := by
  cases c <;> rfl

/-- A lane in a deceleration ramp latches the change, and the record that it is issuing is marked. -/
theorem laneLimits_in_ramp {s : State} {l : Nat} {k : PRec} (hd : inDecel s (laneOf s l) = true)
    (hk : recAt (s.now + tLead s) (laneOf s l).plan = some k) (a b c : Bool) (v : LimitSet) :
    laneLimits a b c v l s = relimitLane l (setLane l (fun x => { x with
      deferMark := if a then some (if c then .none else v.over (x.deferMark.getD (x.ovrMark.getD .none))) else x.deferMark
      deferJump := if b then some (if c then .none else v.over (x.deferJump.getD (x.ovrJump.getD .none))) else x.deferJump
      deferFrom := match x.deferFrom with | some i => some i | none => nextMove (s.now + tLead s) x.plan
      plan := x.plan.map fun r => if k.idx = r.idx then { r with deferred := true } else r }) s) := by
  simp only [laneLimits, hd, hk, if_true, Option.map_some, Option.some.injEq, changedLatch_eq] <;> rfl

/-- Settles O7: the check's four answers, then the two ways in which a lane takes a change. -/
theorem laneLimitChanges : Obligations.LaneLimitChanges := by
  intro h s accel jerk speed v
  refine ⟨fun hr => ⟨fun h0 m a b c => ?_, fun h0 => ?_⟩, fun l a b c hd => laneLimits_outside_ramp hd a b c v,
    fun l a b c k hd hk => laneLimits_in_ramp hd hk a b c v⟩
  · have hj : jobExists (accept h 0x20 s) = false := by simp [jobExists, h0]
    rw [exec_laneLimits hr, startLaneLimits_rejected (laneLimitsCheck_noJob hj m a b) (by decide)]
  · have hj : jobExists (accept h 0x20 s) = true := (jobExists_iff s).2 h0
    refine ⟨fun m a b c hm => ?_, fun m c => ?_, fun m a b c hm hab => ?_⟩
    · rw [exec_laneLimits hr, startLaneLimits_rejected (laneLimitsCheck_fused hj hm a b) (by decide)]
    · rw [exec_laneLimits hr, startLaneLimits_rejected (laneLimitsCheck_noClass hj m) (by decide)]
    · rw [exec_laneLimits hr, startLaneLimits_good (laneLimitsCheck_good hj hm hab)]
      rfl

/-! ### LANE_TRIMS, LANE_GRID_LOAD and BLEND_COMPLETE (R125, R129, R130, R139, R140) -/

/-- LANE_TRIMS that may start acts on the state in which it is outstanding. -/
theorem exec_laneTrims {h : Hdr} {s : State} (hr : Ready h s) (m : BitVec 128) (a b c d e : Int) :
    exec (.laneTrims h m a b c d e) s = .next (startLaneTrims h.ref m a b c d e (accept h 0x21 s)) :=
  congrArg Host.Outcome.next (post_ready hr _ _ _)

theorem startLaneTrims_fused {s : State} {m : BitVec 128} (hm : namesFused s m = true) (r : Ref) (a b c d e : Int) :
    startLaneTrims r m a b c d e s = endWith r stParam s := by
  have hst : (stParam != stDone) = true := by decide
  simp only [startLaneTrims, laneTrimsCheck, hm, if_true, hst]

theorem startLaneTrims_good {s : State} {m : BitVec 128} (hm : namesFused s m = false) (r : Ref) (a b c d e : Int) :
    startLaneTrims r m a b c d e s = endWith r stDone (bumpOverride 0 true ((lanesIn m).foldl (fun u l =>
      changeMap l { trims := some (makeTrims a b c d e), grid := none } u) s)) := by
  simp [startLaneTrims, laneTrimsCheck, hm, applyLaneTrims]

/-- LANE_GRID_LOAD that may start acts on the state in which it is outstanding. -/
theorem exec_laneGridLoad {h : Hdr} {s : State} (hr : Ready h s) (l k a : Nat) :
    exec (.laneGridLoad h l k a) s = .next (startLaneGridLoad h.ref l k a (accept h 0x22 s)) :=
  congrArg Host.Outcome.next (post_ready hr _ _ _)

theorem startLaneGridLoad_noSet {s : State} {l k : Nat} (hk : (laneRec s l).gridSets ≤ k) (r : Ref) (a : Nat) :
    startLaneGridLoad r l k a s = endWith r stParam s := by
  simp [startLaneGridLoad, hk]

/-- The operands of a LANE_GRID_LOAD name a set of a mapped lane, and a record image that lies wholly in host memory (R139). -/
structure GridOperands (l k a : Nat) (s : State) : Prop where
  lane : l < s.variant.lanes
  mapped : (laneRec s l).mapped = true
  set : k < (laneRec s l).gridSets
  aligned : a % 4 = 0
  head : hostMem a 12 s = true
  image : hostMem a (12 + memNat (a + 4) 4 s) s = true

theorem GridOperands.accept {l k a : Nat} {s : State} (g : GridOperands l k a s) (h : Hdr) (op : Nat) :
    GridOperands l k a (accept h op s) :=
  ⟨g.lane, g.mapped, g.set, g.aligned, g.head, g.image⟩

theorem startLaneGridLoad_busy {s : State} {l k a : Nat} (g : GridOperands l k a s) (hb : gridsBusy (laneOf s l).map = true) (r : Ref) :
    startLaneGridLoad r l k a s = endWith r stBusy s := by
  obtain ⟨h1, h2, h3, h4, h5, h6⟩ := g
  simp [startLaneGridLoad, h1, h2, h3, h4, h5, h6, hb]

/-- A lane's set `k` is put in the place of the old one. -/
def putGridSet (l k : Nat) (g : GridSet) (s : State) : State :=
  setMap l (fun m => { m with gridSets := (k, g) :: m.gridSets.filter fun x => x.1 != k }) s

theorem startLaneGridLoad_good {s : State} {l k a : Nat} {p : List Byte} {g : GridSet} (ho : GridOperands l k a s)
    (hb : gridsBusy (laneOf s l).map = false) (hi : recordImage a 149808 s = some (0x0011, 8 * l + k, p)) (hg : readGrid p = some g)
    (ht : tempsRise (setsOf (putGridSet l k g s) l) = true) (r : Ref) :
    startLaneGridLoad r l k a s =
      let v := putGridSet l k g (needGrid l s)
      endWith r stDone (bumpOverride 1 true (changeMap l { trims := none, grid := (gridNow l v).1 } (gridNow l v).2)) := by
  obtain ⟨h1, h2, h3, h4, h5, h6⟩ := ho
  unfold putGridSet at ht
  simp [startLaneGridLoad, putGridSet, h1, h2, h3, h4, h5, h6, hb, hi, hg, ht]

/-- A lane that has a working grid needs no other. -/
theorem needGrid_of_grid {s : State} {l : Nat} (hg : (laneOf s l).map.grid.isSome) : needGrid l s = s := by
  simp [needGrid, hg]

/-- A change of a lane whose blend runs waits. -/
theorem changeMap_running {s : State} {l : Nat} {b : Blend} {t0 : Ns} (hg : (laneOf s l).map.grid.isSome)
    (hb : (laneOf s l).map.blend = some b) (ht : b.start = some t0) (c : MapChange) :
    changeMap l c s = setMap l (fun m => { m with waiting := some c }) s := by
  simp [changeMap, needGrid_of_grid hg, hb, ht]

/-- A change of a lane without a blend gets one that waits for the next set-point. -/
theorem changeMap_noBlend {s : State} {l : Nat} (hg : (laneOf s l).map.grid.isSome) (hb : (laneOf s l).map.blend = none) (c : MapChange) :
    changeMap l c s = setMap l (fun m => { m with blend := some { start := none, len := tBlend s l c, change := c } }) s := by
  simp [changeMap, needGrid_of_grid hg, hb]

/-- What blend `b` leaves in force at its end: the new trims, and a new grid in the place of the one that was not in force (R130). -/
def endBlend (b : Blend) (m : LaneMap) : LaneMap :=
  let m := { m with trims := b.change.trims.getD m.trims, blend := none, beta := 0, waiting := none }
  match b.change.grid with
  | none => m
  | some g => if m.useB then { m with gridA := some g, gridB := none, useB := false }
              else { m with gridB := some g, gridA := none, useB := true }

theorem blendComplete_early {s : State} {l : Nat} {b : Blend} {t0 : Ns} (hb : (laneOf s l).map.blend = some b) (ht : b.start = some t0)
    (he : s.now < t0 + b.len) : blendComplete l s = s := by
  simp [blendComplete, hb, ht, he]

/-- From T_BLEND on the blend has ended. -/
theorem blendComplete_last {s : State} {l : Nat} {b : Blend} {t0 : Ns} (hb : (laneOf s l).map.blend = some b) (ht : b.start = some t0)
    (he : t0 + b.len ≤ s.now) (hw : (laneOf s l).map.waiting = none) : blendComplete l s = setMap l (endBlend b) s := by
  simp only [blendComplete, hb, ht, if_neg (Nat.not_lt.2 he), hw]
  rfl

/-- From T_BLEND on the blend has ended, and a change that waits follows (R130). -/
theorem blendComplete_next {s : State} {l : Nat} {b : Blend} {t0 : Ns} {c : MapChange} (hb : (laneOf s l).map.blend = some b)
    (ht : b.start = some t0) (he : t0 + b.len ≤ s.now) (hw : (laneOf s l).map.waiting = some c) :
    blendComplete l s = changeMap l c (setMap l (endBlend b) s) := by
  simp only [blendComplete, hb, ht, if_neg (Nat.not_lt.2 he), hw]
  rfl

/-- Settles O8: each descriptor by its check, a change by the state of the lane's blend, BLEND_COMPLETE by the time. -/
theorem correctionChanges : Obligations.CorrectionChanges := by
  intro h s hr
  refine ⟨fun m a b c d e hm => ?_, fun m a b c d e hm => ?_, fun l k a hk => ?_, fun l k a h1 h2 h3 h4 h5 h6 hb => ?_,
    fun l k a p g h1 h2 h3 h4 h5 h6 hb hi hg => ?_, fun l c hg => ⟨fun b t0 hb ht => changeMap_running hg hb ht c,
    fun hb => changeMap_noBlend hg hb c⟩, fun t l b t0 hb ht => ⟨fun he => ?_, fun he => ?_⟩⟩
  · rw [exec_laneTrims hr, startLaneTrims_fused (s := accept h 0x21 s) hm]
  · rw [exec_laneTrims hr, startLaneTrims_good (s := accept h 0x21 s) hm]
  · rw [exec_laneGridLoad hr, startLaneGridLoad_noSet (s := accept h 0x22 s) hk]
  · have ho : GridOperands l k a s := ⟨h1, h2, h3, h4, h5, h6⟩
    rw [exec_laneGridLoad hr, startLaneGridLoad_busy (ho.accept h 0x22) hb]
  · have ho : GridOperands l k a s := ⟨h1, h2, h3, h4, h5, h6⟩
    intro put v ht
    rw [exec_laneGridLoad hr, startLaneGridLoad_good (ho.accept h 0x22) hb hi hg ht]
    rfl
  · exact congrArg Host.Outcome.next (blendComplete_early hb ht he)
  · exact ⟨fun hw => congrArg Host.Outcome.next (blendComplete_last hb ht he hw),
      fun c hw => congrArg Host.Outcome.next (blendComplete_next hb ht he hw)⟩

end Sys2Proof.Machine
end

section
/-! SUPPORT. What a descriptor that may start answers, and what the commands of Spring Link answer and change. -/

namespace Sys2Proof.Machine

/-- A descriptor that may start answers what its start makes of the state in which it is outstanding. -/
theorem post_next {h : Hdr} {s t : State} {i : Instr} {op : Nat} {f : State → State} (hr : Ready h s) (ht : f (accept h op s) = t) :
    (.next (postDescriptor i h op f s) : Host.Outcome State Fault Refusal) = .next t :=
  congrArg Host.Outcome.next ((post_ready hr i op f).trans ht)

/-! ### Commands of Spring Link (R18, R266 to R268, R278, R279) -/

/-- A request that names a present node goes to its port and hop. -/
theorem requestNode_present {s : State} {node p k : Nat} (hn : nodeAt s node = some (p, k)) (r : Ref) (type : Nat) (b : List Byte)
    (a : Nat) : requestNode r node type b a s = sendReq p k type b (some r) a s := by
  simp [requestNode, hn]

/-- A request that names no present node is REJECTED_PARAM. -/
theorem requestNode_absent {s : State} {node : Nat} (hn : nodeAt s node = none) (r : Ref) (type : Nat) (b : List Byte) (a : Nat) :
    requestNode r node type b a s = endWith r stParam s := by
  simp [requestNode, hn]

/-- An identifier of another module names no node (R18). -/
theorem nodeAt_otherModule {s : State} {node : Nat} (hm : node / 512 ≠ s.ident.moduleId.toNat) : nodeAt s node = none := by
  simp [nodeAt, hm]

theorem startSplIoWrite_good {es : List (Nat × Nat)} (h0 : es ≠ []) (h4 : es.length ≤ 4) (hp : ∀ e ∈ es, e.1 ≤ 255) (r : Ref)
    (node a : Nat) (s : State) : startSplIoWrite r node es a s =
      requestNode r node 0x0A (natLE 8 a ++ es.flatMap fun e => natLE 1 e.1 ++ natLE 4 e.2) 0 s := by
  have hlen : ¬ 4 < es.length := by omega
  have hpt : es.any (fun e => decide (255 < e.1)) = false := by simpa using hp
  simp [startSplIoWrite, h0, hlen, hpt]

theorem startSplIoWrite_absent {s : State} {node : Nat} (hn : nodeAt s node = none) (r : Ref) (es : List (Nat × Nat)) (a : Nat) :
    startSplIoWrite r node es a s = endWith r stParam s := by
  rw [startSplIoWrite, requestNode_absent hn, ite_self]

theorem startSplIoRead_good {s : State} {f c a : Nat} (h1 : 1 ≤ c) (h2 : c ≤ 64) (h3 : f ≤ 255) (h4 : a % 4 = 0)
    (h5 : hostMem a (4 * c) s = true) (r : Ref) (node : Nat) :
    startSplIoRead r node f c a s = requestNode r node 0x0B (natLE 1 f ++ natLE 1 c) a s := by
  have h1' : c ≠ 0 := by omega
  simp [startSplIoRead, h1', h2, h3, h4, h5]

theorem startSplIoRead_absent {s : State} {node : Nat} (hn : nodeAt s node = none) (r : Ref) (f c a : Nat) :
    startSplIoRead r node f c a s = endWith r stParam s := by
  rw [startSplIoRead, requestNode_absent hn, ite_self]

theorem startSplObjRead_good {s : State} {node p k c a : Nat} (hn : nodeAt s node = some (p, k)) (ha : a % 4 = 0) (hc : c ≤ 500)
    (hm : hostMem a c s = true) (r : Ref) (i o : Nat) : startSplObjRead r node i o c a s =
      sendReq p k 0x06 (natLE 2 i ++ natLE 2 o ++ natLE 2 c) (some r) a s := by
  simp [startSplObjRead, hn, ha, hc, hm, requestNode_present hn]

theorem startSplObjRead_long {s : State} {node c a : Nat} (hn : (nodeAt s node).isSome) (ha : a % 4 = 0) (hc : 500 < c) (r : Ref)
    (i o : Nat) : startSplObjRead r node i o c a s = endWith r stLimit s := by
  simp [startSplObjRead, Option.isSome_iff_ne_none.1 hn, ha, hc]

theorem startSplObjRead_absent {s : State} {node : Nat} (hn : nodeAt s node = none) (r : Ref) (i o c a : Nat) :
    startSplObjRead r node i o c a s = endWith r stParam s := by
  simp [startSplObjRead, hn]

theorem startSplObjWrite_good {s : State} {node p k i c a : Nat} (hn : nodeAt s node = some (p, k)) (ha : a % 4 = 0) (hi : 0x100 ≤ i)
    (hc : c ≤ 500) (hm : hostMem a c s = true) (he : poisonIn a c s = none) (r : Ref) (o : Nat) : startSplObjWrite r node i o c a s =
      sendReq p k 0x07 (natLE 2 i ++ natLE 2 o ++ natLE 2 c ++ memRead a c s) (some r) 0 s := by
  simp [startSplObjWrite, hn, ha, Nat.not_lt.2 hi, Nat.not_lt.2 hc, hm, he, requestNode_present hn]

theorem startSplObjWrite_low {i : Nat} (hi : i < 0x100) (r : Ref) (node o c a : Nat) (s : State) :
    startSplObjWrite r node i o c a s = endWith r stParam s := by
  simp [startSplObjWrite, hi]

theorem startSplObjWrite_absent {s : State} {node : Nat} (hn : nodeAt s node = none) (r : Ref) (i o c a : Nat) :
    startSplObjWrite r node i o c a s = endWith r stParam s := by
  simp [startSplObjWrite, hn]

theorem startSplNodeReset_noJob {s : State} (h0 : s.jobs.state = 0) (r : Ref) (node : Nat) :
    startSplNodeReset r node s = requestNode r node 5 [] 0 s := by
  simp [startSplNodeReset, jobExists, h0]

theorem startSplNodeReset_job {s : State} (h0 : s.jobs.state ≠ 0) (r : Ref) (node : Nat) :
    startSplNodeReset r node s = endWith r stState s := by
  simp [startSplNodeReset, (jobExists_iff s).2 h0]

theorem startSplRescan_job {s : State} (h0 : s.jobs.state ≠ 0) (r : Ref) (m : Nat) : startSplRescan r m s = endWith r stState s := by
  simp [startSplRescan, (jobExists_iff s).2 h0]

/-- A mask below 2 ^ n names numbers below n. -/
theorem lt_of_mem_bitsOf {n w m p : Nat} (hm : m < 2 ^ n) (hp : p ∈ bitsOf w m) : p < n := by
  by_contra hn
  have hb : bit m p = true := by simpa [bitsOf] using (List.mem_filter.1 hp).2
  have hlt : m < 2 ^ p := lt_of_lt_of_le hm (Nat.pow_le_pow_right (by decide) (not_lt.1 hn))
  simp [bit, Nat.testBit_lt_two_pow hlt] at hb

theorem Variant.ports_le (v : Variant) : v.ports ≤ 32 := by cases v <;> decide

/-- An SPL_RESCAN of ports of the variant, with no job, post_next the enumeration of every named idle port that is up. -/
theorem startSplRescan_ports {s : State} {m : Nat} (h0 : s.jobs.state = 0) (hm : m < 2 ^ s.variant.ports) (r : Ref) :
    startSplRescan r m s =
      let up := (bitsOf 32 m).filter fun p => linkUp s p
      if up.isEmpty then endWith r stDone s
      else up.foldl (fun u p => if (portOf u p).enumPhase == .idle then discoverNext p u else u)
        (setLink (fun l => { l with rescans := l.rescans ++ [(r, up)] }) s) := by
  have hj : jobExists s = false := by simp [jobExists, h0]
  have hp : (bitsOf 32 m).any (fun p => decide (s.variant.ports ≤ p)) = false := by
    simpa using fun p hp => lt_of_mem_bitsOf hm hp
  simp only [startSplRescan, hj, hp, Bool.false_eq_true, if_false]

/-- The mask of one port names that port. -/
theorem bitsOf_two_pow {w p : Nat} (hp : p < w) : bitsOf w (2 ^ p) = [p] := by
  have hf : (fun i => bit (2 ^ p) i) = fun i => i == p := by
    funext i
    rw [bit, Nat.testBit_two_pow]
    exact decide_eq_decide.2 eq_comm
  rw [bitsOf, hf, List.filter_beq, List.count_eq_one_of_mem List.nodup_range (List.mem_range.2 hp), List.replicate_one]

theorem discoverNext_asks {s : State} {p : Nat} (hm : mayEnumerate s p (nodeCount s p + 1) = true) : discoverNext p s =
    sendReq p 0x1E 0x01 [] none 0
      (setPort p (fun q => { q with enumHop := nodeCount s p + 1, enumPhase := .discover, enumDone := false }) s) := by
  simp [discoverNext, hm]

/-- An SPL_RESCAN of one idle port that is up asks for its next node. -/
theorem startSplRescan_port {s : State} {p : Nat} (h0 : s.jobs.state = 0) (hp : p < s.variant.ports) (hu : linkUp s p = true)
    (hi : (portOf s p).enumPhase = .idle) (r : Ref) :
    startSplRescan r (2 ^ p) s = discoverNext p (setLink (fun l => { l with rescans := l.rescans ++ [(r, [p])] }) s) := by
  have hup : ([p].filter fun p => linkUp s p) = [p] := by simp [hu]
  have hi' : ((portOf (setLink (fun l => { l with rescans := l.rescans ++ [(r, [p])] }) s) p).enumPhase == .idle) = true :=
    beq_iff_eq.2 hi
  rw [startSplRescan_ports h0 (Nat.pow_lt_pow_right (by decide) hp), bitsOf_two_pow (lt_of_lt_of_le hp (Variant.ports_le _))]
  simp only [hup, List.isEmpty_cons, Bool.false_eq_true, if_false, List.foldl_cons, List.foldl_nil, hi', if_true]

theorem startSplIoRing_good {s : State} {b k : Nat} (hb : b % 32 = 0) (h6 : 6 ≤ k) (h16 : k ≤ 16) (hm : hostMem b (32 * 2 ^ k) s = true)
    (r : Ref) : startSplIoRing r b (2 ^ k) s = endWith r stDone (setLink (fun l => { l with
      ringSet := true, ringBase := BitVec.ofNat 64 b, ringSize := 2 ^ k, ringNext := 0, ringSeq := 0, ioEpisode := false }) s) := by
  have hlo : 64 ≤ 2 ^ k := Nat.pow_le_pow_right (n := 2) (by decide) h6
  have hhi : 2 ^ k ≤ 65536 := Nat.pow_le_pow_right (n := 2) (by decide) h16
  simp [startSplIoRing, hb, Nat.not_lt.2 hlo, Nat.not_lt.2 hhi, Nat.log2_two_pow, hm]

theorem startSplIoRing_unaligned {b : Nat} (hb : b % 32 ≠ 0) (r : Ref) (n : Nat) (s : State) :
    startSplIoRing r b n s = endWith r stParam s := by
  simp [startSplIoRing, hb]

/-- An answer to an OBJ_WRITE ends its descriptor with the node's status. -/
theorem answerHost_objWrite {q : SvcReq} (hq : q.type = 7) (r : Ref) (st : Nat) (d : List Byte) (s : State) :
    answerHost q r st d s = endWith r st s := by
  simp [answerHost, hq]

/-- Settles O23: each descriptor acts on the state in which it is outstanding, as the lemma of its command says. -/
theorem springLinkOpcodes : Obligations.SpringLinkOpcodes := by
  intro h s hr
  refine ⟨fun node p k hn => ⟨fun es a h0 h4 hp => ?_, fun f c a h1 h2 h3 h4 h5 => ?_, fun i o c a ha hc hm => ?_,
      fun i o c a ha hc => ?_, fun i o c a ha hi hc hm he => ?_, fun i o c a hi => ?_, fun h0 => ?_⟩,
    fun node hm h0 => ?_, fun hj => ⟨fun m => ?_, fun n => ?_⟩, fun m h0 hm hd => ?_, fun m h0 hm => ?_, fun p h0 hp hu hi => ?_,
    fun b k hb h6 h16 hm => ?_, fun b n hb => ?_, fun q r st d hq => answerHost_objWrite hq r st d s⟩
  · exact post_next hr ((startSplIoWrite_good h0 h4 hp _ _ _ _).trans (requestNode_present (s := accept h 0xB0 s) hn _ _ _ _))
  · exact post_next hr ((startSplIoRead_good (s := accept h 0xB1 s) h1 h2 h3 h4 h5 _ _).trans
      (requestNode_present (s := accept h 0xB1 s) hn _ _ _ _))
  · exact post_next hr (startSplObjRead_good (s := accept h 0xB2 s) hn ha hc hm _ _ _)
  · exact post_next hr (startSplObjRead_long (s := accept h 0xB2 s) (Option.isSome_of_eq_some hn) ha hc _ _ _)
  · exact post_next hr (startSplObjWrite_good (s := accept h 0xB3 s) hn ha hi hc hm he _ _)
  · exact post_next hr (startSplObjWrite_low hi _ _ _ _ _ _)
  · exact post_next hr ((startSplNodeReset_noJob (s := accept h 0xB5 s) h0 _ _).trans
      (requestNode_present (s := accept h 0xB5 s) hn _ _ _ _))
  · have absent (op : Nat) : nodeAt (accept h op s) node = none := nodeAt_otherModule hm
    exact ⟨post_next hr ((startSplNodeReset_noJob (s := accept h 0xB5 s) h0 _ _).trans (requestNode_absent (absent _) _ _ _ _)),
      fun f c a => post_next hr (startSplIoRead_absent (absent _) _ _ _ _),
      fun es a => post_next hr (startSplIoWrite_absent (absent _) _ _ _),
      fun i o c a => ⟨post_next hr (startSplObjRead_absent (absent _) _ _ _ _ _),
        post_next hr (startSplObjWrite_absent (absent _) _ _ _ _ _)⟩⟩
  · exact post_next hr (startSplRescan_job (s := accept h 0xB4 s) hj _ _)
  · exact post_next hr (startSplNodeReset_job (s := accept h 0xB5 s) hj _ _)
  · have hup : ((bitsOf 32 m).filter fun p => linkUp (accept h 0xB4 s) p) = [] :=
      List.filter_eq_nil_iff.2 fun p _ => ne_true_of_eq_false (hd p)
    exact post_next hr ((startSplRescan_ports (s := accept h 0xB4 s) h0 hm _).trans (if_pos (by rw [hup]; rfl)))
  · intro up hup
    exact post_next hr ((startSplRescan_ports (s := accept h 0xB4 s) h0 hm _).trans (if_neg (List.isEmpty_iff.not.2 hup)))
  · intro v hv
    exact post_next hr ((startSplRescan_port (s := accept h 0xB4 s) h0 hp hu hi _).trans (discoverNext_asks hv))
  · exact post_next hr (startSplIoRing_good (s := accept h 0xB6 s) hb h6 h16 hm _)
  · exact post_next hr (startSplIoRing_unaligned hb _ _ _)

end Sys2Proof.Machine
end

section
/-! SUPPORT. What a fetch takes and starts, where a completion record goes, and what the timers of the completion rings do. -/

namespace Sys2Proof.Machine

/-! ### DESCRIPTOR_FETCH (R22, R300, R301) -/

theorem descriptorFetch_full {s : State} (h : 512 ≤ s.hostq.outstanding.length) : descriptorFetch s = trackStalls s := by
  simp [descriptorFetch, h]

theorem descriptorFetch_none {s : State} (h : fetchRing s = none) : descriptorFetch s = trackStalls s := by
  simp [descriptorFetch, h]

theorem descriptorFetch_some {s : State} {r n : Nat} (h : s.hostq.outstanding.length < 512) (hr : fetchRing s = some (r, n)) :
    descriptorFetch s = trackStalls (fetchFrom r { s with hostq := { s.hostq with rrRing := r, rrTaken := n } }) := by
  simp [descriptorFetch, Nat.not_le.2 h, hr]

/-- The ring in turn goes on while it has given fewer than four. -/
theorem fetchRing_inTurn {s : State} (h4 : s.hostq.rrTaken < 4) (hm : mayFetch s s.hostq.rrRing = true) :
    fetchRing s = some (s.hostq.rrRing, s.hostq.rrTaken + 1) := by
  simp [fetchRing, h4, hm]

/-- Otherwise the next ring that may be fetched from is in turn. -/
theorem fetchRing_next {s : State} {r : Nat} (h : 4 ≤ s.hostq.rrTaken ∨ mayFetch s s.hostq.rrRing = false)
    (hf : ((List.range 64).map fun k => (s.hostq.rrRing + 1 + k) % 64).find? (fun r => mayFetch s r) = some r) :
    fetchRing s = some (r, 1) := by
  have hc : (decide (s.hostq.rrTaken < 4) && mayFetch s s.hostq.rrRing) = false := by
    rcases h with h | h
    · simp [Nat.not_lt.2 h]
    · simp [h]
  simp only [fetchRing, hc, Bool.false_eq_true, if_false, hf, Option.map_some]

/-- The place of HEAD in a command ring. -/
def headIndex (s : State) (r : Nat) : Nat := (cmdRing s r).head.toNat % (cmdRing s r).size

/-- The address of the descriptor at HEAD. -/
def headAddr (s : State) (r : Nat) : Nat := (cmdRing s r).base.toNat + 64 * headIndex s r

/-- The bytes of the descriptor at HEAD. -/
def headBytes (s : State) (r : Nat) : List Byte := memRead (headAddr s r) 64 s

/-- The descriptor at HEAD by its ring, place and serial number. -/
def headHdr (s : State) (r : Nat) : Hdr := descriptorHdr r (headIndex s r) (cmdRing s r).fetched (headBytes s r)

/-- The state once the descriptor at HEAD has been read: HEAD has gone on by one mod size (R300). -/
def readHeadOf (r : Nat) (s : State) : State :=
  setCmd r (fun c => { c with head := BitVec.ofNat 12 ((headIndex s r + 1) % c.size), fetched := c.fetched + 1 })
    (touchBasin (headAddr s r) 64 s)

/-- The opcode of the descriptor at HEAD, decoded where its reserved bits and bytes are 0. -/
def decodeHead (s : State) (r : Nat) : Option Instr := decodeDescriptor r (headIndex s r) (cmdRing s r).fetched (headBytes s r)

/-- What becomes of the descriptor at HEAD when it is read without an uncorrectable word: it is posted where it is well-formed. -/
theorem fetchFrom_readable {s : State} {r : Nat} (he : poisonIn (headAddr s r) 64 s = none) :
    fetchFrom r s = (decodeHead s r).elim
      (endWith (headHdr s r).ref stParam (accept (headHdr s r) (field (headBytes s r) 0 1) (readHeadOf r s)))
      (fun i => postDescriptor i (headHdr s r) (field (headBytes s r) 0 1) (startDescriptor i) (readHeadOf r s)) := by
  have he' : poisonIn (headAddr s r) 64 (readHeadOf r s) = none := he
  simp only [fetchFrom]
  split
  · next e h => exact absurd (he'.symm.trans h) (by simp)
  · split
    · next h => rw [show decodeHead s r = none from h]; rfl
    · next i h => rw [show decodeHead s r = some i from h]; rfl

/-- A well-formed descriptor is started as its opcode says. -/
theorem fetchFrom_wellFormed {s : State} {r : Nat} {i : Instr} (hn : s.hostq.outstanding.length < 512) (hp : profileInForce s = true)
    (he : poisonIn (headAddr s r) 64 s = none) (hd : decodeHead s r = some i) : fetchFrom r s =
      startDescriptor i (accept (headHdr s r) (field (headBytes s r) 0 1) (readHeadOf r s)) := by
  have hp' : profileInForce (accept (headHdr s r) (field (headBytes s r) 0 1) (readHeadOf r s)) = true := hp
  have hn' : ¬ 512 ≤ (readHeadOf r s).hostq.outstanding.length := Nat.not_le.2 hn
  rw [fetchFrom_readable he, hd, Option.elim_some, postDescriptor, if_neg hn']
  simp [hp']

/-- A descriptor with a reserved opcode, bit or byte ends with REJECTED_PARAM. -/
theorem fetchFrom_illFormed {s : State} {r : Nat} (he : poisonIn (headAddr s r) 64 s = none) (hd : decodeHead s r = none) :
    fetchFrom r s = endWith (headHdr s r).ref stParam (accept (headHdr s r) (field (headBytes s r) 0 1) (readHeadOf r s)) := by
  rw [fetchFrom_readable he, hd, Option.elim_none]

/-! ### COMPLETION_COLLECT and the timers of the completion rings (R300, R303 to R305) -/

theorem nextSlot_empty {s : State} (h : s.hostq.slots = List.replicate 320 none) : nextSlot s = none := by
  rw [nextSlot, List.findSome?_eq_none_iff]
  intro i _
  rw [h, unit, List.getD_eq_getElem?_getD, List.getElem?_replicate]
  split <;> rfl

theorem collectOne_none {s : State} (h : nextSlot s = none) : collectOne s = s := by
  simp [collectOne, h]

theorem collectOne_some {s : State} {i : Nat} {f : Finished} (h : nextSlot s = some (i, f)) :
    collectOne s = writeCompletion f (refillSlot i { s with hostq := { s.hostq with collect := (i + 1) % 320 } }) := by
  simp [collectOne, h]

theorem completionCollect_none {s : State} (h : nextSlot s = none) : completionCollect s = trackStalls s := by
  simp [completionCollect, collectOne_none h]

/-- A record without an interrupt goes to base + 32 × TAIL of its ring, and TAIL and PHASE go on (R303). -/
theorem writeCompletion_quiet {f : Finished} {s : State} (he : (complRing s f.tk.cq).enable = true) (hi : f.tk.hdr.irq = false)
    (hc : (complRing s f.tk.cq).intCount = 0) : writeCompletion f s =
      let q := complRing s f.tk.cq
      settle (markFences f.tk.hdr.ref f.status (dropTicket f.tk.hdr.ref
        (setCq f.tk.cq (fun _ => { q with
            tail := if q.tail.toNat + 1 = q.size then 0 else q.tail + 1
            phase := if q.tail.toNat + 1 = q.size then !q.phase else q.phase
            since := q.since + 1
            first := if q.first.isSome then q.first else some s.now })
          (memPut (q.base.toNat + 32 * q.tail.toNat) (completionBytes f q.phase) s)))) := by
  cases hq : (complRing s f.tk.cq).first <;> simp [writeCompletion, he, hi, hc, hq]

theorem intTimeExpire_due {s : State} {c f : Nat} (hf : (complRing s c).first = some f) (hi : (complRing s c).intTime ≠ 0)
    (ht : f + 1000 * (complRing s c).intTime.toNat ≤ s.now) :
    intTimeExpire c s = fireVector c (setCq c (fun q => { q with since := 0, first := none }) s) := by
  have hc : ((complRing s c).intTime != 0 && decide (f + 1000 * (complRing s c).intTime.toNat ≤ s.now)) = true := by
    rw [bne_iff_ne.2 hi, decide_eq_true ht, Bool.true_and]
  simp only [intTimeExpire, hf, hc, if_true, fireCq]

theorem cqStalled_late {s : State} {r t0 : Nat} (hs : (cmdRing s r).stall = some t0) (hr : ringStalled s r = true)
    (ht : t0 + 100000000 < s.now) : cqStalled r s = raise 0xA009 (natLE 1 r ++ natLE 1 (cmdRing s r).cq.toNat) s := by
  simp [cqStalled, hs, hr, ht]

/-- Settles O32: a fetch by the ring in turn and the form of its descriptor, the completions by their slots, the timers by the time. -/
theorem fetchCollectAndStall : Obligations.FetchCollectAndStall := by
  intro t s
  refine ⟨fun h => congrArg Host.Outcome.next (descriptorFetch_full h), fun _ h => congrArg Host.Outcome.next (descriptorFetch_none h),
    fun r n hn hr => ?_, fun h => congrArg Host.Outcome.next (completionCollect_none (nextSlot_empty h)), rfl,
    collectOne_none, fun i f h => collectOne_some h, fun f he hi hc => writeCompletion_quiet he hi hc,
    fun c f hf hi ht => congrArg Host.Outcome.next (intTimeExpire_due (s := passTo t s) hf hi ht),
    fun r t0 hs hr ht => congrArg Host.Outcome.next (cqStalled_late (s := passTo t s) hs hr ht)⟩
  intro c k b u he
  have hring : fetchRing (passTo t s) = some (r, n) := by
    rcases hr with ⟨rfl, rfl, h4, hm⟩ | ⟨rfl, h4, hf⟩
    · exact fetchRing_inTurn (s := passTo t s) h4 hm
    · exact fetchRing_next (s := passTo t s) h4 hf
  have fetches {v : State}
      (hv : fetchFrom r { passTo t s with hostq := { s.hostq with rrRing := r, rrTaken := n } } = v) :
      exec (.descriptorFetch t) s = .next (trackStalls v) :=
    congrArg Host.Outcome.next ((descriptorFetch_some (s := passTo t s) hn hring).trans (congrArg trackStalls hv))
  exact ⟨fun i hd hp => fetches (fetchFrom_wellFormed hn hp he hd), fun hd => fetches (fetchFrom_illFormed he hd)⟩

end Sys2Proof.Machine
end

section
/-! SUPPORT. How LAYER_QUEUE and MARK_QUEUE are parked, what the end of a layer's validation does, and what MARK_START begins or skips. -/

namespace Sys2Proof.Machine

/-- A descriptor that may start is parked with the ticket that it got. -/
theorem park_accepted {h : Hdr} {op : Nat} {s u : State} (hr : Ready h s) (hu : u.hostq = (accept h op s).hostq) :
    park h.ref u = { u with hostq := { s.hostq with
      parked := s.hostq.parked ++ [{ hdr := h, opcode := op, cq := (cmdRing s h.ring).cq.toNat }] } } := by
  have hnew : ∀ tk ∈ s.hostq.outstanding, ¬ (tk.hdr.ref == h.ref) = true := fun tk ht =>
    List.find?_eq_none.1 hr.fresh tk (List.mem_append_left _ ht)
  simp [park, hu, List.find?_append, List.find?_eq_none.2 hnew, List.eraseP_append_right _ hnew]

/-! ### LAYER_QUEUE (R35, R60) -/

/-- The layer that a LAYER_QUEUE adds: not validated and not bound. -/
def queuedLayer (r : Ref) (a : Nat) (x : LayerHead) : Layer :=
  { index := x.index, ref := r, addr := a, flags := x.flags, psetTable := x.table, status := x.status, mask := x.mask
    passed := false, bound := false, fetched := false, lanes := [] }

/-- With no index failed, a LAYER_QUEUE that is taken adds its layer at the end, its validation due last. -/
theorem takeLayer_noneFailed {s : State} (hf : s.jobs.failed = []) (r : Ref) (a : Nat) (x : LayerHead) :
    takeLayer r a x s = park r (setJobs (fun j => { j with
      layers := j.layers ++ [queuedLayer r a x], checks := j.checks ++ [x.index] }) s) := by
  simp [takeLayer, setJobs, queuedLayer, hf]

/-- The next new index may be queued (R35). -/
theorem indexOk_next {s : State} {i : Nat} (hi : i = queueIndex s) : indexOk s i = true := by
  simp [indexOk, hi]

/-- A LAYER_QUEUE whose place and head pass their checks is taken (R35). -/
theorem startLayerQueue_good {s : State} {a : Nat} (h0 : s.jobs.state ≠ 0) (hl : s.jobs.line = false) (hn : s.jobs.layers.length < 64)
    (ha : a % 64 = 0) (hm : hostMem a 4160 s = true) (he : poisonIn a 64 s = none)
    (hg : field (memRead a 64 s) 0 4 = layerMagic) (hi : indexOk s (readHead (memRead a 64 s)).index = true)
    (hs : (readHead (memRead a 64 s)).status % 64 = 0) (hb : hostMem (readHead (memRead a 64 s)).status 2048 s = true) (r : Ref) :
    startLayerQueue r a s = takeLayer r a (readHead (memRead a 64 s)) s := by
  simp [startLayerQueue, (jobExists_iff s).2 h0, hl, Nat.not_le.2 hn, ha, hm, he, hg, hi, hs, hb]

/-! ### MARK_QUEUE (R86) -/

/-- The operands of a MARK_QUEUE name a lane of a LINE job that goes on, and regions that R86 and R600 allow. -/
structure MarkOperands (l a r c : Nat) (j : JobHeader) (s : State) : Prop where
  header : s.jobs.header = some j
  line : j.line = true
  goesOn : s.jobs.state ≠ 12
  fits : l < s.variant.lanes
  lane : j.lanes.getLsbD l = true
  aligned : a % 32 = 0
  least : 1 ≤ c
  most : c ≤ 16777215
  stream : hostMem a (32 * c) s = true
  resultAligned : r % 32 = 0
  result : c = 1 ∨ hostMem r (32 * (c - 1)) s = true
  apart : overlap (a, 32 * c) (r, 32 * (c - 1)) = false

/-- The regions of the stream and of the results pass their check. -/
theorem MarkOperands.regionsOk {s : State} {l a r c : Nat} {j : JobHeader} (g : MarkOperands l a r c j s) :
    (a % 32 == 0 && decide (1 ≤ c) && decide (c ≤ 16777215) && hostMem a (32 * c) s && r % 32 == 0 &&
      (c == 1 || hostMem r (32 * (c - 1)) s) && !overlap (a, 32 * c) (r, 32 * (c - 1))) = true := by
  simp [g.aligned, g.least, g.most, g.stream, g.resultAligned, g.result, g.apart]

/-- What MARK_QUEUE asks before it looks at the lane's marks is met. -/
theorem MarkOperands.checks {s : State} {l a r c : Nat} {j : JobHeader} (g : MarkOperands l a r c j s) :
    (!j.line || s.jobs.state == 12) = false ∧ (decide (s.variant.lanes ≤ l) || !j.lanes.getLsbD l) = false :=
  ⟨by rw [g.line, beq_false_of_ne g.goesOn]; rfl, by simp [g.lane, g.fits]⟩

theorem startMarkQueue_full {s : State} {l a r c : Nat} {j : JobHeader} (g : MarkOperands l a r c j s)
    (hf : 64 ≤ (laneOf s l).marks.length) (ref : Ref) (p : Nat) : startMarkQueue ref l p a r c s = endWith ref stBusy s := by
  obtain ⟨hline, hlane⟩ := g.checks
  simp only [startMarkQueue, jobHeader, g.header, g.regionsOk, hline, hlane, Bool.not_true, Bool.or_false, Bool.false_eq_true, if_false,
    hf, if_true]

/-- The product that a MARK_QUEUE names: its own, or the next unassigned one. -/
def markProduct (s : State) (l p : Nat) : Nat := if p = 0xFFFFFFFF then nextUnassigned s l else p

/-- The check of a mark's stream. -/
def markScan (s : State) (j : JobHeader) (l a c : Nat) : Scan :=
  scanStream s { lane := l, line := true, table := j.psetTable, mask := j.lanes, addr := a, count := c } (streamBytes s a c)

/-- A mark with no SYNC of another module, or with no JOB_START that waits without AT_TIME, lets the job's start be. -/
theorem crossMark_harmless {s : State} {j : JobHeader} {cross : Bool} (hj : s.jobs.header = some j)
    (h : s.jobs.startRef = none ∨ j.atTime.isSome ∨ cross = false) : crossMark cross s = s := by
  cases hs : s.jobs.startRef with
  | none => simp [crossMark, hs]
  | some sr =>
    have hc : (cross && j.atTime.isNone) = false := by
      rcases h with h | h | h
      · simp [hs] at h
      · simp [h]
      · simp [h]
    simp [crossMark, jobHeader, hs, hj, hc]

/-- A MARK_QUEUE for a product that is still open on its lane, whose stream passes, adds its mark and is parked. -/
theorem startMarkQueue_good {s : State} {l p a r c : Nat} {j : JobHeader} (g : MarkOperands l a r c j s)
    (hf : (laneOf s l).marks.length < 64) (hk : ((laneOf s l).marks.any fun m => m.product = markProduct s l p) = false)
    (hp : p = 0xFFFFFFFF ∨ (j.first ≤ p ∧ settled s l p = false)) (he : readPoison a (32 * c) s = s)
    (hs : (markScan s j l a c).error = none)
    (hd : ∀ y ∈ (markScan s j l a c).syncs, ∀ z ∈ markSyncs s (markProduct s l p) l, y.differs z = false)
    (hx : s.jobs.startRef = none ∨ j.atTime.isSome ∨ ∀ y ∈ (markScan s j l a c).syncs, y.members = 2 ^ s.prof.machine.member)
    (ref : Ref) : startMarkQueue ref l p a r c s = stageMark l (park ref (setLane l (fun x => { x with
      marks := x.marks ++
        [{ ref := ref, product := markProduct s l p, addr := a, result := r, count := c, checked := streamBytes s a c }] }) s)) := by
  obtain ⟨hline, hlane⟩ := g.checks
  have hproduct : (if decide (p = 0xFFFFFFFF) = true then nextUnassigned s l else p) = markProduct s l p := by simp [markProduct]
  have hopen : (!decide (p = 0xFFFFFFFF) && decide (markProduct s l p < j.first)) = false ∧
      (!decide (p = 0xFFFFFFFF) && settled s l (markProduct s l p)) = false := by
    by_cases h : p = 0xFFFFFFFF
    · simp [h]
    · obtain ⟨hfirst, hsettled⟩ := hp.resolve_left h
      simp [markProduct, h, hfirst, hsettled]
  have hagree : ((markScan s j l a c).syncs.any fun y => (markSyncs s (markProduct s l p) l).any fun z => y.differs z) = false := by
    simpa using hd
  have hcross : s.jobs.startRef = none ∨ j.atTime.isSome ∨
      ((markScan s j l a c).syncs.any fun y => y.members != 2 ^ s.prof.machine.member) = false :=
    hx.imp_right (Or.imp_right fun h => by simpa using h)
  simp only [markScan] at hs hagree hcross
  simp only [startMarkQueue, jobHeader, g.header, g.regionsOk, hline, hlane, Bool.not_true, Bool.or_false, Bool.false_eq_true, if_false,
    Nat.not_le.2 hf, hproduct, hk, hopen.1, hopen.2, he, hs, hagree, Option.isSome_none, crossMark_harmless g.header hcross]

/-! ### LAYER_VALIDATION_DONE (R60) -/

/-- The first of the validations that are due is taken out. -/
def dropCheck (rest : List Nat) (s : State) : State := setJobs (fun j => { j with checks := rest }) s

theorem validationDone_none {s : State} (h : s.jobs.checks = []) : validationDone s = s := by
  simp [validationDone, h]

/-- What LAYER_VALIDATION_DONE makes of a layer whose validation is due first and fails. -/
theorem validationDone_fails {s : State} {i : Nat} {rest : List Nat} {x : Layer} (hc : s.jobs.checks = i :: rest)
    (hx : layerOf s i = some x) (hd : (checkLayer (dropCheck rest s) x).status ≠ stDone) :
    validationDone s =
      let u := dropCheck rest s
      let c := checkLayer u x
      layerFails x c.status c.errors (if c.status = stEcc then checkPoison x u else u) := by
  have hu : setJobs (fun j => { j with checks := rest }) s = dropCheck rest s := rfl
  have hx' : layerOf (dropCheck rest s) i = some x := hx
  simp only [validationDone, hc, hu, hx', bne_iff_ne.2 hd, if_true]

/-- With no JOB_START that waits, a layer whose check finds nothing passes. -/
theorem validationDone_passes {s : State} {i : Nat} {rest : List Nat} {x : Layer} (hc : s.jobs.checks = i :: rest)
    (hx : layerOf s i = some x) (hr : s.jobs.startRef = none) (hd : (checkLayer (dropCheck rest s) x).status = stDone) :
    validationDone s = layerPasses (checkLayer (dropCheck rest s) x) (dropCheck rest s) := by
  have hu : setJobs (fun j => { j with checks := rest }) s = dropCheck rest s := rfl
  have hx' : layerOf (dropCheck rest s) i = some x := hx
  have hr' : (dropCheck rest s).jobs.startRef = none := hr
  have hne : stDone ≠ stEcc := by decide
  simp only [validationDone, hc, hu, hx', hd, hr', if_neg hne, bne_self_eq_false, Bool.false_eq_true, if_false]

/-! ### MARK_START (R87, R88) -/

/-- A unit that a change leaves as it is, or that is not there, leaves the units as they are. -/
theorem modUnit_of_fixed {α : Type} {xs : List α} {i : Nat} {f : α → α} {d : α} (h : f (unit xs i d) = unit xs i d) :
    modUnit xs i f = xs := by
  apply List.ext_getElem?
  intro k
  rw [modUnit, List.getElem?_modify]
  by_cases hk : i = k
  · subst hk
    cases hx : xs[i]? with
    | none => simp
    | some x => simpa [unit, List.getD_eq_getElem?_getD, hx] using h
  · simp [hk]

/-- A lane without a request to re-enable it has none to clear. -/
theorem setLane_reenable_false {s : State} {l : Nat} (h : (laneOf s l).reenable = false) :
    setLane l (fun x => { x with reenable := false }) s = s := by
  have hf : ({ laneOf s l with reenable := false } : Lane) = laneOf s l := by rw [← h]
  exact congrArg (fun ls => { s with lanes := ls }) (modUnit_of_fixed (f := fun x : Lane => { x with reenable := false }) (d := .reset) hf)

/-- A lane stands ready for product p in LINE_RUN: it is idle, p's S has been reached, its node is present, nothing is to be held. -/
structure MarkDue (l : Nat) (p : Product) (s : State) : Prop where
  run : s.jobs.state = 11
  noHold : s.jobs.holdAsked = []
  lane : (jobLanes s).contains l = true
  due : dueProduct s l = some p
  noReenable : (laneOf s l).reenable = false
  idle : (laneOf s l).state = .idle
  noMark : (laneOf s l).marking = none
  node : (beamNode s l).isSome

/-- Where a lane has nothing to stage, MARK_START skips the product or begins its mark. -/
theorem markStart_due {s : State} {l : Nat} {p : Product} (g : MarkDue l p s) (hst : stageMark l s = s) :
    markStart l s =
      if !((laneOf s l).marks.any fun m => m.product = p.k) then
        skipMark l p.k 3 false
          (if (laneOf s l).noData then s else raise 0x3011 [] (setLane l (fun x => { x with noData := true }) s))
      else beginMark l p.k (markCount s l p) s := by
  have hgo : (s.jobs.state != 11 || !s.jobs.holdAsked.isEmpty || !((jobLanes s).contains l)) = false := by
    rw [g.run, g.noHold, g.lane]; rfl
  have hback : ((laneOf s l).reenable && (laneOf s l).state == .fault) = false := by rw [g.noReenable, Bool.false_and]
  have hbeam : (beamNode s l).isNone = false := Option.isNone_eq_false_iff.2 g.node
  simp only [markStart, hgo, g.due, hback, Bool.false_eq_true, if_false, setLane_reenable_false g.noReenable, hst]
  simp only [g.idle, g.noMark, hbeam, Option.isSome_none, LaneState.active, reduceCtorEq, decide_false, Bool.or_self,
    Bool.false_eq_true, if_false]

/-- With no mark queued, a lane that has told so skips its product as NO_DATA. -/
theorem markStart_noData {s : State} {l : Nat} {p : Product} (g : MarkDue l p s) (hm : (laneOf s l).marks = [])
    (hd : (laneOf s l).noData = true) : markStart l s = skipMark l p.k 3 false s := by
  have hst : stageMark l s = s := by simp [stageMark, hm]
  simp [markStart_due g hst, hm, hd]

/-- A mark that waits in the lane's buffer begins. -/
theorem markStart_begins {s : State} {l : Nat} {p : Product} {m : Mark} (g : MarkDue l p s) (hm : (laneOf s l).marks = [m])
    (hk : m.product = p.k) (hb : ((laneOf s l).stream.any fun st => st.key = m.product) = true) :
    markStart l s = beginMark l p.k (markCount s l p) s := by
  have hst : stageMark l s = s := by simp [stageMark, hm, hb]
  simp [markStart_due g hst, hm, hk]

theorem markStart_outside {s : State} (h : s.jobs.state ≠ 11) (l : Nat) : markStart l s = s := by
  have hgo : (s.jobs.state != 11 || !s.jobs.holdAsked.isEmpty || !((jobLanes s).contains l)) = true := by
    rw [bne_iff_ne.2 h, Bool.true_or, Bool.true_or]
  rw [markStart, if_pos hgo]

theorem lineSettle_build {s : State} (h : s.jobs.line = false) : lineSettle s = s := by
  simp [lineSettle, h]

/-- Settles O2: LAYER_QUEUE and MARK_QUEUE by their checks, LAYER_VALIDATION_DONE by the check that is due, MARK_START by what the
lane holds for its next product. -/
theorem layersAndMarksAreParked : Obligations.LayersAndMarksAreParked := by
  intro h s hr
  refine ⟨fun a h0 hl hn ha hm he hf => ?_, fun a h0 hl hn ha hm he => ?_,
    fun l p a r c j hj hline h12 hfit hlane ha h1 hmax hm hra hres hov => ?_,
    fun t hc => congrArg Host.Outcome.next (validationDone_none (s := passTo t s) hc),
    fun t i rest x hc hx hs => ⟨fun hd => ?_, fun hd => ?_⟩,
    fun t l p hrun hno hlane hdue hre hidle hmk hms hb hnd => ?_, fun t l p m hrun hno hlane hdue hre hidle hmk hms hk hb hst => ?_,
    fun t l hrun hline => ?_⟩
  · intro x hg hi hs hb y
    have htake : startLayerQueue h.ref a (accept h 0x12 s) = takeLayer h.ref a x (accept h 0x12 s) :=
      startLayerQueue_good (s := accept h 0x12 s) h0 hl hn ha hm he hg (indexOk_next (s := accept h 0x12 s) hi) hs hb h.ref
    have hpark := (takeLayer_noneFailed (s := accept h 0x12 s) hf h.ref a x).trans (park_accepted (op := 0x12) hr rfl)
    exact ⟨_, post_next hr (htake.trans hpark), rfl, rfl, rfl, rfl, rfl⟩
  · intro x hg hi hs hb
    exact post_next hr (startLayerQueue_good (s := accept h 0x12 s) h0 hl hn ha hm he hg hi hs hb h.ref)
  · have g : MarkOperands l a r c j (accept h 0x17 s) := ⟨hj, hline, h12, hfit, hlane, ha, h1, hmax, hm, hra, hres, hov⟩
    exact ⟨fun hf => post_next hr (startMarkQueue_full g hf _ _),
      fun hf hk hp he hs hd hx => post_next hr (startMarkQueue_good g hf hk hp he hs hd hx _)⟩
  · exact congrArg Host.Outcome.next (validationDone_passes (s := passTo t s) hc hx hs hd)
  · exact congrArg Host.Outcome.next (validationDone_fails (s := passTo t s) hc hx hd)
  · have g : MarkDue l p (passTo t s) := ⟨hrun, hno, hlane, hdue, hre, hidle, hmk, hb⟩
    exact congrArg (fun u => Host.Outcome.next (lineSettle u)) (markStart_noData g hms hnd)
  · have g : MarkDue l p (passTo t s) := ⟨hrun, hno, hlane, hdue, hre, hidle, hmk, hb⟩
    exact congrArg (fun u => Host.Outcome.next (lineSettle u)) (markStart_begins g hms hk hst)
  · exact congrArg Host.Outcome.next
      ((congrArg lineSettle (markStart_outside (s := passTo t s) hrun l)).trans (lineSettle_build (s := passTo t s) hline))

end Sys2Proof.Machine
end

section
/-! SUPPORT. What JOB_TOR begins, and when the stage that it begins ends. -/

namespace Sys2Proof.Machine

/-! ### JOB_TOR of a BUILD job (R63) -/

theorem holdWanted_none {s : State} (ha : s.jobs.holdAsked = []) (hm : s.jobs.machine = false) : holdWanted s = none := by
  simp [holdWanted, machineJob, ha, hm]

/-- The start stages of a BUILD job whose first layer is ready are counted from TOR. -/
theorem jobTor_startStages {s : State} {tor : Ns} {h : JobHeader} (ht : s.jobs.tor = some tor) (hn : tor ≤ s.now)
    (h1 : s.jobs.state = 1) (hr : s.jobs.startRef = none) (ha : s.jobs.holdAsked = []) (hm : s.jobs.machine = false)
    (hh : s.jobs.header = some h) (hl : h.line = false) (hf : nextReady s = true) : jobTor s = startStages tor s := by
  simp [jobTor, firstStage, jobHeader, ht, Nat.not_lt.2 hn, h1, hr, holdWanted_none ha hm, hh, hl, hf]

/-- A BUILD job that starts with its first RECOAT. -/
def recoatJob : JobHeader :=
  { line := false, atTime := some 9, jobId := 0, lanes := 0, degraded := false, repeatOnce := false, initialRecoat := true
    machine := false, first := 0, minLanes := 0, marginUs := 0, timeoutMs := 0, psetTable := 0, trigSource := 0, trigEncoder := 0
    markWindow := 0, markAddr := 0, markCount := 0, delays := [] }

/-- Its first layer, validated, which no lane exposes. -/
def firstLayer : Layer :=
  { index := 0, ref := (0, 0), addr := 0, flags := 0, psetTable := 0, status := 0, mask := 0, passed := true, bound := true
    fetched := true, lanes := [] }

/-- The job waits for its TOR, 9 ns. -/
def waitsForTor : State :=
  { State.reset with jobs := { Jobs.reset with state := 1, tor := some 9, header := some recoatJob, layers := [firstLayer] } }

/-- A stage that begins at another time ends at another time. -/
theorem startStages_waitsForTor_ne : startStages 9 (passTo 10 waitsForTor) ≠ startStages 10 (passTo 10 waitsForTor) := fun h =>
  absurd (congrArg (fun s => s.jobs.stageEnd) h) (by decide +kernel)

/-- Refutes O3: JOB_TOR at 10 ns of a job whose TOR is 9 ns begins RECOAT at TOR, and not at the time of the command, so RECOAT ends
1 ns earlier than the statement says. -/
theorem not_sequencerStagesAndLayerCompletion : ¬ Obligations.SequencerStagesAndLayerCompletion := by
  intro h
  obtain ⟨hclauses, -⟩ := h
  obtain ⟨-, -, hstart, -⟩ := hclauses 10 waitsForTor
  have claimed : exec (.jobTor 10) waitsForTor = .next (startStages 10 (passTo 10 waitsForTor)) :=
    hstart 9 recoatJob rfl (by decide) rfl rfl rfl rfl rfl rfl (by decide +kernel)
  have actual : exec (.jobTor 10) waitsForTor = .next (startStages 9 (passTo 10 waitsForTor)) :=
    congrArg Host.Outcome.next (jobTor_startStages (h := recoatJob) rfl (by decide) rfl rfl rfl rfl rfl rfl (by decide +kernel))
  exact startStages_waitsForTor_ne (Host.Outcome.next.inj (actual.symm.trans claimed))

end Sys2Proof.Machine
end

section
/-! SUPPORT. What the frames of a machine job bring about in its leader and in its members. -/

namespace Sys2Proof.Machine

/-! ### STAGE_REPORT_SEND and MEMBER_ARM_CHECK (R80, R348) -/

theorem report_oneModule {s : State} (hm : s.jobs.machine = false) (a f : Bool) : report a f s = s := by
  simp [report, machineJob, hm]

theorem report_leader {s : State} (hl : isLeader s = true) (a f : Bool) : report a f s = s := by
  simp [report, hl]

theorem report_member {s : State} (hm : s.jobs.machine = true) (hl : isLeader s = false) (a f : Bool) :
    report a f s = sendControl 6 (reportBytes s a f) s := by
  simp [report, machineJob, hm, hl]

/-- A report at most sends a frame. -/
theorem report_eq (a f : Bool) (s : State) : report a f s = { s with sent := (report a f s).sent } := by
  unfold report
  split <;> rfl

@[simp] theorem report_jobs (a f : Bool) (s : State) : (report a f s).jobs = s.jobs := by rw [report_eq]

theorem isLeader_report (a f : Bool) (s : State) : isLeader (report a f s) = isLeader s := by rw [report_eq]; rfl

/-- From L − T_lead − 3 ms on a lane is not ARMED, the layer start is not posted, and ARM has been postponed by less than 1 s (R80). -/
structure ArmsLate (s : State) : Prop where
  arm : s.jobs.state = 8
  notPosted : s.jobs.final = false
  due : s.jobs.l ≤ s.now + tLead s + 3000000
  waits : notArmed s ≠ []
  first : s.jobs.late < 1000

theorem memberArmCheck_oneModule {s : State} (hm : s.jobs.machine = false) : memberArmCheck s = s := by
  simp [memberArmCheck, hm]

theorem memberArmCheck_late {s : State} (hm : s.jobs.machine = true) (g : ArmsLate s) :
    memberArmCheck s = if isLeader s then leaderPostpone s else report true false s := by
  obtain ⟨h8, hf, hd, hw, hl⟩ := g
  simp [memberArmCheck, hm, h8, hf, Nat.not_lt.2 hd, hw, Nat.not_le.2 hl]

/-! ### STAGE_PLAN_RECEIVE and STAGE_PLAN_RESEND (R78, R80, R348, R351) -/

theorem machineResume_notHeld {s : State} (h : s.jobs.state ≠ 10) : machineResume s = s := by
  have hne : (s.jobs.state != 10) = true := bne_iff_ne.2 h
  rw [machineResume, hne, Bool.true_or, if_pos rfl]

/-- Outside ARM no plan moves L. -/
theorem planMovesL_notArm {s : State} (h : s.jobs.state ≠ 8) : planMovesL s = s := by
  have hne : (s.jobs.state == 8) = false := beq_false_of_ne h
  simp only [planMovesL, hne, Bool.false_and, Bool.false_eq_true, if_false]
  split
  · split <;> rfl
  · rfl

theorem stagePlan_oneModule {s : State} (hm : s.jobs.machine = false) (a b : Nat) (c : List PlanEntry) : stagePlan a b c s = s := by
  simp [stagePlan, machineJob, hm]

theorem stagePlan_notFromLeader {s : State} {a : Nat} (ha : a ≠ s.members.leaderMember.toNat) (b : Nat) (c : List PlanEntry) :
    stagePlan a b c s = s := by
  simp [stagePlan, ha.symm]

/-- A plan's sequence number is acknowledged, and its entries are taken unless that number was acknowledged already. -/
def takePlan (b : Nat) (c : List PlanEntry) (s : State) : State :=
  { s with members := { s.members with
      ackSeq := b
      plans := if b = s.members.ackSeq then s.members.plans else c.foldl (fun es e => addEntry e es) s.members.plans } }

theorem stagePlan_fromLeader {s : State} (hm : s.jobs.machine = true) (hl : isLeader s = false) (he : s.members.elected = true) (b : Nat)
    (c : List PlanEntry) : stagePlan s.members.leaderMember.toNat b c s =
      machineResume (report false false (planMovesL (takePlan b c s))) := by
  simp [stagePlan, takePlan, machineJob, hm, hl, he]

/-- A plan that neither moves L nor resumes a held job is only answered. -/
theorem stagePlan_answered {s : State} (h8 : s.jobs.state ≠ 8) (h10 : s.jobs.state ≠ 10) (b : Nat) (c : List PlanEntry) :
    machineResume (report false false (planMovesL (takePlan b c s))) = report false false (takePlan b c s) := by
  rw [planMovesL_notArm (s := takePlan b c s) h8, machineResume_notHeld (by rw [report_jobs]; exact h10)]

theorem planResend_oneModule {s : State} (hm : s.jobs.machine = false) : planResend s = s := by
  simp [planResend, machineJob, hm]

theorem planResend_unacknowledged {s : State} (hm : s.jobs.machine = true) (hl : isLeader s = true) (hp : s.members.plan ≠ [])
    (ha : planAcked s = false) : planResend s = sendPlan s := by
  simp [planResend, machineJob, hm, hl, hp, ha]

/-! ### STAGE_REPORT_RECEIVE (R79, R80) -/

theorem stageReport_oneModule {s : State} (hm : s.jobs.machine = false) (a b c d e f g : Nat) : stageReport a b c d e f g s = s := by
  simp [stageReport, machineJob, hm]

theorem stageReport_stranger {s : State} {a : Nat} (ha : (otherMembers s).contains a = false) (b c d e f g : Nat) :
    stageReport a b c d e f g s = s := by
  simp only [stageReport, ha, Bool.not_false, Bool.or_true, if_true]

/-- With no plan of its own to be acknowledged, outside ARM and HELD, a leader only notes the report of a member that is not held. -/
theorem stageReport_noted {s : State} {a c : Nat} (hm : s.jobs.machine = true) (hl : isLeader s = true)
    (ha : (otherMembers s).contains a = true) (hp : s.members.plan = []) (hc : c ≠ 10) (h8 : s.jobs.state ≠ 8)
    (h10 : s.jobs.state ≠ 10) (b d f g i : Nat) : stageReport a b c d f g i s = setMember a (fun m => { m with
      ack := b, jobState := c, repCause := d, repFlags := f, repMode := g, repLayer := i }) s := by
  have noPlan : ∀ u : State, u.members.plan = [] → { u with members := { u.members with plan := [] } } = u := fun u hu => by
    rw [← hu]
  have hne : (s.jobs.state == 8) = false := beq_false_of_ne h8
  have still {F : Member → Member} : machineResume (setMember a F s) = setMember a F s := machineResume_notHeld h10
  simp only [stageReport, machineJob, hm, hl, ha, hc, Bool.not_true, Bool.or_false, Bool.false_eq_true, if_false, decide_false,
    Bool.false_and]
  split
  · rw [noPlan (setMember a _ s) hp]
    simp only [setMember_jobs, hne, Bool.false_and, Bool.and_false, Bool.false_eq_true, if_false, still]
  · simp only [setMember_jobs, hne, Bool.false_and, Bool.and_false, Bool.false_eq_true, if_false, still]

/-- Settles O5: each frame by the role of the module in the machine. -/
theorem machineJobFrames : Obligations.MachineJobFrames := by
  intro t s
  refine ⟨fun hm => ⟨fun a b c => ?_, fun a b c d e f g => ?_, ?_, ?_, ?_⟩, fun hm hl => ⟨?_, fun b c a ha => ?_,
    fun b c he h8 h10 => ?_, fun b c he => ?_, fun h8 hf hd hw hlate => ?_⟩, fun hm hl => ⟨?_, fun hp ha => ?_,
    fun h8 hf hd hw hlate => ?_, fun b c d e f g a ha => ?_, fun b c f g a ha hp hc h8 h10 => ?_⟩⟩
  · exact congrArg Host.Outcome.next (stagePlan_oneModule (s := passTo t s) hm a b c)
  · exact congrArg Host.Outcome.next (stageReport_oneModule (s := passTo t s) hm a b c d e f g)
  · exact congrArg Host.Outcome.next (memberArmCheck_oneModule (s := passTo t s) hm)
  · exact congrArg Host.Outcome.next (planResend_oneModule (s := passTo t s) hm)
  · exact congrArg Host.Outcome.next (report_oneModule (s := passTo t s) hm _ _)
  · exact congrArg Host.Outcome.next (report_member (s := passTo t s) hm hl _ _)
  · exact congrArg Host.Outcome.next (stagePlan_notFromLeader (s := passTo t s) ha b c)
  · exact congrArg Host.Outcome.next ((stagePlan_fromLeader (s := passTo t s) hm hl he b c).trans
      (stagePlan_answered (s := passTo t s) h8 h10 b c))
  · exact congrArg Host.Outcome.next (stagePlan_fromLeader (s := passTo t s) hm hl he b c)
  · have g : ArmsLate (passTo t s) := ⟨h8, hf, hd, hw, hlate⟩
    exact congrArg Host.Outcome.next ((memberArmCheck_late (s := passTo t s) hm g).trans ((if_neg (ne_true_of_eq_false hl)).trans
      (report_member (s := passTo t s) hm hl _ _)))
  · exact congrArg Host.Outcome.next (report_leader (s := passTo t s) hl _ _)
  · exact congrArg Host.Outcome.next (planResend_unacknowledged (s := passTo t s) hm hl hp ha)
  · have g : ArmsLate (passTo t s) := ⟨h8, hf, hd, hw, hlate⟩
    exact congrArg Host.Outcome.next ((memberArmCheck_late (s := passTo t s) hm g).trans (if_pos hl))
  · exact congrArg Host.Outcome.next (stageReport_stranger (s := passTo t s) ha b c d e f g)
  · exact congrArg Host.Outcome.next (stageReport_noted (s := passTo t s) hm hl ha hp hc h8 h10 b 0 f 0 g)

end Sys2Proof.Machine
end

section
/-! SUPPORT. How the products of a LINE job are numbered and how their mark records are written. -/

namespace Sys2Proof.Machine

/-! ### Triggers (R85, R91) -/

/-- The product that a trigger in LINE_RUN defines: none of its lanes has settled it. -/
def triggered (count : Int) (s : State) : Product :=
  { k := s.jobs.nextProduct, count := count, time := s.now, held := false, done := 0, skipped := 0, flags := 0 }

theorem newProduct_run {s : State} (hl : s.jobs.line = true) (h11 : s.jobs.state = 11) (count : Int) :
    newProduct count s = setJobs (fun j => { j with
      products := j.products ++ [triggered count s], nextProduct := s.jobs.nextProduct + 1
      layerIndex := BitVec.ofNat 32 s.jobs.nextProduct }) s := by
  have hrun : (s.jobs.state == 11) = true := beq_iff_eq.2 h11
  have hheld : (s.jobs.state == 10) = false := by rw [h11]; rfl
  simp only [newProduct, hl, hrun, hheld, Bool.true_or, Bool.not_true, Bool.or_self, Bool.false_eq_true, if_false]
  rfl

theorem newProduct_notRunning {s : State} (h11 : s.jobs.state ≠ 11) (h10 : s.jobs.state ≠ 10) (count : Int) :
    newProduct count s = s := by
  have hno : (!s.jobs.line || !(s.jobs.state == 11 || s.jobs.state == 10)) = true := by
    rw [beq_false_of_ne h11, beq_false_of_ne h10, Bool.or_false, Bool.not_false, Bool.or_true]
  rw [newProduct, hno, if_pos rfl]

/-! ### MARK_RECORD_WRITE (R92) -/

theorem length_natLE (n v : Nat) : (natLE n v).length = n := by
  induction n generalizing v with
  | zero => rfl
  | succ n ih => rw [natLE, List.length_cons, ih]

theorem length_markRecord (tor : Ns) (p : Product) : (markRecord tor p).length = 32 := by
  simp only [markRecord, List.length_append, length_natLE]

/-- A write that meets no poisoned word in part only puts its bytes. -/
theorem memWrite_of_poisonPart_nil {s : State} {a : Nat} {bs : List Byte} (h : poisonPart a bs.length s = []) (port : Nat) :
    memWrite port a bs s = memPut a bs s := by
  simp [memWrite, h]

/-- The oldest product has its place in the mark record ring, at MARK_RECORD_ADDR + 32 × (k mod MARK_RECORD_COUNT). -/
def markPlace (h : JobHeader) (p : Product) : Nat := h.markAddr + 32 * (p.k % h.markCount)

/-- The oldest product, next in order, is taken off the list once its record is written. -/
def dropProduct (p : Product) (rest : List Product) (s : State) : State :=
  setJobs (fun j => { j with products := rest, markWritten := p.k + 1, syncs := j.syncs.filter fun q => q.key != p.k }) s

theorem markRecordWrite_settled {s : State} {h : JobHeader} {p : Product} {rest : List Product} (hj : s.jobs.header = some h)
    (hp : s.jobs.products = p :: rest) (hl : h.line = true) (hk : p.k = s.jobs.markWritten) (hc : 0 < h.markCount)
    (hd : ∀ l ∈ jobLanes s, p.done.getLsbD l = true) (he : poisonPart (markPlace h p) 32 s = []) :
    markRecordWrite s = dropProduct p rest (memPut (markPlace h p) (markRecord (torOf s) p) s) := by
  have hmax : max 1 h.markCount = h.markCount := max_eq_right hc
  have hwrite : memWrite 32 (markPlace h p) (markRecord (torOf s) p) s = memPut (markPlace h p) (markRecord (torOf s) p) s :=
    memWrite_of_poisonPart_nil (by rw [length_markRecord]; exact he) 32
  rw [markPlace] at hwrite ⊢
  have hall : ((jobLanes s).all fun l => p.done.getLsbD l) = true := List.all_eq_true.2 hd
  simp only [markRecordWrite, jobHeader, hj, hp, hl, decide_eq_true hk, hall, Bool.and_self, if_true, hmax, hwrite]
  rfl

theorem markRecordWrite_open {s : State} {p : Product} {rest : List Product} {l : Nat} (hp : s.jobs.products = p :: rest)
    (hl : l ∈ jobLanes s) (hd : p.done.getLsbD l = false) : markRecordWrite s = s := by
  have hall : ((jobLanes s).all fun l => p.done.getLsbD l) = false := List.all_eq_false.2 ⟨l, hl, ne_true_of_eq_false hd⟩
  unfold markRecordWrite
  split
  · next h q qs _ hq =>
    obtain ⟨rfl, rfl⟩ := List.cons.inj (hp.symm.trans hq)
    rw [hall, Bool.and_false, if_neg Bool.false_ne_true]
  · rfl

/-- LINE_RUN goes on where no hold has been asked for. -/
theorem lineSettle_run {s : State} (h11 : s.jobs.state = 11) (ha : s.jobs.holdAsked = []) : lineSettle s = s := by
  have h12 : (s.jobs.state == 12) = false := by rw [h11]; rfl
  simp only [lineSettle, h12, ha, List.isEmpty_nil, Bool.not_true, Bool.and_false, Bool.false_eq_true, if_false, ite_self]

/-- Settles O6: a trigger by the job state, MARK_RECORD_WRITE by the lanes that have not settled the oldest product. -/
theorem lineProducts : Obligations.LineProducts := by
  intro t s h hj
  refine ⟨fun count hl h11 => newProduct_run hl h11 count, fun count h11 h10 => newProduct_notRunning h11 h10 count,
    fun p rest hp hl hk hc hd _ h11 ha he => ?_, fun p rest l hp hl hd hline => ?_⟩
  · have hw := markRecordWrite_settled (s := passTo t s) hj hp hl hk hc hd he
    exact congrArg Host.Outcome.next ((congrArg lineSettle hw).trans
      (lineSettle_run (s := dropProduct p rest (memPut _ _ (passTo t s))) h11 ha))
  · have hw := markRecordWrite_open (s := passTo t s) hp hl hd
    exact congrArg Host.Outcome.next ((congrArg lineSettle hw).trans (lineSettle_build (s := passTo t s) hline))

end Sys2Proof.Machine
end

section
/-! SUPPORT. What the work of a lane keeps, and what a fault of a lane and a SYNC that times out bring about. -/

namespace Sys2Proof.Machine

/-! ### What result records and raw blocks keep (R57, R58, R155, R158) -/

/-- What the stop of a lane leaves as it was: the time, and the job but for its layers' accounts. -/
def jobView (s : State) : TimeBlk × Jobs := (s.time, { s.jobs with layers := [] })

/-- What the records of a lane's work leave as it was: the marks that are being written too. -/
def workView (s : State) : (TimeBlk × Jobs) × List (Option (Nat × Int)) := (jobView s, s.lanes.map Lane.marking)

theorem workView_raise (c : Nat) (d : List Byte) (s : State) : workView (raise c d s) = workView s := by
  simp [workView, jobView]

theorem workView_eccUe (p a : Nat) (s : State) : workView (eccUe p a s) = workView s := by
  unfold eccUe
  dsimp only
  split <;> simp only [workView_raise] <;> rfl

theorem workView_memWrite (p a : Nat) (bs : List Byte) (s : State) : workView (memWrite p a bs s) = workView s :=
  foldl_keeps _ workView (fun u w => workView_eccUe p (8 * w) u) _ _

theorem map_modUnit_of_keeps {α β : Type} {f : α → α} {g : α → β} (h : ∀ x, g (f x) = g x) (xs : List α) (i : Nat) :
    (modUnit xs i f).map g = xs.map g := by
  apply List.ext_getElem?
  intro k
  rw [modUnit, List.getElem?_map, List.getElem?_modify, List.getElem?_map]
  by_cases hk : i = k
  · simp [hk, Function.comp_def, h]
  · simp [hk]

theorem workView_setLane {f : Lane → Lane} (l : Nat) (s : State) (h : ∀ x, (f x).marking = x.marking := by exact fun _ => rfl) :
    workView (setLane l f s) = workView s := by
  simp only [workView, jobView, setLane, map_modUnit_of_keeps h]

theorem workView_setLayerLane (i l : Nat) (f : LayerLane → LayerLane) (s : State) : workView (setLayerLane i l f s) = workView s := rfl

theorem workView_writeResultAt (l a : Nat) (r : PRec) (s : State) : workView (writeResultAt l a r s) = workView s := by
  unfold writeResultAt
  extract_lets bytes written anom sat counted
  have hcounted : workView counted = workView s :=
    (workView_setLane l written).trans (workView_memWrite (l / 8) a bytes s)
  split
  · split
    · exact hcounted
    · exact hcounted
  · exact hcounted

theorem workView_writeResult (l : Nat) (r : PRec) (s : State) : workView (writeResult l r s) = workView s := by
  unfold writeResult
  split
  · rfl
  · split
    · rfl
    · exact workView_writeResultAt _ _ _ _

theorem workView_leaveRecords (l : Nat) (off : Ns) (rs : List PRec) (s : State) : workView (leaveRecords l off rs s) = workView s := by
  have hrecs (qs : List PRec) : workView (qs.foldl (fun u r => writeResult l r u) s) = workView s :=
    foldl_keeps _ workView (fun u r => workView_writeResult l r u) _ _
  unfold leaveRecords
  dsimp only
  split
  · exact (workView_setLane l _).trans (hrecs _)
  · exact hrecs _

theorem workView_flushCut (l i : Nat) (s : State) : workView (flushCut l i s) = workView s :=
  ((workView_setLane l _).trans (workView_leaveRecords l _ _ _)).trans (workView_setLane l s)

theorem workView_noteFault (l c i : Nat) (s : State) : workView (noteFault l c i s) = workView s := by
  unfold noteFault
  dsimp only
  split
  · rfl
  · split
    · rfl
    · rfl

theorem workView_closeRaw (l : Nat) (s : State) : workView (closeRaw l s) = workView s := by
  have hloop (f : Loop → Loop) : workView (setLoop l f s) = workView s := workView_setLane l s
  unfold closeRaw
  dsimp only
  split
  · split
    · exact hloop _
    · exact (workView_setLane l _).trans ((workView_memWrite _ _ _ _).trans (hloop _))
  · exact hloop _
  · rfl

theorem jobView_of_workView {s t : State} (h : workView t = workView s) : jobView t = jobView s := congrArg Prod.fst h

theorem header_of_jobView {s t : State} (h : jobView t = jobView s) : t.jobs.header = s.jobs.header := congrArg (fun v => v.2.header) h

theorem syncs_of_jobView {s t : State} (h : jobView t = jobView s) : t.jobs.syncs = s.jobs.syncs := congrArg (fun v => v.2.syncs) h

theorem jobView_stopLane (l : Nat) (st : LaneState) (s : State) : jobView (stopLane l st s) = jobView s := by
  unfold stopLane
  extract_lets late closed
  show jobView closed = jobView s
  unfold closed
  split
  · rfl
  · exact jobView_of_workView (workView_closeRaw l s)

theorem jobView_killLane (l : Nat) (s : State) : jobView (killLane l s) = jobView s := by
  unfold killLane
  split
  · rfl
  · rfl

theorem jobView_laneEvent (l c : Nat) (d : List Byte) (s : State) : jobView (laneEvent l c d s) = jobView s := by
  simp [jobView, laneEvent]

/-! ### A fault of a lane (R58, R68, R83, R137, R138) -/

theorem marking_of_workView {s t : State} (h : workView t = workView s) (l : Nat) : (laneOf t l).marking = (laneOf s l).marking := by
  have hmarks : t.lanes.map Lane.marking = s.lanes.map Lane.marking := congrArg Prod.snd h
  have hget (u : State) : (u.lanes.map Lane.marking).getD l none = (laneOf u l).marking := List.getD_map u.lanes Lane.reset Lane.marking
  rw [← hget, ← hget, hmarks]

theorem cutMark_none {s : State} {l : Nat} (h : (laneOf s l).marking = none) (c : SkipCause) : cutMark l c s = s := by
  simp [cutMark, h]

theorem faultPolicy_noJob {s : State} (h : s.jobs.header = none) (l : Nat) : faultPolicy l s = s := by
  simp [faultPolicy, jobHeader, h]

theorem breakSync_none {s : State} (h : s.jobs.syncs = []) (l : Nat) : breakSync l s = (s, []) := by
  simp [breakSync, openSyncs, h]

/-- A lane stops in FAULT and shows the fault; then come the KILL of its beam and the event (R137). -/
def stopInFault (l code cause i : Nat) (s : State) : State :=
  let c := if code = fcLane then cause else 0
  let s := stopLane l .fault s
  laneEvent l 0x3020 (natLE 1 code ++ natLE 1 c ++ natLE 4 i) (killLane l (setLane l (fun x => { x with
    code := code, cause := c, other := 0, faultIndex := i, faultTime := BitVec.ofNat 64 (afterTor s s.now), faultAt := some s.now }) s))

theorem jobView_stopInFault (l code cause i : Nat) (s : State) : jobView (stopInFault l code cause i s) = jobView s :=
  (jobView_laneEvent _ _ _ _).trans ((jobView_killLane l _).trans (jobView_stopLane l .fault s))

/-- The record that a fault names: the caller's, or where there is none the one at which the lane reached END at this very tick, or else
the one at which the lane is (R58, R136). -/
def faultRecord (l : Nat) (idx : Option Nat) (s : State) : Nat :=
  idx.getD (match (laneOf s l).ended with
    | some e => if (laneOf s l).state = .idle && e.1 = s.now then e.2 else faultIndexAt (laneOf s l) s.now
    | none => faultIndexAt (laneOf s l) s.now)

/-- What a fault that touches a lane brings about, in order. -/
theorem faultOne_touched {s : State} {l code : Nat} (h : ((laneOf s l).faultable s.now || arming s l code) = true) (cause : Nat)
    {idx : Option Nat} {i : Nat} (hi : i = faultRecord l idx s) : faultOne l code cause idx s =
      breakSync l (
        if code = fcPermit then stopInFault l code cause i
          (cutMark l 1 (noteFault l code i (if (laneOf s l).state.active then flushCut l i s else s)))
        else faultPolicy l (stopInFault l code cause i
          (cutMark l 1 (noteFault l code i (if (laneOf s l).state.active then flushCut l i s else s))))) := by
  subst hi
  simp only [faultOne, h, if_true]
  rfl

/-- What a fault of a running lane that has reached no END brings about, in order. -/
theorem faultOne_running {s : State} {l : Nat} (ha : (laneOf s l).state.active = true) (he : (laneOf s l).ended = none)
    (code cause : Nat) {i : Nat} (hi : i = faultIndexAt (laneOf s l) s.now) : faultOne l code cause none s =
      breakSync l (if code = fcPermit then stopInFault l code cause i (cutMark l 1 (noteFault l code i (flushCut l i s)))
        else faultPolicy l (stopInFault l code cause i (cutMark l 1 (noteFault l code i (flushCut l i s))))) := by
  have hgo : ((laneOf s l).faultable s.now || arming s l code) = true := by rw [Lane.faultable, ha, Bool.true_or, Bool.true_or]
  have hrec : i = faultRecord l none s := by simp only [hi, faultRecord, he, Option.getD_none]
  rw [faultOne_touched hgo cause hrec, if_pos ha]

/-- Outside any job a fault of a running lane cuts no mark, no policy follows, and no SYNC breaks. -/
theorem faultOne_noJob {s : State} {l : Nat} (ha : (laneOf s l).state.active = true) (hh : s.jobs.header = none) (hs : s.jobs.syncs = [])
    (hm : (laneOf s l).marking = none) (he : (laneOf s l).ended = none) (code cause : Nat) {i : Nat}
    (hi : i = faultIndexAt (laneOf s l) s.now) :
    faultOne l code cause none s = (stopInFault l code cause i (noteFault l code i (flushCut l i s)), []) := by
  have hwork : workView (noteFault l code i (flushCut l i s)) = workView s :=
    (workView_noteFault l code i _).trans (workView_flushCut l i s)
  have hcut := cutMark_none ((marking_of_workView hwork l).trans hm) 1
  have hview := (jobView_stopInFault l code cause i _).trans (jobView_of_workView hwork)
  have hpolicy := faultPolicy_noJob ((header_of_jobView hview).trans hh) l
  have hsync := breakSync_none ((syncs_of_jobView hview).trans hs) l
  rw [faultOne_running ha he code cause hi, hcut, hpolicy, ite_self, hsync]

theorem faultAll_one {s t : State} {l code cause : Nat} {idx : Option Nat} (h : faultOne l code cause idx s = (t, [])) (n : Nat) :
    faultAll (n + 2) [(l, code, cause, idx)] s = t := by
  simp only [faultAll, h, List.map_nil, List.append_nil]

theorem laneFault_noJob {s : State} {l : Nat} (ha : (laneOf s l).state.active = true) (hh : s.jobs.header = none) (hs : s.jobs.syncs = [])
    (hm : (laneOf s l).marking = none) (he : (laneOf s l).ended = none) (code cause : Nat) {i : Nat}
    (hi : i = faultIndexAt (laneOf s l) s.now) :
    laneFault l code cause s = stopInFault l code cause i (noteFault l code i (flushCut l i s)) :=
  faultAll_one (faultOne_noJob ha hh hs hm he code cause hi) 510

/-- A fault dates itself by the time at which its records are written. -/
theorem stopInFault_dates {s t : State} (h : jobView t = jobView s) (l code cause i : Nat) :
    stopInFault l code cause i t =
      let c := if code = fcLane then cause else 0
      laneEvent l 0x3020 (natLE 1 code ++ natLE 1 c ++ natLE 4 i) (killLane l (setLane l (fun x => { x with
        code := code, cause := c, other := 0, faultIndex := i, faultTime := BitVec.ofNat 64 (afterTor s s.now)
        faultAt := some s.now }) (stopLane l .fault t))) := by
  have hview := (jobView_stopLane l .fault t).trans h
  have hnow : (stopLane l .fault t).now = s.now := congrArg (fun v => v.1.clock.now) hview
  have htor : torOf (stopLane l .fault t) = torOf s := congrArg (fun v => v.2.tor.getD 0) hview
  simp only [stopInFault, afterTor, hnow, htor]

theorem laneFault_untouched {s : State} {l code : Nat} (hf : (laneOf s l).faultable s.now = false) (ha : arming s l code = false)
    (hn : (laneOf s l).faultAt ≠ some s.now) (cause : Nat) : laneFault l code cause s = s := by
  have hone : faultOne l code cause none s = (s, []) := by
    have hagain : ((laneOf s l).faultAt == some s.now) = false := beq_false_of_ne hn
    simp only [faultOne, hf, ha, hagain, Bool.or_self, Bool.and_false, Bool.false_eq_true, if_false]
  exact faultAll_one hone 510

/-! ### FOLLOWING_ERROR and SYNC_TIMEOUT (R83, R135, R136) -/

theorem followingError_long {s : State} {l : Nat} {a : Ns} (hf : (laneOf s l).feSince = some a)
    (ha : a + 5 * (laneRec s l).feTime < s.now) : followingError l s = laneFault l fcLane 0x01 s := by
  simp [followingError, hf, ha]

theorem followingError_none {s : State} {l : Nat} (hf : (laneOf s l).feSince = none) : followingError l s = s := by
  simp [followingError, hf]

/-- The only SYNC of the job is open: it is neither released nor failed. -/
structure OnlySync (h : JobHeader) (p : SyncPoint) (s : State) : Prop where
  header : s.jobs.header = some h
  only : s.jobs.syncs = [p]
  released : p.released = none
  failed : p.failed = none

/-- The lanes that a SYNC waits for. -/
def missingLanes (s : State) (p : SyncPoint) : List Nat :=
  (allLanes s).filter fun k => p.lanes.getLsbD k && !p.gone.getLsbD k && !(p.arrivals.any fun a => a.lane = k)

theorem syncTimeout_early {s : State} {h : JobHeader} {p : SyncPoint} (g : OnlySync h p s)
    (he : s.now < p.first + 1000000 * h.timeoutMs) : syncTimeout p.id s = s := by
  simp [syncTimeout, jobHeader, g.header, g.only, he]

theorem setSync_only {s : State} {p : SyncPoint} (h : s.jobs.syncs = [p]) (f : SyncPoint → SyncPoint) :
    setSync p f s = setJobs (fun j => { j with syncs := [f p] }) s := by
  simp [setSync, setJobs, h]

/-- From SYNC_TIMEOUT on a SYNC for which some participant is missing is reported, and goes on without it or fails. -/
theorem syncTimeout_due {s : State} {h : JobHeader} {p : SyncPoint} (g : OnlySync h p s)
    (he : p.first + 1000000 * h.timeoutMs ≤ s.now) : syncTimeout p.id s =
      if (missingLanes s p).isEmpty && (silentMembers s p).isEmpty then s
      else if p.failContinue then setSync p (fun q => { q with
        gone := q.gone ||| BitVec.ofNat 128 (maskOf (missingLanes s p))
        goneMembers := q.goneMembers ||| maskOf (silentMembers (raise 0x300B [] s) p) }) (raise 0x300B [] s)
      else faultAll 512 (p.arrivals.map fun a => (a.lane, fcSyncTimeout, 0, none))
        (setSync p (fun q => { q with failed := some fcSyncTimeout }) (raise 0x300B [] s)) := by
  simp only [syncTimeout, jobHeader, g.header, g.only, g.released, g.failed, List.find?_singleton, Option.isNone_none, decide_true,
    Bool.and_self, decide_eq_true he, if_true]
  rfl

theorem syncTimeout_noneMissing {s : State} {h : JobHeader} {p : SyncPoint} (g : OnlySync h p s)
    (he : p.first + 1000000 * h.timeoutMs ≤ s.now) (hm : missingLanes s p = []) (hn : silentMembers s p = []) :
    syncTimeout p.id s = s := by
  rw [syncTimeout_due g he, hm, hn]
  rfl

theorem not_noneMissing {s : State} {p : SyncPoint} (hm : missingLanes s p ≠ [] ∨ silentMembers s p ≠ []) :
    ¬((missingLanes s p).isEmpty && (silentMembers s p).isEmpty) = true := by
  rw [Bool.and_eq_true, List.isEmpty_iff, List.isEmpty_iff, Classical.not_and_iff_not_or_not]
  exact hm

theorem silentMembers_raise (c : Nat) (d : List Byte) (s : State) (p : SyncPoint) :
    silentMembers (raise c d s) p = silentMembers s p := by
  simp only [silentMembers, State.prof, raise_profile]

/-- With FAIL_CONTINUE the SYNC goes on without the participants that are missing. -/
theorem syncTimeout_continues {s : State} {h : JobHeader} {p : SyncPoint} (g : OnlySync h p s)
    (he : p.first + 1000000 * h.timeoutMs ≤ s.now) (hm : missingLanes s p ≠ [] ∨ silentMembers s p ≠ [])
    (hc : p.failContinue = true) : syncTimeout p.id s = setJobs (fun j => { j with syncs := [{ p with
      gone := p.gone ||| BitVec.ofNat 128 (maskOf (missingLanes s p))
      goneMembers := p.goneMembers ||| maskOf (silentMembers s p) }] }) (raise 0x300B [] s) := by
  rw [syncTimeout_due g he, if_neg (not_noneMissing hm), if_pos hc, silentMembers_raise,
    setSync_only ((congrArg Jobs.syncs (raise_jobs 0x300B [] s)).trans g.only)]

/-- Without it the SYNC has failed, and every participant that waits in it faults. -/
theorem syncTimeout_fails {s : State} {h : JobHeader} {p : SyncPoint} (g : OnlySync h p s)
    (he : p.first + 1000000 * h.timeoutMs ≤ s.now) (hm : missingLanes s p ≠ [] ∨ silentMembers s p ≠ [])
    (hc : p.failContinue = false) : syncTimeout p.id s = faultAll 512 (p.arrivals.map fun a => (a.lane, fcSyncTimeout, 0, none))
      (setJobs (fun j => { j with syncs := [{ p with failed := some fcSyncTimeout }] }) (raise 0x300B [] s)) := by
  rw [syncTimeout_due g he, if_neg (not_noneMissing hm), if_neg (ne_true_of_eq_false hc),
    setSync_only ((congrArg Jobs.syncs (raise_jobs 0x300B [] s)).trans g.only)]

/-- Settles O10: a fault by what the lane does, FOLLOWING_ERROR by how long the error has stood, SYNC_TIMEOUT by the time and by who is
missing. -/
theorem laneFaultsFollowThePolicy : Obligations.LaneFaultsFollowThePolicy := by
  intro t l s
  refine ⟨fun code cause ha hh hs hm he => ?_, fun code cause hf ha hn => laneFault_untouched hf ha hn cause,
    fun hset => ⟨fun a hf ha => ?_, fun hf => ?_⟩, fun id h p hh hs hid hr hf => ?_⟩
  · intro i c
    have hview : jobView (noteFault l code i (flushCut l i s)) = jobView s :=
      jobView_of_workView ((workView_noteFault l code i _).trans (workView_flushCut l i s))
    exact (laneFault_noJob ha hh hs hm he code cause rfl).trans (stopInFault_dates hview l code cause i)
  · have hlong := followingError_long (s := passTo t s) hf ha
    exact congrArg Host.Outcome.next ((congrArg (followingError l) hset).trans hlong)
  · have hnone := followingError_none (s := passTo t s) hf
    exact congrArg Host.Outcome.next ((congrArg (followingError l) hset).trans hnone)
  · subst hid
    have g : OnlySync h p (passTo t s) := ⟨hh, hs, hr, hf⟩
    exact ⟨fun he => congrArg Host.Outcome.next (syncTimeout_early g he), fun he =>
      ⟨fun hm hn => congrArg Host.Outcome.next (syncTimeout_noneMissing g he hm hn), fun hm =>
        ⟨fun hc => congrArg Host.Outcome.next (syncTimeout_continues g he hm hc),
          fun hc => congrArg Host.Outcome.next (syncTimeout_fails g he hm hc)⟩⟩⟩

end Sys2Proof.Machine
end

section
/-! SUPPORT. What faults keep of time and job, and what a permit that goes low or comes back brings about. -/

namespace Sys2Proof.Machine

/-! ### What a fault keeps -/

/-- What a fault of a lane leaves as it was, with all that follows it: the time, and whether the job is one of the machine. -/
def faultView (s : State) : TimeBlk × Bool := (s.time, s.jobs.machine)

theorem faultView_of_jobView {s t : State} (h : jobView t = jobView s) : faultView t = faultView s :=
  congrArg (fun v => (v.1, v.2.machine)) h

theorem faultView_raise (c : Nat) (d : List Byte) (s : State) : faultView (raise c d s) = faultView s := by simp [faultView]

theorem faultView_endMark (l k st : Nat) (s : State) : faultView (endMark l k st s) = faultView s := by
  unfold endMark
  split
  · rfl
  · simp [faultView]

theorem faultView_skipMark (l k : Nat) (c : SkipCause) (part : Bool) (s : State) : faultView (skipMark l k c part s) = faultView s := by
  have hend : faultView (endMark l k (skipStatus c) (settleProduct l k (some c) part s)) = faultView s := faultView_endMark l k _ _
  unfold skipMark
  dsimp only
  split
  · exact hend
  · exact (faultView_raise _ _ _).trans hend

theorem faultView_cutMark (l : Nat) (c : SkipCause) (s : State) : faultView (cutMark l c s) = faultView s := by
  unfold cutMark
  split
  · rfl
  · exact faultView_skipMark _ _ _ _ _

theorem faultView_excludeLane (l : Nat) (s : State) : faultView (excludeLane l s) = faultView s := by
  unfold excludeLane
  split
  · rfl
  · exact faultView_raise _ _ _

theorem faultView_faultPolicy (l : Nat) (s : State) : faultView (faultPolicy l s) = faultView s := by
  unfold faultPolicy
  split
  · rfl
  · split
    · rfl
    · split
      · exact faultView_excludeLane l s
      · split
        · rfl
        · rfl

theorem faultView_breakSync (l : Nat) (s : State) : faultView (breakSync l s).1 = faultView s :=
  List.foldlRecOn (motive := fun acc : State × List Nat => faultView acc.1 = faultView s) _ _ rfl
    fun acc h _ _ => (faultView_raise 0x300C [] acc.1).trans h

theorem faultView_noteFault (l c i : Nat) (s : State) : faultView (noteFault l c i s) = faultView s :=
  faultView_of_jobView (jobView_of_workView (workView_noteFault l c i s))

theorem faultView_stopInFault (l code cause i : Nat) (s : State) : faultView (stopInFault l code cause i s) = faultView s :=
  faultView_of_jobView (jobView_stopInFault l code cause i s)

theorem faultView_faultOne (l code cause : Nat) (idx : Option Nat) (s : State) :
    faultView (faultOne l code cause idx s).1 = faultView s := by
  by_cases hgo : ((laneOf s l).faultable s.now || arming s l code) = true
  · have hflush (i : Nat) : faultView (if (laneOf s l).state.active then flushCut l i s else s) = faultView s := by
      split
      · exact faultView_of_jobView (jobView_of_workView (workView_flushCut l i s))
      · rfl
    have hstop (i : Nat) : faultView (stopInFault l code cause i
        (cutMark l 1 (noteFault l code i (if (laneOf s l).state.active then flushCut l i s else s)))) = faultView s :=
      (faultView_stopInFault _ _ _ _ _).trans ((faultView_cutMark _ _ _).trans ((faultView_noteFault _ _ _ _).trans (hflush i)))
    rw [faultOne_touched hgo cause rfl, faultView_breakSync]
    split
    · exact hstop _
    · exact (faultView_faultPolicy _ _).trans (hstop _)
  · unfold faultOne
    rw [if_neg hgo]
    dsimp only
    split
    · split
      · exact faultView_noteFault _ _ _ _
      · rfl
    · rfl

theorem faultView_faultAll : ∀ (n : Nat) (fs : List (Nat × Nat × Nat × Option Nat)) (s : State),
    faultView (faultAll n fs s) = faultView s
  | 0, _, _ => rfl
  | _ + 1, [], _ => rfl
  | n + 1, (l, code, cause, idx) :: _, s => (faultView_faultAll n _ _).trans (faultView_faultOne l code cause idx s)

theorem faultView_tryArm (l : Nat) (s : State) : faultView (tryArm l s) = faultView s := by
  unfold tryArm
  dsimp only
  split
  · split
    · exact faultView_faultAll _ _ _
    · rfl
  · rfl

/-! ### PERMIT_RESTORED and PERMIT_DISAGREE (R71, R589) -/

/-- Both inputs are high and agree. -/
def permitsBack (s : State) : State := { s with permit := { s.permit with a := true, b := true, high := true, disagree := false } }

theorem permitRestored_elsewhere {s : State} (h9 : s.jobs.state ≠ 9) : permitRestored s = permitsBack s := by
  have hne : (s.jobs.state == 9) = false := beq_false_of_ne h9
  simp only [permitRestored, hne, Bool.false_eq_true, if_false]
  rfl

/-- ARM is tried again for every lane of a job in PERMIT_WAIT. -/
def armAgain (s : State) : State :=
  (allLanes s).foldl (fun u l => tryArm l u) (setJobs (fun j => { j with state := 8, final := false, late := 0 }) s)

theorem faultView_armAgain (s : State) : faultView (armAgain s) = faultView s :=
  foldl_keeps (fun u l => tryArm l u) faultView (fun u l => faultView_tryArm l u) _ _

/-- A job of one module is in ARM again, and takes an L 10 ms later (R71). -/
theorem permitRestored_waiting {s : State} (h9 : s.jobs.state = 9) (hm : s.jobs.machine = false) :
    permitRestored s = setL (tickAt (s.now + 10000000)) (armAgain (permitsBack s)) := by
  have hwait : (s.jobs.state == 9) = true := beq_iff_eq.2 h9
  have hview := faultView_armAgain (permitsBack s)
  have hnow : (armAgain (permitsBack s)).now = s.now := congrArg (fun v => v.1.clock.now) hview
  have hmachine : machineJob (armAgain (permitsBack s)) = false := (congrArg Prod.snd hview).trans hm
  calc permitRestored s
      = if machineJob (armAgain (permitsBack s)) then _ else setL (tickAt ((armAgain (permitsBack s)).now + 10000000))
          (armAgain (permitsBack s)) := by
        simp only [permitRestored, hwait, if_true]
        rfl
    _ = _ := by rw [hmachine, if_neg Bool.false_ne_true, hnow]

theorem permitDisagree_equal (a : Bool) (s : State) : permitDisagree a a s = s := by
  rw [permitDisagree, if_pos rfl]

theorem permitDisagree_different (a : Bool) (s : State) : permitDisagree a (!a) s = { s with permit := { s.permit with
    a := a, b := !a, high := false, disagree := true
    disagreeEvents := if s.permit.disagree then s.permit.disagreeEvents else satInc s.permit.disagreeEvents } } := by
  rw [permitDisagree, if_neg (by cases a <;> decide)]

/-! ### BEAM_PERMIT_LOW (R71, R588) -/

theorem killAll_keeps {β : Type} {g : State → β} (h : ∀ u p, g (sendKill p 0 true u) = g u) (s : State) : g (killAll s) = g s :=
  foldl_keeps (fun u p => sendKill p 0 true u) g h _ s

@[simp] theorem killAll_hk (s : State) : (killAll s).hk = s.hk := killAll_keeps (g := State.hk) (fun _ _ => rfl) s
@[simp] theorem killAll_jobs (s : State) : (killAll s).jobs = s.jobs := killAll_keeps (g := State.jobs) (fun _ _ => rfl) s
@[simp] theorem killAll_lanes (s : State) : (killAll s).lanes = s.lanes := killAll_keeps (g := State.lanes) (fun _ _ => rfl) s
@[simp] theorem killAll_time (s : State) : (killAll s).time = s.time := killAll_keeps (g := State.time) (fun _ _ => rfl) s
@[simp] theorem killAll_ident (s : State) : (killAll s).ident = s.ident := killAll_keeps (g := State.ident) (fun _ _ => rfl) s

/-- With no calibration running, a permit that goes low abandons none. -/
theorem calPermitLow_idle {s : State} (hr : s.hk.runs = []) (hg : s.hk.groups = []) : calPermitLow s = s := by
  have hdefer : setHk (fun h => { h with groups := [] }) s = s := by rw [setHk, ← hg]
  simp only [calPermitLow, abandonAll, deferWaiting, hr, hg, List.filter_nil, List.foldl_nil]
  rw [setHk, hg, List.filter_nil]
  exact hdefer

/-- The level of an input. -/
def inputHigh (inputB : Bool) (s : State) : Bool := if inputB then s.permit.b else s.permit.a

/-- An input goes low, and with it the permit; it counts where it was high. -/
def inputLow (inputB : Bool) (s : State) : State :=
  { s with permit := { s.permit with
      a := if inputB then s.permit.a else false, b := if inputB then false else s.permit.b, high := false
      lowEvents := if inputHigh inputB s then satInc s.permit.lowEvents else s.permit.lowEvents
      disagree := s.permit.disagree && ((if inputB then s.permit.a else false) != (if inputB then false else s.permit.b)) } }

/-- An input goes low, with a KILL of every beam where it was high. -/
def killLow (inputB : Bool) (s : State) : State :=
  if inputHigh inputB s then killAll (inputLow inputB s) else inputLow inputB s

theorem killLow_keeps {β : Type} {g : State → β} (h : ∀ u p, g (sendKill p 0 true u) = g u) (hi : ∀ b u, g (inputLow b u) = g u)
    (b : Bool) (s : State) : g (killLow b s) = g s := by
  unfold killLow
  split
  · exact (killAll_keeps h _).trans (hi b s)
  · exact hi b s

@[simp] theorem killLow_hk (b : Bool) (s : State) : (killLow b s).hk = s.hk :=
  killLow_keeps (g := State.hk) (fun _ _ => rfl) (fun _ _ => rfl) b s
@[simp] theorem killLow_jobs (b : Bool) (s : State) : (killLow b s).jobs = s.jobs :=
  killLow_keeps (g := State.jobs) (fun _ _ => rfl) (fun _ _ => rfl) b s
@[simp] theorem killLow_lanes (b : Bool) (s : State) : (killLow b s).lanes = s.lanes :=
  killLow_keeps (g := State.lanes) (fun _ _ => rfl) (fun _ _ => rfl) b s
@[simp] theorem killLow_time (b : Bool) (s : State) : (killLow b s).time = s.time :=
  killLow_keeps (g := State.time) (fun _ _ => rfl) (fun _ _ => rfl) b s
@[simp] theorem killLow_ident (b : Bool) (s : State) : (killLow b s).ident = s.ident :=
  killLow_keeps (g := State.ident) (fun _ _ => rfl) (fun _ _ => rfl) b s

theorem killLow_highA {s : State} (ha : s.permit.a = true) : killLow false s = killAll { s with permit := { s.permit with
    a := false, high := false, lowEvents := satInc s.permit.lowEvents, disagree := s.permit.disagree && s.permit.b } } := by
  have hhigh : inputHigh false s = true := ha
  simp only [killLow, inputLow, hhigh, if_true, Bool.false_eq_true, if_false, Bool.false_bne]

theorem killLow_highB {s : State} (hb : s.permit.b = true) : killLow true s = killAll { s with permit := { s.permit with
    b := false, high := false, lowEvents := satInc s.permit.lowEvents, disagree := s.permit.disagree && s.permit.a } } := by
  have hhigh : inputHigh true s = true := hb
  simp only [killLow, inputLow, hhigh, if_true, Bool.bne_false]

theorem killLow_lowA {s : State} (ha : s.permit.a = false) : killLow false s = { s with permit := { s.permit with
    a := false, high := false, disagree := s.permit.disagree && s.permit.b } } := by
  have hlow : inputHigh false s = false := ha
  simp only [killLow, inputLow, hlow, Bool.false_eq_true, if_false, Bool.false_bne]

/-- In EXPOSE the faults of a lost permit follow. -/
theorem permitLow_expose {s : State} (h2 : s.jobs.state = 2) (hr : s.hk.runs = []) (hg : s.hk.groups = []) (b : Bool) :
    permitLow b s = permitFaults (killLow b s) := by
  unfold permitLow
  extract_lets was before lowered killed running
  have hkilled : killed = killLow b s := calPermitLow_idle (s := killLow b s) (by rw [killLow_hk, hr]) (by rw [killLow_hk, hg])
  have hexpose : (killed.jobs.state == 2) = true := by rw [hkilled, killLow_jobs, h2]; rfl
  rw [hexpose, Bool.or_true, if_pos rfl, hkilled]

/-- Outside EXPOSE and ARM, with no lane that emits or may emit, nothing else follows. -/
theorem permitLow_quiet {s : State} (hq : ∀ l ∈ allLanes s, (laneOf s l).faultable s.now = false ∨ (laneOf s l).state = .armed)
    (h2 : s.jobs.state ≠ 2) (h8 : s.jobs.state ≠ 8) (hr : s.hk.runs = []) (hg : s.hk.groups = []) (b : Bool) :
    permitLow b s = killLow b s := by
  unfold permitLow
  extract_lets was before lowered killed running
  have hkilled : killed = killLow b s := calPermitLow_idle (s := killLow b s) (by rw [killLow_hk, hr]) (by rw [killLow_hk, hg])
  have hlane (l : Nat) : laneOf killed l = laneOf s l := by rw [hkilled, laneOf, killLow_lanes, laneOf]
  have hnow : killed.now = s.now := by rw [hkilled, State.now, killLow_time, State.now]
  have hall : allLanes killed = allLanes s := by rw [hkilled, allLanes, State.variant, killLow_ident, allLanes, State.variant]
  have hrunning : running = false := by
    refine List.any_eq_false.2 fun l hl => ?_
    rw [hlane, hnow]
    rcases hq l (hall ▸ hl) with h | h
    · simp [h]
    · simp [h]
  have hexpose : (killed.jobs.state == 2) = false := by rw [hkilled, killLow_jobs]; exact beq_false_of_ne h2
  have harm : (killed.jobs.state == 8) = false := by rw [hkilled, killLow_jobs]; exact beq_false_of_ne h8
  rw [hrunning, hexpose, harm, Bool.or_self, Bool.false_and, if_neg Bool.false_ne_true, if_neg Bool.false_ne_true, hkilled]

/-- Settles O4: BEAM_PERMIT_LOW by the job state and by what the lanes do, PERMIT_RESTORED by the job state, PERMIT_DISAGREE by the
levels. -/
theorem permitsAndHolds : Obligations.PermitsAndHolds := by
  intro t s
  refine ⟨fun h2 hr hg => ⟨fun ha => ?_, fun hb => ?_⟩, fun h9 hm => ?_, fun hq h2 h8 hr hg => ⟨fun ha => ?_, fun hb => ?_⟩,
    fun h9 => ?_, fun a => ?_, fun a => ?_⟩
  · exact congrArg Host.Outcome.next ((permitLow_expose (s := passTo t s) h2 hr hg false).trans
      (congrArg permitFaults (killLow_highA (s := passTo t s) ha)))
  · exact congrArg Host.Outcome.next ((permitLow_expose (s := passTo t s) h2 hr hg true).trans
      (congrArg permitFaults (killLow_highB (s := passTo t s) hb)))
  · exact congrArg Host.Outcome.next (permitRestored_waiting (s := passTo t s) h9 hm)
  · exact congrArg Host.Outcome.next ((permitLow_quiet (s := passTo t s) hq h2 h8 hr hg false).trans (killLow_lowA (s := passTo t s) ha))
  · exact congrArg Host.Outcome.next ((permitLow_quiet (s := passTo t s) hq h2 h8 hr hg true).trans (killLow_highB (s := passTo t s) hb))
  · exact congrArg Host.Outcome.next (permitRestored_elsewhere (s := passTo t s) h9)
  · exact congrArg Host.Outcome.next (permitDisagree_equal a (passTo t s))
  · exact congrArg Host.Outcome.next (permitDisagree_different a (passTo t s))

end Sys2Proof.Machine
end

section
/-! SUPPORT. What the job opcodes answer, and what a change of the job state leaves to the job while calibrations follow it. -/

namespace Sys2Proof.Machine

/-! ### What calibrations keep as the job state changes (R530, R532) -/

/-- What the calibrations leave as it was when the job state changes: the clock, the job, the proximity rules and the profile. -/
def stageView (s : State) : Clock × Jobs × Prox × ProfileBlk := (s.time.clock, s.jobs, s.prox, s.profile)

theorem stageView_endWith (r : Ref) (st : Nat) (s : State) : stageView (endWith r st s) = stageView s := by simp [stageView]

theorem stageView_raise (c : Nat) (d : List Byte) (s : State) : stageView (raise c d s) = stageView s := by simp [stageView]

theorem stageView_deferWaiting (ks : List Nat) (s : State) : stageView (deferWaiting ks s) = stageView s :=
  foldl_keeps (fun u (g : CalGroup) => endWith g.ref stDeferred u) stageView (fun _ _ => stageView_endWith _ _ _) _ _

theorem stageView_deferGroups (k u : Nat) (s : State) : stageView (deferGroups k u s) = stageView s :=
  foldl_keeps (fun u (g : CalGroup) => endWith g.ref stDeferred u) stageView (fun _ _ => stageView_endWith _ _ _) _ _

theorem stageView_calWait (k u : Nat) (s : State) : stageView (calWait k u s) = stageView s := by
  unfold calWait
  split
  · rfl
  · rfl

theorem stageView_killLane (l : Nat) (s : State) : stageView (killLane l s) = stageView s := by
  unfold killLane
  split
  · rfl
  · rfl

theorem stageView_abandonRun (k u c : Nat) (s : State) : stageView (abandonRun k u c s) = stageView s := by
  unfold abandonRun
  split
  · rfl
  · have hwait : stageView (calWait k u (dropRun k u s)) = stageView s := stageView_calWait k u _
    refine (stageView_raise _ _ _).trans ((stageView_deferGroups _ _ _).trans ?_)
    show stageView (if k = 1 then powerStop u (killLane u (calWait k u (dropRun k u s))) else calWait k u (dropRun k u s)) = _
    split
    · exact (stageView_killLane u _).trans hwait
    · exact hwait

theorem stageView_abandonAll (ks : List Nat) (c : Nat) (s : State) : stageView (abandonAll ks c s) = stageView s :=
  foldl_keeps (fun u (r : CalRun) => abandonRun r.kind r.unit c u) stageView (fun _ _ => stageView_abandonRun _ _ _ _) _ _

theorem stageView_calPost (k : Nat) (s : State) : stageView (calPost k s) = stageView s := by
  unfold calPost
  extract_lets posted waits us
  split
  · rfl
  · rfl

/-- A change of the job state changes nothing of the job by the calibrations that follow it. -/
theorem stageView_calStage (s : State) : stageView (calStage s) = stageView s := by
  unfold calStage
  extract_lets power waits went
  have hwent : stageView went = stageView s := by
    unfold went
    split
    · rfl
    · exact (stageView_deferWaiting _ _).trans (stageView_abandonAll _ _ _)
  split
  · exact (stageView_calPost 4 _).trans ((stageView_calPost 3 _).trans ((stageView_calPost 1 _).trans hwent))
  · exact (stageView_deferWaiting _ _).trans ((stageView_abandonAll _ _ _).trans hwent)

/-! ### With no job, and outside HELD (R34) -/

theorem jobExists_none {s : State} (h : s.jobs.state = 0) : jobExists s = false := by rw [jobExists, h]; rfl

theorem startJobEnd_noJob {s : State} (h : s.jobs.state = 0) (r : Ref) (m : Nat) : startJobEnd r m s = endWith r stState s := by
  simp [startJobEnd, jobExists_none h]

theorem startLayerQueue_noJob {s : State} (h : s.jobs.state = 0) (r : Ref) (a : Nat) : startLayerQueue r a s = endWith r stState s := by
  simp [startLayerQueue, jobExists_none h]

theorem startLayerCancel_noJob {s : State} (h : s.jobs.state = 0) (r : Ref) (i : Nat) : startLayerCancel r i s = endWith r stState s := by
  simp [startLayerCancel, jobExists_none h]

theorem startJobHold_noJob {s : State} (h : s.jobs.state = 0) (r : Ref) : startJobHold r s = endWith r stState s := by
  simp [startJobHold, jobExists_none h]

theorem startLaneReenable_noJob {s : State} (h : s.jobs.state = 0) (r : Ref) (m : BitVec 128) :
    startLaneReenable r m s = endWith r stState s := by
  simp [startLaneReenable, jobExists_none h]

theorem startMarkQueue_noJob {s : State} (h : s.jobs.header = none) (ref : Ref) (l p a r c : Nat) :
    startMarkQueue ref l p a r c s = endWith ref stState s := by
  simp [startMarkQueue, jobHeader, h]

theorem startJobResume_notHeld {s : State} (h : s.jobs.state ≠ 10) (r : Ref) (m : Nat) : startJobResume r m s = endWith r stState s := by
  rw [startJobResume, bne_iff_ne.2 h, if_pos rfl]

/-! ### JOB_START (R33, R34, R38, R93) -/

theorem startJobStart_barred {s : State} (h : startBarred s = true) (r : Ref) (a : Nat) : startJobStart r a s = endWith r stState s := by
  simp [startJobStart, h]

theorem startBarred_job {s : State} (h : s.jobs.state ≠ 0) : startBarred s = true := by
  simp [startBarred, (jobExists_iff s).2 h]

/-- The job registers of a new job, every other field of the job set anew; the calibrations follow (R93, R532). -/
def newJob (r : Ref) (b : JobHeader) (s : State) : State :=
  calStage { s with jobs := { Jobs.reset with
    state := 1, line := b.line, machine := b.machine, jobId := BitVec.ofNat 32 b.jobId, header := some b
    startRef := some r, tor := b.atTime, torShown := b.atTime.getD 0, table := b.psetTable
    lineTrigger := if b.line && 16 ≤ b.trigSource then some (b.trigSource - 16, b.trigEncoder) else none } }

/-- The header of a JOB_START that nothing bars is readable and meets R37, and no member runs another job. -/
structure GoodHeader (a : Nat) (s : State) : Prop where
  free : startBarred s = false
  aligned : a % 64 = 0
  inHost : hostMem a 640 s = true
  readable : poisonIn a 640 s = none
  valid : headerOk (memRead a 640 s) s = true
  own : foreignJob s (readJobHeader (memRead a 640 s)) = false

theorem startJobStart_good {s : State} {a : Nat} (g : GoodHeader a s) (r : Ref) :
    startJobStart r a s = tryStart (newJob r (readJobHeader (memRead a 640 s)) s) := by
  obtain ⟨hf, ha, hm, he, hv, ho⟩ := g
  simp only [startJobStart, hf, ha, hm, he, hv, ho, bne_self_eq_false, Bool.not_true, Bool.or_self, Bool.false_eq_true, if_false]
  rfl

/-- The job of a new job's registers: it waits, with no layer queued. -/
theorem jobs_newJob (r : Ref) (b : JobHeader) (s : State) : (newJob r b s).jobs = { Jobs.reset with
    state := 1, line := b.line, machine := b.machine, jobId := BitVec.ofNat 32 b.jobId, header := some b
    startRef := some r, tor := b.atTime, torShown := b.atTime.getD 0, table := b.psetTable
    lineTrigger := if b.line && 16 ≤ b.trigSource then some (b.trigSource - 16, b.trigEncoder) else none } :=
  congrArg (fun v => v.2.1) (stageView_calStage _)

theorem now_newJob (r : Ref) (b : JobHeader) (s : State) : (newJob r b s).now = s.now :=
  congrArg (fun v => v.1.now) (stageView_calStage _)

theorem nextReady_newJob (r : Ref) (b : JobHeader) (s : State) : nextReady (newJob r b s) = false := by
  simp [nextReady, nextLayer, layerOf, jobs_newJob, Jobs.reset]

/-- Without zones shared with another module, a new job may start with this module's time alone (R32). -/
theorem syncMet_newJob {s : State} (h : crossZones s = false) (r : Ref) (b : JobHeader) : syncMet (newJob r b s) = true := by
  have hprox : (newJob r b s).prox = s.prox := congrArg (fun v => v.2.2.1) (stageView_calStage _)
  have hprofile : (newJob r b s).profile = s.profile := congrArg (fun v => v.2.2.2) (stageView_calStage _)
  have hzones : crossZones (newJob r b s) = false := by
    rw [← h]
    simp only [crossZones, State.prof, hprox, hprofile]
  simp [syncMet, hzones, jobs_newJob, Jobs.reset]

/-- A BUILD job without a validated first layer waits for it. -/
theorem tryStart_waits {s : State} {h : JobHeader} (hj : s.jobs.header = some h) (hl : h.line = false) (hn : nextReady s = false) :
    tryStart s = s := by
  unfold tryStart
  split
  · next r q _ hq =>
    obtain rfl : h = q := Option.some.inj (hj.symm.trans hq)
    rw [hl, hn, Bool.or_self, Bool.and_false, Bool.not_false, if_pos rfl]
  · rfl

/-- An IMMEDIATE LINE job whose time is synchronised as far as it needs starts at the next whole ms at least 1 ms ahead. -/
theorem tryStart_immediate {s : State} {h : JobHeader} {r : Ref} (hr : s.jobs.startRef = some r) (hj : s.jobs.header = some h)
    (hl : h.line = true) (ha : h.atTime = none) (hs : syncMet s = true) :
    tryStart s = endWith r stDone (setJobs (fun j => { j with
      startRef := none, tor := some (alignUp (s.now + 1000000) 1000000), torShown := alignUp (s.now + 1000000) 1000000 }) s) := by
  simp only [tryStart, jobHeader, hr, hj, hl, ha, hs, Bool.true_or, Bool.and_self, Bool.not_true, Bool.false_eq_true, if_false]

theorem startJobStart_build {s : State} {a : Nat} (g : GoodHeader a s) (hl : (readJobHeader (memRead a 640 s)).line = false) (r : Ref) :
    startJobStart r a s = newJob r (readJobHeader (memRead a 640 s)) s := by
  rw [startJobStart_good g, tryStart_waits (by rw [jobs_newJob]) hl (nextReady_newJob r _ s)]

theorem startJobStart_immediate {s : State} {a : Nat} (g : GoodHeader a s) (hl : (readJobHeader (memRead a 640 s)).line = true)
    (ha : (readJobHeader (memRead a 640 s)).atTime = none) (hz : crossZones s = false) (r : Ref) :
    startJobStart r a s = endWith r stDone (setJobs (fun j => { j with
      startRef := none, tor := some (alignUp (s.now + 1000000) 1000000), torShown := alignUp (s.now + 1000000) 1000000 })
      (newJob r (readJobHeader (memRead a 640 s)) s)) := by
  rw [startJobStart_good g, tryStart_immediate (by rw [jobs_newJob]) (by rw [jobs_newJob]) hl ha (syncMet_newJob hz r _), now_newJob]

/-! ### JOB_END (R67, R91) -/

/-- A JOB_END waits for the end of the job with those before it. -/
def joinEnd (r : Ref) (s : State) : State := setJobs (fun j => { j with endRefs := j.endRefs ++ [r] }) s

theorem startJobEnd_badMode {s : State} {m : Nat} (h0 : s.jobs.state ≠ 0) (hm : 1 < m) (r : Ref) :
    startJobEnd r m s = endWith r stParam s := by
  simp [startJobEnd, (jobExists_iff s).2 h0, hm]

theorem startJobEnd_now {s : State} (h0 : s.jobs.state ≠ 0) (r : Ref) :
    startJobEnd r 1 s = endJob (if s.jobs.line then flushMarks (cutMarks (joinEnd r s)) else joinEnd r s) := by
  simp only [startJobEnd, (jobExists_iff s).2 h0, Nat.lt_irrefl, Bool.not_true, Bool.false_eq_true, if_false, if_true]
  rfl

/-- In EXPOSE and POST_IMAGE a JOB_END AFTER_LAYER is noted for the end of the layer. -/
theorem startJobEnd_layer {s : State} (h : s.jobs.state = 2 ∨ s.jobs.state = 3) (r : Ref) :
    startJobEnd r 0 s = setJobs (fun j => { j with endAsked := true }) (joinEnd r s) := by
  rcases h with h | h
  · simp [startJobEnd, jobExists, jobState, h, joinEnd]
  · simp [startJobEnd, jobExists, jobState, h, joinEnd]

theorem startJobEnd_lineRun {s : State} (h : s.jobs.state = 11) (r : Ref) :
    startJobEnd r 0 s = lineSettle (setJobState jsEnding (joinEnd r s)) := by
  simp [startJobEnd, jobExists, jobState, h, joinEnd]

theorem startJobEnd_ending {s : State} (h : s.jobs.state = 12) (r : Ref) : startJobEnd r 0 s = joinEnd r s := by
  simp [startJobEnd, jobExists, jobState, h, joinEnd]

/-- In every other state of a job a JOB_END AFTER_LAYER ends it. -/
theorem startJobEnd_elsewhere {s : State} (h : s.jobs.state ∉ ([0, 2, 3, 11, 12] : List (BitVec 4))) (r : Ref) :
    startJobEnd r 0 s = endJob (if s.jobs.line then flushMarks (joinEnd r s) else joinEnd r s) := by
  have hval {n : BitVec 4} (hn : jobState s = n.toNat) : s.jobs.state = n := BitVec.eq_of_toNat_eq hn
  have h0 : s.jobs.state ≠ 0 := fun h0 => h (by rw [h0]; decide)
  simp only [startJobEnd, (jobExists_iff s).2 h0, Nat.not_lt_zero, Nat.zero_ne_one, Bool.not_true, Bool.false_eq_true, if_false]
  split
  · next hn => exact absurd (by rw [hval (n := 2) hn]; decide) h
  · next hn => exact absurd (by rw [hval (n := 3) hn]; decide) h
  · next hn => exact absurd (by rw [hval (n := 11) hn]; decide) h
  · next hn => exact absurd (by rw [hval (n := 12) hn]; decide) h
  · rfl

/-! ### JOB_HOLD (R73, R91) -/

/-- A JOB_HOLD waits for its hold with those before it. -/
def askHold (r : Ref) (s : State) : State := setJobs (fun j => { j with holdAsked := j.holdAsked ++ [r] }) s

theorem startJobHold_held {s : State} (h : s.jobs.state = 10) (r : Ref) : startJobHold r s = endWith r stDone s := by
  simp [startJobHold, jobExists, h]

theorem startJobHold_asked {s : State} (h0 : s.jobs.state ≠ 0) (h10 : s.jobs.state ≠ 10) (r : Ref) :
    startJobHold r s = settleHold (askHold r s) := by
  have hne : (s.jobs.state == 10) = false := beq_false_of_ne h10
  simp only [startJobHold, (jobExists_iff s).2 h0, hne, Bool.not_true, Bool.false_eq_true, if_false]
  rfl

/-- In EXPOSE a hold is only noted while no member of the machine is lost. -/
theorem settleHold_expose {s : State} (h : s.jobs.state = 2) (hl : s.members.lossHold = false) : settleHold s = s := by
  simp [settleHold, jobState, h, hl]

/-- In STARVED a hold that the host has asked for takes hold at once. -/
theorem settleHold_starved {s : State} (h : s.jobs.state = 4) (ha : s.jobs.holdAsked ≠ []) : settleHold s = enterHeld 5 jsRecoat s := by
  simp [settleHold, jobState, h, holdAt, holdWanted, ha]

theorem stageEnd_early {s : State} {e : Ns} (he : s.jobs.stageEnd = some e) (hn : s.now < e) : stageEnd s = s := by
  simp [stageEnd, he, hn]

/-- In a stage whose end is ahead a hold is only noted. -/
theorem settleHold_stage {s : State} {e : Ns} (h : s.jobs.state ∈ ([3, 5, 6, 7] : List (BitVec 4))) (he : s.jobs.stageEnd = some e)
    (hn : s.now < e) : settleHold s = s := by
  have hdefault : settleHold s = if (holdWanted s).isSome || s.members.lossHold then stageEnd s else s := by
    simp only [List.mem_cons, List.not_mem_nil, or_false] at h
    rcases h with h | h | h | h <;> simp [settleHold, jobState, h]
  rw [hdefault, stageEnd_early he hn, ite_self]

theorem startJobHold_expose {s : State} (h : s.jobs.state = 2) (hl : s.members.lossHold = false) (r : Ref) :
    startJobHold r s = askHold r s := by
  rw [startJobHold_asked (by rw [h]; decide) (by rw [h]; decide), settleHold_expose (s := askHold r s) h hl]

theorem startJobHold_starved {s : State} (h : s.jobs.state = 4) (r : Ref) : startJobHold r s = enterHeld 5 jsRecoat (askHold r s) := by
  rw [startJobHold_asked (by rw [h]; decide) (by rw [h]; decide), settleHold_starved (s := askHold r s) h (by simp [askHold])]

theorem startJobHold_stage {s : State} {e : Ns} (h : s.jobs.state ∈ ([3, 5, 6, 7] : List (BitVec 4))) (he : s.jobs.stageEnd = some e)
    (hn : s.now < e) (r : Ref) : startJobHold r s = askHold r s := by
  have h0 : s.jobs.state ≠ 0 := fun h0 => absurd h (by rw [h0]; decide)
  have h10 : s.jobs.state ≠ 10 := fun h10 => absurd h (by rw [h10]; decide)
  rw [startJobHold_asked h0 h10, settleHold_stage (s := askHold r s) h he hn]

/-! ### LAYER_CANCEL (R36) -/

theorem startLayerCancel_barred {s : State} {i : Nat} (hb : cancelBarred s i = true) (r : Ref) :
    startLayerCancel r i s = endWith r stState s := by
  simp [startLayerCancel, hb]

theorem startLayerCancel_good {s : State} {i : Nat} (h0 : s.jobs.state ≠ 0) (hl : s.jobs.line = false) (hb : cancelBarred s i = false)
    (r : Ref) : startLayerCancel r i s =
      finish r stDone 0 (s.jobs.layers.filter fun x => decide (i ≤ x.index)).length
        ((s.jobs.layers.filter fun x => decide (i ≤ x.index)).foldl (fun s x =>
          abortLayer stAbHost x (if x.fetched then x.laneList.foldl (fun s l => laneToRest l s) s else s)) s) := by
  simp [startLayerCancel, (jobExists_iff s).2 h0, hl, hb]

/-- With no layer from its index on, LAYER_CANCEL has none to end. -/
theorem startLayerCancel_none {s : State} {i : Nat} (h0 : s.jobs.state ≠ 0) (hl : s.jobs.line = false) (hb : cancelBarred s i = false)
    (hi : ∀ x ∈ s.jobs.layers, x.index < i) (r : Ref) : startLayerCancel r i s = finish r stDone 0 0 s := by
  have hnone : (s.jobs.layers.filter fun x => decide (i ≤ x.index)) = [] :=
    List.filter_eq_nil_iff.2 fun x hx => by simpa using hi x hx
  rw [startLayerCancel_good h0 hl hb, hnone, List.length_nil, List.foldl_nil]

/-! ### JOB_RESUME (R74, R79) -/

/-- An accepted JOB_RESUME waits for the job to leave HELD. -/
def acceptResume (r : Ref) (m : Nat) (s : State) : State :=
  setJobs (fun j => { j with resumeRefs := j.resumeRefs ++ [r], resumeMode := m, resumeOk := true }) s

theorem startJobResume_unsuited {s : State} {m : Nat} (h : s.jobs.state = 10) (hm : modeSuits s.jobs.cause.toNat m = false) (r : Ref) :
    startJobResume r m s = endWith r stParam s := by
  simp [startJobResume, h, hm]

theorem startJobResume_oneModule {s : State} {m : Nat} (h : s.jobs.state = 10) (hm : modeSuits s.jobs.cause.toNat m = true)
    (hj : s.jobs.machine = false) (r : Ref) : startJobResume r m s = resumeGo (acceptResume r m s) := by
  have hheld : (s.jobs.state != 10) = false := by rw [h]; rfl
  simp only [startJobResume, hheld, hm, Bool.not_true, Bool.false_eq_true, if_false]
  exact if_neg (ne_true_of_eq_false hj)

/-- In a MACHINE_JOB the leader goes on to the machine's resume, and a member reports that it has accepted. -/
theorem startJobResume_machine {s : State} {m : Nat} (h : s.jobs.state = 10) (hm : modeSuits s.jobs.cause.toNat m = true)
    (hj : s.jobs.machine = true) (r : Ref) : startJobResume r m s =
      if isLeader s then machineResume (acceptResume r m s) else report false false (acceptResume r m s) := by
  have hheld : (s.jobs.state != 10) = false := by rw [h]; rfl
  have hstart : startJobResume r m s = if isLeader (report false false (acceptResume r m s)) then
      machineResume (report false false (acceptResume r m s)) else report false false (acceptResume r m s) := by
    simp only [startJobResume, hheld, hm, Bool.not_true, Bool.false_eq_true, if_false]
    exact if_pos hj
  rw [hstart, isLeader_report]
  by_cases hl : isLeader s = true
  · rw [report_leader (s := acceptResume r m s) hl]
    rfl
  · rw [if_neg hl]
    exact if_neg hl

/-! ### LANE_REENABLE (R76, R89) -/

theorem startLaneReenable_build {s : State} {m : BitVec 128} (h0 : s.jobs.state ≠ 0) (hm : namesFused s m = false)
    (hl : s.jobs.line = false) (r : Ref) :
    startLaneReenable r m s = endWith r stDone (setJobs (fun j => { j with excluded := j.excluded &&& ~~~m }) s) := by
  simp [startLaneReenable, (jobExists_iff s).2 h0, hm, hl]

theorem startLaneReenable_line {s : State} {m : BitVec 128} (h0 : s.jobs.state ≠ 0) (hm : namesFused s m = false)
    (hl : s.jobs.line = true) (hn : ∀ l ∈ lanesIn m, (beamNode s l).isSome = true) (r : Ref) : startLaneReenable r m s =
      endWith r stDone ((lanesIn m).foldl (fun s l => setLane l (fun x => { x with reenable := true }) s) s) := by
  have hall : ((lanesIn m).any fun l => (beamNode s l).isNone) = false :=
    List.any_eq_false.2 fun l hl => by rw [Option.isNone_iff_eq_none]; exact Option.isSome_iff_ne_none.1 (hn l hl)
  simp [startLaneReenable, (jobExists_iff s).2 h0, hm, hl, hall]

/-- Settles O1: each descriptor acts on the state in which it is outstanding, by the job state and by its operands. -/
theorem jobDescriptors : Obligations.JobDescriptors := by
  intro h s hr
  refine ⟨fun h0 => ⟨fun m => ?_, fun a => ?_, fun i => ?_, ?_, fun m => ?_, fun hj l p a r c => ?_⟩, fun h10 m => ?_, fun h0 a => ?_,
    fun a hf ha hm he hv => ?_, fun h10 => ?_, ?_, fun i h0 hl => ?_, fun m h10 hm => ?_, fun m h10 hm hj => ?_, fun m h10 hm hj => ?_,
    ?_, fun m h0 hm => ⟨fun hl => ?_, fun hl hn => ?_⟩⟩
  · exact post_next hr (startJobEnd_noJob (s := accept h 0x11 s) h0 _ _)
  · exact post_next hr (startLayerQueue_noJob (s := accept h 0x12 s) h0 _ _)
  · exact post_next hr (startLayerCancel_noJob (s := accept h 0x13 s) h0 _ _)
  · exact post_next hr (startJobHold_noJob (s := accept h 0x14 s) h0 _)
  · exact post_next hr (startLaneReenable_noJob (s := accept h 0x16 s) h0 _ _)
  · exact post_next hr (startMarkQueue_noJob (s := accept h 0x17 s) hj _ _ _ _ _ _)
  · exact post_next hr (startJobResume_notHeld (s := accept h 0x15 s) h10 _ _)
  · exact post_next hr (startJobStart_barred (s := accept h 0x10 s) (startBarred_job h0) _ _)
  · intro b hown u
    have g : GoodHeader a (accept h 0x10 s) := ⟨hf, ha, hm, he, hv, hown⟩
    exact ⟨post_next hr (startJobStart_good g _), fun hl => post_next hr (startJobStart_build g hl _),
      fun hl hat hz => post_next hr (startJobStart_immediate g hl hat hz _)⟩
  · exact post_next hr (startJobHold_held (s := accept h 0x14 s) h10 _)
  · intro u
    refine ⟨fun m h0 hm => ?_, fun h23 => ?_, fun h11 => ?_, fun h12 => ?_, fun hno => ?_, fun h0 => ?_⟩
    · exact post_next hr (startJobEnd_badMode (s := accept h 0x11 s) h0 hm _)
    · exact post_next hr (startJobEnd_layer (s := accept h 0x11 s) h23 _)
    · exact post_next hr (startJobEnd_lineRun (s := accept h 0x11 s) h11 _)
    · exact post_next hr (startJobEnd_ending (s := accept h 0x11 s) h12 _)
    · exact post_next hr (startJobEnd_elsewhere (s := accept h 0x11 s) hno _)
    · exact post_next hr (startJobEnd_now (s := accept h 0x11 s) h0 _)
  · refine ⟨fun hb => ?_, fun hb => ?_⟩
    · exact post_next hr (startLayerCancel_barred (s := accept h 0x13 s) hb _)
    · intro xs
      exact ⟨post_next hr (startLayerCancel_good (s := accept h 0x13 s) h0 hl hb _),
        fun hi => post_next hr (startLayerCancel_none (s := accept h 0x13 s) h0 hl hb hi _)⟩
  · exact post_next hr (startJobResume_unsuited (s := accept h 0x15 s) h10 hm _)
  · exact post_next hr (startJobResume_oneModule (s := accept h 0x15 s) h10 hm hj _)
  · exact post_next hr (startJobResume_machine (s := accept h 0x15 s) h10 hm hj _)
  · intro u
    refine ⟨fun h0 h10 => ?_, fun h2 hl => ?_, fun e hst he hn => ?_, fun h4 => ?_⟩
    · exact post_next hr (startJobHold_asked (s := accept h 0x14 s) h0 h10 _)
    · exact post_next hr (startJobHold_expose (s := accept h 0x14 s) h2 hl _)
    · exact post_next hr (startJobHold_stage (s := accept h 0x14 s) hst he hn _)
    · exact post_next hr (startJobHold_starved (s := accept h 0x14 s) h4 _)
  · exact post_next hr (startLaneReenable_build (s := accept h 0x16 s) h0 hm hl _)
  · exact post_next hr (startLaneReenable_line (s := accept h 0x16 s) h0 hm hl hn _)

end Sys2Proof.Machine
end

section
/-! SUPPORT. What the end of a lane's stream makes due of its layer. -/

namespace Sys2Proof.Machine

/-! ### LANE_END (R31, R97) -/

theorem completing_flushPlan (l : Nat) (s : State) : (flushPlan l s).jobs.completing = s.jobs.completing :=
  congrArg (fun v => v.1.2.completing) (workView_leaveRecords l _ _ s)

/-- END as a planned record. -/
def plannedEnd : PRec := (makeRec .reset 0 .reset { index := 0, bytes := List.replicate 32 0, bad := none } .stop none).2

/-- Layer 0 is in POST_IMAGE, its completion is not due, and lane 0 has only END before it. -/
def endsInPostImage : State :=
  { State.reset with
    jobs := { Jobs.reset with state := 3, exposed := some 0 }
    lanes := [{ Lane.reset with state := .running, plan := [plannedEnd] }] }

/-- With that END the last record of the layer is in Basin, and its completion is due (R31). -/
theorem completing_laneEnd_endsInPostImage : (laneEnd 0 (passTo 0 endsInPostImage)).jobs.completing = some 0 := by decide +kernel

/-- Refutes O9: the last LANE_END of a layer in POST_IMAGE also makes the completion of that layer due, and the statement, which bars no
job state, leaves it as it was. -/
theorem not_lanesFetchPlanAndEnd : ¬ Obligations.LanesFetchPlanAndEnd := by
  intro h
  have settled : settleLane 0 (passTo 0 endsInPostImage) = passTo 0 endsInPostImage := by decide +kernel
  have ended : atEnd (max endsInPostImage.now 0) (laneOf endsInPostImage 0) = true := by decide +kernel
  obtain ⟨-, -, -, -, -, -, -, -, -, -, -, hend⟩ := h 0 0 endsInPostImage settled
  have claimed := Host.Outcome.next.inj (hend 0 ended rfl rfl rfl)
  have notDue : (laneEnd 0 (passTo 0 endsInPostImage)).jobs.completing = none :=
    (congrArg (fun u => u.jobs.completing) claimed).trans (completing_flushPlan 0 (passTo 0 endsInPostImage))
  exact Option.some_ne_none 0 (completing_laneEnd_endsInPostImage.symm.trans notDue)

end Sys2Proof.Machine
end

section
/-! SUPPORT. What a port puts out in a cycle, and what a feedback unit brings. -/

namespace Sys2Proof.Machine

/-! ### SPL_CYCLE (R134, R250 to R252) -/

/-- A slot without a set-point and without a trim that counts is all 0. -/
theorem slotBytes_none (c : Ns) : slotBytes none 0 false c = List.replicate 16 0 := rfl

/-- A cycle that SPL_CYCLE cannot put out: its port is down, or its start is no cycle start, or it does not hold the time. -/
theorem splCycle_barred {p c : Nat} {s : State} (h : (portOf s p).link = 0 ∨ c % 500 ≠ 0 ∨ s.now < c ∨ c + 500 < s.now) :
    splCycle p c s = s := by
  have hbar : (decide (s.variant.ports ≤ p) || c % 500 != 0 || decide (s.now < c) || decide (c + 500 < s.now)
      || !((portOf s p).link == 2 || (portOf s p).link == 3)) = true := by
    rcases h with h | h | h | h
    · rw [h]; simp
    · simp [h]
    · simp [h]
    · simp [h]
  exact if_pos hbar

/-- What a port puts out in a cycle with the slots `slots`, and what it keeps of it. -/
def cycleOut (p c : Nat) (slots : List (List Byte)) (s : State) : State :=
  let f := b1 (laserEnable s) + 2 * b1 (portOpen s (portOf s p))
  let v := putCycle p (c / 500) f slots (quadChecks 4 slots) (setPort p (fun q => { q with laserEn := laserEnable s }) s)
  { v with sent := .cycle p (c / 500 % 4294967296) f slots (quadChecks 4 slots) :: v.sent }

/-- A port in use puts out the cycle that holds the time. -/
theorem splCycle_inUse {p c : Nat} {s : State} (hp : p < s.variant.ports) (hl : linkUp s p = true) (hc : c % 500 = 0) (h1 : c ≤ s.now)
    (h2 : s.now ≤ c + 500) :
    splCycle p c s = cycleOut p c (slotsGo p c (min 16 (portBeams s p)) 0 s).1 (slotsGo p c (min 16 (portBeams s p)) 0 s).2 := by
  have hgo : ¬(decide (s.variant.ports ≤ p) || c % 500 != 0 || decide (s.now < c) || decide (c + 500 < s.now)
      || !((portOf s p).link == 2 || (portOf s p).link == 3)) = true := by
    have hup : ((portOf s p).link == 2 || (portOf s p).link == 3) = true := hl
    rw [hup]
    simp [hc, hp, h1, h2]
  exact if_neg hgo

/-- A port without an addressed node has no beams. -/
theorem portBeams_none {p : Nat} {s : State} (h : ∀ n ∈ (portOf s p).nodes, n.present = false) : portBeams s p = 0 := by
  unfold portBeams
  generalize (portOf s p).nodes = ns at h
  induction ns with
  | nil => rfl
  | cons n ns ih =>
    rw [List.foldl_cons, h n List.mem_cons_self]
    exact ih fun m hm => h m (List.mem_cons_of_mem n hm)

/-- A port in use without an addressed node puts out no slots. -/
theorem splCycle_noNodes {p c : Nat} {s : State} (hp : p < s.variant.ports) (hl : linkUp s p = true) (hc : c % 500 = 0) (h1 : c ≤ s.now)
    (h2 : s.now ≤ c + 500) (hn : ∀ n ∈ (portOf s p).nodes, n.present = false) : splCycle p c s = cycleOut p c [] s := by
  rw [splCycle_inUse hp hl hc h1 h2, portBeams_none hn]
  rfl

/-! ### FB_UNIT_RECEIVE (R151, R255, R274) -/

theorem unit_modUnit_of_keeps {α β : Type} {f : α → α} {g : α → β} (h : ∀ x, g (f x) = g x) (xs : List α) (i j : Nat) (d : α) :
    g (unit (modUnit xs i f) j d) = g (unit xs j d) := by
  have hview (ys : List α) : (ys.map g).getD j (g d) = g (unit ys j d) := List.getD_map ys d g
  rw [← hview, ← hview, map_modUnit_of_keeps h]

/-- A present node that carries beam `b` of a lane: of class SCAN, with that many beams (R369). -/
def Node.carries (n : Node) (b : Nat) : Bool := n.present && n.ident.cls == 0 && decide (b < n.ident.beams)

theorem beamNode_isSome (s : State) (l : Nat) : (beamNode s l).isSome = (!(!laneMapped s l || decide ((laneRec s l).hop = 0)) &&
    (unit (portOf s (laneRec s l).port).nodes ((laneRec s l).hop - 1) .reset).carries (laneRec s l).beam) := by
  unfold beamNode
  dsimp only
  split
  · next h => simp [h]
  · next h =>
    rw [Bool.not_eq_true] at h
    rw [h, Bool.not_false, Bool.true_and]
    split
    · next hn => exact hn.symm
    · next hn => exact (Bool.eq_false_iff.2 hn).symm

/-- A unit has come at a port from its node `i`: the node is there, and a bad CRC counts (R255, R274). -/
def unitCame (p i : Nat) (good : Bool) (s : State) : State :=
  setPort p (fun q => { q with
    fbCrcErr := if good then q.fbCrcErr else satInc q.fbCrcErr
    nodes := modUnit q.nodes i fun n => { n with lastUnit := s.now } }) s

theorem beamNode_isSome_unitCame (p i : Nat) (good : Bool) (s : State) (l : Nat) :
    (beamNode (unitCame p i good s) l).isSome = (beamNode s l).isSome := by
  have hport (q : Port) (h b : Nat) :
      (unit (modUnit q.nodes i fun n : Node => { n with lastUnit := s.now }) h .reset).carries b = (unit q.nodes h .reset).carries b :=
    unit_modUnit_of_keeps (f := fun n : Node => { n with lastUnit := s.now }) (g := fun n => n.carries b) (fun _ => rfl) q.nodes i h .reset
  rw [beamNode_isSome, beamNode_isSome]
  exact congrArg (_ && ·) (unit_modUnit_of_keeps (g := fun q : Port => (unit q.nodes ((laneRec s l).hop - 1) .reset).carries (laneRec s l).beam)
    (fun q => hport q _ _) s.link.ports p (laneRec s l).port .reset)

/-- The unit that has come belongs to the same lane as before. -/
theorem laneOfBeam_unitCame (p i : Nat) (good : Bool) (s : State) (port hop beam : Nat) :
    laneOfBeam (unitCame p i good s) port hop beam = laneOfBeam s port hop beam := by
  simp only [laneOfBeam, beamNode_isSome_unitCame]
  rfl

theorem laneOfBeam_none {s : State} {port hop beam : Nat}
    (h : ∀ l ∈ allLanes s, ¬((laneRec s l).port = port ∧ (laneRec s l).hop = hop ∧ (laneRec s l).beam = beam)) :
    laneOfBeam s port hop beam = none := by
  rw [laneOfBeam, List.find?_eq_none]
  intro l hl hfound
  simp only [Bool.and_eq_true, decide_eq_true_eq] at hfound
  obtain ⟨⟨⟨hport, hhop⟩, hbeam⟩, -⟩ := hfound
  exact h l hl ⟨hport, hhop, hbeam⟩

/-- A unit of a node that is not there changes nothing. -/
theorem fbUnit_absent {p src : Nat} {s : State} (hn : (nodeOf s p (src % 16 + 1)).present = false) (cy crc a b : Nat) (x y : Int) (st : Nat) :
    fbUnit p src cy crc a b x y st s = s := by
  have hbar : (decide (s.variant.ports ≤ p) || !(nodeOf s p (src % 16 + 1)).present) = true := by rw [hn, Bool.not_false, Bool.or_true]
  exact if_pos hbar

theorem node_takesUnits {p h : Nat} {s : State} (hp : p < s.variant.ports) (hn : (nodeOf s p h).present = true) :
    ¬(decide (s.variant.ports ≤ p) || !(nodeOf s p h).present) = true := by
  rw [hn, decide_eq_false (Nat.not_le.2 hp)]
  exact Bool.false_ne_true

/-- A unit of a beam that no lane has shows that its node is there, and no more. -/
theorem fbUnit_noLane {p src : Nat} {s : State} (hp : p < s.variant.ports) (hn : (nodeOf s p (src % 16 + 1)).present = true)
    (hl : laneOfBeam s p (src % 16 + 1) (bits src 4 2) = none) (cy crc a b : Nat) (x y : Int) (st : Nat) :
    fbUnit p src cy crc a b x y st s = unitCame p (src % 16) (decide (crc = crc8 (fbBytes src cy a b x y st))) s := by
  unfold fbUnit
  extract_lets hop beam c node good came
  refine (if_neg (node_takesUnits hp hn)).trans ?_
  have hlane : laneOfBeam came p hop beam = none := (laneOfBeam_unitCame p (src % 16) good s p hop beam).trans hl
  rw [hlane]
  rfl

/-- A good unit of a lane: it accounts for every slot before it, and brings its mirror and detector values. -/
def unitTaken (l c a b : Nat) (x y : Int) (s : State) : State :=
  setLane l (fun k => { k with mirX := x, mirY := y, pdA := a, pdB := b })
    (setLoop l (fun k => slewDark c { k with missing := 0, lastFb := some c }) (settleLane l (missUpTo l c s)))

/-- A good unit of a beam whose lane does not emit is an idle sample of that lane. -/
theorem fbUnit_idle {p src cy l : Nat} {s : State} (hp : p < s.variant.ports) (hn : (nodeOf s p (src % 16 + 1)).present = true)
    (hl : laneOfBeam s p (src % 16 + 1) (bits src 4 2) = some l) {st : Nat} (hv : bit st 0 = true) {a b : Nat} {x y : Int}
    (hnew : ∀ c0, (laneOf s l).loop.lastFb = some c0 → c0 < cycleTime s.now cy)
    (hoff : emitOf (laneOf (unitTaken l (cycleTime s.now cy) a b x y (unitCame p (src % 16) true s)) l) (cycleTime s.now cy) = none) :
    fbUnit p src cy (crc8 (fbBytes src cy a b x y st)) a b x y st s =
      let c := cycleTime s.now cy
      fbStatus l st (endTail l c (followSample l c x y (darkSample l c a b (idleSample l c a b
        (unitTaken l c a b x y (unitCame p (src % 16) true s)))))) := by
  have hgood : decide (crc8 (fbBytes src cy a b x y st) = crc8 (fbBytes src cy a b x y st)) = true := decide_eq_true rfl
  have hfirst : ((laneOf s l).loop.lastFb.any fun t0 => decide (cycleTime s.now cy ≤ t0)) = false := by
    cases hlast : (laneOf s l).loop.lastFb with
    | none => rfl
    | some c0 => exact decide_eq_false (Nat.not_le.2 (hnew c0 hlast))
  unfold fbUnit
  rw [hgood]
  extract_lets hop beam c node good came
  refine (if_neg (node_takesUnits hp hn)).trans ?_
  have hlane : laneOfBeam came p hop beam = some l := (laneOfBeam_unitCame p (src % 16) good s p hop beam).trans hl
  rw [hlane]
  refine (if_neg (Bool.eq_false_iff.1 hfirst)).trans ?_
  rw [hv]
  refine (if_neg Bool.false_ne_true).trans ?_
  extract_lets heard taken ln sampled
  have hnone : emitOf ln c = none := hoff
  have hsampled : sampled = idleSample l c a b taken := by
    simp only [sampled, hnone]
  rw [hsampled]
  rfl

/-- The FAULT bit alone faults the lane with HEAD_STATUS. -/
theorem fbStatus_fault (l : Nat) (s : State) :
    fbStatus l 0x08 s = faultAll 512 [(l, fcLane, 0x02, none)] (setLane l (fun x => { x with headFault := true }) s) := rfl

/-- The LATE bit alone faults the lane with HEAD_LATE. -/
theorem fbStatus_late (l : Nat) (s : State) :
    fbStatus l 0x10 s = faultAll 512 [(l, fcLane, 0x06, none)] (setLane l (fun x => { x with headFault := false }) s) := rfl

/-- Settles O22: SPL_CYCLE by the port and the time, FB_UNIT_RECEIVE by the node, the lane of its beam and the CRC. -/
theorem cyclesAndFeedback : Obligations.CyclesAndFeedback := by
  intro t p s
  refine ⟨fun c h => ?_, fun c hp hl hc h1 h2 => ⟨?_, fun hn => ?_⟩, fun src cy a b st l x y hp hn hl hv => ?_,
    fun src cy crc a b x y st hn => ?_, fun src cy crc a b x y st hp hn hl => ?_, fun l _ _ => ⟨fbStatus_fault l s, fbStatus_late l s⟩,
    slotBytes_none⟩
  · exact congrArg Host.Outcome.next (splCycle_barred (s := passTo t s) h)
  · exact congrArg Host.Outcome.next (splCycle_inUse (s := passTo t s) hp hl hc h1 h2)
  · exact congrArg Host.Outcome.next (splCycle_noNodes (s := passTo t s) hp hl hc h1 h2 hn)
  · intro c w v hnew hoff
    exact congrArg Host.Outcome.next (fbUnit_idle (s := passTo t s) hp hn hl hv hnew hoff)
  · exact congrArg Host.Outcome.next (fbUnit_absent (s := passTo t s) hn cy crc a b x y st)
  · have came := fbUnit_noLane (s := passTo t s) hp hn (laneOfBeam_none hl) cy crc a b x y st
    simp only [unitCame, decide_eq_true_eq] at came
    exact congrArg Host.Outcome.next came

end Sys2Proof.Machine
end

section
/-! SUPPORT. What the opcodes of Mere answer and change. -/

namespace Sys2Proof.Machine

/-! ### MERE_SAVE_CFG and MERE_SAVE_NOW (R174, R175, R178) -/

theorem startMereSaveCfg_open {s : State} (ho : s.mere.saves ≠ []) (r : Ref) (b z n : Nat) :
    startMereSaveCfg r b z n s = endWith r stState s := by
  simp [startMereSaveCfg, ho]

theorem startMereSaveCfg_good {s : State} {b z n : Nat} (ho : s.mere.saves = []) (hb : b % 4096 = 0) (hz : z % 4096 = 0)
    (hz' : 8192 ≤ z) (hn : 1 ≤ n) (hn' : n ≤ 65535) (hm : hostMem b (z * n) s = true) (r : Ref) :
    startMereSaveCfg r b z n s = endWith r stDone (setMere (fun m => { m with
      slotBase := BitVec.ofNat 64 b, slotSize := BitVec.ofNat 32 z, slotCount := BitVec.ofNat 16 n }) s) := by
  simp [startMereSaveCfg, ho, hb, hz, Nat.not_lt.2 hz', Nat.one_le_iff_ne_zero.1 hn, Nat.not_lt.2 hn', hm]

theorem startMereSaveCfg_badRegion {s : State} {b z n : Nat} (ho : s.mere.saves = [])
    (hbad : b % 4096 ≠ 0 ∨ z % 4096 ≠ 0 ∨ z < 8192 ∨ n = 0 ∨ 65535 < n) (r : Ref) :
    startMereSaveCfg r b z n s = endWith r stParam s := by
  have hrefused : (b % 4096 != 0 || z % 4096 != 0 || decide (z < 8192) || decide (n = 0) || decide (65535 < n)) = true := by
    simpa [or_assoc] using hbad
  simp [startMereSaveCfg, ho, hrefused]

/-- The job is in ARM or EXPOSE (R62). -/
theorem armOrExpose_iff (s : State) : [2, 8].contains (jobState s) = true ↔ s.jobs.state = 2 ∨ s.jobs.state = 8 := by
  simp [jobState, ← BitVec.toNat_inj]

theorem startMereSaveNow_refused {s : State} (hs : s.jobs.state = 2 ∨ s.jobs.state = 8 ∨ s.mere.slotCount = 0) (r : Ref) (tag : Nat) :
    startMereSaveNow r tag s = endWith r stState s := by
  refine if_pos (Bool.or_eq_true_iff.2 ?_)
  rcases hs with h | h | h
  · exact .inl ((armOrExpose_iff s).2 (.inl h))
  · exact .inl ((armOrExpose_iff s).2 (.inr h))
  · exact .inr (by simp [canSave, h])

theorem startMereSaveNow_queued {s : State} (h2 : s.jobs.state ≠ 2) (h8 : s.jobs.state ≠ 8) (hn : s.mere.slotCount ≠ 0)
    (hc : (mereChan s).isSome) (r : Ref) (tag : Nat) : startMereSaveNow r tag s = setMere (fun m => { m with
      saves := m.saves ++ [{ layer := 0xFFFFFFFF, slot := s.mere.nowCount % s.mere.slotCount.toNat, tag := tag, ref := some r
                             due := s.now, copied := none, resume := 0, result := none }]
      nowCount := m.nowCount + 1 }) s := by
  have hs : ¬ [2, 8].contains (jobState s) = true := fun h => ((armOrExpose_iff s).1 h).elim h2 h8
  have hsave : canSave s = true := Bool.and_eq_true_iff.2 ⟨bne_iff_ne.2 hn, hc⟩
  exact if_neg fun h => (Bool.or_eq_true_iff.1 h).elim hs (by simp [hsave])

/-! ### MERE_FIELD_SET (R602) -/

/-- There is no job, or it is in STARVED or HELD (R62). -/
theorem fieldSetState_iff (s : State) :
    [0, 4, 10].contains (jobState s) = true ↔ s.jobs.state = 0 ∨ s.jobs.state = 4 ∨ s.jobs.state = 10 := by
  simp [jobState, ← BitVec.toNat_inj]

/-- The field that a MERE_FIELD_SET puts into the queue. -/
def fieldSetOf (s : State) (r : Ref) (cells : List Nat) : FieldSet :=
  { cells := cells, ref := r, readAt := s.now, waited := s.mere.due && decide (s.boot.profileAt = s.now) }

theorem startMereFieldSet_expose {s : State} (h2 : s.jobs.state = 2) (r : Ref) (m v a : Nat) :
    startMereFieldSet r m v a s = endWith r stState s := by
  simp [startMereFieldSet, jobState, h2]

theorem startMereFieldSet_badMode {s : State} {m : Nat} (h0 : s.jobs.state = 0) (hm : 1 < m) (r : Ref) (v a : Nat) :
    startMereFieldSet r m v a s = endWith r stParam s := by
  simp [startMereFieldSet, jobState, h0, hm]

theorem startMereFieldSet_value {s : State} (hs : s.jobs.state = 0 ∨ s.jobs.state = 4 ∨ s.jobs.state = 10) (r : Ref) (v a : Nat) :
    startMereFieldSet r 0 v a s =
      setMere (fun m => { m with sets := m.sets ++ [fieldSetOf s r (List.replicate (s.mere.nx * s.mere.ny) v)] }) s := by
  unfold startMereFieldSet
  simp only [(fieldSetState_iff s).2 hs]
  rfl

theorem startMereFieldSet_memory {s : State} {a : Nat} (hs : s.jobs.state = 0 ∨ s.jobs.state = 4 ∨ s.jobs.state = 10) (ha : a % 2 = 0)
    (hm : hostMem a (2 * (s.mere.nx * s.mere.ny)) s = true) (hp : poisonIn a (2 * (s.mere.nx * s.mere.ny)) s = none) (r : Ref)
    (v : Nat) : startMereFieldSet r 1 v a s =
      setMere (fun m => { m with sets := m.sets ++ [fieldSetOf s r (readCells a (s.mere.nx * s.mere.ny) s)] }) s := by
  unfold startMereFieldSet
  simp only [(fieldSetState_iff s).2 hs, ha, hm, hp]
  rfl

/-! ### MERE_COEFF (R163, R178, R179) -/

theorem startMereCoeff_large {mask d : Nat} (h0 : bit mask 0 = true) (h5 : bit mask 5 = false) (hd : 16384 < d) (ref : Ref)
    (r k w b : Nat) (s : State) : startMereCoeff ref mask d r k w b s = endWith ref stParam s := by
  have hc : mereCoeffCheck mask d = stParam := by simp [mereCoeffCheck, h0, h5, hd]
  have hst : (stParam != stDone) = true := by decide
  simp only [startMereCoeff, hc, hst, if_true]

/-- MERE_COEFF that sets a D above 16,384 is REJECTED_PARAM. -/
theorem exec_mereCoeff_large {h : Hdr} {s : State} {mask d : Nat} (hr : Ready h s) (h0 : bit mask 0 = true) (h5 : bit mask 5 = false)
    (hd : 16384 < d) (r k w b : Nat) :
    exec (.mereCoeff h mask d r k w b) s = .next (endWith h.ref stParam (accept h 0x33 s)) :=
  post_next hr (startMereCoeff_large h0 h5 hd _ _ _ _ _ _)

theorem bit_five_of_lt {mask : Nat} (hm : mask < 32) : bit mask 5 = false := Nat.testBit_lt_two_pow hm

theorem bit_five_of_le {mask : Nat} (h : 32 ≤ mask) (hm : mask < 64) : bit mask 5 = true := by
  rw [bit, Nat.testBit_eq_decide_div_mod_eq]
  exact decide_eq_true (by omega)

/-- Where no step begins at this tick, a MERE_COEFF waits. -/
theorem applyMereCoeff_waits {s : State} (hb : s.mere.beginning s.now = none) (r : Option Ref) (mask : Nat) (c : Coeffs) :
    applyMereCoeff r mask c s = setMere (fun m => { m with
      pendingCoeffs := m.pendingCoeffs ++ [(mask, if bit mask 5 then
        { d := s.prof.mere.d, r := s.prof.mere.r, kDep := s.prof.mere.kDep, assimWeight := s.prof.mere.assimWeight
          layerBlend := s.prof.mere.layerBlend } else c, r)] }) s := by
  unfold applyMereCoeff
  extract_lets p c' u
  have hu : ¬ (u.mere.beginning u.now).isSome = true := by
    have : u.mere.beginning u.now = none := hb
    simp [this]
  exact if_neg hu

theorem startMereCoeff_good {mask d : Nat} (hm : mask < 64) (hd : bit mask 0 = true → bit mask 5 = false → d ≤ 16384) (ref : Ref)
    (r k w b : Nat) (s : State) : startMereCoeff ref mask d r k w b s =
      applyMereCoeff (some ref) mask { d := d, r := r, kDep := k, assimWeight := w, layerBlend := b } s := by
  have hc : mereCoeffCheck mask d = stDone := by
    refine if_neg fun h => ?_
    simp only [Bool.or_eq_true, Bool.and_eq_true, decide_eq_true_eq, Bool.not_eq_true'] at h
    rcases h with h | ⟨⟨h0, h5⟩, h⟩
    · omega
    · exact absurd (hd h0 h5) (by omega)
  have hst : (stDone != stDone) = false := by decide
  simp only [startMereCoeff, hc, hst, Bool.false_eq_true, if_false]

/-- The coefficients of a MERE_COEFF wait for the step that applies them. -/
theorem startMereCoeff_set {s : State} {mask d : Nat} (hm : mask < 32) (hd : bit mask 0 = true → d ≤ 16384)
    (hb : s.mere.beginning s.now = none) (ref : Ref) (r k w b : Nat) :
    startMereCoeff ref mask d r k w b s = setMere (fun m => { m with
      pendingCoeffs := m.pendingCoeffs ++
        [(mask, { d := d, r := r, kDep := k, assimWeight := w, layerBlend := b }, some ref)] }) s := by
  rw [startMereCoeff_good (by omega) fun h0 _ => hd h0, applyMereCoeff_waits hb, if_neg (ne_true_of_eq_false (bit_five_of_lt hm))]

/-- With CLEAR the profile's coefficients wait, whatever the descriptor's own are. -/
theorem startMereCoeff_clear {s : State} {mask : Nat} (h : 32 ≤ mask) (hm : mask < 64) (hb : s.mere.beginning s.now = none) (ref : Ref)
    (d r k w b : Nat) : startMereCoeff ref mask d r k w b s = setMere (fun m => { m with
      pendingCoeffs := m.pendingCoeffs ++ [(mask, { d := s.prof.mere.d, r := s.prof.mere.r, kDep := s.prof.mere.kDep
                                                    assimWeight := s.prof.mere.assimWeight
                                                    layerBlend := s.prof.mere.layerBlend }, some ref)] }) s := by
  have h5 : bit mask 5 = true := bit_five_of_le h hm
  rw [startMereCoeff_good hm fun _ hf => absurd h5 (ne_true_of_eq_false hf), applyMereCoeff_waits hb, if_pos h5]

/-! ### LOOP_CURVE_LOAD (R145, R178, R371) -/

theorem startLoopCurveLoad_noCurve {c : Nat} (hc : 32 ≤ c) (r : Ref) (a : Nat) (s : State) :
    startLoopCurveLoad r c a s = endWith r stParam s := by
  simp [startLoopCurveLoad, hc]

theorem startLoopCurveLoad_good {s : State} {c a : Nat} {p : List Byte} {v : Curve} (hc : c < 32) (ha : a % 4 = 0)
    (hm : hostMem a 132 s = true) (hi : recordImage a 120 s = some (0x0020, c, p)) (hv : readCurve p = some v) (r : Ref) :
    startLoopCurveLoad r c a s = endWith r stDone (bumpOverride 3 true { s with curves := s.curves.set c (some v) }) := by
  simp [startLoopCurveLoad, Nat.not_le.2 hc, ha, hm, hi, hv]

/-- Settles O12: each descriptor acts on the state in which it is outstanding, as the lemma of its command says. Which field
MERE_SAVE_NOW saves is the model's choice (log 35). -/
theorem mereOpcodes : Obligations.MereOpcodes := by
  intro h s hr
  refine ⟨fun b z n ho => ?_, fun b z n ho hb hz hz' hn hn' hm => ?_, fun b z n ho hbad => ?_, fun tag hs => ?_,
    fun tag h2 h8 hn hc => ?_, fun m v a h2 => ?_, fun m v a h0 hm => ?_, fun v a hs => ?_, fun v a hs ha hm hp => ?_,
    fun mask d r k w b h0 h5 hd => exec_mereCoeff_large hr h0 h5 hd r k w b, fun mask d r k w b hm hd hb => ?_,
    fun mask d r k w b hm hm' hb => ?_, fun c a hc => ?_, fun c a p v hc ha hm hi hv => ?_⟩
  · exact post_next hr (startMereSaveCfg_open (s := accept h 0x30 s) ho _ _ _ _)
  · exact post_next hr (startMereSaveCfg_good (s := accept h 0x30 s) ho hb hz hz' hn hn' hm _)
  · exact post_next hr (startMereSaveCfg_badRegion (s := accept h 0x30 s) ho hbad _)
  · exact post_next hr (startMereSaveNow_refused (s := accept h 0x31 s) hs _ _)
  · exact post_next hr (startMereSaveNow_queued (s := accept h 0x31 s) h2 h8 hn hc _ _)
  · exact post_next hr (startMereFieldSet_expose (s := accept h 0x32 s) h2 _ _ _ _)
  · exact post_next hr (startMereFieldSet_badMode (s := accept h 0x32 s) h0 hm _ _ _)
  · exact post_next hr (startMereFieldSet_value (s := accept h 0x32 s) hs _ _ _)
  · exact post_next hr (startMereFieldSet_memory (s := accept h 0x32 s) hs ha hm hp _ _)
  · exact post_next hr (startMereCoeff_set (s := accept h 0x33 s) hm hd hb _ _ _ _ _)
  · exact post_next hr (startMereCoeff_clear (s := accept h 0x33 s) hm hm' hb _ _ _ _ _ _)
  · exact post_next hr (startLoopCurveLoad_noCurve hc _ _ _)
  · exact post_next hr (startLoopCurveLoad_good (s := accept h 0x34 s) hc ha hm hi hv _)

end Sys2Proof.Machine
end

section
/-! SUPPORT. What a step of Mere makes of a cell. -/

namespace Sys2Proof.Machine

/-! ### The step of a cell (R163) -/

theorem clampI_toNat {hi : Int} (h : 0 ≤ hi) (x : Int) : ((clampI 0 hi x).toNat : Int) = max 0 (min hi x) := by
  unfold clampI
  split_ifs <;> omega

/-- A field in row order holds the cell of every row and column of its grid. -/
theorem rowCol_lt {nx ny row col : Nat} (hr : row < ny) (hc : col < nx) : row * nx + col < nx * ny :=
  calc row * nx + col < row * nx + nx := Nat.add_lt_add_left hc _
    _ = nx * (row + 1) := by ring
    _ ≤ nx * ny := Nat.mul_le_mul_left _ hr

/-- Where a neighbour lies in the field, what stands for one that does not is of no account. -/
theorem ite_getD_of_lt {f : List Nat} {j : Nat} {p : Prop} [Decidable p] (h : p → j < f.length) (t : Nat) :
    (if decide p then ((f.getD j t : Nat) : Int) else (t : Int)) = ((if p then f.getD j 0 else t : Nat) : Int) := by
  by_cases hp : p
  · simp [hp, h hp]
  · simp [hp]

/-- The four neighbours of the cell at a row and a column, each the cell itself where it would lie outside the grid. -/
theorem neighbour_rowCol {nx ny row col : Nat} {f : List Nat} (hf : f.length = nx * ny) (hr : row < ny) (hc : col < nx) (t : Nat) :
    let i := row * nx + col
    neighbour nx ny f i t =
      ((if row + 1 < ny then f.getD (i + nx) 0 else t : Nat) : Int) + (if 0 < row then f.getD (i - nx) 0 else t : Nat)
        + (if col + 1 < nx then f.getD (i + 1) 0 else t : Nat) + (if 0 < col then f.getD (i - 1) 0 else t : Nat) := by
  intro i
  have hcol : i % nx = col := Nat.mul_add_mod_of_lt hc
  have hrow : i / nx = row := Nat.div_eq_of_lt_le (Nat.le_add_right _ _) (by rw [Nat.succ_mul]; exact Nat.add_lt_add_left hc _)
  have here : i < f.length := hf ▸ rowCol_lt hr hc
  have up : row + 1 < ny → i + nx < f.length := fun h => by
    have hi : i + nx = (row + 1) * nx + col := by ring
    exact hi ▸ hf ▸ rowCol_lt h hc
  have right : col + 1 < nx → i + 1 < f.length := fun h => hf ▸ rowCol_lt hr h
  have before (n : Nat) : i - n < f.length := lt_of_le_of_lt (Nat.sub_le _ _) here
  unfold neighbour
  rw [hcol, hrow]
  dsimp only
  rw [ite_getD_of_lt up, ite_getD_of_lt fun _ => before nx, ite_getD_of_lt right, ite_getD_of_lt fun _ => before 1]

/-- The increment of a cell in exact numbers is the sum that the engine forms, over 2 ^ 24. -/
theorem floor_increment (d r tPlate energy kDep h : Nat) (lap t : Int) :
    ⌊(d * lap / 2 ^ 16 - r * ((t : ℚ) - tPlate) / 2 ^ 24 + energy * kDep / 2 ^ 16 + h / 65536 : ℚ)⌋ =
      (d * lap * 256 - r * (t - tPlate) + ((energy * kDep * 256 : Nat) : Int) + h * 256) / 16777216 := by
  have hexact : (d * lap / 2 ^ 16 - r * ((t : ℚ) - tPlate) / 2 ^ 24 + energy * kDep / 2 ^ 16 + h / 65536 : ℚ) =
      ((d * lap * 256 - r * (t - tPlate) + ((energy * kDep * 256 : Nat) : Int) + h * 256 : Int) : ℚ) / (16777216 : Nat) := by
    push_cast
    ring
  rw [hexact, Rat.floor_intCast_div_natCast]
  rfl

/-- A MERE record whose D is above 16,384 is refused (R163, R373). -/
theorem readMere_of_d_large {b : List Byte} (hd : 16384 < field b 20 4) (v : Variant) : readMere v b = none := by
  unfold readMere
  extract_lets nx ny tU
  refine if_neg fun h => ?_
  simp only [Bool.and_eq_true, decide_eq_true_eq] at h
  omega

/-- Settles O13: the neighbours by row and column, the increment over one denominator, and the two refusals of a large D. -/
theorem mereCellStepFormula : Obligations.MereCellStepFormula := by
  refine ⟨fun nx ny d r kDep tPlate k e row col f hf hrow hcol => ?_, fun v b hd => readMere_of_d_large hd v,
    fun h s mask d r k w b hr h0 h5 hd => exec_mereCoeff_large hr h0 h5 hd r k w b⟩
  intro i t up down right left lap inc h
  have hn : neighbour nx ny f i t = up + down + right + left := neighbour_rowCol hf hrow hcol t
  have hfloor := floor_increment d r tPlate e kDep ((i * 40503 + k * 9973) % 65536) (up + down + right + left - 4 * t) t
  have hinc : ⌊inc + h / 65536⌋ = _ := (congrArg Int.floor (by simp [inc, lap, h])).trans hfloor
  unfold mereCellStep
  rw [clampI_toNat (by decide), hn, hinc]

end Sys2Proof.Machine
end

section
/-! SUPPORT. What a step of Mere, a report, a view copy, a read and a save's end make of the state. -/

namespace Sys2Proof.Machine

/-! ### MERE_STEP (R162, R163, R173) -/

theorem setMere_of_same {s : State} {f : Mere → Mere} (h : f s.mere = s.mere) : setMere f s = s := by
  rw [setMere, h]

theorem setMere_congr {s : State} {f g : Mere → Mere} (h : f s.mere = g s.mere) : setMere f s = setMere g s := by
  rw [setMere, h, setMere]

theorem setMere_setMere (f g : Mere → Mere) (s : State) : setMere g (setMere f s) = setMere (fun m => g (f m)) s := rfl

theorem mereStep_early {s : State} (h : (s.mere.run = false ∧ s.mere.due = false) ∨ s.now < mereS s.mere s.mere.next) :
    mereStep s = s := by
  refine if_pos ?_
  rcases h with ⟨hr, hd⟩ | h
  · simp [hr, hd]
  · simp [h]

theorem takeSave_of_noSaves {s : State} (h : s.mere.saves = []) (k : Nat) : takeSave k s = s := by
  simp [takeSave, h]

theorem takeCoarse_of_same {s : State} (h : s.mere.coarse = s.mere.wantCoarse) (k : Nat) : takeCoarse k s = s := by
  simp [takeCoarse, h]

theorem takeCoeffs_of_none {s : State} (h : s.mere.pendingCoeffs = []) : takeCoeffs s = s := by
  rw [takeCoeffs, h]
  exact setMere_of_same (by rw [← h])

theorem takeSets_of_none {s : State} (h : s.mere.sets = []) (k : Nat) : takeSets k s = s := by
  have hk : s.mere.setsAt k = [] := by simp [Mere.setsAt, h]
  rw [takeSets, hk]
  refine setMere_of_same ?_
  simp only [h, List.filter_nil]
  rw [← h]

/-- With nothing to blend and no frame a step takes the front buffer as it is. -/
theorem takeActions_of_none {s : State} (hs : s.mere.settle = none) (hf : s.mere.frame = none) :
    takeActions s = setMere (fun m => { m with ins := { blend := false, frame := none, taken := [] } }) s := by
  unfold takeActions setMere
  simp [hs, hf]

/-- Nothing but reports waits for Mere's next step: no save, no coefficients, no field, no blend, no frame and no change of throttling. -/
structure Mere.NothingWaits (m : Mere) : Prop where
  saves : m.saves = []
  coeffs : m.pendingCoeffs = []
  sets : m.sets = []
  settle : m.settle = none
  frame : m.frame = none
  coarse : m.coarse = m.wantCoarse

/-- Mere once step k has started for which only reports wait. -/
def Mere.startPlain (now : Ns) (tPlate k : Nat) (m : Mere) : Mere :=
  let mine := m.reports.filter fun r => decide (r.came ≤ now)
  let c := stepCoeffs m
  { m with
    ins := { blend := false, frame := none, taken := mine }
    back := some (m.front.mapIdx fun i x =>
      mereCellStep m.nx m.ny m.front c.1 c.2 m.coeffs.kDep tPlate k (cellEnergy mine i) i x, k)
    reports := m.reports.filter fun r => !decide (r.came ≤ now), merges := 0
    next := if m.coarse then k + 2 else k + 1 }

/-- Without a blend and a frame every cell is computed from the front buffer (R163). -/
theorem Mere.stepField_plain {m : Mere} (hb : m.ins.blend = false) (hf : m.ins.frame = none) (tPlate tPowder k : Nat) :
    m.stepField tPlate tPowder k = m.front.mapIdx fun i x => mereCellStep m.nx m.ny m.front (stepCoeffs m).1 (stepCoeffs m).2
      m.coeffs.kDep tPlate k (cellEnergy m.ins.taken i) i x := by
  simp only [Mere.stepField, hb, hf, Bool.false_eq_true, if_false]

theorem startStep_plain {s : State} (h : s.mere.NothingWaits) (k : Nat) :
    startStep k s = setMere (Mere.startPlain s.now s.prof.mere.tPlate k) s := by
  have hsave : s.mere.saveWaits = false := by simp [Mere.saveWaits, h.saves]
  unfold startStep
  rw [takeCoeffs_of_none h.coeffs]
  dsimp only
  rw [hsave, if_neg Bool.false_ne_true, takeSets_of_none h.sets, takeActions_of_none h.settle h.frame,
    setMere_setMere]
  refine setMere_congr ?_
  rw [Mere.stepField_plain rfl rfl]
  rfl

/-- Mere at the swap of the buffers: the computed field is the front buffer. -/
def Mere.swap (b : List Nat) (k : Nat) (m : Mere) : Mere :=
  { m with run := true, due := false, front := b, step := k, frontAt := mereS m k, back := none }

theorem Mere.NothingWaits.swap {m : Mere} (h : m.NothingWaits) (b : List Nat) (k : Nat) : (m.swap b k).NothingWaits :=
  ⟨h.saves, h.coeffs, h.sets, h.settle, h.frame, h.coarse⟩

/-- A step that finishes at its grid point, nothing but reports waiting: the buffers swap and the next step starts. -/
theorem mereStep_onTime {s : State} {b : List Nat} {k : Nat} (hrun : s.mere.run = true ∨ s.mere.due = true)
    (hnow : s.now = mereS s.mere s.mere.next) (hgrid : mereGrid s.mere s.now = s.mere.next) (hb : s.mere.back = some (b, k))
    (hw : s.mere.NothingWaits) :
    mereStep s = setMere (fun m => (m.swap b k).startPlain s.now s.prof.mere.tPlate m.next)
      (recExtreme 30 (b.foldl max 0 : Nat) 0 s) := by
  let u := setMere (Mere.swap b k) (recExtreme 30 (b.foldl max 0 : Nat) 0 s)
  have hu : u.mere.NothingWaits := hw.swap b k
  have hsave : takeSave k u = u := takeSave_of_noSaves hu.saves k
  have hmax : max u.mere.next (mereGrid u.mere u.now) = u.mere.next := Eq.trans (congrArg _ hgrid) (max_self _)
  have hnext : setMere (fun m => { m with next := max m.next (mereGrid m u.now) }) u = u := setMere_of_same (by rw [hmax])
  have hplain : startStep u.mere.next (takeCoarse u.mere.next u) = setMere (Mere.startPlain u.now u.prof.mere.tPlate u.mere.next) u := by
    rw [takeCoarse_of_same hu.coarse, startStep_plain hu]
  unfold mereStep
  extract_lets m due s1 late s2 s3 s4
  have hlate : late = false := Bool.and_eq_false_iff.2 (.inr (decide_eq_false (not_lt.2 hnow.le)))
  have hs2 : s2 = u := by
    simp only [s2, m, hb]
    exact hsave
  have hs4 : s4 = u := by
    simp only [s4, s3, hlate, hs2, Bool.false_eq_true, if_false]
    exact hnext
  have hgo : ¬ (!(m.run || m.due) || decide (s.now < due)) = true := by
    have hruns : (m.run || m.due) = true := Bool.or_eq_true_iff.2 hrun
    have hdue : ¬ s.now < due := not_lt.2 hnow.ge
    simp [hruns, hdue]
  have hstarts : mereS u.mere u.mere.next = u.now := hnow.symm
  rw [if_neg hgo, hs4, if_pos hstarts, hplain]
  rfl

/-! ### DEP_REPORT (R165, R166) -/

/-- The oldest report of a lane is taken off. -/
def dropReport (l : Nat) (rest : List (Option Nat × Nat)) (s : State) : State := setLoop l (fun x => { x with repOut := rest }) s

theorem depReport_none {s : State} {l : Nat} (h : (laneOf s l).loop.repOut = []) : depReport l s = s := by
  simp only [depReport, h]

theorem depReport_notRunning {s : State} {l : Nat} {r : Option Nat × Nat} {rest : List (Option Nat × Nat)}
    (hr : s.mere.run = false) (h : (laneOf s l).loop.repOut = r :: rest) : depReport l s = dropReport l rest s := by
  simp [depReport, h, hr, dropReport]

theorem depReport_outside {s : State} {l e : Nat} {rest : List (Option Nat × Nat)} (hr : s.mere.run = true)
    (h : (laneOf s l).loop.repOut = (none, e) :: rest) : depReport l s =
      setMere (fun m => { m with depReports := m.depReports + 1, depOutside := satInc m.depOutside }) (dropReport l rest s) := by
  simp [depReport, h, hr, dropReport, setMere_setMere]

theorem queueAt_of_notBeginning {m : Mere} {now : Ns} (h : m.beginning now = none) : m.queueAt now = m.reports := by
  simp [Mere.queueAt, h]

theorem setQueue_of_notBeginning {m : Mere} {now : Ns} (h : m.beginning now = none) (rs : List DepReport) (tPlate tPowder : Nat) :
    m.setQueue now rs tPlate tPowder = { m with reports := rs } := by
  simp [Mere.setQueue, h]

/-- Where no step begins at this tick, a report goes to the end of the queue of the next one. -/
theorem depReport_inside {s : State} {l c e : Nat} {rest : List (Option Nat × Nat)} (hr : s.mere.run = true)
    (h : (laneOf s l).loop.repOut = (some c, e) :: rest) (hb : s.mere.beginning s.now = none) (hlen : s.mere.reports.length < 65536) :
    depReport l s = setMere (fun m => { m with
      depReports := m.depReports + 1
      reports := m.reports ++ [{ lane := l, cell := c, energy := e, came := s.now }] }) (dropReport l rest s) := by
  let m : Mere := { s.mere with depReports := s.mere.depReports + 1 }
  have hm : m.beginning s.now = none := hb
  have hq : m.queueAt s.now = s.mere.reports := queueAt_of_notBeginning hm
  let new : DepReport := { lane := l, cell := c, energy := e, came := s.now }
  have hset : m.setQueue s.now (m.queueAt s.now ++ [new]) s.prof.mere.tPlate s.prof.mere.tPowder =
      { m with reports := s.mere.reports ++ [new] } := by
    rw [setQueue_of_notBeginning hm, hq]
  unfold depReport
  simp only [h, setLoop_mere, hr, Bool.not_true, Bool.false_eq_true, if_false]
  refine (if_pos (lt_of_eq_of_lt (congrArg List.length hq) hlen)).trans ((setMere_setMere _ _ _).trans (setMere_congr ?_))
  exact hset

/-! ### MERE_VIEW_COPY (R176, R177) -/

/-- A read sees Mere as it is, or with another field as its front buffer. -/
theorem seenAt_eq (m : Mere) (now : Ns) : ∃ f k a, m.seenAt now = { m with front := f, step := k, frontAt := a } := by
  unfold Mere.seenAt
  split
  · split
    · exact ⟨m.front, m.step, m.frontAt, rfl⟩
    · split <;> exact ⟨_, _, _, rfl⟩
  · exact ⟨m.front, m.step, m.frontAt, rfl⟩

@[simp] theorem seenAt_run (m : Mere) (now : Ns) : (m.seenAt now).run = m.run := by
  obtain ⟨f, k, a, h⟩ := seenAt_eq m now
  rw [h]

/-- The copy of the front buffer as it is seen at this time, all its rows of one step. -/
def viewNow (s : State) : MereView :=
  let f := s.mere.seenAt s.now
  { seq := s.mere.viewCount + 1, firstStep := f.step, lastStep := f.step, time := s.now, nx := s.mere.nx, ny := s.mere.ny
    cells := f.front }

theorem viewCopy_running {s : State} (hr : s.mere.run = true) (hv : s.mere.viewPeriodMs ≠ 0) : viewCopy s =
    setMere (fun m => { m with viewCount := m.viewCount + 1, views := (viewNow s :: m.views).take 2 }) s := by
  obtain ⟨f, k, a, hm⟩ := seenAt_eq s.mere s.now
  simp [viewCopy, viewNow, hm, hr, hv]

/-! ### FF_READ (R168, R169) -/

theorem ffRead_off {s : State} {l : Nat} {r : PRec} (hp : recAt s.now (laneOf s l).plan = some r) (hf : ffOn s r.set = false) :
    ffRead l s = s := by
  simp [ffRead, hp, hf]

/-- A running lane that has not read takes T_pred at the position FF_AHEAD later, from a buffer that is not stale. -/
theorem ffRead_fresh {s : State} {l : Nat} {r : PRec} {p : Int × Int} (hp : recAt s.now (laneOf s l).plan = some r)
    (hs : (laneOf s l).state = .running) (hf : ffOn s r.set = true) (hd : (laneOf s l).loop.lastRead = none) (hr : s.mere.run = true)
    (hage : s.now - (s.mere.seenAt s.now).frontAt ≤ 1000 * s.prof.loop.staleLimitUs)
    (hpos : planPos (laneOf s l).plan (s.now + 1000 * s.prof.loop.ffAheadUs) = some p) :
    ffRead l s =
      let t := mereRead { s with mere := s.mere.seenAt s.now } p
      setLoop l (fun x => { x with
        tPred := t, stale := false, tRead := t, readStale := false, staleEpisode := false, lastRead := some s.now }) s := by
  simp [ffRead, hp, hs, hf, hd, hr, hpos, Nat.not_lt.2 hage]

/-! ### MERE_SAVED (R174, R175) -/

theorem memWrite_mere (port a : Nat) (bs : List Byte) (s : State) : (memWrite port a bs s).mere = s.mere := by
  have ecc (u : State) (w : Nat) : (eccUe port (8 * w) u).mere = u.mere := by
    unfold eccUe
    dsimp only
    split <;> simp only [raise_mere]
  exact foldl_keeps _ State.mere ecc _ _

theorem mereSaved_none {s : State} (h : ∀ v ∈ s.mere.saves, v.result = none) : mereSaved s = s := by
  have hf : (s.mere.saves.find? fun v => v.result.isSome) = none := by
    simpa using h
  simp only [mereSaved, hf]

/-- A coding that has ended well, of a layer and alone: its slot is written, the save is gone, and MERE_SAVED is raised. -/
theorem mereSaved_layer {s : State} {v : Saving} {n : Nat} (hv : s.mere.saves = [v]) (hr : v.result = some (stDone, n))
    (href : v.ref = none) : mereSaved s = raise 0x3044 (natLE 4 v.layer ++ natLE 2 v.slot ++ natLE 4 n)
      (setMere (fun m => { m with saves := [], lastSlot := BitVec.ofNat 16 v.slot })
        (memWrite 35 (slotAddr s v.slot) (slotHeader v stDone n s) s)) := by
  have hf : (s.mere.saves.find? fun v => v.result.isSome) = some v := by simp [hv, hr]
  have hgone : (setMere (fun m => { m with saves := m.saves.filter fun x => x != v, lastSlot := BitVec.ofNat 16 v.slot })
      (memWrite 35 (slotAddr s v.slot) (slotHeader v stDone n s) s)) =
      setMere (fun m => { m with saves := [], lastSlot := BitVec.ofNat 16 v.slot })
        (memWrite 35 (slotAddr s v.slot) (slotHeader v stDone n s) s) :=
    setMere_congr (by simp [memWrite_mere, hv])
  simp only [mereSaved, hf, hr, href, Option.getD_some, if_true, hgone]

/-- Settles O11: each command at the time that has come, as the lemma of its case says. That a view is copied in one instant
(log 167) and that the hottest cell's extreme has tag 0 (log 152) are the model's choices. -/
theorem mereStepsAndReports : Obligations.MereStepsAndReports := by
  intro t s
  refine ⟨fun h => ?_, fun b k hrun hnow hgrid hb h1 h2 h3 h4 h5 h6 => ?_, fun l h => ?_, fun l e rest hr h => ?_,
    fun l r rest hr h => ?_, fun l c e rest hr h hb hlen => ?_, fun hr hv => ?_,
    fun l r hsettled hp => ⟨fun hf => ?_, fun p hs hf hd hr => ?_⟩, fun h => ?_, fun v n hv hr href => ?_⟩
  · exact congrArg Host.Outcome.next (mereStep_early (s := passTo t s) h)
  · exact congrArg Host.Outcome.next (mereStep_onTime (s := passTo t s) hrun hnow hgrid hb ⟨h1, h2, h3, h4, h5, h6⟩)
  · exact congrArg Host.Outcome.next (depReport_none (s := passTo t s) h)
  · exact congrArg Host.Outcome.next (depReport_outside (s := passTo t s) hr h)
  · exact congrArg Host.Outcome.next (depReport_notRunning (s := passTo t s) hr h)
  · exact congrArg Host.Outcome.next (depReport_inside (s := passTo t s) hr h hb hlen)
  · exact congrArg Host.Outcome.next (viewCopy_running (s := passTo t s) hr hv)
  · exact congrArg Host.Outcome.next ((congrArg (ffRead l) hsettled).trans (ffRead_off (s := passTo t s) hp hf))
  · intro m hage hpos
    exact congrArg Host.Outcome.next ((congrArg (ffRead l) hsettled).trans
      (ffRead_fresh (s := passTo t s) hp hs hf hd hr hage hpos))
  · exact congrArg Host.Outcome.next (mereSaved_none (s := passTo t s) h)
  · exact congrArg Host.Outcome.next (mereSaved_layer (s := passTo t s) hv hr href)

end Sys2Proof.Machine
end

section
/-! SUPPORT. Lanes after an update of one of them, holds as they begin, and what PROX_LONG_HOLD reports. -/

namespace Sys2Proof.Machine

/-! ### A unit after its change -/

theorem unit_modUnit_same {α : Type} {xs : List α} {i : Nat} (h : i < xs.length) (f : α → α) (d : α) :
    unit (modUnit xs i f) i d = f (unit xs i d) := by
  simp [unit, modUnit, List.getD_eq_getElem?_getD, List.getElem?_eq_getElem h]

/-- Changes that make the same of a unit make the same of the units. -/
theorem modUnit_congr {α : Type} {xs : List α} {i : Nat} {f g : α → α} {d : α} (h : f (unit xs i d) = g (unit xs i d)) :
    modUnit xs i f = modUnit xs i g := by
  apply List.ext_getElem?
  intro k
  rw [modUnit, modUnit, List.getElem?_modify, List.getElem?_modify]
  by_cases hk : i = k
  · subst hk
    cases hx : xs[i]? with
    | none => rfl
    | some x => simpa [unit, List.getD_eq_getElem?_getD, hx] using h
  · simp [hk]

theorem laneOf_setLane_same {s : State} {l : Nat} (h : l < s.lanes.length) (f : Lane → Lane) :
    laneOf (setLane l f s) l = f (laneOf s l) := unit_modUnit_same h f .reset

theorem setLane_congr {s : State} {l : Nat} {f g : Lane → Lane} (h : f (laneOf s l) = g (laneOf s l)) :
    setLane l f s = setLane l g s :=
  congrArg (fun ls => { s with lanes := ls }) (modUnit_congr (d := .reset) h)

/-- What a change of a lane keeps of every lane, it keeps of each. -/
theorem laneOf_setLane_of_keeps {β : Type} {f : Lane → Lane} (g : Lane → β) (s : State) (l k : Nat)
    (h : ∀ x, g (f x) = g x := by exact fun _ => rfl) : g (laneOf (setLane l f s) k) = g (laneOf s k) :=
  unit_modUnit_of_keeps h s.lanes l k .reset

/-! ### A hold as it begins (R117) -/

theorem hold_replanLane (l k : Nat) (s : State) : (laneOf (replanLane l s) k).hold = (laneOf s k).hold := by
  unfold replanLane
  exact laneOf_setLane_of_keeps Lane.hold s l k

/-- A record of the plan that gets no GO is held from now on, its hold not yet reported. -/
theorem holdRecord_hold {s : State} {l k : Nat} {r : PRec} (hl : l < s.lanes.length)
    (hr : ((laneOf s l).plan.find? fun r => r.idx = k) = some r) :
    ∃ h, (laneOf (holdRecord l k s) l).hold = some h ∧ h.idx = k ∧ h.since = s.now ∧ h.warned = false := by
  unfold holdRecord
  extract_lets ln
  rw [hr]
  dsimp only
  rw [hold_replanLane, laneOf_setLane_same hl]
  exact ⟨_, rfl, rfl, rfl, rfl⟩

/-! ### PROX_LONG_HOLD (R196) -/

theorem holdOf_atRecord {ln : Lane} {h : Hold} (hh : ln.hold = some h) : holdOf ln = some h := by
  rw [holdOf, hh]

theorem holdOf_notAtRecord {ln : Lane} (hn : ln.hold = none) : holdOf ln = ln.prox.syncHold := by
  rw [holdOf, hn]

/-- The report of R196 is noted in the hold that the lane is in. -/
def Lane.holdTold (x : Lane) : Lane :=
  { x with
    hold := x.hold.map fun h => { h with warned := true }
    prox := { x.prox with
      syncHold := if x.hold.isSome then x.prox.syncHold else x.prox.syncHold.map fun h => { h with warned := true } } }

theorem Lane.holdTold_atRecord {ln : Lane} {h : Hold} (hh : ln.hold = some h) :
    ln.holdTold = { ln with hold := some { h with warned := true } } := by
  simp [Lane.holdTold, hh]

theorem Lane.holdTold_afterSync {ln : Lane} {h : Hold} (hn : ln.hold = none) (hh : ln.prox.syncHold = some h) :
    ln.holdTold = { ln with prox := { ln.prox with syncHold := some { h with warned := true } } } := by
  simp [Lane.holdTold, hn, hh]

theorem longHold_none {s : State} {l : Nat} (h : holdOf (laneOf s l) = none) : longHold l s = s := by
  simp only [longHold, h]

theorem longHold_quiet {s : State} {l : Nat} {h : Hold} (hh : holdOf (laneOf s l) = some h)
    (hq : h.warned = true ∨ s.now ≤ h.since + 1000000 * s.prof.prox.holdWarn) : longHold l s = s := by
  have hc : (!h.warned && decide (h.since + 1000000 * s.prof.prox.holdWarn < s.now)) = false := by
    rcases hq with hw | ht
    · simp [hw]
    · simp [Nat.not_lt.2 ht]
  simp [longHold, hh, hc]

/-- A hold past HOLD_WARN that has not been reported. -/
theorem longHold_due {s : State} {l : Nat} {h : Hold} (hh : holdOf (laneOf s l) = some h) (hw : h.warned = false)
    (ht : h.since + 1000000 * s.prof.prox.holdWarn < s.now) :
    longHold l s = raise 0x3060 (natLE 1 l ++ natLE 1 (laneOf s l).prox.rule ++ natLE 1 (laneOf s l).prox.blocker)
      (setLane l Lane.holdTold s) := by
  simp only [longHold, hh, hw, ht, Bool.not_false, decide_true, Bool.and_true, if_true]
  rfl

theorem longHold_atRecord {s : State} {l : Nat} {h : Hold} (hh : (laneOf s l).hold = some h) (hw : h.warned = false)
    (ht : h.since + 1000000 * s.prof.prox.holdWarn < s.now) :
    longHold l s = raise 0x3060 (natLE 1 l ++ natLE 1 (laneOf s l).prox.rule ++ natLE 1 (laneOf s l).prox.blocker)
      (setLane l (fun x => { x with hold := some { h with warned := true } }) s) :=
  (longHold_due (holdOf_atRecord hh) hw ht).trans (congrArg (raise _ _) (setLane_congr (Lane.holdTold_atRecord hh)))

theorem longHold_afterSync {s : State} {l : Nat} {h : Hold} (hn : (laneOf s l).hold = none) (hh : (laneOf s l).prox.syncHold = some h)
    (hw : h.warned = false) (ht : h.since + 1000000 * s.prof.prox.holdWarn < s.now) :
    longHold l s = raise 0x3060 (natLE 1 l ++ natLE 1 (laneOf s l).prox.rule ++ natLE 1 (laneOf s l).prox.blocker)
      (setLane l (fun x => { x with prox := { x.prox with syncHold := some { h with warned := true } } }) s) :=
  (longHold_due ((holdOf_notAtRecord hn).trans hh) hw ht).trans
    (congrArg (raise _ _) (setLane_congr (Lane.holdTold_afterSync hn hh)))

/-- Settles O14: PROX_LONG_HOLD by the hold that the lane is in, and a hold that begins by `holdRecord_hold`. -/
theorem longHoldIsReportedOnce : Obligations.LongHoldIsReportedOnce := by
  intro t l s
  refine ⟨fun hn hns => ?_, fun h hn hh hw ht => ?_, fun h hh => ⟨fun hq => ?_, fun hw ht => ?_⟩,
    fun k r hl hr => holdRecord_hold hl hr⟩
  · exact congrArg Host.Outcome.next (longHold_none (s := passTo t s) ((holdOf_notAtRecord hn).trans hns))
  · exact congrArg Host.Outcome.next (longHold_afterSync (s := passTo t s) hn hh hw ht)
  · exact congrArg Host.Outcome.next (longHold_quiet (s := passTo t s) (holdOf_atRecord hh) hq)
  · exact congrArg Host.Outcome.next (longHold_atRecord (s := passTo t s) hh hw ht)

end Sys2Proof.Machine
end

section
/-! SUPPORT. What HELLO, a conflict, the loss of a member, LEADER and the election bring about. -/

namespace Sys2Proof.Machine

/-! ### HELLO (R348, R349) -/

theorem helloSend_alive {s : State} (hp : profileInForce s = true) (ha : s.boot.alive = true) (hon : s.power.state = .on) :
    helloSend s = sendControl 3 (helloBytes s) s := by
  simp [helloSend, hp, ha, hon]

theorem helloReceive_foreign {s : State} {q : Hello} (hp : profileInForce s = true)
    (hf : q.headerOk = false ∨ q.machineId ≠ s.prof.machine.machineId.toNat) :
    helloReceive q s = setMembers (fun m => { m with foreign := satInc m.foreign }) s := by
  have hc : (!q.headerOk || q.machineId != s.prof.machine.machineId.toNat) = true := by
    rcases hf with h | h <;> simp [h]
  simp [helloReceive, hp, hc]

/-- A HELLO that the module takes in: a profile is in force, the header is good and the machine is the module's own. -/
structure Hello.OfMachine (q : Hello) (s : State) : Prop where
  inForce : profileInForce s = true
  header : q.headerOk = true
  machine : q.machineId = s.prof.machine.machineId.toNat

/-- A HELLO of the own machine acts by its MODULE_ID, its SERIAL and its member index. -/
theorem helloReceive_ofMachine {s : State} {q : Hello} (g : q.OfMachine s) : helloReceive q s =
    if q.moduleId = s.ident.moduleId.toNat then
      (if q.serial = s.ident.otp.serial.toNat then s else conflictFrom q true s)
    else if q.member = s.prof.machine.member then conflictFrom q false s
    else if (otherMembers s).contains q.member then helloFrom q s
    else s := by
  simp [helloReceive, g.inForce, g.header, g.machine]

theorem helloReceive_sameModule {s : State} {q : Hello} (g : q.OfMachine s) (hm : q.moduleId = s.ident.moduleId.toNat)
    (hs : q.serial ≠ s.ident.otp.serial.toNat) : helloReceive q s = conflictFrom q true s := by
  rw [helloReceive_ofMachine g, if_pos hm, if_neg hs]

theorem helloReceive_sameMember {s : State} {q : Hello} (g : q.OfMachine s) (hm : q.moduleId ≠ s.ident.moduleId.toNat)
    (hi : q.member = s.prof.machine.member) : helloReceive q s = conflictFrom q false s := by
  rw [helloReceive_ofMachine g, if_neg hm, if_pos hi]

theorem helloReceive_other {s : State} {q : Hello} (g : q.OfMachine s) (hm : q.moduleId ≠ s.ident.moduleId.toNat)
    (hi : q.member ≠ s.prof.machine.member) (ho : (otherMembers s).contains q.member = true) : helloReceive q s = helloFrom q s := by
  rw [helloReceive_ofMachine g, if_neg hm, if_neg hi, if_pos ho]

/-! ### Conflicts (R352) -/

/-- A module without a job that is not in conflict by its MODULE_ID enters CONFLICT by it. -/
theorem conflictFrom_enters {s : State} (q : Hello) (hj : jobExists s = false) (hk : s.members.idConflict = false) :
    ∃ v, conflictFrom q true s = enterConflict true v := by
  have hjob {u : State} (h : u.jobs = s.jobs) : jobExists u = false := by rwa [jobExists, h]
  unfold conflictFrom
  simp only [if_true, hk, Bool.false_or, Bool.false_eq_true, if_false]
  split
  · exact ⟨_, if_neg (Bool.eq_false_iff.1 (hjob rfl))⟩
  · exact ⟨_, if_neg (Bool.eq_false_iff.1 (hjob (by rw [raise_jobs, setMembers_jobs])))⟩

/-! ### MEMBER_LOST (R349, R351) -/

theorem any_elapsed_early {o : Option Ns} {t0 now : Ns} {d : Nat} (ho : o = some t0) (h : now < t0 + d) :
    (o.any fun t => decide (t + d ≤ now)) = false := by
  subst ho
  exact decide_eq_false (Nat.not_le.2 h)

theorem any_elapsed_late {o : Option Ns} {t0 now : Ns} {d : Nat} (ho : o = some t0) (h : t0 + d ≤ now) :
    (o.any fun t => decide (t + d ≤ now)) = true := by
  subst ho
  exact decide_eq_true h

/-- The loss of a member is noted and reported. -/
def memberGone (m : Nat) (s : State) : State :=
  raise 0xA015 (natLE 1 m ++ natLE 2 (memberOf s m).moduleId) (setMember m (fun x => { x with lost := true }) s)

theorem memberLost_early {s : State} {m : Nat} {t0 : Ns} (ht : (memberOf s m).last = some t0) (h : s.now < t0 + 500000000) :
    memberLost m s = s := by
  unfold memberLost
  simp only [any_elapsed_early ht h, Bool.not_false, Bool.true_or, if_true]

/-- A member of the machine that has been heard and is not lost, and has been unheard for 500 ms. -/
structure LossDue (m : Nat) (s : State) (t0 : Ns) : Prop where
  last : (memberOf s m).last = some t0
  kept : (memberOf s m).lost = false
  member : (otherMembers s).contains m = true
  late : t0 + 500000000 ≤ s.now

/-- A loss that is due acts by who leads the machine and by whether it has a job. -/
theorem memberLost_due {s : State} {m : Nat} {t0 : Ns} (g : LossDue m s t0) : memberLost m s =
    let u := memberGone m s
    let v := setMembers (fun x => { x with elected := false }) u
    if u.members.elected && u.members.leaderMember.toNat == m then
      (if machineJob v then holdForLoss (raise 0xA014 (natLE 1 m ++ natLE 2 (memberOf s m).moduleId) v) else v)
    else if machineJob u && isLeader u then holdForLoss u
    else u := by
  unfold memberLost
  simp only [any_elapsed_late g.last g.late, g.kept, g.member, Bool.not_true, Bool.or_self, Bool.false_eq_true, if_false]
  rfl

theorem memberLost_notLeader {s : State} {m : Nat} {t0 : Ns} (g : LossDue m s t0)
    (hl : (memberGone m s).members.elected = false ∨ (memberGone m s).members.leaderMember.toNat ≠ m) : memberLost m s =
    if machineJob (memberGone m s) && isLeader (memberGone m s) then holdForLoss (memberGone m s) else memberGone m s := by
  have hc : ((memberGone m s).members.elected && (memberGone m s).members.leaderMember.toNat == m) = false := by
    rcases hl with h | h <;> simp [h]
  rw [memberLost_due g]
  simp only [hc, Bool.false_eq_true, if_false]

theorem memberLost_leader {s : State} {m : Nat} {t0 : Ns} (g : LossDue m s t0)
    (he : (memberGone m s).members.elected = true) (hl : (memberGone m s).members.leaderMember.toNat = m) : memberLost m s =
    let v := setMembers (fun x => { x with elected := false }) (memberGone m s)
    if machineJob v then holdForLoss (raise 0xA014 (natLE 1 m ++ natLE 2 (memberOf s m).moduleId) v) else v := by
  have hc : ((memberGone m s).members.elected && (memberGone m s).members.leaderMember.toNat == m) = true := by
    simp [he, hl]
  rw [memberLost_due g]
  simp only [hc, if_true]

/-! ### LEADER (R350) -/

theorem leaderReceive_counts {s : State} {q : LeaderMsg} (hp : profileInForce s = true) (hv : q.valid = true)
    (ho : (otherMembers s).contains q.member = true) (hi : inConflict s = false) (hc : leaderCounts q.member q.term s = true) :
    leaderReceive q s = acceptLeader q.member q.moduleId q.term (setMembers (fun m => { m with topTerm := max m.topTerm q.term }) s) := by
  unfold leaderReceive
  simp only [hp, hv, ho, hi, hc, Bool.not_true, Bool.or_self, Bool.false_eq_true, if_false, if_true]

theorem leaderCounts_noLeader {s : State} (h : s.members.elected = false) (m term : Nat) : leaderCounts m term s = true := by
  simp [leaderCounts, h]

theorem leaderCounts_inJob {s : State} (h : s.members.elected = true) (hj : machineJob s = true) (m term : Nat) :
    leaderCounts m term s = false := by
  simp [leaderCounts, h, hj]

theorem leaderCounts_noJob {s : State} (h : s.members.elected = true) (hj : machineJob s = false) (m term : Nat) :
    leaderCounts m term s = true ↔ (s.members.term < term ∨ (s.members.term = term ∧ memberKey s m < leaderKey s)) := by
  simp [leaderCounts, h, hj]

/-! ### LEADER_ELECTION_TIMER (R350) -/

/-- The module may name itself: READY_LOCAL, in no conflict, one of several members, and every other one settled. -/
structure MayLead (s : State) : Prop where
  ready : s.boot.readyLocal = true
  noConflict : inConflict s = false
  others : otherMembers s ≠ []
  settled : membersSettled s = true

theorem leaderElection_due {s : State} {k : Ns} (g : MayLead s) (hk : lowestSince s = some k) (ht : k + 1000000000 ≤ s.now)
    (he : s.members.elected = false) : leaderElection s =
      sendControl 4 (natLE 4 (s.members.topTerm + 1) ++ natLE 1 (maskOf (candidates s)) ++ natLE 3 0)
        (acceptLeader s.prof.machine.member s.ident.moduleId.toNat (s.members.topTerm + 1) s) := by
  have ho : (otherMembers s).isEmpty = false := by simp [g.others]
  unfold leaderElection
  simp only [g.ready, g.noConflict, ho, hk, ht, he, g.settled, decide_true, Bool.not_true, Bool.not_false, Bool.true_or, Bool.or_self,
    Bool.false_eq_true, if_false]

/-- Settles O43: each command at the time that has come, as the lemma of its case says. -/
theorem machineMembers : Obligations.MachineMembers := by
  intro t s hp
  refine ⟨fun ha hon => ?_, fun q hf => ?_, fun q hh hm => ?_, fun m t0 ht hk ho => ⟨fun h => ?_, fun h => ?_⟩,
    fun q hv ho hi => ⟨fun hc => ?_, fun he => ?_, fun he hj => ?_, fun he hj => ?_⟩, fun k hr hi ho hk hd he hs => ?_⟩
  · exact congrArg Host.Outcome.next (helloSend_alive (s := passTo t s) hp ha hon)
  · exact congrArg Host.Outcome.next (helloReceive_foreign (s := passTo t s) hp hf)
  · have g : q.OfMachine (passTo t s) := ⟨hp, hh, hm⟩
    refine ⟨fun h1 h2 => ?_, fun h1 h2 => ?_, fun h1 h2 h3 => ?_, fun h1 h2 hj hc => ?_⟩
    · exact congrArg Host.Outcome.next (helloReceive_sameModule g h1 h2)
    · exact congrArg Host.Outcome.next (helloReceive_sameMember g h1 h2)
    · exact congrArg Host.Outcome.next (helloReceive_other g h1 h2 h3)
    · obtain ⟨v, hv⟩ := conflictFrom_enters (s := passTo t s) q hj hc
      exact ⟨enterConflict true v, congrArg Host.Outcome.next ((helloReceive_sameModule g h1 h2).trans hv), rfl, rfl, rfl, rfl, rfl⟩
  · exact congrArg Host.Outcome.next (memberLost_early (s := passTo t s) ht h)
  · have g : LossDue m (passTo t s) t0 := ⟨ht, hk, ho, h⟩
    refine ⟨fun hl hj => ?_, fun hl hj hme => ?_, fun he hl => ⟨fun hj => ?_, fun hj => ?_⟩⟩
    · exact congrArg Host.Outcome.next ((memberLost_notLeader g hl).trans
        (if_neg (Bool.eq_false_iff.1 (Bool.and_eq_false_iff.2 hj))))
    · exact congrArg Host.Outcome.next ((memberLost_notLeader g hl).trans (if_pos (Bool.and_eq_true_iff.2 ⟨hj, hme⟩)))
    · exact congrArg Host.Outcome.next ((memberLost_leader g he hl).trans (if_neg (Bool.eq_false_iff.1 hj)))
    · exact congrArg Host.Outcome.next ((memberLost_leader g he hl).trans (if_pos hj))
  · exact congrArg Host.Outcome.next (leaderReceive_counts (s := passTo t s) hp hv ho hi hc)
  · exact leaderCounts_noLeader he q.member q.term
  · exact leaderCounts_inJob he hj q.member q.term
  · exact leaderCounts_noJob he hj q.member q.term
  · exact congrArg Host.Outcome.next (leaderElection_due (s := passTo t s) ⟨hr, hi, ho, hs⟩ hk hd he)

end Sys2Proof.Machine
end

section
/-! SUPPORT. What the peers' frames, a silent peer and a change of the proximity rules bring about. -/

namespace Sys2Proof.Machine

/-! ### PEER_SUMMARY_RECEIVE and PEER_SUMMARY_SEND (R194, R201, R202, R206) -/

theorem summaryReceive_outside {s : State} {m : Summary} (h : (otherMembers s).contains m.member = false) : summaryReceive m s = s :=
  if_neg (by rw [h]; exact Bool.false_ne_true)

theorem summaryReceive_peer {s : State} {m : Summary} (h : (otherMembers s).contains m.member = true)
    (hc : s.members.conflict.getLsbD m.member = false) :
    summaryReceive m s = setPeer m.member (fun p => { p with inbox := p.inbox ++ [(s.now, m)] }) s :=
  if_pos (by rw [h, hc]; rfl)

theorem summarySend_alone {s : State} (h : otherMembers s = []) : summarySend s = s := by
  simp [summarySend, h]

theorem summarySend_offExchange {s : State} (h : s.now % 20000 ≠ 0) : summarySend s = s := by
  simp [summarySend, h]

/-- The module sends summaries: its arbiter judges, it is in no conflict, and the machine has other members. -/
structure Sends (s : State) : Prop where
  run : s.prox.run = true
  noIdConflict : s.members.idConflict = false
  noMemberConflict : s.members.memberConflict = false
  others : otherMembers s ≠ []

theorem crossSyncs_none {s : State} (h : s.jobs.syncs = []) : crossSyncs s = [] := by
  rw [crossSyncs, h, List.filter_nil]

theorem keepPlaces_none {s : State} (h : s.jobs.syncs = []) : keepPlaces s = s := by
  rw [keepPlaces, crossSyncs_none h, List.foldl_nil]

theorem ownReports_none {s : State} (h : s.jobs.syncs = []) (x : Ns) : ownReports x s = s := by
  rw [ownReports, crossSyncs_none h, List.foldl_nil]

/-- With no entry and no open SYNC one frame goes out, its header alone. -/
theorem summarySend_empty {s : State} (g : Sends s) (hs : s.jobs.syncs = []) (hx : s.now % 20000 = 0)
    (he : ∀ l ∈ allLanes s, laneEntry s s.now l = none ∧ zoneEntry s s.now l = none) : summarySend s =
      setProx (fun p => { p with seq := p.seq + 1, sentPrio := ((s.now, []) :: p.sentPrio).take 64 })
        (sendPeer 1 (peerHeader 1 0 1 0 0 s.now s) s) := by
  have hls : ((allLanes s).filterMap fun l => laneEntry s s.now l) = [] := List.filterMap_eq_nil_iff.2 fun l hl => (he l hl).1
  have hzs : ((allLanes s).filterMap fun l => zoneEntry s s.now l) = [] := List.filterMap_eq_nil_iff.2 fun l hl => (he l hl).2
  have ho : (otherMembers s).isEmpty = false := by simp [g.others]
  unfold summarySend
  simp only [hx, g.run, g.noIdConflict, g.noMemberConflict, ho, bne_self_eq_false, Bool.not_true, Bool.or_self, Bool.false_eq_true,
    if_false, keepPlaces_none hs, ownReports_none hs, hls, hzs]
  simp [packFrames, crossSyncs, sendPeer, hs]

/-! ### SYNC_REPORT_RECEIVE (R202) -/

theorem syncReportReceive_outside {s : State} {m : Nat} (h : (otherMembers s).contains m = false) (x : Ns) (es : List SyncEntry) :
    syncReportReceive m x es s = s :=
  if_neg (by rw [h]; exact Bool.false_ne_true)

/-- The only SYNC is open, and it names the member. -/
structure OnlyOpenSync (m : Nat) (p : SyncPoint) (s : State) : Prop where
  only : s.jobs.syncs = [p]
  notReleased : p.released = none
  notFailed : p.failed = none
  named : p.members.testBit m = true

theorem takeReport_good {s : State} {m : Nat} {p : SyncPoint} {e : SyncEntry} (g : OnlyOpenSync m p s) (hi : p.id = e.sync)
    (hf : e.faulted = false) (x : Ns) : takeReport m x [e] e.sync s = setSync p (fun q => { q with
      reports := { member := m, x := x, came := s.now, entries := [e] } :: q.reports.filter fun r => r.member != m }) s := by
  have hp : (s.jobs.syncs.find? fun p => p.id = e.sync && p.released.isNone && p.failed.isNone && p.members.testBit m) = some p := by
    simp [g.only, g.notReleased, g.notFailed, g.named, hi]
  unfold takeReport
  rw [hp]
  simp [hf]

theorem syncReportReceive_good {s : State} {m : Nat} {p : SyncPoint} {e : SyncEntry} (ho : (otherMembers s).contains m = true)
    (g : OnlyOpenSync m p s) (hi : p.id = e.sync) (hf : e.faulted = false) (x : Ns) : syncReportReceive m x [e] s =
      setJobs (fun j => { j with syncs := [{ p with
        reports := { member := m, x := x, came := s.now, entries := [e] } :: p.reports.filter fun r => r.member != m }] }) s := by
  have hids : ([e].map fun e => e.sync).eraseDups = [e.sync] := rfl
  rw [syncReportReceive, if_pos ho, hids, List.foldl_cons, List.foldl_nil, takeReport_good g hi hf x, setSync_only g.only]

/-! ### PEER_SILENT (R205) -/

theorem peerSilentNow_notDue {s : State} {m : Nat} (h : (peerOf s m).present = false ∨ (peerOf s m).silent = true ∨
    (peerOf s m).inbox ≠ [] ∨ s.now < (peerOf s m).dueAt + 20000 * s.prof.prox.silentPeriods) : peerSilentNow m s = s := by
  refine if_neg ?_
  rcases h with h | h | h | h
  · simp [h]
  · simp [h]
  · simp [h]
  · simp [Nat.not_le.2 h]

theorem peerSilentNow_due {s : State} {m : Nat} (hp : (peerOf s m).present = true) (hs : (peerOf s m).silent = false)
    (hi : (peerOf s m).inbox = []) (ht : (peerOf s m).dueAt + 20000 * s.prof.prox.silentPeriods ≤ s.now) : peerSilentNow m s =
      raise 0x3063 (natLE 1 m) (setProx (fun p => { p with silentEpisodes := satInc p.silentEpisodes })
        (setPeer m (fun p => { p with silent := true }) s)) :=
  if_pos (by simp [hp, hs, hi, ht])

/-! ### The commands that change rules (R210, R236, R240) -/

theorem le_alignUp (n : Nat) {m : Nat} (hm : 0 < m) : n ≤ alignUp n m := by
  have h := Nat.div_add_mod (n + m - 1) m
  have hlt := Nat.mod_lt (n + m - 1) hm
  rw [alignUp, if_neg hm.ne', Nat.mul_comm]
  omega

theorem startProx_rejected {st : Nat} (h : st ≠ stDone) (r : Ref) (launch : Nat) (w : RippleWork) (s : State) :
    startProx r st launch w s = endWith r st s :=
  if_pos (bne_iff_ne.2 h)

/-- A launch relative to TOR needs a job. -/
theorem startProx_noTor {s : State} {launch : Nat} (hl : launch ≠ 0) (ht : s.jobs.tor = none) (r : Ref) (w : RippleWork) :
    startProx r stDone launch w s = endWith r stState s := by
  simp [startProx, proxLaunch, refTime, hl, ht]

/-- The guard tick at or after the earliest launch is never late. -/
theorem startProx_atOnce {s : State} {w : RippleWork} (hp : ripplePlace w s = true) (r : Ref) : startProx r stDone 0 w s =
    ripplePost { work := w, launch := alignUp (earliest s) 5000, host := true, tk := some r, late := false, missing := [] } s := by
  have hlate : decide (alignUp (earliest s) 5000 < earliest s) = false := decide_eq_false (Nat.not_lt.2 (le_alignUp _ (by decide)))
  simp [startProx, proxLaunch, hp, hlate]

theorem proxSepCheck_outside {s : State} {a b d : Nat} (h : 15 < a ∨ 15 < b ∨ 10000000 < d ∨ d < s.prof.prox.sepFloor) :
    proxSepCheck a b d s = stParam := by
  refine if_pos ?_
  simp only [Bool.or_eq_true, decide_eq_true_eq]
  tauto

theorem proxSepCheck_good {s : State} {a b d : Nat} (ha : a ≤ 15) (hb : b ≤ 15) (hd : d ≤ 10000000) (hf : s.prof.prox.sepFloor ≤ d) :
    proxSepCheck a b d s = stDone := by
  refine if_neg ?_
  simp only [Bool.or_eq_true, decide_eq_true_eq]
  omega

theorem proxZoneCheck_outside {g : Nat} (h : 7 < g) (m : BitVec 32) (s : State) : proxZoneCheck g m s = stParam :=
  if_pos (by simp [h])

theorem proxPlumeCheck_outside {r : Nat} {x y : Int} {n w : Nat} (h : 3 < r ∨ (x = 0 ∧ y = 0) ∨ 50000000 < n ∨ 1047198 < w)
    (s : State) : proxPlumeCheck r x y n w s = stParam := by
  refine if_pos ?_
  simp only [Bool.or_eq_true, Bool.and_eq_true, decide_eq_true_eq]
  tauto

/-! ### A rule as it is replaced (R192, R193) -/

/-- What RULES_CRC is computed over, and RULES_CRC. -/
def rulesView (s : State) : ProfileBlk × List Nat × List (Option PlumeRec) × List (Option ZoneRec) × BitVec 32 :=
  (s.profile, s.prox.sep, s.prox.plumes, s.prox.zones, s.prox.rulesCrc)

theorem rulesView_renewMismatch (m : Nat) (s : State) : rulesView (renewMismatch m s) = rulesView s := by
  unfold renewMismatch
  dsimp only
  split
  · rfl
  · split
    · simp [rulesView]
    · rfl

theorem rulesView_renewCrc (s : State) : rulesView (renewCrc s) = rulesView (setProx (fun p => { p with rulesCrc := rulesCrcOf s }) s) :=
  foldl_keeps (fun s m => renewMismatch m s) rulesView (fun s m => rulesView_renewMismatch m s) _ _

theorem rulesCrcOf_congr {s t : State} (h : rulesView t = rulesView s) : rulesCrcOf t = rulesCrcOf s := by
  simp only [rulesView, Prod.mk.injEq] at h
  obtain ⟨hprof, hsep, hplumes, hzones, -⟩ := h
  have hrec : t.prof = s.prof := congrArg ProfileBlk.records hprof
  unfold rulesCrcOf
  dsimp only
  rw [hrec, hsep, hplumes, hzones]

theorem rulesCrc_renewCrc (s : State) : (renewCrc s).prox.rulesCrc = rulesCrcOf (renewCrc s) := by
  have hview := rulesView_renewCrc s
  rw [rulesCrcOf_congr hview]
  exact congrArg (fun v => v.2.2.2.2) hview

theorem sep_applyProxSep (a b d : Nat) (s : State) :
    (applyProxSep a b d s).prox.sep = (s.prox.sep.set (16 * a + b) d).set (16 * b + a) d :=
  congrArg (fun v => v.2.1) (rulesView_renewCrc _)

/-- SEP of two groups after PROX_SEP_SET: D for the two, in either order, and what it was for any others. -/
theorem sepOf_applyProxSep {s : State} {a b : Nat} (ha : a ≤ 15) (hb : b ≤ 15) (hn : s.prox.sep.length = 256) (d i j : Nat) :
    sepOf (applyProxSep a b d s) i j = if 16 * i + j = 16 * b + a ∨ 16 * i + j = 16 * a + b then d else sepOf s i j := by
  have hab : 16 * a + b < s.prox.sep.length := by omega
  have hba : 16 * b + a < s.prox.sep.length := by omega
  simp only [sepOf, unit, sep_applyProxSep, List.getD_eq_getElem?_getD]
  by_cases h1 : 16 * b + a = 16 * i + j
  · simp [← h1, hba]
  · by_cases h2 : 16 * a + b = 16 * i + j
    · have hne : 16 * b + a ≠ 16 * a + b := fun h => h1 (h.trans h2)
      simp [← h2, hab, hne]
    · simp [h1, h2, Ne.symm h1, Ne.symm h2]

/-- Settles O16: each frame by its sender, PEER_SILENT by what has come of the peer, each command of the rules by its check and its
launch. That a launch of 0 is the first guard tick at least 1 µs ahead (log 24) and what is kept of the priorities sent (log 132) are the
model's choices. -/
theorem peersAndRules : Obligations.PeersAndRules := by
  intro t s
  refine ⟨fun m h => ?_, fun m h hc => ?_, fun h => ?_, fun h => ?_, fun hr hi hm ho hs hx => ?_, fun m x es h => ?_,
    fun m x e p ho hs hi hr hf hn he => ?_, fun m h => ?_, fun m hp hs hi ht => ?_, fun h hready => ?_, fun a b d ha hb hn => ?_⟩
  · exact congrArg Host.Outcome.next (summaryReceive_outside (s := passTo t s) h)
  · exact congrArg Host.Outcome.next (summaryReceive_peer (s := passTo t s) h hc)
  · exact congrArg Host.Outcome.next (summarySend_alone (s := passTo t s) h)
  · exact congrArg Host.Outcome.next (summarySend_offExchange (s := passTo t s) h)
  · intro x he
    exact congrArg Host.Outcome.next (summarySend_empty (s := passTo t s) ⟨hr, hi, hm, ho⟩ hs hx he)
  · exact congrArg Host.Outcome.next (syncReportReceive_outside (s := passTo t s) h x es)
  · exact congrArg Host.Outcome.next (syncReportReceive_good (s := passTo t s) ho ⟨hs, hr, hf, hn⟩ hi he x)
  · exact congrArg Host.Outcome.next (peerSilentNow_notDue (s := passTo t s) h)
  · exact congrArg Host.Outcome.next (peerSilentNow_due (s := passTo t s) hp hs hi ht)
  · have hparam : stParam ≠ stDone := by decide
    refine ⟨fun a b d l hc => post_next hready ?_, fun g m l hg => post_next hready ?_, fun r x y n w l hc => post_next hready ?_,
      fun a b d l ha hb hd hf hl ht => post_next hready ?_, fun a b d ha hb hd hf hp => post_next hready ?_,
      fun g m hc hp => post_next hready ?_, fun r x y n w hc hp => post_next hready ?_⟩
    · rw [proxSepCheck_outside (s := accept h 0x38 s) hc, startProx_rejected hparam]
    · rw [proxZoneCheck_outside hg, startProx_rejected hparam]
    · rw [proxPlumeCheck_outside hc, startProx_rejected hparam]
    · rw [proxSepCheck_good (s := accept h 0x38 s) ha hb hd hf, startProx_noTor (s := accept h 0x38 s) hl ht]
    · rw [proxSepCheck_good (s := accept h 0x38 s) ha hb hd hf]
      exact startProx_atOnce (s := accept h 0x38 s) hp h.ref
    · exact (congrArg (fun st => startProx h.ref st 0 _ (accept h 0x39 s)) hc).trans (startProx_atOnce (s := accept h 0x39 s) hp h.ref)
    · exact (congrArg (fun st => startProx h.ref st 0 _ (accept h 0x3A s)) hc).trans (startProx_atOnce (s := accept h 0x3A s) hp h.ref)
  · refine ⟨?_, ?_, rulesCrc_renewCrc _, fun i j hi hj h1 h2 => ?_⟩
    · rw [sepOf_applyProxSep ha hb hn, if_pos (Or.inr rfl)]
    · rw [sepOf_applyProxSep ha hb hn, if_pos (Or.inl rfl)]
    · rw [sepOf_applyProxSep ha hb hn, if_neg (by omega)]

end Sys2Proof.Machine
end

section
/-! SUPPORT. What a guard tick of an idle machine, the judgement of one request and the break of a deadlock bring about. -/

namespace Sys2Proof.Machine

/-! ### GUARD_TICK by the time (R181, R209, R214) -/

theorem guardAt_offTick {s : State} (h : s.now % 5000 ≠ 0) : guardAt s = s := if_neg h

theorem guardAt_onTick {s : State} (h : s.now % 5000 = 0) : guardAt s = guardTick (boundFirst (rulesFirst s)) := if_pos h

theorem guardTick_notJudging {s : State} (h : s.prox.run = false) : guardTick s = s := if_pos (by rw [h]; rfl)

/-! ### Lanes without a plan -/

theorem foldl_of_fixed {α : Type} {f : State → α → State} {s : State} {xs : List α} (h : ∀ a ∈ xs, f s a = s) : xs.foldl f s = s := by
  induction xs with
  | nil => rfl
  | cons a xs ih =>
    rw [List.foldl_cons, h a List.mem_cons_self]
    exact ih fun b hb => h b (List.mem_cons_of_mem _ hb)

/-- A lane that neither plans, holds nor runs, and waits at no SYNC. -/
structure LaneIdle (s : State) (l : Nat) : Prop where
  noHold : (laneOf s l).hold = none
  noPlan : (laneOf s l).plan = []
  notRunning : (laneOf s l).state ≠ .running
  notWithdrawn : (laneOf s l).prox.withdrawn = false

theorem settleLane_idle {s : State} {l : Nat} (g : LaneIdle s l) : settleLane l s = s := by
  simp [settleLane, g.noHold, g.noPlan, g.notRunning, tellLate, lastActive]

theorem verdictDeadline_noPlan {s : State} {l : Nat} (h : (laneOf s l).plan = []) : verdictDeadline l s = s := by
  simp [verdictDeadline, h]

theorem laneRequests_idle {s : State} {l : Nat} (g : LaneIdle s l) : laneRequests s l = [] := by
  simp [laneRequests, g.noHold, g.noPlan]

section
variable {s : State} (hidle : ∀ l ∈ allLanes s, LaneIdle s l)
include hidle

theorem tentatives_idle : tentatives s = [] := by
  refine List.flatMap_eq_nil_iff.2 fun l hl => ?_
  rw [(hidle l hl).noPlan, List.filter_nil, List.map_nil]

theorem openRequests_idle : openRequests s = [] := by
  have hnone : ((allLanes s).flatMap fun l => (laneRequests s l).take 16) = [] :=
    List.flatMap_eq_nil_iff.2 fun l hl => by rw [laneRequests_idle (hidle l hl), List.take_nil]
  rw [openRequests, hnone, List.foldr_nil]

theorem deferRequests_idle : deferRequests s = s :=
  foldl_of_fixed fun l hl => by simp [laneRequests_idle (hidle l hl)]

theorem restoreWaits_idle : restoreWaits s = s :=
  foldl_of_fixed fun l hl => by simp [(hidle l hl).notWithdrawn]

end

/-! ### A tick without peers, zones and SYNCs -/

theorem takePeers_alone {s : State} (ho : otherMembers s = []) (hb : s.time.clock.boundExceeded = false) (hu : s.prox.unsafeNow = false) :
    takePeers s = s := by
  simp [takePeers, peersUnsafe, ho, hb, hu]

theorem noteUses_noZones {s : State} (h : ∀ z ∈ s.prox.zones, z = none) : noteUses s = s :=
  if_pos (List.all_eq_true.2 fun z hz => by rw [h z hz]; rfl)

theorem stepSyncs_none {s : State} (h : s.jobs.syncs = []) : stepSyncs s = s := by
  rw [stepSyncs, h, List.filter_nil, List.foldl_nil]

theorem syncEdges_none {s : State} (h : s.jobs.syncs = []) : syncEdges s = [] := by
  rw [syncEdges, h, List.filter_nil, List.flatMap_nil]

theorem cycleStands_noEdges (c : List Nat) : cycleStands [] c = false := by
  cases c with
  | nil => rfl
  | cons l rest => cases rest <;> rfl

/-- A graph without an edge has no cycle, and no lane is in one. -/
theorem watchCycles_noEdges {s : State} (h : s.jobs.syncs = []) : watchCycles [] s =
    { s with
      lanes := s.lanes.mapIdx fun _ x => { x with prox := { x.prox with inCycle := false } }
      prox := { s.prox with edges := [], cycles := [] } } := by
  simp [watchCycles, syncEdges_none h, cycleStands_noEdges, newCycles, setProx, reachable]

theorem deadlockBreak_noCycles {s : State} (h : s.prox.cycles = []) : deadlockBreak s = s := by
  simp [deadlockBreak, h]

theorem unit_mapIdx_of_keeps {α β : Type} {f : Nat → α → α} (g : α → β) (xs : List α) (i : Nat) (d : α)
    (h : ∀ i x, g (f i x) = g x := by exact fun _ _ => rfl) : g (unit (xs.mapIdx f) i d) = g (unit xs i d) := by
  rw [unit, unit, List.getD_eq_getElem?_getD, List.getD_eq_getElem?_getD, List.getElem?_mapIdx]
  cases xs[i]? with
  | none => rfl
  | some x => exact h i x

/-- A tick that finds nothing to judge renews the effective priorities, finds no cycle and notes that it has judged. -/
def idleTick (s : State) : State :=
  { s with
    lanes := s.lanes.mapIdx fun i x => { x with prox := { x.prox with effPrio := effPrio s i, inCycle := false } }
    prox := { s.prox with edges := [], cycles := [], judgedAt := some s.now } }

theorem plan_idleTick (s : State) (l : Nat) : (laneOf (idleTick s) l).plan = (laneOf s l).plan := by
  unfold laneOf idleTick
  exact unit_mapIdx_of_keeps Lane.plan s.lanes l .reset

/-- The module stands alone, its time is good, and it has no zone and no SYNC. -/
structure Alone (s : State) : Prop where
  noMembers : otherMembers s = []
  noSyncs : s.jobs.syncs = []
  timeGood : s.time.clock.boundExceeded = false
  safe : s.prox.unsafeNow = false
  noZones : ∀ z ∈ s.prox.zones, z = none

theorem guardTick_idle {s : State} (hrun : s.prox.run = true) (g : Alone s) (hidle : ∀ l ∈ allLanes s, LaneIdle s l) :
    guardTick s = idleTick s := by
  have hsettle : (allLanes s).foldl (fun s l => settleLane l s) s = s := foldl_of_fixed fun l hl => settleLane_idle (hidle l hl)
  have hdeadline : (allLanes s).foldl (fun s l => verdictDeadline l s) s = s :=
    foldl_of_fixed fun l hl => verdictDeadline_noPlan (hidle l hl).noPlan
  have hafter : (allLanes s).foldl (fun s l => verdictDeadline l s) (idleTick s) = idleTick s :=
    foldl_of_fixed fun l hl => verdictDeadline_noPlan ((plan_idleTick s l).trans (hidle l hl).noPlan)
  have hjudge : judgeAll s = (s, { claims := (allLanes s).map fun l => claimOf s l, edges := [] }) := by
    rw [judgeAll, openRequests_idle hidle, List.foldl_nil]
  unfold guardTick
  simp only [hrun, Bool.not_true, Bool.false_eq_true, if_false, hsettle, hdeadline, takePeers_alone g.noMembers g.timeGood g.safe,
    tentatives_idle hidle, List.foldl_nil, deferRequests_idle hidle, noteUses_noZones g.noZones, restoreWaits_idle hidle, hjudge]
  rw [stepSyncs_none (by exact g.noSyncs), watchCycles_noEdges (by exact g.noSyncs), List.mapIdx_mapIdx, deadlockBreak_noCycles rfl]
  exact hafter

/-! ### One request (R184, R187, R194, R197, R204) -/

theorem judgeOne_closed {s : State} {q : Request} (h : q.open_ s = false) (k : Tick) : judgeOne (s, k) q = (s, k) :=
  if_pos (by rw [h]; rfl)

theorem afterOpenSync_none {ps : List PRec} (h : ∀ r ∈ ps, openWait r = false) (k : Nat) : afterOpenSync ps k = false :=
  List.any_eq_false.2 fun r hr => by simp [h r hr]

/-- The release of R197 is taken away from a lane. -/
def endRelease (l : Nat) (s : State) : State := setLane l (fun x => { x with prox := { x.prox with released := false } }) s

theorem plan_endRelease (l k : Nat) (s : State) : (laneOf (endRelease l s) k).plan = (laneOf s k).plan := by
  unfold endRelease
  exact laneOf_setLane_of_keeps Lane.plan s l k

/-- A request that its lane asks for as it runs on: still open, the lane in no hold, and before no open SYNC. -/
structure Asks (s : State) (q : Request) : Prop where
  notHeld : q.held = false
  stillOpen : q.open_ s = true
  noSync : afterOpenSync (laneOf s q.lane).plan q.idx = false

theorem judgeOne_free {s : State} {q : Request} {k : Tick} (g : Asks s q)
    (hj : judge s q.lane q.idx (requestTrajs s (laneOf s q.lane) q.idx) k.claims = none) :
    judgeOne (s, k) q = passRequest q (requestTrajs s (laneOf s q.lane) q.idx) (endRelease q.lane s) k := by
  simp only [judgeOne, g.notHeld, g.stillOpen, g.noSync, hj, Bool.not_true, Bool.false_and, Bool.or_self, Bool.false_eq_true, if_false]
  rfl

theorem judgeOne_blocked {s : State} {q : Request} {k : Tick} {b : Block} (g : Asks s q)
    (hj : judge s q.lane q.idx (requestTrajs s (laneOf s q.lane) q.idx) k.claims = some b) :
    judgeOne (s, k) q = holdRequest q (requestTrajs s (laneOf s q.lane) q.idx) b (endRelease q.lane s) k := by
  simp only [judgeOne, g.notHeld, g.stillOpen, g.noSync, hj, Bool.not_true, Bool.false_and, Bool.or_self, Bool.false_eq_true, if_false]
  rfl

theorem passRequest_free {s : State} {q : Request} {ts : List Traj} (hh : q.held = false) (h : needsConfirm s ts = false) (k : Tick) :
    passRequest q ts s k = (giveGo q.lane q.idx false s, { k with
      claims := (k.claims.filter fun c => c.lane != q.lane) ++ [claimOf (giveGo q.lane q.idx false s) q.lane] }) := by
  simp [passRequest, h, hh]

/-- A record waits for its peers' confirmation at the next exchange. -/
def makeTentative (l i : Nat) (s : State) : State :=
  setLane l (fun x => { x with plan := x.plan.map fun r =>
    if r.idx = i then { r with verdict := .tentative s.now (nextExchange s.now) } else r }) s

theorem passRequest_near {s : State} {q : Request} {ts : List Traj} (hh : q.held = false) (h : needsConfirm s ts = true) (k : Tick) :
    passRequest q ts s k = (makeTentative q.lane q.idx s, { k with
      claims := (k.claims.filter fun c => c.lane != q.lane) ++ [claimOf (makeTentative q.lane q.idx s) q.lane] }) := by
  simp only [passRequest, h, hh, Bool.not_true, Bool.false_eq_true, if_false]
  rfl

/-- A conflict holds the lane at the record: the rule and the blocker are noted and the verdict is counted. -/
def holdAsked (q : Request) (b : Block) (s : State) : State :=
  holdRecord q.lane q.idx (setProx (fun p => { p with holdVerdicts := p.holdVerdicts + 1 }) (noteBlock q.lane b s))

/-- The reservation of a lane that has been held at record `i`, planned from its standstill. -/
def heldTrajs (l i : Nat) (ts : List Traj) (s : State) : List Traj :=
  match (laneOf s l).hold with
  | some h => requestTrajs s (heldView s (laneOf s l) h) i
  | none => ts

theorem heldTrajs_held {s : State} {l : Nat} {h : Hold} (hh : (laneOf s l).hold = some h) (i : Nat) (ts : List Traj) :
    heldTrajs l i ts s = requestTrajs s (heldView s (laneOf s l) h) i := by
  rw [heldTrajs, hh]

theorem holdRequest_asks {s : State} {q : Request} (hh : q.held = false) (hs : afterOpenSync (laneOf s q.lane).plan q.idx = false)
    (ts : List Traj) (b : Block) (k : Tick) : holdRequest q ts b s k = (holdAsked q b s, {
      claims := (k.claims.filter fun c => c.lane != q.lane) ++ [claimOf (holdAsked q b s) q.lane,
        { lane := q.lane, trajs := heldTrajs q.lane q.idx ts (holdAsked q b s), reservation := true }]
      edges := k.edges ++ waitEdges s q.lane q.idx ts k.claims }) := by
  simp only [holdRequest, hh, hs, Bool.false_eq_true, if_false]
  rfl

/-! ### Effective priority and deadlocks (R195, R197) -/

theorem effPrio_held {s : State} {l : Nat} {h : Hold} {r : PRec} (hh : (laneOf s l).hold = some h)
    (hr : ((laneOf s l).plan.find? fun x => x.idx = h.idx) = some r) (ht : 0 < s.prof.prox.tAge) :
    effPrio s l = min 31 (r.prio + (s.now - h.since) / (1000 * s.prof.prox.tAge)) := by
  simp only [effPrio, holdOf_atRecord hh, hr, Nat.max_eq_right ht]

theorem deadlockBreak_young {s : State} {c : List Nat} {t0 : Ns} (hc : s.prox.cycles = [(c, t0)])
    (h : s.now < t0 + 1000 * s.prof.prox.tDead) : deadlockBreak s = s := by
  simp [deadlockBreak, hc, Nat.not_le.2 h]

/-- Where no SYNC is open a released lane keeps its verdicts. -/
theorem releaseLane_noSync {s : State} (h : s.jobs.syncs = []) (l : Nat) : releaseLane l s =
    setLane l (fun x => { x with prox := { x.prox with released := true, withdrawn := false } }) s := by
  simp [releaseLane, waitsAt, syncEdges_none h]

theorem deadlockBreak_persisted {s : State} {l : Nat} {rest : List Nat} {t0 : Ns} (hc : s.prox.cycles = [(l :: rest, t0)])
    (hg : s.now % 5000 ≠ 0) (h : t0 + 1000 * s.prof.prox.tDead ≤ s.now) (hs : s.jobs.syncs = [])
    (hr : (laneOf s l).prox.released = false) : deadlockBreak s =
      raise 0x3061 (natLE 1 l ++ natLE 1 (rest.length + 1))
        (setProx (fun p => { p with deadlockBreaks := satInc p.deadlockBreaks, cycles := [(l :: rest, s.now)] })
          (setLane l (fun x => { x with prox := { x.prox with released := true, withdrawn := false } }) s)) := by
  have hbreak : deadlockBreak s = breakCycle s (l :: rest, t0) := by simp [deadlockBreak, hc, hg, h]
  rw [hbreak]
  simp [breakCycle, hr, releaseLane_noSync hs, setProx, hc]

/-- Settles O15: GUARD_TICK and DEADLOCK_BREAK by the time and by what there is to judge, a request by its judgement. -/
theorem arbiterJudgesRequests : Obligations.ArbiterJudgesRequests := by
  intro t s
  refine ⟨fun h => ?_, fun h => ?_, guardTick_notJudging, fun hrun ho hs hb hu hz hidle => ?_, fun q k h => judgeOne_closed h k,
    fun q k hh hopen hw => ?_, fun l h r hh hr ht => effPrio_held hh hr ht, fun l rest t0 hc hg => ⟨fun h => ?_, fun h hs hr => ?_⟩⟩
  · exact congrArg Host.Outcome.next (guardAt_offTick (s := passTo t s) h)
  · exact congrArg Host.Outcome.next (guardAt_onTick (s := passTo t s) h)
  · refine guardTick_idle hrun ⟨ho, hs, hb, hu, hz⟩ fun l hl => ?_
    obtain ⟨hhold, hplan, hstate, hwithdrawn⟩ := hidle l hl
    exact ⟨hhold, hplan, hstate, hwithdrawn⟩
  · have g : Asks s q := ⟨hh, hopen, afterOpenSync_none hw q.idx⟩
    intro ts rest w
    have hnoSync : afterOpenSync (laneOf w q.lane).plan q.idx = false :=
      (congrArg (afterOpenSync · q.idx) (plan_endRelease q.lane q.lane s)).trans g.noSync
    refine ⟨fun hj hn => ?_, fun hj hn => ?_, fun b hj => ?_⟩
    · exact (judgeOne_free g hj).trans (passRequest_free hh hn k)
    · exact (judgeOne_free g hj).trans (passRequest_near hh hn k)
    · exact ⟨waitEdges w q.lane q.idx ts k.claims, heldTrajs q.lane q.idx ts (holdAsked q b w),
        (judgeOne_blocked g hj).trans (holdRequest_asks hh hnoSync ts b k), fun h hu => heldTrajs_held hu q.idx ts⟩
  · exact congrArg Host.Outcome.next (deadlockBreak_young (s := passTo t s) hc h)
  · exact congrArg Host.Outcome.next (deadlockBreak_persisted (s := passTo t s) hc hg h hs hr)

end Sys2Proof.Machine
end

section
/-! SUPPORT. What TIME_QUALITY_UPDATE, an offset of the source, the loss of the source and TIME_SET bring about. -/

namespace Sys2Proof.Machine

/-- A job start is tried only where JOB_START waits. -/
theorem tryStart_noneWaits {s : State} (h : s.jobs.startRef = none) : tryStart s = s := by
  simp [tryStart, h]

/-! ### E_T and TIME_QUALITY_UPDATE (R223, R228) -/

theorem errorBound_unlocked {s : State} (h : s.time.clock.state = .free ∨ s.time.clock.state = .acquiring) :
    errorBound s = 0xFFFFFFFF := by
  obtain h | h := h <;> simp [errorBound, h]

theorem errorBound_locked {s : State} (h : s.time.clock.state = .coarse ∨ s.time.clock.state = .fine) : errorBound s =
    min (worstOffset s + if s.prof.time.source = 1 then s.prof.time.ppsErr else s.prof.time.tsErr) 0xFFFFFFFF := by
  obtain h | h := h <;> simp [errorBound, h]

theorem errorBound_master {s : State} (h : s.time.clock.state = .master) : errorBound s = 0 := by
  simp [errorBound, h]

section
variable {s : State}

theorem qualityUpdate_within (he : errorBound s ≤ s.prof.time.holdBound) (hr : s.time.clock.boundRaised = false) : qualityUpdate s =
    setClock (fun c => { c with etb := BitVec.ofNat 32 (errorBound s), boundExceeded := false, boundRaised := false }) s := by
  simp [qualityUpdate, Nat.not_lt.2 he, hr]

theorem qualityUpdate_returns (he : errorBound s ≤ s.prof.time.holdBound) (hr : s.time.clock.boundRaised = true) : qualityUpdate s =
    raise 0x5008 (natLE 4 (errorBound s)) (setClock (fun c => { c with
      etb := BitVec.ofNat 32 (errorBound s), boundExceeded := false, boundRaised := false }) s) := by
  simp [qualityUpdate, Nat.not_lt.2 he, hr]

theorem qualityUpdate_stillBeyond (he : s.prof.time.holdBound < errorBound s)
    (hb : s.prof.time.holdBound < s.time.clock.etb.toNat) : qualityUpdate s =
      setClock (fun c => { c with etb := BitVec.ofNat 32 (errorBound s), boundExceeded := true }) s := by
  simp [qualityUpdate, he, Nat.not_le.2 hb]

theorem qualityUpdate_exceeds (he : s.prof.time.holdBound < errorBound s) (hb : s.time.clock.etb.toNat ≤ s.prof.time.holdBound)
    (hh : s.time.clock.state ≠ .holdover) : qualityUpdate s =
      raise 0x5007 (natLE 4 (errorBound s) ++ natLE 4 0) (setClock (fun c => { c with
        etb := BitVec.ofNat 32 (errorBound s), boundExceeded := true, boundRaised := true }) s) := by
  simp [qualityUpdate, he, hb, hh]

/-! ### PTP_SYNC_RECEIVE and PTP_ANNOUNCE_RECEIVE (R217, R221, R222) -/

theorem ptpSync_ignored {m : PtpSync} (h : s.prof.time.source ≠ 0 ∨ ownDomain s m.version m.domain = false ∨
    s.time.clock.parent ≠ some m.sender) : ptpSync m s = s := by
  refine if_pos ?_
  obtain h | h | h := h <;> simp [h]

theorem ptpSync_fromParent {m : PtpSync} (hs : s.prof.time.source = 0) (hd : ownDomain s m.version m.domain = true)
    (hp : s.time.clock.parent = some m.sender) :
    let delta := roundDiv (65536 * ((rxStamp s m.port m.rx : Int) - m.origin) - m.correction) 65536
    let link := unit s.time.clock.linkDelay m.port 0
    let delay := if s.prof.time.p2p then link else s.time.clock.pathDelay.toNat
    ptpSync m s = takeOffset (delta - delay) (setClock (fun c => { c with
      syncRx := c.syncRx + 1, lastSync := some c.now, masterDelta := delta, parentPort := BitVec.ofNat 2 m.port
      pathDelay := if s.prof.time.p2p then BitVec.ofNat 32 link else c.pathDelay }) s) := by
  intro delta link delay
  have hcast : (delay : Int) = if s.prof.time.p2p then (link : Int) else (s.time.clock.pathDelay.toNat : Int) := Nat.cast_ite _ _ _
  rw [hcast]
  refine (if_neg ?_).trans rfl
  simp [hs, hd, hp]

theorem ptpAnnounce_ignored {a : Announce} (h : s.prof.time.source ≠ 0 ∨ ownDomain s a.version a.domain = false) :
    ptpAnnounce a s = s := by
  refine if_pos ?_
  obtain h | h := h <;> simp [h]

theorem ptpAnnounce_heard {a : Announce} (hs : s.prof.time.source = 0) (hd : ownDomain s a.version a.domain = true) : ptpAnnounce a s =
    bmca (setClock (fun c => { c with foreign := (c.now, a) :: c.foreign.filter fun x => x.2.sender != a.sender }) s) := by
  refine if_neg ?_
  simp [hs, hd]

end

/-! ### The time state changes (R222, R246) -/

theorem updateSynced_time (s : State) : (updateSynced s).time = s.time := by
  unfold updateSynced
  dsimp only
  split
  · rfl
  · split <;> rw [raise_time]

/-- What a change of the time state leaves of the clock: the counter, the steps, and whether one is blocked. -/
def countView (s : State) : Ns × BitVec 16 × Bool := (s.now, s.time.clock.steps, s.time.clock.stepBlocked)

theorem countView_of_time {s t : State} (h : t.time = s.time) : countView t = countView s := by
  simp only [countView, State.now, h]

theorem countView_setTimeState (n : TimeState) (s : State) : countView (setTimeState n s) = countView s := by
  unfold setTimeState
  dsimp only
  split
  · rfl
  · rw [countView_of_time (updateSynced_time _)]
    cases n <;> simp only [countView_of_time (raise_time _ _ _)]
    case coarse => split <;> rfl
    all_goals rfl

theorem state_setTimeState (n : TimeState) (s : State) : (setTimeState n s).time.clock.state = n := by
  unfold setTimeState
  dsimp only
  split
  · next h => exact h
  · rw [updateSynced_time]
    cases n <;> simp only [raise_time] <;> rfl

/-! ### An offset beyond STEP_LIMIT (R225) -/

/-- The clock has taken an offset of the source. -/
def noteOffset (off : Int) (s : State) : State :=
  setClock (fun c => { c with offset := satS 32 off, offsets := (off.natAbs :: c.offsets).take 16 }) s

/-- The first step that a job blocks is noted and reported. -/
def noteBlocked (off : Int) (s : State) : State :=
  if s.time.clock.stepBlocked then s
  else raise 0x500A (intLE 8 off) (setClock (fun c => { c with stepBlocked := true, stepBlocks := satInc c.stepBlocks }) s)

/-- What a blocked step leaves of the clock: the counter, the steps, and the time state. -/
def stepView (s : State) : Ns × BitVec 16 × TimeState := (s.now, s.time.clock.steps, s.time.clock.state)

theorem stepView_noteBlocked (off : Int) (s : State) : stepView (noteBlocked off s) = stepView s := by
  unfold noteBlocked
  split
  · rfl
  · simp only [stepView, State.now, raise_time]
    rfl

theorem stepBlocked_noteBlocked (off : Int) (s : State) : (noteBlocked off s).time.clock.stepBlocked = true := by
  unfold noteBlocked
  split
  · next h => exact h
  · rw [raise_time]
    rfl

section
variable {s : State} {off : Int} (hf : s.time.clock.state = .fine) (ho : s.prof.time.stepLimit < off.natAbs)
include hf ho

/-- Without a job the counter steps by the offset, rounded to a lane tick. -/
theorem takeOffset_steps (hj : jobExists s = false) : takeOffset off s =
    setTimeState .acquiring (stepTime ((s.now : Int) - 5 * roundDiv off 5).toNat (setClock (fun c => { c with offset := satS 32 off }) s)) := by
  unfold takeOffset
  simp only [setClock_time, hf]
  exact (if_pos (by exact ho)).trans (if_neg (by exact Bool.eq_false_iff.1 hj))

/-- With a job a step is blocked, and the servo steers by an offset up to 0.1 s. -/
theorem takeOffset_inJob (hj : jobExists s = true) : takeOffset off s =
    if off.natAbs ≤ 100000000 then steer (noteBlocked off (setTimeState .acquiring (noteOffset off s)))
    else noteBlocked off (setTimeState .acquiring (noteOffset off s)) := by
  have hkept : (setTimeState .acquiring (noteOffset off s)).time.clock.stepBlocked = s.time.clock.stepBlocked :=
    congrArg (fun v => v.2.2) (countView_setTimeState .acquiring (noteOffset off s))
  unfold takeOffset
  simp only [setClock_time, hf]
  refine (if_pos (by exact ho)).trans ((if_pos (by exact hj)).trans ?_)
  simp only [noteBlocked, hkept]
  cases s.time.clock.stepBlocked <;> rfl

theorem takeOffset_blocked (hj : jobExists s = true) : stepView (takeOffset off s) = (s.now, s.time.clock.steps, .acquiring) ∧
    (takeOffset off s).time.clock.stepBlocked = true := by
  have hcount := countView_setTimeState .acquiring (noteOffset off s)
  have hview : stepView (noteBlocked off (setTimeState .acquiring (noteOffset off s))) = (s.now, s.time.clock.steps, .acquiring) :=
    (stepView_noteBlocked off _).trans (Prod.ext (congrArg (fun v => v.1) hcount)
      (Prod.ext (congrArg (fun v => v.2.1) hcount) (state_setTimeState .acquiring _)))
  have hblocked := stepBlocked_noteBlocked off (setTimeState .acquiring (noteOffset off s))
  rw [takeOffset_inJob hf ho hj]
  split
  · exact ⟨hview, hblocked⟩
  · exact ⟨hview, hblocked⟩

end

/-! ### SOURCE_LOST (R222) -/

/-- SOURCE_LOSS counts one. -/
def countLoss (s : State) : State := setClock (fun c => { c with sourceLoss := satInc c.sourceLoss }) s

theorem loseSource_fine {s : State} (h : s.time.clock.state = .fine) : loseSource s = setTimeState .holdover (countLoss s) := by
  simp only [loseSource, h]
  rfl

theorem sourceLost_noSync {s : State} {e : Ns} (hs : s.prof.time.source = 0) (hp : s.time.clock.ppsPresent = false)
    (he : s.time.clock.lastSync = some e) (ht : e + s.prof.time.syncLossN * logPeriod s.prof.time.logSync ≤ s.now) :
    sourceLost false s = loseSource s := by
  simp only [sourceLost, hp, hs, he, ht, Bool.false_and, Bool.false_eq_true, if_false, if_true]

theorem sourceLost_noPps {s : State} {e : Ns} (hs : s.prof.time.source = 1) (hp : s.time.clock.ppsPresent = true)
    (he : s.time.clock.lastPps = some e) (ht : e + 1100000000 ≤ s.now) (a : Bool) :
    sourceLost a s = loseSource (raise 0x500E [] (setClock (fun c => { c with ppsPresent := false }) s)) := by
  have hprof : (raise 0x500E [] (setClock (fun c => { c with ppsPresent := false }) s)).prof.time.source = 1 := by
    simpa only [State.prof, raise_profile, setClock_profile] using hs
  simp only [sourceLost, hp, he, ht, decide_true, Bool.and_self, if_true, hprof]

theorem sourceLost_noMaster {s : State} (hs : s.prof.time.source = 0) (hp : s.time.clock.ppsPresent = false)
    (ho : s.prof.time.slaveOnly = false) (hl : liveForeign s = []) :
    sourceLost true s = becomeMaster (setClock (fun c => { c with foreign := [] }) s) := by
  have hgone : (s.time.clock.foreign.filter fun x => decide (s.now ≤ x.1 + announceTimeout s)) = [] := List.map_eq_nil_iff.1 hl
  have hslave : ∀ f : Clock → Clock, (setClock f s).prof.time.slaveOnly = false := fun _ => ho
  simp only [sourceLost, hp, hs, hl, hslave, Bool.false_and, Bool.false_eq_true, if_false, if_true, List.isEmpty_nil]
  exact congrArg (fun l => becomeMaster (setClock (fun c => { c with foreign := l }) s)) hgone

/-! ### PPS_IN_EDGE (R226, R235) -/

/-- The counter's offset from the whole second nearest to it. -/
def secondOffset (s : State) : Int :=
  if s.now % 1000000000 < 500000000 then ((s.now % 1000000000 : Nat) : Int) else ((s.now % 1000000000 : Nat) : Int) - 1000000000

/-- An edge of PPS_IN is noted with its offset and captured as one of input 8. -/
def notePps (width : Nat) (s : State) : State :=
  captureEdge 8 true width (setClock (fun c => { c with ppsPresent := true, lastPps := some c.now })
    (setPps (fun p => { p with inOffset := secondOffset s }) s))

/-- A capture of input `n` takes the next place of the host's ring (R234). -/
def putCapture (n : Nat) (s : State) (c : Capture) : State :=
  let s := memPut (s.time.ringBase.toNat + 32 * (s.time.ringNext % s.time.ringSize)) (c.bytes n) s
  { s with time := { s.time with ringNext := s.time.ringNext + 1 } }

theorem putCapture_profile (n : Nat) (s : State) (c : Capture) : (putCapture n s c).profile = s.profile := by
  simp only [putCapture, memPut_profile]

theorem drainInput_profile (n : Nat) (s : State) : (drainInput n s).profile = s.profile := by
  unfold drainInput
  split
  · exact foldl_keeps (putCapture n) State.profile (putCapture_profile n) (trigIn s n).fifo s
  · rfl

theorem captureAt_profile (n : Nat) (rising : Bool) (i : TrigIn) (s : State) :
    (captureEdge.captureAt n rising i s).profile = s.profile := by
  unfold captureEdge.captureAt
  dsimp only
  split
  · split
    · rfl
    · rw [raise_profile]
      rfl
  · rw [drainInput_profile]
    rfl

/-- An edge counts as a glitch, is not asked for, or is captured (R233). -/
theorem captureEdge_cases (n : Nat) (rising : Bool) (width : Nat) (s : State) :
    captureEdge n rising width s = setTrigIn n (fun i => { i with glitch := satInc i.glitch }) s ∨ captureEdge n rising width s = s ∨
      captureEdge n rising width s = captureEdge.captureAt n rising (trigIn s n) s := by
  unfold captureEdge
  dsimp only
  generalize (if rising = true then (trigIn s n).edge.getLsbD 0 else (trigIn s n).edge.getLsbD 1) = wants
  split
  · exact .inl rfl
  · split
    · exact .inr (.inl rfl)
    · split
      · split
        · exact .inl rfl
        · exact .inr (.inr rfl)
      · exact .inr (.inr rfl)

theorem captureEdge_profile (n : Nat) (rising : Bool) (width : Nat) (s : State) :
    (captureEdge n rising width s).profile = s.profile := by
  obtain h | h | h := captureEdge_cases n rising width s
  · rw [h, setTrigIn_profile]
  · rw [h]
  · rw [h, captureAt_profile]

theorem captureEdge_short {n width : Nat} {s : State} (h : width < (trigIn s n).filter.toNat) (rising : Bool) :
    captureEdge n rising width s = setTrigIn n (fun i => { i with glitch := satInc i.glitch }) s := if_pos h

section
variable {s : State} {width : Nat}

theorem ppsIn_short (h : width < (trigIn s 8).filter.toNat) :
    ppsIn width s = setTrigIn 8 (fun i => { i with glitch := satInc i.glitch }) s := (if_pos h).trans (captureEdge_short h true)

theorem ppsIn_long (h : (trigIn s 8).filter.toNat ≤ width) : ppsIn width s =
    if s.prof.time.source = 1 then takeOffset (secondOffset s) (notePps width s) else notePps width s := by
  have hprof : (notePps width s).prof = s.prof := congrArg ProfileBlk.records (captureEdge_profile 8 true width _)
  rw [← hprof]
  exact if_neg (Nat.not_lt.2 h)

end

/-! ### TIME_SET (R226) -/

section
variable {s : State} {ns : Nat}

theorem startTimeSet_refused (h : s.prof.time.source = 0 ∨ s.jobs.state ≠ 0) (r : Ref) (ns sec : Nat) :
    startTimeSet r ns sec s = endWith r stState s := by
  refine if_pos ?_
  obtain h | h := h
  · simp [h]
  · simp [(jobExists_iff s).2 h]

theorem startTimeSet_outside (hs : s.prof.time.source ≠ 0) (hj : s.jobs.state = 0) (hn : 1000000000 ≤ ns ∨ ns % 5 ≠ 0) (r : Ref)
    (sec : Nat) : startTimeSet r ns sec s = endWith r stParam s := by
  refine (if_neg (by simp [hs, hj, jobExists])).trans (if_pos ?_)
  simpa using hn

theorem startTimeSet_good (hs : s.prof.time.source ≠ 0) (hj : s.jobs.state = 0) (hn : ns < 1000000000) (h5 : ns % 5 = 0) (r : Ref)
    (sec : Nat) : startTimeSet r ns sec s = endWith r stDone (stepTime (sec * 1000000000 + ns) s) := by
  refine (if_neg (by simp [hs, hj, jobExists])).trans (if_neg ?_)
  simp [Nat.not_le.2 hn, h5]

end

/-- Settles O17: E_T by the time state, each command at the time that has come, as the lemma of its case says. That TIME_SET's FRACTION has
no effect is the model's choice of log 107, and that the servo takes a PPS edge whatever EDGE selects is that of log 123. -/
theorem timeStatesAndSteps : Obligations.TimeStatesAndSteps := by
  intro t s
  refine ⟨?_, fun he hr => ?_, errorBound_unlocked, errorBound_locked, errorBound_master, fun hn => ⟨fun m h => ?_, fun a h => ?_⟩,
    fun m hs hd hp => ?_, fun a hs hd => ?_, fun off hf ho => ⟨fun hj => ?_, fun hj => ?_⟩, fun e hs hp hf he ht => ?_,
    fun e a hs hp hf he ht => ?_, fun hs hp ho hl => ?_, fun w hw => ?_, fun w hw => ?_, fun h hr => ⟨fun hc f n c => ?_,
    fun hs hj f n c hn => ?_, fun hs hj f n c hn h5 => ?_⟩⟩
  · intro u e
    exact ⟨fun he hr => congrArg Host.Outcome.next (qualityUpdate_within (s := u) he hr),
      fun he hb => congrArg Host.Outcome.next (qualityUpdate_stillBeyond (s := u) he hb),
      fun he hb hh => congrArg Host.Outcome.next (qualityUpdate_exceeds (s := u) he hb hh)⟩
  · exact congrArg Host.Outcome.next (qualityUpdate_returns (s := passTo t s) he hr)
  · exact congrArg Host.Outcome.next
      ((congrArg tryStart (ptpSync_ignored (s := passTo t s) h)).trans (tryStart_noneWaits (s := passTo t s) hn))
  · exact congrArg Host.Outcome.next
      ((congrArg tryStart (ptpAnnounce_ignored (s := passTo t s) h)).trans (tryStart_noneWaits (s := passTo t s) hn))
  · exact congrArg (fun u => Host.Outcome.next (tryStart u)) (ptpSync_fromParent (s := passTo t s) hs hd hp)
  · exact congrArg (fun u => Host.Outcome.next (tryStart u)) (ptpAnnounce_heard (s := passTo t s) hs hd)
  · exact takeOffset_steps hf ho (jobExists_none hj)
  · obtain ⟨hview, hblocked⟩ := takeOffset_blocked hf ho ((jobExists_iff s).2 hj)
    obtain ⟨hnow, hrest⟩ := Prod.ext_iff.1 hview
    obtain ⟨hsteps, hstate⟩ := Prod.ext_iff.1 hrest
    exact ⟨hnow, hsteps, hstate, hblocked⟩
  · exact congrArg (fun u => Host.Outcome.next (tryStart u))
      ((sourceLost_noSync (s := passTo t s) hs hp he ht).trans (loseSource_fine hf))
  · refine congrArg (fun u => Host.Outcome.next (tryStart u)) ((sourceLost_noPps (s := passTo t s) hs hp he ht a).trans (loseSource_fine ?_))
    rw [raise_time]
    exact hf
  · exact congrArg (fun u => Host.Outcome.next (tryStart u)) (sourceLost_noMaster (s := passTo t s) hs hp ho hl)
  · exact congrArg (fun u => Host.Outcome.next (tryStart u)) (ppsIn_short (s := passTo t s) hw)
  · have hlong := ppsIn_long (s := passTo t s) hw
    exact ⟨fun hs => congrArg (fun u => Host.Outcome.next (tryStart u)) (hlong.trans (if_pos hs)),
      fun hs => congrArg (fun u => Host.Outcome.next (tryStart u)) (hlong.trans (if_neg hs))⟩
  · exact post_next hr (startTimeSet_refused (s := accept h 0x44 s) hc h.ref n c)
  · exact post_next hr (startTimeSet_outside (s := accept h 0x44 s) hs hj hn h.ref c)
  · exact post_next hr (startTimeSet_good (s := accept h 0x44 s) hs hj hn h5 h.ref c)

end Sys2Proof.Machine
end

section
/-! SUPPORT. The PTP messages that the module sends, takes in and lets pass. -/

namespace Sys2Proof.Machine

/-! ### PTP_SYNC_SEND and PTP_ANNOUNCE_SEND (R217, R218) -/

/-- Operations that do the same to every state with a property, which one of them keeps, do the same over a list. -/
theorem foldl_congr_of_keeps {α : Type} {f g : State → α → State} (P : State → Prop) (hfg : ∀ u a, P u → f u a = g u a)
    (hg : ∀ u a, P u → P (g u a)) (xs : List α) {s : State} (hs : P s) : xs.foldl f s = xs.foldl g s := by
  induction xs generalizing s with
  | nil => rfl
  | cons a xs ih => rw [List.foldl_cons, List.foldl_cons, hfg s a hs, ih (hg s a hs)]

/-- A state with the identity, the profile and the clock of another: what a PTP message is made of. -/
structure SamePtp (s u : State) : Prop where
  ident : u.ident = s.ident
  profile : u.profile = s.profile
  time : u.time = s.time

namespace SamePtp

variable {s u : State}

theorem refl (s : State) : SamePtp s s := ⟨rfl, rfl, rfl⟩

theorem afterSend (h : SamePtp s u) (p k q : Nat) (b : List Byte) : SamePtp s (sendPtp p k q b u) := ⟨h.ident, h.profile, h.time⟩

theorem prof_eq (h : SamePtp s u) : u.prof = s.prof := congrArg ProfileBlk.records h.profile

theorem now_eq (h : SamePtp s u) : u.now = s.now := congrArg (fun b => b.clock.now) h.time

theorem txStamp_eq (h : SamePtp s u) (p : Nat) (t : Ns) : txStamp u p t = txStamp s p t := by
  rw [txStamp, h.prof_eq, txStamp]

theorem ownAnnounce_eq (h : SamePtp s u) : ownAnnounce u = ownAnnounce s := by
  have hid : ownClockId u = ownClockId s := by rw [ownClockId, h.ident, ownClockId]
  rw [ownAnnounce, h.prof_eq, hid, ownAnnounce]

end SamePtp

section
variable {s : State}

theorem syncSend_notMaster (h : s.time.clock.state ≠ .master) : syncSend s = s := if_pos (bne_iff_ne.2 h)

theorem announceSend_notMaster (h : s.time.clock.state ≠ .master) : announceSend s = s := if_pos (bne_iff_ne.2 h)

/-- The sequence number of Sync counts. -/
def countSync (s : State) : State := setClock (fun c => { c with seqSync := c.seqSync + 1 }) s

theorem syncSend_oneStep (h : s.time.clock.state = .master) (h2 : s.prof.time.twoStep = false) : syncSend s =
    (List.range 4).foldl (fun u p => sendPtp p 0 s.time.clock.seqSync.toNat (stamp12 (txStamp s p s.now)) u) (countSync s) := by
  refine (if_neg (by simp [h])).trans
    (foldl_congr_of_keeps (SamePtp (countSync s)) (fun u p hu => ?_) (fun u p hu => hu.afterSend _ _ _ _) _ (.refl _))
  have hone : u.prof.time.twoStep = false := (congrArg (fun q => q.time.twoStep) hu.prof_eq).trans h2
  rw [if_neg (by simp [hone]), hu.txStamp_eq, hu.now_eq]
  rfl

theorem syncSend_twoStep (h : s.time.clock.state = .master) (h2 : s.prof.time.twoStep = true) : syncSend s =
    (List.range 4).foldl (fun u p => sendPtp p 8 s.time.clock.seqSync.toNat (stamp12 (txStamp s p s.now))
      (sendPtp p 0 s.time.clock.seqSync.toNat (stamp12 0) u)) (countSync s) := by
  refine (if_neg (by simp [h])).trans
    (foldl_congr_of_keeps (SamePtp (countSync s)) (fun u p hu => ?_) (fun u p hu => (hu.afterSend _ _ _ _).afterSend _ _ _ _) _ (.refl _))
  have htwo : u.prof.time.twoStep = true := (congrArg (fun q => q.time.twoStep) hu.prof_eq).trans h2
  rw [if_pos htwo, hu.txStamp_eq, hu.now_eq]
  rfl

theorem announceSend_master (h : s.time.clock.state = .master) : announceSend s =
    (List.range 4).foldl (fun u p => sendPtp p 11 s.time.clock.seqAnnounce.toNat (ownAnnounce s).bytes u)
      (setClock (fun c => { c with seqAnnounce := c.seqAnnounce + 1 }) s) := by
  refine (if_neg (by simp [h])).trans (foldl_congr_of_keeps
    (SamePtp (setClock (fun c => { c with seqAnnounce := c.seqAnnounce + 1 }) s)) (fun u p hu => ?_) (fun u p hu => hu.afterSend _ _ _ _) _
    (.refl _))
  rw [hu.ownAnnounce_eq]
  rfl

/-! ### PTP_DELAY_REQ_SEND and PTP_DELAY_MESSAGE (R217, R218, R220, R221) -/

theorem delayReqSend_noParent (h2 : s.prof.time.p2p = false) (hp : s.time.clock.parent = none) : delayReqSend s = s := by
  simp [delayReqSend, h2, hp]

theorem delayReqSend_endToEnd (h2 : s.prof.time.p2p = false) (hp : s.time.clock.parent ≠ none) :
    let t3 := txStamp s s.time.clock.parentPort.toNat s.now
    delayReqSend s = sendPtp s.time.clock.parentPort.toNat 1 s.time.clock.seqDelay.toNat (stamp12 t3) (setClock (fun c => { c with
      seqDelay := c.seqDelay + 1, delayReq := (0, s.time.clock.seqDelay.toNat, t3) :: c.delayReq.take 15 }) s) :=
  (if_neg (by simp [h2])).trans (if_pos (Option.isSome_iff_ne_none.2 hp))

theorem delayReqSend_peerToPeer (h2 : s.prof.time.p2p = true) : delayReqSend s =
    (List.range 4).foldl (fun u p => sendPtp p 2 s.time.clock.seqDelay.toNat (stamp12 0) u) (setClock (fun c => { c with
      seqDelay := c.seqDelay + 1
      delayReq := (List.range 4).map (fun p => (p + 1, s.time.clock.seqDelay.toNat, txStamp s p s.now)) ++ c.delayReq.take 12 }) s) :=
  if_pos h2

theorem delayResp_unasked {d q : Nat} (h : d ≠ s.prof.time.domain ∨ ∀ x ∈ s.time.clock.delayReq, ¬(x.1 = 0 ∧ x.2.1 = q)) (t4 : Ns)
    (k : Int) : ptpDelay (.delayResp d q t4 k) s = s := by
  unfold ptpDelay
  dsimp only
  by_cases hd : d = s.prof.time.domain
  · have hnone : (s.time.clock.delayReq.find? fun x => x.1 == 0 && x.2.1 == q) = none :=
      List.find?_eq_none.2 fun x hx => by simpa using h.resolve_left (not_not.2 hd) x hx
    rw [if_neg (by simp [hd]), hnone]
  · exact if_pos (bne_iff_ne.2 hd)

theorem delayResp_answers {q : Nat} {t3 : Ns} (h : s.time.clock.delayReq = [(0, q, t3)]) (t4 : Ns) (k : Int) :
    ptpDelay (.delayResp s.prof.time.domain q t4 k) s = setClock (fun c => { c with
      pathDelay := satU 32 (roundDiv (s.time.clock.masterDelta + roundDiv (65536 * ((t4 : Int) - (t3 : Int)) - k) 65536) 2)
      delayReq := [] }) s := by
  simp [ptpDelay, setClock, h]

theorem delayReq_answered (hm : s.time.clock.state = .master) (h2 : s.prof.time.p2p = false) (p sender q : Nat) (rx : Ns) (k : Int) :
    ptpDelay (.delayReq p s.prof.time.domain sender q rx k) s =
      sendPtp p 9 q (stamp12 (rxStamp s p rx) ++ intLE 8 k ++ natLE 8 sender) s :=
  if_pos (by simp [hm, h2])

theorem pdelayReq_answered (h2 : s.prof.time.p2p = true) (p q : Nat) (rx : Ns) : ptpDelay (.pdelayReq p q rx) s =
    sendPtp p 3 q (stamp12 (rxStamp s p rx) ++ stamp12 (txStamp s p s.now)) s := if_pos h2

theorem pdelayResp_answers {p q : Nat} {t1 : Ns} (h : s.time.clock.delayReq = [(p + 1, q, t1)]) (t2 t3 t4 : Ns) (k : Int) :
    ptpDelay (.pdelayResp p q t2 t3 t4 k) s = setClock (fun c => { c with
      linkDelay := modUnit c.linkDelay p fun _ => (clampI 0 0xFFFFFFFF
        (roundDiv (65536 * ((rxStamp s p t4 : Int) - (t1 : Int) - ((t3 : Int) - (t2 : Int))) - k) 131072)).toNat
      delayReq := [] }) s := by
  simp [ptpDelay, setClock, h]

end

/-! ### TC_FRAME_FORWARD (R220) -/

/-- The checksum that follows the correctionField of a frame over UDP. -/
def udpSum (f : TcFrame) (corr : Int) : List Byte := if f.transport = 0 then [] else natLE 2 (tcChecksum f corr)

/-- What the switch adds to the correctionField in units of 2⁻¹⁶ ns: the residence time, and with P2P the ingress port's link delay. -/
def tcCorrected (s : State) (f : TcFrame) : Int :=
  f.correction + 65536 * ((txStamp s f.outPort f.egress : Int) - (rxStamp s f.inPort f.ingress : Int))
    + 65536 * (if s.prof.time.p2p then ((unit s.time.clock.linkDelay f.inPort 0 : Nat) : Int) else 0)

section
variable {s : State} {f : TcFrame}

theorem tcForward_corrected (h : f.kind = 0 ∨ (f.kind = 1 ∧ s.prof.time.p2p = false)) : tcForward f s =
    sendPtp f.outPort f.kind f.seq (intLE 8 (tcCorrected s f) ++ udpSum f (tcCorrected s f))
      (setClock (fun c => { c with tcFrames := c.tcFrames + 1 }) s) := by
  have hadd : tcCorrected s f = f.correction + (65536 * ((txStamp s f.outPort f.egress : Int) - (rxStamp s f.inPort f.ingress : Int))
      + if s.prof.time.p2p && f.kind = 0 then 65536 * ((unit s.time.clock.linkDelay f.inPort 0 : Nat) : Int) else 0) := by
    rw [tcCorrected, add_assoc]
    obtain h | ⟨h, h2⟩ := h
    · cases s.prof.time.p2p <;> simp [h]
    · simp [h, h2]
  have hcorrects : (decide (f.kind = 0) || (decide (f.kind = 1) && !s.prof.time.p2p)) = true := by
    obtain h | ⟨h, h2⟩ := h
    · simp [h]
    · simp [h, h2]
  rw [hadd]
  refine (if_neg ?_).trans ?_
  · obtain h | ⟨h, h2⟩ := h
    · simp [h]
    · simp [h2]
  · simp only [hcorrects, if_true]
    rfl

theorem tcForward_pdelay (h2 : s.prof.time.p2p = true) (h : f.kind = 2 ∨ f.kind = 3 ∨ f.kind = 10) : tcForward f s = s := by
  refine if_pos ?_
  obtain h | h | h := h <;> simp [h2, h]

theorem tcForward_unchanged (h0 : f.kind ≠ 0) (h1 : f.kind ≠ 1 ∨ s.prof.time.p2p = true)
    (hp : s.prof.time.p2p = false ∨ f.kind ∉ [2, 3, 10]) : tcForward f s =
      sendPtp f.outPort f.kind f.seq (intLE 8 f.correction ++ udpSum f f.correction) s := by
  have hcorrects : (decide (f.kind = 0) || (decide (f.kind = 1) && !s.prof.time.p2p)) = false := by
    obtain h1 | h1 := h1 <;> simp [h0, h1]
  refine (if_neg ?_).trans ?_
  · obtain hp | hp := hp
    · simp [hp]
    · simpa [or_assoc] using fun _ : s.prof.time.p2p = true => hp
  · simp only [hcorrects, Bool.false_eq_true, if_false]
    rfl

end

/-- Settles O18: each message sent by the time state, each one received by what it answers, a frame that passes by its kind. The message
layouts and the answers to the GETs outside the four data sets are the model's choice of log 12. -/
theorem ptpMessages : Obligations.PtpMessages := by
  intro t s
  refine ⟨fun h => ⟨?_, ?_⟩, fun h => ?_, fun h2 => ⟨fun hp => ?_, fun hp => ?_⟩, fun h2 => ?_, fun d q t4 k h => ?_,
    fun q t3 t4 k h => ?_, fun p sender q rx k hm h2 => ?_, fun p q rx h2 => ?_, fun p q t1 t2 t3 t4 k h => ?_,
    fun p => ⟨rfl, rfl, rfl, rfl, rfl, rfl⟩, fun f => ?_⟩
  · exact congrArg Host.Outcome.next (syncSend_notMaster (s := passTo t s) h)
  · exact congrArg Host.Outcome.next (announceSend_notMaster (s := passTo t s) h)
  · exact ⟨fun h2 => congrArg Host.Outcome.next (syncSend_oneStep (s := passTo t s) h h2),
      fun h2 => congrArg Host.Outcome.next (syncSend_twoStep (s := passTo t s) h h2),
      congrArg Host.Outcome.next (announceSend_master (s := passTo t s) h)⟩
  · exact congrArg Host.Outcome.next (delayReqSend_noParent (s := passTo t s) h2 hp)
  · exact congrArg Host.Outcome.next (delayReqSend_endToEnd (s := passTo t s) h2 hp)
  · exact congrArg Host.Outcome.next (delayReqSend_peerToPeer (s := passTo t s) h2)
  · exact congrArg Host.Outcome.next (delayResp_unasked (s := passTo t s) h t4 k)
  · exact congrArg Host.Outcome.next (delayResp_answers (s := passTo t s) h t4 k)
  · exact congrArg Host.Outcome.next (delayReq_answered (s := passTo t s) hm h2 p sender q rx k)
  · exact congrArg Host.Outcome.next (pdelayReq_answered (s := passTo t s) h2 p q rx)
  · exact congrArg Host.Outcome.next (pdelayResp_answers (s := passTo t s) h t2 t3 t4 k)
  · intro stay link sum
    exact ⟨fun h => congrArg Host.Outcome.next (tcForward_corrected (s := passTo t s) h),
      fun h2 h => congrArg Host.Outcome.next (tcForward_pdelay (s := passTo t s) h2 h),
      fun h0 h1 hp => congrArg Host.Outcome.next (tcForward_unchanged (s := passTo t s) h0 h1 hp)⟩

end Sys2Proof.Machine
end

section
/-! SUPPORT. A module whose line trigger is not noted, in which an input's falling edge starts a product. -/

namespace Sys2Proof.Machine

/-- A LINE job whose trigger is trigger input 0. -/
def inputTriggeredJob : JobHeader :=
  { line := true, atTime := none, jobId := 0, lanes := 0, degraded := false, repeatOnce := false, initialRecoat := false
    machine := false, first := 0, minLanes := 0, marginUs := 0, timeoutMs := 0, psetTable := 0, trigSource := 16, trigEncoder := 0
    markWindow := 0, markAddr := 0, markCount := 0, delays := [] }

/-- That job runs, the trigger inputs have not noted its line trigger, and trigger input 0 captures falling edges. -/
def triggerNotNoted : State :=
  { State.reset with
    jobs := { Jobs.reset with state := 11, line := true, header := some inputTriggeredJob }
    time := { TimeBlk.reset with trigIn := [{ TrigIn.reset with edge := 2 }] } }

/-- The captured edge is a trigger of the job, and defines its product 0 (R85). -/
theorem products_inputEdge_triggerNotNoted :
    ((inputEdge 0 false 0 (passTo 0 triggerNotNoted)).jobs.products.map fun p => p.k) = [0] := by decide +kernel

/-- Refutes O19: a falling edge of an input that is the line trigger by the job's header, and not by the note that the inputs keep of it,
also defines a product, and the statement, which bars only the note, lets it change nothing but the TIME block. JOB_START and the job's
end set and clear the two together; the statement ranges over every state, and so over one in which they differ. -/
theorem not_triggersAndPps : ¬ Obligations.TriggersAndPps := by
  intro h
  obtain ⟨-, -, -, -, -, -, -, -, -, -, hfalling, -⟩ := h 0 triggerNotNoted
  obtain ⟨u, c, hexec, hframe, -⟩ := hfalling 0 0 (by decide) (by decide) (by decide) rfl (by decide) (by decide) rfl rfl
  have hedge : inputEdge 0 false 0 (passTo 0 triggerNotNoted) = u := Host.Outcome.next.inj hexec
  have hnone : (u.jobs.products.map fun p => p.k) = [] := by rw [hframe]; rfl
  rw [← hedge, products_inputEdge_triggerNotNoted] at hnone
  exact List.cons_ne_nil 0 [] hnone

end Sys2Proof.Machine
end

section
/-! SUPPORT. What a Ripple action that fires, or misses a target, leaves of the pending actions and of the module. -/

namespace Sys2Proof.Machine

/-! ### What is due (R239) -/

theorem firstDue_none {now : Ns} {as : List RippleAction} (h : ∀ a ∈ as, now < a.launch) : firstDue now as = none :=
  (List.foldl_ext _ (fun best _ => best) none fun _ x hx => if_pos (h x.1 (List.fst_mem_of_mem_zipIdx hx))).trans
    (List.foldl_fixed _)

theorem firstDue_single {now : Ns} {a : RippleAction} (h : a.launch ≤ now) : firstDue now [a] = some (0, a) := if_neg (Nat.not_lt.2 h)

section
variable {s : State}

theorem fireDue_none (h : ∀ a ∈ actions s, s.now < a.launch) : ∀ n, fireDue n s = s
  | 0 => rfl
  | n + 1 => by rw [fireDue, firstDue_none h]

/-- With no periodic latch owed and no JOB_START waiting, only the actions that are due act. -/
theorem rippleFire_quiet (hr : (fireDue (actions s).length s).still.regionSet = false)
    (hj : (fireDue (actions s).length s).jobs.startRef = none) : rippleFire s = fireDue (actions s).length s := by
  have hrenew : renewPeriodic (fireDue (actions s).length s) = fireDue (actions s).length s := if_neg (by simp [hr])
  rw [rippleFire, hrenew, tryStart_noneWaits hj]

theorem rippleFire_none (h : ∀ a ∈ actions s, s.now < a.launch) (hr : s.still.regionSet = false) (hj : s.jobs.startRef = none) :
    rippleFire s = s := by
  have hdue : fireDue (actions s).length s = s := fireDue_none h _
  rw [rippleFire_quiet (by rw [hdue]; exact hr) (by rw [hdue]; exact hj), hdue]

/-! ### One action fires (R238, R239) -/

/-- The only action leaves Ripple, FIRED counts and LAST_TICK is its launch tick. -/
def takeAction (a : RippleAction) (s : State) : State :=
  setRipple (fun r => { r with
    actions := [], fired := r.fired + 1, lastTick := BitVec.ofNat 64 a.launch
    late := if a.late then satInc r.late else r.late }) s

theorem fireDue_single {a : RippleAction} (ha : s.time.ripple.actions = [a]) (hl : a.launch ≤ s.now) :
    fireDue (actions s).length s = fireWork a (takeAction a s) := by
  have hfire : fireOne 0 a s = fireWork a (takeAction a s) := by
    simp only [fireOne, takeAction, setRipple, ha, List.eraseIdx_zero, List.tail_cons]
  simp only [actions, ha, List.length_singleton, fireDue, firstDue_single hl, hfire]

/-- The snapshot schedule and the job, which decide what follows the actions of a tick. -/
def afterView (s : State) : Still × Jobs := (s.still, s.jobs)

/-- An action that leaves the snapshot schedule and the job alone is all that happens. -/
theorem rippleFire_single {a : RippleAction} {u : State} (ha : s.time.ripple.actions = [a]) (hl : a.launch ≤ s.now)
    (hr : s.still.regionSet = false) (hj : s.jobs.startRef = none) (hw : fireWork a (takeAction a s) = u)
    (hu : afterView u = afterView (takeAction a s)) : rippleFire s = u := by
  obtain ⟨hstill, hjobs⟩ := Prod.ext_iff.1 hu
  have hdue : fireDue (actions s).length s = u := (fireDue_single ha hl).trans hw
  refine (rippleFire_quiet ?_ ?_).trans hdue
  · rw [hdue]
    exact (congrArg Still.regionSet hstill).trans hr
  · rw [hdue]
    exact (congrArg Jobs.startRef hjobs).trans hj

end

/-! ### What the works leave alone -/

theorem afterView_finishAs (r : Ref) (ctx : Option Nat) (late : Bool) (st detail data : Nat) (s : State) :
    afterView (finishAs r ctx late st detail data s) = afterView s := by
  rw [finishAs_hostq]
  rfl

theorem afterView_actionDone (a : RippleAction) (detail data : Nat) (s : State) : afterView (actionDone a detail data s) = afterView s := by
  unfold actionDone
  split
  · exact afterView_finishAs _ _ _ _ _ _ s
  · rfl

theorem afterView_ruleDone (a : RippleAction) (s : State) : afterView (ruleDone a s) = afterView s := by
  unfold ruleDone
  split
  · exact afterView_finishAs _ _ _ _ _ _ s
  · rfl

theorem afterView_renewMismatch (m : Nat) (s : State) : afterView (renewMismatch m s) = afterView s := by
  unfold renewMismatch
  dsimp only
  split
  · rfl
  · split
    · simp [afterView]
    · rfl

theorem afterView_applyProxSep (x y d : Nat) (s : State) : afterView (applyProxSep x y d s) = afterView s :=
  foldl_keeps (fun s m => renewMismatch m s) afterView (fun s m => afterView_renewMismatch m s) _ _

theorem afterView_stepTrig (old new : Ns) (n : Nat) (s : State) : afterView (stepTrig old new n s) = afterView s := by
  unfold stepTrig
  dsimp only
  split
  · rfl
  · split
    · split <;> rfl
    · rfl

theorem afterView_setTrig (n : Nat) (f : TrigOut → TrigOut) (s : State) : afterView (setTrig n f s) = afterView s := rfl

theorem afterView_installSched (n : Nat) (d : TrigSched) (s : State) : afterView (installSched n d s) = afterView s := by
  simp only [installSched, apply_ite afterView, afterView_stepTrig, afterView_setTrig, ite_self]
  split <;> rfl

theorem afterView_startLane (l : Nat) (s : State) : afterView (startLane l s) = afterView s := by
  unfold startLane
  dsimp only
  split
  · rfl
  · split
    · rfl
    · split
      · rfl
      · split <;> rfl

theorem afterView_layerStart (i : Nat) (s : State) : afterView (layerStart i s) = afterView s := by
  unfold layerStart
  split
  · rfl
  · refine foldl_keeps _ afterView (fun u l => ?_) _ s
    exact afterView_startLane l _

/-! ### RIPPLE_CANCEL (R238) -/

/-- With no TRIG_OUT_STOP waiting, the end of a cancelled action's descriptor is all that its host sees of it. -/
theorem cancelDone_noStops {u : State} {a : RippleAction} {r : Ref} (hr : a.tk = some r) (hs : u.time.stops = []) :
    cancelDone a u = endWith r stReset u := by
  have hstops : { u with time := { u.time with stops := u.time.stops.filter fun x => x.1 != r } } = u := by
    rw [hs, List.filter_nil, ← hs]
  unfold cancelDone
  rw [hr]
  exact congrArg (endWith r stReset) hstops

section
variable {s : State} {n : Nat} {miss : UnitId} {a : RippleAction} (ha : (actions s)[n]? = some a)
include ha

theorem rippleCancel_notMissed (h : actionNames s miss a.work = false ∨ s.now + 200 < a.launch) : rippleCancel n miss s = s := by
  unfold rippleCancel
  rw [ha]
  refine if_pos ?_
  obtain h | h := h <;> simp [h]

theorem rippleCancel_firesAnyway (hn : actionNames s miss a.work = true) (hl : a.launch ≤ s.now + 200) (hf : a.work.firesAnyway = true) :
    rippleCancel n miss s =
      setRipple (fun r => { r with actions := r.actions.modify n fun a => { a with missing := a.missing ++ [miss] } }) s := by
  unfold rippleCancel
  rw [ha]
  exact (if_neg (by simp [hn, hl])).trans (if_pos hf)

theorem rippleCancel_trigOut {r : Ref} {k : Nat} {d : TrigSched} (hn : actionNames s miss a.work = true) (hl : a.launch ≤ s.now + 200)
    (hr : a.tk = some r) (hw : a.work = .trigOut k d) (hs : s.time.stops = []) : rippleCancel n miss s =
      raise 0x500D (natLE 1 7 ++ natLE 8 a.launch ++ natLE 1 miss.1 ++ natLE 1 miss.2) (endWith r stReset
        (setRipple (fun r => { r with actions := r.actions.eraseIdx n, cancelled := satInc r.cancelled }) s)) := by
  unfold rippleCancel
  rw [ha]
  refine (if_neg (by simp [hn, hl])).trans ((if_neg (by simp [hw, RippleWork.firesAnyway])).trans ?_)
  simp only [hw]
  rw [cancelDone_noStops hr (by exact hs)]
  rfl

end

/-- Settles O20: RIPPLE_FIRE by what is due and what the work of the action leaves alone, RIPPLE_CANCEL by the action it names. -/
theorem rippleActionsFireAndCancel : Obligations.RippleActionsFireAndCancel := by
  intro t s
  refine ⟨fun h hr hj => ?_, fun a ha hl hr hj => ?_, fun n u a ha => ⟨fun h => ?_, fun hn hl => ⟨fun hf => ?_, fun r k d hr hw hs => ?_⟩⟩⟩
  · exact congrArg Host.Outcome.next (rippleFire_none (s := passTo t s) h hr hj)
  · intro v
    have hfire : ∀ u, fireWork a v = u → afterView u = afterView v → exec (.rippleFire t) s = .next u :=
      fun u hw hu => congrArg Host.Outcome.next (rippleFire_single (s := passTo t s) ha hl hr hj hw hu)
    refine ⟨fun id hw => hfire _ ?_ rfl, fun i hw => hfire _ ?_ (afterView_layerStart i v), fun n d hw => hfire _ ?_ ?_,
      fun x y d hw => hfire _ ?_ ((afterView_ruleDone a _).trans (afterView_applyProxSep x y d v))⟩
    · simp only [fireWork, hw]
    · simp only [fireWork, hw]
    · simp only [fireWork, hw]
    · rw [afterView_actionDone, afterView_setTrig, afterView_installSched]
    · simp only [fireWork, hw]
  · exact congrArg Host.Outcome.next (rippleCancel_notMissed (s := passTo t s) ha h)
  · exact congrArg Host.Outcome.next (rippleCancel_firesAnyway (s := passTo t s) ha hn hl hf)
  · exact congrArg Host.Outcome.next (rippleCancel_trigOut (s := passTo t s) ha hn hl hr hw hs)

end Sys2Proof.Machine
end

section
/-! SUPPORT. What the commands of a Spring Link port make of the port and its nodes: training, loss, measurement, units and service
frames. -/

namespace Sys2Proof.Machine

/-! ### Ports that come up and go down (R271, R274, R275, R276) -/

theorem linkUp_none {s : State} {p : Nat} (h : (portOf s p).link = 0) : linkUp s p = false := by simp [linkUp, h]

theorem port_inUse {s : State} {p : Nat} (hp : p < s.variant.ports) (hu : linkUp s p = true) :
    ¬(decide (s.variant.ports ≤ p) || !linkUp s p) = true := by simp [hu, hp]

theorem port_notInUse {s : State} {p : Nat} (hd : linkUp s p = false) : (decide (s.variant.ports ≤ p) || !linkUp s p) = true := by
  simp [hd]

/-- A port that has trained: its transmitter has the values written for this training, and no hop is enumerated yet. -/
def portTrained (p : Nat) (s : State) : State :=
  raise 0x4001 (natLE 1 p) (setPort p (fun q => { q with
    link := 2, txSwing := q.swingNext, txDeemph := q.deemphNext, enumDone := false, enumHop := 0, enumPhase := .idle }) s)

theorem linkComesUp_trains {s : State} {p : Nat} (hp : p < s.variant.ports) (hd : linkUp s p = false)
    (hb : ∀ u ∈ s.power.blockReset, u ≠ (2, p)) : linkComesUp p s =
      let v := portTrained p s
      if mayEnumerate v p (nodeCount v p + 1) then discoverNext p v else v := by
  have held : s.power.blockReset.any (fun u => u == (2, p)) = false := List.any_eq_false.2 fun u hu => by simpa using hb u hu
  exact if_neg (by simp [held, hd, hp])

theorem linkComesUp_inUse {s : State} {p : Nat} (hu : linkUp s p = true) : linkComesUp p s = s := if_pos (by simp [hu])

/-- No port enumerates while the job is in EXPOSE (R276). -/
theorem mayEnumerate_expose {s : State} (hj : s.jobs.state = 2) (p h : Nat) : mayEnumerate s p h = false := by
  have hexpose : [2, 8].contains (jobState s) = true := (armOrExpose_iff s).2 (.inl hj)
  have hjob : jobExists s = true := (jobExists_iff s).2 (by rw [hj]; decide)
  rw [mayEnumerate, hexpose, hjob]
  exact Bool.and_false _

theorem linkComesUp_expose {s : State} {p : Nat} (hp : p < s.variant.ports) (hl : (portOf s p).link = 0) (hb : s.power.blockReset = [])
    (hj : s.jobs.state = 2) : linkComesUp p s = portTrained p s := by
  have hj' : (portTrained p s).jobs.state = 2 := by rw [portTrained, raise_jobs, setPort_jobs, hj]
  rw [linkComesUp_trains hp (linkUp_none hl) (by simp [hb])]
  exact if_neg (Bool.eq_false_iff.1 (mayEnumerate_expose hj' _ _))

theorem linkGoesDown_inUse {s : State} {p : Nat} (hp : p < s.variant.ports) (hu : linkUp s p = true) : linkGoesDown p s =
    loseFrom p 1 1 (raise 0x4002 (natLE 1 p)
      (setPort p (fun q => { q with link := 0, lockLosses := satInc q.lockLosses, svcOut := [] }) s)) :=
  if_neg (port_inUse hp hu)

theorem linkGoesDown_down {s : State} {p : Nat} (hd : linkUp s p = false) : linkGoesDown p s = s := if_pos (port_notInUse hd)

theorem hiBer_ownLink {s : State} {p : Nat} (hp : p < s.variant.ports) (hu : linkUp s p = true) : hiBer p 1 s =
    raise 0x4003 (natLE 1 p ++ natLE 1 1)
      (setPort p (fun q => { q with link := 3, hiBerEvents := satInc q.hiBerEvents, blockErr := satAdd q.blockErr 16 })
        { s with recorder := { s.recorder with blockErr := s.recorder.blockErr.modify p fun n => n + 16 } }) :=
  if_neg (port_inUse hp hu)

theorem hiBer_beyond {s : State} {p h : Nat} (hp : p < s.variant.ports) (hu : linkUp s p = true) (hh : h ≠ 1) :
    hiBer p h s = raise 0x4003 (natLE 1 p ++ natLE 1 h) s :=
  (if_neg (port_inUse hp hu)).trans (congrArg (raise 0x4003 _) (if_neg hh))

theorem hiBer_down {s : State} {p : Nat} (hd : linkUp s p = false) (h : Nat) : hiBer p h s = s := if_pos (port_notInUse hd)

/-! ### LINKDN and unknown blocks (R249, R275) -/

theorem linkdnBlock_lost {s : State} {p h : Nat} (hp : p < s.variant.ports) (hn : (nodeOf s p h).present = true) :
    linkdnBlock p 0xB3 h 1 s = loseFrom p (h + 1) 2 (setNode p h (fun n => { n with lastUnit := s.now }) s) :=
  (if_pos rfl).trans (if_neg (by simp [hn, hp]))

theorem linkdnBlock_otherReason {r : Nat} (hr : r ≠ 1) (p h : Nat) (s : State) : linkdnBlock p 0xB3 h r s = s :=
  (if_pos rfl).trans (if_pos (by simp [hr]))

theorem linkdnBlock_unknown {s : State} {p b : Nat} (hp : p < s.variant.ports) (hu : linkUp s p = true)
    (hb : blockTypes.contains b = false) (h r : Nat) : linkdnBlock p b h r s =
      setPort p (fun q => { q with unknownBlocks := satInc q.unknownBlocks }) s := by
  have notLinkdn : b ≠ 0xB3 := by
    rintro rfl
    exact absurd hb (by decide)
  exact (if_neg notLinkdn).trans (if_neg (by rw [hb, Bool.or_false]; exact port_inUse hp hu))

/-! ### NODE_SILENCE (R275; log 183, the model's choice, for a node without beams) -/

theorem silentAt_beams {n : Node} (hb : 0 < n.ident.beams) (h : Nat) : silentAt n h = n.lastUnit + 8000 :=
  if_neg (Nat.ne_of_gt hb)

theorem nodeSilence_due {s : State} {p h : Nat} (hp : p < s.variant.ports) (hn : (nodeOf s p h).present = true)
    (hd : silentAt (nodeOf s p h) h ≤ s.now) : nodeSilence p h s = loseFrom p h 3 s :=
  if_neg (by simp [hn, hp, hd])

theorem nodeSilence_early {s : State} {p h : Nat} (hd : s.now < silentAt (nodeOf s p h) h) : nodeSilence p h s = s :=
  if_pos (by simp [hd])

/-! ### ENUMERATION (R272) -/

theorem enumeration_atIt {s : State} {p : Nat} (hi : (portOf s p).enumPhase ≠ .idle) : enumeration p s = s := if_pos (by simp [hi])

theorem enumeration_idle {s : State} {p : Nat} (hp : p < s.variant.ports) (hi : (portOf s p).enumPhase = .idle)
    (hm : mayEnumerate s p (nodeCount s p + 1) = true) : enumeration p s = sendReq p 0x1E 0x01 [] none 0
      (setPort p (fun q => { q with enumHop := nodeCount s p + 1, enumPhase := .discover, enumDone := false }) s) :=
  (if_neg (by simp [hi, hm, hp])).trans (discoverNext_asks hm)

/-! ### A port and a node after a change -/

/-- What a change of a port keeps of every port, it keeps of each. -/
theorem portOf_setPort_of_keeps {β : Type} {f : Port → Port} (g : Port → β) (s : State) (p k : Nat)
    (hk : ∀ q, g (f q) = g q := by exact fun _ => rfl) : g (portOf (setPort p f s) k) = g (portOf s k) :=
  unit_modUnit_of_keeps hk s.link.ports p k .reset

/-- What a change of a node keeps of every node, it keeps of each. -/
theorem nodeOf_setNode_of_keeps {β : Type} {f : Node → Node} (g : Node → β) (s : State) (p k h : Nat)
    (hk : ∀ n, g (f n) = g n := by exact fun _ => rfl) : g (nodeOf (setNode p k f s) p h) = g (nodeOf s p h) := by
  by_cases h0 : h = 0
  · rw [nodeOf, nodeOf, if_pos h0, if_pos h0]
  · rw [nodeOf, nodeOf, if_neg h0, if_neg h0]
    exact portOf_setPort_of_keeps (fun q => g (unit q.nodes (h - 1) .reset)) s p p
      fun q => unit_modUnit_of_keeps hk q.nodes (k - 1) (h - 1) .reset

theorem nodes_setNode {s : State} {p : Nat} (hp : p < s.link.ports.length) (h : Nat) (f : Node → Node) :
    (portOf (setNode p h f s) p).nodes = modUnit (portOf s p).nodes (h - 1) f :=
  congrArg Port.nodes (unit_modUnit_same hp _ _)

theorem nodeOf_setNode_same {s : State} {p h : Nat} (hh : 1 ≤ h) (hp : p < s.link.ports.length) (hn : h - 1 < (portOf s p).nodes.length)
    (f : Node → Node) : nodeOf (setNode p h f s) p h = f (nodeOf s p h) := by
  rw [nodeOf, nodeOf, if_neg (Nat.ne_of_gt hh), if_neg (Nat.ne_of_gt hh), nodes_setNode hp]
  exact unit_modUnit_same hn f .reset

/-- A hop beyond the nodes of a port has no node. -/
theorem nodeOf_beyond {s : State} {p h : Nat} (hn : (portOf s p).nodes.length ≤ h - 1) : nodeOf s p h = .reset := by
  rw [nodeOf, unit, List.getD_eq_default _ _ hn, ite_self]

theorem setNode_setNode (p h : Nat) (f g : Node → Node) (s : State) : setNode p h f (setNode p h g s) = setNode p h (f ∘ g) s := by
  simp [setNode, setPort, modUnit, List.modify_modify_eq, Function.comp_def]

/-! ### DELAY_MEASURE (R263, R265) -/

theorem delayMeasure_inUse {s : State} {p : Nat} (hp : p < s.variant.ports) (hu : linkUp s p = true) : delayMeasure p s =
    (List.range 16).foldl (fun u k => if (nodeOf u p (k + 1)).present then startMeasure p (k + 1) u else u) s :=
  if_neg (port_inUse hp hu)

/-- What goes onto a port's line leaves its nodes as they are. -/
theorem nodeOf_putLine (p h : Nat) (bs : List Block66) (s : State) : nodeOf (putLine p bs s) p h = nodeOf s p h := by
  have hnodes : (portOf (putLine p bs s) p).nodes = (portOf s p).nodes := portOf_setPort_of_keeps Port.nodes s p p
  rw [nodeOf, nodeOf, hnodes]

theorem present_startMeasure (s : State) (p k h : Nat) : (nodeOf (startMeasure p k s) p h).present = (nodeOf s p h).present :=
  (congrArg Node.present (nodeOf_putLine p h _ _)).trans (nodeOf_setNode_of_keeps Node.present s p k h)

/-- A port without a node beyond its first asks that one alone. -/
theorem delayMeasure_firstOnly {s : State} {p : Nat} (hp : p < s.variant.ports) (hu : linkUp s p = true)
    (h1 : (nodeOf s p 1).present = true) (hfar : ∀ h, 2 ≤ h → (nodeOf s p h).present = false) :
    delayMeasure p s = startMeasure p 1 s := by
  have beyond (k : Nat) : ¬(nodeOf (startMeasure p 1 s) p (k + 1 + 1)).present = true := by
    rw [present_startMeasure, hfar _ (Nat.le_add_left 2 k)]
    exact Bool.false_ne_true
  rw [delayMeasure_inUse hp hu, List.range_succ_eq_map, List.foldl_cons, if_pos h1, List.foldl_map]
  exact List.foldl_fixed' (fun k => if_neg (beyond k)) _

/-! ### ECHO_RECEIVE (R263) -/

/-- The CRC-8 of an echo. -/
def echoCrc (h seq : Nat) : Nat := crc8 (natLE 1 0xB2 ++ natLE 1 h ++ natLE 1 seq)

/-- The round trip of one more echo is kept. -/
def echoKept (p h rtt : Nat) (s : State) : State := setNode p h (fun n => { n with measured := n.measured ++ [rtt] }) s

theorem echoReceive_badCrc {h seq crc : Nat} (hc : crc ≠ echoCrc h seq) (p rtt : Nat) (s : State) : echoReceive p h seq crc rtt s = s :=
  if_pos (Bool.or_eq_true_iff.2 (.inr (bne_iff_ne.2 hc)))

theorem echoReceive_good {s : State} {p h : Nat} (hp : p < s.variant.ports) (hm : measuring s p h = true) (seq rtt : Nat) :
    echoReceive p h seq (echoCrc h seq) rtt s =
      let u := echoKept p h rtt s
      if 64 ≤ (nodeOf u p h).measured.length then measured p h u else u :=
  if_neg (by simp [hm, hp, echoCrc])

theorem echoes_echoKept {s : State} {p h : Nat} (hh : 1 ≤ h) (hl : p < s.link.ports.length) (hn : h - 1 < (portOf s p).nodes.length)
    (rtt : Nat) : (nodeOf (echoKept p h rtt s) p h).measured.length = (nodeOf s p h).measured.length + 1 := by
  rw [echoKept, nodeOf_setNode_same hh hl hn]
  exact List.length_append

theorem echoReceive_more {s : State} {p h : Nat} (hh : 1 ≤ h) (hp : p < s.variant.ports) (hl : p < s.link.ports.length)
    (hm : measuring s p h = true) (h63 : (nodeOf s p h).measured.length < 63) (seq rtt : Nat) :
    echoReceive p h seq (echoCrc h seq) rtt s = echoKept p h rtt s := by
  have few : (nodeOf (echoKept p h rtt s) p h).measured.length < 64 := by
    by_cases hn : h - 1 < (portOf s p).nodes.length
    · rw [echoes_echoKept hh hl hn]
      omega
    · have hlen : (portOf (echoKept p h rtt s) p).nodes.length = (portOf s p).nodes.length := by
        rw [echoKept, nodes_setNode hl, modUnit, List.length_modify]
      rw [nodeOf_beyond (hlen.trans_le (Nat.not_lt.1 hn))]
      decide
  exact (echoReceive_good hp hm seq rtt).trans (if_neg (Nat.not_le.2 few))

theorem echoReceive_last {s : State} {p h : Nat} (hh : 1 ≤ h) (hp : p < s.variant.ports) (hl : p < s.link.ports.length)
    (hn : h - 1 < (portOf s p).nodes.length) (hm : measuring s p h = true) (h63 : (nodeOf s p h).measured.length = 63) (seq rtt : Nat) :
    echoReceive p h seq (echoCrc h seq) rtt s = measured p h (echoKept p h rtt s) := by
  have all : 64 ≤ (nodeOf (echoKept p h rtt s) p h).measured.length := by rw [echoes_echoKept hh hl hn, h63]
  exact (echoReceive_good hp hm seq rtt).trans (if_pos all)

/-! ### NODE_UNIT_RECEIVE (R256) -/

/-- The CRC-8 of a NODE unit. -/
def nodeUnitCrc (src cycle status inputs : Nat) : Nat :=
  crc8 (natLE 1 0xB4 ++ natLE 1 src ++ natLE 1 cycle ++ natLE 4 status ++ natLE 8 inputs)

/-- What a NODE unit brings besides its status: its node is heard, and an IO node's inputs. -/
def nodeHeard (p h inputs : Nat) (s : State) : State :=
  setNode p h (fun n => { n with
    lastUnit := s.now, inputs := if (nodeOf s p h).ident.cls = 2 then BitVec.ofNat 64 inputs else n.inputs }) s

theorem nodeUnit_badCrc {src cy crc st i : Nat} (hc : crc ≠ nodeUnitCrc src cy st i) (p : Nat) (s : State) :
    nodeUnit p src cy crc st i s = s :=
  if_pos (Bool.or_eq_true_iff.2 (.inr (bne_iff_ne.2 hc)))

theorem nodeUnit_good {s : State} {p src : Nat} (hp : p < s.variant.ports) (hn : (nodeOf s p (src % 16 + 1)).present = true)
    (hb : (nodeOf s p (src % 16 + 1)).ident.beams = 0) (cy st i : Nat) :
    nodeUnit p src cy (nodeUnitCrc src cy st i) st i s = nodeStatus p (src % 16 + 1) st (nodeHeard p (src % 16 + 1) i s) :=
  if_neg (by simp [hn, hp, hb, nodeUnitCrc])

/-- A status with the FAULT bit as before raises nothing. -/
theorem nodeStatus_sameFault {s : State} {p h st : Nat} (hf : bit (nodeOf s p h).status.toNat 0 = bit st 0) :
    nodeStatus p h st s = setNode p h (fun n => { n with status := BitVec.ofNat 32 st }) s :=
  if_neg (by simp [hf])

theorem nodeStatus_nodeHeard {s : State} {p h st : Nat} (hf : bit (nodeOf s p h).status.toNat 0 = bit st 0) (i : Nat) :
    nodeStatus p h st (nodeHeard p h i s) = setNode p h (fun n => { n with
      lastUnit := s.now, status := BitVec.ofNat 32 st
      inputs := if (nodeOf s p h).ident.cls = 2 then BitVec.ofNat 64 i else n.inputs }) s := by
  have kept : (nodeOf (nodeHeard p h i s) p h).status = (nodeOf s p h).status := nodeOf_setNode_of_keeps Node.status s p h h
  rw [nodeStatus_sameFault (by rw [kept, hf]), nodeHeard, setNode_setNode]
  rfl

/-! ### SERVICE_FRAME_RECEIVE (R266, R267, R274) -/

theorem serviceFrame_badCrc {s : State} {p : Nat} {b : List Byte} (hp : p < s.variant.ports) (hg : frameGood b = false) (h : Nat) :
    serviceFrame p h b s = setPort p (fun q => { q with svcCrcErr := satInc q.svcCrcErr }) s :=
  (if_neg (Nat.not_le.2 hp)).trans (if_pos (by simp [hg]))

/-- A frame of a node with beams shows that its node is there. -/
def frameHeard (p h : Nat) (s : State) : State :=
  if (nodeOf s p h).ident.beams = 0 then s else setNode p h (fun n => { n with lastUnit := s.now }) s

theorem reqs_frameHeard (p h : Nat) (s : State) : (frameHeard p h s).link.reqs = s.link.reqs := by
  unfold frameHeard
  split <;> rfl

/-- The payload of a service frame. -/
def framePayload (b : List Byte) : List Byte := (b.drop 8).take (field b 4 2)

section
variable {s : State} {p h : Nat} {b : List Byte} (hp : p < s.variant.ports) (hg : frameGood b = true) (hh : h ≠ 0x1E)
  (hn : (nodeOf s p h).present = true)
include hp hg hh hn

theorem serviceFrame_good : serviceFrame p h b s =
    if bit (field b 3 1) 0 then
      match (frameHeard p h s).link.reqs.find? fun q => q.port = p && q.seq = field b 6 2 && (q.hop = h || q.hop = 0x1E) with
      | some q => answered q (framePayload b) (frameHeard p h s)
      | none => frameHeard p h s
    else nodeFrame p h (field b 2 1) (framePayload b) (frameHeard p h s) := by
  have heard : (if (nodeOf s p h).present && (nodeOf s p h).ident.beams != 0 && h != 0x1E
      then setNode p h (fun n => { n with lastUnit := s.now }) s else s) = frameHeard p h s := by
    simp [frameHeard, hn, hh]
  unfold serviceFrame
  rw [if_neg (Nat.not_le.2 hp), if_neg (by simp [hg])]
  simp only [heard]
  rfl

theorem serviceFrame_ofItself (hb : bit (field b 3 1) 0 = false) :
    serviceFrame p h b s = nodeFrame p h (field b 2 1) (framePayload b) (frameHeard p h s) :=
  (serviceFrame_good hp hg hh hn).trans (if_neg (Bool.eq_false_iff.1 hb))

theorem serviceFrame_answer (hb : bit (field b 3 1) 0 = true) {q : SvcReq} (hq : s.link.reqs = [q]) (hqp : q.port = p) (hqh : q.hop = h)
    (hqs : q.seq = field b 6 2) : serviceFrame p h b s = answered q (framePayload b) (frameHeard p h s) := by
  have found : (frameHeard p h s).link.reqs.find? (fun q => q.port = p && q.seq = field b 6 2 && (q.hop = h || q.hop = 0x1E)) =
      some q := by
    rw [reqs_frameHeard, hq]
    exact List.find?_cons_of_pos (by simp [hqp, hqh, hqs])
  rw [serviceFrame_good hp hg hh hn, if_pos hb, found]

end

/-- An answer to a descriptor's request reaches its descriptor. -/
theorem answered_host {q : SvcReq} {r : Ref} (hr : q.ref = some r) (pl : List Byte) (s : State) :
    answered q pl s = answerHost q r (field pl 0 1) (pl.drop 1) (dropReq q s) := by
  simp only [answered, hr]

/-! ### SERVICE_RETRY and SERVICE_TIMEOUT (R267) -/

section
variable {s : State} {r : SvcReq} (hr : s.link.reqs = [r])
include hr

theorem serviceRetry_due (hd : r.sent + 5000000 ≤ s.now) (h1 : r.retried = false) : serviceRetry r.seq s =
    sendFrame r.port r.hop (svcFrame r.hop 0 r.type 0 r.seq r.payload)
      (setLink (fun k => { k with reqs := [{ r with retried := true }] }) s) := by
  have due : s.link.reqs.find? (fun q => q.seq = r.seq && !q.retried && decide (q.sent + 5000000 ≤ s.now)) = some r := by
    rw [hr]
    exact List.find?_cons_of_pos (by simp [hd, h1])
  have marked : s.link.reqs.map (fun q => if q = r then { q with retried := true } else q) = [{ r with retried := true }] := by
    simp [hr]
  rw [serviceRetry, due]
  simp only [setLink, marked]

theorem serviceRetry_again (h1 : r.retried = true) : serviceRetry r.seq s = s := by
  have none_due : s.link.reqs.find? (fun q => q.seq = r.seq && !q.retried && decide (q.sent + 5000000 ≤ s.now)) = none := by
    simp [hr, h1]
  rw [serviceRetry, none_due]

theorem serviceTimeout_early (hd : s.now < r.sent + 10000000) : serviceTimeout r.seq s = s := by
  have none_due : s.link.reqs.find? (fun q => q.seq = r.seq && decide (q.sent + 10000000 ≤ s.now)) = none := by
    simp [hr, hd]
  rw [serviceTimeout, none_due]

theorem serviceTimeout_host {f : Ref} (hf : r.ref = some f) (hd : r.sent + 10000000 ≤ s.now) : serviceTimeout r.seq s =
    endWith f stTimeout (setPort r.port (fun x => { x with svcTimeouts := satInc x.svcTimeouts })
      { s with link := { s.link with reqs := [] } }) := by
  have due : s.link.reqs.find? (fun q => q.seq = r.seq && decide (q.sent + 10000000 ≤ s.now)) = some r := by
    rw [hr]
    exact List.find?_cons_of_pos (by simp [hd])
  have dropped : dropReq r s = { s with link := { s.link with reqs := [] } } := by simp [dropReq, setLink, hr]
  rw [serviceTimeout, due]
  simp only [hf, dropped]

end

/-- Settles O21: each command acts on the state at its time, as the lemma of its port, node, unit or frame says. -/
theorem portsAndNodesComeAndGo : Obligations.PortsAndNodesComeAndGo := by
  intro t p s hp
  refine ⟨fun hl hb hj => ?_, fun hd hb => ?_, fun hu => ⟨?_, ?_, fun h hh => ?_, ?_⟩, fun hl => ⟨?_, ?_⟩,
    fun h hn => ⟨?_, fun r hr => ?_⟩, fun b h r hu hb => ?_, fun h hn _ => ⟨fun hd => ?_, fun hd => ?_⟩,
    fun h hn hb => ⟨fun hd => ?_, fun hd => ?_⟩, fun hi => ?_, fun hi hm => ?_, fun hu => ?_, fun hu h1 hfar => ?_,
    fun h q r hh _ hm h63 hl => ?_, fun h q r hh h16 hm h63 hl hlen => ?_, fun h q c r hc => ?_, fun src cy crc st i hc => ?_,
    fun src cy st i hn hb hf => ?_, fun src cy st i hn hb => ?_,
    fun h b hg hh hn => ⟨fun hb => ?_, fun q hq hqp hqh hqs hb => ?_⟩, fun h b q r hg hh hn hb hq hqp hqh hqs hr => ?_,
    fun h b hg => ?_, fun r hr => ⟨fun hd h1 => ?_, fun h1 => ?_, fun hd => ?_, fun f hf hd => ?_⟩⟩
  all_goals refine congrArg Host.Outcome.next ?_
  · exact linkComesUp_expose (s := passTo t s) hp hl hb hj
  · exact linkComesUp_trains (s := passTo t s) hp hd hb
  · exact linkComesUp_inUse (s := passTo t s) hu
  · exact linkGoesDown_inUse (s := passTo t s) hp hu
  · exact hiBer_beyond (s := passTo t s) hp hu hh
  · exact hiBer_ownLink (s := passTo t s) hp hu
  · exact linkGoesDown_down (s := passTo t s) (linkUp_none hl)
  · exact hiBer_down (s := passTo t s) (linkUp_none hl) 1
  · exact linkdnBlock_lost (s := passTo t s) hp hn
  · exact linkdnBlock_otherReason hr p h (passTo t s)
  · exact linkdnBlock_unknown (s := passTo t s) hp hu hb h r
  · exact nodeSilence_due (s := passTo t s) hp hn hd
  · exact nodeSilence_early (s := passTo t s) hd
  · exact nodeSilence_due (s := passTo t s) hp hn ((silentAt_beams hb h).trans_le hd)
  · exact nodeSilence_early (s := passTo t s) (hd.trans_eq (silentAt_beams hb h).symm)
  · exact enumeration_atIt (s := passTo t s) hi
  · exact enumeration_idle (s := passTo t s) hp hi hm
  · exact delayMeasure_inUse (s := passTo t s) hp hu
  · exact delayMeasure_firstOnly (s := passTo t s) hp hu h1 hfar
  · exact echoReceive_more (s := passTo t s) hh hp hl hm h63 q r
  · have hnode : h - 1 < (portOf s p).nodes.length := by omega
    exact echoReceive_last (s := passTo t s) hh hp hl hnode hm h63 q r
  · exact echoReceive_badCrc hc p r (passTo t s)
  · exact nodeUnit_badCrc hc p (passTo t s)
  · exact (nodeUnit_good (s := passTo t s) hp hn hb cy st i).trans (nodeStatus_nodeHeard (s := passTo t s) hf i)
  · exact nodeUnit_good (s := passTo t s) hp hn hb cy st i
  · exact serviceFrame_ofItself (s := passTo t s) hp hg hh hn hb
  · exact serviceFrame_answer (s := passTo t s) hp hg hh hn hb hq hqp hqh hqs
  · exact (serviceFrame_answer (s := passTo t s) hp hg hh hn hb hq hqp hqh hqs).trans (answered_host hr _ _)
  · exact serviceFrame_badCrc (s := passTo t s) hp hg h
  · exact serviceRetry_due (s := passTo t s) hr hd h1
  · exact serviceRetry_again (s := passTo t s) hr h1
  · exact serviceTimeout_early (s := passTo t s) hr hd
  · exact serviceTimeout_host (s := passTo t s) hr hf hd

end Sys2Proof.Machine
end

section
/-! SUPPORT. The decoder reads back what the encoder writes: the fields of a layout, then the opcodes. -/

namespace Sys2Proof

open Machine

/-! ### The fields of a layout (R299, R301) -/

/-- Every field begins where the one before it has ended, or later, and all end within the 48 operand bytes; `lo` is where the first may
begin. -/
def risingFrom : Nat → List (Nat × Nat × Nat) → Bool
  | lo, [] => decide (lo ≤ 48)
  | lo, f :: fs => decide (lo ≤ f.1) && risingFrom (f.1 + f.2.1) fs

theorem risingFrom_end_le {fs : List (Nat × Nat × Nat)} {lo : Nat} (h : risingFrom lo fs = true) : lo ≤ 48 := by
  induction fs generalizing lo with
  | nil => simpa [risingFrom] using h
  | cons f fs ih =>
    simp only [risingFrom, Bool.and_eq_true, decide_eq_true_eq] at h
    have := ih h.2
    omega

/-- Every field of a rising layout lies between its start and the end of the operand bytes. -/
theorem risingFrom_bounds {fs : List (Nat × Nat × Nat)} {lo : Nat} (h : risingFrom lo fs = true) {f : Nat × Nat × Nat} (hf : f ∈ fs) :
    lo ≤ f.1 ∧ f.1 + f.2.1 ≤ 48 := by
  induction fs generalizing lo with
  | nil => cases hf
  | cons g gs ih =>
    simp only [risingFrom, Bool.and_eq_true, decide_eq_true_eq] at h
    obtain ⟨hlo, hgs⟩ := h
    rcases List.mem_cons.1 hf with rfl | hf
    · exact ⟨hlo, risingFrom_end_le hgs⟩
    · have := ih hgs hf
      omega

/-- The bytes of a field of a rising layout are the field's own. -/
theorem layoutByte_of_mem {fs : List (Nat × Nat × Nat)} {lo : Nat} (h : risingFrom lo fs = true) {f : Nat × Nat × Nat} (hf : f ∈ fs)
    {k : Nat} (hk : k < f.2.1) : layoutByte fs (f.1 + k) = BitVec.ofNat 8 (f.2.2 / 256 ^ k) := by
  induction fs generalizing lo with
  | nil => cases hf
  | cons g gs ih =>
    simp only [risingFrom, Bool.and_eq_true, decide_eq_true_eq] at h
    obtain ⟨hlo, hgs⟩ := h
    rcases List.mem_cons.1 hf with rfl | hf
    · simp [layoutByte, hk]
    · have hpast : ¬ f.1 + k < g.1 + g.2.1 := by
        have := (risingFrom_bounds hgs hf).1
        omega
      rw [← ih hgs hf]
      simp [layoutByte, hpast]

/-- Every byte that a field covers lies in one of the ranges. -/
def within (used : List (Nat × Nat)) (fs : List (Nat × Nat × Nat)) : Bool :=
  (List.range 48).all fun k => !(fs.any fun f => decide (f.1 ≤ k) && decide (k < f.1 + f.2.1)) ||
    used.any fun u => decide (u.1 ≤ k) && decide (k < u.1 + u.2)

/-- Operand bytes that hold the given fields and 0 everywhere else. -/
structure Holds (fs : List (Nat × Nat × Nat)) (o : List Byte) : Prop where
  length : o.length = 48
  reads : ∀ f ∈ fs, field o f.1 f.2.1 = f.2.2
  only : ∀ used, within used fs = true → onlyIn used o = true

/-- A rising layout of numbers that fit their fields holds them. -/
theorem holds_layout {fs : List (Nat × Nat × Nat)} (hr : risingFrom 0 fs = true) (hv : ∀ f ∈ fs, f.2.2 < 256 ^ f.2.1) :
    Holds fs (layout 48 fs) where
  length := layout_length 48 fs
  reads _ hf := field_layout_fits (risingFrom_bounds hr hf).2 (hv _ hf) fun _ hk => layoutByte_of_mem hr hf hk
  only used h := onlyIn_layout fun k hk hc => by
    have := List.all_eq_true.1 h k (List.mem_range.2 hk)
    rwa [hc, Bool.not_true, Bool.false_or] at this

/-- Operands within the ranges of their command spell it where its flags have no reserved bit set. -/
theorem Holds.operands {fs : List (Nat × Nat × Nat)} {o : List Byte} (ho : Holds fs o) {used : List (Nat × Nat)}
    (hu : within used fs = true) (ok : Bool) (i : Instr) : operands used ok o i = if ok then some i else none := by
  simp [Sys2Proof.operands, ho.only used hu]

/-! ### Numbers as they stand in a field (R8) -/

theorem fitsU_iff {n v : Nat} : fitsU n v = true ↔ v < 256 ^ n := by
  rw [fitsU, decide_eq_true_eq, Nat.pow_mul]

theorem twos_lt (n : Nat) (v : Int) : twos n v < 256 ^ n := by
  have hpos : (0 : Int) < ((256 ^ n : Nat) : Int) := by positivity
  have := Int.emod_nonneg v hpos.ne'
  have := Int.emod_lt_of_pos v hpos
  rw [twos]
  omega

/-- A number in the range of a two's complement field is read back from it. -/
theorem signExt_twos {n w : Nat} {v : Int} (hw : 8 * n = w + 1) (h : fitsS n v = true) : signExt (w + 1) (twos n v) = v := by
  have h256 : 256 ^ n = 2 * 2 ^ w := by rw [show 256 = 2 ^ 8 from rfl, ← Nat.pow_mul, hw, Nat.pow_succ, Nat.mul_comm]
  have hlt := twos_lt n v
  simp only [fitsS, hw, Nat.add_sub_cancel, Bool.and_eq_true, decide_eq_true_eq] at h
  have hval : ((twos n v : Nat) : Int) = v % ((2 * 2 ^ w : Nat) : Int) := by
    rw [twos, ← h256, Int.toNat_of_nonneg (Int.emod_nonneg _ (by positivity))]
  rw [signExt, Nat.pow_succ, Nat.mul_comm (2 ^ w), ← h256, Nat.mod_eq_of_lt hlt, h256]
  generalize 2 ^ w = m at *
  by_cases hv : 0 ≤ v
  · rw [Int.emod_eq_of_lt hv (by omega)] at hval
    split <;> omega
  · rw [← Int.add_emod_right, Int.emod_eq_of_lt (by omega) (by omega)] at hval
    split <;> omega

theorem toNat_lt_pow {w n : Nat} (x : BitVec w) (hw : w ≤ 8 * n) : x.toNat < 256 ^ n := by
  rw [show 256 = 2 ^ 8 from rfl, ← Nat.pow_mul]
  exact x.isLt.trans_le (Nat.pow_le_pow_right (by decide) hw)

theorem leNat_lt (bs : List Byte) : leNat bs < 256 ^ bs.length := by
  induction bs with
  | nil => simp [leNat]
  | cons b bs ih =>
    have := b.isLt
    rw [leNat, List.length_cons, Nat.pow_succ]
    omega

/-- Two strings of bytes of one length that spell one number are the same. -/
theorem leNat_inj {a b : List Byte} (hl : a.length = b.length) (h : leNat a = leNat b) : a = b := by
  induction a generalizing b with
  | nil => exact (List.eq_nil_of_length_eq_zero hl.symm).symm
  | cons x xs ih =>
    obtain _ | ⟨y, ys⟩ := b
    · cases hl
    · have hx := x.isLt
      have hy := y.isLt
      simp only [leNat] at h
      rw [BitVec.eq_of_toNat_eq (show x.toNat = y.toNat by omega), ih (Nat.succ.inj hl) (by omega)]

/-! ### Flags -/

theorem flag_read (a : Bool) : b1 a < 2 ∧ bit (b1 a) 0 = a := by cases a <;> decide

theorem flags2_read (a b : Bool) : b1 a + 2 * b1 b < 4 ∧ bit (b1 a + 2 * b1 b) 0 = a ∧ bit (b1 a + 2 * b1 b) 1 = b := by
  cases a <;> cases b <;> decide

theorem flags3_read (a b c : Bool) : b1 a + 2 * b1 b + 4 * b1 c < 8 ∧ bit (b1 a + 2 * b1 b + 4 * b1 c) 0 = a ∧
    bit (b1 a + 2 * b1 b + 4 * b1 c) 1 = b ∧ bit (b1 a + 2 * b1 b + 4 * b1 c) 2 = c := by
  cases a <;> cases b <;> cases c <;> decide

/-- DOWN and SOURCE of AXIS_HOME stand in one byte (R416). -/
theorem homeFlags_read (a : Bool) {v : Nat} (hv : v < 4) :
    b1 a + 2 * v < 8 ∧ bit (b1 a + 2 * v) 0 = a ∧ bits (b1 a + 2 * v) 1 2 = v := by
  interval_cases v <;> cases a <;> decide

/-! ### The operands of each opcode -/

/-- The fields of SPL_IO_WRITE (R278). -/
def ioWriteFields (node : Nat) (es : List (Nat × Nat)) (launch : Nat) : List (Nat × Nat × Nat) :=
  [(0, 4, node), (4, 1, es.length), (8, 8, launch)] ++ ioFields es

/-- SPL_IO_WRITE has none to four entries. -/
theorem ioWf_cases {es : List (Nat × Nat)} (h : ioWf es = true) :
    es = [] ∨ (∃ a, es = [a]) ∨ (∃ a b, es = [a, b]) ∨ (∃ a b c, es = [a, b, c]) ∨ ∃ a b c d, es = [a, b, c, d] := by
  obtain _ | ⟨a, _ | ⟨b, _ | ⟨c, _ | ⟨d, _ | ⟨e, es⟩⟩⟩⟩⟩ := es
  · exact .inl rfl
  · exact .inr (.inl ⟨a, rfl⟩)
  · exact .inr (.inr (.inl ⟨a, b, rfl⟩))
  · exact .inr (.inr (.inr (.inl ⟨a, b, c, rfl⟩)))
  · exact .inr (.inr (.inr (.inr ⟨a, b, c, d, rfl⟩)))
  · exact absurd h (by simp [ioWf])

theorem ioWrite_fit {h : Hdr} {node launch : Nat} {es : List (Nat × Nat)} (hw : (Instr.splIoWrite h node es launch).wf = true) :
    risingFrom 0 (ioWriteFields node es launch) = true ∧ ∀ f ∈ ioWriteFields node es launch, f.2.2 < 256 ^ f.2.1 := by
  simp only [Instr.wf, Bool.and_eq_true] at hw
  obtain ⟨⟨⟨-, hn⟩, he⟩, hl⟩ := hw
  rw [fitsU_iff] at hn hl
  obtain rfl | ⟨a, rfl⟩ | ⟨a, b, rfl⟩ | ⟨a, b, c, rfl⟩ | ⟨a, b, c, d, rfl⟩ := ioWf_cases he
  all_goals
    refine ⟨rfl, ?_⟩
    simp only [ioWf, fitsU_iff, Bool.and_eq_true, List.all_cons] at he
    simp only [ioWriteFields, ioFields, List.zipIdx, List.flatMap_cons, List.flatMap_nil, List.cons_append, List.nil_append,
      List.forall_mem_cons, List.length_cons, List.length_nil, List.not_mem_nil, false_imp_iff, implies_true, and_true]
    omega

theorem ioWrite_spelt {h : Hdr} {node launch : Nat} {es : List (Nat × Nat)} {o : List Byte}
    (hw : (Instr.splIoWrite h node es launch).wf = true) (ho : Holds (ioWriteFields node es launch) o) :
    decodePartners h 0xB0 o = some (.splIoWrite h node es launch) := by
  simp only [Instr.wf, Bool.and_eq_true] at hw
  obtain ⟨⟨⟨-, hn⟩, he⟩, hl⟩ := hw
  have hr := ho.reads
  have hc : field o 4 1 = es.length := hr (4, 1, es.length) (by simp [ioWriteFields])
  show operands [(0, 5), (8, 8), (16, 6 * field o 4 1)] (decide (field o 4 1 ≤ 4)) o _ = _
  rw [hc]
  obtain rfl | ⟨a, rfl⟩ | ⟨a, b, rfl⟩ | ⟨a, b, c, rfl⟩ | ⟨a, b, c, d, rfl⟩ := ioWf_cases he
  all_goals
    refine (ho.operands ?_ _ _).trans ?_
    · rfl
    simp only [ioWriteFields, ioFields, List.zipIdx, List.flatMap_cons, List.flatMap_nil, List.cons_append, List.nil_append,
      List.forall_mem_cons, List.length_cons, List.length_nil, List.not_mem_nil, false_imp_iff, implies_true, and_true] at hr
    simp [ioEntries, hr, List.range_succ]

/-- The fields of a well-formed command rise and hold their numbers. -/
theorem descriptorFields_fit {i : Instr} {h : Hdr} {op : Nat} {fs : List (Nat × Nat × Nat)} (hw : i.wf = true)
    (hf : descriptorFields i = some (h, op, fs)) : op < 256 ∧ risingFrom 0 fs = true ∧ ∀ f ∈ fs, f.2.2 < 256 ^ f.2.1 := by
  have flag (a : Bool) : b1 a < 256 ^ 1 := (flag_read a).1.trans (by decide)
  have flags2 (a b : Bool) : b1 a + 2 * b1 b < 256 ^ 1 := (flags2_read a b).1.trans (by decide)
  have flags3 (a b c : Bool) : b1 a + 2 * b1 b + 4 * b1 c < 256 ^ 1 := (flags3_read a b c).1.trans (by decide)
  cases i
  case splIoWrite h' node es launch =>
    cases hf
    exact ⟨by decide, ioWrite_fit hw⟩
  case recClear h' token =>
    cases hf
    simp only [Instr.wf, Bool.and_eq_true, beq_iff_eq] at hw
    exact ⟨by decide, rfl, by simpa [hw.2] using leNat_lt token⟩
  case axisHome h' axis down source chan speed pos limit =>
    cases hf
    refine ⟨by decide, rfl, ?_⟩
    simp only [Instr.wf, fitsU_iff, twos_lt, Bool.and_eq_true, decide_eq_true_eq, List.forall_mem_cons, List.not_mem_nil,
      false_imp_iff, implies_true, and_true, true_and] at hw ⊢
    have := (homeFlags_read down (v := source) (by omega)).1
    omega
  -- The other 79 opcodes, whose fields have fixed places; the commands that no ring carries have no fields.
  all_goals cases hf
  all_goals refine ⟨by decide, rfl, ?_⟩
  all_goals simp only [Instr.wf, fitsU_iff, twos_lt, toNat_lt_pow, flag, flags2, flags3, Bool.and_eq_true, decide_eq_true_eq,
    List.forall_mem_cons, List.not_mem_nil, false_imp_iff, implies_true, and_true, true_and, Nat.reduceMul, Nat.reduceLeDiff] at hw ⊢
  all_goals omega

/-- The command that the operand bytes of a descriptor spell under its opcode. -/
def decodeOperands (h : Hdr) (op : Nat) (o : List Byte) : Option Instr :=
  if op < 0x20 then decodeGeneral h op o
  else if op < 0x50 then decodeLanes h op o
  else if op < 0x70 then decodeAxes h op o
  else if op < 0xA0 then decodeData h op o
  else decodePartners h op o

/-- Operand bytes that hold the fields of a well-formed command spell it. -/
theorem decodeOperands_of_holds {i : Instr} {h : Hdr} {op : Nat} {fs : List (Nat × Nat × Nat)} {o : List Byte} (hw : i.wf = true)
    (hf : descriptorFields i = some (h, op, fs)) (ho : Holds fs o) : decodeOperands h op o = some i := by
  have hr := ho.reads
  cases i
  case splIoWrite h' node es launch =>
    cases hf
    exact ioWrite_spelt hw ho
  case recClear h' token =>
    cases hf
    simp only [Instr.wf, Bool.and_eq_true, beq_iff_eq] at hw
    have ht : o.take 8 = token := leNat_inj (by simp [ho.length, hw.2]) (hr _ (List.mem_singleton.2 rfl))
    exact (ho.operands (by rfl) _ _).trans (by rw [ht]; rfl)
  case axisHome h' axis down source chan speed pos limit =>
    cases hf
    refine (ho.operands ?_ _ _).trans ?_
    · rfl
    simp only [List.forall_mem_cons, List.not_mem_nil, false_imp_iff, implies_true, and_true] at hr
    simp only [Instr.wf, Bool.and_eq_true, decide_eq_true_eq] at hw
    simp [hr, hw, fieldS, signExt_twos, homeFlags_read]
  -- The other 79 opcodes: the decoder's ranges cover the fields, and it reads each field back.
  all_goals cases hf
  all_goals
    refine (ho.operands ?_ _ _).trans ?_
    · rfl
  all_goals simp only [List.forall_mem_cons, List.not_mem_nil, false_imp_iff, implies_true, and_true] at hr
  all_goals simp only [Instr.wf, Bool.and_eq_true] at hw
  all_goals simp only [hr, hw, fieldS, signExt_twos, flag_read, flags2_read, flags3_read, Nat.reduceMul, decide_true, if_true,
    BitVec.ofNat_toNat, BitVec.setWidth_eq]

/-- A descriptor whose reserved header fields are 0 spells what its operand bytes do. -/
theorem decodeDescriptor_of_head {ring index serial : Nat} {b : List Byte} (h1 : field b 1 1 ≤ 3) (h2 : field b 2 2 = 0)
    (h8 : field b 8 8 = 0) : decodeDescriptor ring index serial b =
      decodeOperands (descriptorHdr ring index serial b) (field b 0 1) ((b.drop 16).take 48) := by
  simp [decodeDescriptor, decodeOperands, h1, h2, h8, Nat.not_lt.2]

/-- Settles O58: the header's fields and the operands' fields are read back as they were written, and they are what the decoder of the
opcode asks for. -/
theorem descriptorsDecodeToWhatTheyEncode : Obligations.DescriptorsDecodeToWhatTheyEncode := by
  intro i h op fs hw hf
  obtain ⟨hop, hrise, hfit⟩ := descriptorFields_fit hw hf
  refine ⟨_, by rw [encodeDescriptor, hf, Option.map_some], ?_⟩
  obtain ⟨h0, h1, h2, h8, hhdr, hops⟩ := descriptor_head h op hop fs _ rfl
  refine ⟨(descriptor_split _ fs _ rfl).2.2, h0, ?_⟩
  have hflags : b1 h.irq + 2 * b1 h.silent ≤ 3 := Nat.le_of_lt_succ (flags2_read h.irq h.silent).1
  rw [decodeDescriptor_of_head (h1.trans_le hflags) h2 h8, hhdr, h0, hops]
  exact decodeOperands_of_holds hw hf (holds_layout hrise hfit)

end Sys2Proof
end

section
/-! SUPPORT. How a descriptor ends: its record, and its place among the outstanding ones. -/

namespace Sys2Proof.Machine

/-! ### The record of a completion (R302, R305) -/

theorem putFinished_emptySlot {f : Finished} {s : State} (h : unit s.hostq.slots f.ctx none = none) :
    putFinished f s = { s with hostq := { s.hostq with slots := s.hostq.slots.set f.ctx (some f) } } := by
  simp [putFinished, h]

theorem putFinished_fullSlot {f : Finished} {s : State} (h : unit s.hostq.slots f.ctx none ≠ none) :
    putFinished f s = { s with hostq := { s.hostq with backlog := s.hostq.backlog ++ [f] } } := by
  obtain ⟨g, hg⟩ := Option.ne_none_iff_exists'.1 h
  simp [putFinished, hg]

theorem outstanding_putFinished (f : Finished) (s : State) : (putFinished f s).hostq.outstanding = s.hostq.outstanding := by
  unfold putFinished
  split <;> rfl

theorem parked_putFinished (f : Finished) (s : State) : (putFinished f s).hostq.parked = s.hostq.parked := by
  unfold putFinished
  split <;> rfl

/-- A completion that waits for the collector has its descriptor finished. -/
theorem finishedAlready_putFinished {f : Finished} {s : State} (h : f.ctx < s.hostq.slots.length) :
    finishedAlready f.tk.hdr.ref (putFinished f s) = true := by
  by_cases hu : unit s.hostq.slots f.ctx none = none
  · have hmem : some f ∈ s.hostq.slots.set f.ctx (some f) := List.mem_set h _
    rw [putFinished_emptySlot hu, finishedAlready, Bool.or_eq_true]
    exact .inl (List.any_eq_true.2 ⟨_, hmem, by simp⟩)
  · rw [putFinished_fullSlot hu, finishedAlready, Bool.or_eq_true]
    exact .inr (by simp)

/-! ### The end of a descriptor (R299, R302) -/

section

variable {s : State} {tk : Ticket} {st : Nat} (ht : ticket s tk.hdr.ref = some tk) (hn : finishedAlready tk.hdr.ref s = false)

include ht hn

/-- A descriptor that ends otherwise than SILENT with DONE leaves its record to the collector. -/
theorem finish_leavesRecord (h : ¬(tk.hdr.silent = true ∧ st = 0)) (detail data : Nat) :
    finish tk.hdr.ref st detail data s = putFinished (endRecord tk st detail data s) s := by
  have h' : (tk.hdr.silent && st == 0) = false := by simpa using h
  simp only [finish, finishAs, ht, hn, h', Bool.false_eq_true, if_false]
  rfl

/-- A SILENT descriptor that ends with DONE is dropped without a record. -/
theorem finish_silent (h : tk.hdr.silent = true) (h0 : st = 0) (detail data : Nat) :
    finish tk.hdr.ref st detail data s = settle (markFences tk.hdr.ref 0 (dropTicket tk.hdr.ref s)) := by
  simp [finish, finishAs, ht, hn, h, h0]

end

/-- What has ended does not end again. -/
theorem finish_finished {r : Ref} {s : State} (h : finishedAlready r s = true) (st detail data : Nat) :
    finish r st detail data s = s := by
  unfold finish finishAs
  split
  · rfl
  · rw [if_pos h]

theorem settle_noFences {s : State} (h : s.hostq.fences = []) : settle s = s := by
  simp [settle, settleFences, h]

/-! ### The place among the outstanding and the parked ones (R22, R23) -/

/-- A descriptor that is dropped leaves the first place that bears its name. -/
theorem places_dropTicket (r : Ref) (s : State) : (dropTicket r s).hostq.outstanding ++ (dropTicket r s).hostq.parked =
    (s.hostq.outstanding ++ s.hostq.parked).eraseP fun tk => tk.hdr.ref == r := by
  rw [List.eraseP_append]
  simp only [dropTicket, setCmd]
  split
  · rfl
  · next h =>
    rw [List.eraseP_of_forall_not (by simpa using h)]

/-- Once dropped, a name that one descriptor alone bears names none. -/
theorem ticket_dropTicket {r : Ref} {s : State}
    (h : (s.hostq.outstanding ++ s.hostq.parked).countP (fun tk => tk.hdr.ref == r) = 1) : ticket (dropTicket r s) r = none := by
  obtain ⟨a, ha, hp⟩ := List.countP_pos_iff.1 (by omega : 0 < (s.hostq.outstanding ++ s.hostq.parked).countP fun tk => tk.hdr.ref == r)
  obtain ⟨b, l₁, l₂, h₁, hb, hl, he⟩ := List.exists_of_eraseP (p := fun tk : Ticket => tk.hdr.ref == r) ha hp
  rw [hl, List.countP_append, List.countP_cons, if_pos hb] at h
  rw [ticket, places_dropTicket, he, List.find?_eq_none]
  refine List.countP_eq_zero.1 ?_
  rw [List.countP_append]
  omega

/-- Settles O26: by the two ways in which a descriptor ends. -/
theorem descriptorEndsOnce : Obligations.DescriptorEndsOnce := by
  intro s tk st detail data hlen hcount ht hn
  refine ⟨finishAs_hostq _ _ _ _ _ _ _, fun h => ?_, fun hsil h0 hf => ?_⟩
  · have hctx : (endRecord tk st detail data s).ctx < s.hostq.slots.length := by
      rw [hlen, show (endRecord tk st detail data s).ctx = 304 + tk.hdr.ring % 16 from rfl]
      omega
    rw [finish_leavesRecord ht hn h]
    refine ⟨outstanding_putFinished _ _, parked_putFinished _ _, fun hu => ?_, fun hu => ?_,
      finish_finished (finishedAlready_putFinished hctx) _ _ _⟩
    · rw [putFinished_emptySlot hu]
      exact ⟨rfl, rfl⟩
    · rw [putFinished_fullSlot hu]
      exact ⟨rfl, rfl⟩
  · have hfences : (markFences tk.hdr.ref 0 (dropTicket tk.hdr.ref s)).hostq.fences = [] := by
      simp [markFences, dropTicket, setCmd, hf]
    rw [finish_silent ht hn hsil h0, settle_noFences hfences]
    exact ⟨ticket_dropTicket hcount, rfl, rfl⟩

end Sys2Proof.Machine
end

section
/-! SUPPORT. What NOP, HEARTBEAT, EVENT_RING, EVENT_ROUTE and CFG_ABORT answer and change. -/

namespace Sys2Proof.Machine

/-! ### EVENT_RING (R309) -/

theorem powerIn_iff {lo hi n : Nat} : powerIn lo hi n = true ↔ ∃ k, lo ≤ k ∧ k ≤ hi ∧ n = 2 ^ k := by
  simp only [powerIn, List.any_eq_true, List.mem_range, Bool.and_eq_true, decide_eq_true_eq, beq_iff_eq, Nat.lt_succ_iff]
  exact exists_congr fun k => ⟨fun ⟨hk, hl, hn⟩ => ⟨hl, hk, hn⟩, fun ⟨hl, hk, hn⟩ => ⟨hk, hl, hn⟩⟩

theorem hostMem_iff {base size : Nat} {s : State} : hostMem base size s = true ↔ 0x20000000 ≤ base ∧ base + size ≤ usableEnd s := by
  rw [hostMem, Bool.and_eq_true, decide_eq_true_eq, decide_eq_true_eq]

/-- What EVENT_RING asks of its base and size. -/
def eventRingOk (base size : Nat) (s : State) : Prop :=
  base % 32 = 0 ∧ (∃ k, 6 ≤ k ∧ k ≤ 16 ∧ size = 2 ^ k) ∧ 0x20000000 ≤ base ∧ base + 32 * size ≤ usableEnd s

theorem eventRing_barred_iff {base size : Nat} {s : State} :
    (base % 32 != 0 || !powerIn 6 16 size || !hostMem base (32 * size) s) = true ↔ ¬ eventRingOk base size s := by
  rw [eventRingOk, ← powerIn_iff, ← hostMem_iff]
  simp only [Bool.or_eq_true, bne_iff_ne, Bool.not_eq_true']
  cases powerIn 6 16 size <;> cases hostMem base (32 * size) s <;> simp

theorem startEventRing_good {base size : Nat} {s : State} (h : eventRingOk base size s) (r : Ref) :
    startEventRing r base size s = endWith r stDone { s with events := { s.events with
      set := true, base := BitVec.ofNat 64 base, size := size, head := 0, tail := 0, phase := true } } :=
  if_neg (eventRing_barred_iff.not.2 (not_not.2 h))

theorem startEventRing_bad {base size : Nat} {s : State} (h : ¬ eventRingOk base size s) (r : Ref) :
    startEventRing r base size s = endWith r stParam s :=
  if_pos (eventRing_barred_iff.2 h)

/-! ### EVENT_ROUTE (R295, R310) -/

section

variable {lo hi : BitVec 16} {vec : Nat} {s : State} (r : Ref)

theorem startEventRoute_full (hr : lo ≤ hi) (h41 : 41 ≤ vec) (h63 : vec ≤ 63) (hl : 32 ≤ s.events.routes.length) :
    startEventRoute r lo hi vec s = endWith r stBusy s := by
  simp [startEventRoute, Nat.not_lt.2 (BitVec.le_def.1 hr), show vec ≠ 0xFF by omega, Nat.not_lt.2 h41, Nat.not_lt.2 h63, hl]

theorem startEventRoute_adds (hr : lo ≤ hi) (h41 : 41 ≤ vec) (h63 : vec ≤ 63) (hl : s.events.routes.length < 32) :
    startEventRoute r lo hi vec s = endWith r stDone { s with
      events := { s.events with routes := { lo := lo, hi := hi, vec := vec } :: s.events.routes } } := by
  simp [startEventRoute, Nat.not_lt.2 (BitVec.le_def.1 hr), show vec ≠ 0xFF by omega, Nat.not_lt.2 h41, Nat.not_lt.2 h63,
    Nat.not_le.2 hl]

theorem startEventRoute_removes (hr : lo ≤ hi) : startEventRoute r lo hi 0xFF s = endWith r stDone { s with
    events := { s.events with routes := s.events.routes.filter fun x => !(x.lo == lo && x.hi == hi) } } := by
  simp [startEventRoute, Nat.not_lt.2 (BitVec.le_def.1 hr)]

theorem startEventRoute_bad (h : hi < lo ∨ (vec ≠ 0xFF ∧ (vec < 41 ∨ 63 < vec))) :
    startEventRoute r lo hi vec s = endWith r stParam s := by
  rcases h with h | ⟨hv, h⟩
  · simp [startEventRoute, BitVec.lt_def.1 h]
  · simp [startEventRoute, hv, h]

end

/-! ### CFG_ABORT (R294, R318) -/

theorem startCfgAbort_empties {sets : BitVec 8} {s : State} (h : setsInCommit s &&& sets = 0) (r : Ref) :
    startCfgAbort r sets s =
      endWith r stDone { s with staging := s.staging.mapIdx fun k l => if sets.getLsbD k then [] else l } :=
  if_neg (by simp [h])

theorem startCfgAbort_inCommit {sets : BitVec 8} {s : State} (h : setsInCommit s &&& sets ≠ 0) (r : Ref) :
    startCfgAbort r sets s = endWith r stBusy s :=
  if_pos (bne_iff_ne.2 h)

/-- Settles O27: each descriptor acts on the state in which it is outstanding, as the lemma of its case says. -/
theorem generalDescriptors : Obligations.GeneralDescriptors := by
  intro h s hr
  refine ⟨post_next hr rfl, post_next hr rfl, fun base size => ⟨fun hb => ?_, fun hb => ?_⟩,
    fun lo hi vec => ⟨fun ho h41 h63 hl => ?_, fun ho h41 h63 hl => ?_, fun ho hv => ?_, fun hb => ?_⟩,
    fun sets => ⟨fun hc => ?_, fun hc => ?_⟩⟩
  · exact post_next hr (startEventRing_good (s := accept h 0x08 s) hb _)
  · exact post_next hr (startEventRing_bad (s := accept h 0x08 s) hb _)
  · exact post_next hr (startEventRoute_adds (s := accept h 0x09 s) _ ho h41 h63 hl)
  · exact post_next hr (startEventRoute_full (s := accept h 0x09 s) _ ho h41 h63 hl)
  · exact post_next hr (hv ▸ startEventRoute_removes (s := accept h 0x09 s) _ ho)
  · exact post_next hr (startEventRoute_bad (s := accept h 0x09 s) _ hb)
  · exact post_next hr (startCfgAbort_empties (s := accept h 0x06 s) hc _)
  · exact post_next hr (startCfgAbort_inCommit (s := accept h 0x06 s) hc _)

end Sys2Proof.Machine
end

section
/-! SUPPORT. Every command answers a next state. -/

namespace Sys2Proof.Machine

/-- Settles O25: each arm of `exec` is a meaning that answers a next state (R292, R301). -/
theorem everyCommandAnswersANextState : Obligations.EveryCommandAnswersANextState := by
  intro c s
  cases c
  all_goals exact ⟨_, rfl⟩

end Sys2Proof.Machine
end

section
/-! SUPPORT. What SNAPSHOT_NOW, SNAPSHOT_CFG, CFG_STAGE, CFG_COMMIT and FENCE answer and change. -/

namespace Sys2Proof.Machine

/-! ### SNAPSHOT_NOW (R312) -/

section

variable {s : State} {d : Nat} (r : Ref)

theorem startSnapshotNow_noRegion (h : s.still.regionSet = false) : startSnapshotNow r s = endWith r stState s := by
  simp [startSnapshotNow, h]

/-- A request joins a demand latch that is scheduled. -/
theorem startSnapshotNow_scheduled (h : s.still.regionSet = true) (hd : s.still.demandAt.isSome = true) :
    startSnapshotNow r s = { s with still := { s.still with demand := s.still.demand ++ [r] } } := by
  simp [startSnapshotNow, h, hd]

variable (h : s.still.regionSet = true) (hd : s.still.demandAt = none)

include h hd

/-- Where no periodic latch falls up to 100 µs after the request's tick, the request takes a latch of its own, or is skipped to the next
periodic one for want of a place (R240). -/
theorem startSnapshotNow_own (ht : demandTick s.still.lastLatch s = d) (hp : ∀ p, s.still.nextTick = some p → d + 100000 < p) :
    startSnapshotNow r s = if ripplePlace (.snapshot false true) s then
      postOwn (.snapshot false true) d { s with still := { s.still with demandAt := some d, demand := [r] } }
    else { s with still := { s.still with joined := s.still.joined ++ [r], skipped := satInc s.still.skipped } } := by
  cases hn : s.still.nextTick with
  | none => simp [startSnapshotNow, h, hd, ht, hn, skipSnapshot]
  | some p =>
    have hlate := hp p hn
    have hafter : ¬ p < d := Nat.not_lt.2 ((Nat.le_add_right d 100000).trans hlate.le)
    simp [startSnapshotNow, h, hd, ht, hn, hafter, Nat.not_le.2 hlate, skipSnapshot]

/-- A request joins the periodic latch that falls up to 100 µs after its own tick. -/
theorem startSnapshotNow_joins {p : Ns} (ht : demandTick s.still.lastLatch s = d) (hp : s.still.nextTick = some p) (hdp : d ≤ p)
    (hpd : p ≤ d + 100000) : startSnapshotNow r s = { s with still := { s.still with joined := s.still.joined ++ [r] } } := by
  simp [startSnapshotNow, h, hd, ht, hp, Nat.not_lt.2 hdp, hpd]

variable {p e : Ns} (ht : demandTick s.still.lastLatch s = d) (hp : s.still.nextTick = some p) (hpd : p < d)
  (he : e = tickAt (max (s.now + 1000) (p + 100000)))

include ht hp hpd he

/-- Behind a periodic latch that comes first, a request joins the one after it if that falls up to 100 µs after the request's tick. -/
theorem startSnapshotNow_joinsNext (hn : p + snapPeriod s ≤ e + 100000) :
    startSnapshotNow r s = { s with still := { s.still with joinedNext := s.still.joinedNext ++ [r] } } := by
  have he' : demandTick (some p) s = e := he.symm
  simp [startSnapshotNow, h, hd, ht, hp, he', hpd, hn]

theorem startSnapshotNow_afterNext (hn : e + 100000 < p + snapPeriod s) (hr : ripplePlace (.snapshot false true) s = true) :
    startSnapshotNow r s = postOwn (.snapshot false true) e { s with still := { s.still with demandAt := some e, demand := [r] } } := by
  have he' : demandTick (some p) s = e := he.symm
  simp [startSnapshotNow, h, hd, ht, hp, he', hpd, Nat.not_le.2 hn, hr]

end

/-- The tick that a request keeps, 100 µs after the latch before it (R312). -/
theorem demandTick_last {s : State} {o : Option Ns} {d last : Nat}
    (hl : (o = none ∧ last = 0) ∨ o = some (last - 100000) ∧ 100000 ≤ last) (hd : d = tickAt (max (s.now + 1000) last)) :
    demandTick o s = d := by
  rcases hl with ⟨rfl, rfl⟩ | ⟨rfl, hl⟩
  · rw [hd, Nat.max_eq_left (Nat.zero_le _)]
    rfl
  · rw [hd, demandTick, Nat.sub_add_cancel hl]

/-! ### SNAPSHOT_CFG (R311, R320) -/

/-- What SNAPSHOT_CFG asks of a base that it sets. -/
def snapBaseOk (base : Nat) (s : State) : Prop := base = 0 ∨ (base % 4096 = 0 ∧ hostMem base 0x6800 s = true)

/-- What SNAPSHOT_CFG asks of a period that it sets. -/
def snapPeriodOk (period : Nat) : Prop := period = 0 ∨ (100 ≤ period ∧ period ≤ 1000000 ∧ period % 100 = 0)

/-- The region under a new base, 0 taking it away. -/
def withSnapBase (base : Nat) (s : State) : State :=
  { s with still := { s.still with regionSet := base != 0, base := BitVec.ofNat 64 base } }

/-- A new period, an override; 0 returns to the profile's. -/
def withSnapPeriod (period : Nat) (s : State) : State :=
  countOverride (markOverride 6 (period != 0) { s with still := { s.still with
    periodUs := BitVec.ofNat 32 (if period = 0 then s.prof.system.snapPeriodUs else period) } })

theorem withSnapPeriod_pos {period : Nat} {s : State} (h : 0 < period) : withSnapPeriod period s =
    countOverride (markOverride 6 true { s with still := { s.still with periodUs := BitVec.ofNat 32 period } }) := by
  have hne : (period != 0) = true := bne_iff_ne.2 h.ne'
  rw [withSnapPeriod, hne, if_neg h.ne']

theorem startSnapshotCfg_good {b p : Bool} {base period : Nat} {s : State} (hb : b = true → snapBaseOk base s)
    (hp : p = true → snapPeriodOk period) (r : Ref) : startSnapshotCfg r b p base period s =
      let s1 := if b then withSnapBase base s else s
      let s2 := if p then withSnapPeriod period s1 else s1
      endWith r stDone (if b || p then rescheduleSnapshots s2 else s2) := by
  have hb' : (!b || decide (base = 0) || (base % 4096 == 0 && hostMem base 0x6800 s)) = true := by
    cases b
    · rfl
    · simpa [snapBaseOk] using hb rfl
  have hp' : (!p || decide (period = 0) || (decide (100 ≤ period) && decide (period ≤ 1000000) && period % 100 == 0)) = true := by
    cases p
    · rfl
    · simpa [snapPeriodOk, and_assoc] using hp rfl
  simp only [startSnapshotCfg, hb', hp', Bool.not_true, Bool.or_self, Bool.false_eq_true, if_false]
  rfl

theorem startSnapshotCfg_badPeriod {period : Nat} (h0 : 0 < period) (hp : period < 100 ∨ 1000000 < period ∨ period % 100 ≠ 0) (r : Ref)
    (b : Bool) (base : Nat) (s : State) : startSnapshotCfg r b true base period s = endWith r stParam s := by
  have hp' : (!true || decide (period = 0) || (decide (100 ≤ period) && decide (period ≤ 1000000) && period % 100 == 0)) = false := by
    simp [h0.ne']
    omega
  simp only [startSnapshotCfg, hp', Bool.not_false, Bool.or_true, if_true]

/-! ### CFG_STAGE and CFG_COMMIT (R317, R318) -/

theorem startCfgStage_good {set count list : Nat} {is : List Instr} {s : State} (h7 : set ≤ 7) (h0 : 0 < count) (h64 : count ≤ 64)
    (hl : list % 64 = 0) (hm : hostMem list (64 * count) s = true) (hc : (setsInCommit s).getLsbD set = false)
    (hroom : (unit s.staging set []).length + count ≤ 64) (he : poisonIn list (64 * count) s = none)
    (hi : readEntries list s count 0 = .ok is) (r : Ref) :
    startCfgStage r set count list s = endWith r stDone { s with staging := modUnit s.staging set fun l => l ++ is } := by
  simp [startCfgStage, Nat.not_lt.2 h7, h0.ne', Nat.not_lt.2 h64, hl, hm, hc, Nat.not_lt.2 hroom, he, hi]

/-- The sets that a commit names, none of them empty and none in a pending commit (R318). -/
structure Committable (sets : BitVec 8) (s : State) : Prop where
  some : sets ≠ 0
  filled : ∀ k < 8, sets.getLsbD k = true → unit s.staging k [] ≠ []
  free : setsInCommit s &&& sets = 0

theorem mem_bitsOf {n m k : Nat} : k ∈ bitsOf n m ↔ k < n ∧ m.testBit k = true := by
  simp [bitsOf, bit]

theorem Committable.named {sets : BitVec 8} {s : State} (h : Committable sets s) :
    ((bitsOf 8 sets.toNat).isEmpty || (bitsOf 8 sets.toNat).any fun k => (unit s.staging k []).isEmpty) = false := by
  have hsome : bitsOf 8 sets.toNat ≠ [] := fun hnil => h.some <| BitVec.eq_of_getLsbD_eq fun k hk => by
    have hout : k ∉ bitsOf 8 sets.toNat := hnil ▸ List.not_mem_nil
    simpa [mem_bitsOf, hk, BitVec.getLsbD] using hout
  rw [Bool.or_eq_false_iff, List.isEmpty_eq_false_iff, List.any_eq_false]
  refine ⟨hsome, fun k hk => ?_⟩
  obtain ⟨hk8, hbit⟩ := mem_bitsOf.1 hk
  rw [List.isEmpty_iff]
  exact h.filled k hk8 hbit

/-- The launch that CFG_COMMIT names, 0 standing for the earliest (R318). -/
def commitLaunch (refTor : Bool) (launch : Nat) (s : State) : Option Ns := if launch = 0 then some 0 else refTime refTor launch s

theorem commitLaunch_named {refTor : Bool} {launch t : Nat} {s : State} (h : (launch = 0 ∧ t = 0) ∨
    (launch ≠ 0 ∧ refTor = false ∧ t = launch) ∨ (launch ≠ 0 ∧ refTor = true ∧ refTime true launch s = some t)) :
    commitLaunch refTor launch s = some t := by
  rcases h with ⟨rfl, rfl⟩ | ⟨hl, rfl, rfl⟩ | ⟨hl, rfl, ht⟩
  · rfl
  · exact if_neg hl
  · exact (if_neg hl).trans ht

theorem startCfgCommit_accepted {sets : BitVec 8} {s : State} {refTor : Bool} {launch : Nat} {t : Ns} (h : Committable sets s)
    (ht : commitLaunch refTor launch s = some t)
    (hr : refusedEntry ((hostLaunch t s).1 - 1000) (commitEntries sets s) s = none) (r : Ref) : startCfgCommit r sets refTor launch s =
      if ripplePlace (.cfgCommit sets) s then postHost (.cfgCommit sets) r t s else endWith r stBusy s := by
  rw [commitLaunch] at ht
  simp only [startCfgCommit, h.named, h.free, ht, hr, bne_self_eq_false, Bool.false_eq_true, if_false]

theorem startCfgCommit_noTor {sets : BitVec 8} {s : State} {refTor : Bool} {launch : Nat} (h : Committable sets s)
    (ht : commitLaunch refTor launch s = none) (r : Ref) : startCfgCommit r sets refTor launch s = endWith r stState s := by
  rw [commitLaunch] at ht
  simp only [startCfgCommit, h.named, h.free, ht, bne_self_eq_false, Bool.false_eq_true, if_false]

/-! ### FENCE (R307, R308) -/

/-- The FENCE of a descriptor, with all that it waits for. -/
def fenceOf (tk : Ticket) (scope : BitVec 64) (hold : Bool) (s : State) : Fence :=
  { tk := tk, hold := hold, bad := 0
    waits := fenceWaits tk.hdr.ref tk.hdr.ring s ++
      ((List.range 64).filter fun k => scope.getLsbD k && k != tk.hdr.ring).flatMap fun k => fenceWaits tk.hdr.ref k s }

/-- A new FENCE stands behind those before it. -/
def withFence (f : Fence) (s : State) : State := { s with hostq := { s.hostq with fences := s.hostq.fences ++ [f] } }

/-- With HOLD_RING the ring is held by its FENCE. -/
def heldBy (h : Hdr) (hold : Bool) (s : State) : State :=
  if hold then setCmd h.ring (fun c => { c with held := some h.ref.2 }) s else s

theorem fences_heldBy (h : Hdr) (hold : Bool) (s : State) : (heldBy h hold s).hostq.fences = s.hostq.fences := by
  cases hold <;> rfl

theorem startFence_settles {tk : Ticket} {s : State} (ht : ticket s tk.hdr.ref = some tk) (scope : BitVec 64) (hold : Bool) :
    startFence tk.hdr.ref scope hold s = settle (withFence (fenceOf tk scope hold s) (heldBy tk.hdr hold s)) := by
  simp only [startFence, ht]
  rfl

/-- A descriptor that has just been accepted under a new name bears it. -/
theorem ticket_accept {h : Hdr} {s : State} (hn : ticket s h.ref = none) (op : Nat) :
    ticket (accept h op s) h.ref = some { hdr := h, opcode := op, cq := (cmdRing s h.ring).cq.toNat } := by
  obtain ⟨ho, -⟩ := List.find?_append.symm.trans hn |> Option.or_eq_none_iff.1
  simp [ticket, accept, List.find?_append, ho]

theorem settle_noneDone {s : State} (h : ∀ f ∈ s.hostq.fences, f.waits ≠ []) : settle s = s := by
  have hf : (s.hostq.fences.find? fun f => f.waits.isEmpty) = none :=
    List.find?_eq_none.2 fun f hf => by simpa using h f hf
  simp [settle, settleFences, hf]

/-- The completion of a FENCE, with the number of bad statuses as DETAIL (R308). -/
def fenceRecord (f : Fence) (s : State) : Finished :=
  { tk := f.tk, status := 0, late := false, time := s.now, ctx := hostCtx f.tk.hdr.ring, detail := f.bad, data := 0 }

theorem fences_putFinished (f : Finished) (s : State) : (putFinished f s).hostq.fences = s.hostq.fences := by
  unfold putFinished
  split <;> rfl

/-- A FENCE with nothing to wait for completes at once. -/
theorem settle_oneDone {s : State} {f : Fence} (h : ∀ g ∈ s.hostq.fences, g.waits ≠ []) (hw : f.waits = [])
    (hs : f.tk.hdr.silent = false) : settle (withFence f s) = putFinished (fenceRecord f s) s := by
  have hfind : ((s.hostq.fences ++ [f]).find? fun g => g.waits.isEmpty) = some f := by
    rw [List.find?_append, List.find?_eq_none.2 fun g hg => by simpa using h g hg]
    simp [hw]
  have herase : ((s.hostq.fences ++ [f]).eraseP fun g => g.waits.isEmpty) = s.hostq.fences := by
    rw [List.eraseP_append_right _ fun g hg => by simpa using h g hg]
    simp [hw]
  have hnone : ((putFinished (fenceRecord f s) s).hostq.fences.find? fun g => g.waits.isEmpty) = none := by
    rw [fences_putFinished]
    exact List.find?_eq_none.2 fun g hg => by simpa using h g hg
  have hrest : ({ withFence f s with hostq := { (withFence f s).hostq with
      fences := (s.hostq.fences ++ [f]).eraseP fun g => g.waits.isEmpty } } : State) = s := by
    rw [herase]
    rfl
  have hround (n : Nat) : settleFences (n + 2) (withFence f s) = settleFences (n + 1) (putFinished (fenceRecord f s) s) := by
    rw [settleFences]
    simp only [show (withFence f s).hostq.fences = s.hostq.fences ++ [f] from rfl, hfind, hs, Bool.false_eq_true, if_false]
    rw [hrest]
    rfl
  have hlen : (withFence f s).hostq.fences.length = s.hostq.fences.length + 1 := by simp [withFence]
  rw [settle, hlen, hround, settleFences, hnone]

/-- Settles O28: each descriptor acts on the state in which it is outstanding, as the lemma of its case says. -/
theorem snapshotsStagingAndFences : Obligations.SnapshotsStagingAndFences := by
  intro h s hr
  refine ⟨fun hn => ?_, fun hs hd => ?_, fun d last hs hd hl hdl => ⟨fun hp => ⟨fun hq => ?_, fun hq => ?_⟩, fun p hp h1 h2 => ?_,
      fun p hp hpd => ⟨fun hn => ?_, fun hn hq => ?_⟩⟩, fun b p base period hb hp => ?_, fun base hb => ?_, fun period h1 h2 h3 => ?_,
    fun b base period h0 hp => ?_, fun set count list is h7 h0 h64 hl hm hc hroom he hi => ?_,
    fun sets refTor launch t hs hf hc ht hrf => ⟨fun hq => ?_, fun hq => ?_⟩, fun sets launch hs hf hc hl ht => ?_,
    fun scope hold tk w ht => ?_⟩
  · exact post_next hr (startSnapshotNow_noRegion (s := accept h 0x02 s) _ hn)
  · exact post_next hr (startSnapshotNow_scheduled (s := accept h 0x02 s) _ hs hd)
  · have htick : demandTick (accept h 0x02 s).still.lastLatch (accept h 0x02 s) = d := demandTick_last hl hdl
    exact post_next hr ((startSnapshotNow_own (s := accept h 0x02 s) _ hs hd htick hp).trans (if_pos hq))
  · have htick : demandTick (accept h 0x02 s).still.lastLatch (accept h 0x02 s) = d := demandTick_last hl hdl
    exact post_next hr ((startSnapshotNow_own (s := accept h 0x02 s) _ hs hd htick hp).trans (if_neg (ne_true_of_eq_false hq)))
  · have htick : demandTick (accept h 0x02 s).still.lastLatch (accept h 0x02 s) = d := demandTick_last hl hdl
    exact post_next hr (startSnapshotNow_joins (s := accept h 0x02 s) _ hs hd htick hp h1 h2)
  · have htick : demandTick (accept h 0x02 s).still.lastLatch (accept h 0x02 s) = d := demandTick_last hl hdl
    exact post_next hr (startSnapshotNow_joinsNext (s := accept h 0x02 s) _ hs hd htick hp hpd rfl hn)
  · have htick : demandTick (accept h 0x02 s).still.lastLatch (accept h 0x02 s) = d := demandTick_last hl hdl
    exact post_next hr (startSnapshotNow_afterNext (s := accept h 0x02 s) _ hs hd htick hp hpd rfl hn hq)
  · cases b with
    | false => exact post_next hr (startSnapshotCfg_good (s := accept h 0x07 s) hb hp _)
    | true => exact post_next hr (startSnapshotCfg_good (s := accept h 0x07 s) hb hp _)
  · exact post_next hr (startSnapshotCfg_good (b := true) (p := false) (s := accept h 0x07 s) (fun _ => hb) nofun _)
  · have hgood := startSnapshotCfg_good (b := false) (p := true) (base := 0) (s := accept h 0x07 s) nofun
      (fun _ => .inr ⟨h1, h2, h3⟩) h.ref
    exact post_next hr (hgood.trans (congrArg (fun u => endWith h.ref stDone (rescheduleSnapshots u)) (withSnapPeriod_pos (by omega))))
  · exact post_next hr (startSnapshotCfg_badPeriod h0 hp _ _ _ _)
  · exact post_next hr (startCfgStage_good (s := accept h 0x03 s) h7 h0 h64 hl hm hc hroom he hi _)
  · exact post_next hr ((startCfgCommit_accepted (s := accept h 0x04 s) ⟨hs, hf, hc⟩ (commitLaunch_named ht) hrf _).trans (if_pos hq))
  · exact post_next hr ((startCfgCommit_accepted (s := accept h 0x04 s) ⟨hs, hf, hc⟩ (commitLaunch_named ht) hrf _).trans
      (if_neg (ne_true_of_eq_false hq)))
  · exact post_next hr (startCfgCommit_noTor (s := accept h 0x04 s) ⟨hs, hf, hc⟩ ((if_neg hl).trans ht) _)
  · obtain rfl : tk.hdr = h := congrArg Ticket.hdr (Option.some.inj (ht.symm.trans (ticket_accept hr.fresh 0x01)))
    have hstart := startFence_settles ht scope hold
    refine ⟨post_next hr hstart, fun hw hf => ⟨fun hne => ?_, fun hnil hh hsil => ?_⟩⟩
    · have hopen : settle (withFence (fenceOf tk scope hold (accept tk.hdr 0x01 s)) (heldBy tk.hdr hold (accept tk.hdr 0x01 s))) = _ :=
        settle_noneDone fun f hmem => by
          rw [withFence, fences_heldBy, List.mem_append, List.mem_singleton] at hmem
          rcases hmem with hmem | rfl
          · exact hf f hmem
          · exact fun hnil => hne (hw.trans hnil)
      refine ⟨_, post_next hr (hstart.trans hopen), ?_⟩
      subst hw
      cases hold
      · exact ⟨rfl, rfl, rfl, rfl⟩
      · exact ⟨rfl, rfl, rfl, rfl⟩
    · subst hh
      have hdone := settle_oneDone (s := accept tk.hdr 0x01 s) (f := fenceOf tk scope false (accept tk.hdr 0x01 s)) hf
        (hw.symm.trans hnil) hsil
      exact post_next hr (hstart.trans hdone)

end Sys2Proof.Machine
end

section
/-! SUPPORT. What a doorbell and the writes to the registers of the rings, of the event ring and of NOTIFY do. -/

namespace Sys2Proof.Machine

/-- An access reaches a module that is on. -/
theorem atHost_on {s : State} (h : s.power.state = .on) (f : State → State) : atHost f s = f s := by
  simp [atHost, h]

/-! ### Doorbells (R300, R322) -/

/-- The host-loss timer of a host that is not lost starts again. -/
theorem hostSeen_notLost {s : State} (h : s.mgmt.hostLost = false) :
    hostSeen s = { s with mgmt := { s.mgmt with hostLost := false, timer := some s.now } } := by
  simp [hostSeen, h]

/-! ### Command rings (R298, R301, R600) -/

theorem cmdOff_ctrl (r : Nat) : cmdOff r 8 = 0x20008 + 0x20 * r := by
  rw [cmdOff]
  omega

/-- The stall timers follow the rings, and nothing else changes. -/
theorem trackStalls_only (s : State) : trackStalls s = { s with hostq := { s.hostq with cmd := (trackStalls s).hostq.cmd } } := rfl

theorem length_trackStalls (s : State) : (trackStalls s).hostq.cmd.length = s.hostq.cmd.length := by
  simp [trackStalls]

theorem length_setCmd (r : Nat) (f : CmdRing → CmdRing) (s : State) : (setCmd r f s).hostq.cmd.length = s.hostq.cmd.length := by
  simp [setCmd, modUnit]

/-- A ring keeps everything but its stall timer. -/
theorem cmdRing_trackStalls {s : State} {r : Nat} (h : r < s.hostq.cmd.length) :
    ∃ st, cmdRing (trackStalls s) r = { cmdRing s r with stall := st } := by
  have hr : s.hostq.cmd.getD r .reset = s.hostq.cmd[r] := (List.getElem_eq_getD _).symm
  rw [cmdRing, unit, List.getD_eq_getElem _ _ (by rwa [length_trackStalls]), cmdRing, unit, hr]
  simp only [trackStalls, List.getElem_mapIdx]
  exact ⟨_, rfl⟩

theorem cmdRing_setCmd {s : State} {r : Nat} (h : r < s.hostq.cmd.length) (f : CmdRing → CmdRing) :
    cmdRing (setCmd r f s) r = f (cmdRing s r) := by
  simp [cmdRing, setCmd, unit, modUnit, List.getD_eq_getElem?_getD, h]

/-- A command ring as an ENABLE starts it. -/
def startRing (v : Word) (c : CmdRing) : CmdRing :=
  { c with
    sizeLog2 := BitVec.ofNat 4 (v.toNat % 16), cq := BitVec.ofNat 4 (v.toNat / 256 % 16), enable := true, head := 0, tail := 0
    held := none, fetched := c.fetched + c.waiting }

section

variable {s : State} {r : Nat} {v : Word}

theorem writeCmdCtrl_starts (he : (cmdRing s r).enable = false) (hi : ringIdle s r = true) (hv : v.getLsbD 16 = true)
    (h4 : 4 ≤ v.toNat % 16) (h12 : v.toNat % 16 ≤ 12) (hm : hostMem (cmdRing s r).base.toNat (64 * 2 ^ (v.toNat % 16)) s = true) :
    writeCmdCtrl r v s = trackStalls (setCmd r (startRing v) s) := by
  have hsize : (decide (v.toNat % 16 < 4) || decide (12 < v.toNat % 16)) = false := by simp; omega
  simp only [writeCmdCtrl, he, hi, hv, hsize, hm, Bool.not_true, Bool.or_self, Bool.false_eq_true, if_false, if_true]
  rfl

theorem writeCmdCtrl_outside (he : (cmdRing s r).enable = false) (hi : ringIdle s r = true) (hv : v.getLsbD 16 = true)
    (h4 : 4 ≤ v.toNat % 16) (h12 : v.toNat % 16 ≤ 12) (hm : hostMem (cmdRing s r).base.toNat (64 * 2 ^ (v.toNat % 16)) s = false) :
    writeCmdCtrl r v s = accessError stParam (0x20008 + 0x20 * r) s := by
  have hsize : (decide (v.toNat % 16 < 4) || decide (12 < v.toNat % 16)) = false := by simp; omega
  simp only [writeCmdCtrl, he, hi, hv, hsize, hm, Bool.not_true, Bool.not_false, Bool.or_self, Bool.false_eq_true, if_false, if_true,
    cmdOff_ctrl]

theorem writeCmdCtrl_busy (hb : (cmdRing s r).enable = true ∨ ringIdle s r = false)
    (hc : v.toNat % 16 ≠ (cmdRing s r).sizeLog2.toNat ∨ v.toNat / 256 % 16 ≠ (cmdRing s r).cq.toNat ∨
      (v.getLsbD 16 = true ∧ (cmdRing s r).enable = false)) :
    writeCmdCtrl r v s = accessError stBusy (0x20008 + 0x20 * r) s := by
  have hb' : ((cmdRing s r).enable || !ringIdle s r) = true := by simpa using hb
  have hc' : ((v.toNat % 16 != (cmdRing s r).sizeLog2.toNat || v.toNat / 256 % 16 != (cmdRing s r).cq.toNat) ||
      (v.getLsbD 16 && !(cmdRing s r).enable)) = true := by simpa [or_assoc] using hc
  simp only [writeCmdCtrl, hb', hc', if_true, cmdOff_ctrl]

theorem writeCmdCtrl_stops (he : (cmdRing s r).enable = true) (hv : v.getLsbD 16 = false)
    (hs : v.toNat % 16 = (cmdRing s r).sizeLog2.toNat) (hq : v.toNat / 256 % 16 = (cmdRing s r).cq.toNat) :
    writeCmdCtrl r v s = trackStalls (setCmd r (fun c => { c with enable := false }) s) := by
  simp only [writeCmdCtrl, he, hv, hs, hq, bne_self_eq_false, Bool.not_true, Bool.and_self, Bool.or_self, Bool.true_or,
    Bool.false_eq_true, if_false, if_true]

end

/-- A ring that has been started is enabled and empty, at its base. -/
theorem cmdRing_started {s : State} {r : Nat} {v : Word} (h : r < s.hostq.cmd.length) :
    ∃ st, cmdRing (trackStalls (setCmd r (startRing v) s)) r = { startRing v (cmdRing s r) with stall := st } := by
  rw [← cmdRing_setCmd h (startRing v)]
  exact cmdRing_trackStalls (by rwa [length_setCmd])

/-! ### Completion rings (R303, R600) -/

theorem writeCqCtrl_starts {s : State} {c : Nat} {v : Word} (he : (complRing s c).enable = false) (hv : v.getLsbD 16 = true)
    (h6 : 6 ≤ v.toNat % 32) (h16 : v.toNat % 32 ≤ 16)
    (hm : hostMem (complRing s c).base.toNat (32 * 2 ^ (v.toNat % 32)) s = true) :
    writeCqCtrl c v s = trackStalls (setCq c (fun q => { q with
      sizeLog2 := BitVec.ofNat 5 (v.toNat % 32), enable := true, head := 0, tail := 0, phase := true, since := 0, first := none }) s) := by
  have hsize : (decide (v.toNat % 32 < 6) || decide (16 < v.toNat % 32)) = false := by simp; omega
  simp only [writeCqCtrl, he, hv, hsize, hm, Bool.not_true, Bool.false_eq_true, if_false, if_true]

theorem writeCqCtrl_named {s : State} {c : Nat} {v : Word} (he : (complRing s c).enable = true) (hv : v.getLsbD 16 = false)
    (hn : ∃ r ∈ s.hostq.cmd, r.enable = true ∧ r.cq.toNat = c) : writeCqCtrl c v s = s := by
  have hany : (s.hostq.cmd.any fun r => r.enable && r.cq.toNat == c) = true := by simpa using hn
  simp only [writeCqCtrl, he, hv, hany, Bool.false_eq_true, if_false, if_true]

theorem writeCqCtrl_stops {s : State} {c : Nat} {v : Word} (he : (complRing s c).enable = true) (hv : v.getLsbD 16 = false)
    (hn : ∀ r ∈ s.hostq.cmd, r.enable = true → r.cq.toNat ≠ c) :
    writeCqCtrl c v s = trackStalls (setCq c (fun q => { q with enable := false }) s) := by
  have hany : (s.hostq.cmd.any fun r => r.enable && r.cq.toNat == c) = false := by simpa using hn
  simp only [writeCqCtrl, he, hv, hany, Bool.false_eq_true, if_false, if_true]

/-! ### NOTIFY (R289) -/

theorem clearNotify_lo (v : Word) (s : State) :
    clearNotify false v s = { s with mgmt := { s.mgmt with notify := s.mgmt.notify &&& ~~~(v.zeroExtend 64) } } := by
  have hm : BitVec.ofNat 64 v.toNat = v.zeroExtend 64 := BitVec.ofNat_toNat 64 v
  simp only [clearNotify, Bool.false_eq_true, if_false, hm]

theorem clearNotify_hi (v : Word) (s : State) :
    clearNotify true v s = { s with mgmt := { s.mgmt with notify := s.mgmt.notify &&& ~~~(v ++ (0 : BitVec 32)) } } := by
  have hm : BitVec.ofNat 64 (v.toNat * 2 ^ 32) = v ++ (0 : BitVec 32) := BitVec.eq_of_toNat_eq <| by
    have := v.isLt
    rw [BitVec.toNat_append, BitVec.toNat_ofNat, Nat.shiftLeft_eq]
    simp
    omega
  simp only [clearNotify, if_true, hm]

/-- Settles O29: each write reaches a module that is on, and acts as the lemma of its register says. -/
theorem ringRegisterWrites : Obligations.RingRegisterWrites := by
  intro s hon
  have reaches {f : State → State} {t : State} (h : f s = t) :
      (.next (atHost f s) : Host.Outcome State Fault Refusal) = .next t := congrArg _ ((atHost_on hon f).trans h)
  refine ⟨fun ring tail => reaches rfl, fun ring tail hl => reaches (congrArg trackStalls (hostSeen_notLost hl)),
    fun r v he hi hv h4 h12 => ⟨fun hm => ?_, fun hm => reaches (writeCmdCtrl_outside he hi hv h4 h12 hm)⟩,
    fun r v hb hc => reaches (writeCmdCtrl_busy hb hc), fun r v he hv hs hq => reaches (writeCmdCtrl_stops he hv hs hq),
    fun c v he hv h6 h16 hm => reaches (writeCqCtrl_starts he hv h6 h16 hm),
    fun c v he hv => ⟨fun hn => reaches (writeCqCtrl_named he hv hn), fun hn => reaches (writeCqCtrl_stops he hv hn)⟩,
    fun c v => reaches rfl, fun v => reaches rfl, fun v => reaches (clearNotify_lo v s), fun v => reaches (clearNotify_hi v s)⟩
  refine ⟨_, reaches (writeCmdCtrl_starts he hi hv h4 h12 hm), rfl, (length_trackStalls _).trans (length_setCmd _ _ _), fun hr => ?_⟩
  obtain ⟨st, hst⟩ := cmdRing_started (v := v) hr
  rw [hst]
  refine ⟨rfl, rfl, rfl, ?_, ?_, rfl⟩
  · exact Nat.mod_eq_of_lt (Nat.mod_lt _ (by decide))
  · exact Nat.mod_eq_of_lt (Nat.mod_lt _ (by decide))

end Sys2Proof.Machine
end

section
/-! SUPPORT. What the requests of the management channel and of the boot session do. -/

namespace Sys2Proof.Machine

/-! ### Requests and who may make them (R286, R287) -/

/-- A module that is on and past its reset hears requests. -/
theorem hears_running {s : State} (hon : s.power.state = .on) (h0 : s.boot.phase ≠ 0) :
    (s.power.state != .on || s.boot.phase == 0) = false := by
  rw [hon, beq_eq_false_iff_ne.2 h0]
  rfl

section

variable {q : MgmtReq} {s : State} {kind : Nat}

/-- A request in a bad form, or from a source that is not allowed, is dropped and counted. -/
theorem mgmtRequest_bad (hon : s.power.state = .on) (h0 : s.boot.phase ≠ 0) (hb : mgmtFormOk kind q = false ∨ mgmtAllowed q s = false)
    (run : State → State) : mgmtRequest kind run q s = mgmtDrop s := by
  have hb' : (!mgmtFormOk kind q || !mgmtAllowed q s) = true := by simpa using hb
  simp only [mgmtRequest, hears_running hon h0, hb', Bool.false_eq_true, if_false, if_true]

/-- A good request that is no repeat of a kept answer acts. -/
structure GoodMgmt (kind : Nat) (q : MgmtReq) (s : State) : Prop where
  on : s.power.state = .on
  running : s.boot.phase ≠ 0
  form : mgmtFormOk kind q = true
  allowed : mgmtAllowed q s = true
  notKept : keptMgmt q s = none

variable (hg : GoodMgmt kind q s) (run : State → State)

include hg

theorem mgmtRequest_acts : mgmtRequest kind run q s = run s := by
  simp only [mgmtRequest, hears_running hg.on hg.running, hg.form, hg.allowed, hg.notKept, Bool.not_true, Bool.or_self,
    Bool.false_eq_true, if_false]

theorem attachedOnly_attached (ha : s.mgmt.attached = some q.src) : attachedOnly kind run q s = run s := by
  rw [attachedOnly, mgmtRequest_acts hg]
  simp [ha]

theorem attachedOnly_stranger (ha : s.mgmt.attached ≠ some q.src) : attachedOnly kind run q s = answerMgmt kind stAuth q [] s := by
  rw [attachedOnly, mgmtRequest_acts hg]
  simp [ha]

end

/-! ### Registers and Basin (R286, R600) -/

theorem countOk_iff {q : MgmtReq} : countOk q = true ↔ q.count % 4 = 0 ∧ 4 ≤ q.count ∧ q.count ≤ 1024 := by
  simp [countOk, and_assoc]

section

variable {q : MgmtReq} {s : State} (hc : countOk q = true)

include hc

theorem mgmtRegRead_good : mgmtRegRead q s = answerMgmt 1 (readRegs (q.count / 4) q.address s).1 q
    (padTo q.count (readRegs (q.count / 4) q.address s).2.1) (readRegs (q.count / 4) q.address s).2.2 := by
  simp [mgmtRegRead, hc]

theorem mgmtRegWrite_good (hl : q.data.length = q.count) : mgmtRegWrite q s = answerMgmt 2
    (writeRegs (q.count / 4) q.address q.data s).1 q [] (writeRegs (q.count / 4) q.address q.data s).2 := by
  simp [mgmtRegWrite, hc, hl]

theorem mgmtMemRead_good (hm : hostMem q.address q.count s = true) (hp : poisonedIn q.address q.count s = []) :
    mgmtMemRead q s = answerMgmt 3 stDone q (memRead q.address q.count s) (touchBasin q.address q.count s) := by
  simp [mgmtMemRead, hc, hm, hp]

theorem mgmtMemWrite_good (hl : q.data.length = q.count) (hm : hostMem q.address q.count s = true) :
    mgmtMemWrite q s = answerMgmt 4 stDone q [] (memWrite 33 q.address q.data s) := by
  simp [mgmtMemWrite, hc, hl, hm]

end

/-! ### Attachment and NOTIFY (R287 to R289) -/

theorem endAttachment_attached {s : State} {o : Nat} (h : s.mgmt.attached = some o) (cause : Nat) :
    endAttachment cause s = raise 0xA00A (natLE 8 o ++ natLE 1 cause)
      { s with mgmt := { s.mgmt with attached := none, kept := [], lastNotify := none } } := by
  simp [endAttachment, h]

theorem mgmtAttach_free {q : MgmtReq} {s : State} (h : s.mgmt.attached = none ∨ s.mgmt.attached = some q.src) :
    mgmtAttach q s = answerMgmt 5 stDone q []
      (raise 0xA008 (natLE 16 q.src) { s with mgmt := { s.mgmt with attached := some q.src } }) := by
  have ho : (s.mgmt.attached.any fun a => a != q.src) = false := by
    rcases h with h | h <;> simp [h]
  simp [mgmtAttach, ho, setMgmt]

section

variable {q : MgmtReq} {s : State} {o : Nat} (h : s.mgmt.attached = some o) (ho : o ≠ q.src)

include h ho

theorem mgmtAttach_taken (hl : s.mgmt.hostLost = false) : mgmtAttach q s = answerMgmt 5 stBusy q [] s := by
  simp [mgmtAttach, h, ho, hl]

/-- The attachment of a lost host is taken over. -/
theorem mgmtAttach_lost (hl : s.mgmt.hostLost = true) : mgmtAttach q s = answerMgmt 5 stDone q []
    (raise 0xA008 (natLE 16 q.src) (setMgmt (fun m => { m with attached := some q.src }) (endAttachment 1 s))) := by
  simp [mgmtAttach, h, ho, hl]

end

/-- NOTIFY goes to the attached host once it is due. -/
theorem mgmtNotify_due {s : State} {dst : Nat} (hon : s.power.state = .on) (ha : s.mgmt.attached = some dst) (hn : s.mgmt.notify ≠ 0)
    (hd : ∀ last, s.mgmt.lastNotify = some last → (s.mgmt.fresh = true ∧ last + 10000 ≤ s.now) ∨ last + 100000000 ≤ s.now) :
    mgmtNotify s = { s with
      mgmt := { s.mgmt with lastNotify := some s.now, fresh := false }
      sent := .datagram dst (mgmtBytes 0x4D48 1 7 0 0 0 0 8 (natLE 8 s.mgmt.notify.toNat)) :: s.sent } := by
  have hn' : s.mgmt.notify ≠ 0#64 := hn
  cases hl : s.mgmt.lastNotify with
  | none => simp [mgmtNotify, hl, ha, hn', hon, sendDatagram, setMgmt]
  | some last =>
    have hd' : ((s.mgmt.fresh && decide (last + 10000 ≤ s.now)) || decide (last + 100000000 ≤ s.now)) = true := by simpa using hd last hl
    simp [mgmtNotify, hl, ha, hn', hon, hd', sendDatagram, setMgmt]

/-- Settles O31: each request by its form, its sender and its operands, NOTIFY by the time of the one before it. That a takeover has
cause 1 and DETACH cause 0 is the model's choice (log 144). -/
theorem managementRequests : Obligations.ManagementRequests := by
  intro q s hon h0
  refine ⟨fun hb => congrArg Host.Outcome.next (mgmtRequest_bad hon h0 hb _), fun hal hk => ?_, fun t dst ha hn hd =>
    congrArg Host.Outcome.next (mgmtNotify_due (s := passTo t s) hon ha hn hd)⟩
  have good {kind : Nat} (hf : mgmtFormOk kind q = true) : GoodMgmt kind q s := ⟨hon, h0, hf, hal, hk⟩
  have stranger {kind : Nat} (run : State → State) (ha : s.mgmt.attached ≠ some q.src) (hf : mgmtFormOk kind q = true) :
      (.next (attachedOnly kind run q s) : Host.Outcome State Fault Refusal) = .next (answerMgmt kind stAuth q [] s) :=
    congrArg _ (attachedOnly_stranger (good hf) run ha)
  have host {kind : Nat} {run : State → State} {u : State} (ha : s.mgmt.attached = some q.src) (hf : mgmtFormOk kind q = true)
      (hu : run s = u) : (.next (attachedOnly kind run q s) : Host.Outcome State Fault Refusal) = .next u :=
    congrArg _ ((attachedOnly_attached (good hf) run ha).trans hu)
  have attach {u : State} (hf : mgmtFormOk 5 q = true) (hu : mgmtAttach q s = u) :
      (.next (mgmtRequest 5 (mgmtAttach q) q s) : Host.Outcome State Fault Refusal) = .next u :=
    congrArg _ ((mgmtRequest_acts (good hf) _).trans hu)
  refine ⟨fun ha => ⟨stranger _ ha, stranger _ ha, stranger _ ha, stranger _ ha, stranger _ ha⟩, fun ha => ⟨fun hf => ?_, fun h4 hlo hhi => ?_⟩,
    fun hf => ⟨fun ha => attach hf (mgmtAttach_free ha), fun o ha ho => ⟨fun hl => attach hf (mgmtAttach_taken ha ho hl), fun hl => ?_⟩⟩⟩
  · exact host ha hf (congrArg (answerMgmt 6 stDone q []) (endAttachment_attached ha 0))
  · have hc : countOk q = true := countOk_iff.2 ⟨h4, hlo, hhi⟩
    refine ⟨fun hf => host ha hf (mgmtRegRead_good hc), fun hf hl => host ha hf (mgmtRegWrite_good hc hl), fun hb he => ?_⟩
    have hm : hostMem q.address q.count s = true := hostMem_iff.2 ⟨hb, he⟩
    exact ⟨fun hf hp => host ha hf (mgmtMemRead_good hc hm hp), fun hf hl => host ha hf (mgmtMemWrite_good hc hl hm)⟩
  · exact attach hf ((mgmtAttach_lost ha ho hl).trans (by rw [endAttachment_attached ha]))

end Sys2Proof.Machine
end

section
/-! SUPPORT. What the boot frames do, and when the boot session ends. -/

namespace Sys2Proof.Machine

/-! ### Boot requests (R286, R287, R340) -/

section

variable {q : MgmtReq} {s : State} {kind : Nat}

/-- A boot request in a bad form is dropped and counted. -/
theorem bootRequest_bad (hon : s.power.state = .on) (h0 : s.boot.phase ≠ 0) (hb : mgmtFormOk kind q = false) (run : State → State) :
    bootRequest kind run q s = mgmtDrop s := by
  simp only [bootRequest, hears_running hon h0, hb, Bool.not_false, Bool.true_or, Bool.false_eq_true, if_false, if_true]

/-- A good boot request that is no repeat of a kept answer acts. -/
theorem bootRequest_acts (hon : s.power.state = .on) (h0 : s.boot.phase ≠ 0) (hf : mgmtFormOk kind q = true)
    (ha : mgmtAllowed q s = true) (hk : keptBoot q s = none) (run : State → State) : bootRequest kind run q s = run s := by
  simp only [bootRequest, hears_running hon h0, hf, ha, hk, Bool.not_true, Bool.or_self, Bool.false_eq_true, if_false]

end

/-! ### The boot session (R340, R341) -/

section

variable {q : MgmtReq} {s : State}

theorem otherSession_holds {src : Nat} {t : Ns} (hs : s.boot.session = some (src, t)) (hne : src ≠ q.src)
    (ht : s.now < t + 1000000000) : otherSession q s = true := by
  simp [otherSession, hs, hne, ht]

/-- No other source holds the session where none is open, or the request's own source holds it, or its source has been silent for 1 s. -/
theorem otherSession_free (h : s.boot.session = none ∨
    ∃ src t, s.boot.session = some (src, t) ∧ (src = q.src ∨ t + 1000000000 ≤ s.now)) : otherSession q s = false := by
  rcases h with h | ⟨src, t, h, rfl | ht⟩
  · simp [otherSession, h]
  · simp [otherSession, h]
  · simp [otherSession, h, ht]

theorem bootData_alive (h : s.boot.alive = true) : bootData q s = answerBoot 17 stState q [] s := by
  simp [bootData, h]

theorem bootGoFrame_alive (h : s.boot.alive = true) : bootGoFrame q s = answerBoot 18 stState q [] s := by
  simp [bootGoFrame, h]

variable (ha : s.boot.alive = false) (hp : s.boot.phase = 2)

include ha hp

theorem bootData_busy (ho : otherSession q s = true) : bootData q s = answerBoot 17 stBusy q [] s := by
  simp [bootData, ha, hp, ho]

theorem bootGoFrame_busy (ho : otherSession q s = true) : bootGoFrame q s = answerBoot 18 stBusy q [] s := by
  simp [bootGoFrame, ha, hp, ho]

variable (ho : otherSession q s = false)

include ho

/-- BOOT_DATA binds the session to its source and writes its bytes to the staging area. -/
theorem bootData_good (hc : countOk q = true) (hl : q.data.length = q.count) (h4 : q.address % 4 = 0)
    (he : q.address + q.count ≤ 50331648) : bootData q s =
      answerBoot 17 stDone q [] (noteStaged q.address q.count (memWrite 32 q.address q.data (takeSession q s))) := by
  simp [bootData, ha, hp, ho, hc, hl, h4, Nat.not_lt.2 he]

theorem bootData_beyond (he : 50331648 < q.address + q.count) : bootData q s = answerBoot 17 stParam q [] (takeSession q s) := by
  simp [bootData, ha, hp, ho, he]

/-- BOOT_GO starts the checks by the Ethernet path. -/
theorem bootGoFrame_good (hc : q.count = 8) (hl : q.data.length = 8) (hlo : 4096 ≤ field q.data 0 8)
    (hhi : field q.data 0 8 ≤ 50331648) : bootGoFrame q s = answerBoot 18 stDone q [] (goNow (field q.data 0 8) true s) := by
  simp [bootGoFrame, ha, hp, ho, hc, hl, Nat.not_lt.2 hlo, Nat.not_lt.2 hhi]

theorem bootGoFrame_outside (h : field q.data 0 8 < 4096 ∨ 50331648 < field q.data 0 8) :
    bootGoFrame q s = answerBoot 18 stParam q [] s := by
  rcases h with h | h <;> simp [bootGoFrame, ha, hp, ho, h]

end

theorem bootSessionIdle_silent {s : State} {src : Nat} {t : Ns} (hs : s.boot.session = some (src, t)) (ht : t + 1000000000 ≤ s.now) :
    bootSessionIdle s = { s with boot := { s.boot with session := none } } := by
  simp [bootSessionIdle, hs, ht, setBoot]

/-- Settles O39: each frame by its form, the phase of the boot and the holder of the session. That a BOOT_GO of a length out of range is
REJECTED_PARAM, and that 1 s of silence frees the session before BOOT_SESSION_IDLE comes, are the model's choices (log 145). -/
theorem bootFrames : Obligations.BootFrames := by
  intro t q s hon h0
  refine ⟨fun hal hk => ⟨fun hf => ?_, fun hf => ?_, fun ha hal' => ?_, fun ha hp hal' => ?_⟩,
    fun hf => congrArg Host.Outcome.next (bootRequest_bad hon h0 hf _), fun hf => congrArg Host.Outcome.next (bootRequest_bad hon h0 hf _),
    fun src t0 hs ht => congrArg Host.Outcome.next (bootSessionIdle_silent (s := passTo t s) hs ht)⟩
  · exact congrArg Host.Outcome.next (bootRequest_acts hon h0 hf hal hk _)
  · exact congrArg Host.Outcome.next (bootRequest_acts hon h0 hf hal hk _)
  all_goals
    have acts {kind : Nat} {run : State → State} {u : State} (hf : mgmtFormOk kind q = true) (hu : run (passTo t s) = u) :
        (.next (bootRequest kind run q (passTo t s)) : Host.Outcome State Fault Refusal) = .next u :=
      congrArg _ ((bootRequest_acts (s := passTo t s) hon h0 hf hal' hk run).trans hu)
  · exact ⟨fun hf => acts hf (bootData_alive (s := passTo t s) ha), fun hf => acts hf (bootGoFrame_alive (s := passTo t s) ha)⟩
  · refine ⟨fun src t0 hs hne ht => ?_, fun hfree => ?_⟩
    · have ho : otherSession q (passTo t s) = true := otherSession_holds (s := passTo t s) hs hne ht
      exact ⟨fun hf => acts hf (bootData_busy (s := passTo t s) ha hp ho), fun hf => acts hf (bootGoFrame_busy (s := passTo t s) ha hp ho)⟩
    · have ho : otherSession q (passTo t s) = false := otherSession_free (s := passTo t s) hfree
      refine ⟨fun hf h4 hlo hhi hl ha4 => ⟨fun he => ?_, fun he => ?_⟩, fun hf hc hl => ⟨fun hlo hhi => ?_, fun hout => ?_⟩⟩
      · exact acts hf (bootData_good (s := passTo t s) ha hp ho (countOk_iff.2 ⟨h4, hlo, hhi⟩) hl ha4 he)
      · exact acts hf (bootData_beyond (s := passTo t s) ha hp ho he)
      · exact acts hf (bootGoFrame_good (s := passTo t s) ha hp ho hc hl hlo hhi)
      · exact acts hf (bootGoFrame_outside (s := passTo t s) ha hp ho hout)

end Sys2Proof.Machine
end

section
/-! SUPPORT. Host loss and the PCIe link, the publication of a snapshot, and how an event is recorded and its vector fires. -/

namespace Sys2Proof.Machine

/-! ### Host loss and the PCIe link (R322, R323, R331) -/

theorem hostLost_due {s : State} {t0 : Ns} (ht : s.mgmt.timer = some t0) (h0 : s.prof.system.hostLossMs ≠ 0)
    (hl : s.mgmt.hostLost = false) (hd : t0 + 1000000 * s.prof.system.hostLossMs ≤ s.now) :
    hostLost s = raise 0xA001 (natLE 4 s.prof.system.hostLossMs) { s with mgmt := { s.mgmt with hostLost := true, lostAt := s.now } } := by
  simp [hostLost, ht, h0, hl, hd]

/-- A timeout of 0 loses no host, and a lost host is not lost again. -/
theorem hostLost_barred {s : State} (h : s.prof.system.hostLossMs = 0 ∨ s.mgmt.hostLost = true) : hostLost s = s := by
  unfold hostLost
  rcases h with h | h
  · cases s.mgmt.timer <;> simp [h]
  · cases s.mgmt.timer <;> simp [h]

theorem pcieDown_up {s : State} (h : s.hostq.pcieUp = true) :
    pcieDown s = raise 0xA006 [] { s with hostq := { s.hostq with pcieUp := false } } := if_pos h

theorem pcieLinkUp_down {s : State} (h : s.hostq.pcieUp = false) (speed width : Nat) : pcieLinkUp speed width s =
    raise 0xA007 (natLE 1 speed ++ natLE 1 width) (sendPending
      { s with hostq := { s.hostq with pcieUp := true }, pins := { s.pins with pcieWakeN := true } }) := by
  simp [pcieLinkUp, h]

/-! ### Publication (R316) -/

/-- The generation that a publication gives the snapshot. -/
def nextGen (s : State) : Nat := s.still.gen.toNat + 1

/-- The state once the latched image stands in its buffer under the next generation. -/
def imageWritten (x : Latched) (s : State) : State :=
  memWrite 33 (s.still.base.toNat + 0x4000 * (nextGen s % 2)) (natLE 8 (nextGen s) ++ x.image ++ natLE 8 (nextGen s)) s

theorem publishSnapshot_latched {s : State} {x : Latched} (h : s.still.latched = some x) : publishSnapshot s =
    x.joined.foldl (fun v r => finish r stDone 0 (nextGen s) v) (fireVector 32 { imageWritten x s with
      still := { (imageWritten x s).still with
        gen := BitVec.ofNat 64 (nextGen s), latched := none
        withInvalid := if x.invalid = 0 then (imageWritten x s).still.withInvalid else satInc (imageWritten x s).still.withInvalid } }) := by
  simp only [publishSnapshot, h]
  rfl

/-! ### Events (R295, R309, R538) -/

theorem putOverflow_nothingDropped {s : State} (h : s.events.unreported = 0) : putOverflow s = s := by
  simp [putOverflow, h]

theorem putOverflow_noRoom {s : State} (h : eventRoom s = false) : putOverflow s = s := by
  simp [putOverflow, h]

/-- An event of a code that is not fatal fires its own vector alone. -/
theorem raiseOn_ordinary {code : Nat} (hc : eventFatal code = false) (vec : Nat) (data : List Byte) (s : State) :
    raiseOn vec code data s = fireVector vec (putEvent vec code data (putOverflow s)) := by
  simp [raiseOn, hc]

/-- An event that has taken its SEQ and that the recorder has noted. -/
def countedEvent (code : Nat) (s : State) : State :=
  { s with events := { s.events with seq := s.events.seq + 1 }, recorder := { s.recorder with codes := code :: s.recorder.codes } }

/-! Where a byte of Basin lies, and which rows an access leaves open, are the variant's and Basin's own (R489 to R493). -/

section

variable {s t : State} (hb : t.basin = s.basin) (hi : t.ident = s.ident)

include hb

theorem segOrder_of_basin : segOrder t = segOrder s := by
  funext k
  rw [segOrder, segOrder, hb]

theorem regionFirst_of_basin (k : Nat) : regionFirst t k = regionFirst s k := by
  induction k with
  | zero => rfl
  | succ k ih => rw [regionFirst, regionFirst, segOrder_of_basin hb, ih]

include hi

theorem usableEnd_of_basin : usableEnd t = usableEnd s := by
  rw [usableEnd, usableEnd, State.variant, State.variant, hb, hi]

theorem basinPlace_of_basin : basinPlace t = basinPlace s := by
  have hsize : segSize t = segSize s := by rw [segSize, segSize, usableEnd_of_basin hb hi]
  have hrows : segRows t = segRows s := by rw [segRows, segRows, State.variant, State.variant, hi]
  funext a
  rw [basinPlace, basinPlace, hsize, hrows, regionFirst_of_basin hb, regionCount, regionCount, segOrder_of_basin hb, hb]

theorem openAfter_of_basin (a n : Nat) : openAfter a n t = openAfter a n s := by
  rw [openAfter, openAfter, basinPlace_of_basin hb hi, hb]

end

/-- An event's record goes to Basin as it would without the event's SEQ taken. -/
theorem memPut_countedEvent (a code : Nat) (bs : List Byte) (s : State) :
    memPut a bs (countedEvent code s) = countedEvent code (memPut a bs s) := by
  simp only [memPut, openAfter_of_basin (show (countedEvent code s).basin = s.basin from rfl) rfl]
  rfl

/-- With a place, an event's record goes to base + 32 × TAIL, and TAIL goes on with PHASE changing at the wrap. -/
theorem putEvent_room {s : State} (h : eventRoom s = true) (vec code : Nat) (data : List Byte) : putEvent vec code data s =
    { memPut (s.events.base.toNat + 32 * s.events.tail.toNat) (natLE 2 code
        ++ [BitVec.ofNat 8 vec, if s.events.phase then 1 else 0] ++ natLE 4 s.events.seq.toNat ++ natLE 8 s.now ++ padTo 16 data) s with
      events := { s.events with
        seq := s.events.seq + 1
        tail := if s.events.tail.toNat + 1 = s.events.size then 0 else s.events.tail + 1
        phase := if s.events.tail.toNat + 1 = s.events.size then !s.events.phase else s.events.phase }
      recorder := { s.recorder with codes := code :: s.recorder.codes } } := by
  have h' : eventRoom (countedEvent code s) = true := h
  change (if eventRoom (countedEvent code s) then _ else _) = _
  rw [if_pos h']
  simp only [decide_eq_true_eq]
  rw [← countedEvent, memPut_countedEvent]
  rfl

/-- With no place, an event is counted as lost. -/
theorem putEvent_noRoom {s : State} (h : eventRoom s = false) (vec code : Nat) (data : List Byte) : putEvent vec code data s =
    { s with
      events := { s.events with seq := s.events.seq + 1, lost := satInc s.events.lost, unreported := s.events.unreported + 1 }
      recorder := { s.recorder with codes := code :: s.recorder.codes } } := by
  have h' : eventRoom (countedEvent code s) = false := h
  rw [countedEvent] at h'
  simp only [putEvent, h', Bool.false_eq_true, if_false]

/-! ### Vectors (R289, R323) -/

section

variable {s : State} {vec : Nat}

theorem fireVector_sent (hm : (msixOf s vec).masked = false) (hp : s.hostq.pcieUp = true) (ha : s.mgmt.attached = none) :
    fireVector vec s = { s with sent := .msix vec :: s.sent } := by
  simp [fireVector, hm, hp, ha]

theorem fireVector_masked (hm : (msixOf s vec).masked = true) :
    fireVector vec s = { s with hostq := { s.hostq with pba := s.hostq.pba ||| BitVec.ofNat 64 (2 ^ vec) } } := by
  simp [fireVector, hm]

theorem fireVector_linkDown (hm : (msixOf s vec).masked = false) (hp : s.hostq.pcieUp = false) {h : Nat}
    (ha : s.mgmt.attached = some h) : fireVector vec s = { s with
      hostq := { s.hostq with pba := s.hostq.pba ||| BitVec.ofNat 64 (2 ^ vec) }
      mgmt := { s.mgmt with notify := s.mgmt.notify ||| BitVec.ofNat 64 (2 ^ vec), fresh := true } } := by
  simp [fireVector, hm, hp, ha]

end

/-- Settles O33: each command at the time that has come, an event by the place its ring has, a vector by its mask, the link and the
attached host. -/
theorem hostLossPublicationAndEvents : Obligations.HostLossPublicationAndEvents := by
  refine ⟨fun t s => ⟨fun t0 ht h0 hl hd => ?_, fun h => ?_, fun h => ?_, fun speed width hp hpn => ?_, fun x hx => ?_⟩,
    fun vec code data s hc => ⟨fun hr hu => ?_, fun hr => ?_, fireVector_sent, fireVector_masked,
      fun hm hp _ ha => fireVector_linkDown hm hp ha⟩⟩
  rotate_right 2
  · rw [raiseOn_ordinary hc, putOverflow_nothingDropped hu, putEvent_room hr]
  · rw [raiseOn_ordinary hc, putOverflow_noRoom hr, putEvent_noRoom hr]
  all_goals refine congrArg Host.Outcome.next ?_
  · exact hostLost_due (s := passTo t s) ht h0 hl hd
  · exact hostLost_barred (s := passTo t s) h
  · exact pcieDown_up (s := passTo t s) h
  · exact (if_pos hpn).trans (pcieLinkUp_down (s := passTo t s) hp speed width)
  · exact publishSnapshot_latched (s := passTo t s) hx

end Sys2Proof.Machine
end

section
/-! SUPPORT. What the supply, RESET_N, REFCLK_IN and PERST_N do to the module. -/

namespace Sys2Proof.Machine

section

variable {s : State}

/-! ### VIN (R327, R572) -/

theorem vinRise_starts (ho : s.power.state = .off) (hr : s.pins.resetN = true) : vinRise s = restart .por 0 0 s := by
  simp [vinRise, ho, hr]

theorem vinRise_holds (ho : s.power.state = .off) (hr : s.pins.resetN = false) : vinRise s = hold .por 0 .held s := by
  simp [vinRise, ho, hr]

theorem vinRise_notOff (h : s.power.state ≠ .off) : vinRise s = s := by
  simp [vinRise, h]

theorem vinFall_stops {below6 : Bool} (h : s.power.state ≠ .off) (h6 : s.power.state = .hibernate → below6 = true) :
    vinFall below6 s = hold .pin 0 .off s := by
  unfold vinFall
  split
  case h_1 ho => exact absurd ho h
  case h_2 hh => exact if_pos (h6 hh)
  all_goals rfl

theorem vinFall_stays {below6 : Bool} (h : s.power.state = .off ∨ (s.power.state = .hibernate ∧ below6 = false)) :
    vinFall below6 s = s := by
  rcases h with ho | ⟨hh, h6⟩
  · simp [vinFall, ho]
  · simp [vinFall, hh, h6]

/-! ### RESET_N (R328, R519) -/

theorem powered_iff : powered s = true ↔ s.power.state ≠ .off ∧ s.power.state ≠ .hibernate := by
  simp [powered]

theorem resetNLow_powered (ho : s.power.state ≠ .off) (hh : s.power.state ≠ .hibernate) :
    resetNLow s = hold .pin 0 .held { s with pins := { s.pins with resetN := false } } :=
  if_pos (powered_iff (s := { s with pins := { s.pins with resetN := false } }).2 ⟨ho, hh⟩)

theorem resetNLow_unpowered (h : s.power.state = .off ∨ s.power.state = .hibernate) :
    resetNLow s = { s with pins := { s.pins with resetN := false } } :=
  if_neg fun hp => by
    obtain ⟨ho, hh⟩ := powered_iff.1 hp
    exact h.elim ho hh

theorem tryRelease_free (hs : s.power.state = .held) (hr : s.pins.resetN = true) (hc : s.power.clkLost = false)
    (hk : s.hk.shutAt = none) : tryRelease s = release s := by
  simp [tryRelease, hs, hr, hc, hk]

theorem tryRelease_heldStill (h : s.power.state ≠ .held ∨ s.pins.resetN = false ∨ s.power.clkLost = true ∨ s.hk.shutAt ≠ none) :
    tryRelease s = s := by
  rcases h with h | h | h | h <;> simp [tryRelease, h]

/-! ### REFCLK_IN (R555) -/

theorem refclkLost_running (h : s.power.state = .on ∨ (s.power.state = .held ∧ s.hk.shutAt = none)) : refclkLost s =
    { hold .pin 1 .held (beamsOff s) with power := { (hold .pin 1 .held (beamsOff s)).power with clkLost := true } } := by
  rcases h with h | ⟨h, hk⟩
  · simp [refclkLost, h]
  · simp [refclkLost, h, hk]

theorem refclkLost_stopped (h : s.power.state = .off ∨ s.power.state = .hibernate ∨ s.power.state = .standby) : refclkLost s = s := by
  rcases h with h | h | h <;> simp [refclkLost, h]

/-- The clock is back, and CLOCK_LOST waits for the firmware. -/
theorem refclkRestored_lost (h : s.power.clkLost = true) (us : Nat) : refclkRestored us s = tryRelease { s with
    power := { s.power with clkLost := false, onAlive := s.power.onAlive ++ [(0x1010, natLE 4 us)] } } := by
  simp [refclkRestored, h]

end

/-- Settles O35: each pin by the power state, and a release by what else holds the module. -/
theorem powerAndResetPins : Obligations.PowerAndResetPins := by
  refine fun t s => ⟨fun ho hr => ?_, fun ho hr => ?_, fun h => ?_, fun b h h6 => ?_, fun b h => ?_, fun ho hh => ?_, fun h => ?_,
    fun hs hc hk => ?_, fun h => ?_, fun h => ⟨_, congrArg Host.Outcome.next (refclkLost_running (s := passTo t s) h), rfl, rfl, rfl⟩,
    fun h => ?_, fun us hc hs hr hk => ?_, fun us hc hs h => ?_, rfl⟩
  all_goals refine congrArg Host.Outcome.next ?_
  · exact vinRise_starts (s := passTo t s) ho hr
  · exact vinRise_holds (s := passTo t s) ho hr
  · exact vinRise_notOff (s := passTo t s) h
  · exact vinFall_stops (s := passTo t s) h h6
  · exact vinFall_stays (s := passTo t s) h
  · exact resetNLow_powered (s := passTo t s) ho hh
  · exact resetNLow_unpowered (s := passTo t s) h
  · exact tryRelease_free hs rfl hc hk
  · exact tryRelease_heldStill (h.imp_right .inr)
  · exact refclkLost_stopped (s := passTo t s) h
  · exact (refclkRestored_lost (s := passTo t s) hc us).trans (tryRelease_free hs hr rfl hk)
  · exact (refclkRestored_lost (s := passTo t s) hc us).trans (tryRelease_heldStill (.inr (h.imp_right .inr)))

end Sys2Proof.Machine
end

section
/-! SUPPORT. A module whose MODULE reset writes to Basin: it ends the attachment of a host, and the event of that end is recorded there. -/

namespace Sys2Proof.Machine

/-- A module with an attached management host and an event ring of 16 records at 0x2000_0000. -/
def attachedModule : State :=
  { State.reset with
      mgmt := { Mgmt.reset with attached := some 1 }
      events := { EventRing.reset with set := true, size := 16, base := 0x20000000 } }

/-- A MODULE reset keeps Basin as the end of the attachment leaves it. -/
theorem restart_module_mem (cause wake : Nat) (s : State) :
    (restart .module cause wake s).basin.mem = (endAttachment 2 s).basin.mem := rfl

/-- MGMT_DETACHED (0xA00A) stands at the base of the event ring. -/
theorem attachedModule_detached : Mem.read (endAttachment 2 attachedModule).basin.mem 0x20000000 = 0x0A := by decide +kernel

/-- Refutes O36: a MODULE reset ends the attachment of the management host, and the record of MGMT_DETACHED, written to the event ring,
changes Basin, all of which the statement has a MODULE reset keep. -/
theorem not_restartKeepsWhatItMust : ¬ Obligations.RestartKeepsWhatItMust := by
  intro h
  obtain ⟨-, -, -, -, -, -, -, -, -, -, -, -, -, -, hmodule, -⟩ := h .module 0 0 attachedModule (by decide)
  obtain ⟨-, hmem, -⟩ := hmodule rfl
  have hread := attachedModule_detached
  rw [← restart_module_mem 0 0, hmem] at hread
  exact absurd hread (by decide)

end Sys2Proof.Machine
end

section
/-! SUPPORT. What the boot ROM does: training, the speed of Ethernet port 0, GO and CLEAR, and the end of the image checks. -/

namespace Sys2Proof.Machine

section

variable {s : State}

/-! ### The phases that fire vector 39 (R339, R353) -/

theorem enterPhase_waitImage : enterPhase 2 s = fireVector 39 { s with boot := { s.boot with phase := 2 } } := rfl

theorem enterPhase_cores : enterPhase 4 s = fireVector 39 { s with boot := { s.boot with phase := 4 } } := rfl

theorem enterPhase_failed : enterPhase 11 s =
    fireVector 39 { s with boot := { s.boot with phase := 11 }, pins := { s.pins with faultN := false } } := rfl

/-! ### Training and the Ethernet port (R333, R353) -/

section

variable (hon : s.power.state = .on) (hp : s.boot.phase = 1) (ht : s.boot.trained = false) (hw : s.boot.sensorWait = false)

include hon hp ht hw

theorem dramTrainDone_trained : dramTrainDone true s = fireVector 39 { s with boot := { s.boot with trained := true, phase := 2 } } := by
  simp [dramTrainDone, hon, hp, ht, hw, enterPhase_waitImage, setBoot]

theorem dramTrainDone_again (h : s.boot.trainTries < 2) : dramTrainDone false s =
    { s with boot := { s.boot with phase := 1, trainTries := s.boot.trainTries + 1 } } := by
  simp [dramTrainDone, hon, hp, ht, hw, h, setBoot]

theorem dramTrainDone_failed (h : 2 ≤ s.boot.trainTries) : dramTrainDone false s = fireVector 39 { s with
    boot := { s.boot with phase := 11, error := 1, trainTries := s.boot.trainTries + 1 }
    pins := { s.pins with faultN := false } } := by
  simp [dramTrainDone, hon, hp, ht, hw, Nat.not_lt.2 h, enterPhase_failed, setError, setBoot]

end

theorem ethSpeedTry_trying (hon : s.power.state = .on) (ha : s.boot.alive = false) (hl : s.boot.ethLock = false) (lock : Bool) :
    ethSpeedTry lock s = { s with boot :=
      if lock then { s.boot with ethLock := true } else { s.boot with eth25g := !s.boot.eth25g } } := by
  cases lock <;> simp [ethSpeedTry, hon, ha, hl, setBoot]

/-! ### GO (R339) -/

theorem bootGo_taken (hp : s.boot.phase = 2) (hlo : 4096 ≤ s.boot.ctrlLen.toNat) (hhi : s.boot.ctrlLen.toNat ≤ 50331648) :
    bootGo s = goNow s.boot.ctrlLen.toNat false s := by
  simp [bootGo, hp, Nat.not_lt.2 hlo, Nat.not_lt.2 hhi]

theorem bootGo_outOfRange (hp : s.boot.phase = 2) (hl : s.boot.ctrlLen.toNat < 4096 ∨ 50331648 < s.boot.ctrlLen.toNat) :
    bootGo s = accessError stParam 0x1104 s := by
  simp [bootGo, hp, hl]

theorem bootGo_notWaiting (hp : s.boot.phase ≠ 2) : bootGo s = accessError stState 0x1104 s := by
  have hp' : (s.boot.phase != 2) = true := bne_iff_ne.2 hp
  simp only [bootGo, hp', if_true]

/-! ### The end of the image checks (R337, R353) -/

theorem imageVerifyDone_fails (hp : s.boot.phase = 3) (h0 : imageChecks s.boot.goLen s ≠ 0) (h8 : imageChecks s.boot.goLen s ≠ 8) :
    imageVerifyDone s = fireVector 39 { s with boot := { s.boot with
      phase := 2, error := BitVec.ofNat 8 (imageChecks s.boot.goLen s), attempts := satInc s.boot.attempts } } := by
  simp [imageVerifyDone, hp, h0, h8, enterPhase_waitImage, setError, setBoot]

/-- Every segment of the staged image is copied to its place. -/
def imageLoaded (s : State) : State := (segsOf (memRead 0 512 s)).foldl (fun t g => loadSeg s g t) s

theorem loadSegs_frame (img : State) (gs : List ImageSeg) (s : State) : EventFrame s (gs.foldl (fun t g => loadSeg img g t) s) := by
  induction gs generalizing s with
  | nil => exact EventFrame.refl s
  | cons g gs ih => exact (memPut_frame _ _ s).trans (ih _)

theorem imageLoaded_frame (s : State) : EventFrame s (imageLoaded s) := loadSegs_frame s _ s

theorem memRead_passTo (t : Ns) (a n : Nat) (s : State) : memRead a n (passTo t s) = memRead a n s := rfl

/-- The cores start on an image: its length, ROLLBACK, KEY_INDEX, COMMIT_ROLLBACK and REVOKE_BELOW are kept. -/
def coresStart (s : State) (b : Boot) : Boot :=
  let hd := memRead 0 512 s
  { b with
      phase := 4, fwVersion := BitVec.ofNat 32 (field hd 12 4), coresAt := s.now
      image := some (b.goLen, field hd 16 2, field (memRead (b.goLen - 160) 160 s) 4 1, bit (field hd 18 2) 0, bit (field hd 18 2) 1) }

theorem imageVerifyDone_passes (hp : s.boot.phase = 3) (h0 : imageChecks s.boot.goLen s = 0) :
    imageVerifyDone s = fireVector 39 { imageLoaded s with boot := coresStart s s.boot } := by
  have hnow : (imageLoaded s).now = s.now := by rw [State.now, State.now, (imageLoaded_frame s).time]
  rw [imageVerifyDone, if_neg (by simp [hp])]
  simp only [h0, bne_self_eq_false, Bool.false_eq_true, if_false]
  rw [← imageLoaded, hnow, enterPhase_cores, setBoot, (imageLoaded_frame s).boot]
  simp only [coresStart]

theorem coreStartTimeout_due (hp : s.boot.phase = 4) (hd : s.boot.coresAt + 1000000000 ≤ s.now) :
    coreStartTimeout s = fireVector 39 { s with boot := { s.boot with phase := 2, error := 9 } } := by
  simp [coreStartTimeout, hp, hd, enterPhase_waitImage, setError, setBoot]

theorem coreStartTimeout_notWaiting (hp : s.boot.phase ≠ 4) : coreStartTimeout s = s := by
  have hp' : (s.boot.phase != 4) = true := bne_iff_ne.2 hp
  simp only [coreStartTimeout, hp', Bool.true_or, if_true]

end

/-- Settles O37: each command in the phase that it acts in, as the lemma of its case says. -/
theorem bootRomSteps : Obligations.BootRomSteps := by
  intro t s hon
  have reaches {f : State → State} {u : State} (h : f s = u) :
      (.next (atHost f s) : Host.Outcome State Fault Refusal) = .next u := congrArg _ ((atHost_on hon f).trans h)
  refine ⟨fun hp ht hw => ⟨?_, fun h => ?_, fun h => ?_⟩, fun ha hl => ⟨?_, ?_⟩, fun hp hlo hhi => reaches (bootGo_taken hp hlo hhi),
    fun hp hl => reaches (bootGo_outOfRange hp hl), fun hp => reaches (bootGo_notWaiting hp), reaches rfl, fun hp h0 h8 => ?_,
    fun hp h0 => ?_, fun hp hd => ?_, fun hp => ?_⟩
  case refine_7 =>
    refine ⟨_, congrArg Host.Outcome.next (imageVerifyDone_passes (s := passTo t s) hp h0), rfl, rfl, rfl, rfl, ?_⟩
    simp only [imageLoaded, loadSeg, memRead_passTo]
  all_goals refine congrArg Host.Outcome.next ?_
  · exact dramTrainDone_trained (s := passTo t s) hon hp ht hw
  · exact dramTrainDone_again (s := passTo t s) hon hp ht hw h
  · exact dramTrainDone_failed (s := passTo t s) hon hp ht hw h
  · exact ethSpeedTry_trying (s := passTo t s) hon ha hl true
  · exact ethSpeedTry_trying (s := passTo t s) hon ha hl false
  · exact imageVerifyDone_fails (s := passTo t s) hp h0 h8
  · exact coreStartTimeout_due (s := passTo t s) hp hd
  · exact coreStartTimeout_notWaiting (s := passTo t s) hp

end Sys2Proof.Machine
end

section
/-! SUPPORT. The order of the image checks. -/

namespace Sys2Proof.Machine

section

variable {len : Nat} {s : State}

/-- A word of the header or of the signature block that cannot be read fails the first check, which reads both. -/
theorem imageChecks_unreadable (h : (poisonIn 0 512 s).isSome ∨ (poisonIn (len - 160) 160 s).isSome) : imageChecks len s = 8 := by
  have h' : ((poisonIn 0 512 s).isSome || (poisonIn (len - 160) 160 s).isSome) = true := by
    rw [Bool.or_eq_true]
    exact h
  simp only [imageChecks, h', if_true]

/-- With every word readable, the checks stand in R337's order. -/
theorem imageChecks_readable (hh : poisonIn 0 512 s = none) (hs : poisonIn (len - 160) 160 s = none) (hl : poisonIn 0 len s = none) :
    let hd := memRead 0 512 s
    let sig := memRead (len - 160) 160 s
    imageChecks len s =
      if imageFormatOk len hd sig = false then 2
      else if (field hd 20 4).testBit s.variant.code = false ∨ s.ident.dieStep.toNat < field hd 24 4 then 3
      else if 3 < field sig 4 1 ∨ s.ident.otp.keysRevoked.getLsbD (field sig 4 1) = true then 6
      else if sha384 (memRead 0 (len - 160) s) ≠ (sig.drop 16).take 48 then 4
      else if ecdsaVerify p384 (Config.eohusKey (field sig 4 1)).1 (Config.eohusKey (field sig 4 1)).2 ((sig.drop 16).take 48)
        (beNat ((sig.drop 64).take 48)) (beNat ((sig.drop 112).take 48)) = false then 5
      else if field hd 16 2 < s.ident.otp.rollback.toNat then 7
      else 0 := by
  simp only [imageChecks, hh, hs, hl, Option.isSome_none, Bool.or_self, Bool.false_eq_true, if_false, Bool.or_eq_true,
    Bool.not_eq_true', decide_eq_true_eq, bne_iff_ne]

end

/-- Settles O38: the checks stand in R337's order, and each answers where all before it pass. That a word which cannot be read in the
header or the signature block answers 0x08 before checks 2 and 3 is the model's choice (log 147). -/
theorem firstImageCheckThatFails : Obligations.FirstImageCheckThatFails := by
  intro len s
  refine ⟨imageChecks_unreadable, fun hh hs hl => ?_⟩
  rw [imageChecks_readable hh hs hl]
  refine ⟨fun h1 => if_pos h1, fun h1 => ?_⟩
  rw [if_neg (Bool.not_eq_false _ ▸ h1)]
  refine ⟨fun h3 => if_pos h3, fun h3 h6 => ?_, fun h3 h6 h4 => ?_, fun h3 h6 h4 h5 => ?_, fun h3 h6 h4 h5 h7 => ?_,
    fun h3 h6 h4 h5 h7 => ?_⟩
  · rw [if_neg h3, if_pos h6]
  · rw [if_neg h3, if_neg h6, if_pos h4]
  · rw [if_neg h3, if_neg h6, if_neg h4, if_pos h5]
  · rw [if_neg h3, if_neg h6, if_neg h4, if_neg h5, if_pos h7]
  · rw [if_neg h3, if_neg h6, if_neg h4, if_neg h5, if_neg h7]

end Sys2Proof.Machine
end

section
/-! SUPPORT. From the cores' alive report to READY_LOCAL: what FIRMWARE_ALIVE, the profile's read, the partner wait, READY_LOCAL, the
watchdog and ARP do. -/

namespace Sys2Proof.Machine

/-! ### A record that is due (R543, R550) -/

theorem joinDue_ne_nil (d : RecDue) (ds : List RecDue) : joinDue d ds ≠ [] := by
  cases ds with
  | nil => exact List.cons_ne_nil _ _
  | cons x xs => unfold joinDue; split <;> exact List.cons_ne_nil _ _

/-- With a record that waits, no clear is judged, and so the identity and OTP are left alone. -/
theorem recNext_ident {s : State} (h : s.recorder.waits ≠ []) : (recNext s).ident = s.ident := by
  obtain ⟨d, ds, hw⟩ := List.exists_cons_of_ne_nil h
  unfold recNext
  rw [hw]
  split <;> rfl

theorem recDue_ident (kind cause : Nat) (refs : List Ref) (s : State) : (recDue kind cause refs s).ident = s.ident :=
  recNext_ident (joinDue_ne_nil _ _)

section

variable {s : State}

/-! ### FIRMWARE_ALIVE (R342, R353, R355, R567) -/

/-- The firmware has reported alive and starts in a phase: RESTARTED is raised, and then the events that waited. -/
def aliveRaised (phase : BitVec 4) (s : State) : State :=
  let p := s.power
  p.onAlive.foldl (fun s e => raise e.1 e.2 s)
    (raise 0x1013 (natLE 1 p.lastKind.toNat ++ natLE 1 p.wakeCause.toNat ++ natLE 1 p.cause.toNat)
      { s with
          boot := { s.boot with alive := true, aliveAt := s.now, phase := phase }
          power := { p with safe := false, onAlive := [] }
          pins := { s.pins with faultN := true } })

theorem raiseAll_frame (es : List (Nat × List Byte)) (s : State) : EventFrame s (es.foldl (fun s e => raise e.1 e.2 s) s) := by
  induction es generalizing s with
  | nil => exact EventFrame.refl s
  | cons e es ih => exact (raise_frame _ _ s).trans (ih _)

theorem aliveRaised_ident (phase : BitVec 4) (s : State) : (aliveRaised phase s).ident = s.ident :=
  (raiseAll_frame _ _).ident.trans (raise_ident _ _ _)

/-- Every port begins its enumeration, and the lanes wake. -/
def unitsWake (ports : Nat) (s : State) : State := wakeLanes ((List.range ports).foldl (fun s q => enumeration q s) s)

/-- Cores that report alive after a load at POR or WAKE also make the START record due. -/
theorem firmwareAlive_waited (h : coresWait s = true) : firmwareAlive s = unitsWake s.variant.ports
    (if s.boot.phase = 4 ∧ s.power.lastKind.toNat ≤ 1 then recDue 2 0 [] (aliveRaised (alivePhase s) s)
      else aliveRaised (alivePhase s) s) := by
  have hid : (if s.boot.phase = 4 ∧ s.power.lastKind.toNat ≤ 1 then recDue 2 0 [] (aliveRaised (alivePhase s) s)
      else aliveRaised (alivePhase s) s).ident = s.ident := by
    split
    · exact (recDue_ident _ _ _ _).trans (aliveRaised_ident _ _)
    · exact aliveRaised_ident _ _
  rw [State.variant, ← hid]
  simp only [firmwareAlive, h, Bool.not_true, Bool.false_eq_true, if_false, Bool.and_eq_true, beq_iff_eq, decide_eq_true_eq]
  rfl

theorem coresWait_loaded (hon : s.power.state = .on) (ha : s.boot.alive = false) (hp : s.boot.phase = 4) : coresWait s = true := by
  simp [coresWait, hon, ha, hp]

theorem alivePhase_noProfile (hp : s.boot.phase = 4) (hf : profileInForce s = false) : alivePhase s = 5 := by
  simp [alivePhase, hp, hf]

/-! ### The profile's read (R342, R353, R364) -/

section

variable (ha : s.boot.alive = true) (hp : s.boot.phase = 5) (hf : profileInForce s = false)

include ha hp hf

theorem profileReadDone_found (hu : (selectCopy s).use ≠ 0) :
    profileReadDone s = takeProfile (selectCopy s).use (selectCopy s).last (noteSelection (selectCopy s) s) := by
  simp only [profileReadDone, ha, hp, hf, hu, Bool.not_true, bne_self_eq_false, Bool.or_self, Bool.false_eq_true, if_false]

theorem profileReadDone_none (hu : (selectCopy s).use = 0) :
    profileReadDone s = raise 0xA019 [] { noteSelection (selectCopy s) s with
      boot := { (noteSelection (selectCopy s) s).boot with phase := 12, error := 10 } } := by
  simp only [profileReadDone, ha, hp, hf, hu, Bool.not_true, bne_self_eq_false, Bool.or_self, Bool.false_eq_true, if_false, if_true]
  rfl

end

/-! ### The partner wait (R344) -/

/-- The partner wait is over, and the start calibrations are asked for. -/
def partnersOver (s : State) : State :=
  { s with boot := { s.boot with phase := 7, partnersDone := true, startCalDone := true } }

section

variable (ha : s.boot.alive = true) (hp : s.boot.phase = 6) (hf : profileInForce s = true)

include ha hp hf

theorem partnerWaitEnd_complete (hn : partnersAbsent s = 0) : partnerWaitEnd s = calAtStart (partnersOver s) := by
  simp [partnerWaitEnd, ha, hp, hf, hn, setBoot, partnersOver]

theorem partnerWaitEnd_late (hn : 0 < partnersAbsent s)
    (ht : s.boot.profileAt + 1000000000 * s.prof.machine.partnerWaitS ≤ s.now) :
    partnerWaitEnd s = calAtStart (raise 0x400C (natLE 2 (partnersAbsent s)) (partnersOver s)) := by
  simp [partnerWaitEnd, ha, hp, hf, Nat.pos_iff_ne_zero.1 hn, Nat.not_lt.2 ht, setBoot, partnersOver]

theorem partnerWaitEnd_early (hn : 0 < partnersAbsent s)
    (ht : s.now < s.boot.profileAt + 1000000000 * s.prof.machine.partnerWaitS) : partnerWaitEnd s = s := by
  simp [partnerWaitEnd, ha, hp, hf, Nat.pos_iff_ne_zero.1 hn, ht]

end

/-! ### READY_LOCAL (R346) -/

/-- START_MS as READY_LOCAL reports it: that of the first time since the reset. -/
def startMsOf (s : State) : BitVec 32 :=
  if s.boot.startMs = 0 then BitVec.ofNat 32 (min 0xFFFFFFFF ((s.now - s.boot.porAt) / 1000000)) else s.boot.startMs

theorem startMsOf_eq {ms : BitVec 32} (h : (s.boot.startMs ≠ 0 ∧ ms = s.boot.startMs) ∨
    (s.boot.startMs = 0 ∧ ms.toNat = min 0xFFFFFFFF ((s.now - s.boot.porAt) / 1000000))) : startMsOf s = ms := by
  rcases h with ⟨h, rfl⟩ | ⟨h, hm⟩
  · exact if_neg h
  · rw [startMsOf, if_pos h, ← hm, BitVec.ofNat_toNat, BitVec.setWidth_eq]

theorem readyLocal_now (hr : s.boot.readyLocal = false) (hn : readyNow s = true) : readyLocal s =
    updateSynced (commitRollback (raise 0xA010 (natLE 4 (startMsOf s).toNat ++ natLE 2 (partnersAbsent s)) { s with
      boot := { s.boot with readyLocal := true, phase := 8, startMs := startMsOf s }
      members := { s.members with keySince := some s.now } })) := by
  simp only [readyLocal, hr, hn, Bool.not_true, Bool.or_self, Bool.false_eq_true, if_false]
  rfl

theorem readyLocal_not (h : s.boot.readyLocal = true ∨ readyNow s = false) : readyLocal s = s := by
  rcases h with h | h <;> simp [readyLocal, h]

/-! ### The watchdog and ARP (R333, R567) -/

theorem fwWatchdog_alive (ha : s.boot.alive = true) : fwWatchdog s = firmwareReset 3 { s with
    power := { s.power with onAlive := s.power.onAlive ++ [(0x1014, [])] } } := by
  simp [fwWatchdog, ha]

theorem arpRequest_own (hon : s.power.state = .on) {ip : Nat} (h : ownIp s = some ip) :
    arpRequest ip s = { s with sent := .arp s.ident.otp.mac.toNat ip :: s.sent } := by
  simp [arpRequest, hon, h]

theorem arpRequest_other {ip : Nat} (h : ownIp s ≠ some ip) : arpRequest ip s = s := by
  simp [arpRequest, h]

end

/-- Settles O40: each command in the phase that it acts in, as the lemma of its case says. -/
theorem fromTheCoresToReady : Obligations.FromTheCoresToReady := by
  intro t s hon
  refine ⟨fun ha hp hf => ?_, fun ha hlo hne hw => ?_, fun ha hp hf => ⟨fun hu => ?_, fun hu => ?_⟩,
    fun ha hp hf => ⟨fun hn => ?_, fun hn ht => ?_, fun hn ht => ?_⟩, fun ms hr hn hms => ?_, fun h => ?_, fun ha => ?_, fun ip h => ?_,
    fun ip h => ?_⟩
  case refine_1 =>
    have halive := firmwareAlive_waited (s := passTo t s) (coresWait_loaded hon ha hp)
    rw [alivePhase_noProfile (s := passTo t s) hp hf] at halive
    refine ⟨fun hk => ?_, fun hk => ?_⟩
    · rw [if_neg fun hc => absurd hc.2 (Nat.not_le.2 hk)] at halive
      exact congrArg Host.Outcome.next halive
    · rw [if_pos ⟨hp, hk⟩] at halive
      exact congrArg Host.Outcome.next halive
  all_goals refine congrArg Host.Outcome.next ?_
  · exact firmwareAlive_waited (s := passTo t s) hw
  · exact profileReadDone_found (s := passTo t s) ha hp hf hu
  · exact profileReadDone_none (s := passTo t s) ha hp hf hu
  · exact partnerWaitEnd_complete (s := passTo t s) ha hp hf hn
  · exact partnerWaitEnd_late (s := passTo t s) ha hp hf hn ht
  · exact partnerWaitEnd_early (s := passTo t s) ha hp hf hn ht
  · rw [readyLocal_now (s := passTo t s) hr hn, startMsOf_eq (s := passTo t s) hms]
    rfl
  · exact readyLocal_not (s := passTo t s) h
  · exact fwWatchdog_alive (s := passTo t s) ha
  · exact arpRequest_own (s := passTo t s) hon h
  · exact arpRequest_other (s := passTo t s) h

end Sys2Proof.Machine
end

section
/-! SUPPORT. The reset commands and what bars them, the resynchronisation of crossings, and accesses that time out. -/

namespace Sys2Proof.Machine

/-! ### Commands of GLOBAL_POWER_CTRL (R569) -/

section

variable {key : BitVec 16} {bad barred : Bool} {run : State → State} {s : State}

theorem powerCommand_badParam (h : key ≠ 0x5253 ∨ bad = true) : powerCommand key bad barred run s = accessError stParam 0x1400 s :=
  if_pos (by simpa [powerKey] using h)

/-- A command with the right KEY and operands, by what bars it. -/
theorem powerCommand_goodParam : powerCommand 0x5253 false barred run s =
    if barred then accessError stState 0x1400 s else if resetUnderWay s then accessError stBusy 0x1400 s else run s := rfl

theorem powerCommand_barred : powerCommand 0x5253 false true run s = accessError stState 0x1400 s := rfl

theorem powerCommand_busy (h : resetUnderWay s = true) : powerCommand 0x5253 false false run s = accessError stBusy 0x1400 s :=
  powerCommand_goodParam.trans (if_pos h)

theorem powerCommand_acts (h : resetUnderWay s = false) : powerCommand 0x5253 false false run s = run s :=
  powerCommand_goodParam.trans (if_neg (Bool.eq_false_iff.1 h))

theorem entryBarred_iff : entryBarred s = true ↔ jobExists s = true ∨ s.profile.busy = true := by
  simp [entryBarred]

theorem moduleReset_trained (h : s.boot.phase ≠ 11) : moduleReset s = restart .module 0 0 (forceSafe s) :=
  if_neg (by rwa [beq_iff_eq])

theorem moduleReset_failed (h : s.boot.phase = 11) :
    moduleReset s = setBoot (fun b => { b with phase := 11, error := 1 }) (restart .module 0 0 (forceSafe s)) :=
  if_pos (beq_iff_eq.2 h)

end

/-! ### PULSE crossings (R558, R562) -/

section

variable {s : State} {u : UnitId}

theorem pulseOf_absent (h : (s.power.pulses.find? fun x => x.unit == u) = none) :
    pulseOf s u = { unit := u, count := 0, lost := false, told := none } := by
  rw [pulseOf, h, Option.getD_none]

theorem pulseOf_head {x : PulseXing} {xs : List PulseXing} (h : s.power.pulses = x :: xs) (hx : x.unit = u) : pulseOf s u = x := by
  rw [pulseOf, h, List.find?_cons_of_pos (by simp [hx]), Option.getD_some]

/-- A crossing that carries nothing makes a handshake without effect, and has nothing to drop. -/
theorem pulseHandshake_empty (hc : (pulseOf s u).count = 0) (hl : (pulseOf s u).lost = false) : pulseHandshake u s = s := by
  simp [pulseHandshake, hc, hl]

theorem pulseDrop_empty (hc : (pulseOf s u).count = 0) (hl : (pulseOf s u).lost = false) : pulseDrop u s = s := by
  simp [pulseDrop, hc, hl]

theorem pulseHandshake_counted (hc : (pulseOf s u).count ≠ 0) (hl : (pulseOf s u).lost = false) :
    pulseHandshake u s = putPulse { pulseOf s u with count := 0 } s := by
  have hc' : ¬(pulseOf s u).count = 0#8 := hc
  simp [pulseHandshake, hc', hl]

/-- A crossing that has not told of a loss before tells it now. -/
theorem pulseHandshake_lost (hl : (pulseOf s u).lost = true) (ht : (pulseOf s u).told = none) :
    pulseHandshake u s = raise 0x1015 (natLE 1 u.1 ++ natLE 1 u.2) (setPower (fun p => { p with pulseLost := satInc p.pulseLost })
      (putPulse { pulseOf s u with count := 0, lost := false, told := some s.now } s)) := by
  simp [pulseHandshake, hl, ht]

/-- An empty count of 8 bits takes up events to 255. -/
theorem satAdd_emptyCount (n : Nat) : satAdd (0 : BitVec 8) n = BitVec.ofNat 8 (min n 255) := by
  by_cases h : n < 256
  · rw [satAdd, if_pos (by simpa using h), Nat.min_eq_left (by omega)]
    exact congrArg _ (Nat.zero_add n)
  · rw [satAdd, if_neg (by simpa using h), Nat.min_eq_right (by omega)]
    rfl

/-- The first events of a crossing: the count saturates at 255, and events beyond it set LOST. -/
theorem pulseArrive_first (hx : (s.power.pulses.find? fun x => x.unit == u) = none) {n : Nat} (h0 : 0 < n) : pulseArrive u n s =
    putPulse { unit := u, count := BitVec.ofNat 8 (min n 255), lost := decide (255 < n), told := none } s := by
  rw [pulseArrive, pulseOf_absent hx, if_neg (Nat.pos_iff_ne_zero.1 h0), satAdd_emptyCount]
  simp

/-- The crossing of a unit is replaced: putting it twice is putting it once. -/
theorem putPulse_twice {x y : PulseXing} (h : y.unit = x.unit) (s : State) : putPulse y (putPulse x s) = putPulse y s := by
  simp [putPulse, setPower, h, List.filter_filter]

/-! ### XING_RESYNC (R561 to R563) -/

/-- The transfers lost by a resynchronised unit count as dropped, its unit is released, and an episode of DOMAIN_DOWN is over. -/
def resynced (u : UnitId) (lost : Nat) (s : State) : State :=
  { s with power := { s.power with
      dropped := satAdd s.power.dropped lost, downEpisode := false, blockReset := s.power.blockReset.filter fun x => x != u } }

/-- A resynchronised crossing that tells of its lost events now. -/
def lossTold (u : UnitId) (lost : Nat) (s : State) : State :=
  { s with power := { s.power with
      dropped := satAdd s.power.dropped lost, downEpisode := false, blockReset := s.power.blockReset.filter fun x => x != u
      pulseLost := satInc s.power.pulseLost
      pulses := { unit := u, count := 0, lost := false, told := some s.now } :: s.power.pulses.filter fun x => x.unit != u } }

theorem lossTold_eq (u : UnitId) (lost : Nat) (s : State) : lossTold u lost s =
    setPower (fun p => { p with pulseLost := satInc p.pulseLost })
      (putPulse { unit := u, count := 0, lost := false, told := some s.now } (resynced u lost s)) := rfl

theorem pulseOf_resynced (lost : Nat) (s : State) : pulseOf (resynced u lost s) u = pulseOf s u := rfl

/-- After a stopped clock the next handshake carries what came to the crossing. -/
theorem xingResync_stopped (hu : s.power.blockReset.contains u = false) (d n : Nat) : xingResync u d n s =
    pulseHandshake u (resynced u (d + (pulseOf (pulseArrive u n s) u).count.toNat) (pulseArrive u n s)) := by
  simp only [xingResync, hu, Bool.false_eq_true, if_false, Bool.not_false, if_true]
  rfl

/-- After a reset the crossing of a unit that is neither a lane nor a tarn drops what came to it. -/
theorem xingResync_released (hu : s.power.blockReset.contains u = true) (h2 : 2 ≤ u.1) (d n : Nat) : xingResync u d n s =
    pulseDrop u (resynced u (d + (pulseOf (pulseArrive u n s) u).count.toNat) (pulseArrive u n s)) := by
  have h0 : u.1 ≠ 0 := by omega
  have h1 : u.1 ≠ 1 := by omega
  simp only [xingResync, hu, h0, h1, if_true, Bool.not_true, Bool.false_eq_true, if_false]
  rfl

section

variable (hx : (s.power.pulses.find? fun x => x.unit == u) = none)

include hx

theorem xingResync_noEvents (hu : s.power.blockReset.contains u = false ∨ 2 ≤ u.1) (d : Nat) : xingResync u d 0 s = resynced u d s := by
  have hp : pulseOf s u = { unit := u, count := 0, lost := false, told := none } := pulseOf_absent hx
  have harrive : pulseArrive u 0 s = s := rfl
  have hcount : d + (pulseOf s u).count.toNat = d := by rw [hp]; rfl
  cases hc : s.power.blockReset.contains u with
  | false =>
    rw [xingResync_stopped hc, harrive, hcount]
    exact pulseHandshake_empty (by rw [pulseOf_resynced, hp]) (by rw [pulseOf_resynced, hp])
  | true =>
    rw [xingResync_released hc (hu.resolve_left (by rw [hc]; decide)), harrive, hcount]
    exact pulseDrop_empty (by rw [pulseOf_resynced, hp]) (by rw [pulseOf_resynced, hp])

theorem pulseOf_pulseArrive {n : Nat} (h0 : 0 < n) : pulseOf (pulseArrive u n s) u =
    { unit := u, count := BitVec.ofNat 8 (min n 255), lost := decide (255 < n), told := none } := by
  rw [pulseArrive_first hx h0]
  exact pulseOf_head rfl rfl

theorem count_pulseArrive {n : Nat} (h0 : 0 < n) : (pulseOf (pulseArrive u n s) u).count.toNat = min n 255 := by
  rw [pulseOf_pulseArrive hx h0]
  exact Nat.mod_eq_of_lt (by omega)

/-- What came to the crossing counts as dropped, and the crossing goes on as its next handshake leaves it. -/
theorem xingResync_events (hu : s.power.blockReset.contains u = false) (d : Nat) {n : Nat} (h0 : 0 < n) : xingResync u d n s =
    pulseHandshake u (resynced u (d + min n 255) (pulseArrive u n s)) := by
  rw [xingResync_stopped hu, count_pulseArrive hx h0]

/-- A crossing that replaces the one to which events came stands beside the resynchronised rest. -/
theorem putPulse_resynced {x : PulseXing} (hxu : x.unit = u) (lost : Nat) {n : Nat} (h0 : 0 < n) :
    putPulse x (resynced u lost (pulseArrive u n s)) = putPulse x (resynced u lost s) := by
  rw [pulseArrive_first hx h0]
  exact putPulse_twice (x := { unit := u, count := _, lost := _, told := none }) hxu (resynced u lost s)

theorem xingResync_fewEvents (hu : s.power.blockReset.contains u = false) (d : Nat) {n : Nat} (h0 : 0 < n) (h : n ≤ 255) :
    xingResync u d n s = putPulse { unit := u, count := 0, lost := false, told := none } (resynced u (d + n) s) := by
  rw [xingResync_events hx hu d h0, Nat.min_eq_left h, pulseHandshake_counted, pulseOf_resynced, pulseOf_pulseArrive hx h0,
    putPulse_resynced hx rfl _ h0]
  · rw [decide_eq_false (Nat.not_lt.2 h)]
  · intro hzero
    have hcount := count_pulseArrive hx h0
    rw [← pulseOf_resynced, hzero, Nat.min_eq_left h] at hcount
    exact h0.ne hcount
  · rw [pulseOf_resynced, pulseOf_pulseArrive hx h0]
    exact decide_eq_false (Nat.not_lt.2 h)

theorem xingResync_manyEvents (hu : s.power.blockReset.contains u = false) (d : Nat) {n : Nat} (h : 255 < n) :
    xingResync u d n s = raise 0x1015 (natLE 1 u.1 ++ natLE 1 u.2) (lossTold u (d + 255) s) := by
  have h0 : 0 < n := by omega
  rw [xingResync_events hx hu d h0, Nat.min_eq_right h.le, pulseHandshake_lost, pulseOf_resynced, pulseOf_pulseArrive hx h0,
    putPulse_resynced hx rfl _ h0, lossTold_eq]
  · rw [pulseArrive_first hx h0]
    rfl
  · rw [pulseOf_resynced, pulseOf_pulseArrive hx h0]
    exact decide_eq_true h
  · rw [pulseOf_resynced, pulseOf_pulseArrive hx h0]

end

end

/-! ### Accesses that time out (R284, R561) -/

/-- An access has timed out: it counts, and its episode of DOMAIN_DOWN has begun. -/
def timedOut (off : Nat) (s : State) : State :=
  accessError stDown off { s with power := { s.power with
    down := satInc s.power.down, lastDown := BitVec.ofNat 26 off, downEpisode := true } }

theorem accessTimeout_again {s : State} (h : s.power.downEpisode = true) (off : Nat) (read : Bool) : accessTimeout off read s =
    if read then { timedOut off s with sent := .readData off 0xFFFFFFFF :: (timedOut off s).sent } else timedOut off s := by
  simp only [accessTimeout, h, Bool.not_true, Bool.false_eq_true, if_false]
  rfl

theorem accessTimeout_first {s : State} (h : s.power.downEpisode = false) (off : Nat) :
    accessTimeout off false s = raise 0x1016 (natLE 4 off) (timedOut off s) := by
  simp only [accessTimeout, h, Bool.not_false, if_true, Bool.false_eq_true, if_false]
  rfl

/-- Settles O41: each command by its KEY, its operands and what bars it, XING_RESYNC by what came to the crossing, an access by its
episode. That XING_RESYNC releases its unit and ends the episode of DOMAIN_DOWN is the model's choice (log 148), and so is the LOST that
outlives the drop of the events (log 108). STANDBY and HIBERNATE may begin whether the firmware is alive or not (log 149). -/
theorem resetCommandsAndCrossings : Obligations.ResetCommandsAndCrossings := by
  intro t key s hon
  have reaches {f : State → State} {u : State} (h : f s = u) :
      (.next (atHost f s) : Host.Outcome State Fault Refusal) = .next u := congrArg _ ((atHost_on hon f).trans h)
  refine ⟨fun hk => ?_, fun hb => ?_, fun hr => ?_, fun hj => ?_, fun hr => ?_, fun u d hu hx => ?_, fun u d n hu hx => ⟨fun h0 hn => ?_,
    fun hn => ?_⟩, fun off h => ⟨?_, ?_⟩, fun off h => ?_⟩
  · have bad {b c : Bool} {f : State → State} := powerCommand_badParam (bad := b) (barred := c) (run := f) (s := s) (.inl hk)
    exact ⟨reaches bad, reaches bad, reaches bad, reaches bad, reaches bad⟩
  · exact reaches (powerCommand_badParam (.inr (by rw [hb, Bool.not_false])))
  · refine ⟨reaches (powerCommand_busy hr), reaches (powerCommand_busy hr), fun hb => reaches ?_⟩
    rw [hb]
    exact powerCommand_busy hr
  · have barred {f : State → State} : powerCommand 0x5253 false (entryBarred s) f s = accessError stState 0x1400 s := by
      rw [entryBarred_iff.2 hj]
      exact powerCommand_barred
    exact ⟨reaches barred, reaches barred⟩
  · refine ⟨fun hp => reaches ((powerCommand_acts hr).trans (moduleReset_trained hp)),
      fun hp => reaches ((powerCommand_acts hr).trans (moduleReset_failed hp)), reaches (powerCommand_acts hr), fun hb => reaches ?_,
      fun hj hw => ?_⟩
    · rw [hb]
      exact powerCommand_acts hr
    · have free {f : State → State} : powerCommand 0x5253 false (entryBarred s) f s = f s := by
        rw [Bool.eq_false_iff.2 (mt entryBarred_iff.1 (by simp [hj, hw]))]
        exact powerCommand_acts hr
      exact ⟨reaches free, reaches free⟩
  all_goals refine congrArg Host.Outcome.next ?_
  · exact xingResync_noEvents (s := passTo t s) hx hu d
  · exact xingResync_fewEvents (s := passTo t s) hx hu d h0 hn
  · exact xingResync_manyEvents (s := passTo t s) hx hu d hn
  · exact accessTimeout_again (s := passTo t s) h off false
  · exact accessTimeout_again (s := passTo t s) h off true
  · exact accessTimeout_first (s := passTo t s) h off

end Sys2Proof.Machine
end

section
/-! SUPPORT. The commands of the profile memory: WRITE, its end and RELOAD (R382 to R385). -/

namespace Sys2Proof.Machine

/-! ### WRITE (R382) -/

/-- A WRITE of image `img` is under way: CAUSE of the target is 0, BUSY is set, and the target holds the image's header. -/
def writeBegun (img : List Byte) (s : State) : State :=
  setCopy (writeTarget s) (img.take 256)
    (setProfile (fun p => { p with busy := true, progress := 0, writing := some (writeTarget s, img) }) (setCause (writeTarget s) 0 s))

section

variable (img bs : List Byte) (target cause : Nat) (s : State)

theorem setCause_frame : setCause target cause s =
    { s with profile := { s.profile with causeA := (setCause target cause s).profile.causeA
                                         causeB := (setCause target cause s).profile.causeB } } := by
  simp only [setCause, setProfile]
  split <;> rfl

theorem setCopy_frame : setCopy target bs s =
    { s with profile := { s.profile with memA := (setCopy target bs s).profile.memA, memB := (setCopy target bs s).profile.memB } } := by
  simp only [setCopy, setProfile]
  split <;> rfl

/-- What a WRITE that has begun has set; the profile in force is not among it. -/
theorem writeBegun_frame : writeBegun img s =
    { s with profile := { s.profile with
        busy := true, progress := 0, writing := some (writeTarget s, img)
        causeA := (writeBegun img s).profile.causeA, causeB := (writeBegun img s).profile.causeB
        memA := (writeBegun img s).profile.memA, memB := (writeBegun img s).profile.memB } } := by
  rw [writeBegun, setCopy_frame, setCause_frame]
  rfl

end

section

variable {s : State}

theorem profileWrite_busy (hb : s.profile.busy = true) : profileWrite s = writeDone stBusy (writeTarget s) 0 s := if_pos hb

theorem profileWrite_badParam (hb : s.profile.busy = false)
    (h : s.profile.ctrlAddr.toNat % 4096 ≠ 0 ∨ s.profile.ctrlLen.toNat < 256 ∨
      hostMem s.profile.ctrlAddr.toNat s.profile.ctrlLen.toNat s = false) :
    profileWrite s = writeDone stParam (writeTarget s) 0 s := by
  rw [profileWrite, if_neg (by simp [hb]), if_pos (by simpa [or_assoc] using h)]

/-- An image that passes every check, is newer than the profile in force and fits is taken (R382). -/
theorem profileWrite_taken {a n : Nat} (ha : s.profile.ctrlAddr.toNat = a) (hn : s.profile.ctrlLen.toNat = n)
    (hb : s.profile.busy = false) (hal : a % 4096 = 0) (hlen : 256 ≤ n) (hmem : hostMem a n s = true) (hecc : poisonIn a n s = none)
    (hok : (imageCheck (touchBasin a n s) (memRead a n s)).cause = 0)
    (hgen : s.profile.generation.toNat < profGen ((memRead a n s).take 256)) (hfit : n ≤ s.profile.memBytes / 2) :
    profileWrite s = writeBegun (memRead a n s) (touchBasin a n s) := by
  have region : ¬ (a % 4096 != 0 || decide (n < 256) || !hostMem a n s) = true := by simp [hal, hlen, hmem]
  have newer : ¬ profGen ((memRead a n s).take 256) ≤ s.profile.generation.toNat := by omega
  have fits : ¬ s.profile.memBytes / 2 < n := by omega
  have read : memRead a n (touchBasin a n s) = memRead a n s := rfl
  simp only [profileWrite, ha, hn]
  rw [if_neg (by simp [hb]), if_neg region, hecc]
  simp only [read, hok, newer, fits, if_true, bne_self_eq_false, decide_false, Bool.or_self, Bool.false_eq_true, if_false]
  rfl

/-! ### The end of a WRITE (R382, R385) -/

theorem profileWriteDone_idle (hw : s.profile.writing = none) (r : Nat) : profileWriteDone r s = s := by
  rw [profileWriteDone, hw]

theorem profileWriteDone_done {target : Nat} {img : List Byte} (hw : s.profile.writing = some (target, img)) :
    profileWriteDone 0 s = writeDone stDone target (profGen (img.take 256))
      (setCopy target img (setProfile (fun p => { p with busy := false, progress := 100, writing := none }) s)) := by
  rw [profileWriteDone, hw]
  exact if_pos rfl

/-! ### RELOAD (R383) -/

theorem profileReload_busy (hb : s.profile.busy = true) : profileReload s = reloadDone stBusy s := if_pos hb

theorem profileReload_job (hb : s.profile.busy = false) (hj : jobExists s = true) : profileReload s = reloadDone stState s := by
  rw [profileReload, if_neg (by simp [hb]), if_pos hj]

theorem profileReload_commit (hb : s.profile.busy = false) (hj : jobExists s = false) (hc : setsInCommit s ≠ 0) :
    profileReload s = reloadDone stBusy s := by
  rw [profileReload, if_neg (by simp [hb]), if_neg (by simp [hj]), if_pos (bne_iff_ne.2 hc)]

section

variable (hb : s.profile.busy = false) (hj : jobExists s = false) (hc : setsInCommit s = 0)
include hb hj hc

/-- With nothing that bars it, a RELOAD goes by the copy that the selection gives. -/
theorem profileReload_selects : profileReload s =
    let x := selectCopy s
    let v := noteSelection x s
    if x.use = 0 then reloadDone stData v
    else if profileInForce v then
      reloadDone (if (applyReload x.use x.last v).profile.startPending then stDoneNote else stDone) (applyReload x.use x.last v)
    else reloadDone stDone (takeProfile x.use x.last v) := by
  rw [profileReload, if_neg (by simp [hb]), if_neg (by simp [hj]), if_neg (by simp [hc])]

theorem profileReload_noCopy (hu : (selectCopy s).use = 0) :
    profileReload s = reloadDone stData (noteSelection (selectCopy s) s) := by
  rw [profileReload_selects hb hj hc]
  exact if_pos hu

theorem profileReload_first (hu : (selectCopy s).use ≠ 0) (hp : profileInForce (noteSelection (selectCopy s) s) = false) :
    profileReload s =
      reloadDone stDone (takeProfile (selectCopy s).use (selectCopy s).last (noteSelection (selectCopy s) s)) := by
  rw [profileReload_selects hb hj hc]
  exact (if_neg hu).trans (if_neg (by simp [hp]))

/-- A reload says with DONE_NOTE that records of class START wait for a start. -/
theorem profileReload_again (hu : (selectCopy s).use ≠ 0) (hp : profileInForce (noteSelection (selectCopy s) s) = true) :
    profileReload s =
      reloadDone (if startDiffers (noteSelection (selectCopy s) s).prof (selectCopy s).last.records then stDoneNote else stDone)
        (applyReload (selectCopy s).use (selectCopy s).last (noteSelection (selectCopy s) s)) := by
  rw [profileReload_selects hb hj hc]
  refine (if_neg hu).trans ((if_pos hp).trans ?_)
  rw [applyReload_profile]

end

/-! ### The firmware carries both out (R382, R383) -/

theorem execProfileWrite_notAlive (h : s.boot.alive = false) : exec .profileWrite s = .next s :=
  congrArg Host.Outcome.next (if_neg (by simp [h]))

theorem execProfileReload_notAlive (h : s.boot.alive = false) : exec .profileReload s = .next s :=
  congrArg Host.Outcome.next (if_neg (by simp [h]))

theorem execProfileWrite_alive (h : s.boot.alive = true) : exec .profileWrite s = .next (profileWrite s) :=
  congrArg Host.Outcome.next (if_pos h)

theorem execProfileReload_alive (h : s.boot.alive = true) : exec .profileReload s = .next (profileReload s) :=
  congrArg Host.Outcome.next (if_pos h)

end

/-- Settles O44: each command by what bars it, WRITE by its region and its image, its end by the target, RELOAD by the copy selected
and the profile in force. That neither command acts before the firmware is alive, and that RELOAD acts at once, is the model's choice
(log 155). -/
theorem profileWriteAndReload : Obligations.ProfileWriteAndReload := by
  intro t s
  refine ⟨fun h => ⟨execProfileWrite_notAlive h, execProfileReload_notAlive h⟩, fun ha => ?_, fun target img hw => ⟨?_, ?_⟩,
    fun hw r => congrArg Host.Outcome.next (profileWriteDone_idle (s := passTo t s) hw r)⟩
  · rw [execProfileWrite_alive ha, execProfileReload_alive ha]
    refine ⟨fun hb => congrArg _ (profileWrite_busy hb), fun hb h => congrArg _ (profileWrite_badParam hb h),
      fun hb hal hlen hmem hecc hok hgen hfit => ?_, fun hb => congrArg _ (profileReload_busy hb),
      fun hb hj => congrArg _ (profileReload_job hb hj), fun hb hj hc => congrArg _ (profileReload_commit hb hj hc),
      fun hb hj hc => ⟨fun hu => congrArg _ (profileReload_noCopy hb hj hc hu),
        fun hu hp => congrArg _ (profileReload_first hb hj hc hu hp), fun hu hp hd => ?_, fun hu hp hd => ?_⟩⟩
    · refine ⟨_, congrArg _ (profileWrite_taken rfl rfl hb hal hlen hmem hecc hok hgen hfit), ?_⟩
      rw [writeBegun_frame]
      exact ⟨rfl, rfl, rfl, rfl, rfl, rfl⟩
    · rw [profileReload_again hb hj hc hu hp, if_neg (by simp [hd])]
    · rw [profileReload_again hb hj hc hu hp, if_pos hd]
  · rintro rfl
    exact congrArg Host.Outcome.next (profileWriteDone_done (s := passTo t s) hw)
  · rintro rfl
    exact congrArg Host.Outcome.next (profileWriteDone_done (s := passTo t s) hw)

end Sys2Proof.Machine
end

section
/-! SUPPORT. Every operation of the module keeps the contents of Basin in canonical form (log 2): one lemma for each operation, file by file
in the order of the model, and each by the lemmas of the operations that it calls. Only `memPut` writes bytes and only a reset drops some;
every other update of the state leaves the bytes as they are. -/

namespace Sys2Proof.Machine

/-! ### Updates, branches and loops -/

/-- An update of any fields but Basin's. -/
theorem BasinWf.update {s : State} {ident pins power permit boot members profile time hostq events access mgmt still override staging
    waiting jobs lanes tarns curves mere prox link cfg axes enc hall cmp echo hk cams isp light zip scenes edp recorder sent free
    pending}
    (h : BasinWf s) :
    BasinWf ⟨ident, pins, power, permit, boot, members, profile, time, s.basin, hostq, events, access, mgmt, still, override, staging,
      waiting, jobs, lanes, tarns, curves, mere, prox, link, cfg, axes, enc, hall, cmp, echo, hk, cams, isp, light, zip, scenes, edp,
      recorder, sent, free, pending⟩ := h

/-- An update that leaves Basin's bytes. -/
theorem BasinWf.updateBasin {s : State} {ident pins power permit boot members profile time hostq events access mgmt still override staging
    waiting jobs lanes tarns curves mere prox link cfg axes enc hall cmp echo hk cams isp light zip scenes edp recorder sent free
    pending} {b_poisoned b_eccEn b_segOrder b_srIdle b_scrubPeriod b_nrtWeight b_bankMask b_state b_hot b_retain b_postponed
    b_forcedEpisode b_forcedRefresh b_panicLong b_srEntries b_srAbort b_inorder b_scrubPasses b_ceCount b_ueCount b_lastCe b_lastUe
    b_ceSecond b_ceHiLatch b_ueHiLatch b_lastReq b_openRows b_rt}
    (h : BasinWf s) :
    BasinWf ⟨ident, pins, power, permit, boot, members, profile, time, ⟨s.basin.mem, b_poisoned, b_eccEn, b_segOrder, b_srIdle,
      b_scrubPeriod, b_nrtWeight, b_bankMask, b_state, b_hot, b_retain, b_postponed, b_forcedEpisode, b_forcedRefresh, b_panicLong,
      b_srEntries, b_srAbort, b_inorder, b_scrubPasses, b_ceCount, b_ueCount, b_lastCe, b_lastUe, b_ceSecond, b_ceHiLatch, b_ueHiLatch,
      b_lastReq, b_openRows, b_rt⟩, hostq, events, access, mgmt, still, override, staging, waiting, jobs, lanes, tarns, curves, mere,
      prox, link, cfg, axes, enc, hall, cmp, echo, hk, cams, isp, light, zip, scenes, edp, recorder, sent, free, pending⟩ := h

theorem ite_wf {c : Prop} {_ : Decidable c} {a b : State} (ha : BasinWf a) (hb : BasinWf b) : BasinWf (if c then a else b) := by
  split
  · exact ha
  · exact hb

theorem ite_snd_wf {α : Type} {c : Prop} {_ : Decidable c} {a b : α × State} (ha : BasinWf a.2) (hb : BasinWf b.2) :
    BasinWf (if c then a else b).2 := by
  split
  · exact ha
  · exact hb

theorem foldl_wf {α : Type} {f : State → α → State} (hf : ∀ u a, BasinWf u → BasinWf (f u a)) {s : State} (h : BasinWf s) (l : List α) :
    BasinWf (l.foldl f s) := by
  induction l generalizing s with
  | nil => exact h
  | cons a l ih => exact ih (hf s a h)

theorem foldl_fst_wf {α β : Type} {f : State × β → α → State × β} (hf : ∀ u a, BasinWf u.1 → BasinWf (f u a).1) {p : State × β}
    (h : BasinWf p.1) (l : List α) : BasinWf (l.foldl f p).1 := by
  induction l generalizing p with
  | nil => exact h
  | cons a l ih => exact ih (hf p a h)

/-! ### Machine/State -/

theorem State.reset_wf : BasinWf State.reset := rfl

/-! ### Machine/Ops -/

theorem passTo_wf {t} {s : State} (h : BasinWf s) : BasinWf (passTo t s) := h.update
theorem takeFree_wf {s : State} (h : BasinWf s) : BasinWf (takeFree s).2 := h.update
theorem touchBasin_wf {a n} {s : State} (h : BasinWf s) : BasinWf (touchBasin a n s) := h.updateBasin

theorem fireVector_wf {v} {s : State} (h : BasinWf s) : BasinWf (fireVector v s) :=
  ite_wf ((ite_wf h.update h).update) ((ite_wf h.update h).update)

theorem setActive_wf {f} {s : State} (h : BasinWf s) : BasinWf (setActive f s) := h.update
theorem recExtreme_wf {i value tag} {s : State} (h : BasinWf s) : BasinWf (recExtreme i value tag s) := setActive_wf h

theorem putEvent_wf {vec code data} {s : State} (h : BasinWf s) : BasinWf (putEvent vec code data s) :=
  ite_wf ((memPut_wf _ _ h.update).update) h.update.update

theorem putOverflow_wf {s : State} (h : BasinWf s) : BasinWf (putOverflow s) := ite_wf h (fireVector_wf (putEvent_wf h.update))

theorem raiseOn_wf {vec code data} {s : State} (h : BasinWf s) : BasinWf (raiseOn vec code data s) :=
  ite_wf (fireVector_wf (fireVector_wf (putEvent_wf (putOverflow_wf h)))) (fireVector_wf (putEvent_wf (putOverflow_wf h)))

theorem raise_wf {code data} {s : State} (h : BasinWf s) : BasinWf (raise code data s) := raiseOn_wf h
theorem raiseTarn_wf {t code data} {s : State} (h : BasinWf s) : BasinWf (raiseTarn t code data s) := raiseOn_wf h

theorem accessError_wf {status off} {s : State} (h : BasinWf s) : BasinWf (accessError status off s) :=
  ite_wf (raise_wf h.update) h.update

theorem badAccess_wf {s : State} (h : BasinWf s) : BasinWf (badAccess s) := h.update
theorem reservedWrite_wf {s : State} (h : BasinWf s) : BasinWf (reservedWrite s) := h.update
theorem ownerReject_wf {off} {s : State} (h : BasinWf s) : BasinWf (ownerReject off s) := accessError_wf h.update

theorem eccUe_wf {port a} {s : State} (h : BasinWf s) : BasinWf (eccUe port a s) :=
  ite_wf (raise_wf (raise_wf h.updateBasin)) (raise_wf h.updateBasin)

theorem memWrite_wf {port a bs} {s : State} (h : BasinWf s) : BasinWf (memWrite port a bs s) :=
  foldl_wf (fun _ _ h1 => eccUe_wf h1) (memPut_wf _ _ h) _

/-! ### Machine/HostQ -/

theorem setCmd_wf {r f} {s : State} (h : BasinWf s) : BasinWf (setCmd r f s) := h.update
theorem setCq_wf {c f} {s : State} (h : BasinWf s) : BasinWf (setCq c f s) := h.update
theorem trackStalls_wf {s : State} (h : BasinWf s) : BasinWf (trackStalls s) := h.update
theorem accept_wf {hd opcode} {s : State} (h : BasinWf s) : BasinWf (accept hd opcode s) := h.update

theorem park_wf {r} {s : State} (h : BasinWf s) : BasinWf (park r s) := by
  unfold park
  split
  · exact h
  · exact h.update

theorem dropTicket_wf {r} {s : State} (h : BasinWf s) : BasinWf (dropTicket r s) := setCmd_wf h.update
theorem markFences_wf {r st} {s : State} (h : BasinWf s) : BasinWf (markFences r st s) := h.update

theorem putFinished_wf {f} {s : State} (h : BasinWf s) : BasinWf (putFinished f s) := by
  unfold putFinished
  split <;> exact h.update

theorem settleFences_wf {n} {s : State} (h : BasinWf s) : BasinWf (settleFences n s) := by
  rw [settleFences_hostq n s]
  exact h

theorem settle_wf {s : State} (h : BasinWf s) : BasinWf (settle s) := settleFences_wf h

theorem finishAs_wf {r ctx late st detail data} {s : State} (h : BasinWf s) : BasinWf (finishAs r ctx late st detail data s) := by
  unfold finishAs
  split
  · exact h
  · exact ite_wf h (ite_wf (settle_wf (markFences_wf (dropTicket_wf h))) (putFinished_wf h))

theorem finish_wf {r st detail data} {s : State} (h : BasinWf s) : BasinWf (finish r st detail data s) := finishAs_wf h
theorem finishIn_wf {ctx r st detail data} {s : State} (h : BasinWf s) : BasinWf (finishIn ctx r st detail data s) := finishAs_wf h
theorem endWith_wf {r st} {s : State} (h : BasinWf s) : BasinWf (endWith r st s) := finish_wf h

theorem postDescriptor_wf {i hd opcode start} {s : State} (hf3 : ∀ x0, BasinWf x0 → BasinWf (start x0)) (h : BasinWf s) :
    BasinWf (postDescriptor i hd opcode start s) :=
  ite_wf h (ite_wf (hf3 _ (accept_wf h)) ((accept_wf h).update))

theorem fireCq_wf {c} {s : State} (h : BasinWf s) : BasinWf (fireCq c s) := fireVector_wf (setCq_wf h)

theorem writeCompletion_wf {f} {s : State} (h : BasinWf s) : BasinWf (writeCompletion f s) :=
  settle_wf (markFences_wf (dropTicket_wf (ite_wf (ite_wf (fireCq_wf (setCq_wf (memPut_wf _ _ h))) (setCq_wf (memPut_wf _ _ h))) h)))

theorem refillSlot_wf {ctx} {s : State} (h : BasinWf s) : BasinWf (refillSlot ctx s) := by
  unfold refillSlot
  split <;> exact h.update

theorem collectOne_wf {s : State} (h : BasinWf s) : BasinWf (collectOne s) := by
  unfold collectOne
  split
  · exact h
  · exact writeCompletion_wf (refillSlot_wf h.update)

theorem completionCollect_wf {s : State} (h : BasinWf s) : BasinWf (completionCollect s) :=
  trackStalls_wf (collectOne_wf (collectOne_wf (collectOne_wf (collectOne_wf h))))

theorem hostSeen_wf {s : State} (h : BasinWf s) : BasinWf (hostSeen s) := ite_wf (raise_wf (recExtreme_wf h.update)) h.update
theorem doorbell_wf {ring tail} {s : State} (h : BasinWf s) : BasinWf (doorbell ring tail s) := trackStalls_wf (hostSeen_wf (setCmd_wf h))

theorem writeCmdBase_wf {r hi v} {s : State} (h : BasinWf s) : BasinWf (writeCmdBase r hi v s) :=
  ite_wf (accessError_wf h) (ite_wf h (setCmd_wf h))

theorem writeCmdCtrl_wf {r v} {s : State} (h : BasinWf s) : BasinWf (writeCmdCtrl r v s) :=
  ite_wf (ite_wf (accessError_wf h) (ite_wf h (trackStalls_wf (setCmd_wf h)))) (ite_wf (ite_wf h (ite_wf (accessError_wf h)
      (trackStalls_wf (setCmd_wf h)))) (setCmd_wf h))

theorem writeCqBase_wf {c hi v} {s : State} (h : BasinWf s) : BasinWf (writeCqBase c hi v s) :=
  ite_wf (accessError_wf h) (ite_wf h (setCq_wf h))

theorem writeCqCtrl_wf {c v} {s : State} (h : BasinWf s) : BasinWf (writeCqCtrl c v s) :=
  ite_wf (ite_wf (ite_wf (accessError_wf h) h) (ite_wf h (trackStalls_wf (setCq_wf h)))) (ite_wf (ite_wf h (ite_wf (accessError_wf h)
      (trackStalls_wf (setCq_wf h)))) (setCq_wf h))

theorem writeCqHead_wf {c v} {s : State} (h : BasinWf s) : BasinWf (writeCqHead c v s) := trackStalls_wf (setCq_wf h)
theorem writeCqInt_wf {c v} {s : State} (h : BasinWf s) : BasinWf (writeCqInt c v s) := setCq_wf h
theorem writeMsix_wf {v word x} {s : State} (h : BasinWf s) : BasinWf (writeMsix v word x s) := ite_wf h.update.update h.update
theorem atHost_wf {f} {s : State} (hf0 : ∀ x0, BasinWf x0 → BasinWf (f x0)) (h : BasinWf s) : BasinWf (atHost f s) := ite_wf (hf0 _ h) h
theorem writeEventHead_wf {v} {s : State} (h : BasinWf s) : BasinWf (writeEventHead v s) := h.update
theorem clearNotify_wf {hi v} {s : State} (h : BasinWf s) : BasinWf (clearNotify hi v s) := h.update

theorem intTimeExpire_wf {c} {s : State} (h : BasinWf s) : BasinWf (intTimeExpire c s) := by
  unfold intTimeExpire
  dsimp only
  split
  · exact ite_wf (fireCq_wf h) h
  · exact h

theorem cqStalled_wf {r} {s : State} (h : BasinWf s) : BasinWf (cqStalled r s) := by
  unfold cqStalled
  split
  · exact ite_wf (raise_wf h) h
  · exact h

theorem endAttachment_wf {cause} {s : State} (h : BasinWf s) : BasinWf (endAttachment cause s) := by
  unfold endAttachment
  split
  · exact h
  · exact raise_wf h.update

theorem hostLost_wf {s : State} (h : BasinWf s) : BasinWf (hostLost s) := by
  unfold hostLost
  split
  · exact ite_wf (raise_wf h.update) h
  · exact h

theorem pcieDown_wf {s : State} (h : BasinWf s) : BasinWf (pcieDown s) := ite_wf (raise_wf h.update) h
theorem sendPending_wf {s : State} (h : BasinWf s) : BasinWf (sendPending s) := h.update

theorem pcieLinkUp_wf {speed width} {s : State} (h : BasinWf s) : BasinWf (pcieLinkUp speed width s) :=
  ite_wf h (raise_wf (sendPending_wf h.update))

/-! ### Machine/Ripple -/

theorem setRipple_wf {f} {s : State} (h : BasinWf s) : BasinWf (setRipple f s) := h.update
theorem ripplePost_wf {a} {s : State} (h : BasinWf s) : BasinWf (ripplePost a s) := setRipple_wf h
theorem postHost_wf {w r launch} {s : State} (h : BasinWf s) : BasinWf (postHost w r launch s) := ripplePost_wf h
theorem postOwn_wf {w launch} {s : State} (h : BasinWf s) : BasinWf (postOwn w launch s) := ripplePost_wf h
theorem withdraw_wf {p} {s : State} (h : BasinWf s) : BasinWf (withdraw p s) := setRipple_wf h
theorem markOverride_wf {b active} {s : State} (h : BasinWf s) : BasinWf (markOverride b active s) := h.update
theorem countOverride_wf {s : State} (h : BasinWf s) : BasinWf (countOverride s) := h.update
theorem bumpOverride_wf {b active} {s : State} (h : BasinWf s) : BasinWf (bumpOverride b active s) := countOverride_wf (markOverride_wf h)
theorem skipSnapshot_wf {s : State} (h : BasinWf s) : BasinWf (skipSnapshot s) := h.update

theorem schedulePeriodic_wf {t} {s : State} (h : BasinWf s) : BasinWf (schedulePeriodic t s) :=
  ite_wf h.update (ite_wf (postOwn_wf h.update) (skipSnapshot_wf h.update))

theorem rescheduleSnapshots_wf {s : State} (h : BasinWf s) : BasinWf (rescheduleSnapshots s) := schedulePeriodic_wf (setRipple_wf h)

theorem startSnapshotNow_wf {r} {s : State} (h : BasinWf s) : BasinWf (startSnapshotNow r s) :=
  ite_wf (endWith_wf h) (ite_wf h.update (ite_wf h.update (ite_wf h.update (ite_wf (postOwn_wf h.update) (skipSnapshot_wf h.update)))))

theorem startSnapshotCfg_wf {r setBase setPeriod base period} {s : State} (h : BasinWf s) :
    BasinWf (startSnapshotCfg r setBase setPeriod base period s) :=
  ite_wf (endWith_wf h) (endWith_wf (ite_wf (rescheduleSnapshots_wf (ite_wf (bumpOverride_wf ((ite_wf h.update h).update))
      (ite_wf h.update h))) (ite_wf (bumpOverride_wf ((ite_wf h.update h).update)) (ite_wf h.update h))))

/-! ### Machine/SplLine -/

theorem setPort_wf {p f} {s : State} (h : BasinWf s) : BasinWf (setPort p f s) := h.update
theorem putLine_wf {p bs} {s : State} (h : BasinWf s) : BasinWf (putLine p bs s) := setPort_wf h
theorem queueService_wf {p hop frame} {s : State} (h : BasinWf s) : BasinWf (queueService p hop frame s) := setPort_wf h

theorem putCycle_wf {p c flags slots checks} {s : State} (h : BasinWf s) : BasinWf (putCycle p c flags slots checks s) :=
  setPort_wf (putLine_wf h)

/-! ### Machine/LaneOps -/

theorem setLane_wf {l f} {s : State} (h : BasinWf s) : BasinWf (setLane l f s) := h.update
theorem setJobs_wf {f} {s : State} (h : BasinWf s) : BasinWf (setJobs f s) := h.update
theorem setLayer_wf {i f} {s : State} (h : BasinWf s) : BasinWf (setLayer i f s) := setJobs_wf h
theorem setLayerLane_wf {i l f} {s : State} (h : BasinWf s) : BasinWf (setLayerLane i l f s) := setLayer_wf h
theorem laneEvent_wf {l code data} {s : State} (h : BasinWf s) : BasinWf (laneEvent l code data s) := raiseTarn_wf h
theorem sendKill_wf {p mask all} {s : State} (h : BasinWf s) : BasinWf (sendKill p mask all s) := (setPort_wf (putLine_wf h)).update
theorem killAll_wf {s : State} (h : BasinWf s) : BasinWf (killAll s) := foldl_wf (fun _ _ h1 => sendKill_wf h1) h _

theorem killLane_wf {l} {s : State} (h : BasinWf s) : BasinWf (killLane l s) := by
  unfold killLane
  split
  · exact sendKill_wf h
  · exact h

theorem writeResultAt_wf {l addr r} {s : State} (h : BasinWf s) : BasinWf (writeResultAt l addr r s) := by
  unfold writeResultAt
  dsimp only
  split
  · exact ite_wf (setLane_wf (memWrite_wf h)) (setLayerLane_wf (setLane_wf (memWrite_wf h)))
  · exact setLane_wf (memWrite_wf h)

theorem writeResult_wf {l r} {s : State} (h : BasinWf s) : BasinWf (writeResult l r s) := by
  unfold writeResult
  split
  · exact h
  · exact ite_wf h (writeResultAt_wf h)

theorem leaveRecords_wf {l off rs} {s : State} (h : BasinWf s) : BasinWf (leaveRecords l off rs s) := by
  unfold leaveRecords
  dsimp only
  split
  · exact setLane_wf (foldl_wf (fun _ _ h1 => writeResult_wf h1) h _)
  · exact foldl_wf (fun _ _ h1 => writeResult_wf h1) h _

theorem flushCut_wf {l idx} {s : State} (h : BasinWf s) : BasinWf (flushCut l idx s) := setLane_wf (leaveRecords_wf (setLane_wf h))
theorem setLoop_wf {l f} {s : State} (h : BasinWf s) : BasinWf (setLoop l f s) := setLane_wf h

theorem closeRaw_wf {l} {s : State} (h : BasinWf s) : BasinWf (closeRaw l s) := by
  unfold closeRaw
  dsimp only
  split
  · exact ite_wf (setLoop_wf h) (setLane_wf (memWrite_wf (setLoop_wf h)))
  · exact setLoop_wf h
  · exact h

theorem writeTail_wf {l} {s : State} (h : BasinWf s) : BasinWf (writeTail l s) :=
  ite_wf h (setLane_wf (foldl_wf (fun _ _ h1 => writeResultAt_wf h1) (closeRaw_wf h) _))

theorem stopLane_wf {l st} {s : State} (h : BasinWf s) : BasinWf (stopLane l st s) := setLane_wf (ite_wf h (closeRaw_wf h))
theorem settleProduct_wf {l k cause part} {s : State} (h : BasinWf s) : BasinWf (settleProduct l k cause part s) := setJobs_wf h

theorem endMark_wf {l k st} {s : State} (h : BasinWf s) : BasinWf (endMark l k st s) := by
  unfold endMark
  split
  · exact h
  · exact endWith_wf (setLane_wf h)

theorem skipMark_wf {l k c part} {s : State} (h : BasinWf s) : BasinWf (skipMark l k c part s) :=
  ite_wf (setJobs_wf (endMark_wf (settleProduct_wf h))) (raise_wf (setJobs_wf (endMark_wf (settleProduct_wf h))))

theorem cutMark_wf {l c} {s : State} (h : BasinWf s) : BasinWf (cutMark l c s) := by
  unfold cutMark
  split
  · exact h
  · exact skipMark_wf h

theorem excludeLane_wf {l} {s : State} (h : BasinWf s) : BasinWf (excludeLane l s) := ite_wf h (raise_wf (setLane_wf (setJobs_wf h)))

theorem faultPolicy_wf {l} {s : State} (h : BasinWf s) : BasinWf (faultPolicy l s) := by
  unfold faultPolicy
  split
  · exact h
  · exact ite_wf h (ite_wf (excludeLane_wf h) (ite_wf (setJobs_wf h) h))

theorem noteFault_wf {l code idx} {s : State} (h : BasinWf s) : BasinWf (noteFault l code idx s) := by
  unfold noteFault
  split
  · exact h
  · exact ite_wf h (setLayerLane_wf h)

theorem breakSync_wf {l} {s : State} (h : BasinWf s) : BasinWf (breakSync l s).1 :=
  foldl_fst_wf (fun u p h1 => by dsimp only; exact setJobs_wf (raise_wf h1)) h _

theorem faultOne_wf {l code cause idx} {s : State} (h : BasinWf s) : BasinWf (faultOne l code cause idx s).1 := by
  unfold faultOne
  dsimp only
  split
  · exact breakSync_wf (ite_wf (laneEvent_wf (killLane_wf (setLane_wf (stopLane_wf (cutMark_wf (noteFault_wf (ite_wf
        (flushCut_wf h) h))))))) (faultPolicy_wf (laneEvent_wf (killLane_wf (setLane_wf (stopLane_wf (cutMark_wf (noteFault_wf (ite_wf
        (flushCut_wf h) h)))))))))
  · split
    · exact ite_wf (noteFault_wf (setLane_wf h)) (setLane_wf h)
    · exact h

theorem faultAll_wf : ∀ {n l} {s : State}, BasinWf s → BasinWf (faultAll n l s)
  | 0, _, _, h => h
  | _ + 1, [], _, h => h
  | _ + 1, (_, _, _, _) :: _, _, h => by
    unfold faultAll
    exact faultAll_wf (faultOne_wf h)

theorem laneFault_wf {l code cause} {s : State} (h : BasinWf s) : BasinWf (laneFault l code cause s) := faultAll_wf h
theorem laneFaultAt_wf {l code idx} {s : State} (h : BasinWf s) : BasinWf (laneFaultAt l code idx s) := faultAll_wf h

theorem faultOff_wf {l code cause idx} {s : State} (h : BasinWf s) : BasinWf (faultOff l code cause idx s) :=
  faultAll_wf (breakSync_wf (faultPolicy_wf (laneEvent_wf (setLane_wf (noteFault_wf h)))))

theorem armLateFault_wf {l} {s : State} (h : BasinWf s) : BasinWf (armLateFault l s) :=
  faultAll_wf (breakSync_wf (faultPolicy_wf (laneEvent_wf (killLane_wf (setLane_wf (stopLane_wf (noteFault_wf h)))))))

theorem laneToIdle_wf {l} {s : State} (h : BasinWf s) : BasinWf (laneToIdle l s) := ite_wf (setLane_wf h) h
theorem leaveFault_wf {l} {s : State} (h : BasinWf s) : BasinWf (leaveFault l s) := ite_wf (setLane_wf h) h

/-! ### Machine/LaneRun -/

theorem beginStream_wf {l st table cur staged} {s : State} (h : BasinWf s) : BasinWf (beginStream l st table cur staged s) := by
  unfold beginStream
  refine setLane_wf ?_
  split
  · exact eccUe_wf h
  · exact h

theorem fetchBurst_wf {l} {s : State} (h : BasinWf s) : BasinWf (fetchBurst l s) := by
  unfold fetchBurst
  dsimp only
  split
  · exact h
  · refine ite_wf h ?_
    refine setLane_wf ?_
    refine ite_wf ?_ ?_
    · refine raise_wf ?_
      split
      · split
        · exact eccUe_wf (touchBasin_wf h)
        · exact touchBasin_wf h
      · exact touchBasin_wf h
    · split
      · split
        · exact eccUe_wf (touchBasin_wf h)
        · exact touchBasin_wf h
      · exact touchBasin_wf h

theorem replanLane_wf {l} {s : State} (h : BasinWf s) : BasinWf (replanLane l s) := setLane_wf h
theorem setSync_wf {p f} {s : State} (h : BasinWf s) : BasinWf (setSync p f s) := setJobs_wf h
theorem soloSync_wf {l key id a fc} {s : State} (h : BasinWf s) : BasinWf (soloSync l key id a fc s) := setJobs_wf h

theorem arriveSync_wf {l r} {s : State} (h : BasinWf s) : BasinWf (arriveSync l r s) := by
  unfold arriveSync
  dsimp only
  split
  · split
    · exact ite_wf (setJobs_wf h) (ite_wf (setSync_wf (raise_wf (setJobs_wf h))) (laneFault_wf (setSync_wf (raise_wf (setJobs_wf h)))))
    · split
      · exact laneFault_wf h
      · exact ite_wf (soloSync_wf h) (setSync_wf h)
  · exact h

theorem holdRecord_wf {l k} {s : State} (h : BasinWf s) : BasinWf (holdRecord l k s) := by
  unfold holdRecord
  dsimp only
  split
  · exact h
  · exact replanLane_wf (setLane_wf h)

theorem goHeld_wf {l tgo} {s : State} (h : BasinWf s) : BasinWf (goHeld l tgo s) := by
  unfold goHeld
  dsimp only
  split
  · exact h
  · refine replanLane_wf ?_
    split
    · exact recExtreme_wf (setLane_wf h)
    · exact setLane_wf h

theorem tellLate_wf {l due} {s : State} (h : BasinWf s) : BasinWf (tellLate l due s) := by
  unfold tellLate
  dsimp only
  split
  · exact h
  · exact raise_wf (setLane_wf h)

theorem settleLane_wf {l} {s : State} (h : BasinWf s) : BasinWf (settleLane l s) := by
  unfold settleLane
  refine ite_wf ?_ h
  split
  · exact ite_wf (setLane_wf h) h
  · split
    · exact laneFaultAt_wf h
    · split
      · exact tellLate_wf h
      · exact ite_wf (laneEvent_wf (setLane_wf (tellLate_wf h))) (tellLate_wf h)

theorem tryArm_wf {l} {s : State} (h : BasinWf s) : BasinWf (tryArm l s) := ite_wf (ite_wf (laneFault_wf (setLane_wf h)) (setLane_wf h)) h

theorem planningPass_wf {l} {s : State} (h : BasinWf s) : BasinWf (planningPass l s) := by
  unfold planningPass
  dsimp only
  split
  · exact tryArm_wf (settleLane_wf h)
  · refine ite_wf (tryArm_wf (settleLane_wf h)) ?_
    refine tryArm_wf ?_
    split
    · split
      · exact arriveSync_wf (ite_wf (raise_wf (setLane_wf (settleLane_wf h))) (setLane_wf (settleLane_wf h)))
      · exact ite_wf (raise_wf (setLane_wf (settleLane_wf h))) (setLane_wf (settleLane_wf h))
    · exact ite_wf (raise_wf (setLane_wf (settleLane_wf h))) (setLane_wf (settleLane_wf h))

theorem verdictRequest_wf {l} {s : State} (h : BasinWf s) : BasinWf (verdictRequest l s) := by
  unfold verdictRequest
  refine ite_wf (settleLane_wf h) ?_
  split
  · exact settleLane_wf h
  · exact ite_wf (settleLane_wf h) (setLane_wf (ite_wf (setLane_wf (tellLate_wf (settleLane_wf h))) (tellLate_wf (settleLane_wf h))))

theorem verdictDeadline_wf {l} {s : State} (h : BasinWf s) : BasinWf (verdictDeadline l s) := by
  unfold verdictDeadline
  refine ite_wf h ?_
  split
  · exact h
  · refine ite_wf h ?_
    refine holdRecord_wf ?_
    refine BasinWf.update ?_
    split
    · exact setLane_wf h.update
    · exact laneEvent_wf (setLane_wf h)

theorem endStall_wf {l} {s : State} (h : BasinWf s) : BasinWf (endStall l s) := by
  unfold endStall
  dsimp only
  split
  · exact h
  · split <;> exact setLane_wf h

theorem resultWrite_wf {l} {s : State} (h : BasinWf s) : BasinWf (resultWrite l s) := by
  unfold resultWrite
  dsimp only
  split
  · exact h
  · exact ite_wf (endStall_wf (setLane_wf (writeResult_wf h))) h

theorem flushPlan_wf {l} {s : State} (h : BasinWf s) : BasinWf (flushPlan l s) := leaveRecords_wf h

theorem syncTimeout_wf {id} {s : State} (h : BasinWf s) : BasinWf (syncTimeout id s) := by
  unfold syncTimeout
  dsimp only
  split
  · exact h
  · exact ite_wf h (ite_wf (setSync_wf (raise_wf h)) (faultAll_wf (setSync_wf (raise_wf h))))

theorem followingError_wf {l} {s : State} (h : BasinWf s) : BasinWf (followingError l s) := ite_wf (laneFault_wf h) h
theorem relimitLane_wf {l} {s : State} (h : BasinWf s) : BasinWf (relimitLane l s) := replanLane_wf (setLane_wf h)

theorem laneLimits_wf {mark jump clear v l} {s : State} (h : BasinWf s) : BasinWf (laneLimits mark jump clear v l s) :=
  ite_wf (relimitLane_wf (setLane_wf h)) (relimitLane_wf (setLane_wf h))

theorem applyLaneLimits_wf {mask mark jump clear v} {s : State} (h : BasinWf s) : BasinWf (applyLaneLimits mask mark jump clear v s) :=
  foldl_wf (fun _ _ h1 => laneLimits_wf h1) h _

theorem startLaneLimits_wf {r mask mark jump clear accel jerk speed} {s : State} (h : BasinWf s) :
    BasinWf (startLaneLimits r mask mark jump clear accel jerk speed s) :=
  ite_wf (endWith_wf h) (endWith_wf (applyLaneLimits_wf h))

/-! ### Machine/Arbiter -/

theorem setProx_wf {f} {s : State} (h : BasinWf s) : BasinWf (setProx f s) := h.update
theorem setPeer_wf {m f} {s : State} (h : BasinWf s) : BasinWf (setPeer m f s) := setProx_wf h

theorem giveGo_wf {l k held} {s : State} (h : BasinWf s) : BasinWf (giveGo l k held s) :=
  ite_wf (goHeld_wf (setLane_wf (setProx_wf h))) (setLane_wf (setLane_wf (setProx_wf h)))

theorem noteBlock_wf {l b} {s : State} (h : BasinWf s) : BasinWf (noteBlock l b s) := setLane_wf h

theorem holdTentative_wf {l k claims} {s : State} (h : BasinWf s) : BasinWf (holdTentative l k claims s).1 := by
  unfold holdTentative
  dsimp only
  split
  · exact h
  · exact setLane_wf h

theorem syncHeld_wf {l k} {s : State} (h : BasinWf s) : BasinWf (syncHeld l k s) := ite_wf h (setLane_wf (setProx_wf h))

theorem holdRequest_wf {q ts b} {s : State} {t} (h : BasinWf s) : BasinWf (holdRequest q ts b s t).1 := by
  unfold holdRequest
  dsimp only
  split
  · exact noteBlock_wf h
  · split
    · exact syncHeld_wf (noteBlock_wf h)
    · exact holdRecord_wf (setProx_wf (noteBlock_wf h))

theorem passRequest_wf {q ts t} {s : State} (h : BasinWf s) : BasinWf (passRequest q ts s t).1 := by
  have ht := holdTentative_wf (l := q.lane) (k := q.idx) (claims := t.claims) h
  unfold passRequest
  split
  · exact giveGo_wf h
  · split
    · split
      · next e => rw [e] at ht; exact ht
      · next e => rw [e] at ht; exact holdRequest_wf ht
    · exact setLane_wf h

theorem judgeOne_wf {acc : State × Tick} {q} (h : BasinWf acc.1) : BasinWf (judgeOne acc q).1 := by
  obtain ⟨s, t⟩ := acc
  unfold judgeOne
  dsimp only
  split
  · exact h
  · split
    · split
      · exact h
      · split
        · exact passRequest_wf (setLane_wf h)
        · exact holdRequest_wf (setLane_wf h)
    · split
      · exact passRequest_wf (setLane_wf h)
      · exact holdRequest_wf (setLane_wf h)

theorem refuse_wf {l k} {s : State} (h : BasinWf s) : BasinWf (refuse l k s) :=
  ite_wf (syncHeld_wf (setLane_wf h)) (ite_wf (setLane_wf h) (holdRecord_wf h))

theorem confirmOne_wf {s : State} {p} (h : BasinWf s) : BasinWf (confirmOne s p) := by
  unfold confirmOne
  dsimp only
  split
  · exact h
  · split
    · split
      · exact setProx_wf (refuse_wf (noteBlock_wf h))
      · refine ite_wf h ?_
        refine ite_wf (ite_wf (refuse_wf h) h) ?_
        split
        · exact refuse_wf (noteBlock_wf (setProx_wf h))
        · exact giveGo_wf h
    · exact h

theorem renewMismatch_wf {m} {s : State} (h : BasinWf s) : BasinWf (renewMismatch m s) := by
  unfold renewMismatch
  dsimp only
  split
  · exact h
  · exact ite_wf (raise_wf (setPeer_wf h)) (setPeer_wf h)

theorem takeSummary_wf {m} {s : State} {x} (h : BasinWf s) : BasinWf (takeSummary m s x) :=
  ite_wf (raise_wf (renewMismatch_wf (ite_wf (raise_wf (ite_wf (setProx_wf (setPeer_wf h)) (setPeer_wf h))) (ite_wf (setProx_wf
      (setPeer_wf h)) (setPeer_wf h))))) (renewMismatch_wf (ite_wf (raise_wf (ite_wf (setProx_wf (setPeer_wf h)) (setPeer_wf h)))
      (ite_wf (setProx_wf (setPeer_wf h)) (setPeer_wf h))))

theorem takePeers_wf {s : State} (h : BasinWf s) : BasinWf (takePeers s) :=
  ite_wf (raise_wf (setProx_wf (foldl_wf (fun _ _ h1 => setPeer_wf h1) (foldl_wf (fun _ _ h1 => foldl_wf
      (fun _ _ h2 => takeSummary_wf h2) (setPeer_wf h1) _) h _) _))) (ite_wf (raise_wf (setProx_wf (foldl_wf
      (fun _ _ h1 => setPeer_wf h1) (foldl_wf (fun _ _ h1 => foldl_wf (fun _ _ h2 => takeSummary_wf h2) (setPeer_wf h1) _) h _) _)))
      (foldl_wf (fun _ _ h1 => setPeer_wf h1) (foldl_wf (fun _ _ h1 => foldl_wf (fun _ _ h2 => takeSummary_wf h2)
      (setPeer_wf h1) _) h _) _))

theorem withdrawSync_wf {p} {s : State} (h : BasinWf s) : BasinWf (withdrawSync p s) := by
  unfold withdrawSync
  refine foldl_wf ?_ h _
  intro _ _ h1
  split
  · exact h1
  · exact setLane_wf h1

theorem fixRelease_wf {p} {s : State} (h : BasinWf s) : BasinWf (fixRelease p s) := by
  unfold fixRelease
  refine postOwn_wf ?_
  refine foldl_wf ?_ (setSync_wf h) _
  intro _ _ h1
  split
  · exact h1
  · exact setLane_wf h1

theorem moveRc_wf {p rc} {s : State} (h : BasinWf s) : BasinWf (moveRc p rc s) := ite_wf h (withdrawSync_wf (setSync_wf h))

theorem localSync_wf {p} {s : State} (h : BasinWf s) : BasinWf (localSync p s) :=
  ite_wf h (ite_wf (fixRelease_wf h) (ite_wf (moveRc_wf h) h))

theorem crossSync_wf {p} {s : State} (h : BasinWf s) : BasinWf (crossSync p s) := ite_wf h (ite_wf (fixRelease_wf h) (moveRc_wf h))

theorem stepSyncs_wf {s : State} (h : BasinWf s) : BasinWf (stepSyncs s) :=
  foldl_wf (fun _ _ h1 => ite_wf (localSync_wf h1) (crossSync_wf h1)) h _

theorem watchCycles_wf {edges} {s : State} (h : BasinWf s) : BasinWf (watchCycles edges s) := (setProx_wf h).update
theorem releaseLane_wf {l} {s : State} (h : BasinWf s) : BasinWf (releaseLane l s) := setLane_wf h
theorem restoreWaits_wf {s : State} (h : BasinWf s) : BasinWf (restoreWaits s) := foldl_wf (fun _ _ h1 => ite_wf (setLane_wf h1) h1) h _

theorem breakCycle_wf {s : State} {c} (h : BasinWf s) : BasinWf (breakCycle s c) := by
  unfold breakCycle
  split
  · exact h
  · exact ite_wf h (raise_wf (setProx_wf (releaseLane_wf h)))

theorem deadlockBreak_wf {s : State} (h : BasinWf s) : BasinWf (deadlockBreak s) :=
  ite_wf h (foldl_wf (fun _ _ h1 => breakCycle_wf h1) h _)

theorem deferRequests_wf {s : State} (h : BasinWf s) : BasinWf (deferRequests s) :=
  foldl_wf (fun _ _ h1 => ite_wf h1 (ite_wf (setProx_wf h1) (raise_wf (setProx_wf (setProx_wf h1))))) h _

theorem noteUses_wf {s : State} (h : BasinWf s) : BasinWf (noteUses s) := ite_wf h (foldl_wf (fun _ _ h1 => setLane_wf h1) h _)

theorem judgeAll_wf {s : State} (h : BasinWf s) : BasinWf (judgeAll s).1 :=
  foldl_fst_wf (fun _ _ => judgeOne_wf) h _

theorem guardTick_wf {s : State} (h : BasinWf s) : BasinWf (guardTick s) := by
  unfold guardTick
  refine ite_wf h ?_
  refine foldl_wf (fun _ _ => verdictDeadline_wf) (deadlockBreak_wf (setProx_wf (watchCycles_wf (stepSyncs_wf
    (BasinWf.update (judgeAll_wf (restoreWaits_wf (noteUses_wf (deferRequests_wf ?_))))))))) _
  refine foldl_wf (fun _ _ => confirmOne_wf) (takePeers_wf ?_) _
  exact foldl_wf (fun _ _ => verdictDeadline_wf) (foldl_wf (fun _ _ => settleLane_wf) h _) _

theorem longHold_wf {l} {s : State} (h : BasinWf s) : BasinWf (longHold l s) := by
  unfold longHold
  dsimp only
  split
  · exact h
  · exact ite_wf (raise_wf (setLane_wf h)) h

/-! ### Machine/Cfg -/

theorem setCfg_wf {off v} {s : State} (h : BasinWf s) : BasinWf (setCfg off v s) := h.update
theorem setCfgF_wf {off lo w v} {s : State} (h : BasinWf s) : BasinWf (setCfgF off lo w v s) := setCfg_wf h
theorem setCfgS64_wf {off v} {s : State} (h : BasinWf s) : BasinWf (setCfgS64 off v s) := setCfg_wf (setCfg_wf h)

/-! ### Machine/Cams -/

theorem setCam_wf {p f} {s : State} (h : BasinWf s) : BasinWf (setCam p f s) := h.update

/-! ### Machine/CamTrig -/

theorem setIsp_wf {f} {s : State} (h : BasinWf s) : BasinWf (setIsp f s) := h.update
theorem setLed_wf {c f} {s : State} (h : BasinWf s) : BasinWf (setLed c f s) := h.update
theorem takeSet_wf {p tF} {s : State} (h : BasinWf s) : BasinWf (takeSet p tF s) := setCam_wf h

theorem commitSet_wf {p c r} {s : State} (h : BasinWf s) : BasinWf (commitSet p c r s) := by
  unfold commitSet
  split
  · exact finishIn_wf (bumpOverride_wf (setCam_wf h))
  · exact setCam_wf h

theorem abortDiag_wf {p} {s : State} (h : BasinWf s) : BasinWf (abortDiag p s) := by
  unfold abortDiag
  refine foldl_wf ?_ h _
  intro _ _ h1
  split
  · exact h1
  · exact ite_wf (setLed_wf h1) (ite_wf (setLed_wf h1) h1)

theorem fireXtrig_wf {p seq product} {s : State} (h : BasinWf s) : BasinWf (fireXtrig p seq product s) :=
  ite_wf (setCam_wf h) (setCam_wf ((takeSet_wf h).update))

theorem camTrigs_wf {mode src product} {s : State} (h : BasinWf s) : BasinWf (camTrigs mode src product s) :=
  foldl_wf (fun _ _ h1 => ite_wf (fireXtrig_wf (ite_wf (abortDiag_wf h1) h1)) h1) h _

theorem hostTrigger_wf {mask r} {s : State} (h : BasinWf s) : BasinWf (hostTrigger mask r s) := by
  unfold hostTrigger
  split
  · exact finishIn_wf (foldl_wf (fun _ _ h1 => fireXtrig_wf (abortDiag_wf h1)) h _)
  · exact foldl_wf (fun _ _ h1 => fireXtrig_wf (abortDiag_wf h1)) h _

theorem camSettle_wf {s : State} (h : BasinWf s) : BasinWf (camSettle s) :=
  foldl_wf (fun _ _ h1 => hostTrigger_wf h1) (setIsp_wf (foldl_wf (fun _ _ h1 => foldl_wf (fun _ _ h2 => commitSet_wf h2)
      (setCam_wf h1) _) h _)) _

theorem camStageBegin_wf {stage layer t} {s : State} (h : BasinWf s) : BasinWf (camStageBegin stage layer t s).1 := by
  unfold camStageBegin
  dsimp only
  split
  · exact setIsp_wf h
  · split
    · exact setIsp_wf h
    · exact setIsp_wf (foldl_wf (fun _ _ h1 => setCam_wf h1) h _)

theorem seqTrigger_wf {plan p} {s : State} (h : BasinWf s) : BasinWf (seqTrigger plan p s) :=
  ite_wf (fireXtrig_wf h) (ite_wf ((fireXtrig_wf h).update) ((fireXtrig_wf h).update))

theorem planTrigger_wf {s : State} (h : BasinWf s) : BasinWf (planTrigger s) := by
  unfold planTrigger
  split
  · exact h
  · exact ite_wf (setIsp_wf h) (ite_wf h (setIsp_wf (foldl_wf (fun _ _ h1 => seqTrigger_wf h1) h _)))

theorem takeCapacity_wf {s : State} (h : BasinWf s) : BasinWf (takeCapacity s) := by
  unfold takeCapacity
  split
  · exact h
  · exact ite_wf (setIsp_wf h) h

theorem orderCapacity_wf {level} {s : State} (h : BasinWf s) : BasinWf (orderCapacity level s) := takeCapacity_wf (setIsp_wf h)

/-! ### Machine/AxisOps -/

theorem setAxis_wf {a f} {s : State} (h : BasinWf s) : BasinWf (setAxis a f s) := h.update
theorem setEnc_wf {e f} {s : State} (h : BasinWf s) : BasinWf (setEnc e f s) := h.update
theorem takeOrg_wf {a} {s : State} (h : BasinWf s) : BasinWf (takeOrg a s) := setAxis_wf h
theorem trackFe_wf {a} {s : State} (h : BasinWf s) : BasinWf (trackFe a s) := setAxis_wf h

theorem driveDue_wf {a} {s : State} (h : BasinWf s) : BasinWf (driveDue a s) := by
  unfold driveDue
  split
  · exact ite_wf h (trackFe_wf (setAxis_wf h))
  · exact h

theorem applyLatched_wf {a} {s : State} (h : BasinWf s) : BasinWf (applyLatched a s) := by
  unfold applyLatched
  split
  · exact h
  · exact raise_wf (setAxis_wf h)

theorem beginMove_wf {a m} {s : State} (h : BasinWf s) : BasinWf (beginMove a m s) := setAxis_wf (applyLatched_wf h)

theorem dropPending_wf {a st} {s : State} (h : BasinWf s) : BasinWf (dropPending a st s) := by
  unfold dropPending
  split
  · exact h
  · split
    · exact finishIn_wf (setAxis_wf h)
    · exact setAxis_wf h

theorem beginStop_wf {a l st} {s : State} (h : BasinWf s) : BasinWf (beginStop a l st s) := by
  unfold beginStop
  dsimp only
  split
  · exact h
  · exact setAxis_wf h

theorem settleAxisStops_wf {s : State} (h : BasinWf s) : BasinWf (settleAxisStops s) := foldl_wf (fun _ _ h1 => finish_wf h1) h.update _

theorem endHoming_wf {a hd} {s : State} (h : BasinWf s) : BasinWf (endHoming a hd s) :=
  ite_wf (raise_wf (finishIn_wf (takeOrg_wf h))) (ite_wf (finishIn_wf (takeOrg_wf h)) (finishIn_wf (takeOrg_wf (setAxis_wf h))))

theorem scriptEnded_wf {i} {s : State} (h : BasinWf s) : BasinWf (scriptEnded i s) := h.update

theorem axisStands_wf {a} {s : State} (h : BasinWf s) : BasinWf (axisStands a s) := by
  unfold axisStands
  extract_lets x u b v w st y z
  have hv : BasinWf v := by
    unfold v
    cases x.homing with
    | none => exact setAxis_wf h
    | some o => exact endHoming_wf (setAxis_wf h).update
  have hy : BasinWf y := by
    unfold y
    cases x.move with
    | none => exact setAxis_wf hv
    | some m =>
      have hf : BasinWf (match m.ref with | some r => finishIn (256 + a) r st (axisMissing x) 0 w | none => w) := by
        cases m.ref with
        | none => exact setAxis_wf hv
        | some r => exact finishIn_wf (setAxis_wf hv)
      dsimp only
      cases m.script with
      | none => exact hf
      | some i => exact ite_wf (scriptEnded_wf hf) hf
  exact settleAxisStops_wf (ite_wf (setAxis_wf hy) hy)

theorem settleAxis_wf {a} {s : State} (h : BasinWf s) : BasinWf (settleAxis a s) := by
  unfold settleAxis
  split
  · exact h
  · split
    · exact h
    · exact ite_wf (axisStands_wf h) h

theorem axisFault_wf {a cause} {s : State} (h : BasinWf s) : BasinWf (axisFault a cause s) :=
  ite_wf h (settleAxis_wf (raise_wf (ite_wf (beginStop_wf (setAxis_wf (dropPending_wf h))) (setAxis_wf (setAxis_wf (dropPending_wf h))))))

theorem axesSafe_wf {s : State} (h : BasinWf s) : BasinWf (axesSafe s) :=
  foldl_wf (fun _ _ h1 => settleAxis_wf (beginStop_wf (dropPending_wf h1))) h _

theorem scriptBegin_wf {repeats} {s : State} (h : BasinWf s) : BasinWf (scriptBegin repeats s) := h.update

theorem scriptStop_wf {s : State} (h : BasinWf s) : BasinWf (scriptStop s) := by
  unfold scriptStop
  refine BasinWf.update ?_
  refine foldl_wf ?_ h _
  intro _ _ h1
  split
  · exact ite_wf (settleAxis_wf (beginStop_wf h1)) h1
  · exact h1

/-! ### Machine/FieldMap -/

theorem setMap_wf {l f} {s : State} (h : BasinWf s) : BasinWf (setMap l f s) := setLane_wf h
theorem gridNow_wf {l} {s : State} (h : BasinWf s) : BasinWf (gridNow l s).2 := h.update
theorem needGrid_wf {l} {s : State} (h : BasinWf s) : BasinWf (needGrid l s) := ite_wf h (setMap_wf (gridNow_wf h))

theorem changeMap_wf {l c} {s : State} (h : BasinWf s) : BasinWf (changeMap l c s) := by
  unfold changeMap
  dsimp only
  split
  · exact ite_wf (setMap_wf (needGrid_wf h)) (setMap_wf (needGrid_wf h))
  · exact setMap_wf (needGrid_wf h)

theorem startBlend_wf {l t} {s : State} (h : BasinWf s) : BasinWf (startBlend l t s) := by
  unfold startBlend
  split
  · exact h
  · exact ite_wf h (ite_wf (laneEvent_wf (setMap_wf h)) (setMap_wf h))

theorem blendComplete_wf {l} {s : State} (h : BasinWf s) : BasinWf (blendComplete l s) := by
  unfold blendComplete
  dsimp only
  split
  · exact h
  · split
    · exact h
    · refine ite_wf h ?_
      split
      · exact changeMap_wf (setMap_wf h)
      · exact setMap_wf h

theorem applyLaneTrims_wf {mask ofsX ofsY gainX gainY rot} {s : State} (h : BasinWf s) :
    BasinWf (applyLaneTrims mask ofsX ofsY gainX gainY rot s) :=
  foldl_wf (fun _ _ h1 => changeMap_wf h1) h _

theorem startLaneTrims_wf {r mask ofsX ofsY gainX gainY rot} {s : State} (h : BasinWf s) :
    BasinWf (startLaneTrims r mask ofsX ofsY gainX gainY rot s) :=
  ite_wf (endWith_wf h) (endWith_wf (bumpOverride_wf (applyLaneTrims_wf h)))

theorem startLaneGridLoad_wf {r lane set addr} {s : State} (h : BasinWf s) : BasinWf (startLaneGridLoad r lane set addr s) := by
  unfold startLaneGridLoad
  refine ite_wf (endWith_wf h) ?_
  refine ite_wf (endWith_wf h) ?_
  refine ite_wf (endWith_wf h) ?_
  split
  · exact endWith_wf h
  · split
    · exact endWith_wf h
    · exact ite_wf (endWith_wf h) (endWith_wf (bumpOverride_wf (changeMap_wf (gridNow_wf (setMap_wf (needGrid_wf h))))))

/-! ### Machine/LaneCal -/

theorem setHk_wf {f} {s : State} (h : BasinWf s) : BasinWf (setHk f s) := h.update
theorem setLaneCal_wf {l f} {s : State} (h : BasinWf s) : BasinWf (setLaneCal l f s) := setHk_wf h

theorem darkSample_wf {l t pdA pdB} {s : State} (h : BasinWf s) : BasinWf (darkSample l t pdA pdB s) :=
  ite_wf h (ite_wf h (setLaneCal_wf h))

theorem setRun_wf {kind u f} {s : State} (h : BasinWf s) : BasinWf (setRun kind u f s) := setHk_wf h
theorem dropRun_wf {kind u} {s : State} (h : BasinWf s) : BasinWf (dropRun kind u s) := setHk_wf h
theorem calWait_wf {kind u} {s : State} (h : BasinWf s) : BasinWf (calWait kind u s) := ite_wf h (setHk_wf h)
theorem setKind_wf {k f} {s : State} (h : BasinWf s) : BasinWf (setKind k f s) := setHk_wf h

theorem deferGroups_wf {kind u} {s : State} (h : BasinWf s) : BasinWf (deferGroups kind u s) :=
  foldl_wf (fun _ _ h1 => endWith_wf h1) (setHk_wf h) _

theorem powerStop_wf {l} {s : State} (h : BasinWf s) : BasinWf (powerStop l s) := setLane_wf h

theorem abandonRun_wf {kind u cause} {s : State} (h : BasinWf s) : BasinWf (abandonRun kind u cause s) :=
  ite_wf h (raise_wf (deferGroups_wf (setKind_wf (ite_wf (powerStop_wf (killLane_wf (calWait_wf (dropRun_wf h)))) (calWait_wf
      (dropRun_wf h))))))

/-! ### Machine/CalOps -/

theorem calPost_wf {kind} {s : State} (h : BasinWf s) : BasinWf (calPost kind s) := ite_wf h (postOwn_wf h)
theorem calPump_wf {s : State} (h : BasinWf s) : BasinWf (calPump s) := calPost_wf (calPost_wf (calPost_wf h))
theorem dropWait_wf {kind u} {s : State} (h : BasinWf s) : BasinWf (dropWait kind u s) := setHk_wf h
theorem beginRun_wf {kind u} {s : State} (h : BasinWf s) : BasinWf (beginRun kind u s) := ite_wf (setHk_wf h) (setHk_wf (setLane_wf h))

theorem calStarts_wf {kind us} {s : State} (h : BasinWf s) : BasinWf (calStarts kind us s) :=
  foldl_wf (fun _ _ h1 => ite_wf (beginRun_wf (dropWait_wf h1)) h1) h _

theorem calWithdraw_wf {s : State} (h : BasinWf s) : BasinWf (calWithdraw s) := withdraw_wf h

theorem deferWaiting_wf {kinds} {s : State} (h : BasinWf s) : BasinWf (deferWaiting kinds s) :=
  foldl_wf (fun _ _ h1 => endWith_wf h1) (setHk_wf h) _

theorem abandonAll_wf {kinds cause} {s : State} (h : BasinWf s) : BasinWf (abandonAll kinds cause s) :=
  foldl_wf (fun _ _ h1 => abandonRun_wf h1) h _

theorem calJobEnd_wf {s : State} (h : BasinWf s) : BasinWf (calJobEnd s) := deferWaiting_wf (calWithdraw_wf (abandonAll_wf h))
theorem calPermitLow_wf {s : State} (h : BasinWf s) : BasinWf (calPermitLow s) := deferWaiting_wf (abandonAll_wf h)

theorem calStage_wf {s : State} (h : BasinWf s) : BasinWf (calStage s) :=
  ite_wf (calPump_wf (ite_wf (setHk_wf h) (deferWaiting_wf (abandonAll_wf (setHk_wf h))))) (deferWaiting_wf (calWithdraw_wf
      (abandonAll_wf (ite_wf (setHk_wf h) (deferWaiting_wf (abandonAll_wf (setHk_wf h)))))))

theorem renewLane_wf {l} {s : State} (h : BasinWf s) : BasinWf (renewLane l s) := by
  unfold renewLane
  dsimp only
  split
  · refine setLoop_wf ?_
    split
    · exact setLaneCal_wf h
    · exact h
  · split
    · exact setLaneCal_wf h
    · exact h

theorem setEye_wf {kind u f} {s : State} (h : BasinWf s) : BasinWf (setEye kind u f s) :=
  ite_wf (setHk_wf h) (ite_wf (setHk_wf h) (setHk_wf h))

theorem renewEyes_wf {s : State} (h : BasinWf s) : BasinWf (renewEyes s) :=
  foldl_wf (fun _ _ h1 => setEye_wf h1) (foldl_wf (fun _ _ h1 => setEye_wf h1) h _) _

theorem askGrid_wf {l} {s : State} (h : BasinWf s) : BasinWf (askGrid l s) := ite_wf h (beginRun_wf (needGrid_wf h))

theorem calTrigger_wf {kind u} {s : State} (h : BasinWf s) : BasinWf (calTrigger kind u s) :=
  ite_wf h (ite_wf (askGrid_wf h) (ite_wf (beginRun_wf h) (ite_wf h (calPump_wf (calWait_wf h)))))

theorem tempArrived_wf {p hd} {s : State} (h : BasinWf s) : BasinWf (tempArrived p hd s) :=
  foldl_wf (fun _ _ h1 => calTrigger_wf (calTrigger_wf (calTrigger_wf (renewLane_wf h1)))) h _

theorem calNodeFound_wf {ls} {s : State} (h : BasinWf s) : BasinWf (calNodeFound ls s) :=
  foldl_wf (fun _ _ h1 => calWait_wf (askGrid_wf h1)) h _

theorem calAtStart_wf {s : State} (h : BasinWf s) : BasinWf (calAtStart s) :=
  calPump_wf (ite_wf (foldl_wf (fun _ _ h1 => calWait_wf h1) (foldl_wf (fun _ _ h1 => calWait_wf h1) (foldl_wf
      (fun _ _ h1 => calWait_wf h1) (foldl_wf (fun _ _ h1 => calWait_wf (askGrid_wf h1)) h _) _) _) _) (beginRun_wf (foldl_wf
      (fun _ _ h1 => calWait_wf h1) (foldl_wf (fun _ _ h1 => calWait_wf h1) (foldl_wf (fun _ _ h1 => calWait_wf h1) (foldl_wf
      (fun _ _ h1 => calWait_wf (askGrid_wf h1)) h _) _) _) _)))

theorem groupsDone_wf {kind u quality bad} {s : State} (h : BasinWf s) : BasinWf (groupsDone kind u quality bad s) :=
  foldl_wf (fun _ _ h1 => finish_wf h1) (setHk_wf (setHk_wf h)) _

theorem takeResult_wf {kind u quality setting} {s : State} (h : BasinWf s) : BasinWf (takeResult kind u quality setting s).1 := by
  unfold takeResult
  dsimp only
  split
  · exact changeMap_wf (gridNow_wf h)
  · split
    · exact setLaneCal_wf (powerStop_wf h)
    · exact renewLane_wf (ite_wf (setLaneCal_wf (setLaneCal_wf (powerStop_wf h))) (setLaneCal_wf (setLaneCal_wf (setLaneCal_wf
          (powerStop_wf h)))))
  · split
    · exact h
    · exact renewLane_wf (setLaneCal_wf h)
  · exact setHk_wf h
  · exact ite_wf (raise_wf (setEye_wf h)) (setEye_wf h)

theorem endUnit_wf {kind x} {acc : State × Option (Nat × Nat) × Bool} (h : BasinWf acc.1) : BasinWf (endUnit kind acc x).1 := by
  unfold endUnit
  dsimp only
  split
  · exact h
  · exact groupsDone_wf (setKind_wf (ite_wf (dropWait_wf (takeResult_wf h)) (dropRun_wf (takeResult_wf h))))

theorem endRun_wf {kind results} {s : State} (h : BasinWf s) : BasinWf (endRun kind results s) := by
  have hf := foldl_fst_wf (f := endUnit kind) (fun _ _ => endUnit_wf) (p := (s, none, false)) h results
  unfold endRun
  dsimp only
  split
  · exact hf
  · exact calPump_wf (raise_wf (setKind_wf hf))

theorem setLevel_wf {v} {s : State} (h : BasinWf s) : BasinWf (setLevel v s) :=
  ite_wf h (raise_wf (orderCapacity_wf (ite_wf ((setHk_wf h).update) (setHk_wf h))))

theorem keepFloor_wf {s : State} (h : BasinWf s) : BasinWf (keepFloor s) := ite_wf (setLevel_wf h) h

theorem rosCheck_wf {pairs} {s : State} (h : BasinWf s) : BasinWf (rosCheck pairs s) := by
  unfold rosCheck
  refine keepFloor_wf ?_
  refine ite_wf ?_ ?_
  · refine raise_wf ?_
    refine setHk_wf ?_
    refine foldl_wf ?_ h _
    intro _ _ h1
    split
    · exact ite_wf (raise_wf (setHk_wf h1)) h1
    · exact h1
  · refine foldl_wf ?_ h _
    intro _ _ h1
    split
    · exact ite_wf (raise_wf (setHk_wf h1)) h1
    · exact h1

/-! ### Machine/Time -/

theorem setClock_wf {f} {s : State} (h : BasinWf s) : BasinWf (setClock f s) := h.update

theorem updateSynced_wf {s : State} (h : BasinWf s) : BasinWf (updateSynced s) :=
  ite_wf h (ite_wf (raise_wf h.update) (raise_wf h.update))

theorem setTimeState_wf {n} {s : State} (h : BasinWf s) : BasinWf (setTimeState n s) := by
  unfold setTimeState
  refine ite_wf h (updateSynced_wf ?_)
  cases n with
  | free | fine | master => exact raise_wf (setClock_wf h)
  | acquiring | holdover => exact raise_wf (setClock_wf (setClock_wf h))
  | coarse => exact raise_wf (setClock_wf (ite_wf (setClock_wf h) h))

theorem qualityUpdate_wf {s : State} (h : BasinWf s) : BasinWf (qualityUpdate s) :=
  ite_wf (raise_wf (setClock_wf h)) (ite_wf (raise_wf (setClock_wf h)) (setClock_wf h))

theorem setTrig_wf {n f} {s : State} (h : BasinWf s) : BasinWf (setTrig n f s) := h.update
theorem driveTrig_wf {n level e} {s : State} (h : BasinWf s) : BasinWf (driveTrig n level e s) := (setTrig_wf h).update
theorem idleTrig_wf {n} {s : State} (h : BasinWf s) : BasinWf (idleTrig n s) := ite_wf (driveTrig_wf (setTrig_wf h)) (setTrig_wf h)
theorem advanceTrig_wf {n} {s : State} (h : BasinWf s) : BasinWf (advanceTrig n s) := setTrig_wf h

theorem stepTrig_wf {old new n} {s : State} (h : BasinWf s) : BasinWf (stepTrig old new n s) :=
  ite_wf h (ite_wf (setTrig_wf (advanceTrig_wf (ite_wf (driveTrig_wf h) (setTrig_wf (driveTrig_wf h))))) (setTrig_wf h))

theorem installSched_wf {n d} {s : State} (h : BasinWf s) : BasinWf (installSched n d s) :=
  ite_wf (stepTrig_wf (setTrig_wf (ite_wf ((setTrig_wf h).update) h))) (setTrig_wf (ite_wf ((setTrig_wf h).update) h))

theorem settleStops_wf {s : State} (h : BasinWf s) : BasinWf (settleStops s) := foldl_wf (fun _ _ h1 => endWith_wf h1) h.update _
theorem stopTrig_wf {n} {s : State} (h : BasinWf s) : BasinWf (stopTrig n s) := ite_wf (setTrig_wf h) (idleTrig_wf h)
theorem trigSafe_wf {s : State} (h : BasinWf s) : BasinWf (trigSafe s) := settleStops_wf (foldl_wf (fun _ _ h1 => idleTrig_wf h1) h _)

theorem trigJobEnd_wf {s : State} (h : BasinWf s) : BasinWf (trigJobEnd s) := by
  unfold trigJobEnd
  refine settleStops_wf ?_
  refine foldl_wf (fun _ _ h1 => ite_wf (idleTrig_wf (ite_wf (setTrig_wf h1) h1)) (ite_wf (setTrig_wf h1) h1)) ?_ _
  refine foldl_wf ?_ (setRipple_wf h) _
  intro _ _ h1
  split
  · exact endWith_wf h1
  · exact h1

theorem trigEdge_wf {n} {s : State} (h : BasinWf s) : BasinWf (trigEdge n s) := by
  unfold trigEdge
  extract_lets u o
  have hu : BasinWf u := by
    unfold u
    split
    · exact ite_wf (installSched_wf h) h
    · exact h
  cases o.fall with
  | some e => exact ite_wf (settleStops_wf (driveTrig_wf (setTrig_wf hu))) hu
  | none =>
    have hd := driveTrig_wf (n := n) (level := if o.sched.toggle then !o.level else true) (e := o.next) hu
    exact ite_wf (camTrigs_wf (advanceTrig_wf (ite_wf hd (setTrig_wf hd)))) hu

theorem startTrigOutSet_wf {r out refPtp activeLow toggle fine period start width count} {s : State} (h : BasinWf s) :
    BasinWf (startTrigOutSet r out refPtp activeLow toggle fine period start width count s) := by
  unfold startTrigOutSet
  split
  · exact endWith_wf h
  · split
    · exact endWith_wf h
    · exact ite_wf (postHost_wf h) (endWith_wf h)

theorem foldl_bind_wf {α : Type} {f : State → α → Option State} (hf : ∀ u a v, BasinWf u → f u a = some v → BasinWf v) (l : List α) :
    ∀ {o : Option State}, (∀ v, o = some v → BasinWf v) →
      ∀ v, l.foldl (fun o a => o.bind fun u => f u a) o = some v → BasinWf v := by
  induction l with
  | nil => exact fun h => h
  | cons a l ih =>
    intro o ho
    refine ih fun v hv => ?_
    obtain ⟨u, hu, hv⟩ := Option.bind_eq_some_iff.1 hv
    exact hf u a v (ho u hu) hv

theorem startTrigOutStop_wf {r mask time} {s : State} (h : BasinWf s) : BasinWf (startTrigOutStop r mask time s) := by
  unfold startTrigOutStop
  refine ite_wf (endWith_wf h) ?_
  extract_lets posted
  cases hu : posted with
  | none => exact endWith_wf h
  | some u =>
    refine settleStops_wf (BasinWf.update ?_)
    refine foldl_bind_wf (fun u a v h1 hv => ?_) _ (fun v hv => ?_) u hu
    · simp only [Option.ite_none_right_eq_some, Option.some.injEq] at hv
      obtain ⟨_, rfl⟩ := hv
      exact postHost_wf h1
    · cases hv
      exact h

theorem stepActions_wf {new} {s : State} (h : BasinWf s) : BasinWf (stepActions new s) := setRipple_wf h
theorem moveTimes_wf {old new} {s : State} (h : BasinWf s) : BasinWf (moveTimes old new s) := (setClock_wf h).update

theorem stepTime_wf {new} {s : State} (h : BasinWf s) : BasinWf (stepTime new s) :=
  raise_wf (ite_wf (stepActions_wf (foldl_wf (fun _ _ h1 => stepTrig_wf h1) (moveTimes_wf (setClock_wf h)) _)) (foldl_wf
      (fun _ _ h1 => stepTrig_wf h1) (moveTimes_wf (setClock_wf h)) _))

theorem steer_wf {s : State} (h : BasinWf s) : BasinWf (steer s) := setClock_wf (takeFree_wf h)

theorem judgeOffset_wf {s : State} (h : BasinWf s) : BasinWf (judgeOffset s) := by
  unfold judgeOffset
  split
  · exact ite_wf (setTimeState_wf h) h
  · exact ite_wf (setTimeState_wf h) (ite_wf (setTimeState_wf h) h)
  · exact ite_wf (setTimeState_wf h) h
  · exact h
  · exact h
  · exact h

theorem takeOffset_wf {off} {s : State} (h : BasinWf s) : BasinWf (takeOffset off s) := by
  unfold takeOffset
  extract_lets u v w
  have hw : BasinWf w := by
    refine setClock_wf ?_
    unfold v
    split
    · exact setTimeState_wf (setClock_wf h)
    · exact setTimeState_wf (setClock_wf h)
    · exact setClock_wf h
  refine ite_wf (ite_wf ?_ (setTimeState_wf (stepTime_wf hw))) (judgeOffset_wf (steer_wf hw))
  have hx := setTimeState_wf (n := .acquiring) hw
  exact ite_wf (steer_wf (ite_wf (raise_wf (setClock_wf hx)) hx)) (ite_wf (raise_wf (setClock_wf hx)) hx)

theorem ptpSync_wf {m} {s : State} (h : BasinWf s) : BasinWf (ptpSync m s) := ite_wf h (takeOffset_wf (setClock_wf h))

theorem becomeMaster_wf {s : State} (h : BasinWf s) : BasinWf (becomeMaster s) :=
  ite_wf (setClock_wf (ite_wf (raise_wf (setClock_wf h)) (setClock_wf h))) (setTimeState_wf (setClock_wf (ite_wf (raise_wf
      (setClock_wf h)) (setClock_wf h))))

theorem takeParent_wf {a} {s : State} (h : BasinWf s) : BasinWf (takeParent a s) :=
  ite_wf (setTimeState_wf (ite_wf (raise_wf (setClock_wf h)) (setClock_wf h))) (ite_wf (raise_wf (setClock_wf h)) (setClock_wf h))

theorem bmca_wf {s : State} (h : BasinWf s) : BasinWf (bmca s) := by
  unfold bmca
  split
  · exact h
  · exact ite_wf (becomeMaster_wf h) (takeParent_wf h)

theorem ptpAnnounce_wf {a} {s : State} (h : BasinWf s) : BasinWf (ptpAnnounce a s) := ite_wf h (bmca_wf (setClock_wf h))

theorem loseSource_wf {s : State} (h : BasinWf s) : BasinWf (loseSource s) := by
  unfold loseSource
  split
  · exact setTimeState_wf (setClock_wf h)
  · exact setTimeState_wf (setClock_wf h)
  · exact setTimeState_wf (setClock_wf h)
  · exact h
  · exact h
  · exact h

theorem sourceLost_wf {announce} {s : State} (h : BasinWf s) : BasinWf (sourceLost announce s) := by
  unfold sourceLost
  dsimp only
  split
  · refine ite_wf (ite_wf (ite_wf (setClock_wf (loseSource_wf (setClock_wf (ite_wf (raise_wf (setClock_wf h)) h)))) (becomeMaster_wf
        (setClock_wf (ite_wf (raise_wf (setClock_wf h)) h)))) (bmca_wf (setClock_wf (ite_wf (raise_wf (setClock_wf h)) h)))) ?_
    split
    · exact ite_wf (loseSource_wf (ite_wf (raise_wf (setClock_wf h)) h)) (ite_wf (raise_wf (setClock_wf h)) h)
    · exact ite_wf (raise_wf (setClock_wf h)) h
  · exact ite_wf (loseSource_wf (ite_wf (raise_wf (setClock_wf h)) h)) (ite_wf (raise_wf (setClock_wf h)) h)
  · exact ite_wf (raise_wf (setClock_wf h)) h

theorem timeJobEnd_wf {s : State} (h : BasinWf s) : BasinWf (timeJobEnd s) := by
  unfold timeJobEnd
  exact trigJobEnd_wf (ite_wf (setTimeState_wf (setClock_wf h)) (setClock_wf h))

theorem sendPtp_wf {port kind seq body} {s : State} (h : BasinWf s) : BasinWf (sendPtp port kind seq body s) := h.update

theorem ptpDelay_wf {m} {s : State} (h : BasinWf s) : BasinWf (ptpDelay m s) := by
  unfold ptpDelay
  split
  · exact ite_wf (sendPtp_wf h) h
  · refine ite_wf h ?_
    split
    · exact h
    · exact setClock_wf h
  · exact ite_wf (sendPtp_wf h) h
  · split
    · exact h
    · exact setClock_wf h

theorem delayReqSend_wf {s : State} (h : BasinWf s) : BasinWf (delayReqSend s) :=
  ite_wf (foldl_wf (fun _ _ h1 => sendPtp_wf h1) (setClock_wf h) _) (ite_wf (sendPtp_wf (setClock_wf h)) h)

theorem syncSend_wf {s : State} (h : BasinWf s) : BasinWf (syncSend s) :=
  ite_wf h (foldl_wf (fun _ _ h1 => ite_wf (sendPtp_wf (sendPtp_wf h1)) (sendPtp_wf h1)) (setClock_wf h) _)

theorem announceSend_wf {s : State} (h : BasinWf s) : BasinWf (announceSend s) :=
  ite_wf h (foldl_wf (fun _ _ h1 => sendPtp_wf h1) (setClock_wf h) _)

theorem ptpManagement_wf {port m} {s : State} (h : BasinWf s) : BasinWf (ptpManagement port m s) := by
  unfold ptpManagement
  split <;> exact sendPtp_wf h

theorem tcForward_wf {f} {s : State} (h : BasinWf s) : BasinWf (tcForward f s) := ite_wf h (sendPtp_wf (ite_wf (setClock_wf h) h))

theorem startTimeSet_wf {r ns sec} {s : State} (h : BasinWf s) : BasinWf (startTimeSet r ns sec s) :=
  ite_wf (endWith_wf h) (ite_wf (endWith_wf h) (endWith_wf (stepTime_wf h)))

theorem applyPpsOutCfg_wf {r mode width} {s : State} (h : BasinWf s) : BasinWf (applyPpsOutCfg r mode width s) := h.update

theorem startPpsOutCfg_wf {r mode width} {s : State} (h : BasinWf s) : BasinWf (startPpsOutCfg r mode width s) :=
  ite_wf (endWith_wf h) (applyPpsOutCfg_wf h)

theorem setPpsMode_wf {mode width} {s : State} (h : BasinWf s) : BasinWf (setPpsMode mode width s) := h.update

theorem applyPpsCfg_wf {s : State} (h : BasinWf s) : BasinWf (applyPpsCfg s) := by
  unfold applyPpsCfg
  refine foldl_wf ?_ h.update _
  intro _ _ h1
  split
  · exact endWith_wf (bumpOverride_wf (setPpsMode_wf h1))
  · exact markOverride_wf (setPpsMode_wf h1)

theorem drivePps_wf {level t} {s : State} (h : BasinWf s) : BasinWf (drivePps level t s) := h.update
theorem setPps_wf {f} {s : State} (h : BasinWf s) : BasinWf (setPps f s) := h.update

theorem ppsEdge_wf {s : State} (h : BasinWf s) : BasinWf (ppsEdge s) :=
  ite_wf (drivePps_wf (setPps_wf h)) (ite_wf (ite_wf (drivePps_wf (setPps_wf (setPps_wf (applyPpsCfg_wf h)))) (setPps_wf
      (applyPpsCfg_wf h))) h)

theorem setTrigIn_wf {n f} {s : State} (h : BasinWf s) : BasinWf (setTrigIn n f s) := h.update

theorem drainInput_wf {n} {s : State} (h : BasinWf s) : BasinWf (drainInput n s) :=
  ite_wf (setTrigIn_wf (foldl_wf (fun _ _ h1 => (memPut_wf _ _ h1).update) h _)) h

theorem captureAt_wf {n rising i} {s : State} (h : BasinWf s) : BasinWf (captureEdge.captureAt n rising i s) :=
  ite_wf (ite_wf (setTrigIn_wf (setTrigIn_wf h)) (raise_wf (setTrigIn_wf (setTrigIn_wf h)))) (drainInput_wf (setTrigIn_wf
      (setTrigIn_wf h)))

theorem captureEdge_wf {n rising width} {s : State} (h : BasinWf s) : BasinWf (captureEdge n rising width s) := by
  unfold captureEdge
  refine ite_wf (setTrigIn_wf h) ?_
  refine ite_wf h ?_
  split
  · exact ite_wf (setTrigIn_wf h) (captureAt_wf h)
  · exact captureAt_wf h

theorem startTrigInCfg_wf {r input edge filter enc} {s : State} (h : BasinWf s) : BasinWf (startTrigInCfg r input edge filter enc s) :=
  ite_wf (endWith_wf h) (ite_wf (endWith_wf h) (endWith_wf (setTrigIn_wf h)))

theorem drainAll_wf : ∀ {n} {s : State}, BasinWf s → BasinWf (drainAll n s)
  | 0, _, h => h
  | n + 1, s, h => by
    unfold drainAll
    split
    · exact h
    · split
      · exact h
      · exact drainAll_wf (setTrigIn_wf (memPut_wf _ _ h).update)

theorem startTrigInRing_wf {r base size} {s : State} (h : BasinWf s) : BasinWf (startTrigInRing r base size s) :=
  ite_wf (endWith_wf h) (endWith_wf (drainAll_wf h.update))

/-! ### Machine/Peers -/

theorem renewCrc_wf {s : State} (h : BasinWf s) : BasinWf (renewCrc s) := foldl_wf (fun _ _ h1 => renewMismatch_wf h1) (setProx_wf h) _
theorem loadRules_wf {s : State} (h : BasinWf s) : BasinWf (loadRules s) := renewCrc_wf (setProx_wf h)
theorem applyProxSep_wf {a b dist} {s : State} (h : BasinWf s) : BasinWf (applyProxSep a b dist s) := renewCrc_wf (setProx_wf h)
theorem applyProxZone_wf {g mask} {s : State} (h : BasinWf s) : BasinWf (applyProxZone g mask s) := renewCrc_wf (setProx_wf h)

theorem applyProxPlume_wf {rule dirX dirY len half} {s : State} (h : BasinWf s) : BasinWf (applyProxPlume rule dirX dirY len half s) :=
  renewCrc_wf (setProx_wf h)

theorem startProx_wf {r st launch w} {s : State} (h : BasinWf s) : BasinWf (startProx r st launch w s) := by
  unfold startProx
  refine ite_wf (endWith_wf h) ?_
  split
  · exact endWith_wf h
  · exact ite_wf (ripplePost_wf h) (endWith_wf h)

theorem sendPeer_wf {kind bytes} {s : State} (h : BasinWf s) : BasinWf (sendPeer kind bytes s) := h.update
theorem keepPlaces_wf {s : State} (h : BasinWf s) : BasinWf (keepPlaces s) := foldl_wf (fun _ _ h1 => setSync_wf h1) h _
theorem ownReports_wf {x} {s : State} (h : BasinWf s) : BasinWf (ownReports x s) := foldl_wf (fun _ _ h1 => setSync_wf h1) h _

theorem summarySend_wf {s : State} (h : BasinWf s) : BasinWf (summarySend s) :=
  ite_wf h (setProx_wf (ite_wf (foldl_wf (fun _ _ h1 => sendPeer_wf h1) (ownReports_wf (keepPlaces_wf h)) _) (sendPeer_wf (foldl_wf
      (fun _ _ h1 => sendPeer_wf h1) (ownReports_wf (keepPlaces_wf h)) _))))

theorem summaryReceive_wf {m} {s : State} (h : BasinWf s) : BasinWf (summaryReceive m s) := ite_wf (setPeer_wf h) h

theorem takeReport_wf {member x entries id} {s : State} (h : BasinWf s) : BasinWf (takeReport member x entries id s) := by
  unfold takeReport
  split
  · exact h
  · exact ite_wf (faultAll_wf (raise_wf (setSync_wf (setSync_wf h)))) (ite_wf (raise_wf (setSync_wf h)) (setSync_wf h))

theorem syncReportReceive_wf {member x entries} {s : State} (h : BasinWf s) : BasinWf (syncReportReceive member x entries s) :=
  ite_wf (foldl_wf (fun _ _ h1 => takeReport_wf h1) h _) h

theorem peerSilentNow_wf {m} {s : State} (h : BasinWf s) : BasinWf (peerSilentNow m s) := ite_wf (raise_wf (setProx_wf (setPeer_wf h))) h

/-! ### Machine/Validate -/

theorem readPoison_wf {a n} {s : State} (h : BasinWf s) : BasinWf (readPoison a n s) := by
  unfold readPoison
  split
  · exact eccUe_wf h
  · exact h

theorem writeStatus_wf {x} {s : State} (h : BasinWf s) : BasinWf (writeStatus x s) := memWrite_wf h

/-! ### Machine/Sequencer -/

theorem setJobState_wf {st} {s : State} (h : BasinWf s) : BasinWf (setJobState st s) := setJobs_wf h
theorem sendControl_wf {kind payload} {s : State} (h : BasinWf s) : BasinWf (sendControl kind payload s) := sendPeer_wf h
theorem report_wf {armLate failedVal} {s : State} (h : BasinWf s) : BasinWf (report armLate failedVal s) := ite_wf (sendControl_wf h) h
theorem sendPlan_wf {s : State} (h : BasinWf s) : BasinWf (sendPlan s) := sendControl_wf h
theorem planStages_wf {es} {s : State} (h : BasinWf s) : BasinWf (planStages es s) := sendPlan_wf h.update
theorem planStage_wf {stage layer start} {s : State} (h : BasinWf s) : BasinWf (planStage stage layer start s) := planStages_wf h
theorem dropPlan_wf {stage layer} {s : State} (h : BasinWf s) : BasinWf (dropPlan stage layer s) := h.update
theorem leaderPlan_wf {stage layer} {s : State} (h : BasinWf s) : BasinWf (leaderPlan stage layer s) := planStages_wf h

theorem atPlan_wf {stage layer ready act} {s : State} (hf3 : ∀ x0 x1, BasinWf x1 → BasinWf (act x0 x1)) (h : BasinWf s) :
    BasinWf (atPlan stage layer ready act s) := by
  unfold atPlan
  refine ite_wf (hf3 _ _ h) ?_
  split
  · exact ite_wf (hf3 _ _ (dropPlan_wf h)) h
  · exact ite_wf (leaderPlan_wf h) h

theorem abortLayer_wf {st x} {s : State} (h : BasinWf s) : BasinWf (abortLayer st x s) := endWith_wf (setJobs_wf (writeStatus_wf h))

theorem completeLayer_wf {i st} {s : State} (h : BasinWf s) : BasinWf (completeLayer i st s) := by
  unfold completeLayer
  split
  · exact h
  · exact endWith_wf (setJobs_wf (writeStatus_wf h))

theorem layerCompletion_wf {s : State} (h : BasinWf s) : BasinWf (layerCompletion s) := by
  unfold layerCompletion
  split
  · exact h
  · split
    · exact h
    · exact completeLayer_wf h

theorem completionDue_wf {s : State} (h : BasinWf s) : BasinWf (completionDue s) := ite_wf (setJobs_wf h) h

theorem layerSettle_wf {s : State} (h : BasinWf s) : BasinWf (layerSettle s) :=
  layerCompletion_wf (completionDue_wf (foldl_wf (fun _ _ h1 => writeTail_wf h1) h _))

theorem laneToRest_wf {l} {s : State} (h : BasinWf s) : BasinWf (laneToRest l s) :=
  ite_wf (stopLane_wf (flushCut_wf h)) (ite_wf (leaveFault_wf h) (stopLane_wf h))

theorem takeBack_wf {l} {s : State} (h : BasinWf s) : BasinWf (takeBack l s) := ite_wf (setLane_wf h) h

theorem bindLayer_wf {i} {s : State} (h : BasinWf s) : BasinWf (bindLayer i s) := by
  unfold bindLayer
  split
  · exact h
  · exact ite_wf h (setLayer_wf (foldl_wf (fun _ _ h1 => takeBack_wf h1) h _))

theorem beginFetch_wf {i} {s : State} (h : BasinWf s) : BasinWf (beginFetch i s) := by
  unfold beginFetch
  split
  · exact h
  · refine ite_wf h ?_
    refine setLayer_wf ?_
    refine foldl_wf ?_ h _
    intro _ _ h1
    split
    · exact ite_wf h1 (beginStream_wf h1)
    · exact h1

theorem beginRepair_wf {i l e} {s : State} (h : BasinWf s) : BasinWf (beginRepair i l e s) := by
  unfold beginRepair
  split
  · exact beginStream_wf h
  · exact ite_wf (beginStream_wf h) (setLane_wf (beginStream_wf h))

theorem leaveStarved_wf {s : State} (h : BasinWf s) : BasinWf (leaveStarved s) := ite_wf (recExtreme_wf (setJobs_wf h)) h

theorem enterHeld_wf {cause resume} {s : State} (h : BasinWf s) : BasinWf (enterHeld cause resume s) :=
  report_wf (foldl_wf (fun _ _ h1 => endWith_wf h1) (raise_wf (calStage_wf (withdraw_wf (setJobs_wf (leaveStarved_wf h))))) _)

theorem leaveHeld_wf {s : State} (h : BasinWf s) : BasinWf (leaveHeld s) :=
  ite_wf h (foldl_wf (fun _ _ h1 => endWith_wf h1) (raise_wf ((setJobs_wf h).update)) _)

theorem endJob_wf {s : State} (h : BasinWf s) : BasinWf (endJob s) := by
  unfold endJob
  refine foldl_wf (fun _ _ h1 => endWith_wf h1) ?_ _
  refine foldl_wf (fun _ _ h1 => endWith_wf h1) ?_ _
  refine foldl_wf (fun _ _ h1 => endWith_wf h1) ?_ _
  split
  · exact endWith_wf (raise_wf (timeJobEnd_wf (calStage_wf (setJobs_wf ((scriptStop_wf (calJobEnd_wf (((leaveHeld_wf (foldl_wf
        (fun _ _ h1 => foldl_wf (fun _ _ h2 => endWith_wf h2) h1 _) (foldl_wf (fun _ _ h1 => abortLayer_wf h1) (foldl_wf
        (fun _ _ h1 => writeTail_wf (laneToRest_wf h1)) (ite_wf (killAll_wf (withdraw_wf (layerSettle_wf (leaveStarved_wf h))))
        (withdraw_wf (layerSettle_wf (leaveStarved_wf h)))) _) _) _)).update).update))).update)))))
  · exact raise_wf (timeJobEnd_wf (calStage_wf (setJobs_wf ((scriptStop_wf (calJobEnd_wf (((leaveHeld_wf (foldl_wf
        (fun _ _ h1 => foldl_wf (fun _ _ h2 => endWith_wf h2) h1 _) (foldl_wf (fun _ _ h1 => abortLayer_wf h1) (foldl_wf
        (fun _ _ h1 => writeTail_wf (laneToRest_wf h1)) (ite_wf (killAll_wf (withdraw_wf (layerSettle_wf (leaveStarved_wf h))))
        (withdraw_wf (layerSettle_wf (leaveStarved_wf h)))) _) _) _)).update).update))).update))))

theorem setStage_wf {stage layer t} {s : State} (h : BasinWf s) : BasinWf (setStage stage layer t s) :=
  report_wf (calStage_wf (setJobs_wf (leaveHeld_wf h)))

theorem settleBegins_wf {t} {s : State} (h : BasinWf s) : BasinWf (settleBegins t s) := (setStage_wf h).update

theorem bedBegins_wf {t} {s : State} (h : BasinWf s) : BasinWf (bedBegins t s) :=
  ite_wf (camStageBegin_wf (setStage_wf (setJobs_wf h))) (enterHeld_wf (camStageBegin_wf (setStage_wf (setJobs_wf h))))

theorem replanAll_wf {s : State} (h : BasinWf s) : BasinWf (replanAll s) := foldl_wf (fun _ _ h1 => ite_wf h1 (setLane_wf h1)) h _
theorem setL_wf {l} {s : State} (h : BasinWf s) : BasinWf (setL l s) := replanAll_wf (setJobs_wf h)

theorem armHold_wf {s : State} (h : BasinWf s) : BasinWf (armHold s) :=
  enterHeld_wf (setJobs_wf (foldl_wf (fun _ _ h1 => leaveFault_wf h1) h _))

theorem armLane_wf {l} {s : State} (h : BasinWf s) : BasinWf (armLane l s) := by
  unfold armLane
  split
  · exact h
  · exact ite_wf (setLayerLane_wf h) (ite_wf (faultOff_wf h) h)

theorem armBegins_wf {i t} {s : State} (h : BasinWf s) : BasinWf (armBegins i t s) :=
  ite_wf (armHold_wf (ite_wf (setL_wf (setStage_wf (setJobs_wf h))) (foldl_wf (fun _ _ h1 => armLane_wf h1) (setL_wf (setStage_wf
      (setJobs_wf h))) _))) (foldl_wf (fun _ _ h1 => tryArm_wf h1) (ite_wf (setL_wf (setStage_wf (setJobs_wf h))) (foldl_wf
      (fun _ _ h1 => armLane_wf h1) (setL_wf (setStage_wf (setJobs_wf h))) _)) _)

theorem recoatBegins_wf {repeats t} {s : State} (h : BasinWf s) : BasinWf (recoatBegins repeats t s) :=
  scriptBegin_wf (beginFetch_wf (bindLayer_wf (setStage_wf (setJobs_wf h))))

theorem starve_wf {t} {s : State} (h : BasinWf s) : BasinWf (starve t s) :=
  raise_wf (report_wf (calStage_wf (setJobs_wf (leaveHeld_wf h))))

theorem startStages_wf {t} {s : State} (h : BasinWf s) : BasinWf (startStages t s) :=
  ite_wf (recoatBegins_wf h) (bedBegins_wf (beginFetch_wf (bindLayer_wf h)))

theorem goOn_wf {s : State} (h : BasinWf s) : BasinWf (goOn s) :=
  ite_wf (endJob_wf (leaveHeld_wf h)) (ite_wf (ite_wf (atPlan_wf (fun _ _ h1 => starve_wf h1) h) (atPlan_wf (fun _ _ h1 => ite_wf
      (startStages_wf (setJobs_wf (leaveStarved_wf h1))) (recoatBegins_wf (setJobs_wf (leaveStarved_wf h1)))) h)) (ite_wf h (ite_wf
      (planStage_wf (starve_wf h)) (starve_wf h))))

theorem postEnds_wf {s : State} (h : BasinWf s) : BasinWf (postEnds s) := by
  unfold postEnds
  dsimp only
  refine ite_wf (enterHeld_wf h) ?_
  split
  · exact ite_wf (endJob_wf (layerSettle_wf h)) (enterHeld_wf (layerSettle_wf h))
  · exact goOn_wf (layerSettle_wf h)

theorem recoatEnds_wf {e} {s : State} (h : BasinWf s) : BasinWf (recoatEnds e s) := by
  unfold recoatEnds
  dsimp only
  refine ite_wf h ?_
  split
  · exact enterHeld_wf (scriptStop_wf (ite_wf (raise_wf h) h))
  · exact atPlan_wf (fun _ _ h1 => settleBegins_wf h1) (scriptStop_wf (ite_wf (raise_wf h) h))

theorem recoatDefect_wf {mayRepeat} {s : State} (h : BasinWf s) : BasinWf (recoatDefect mayRepeat s) := by
  unfold recoatDefect
  refine ite_wf ?_ (enterHeld_wf (raise_wf h))
  split
  · exact enterHeld_wf (raise_wf h)
  · exact atPlan_wf (fun _ _ h1 => recoatBegins_wf h1) (raise_wf h)

theorem scriptDefect_wf {s : State} (h : BasinWf s) : BasinWf (scriptDefect s) := ite_wf (recoatDefect_wf (scriptStop_wf h)) h

theorem bedEnds_wf {s : State} (h : BasinWf s) : BasinWf (bedEnds s) := by
  unfold bedEnds
  dsimp only
  refine ite_wf h ?_
  refine ite_wf (recoatDefect_wf h) ?_
  split
  · exact enterHeld_wf (setJobs_wf h)
  · exact atPlan_wf (fun _ _ h1 => armBegins_wf h1) (setJobs_wf h)

theorem exposeBegins_wf {s : State} (h : BasinWf s) : BasinWf (exposeBegins s) := report_wf (bindLayer_wf (dropPlan_wf (setJobs_wf h)))

theorem armEnds_wf {s : State} (h : BasinWf s) : BasinWf (armEnds s) := by
  unfold armEnds
  refine ite_wf (exposeBegins_wf h) ?_
  refine ite_wf (armHold_wf h) ?_
  split
  · exact enterHeld_wf h
  · exact ite_wf (raise_wf (report_wf (calStage_wf (setJobs_wf h)))) h

theorem stageEnd_wf {s : State} (h : BasinWf s) : BasinWf (stageEnd s) := by
  unfold stageEnd
  split
  · exact ite_wf (goOn_wf h) h
  · refine ite_wf h ?_
    split
    · exact postEnds_wf h
    · exact recoatEnds_wf h
    · split
      · exact enterHeld_wf h
      · exact atPlan_wf (fun _ _ h1 => bedBegins_wf h1) h
    · exact bedEnds_wf h
    · exact armEnds_wf h
    · exact h

theorem postpone_wf {s : State} (h : BasinWf s) : BasinWf (postpone s) := raise_wf (setL_wf (setJobs_wf h))
theorem leaderPostpone_wf {s : State} (h : BasinWf s) : BasinWf (leaderPostpone s) := postpone_wf (planStage_wf h)

theorem postLayerStart_wf {s : State} (h : BasinWf s) : BasinWf (postLayerStart s) :=
  ite_wf (setJobs_wf (postOwn_wf h)) (ite_wf (postpone_wf h) (ite_wf (leaderPostpone_wf h) (report_wf h)))

theorem armCheck_wf {s : State} (h : BasinWf s) : BasinWf (armCheck s) :=
  ite_wf h (ite_wf (armHold_wf h) (ite_wf h (ite_wf (postLayerStart_wf h) (ite_wf h (ite_wf (postpone_wf h) (ite_wf (armHold_wf
      (foldl_wf (fun _ _ h1 => armLateFault_wf h1) h _)) (postLayerStart_wf (foldl_wf (fun _ _ h1 => armLateFault_wf h1) h _))))))))

theorem memberArmCheck_wf {s : State} (h : BasinWf s) : BasinWf (memberArmCheck s) :=
  ite_wf h (ite_wf (ite_wf (armHold_wf (foldl_wf (fun _ _ h1 => armLateFault_wf h1) h _)) (report_wf (foldl_wf
      (fun _ _ h1 => armLateFault_wf h1) h _))) (ite_wf (leaderPostpone_wf h) (report_wf h)))

theorem startLane_wf {l} {s : State} (h : BasinWf s) : BasinWf (startLane l s) := by
  unfold startLane
  dsimp only
  refine ite_wf h ?_
  split
  · exact setLane_wf (setLane_wf h)
  · exact ite_wf (setLane_wf (setLane_wf h)) (ite_wf (setLane_wf (setLane_wf h)) (setLane_wf (setLane_wf h)))

theorem layerStart_wf {i} {s : State} (h : BasinWf s) : BasinWf (layerStart i s) := by
  unfold layerStart
  split
  · exact h
  · exact foldl_wf (fun _ _ h1 => startLane_wf (setLane_wf h1)) h _

theorem postBegins_wf {t} {s : State} (h : BasinWf s) : BasinWf (postBegins t s) := by
  unfold postBegins
  split
  · exact h
  · exact ite_wf (camStageBegin_wf (ite_wf ((setJobs_wf (foldl_wf (fun _ _ h1 => leaveFault_wf h1) (setStage_wf h) _)).update)
        (setJobs_wf (foldl_wf (fun _ _ h1 => leaveFault_wf h1) (setStage_wf h) _)))) (enterHeld_wf (layerSettle_wf (camStageBegin_wf
        (ite_wf ((setJobs_wf (foldl_wf (fun _ _ h1 => leaveFault_wf h1) (setStage_wf h) _)).update) (setJobs_wf (foldl_wf
        (fun _ _ h1 => leaveFault_wf h1) (setStage_wf h) _))))))

theorem exposeEnd_wf {s : State} (h : BasinWf s) : BasinWf (exposeEnd s) := by
  unfold exposeEnd
  split
  · exact h
  · exact ite_wf h (ite_wf (enterHeld_wf (ite_wf h (report_wf (setJobs_wf h)))) (atPlan_wf (fun _ _ h1 => postBegins_wf h1) (ite_wf h
        (report_wf (setJobs_wf h)))))

theorem permitFaults_wf {s : State} (h : BasinWf s) : BasinWf (permitFaults s) :=
  ite_wf h (ite_wf (raise_wf (faultAll_wf h)) (setJobs_wf (raise_wf (faultAll_wf h))))

theorem permitLow_wf {inputB} {s : State} (h : BasinWf s) : BasinWf (permitLow inputB s) :=
  ite_wf (permitFaults_wf (calPermitLow_wf (ite_wf (killAll_wf h.update) h.update))) (ite_wf (setJobs_wf (withdraw_wf (calPermitLow_wf
      (ite_wf (killAll_wf h.update) h.update)))) (calPermitLow_wf (ite_wf (killAll_wf h.update) h.update)))

theorem permitRestored_wf {s : State} (h : BasinWf s) : BasinWf (permitRestored s) :=
  ite_wf (ite_wf (ite_wf (setL_wf (planStage_wf (foldl_wf (fun _ _ h1 => tryArm_wf h1) (setJobs_wf h.update) _))) (setL_wf (foldl_wf
      (fun _ _ h1 => tryArm_wf h1) (setJobs_wf h.update) _))) (setL_wf (foldl_wf (fun _ _ h1 => tryArm_wf h1)
      (setJobs_wf h.update) _))) h.update

theorem permitDisagree_wf {a b} {s : State} (h : BasinWf s) : BasinWf (permitDisagree a b s) := ite_wf h h.update

/-! ### Machine/Line -/

theorem stageMark_wf {l} {s : State} (h : BasinWf s) : BasinWf (stageMark l s) := by
  unfold stageMark
  refine ite_wf h ?_
  split
  · exact h
  · exact ite_wf h (setLane_wf (beginStream_wf h))

theorem newProduct_wf {count} {s : State} (h : BasinWf s) : BasinWf (newProduct count s) :=
  ite_wf h (ite_wf (raise_wf (foldl_wf (fun _ _ h1 => skipMark_wf h1) (setJobs_wf h) _)) (setJobs_wf h))

theorem lineTrigger_wf {source} {s : State} (h : BasinWf s) : BasinWf (lineTrigger source s) := by
  unfold lineTrigger
  split
  · exact ite_wf (newProduct_wf h) h
  · exact h

theorem beginMark_wf {l k target} {s : State} (h : BasinWf s) : BasinWf (beginMark l k target s) := by
  unfold beginMark
  dsimp only
  split
  · exact setLane_wf (setLane_wf h)
  · exact ite_wf (setLane_wf (setLane_wf h)) (setLane_wf (setLane_wf h))

theorem markStart_wf {l} {s : State} (h : BasinWf s) : BasinWf (markStart l s) := by
  unfold markStart
  refine ite_wf h ?_
  split
  · exact h
  · exact ite_wf (skipMark_wf (stageMark_wf (setLane_wf (ite_wf (leaveFault_wf h) h)))) (ite_wf (skipMark_wf (stageMark_wf (setLane_wf
        (ite_wf (leaveFault_wf h) h)))) (ite_wf (skipMark_wf (ite_wf (stageMark_wf (setLane_wf (ite_wf (leaveFault_wf h) h))) (raise_wf
        (setLane_wf (stageMark_wf (setLane_wf (ite_wf (leaveFault_wf h) h))))))) (beginMark_wf (stageMark_wf (setLane_wf (ite_wf
        (leaveFault_wf h) h))))))

theorem markRecordWrite_wf {s : State} (h : BasinWf s) : BasinWf (markRecordWrite s) := by
  unfold markRecordWrite
  split
  · exact ite_wf (setJobs_wf (memWrite_wf h)) h
  · exact h

theorem flushMarks_wf {s : State} (h : BasinWf s) : BasinWf (flushMarks s) := foldl_wf (fun _ _ h1 => markRecordWrite_wf h1) h _

theorem skipPending_wf {s : State} (h : BasinWf s) : BasinWf (skipPending s) :=
  foldl_wf (fun _ _ h1 => ite_wf h1 (raise_wf (foldl_wf (fun _ _ h2 => skipMark_wf h2) h1 _))) h _

theorem lineSettle_wf {s : State} (h : BasinWf s) : BasinWf (lineSettle s) :=
  ite_wf h (ite_wf (endJob_wf (flushMarks_wf h)) (ite_wf (enterHeld_wf (skipPending_wf h)) h))

theorem closeTail_wf {l} {s : State} (h : BasinWf s) : BasinWf (closeTail l s) := by
  unfold closeTail
  dsimp only
  split
  · exact lineSettle_wf (endMark_wf (settleProduct_wf (setLane_wf (writeTail_wf h))))
  · exact completionDue_wf (setLane_wf (writeTail_wf h))

theorem laneEnd_wf {l} {s : State} (h : BasinWf s) : BasinWf (laneEnd l s) := by
  unfold laneEnd
  refine ite_wf ?_ (settleLane_wf h)
  have hp := flushPlan_wf (l := l) (settleLane_wf (l := l) h)
  extract_lets mark i u v w x y
  have hv : BasinWf v := by
    unfold v
    split
    · exact ite_wf hp (setLayerLane_wf hp)
    · exact hp
  have hx : BasinWf x := setLane_wf (setLane_wf hv)
  have hy : BasinWf y := ite_wf (closeTail_wf hx) hx
  exact ite_wf (lineSettle_wf (stageMark_wf hy)) hy

theorem badMark_wf {r k} {s : State} (h : BasinWf s) : BasinWf (badMark r k s) := by
  unfold badMark
  dsimp only
  split
  · exact ite_wf (endJob_wf (endWith_wf (endWith_wf h))) (endWith_wf h)
  · exact endWith_wf h

theorem crossMark_wf {cross} {s : State} (h : BasinWf s) : BasinWf (crossMark cross s) := by
  unfold crossMark
  split
  · exact ite_wf (endJob_wf (endWith_wf h)) h
  · exact h

theorem startMarkQueue_wf {r l product addr result count} {s : State} (h : BasinWf s) :
    BasinWf (startMarkQueue r l product addr result count s) := by
  unfold startMarkQueue
  split
  · exact endWith_wf h
  · exact ite_wf (endWith_wf h) (ite_wf (endWith_wf h) (ite_wf (endWith_wf h) (ite_wf (endWith_wf h) (ite_wf (endWith_wf h) (ite_wf
        (endWith_wf h) (ite_wf (badMark_wf (readPoison_wf h)) (stageMark_wf (park_wf (setLane_wf (crossMark_wf (readPoison_wf h)))))))))))

/-! ### Machine/JobCmds -/

theorem tryStart_wf {s : State} (h : BasinWf s) : BasinWf (tryStart s) := by
  unfold tryStart
  split
  · refine ite_wf h ?_
    split
    · exact ite_wf (endJob_wf (endWith_wf h)) (endWith_wf (setJobs_wf h))
    · exact endWith_wf (setJobs_wf h)
  · exact h

theorem startJobStart_wf {r addr} {s : State} (h : BasinWf s) : BasinWf (startJobStart r addr s) := by
  unfold startJobStart
  refine ite_wf (endWith_wf h) ?_
  refine ite_wf (endWith_wf h) ?_
  split
  · exact endWith_wf (eccUe_wf h)
  · exact ite_wf (endWith_wf h) (ite_wf (endWith_wf h) (tryStart_wf (calStage_wf h.update)))

theorem lineBegins_wf {s : State} (h : BasinWf s) : BasinWf (lineBegins s) :=
  foldl_wf (fun _ _ h1 => stageMark_wf h1) (setJobState_wf (leaveHeld_wf h)) _

theorem firstStage_wf {t} {s : State} (h : BasinWf s) : BasinWf (firstStage t s) := by
  unfold firstStage
  split
  · exact h
  · exact ite_wf (lineBegins_wf (ite_wf h (setJobs_wf h))) (ite_wf (startStages_wf h) (starve_wf h))

theorem jobTor_wf {s : State} (h : BasinWf s) : BasinWf (jobTor s) := by
  unfold jobTor
  split
  · refine ite_wf h ?_
    split
    · refine enterHeld_wf ?_
      split
      · exact ite_wf (setJobs_wf h) h
      · exact h
    · exact firstStage_wf h
  · exact h

theorem refuseLayer_wf {r st index} {s : State} (h : BasinWf s) : BasinWf (refuseLayer r st index s) := raise_wf (endWith_wf h)
theorem takeLayer_wf {r addr hd} {s : State} (h : BasinWf s) : BasinWf (takeLayer r addr hd s) := park_wf (setJobs_wf (setJobs_wf h))

theorem startLayerQueue_wf {r addr} {s : State} (h : BasinWf s) : BasinWf (startLayerQueue r addr s) := by
  unfold startLayerQueue
  refine ite_wf (endWith_wf h) ?_
  refine ite_wf (endWith_wf h) ?_
  refine ite_wf (refuseLayer_wf h) ?_
  split
  · exact refuseLayer_wf (eccUe_wf h)
  · exact ite_wf (refuseLayer_wf h) (takeLayer_wf h)

theorem layerFails_wf {x st errs} {s : State} (h : BasinWf s) : BasinWf (layerFails x st errs s) :=
  report_wf (raise_wf (endWith_wf (setJobs_wf (writeStatus_wf h))))

theorem layerPasses_wf {c} {s : State} (h : BasinWf s) : BasinWf (layerPasses c s) :=
  ite_wf (report_wf (goOn_wf (beginFetch_wf (bindLayer_wf (ite_wf (bindLayer_wf (tryStart_wf (setLayer_wf h))) (tryStart_wf
      (setLayer_wf h))))))) (ite_wf (bindLayer_wf (tryStart_wf (setLayer_wf h))) (tryStart_wf (setLayer_wf h)))

theorem checkPoison_wf {x} {s : State} (h : BasinWf s) : BasinWf (checkPoison x s) :=
  foldl_wf (fun _ _ h1 => readPoison_wf (readPoison_wf h1)) (readPoison_wf h) _

theorem validationDone_wf {s : State} (h : BasinWf s) : BasinWf (validationDone s) := by
  unfold validationDone
  dsimp only
  split
  · exact h
  · split
    · exact setJobs_wf h
    · refine ite_wf (layerFails_wf (ite_wf (checkPoison_wf (setJobs_wf h)) (setJobs_wf h))) ?_
      split
      · exact ite_wf (endJob_wf (endWith_wf (ite_wf (checkPoison_wf (setJobs_wf h)) (setJobs_wf h)))) (layerPasses_wf (ite_wf
            (checkPoison_wf (setJobs_wf h)) (setJobs_wf h)))
      · exact layerPasses_wf (ite_wf (checkPoison_wf (setJobs_wf h)) (setJobs_wf h))

theorem startLayerCancel_wf {r i} {s : State} (h : BasinWf s) : BasinWf (startLayerCancel r i s) :=
  ite_wf (endWith_wf h) (finish_wf (foldl_wf (fun _ _ h1 => abortLayer_wf (ite_wf (foldl_wf
      (fun _ _ h2 => laneToRest_wf h2) h1 _) h1)) h _))

theorem cutMarks_wf {s : State} (h : BasinWf s) : BasinWf (cutMarks s) := by
  unfold cutMarks
  refine foldl_wf ?_ h _
  intro _ _ h1
  split
  · exact settleProduct_wf (flushCut_wf h1)
  · exact h1

theorem startJobEnd_wf {r mode} {s : State} (h : BasinWf s) : BasinWf (startJobEnd r mode s) := by
  unfold startJobEnd
  refine ite_wf (endWith_wf h) ?_
  refine ite_wf (endWith_wf h) ?_
  refine ite_wf (endJob_wf (ite_wf (flushMarks_wf (cutMarks_wf (setJobs_wf h))) (setJobs_wf h))) ?_
  split
  · exact setJobs_wf (setJobs_wf h)
  · exact setJobs_wf (setJobs_wf h)
  · exact lineSettle_wf (setJobState_wf (setJobs_wf h))
  · exact setJobs_wf h
  · exact endJob_wf (ite_wf (flushMarks_wf (setJobs_wf h)) (setJobs_wf h))

theorem settleHold_wf {s : State} (h : BasinWf s) : BasinWf (settleHold s) := by
  unfold settleHold
  split
  · exact ite_wf (exposeEnd_wf h) h
  · split
    · exact enterHeld_wf h
    · exact h
  · split
    · exact enterHeld_wf h
    · exact h
  · exact ite_wf h (setJobs_wf (withdraw_wf h))
  · exact ite_wf h (lineSettle_wf h)
  · exact ite_wf (stageEnd_wf h) h

theorem startJobHold_wf {r} {s : State} (h : BasinWf s) : BasinWf (startJobHold r s) :=
  ite_wf (endWith_wf h) (ite_wf (endWith_wf h) (settleHold_wf (setJobs_wf h)))

theorem afterPostHold_wf {s : State} (h : BasinWf s) : BasinWf (afterPostHold s) := ite_wf (enterHeld_wf (leaveHeld_wf h)) (goOn_wf h)

theorem resumeContinue_wf {s : State} (h : BasinWf s) : BasinWf (resumeContinue s) := by
  unfold resumeContinue
  split
  · exact firstStage_wf h
  · exact atPlan_wf (fun _ _ h1 => postBegins_wf h1) h
  · exact ite_wf (afterPostHold_wf h) (atPlan_wf (fun _ _ h1 => settleBegins_wf (beginFetch_wf (bindLayer_wf h1))) h)
  · exact atPlan_wf (fun _ _ h1 => recoatBegins_wf h1) h
  · exact atPlan_wf (fun _ _ h1 => settleBegins_wf h1) (setJobs_wf h)
  · exact atPlan_wf (fun _ _ h1 => bedBegins_wf h1) h
  · exact atPlan_wf (fun _ _ h1 => armBegins_wf h1) h
  · exact lineBegins_wf h
  · exact goOn_wf h

theorem reexpose_wf {t} {s : State} (h : BasinWf s) : BasinWf (reexpose t s) := by
  unfold reexpose
  split
  · exact h
  · refine armBegins_wf ?_
    refine setJobs_wf ?_
    refine foldl_wf ?_ (setJobs_wf h) _
    intro _ _ h1
    split
    · exact beginRepair_wf (laneToIdle_wf (setLayerLane_wf h1))
    · exact h1

theorem nextLayerMode_wf {s : State} (h : BasinWf s) : BasinWf (nextLayerMode s) := by
  unfold nextLayerMode
  split
  · exact goOn_wf h
  · exact goOn_wf (bindLayer_wf (completeLayer_wf (setJobs_wf (foldl_wf (fun _ _ h1 => laneToRest_wf h1) h _))))

theorem resumeGo_wf {s : State} (h : BasinWf s) : BasinWf (resumeGo s) := by
  unfold resumeGo
  split
  · exact resumeContinue_wf h
  · exact atPlan_wf (fun _ _ h1 => reexpose_wf h1) h
  · exact nextLayerMode_wf h
  · exact ite_wf (afterPostHold_wf h) (atPlan_wf (fun _ _ h1 => recoatBegins_wf h1) h)

theorem machineResume_wf {s : State} (h : BasinWf s) : BasinWf (machineResume s) :=
  ite_wf h (ite_wf (ite_wf (resumeGo_wf ((setJobs_wf h).update)) h) (resumeGo_wf (setJobs_wf h)))

theorem startJobResume_wf {r mode} {s : State} (h : BasinWf s) : BasinWf (startJobResume r mode s) :=
  ite_wf (endWith_wf h) (ite_wf (endWith_wf h) (ite_wf (ite_wf (machineResume_wf (report_wf (setJobs_wf h))) (report_wf (setJobs_wf h)))
      (resumeGo_wf (setJobs_wf h))))

theorem stageEndAny_wf {s : State} (h : BasinWf s) : BasinWf (stageEndAny s) := ite_wf (ite_wf (resumeGo_wf h) h) (stageEnd_wf h)

theorem startLaneReenable_wf {r mask} {s : State} (h : BasinWf s) : BasinWf (startLaneReenable r mask s) :=
  ite_wf (endWith_wf h) (ite_wf (endWith_wf h) (ite_wf (endWith_wf h) (ite_wf (endWith_wf (foldl_wf (fun _ _ h1 => setLane_wf h1) h _))
      (endWith_wf (setJobs_wf h)))))

theorem setMember_wf {m f} {s : State} (h : BasinWf s) : BasinWf (setMember m f s) := h.update

theorem planMovesL_wf {s : State} (h : BasinWf s) : BasinWf (planMovesL s) := by
  unfold planMovesL
  split
  · split
    · exact ite_wf (ite_wf (raise_wf (setJobs_wf (setL_wf h))) (setL_wf h)) h
    · exact h
  · exact h

theorem stagePlan_wf {sender seq entries} {s : State} (h : BasinWf s) : BasinWf (stagePlan sender seq entries s) :=
  ite_wf h (machineResume_wf (report_wf (planMovesL_wf h.update)))

theorem planResend_wf {s : State} (h : BasinWf s) : BasinWf (planResend s) := ite_wf (sendPlan_wf h) h

theorem stageReport_wf {sender ack state cause flags mode layer} {s : State} (h : BasinWf s) :
    BasinWf (stageReport sender ack state cause flags mode layer s) :=
  ite_wf h (machineResume_wf (ite_wf (postpone_wf (planStage_wf (ite_wf (settleHold_wf ((ite_wf ((setMember_wf h).update)
      (setMember_wf h)).update)) (ite_wf ((setMember_wf h).update) (setMember_wf h))))) (ite_wf (settleHold_wf ((ite_wf
      ((setMember_wf h).update) (setMember_wf h)).update)) (ite_wf ((setMember_wf h).update) (setMember_wf h)))))

/-! ### Machine/AxisCmds -/

theorem checkScript_wf {s : State} (h : BasinWf s) : BasinWf (checkScript s) := ite_wf (scriptDefect_wf h) h

theorem startAxisMove_wf {r a relative refPtp target l launch} {s : State} (h : BasinWf s) :
    BasinWf (startAxisMove r a relative refPtp target l launch s) := by
  unfold startAxisMove
  refine ite_wf (endWith_wf h) ?_
  refine ite_wf (finishIn_wf h) ?_
  refine ite_wf (finishIn_wf h) ?_
  split
  · exact finishIn_wf h
  · exact ite_wf (finishIn_wf h) (ite_wf (finishIn_wf h) (setAxis_wf h))

theorem axisMoveStart_wf {a} {s : State} (h : BasinWf s) : BasinWf (axisMoveStart a s) := by
  unfold axisMoveStart
  dsimp only
  split
  · exact ite_wf (checkScript_wf (settleAxis_wf (beginMove_wf h))) h
  · exact h

theorem latchLimits_wf {a clear l} {s : State} (h : BasinWf s) : BasinWf (latchLimits a clear l s) := setAxis_wf h

theorem axisLimits_wf {a clear l} {s : State} (h : BasinWf s) : BasinWf (axisLimits a clear l s) := by
  unfold axisLimits
  dsimp only
  split
  · exact ite_wf (latchLimits_wf h) (setAxis_wf h)
  · refine ite_wf (latchLimits_wf h) ?_
    split
    · exact setAxis_wf h
    · exact latchLimits_wf (setAxis_wf h)

theorem applyAxisLimits_wf {mask clear l} {s : State} (h : BasinWf s) : BasinWf (applyAxisLimits mask clear l s) :=
  foldl_wf (fun _ _ h1 => axisLimits_wf h1) h _

theorem startAxisLimits_wf {r mask clear l} {s : State} (h : BasinWf s) : BasinWf (startAxisLimits r mask clear l s) :=
  endWith_wf (applyAxisLimits_wf h)

theorem startAxisStop_wf {r mask emergency} {s : State} (h : BasinWf s) : BasinWf (startAxisStop r mask emergency s) :=
  checkScript_wf (settleAxisStops_wf (foldl_wf (fun _ _ h1 => settleAxis_wf (beginStop_wf (dropPending_wf (settleAxis_wf
      (driveDue_wf h1))))) h.update _))

theorem enableAxis_wf {a on} {s : State} (h : BasinWf s) : BasinWf (enableAxis a on s) := setAxis_wf (ite_wf h (dropPending_wf h))

theorem startAxisEnable_wf {r mask values} {s : State} (h : BasinWf s) : BasinWf (startAxisEnable r mask values s) :=
  ite_wf (endWith_wf h) (endWith_wf (checkScript_wf (foldl_wf (fun _ _ h1 => ite_wf h1 (enableAxis_wf h1)) h _)))

theorem startAxisSetPos_wf {r a pos} {s : State} (h : BasinWf s) : BasinWf (startAxisSetPos r a pos s) :=
  ite_wf (endWith_wf h) (ite_wf (endWith_wf h) (endWith_wf (takeOrg_wf (setAxis_wf h))))

theorem startAxisHome_wf {r a down source chan speed pos limit} {s : State} (h : BasinWf s) :
    BasinWf (startAxisHome r a down source chan speed pos limit s) :=
  ite_wf (endWith_wf h) (ite_wf (finishIn_wf h) (ite_wf (finishIn_wf h) (ite_wf (finishIn_wf h) (setAxis_wf (applyLatched_wf h)))))

theorem homeEdge_wf {trig chan} {s : State} (h : BasinWf s) : BasinWf (homeEdge trig chan s) := by
  unfold homeEdge
  dsimp only
  refine foldl_wf ?_ h _
  intro _ _ h1
  split
  · exact ite_wf h1 (ite_wf (settleAxis_wf (beginStop_wf (setAxis_wf h1))) (ite_wf (setAxis_wf h1) h1))
  · exact h1

theorem axisStep_wf {a} {s : State} (h : BasinWf s) : BasinWf (axisStep a s) :=
  checkScript_wf (settleAxis_wf (ite_wf (beginStop_wf (driveDue_wf h)) (driveDue_wf h)))

theorem followingFault_wf {a} {s : State} (h : BasinWf s) : BasinWf (followingFault a s) := ite_wf (checkScript_wf (axisFault_wf h)) h

theorem scriptEntryStart_wf {i} {s : State} (h : BasinWf s) : BasinWf (scriptEntryStart i s) := by
  unfold scriptEntryStart
  split
  · exact h
  · exact ite_wf h (ite_wf (scriptDefect_wf h) (axisMoveStart_wf (setAxis_wf h.update)))

/-! ### Machine/Basin -/

theorem setRt_wf {p f} {s : State} (h : BasinWf s) : BasinWf (setRt p f s) := h.updateBasin

theorem rtAccess_wf {p a} {s : State} (h : BasinWf s) : BasinWf (rtAccess p a s) :=
  ite_wf (setRt_wf (touchBasin_wf h)) (ite_wf (raise_wf (setRt_wf (touchBasin_wf h))) (setRt_wf (touchBasin_wf h)))

theorem refreshStall_wf {c} : ∀ {n} {s : State}, BasinWf s → BasinWf (refreshStall c n s)
  | 0, _, h => h
  | _ + 1, _, h => by
    unfold refreshStall
    exact refreshStall_wf h.updateBasin.update

theorem issuePostponed_wf {s : State} (h : BasinWf s) : BasinWf (issuePostponed s) :=
  (foldl_wf (fun _ _ h1 => refreshStall_wf h1) h _).updateBasin

theorem panicChange_wf {p enter} {s : State} (h : BasinWf s) : BasinWf (panicChange p enter s) :=
  ite_wf h (ite_wf (setRt_wf (ite_wf h.update h)) (ite_wf (setRt_wf (recExtreme_wf h)) (issuePostponed_wf (setRt_wf (recExtreme_wf h)))))

theorem panicLong_wf {p} {s : State} (h : BasinWf s) : BasinWf (panicLong p s) := ite_wf (raise_wf ((setRt_wf h).updateBasin)) h

theorem refreshDue_wf {c hot} {s : State} (h : BasinWf s) : BasinWf (refreshDue c hot s) :=
  ite_wf (ite_wf h.updateBasin.updateBasin (ite_wf (raise_wf ((refreshStall_wf h.updateBasin).updateBasin))
      ((refreshStall_wf h.updateBasin).updateBasin))) ((refreshStall_wf h.updateBasin).updateBasin)

theorem selfRefreshEntry_wf {aborted} {s : State} (h : BasinWf s) : BasinWf (selfRefreshEntry aborted s) :=
  ite_wf h (ite_wf h.updateBasin h.updateBasin)

theorem startBasinCopy_wf {r chan src dst len} {s : State} (h : BasinWf s) : BasinWf (startBasinCopy r chan src dst len s) := by
  unfold startBasinCopy
  refine ite_wf (endWith_wf h) ?_
  split
  · exact finishIn_wf (memWrite_wf h)
  · exact finishIn_wf (eccUe_wf (memWrite_wf h))

theorem startBasinFill_wf {r chan pattern dst len} {s : State} (h : BasinWf s) : BasinWf (startBasinFill r chan pattern dst len s) :=
  ite_wf (endWith_wf h) (finishIn_wf (memWrite_wf h))

theorem startBasinRetain_wf {r mask} {s : State} (h : BasinWf s) : BasinWf (startBasinRetain r mask s) :=
  ite_wf (endWith_wf h) (endWith_wf h.updateBasin)

/-! ### Machine/CalCmds -/

theorem startCalRequest_wf {r kind immediate mask} {s : State} (h : BasinWf s) : BasinWf (startCalRequest r kind immediate mask s) :=
  ite_wf (endWith_wf h) (ite_wf (endWith_wf h) (ite_wf (endWith_wf (foldl_wf (fun _ _ h1 => ite_wf (askGrid_wf h1) (ite_wf h1 (ite_wf
      (ite_wf h1 (beginRun_wf h1)) (calWait_wf h1)))) h _)) (ite_wf (calPump_wf (setHk_wf (foldl_wf (fun _ _ h1 => ite_wf
      (askGrid_wf h1) (ite_wf h1 (ite_wf (ite_wf h1 (beginRun_wf h1)) (calWait_wf h1)))) h _))) (calPump_wf (endWith_wf (foldl_wf
      (fun _ _ h1 => ite_wf (askGrid_wf h1) (ite_wf h1 (ite_wf (ite_wf h1 (beginRun_wf h1)) (calWait_wf h1)))) h _))))))

theorem startCalCancel_wf {r kind mask} {s : State} (h : BasinWf s) : BasinWf (startCalCancel r kind mask s) :=
  ite_wf (endWith_wf h) (endWith_wf (foldl_wf (fun _ _ h1 => endWith_wf h1) (setHk_wf (foldl_wf (fun _ _ h1 => dropWait_wf h1) h _)) _))

theorem startHkThrottleFloor_wf {r level} {s : State} (h : BasinWf s) : BasinWf (startHkThrottleFloor r level s) :=
  ite_wf (endWith_wf h) (endWith_wf (keepFloor_wf (setHk_wf h)))

theorem calRunDone_wf {kind results pairs} {s : State} (h : BasinWf s) : BasinWf (calRunDone kind results pairs s) :=
  ite_wf h (endRun_wf (ite_wf (rosCheck_wf h) h))

theorem calOverdue_wf {kind u} {s : State} (h : BasinWf s) : BasinWf (calOverdue kind u s) := by
  unfold calOverdue
  split
  · exact h
  · exact ite_wf h (raise_wf (setHk_wf h))

theorem darkTimeout_wf {l} {s : State} (h : BasinWf s) : BasinWf (darkTimeout l s) := by
  unfold darkTimeout
  split
  · exact h
  · exact ite_wf (setLaneCal_wf h) h

/-! ### Machine/Zip -/

theorem setZip_wf {c f} {s : State} (h : BasinWf s) : BasinWf (setZip c f s) := h.update
theorem setZipJob_wf {c f} {s : State} (h : BasinWf s) : BasinWf (setZipJob c f s) := setZip_wf h

theorem engineTake_wf {e} {s : State} (h : BasinWf s) : BasinWf (engineTake e s) := by
  unfold engineTake
  split
  · exact ite_wf h ((setZipJob_wf h).update)
  · exact h

theorem zipDispatch_wf {s : State} (h : BasinWf s) : BasinWf (zipDispatch s) := foldl_wf (fun _ _ h1 => engineTake_wf h1) h _

theorem writeUsed_wf {j} {s : State} (h : BasinWf s) : BasinWf (writeUsed j s) := by
  unfold writeUsed
  split
  · exact foldl_wf (fun _ _ h1 => memWrite_wf h1) h _
  · exact h

theorem frameCoded_wf {port frame st bytes} {s : State} (h : BasinWf s) : BasinWf (frameCoded port frame st bytes s) := h.update
theorem engineLeave_wf {c} {s : State} (h : BasinWf s) : BasinWf (engineLeave c s) := h.update

theorem zipEnd_wf {c j st detail data} {s : State} (h : BasinWf s) : BasinWf (zipEnd c j st detail data s) :=
  ite_wf (frameCoded_wf (engineLeave_wf (ite_wf (setZipJob_wf (setZip_wf (writeUsed_wf h))) (setZip_wf (setZip_wf (writeUsed_wf h))))))
      (ite_wf ((engineLeave_wf (ite_wf (setZipJob_wf (setZip_wf (writeUsed_wf h))) (setZip_wf (setZip_wf (writeUsed_wf h))))).update)
      (foldl_wf (fun _ _ h1 => finishIn_wf h1) (engineLeave_wf (ite_wf (setZipJob_wf (setZip_wf (writeUsed_wf h))) (setZip_wf (setZip_wf
      (writeUsed_wf h))))) _))

theorem zipWhole_wf {c j} {s : State} (h : BasinWf s) : BasinWf (zipWhole c j s) := ite_wf (zipEnd_wf h) (zipEnd_wf h)
theorem zipEcc_wf {c j a} {s : State} (h : BasinWf s) : BasinWf (zipEcc c j a s) := zipEnd_wf (eccUe_wf h)

theorem flushEmpty_wf {c} {s : State} (h : BasinWf s) : BasinWf (flushEmpty c s) := by
  unfold flushEmpty
  split
  · exact h
  · exact ite_wf (foldl_wf (fun _ _ h1 => finishIn_wf h1) (setZipJob_wf h) _) h

theorem feedTaken_wf {c f j} {s : State} (h : BasinWf s) : BasinWf (feedTaken c f j s) :=
  ite_wf (flushEmpty_wf (setZipJob_wf h)) (ite_wf (ite_wf (zipEnd_wf h) (setZipJob_wf h)) (flushEmpty_wf (setZipJob_wf (finishIn_wf h))))

theorem zipFill_wf : ∀ {n c} {s : State}, BasinWf s → BasinWf (zipFill n c s)
  | 0, _, _, h => h
  | n + 1, c, s, h => by
    unfold zipFill
    split
    · exact h
    · split
      · exact h
      · refine ite_wf h ?_
        split
        · exact zipEcc_wf h
        · exact ite_wf (zipFill_wf (feedTaken_wf (setZipJob_wf h))) (setZipJob_wf h)

theorem zipGo_wf {c} {s : State} (h : BasinWf s) : BasinWf (zipGo c s) := zipDispatch_wf (zipFill_wf h)
theorem countBlock_wf {c i o stored} {s : State} (h : BasinWf s) : BasinWf (countBlock c i o stored s) := setZip_wf h

theorem encodeDone_wf {c j w} {s : State} (h : BasinWf s) : BasinWf (encodeDone c j w s) := by
  unfold encodeDone
  dsimp only
  split
  · exact zipEcc_wf h
  · split
    · exact zipEnd_wf h
    · exact ite_wf (zipWhole_wf (foldl_wf (fun _ _ h1 => finishIn_wf h1) (setZipJob_wf (countBlock_wf (memWrite_wf h))) _)) (foldl_wf
          (fun _ _ h1 => finishIn_wf h1) (setZipJob_wf (countBlock_wf (memWrite_wf h))) _)

theorem decodeDone_wf {c j} {s : State} (h : BasinWf s) : BasinWf (decodeDone c j s) := by
  unfold decodeDone
  dsimp only
  split
  · split
    · exact zipEcc_wf h
    · split
      · exact zipEnd_wf h
      · exact ite_wf (zipEnd_wf h) (ite_wf (zipEnd_wf h) (ite_wf (zipEnd_wf (setZipJob_wf (countBlock_wf (memWrite_wf h))))
            (setZipJob_wf (countBlock_wf (memWrite_wf h)))))
  · exact h

theorem zipBlockDone_wf {e} {s : State} (h : BasinWf s) : BasinWf (zipBlockDone e s) := by
  unfold zipBlockDone
  dsimp only
  split
  · exact h
  · refine ite_wf h ?_
    split
    · exact zipDispatch_wf h.update
    · split
      · exact zipDispatch_wf h.update
      · exact zipGo_wf (ite_wf (decodeDone_wf h.update) (encodeDone_wf h.update))

theorem zipPost_wf {c j} {s : State} (h : BasinWf s) : BasinWf (zipPost c j s) := zipGo_wf (setZip_wf h)

theorem zipAbort_wf {c} {s : State} (h : BasinWf s) : BasinWf (zipAbort c s) := by
  unfold zipAbort
  split
  · exact h
  · exact zipEnd_wf h

theorem zipAbortHost_wf {s : State} (h : BasinWf s) : BasinWf (zipAbortHost s) := by
  unfold zipAbortHost
  refine zipDispatch_wf ?_
  refine foldl_wf ?_ h _
  intro _ _ h1
  split
  · exact ite_wf (setZip_wf (zipAbort_wf h1)) h1
  · exact h1

theorem zipStart_wf {r c opened form src keep chained a n} {s : State} (h : BasinWf s) :
    BasinWf (zipStart r c opened form src keep chained a n s) := by
  unfold zipStart
  split
  · refine finishIn_wf ?_
    refine ite_wf ?_ h
    split
    · exact eccUe_wf h
    · exact h
  · exact ite_wf (finishIn_wf (zipPost_wf h)) (zipPost_wf h)

theorem startZipEncode_wf {r channel kind format flags width addr len out size} {s : State} (h : BasinWf s) :
    BasinWf (startZipEncode r channel kind format flags width addr len out size s) := by
  unfold startZipEncode
  refine ite_wf (finishIn_wf h) ?_
  split
  · exact finishIn_wf h
  · exact ite_wf (finishIn_wf h) (zipStart_wf h)

theorem startZipOpen_wf {r channel kind format flags width out size} {s : State} (h : BasinWf s) :
    BasinWf (startZipOpen r channel kind format flags width out size s) := by
  unfold startZipOpen
  refine ite_wf (finishIn_wf h) ?_
  split
  · exact finishIn_wf h
  · exact ite_wf (finishIn_wf h) (zipStart_wf h)

theorem zipQueue_wf {c f} {s : State} (h : BasinWf s) : BasinWf (zipQueue c f s) := by
  unfold zipQueue
  split
  · exact finishIn_wf h
  · refine ite_wf (finishIn_wf h) ?_
    split
    · exact zipDispatch_wf (finishIn_wf (setZip_wf h))
    · exact ite_wf (setZipJob_wf h) (ite_wf (finishIn_wf h) (zipGo_wf (setZipJob_wf h)))

theorem startZipFeed_wf {r channel flags addr len} {s : State} (h : BasinWf s) : BasinWf (startZipFeed r channel flags addr len s) :=
  ite_wf (finishIn_wf h) (zipQueue_wf h)

theorem startZipFlush_wf {r channel} {s : State} (h : BasinWf s) : BasinWf (startZipFlush r channel s) :=
  ite_wf (endWith_wf h) (zipQueue_wf h)

theorem startZipDecode_wf {r channel flags addr len out limit} {s : State} (h : BasinWf s) :
    BasinWf (startZipDecode r channel flags addr len out limit s) := by
  unfold startZipDecode
  refine ite_wf (finishIn_wf h) ?_
  split
  · exact finishIn_wf h
  · exact zipPost_wf h

/-! ### Machine/CamCmds -/

theorem setFrame_wf {p f} {s : State} (h : BasinWf s) : BasinWf (setFrame p f s) := setCam_wf h
theorem judged_wf {p tF bad} {s : State} (h : BasinWf s) : BasinWf (judged p tF bad s) := ite_wf h.update h
theorem afterJudging_wf {s : State} (h : BasinWf s) : BasinWf (afterJudging s) := ite_wf (stageEnd_wf h) h

theorem dropWaits_wf {p} {s : State} (h : BasinWf s) : BasinWf (dropWaits p s) :=
  afterJudging_wf (foldl_wf (fun _ _ h1 => judged_wf h1) (setCam_wf h) _)

theorem postCoding_wf {p f} {s : State} (h : BasinWf s) : BasinWf (postCoding p f s) := by
  unfold postCoding
  split
  · exact zipPost_wf (setFrame_wf h)
  · exact h

theorem rawGrown_wf {p num n} {s : State} (h : BasinWf s) : BasinWf (rawGrown p num n s) := by
  unfold rawGrown
  split
  · exact zipGo_wf (setZip_wf h)
  · exact h

theorem storeRows_wf {p f y rows} {s : State} (h : BasinWf s) : BasinWf (storeRows p f y rows s) := by
  unfold storeRows
  split
  · exact ite_wf (rawGrown_wf (memWrite_wf h)) h
  · exact h

theorem toMere_wf {cells} {s : State} (h : BasinWf s) : BasinWf (toMere cells s) := h.update

theorem endFrame_wf {p byReset} {s : State} (h : BasinWf s) : BasinWf (endFrame p byReset s) := by
  unfold endFrame
  split
  · exact h
  · next f _ =>
    extract_lets w hgt n fill u v g f' im x y bad first stops z b
    have hv : BasinWf v := storeRows_wf (ite_wf (postCoding_wf h) h)
    have hx : BasinWf x := by
      unfold x
      cases f'.slot with
      | none => exact hv
      | some a =>
        exact ite_wf (memWrite_wf (ite_wf hv (memWrite_wf hv))) (ite_wf hv (memWrite_wf hv))
    have hz : BasinWf z := setCam_wf (ite_wf (toMere_wf hx) hx)
    exact takeCapacity_wf (foldl_wf (fun _ _ => finishIn_wf) (ite_wf (raise_wf hz) hz) _)

theorem answeredTrig_wf {p} {s : State} (h : BasinWf s) : BasinWf (answeredTrig p s).2 := by
  unfold answeredTrig
  split
  · exact setCam_wf h
  · exact ite_wf (takeSet_wf h) h

theorem cameraFs_wf {p vc} {s : State} (h : BasinWf s) : BasinWf (cameraFs p vc s) := by
  unfold cameraFs
  dsimp only
  refine ite_wf h ?_
  refine ite_wf (setCam_wf h) ?_
  refine ite_wf (afterJudging_wf (judged_wf (raise_wf (setCam_wf (setCam_wf (answeredTrig_wf (endFrame_wf h))))))) ?_
  split
  · exact memWrite_wf (rtAccess_wf (setCam_wf (setCam_wf (answeredTrig_wf (endFrame_wf h)))))
  · exact setCam_wf (setCam_wf (answeredTrig_wf (endFrame_wf h)))

theorem takeLine_wf {p dt crcBad pixels} {s : State} (h : BasinWf s) : BasinWf (takeLine p dt crcBad pixels s) := by
  unfold takeLine
  split
  · exact h
  · exact ite_wf (setFrame_wf (setCam_wf (ite_wf (setFrame_wf (setCam_wf h)) h))) (storeRows_wf (setFrame_wf (ite_wf (ite_wf (setCam_wf
        (ite_wf (setFrame_wf (setCam_wf h)) h)) (ite_wf (setFrame_wf (setCam_wf h)) h)) (postCoding_wf (ite_wf (setCam_wf (ite_wf
        (setFrame_wf (setCam_wf h)) h)) (ite_wf (setFrame_wf (setCam_wf h)) h))))))

theorem cameraLine_wf {p vc dt hdr crcBad lost pixels} {s : State} (h : BasinWf s) :
    BasinWf (cameraLine p vc dt hdr crcBad lost pixels s) :=
  ite_wf h (ite_wf (setCam_wf h) (ite_wf (setCam_wf h) (ite_wf (setFrame_wf h) (takeLine_wf h))))

theorem cameraFe_wf {p vc} {s : State} (h : BasinWf s) : BasinWf (cameraFe p vc s) := ite_wf (ite_wf (setCam_wf h) h) (endFrame_wf h)

theorem lineTimeout_wf {p} {s : State} (h : BasinWf s) : BasinWf (lineTimeout p s) := by
  unfold lineTimeout
  split
  · exact ite_wf (endFrame_wf h) h
  · exact h

theorem camNoFrame_wf {p} {s : State} (h : BasinWf s) : BasinWf (camNoFrame p s) := by
  unfold camNoFrame
  split
  · exact h
  · exact ite_wf h (afterJudging_wf (judged_wf (raise_wf (setCam_wf h))))

theorem setClosing_wf {p num f} {s : State} (h : BasinWf s) : BasinWf (setClosing p num f s) := setCam_wf h

theorem statsComplete_wf {p} {s : State} (h : BasinWf s) : BasinWf (statsComplete p s) := by
  unfold statsComplete
  split
  · exact h
  · refine afterJudging_wf ?_
    refine judged_wf ?_
    refine setClosing_wf ?_
    split
    · exact memWrite_wf h
    · exact h

theorem framePublish_wf {p} {s : State} (h : BasinWf s) : BasinWf (framePublish p s) := by
  unfold framePublish
  split
  · exact h
  · refine ite_wf h ?_
    refine setCam_wf ?_
    split
    · exact memWrite_wf (memWrite_wf h)
    · exact h

theorem cciDone_wf {p ok entry value} {s : State} (h : BasinWf s) : BasinWf (cciDone p ok entry value s) := by
  unfold cciDone
  split
  · exact h
  · exact ite_wf (finishIn_wf (setCam_wf h)) (finishIn_wf (setCam_wf h))
  · exact ite_wf (raise_wf (setCam_wf h)) (ite_wf h (setCam_wf h))

theorem camBlockReset_wf {p} {s : State} (h : BasinWf s) : BasinWf (camBlockReset p s) :=
  dropWaits_wf (setCam_wf (endFrame_wf (setFrame_wf h)))

theorem startCamStream_wf {r port run} {s : State} (h : BasinWf s) : BasinWf (startCamStream r port run s) := by
  unfold startCamStream
  exact ite_wf (endWith_wf (camSettle_wf h)) (ite_wf (ite_wf (finishIn_wf (camSettle_wf h)) (finishIn_wf (setCam_wf (camSettle_wf h))))
      (ite_wf (dropWaits_wf (setCam_wf (camSettle_wf h))) (finishIn_wf (dropWaits_wf (setCam_wf (camSettle_wf h))))))

theorem startCamExpWrite_wf {r port len start mode count addr} {s : State} (h : BasinWf s) :
    BasinWf (startCamExpWrite r port len start mode count addr s) := by
  unfold startCamExpWrite
  refine ite_wf (endWith_wf (camSettle_wf h)) ?_
  split
  · exact finishIn_wf (eccUe_wf (camSettle_wf h))
  · exact ite_wf (finishIn_wf (camSettle_wf h)) (finishIn_wf (setCam_wf (camSettle_wf h)))

theorem applyCamCommit_wf {r port t} {s : State} (h : BasinWf s) : BasinWf (applyCamCommit r port t s) :=
  ite_wf (commitSet_wf h) (setCam_wf h)

theorem startCamExpCommit_wf {r port launch} {s : State} (h : BasinWf s) : BasinWf (startCamExpCommit r port launch s) := by
  unfold startCamExpCommit
  refine ite_wf (endWith_wf (camSettle_wf h)) ?_
  refine ite_wf (finishIn_wf (camSettle_wf h)) ?_
  split
  · exact finishIn_wf (camSettle_wf h)
  · exact applyCamCommit_wf (camSettle_wf h)

theorem applyCamTrigger_wf {r mask t} {s : State} (h : BasinWf s) : BasinWf (applyCamTrigger r mask t s) :=
  ite_wf (hostTrigger_wf h) (setIsp_wf h)

theorem startCamTrigger_wf {r mask launch} {s : State} (h : BasinWf s) : BasinWf (startCamTrigger r mask launch s) := by
  unfold startCamTrigger
  refine ite_wf (endWith_wf (camSettle_wf h)) ?_
  split
  · exact endWith_wf (camSettle_wf h)
  · exact applyCamTrigger_wf (camSettle_wf h)

theorem startCamCci_wf {r port write wide reg value} {s : State} (h : BasinWf s) :
    BasinWf (startCamCci r port write wide reg value s) := by
  unfold startCamCci
  exact ite_wf (endWith_wf (camSettle_wf h)) (setCam_wf (camSettle_wf h))

theorem startCamRing_wf {r port base size slots} {s : State} (h : BasinWf s) : BasinWf (startCamRing r port base size slots s) := by
  unfold startCamRing
  exact ite_wf (endWith_wf (camSettle_wf h)) (ite_wf (finishIn_wf (camSettle_wf h)) (ite_wf (finishIn_wf (camSettle_wf h)) (finishIn_wf
      (setCam_wf (camSettle_wf h)))))

/-! ### Machine/Compose -/

theorem setScene_wf {k f} {s : State} (h : BasinWf s) : BasinWf (setScene k f s) := h.update

theorem takeChanges_wf {k static} {s : State} (h : BasinWf s) : BasinWf (takeChanges k static s).2 := by
  unfold takeChanges
  split
  · exact h
  · exact setScene_wf h

theorem composeBegin_wf {k ref} {s : State} (h : BasinWf s) : BasinWf (composeBegin k ref s) := by
  unfold composeBegin
  dsimp only
  split
  · exact takeChanges_wf h
  · exact foldl_wf (fun _ _ h1 => finishIn_wf h1) (setScene_wf (memWrite_wf (takeChanges_wf h))) _

theorem composeStart_wf {k} {s : State} (h : BasinWf s) : BasinWf (composeStart k s) := by
  unfold composeStart
  dsimp only
  split
  · exact h
  · exact ite_wf h (ite_wf (ite_wf (raise_wf (setScene_wf h)) (setScene_wf h)) (composeBegin_wf h))

theorem runDue_wf {k} {s : State} (h : BasinWf s) : BasinWf (runDue k s) := by
  unfold runDue
  split
  · exact h
  · exact ite_wf h (composeBegin_wf (setScene_wf h))

theorem composeTick_wf {k} {s : State} (h : BasinWf s) : BasinWf (composeTick k s) := by
  unfold composeTick
  split
  · exact h
  · exact ite_wf (runDue_wf h) (ite_wf (composeStart_wf h) h)

theorem loadScene_wf {k r ref} {s : State} (h : BasinWf s) : BasinWf (loadScene k r ref s) :=
  finishIn_wf (setScene_wf (foldl_wf (fun _ _ h1 => finishIn_wf h1) (foldl_wf (fun _ _ h1 => finishIn_wf h1) h _) _))

theorem afterRun_wf {k} {s : State} (h : BasinWf s) : BasinWf (afterRun k s) :=
  foldl_wf (fun _ _ h1 => loadScene_wf h1) (foldl_wf (fun _ _ h1 => finishIn_wf h1) (setScene_wf h) _) _

theorem composeDone_wf {k} {s : State} (h : BasinWf s) : BasinWf (composeDone k s) := by
  unfold composeDone
  split
  · exact h
  · split
    · exact h
    · extract_lets bad v ls a rows torn w x y first z b c
      have hv : BasinWf v := by
        unfold v
        cases bad with
        | none => exact h
        | some a => exact eccUe_wf h
      have hz : BasinWf z := setScene_wf (memWrite_wf (memWrite_wf (foldl_wf (fun _ _ => memWrite_wf) hv _)))
      have hb : BasinWf b := ite_wf (raise_wf hz) hz
      refine runDue_wf (afterRun_wf ?_)
      unfold c
      split
      · exact finishIn_wf hb
      · exact hb

theorem cacheRebuild_wf {k} {s : State} (h : BasinWf s) : BasinWf (cacheRebuild k s) := by
  unfold cacheRebuild
  dsimp only
  refine ite_wf h ?_
  split
  · exact takeChanges_wf h
  · exact setScene_wf (takeChanges_wf h)

theorem startComposeScene_wf {r scene addr} {s : State} (h : BasinWf s) : BasinWf (startComposeScene r scene addr s) := by
  unfold startComposeScene
  refine ite_wf (endWith_wf h) ?_
  split
  · exact finishIn_wf (eccUe_wf h)
  · exact ite_wf (finishIn_wf h) (ite_wf (finishIn_wf h) (ite_wf (setScene_wf h) (loadScene_wf h)))

theorem startComposeRun_wf {r scene launch} {s : State} (h : BasinWf s) : BasinWf (startComposeRun r scene launch s) := by
  unfold startComposeRun
  split
  · exact ite_wf (finishIn_wf h) (setScene_wf h)
  · exact ite_wf (endWith_wf h) (finishIn_wf h)

theorem startComposeStop_wf {r scene} {s : State} (h : BasinWf s) : BasinWf (startComposeStop r scene s) :=
  ite_wf (endWith_wf h) (ite_wf (finishIn_wf h) (ite_wf (setScene_wf (setScene_wf (foldl_wf (fun _ _ h1 => finishIn_wf h1) h _)))
      (finishIn_wf (setScene_wf (foldl_wf (fun _ _ h1 => finishIn_wf h1) h _)))))

theorem applyComposeLayer_wf {r scene layer visible alpha dstX dstY addr} {s : State} (h : BasinWf s) :
    BasinWf (applyComposeLayer r scene layer visible alpha dstX dstY addr s) :=
  setScene_wf h

theorem startComposeLayer_wf {r scene layer visible alpha dstX dstY addr} {s : State} (h : BasinWf s) :
    BasinWf (startComposeLayer r scene layer visible alpha dstX dstY addr s) :=
  ite_wf (finishIn_wf h) (applyComposeLayer_wf h)

/-! ### Machine/Issue -/

theorem countEmpty_wf {l hi} {s : State} (h : BasinWf s) : BasinWf (countEmpty l hi s) := by
  unfold countEmpty
  dsimp only
  split
  · exact h
  · exact ite_wf h (setLane_wf h)

theorem takeEdge_wf {l rs t} {s : State} (h : BasinWf s) : BasinWf (takeEdge l rs t s) := by
  unfold takeEdge
  dsimp only
  split
  · exact setLane_wf h
  · split
    · exact setLane_wf h
    · exact h

theorem latchApplies_wf {l i} {s : State} (h : BasinWf s) : BasinWf (latchApplies l i s) := laneEvent_wf (setLane_wf h)

theorem markFirst_wf {l t} {s : State} (h : BasinWf s) : BasinWf (markFirst l t s) := by
  unfold markFirst
  dsimp only
  split
  · exact ite_wf (latchApplies_wf (setLane_wf h)) (setLane_wf h)
  · exact setLane_wf h

theorem sendPoint_wf {l p} {s : State} (h : BasinWf s) : BasinWf (sendPoint l p s) := setLane_wf h

theorem centrePoint_wf {l lo hi} {s : State} (h : BasinWf s) : BasinWf (centrePoint l lo hi s).2 := by
  unfold centrePoint
  dsimp only
  split
  · exact h
  · refine ite_snd_wf h ?_
    split
    · exact setLane_wf (startBlend_wf (needGrid_wf h))
    · exact sendPoint_wf (setLane_wf (startBlend_wf (needGrid_wf h)))

theorem resultStall_wf {l hi} {s : State} (h : BasinWf s) : BasinWf (resultStall l hi s) := by
  unfold resultStall
  refine ite_wf h ?_
  split
  · exact h
  · exact laneEvent_wf (setLane_wf h)

theorem overdue_wf {l hi} {s : State} (h : BasinWf s) : BasinWf (overdue l hi s) := by
  unfold overdue
  refine ite_wf h ?_
  split
  · exact h
  · exact ite_wf h (holdRecord_wf (setProx_wf (laneEvent_wf (setLane_wf h))))

theorem markTooLate_wf {l hi} {s : State} (h : BasinWf s) : BasinWf (markTooLate l hi s) := by
  unfold markTooLate
  dsimp only
  split
  · split
    · exact h
    · exact ite_wf h (setLane_wf (cutMark_wf h))
  · exact h

theorem issueAt_wf {l ps rs t edge} {s : State} (h : BasinWf s) : BasinWf (issueAt l ps rs t edge s).2 := by
  unfold issueAt
  dsimp only
  split
  · exact laneFault_wf (startBlend_wf (needGrid_wf h))
  · exact sendPoint_wf (markFirst_wf (setLane_wf (ite_wf (takeEdge_wf (setLaneCal_wf (startBlend_wf (needGrid_wf h)))) (setLaneCal_wf
        (startBlend_wf (needGrid_wf h))))))

theorem stepGrid_wf {l g hi} {s : State} (h : BasinWf s) : BasinWf (stepGrid l g hi s) := by
  unfold stepGrid
  split
  · exact ite_wf (setLane_wf h) h
  · exact h

theorem powerCycle_wf {l lo hi} {s : State} (h : BasinWf s) : BasinWf (powerCycle l lo hi s).2 := by
  unfold powerCycle
  dsimp only
  split
  · exact h
  · exact abandonRun_wf h
  · exact ite_wf (stepGrid_wf (issueAt_wf h)) (abandonRun_wf (issueAt_wf h))

theorem laneCycle_wf {l start} {s : State} (h : BasinWf s) : BasinWf (laneCycle l start s).2 := by
  have hv := settleLane_wf (l := l) h
  unfold laneCycle
  refine ite_snd_wf hv (ite_snd_wf (ite_snd_wf (powerCycle_wf hv) (centrePoint_wf hv)) ?_)
  extract_lets u ln ps rs
  have hu : BasinWf u := countEmpty_wf (resultStall_wf (overdue_wf (markTooLate_wf hv)))
  clear_value u
  split
  · exact hu
  · exact laneFault_wf hu
  · exact ite_wf (stepGrid_wf (issueAt_wf hu)) (issueAt_wf hu)

/-! ### Machine/MereField -/

theorem setMere_wf {f} {s : State} (h : BasinWf s) : BasinWf (setMere f s) := h.update

/-! ### Machine/Loop -/

theorem setRec_wf {l idx f} {s : State} (h : BasinWf s) : BasinWf (setRec l idx f s) := setLane_wf h
theorem setMelt_wf {l idx f} {s : State} (h : BasinWf s) : BasinWf (setMelt l idx f s) := setRec_wf h

theorem startLoopCurveLoad_wf {r curve addr} {s : State} (h : BasinWf s) : BasinWf (startLoopCurveLoad r curve addr s) := by
  unfold startLoopCurveLoad
  refine ite_wf (endWith_wf h) ?_
  split
  · exact endWith_wf h
  · split
    · exact endWith_wf h
    · exact ite_wf (endWith_wf h) (endWith_wf (bumpOverride_wf h.update))

theorem rawLose_wf {l n idxs} {s : State} (h : BasinWf s) : BasinWf (rawLose l n idxs s) :=
  ite_wf (foldl_wf (fun _ _ h1 => setMelt_wf h1) (setLane_wf h) _) (laneEvent_wf (setLoop_wf (foldl_wf (fun _ _ h1 => setMelt_wf h1)
      (setLane_wf h) _)))

theorem rawPut_wf {l t r pdA pdB} {s : State} (h : BasinWf s) : BasinWf (rawPut l t r pdA pdB s) := by
  unfold rawPut
  split
  · exact h
  · exact ite_wf (ite_wf (closeRaw_wf (rawLose_wf (setLoop_wf h))) (rawLose_wf (setLoop_wf h))) (ite_wf (closeRaw_wf (setMelt_wf
        (setLoop_wf h))) (setMelt_wf (setLoop_wf h)))

theorem rawOpen_wf {l full continued before} {s : State} (h : BasinWf s) : BasinWf (rawOpen l full continued before s) :=
  ite_wf (ite_wf (closeRaw_wf (foldl_wf (fun _ _ h1 => setMelt_wf h1) (setLoop_wf h) _)) (foldl_wf (fun _ _ h1 => setMelt_wf h1)
      (setLoop_wf h) _)) (ite_wf (setLoop_wf h) (rawLose_wf (setLoop_wf h)))

theorem rawSampleIn_wf {l t r pdA pdB onset sameRun} {s : State} (h : BasinWf s) : BasinWf (rawSampleIn l t r pdA pdB onset sameRun s) :=
  ite_wf (rawPut_wf h) (ite_wf (rawPut_wf (ite_wf h (rawOpen_wf h))) (ite_wf (rawPut_wf (rawOpen_wf (ite_wf (closeRaw_wf h) h))) (ite_wf
      (closeRaw_wf h) h)))

theorem ringPut_wf {l t r pdA pdB} {s : State} (h : BasinWf s) : BasinWf (ringPut l t r pdA pdB s) := setLoop_wf h

theorem ffRead_wf {l} {s : State} (h : BasinWf s) : BasinWf (ffRead l s) := by
  unfold ffRead
  dsimp only
  split
  · exact h
  · exact ite_wf h (ite_wf (raise_wf (setLoop_wf h)) (setLoop_wf h))

theorem sendReport_wf {l t} {s : State} (h : BasinWf s) : BasinWf (sendReport l t s) := setLoop_wf h

theorem addEnergy_wf {l t e applied} {s : State} (h : BasinWf s) : BasinWf (addEnergy l t e applied s) :=
  ite_wf (sendReport_wf (setLoop_wf h)) (setLoop_wf h)

theorem depReport_wf {l} {s : State} (h : BasinWf s) : BasinWf (depReport l s) := by
  unfold depReport
  split
  · exact h
  · refine ite_wf (setLoop_wf h) ?_
    split
    · exact setMere_wf (setMere_wf (setLoop_wf h))
    · refine ite_wf (setMere_wf (setMere_wf (setLoop_wf h))) ?_
      split
      · exact setMere_wf (ite_wf (raise_wf (setMere_wf (setMere_wf (setLoop_wf h)))) (setMere_wf (setMere_wf (setLoop_wf h))))
      · exact setLoop_wf (ite_wf (raise_wf (setMere_wf (setMere_wf (setLoop_wf h)))) (setMere_wf (setMere_wf (setLoop_wf h))))

theorem enterRun_wf {l e} {s : State} (h : BasinWf s) : BasinWf (enterRun l e s) := ite_wf h (setLoop_wf (closeRaw_wf h))

theorem emitSample_wf {l t e r pdA pdB} {s : State} (h : BasinWf s) : BasinWf (emitSample l t e r pdA pdB s) :=
  ite_wf (ite_wf (closeRaw_wf (ringPut_wf (ite_wf (setLoop_wf (rawSampleIn_wf (setMelt_wf (ite_wf (setLane_wf (setLoop_wf
      (enterRun_wf h))) (setLoop_wf (enterRun_wf h)))))) (rawSampleIn_wf (setMelt_wf (ite_wf (setLane_wf (setLoop_wf (enterRun_wf h)))
      (setLoop_wf (enterRun_wf h)))))))) (ringPut_wf (ite_wf (setLoop_wf (rawSampleIn_wf (setMelt_wf (ite_wf (setLane_wf (setLoop_wf
      (enterRun_wf h))) (setLoop_wf (enterRun_wf h)))))) (rawSampleIn_wf (setMelt_wf (ite_wf (setLane_wf (setLoop_wf (enterRun_wf h)))
      (setLoop_wf (enterRun_wf h)))))))) (addEnergy_wf (ite_wf (closeRaw_wf (ringPut_wf (ite_wf (setLoop_wf (rawSampleIn_wf (setMelt_wf
      (ite_wf (setLane_wf (setLoop_wf (enterRun_wf h))) (setLoop_wf (enterRun_wf h)))))) (rawSampleIn_wf (setMelt_wf (ite_wf (setLane_wf
      (setLoop_wf (enterRun_wf h))) (setLoop_wf (enterRun_wf h)))))))) (ringPut_wf (ite_wf (setLoop_wf (rawSampleIn_wf (setMelt_wf
      (ite_wf (setLane_wf (setLoop_wf (enterRun_wf h))) (setLoop_wf (enterRun_wf h)))))) (rawSampleIn_wf (setMelt_wf (ite_wf (setLane_wf
      (setLoop_wf (enterRun_wf h))) (setLoop_wf (enterRun_wf h)))))))))

theorem idleSample_wf {l t pdA pdB} {s : State} (h : BasinWf s) : BasinWf (idleSample l t pdA pdB s) := setLoop_wf (closeRaw_wf h)
theorem endTail_wf {l t} {s : State} (h : BasinWf s) : BasinWf (endTail l t s) := ite_wf h (closeTail_wf h)

theorem missSlot_wf {l t} {s : State} (h : BasinWf s) : BasinWf (missSlot l t s) := by
  unfold missSlot
  refine ite_wf ?_ ?_
  · refine laneFault_wf ?_
    refine endTail_wf ?_
    split
    · split
      · exact ite_wf (setMelt_wf (setLoop_wf (closeRaw_wf (setLane_wf h)))) (addEnergy_wf (setMelt_wf (setLoop_wf (closeRaw_wf
            (setLane_wf h)))))
      · exact setLane_wf h
    · exact setLane_wf h
  · refine endTail_wf ?_
    split
    · split
      · exact ite_wf (setMelt_wf (setLoop_wf (closeRaw_wf (setLane_wf h)))) (addEnergy_wf (setMelt_wf (setLoop_wf (closeRaw_wf
            (setLane_wf h)))))
      · exact setLane_wf h
    · exact setLane_wf h

theorem setLaneNode_wf {l f} {s : State} (h : BasinWf s) : BasinWf (setLaneNode l f s) := setPort_wf h

theorem missUpTo_wf {l t} {s : State} (h : BasinWf s) : BasinWf (missUpTo l t s) := by
  unfold missUpTo
  split
  · exact h
  · exact ite_wf h (endTail_wf (setLane_wf (foldl_wf (fun _ _ h1 => missSlot_wf h1) (setLaneNode_wf h) _)))

theorem followSample_wf {l t mx my} {s : State} (h : BasinWf s) : BasinWf (followSample l t mx my s) := by
  unfold followSample
  dsimp only
  split
  · exact recExtreme_wf (setLane_wf h)
  · exact h

theorem fbStatus_wf {l status} {s : State} (h : BasinWf s) : BasinWf (fbStatus l status s) :=
  faultAll_wf (setLane_wf (ite_wf (setLaneNode_wf h) h))

theorem fbUnit_wf {port src cycle crc pdA pdB mx my status} {s : State} (h : BasinWf s) :
    BasinWf (fbUnit port src cycle crc pdA pdB mx my status s) := by
  unfold fbUnit
  dsimp only
  refine ite_wf h ?_
  split
  · exact setPort_wf h
  · refine ite_wf (setPort_wf h) ?_
    refine ite_wf (ite_wf (fbStatus_wf (missSlot_wf (setLaneNode_wf (settleLane_wf (missUpTo_wf (setPort_wf h)))))) (missSlot_wf
        (setLaneNode_wf (settleLane_wf (missUpTo_wf (setPort_wf h)))))) ?_
    refine fbStatus_wf ?_
    refine endTail_wf ?_
    refine followSample_wf ?_
    refine darkSample_wf ?_
    split
    · split
      · exact emitSample_wf (setLane_wf (setLoop_wf (settleLane_wf (missUpTo_wf (setPort_wf h)))))
      · exact idleSample_wf (setLane_wf (setLoop_wf (settleLane_wf (missUpTo_wf (setPort_wf h)))))
    · exact idleSample_wf (setLane_wf (setLoop_wf (settleLane_wf (missUpTo_wf (setPort_wf h)))))

/-! ### Machine/Cycle -/

theorem lateSlots_wf {l} {s : State} (h : BasinWf s) : BasinWf (lateSlots l s) := ite_wf h (missUpTo_wf h)

theorem slotsGo_wf {port start} : ∀ {n k} {s : State}, BasinWf s → BasinWf (slotsGo port start n k s).2
  | 0, _, _, h => h
  | n + 1, k, s, h => by
    unfold slotsGo
    refine slotsGo_wf (n := n) ?_
    split
    · exact h
    · dsimp only
      split
      · exact lateSlots_wf h
      · exact laneCycle_wf (lateSlots_wf h)

theorem splCycle_wf {port start} {s : State} (h : BasinWf s) : BasinWf (splCycle port start s) :=
  ite_wf h ((putCycle_wf (setPort_wf (slotsGo_wf h))).update)

/-! ### Machine/Edp -/

theorem setEdp_wf {f} {s : State} (h : BasinWf s) : BasinWf (setEdp f s) := h.update

theorem edpTrain_wf {maxLanes maxRate trains} {s : State} (h : BasinWf s) : BasinWf (edpTrain maxLanes maxRate trains s) := by
  unfold edpTrain
  split <;> exact raise_wf (setEdp_wf h)

theorem edpHpd_wf {kind maxLanes maxRate trains lost} {s : State} (h : BasinWf s) :
    BasinWf (edpHpd kind maxLanes maxRate trains lost s) := by
  unfold edpHpd
  split
  · exact ite_wf h (edpTrain_wf (setEdp_wf h))
  · exact ite_wf (edpTrain_wf (setEdp_wf h)) h
  · exact ite_wf (raise_wf (setEdp_wf h)) h

theorem takeBinding_wf {s : State} (h : BasinWf s) : BasinWf (takeBinding s) := by
  unfold takeBinding
  split
  · exact h
  · exact foldl_wf (fun _ _ h1 => endWith_wf h1) (setEdp_wf h) _

theorem takeSurface_wf {k} {s : State} (h : BasinWf s) : BasinWf (takeSurface k s) := by
  unfold takeSurface
  split
  · exact setEdp_wf h
  · refine ite_wf ?_ ?_
    · refine ite_wf ?_ ?_
      · refine raise_wf ?_
        refine setEdp_wf ?_
        split
        · exact rtAccess_wf h
        · exact h
      · refine setEdp_wf ?_
        split
        · exact rtAccess_wf h
        · exact h
    · refine setEdp_wf ?_
      split
      · exact rtAccess_wf h
      · exact h

theorem edpFrame_wf {s : State} (h : BasinWf s) : BasinWf (edpFrame s) := by
  unfold edpFrame
  dsimp only
  refine ite_wf h ?_
  split
  · exact takeBinding_wf (setEdp_wf h)
  · exact ite_wf (composeStart_wf (takeSurface_wf (takeBinding_wf (setEdp_wf h)))) (takeSurface_wf (takeBinding_wf (setEdp_wf h)))

theorem applyDisplaySet_wf {r scene} {s : State} (h : BasinWf s) : BasinWf (applyDisplaySet r scene s) := setEdp_wf h

theorem startDisplaySet_wf {r scene} {s : State} (h : BasinWf s) : BasinWf (startDisplaySet r scene s) :=
  ite_wf (endWith_wf h) (applyDisplaySet_wf h)

/-! ### Machine/Encoders -/

theorem setHall_wf {g f} {s : State} (h : BasinWf s) : BasinWf (setHall g f s) := h.update
theorem setCmp_wf {k f} {s : State} (h : BasinWf s) : BasinWf (setCmp k f s) := h.update
theorem setEcho_wf {k f} {s : State} (h : BasinWf s) : BasinWf (setEcho k f s) := h.update

theorem latchEnc_wf {e new} {s : State} (h : BasinWf s) : BasinWf (latchEnc e new s) :=
  ite_wf h (foldl_wf (fun _ _ h1 => ite_wf (checkScript_wf (axisFault_wf h1)) h1) (raise_wf (setEnc_wf h)) _)

theorem cmpHit_wf {k} {s : State} (h : BasinWf s) : BasinWf (cmpHit k s) :=
  camTrigs_wf (lineTrigger_wf (ite_wf (setCmp_wf (setCfgS64_wf h)) (setCmp_wf (ite_wf (setCmp_wf (setCfgS64_wf h)) ((setCmp_wf
      (setCfgS64_wf h)).update)))))

theorem countMoved_wf {e old} {s : State} (h : BasinWf s) : BasinWf (countMoved e old s) :=
  foldl_wf (fun _ _ h1 => ite_wf (trackFe_wf h1) h1) (foldl_wf (fun _ _ h1 => ite_wf (setEcho_wf h1) h1) (foldl_wf (fun _ _ h1 => ite_wf
      (foldl_wf (fun _ _ h2 => cmpHit_wf h2) h1 _) h1) h _) _) _

theorem countEdge_wf {e sense} {s : State} (h : BasinWf s) : BasinWf (countEdge e sense s) := by
  unfold countEdge
  exact countMoved_wf (ite_wf (latchEnc_wf (setEnc_wf h)) (setEnc_wf h))

theorem indexEdge_wf {e} {s : State} (h : BasinWf s) : BasinWf (indexEdge e s) := by
  unfold indexEdge
  refine checkScript_wf ?_
  refine homeEdge_wf ?_
  split
  · exact setEnc_wf h
  · split
    · exact setEnc_wf (setEnc_wf h)
    · exact ite_wf (setEnc_wf h) (latchEnc_wf (setEnc_wf (setEnc_wf h)))
  · exact ite_wf (setEnc_wf h) h
  · exact h

theorem encEdge_wf {e k} {s : State} (h : BasinWf s) : BasinWf (encEdge e k s) := by
  unfold encEdge
  refine ite_wf h ?_
  split
  · exact countEdge_wf h
  · exact countEdge_wf h
  · exact latchEnc_wf (setEnc_wf h)
  · exact indexEdge_wf h

theorem encWire_wf {e pair bad} {s : State} (h : BasinWf s) : BasinWf (encWire e pair bad s) :=
  ite_wf h (ite_wf (latchEnc_wf (setEnc_wf h)) (setEnc_wf h))

theorem encStall_wf {e} {s : State} (h : BasinWf s) : BasinWf (encStall e s) := ite_wf h (setEnc_wf h)
theorem hallStall_wf {g} {s : State} (h : BasinWf s) : BasinWf (hallStall g s) := ite_wf (setHall_wf h) h
theorem windowEnd_wf {e} {s : State} (h : BasinWf s) : BasinWf (windowEnd e s) := ite_wf (setEnc_wf h) h

theorem ssiRead_wf {e raw lineLow} {s : State} (h : BasinWf s) : BasinWf (ssiRead e raw lineLow s) := by
  unfold ssiRead
  refine ite_wf h ?_
  refine ite_wf (latchEnc_wf (setEnc_wf h)) ?_
  split
  · exact setEnc_wf h
  · exact ite_wf (latchEnc_wf (setEnc_wf h)) (countMoved_wf (setEnc_wf h))

theorem hallChange_wf {g code} {s : State} (h : BasinWf s) : BasinWf (hallChange g code s) := by
  unfold hallChange
  refine ite_wf h ?_
  split
  · exact ite_wf (setHall_wf h) (raise_wf (setHall_wf h))
  · refine ite_wf (setHall_wf (setHall_wf h)) ?_
    split
    · exact setHall_wf h
    · exact setHall_wf (setHall_wf h)
    · exact setHall_wf (setHall_wf h)
    · exact ite_wf (setHall_wf (setHall_wf h)) (raise_wf (setHall_wf (setHall_wf h)))

theorem startEncPreset_wf {r mask ext} {s : State} (h : BasinWf s) : BasinWf (startEncPreset r mask ext s) :=
  endWith_wf (foldl_wf (fun _ _ h1 => setEnc_wf h1) h _)

theorem applyCmpSet_wf {k enable reverse enc pitch c width} {s : State} (h : BasinWf s) :
    BasinWf (applyCmpSet k enable reverse enc pitch c width s) :=
  setCfgS64_wf (setCfg_wf (setCfg_wf h))

theorem startCmpSet_wf {r k enable reverse enc pitch c width} {s : State} (h : BasinWf s) :
    BasinWf (startCmpSet r k enable reverse enc pitch c width s) :=
  ite_wf (endWith_wf h) (endWith_wf (bumpOverride_wf (applyCmpSet_wf h)))

theorem applyEchoSet_wf {k enable enc n m} {s : State} (h : BasinWf s) : BasinWf (applyEchoSet k enable enc n m s) :=
  ite_wf (setEcho_wf (setCfg_wf (setCfg_wf h))) (setCfg_wf (setCfg_wf h))

theorem startEchoSet_wf {r k enable enc n m} {s : State} (h : BasinWf s) : BasinWf (startEchoSet r k enable enc n m s) :=
  ite_wf (endWith_wf h) (endWith_wf (bumpOverride_wf (applyEchoSet_wf h)))

theorem clearEnc_wf {e} {s : State} (h : BasinWf s) : BasinWf (clearEnc e s) := latchEnc_wf (setEnc_wf h)
theorem clearAxis_wf {a} {s : State} (h : BasinWf s) : BasinWf (clearAxis a s) := ite_wf (setAxis_wf h) h
theorem clearHall_wf {g} {s : State} (h : BasinWf s) : BasinWf (clearHall g s) := ite_wf (raise_wf (setHall_wf h)) (setHall_wf h)

theorem startFaultClear_wf {r axisMask encMask hallMask} {s : State} (h : BasinWf s) :
    BasinWf (startFaultClear r axisMask encMask hallMask s) :=
  endWith_wf (foldl_wf (fun _ _ h1 => clearHall_wf h1) (foldl_wf (fun _ _ h1 => clearAxis_wf h1) (foldl_wf
      (fun _ _ h1 => clearEnc_wf h1) h _) _) _)

/-! ### Machine/Recorder -/

theorem setRecorder_wf {f} {s : State} (h : BasinWf s) : BasinWf (setRecorder f s) := h.update
theorem histSample_wf {hd v} {s : State} (h : BasinWf s) : BasinWf (histSample hd v s) := setActive_wf h

theorem recSecond_wf {s : State} (h : BasinWf s) : BasinWf (recSecond s) := by
  unfold recSecond
  refine ite_wf h ?_
  refine setRecorder_wf ?_
  refine foldl_wf ?_ h _
  intro _ _ h1
  split
  · exact histSample_wf h1
  · exact h1

theorem recBegin_wf {d} {s : State} (h : BasinWf s) : BasinWf (recBegin d s) := setRecorder_wf (setRecorder_wf h)
theorem clearBegin_wf {ref nonce token} {s : State} (h : BasinWf s) : BasinWf (clearBegin ref nonce token s) := setRecorder_wf h
theorem clearDenied_wf {ref} {s : State} (h : BasinWf s) : BasinWf (clearDenied ref s) := endWith_wf (raise_wf (setRecorder_wf h))

theorem clearAsked_wf {ref token} {s : State} (h : BasinWf s) : BasinWf (clearAsked ref token s) := by
  unfold clearAsked
  refine ite_wf (endWith_wf h) ?_
  split
  · exact ite_wf (clearBegin_wf (setRecorder_wf h)) (clearDenied_wf h)
  · exact clearDenied_wf h

theorem recNext_wf {s : State} (h : BasinWf s) : BasinWf (recNext s) := by
  unfold recNext
  refine ite_wf h ?_
  split
  · exact recBegin_wf (setRecorder_wf h)
  · exact clearAsked_wf (setRecorder_wf h)
  · exact h

theorem recDue_wf {kind cause refs} {s : State} (h : BasinWf s) : BasinWf (recDue kind cause refs s) := recNext_wf (setRecorder_wf h)

theorem recWritten_wf {w} {s : State} (h : BasinWf s) : BasinWf (recWritten w s) :=
  recNext_wf (foldl_wf (fun _ _ h1 => finish_wf h1) (ite_wf (raise_wf (setRecorder_wf h)) (setRecorder_wf h)) _)

theorem clearLogged_wf {w} {s : State} (h : BasinWf s) : BasinWf (clearLogged w s) := setRecorder_wf (setRecorder_wf h)

theorem recWriteDone_wf {s : State} (h : BasinWf s) : BasinWf (recWriteDone s) := by
  unfold recWriteDone
  split
  · exact h
  · exact ite_wf (clearLogged_wf h) (recWritten_wf h)

theorem recFailed_wf {w} {s : State} (h : BasinWf s) : BasinWf (recFailed w s) :=
  recNext_wf (foldl_wf (fun _ _ h1 => endWith_wf h1) (ite_wf (raise_wf (raise_wf (setRecorder_wf h))) (raise_wf (setRecorder_wf h))) _)

theorem recWriteTimeout_wf {s : State} (h : BasinWf s) : BasinWf (recWriteTimeout s) := by
  unfold recWriteTimeout
  split
  · exact h
  · exact ite_wf h (ite_wf (recNext_wf (foldl_wf (fun _ _ h1 => endWith_wf h1) (setRecorder_wf h) _)) (ite_wf (recFailed_wf
        (setRecorder_wf h)) (setRecorder_wf (setRecorder_wf h))))

theorem recMinute_wf {s : State} (h : BasinWf s) : BasinWf (recMinute s) := by
  unfold recMinute
  split
  · exact setRecorder_wf h
  · exact ite_wf (recDue_wf (setRecorder_wf (foldl_wf (fun _ _ h1 => ite_wf h1 (recExtreme_wf h1)) (foldl_wf
        (fun _ _ h1 => recExtreme_wf (histSample_wf h1)) h _) _))) (setRecorder_wf (foldl_wf (fun _ _ h1 => ite_wf h1
        (recExtreme_wf h1)) (foldl_wf (fun _ _ h1 => recExtreme_wf (histSample_wf h1)) h _) _))
  · exact h

theorem recSupply_wf {s : State} (h : BasinWf s) : BasinWf (recSupply s) := ite_wf h (recDue_wf (setRecorder_wf h))
theorem loadWindow_wf {s : State} (h : BasinWf s) : BasinWf (loadWindow s) := setRecorder_wf h
theorem writeCursor_wf {v} {s : State} (h : BasinWf s) : BasinWf (writeCursor v s) := ite_wf h (loadWindow_wf (setRecorder_wf h))
theorem advanceCursor_wf {s : State} (h : BasinWf s) : BasinWf (advanceCursor s) := ite_wf h (loadWindow_wf (setRecorder_wf h))
theorem readWindow_wf {i} {s : State} (h : BasinWf s) : BasinWf (readWindow i s).2 := ite_wf (advanceCursor_wf h) h
theorem windowRead_wf {word} {s : State} (h : BasinWf s) : BasinWf (windowRead word s) := ite_wf h ((readWindow_wf h).update)
theorem startRecRecordNow_wf {r} {s : State} (h : BasinWf s) : BasinWf (startRecRecordNow r s) := recDue_wf h

theorem startRecChallenge_wf {r} {s : State} (h : BasinWf s) : BasinWf (startRecChallenge r s) :=
  ite_wf (endWith_wf h) (finish_wf (setRecorder_wf (takeFree_wf h)))

theorem startRecClear_wf {r token} {s : State} (h : BasinWf s) : BasinWf (startRecClear r token s) :=
  ite_wf (endWith_wf h) (recNext_wf (setRecorder_wf h))

theorem startRecProvision_wf {r addr} {s : State} (h : BasinWf s) : BasinWf (startRecProvision r addr s) := by
  unfold startRecProvision
  refine ite_wf (endWith_wf h) ?_
  refine ite_wf (endWith_wf h) ?_
  split
  · exact endWith_wf (eccUe_wf h)
  · exact ite_wf (endWith_wf h) (endWith_wf (raise_wf h.update))

theorem nonceExpire_wf {s : State} (h : BasinWf s) : BasinWf (nonceExpire s) := ite_wf (setRecorder_wf h) h

/-! ### Machine/Light -/

theorem resumeLed_wf {c} {s : State} (h : BasinWf s) : BasinWf (resumeLed c s) := ite_wf (setLed_wf h) (setLed_wf h)

theorem settleDiag_wf {c} {s : State} (h : BasinWf s) : BasinWf (settleDiag c s) := by
  unfold settleDiag
  split
  · exact ite_wf (setLed_wf h) h
  · exact h

theorem settleLedSets_wf {refs} {s : State} (h : BasinWf s) : BasinWf (settleLedSets refs s) :=
  foldl_wf (fun _ _ h1 => ite_wf h1 (endWith_wf (bumpOverride_wf h1))) h _

theorem ledPeriod_wf {c iMeas vMeas} {s : State} (h : BasinWf s) : BasinWf (ledPeriod c iMeas vMeas s) := by
  unfold ledPeriod
  refine ite_wf h ?_
  refine settleLedSets_wf ?_
  refine ite_wf ?_ ?_
  · refine setLed_wf ?_
    refine resumeLed_wf ?_
    split
    · exact ite_wf (foldl_wf (fun _ _ h1 => setCfgF_wf (setCfgF_wf h1)) (setLed_wf (settleDiag_wf h)) _) (setLed_wf (foldl_wf
          (fun _ _ h1 => setCfgF_wf (setCfgF_wf h1)) (setLed_wf (settleDiag_wf h)) _))
    · exact foldl_wf (fun _ _ h1 => setCfgF_wf (setCfgF_wf h1)) (setLed_wf (settleDiag_wf h)) _
  · refine resumeLed_wf ?_
    split
    · exact ite_wf (foldl_wf (fun _ _ h1 => setCfgF_wf (setCfgF_wf h1)) (setLed_wf (settleDiag_wf h)) _) (setLed_wf (foldl_wf
          (fun _ _ h1 => setCfgF_wf (setCfgF_wf h1)) (setLed_wf (settleDiag_wf h)) _))
    · exact foldl_wf (fun _ _ h1 => setCfgF_wf (setCfgF_wf h1)) (setLed_wf (settleDiag_wf h)) _

theorem applyLedSet_wf {r mask iSet duty t} {s : State} (h : BasinWf s) : BasinWf (applyLedSet r mask iSet duty t s) :=
  settleLedSets_wf (foldl_wf (fun _ _ h1 => setLed_wf h1) h _)

theorem startLedSet_wf {r mask iSet duty launch} {s : State} (h : BasinWf s) : BasinWf (startLedSet r mask iSet duty launch s) := by
  unfold startLedSet
  refine ite_wf (endWith_wf h) ?_
  split
  · exact endWith_wf h
  · exact applyLedSet_wf h

theorem setMatrix_wf {f} {s : State} (h : BasinWf s) : BasinWf (setMatrix f s) := h.update

theorem matrixSync_wf {s : State} (h : BasinWf s) : BasinWf (matrixSync s) := by
  unfold matrixSync
  refine ite_wf h ?_
  split
  · exact finishIn_wf (setMatrix_wf h)
  · exact setMatrix_wf h

theorem matrixSlot_wf {s : State} (h : BasinWf s) : BasinWf (matrixSlot s) :=
  ite_wf h (ite_wf (setMatrix_wf (ite_wf (setMatrix_wf h) h)) (ite_wf (matrixSync_wf (ite_wf (setMatrix_wf h) h)) (setMatrix_wf (ite_wf
      (setMatrix_wf h) h))))

theorem startLedMatrixWrite_wf {r addr} {s : State} (h : BasinWf s) : BasinWf (startLedMatrixWrite r addr s) := by
  unfold startLedMatrixWrite
  refine ite_wf (endWith_wf h) ?_
  refine ite_wf (endWith_wf h) ?_
  refine ite_wf (endWith_wf h) ?_
  split
  · exact endWith_wf (eccUe_wf h)
  · exact setMatrix_wf h

theorem ledFault_wf {c short row} {s : State} (h : BasinWf s) : BasinWf (ledFault c short row s) :=
  ite_wf h (ite_wf (ite_wf h (ite_wf (ite_wf h (raise_wf (setLed_wf h))) (raise_wf (setMatrix_wf h)))) (ite_wf h (raise_wf
      (setLed_wf h))))

theorem startLedFaultClear_wf {r mask segments} {s : State} (h : BasinWf s) : BasinWf (startLedFaultClear r mask segments s) :=
  endWith_wf (ite_wf (setMatrix_wf (foldl_wf (fun _ _ h1 => setLed_wf h1) h _)) (foldl_wf (fun _ _ h1 => setLed_wf h1) h _))

theorem diagStarved_wf {c} {s : State} (h : BasinWf s) : BasinWf (diagStarved c s) := by
  unfold diagStarved
  split
  · exact setLed_wf h
  · exact ite_wf (raise_wf (setLed_wf h)) h

theorem diagPulse_wf {c} {s : State} (h : BasinWf s) : BasinWf (diagPulse c s) :=
  ite_wf h (ite_wf (settleDiag_wf h) (ite_wf (diagStarved_wf (settleDiag_wf h)) (setLed_wf (diagStarved_wf (settleDiag_wf h)))))

theorem startColorTarget_wf {r channel target} {s : State} (h : BasinWf s) : BasinWf (startColorTarget r channel target s) :=
  ite_wf (endWith_wf h) (endWith_wf (bumpOverride_wf (setCfgF_wf h)))

theorem gainRaw_wf {c m} {s : State} (h : BasinWf s) : BasinWf (gainRaw c m s).2.2 := by
  unfold gainRaw
  dsimp only
  split
  · exact takeFree_wf h
  · exact h

theorem updateGain_wf {c m} {s : State} (h : BasinWf s) : BasinWf (updateGain c m s) :=
  ite_wf (raise_wf (setLed_wf (gainRaw_wf h))) (setLed_wf (gainRaw_wf h))

theorem colorRead_wf {reads} {s : State} (h : BasinWf s) : BasinWf (colorRead reads s) :=
  ite_wf h (foldl_wf (fun _ _ h1 => ite_wf (ite_wf (raise_wf h1.update) h1.update) (foldl_wf (fun _ _ h2 => ite_wf
      (updateGain_wf h2) h2) h1.update _)) h _)

theorem windowEdge_wf {p} {s : State} (h : BasinWf s) : BasinWf (windowEdge p s) := by
  unfold windowEdge
  refine ite_wf ?_ ?_
  · split
    · exact ite_wf (setCam_wf h.update) h
    · exact h
  · refine ite_wf ?_ ?_
    · refine matrixSync_wf ?_
      refine foldl_wf (fun _ _ h1 => ite_wf (setLed_wf h1) h1) ?_ _
      refine setCam_wf ?_
      split
      · exact ite_wf (setCam_wf h.update) h
      · exact h
    · refine foldl_wf (fun _ _ h1 => ite_wf (setLed_wf h1) h1) ?_ _
      refine setCam_wf ?_
      split
      · exact ite_wf (setCam_wf h.update) h
      · exact h

/-! ### Machine/LinkOps -/

theorem setLink_wf {f} {s : State} (h : BasinWf s) : BasinWf (setLink f s) := h.update
theorem setNode_wf {p hd f} {s : State} (h : BasinWf s) : BasinWf (setNode p hd f s) := setPort_wf h
theorem sendFrame_wf {p hop frame} {s : State} (h : BasinWf s) : BasinWf (sendFrame p hop frame s) := (queueService_wf h).update

theorem sendReq_wf {p hop type payload ref addr} {s : State} (h : BasinWf s) : BasinWf (sendReq p hop type payload ref addr s) :=
  sendFrame_wf (setLink_wf h)

theorem dropReq_wf {r} {s : State} (h : BasinWf s) : BasinWf (dropReq r s) := setLink_wf h

theorem abortReqs_wf {p hd} {s : State} (h : BasinWf s) : BasinWf (abortReqs p hd s) := by
  unfold abortReqs
  refine foldl_wf ?_ h _
  intro _ _ h1
  split
  · exact endWith_wf (dropReq_wf h1)
  · exact dropReq_wf h1

theorem loseOne_wf {p cause} {s : State} {hd} (h : BasinWf s) : BasinWf (loseOne p cause s hd) :=
  ite_wf h (raise_wf (abortReqs_wf (setPort_wf (setNode_wf (foldl_wf (fun _ _ h1 => closeTail_wf h1) (ite_wf (faultAll_wf h) (foldl_wf
      (fun _ _ h1 => setLane_wf h1) h _)) _)))))

theorem endEnum_wf {p} {s : State} (h : BasinWf s) : BasinWf (endEnum p s) :=
  foldl_wf (fun _ _ h1 => endWith_wf h1) (setLink_wf (setLink_wf (setPort_wf h))) _

theorem loseFrom_wf {p hd cause} {s : State} (h : BasinWf s) : BasinWf (loseFrom p hd cause s) :=
  ite_wf (endEnum_wf (foldl_wf (fun _ _ h1 => ite_wf (loseOne_wf h1) h1) h _)) (foldl_wf (fun _ _ h1 => ite_wf (loseOne_wf h1) h1) h _)

theorem discoverNext_wf {p} {s : State} (h : BasinWf s) : BasinWf (discoverNext p s) := ite_wf (sendReq_wf (setPort_wf h)) (endEnum_wf h)
theorem enumeration_wf {p} {s : State} (h : BasinWf s) : BasinWf (enumeration p s) := ite_wf h (discoverNext_wf h)
theorem rejectNode_wf {p hd reason} {s : State} (h : BasinWf s) : BasinWf (rejectNode p hd reason s) := endEnum_wf (raise_wf h)

theorem assignSlot_wf {p hd div phase} {s : State} (h : BasinWf s) : BasinWf (assignSlot p hd div phase s) :=
  ite_wf h (sendReq_wf (setNode_wf h))

theorem identified_wf {p i} {s : State} (h : BasinWf s) : BasinWf (identified p i s) :=
  ite_wf (rejectNode_wf h) (ite_wf (rejectNode_wf h) (ite_wf (rejectNode_wf h) (ite_wf (endEnum_wf (raise_wf h)) (sendReq_wf (setPort_wf
      (setNode_wf (ite_wf h (foldl_wf (fun _ _ h1 => assignSlot_wf h1) h _))))))))

theorem startMeasure_wf {p hd} {s : State} (h : BasinWf s) : BasinWf (startMeasure p hd s) := (putLine_wf (setNode_wf h)).update
theorem sendDelay_wf {p hd} {s : State} (h : BasinWf s) : BasinWf (sendDelay p hd s) := sendReq_wf (setNode_wf h)

theorem fetchObjects_wf {p hd} {s : State} (h : BasinWf s) : BasinWf (fetchObjects p hd s) := by
  unfold fetchObjects
  refine ite_wf (foldl_wf (fun _ _ h1 => sendReq_wf h1) h _) ?_
  refine ite_wf (sendReq_wf (sendReq_wf (sendReq_wf h))) ?_
  split
  · exact sendReq_wf h
  · exact h

theorem nodeFound_wf {p hd status} {s : State} (h : BasinWf s) : BasinWf (nodeFound p hd status s) :=
  ite_wf (discoverNext_wf (foldl_wf (fun _ _ h1 => endWith_wf h1) (setLink_wf (fetchObjects_wf (ite_wf (calNodeFound_wf (foldl_wf
      (fun _ _ h1 => laneToIdle_wf h1) (ite_wf (raise_wf (raise_wf (setNode_wf h))) (raise_wf (setNode_wf h))) _)) (foldl_wf
      (fun _ _ h1 => laneToIdle_wf h1) (ite_wf (raise_wf (raise_wf (setNode_wf h))) (raise_wf (setNode_wf h))) _)))) _)) (endEnum_wf
      (foldl_wf (fun _ _ h1 => endWith_wf h1) (setLink_wf (fetchObjects_wf (ite_wf (calNodeFound_wf (foldl_wf
      (fun _ _ h1 => laneToIdle_wf h1) (ite_wf (raise_wf (raise_wf (setNode_wf h))) (raise_wf (setNode_wf h))) _)) (foldl_wf
      (fun _ _ h1 => laneToIdle_wf h1) (ite_wf (raise_wf (raise_wf (setNode_wf h))) (raise_wf (setNode_wf h))) _)))) _))

theorem measured_wf {p hd} {s : State} (h : BasinWf s) : BasinWf (measured p hd s) :=
  ite_wf (sendDelay_wf (setPort_wf (setNode_wf h))) (ite_wf (sendDelay_wf (ite_wf (raise_wf (setNode_wf h)) (setNode_wf h))) (ite_wf
      (raise_wf (setNode_wf h)) (setNode_wf h)))

theorem putIo_wf {p hd point value time} {s : State} (h : BasinWf s) : BasinWf (putIo p hd point value time s) :=
  ite_wf (setLink_wf (memWrite_wf h)) (ite_wf (raise_wf (setLink_wf h)) (setLink_wf h))

/-! ### Machine/LinkCmds -/

theorem nodeStatus_wf {p hd status} {s : State} (h : BasinWf s) : BasinWf (nodeStatus p hd status s) :=
  ite_wf (raise_wf (setNode_wf h)) (setNode_wf h)

theorem nodeUnit_wf {p src cycle crc status inputs} {s : State} (h : BasinWf s) : BasinWf (nodeUnit p src cycle crc status inputs s) :=
  ite_wf h (nodeStatus_wf (setNode_wf h))

theorem objectRead_wf {p hd index offset d} {s : State} (h : BasinWf s) : BasinWf (objectRead p hd index offset d s) :=
  ite_wf (setNode_wf h) (ite_wf (setNode_wf h) h)

theorem answerHost_wf {q r st d} {s : State} (h : BasinWf s) : BasinWf (answerHost q r st d s) :=
  ite_wf (endWith_wf (memWrite_wf h)) (ite_wf (loseFrom_wf (setLink_wf h)) (endWith_wf h))

theorem answered_wf {q pl} {s : State} (h : BasinWf s) : BasinWf (answered q pl s) := by
  unfold answered
  split
  · exact answerHost_wf (dropReq_wf h)
  · exact ite_wf (ite_wf (identified_wf (dropReq_wf h)) (endEnum_wf (dropReq_wf h))) (ite_wf (ite_wf (startMeasure_wf (setPort_wf
        (dropReq_wf h))) (endEnum_wf (dropReq_wf h))) (ite_wf (endEnum_wf (dropReq_wf h)) (ite_wf (sendReq_wf (setPort_wf
        (dropReq_wf h))) (ite_wf (ite_wf (nodeFound_wf (dropReq_wf h)) (objectRead_wf (dropReq_wf h))) (dropReq_wf h)))))

theorem monitorFrame_wf {p hd power status} {s : State} (h : BasinWf s) : BasinWf (monitorFrame p hd power status s) := by
  unfold monitorFrame
  dsimp only
  refine foldl_wf ?_ (setNode_wf h) _
  intro _ _ h1
  split
  · exact ite_wf (setRun_wf h1) h1
  · exact h1

theorem ioEntries_wf {p hop} : ∀ {n b} {s : State}, BasinWf s → BasinWf (ioEntries p hop n b s)
  | 0, _, _, h => h
  | _ + 1, _, _, h => ite_wf h (ioEntries_wf (putIo_wf (ite_wf (setNode_wf h) h)))

theorem nodeFrame_wf {p hd type pl} {s : State} (h : BasinWf s) : BasinWf (nodeFrame p hd type pl s) :=
  ite_wf h (ite_wf (ite_wf h (tempArrived_wf (setNode_wf h))) (ite_wf (monitorFrame_wf h) (ite_wf (ioEntries_wf h) (ite_wf
      (nodeStatus_wf h) h))))

theorem serviceFrame_wf {p hd b} {s : State} (h : BasinWf s) : BasinWf (serviceFrame p hd b s) := by
  unfold serviceFrame
  refine ite_wf h ?_
  refine ite_wf (setPort_wf h) ?_
  refine ite_wf ?_ (nodeFrame_wf (ite_wf (setNode_wf h) h))
  split
  · exact answered_wf (ite_wf (setNode_wf h) h)
  · exact ite_wf (setNode_wf h) h

theorem serviceRetry_wf {seq} {s : State} (h : BasinWf s) : BasinWf (serviceRetry seq s) := by
  unfold serviceRetry
  split
  · exact h
  · exact sendFrame_wf (setLink_wf h)

theorem serviceTimeout_wf {seq} {s : State} (h : BasinWf s) : BasinWf (serviceTimeout seq s) := by
  unfold serviceTimeout
  split
  · exact h
  · split
    · exact endWith_wf (setPort_wf (dropReq_wf h))
    · exact ite_wf (endEnum_wf (setPort_wf (dropReq_wf h))) (setPort_wf (dropReq_wf h))

theorem echoReceive_wf {p hd seq crc rtt} {s : State} (h : BasinWf s) : BasinWf (echoReceive p hd seq crc rtt s) :=
  ite_wf h (ite_wf (measured_wf (setNode_wf h)) (setNode_wf h))

theorem delayMeasure_wf {p} {s : State} (h : BasinWf s) : BasinWf (delayMeasure p s) :=
  ite_wf h (foldl_wf (fun _ _ h1 => ite_wf (startMeasure_wf h1) h1) h _)

theorem linkComesUp_wf {p} {s : State} (h : BasinWf s) : BasinWf (linkComesUp p s) :=
  ite_wf h (ite_wf (discoverNext_wf (raise_wf (setPort_wf h))) (raise_wf (setPort_wf h)))

theorem linkGoesDown_wf {p} {s : State} (h : BasinWf s) : BasinWf (linkGoesDown p s) := ite_wf h (loseFrom_wf (raise_wf (setPort_wf h)))
theorem linkdn_wf {p hd reason} {s : State} (h : BasinWf s) : BasinWf (linkdn p hd reason s) := ite_wf h (loseFrom_wf (setNode_wf h))

theorem linkdnBlock_wf {p type hd reason} {s : State} (h : BasinWf s) : BasinWf (linkdnBlock p type hd reason s) :=
  ite_wf (linkdn_wf h) (ite_wf h (setPort_wf h))

theorem nodeSilence_wf {p hd} {s : State} (h : BasinWf s) : BasinWf (nodeSilence p hd s) := ite_wf h (loseFrom_wf h)
theorem hiBer_wf {p hd} {s : State} (h : BasinWf s) : BasinWf (hiBer p hd s) := ite_wf h (raise_wf (ite_wf (setPort_wf h.update) h))

theorem requestNode_wf {r node type payload addr} {s : State} (h : BasinWf s) : BasinWf (requestNode r node type payload addr s) := by
  unfold requestNode
  split
  · exact endWith_wf h
  · exact sendReq_wf h

theorem startSplIoWrite_wf {r node entries applyAt} {s : State} (h : BasinWf s) : BasinWf (startSplIoWrite r node entries applyAt s) :=
  ite_wf (endWith_wf h) (requestNode_wf h)

theorem startSplIoRead_wf {r node first count addr} {s : State} (h : BasinWf s) : BasinWf (startSplIoRead r node first count addr s) :=
  ite_wf (endWith_wf h) (requestNode_wf h)

theorem startSplObjRead_wf {r node index offset count addr} {s : State} (h : BasinWf s) :
    BasinWf (startSplObjRead r node index offset count addr s) :=
  ite_wf (endWith_wf h) (ite_wf (endWith_wf h) (ite_wf (endWith_wf h) (requestNode_wf h)))

theorem startSplObjWrite_wf {r node index offset count addr} {s : State} (h : BasinWf s) :
    BasinWf (startSplObjWrite r node index offset count addr s) := by
  unfold startSplObjWrite
  refine ite_wf (endWith_wf h) ?_
  refine ite_wf (endWith_wf h) ?_
  refine ite_wf (endWith_wf h) ?_
  split
  · exact endWith_wf (eccUe_wf h)
  · exact requestNode_wf h

theorem startSplRescan_wf {r mask} {s : State} (h : BasinWf s) : BasinWf (startSplRescan r mask s) :=
  ite_wf (endWith_wf h) (ite_wf (endWith_wf h) (ite_wf (endWith_wf h) (foldl_wf (fun _ _ h1 => ite_wf (discoverNext_wf h1) h1)
      (setLink_wf h) _)))

theorem startSplNodeReset_wf {r node} {s : State} (h : BasinWf s) : BasinWf (startSplNodeReset r node s) :=
  ite_wf (endWith_wf h) (requestNode_wf h)

theorem startSplIoRing_wf {r base size} {s : State} (h : BasinWf s) : BasinWf (startSplIoRing r base size s) :=
  ite_wf (endWith_wf h) (endWith_wf (setLink_wf h))

/-! ### Machine/Safe -/

theorem beamsOff_wf {s : State} (h : BasinWf s) : BasinWf (beamsOff s) := (calPermitLow_wf (trigSafe_wf (killAll_wf h.update))).update
theorem forceSafe_wf {s : State} (h : BasinWf s) : BasinWf (forceSafe s) := axesSafe_wf (beamsOff_wf h)

theorem axesToRest_wf {s : State} (h : BasinWf s) : BasinWf (axesToRest s) :=
  foldl_wf (fun _ _ h1 => settleAxis_wf (beginStop_wf (dropPending_wf h1))) h _

theorem endAll_wf {st} {s : State} (h : BasinWf s) : BasinWf (endAll st s) := foldl_wf (fun _ _ h1 => finishAs_wf h1) h.update _
theorem dropOwners_wf {s : State} (h : BasinWf s) : BasinWf (dropOwners s) := h.update.update.update.update.update
theorem cancelActions_wf {s : State} (h : BasinWf s) : BasinWf (cancelActions s) := setRipple_wf h

theorem jobReset_wf {s : State} (h : BasinWf s) : BasinWf (jobReset s) := by
  unfold jobReset
  exact timeJobEnd_wf (setJobs_wf ((withdraw_wf (scriptStop_wf (calWithdraw_wf (deferWaiting_wf (abandonAll_wf (((foldl_wf
      (fun _ _ h1 => stopLane_wf h1) h _).update).update)))))).update))

/-! ### Machine/Restart -/

theorem basinAfter_wf {k} {s : State} (h : BasinWf s) : Mem.wf (basinAfter k s).1 = true := by
  cases k with
  | module | firmware => exact h
  | standbyExit => exact Mem.filter_wf _ h
  | por | wake | pin => rfl

theorem restart_wf {k cause wake} {s : State} (h : BasinWf s) : BasinWf (restart k cause wake s) :=
  basinAfter_wf (endAttachment_wf h)

theorem hold_wf {k cause st} {s : State} (h : BasinWf s) : BasinWf (hold k cause st s) := (restart_wf h).update
theorem release_wf {s : State} (h : BasinWf s) : BasinWf (release s) := h.update

theorem firmwareReset_wf {cause} {s : State} (h : BasinWf s) : BasinWf (firmwareReset cause s) := by
  unfold firmwareReset
  exact ite_wf ((((cancelActions_wf (jobReset_wf (axesSafe_wf (dropOwners_wf (endAll_wf (zipAbortHost_wf
      (beamsOff_wf h))))))).update).update).update) (fireVector_wf (((((cancelActions_wf (jobReset_wf (axesSafe_wf (dropOwners_wf
      (endAll_wf (zipAbortHost_wf (beamsOff_wf h))))))).update).update).update).update))

theorem eccFatal_wf {a} {s : State} (h : BasinWf s) : BasinWf (eccFatal a s) := ite_wf (firmwareReset_wf h) h

/-! ### Machine/General -/

theorem startNop_wf {r} {s : State} (h : BasinWf s) : BasinWf (startNop r s) := endWith_wf h
theorem startHeartbeat_wf {r} {s : State} (h : BasinWf s) : BasinWf (startHeartbeat r s) := endWith_wf h.update

theorem startFence_wf {r scope holdRing} {s : State} (h : BasinWf s) : BasinWf (startFence r scope holdRing s) := by
  unfold startFence
  split
  · exact h
  · exact settle_wf ((ite_wf (setCmd_wf h) h).update)

theorem startEventRing_wf {r base size} {s : State} (h : BasinWf s) : BasinWf (startEventRing r base size s) :=
  ite_wf (endWith_wf h) (endWith_wf h.update)

theorem startEventRoute_wf {r lo hi vec} {s : State} (h : BasinWf s) : BasinWf (startEventRoute r lo hi vec s) :=
  ite_wf (endWith_wf h) (ite_wf (endWith_wf h.update) (ite_wf (endWith_wf h) (ite_wf (endWith_wf h) (endWith_wf h.update))))

theorem startCfgAbort_wf {r sets} {s : State} (h : BasinWf s) : BasinWf (startCfgAbort r sets s) :=
  ite_wf (endWith_wf h) (endWith_wf h.update)

/-! ### Machine/Mere -/

theorem mereStart_wf {s : State} (h : BasinWf s) : BasinWf (mereStart s) := setMere_wf h

theorem takeCoeffs_wf {s : State} (h : BasinWf s) : BasinWf (takeCoeffs s) := by
  unfold takeCoeffs
  refine foldl_wf ?_ (setMere_wf h) _
  intro _ _ h1
  split
  · exact endWith_wf (bumpOverride_wf (setMere_wf h1))
  · exact markOverride_wf (setMere_wf h1)

theorem takeActions_wf {s : State} (h : BasinWf s) : BasinWf (takeActions s) := setMere_wf h

theorem takeSets_wf {k} {s : State} (h : BasinWf s) : BasinWf (takeSets k s) :=
  foldl_wf (fun _ _ h1 => endWith_wf (setMere_wf h1)) (setMere_wf h) _

theorem startStep_wf {k} {s : State} (h : BasinWf s) : BasinWf (startStep k s) :=
  setMere_wf (takeActions_wf (ite_wf (takeCoeffs_wf h) (takeSets_wf (takeCoeffs_wf h))))

theorem pauseLen_wf {s : State} (h : BasinWf s) : BasinWf (pauseLen s).2 := takeFree_wf h

theorem takeSave_wf {k} {s : State} (h : BasinWf s) : BasinWf (takeSave k s) := by
  unfold takeSave
  split
  · exact h
  · refine ite_wf ?_ (zipPost_wf (setMere_wf (pauseLen_wf h)))
    split
    · exact endWith_wf (raise_wf (setMere_wf h))
    · exact raise_wf (setMere_wf h)

theorem takeCoarse_wf {k} {s : State} (h : BasinWf s) : BasinWf (takeCoarse k s) := ite_wf (setMere_wf h) h

theorem mereStep_wf {s : State} (h : BasinWf s) : BasinWf (mereStep s) := by
  unfold mereStep
  refine ite_wf h ?_
  extract_lets u late v w x
  have hv : BasinWf v := by
    unfold v
    split
    · exact takeSave_wf (recExtreme_wf (setMere_wf (setMere_wf h)))
    · exact setMere_wf h
  have hw : BasinWf w := ite_wf (raise_wf (setMere_wf hv)) hv
  exact ite_wf (startStep_wf (takeCoarse_wf (setMere_wf hw))) (setMere_wf hw)

theorem mereSaved_wf {s : State} (h : BasinWf s) : BasinWf (mereSaved s) := by
  unfold mereSaved
  dsimp only
  split
  · exact h
  · split
    · exact endWith_wf (ite_wf (raise_wf (setMere_wf (memWrite_wf h))) (raise_wf (setMere_wf (memWrite_wf h))))
    · exact ite_wf (raise_wf (setMere_wf (memWrite_wf h))) (raise_wf (setMere_wf (memWrite_wf h)))

theorem viewCopy_wf {s : State} (h : BasinWf s) : BasinWf (viewCopy s) := ite_wf h (setMere_wf h)

theorem startMereSaveCfg_wf {r base size count} {s : State} (h : BasinWf s) : BasinWf (startMereSaveCfg r base size count s) :=
  ite_wf (endWith_wf h) (ite_wf (endWith_wf h) (endWith_wf (setMere_wf h)))

theorem startMereSaveNow_wf {r tag} {s : State} (h : BasinWf s) : BasinWf (startMereSaveNow r tag s) :=
  ite_wf (endWith_wf h) (setMere_wf h)

theorem startMereFieldSet_wf {r mode value addr} {s : State} (h : BasinWf s) : BasinWf (startMereFieldSet r mode value addr s) := by
  unfold startMereFieldSet
  refine ite_wf (endWith_wf h) ?_
  refine ite_wf (endWith_wf h) ?_
  refine ite_wf ?_ (setMere_wf h)
  refine endWith_wf ?_
  split
  · exact eccUe_wf h
  · exact h

theorem applyMereCoeff_wf {r mask c} {s : State} (h : BasinWf s) : BasinWf (applyMereCoeff r mask c s) :=
  ite_wf (setMere_wf (takeCoeffs_wf (setMere_wf h))) (setMere_wf h)

theorem startMereCoeff_wf {r mask d rr kDep assimWeight layerBlend} {s : State} (h : BasinWf s) :
    BasinWf (startMereCoeff r mask d rr kDep assimWeight layerBlend s) :=
  ite_wf (endWith_wf h) (applyMereCoeff_wf h)

/-! ### Machine/Triggers -/

theorem inputEdge_wf {n rising width} {s : State} (h : BasinWf s) : BasinWf (inputEdge n rising width s) :=
  ite_wf (captureEdge_wf h) (lineTrigger_wf (ite_wf (checkScript_wf (homeEdge_wf (captureEdge_wf h))) (captureEdge_wf h)))

theorem ppsIn_wf {width} {s : State} (h : BasinWf s) : BasinWf (ppsIn width s) :=
  ite_wf (captureEdge_wf h) (ite_wf (takeOffset_wf (captureEdge_wf (setClock_wf (setPps_wf h)))) (captureEdge_wf (setClock_wf
      (setPps_wf h))))

/-! ### Machine/Staging -/

theorem applyTrigOutSet_wf {n d} {s : State} (h : BasinWf s) : BasinWf (applyTrigOutSet n d s) :=
  ite_wf (setTrig_wf h) (installSched_wf h)

theorem applyTrigOutStop_wf {mask time} {s : State} (h : BasinWf s) : BasinWf (applyTrigOutStop mask time s) := by
  unfold applyTrigOutStop
  dsimp only
  refine foldl_wf ?_ h _
  intro _ _ h1
  split
  · exact h1
  · exact ite_wf (stopTrig_wf h1) (ite_wf (postOwn_wf h1) h1)

theorem stageApply_wf {i} {s : State} (h : BasinWf s) : BasinWf (stageApply i s) := by
  unfold stageApply
  split
  · exact applyLaneLimits_wf h
  · exact markOverride_wf (applyLaneTrims_wf h)
  · exact applyMereCoeff_wf h
  · exact markOverride_wf (applyProxSep_wf h)
  · exact markOverride_wf (applyProxZone_wf h)
  · exact markOverride_wf (applyProxPlume_wf h)
  · split
    · exact h
    · exact applyTrigOutSet_wf h
  · exact applyTrigOutStop_wf h
  · exact applyPpsOutCfg_wf h
  · exact applyAxisLimits_wf h
  · exact markOverride_wf (applyCmpSet_wf h)
  · exact markOverride_wf (applyEchoSet_wf h)
  · exact applyComposeLayer_wf h
  · exact applyDisplaySet_wf h
  · exact markOverride_wf (applyCamCommit_wf h)
  · exact applyCamTrigger_wf h
  · exact markOverride_wf (applyLedSet_wf h)
  · exact h

theorem startCfgStage_wf {r set count list} {s : State} (h : BasinWf s) : BasinWf (startCfgStage r set count list s) := by
  unfold startCfgStage
  refine ite_wf (endWith_wf h) ?_
  refine ite_wf (endWith_wf h) ?_
  split
  · exact endWith_wf (eccUe_wf h)
  · split
    · exact finish_wf h
    · exact endWith_wf h.update

theorem startCfgCommit_wf {r sets refTor launch} {s : State} (h : BasinWf s) : BasinWf (startCfgCommit r sets refTor launch s) := by
  unfold startCfgCommit
  dsimp only
  refine ite_wf (endWith_wf h) ?_
  refine ite_wf (endWith_wf h) ?_
  split
  · exact endWith_wf h
  · split
    · exact finish_wf h
    · exact ite_wf (postHost_wf h) (endWith_wf h)

theorem commitActs_wf {sets} {s : State} (h : BasinWf s) : BasinWf (commitActs sets s).2 :=
  (ite_wf (countOverride_wf (foldl_wf (fun _ _ h1 => stageApply_wf h1) h _)) (foldl_wf (fun _ _ h1 => stageApply_wf h1) h _)).update

/-! ### Machine/Snapshot -/

theorem publishSnapshot_wf {s : State} (h : BasinWf s) : BasinWf (publishSnapshot s) := by
  unfold publishSnapshot
  split
  · exact h
  · exact foldl_wf (fun _ _ h1 => finish_wf h1) (fireVector_wf ((memWrite_wf h).update)) _

theorem latchSnapshot_wf {tick periodic missing} {s : State} (h : BasinWf s) : BasinWf (latchSnapshot tick periodic missing s) :=
  ite_wf (foldl_wf (fun _ _ h1 => endWith_wf h1) ((publishSnapshot_wf h).update) _) (ite_wf (schedulePeriodic_wf
      (((publishSnapshot_wf h).update).update)) (((publishSnapshot_wf h).update).update))

/-! ### Machine/RippleFire -/

theorem actionDone_wf {a detail data} {s : State} (h : BasinWf s) : BasinWf (actionDone a detail data s) := by
  unfold actionDone
  split
  · exact finishAs_wf h
  · exact h

theorem ruleDone_wf {a} {s : State} (h : BasinWf s) : BasinWf (ruleDone a s) := by
  unfold ruleDone
  split
  · exact finishAs_wf h
  · exact h

theorem fireWork_wf {a} {s : State} (h : BasinWf s) : BasinWf (fireWork a s) := by
  unfold fireWork
  split
  · exact latchSnapshot_wf h
  · exact actionDone_wf (commitActs_wf h)
  · exact ruleDone_wf (bumpOverride_wf (applyProxSep_wf h))
  · exact ruleDone_wf (bumpOverride_wf (applyProxZone_wf h))
  · exact ruleDone_wf (bumpOverride_wf (applyProxPlume_wf h))
  · exact actionDone_wf (setTrig_wf (installSched_wf h))
  · exact settleStops_wf (foldl_wf (fun _ _ h1 => stopTrig_wf h1) h _)
  · exact calStarts_wf h
  · exact layerStart_wf h
  · exact h

theorem fireOne_wf {i a} {s : State} (h : BasinWf s) : BasinWf (fireOne i a s) := fireWork_wf (setRipple_wf h)

theorem fireDue_wf : ∀ {n} {s : State}, BasinWf s → BasinWf (fireDue n s)
  | 0, _, h => h
  | n + 1, s, h => by
    unfold fireDue
    split
    · exact h
    · exact fireDue_wf (fireOne_wf h)

theorem renewPeriodic_wf {s : State} (h : BasinWf s) : BasinWf (renewPeriodic s) := ite_wf (schedulePeriodic_wf h) h
theorem rippleFire_wf {s : State} (h : BasinWf s) : BasinWf (rippleFire s) := tryStart_wf (renewPeriodic_wf (fireDue_wf h))

theorem cancelDone_wf {a} {s : State} (h : BasinWf s) : BasinWf (cancelDone a s) := by
  unfold cancelDone
  split
  · exact h
  · exact endWith_wf h.update

theorem skipGap_wf {kind us} {s : State} (h : BasinWf s) : BasinWf (skipGap kind us s) := setHk_wf h

theorem rippleCancel_wf {n miss} {s : State} (h : BasinWf s) : BasinWf (rippleCancel n miss s) := by
  unfold rippleCancel
  split
  · exact h
  · refine ite_wf h ?_
    refine ite_wf (setRipple_wf h) ?_
    refine raise_wf ?_
    split
    · exact skipGap_wf (cancelDone_wf (setRipple_wf h))
    · exact cancelDone_wf (setRipple_wf h)

/-! ### Machine/Fetch -/

theorem startDescriptor_wf {i} {s : State} (h : BasinWf s) : BasinWf (startDescriptor i s) := by
  unfold startDescriptor
  split
  · exact startNop_wf h
  · exact startFence_wf h
  · exact startSnapshotNow_wf h
  · exact startCfgStage_wf h
  · exact startCfgCommit_wf h
  · exact startHeartbeat_wf h
  · exact startCfgAbort_wf h
  · exact startSnapshotCfg_wf h
  · exact startEventRing_wf h
  · exact startEventRoute_wf h
  · exact startJobStart_wf h
  · exact startJobEnd_wf h
  · exact startLayerQueue_wf h
  · exact startLayerCancel_wf h
  · exact startJobHold_wf h
  · exact startJobResume_wf h
  · exact startLaneReenable_wf h
  · exact startMarkQueue_wf h
  · exact startLaneLimits_wf h
  · exact startLaneTrims_wf h
  · exact startLaneGridLoad_wf h
  · exact startMereSaveCfg_wf h
  · exact startMereSaveNow_wf h
  · exact startMereFieldSet_wf h
  · exact startMereCoeff_wf h
  · exact startLoopCurveLoad_wf h
  · exact startProx_wf h
  · exact startProx_wf h
  · exact startProx_wf h
  · exact startTrigOutSet_wf h
  · exact startTrigOutStop_wf h
  · exact startTrigInCfg_wf h
  · exact startTrigInRing_wf h
  · exact startTimeSet_wf h
  · exact startPpsOutCfg_wf h
  · exact startAxisMove_wf h
  · exact startAxisLimits_wf h
  · exact startAxisStop_wf h
  · exact startAxisEnable_wf h
  · exact startAxisHome_wf h
  · exact startAxisSetPos_wf h
  · exact startEncPreset_wf h
  · exact startCmpSet_wf h
  · exact startEchoSet_wf h
  · exact startFaultClear_wf h
  · exact startCamStream_wf h
  · exact startCamExpWrite_wf h
  · exact startCamExpCommit_wf h
  · exact startCamTrigger_wf h
  · exact startCamCci_wf h
  · exact startCamRing_wf h
  · exact startLedSet_wf h
  · exact startLedMatrixWrite_wf h
  · exact startLedFaultClear_wf h
  · exact startColorTarget_wf h
  · exact startZipEncode_wf h
  · exact startZipOpen_wf h
  · exact startZipFeed_wf h
  · exact startZipFlush_wf h
  · exact startZipDecode_wf h
  · exact startComposeScene_wf h
  · exact startComposeRun_wf h
  · exact startComposeStop_wf h
  · exact startComposeLayer_wf h
  · exact startDisplaySet_wf h
  · exact startBasinCopy_wf h
  · exact startBasinFill_wf h
  · exact startBasinRetain_wf h
  · exact startCalRequest_wf h
  · exact startCalCancel_wf h
  · exact startHkThrottleFloor_wf h
  · exact startRecRecordNow_wf h
  · exact startRecChallenge_wf h
  · exact startRecClear_wf h
  · exact startRecProvision_wf h
  · exact startSplIoWrite_wf h
  · exact startSplIoRead_wf h
  · exact startSplObjRead_wf h
  · exact startSplObjWrite_wf h
  · exact startSplRescan_wf h
  · exact startSplNodeReset_wf h
  · exact startSplIoRing_wf h
  · exact h

theorem startWaiting_wf {s : State} (h : BasinWf s) : BasinWf (startWaiting s) :=
  foldl_wf (fun _ _ h1 => startDescriptor_wf h1) h.update _

theorem fetchFrom_wf {r} {s : State} (h : BasinWf s) : BasinWf (fetchFrom r s) := by
  unfold fetchFrom
  dsimp only
  split
  · exact endWith_wf (eccUe_wf (accept_wf (setCmd_wf (touchBasin_wf h))))
  · split
    · exact endWith_wf (accept_wf (setCmd_wf (touchBasin_wf h)))
    · exact postDescriptor_wf (fun _ h1 => startDescriptor_wf h1) (setCmd_wf (touchBasin_wf h))

theorem descriptorFetch_wf {s : State} (h : BasinWf s) : BasinWf (descriptorFetch s) := by
  unfold descriptorFetch
  refine ite_wf (trackStalls_wf h) ?_
  split
  · exact trackStalls_wf h
  · exact trackStalls_wf (fetchFrom_wf h.update)

/-! ### Machine/GuardTick -/

theorem rulesFirst_wf {s : State} (h : BasinWf s) : BasinWf (rulesFirst s) := ite_wf (rippleFire_wf h) h
theorem boundFirst_wf {s : State} (h : BasinWf s) : BasinWf (boundFirst s) := ite_wf (qualityUpdate_wf h) h
theorem guardAt_wf {s : State} (h : BasinWf s) : BasinWf (guardAt s) := ite_wf (guardTick_wf (boundFirst_wf (rulesFirst_wf h))) h

/-! ### Machine/ProfileApply -/

theorem takeBasin_wf {s : State} (h : BasinWf s) : BasinWf (takeBasin s) := h.updateBasin
theorem takeTx_wf {s : State} (h : BasinWf s) : BasinWf (takeTx s) := setLink_wf h

theorem takeCommon_wf {s : State} (h : BasinWf s) : BasinWf (takeCommon s) :=
  rescheduleSnapshots_wf ((setProx_wf (takeTx_wf (loadRules_wf h.update))).update)

theorem writeSources_wf {s : State} (h : BasinWf s) : BasinWf (writeSources s) :=
  foldl_wf (fun _ _ h1 => foldl_wf (fun _ _ h2 => ite_wf (fetchObjects_wf h2) h2) h1 _) h _

theorem wakeLanes_wf {s : State} (h : BasinWf s) : BasinWf (wakeLanes s) := foldl_wf (fun _ _ h1 => laneToIdle_wf h1) h _
theorem takePps_wf {s : State} (h : BasinWf s) : BasinWf (takePps s) := h.update

theorem applyStart_wf {use c} {s : State} (h : BasinWf s) : BasinWf (applyStart use c s) :=
  (wakeLanes_wf (writeSources_wf (mereStart_wf (takePps_wf (takeCommon_wf (takeBasin_wf (ite_wf (setTimeState_wf
      (setClock_wf h.update)) h.update))))))).update

theorem regridLane_wf {l} {s : State} (h : BasinWf s) : BasinWf (regridLane l s) :=
  ite_wf (setMap_wf (setMap_wf h)) (changeMap_wf (gridNow_wf (setMap_wf h)))

theorem reloadMere_wf {s : State} (h : BasinWf s) : BasinWf (reloadMere s) :=
  ite_wf (mereStart_wf (setMere_wf h)) (setMere_wf (setMere_wf h))

theorem settleCoeffs_wf {s : State} (h : BasinWf s) : BasinWf (settleCoeffs s) := foldl_wf (fun _ _ h1 => endWith_wf h1) h _
theorem endMemberConflict_wf {s : State} (h : BasinWf s) : BasinWf (endMemberConflict s) := h.update

theorem takeOrigins_wf {before : State} {s : State} (h'1 : BasinWf s) : BasinWf (takeOrigins before s) :=
  foldl_wf (fun _ _ h1 => ite_wf (setEcho_wf h1) h1) (foldl_wf (fun _ _ h1 => ite_wf (takeOrg_wf h1) h1) h'1 _) _

theorem reloadLeds_wf {before : State} {s : State} (h'1 : BasinWf s) : BasinWf (reloadLeds before s) :=
  foldl_wf (fun _ _ h1 => ite_wf h1 (setLed_wf (setCfgF_wf (setCfgF_wf h1)))) h'1 _

theorem dropExposures_wf {s : State} (h : BasinWf s) : BasinWf (dropExposures s) := h.update

theorem applyReload_wf {use c} {s : State} (h : BasinWf s) : BasinWf (applyReload use c s) :=
  raise_wf ((ite_wf (wakeLanes_wf (writeSources_wf (reloadMere_wf (takePps_wf (takeCommon_wf (dropExposures_wf (foldl_wf
      (fun _ _ h1 => regridLane_wf h1) (foldl_wf (fun _ _ h1 => setLane_wf h1) (reloadLeds_wf (takeOrigins_wf
      ((settleCoeffs_wf h).update))) _) _))))))) (endMemberConflict_wf (wakeLanes_wf (writeSources_wf (reloadMere_wf (takePps_wf
      (takeCommon_wf (dropExposures_wf (foldl_wf (fun _ _ h1 => regridLane_wf h1) (foldl_wf (fun _ _ h1 => setLane_wf h1) (reloadLeds_wf
      (takeOrigins_wf ((settleCoeffs_wf h).update))) _) _))))))))).update)

/-! ### Machine/ProfileCmds -/

theorem setProfile_wf {f} {s : State} (h : BasinWf s) : BasinWf (setProfile f s) := h.update
theorem noteBad_wf {c} {s : State} (h : BasinWf s) : BasinWf (noteBad c s) := setProfile_wf h

theorem noteSelection_wf {x} {s : State} (h : BasinWf s) : BasinWf (noteSelection x s) :=
  ite_wf (raise_wf (setProfile_wf (noteBad_wf h))) (setProfile_wf (noteBad_wf h))

theorem takeProfile_wf {use c} {s : State} (h : BasinWf s) : BasinWf (takeProfile use c s) := startWaiting_wf (applyStart_wf h)
theorem profileDone_wf {cmd st} {s : State} (h : BasinWf s) : BasinWf (profileDone cmd st s) := setProfile_wf h
theorem writeDone_wf {st target gen} {s : State} (h : BasinWf s) : BasinWf (writeDone st target gen s) := raise_wf (profileDone_wf h)
theorem setCopy_wf {target bs} {s : State} (h : BasinWf s) : BasinWf (setCopy target bs s) := setProfile_wf h
theorem setCause_wf {target cause} {s : State} (h : BasinWf s) : BasinWf (setCause target cause s) := setProfile_wf h

theorem profileWrite_wf {s : State} (h : BasinWf s) : BasinWf (profileWrite s) := by
  unfold profileWrite
  refine ite_wf (writeDone_wf h) ?_
  refine ite_wf (writeDone_wf h) ?_
  split
  · exact writeDone_wf (setCause_wf (eccUe_wf h))
  · exact ite_wf (writeDone_wf (ite_wf (setCause_wf (touchBasin_wf h)) (noteBad_wf (setCause_wf (touchBasin_wf h))))) (setCopy_wf
        (setProfile_wf (ite_wf (setCause_wf (touchBasin_wf h)) (noteBad_wf (setCause_wf (touchBasin_wf h))))))

theorem freeBytes_wf {n} {s : State} (h : BasinWf s) : BasinWf (freeBytes n s).2 := takeFree_wf h

theorem profileWriteDone_wf {result} {s : State} (h : BasinWf s) : BasinWf (profileWriteDone result s) := by
  unfold profileWriteDone
  dsimp only
  split
  · exact h
  · exact ite_wf (writeDone_wf (setCopy_wf (setProfile_wf h))) (writeDone_wf (setCopy_wf (freeBytes_wf (setProfile_wf h))))

theorem reloadDone_wf {st} {s : State} (h : BasinWf s) : BasinWf (reloadDone st s) := raise_wf (profileDone_wf h)

theorem profileReload_wf {s : State} (h : BasinWf s) : BasinWf (profileReload s) :=
  ite_wf (reloadDone_wf h) (ite_wf (reloadDone_wf h) (ite_wf (reloadDone_wf h) (ite_wf (reloadDone_wf (noteSelection_wf h)) (ite_wf
      (reloadDone_wf (applyReload_wf (noteSelection_wf h))) (reloadDone_wf (takeProfile_wf (noteSelection_wf h)))))))

/-! ### Machine/Startup -/

theorem setBoot_wf {f} {s : State} (h : BasinWf s) : BasinWf (setBoot f s) := h.update

theorem enterPhase_wf {ph} {s : State} (h : BasinWf s) : BasinWf (enterPhase ph s) :=
  ite_wf (fireVector_wf (ite_wf ((setBoot_wf h).update) (setBoot_wf h))) (ite_wf ((setBoot_wf h).update) (setBoot_wf h))

theorem setError_wf {e} {s : State} (h : BasinWf s) : BasinWf (setError e s) := setBoot_wf h
theorem vinRise_wf {s : State} (h : BasinWf s) : BasinWf (vinRise s) := ite_wf h (ite_wf (restart_wf h) (hold_wf h))

theorem vinFall_wf {below6} {s : State} (h : BasinWf s) : BasinWf (vinFall below6 s) := by
  unfold vinFall
  split
  · exact h
  · exact ite_wf (hold_wf h) h
  · exact hold_wf h
  · exact hold_wf h
  · exact hold_wf h

theorem resetNLow_wf {s : State} (h : BasinWf s) : BasinWf (resetNLow s) := ite_wf (hold_wf h.update) h.update
theorem tryRelease_wf {s : State} (h : BasinWf s) : BasinWf (tryRelease s) := ite_wf (release_wf h) h
theorem resetNRise_wf {s : State} (h : BasinWf s) : BasinWf (resetNRise s) := tryRelease_wf h.update
theorem refclkLost_wf {s : State} (h : BasinWf s) : BasinWf (refclkLost s) := ite_wf h ((hold_wf (beamsOff_wf h)).update)
theorem refclkRestored_wf {outUs} {s : State} (h : BasinWf s) : BasinWf (refclkRestored outUs s) := ite_wf h (tryRelease_wf h.update)

theorem dramTrainDone_wf {ok} {s : State} (h : BasinWf s) : BasinWf (dramTrainDone ok s) :=
  ite_wf h (ite_wf (enterPhase_wf (setBoot_wf h)) (ite_wf (setBoot_wf h) (enterPhase_wf (setError_wf (setBoot_wf h)))))

theorem ethSpeedTry_wf {lock} {s : State} (h : BasinWf s) : BasinWf (ethSpeedTry lock s) :=
  ite_wf h (ite_wf (setBoot_wf h) (setBoot_wf h))

theorem goNow_wf {len path} {s : State} (h : BasinWf s) : BasinWf (goNow len path s) := setBoot_wf h
theorem bootGo_wf {s : State} (h : BasinWf s) : BasinWf (bootGo s) := ite_wf (accessError_wf h) (ite_wf (accessError_wf h) (goNow_wf h))
theorem bootClear_wf {s : State} (h : BasinWf s) : BasinWf (bootClear s) := setBoot_wf h
theorem loadSeg_wf {img : State} {g} {s : State} (h'1 : BasinWf s) : BasinWf (loadSeg img g s) := memPut_wf _ _ h'1

theorem imageVerifyDone_wf {s : State} (h : BasinWf s) : BasinWf (imageVerifyDone s) := by
  have he : BasinWf ((poisonIn 0 s.boot.goLen s).elim s fun a => eccUe 32 a s) := by
    cases poisonIn 0 s.boot.goLen s with
    | none => exact h
    | some a => exact eccUe_wf h
  unfold imageVerifyDone
  exact ite_wf h (ite_wf (enterPhase_wf (setError_wf (setBoot_wf (ite_wf he h))))
    (enterPhase_wf (setBoot_wf (foldl_wf (fun _ _ h1 => loadSeg_wf h1) h _))))

theorem coreStartTimeout_wf {s : State} (h : BasinWf s) : BasinWf (coreStartTimeout s) := ite_wf h (enterPhase_wf (setError_wf h))

theorem firmwareAlive_wf {s : State} (h : BasinWf s) : BasinWf (firmwareAlive s) :=
  ite_wf h (wakeLanes_wf (foldl_wf (fun _ _ h1 => enumeration_wf h1) (ite_wf (recDue_wf (foldl_wf (fun _ _ h1 => raise_wf h1) (raise_wf
      ((setBoot_wf h).update)) _)) (foldl_wf (fun _ _ h1 => raise_wf h1) (raise_wf ((setBoot_wf h).update)) _)) _))

theorem profileReadDone_wf {s : State} (h : BasinWf s) : BasinWf (profileReadDone s) :=
  ite_wf h (ite_wf (raise_wf (enterPhase_wf (setError_wf (noteSelection_wf h)))) (takeProfile_wf (noteSelection_wf h)))

theorem fwWatchdog_wf {s : State} (h : BasinWf s) : BasinWf (fwWatchdog s) := ite_wf h (firmwareReset_wf h.update)

theorem partnerWaitEnd_wf {s : State} (h : BasinWf s) : BasinWf (partnerWaitEnd s) :=
  ite_wf h (ite_wf h (calAtStart_wf (ite_wf (setBoot_wf h) (raise_wf (setBoot_wf h)))))

theorem commitRollback_wf {s : State} (h : BasinWf s) : BasinWf (commitRollback s) := by
  unfold commitRollback
  split
  · exact ite_wf (raise_wf h.update) h
  · exact h

theorem readyLocal_wf {s : State} (h : BasinWf s) : BasinWf (readyLocal s) :=
  ite_wf h (updateSynced_wf (commitRollback_wf (raise_wf ((setBoot_wf h).update))))

theorem perstLow_wf {s : State} (h : BasinWf s) : BasinWf (perstLow s) := pcieDown_wf h.update
theorem arpRequest_wf {ip} {s : State} (h : BasinWf s) : BasinWf (arpRequest ip s) := ite_wf h.update h

/-! ### Machine/PowerCmds -/

theorem setPower_wf {f} {s : State} (h : BasinWf s) : BasinWf (setPower f s) := h.update

theorem powerCommand_wf {key bad barred run} {s : State} (hf3 : ∀ x0, BasinWf x0 → BasinWf (run x0)) (h : BasinWf s) :
    BasinWf (powerCommand key bad barred run s) :=
  ite_wf (accessError_wf h) (ite_wf (accessError_wf h) (ite_wf (accessError_wf h) (hf3 _ h)))

theorem moduleReset_wf {s : State} (h : BasinWf s) : BasinWf (moduleReset s) :=
  ite_wf (setBoot_wf (restart_wf (forceSafe_wf h))) (restart_wf (forceSafe_wf h))

theorem laneBlockReset_wf {l} {s : State} (h : BasinWf s) : BasinWf (laneBlockReset l s) :=
  ite_wf (setLane_wf (stopLane_wf (killLane_wf (ite_wf (cutMark_wf (noteFault_wf (writeTail_wf (ite_wf (flushCut_wf h) h)))) h))))
      (faultAll_wf (breakSync_wf (faultPolicy_wf (laneEvent_wf (setLane_wf (setLane_wf (stopLane_wf (killLane_wf (ite_wf (cutMark_wf
      (noteFault_wf (writeTail_wf (ite_wf (flushCut_wf h) h)))) h)))))))))

theorem tarnBlockReset_wf {t} {s : State} (h : BasinWf s) : BasinWf (tarnBlockReset t s) :=
  ((foldl_wf (fun _ _ h1 => laneBlockReset_wf h1) h _).update).updateBasin

theorem portBlockReset_wf {p} {s : State} (h : BasinWf s) : BasinWf (portBlockReset p s) := setPort_wf (loseFrom_wf h)

theorem pipeBlockReset_wf {s : State} (h : BasinWf s) : BasinWf (pipeBlockReset s) :=
  foldl_wf (fun _ _ h1 => endFrame_wf (setFrame_wf h1)) (camSettle_wf h) _

theorem zipBlockReset_wf {c} {s : State} (h : BasinWf s) : BasinWf (zipBlockReset c s) := setZip_wf (zipAbort_wf h)

theorem axisBlockReset_wf {a} {s : State} (h : BasinWf s) : BasinWf (axisBlockReset a s) := by
  unfold axisBlockReset
  refine ite_wf ?_ (settleAxis_wf (setAxis_wf (beginStop_wf (dropPending_wf h))))
  refine setAxis_wf ?_
  split
  · exact finishIn_wf (dropPending_wf h)
  · exact dropPending_wf h

theorem blockReset_wf {s : State} (h : BasinWf s) : BasinWf (blockReset s) := by
  unfold blockReset
  dsimp only
  split
  · exact laneBlockReset_wf (setPower_wf h)
  · exact tarnBlockReset_wf (setPower_wf h)
  · exact portBlockReset_wf (setPower_wf h)
  · exact camBlockReset_wf (camSettle_wf (setPower_wf h))
  · exact pipeBlockReset_wf (setPower_wf h)
  · exact zipBlockReset_wf (setPower_wf h)
  · exact axisBlockReset_wf (setPower_wf h)
  · exact setPower_wf h

theorem putPulse_wf {x} {s : State} (h : BasinWf s) : BasinWf (putPulse x s) := setPower_wf h
theorem pulseArrive_wf {u n} {s : State} (h : BasinWf s) : BasinWf (pulseArrive u n s) := ite_wf h (putPulse_wf h)

theorem pulseHandshake_wf {u} {s : State} (h : BasinWf s) : BasinWf (pulseHandshake u s) :=
  ite_wf (ite_wf h (putPulse_wf h)) (ite_wf (raise_wf (setPower_wf (putPulse_wf h))) (setPower_wf (putPulse_wf h)))

theorem pulseDrop_wf {u} {s : State} (h : BasinWf s) : BasinWf (pulseDrop u s) := ite_wf h (putPulse_wf h)

theorem xingResync_wf {u dropped events} {s : State} (h : BasinWf s) : BasinWf (xingResync u dropped events s) :=
  ite_wf (ite_wf (pulseDrop_wf (setPower_wf (pulseArrive_wf h))) (pulseHandshake_wf (setPower_wf (pulseArrive_wf h)))) (ite_wf
      (laneToIdle_wf (ite_wf (pulseDrop_wf (setPower_wf (pulseArrive_wf h))) (pulseHandshake_wf (setPower_wf (pulseArrive_wf h)))))
      (ite_wf (foldl_wf (fun _ _ h1 => laneToIdle_wf h1) (ite_wf (pulseDrop_wf (setPower_wf (pulseArrive_wf h))) (pulseHandshake_wf
      (setPower_wf (pulseArrive_wf h)))) _) (ite_wf (pulseDrop_wf (setPower_wf (pulseArrive_wf h))) (pulseHandshake_wf (setPower_wf
      (pulseArrive_wf h))))))

theorem accessTimeout_wf {off read} {s : State} (h : BasinWf s) : BasinWf (accessTimeout off read s) :=
  ite_wf ((ite_wf (raise_wf (accessError_wf (setPower_wf h))) (accessError_wf (setPower_wf h))).update) (ite_wf (raise_wf
      (accessError_wf (setPower_wf h))) (accessError_wf (setPower_wf h)))

theorem beginEntry_wf {kind byPin} {s : State} (h : BasinWf s) : BasinWf (beginEntry kind byPin s) :=
  recDue_wf (axesToRest_wf (beamsOff_wf (ite_wf (raise_wf (dropOwners_wf (endAll_wf (setPower_wf h)))) (raise_wf (dropOwners_wf
      (endAll_wf (setPower_wf h)))))))

theorem powerEntryDone_wf {s : State} (h : BasinWf s) : BasinWf (powerEntryDone s) :=
  ite_wf (setPower_wf (hold_wf h)) (ite_wf (setPower_wf (hold_wf h)) h)

theorem heldIfReset_wf {s : State} (h : BasinWf s) : BasinWf (heldIfReset s) := ite_wf h h.update

theorem leaveStandby_wf {c} {s : State} (h : BasinWf s) : BasinWf (leaveStandby c s) :=
  heldIfReset_wf (ite_wf (setPower_wf (release_wf h)) ((setPower_wf (release_wf h)).update))

theorem wakeNow_wf {c} {s : State} (h : BasinWf s) : BasinWf (wakeNow c s) :=
  ite_wf (leaveStandby_wf h) (ite_wf (heldIfReset_wf (restart_wf h)) h)

theorem wakeEvent_wf {c} {s : State} (h : BasinWf s) : BasinWf (wakeEvent c s) := ite_wf h (ite_wf (wakeNow_wf h) (setPower_wf h))

theorem wakeSourcesArmed_wf {s : State} (h : BasinWf s) : BasinWf (wakeSourcesArmed s) := by
  unfold wakeSourcesArmed
  dsimp only
  refine ite_wf ?_ h
  split
  · exact wakeNow_wf (setPower_wf h)
  · exact setPower_wf h

theorem perstRise_wf {s : State} (h : BasinWf s) : BasinWf (perstRise s) := wakeEvent_wf h.update
theorem hibWake_wf {high} {s : State} (h : BasinWf s) : BasinWf (hibWake high s) := ite_wf (wakeEvent_wf h.update) h.update

theorem hibReqN_wf {lowMs} {s : State} (h : BasinWf s) : BasinWf (hibReqN lowMs s) :=
  ite_wf (setPower_wf h.update) (ite_wf h.update (ite_wf h.update (beginEntry_wf (setPower_wf (ite_wf (endJob_wf (ite_wf (flushMarks_wf
      (cutMarks_wf h.update)) h.update)) h.update)))))

/-! ### Machine/Housekeeping -/

theorem tempWarn_wf {group slots set clear was put} {s : State} (h : BasinWf s) : BasinWf (tempWarn group slots set clear was put s) := by
  unfold tempWarn
  split
  · exact h
  · exact ite_wf (raise_wf (setHk_wf h)) (ite_wf (raise_wf (setHk_wf h)) h)

theorem tempWarns_wf {s : State} (h : BasinWf s) : BasinWf (tempWarns s) := by
  unfold tempWarns
  exact tempWarn_wf (tempWarn_wf (tempWarn_wf h))

theorem supplyWarn_wf {which beyond safe was data put} {s : State} (h : BasinWf s) :
    BasinWf (supplyWarn which beyond safe was data put s) :=
  ite_wf (ite_wf (recSupply_wf (raise_wf (setHk_wf h))) (raise_wf (setHk_wf h))) (ite_wf (raise_wf (setHk_wf h)) h)

theorem railWarn_wf {s : State} {k} (h : BasinWf s) : BasinWf (railWarn s k) := by
  unfold railWarn
  exact supplyWarn_wf h

theorem supplyWarns_wf {s : State} (h : BasinWf s) : BasinWf (supplyWarns s) :=
  foldl_wf (fun _ _ h1 => railWarn_wf h1) (supplyWarn_wf (supplyWarn_wf (supplyWarn_wf h))) _

theorem levelFalls_wf {s : State} (h : BasinWf s) : BasinWf (levelFalls s) := ite_wf (setLevel_wf h) h

theorem throttleTimer_wf {s : State} (h : BasinWf s) : BasinWf (throttleTimer s) :=
  ite_wf (setLevel_wf h) (ite_wf (levelFalls_wf (setHk_wf h)) h)

theorem throttleRound_wf {s : State} (h : BasinWf s) : BasinWf (throttleRound s) :=
  ite_wf (setLevel_wf (setHk_wf h)) (ite_wf (setLevel_wf (setHk_wf h)) (ite_wf (levelFalls_wf (setHk_wf h)) (throttleTimer_wf
      (setHk_wf h))))

theorem shutdown_wf {cause slot} {s : State} (h : BasinWf s) : BasinWf (shutdown cause slot s) :=
  recDue_wf (jobReset_wf (forceSafe_wf (setPower_wf (ite_wf (raise_wf (setHk_wf h)) (raise_wf (setHk_wf h))))))

theorem dieOff_wf {s : State} (h : BasinWf s) : BasinWf (dieOff s) := by
  unfold dieOff
  split
  · exact h
  · exact ite_wf (setHk_wf (hold_wf h)) h

theorem recRound_wf {s : State} (h : BasinWf s) : BasinWf (recRound s) := h.update

theorem calRound_wf {s : State} (h : BasinWf s) : BasinWf (calRound s) :=
  calTrigger_wf (foldl_wf (fun _ _ h1 => calTrigger_wf h1) (foldl_wf (fun _ _ h1 => calTrigger_wf h1) (renewEyes_wf (foldl_wf
      (fun _ _ h1 => renewLane_wf h1) h _)) _) _)

theorem hkRound_wf {reads} {s : State} (h : BasinWf s) : BasinWf (hkRound reads s) := by
  unfold hkRound
  refine ite_wf h ?_
  extract_lets u v w
  have hv : BasinWf v := by
    unfold v
    split
    · exact setHk_wf (setHk_wf h)
    · exact setHk_wf h
  have hr := supplyWarns_wf (tempWarns_wf (recRound_wf hv))
  refine ite_wf (ite_wf (setBoot_wf hv) hv) (ite_wf hv ?_)
  split
  · exact shutdown_wf hr
  · exact ite_wf (calRound_wf (throttleRound_wf hr)) (throttleRound_wf hr)

/-! ### Machine/Membership -/

theorem setMembers_wf {f} {s : State} (h : BasinWf s) : BasinWf (setMembers f s) := h.update
theorem helloSend_wf {s : State} (h : BasinWf s) : BasinWf (helloSend s) := ite_wf (sendControl_wf h) h
theorem enterConflict_wf {byId} {s : State} (h : BasinWf s) : BasinWf (enterConflict byId s) := setBoot_wf (setMembers_wf h)

theorem conflictFrom_wf {q byId} {s : State} (h : BasinWf s) : BasinWf (conflictFrom q byId s) :=
  ite_wf (setPeer_wf (ite_wf (setMembers_wf h) (ite_wf (raise_wf (setMembers_wf h)) (raise_wf (setMembers_wf h))))) (ite_wf (ite_wf
      (setMembers_wf h) (ite_wf (raise_wf (setMembers_wf h)) (raise_wf (setMembers_wf h)))) (enterConflict_wf (ite_wf (setMembers_wf h)
      (ite_wf (raise_wf (setMembers_wf h)) (raise_wf (setMembers_wf h))))))

theorem acceptLeader_wf {member moduleId term} {s : State} (h : BasinWf s) : BasinWf (acceptLeader member moduleId term s) :=
  raise_wf (setMembers_wf h)

theorem leaderReceive_wf {q} {s : State} (h : BasinWf s) : BasinWf (leaderReceive q s) :=
  ite_wf h (ite_wf (setMembers_wf h) (ite_wf h (ite_wf (acceptLeader_wf (setMembers_wf h)) (setMembers_wf h))))

theorem leaderElection_wf {s : State} (h : BasinWf s) : BasinWf (leaderElection s) := ite_wf h (sendControl_wf (acceptLeader_wf h))

theorem helloFrom_wf {q} {s : State} (h : BasinWf s) : BasinWf (helloFrom q s) :=
  tryStart_wf (ite_wf (settleHold_wf (setMembers_wf (ite_wf (acceptLeader_wf (setMembers_wf (setMember_wf h))) (setMembers_wf
      (setMember_wf h))))) (ite_wf (acceptLeader_wf (setMembers_wf (setMember_wf h))) (setMembers_wf (setMember_wf h))))

theorem helloReceive_wf {q} {s : State} (h : BasinWf s) : BasinWf (helloReceive q s) :=
  ite_wf h (ite_wf (setMembers_wf h) (ite_wf (ite_wf h (conflictFrom_wf h)) (ite_wf (conflictFrom_wf h) (ite_wf (helloFrom_wf h) h))))

theorem holdForLoss_wf {s : State} (h : BasinWf s) : BasinWf (holdForLoss s) := settleHold_wf (setMembers_wf h)

theorem memberLost_wf {m} {s : State} (h : BasinWf s) : BasinWf (memberLost m s) :=
  ite_wf h (ite_wf (ite_wf (holdForLoss_wf (raise_wf (setMembers_wf (raise_wf (setMember_wf h))))) (setMembers_wf (raise_wf
      (setMember_wf h)))) (ite_wf (holdForLoss_wf (raise_wf (setMember_wf h))) (raise_wf (setMember_wf h))))

/-! ### Machine/RegRead -/

theorem regAccess_wf {o} {s : State} (h : BasinWf s) : BasinWf (regAccess o s).2 := by
  unfold regAccess
  split <;> exact h.update

theorem regMachine_wf {o} {s : State} (h : BasinWf s) : BasinWf (regMachine o s).2 := by
  unfold regMachine
  split
  · exact h
  · exact h
  · exact setMembers_wf h

theorem regPermit_wf {s : State} (h : BasinWf s) : BasinWf (regPermit s).2 := h.update

theorem regJob_wf {o} {s : State} (h : BasinWf s) : BasinWf (regJob o s).2 := by
  unfold regJob
  split
  · exact h
  · exact h
  · exact h
  · exact h
  · exact h
  · exact h
  · exact h
  · exact setJobs_wf h
  · exact h
  · exact h
  · exact h
  · exact h
  · exact h
  · exact h
  · exact h
  · exact h
  · exact h

theorem regGlobal_wf {o} {s : State} (h : BasinWf s) : BasinWf (regGlobal o s).2 := by
  unfold regGlobal
  split
  · exact h
  · exact h
  · exact h
  · exact h
  · exact h
  · exact h
  · exact h.update
  · exact h
  · exact h
  · exact h
  · exact h
  · exact h
  · exact h
  · exact h
  · exact h
  · exact h
  · exact h
  · exact h
  · exact h
  · exact ite_snd_wf (regAccess_wf h) (ite_snd_wf h (ite_snd_wf (regMachine_wf h) (ite_snd_wf h (ite_snd_wf h (ite_snd_wf
        (regPermit_wf h) (ite_snd_wf (regJob_wf h) h))))))

theorem regStill_wf {o} {s : State} (h : BasinWf s) : BasinWf (regStill o s).2 := by
  unfold regStill
  split
  · exact h
  · exact h.update
  · exact h
  · exact h
  · exact h
  · exact h
  · exact h.update
  · exact h

theorem regLane_wf {l o} {s : State} (h : BasinWf s) : BasinWf (regLane l o s).2 := by
  unfold regLane
  dsimp only
  split
  · exact h
  · exact h
  · exact h
  · exact h
  · exact setLane_wf h
  · exact h
  · exact h
  · exact h
  · exact h
  · exact h
  · exact h
  · exact h
  · exact setLane_wf h
  · exact setLane_wf h
  · exact setLane_wf h
  · exact h
  · exact h
  · exact h
  · split <;> exact h
  · exact h
  · exact h
  · exact h
  · exact setLane_wf h
  · exact setLane_wf h
  · exact setLane_wf h
  · exact h
  · exact h

theorem regTarn_wf {t o} {s : State} (h : BasinWf s) : BasinWf (regTarn t o s).2 := by
  unfold regTarn
  refine ite_snd_wf (regLane_wf h) ?_
  split
  · exact h
  · exact h.update
  · exact h

theorem regMere_wf {o} {s : State} (h : BasinWf s) : BasinWf (regMere o s).2 := by
  unfold regMere
  split
  · exact h
  · exact h
  · exact h
  · exact h
  · exact setMere_wf h
  · exact h
  · exact h
  · exact h
  · exact h
  · exact setMere_wf h
  · exact setMere_wf h
  · exact h
  · exact setMere_wf h
  · exact h
  · exact h
  · exact h
  · exact h
  · exact h

theorem regPeer_wf {m k} {s : State} (h : BasinWf s) : BasinWf (regPeer m k s).2 := by
  unfold regPeer
  dsimp only
  split
  · exact h
  · exact h
  · exact h
  · exact h
  · exact setPeer_wf h
  · exact h

theorem regProx_wf {o} {s : State} (h : BasinWf s) : BasinWf (regProx o s).2 := by
  unfold regProx
  refine ite_snd_wf h ?_
  refine ite_snd_wf h ?_
  refine ite_snd_wf (regPeer_wf h) ?_
  split
  · exact h
  · exact h
  · exact h
  · exact h
  · exact setProx_wf h
  · exact setProx_wf h
  · exact setProx_wf h
  · exact h

theorem regClock_wf {o} {s : State} (h : BasinWf s) : BasinWf (regClock o s).2 := by
  unfold regClock
  split
  · exact h
  · exact setClock_wf h
  · exact h
  · exact h
  · exact h
  · exact h
  · exact h
  · exact h
  · exact h
  · exact h
  · exact h
  · exact h
  · exact h
  · exact setClock_wf h
  · exact h
  · exact setClock_wf h
  · exact h

theorem regTrigOut_wf {n k} {s : State} (h : BasinWf s) : BasinWf (regTrigOut n k s).2 := by
  unfold regTrigOut
  split
  · exact h
  · exact h
  · exact h
  · exact h
  · exact setTrig_wf h
  · exact h
  · exact setTrig_wf h
  · exact h

theorem regTrigIn_wf {n k} {s : State} (h : BasinWf s) : BasinWf (regTrigIn n k s).2 := by
  unfold regTrigIn
  split
  · exact h
  · exact h
  · exact setTrigIn_wf h
  · exact h

theorem regTime_wf {o} {s : State} (h : BasinWf s) : BasinWf (regTime o s).2 := by
  unfold regTime
  refine ite_snd_wf (regClock_wf h) ?_
  refine ite_snd_wf (regTrigOut_wf h) ?_
  refine ite_snd_wf (regTrigIn_wf h) ?_
  split
  · exact h
  · exact h
  · exact h
  · exact h
  · exact setRipple_wf h
  · exact setRipple_wf h
  · exact h
  · exact h

theorem regNode_wf {p hd k} {s : State} (h : BasinWf s) : BasinWf (regNode p hd k s).2 := by
  unfold regNode
  split
  · exact h
  · exact h
  · exact h
  · exact h
  · exact h
  · exact h
  · exact h
  · exact h
  · exact setNode_wf h
  · exact h
  · exact h
  · exact h

theorem regPort_wf {p o} {s : State} (h : BasinWf s) : BasinWf (regPort p o s).2 := by
  unfold regPort
  refine ite_snd_wf (regNode_wf h) ?_
  split
  · exact h
  · exact h
  · exact h
  · exact setPort_wf h
  · exact setPort_wf h
  · exact setPort_wf h
  · exact setPort_wf h
  · exact setPort_wf h
  · exact h

theorem regAxis_wf {a o} {s : State} (h : BasinWf s) : BasinWf (regAxis a o s).2 := by
  unfold regAxis
  refine ite_snd_wf h ?_
  split
  · exact h
  · exact setAxis_wf h
  · exact h
  · exact h
  · exact h
  · exact h
  · exact h
  · exact h
  · exact h

theorem regAxes_wf {o} {s : State} (h : BasinWf s) : BasinWf (regAxes o s).2 := ite_snd_wf (regAxis_wf h) h

theorem regEnc_wf {e o} {s : State} (h : BasinWf s) : BasinWf (regEnc e o s).2 := by
  unfold regEnc
  refine ite_snd_wf h ?_
  split
  · exact h
  · exact h
  · exact setEnc_wf h
  · exact h
  · exact h
  · exact h
  · exact setEnc_wf h
  · exact setEnc_wf h
  · exact setEnc_wf h
  · exact h

theorem regHall_wf {g k} {s : State} (h : BasinWf s) : BasinWf (regHall g k s).2 := by
  unfold regHall
  split
  · exact h
  · exact h
  · exact setHall_wf h
  · exact h
  · exact h
  · exact setHall_wf h
  · exact h

theorem regCmp_wf {k o} {s : State} (h : BasinWf s) : BasinWf (regCmp k o s).2 := by
  unfold regCmp
  split
  · exact h
  · exact h
  · exact setCmp_wf h
  · exact h
  · exact h
  · exact h
  · exact h
  · exact h
  · exact h
  · exact setCmp_wf h
  · exact h

theorem regEcho_wf {k o} {s : State} (h : BasinWf s) : BasinWf (regEcho k o s).2 := by
  unfold regEcho
  split <;> exact h

theorem regEncs_wf {o} {s : State} (h : BasinWf s) : BasinWf (regEncs o s).2 :=
  ite_snd_wf (regEnc_wf h) (ite_snd_wf (regHall_wf h) (ite_snd_wf (regCmp_wf h) (ite_snd_wf (regEcho_wf h) h)))

theorem regCam_wf {p o} {s : State} (h : BasinWf s) : BasinWf (regCam p o s).2 := by
  unfold regCam
  refine ite_snd_wf h ?_
  split
  · exact h
  · exact h
  · exact h
  · exact h
  · exact h
  · exact h
  · exact h
  · exact setCam_wf h
  · exact setCam_wf h
  · exact setCam_wf h
  · exact setCam_wf h
  · exact h

theorem regIsp_wf {o} {s : State} (h : BasinWf s) : BasinWf (regIsp o s).2 := ite_snd_wf h h

theorem regLed_wf {c o} {s : State} (h : BasinWf s) : BasinWf (regLed c o s).2 := by
  unfold regLed
  split
  · exact h
  · exact h
  · exact h.update
  · exact ite_snd_wf h h

theorem regLeds_wf {o} {s : State} (h : BasinWf s) : BasinWf (regLeds o s).2 :=
  ite_snd_wf (ite_snd_wf (regLed_wf h) h) (ite_snd_wf (setMatrix_wf h) (ite_snd_wf h h))

theorem regScene_wf {k o} {s : State} (h : BasinWf s) : BasinWf (regScene k o s).2 := by
  unfold regScene
  split
  · exact h
  · exact h
  · exact h
  · exact setScene_wf h
  · exact h
  · exact h

theorem regEdp_wf {o} {s : State} (h : BasinWf s) : BasinWf (regEdp o s).2 := by
  unfold regEdp
  split
  · exact h
  · exact h
  · exact h
  · exact h.update
  · exact h

theorem regCompose_wf {o} {s : State} (h : BasinWf s) : BasinWf (regCompose o s).2 :=
  ite_snd_wf (regScene_wf h) (ite_snd_wf (regEdp_wf h) h)

theorem regZipChan_wf {c k} {s : State} (h : BasinWf s) : BasinWf (regZipChan c k s).2 := by
  unfold regZipChan
  split
  · exact h
  · exact h
  · exact h
  · exact h
  · exact h
  · exact setZip_wf h
  · exact setZip_wf h
  · exact h

theorem regZip_wf {o} {s : State} (h : BasinWf s) : BasinWf (regZip o s).2 := ite_snd_wf h (ite_snd_wf (regZipChan_wf h) (ite_snd_wf h h))

theorem regRt_wf {p k} {s : State} (h : BasinWf s) : BasinWf (regRt p k s).2 := by
  unfold regRt
  split
  · exact h
  · exact setRt_wf h
  · exact setRt_wf h
  · exact h

theorem regBasin_wf {o} {s : State} (h : BasinWf s) : BasinWf (regBasin o s).2 := by
  unfold regBasin
  refine ite_snd_wf (regRt_wf h) ?_
  split
  · exact h
  · exact h
  · exact h
  · exact h
  · exact h
  · exact h
  · exact h
  · exact h
  · exact h
  · exact h
  · exact h.updateBasin
  · exact h
  · exact h.updateBasin
  · exact h
  · exact h.updateBasin
  · exact h.updateBasin
  · exact h.updateBasin
  · exact h
  · exact h.updateBasin
  · exact h
  · exact h

theorem regHkCal_wf {k o} {s : State} (h : BasinWf s) : BasinWf (regHkCal k o s).2 := by
  unfold regHkCal
  split
  · exact h
  · exact h
  · exact setKind_wf h
  · exact h
  · exact h
  · exact setKind_wf h
  · exact h

theorem regHk_wf {o} {s : State} (h : BasinWf s) : BasinWf (regHk o s).2 :=
  ite_snd_wf h (ite_snd_wf h (ite_snd_wf h (ite_snd_wf (regHkCal_wf h) (ite_snd_wf h h))))

theorem regRecorder_wf {o} {s : State} (h : BasinWf s) : BasinWf (regRecorder o s).2 := by
  unfold regRecorder
  refine ite_snd_wf (readWindow_wf h) ?_
  split
  · exact h
  · exact h
  · exact h
  · exact h
  · exact h
  · exact setRecorder_wf h
  · exact h

theorem regXing_wf {o} {s : State} (h : BasinWf s) : BasinWf (regXing o s).2 := by
  unfold regXing
  split
  · exact h
  · exact setPower_wf h
  · exact setPower_wf h
  · exact setPower_wf h
  · exact h
  · exact h

theorem regRead_wf {off} {s : State} (h : BasinWf s) : BasinWf (regRead off s).2 :=
  ite_snd_wf h (ite_snd_wf (regGlobal_wf h) (ite_snd_wf h (ite_snd_wf h (ite_snd_wf (regStill_wf h) (ite_snd_wf (regTarn_wf h)
      (ite_snd_wf (regMere_wf h) (ite_snd_wf (regProx_wf h) (ite_snd_wf (regTime_wf h) (ite_snd_wf (regPort_wf h) (ite_snd_wf h
      (ite_snd_wf (regAxes_wf h) (ite_snd_wf (regEncs_wf h) (ite_snd_wf (regCam_wf h) (ite_snd_wf (regIsp_wf h) (ite_snd_wf
      (regCompose_wf h) (ite_snd_wf (regZip_wf h) (ite_snd_wf (regLeds_wf h) (ite_snd_wf (regBasin_wf h) (ite_snd_wf (regHk_wf h)
      (ite_snd_wf (regRecorder_wf h) (regXing_wf h)))))))))))))))))))))

theorem readWord_wf {off} {s : State} (h : BasinWf s) : BasinWf (readWord off s).2.2 := by
  unfold readWord
  split
  · split
    · exact accessError_wf (setPower_wf h)
    · exact regRead_wf h
  · exact regRead_wf h

/-! ### Machine/Registers -/

theorem writePowerCmd_wf {v} {s : State} (h : BasinWf s) : BasinWf (writePowerCmd v s) := by
  unfold writePowerCmd
  dsimp only
  split
  · exact powerCommand_wf (fun _ => moduleReset_wf) h
  · exact powerCommand_wf (fun _ => firmwareReset_wf) h
  · exact powerCommand_wf (fun _ => blockReset_wf) h
  · exact powerCommand_wf (fun _ => beginEntry_wf) h
  · exact powerCommand_wf (fun _ => beginEntry_wf) h
  · exact powerCommand_wf (fun _ h1 => h1) h

theorem writeBootCmd_wf {v} {s : State} (h : BasinWf s) : BasinWf (writeBootCmd v s) := by
  unfold writeBootCmd
  split
  · exact bootGo_wf h
  · exact bootClear_wf h
  · exact h

theorem writeProfCmd_wf {v} {s : State} (h : BasinWf s) : BasinWf (writeProfCmd v s) := by
  unfold writeProfCmd
  refine ite_wf h ?_
  split
  · exact profileWrite_wf h
  · exact profileReload_wf h
  · exact h

theorem writeGlobalHost_wf {off v} {s : State} (h : BasinWf s) : BasinWf (writeGlobalHost off v s) := by
  unfold writeGlobalHost
  split
  · exact h.update
  · exact writeEventHead_wf h
  · exact clearNotify_wf h
  · exact clearNotify_wf h
  · exact setBoot_wf h
  · exact writeBootCmd_wf h
  · exact setProfile_wf h
  · exact setProfile_wf h
  · exact setProfile_wf h
  · exact writeProfCmd_wf h
  · exact writeCursor_wf h
  · exact writePowerCmd_wf h
  · exact setPower_wf h
  · exact ite_wf h (setPower_wf h)
  · exact reservedWrite_wf h

theorem writeCmdRing_wf {r k v} {s : State} (h : BasinWf s) : BasinWf (writeCmdRing r k v s) := by
  unfold writeCmdRing
  split
  · exact writeCmdBase_wf h
  · exact writeCmdBase_wf h
  · exact writeCmdCtrl_wf h
  · exact doorbell_wf h
  · exact h
  · exact h
  · exact reservedWrite_wf h

theorem writeComplRing_wf {c k v} {s : State} (h : BasinWf s) : BasinWf (writeComplRing c k v s) := by
  unfold writeComplRing
  split
  · exact writeCqBase_wf h
  · exact writeCqBase_wf h
  · exact writeCqCtrl_wf h
  · exact writeCqHead_wf h
  · exact h
  · exact writeCqInt_wf h
  · exact h
  · exact reservedWrite_wf h

theorem writeHostq_wf {o v} {s : State} (h : BasinWf s) : BasinWf (writeHostq o v s) :=
  ite_wf (writeCmdRing_wf h) (ite_wf (writeComplRing_wf h) (ite_wf (writeMsix_wf h) (ite_wf h (reservedWrite_wf h))))

theorem regWrite_wf {off v} {s : State} (h : BasinWf s) : BasinWf (regWrite off v s) :=
  ite_wf (reservedWrite_wf h) (ite_wf (writeGlobalHost_wf h) (ite_wf (writeHostq_wf h) (ownerReject_wf h)))

theorem writeWord_wf {off v} {s : State} (h : BasinWf s) : BasinWf (writeWord off v s).2 := by
  unfold writeWord
  split
  · exact ite_snd_wf (accessError_wf (setPower_wf h)) (regWrite_wf h)
  · exact regWrite_wf h

theorem answerRead_wf {off v} {s : State} (h : BasinWf s) : BasinWf (answerRead off v s) := h.update
theorem readOut_wf {off} {s : State} (h : BasinWf s) : BasinWf (readOut off s) := answerRead_wf (readWord_wf h)

theorem hostRead_wf {off len} {s : State} (h : BasinWf s) : BasinWf (hostRead off len s) :=
  ite_wf (readOut_wf h) (ite_wf (readOut_wf (readOut_wf h)) (answerRead_wf (badAccess_wf h)))

theorem hostWrite_wf {off len value} {s : State} (h : BasinWf s) : BasinWf (hostWrite off len value s) :=
  ite_wf (writeWord_wf h) (ite_wf (writeWord_wf (writeWord_wf h)) (badAccess_wf h))

theorem bar2Count_wf {a len} {s : State} (h : BasinWf s) : BasinWf (bar2Count a len s) := ite_wf h (badAccess_wf h)

theorem bar2Read_wf {a len} {s : State} (h : BasinWf s) : BasinWf (bar2Read a len s) :=
  (foldl_wf (fun _ _ h1 => eccFatal_wf (eccUe_wf h1)) (touchBasin_wf (bar2Count_wf h)) _).update

theorem noteStaged_wf {a n} {s : State} (h : BasinWf s) : BasinWf (noteStaged a n s) := ite_wf (setBoot_wf h) h

theorem bar2Write_wf {a bs} {s : State} (h : BasinWf s) : BasinWf (bar2Write a bs s) :=
  ite_wf (bar2Count_wf h) (noteStaged_wf (memWrite_wf (bar2Count_wf h)))

theorem bar2Access_wf {off len data} {s : State} (h : BasinWf s) : BasinWf (bar2Access off len data s) := by
  unfold bar2Access
  split
  · exact ite_wf h (bar2Read_wf h)
  · exact ite_wf h (bar2Write_wf h)

theorem eccCe_wf {s : State} {a} (h : BasinWf s) : BasinWf (eccCe s a) := ite_wf (raise_wf h.updateBasin) h.updateBasin

theorem scrubPass_wf {ce ue} {s : State} (h : BasinWf s) : BasinWf (scrubPass ce ue s) := by
  unfold scrubPass
  dsimp only
  refine ite_wf h ?_
  split
  · exact eccFatal_wf (foldl_wf (fun _ _ h1 => eccUe_wf h1) (foldl_wf (fun _ _ h1 => eccCe_wf h1) ((touchBasin_wf h).updateBasin) _) _)
  · exact foldl_wf (fun _ _ h1 => eccUe_wf h1) (foldl_wf (fun _ _ h1 => eccCe_wf h1) ((touchBasin_wf h).updateBasin) _) _

/-! ### Machine/Mgmt -/

theorem setMgmt_wf {f} {s : State} (h : BasinWf s) : BasinWf (setMgmt f s) := h.update
theorem mgmtDrop_wf {s : State} (h : BasinWf s) : BasinWf (mgmtDrop s) := h.update
theorem sendDatagram_wf {dst bs} {s : State} (h : BasinWf s) : BasinWf (sendDatagram dst bs s) := h.update

theorem answerMgmt_wf {kind st q data} {s : State} (h : BasinWf s) : BasinWf (answerMgmt kind st q data s) :=
  sendDatagram_wf (ite_wf (setMgmt_wf h) h)

theorem mgmtRequest_wf {kind run q} {s : State} (hf1 : ∀ x0, BasinWf x0 → BasinWf (run x0)) (h : BasinWf s) :
    BasinWf (mgmtRequest kind run q s) := by
  unfold mgmtRequest
  refine ite_wf h ?_
  refine ite_wf (mgmtDrop_wf h) ?_
  split
  · exact sendDatagram_wf h
  · exact hf1 _ h

theorem attachedOnly_wf {kind run q} {s : State} (hf1 : ∀ x0, BasinWf x0 → BasinWf (run x0)) (h : BasinWf s) :
    BasinWf (attachedOnly kind run q s) :=
  mgmtRequest_wf (fun _ h1 => ite_wf (hf1 _ h1) (answerMgmt_wf h1)) h

theorem readRegs_wf : ∀ {n off} {s : State}, BasinWf s → BasinWf (readRegs n off s).2.2
  | 0, _, _, h => h
  | n + 1, off, s, h => by
    unfold readRegs
    split
    · exact readRegs_wf (n := n) (badAccess_wf h)
    · dsimp only
      split
      · exact readWord_wf h
      · exact readRegs_wf (n := n) (readWord_wf h)

theorem writeRegs_wf : ∀ {n off bs} {s : State}, BasinWf s → BasinWf (writeRegs n off bs s).2
  | 0, _, _, _, h => h
  | n + 1, off, bs, s, h => by
    unfold writeRegs
    split
    · exact writeRegs_wf (badAccess_wf h)
    · dsimp only
      split
      · exact writeWord_wf h
      · exact writeRegs_wf (writeWord_wf h)

theorem mgmtRegRead_wf {q} {s : State} (h : BasinWf s) : BasinWf (mgmtRegRead q s) :=
  ite_wf (answerMgmt_wf h) (answerMgmt_wf (readRegs_wf h))

theorem mgmtRegWrite_wf {q} {s : State} (h : BasinWf s) : BasinWf (mgmtRegWrite q s) :=
  ite_wf (answerMgmt_wf h) (answerMgmt_wf (writeRegs_wf h))

theorem mgmtMemRead_wf {q} {s : State} (h : BasinWf s) : BasinWf (mgmtMemRead q s) := by
  unfold mgmtMemRead
  refine ite_wf (answerMgmt_wf h) ?_
  split
  · exact answerMgmt_wf (touchBasin_wf h)
  · exact answerMgmt_wf (foldl_wf (fun _ _ h1 => eccUe_wf h1) (touchBasin_wf h) _)

theorem mgmtMemWrite_wf {q} {s : State} (h : BasinWf s) : BasinWf (mgmtMemWrite q s) :=
  ite_wf (answerMgmt_wf h) (answerMgmt_wf (memWrite_wf h))

theorem mgmtAttach_wf {q} {s : State} (h : BasinWf s) : BasinWf (mgmtAttach q s) :=
  ite_wf (answerMgmt_wf h) (answerMgmt_wf (raise_wf (setMgmt_wf (ite_wf (endAttachment_wf h) h))))

theorem mgmtNotify_wf {s : State} (h : BasinWf s) : BasinWf (mgmtNotify s) := by
  unfold mgmtNotify
  dsimp only
  split
  · exact h
  · exact ite_wf h (sendDatagram_wf (setMgmt_wf h))

theorem answerBoot_wf {kind st q data} {s : State} (h : BasinWf s) : BasinWf (answerBoot kind st q data s) :=
  sendDatagram_wf (ite_wf (setBoot_wf h) h)

theorem bootRequest_wf {kind run q} {s : State} (hf1 : ∀ x0, BasinWf x0 → BasinWf (run x0)) (h : BasinWf s) :
    BasinWf (bootRequest kind run q s) := by
  unfold bootRequest
  refine ite_wf h ?_
  refine ite_wf (mgmtDrop_wf h) ?_
  split
  · exact sendDatagram_wf h
  · exact hf1 _ h

theorem takeSession_wf {q} {s : State} (h : BasinWf s) : BasinWf (takeSession q s) := setBoot_wf h

theorem bootData_wf {q} {s : State} (h : BasinWf s) : BasinWf (bootData q s) :=
  ite_wf (answerBoot_wf h) (ite_wf (answerBoot_wf h) (ite_wf (answerBoot_wf (takeSession_wf h)) (answerBoot_wf (noteStaged_wf
      (memWrite_wf (takeSession_wf h))))))

theorem bootGoFrame_wf {q} {s : State} (h : BasinWf s) : BasinWf (bootGoFrame q s) :=
  ite_wf (answerBoot_wf h) (ite_wf (answerBoot_wf h) (ite_wf (answerBoot_wf h) (ite_wf (answerBoot_wf h) (answerBoot_wf (goNow_wf h)))))

theorem bootSessionIdle_wf {s : State} (h : BasinWf s) : BasinWf (bootSessionIdle s) := by
  unfold bootSessionIdle
  split
  · exact ite_wf (setBoot_wf h) h
  · exact h

/-! ### The commands -/

/-- The outcome is a next state, and its contents of Basin are in canonical form. -/
def NextWf : Host.Outcome State Fault Refusal → Prop
  | .next t => BasinWf t
  | .fault _ => False
  | .refused _ => False

/-- Every command keeps the canonical form: a descriptor's by the meaning that starts it, a timed row's by the operations it runs. -/
theorem exec_wf {s : State} (h : BasinWf s) (c : Instr) : NextWf (exec c s) := by
  cases c with
  | nop => exact postDescriptor_wf (fun _ h1 => startNop_wf h1) h
  | fence => exact postDescriptor_wf (fun _ h1 => startFence_wf h1) h
  | snapshotNow => exact postDescriptor_wf (fun _ h1 => startSnapshotNow_wf h1) h
  | cfgStage => exact postDescriptor_wf (fun _ h1 => startCfgStage_wf h1) h
  | cfgCommit => exact postDescriptor_wf (fun _ h1 => startCfgCommit_wf h1) h
  | heartbeat => exact postDescriptor_wf (fun _ h1 => startHeartbeat_wf h1) h
  | cfgAbort => exact postDescriptor_wf (fun _ h1 => startCfgAbort_wf h1) h
  | snapshotCfg => exact postDescriptor_wf (fun _ h1 => startSnapshotCfg_wf h1) h
  | eventRing => exact postDescriptor_wf (fun _ h1 => startEventRing_wf h1) h
  | eventRoute => exact postDescriptor_wf (fun _ h1 => startEventRoute_wf h1) h
  | jobStart => exact postDescriptor_wf (fun _ h1 => startJobStart_wf h1) h
  | jobEnd => exact postDescriptor_wf (fun _ h1 => startJobEnd_wf h1) h
  | layerQueue => exact postDescriptor_wf (fun _ h1 => startLayerQueue_wf h1) h
  | layerCancel => exact postDescriptor_wf (fun _ h1 => startLayerCancel_wf h1) h
  | jobHold => exact postDescriptor_wf (fun _ h1 => startJobHold_wf h1) h
  | jobResume => exact postDescriptor_wf (fun _ h1 => startJobResume_wf h1) h
  | laneReenable => exact postDescriptor_wf (fun _ h1 => startLaneReenable_wf h1) h
  | markQueue => exact postDescriptor_wf (fun _ h1 => startMarkQueue_wf h1) h
  | laneLimits => exact postDescriptor_wf (fun _ h1 => startLaneLimits_wf h1) h
  | laneTrims => exact postDescriptor_wf (fun _ h1 => startLaneTrims_wf h1) h
  | laneGridLoad => exact postDescriptor_wf (fun _ h1 => startLaneGridLoad_wf h1) h
  | mereSaveCfg => exact postDescriptor_wf (fun _ h1 => startMereSaveCfg_wf h1) h
  | mereSaveNow => exact postDescriptor_wf (fun _ h1 => startMereSaveNow_wf h1) h
  | mereFieldSet => exact postDescriptor_wf (fun _ h1 => startMereFieldSet_wf h1) h
  | mereCoeff => exact postDescriptor_wf (fun _ h1 => startMereCoeff_wf h1) h
  | loopCurveLoad => exact postDescriptor_wf (fun _ h1 => startLoopCurveLoad_wf h1) h
  | proxSepSet => exact postDescriptor_wf (fun _ h1 => startProx_wf h1) h
  | proxZoneCtrl => exact postDescriptor_wf (fun _ h1 => startProx_wf h1) h
  | proxPlumeSet => exact postDescriptor_wf (fun _ h1 => startProx_wf h1) h
  | trigOutSet => exact postDescriptor_wf (fun _ h1 => startTrigOutSet_wf h1) h
  | trigOutStop => exact postDescriptor_wf (fun _ h1 => startTrigOutStop_wf h1) h
  | trigInCfg => exact postDescriptor_wf (fun _ h1 => startTrigInCfg_wf h1) h
  | trigInRing => exact postDescriptor_wf (fun _ h1 => startTrigInRing_wf h1) h
  | timeSet => exact postDescriptor_wf (fun _ h1 => startTimeSet_wf h1) h
  | ppsOutCfg => exact postDescriptor_wf (fun _ h1 => startPpsOutCfg_wf h1) h
  | axisMove => exact postDescriptor_wf (fun _ h1 => startAxisMove_wf h1) h
  | axisLimits => exact postDescriptor_wf (fun _ h1 => startAxisLimits_wf h1) h
  | axisStop => exact postDescriptor_wf (fun _ h1 => startAxisStop_wf h1) h
  | axisEnable => exact postDescriptor_wf (fun _ h1 => startAxisEnable_wf h1) h
  | axisHome => exact postDescriptor_wf (fun _ h1 => startAxisHome_wf h1) h
  | axisSetPos => exact postDescriptor_wf (fun _ h1 => startAxisSetPos_wf h1) h
  | encPreset => exact postDescriptor_wf (fun _ h1 => startEncPreset_wf h1) h
  | cmpSet => exact postDescriptor_wf (fun _ h1 => startCmpSet_wf h1) h
  | echoSet => exact postDescriptor_wf (fun _ h1 => startEchoSet_wf h1) h
  | faultClear => exact postDescriptor_wf (fun _ h1 => startFaultClear_wf h1) h
  | camStream => exact postDescriptor_wf (fun _ h1 => startCamStream_wf h1) h
  | camExpWrite => exact postDescriptor_wf (fun _ h1 => startCamExpWrite_wf h1) h
  | camExpCommit => exact postDescriptor_wf (fun _ h1 => startCamExpCommit_wf h1) h
  | camTrigger => exact postDescriptor_wf (fun _ h1 => startCamTrigger_wf h1) h
  | camCci => exact postDescriptor_wf (fun _ h1 => startCamCci_wf h1) h
  | camRing => exact postDescriptor_wf (fun _ h1 => startCamRing_wf h1) h
  | ledSet => exact postDescriptor_wf (fun _ h1 => startLedSet_wf h1) h
  | ledMatrixWrite => exact postDescriptor_wf (fun _ h1 => startLedMatrixWrite_wf h1) h
  | ledFaultClear => exact postDescriptor_wf (fun _ h1 => startLedFaultClear_wf h1) h
  | colorTarget => exact postDescriptor_wf (fun _ h1 => startColorTarget_wf h1) h
  | zipEncode => exact postDescriptor_wf (fun _ h1 => startZipEncode_wf h1) h
  | zipOpen => exact postDescriptor_wf (fun _ h1 => startZipOpen_wf h1) h
  | zipFeed => exact postDescriptor_wf (fun _ h1 => startZipFeed_wf h1) h
  | zipFlush => exact postDescriptor_wf (fun _ h1 => startZipFlush_wf h1) h
  | zipDecode => exact postDescriptor_wf (fun _ h1 => startZipDecode_wf h1) h
  | composeScene => exact postDescriptor_wf (fun _ h1 => startComposeScene_wf h1) h
  | composeRun => exact postDescriptor_wf (fun _ h1 => startComposeRun_wf h1) h
  | composeStop => exact postDescriptor_wf (fun _ h1 => startComposeStop_wf h1) h
  | composeLayer => exact postDescriptor_wf (fun _ h1 => startComposeLayer_wf h1) h
  | displaySet => exact postDescriptor_wf (fun _ h1 => startDisplaySet_wf h1) h
  | basinCopy => exact postDescriptor_wf (fun _ h1 => startBasinCopy_wf h1) h
  | basinFill => exact postDescriptor_wf (fun _ h1 => startBasinFill_wf h1) h
  | basinRetain => exact postDescriptor_wf (fun _ h1 => startBasinRetain_wf h1) h
  | calRequest => exact postDescriptor_wf (fun _ h1 => startCalRequest_wf h1) h
  | calCancel => exact postDescriptor_wf (fun _ h1 => startCalCancel_wf h1) h
  | hkThrottleFloor => exact postDescriptor_wf (fun _ h1 => startHkThrottleFloor_wf h1) h
  | recRecordNow => exact postDescriptor_wf (fun _ h1 => startRecRecordNow_wf h1) h
  | recChallenge => exact postDescriptor_wf (fun _ h1 => startRecChallenge_wf h1) h
  | recClear => exact postDescriptor_wf (fun _ h1 => startRecClear_wf h1) h
  | recProvision => exact postDescriptor_wf (fun _ h1 => startRecProvision_wf h1) h
  | splIoWrite => exact postDescriptor_wf (fun _ h1 => startSplIoWrite_wf h1) h
  | splIoRead => exact postDescriptor_wf (fun _ h1 => startSplIoRead_wf h1) h
  | splObjRead => exact postDescriptor_wf (fun _ h1 => startSplObjRead_wf h1) h
  | splObjWrite => exact postDescriptor_wf (fun _ h1 => startSplObjWrite_wf h1) h
  | splRescan => exact postDescriptor_wf (fun _ h1 => startSplRescan_wf h1) h
  | splNodeReset => exact postDescriptor_wf (fun _ h1 => startSplNodeReset_wf h1) h
  | splIoRing => exact postDescriptor_wf (fun _ h1 => startSplIoRing_wf h1) h
  | bootGo => exact atHost_wf (fun _ h1 => bootGo_wf h1) h
  | bootClear => exact atHost_wf (fun _ h1 => bootClear_wf h1) h
  | profileWrite => exact ite_wf (profileWrite_wf h) h
  | profileWriteDone => exact profileWriteDone_wf (passTo_wf h)
  | profileReload => exact ite_wf (profileReload_wf h) h
  | moduleResetCmd => exact atHost_wf (fun _ h1 => powerCommand_wf (fun _ h2 => moduleReset_wf h2) h1) h
  | firmwareResetCmd => exact atHost_wf (fun _ h1 => powerCommand_wf (fun _ h2 => firmwareReset_wf h2) h1) h
  | blockResetCmd => exact atHost_wf (fun _ h1 => powerCommand_wf (fun _ h2 => blockReset_wf h2) h1) h
  | standbyCmd => exact atHost_wf (fun _ h1 => powerCommand_wf (fun _ h2 => beginEntry_wf h2) h1) h
  | hibernateCmd => exact atHost_wf (fun _ h1 => powerCommand_wf (fun _ h2 => beginEntry_wf h2) h1) h
  | doorbell => exact atHost_wf (fun _ h1 => doorbell_wf h1) h
  | cmdRingEnable => exact atHost_wf (fun _ h1 => writeCmdCtrl_wf h1) h
  | cqEnable => exact atHost_wf (fun _ h1 => writeCqCtrl_wf h1) h
  | cqHeadWrite => exact atHost_wf (fun _ h1 => writeCqHead_wf h1) h
  | eventHeadWrite => exact atHost_wf (fun _ h1 => writeEventHead_wf h1) h
  | notifyClear => exact atHost_wf (fun _ h1 => clearNotify_wf h1) h
  | recCursorWrite => exact atHost_wf (fun _ h1 => writeCursor_wf h1) h
  | recWindowRead => exact atHost_wf (fun _ h1 => windowRead_wf h1) h
  | readClear => exact atHost_wf (fun _ h1 => hostRead_wf h1) h
  | splitReadLatch => exact atHost_wf (fun _ h1 => hostRead_wf h1) h
  | registerWrite => exact atHost_wf (fun _ h1 => hostWrite_wf h1) h
  | bar2Access => exact atHost_wf (fun _ h1 => bar2Access_wf h1) h
  | regRead => exact attachedOnly_wf (fun _ h1 => mgmtRegRead_wf h1) h
  | regWrite => exact attachedOnly_wf (fun _ h1 => mgmtRegWrite_wf h1) h
  | memRead => exact attachedOnly_wf (fun _ h1 => mgmtMemRead_wf h1) h
  | memWrite => exact attachedOnly_wf (fun _ h1 => mgmtMemWrite_wf h1) h
  | attach => exact mgmtRequest_wf (fun _ h1 => mgmtAttach_wf h1) h
  | detach => exact attachedOnly_wf (fun _ h1 => answerMgmt_wf (endAttachment_wf h1)) h
  | notify => exact mgmtNotify_wf (passTo_wf h)
  | bootHello => exact bootRequest_wf (fun _ h1 => answerBoot_wf h1) h
  | bootData => exact bootRequest_wf (fun _ h1 => bootData_wf h1) (passTo_wf h)
  | bootGoFrame => exact bootRequest_wf (fun _ h1 => bootGoFrame_wf h1) (passTo_wf h)
  | bootStatus => exact bootRequest_wf (fun _ h1 => answerBoot_wf h1) h
  | bootSessionIdle => exact bootSessionIdle_wf (passTo_wf h)
  | descriptorFetch => exact descriptorFetch_wf (passTo_wf h)
  | completionCollect => exact completionCollect_wf (passTo_wf h)
  | intTimeExpire => exact intTimeExpire_wf (passTo_wf h)
  | cqStalled => exact cqStalled_wf (passTo_wf h)
  | hostLost => exact hostLost_wf (passTo_wf h)
  | pcieLinkDown => exact pcieDown_wf (passTo_wf h)
  | pcieLinkUp => exact ite_wf (pcieLinkUp_wf (passTo_wf h)) (passTo_wf h)
  | perstLow => exact perstLow_wf (passTo_wf h)
  | perstRise => exact perstRise_wf (passTo_wf h)
  | snapshotPublish => exact publishSnapshot_wf (passTo_wf h)
  | rippleFire => exact rippleFire_wf (passTo_wf h)
  | rippleCancel => exact rippleCancel_wf (passTo_wf h)
  | jobTor => exact jobTor_wf (passTo_wf h)
  | stageEnd => exact stageEndAny_wf (passTo_wf h)
  | layerValidationDone => exact validationDone_wf (passTo_wf h)
  | armCheck => exact armCheck_wf (passTo_wf h)
  | exposeEnd => exact exposeEnd_wf (passTo_wf h)
  | layerCompletion => exact layerCompletion_wf (passTo_wf h)
  | beamPermitLow => exact permitLow_wf (passTo_wf h)
  | permitRestored => exact permitRestored_wf (passTo_wf h)
  | permitDisagree => exact permitDisagree_wf (passTo_wf h)
  | stagePlanReceive => exact stagePlan_wf (passTo_wf h)
  | stageReportReceive => exact stageReport_wf (passTo_wf h)
  | memberArmCheck => exact memberArmCheck_wf (passTo_wf h)
  | stagePlanResend => exact planResend_wf (passTo_wf h)
  | helloSend => exact helloSend_wf (passTo_wf h)
  | helloReceive => exact helloReceive_wf (passTo_wf h)
  | memberLost => exact memberLost_wf (passTo_wf h)
  | leaderElectionTimer => exact leaderElection_wf (passTo_wf h)
  | leaderReceive => exact leaderReceive_wf (passTo_wf h)
  | markStart => exact lineSettle_wf (markStart_wf (passTo_wf h))
  | markRecordWrite => exact lineSettle_wf (markRecordWrite_wf (passTo_wf h))
  | fetchBurst => exact fetchBurst_wf (passTo_wf h)
  | planningPass => exact planningPass_wf (passTo_wf h)
  | verdictRequest => exact verdictRequest_wf (passTo_wf h)
  | verdictDeadline => exact verdictDeadline_wf (passTo_wf h)
  | laneEnd => exact laneEnd_wf (passTo_wf h)
  | resultWrite => exact resultWrite_wf (settleLane_wf (passTo_wf h))
  | syncTimeout => exact syncTimeout_wf (passTo_wf h)
  | followingError => exact followingError_wf (settleLane_wf (passTo_wf h))
  | blendComplete => exact blendComplete_wf (passTo_wf h)
  | guardTick => exact guardAt_wf (passTo_wf h)
  | deadlockBreak => exact deadlockBreak_wf (passTo_wf h)
  | proxLongHold => exact longHold_wf (passTo_wf h)
  | peerSummarySend => exact summarySend_wf (passTo_wf h)
  | peerSummaryReceive => exact summaryReceive_wf (passTo_wf h)
  | syncReportReceive => exact syncReportReceive_wf (passTo_wf h)
  | peerSilent => exact peerSilentNow_wf (passTo_wf h)
  | ffRead => exact ffRead_wf (settleLane_wf (passTo_wf h))
  | depReport => exact depReport_wf (passTo_wf h)
  | mereStep => exact mereStep_wf (passTo_wf h)
  | mereSaved => exact mereSaved_wf (passTo_wf h)
  | mereViewCopy => exact viewCopy_wf (passTo_wf h)
  | ptpSyncReceive => exact tryStart_wf (ptpSync_wf (passTo_wf h))
  | ptpAnnounceReceive => exact tryStart_wf (ptpAnnounce_wf (passTo_wf h))
  | ptpDelayMessage => exact ptpDelay_wf (passTo_wf h)
  | ptpManagement => exact ptpManagement_wf (passTo_wf h)
  | ptpSyncSend => exact syncSend_wf (passTo_wf h)
  | tcFrameForward => exact tcForward_wf (passTo_wf h)
  | sourceLost => exact tryStart_wf (sourceLost_wf (passTo_wf h))
  | timeQualityUpdate => exact qualityUpdate_wf (passTo_wf h)
  | ppsInEdge => exact tryStart_wf (ppsIn_wf (passTo_wf h))
  | trigInCapture => exact ite_wf (inputEdge_wf (passTo_wf h)) (ite_wf (captureEdge_wf (passTo_wf h)) (passTo_wf h))
  | trigOutEdge => exact trigEdge_wf (passTo_wf h)
  | ppsOutEdge => exact ppsEdge_wf (passTo_wf h)
  | splCycle => exact splCycle_wf (passTo_wf h)
  | fbUnitReceive => exact fbUnit_wf (passTo_wf h)
  | nodeUnitReceive => exact nodeUnit_wf (passTo_wf h)
  | serviceFrameReceive => exact serviceFrame_wf (passTo_wf h)
  | serviceRetry => exact serviceRetry_wf (passTo_wf h)
  | serviceTimeout => exact serviceTimeout_wf (passTo_wf h)
  | echoReceive => exact echoReceive_wf (passTo_wf h)
  | delayMeasure => exact delayMeasure_wf (passTo_wf h)
  | enumeration => exact enumeration_wf (passTo_wf h)
  | splLinkUp => exact linkComesUp_wf (passTo_wf h)
  | splLinkDown => exact linkGoesDown_wf (passTo_wf h)
  | linkdnReceive => exact linkdnBlock_wf (passTo_wf h)
  | nodeSilence => exact nodeSilence_wf (passTo_wf h)
  | splHiBer => exact hiBer_wf (passTo_wf h)
  | vinRise => exact vinRise_wf (passTo_wf h)
  | vinFall => exact vinFall_wf (passTo_wf h)
  | resetNLow => exact resetNLow_wf (passTo_wf h)
  | refclkLost => exact refclkLost_wf (passTo_wf h)
  | dramTrainDone => exact dramTrainDone_wf (passTo_wf h)
  | ethSpeedTry => exact ethSpeedTry_wf (passTo_wf h)
  | imageVerifyDone => exact imageVerifyDone_wf (passTo_wf h)
  | coreStartTimeout => exact coreStartTimeout_wf (passTo_wf h)
  | firmwareAlive => exact firmwareAlive_wf (passTo_wf h)
  | profileReadDone => exact profileReadDone_wf (passTo_wf h)
  | partnerWaitEnd => exact partnerWaitEnd_wf (passTo_wf h)
  | readyLocal => exact readyLocal_wf (passTo_wf h)
  | fwWatchdog => exact fwWatchdog_wf (passTo_wf h)
  | wakeFrame => exact wakeEvent_wf (passTo_wf h)
  | hibWake => exact hibWake_wf (passTo_wf h)
  | inputCycling => exact wakeEvent_wf (passTo_wf h)
  | hibReqN => exact hibReqN_wf (passTo_wf h)
  | powerEntryDone => exact powerEntryDone_wf (passTo_wf h)
  | hkRound => exact hkRound_wf (passTo_wf h)
  | throttleTimer => exact throttleTimer_wf (passTo_wf h)
  | dieOff => exact dieOff_wf (passTo_wf h)
  | calRunDone => exact calRunDone_wf (passTo_wf h)
  | calOverdue => exact calOverdue_wf (passTo_wf h)
  | darkGatherTimeout => exact darkTimeout_wf (passTo_wf h)
  | refreshDue => exact refreshDue_wf (passTo_wf h)
  | selfRefreshEntry => exact selfRefreshEntry_wf (passTo_wf h)
  | panicChange => exact panicChange_wf (passTo_wf h)
  | basinPanicLong => exact panicLong_wf (passTo_wf h)
  | scrubPass => exact scrubPass_wf (passTo_wf h)
  | cameraFs => exact cameraFs_wf (camSettle_wf (passTo_wf h))
  | cameraLine => exact cameraLine_wf (camSettle_wf (passTo_wf h))
  | cameraFe => exact cameraFe_wf (camSettle_wf (passTo_wf h))
  | lineTimeout => exact lineTimeout_wf (camSettle_wf (passTo_wf h))
  | camNoFrame => exact camNoFrame_wf (camSettle_wf (passTo_wf h))
  | capturePlanTrigger => exact afterJudging_wf (planTrigger_wf (camSettle_wf (passTo_wf h)))
  | statsComplete => exact statsComplete_wf (camSettle_wf (passTo_wf h))
  | framePublish => exact framePublish_wf (camSettle_wf (passTo_wf h))
  | cciWriteDone => exact cciDone_wf (camSettle_wf (passTo_wf h))
  | ledPeriod => exact ledPeriod_wf (passTo_wf h)
  | ledFaultDetect => exact ledFault_wf (passTo_wf h)
  | diagPulse => exact diagPulse_wf (passTo_wf h)
  | colorRead => exact colorRead_wf (passTo_wf h)
  | matrixSlot => exact matrixSlot_wf (passTo_wf h)
  | matrixSync => exact ite_wf (matrixSync_wf (passTo_wf h)) (passTo_wf h)
  | zipBlockDone => exact zipBlockDone_wf (passTo_wf h)
  | composeStart => exact composeTick_wf (passTo_wf h)
  | composeDone => exact composeDone_wf (passTo_wf h)
  | cacheRebuild => exact cacheRebuild_wf (passTo_wf h)
  | edpHpd => exact edpHpd_wf (passTo_wf h)
  | edpFrameStart => exact edpFrame_wf (passTo_wf h)
  | axisMoveStart => exact axisMoveStart_wf (passTo_wf h)
  | axisStep => exact axisStep_wf (passTo_wf h)
  | axisFollowingFault => exact followingFault_wf (passTo_wf h)
  | scriptEntryStart => exact scriptEntryStart_wf (passTo_wf h)
  | encEdge => exact encEdge_wf (passTo_wf h)
  | encWireFault => exact encWire_wf (passTo_wf h)
  | ssiRead => exact ssiRead_wf (passTo_wf h)
  | encStall => exact ite_wf (encStall_wf (passTo_wf h)) (hallStall_wf (passTo_wf h))
  | encWindowEnd => exact windowEnd_wf (passTo_wf h)
  | hallChange => exact hallChange_wf (passTo_wf h)
  | recSecond => exact recSecond_wf (passTo_wf h)
  | recMinute => exact recMinute_wf (passTo_wf h)
  | recWriteDone => exact recWriteDone_wf (passTo_wf h)
  | recWriteTimeout => exact recWriteTimeout_wf (passTo_wf h)
  | nonceExpire => exact nonceExpire_wf (passTo_wf h)
  | accessTimeout => exact accessTimeout_wf (passTo_wf h)
  | xingResync => exact xingResync_wf (passTo_wf h)
  | resetNRise => exact resetNRise_wf (passTo_wf h)
  | refclkRestored => exact refclkRestored_wf (passTo_wf h)
  | wakeSourcesArmed => exact wakeSourcesArmed_wf (passTo_wf h)
  | stageReportSend => exact report_wf (passTo_wf h)
  | ptpAnnounceSend => exact announceSend_wf (passTo_wf h)
  | ptpDelayReqSend => exact delayReqSend_wf (passTo_wf h)
  | exposureWindowEdge => exact windowEdge_wf (camSettle_wf (passTo_wf h))
  | pipelineThrottleDeadline => exact takeCapacity_wf (camSettle_wf (passTo_wf h))
  | arpRequest => exact arpRequest_wf (passTo_wf h)

/-- Settles O60: a step runs the front command on the queue's rest, which holds the same bytes, and every command keeps the canonical
form. -/
theorem basinStaysCanonical : Obligations.BasinStaysCanonical := by
  intro s s' h e
  unfold step at e
  split at e
  · cases e
    exact h
  · next c q _ =>
    have hc := exec_wf (s := s.rest q) h c
    rw [e] at hc
    exact hc

/-- Settles O59: `State.reset` lists no byte of Basin. -/
theorem resetBasinIsCanonical : Obligations.ResetBasinIsCanonical := ⟨rfl, State.reset_wf⟩

/-- Settles O24: `step` by whether the queue has a front command. -/
theorem stepTakesFrontCommand : Obligations.StepTakesFrontCommand := by
  refine ⟨fun c q s => rfl, fun s hs => ?_⟩
  rw [step, hs]

end Sys2Proof.Machine
end

section
/-! SUPPORT. What the axis opcodes answer and change, and what axes do in time. -/

namespace Sys2Proof.Machine

/-! ### Axes after an update of one of them -/

theorem modUnit_modUnit {α : Type} (xs : List α) (i : Nat) (f g : α → α) :
    modUnit (modUnit xs i f) i g = modUnit xs i (fun x => g (f x)) := by
  apply List.ext_getElem?
  intro k
  rw [modUnit, modUnit, modUnit, List.getElem?_modify, List.getElem?_modify, List.getElem?_modify]
  cases xs[k]? with
  | none => rfl
  | some x => by_cases hk : i = k <;> simp [hk]

theorem unit_modUnit_other {α : Type} {xs : List α} {i j : Nat} (h : j ≠ i) (f : α → α) (d : α) :
    unit (modUnit xs i f) j d = unit xs j d := by
  simp [unit, modUnit, List.getD_eq_getElem?_getD, h.symm]

theorem axisOf_setAxis_same {s : State} {a : Nat} (h : a < s.axes.axes.length) (f : Axis → Axis) :
    axisOf (setAxis a f s) a = f (axisOf s a) := unit_modUnit_same h f .reset

theorem axisOf_setAxis_other {a b : Nat} (h : b ≠ a) (f : Axis → Axis) (s : State) :
    axisOf (setAxis a f s) b = axisOf s b := unit_modUnit_other h f .reset

theorem setAxis_congr {s : State} {a : Nat} {f g : Axis → Axis} (h : f (axisOf s a) = g (axisOf s a)) :
    setAxis a f s = setAxis a g s :=
  congrArg (fun xs => { s with axes := { s.axes with axes := xs } }) (modUnit_congr (d := .reset) h)

theorem setAxis_setAxis (a : Nat) (f g : Axis → Axis) (s : State) :
    setAxis a g (setAxis a f s) = setAxis a (fun x => g (f x)) s :=
  congrArg (fun xs => { s with axes := { s.axes with axes := xs } }) (modUnit_modUnit s.axes.axes a f g)

theorem setAxis_length (a : Nat) (f : Axis → Axis) (s : State) : (setAxis a f s).axes.axes.length = s.axes.axes.length :=
  List.length_modify ..

theorem axesIn_two_pow : ∀ a < 16, axesIn (BitVec.ofNat 16 (2 ^ a)) = [a] := by decide

theorem mem_axesIn {m : BitVec 16} {a : Nat} : a ∈ axesIn m ↔ a < 16 ∧ m.getLsbD a = true := by simp [axesIn]

/-! ### An axis with nothing to run or to drop -/

theorem nextStep_noPlan {s : State} {a : Nat} (h : (axisOf s a).plan = none) : nextStep s a = none := by
  rw [nextStep, h]
  rfl

theorem driveDue_noPlan {s : State} {a : Nat} (h : (axisOf s a).plan = none) : driveDue a s = s := by
  rw [driveDue, nextStep_noPlan h]

theorem settleAxis_noPlan {s : State} {a : Nat} (h : (axisOf s a).plan = none) : settleAxis a s = s := by
  rw [settleAxis, h]

theorem settleAxis_stepsLeft {s : State} {a : Nat} {p : AxisPlan} (h : (axisOf s a).plan = some p) (hd : p.done < p.total) :
    settleAxis a s = s := by
  rw [settleAxis, h]
  cases hf : p.fin with
  | none => simp [hf]
  | some e => simp [hf, show ¬p.total ≤ p.done by omega]

theorem beginStop_noPlan {s : State} {a : Nat} (h : (axisOf s a).plan = none) (l : AxisLimits) (st : Nat) : beginStop a l st s = s := by
  rw [beginStop, h]

theorem beginStop_runs {s : State} {a : Nat} {p : AxisPlan} (h : (axisOf s a).plan = some p) (l : AxisLimits) (st : Nat) :
    beginStop a l st s = setAxis a (fun x => { x with
      state := .stopping, plan := some (stopPlan s p l), ending := if (axisOf s a).ending = 0 then st else (axisOf s a).ending }) s := by
  rw [beginStop, h]
  exact setAxis_congr rfl

theorem dropPending_none {s : State} {a : Nat} (h : (axisOf s a).pending = none) (st : Nat) : dropPending a st s = s := by
  rw [dropPending, h]

theorem applyLatched_none {s : State} {a : Nat} (h : (axisOf s a).latched = none) : applyLatched a s = s := by
  rw [applyLatched, h]

/-- With no script entry moving there is no defect to find. -/
theorem checkScript_notMoving {s : State} (h : ∀ y ∈ s.axes.script, y ≠ .moving) : checkScript s = s := by
  unfold checkScript
  refine if_neg ?_
  simp only [List.any_eq_true, not_exists, not_and]
  rintro ⟨y, i⟩ hy
  have hm := h y (List.fst_mem_of_mem_zipIdx hy)
  cases y with
  | moving => exact absurd rfl hm
  | waiting | ended | skip => simp

/-! ### AXIS_MOVE (R391) -/

/-- AXIS_MOVE that may start acts on the state in which it is outstanding. -/
theorem exec_axisMove {h : Hdr} {s u : State} (hr : Ready h s) {a : Nat} {rel ptp : Bool} {target : Int} {v ac j launch : Nat}
    (hu : startAxisMove h.ref a rel ptp target { speed := v, accel := ac, jerk := j } launch (accept h 0x50 s) = u) :
    exec (.axisMove h a rel ptp target v ac j launch) s = .next u := post_next hr hu

theorem startAxisMove_state {s : State} {a : Nat} (ha : a < 16)
    (hx : seqHolds s a = true ∨ ((axisOf s a).state ≠ .idle ∧ (axisOf s a).state ≠ .moving)) (r : Ref) (rel ptp : Bool) (target : Int)
    (l : AxisLimits) (launch : Nat) : startAxisMove r a rel ptp target l launch s = finishIn (256 + a) r stState 0 0 s := by
  rw [startAxisMove]
  refine (if_neg (by omega)).trans (if_pos ?_)
  rcases hx with hx | ⟨h1, h2⟩
  · simp [hx]
  · simp [h1, h2]

section

variable {s : State} {a : Nat} (ha : a < 16) (hq : seqHolds s a = false)
  (hx : (axisOf s a).state = .idle ∨ (axisOf s a).state = .moving) (hs : s.power.safe = false)
include ha hq hx hs

/-- A move that is not barred goes by its launch, then its target and its limits, then the pending move. -/
theorem startAxisMove_goes (r : Ref) (rel ptp : Bool) (target : Int) (l : AxisLimits) (launch : Nat) :
    startAxisMove r a rel ptp target l launch s =
      match moveLaunch ptp launch s with
      | none => finishIn (256 + a) r stState 0 0 s
      | some t =>
        let goal := moveTarget s a rel target
        if goal < posMin s a || posMax s a < goal || !limitsOk s a (effLimits s a l) then finishIn (256 + a) r stParam 0 0 s
        else if (axisOf s a).pending.isSome then finishIn (256 + a) r stBusy 0 0 s
        else setAxis a (fun x => { x with
          pending := some { target := goal, limits := l, launch := t, ref := some r, script := none } }) s := by
  rw [startAxisMove]
  refine (if_neg (by omega)).trans ((if_neg ?_).trans ((if_neg (by simp [hs])).trans ?_))
  · rcases hx with h | h <;> simp [hq, h]
  · rfl

theorem startAxisMove_noLaunch {ptp : Bool} {launch : Nat} (hl : moveLaunch ptp launch s = none) (r : Ref) (rel : Bool) (target : Int)
    (l : AxisLimits) : startAxisMove r a rel ptp target l launch s = finishIn (256 + a) r stState 0 0 s := by
  rw [startAxisMove_goes ha hq hx hs, hl]

theorem startAxisMove_range {ptp : Bool} {launch : Nat} {t : Ns} (hl : moveLaunch ptp launch s = some t) {rel : Bool} {target : Int}
    (hg : moveTarget s a rel target < posMin s a ∨ posMax s a < moveTarget s a rel target) (r : Ref) (l : AxisLimits) :
    startAxisMove r a rel ptp target l launch s = finishIn (256 + a) r stParam 0 0 s := by
  rw [startAxisMove_goes ha hq hx hs, hl]
  refine if_pos ?_
  rcases hg with h | h <;> simp [h]

section

variable {ptp : Bool} {launch : Nat} {t : Ns} (hl : moveLaunch ptp launch s = some t) {rel : Bool} {target : Int}
  (h1 : posMin s a ≤ moveTarget s a rel target) (h2 : moveTarget s a rel target ≤ posMax s a) {l : AxisLimits}
  (h3 : limitsOk s a (effLimits s a l) = true)
include hl h1 h2 h3

theorem startAxisMove_busy (hp : (axisOf s a).pending ≠ none) (r : Ref) :
    startAxisMove r a rel ptp target l launch s = finishIn (256 + a) r stBusy 0 0 s := by
  rw [startAxisMove_goes ha hq hx hs, hl]
  refine (if_neg ?_).trans (if_pos (Option.isSome_iff_ne_none.2 hp))
  simp [h1.not_gt, h2.not_gt, h3]

theorem startAxisMove_taken (hp : (axisOf s a).pending = none) (r : Ref) :
    startAxisMove r a rel ptp target l launch s = setAxis a (fun x => { x with
      pending := some { target := moveTarget s a rel target, limits := l, launch := t, ref := some r, script := none } }) s := by
  rw [startAxisMove_goes ha hq hx hs, hl]
  refine (if_neg ?_).trans (if_neg (by simp [hp]))
  simp [h1.not_gt, h2.not_gt, h3]

end

end

theorem moveLaunch_soon (ptp : Bool) (s : State) : moveLaunch ptp 0 s = some (tickAt (s.now + 2000)) := by
  rw [moveLaunch, if_pos rfl]

theorem moveLaunch_ptp {launch : Nat} (h : launch ≠ 0) (s : State) :
    moveLaunch true launch s = some (max (tickAt (s.now + 2000)) (tickAt launch)) := (if_neg h).trans (if_pos rfl)

theorem moveLaunch_tor {s : State} {launch : Nat} {tor : Ns} (h : launch ≠ 0) (hj : jobExists s = true) (ht : s.jobs.tor = some tor) :
    moveLaunch false launch s = some (max (tickAt (s.now + 2000)) (tickAt (tor + launch))) := by
  rw [moveLaunch, if_neg h, if_neg (by simp), if_pos hj, ht]
  rfl

theorem moveLaunch_noJob {s : State} {launch : Nat} (h : launch ≠ 0) (hj : jobExists s = false) : moveLaunch false launch s = none := by
  rw [moveLaunch, if_neg h, if_neg (by simp), if_neg (by simp [hj])]

theorem moveTarget_eq (s : State) (a : Nat) (rel : Bool) (target : Int) : moveTarget s a rel target =
    (if rel then (if (axisOf s a).state = .moving ∧ (axisOf s a).homing = none then (axisOf s a).target else (axisOf s a).pos) else 0)
      + target := by
  cases rel with
  | false => simp [moveTarget]
  | true => simp [moveTarget]

/-! ### AXIS_HOME and AXIS_SET_POS (R397, R399, R416) -/

theorem startAxisHome_state {s : State} {a : Nat} (ha : a < 16) (hx : seqHolds s a = true ∨ (axisOf s a).state ≠ .idle) {chan v : Nat}
    (hc : chan ≤ 7) (hv : 0 < v) (r : Ref) (down : Bool) (pos : Int) (limit : Nat) :
    startAxisHome r a down 1 chan v pos limit s = finishIn (256 + a) r stState 0 0 s := by
  rw [startAxisHome]
  refine (if_neg ?_).trans (if_pos ?_)
  · simp
    omega
  · rcases hx with h | h <;> simp [h]

/-- A homing run as it begins on an axis with nothing latched. -/
theorem startAxisHome_begins {s : State} {a : Nat} (ha : a < 16) (hq : seqHolds s a = false) (hx : (axisOf s a).state = .idle)
    (hp : (axisOf s a).pending = none) (hl : (axisOf s a).latched = none) (hs : s.power.safe = false) {source chan v : Nat}
    (hc : (source = 0 ∧ chan ≤ 15) ∨ (source = 1 ∧ chan ≤ 7)) (hv : 0 < v)
    (hk : limitsOk s a (effLimits s a { speed := v, accel := 0, jerk := 0 }) = true) (r : Ref) (down : Bool) (pos : Int) (limit : Nat) :
    startAxisHome r a down source chan v pos limit s =
      let l := effLimits s a { speed := v, accel := 0, jerk := 0 }
      setAxis a (fun x => { turnDir (!down) (tickAt s.now) x with
        state := .moving
        plan := some { run := .home, start := tickAt s.now, origin := (axisOf s a).pos, up := !down
                       segs := axisChain .zero .zero .zero (axisRamp (F64.ofNat l.speed) l), decelAt := .zero, fin := none
                       total := limit, done := 0 }
        homing := some { trig := source = 1, chan := chan, pos := pos, max := limit, latched := none, ref := r }, lim := l
        ending := 0 }) s := by
  rw [startAxisHome]
  refine (if_neg ?_).trans ((if_neg ?_).trans ((if_neg (by simp [hs])).trans ((if_neg ?_).trans ?_)))
  · rcases hc with ⟨rfl, hc⟩ | ⟨rfl, hc⟩ <;> simp <;> omega
  · simp [hq, hx, hp]
  · simp only [Bool.not_eq_true', Bool.not_eq_false]
    exact hk
  · rw [applyLatched_none hl]
    rfl

theorem startAxisSetPos_taken {s : State} {a : Nat} (ha : a < 16) (hq : seqHolds s a = false)
    (hx : (axisOf s a).state = .idle ∨ (axisOf s a).state = .disabled) (r : Ref) (pos : Int) :
    startAxisSetPos r a pos s = endWith r stDone (setAxis a (fun y => { y with
      pos := pos, xOrg := (encOf s (axisFbEnc s a)).ext, pOrg := pos, feSince := none }) s) := by
  rw [startAxisSetPos]
  refine (if_neg (by omega)).trans ((if_neg ?_).trans ?_)
  · rcases hx with h | h <;> simp [hq, h]
  · rw [takeOrg, setAxis_setAxis]
    rfl

theorem startAxisSetPos_noAxis (r : Ref) (pos : Int) (s : State) : startAxisSetPos r 16 pos s = endWith r stParam s := by
  rw [startAxisSetPos, if_pos (Nat.le_refl 16)]

theorem axisHome_axes {s : State} {a : Nat} (ha : a < s.axes.axes.length) {up : Bool} (p : AxisPlan) (g : Homing) (l : AxisLimits) :
    let u := setAxis a (fun x => { turnDir up (tickAt s.now) x with
      state := .moving, plan := some p, homing := some g, lim := l, ending := 0 }) s
    (axisOf u a).state = .moving ∧ (axisOf u a).pos = (axisOf s a).pos ∧ (axisOf u a).dirUp = up ∧ (axisOf u a).homing = some g ∧
      (∀ b, b ≠ a → axisOf u b = axisOf s b) ∧ (axisOf u a).plan = some p := by
  intro u
  have hu : axisOf u a = _ := axisOf_setAxis_same ha _
  rw [hu]
  have hd : (turnDir up (tickAt s.now) (axisOf s a)).dirUp = up := by
    rw [turnDir]
    split
    · assumption
    · rfl
  have hp : (turnDir up (tickAt s.now) (axisOf s a)).pos = (axisOf s a).pos := by
    rw [turnDir]
    split <;> rfl
  exact ⟨rfl, hp, hd, rfl, fun b hb => axisOf_setAxis_other hb _ s, rfl⟩

/-! ### AXIS_LIMITS (R393 to R395) -/

theorem axisLimits_stands {s : State} {a : Nat} (hp : (axisOf s a).plan = none) (hl : (axisOf s a).latched = none) (clear : Bool)
    (l : AxisLimits) : axisLimits a clear l s = setAxis a (fun x => { x with ovr := newOverride x clear l }) s := by
  rw [axisLimits, hp]
  exact if_neg (by simp [hl])

theorem axisLimits_latched {s : State} {a : Nat} {p : AxisPlan} (hp : (axisOf s a).plan = some p) (hr : p.run = .move)
    (h3 : axisPhase s a = 3) (clear : Bool) (l : AxisLimits) : axisLimits a clear l s = latchLimits a clear l s := by
  rw [axisLimits, hp]
  exact if_pos (by simp [hr, h3])

theorem afterChange_none {x : Axis} (h : x.latched = none) (clear : Bool) (l : AxisLimits) : afterChange x clear l = none := by
  rw [afterChange, h]
  cases clear <;> rfl

theorem axisLimits_replans {s : State} {a : Nat} {p q : AxisPlan} (hp : (axisOf s a).plan = some p)
    (hr : ¬(p.run = .move ∧ axisPhase s a = 3)) (hl : (axisOf s a).latched = none) {clear : Bool} {l : AxisLimits}
    (hq : replanAxis s p (runLimits s a { axisOf s a with ovr := newOverride (axisOf s a) clear l }) = some q) :
    axisLimits a clear l s = setAxis a (fun _ => { axisOf s a with
      ovr := newOverride (axisOf s a) clear l, plan := some q
      lim := runLimits s a { axisOf s a with ovr := newOverride (axisOf s a) clear l } }) s := by
  have hy : afterChange (axisOf s a) clear l = (axisOf s a).latched := by rw [afterChange_none hl, hl]
  rw [axisLimits, hp]
  refine (if_neg (by simpa using hr)).trans ?_
  simp only [hy, ← hp]
  rw [hq]

/-- AXIS_LIMITS completes with DONE where no axis that it names has a change latched afterwards. -/
theorem startAxisLimits_done {m : BitVec 16} {clear : Bool} {l : AxisLimits} {s : State}
    (h : ∀ a ∈ axesIn m, (axisOf (applyAxisLimits m clear l s) a).latched = none) (r : Ref) :
    startAxisLimits r m clear l s = endWith r stDone (applyAxisLimits m clear l s) := by
  have hn : ((axesIn m).any fun a => (axisOf (applyAxisLimits m clear l s) a).latched.isSome &&
      ((axisOf (applyAxisLimits m clear l s) a).latched != (axisOf s a).latched || (axisOf s a).plan.isNone
        || ((axisOf s a).plan.any fun p => p.run = .move && axisPhase s a = 3))) = false := by
    rw [List.any_eq_false]
    intro a ha
    simp [h a ha]
  rw [startAxisLimits]
  simp only [hn]
  rfl

theorem applyAxisLimits_one {a : Nat} (ha : a < 16) (clear : Bool) (l : AxisLimits) (s : State) :
    applyAxisLimits (BitVec.ofNat 16 (2 ^ a)) clear l s = axisLimits a clear l s := by
  rw [applyAxisLimits, axesIn_two_pow a ha]
  rfl

/-- AXIS_LIMITS of axes that all stand with nothing latched. -/
theorem foldl_axisLimits_stand (clear : Bool) (l : AxisLimits) (as : List Nat) :
    ∀ s : State, (∀ a ∈ as, a < s.axes.axes.length ∧ (axisOf s a).plan = none ∧ (axisOf s a).latched = none) →
      as.foldl (fun s a => axisLimits a clear l s) s
        = as.foldl (fun u a => setAxis a (fun x => { x with ovr := newOverride x clear l }) u) s ∧
      ∀ a, (axisOf (as.foldl (fun s a => axisLimits a clear l s) s) a).latched = (axisOf s a).latched := by
  induction as with
  | nil => exact fun s _ => ⟨rfl, fun _ => rfl⟩
  | cons b bs ih =>
    intro s h
    obtain ⟨hb, hbp, hbl⟩ := h b (List.mem_cons_self ..)
    have hk : ∀ a, (axisOf (setAxis b (fun x => { x with ovr := newOverride x clear l }) s) a).plan = (axisOf s a).plan ∧
        (axisOf (setAxis b (fun x => { x with ovr := newOverride x clear l }) s) a).latched = (axisOf s a).latched := by
      intro a
      by_cases hab : a = b
      · subst hab
        rw [axisOf_setAxis_same hb]
        exact ⟨rfl, rfl⟩
      · rw [axisOf_setAxis_other hab]
        exact ⟨rfl, rfl⟩
    obtain ⟨h1, h2⟩ := ih (setAxis b (fun x => { x with ovr := newOverride x clear l }) s) (by
      intro a ha
      obtain ⟨hl, hp, hn⟩ := h a (List.mem_cons_of_mem _ ha)
      rw [setAxis_length, (hk a).1, (hk a).2]
      exact ⟨hl, hp, hn⟩)
    rw [List.foldl_cons, List.foldl_cons, axisLimits_stands hbp hbl]
    exact ⟨h1, fun a => (h2 a).trans (hk a).2⟩

/-! ### AXIS_STOP and AXIS_ENABLE (R396, R398) -/

theorem checkScript_skip {s : State} (h : ∀ x ∈ s.axes.script, x = .skip) : checkScript s = s :=
  checkScript_notMoving fun y hy he => by simp [h y hy] at he

theorem axisOf_mem {s : State} {a : Nat} (h : a < s.axes.axes.length) : axisOf s a ∈ s.axes.axes := by
  rw [axisOf, unit, List.getD_eq_getElem _ _ h]
  exact List.getElem_mem h

/-- What AXIS_STOP does to one axis. -/
def stopAxis (e : Bool) (s : State) (a : Nat) : State :=
  let s := dropPending a stAbHost (settleAxis a (driveDue a s))
  settleAxis a (beginStop a (if e then axisEmg s a else (axisOf s a).lim) stAbHost s)

/-- The state with one more AXIS_STOP that waits for its axes. -/
def addStop (r : Ref) (m : BitVec 16) (s : State) : State := { s with axes := { s.axes with stops := s.axes.stops ++ [(r, m)] } }

theorem startAxisStop_eq (r : Ref) (m : BitVec 16) (e : Bool) (s : State) :
    startAxisStop r m e s = checkScript (settleAxisStops ((axesIn m).foldl (stopAxis e) (addStop r m s))) := rfl

theorem stopAxis_stands {s : State} {a : Nat} (hp : (axisOf s a).plan = none) (hn : (axisOf s a).pending = none) (e : Bool) :
    stopAxis e s a = s := by
  rw [stopAxis, driveDue_noPlan hp, settleAxis_noPlan hp, dropPending_none hn, beginStop_noPlan hp, settleAxis_noPlan hp]

theorem settleAxisStops_stand {s : State} {r : Ref} {m : BitVec 16} (h0 : s.axes.stops = [(r, m)])
    (hp : ∀ a < 16, (axisOf s a).plan = none) :
    settleAxisStops s = finish r stDone 0 0 { s with axes := { s.axes with stops := [] } } := by
  have hs : ((List.range 16).all fun a => !m.getLsbD a || (axisOf s a).plan.isNone) = true := by
    rw [List.all_eq_true]
    intro a ha
    simp [hp a (List.mem_range.1 ha)]
  rw [settleAxisStops]
  simp only [h0, List.filter_cons, hs]
  rfl

theorem startAxisStop_stands {s : State} (hp : ∀ a < 16, (axisOf s a).plan = none) (hn : ∀ a < 16, (axisOf s a).pending = none)
    (hk : ∀ x ∈ s.axes.script, x = .skip) (hs : s.axes.stops = []) (r : Ref) {a : Nat} (ha : a < 16) (e : Bool) :
    startAxisStop r (BitVec.ofNat 16 (2 ^ a)) e s = finish r stDone 0 0 s := by
  have h0 : (addStop r (BitVec.ofNat 16 (2 ^ a)) s).axes.stops = [(r, BitVec.ofNat 16 (2 ^ a))] := by simp [addStop, hs]
  have h1 : ({ addStop r (BitVec.ofNat 16 (2 ^ a)) s with axes := { s.axes with stops := [] } } : State) = s := by
    rw [← hs]
    rfl
  rw [startAxisStop_eq, axesIn_two_pow a ha, List.foldl_cons, List.foldl_nil,
    stopAxis_stands (s := addStop r _ s) (hp a ha) (hn a ha), settleAxisStops_stand h0 hp,
    checkScript_skip (by simpa [addStop] using hk)]
  exact congrArg (finish r stDone 0 0) h1

theorem enableAxis_stands {s : State} {a : Nat} (hn : (axisOf s a).pending = none) (on : Bool) :
    enableAxis a on s = setAxis a (fun x => { x with
      axen := on, state := if x.state = .fault then .fault else if on then .idle else .disabled }) s := by
  rw [enableAxis, dropPending_none hn, ite_self]

theorem startAxisEnable_refused {s : State} {m v : BitVec 16} (h : ∃ a ∈ axesIn m, (axisOf s a).plan ≠ none ∧ v.getLsbD a = false) (r : Ref) :
    startAxisEnable r m v s = endWith r stState s := by
  refine if_pos ?_
  obtain ⟨a, ha, hp, hv⟩ := h
  exact List.any_eq_true.2 ⟨a, ha, by simp [hv, Option.isSome_iff_ne_none, hp]⟩

theorem startAxisEnable_acts {s : State} {m v : BitVec 16} (h : ∀ a ∈ axesIn m, (axisOf s a).plan ≠ none → v.getLsbD a = true) (r : Ref) :
    startAxisEnable r m v s = endWith r stDone (checkScript ((axesIn m).foldl (fun u a =>
      if (axisOf u a).plan.isSome then u else enableAxis a (v.getLsbD a) u) s)) := by
  refine if_neg ?_
  rw [List.any_eq_true]
  rintro ⟨a, ha, hb⟩
  obtain ⟨hp, hv⟩ := (Bool.and_eq_true_iff).1 hb
  rw [h a ha (Option.isSome_iff_ne_none.1 hp)] at hv
  exact absurd hv (by decide)

theorem startAxisEnable_stands {s : State} {a : Nat} (ha : a < 16) (hp : (axisOf s a).plan = none) (hn : (axisOf s a).pending = none)
    (hk : ∀ x ∈ s.axes.script, x = .skip) (r : Ref) (v : BitVec 16) :
    startAxisEnable r (BitVec.ofNat 16 (2 ^ a)) v s = endWith r stDone (setAxis a (fun x => { x with
      axen := v.getLsbD a
      state := if x.state = .fault then .fault else if v.getLsbD a = true then .idle else .disabled }) s) := by
  have h1 : ∀ b ∈ axesIn (BitVec.ofNat 16 (2 ^ a)), (axisOf s b).plan ≠ none → v.getLsbD b = true := by
    intro b hb hq
    rw [axesIn_two_pow a ha, List.mem_singleton] at hb
    exact absurd (hb ▸ hp) hq
  rw [startAxisEnable_acts h1, axesIn_two_pow a ha, List.foldl_cons, List.foldl_nil, if_neg (by simp [hp]), enableAxis_stands hn,
    checkScript_skip (s := setAxis a _ s) hk]

/-! ### The axis opcodes together -/

/-- The launch of a move as AXIS_MOVE's statement splits it. -/
theorem moveLaunch_of {s : State} {ptp : Bool} {launch at_ : Nat}
    (h : (launch = 0 ∧ at_ = tickAt (s.now + 2000)) ∨
      (launch ≠ 0 ∧ ptp = true ∧ at_ = max (tickAt (s.now + 2000)) (tickAt launch)) ∨
      (launch ≠ 0 ∧ ptp = false ∧ jobExists s = true ∧
        ∃ tor, s.jobs.tor = some tor ∧ at_ = max (tickAt (s.now + 2000)) (tickAt (tor + launch)))) :
    moveLaunch ptp launch s = some at_ := by
  rcases h with ⟨rfl, rfl⟩ | ⟨h0, rfl, rfl⟩ | ⟨h0, rfl, hj, tor, ht, rfl⟩
  · exact moveLaunch_soon ptp s
  · exact moveLaunch_ptp h0 s
  · exact moveLaunch_tor h0 hj ht

theorem startAxisLimits_stand {s : State} {m : BitVec 16}
    (h : ∀ a ∈ axesIn m, a < s.axes.axes.length ∧ (axisOf s a).plan = none ∧ (axisOf s a).latched = none) (r : Ref) (clear : Bool)
    (l : AxisLimits) : startAxisLimits r m clear l s = endWith r stDone ((axesIn m).foldl (fun u a =>
      setAxis a (fun x => { x with ovr := newOverride x clear l }) u) s) := by
  obtain ⟨h1, h2⟩ := foldl_axisLimits_stand clear l (axesIn m) s h
  rw [startAxisLimits_done fun a ha => (h2 a).trans (h a ha).2.2]
  exact congrArg (endWith r stDone) h1

theorem startAxisLimits_latched {s : State} {a : Nat} {p : AxisPlan} (ha : a < 16) (hl : s.axes.axes.length = 16)
    (hp : (axisOf s a).plan = some p) (hr : p.run = .move) (h3 : axisPhase s a = 3) (r : Ref) (clear : Bool) (l : AxisLimits) :
    startAxisLimits r (BitVec.ofNat 16 (2 ^ a)) clear l s = endWith r stDoneNote (latchLimits a clear l s) := by
  have hs : (axisOf (latchLimits a clear l s) a).latched.isSome = true := by
    rw [latchLimits, axisOf_setAxis_same (by omega)]
    rfl
  rw [startAxisLimits]
  simp only [applyAxisLimits_one ha, axisLimits_latched hp hr h3, axesIn_two_pow a ha]
  simp [hs, hp, hr, h3]

theorem startAxisLimits_replans {s : State} {a : Nat} {p q : AxisPlan} (ha : a < 16) (hn : s.axes.axes.length = 16)
    (hp : (axisOf s a).plan = some p) (hr : ¬(p.run = .move ∧ axisPhase s a = 3)) (hl : (axisOf s a).latched = none) {clear : Bool}
    {l : AxisLimits} (hq : replanAxis s p (runLimits s a { axisOf s a with ovr := newOverride (axisOf s a) clear l }) = some q) (r : Ref) :
    startAxisLimits r (BitVec.ofNat 16 (2 ^ a)) clear l s = endWith r stDone (setAxis a (fun _ => { axisOf s a with
      ovr := newOverride (axisOf s a) clear l, plan := some q
      lim := runLimits s a { axisOf s a with ovr := newOverride (axisOf s a) clear l } }) s) := by
  have he := (applyAxisLimits_one ha clear l s).trans (axisLimits_replans hp hr hl hq)
  rw [startAxisLimits_done, he]
  intro b hb
  obtain rfl : b = a := List.mem_singleton.1 (axesIn_two_pow a ha ▸ hb)
  rw [he, axisOf_setAxis_same (by omega)]
  exact hl

/-- Settles O45: each clause is the taking of a descriptor that may start, with the rule of its opcode (R391 to R399, R416). -/
theorem axisOpcodes : Obligations.AxisOpcodes := by
  refine ⟨fun h s hr hs hn a ha => ⟨?_, ?_, ?_, ?_, ?_, ?_, ?_⟩, fun h s hr hn hx hk hst a ha => ?_, fun h s hr m => ⟨?_, ?_, ?_, ?_⟩⟩
  · intro hq hx hp
    refine ⟨fun rel ptp target v ac j launch at_ hl h1 h2 h3 => ?_, fun target v ac j hg => ?_, fun rel target v ac j launch h0 hj => ?_⟩
    · have ht := moveTarget_eq (accept h 0x50 s) a rel target
      have hm := startAxisMove_taken (s := accept h 0x50 s) ha hq hx hs (moveLaunch_of hl) (ht ▸ h1) (ht ▸ h2) h3 hp h.ref
      rw [ht] at hm
      exact exec_axisMove hr hm
    · exact exec_axisMove hr (startAxisMove_range (s := accept h 0x50 s) ha hq hx hs (moveLaunch_soon ..) (rel := false) hg ..)
    · exact exec_axisMove hr (startAxisMove_noLaunch (s := accept h 0x50 s) ha hq hx hs (moveLaunch_noJob h0.ne' hj) ..)
  · intro hq hx hp target v ac j h1 h2 h3
    exact exec_axisMove hr (startAxisMove_busy (s := accept h 0x50 s) ha hq hx hs (moveLaunch_soon ..) (rel := false) h1 h2 h3 hp _)
  · intro hx rel ptp target v ac j launch
    exact exec_axisMove hr (startAxisMove_state (s := accept h 0x50 s) ha hx ..)
  · intro hq hx hp hl down source chan v limit pos hc hv hk
    refine ⟨_, post_next hr (startAxisHome_begins (s := accept h 0x54 s) ha hq hx hp hl hs hc hv hk ..), rfl, ?_⟩
    obtain ⟨h1, h2, h3, h4, h5, h6⟩ := axisHome_axes (s := accept h 0x54 s) (up := !down) (hn.symm ▸ ha) _ _ _
    refine ⟨h1, h2, h3, h4, h5, fun p hp => ?_⟩
    obtain rfl := Option.some.inj (h6.symm.trans hp)
    exact ⟨rfl, rfl, rfl, rfl⟩
  · intro hx down chan v limit pos hc hv
    exact post_next hr (startAxisHome_state (s := accept h 0x54 s) ha hx hc hv ..)
  · intro v hp hv
    exact post_next hr (startAxisEnable_refused (s := accept h 0x53 s)
      ⟨a, axesIn_two_pow a ha ▸ List.mem_singleton_self a, Option.isSome_iff_ne_none.1 hp, hv⟩ _)
  · exact fun hq hx pos => ⟨post_next hr (startAxisSetPos_taken (s := accept h 0x55 s) ha hq hx ..), post_next hr (startAxisSetPos_noAxis ..)⟩
  · have ha' : a < s.axes.axes.length := hn.symm ▸ ha
    have hx' := fun b (hb : b < 16) => hx _ (axisOf_mem (s := s) (hn.symm ▸ hb : b < s.axes.axes.length))
    obtain ⟨hp, hpe, hl⟩ := hx' a ha
    have hone : ∀ (clear : Bool) (l : AxisLimits), startAxisLimits h.ref (BitVec.ofNat 16 (2 ^ a)) clear l (accept h 0x51 s)
        = endWith h.ref stDone (setAxis a (fun x => { x with ovr := newOverride x clear l }) (accept h 0x51 s)) := by
      intro clear l
      rw [startAxisLimits_stand (s := accept h 0x51 s), axesIn_two_pow a ha]
      · rfl
      · intro b hb
        obtain rfl : b = a := List.mem_singleton.1 (axesIn_two_pow a ha ▸ hb)
        exact ⟨ha', hp, hl⟩
    exact ⟨fun v ac j => ⟨post_next hr (hone false _), post_next hr (hone true _)⟩,
      fun e => post_next hr (startAxisStop_stands (s := accept h 0x52 s) (fun b hb => (hx' b hb).1) (fun b hb => (hx' b hb).2.1) hk hst
        h.ref ha e),
      fun v => post_next hr (startAxisEnable_stands (s := accept h 0x53 s) ha hp hpe hk h.ref v)⟩
  · exact fun e => post_next hr rfl
  · intro a l st p ha hn hp
    have hu := fun f => axisOf_setAxis_same (s := s) (hn.symm ▸ ha : a < s.axes.axes.length) f
    intro u
    rw [show u = _ from beginStop_runs hp l st, hu]
    exact ⟨rfl, rfl, rfl, fun b hb => axisOf_setAxis_other hb _ s⟩
  · exact fun v => ⟨fun hv => post_next hr (startAxisEnable_acts (s := accept h 0x53 s) hv _),
      fun hv => post_next hr (startAxisEnable_refused (s := accept h 0x53 s) hv _)⟩
  · refine fun clear v ac j => ⟨fun hm hn => ?_, fun a p ha hn hma hp => ⟨fun h1 h3 => ?_, fun h1 hl q hq => ?_⟩⟩
    · refine post_next hr (startAxisLimits_stand (s := accept h 0x51 s) (fun a ha => ?_) ..)
      obtain ⟨ha, hma⟩ := mem_axesIn.1 ha
      exact ⟨hn.symm ▸ ha, hm a ha hma⟩
    · rw [hma]
      exact post_next hr (startAxisLimits_latched (s := accept h 0x51 s) ha hn hp h1 h3 ..)
    · rw [hma]
      exact post_next hr (startAxisLimits_replans (s := accept h 0x51 s) ha hn hp h1 hl hq _)

/-! ### Moves that begin, steps and faults (R389 to R392, R397) -/

theorem axisMoveStart_none {s : State} {a : Nat} (h : (axisOf s a).pending = none) : axisMoveStart a s = s := by
  rw [axisMoveStart, h]

theorem axisMoveStart_early {s : State} {a : Nat} {m : AxisMove} (h : (axisOf s a).pending = some m) (ht : s.now < m.launch) :
    axisMoveStart a s = s := by
  rw [axisMoveStart, h]
  exact if_neg (by simp [ht.not_ge])

theorem axisMoveStart_due {s : State} {a : Nat} {m : AxisMove} (h : (axisOf s a).pending = some m) (hp : (axisOf s a).plan = none)
    (hi : (axisOf s a).state = .idle) (ht : m.launch ≤ s.now) :
    axisMoveStart a s = checkScript (settleAxis a (beginMove a m s)) := by
  rw [axisMoveStart, h]
  exact if_pos (by simp [hp, hi, ht])

/-- The plan of a move from standstill, with the profile that R388 gives it. -/
def freshPlan (s : State) (a : Nat) (m : AxisMove) (prof : List AxisSeg × F64 × F64) : AxisPlan :=
  { run := .move, start := s.now, origin := (axisOf s a).pos, up := decide ((axisOf s a).pos ≤ m.target), segs := prof.1,
    decelAt := prof.2.2, fin := some prof.2.1, total := (m.target - (axisOf s a).pos).natAbs, done := 0 }

theorem beginMove_unlatched {s : State} {a : Nat} {m : AxisMove} (hl : (axisOf s a).latched = none) {prof : List AxisSeg × F64 × F64}
    (hq : axisProfile .zero .zero (F64.ofNat (m.target - (axisOf s a).pos).natAbs) (effLimits s a m.limits) = some prof) :
    beginMove a m s = setAxis a (fun x => { turnDir (decide ((axisOf s a).pos ≤ m.target)) s.now x with
      state := .moving, plan := some (freshPlan s a m prof), move := some m, pending := none, lim := effLimits s a m.limits
      target := m.target, ending := 0 }) s := by
  rw [beginMove, applyLatched_none hl]
  simp only [hq]
  rfl

theorem turnDir_pos (up : Bool) (t : Ns) (x : Axis) : (turnDir up t x).pos = x.pos := by
  rw [turnDir]
  split <;> rfl

theorem beginMove_axes {s : State} {a : Nat} (ha : a < s.axes.axes.length) {m : AxisMove} (hl : (axisOf s a).latched = none)
    {prof : List AxisSeg × F64 × F64}
    (hq : axisProfile .zero .zero (F64.ofNat (m.target - (axisOf s a).pos).natAbs) (effLimits s a m.limits) = some prof) :
    let u := beginMove a m s
    u = { s with axes := u.axes } ∧ u.axes.script = s.axes.script ∧ (axisOf u a).state = .moving ∧ (axisOf u a).target = m.target ∧
      (axisOf u a).pos = (axisOf s a).pos ∧ (axisOf u a).pending = none ∧ (axisOf u a).plan = some (freshPlan s a m prof) ∧
      ∀ b, b ≠ a → axisOf u b = axisOf s b := by
  intro u
  have hu : u = _ := beginMove_unlatched hl hq
  rw [hu, axisOf_setAxis_same ha]
  exact ⟨rfl, rfl, rfl, rfl, turnDir_pos .., rfl, rfl, fun b hb => axisOf_setAxis_other hb _ s⟩

theorem trackFe_axisOf {s : State} {a : Nat} (ha : a < s.axes.axes.length) :
    axisOf (trackFe a s) a = { axisOf s a with feSince := (axisOf (trackFe a s) a).feSince } := by
  have h : axisOf (trackFe a s) a = _ := axisOf_setAxis_same ha _
  rw [h]

theorem trackFe_other {a b : Nat} (h : b ≠ a) (s : State) : axisOf (trackFe a s) b = axisOf s b := axisOf_setAxis_other h _ s

/-- A step of axis `a` that is driven at time `n` by the plan `p` (R389). -/
def drivenStep (a : Nat) (n : Ns) (p : AxisPlan) (s : State) : State :=
  trackFe a (setAxis a (fun x => { x with
    pos := (if x.dirUp then x.pos + 1 else x.pos - 1), steps := x.steps + 1, lastEdge := some n
    plan := some { p with done := p.done + 1 } }) s)

theorem driveDue_due {s : State} {a : Nat} {n : Ns} {p : AxisPlan} (hn : nextStep s a = some n) (hp : (axisOf s a).plan = some p)
    (ht : n ≤ s.now) : driveDue a s = drivenStep a n p s := by
  rw [driveDue, hn]
  refine (if_neg ht.not_gt).trans (congrArg (trackFe a) (setAxis_congr ?_))
  rw [hp]
  rfl

theorem axisOf_drivenStep {s : State} {a : Nat} (ha : a < s.axes.axes.length) (n : Ns) (p : AxisPlan) :
    axisOf (drivenStep a n p s) a = { axisOf s a with
      pos := (if (axisOf s a).dirUp then (axisOf s a).pos + 1 else (axisOf s a).pos - 1), steps := (axisOf s a).steps + 1
      lastEdge := some n, plan := some { p with done := p.done + 1 }, feSince := (axisOf (drivenStep a n p s) a).feSince } := by
  have hl := (setAxis_length a (fun x => { x with
    pos := (if x.dirUp then x.pos + 1 else x.pos - 1), steps := x.steps + 1, lastEdge := some n
    plan := some { p with done := p.done + 1 } }) s).symm ▸ ha
  have h := trackFe_axisOf hl
  rw [axisOf_setAxis_same ha] at h
  exact h

theorem drivenStep_other {a b : Nat} (h : b ≠ a) (n : Ns) (p : AxisPlan) (s : State) : axisOf (drivenStep a n p s) b = axisOf s b :=
  (trackFe_other h _).trans (axisOf_setAxis_other h _ s)

theorem plan_drivenStep {s : State} {a : Nat} (ha : a < s.axes.axes.length) (n : Ns) (p : AxisPlan) :
    (axisOf (drivenStep a n p s) a).plan = some { p with done := p.done + 1 } := by
  rw [axisOf_drivenStep ha]

section

variable {s : State} {a : Nat} (ha : a < s.axes.axes.length) {n : Ns} {p : AxisPlan} (hn : nextStep s a = some n)
  (hp : (axisOf s a).plan = some p) (ht : n ≤ s.now)
include ha hn hp ht

/-- A step that is due, unless it is the last of HOME_MAX. -/
theorem axisStep_due (h : p.run ≠ .home ∨ p.done + 1 < p.total) :
    axisStep a s = checkScript (settleAxis a (drivenStep a n p s)) := by
  have hf : ((axisOf (drivenStep a n p s) a).plan.any fun q => q.run = .home && decide (q.total ≤ q.done)) = false := by
    rw [plan_drivenStep ha]
    rcases h with h | h <;> simp [h]
  rw [axisStep, driveDue_due hn hp ht]
  simp only [hf]
  rfl

/-- The last of HOME_MAX steps stops the homing run as timed out (R399). -/
theorem axisStep_homeMax (h : p.run = .home) (hm : p.total ≤ p.done + 1) :
    axisStep a s = checkScript (settleAxis a
      (beginStop a (axisOf (drivenStep a n p s) a).lim stTimeout (drivenStep a n p s))) := by
  have hf : ((axisOf (drivenStep a n p s) a).plan.any fun q => q.run = .home && decide (q.total ≤ q.done)) = true := by
    rw [plan_drivenStep ha]
    simp [h, hm]
  rw [axisStep, driveDue_due hn hp ht]
  simp only [hf]
  rfl

/-- A step of a move that has further steps to go, where no script entry moves. -/
theorem axisStep_further (hd : p.done + 1 < p.total) (hk : ∀ y ∈ s.axes.script, y ≠ .moving) : axisStep a s = drivenStep a n p s := by
  rw [axisStep_due ha hn hp ht (.inr hd), settleAxis_stepsLeft (plan_drivenStep ha n p) hd]
  exact checkScript_notMoving hk

end

/-- Two leading edges are at least MIN_SPACE apart (R390). -/
theorem minSpace_le_nextStep {s : State} {a : Nat} {e n : Ns} (he : (axisOf s a).lastEdge = some e) (hn : nextStep s a = some n) :
    e + minSpace s a ≤ n := by
  rw [nextStep, he] at hn
  obtain ⟨p, -, h⟩ := Option.bind_eq_some_iff.1 hn
  split at h
  · cases h
  · obtain rfl := Option.some.inj h
    exact Nat.le_max_right ..

theorem followingFault_none {s : State} {a : Nat} (h : (axisOf s a).feSince = none) : followingFault a s = s := by
  rw [followingFault, h]
  rfl

theorem followingFault_short {s : State} {a : Nat} {t0 : Ns} (h : (axisOf s a).feSince = some t0) (ht : s.now ≤ t0 + 100000) :
    followingFault a s = s := by
  rw [followingFault, h]
  exact if_neg (by simp [ht])

theorem followingFault_long {s : State} {a : Nat} {t0 : Ns} (h : (axisOf s a).feSince = some t0) (ht : t0 + 100000 < s.now) :
    followingFault a s = checkScript (axisFault a 1 s) := by
  rw [followingFault, h]
  exact if_pos (by simpa using ht)

/-! ### Script entries (R400, R401) -/

theorem scriptEntryStart_not {s : State} {i : Nat} (h : s.jobs.state ≠ 5 ∨ s.axes.scriptStart = none ∨ unit s.axes.script i .skip ≠ .waiting) :
    scriptEntryStart i s = s := by
  rw [scriptEntryStart]
  cases hs : s.axes.scriptStart with
  | none => rfl
  | some t0 =>
    refine if_pos ?_
    rcases h with h | h | h
    · rw [bne_iff_ne.2 h]
      rfl
    · simp [hs] at h
    · simp [h]

section

variable {s : State} {i a : Nat} {t0 : Ns} (hj : s.jobs.state = 5) (hs : s.axes.scriptStart = some t0)
  (hw : unit s.axes.script i .skip = .waiting) (ht : t0 + 1000000 * cfgF s (scriptOff i 0) 16 16 ≤ s.now)
  (he : afterEnded s i = true) (ha : cfgF s (scriptOff i 0) 0 4 = a)
include hj hs hw ht he ha

/-- A script entry that is due on an axis that cannot move is a recoat defect. -/
theorem scriptEntryStart_cannot (hx : (axisOf s a).state = .fault ∨ (axisOf s a).state = .disabled) :
    scriptEntryStart i s = scriptDefect s := by
  subst ha
  rw [scriptEntryStart, hs]
  refine (if_neg (by simp [hj, hw, ht, he])).trans (if_pos ?_)
  rcases hx with hx | hx <;> simp [hx]

/-- A script entry that is due on an idle axis starts its move. -/
theorem scriptEntryStart_starts (hx : (axisOf s a).state = .idle) (hp : (axisOf s a).pending = none) (hf : s.power.safe = false)
    {m : AxisMove} (hm : (scriptMove s i).2 = m) (h1 : posMin s a ≤ m.target) (h2 : m.target ≤ posMax s a)
    (h3 : limitsOk s a (effLimits s a m.limits) = true) :
    scriptEntryStart i s = axisMoveStart a (setAxis a (fun y => { y with pending := some m })
      { s with axes := { s.axes with script := s.axes.script.set i .moving } }) := by
  subst ha hm
  rw [scriptEntryStart, hs]
  refine (if_neg (by simp [hj, hw, ht, he])).trans (if_neg ?_)
  simp only [scriptMove] at h1 h2 h3
  simp [h1, h2, h3, hx, hp, hf]

end

/-- Settles O46: moves, steps, following faults and script entries in time, each by the rule of its row (R389 to R401). -/
theorem axisStepsAndFaults : Obligations.AxisStepsAndFaults := by
  intro t s a ha hn x
  have hl : a < (passTo t s).axes.axes.length := hn.symm ▸ ha
  refine ⟨?_, ?_, ?_, ?_, ?_, ?_, ?_, ?_, ?_, ?_, ?_⟩
  · intro m hm hp hi hla hsc hne
    refine ⟨fun h => congrArg Host.Outcome.next (axisMoveStart_early (s := passTo t s) hm h), fun h segs fin dec hq hk => ?_⟩
    obtain ⟨h1, h2, h3, h4, h5, h6, h7, h8⟩ := beginMove_axes (s := passTo t s) hl hla hq
    have hd : 0 < (m.target - (axisOf s a).pos).natAbs := Int.natAbs_pos.2 (sub_ne_zero.2 hne)
    refine ⟨beginMove a m (passTo t s), congrArg Host.Outcome.next ?_, h1, h3, h4, h5, h6, ⟨_, h7, rfl, rfl, rfl, rfl⟩, h8⟩
    rw [axisMoveStart_due (s := passTo t s) hm hp hi h, settleAxis_stepsLeft h7 hd]
    exact checkScript_notMoving (h2 ▸ hk)
  · exact fun h => congrArg Host.Outcome.next (axisMoveStart_none (s := passTo t s) h)
  · exact fun m hm hp hi h => congrArg Host.Outcome.next (axisMoveStart_due (s := passTo t s) hm hp hi h)
  · exact fun n p hs hp h => ⟨fun h1 => congrArg Host.Outcome.next (axisStep_due (s := passTo t s) hl hs hp h h1),
      fun h1 h2 => congrArg Host.Outcome.next (axisStep_homeMax (s := passTo t s) hl hs hp h h1 h2)⟩
  · exact fun e n he hs => minSpace_le_nextStep he hs
  · intro n p hs hp hr hd h hk _
    have hu := axisOf_drivenStep (s := passTo t s) hl n p
    refine ⟨drivenStep a n p (passTo t s), congrArg Host.Outcome.next (axisStep_further (s := passTo t s) hl hs hp h hd hk), rfl, ?_⟩
    rw [hu]
    exact ⟨rfl, rfl, rfl, rfl, fun b hb => drivenStep_other hb ..,  _, rfl, rfl, rfl⟩
  · exact fun t0 h => ⟨fun h1 => congrArg Host.Outcome.next (followingFault_short (s := passTo t s) h h1),
      fun h1 => congrArg Host.Outcome.next (followingFault_long (s := passTo t s) h h1)⟩
  · exact fun h => congrArg Host.Outcome.next (followingFault_none (s := passTo t s) h)
  · exact fun i h => congrArg Host.Outcome.next (scriptEntryStart_not (s := passTo t s) h)
  · exact fun i t0 hj hs hw ht he hc hx => congrArg Host.Outcome.next (scriptEntryStart_cannot (s := passTo t s) hj hs hw ht he hc hx)
  · intro i t0 hj hs hw ht he hc hx hp hf m h1 h2 h3
    exact congrArg Host.Outcome.next
      (scriptEntryStart_starts (s := passTo t s) (m := m) hj hs hw ht he hc hx hp hf (by subst hc; rfl) h1 h2 h3)

end Sys2Proof.Machine
end

section
/-! SUPPORT. What the encoder opcodes answer and change, and what encoders and Hall groups do in time. -/

namespace Sys2Proof.Machine

/-! ### Channels, Hall groups and echoes after an update -/

theorem encOf_setEnc_same {s : State} {e : Nat} (h : e < s.enc.length) (f : Enc → Enc) : encOf (setEnc e f s) e = f (encOf s e) :=
  unit_modUnit_same h f .reset

theorem encOf_setEnc_other {e g : Nat} (h : g ≠ e) (f : Enc → Enc) (s : State) : encOf (setEnc e f s) g = encOf s g :=
  unit_modUnit_other h f .reset

theorem setEnc_congr {s : State} {e : Nat} {f g : Enc → Enc} (h : f (encOf s e) = g (encOf s e)) : setEnc e f s = setEnc e g s :=
  congrArg (fun xs => { s with enc := xs }) (modUnit_congr (d := .reset) h)

theorem hallOf_setHall_same {s : State} {g : Nat} (h : g < s.hall.length) (f : Hall → Hall) :
    hallOf (setHall g f s) g = f (hallOf s g) := unit_modUnit_same h f .reset

theorem setHall_setHall (g : Nat) (f k : Hall → Hall) (s : State) : setHall g k (setHall g f s) = setHall g (fun x => k (f x)) s :=
  congrArg (fun xs => { s with hall := xs }) (modUnit_modUnit s.hall g f k)

/-- Latching nothing changes nothing. -/
theorem latchEnc_zero (e : Nat) (s : State) : latchEnc e 0 s = s := by
  rw [latchEnc]
  exact if_pos BitVec.zero_and

/-! ### ENC_PRESET, CMP_SET, ECHO_SET and FAULT_CLEAR (R405, R407, R412 to R417) -/

theorem startEncPreset_eq (r : Ref) (m : BitVec 16) (ext : Int) (s : State) :
    startEncPreset r m ext s = endWith r stDone ((axesIn m).foldl (fun u e => setEnc e (fun x => { x with
      ext := ext, position := (ext % (encCpr u e : Int)).toNat, zArmed := true
      winEdge := x.winEdge.map fun w => (w.1, w.2 + (ext - x.ext))
      winPrev := x.winPrev.map fun w => (w.1, w.2 + (ext - x.ext)) }) u) s) := by
  rw [startEncPreset]
  exact congrArg (fun f => endWith r stDone ((axesIn m).foldl f s)) (funext fun u => funext fun e => setEnc_congr rfl)

theorem startEncPreset_one {e : Nat} (he : e < 16) (r : Ref) (ext : Int) (s : State) :
    startEncPreset r (BitVec.ofNat 16 (2 ^ e)) ext s = endWith r stDone (setEnc e (fun x => { x with
      ext := ext, position := (ext % (encCpr s e : Int)).toNat, zArmed := true
      winEdge := x.winEdge.map fun w => (w.1, w.2 + (ext - (encOf s e).ext))
      winPrev := x.winPrev.map fun w => (w.1, w.2 + (ext - (encOf s e).ext)) }) s) := by
  rw [startEncPreset, axesIn_two_pow e he]
  rfl

theorem startCmpSet_param {k enc pitch width : Nat}
    (h : 16 ≤ k ∨ 16 ≤ enc ∨ pitch = 0 ∨ 2147483647 < pitch ∨ width = 0 ∨ 65535 < width) (r : Ref) (en rev : Bool) (c : Int) (s : State) :
    startCmpSet r k en rev enc pitch c width s = endWith r stParam s := by
  have hc : cmpSetCheck k enc pitch width s = stParam := by
    refine if_pos ?_
    simpa [or_assoc] using h
  rw [startCmpSet, hc]
  rfl

section

variable {k enc pitch width : Nat} (hk : k < 16) (he : enc < 16) (hp : 0 < pitch) (hp' : pitch ≤ 2147483647) (hw : 0 < width)
  (hw' : width ≤ 65535)
include hk he hp hp' hw hw'

/-- With values in range CMP_SET goes by whether the LINE job uses the unit. -/
theorem cmpSetCheck_inRange (s : State) : cmpSetCheck k enc pitch width s =
    if s.jobs.line && (jobHeader s).any (fun h => h.trigSource = k) then stState else stDone := by
  refine if_neg ?_
  simp
  omega

theorem startCmpSet_state {s : State} {hd : JobHeader} (hl : s.jobs.line = true) (hj : jobHeader s = some hd) (ht : hd.trigSource = k) (r : Ref)
    (en rev : Bool) (c : Int) : startCmpSet r k en rev enc pitch c width s = endWith r stState s := by
  have hc : cmpSetCheck k enc pitch width s = stState := by
    rw [cmpSetCheck_inRange hk he hp hp' hw hw', hj]
    exact if_pos (by simp [hl, ht])
  rw [startCmpSet, hc]
  rfl

theorem startCmpSet_done {s : State} (h : s.jobs.line = false ∨ ∀ hd, jobHeader s = some hd → hd.trigSource ≠ k) (r : Ref) (en rev : Bool)
    (c : Int) : startCmpSet r k en rev enc pitch c width s
      = endWith r stDone (bumpOverride 7 true (applyCmpSet k en rev enc pitch c width s)) := by
  have hc : cmpSetCheck k enc pitch width s = stDone := by
    rw [cmpSetCheck_inRange hk he hp hp' hw hw']
    refine if_neg ?_
    rcases h with h | h
    · simp [h]
    · cases hj : jobHeader s with
      | none => simp
      | some hd => simp [h hd hj]
  rw [startCmpSet, hc]
  rfl

end

theorem cmpOff_four (k : Nat) : cmpOff k 4 = 0x642004 + 0x40 * k := by
  rw [cmpOff]
  omega

theorem cmpOff_eight (k : Nat) : cmpOff k 8 = 0x642008 + 0x40 * k := by
  rw [cmpOff]
  omega

theorem echoOff_four (k : Nat) : echoOff k 4 = 0x643004 + 0x40 * k := by
  rw [echoOff]
  omega

theorem applyCmpSet_eq (k : Nat) (en rev : Bool) (enc pitch : Nat) (c : Int) (width : Nat) (s : State) :
    applyCmpSet k en rev enc pitch c width s = setCfgS64 (0x642008 + 0x40 * k) c (setCfg (0x642004 + 0x40 * k) pitch
      (setCfg (0x642000 + 0x40 * k) (b1 en + 2 * b1 rev + 16 * enc + 65536 * width) s)) := by
  rw [applyCmpSet, cmpOff_four, cmpOff_eight]
  rfl

theorem startEchoSet_param {n m : Nat} (h : m < n) (r : Ref) (k enc : Nat) (en : Bool) (s : State) :
    startEchoSet r k en enc n m s = endWith r stParam s := by
  have hc : echoSetCheck k enc n m = stParam := if_pos (by simp [h])
  rw [startEchoSet, hc]
  rfl

theorem startEchoSet_done {k enc n m : Nat} (hk : k < 4) (he : enc < 16) (hn : 0 < n) (hm : n ≤ m) (hm' : m ≤ 65535) (r : Ref) (en : Bool)
    (s : State) : startEchoSet r k en enc n m s = endWith r stDone (bumpOverride 7 true (applyEchoSet k en enc n m s)) := by
  have hc : echoSetCheck k enc n m = stDone := by
    refine if_neg ?_
    simp
    omega
  rw [startEchoSet, hc]
  rfl

theorem applyEchoSet_eq (k : Nat) (en : Bool) (enc n m : Nat) (s : State) : applyEchoSet k en enc n m s =
    let v := setCfg (0x643004 + 0x40 * k) (n + 65536 * m) (setCfg (0x643000 + 0x40 * k) (b1 en + 16 * enc) s)
    if en then setEcho k (fun _ => { outCount := 0, xOrg := (encOf s enc).ext }) v else v := by
  rw [applyEchoSet, echoOff_four]
  rfl

theorem clearEnc_agrees {s : State} {e : Nat} (h : (encOf s e).wireNow = 0) :
    clearEnc e s = setEnc e (fun x => { x with faults := 0 }) s := by
  rw [clearEnc, h]
  exact latchEnc_zero e _

theorem clearAxis_fault {s : State} {a : Nat} (h : (axisOf s a).state = .fault) (hb : axisBad s a = false) :
    clearAxis a s = setAxis a (fun x => { x with state := if x.axen then .idle else .disabled, cause := 0, feSince := none }) s :=
  if_pos (by simp [h, hb])

theorem axesIn_zero : axesIn 0 = [] := by decide

/-- Settles O47: the encoder opcodes by their own rules (R405, R407, R412 to R417). -/
theorem encoderOpcodes : Obligations.EncoderOpcodes := by
  intro h s hr
  refine ⟨?_, ?_, ?_, ?_, ?_, ?_, ?_, ?_, ?_⟩
  · exact fun e ext he => post_next hr (startEncPreset_one he ..)
  · exact fun m ext => post_next hr (startEncPreset_eq ..)
  · exact fun am em hm => post_next hr rfl
  · intro k enc pitch width en rev c hk he hp hp' hw hw'
    refine ⟨fun hl => post_next hr ?_, fun hd hl hj ht => post_next hr ?_⟩
    · rw [startCmpSet_done (s := accept h 0x57 s) hk he hp hp' hw hw' hl, applyCmpSet_eq]
    · exact startCmpSet_state (s := accept h 0x57 s) hk he hp hp' hw hw' hl hj ht ..
  · exact fun k enc pitch width en rev c hx => post_next hr (startCmpSet_param hx ..)
  · intro k enc n m en hk he hn hm hm'
    have ht := (startEchoSet_done hk he hn hm hm' h.ref en (accept h 0x58 s)).trans (by rw [applyEchoSet_eq])
    refine ⟨fun h0 => ?_, fun h1 => ?_⟩
    · subst h0
      exact post_next hr ht
    · subst h1
      exact post_next hr ht
  · exact fun k enc n m en hm => post_next hr (startEchoSet_param hm ..)
  · intro e he hw
    refine post_next hr ?_
    rw [startFaultClear, axesIn_two_pow e he, axesIn_zero, List.foldl_cons, List.foldl_nil, clearEnc_agrees (s := accept h 0x59 s) hw]
    rfl
  · intro a ha hf hb
    refine post_next hr ?_
    rw [startFaultClear, axesIn_two_pow a ha, axesIn_zero, List.foldl_nil, List.foldl_cons, clearAxis_fault (s := accept h 0x59 s) hf hb]
    rfl

/-! ### Edges of incremental channels (R402, R404, R405) -/

/-- A fold whose steps change nothing where it begins. -/
theorem foldl_stays {α β : Type} {f : α → β → α} {a : α} {l : List β} (h : ∀ b ∈ l, f a b = a) : l.foldl f a = a := by
  induction l with
  | nil => rfl
  | cons b l ih =>
    rw [List.foldl_cons, h b (List.mem_cons_self ..)]
    exact ih fun c hc => h c (List.mem_cons_of_mem _ hc)

/-- With no compare unit, echo output or axis that follows the channel a change of its count has no further effect. -/
theorem countMoved_alone {s : State} {e : Nat} (hc : ∀ k < 16, cfgF s (cmpOff k 0) 4 4 ≠ e) (he : ∀ k < 4, cfgF s (echoOff k 0) 4 4 ≠ e)
    (ha : ∀ a < 16, axisFbEnc s a ≠ e) (old : Int) : countMoved e old s = s := by
  have h1 : (List.range 16).foldl (fun u k =>
      if cfgB u (cmpOff k 0) 0 && cfgF u (cmpOff k 0) 4 4 = e then
        (List.range (cmpHits u k old (encOf s e).ext)).foldl (fun s _ => cmpHit k s) u
      else u) s = s :=
    foldl_stays fun k hk => if_neg (by simp [hc k (List.mem_range.1 hk)])
  have h2 : (List.range 4).foldl (fun u k =>
      if cfgB u (echoOff k 0) 0 && cfgF u (echoOff k 0) 4 4 = e then setEcho k (fun x => { x with outCount := echoCount u k }) u
      else u) s = s :=
    foldl_stays fun k hk => if_neg (by simp [he k (List.mem_range.1 hk)])
  have h3 : (List.range 16).foldl (fun u a => if axisFbEnc u a = e then trackFe a u else u) s = s :=
    foldl_stays fun a hk => if_neg (ha a (List.mem_range.1 hk))
  unfold countMoved
  simp only [h1, h2, h3]

/-- The edge filter finds an edge too close to the one before it (R404). -/
def edgeShort (s : State) (e : Nat) : Bool := (encOf s e).edge.any fun t0 => decide (s.now < t0 + 5 * cfgF s (encOff e 4) 0 16)

/-- A channel after an edge counted upwards or downwards (R405, R408, R409). -/
def counted (s : State) (e : Nat) (up : Bool) (x : Enc) : Enc :=
  edgeSpeed s.now up { x with
    ext := if up then x.ext + 1 else x.ext - 1
    position := if up then (if encCpr s e ≤ x.position + 1 then 0 else x.position + 1)
      else (if x.position = 0 then encCpr s e - 1 else x.position - 1)
    edgeFaults := if edgeShort s e then satInc x.edgeFaults else x.edgeFaults }

theorem countEdge_eq (s : State) (e : Nat) (sense : Bool) : countEdge e sense s =
    let v := setEnc e (fun _ => counted s e (sense != cfgB s (encOff e 0) 20) (encOf s e)) s
    countMoved e (encOf s e).ext (if edgeShort s e then latchEnc e 8 v else v) := by
  have hv : ∀ up, setEnc e (counted s e up) s = setEnc e (fun _ => counted s e up (encOf s e)) s := fun up => setEnc_congr rfl
  have hs : edgeShort s e = match (encOf s e).edge with
      | some t => decide (s.now < t + 5 * cfgF s (encOff e 4) 0 16) | none => false := by
    rw [edgeShort]
    cases (encOf s e).edge <;> rfl
  simp only [← hv]
  unfold countEdge counted
  simp only [hs] <;> rfl

theorem edgeShort_noFilter {s : State} {e : Nat} (h : cfgF s (encOff e 4) 0 16 = 0) (ht : ∀ t0, (encOf s e).edge = some t0 → t0 ≤ s.now) :
    edgeShort s e = false := by
  rw [edgeShort, h]
  cases he : (encOf s e).edge with
  | none => rfl
  | some t0 => simpa using ht t0 he

theorem edgeSpeed_keeps (now : Ns) (up : Bool) (x : Enc) :
    (edgeSpeed now up x).ext = x.ext ∧ (edgeSpeed now up x).position = x.position ∧ (edgeSpeed now up x).faults = x.faults := by
  rw [edgeSpeed]
  split <;> exact ⟨rfl, rfl, rfl⟩

theorem counted_keeps (s : State) (e : Nat) (up : Bool) (x : Enc) :
    (counted s e up x).ext = (if up then x.ext + 1 else x.ext - 1) ∧
      (counted s e up x).position = (if up then (if encCpr s e ≤ x.position + 1 then 0 else x.position + 1)
        else (if x.position = 0 then encCpr s e - 1 else x.position - 1)) ∧ (counted s e up x).faults = x.faults :=
  edgeSpeed_keeps ..

theorem encEdge_otherMode {s : State} {e : Nat} (h : encMode s e ≠ 1) (k : EncEdge) : encEdge e k s = s := if_pos (by simp [h])

theorem encEdge_quadrature {s : State} {e : Nat} (he : e < 16) (h : encMode s e = 1) (k : EncEdge) : encEdge e k s =
    match k with
    | .up => countEdge e true s
    | .down => countEdge e false s
    | .illegal => latchEnc e 8 (setEnc e (fun x => { x with illegal := satInc x.illegal }) s)
    | .index => indexEdge e s := by
  refine (if_neg ?_).trans ?_
  · simp [h, he]
  · cases k <;> rfl

section

variable {s : State} {e : Nat} (hf : cfgF s (encOff e 4) 0 16 = 0)
  (hc : ∀ k < 16, cfgF s (cmpOff k 0) 4 4 ≠ e) (hk : ∀ k < 4, cfgF s (echoOff k 0) 4 4 ≠ e) (ha : ∀ a < 16, axisFbEnc s a ≠ e)
  (ht : ∀ t0, (encOf s e).edge = some t0 → t0 ≤ s.now)
include hf hc hk ha ht

/-- A counted edge of a channel that nothing follows. -/
theorem countEdge_alone (sense : Bool) :
    countEdge e sense s = setEnc e (fun _ => counted s e (sense != cfgB s (encOff e 0) 20) (encOf s e)) s := by
  rw [countEdge_eq]
  simp only [edgeShort_noFilter hf ht]
  exact countMoved_alone (s := setEnc e _ s) hc hk ha _

theorem countEdge_effect (hl : e < s.enc.length) (sense : Bool) {up : Bool} (hu : (sense != cfgB s (encOff e 0) 20) = up) :
    let u := countEdge e sense s
    let x := encOf s e
    u = { s with enc := u.enc } ∧ (encOf u e).ext = (if up then x.ext + 1 else x.ext - 1) ∧
      (encOf u e).position = (if up then (if encCpr s e ≤ x.position + 1 then 0 else x.position + 1)
        else (if x.position = 0 then encCpr s e - 1 else x.position - 1)) ∧ (encOf u e).faults = x.faults ∧
      ∀ f, f ≠ e → encOf u f = encOf s f := by
  subst hu
  intro u x
  have hu : u = _ := countEdge_alone hf hc hk ha ht sense
  rw [hu, encOf_setEnc_same hl]
  obtain ⟨h1, h2, h3⟩ := counted_keeps s e (sense != cfgB s (encOff e 0) 20) (encOf s e)
  exact ⟨rfl, h1, h2, h3, fun f hf => encOf_setEnc_other hf _ s⟩

end

/-! ### Wire faults (R403) -/

section

variable {s : State} {e p : Nat} (he : e < 16) (hp : p ≤ 2) (hm : encMode s e = 1 ∨ (encMode s e = 2 ∧ p = 0))
include he hp hm

theorem encWire_agrees : encWire e p false s =
    setEnc e (fun x => { x with wireNow := x.wireNow &&& ~~~(BitVec.ofNat 3 (2 ^ p)) }) s := by
  refine (if_neg ?_).trans (setEnc_congr rfl)
  rcases hm with hm | ⟨hm, rfl⟩
  · simp [hm, he, hp]
  · simp [hm, he]

theorem encWire_disagrees : encWire e p true s = latchEnc e (BitVec.ofNat 6 (2 ^ p)) (setEnc e (fun x => { x with
    wireNow := x.wireNow ||| BitVec.ofNat 3 (2 ^ p)
    wireEvents := if x.wireNow &&& BitVec.ofNat 3 (2 ^ p) = 0 then satInc x.wireEvents else x.wireEvents }) s) := by
  refine (if_neg ?_).trans rfl
  rcases hm with hm | ⟨hm, rfl⟩
  · simp [hm, he, hp]
  · simp [hm, he]

end

theorem and_two_pow_of_clear : ∀ (w : BitVec 3) (p : Nat), p ≤ 2 → w.getLsbD p = false → w &&& BitVec.ofNat 3 (2 ^ p) = 0 := by
  intro w p hp
  interval_cases p <;> revert w <;> decide

/-! ### Standstill and windows (R408, R409, R411) -/

theorem encStall_due {s : State} {e : Nat} {t0 : Ns} (hm : encMode s e = 1) (he : (encOf s e).edge = some t0)
    (ht : t0 + encStallNs s e ≤ s.now) : encStall e s = setEnc e (fun x => { x with
      standstill := true, valid := true, mag := 0, window := false, run := 0, winEdge := none, winPrev := none }) s := by
  rw [encStall, he]
  exact if_neg (by simp [hm, ht])

theorem hallStall_due {s : State} {g : Nat} {t0 : Ns} (he : (hallOf s g).edge = some t0) (ht : t0 + hallStallNs s g ≤ s.now) :
    hallStall g s = setHall g (fun x => { x with standstill := true, valid := true, mag := 0, run := 0 }) s := by
  rw [hallStall, he]
  exact if_pos (by simpa using ht)

theorem windowEnd_otherMode {s : State} {e : Nat} (h : encMode s e ≠ 1) : windowEnd e s = s := if_neg h

/-- Two windows with edges in them, at CROSSOVER or above: the speed between their last edges. -/
theorem windowEnd_speed {s : State} {e : Nat} {t0 t1 : Ns} {c0 : Int} (hm : encMode s e = 1) (he : (encOf s e).edge = some t1)
    (hn : s.now < t1 + 1000 * cfgF s (encOff e 0x0C) 16 16) (hw : (encOf s e).winEdge = some (t0, c0)) (ht : t0 < t1)
    (hv : (encOf s e).valid = true) (hs : (encOf s e).standstill = false) (hb : (encOf s e).window = false)
    (hx : cfgWord s (encOff e 0x10) ≤ (encOf s e).mag) : windowEnd e s = setEnc e (fun x => { x with
      winPrev := some (t0, c0), winEdge := some (t1, x.ext), window := true
      mag := roundDivN ((x.ext - c0).natAbs * 1000000000) (t1 - t0) }) s := by
  rw [windowEnd]
  refine (if_pos hm).trans (setEnc_congr ?_)
  simp [he, hn, hw, ht, hv, hs, hb, hx]

/-- The last edge of a channel where it lies in the window that ends now. -/
def edgeInWindow (s : State) (e : Nat) : Option (Ns × Int) :=
  match (encOf s e).edge with
  | some t => if s.now < t + 1000 * cfgF s (encOff e 0x0C) 16 16 then some (t, (encOf s e).ext) else none
  | none => none

/-- Without an edge in the window before, a channel below CROSSOVER keeps its speed. -/
theorem windowEnd_noEdge {s : State} {e : Nat} (hl : e < s.enc.length) (hm : encMode s e = 1) (hw : (encOf s e).winEdge = none)
    (hb : (encOf s e).window = false) :
    let u := windowEnd e s
    u = { s with enc := u.enc } ∧ (encOf u e).window = false ∧ (encOf u e).mag = (encOf s e).mag ∧ (encOf u e).ext = (encOf s e).ext := by
  intro u
  have hu : u = setEnc e (fun x => { x with winPrev := none, winEdge := edgeInWindow s e, window := false }) s := by
    refine (if_pos hm).trans (setEnc_congr ?_)
    simp [hw, hb]
    rfl
  rw [hu, encOf_setEnc_same hl]
  exact ⟨rfl, rfl, rfl, rfl⟩

/-! ### SSI (R406) -/

/-- The value that an SSI frame shows. -/
def ssiValue (s : State) (e raw : Nat) : Nat :=
  let n := cfgF s (encOff e 0x14) 0 6
  (if cfgB s (encOff e 0x14) 6 then unGray n (raw % 2 ^ n) else raw) % 2 ^ n

/-- The upward distance that an SSI frame shows, modulo CPR. -/
def ssiUp (s : State) (e raw : Nat) : Nat := (ssiValue s e raw + encCpr s e - (encOf s e).ssiPrev.getD 0) % encCpr s e

/-- An SSI read that counts as an error. -/
def ssiBad (e : Nat) (s : State) : State := latchEnc e 32 (setEnc e (fun x => { x with ssiErrors := satInc x.ssiErrors }) s)

/-- A channel after a good SSI read that moved by `d`. -/
def ssiMoved (s : State) (e raw : Nat) (d : Int) (x : Enc) : Enc :=
  let per := 10000 * max 1 (cfgF s (encOff e 0x14) 18 14)
  let change := if d = 0 then (encOf s e).ssiChange else s.now
  let still := decide (change + encStallNs s e ≤ s.now)
  { x with
    position := ssiValue s e raw, ssiPrev := some (ssiValue s e raw), ssiReads := 2, ext := x.ext + d, ssiChange := change
    reverse := if d = 0 then x.reverse else decide (d < 0), valid := true, standstill := still
    mag := if still then 0 else roundDivN (d.natAbs * 1000000000) per, prev := x.edge, edge := some s.now }

section

variable {s : State} {e : Nat} (he : e < 16) (hm : encMode s e = 2)
include he hm

theorem ssiRead_lineLow (raw : Nat) : ssiRead e raw true s = ssiBad e s :=
  (if_neg (by simp [he, hm])).trans (if_pos rfl)

/-- The first good read sets the position and moves no count (log 175: the model's choice, on which R406 is silent). -/
theorem ssiRead_first (raw : Nat) (hp : (encOf s e).ssiPrev = none) : ssiRead e raw false s = setEnc e (fun x => { x with
    position := ssiValue s e raw, ssiPrev := some (ssiValue s e raw), ssiReads := 1, ssiChange := s.now, edge := some s.now }) s := by
  refine (if_neg (by simp [he, hm])).trans ((if_neg Bool.false_ne_true).trans ?_)
  rw [hp]
  rfl

/-- A later read moves the count by the shorter way, unless that is more than a quarter of a turn. -/
theorem ssiRead_later (raw : Nat) (hp : (encOf s e).ssiPrev.isSome) : ssiRead e raw false s =
    let d : Int := if 2 * ssiUp s e raw < encCpr s e then (ssiUp s e raw : Int) else (ssiUp s e raw : Int) - (encCpr s e : Int)
    if encCpr s e < 4 * d.natAbs then ssiBad e s
    else countMoved e (encOf s e).ext (setEnc e (ssiMoved s e raw d) s) := by
  obtain ⟨p, hp⟩ := Option.isSome_iff_exists.1 hp
  refine (if_neg (by simp [he, hm])).trans ((if_neg Bool.false_ne_true).trans ?_)
  unfold ssiUp
  rw [hp]
  rfl

section

variable {raw : Nat} (hp : (encOf s e).ssiPrev.isSome)
include hp

theorem ssiRead_forward (h4 : 4 * ssiUp s e raw ≤ encCpr s e) (h0 : 0 < encCpr s e) : ssiRead e raw false s =
    countMoved e (encOf s e).ext (setEnc e (ssiMoved s e raw (ssiUp s e raw)) s) := by
  rw [ssiRead_later he hm raw hp]
  simp only [if_pos (show 2 * ssiUp s e raw < encCpr s e by omega)]
  exact if_neg (by omega)

theorem ssiRead_backward (h4 : 3 * encCpr s e ≤ 4 * ssiUp s e raw) (h0 : 0 < encCpr s e) : ssiRead e raw false s =
    countMoved e (encOf s e).ext (setEnc e (ssiMoved s e raw (ssiUp s e raw - encCpr s e)) s) := by
  have hlt : ssiUp s e raw < encCpr s e := Nat.mod_lt _ h0
  rw [ssiRead_later he hm raw hp]
  simp only [if_neg (show ¬2 * ssiUp s e raw < encCpr s e by omega)]
  exact if_neg (by omega)

theorem ssiRead_jump (h1 : encCpr s e < 4 * ssiUp s e raw) (h2 : 4 * ssiUp s e raw < 3 * encCpr s e) :
    ssiRead e raw false s = ssiBad e s := by
  rw [ssiRead_later he hm raw hp]
  refine if_pos ?_
  split <;> omega

end

end

theorem ssiMoved_effect {s : State} {e : Nat} (hl : e < s.enc.length) (raw : Nat) (d : Int) :
    let u := setEnc e (ssiMoved s e raw d) s
    u = { s with enc := u.enc } ∧ (encOf u e).position = ssiValue s e raw ∧ (encOf u e).ext = (encOf s e).ext + d ∧
      (encOf u e).ssiPrev = some (ssiValue s e raw) := by
  intro u
  rw [show u = _ from rfl, encOf_setEnc_same hl]
  exact ⟨rfl, rfl, rfl, rfl⟩

/-! ### Hall groups (R411) -/

/-- HALL_FAULT of a group is raised at the first latch only. -/
def raiseUnless (latched : Bool) (g code : Nat) (s : State) : State :=
  if latched then s else raise 0x8005 (natLE 1 g ++ natLE 1 (code % 8)) s

theorem raiseUnless_hallOf (latched : Bool) (g code : Nat) (s : State) (k : Nat) : hallOf (raiseUnless latched g code s) k = hallOf s k := by
  rw [raiseUnless]
  split
  · rfl
  · rw [hallOf, raise_hall]
    rfl

section

variable {s : State} {g code n : Nat} (hg : g < 8) (hn : hallSector (code % 8) = some n)
include hg hn

theorem hallChange_first (hk : (hallOf s g).known = false) : hallChange g code s =
    setHall g (fun x => { x with code := BitVec.ofNat 3 (code % 8), known := true, sector := BitVec.ofNat 3 n }) s := by
  refine (if_neg (Nat.not_le.2 hg)).trans ?_
  rw [hn]
  refine (if_pos (by simp [hk])).trans ?_
  rw [setHall_setHall]

/-- A valid code of a group whose sector is known goes by the sectors between. -/
theorem hallChange_known (hk : (hallOf s g).known = true) : hallChange g code s =
    let u := setHall g (fun x => { x with code := BitVec.ofNat 3 (code % 8), known := true }) s
    match (n + 6 - (hallOf s g).sector.toNat) % 6 with
    | 0 => u
    | 1 => setHall g (hallEdge s.now true n) u
    | 5 => setHall g (hallEdge s.now false n) u
    | _ =>
      let v := setHall g (fun x => { x with sector := BitVec.ofNat 3 n, skip := true, skips := satInc x.skips }) u
      if (hallOf s g).skip then v else raise 0x8005 (natLE 1 g ++ natLE 1 (code % 8)) v := by
  refine (if_neg (Nat.not_le.2 hg)).trans ?_
  rw [hn]
  exact (if_neg (by simp [hk])).trans rfl

section

variable (hl : g < s.hall.length) (hk : (hallOf s g).known = true)
include hl hk

theorem hallChange_next (hd : (n + 6 - (hallOf s g).sector.toNat) % 6 = 1) :
    let u := hallChange g code s
    u = { s with hall := u.hall } ∧ (hallOf u g).count = (hallOf s g).count + 1 ∧ (hallOf u g).sector = BitVec.ofNat 3 n := by
  have hu := hallChange_known hg hn hk
  simp only [hd] at hu
  intro u
  rw [show u = _ from hu, setHall_setHall, hallOf_setHall_same hl]
  exact ⟨rfl, rfl, rfl⟩

theorem hallChange_previous (hd : (n + 6 - (hallOf s g).sector.toNat) % 6 = 5) :
    let u := hallChange g code s
    u = { s with hall := u.hall } ∧ (hallOf u g).count = (hallOf s g).count - 1 ∧ (hallOf u g).sector = BitVec.ofNat 3 n := by
  have hu := hallChange_known hg hn hk
  simp only [hd] at hu
  intro u
  rw [show u = _ from hu, setHall_setHall, hallOf_setHall_same hl]
  exact ⟨rfl, rfl, rfl⟩

theorem hallChange_skip (hd : (n + 6 - (hallOf s g).sector.toNat) % 6 ∈ [2, 3, 4]) :
    let u := hallChange g code s
    (hallOf u g).count = (hallOf s g).count ∧ (hallOf u g).skips = satInc (hallOf s g).skips ∧ (hallOf u g).skip = true := by
  have hu : hallChange g code s = raiseUnless (hallOf s g).skip g code (setHall g (fun x => { x with
      code := BitVec.ofNat 3 (code % 8), known := true, sector := BitVec.ofNat 3 n, skip := true, skips := satInc x.skips }) s) := by
    have hu := hallChange_known hg hn hk
    simp only [setHall_setHall] at hu
    simp only [List.mem_cons, List.not_mem_nil, or_false] at hd
    rcases hd with hd | hd | hd <;> rw [hd] at hu <;> exact hu
  intro u
  rw [show u = _ from hu, raiseUnless_hallOf, hallOf_setHall_same hl]
  exact ⟨rfl, rfl, rfl⟩

end

end

theorem hallChange_invalid {s : State} {g code : Nat} (hg : g < 8) (hl : g < s.hall.length) (hc : hallSector (code % 8) = none) :
    let u := hallChange g code s
    (hallOf u g).invalid = true ∧ (hallOf u g).sector = (hallOf s g).sector ∧ (hallOf u g).count = (hallOf s g).count := by
  have hu : hallChange g code s = raiseUnless (hallOf s g).invalid g code
      (setHall g (fun x => { x with invalid := true, code := BitVec.ofNat 3 (code % 8) }) s) := by
    refine (if_neg (Nat.not_le.2 hg)).trans ?_
    rw [hc]
    rfl
  intro u
  rw [show u = _ from hu, raiseUnless_hallOf, hallOf_setHall_same hl]
  exact ⟨rfl, rfl, rfl⟩

theorem hallSector_invalid {c : Nat} (h : c = 0 ∨ c = 7) : hallSector c = none := by rcases h with rfl | rfl <;> rfl

/-- Settles O48: edges, wires, SSI reads, standstill, windows and Hall changes, each by its rule (R402 to R413); that the first good SSI
read moves no count is the model's choice (log 175). -/
theorem encodersAndHallInTime : Obligations.EncodersAndHallInTime := by
  intro t s
  refine ⟨?_, ?_, ?_, ?_, ?_, ?_, ?_, ?_, ?_, ?_, ?_, ?_, ?_, ?_, ?_, ?_, ?_, ?_, ?_⟩
  · intro e he hl hm hf hc hk ha ht x
    have hl' : e < (passTo t s).enc.length := hl.symm ▸ he
    have hup := encEdge_quadrature (s := passTo t s) he hm
    have hone := countEdge_effect (s := passTo t s) hf hc hk ha ht hl'
    refine ⟨fun hi => ⟨?_, ?_⟩, fun hi => ?_, congrArg Host.Outcome.next (hup .illegal)⟩
    · obtain ⟨h1, h2, h3, h4, h5⟩ := hone true (up := true) (congrArg (true != ·) hi)
      exact ⟨_, congrArg Host.Outcome.next (hup .up), h1, h2, h3, h4, h5⟩
    · obtain ⟨h1, h2, h3, -, -⟩ := hone false (up := false) (congrArg (false != ·) hi)
      exact ⟨_, congrArg Host.Outcome.next (hup .down), h1, h2, h3⟩
    · obtain ⟨h1, h2, -, -, -⟩ := hone true (up := false) (congrArg (true != ·) hi)
      exact ⟨_, congrArg Host.Outcome.next (hup .up), h1, h2⟩
  · exact fun e k hm => congrArg Host.Outcome.next (encEdge_otherMode (s := passTo t s) hm k)
  · intro e he hm
    have hup := encEdge_quadrature (s := passTo t s) he hm
    exact ⟨congrArg Host.Outcome.next (hup .up), congrArg Host.Outcome.next (hup .down), congrArg Host.Outcome.next (hup .index),
      congrArg Host.Outcome.next (hup .illegal)⟩
  · exact fun e sense _ _ => countEdge_eq (passTo t s) e sense
  · exact fun e p he hp hm => congrArg Host.Outcome.next (encWire_agrees (s := passTo t s) he hp hm)
  · exact fun e p he hp hm => congrArg Host.Outcome.next (encWire_disagrees (s := passTo t s) he hp hm)
  · exact fun e _ => rfl
  · intro g t0 he ht
    have h := hallStall_due (s := passTo t s) he ht
    exact congrArg Host.Outcome.next ((if_neg (by omega)).trans ((congrArg (hallStall · (passTo t s)) (by omega)).trans h))
  · intro e p he hp hm hw
    refine ⟨_, congrArg Host.Outcome.next (encWire_disagrees (s := passTo t s) he hp (.inl hm)), rfl, fun hl => ?_⟩
    rw [encOf_setEnc_same (show e < (passTo t s).enc.length from hl.symm ▸ he)]
    exact ⟨if_pos (and_two_pow_of_clear _ p hp hw), rfl⟩
  · exact fun e raw he hm => congrArg Host.Outcome.next (ssiRead_lineLow (s := passTo t s) (by omega) hm raw)
  · intro e raw he hl hm n v up
    have hl' : e < (passTo t s).enc.length := by
      show e < s.enc.length
      omega
    have he' : e < 16 := by omega
    refine ⟨fun hp => ?_, fun hp h4 h0 => ?_, fun hp h4 h0 => ?_, fun hp h1 h2 => ?_⟩
    · exact congrArg Host.Outcome.next (ssiRead_first (s := passTo t s) he' hm raw hp)
    · obtain ⟨h1, h2, h3, h5⟩ := ssiMoved_effect (s := passTo t s) hl' raw (ssiUp (passTo t s) e raw)
      exact ⟨_, congrArg Host.Outcome.next (ssiRead_forward (s := passTo t s) he' hm hp h4 h0), h1, h2, h3, h5⟩
    · obtain ⟨h1, h2, h3, h5⟩ := ssiMoved_effect (s := passTo t s) hl' raw (ssiUp (passTo t s) e raw - encCpr (passTo t s) e)
      exact ⟨_, congrArg Host.Outcome.next (ssiRead_backward (s := passTo t s) he' hm hp h4 h0), h1, h2,
        h3.trans (add_sub_assoc ..).symm, h5⟩
    · exact congrArg Host.Outcome.next (ssiRead_jump (s := passTo t s) he' hm hp h1 h2)
  · exact fun e t0 he hm hx ht => congrArg Host.Outcome.next ((if_pos he).trans (encStall_due (s := passTo t s) hm hx ht))
  · exact fun e hm => congrArg Host.Outcome.next (windowEnd_otherMode (s := passTo t s) hm)
  · exact fun e t0 t1 c0 _ hm he hn hw ht hv hs hb hx => congrArg Host.Outcome.next
      (windowEnd_speed (s := passTo t s) hm he hn hw ht hv hs hb hx)
  · intro e he hl hm hw hb
    exact ⟨_, rfl, windowEnd_noEdge (s := passTo t s) (hl.symm ▸ he) hm hw hb⟩
  · intro g code n hg hl hk hn
    have hl' : g < (passTo t s).hall.length := hl.symm ▸ hg
    exact ⟨fun hd => ⟨_, rfl, hallChange_next (s := passTo t s) hg hn hl' hk hd⟩,
      fun hd => ⟨_, rfl, hallChange_previous (s := passTo t s) hg hn hl' hk hd⟩,
      fun hd => ⟨_, rfl, hallChange_skip (s := passTo t s) hg hn hl' hk hd⟩⟩
  · exact fun g code n hg hn hk => congrArg Host.Outcome.next (hallChange_first (s := passTo t s) hg hn hk)
  · intro g code n hg hn hk hd
    have hu := hallChange_known (s := passTo t s) hg hn hk
    have hd' : (n + 6 - (hallOf (passTo t s) g).sector.toNat) % 6 = 0 := hd
    rw [hd'] at hu
    exact congrArg Host.Outcome.next hu
  · exact fun g code hg hl hc => ⟨_, rfl, hallChange_invalid (s := passTo t s) hg (hl.symm ▸ hg) (hallSector_invalid hc)⟩

end Sys2Proof.Machine
end

section
/-! SUPPORT. What the camera opcodes answer and change. -/

namespace Sys2Proof.Machine

/-! ### What becomes due at the cameras leaves the variant -/

theorem finishIn_ident (ctx : Nat) (r : Ref) (st d x : Nat) (s : State) : (finishIn ctx r st d x s).ident = s.ident := by
  rw [finishIn, finishAs_hostq]

theorem abortDiag_ident (p : Nat) (s : State) : (abortDiag p s).ident = s.ident := by
  refine foldl_keeps _ State.ident (fun u c => ?_) _ s
  split
  · rfl
  · split
    · rfl
    · split <;> rfl

theorem fireXtrig_ident (p : Nat) (seq : Option Nat) (product : Nat) (s : State) : (fireXtrig p seq product s).ident = s.ident := by
  rw [fireXtrig]
  split <;> rfl

theorem commitSet_ident (p : Nat) (c : Ns) (r : Option Ref) (s : State) : (commitSet p c r s).ident = s.ident := by
  cases r with
  | none => rfl
  | some r => exact (finishIn_ident ..).trans rfl

theorem hostTrigger_ident (mask : Nat) (r : Option Ref) (s : State) : (hostTrigger mask r s).ident = s.ident := by
  have h : ∀ l : List Nat, (l.foldl (fun s p => fireXtrig p none noProduct (abortDiag p s)) s).ident = s.ident := fun l =>
    foldl_keeps _ State.ident (fun u p => (fireXtrig_ident ..).trans (abortDiag_ident ..)) l s
  cases r with
  | none => exact h _
  | some r => exact (finishIn_ident ..).trans (h _)

theorem camSettle_ident (s : State) : (camSettle s).ident = s.ident := by
  rw [camSettle]
  generalize List.range 8 = ports
  refine (foldl_keeps _ State.ident (fun u x => hostTrigger_ident ..) _ _).trans ?_
  show (List.foldl _ s _).ident = s.ident
  refine foldl_keeps _ State.ident (fun u p => ?_) _ _
  exact foldl_keeps _ State.ident (fun u x => commitSet_ident ..) _ _

theorem variant_settled (h : Hdr) (op : Nat) (s : State) : (camSettle (accept h op s)).variant = s.variant :=
  congrArg Ident.variant (camSettle_ident (accept h op s))

theorem cameras_le_eight (v : Variant) : v.cameras ≤ 8 := by cases v <;> decide

theorem camFused_iff {s : State} {p : Nat} : camFused s p = true ↔ s.variant.cameras ≤ p := by simp [camFused]

theorem not_camFused {s : State} {p : Nat} (h : p < s.variant.cameras) : ¬camFused s p = true := by
  rw [camFused_iff]
  omega

/-! ### A port that the variant lacks (R3) -/

section

variable {s u : State} (hu : camSettle s = u) {port : Nat} (h : u.variant.cameras ≤ port) (r : Ref)
include hu h

theorem startCamStream_fused (run : Bool) : startCamStream r port run s = endWith r stParam u := by
  rw [startCamStream, hu]
  exact if_pos (camFused_iff.2 h)

theorem startCamExpWrite_fused (len start mode count addr : Nat) :
    startCamExpWrite r port len start mode count addr s = endWith r stParam u := by
  rw [startCamExpWrite, hu]
  exact if_pos (by simp [camFused_iff.2 h])

theorem startCamExpCommit_fused (launch : Nat) : startCamExpCommit r port launch s = endWith r stParam u := by
  have hc : camCommitCheck port u = stParam := if_pos (camFused_iff.2 h)
  rw [startCamExpCommit, hu, hc]
  rfl

theorem startCamTrigger_fused {mask : Nat} (hm : mask.testBit port = true) (launch : Nat) :
    startCamTrigger r mask launch s = endWith r stParam u := by
  have hc : camTriggerCheck mask u = stParam :=
    if_pos ((Nat.pow_le_pow_right (by decide) h).trans (Nat.ge_two_pow_of_testBit hm))
  rw [startCamTrigger, hu, hc]
  rfl

theorem startCamCci_fused (write wide : Bool) (reg value : Nat) :
    startCamCci r port write wide reg value s = endWith r stParam u := by
  rw [startCamCci, hu]
  exact if_pos (camFused_iff.2 h)

theorem startCamRing_fused (base size slots : Nat) : startCamRing r port base size slots s = endWith r stParam u := by
  rw [startCamRing, hu]
  exact if_pos (camFused_iff.2 h)

end

/-! ### CAM_TRIGGER (R427) -/

section

variable {s u : State} (hu : camSettle s = u) {mask : Nat} (hm : mask < 2 ^ u.variant.cameras) (r : Ref) (launch : Nat)
include hu hm

theorem startCamTrigger_notHost (h : ∃ p < 8, mask.testBit p = true ∧ camMode u p ≠ 1) :
    startCamTrigger r mask launch s = endWith r stState u := by
  have hc : camTriggerCheck mask u = stState := by
    refine (if_neg (by omega)).trans (if_neg ?_)
    obtain ⟨p, hp, hb, hq⟩ := h
    exact fun ha => hq (of_decide_eq_true (List.all_eq_true.1 ha p (mem_bitsOf.2 ⟨hp, hb⟩)))
  rw [startCamTrigger, hu, hc]
  rfl

/-- In mode HOST the trigger goes by its launch. -/
theorem startCamTrigger_host (h : ∀ p < 8, mask.testBit p = true → camMode u p = 1) :
    startCamTrigger r mask launch s = match lightLaunch launch u with
      | none => endWith r stState u
      | some t => applyCamTrigger (some r) mask t u := by
  have hc : camTriggerCheck mask u = stDone := by
    refine (if_neg (by omega)).trans (if_pos (List.all_eq_true.2 fun p hp => ?_))
    exact decide_eq_true (h p (mem_bitsOf.1 hp).1 (mem_bitsOf.1 hp).2)
  rw [startCamTrigger, hu, hc]
  rfl

theorem startCamTrigger_noLaunch (h : ∀ p < 8, mask.testBit p = true → camMode u p = 1)
    (hl : lightLaunch launch u = none) : startCamTrigger r mask launch s = endWith r stState u := by
  rw [startCamTrigger_host hu hm r launch h, hl]

theorem startCamTrigger_fires {t : Ns} (h : ∀ p < 8, mask.testBit p = true → camMode u p = 1)
    (hl : lightLaunch launch u = some t) (ht : t ≤ u.now) :
    startCamTrigger r mask launch s = finishIn (272 + (bitsOf 8 mask).headD 0) r stDone 0 0
      ((bitsOf 8 mask).foldl (fun u p => fireXtrig p none noProduct (abortDiag p u)) u) := by
  rw [startCamTrigger_host hu hm r launch h, hl]
  exact if_pos ht

theorem startCamTrigger_waits {t : Ns} (h : ∀ p < 8, mask.testBit p = true → camMode u p = 1)
    (hl : lightLaunch launch u = some t) (ht : u.now < t) : startCamTrigger r mask launch s =
      setIsp (fun i => { i with trigs := i.trigs ++ [(t, mask, some r)] }) u := by
  rw [startCamTrigger_host hu hm r launch h, hl]
  exact if_neg (Nat.not_le.2 ht)

end

theorem tickAt_aligned {t : Nat} (h : t % 5 = 0) : tickAt t = t := by
  have ha : alignUp t 5 = (t + 5 - 1) / 5 * 5 := if_neg (by decide)
  show alignUp t 5 = t
  rw [ha]
  omega

theorem lightLaunch_zero (s : State) : lightLaunch 0 s = some (tickAt s.now) := if_pos rfl

theorem two_pow_mode {s : State} {port : Nat} (h : camMode s port = 1) : ∀ p < 8, (2 ^ port).testBit p = true → camMode s p = 1 := by
  intro p _ hp
  obtain rfl : port = p := by simpa [Nat.testBit_two_pow] using hp
  exact h

/-! ### The opcodes of one port (R429, R430, R441, R454) -/

section

variable {s u : State} (hu : camSettle s = u) {port : Nat} (hf : port < u.variant.cameras) (r : Ref)
include hu hf

theorem startCamStream_runs (h : (camOf u port).ringSet = true) : startCamStream r port true s =
    finishIn (272 + port) r stDone 0 0 (setCam port (fun c => { c with streaming := true }) u) := by
  rw [startCamStream, hu]
  exact (if_neg (not_camFused hf)).trans ((if_pos rfl).trans (if_neg (by simp [h])))

theorem startCamStream_noRing (h : (camOf u port).ringSet = false) :
    startCamStream r port true s = finishIn (272 + port) r stState 0 0 u := by
  rw [startCamStream, hu]
  exact (if_neg (not_camFused hf)).trans ((if_pos rfl).trans (if_pos (by simp [h])))

theorem startCamStream_stops (h : (camOf u port).frame = none) : startCamStream r port false s =
    finishIn (272 + port) r stDone 0 0 (dropWaits port (setCam port (fun c => { c with streaming := false }) u)) := by
  rw [startCamStream, hu]
  exact (if_neg (not_camFused hf)).trans ((if_neg Bool.false_ne_true).trans (if_neg (by simp [h])))

theorem startCamStream_stopsLater {f : CamFrame} (h : (camOf u port).frame = some f) : startCamStream r port false s =
    dropWaits port (setCam port (fun c => { c with streaming := false, stops := c.stops ++ [r] }) u) := by
  rw [startCamStream, hu]
  exact (if_neg (not_camFused hf)).trans ((if_neg Bool.false_ne_true).trans (if_pos (by simp [h])))

theorem startCamCci_queues (write wide : Bool) (reg value : Nat) : startCamCci r port write wide reg value s =
    setCam port (fun c => { c with cci := c.cci ++ [.host r write wide reg value] }) u := by
  rw [startCamCci, hu]
  exact if_neg (not_camFused hf)

theorem startCamRing_streaming (h : (camOf u port).streaming = true) (base size slots : Nat) :
    startCamRing r port base size slots s = finishIn (272 + port) r stState 0 0 u := by
  rw [startCamRing, hu]
  exact (if_neg (not_camFused hf)).trans (if_pos h)

theorem startCamRing_fewSlots (h : (camOf u port).streaming = false) {slots : Nat} (hs : slots < 2) (base size : Nat) :
    startCamRing r port base size slots s = finishIn (272 + port) r stParam 0 0 u := by
  rw [startCamRing, hu]
  exact (if_neg (not_camFused hf)).trans ((if_neg (by simp [h])).trans (if_pos (by simp [hs])))

theorem startCamRing_sets (h : (camOf u port).streaming = false) {base size slots : Nat} (hb : base % 4096 = 0)
    (hz : size % 4096 = 0) (h2 : 2 ≤ slots) (h256 : slots ≤ 256)
    (hc : codeOff u port + (if outCode u port then 65536 else 0) ≤ size) (h1 : 0x1000 ≤ size)
    (hm : hostMem base (size * slots) u = true) : startCamRing r port base size slots s =
      finishIn (272 + port) r stDone 0 0 (setCam port (fun c => { c with
        ringSet := true, published := false, base := BitVec.ofNat 64 base, slotSize := size, slots := slots }) u) := by
  rw [startCamRing, hu]
  refine (if_neg (not_camFused hf)).trans ((if_neg (by simp [h])).trans (if_neg ?_))
  simp [hb, hz, hm]
  omega

/-- Values in range of CAM_EXP_WRITE without a list. -/
theorem startCamExpWrite_noList {len start mode : Nat} (h0 : 0 < len) (h1 : len ≤ 1000000) (h2 : start ≤ 100000) (h3 : mode ≤ 1) :
    startCamExpWrite r port len start mode 0 0 s = finishIn (272 + port) r stDone 0 0 (setCam port (fun c => { c with
      back := { ExpSet.none with len := len, start := start, pulse := mode == 1, cci := [] } }) u) := by
  rw [startCamExpWrite, hu]
  refine (if_neg ?_).trans rfl
  simp [not_camFused hf]
  omega

section

variable {len start mode count addr : Nat} (h0 : 0 < len) (h1 : len ≤ 1000000) (h2 : start ≤ 100000) (h3 : mode ≤ 1) (h4 : 0 < count)
  (h5 : count ≤ 16) (hm : hostMem addr (8 * count) u = true) (hp : poisonIn addr (8 * count) u = none)
include h0 h1 h2 h3 h4 h5 hm hp

/-- Values in range of CAM_EXP_WRITE with a readable list go by the list's reserved bits. -/
theorem startCamExpWrite_list : startCamExpWrite r port len start mode count addr s =
    if (List.range count).any fun i => 1 < memNat (addr + 8 * i + 4) 4 u then finishIn (272 + port) r stParam 0 0 u
    else finishIn (272 + port) r stDone 0 0 (setCam port (fun c => { c with back := { ExpSet.none with
      len := len, start := start, pulse := mode == 1, cci := readCci addr count u } }) u) := by
  rw [startCamExpWrite, hu]
  refine (if_neg ?_).trans ?_
  · simp [not_camFused hf, hm]
    omega
  · rw [if_neg (by omega), hp]

theorem startCamExpWrite_reserved (h : ∃ i < count, 1 < memNat (addr + 8 * i + 4) 4 u) :
    startCamExpWrite r port len start mode count addr s = finishIn (272 + port) r stParam 0 0 u := by
  rw [startCamExpWrite_list hu hf r h0 h1 h2 h3 h4 h5 hm hp]
  obtain ⟨i, hi, hx⟩ := h
  exact if_pos (List.any_eq_true.2 ⟨i, List.mem_range.2 hi, decide_eq_true hx⟩)

theorem startCamExpWrite_fills (h : ∀ i < count, memNat (addr + 8 * i + 4) 4 u ≤ 1) :
    startCamExpWrite r port len start mode count addr s = finishIn (272 + port) r stDone 0 0 (setCam port (fun c => { c with
      back := { ExpSet.none with len := len, start := start, pulse := mode == 1, cci := readCci addr count u } })
        u) := by
  rw [startCamExpWrite_list hu hf r h0 h1 h2 h3 h4 h5 hm hp]
  refine if_neg fun hx => ?_
  obtain ⟨i, hi, hx⟩ := List.any_eq_true.1 hx
  exact absurd (of_decide_eq_true hx) (Nat.not_lt.2 (h i (List.mem_range.1 hi)))

end

theorem startCamExpCommit_busy (h : 4 ≤ (camOf u port).pending.length + (camOf u port).commits.length)
    (launch : Nat) : startCamExpCommit r port launch s = finishIn (272 + port) r stBusy 0 0 u := by
  have hc : camCommitCheck port u = stBusy := (if_neg (not_camFused hf)).trans (if_pos h)
  rw [startCamExpCommit, hu, hc]
  rfl

/-- With room for a set the commit goes by its launch. -/
theorem startCamExpCommit_room (h : (camOf u port).pending.length + (camOf u port).commits.length < 4)
    (launch : Nat) : startCamExpCommit r port launch s = match lightLaunch launch u with
      | none => finishIn (272 + port) r stState 0 0 u
      | some t => applyCamCommit (some r) port t u := by
  have hc : camCommitCheck port u = stDone := (if_neg (not_camFused hf)).trans (if_neg (by omega))
  rw [startCamExpCommit, hu, hc]
  rfl

section

variable (h : (camOf u port).pending.length + (camOf u port).commits.length < 4) {launch : Nat}
include h

theorem startCamExpCommit_noLaunch (hl : lightLaunch launch u = none) :
    startCamExpCommit r port launch s = finishIn (272 + port) r stState 0 0 u := by
  rw [startCamExpCommit_room hu hf r h launch, hl]

theorem startCamExpCommit_waits {t : Ns} (hl : lightLaunch launch u = some t) (ht : u.now < t) :
    startCamExpCommit r port launch s = setCam port (fun c => { c with commits := c.commits ++ [(t, some r)] }) u := by
  rw [startCamExpCommit_room hu hf r h launch, hl]
  exact if_neg (Nat.not_le.2 ht)

theorem startCamExpCommit_sets {t : Ns} (hl : lightLaunch launch u = some t) (ht : t ≤ u.now) :
    startCamExpCommit r port launch s = commitSet port t (some r) u := by
  rw [startCamExpCommit_room hu hf r h launch, hl]
  exact if_pos ht

end

end

/-- CAM_EXP_COMMIT at its tick (R430). -/
theorem exec_camExpCommit_sets {h : Hdr} {s u : State} (hr : Ready h s) (hu : camSettle (accept h 0x62 s) = u) {port : Nat}
    (hf : port < u.variant.cameras) (hp : (camOf u port).pending.length + (camOf u port).commits.length < 4) {launch : Nat} {t : Ns}
    (hl : lightLaunch launch u = some t) (ht : t ≤ u.now) :
    let c := camOf u port
    let g := c.latestGen + 1
    let x : ExpSet := { c.back with
      gen := g, at_ := t, written := if c.back.cci.isEmpty then some t else none, frames := 0, late := false }
    exec (.camExpCommit h port launch) s = .next (finishIn (272 + port) h.ref stDone 0 g.toNat (bumpOverride 7 true
      (setCam port (fun c => { c with
        latestGen := g, pending := c.pending ++ [x], cci := if x.cci.isEmpty then c.cci else c.cci ++ [.set g] }) u))) :=
  post_next hr (startCamExpCommit_sets hu hf h.ref hp hl ht)

theorem startCamExpWrite_param {len start mode count : Nat} (h : len = 0 ∨ 1000000 < len ∨ 100000 < start ∨ 2 ≤ mode ∨ 16 < count) (r : Ref)
    (port addr : Nat) {s u : State}
    (hu : camSettle s = u) : startCamExpWrite r port len start mode count addr s = endWith r stParam u := by
  rw [startCamExpWrite, hu]
  refine if_pos ?_
  rcases h with h | h | h | h | h <;> simp [h]

theorem hostTrigger_one {port : Nat} (h : port < 8) (r : Ref) (s : State) : finishIn (272 + (bitsOf 8 (2 ^ port)).headD 0) r stDone 0 0
    ((bitsOf 8 (2 ^ port)).foldl (fun u p => fireXtrig p none noProduct (abortDiag p u)) s)
      = finishIn (272 + port) r stDone 0 0 (fireXtrig port none 0xFFFFFFFF (abortDiag port s)) := by
  rw [bitsOf_two_pow h, List.headD_cons, List.foldl_cons, List.foldl_nil, noProduct]

theorem startCamTrigger_now {s u : State} (hu : camSettle s = u) {port : Nat} (hf : port < u.variant.cameras) (h5 : u.now % 5 = 0)
    (hm : camMode u port = 1) (r : Ref) : startCamTrigger r (2 ^ port) 0 s =
      finishIn (272 + port) r stDone 0 0 (fireXtrig port none 0xFFFFFFFF (abortDiag port u)) :=
  (startCamTrigger_fires hu (Nat.pow_lt_pow_right (by decide) hf) r 0 (two_pow_mode hm) (lightLaunch_zero u) (tickAt_aligned h5).le).trans
    (hostTrigger_one (hf.trans_le (cameras_le_eight _)) r u)

/-- Settles O49: the camera opcodes by their own rules (R427 to R430, R441, R454). That RUN completes at once (log 161), that launches count
by lane ticks (log 163) and that a stopped port's waiting triggers get no frame (log 185) are choices of the model. -/
theorem cameraOpcodes : Obligations.CameraOpcodes := by
  intro h s hr v
  have hv : ∀ op, (camSettle (accept h op s)).variant = s.variant := fun op => variant_settled h op s
  refine ⟨fun port hp => ?_, ?_, ?_, ?_, fun port hp => ?_⟩
  · have hp' : ∀ op, (camSettle (accept h op s)).variant.cameras ≤ port := fun op => (hv op).symm ▸ hp
    exact ⟨fun run => post_next hr (startCamStream_fused rfl (hp' _) ..), fun len start mode count addr =>
      post_next hr (startCamExpWrite_fused rfl (hp' _) ..), fun launch => post_next hr (startCamExpCommit_fused rfl (hp' _) ..),
      fun launch mask hm => post_next hr (startCamTrigger_fused rfl (hp' _) _ hm _), fun write wide reg value =>
      post_next hr (startCamCci_fused rfl (hp' _) ..), fun base size slots => post_next hr (startCamRing_fused rfl (hp' _) ..)⟩
  · intro mask launch t hm hh hl
    have hm' : mask < 2 ^ (camSettle (accept h 0x63 s)).variant.cameras := (hv _).symm ▸ hm
    exact ⟨fun ht => post_next hr (startCamTrigger_fires rfl hm' _ _ hh hl ht),
      fun ht => post_next hr (startCamTrigger_waits rfl hm' _ _ hh hl ht)⟩
  · exact fun mask launch hm hh hl => post_next hr (startCamTrigger_noLaunch rfl ((hv _).symm ▸ hm) _ _ hh hl)
  · exact fun mask launch hm hh => post_next hr (startCamTrigger_notHost rfl ((hv _).symm ▸ hm) _ _ hh)
  · have hp' : ∀ op, port < (camSettle (accept h op s)).variant.cameras := fun op => (hv op).symm ▸ hp
    refine ⟨?_, ?_, ?_, ?_, ?_, ?_, ?_, ?_, ?_, ?_, ?_, ?_, ?_, ?_⟩
    · exact fun hs => post_next hr (startCamStream_runs rfl (hp' _) _ hs)
    · exact fun hs => post_next hr (startCamStream_noRing rfl (hp' _) _ hs)
    · exact fun hs => post_next hr (startCamStream_stops rfl (hp' _) _ hs)
    · exact fun f hs => post_next hr (startCamStream_stopsLater rfl (hp' _) _ hs)
    · exact fun len start mode h0 h1 h2 h3 => post_next hr (startCamExpWrite_noList rfl (hp' _) _ h0 h1 h2 h3)
    · exact fun len start mode count addr h0 h1 h2 h3 h4 h5 hm hq =>
        ⟨fun hx => post_next hr (startCamExpWrite_fills rfl (hp' _) _ h0 h1 h2 h3 h4 h5 hm hq hx),
          fun hx => post_next hr (startCamExpWrite_reserved rfl (hp' _) _ h0 h1 h2 h3 h4 h5 hm hq hx)⟩
    · exact fun len start mode count addr hx => post_next hr (startCamExpWrite_param hx _ _ _ rfl)
    · exact fun launch hb => post_next hr (startCamExpCommit_busy rfl (hp' _) _ hb _)
    · refine fun hb launch => ⟨fun hl => post_next hr (startCamExpCommit_noLaunch rfl (hp' _) _ hb hl),
        fun t hl => ⟨fun ht => post_next hr (startCamExpCommit_waits rfl (hp' _) _ hb hl ht), fun ht => ?_⟩⟩
      exact exec_camExpCommit_sets (u := v 0x62) hr rfl (hp' _) hb hl ht
    · exact fun h5 hm => post_next hr (startCamTrigger_now (u := v 0x63) rfl (hp' _) h5 hm _)
    · exact fun write wide reg value => post_next hr (startCamCci_queues rfl (hp' _) ..)
    · exact fun base size slots hs => post_next hr (startCamRing_streaming rfl (hp' _) _ hs ..)
    · exact fun base size slots hs h2 => post_next hr (startCamRing_fewSlots rfl (hp' _) _ hs h2 ..)
    · exact fun base size slots hs hb hz h2 h256 hc h1 hm => post_next hr (startCamRing_sets rfl (hp' _) _ hs hb hz h2 h256 hc h1 hm)

end Sys2Proof.Machine
end

section
/-! SUPPORT. Camera frames and their lines (R421 to R427, R442). -/

namespace Sys2Proof.Machine

/-! ### Ports after an update -/

theorem camOf_setCam_same {s : State} {p : Nat} (h : p < s.cams.length) (f : Cam → Cam) : camOf (setCam p f s) p = f (camOf s p) :=
  unit_modUnit_same h f .reset

theorem camOf_setCam_other {p q : Nat} (h : q ≠ p) (f : Cam → Cam) (s : State) : camOf (setCam p f s) q = camOf s q :=
  unit_modUnit_other h f .reset

theorem setCam_congr {s : State} {p : Nat} {f g : Cam → Cam} (h : f (camOf s p) = g (camOf s p)) : setCam p f s = setCam p g s :=
  congrArg (fun xs => { s with cams := xs }) (modUnit_congr (d := .reset) h)

theorem setCam_setCam (p : Nat) (f g : Cam → Cam) (s : State) : setCam p g (setCam p f s) = setCam p (fun x => g (f x)) s :=
  congrArg (fun xs => { s with cams := xs }) (modUnit_modUnit s.cams p f g)

theorem setCam_length (p : Nat) (f : Cam → Cam) (s : State) : (setCam p f s).cams.length = s.cams.length := List.length_modify ..

/-! ### Frame starts (R423 to R425, R427) -/

theorem endFrame_none {s : State} {p : Nat} (h : (camOf s p).frame = none) (b : Bool) : endFrame p b s = s := by
  rw [endFrame, h]

theorem answeredTrig_waiting {s : State} {p : Nat} {w : XTrig} {rest : List XTrig} (h : (camOf s p).waits = w :: rest) :
    answeredTrig p s = (w, setCam p (fun c => { c with waits := rest }) s) := by
  rw [answeredTrig, h]

/-- The frame that an FS admits, for the trigger that it answers. -/
def freshFrame (w : XTrig) (num : BitVec 32) (now : Ns) (slot : Option Nat) : CamFrame :=
  { num := num, gen := w.gen, tF := w.tF, fs := now, fe := 0, product := w.product, seq := w.seq, post := w.post
    truncated := false, overlong := false, fixed := false, crc := false, overrun := false, reset := false, lines := 0, fixes := 0
    rows := [], pads := [], lastLine := now, slot := slot, coding := false, code := none, stats := false }

/-- The port after an FS has been answered, before it is admitted. -/
def fsCounted (p : Nat) (s : State) : State :=
  setCam p (fun c => { c with
    frameNo := (camOf s p).frameNo + 1, fsTimes := if camMode s p = 0 then (s.now :: c.fsTimes).take 2 else c.fsTimes }) s

theorem cameraFs_idle {s : State} {p : Nat} (h : (camOf s p).streaming = false) (vc : Nat) : cameraFs p vc s = s :=
  if_pos (by simp [h])

theorem cameraFs_otherChannel {s : State} {p vc : Nat} (h : (camOf s p).streaming = true) (hv : vc ≠ camF s p 0 3 2) :
    cameraFs p vc s = setCam p (fun c => { c with otherPkt := satInc c.otherPkt }) s :=
  (if_neg (by simp [h])).trans (if_pos (by simp [hv]))

/-- The slot of the frame that an FS admits: none without a ring. -/
def admitSlot (p : Nat) (s : State) : Option Nat :=
  if (camOf s p).ringSet then some (slotOf (fsCounted p s) p ((camOf s p).frameNo + 1).toNat) else none

/-- An FS that answers `w` in a state is admitted by the capacity, or its frame is dropped (R425). -/
def admitFrame (p : Nat) (w : XTrig) (s : State) : State :=
  let u := fsCounted p s
  let num := (camOf s p).frameNo + 1
  if admitCapacity u < admitted u + camF u p 8 0 11 then
    let u := setCam p (fun c => { c with dropped := c.dropped + 1 }) u
    afterJudging (judged p w.tF true (raise 0x7001 (natLE 1 p ++ natLE 4 num.toNat ++ natLE 2 (admitted u)) u))
  else
    let u := setCam p (fun c => { c with frame := some (freshFrame w num u.now (admitSlot p s)), expGen := w.gen }) u
    match admitSlot p s with
    | some a => memWrite (16 + p) a (natLE 4 num.toNat) (rtAccess (16 + p) a u)
    | none => u

theorem cameraFs_good {s : State} {p : Nat} (h : (camOf s p).streaming = true) {a : XTrig × State}
    (ha : answeredTrig p (endFrame p false s) = a) : cameraFs p (camF s p 0 3 2) s = admitFrame p a.1 a.2 := by
  refine (if_neg (by simp [h])).trans ((if_neg (by simp)).trans ?_)
  simp only [ha]
  rfl

theorem admitFrame_dropped {s : State} {p : Nat}
    (hc : admitCapacity (fsCounted p s) < admitted (fsCounted p s) + camF (fsCounted p s) p 8 0 11) (w : XTrig) :
    admitFrame p w s =
      let u := setCam p (fun c => { c with dropped := c.dropped + 1 }) (fsCounted p s)
      afterJudging (judged p w.tF true
        (raise 0x7001 (natLE 1 p ++ natLE 4 ((camOf s p).frameNo + 1).toNat ++ natLE 2 (admitted u)) u)) := if_pos hc

section

variable {s : State} {p : Nat} (hc : admitted (fsCounted p s) + camF (fsCounted p s) p 8 0 11 ≤ admitCapacity (fsCounted p s))
include hc

theorem admitFrame_noRing (hr : (camOf s p).ringSet = false) (w : XTrig) : admitFrame p w s = setCam p (fun c => { c with
    frame := some (freshFrame w ((camOf s p).frameNo + 1) (fsCounted p s).now (admitSlot p s)), expGen := w.gen }) (fsCounted p s) := by
  have hs : admitSlot p s = none := if_neg (by simp [hr])
  refine (if_neg (Nat.not_lt.2 hc)).trans ?_
  simp only [hs]

theorem admitFrame_ring (hr : (camOf s p).ringSet = true) (w : XTrig) : admitFrame p w s =
    let n := (camOf s p).frameNo + 1
    let slot := slotOf (fsCounted p s) p n.toNat
    memWrite (16 + p) slot (natLE 4 n.toNat) (rtAccess (16 + p) slot (setCam p (fun c => { c with
      frame := some (freshFrame w n (fsCounted p s).now (admitSlot p s)), expGen := w.gen }) (fsCounted p s))) := by
  have hs : admitSlot p s = some (slotOf (fsCounted p s) p ((camOf s p).frameNo + 1).toNat) := if_pos hr
  refine (if_neg (Nat.not_lt.2 hc)).trans ?_
  simp only [hs]

end

/-- ADMITTED goes by the ports with a frame in progress. -/
theorem admitted_setCam {s : State} {p : Nat} (hp : p < s.cams.length) {f : Cam → Cam} (h : (f (camOf s p)).frame = (camOf s p).frame) :
    admitted (setCam p f s) = admitted s := by
  have hf : ∀ q, (camOf (setCam p f s) q).frame = (camOf s q).frame := by
    intro q
    by_cases hq : q = p
    · rw [hq, camOf_setCam_same hp, h]
    · rw [camOf_setCam_other hq]
  unfold admitted
  simp only [hf]
  rfl

/-! ### Lines (R421, R424) -/

theorem cameraLine_badHeader {s : State} {p : Nat} (h : (camOf s p).streaming = true) {hdr : Nat} (hh : 2 ≤ hdr) (vc dt : Nat)
    (bad lost : Bool) (px : List Nat) :
    cameraLine p vc dt hdr bad lost px s = setCam p (fun c => { c with hdrErr := satInc c.hdrErr }) s :=
  (if_neg (by simp [h])).trans (if_pos hh)

theorem cameraLine_otherPacket {s : State} {p : Nat} (h : (camOf s p).streaming = true) {hdr vc dt : Nat} (hh : hdr < 2)
    (hv : vc ≠ camF s p 0 3 2 ∨ dt ≠ camF s p 0 5 6) (bad lost : Bool) (px : List Nat) :
    cameraLine p vc dt hdr bad lost px s = setCam p (fun c => { c with otherPkt := satInc c.otherPkt }) s :=
  (if_neg (by simp [h])).trans ((if_neg (Nat.not_le.2 hh)).trans (if_pos (by rcases hv with hv | hv <;> simp [hv])))

section

variable {s : State} {p : Nat} (h : (camOf s p).streaming = true ∨ (camOf s p).frame ≠ none) {hdr : Nat} (hh : hdr < 2)
  (hd : dtBits (camF s p 0 5 6) ≠ 0) (bad : Bool) (px : List Nat)
include h hh hd

theorem cameraLine_good (lost : Bool) : cameraLine p (camF s p 0 3 2) (camF s p 0 5 6) hdr bad lost px s =
    if lost then setFrame p (fun f => { f with overrun := true }) s else takeLine p (camF s p 0 5 6) bad px s := by
  refine (if_neg ?_).trans ((if_neg (Nat.not_le.2 hh)).trans (if_neg (by simp [hd])))
  rcases h with h | h <;> simp [h]

theorem cameraLine_taken : cameraLine p (camF s p 0 3 2) (camF s p 0 5 6) hdr bad false px s = takeLine p (camF s p 0 5 6) bad px s :=
  cameraLine_good h hh hd bad px false

theorem cameraLine_lost : cameraLine p (camF s p 0 3 2) (camF s p 0 5 6) hdr bad true px s =
    setFrame p (fun f => { f with overrun := true }) s := cameraLine_good h hh hd bad px true

end

theorem postCoding_noSlot {f : CamFrame} (h : f.slot = none) (p : Nat) (s : State) : postCoding p f s = s := by
  rw [postCoding, h]

theorem storeRows_noSlot {f : CamFrame} (h : f.slot = none) (p y : Nat) (rows : List (List Nat)) (s : State) :
    storeRows p f y rows s = s := by
  rw [storeRows, h]

theorem takeLine_beyond {s : State} {p : Nat} {f : CamFrame} (hf : (camOf s p).frame = some f) (hy : camHeight s p ≤ f.rows.length)
    (dt : Nat) (px : List Nat) : takeLine p dt false px s = setCam p (fun c => { c with
      excess := satInc c.excess, frame := some { f with lines := f.lines + 1, overlong := true, lastLine := s.now } }) s := by
  rw [takeLine, hf]
  simp only [Bool.false_eq_true, if_false, if_pos hy]
  refine (setCam_setCam ..).trans (setCam_congr ?_)
  simp only [hf]
  rfl

/-- The row that a line makes: its pixels as 16 bits, cut or padded to WIDTH. -/
def rowOf (s : State) (p dt y : Nat) (px : List Nat) : List Nat :=
  let row := (px.map fun v => v % 2 ^ dtBits dt * 2 ^ (16 - dtBits dt)).take (camWidth s p)
  row ++ (List.range (camWidth s p - row.length)).map fun i => blackAt s p (row.length + i) y

theorem length_rowOf (s : State) (p dt y : Nat) (px : List Nat) : (rowOf s p dt y px).length = camWidth s p := by
  simp only [rowOf, List.length_append, List.length_take, List.length_map, List.length_range]
  omega

theorem take_rowOf (s : State) (p dt y : Nat) (px : List Nat) : (rowOf s p dt y px).take px.length =
    (px.map fun v => v % 2 ^ dtBits dt * 2 ^ (16 - dtBits dt)).take (camWidth s p) := by
  rw [rowOf]
  rcases Nat.le_total px.length (camWidth s p) with h | h
  · rw [List.take_left' (by simpa using h)]
  · rw [List.take_of_length_le (by simp; omega)]
    simp [Nat.min_eq_left h]

theorem rowOf_full {s : State} {p : Nat} {px : List Nat} (h : px.length = camWidth s p) (dt y : Nat) :
    rowOf s p dt y px = px.map fun v => v % 2 ^ dtBits dt * 2 ^ (16 - dtBits dt) := by
  rw [← List.take_of_length_le (l := rowOf s p dt y px) (i := px.length) (by rw [length_rowOf, h]), take_rowOf,
    List.take_of_length_le (by simp [h])]

/-- A line within HEIGHT of a frame without a slot. -/
theorem takeLine_row {s : State} {p : Nat} {f : CamFrame} (hf : (camOf s p).frame = some f) (hs : f.slot = none)
    (hy : f.rows.length < camHeight s p) (dt : Nat) (px : List Nat) :
    let fix := px.length != camWidth s p
    takeLine p dt false px s = setCam p (fun c => { c with
      lineFixes := if fix then satInc c.lineFixes else c.lineFixes
      frame := some { f with
        lines := f.lines + 1, rows := f.rows ++ [rowOf s p dt f.rows.length px], lastLine := s.now, fixed := f.fixed || fix
        fixes := if fix then f.fixes + 1 else f.fixes
        pads := if min (camWidth s p) px.length < camWidth s p then f.pads ++ [(f.rows.length, min (camWidth s p) px.length)] else f.pads } }) s := by
  intro fix
  rw [takeLine, hf]
  simp only [Bool.false_eq_true, if_false, if_neg (Nat.not_le.2 hy), storeRows_noSlot hs, postCoding_noSlot hs, ite_self]
  cases hx : px.length != camWidth s p with
  | false =>
    simp only [Bool.false_eq_true, if_false]
    refine setCam_congr ?_
    simp [hf, rowOf, show fix = false from hx]
  | true =>
    simp only [if_true]
    refine (setCam_setCam ..).trans (setCam_congr ?_)
    simp [hf, rowOf, show fix = true from hx]

/-! ### Ends of frames (R424, R427) -/

theorem finishIn_cams (ctx : Nat) (r : Ref) (st d x : Nat) (s : State) : (finishIn ctx r st d x s).cams = s.cams := by
  rw [finishIn, finishAs_hostq]

theorem takeCapacity_cams (s : State) : (takeCapacity s).cams = s.cams := by
  rw [takeCapacity]
  split
  · rfl
  · split <;> rfl

theorem camOf_congr {s u : State} (h : u.cams = s.cams) (p : Nat) : camOf u p = camOf s p := by rw [camOf, h, camOf]

/-- A frame that ends without a slot: its missing rows are filled (R424). -/
def endedFrame (s : State) (p : Nat) (byReset : Bool) (f : CamFrame) : CamFrame :=
  let n := f.rows.length
  { f with
    rows := f.rows ++ (List.range (camHeight s p - n)).map fun i => (List.range (camWidth s p)).map fun x => blackAt s p x (n + i)
    pads := f.pads ++ (List.range (camHeight s p - n)).map (fun i => (n + i, 0)), fe := s.now
    truncated := f.truncated || decide (n < camHeight s p), reset := f.reset || byReset }

/-- A frame goes from the one in progress to those that wait for their statistics. -/
def closeFrame (p : Nat) (g : CamFrame) (s : State) : State :=
  let bad := g.flags - 32 * b1 g.seq.isSome != 0
  let u := setCam p (fun c => { c with
    frame := none, closing := c.closing ++ [g], readout := s.now - g.fs, flagged := bad, stops := []
    truncated := if g.truncated then c.truncated + 1 else c.truncated
    overlong := if g.overlong then c.overlong + 1 else c.overlong }) s
  let u := if bad && !(camOf s p).flagged then raise 0x7003 (natLE 1 p ++ natLE 4 g.num.toNat ++ natLE 2 g.flags) u else u
  takeCapacity ((camOf s p).stops.foldl (fun s r => finishIn (272 + p) r stDone 0 0 s) u)

theorem endFrame_noSlot {s : State} {p : Nat} {f : CamFrame} (hf : (camOf s p).frame = some f) (hs : f.slot = none)
    (hm : mereServes s p f = false) (b : Bool) : endFrame p b s = closeFrame p (endedFrame s p b f) s := by
  have hm' : ∀ g : CamFrame, g.post = f.post → mereServes s p g = false := fun g hg => by
    rw [mereServes, hg]
    exact hm
  rw [endFrame, hf]
  simp only [storeRows_noSlot hs, postCoding_noSlot hs, ite_self, hf, Option.getD_some]
  simp only [hs, hm', Bool.false_eq_true, if_false]
  simp only [closeFrame, endedFrame, hs]

theorem closeFrame_cams {s : State} {p : Nat} (hp : p < s.cams.length) (g : CamFrame) :
    (camOf (closeFrame p g s) p).frame = none ∧ (camOf (closeFrame p g s) p).closing = (camOf s p).closing ++ [g] := by
  have h : (closeFrame p g s).cams = (setCam p (fun c => { c with
      frame := none, closing := c.closing ++ [g], readout := s.now - g.fs, flagged := g.flags - 32 * b1 g.seq.isSome != 0, stops := []
      truncated := if g.truncated then c.truncated + 1 else c.truncated
      overlong := if g.overlong then c.overlong + 1 else c.overlong }) s).cams := by
    refine (takeCapacity_cams _).trans ((foldl_keeps _ State.cams (fun u r => finishIn_cams ..) _ _).trans ?_)
    split
    · exact raise_cams ..
    · rfl
  rw [camOf_congr h, camOf_setCam_same hp]
  exact ⟨rfl, rfl⟩

theorem length_endedFrame {s : State} {p : Nat} {f : CamFrame} (h : f.rows.length ≤ camHeight s p) (b : Bool) :
    (endedFrame s p b f).rows.length = camHeight s p := by
  simp only [endedFrame, List.length_append, List.length_map, List.length_range]
  omega

theorem cameraFe_ends (s : State) (p : Nat) : cameraFe p (camF s p 0 3 2) s = endFrame p false s := if_neg (by simp)

theorem cameraFe_idle {s : State} {p : Nat} (hf : (camOf s p).frame = none) (h : (camOf s p).streaming = false) (vc : Nat) :
    cameraFe p vc s = s := by
  rw [cameraFe]
  split
  · exact if_neg (by simp [h])
  · exact endFrame_none hf false

theorem lineTimeout_due {s : State} {p : Nat} {f : CamFrame} (hf : (camOf s p).frame = some f)
    (h : f.lastLine + 10000 * camF s p 0x10 0 16 ≤ s.now) : lineTimeout p s = endFrame p false s := by
  rw [lineTimeout, hf]
  exact if_pos h

theorem lineTimeout_early {s : State} {p : Nat} {f : CamFrame} (hf : (camOf s p).frame = some f)
    (h : s.now < f.lastLine + 10000 * camF s p 0x10 0 16) : lineTimeout p s = s := by
  rw [lineTimeout, hf]
  exact if_neg (Nat.not_le.2 h)

theorem camNoFrame_early {s : State} {p : Nat} {w : XTrig} {rest : List XTrig} (hw : (camOf s p).waits = w :: rest)
    (h : s.now < w.tF + 1000000 * camF s p 0x10 16 16) : camNoFrame p s = s := by
  rw [camNoFrame, hw]
  exact if_pos h

theorem camNoFrame_due {s : State} {p : Nat} {w : XTrig} {rest : List XTrig} (hw : (camOf s p).waits = w :: rest)
    (h : w.tF + 1000000 * camF s p 0x10 16 16 ≤ s.now) : camNoFrame p s = afterJudging (judged p w.tF true
      (raise 0x7002 (natLE 1 p ++ natLE 8 w.tF) (setCam p (fun c => { c with waits := rest, noFrame := satInc c.noFrame }) s))) := by
  rw [camNoFrame, hw]
  exact if_neg (Nat.not_lt.2 h)

/-! ### Statistics and publication (R442) -/

theorem statsComplete_none {s : State} {p : Nat} (h : (camOf s p).closing.find? (fun f => !f.stats) = none) : statsComplete p s = s := by
  rw [statsComplete, h]

theorem statsComplete_some {s : State} {p : Nat} {f : CamFrame} (h : (camOf s p).closing.find? (fun f => !f.stats) = some f) :
    statsComplete p s =
      let r := statsOf (camWidth s p) (camHeight s p) (decide (4 ≤ cfaOf s p)) f.pads (mosaic s p f.rows)
      let u := match f.slot with
        | some a => memWrite (16 + p) (a + 0x800) (statsRecord f.num.toNat f.gen.toNat f.flags (camWidth s p * camHeight s p) r) s
        | none => s
      let w := setClosing p f.num (fun x => { x with stats := true }) u
      afterJudging (judged p f.tF (bedDefect w r) w) := by
  rw [statsComplete, h] <;> rfl

section

variable {s : State} {p : Nat} {f : CamFrame} {rest : List CamFrame} (hc : (camOf s p).closing = f :: rest)
include hc

theorem statsComplete_oldest (hf : f.stats = false) (hs : f.slot = none) :
    statsComplete p s = afterJudging (judged p f.tF (bedDefect s
        (statsOf (camWidth s p) (camHeight s p) (decide (4 ≤ cfaOf s p)) f.pads (mosaic s p f.rows)))
      (setClosing p f.num (fun x => { x with stats := true }) s)) := by
  have h : (camOf s p).closing.find? (fun f => !f.stats) = some f := by
    rw [hc, List.find?_cons]
    simp [hf]
  rw [statsComplete_some h]
  simp only [hs]
  rfl

theorem framePublish_noStats (hf : f.stats = false) : framePublish p s = s := by
  rw [framePublish, hc]
  exact if_pos (by simp [hf])

theorem framePublish_done (hf : f.stats = true) (hd : f.coding = false ∨ f.code ≠ none) : framePublish p s =
    setCam p (fun c => { c with
      closing := rest, lastFrame := f.num, frames := c.frames + 1, published := c.published || f.slot.isSome }) (match f.slot with
        | some a => memWrite (16 + p) (a + 60) (natLE 4 f.num.toNat) (memWrite (16 + p) (a + 4) (frameRecord p f) s)
        | none => s) := by
  rw [framePublish, hc]
  refine (if_neg ?_).trans rfl
  rcases hd with hd | hd <;> simp [hf, hd]

theorem framePublish_noSlot (hf : f.stats = true) (hs : f.slot = none) (hd : f.coding = false) : framePublish p s =
    setCam p (fun c => { c with
      closing := rest, lastFrame := f.num, frames := c.frames + 1, published := c.published || false }) s := by
  rw [framePublish_done hc hf (.inl hd), hs]
  rfl

theorem framePublish_slot (hf : f.stats = true) {a : Nat} (hs : f.slot = some a) (hd : f.coding = false ∨ f.code ≠ none) :
    framePublish p s = setCam p (fun c => { c with
      closing := rest, lastFrame := f.num, frames := c.frames + 1, published := c.published || true })
        (memWrite (16 + p) (a + 60) (natLE 4 f.num.toNat) (memWrite (16 + p) (a + 4) (frameRecord p f) s)) := by
  rw [framePublish_done hc hf hd, hs]
  rfl

end

/-- What an FS that answers the oldest waiting trigger does where no frame is in progress. -/
theorem cameraFs_answers {s : State} {p : Nat} (h : (camOf s p).streaming = true) (hf : (camOf s p).frame = none) {w : XTrig}
    {rest : List XTrig} (hw : (camOf s p).waits = w :: rest) :
    cameraFs p (camF s p 0 3 2) s = admitFrame p w (setCam p (fun c => { c with waits := rest }) s) := by
  have ha : answeredTrig p (endFrame p false s) = (w, setCam p (fun c => { c with waits := rest }) s) := by
    rw [endFrame_none hf false, answeredTrig_waiting hw]
  rw [cameraFs_good h ha]

section

variable {s : State} {p : Nat} (hp : p < s.cams.length) (h : (camOf s p).streaming = true) (hf : (camOf s p).frame = none) {w : XTrig}
  {rest : List XTrig} (hw : (camOf s p).waits = w :: rest)

/-- The port as an FS finds it once the trigger has been taken from those that wait. -/
def fsTaken (p : Nat) (rest : List XTrig) (s : State) : State := fsCounted p (setCam p (fun c => { c with waits := rest }) s)

theorem fsTaken_eq (rest : List XTrig) (hm : camMode s p ≠ 0) (hp : p < s.cams.length) : fsTaken p rest s =
    setCam p (fun c => { c with waits := rest, frameNo := (camOf s p).frameNo + 1 }) s := by
  have hn : (camOf (setCam p (fun c => { c with waits := rest }) s) p).frameNo = (camOf s p).frameNo := by rw [camOf_setCam_same hp]
  have hm' : camMode (setCam p (fun c => { c with waits := rest }) s) p ≠ 0 := hm
  rw [fsTaken, fsCounted, hn, setCam_setCam]
  simp only [if_neg hm']

theorem admitted_fsTaken (rest : List XTrig) (hm : camMode s p ≠ 0) (hp : p < s.cams.length) :
    admitted (fsTaken p rest s) = admitted s := by
  rw [fsTaken_eq rest hm hp]
  exact admitted_setCam hp rfl

include hp h hf hw

theorem cameraFs_admits (hr : (camOf s p).ringSet = false) (hm : camMode s p ≠ 0)
    (hc : admitted s + camF s p 8 0 11 ≤ admitCapacity s) : cameraFs p (camF s p 0 3 2) s =
      setCam p (fun c => { c with
        waits := rest, frameNo := (camOf s p).frameNo + 1
        frame := some (freshFrame w ((camOf s p).frameNo + 1) s.now none), expGen := w.gen }) s := by
  have hc' : admitted (fsTaken p rest s) + camF s p 8 0 11 ≤ admitCapacity s := by rwa [admitted_fsTaken rest hm hp]
  have hu : camOf (setCam p (fun c => { c with waits := rest }) s) p = { camOf s p with waits := rest } := camOf_setCam_same hp _
  have hs : admitSlot p (setCam p (fun c => { c with waits := rest }) s) = none := if_neg (by simp [hu, hr])
  rw [cameraFs_answers h hf hw, admitFrame_noRing hc' (by rw [hu]; exact hr), hs, hu]
  have ht := fsTaken_eq rest hm hp
  rw [fsTaken] at ht
  rw [ht, setCam_setCam]
  rfl

theorem cameraFs_drops (hm : camMode s p ≠ 0) (hc : admitCapacity s < admitted s + camF s p 8 0 11) :
    cameraFs p (camF s p 0 3 2) s = afterJudging (judged p w.tF true
      (raise 0x7001 (natLE 1 p ++ natLE 4 ((camOf s p).frameNo + 1).toNat ++ natLE 2 (admitted s))
        (setCam p (fun c => { c with waits := rest, frameNo := (camOf s p).frameNo + 1, dropped := c.dropped + 1 }) s))) := by
  have hc' : admitCapacity s < admitted (fsTaken p rest s) + camF s p 8 0 11 := by rwa [admitted_fsTaken rest hm hp]
  have hn : (camOf (setCam p (fun c => { c with waits := rest }) s) p).frameNo = (camOf s p).frameNo := by rw [camOf_setCam_same hp]
  have hd : setCam p (fun c => { c with dropped := c.dropped + 1 }) (fsCounted p (setCam p (fun c => { c with waits := rest }) s))
      = setCam p (fun c => { c with waits := rest, frameNo := (camOf s p).frameNo + 1, dropped := c.dropped + 1 }) s :=
    (congrArg (setCam p fun c => { c with dropped := c.dropped + 1 }) (fsTaken_eq rest hm hp)).trans (setCam_setCam ..)
  have ha : admitted (setCam p (fun c => { c with waits := rest, frameNo := (camOf s p).frameNo + 1, dropped := c.dropped + 1 }) s)
      = admitted s := admitted_setCam hp rfl
  rw [cameraFs_answers h hf hw, admitFrame_dropped (s := setCam p (fun c => { c with waits := rest }) s) hc', hn, hd]
  simp only [ha]

end

/-- Settles O50: frame starts, lines, ends, timeouts and publication by their rules (R421 to R427, R442). That an FS answers the oldest
trigger with its T_F, and that LINE_TIMEOUT counts from FS where no line has come, are choices of the model (log 161). -/
theorem cameraFramesAndLines : Obligations.CameraFramesAndLines := by
  intro t s p hp8 hl v c
  have hp : p < v.cams.length := hl.symm ▸ hp8
  have hfs : ∀ vc, exec (.cameraFs t p vc) s = .next (cameraFs p vc v) := fun _ => rfl
  have hline : ∀ vc dt hdr bad lost px, exec (.cameraLine t p vc dt hdr bad lost px) s = .next (cameraLine p vc dt hdr bad lost px v) :=
    fun _ _ _ _ _ _ => rfl
  have hfe : ∀ vc, exec (.cameraFe t p vc) s = .next (cameraFe p vc v) := fun _ => rfl
  have hto : exec (.lineTimeout t p) s = .next (lineTimeout p v) := rfl
  have hno : exec (.camNoFrame t p) s = .next (camNoFrame p v) := rfl
  have hst : exec (.statsComplete t p) s = .next (statsComplete p v) := rfl
  have hpub : exec (.framePublish t p) s = .next (framePublish p v) := rfl
  clear hl hp8
  clear_value v
  simp only [hfs, hline, hfe, hto, hno, hst, hpub, Host.Outcome.next.injEq, exists_eq_left']
  refine ⟨?_, ?_, ?_, ?_, ?_, ?_, ?_, ?_, ?_, ?_, ?_, ?_, ?_, ?_, ?_, ?_, ?_, ?_⟩
  · exact fun vc h => cameraFs_idle h vc
  · exact fun vc h hv => cameraFs_otherChannel h hv
  · intro w rest h hf hw hr hm
    refine ⟨fun hc => ?_, fun hc => ⟨_, cameraFs_drops hp h hf hw hm hc, rfl, ?_⟩⟩
    · rw [cameraFs_admits hp h hf hw hr hm hc, camOf_setCam_same hp]
      exact ⟨rfl, rfl, rfl, fun q hq => camOf_setCam_other hq _ v, _, rfl, rfl, rfl, rfl, rfl, rfl, rfl, rfl⟩
    · rw [camOf_setCam_same hp]
      exact ⟨rfl, hf⟩
  · intro h
    have hg := cameraFs_good h rfl
    generalize answeredTrig p (endFrame p false v) = a at hg ⊢
    refine ⟨fun hc => hg.trans (admitFrame_dropped (s := a.2) hc a.1), fun hc => ?_⟩
    exact ⟨fun hr => hg.trans (admitFrame_noRing (s := a.2) hc hr a.1), fun hr => hg.trans (admitFrame_ring (s := a.2) hc hr a.1)⟩
  · exact fun hdr bad px h hh hd => ⟨cameraLine_taken h hh hd bad px, cameraLine_lost h hh hd bad px⟩
  · intro f dt px hf hy hs
    rw [takeLine_row hf hs hy dt px, camOf_setCam_same hp]
    refine ⟨rfl, ?_, _, _, rfl, rfl, take_rowOf .., .inr (length_rowOf ..), ?_⟩
    · by_cases hx : px.length = camWidth v p <;> simp [hx, c]
    · by_cases hx : px.length = camWidth v p <;> simp [hx]
  · exact fun f dt px hf hy => takeLine_beyond hf hy dt px
  · exact cameraFe_ends v p
  · exact fun vc dt hdr bad lost px h hh => cameraLine_badHeader h hh vc dt bad lost px
  · exact fun vc dt hdr bad lost px h hh hv => cameraLine_otherPacket h hh hv bad lost px
  · intro f hdr px hf hs hh hd hy hw
    rw [cameraLine_taken (.inr (by simp [c, hf])) hh (by omega) false px, takeLine_row hf hs hy, camOf_setCam_same hp, rowOf_full hw, hd]
    have hx : (px.length != camWidth v p) = false := by simp [hw]
    simp only [hx, Bool.or_false]
    exact ⟨rfl, rfl, _, rfl, rfl, rfl, rfl, rfl⟩
  · exact fun vc hf h => cameraFe_idle hf h vc
  · intro f hf hs hm hy
    have he := endFrame_noSlot hf hs hm false
    obtain ⟨h1, h2⟩ := closeFrame_cams hp (endedFrame v p false f)
    rw [cameraFe_ends, he]
    refine ⟨h1, ⟨_, h2, rfl, rfl, length_endedFrame hy false, rfl⟩, fun h => (lineTimeout_due hf h).trans he⟩
  · exact fun f hf h => lineTimeout_early hf h
  · exact fun w rest hw => ⟨camNoFrame_early hw, camNoFrame_due hw⟩
  · exact fun f rest hc => ⟨statsComplete_oldest hc, framePublish_noStats hc, framePublish_noSlot hc, fun a hf hs hd => framePublish_slot hc hf hs hd⟩
  · exact fun f h => statsComplete_some h
  · exact statsComplete_none

end Sys2Proof.Machine
end

section
/-! SUPPORT. Triggers, CCI transfers, capture plans, throttle steps and exposure windows of the cameras (R422 to R433). -/

namespace Sys2Proof.Machine

/-! ### XTRIG (R427, R430, R432) -/

theorem fireXtrig_ignored {s : State} {p last : Nat} (hl : (camOf s p).lastTrig = some last)
    (ht : tickAt s.now < last + 10000 * camF s p 0x14 0 20) (seq : Option Nat) (product : Nat) :
    fireXtrig p seq product s = setCam p (fun c => { c with trigIgnored := satInc c.trigIgnored }) s :=
  if_pos (by simpa [hl] using ht)

/-- Without pending sets a frame takes none: nothing is late. -/
theorem takeSet_noPending {s : State} {p : Nat} (h : (camOf s p).pending = []) (tF : Ns) :
    takeSet p tF s = setCam p (fun c => { c with cciLate := satAdd c.cciLate 0, pending := [] }) s := by
  rw [takeSet, h]
  rfl

theorem setInForce_congr {s u : State} {p : Nat} (hc : (camOf u p).cur = (camOf s p).cur) (h0 : set0 u p = set0 s p) :
    setInForce u p = setInForce s p := by
  rw [setInForce, setInForce, hc, h0]

/-- XTRIG of a streaming port without pending sets. -/
theorem fireXtrig_fires {s : State} {p : Nat} (hp : p < s.cams.length) (hl : (camOf s p).lastTrig = none)
    (hs : (camOf s p).streaming = true) (hn : (camOf s p).pending = []) (seq : Option Nat) (product : Nat) :
    let x := setInForce s p
    let tF := tickAt s.now
    fireXtrig p seq product s = setCam p (fun c => { c with
      cciLate := satAdd c.cciLate 0, pending := [], lastTrig := some tF, xtrig := some (tF + (if x.pulse then 10000 else 1000 * x.len))
      windows := c.windows ++ [(tF + 1000 * x.start, tF + 1000 * x.start + 1000 * x.len)]
      waits := c.waits ++ [{ tF := tF, gen := x.gen, seq := seq, post := s.jobs.state == 3, product := product }] })
      { s with sent := .edge 3 p true tF 0 :: s.sent } := by
  intro x tF
  have ht : takeSet p tF s = setCam p (fun c => { c with cciLate := satAdd c.cciLate 0, pending := [] }) s := takeSet_noPending hn tF
  have hc := camOf_setCam_same hp fun c => { c with cciLate := satAdd c.cciLate 0, pending := [] }
  have hx : setInForce (takeSet p tF s) p = x := by
    rw [ht]
    exact setInForce_congr (by rw [hc]) rfl
  refine (if_neg (by simp [hl])).trans ?_
  simp only [← show tF = tickAt s.now from rfl, hx]
  rw [ht]
  refine (setCam_setCam (s := { s with sent := .edge 3 p true tF 0 :: s.sent }) ..).trans (setCam_congr ?_)
  have hs' : (camOf { s with sent := .edge 3 p true tF 0 :: s.sent } p).streaming = true := hs
  simp only [hs', if_true]
  rfl

/-! ### CCI transfers (R422, R431) -/

theorem cciDone_idle {s : State} {p : Nat} (h : (camOf s p).cci = []) (ok : Bool) (e x : Nat) : cciDone p ok e x s = s := by
  rw [cciDone, h]

section

variable {s : State} {p : Nat} {r : Ref} {write wide : Bool} {reg value : Nat} {rest : List CciJob}
  (h : (camOf s p).cci = .host r write wide reg value :: rest) (e x : Nat)
include h

theorem cciDone_host : cciDone p true e x s =
    finishIn (272 + p) r stDone 0 (if write then 0 else x) (setCam p (fun c => { c with cci := rest }) s) := by
  rw [cciDone, h]
  rfl

theorem cciDone_hostFails : cciDone p false e x s = finishIn (272 + p) r stTimeout 0 0 (setCam p (fun c => { c with cci := rest }) s) := by
  rw [cciDone, h]
  rfl

end

/-- The CCI writes of a pending set. -/
def setEntries (s : State) (p : Nat) (g : BitVec 32) : Nat :=
  (((camOf s p).pending.find? fun x => x.gen = g).map fun x => x.cci.length).getD 0

section

variable {s : State} {p : Nat} {g : BitVec 32} {rest : List CciJob} (h : (camOf s p).cci = .set g :: rest) (e x : Nat)
include h

theorem cciDone_setFails : cciDone p false e x s = raise 0x7004 (natLE 1 p ++ natLE 4 g.toNat ++ natLE 1 e) (setCam p (fun c => { c with
    cci := rest, pending := c.pending.filter fun x => x.gen != g, cciFail := satInc c.cciFail }) s) := by
  rw [cciDone, h]
  rfl

/-- A transfer of a set that has been made goes by whether it is the last. -/
theorem cciDone_set : cciDone p true e x s = if e + 1 < setEntries s p g then s
    else setCam p (fun c => { c with
      cci := rest, pending := c.pending.map fun x => if x.gen = g then { x with written := some s.now } else x }) s := by
  have hn : setEntries s p g = match (camOf s p).pending.find? fun x => x.gen = g with | some x => x.cci.length | none => 0 := by
    rw [setEntries]
    cases (camOf s p).pending.find? fun x => x.gen = g <;> rfl
  rw [cciDone, h, hn]
  rfl

theorem cciDone_setGoesOn (hn : e + 1 < setEntries s p g) : cciDone p true e x s = s := (cciDone_set h e x).trans (if_pos hn)

theorem cciDone_setWritten (hn : setEntries s p g ≤ e + 1) : cciDone p true e x s = setCam p (fun c => { c with
    cci := rest, pending := c.pending.map fun x => if x.gen = g then { x with written := some s.now } else x }) s :=
  (cciDone_set h e x).trans (if_neg (Nat.not_lt.2 hn))

end

/-! ### Capture plans and throttle steps (R426, R433) -/

theorem planTrigger_none {s : State} (h : s.isp.plan = none) : planTrigger s = s := by
  rw [planTrigger, h]

theorem planTrigger_otherStage {s : State} {plan : CapPlan} (h : s.isp.plan = some plan) (hs : s.jobs.state.toNat ≠ plan.stage) :
    planTrigger s = setIsp (fun i => { i with plan := none }) s := by
  rw [planTrigger, h]
  exact if_pos (by simp [hs])

theorem planTrigger_early {s : State} {plan : CapPlan} (h : s.isp.plan = some plan) (hs : s.jobs.state.toNat = plan.stage)
    (ht : s.now < plan.due) : planTrigger s = s := by
  rw [planTrigger, h]
  exact (if_neg (by simp [hs])).trans (if_pos ht)

theorem planTrigger_due {s : State} {plan : CapPlan} (h : s.isp.plan = some plan) (hs : s.jobs.state.toNat = plan.stage)
    (ht : plan.due ≤ s.now) : planTrigger s = setIsp (fun i => { i with
      plan := if plan.left ≤ 1 then none else some { plan with left := plan.left - 1, due := plan.due + plan.period } })
      ((bitsOf 8 plan.mask).foldl (fun u q => seqTrigger plan q u) s) := by
  rw [planTrigger, h]
  exact (if_neg (by simp [hs])).trans (if_neg (Nat.not_lt.2 ht))

theorem seqTrigger_noBed {plan : CapPlan} (h : plan.stage ≠ 7) (p : Nat) (s : State) :
    seqTrigger plan p s = fireXtrig p (some plan.layer) noProduct s := if_pos (by simp [h])

theorem takeCapacity_none {s : State} (h : s.isp.order = none) : takeCapacity s = s := by
  rw [takeCapacity, h]

theorem takeCapacity_takes {s : State} {n d : Nat} (h : s.isp.order = some (n, d))
    (ht : s.cams.all (fun c => c.frame.isNone) = true ∨ d ≤ s.now) :
    takeCapacity s = setIsp (fun i => { i with capacity := n, order := none }) s := by
  rw [takeCapacity, h]
  exact if_pos (by rcases ht with ht | ht <;> simp only [ht, decide_true, Bool.true_or, Bool.or_true])

theorem takeCapacity_waits {s : State} {n d q : Nat} (h : s.isp.order = some (n, d)) (ht : s.now < d) (hq : q < s.cams.length)
    (hf : (camOf s q).frame ≠ none) : takeCapacity s = s := by
  have hm : camOf s q ∈ s.cams := by
    rw [camOf, unit, List.getD_eq_getElem _ _ hq]
    exact List.getElem_mem hq
  have ha : s.cams.all (fun c => c.frame.isNone) = false :=
    List.all_eq_false.2 ⟨_, hm, by simpa using hf⟩
  rw [takeCapacity, h]
  exact if_neg (by simp [ha, ht])

/-! ### Exposure windows (R432) -/

/-- An XTRIG pulse whose end has come ends. -/
def endPulse (p : Nat) (s : State) : State :=
  match (camOf s p).xtrig with
  | some e => if e ≤ s.now then setCam p (fun c => { c with xtrig := none }) { s with sent := .edge 3 p false e 0 :: s.sent } else s
  | none => s

/-- The strobes that follow the window of a port. -/
def followStrobes (p : Nat) (on : Bool) (s : State) : State :=
  (List.range 16).foldl (fun w k =>
    if strobeOn w k && ledF w k 0 22 3 = p then setLed k (fun l => { l with lit := on && !w.power.safe }) w else w) s

/-- The window of a port opens or shuts, and its strobes and the matrix follow. -/
def turnWindow (p : Nat) (on : Bool) (s : State) : State :=
  let w := followStrobes p on
    (setCam p (fun c => { c with inWindow := on, windows := c.windows.filter fun x => decide (s.now < x.2) }) s)
  if on && cfgF w 0x862000 6 2 = 2 && cfgF w 0x862000 8 3 = p then matrixSync w else w

theorem windowEdge_eq (p : Nat) (s : State) : windowEdge p s =
    if (camOf (endPulse p s) p).inWindow = inWindowNow (endPulse p s) p then endPulse p s
    else turnWindow p (inWindowNow (endPulse p s) p) (endPulse p s) := rfl

theorem endPulse_none {s : State} {p : Nat} (h : (camOf s p).xtrig = none) : endPulse p s = s := by
  rw [endPulse, h]

theorem endPulse_due {s : State} {p : Nat} {e : Ns} (h : (camOf s p).xtrig = some e) (ht : e ≤ s.now) :
    endPulse p s = setCam p (fun c => { c with xtrig := none }) { s with sent := .edge 3 p false e 0 :: s.sent } := by
  rw [endPulse, h]
  exact if_pos ht

theorem endPulse_length (p : Nat) (s : State) : (endPulse p s).cams.length = s.cams.length := by
  rw [endPulse]
  split
  · split
    · exact setCam_length ..
    · rfl
  · rfl

theorem endPulse_inWindow {s : State} {p : Nat} (hp : p < s.cams.length) : (camOf (endPulse p s) p).inWindow = (camOf s p).inWindow := by
  rw [endPulse]
  split
  · split
    · exact (congrArg Cam.inWindow (unit_modUnit_same hp _ _)).trans rfl
    · rfl
  · rfl

theorem followStrobes_cams (p : Nat) (on : Bool) (s : State) : (followStrobes p on s).cams = s.cams :=
  foldl_keeps _ State.cams (fun u k => by split <;> rfl) _ s

theorem matrixSync_cams (s : State) : (matrixSync s).cams = s.cams := by
  rw [matrixSync]
  split
  · rfl
  · split
    · exact finishIn_cams ..
    · rfl

theorem camOf_turnWindow {s : State} {p : Nat} (hp : p < s.cams.length) (on : Bool) : camOf (turnWindow p on s) p =
    { camOf s p with inWindow := on, windows := (camOf s p).windows.filter fun x => decide (s.now < x.2) } := by
  have hw := (camOf_congr (followStrobes_cams p on _) p).trans (camOf_setCam_same hp fun c => { c with
    inWindow := on, windows := c.windows.filter fun x => decide (s.now < x.2) })
  rw [turnWindow]
  split
  · exact (camOf_congr (matrixSync_cams _) p).trans hw
  · exact hw

/-- A port's XTRIG pulse after the edge is what the end of pulses leaves of it. -/
theorem windowEdge_xtrig {s : State} {p : Nat} (hp : p < s.cams.length) :
    (camOf (windowEdge p s) p).xtrig = (camOf (endPulse p s) p).xtrig := by
  rw [windowEdge_eq]
  split
  · rfl
  · rw [camOf_turnWindow (by rw [endPulse_length]; exact hp)]

/-- Settles O51: triggers, transfers, plans, throttle steps and window edges, each by its rule (R422 to R433). -/
theorem triggersSetsAndWindows : Obligations.TriggersSetsAndWindows := by
  intro t s p hp8 hl v c
  have hp : p < v.cams.length := hl.symm ▸ hp8
  have hl' : v.cams.length = 8 := hl
  have hcci : ∀ ok e x, exec (.cciWriteDone t p ok e x) s = .next (cciDone p ok e x v) := fun _ _ _ => rfl
  have hplan : exec (.capturePlanTrigger t) s = .next (afterJudging (planTrigger v)) := rfl
  have hcap : exec (.pipelineThrottleDeadline t) s = .next (takeCapacity v) := rfl
  have hwin : exec (.exposureWindowEdge t p) s = .next (windowEdge p v) := rfl
  clear hl
  clear_value v
  simp only [hcci, hplan, hcap, hwin, Host.Outcome.next.injEq, exists_eq_left']
  refine ⟨?_, ?_, ?_, ?_, ?_, ?_, ?_, ?_, ?_, ?_, ?_, ?_, ?_, ?_, ?_, ?_, ?_, ?_, ?_⟩
  · exact fun seq product last h ht => fireXtrig_ignored h ht seq product
  · intro seq product h hs hn
    have hu : ∀ f : Cam → Cam, camOf (setCam p f { v with sent := .edge 3 p true (tickAt v.now) 0 :: v.sent }) p = f (camOf v p) :=
      fun f => unit_modUnit_same hp f _
    rw [fireXtrig_fires hp h hs hn, hu]
    exact ⟨rfl, rfl, rfl, rfl, rfl⟩
  · exact fun h ok e x => cciDone_idle h ok e x
  · exact fun r wr wide reg val rest e x h => ⟨cciDone_host h e x, cciDone_hostFails h e x⟩
  · exact fun g rest e x h => cciDone_setFails h e x
  · exact fun g rest e x h => ⟨cciDone_setGoesOn h e x, cciDone_setWritten h e x⟩
  · exact fun plan h hs ht => congrArg afterJudging (planTrigger_due h hs ht)
  · exact fun n d h hf => takeCapacity_takes h (.inl (List.all_eq_true.2 fun c hc => by simp [hf c hc]))
  · have hu : (camOf (endPulse p v) p).inWindow = c.inWindow := endPulse_inWindow hp
    rw [windowEdge_eq, hu]
    exact ⟨fun h => if_pos h, fun h => if_neg h⟩
  · exact fun h => congrArg afterJudging (planTrigger_none h)
  · exact fun plan h hs => congrArg afterJudging (planTrigger_otherStage h hs)
  · exact fun plan h hs ht => congrArg afterJudging (planTrigger_early h hs ht)
  · intro plan h hs h7 ht hm
    rw [planTrigger_due h hs ht, hm, bitsOf_two_pow hp8, List.foldl_cons, List.foldl_nil, seqTrigger_noBed h7]
  · exact takeCapacity_none
  · exact fun n d h hd => takeCapacity_takes h (.inr hd)
  · exact fun n d q h ht hq hf => takeCapacity_waits h ht (hl'.symm ▸ hq) hf
  · intro hx hw
    rw [windowEdge_eq, endPulse_none hx]
    exact if_pos hw
  · intro hx hw
    rw [windowEdge_eq, endPulse_none hx, if_neg hw, camOf_turnWindow hp]
  · intro e hx he
    rw [windowEdge_xtrig hp, endPulse_due hx he]
    exact congrArg Cam.xtrig (unit_modUnit_same hp _ _)

end Sys2Proof.Machine
end

section
/-! SUPPORT. LED channels, the matrix, diagnostic pulses and colour feedback (R443 to R452, R454). -/

namespace Sys2Proof.Machine

/-! ### Channels after an update -/

theorem ledOf_setLed_same {s : State} {c : Nat} (h : c < s.light.leds.length) (f : Led → Led) :
    ledOf (setLed c f s) c = f (ledOf s c) := unit_modUnit_same h f .reset

theorem ledOf_setLed_other {c d : Nat} (h : d ≠ c) (f : Led → Led) (s : State) : ledOf (setLed c f s) d = ledOf s d :=
  unit_modUnit_other h f .reset

theorem setLed_length (c : Nat) (f : Led → Led) (s : State) : (setLed c f s).light.leds.length = s.light.leds.length :=
  List.length_modify ..

theorem ledOf_mem {s : State} {c : Nat} (h : c < s.light.leds.length) : ledOf s c ∈ s.light.leds := by
  rw [ledOf, unit, List.getD_eq_getElem _ _ h]
  exact List.getElem_mem h

/-! ### LED_SET (R444) -/

/-- An LED_SET that waits on a channel has not been applied. -/
theorem settleLedSets_waits {s : State} {c : Nat} (hc : c < s.light.leds.length) {x : LedChange} (hx : x ∈ (ledOf s c).changes) {r : Ref}
    (hr : x.ref = some r) : settleLedSets [r] s = s := by
  rw [settleLedSets, List.foldl_cons, List.foldl_nil]
  exact if_pos (List.any_eq_true.2 ⟨_, ledOf_mem hc, List.any_eq_true.2 ⟨x, hx, by simpa using hr⟩⟩)

/-- One more change waits on channel `c`. -/
def addChange (x : LedChange) (s : State) (c : Nat) : State := setLed c (fun l => { l with changes := l.changes ++ [x] }) s

theorem addChange_length (x : LedChange) (s : State) (c : Nat) : (addChange x s c).light.leds.length = s.light.leds.length :=
  setLed_length ..

theorem foldl_addChange_length (x : LedChange) (cs : List Nat) (s : State) :
    (cs.foldl (addChange x) s).light.leds.length = s.light.leds.length :=
  foldl_keeps _ (fun u => u.light.leds.length) (fun u c => addChange_length x u c) cs s

theorem mem_changes_addChange {x y : LedChange} {s : State} {c d : Nat} (h : y ∈ (ledOf s c).changes) (hc : c < s.light.leds.length) :
    y ∈ (ledOf (addChange x s d) c).changes := by
  by_cases hd : c = d
  · subst hd
    rw [addChange, ledOf_setLed_same hc]
    exact List.mem_append_left _ h
  · rw [addChange, ledOf_setLed_other hd]
    exact h

theorem mem_changes_foldl {x : LedChange} (cs : List Nat) : ∀ {s : State} {c : Nat}, c < s.light.leds.length →
    (c ∈ cs ∨ x ∈ (ledOf s c).changes) → x ∈ (ledOf (cs.foldl (addChange x) s) c).changes := by
  induction cs with
  | nil => exact fun _ h => h.resolve_left (List.not_mem_nil)
  | cons d cs ih =>
    intro s c hc h
    have hc' : c < (addChange x s d).light.leds.length := addChange_length x s d ▸ hc
    rw [List.foldl_cons]
    refine ih hc' ?_
    by_cases hm : c ∈ cs
    · exact .inl hm
    · refine .inr ?_
      rcases h with h | h
      · obtain rfl : c = d := (List.mem_cons.1 h).resolve_right hm
        rw [addChange, ledOf_setLed_same hc]
        exact List.mem_append_right _ (List.mem_singleton_self x)
      · exact mem_changes_addChange h hc

theorem ledSetCheck_done {m i : Nat} {s : State} (h : ∀ c < 16, m.testBit c = true → i ≤ ledF s c 0 0 11) : ledSetCheck m i s = stDone := by
  refine if_neg fun ha => ?_
  obtain ⟨c, hc, hi⟩ := List.any_eq_true.1 ha
  exact absurd (h c (mem_bitsOf.1 hc).1 (mem_bitsOf.1 hc).2) (Nat.not_le.2 (of_decide_eq_true hi))

theorem ledSetCheck_param {m i c : Nat} {s : State} (hc : c < 16) (hm : m.testBit c = true) (h : ledF s c 0 0 11 < i) :
    ledSetCheck m i s = stParam := if_pos (List.any_eq_true.2 ⟨c, mem_bitsOf.2 ⟨hc, hm⟩, decide_eq_true h⟩)

theorem startLedSet_param {m i c : Nat} {s : State} (hc : c < 16) (hm : m.testBit c = true) (h : ledF s c 0 0 11 < i) (r : Ref)
    (d launch : Nat) : startLedSet r m i d launch s = endWith r stParam s := by
  rw [startLedSet, ledSetCheck_param hc hm h]
  rfl

theorem startLedSet_noLaunch {m i launch : Nat} {s : State} (h : ∀ c < 16, m.testBit c = true → i ≤ ledF s c 0 0 11)
    (hl : lightLaunch launch s = none) (r : Ref) (d : Nat) : startLedSet r m i d launch s = endWith r stState s := by
  rw [startLedSet, ledSetCheck_done h, hl]
  rfl

theorem startLedSet_waits {m i launch : Nat} {t : Ns} {s : State} (h : ∀ c < 16, m.testBit c = true → i ≤ ledF s c 0 0 11)
    (hl : lightLaunch launch s = some t) (hn : s.light.leds.length = 16) {c : Nat} (hc : c < 16) (hm : m.testBit c = true) (r : Ref)
    (d : Nat) : startLedSet r m i d launch s = (bitsOf 16 m).foldl (fun u c => setLed c (fun l => { l with
      changes := l.changes ++ [{ launch := t, iSet := i, duty := d, ref := some r }] }) u) s := by
  have hc' : c < s.light.leds.length := hn.symm ▸ hc
  rw [startLedSet, ledSetCheck_done h, hl]
  exact settleLedSets_waits (r := r) ((foldl_addChange_length _ _ s).symm ▸ hc')
    (mem_changes_foldl (x := { launch := t, iSet := i, duty := d, ref := some r }) _ hc' (.inl (mem_bitsOf.2 ⟨hc, hm⟩))) rfl

theorem lightLaunch_of {s : State} {launch at_ : Nat} (h : (launch = 0 ∧ at_ = tickAt s.now) ∨
    (launch ≠ 0 ∧ ∃ tor, refTime true launch s = some tor ∧ at_ = tickAt tor)) : lightLaunch launch s = some at_ := by
  rcases h with ⟨rfl, rfl⟩ | ⟨h0, tor, ht, rfl⟩
  · exact lightLaunch_zero s
  · rw [lightLaunch, if_neg h0, ht]
    rfl

theorem lightLaunch_noTor {s : State} {launch : Nat} (h0 : 0 < launch) (ht : s.jobs.tor = none) : lightLaunch launch s = none := by
  rw [lightLaunch, if_neg (by omega), refTime, if_pos rfl, ht]
  rfl

theorem exists_testBit {m : Nat} (h0 : m ≠ 0) (h : m < 65536) : ∃ c < 16, m.testBit c = true := by
  obtain ⟨c, hc⟩ := Nat.exists_testBit_of_ne_zero h0
  refine ⟨c, ?_, hc⟩
  by_contra hx
  have := Nat.ge_two_pow_of_testBit hc
  have := Nat.pow_le_pow_right (n := 2) (by decide) (show 16 ≤ c by omega)
  omega

/-! ### The other opcodes of the lights (R446, R448, R450, R451) -/

theorem startLedMatrixWrite_off {s : State} (h : matrixOn s = false) (r : Ref) (a : Nat) :
    startLedMatrixWrite r a s = endWith r stState s := if_pos (by simp [h])

theorem startLedMatrixWrite_full {s : State} (h : matrixOn s = true) (hq : 4 ≤ s.light.matrix.queue.length) (r : Ref) (a : Nat) :
    startLedMatrixWrite r a s = endWith r stBusy s := (if_neg (by simp [h])).trans (if_pos hq)

theorem startLedMatrixWrite_outside {s : State} (h : matrixOn s = true) (hq : s.light.matrix.queue.length < 4) {a : Nat}
    (hm : hostMem a 512 s = false) (r : Ref) : startLedMatrixWrite r a s = endWith r stParam s :=
  (if_neg (by simp [h])).trans ((if_neg (Nat.not_le.2 hq)).trans (if_pos (by simp [hm])))

theorem startLedMatrixWrite_queues {s : State} (h : matrixOn s = true) (hq : s.light.matrix.queue.length < 4) {a : Nat}
    (hm : hostMem a 512 s = true) (hp : poisonIn a 512 s = none) (r : Ref) : startLedMatrixWrite r a s =
      setMatrix (fun m => { m with
        queue := m.queue ++ [((List.range 256).map fun i => memNat (a + 2 * i) 2 s, r, matrixCtx s)] }) s := by
  refine (if_neg (by simp [h])).trans ((if_neg (Nat.not_le.2 hq)).trans ((if_neg (by simp [hm])).trans ?_))
  rw [hp]

/-- With fewer than four frames queued one of the four contexts is free. -/
theorem matrixCtx_free {s : State} (h : s.light.matrix.queue.length < 4) :
    matrixCtx s ∈ [292, 293, 294, 295] ∧ ∀ q ∈ s.light.matrix.queue, q.2.2 ≠ matrixCtx s := by
  have hf : ([292, 293, 294, 295].find? fun c => !(s.light.matrix.queue.any fun q => q.2.2 = c)) ≠ none := by
    intro hn
    have hall : [292, 293, 294, 295] ⊆ s.light.matrix.queue.map fun q => q.2.2 := by
      intro c hc
      have := List.find?_eq_none.1 hn c hc
      simp only [Bool.not_eq_true', Bool.not_eq_false, List.any_eq_true, decide_eq_true_eq] at this
      exact List.mem_map.2 this
    have := (List.subperm_of_subset (by decide) hall).length_le
    simp at this
    omega
  obtain ⟨c, hc⟩ := Option.ne_none_iff_exists'.1 hf
  have he : matrixCtx s = c := by rw [matrixCtx, hc, Option.getD_some]
  rw [he]
  refine ⟨List.mem_of_find?_eq_some hc, fun q hq hx => ?_⟩
  have := List.find?_some hc
  simp only [Bool.not_eq_true', List.any_eq_false, decide_eq_true_eq] at this
  exact this q hq hx

theorem startColorTarget_param {c : Nat} (h : 16 ≤ c) (r : Ref) (target : Nat) (s : State) :
    startColorTarget r c target s = endWith r stParam s := if_pos h

theorem startColorTarget_sets {c : Nat} (h : c < 16) (r : Ref) (target : Nat) (s : State) : startColorTarget r c target s =
    endWith r stDone (bumpOverride 7 true (setCfgF (0x860014 + 0x100 * c) 16 16 target s)) := if_neg (Nat.not_le.2 h)

/-! ### Periods (R444, R447, R452) -/

theorem settleDiag_none {s : State} {c : Nat} (h : (ledOf s c).diag = none) : settleDiag c s = s := by
  rw [settleDiag, h]

theorem ledPeriod_not {s : State} {c : Nat} (h : 16 ≤ c ∨ pwmPeriod s c = 0 ∨ s.now % pwmPeriod s c ≠ 0) (i v : Nat) :
    ledPeriod c i v s = s := by
  refine if_pos ?_
  rcases h with h | h | h <;> simp [h]

/-- What has been measured at a period start is taken, and the changes that are due leave the list. -/
def takeMeasured (c i v : Nat) (s : State) : State :=
  setLed c (fun l => { l with
    changes := l.changes.filter (fun x => !decide (x.launch ≤ s.now)), iMeas := BitVec.ofNat 16 i, vMeas := BitVec.ofNat 16 v }) s

/-- A change of settings is in the registers. -/
def applyChange (c : Nat) (s : State) (x : LedChange) : State :=
  setCfgF (0x860010 + 0x100 * c) 0 11 x.iSet (setCfgF (0x860010 + 0x100 * c) 16 16 x.duty s)

/-- The gain that waits applies outside the excluded windows. -/
def applyGain (c : Nat) (s : State) : State :=
  match (ledOf s c).gainNext with
  | some g => if exclIn s c s.now (s.now + 1) then s else setLed c (fun l => { l with gain := g, gainNext := none }) s
  | none => s

/-- A period whose pulse is long enough checks the channel. -/
def periodChecks (c : Nat) (s : State) : State :=
  if 1000 * tDet s c ≤ pulseNs s c then setLed c (fun l => { l with diagDone := some s.now, starvedEpisode := false }) s else s

theorem ledPeriod_starts {s : State} {c : Nat} (hc : c < 16) (hp : 0 < pwmPeriod s c) (ht : s.now % pwmPeriod s c = 0) (i v : Nat) :
    ledPeriod c i v s =
      let u := settleDiag c s
      let due := (ledOf u c).changes.filter fun x => decide (x.launch ≤ u.now)
      settleLedSets (due.filterMap fun x => x.ref)
        (periodChecks c (resumeLed c (applyGain c (due.foldl (applyChange c) (takeMeasured c i v u))))) :=
  if_neg (by simp [ht, hp.ne']; omega)

/-- A state that has changed in nothing but the lights, with other channels as they were. -/
structure LedKept (c : Nat) (s u : State) : Prop where
  only : u = { s with light := u.light }
  length : u.light.leds.length = s.light.leds.length
  other : ∀ d, d ≠ c → ledOf u d = ledOf s d

theorem LedKept.refl (c : Nat) (s : State) : LedKept c s s := ⟨rfl, rfl, fun _ _ => rfl⟩

theorem LedKept.trans {c : Nat} {s u v : State} (h : LedKept c s u) (k : LedKept c u v) : LedKept c s v :=
  ⟨by rw [k.only, h.only], k.length.trans h.length, fun d hd => (k.other d hd).trans (h.other d hd)⟩

theorem LedKept.set (c : Nat) (f : Led → Led) (s : State) : LedKept c s (setLed c f s) :=
  ⟨rfl, setLed_length c f s, fun _ hd => ledOf_setLed_other hd f s⟩

theorem LedKept.cfg {c : Nat} {s u : State} (h : LedKept c s u) : u.cfg = s.cfg := by rw [h.only]

theorem settleDiag_kept (c : Nat) (s : State) : LedKept c s (settleDiag c s) := by
  rw [settleDiag]
  split
  · split
    · exact .set ..
    · exact .refl ..
  · exact .refl ..

/-- The fields of a channel that the end of a diagnostic pulse leaves. -/
theorem ledOf_settleDiag {s : State} {c : Nat} (hc : c < s.light.leds.length) :
    (ledOf (settleDiag c s) c).changes = (ledOf s c).changes ∧ (ledOf (settleDiag c s) c).gainNext = (ledOf s c).gainNext ∧
      (ledOf (settleDiag c s) c).gain = (ledOf s c).gain := by
  rw [settleDiag]
  split
  · split
    · rw [ledOf_setLed_same hc]
      exact ⟨rfl, rfl, rfl⟩
    · exact ⟨rfl, rfl, rfl⟩
  · exact ⟨rfl, rfl, rfl⟩

theorem resumeLed_kept (c : Nat) (s : State) : LedKept c s (resumeLed c s) := by
  rw [resumeLed]
  split <;> exact .set ..

theorem periodChecks_kept (c : Nat) (s : State) : LedKept c s (periodChecks c s) := by
  rw [periodChecks]
  split
  · exact .set ..
  · exact .refl ..

theorem applyGain_none {s : State} {c : Nat} (h : (ledOf s c).gainNext = none) : applyGain c s = s := by
  rw [applyGain, h]

/-- The end of a period leaves of a channel all but the flags of its outputs and of its check. -/
theorem ledOf_periodEnd {s : State} {c : Nat} (hc : c < s.light.leds.length) :
    let u := periodChecks c (resumeLed c s)
    (ledOf u c).changes = (ledOf s c).changes ∧ (ledOf u c).iMeas = (ledOf s c).iMeas ∧ (ledOf u c).vMeas = (ledOf s c).vMeas ∧
      (ledOf u c).gain = (ledOf s c).gain ∧ (ledOf u c).resumed = !s.power.safe := by
  have hr : (ledOf (resumeLed c s) c).changes = (ledOf s c).changes ∧ (ledOf (resumeLed c s) c).iMeas = (ledOf s c).iMeas ∧
      (ledOf (resumeLed c s) c).vMeas = (ledOf s c).vMeas ∧ (ledOf (resumeLed c s) c).gain = (ledOf s c).gain ∧
      (ledOf (resumeLed c s) c).resumed = !s.power.safe := by
    rw [resumeLed]
    split
    · next h =>
      rw [ledOf_setLed_same hc, h]
      exact ⟨rfl, rfl, rfl, rfl, rfl⟩
    · next h =>
      rw [ledOf_setLed_same hc, Bool.eq_false_iff.2 h]
      exact ⟨rfl, rfl, rfl, rfl, rfl⟩
  intro u
  have hu : u = periodChecks c (resumeLed c s) := rfl
  rw [hu, periodChecks]
  split
  · rw [ledOf_setLed_same ((resumeLed_kept c s).length.symm ▸ hc)]
    exact hr
  · exact hr

theorem ledPeriod_quiet {s : State} {c : Nat} (hc : c < 16) (hl : c < s.light.leds.length) (hp : 0 < pwmPeriod s c)
    (ht : s.now % pwmPeriod s c = 0) (hn : (ledOf s c).changes = []) (hg : (ledOf s c).gainNext = none) (i v : Nat) :
    let u := ledPeriod c i v s
    u = { s with light := u.light } ∧ (ledOf u c).iMeas = BitVec.ofNat 16 i ∧ (ledOf u c).vMeas = BitVec.ofNat 16 v ∧
      (ledOf u c).gain = (ledOf s c).gain ∧ (ledOf u c).resumed = !s.power.safe ∧ ∀ d, d ≠ c → ledOf u d = ledOf s d := by
  obtain ⟨h1, h2, h3⟩ := ledOf_settleDiag hl
  have hk := settleDiag_kept c s
  have hl' : c < (settleDiag c s).light.leds.length := hk.length.symm ▸ hl
  have hm := ledOf_setLed_same hl' fun l => { l with
    changes := l.changes.filter (fun x => !decide (x.launch ≤ (settleDiag c s).now)), iMeas := BitVec.ofNat 16 i, vMeas := BitVec.ofNat 16 v }
  have hu : ledPeriod c i v s = periodChecks c (resumeLed c (takeMeasured c i v (settleDiag c s))) := by
    rw [ledPeriod_starts hc hp ht]
    simp only [h1, hn, List.filter_nil, List.foldl_nil, List.filterMap_nil]
    rw [applyGain_none (by rw [takeMeasured, hm]; exact h2.trans hg)]
    rfl
  have hkm : LedKept c s (takeMeasured c i v (settleDiag c s)) := hk.trans (.set ..)
  have hlm : c < (takeMeasured c i v (settleDiag c s)).light.leds.length := hkm.length.symm ▸ hl
  have hkk := hkm.trans ((resumeLed_kept c _).trans (periodChecks_kept c _))
  obtain ⟨-, e2, e3, e4, e5⟩ := ledOf_periodEnd hlm
  have hsafe : (takeMeasured c i v (settleDiag c s)).power.safe = s.power.safe := by rw [hkm.only]
  intro u
  rw [show u = _ from hu]
  refine ⟨hkk.only, ?_, ?_, ?_, e5.trans (by rw [hsafe]), hkk.other⟩
  · rw [e2, takeMeasured, hm]
  · rw [e3, takeMeasured, hm]
  · rw [e4, takeMeasured, hm]
    exact h3

theorem applyChange_light (c : Nat) (s : State) (x : LedChange) : (applyChange c s x).light = s.light := rfl

theorem ledOf_applyChange (c d : Nat) (s : State) (x : LedChange) : ledOf (applyChange c s x) d = ledOf s d := rfl

theorem applyChange_cfg {c : Nat} {s u : State} (h : u.cfg = s.cfg) (x : LedChange) :
    (applyChange c u x).cfg = (applyChange c s x).cfg := by
  simp only [applyChange, setCfgF, setCfg, cfgWord, h]

/-- A period start at which one change is due. -/
theorem ledPeriod_change {s : State} {c : Nat} (hc : c < 16) (hl : c < s.light.leds.length) (hp : 0 < pwmPeriod s c)
    (ht : s.now % pwmPeriod s c = 0) {x : LedChange} (hn : (ledOf s c).changes = [x]) (hx : x.launch ≤ s.now)
    (hg : (ledOf s c).gainNext = none) (i v : Nat) :
    ∃ u, ledPeriod c i v s = settleLedSets x.ref.toList u ∧ u.cfg = (applyChange c s x).cfg ∧ (ledOf u c).changes = [] := by
  obtain ⟨h1, h2, -⟩ := ledOf_settleDiag hl
  have hk := settleDiag_kept c s
  have hnow : (settleDiag c s).now = s.now := by rw [hk.only]; rfl
  have hl' : c < (settleDiag c s).light.leds.length := hk.length.symm ▸ hl
  have hm := ledOf_setLed_same hl' fun l => { l with
    changes := l.changes.filter (fun x => !decide (x.launch ≤ (settleDiag c s).now)), iMeas := BitVec.ofNat 16 i, vMeas := BitVec.ofNat 16 v }
  have hd : ((ledOf (settleDiag c s) c).changes.filter fun x => decide (x.launch ≤ (settleDiag c s).now)) = [x] := by
    rw [h1, hn, hnow]
    simp [hx]
  have hgm : (ledOf (applyChange c (takeMeasured c i v (settleDiag c s)) x) c).gainNext = none := by
    rw [ledOf_applyChange, takeMeasured, hm]
    exact h2.trans hg
  have hkm : LedKept c s (takeMeasured c i v (settleDiag c s)) := hk.trans (.set ..)
  have hla : c < (applyChange c (takeMeasured c i v (settleDiag c s)) x).light.leds.length := by
    rw [applyChange_light, hkm.length]
    exact hl
  obtain ⟨e1, -⟩ := ledOf_periodEnd hla
  have hr : [x].filterMap (fun x => x.ref) = x.ref.toList := by cases h : x.ref <;> simp [h]
  refine ⟨periodChecks c (resumeLed c (applyChange c (takeMeasured c i v (settleDiag c s)) x)), ?_, ?_, ?_⟩
  · rw [ledPeriod_starts hc hp ht]
    simp only [hd, List.foldl_cons, List.foldl_nil]
    rw [applyGain_none hgm, hr]
  · have hc1 := ((resumeLed_kept c _).trans (periodChecks_kept c (resumeLed c (applyChange c (takeMeasured c i v (settleDiag c s)) x)))).cfg
    exact hc1.trans (applyChange_cfg hkm.cfg x)
  · rw [e1, ledOf_applyChange, takeMeasured, hm, h1, hn, hnow]
    simp [hx]

/-! ### Faults and diagnostic pulses (R446, R447, R451) -/

section

variable {s : State} {c row : Nat} (hc : c < 16) (hr : row < 16) (hm : matrixOn s = true) (h0 : 0 < segmentNs s row c)
  (ht : 1000 * tDet s c ≤ segmentNs s row c)
include hc hr hm h0 ht

/-- In matrix mode a segment whose slot is long enough is checked. -/
theorem ledFault_segment (short : Bool) : ledFault c short row s =
    if short then
      (if (ledOf s c).short then s else raise 0x7011 (natLE 1 c) (setLed c (fun l => { l with short := true }) s))
    else raise 0x7013 (natLE 1 row ++ natLE 1 c)
      (setMatrix (fun m => { m with segOpen := m.segOpen ||| BitVec.ofNat 256 (2 ^ (16 * row + c)) }) s) := by
  have hg : ¬(decide (segmentNs s row c = 0) || decide (segmentNs s row c < 1000 * tDet s c) || decide (16 ≤ row)) = true := by
    simp
    omega
  rw [ledFault, if_neg (Nat.not_le.2 hc), if_pos hm, if_neg hg]

theorem ledFault_segmentShort (hs : (ledOf s c).short = false) : ledFault c true row s =
    raise 0x7011 (natLE 1 c) (setLed c (fun l => { l with short := true }) s) := by
  rw [ledFault_segment hc hr hm h0 ht, if_pos rfl, if_neg (by simp [hs])]

theorem ledFault_segmentOpen : ledFault c false row s = raise 0x7013 (natLE 1 row ++ natLE 1 c)
    (setMatrix (fun m => { m with segOpen := m.segOpen ||| BitVec.ofNat 256 (2 ^ (16 * row + c)) }) s) := by
  rw [ledFault_segment hc hr hm h0 ht, if_neg Bool.false_ne_true]

end

theorem ledFault_latches {s : State} {c : Nat} (hc : c < 16) (hm : matrixOn s = false) (hk : checksNow s c = true)
    (ho : (ledOf s c).open_ = false) (hs : (ledOf s c).short = false) (short : Bool) (row : Nat) : ledFault c short row s =
      raise (if short then 0x7011 else 0x7010) (natLE 1 c)
        (setLed c (fun l => { l with open_ := !short, short := short, lit := false, diag := none }) s) :=
  (if_neg (Nat.not_le.2 hc)).trans ((if_neg (by simp [hm])).trans (if_neg (by simp [hk, ho, hs])))

theorem ledFault_not {s : State} {c : Nat} (hm : matrixOn s = false)
    (h : checksNow s c = false ∨ (ledOf s c).open_ = true ∨ (ledOf s c).short = true) (short : Bool) (row : Nat) :
    ledFault c short row s = s := by
  rw [ledFault]
  split
  · rfl
  · refine (if_neg (by simp [hm])).trans (if_pos ?_)
    rcases h with h | h | h <;> simp [h]

theorem diagPulse_not {s : State} {c : Nat} (h : 16 ≤ c ∨ matrixOn s = true) : diagPulse c s = s :=
  if_pos (by rcases h with h | h <;> simp [h])

theorem diagPulse_barred {s : State} {c : Nat} (hc : c < 16) (hm : matrixOn s = false)
    (h : s.power.safe = true ∨ (ledOf s c).open_ = true ∨ (ledOf s c).short = true) (hd : (ledOf s c).diag = none) :
    diagPulse c s = s := by
  refine (if_neg (by simp [hm, hc])).trans ?_
  rw [settleDiag_none hd]
  exact if_pos (by rcases h with h | h | h <;> simp [h])

section

variable {s : State} {c : Nat} (hc : c < 16) (hm : matrixOn s = false) {u : State} (hu : settleDiag c s = u)
  (hp : pulseNs u c < 1000 * tDet u c) (hs : u.power.safe = false) (ho : (ledOf u c).open_ = false) (hsh : (ledOf u c).short = false)
  (hd : (ledOf u c).diag = none)
include hc hm hu hp hs ho hsh hd

/-- A channel that its own pulses do not check goes by DIAG_PERIOD and the excluded windows. -/
theorem diagPulse_goes : diagPulse c s =
    let v := diagStarved c u
    let due := match (ledOf u c).diagLast with | some t => decide (t + diagPeriod v c ≤ v.now) | none => true
    if !due || exclIn v c (v.now - 20000) (v.now + diagNs v c + 20000) then v
    else setLed c (fun l => { l with diag := some (v.now, v.now + diagNs v c), diagLast := some v.now }) v := by
  subst hu
  exact (if_neg (by simp [hm, hc])).trans (if_neg (by simp [hp, hs, ho, hsh, hd]))

section

variable {v : State} (hv : diagStarved c u = v) (hl : ∀ last, (ledOf u c).diagLast = some last → last + diagPeriod v c ≤ v.now)
include hv hl

theorem diagPulse_due : diagPulse c s = if exclIn v c (v.now - 20000) (v.now + diagNs v c + 20000) then v
    else setLed c (fun l => { l with diag := some (v.now, v.now + diagNs v c), diagLast := some v.now }) v := by
  have hdue : (match (ledOf u c).diagLast with | some t => decide (t + diagPeriod v c ≤ v.now) | none => true) = true := by
    cases h : (ledOf u c).diagLast with
    | none => rfl
    | some last => exact decide_eq_true (hl last h)
  rw [diagPulse_goes hc hm hu hp hs ho hsh hd, hv]
  simp only [hdue]
  rfl

theorem diagPulse_gives (hx : exclIn v c (v.now - 20000) (v.now + diagNs v c + 20000) = false) : diagPulse c s =
    setLed c (fun l => { l with diag := some (v.now, v.now + diagNs v c), diagLast := some v.now }) v :=
  (diagPulse_due hc hm hu hp hs ho hsh hd hv hl).trans (if_neg (by simp [hx]))

theorem diagPulse_excluded (hx : exclIn v c (v.now - 20000) (v.now + diagNs v c + 20000) = true) : diagPulse c s = v :=
  (diagPulse_due hc hm hu hp hs ho hsh hd hv hl).trans (if_pos hx)

end

end

theorem diagStarved_not {s : State} {c : Nat} {d : Ns} (h : (ledOf s c).diagDone = some d) (ht : s.now ≤ d + 4 * diagPeriod s c) :
    diagStarved c s = s := by
  rw [diagStarved, h]
  exact if_neg (by simp [Nat.not_lt.2 ht])

/-! ### Colour feedback (R448) -/

/-- A sensor has not answered. -/
def sensorFail (k : Nat) (s : State) : State :=
  let n := s.light.sensorFails.getD k 0 + 1
  let w := { s with light := { s.light with sensorFails := s.light.sensorFails.set k n } }
  if n = 3 then raise 0x7015 (natLE 1 k) w else w

/-- A sensor has answered: the state before its channels are served. -/
def sensorAnswers (k : Nat) (s : State) : State := { s with light := { s.light with sensorFails := s.light.sensorFails.set k 0 } }

/-- A channel takes what the sensor that serves it has read. -/
def serveGain (k : Nat) (bs : List Byte) (w : State) (c : Nat) : State :=
  if ledF w c 0x14 0 1 = 1 && ledF w c 0x14 1 2 = k && decide (ledF w c 0x14 3 2 < 3) && ledLit w c then
    updateGain c (colourValue k (ledF w c 0x14 3 2) bs) w
  else w

/-- What COLOR_READ does with sensor `k`. -/
def readSensor (reads : List (List Byte)) (s : State) (k : Nat) : State :=
  if (reads.getD k []).length ≠ 6 then sensorFail k s else (List.range 16).foldl (serveGain k (reads.getD k [])) (sensorAnswers k s)

theorem colorRead_off {s : State} (h : matrixOn s = true) (reads : List (List Byte)) : colorRead reads s = s := if_pos h

theorem colorRead_reads {s : State} (h : matrixOn s = false) (reads : List (List Byte)) :
    colorRead reads s = (List.range 4).foldl (readSensor reads) s := by
  refine (if_neg (by simp [h])).trans (congrArg (fun f => List.foldl f s (List.range 4)) (funext fun u => funext fun k => ?_))
  rw [readSensor]
  by_cases hb : (reads.getD k []).length = 6
  · simp only [hb, bne_self_eq_false, ne_eq, not_true_eq_false, if_false, Bool.false_eq_true]
    rfl
  · rw [if_pos (by simpa using hb), if_pos hb]
    rfl

theorem sensorFail_leds (k : Nat) (s : State) : (sensorFail k s).light.leds = s.light.leds := by
  rw [sensorFail]
  dsimp only
  split
  · rw [raise_light]
  · rfl

theorem readSensor_silent {reads : List (List Byte)} {k : Nat} (h : reads.length ≤ k) (s : State) : readSensor reads s k = sensorFail k s := by
  have h0 : reads.getD k [] = [] := by rw [List.getD_eq_getElem?_getD, List.getElem?_eq_none h, Option.getD_none]
  exact if_pos (by rw [h0]; decide)

theorem sensorFail_first {s : State} {k : Nat} (h : s.light.sensorFails.getD k 0 = 0) : sensorFail k s =
    { s with light := { s.light with sensorFails := s.light.sensorFails.set k 1 } } := by
  rw [sensorFail, h]
  rfl

/-- A fold in which only one entry acts, and what it leaves stays. -/
theorem foldl_once {α β : Type} {f : α → β → α} {a : α} {c : β} {l : List β} (hn : l.Nodup) (hc : c ∈ l)
    (h1 : ∀ d, d ∈ l → d ≠ c → f a d = a) (h2 : ∀ d, d ∈ l → d ≠ c → f (f a c) d = f a c) : l.foldl f a = f a c := by
  obtain ⟨l1, l2, rfl⟩ := List.append_of_mem hc
  have hd := List.nodup_append.1 hn
  have hne1 : ∀ d ∈ l1, d ≠ c := fun d hm => hd.2.2 d hm c (List.mem_cons_self ..)
  have hne2 : ∀ d ∈ l2, d ≠ c := fun d hm hx => (List.nodup_cons.1 hd.2.1).1 (hx ▸ hm)
  rw [List.foldl_append, foldl_stays fun d hm => h1 d (List.mem_append_left _ hm) (hne1 d hm), List.foldl_cons]
  exact foldl_stays fun d hm => h2 d (List.mem_append_right _ (List.mem_cons_of_mem _ hm)) (hne2 d hm)

theorem serveGain_off {k c : Nat} {w : State} (h : ledF w c 0x14 0 1 = 0) (bs : List Byte) : serveGain k bs w c = w :=
  if_neg (by simp [h])

/-- The gain that R448 gives to a read of `m`, in units of 2⁻¹⁵. -/
def gainAfter (s : State) (c m : Nat) : Nat :=
  let target := ledF s c 0x14 16 16
  let lim : Int := ledF s c 0x18 16 16
  let g := match (ledOf s c).gainNext with | some g => g.toNat | none => (ledOf s c).gain.toNat
  let num : Int := 2 * g * target + ledF s c 0x18 0 16 * ((target : Int) - m)
  min 65535 (roundDiv (clampI ((65536 - lim) * target) ((65536 + lim) * target) num) (2 * target)).toNat

/-- The gain of a channel becomes the clamped quotient of `num` by `den`, and a limit that holds it is reported once. -/
def takeGain (c : Nat) (num : Int) (den : Nat) (s : State) : State :=
  let lim : Int := ledF s c 0x18 16 16
  let lo := (65536 - lim) * den
  let hi := (65536 + lim) * den
  let g := min 65535 (roundDiv (clampI lo hi num) (2 * den)).toNat
  let limited := decide (num < lo) || decide (hi < num)
  let u := setLed c (fun l => { l with gainNext := some (BitVec.ofNat 16 g), limitEpisode := limited }) s
  if limited && !(ledOf s c).limitEpisode then raise 0x7014 (natLE 1 c ++ natLE 2 g) u else u

theorem updateGain_eq (c m : Nat) (s : State) :
    updateGain c m s = takeGain c (gainRaw c m s).1 (gainRaw c m s).2.1 (gainRaw c m s).2.2 := rfl

theorem takeGain_effect {s : State} {c : Nat} (hc : c < s.light.leds.length) (num : Int) (den : Nat) :
    (takeGain c num den s).cfg = s.cfg ∧ (ledOf (takeGain c num den s) c).gainNext = some (BitVec.ofNat 16 (min 65535 (roundDiv
      (clampI ((65536 - (ledF s c 0x18 16 16 : Int)) * den) ((65536 + (ledF s c 0x18 16 16 : Int)) * den) num) (2 * den)).toNat)) := by
  rw [takeGain]
  split
  · rw [raise_cfg, ledOf, raise_light]
    exact ⟨rfl, congrArg Led.gainNext (ledOf_setLed_same hc _)⟩
  · exact ⟨rfl, congrArg Led.gainNext (ledOf_setLed_same hc _)⟩

theorem updateGain_target {s : State} {c : Nat} (hc : c < s.light.leds.length) (h : ledF s c 0x14 16 16 ≠ 0) (m : Nat) :
    (updateGain c m s).cfg = s.cfg ∧ (ledOf (updateGain c m s) c).gainNext = some (BitVec.ofNat 16 (gainAfter s c m)) := by
  have hg : gainRaw c m s = (2 * (match (ledOf s c).gainNext with | some g => g.toNat | none => (ledOf s c).gain.toNat)
      * ledF s c 0x14 16 16 + ledF s c 0x18 0 16 * ((ledF s c 0x14 16 16 : Int) - m), ledF s c 0x14 16 16, s) := if_neg h
  rw [updateGain_eq, hg]
  exact takeGain_effect hc ..

theorem ledF_congr {s u : State} (h : u.cfg = s.cfg) (c off lo w : Nat) : ledF u c off lo w = ledF s c off lo w := by
  simp only [ledF, cfgF, cfgWord, h]

/-- A good read of one sensor that serves one lit channel. -/
theorem colorRead_one {s : State} {c : Nat} {bs : List Byte} (hc : c < 16) (hm : matrixOn s = false) (hl : s.light.leds.length = 16)
    (hb : bs.length = 6) (ho : ∀ d, d < 16 → d ≠ c → ledF s d 0x14 0 1 = 0) (h1 : ledF s c 0x14 0 1 = 1) (hk : ledF s c 0x14 1 2 = 0)
    (hi : ledF s c 0x14 3 2 < 3) (hlit : ledLit s c = true) (ht : ledF s c 0x14 16 16 ≠ 0) :
    (ledOf (colorRead [bs] s) c).gainNext = some (BitVec.ofNat 16 (gainAfter s c (colourValue 0 (ledF s c 0x14 3 2) bs))) := by
  have hlen : c < (sensorAnswers 0 s).light.leds.length := hl.symm ▸ hc
  have hserve : serveGain 0 bs (sensorAnswers 0 s) c = updateGain c (colourValue 0 (ledF s c 0x14 3 2) bs) (sensorAnswers 0 s) := by
    have hlit' : ledLit (sensorAnswers 0 s) c = true := hlit
    have h1' : ledF (sensorAnswers 0 s) c 0x14 0 1 = 1 := h1
    have hk' : ledF (sensorAnswers 0 s) c 0x14 1 2 = 0 := hk
    have hi' : ledF (sensorAnswers 0 s) c 0x14 3 2 < 3 := hi
    exact if_pos (by simp [h1', hk', hi', hlit'])
  obtain ⟨hcfg, hgain⟩ := updateGain_target (s := sensorAnswers 0 s) hlen ht (colourValue 0 (ledF s c 0x14 3 2) bs)
  have hone : (List.range 16).foldl (serveGain 0 bs) (sensorAnswers 0 s)
      = updateGain c (colourValue 0 (ledF s c 0x14 3 2) bs) (sensorAnswers 0 s) := by
    rw [← hserve]
    refine foldl_once List.nodup_range (List.mem_range.2 hc) (fun d hd hn => ?_) (fun d hd hn => ?_)
    · exact serveGain_off (w := sensorAnswers 0 s) (ho d (List.mem_range.1 hd) hn) bs
    · refine serveGain_off ?_ bs
      rw [hserve, ledF_congr (s := s) hcfg]
      exact ho d (List.mem_range.1 hd) hn
  have hread : readSensor [bs] s 0 = updateGain c (colourValue 0 (ledF s c 0x14 3 2) bs) (sensorAnswers 0 s) :=
    (if_neg (by simp [hb])).trans hone
  have hleds : ∀ u : State, (sensorFail 3 (sensorFail 2 (sensorFail 1 u))).light.leds = u.light.leds := fun u => by
    rw [sensorFail_leds, sensorFail_leds, sensorFail_leds]
  have hfold : colorRead [bs] s = sensorFail 3 (sensorFail 2 (sensorFail 1 (readSensor [bs] s 0))) := by
    rw [colorRead_reads hm]
    simp only [show List.range 4 = [0, 1, 2, 3] from rfl, List.foldl_cons, List.foldl_nil]
    rw [readSensor_silent (k := 1) (by simp), readSensor_silent (k := 2) (by simp), readSensor_silent (k := 3) (by simp)]
  rw [hfold, ledOf, hleds, hread]
  exact hgain

/-- Four sensors that do not answer for the first time. -/
theorem colorRead_silent {s : State} (hm : matrixOn s = false) (hf : s.light.sensorFails = [0, 0, 0, 0]) :
    colorRead [] s = { s with light := { s.light with sensorFails := [1, 1, 1, 1] } } := by
  rw [colorRead_reads hm]
  simp only [show List.range 4 = [0, 1, 2, 3] from rfl, List.foldl_cons, List.foldl_nil,
    readSensor_silent (reads := []) (Nat.zero_le _)]
  rw [sensorFail_first (k := 0) (by simp [hf]), sensorFail_first (k := 1) (by simp [hf]), sensorFail_first (k := 2) (by simp [hf]),
    sensorFail_first (k := 3) (by simp [hf])]
  simp [hf]

/-! ### The matrix in time (R449, R450, R452) -/

theorem matrixSlot_early {s : State} (h : s.now < s.light.matrix.slotAt + rowNs s) : matrixSlot s = s := if_pos (by simp [h])

/-- A row that ends in the safe state leaves the matrix to be resumed. -/
def endRow (s : State) : State := if s.power.safe then setMatrix (fun m => { m with resumed := false }) s else s

section

variable {s : State} (hm : matrixOn s = true) (ht : s.light.matrix.slotAt + rowNs s ≤ s.now)
include hm ht

theorem matrixSlot_ends : matrixSlot s =
    if s.light.matrix.row + 1 < matrixRows (endRow s) then
      setMatrix (fun m => { m with row := m.row + 1, slotAt := (endRow s).now }) (endRow s)
    else if cfgF (endRow s) 0x862000 6 2 = 0 && !(endRow s).power.safe then matrixSync (endRow s)
    else setMatrix (fun m => { m with row := 0, slotAt := (endRow s).now }) (endRow s) :=
  if_neg (by simp [hm, Nat.not_lt.2 ht])

theorem matrixSlot_nextRow (h : s.light.matrix.row + 1 < matrixRows s) : matrixSlot s =
    setMatrix (fun m => { m with row := s.light.matrix.row + 1, slotAt := s.now }) (endRow s) := by
  rw [matrixSlot_ends hm ht]
  cases hs : s.power.safe <;> simp only [endRow, hs, Bool.false_eq_true, if_false, if_true] <;> exact if_pos h

theorem matrixSlot_scanSync (h : matrixRows s ≤ s.light.matrix.row + 1) (h0 : cfgF s 0x862000 6 2 = 0) (hs : s.power.safe = false) :
    matrixSlot s = matrixSync (endRow s) := by
  rw [matrixSlot_ends hm ht]
  simp only [endRow, hs, Bool.false_eq_true, if_false]
  exact (if_neg (Nat.not_lt.2 h)).trans (if_pos (by simp [h0]))

theorem matrixSlot_scanEnds (h : matrixRows s ≤ s.light.matrix.row + 1) (h0 : cfgF s 0x862000 6 2 ≠ 0 ∨ s.power.safe = true) :
    matrixSlot s = setMatrix (fun m => { m with row := 0, slotAt := s.now }) (endRow s) := by
  rw [matrixSlot_ends hm ht]
  cases hs : s.power.safe with
  | true =>
    simp only [endRow, hs, if_true]
    exact (if_neg (Nat.not_lt.2 h)).trans (if_neg (by simp [setMatrix, hs]))
  | false =>
    simp only [endRow, hs, Bool.false_eq_true, if_false]
    exact (if_neg (Nat.not_lt.2 h)).trans (if_neg (by simpa [hs] using h0))

end

theorem matrixSync_off {s : State} (h : matrixOn s = false ∨ s.power.safe = true) : matrixSync s = s :=
  if_pos (by rcases h with h | h <;> simp [h])

theorem matrixSync_empty {s : State} (hm : matrixOn s = true) (hs : s.power.safe = false) (hq : s.light.matrix.queue = []) :
    matrixSync s = setMatrix (fun m => { m with row := 0, slotAt := s.now, resumed := true, syncEmpty := satInc m.syncEmpty }) s := by
  rw [matrixSync, hq]
  exact if_neg (by simp [hm, hs])

theorem matrixSync_frame {s : State} (hm : matrixOn s = true) (hs : s.power.safe = false) {f : List Nat} {r : Ref} {ctx : Nat}
    {rest : List (List Nat × Ref × Nat)} (hq : s.light.matrix.queue = (f, r, ctx) :: rest) : matrixSync s = finishIn ctx r stDone 0 0
      (setMatrix (fun m => { m with frame := f, queue := rest, row := 0, slotAt := s.now, resumed := true }) s) := by
  rw [matrixSync, hq]
  exact if_neg (by simp [hm, hs])

/-- Settles O52: the lights by their rules (R444 to R454). -/
theorem lights : Obligations.Lights := by
  refine ⟨fun h s hr hn => ?_, fun t s => ?_⟩
  · refine ⟨?_, ?_, ?_, ?_, fun a => ⟨?_, ?_, ?_, ?_⟩, ?_, ?_, ?_, ?_⟩
    · intro c i d hc hi
      have hb : ∀ e < 16, (2 ^ c).testBit e = true → i ≤ ledF (accept h 0x66 s) e 0 0 11 := fun e _ he => by
        obtain rfl : c = e := by simpa [Nat.testBit_two_pow] using he
        exact hi
      refine post_next hr ((startLedSet_waits (s := accept h 0x66 s) hb (lightLaunch_zero _) hn hc (by simp) ..).trans ?_)
      rw [bitsOf_two_pow hc]
      rfl
    · intro m i d launch at_ h0 hm hi hl
      obtain ⟨c, hc, hb⟩ := exists_testBit h0 hm
      exact post_next hr (startLedSet_waits (s := accept h 0x66 s) hi (lightLaunch_of hl) hn hc hb ..)
    · exact fun m c i d launch hc hm hi => post_next hr (startLedSet_param (s := accept h 0x66 s) hc hm hi ..)
    · exact fun m i d launch h0 ht hi => post_next hr (startLedSet_noLaunch (s := accept h 0x66 s) hi (lightLaunch_noTor h0 ht) ..)
    · exact fun hm => post_next hr (startLedMatrixWrite_off (s := accept h 0x67 s) hm ..)
    · exact fun hm hq => post_next hr (startLedMatrixWrite_full (s := accept h 0x67 s) hm hq ..)
    · exact fun hm hq ha => post_next hr (startLedMatrixWrite_outside (s := accept h 0x67 s) hm hq ha _)
    · intro hm hq ha hp
      obtain ⟨h1, h2⟩ := matrixCtx_free (s := accept h 0x67 s) hq
      refine ⟨_, post_next hr (startLedMatrixWrite_queues (s := accept h 0x67 s) hm hq ha hp _), ?_, ?_, h2⟩
      · simp only [List.mem_cons, List.not_mem_nil, or_false] at h1
        omega
      · simp only [List.mem_cons, List.not_mem_nil, or_false] at h1
        omega
    · intro c hc
      refine ⟨post_next hr ?_, post_next hr rfl⟩
      rw [startLedFaultClear, bitsOf_two_pow hc]
      rfl
    · exact fun m seg => post_next hr rfl
    · exact fun c target hc => post_next hr (startColorTarget_sets hc ..)
    · exact fun c target hc => post_next hr (startColorTarget_param hc ..)
  · refine ⟨?_, ?_, ?_, ?_, ?_, ?_, ?_, ?_, ?_, ?_, ?_, ?_, ?_, ?_, ?_, ?_, ?_, ?_, ?_, ?_⟩
    · exact fun c i v h => congrArg Host.Outcome.next (ledPeriod_not (s := passTo t s) h i v)
    · intro c i v hc hl hp ht hn hg
      exact ⟨_, rfl, ledPeriod_quiet (s := passTo t s) hc (hl.symm ▸ hc) hp ht hn hg i v⟩
    · intro c i v x hc hl hp ht hn hx hg
      obtain ⟨u, h1, h2, h3⟩ := ledPeriod_change (s := passTo t s) hc (hl.symm ▸ hc) hp ht hn hx hg i v
      exact ⟨u, congrArg Host.Outcome.next h1, h2, h3⟩
    · exact fun c i v hc hp ht => congrArg Host.Outcome.next (ledPeriod_starts (s := passTo t s) hc hp ht i v)
    · intro c row hc hrow hm h0 ht
      exact ⟨fun hs => congrArg Host.Outcome.next (ledFault_segmentShort (s := passTo t s) hc hrow hm h0 ht hs),
        congrArg Host.Outcome.next (ledFault_segmentOpen (s := passTo t s) hc hrow hm h0 ht)⟩
    · intro c hc hm u l v hp hs ho hsh hd hl
      have hs' : (settleDiag c (passTo t s)).power.safe = false := by rw [(settleDiag_kept c (passTo t s)).only]; exact hs
      exact ⟨fun hx => congrArg Host.Outcome.next (diagPulse_gives (s := passTo t s) hc hm rfl hp hs' ho hsh hd rfl hl hx),
        fun hx => congrArg Host.Outcome.next (diagPulse_excluded (s := passTo t s) hc hm rfl hp hs' ho hsh hd rfl hl hx)⟩
    · exact fun reads hm => congrArg Host.Outcome.next (colorRead_reads (s := passTo t s) hm reads)
    · intro hm ht
      exact ⟨fun h => congrArg Host.Outcome.next (matrixSlot_nextRow (s := passTo t s) hm ht h), fun h =>
        ⟨fun h0 hs => congrArg Host.Outcome.next (matrixSlot_scanSync (s := passTo t s) hm ht h h0 hs),
          fun h0 => congrArg Host.Outcome.next (matrixSlot_scanEnds (s := passTo t s) hm ht h h0)⟩⟩
    · exact fun c row hc hm hk ho hs => ⟨congrArg Host.Outcome.next (ledFault_latches (s := passTo t s) hc hm hk ho hs true row),
        congrArg Host.Outcome.next (ledFault_latches (s := passTo t s) hc hm hk ho hs false row)⟩
    · exact fun c sh row hm h => congrArg Host.Outcome.next (ledFault_not (s := passTo t s) hm h sh row)
    · exact fun c h => congrArg Host.Outcome.next (diagPulse_not (s := passTo t s) h)
    · exact fun c hc hm _ h hd => congrArg Host.Outcome.next (diagPulse_barred (s := passTo t s) hc hm h hd)
    · intro c hc hm hs hp ho hsh hd hl hdone hx
      obtain ⟨d, hdd, hdt⟩ := hdone
      refine congrArg Host.Outcome.next (diagPulse_gives (s := passTo t s) hc hm (settleDiag_none hd) hp hs ho hsh hd
        (diagStarved_not hdd hdt) (fun last h => ?_) hx)
      exact absurd (h.symm.trans hl) (by simp)
    · exact fun hm reads => congrArg Host.Outcome.next (colorRead_off (s := passTo t s) hm reads)
    · intro c bs hc hm hl hf hb ho h1 hk hi hlit ht
      exact ⟨_, rfl, colorRead_one (s := passTo t s) hc hm hl hb ho h1 hk hi hlit ht⟩
    · intro hm hf
      refine ⟨_, congrArg Host.Outcome.next (colorRead_silent (s := passTo t s) hm hf), rfl, rfl, rfl⟩
    · exact fun hm ht => congrArg Host.Outcome.next (matrixSlot_early (s := passTo t s) ht)
    · intro hm ht hs h
      refine congrArg Host.Outcome.next ((matrixSlot_nextRow (s := passTo t s) hm ht h).trans ?_)
      rw [endRow, if_neg (by simpa using hs)]
      rfl
    · intro hm hs h1
      have hsync : exec (.matrixSync t) s = .next (matrixSync (passTo t s)) := congrArg Host.Outcome.next (if_pos h1)
      rw [hsync]
      exact ⟨fun hq => congrArg Host.Outcome.next (matrixSync_empty (s := passTo t s) hm hs hq),
        fun f r ctx rest hq => congrArg Host.Outcome.next (matrixSync_frame (s := passTo t s) hm hs hq)⟩
    · intro h
      refine congrArg Host.Outcome.next ?_
      by_cases h1 : cfgF s 0x862000 6 2 = 1
      · exact (if_pos h1).trans (matrixSync_off (s := passTo t s) (h.imp_right fun h => h.resolve_right (absurd h1)))
      · exact if_neg h1

end Sys2Proof.Machine
end

section
/-! SUPPORT. The compression channels (O53): a decode whose output lies over the block that it reads. -/

namespace Sys2Proof.Machine

/-! ### A decode over its own input (R469)

Nothing keeps the output of a ZIP_DECODE away from its input. `decodeDone` looks at the method byte of the block, to count STORED, after it has
written the block's output; the obligation looks at it before. Here the output's one byte goes onto the method byte of a stored block, so that the
two differ. -/

/-- Byte samples of one channel with no rows. -/
def byteForm : EpbForm := { kind := 2, bytes := 1, channels := 1, width := 0 }

/-- A stored block of the one byte 1, the first of its stream and not its last. -/
def storedBlock : List Byte := epbBlock byteForm [1] true false false

/-- A decode of that block at 0x2000_0000 to its own method byte, which is byte 2 (R457). -/
def overJob : ZipJob :=
  { ZipJob.fresh 2 byteForm (.pieces [(0x20000000, 24)]) with decode := true, out := 0x20000002, limit := 1, work := some (1, false) }

/-- Channel 0 has that job, and engine 0 has finished its block. -/
def overState : State :=
  let s := memPut 0x20000000 storedBlock State.reset
  { s with
    profile := { s.profile with inForce := 1 }
    zip := { s.zip with
      chans := s.zip.chans.set 0 { ZipChan.reset with job := some overJob }
      engs := s.zip.engs.set 0 { ZipEng.reset with chan := some 0 } } }

/-- A descriptor of command ring 63. -/
def overHdr : Hdr := { ring := 63, index := 0, serial := 0, tag := 0, irq := false, silent := false }

/-- What the block decodes to. -/
def overOut : EpbOut := { input := [1], first := true, last := false, size := 24 }

theorem overState_ready : Ready overHdr overState := ⟨by decide +kernel, by decide +kernel, by decide +kernel⟩

theorem overState_decodes : epbDecode (readPieces (nextPieces overJob [(0x20000000, 24)]) overState) = some overOut := by decide +kernel

/-- The block is a stored one when the decode begins. -/
theorem overState_stored : (field (readPieces (nextPieces overJob [(0x20000000, 24)]) overState) 2 1 == 0) = true := by decide +kernel

/-- A block of a decode that fits: STORED is counted by the method byte that is there after the block's output has been written. -/
theorem decodeDone_fits {c : Nat} {j : ZipJob} {ps : List (Nat × Nat)} {o : EpbOut} {u : State} (hs : j.src = .pieces ps)
    (hp : poisonPieces (nextPieces j ps) u = none) (hd : epbDecode (readPieces (nextPieces j ps) u) = some o)
    (hf : o.first = (j.blocks == 0)) (hl : ¬ j.limit < j.written + o.input.length) (hlast : o.last = false) :
    let w := memWrite 36 (j.out + j.written) o.input u
    decodeDone c j u = setZipJob c (fun _ => { j with
        inPos := j.inPos + o.size, consumed := j.consumed + o.size, written := j.written + o.input.length, blocks := j.blocks + 1
        work := none })
      (countBlock c o.size o.input.length (field (readPieces (nextPieces j ps) w) 2 1 == 0) w) := by
  simp only [decodeDone, hs, hp, hd, hf, bne_self_eq_false, Bool.false_eq_true, if_false, if_neg hl, hlast]

/-- That state at the end of the block, with any engines. -/
def overAt (z : Zip) : State := { passTo 0 overState with zip := z }

theorem overAt_decodes (z : Zip) : epbDecode (readPieces (nextPieces overJob [(0x20000000, 24)]) (overAt z)) = some overOut :=
  overState_decodes

/-- After the write the method byte is 1. -/
theorem overAt_written (z : Zip) :
    (field (readPieces (nextPieces overJob [(0x20000000, 24)]) (memWrite 36 0x20000002 [1] (overAt z))) 2 1 == 0) = false := by
  change (field (readPieces _ (memWrite 36 0x20000002 [1] (overAt Zip.reset))) 2 1 == 0) = false
  decide +kernel

theorem overAt_readable (z : Zip) : poisonPieces (nextPieces overJob [(0x20000000, 24)]) (overAt z) = none := by
  change poisonPieces _ (overAt Zip.reset) = none
  decide +kernel

/-- The model does not count the block in STORED. -/
theorem decodeDone_overAt (z : Zip) :
    ∃ f, decodeDone 0 overJob (overAt z) = setZipJob 0 f (countBlock 0 24 1 false (memWrite 36 0x20000002 [1] (overAt z))) :=
  ⟨_, (decodeDone_fits (u := overAt z) rfl (overAt_readable z) (overAt_decodes z) rfl (by decide) rfl).trans
    (congrArg (fun b => setZipJob 0 _ (countBlock 0 24 1 b (memWrite 36 0x20000002 [1] (overAt z)))) (overAt_written z))⟩

/-- What a channel counts in STORED for a block. -/
theorem stored_over {z : Zip} (hz : z.chans = overState.zip.chans) (b : Bool) (f : ZipJob → ZipJob) (bs : List Byte) :
    (zipChan (setZipJob 0 f (countBlock 0 24 1 b (memWrite 36 0x20000002 bs (overAt z)))) 0).stored = if b then 1 else 0 := by
  obtain ⟨chans, engs, ptr⟩ := z
  subst hz
  rfl

/-- Refutes O53: a ZIP_DECODE whose output lies over its input changes the byte that says whether the block was a stored one before STORED is
counted (`decodeDone`), where the obligation's clause of a decoded block takes that byte from the state before the block's end. -/
theorem not_zipChannels : ¬ Obligations.ZipChannels := by
  intro h
  unfold Obligations.ZipChannels at h
  obtain ⟨-, -, -, -, -, -, -, -, -, hdecode, -⟩ := h overHdr 0 overState overState_ready
  obtain ⟨u, hu, hz, -, hblock⟩ := hdecode 0 0 overJob (1, false) rfl (Nat.zero_le _) rfl rfl rfl
  replace hu : u = overAt u.zip := hu
  obtain ⟨-, hfits⟩ := hblock [(0x20000000, 24)] overOut rfl (by decide +kernel) overState_decodes rfl
  have heq := congrArg (fun s => (zipChan s 0).stored) (hfits (by decide))
  have hmodel : (zipChan (decodeDone 0 overJob u) 0).stored = 0 := by
    obtain ⟨f, hf⟩ := decodeDone_overAt u.zip
    rw [hu, hf, stored_over hz]
    rfl
  rw [overState_stored, hu] at heq
  have hclaim := heq.trans (stored_over hz true _ _)
  rw [← hu, hmodel] at hclaim
  exact absurd hclaim (by decide)

end Sys2Proof.Machine
end

section
/-! SUPPORT. The compositor and the eDP output (O54). -/

namespace Sys2Proof.Machine

/-! ### Scenes of the state (R471) -/

theorem finishIn_scenes (ctx : Nat) (r : Ref) (st d x : Nat) (s : State) : (finishIn ctx r st d x s).scenes = s.scenes := by
  rw [finishIn, finishAs_hostq]

theorem eccUe_scenes (port a : Nat) (s : State) : (eccUe port a s).scenes = s.scenes := by
  unfold eccUe
  dsimp only
  split <;> simp only [raise_scenes]

theorem memWrite_scenes (port a : Nat) (bs : List Byte) (s : State) : (memWrite port a bs s).scenes = s.scenes :=
  foldl_keeps _ State.scenes (fun u w => eccUe_scenes port (8 * w) u) _ _

theorem eccUe_time (port a : Nat) (s : State) : (eccUe port a s).time = s.time := by
  unfold eccUe
  dsimp only
  split <;> simp only [raise_time]

theorem memWrite_time (port a : Nat) (bs : List Byte) (s : State) : (memWrite port a bs s).time = s.time :=
  foldl_keeps _ State.time (fun u w => eccUe_time port (8 * w) u) _ _

theorem foldl_finishIn_scenes {α : Type} (ctx st d x : Nat) (f : α → Ref) (l : List α) (s : State) :
    (l.foldl (fun s p => finishIn ctx (f p) st d x s) s).scenes = s.scenes :=
  foldl_keeps _ State.scenes (fun u p => finishIn_scenes ctx (f p) st d x u) l s

theorem sceneOf_congr {s u : State} (h : u.scenes = s.scenes) (k : Nat) : sceneOf u k = sceneOf s k := congrArg (unit · k _) h

theorem sceneOf_setScene_same {s : State} {k : Nat} (h : k < s.scenes.length) (f : Scene → Scene) :
    sceneOf (setScene k f s) k = f (sceneOf s k) := unit_modUnit_same h f _

theorem setScene_congr {s : State} {k : Nat} {f g : Scene → Scene} (h : f (sceneOf s k) = g (sceneOf s k)) :
    setScene k f s = setScene k g s :=
  congrArg (fun y => { s with scenes := y }) (modUnit_congr h)

/-- A change that leaves the scene as it is changes nothing. -/
theorem setScene_self {s : State} {k : Nat} {f : Scene → Scene} (h : f (sceneOf s k) = sceneOf s k) : setScene k f s = s :=
  (setScene_congr (g := id) h).trans (congrArg (fun y => { s with scenes := y }) (List.modify_id ..))

theorem scene_noWaits {x : Scene} (h1 : x.stops = []) (h2 : x.loads = []) : { x with stops := [], loads := [] } = x := by
  cases x
  cases h1
  cases h2
  rfl

theorem scene_noChanges {x : Scene} {y : SceneRec} (h1 : x.rec_ = some y) (h2 : x.changes = []) :
    { x with rec_ := some y, changes := [] } = x := by
  cases x
  cases h1
  cases h2
  rfl

/-! ### COMPOSE_SCENE and COMPOSE_RUN (R471, R484) -/

section

variable {s : State} {k : Nat} (hk : k < 4) (r : Ref)
include hk

theorem startComposeScene_bad {a : Nat} (hm : hostMem a 576 s = true) (hp : poisonIn a 576 s = none)
    (ho : sceneOk (memRead a 576 s) s = false) : startComposeScene r k a s = finishIn (288 + k) r stParam 0 0 s := by
  simp [startComposeScene, Nat.not_le.2 hk, hm, hp, ho]

theorem startComposeScene_loads {a : Nat} (hm : hostMem a 576 s = true) (hp : poisonIn a 576 s = none)
    (ho : sceneOk (memRead a 576 s) s = true) (hd : isDisplay k s = false ∨ (readScene (memRead a 576 s)).periodic = true)
    (hr : (sceneOf s k).run = none) : startComposeScene r k a s = loadScene k (readScene (memRead a 576 s)) r s := by
  rcases hd with hd | hd <;> simp [startComposeScene, Nat.not_le.2 hk, hm, hp, ho, hd, hr]

theorem startComposeScene_waits {a : Nat} (hm : hostMem a 576 s = true) (hp : poisonIn a 576 s = none)
    (ho : sceneOk (memRead a 576 s) s = true) (hd : isDisplay k s = false ∨ (readScene (memRead a 576 s)).periodic = true)
    (hr : (sceneOf s k).run ≠ none) : startComposeScene r k a s =
      setScene k (fun x => { x with loads := x.loads ++ [(readScene (memRead a 576 s), r)] }) s := by
  have hrun := Option.isSome_iff_ne_none.2 hr
  rcases hd with hd | hd <;> simp [startComposeScene, Nat.not_le.2 hk, hm, hp, ho, hd, hrun]

theorem startComposeRun_unloaded {launch : Nat} (h : (sceneOf s k).rec_ = none) :
    startComposeRun r k launch s = finishIn (288 + k) r stState 0 0 s := by
  simp only [startComposeRun, h, if_neg (Nat.not_le.2 hk)]

theorem startComposeRun_noTor {launch : Nat} (h0 : launch ≠ 0) (h : refTime true launch s = none) :
    startComposeRun r k launch s = finishIn (288 + k) r stState 0 0 s := by
  cases hr : (sceneOf s k).rec_ <;> simp only [startComposeRun, hr, h, if_neg h0, if_neg (Nat.not_le.2 hk)]

end

theorem startComposeScene_outside {s : State} {k a : Nat} (h : 4 ≤ k ∨ hostMem a 576 s = false) (r : Ref) :
    startComposeScene r k a s = endWith r stParam s := by
  rcases h with h | h <;> simp [startComposeScene, h]

/-- The time that the LAUNCH of a COMPOSE_RUN names. -/
theorem startComposeRun_loaded {s : State} {k launch at_ : Nat} {x : SceneRec} (h : (sceneOf s k).rec_ = some x)
    (hl : (if launch = 0 then some (s.now + 1) else refTime true launch s) = some at_) (r : Ref) :
    startComposeRun r k launch s = if x.periodic then finishIn (288 + k) r stState 0 0 s
      else setScene k (fun x => { x with runs := x.runs ++ [(r, tickAt at_)], stopped := false }) s := by
  simp only [startComposeRun, h, hl]

/-! ### COMPOSE_STOP, COMPOSE_LAYER and DISPLAY_SET (R482, R484) -/

theorem startComposeStop_display {s : State} {k : Nat} (hk : k < 4) (h : isDisplay k s = true) (r : Ref) :
    startComposeStop r k s = finishIn (288 + k) r stState 0 0 s := by
  rw [startComposeStop, if_neg (Nat.not_le.2 hk), if_pos h]

/-- The scene when its waiting runs have ended and it is stopped. -/
theorem startComposeStop_stops {s : State} {k : Nat} (hk : k < 4) (hlen : k < s.scenes.length) (h : isDisplay k s = false) (r : Ref) :
    let u := setScene k (fun x => { x with stopped := true, runs := [] })
      ((sceneOf s k).runs.foldl (fun u p => finishIn (288 + k) p.1 stAbHost 0 0 u) s)
    startComposeStop r k s = if (sceneOf s k).run.isSome then setScene k (fun x => { x with stops := x.stops ++ [r] }) u
      else finishIn (288 + k) r stDone 0 0 u := by
  have hs := foldl_finishIn_scenes (288 + k) stAbHost 0 0 Prod.fst (sceneOf s k).runs s
  have hrun : (sceneOf (setScene k (fun x => { x with stopped := true, runs := [] })
      ((sceneOf s k).runs.foldl (fun u p => finishIn (288 + k) p.1 stAbHost 0 0 u) s)) k).run = (sceneOf s k).run := by
    rw [sceneOf_setScene_same (by rw [hs]; exact hlen), sceneOf_congr hs]
  simp only [startComposeStop, if_neg (Nat.not_le.2 hk), h, Bool.false_eq_true, if_false, hrun]

section

variable {s : State} {k l v : Nat} (hk : k < 4) (hl : l < 8) (hv : v < 2)
include hk hl hv

theorem startComposeLayer_unloaded (h : (sceneOf s k).rec_ = none) (r : Ref) (al : Nat) (x z : Int) (a : Nat) :
    startComposeLayer r k l v al x z a s = finishIn (288 + k) r stState 0 0 s := by
  have hc : composeLayerCheck k l v a s = stState := by
    simp [composeLayerCheck, Nat.not_le.2 hk, Nat.not_le.2 hl, Nat.not_le.2 hv, h]
  rw [startComposeLayer, hc, Nat.mod_eq_of_lt hk]
  rfl

theorem startComposeLayer_lacks {y : SceneRec} (h : (sceneOf s k).rec_ = some y) (hy : y.layers.length ≤ l) (r : Ref) (al : Nat)
    (x z : Int) (a : Nat) : startComposeLayer r k l v al x z a s = finishIn (288 + k) r stParam 0 0 s := by
  have hc : composeLayerCheck k l v a s = stParam := by
    simp [composeLayerCheck, Nat.not_le.2 hk, Nat.not_le.2 hl, Nat.not_le.2 hv, h, List.getElem?_eq_none hy]
  rw [startComposeLayer, hc, Nat.mod_eq_of_lt hk]
  rfl

theorem startComposeLayer_waits {y : SceneRec} {q : CompLayer} (h : (sceneOf s k).rec_ = some y) (hq : y.layers[l]? = some q) {a : Nat}
    (hm : q.source = 1 → hostMem (surfaceSpan { q with addr := if a = 0 then q.addr else a }).1
      (surfaceSpan { q with addr := if a = 0 then q.addr else a }).2 s = true) (r : Ref) (al : Nat) (x z : Int) :
    startComposeLayer r k l v al x z a s = applyComposeLayer (some r) k l v al x z a s := by
  have hc : composeLayerCheck k l v a s = stDone := by
    by_cases h1 : q.source = 1
    · simp [composeLayerCheck, Nat.not_le.2 hk, Nat.not_le.2 hl, Nat.not_le.2 hv, h, hq, hm h1]
    · simp [composeLayerCheck, Nat.not_le.2 hk, Nat.not_le.2 hl, Nat.not_le.2 hv, h, hq, h1]
  rw [startComposeLayer, hc]
  rfl

end

theorem startDisplaySet_check {s : State} {k : Nat} (h : displaySetCheck k s ≠ stDone) (r : Ref) :
    startDisplaySet r k s = endWith r (displaySetCheck k s) s := by
  rw [startDisplaySet, if_pos (bne_iff_ne.2 h)]

theorem startDisplaySet_none (r : Ref) (s : State) :
    startDisplaySet r 0xFF s = setEdp (fun e => { e with bind := some none, bindRefs := e.bindRefs ++ [r] }) s := rfl

theorem startDisplaySet_fits {s : State} {k : Nat} {y : SceneRec} (hk : k < 4) (h : (sceneOf s k).rec_ = some y)
    (hw : y.outW = cfgF s 0x820004 0 13) (hh : y.outH = cfgF s 0x820008 0 13) (hp : y.periodic = true) (hc : 3 ≤ y.count) (r : Ref) :
    startDisplaySet r k s = setEdp (fun e => { e with bind := some (some k), bindRefs := e.bindRefs ++ [r] }) s := by
  have hne : k ≠ 0xFF := by omega
  have hd : displaySetCheck k s = stDone := by simp [displaySetCheck, hne, h, hw, hh, hp, hc]
  rw [startDisplaySet, hd, applyDisplaySet, if_neg hne]
  rfl

/-! ### COMPOSE_START (R476) -/

section

variable {s : State} {k : Nat} {y : SceneRec} (hy : (sceneOf s k).rec_ = some y)
include hy

theorem composeTick_run (hp : y.periodic = false) {x : Ref} {at_ : Nat} {rest : List (Ref × Nat)} (hr : (sceneOf s k).runs = (x, at_) :: rest)
    (h : (sceneOf s k).run = none) (ht : at_ ≤ s.now) :
    composeTick k s = composeBegin k (some x) (setScene k (fun x => { x with runs := rest }) s) := by
  simp [composeTick, hy, hp, runDue, hr, h, Nat.not_lt.2 ht]

theorem composeTick_noRun (hp : y.periodic = false) (h : (sceneOf s k).runs = [] ∨ (sceneOf s k).run ≠ none) : composeTick k s = s := by
  have hd : runDue k s = s := by
    rw [runDue]
    cases hr : (sceneOf s k).runs with
    | nil => rfl
    | cons p rest => simp [Option.isSome_iff_ne_none.2 (h.resolve_left (by simp [hr]))]
  simp [composeTick, hy, hp, hd]

variable (hp : y.periodic = true)
include hp

theorem composeTick_between (ht : s.now % (1000 * y.periodUs) ≠ 0) : composeTick k s = s := by
  simp [composeTick, hy, hp, ht]

variable (hu : y.periodUs ≠ 0)
include hu

theorem composeTick_late (ht : s.now % (1000 * y.periodUs) = 0) (hs : (sceneOf s k).stopped = false) (hr : (sceneOf s k).run ≠ none) :
    composeTick k s = if (sceneOf s k).lateEpisode then setScene k (fun x => { x with late := satInc x.late, lateEpisode := true }) s
      else raise 0x7024 (natLE 1 k ++ natLE 4 (costOf y)) (setScene k (fun x => { x with late := satInc x.late, lateEpisode := true }) s) := by
  cases hl : (sceneOf s k).lateEpisode <;> simp [composeTick, composeStart, hy, hp, hu, ht, hs, hl, Option.isSome_iff_ne_none.2 hr]

theorem composeTick_begins (ht : s.now % (1000 * y.periodUs) = 0) (hs : (sceneOf s k).stopped = false) (hr : (sceneOf s k).run = none) :
    composeTick k s = composeBegin k none s := by
  simp [composeTick, composeStart, hy, hp, hu, ht, hs, hr]

end

/-! ### COMPOSE_DONE (R477) -/

theorem composeDone_none {s : State} {k : Nat} (h : (sceneOf s k).run = none) : composeDone k s = s := by simp only [composeDone, h]

theorem composeDone_early {s : State} {k : Nat} {u : CompRun} (h : (sceneOf s k).run = some u) (ht : s.now < u.due) : composeDone k s = s := by
  simp only [composeDone, h, if_pos ht]

/-- The output with its rows written: their pixels come from the state before the first write. -/
def rowsWritten (u : CompRun) (s : State) : State :=
  (List.range u.scene.outH).foldl (fun v y => memWrite 37 (u.scene.bufAddr u.buf + 0x1000 + y * u.scene.stride)
    (((List.range u.scene.outH).map fun y => outputRow u (drawn u s) y s).getD y []) v) s

/-- The output with its rows, its header and TAIL_FRAME written. -/
def surfaceWritten (k : Nat) (u : CompRun) (torn : Nat) (s : State) : State :=
  memWrite 37 (u.scene.bufAddr u.buf + 60) (natLE 4 u.head)
    (memWrite 37 (u.scene.bufAddr u.buf + 4) (surfaceHeader k u torn (rowsWritten u s)) (rowsWritten u s))

theorem rowsWritten_time (u : CompRun) (s : State) : (rowsWritten u s).time = s.time :=
  foldl_keeps _ State.time (fun _ _ => memWrite_time ..) _ s

/-- The header takes the time from the state and nothing else. -/
theorem surfaceHeader_congr {s v : State} (h : v.time = s.time) (k : Nat) (u : CompRun) (torn : Nat) :
    surfaceHeader k u torn v = surfaceHeader k u torn s := by
  have hn : v.now = s.now := by rw [State.now, State.now, h]
  rw [surfaceHeader, surfaceHeader, hn]

theorem surfaceWritten_scenes (k : Nat) (u : CompRun) (torn : Nat) (s : State) : (surfaceWritten k u torn s).scenes = s.scenes := by
  rw [surfaceWritten, memWrite_scenes, memWrite_scenes]
  exact foldl_keeps _ State.scenes (fun _ _ => memWrite_scenes ..) _ s

/-- A composition's end in a scene. -/
def doneScene (u : CompRun) (torn : Nat) (x : Scene) : Scene :=
  { x with
    run := none, heads := x.heads.set u.buf u.head, lastFrame := BitVec.ofNat 32 u.head
    torn := if torn = 0 then x.torn else satInc x.torn, tornEpisode := torn != 0 }

section

variable {s : State} {k : Nat} {u : CompRun} (h : (sceneOf s k).run = some u) (ht : u.due ≤ s.now) (hp : sourcesPoison u s = none)
include h ht hp

theorem composeDone_writes :
    let torn := tornMask u s
    let v := surfaceWritten k u torn s
    let w := setScene k (doneScene u torn) v
    let x := if torn != 0 && !(sceneOf v k).tornEpisode then raise 0x7025 (natLE 1 k ++ natLE 1 torn) w else w
    composeDone k s = runDue k (afterRun k (match u.ref with | some r => finishIn (288 + k) r stDone 0 u.head x | none => x)) := by
  simp only [composeDone, h, if_neg (Nat.not_lt.2 ht), hp] <;> rfl

theorem composeDone_ends :
    let torn := tornMask u s
    let w := setScene k (doneScene u torn) (surfaceWritten k u torn s)
    let x := if torn ≠ 0 ∧ (sceneOf s k).tornEpisode = false then raise 0x7025 (natLE 1 k ++ natLE 1 torn) w else w
    composeDone k s = runDue k (afterRun k (match u.ref with | some r => finishIn (288 + k) r stDone 0 u.head x | none => x)) := by
  have hw := composeDone_writes h ht hp
  dsimp only at hw ⊢
  rw [sceneOf_congr (surfaceWritten_scenes k u (tornMask u s) s)] at hw
  simpa only [Bool.and_eq_true, bne_iff_ne, Bool.not_eq_true'] using hw

/-- A composition that nothing waits for and that nobody waits on, with no torn layer. -/
theorem composeDone_quiet (hk : k < s.scenes.length) (href : u.ref = none) (htorn : tornMask u s = 0) (hstops : (sceneOf s k).stops = [])
    (hloads : (sceneOf s k).loads = []) (hruns : (sceneOf s k).runs = []) :
    composeDone k s = setScene k (fun x => { x with
      run := none, heads := x.heads.set u.buf u.head, lastFrame := BitVec.ofNat 32 u.head, tornEpisode := false })
      (memWrite 37 (u.scene.bufAddr u.buf + 60) (natLE 4 u.head)
        (memWrite 37 (u.scene.bufAddr u.buf + 4) (surfaceHeader k u 0 s) (rowsWritten u s))) := by
  have hlen : k < (surfaceWritten k u 0 s).scenes.length := by rw [surfaceWritten_scenes]; exact hk
  have hsc := sceneOf_congr (surfaceWritten_scenes k u 0 s) k
  have hafter : afterRun k (setScene k (doneScene u 0) (surfaceWritten k u 0 s)) = setScene k (doneScene u 0) (surfaceWritten k u 0 s) := by
    simp only [afterRun, sceneOf_setScene_same hlen, hsc, doneScene, hstops, hloads, List.foldl_nil]
    refine setScene_self ?_
    rw [sceneOf_setScene_same hlen, hsc]
    exact scene_noWaits (x := doneScene u 0 (sceneOf s k)) hstops hloads
  have hrun : runDue k (setScene k (doneScene u 0) (surfaceWritten k u 0 s)) = setScene k (doneScene u 0) (surfaceWritten k u 0 s) := by
    simp only [runDue, sceneOf_setScene_same hlen, hsc, doneScene, hruns]
  have hd := composeDone_ends h ht hp
  simp only [htorn, href, ne_eq, not_true_eq_false, false_and, if_false] at hd
  rw [hd, hafter, hrun, surfaceWritten, surfaceHeader_congr (rowsWritten_time u s)]
  rfl

end

/-! ### CACHE_REBUILD (R475) -/

section

variable {s : State} {k : Nat}

theorem cacheRebuild_not (h : (sceneOf s k).run ≠ none ∨ cacheDue k s = false) : cacheRebuild k s = s := by
  rw [cacheRebuild, if_pos]
  rcases h with h | h <;> simp [h, Option.isSome_iff_ne_none]

variable (h : (sceneOf s k).run = none) (hd : cacheDue k s = true)
include h hd

theorem cacheRebuild_builds {y : SceneRec} (hy : (sceneOf (takeChanges k true s).2 k).rec_ = some y) :
    cacheRebuild k s = setScene k (fun x => { x with
      cache := some (flatten y (takeChanges k true s).2), rebuild := false, cacheIndex := jobLayer (takeChanges k true s).2
      cacheBuilds := x.cacheBuilds + 1, cacheRefs := x.cacheRefs ++ (takeChanges k true s).1 }) (takeChanges k true s).2 := by
  simp only [cacheRebuild, h, hd, hy, Option.isSome_none, Bool.not_true, Bool.or_self, Bool.false_eq_true, if_false]

/-- With no change that waits, the cache is built from the record as it stands. -/
theorem cacheRebuild_plain {y : SceneRec} (hy : (sceneOf s k).rec_ = some y) (hc : (sceneOf s k).changes = []) :
    cacheRebuild k s = setScene k (fun x => { x with
      cache := some (flatten y s), rebuild := false, cacheIndex := jobLayer s, cacheBuilds := x.cacheBuilds + 1 }) s := by
  have htake : takeChanges k true s = ([], s) := by
    simp only [takeChanges, hy, hc, List.filter_nil, List.foldl_nil, List.filterMap_nil, Prod.mk.injEq, true_and]
    refine setScene_self ?_
    rw [hc]
    exact scene_noChanges hy hc
  have hb := cacheRebuild_builds h hd (y := y) (by rw [htake]; exact hy)
  simpa only [htake, List.append_nil] using hb

end

/-! ### The eDP output (R480, R481) -/

section

variable {s : State} (ml mr : Nat) (tr : List (Nat × Nat)) (b : Bool)

theorem edpHpd_pulse (h : s.edp.trained = true) : edpHpd 1 ml mr tr b s =
    if b then edpTrain ml mr tr (setEdp (fun e => { e with linkLoss := satInc e.linkLoss }) s) else s := by
  simp only [edpHpd, h, Bool.true_and]

theorem edpHpd_already (h : s.edp.hpd = true) : edpHpd 0 ml mr tr b s = s := if_pos h

theorem edpHpd_falls (h : s.edp.hpd = true) : edpHpd 2 ml mr tr b s = raise 0x7021 [] (setEdp (fun e => { e with
    hpd := false, trained := false, lanes := 0, rate := 0, linkLoss := satInc e.linkLoss }) s) := if_pos h

theorem edpHpd_trains (h : s.edp.hpd = false) {n r : Nat} (hf : (edpSettings s).find? (fun p => tr.contains p) = some (n, r)) :
    edpHpd 0 ml mr tr b s = raise 0x7020 (natLE 1 n ++ natLE 1 r) (setEdp (fun e => { e with
      hpd := true, trained := true, lanes := BitVec.ofNat 3 n, rate := BitVec.ofNat 2 r }) s) := by
  have hf' : (edpSettings (setEdp (fun e => { e with hpd := true }) s)).find? (fun p => tr.contains p) = some (n, r) := hf
  simp only [edpHpd, h, Bool.false_eq_true, if_false, edpTrain, hf'] <;> rfl

theorem edpHpd_fails (h : s.edp.hpd = false) (hf : (edpSettings s).find? (fun p => tr.contains p) = none) :
    edpHpd 0 ml mr tr b s = raise 0x7022 (natLE 1 ml ++ natLE 1 mr) (setEdp (fun e => { e with
      hpd := true, trained := false, lanes := 0, rate := 0, trainFail := satInc e.trainFail }) s) := by
  have hf' : (edpSettings (setEdp (fun e => { e with hpd := true }) s)).find? (fun p => tr.contains p) = none := hf
  simp only [edpHpd, h, Bool.false_eq_true, if_false, edpTrain, hf'] <;> rfl

end

theorem edpFrame_untrained {s : State} (h : s.edp.trained = false) : edpFrame s = s := by simp only [edpFrame, h, Bool.not_false, if_true]

section

variable {s : State} (h : s.edp.trained = true)
include h

theorem edpFrame_noScene (hn : (takeBinding (setEdp (fun e => { e with frames := e.frames + 1 }) s)).edp.scene = none) :
    edpFrame s = takeBinding (setEdp (fun e => { e with frames := e.frames + 1 }) s) := by
  simp only [edpFrame, h, Bool.not_true, Bool.false_eq_true, if_false, hn]

theorem edpFrame_scene {k : Nat} (hk : (takeBinding (setEdp (fun e => { e with frames := e.frames + 1 }) s)).edp.scene = some k) :
    let v := takeSurface k (takeBinding (setEdp (fun e => { e with frames := e.frames + 1 }) s))
    edpFrame s = if (sceneOf v k).rec_.any (fun r => r.periodUs = 0) then composeStart k v else v := by
  simp only [edpFrame, h, Bool.not_true, Bool.false_eq_true, if_false, hk]

theorem edpFrame_unbound (hb : s.edp.bind = none) (hs : s.edp.scene = none) :
    edpFrame s = setEdp (fun e => { e with frames := e.frames + 1 }) s := by
  have ht : takeBinding (setEdp (fun e => { e with frames := e.frames + 1 }) s) = setEdp (fun e => { e with frames := e.frames + 1 }) s := by
    rw [takeBinding]
    simp only [setEdp, hb]
  rw [edpFrame_noScene h (by rw [ht]; exact hs), ht]

end

/-- Settles O54: each clause is what its command or its event does. The states in which COMPOSE_SCENE, COMPOSE_STOP and COMPOSE_LAYER wait or are
refused are the model's choice (log 159), and so is the eDP frame only while the link is trained (log 160). -/
theorem scenesAndDisplay : Obligations.ScenesAndDisplay := by
  unfold Obligations.ScenesAndDisplay
  intro h t s hr hlen
  refine ⟨?_, ?_, ?_, ?_, ?_, ?_, ?_, ?_, ?_, ?_, ?_, ?_, ?_, ?_, ?_, ?_, ?_, ?_, ?_, ?_, ?_, ?_, ?_, ?_, ?_, ?_, ?_⟩
  · exact fun k a hk => post_next hr (startComposeScene_outside (s := accept h 0x78 s) hk _)
  · exact fun k a hk hm hp => ⟨fun ho => post_next hr (startComposeScene_bad (s := accept h 0x78 s) hk _ hm hp ho), fun ho hd =>
      ⟨fun hrun => post_next hr (startComposeScene_loads (s := accept h 0x78 s) hk _ hm hp ho hd hrun),
        fun hrun => post_next hr (startComposeScene_waits (s := accept h 0x78 s) hk _ hm hp ho hd hrun)⟩⟩
  · intro k r launch tor hk hrec hp h0 ht
    refine post_next hr ((startComposeRun_loaded (s := accept h 0x79 s) hrec ((if_neg h0).trans ht) _).trans ?_)
    rw [hp]
    rfl
  · exact fun k launch hk h0 ht => post_next hr (startComposeRun_noTor (s := accept h 0x79 s) hk _ h0 ht)
  · intro k hk hd
    have hstop := startComposeStop_stops (s := accept h 0x7A s) hk (by rw [accept_scenes, hlen]; exact hk) hd h.ref
    exact ⟨fun hrun => post_next hr (hstop.trans (if_neg (ne_true_of_eq_false (Option.isSome_eq_false_iff.2 (Option.isNone_iff_eq_none.2 hrun))))),
      fun hrun => post_next hr (hstop.trans (if_pos (Option.isSome_iff_ne_none.2 hrun)))⟩
  · exact fun k l v al a x z r q hk hl hv hrec hq hm =>
      post_next hr (startComposeLayer_waits (s := accept h 0x7B s) hk hl hv hrec hq hm _ al x z)
  · exact fun k r hk hrec hw hh hp hc => post_next hr (startDisplaySet_fits (s := accept h 0x7C s) hk hrec hw hh hp hc _)
  · exact fun k r _ hrec hp => ⟨fun x at_ rest hruns hrun ht =>
        congrArg Host.Outcome.next (composeTick_run (s := passTo t s) hrec hp hruns hrun ht),
      fun hn => congrArg Host.Outcome.next (composeTick_noRun (s := passTo t s) hrec hp hn)⟩
  · exact fun k u _ hu ht hp => congrArg Host.Outcome.next (composeDone_ends (s := passTo t s) hu ht hp)
  · exact fun k r hrun hd hrec => congrArg Host.Outcome.next (cacheRebuild_builds (s := passTo t s) hrun hd hrec)
  · exact fun ml mr tr => ⟨fun h => congrArg Host.Outcome.next (edpHpd_pulse (s := passTo t s) ml mr tr true h),
      fun h => congrArg Host.Outcome.next (edpHpd_pulse (s := passTo t s) ml mr tr false h),
      fun b h hf => congrArg Host.Outcome.next (edpHpd_fails (s := passTo t s) ml mr tr b h hf)⟩
  · intro htr
    refine ⟨fun hn => congrArg Host.Outcome.next (edpFrame_noScene (s := passTo t s) htr hn), fun k hk => ?_⟩
    have hf := edpFrame_scene (s := passTo t s) htr hk
    refine ⟨fun hp => congrArg Host.Outcome.next (hf.trans (if_neg ?_)), fun r hrec hp => congrArg Host.Outcome.next (hf.trans (if_pos ?_))⟩
    · rw [Option.any_eq_true]
      rintro ⟨r, hrec, hz⟩
      exact hp r hrec (of_decide_eq_true hz)
    · exact Option.any_eq_true _ _ |>.2 ⟨r, hrec, decide_eq_true hp⟩
  · exact fun k hk hrec => post_next hr (startComposeRun_unloaded (s := accept h 0x79 s) hk _ hrec)
  · intro k r hk hrec
    have hrun := startComposeRun_loaded (s := accept h 0x79 s) (launch := 0) hrec rfl h.ref
    exact ⟨fun hp => post_next hr (hrun.trans (if_pos hp)), fun hp => post_next hr (hrun.trans (if_neg (ne_true_of_eq_false hp)))⟩
  · intro k hk
    refine ⟨fun hd => post_next hr (startComposeStop_display (s := accept h 0x7A s) hk hd _), fun hd hruns hrun => post_next hr ?_⟩
    have hstop := startComposeStop_stops (s := accept h 0x7A s) hk (by rw [accept_scenes, hlen]; exact hk) hd h.ref
    have hruns' : (sceneOf (accept h 0x7A s) k).runs = [] := hruns
    have hrun' : (sceneOf (accept h 0x7A s) k).run = none := hrun
    rwa [hruns', hrun'] at hstop
  · exact fun k l v al a x z hk hl hv => ⟨fun hrec =>
        post_next hr (startComposeLayer_unloaded (s := accept h 0x7B s) hk hl hv hrec _ al x z a), fun r hrec =>
      ⟨fun hle => post_next hr (startComposeLayer_lacks (s := accept h 0x7B s) hk hl hv hrec hle _ al x z a), fun q hq hs _ =>
        post_next hr (startComposeLayer_waits (s := accept h 0x7B s) hk hl hv hrec hq (fun h1 => absurd (hs.symm.trans h1) (by decide)) _ al x z)⟩⟩
  · exact fun k hc => post_next hr (startDisplaySet_check (s := accept h 0x7C s) hc _)
  · exact post_next hr (startDisplaySet_none _ _)
  · intro k r _ hrec hp hu
    refine ⟨fun hm => congrArg Host.Outcome.next (composeTick_between (s := passTo t s) hrec hp hm), fun hm hs hrun => ?_,
      fun hm hs hrun => congrArg Host.Outcome.next (composeTick_begins (s := passTo t s) hrec hp hu hm hs hrun)⟩
    have hl := composeTick_late (s := passTo t s) hrec hp hu hm hs hrun
    exact ⟨fun he => congrArg Host.Outcome.next (hl.trans (if_pos he)),
      fun he => congrArg Host.Outcome.next (hl.trans (if_neg (ne_true_of_eq_false he)))⟩
  · exact fun k hrun => congrArg Host.Outcome.next (composeDone_none (s := passTo t s) hrun)
  · exact fun k u hrun ht => congrArg Host.Outcome.next (composeDone_early (s := passTo t s) hrun ht)
  · exact fun k u hk hu ht href hp htorn hstops hloads hruns => congrArg Host.Outcome.next
      (composeDone_quiet (s := passTo t s) hu ht hp (by rw [passTo_scenes, hlen]; exact hk) href htorn hstops hloads hruns)
  · intro k r hk hrun hd hrec hc
    have hb := cacheRebuild_plain (s := passTo t s) hrun hd hrec hc
    have hsc := sceneOf_setScene_same (s := passTo t s) (k := k) (by rw [passTo_scenes, hlen]; exact hk)
    refine ⟨_, congrArg Host.Outcome.next hb, ?_, ?_, ?_, ?_⟩ <;> rw [hsc] <;> rfl
  · exact fun k hn => congrArg Host.Outcome.next (cacheRebuild_not (s := passTo t s) hn)
  · exact fun ml mr tr b => ⟨fun h => ⟨congrArg Host.Outcome.next (edpHpd_already (s := passTo t s) ml mr tr b h),
        congrArg Host.Outcome.next (edpHpd_falls (s := passTo t s) ml mr tr b h)⟩,
      fun n r h hf => congrArg Host.Outcome.next (edpHpd_trains (s := passTo t s) ml mr tr b h hf)⟩
  · exact fun h => congrArg Host.Outcome.next (edpFrame_untrained (s := passTo t s) h)
  · exact fun h hb hs => congrArg Host.Outcome.next (edpFrame_unbound (s := passTo t s) h hb hs)

end Sys2Proof.Machine
end

section
/-! SUPPORT. Basin: copies, panic, refresh, self-refresh and the scrub (O55). -/

namespace Sys2Proof.Machine

/-! ### What a memory access leaves of Basin (R500, R504) -/

/-- `b'` differs from `b` as a memory access leaves it: in its bytes, its rows and its idle time, and poisoned words are gone at most. -/
def BasinPut (b b' : Basin) : Prop :=
  b' = { b with mem := b'.mem, state := b'.state, lastReq := b'.lastReq, openRows := b'.openRows, poisoned := b'.poisoned } ∧
    b'.poisoned.Sublist b.poisoned

theorem BasinPut.refl (b : Basin) : BasinPut b b := ⟨rfl, List.Sublist.refl _⟩

theorem BasinPut.trans {a b c : Basin} (h1 : BasinPut a b) (h2 : BasinPut b c) : BasinPut a c := by
  obtain ⟨e1, p1⟩ := h1
  obtain ⟨e2, p2⟩ := h2
  refine ⟨?_, p2.trans p1⟩
  rw [e2, e1]

theorem memPut_put (a : Nat) (bs : List Byte) (s : State) : BasinPut s.basin (memPut a bs s).basin :=
  ⟨rfl, List.filter_sublist⟩

theorem fireVector_basin (v : Nat) (s : State) : (fireVector v s).basin = s.basin := by
  unfold fireVector
  dsimp only
  split <;> split <;> rfl

theorem putEvent_put (v c : Nat) (d : List Byte) (s : State) : BasinPut s.basin (putEvent v c d s).basin := by
  unfold putEvent
  dsimp only
  split
  · exact memPut_put _ _ { s with
      events := { s.events with seq := s.events.seq + 1 }, recorder := { s.recorder with codes := c :: s.recorder.codes } }
  · exact BasinPut.refl _

theorem putOverflow_put (s : State) : BasinPut s.basin (putOverflow s).basin := by
  unfold putOverflow
  dsimp only
  split
  · exact BasinPut.refl _
  · rw [fireVector_basin]
    exact putEvent_put _ _ _ { s with events := { s.events with unreported := 0 } }

/-- An event's record in the event ring is what it leaves in Basin. -/
theorem raise_put (c : Nat) (d : List Byte) (s : State) : BasinPut s.basin (raise c d s).basin := by
  have h (v : Nat) : BasinPut s.basin (fireVector v (putEvent v c d (putOverflow s))).basin := by
    rw [fireVector_basin]
    exact (putOverflow_put s).trans (putEvent_put v c d _)
  unfold raise raiseOn
  dsimp only
  split
  · rw [fireVector_basin]
    exact h _
  · exact h _

theorem ite_raise_put (p : Prop) [Decidable p] (c : Nat) (d : List Byte) (s : State) :
    BasinPut s.basin (if p then raise c d s else s).basin := by
  split
  · exact raise_put c d s
  · exact BasinPut.refl _

theorem eccCe_poisoned (a : Nat) (s : State) : (eccCe s a).basin.poisoned.Sublist s.basin.poisoned := (ite_raise_put _ _ _ _).2

theorem eccUe_poisoned (port a : Nat) (s : State) : (eccUe port a s).basin.poisoned.Sublist s.basin.poisoned :=
  (ite_raise_put ..).2.trans (raise_put ..).2

theorem foldl_poisoned {α : Type} {f : State → α → State} (h : ∀ u a, (f u a).basin.poisoned.Sublist u.basin.poisoned) (l : List α) (s : State) :
    (l.foldl f s).basin.poisoned.Sublist s.basin.poisoned := by
  induction l generalizing s with
  | nil => exact List.Sublist.refl _
  | cons a l ih => exact (ih _).trans (h s a)

/-! ### Copies, fills and retention (R503, R508) -/

theorem copyOk_iff {c dst n : Nat} {s : State} : copyOk c dst n s = true ↔
    c < 8 ∧ dst % 4 = 0 ∧ n % 4 = 0 ∧ 4 ≤ n ∧ n ≤ 4294967292 ∧ hostMem dst n s = true := by
  simp [copyOk, and_assoc]

section

variable {s : State} {c src dst n : Nat} (hok : copyOk c dst n s = true) (hs : src % 4 = 0) (hm : hostMem src n s = true)
  (ho : dst + n ≤ src ∨ src + n ≤ dst) (r : Ref)
include hok hs hm ho

theorem startBasinCopy_allowed : startBasinCopy r c src dst n s = match poisonIn src n s with
    | none => finishIn (296 + c) r stDone 0 n (memWrite 38 dst (memRead src n s) s)
    | some a => finishIn (296 + c) r stEcc 0 (a - src) (eccUe 38 a (memWrite 38 dst (memRead src (a - src) s) s)) := by
  have hover : ¬ (src < dst + n ∧ dst < src + n) := by omega
  rw [startBasinCopy, if_neg (by simpa [hok, hs, hm] using hover)] <;> rfl

theorem startBasinCopy_whole (hp : poisonIn src n s = none) :
    startBasinCopy r c src dst n s = finishIn (296 + c) r stDone 0 n (memWrite 38 dst (memRead src n s) s) := by
  rw [startBasinCopy_allowed hok hs hm ho, hp]

theorem startBasinCopy_poisoned {a : Nat} (hp : poisonIn src n s = some a) : startBasinCopy r c src dst n s =
    finishIn (296 + c) r stEcc 0 (a - src) (eccUe 38 a (memWrite 38 dst (memRead src (a - src) s) s)) := by
  rw [startBasinCopy_allowed hok hs hm ho, hp]

end

theorem startBasinCopy_param {s : State} {c src dst n : Nat} (h : 8 ≤ c ∨ dst % 4 ≠ 0 ∨ src % 4 ≠ 0 ∨ n % 4 ≠ 0 ∨ n < 4 ∨
    hostMem dst n s = false ∨ hostMem src n s = false ∨ (src < dst + n ∧ dst < src + n)) (r : Ref) :
    startBasinCopy r c src dst n s = endWith r stParam s := by
  have hbad : copyOk c dst n s = false ∨ src % 4 ≠ 0 ∨ hostMem src n s = false ∨ (src < dst + n ∧ dst < src + n) := by
    rw [← Bool.not_eq_true, copyOk_iff]
    rcases h with h | h | h | h | h | h | h
    · exact .inl fun hok => by omega
    · exact .inl fun hok => h hok.2.1
    · exact .inr (.inl h)
    · exact .inl fun hok => h hok.2.2.1
    · exact .inl fun hok => by omega
    · exact .inl fun ⟨_, _, _, _, _, hm⟩ => by rw [h] at hm; cases hm
    · exact .inr (.inr h)
  refine if_pos ?_
  simpa [or_assoc] using hbad

theorem startBasinFill_fills {s : State} {c dst n : Nat} (hok : copyOk c dst n s = true) (r : Ref) (pat : Nat) :
    startBasinFill r c pat dst n s = finishIn (296 + c) r stDone 0 n
      (memWrite 38 dst ((List.replicate (n / 4) (natLE 4 pat)).flatten) s) := by
  simp only [startBasinFill, hok, Bool.not_true, Bool.false_eq_true, if_false]

theorem startBasinFill_param {s : State} {c dst n : Nat} (h : 8 ≤ c ∨ dst % 4 ≠ 0 ∨ n % 4 ≠ 0 ∨ n < 4 ∨ hostMem dst n s = false) (r : Ref)
    (pat : Nat) : startBasinFill r c pat dst n s = endWith r stParam s := by
  have hbad : copyOk c dst n s = false := by
    rw [← Bool.not_eq_true, copyOk_iff]
    rintro ⟨h1, h2, h3, h4, _, h6⟩
    rw [h6] at h
    simp only [Bool.true_eq_false, or_false] at h
    omega
  simp only [startBasinFill, hbad, Bool.not_false, if_true]

theorem startBasinRetain_eq (r : Ref) (m : BitVec 8) (s : State) : startBasinRetain r m s =
    if m.getLsbD 0 then endWith r stParam s else endWith r stDone { s with basin := { s.basin with retain := m } } := rfl

/-! ### Panic (R496, R499) -/

theorem rtPort_setRt_same {s : State} {p : Nat} (h : p < s.basin.rt.length) (f : RtPort → RtPort) :
    rtPort (setRt p f s) p = f (rtPort s p) := unit_modUnit_same h f _

theorem panicChange_same {s : State} {p : Nat} {e : Bool} (h : (rtPort s p).panic = e ∨ (p < 16 ∧ tarnPanic s p ≠ e)) :
    panicChange p e s = s := by
  refine if_pos ?_
  simpa using h

theorem panicChange_enters {s : State} {p : Nat} (h : (rtPort s p).panic = false) (ht : p < 16 → tarnPanic s p = true) :
    panicChange p true s = setRt p (fun r => { r with
      panic := true, panicCount := satInc r.panicCount, panicSince := s.now, longRaised := false })
      (if p < 16 then { s with tarns := modUnit s.tarns p fun x => { x with panicCount := satInc x.panicCount } } else s) := by
  have hcond : ¬ (((rtPort s p).panic = true) || (decide (p < 16) && tarnPanic s p != true)) = true := by simpa [h] using ht
  rw [panicChange, if_neg hcond, if_pos rfl]
  split <;> rfl

/-- The port after its panic. -/
def calmed (p : Nat) (s : State) : State :=
  setRt p (fun r => { r with panic := false, panicMaxUs := satU 16 (max r.panicMaxUs.toNat ((s.now - (rtPort s p).panicSince) / 1000) : Nat) })
    (recExtreme 25 ((s.now - (rtPort s p).panicSince) / 1000 : Nat) p s)

theorem panicChange_leaves {s : State} {p : Nat} (h : (rtPort s p).panic = true) (ht : 16 ≤ p ∨ tarnPanic s p = false) :
    panicChange p false s = if anyPanic (calmed p s) then calmed p s else issuePostponed (calmed p s) := by
  have hcond : ¬ (((rtPort s p).panic = false) || (decide (p < 16) && tarnPanic s p != false)) = true := by
    simpa [h, or_iff_not_imp_left] using ht
  rw [panicChange, if_neg hcond, if_neg Bool.false_ne_true]
  simp only [calmed, Nat.cast_max]

theorem calmed_rtPort {s : State} {p : Nat} (hp : p < s.basin.rt.length) : rtPort (calmed p s) p = { rtPort s p with
    panic := false, panicMaxUs := satU 16 (max (rtPort s p).panicMaxUs.toNat ((s.now - (rtPort s p).panicSince) / 1000) : Nat) } :=
  rtPort_setRt_same hp _

theorem calmed_anyPanic {s : State} {p : Nat} (h : ∀ q, q ≠ p → (rtPort s q).panic = false) (hp : p < s.basin.rt.length) :
    anyPanic (calmed p s) = false := by
  refine List.any_eq_false.2 fun x hx => ?_
  obtain ⟨q, hq, rfl⟩ := List.getElem_of_mem hx
  have hx : (calmed p s).basin.rt[q] = rtPort (calmed p s) q := (List.getElem_eq_getD _)
  rw [hx]
  by_cases hqp : q = p
  · rw [hqp, calmed_rtPort hp]
    exact Bool.false_ne_true
  · have ho : rtPort (calmed p s) q = rtPort s q := unit_modUnit_other hqp _ _
    rw [ho, h q hqp]
    exact Bool.false_ne_true

/-! ### Refresh (R497, R498) -/

theorem unit_set_same {α : Type} {xs : List α} {i : Nat} (h : i < xs.length) (a d : α) : unit (xs.set i a) i d = a := by
  simp [unit, h]

/-- A refresh stall keeps of Basin what it does not name. -/
theorem refreshStall_basin (c k : Nat) (s : State) :
    (refreshStall c k s).basin = { s.basin with openRows := (refreshStall c k s).basin.openRows } := by
  induction k generalizing s with
  | zero => rfl
  | succ k ih => exact (ih _).trans rfl

theorem refreshStall_stalls {c : Nat} (k : Nat) {s : State} (h : c < s.hk.stalls.length) :
    unit (refreshStall c (k + 1) s).hk.stalls c 0 = (unit s.hk.stalls c 0 + (k + 1)) % 512 := by
  induction k generalizing s with
  | zero => exact unit_set_same h _ _
  | succ k ih =>
    rw [refreshStall]
    refine (ih (by rw [List.length_set]; exact h)).trans ?_
    rw [unit_set_same h]
    omega

section

variable {s : State} {c : Nat} {hot : Bool}

theorem refreshDue_issued (h : anyPanic s = false) :
    let u := refreshStall c ((unit s.basin.postponed c 0).toNat + 1) { s with basin := { s.basin with hot := hot } }
    refreshDue c hot s = { u with basin := { u.basin with postponed := modUnit u.basin.postponed c fun _ => 0 } } :=
  if_neg (ne_true_of_eq_false h)

theorem refreshDue_counts (h : anyPanic s = false) (hs : c < s.hk.stalls.length) (hp : c < s.basin.postponed.length) :
    (refreshDue c hot s).basin.hot = hot ∧ unit (refreshDue c hot s).basin.postponed c 0 = 0 ∧
      unit (refreshDue c hot s).hk.stalls c 0 = (unit s.hk.stalls c 0 + (unit s.basin.postponed c 0).toNat + 1) % 512 := by
  rw [refreshDue_issued h]
  have hb := refreshStall_basin c ((unit s.basin.postponed c 0).toNat + 1) { s with basin := { s.basin with hot := hot } }
  refine ⟨?_, ?_, refreshStall_stalls _ hs⟩
  · rw [hb]
  · rw [hb]
    exact unit_modUnit_same hp _ _

variable (h : anyPanic s = true)
include h

theorem refreshDue_postponed (hp : (unit s.basin.postponed c 0).toNat < 8) : refreshDue c hot s =
    { s with basin := { s.basin with hot := hot, postponed := modUnit s.basin.postponed c fun n => n + 1 } } :=
  (if_pos h).trans (if_pos hp)

theorem refreshDue_forced (hp : 8 ≤ (unit s.basin.postponed c 0).toNat) :
    (refreshDue c hot s).basin.forcedRefresh = satInc s.basin.forcedRefresh ∧ (refreshDue c hot s).basin.postponed = s.basin.postponed := by
  have hb := refreshStall_basin c 1 { s with basin := { s.basin with hot := hot } }
  let u : State := refreshStall c 1 { s with basin := { s.basin with hot := hot } }
  let v : State := { u with basin := { u.basin with forcedRefresh := satInc u.basin.forcedRefresh, forcedEpisode := true } }
  have hdue : refreshDue c hot s = if !s.basin.forcedEpisode then raise 0x6004 (natLE 1 c) v else v :=
    (if_pos h).trans (if_neg (Nat.not_lt.2 hp))
  have hput : BasinPut v.basin (refreshDue c hot s).basin := by
    rw [hdue]
    exact ite_raise_put ..
  rw [hput.1]
  dsimp only [v, u]
  rw [hb]
  exact ⟨rfl, rfl⟩

end

theorem issuePostponed_rt (s : State) : (issuePostponed s).basin.rt = s.basin.rt := by
  unfold issuePostponed
  dsimp only
  exact foldl_keeps _ (fun u : State => u.basin.rt) (fun u c => by rw [refreshStall_basin]) _ s

theorem panicChange_calms {s : State} {p : Nat} (hp : p < s.basin.rt.length) (h : (rtPort s p).panic = true)
    (ht : 16 ≤ p ∨ tarnPanic s p = false) :
    (rtPort (panicChange p false s) p).panic = false ∧ (rtPort (panicChange p false s) p).panicMaxUs =
      satU 16 (max (rtPort s p).panicMaxUs.toNat ((s.now - (rtPort s p).panicSince) / 1000) : Nat) ∧
    ((∀ q, q ≠ p → (rtPort s q).panic = false) → (panicChange p false s).basin.postponed = List.replicate 4 0) := by
  have hrt : (panicChange p false s).basin.rt = (calmed p s).basin.rt := by
    rw [panicChange_leaves h ht]
    split
    · rfl
    · exact issuePostponed_rt _
  have hport : rtPort (panicChange p false s) p = rtPort (calmed p s) p := congrArg (unit · p _) hrt
  rw [hport, calmed_rtPort hp]
  refine ⟨rfl, by dsimp only, fun hq => ?_⟩
  rw [panicChange_leaves h ht, if_neg (ne_true_of_eq_false (calmed_anyPanic hq hp))]
  rfl

section

variable {s : State} {p : Nat}

theorem panicLong_not (h : (rtPort s p).panic = false ∨ (rtPort s p).longRaised = true ∨ s.now ≤ (rtPort s p).panicSince + 1000000) :
    panicLong p s = s := by
  refine if_neg ?_
  simpa [or_iff_not_imp_left] using h

theorem panicLong_reports (hp : p < s.basin.rt.length) (h : (rtPort s p).panic = true) (hl : (rtPort s p).longRaised = false)
    (ht : (rtPort s p).panicSince + 1000000 < s.now) :
    (rtPort (panicLong p s) p).longRaised = true ∧ (panicLong p s).basin.panicLong = satInc s.basin.panicLong := by
  let u : State := setRt p (fun r => { r with longRaised := true }) s
  let v : State := { u with basin := { u.basin with panicLong := satInc u.basin.panicLong } }
  have hlong : panicLong p s = raise 0x6006 (natLE 1 p ++ natLE 4 ((s.now - (rtPort s p).panicSince) / 1000)) v :=
    if_pos (by simpa [h, hl] using ht)
  have hput : BasinPut v.basin (panicLong p s).basin := hlong ▸ raise_put ..
  have hv : (rtPort v p).longRaised = true := congrArg RtPort.longRaised (rtPort_setRt_same hp fun r => { r with longRaised := true })
  constructor
  · rw [rtPort, hput.1]
    exact hv
  · rw [hput.1]
    rfl

end

/-! ### Self-refresh and the scrub (R500, R501, R506) -/

section

variable {s : State}

theorem selfRefreshEntry_not (h : s.basin.state ≠ 0 ∨ laneActive s = true ∨ anyPanic s = true ∨
    s.now < s.basin.lastReq + 1000 * s.basin.srIdle.toNat) (ab : Bool) : selfRefreshEntry ab s = s := by
  refine if_pos ?_
  simpa [or_assoc] using h

theorem selfRefreshEntry_idle (h0 : s.basin.state = 0) (hl : laneActive s = false) (hp : anyPanic s = false)
    (ht : s.basin.lastReq + 1000 * s.basin.srIdle.toNat ≤ s.now) (ab : Bool) : selfRefreshEntry ab s = if ab then
      { s with basin := { s.basin with srAbort := satInc s.basin.srAbort, lastReq := s.now } }
    else { s with basin := { s.basin with state := 1, srEntries := s.basin.srEntries + 1, openRows := List.replicate 64 none } } := by
  refine if_neg ?_
  simpa [h0, hl, hp] using ht

theorem scrubPass_off (h : s.basin.eccEn = false ∨ s.basin.scrubPeriod = 0 ∨ s.power.state ≠ .on) (ce ue : List Nat) :
    scrubPass ce ue s = s := by
  refine if_pos ?_
  simpa [or_assoc] using h

/-- The words that a scrub finds uncorrectable, those known before it among them. -/
def scrubBad (ue : List Nat) (s : State) : List Nat :=
  s.basin.poisoned ++ ((ue.map fun a => a / 8).filter fun w => decide (8 * w < usableEnd s) && !s.basin.poisoned.contains w).eraseDups

/-- Basin read through, with nothing reported yet. -/
def scrubRead (ue : List Nat) (s : State) : State :=
  { s with basin := { s.basin with
      state := 0, lastReq := s.now, poisoned := scrubBad ue s, scrubPasses := s.basin.scrubPasses + 1, openRows := List.replicate 64 none } }

/-- The correctable words of a scrub reported. -/
def scrubCe (ce ue : List Nat) (s : State) : State := (ce.filter fun a => decide (a < usableEnd s)).foldl eccCe (scrubRead ue s)

variable (he : s.basin.eccEn = true) (hp : s.basin.scrubPeriod ≠ 0) (hs : s.power.state = .on)
include he hp hs

theorem scrubPass_runs (ce ue : List Nat) :
    let bad := (scrubCe ce ue s).basin.poisoned
    let v := bad.foldl (fun w a => eccUe 39 (8 * a) w) (scrubCe ce ue s)
    scrubPass ce ue s = match bad.find? fun w => decide (8 * w < 0x20000000) with
      | some w => eccFatal (8 * w) v
      | none => v := by
  rw [scrubPass, if_neg (by simpa [he, hs] using hp)] <;> rfl

/-- A scrub with no uncorrectable word of the firmware's, whose words are all still uncorrectable after its reports, is those reports. -/
theorem scrubPass_reports {ce ue : List Nat} (hhost : ∀ w ∈ scrubBad ue s, 0x20000000 ≤ 8 * w)
    (hbad : ((scrubBad ue s).foldl (fun w a => eccUe 39 (8 * a) w) (scrubCe ce ue s)).basin.poisoned = scrubBad ue s) :
    scrubPass ce ue s = (scrubBad ue s).foldl (fun w a => eccUe 39 (8 * a) w) (scrubCe ce ue s) := by
  have hce : (scrubCe ce ue s).basin.poisoned.Sublist (scrubBad ue s) := foldl_poisoned (fun u a => eccCe_poisoned a u) _ (scrubRead ue s)
  have hue : (scrubBad ue s).Sublist (scrubCe ce ue s).basin.poisoned := by
    have hshrinks := foldl_poisoned (fun u a => eccUe_poisoned 39 (8 * a) u) (scrubBad ue s) (scrubCe ce ue s)
    rwa [hbad] at hshrinks
  have heq : (scrubCe ce ue s).basin.poisoned = scrubBad ue s := hce.antisymm hue
  have hfind : (scrubBad ue s).find? (fun w => decide (8 * w < 0x20000000)) = none := by
    refine List.find?_eq_none.2 fun w hw => ?_
    rw [decide_eq_true_eq]
    exact Nat.not_lt.2 (hhost w hw)
  rw [scrubPass_runs he hp hs]
  simp only [heq, hfind]

end

/-- Settles O55: each clause is what its command or its event does. That a scrub and self-refresh close every row is the model's choice (log 105),
and so is the port 39 of the scrub's reports (log 142). -/
theorem basinCommands : Obligations.BasinCommands := by
  unfold Obligations.BasinCommands
  intro h t s hr
  refine ⟨?_, ?_, ?_, ?_, ?_, ?_, ?_, ?_, ?_, ?_, ?_, ?_, ?_, ?_, ?_, ?_, ?_, ?_, ?_, ?_, ?_⟩
  · intro c src dst n hc hd hs hn h4 hmax hm hms ho
    have hok : copyOk c dst n (accept h 0x80 s) = true := copyOk_iff.2 ⟨hc, hd, hn, h4, hmax, hm⟩
    exact ⟨fun hp => post_next hr (startBasinCopy_whole (s := accept h 0x80 s) hok hs hms ho _ hp),
      fun a hp => post_next hr (startBasinCopy_poisoned (s := accept h 0x80 s) hok hs hms ho _ hp)⟩
  · exact fun c src dst n hbad => post_next hr (startBasinCopy_param (s := accept h 0x80 s) hbad _)
  · intro c pat dst n hc hd hn h4 hmax hm
    exact post_next hr (startBasinFill_fills (s := accept h 0x81 s) (copyOk_iff.2 ⟨hc, hd, hn, h4, hmax, hm⟩) _ pat)
  · exact fun c pat dst n hbad => post_next hr (startBasinFill_param (s := accept h 0x81 s) hbad _ pat)
  · exact fun m => ⟨fun hm => post_next hr ((startBasinRetain_eq _ _ _).trans (if_neg (ne_true_of_eq_false hm))),
      fun hm => post_next hr ((startBasinRetain_eq _ _ _).trans (if_pos hm))⟩
  · exact fun p e he => congrArg Host.Outcome.next (panicChange_same (s := passTo t s) (.inl he))
  · intro p hp hpanic
    have hlt := Nat.not_lt.2 hp
    exact congrArg Host.Outcome.next ((panicChange_enters (s := passTo t s) hpanic fun h => absurd h hlt).trans (by rw [if_neg hlt] <;> rfl))
  · intro p hp hpanic ht
    exact congrArg Host.Outcome.next ((panicChange_enters (s := passTo t s) hpanic fun _ => ht).trans (by rw [if_pos hp] <;> rfl))
  · exact fun p e hp he => congrArg Host.Outcome.next (panicChange_same (s := passTo t s) (.inr ⟨hp, he⟩))
  · exact fun p hlen hp ht hpanic => ⟨_, rfl, panicChange_calms (s := passTo t s) (hlen.symm ▸ hp) hpanic ht⟩
  · exact fun c hot hn hs hp => ⟨_, rfl, refreshDue_counts (s := passTo t s) hn hs hp⟩
  · exact fun c hot hy hp => congrArg Host.Outcome.next (refreshDue_postponed (s := passTo t s) hy hp)
  · exact fun c hot hy hp => ⟨_, rfl, refreshDue_forced (s := passTo t s) hy hp⟩
  · exact fun p hn => congrArg Host.Outcome.next (panicLong_not (s := passTo t s) hn)
  · exact fun p hlen hp hpanic hl ht => ⟨_, rfl, panicLong_reports (s := passTo t s) (hlen.symm ▸ hp) hpanic hl ht⟩
  · exact fun ab hn => congrArg Host.Outcome.next (selfRefreshEntry_not (s := passTo t s) hn ab)
  · intro h0 hl hp ht
    have hs := selfRefreshEntry_idle (s := passTo t s) h0 hl hp ht
    exact ⟨congrArg Host.Outcome.next (hs false), congrArg Host.Outcome.next (hs true)⟩
  · exact fun ce ue hn => congrArg Host.Outcome.next (scrubPass_off (s := passTo t s) hn ce ue)
  · intro he hp hs hb
    have hnone : scrubBad [] (passTo t s) = [] := by rw [scrubBad, passTo_basin, hb] <;> rfl
    have hread : scrubPass [] [] (passTo t s) = scrubRead [] (passTo t s) := by
      refine (scrubPass_reports (s := passTo t s) he hp hs ?_ ?_).trans ?_ <;> rw [hnone]
      · exact fun w hw => absurd hw List.not_mem_nil
      · exact hnone
      · rfl
    refine congrArg Host.Outcome.next (hread.trans ?_)
    rw [scrubRead, hnone, ← hb]
    rfl
  · exact fun ce ue he hp hs => ⟨_, rfl, fun hhost hbad =>
      congrArg Host.Outcome.next (scrubPass_reports (s := passTo t s) he hp hs (ce := ce) (ue := ue) hhost hbad)⟩
  · exact fun c hot hn => congrArg Host.Outcome.next (refreshDue_issued (s := passTo t s) hn)

end Sys2Proof.Machine
end

section
/-! SUPPORT. Calibration commands and housekeeping (O56). -/

namespace Sys2Proof.Machine

/-! ### CAL_REQUEST (R531) -/

/-- What a CAL_REQUEST does for one unit that it names. -/
def calAsk (kind u : Nat) (s : State) : State :=
  if kind = 0 then askGrid u s
  else if kind = 5 then s
  else if kind = 6 then (if calRunning s 6 0 then s else beginRun 6 0 s)
  else calWait kind u s

theorem startCalRequest_kind {k : Nat} (h : 6 < k) (r : Ref) (im : Bool) (m : BitVec 128) (s : State) :
    startCalRequest r k im m s = endWith r stParam s := by
  simp [startCalRequest, h]

theorem startCalRequest_absent {s : State} {k : Nat} {m : BitVec 128} (h : (calUnits s k m.toNat).2 = true) (r : Ref) (im : Bool) :
    startCalRequest r k im m s = endWith r stParam s := by
  simp [startCalRequest, h]

section

variable {s : State} {k : Nat} {m : BitVec 128} (hk : k ≤ 6) (ha : (calUnits s k m.toNat).2 = false)
  (hp : k = 1 → ∀ l ∈ (calUnits s k m.toNat).1, powerReady s l = true) (r : Ref)
include hk ha hp

theorem calRequest_passes : ¬ ((decide (6 < k) || (calUnits s k m.toNat).2 ||
    decide (k = 1) && (calUnits s k m.toNat).1.any fun l => !powerReady s l) = true) := by
  simpa [ha, hk, Nat.not_lt.2 hk] using hp

theorem startCalRequest_busy (hi : calIdle s k (calUnits s k m.toNat).1 = false) :
    startCalRequest r k true m s = endWith r stBusy s := by
  have hbusy : (true && !calIdle s k (calUnits s k m.toNat).1) = true := by rw [hi]; rfl
  exact (if_neg (calRequest_passes hk ha hp)).trans (if_pos hbusy)

variable {im : Bool} (hi : im = true → calIdle s k (calUnits s k m.toNat).1 = true)
include hi

theorem startCalRequest_asks :
    let us := (calUnits s k m.toNat).1
    let v := us.foldl (fun s u => calAsk k u s) s
    let left := if k = 0 then us.filter fun l => calRunning v 0 l else us
    startCalRequest r k im m s = if left.isEmpty then endWith r stDone v
      else if runsNow s k us then calPump (setHk (fun h => { h with groups := h.groups ++
        [{ ref := r, kind := k, left := left, worst := bestQuality k, bad := false }] }) v)
      else calPump (endWith r stDeferred v) := by
  have hidle : ¬ ((im && !calIdle s k (calUnits s k m.toNat).1) = true) := by simpa using hi
  exact (if_neg (calRequest_passes hk ha hp)).trans (if_neg hidle)

end

/-- A self-check runs at once, for its one unit. -/
theorem startCalRequest_check (r : Ref) (im : Bool) (m : BitVec 128) (s : State) :
    startCalRequest r 6 im m s = calPump (setHk (fun h => { h with
      groups := h.groups ++ [{ ref := r, kind := 6, left := [0], worst := bestQuality 6, bad := false }] })
      (if calRunning s 6 0 then s else beginRun 6 0 s)) := by
  have hunits : calUnits s 6 m.toNat = ([0], false) := rfl
  have hidle : calIdle s 6 [0] = true := rfl
  have hnow : runsNow s 6 [0] = true := rfl
  simp [startCalRequest, hunits, hidle, hnow]

/-- DQS tracking waits for the run that comes anyway. -/
theorem startCalRequest_dqs {s : State} {m : BitVec 128} (ha : (calUnits s 5 m.toNat).2 = false) (hne : (calUnits s 5 m.toNat).1 ≠ [])
    (r : Ref) (im : Bool) : startCalRequest r 5 im m s = calPump (setHk (fun h => { h with
      groups := h.groups ++ [{ ref := r, kind := 5, left := (calUnits s 5 m.toNat).1, worst := bestQuality 5, bad := false }] }) s) := by
  have hidle (us : List Nat) : calIdle s 5 us = true := rfl
  have hnow (us : List Nat) : runsNow s 5 us = true := rfl
  have hfold (us : List Nat) : us.foldl (fun (s : State) (_ : Nat) => s) s = s := foldl_stays fun _ _ => rfl
  simp [startCalRequest, ha, hne, hidle, hnow, hfold]

section

variable {s : State} {k : Nat} {m : BitVec 128} (h1 : 1 ≤ k) (h4 : k ≤ 4) (ha : (calUnits s k m.toNat).2 = false)
  (hp : k = 1 → ∀ l ∈ (calUnits s k m.toNat).1, powerReady s l = true) {im : Bool}
  (hi : im = true → calIdle s k (calUnits s k m.toNat).1 = true) (r : Ref)
include h1 h4 ha hp hi

theorem startCalRequest_gaps :
    let us := (calUnits s k m.toNat).1
    let v := us.foldl (fun u x => calWait k x u) s
    startCalRequest r k im m s = if us.isEmpty then endWith r stDone v
      else if runsNow s k us then calPump (setHk (fun h => { h with groups := h.groups ++
        [{ ref := r, kind := k, left := us, worst := bestQuality k, bad := false }] }) v)
      else calPump (endWith r stDeferred v) := by
  have hk0 : k ≠ 0 := by omega
  have hask : calAsk k = calWait k := by
    funext u v
    simp only [calAsk, hk0, show k ≠ 5 by omega, show k ≠ 6 by omega, if_false]
  have hreq := startCalRequest_asks (by omega) ha hp r hi
  simpa only [hask, hk0, if_false] using hreq

theorem startCalRequest_none (he : (calUnits s k m.toNat).1 = []) :
    startCalRequest r k im m s = endWith r stDone ((calUnits s k m.toNat).1.foldl (fun u x => calWait k x u) s) :=
  (startCalRequest_gaps h1 h4 ha hp hi r).trans (if_pos (List.isEmpty_iff.2 he))

variable (hne : (calUnits s k m.toNat).1 ≠ [])
include hne

theorem startCalRequest_now (hn : runsNow s k (calUnits s k m.toNat).1 = true) :
    startCalRequest r k im m s = calPump (setHk (fun h => { h with groups := h.groups ++
      [{ ref := r, kind := k, left := (calUnits s k m.toNat).1, worst := bestQuality k, bad := false }] })
      ((calUnits s k m.toNat).1.foldl (fun u x => calWait k x u) s)) :=
  (startCalRequest_gaps h1 h4 ha hp hi r).trans ((if_neg (mt List.isEmpty_iff.1 hne)).trans (if_pos hn))

theorem startCalRequest_deferred (hn : runsNow s k (calUnits s k m.toNat).1 = false) :
    startCalRequest r k im m s = calPump (endWith r stDeferred ((calUnits s k m.toNat).1.foldl (fun u x => calWait k x u) s)) :=
  (startCalRequest_gaps h1 h4 ha hp hi r).trans ((if_neg (mt List.isEmpty_iff.1 hne)).trans (if_neg (ne_true_of_eq_false hn)))

end

/-- GRID is asked for at once; the lanes whose run has started are waited for. -/
theorem startCalRequest_grid {s : State} {m : BitVec 128} (ha : (calUnits s 0 m.toNat).2 = false) {im : Bool}
    (hi : im = true → calIdle s 0 (calUnits s 0 m.toNat).1 = true) (r : Ref) :
    let v := (calUnits s 0 m.toNat).1.foldl (fun u l => askGrid l u) s
    let us := (calUnits s 0 m.toNat).1.filter fun l => calRunning v 0 l
    startCalRequest r 0 im m s = if us.isEmpty then endWith r stDone v
      else calPump (setHk (fun h => { h with groups := h.groups ++
        [{ ref := r, kind := 0, left := us, worst := bestQuality 0, bad := false }] }) v) := by
  have hreq := startCalRequest_asks (k := 0) (by decide) ha (fun h1 => absurd h1 (by decide)) r hi
  have hnow (us : List Nat) : runsNow s 0 us = true := rfl
  have hask : calAsk 0 = askGrid := by
    funext u v
    exact if_pos rfl
  simpa only [hask, hnow, if_true] using hreq

/-! ### CAL_CANCEL and HK_THROTTLE_FLOOR (R514, R534) -/

theorem startCalCancel_param {s : State} {k : Nat} {m : BitVec 128} (h : 6 < k ∨ calFused s k m.toNat = true) (r : Ref) :
    startCalCancel r k m s = endWith r stParam s := by
  rw [startCalCancel, if_pos]
  simpa using h

section

variable {s : State} {k : Nat} {m : BitVec 128} (hk : k ≤ 6) (hf : calFused s k m.toNat = false) (r : Ref)
include hk hf

theorem startCalCancel_withdraws :
    let us := (calUnits s k m.toNat).1.filter fun u => calWaiting s k u && !calCommitted s k u
    let v := us.foldl (fun x u => dropWait k u x) s
    let hit := fun g : CalGroup => g.kind = k && g.left.any fun u => us.contains u
    startCalCancel r k m s = endWith r stDone ((v.hk.groups.filter hit).foldl (fun x g => endWith g.ref stAbHost x)
      (setHk (fun x => { x with groups := x.groups.filter fun g => !hit g }) v)) := by
  rw [startCalCancel, if_neg (by simp [hf, Nat.not_lt.2 hk])]

theorem startCalCancel_idle (hw : s.hk.waits = []) : startCalCancel r k m s = endWith r stDone s := by
  have hnone : (calUnits s k m.toNat).1.filter (fun u => calWaiting s k u && !calCommitted s k u) = [] := by
    simp [calWaiting, hw]
  have h := startCalCancel_withdraws hk hf r
  have hhit (l : List Nat) : l.any (fun u => List.contains [] u) = false := List.any_eq_false.2 fun _ _ => by simp
  simp only [hnone, List.foldl_nil, hhit, Bool.and_false, List.filter_false, Bool.not_false, List.filter_true] at h
  exact h

end

/-- One SPL port that waits alone waits no longer. -/
theorem startCalCancel_port {s : State} {u : Nat} {w : CalWait} (hu : u < 32) (hport : u < s.variant.ports) (hw : s.hk.waits = [w])
    (hkind : w.kind = 3) (hunit : w.unit = u) (hc : calCommitted s 3 u = false) (hg : s.hk.groups = []) (r : Ref) :
    startCalCancel r 3 (BitVec.ofNat 128 (2 ^ u)) s = endWith r stDone (setHk (fun x => { x with waits := [] }) s) := by
  have hmask : (BitVec.ofNat 128 (2 ^ u)).toNat = 2 ^ u := by
    rw [BitVec.toNat_ofNat, Nat.mod_eq_of_lt (Nat.pow_lt_pow_right (by decide) (by omega))]
  have hf : calFused s 3 (2 ^ u) = false := by simp [calFused, bitsOf_two_pow (show u < 128 by omega), hport]
  have hus : (calUnits s 3 (2 ^ u)).1 = [u] := bitsOf_two_pow hu
  have h := startCalCancel_withdraws (s := s) (m := BitVec.ofNat 128 (2 ^ u)) (show 3 ≤ 6 by decide) (by rw [hmask]; exact hf) r
  simp only [hmask, hus] at h
  simpa [calWaiting, hw, hkind, hunit, hc, dropWait, setHk, hg] using h

theorem startHkThrottleFloor_eq (r : Ref) (l : Nat) (s : State) : startHkThrottleFloor r l s = if 2 < l then endWith r stParam s
    else endWith r stDone (keepFloor (setHk (fun h => { h with hostFloor := BitVec.ofNat 2 l }) s)) := rfl

/-! ### The end of a run (R529, R531) -/

theorem endRun_nothing (k : Nat) (s : State) : endRun k [] s = s := rfl

/-- A self-check that has found no sensor bad changes nothing while the level is at the floor at least. -/
theorem rosCheck_nothing {s : State} (h : hkFloor s ≤ s.hk.level.toNat) : rosCheck [] s = s := by
  have hfold : (List.range 24).foldl (fun (s : State) (_ : Nat) => s) s = s := foldl_stays fun _ _ => rfl
  have hcond : (decide ((validRos s).length < 12) && decide (12 ≤ (validRos s).length)) = false := by simp
  simp only [rosCheck, List.getElem?_nil, hfold, hcond, Bool.false_eq_true, if_false, keepFloor, if_neg (Nat.not_lt.2 h)]

theorem calRunDone_kind {k : Nat} (h : 6 < k) (rs : List (Nat × Nat × Nat)) (ps : List (Int × Int)) (s : State) :
    calRunDone k rs ps s = s := if_pos h

theorem calRunDone_ends {k : Nat} (h : k < 6) (rs : List (Nat × Nat × Nat)) (ps : List (Int × Int)) (s : State) :
    calRunDone k rs ps s = endRun k rs s := by
  simp [calRunDone, Nat.not_lt.2 (Nat.le_of_lt h), Nat.ne_of_lt h]

theorem calRunDone_check (rs : List (Nat × Nat × Nat)) (ps : List (Int × Int)) (s : State) :
    calRunDone 6 rs ps s = endRun 6 rs (if calRunning s 6 0 then rosCheck ps s else s) := by
  simp [calRunDone]

theorem hk_noGroups {x : Hk} (h : x.groups = []) : { x with groups := [] } = x := by
  cases x
  cases h
  rfl

/-- With no request that waits for its end, a unit's end is told to nobody. -/
theorem groupsDone_none {s : State} (h : s.hk.groups = []) (k u q : Nat) (bad : Bool) : groupsDone k u q bad s = s := by
  simp only [groupsDone, setHk, h, List.map_nil, List.filter_nil, List.foldl_nil, hk_noGroups h]

/-- The self-check's unit when its run has ended. -/
def checkEnded (s : State) : State :=
  setKind 6 (fun k => { k with rejected := k.rejected }) (dropRun 6 0 (setHk (fun h => { h with rosTemp := some (watched s 6 0) }) s))

theorem checkEnded_eq (s : State) : checkEnded s = { s with hk := { s.hk with
    rosTemp := some (watched s 6 0), runs := s.hk.runs.filter fun r => !(r.kind = 6 && r.unit = 0)
    kinds := modUnit s.hk.kinds 6 fun k => { k with rejected := k.rejected } } } := by
  rw [checkEnded, setKind, dropRun, setHk, setHk, setHk]

theorem endUnit_check {s : State} (hrun : calRunning s 6 0 = true) (hg : s.hk.groups = []) (q e : Nat) :
    endUnit 6 (s, none, false) (0, q, e) = (checkEnded s, some (0, 0), false) := by
  have hmay : mayEnd 6 0 s = true := hrun
  have hnone : (checkEnded s).hk.groups = [] := by
    rw [checkEnded_eq]
    exact hg
  have hdone : groupsDone 6 0 0 false (checkEnded s) = checkEnded s := groupsDone_none hnone 6 0 0 false
  have htake : takeResult 6 0 q e s = (setHk (fun h => { h with rosTemp := some (watched s 6 0) }) s, 0, false) := by
    rw [takeResult]
  simp only [endUnit, hmay, htake, Bool.not_true, Bool.false_eq_true, if_false, if_neg (show ¬ 6 = 2 by decide)]
  exact congrArg (fun u => (u, some (0, 0), false)) hdone

theorem endRun_check {s : State} (hrun : calRunning s 6 0 = true) (hg : s.hk.groups = []) (hlen : s.hk.kinds.length = 7) (q e : Nat) :
    ∃ u, endRun 6 [(0, q, e)] s = calPump (raise 0x2010 (natLE 1 6 ++ natLE 1 0 ++ natLE 1 stDone ++ natLE 2 0) u) ∧
      u = { s with hk := u.hk } ∧ calRunning u 6 0 = false ∧ (unit u.hk.kinds 6 .reset).runs = (unit s.hk.kinds 6 .reset).runs + 1 := by
  have hfold : [(0, q, e)].foldl (endUnit 6) (s, none, false) = (checkEnded s, some (0, 0), false) := by
    rw [List.foldl_cons, List.foldl_nil]
    exact endUnit_check hrun hg q e
  let f : CalKind → CalKind := fun k => { k with
    quality := BitVec.ofNat 16 0, lastNs := BitVec.ofNat 64 (checkEnded s).now, runs := k.runs + 1 }
  refine ⟨setKind 6 f (checkEnded s), ?_, ?_, ?_, ?_⟩
  · simp only [endRun, hfold] <;> rfl
  · rw [checkEnded_eq, setKind, setHk]
  · rw [checkEnded_eq]
    refine List.any_eq_false.2 fun r hr => ?_
    obtain ⟨-, hr⟩ := List.mem_filter.1 hr
    simpa [imp_iff_not_or] using hr
  · rw [checkEnded_eq]
    have h6 : 6 < s.hk.kinds.length := by omega
    have hkinds (g : CalKind → CalKind) (hg : ∀ k, (g k).runs = k.runs) :
        (unit (modUnit (modUnit s.hk.kinds 6 g) 6 f) 6 .reset).runs = (unit s.hk.kinds 6 .reset).runs + 1 := by
      rw [modUnit_modUnit, unit_modUnit_same h6]
      exact congrArg (· + 1) (hg _)
    exact hkinds _ fun _ => rfl

/-! ### Times of calibrations (R526, R531) -/

section

variable {s : State} {k u : Nat} {w : CalWait} (h : (s.hk.waits.find? fun w => w.kind = k && w.unit = u) = some w)
include h

theorem calOverdue_not (hw : w.overdue = true ∨ s.now ≤ w.since + 1000000000 * s.prof.system.calDeferS) : calOverdue k u s = s := by
  simp only [calOverdue, h]
  exact if_pos (by simpa using hw)

theorem calOverdue_reports (hw : w.overdue = false) (ht : w.since + 1000000000 * s.prof.system.calDeferS < s.now) :
    calOverdue k u s = raise 0x2011 (natLE 1 k ++ natLE 1 u ++ natLE 4 ((s.now - w.since) / 1000000000)) (setHk (fun x => { x with
      waits := x.waits.map fun y => if y.kind = k && y.unit = u then { y with overdue := true } else y }) s) := by
  simp only [calOverdue, h]
  exact if_neg (by simpa [hw] using ht)

end

theorem darkTimeout_none {s : State} {l : Nat} (h : (laneCal s l).gather = none) : darkTimeout l s = s := by
  simp only [darkTimeout, h]

theorem darkTimeout_some {s : State} {l : Nat} {g : Gather} (h : (laneCal s l).gather = some g) (hn : g.n < 1024) :
    darkTimeout l s = if g.since + 1000000000 < s.now then setLaneCal l (fun x => { x with gather := none }) s else s := by
  simp [darkTimeout, h, hn]

/-! ### The throttle timer and DIE_OFF (R514, R518) -/

section

variable {s : State}

theorem throttleTimer_second (h1 : s.hk.level = 1) (hc : s.hk.thrCond = true) (ht : s.hk.levelSince + 2000000000 ≤ s.now) :
    throttleTimer s = setLevel 2 s := by
  have hyes : (decide (s.hk.level = 1) && s.hk.thrCond && decide (s.hk.levelSince + 2000000000 ≤ s.now)) = true := by
    simp only [h1, hc, decide_true, Bool.true_and, decide_eq_true ht]
  rw [throttleTimer, if_pos hyes]

theorem throttleTimer_falls {t0 : Ns} (h1 : s.hk.level ≠ 1 ∨ s.hk.thrCond = false ∨ s.now < s.hk.levelSince + 2000000000)
    (hr : s.hk.relCond = true) (hs : s.hk.relSince = some t0) (ht : t0 + 1000000000 ≤ s.now) :
    throttleTimer s = levelFalls (setHk (fun x => { x with relSince := some s.now }) s) := by
  have hno : ¬ ((decide (s.hk.level = 1) && s.hk.thrCond && decide (s.hk.levelSince + 2000000000 ≤ s.now)) = true) := by
    simp only [Bool.and_eq_true, decide_eq_true_eq]
    rintro ⟨⟨h2, h3⟩, h4⟩
    rcases h1 with h1 | h1 | h1
    · exact h1 h2
    · rw [h1] at h3
      cases h3
    · exact absurd h4 (Nat.not_le.2 h1)
  have hyes : (s.hk.relCond && s.hk.relSince.any fun t => decide (t + 1000000000 ≤ s.now)) = true := by
    rw [hr, hs, Option.any_some, Bool.true_and, decide_eq_true_iff]
    exact ht
  rw [throttleTimer, if_neg hno, if_pos hyes]

theorem throttleTimer_still (h1 : s.hk.thrCond = false) (h2 : s.hk.relCond = false) : throttleTimer s = s := by
  simp [throttleTimer, h1, h2]

theorem dieOff_never (h : s.hk.shutAt = none) : dieOff s = s := by simp only [dieOff, h]

theorem dieOff_off {t0 : Ns} (h : s.hk.shutAt = some t0) (hp : s.power.state = .on) (ha : axesStand s = true ∨ t0 + 2000000000 ≤ s.now) :
    dieOff s = setHk (fun x => { x with shutAt := some t0 }) (hold .pin 0 .held s) := by
  simp only [dieOff, h]
  exact if_pos (by simpa [hp] using ha)

theorem dieOff_waits {t0 : Ns} (h : s.hk.shutAt = some t0) (ha : axesStand s = false) (ht : s.now < t0 + 2000000000) : dieOff s = s := by
  simp only [dieOff, h]
  exact if_neg (by simpa [ha] using fun _ => ht)

end

/-! ### The round (R510) -/

/-- The readings of a round in their places. -/
def readsTaken (reads : List (BitVec 16)) (s : State) : State :=
  setHk (fun h => { h with
    before := h.reads, reads := (List.range 64).map (fun i => if i < 46 then unit reads i 0 else 0), rounds := h.rounds + 1 }) s

/-- The readings of a round and its hottest junction. -/
def roundTaken (reads : List (BitVec 16)) (s : State) : State :=
  match hottest (readsTaken reads s) (rosSlots (readsTaken reads s)) with
  | some (_, y) => setHk (fun h => { h with tj := BitVec.ofInt 16 y }) (readsTaken reads s)
  | none => readsTaken reads s

theorem roundTaken_eq (reads : List (BitVec 16)) (s : State) :
    ∃ x, roundTaken reads s = setHk (fun h => { h with tj := x }) (readsTaken reads s) := by
  unfold roundTaken
  split
  · exact ⟨_, rfl⟩
  · exact ⟨_, rfl⟩

theorem readsTaken_reads (reads : List (BitVec 16)) (s : State) {i : Nat} (h : i < 46) :
    unit (readsTaken reads s).hk.reads i 0 = unit reads i 0 := by
  have h64 : i < 64 := by omega
  simp [readsTaken, setHk, unit, h64, h]

theorem hkRound_off {s : State} (h : s.power.state ≠ .on) (reads : List (BitVec 16)) : hkRound reads s = s := by
  simp [hkRound, h]

/-- What follows the recorder's samples in a round: a shutdown, or the throttle level and the calibrations. -/
def roundEnds (w : State) : State :=
  match shutdownDue w with
  | some (c, i) => shutdown c i (supplyWarns (tempWarns w))
  | none =>
    let x := throttleRound (supplyWarns (tempWarns w))
    if x.boot.alive && profileInForce x then calRound x else x

theorem hkRound_on {s v : State} {reads : List (BitVec 16)} (h : s.power.state = .on) (hv : roundTaken reads s = v) :
    hkRound reads s = if v.boot.sensorWait then (if sensorsCool v then setBoot (fun b => { b with sensorWait := false, phase := 1 }) v else v)
      else if v.hk.shutAt.isSome then v
      else roundEnds (recRound v) := by
  have hon : ¬ ((s.power.state != .on) = true) := by simp [h]
  rw [hkRound, if_neg hon, roundEnds]
  unfold roundTaken at hv
  generalize hu : readsTaken reads s = u at hv
  rw [readsTaken] at hu
  cases ho : hottest u (rosSlots u) with
  | none =>
    simp only [ho] at hv
    cases hd : shutdownDue (recRound v) <;> (subst hv; simp only [hu, ho, hd])
  | some p =>
    simp only [ho] at hv
    cases hd : shutdownDue (recRound v) <;> (subst hv; simp only [hu, ho, hd])

theorem hkRound_cooling {s : State} (h : s.power.state = .on) (hw : s.boot.sensorWait = true) (reads : List (BitVec 16)) :
    let u := hkRound reads s
    u = { s with hk := u.hk, boot := u.boot } ∧ u.hk.before = s.hk.reads ∧ u.hk.rounds = s.hk.rounds + 1 ∧
      (∀ i < 46, unit u.hk.reads i 0 = unit reads i 0) ∧
      ((u.boot = s.boot ∧ sensorsCool u = false) ∨ (u.boot = { s.boot with sensorWait := false, phase := 1 } ∧ sensorsCool u = true)) := by
  obtain ⟨x, hx⟩ := roundTaken_eq reads s
  have hround := hkRound_on h hx
  have hwait : (setHk (fun h => { h with tj := x }) (readsTaken reads s)).boot.sensorWait = true := hw
  rw [if_pos hwait] at hround
  have hreads := fun i hi => readsTaken_reads reads s (i := i) hi
  cases hc : sensorsCool (setHk (fun h => { h with tj := x }) (readsTaken reads s)) with
  | true =>
    rw [hc, if_pos rfl] at hround
    rw [hround]
    exact ⟨rfl, rfl, rfl, hreads, .inr ⟨rfl, hc⟩⟩
  | false =>
    rw [hc, if_neg Bool.false_ne_true] at hround
    rw [hround]
    exact ⟨rfl, rfl, rfl, hreads, .inl ⟨rfl, hc⟩⟩

section

variable {s : State} (h : s.power.state = .on) (hw : s.boot.sensorWait = false) (reads : List (BitVec 16))
include h hw

theorem hkRound_afterShutdown (hs : s.hk.shutAt ≠ none) : hkRound reads s = roundTaken reads s := by
  obtain ⟨x, hx⟩ := roundTaken_eq reads s
  have hwait : ¬ (roundTaken reads s).boot.sensorWait = true := by rw [hx]; exact ne_true_of_eq_false hw
  have hshut : (roundTaken reads s).hk.shutAt.isSome = true := by rw [hx]; exact Option.isSome_iff_ne_none.2 hs
  rw [hkRound_on h rfl, if_neg hwait, if_pos hshut]

variable (hs : s.hk.shutAt = none)
include hs

theorem hkRound_running : hkRound reads s = roundEnds (recRound (roundTaken reads s)) := by
  obtain ⟨x, hx⟩ := roundTaken_eq reads s
  have hwait : ¬ (roundTaken reads s).boot.sensorWait = true := by rw [hx]; exact ne_true_of_eq_false hw
  have hshut : ¬ (roundTaken reads s).hk.shutAt.isSome = true := by
    rw [hx, Option.isSome_iff_ne_none, not_not]
    exact hs
  rw [hkRound_on h rfl, if_neg hwait, if_neg hshut]

theorem hkRound_shutsDown {c i : Nat} (hd : shutdownDue (recRound (roundTaken reads s)) = some (c, i)) :
    hkRound reads s = shutdown c i (supplyWarns (tempWarns (recRound (roundTaken reads s)))) := by
  rw [hkRound_running h hw reads hs, roundEnds, hd]

theorem hkRound_goesOn (hd : shutdownDue (recRound (roundTaken reads s)) = none) :
    let x := throttleRound (supplyWarns (tempWarns (recRound (roundTaken reads s))))
    hkRound reads s = if x.boot.alive && profileInForce x then calRound x else x := by
  rw [hkRound_running h hw reads hs, roundEnds, hd]

end

/-- Settles O56: each clause is what its command or its event does. The status of a CAL_REQUEST that CAL_CANCEL removes (log 44), the hold that
step 4 of the start uses (log 152) and what log 165 settles are the model's choices. -/
theorem calibrationsAndHousekeeping : Obligations.CalibrationsAndHousekeeping := by
  unfold Obligations.CalibrationsAndHousekeeping
  intro h t s hr
  refine ⟨?_, ?_, ?_, ?_, ?_, ?_, ?_, ?_, ?_, ?_, ?_, ?_, ?_, ?_, ?_, ?_, ?_, ?_, ?_, ?_, ?_, ?_, ?_, ?_, ?_, ?_, ?_, ?_, ?_⟩
  · exact fun k im m hk => post_next hr (startCalRequest_kind hk _ im m _)
  · exact fun im m => post_next hr (startCalRequest_check _ im m _)
  · exact fun k m hk => post_next hr (startCalCancel_param (s := accept h 0x91 s) (.inl hk) _)
  · exact fun k im m h1 h4 ha hp hi => ⟨fun he => post_next hr (startCalRequest_none (s := accept h 0x90 s) h1 h4 ha hp hi _ he),
      fun hne hn => post_next hr (startCalRequest_now (s := accept h 0x90 s) h1 h4 ha hp hi _ hne hn),
      fun hne hn => post_next hr (startCalRequest_deferred (s := accept h 0x90 s) h1 h4 ha hp hi _ hne hn)⟩
  · intro im m ha hi
    have hreq := startCalRequest_grid (s := accept h 0x90 s) ha hi h.ref
    exact ⟨fun he => post_next hr (hreq.trans (if_pos (List.isEmpty_iff.2 he))),
      fun hne => post_next hr (hreq.trans (if_neg (mt List.isEmpty_iff.1 hne)))⟩
  · exact fun im m ha hne => post_next hr (startCalRequest_dqs (s := accept h 0x90 s) ha hne _ im)
  · exact fun k im m _ ha => post_next hr (startCalRequest_absent (s := accept h 0x90 s) ha _ im)
  · exact fun k m hk ha hp hi => post_next hr (startCalRequest_busy (s := accept h 0x90 s) (by omega) ha hp _ hi)
  · exact fun k m hk => ⟨fun hf => post_next hr (startCalCancel_param (s := accept h 0x91 s) (.inr hf) _),
      fun hf => post_next hr (startCalCancel_withdraws (s := accept h 0x91 s) hk hf _)⟩
  · exact fun k m hk hf hw => post_next hr (startCalCancel_idle (s := accept h 0x91 s) hk hf _ hw)
  · exact fun u w hu hp hw hk hn hc hg => post_next hr (startCalCancel_port (s := accept h 0x91 s) hu hp hw hk hn hc hg _)
  · exact fun l => ⟨fun hl => post_next hr ((startHkThrottleFloor_eq _ _ _).trans (if_pos hl)),
      fun hl => post_next hr ((startHkThrottleFloor_eq _ _ _).trans (if_neg (Nat.not_lt.2 hl)))⟩
  · exact fun k rs ps hk => congrArg Host.Outcome.next (calRunDone_kind hk rs ps _)
  · exact fun k hk h6 => congrArg Host.Outcome.next ((calRunDone_ends (by omega) [] [] _).trans (endRun_nothing k _))
  · exact fun k rs ps hk => congrArg Host.Outcome.next (calRunDone_ends hk rs ps _)
  · exact fun rs ps => congrArg Host.Outcome.next (calRunDone_check rs ps _)
  · intro q e hrun hg hf hlen
    obtain ⟨u, h1, h2, h3, h4⟩ := endRun_check (s := passTo t s) hrun hg hlen q e
    refine ⟨u, congrArg Host.Outcome.next ((calRunDone_check _ _ _).trans ?_), h2, h3, h4⟩
    rw [if_pos (show calRunning (passTo t s) 6 0 = true from hrun), rosCheck_nothing (s := passTo t s) hf]
    exact h1
  · exact fun k u w hw => ⟨fun hn => congrArg Host.Outcome.next (calOverdue_not (s := passTo t s) hw hn),
      fun ho ht => congrArg Host.Outcome.next (calOverdue_reports (s := passTo t s) hw ho ht)⟩
  · exact fun l hn => congrArg Host.Outcome.next (darkTimeout_none (s := passTo t s) hn)
  · intro l g hg hn
    have hd := darkTimeout_some (s := passTo t s) hg hn
    exact ⟨fun ht => congrArg Host.Outcome.next (hd.trans (if_pos ht)), fun ht => congrArg Host.Outcome.next (hd.trans (if_neg (Nat.not_lt.2 ht)))⟩
  · exact fun reads hn => congrArg Host.Outcome.next (hkRound_off (s := passTo t s) hn reads)
  · exact fun reads hp hw => ⟨_, rfl, hkRound_cooling (s := passTo t s) hp hw reads⟩
  · exact fun h1 hc ht => congrArg Host.Outcome.next (throttleTimer_second (s := passTo t s) h1 hc ht)
  · exact fun t0 h1 hrel hs ht => congrArg Host.Outcome.next (throttleTimer_falls (s := passTo t s) h1 hrel hs ht)
  · intro reads hp hw u
    have hu : u = readsTaken reads (passTo t s) := rfl
    clear_value u
    intro v w
    have hv : v = roundTaken reads (passTo t s) := by
      cases ho : hottest u (rosSlots u) <;> simp only [roundTaken, ← hu, v, ho]
    clear_value v
    subst hv
    have hround : exec (.hkRound t reads) s = .next (hkRound reads (passTo t s)) := rfl
    rw [hround]
    refine ⟨fun hs => congrArg Host.Outcome.next (hkRound_afterShutdown (s := passTo t s) hp hw reads hs), fun hs =>
      ⟨fun c i hd => congrArg Host.Outcome.next (hkRound_shutsDown (s := passTo t s) hp hw reads hs hd),
        fun hd => ?_⟩⟩
    have hgoes := hkRound_goesOn (s := passTo t s) hp hw reads hs hd
    dsimp only at hgoes
    rw [hgoes]
  · exact fun h1 h2 => congrArg Host.Outcome.next (throttleTimer_still (s := passTo t s) h1 h2)
  · exact fun hn => congrArg Host.Outcome.next (dieOff_never (s := passTo t s) hn)
  · exact fun t0 hs hp ha => congrArg Host.Outcome.next (dieOff_off (s := passTo t s) hs hp ha)
  · exact fun t0 hs ha ht => congrArg Host.Outcome.next (dieOff_waits (s := passTo t s) hs ha ht)

end Sys2Proof.Machine
end

section
/-! SUPPORT. The recorder: demands, clears, provisioning, writes, time and the window (O57). -/

namespace Sys2Proof.Machine

/-! ### Fields of the recorder that stand as they are -/

theorem recorder_noWaits {x : Recorder} (h : x.waits = []) : { x with waits := [] } = x := by
  cases x
  cases h
  rfl

theorem recorder_noAsked {x : Recorder} (h : x.asked = []) : { x with asked := [] } = x := by
  cases x
  cases h
  rfl

theorem recorder_noSecond {x : Recorder} (h : x.second = List.replicate 8 none) : { x with second := List.replicate 8 none } = x := by
  cases x
  cases h
  rfl

/-! ### Records that are due (R543, R550) -/

theorem recNext_writing {s : State} (h : s.recorder.write ≠ none) : recNext s = s := if_pos (Option.isSome_iff_ne_none.2 h)

/-- With no write in progress and none due, a clear that is asked for is judged. -/
theorem recNext_asked {s : State} {r : Ref} {tok : List Byte} {rest : List (Ref × List Byte)} (hw : s.recorder.write = none)
    (hd : s.recorder.waits = []) (ha : s.recorder.asked = (r, tok) :: rest) :
    recNext s = clearAsked r tok (setRecorder (fun x => { x with asked := rest }) s) := by
  simp only [recNext, hw, hd, ha, Option.isSome_none, Bool.false_eq_true, if_false]

theorem recNext_idle {s : State} (hd : s.recorder.waits = []) (ha : s.recorder.asked = []) : recNext s = s := by
  simp only [recNext, hd, ha, ite_self]

/-- With no write in progress the first record that is due is written. -/
theorem recNext_due {s : State} {d : RecDue} {ds : List RecDue} (hw : s.recorder.write = none) (hd : s.recorder.waits = d :: ds) :
    recNext s = recBegin d (setRecorder (fun x => { x with waits := ds }) s) := by
  simp only [recNext, hw, hd, Option.isSome_none, Bool.false_eq_true, if_false]

theorem startRecRecordNow_begins {s : State} (hw : s.recorder.write = none) (hd : s.recorder.waits = []) (r : Ref) :
    startRecRecordNow r s = recBegin { kind := 7, cause := 0, refs := [r] } s := by
  let u : State := setRecorder (fun x => { x with waits := joinDue { kind := 7, cause := 0, refs := [r] } x.waits }) s
  have hdue : u.recorder.waits = [{ kind := 7, cause := 0, refs := [r] }] := by
    dsimp only [u, setRecorder]
    rw [hd, joinDue]
  have hback : setRecorder (fun x => { x with waits := [] }) u = s :=
    congrArg (fun y => { s with recorder := y }) (recorder_noWaits hd)
  have hnext := recNext_due (s := u) hw hdue
  rw [hback] at hnext
  exact hnext

theorem startRecRecordNow_joins {s : State} (hw : s.recorder.write ≠ none) (r : Ref) : startRecRecordNow r s =
    setRecorder (fun x => { x with waits := joinDue { kind := 7, cause := 0, refs := [r] } x.waits }) s :=
  recNext_writing (s := setRecorder (fun x => { x with waits := joinDue { kind := 7, cause := 0, refs := [r] } x.waits }) s) hw

/-! ### REC_CHALLENGE and REC_CLEAR (R548, R549) -/

theorem startRecChallenge_locked {s : State} (h : 8 ≤ s.recorder.authFail.toNat) (r : Ref) : startRecChallenge r s = endWith r stState s :=
  if_pos (decide_eq_true h)

theorem startRecChallenge_nonce {s : State} (h : s.recorder.authFail.toNat < 8) (r : Ref) :
    startRecChallenge r s = finish r stDone 0 (BitVec.ofNat 64 (Config.freeNat s.free)).toNat { s with
      free := s.free + 1, recorder := { s.recorder with nonce := some (BitVec.ofNat 64 (Config.freeNat s.free), s.now) } } := by
  have hlock : ¬ recLocked s = true := by simpa [recLocked] using h
  rw [startRecChallenge, if_neg hlock] <;> rfl

theorem startRecClear_job {s : State} (h : jobExists s = true) (r : Ref) (tok : List Byte) : startRecClear r tok s = endWith r stState s :=
  if_pos h

section

variable {s : State} (h : jobExists s = false) (r : Ref) (tok : List Byte)
include h

theorem startRecClear_asks :
    startRecClear r tok s = recNext (setRecorder (fun x => { x with asked := x.asked ++ [(r, padTo 8 tok)] }) s) :=
  if_neg (ne_true_of_eq_false h)

theorem startRecClear_waits (hw : s.recorder.write ≠ none) :
    startRecClear r tok s = setRecorder (fun x => { x with asked := x.asked ++ [(r, padTo 8 tok)] }) s :=
  (startRecClear_asks h r tok).trans (recNext_writing (s := setRecorder (fun x => { x with asked := x.asked ++ [(r, padTo 8 tok)] }) s) hw)

theorem startRecClear_judged (hw : s.recorder.write = none) (hd : s.recorder.waits = []) (ha : s.recorder.asked = []) :
    startRecClear r tok s = clearAsked r (padTo 8 tok) s := by
  let u : State := setRecorder (fun x => { x with asked := x.asked ++ [(r, padTo 8 tok)] }) s
  have hask : u.recorder.asked = [(r, padTo 8 tok)] := by
    dsimp only [u, setRecorder]
    rw [ha, List.nil_append]
  have hback : setRecorder (fun x => { x with asked := [] }) u = s :=
    congrArg (fun y => { s with recorder := y }) (recorder_noAsked ha)
  have hnext := recNext_asked (s := u) hw hd hask
  rw [hback] at hnext
  exact (startRecClear_asks h r tok).trans hnext

end

theorem clearAsked_noNonce {s : State} (hc : s.recorder.clears.toNat < 256) (hn : s.recorder.nonce = none) (r : Ref) (tok : List Byte) :
    clearAsked r tok s = clearDenied r s := by
  rw [clearAsked, if_neg (Nat.not_le.2 hc)]
  cases s.ident.otp.ownerClearKey <;> simp only [hn]

theorem clearAsked_grants {s : State} {key tok : List Byte} {n : BitVec 64} {a : Ns} (hc : s.recorder.clears.toNat < 256)
    (hk : s.ident.otp.ownerClearKey = some key) (hn : s.recorder.nonce = some (n, a)) (ht : s.now < a + 60000000000)
    (heq : clearToken key n.toNat s = tok) (r : Ref) :
    clearAsked r tok s = clearBegin r n.toNat tok (setRecorder (fun x => { x with nonce := none }) s) := by
  have hcond : (decide (s.now < a + 60000000000) && clearToken key n.toNat s == tok) = true := by
    rw [heq, beq_self_eq_true, Bool.and_true, decide_eq_true_iff]
    exact ht
  rw [clearAsked, if_neg (Nat.not_le.2 hc)]
  simp only [hk, hn]
  exact if_pos hcond

theorem clearToken_congr {s u : State} (hi : u.ident = s.ident) (hr : u.recorder = s.recorder) (key : List Byte) (n : Nat) :
    clearToken key n u = clearToken key n s := by
  rw [clearToken, clearToken, hi, hr]

/-! ### REC_PROVISION (R547) -/

theorem startRecProvision_state {s : State} (h : s.ident.otp.ownerClearKey ≠ none ∨ jobExists s = true) (r : Ref) (a : Nat) :
    startRecProvision r a s = endWith r stState s := by
  refine if_pos ?_
  rwa [Bool.or_eq_true, Option.isSome_iff_ne_none]

section

variable {s : State} {a : Nat} (hk : s.ident.otp.ownerClearKey = none) (hj : jobExists s = false) (r : Ref)
include hk hj

theorem startRecProvision_outside (hm : hostMem a 64 s = false) : startRecProvision r a s = endWith r stParam s := by
  rw [startRecProvision, if_neg (by simp [hk, hj]), if_pos (by rw [hm]; rfl)]

variable (hm : hostMem a 64 s = true) (hp : poisonIn a 64 s = none)
include hm hp

theorem startRecProvision_reserved (hz : allZero ((memRead a 64 s).drop 48) = false) : startRecProvision r a s = endWith r stParam s := by
  simp only [startRecProvision, hk, hj, hm, hp, hz, Option.isSome_none, Bool.or_self, Bool.false_eq_true, if_false, Bool.not_true,
    Bool.not_false, if_true]

theorem startRecProvision_burns (hz : allZero ((memRead a 64 s).drop 48) = true) :
    let hash := ((memRead a 64 s).drop 16).take 32
    let key := if allZero hash then none else some hash
    startRecProvision r a s = endWith r stDone (raise 0x9004 (natLE 1 (b1 key.isSome)) { s with
      ident := { s.ident with otp := { s.ident.otp with ownerClearKey := some ((memRead a 64 s).take 16), builderKeyHash := key } } }) := by
  simp only [startRecProvision, hk, hj, hm, hp, hz, Option.isSome_none, Bool.or_self, Bool.false_eq_true, if_false, Bool.not_true]

/-- With nothing behind the owner's key no builder's key is burnt. -/
theorem startRecProvision_owner (hz : allZero ((memRead a 64 s).drop 16) = true) :
    startRecProvision r a s = endWith r stDone (raise 0x9004 (natLE 1 0) { s with
      ident := { s.ident with otp := { s.ident.otp with ownerClearKey := some ((memRead a 64 s).take 16), builderKeyHash := none } } }) := by
  have hall := List.all_eq_true.1 hz
  have hrest : allZero ((memRead a 64 s).drop 48) = true := by
    refine List.all_eq_true.2 fun b hb => hall b ?_
    have hd : (memRead a 64 s).drop 48 = ((memRead a 64 s).drop 16).drop 32 := by rw [List.drop_drop]
    exact List.mem_of_mem_drop (hd ▸ hb)
  have hhash : allZero (((memRead a 64 s).drop 16).take 32) = true := List.all_eq_true.2 fun b hb => hall b (List.mem_of_mem_take hb)
  have hburns := startRecProvision_burns hk hj r hm hp hrest
  simp only [hhash, if_true] at hburns
  exact hburns

end

/-! ### The end of a write (R541) -/

theorem recWriteDone_none {s : State} (h : s.recorder.write = none) : recWriteDone s = s := by simp only [recWriteDone, h]

theorem recWriteDone_some {s : State} {w : RecWrite} (h : s.recorder.write = some w) :
    recWriteDone s = if w.log then clearLogged w s else recWritten w s := by
  simp only [recWriteDone, h]

/-- The recorder with a verified write. -/
def verified (w : RecWrite) (r : Recorder) : Recorder :=
  setOther .empty { r with
    totals := w.content, seqNext := r.seqNext + 1, newest := some w.slot, lastMinute := r.minutes.toNat, merged := false
    main := (w.slot, w.bytes) :: r.main.filter (fun x => x.1 != w.slot), write := none }

theorem verified_facts (w : RecWrite) (r : Recorder) :
    (verified w r).totals = w.content ∧ (verified w r).newest = some w.slot ∧ (verified w r).seqNext = r.seqNext + 1 ∧
      (verified w r).write = none ∧ otherSet (verified w r) = .empty ∧ activeSet (verified w r) = activeSet r ∧
      (verified w r).waits = r.waits ∧ (verified w r).asked = r.asked ∧ (verified w r).main.head? = some (w.slot, w.bytes) := by
  cases hb : r.activeB <;> simp [verified, setOther, otherSet, activeSet, hb]

theorem recordAt_main {s : State} {w : RecWrite} (h : s.recorder.main.head? = some (w.slot, w.bytes)) : recordAt 0 w.slot s = some w.bytes := by
  obtain ⟨rest, hm⟩ := List.head?_eq_some_iff.1 h
  simp [recordAt, hm]

theorem recWritten_plain {s : State} {w : RecWrite} (hk : w.due.kind ≠ 8) (hr : w.due.refs = []) (hd : s.recorder.waits = [])
    (ha : s.recorder.asked = []) : recWritten w s = setRecorder (verified w) s := by
  obtain ⟨-, -, -, -, -, -, hwaits, hasked, -⟩ := verified_facts w s.recorder
  have hnext : recNext (setRecorder (verified w) s) = setRecorder (verified w) s :=
    recNext_idle (s := setRecorder (verified w) s) (hwaits.trans hd) (hasked.trans ha)
  rw [recWritten]
  simp only [if_neg hk, hr, List.foldl_nil]
  exact hnext

section

variable {s : State} {w : RecWrite} (h : s.recorder.write = some w)
include h

theorem recWriteTimeout_early (ht : s.now < w.since + 20000000) : recWriteTimeout s = s := by
  simp only [recWriteTimeout, h, if_pos ht]

variable (ht : w.since + 20000000 ≤ s.now)
include ht

theorem recWriteTimeout_log (hl : w.log = true) : recWriteTimeout s =
    recNext (w.due.refs.foldl (fun u r => endWith r stAbFault u) (setRecorder (fun r => { r with write := none }) s)) := by
  simp only [recWriteTimeout, h, if_neg (Nat.not_lt.2 ht), hl, if_true]

theorem recWriteTimeout_fails (hl : w.log = false) (hf : 3 ≤ w.fails) : recWriteTimeout s =
    recFailed w (setRecorder (fun r => { r with badSlots := satInc r.badSlots, main := r.main.filter fun x => x.1 != w.slot }) s) := by
  simp only [recWriteTimeout, h, if_neg (Nat.not_lt.2 ht), hl, Bool.false_eq_true, if_false, if_pos hf]

theorem recWriteTimeout_retries (hl : w.log = false) (hf : w.fails < 3) : recWriteTimeout s =
    setRecorder (fun r => { r with
      retries := satInc r.retries, write := some { w with slot := (w.slot + 1) % 1792, since := s.now, fails := w.fails + 1 } })
      (setRecorder (fun r => { r with badSlots := satInc r.badSlots, main := r.main.filter fun x => x.1 != w.slot }) s) := by
  simp only [recWriteTimeout, h, if_neg (Nat.not_lt.2 ht), hl, Bool.false_eq_true, if_false, if_neg (Nat.not_le.2 hf)] <;> rfl

end

theorem recWriteTimeout_none {s : State} (h : s.recorder.write = none) : recWriteTimeout s = s := by simp only [recWriteTimeout, h]

/-! ### Time (R537, R538, R542, R548) -/

theorem nonceExpire_some {s : State} {n : BitVec 64} {t0 : Ns} (h : s.recorder.nonce = some (n, t0)) :
    nonceExpire s = if t0 + 60000000000 ≤ s.now then setRecorder (fun r => { r with nonce := none }) s else s := by
  rw [nonceExpire, h, Option.any_some]
  exact if_congr decide_eq_true_iff rfl rfl

theorem recMinute_standby {s : State} (h : s.power.state = .standby) :
    recMinute s = setRecorder (fun r => { r with minutes := r.minutes + 1 }) s := by
  simp only [recMinute, h]

theorem recSecond_off {s : State} (h : s.power.state ≠ .on) : recSecond s = s := if_pos (bne_iff_ne.2 h)

/-- The sample of source `k` in a second. -/
def secondSample (u : State) (k : Nat) : State :=
  match u.recorder.second.getD k none with
  | some v => histSample k v u
  | none => u

theorem secondSample_none {u : State} {k : Nat} (h : u.recorder.second.getD k none = none) : secondSample u k = u := by
  simp only [secondSample, h]

theorem secondSample_some {u : State} {k : Nat} {v : Int} (h : u.recorder.second.getD k none = some v) : secondSample u k = histSample k v u := by
  simp only [secondSample, h]

theorem getD_replicate_none (n d : Nat) : (List.replicate n (none : Option Int)).getD d none = none := by
  rw [List.getD_eq_getElem?_getD, List.getElem?_replicate]
  split <;> rfl

theorem histSample_second (k : Nat) (v : Int) (s : State) : (histSample k v s).recorder.second = s.recorder.second := by
  unfold histSample setActive
  dsimp only
  split <;> rfl

section

variable {s : State} (h : s.power.state = .on)
include h

theorem recMinute_on :
    let a := (List.range 8).foldl (fun u k => recExtreme (16 + k) (minuteCount u (8 + k)) 0 (histSample (8 + k) (minuteCount u (8 + k)) u)) s
    let b := (List.range 32).foldl (fun u p =>
      if u.recorder.blockErr.getD p 0 = 0 then u else recExtreme 31 (u.recorder.blockErr.getD p 0) p u) a
    let c := setRecorder (fun r => { r with minutes := r.minutes + 1, codes := [], blockErr := List.replicate 32 0 }) b
    recMinute s = if c.recorder.minutes.toNat % 60 = 0 then recDue 1 0 [] c else c := by
  simp only [recMinute, h, Int.natCast_eq_zero]

theorem recSecond_on : recSecond s = setRecorder (fun r => { r with second := List.replicate 8 none }) ((List.range 8).foldl secondSample s) := by
  rw [recSecond, if_neg (by simp [h])] <;> rfl

theorem recSecond_one {i : Nat} {v : Int} (hi : i < 8) (hs : s.recorder.second = (List.replicate 8 none).set i (some v)) :
    recSecond s = setRecorder (fun r => { r with second := List.replicate 8 none }) (histSample i v s) := by
  have hother (d : Nat) (hd : d ≠ i) : ((List.replicate 8 (none : Option Int)).set i (some v)).getD d none = none := by
    rw [List.getD_eq_getElem?_getD, List.getElem?_set_ne (Ne.symm hd), ← List.getD_eq_getElem?_getD, getD_replicate_none]
  have hown : ((List.replicate 8 (none : Option Int)).set i (some v)).getD i none = some v := by simp [hi]
  have hsample : secondSample s i = histSample i v s := secondSample_some (by rw [hs, hown])
  have hfold : (List.range 8).foldl secondSample s = secondSample s i := by
    refine foldl_once List.nodup_range (List.mem_range.2 hi) (fun d _ hd => secondSample_none ?_) fun d _ hd => ?_
    · rw [hs, hother d hd]
    · rw [hsample]
      exact secondSample_none (by rw [histSample_second, hs, hother d hd])
  rw [recSecond_on h, hfold, hsample]

theorem recSecond_none (hs : s.recorder.second = List.replicate 8 none) : recSecond s = s := by
  have hfold : (List.range 8).foldl secondSample s = s := by
    refine foldl_stays fun d _ => secondSample_none ?_
    rw [hs, getD_replicate_none]
  rw [recSecond_on h, hfold, setRecorder, recorder_noSecond hs]

end

/-! ### The reading window (R546) -/

/-- The fields of the cursor word. -/
theorem cursor_bits (v : Word) : bits v.toNat 0 2 = v.toNat % 4 ∧ bits v.toNat 2 11 = v.toNat / 4 % 2048 ∧
    bits v.toNat 13 4 = v.toNat / 8192 % 16 := by
  simp [bits]

theorem writeCursor_discards {v : Word} (h : v.toNat % 4 = 3 ∨ 9 < v.toNat / 8192 % 16) (s : State) : writeCursor v s = s := by
  obtain ⟨h0, -, h13⟩ := cursor_bits v
  refine if_pos ?_
  rw [h0, h13]
  simp only [Bool.or_eq_true, decide_eq_true_eq]
  tauto

/-- The cursor as a write in range leaves it. -/
def cursorAt (v : Word) (s : State) : State :=
  setRecorder (fun r => { r with
    region := BitVec.ofNat 2 (bits v.toNat 0 2), slot := BitVec.ofNat 11 (bits v.toNat 2 11), index := BitVec.ofNat 4 (bits v.toNat 13 4)
    autoInc := v.getLsbD 17 }) s

theorem cursorAt_fields (v : Word) (s : State) : (cursorAt v s).recorder.region.toNat = v.toNat % 4 ∧
    (cursorAt v s).recorder.slot.toNat = v.toNat / 4 % 2048 ∧ (cursorAt v s).recorder.index.toNat = v.toNat / 8192 % 16 := by
  obtain ⟨h0, h2, h13⟩ := cursor_bits v
  simp [cursorAt, setRecorder, h0, h2, h13]

theorem writeCursor_loads {v : Word} (hr : v.toNat % 4 < 3) (hs : v.toNat / 4 % 2048 ≤ (if v.toNat % 4 = 1 then 255 else 1791))
    (hi : v.toNat / 8192 % 16 ≤ 9) (s : State) : writeCursor v s = loadWindow (cursorAt v s) := by
  obtain ⟨h0, h2, h13⟩ := cursor_bits v
  refine if_neg ?_
  rw [h0, h2, h13]
  simp only [Bool.or_eq_true, Bool.and_eq_true, decide_eq_true_eq]
  split at hs <;> omega

/-- The bytes that a cursor shows. -/
def windowAt (s : State) : List Byte :=
  match recordAt s.recorder.region.toNat s.recorder.slot.toNat s with
  | some bs => (bs.drop (256 * s.recorder.index.toNat)).take 256
  | none => List.replicate 256 0xFF

theorem windowAt_length (s : State) : (windowAt s).length ≤ 256 := by
  unfold windowAt
  split
  · exact List.length_take_le ..
  · exact List.length_replicate.le

theorem loadWindow_eq (s : State) : loadWindow s = setRecorder (fun r => { r with window := windowAt s, winReady := true }) s := by
  rw [loadWindow, windowAt] <;> rfl

theorem windowRead_word {i : Nat} (h : i < 63) (s : State) : windowRead i s =
    { s with sent := .readData (0xA41000 + 4 * i) (BitVec.ofNat 32 (field s.recorder.window (4 * i) 4)) :: s.sent } := by
  simp only [windowRead, if_neg (show ¬ 64 ≤ i by omega), readWindow, if_neg (show ¬ i = 63 by omega)]

theorem windowRead_last (s : State) : windowRead 63 s = { advanceCursor s with
    sent := .readData (0xA41000 + 252) (BitVec.ofNat 32 (field s.recorder.window 252 4)) :: (advanceCursor s).sent } := rfl

/-- Settles O57: each clause is what its command or its event does. That a minute in STANDBY only counts and that the window is loaded at once are
the model's choices (log 164). -/
theorem recorderRecordsAndClears : Obligations.RecorderRecordsAndClears := by
  unfold Obligations.RecorderRecordsAndClears
  intro h t s hr
  refine ⟨?_, ?_, ?_, ?_, ?_, ?_, ?_, ?_, ?_, ?_, ?_, ?_, ?_, ?_, ?_, ?_, ?_, ?_, ?_, ?_, ?_, ?_, ?_⟩
  · exact fun hw hd => post_next hr (startRecRecordNow_begins (s := accept h 0xA0 s) hw hd _)
  · exact fun hw => post_next hr (startRecRecordNow_joins (s := accept h 0xA0 s) hw _)
  · exact fun tok hj => ⟨fun hw => post_next hr (startRecClear_waits (s := accept h 0xA2 s) hj _ tok hw),
      post_next hr (startRecClear_asks (s := accept h 0xA2 s) hj _ tok)⟩
  · exact fun a hk hj hm hp => ⟨fun hz => post_next hr (startRecProvision_reserved (s := accept h 0xA3 s) hk hj _ hm hp hz),
      fun hz => post_next hr (startRecProvision_burns (s := accept h 0xA3 s) hk hj _ hm hp hz)⟩
  · intro w hw
    have hdone := recWriteDone_some (s := passTo t s) hw
    exact ⟨fun hl => congrArg Host.Outcome.next (hdone.trans (if_neg (ne_true_of_eq_false hl))),
      fun hl => congrArg Host.Outcome.next (hdone.trans (if_pos hl))⟩
  · exact fun w hw ht => ⟨fun hl => congrArg Host.Outcome.next (recWriteTimeout_log (s := passTo t s) hw ht hl),
      fun hl hf => congrArg Host.Outcome.next (recWriteTimeout_fails (s := passTo t s) hw ht hl hf)⟩
  · exact fun hon => ⟨congrArg Host.Outcome.next (recSecond_on (s := passTo t s) hon),
      congrArg Host.Outcome.next (recMinute_on (s := passTo t s) hon)⟩
  · exact fun hl => post_next hr (startRecChallenge_locked (s := accept h 0xA1 s) hl _)
  · exact fun hl => post_next hr (startRecChallenge_nonce (s := accept h 0xA1 s) hl _)
  · exact fun tok hj => post_next hr (startRecClear_job (s := accept h 0xA2 s) hj _ tok)
  · exact fun tok hj hw hd ha hn hc => post_next hr
      ((startRecClear_judged (s := accept h 0xA2 s) hj _ tok hw hd ha).trans (clearAsked_noNonce (s := accept h 0xA2 s) hc hn _ _))
  · intro tok key n a hj hw hd ha hc hk hn ht heq
    have htok : clearToken key n.toNat (accept h 0xA2 s) = padTo 8 tok :=
      (clearToken_congr (accept_ident s h 0xA2) (accept_recorder s h 0xA2) key n.toNat).trans heq
    exact post_next hr ((startRecClear_judged (s := accept h 0xA2 s) hj _ tok hw hd ha).trans
      (clearAsked_grants (s := accept h 0xA2 s) hc hk hn ht htok _))
  · exact fun a hs => post_next hr (startRecProvision_state (s := accept h 0xA3 s) hs _ a)
  · exact fun a hk hj hm => post_next hr (startRecProvision_outside (s := accept h 0xA3 s) hk hj _ hm)
  · exact fun a hk hj hm hp hz => post_next hr (startRecProvision_owner (s := accept h 0xA3 s) hk hj _ hm hp hz)
  · exact fun hw => ⟨congrArg Host.Outcome.next (recWriteDone_none (s := passTo t s) hw),
      congrArg Host.Outcome.next (recWriteTimeout_none (s := passTo t s) hw)⟩
  · intro w hw hl hk hrefs hd ha
    obtain ⟨htotals, hnewest, hseq, hwrite, hother, hactive, -, -, hmain⟩ := verified_facts w s.recorder
    have hdone := (recWriteDone_some (s := passTo t s) hw).trans
      ((if_neg (ne_true_of_eq_false hl)).trans (recWritten_plain (s := passTo t s) hk hrefs hd ha))
    exact ⟨_, congrArg Host.Outcome.next hdone, rfl, htotals, hnewest, hseq, hwrite, hother, hactive,
      recordAt_main (s := setRecorder (verified w) (passTo t s)) hmain⟩
  · exact fun w hw => ⟨fun ht => congrArg Host.Outcome.next (recWriteTimeout_early (s := passTo t s) hw ht), fun ht hl hf =>
      ⟨_, congrArg Host.Outcome.next (recWriteTimeout_retries (s := passTo t s) hw ht hl hf), rfl, rfl, rfl, rfl⟩⟩
  · intro n t0 hn
    have hexp := nonceExpire_some (s := passTo t s) hn
    exact ⟨fun ht => congrArg Host.Outcome.next (hexp.trans (if_pos ht)),
      fun ht => congrArg Host.Outcome.next (hexp.trans (if_neg (Nat.not_le.2 ht)))⟩
  · exact fun hsb => ⟨congrArg Host.Outcome.next (recMinute_standby (s := passTo t s) hsb),
      congrArg Host.Outcome.next (recSecond_off (s := passTo t s) (by rw [passTo_power, hsb]; decide))⟩
  · exact fun i v hon hi hs => congrArg Host.Outcome.next (recSecond_one (s := passTo t s) hon hi hs)
  · exact fun hon hs => congrArg Host.Outcome.next (recSecond_none (s := passTo t s) hon hs)
  · intro hon
    have hhost (f : State → State) : (.next (atHost f s) : Host.Outcome State Fault Refusal) = .next (f s) := by rw [atHost_on hon]
    refine ⟨fun v hv => (hhost _).trans (by rw [writeCursor_discards hv]), fun v h1 h2 h3 => ?_,
      fun i hi => (hhost _).trans (by rw [windowRead_word hi]), (hhost _).trans (by rw [windowRead_last])⟩
    obtain ⟨hregion, hslot, hindex⟩ := cursorAt_fields v s
    have hload := (hhost (writeCursor v)).trans
      (congrArg Host.Outcome.next ((writeCursor_loads h1 h2 h3 s).trans (loadWindow_eq (cursorAt v s))))
    exact ⟨_, hload, rfl, hregion, hslot, hindex, rfl, windowAt_length _⟩

end Sys2Proof.Machine
end

section
/-! SUPPORT. The entry to STANDBY and HIBERNATE, and waking (O42). -/

namespace Sys2Proof.Machine

/-! ### The end of an entry (R572, R575) -/

/-- A PIN reset keeps no byte of Basin (R329). -/
theorem hold_pin_mem (cause : Nat) (st : PowerState) (s : State) : (hold .pin cause st s).basin.mem = [] := rfl

theorem powerEntryDone_standby {s : State} (h : s.power.entry = 1) : powerEntryDone s =
    setPower (fun p => { p with earlyWake := s.power.earlyWake }) (hold .standbyExit 0 .standby s) := if_pos h

theorem powerEntryDone_hibernate {s : State} (h : s.power.entry = 2) : powerEntryDone s =
    setPower (fun p => { p with earlyWake := s.power.earlyWake }) (hold .pin 0 .hibernate s) := by
  have h1 : ¬ s.power.entry = 1 := by rw [h]; decide
  rw [powerEntryDone, if_neg h1, if_pos h]

theorem powerEntryDone_not {s : State} (h1 : s.power.entry ≠ 1) (h2 : s.power.entry ≠ 2) : powerEntryDone s = s := by
  rw [powerEntryDone, if_neg h1, if_neg h2]

/-! ### Wake events (R576, R577) -/

section

variable {s : State} {c : BitVec 3}

theorem wakeEvent_none (h : wakeCounts c s = false) : wakeEvent c s = s := by simp only [wakeEvent, h, Bool.not_false, if_true]

theorem wakeEvent_wakes (h : wakeCounts c s = true) (ha : s.power.armed = true) : wakeEvent c s = wakeNow c s := by
  simp only [wakeEvent, h, ha, Bool.not_true, Bool.false_eq_true, if_false, if_true]

theorem wakeEvent_waits (h : wakeCounts c s = true) (ha : s.power.armed = false) (he : s.power.earlyWake = none) :
    wakeEvent c s = setPower (fun p => { p with earlyWake := some c }) s := by
  simp only [wakeEvent, h, ha, he, Bool.not_true, Bool.false_eq_true, if_false]

theorem wakeCounts_standby (h : s.power.state = .standby) : wakeCounts c s = (c == 1 || c == 3 || c == 4) := by
  simp [wakeCounts, h]

theorem wakeCounts_hibernate (h : s.power.state = .hibernate) (he : s.power.entry = 0) : wakeCounts c s = (c == 1 || c == 2) := by
  simp [wakeCounts, h, he]

theorem wakeCounts_on (h : s.power.state = .on) (he : s.power.entry = 0) : wakeCounts c s = false := by
  simp [wakeCounts, h, he]

theorem wakeNow_standby (h : s.power.state = .standby) (c : BitVec 3) : wakeNow c s = leaveStandby c s := by simp [wakeNow, h]

theorem wakeNow_hibernate (h : s.power.state = .hibernate) (c : BitVec 3) : wakeNow c s = heldIfReset (restart .wake 0 c.toNat s) := by
  simp [wakeNow, h]

/-- A source of STANDBY wakes the module once the sources are armed. -/
theorem wakeEvent_standby (h : s.power.state = .standby) (ha : s.power.armed = true) (hc : (c == 1 || c == 3 || c == 4) = true) :
    wakeEvent c s = leaveStandby c s := by
  rw [wakeEvent_wakes ((wakeCounts_standby h).trans hc) ha, wakeNow_standby h]

/-- A source of HIBERNATE does. -/
theorem wakeEvent_hibernate (h : s.power.state = .hibernate) (he : s.power.entry = 0) (ha : s.power.armed = true)
    (hc : (c == 1 || c == 2) = true) : wakeEvent c s = heldIfReset (restart .wake 0 c.toNat s) := by
  rw [wakeEvent_wakes ((wakeCounts_hibernate h he).trans hc) ha, wakeNow_hibernate h]

end

/-! ### The arming of the wake sources (R577) -/

/-- The sources armed, with nothing remembered any more. -/
def armedNow (s : State) : State := { s with power := { s.power with armed := true, earlyWake := none } }

theorem wakeSourcesArmed_wakes {s : State} {c : BitVec 3} (h : s.power.state = .standby ∨ s.power.state = .hibernate)
    (ha : s.power.armed = false) (hc : (if s.pins.hibWake then some 1 else s.power.earlyWake) = some c) :
    wakeSourcesArmed s = wakeNow c (armedNow s) := by
  have hcond : ((s.power.state == .standby || s.power.state == .hibernate) && !s.power.armed) = true := by simpa [ha] using h
  rw [wakeSourcesArmed, if_pos hcond]
  simp only [hc] <;> rfl

theorem wakeSourcesArmed_quiet {s : State} (h : s.power.state = .standby ∨ s.power.state = .hibernate) (ha : s.power.armed = false)
    (hw : s.pins.hibWake = false) (he : s.power.earlyWake = none) :
    wakeSourcesArmed s = { s with power := { s.power with armed := true } } := by
  have hcond : ((s.power.state == .standby || s.power.state == .hibernate) && !s.power.armed) = true := by simpa [ha] using h
  rw [wakeSourcesArmed, if_pos hcond]
  simp only [hw, he, Bool.false_eq_true, if_false]
  rfl

/-! ### HIB_REQ_N (R575) -/

section

variable {s : State} {ms : Nat} (h : s.power.state = .on) (he : s.power.entry = 0) (hms : 10 ≤ ms) (ha : s.boot.alive = true)
  (hw : s.pins.hibWake = false) (hr : s.power.reqArmed = true)
include h he hms ha hw hr

theorem hibReqN_counts :
    let v := { s with pins := { s.pins with hibReqN := false } }
    hibReqN ms s = if jobExists v && decide (ms < 1000) then v
      else beginEntry 2 true (setPower (fun p => { p with reqArmed := false })
        (if jobExists v then endJob (if v.jobs.line then flushMarks (cutMarks v) else v) else v)) := by
  have h0 : ¬ ms = 0 := by omega
  have hcond : ¬ ((decide (ms < 10) || s.pins.hibWake || !s.power.reqArmed || s.power.state != .on || s.power.entry != 0
      || !s.boot.alive) = true) := by
    simpa [h, he, ha, hw, hr] using hms
  rw [hibReqN, if_neg h0]
  exact if_neg hcond

theorem hibReqN_idle (hj : jobExists s = false) : hibReqN ms s =
    beginEntry 2 true { s with pins := { s.pins with hibReqN := false }, power := { s.power with reqArmed := false } } := by
  have hj' : jobExists { s with pins := { s.pins with hibReqN := false } } = false := hj
  have hc := hibReqN_counts h he hms ha hw hr
  simp only [hj', Bool.false_and, Bool.false_eq_true, if_false] at hc
  exact hc

theorem hibReqN_early (hj : jobExists s = true) (hlt : ms < 1000) : hibReqN ms s = { s with pins := { s.pins with hibReqN := false } } := by
  have hj' : jobExists { s with pins := { s.pins with hibReqN := false } } = true := hj
  have hc := hibReqN_counts h he hms ha hw hr
  simpa only [hj', decide_eq_true hlt, Bool.and_self, if_true] using hc

theorem hibReqN_ends (hj : jobExists s = true) (hge : 1000 ≤ ms) :
    let v := { s with pins := { s.pins with hibReqN := false } }
    hibReqN ms s = beginEntry 2 true (setPower (fun p => { p with reqArmed := false })
      (endJob (if s.jobs.line then flushMarks (cutMarks v) else v))) := by
  have hj' : jobExists { s with pins := { s.pins with hibReqN := false } } = true := hj
  have hc := hibReqN_counts h he hms ha hw hr
  simpa only [hj', decide_eq_false (Nat.not_lt.2 hge), Bool.and_false, Bool.false_eq_true, if_false, if_true] using hc

theorem hibReqN_endsBuild (hj : jobExists s = true) (hge : 1000 ≤ ms) (hl : s.jobs.line = false) :
    hibReqN ms s = beginEntry 2 true (setPower (fun p => { p with reqArmed := false })
      (endJob { s with pins := { s.pins with hibReqN := false } })) := by
  have hends := hibReqN_ends h he hms ha hw hr hj hge
  simpa only [hl, Bool.false_eq_true, if_false] using hends

theorem hibReqN_endsLine (hj : jobExists s = true) (hge : 1000 ≤ ms) (hl : s.jobs.line = true) :
    hibReqN ms s = beginEntry 2 true (setPower (fun p => { p with reqArmed := false })
      (endJob (flushMarks (cutMarks { s with pins := { s.pins with hibReqN := false } })))) := by
  have hends := hibReqN_ends h he hms ha hw hr hj hge
  simpa only [hl, if_true] using hends

end

/-- Settles O42: each clause is what its event does. That HIB_WAKE already high when the sources are armed wakes (log 149) and that the entry to
HIBERNATE follows the job's end at once (log 187) are the model's choices. -/
theorem powerStatesAndWaking : Obligations.PowerStatesAndWaking := by
  unfold Obligations.PowerStatesAndWaking
  intro t s
  refine ⟨?_, ?_, ?_, ?_, ?_, ?_, ?_, ?_, ?_, ?_, ?_, ?_⟩
  · exact fun he => ⟨_, congrArg Host.Outcome.next (powerEntryDone_standby (s := passTo t s) he), rfl, rfl, rfl, rfl⟩
  · exact fun he => ⟨_, congrArg Host.Outcome.next (powerEntryDone_hibernate (s := passTo t s) he), rfl, rfl,
      hold_pin_mem 0 .hibernate (passTo t s), rfl, rfl⟩
  · exact fun h1 h2 => congrArg Host.Outcome.next (powerEntryDone_not (s := passTo t s) h1 h2)
  · exact fun hs ha => ⟨congrArg Host.Outcome.next (wakeEvent_standby (s := passTo t s) hs ha rfl),
      congrArg Host.Outcome.next (wakeEvent_standby (s := { passTo t s with pins := { s.pins with hibWake := true } }) hs ha rfl),
      congrArg Host.Outcome.next (wakeEvent_standby (s := { passTo t s with pins := { s.pins with perstN := true } }) hs ha rfl),
      congrArg Host.Outcome.next (wakeEvent_none (s := passTo t s) (wakeCounts_standby (s := passTo t s) hs))⟩
  · exact fun hs he ha => ⟨congrArg Host.Outcome.next (wakeEvent_hibernate (s := passTo t s) hs he ha rfl),
      congrArg Host.Outcome.next (wakeEvent_hibernate (s := { passTo t s with pins := { s.pins with hibWake := true } }) hs he ha rfl),
      congrArg Host.Outcome.next (wakeEvent_none (s := passTo t s) (wakeCounts_hibernate (s := passTo t s) hs he))⟩
  · exact fun hs ha he => congrArg Host.Outcome.next
      (wakeEvent_waits (s := passTo t s) (wakeCounts_standby (s := passTo t s) hs) ha he)
  · exact fun c hs ha hw he => congrArg Host.Outcome.next ((wakeSourcesArmed_wakes (s := passTo t s) (c := c) (.inl hs) ha
      ((if_neg (ne_true_of_eq_false hw)).trans he)).trans (wakeNow_standby (s := armedNow (passTo t s)) hs c))
  · exact fun hs ha hw he => congrArg Host.Outcome.next (wakeSourcesArmed_quiet (s := passTo t s) (.inl hs) ha hw he)
  · intro hs he
    have hnone (c : BitVec 3) (u : State) (hu : u.power = s.power) : wakeEvent c u = u :=
      wakeEvent_none (wakeCounts_on (s := u) (by rw [hu, hs]) (by rw [hu, he]))
    refine ⟨congrArg Host.Outcome.next (hnone 3 (passTo t s) rfl), congrArg Host.Outcome.next (hnone 2 (passTo t s) rfl),
      congrArg Host.Outcome.next (hnone 4 { passTo t s with pins := { s.pins with perstN := true } } rfl), fun b => ?_, fun ms hms ha hw hr => ?_⟩
    · cases b with
      | false => rfl
      | true => exact congrArg Host.Outcome.next (hnone 1 { passTo t s with pins := { s.pins with hibWake := true } } rfl)
    · exact ⟨fun hj => congrArg Host.Outcome.next (hibReqN_idle (s := passTo t s) hs he hms ha hw hr hj),
        fun hj hlt => congrArg Host.Outcome.next (hibReqN_early (s := passTo t s) hs he hms ha hw hr hj hlt),
        fun hj hge hl => congrArg Host.Outcome.next (hibReqN_endsBuild (s := passTo t s) hs he hms ha hw hr hj hge hl),
        fun hj hge hl => congrArg Host.Outcome.next (hibReqN_endsLine (s := passTo t s) hs he hms ha hw hr hj hge hl)⟩
  · intro b hs ha hb hc
    refine congrArg Host.Outcome.next (wakeSourcesArmed_wakes (s := passTo t s) hs ha ?_)
    cases b with
    | true => exact if_pos hb
    | false =>
      obtain ⟨c, he⟩ := Option.ne_none_iff_exists'.1 (hc.resolve_left Bool.false_ne_true)
      refine (if_neg (ne_true_of_eq_false hb)).trans ?_
      rw [passTo_power, he]
      rfl
  · exact fun hs ha hw he => congrArg Host.Outcome.next (wakeSourcesArmed_quiet (s := passTo t s) (.inr hs) ha hw he)
  · rfl

end Sys2Proof.Machine
end
